-- ==== Sys2Proof/Word.lean ====
section
/-!
DEFINITION. The word types of the NM7424: a register word, a byte, and the plainest conversions between words, naturals
and signed values (00 R6, R7, R8).
-/

namespace Sys2Proof

/-- A 32-bit register or SRAM word (01 R26: the register bus carries 32-bit accesses). -/
abbrev Word := BitVec 32

/-- A byte of SRAM or NVM (00 R7). -/
abbrev Byte := BitVec 8

/-- A natural number as a register word, modulo 2^32. -/
def Word.of (n : Nat) : Word := BitVec.ofNat 32 n

end Sys2Proof
end

