-- ==== Sys2Proof/Syntax.lean ====
section
/-!
DEFINITION. The commands of the NM7424: one constructor per row of the table of operations and events.  Every command
carries `dt`, the TCLK periods (625 ps, 01 R17) that have passed since the command before it, and then what the
environment supplies with it (counts, codes, addresses, words, measured values).
-/

namespace Sys2Proof

/-- The complement-protected values whose comparison can fail (01 R30; 02 R37; 03 R81; 04 R110; 07 R201). -/
inductive CplSite where
  /-- The coarse timestamp counter (02 R37). -/
  | coarse
  /-- The device-time counter (02 R37). -/
  | devTime
  /-- Active word, holdover word, or active reference index of paddock `n` (04 R110). -/
  | padWord (n : Nat) | padHold (n : Nat) | padRef (n : Nat)
  /-- Header of a queue slot (03 R81). -/
  | slot (n : Nat)
  /-- Accumulator or last sent word of a steering port (07 R201). -/
  | steerAcc (n : Nat) | steerWord (n : Nat)
  deriving DecidableEq, Repr

/-- The fitted holdover model of a paddock, as a bank holds it (12 R327). -/
structure HoldModel where
  valid : Bool
  secs : Nat
  ageing : Int
  c1 : Int
  c2 : Int
  th : Int
  deriving DecidableEq, Repr

/-- What the shepherd core has measured or fitted when a mailbox service completes (10 R280): the
mask of failed tests of SELFTEST, the holdover models at a LEARN stop, and at a LEARN start the holdover banks whose reads needed a
correction and those with an uncorrectable group (12 R327). -/
structure MbxData where
  failed : Nat
  models : List HoldModel
  corr : List Nat
  bad : List Nat
  deriving DecidableEq, Repr

/-- What a HELLO frame carries besides its SRC (08 R212). -/
structure Hello where
  prio : Nat
  elig : Bool
  role : Nat
  bw : Nat
  bwV : Bool
  hops : Nat
  beacon : Nat
  asym : Int
  mode : Nat
  follow : Nat
  deriving DecidableEq, Repr

/-- What the lock of the system PLL finds (01 R16; 13 R390): the fuse word that reads with a double-bit error, and the first reading
of the die temperature. -/
structure LockReads where
  eccWord : Option Nat
  temp : Int
  deriving DecidableEq, Repr

/-- A push (03 R73, R81): the master that makes it, and whether the body reads a double-bit error at its acceptance. -/
structure PushBy where
  master : Nat
  slotEcc : Bool
  deriving DecidableEq, Repr

/-- The result of a conversion (02 R32, R33): the SAR's code, and whether the arbiter at the cell's input took the next TCLK
edge, so that this cell stopped one TCLK period after the event's stop edge. -/
structure CellCode where
  code : Nat
  later : Bool
  deriving DecidableEq, Repr

/-- A request of IMG_COMMIT (09 R249): its tag, and the offsets of IMG_A and IMG_B that read with an uncorrectable error. -/
structure CommitReads where
  tag : Nat
  badA : List Nat
  badB : List Nat
  deriving DecidableEq, Repr

/-- The words of a READ (10 R256): how many were clocked out, and whether the one after them was fetched. -/
structure SpiFetch where
  n : Nat
  ahead : Bool
  deriving DecidableEq, Repr

/-- The words of a READ_CRC (10 R255, R256): COUNT, how many were clocked out, and whether the one after them was fetched. -/
structure SpiFetchCrc where
  count : Nat
  n : Nat
  ahead : Bool
  deriving DecidableEq, Repr

/-- What was complete of an SPI frame that stalls (10 R258): at most its command byte; a WRITE; a READ with the words fetched and
clocked out, and whether the next one was fetched; a WRITE_CRC; a READ_CRC with COUNT, where it was complete, and its
words. -/
inductive SpiPart where
  | head (cmd : Option Nat)
  | write
  | read (n : Nat) (ahead : Bool)
  | writeCrc
  | readCrc (count : Option Nat) (n : Nat) (ahead : Bool)
  deriving DecidableEq, Repr

/-- The address phase of an I2C write (10 R259, R260): the target and the address of the first word. -/
structure I2cTo where
  target : Nat
  addr : Nat
  deriving DecidableEq, Repr

/-- The address phase of an I2C read (10 R259, R261): the target, and the address of the first word, where it names one. -/
structure I2cFrom where
  target : Nat
  addr : Option Nat
  deriving DecidableEq, Repr

/-- A scan of REGACC (14 R382): whether its Capture-DR finds the access before it not complete (`busy`), and whether its Update-DR
does (`early`); and its WR. -/
structure TapAccess where
  busy : Bool
  early : Bool
  wr : Bool
  deriving DecidableEq, Repr

/-- What the SENS master meets in a read (14 R379): two data bytes, in order of arrival; or a byte of the three it sends that is not
acknowledged, or after which the clock is held for more than 10 ms, with how many it has then sent. -/
inductive SensRx where
  | data (first second : Nat)
  | failed (sent : Nat)
  deriving DecidableEq, Repr

/-- An I2C transaction that is abandoned (10 R262), by what of it was complete: not its address phase; a write with its
acknowledged words; a read with the words fetched, from an address phase or from the present pointer. -/
inductive I2cXfer where
  | head
  | write (addr : Nat) (words : List Nat)
  | read (addr : Option Nat) (n : Nat)
  deriving DecidableEq, Repr

/-- The commands. -/
inductive Instr where
  /-- XOIN_COUNT_DONE (R15): The count of XOIN edges over 1,024 BOOTCLK cycles ends and the boot logic selects the matching table
  row, or selects none. -/
  | xoinCountDone (dt : Nat) (count : Nat)
  /-- XOIN_RECOUNT (R15): With no row selected, the boot logic repeats the XOIN count every 1 ms while it stays at stage XOIN_BAD. -/
  | xoinRecount (dt : Nat) (count : Nat)
  /-- SYS_PLL_LOCK (R16): The system PLL locks; the boot logic moves to SCLK, BOOTCLK stops, fuses load, boot cell calibration
  starts and the history second starts. -/
  | sysPllLock (dt : Nat) (fuses : List Nat) (found : LockReads)
  /-- SYS_PLL_LOL (R18): The system PLL loses lock outside RESET and BOOT; a FATAL source fires and the outputs fold directly. -/
  | sysPllLol (dt : Nat)
  /-- COMPLEMENT_MISMATCH (R30): A value and its complement disagree at the per-LCLK comparison, firing CPL_MISMATCH or TIME_BASE. -/
  | complementMismatch (dt : Nat) (site : CplSite) (onset : Bool)
  /-- CLK_MON (R281): A 1 µs count finds an internal clock off its ratio to ROOT, firing CLK_MON. -/
  | clkMon (dt : Nat) (clock : Nat) (onset : Bool)
  /-- FOLD_PATH (R286): An output driver fails the continuous check of its fold control line; the outputs fold and the failing
  driver goes to high impedance. -/
  | foldPath (dt : Nat) (out : Nat) (onset : Bool)
  /-- SHEP_EXC (R281): The shepherd core takes an exception, firing SHEP_EXC with its address and type. -/
  | shepExc (dt : Nat) (addr : Nat) (type : Nat) (code : Nat)
  /-- BUS_TIMEOUT (R281): A register-bus target gives no answer within 16 SCLK cycles, firing BUS_TIMEOUT. -/
  | busTimeout (dt : Nat) (addr : Nat) (master : Nat) (type : Nat)
  /-- REG_PARITY (R281): A parity error is found in a configuration register, live or shadow, firing REG_PARITY. -/
  | regParity (dt : Nat) (addr : Nat)
  /-- SRAM_ECC (R27): An SRAM access finds a single-bit error, which is corrected and counted, or a double-bit error, which fires
  SRAM_ECC and is captured. -/
  | sramEcc (dt : Nat) (addr : Nat) (master : Nat) (type : Nat) (double : Bool)
  /-- SUPPLY_UNDERVOLTAGE (R344): A monitored rail crosses its monitor threshold, setting or clearing its undervoltage source and
  DEV_SUPPLY bit. -/
  | supplyUndervoltage (dt : Nat) (rail : Nat) (onset : Bool)
  /-- TEMP_READING (R390): The on-die sensor takes its 1 ms reading; cells are judged due for calibration and the temperature fault
  sources are evaluated. -/
  | tempReading (dt : Nat) (temp : Int)
  /-- CHANNEL_EDGE (R46): A selected edge reaches a channel's decimator, which forwards every DEC-th edge to an armed cell or counts
  it lost. -/
  | channelEdge (dt : Nat) (ch : Nat) (sub : Nat)
  /-- EDGE_GEN_WRAP (R108): A paddock edge generator's phase accumulator wraps and emits an edge on its internal channel. -/
  | edgeGenWrap (dt : Nat) (n : Nat) (sub : Nat)
  /-- CONVERSION_DONE (R33): A cell's SAR result is ready; it is checked and turned into a timestamp, or discarded with the event
  counted lost. -/
  | conversionDone (dt : Nat) (cell : Nat) (code : CellCode) (redOk : Bool) (rstOk : Bool) (tableEcc : Bool) (slotEcc : List Nat)
  /-- INTERVAL_TIMEOUT (R61): 300 ns after device time passes start plus CLOSE, the interval job matches its nearest stop in the
  window or completes with TMO. -/
  | intervalTimeout (dt : Nat) (slot : Nat) (slotEcc : List Nat)
  /-- INTERVAL_EARLY_MATCH (R61): 300 ns after device time passes start plus d, with no nearer later stop, the stop before the start
  is matched. -/
  | intervalEarlyMatch (dt : Nat) (slot : Nat) (slotEcc : List Nat)
  /-- FREQ_GATE_TIMEOUT (R78): A frequency job sees no opening edge within GATE, or no closing edge by open plus twice GATE, and
  completes with TMO. -/
  | freqGateTimeout (dt : Nat) (slot : Nat) (slotEcc : List Nat)
  /-- POOL_ALLOCATE (R52): At an LCLK edge the pool gives free cells to the waiting uses in priority order: replacements, handovers,
  pilots, calibration and channel arming. -/
  | poolAllocate (dt : Nat)
  /-- PILOT_DUE (R43): A cell's pilot interval of 32 µs or 128 µs elapses and a pilot conversion falls due at the next position. -/
  | pilotDue (dt : Nat) (cell : Nat)
  /-- PILOT_WAIT_EXPIRY (R44): A pilot that has waited a further 128 µs for a free cell takes its job cell, leaving the channel
  unarmed for up to 250 ns. -/
  | pilotWaitExpiry (dt : Nat) (cell : Nat)
  /-- HANDOVER_SLOW (R53): For a loop stream spaced above 10 µs, the armed handover cell takes the LOOP role at the first edge at
  which the next nominal event is more than 2 µs ahead. -/
  | handoverSlow (dt : Nat)
  /-- CAL_DEFER_EXPIRY (R42): A due cell's CAL_DEFER timer expires; the cell becomes overdue, calibration ranks above jobs for it,
  and CAL_OVERDUE fires. -/
  | calDeferExpiry (dt : Nat) (cell : Nat)
  /-- CAL_IDLE_EXPIRY (R42): A job cell has been idle for a continuous 1 ms, allowing calibration of a due but not overdue cell to
  take it. -/
  | calIdleExpiry (dt : Nat)
  /-- CAL_RUN_DONE (R39): A calibration run collects its hits and builds the new table, which replaces the active table in one LCLK
  cycle. -/
  | calRunDone (dt : Nat) (hits : List Nat) (pilots : List Nat)
  /-- BOOT_CAL_DONE (R40): Boot calibration of every cell with 2^20 hits completes and each table is marked COARSE. -/
  | bootCalDone (dt : Nat) (hits : List (List Nat)) (pilots : List (List Nat))
  /-- QUAR_PILOTS_DONE (R54): The 64 pilots on a quarantined cell complete; the cell is retired with CELL_FAULT or returns to the
  JOB role. -/
  | quarPilotsDone (dt : Nat) (cell : Nat) (fails : Nat)
  /-- RETEST (R69): MEAS_CELL_CMD.RETEST queues a full recalibration of a retired cell, or is ignored with CMD_IGNORED. -/
  | retest (dt : Nat) (master : Nat) (cell : Nat)
  /-- RETEST_DONE (R58): A retest's calibration and 64 pilots end; the cell returns to JOB or stays RETIRED with FAULT RETEST. -/
  | retestDone (dt : Nat) (fails : Nat)
  /-- DEV_TIME_SEC_LO_READ (R38): A read of DEV_TIME_SEC_LO latches all four device-time fields for the reading master. -/
  | devTimeSecLoRead (dt : Nat) (master : Nat)
  /-- LO_HALF_READ (R134): A read of the _LO register of a 48-bit pair latches the _HI half for the reading master. -/
  | loHalfRead (dt : Nat) (master : Nat) (addr : Nat)
  /-- TIME_INTERVAL_PUSH (R75): A push of a KIND 0 request is decided and the job is accepted into a queue slot or rejected with a
  reason. -/
  | timeIntervalPush (dt : Nat) (push : PushBy)
  /-- FREQUENCY_PUSH (R75): A push of a KIND 1 frequency or ratio request is accepted or rejected. -/
  | frequencyPush (dt : Nat) (push : PushBy)
  /-- TIMESTAMP_STREAM_PUSH (R75): A push of a KIND 2 timestamp-stream request is accepted or rejected. -/
  | timestampStreamPush (dt : Nat) (push : PushBy)
  /-- PERIOD_STATISTICS_PUSH (R75): A push of a KIND 3 period-statistics request is accepted or rejected. -/
  | periodStatisticsPush (dt : Nat) (push : PushBy)
  /-- MARKER_PUSH (R75): A push of a KIND 4 marker is accepted, with its result fixed at acceptance, or rejected. -/
  | markerPush (dt : Nat) (push : PushBy)
  /-- RING_FLUSH_PUSH (R75): A push of a KIND 5 ring flush is accepted or rejected; its result is fixed once every earlier job to
  the ring has completed. -/
  | ringFlushPush (dt : Nat) (push : PushBy)
  /-- UNUSED_KIND_PUSH (R75): A push with KIND 6 to 15 is rejected with reason KIND, or with an earlier reason. -/
  | unusedKindPush (dt : Nat) (master : Nat)
  /-- ABORT_SLOT (R85): MEAS_ABORT with SCOPE 0 aborts the job in SLOT if its TAG matches, or sets NONE. -/
  | abortSlot (dt : Nat) (master : Nat) (slot : Nat)
  /-- ABORT_RING (R85): MEAS_ABORT with SCOPE 1 aborts every job in flight to RING; jobs already fixed count as TOO_LATE. -/
  | abortRing (dt : Nat) (master : Nat) (ring : Nat)
  /-- ABORT_ALL (R85): MEAS_ABORT with SCOPE 2 aborts every job in flight, with completion winning for fixed results. -/
  | abortAll (dt : Nat) (master : Nat)
  /-- ABORT_NONE (R85): MEAS_ABORT with SCOPE 3 selects nothing. -/
  | abortNone (dt : Nat) (master : Nat)
  /-- RING_RECORD_WRITE (R94): A ring writes the next record of its write queue, if space allows, and advances HEAD; held
  completions and waiting records are written in order. -/
  | ringRecordWrite (dt : Nat) (ring : Nat) (slotEcc : List Nat)
  /-- EPOCH_SEC17 (R89): Device-time seconds bit 17 changes and every ring with EPOCH_EN receives an EPOCH record with cause SEC17. -/
  | epochSec17 (dt : Nat)
  /-- EPOCH_REQUEST (R89): TQ_n_CMD.EPOCH writes an EPOCH record with cause REQUEST, or is ignored when EPOCH_EN is 0. -/
  | epochRequest (dt : Nat) (master : Nat) (ring : Nat)
  /-- RING_DISABLE_DONE (R96): Once the jobs of a DISABLING ring have their records written, the FLUSH record with TAG 0xFFFF_FFFF
  is written and DISABLING clears. -/
  | ringDisableDone (dt : Nat) (ring : Nat)
  /-- TAIL_WRITE (R93): A host write of TQ_n_TAIL in HOST mode is accepted within COUNT or rejected with TAIL_ERR. -/
  | tailWrite (dt : Nat) (master : Nat) (ring : Nat) (tail : Nat)
  /-- TP_FRAME_TIMEOUT (R99): FRAME_TMO passes since a frame's first record became available and the port closes the frame. -/
  | tpFrameTimeout (dt : Nat) (ring : Nat)
  /-- TP_FRAME_SEND (R99): A closed frame of 1 to 512 records of one ring is sent on the next free lane, with rings served
  round-robin. -/
  | tpFrameSend (dt : Nat) (lane : Nat) (damagedAt : Option Nat)
  /-- TP_ACK_RX (R100): An ACK block on TP_RX moves TAIL past the acknowledged records, or is discarded and counted in TP_ACK_ERR. -/
  | tpAckRx (dt : Nat) (ring : Nat) (seq : Nat) (crc : Nat)
  /-- TP_NAK_RX (R100): A valid NAK asks the port to resend the ring from the named SEQ. -/
  | tpNakRx (dt : Nat) (ring : Nat) (seq : Nat) (crc : Nat)
  /-- TP_REPLAY_TIMEOUT (R101): No ACK has advanced TAIL for REPLAY_TMO while records are outstanding, and the port resends from
  TAIL. -/
  | tpReplayTimeout (dt : Nat) (ring : Nat)
  /-- TP_LANE_FAULT (R103): The port finds a transmit lane faulty and takes it out of use. -/
  | tpLaneFault (dt : Nat) (lane : Nat)
  /-- TP_RX_LOCK_TIMEOUT (R103): TP_RX has had no block lock for 1 ms, or no lane is usable, and TALLY_LINK fires. -/
  | tpRxLockTimeout (dt : Nat)
  /-- PADDOCK_UPDATE (R105): A DPLL or WATCH paddock pairs a reference timestamp with feedback, forms the phase error, filters it
  and writes the new word to its actuator. -/
  | paddockUpdate (dt : Nat) (n : Nat)
  /-- STEER_GATE_UPDATE (R197): A STEER paddock times one beat gate, computes frequency and error against TEFF, runs PI2, and its
  port advances A. -/
  | steerGateUpdate (dt : Nat) (bn : Nat)
  /-- UPDATE_GAP_SKIP (R107): At 1.5 P after the last reference timestamp, and at each further P, a skipped update is counted. -/
  | updateGapSkip (dt : Nat) (n : Nat)
  /-- FEEDBACK_LOSS (R107): Feedback has been absent for more than 3 P and FB_LOSS is set. -/
  | feedbackLoss (dt : Nat) (n : Nat)
  /-- TSTEP_CMD (R112): PAD_n_TSTEP_CMD.GO commands a device-time step, rejected or applied at the time keeper's next update or next
  TCLK edge. -/
  | tstepCmd (dt : Nat) (master : Nat) (n : Nat)
  /-- STEERED_TIMEOUT (R123): No SFO or SPO value is accepted for STEER_TMO seconds and the paddock enters HOLDOVER. -/
  | steeredTimeout (dt : Nat) (n : Nat)
  /-- PHASE_SLEW_TICK (R123): While a STEERED paddock makes no updates, it advances the phase slew and so once every P. -/
  | phaseSlewTick (dt : Nat) (n : Nat)
  /-- MODEL_STALE (R129): No write of M has been accepted for 4 s with MODEL_EN 1, and MODEL_STALE is set. -/
  | modelStale (dt : Nat) (n : Nat)
  /-- HISTORY_SECOND (R126): A history second ends; each paddock writes its level-0 entry, forms completed higher-level entries and
  recomputes its holdover average. -/
  | historySecond (dt : Nat)
  /-- LEARN_MODEL_TICK (R129): Once per second the shepherd core writes the model correction M of each paddock with LEARN active. -/
  | learnModelTick (dt : Nat) (ms : List Int)
  /-- REF_ACTIVITY_LOSS (R138): No undecimated edge arrives on a reference for the activity limit and cause ACTIVITY sets. -/
  | refActivityLoss (dt : Nat) (n : Nat)
  /-- REF_ACTIVITY_RESTORE (R138): Edges have arrived without such a gap for the same length of time and cause ACTIVITY clears. -/
  | refActivityRestore (dt : Nat) (n : Nat)
  /-- FM_WINDOW_END (R139): A frequency-monitor window ends, giving FOFF, which drives the hurdles, the stray dwell, INIT, PJUMP
  clearing and the vote. -/
  | fmWindowEnd (dt : Nat) (n : Nat)
  /-- OCXO_QUAL_TIMEOUT (R150): A declared OCXOIN has not become PRESENT 5 s after the image applied and OCXO_ABSENT fires. -/
  | ocxoQualTimeout (dt : Nat)
  /-- SPACING_CLEAR (R141): One second passes with no spacing violation and cause SPACING clears. -/
  | spacingClear (dt : Nat) (n : Nat)
  /-- PLUG_PULL (R142): PLUG_N_k reads high on two consecutive samples and cause PLUG sets. -/
  | plugPull (dt : Nat) (k : Nat)
  /-- PLUG_SETTLE (R142): PLUG_N_k has stayed low for SETTLE and cause PLUG clears. -/
  | plugSettle (dt : Nat) (k : Nat)
  /-- WTR_EXPIRY (R144): A monitor's wait-to-restore expires and it returns to QUAL or STRAY once a qualifying FM result exists. -/
  | wtrExpiry (dt : Nat) (n : Nat)
  /-- WTR_CLR (R144): REF_n_CMD.WTR_CLR ends the wait-to-restore now, subject to the FM condition. -/
  | wtrClr (dt : Nat) (master : Nat) (n : Nat)
  /-- PB_PRESS (R373): A push button's debounced state changes from high to low and the action of its FUNC is taken. -/
  | pbPress (dt : Nat) (k : Nat)
  /-- PB_RELEASE (R374): A LAMP button is released and each LED resumes its pattern. -/
  | pbRelease (dt : Nat) (k : Nat)
  /-- PB_STUCK (R373): A button has been low for more than 10 s and PB_STUCK is raised. -/
  | pbStuck (dt : Nat) (k : Nat)
  /-- LED_OPEN (R378): An LED sink finds its pin below 0.2 V for 1 ms while on, and LED_OPEN fires. -/
  | ledOpen (dt : Nat) (k : Nat) (onset : Bool)
  /-- SENS_READ (R379): Every 250 ms the SENS master reads the external sensor, storing the temperature or counting a failure
  towards EXT_SENSOR. -/
  | sensRead (dt : Nat) (raw : SensRx)
  /-- RECAL (R165): FLOCK_k_CMD.RECAL starts band calibration when every output of the APLL is OFF or SAFE, or is rejected with
  CMD_REJ. -/
  | recal (dt : Nat) (master : Nat) (k : Nat)
  /-- APLL_CAL_DONE (R168): An APLL band calibration ends with LOCK set or in CAL_FAIL, and outputs waiting on the APLL start. -/
  | apllCalDone (dt : Nat) (k : Nat) (ok : Bool) (band : Nat)
  /-- APLL_LOL (R167): An APLL loses lock; LOCK clears, LOL is counted and APLL_LOL fires. -/
  | apllLol (dt : Nat) (k : Nat)
  /-- APLL_POWER_DOWN (R185): In SLEEP, once every output of an APLL with no keep-alive output has reached SAFE, its VCO stops and
  its dividers hold. -/
  | apllPowerDown (dt : Nat) (k : Nat)
  /-- PSYN_PULSE (R174): A pulse synthesiser's accumulator reaches the next scheduled crossing and a pulse of WIDTH is emitted. -/
  | psynPulse (dt : Nat) (j : Nat)
  /-- OUTPUT_STOP_DONE (R180): A STOPPING output reaches the stop point of its SLOW rule and takes its SAFE state. -/
  | outputStopDone (dt : Nat) (n : Nat) (high : Bool)
  /-- OUTPUT_START (R182): An output released to RUN starts at the next rising edge of its divider or next scheduled pulse. -/
  | outputStart (dt : Nat) (n : Nat)
  /-- DRV_FAULT (R184): A driver detects a short or open termination and puts its output into SAFE with OUT_DRV. -/
  | drvFault (dt : Nat) (n : Nat)
  /-- OUT_TAP_LOSS (R281): An output in RUN shows no tap edge for its limit and OUT_TAP_LOSS fires. -/
  | outTapLoss (dt : Nat) (n : Nat) (onset : Bool)
  /-- OUT_TEE_WRITE (R188): A write of OUT_TEE routes or removes a tap tee, or is rejected with TEE_REJ. -/
  | outTeeWrite (dt : Nat) (master : Nat) (en : Bool) (src : Nat) (dest : Nat)
  /-- BN_NO_EDGE (R196): A beat channel forwards no edge for 3 P and cause NO_EDGE sets. -/
  | bnNoEdge (dt : Nat) (b : Nat)
  /-- BN_LOS (R196): A beat input's amplitude falls below the loss-of-signal threshold and cause LOS sets within 1 µs. -/
  | bnLos (dt : Nat) (b : Nat)
  /-- BN_LOS_CLEAR (R196): The beat amplitude has stayed above threshold for 1 ms and cause LOS clears. -/
  | bnLosClear (dt : Nat) (b : Nat)
  /-- STEER_ACC_TICK (R201): In HOLDOVER or FREERUN the steering port advances A once every t_u. -/
  | steerAccTick (dt : Nat) (k : Nat)
  /-- STEER_FRAME_START (R205): A frame reason holds and the spacing allows it, so the port starts a frame carrying the present word. -/
  | steerFrameStart (dt : Nat) (k : Nat)
  /-- STEER_FRAME_END (R204): A steering frame completes as ST_CS_N_k rises. -/
  | steerFrameEnd (dt : Nat) (k : Nat)
  /-- STEER_REFRESH (R205): REFRESH ms pass since the last frame, giving a reason to send. -/
  | steerRefresh (dt : Nat) (k : Nat)
  /-- SEND (R205): STEER_k_CMD.SEND commands a frame. -/
  | send (dt : Nat) (master : Nat) (k : Nat)
  /-- RESUME (R207): STEER_k_CMD.RESUME leaves FAULTED and resets A from the last word, or is rejected with CMD_REJ. -/
  | resume (dt : Nat) (master : Nat) (k : Nat)
  /-- STEER_HOLD_TIMEOUT (R206): The paddock has been in HOLDOVER for HOLD_TMO and, with FT_HOLDTMO, the port enters FAULTED. -/
  | steerHoldTimeout (dt : Nat) (k : Nat)
  /-- STEER_CLAMP_TIMEOUT (R206): CLAMP_LIM has been set for CLAMP_TMO and, with FT_CLAMP, the port enters FAULTED. -/
  | steerClampTimeout (dt : Nat) (k : Nat)
  /-- MARK_LAUNCH (R215): Device time reaches a multiple of P_M and a MARK is launched on every UP link, followed by a TS frame. -/
  | markLaunch (dt : Nat) (subA : Nat) (subB : Nat)
  /-- MARK_RX (R215): A neighbour's MARK arrives and its arrival is timestamped. -/
  | markRx (dt : Nat) (link : Nat) (mseq : Nat) (sub : Nat)
  /-- TS_RX (R216): A TS frame arrives; the exchange gives theta and rtt, and a link entry makes its paddock update. -/
  | tsRx (dt : Nat) (link : Nat) (launch : Nat) (mL : Nat) (arrival : Nat) (mA : Nat)
  /-- HELLO_RX (R214): A valid HELLO arrives, updating neighbour state and bringing the link UP after three. -/
  | helloRx (dt : Nat) (link : Nat) (src : Nat) (hello : Hello)
  /-- STROBE_RX (R223): A STROBE frame is accepted, forwarded as needed and scheduled for its named time. -/
  | strobeRx (dt : Nat) (link : Nat) (src : Nat) (dst : Nat) (hops : Nat) (fseq : Nat) (mask : Nat) (time : Nat)
  /-- MUSTER_RX (R223): A MUSTER frame is accepted, forwarded as needed and scheduled for its named time. -/
  | musterRx (dt : Nat) (link : Nat) (src : Nat) (dst : Nat) (hops : Nat) (fseq : Nat) (seq : Nat) (time : Nat)
  /-- NOTICE_RX (R225): A NOTICE is stored in PAST_NOTICE_LAST and fires PAST_NOTICE. -/
  | noticeRx (dt : Nat) (link : Nat) (src : Nat) (dst : Nat) (hops : Nat) (fseq : Nat) (fsrc : Nat) (sev : Nat) (fold : Bool) (time : Nat)
  /-- RREQ_RX (R226): A remote register request is executed as master 4 or 5, or denied, and answered with an RRSP. -/
  | rreqRx (dt : Nat) (link : Nat) (src : Nat) (dst : Nat) (hops : Nat) (fseq : Nat) (wr : Bool) (tag : Nat) (addr : Nat) (data : Nat)
  /-- RRSP_RX (R226): An RRSP with the outstanding TAG completes the remote access; one with another TAG is discarded. -/
  | rrspRx (dt : Nat) (link : Nat) (src : Nat) (dst : Nat) (hops : Nat) (fseq : Nat) (status : Nat) (tag : Nat) (data : Nat)
  /-- FRAME_DISCARD (R212): A link frame with a bad CRC, unused TYPE or code-group error is discarded and counted. -/
  | frameDiscard (dt : Nat) (link : Nat)
  /-- LINK_SYNC_GAIN (R214): A receive lane gains code-group sync after three commas. -/
  | linkSyncGain (dt : Nat) (link : Nat)
  /-- LINK_SYNC_LOSS (R214): A receive lane loses sync or signal and the link goes DOWN with PLINK_DOWN. -/
  | linkSyncLoss (dt : Nat) (link : Nat)
  /-- HELLO_TIMEOUT (R214): No valid HELLO has arrived for HELLO_TMO times HELLO_PER and the link goes DOWN. -/
  | helloTimeout (dt : Nat) (link : Nat)
  /-- HELLO_PERIOD (R220): At each HELLO period the device sends HELLO and evaluates the bellwether election. -/
  | helloPeriod (dt : Nat)
  /-- RACC_READ (R226): PAST_RACC_CTL GO with WR 0 sends a remote read request, or completes with NOT_BW or BUSY. -/
  | raccRead (dt : Nat) (master : Nat) (dst : Nat)
  /-- RACC_WRITE (R226): PAST_RACC_CTL GO with WR 1 sends a remote write request, or completes with NOT_BW or BUSY. -/
  | raccWrite (dt : Nat) (master : Nat) (dst : Nat)
  /-- RACC_TIMEOUT (R226): No RRSP arrives within RACC_TMO and the remote access completes with TIMEOUT. -/
  | raccTimeout (dt : Nat)
  /-- PAST_STROBE_APPLY (R223): Device time reaches a strobe's named time and the masked groups apply. -/
  | pastStrobeApply (dt : Nat)
  /-- PAST_MUSTER_APPLY (R223): Device time reaches a muster's named time and the muster is taken. -/
  | pastMusterApply (dt : Nat)
  /-- SLOT_SCAN_DONE (R240): Both NVM slots are read and classified, and the image to boot is chosen. -/
  | slotScanDone (dt : Nat) (corrA : Bool) (corrB : Bool) (badA : List Nat) (badB : List Nat)
  /-- STREAM_VERIFY_DONE (R243): Classification of a host stream ends; the stream is loaded or the stage becomes STREAM_BAD. -/
  | streamVerifyDone (dt : Nat) (corr : Bool) (bad : List Nat)
  /-- BOOT_LOAD_DONE (R244): Register runs, patch and INIT list are loaded and APLL band calibrations start. -/
  | bootLoadDone (dt : Nat) (badDump : List Nat)
  /-- IMAGE_APPLY (R246): The image applies at one LCLK edge: all groups apply, dividers start, DEV_MODE becomes RUN and latched
  boot faults are reacted to. -/
  | imageApply (dt : Nat)
  /-- IMG_REWRITE_RETRY (R241): A tie rewrite refused by the hold-up check tries again after 1 s. -/
  | imgRewriteRetry (dt : Nat)
  /-- SPI_WRITE (R256): A WRITE frame writes each completed word, or passes STAGE words to the boot loader during a host stream. -/
  | spiWrite (dt : Nat) (addr : Nat) (words : List Nat) (left : Nat)
  /-- SPI_READ (R256): A READ frame returns words from the address upward, prefetching each next word. -/
  | spiRead (dt : Nat) (addr : Nat) (words : SpiFetch)
  /-- SPI_WRITE_CRC (R255): A WRITE_CRC frame is judged at CS_N rise and its words are written only if length and CRC are right. -/
  | spiWriteCrc (dt : Nat) (addr : Nat) (words : List Nat) (extra : Nat) (crc : Nat)
  /-- SPI_READ_CRC (R255): A READ_CRC frame returns COUNT words followed by a CRC-8. -/
  | spiReadCrc (dt : Nat) (addr : Nat) (words : SpiFetchCrc)
  /-- SPI_UNKNOWN_CMD (R253): An unknown command byte makes the device ignore the frame and set UNKNOWN_CMD. -/
  | spiUnknownCmd (dt : Nat) (cmd : Nat)
  /-- SPI_STALL_TIMEOUT (R258): CS_N stays low with no SCK edge for 1 ms and the frame is aborted. -/
  | spiStallTimeout (dt : Nat) (part : SpiPart) (addr : Nat) (words : List Nat)
  /-- I2C_WRITE (R260): An I2C write transaction writes each completed word at the pointer, acknowledging it only if accepted. -/
  | i2cWrite (dt : Nat) (start : I2cTo) (words : List Nat) (left : Nat)
  /-- I2C_READ (R261): An I2C read transaction returns words from the pointer, advancing it at each fetch. -/
  | i2cRead (dt : Nat) (start : I2cFrom) (n : Nat)
  /-- I2C_STALL_TIMEOUT (R262): An open I2C transaction sees no SCL edge for 1 ms and is abandoned. -/
  | i2cStallTimeout (dt : Nat) (target : Nat) (xfer : I2cXfer)
  /-- REGISTER_WRITE (R275): A write to a register with no row of its own takes effect under its access class, landing in the shadow
  for RWS fields. -/
  | registerWrite (dt : Nat) (master : Nat) (addr : Nat) (data : Nat)
  /-- CPL_HALF_WRITE (R267): A write to a half of a complement pair pairs per master and is accepted or rejected with CPL_ERR. -/
  | cplHalfWrite (dt : Nat) (master : Nat) (addr : Nat) (data : Nat)
  /-- SQC_CLEAR_WRITE (R273): A write to a sequence-clear register clears the named bits if its SEQ is current, or counts a stale
  clear. -/
  | sqcClearWrite (dt : Nat) (master : Nat) (addr : Nat) (data : Nat)
  /-- UPDATE_STROBE_WRITE (R268): A write of DEV_UPDATE.GROUPS applies the named groups' shadows, or sends a STROBE for
  pasture-routed groups. -/
  | updateStrobeWrite (dt : Nat) (master : Nat) (groups : Nat)
  /-- GPIO_STROBE_EDGE (R268): An edge on the strobe GPIO applies the groups in GPIO_MASK 10 ns to 20 ns later. -/
  | gpioStrobeEdge (dt : Nat) (pin : Nat) (falling : Bool)
  /-- MUSTER_DEVICE (R271): DEV_MUSTER.GO with PASTURE 0 copies every mustered register into the held bank and increments the
  sequence. -/
  | musterDevice (dt : Nat) (master : Nat)
  /-- MUSTER_PASTURE (R271): DEV_MUSTER.GO with PASTURE 1 sends a MUSTER frame and sets PEND, or is ignored with DEV_CMD_REJ. -/
  | musterPasture (dt : Nat) (master : Nat)
  /-- CROOK_LOCK (R274): A write of 1 to DEV_CROOK.LOCK sets the crook lock until POR or pin reset. -/
  | crookLock (dt : Nat) (master : Nat)
  /-- INFO (R280): The INFO service returns the ROM revision and whether a patch is running. -/
  | info (dt : Nat) (master : Nat) (tag : Nat)
  /-- ALIGN (R189): The ALIGN service measures return taps and trims output delays to their targets. -/
  | align (dt : Nat) (master : Nat) (tag : Nat)
  /-- LEARN (R280): The LEARN service starts or stops holdover model learning for the masked paddocks. -/
  | learn (dt : Nat) (master : Nat) (tag : Nat)
  /-- DUMP (R300): The DUMP service writes a new dump to SRAM and optionally to NVM. -/
  | dump (dt : Nat) (master : Nat) (tag : Nat)
  /-- IMG_COMMIT (R249): The IMG_COMMIT service verifies the staged image and writes it into the slot not booted. -/
  | imgCommit (dt : Nat) (master : Nat) (req : CommitReads)
  /-- KEY_CHANGE (R332): The KEY_CHANGE service replaces a region's key after checking the old key. -/
  | keyChange (dt : Nat) (master : Nat) (tag : Nat)
  /-- SELFTEST (R280): The SELFTEST service runs the selected tests without disturbing loops or outputs. -/
  | selftest (dt : Nat) (master : Nat) (tag : Nat)
  /-- UNKNOWN_SERVICE (R280): A mailbox request with an unknown service code completes at once with UNKNOWN. -/
  | unknownService (dt : Nat) (master : Nat) (service : Nat) (tag : Nat)
  /-- MBX_ABORT (R279): DEV_MBX_CMD.ABORT stops a running ALIGN, SELFTEST or DUMP, or is ignored with REJECT. -/
  | mbxAbort (dt : Nat) (master : Nat)
  /-- MBX_SERVICE_DONE (R277): A service completes; CODE and results are written, BUSY clears and DONE is set. -/
  | mbxServiceDone (dt : Nat) (found : MbxData)
  /-- MBX_TIMEOUT (R278): A service's timeout expires; it completes with TIMEOUT and MBX_TIMEOUT fires. -/
  | mbxTimeout (dt : Nat)
  /-- FAULT_INJECT (R295): FLT_INJ GO injects one firing of SRC at the collector, or is rejected. -/
  | faultInject (dt : Nat) (master : Nat) (src : Nat) (sim : Bool)
  /-- USER_FIRE (R298): Writing bit k of FLT_USER fires USER_k once as a real firing. -/
  | userFire (dt : Nat) (master : Nat) (mask : Nat)
  /-- CAP_REL (R293): FLT_CMD.CAP_REL with the matching CAP_SEQ releases the first-error capture. -/
  | capRel (dt : Nat) (master : Nat) (seq : Nat)
  /-- FN_REL (R290): FLT_CMD.FN_REL releases a latched FAULT_N when neither the fault state nor FOLD holds. -/
  | fnRel (dt : Nat) (master : Nat)
  /-- DUMP_REL (R305): FLT_CMD.DUMP_REL clears SRAM_VALID so the SRAM dump may be overwritten. -/
  | dumpRel (dt : Nat) (master : Nat)
  /-- NVM_DUMP_REL (R305): FLT_CMD.NVM_DUMP_REL makes the shepherd core erase the NVM dump region. -/
  | nvmDumpRel (dt : Nat) (master : Nat)
  /-- ESCALATION_EXPIRY (R285): The escalation timer expires and the device enters FOLD. -/
  | escalationExpiry (dt : Nat)
  /-- QUIET_EXPIRY (R288): The quiet period expires, the fault state ends and FOLD_REQ may clear and unfold the device. -/
  | quietExpiry (dt : Nat)
  /-- FAULT_N_WIDTH_END (R290): The FAULT_N minimum width ends and FAULT_N is released if allowed. -/
  | faultNWidthEnd (dt : Nat)
  /-- DUMP_SRAM_DONE (R301): The shepherd core finishes the SRAM dump with its checks, sets SRAM_VALID and starts the NVM copy. -/
  | dumpSramDone (dt : Nat) (core : List Nat)
  /-- DUMP_TIMEOUT (R301): The SRAM dump has not completed within 10 ms and DUMP_FAIL fires. -/
  | dumpTimeout (dt : Nat)
  /-- LOG_ENTRY (R299): The shepherd core appends an entry for a firing to the NVM LOG region, at most one per source per second. -/
  | logEntry (dt : Nat)
  /-- ERASE_PAGE (R310): NVM_CMD ERASE_PAGE erases one SPARE page, or completes with REGION or KEY. -/
  | erasePage (dt : Nat) (master : Nat) (page : Nat)
  /-- PROGRAM_PAGE (R310): NVM_CMD PROGRAM_PAGE programs a SPARE page from NVM_BUF. -/
  | programPage (dt : Nat) (master : Nat) (page : Nat)
  /-- ERASE_REGION (R310): NVM_CMD ERASE_REGION erases LOG, HOLD or SPARE page by page. -/
  | eraseRegion (dt : Nat) (master : Nat) (region : Nat)
  /-- NVM_CMD_BAD_OP (R310): NVM_CMD with an unused OP completes with REGION. -/
  | nvmCmdBadOp (dt : Nat) (master : Nat) (op : Nat) (region : Nat) (page : Nat)
  /-- NVM_WORK_START (R315): Between operations the controller takes the next work of the highest class and starts its atomic
  operation after the supply check. -/
  | nvmWorkStart (dt : Nat) (inRange : Bool) (weak : Nat) (bad : List Nat)
  /-- NVM_SUPPLY_RETRY (R311): A failed supply check is repeated after 100 µs. -/
  | nvmSupplyRetry (dt : Nat) (inRange : Bool)
  /-- NVM_SUPPLY_TIMEOUT (R311): The supply check still fails after 100 ms; the operation is refused and NVM_POWER fires. -/
  | nvmSupplyTimeout (dt : Nat)
  /-- NVM_OP_DONE (R312): An atomic operation ends and its groups are verified at margin, failing with PROG_FAIL on mismatch. -/
  | nvmOpDone (dt : Nat) (ok : Bool)
  /-- NVM_ECC (R309): An NVM read finds a single-bit error, corrected and counted, or a double-bit error that fires NVM_ECC. -/
  | nvmEcc (dt : Nat) (addr : Nat) (master : Nat) (type : Nat) (double : Bool)
  /-- PATROL_DUE (R316): A patrol step falls due after PATROL_AGE × 3,600 / 320 seconds. -/
  | patrolDue (dt : Nat)
  /-- PATROL_OVERDUE (R318): A due step has waited PATROL_DEFER hours and becomes overdue. -/
  | patrolOverdue (dt : Nat)
  /-- INC (R322): NVM_CNT_CMD INC adds an amount to a user counter through a five-group record. -/
  | inc (dt : Nat) (master : Nat) (id : Nat) (amount : Nat)
  /-- SET (R322): NVM_CNT_CMD SET writes a new value to a user counter through a five-group record. -/
  | set (dt : Nat) (master : Nat) (id : Nat) (value : Nat)
  /-- COUNTER_SCAN_DONE (R324): The post-reset counter scan recovers interrupted updates, sets every counter and sets READY. -/
  | counterScanDone (dt : Nat) (corr : List Nat) (bad : List Nat)
  /-- POWERED_HOUR (R320): 3,600 s of UTICK outside RESET pass and NVM_CNT_2 is advanced. -/
  | poweredHour (dt : Nat)
  /-- LOCK_KEY (R330): NVM_UNLOCK_CMD with LOCK 1 closes the named key without comparison. -/
  | lockKey (dt : Nat) (master : Nat) (region : Nat) (kind : Nat)
  /-- HOLD_BANK_TICK (R327): Every 3,600 s with LEARN active the shepherd core writes the other holdover bank. -/
  | holdBankTick (dt : Nat) (models : List HoldModel)
  /-- CHECK_SCHEDULE_TICK (R337): Every 24 h the shepherd core runs CHK_3 over each image slot and holdover bank. -/
  | checkScheduleTick (dt : Nat)
  /-- GO (R336): CHK_u_CMD.GO latches the configuration and starts a check job, or refuses it. -/
  | go (dt : Nat) (master : Nat) (u : Nat)
  /-- ABORT (R338): CHK_u_CMD.ABORT ends a running check job, or reports TOO_LATE or IDLE. -/
  | abort (dt : Nat) (master : Nat) (u : Nat)
  /-- CHK_JOB_DONE (R338): A check job processes its last word; RES, END and VERDICT are written together. -/
  | chkJobDone (dt : Nat) (u : Nat) (ecc : Option Nat)
  /-- MODE_REQ_RUN (R354): A RUN request leaves SERVICE, SLEEP or FOLD when allowed. -/
  | modeReqRun (dt : Nat) (master : Nat)
  /-- MODE_REQ_SERVICE (R354): A SERVICE request enters SERVICE from RUN when allowed. -/
  | modeReqService (dt : Nat) (master : Nat)
  /-- MODE_REQ_SLEEP (R354): A SLEEP request enters SLEEP from RUN when allowed. -/
  | modeReqSleep (dt : Nat) (master : Nat)
  /-- MODE_REQ_INVALID (R354): A mode request with REQ not 2, 4 or 5 is refused with CODE. -/
  | modeReqInvalid (dt : Nat) (master : Nat) (req : Nat)
  /-- POR_ASSERT (R344): A rail falls below its POR threshold for 1 µs and the device enters a POR pulse. -/
  | porAssert (dt : Nat)
  /-- POR_RELEASE (R344): POR releases 2 ms after the last rail rises; straps are sampled and BOOT starts. -/
  | porRelease (dt : Nat) (src : Nat) (addr : Nat) (resetLow : Bool)
  /-- PIN_RESET (R347): RESET_N stays low for the filter decision time and a pin reset pulse begins. -/
  | pinReset (dt : Nat)
  /-- PIN_RESET_RELEASE (R347): RESET_N rises; straps are sampled and BOOT starts. -/
  | pinResetRelease (dt : Nat) (src : Nat) (addr : Nat)
  /-- SOFT (R348): DEV_RESET with SOFT and the key starts a SOFT reset, or sets KEY_ERR. -/
  | soft (dt : Nat) (master : Nat) (key : Nat)
  /-- WARM (R348): DEV_RESET with WARM and the key starts a WARM reset, or sets KEY_ERR. -/
  | warm (dt : Nat) (master : Nat) (key : Nat)
  /-- WATCHDOG_EXPIRY (R349): The shepherd watchdog has not been kicked for 100 ms and SHEP_WDOG fires. -/
  | watchdogExpiry (dt : Nat)
  /-- WDOG_RESET_START (R349): 1 µs after watchdog expiry the WDOG reset pulse starts. -/
  | wdogResetStart (dt : Nat)
  /-- RESET_PULSE_END (R350): A 1.0 µs SOFT, WARM or WDOG pulse ends; WARM and WDOG resume the prior mode, SOFT enters BOOT. -/
  | resetPulseEnd (dt : Nat)
  /-- EXTEST (R381): The EXTEST instruction drives the boundary scan in SERVICE with the crook lock clear, and otherwise acts as
  BYPASS. -/
  | extest (dt : Nat)
  /-- SAMPLE_PRELOAD (R381): The SAMPLE/PRELOAD instruction selects the boundary-scan register. -/
  | samplePreload (dt : Nat)
  /-- IDCODE (R381): The IDCODE instruction returns the 32-bit device identifier. -/
  | idcode (dt : Nat)
  /-- BYPASS (R381): BYPASS, and every unlisted code, selects the 1-bit bypass register. -/
  | bypass (dt : Nat)
  /-- REGACC (R382): A REGACC Update-DR performs a register access as master 6. -/
  | regacc (dt : Nat) (access : TapAccess) (addr : Nat) (data : Nat)
  /-- JTAG_ACTIVE (R281): The JTAG TAP leaves Test-Logic-Reset and JTAG_ACTIVE becomes live. -/
  | jtagActive (dt : Nat)
  /-- TP_RX_LOCK_LOSS (R103): TP_RX loses block lock; TP_STAT.RX_UP clears and TP_EVT.RX_DOWN is set. -/
  | tpRxLockLoss (dt : Nat)
  /-- TP_RX_LOCK_GAIN (R103): TP_RX gains block lock; RX_UP sets, the 1 ms timer stops and the TALLY_LINK condition can end. -/
  | tpRxLockGain (dt : Nat)
  /-- APLL_RELOCK (R167): An APLL that lost lock regains it; FLOCK_k_STAT.LOCK sets and APLL_LOL is no longer live, which starts the
  quiet period. -/
  | apllRelock (dt : Nat) (k : Nat)
  /-- SYS_PLL_RELOCK (R289): The system PLL regains lock after a loss outside BOOT, so SYS_PLL_LOL is no longer live. -/
  | sysPllRelock (dt : Nat)
  /-- NVM_UNLOCK (R330): NVM_UNLOCK_CMD with GO and LOCK 0 compares the candidate key; it opens the key, or counts a failure that
  may start lockout, or is ignored with CMD_REJ. -/
  | nvmUnlock (dt : Nat) (master : Nat) (region : Nat) (kind : Nat) (key : Nat)
  /-- NVM_CNT_BAD_OP (R326): NVM_CNT_CMD GO with an OP other than INC or SET completes with code ARG. -/
  | nvmCntBadOp (dt : Nat) (master : Nat) (op : Nat) (id : Nat)
  /-- PLUG_INSERT (R376): PLUG_N_k goes low; CRAFT_STAT.PLUG and CRAFT_EVT.PLUG change and the SETTLE timer for clearing cause PLUG
  starts. -/
  | plugInsert (dt : Nat) (k : Nat)
  /-- TEST_LOGIC_RESET (R381): The JTAG TAP returns to Test-Logic-Reset, through TRST_N or TMS, loading IDCODE and ending the
  JTAG_ACTIVE condition. -/
  | testLogicReset (dt : Nat)
  /-- CAND_NO_EDGE (R153): A candidate channel without a REF monitor, such as a pasture link or edge-generator channel, forwards no
  edge for 3 P and counts as DISQ, so selection is evaluated again. -/
  | candNoEdge (dt : Nat) (ch : Nat)
  deriving DecidableEq, Repr

end Sys2Proof
end

