-- ==== Sys2Proof/Decode.lean ====
section
/-!
DEFINITION. Reading a command from a word.  The table of operations and events gives no row any bits: a command comes from
the environment, or from a host as a frame of SPI, I2C, JTAG or a link, so no word spells one.
-/

namespace Sys2Proof

/-- The command that a word spells by the table's bits: none, since no row has bits. [DESIGN CHOICE, log 4] -/
def decodeTableWord (_nbits _w : Nat) : Option Instr := none

end Sys2Proof
end

