-- ==== Sys2Proof/Config.lean ====
section
/-!
DEFINITION. What the spec leaves open: the FREE VALUES.  Each is an opaque constant with no body, so nothing in Lean can
evaluate it and no proof can prefer a value of it; a statement about a free value holds for every value.  Each names the
log entry (notes/assumptions) that declares it.
-/

namespace Sys2Proof.Config

/-- FREE VALUE. Device time, in 2^-48 ns, at an instant after a loss of system PLL lock (01 R18: unreliable from the
loss onward).  Log entry 5. -/
opaque unreliableTime (tclk : Nat) : Nat

/-- FREE VALUE. The slope word of a correction-table segment whose computed slope does not fit its 12 bits (02 R34, R39
state no result there).  Log entry 6. -/
opaque slopeOverflow (hits total : Nat) : BitVec 12

/-- FREE VALUE. A byte of a CALTAB staging table (02 R39, 01 R28: the table under construction is nowhere laid down).
Log entry 7. -/
opaque stagingByte (tclk addr : Nat) : BitVec 8

/-- FREE VALUE. The nominal spacing, in 2^-16 ns, that the plan gives the loop stream of a channel whose registers do not
state it (02 R53: fixed by the structure image, but for beat notes, taps, pins and edge generators in no register).  Log
entry 8. -/
opaque planSpacing (ch : Nat) : Nat

/-- FREE VALUE. A result that does not fit its payload field, or a quotient over an empty span, for which 03 R78 states no
value.  Log entry 9. -/
opaque payloadOpen (n : Nat) : BitVec 64

/-- FREE VALUE. e_ref of a switch before any update on the old reference (05 R158 takes a mean of none).  Log entry 10. -/
opaque noErrors (n : Nat) : Int

/-- FREE VALUE. The state of the scrambler of a transmit lane as a frame starts (03 R98): it rests on every block sent before,
the idle blocks among them.  Log entry 170. -/
opaque scramblerState (lane tclk : Nat) : BitVec 58

/-- FREE VALUE. PRIO of a bellwether that a link names through a follower (08 R212 carries only the sender's own PRIO).  Log
entry 11. -/
opaque unknownPrio (idx : Nat) : Nat

/-- FREE VALUE. How far the VCO of an APLL runs while it is not locked, in the unit of `Apll.phase`, from one TCLK count over a
number of TCLK periods (06 R165, R167, R356 give no frequency there).  Log entry 176. -/
opaque vcoUnlocked (k since dt : Nat) : Nat

/-- FREE VALUE. The level of VHOLD in units of 10 mV and whether the charge pump charges (NVM_VHOLD), analogue quantities
that no rule follows in time.  Log entry 12. -/
opaque vholdLevel (tclk : Nat) : BitVec 9
opaque vholdPump (tclk : Nat) : Bool

/-- FREE VALUE. What a group of the NVM array holds after an operation on it failed its verification (12 R312 states only
that the operation ends).  Log entry 13. -/
opaque failedGroup (n addr : Nat) : BitVec 64

/-- FREE VALUE. The check bits of a group whose 64 data bits are all ones: 12 R308 names a 72/64 code and not its matrix.  Log
entry 131. -/
opaque onesCheck : BitVec 8

/-- FREE VALUE. The level of a ball that nothing drives and no pull holds, or that only the board drives and no rule follows (14
R363, R377, R381).  Log entry 204. -/
opaque floating (tclk ball : Nat) : Bool

/-- FREE VALUE. What a boundary-scan cell drives under EXTEST: the bits shifted in are in no row of the table (14 R381).  Log
entry 157. -/
opaque boundaryCell (n ball : Nat) : BitVec 2

/-- FREE VALUE. The fields of Capture-DR that are not valid while BUSY is 1 (14 R382).  Log entry 149. -/
opaque notValid (n : Nat) : BitVec 57

end Sys2Proof.Config
end

