-- ==== Sys2Proof/Machine/Bits.lean ====
section
/-!
DEFINITION. Bit fields of register words, sign extension, saturation, and the canonical sparse stores in which the
registers and the memories are held.
-/

namespace Sys2Proof.Machine

/-- A bit field of a register: the register's address and the range [hi:lo] (00 R6). -/
structure Fld where
  addr : Nat
  hi : Nat
  lo : Nat
  deriving DecidableEq, Repr

/-- Bits [hi:lo] of a natural number: (w >> lo) mod 2^(hi-lo+1) (00 R6). -/
def bitsOf (w hi lo : Nat) : Nat := (w >>> lo) % 2 ^ (hi - lo + 1)

/-- `w` with bits [hi:lo] replaced by `v` modulo the field's width. -/
def setBits (w hi lo v : Nat) : Nat :=
  w - (bitsOf w hi lo) <<< lo + (v % 2 ^ (hi - lo + 1)) <<< lo

/-- Bit `k` of a natural number. -/
def bitAt (w k : Nat) : Bool := w.testBit k

/-- A Bool as a one-bit value. -/
def b2n (b : Bool) : Nat := if b then 1 else 0

/-- The bits of `m` that `w` has, where `m` is a mask of 32 bits. -/
def andNot (w m : Nat) : Nat := w &&& (0xFFFFFFFF ^^^ (m &&& 0xFFFFFFFF))

/-- `old` with the bits under `mask` taken from `new` (32-bit words). -/
def mergeMask (old new mask : Nat) : Nat := andNot old mask ||| (new &&& mask)

/-- The two's complement value of the low `n` bits of `v` (00 R8). -/
def sext (n v : Nat) : Int :=
  let u := v % 2 ^ n
  if u < 2 ^ (n - 1) then (u : Int) else (u : Int) - 2 ^ n

/-- A signed value as `n` bits of two's complement (00 R8). -/
def twos (n : Nat) (x : Int) : Nat := (x % (2 ^ n : Int)).toNat

/-- `x` limited to the range `lo` to `hi`. -/
def clampI (lo hi x : Int) : Int := if x < lo then lo else if hi < x then hi else x

/-- `x` limited to the range `lo` to `hi`. -/
def clampN (lo hi x : Nat) : Nat := if x < lo then lo else if hi < x then hi else x

/-- Signed saturation to `n` bits. -/
def satI (n : Nat) (x : Int) : Int := clampI (-(2 ^ (n - 1))) (2 ^ (n - 1) - 1) x

/-- Division rounded to nearest, ties away from zero; 0 for a zero divisor. -/
def divRound (a b : Int) : Int :=
  if b = 0 then 0
  else
    let n := a.natAbs
    let m := b.natAbs
    let q := ((2 * n + m) / (2 * m) : Nat)
    if (a < 0) = (b < 0) then (q : Int) else -(q : Int)

/-- A store of words by key, in canonical form: keys strictly rising, no entry equal to its key's default. -/
abbrev Store := List (Nat × Word)

/-- The value at key `k`: the listed one, or the default `dflt`. -/
def Store.get (st : Store) (k : Nat) (dflt : Word) : Word :=
  match st with
  | [] => dflt
  | (a, w) :: t => if a = k then w else Store.get t k dflt

/-- The store without any entry of key `k`. -/
def Store.erase (st : Store) (k : Nat) : Store :=
  match st with
  | [] => []
  | (a, w) :: t => if a = k then Store.erase t k else (a, w) :: Store.erase t k

/-- The store with the entry (k, v) put before the first greater key. -/
def Store.insert (st : Store) (k : Nat) (v : Word) : Store :=
  match st with
  | [] => [(k, v)]
  | (a, w) :: t => if k < a then (k, v) :: (a, w) :: t else (a, w) :: Store.insert t k v

/-- The store with key `k` holding `v`; a value equal to the default leaves no entry. -/
def Store.put (st : Store) (k : Nat) (v dflt : Word) : Store :=
  if v = dflt then Store.erase st k else Store.insert (Store.erase st k) k v

/-- The store without the entries whose key satisfies `p`: those keys read their defaults again. -/
def Store.drop (st : Store) (p : Nat → Bool) : Store :=
  match st with
  | [] => []
  | (a, w) :: t => if p a then Store.drop t p else (a, w) :: Store.drop t p

/-- The form of a canonical store whose defaults are `dflt`: keys strictly rising, no default listed. -/
def Store.wf (dflt : Nat → Word) : Store → Bool
  | [] => true
  | [(k, v)] => v != dflt k
  | (k, v) :: (k', v') :: t => decide (k < k') && (v != dflt k) && Store.wf dflt ((k', v') :: t)

/-- A byte memory: (address, byte) pairs in the same canonical form, over one default byte. -/
abbrev ByteMem := List (Nat × Byte)

/-- The byte at address `a`. [DESIGN CHOICE, log 3] -/
def ByteMem.get (m : ByteMem) (dflt : Byte) (a : Nat) : Byte :=
  match m with
  | [] => dflt
  | (b, v) :: t => if b = a then v else ByteMem.get t dflt a

/-- The entries of successive bytes from address `a`: a byte at the default has none. -/
def ByteMem.listed (dflt : Byte) (a : Nat) : List Byte → ByteMem
  | [] => []
  | b :: t => if b = dflt then ByteMem.listed dflt (a + 1) t else (a, b) :: ByteMem.listed dflt (a + 1) t

/-- Bytes placed over a range of a memory; the bytes outside stand. -/
def ByteMem.blit (m : ByteMem) (dflt : Byte) (a : Nat) (bs : List Byte) : ByteMem :=
  (m.filter fun c => decide (c.1 < a)) ++ ByteMem.listed dflt a bs ++ m.filter fun c => decide (a + bs.length ≤ c.1)

/-- Bytes placed over a range of a memory of addresses [lo, hi).  No command places bytes that are not all in it; such bytes would be
stored nowhere. -/
def ByteMem.store (m : ByteMem) (dflt : Byte) (lo hi a : Nat) (bs : List Byte) : ByteMem :=
  if lo ≤ a ∧ a + bs.length ≤ hi then ByteMem.blit m dflt a bs else m

/-- The `n` bytes from address `a`. -/
def ByteMem.bytes (m : ByteMem) (dflt : Byte) (a n : Nat) : List Byte :=
  (List.range n).map fun k => ByteMem.get m dflt (a + k)

/-- The memory with every address from `a` to `a + n - 1` at its default again. -/
def ByteMem.clear (m : ByteMem) (a n : Nat) : ByteMem :=
  m.filter fun c => decide (c.1 < a) || decide (a + n ≤ c.1)

/-- The canonical form: addresses strictly rising, no default byte listed, addresses within [lo, hi). -/
def ByteMem.wf (dflt : Byte) (lo hi : Nat) : ByteMem → Bool
  | [] => true
  | [(a, v)] => decide (lo ≤ a) && decide (a < hi) && (v != dflt)
  | (a, v) :: (b, w) :: t => decide (lo ≤ a) && decide (a < b) && (v != dflt) && ByteMem.wf dflt lo hi ((b, w) :: t)

/-- The little-endian number of a list of bytes (00 R7). -/
def leNat : List Byte → Nat
  | [] => 0
  | b :: t => b.toNat + 256 * leNat t

/-- The `n` little-endian bytes of a number (00 R7). -/
def leBytes : Nat → Nat → List Byte
  | 0, _ => []
  | n + 1, v => BitVec.ofNat 8 v :: leBytes n (v / 256)

/-- One row of the register map: the instances of one register, its reset word, its access-class masks, its update
group (0 to 7, 8 none, 9 the paddock rule G2/G3), and its marks. -/
structure RegRow where
  base : Nat
  count : Nat
  stride : Nat
  reps : Nat
  repStride : Nat
  reset : Nat
  rw : Nat
  ro : Nat
  rws : Nat
  sqc : Nat
  cmd : Nat
  cpl : Nat
  img : Nat
  grp : Nat
  mustered : Bool
  perMaster : Bool
  crook : Bool
  deriving DecidableEq, Repr

/-- The instance numbers (n, i) by which a row holds address `a`, if it does (00 R9). -/
def rowIndex (r : RegRow) (a : Nat) : Option (Nat × Nat) :=
  if a < r.base then none
  else
    let o := a - r.base
    let n := o / r.stride
    let q := o % r.stride
    let n' := if r.count = 1 then 0 else n
    let q' := if r.count = 1 then o else q
    let i := q' / r.repStride
    if n' < r.count ∧ i < r.reps ∧ q' % r.repStride = 0 then some (n', i) else none

/-- The first row of a list that holds address `a`. -/
def findRow (rs : List RegRow) (a : Nat) : Option RegRow :=
  match rs with
  | [] => none
  | r :: t => if (rowIndex r a).isSome then some r else findRow t a

/-- The low `n` bits of a number, least significant first. -/
def bitsLsb (n v : Nat) : List Bool := (List.range n).map fun k => v.testBit k

end Sys2Proof.Machine
end

