-- ==== Sys2Proof/Machine/RegMap.lean ====
section
/-!
DEFINITION. The register map: every register of the spec's register tables (00 R9, R10, R11; 15_register_map), with the
address of each instance, its fields as named bit ranges, its access-class masks, its reset word (an "img" or
fuse-loaded field is 0 until it is loaded, R10), its update group and its muster, per-master and crook-lock marks.
-/

namespace Sys2Proof.Machine


/-- Register DEV_ID (00_scope R1). -/
def rDEV_ID : Nat := 0x000000
def DEV_ID_PART : Fld := ⟨rDEV_ID, 31, 16⟩
def DEV_ID_REV : Fld := ⟨rDEV_ID, 15, 8⟩
def DEV_ID_PKG : Fld := ⟨rDEV_ID, 7, 0⟩
/-- Register DEV_MODE (13_power_reset_modes R352). -/
def rDEV_MODE : Nat := 0x000004
def DEV_MODE_BOOT_STAGE : Fld := ⟨rDEV_MODE, 15, 12⟩
def DEV_MODE_MODE : Fld := ⟨rDEV_MODE, 2, 0⟩
/-- Register DEV_MODE_REQ (13_power_reset_modes R354). -/
def rDEV_MODE_REQ : Nat := 0x000008
def DEV_MODE_REQ_GO : Fld := ⟨rDEV_MODE_REQ, 31, 31⟩
def DEV_MODE_REQ_RESULT : Fld := ⟨rDEV_MODE_REQ, 23, 20⟩
def DEV_MODE_REQ_REQ : Fld := ⟨rDEV_MODE_REQ, 2, 0⟩
/-- Register DEV_UPDATE (10_host_access R268). -/
def rDEV_UPDATE : Nat := 0x000010
def DEV_UPDATE_PEND : Fld := ⟨rDEV_UPDATE, 15, 8⟩
def DEV_UPDATE_GROUPS : Fld := ⟨rDEV_UPDATE, 7, 0⟩
/-- Register DEV_UPDATE_CFG (10_host_access R268). -/
def rDEV_UPDATE_CFG : Nat := 0x000014
def DEV_UPDATE_CFG_PAST_MASK : Fld := ⟨rDEV_UPDATE_CFG, 31, 24⟩
def DEV_UPDATE_CFG_GPIO_MASK : Fld := ⟨rDEV_UPDATE_CFG, 23, 16⟩
def DEV_UPDATE_CFG_STRB_IN_EN : Fld := ⟨rDEV_UPDATE_CFG, 15, 15⟩
def DEV_UPDATE_CFG_STRB_IN_EDGE : Fld := ⟨rDEV_UPDATE_CFG, 14, 14⟩
def DEV_UPDATE_CFG_STRB_IN_PIN : Fld := ⟨rDEV_UPDATE_CFG, 13, 11⟩
def DEV_UPDATE_CFG_STRB_OUT_EN : Fld := ⟨rDEV_UPDATE_CFG, 10, 10⟩
def DEV_UPDATE_CFG_STRB_OUT_PIN : Fld := ⟨rDEV_UPDATE_CFG, 9, 7⟩
/-- Register DEV_MUSTER (10_host_access R271). -/
def rDEV_MUSTER : Nat := 0x000020
def DEV_MUSTER_GO : Fld := ⟨rDEV_MUSTER, 31, 31⟩
def DEV_MUSTER_PASTURE : Fld := ⟨rDEV_MUSTER, 30, 30⟩
def DEV_MUSTER_PEND : Fld := ⟨rDEV_MUSTER, 29, 29⟩
/-- Register DEV_MUSTER_SEQ (10_host_access R271). -/
def rDEV_MUSTER_SEQ : Nat := 0x000024
def DEV_MUSTER_SEQ_SEQ : Fld := ⟨rDEV_MUSTER_SEQ, 31, 0⟩
/-- Register DEV_MUSTER_SEC (10_host_access R271). -/
def rDEV_MUSTER_SEC : Nat := 0x000028
def DEV_MUSTER_SEC_SEC : Fld := ⟨rDEV_MUSTER_SEC, 31, 0⟩
/-- Register DEV_MUSTER_NS (10_host_access R271). -/
def rDEV_MUSTER_NS : Nat := 0x00002C
def DEV_MUSTER_NS_NS : Fld := ⟨rDEV_MUSTER_NS, 29, 0⟩
/-- Register DEV_CROOK (10_host_access R274). -/
def rDEV_CROOK : Nat := 0x000030
def DEV_CROOK_LOCK : Fld := ⟨rDEV_CROOK, 0, 0⟩
/-- Register DEV_RESET (13_power_reset_modes R348). -/
def rDEV_RESET : Nat := 0x000040
def DEV_RESET_SOFT : Fld := ⟨rDEV_RESET, 31, 31⟩
def DEV_RESET_WARM : Fld := ⟨rDEV_RESET, 30, 30⟩
def DEV_RESET_KEY_ERR : Fld := ⟨rDEV_RESET, 29, 29⟩
def DEV_RESET_LAST : Fld := ⟨rDEV_RESET, 26, 24⟩
def DEV_RESET_KEY : Fld := ⟨rDEV_RESET, 15, 0⟩
/-- Register DEV_RESET_CAUSE (13_power_reset_modes R357). -/
def rDEV_RESET_CAUSE : Nat := 0x000044
def DEV_RESET_CAUSE_SEQ : Fld := ⟨rDEV_RESET_CAUSE, 31, 24⟩
def DEV_RESET_CAUSE_WDOG : Fld := ⟨rDEV_RESET_CAUSE, 4, 4⟩
def DEV_RESET_CAUSE_WARM : Fld := ⟨rDEV_RESET_CAUSE, 3, 3⟩
def DEV_RESET_CAUSE_SOFT : Fld := ⟨rDEV_RESET_CAUSE, 2, 2⟩
def DEV_RESET_CAUSE_PIN : Fld := ⟨rDEV_RESET_CAUSE, 1, 1⟩
def DEV_RESET_CAUSE_POR : Fld := ⟨rDEV_RESET_CAUSE, 0, 0⟩
/-- Register DEV_SUPPLY (13_power_reset_modes R344). -/
def rDEV_SUPPLY : Nat := 0x000048
def DEV_SUPPLY_VHOLD_OK : Fld := ⟨rDEV_SUPPLY, 6, 6⟩
def DEV_SUPPLY_VDD_NVM_OK : Fld := ⟨rDEV_SUPPLY, 5, 5⟩
def DEV_SUPPLY_VDD_OUT_OK : Fld := ⟨rDEV_SUPPLY, 4, 2⟩
def DEV_SUPPLY_VDD_ANA_OK : Fld := ⟨rDEV_SUPPLY, 1, 1⟩
def DEV_SUPPLY_VDD_CORE_OK : Fld := ⟨rDEV_SUPPLY, 0, 0⟩
/-- Register DEV_TIME_SEC_LO (02_measurement_front_end R38). -/
def rDEV_TIME_SEC_LO : Nat := 0x000050
def DEV_TIME_SEC_LO_SEC_LO : Fld := ⟨rDEV_TIME_SEC_LO, 31, 0⟩
/-- Register DEV_TIME_SEC_HI (02_measurement_front_end R38). -/
def rDEV_TIME_SEC_HI : Nat := 0x000054
def DEV_TIME_SEC_HI_SEC_HI : Fld := ⟨rDEV_TIME_SEC_HI, 15, 0⟩
/-- Register DEV_TIME_NS (02_measurement_front_end R38). -/
def rDEV_TIME_NS : Nat := 0x000058
def DEV_TIME_NS_NS : Fld := ⟨rDEV_TIME_NS, 29, 0⟩
/-- Register DEV_TIME_FRAC (02_measurement_front_end R38). -/
def rDEV_TIME_FRAC : Nat := 0x00005C
def DEV_TIME_FRAC_FRAC : Fld := ⟨rDEV_TIME_FRAC, 15, 0⟩
/-- Register DEV_BOOT_STAT (09_structure_image R251). -/
def rDEV_BOOT_STAT : Nat := 0x000060
def DEV_BOOT_STAT_SRC : Fld := ⟨rDEV_BOOT_STAT, 31, 30⟩
def DEV_BOOT_STAT_CLS_A : Fld := ⟨rDEV_BOOT_STAT, 29, 27⟩
def DEV_BOOT_STAT_CLS_B : Fld := ⟨rDEV_BOOT_STAT, 26, 24⟩
def DEV_BOOT_STAT_STRAP : Fld := ⟨rDEV_BOOT_STAT, 23, 22⟩
def DEV_BOOT_STAT_TIE : Fld := ⟨rDEV_BOOT_STAT, 21, 21⟩
def DEV_BOOT_STAT_REPAIR_PEND : Fld := ⟨rDEV_BOOT_STAT, 20, 20⟩
def DEV_BOOT_STAT_SHCODE_DIRTY : Fld := ⟨rDEV_BOOT_STAT, 19, 19⟩
def DEV_BOOT_STAT_INIT_REJ : Fld := ⟨rDEV_BOOT_STAT, 15, 8⟩
def DEV_BOOT_STAT_INIT_SKIP : Fld := ⟨rDEV_BOOT_STAT, 7, 0⟩
/-- Register DEV_IMG_SEQ (09_structure_image R251). -/
def rDEV_IMG_SEQ : Nat := 0x000064
def DEV_IMG_SEQ_SEQUENCE : Fld := ⟨rDEV_IMG_SEQ, 31, 0⟩
/-- Register DEV_IMG_PLAN (09_structure_image R251). -/
def rDEV_IMG_PLAN : Nat := 0x000068
def DEV_IMG_PLAN_PLAN_ID : Fld := ⟨rDEV_IMG_PLAN, 31, 0⟩
/-- Register DEV_IMG_CHECK (09_structure_image R251). -/
def rDEV_IMG_CHECK : Nat := 0x00006C
def DEV_IMG_CHECK_IMG_CHECK : Fld := ⟨rDEV_IMG_CHECK, 31, 0⟩
/-- Register DEV_BOOT_DIAG (09_structure_image R251). -/
def rDEV_BOOT_DIAG : Nat := 0x000070
def DEV_BOOT_DIAG_DIAG_H : Fld := ⟨rDEV_BOOT_DIAG, 23, 16⟩
def DEV_BOOT_DIAG_DIAG_B : Fld := ⟨rDEV_BOOT_DIAG, 15, 8⟩
def DEV_BOOT_DIAG_DIAG_A : Fld := ⟨rDEV_BOOT_DIAG, 7, 0⟩
/-- Register DEV_TEMP (13_power_reset_modes R390). -/
def rDEV_TEMP : Nat := 0x000080
def DEV_TEMP_VALID : Fld := ⟨rDEV_TEMP, 31, 31⟩
def DEV_TEMP_TEMP : Fld := ⟨rDEV_TEMP, 15, 0⟩
/-- Register DEV_MBX_CMD (10_host_access R277). -/
def rDEV_MBX_CMD : Nat := 0x000100
def DEV_MBX_CMD_GO : Fld := ⟨rDEV_MBX_CMD, 31, 31⟩
def DEV_MBX_CMD_ABORT : Fld := ⟨rDEV_MBX_CMD, 30, 30⟩
def DEV_MBX_CMD_TAG : Fld := ⟨rDEV_MBX_CMD, 15, 8⟩
def DEV_MBX_CMD_SERVICE : Fld := ⟨rDEV_MBX_CMD, 7, 0⟩
/-- Register DEV_MBX_ARG_i (10_host_access R277). -/
def rDEV_MBX_ARG (i : Nat) : Nat := 0x000104 + 0x4 * i
def DEV_MBX_ARG_ARG (i : Nat) : Fld := ⟨(rDEV_MBX_ARG i), 31, 0⟩
/-- Register DEV_MBX_STAT (10_host_access R277). -/
def rDEV_MBX_STAT : Nat := 0x000120
def DEV_MBX_STAT_BUSY : Fld := ⟨rDEV_MBX_STAT, 31, 31⟩
def DEV_MBX_STAT_DONE : Fld := ⟨rDEV_MBX_STAT, 30, 30⟩
def DEV_MBX_STAT_MASTER : Fld := ⟨rDEV_MBX_STAT, 29, 27⟩
def DEV_MBX_STAT_TAG : Fld := ⟨rDEV_MBX_STAT, 23, 16⟩
def DEV_MBX_STAT_SERVICE : Fld := ⟨rDEV_MBX_STAT, 15, 8⟩
def DEV_MBX_STAT_CODE : Fld := ⟨rDEV_MBX_STAT, 7, 0⟩
/-- Register DEV_MBX_RES_i (10_host_access R277). -/
def rDEV_MBX_RES (i : Nat) : Nat := 0x000124 + 0x4 * i
def DEV_MBX_RES_RES (i : Nat) : Fld := ⟨(rDEV_MBX_RES i), 31, 0⟩
/-- Register DEV_MBX_EVT (10_host_access R277). -/
def rDEV_MBX_EVT : Nat := 0x000134
def DEV_MBX_EVT_SEQ : Fld := ⟨rDEV_MBX_EVT, 31, 24⟩
def DEV_MBX_EVT_TIMEOUT : Fld := ⟨rDEV_MBX_EVT, 2, 2⟩
def DEV_MBX_EVT_REJECT : Fld := ⟨rDEV_MBX_EVT, 1, 1⟩
def DEV_MBX_EVT_DONE : Fld := ⟨rDEV_MBX_EVT, 0, 0⟩
/-- Register DEV_MBX_IEN (10_host_access R277). -/
def rDEV_MBX_IEN : Nat := 0x000138
def DEV_MBX_IEN_IEN : Fld := ⟨rDEV_MBX_IEN, 2, 0⟩
/-- Register DEV_IRQ_STAT (10_host_access R276). -/
def rDEV_IRQ_STAT : Nat := 0x000200
def DEV_IRQ_STAT_LINES : Fld := ⟨rDEV_IRQ_STAT, 31, 20⟩
def DEV_IRQ_STAT_PAD : Fld := ⟨rDEV_IRQ_STAT, 15, 0⟩
/-- Register DEV_IRQ_EN (10_host_access R276). -/
def rDEV_IRQ_EN : Nat := 0x000204
def DEV_IRQ_EN_EN : Fld := ⟨rDEV_IRQ_EN, 31, 20⟩
def DEV_IRQ_EN_ENP : Fld := ⟨rDEV_IRQ_EN, 15, 0⟩
/-- Register DEV_IRQ_PEND (10_host_access R276). -/
def rDEV_IRQ_PEND : Nat := 0x000208
def DEV_IRQ_PEND_PEND : Fld := ⟨rDEV_IRQ_PEND, 31, 20⟩
def DEV_IRQ_PEND_PENDP : Fld := ⟨rDEV_IRQ_PEND, 15, 0⟩
/-- Register DEV_IRQ_GEN (10_host_access R276). -/
def rDEV_IRQ_GEN : Nat := 0x00020C
def DEV_IRQ_GEN_GEN : Fld := ⟨rDEV_IRQ_GEN, 31, 20⟩
def DEV_IRQ_GEN_GENP : Fld := ⟨rDEV_IRQ_GEN, 15, 0⟩
/-- Register DEV_IRQ_TQ (10_host_access R276). -/
def rDEV_IRQ_TQ : Nat := 0x000210
def DEV_IRQ_TQ_TP : Fld := ⟨rDEV_IRQ_TQ, 16, 16⟩
def DEV_IRQ_TQ_TQ : Fld := ⟨rDEV_IRQ_TQ, 15, 0⟩
/-- Register FLT_CFG (11_faults R288). -/
def rFLT_CFG : Nat := 0x010000
def FLT_CFG_FN_PP : Fld := ⟨rFLT_CFG, 31, 31⟩
def FLT_CFG_FN_LATCH : Fld := ⟨rFLT_CFG, 30, 30⟩
def FLT_CFG_AUTO_UNFOLD : Fld := ⟨rFLT_CFG, 29, 29⟩
def FLT_CFG_FSTATE_SEV : Fld := ⟨rFLT_CFG, 27, 26⟩
/-- Register FLT_REACT (11_faults R282). -/
def rFLT_REACT : Nat := 0x010004
def FLT_REACT_REACT : Fld := ⟨rFLT_REACT, 7, 0⟩
/-- Register FLT_ESC (11_faults R285). -/
def rFLT_ESC : Nat := 0x010008
def FLT_ESC_ESC_TMO : Fld := ⟨rFLT_ESC, 19, 0⟩
/-- Register FLT_QUIET (11_faults R288). -/
def rFLT_QUIET : Nat := 0x01000C
def FLT_QUIET_QUIET : Fld := ⟨rFLT_QUIET, 15, 0⟩
/-- Register FLT_FN_WIDTH (11_faults R290). -/
def rFLT_FN_WIDTH : Nat := 0x010010
def FLT_FN_WIDTH_WIDTH : Fld := ⟨rFLT_FN_WIDTH, 13, 0⟩
/-- Register FLT_TEMP (11_faults R281). -/
def rFLT_TEMP : Nat := 0x010014
def FLT_TEMP_TEMP_HI : Fld := ⟨rFLT_TEMP, 7, 0⟩
/-- Register FLT_SEV_i (11_faults R282). -/
def rFLT_SEV (i : Nat) : Nat := 0x010020 + 0x4 * i
def FLT_SEV_SEV (i : Nat) : Fld := ⟨(rFLT_SEV i), 31, 0⟩
/-- Register FLT_IEN_LO (11_faults R291). -/
def rFLT_IEN_LO : Nat := 0x010030
def FLT_IEN_LO_IEN : Fld := ⟨rFLT_IEN_LO, 31, 0⟩
/-- Register FLT_IEN_HI (11_faults R291). -/
def rFLT_IEN_HI : Nat := 0x010034
def FLT_IEN_HI_IEN : Fld := ⟨rFLT_IEN_HI, 31, 0⟩
/-- Register FLT_LATCH_LO (11_faults R283). -/
def rFLT_LATCH_LO : Nat := 0x010038
def FLT_LATCH_LO_VALUE : Fld := ⟨rFLT_LATCH_LO, 31, 0⟩
/-- Register FLT_LATCH_HI (11_faults R283). -/
def rFLT_LATCH_HI : Nat := 0x01003C
def FLT_LATCH_HI_VALUE : Fld := ⟨rFLT_LATCH_HI, 31, 0⟩
/-- Register FLT_LIVE_LO (11_faults R281). -/
def rFLT_LIVE_LO : Nat := 0x010040
def FLT_LIVE_LO_VALUE : Fld := ⟨rFLT_LIVE_LO, 31, 0⟩
/-- Register FLT_LIVE_HI (11_faults R281). -/
def rFLT_LIVE_HI : Nat := 0x010044
def FLT_LIVE_HI_VALUE : Fld := ⟨rFLT_LIVE_HI, 31, 0⟩
/-- Register FLT_ACK_0 (11_faults R283). -/
def rFLT_ACK_0 : Nat := 0x010048
def FLT_ACK_0_SEQ : Fld := ⟨rFLT_ACK_0, 31, 24⟩
def FLT_ACK_0_LATCH : Fld := ⟨rFLT_ACK_0, 23, 0⟩
/-- Register FLT_ACK_1 (11_faults R283). -/
def rFLT_ACK_1 : Nat := 0x01004C
def FLT_ACK_1_SEQ : Fld := ⟨rFLT_ACK_1, 31, 24⟩
def FLT_ACK_1_LATCH : Fld := ⟨rFLT_ACK_1, 23, 0⟩
/-- Register FLT_ACK_2 (11_faults R283). -/
def rFLT_ACK_2 : Nat := 0x010050
def FLT_ACK_2_SEQ : Fld := ⟨rFLT_ACK_2, 31, 24⟩
def FLT_ACK_2_LATCH : Fld := ⟨rFLT_ACK_2, 15, 0⟩
/-- Register FLT_STAT (11_faults R288). -/
def rFLT_STAT : Nat := 0x010058
def FLT_STAT_FSTATE : Fld := ⟨rFLT_STAT, 31, 31⟩
def FLT_STAT_ESC_RUN : Fld := ⟨rFLT_STAT, 30, 30⟩
def FLT_STAT_FOLD_REQ : Fld := ⟨rFLT_STAT, 29, 29⟩
def FLT_STAT_FATAL_HELD : Fld := ⟨rFLT_STAT, 28, 28⟩
def FLT_STAT_FN : Fld := ⟨rFLT_STAT, 27, 27⟩
def FLT_STAT_DUMP_BUSY : Fld := ⟨rFLT_STAT, 26, 26⟩
def FLT_STAT_ESC_LEFT : Fld := ⟨rFLT_STAT, 19, 0⟩
/-- Register FLT_CMD (11_faults R293). -/
def rFLT_CMD : Nat := 0x01005C
def FLT_CMD_CAP_REL : Fld := ⟨rFLT_CMD, 31, 31⟩
def FLT_CMD_FN_REL : Fld := ⟨rFLT_CMD, 30, 30⟩
def FLT_CMD_DUMP_REL : Fld := ⟨rFLT_CMD, 29, 29⟩
def FLT_CMD_NVM_DUMP_REL : Fld := ⟨rFLT_CMD, 28, 28⟩
def FLT_CMD_CAP_SEQ : Fld := ⟨rFLT_CMD, 15, 0⟩
/-- Register FLT_CAP_SRC (11_faults R292). -/
def rFLT_CAP_SRC : Nat := 0x010060
def FLT_CAP_SRC_VALID : Fld := ⟨rFLT_CAP_SRC, 31, 31⟩
def FLT_CAP_SRC_INJ : Fld := ⟨rFLT_CAP_SRC, 30, 30⟩
def FLT_CAP_SRC_REPL : Fld := ⟨rFLT_CAP_SRC, 29, 29⟩
def FLT_CAP_SRC_MULTI : Fld := ⟨rFLT_CAP_SRC, 28, 28⟩
def FLT_CAP_SRC_TYPE : Fld := ⟨rFLT_CAP_SRC, 27, 25⟩
def FLT_CAP_SRC_MASTER_V : Fld := ⟨rFLT_CAP_SRC, 24, 24⟩
def FLT_CAP_SRC_MASTER : Fld := ⟨rFLT_CAP_SRC, 23, 21⟩
def FLT_CAP_SRC_SEV : Fld := ⟨rFLT_CAP_SRC, 20, 19⟩
def FLT_CAP_SRC_LIVE : Fld := ⟨rFLT_CAP_SRC, 18, 18⟩
def FLT_CAP_SRC_SRC : Fld := ⟨rFLT_CAP_SRC, 5, 0⟩
/-- Register FLT_CAP_ADDR (11_faults R292). -/
def rFLT_CAP_ADDR : Nat := 0x010064
def FLT_CAP_ADDR_ADDR : Fld := ⟨rFLT_CAP_ADDR, 23, 0⟩
/-- Register FLT_CAP_DETAIL (11_faults R292). -/
def rFLT_CAP_DETAIL : Nat := 0x010068
def FLT_CAP_DETAIL_DETAIL : Fld := ⟨rFLT_CAP_DETAIL, 15, 0⟩
/-- Register FLT_CAP_SEQ (11_faults R292). -/
def rFLT_CAP_SEQ : Nat := 0x01006C
def FLT_CAP_SEQ_SEQ : Fld := ⟨rFLT_CAP_SEQ, 31, 0⟩
/-- Register FLT_CAP_SEC_LO (11_faults R292). -/
def rFLT_CAP_SEC_LO : Nat := 0x010070
def FLT_CAP_SEC_LO_SEC : Fld := ⟨rFLT_CAP_SEC_LO, 31, 0⟩
/-- Register FLT_CAP_SEC_HI (11_faults R292). -/
def rFLT_CAP_SEC_HI : Nat := 0x010074
def FLT_CAP_SEC_HI_SEC : Fld := ⟨rFLT_CAP_SEC_HI, 15, 0⟩
/-- Register FLT_CAP_NS (11_faults R292). -/
def rFLT_CAP_NS : Nat := 0x010078
def FLT_CAP_NS_NS : Fld := ⟨rFLT_CAP_NS, 29, 0⟩
/-- Register FLT_CAP_FRAC (11_faults R292). -/
def rFLT_CAP_FRAC : Nat := 0x01007C
def FLT_CAP_FRAC_FRAC : Fld := ⟨rFLT_CAP_FRAC, 15, 0⟩
/-- Register FLT_SEQNO (11_faults R283). -/
def rFLT_SEQNO : Nat := 0x010080
def FLT_SEQNO_COUNT : Fld := ⟨rFLT_SEQNO, 31, 0⟩
/-- Register FLT_MISSED (11_faults R292). -/
def rFLT_MISSED : Nat := 0x010084
def FLT_MISSED_COUNT : Fld := ⟨rFLT_MISSED, 31, 0⟩
/-- Register FLT_RECOV (11_faults R288). -/
def rFLT_RECOV : Nat := 0x010088
def FLT_RECOV_COUNT : Fld := ⟨rFLT_RECOV, 31, 0⟩
/-- Register FLT_FOLDS (11_faults R289). -/
def rFLT_FOLDS : Nat := 0x01008C
def FLT_FOLDS_COUNT : Fld := ⟨rFLT_FOLDS, 31, 0⟩
/-- Register FLT_INJ (11_faults R295). -/
def rFLT_INJ : Nat := 0x010090
def FLT_INJ_GO : Fld := ⟨rFLT_INJ, 31, 31⟩
def FLT_INJ_SIM : Fld := ⟨rFLT_INJ, 30, 30⟩
def FLT_INJ_SRC : Fld := ⟨rFLT_INJ, 5, 0⟩
/-- Register FLT_INJ_STAT (11_faults R295). -/
def rFLT_INJ_STAT : Nat := 0x010094
def FLT_INJ_STAT_ACTIVE : Fld := ⟨rFLT_INJ_STAT, 31, 31⟩
def FLT_INJ_STAT_REAL : Fld := ⟨rFLT_INJ_STAT, 30, 30⟩
def FLT_INJ_STAT_SIM : Fld := ⟨rFLT_INJ_STAT, 29, 29⟩
def FLT_INJ_STAT_REJECTED : Fld := ⟨rFLT_INJ_STAT, 28, 28⟩
def FLT_INJ_STAT_SRC : Fld := ⟨rFLT_INJ_STAT, 5, 0⟩
/-- Register FLT_USER (11_faults R298). -/
def rFLT_USER : Nat := 0x010098
def FLT_USER_USER : Fld := ⟨rFLT_USER, 3, 0⟩
/-- Register FLT_DUMP_STAT (11_faults R300). -/
def rFLT_DUMP_STAT : Nat := 0x01009C
def FLT_DUMP_STAT_SRAM_VALID : Fld := ⟨rFLT_DUMP_STAT, 31, 31⟩
def FLT_DUMP_STAT_NVM_HELD : Fld := ⟨rFLT_DUMP_STAT, 30, 30⟩
def FLT_DUMP_STAT_NVM_PAGES : Fld := ⟨rFLT_DUMP_STAT, 29, 24⟩
def FLT_DUMP_STAT_SKIPPED : Fld := ⟨rFLT_DUMP_STAT, 23, 16⟩
/-- Register FLT_DUMP_SEQ (11_faults R303). -/
def rFLT_DUMP_SEQ : Nat := 0x0100A0
def FLT_DUMP_SEQ_SEQ : Fld := ⟨rFLT_DUMP_SEQ, 31, 0⟩
/-- Register REF_n_CFG (05_references_and_selection R136). -/
def rREF_CFG (n : Nat) : Nat := 0x020000 + 0x100 * n
def REF_CFG_MON (n : Nat) : Fld := ⟨(rREF_CFG n), 31, 31⟩
def REF_CFG_GAPPED (n : Nat) : Fld := ⟨(rREF_CFG n), 30, 30⟩
def REF_CFG_PLUG_EN (n : Nat) : Fld := ⟨(rREF_CFG n), 29, 29⟩
def REF_CFG_PJ_ACT (n : Nat) : Fld := ⟨(rREF_CFG n), 28, 27⟩
def REF_CFG_VOTER (n : Nat) : Fld := ⟨(rREF_CFG n), 26, 26⟩
def REF_CFG_FORCE_DISQ (n : Nat) : Fld := ⟨(rREF_CFG n), 25, 25⟩
/-- Register REF_n_NOM_LO (05_references_and_selection R137). -/
def rREF_NOM_LO (n : Nat) : Nat := 0x020004 + 0x100 * n
def REF_NOM_LO_NOM (n : Nat) : Fld := ⟨(rREF_NOM_LO n), 31, 0⟩
/-- Register REF_n_NOM_HI (05_references_and_selection R137). -/
def rREF_NOM_HI (n : Nat) : Nat := 0x020008 + 0x100 * n
def REF_NOM_HI_NOM (n : Nat) : Fld := ⟨(rREF_NOM_HI n), 15, 0⟩
/-- Register REF_n_GAP (05_references_and_selection R137). -/
def rREF_GAP (n : Nat) : Nat := 0x02000C + 0x100 * n
def REF_GAP_GAP_PAT (n : Nat) : Fld := ⟨(rREF_GAP n), 31, 16⟩
def REF_GAP_GAP_MAX (n : Nat) : Fld := ⟨(rREF_GAP n), 15, 0⟩
/-- Register REF_n_SOFT (05_references_and_selection R147). -/
def rREF_SOFT (n : Nat) : Nat := 0x020010 + 0x100 * n
def REF_SOFT_DWELL (n : Nat) : Fld := ⟨(rREF_SOFT n), 31, 24⟩
def REF_SOFT_HURDLE (n : Nat) : Fld := ⟨(rREF_SOFT n), 19, 0⟩
/-- Register REF_n_HARD (05_references_and_selection R147). -/
def rREF_HARD (n : Nat) : Nat := 0x020014 + 0x100 * n
def REF_HARD_DWELL (n : Nat) : Fld := ⟨(rREF_HARD n), 31, 24⟩
def REF_HARD_HURDLE (n : Nat) : Fld := ⟨(rREF_HARD n), 19, 0⟩
/-- Register REF_n_FM (05_references_and_selection R139). -/
def rREF_FM (n : Nat) : Nat := 0x020018 + 0x100 * n
def REF_FM_FM_TAU (n : Nat) : Fld := ⟨(rREF_FM n), 9, 0⟩
/-- Register REF_n_PJ (05_references_and_selection R140). -/
def rREF_PJ (n : Nat) : Nat := 0x02001C + 0x100 * n
def REF_PJ_PJ_THR (n : Nat) : Fld := ⟨(rREF_PJ n), 31, 0⟩
/-- Register REF_n_WTR (05_references_and_selection R144). -/
def rREF_WTR (n : Nat) : Nat := 0x020020 + 0x100 * n
def REF_WTR_WTR (n : Nat) : Fld := ⟨(rREF_WTR n), 15, 0⟩
/-- Register REF_n_PLUG (05_references_and_selection R142). -/
def rREF_PLUG (n : Nat) : Nat := 0x020024 + 0x100 * n
def REF_PLUG_SETTLE (n : Nat) : Fld := ⟨(rREF_PLUG n), 7, 0⟩
/-- Register REF_n_STAT (05_references_and_selection R144). -/
def rREF_STAT (n : Nat) : Nat := 0x020030 + 0x100 * n
def REF_STAT_STATE (n : Nat) : Fld := ⟨(rREF_STAT n), 31, 29⟩
def REF_STAT_PLUGGED (n : Nat) : Fld := ⟨(rREF_STAT n), 28, 28⟩
def REF_STAT_PJ_ARMED (n : Nat) : Fld := ⟨(rREF_STAT n), 27, 27⟩
def REF_STAT_FM_VALID (n : Nat) : Fld := ⟨(rREF_STAT n), 26, 26⟩
def REF_STAT_SOFT_CNT (n : Nat) : Fld := ⟨(rREF_STAT n), 15, 8⟩
def REF_STAT_FORCED (n : Nat) : Fld := ⟨(rREF_STAT n), 6, 6⟩
def REF_STAT_PLUG (n : Nat) : Fld := ⟨(rREF_STAT n), 5, 5⟩
def REF_STAT_SPACING (n : Nat) : Fld := ⟨(rREF_STAT n), 4, 4⟩
def REF_STAT_PJUMP (n : Nat) : Fld := ⟨(rREF_STAT n), 3, 3⟩
def REF_STAT_HARD (n : Nat) : Fld := ⟨(rREF_STAT n), 2, 2⟩
def REF_STAT_ACTIVITY (n : Nat) : Fld := ⟨(rREF_STAT n), 1, 1⟩
def REF_STAT_INIT (n : Nat) : Fld := ⟨(rREF_STAT n), 0, 0⟩
/-- Register REF_n_EVT (05_references_and_selection R162). -/
def rREF_EVT (n : Nat) : Nat := 0x020034 + 0x100 * n
def REF_EVT_SEQ (n : Nat) : Fld := ⟨(rREF_EVT n), 31, 24⟩
def REF_EVT_RANGE (n : Nat) : Fld := ⟨(rREF_EVT n), 8, 8⟩
def REF_EVT_WTR_END (n : Nat) : Fld := ⟨(rREF_EVT n), 7, 7⟩
def REF_EVT_QUAL (n : Nat) : Fld := ⟨(rREF_EVT n), 6, 6⟩
def REF_EVT_STRAY_EXIT (n : Nat) : Fld := ⟨(rREF_EVT n), 5, 5⟩
def REF_EVT_STRAY_ENTRY (n : Nat) : Fld := ⟨(rREF_EVT n), 4, 4⟩
def REF_EVT_DISQ (n : Nat) : Fld := ⟨(rREF_EVT n), 3, 3⟩
def REF_EVT_PJUMP (n : Nat) : Fld := ⟨(rREF_EVT n), 2, 2⟩
def REF_EVT_SPACING (n : Nat) : Fld := ⟨(rREF_EVT n), 1, 1⟩
def REF_EVT_ACTIVITY (n : Nat) : Fld := ⟨(rREF_EVT n), 0, 0⟩
/-- Register REF_n_IEN (05_references_and_selection R162). -/
def rREF_IEN (n : Nat) : Nat := 0x020038 + 0x100 * n
def REF_IEN_IEN (n : Nat) : Fld := ⟨(rREF_IEN n), 8, 0⟩
/-- Register REF_n_FOFF (05_references_and_selection R139). -/
def rREF_FOFF (n : Nat) : Nat := 0x02003C + 0x100 * n
def REF_FOFF_FOFF (n : Nat) : Fld := ⟨(rREF_FOFF n), 31, 0⟩
/-- Register REF_n_WTR_LEFT (05_references_and_selection R144). -/
def rREF_WTR_LEFT (n : Nat) : Nat := 0x020040 + 0x100 * n
def REF_WTR_LEFT_LEFT (n : Nat) : Fld := ⟨(rREF_WTR_LEFT n), 15, 0⟩
/-- Register REF_n_PJ_LAST (05_references_and_selection R140). -/
def rREF_PJ_LAST (n : Nat) : Nat := 0x020044 + 0x100 * n
def REF_PJ_LAST_PJ_LAST (n : Nat) : Fld := ⟨(rREF_PJ_LAST n), 31, 0⟩
/-- Register REF_n_DISQ_CNT (05_references_and_selection R162). -/
def rREF_DISQ_CNT (n : Nat) : Nat := 0x020048 + 0x100 * n
def REF_DISQ_CNT_COUNT (n : Nat) : Fld := ⟨(rREF_DISQ_CNT n), 31, 0⟩
/-- Register REF_n_PJ_CNT (05_references_and_selection R140). -/
def rREF_PJ_CNT (n : Nat) : Nat := 0x02004C + 0x100 * n
def REF_PJ_CNT_COUNT (n : Nat) : Fld := ⟨(rREF_PJ_CNT n), 31, 0⟩
/-- Register REF_n_VIOL_CNT (05_references_and_selection R141). -/
def rREF_VIOL_CNT (n : Nat) : Nat := 0x020050 + 0x100 * n
def REF_VIOL_CNT_COUNT (n : Nat) : Fld := ⟨(rREF_VIOL_CNT n), 31, 0⟩
/-- Register REF_n_CMD (05_references_and_selection R144). -/
def rREF_CMD (n : Nat) : Nat := 0x020054 + 0x100 * n
def REF_CMD_WTR_CLR (n : Nat) : Fld := ⟨(rREF_CMD n), 0, 0⟩
/-- Register REF_OCXO_CFG (05_references_and_selection R150). -/
def rREF_OCXO_CFG : Nat := 0x020C00
def REF_OCXO_CFG_DECL : Fld := ⟨rREF_OCXO_CFG, 31, 31⟩
def REF_OCXO_CFG_OCXO_HARD : Fld := ⟨rREF_OCXO_CFG, 19, 0⟩
/-- Register REF_OCXO_NOM_LO (05_references_and_selection R150). -/
def rREF_OCXO_NOM_LO : Nat := 0x020C04
def REF_OCXO_NOM_LO_NOM : Fld := ⟨rREF_OCXO_NOM_LO, 31, 0⟩
/-- Register REF_OCXO_NOM_HI (05_references_and_selection R150). -/
def rREF_OCXO_NOM_HI : Nat := 0x020C08
def REF_OCXO_NOM_HI_NOM : Fld := ⟨rREF_OCXO_NOM_HI, 15, 0⟩
/-- Register REF_OCXO_STAT (05_references_and_selection R150). -/
def rREF_OCXO_STAT : Nat := 0x020C0C
def REF_OCXO_STAT_PRESENT : Fld := ⟨rREF_OCXO_STAT, 31, 31⟩
def REF_OCXO_STAT_BASE : Fld := ⟨rREF_OCXO_STAT, 30, 30⟩
/-- Register REF_OCXO_FOFF (05_references_and_selection R150). -/
def rREF_OCXO_FOFF : Nat := 0x020C10
def REF_OCXO_FOFF_FOFF : Fld := ⟨rREF_OCXO_FOFF, 31, 0⟩
/-- Register REF_OCXO_EVT (05_references_and_selection R150). -/
def rREF_OCXO_EVT : Nat := 0x020C14
def REF_OCXO_EVT_SEQ : Fld := ⟨rREF_OCXO_EVT, 31, 24⟩
def REF_OCXO_EVT_RANGE : Fld := ⟨rREF_OCXO_EVT, 3, 3⟩
def REF_OCXO_EVT_BASE_CHG : Fld := ⟨rREF_OCXO_EVT, 2, 2⟩
def REF_OCXO_EVT_RETURN : Fld := ⟨rREF_OCXO_EVT, 1, 1⟩
def REF_OCXO_EVT_LOSS : Fld := ⟨rREF_OCXO_EVT, 0, 0⟩
/-- Register PAD_n_CFG (04_paddocks R104). -/
def rPAD_CFG (n : Nat) : Nat := 0x030000 + 0x400 * n
def PAD_CFG_KIND (n : Nat) : Fld := ⟨(rPAD_CFG n), 31, 30⟩
def PAD_CFG_TK (n : Nat) : Fld := ⟨(rPAD_CFG n), 29, 29⟩
def PAD_CFG_ACT_TYPE (n : Nat) : Fld := ⟨(rPAD_CFG n), 23, 20⟩
def PAD_CFG_ACT_IDX (n : Nat) : Fld := ⟨(rPAD_CFG n), 19, 16⟩
def PAD_CFG_EG_V (n : Nat) : Fld := ⟨(rPAD_CFG n), 15, 15⟩
def PAD_CFG_EG (n : Nat) : Fld := ⟨(rPAD_CFG n), 14, 11⟩
def PAD_CFG_FB_CH (n : Nat) : Fld := ⟨(rPAD_CFG n), 9, 4⟩
/-- Register PAD_n_CTL (04_paddocks R120). -/
def rPAD_CTL (n : Nat) : Nat := 0x030004 + 0x400 * n
def PAD_CTL_MODE_REQ (n : Nat) : Fld := ⟨(rPAD_CTL n), 26, 24⟩
def PAD_CTL_BW (n : Nat) : Fld := ⟨(rPAD_CTL n), 20, 16⟩
def PAD_CTL_DAMP (n : Nat) : Fld := ⟨(rPAD_CTL n), 13, 12⟩
def PAD_CTL_MODEL_EN (n : Nat) : Fld := ⟨(rPAD_CTL n), 3, 3⟩
def PAD_CTL_REACQ_WIDE (n : Nat) : Fld := ⟨(rPAD_CTL n), 2, 2⟩
def PAD_CTL_ACQ_PHASE (n : Nat) : Fld := ⟨(rPAD_CTL n), 1, 1⟩
def PAD_CTL_LADDER_EN (n : Nat) : Fld := ⟨(rPAD_CTL n), 0, 0⟩
/-- Register PAD_n_LADDER (04_paddocks R117). -/
def rPAD_LADDER (n : Nat) : Nat := 0x030008 + 0x400 * n
def PAD_LADDER_MULT (n : Nat) : Fld := ⟨(rPAD_LADDER n), 23, 16⟩
def PAD_LADDER_DWELL_K (n : Nat) : Fld := ⟨(rPAD_LADDER n), 11, 8⟩
/-- Register PAD_n_LADDER_THR (04_paddocks R117). -/
def rPAD_LADDER_THR (n : Nat) : Nat := 0x03000C + 0x400 * n
def PAD_LADDER_THR_THR (n : Nat) : Fld := ⟨(rPAD_LADDER_THR n), 31, 0⟩
/-- Register PAD_n_LOCK_THR (04_paddocks R118). -/
def rPAD_LOCK_THR (n : Nat) : Nat := 0x030010 + 0x400 * n
def PAD_LOCK_THR_THR (n : Nat) : Fld := ⟨(rPAD_LOCK_THR n), 31, 0⟩
/-- Register PAD_n_UNLOCK_THR (04_paddocks R118). -/
def rPAD_UNLOCK_THR (n : Nat) : Nat := 0x030014 + 0x400 * n
def PAD_UNLOCK_THR_THR (n : Nat) : Fld := ⟨(rPAD_UNLOCK_THR n), 31, 0⟩
/-- Register PAD_n_PULL (04_paddocks R109). -/
def rPAD_PULL (n : Nat) : Nat := 0x030018 + 0x400 * n
def PAD_PULL_PULL_LIM (n : Nat) : Fld := ⟨(rPAD_PULL n), 15, 0⟩
/-- Register PAD_n_FR_LO (04_paddocks R119). -/
def rPAD_FR_LO (n : Nat) : Nat := 0x030020 + 0x400 * n
def PAD_FR_LO_FR (n : Nat) : Fld := ⟨(rPAD_FR_LO n), 31, 0⟩
/-- Register PAD_n_FR_HI (04_paddocks R119). -/
def rPAD_FR_HI (n : Nat) : Nat := 0x030024 + 0x400 * n
def PAD_FR_HI_FR (n : Nat) : Fld := ⟨(rPAD_FR_HI n), 15, 0⟩
/-- Register PAD_n_STATE (04_paddocks R120). -/
def rPAD_STATE (n : Nat) : Nat := 0x030028 + 0x400 * n
def PAD_STATE_STATE (n : Nat) : Fld := ⟨(rPAD_STATE n), 31, 29⟩
def PAD_STATE_STEP (n : Nat) : Fld := ⟨(rPAD_STATE n), 28, 24⟩
def PAD_STATE_AT_TARGET (n : Nat) : Fld := ⟨(rPAD_STATE n), 23, 23⟩
def PAD_STATE_ACTIVE_V (n : Nat) : Fld := ⟨(rPAD_STATE n), 22, 22⟩
def PAD_STATE_ACTIVE_CH (n : Nat) : Fld := ⟨(rPAD_STATE n), 21, 16⟩
def PAD_STATE_HOLD_VALID (n : Nat) : Fld := ⟨(rPAD_STATE n), 15, 15⟩
def PAD_STATE_CLAMPED (n : Nat) : Fld := ⟨(rPAD_STATE n), 14, 14⟩
def PAD_STATE_MODEL_STALE (n : Nat) : Fld := ⟨(rPAD_STATE n), 13, 13⟩
def PAD_STATE_SLEWING (n : Nat) : Fld := ⟨(rPAD_STATE n), 12, 12⟩
def PAD_STATE_FB_LOSS (n : Nat) : Fld := ⟨(rPAD_STATE n), 11, 11⟩
def PAD_STATE_STRAY_GUARD (n : Nat) : Fld := ⟨(rPAD_STATE n), 10, 10⟩
/-- Register PAD_n_HIST (04_paddocks R124). -/
def rPAD_HIST (n : Nat) : Nat := 0x03002C + 0x400 * n
def PAD_HIST_SEQ (n : Nat) : Fld := ⟨(rPAD_HIST n), 31, 24⟩
def PAD_HIST_STEER_TMO (n : Nat) : Fld := ⟨(rPAD_HIST n), 11, 11⟩
def PAD_HIST_MODEL_STALE (n : Nat) : Fld := ⟨(rPAD_HIST n), 10, 10⟩
def PAD_HIST_HOLD_INVALID (n : Nat) : Fld := ⟨(rPAD_HIST n), 9, 9⟩
def PAD_HIST_CLAMP (n : Nat) : Fld := ⟨(rPAD_HIST n), 8, 8⟩
def PAD_HIST_UNLOCK (n : Nat) : Fld := ⟨(rPAD_HIST n), 7, 7⟩
def PAD_HIST_SKIP (n : Nat) : Fld := ⟨(rPAD_HIST n), 6, 6⟩
def PAD_HIST_STEP_DONE (n : Nat) : Fld := ⟨(rPAD_HIST n), 5, 5⟩
def PAD_HIST_ST_STEERED (n : Nat) : Fld := ⟨(rPAD_HIST n), 4, 4⟩
def PAD_HIST_ST_HOLDOVER (n : Nat) : Fld := ⟨(rPAD_HIST n), 3, 3⟩
def PAD_HIST_ST_LOCKED (n : Nat) : Fld := ⟨(rPAD_HIST n), 2, 2⟩
def PAD_HIST_ST_ACQUIRE (n : Nat) : Fld := ⟨(rPAD_HIST n), 1, 1⟩
def PAD_HIST_ST_FREERUN (n : Nat) : Fld := ⟨(rPAD_HIST n), 0, 0⟩
/-- Register PAD_n_IEN (04_paddocks R124). -/
def rPAD_IEN (n : Nat) : Nat := 0x030030 + 0x400 * n
def PAD_IEN_IEN (n : Nat) : Fld := ⟨(rPAD_IEN n), 11, 0⟩
/-- Register PAD_n_PERR (04_paddocks R131). -/
def rPAD_PERR (n : Nat) : Nat := 0x030034 + 0x400 * n
def PAD_PERR_ERR (n : Nat) : Fld := ⟨(rPAD_PERR n), 31, 0⟩
/-- Register PAD_n_FW_LO (04_paddocks R109). -/
def rPAD_FW_LO (n : Nat) : Nat := 0x030038 + 0x400 * n
def PAD_FW_LO_VALUE (n : Nat) : Fld := ⟨(rPAD_FW_LO n), 31, 0⟩
/-- Register PAD_n_FW_HI (04_paddocks R109). -/
def rPAD_FW_HI (n : Nat) : Nat := 0x03003C + 0x400 * n
def PAD_FW_HI_VALUE (n : Nat) : Fld := ⟨(rPAD_FW_HI n), 15, 0⟩
/-- Register PAD_n_HAVG_LO (04_paddocks R128). -/
def rPAD_HAVG_LO (n : Nat) : Nat := 0x030040 + 0x400 * n
def PAD_HAVG_LO_VALUE (n : Nat) : Fld := ⟨(rPAD_HAVG_LO n), 31, 0⟩
/-- Register PAD_n_HAVG_HI (04_paddocks R128). -/
def rPAD_HAVG_HI (n : Nat) : Nat := 0x030044 + 0x400 * n
def PAD_HAVG_HI_VALUE (n : Nat) : Fld := ⟨(rPAD_HAVG_HI n), 15, 0⟩
/-- Register PAD_n_HW_LO (04_paddocks R129). -/
def rPAD_HW_LO (n : Nat) : Nat := 0x030048 + 0x400 * n
def PAD_HW_LO_VALUE (n : Nat) : Fld := ⟨(rPAD_HW_LO n), 31, 0⟩
/-- Register PAD_n_HW_HI (04_paddocks R129). -/
def rPAD_HW_HI (n : Nat) : Nat := 0x03004C + 0x400 * n
def PAD_HW_HI_VALUE (n : Nat) : Fld := ⟨(rPAD_HW_HI n), 15, 0⟩
/-- Register PAD_n_HMODEL_LO (04_paddocks R129). -/
def rPAD_HMODEL_LO (n : Nat) : Nat := 0x030050 + 0x400 * n
def PAD_HMODEL_LO_M (n : Nat) : Fld := ⟨(rPAD_HMODEL_LO n), 31, 0⟩
/-- Register PAD_n_HMODEL_HI (04_paddocks R129). -/
def rPAD_HMODEL_HI (n : Nat) : Nat := 0x030054 + 0x400 * n
def PAD_HMODEL_HI_M (n : Nat) : Fld := ⟨(rPAD_HMODEL_HI n), 31, 0⟩
/-- Register PAD_n_HMODEL_LO_C (04_paddocks R129). -/
def rPAD_HMODEL_LO_C (n : Nat) : Nat := 0x030058 + 0x400 * n
def PAD_HMODEL_LO_C_M (n : Nat) : Fld := ⟨(rPAD_HMODEL_LO_C n), 31, 0⟩
/-- Register PAD_n_HMODEL_HI_C (04_paddocks R129). -/
def rPAD_HMODEL_HI_C (n : Nat) : Nat := 0x03005C + 0x400 * n
def PAD_HMODEL_HI_C_M (n : Nat) : Fld := ⟨(rPAD_HMODEL_HI_C n), 31, 0⟩
/-- Register PAD_n_HWIN (04_paddocks R128). -/
def rPAD_HWIN (n : Nat) : Nat := 0x030060 + 0x400 * n
def PAD_HWIN_W (n : Nat) : Fld := ⟨(rPAD_HWIN n), 16, 0⟩
/-- Register PAD_n_HGUARD (04_paddocks R128). -/
def rPAD_HGUARD (n : Nat) : Nat := 0x030064 + 0x400 * n
def PAD_HGUARD_HOLD_MIN (n : Nat) : Fld := ⟨(rPAD_HGUARD n), 31, 16⟩
def PAD_HGUARD_GUARD (n : Nat) : Fld := ⟨(rPAD_HGUARD n), 15, 0⟩
/-- Register PAD_n_HSTAT (04_paddocks R128). -/
def rPAD_HSTAT (n : Nat) : Nat := 0x030068 + 0x400 * n
def PAD_HSTAT_VALUE (n : Nat) : Fld := ⟨(rPAD_HSTAT n), 16, 0⟩
/-- Register PAD_n_HGEFF (04_paddocks R128). -/
def rPAD_HGEFF (n : Nat) : Nat := 0x03006C + 0x400 * n
def PAD_HGEFF_VALUE (n : Nat) : Fld := ⟨(rPAD_HGEFF n), 31, 0⟩
/-- Register PAD_n_UPD (04_paddocks R134). -/
def rPAD_UPD (n : Nat) : Nat := 0x030074 + 0x400 * n
def PAD_UPD_COUNT (n : Nat) : Fld := ⟨(rPAD_UPD n), 31, 0⟩
/-- Register PAD_n_SKIP (04_paddocks R107). -/
def rPAD_SKIP (n : Nat) : Nat := 0x030078 + 0x400 * n
def PAD_SKIP_COUNT (n : Nat) : Fld := ⟨(rPAD_SKIP n), 31, 0⟩
/-- Register PAD_n_SFO_LO (04_paddocks R123). -/
def rPAD_SFO_LO (n : Nat) : Nat := 0x030080 + 0x400 * n
def PAD_SFO_LO_SFO (n : Nat) : Fld := ⟨(rPAD_SFO_LO n), 31, 0⟩
/-- Register PAD_n_SFO_HI (04_paddocks R123). -/
def rPAD_SFO_HI (n : Nat) : Nat := 0x030084 + 0x400 * n
def PAD_SFO_HI_SFO (n : Nat) : Fld := ⟨(rPAD_SFO_HI n), 31, 0⟩
/-- Register PAD_n_SFO_LO_C (04_paddocks R123). -/
def rPAD_SFO_LO_C (n : Nat) : Nat := 0x030088 + 0x400 * n
def PAD_SFO_LO_C_SFO (n : Nat) : Fld := ⟨(rPAD_SFO_LO_C n), 31, 0⟩
/-- Register PAD_n_SFO_HI_C (04_paddocks R123). -/
def rPAD_SFO_HI_C (n : Nat) : Nat := 0x03008C + 0x400 * n
def PAD_SFO_HI_C_SFO (n : Nat) : Fld := ⟨(rPAD_SFO_HI_C n), 31, 0⟩
/-- Register PAD_n_SPO (04_paddocks R123). -/
def rPAD_SPO (n : Nat) : Nat := 0x030090 + 0x400 * n
def PAD_SPO_SPO (n : Nat) : Fld := ⟨(rPAD_SPO n), 31, 0⟩
/-- Register PAD_n_SPO_C (04_paddocks R123). -/
def rPAD_SPO_C (n : Nat) : Nat := 0x030094 + 0x400 * n
def PAD_SPO_C_SPO (n : Nat) : Fld := ⟨(rPAD_SPO_C n), 31, 0⟩
/-- Register PAD_n_SCFG (04_paddocks R123). -/
def rPAD_SCFG (n : Nat) : Nat := 0x030098 + 0x400 * n
def PAD_SCFG_STEER_TMO (n : Nat) : Fld := ⟨(rPAD_SCFG n), 31, 24⟩
def PAD_SCFG_PSLEW (n : Nat) : Fld := ⟨(rPAD_SCFG n), 15, 0⟩
/-- Register PAD_n_TEL (04_paddocks R131). -/
def rPAD_TEL (n : Nat) : Nat := 0x0300A0 + 0x400 * n
def PAD_TEL_TEL_EN (n : Nat) : Fld := ⟨(rPAD_TEL n), 31, 31⟩
def PAD_TEL_TEL_RING (n : Nat) : Fld := ⟨(rPAD_TEL n), 27, 24⟩
def PAD_TEL_TEL_DIV (n : Nat) : Fld := ⟨(rPAD_TEL n), 19, 0⟩
/-- Register PAD_n_TEL_TAG (04_paddocks R131). -/
def rPAD_TEL_TAG (n : Nat) : Nat := 0x0300A4 + 0x400 * n
def PAD_TEL_TAG_TAG (n : Nat) : Fld := ⟨(rPAD_TEL_TAG n), 31, 0⟩
/-- Register PAD_n_TSTEP_SEC (04_paddocks R112). -/
def rPAD_TSTEP_SEC (n : Nat) : Nat := 0x0300B0 + 0x400 * n
def PAD_TSTEP_SEC_STEP (n : Nat) : Fld := ⟨(rPAD_TSTEP_SEC n), 31, 0⟩
/-- Register PAD_n_TSTEP_NS (04_paddocks R112). -/
def rPAD_TSTEP_NS (n : Nat) : Nat := 0x0300B4 + 0x400 * n
def PAD_TSTEP_NS_STEP (n : Nat) : Fld := ⟨(rPAD_TSTEP_NS n), 31, 0⟩
/-- Register PAD_n_TSTEP_CMD (04_paddocks R112). -/
def rPAD_TSTEP_CMD (n : Nat) : Nat := 0x0300B8 + 0x400 * n
def PAD_TSTEP_CMD_GO (n : Nat) : Fld := ⟨(rPAD_TSTEP_CMD n), 0, 0⟩
/-- Register PAD_n_STEP_THR (04_paddocks R112). -/
def rPAD_STEP_THR (n : Nat) : Nat := 0x0300BC + 0x400 * n
def PAD_STEP_THR_STEP_THR (n : Nat) : Fld := ⟨(rPAD_STEP_THR n), 31, 0⟩
/-- Register PAD_n_ERR (04_paddocks R134). -/
def rPAD_ERR (n : Nat) : Nat := 0x0300C0 + 0x400 * n
def PAD_ERR_SEQ (n : Nat) : Fld := ⟨(rPAD_ERR n), 31, 24⟩
def PAD_ERR_TEL_DROP (n : Nat) : Fld := ⟨(rPAD_ERR n), 4, 4⟩
def PAD_ERR_TSTEP_REJ (n : Nat) : Fld := ⟨(rPAD_ERR n), 3, 3⟩
def PAD_ERR_MODE_REJ (n : Nat) : Fld := ⟨(rPAD_ERR n), 2, 2⟩
def PAD_ERR_CPL_ERR (n : Nat) : Fld := ⟨(rPAD_ERR n), 1, 1⟩
def PAD_ERR_RANGE (n : Nat) : Fld := ⟨(rPAD_ERR n), 0, 0⟩
/-- Register PAD_n_BO_LO (04_paddocks R105). -/
def rPAD_BO_LO (n : Nat) : Nat := 0x0300C8 + 0x400 * n
def PAD_BO_LO_BO (n : Nat) : Fld := ⟨(rPAD_BO_LO n), 31, 0⟩
/-- Register PAD_n_BO_HI (04_paddocks R105). -/
def rPAD_BO_HI (n : Nat) : Nat := 0x0300CC + 0x400 * n
def PAD_BO_HI_BO (n : Nat) : Fld := ⟨(rPAD_BO_HI n), 15, 0⟩
/-- Register PAD_n_UCODE_i (04_paddocks R113). -/
def rPAD_UCODE (n i : Nat) : Nat := 0x030100 + 0x400 * n + 0x4 * i
def PAD_UCODE_UCODE (n i : Nat) : Fld := ⟨(rPAD_UCODE n i), 31, 0⟩
/-- Register PAD_n_CAND_i_CFG (05_references_and_selection R151). -/
def rPAD_CAND_CFG (n i : Nat) : Nat := 0x030200 + 0x400 * n + 0x10 * i
def PAD_CAND_CFG_VALID (n i : Nat) : Fld := ⟨(rPAD_CAND_CFG n i), 31, 31⟩
def PAD_CAND_CFG_CH (n i : Nat) : Fld := ⟨(rPAD_CAND_CFG n i), 29, 24⟩
def PAD_CAND_CFG_RANK (n i : Nat) : Fld := ⟨(rPAD_CAND_CFG n i), 19, 16⟩
def PAD_CAND_CFG_LOCKOUT (n i : Nat) : Fld := ⟨(rPAD_CAND_CFG n i), 8, 8⟩
/-- Register PAD_n_CAND_i_POFF (05_references_and_selection R151). -/
def rPAD_CAND_POFF (n i : Nat) : Nat := 0x030204 + 0x400 * n + 0x10 * i
def PAD_CAND_POFF_POFF (n i : Nat) : Fld := ⟨(rPAD_CAND_POFF n i), 31, 0⟩
/-- Register PAD_n_CAND_i_STAT (05_references_and_selection R152). -/
def rPAD_CAND_STAT (n i : Nat) : Nat := 0x030208 + 0x400 * n + 0x10 * i
def PAD_CAND_STAT_ELIG (n i : Nat) : Fld := ⟨(rPAD_CAND_STAT n i), 31, 31⟩
def PAD_CAND_STAT_VOTED_OUT (n i : Nat) : Fld := ⟨(rPAD_CAND_STAT n i), 30, 30⟩
def PAD_CAND_STAT_REFSTATE (n i : Nat) : Fld := ⟨(rPAD_CAND_STAT n i), 29, 27⟩
def PAD_CAND_STAT_SCORE (n i : Nat) : Fld := ⟨(rPAD_CAND_STAT n i), 3, 0⟩
/-- Register PAD_n_SEL (05_references_and_selection R154). -/
def rPAD_SEL (n : Nat) : Nat := 0x030280 + 0x400 * n
def PAD_SEL_REVERT (n : Nat) : Fld := ⟨(rPAD_SEL n), 31, 31⟩
def PAD_SEL_SEL_MODE (n : Nat) : Fld := ⟨(rPAD_SEL n), 30, 29⟩
def PAD_SEL_MAN_FB (n : Nat) : Fld := ⟨(rPAD_SEL n), 28, 28⟩
def PAD_SEL_MAN_IDX (n : Nat) : Fld := ⟨(rPAD_SEL n), 26, 24⟩
def PAD_SEL_PB_SRC (n : Nat) : Fld := ⟨(rPAD_SEL n), 21, 20⟩
/-- Register PAD_n_SWCFG (05_references_and_selection R159). -/
def rPAD_SWCFG (n : Nat) : Nat := 0x030284 + 0x400 * n
def PAD_SWCFG_SW_MODE (n : Nat) : Fld := ⟨(rPAD_SWCFG n), 31, 31⟩
def PAD_SWCFG_BO_N (n : Nat) : Fld := ⟨(rPAD_SWCFG n), 29, 28⟩
def PAD_SWCFG_PI_RATE (n : Nat) : Fld := ⟨(rPAD_SWCFG n), 15, 0⟩
/-- Register PAD_n_VOTE (05_references_and_selection R157). -/
def rPAD_VOTE (n : Nat) : Nat := 0x030288 + 0x400 * n
def PAD_VOTE_VOTE_THR (n : Nat) : Fld := ⟨(rPAD_VOTE n), 15, 0⟩
/-- Register PAD_n_SEL_STAT (05_references_and_selection R154). -/
def rPAD_SEL_STAT (n : Nat) : Nat := 0x03028C + 0x400 * n
def PAD_SEL_STAT_ACT_V (n : Nat) : Fld := ⟨(rPAD_SEL_STAT n), 31, 31⟩
def PAD_SEL_STAT_ACT_IDX (n : Nat) : Fld := ⟨(rPAD_SEL_STAT n), 30, 28⟩
def PAD_SEL_STAT_HOLDING (n : Nat) : Fld := ⟨(rPAD_SEL_STAT n), 27, 27⟩
def PAD_SEL_STAT_PULLING (n : Nat) : Fld := ⟨(rPAD_SEL_STAT n), 26, 26⟩
def PAD_SEL_STAT_RANK_SPLIT (n : Nat) : Fld := ⟨(rPAD_SEL_STAT n), 25, 25⟩
def PAD_SEL_STAT_MANUAL_FB (n : Nat) : Fld := ⟨(rPAD_SEL_STAT n), 24, 24⟩
def PAD_SEL_STAT_HOLD_LEFT (n : Nat) : Fld := ⟨(rPAD_SEL_STAT n), 6, 0⟩
/-- Register PAD_n_PULL_REM_LO (05_references_and_selection R159). -/
def rPAD_PULL_REM_LO (n : Nat) : Nat := 0x030290 + 0x400 * n
def PAD_PULL_REM_LO_Q (n : Nat) : Fld := ⟨(rPAD_PULL_REM_LO n), 31, 0⟩
/-- Register PAD_n_PULL_REM_HI (05_references_and_selection R159). -/
def rPAD_PULL_REM_HI (n : Nat) : Nat := 0x030294 + 0x400 * n
def PAD_PULL_REM_HI_Q (n : Nat) : Fld := ⟨(rPAD_PULL_REM_HI n), 15, 0⟩
/-- Register PAD_n_SEL_EVT (05_references_and_selection R162). -/
def rPAD_SEL_EVT (n : Nat) : Nat := 0x030298 + 0x400 * n
def PAD_SEL_EVT_SEQ (n : Nat) : Fld := ⟨(rPAD_SEL_EVT n), 31, 24⟩
def PAD_SEL_EVT_PB (n : Nat) : Fld := ⟨(rPAD_SEL_EVT n), 4, 4⟩
def PAD_SEL_EVT_MAN_FB (n : Nat) : Fld := ⟨(rPAD_SEL_EVT n), 3, 3⟩
def PAD_SEL_EVT_RANK_SPLIT (n : Nat) : Fld := ⟨(rPAD_SEL_EVT n), 2, 2⟩
def PAD_SEL_EVT_VOTE (n : Nat) : Fld := ⟨(rPAD_SEL_EVT n), 1, 1⟩
def PAD_SEL_EVT_SWITCH (n : Nat) : Fld := ⟨(rPAD_SEL_EVT n), 0, 0⟩
/-- Register PAD_n_SEL_IEN (05_references_and_selection R162). -/
def rPAD_SEL_IEN (n : Nat) : Nat := 0x03029C + 0x400 * n
def PAD_SEL_IEN_IEN (n : Nat) : Fld := ⟨(rPAD_SEL_IEN n), 4, 0⟩
/-- Register PAD_n_SWCNT (05_references_and_selection R154). -/
def rPAD_SWCNT (n : Nat) : Nat := 0x0302A0 + 0x400 * n
def PAD_SWCNT_COUNT (n : Nat) : Fld := ⟨(rPAD_SWCNT n), 31, 0⟩
/-- Register FLOCK_n_CFG (06_flocks_and_outputs R163). -/
def rFLOCK_CFG (n : Nat) : Nat := 0x040000 + 0x200 * n
def FLOCK_CFG_USED (n : Nat) : Fld := ⟨(rFLOCK_CFG n), 31, 31⟩
def FLOCK_CFG_TANK (n : Nat) : Fld := ⟨(rFLOCK_CFG n), 30, 30⟩
def FLOCK_CFG_NOM_NI (n : Nat) : Fld := ⟨(rFLOCK_CFG n), 24, 16⟩
/-- Register FLOCK_n_NOM_LO (06_flocks_and_outputs R164). -/
def rFLOCK_NOM_LO (n : Nat) : Nat := 0x040004 + 0x200 * n
def FLOCK_NOM_LO_NOM_NF (n : Nat) : Fld := ⟨(rFLOCK_NOM_LO n), 31, 0⟩
/-- Register FLOCK_n_NOM_HI (06_flocks_and_outputs R164). -/
def rFLOCK_NOM_HI (n : Nat) : Nat := 0x040008 + 0x200 * n
def FLOCK_NOM_HI_NOM_NF (n : Nat) : Fld := ⟨(rFLOCK_NOM_HI n), 15, 0⟩
/-- Register FLOCK_n_CTL (06_flocks_and_outputs R166). -/
def rFLOCK_CTL (n : Nat) : Nat := 0x04000C + 0x200 * n
def FLOCK_CTL_BW (n : Nat) : Fld := ⟨(rFLOCK_CTL n), 2, 0⟩
/-- Register FLOCK_n_N_LO (06_flocks_and_outputs R164). -/
def rFLOCK_N_LO (n : Nat) : Nat := 0x040010 + 0x200 * n
def FLOCK_N_LO_N (n : Nat) : Fld := ⟨(rFLOCK_N_LO n), 31, 0⟩
/-- Register FLOCK_n_N_HI (06_flocks_and_outputs R164). -/
def rFLOCK_N_HI (n : Nat) : Nat := 0x040014 + 0x200 * n
def FLOCK_N_HI_NI (n : Nat) : Fld := ⟨(rFLOCK_N_HI n), 24, 16⟩
def FLOCK_N_HI_NF (n : Nat) : Fld := ⟨(rFLOCK_N_HI n), 15, 0⟩
/-- Register FLOCK_n_CMD (06_flocks_and_outputs R165). -/
def rFLOCK_CMD (n : Nat) : Nat := 0x040018 + 0x200 * n
def FLOCK_CMD_RECAL (n : Nat) : Fld := ⟨(rFLOCK_CMD n), 0, 0⟩
/-- Register FLOCK_n_STAT (06_flocks_and_outputs R167). -/
def rFLOCK_STAT (n : Nat) : Nat := 0x04001C + 0x200 * n
def FLOCK_STAT_LOCK (n : Nat) : Fld := ⟨(rFLOCK_STAT n), 31, 31⟩
def FLOCK_STAT_CAL_BUSY (n : Nat) : Fld := ⟨(rFLOCK_STAT n), 30, 30⟩
def FLOCK_STAT_DRIVEN (n : Nat) : Fld := ⟨(rFLOCK_STAT n), 29, 29⟩
def FLOCK_STAT_PAD (n : Nat) : Fld := ⟨(rFLOCK_STAT n), 27, 24⟩
def FLOCK_STAT_BAND (n : Nat) : Fld := ⟨(rFLOCK_STAT n), 7, 0⟩
/-- Register FLOCK_n_EVT (06_flocks_and_outputs R167). -/
def rFLOCK_EVT (n : Nat) : Nat := 0x040020 + 0x200 * n
def FLOCK_EVT_SEQ (n : Nat) : Fld := ⟨(rFLOCK_EVT n), 31, 24⟩
def FLOCK_EVT_CMD_REJ (n : Nat) : Fld := ⟨(rFLOCK_EVT n), 4, 4⟩
def FLOCK_EVT_RANGE (n : Nat) : Fld := ⟨(rFLOCK_EVT n), 3, 3⟩
def FLOCK_EVT_CAL_FAIL (n : Nat) : Fld := ⟨(rFLOCK_EVT n), 2, 2⟩
def FLOCK_EVT_CAL_DONE (n : Nat) : Fld := ⟨(rFLOCK_EVT n), 1, 1⟩
def FLOCK_EVT_LOL (n : Nat) : Fld := ⟨(rFLOCK_EVT n), 0, 0⟩
/-- Register FLOCK_n_LOL_CNT (06_flocks_and_outputs R167). -/
def rFLOCK_LOL_CNT (n : Nat) : Nat := 0x040024 + 0x200 * n
def FLOCK_LOL_CNT_VALUE (n : Nat) : Fld := ⟨(rFLOCK_LOL_CNT n), 31, 0⟩
/-- Register FLOCK_n_IEN (06_flocks_and_outputs R167). -/
def rFLOCK_IEN (n : Nat) : Nat := 0x040028 + 0x200 * n
def FLOCK_IEN_IEN (n : Nat) : Fld := ⟨(rFLOCK_IEN n), 4, 0⟩
/-- Register FLOCK_n_FDIV_i_CFG (06_flocks_and_outputs R169). -/
def rFLOCK_FDIV_CFG (n i : Nat) : Nat := 0x040040 + 0x200 * n + 0x10 * i
def FLOCK_FDIV_CFG_USED (n i : Nat) : Fld := ⟨(rFLOCK_FDIV_CFG n i), 31, 31⟩
def FLOCK_FDIV_CFG_INT (n i : Nat) : Fld := ⟨(rFLOCK_FDIV_CFG n i), 23, 0⟩
/-- Register FLOCK_n_FDIV_i_NUM (06_flocks_and_outputs R169). -/
def rFLOCK_FDIV_NUM (n i : Nat) : Nat := 0x040044 + 0x200 * n + 0x10 * i
def FLOCK_FDIV_NUM_NUM (n i : Nat) : Fld := ⟨(rFLOCK_FDIV_NUM n i), 23, 0⟩
/-- Register FLOCK_n_FDIV_i_DEN (06_flocks_and_outputs R169). -/
def rFLOCK_FDIV_DEN (n i : Nat) : Nat := 0x040048 + 0x200 * n + 0x10 * i
def FLOCK_FDIV_DEN_DEN (n i : Nat) : Fld := ⟨(rFLOCK_FDIV_DEN n i), 23, 0⟩
/-- Register OUT_n_CFG (06_flocks_and_outputs R169). -/
def rOUT_CFG (n : Nat) : Nat := 0x050000 + 0x80 * n
def OUT_CFG_SRC_TYPE (n : Nat) : Fld := ⟨(rOUT_CFG n), 31, 30⟩
def OUT_CFG_SRC_IDX (n : Nat) : Fld := ⟨(rOUT_CFG n), 29, 27⟩
def OUT_CFG_FORMAT (n : Nat) : Fld := ⟨(rOUT_CFG n), 26, 25⟩
def OUT_CFG_USED (n : Nat) : Fld := ⟨(rOUT_CFG n), 24, 24⟩
def OUT_CFG_SLOW (n : Nat) : Fld := ⟨(rOUT_CFG n), 23, 23⟩
/-- Register OUT_n_DIV (06_flocks_and_outputs R169). -/
def rOUT_DIV (n : Nat) : Nat := 0x050004 + 0x80 * n
def OUT_DIV_ODIV (n : Nat) : Fld := ⟨(rOUT_DIV n), 24, 0⟩
/-- Register OUT_n_CTL (06_flocks_and_outputs R178). -/
def rOUT_CTL (n : Nat) : Nat := 0x050008 + 0x80 * n
def OUT_CTL_ENABLE (n : Nat) : Fld := ⟨(rOUT_CTL n), 31, 31⟩
def OUT_CTL_SAFE (n : Nat) : Fld := ⟨(rOUT_CTL n), 30, 29⟩
def OUT_CTL_PARK_P (n : Nat) : Fld := ⟨(rOUT_CTL n), 28, 28⟩
def OUT_CTL_PARK_N (n : Nat) : Fld := ⟨(rOUT_CTL n), 27, 27⟩
def OUT_CTL_KEEPALIVE (n : Nat) : Fld := ⟨(rOUT_CTL n), 26, 26⟩
def OUT_CTL_CMOS_NPH (n : Nat) : Fld := ⟨(rOUT_CTL n), 25, 25⟩
def OUT_CTL_AMP (n : Nat) : Fld := ⟨(rOUT_CTL n), 24, 23⟩
/-- Register OUT_n_DELAY (06_flocks_and_outputs R172). -/
def rOUT_DELAY (n : Nat) : Nat := 0x05000C + 0x80 * n
def OUT_DELAY_COARSE (n : Nat) : Fld := ⟨(rOUT_DELAY n), 31, 24⟩
def OUT_DELAY_FINE (n : Nat) : Fld := ⟨(rOUT_DELAY n), 11, 0⟩
/-- Register OUT_n_ATRIM (06_flocks_and_outputs R190). -/
def rOUT_ATRIM (n : Nat) : Nat := 0x050010 + 0x80 * n
def OUT_ATRIM_ATRIM_C (n : Nat) : Fld := ⟨(rOUT_ATRIM n), 31, 23⟩
def OUT_ATRIM_ATRIM_F (n : Nat) : Fld := ⟨(rOUT_ATRIM n), 12, 0⟩
/-- Register OUT_n_DELAY_STAT (06_flocks_and_outputs R173). -/
def rOUT_DELAY_STAT (n : Nat) : Nat := 0x050014 + 0x80 * n
def OUT_DELAY_STAT_C (n : Nat) : Fld := ⟨(rOUT_DELAY_STAT n), 31, 24⟩
def OUT_DELAY_STAT_MOVING (n : Nat) : Fld := ⟨(rOUT_DELAY_STAT n), 23, 23⟩
def OUT_DELAY_STAT_F (n : Nat) : Fld := ⟨(rOUT_DELAY_STAT n), 11, 0⟩
/-- Register OUT_n_STAT (06_flocks_and_outputs R178). -/
def rOUT_STAT (n : Nat) : Nat := 0x050018 + 0x80 * n
def OUT_STAT_STATE (n : Nat) : Fld := ⟨(rOUT_STAT n), 31, 29⟩
def OUT_STAT_DRV_FAULT (n : Nat) : Fld := ⟨(rOUT_STAT n), 28, 28⟩
def OUT_STAT_FOLDED (n : Nat) : Fld := ⟨(rOUT_STAT n), 27, 27⟩
/-- Register OUT_n_EVT (06_flocks_and_outputs R184). -/
def rOUT_EVT (n : Nat) : Nat := 0x05001C + 0x80 * n
def OUT_EVT_SEQ (n : Nat) : Fld := ⟨(rOUT_EVT n), 31, 24⟩
def OUT_EVT_ALIGN_DONE (n : Nat) : Fld := ⟨(rOUT_EVT n), 4, 4⟩
def OUT_EVT_RANGE (n : Nat) : Fld := ⟨(rOUT_EVT n), 3, 3⟩
def OUT_EVT_TRUNC (n : Nat) : Fld := ⟨(rOUT_EVT n), 2, 2⟩
def OUT_EVT_STOPPED (n : Nat) : Fld := ⟨(rOUT_EVT n), 1, 1⟩
def OUT_EVT_DRV_FAULT (n : Nat) : Fld := ⟨(rOUT_EVT n), 0, 0⟩
/-- Register OUT_n_IEN (06_flocks_and_outputs R184). -/
def rOUT_IEN (n : Nat) : Nat := 0x050020 + 0x80 * n
def OUT_IEN_IEN (n : Nat) : Fld := ⟨(rOUT_IEN n), 4, 0⟩
/-- Register OUT_n_ALIGN_TGT (06_flocks_and_outputs R189). -/
def rOUT_ALIGN_TGT (n : Nat) : Nat := 0x050024 + 0x80 * n
def OUT_ALIGN_TGT_TGT (n : Nat) : Fld := ⟨(rOUT_ALIGN_TGT n), 31, 0⟩
/-- Register OUT_n_ALIGN_RES (06_flocks_and_outputs R190). -/
def rOUT_ALIGN_RES (n : Nat) : Nat := 0x050028 + 0x80 * n
def OUT_ALIGN_RES_CODE (n : Nat) : Fld := ⟨(rOUT_ALIGN_RES n), 31, 28⟩
def OUT_ALIGN_RES_RES (n : Nat) : Fld := ⟨(rOUT_ALIGN_RES n), 27, 0⟩
/-- Register OUT_TEE (06_flocks_and_outputs R188). -/
def rOUT_TEE : Nat := 0x050C00
def OUT_TEE_EN : Fld := ⟨rOUT_TEE, 31, 31⟩
def OUT_TEE_DEST : Fld := ⟨rOUT_TEE, 12, 8⟩
def OUT_TEE_SRC : Fld := ⟨rOUT_TEE, 4, 0⟩
/-- Register OUT_ERR (06_flocks_and_outputs R188). -/
def rOUT_ERR : Nat := 0x050C04
def OUT_ERR_SEQ : Fld := ⟨rOUT_ERR, 31, 24⟩
def OUT_ERR_TEE_REJ : Fld := ⟨rOUT_ERR, 0, 0⟩
/-- Register OUT_RUN_MAP (06_flocks_and_outputs R178). -/
def rOUT_RUN_MAP : Nat := 0x050C08
def OUT_RUN_MAP_RUN : Fld := ⟨rOUT_RUN_MAP, 23, 0⟩
/-- Register PSYN_n_CFG (06_flocks_and_outputs R174). -/
def rPSYN_CFG (n : Nat) : Nat := 0x051000 + 0x40 * n
def PSYN_CFG_USED (n : Nat) : Fld := ⟨(rPSYN_CFG n), 31, 31⟩
def PSYN_CFG_SRC_APLL (n : Nat) : Fld := ⟨(rPSYN_CFG n), 30, 28⟩
def PSYN_CFG_DRIVEN (n : Nat) : Fld := ⟨(rPSYN_CFG n), 27, 27⟩
def PSYN_CFG_PAD (n : Nat) : Fld := ⟨(rPSYN_CFG n), 26, 23⟩
/-- Register PSYN_n_PERIOD_LO (06_flocks_and_outputs R174). -/
def rPSYN_PERIOD_LO (n : Nat) : Nat := 0x051004 + 0x40 * n
def PSYN_PERIOD_LO_PERIOD (n : Nat) : Fld := ⟨(rPSYN_PERIOD_LO n), 31, 0⟩
/-- Register PSYN_n_PERIOD_HI (06_flocks_and_outputs R174). -/
def rPSYN_PERIOD_HI (n : Nat) : Nat := 0x051008 + 0x40 * n
def PSYN_PERIOD_HI_PERIOD (n : Nat) : Fld := ⟨(rPSYN_PERIOD_HI n), 15, 0⟩
/-- Register PSYN_n_OFFSET_LO (06_flocks_and_outputs R176). -/
def rPSYN_OFFSET_LO (n : Nat) : Nat := 0x05100C + 0x40 * n
def PSYN_OFFSET_LO_OFFSET (n : Nat) : Fld := ⟨(rPSYN_OFFSET_LO n), 31, 0⟩
/-- Register PSYN_n_OFFSET_HI (06_flocks_and_outputs R176). -/
def rPSYN_OFFSET_HI (n : Nat) : Nat := 0x051010 + 0x40 * n
def PSYN_OFFSET_HI_OFFSET (n : Nat) : Fld := ⟨(rPSYN_OFFSET_HI n), 15, 0⟩
/-- Register PSYN_n_WIDTH (06_flocks_and_outputs R177). -/
def rPSYN_WIDTH (n : Nat) : Nat := 0x051014 + 0x40 * n
def PSYN_WIDTH_WIDTH (n : Nat) : Fld := ⟨(rPSYN_WIDTH n), 31, 0⟩
/-- Register PSYN_n_STAT (06_flocks_and_outputs R174). -/
def rPSYN_STAT (n : Nat) : Nat := 0x051018 + 0x40 * n
def PSYN_STAT_RUNNING (n : Nat) : Fld := ⟨(rPSYN_STAT n), 31, 31⟩
def PSYN_STAT_HIGH (n : Nat) : Fld := ⟨(rPSYN_STAT n), 30, 30⟩
/-- Register PSYN_n_EVT (06_flocks_and_outputs R177). -/
def rPSYN_EVT (n : Nat) : Nat := 0x05101C + 0x40 * n
def PSYN_EVT_SEQ (n : Nat) : Fld := ⟨(rPSYN_EVT n), 31, 24⟩
def PSYN_EVT_OFFSET_APPLIED (n : Nat) : Fld := ⟨(rPSYN_EVT n), 2, 2⟩
def PSYN_EVT_RANGE (n : Nat) : Fld := ⟨(rPSYN_EVT n), 1, 1⟩
def PSYN_EVT_DROP (n : Nat) : Fld := ⟨(rPSYN_EVT n), 0, 0⟩
/-- Register PSYN_n_CNT (06_flocks_and_outputs R174). -/
def rPSYN_CNT (n : Nat) : Nat := 0x051020 + 0x40 * n
def PSYN_CNT_COUNT (n : Nat) : Fld := ⟨(rPSYN_CNT n), 31, 0⟩
/-- Register MEAS_CTL (02_measurement_front_end R65). -/
def rMEAS_CTL : Nat := 0x060000
def MEAS_CTL_CAL_EN : Fld := ⟨rMEAS_CTL, 1, 1⟩
def MEAS_CTL_JOB_EN : Fld := ⟨rMEAS_CTL, 0, 0⟩
/-- Register MEAS_STAT (02_measurement_front_end R66). -/
def rMEAS_STAT : Nat := 0x060004
def MEAS_STAT_SEQ : Fld := ⟨rMEAS_STAT, 31, 24⟩
def MEAS_STAT_HANDOVER_DIFF : Fld := ⟨rMEAS_STAT, 9, 9⟩
def MEAS_STAT_TABLE_ECC : Fld := ⟨rMEAS_STAT, 8, 8⟩
def MEAS_STAT_CHECK_FAIL : Fld := ⟨rMEAS_STAT, 7, 7⟩
def MEAS_STAT_PILOT_FAIL : Fld := ⟨rMEAS_STAT, 6, 6⟩
def MEAS_STAT_JOB_STARVED : Fld := ⟨rMEAS_STAT, 5, 5⟩
def MEAS_STAT_LOOP_LOST : Fld := ⟨rMEAS_STAT, 4, 4⟩
def MEAS_STAT_CAL_BLOCKED : Fld := ⟨rMEAS_STAT, 3, 3⟩
def MEAS_STAT_CAL_OVERDUE : Fld := ⟨rMEAS_STAT, 2, 2⟩
def MEAS_STAT_POOL_SHORT : Fld := ⟨rMEAS_STAT, 1, 1⟩
def MEAS_STAT_CELL_RETIRED : Fld := ⟨rMEAS_STAT, 0, 0⟩
/-- Register MEAS_POOL (02_measurement_front_end R67). -/
def rMEAS_POOL : Nat := 0x060008
def MEAS_POOL_RETIRED : Fld := ⟨rMEAS_POOL, 29, 24⟩
def MEAS_POOL_CAL : Fld := ⟨rMEAS_POOL, 23, 18⟩
def MEAS_POOL_IDLE : Fld := ⟨rMEAS_POOL, 17, 12⟩
def MEAS_POOL_JOB : Fld := ⟨rMEAS_POOL, 11, 6⟩
def MEAS_POOL_LOOP : Fld := ⟨rMEAS_POOL, 5, 0⟩
/-- Register MEAS_POOL_CFG (02_measurement_front_end R48). -/
def rMEAS_POOL_CFG : Nat := 0x06000C
def MEAS_POOL_CFG_LOOP_RSV : Fld := ⟨rMEAS_POOL_CFG, 5, 0⟩
/-- Register MEAS_CAL_CFG (02_measurement_front_end R68). -/
def rMEAS_CAL_CFG : Nat := 0x060010
def MEAS_CAL_CFG_CAL_DEFER : Fld := ⟨rMEAS_CAL_CFG, 25, 16⟩
def MEAS_CAL_CFG_CAL_DT : Fld := ⟨rMEAS_CAL_CFG, 15, 8⟩
def MEAS_CAL_CFG_PILOT_TOL : Fld := ⟨rMEAS_CAL_CFG, 7, 0⟩
/-- Register MEAS_CAL_AGE (02_measurement_front_end R68). -/
def rMEAS_CAL_AGE : Nat := 0x060014
def MEAS_CAL_AGE_CAL_MAXAGE : Fld := ⟨rMEAS_CAL_AGE, 19, 0⟩
/-- Register MEAS_CAL_STAT (02_measurement_front_end R68). -/
def rMEAS_CAL_STAT : Nat := 0x060018
def MEAS_CAL_STAT_CAL_CELL : Fld := ⟨rMEAS_CAL_STAT, 25, 20⟩
def MEAS_CAL_STAT_PROGRESS : Fld := ⟨rMEAS_CAL_STAT, 19, 0⟩
/-- Register MEAS_CELL_CMD (02_measurement_front_end R69). -/
def rMEAS_CELL_CMD : Nat := 0x06001C
def MEAS_CELL_CMD_RETEST : Fld := ⟨rMEAS_CELL_CMD, 31, 31⟩
def MEAS_CELL_CMD_CELL : Fld := ⟨rMEAS_CELL_CMD, 5, 0⟩
/-- Register MEAS_ERR (02_measurement_front_end R69). -/
def rMEAS_ERR : Nat := 0x060020
def MEAS_ERR_SEQ : Fld := ⟨rMEAS_ERR, 31, 24⟩
def MEAS_ERR_CMD_IGNORED : Fld := ⟨rMEAS_ERR, 2, 2⟩
def MEAS_ERR_RANGE : Fld := ⟨rMEAS_ERR, 1, 1⟩
def MEAS_ERR_LOOP_OWNED : Fld := ⟨rMEAS_ERR, 0, 0⟩
/-- Register CELL_i_STAT (02_measurement_front_end R70). -/
def rCELL_STAT (i : Nat) : Nat := 0x060100 + 0x4 * i
def CELL_STAT_ROLE (i : Nat) : Fld := ⟨(rCELL_STAT i), 31, 29⟩
def CELL_STAT_STREAM_V (i : Nat) : Fld := ⟨(rCELL_STAT i), 28, 28⟩
def CELL_STAT_STREAM (i : Nat) : Fld := ⟨(rCELL_STAT i), 27, 22⟩
def CELL_STAT_DUE (i : Nat) : Fld := ⟨(rCELL_STAT i), 21, 21⟩
def CELL_STAT_OVERDUE (i : Nat) : Fld := ⟨(rCELL_STAT i), 20, 20⟩
def CELL_STAT_COARSE (i : Nat) : Fld := ⟨(rCELL_STAT i), 19, 19⟩
def CELL_STAT_FAULT (i : Nat) : Fld := ⟨(rCELL_STAT i), 18, 16⟩
def CELL_STAT_CAL_TEMP (i : Nat) : Fld := ⟨(rCELL_STAT i), 15, 8⟩
def CELL_STAT_CAL_AGE (i : Nat) : Fld := ⟨(rCELL_STAT i), 7, 0⟩
/-- Register MCH_i_CFG (02_measurement_front_end R71). -/
def rMCH_CFG (i : Nat) : Nat := 0x061000 + 0x20 * i
def MCH_CFG_CLAIMED (i : Nat) : Fld := ⟨(rMCH_CFG i), 31, 31⟩
def MCH_CFG_DUAL (i : Nat) : Fld := ⟨(rMCH_CFG i), 28, 28⟩
def MCH_CFG_EDGE (i : Nat) : Fld := ⟨(rMCH_CFG i), 27, 26⟩
def MCH_CFG_ENABLE (i : Nat) : Fld := ⟨(rMCH_CFG i), 25, 25⟩
/-- Register MCH_i_DEC (02_measurement_front_end R71). -/
def rMCH_DEC (i : Nat) : Nat := 0x061004 + 0x20 * i
def MCH_DEC_DEC (i : Nat) : Fld := ⟨(rMCH_DEC i), 31, 0⟩
/-- Register MCH_i_PATH (02_measurement_front_end R71). -/
def rMCH_PATH (i : Nat) : Nat := 0x061008 + 0x20 * i
def MCH_PATH_PATH_TC (i : Nat) : Fld := ⟨(rMCH_PATH i), 31, 20⟩
def MCH_PATH_PATH (i : Nat) : Fld := ⟨(rMCH_PATH i), 19, 0⟩
/-- Register MCH_i_TRIM (02_measurement_front_end R71). -/
def rMCH_TRIM (i : Nat) : Nat := 0x06100C + 0x20 * i
def MCH_TRIM_TRIM (i : Nat) : Fld := ⟨(rMCH_TRIM i), 31, 0⟩
/-- Register MCH_i_STAT (02_measurement_front_end R72). -/
def rMCH_STAT (i : Nat) : Nat := 0x061010 + 0x20 * i
def MCH_STAT_SEQ (i : Nat) : Fld := ⟨(rMCH_STAT i), 31, 24⟩
def MCH_STAT_HANDOVER (i : Nat) : Fld := ⟨(rMCH_STAT i), 4, 4⟩
def MCH_STAT_CHECK_FAIL (i : Nat) : Fld := ⟨(rMCH_STAT i), 3, 3⟩
def MCH_STAT_NO_CELL (i : Nat) : Fld := ⟨(rMCH_STAT i), 2, 2⟩
def MCH_STAT_DEAD_TIME (i : Nat) : Fld := ⟨(rMCH_STAT i), 1, 1⟩
def MCH_STAT_LOST (i : Nat) : Fld := ⟨(rMCH_STAT i), 0, 0⟩
/-- Register MCH_i_FWD (02_measurement_front_end R71). -/
def rMCH_FWD (i : Nat) : Nat := 0x061014 + 0x20 * i
def MCH_FWD_FWD (i : Nat) : Fld := ⟨(rMCH_FWD i), 31, 0⟩
/-- Register MCH_i_LOST (02_measurement_front_end R71). -/
def rMCH_LOST (i : Nat) : Nat := 0x061018 + 0x20 * i
def MCH_LOST_LOST (i : Nat) : Fld := ⟨(rMCH_LOST i), 31, 0⟩
/-- Register MEAS_REQ_W0 (03_jobs_and_tally R74). -/
def rMEAS_REQ_W0 : Nat := 0x062000
def MEAS_REQ_W0_KIND : Fld := ⟨rMEAS_REQ_W0, 31, 28⟩
def MEAS_REQ_W0_RING : Fld := ⟨rMEAS_REQ_W0, 27, 24⟩
def MEAS_REQ_W0_CH_A : Fld := ⟨rMEAS_REQ_W0, 23, 18⟩
def MEAS_REQ_W0_CH_B : Fld := ⟨rMEAS_REQ_W0, 17, 12⟩
def MEAS_REQ_W0_STAT : Fld := ⟨rMEAS_REQ_W0, 10, 10⟩
def MEAS_REQ_W0_RATIO : Fld := ⟨rMEAS_REQ_W0, 9, 9⟩
/-- Register MEAS_REQ_W1 (03_jobs_and_tally R74). -/
def rMEAS_REQ_W1 : Nat := 0x062004
def MEAS_REQ_W1_TAG : Fld := ⟨rMEAS_REQ_W1, 31, 0⟩
/-- Register MEAS_REQ_W2 (03_jobs_and_tally R74). -/
def rMEAS_REQ_W2 : Nat := 0x062008
def MEAS_REQ_W2_PARAM_A : Fld := ⟨rMEAS_REQ_W2, 31, 0⟩
/-- Register MEAS_REQ_W3 (03_jobs_and_tally R74). -/
def rMEAS_REQ_W3 : Nat := 0x06200C
def MEAS_REQ_W3_PARAM_A : Fld := ⟨rMEAS_REQ_W3, 31, 0⟩
/-- Register MEAS_REQ_W4 (03_jobs_and_tally R74). -/
def rMEAS_REQ_W4 : Nat := 0x062010
def MEAS_REQ_W4_PARAM_B : Fld := ⟨rMEAS_REQ_W4, 31, 0⟩
/-- Register MEAS_REQ_W5 (03_jobs_and_tally R74). -/
def rMEAS_REQ_W5 : Nat := 0x062014
def MEAS_REQ_W5_PARAM_B : Fld := ⟨rMEAS_REQ_W5, 31, 0⟩
/-- Register MEAS_REQ_PUSH (03_jobs_and_tally R73). -/
def rMEAS_REQ_PUSH : Nat := 0x062018
def MEAS_REQ_PUSH_GO : Fld := ⟨rMEAS_REQ_PUSH, 0, 0⟩
/-- Register MEAS_REQ_RESULT (03_jobs_and_tally R73). -/
def rMEAS_REQ_RESULT : Nat := 0x06201C
def MEAS_REQ_RESULT_DONE : Fld := ⟨rMEAS_REQ_RESULT, 31, 31⟩
def MEAS_REQ_RESULT_ACCEPT : Fld := ⟨rMEAS_REQ_RESULT, 30, 30⟩
def MEAS_REQ_RESULT_REASON : Fld := ⟨rMEAS_REQ_RESULT, 27, 24⟩
def MEAS_REQ_RESULT_SLOT : Fld := ⟨rMEAS_REQ_RESULT, 22, 16⟩
/-- Register MEAS_Q_STAT (03_jobs_and_tally R77). -/
def rMEAS_Q_STAT : Nat := 0x062020
def MEAS_Q_STAT_IN_FLIGHT : Fld := ⟨rMEAS_Q_STAT, 23, 16⟩
def MEAS_Q_STAT_HELD : Fld := ⟨rMEAS_Q_STAT, 15, 8⟩
def MEAS_Q_STAT_STREAMS : Fld := ⟨rMEAS_Q_STAT, 7, 0⟩
/-- Register MEAS_ABORT (03_jobs_and_tally R85). -/
def rMEAS_ABORT : Nat := 0x062030
def MEAS_ABORT_GO : Fld := ⟨rMEAS_ABORT, 31, 31⟩
def MEAS_ABORT_SCOPE : Fld := ⟨rMEAS_ABORT, 30, 29⟩
def MEAS_ABORT_RING : Fld := ⟨rMEAS_ABORT, 27, 24⟩
def MEAS_ABORT_SLOT : Fld := ⟨rMEAS_ABORT, 6, 0⟩
/-- Register MEAS_ABORT_RESULT (03_jobs_and_tally R85). -/
def rMEAS_ABORT_RESULT : Nat := 0x062034
def MEAS_ABORT_RESULT_DONE : Fld := ⟨rMEAS_ABORT_RESULT, 31, 31⟩
def MEAS_ABORT_RESULT_NONE : Fld := ⟨rMEAS_ABORT_RESULT, 30, 30⟩
def MEAS_ABORT_RESULT_ABORTED : Fld := ⟨rMEAS_ABORT_RESULT, 23, 16⟩
def MEAS_ABORT_RESULT_TOO_LATE : Fld := ⟨rMEAS_ABORT_RESULT, 15, 8⟩
/-- Register MEAS_ABORT_TAG (03_jobs_and_tally R85). -/
def rMEAS_ABORT_TAG : Nat := 0x062038
def MEAS_ABORT_TAG_TAG : Fld := ⟨rMEAS_ABORT_TAG, 31, 0⟩
/-- Register MEAS_Q_ERR (03_jobs_and_tally R81). -/
def rMEAS_Q_ERR : Nat := 0x062040
def MEAS_Q_ERR_SEQ : Fld := ⟨rMEAS_Q_ERR, 31, 24⟩
def MEAS_Q_ERR_ABORT_NONE : Fld := ⟨rMEAS_Q_ERR, 2, 2⟩
def MEAS_Q_ERR_REJECT : Fld := ⟨rMEAS_Q_ERR, 1, 1⟩
def MEAS_Q_ERR_QUEUE_ECC : Fld := ⟨rMEAS_Q_ERR, 0, 0⟩
/-- Register MEAS_ACCEPTED (03_jobs_and_tally R75). -/
def rMEAS_ACCEPTED : Nat := 0x062044
def MEAS_ACCEPTED_COUNT : Fld := ⟨rMEAS_ACCEPTED, 31, 0⟩
/-- Register MEAS_REJECTED (03_jobs_and_tally R75). -/
def rMEAS_REJECTED : Nat := 0x062048
def MEAS_REJECTED_COUNT : Fld := ⟨rMEAS_REJECTED, 31, 0⟩
/-- Register TQ_n_CFG (03_jobs_and_tally R91). -/
def rTQ_CFG (n : Nat) : Nat := 0x070000 + 0x40 * n
def TQ_CFG_ENABLE (n : Nat) : Fld := ⟨(rTQ_CFG n), 31, 31⟩
def TQ_CFG_MODE (n : Nat) : Fld := ⟨(rTQ_CFG n), 30, 30⟩
def TQ_CFG_EPOCH_EN (n : Nat) : Fld := ⟨(rTQ_CFG n), 29, 29⟩
def TQ_CFG_SIZE_CODE (n : Nat) : Fld := ⟨(rTQ_CFG n), 26, 24⟩
def TQ_CFG_BASE (n : Nat) : Fld := ⟨(rTQ_CFG n), 21, 16⟩
/-- Register TQ_n_HEAD (03_jobs_and_tally R92). -/
def rTQ_HEAD (n : Nat) : Nat := 0x070004 + 0x40 * n
def TQ_HEAD_HEAD (n : Nat) : Fld := ⟨(rTQ_HEAD n), 15, 0⟩
/-- Register TQ_n_TAIL (03_jobs_and_tally R93). -/
def rTQ_TAIL (n : Nat) : Nat := 0x070008 + 0x40 * n
def TQ_TAIL_TAIL (n : Nat) : Fld := ⟨(rTQ_TAIL n), 15, 0⟩
/-- Register TQ_n_WM (03_jobs_and_tally R92). -/
def rTQ_WM (n : Nat) : Nat := 0x07000C + 0x40 * n
def TQ_WM_WM (n : Nat) : Fld := ⟨(rTQ_WM n), 14, 0⟩
/-- Register TQ_n_STAT (03_jobs_and_tally R95). -/
def rTQ_STAT (n : Nat) : Nat := 0x070010 + 0x40 * n
def TQ_STAT_SEQ (n : Nat) : Fld := ⟨(rTQ_STAT n), 31, 24⟩
def TQ_STAT_DISABLING (n : Nat) : Fld := ⟨(rTQ_STAT n), 7, 7⟩
def TQ_STAT_FULL (n : Nat) : Fld := ⟨(rTQ_STAT n), 6, 6⟩
def TQ_STAT_REC_ECC (n : Nat) : Fld := ⟨(rTQ_STAT n), 5, 5⟩
def TQ_STAT_CFG_ERR (n : Nat) : Fld := ⟨(rTQ_STAT n), 4, 4⟩
def TQ_STAT_TAIL_ERR (n : Nat) : Fld := ⟨(rTQ_STAT n), 3, 3⟩
def TQ_STAT_DROP (n : Nat) : Fld := ⟨(rTQ_STAT n), 2, 2⟩
def TQ_STAT_EPOCH_PEND (n : Nat) : Fld := ⟨(rTQ_STAT n), 1, 1⟩
def TQ_STAT_WM (n : Nat) : Fld := ⟨(rTQ_STAT n), 0, 0⟩
/-- Register TQ_n_DROP (03_jobs_and_tally R95). -/
def rTQ_DROP (n : Nat) : Nat := 0x070014 + 0x40 * n
def TQ_DROP_DROP (n : Nat) : Fld := ⟨(rTQ_DROP n), 31, 0⟩
/-- Register TQ_n_CMD (03_jobs_and_tally R89). -/
def rTQ_CMD (n : Nat) : Nat := 0x070018 + 0x40 * n
def TQ_CMD_EPOCH (n : Nat) : Fld := ⟨(rTQ_CMD n), 0, 0⟩
/-- Register TQ_n_PEND (03_jobs_and_tally R95). -/
def rTQ_PEND (n : Nat) : Nat := 0x07001C + 0x40 * n
def TQ_PEND_PEND (n : Nat) : Fld := ⟨(rTQ_PEND n), 7, 0⟩
/-- Register TP_CTL (03_jobs_and_tally R98). -/
def rTP_CTL : Nat := 0x071000
def TP_CTL_ENABLE : Fld := ⟨rTP_CTL, 31, 31⟩
def TP_CTL_RATE : Fld := ⟨rTP_CTL, 17, 16⟩
def TP_CTL_LANES : Fld := ⟨rTP_CTL, 1, 0⟩
/-- Register TP_TIMER (03_jobs_and_tally R99). -/
def rTP_TIMER : Nat := 0x071004
def TP_TIMER_REPLAY_TMO : Fld := ⟨rTP_TIMER, 31, 16⟩
def TP_TIMER_FRAME_TMO : Fld := ⟨rTP_TIMER, 15, 0⟩
/-- Register TP_STAT (03_jobs_and_tally R103). -/
def rTP_STAT : Nat := 0x071008
def TP_STAT_RX_UP : Fld := ⟨rTP_STAT, 2, 2⟩
def TP_STAT_TX1_UP : Fld := ⟨rTP_STAT, 1, 1⟩
def TP_STAT_TX0_UP : Fld := ⟨rTP_STAT, 0, 0⟩
/-- Register TP_EVT (03_jobs_and_tally R100). -/
def rTP_EVT : Nat := 0x07100C
def TP_EVT_SEQ : Fld := ⟨rTP_EVT, 31, 24⟩
def TP_EVT_ACK_ERR : Fld := ⟨rTP_EVT, 4, 4⟩
def TP_EVT_REPLAY : Fld := ⟨rTP_EVT, 3, 3⟩
def TP_EVT_NAK_RX : Fld := ⟨rTP_EVT, 2, 2⟩
def TP_EVT_RX_DOWN : Fld := ⟨rTP_EVT, 1, 1⟩
def TP_EVT_LANE_DOWN : Fld := ⟨rTP_EVT, 0, 0⟩
/-- Register TP_FRAMES (03_jobs_and_tally R99). -/
def rTP_FRAMES : Nat := 0x071010
def TP_FRAMES_COUNT : Fld := ⟨rTP_FRAMES, 31, 0⟩
/-- Register TP_REPLAYS (03_jobs_and_tally R101). -/
def rTP_REPLAYS : Nat := 0x071014
def TP_REPLAYS_COUNT : Fld := ⟨rTP_REPLAYS, 31, 0⟩
/-- Register TP_ACK_ERR (03_jobs_and_tally R100). -/
def rTP_ACK_ERR : Nat := 0x071018
def TP_ACK_ERR_COUNT : Fld := ⟨rTP_ACK_ERR, 31, 0⟩
/-- Register CHK_n_CFG (12_nvm_and_check R333). -/
def rCHK_CFG (n : Nat) : Nat := 0x080000 + 0x40 * n
def CHK_CFG_PRIO (n : Nat) : Fld := ⟨(rCHK_CFG n), 4, 4⟩
def CHK_CFG_CMP_EN (n : Nat) : Fld := ⟨(rCHK_CFG n), 3, 3⟩
def CHK_CFG_FOLD_EN (n : Nat) : Fld := ⟨(rCHK_CFG n), 2, 2⟩
def CHK_CFG_POLY (n : Nat) : Fld := ⟨(rCHK_CFG n), 1, 0⟩
/-- Register CHK_n_START (12_nvm_and_check R336). -/
def rCHK_START (n : Nat) : Nat := 0x080004 + 0x40 * n
def CHK_START_START (n : Nat) : Fld := ⟨(rCHK_START n), 23, 0⟩
/-- Register CHK_n_LEN (12_nvm_and_check R336). -/
def rCHK_LEN (n : Nat) : Nat := 0x080008 + 0x40 * n
def CHK_LEN_LEN (n : Nat) : Fld := ⟨(rCHK_LEN n), 23, 0⟩
/-- Register CHK_n_TAG (12_nvm_and_check R334). -/
def rCHK_TAG (n : Nat) : Nat := 0x08000C + 0x40 * n
def CHK_TAG_TAG (n : Nat) : Fld := ⟨(rCHK_TAG n), 31, 0⟩
/-- Register CHK_n_FOLD (12_nvm_and_check R334). -/
def rCHK_FOLD (n : Nat) : Nat := 0x080010 + 0x40 * n
def CHK_FOLD_FOLD_BASE (n : Nat) : Fld := ⟨(rCHK_FOLD n), 31, 0⟩
/-- Register CHK_n_EXP_LO (12_nvm_and_check R335). -/
def rCHK_EXP_LO (n : Nat) : Nat := 0x080014 + 0x40 * n
def CHK_EXP_LO_VALUE (n : Nat) : Fld := ⟨(rCHK_EXP_LO n), 31, 0⟩
/-- Register CHK_n_EXP_HI (12_nvm_and_check R335). -/
def rCHK_EXP_HI (n : Nat) : Nat := 0x080018 + 0x40 * n
def CHK_EXP_HI_VALUE (n : Nat) : Fld := ⟨(rCHK_EXP_HI n), 31, 0⟩
/-- Register CHK_n_EXPC_LO (12_nvm_and_check R335). -/
def rCHK_EXPC_LO (n : Nat) : Nat := 0x08001C + 0x40 * n
def CHK_EXPC_LO_VALUE (n : Nat) : Fld := ⟨(rCHK_EXPC_LO n), 31, 0⟩
/-- Register CHK_n_EXPC_HI (12_nvm_and_check R335). -/
def rCHK_EXPC_HI (n : Nat) : Nat := 0x080020 + 0x40 * n
def CHK_EXPC_HI_VALUE (n : Nat) : Fld := ⟨(rCHK_EXPC_HI n), 31, 0⟩
/-- Register CHK_n_RES_LO (12_nvm_and_check R335). -/
def rCHK_RES_LO (n : Nat) : Nat := 0x080024 + 0x40 * n
def CHK_RES_LO_VALUE (n : Nat) : Fld := ⟨(rCHK_RES_LO n), 31, 0⟩
/-- Register CHK_n_RES_HI (12_nvm_and_check R335). -/
def rCHK_RES_HI (n : Nat) : Nat := 0x080028 + 0x40 * n
def CHK_RES_HI_VALUE (n : Nat) : Fld := ⟨(rCHK_RES_HI n), 31, 0⟩
/-- Register CHK_n_STAT (12_nvm_and_check R338). -/
def rCHK_STAT (n : Nat) : Nat := 0x08002C + 0x40 * n
def CHK_STAT_BUSY (n : Nat) : Fld := ⟨(rCHK_STAT n), 31, 31⟩
def CHK_STAT_END (n : Nat) : Fld := ⟨(rCHK_STAT n), 30, 29⟩
def CHK_STAT_VERDICT (n : Nat) : Fld := ⟨(rCHK_STAT n), 28, 27⟩
def CHK_STAT_ABORT_RES (n : Nat) : Fld := ⟨(rCHK_STAT n), 26, 25⟩
def CHK_STAT_ECC (n : Nat) : Fld := ⟨(rCHK_STAT n), 24, 24⟩
def CHK_STAT_RST (n : Nat) : Fld := ⟨(rCHK_STAT n), 23, 23⟩
def CHK_STAT_MASTER (n : Nat) : Fld := ⟨(rCHK_STAT n), 22, 20⟩
/-- Register CHK_n_CMD (12_nvm_and_check R336). -/
def rCHK_CMD (n : Nat) : Nat := 0x080030 + 0x40 * n
def CHK_CMD_GO (n : Nat) : Fld := ⟨(rCHK_CMD n), 31, 31⟩
def CHK_CMD_ABORT (n : Nat) : Fld := ⟨(rCHK_CMD n), 30, 30⟩
/-- Register CHK_n_EVT (12_nvm_and_check R338). -/
def rCHK_EVT (n : Nat) : Nat := 0x080034 + 0x40 * n
def CHK_EVT_SEQ (n : Nat) : Fld := ⟨(rCHK_EVT n), 31, 24⟩
def CHK_EVT_REJECT (n : Nat) : Fld := ⟨(rCHK_EVT n), 4, 4⟩
def CHK_EVT_ABORTED (n : Nat) : Fld := ⟨(rCHK_EVT n), 3, 3⟩
def CHK_EVT_CHECK_CORRUPT (n : Nat) : Fld := ⟨(rCHK_EVT n), 2, 2⟩
def CHK_EVT_DATA_BAD (n : Nat) : Fld := ⟨(rCHK_EVT n), 1, 1⟩
def CHK_EVT_DONE (n : Nat) : Fld := ⟨(rCHK_EVT n), 0, 0⟩
/-- Register CHK_n_IEN (12_nvm_and_check R340). -/
def rCHK_IEN (n : Nat) : Nat := 0x080038 + 0x40 * n
def CHK_IEN_IEN (n : Nat) : Fld := ⟨(rCHK_IEN n), 4, 0⟩
/-- Register CHK_n_JOBS (12_nvm_and_check R338). -/
def rCHK_JOBS (n : Nat) : Nat := 0x08003C + 0x40 * n
def CHK_JOBS_COUNT (n : Nat) : Fld := ⟨(rCHK_JOBS n), 31, 0⟩
/-- Register DRV_STAT (12_nvm_and_check R337). -/
def rDRV_STAT : Nat := 0x080100
def DRV_STAT_RUN : Fld := ⟨rDRV_STAT, 3, 0⟩
/-- Register NVM_CTL (12_nvm_and_check R316). -/
def rNVM_CTL : Nat := 0x090000
def NVM_CTL_PATROL_EN : Fld := ⟨rNVM_CTL, 0, 0⟩
/-- Register NVM_STAT (12_nvm_and_check R311). -/
def rNVM_STAT : Nat := 0x090004
def NVM_STAT_BUSY : Fld := ⟨rNVM_STAT, 31, 31⟩
def NVM_STAT_OP : Fld := ⟨rNVM_STAT, 30, 29⟩
def NVM_STAT_WAIT_POWER : Fld := ⟨rNVM_STAT, 28, 28⟩
def NVM_STAT_LOCKOUT : Fld := ⟨rNVM_STAT, 27, 27⟩
def NVM_STAT_FAILS : Fld := ⟨rNVM_STAT, 26, 23⟩
def NVM_STAT_VHOLD_OK : Fld := ⟨rNVM_STAT, 22, 22⟩
def NVM_STAT_VDD_NVM_OK : Fld := ⟨rNVM_STAT, 21, 21⟩
def NVM_STAT_PAGE : Fld := ⟨rNVM_STAT, 8, 0⟩
/-- Register NVM_EVT (12_nvm_and_check R340). -/
def rNVM_EVT : Nat := 0x090008
def NVM_EVT_SEQ : Fld := ⟨rNVM_EVT, 31, 24⟩
def NVM_EVT_EVENTS : Fld := ⟨rNVM_EVT, 12, 0⟩
/-- Register NVM_IEN (12_nvm_and_check R340). -/
def rNVM_IEN : Nat := 0x09000C
def NVM_IEN_IEN : Fld := ⟨rNVM_IEN, 12, 0⟩
/-- Register NVM_CMD (12_nvm_and_check R310). -/
def rNVM_CMD : Nat := 0x090010
def NVM_CMD_GO : Fld := ⟨rNVM_CMD, 31, 31⟩
def NVM_CMD_OP : Fld := ⟨rNVM_CMD, 30, 28⟩
def NVM_CMD_REGION : Fld := ⟨rNVM_CMD, 19, 16⟩
def NVM_CMD_PAGE : Fld := ⟨rNVM_CMD, 8, 0⟩
/-- Register NVM_RESULT (12_nvm_and_check R310). -/
def rNVM_RESULT : Nat := 0x090014
def NVM_RESULT_DONE : Fld := ⟨rNVM_RESULT, 31, 31⟩
def NVM_RESULT_CODE : Fld := ⟨rNVM_RESULT, 23, 16⟩
def NVM_RESULT_PAGE : Fld := ⟨rNVM_RESULT, 8, 0⟩
/-- Register NVM_UNLOCK_LO (12_nvm_and_check R330). -/
def rNVM_UNLOCK_LO : Nat := 0x090018
def NVM_UNLOCK_LO_KEY : Fld := ⟨rNVM_UNLOCK_LO, 31, 0⟩
/-- Register NVM_UNLOCK_HI (12_nvm_and_check R330). -/
def rNVM_UNLOCK_HI : Nat := 0x09001C
def NVM_UNLOCK_HI_KEY : Fld := ⟨rNVM_UNLOCK_HI, 31, 0⟩
/-- Register NVM_UNLOCK_CMD (12_nvm_and_check R330). -/
def rNVM_UNLOCK_CMD : Nat := 0x090020
def NVM_UNLOCK_CMD_GO : Fld := ⟨rNVM_UNLOCK_CMD, 31, 31⟩
def NVM_UNLOCK_CMD_LOCK : Fld := ⟨rNVM_UNLOCK_CMD, 30, 30⟩
def NVM_UNLOCK_CMD_KIND : Fld := ⟨rNVM_UNLOCK_CMD, 8, 8⟩
def NVM_UNLOCK_CMD_REGION : Fld := ⟨rNVM_UNLOCK_CMD, 7, 0⟩
/-- Register NVM_KEY_STAT (12_nvm_and_check R329). -/
def rNVM_KEY_STAT : Nat := 0x090024
def NVM_KEY_STAT_WRITE_OPEN : Fld := ⟨rNVM_KEY_STAT, 29, 24⟩
def NVM_KEY_STAT_READ_OPEN : Fld := ⟨rNVM_KEY_STAT, 21, 16⟩
def NVM_KEY_STAT_WRITE_SET : Fld := ⟨rNVM_KEY_STAT, 13, 8⟩
def NVM_KEY_STAT_READ_SET : Fld := ⟨rNVM_KEY_STAT, 5, 0⟩
/-- Register NVM_PATROL_CFG (12_nvm_and_check R316). -/
def rNVM_PATROL_CFG : Nat := 0x090028
def NVM_PATROL_CFG_PATROL_DEFER : Fld := ⟨rNVM_PATROL_CFG, 31, 16⟩
def NVM_PATROL_CFG_PATROL_AGE : Fld := ⟨rNVM_PATROL_CFG, 15, 0⟩
/-- Register NVM_PATROL_STAT (12_nvm_and_check R318). -/
def rNVM_PATROL_STAT : Nat := 0x09002C
def NVM_PATROL_STAT_OVERDUE : Fld := ⟨rNVM_PATROL_STAT, 31, 31⟩
def NVM_PATROL_STAT_DUE : Fld := ⟨rNVM_PATROL_STAT, 30, 30⟩
def NVM_PATROL_STAT_NEXT : Fld := ⟨rNVM_PATROL_STAT, 8, 0⟩
/-- Register NVM_VHOLD (12_nvm_and_check R313). -/
def rNVM_VHOLD : Nat := 0x090030
def NVM_VHOLD_PUMP_ON : Fld := ⟨rNVM_VHOLD, 31, 31⟩
def NVM_VHOLD_LEVEL : Fld := ⟨rNVM_VHOLD, 8, 0⟩
/-- Register NVM_SEC_CNT (12_nvm_and_check R309). -/
def rNVM_SEC_CNT : Nat := 0x090034
def NVM_SEC_CNT_COUNT : Fld := ⟨rNVM_SEC_CNT, 31, 0⟩
/-- Register NVM_DED_CNT (12_nvm_and_check R309). -/
def rNVM_DED_CNT : Nat := 0x090038
def NVM_DED_CNT_COUNT : Fld := ⟨rNVM_DED_CNT, 31, 0⟩
/-- Register NVM_REFRESH_CNT (12_nvm_and_check R317). -/
def rNVM_REFRESH_CNT : Nat := 0x09003C
def NVM_REFRESH_CNT_COUNT : Fld := ⟨rNVM_REFRESH_CNT, 31, 0⟩
/-- Register NVM_OPS_CNT (12_nvm_and_check R311). -/
def rNVM_OPS_CNT : Nat := 0x090040
def NVM_OPS_CNT_COUNT : Fld := ⟨rNVM_OPS_CNT, 31, 0⟩
/-- Register NVM_CNT_CMD (12_nvm_and_check R326). -/
def rNVM_CNT_CMD : Nat := 0x090080
def NVM_CNT_CMD_GO : Fld := ⟨rNVM_CNT_CMD, 31, 31⟩
def NVM_CNT_CMD_OP : Fld := ⟨rNVM_CNT_CMD, 30, 29⟩
def NVM_CNT_CMD_ID : Fld := ⟨rNVM_CNT_CMD, 4, 0⟩
/-- Register NVM_CNT_ARG_LO (12_nvm_and_check R326). -/
def rNVM_CNT_ARG_LO : Nat := 0x090084
def NVM_CNT_ARG_LO_ARG : Fld := ⟨rNVM_CNT_ARG_LO, 31, 0⟩
/-- Register NVM_CNT_ARG_HI (12_nvm_and_check R326). -/
def rNVM_CNT_ARG_HI : Nat := 0x090088
def NVM_CNT_ARG_HI_ARG : Fld := ⟨rNVM_CNT_ARG_HI, 31, 0⟩
/-- Register NVM_CNT_STAT (12_nvm_and_check R326). -/
def rNVM_CNT_STAT : Nat := 0x09008C
def NVM_CNT_STAT_BUSY : Fld := ⟨rNVM_CNT_STAT, 31, 31⟩
def NVM_CNT_STAT_DONE : Fld := ⟨rNVM_CNT_STAT, 30, 30⟩
def NVM_CNT_STAT_READY : Fld := ⟨rNVM_CNT_STAT, 29, 29⟩
def NVM_CNT_STAT_CODE : Fld := ⟨rNVM_CNT_STAT, 7, 0⟩
/-- Register NVM_CNT_i_LO (12_nvm_and_check R320). -/
def rNVM_CNT_LO (i : Nat) : Nat := 0x090100 + 0x8 * i
def NVM_CNT_LO_VALUE (i : Nat) : Fld := ⟨(rNVM_CNT_LO i), 31, 0⟩
/-- Register NVM_CNT_i_HI (12_nvm_and_check R320). -/
def rNVM_CNT_HI (i : Nat) : Nat := 0x090104 + 0x8 * i
def NVM_CNT_HI_VALUE (i : Nat) : Fld := ⟨(rNVM_CNT_HI i), 31, 0⟩
/-- Register NVM_BUF_i (12_nvm_and_check R310). -/
def rNVM_BUF (i : Nat) : Nat := 0x091000 + 0x4 * i
def NVM_BUF_DATA (i : Nat) : Fld := ⟨(rNVM_BUF i), 31, 0⟩
/-- Register PAST_CFG (08_pasture R215). -/
def rPAST_CFG : Nat := 0x0A0000
def PAST_CFG_USED : Fld := ⟨rPAST_CFG, 31, 31⟩
def PAST_CFG_INDEX : Fld := ⟨rPAST_CFG, 30, 28⟩
def PAST_CFG_MK_PER : Fld := ⟨rPAST_CFG, 27, 23⟩
def PAST_CFG_PRIO : Fld := ⟨rPAST_CFG, 11, 8⟩
def PAST_CFG_PREEMPT : Fld := ⟨rPAST_CFG, 2, 2⟩
def PAST_CFG_RACC_EN : Fld := ⟨rPAST_CFG, 1, 1⟩
/-- Register PAST_TIMER (08_pasture R214). -/
def rPAST_TIMER : Nat := 0x0A0004
def PAST_TIMER_HELLO_TMO : Fld := ⟨rPAST_TIMER, 31, 24⟩
def PAST_TIMER_HELLO_PER : Fld := ⟨rPAST_TIMER, 15, 0⟩
/-- Register PAST_LEAD (08_pasture R223). -/
def rPAST_LEAD : Nat := 0x0A0008
def PAST_LEAD_LEAD : Fld := ⟨rPAST_LEAD, 15, 0⟩
/-- Register PAST_STAT (08_pasture R220). -/
def rPAST_STAT : Nat := 0x0A000C
def PAST_STAT_ROLE : Fld := ⟨rPAST_STAT, 31, 30⟩
def PAST_STAT_ELIG : Fld := ⟨rPAST_STAT, 29, 29⟩
def PAST_STAT_BW_V : Fld := ⟨rPAST_STAT, 28, 28⟩
def PAST_STAT_BW_IDX : Fld := ⟨rPAST_STAT, 27, 25⟩
def PAST_STAT_HOPS : Fld := ⟨rPAST_STAT, 24, 22⟩
def PAST_STAT_FL_V : Fld := ⟨rPAST_STAT, 21, 21⟩
def PAST_STAT_FL : Fld := ⟨rPAST_STAT, 20, 20⟩
def PAST_STAT_BEACON : Fld := ⟨rPAST_STAT, 15, 0⟩
/-- Register PAST_EVT (08_pasture R222). -/
def rPAST_EVT : Nat := 0x0A0010
def PAST_EVT_SEQ : Fld := ⟨rPAST_EVT, 31, 24⟩
def PAST_EVT_RANGE : Fld := ⟨rPAST_EVT, 6, 6⟩
def PAST_EVT_NOTICE : Fld := ⟨rPAST_EVT, 5, 5⟩
def PAST_EVT_LATE : Fld := ⟨rPAST_EVT, 4, 4⟩
def PAST_EVT_DUP_INDEX : Fld := ⟨rPAST_EVT, 3, 3⟩
def PAST_EVT_YIELD : Fld := ⟨rPAST_EVT, 2, 2⟩
def PAST_EVT_BW_LOST : Fld := ⟨rPAST_EVT, 1, 1⟩
def PAST_EVT_TAKEOVER : Fld := ⟨rPAST_EVT, 0, 0⟩
/-- Register PAST_IEN (08_pasture R222). -/
def rPAST_IEN : Nat := 0x0A0014
def PAST_IEN_IEN : Fld := ⟨rPAST_IEN, 6, 0⟩
/-- Register PAST_TAKEOVERS (08_pasture R222). -/
def rPAST_TAKEOVERS : Nat := 0x0A0018
def PAST_TAKEOVERS_COUNT : Fld := ⟨rPAST_TAKEOVERS, 31, 0⟩
/-- Register PAST_RACC_CTL (08_pasture R226). -/
def rPAST_RACC_CTL : Nat := 0x0A0030
def PAST_RACC_CTL_GO : Fld := ⟨rPAST_RACC_CTL, 31, 31⟩
def PAST_RACC_CTL_WR : Fld := ⟨rPAST_RACC_CTL, 30, 30⟩
def PAST_RACC_CTL_DST : Fld := ⟨rPAST_RACC_CTL, 18, 16⟩
/-- Register PAST_RACC_ADDR (08_pasture R226). -/
def rPAST_RACC_ADDR : Nat := 0x0A0034
def PAST_RACC_ADDR_ADDR : Fld := ⟨rPAST_RACC_ADDR, 23, 0⟩
/-- Register PAST_RACC_WDATA (08_pasture R226). -/
def rPAST_RACC_WDATA : Nat := 0x0A0038
def PAST_RACC_WDATA_WDATA : Fld := ⟨rPAST_RACC_WDATA, 31, 0⟩
/-- Register PAST_RACC_STAT (08_pasture R226). -/
def rPAST_RACC_STAT : Nat := 0x0A003C
def PAST_RACC_STAT_DONE : Fld := ⟨rPAST_RACC_STAT, 31, 31⟩
def PAST_RACC_STAT_BUSY : Fld := ⟨rPAST_RACC_STAT, 30, 30⟩
def PAST_RACC_STAT_STATUS : Fld := ⟨rPAST_RACC_STAT, 26, 24⟩
def PAST_RACC_STAT_TAG : Fld := ⟨rPAST_RACC_STAT, 15, 8⟩
/-- Register PAST_RACC_RDATA (08_pasture R226). -/
def rPAST_RACC_RDATA : Nat := 0x0A0040
def PAST_RACC_RDATA_RDATA : Fld := ⟨rPAST_RACC_RDATA, 31, 0⟩
/-- Register PAST_RACC_TMO (08_pasture R226). -/
def rPAST_RACC_TMO : Nat := 0x0A0044
def PAST_RACC_TMO_RACC_TMO : Fld := ⟨rPAST_RACC_TMO, 15, 0⟩
/-- Register PAST_NOTICE_MASK_LO (08_pasture R225). -/
def rPAST_NOTICE_MASK_LO : Nat := 0x0A0048
def PAST_NOTICE_MASK_LO_MASK : Fld := ⟨rPAST_NOTICE_MASK_LO, 31, 0⟩
/-- Register PAST_NOTICE_MASK_HI (08_pasture R225). -/
def rPAST_NOTICE_MASK_HI : Nat := 0x0A004C
def PAST_NOTICE_MASK_HI_MASK : Fld := ⟨rPAST_NOTICE_MASK_HI, 31, 0⟩
/-- Register PAST_NOTICE_LAST (08_pasture R225). -/
def rPAST_NOTICE_LAST : Nat := 0x0A0050
def PAST_NOTICE_LAST_ORIGIN : Fld := ⟨rPAST_NOTICE_LAST, 31, 29⟩
def PAST_NOTICE_LAST_FOLD : Fld := ⟨rPAST_NOTICE_LAST, 28, 28⟩
def PAST_NOTICE_LAST_SEV : Fld := ⟨rPAST_NOTICE_LAST, 27, 26⟩
def PAST_NOTICE_LAST_FSRC : Fld := ⟨rPAST_NOTICE_LAST, 21, 16⟩
/-- Register PLINK_n_CTL (08_pasture R214). -/
def rPLINK_CTL (n : Nat) : Nat := 0x0A0100 + 0x80 * n
def PLINK_CTL_ENABLE (n : Nat) : Fld := ⟨(rPLINK_CTL n), 31, 31⟩
/-- Register PLINK_n_ASYM (08_pasture R217). -/
def rPLINK_ASYM (n : Nat) : Nat := 0x0A0104 + 0x80 * n
def PLINK_ASYM_ASYM (n : Nat) : Fld := ⟨(rPLINK_ASYM n), 31, 0⟩
/-- Register PLINK_n_STAT (08_pasture R214). -/
def rPLINK_STAT (n : Nat) : Nat := 0x0A0108 + 0x80 * n
def PLINK_STAT_UP (n : Nat) : Fld := ⟨(rPLINK_STAT n), 31, 31⟩
def PLINK_STAT_SYNC (n : Nat) : Fld := ⟨(rPLINK_STAT n), 30, 30⟩
def PLINK_STAT_ASYM_MM (n : Nat) : Fld := ⟨(rPLINK_STAT n), 29, 29⟩
def PLINK_STAT_NB_V (n : Nat) : Fld := ⟨(rPLINK_STAT n), 28, 28⟩
def PLINK_STAT_NB_IDX (n : Nat) : Fld := ⟨(rPLINK_STAT n), 27, 25⟩
def PLINK_STAT_NB_ROLE (n : Nat) : Fld := ⟨(rPLINK_STAT n), 24, 23⟩
def PLINK_STAT_NB_HOPS (n : Nat) : Fld := ⟨(rPLINK_STAT n), 22, 20⟩
/-- Register PLINK_n_EVT (08_pasture R214). -/
def rPLINK_EVT (n : Nat) : Nat := 0x0A010C + 0x80 * n
def PLINK_EVT_SEQ (n : Nat) : Fld := ⟨(rPLINK_EVT n), 31, 24⟩
def PLINK_EVT_MLOST (n : Nat) : Fld := ⟨(rPLINK_EVT n), 4, 4⟩
def PLINK_EVT_ASYM_MM (n : Nat) : Fld := ⟨(rPLINK_EVT n), 3, 3⟩
def PLINK_EVT_CRC (n : Nat) : Fld := ⟨(rPLINK_EVT n), 2, 2⟩
def PLINK_EVT_UP (n : Nat) : Fld := ⟨(rPLINK_EVT n), 1, 1⟩
def PLINK_EVT_DOWN (n : Nat) : Fld := ⟨(rPLINK_EVT n), 0, 0⟩
/-- Register PLINK_n_IEN (08_pasture R214). -/
def rPLINK_IEN (n : Nat) : Nat := 0x0A0110 + 0x80 * n
def PLINK_IEN_IEN (n : Nat) : Fld := ⟨(rPLINK_IEN n), 4, 0⟩
/-- Register PLINK_n_OFF_LO (08_pasture R216). -/
def rPLINK_OFF_LO (n : Nat) : Nat := 0x0A0114 + 0x80 * n
def PLINK_OFF_LO_OFF (n : Nat) : Fld := ⟨(rPLINK_OFF_LO n), 31, 0⟩
/-- Register PLINK_n_OFF_HI (08_pasture R216). -/
def rPLINK_OFF_HI (n : Nat) : Nat := 0x0A0118 + 0x80 * n
def PLINK_OFF_HI_OFF (n : Nat) : Fld := ⟨(rPLINK_OFF_HI n), 15, 0⟩
/-- Register PLINK_n_RTT_LO (08_pasture R216). -/
def rPLINK_RTT_LO (n : Nat) : Nat := 0x0A011C + 0x80 * n
def PLINK_RTT_LO_RTT (n : Nat) : Fld := ⟨(rPLINK_RTT_LO n), 31, 0⟩
/-- Register PLINK_n_RTT_HI (08_pasture R216). -/
def rPLINK_RTT_HI (n : Nat) : Nat := 0x0A0120 + 0x80 * n
def PLINK_RTT_HI_RTT (n : Nat) : Fld := ⟨(rPLINK_RTT_HI n), 15, 0⟩
/-- Register PLINK_n_CRC_CNT (08_pasture R212). -/
def rPLINK_CRC_CNT (n : Nat) : Nat := 0x0A0124 + 0x80 * n
def PLINK_CRC_CNT_COUNT (n : Nat) : Fld := ⟨(rPLINK_CRC_CNT n), 31, 0⟩
/-- Register PLINK_n_MLOST (08_pasture R216). -/
def rPLINK_MLOST (n : Nat) : Nat := 0x0A0128 + 0x80 * n
def PLINK_MLOST_COUNT (n : Nat) : Fld := ⟨(rPLINK_MLOST n), 31, 0⟩
/-- Register PLINK_n_FRAMES (08_pasture R213). -/
def rPLINK_FRAMES (n : Nat) : Nat := 0x0A012C + 0x80 * n
def PLINK_FRAMES_COUNT (n : Nat) : Fld := ⟨(rPLINK_FRAMES n), 31, 0⟩
/-- Register STEER_n_CFG (07_carrier_grid_lock R204). -/
def rSTEER_CFG (n : Nat) : Nat := 0x0B0000 + 0x40 * n
def STEER_CFG_USED (n : Nat) : Fld := ⟨(rSTEER_CFG n), 31, 31⟩
def STEER_CFG_PAD (n : Nat) : Fld := ⟨(rSTEER_CFG n), 29, 26⟩
def STEER_CFG_WLEN (n : Nat) : Fld := ⟨(rSTEER_CFG n), 25, 24⟩
def STEER_CFG_CODE (n : Nat) : Fld := ⟨(rSTEER_CFG n), 23, 23⟩
def STEER_CFG_SPIMODE (n : Nat) : Fld := ⟨(rSTEER_CFG n), 22, 22⟩
def STEER_CFG_PRE_LEN (n : Nat) : Fld := ⟨(rSTEER_CFG n), 21, 18⟩
def STEER_CFG_POST_LEN (n : Nat) : Fld := ⟨(rSTEER_CFG n), 17, 14⟩
def STEER_CFG_PREFIX (n : Nat) : Fld := ⟨(rSTEER_CFG n), 7, 0⟩
/-- Register STEER_n_CTL (07_carrier_grid_lock R206). -/
def rSTEER_CTL (n : Nat) : Nat := 0x0B0004 + 0x40 * n
def STEER_CTL_ENABLE (n : Nat) : Fld := ⟨(rSTEER_CTL n), 31, 31⟩
def STEER_CTL_ACT (n : Nat) : Fld := ⟨(rSTEER_CTL n), 30, 30⟩
def STEER_CTL_PARK_SLEW (n : Nat) : Fld := ⟨(rSTEER_CTL n), 29, 29⟩
def STEER_CTL_FT_FOLD (n : Nat) : Fld := ⟨(rSTEER_CTL n), 28, 28⟩
def STEER_CTL_FT_FREERUN (n : Nat) : Fld := ⟨(rSTEER_CTL n), 27, 27⟩
def STEER_CTL_FT_HOLDTMO (n : Nat) : Fld := ⟨(rSTEER_CTL n), 26, 26⟩
def STEER_CTL_FT_CLAMP (n : Nat) : Fld := ⟨(rSTEER_CTL n), 25, 25⟩
def STEER_CTL_SCK_DIV (n : Nat) : Fld := ⟨(rSTEER_CTL n), 7, 0⟩
/-- Register STEER_n_TIMING (07_carrier_grid_lock R205). -/
def rSTEER_TIMING (n : Nat) : Nat := 0x0B0008 + 0x40 * n
def STEER_TIMING_UPD_PER (n : Nat) : Fld := ⟨(rSTEER_TIMING n), 31, 16⟩
def STEER_TIMING_REFRESH (n : Nat) : Fld := ⟨(rSTEER_TIMING n), 15, 0⟩
/-- Register STEER_n_CENTER (07_carrier_grid_lock R202). -/
def rSTEER_CENTER (n : Nat) : Nat := 0x0B000C + 0x40 * n
def STEER_CENTER_VALUE (n : Nat) : Fld := ⟨(rSTEER_CENTER n), 23, 0⟩
/-- Register STEER_n_CLAMP_LO (07_carrier_grid_lock R202). -/
def rSTEER_CLAMP_LO (n : Nat) : Nat := 0x0B0010 + 0x40 * n
def STEER_CLAMP_LO_VALUE (n : Nat) : Fld := ⟨(rSTEER_CLAMP_LO n), 23, 0⟩
/-- Register STEER_n_CLAMP_HI (07_carrier_grid_lock R202). -/
def rSTEER_CLAMP_HI (n : Nat) : Nat := 0x0B0014 + 0x40 * n
def STEER_CLAMP_HI_VALUE (n : Nat) : Fld := ⟨(rSTEER_CLAMP_HI n), 23, 0⟩
/-- Register STEER_n_PARK (07_carrier_grid_lock R202). -/
def rSTEER_PARK (n : Nat) : Nat := 0x0B0018 + 0x40 * n
def STEER_PARK_VALUE (n : Nat) : Fld := ⟨(rSTEER_PARK n), 23, 0⟩
/-- Register STEER_n_SLEW (07_carrier_grid_lock R203). -/
def rSTEER_SLEW (n : Nat) : Nat := 0x0B001C + 0x40 * n
def STEER_SLEW_VALUE (n : Nat) : Fld := ⟨(rSTEER_SLEW n), 23, 0⟩
/-- Register STEER_n_GAIN (07_carrier_grid_lock R201). -/
def rSTEER_GAIN (n : Nat) : Nat := 0x0B0020 + 0x40 * n
def STEER_GAIN_VALUE (n : Nat) : Fld := ⟨(rSTEER_GAIN n), 31, 0⟩
/-- Register STEER_n_FTMO (07_carrier_grid_lock R206). -/
def rSTEER_FTMO (n : Nat) : Nat := 0x0B0024 + 0x40 * n
def STEER_FTMO_HOLD_TMO (n : Nat) : Fld := ⟨(rSTEER_FTMO n), 31, 16⟩
def STEER_FTMO_CLAMP_TMO (n : Nat) : Fld := ⟨(rSTEER_FTMO n), 15, 0⟩
/-- Register STEER_n_WORD (07_carrier_grid_lock R205). -/
def rSTEER_WORD (n : Nat) : Nat := 0x0B0028 + 0x40 * n
def STEER_WORD_SENT_V (n : Nat) : Fld := ⟨(rSTEER_WORD n), 31, 31⟩
def STEER_WORD_S (n : Nat) : Fld := ⟨(rSTEER_WORD n), 23, 0⟩
/-- Register STEER_n_STAT (07_carrier_grid_lock R206). -/
def rSTEER_STAT (n : Nat) : Nat := 0x0B002C + 0x40 * n
def STEER_STAT_STATE (n : Nat) : Fld := ⟨(rSTEER_STAT n), 31, 29⟩
def STEER_STAT_CAUSE (n : Nat) : Fld := ⟨(rSTEER_STAT n), 28, 26⟩
def STEER_STAT_PARKED (n : Nat) : Fld := ⟨(rSTEER_STAT n), 25, 25⟩
def STEER_STAT_BUSY (n : Nat) : Fld := ⟨(rSTEER_STAT n), 24, 24⟩
def STEER_STAT_SLEW_LIM (n : Nat) : Fld := ⟨(rSTEER_STAT n), 23, 23⟩
def STEER_STAT_CLAMP_LIM (n : Nat) : Fld := ⟨(rSTEER_STAT n), 22, 22⟩
def STEER_STAT_PENDING (n : Nat) : Fld := ⟨(rSTEER_STAT n), 21, 21⟩
/-- Register STEER_n_EVT (07_carrier_grid_lock R206). -/
def rSTEER_EVT (n : Nat) : Nat := 0x0B0030 + 0x40 * n
def STEER_EVT_SEQ (n : Nat) : Fld := ⟨(rSTEER_EVT n), 31, 24⟩
def STEER_EVT_CMD_REJ (n : Nat) : Fld := ⟨(rSTEER_EVT n), 7, 7⟩
def STEER_EVT_CFG_ERR (n : Nat) : Fld := ⟨(rSTEER_EVT n), 6, 6⟩
def STEER_EVT_RANGE (n : Nat) : Fld := ⟨(rSTEER_EVT n), 5, 5⟩
def STEER_EVT_TGT_LIM (n : Nat) : Fld := ⟨(rSTEER_EVT n), 4, 4⟩
def STEER_EVT_OVERWRITE (n : Nat) : Fld := ⟨(rSTEER_EVT n), 3, 3⟩
def STEER_EVT_CLAMP (n : Nat) : Fld := ⟨(rSTEER_EVT n), 2, 2⟩
def STEER_EVT_RESUMED (n : Nat) : Fld := ⟨(rSTEER_EVT n), 1, 1⟩
def STEER_EVT_FAULT (n : Nat) : Fld := ⟨(rSTEER_EVT n), 0, 0⟩
/-- Register STEER_n_IEN (07_carrier_grid_lock R209). -/
def rSTEER_IEN (n : Nat) : Nat := 0x0B0034 + 0x40 * n
def STEER_IEN_IEN (n : Nat) : Fld := ⟨(rSTEER_IEN n), 7, 0⟩
/-- Register STEER_n_CMD (07_carrier_grid_lock R205). -/
def rSTEER_CMD (n : Nat) : Nat := 0x0B0038 + 0x40 * n
def STEER_CMD_SEND (n : Nat) : Fld := ⟨(rSTEER_CMD n), 1, 1⟩
def STEER_CMD_RESUME (n : Nat) : Fld := ⟨(rSTEER_CMD n), 0, 0⟩
/-- Register STEER_n_FRAMES (07_carrier_grid_lock R205). -/
def rSTEER_FRAMES (n : Nat) : Nat := 0x0B003C + 0x40 * n
def STEER_FRAMES_FRAMES (n : Nat) : Fld := ⟨(rSTEER_FRAMES n), 31, 0⟩
/-- Register STEER_n_TGT_LO (07_carrier_grid_lock R199). -/
def rSTEER_TGT_LO (n : Nat) : Nat := 0x0B0200 + 0x20 * n
def STEER_TGT_LO_TGT (n : Nat) : Fld := ⟨(rSTEER_TGT_LO n), 31, 0⟩
/-- Register STEER_n_TGT_HI (07_carrier_grid_lock R199). -/
def rSTEER_TGT_HI (n : Nat) : Nat := 0x0B0204 + 0x20 * n
def STEER_TGT_HI_TGT (n : Nat) : Fld := ⟨(rSTEER_TGT_HI n), 15, 0⟩
/-- Register STEER_n_GSHIFT (07_carrier_grid_lock R199). -/
def rSTEER_GSHIFT (n : Nat) : Nat := 0x0B0208 + 0x20 * n
def STEER_GSHIFT_GSHIFT (n : Nat) : Fld := ⟨(rSTEER_GSHIFT n), 31, 0⟩
/-- Register STEER_n_LINK (07_carrier_grid_lock R199). -/
def rSTEER_LINK (n : Nat) : Nat := 0x0B020C + 0x20 * n
def STEER_LINK_LED (n : Nat) : Fld := ⟨(rSTEER_LINK n), 31, 31⟩
def STEER_LINK_LEADER (n : Nat) : Fld := ⟨(rSTEER_LINK n), 30, 28⟩
def STEER_LINK_FSIGN (n : Nat) : Fld := ⟨(rSTEER_LINK n), 27, 27⟩
/-- Register STEER_n_TEFF_LO (07_carrier_grid_lock R199). -/
def rSTEER_TEFF_LO (n : Nat) : Nat := 0x0B0210 + 0x20 * n
def STEER_TEFF_LO_VALUE (n : Nat) : Fld := ⟨(rSTEER_TEFF_LO n), 31, 0⟩
/-- Register STEER_n_TEFF_HI (07_carrier_grid_lock R199). -/
def rSTEER_TEFF_HI (n : Nat) : Nat := 0x0B0214 + 0x20 * n
def STEER_TEFF_HI_VALUE (n : Nat) : Fld := ⟨(rSTEER_TEFF_HI n), 15, 0⟩
/-- Register STEER_n_ACC_LO (07_carrier_grid_lock R201). -/
def rSTEER_ACC_LO (n : Nat) : Nat := 0x0B0218 + 0x20 * n
def STEER_ACC_LO_VALUE (n : Nat) : Fld := ⟨(rSTEER_ACC_LO n), 31, 0⟩
/-- Register STEER_n_ACC_HI (07_carrier_grid_lock R201). -/
def rSTEER_ACC_HI (n : Nat) : Nat := 0x0B021C + 0x20 * n
def STEER_ACC_HI_VALUE (n : Nat) : Fld := ⟨(rSTEER_ACC_HI n), 15, 0⟩
/-- Register BN_n_CFG (07_carrier_grid_lock R195). -/
def rBN_CFG (n : Nat) : Nat := 0x0B0400 + 0x20 * n
def BN_CFG_USED (n : Nat) : Fld := ⟨(rBN_CFG n), 31, 31⟩
def BN_CFG_PRE (n : Nat) : Fld := ⟨(rBN_CFG n), 30, 29⟩
def BN_CFG_STEER_V (n : Nat) : Fld := ⟨(rBN_CFG n), 28, 28⟩
def BN_CFG_PAD (n : Nat) : Fld := ⟨(rBN_CFG n), 27, 24⟩
/-- Register BN_n_FMIN (07_carrier_grid_lock R196). -/
def rBN_FMIN (n : Nat) : Nat := 0x0B0404 + 0x20 * n
def BN_FMIN_F (n : Nat) : Fld := ⟨(rBN_FMIN n), 23, 0⟩
/-- Register BN_n_FMAX (07_carrier_grid_lock R196). -/
def rBN_FMAX (n : Nat) : Nat := 0x0B0408 + 0x20 * n
def BN_FMAX_F (n : Nat) : Fld := ⟨(rBN_FMAX n), 23, 0⟩
/-- Register BN_n_JUMP (07_carrier_grid_lock R196). -/
def rBN_JUMP (n : Nat) : Nat := 0x0B040C + 0x20 * n
def BN_JUMP_JUMP_CLR (n : Nat) : Fld := ⟨(rBN_JUMP n), 31, 24⟩
def BN_JUMP_JUMP_THR (n : Nat) : Fld := ⟨(rBN_JUMP n), 23, 0⟩
/-- Register BN_n_STAT (07_carrier_grid_lock R196). -/
def rBN_STAT (n : Nat) : Nat := 0x0B0410 + 0x20 * n
def BN_STAT_QUAL (n : Nat) : Fld := ⟨(rBN_STAT n), 31, 31⟩
def BN_STAT_JUMP (n : Nat) : Fld := ⟨(rBN_STAT n), 3, 3⟩
def BN_STAT_RANGE (n : Nat) : Fld := ⟨(rBN_STAT n), 2, 2⟩
def BN_STAT_LOS (n : Nat) : Fld := ⟨(rBN_STAT n), 1, 1⟩
def BN_STAT_NO_EDGE (n : Nat) : Fld := ⟨(rBN_STAT n), 0, 0⟩
/-- Register BN_n_EVT (07_carrier_grid_lock R196). -/
def rBN_EVT (n : Nat) : Nat := 0x0B0414 + 0x20 * n
def BN_EVT_SEQ (n : Nat) : Fld := ⟨(rBN_EVT n), 31, 24⟩
def BN_EVT_RANGE_LIM (n : Nat) : Fld := ⟨(rBN_EVT n), 4, 4⟩
def BN_EVT_JUMP (n : Nat) : Fld := ⟨(rBN_EVT n), 3, 3⟩
def BN_EVT_RANGE (n : Nat) : Fld := ⟨(rBN_EVT n), 2, 2⟩
def BN_EVT_LOS (n : Nat) : Fld := ⟨(rBN_EVT n), 1, 1⟩
def BN_EVT_NO_EDGE (n : Nat) : Fld := ⟨(rBN_EVT n), 0, 0⟩
/-- Register BN_n_IEN (07_carrier_grid_lock R196). -/
def rBN_IEN (n : Nat) : Nat := 0x0B0418 + 0x20 * n
def BN_IEN_IEN (n : Nat) : Fld := ⟨(rBN_IEN n), 4, 0⟩
/-- Register BN_n_FREQ (07_carrier_grid_lock R196). -/
def rBN_FREQ (n : Nat) : Nat := 0x0B041C + 0x20 * n
def BN_FREQ_FREQ (n : Nat) : Fld := ⟨(rBN_FREQ n), 31, 0⟩
/-- Register CRAFT_PB_CFG (14_pins_and_electrical R373). -/
def rCRAFT_PB_CFG : Nat := 0x0C0000
def CRAFT_PB_CFG_FNREL_1 : Fld := ⟨rCRAFT_PB_CFG, 13, 13⟩
def CRAFT_PB_CFG_FNREL_0 : Fld := ⟨rCRAFT_PB_CFG, 12, 12⟩
def CRAFT_PB_CFG_FUNC_1 : Fld := ⟨rCRAFT_PB_CFG, 5, 4⟩
def CRAFT_PB_CFG_FUNC_0 : Fld := ⟨rCRAFT_PB_CFG, 1, 0⟩
/-- Register CRAFT_STAT (14_pins_and_electrical R376). -/
def rCRAFT_STAT : Nat := 0x0C0004
def CRAFT_STAT_LED_OPEN : Fld := ⟨rCRAFT_STAT, 27, 24⟩
def CRAFT_STAT_PLUG : Fld := ⟨rCRAFT_STAT, 19, 16⟩
def CRAFT_STAT_PB_STUCK : Fld := ⟨rCRAFT_STAT, 13, 12⟩
def CRAFT_STAT_PB : Fld := ⟨rCRAFT_STAT, 9, 8⟩
def CRAFT_STAT_GPIO_IN : Fld := ⟨rCRAFT_STAT, 7, 0⟩
/-- Register CRAFT_EVT (14_pins_and_electrical R380). -/
def rCRAFT_EVT : Nat := 0x0C0008
def CRAFT_EVT_SEQ : Fld := ⟨rCRAFT_EVT, 31, 24⟩
def CRAFT_EVT_RANGE : Fld := ⟨rCRAFT_EVT, 8, 8⟩
def CRAFT_EVT_SENS_FAIL : Fld := ⟨rCRAFT_EVT, 7, 7⟩
def CRAFT_EVT_ACK : Fld := ⟨rCRAFT_EVT, 6, 6⟩
def CRAFT_EVT_LAMP : Fld := ⟨rCRAFT_EVT, 5, 5⟩
def CRAFT_EVT_PB_STUCK : Fld := ⟨rCRAFT_EVT, 4, 4⟩
def CRAFT_EVT_LED_OPEN : Fld := ⟨rCRAFT_EVT, 3, 3⟩
def CRAFT_EVT_PLUG : Fld := ⟨rCRAFT_EVT, 2, 2⟩
def CRAFT_EVT_PRESS_1 : Fld := ⟨rCRAFT_EVT, 1, 1⟩
def CRAFT_EVT_PRESS_0 : Fld := ⟨rCRAFT_EVT, 0, 0⟩
/-- Register CRAFT_IEN (14_pins_and_electrical R380). -/
def rCRAFT_IEN : Nat := 0x0C000C
def CRAFT_IEN_IEN : Fld := ⟨rCRAFT_IEN, 8, 0⟩
/-- Register CRAFT_LED_i (14_pins_and_electrical R378). -/
def rCRAFT_LED (i : Nat) : Nat := 0x0C0010 + 0x4 * i
def CRAFT_LED_EN (i : Nat) : Fld := ⟨(rCRAFT_LED i), 31, 31⟩
def CRAFT_LED_SRC (i : Nat) : Fld := ⟨(rCRAFT_LED i), 30, 28⟩
def CRAFT_LED_IDX (i : Nat) : Fld := ⟨(rCRAFT_LED i), 27, 24⟩
def CRAFT_LED_CURRENT (i : Nat) : Fld := ⟨(rCRAFT_LED i), 19, 16⟩
def CRAFT_LED_PAT_ON (i : Nat) : Fld := ⟨(rCRAFT_LED i), 6, 4⟩
def CRAFT_LED_PAT_OFF (i : Nat) : Fld := ⟨(rCRAFT_LED i), 2, 0⟩
/-- Register CRAFT_GPIO_i (14_pins_and_electrical R377). -/
def rCRAFT_GPIO (i : Nat) : Nat := 0x0C0020 + 0x4 * i
def CRAFT_GPIO_PULL_EN (i : Nat) : Fld := ⟨(rCRAFT_GPIO i), 7, 7⟩
def CRAFT_GPIO_PULL_UP (i : Nat) : Fld := ⟨(rCRAFT_GPIO i), 6, 6⟩
def CRAFT_GPIO_OUT (i : Nat) : Fld := ⟨(rCRAFT_GPIO i), 4, 4⟩
def CRAFT_GPIO_OD (i : Nat) : Fld := ⟨(rCRAFT_GPIO i), 3, 3⟩
def CRAFT_GPIO_FUNC (i : Nat) : Fld := ⟨(rCRAFT_GPIO i), 2, 0⟩
/-- Register CRAFT_SENS_CFG (14_pins_and_electrical R379). -/
def rCRAFT_SENS_CFG : Nat := 0x0C0040
def CRAFT_SENS_CFG_EN : Fld := ⟨rCRAFT_SENS_CFG, 31, 31⟩
def CRAFT_SENS_CFG_ADDR : Fld := ⟨rCRAFT_SENS_CFG, 30, 24⟩
def CRAFT_SENS_CFG_PTR : Fld := ⟨rCRAFT_SENS_CFG, 23, 16⟩
def CRAFT_SENS_CFG_FORMAT : Fld := ⟨rCRAFT_SENS_CFG, 0, 0⟩
/-- Register CRAFT_SENS_TEMP (14_pins_and_electrical R379). -/
def rCRAFT_SENS_TEMP : Nat := 0x0C0044
def CRAFT_SENS_TEMP_VALID : Fld := ⟨rCRAFT_SENS_TEMP, 31, 31⟩
def CRAFT_SENS_TEMP_FAILS : Fld := ⟨rCRAFT_SENS_TEMP, 17, 16⟩
def CRAFT_SENS_TEMP_TEMP : Fld := ⟨rCRAFT_SENS_TEMP, 15, 0⟩
/-- Register HOST_CFG (10_host_access R253). -/
def rHOST_CFG : Nat := 0x0D0000
def HOST_CFG_SPI_CRC_REQ : Fld := ⟨rHOST_CFG, 31, 31⟩
def HOST_CFG_IRQ_PP : Fld := ⟨rHOST_CFG, 30, 30⟩
/-- Register HOST_VIEW (10_host_access R266). -/
def rHOST_VIEW : Nat := 0x0D0004
def HOST_VIEW_SHADOW : Fld := ⟨rHOST_VIEW, 1, 1⟩
def HOST_VIEW_MUSTER : Fld := ⟨rHOST_VIEW, 0, 0⟩
/-- Register HOST_ERR (10_host_access R265). -/
def rHOST_ERR : Nat := 0x0D0008
def HOST_ERR_SEQ : Fld := ⟨rHOST_ERR, 31, 24⟩
def HOST_ERR_DEV_CMD_REJ : Fld := ⟨rHOST_ERR, 10, 10⟩
def HOST_ERR_STALE : Fld := ⟨rHOST_ERR, 9, 9⟩
def HOST_ERR_UNKNOWN_CMD : Fld := ⟨rHOST_ERR, 8, 8⟩
def HOST_ERR_CROOK : Fld := ⟨rHOST_ERR, 7, 7⟩
def HOST_ERR_BOOT : Fld := ⟨rHOST_ERR, 6, 6⟩
def HOST_ERR_CRC : Fld := ⟨rHOST_ERR, 5, 5⟩
def HOST_ERR_TIMEOUT : Fld := ⟨rHOST_ERR, 4, 4⟩
def HOST_ERR_PARTIAL : Fld := ⟨rHOST_ERR, 3, 3⟩
def HOST_ERR_UNMAPPED : Fld := ⟨rHOST_ERR, 2, 2⟩
def HOST_ERR_ALIGN : Fld := ⟨rHOST_ERR, 1, 1⟩
def HOST_ERR_REFUSED : Fld := ⟨rHOST_ERR, 0, 0⟩
/-- Register HOST_IEN (10_host_access R276). -/
def rHOST_IEN : Nat := 0x0D000C
def HOST_IEN_IEN : Fld := ⟨rHOST_IEN, 10, 0⟩
/-- Register HOST_ERR_CAP (10_host_access R265). -/
def rHOST_ERR_CAP : Nat := 0x0D0010
def HOST_ERR_CAP_CAUSE : Fld := ⟨rHOST_ERR_CAP, 31, 28⟩
def HOST_ERR_CAP_MASTER : Fld := ⟨rHOST_ERR_CAP, 26, 24⟩
def HOST_ERR_CAP_ADDR : Fld := ⟨rHOST_ERR_CAP, 23, 0⟩
/-- Register HOST_SPI_FRAMES (10_host_access R275). -/
def rHOST_SPI_FRAMES : Nat := 0x0D0014
def HOST_SPI_FRAMES_COUNT : Fld := ⟨rHOST_SPI_FRAMES, 31, 0⟩
/-- Register HOST_I2C_XFERS (10_host_access R275). -/
def rHOST_I2C_XFERS : Nat := 0x0D0018
def HOST_I2C_XFERS_COUNT : Fld := ⟨rHOST_I2C_XFERS, 31, 0⟩
/-- Register HOST_CRC_CNT (10_host_access R275). -/
def rHOST_CRC_CNT : Nat := 0x0D001C
def HOST_CRC_CNT_COUNT : Fld := ⟨rHOST_CRC_CNT, 31, 0⟩
/-- Register HOST_TMO_CNT (10_host_access R275). -/
def rHOST_TMO_CNT : Nat := 0x0D0020
def HOST_TMO_CNT_COUNT : Fld := ⟨rHOST_TMO_CNT, 31, 0⟩
/-- Register HOST_REFUSED_CNT (10_host_access R275). -/
def rHOST_REFUSED_CNT : Nat := 0x0D0024
def HOST_REFUSED_CNT_COUNT : Fld := ⟨rHOST_REFUSED_CNT, 31, 0⟩
/-- Register HOST_STALE_CNT (10_host_access R275). -/
def rHOST_STALE_CNT : Nat := 0x0D0028
def HOST_STALE_CNT_COUNT : Fld := ⟨rHOST_STALE_CNT, 31, 0⟩

/-- The rows of one block of the register map, by the block's upper address byte (00 R9).  Columns: see `RegRow`. -/
def regRows00_0 : List RegRow := [
  ⟨0x000000, 1, 0x4, 1, 0x4, 0x7424A101, 0x0, 0xFFFFFFFF, 0x0, 0x0, 0x0, 0x0, 0x0, 8, false, false, false⟩ /- DEV_ID -/,
  ⟨0x000004, 1, 0x4, 1, 0x4, 0x1, 0x0, 0xF007, 0x0, 0x0, 0x0, 0x0, 0x0, 8, false, false, false⟩ /- DEV_MODE -/,
  ⟨0x000008, 1, 0x4, 1, 0x4, 0x2, 0x7, 0xF00000, 0x0, 0x0, 0x80000000, 0x0, 0x0, 8, false, false, false⟩ /- DEV_MODE_REQ -/,
  ⟨0x000010, 1, 0x4, 1, 0x4, 0x0, 0x0, 0xFF00, 0x0, 0x0, 0xFF, 0x0, 0x0, 8, false, false, false⟩ /- DEV_UPDATE -/,
  ⟨0x000014, 1, 0x4, 1, 0x4, 0x0, 0xFFFFFF80, 0x0, 0x0, 0x0, 0x0, 0x0, 0x0, 8, false, false, false⟩ /- DEV_UPDATE_CFG -/,
  ⟨0x000020, 1, 0x4, 1, 0x4, 0x0, 0x40000000, 0x20000000, 0x0, 0x0, 0x80000000, 0x0, 0x0, 8, false, false, false⟩ /- DEV_MUSTER -/,
  ⟨0x000024, 1, 0x4, 1, 0x4, 0x0, 0x0, 0xFFFFFFFF, 0x0, 0x0, 0x0, 0x0, 0x0, 8, false, false, false⟩ /- DEV_MUSTER_SEQ -/,
  ⟨0x000028, 1, 0x4, 1, 0x4, 0x0, 0x0, 0xFFFFFFFF, 0x0, 0x0, 0x0, 0x0, 0x0, 8, false, false, false⟩ /- DEV_MUSTER_SEC -/,
  ⟨0x00002C, 1, 0x4, 1, 0x4, 0x0, 0x0, 0x3FFFFFFF, 0x0, 0x0, 0x0, 0x0, 0x0, 8, false, false, false⟩ /- DEV_MUSTER_NS -/,
  ⟨0x000030, 1, 0x4, 1, 0x4, 0x0, 0x1, 0x0, 0x0, 0x0, 0x0, 0x0, 0x0, 8, false, false, false⟩ /- DEV_CROOK -/,
  ⟨0x000040, 1, 0x4, 1, 0x4, 0x0, 0xFFFF, 0x27000000, 0x0, 0x0, 0xC0000000, 0x0, 0x0, 8, false, false, false⟩ /- DEV_RESET -/,
  ⟨0x000044, 1, 0x4, 1, 0x4, 0x1, 0x0, 0x0, 0x0, 0xFF00001F, 0x0, 0x0, 0x0, 8, false, false, false⟩ /- DEV_RESET_CAUSE -/,
  ⟨0x000048, 1, 0x4, 1, 0x4, 0x0, 0x0, 0x7F, 0x0, 0x0, 0x0, 0x0, 0x0, 8, false, false, false⟩ /- DEV_SUPPLY -/,
  ⟨0x000050, 1, 0x4, 1, 0x4, 0x0, 0x0, 0xFFFFFFFF, 0x0, 0x0, 0x0, 0x0, 0x0, 8, false, true, false⟩ /- DEV_TIME_SEC_LO -/,
  ⟨0x000054, 1, 0x4, 1, 0x4, 0x0, 0x0, 0xFFFF, 0x0, 0x0, 0x0, 0x0, 0x0, 8, false, true, false⟩ /- DEV_TIME_SEC_HI -/,
  ⟨0x000058, 1, 0x4, 1, 0x4, 0x0, 0x0, 0x3FFFFFFF, 0x0, 0x0, 0x0, 0x0, 0x0, 8, false, true, false⟩ /- DEV_TIME_NS -/,
  ⟨0x00005C, 1, 0x4, 1, 0x4, 0x0, 0x0, 0xFFFF, 0x0, 0x0, 0x0, 0x0, 0x0, 8, false, true, false⟩ /- DEV_TIME_FRAC -/,
  ⟨0x000060, 1, 0x4, 1, 0x4, 0xC0000000, 0x0, 0xFFF8FFFF, 0x0, 0x0, 0x0, 0x0, 0x0, 8, false, false, false⟩ /- DEV_BOOT_STAT -/,
  ⟨0x000064, 1, 0x4, 1, 0x4, 0x0, 0x0, 0xFFFFFFFF, 0x0, 0x0, 0x0, 0x0, 0x0, 8, false, false, false⟩ /- DEV_IMG_SEQ -/,
  ⟨0x000068, 1, 0x4, 1, 0x4, 0x0, 0x0, 0xFFFFFFFF, 0x0, 0x0, 0x0, 0x0, 0x0, 8, false, false, false⟩ /- DEV_IMG_PLAN -/,
  ⟨0x00006C, 1, 0x4, 1, 0x4, 0x0, 0x0, 0xFFFFFFFF, 0x0, 0x0, 0x0, 0x0, 0x0, 8, false, false, false⟩ /- DEV_IMG_CHECK -/,
  ⟨0x000070, 1, 0x4, 1, 0x4, 0x0, 0x0, 0xFFFFFF, 0x0, 0x0, 0x0, 0x0, 0x0, 8, false, false, false⟩ /- DEV_BOOT_DIAG -/,
  ⟨0x000080, 1, 0x4, 1, 0x4, 0x0, 0x0, 0x8000FFFF, 0x0, 0x0, 0x0, 0x0, 0x0, 8, false, false, false⟩ /- DEV_TEMP -/,
  ⟨0x000100, 1, 0x4, 1, 0x4, 0x0, 0xFFFF, 0x0, 0x0, 0x0, 0xC0000000, 0x0, 0x0, 8, false, false, false⟩ /- DEV_MBX_CMD -/,
  ⟨0x000104, 1, 0x4, 6, 0x4, 0x0, 0xFFFFFFFF, 0x0, 0x0, 0x0, 0x0, 0x0, 0x0, 8, false, false, false⟩ /- DEV_MBX_ARG_i -/,
  ⟨0x000120, 1, 0x4, 1, 0x4, 0x0, 0x0, 0xF8FFFFFF, 0x0, 0x0, 0x0, 0x0, 0x0, 8, false, false, false⟩ /- DEV_MBX_STAT -/,
  ⟨0x000124, 1, 0x4, 4, 0x4, 0x0, 0x0, 0xFFFFFFFF, 0x0, 0x0, 0x0, 0x0, 0x0, 8, false, false, false⟩ /- DEV_MBX_RES_i -/,
  ⟨0x000134, 1, 0x4, 1, 0x4, 0x0, 0x0, 0x0, 0x0, 0xFF000007, 0x0, 0x0, 0x0, 8, false, false, false⟩ /- DEV_MBX_EVT -/,
  ⟨0x000138, 1, 0x4, 1, 0x4, 0x0, 0x7, 0x0, 0x0, 0x0, 0x0, 0x0, 0x0, 8, false, false, false⟩ /- DEV_MBX_IEN -/,
  ⟨0x000200, 1, 0x4, 1, 0x4, 0x0, 0x0, 0xFFF0FFFF, 0x0, 0x0, 0x0, 0x0, 0x0, 8, false, false, false⟩ /- DEV_IRQ_STAT -/,
  ⟨0x000204, 1, 0x4, 1, 0x4, 0x0, 0xFFF0FFFF, 0x0, 0x0, 0x0, 0x0, 0x0, 0x0, 8, false, false, false⟩ /- DEV_IRQ_EN -/,
  ⟨0x000208, 1, 0x4, 1, 0x4, 0x0, 0x0, 0xFFF0FFFF, 0x0, 0x0, 0x0, 0x0, 0x0, 8, false, false, false⟩ /- DEV_IRQ_PEND -/,
  ⟨0x00020C, 1, 0x4, 1, 0x4, 0x0, 0xFFF0FFFF, 0x0, 0x0, 0x0, 0x0, 0x0, 0x0, 8, false, false, false⟩ /- DEV_IRQ_GEN -/,
  ⟨0x000210, 1, 0x4, 1, 0x4, 0x0, 0x1FFFF, 0x0, 0x0, 0x0, 0x0, 0x0, 0x0, 8, false, false, false⟩ /- DEV_IRQ_TQ -/]
def regRows00 : List RegRow := regRows00_0

def regRows01_0 : List RegRow := [
  ⟨0x010000, 1, 0x4, 1, 0x4, 0x8000000, 0xEC000000, 0x0, 0x0, 0x0, 0x0, 0x0, 0x0, 8, false, false, false⟩ /- FLT_CFG -/,
  ⟨0x010004, 1, 0x4, 1, 0x4, 0x0, 0xFF, 0x0, 0x0, 0x0, 0x0, 0x0, 0xFF, 8, false, false, false⟩ /- FLT_REACT -/,
  ⟨0x010008, 1, 0x4, 1, 0x4, 0x3E8, 0xFFFFF, 0x0, 0x0, 0x0, 0x0, 0x0, 0x0, 8, false, false, false⟩ /- FLT_ESC -/,
  ⟨0x01000C, 1, 0x4, 1, 0x4, 0x3E8, 0xFFFF, 0x0, 0x0, 0x0, 0x0, 0x0, 0x0, 8, false, false, false⟩ /- FLT_QUIET -/,
  ⟨0x010010, 1, 0x4, 1, 0x4, 0x64, 0x3FFF, 0x0, 0x0, 0x0, 0x0, 0x0, 0x0, 8, false, false, false⟩ /- FLT_FN_WIDTH -/,
  ⟨0x010014, 1, 0x4, 1, 0x4, 0x6E, 0xFF, 0x0, 0x0, 0x0, 0x0, 0x0, 0x0, 8, false, false, false⟩ /- FLT_TEMP -/,
  ⟨0x010020, 1, 0x4, 4, 0x4, 0x0, 0xFFFFFFFF, 0x0, 0x0, 0x0, 0x0, 0x0, 0xFFFFFFFF, 8, false, false, false⟩ /- FLT_SEV_i -/,
  ⟨0x010030, 1, 0x4, 1, 0x4, 0x0, 0xFFFFFFFF, 0x0, 0x0, 0x0, 0x0, 0x0, 0x0, 8, false, false, false⟩ /- FLT_IEN_LO -/,
  ⟨0x010034, 1, 0x4, 1, 0x4, 0x0, 0xFFFFFFFF, 0x0, 0x0, 0x0, 0x0, 0x0, 0x0, 8, false, false, false⟩ /- FLT_IEN_HI -/,
  ⟨0x010038, 1, 0x4, 1, 0x4, 0x0, 0x0, 0xFFFFFFFF, 0x0, 0x0, 0x0, 0x0, 0x0, 8, false, false, false⟩ /- FLT_LATCH_LO -/,
  ⟨0x01003C, 1, 0x4, 1, 0x4, 0x0, 0x0, 0xFFFFFFFF, 0x0, 0x0, 0x0, 0x0, 0x0, 8, false, false, false⟩ /- FLT_LATCH_HI -/,
  ⟨0x010040, 1, 0x4, 1, 0x4, 0x0, 0x0, 0xFFFFFFFF, 0x0, 0x0, 0x0, 0x0, 0x0, 8, false, false, false⟩ /- FLT_LIVE_LO -/,
  ⟨0x010044, 1, 0x4, 1, 0x4, 0x0, 0x0, 0xFFFFFFFF, 0x0, 0x0, 0x0, 0x0, 0x0, 8, false, false, false⟩ /- FLT_LIVE_HI -/,
  ⟨0x010048, 1, 0x4, 1, 0x4, 0x0, 0x0, 0x0, 0x0, 0xFFFFFFFF, 0x0, 0x0, 0x0, 8, false, false, false⟩ /- FLT_ACK_0 -/,
  ⟨0x01004C, 1, 0x4, 1, 0x4, 0x0, 0x0, 0x0, 0x0, 0xFFFFFFFF, 0x0, 0x0, 0x0, 8, false, false, false⟩ /- FLT_ACK_1 -/,
  ⟨0x010050, 1, 0x4, 1, 0x4, 0x0, 0x0, 0x0, 0x0, 0xFF00FFFF, 0x0, 0x0, 0x0, 8, false, false, false⟩ /- FLT_ACK_2 -/,
  ⟨0x010058, 1, 0x4, 1, 0x4, 0x0, 0x0, 0xFC0FFFFF, 0x0, 0x0, 0x0, 0x0, 0x0, 8, false, false, false⟩ /- FLT_STAT -/,
  ⟨0x01005C, 1, 0x4, 1, 0x4, 0x0, 0xFFFF, 0x0, 0x0, 0x0, 0xF0000000, 0x0, 0x0, 8, false, false, false⟩ /- FLT_CMD -/,
  ⟨0x010060, 1, 0x4, 1, 0x4, 0x0, 0x0, 0xFFFC003F, 0x0, 0x0, 0x0, 0x0, 0x0, 8, false, false, false⟩ /- FLT_CAP_SRC -/,
  ⟨0x010064, 1, 0x4, 1, 0x4, 0x0, 0x0, 0xFFFFFF, 0x0, 0x0, 0x0, 0x0, 0x0, 8, false, false, false⟩ /- FLT_CAP_ADDR -/,
  ⟨0x010068, 1, 0x4, 1, 0x4, 0x0, 0x0, 0xFFFF, 0x0, 0x0, 0x0, 0x0, 0x0, 8, false, false, false⟩ /- FLT_CAP_DETAIL -/,
  ⟨0x01006C, 1, 0x4, 1, 0x4, 0x0, 0x0, 0xFFFFFFFF, 0x0, 0x0, 0x0, 0x0, 0x0, 8, false, false, false⟩ /- FLT_CAP_SEQ -/,
  ⟨0x010070, 1, 0x4, 1, 0x4, 0x0, 0x0, 0xFFFFFFFF, 0x0, 0x0, 0x0, 0x0, 0x0, 8, false, false, false⟩ /- FLT_CAP_SEC_LO -/,
  ⟨0x010074, 1, 0x4, 1, 0x4, 0x0, 0x0, 0xFFFF, 0x0, 0x0, 0x0, 0x0, 0x0, 8, false, false, false⟩ /- FLT_CAP_SEC_HI -/,
  ⟨0x010078, 1, 0x4, 1, 0x4, 0x0, 0x0, 0x3FFFFFFF, 0x0, 0x0, 0x0, 0x0, 0x0, 8, false, false, false⟩ /- FLT_CAP_NS -/,
  ⟨0x01007C, 1, 0x4, 1, 0x4, 0x0, 0x0, 0xFFFF, 0x0, 0x0, 0x0, 0x0, 0x0, 8, false, false, false⟩ /- FLT_CAP_FRAC -/,
  ⟨0x010080, 1, 0x4, 1, 0x4, 0x0, 0x0, 0xFFFFFFFF, 0x0, 0x0, 0x0, 0x0, 0x0, 8, true, false, false⟩ /- FLT_SEQNO -/,
  ⟨0x010084, 1, 0x4, 1, 0x4, 0x0, 0x0, 0xFFFFFFFF, 0x0, 0x0, 0x0, 0x0, 0x0, 8, true, false, false⟩ /- FLT_MISSED -/,
  ⟨0x010088, 1, 0x4, 1, 0x4, 0x0, 0x0, 0xFFFFFFFF, 0x0, 0x0, 0x0, 0x0, 0x0, 8, true, false, false⟩ /- FLT_RECOV -/,
  ⟨0x01008C, 1, 0x4, 1, 0x4, 0x0, 0x0, 0xFFFFFFFF, 0x0, 0x0, 0x0, 0x0, 0x0, 8, true, false, false⟩ /- FLT_FOLDS -/,
  ⟨0x010090, 1, 0x4, 1, 0x4, 0x0, 0x4000003F, 0x0, 0x0, 0x0, 0x80000000, 0x0, 0x0, 8, false, false, false⟩ /- FLT_INJ -/,
  ⟨0x010094, 1, 0x4, 1, 0x4, 0x0, 0x0, 0xF000003F, 0x0, 0x0, 0x0, 0x0, 0x0, 8, false, false, false⟩ /- FLT_INJ_STAT -/,
  ⟨0x010098, 1, 0x4, 1, 0x4, 0x0, 0x0, 0x0, 0x0, 0x0, 0xF, 0x0, 0x0, 8, false, false, false⟩ /- FLT_USER -/,
  ⟨0x01009C, 1, 0x4, 1, 0x4, 0x0, 0x0, 0xFFFF0000, 0x0, 0x0, 0x0, 0x0, 0x0, 8, false, false, false⟩ /- FLT_DUMP_STAT -/,
  ⟨0x0100A0, 1, 0x4, 1, 0x4, 0x0, 0x0, 0xFFFFFFFF, 0x0, 0x0, 0x0, 0x0, 0x0, 8, false, false, false⟩ /- FLT_DUMP_SEQ -/]
def regRows01 : List RegRow := regRows01_0

def regRows02_0 : List RegRow := [
  ⟨0x020000, 12, 0x100, 1, 0x4, 0xC000000, 0x0, 0xE0000000, 0x1E000000, 0x0, 0x0, 0x0, 0xFC000000, 1, false, false, false⟩ /- REF_n_CFG -/,
  ⟨0x020004, 12, 0x100, 1, 0x4, 0x0, 0x0, 0xFFFFFFFF, 0x0, 0x0, 0x0, 0x0, 0xFFFFFFFF, 8, false, false, false⟩ /- REF_n_NOM_LO -/,
  ⟨0x020008, 12, 0x100, 1, 0x4, 0x0, 0x0, 0xFFFF, 0x0, 0x0, 0x0, 0x0, 0xFFFF, 8, false, false, false⟩ /- REF_n_NOM_HI -/,
  ⟨0x02000C, 12, 0x100, 1, 0x4, 0x0, 0x0, 0xFFFFFFFF, 0x0, 0x0, 0x0, 0x0, 0xFFFFFFFF, 8, false, false, false⟩ /- REF_n_GAP -/,
  ⟨0x020010, 12, 0x100, 1, 0x4, 0xA00B3B0, 0x0, 0x0, 0xFF0FFFFF, 0x0, 0x0, 0x0, 0xFF0FFFFF, 1, false, false, false⟩ /- REF_n_SOFT -/,
  ⟨0x020014, 12, 0x100, 1, 0x4, 0x2016760, 0x0, 0x0, 0xFF0FFFFF, 0x0, 0x0, 0x0, 0xFF0FFFFF, 1, false, false, false⟩ /- REF_n_HARD -/,
  ⟨0x020018, 12, 0x100, 1, 0x4, 0xA, 0x0, 0x0, 0x3FF, 0x0, 0x0, 0x0, 0x3FF, 1, false, false, false⟩ /- REF_n_FM -/,
  ⟨0x02001C, 12, 0x100, 1, 0x4, 0x3E80000, 0x0, 0x0, 0xFFFFFFFF, 0x0, 0x0, 0x0, 0xFFFFFFFF, 1, false, false, false⟩ /- REF_n_PJ -/,
  ⟨0x020020, 12, 0x100, 1, 0x4, 0x12C, 0x0, 0x0, 0xFFFF, 0x0, 0x0, 0x0, 0xFFFF, 1, false, false, false⟩ /- REF_n_WTR -/,
  ⟨0x020024, 12, 0x100, 1, 0x4, 0x14, 0x0, 0x0, 0xFF, 0x0, 0x0, 0x0, 0xFF, 1, false, false, false⟩ /- REF_n_PLUG -/,
  ⟨0x020030, 12, 0x100, 1, 0x4, 0x0, 0x0, 0xFC00FF7F, 0x0, 0x0, 0x0, 0x0, 0x0, 8, false, false, false⟩ /- REF_n_STAT -/,
  ⟨0x020034, 12, 0x100, 1, 0x4, 0x0, 0x0, 0x0, 0x0, 0xFF0001FF, 0x0, 0x0, 0x0, 8, false, false, false⟩ /- REF_n_EVT -/,
  ⟨0x020038, 12, 0x100, 1, 0x4, 0x0, 0x1FF, 0x0, 0x0, 0x0, 0x0, 0x0, 0x0, 8, false, false, false⟩ /- REF_n_IEN -/,
  ⟨0x02003C, 12, 0x100, 1, 0x4, 0x0, 0x0, 0xFFFFFFFF, 0x0, 0x0, 0x0, 0x0, 0x0, 8, false, false, false⟩ /- REF_n_FOFF -/,
  ⟨0x020040, 12, 0x100, 1, 0x4, 0x0, 0x0, 0xFFFF, 0x0, 0x0, 0x0, 0x0, 0x0, 8, false, false, false⟩ /- REF_n_WTR_LEFT -/,
  ⟨0x020044, 12, 0x100, 1, 0x4, 0x0, 0x0, 0xFFFFFFFF, 0x0, 0x0, 0x0, 0x0, 0x0, 8, false, false, false⟩ /- REF_n_PJ_LAST -/,
  ⟨0x020048, 12, 0x100, 1, 0x4, 0x0, 0x0, 0xFFFFFFFF, 0x0, 0x0, 0x0, 0x0, 0x0, 8, true, false, false⟩ /- REF_n_DISQ_CNT -/,
  ⟨0x02004C, 12, 0x100, 1, 0x4, 0x0, 0x0, 0xFFFFFFFF, 0x0, 0x0, 0x0, 0x0, 0x0, 8, true, false, false⟩ /- REF_n_PJ_CNT -/,
  ⟨0x020050, 12, 0x100, 1, 0x4, 0x0, 0x0, 0xFFFFFFFF, 0x0, 0x0, 0x0, 0x0, 0x0, 8, true, false, false⟩ /- REF_n_VIOL_CNT -/,
  ⟨0x020054, 12, 0x100, 1, 0x4, 0x0, 0x0, 0x0, 0x0, 0x0, 0x1, 0x0, 0x0, 8, false, false, false⟩ /- REF_n_CMD -/,
  ⟨0x020C00, 1, 0x4, 1, 0x4, 0x186A0, 0x0, 0x80000000, 0xFFFFF, 0x0, 0x0, 0x0, 0x800FFFFF, 1, false, false, false⟩ /- REF_OCXO_CFG -/,
  ⟨0x020C04, 1, 0x4, 1, 0x4, 0x0, 0x0, 0xFFFFFFFF, 0x0, 0x0, 0x0, 0x0, 0xFFFFFFFF, 8, false, false, false⟩ /- REF_OCXO_NOM_LO -/,
  ⟨0x020C08, 1, 0x4, 1, 0x4, 0x0, 0x0, 0xFFFF, 0x0, 0x0, 0x0, 0x0, 0xFFFF, 8, false, false, false⟩ /- REF_OCXO_NOM_HI -/,
  ⟨0x020C0C, 1, 0x4, 1, 0x4, 0x40000000, 0x0, 0xC0000000, 0x0, 0x0, 0x0, 0x0, 0x0, 8, false, false, false⟩ /- REF_OCXO_STAT -/,
  ⟨0x020C10, 1, 0x4, 1, 0x4, 0x0, 0x0, 0xFFFFFFFF, 0x0, 0x0, 0x0, 0x0, 0x0, 8, false, false, false⟩ /- REF_OCXO_FOFF -/,
  ⟨0x020C14, 1, 0x4, 1, 0x4, 0x0, 0x0, 0x0, 0x0, 0xFF00000F, 0x0, 0x0, 0x0, 8, false, false, false⟩ /- REF_OCXO_EVT -/]
def regRows02 : List RegRow := regRows02_0

def regRows03_0 : List RegRow := [
  ⟨0x030000, 16, 0x400, 1, 0x4, 0x0, 0x0, 0xE0FFFBF0, 0x0, 0x0, 0x0, 0x0, 0xE0FFFBF0, 8, false, false, false⟩ /- PAD_n_CFG -/,
  ⟨0x030004, 16, 0x400, 1, 0x4, 0x1, 0x0, 0x0, 0x71F300F, 0x0, 0x0, 0x0, 0x1F3002, 9, false, false, false⟩ /- PAD_n_CTL -/,
  ⟨0x030008, 16, 0x400, 1, 0x4, 0x640400, 0x0, 0x0, 0xFF0F00, 0x0, 0x0, 0x0, 0x0, 9, false, false, false⟩ /- PAD_n_LADDER -/,
  ⟨0x03000C, 16, 0x400, 1, 0x4, 0xA0000, 0x0, 0x0, 0xFFFFFFFF, 0x0, 0x0, 0x0, 0x0, 9, false, false, false⟩ /- PAD_n_LADDER_THR -/,
  ⟨0x030010, 16, 0x400, 1, 0x4, 0x50000, 0x0, 0x0, 0xFFFFFFFF, 0x0, 0x0, 0x0, 0x0, 9, false, false, false⟩ /- PAD_n_LOCK_THR -/,
  ⟨0x030014, 16, 0x400, 1, 0x4, 0x640000, 0x0, 0x0, 0xFFFFFFFF, 0x0, 0x0, 0x0, 0x0, 9, false, false, false⟩ /- PAD_n_UNLOCK_THR -/,
  ⟨0x030018, 16, 0x400, 1, 0x4, 0x1388, 0x0, 0x0, 0xFFFF, 0x0, 0x0, 0x0, 0x0, 9, false, false, false⟩ /- PAD_n_PULL -/,
  ⟨0x030020, 16, 0x400, 1, 0x4, 0x0, 0x0, 0x0, 0xFFFFFFFF, 0x0, 0x0, 0x0, 0xFFFFFFFF, 9, false, false, false⟩ /- PAD_n_FR_LO -/,
  ⟨0x030024, 16, 0x400, 1, 0x4, 0x0, 0x0, 0x0, 0xFFFF, 0x0, 0x0, 0x0, 0xFFFF, 9, false, false, false⟩ /- PAD_n_FR_HI -/,
  ⟨0x030028, 16, 0x400, 1, 0x4, 0x0, 0x0, 0xFFFFFC00, 0x0, 0x0, 0x0, 0x0, 0x0, 8, false, false, false⟩ /- PAD_n_STATE -/,
  ⟨0x03002C, 16, 0x400, 1, 0x4, 0x0, 0x0, 0x0, 0x0, 0xFF000FFF, 0x0, 0x0, 0x0, 8, false, false, false⟩ /- PAD_n_HIST -/,
  ⟨0x030030, 16, 0x400, 1, 0x4, 0x0, 0xFFF, 0x0, 0x0, 0x0, 0x0, 0x0, 0x0, 8, false, false, false⟩ /- PAD_n_IEN -/,
  ⟨0x030034, 16, 0x400, 1, 0x4, 0x0, 0x0, 0xFFFFFFFF, 0x0, 0x0, 0x0, 0x0, 0x0, 8, false, false, false⟩ /- PAD_n_PERR -/,
  ⟨0x030038, 16, 0x400, 1, 0x4, 0x0, 0x0, 0xFFFFFFFF, 0x0, 0x0, 0x0, 0x0, 0x0, 8, false, false, false⟩ /- PAD_n_FW_LO -/,
  ⟨0x03003C, 16, 0x400, 1, 0x4, 0x0, 0x0, 0xFFFF, 0x0, 0x0, 0x0, 0x0, 0x0, 8, false, false, false⟩ /- PAD_n_FW_HI -/,
  ⟨0x030040, 16, 0x400, 1, 0x4, 0x0, 0x0, 0xFFFFFFFF, 0x0, 0x0, 0x0, 0x0, 0x0, 8, false, false, false⟩ /- PAD_n_HAVG_LO -/,
  ⟨0x030044, 16, 0x400, 1, 0x4, 0x0, 0x0, 0xFFFF, 0x0, 0x0, 0x0, 0x0, 0x0, 8, false, false, false⟩ /- PAD_n_HAVG_HI -/,
  ⟨0x030048, 16, 0x400, 1, 0x4, 0x0, 0x0, 0xFFFFFFFF, 0x0, 0x0, 0x0, 0x0, 0x0, 8, false, false, false⟩ /- PAD_n_HW_LO -/,
  ⟨0x03004C, 16, 0x400, 1, 0x4, 0x0, 0x0, 0xFFFF, 0x0, 0x0, 0x0, 0x0, 0x0, 8, false, false, false⟩ /- PAD_n_HW_HI -/,
  ⟨0x030050, 16, 0x400, 1, 0x4, 0x0, 0x0, 0x0, 0x0, 0x0, 0x0, 0xFFFFFFFF, 0x0, 8, false, false, false⟩ /- PAD_n_HMODEL_LO -/,
  ⟨0x030054, 16, 0x400, 1, 0x4, 0x0, 0x0, 0x0, 0x0, 0x0, 0x0, 0xFFFFFFFF, 0x0, 8, false, false, false⟩ /- PAD_n_HMODEL_HI -/,
  ⟨0x030058, 16, 0x400, 1, 0x4, 0xFFFFFFFF, 0x0, 0x0, 0x0, 0x0, 0x0, 0xFFFFFFFF, 0x0, 8, false, false, false⟩ /- PAD_n_HMODEL_LO_C -/,
  ⟨0x03005C, 16, 0x400, 1, 0x4, 0xFFFFFFFF, 0x0, 0x0, 0x0, 0x0, 0x0, 0xFFFFFFFF, 0x0, 8, false, false, false⟩ /- PAD_n_HMODEL_HI_C -/,
  ⟨0x030060, 16, 0x400, 1, 0x4, 0xE10, 0x0, 0x0, 0x1FFFF, 0x0, 0x0, 0x0, 0x0, 9, false, false, false⟩ /- PAD_n_HWIN -/,
  ⟨0x030064, 16, 0x400, 1, 0x4, 0x3C003C, 0x0, 0x0, 0xFFFFFFFF, 0x0, 0x0, 0x0, 0x0, 9, false, false, false⟩ /- PAD_n_HGUARD -/,
  ⟨0x030068, 16, 0x400, 1, 0x4, 0x0, 0x0, 0x1FFFF, 0x0, 0x0, 0x0, 0x0, 0x0, 8, false, false, false⟩ /- PAD_n_HSTAT -/,
  ⟨0x03006C, 16, 0x400, 1, 0x4, 0x0, 0x0, 0xFFFFFFFF, 0x0, 0x0, 0x0, 0x0, 0x0, 8, false, false, false⟩ /- PAD_n_HGEFF -/,
  ⟨0x030074, 16, 0x400, 1, 0x4, 0x0, 0x0, 0xFFFFFFFF, 0x0, 0x0, 0x0, 0x0, 0x0, 8, true, false, false⟩ /- PAD_n_UPD -/,
  ⟨0x030078, 16, 0x400, 1, 0x4, 0x0, 0x0, 0xFFFFFFFF, 0x0, 0x0, 0x0, 0x0, 0x0, 8, true, false, false⟩ /- PAD_n_SKIP -/,
  ⟨0x030080, 16, 0x400, 1, 0x4, 0x0, 0x0, 0x0, 0x0, 0x0, 0x0, 0xFFFFFFFF, 0x0, 8, false, false, false⟩ /- PAD_n_SFO_LO -/,
  ⟨0x030084, 16, 0x400, 1, 0x4, 0x0, 0x0, 0x0, 0x0, 0x0, 0x0, 0xFFFFFFFF, 0x0, 8, false, false, false⟩ /- PAD_n_SFO_HI -/,
  ⟨0x030088, 16, 0x400, 1, 0x4, 0xFFFFFFFF, 0x0, 0x0, 0x0, 0x0, 0x0, 0xFFFFFFFF, 0x0, 8, false, false, false⟩ /- PAD_n_SFO_LO_C -/,
  ⟨0x03008C, 16, 0x400, 1, 0x4, 0xFFFFFFFF, 0x0, 0x0, 0x0, 0x0, 0x0, 0xFFFFFFFF, 0x0, 8, false, false, false⟩ /- PAD_n_SFO_HI_C -/,
  ⟨0x030090, 16, 0x400, 1, 0x4, 0x0, 0x0, 0x0, 0x0, 0x0, 0x0, 0xFFFFFFFF, 0x0, 8, false, false, false⟩ /- PAD_n_SPO -/,
  ⟨0x030094, 16, 0x400, 1, 0x4, 0xFFFFFFFF, 0x0, 0x0, 0x0, 0x0, 0x0, 0xFFFFFFFF, 0x0, 8, false, false, false⟩ /- PAD_n_SPO_C -/,
  ⟨0x030098, 16, 0x400, 1, 0x4, 0xA0003E8, 0x0, 0x0, 0xFF00FFFF, 0x0, 0x0, 0x0, 0x0, 9, false, false, false⟩ /- PAD_n_SCFG -/,
  ⟨0x0300A0, 16, 0x400, 1, 0x4, 0x3E8, 0x0, 0x0, 0x8F0FFFFF, 0x0, 0x0, 0x0, 0x0, 9, false, false, false⟩ /- PAD_n_TEL -/,
  ⟨0x0300A4, 16, 0x400, 1, 0x4, 0x0, 0x0, 0x0, 0xFFFFFFFF, 0x0, 0x0, 0x0, 0x0, 9, false, false, false⟩ /- PAD_n_TEL_TAG -/,
  ⟨0x0300B0, 16, 0x400, 1, 0x4, 0x0, 0xFFFFFFFF, 0x0, 0x0, 0x0, 0x0, 0x0, 0x0, 8, false, false, false⟩ /- PAD_n_TSTEP_SEC -/,
  ⟨0x0300B4, 16, 0x400, 1, 0x4, 0x0, 0xFFFFFFFF, 0x0, 0x0, 0x0, 0x0, 0x0, 0x0, 8, false, false, false⟩ /- PAD_n_TSTEP_NS -/]
def regRows03_1 : List RegRow := [
  ⟨0x0300B8, 16, 0x400, 1, 0x4, 0x0, 0x0, 0x0, 0x0, 0x0, 0x1, 0x0, 0x0, 8, false, false, false⟩ /- PAD_n_TSTEP_CMD -/,
  ⟨0x0300BC, 16, 0x400, 1, 0x4, 0x3E80000, 0x0, 0x0, 0xFFFFFFFF, 0x0, 0x0, 0x0, 0x0, 9, false, false, false⟩ /- PAD_n_STEP_THR -/,
  ⟨0x0300C0, 16, 0x400, 1, 0x4, 0x0, 0x0, 0x0, 0x0, 0xFF00001F, 0x0, 0x0, 0x0, 8, false, false, false⟩ /- PAD_n_ERR -/,
  ⟨0x0300C8, 16, 0x400, 1, 0x4, 0x0, 0x0, 0xFFFFFFFF, 0x0, 0x0, 0x0, 0x0, 0x0, 8, false, false, false⟩ /- PAD_n_BO_LO -/,
  ⟨0x0300CC, 16, 0x400, 1, 0x4, 0x0, 0x0, 0xFFFF, 0x0, 0x0, 0x0, 0x0, 0x0, 8, false, false, false⟩ /- PAD_n_BO_HI -/,
  ⟨0x030100, 16, 0x400, 64, 0x4, 0x0, 0x0, 0xFFFFFFFF, 0x0, 0x0, 0x0, 0x0, 0xFFFFFFFF, 8, false, false, false⟩ /- PAD_n_UCODE_i -/,
  ⟨0x030200, 16, 0x400, 8, 0x10, 0x0, 0x0, 0xBF000000, 0xF0100, 0x0, 0x0, 0x0, 0xBF0F0000, 9, false, false, false⟩ /- PAD_n_CAND_i_CFG -/,
  ⟨0x030204, 16, 0x400, 8, 0x10, 0x0, 0x0, 0x0, 0xFFFFFFFF, 0x0, 0x0, 0x0, 0xFFFFFFFF, 9, false, false, false⟩ /- PAD_n_CAND_i_POFF -/,
  ⟨0x030208, 16, 0x400, 8, 0x10, 0x0, 0x0, 0xF800000F, 0x0, 0x0, 0x0, 0x0, 0x0, 8, false, false, false⟩ /- PAD_n_CAND_i_STAT -/,
  ⟨0x030280, 16, 0x400, 1, 0x4, 0x10000000, 0x0, 0x0, 0xF7300000, 0x0, 0x0, 0x0, 0x80000000, 9, false, false, false⟩ /- PAD_n_SEL -/,
  ⟨0x030284, 16, 0x400, 1, 0x4, 0x200003E8, 0x0, 0x0, 0xB000FFFF, 0x0, 0x0, 0x0, 0x80000000, 9, false, false, false⟩ /- PAD_n_SWCFG -/,
  ⟨0x030288, 16, 0x400, 1, 0x4, 0x14, 0x0, 0x0, 0xFFFF, 0x0, 0x0, 0x0, 0x0, 9, false, false, false⟩ /- PAD_n_VOTE -/,
  ⟨0x03028C, 16, 0x400, 1, 0x4, 0x0, 0x0, 0xFF00007F, 0x0, 0x0, 0x0, 0x0, 0x0, 8, false, false, false⟩ /- PAD_n_SEL_STAT -/,
  ⟨0x030290, 16, 0x400, 1, 0x4, 0x0, 0x0, 0xFFFFFFFF, 0x0, 0x0, 0x0, 0x0, 0x0, 8, false, false, false⟩ /- PAD_n_PULL_REM_LO -/,
  ⟨0x030294, 16, 0x400, 1, 0x4, 0x0, 0x0, 0xFFFF, 0x0, 0x0, 0x0, 0x0, 0x0, 8, false, false, false⟩ /- PAD_n_PULL_REM_HI -/,
  ⟨0x030298, 16, 0x400, 1, 0x4, 0x0, 0x0, 0x0, 0x0, 0xFF00001F, 0x0, 0x0, 0x0, 8, false, false, false⟩ /- PAD_n_SEL_EVT -/,
  ⟨0x03029C, 16, 0x400, 1, 0x4, 0x0, 0x1F, 0x0, 0x0, 0x0, 0x0, 0x0, 0x0, 8, false, false, false⟩ /- PAD_n_SEL_IEN -/,
  ⟨0x0302A0, 16, 0x400, 1, 0x4, 0x0, 0x0, 0xFFFFFFFF, 0x0, 0x0, 0x0, 0x0, 0x0, 8, true, false, false⟩ /- PAD_n_SWCNT -/]
def regRows03 : List RegRow := regRows03_0 ++ regRows03_1

def regRows04_0 : List RegRow := [
  ⟨0x040000, 6, 0x200, 1, 0x4, 0x0, 0x0, 0xC1FF0000, 0x0, 0x0, 0x0, 0x0, 0xC1FF0000, 8, false, false, false⟩ /- FLOCK_n_CFG -/,
  ⟨0x040004, 6, 0x200, 1, 0x4, 0x0, 0x0, 0xFFFFFFFF, 0x0, 0x0, 0x0, 0x0, 0xFFFFFFFF, 8, false, false, false⟩ /- FLOCK_n_NOM_LO -/,
  ⟨0x040008, 6, 0x200, 1, 0x4, 0x0, 0x0, 0xFFFF, 0x0, 0x0, 0x0, 0x0, 0xFFFF, 8, false, false, false⟩ /- FLOCK_n_NOM_HI -/,
  ⟨0x04000C, 6, 0x200, 1, 0x4, 0x0, 0x0, 0x0, 0x7, 0x0, 0x0, 0x0, 0x7, 4, false, false, false⟩ /- FLOCK_n_CTL -/,
  ⟨0x040010, 6, 0x200, 1, 0x4, 0x0, 0x0, 0xFFFFFFFF, 0x0, 0x0, 0x0, 0x0, 0x0, 8, false, false, false⟩ /- FLOCK_n_N_LO -/,
  ⟨0x040014, 6, 0x200, 1, 0x4, 0x0, 0x0, 0x1FFFFFF, 0x0, 0x0, 0x0, 0x0, 0x0, 8, false, false, false⟩ /- FLOCK_n_N_HI -/,
  ⟨0x040018, 6, 0x200, 1, 0x4, 0x0, 0x0, 0x0, 0x0, 0x0, 0x1, 0x0, 0x0, 8, false, false, false⟩ /- FLOCK_n_CMD -/,
  ⟨0x04001C, 6, 0x200, 1, 0x4, 0x0, 0x0, 0xEF0000FF, 0x0, 0x0, 0x0, 0x0, 0x2F000000, 8, false, false, false⟩ /- FLOCK_n_STAT -/,
  ⟨0x040020, 6, 0x200, 1, 0x4, 0x0, 0x0, 0x0, 0x0, 0xFF00001F, 0x0, 0x0, 0x0, 8, false, false, false⟩ /- FLOCK_n_EVT -/,
  ⟨0x040024, 6, 0x200, 1, 0x4, 0x0, 0x0, 0xFFFFFFFF, 0x0, 0x0, 0x0, 0x0, 0x0, 8, true, false, false⟩ /- FLOCK_n_LOL_CNT -/,
  ⟨0x040028, 6, 0x200, 1, 0x4, 0x0, 0x1F, 0x0, 0x0, 0x0, 0x0, 0x0, 0x0, 8, false, false, false⟩ /- FLOCK_n_IEN -/,
  ⟨0x040040, 6, 0x200, 2, 0x10, 0x0, 0x0, 0x80FFFFFF, 0x0, 0x0, 0x0, 0x0, 0x80FFFFFF, 8, false, false, false⟩ /- FLOCK_n_FDIV_i_CFG -/,
  ⟨0x040044, 6, 0x200, 2, 0x10, 0x0, 0x0, 0xFFFFFF, 0x0, 0x0, 0x0, 0x0, 0xFFFFFF, 8, false, false, false⟩ /- FLOCK_n_FDIV_i_NUM -/,
  ⟨0x040048, 6, 0x200, 2, 0x10, 0x0, 0x0, 0xFFFFFF, 0x0, 0x0, 0x0, 0x0, 0xFFFFFF, 8, false, false, false⟩ /- FLOCK_n_FDIV_i_DEN -/]
def regRows04 : List RegRow := regRows04_0

def regRows05_0 : List RegRow := [
  ⟨0x050000, 24, 0x80, 1, 0x4, 0x0, 0x0, 0xFF800000, 0x0, 0x0, 0x0, 0x0, 0xFF800000, 8, false, false, false⟩ /- OUT_n_CFG -/,
  ⟨0x050004, 24, 0x80, 1, 0x4, 0x0, 0x0, 0x1FFFFFF, 0x0, 0x0, 0x0, 0x0, 0x1FFFFFF, 8, false, false, false⟩ /- OUT_n_DIV -/,
  ⟨0x050008, 24, 0x80, 1, 0x4, 0x0, 0x0, 0x0, 0xFF800000, 0x0, 0x0, 0x0, 0x81800000, 4, false, false, false⟩ /- OUT_n_CTL -/,
  ⟨0x05000C, 24, 0x80, 1, 0x4, 0x0, 0x0, 0x0, 0xFF000FFF, 0x0, 0x0, 0x0, 0x0, 4, false, false, false⟩ /- OUT_n_DELAY -/,
  ⟨0x050010, 24, 0x80, 1, 0x4, 0x0, 0x0, 0xFF801FFF, 0x0, 0x0, 0x0, 0x0, 0x0, 8, false, false, false⟩ /- OUT_n_ATRIM -/,
  ⟨0x050014, 24, 0x80, 1, 0x4, 0x0, 0x0, 0xFF800FFF, 0x0, 0x0, 0x0, 0x0, 0x0, 8, false, false, false⟩ /- OUT_n_DELAY_STAT -/,
  ⟨0x050018, 24, 0x80, 1, 0x4, 0x0, 0x0, 0xF8000000, 0x0, 0x0, 0x0, 0x0, 0x0, 8, false, false, false⟩ /- OUT_n_STAT -/,
  ⟨0x05001C, 24, 0x80, 1, 0x4, 0x0, 0x0, 0x0, 0x0, 0xFF00001F, 0x0, 0x0, 0x0, 8, false, false, false⟩ /- OUT_n_EVT -/,
  ⟨0x050020, 24, 0x80, 1, 0x4, 0x0, 0x1F, 0x0, 0x0, 0x0, 0x0, 0x0, 0x0, 8, false, false, false⟩ /- OUT_n_IEN -/,
  ⟨0x050024, 24, 0x80, 1, 0x4, 0x0, 0x0, 0x0, 0xFFFFFFFF, 0x0, 0x0, 0x0, 0x0, 4, false, false, false⟩ /- OUT_n_ALIGN_TGT -/,
  ⟨0x050028, 24, 0x80, 1, 0x4, 0x0, 0x0, 0xFFFFFFFF, 0x0, 0x0, 0x0, 0x0, 0x0, 8, false, false, false⟩ /- OUT_n_ALIGN_RES -/,
  ⟨0x050C00, 1, 0x4, 1, 0x4, 0x0, 0x80001F1F, 0x0, 0x0, 0x0, 0x0, 0x0, 0x0, 8, false, false, false⟩ /- OUT_TEE -/,
  ⟨0x050C04, 1, 0x4, 1, 0x4, 0x0, 0x0, 0x0, 0x0, 0xFF000001, 0x0, 0x0, 0x0, 8, false, false, false⟩ /- OUT_ERR -/,
  ⟨0x050C08, 1, 0x4, 1, 0x4, 0x0, 0x0, 0xFFFFFF, 0x0, 0x0, 0x0, 0x0, 0x0, 8, false, false, false⟩ /- OUT_RUN_MAP -/,
  ⟨0x051000, 4, 0x40, 1, 0x4, 0x0, 0x0, 0xFF800000, 0x0, 0x0, 0x0, 0x0, 0xFF800000, 8, false, false, false⟩ /- PSYN_n_CFG -/,
  ⟨0x051004, 4, 0x40, 1, 0x4, 0x0, 0x0, 0xFFFFFFFF, 0x0, 0x0, 0x0, 0x0, 0xFFFFFFFF, 8, false, false, false⟩ /- PSYN_n_PERIOD_LO -/,
  ⟨0x051008, 4, 0x40, 1, 0x4, 0x0, 0x0, 0xFFFF, 0x0, 0x0, 0x0, 0x0, 0xFFFF, 8, false, false, false⟩ /- PSYN_n_PERIOD_HI -/,
  ⟨0x05100C, 4, 0x40, 1, 0x4, 0x0, 0x0, 0x0, 0xFFFFFFFF, 0x0, 0x0, 0x0, 0xFFFFFFFF, 4, false, false, false⟩ /- PSYN_n_OFFSET_LO -/,
  ⟨0x051010, 4, 0x40, 1, 0x4, 0x0, 0x0, 0x0, 0xFFFF, 0x0, 0x0, 0x0, 0xFFFF, 4, false, false, false⟩ /- PSYN_n_OFFSET_HI -/,
  ⟨0x051014, 4, 0x40, 1, 0x4, 0x0, 0x0, 0x0, 0xFFFFFFFF, 0x0, 0x0, 0x0, 0xFFFFFFFF, 4, false, false, false⟩ /- PSYN_n_WIDTH -/,
  ⟨0x051018, 4, 0x40, 1, 0x4, 0x0, 0x0, 0xC0000000, 0x0, 0x0, 0x0, 0x0, 0x0, 8, false, false, false⟩ /- PSYN_n_STAT -/,
  ⟨0x05101C, 4, 0x40, 1, 0x4, 0x0, 0x0, 0x0, 0x0, 0xFF000007, 0x0, 0x0, 0x0, 8, false, false, false⟩ /- PSYN_n_EVT -/,
  ⟨0x051020, 4, 0x40, 1, 0x4, 0x0, 0x0, 0xFFFFFFFF, 0x0, 0x0, 0x0, 0x0, 0x0, 8, true, false, false⟩ /- PSYN_n_CNT -/]
def regRows05 : List RegRow := regRows05_0

def regRows06_0 : List RegRow := [
  ⟨0x060000, 1, 0x4, 1, 0x4, 0x3, 0x0, 0x0, 0x3, 0x0, 0x0, 0x0, 0x0, 5, false, false, false⟩ /- MEAS_CTL -/,
  ⟨0x060004, 1, 0x4, 1, 0x4, 0x0, 0x0, 0x0, 0x0, 0xFF0003FF, 0x0, 0x0, 0x0, 8, false, false, false⟩ /- MEAS_STAT -/,
  ⟨0x060008, 1, 0x4, 1, 0x4, 0x0, 0x0, 0x3FFFFFFF, 0x0, 0x0, 0x0, 0x0, 0x0, 8, false, false, false⟩ /- MEAS_POOL -/,
  ⟨0x06000C, 1, 0x4, 1, 0x4, 0x0, 0x0, 0x3F, 0x0, 0x0, 0x0, 0x0, 0x3F, 8, false, false, false⟩ /- MEAS_POOL_CFG -/,
  ⟨0x060010, 1, 0x4, 1, 0x4, 0xA0814, 0x0, 0x0, 0x3FFFFFF, 0x0, 0x0, 0x0, 0x0, 5, false, false, false⟩ /- MEAS_CAL_CFG -/,
  ⟨0x060014, 1, 0x4, 1, 0x4, 0xE10, 0x0, 0x0, 0xFFFFF, 0x0, 0x0, 0x0, 0x0, 5, false, false, false⟩ /- MEAS_CAL_AGE -/,
  ⟨0x060018, 1, 0x4, 1, 0x4, 0x3F00000, 0x0, 0x3FFFFFF, 0x0, 0x0, 0x0, 0x0, 0x0, 8, false, false, false⟩ /- MEAS_CAL_STAT -/,
  ⟨0x06001C, 1, 0x4, 1, 0x4, 0x0, 0x3F, 0x0, 0x0, 0x0, 0x80000000, 0x0, 0x0, 8, false, false, false⟩ /- MEAS_CELL_CMD -/,
  ⟨0x060020, 1, 0x4, 1, 0x4, 0x0, 0x0, 0x0, 0x0, 0xFF000007, 0x0, 0x0, 0x0, 8, false, false, false⟩ /- MEAS_ERR -/,
  ⟨0x060100, 1, 0x4, 48, 0x4, 0x0, 0x0, 0xFFFFFFFF, 0x0, 0x0, 0x0, 0x0, 0x0, 8, false, false, false⟩ /- CELL_i_STAT -/,
  ⟨0x061000, 1, 0x4, 64, 0x20, 0x0, 0x0, 0x80000000, 0x1E000000, 0x0, 0x0, 0x0, 0x9E000000, 5, false, false, false⟩ /- MCH_i_CFG -/,
  ⟨0x061004, 1, 0x4, 64, 0x20, 0x1, 0x0, 0x0, 0xFFFFFFFF, 0x0, 0x0, 0x0, 0xFFFFFFFF, 5, false, false, false⟩ /- MCH_i_DEC -/,
  ⟨0x061008, 1, 0x4, 64, 0x20, 0x0, 0x0, 0xFFFFFFFF, 0x0, 0x0, 0x0, 0x0, 0x0, 8, false, false, false⟩ /- MCH_i_PATH -/,
  ⟨0x06100C, 1, 0x4, 64, 0x20, 0x0, 0x0, 0x0, 0xFFFFFFFF, 0x0, 0x0, 0x0, 0xFFFFFFFF, 5, false, false, false⟩ /- MCH_i_TRIM -/,
  ⟨0x061010, 1, 0x4, 64, 0x20, 0x0, 0x0, 0x0, 0x0, 0xFF00001F, 0x0, 0x0, 0x0, 8, false, false, false⟩ /- MCH_i_STAT -/,
  ⟨0x061014, 1, 0x4, 64, 0x20, 0x0, 0x0, 0xFFFFFFFF, 0x0, 0x0, 0x0, 0x0, 0x0, 8, true, false, false⟩ /- MCH_i_FWD -/,
  ⟨0x061018, 1, 0x4, 64, 0x20, 0x0, 0x0, 0xFFFFFFFF, 0x0, 0x0, 0x0, 0x0, 0x0, 8, true, false, false⟩ /- MCH_i_LOST -/,
  ⟨0x062000, 1, 0x4, 1, 0x4, 0x0, 0xFFFFF600, 0x0, 0x0, 0x0, 0x0, 0x0, 0x0, 8, false, true, false⟩ /- MEAS_REQ_W0 -/,
  ⟨0x062004, 1, 0x4, 1, 0x4, 0x0, 0xFFFFFFFF, 0x0, 0x0, 0x0, 0x0, 0x0, 0x0, 8, false, true, false⟩ /- MEAS_REQ_W1 -/,
  ⟨0x062008, 1, 0x4, 1, 0x4, 0x0, 0xFFFFFFFF, 0x0, 0x0, 0x0, 0x0, 0x0, 0x0, 8, false, true, false⟩ /- MEAS_REQ_W2 -/,
  ⟨0x06200C, 1, 0x4, 1, 0x4, 0x0, 0xFFFFFFFF, 0x0, 0x0, 0x0, 0x0, 0x0, 0x0, 8, false, true, false⟩ /- MEAS_REQ_W3 -/,
  ⟨0x062010, 1, 0x4, 1, 0x4, 0x0, 0xFFFFFFFF, 0x0, 0x0, 0x0, 0x0, 0x0, 0x0, 8, false, true, false⟩ /- MEAS_REQ_W4 -/,
  ⟨0x062014, 1, 0x4, 1, 0x4, 0x0, 0xFFFFFFFF, 0x0, 0x0, 0x0, 0x0, 0x0, 0x0, 8, false, true, false⟩ /- MEAS_REQ_W5 -/,
  ⟨0x062018, 1, 0x4, 1, 0x4, 0x0, 0x0, 0x0, 0x0, 0x0, 0x1, 0x0, 0x0, 8, false, false, false⟩ /- MEAS_REQ_PUSH -/,
  ⟨0x06201C, 1, 0x4, 1, 0x4, 0x0, 0x0, 0xCF7F0000, 0x0, 0x0, 0x0, 0x0, 0x0, 8, false, true, false⟩ /- MEAS_REQ_RESULT -/,
  ⟨0x062020, 1, 0x4, 1, 0x4, 0x0, 0x0, 0xFFFFFF, 0x0, 0x0, 0x0, 0x0, 0x0, 8, false, false, false⟩ /- MEAS_Q_STAT -/,
  ⟨0x062030, 1, 0x4, 1, 0x4, 0x0, 0x6F00007F, 0x0, 0x0, 0x0, 0x80000000, 0x0, 0x0, 8, false, false, false⟩ /- MEAS_ABORT -/,
  ⟨0x062034, 1, 0x4, 1, 0x4, 0x0, 0x0, 0xC0FFFF00, 0x0, 0x0, 0x0, 0x0, 0x0, 8, false, true, false⟩ /- MEAS_ABORT_RESULT -/,
  ⟨0x062038, 1, 0x4, 1, 0x4, 0x0, 0xFFFFFFFF, 0x0, 0x0, 0x0, 0x0, 0x0, 0x0, 8, false, true, false⟩ /- MEAS_ABORT_TAG -/,
  ⟨0x062040, 1, 0x4, 1, 0x4, 0x0, 0x0, 0x0, 0x0, 0xFF000007, 0x0, 0x0, 0x0, 8, false, false, false⟩ /- MEAS_Q_ERR -/,
  ⟨0x062044, 1, 0x4, 1, 0x4, 0x0, 0x0, 0xFFFFFFFF, 0x0, 0x0, 0x0, 0x0, 0x0, 8, true, false, false⟩ /- MEAS_ACCEPTED -/,
  ⟨0x062048, 1, 0x4, 1, 0x4, 0x0, 0x0, 0xFFFFFFFF, 0x0, 0x0, 0x0, 0x0, 0x0, 8, true, false, false⟩ /- MEAS_REJECTED -/]
def regRows06 : List RegRow := regRows06_0

def regRows07_0 : List RegRow := [
  ⟨0x070000, 16, 0x40, 1, 0x4, 0x0, 0x0, 0x0, 0xE73F0000, 0x0, 0x0, 0x0, 0x0, 5, false, false, false⟩ /- TQ_n_CFG -/,
  ⟨0x070004, 16, 0x40, 1, 0x4, 0x0, 0x0, 0xFFFF, 0x0, 0x0, 0x0, 0x0, 0x0, 8, false, false, false⟩ /- TQ_n_HEAD -/,
  ⟨0x070008, 16, 0x40, 1, 0x4, 0x0, 0xFFFF, 0x0, 0x0, 0x0, 0x0, 0x0, 0x0, 8, false, false, false⟩ /- TQ_n_TAIL -/,
  ⟨0x07000C, 16, 0x40, 1, 0x4, 0x0, 0x0, 0x0, 0x7FFF, 0x0, 0x0, 0x0, 0x0, 5, false, false, false⟩ /- TQ_n_WM -/,
  ⟨0x070010, 16, 0x40, 1, 0x4, 0x0, 0x0, 0x82, 0x0, 0xFF00007D, 0x0, 0x0, 0x0, 8, false, false, false⟩ /- TQ_n_STAT -/,
  ⟨0x070014, 16, 0x40, 1, 0x4, 0x0, 0x0, 0xFFFFFFFF, 0x0, 0x0, 0x0, 0x0, 0x0, 8, true, false, false⟩ /- TQ_n_DROP -/,
  ⟨0x070018, 16, 0x40, 1, 0x4, 0x0, 0x0, 0x0, 0x0, 0x0, 0x1, 0x0, 0x0, 8, false, false, false⟩ /- TQ_n_CMD -/,
  ⟨0x07001C, 16, 0x40, 1, 0x4, 0x0, 0x0, 0xFF, 0x0, 0x0, 0x0, 0x0, 0x0, 8, false, false, false⟩ /- TQ_n_PEND -/,
  ⟨0x071000, 1, 0x4, 1, 0x4, 0x3, 0x0, 0x0, 0x80030003, 0x0, 0x0, 0x0, 0x0, 5, false, false, false⟩ /- TP_CTL -/,
  ⟨0x071004, 1, 0x4, 1, 0x4, 0x640064, 0x0, 0x0, 0xFFFFFFFF, 0x0, 0x0, 0x0, 0x0, 5, false, false, false⟩ /- TP_TIMER -/,
  ⟨0x071008, 1, 0x4, 1, 0x4, 0x0, 0x0, 0x7, 0x0, 0x0, 0x0, 0x0, 0x0, 8, false, false, false⟩ /- TP_STAT -/,
  ⟨0x07100C, 1, 0x4, 1, 0x4, 0x0, 0x0, 0x0, 0x0, 0xFF00001F, 0x0, 0x0, 0x0, 8, false, false, false⟩ /- TP_EVT -/,
  ⟨0x071010, 1, 0x4, 1, 0x4, 0x0, 0x0, 0xFFFFFFFF, 0x0, 0x0, 0x0, 0x0, 0x0, 8, true, false, false⟩ /- TP_FRAMES -/,
  ⟨0x071014, 1, 0x4, 1, 0x4, 0x0, 0x0, 0xFFFFFFFF, 0x0, 0x0, 0x0, 0x0, 0x0, 8, true, false, false⟩ /- TP_REPLAYS -/,
  ⟨0x071018, 1, 0x4, 1, 0x4, 0x0, 0x0, 0xFFFFFFFF, 0x0, 0x0, 0x0, 0x0, 0x0, 8, true, false, false⟩ /- TP_ACK_ERR -/]
def regRows07 : List RegRow := regRows07_0

def regRows08_0 : List RegRow := [
  ⟨0x080000, 4, 0x40, 1, 0x4, 0x0, 0x1F, 0x0, 0x0, 0x0, 0x0, 0x0, 0x0, 8, false, false, false⟩ /- CHK_n_CFG -/,
  ⟨0x080004, 4, 0x40, 1, 0x4, 0x0, 0xFFFFFF, 0x0, 0x0, 0x0, 0x0, 0x0, 0x0, 8, false, false, false⟩ /- CHK_n_START -/,
  ⟨0x080008, 4, 0x40, 1, 0x4, 0x0, 0xFFFFFF, 0x0, 0x0, 0x0, 0x0, 0x0, 0x0, 8, false, false, false⟩ /- CHK_n_LEN -/,
  ⟨0x08000C, 4, 0x40, 1, 0x4, 0x0, 0xFFFFFFFF, 0x0, 0x0, 0x0, 0x0, 0x0, 0x0, 8, false, false, false⟩ /- CHK_n_TAG -/,
  ⟨0x080010, 4, 0x40, 1, 0x4, 0x0, 0xFFFFFFFF, 0x0, 0x0, 0x0, 0x0, 0x0, 0x0, 8, false, false, false⟩ /- CHK_n_FOLD -/,
  ⟨0x080014, 4, 0x40, 1, 0x4, 0x0, 0xFFFFFFFF, 0x0, 0x0, 0x0, 0x0, 0x0, 0x0, 8, false, false, false⟩ /- CHK_n_EXP_LO -/,
  ⟨0x080018, 4, 0x40, 1, 0x4, 0x0, 0xFFFFFFFF, 0x0, 0x0, 0x0, 0x0, 0x0, 0x0, 8, false, false, false⟩ /- CHK_n_EXP_HI -/,
  ⟨0x08001C, 4, 0x40, 1, 0x4, 0x0, 0xFFFFFFFF, 0x0, 0x0, 0x0, 0x0, 0x0, 0x0, 8, false, false, false⟩ /- CHK_n_EXPC_LO -/,
  ⟨0x080020, 4, 0x40, 1, 0x4, 0x0, 0xFFFFFFFF, 0x0, 0x0, 0x0, 0x0, 0x0, 0x0, 8, false, false, false⟩ /- CHK_n_EXPC_HI -/,
  ⟨0x080024, 4, 0x40, 1, 0x4, 0x0, 0x0, 0xFFFFFFFF, 0x0, 0x0, 0x0, 0x0, 0x0, 8, false, false, false⟩ /- CHK_n_RES_LO -/,
  ⟨0x080028, 4, 0x40, 1, 0x4, 0x0, 0x0, 0xFFFFFFFF, 0x0, 0x0, 0x0, 0x0, 0x0, 8, false, false, false⟩ /- CHK_n_RES_HI -/,
  ⟨0x08002C, 4, 0x40, 1, 0x4, 0x0, 0x0, 0xFFF00000, 0x0, 0x0, 0x0, 0x0, 0x0, 8, false, false, false⟩ /- CHK_n_STAT -/,
  ⟨0x080030, 4, 0x40, 1, 0x4, 0x0, 0x0, 0x0, 0x0, 0x0, 0xC0000000, 0x0, 0x0, 8, false, false, false⟩ /- CHK_n_CMD -/,
  ⟨0x080034, 4, 0x40, 1, 0x4, 0x0, 0x0, 0x0, 0x0, 0xFF00001F, 0x0, 0x0, 0x0, 8, false, false, false⟩ /- CHK_n_EVT -/,
  ⟨0x080038, 4, 0x40, 1, 0x4, 0x0, 0x1F, 0x0, 0x0, 0x0, 0x0, 0x0, 0x0, 8, false, false, false⟩ /- CHK_n_IEN -/,
  ⟨0x08003C, 4, 0x40, 1, 0x4, 0x0, 0x0, 0xFFFFFFFF, 0x0, 0x0, 0x0, 0x0, 0x0, 8, true, false, false⟩ /- CHK_n_JOBS -/,
  ⟨0x080100, 1, 0x4, 1, 0x4, 0x0, 0x0, 0xF, 0x0, 0x0, 0x0, 0x0, 0x0, 8, false, false, false⟩ /- DRV_STAT -/]
def regRows08 : List RegRow := regRows08_0

def regRows09_0 : List RegRow := [
  ⟨0x090000, 1, 0x4, 1, 0x4, 0x1, 0x1, 0x0, 0x0, 0x0, 0x0, 0x0, 0x0, 8, false, false, false⟩ /- NVM_CTL -/,
  ⟨0x090004, 1, 0x4, 1, 0x4, 0x0, 0x0, 0xFFE001FF, 0x0, 0x0, 0x0, 0x0, 0x0, 8, false, false, false⟩ /- NVM_STAT -/,
  ⟨0x090008, 1, 0x4, 1, 0x4, 0x0, 0x0, 0x0, 0x0, 0xFF001FFF, 0x0, 0x0, 0x0, 8, false, false, false⟩ /- NVM_EVT -/,
  ⟨0x09000C, 1, 0x4, 1, 0x4, 0x0, 0x1FFF, 0x0, 0x0, 0x0, 0x0, 0x0, 0x0, 8, false, false, false⟩ /- NVM_IEN -/,
  ⟨0x090010, 1, 0x4, 1, 0x4, 0x0, 0x700F01FF, 0x0, 0x0, 0x0, 0x80000000, 0x0, 0x0, 8, false, false, true⟩ /- NVM_CMD -/,
  ⟨0x090014, 1, 0x4, 1, 0x4, 0x0, 0x0, 0x80FF01FF, 0x0, 0x0, 0x0, 0x0, 0x0, 8, false, false, false⟩ /- NVM_RESULT -/,
  ⟨0x090018, 1, 0x4, 1, 0x4, 0x0, 0xFFFFFFFF, 0x0, 0x0, 0x0, 0x0, 0x0, 0x0, 8, false, false, true⟩ /- NVM_UNLOCK_LO -/,
  ⟨0x09001C, 1, 0x4, 1, 0x4, 0x0, 0xFFFFFFFF, 0x0, 0x0, 0x0, 0x0, 0x0, 0x0, 8, false, false, true⟩ /- NVM_UNLOCK_HI -/,
  ⟨0x090020, 1, 0x4, 1, 0x4, 0x0, 0x400001FF, 0x0, 0x0, 0x0, 0x80000000, 0x0, 0x0, 8, false, false, true⟩ /- NVM_UNLOCK_CMD -/,
  ⟨0x090024, 1, 0x4, 1, 0x4, 0x0, 0x0, 0x3F3F3F3F, 0x0, 0x0, 0x0, 0x0, 0x0, 8, false, false, false⟩ /- NVM_KEY_STAT -/,
  ⟨0x090028, 1, 0x4, 1, 0x4, 0x1800A8, 0xFFFFFFFF, 0x0, 0x0, 0x0, 0x0, 0x0, 0x0, 8, false, false, false⟩ /- NVM_PATROL_CFG -/,
  ⟨0x09002C, 1, 0x4, 1, 0x4, 0x0, 0x0, 0xC00001FF, 0x0, 0x0, 0x0, 0x0, 0x0, 8, false, false, false⟩ /- NVM_PATROL_STAT -/,
  ⟨0x090030, 1, 0x4, 1, 0x4, 0x0, 0x0, 0x800001FF, 0x0, 0x0, 0x0, 0x0, 0x0, 8, false, false, false⟩ /- NVM_VHOLD -/,
  ⟨0x090034, 1, 0x4, 1, 0x4, 0x0, 0x0, 0xFFFFFFFF, 0x0, 0x0, 0x0, 0x0, 0x0, 8, true, false, false⟩ /- NVM_SEC_CNT -/,
  ⟨0x090038, 1, 0x4, 1, 0x4, 0x0, 0x0, 0xFFFFFFFF, 0x0, 0x0, 0x0, 0x0, 0x0, 8, true, false, false⟩ /- NVM_DED_CNT -/,
  ⟨0x09003C, 1, 0x4, 1, 0x4, 0x0, 0x0, 0xFFFFFFFF, 0x0, 0x0, 0x0, 0x0, 0x0, 8, true, false, false⟩ /- NVM_REFRESH_CNT -/,
  ⟨0x090040, 1, 0x4, 1, 0x4, 0x0, 0x0, 0xFFFFFFFF, 0x0, 0x0, 0x0, 0x0, 0x0, 8, true, false, false⟩ /- NVM_OPS_CNT -/,
  ⟨0x090080, 1, 0x4, 1, 0x4, 0x0, 0x6000001F, 0x0, 0x0, 0x0, 0x80000000, 0x0, 0x0, 8, false, false, false⟩ /- NVM_CNT_CMD -/,
  ⟨0x090084, 1, 0x4, 1, 0x4, 0x0, 0xFFFFFFFF, 0x0, 0x0, 0x0, 0x0, 0x0, 0x0, 8, false, false, false⟩ /- NVM_CNT_ARG_LO -/,
  ⟨0x090088, 1, 0x4, 1, 0x4, 0x0, 0xFFFFFFFF, 0x0, 0x0, 0x0, 0x0, 0x0, 0x0, 8, false, false, false⟩ /- NVM_CNT_ARG_HI -/,
  ⟨0x09008C, 1, 0x4, 1, 0x4, 0x0, 0x0, 0xE00000FF, 0x0, 0x0, 0x0, 0x0, 0x0, 8, false, false, false⟩ /- NVM_CNT_STAT -/,
  ⟨0x090100, 1, 0x4, 32, 0x8, 0x0, 0x0, 0xFFFFFFFF, 0x0, 0x0, 0x0, 0x0, 0x0, 8, false, false, false⟩ /- NVM_CNT_i_LO -/,
  ⟨0x090104, 1, 0x4, 32, 0x8, 0x0, 0x0, 0xFFFFFFFF, 0x0, 0x0, 0x0, 0x0, 0x0, 8, false, false, false⟩ /- NVM_CNT_i_HI -/,
  ⟨0x091000, 1, 0x4, 128, 0x4, 0xFFFFFFFF, 0xFFFFFFFF, 0x0, 0x0, 0x0, 0x0, 0x0, 0x0, 8, false, false, false⟩ /- NVM_BUF_i -/]
def regRows09 : List RegRow := regRows09_0

def regRows0A_0 : List RegRow := [
  ⟨0x0A0000, 1, 0x4, 1, 0x4, 0x0, 0x0, 0xFF800000, 0xF06, 0x0, 0x0, 0x0, 0xFF800F00, 7, false, false, false⟩ /- PAST_CFG -/,
  ⟨0x0A0004, 1, 0x4, 1, 0x4, 0x300000A, 0x0, 0x0, 0xFF00FFFF, 0x0, 0x0, 0x0, 0x0, 7, false, false, false⟩ /- PAST_TIMER -/,
  ⟨0x0A0008, 1, 0x4, 1, 0x4, 0x32, 0x0, 0x0, 0xFFFF, 0x0, 0x0, 0x0, 0x0, 7, false, false, false⟩ /- PAST_LEAD -/,
  ⟨0x0A000C, 1, 0x4, 1, 0x4, 0x0, 0x0, 0xFFF0FFFF, 0x0, 0x0, 0x0, 0x0, 0x0, 8, false, false, false⟩ /- PAST_STAT -/,
  ⟨0x0A0010, 1, 0x4, 1, 0x4, 0x0, 0x0, 0x0, 0x0, 0xFF00007F, 0x0, 0x0, 0x0, 8, false, false, false⟩ /- PAST_EVT -/,
  ⟨0x0A0014, 1, 0x4, 1, 0x4, 0x0, 0x7F, 0x0, 0x0, 0x0, 0x0, 0x0, 0x0, 8, false, false, false⟩ /- PAST_IEN -/,
  ⟨0x0A0018, 1, 0x4, 1, 0x4, 0x0, 0x0, 0xFFFFFFFF, 0x0, 0x0, 0x0, 0x0, 0x0, 8, true, false, false⟩ /- PAST_TAKEOVERS -/,
  ⟨0x0A0030, 1, 0x4, 1, 0x4, 0x0, 0x40070000, 0x0, 0x0, 0x0, 0x80000000, 0x0, 0x0, 8, false, false, false⟩ /- PAST_RACC_CTL -/,
  ⟨0x0A0034, 1, 0x4, 1, 0x4, 0x0, 0xFFFFFF, 0x0, 0x0, 0x0, 0x0, 0x0, 0x0, 8, false, false, false⟩ /- PAST_RACC_ADDR -/,
  ⟨0x0A0038, 1, 0x4, 1, 0x4, 0x0, 0xFFFFFFFF, 0x0, 0x0, 0x0, 0x0, 0x0, 0x0, 8, false, false, false⟩ /- PAST_RACC_WDATA -/,
  ⟨0x0A003C, 1, 0x4, 1, 0x4, 0x0, 0x0, 0xC700FF00, 0x0, 0x0, 0x0, 0x0, 0x0, 8, false, false, false⟩ /- PAST_RACC_STAT -/,
  ⟨0x0A0040, 1, 0x4, 1, 0x4, 0x0, 0x0, 0xFFFFFFFF, 0x0, 0x0, 0x0, 0x0, 0x0, 8, false, false, false⟩ /- PAST_RACC_RDATA -/,
  ⟨0x0A0044, 1, 0x4, 1, 0x4, 0x3E8, 0x0, 0x0, 0xFFFF, 0x0, 0x0, 0x0, 0x0, 7, false, false, false⟩ /- PAST_RACC_TMO -/,
  ⟨0x0A0048, 1, 0x4, 1, 0x4, 0x0, 0x0, 0x0, 0xFFFFFFFF, 0x0, 0x0, 0x0, 0x0, 7, false, false, false⟩ /- PAST_NOTICE_MASK_LO -/,
  ⟨0x0A004C, 1, 0x4, 1, 0x4, 0x0, 0x0, 0x0, 0xFFFFFFFF, 0x0, 0x0, 0x0, 0x0, 7, false, false, false⟩ /- PAST_NOTICE_MASK_HI -/,
  ⟨0x0A0050, 1, 0x4, 1, 0x4, 0x0, 0x0, 0xFC3F0000, 0x0, 0x0, 0x0, 0x0, 0x0, 8, false, false, false⟩ /- PAST_NOTICE_LAST -/,
  ⟨0x0A0100, 2, 0x80, 1, 0x4, 0x0, 0x0, 0x0, 0x80000000, 0x0, 0x0, 0x0, 0x80000000, 7, false, false, false⟩ /- PLINK_n_CTL -/,
  ⟨0x0A0104, 2, 0x80, 1, 0x4, 0x0, 0x0, 0x0, 0xFFFFFFFF, 0x0, 0x0, 0x0, 0x0, 7, false, false, false⟩ /- PLINK_n_ASYM -/,
  ⟨0x0A0108, 2, 0x80, 1, 0x4, 0x0, 0x0, 0xFFF00000, 0x0, 0x0, 0x0, 0x0, 0x0, 8, false, false, false⟩ /- PLINK_n_STAT -/,
  ⟨0x0A010C, 2, 0x80, 1, 0x4, 0x0, 0x0, 0x0, 0x0, 0xFF00001F, 0x0, 0x0, 0x0, 8, false, false, false⟩ /- PLINK_n_EVT -/,
  ⟨0x0A0110, 2, 0x80, 1, 0x4, 0x0, 0x1F, 0x0, 0x0, 0x0, 0x0, 0x0, 0x0, 8, false, false, false⟩ /- PLINK_n_IEN -/,
  ⟨0x0A0114, 2, 0x80, 1, 0x4, 0x0, 0x0, 0xFFFFFFFF, 0x0, 0x0, 0x0, 0x0, 0x0, 8, false, false, false⟩ /- PLINK_n_OFF_LO -/,
  ⟨0x0A0118, 2, 0x80, 1, 0x4, 0x0, 0x0, 0xFFFF, 0x0, 0x0, 0x0, 0x0, 0x0, 8, false, false, false⟩ /- PLINK_n_OFF_HI -/,
  ⟨0x0A011C, 2, 0x80, 1, 0x4, 0x0, 0x0, 0xFFFFFFFF, 0x0, 0x0, 0x0, 0x0, 0x0, 8, false, false, false⟩ /- PLINK_n_RTT_LO -/,
  ⟨0x0A0120, 2, 0x80, 1, 0x4, 0x0, 0x0, 0xFFFF, 0x0, 0x0, 0x0, 0x0, 0x0, 8, false, false, false⟩ /- PLINK_n_RTT_HI -/,
  ⟨0x0A0124, 2, 0x80, 1, 0x4, 0x0, 0x0, 0xFFFFFFFF, 0x0, 0x0, 0x0, 0x0, 0x0, 8, true, false, false⟩ /- PLINK_n_CRC_CNT -/,
  ⟨0x0A0128, 2, 0x80, 1, 0x4, 0x0, 0x0, 0xFFFFFFFF, 0x0, 0x0, 0x0, 0x0, 0x0, 8, true, false, false⟩ /- PLINK_n_MLOST -/,
  ⟨0x0A012C, 2, 0x80, 1, 0x4, 0x0, 0x0, 0xFFFFFFFF, 0x0, 0x0, 0x0, 0x0, 0x0, 8, true, false, false⟩ /- PLINK_n_FRAMES -/]
def regRows0A : List RegRow := regRows0A_0

def regRows0B_0 : List RegRow := [
  ⟨0x0B0000, 8, 0x40, 1, 0x4, 0x0, 0x0, 0xBFFFC0FF, 0x0, 0x0, 0x0, 0x0, 0xBFFFC0FF, 8, false, false, false⟩ /- STEER_n_CFG -/,
  ⟨0x0B0004, 8, 0x40, 1, 0x4, 0x18000003, 0x0, 0x0, 0xFE0000FF, 0x0, 0x0, 0x0, 0x0, 6, false, false, false⟩ /- STEER_n_CTL -/,
  ⟨0x0B0008, 8, 0x40, 1, 0x4, 0xA0000, 0x0, 0x0, 0xFFFFFFFF, 0x0, 0x0, 0x0, 0x0, 6, false, false, false⟩ /- STEER_n_TIMING -/,
  ⟨0x0B000C, 8, 0x40, 1, 0x4, 0x0, 0x0, 0x0, 0xFFFFFF, 0x0, 0x0, 0x0, 0x0, 6, false, false, false⟩ /- STEER_n_CENTER -/,
  ⟨0x0B0010, 8, 0x40, 1, 0x4, 0x800000, 0x0, 0x0, 0xFFFFFF, 0x0, 0x0, 0x0, 0x0, 6, false, false, false⟩ /- STEER_n_CLAMP_LO -/,
  ⟨0x0B0014, 8, 0x40, 1, 0x4, 0x7FFFFF, 0x0, 0x0, 0xFFFFFF, 0x0, 0x0, 0x0, 0x0, 6, false, false, false⟩ /- STEER_n_CLAMP_HI -/,
  ⟨0x0B0018, 8, 0x40, 1, 0x4, 0x0, 0x0, 0x0, 0xFFFFFF, 0x0, 0x0, 0x0, 0x0, 6, false, false, false⟩ /- STEER_n_PARK -/,
  ⟨0x0B001C, 8, 0x40, 1, 0x4, 0xFFFFFF, 0x0, 0x0, 0xFFFFFF, 0x0, 0x0, 0x0, 0x0, 6, false, false, false⟩ /- STEER_n_SLEW -/,
  ⟨0x0B0020, 8, 0x40, 1, 0x4, 0x0, 0x0, 0x0, 0xFFFFFFFF, 0x0, 0x0, 0x0, 0xFFFFFFFF, 6, false, false, false⟩ /- STEER_n_GAIN -/,
  ⟨0x0B0024, 8, 0x40, 1, 0x4, 0x258000A, 0x0, 0x0, 0xFFFFFFFF, 0x0, 0x0, 0x0, 0x0, 6, false, false, false⟩ /- STEER_n_FTMO -/,
  ⟨0x0B0028, 8, 0x40, 1, 0x4, 0x0, 0x0, 0x80FFFFFF, 0x0, 0x0, 0x0, 0x0, 0x0, 8, false, false, false⟩ /- STEER_n_WORD -/,
  ⟨0x0B002C, 8, 0x40, 1, 0x4, 0x0, 0x0, 0xFFE00000, 0x0, 0x0, 0x0, 0x0, 0x0, 8, false, false, false⟩ /- STEER_n_STAT -/,
  ⟨0x0B0030, 8, 0x40, 1, 0x4, 0x0, 0x0, 0x0, 0x0, 0xFF0000FF, 0x0, 0x0, 0x0, 8, false, false, false⟩ /- STEER_n_EVT -/,
  ⟨0x0B0034, 8, 0x40, 1, 0x4, 0x0, 0xFF, 0x0, 0x0, 0x0, 0x0, 0x0, 0x0, 8, false, false, false⟩ /- STEER_n_IEN -/,
  ⟨0x0B0038, 8, 0x40, 1, 0x4, 0x0, 0x0, 0x0, 0x0, 0x0, 0x3, 0x0, 0x0, 8, false, false, false⟩ /- STEER_n_CMD -/,
  ⟨0x0B003C, 8, 0x40, 1, 0x4, 0x0, 0x0, 0xFFFFFFFF, 0x0, 0x0, 0x0, 0x0, 0x0, 8, true, false, false⟩ /- STEER_n_FRAMES -/,
  ⟨0x0B0200, 8, 0x20, 1, 0x4, 0x0, 0x0, 0x0, 0xFFFFFFFF, 0x0, 0x0, 0x0, 0xFFFFFFFF, 6, false, false, false⟩ /- STEER_n_TGT_LO -/,
  ⟨0x0B0204, 8, 0x20, 1, 0x4, 0x0, 0x0, 0x0, 0xFFFF, 0x0, 0x0, 0x0, 0xFFFF, 6, false, false, false⟩ /- STEER_n_TGT_HI -/,
  ⟨0x0B0208, 8, 0x20, 1, 0x4, 0x0, 0x0, 0x0, 0xFFFFFFFF, 0x0, 0x0, 0x0, 0x0, 6, false, false, false⟩ /- STEER_n_GSHIFT -/,
  ⟨0x0B020C, 8, 0x20, 1, 0x4, 0x0, 0x0, 0xF8000000, 0x0, 0x0, 0x0, 0x0, 0xF8000000, 8, false, false, false⟩ /- STEER_n_LINK -/,
  ⟨0x0B0210, 8, 0x20, 1, 0x4, 0x0, 0x0, 0xFFFFFFFF, 0x0, 0x0, 0x0, 0x0, 0x0, 8, false, false, false⟩ /- STEER_n_TEFF_LO -/,
  ⟨0x0B0214, 8, 0x20, 1, 0x4, 0x0, 0x0, 0xFFFF, 0x0, 0x0, 0x0, 0x0, 0x0, 8, false, false, false⟩ /- STEER_n_TEFF_HI -/,
  ⟨0x0B0218, 8, 0x20, 1, 0x4, 0x0, 0x0, 0xFFFFFFFF, 0x0, 0x0, 0x0, 0x0, 0x0, 8, false, false, false⟩ /- STEER_n_ACC_LO -/,
  ⟨0x0B021C, 8, 0x20, 1, 0x4, 0x0, 0x0, 0xFFFF, 0x0, 0x0, 0x0, 0x0, 0x0, 8, false, false, false⟩ /- STEER_n_ACC_HI -/,
  ⟨0x0B0400, 8, 0x20, 1, 0x4, 0x0, 0x0, 0xFF000000, 0x0, 0x0, 0x0, 0x0, 0xFF000000, 8, false, false, false⟩ /- BN_n_CFG -/,
  ⟨0x0B0404, 8, 0x20, 1, 0x4, 0x2710, 0x0, 0x0, 0xFFFFFF, 0x0, 0x0, 0x0, 0x0, 6, false, false, false⟩ /- BN_n_FMIN -/,
  ⟨0x0B0408, 8, 0x20, 1, 0x4, 0x7A1200, 0x0, 0x0, 0xFFFFFF, 0x0, 0x0, 0x0, 0x0, 6, false, false, false⟩ /- BN_n_FMAX -/,
  ⟨0x0B040C, 8, 0x20, 1, 0x4, 0x1000C350, 0x0, 0x0, 0xFFFFFFFF, 0x0, 0x0, 0x0, 0x0, 6, false, false, false⟩ /- BN_n_JUMP -/,
  ⟨0x0B0410, 8, 0x20, 1, 0x4, 0x0, 0x0, 0x8000000F, 0x0, 0x0, 0x0, 0x0, 0x0, 8, false, false, false⟩ /- BN_n_STAT -/,
  ⟨0x0B0414, 8, 0x20, 1, 0x4, 0x0, 0x0, 0x0, 0x0, 0xFF00001F, 0x0, 0x0, 0x0, 8, false, false, false⟩ /- BN_n_EVT -/,
  ⟨0x0B0418, 8, 0x20, 1, 0x4, 0x0, 0x1F, 0x0, 0x0, 0x0, 0x0, 0x0, 0x0, 8, false, false, false⟩ /- BN_n_IEN -/,
  ⟨0x0B041C, 8, 0x20, 1, 0x4, 0x0, 0x0, 0xFFFFFFFF, 0x0, 0x0, 0x0, 0x0, 0x0, 8, false, false, false⟩ /- BN_n_FREQ -/]
def regRows0B : List RegRow := regRows0B_0

def regRows0C_0 : List RegRow := [
  ⟨0x0C0000, 1, 0x4, 1, 0x4, 0x0, 0x3033, 0x0, 0x0, 0x0, 0x0, 0x0, 0x0, 8, false, false, false⟩ /- CRAFT_PB_CFG -/,
  ⟨0x0C0004, 1, 0x4, 1, 0x4, 0x0, 0x0, 0xF0F33FF, 0x0, 0x0, 0x0, 0x0, 0x0, 8, false, false, false⟩ /- CRAFT_STAT -/,
  ⟨0x0C0008, 1, 0x4, 1, 0x4, 0x0, 0x0, 0x0, 0x0, 0xFF0001FF, 0x0, 0x0, 0x0, 8, false, false, false⟩ /- CRAFT_EVT -/,
  ⟨0x0C000C, 1, 0x4, 1, 0x4, 0x0, 0x1FF, 0x0, 0x0, 0x0, 0x0, 0x0, 0x0, 8, false, false, false⟩ /- CRAFT_IEN -/,
  ⟨0x0C0010, 1, 0x4, 4, 0x4, 0x40010, 0xFF0F0077, 0x0, 0x0, 0x0, 0x0, 0x0, 0x0, 8, false, false, false⟩ /- CRAFT_LED_i -/,
  ⟨0x0C0020, 1, 0x4, 8, 0x4, 0x80, 0xDF, 0x0, 0x0, 0x0, 0x0, 0x0, 0x0, 8, false, false, false⟩ /- CRAFT_GPIO_i -/,
  ⟨0x0C0040, 1, 0x4, 1, 0x4, 0x48000000, 0xFFFF0001, 0x0, 0x0, 0x0, 0x0, 0x0, 0x0, 8, false, false, false⟩ /- CRAFT_SENS_CFG -/,
  ⟨0x0C0044, 1, 0x4, 1, 0x4, 0x0, 0x0, 0x8003FFFF, 0x0, 0x0, 0x0, 0x0, 0x0, 8, false, false, false⟩ /- CRAFT_SENS_TEMP -/]
def regRows0C : List RegRow := regRows0C_0

def regRows0D_0 : List RegRow := [
  ⟨0x0D0000, 1, 0x4, 1, 0x4, 0x0, 0xC0000000, 0x0, 0x0, 0x0, 0x0, 0x0, 0x0, 8, false, false, false⟩ /- HOST_CFG -/,
  ⟨0x0D0004, 1, 0x4, 1, 0x4, 0x0, 0x3, 0x0, 0x0, 0x0, 0x0, 0x0, 0x0, 8, false, true, false⟩ /- HOST_VIEW -/,
  ⟨0x0D0008, 1, 0x4, 1, 0x4, 0x0, 0x0, 0x0, 0x0, 0xFF0007FF, 0x0, 0x0, 0x0, 8, false, false, false⟩ /- HOST_ERR -/,
  ⟨0x0D000C, 1, 0x4, 1, 0x4, 0x0, 0x7FF, 0x0, 0x0, 0x0, 0x0, 0x0, 0x0, 8, false, false, false⟩ /- HOST_IEN -/,
  ⟨0x0D0010, 1, 0x4, 1, 0x4, 0x0, 0x0, 0xF7FFFFFF, 0x0, 0x0, 0x0, 0x0, 0x0, 8, false, false, false⟩ /- HOST_ERR_CAP -/,
  ⟨0x0D0014, 1, 0x4, 1, 0x4, 0x0, 0xFFFFFFFF, 0x0, 0x0, 0x0, 0x0, 0x0, 0x0, 8, true, false, false⟩ /- HOST_SPI_FRAMES -/,
  ⟨0x0D0018, 1, 0x4, 1, 0x4, 0x0, 0xFFFFFFFF, 0x0, 0x0, 0x0, 0x0, 0x0, 0x0, 8, true, false, false⟩ /- HOST_I2C_XFERS -/,
  ⟨0x0D001C, 1, 0x4, 1, 0x4, 0x0, 0xFFFFFFFF, 0x0, 0x0, 0x0, 0x0, 0x0, 0x0, 8, true, false, false⟩ /- HOST_CRC_CNT -/,
  ⟨0x0D0020, 1, 0x4, 1, 0x4, 0x0, 0xFFFFFFFF, 0x0, 0x0, 0x0, 0x0, 0x0, 0x0, 8, true, false, false⟩ /- HOST_TMO_CNT -/,
  ⟨0x0D0024, 1, 0x4, 1, 0x4, 0x0, 0xFFFFFFFF, 0x0, 0x0, 0x0, 0x0, 0x0, 0x0, 8, true, false, false⟩ /- HOST_REFUSED_CNT -/,
  ⟨0x0D0028, 1, 0x4, 1, 0x4, 0x0, 0xFFFFFFFF, 0x0, 0x0, 0x0, 0x0, 0x0, 0x0, 8, true, false, false⟩ /- HOST_STALE_CNT -/]
def regRows0D : List RegRow := regRows0D_0

/-- The rows of the block that holds address `a` (an empty list where the map has no register there). -/
def regRowsAt (a : Nat) : List RegRow :=
  match a / 0x10000 with
  | 0x00 => regRows00
  | 0x01 => regRows01
  | 0x02 => regRows02
  | 0x03 => regRows03
  | 0x04 => regRows04
  | 0x05 => regRows05
  | 0x06 => regRows06
  | 0x07 => regRows07
  | 0x08 => regRows08
  | 0x09 => regRows09
  | 0x0A => regRows0A
  | 0x0B => regRows0B
  | 0x0C => regRows0C
  | 0x0D => regRows0D
  | _ => []

/-- The rows of the whole map, in ascending block order. -/
def allRegRows : List RegRow :=
  regRows00 ++ regRows01 ++ regRows02 ++ regRows03 ++ regRows04 ++ regRows05 ++ regRows06 ++ regRows07 ++ regRows08 ++ regRows09 ++ regRows0A ++ regRows0B ++ regRows0C ++ regRows0D

end Sys2Proof.Machine
end

