-- ==== Sys2Proof/Machine/State.lean ====
section
/-!
DEFINITION. The state of the NM7424 as plain data, and the state right after power-on reset.

Every register of the register map has one home: the register store `live` (and `shadow` for shadowed fields, `held` for
the muster bank, `perMaster` for registers and latches kept per bus master).  Fields of status registers that only follow
other state (countdowns, counts of cells, device time) are computed when they are read.  The records below hold the state
the spec gives the engines besides their registers.  INVENTORY.md lists all of it with the rules that name it.
-/

namespace Sys2Proof.Machine

/-- Why the machine stops with a fault.  No meaning of this model raises one: everything the spec calls a fault of the
device is a fault source of its collector (11 R281), a state and no stop. -/
inductive Fault where
  /-- Raised by no command; the type must be inhabited to be written in the interface. Safe. -/
  | unreached
  deriving DecidableEq, Repr

/-- Why a command has no meaning. -/
inductive Refusal where
  /-- Raised by the arm of a command this model gives no meaning yet; safe (the machine stops). -/
  | notModelled (mnemonic : String)
  deriving DecidableEq, Repr

/-! ### Time base (01 R17, 02 R36, R37) -/

/-- The clocks.  `tclk` counts TCLK periods (625 ps) and is the model's clock; `dev` is device time in units of 2^-48 ns
(2^-32 of 2^-16 ns, 02 R36); `inc` is what each TCLK adds to it (04 R111). -/
structure Clock where
  tclk : Nat
  /-- Number of the present LCLK edge (01 R17: LCLK is TCLK divided by four); happenings of one LCLK cycle share it. -/
  edge : Nat
  /-- MODEL'S OWN: nothing further can fall on the present edge; what comes next has an edge of its own (10 R275). -/
  closed : Bool
  /-- MODEL'S OWN: an update of groups has fallen on the present edge, so that only another update or an access of the bus can
  follow on it (05 R146; 10 R269). -/
  updated : Bool
  /-- MODEL'S OWN: the bus has made its access of the present edge (01 R26). -/
  accessed : Bool
  dev : Nat
  inc : Nat
  /-- The coarse timestamp counter (02 R37). -/
  coarse : Nat
  /-- The system PLL is locked: TCLK and device time run (01 R15, R16). -/
  pllLocked : Bool
  /-- BOOTCLK runs (01 R15). -/
  bootclk : Bool
  /-- A loss of lock has made timestamps and device time unreliable (01 R18). -/
  unreliable : Bool
  /-- History seconds since PLL lock (04 R126). -/
  hsec : Nat
  /-- Frequency row of 01 R14 chosen by the boot count: 0 none, else the XOIN frequency in 10 kHz. -/
  xoin : Nat
  deriving DecidableEq, Repr

/-! ### Measurement front end (chapter 02) -/

/-- The role of a cell (02, The cell pool; R70 gives the codes). -/
inductive Role where
  | job | loop | cal | quar | retired
  deriving DecidableEq, Repr

/-- One cell of the pool (02 R33, R41 to R44, R54, R70). -/
structure Cell where
  role : Role
  /-- The channel whose stream a LOOP cell serves. -/
  stream : Nat
  /-- Which half of a dual-cell stream, or which stream of a pasture link's channel (0 launches, 1 arrivals, 08 R215). -/
  half : Nat
  /-- The channel a JOB cell is armed on, or the stream a handover cell is armed on. -/
  armed : Option Nat
  /-- A conversion of an event is in progress. -/
  busy : Bool
  /-- A pilot conversion is in progress, at this position. -/
  pilot : Option Nat
  pilotPos : Nat
  pilotDue : Bool
  due : Bool
  overdue : Bool
  coarse : Bool
  /-- Cause of the last quarantine (R70 FAULT). -/
  fault : Nat
  /-- The quarantine came from a table ECC error: the cell retires whatever its pilots show (R54). -/
  eccQuar : Bool
  /-- A quarantined cell that still serves its stream or armed channel, until a replacement is armed (R55). -/
  standIn : Bool
  /-- An overdue loop cell found blocked at the last allocation (R42). -/
  blocked : Bool
  /-- Calibrated since its tables were last cleared. -/
  calibrated : Bool
  /-- Die temperature at the end of the last run, in 1/16 degC, signed (R41). -/
  calTemp : Int
  /-- The TCLK count at the end of the last run (R41: the age counts from it). -/
  calEnd : Nat
  /-- Fractions recorded at the eight pilot positions (R39). -/
  pilots : List Nat
  deriving DecidableEq, Repr

/-- A channel's decimator and arming state (02 R46, R50). Arrivals are in 2^-16 ns of TCLK time. -/
structure Chan where
  count : Nat
  lastFwd : Option Nat
  lastConv : Option Nat
  deriving DecidableEq, Repr

/-- What one cell has made of an event: waiting, a fraction to the stop edge or to the TCLK edge after it (02 R32), or a discarded
conversion. -/
inductive Part where
  | waiting | good (f : Nat) (later : Bool) | bad
  deriving DecidableEq, Repr

/-- An event whose conversions are in progress: the channel, its stop edge, the device time latched at the stop edge and the
increment in force there (02 R35), TRIM as it was when the edge was forwarded (R46), the cells that convert it, and the
handover it decides (02 R53). -/
structure Event where
  chan : Nat
  /-- Arrival in TCLK time, 2^-16 ns. -/
  arr : Nat
  /-- 0 an ordinary edge, 1 a MARK launch, 2 a MARK arrival (08 R215), with its MSEQ. -/
  tag : Nat
  mseq : Nat
  trim : Int
  /-- TCLK count of the stop edge, and whether it has come. -/
  stopAt : Nat
  latched : Bool
  dtStop : Nat
  inc : Nat
  /-- The device time and the increment at the TCLK edge after the stop edge, where a cell whose arbiter took the next edge stops
  (02 R32). -/
  late : Option (Nat × Nat)
  parts : List (Nat × Part)
  /-- The handover cell among the parts. -/
  handover : Option Nat
  deriving DecidableEq, Repr

/-- A calibration run or retest in progress (02 R39, R58). -/
structure CalRun where
  cell : Nat
  start : Nat
  retest : Bool
  /-- The calibration part of a retest is complete and its pilots run. -/
  tableDone : Bool
  deriving DecidableEq, Repr

/-- A handover in progress (02 R53): the loop cell, the armed handover cell and the stream. -/
structure Handover where
  old : Nat
  new : Nat
  chan : Nat
  deriving DecidableEq, Repr

/-- The measurement front end. -/
structure Meas where
  cells : List Cell
  chans : List Chan
  events : List Event
  /-- Cells that are due, in the order in which they became due (R41). -/
  dueOrder : List Nat
  calRun : Option CalRun
  handover : Option Handover
  retest : Option Nat
  /-- The channel served last in the round-robin of R50. -/
  rr : Nat
  /-- A job cell has been idle for a continuous 1 ms (R42). -/
  idleOk : Bool
  /-- Single-bit SRAM corrections in the present second of UTICK (11 R281, FSRC 58) and that second's start. -/
  secCount : Nat
  secFrom : Nat
  bootCalDone : Bool
  deriving DecidableEq, Repr

/-! ### Jobs, rings and the Tally port (chapter 03) -/

/-- The kinds of measurement job (03 R74). -/
inductive JobKind where
  | interval | freq | stream | period | marker | flush
  deriving DecidableEq, Repr

/-- What fixes a job's completion record: its flags, the cause of an ABORT or RST (03 R82), its payload. -/
structure Done where
  tmo : Bool
  near : Bool
  abort : Bool
  rst : Bool
  cause : Nat
  payload : Nat
  deriving DecidableEq, Repr

/-- A job in flight (03 R77, R78, R81).  Times are device time in 2^-16 ns; `begin` is TCLK time in 2^-16 ns. -/
structure Job where
  order : Nat
  tag : Nat
  ring : Nat
  kind : JobKind
  chA : Nat
  chB : Nat
  stat : Bool
  ratio : Bool
  paramA : Nat
  paramB : Nat
  begin : Nat
  early : Bool
  inj : Bool
  /-- Start of an interval, opening of a gate, first edge of a period job. -/
  start : Option Nat
  /-- Nearest stop before the start that lies in the window (R60). -/
  cand : Option Nat
  /-- Stops formed before the start is known. -/
  stops : List Nat
  /-- Forwarded edges or spacings counted so far. -/
  edges : Nat
  lastEdge : Option Nat
  close : Option Nat
  /-- Frequency: arrivals in TCLK time of the opening edge and of the numerator's and the denominator's forwarded edges that
  gave no timestamp; the denominator's timestamps, with their arrivals, that wait for a numerator edge to place them. -/
  openArr : Option Nat
  lostA : List Nat
  bOpenArr : Option Nat
  lostB : List Nat
  bStops : List (Nat × Nat)
  bOpen : Option Nat
  bEdges : Nat
  bLast : Option Nat
  sum : Nat
  sumSq : Nat
  minS : Nat
  maxS : Nat
  written : Nat
  dropped : Nat
  /-- The slot's body holds a double-bit error that no read has found yet (R81). -/
  bad : Bool
  done : Option Done
  deriving DecidableEq, Repr

/-- A record in a ring's write queue, with the edge it arose on (03 R94). -/
inductive WRec where
  /-- EPOCH: its cause and the full seconds (R89). -/
  | epoch (edge cause secs : Nat)
  /-- The completion record of the job in a slot. -/
  | completion (edge slot : Nat)
  /-- A TS data record: its stream's slot, channel and tag, the timestamp, the INJ mark (R88). -/
  | ts (edge slot ch tag stamp : Nat) (inj : Bool)
  /-- A PADDOCK data record of a paddock (04 R131). -/
  | paddock (edge n ch tag payload : Nat) (inj : Bool)
  deriving DecidableEq, Repr

/-- A ring besides its registers: its write queue, how many records from TAIL on the port has sent and not been asked to send
again, how many it has sent at all (the replay buffer, R101), since when the replay timer runs; the edge and the cause of its
last EPOCH (R89), and the edge of its last record write (R94). -/
structure Ring where
  wq : List WRec
  sent : Nat
  top : Nat
  replayFrom : Option Nat
  epochAt : Option (Nat × Nat)
  wroteAt : Option Nat
  deriving DecidableEq, Repr

/-- A closed frame that waits for a lane (R99). -/
structure TpFrame where
  ring : Nat
  first : Nat
  count : Nat
  deriving DecidableEq, Repr

/-- The last frame put on a transmit lane (R99): its blocks, each the two bits of its sync header and 64 bits, as the coder
forms them, and as the scrambler puts them on the lane (R98). -/
structure TpSent where
  lane : Nat
  frame : TpFrame
  number : Nat
  damaged : Bool
  blocks : List (Nat × Nat)
  wire : List (Nat × Nat)
  deriving DecidableEq, Repr

/-- The Tally port besides its registers. -/
structure TpState where
  closed : List TpFrame
  frameNo : List Nat
  lastRing : Nat
  laneBad : List Bool
  rxLostAt : Option Nat
  lastSent : Option TpSent
  deriving DecidableEq, Repr

/-- One entry of the tally header trace (11 R304). -/
structure TallyTrace where
  word0 : Nat
  word1 : Nat
  ring : Nat
  ns : Nat
  deriving DecidableEq, Repr

/-- The request queue, the rings and the port. -/
structure Jobs where
  slots : List (Option Job)
  nextOrder : Nat
  rings : List Ring
  tp : TpState
  trace : List TallyTrace
  deriving DecidableEq, Repr

/-! ### Fault collector (chapter 11) -/

/-- One entry of the firing trace (11 R304). -/
structure FiringEntry where
  src : Nat
  sev : Nat
  inj : Bool
  real : Bool
  seqno : Nat
  sec : Nat
  ns : Nat
  deriving DecidableEq, Repr

/-- One entry of the shepherd event trace and the LOG region (11 R299, R304; 12 R319). -/
structure LogEntry where
  code : Nat
  arg : Nat
  sec : Nat
  ns : Nat
  data : Nat
  deriving DecidableEq, Repr

/-- The trigger of a dump that is busy (11 R300, R301, R303). -/
structure DumpTrigger where
  fatal : Bool
  src : Nat
  sev : Nat
  inj : Bool
  seq : Nat
  stamp : Nat
  alsoNvm : Bool
  deriving DecidableEq, Repr

/-- The access a firing arises from: address, master, type (11 R292); none records type internal. -/
structure Access where
  addr : Nat
  master : Option Nat
  type : Nat
  deriving DecidableEq, Repr

/-- A firing as the capture takes it (11 R292). -/
structure Firing where
  src : Nat
  sev : Nat
  detail : Nat
  inj : Bool
  acc : Option Access
  seq : Nat
  deriving DecidableEq, Repr

/-- The fault collector besides its registers. -/
structure Flt where
  /-- Live conditions: (source, instance) pairs. -/
  live : List (Nat × Nat)
  /-- MODEL'S OWN: the firings of the present edge, on which alone a source of kind E is live (R281, R295), the last first. -/
  fired : List Firing
  /-- TCLK count at which the escalation timer expires, while it runs (R285). -/
  escEnd : Option Nat
  /-- Since when the quiet period runs (R288). -/
  quietFrom : Option Nat
  /-- FAULT_N: since when it is asserted; its width has elapsed; an FN_REL waits for the width (R290). -/
  fnFrom : Option Nat
  fnWidthDone : Bool
  fnRelPend : Bool
  /-- A fold has been called for at the present edge. -/
  foldPend : Bool
  /-- A fold that the edge of the image's application has called for, due at the next LCLK edge (R287). -/
  foldNext : Bool
  /-- MODEL'S OWN: the edge on which the capture was filled (R292). -/
  capEdge : Nat
  trace : List FiringEntry
  dump : Option DumpTrigger
  /-- Pages of the NVM copy still to be written; none when no copy runs (R301). -/
  dumpCopy : Option Nat
  /-- Per source: firings not logged, and the second of the last logged entry (R299). -/
  notLogged : List Nat
  lastLogSec : List (Option Nat)
  /-- Firings that wait for their log entry: source and detail. -/
  logWait : List LogEntry
  events : List LogEntry
  deriving DecidableEq, Repr

/-! ### Paddocks (chapter 04) -/

/-- The states of a paddock (04 R120; the codes are those of R131). -/
inductive PadSt where
  | freerun | acquire | locked | holdover | steered
  deriving DecidableEq, Repr

/-- A paddock besides its registers (its state, words and offsets read in PAD_n_STATE, FW, HAVG, HW, BO live there). -/
structure Paddock where
  /-- Integrator, LSB 2^-80 (R113). -/
  integ : Int
  /-- Steered phase offset in progress, in 2^-48 ns (R105, R123). -/
  so : Int
  /-- Phase remaining to slew, in 2^-48 ns (R123). -/
  spoRem : Int
  /-- Word held on entry into STEERED (R123). -/
  heldB : Int
  sfo : Int
  /-- An accepted SFO that waits for the next update (R123). -/
  sfoPend : Option Int
  /-- TCLK count of entry into STEERED or of the last accepted SFO or SPO value. -/
  steerFrom : Nat
  /-- Present bandwidth as a fraction in Hz (R113, R117). -/
  bNum : Nat
  bDen : Nat
  /-- Phase moved by a pull-in and not yet a whole unit of bo, in 2^-48 ns (05 R159). -/
  pullAcc : Nat
  /-- Consecutive good updates of the present ladder or lock dwell. -/
  dwell : Nat
  /-- Consecutive updates above UNLOCK_THR (R118). -/
  overRun : Nat
  /-- The first-update handling of R119 awaits the next update. -/
  first : Bool
  /-- Reference timestamps that wait for their update, without POFF and OFFSET, each with the phase jump it absorbs (05 R140). -/
  refQ : List (Nat × Int)
  fbQ : List Nat
  /-- Updates since the last telemetry record (R131). -/
  telCount : Nat
  /-- A commanded step of device time that waits: seconds and nanoseconds (R112). -/
  tstep : Option (Int × Int)
  /-- TCLK count from which the staleness of M is timed (R129). -/
  modelFrom : Nat
  /-- The present history second: sum of words, updates, still usable (R126, R127). -/
  secSum : Int
  secUpd : Nat
  secUsable : Bool
  /-- History second at which the history was last cleared: entries that end later are stored (R126). -/
  histFrom : Nat
  /-- LEARN is active (R129) and its settings. -/
  learn : Bool
  learnSensor : Nat
  learnHours : Nat
  /-- Edge generator: accumulator in 2^-64 ns and the TCLK count it was brought up to (R108). -/
  egAcc : Int
  egAt : Nat
  deriving DecidableEq, Repr


/-! ### References and selection (chapter 05) -/

/-- Forwarded edges counted in a window: how many, the first and the last timestamp (05 R139). -/
structure Edges where
  count : Nat
  first : Nat
  last : Nat
  /-- Arrival of the last one in TCLK time: a forwarded edge that gives no timestamp is placed by its arrival. -/
  lastArr : Nat
  deriving DecidableEq, Repr

/-- A frequency-monitor window in progress (05 R139): its start in device time (2^-16 ns), its length in 0.1 s, whether a
change of base has discarded it, and the edges of the reference and of the base in it and after its end. -/
structure FmWin where
  start : Nat
  tau : Nat
  discarded : Bool
  ref : Edges
  base : Edges
  refNext : Edges
  baseNext : Edges
  /-- Arrivals of forwarded edges that gave no timestamp and that no later timestamp has placed yet. -/
  refLost : List Nat
  baseLost : List Nat
  deriving DecidableEq, Repr

/-- A reference monitor besides its registers (05 R138 to R148); number 12 is the OCXOIN monitor (R150). -/
structure RefMon where
  win : Option FmWin
  /-- The first window starts at the next history-second boundary. -/
  waitWin : Bool
  pjPrev : Option Nat
  /-- The last 16 spacings, oldest first. -/
  pjSp : List Nat
  pjEdges : Nat
  /-- A jump has been recorded since the present window began. -/
  jumped : Bool
  /-- TCLK counts of the last four spacing violations. -/
  viols : List Nat
  /-- Consecutive results at or above HARD; for OCXOIN, consecutive windows within OCXO_HARD. -/
  hardCnt : Nat
  clearCnt : Nat
  wtrDone : Bool
  /-- A qualifying FM result exists since the last cause cleared (R144). -/
  fmOk : Bool
  /-- MODEL'S OWN: the edge of the last qualifying result, which counts for a clear on the same edge (R144). -/
  okAt : Option Nat
  /-- MODEL'S OWN: the monitor has become STRAY on leaving DISQ or WTR on the present edge, whose other happenings may still undo
  it (R146). -/
  strayDue : Bool
  /-- History second at which the present stray episode began (R148). -/
  onset : Nat
  /-- OCXOIN only: its activity is lost. -/
  lost : Bool
  deriving DecidableEq, Repr

/-- A paddock's selection besides its registers (05 R154, R157, R158). -/
structure Select where
  /-- The entry the standing vote names. -/
  target : Option Nat
  /-- A winner that waits for its second evaluation. -/
  waiting : Option Nat
  /-- The disputants of a vote without a decision. -/
  group : List Nat
  /-- The disputants of the last evaluation of the vote. -/
  seen : List Nat
  /-- Errors of the last updates on the active reference, newest first, at most 16. -/
  errs : List Int
  /-- e_ref of the hold in progress: sum and count. -/
  refSum : Int
  refN : Nat
  /-- Raw errors of the hold, newest first. -/
  raws : List Int
  /-- MODEL'S OWN: presses of the present edge that step the manual reference once it is over (05 R156). -/
  presses : Nat
  deriving DecidableEq, Repr

/-! ### Carrier-grid lock (chapter 07) -/

/-- A frame on the pins of a steering port (07 R204): its start, its bits as a number of `len` bits, half a period of SCK in
TCLK periods, and whether SCK idles high. -/
structure SentFrame where
  start : Nat
  bits : Nat
  len : Nat
  half : Nat
  mode3 : Bool
  deriving DecidableEq, Repr

/-- A steering port besides its registers (07 R201 to R208). -/
structure Port where
  /-- The accumulator A in 2^-40 Hz (R201). -/
  acc : Int
  /-- The latest S_tgt. -/
  sTgt : Int
  /-- F_nom in 2^-8 Hz: the beat target of the image (R197). -/
  fnom : Nat
  /-- Start of the last frame, TCLK count. -/
  frameAt : Option Nat
  /-- The first frame after ENABLE, which sends CENTER (R203). -/
  first : Bool
  /-- A frame is due after RESUME or a WARM or WDOG reset (R205). -/
  resend : Bool
  refresh : Bool
  send : Bool
  /-- PARK has still to be sent (R206). -/
  park : Bool
  /-- The last frame started. -/
  sent : Option SentFrame
  /-- MODEL'S OWN: the edge on which the port entered FAULTED, and that of its last trigger (R206, R207). -/
  faultAt : Option Nat
  trigAt : Option Nat
  deriving DecidableEq, Repr

/-- A beat-note monitor besides its registers, and the gate in progress (07 R196, R197). -/
structure Beat where
  /-- Timestamps that wait for their gate. -/
  queue : List Nat
  lastTs : Option Nat
  /-- The last gate result in 2^-8 Hz, rounded. -/
  lastF : Option Nat
  outCnt : Nat
  inCnt : Nat
  clean : Nat
  deriving DecidableEq, Repr

/-! ### Pasture (chapter 08) -/

/-- A link frame (08 R211, R212): its fields, the payload bytes its type names, and the 36 characters it goes out as. -/
structure PFrame where
  link : Nat
  type : Nat
  dst : Nat
  src : Nat
  hops : Nat
  fseq : Nat
  payload : List Nat
  chars : List Nat
  deriving DecidableEq, Repr

/-- The transmit lane of a pasture link (08 R210, R213). -/
structure Lane where
  /-- Frames that wait, in the order in which they would start. -/
  queue : List PFrame
  /-- The even character at which the lane is free again, in pairs since TCLK count 0. -/
  free : Nat
  /-- The frame last started: the pair at which it began, and whether the running disparity was positive then. -/
  sent : Option (Nat × PFrame × Bool)
  /-- The running disparity is positive after what has been started (08 R210). -/
  plus : Bool
  deriving DecidableEq, Repr

/-- A lane that has sent idles alone, from negative running disparity. [PRESUMED, log 200] -/
def Lane.fresh : Lane := { queue := [], free := 0, sent := none, plus := false }

/-- A marker time kept for pairing (08 R216): MSEQ and timestamp. -/
structure MarkTime where
  mseq : Nat
  ts : Nat
  deriving DecidableEq, Repr

/-- A pasture link besides its registers (08 R214 to R220). -/
structure Link where
  /-- Consecutive valid HELLO frames since sync. -/
  hellos : Nat
  mseq : Nat
  launches : List MarkTime
  arrivals : List MarkTime
  nbPrio : Nat
  nbBwV : Bool
  nbBw : Nat
  nbBeacon : Nat
  nbElig : Bool
  nbAsym : Int
  nbMode : Nat
  nbFollow : Nat
  /-- TCLK count at which the heard BEACON last advanced. -/
  beaconAt : Option Nat
  deriving DecidableEq, Repr

/-- A strobe or muster that waits for its named device time (08 R223). -/
structure Named where
  muster : Bool
  src : Nat
  /-- Group mask of a strobe, sequence of a muster. -/
  value : Nat
  at_ : Nat
  deriving DecidableEq, Repr

/-- The pasture block besides its registers. -/
structure Past where
  links : List Link
  fseq : Nat
  /-- For each SRC, the FSEQ of the last 16 frames accepted from it (R213). -/
  seen : List (List Nat)
  /-- This device's own INDEX has been heard as SRC: frames of that SRC are ignored (R220). -/
  dup : Bool
  /-- The links whose neighbour bears this device's INDEX: its neighbour-only frames are ignored too (R220). -/
  dupOn : List Nat
  /-- Start of the candidate wait (R220). -/
  waitFrom : Nat
  /-- PRIO of the current bellwether. -/
  bwPrio : Nat
  tag : Nat
  /-- Link on which the outstanding remote access waits, and its direction. -/
  raccWrite : Bool
  waiting : List Named
  /-- MODEL'S OWN: the edge on which the last muster was taken for a received frame, and the SRC whose sequence it bears
  (R224). -/
  mustered : Option (Nat × Nat)
  /-- Frames put on the links by the present command. -/
  tx : List PFrame
  lanes : List Lane
  deriving DecidableEq, Repr

/-! ### Flocks and outputs (chapter 06) -/

/-- An APLL besides its registers: band calibration failed (06 R168), powered down in SLEEP (R185), recalibrating after that
and not yet locked (R356).  `phase` counts what its VCO has run since the edge that applied the image, at which its dividers
started (R170), in 1 / (80000 2^48) of a half-cycle, up to TCLK count `phaseAt`. -/
structure Apll where
  calFail : Bool
  down : Bool
  resume : Bool
  phase : Nat
  phaseAt : Nat
  deriving DecidableEq, Repr

/-- An output besides its registers: released to RUN and waiting for its first edge (06 R182), from OFF or from SAFE; where its
delay moves from and since when, as a TCLK count, as the phase of its VCO, and as a pulse of its synthesiser (R173); whether its
driver's supply-side switch is open (11 R286). -/
structure OutSt where
  starting : Bool
  fromOff : Bool
  cut : Bool
  fromC : Nat
  fromF : Nat
  movedAt : Nat
  movedPhase : Nat
  movedPulse : Nat
  deriving DecidableEq, Repr

/-- A pulse synthesiser besides its registers (06 R174, R177): its accumulator in 2^-32 of 2^-16 ns after `count` half-cycles
of its VCO, and the word it advances with; in units of 2^-16 ns of the accumulator, its next scheduled edge and the end of its
last pulse; how many pulses it has given, and the fine delay of the last. -/
structure Psyn where
  acc : Nat
  count : Nat
  word : Int
  next : Nat
  pulseEnd : Nat
  pulses : Nat
  fine : Nat
  deriving DecidableEq, Repr

/-! ### Non-volatile store and check-value units (chapter 12) -/

/-- An atomic operation of the NVM controller (12 R311): an erase, a program of groups (index in the page and 64-bit
value), or both. -/
structure AtomOp where
  page : Nat
  erase : Bool
  groups : List (Nat × Nat)
  deriving DecidableEq, Repr

/-- What a piece of NVM work does (12 R315). -/
inductive NvmKind where
  /-- The copy of a dump; the run of the mailbox service DUMP that asked for it, if one did. -/
  | dumpCopy (run : Option Nat)
  /-- The refresh of a weak page, with the number of groups corrected. -/
  | refresh (page groups : Nat)
  /-- IMG_COMMIT into a slot, with SEQUENCE and IMG_CHECK, for the mailbox run of that number. -/
  | commit (slot seq check run : Nat)
  /-- The rewrite of the slot that was not chosen, from the chosen one (09 R241). -/
  | rewrite (src : Nat)
  /-- A key record for KEY_CHANGE. -/
  | key (region kind value run : Nat)
  /-- A counter update: OP of the record (1 INC, 2 SET), amount or value, and whether a host command waits for it. -/
  | counter (id op arg : Nat) (host : Bool)
  /-- A RECOVER record with its SEQ and value (12 R324). -/
  | recover (id seq value : Nat)
  /-- The compaction that a scan found interrupted (12 R323). -/
  | compact
  /-- A holdover bank with its SEQ, PLAN_ID, sensors and models (12 R327). -/
  | holdBank (bank seq plan : Nat) (sensors : List Nat) (models : List HoldModel)
  /-- NVM_DUMP_REL, or the erase of remains at boot (11 R305, R307). -/
  | dumpErase
  /-- NVM_CMD: the erase of pages first to last, or the program of a page. -/
  | hostErase (first last : Nat)
  | hostProgram (page : Nat)
  /-- An entry of the event log. -/
  | log (e : LogEntry)
  deriving DecidableEq, Repr

/-- A piece of NVM work in progress: the operations done so far, the groups of the record it writes that are still to be
programmed (address and 64-bit value), the value the record gives its counter, and whether it is a copy. -/
structure NvmWork where
  kind : NvmKind
  step : Nat
  groups : List (Nat × Nat)
  recVal : Nat
  recCopy : Bool
  deriving DecidableEq, Repr

/-- A patrol step that is due: since when, and whether it is overdue (12 R316, R318). -/
structure NvmDue where
  at_ : Nat
  late : Bool
  deriving DecidableEq, Repr

/-- The reset kinds (13 R346), in the order of precedence of R346. -/
inductive ResetKind where
  | por | pin | soft | warm | wdog
  deriving DecidableEq, Repr

/-- The NVM controller besides its registers. -/
structure NvmCtl where
  /-- Work not yet started or between two operations, in request order. -/
  queue : List NvmWork
  /-- The work whose operation waits for the supply or runs; none for an operation whose service a reset has ended. -/
  cur : Option NvmWork
  op : Option AtomOp
  due : List NvmDue
  /-- A tie rewrite that waits for its next attempt (09 R241). -/
  parked : Option NvmWork
  /-- Real FATAL firings not yet recorded in counter 3 (12 R320). -/
  fatals : Nat
  /-- The holdover bank last chosen (12 R327). -/
  holdLast : Nat
  models : List HoldModel
  /-- What the counter scan has found, while the records and the compaction that belong to it are still to be written (12 R323,
  R324). -/
  scan : Option (List Nat)
  /-- A reset through BOOT that takes effect on the controller when its operation ends (12 R311). -/
  rstDue : Option ResetKind
  deriving DecidableEq, Repr

/-- A check-value unit besides its registers: the configuration latched at GO (12 R334 to R336). -/
structure ChkUnit where
  poly : Nat
  prio : Bool
  fold : Bool
  cmp : Bool
  start : Nat
  len : Nat
  tag : Nat
  foldBase : Nat
  exp : Nat
  expc : Nat
  doneAt : Option Nat
  deriving DecidableEq, Repr

/-- A background check of the shepherd core that waits for CHK_3: start, length, tag, stored check and complement
(12 R337). -/
structure ChkPlan where
  start : Nat
  len : Nat
  tag : Nat
  exp : Nat
  expc : Nat
  deriving DecidableEq, Repr

/-- The check-value units. -/
structure Chk where
  units : List ChkUnit
  plan : List ChkPlan
  deriving DecidableEq, Repr

/-! ### The mailbox (10 R277 to R280) -/

/-- The outcome of a service: completion code and results. -/
structure MbxOut where
  code : Nat
  res : List Nat
  deriving DecidableEq, Repr

/-- What ALIGN does at an output (06 R189): the two tee measurements of its tap against the probe, then in each pass the
interval from the reference. -/
inductive AlignStep where
  /-- Intervals from the probe to the tap of output `m`. -/
  | teeTo (m : Nat)
  /-- Intervals from the tap of output `m` to the probe. -/
  | teeFrom (m : Nat)
  /-- Intervals from the reference to the tap of output `m`. -/
  | skew (m : Nat)
  deriving DecidableEq, Repr

/-- A running ALIGN (06 R189): its probe, the steps to come (the present one first), the present interval job, the sum, the
number and the timeouts of its intervals, the sum of the first tee measurement; the tap constants c found, the pass, the
results of the present pass, and what the tee held before ALIGN. -/
structure AlignRun where
  probe : Nat
  todo : List AlignStep
  job : Option Job
  sum : Int
  count : Nat
  lost : Nat
  half : Option Int
  caps : List (Nat × Int)
  pass : Nat
  done : List (Nat × Nat × Int)
  tee : Nat
  deriving DecidableEq, Repr

/-- The mailbox besides its registers: the number of the present run, its arguments, its outcome once known, and the
measurement of a running ALIGN. -/
structure Mbx where
  run : Nat
  args : List Nat
  out : Option MbxOut
  align : Option AlignRun
  deriving DecidableEq, Repr

/-! ### Boot (chapter 09) -/

/-- The boot loader: strap latches, what the last boot found and chose, and the stream in progress. -/
structure Boot where
  strap : Nat
  addrStrap : Nat
  /-- Image chosen: 0 IMG_A, 1 IMG_B, 2 host stream, 3 none. -/
  src : Nat
  clsA : Nat
  clsB : Nat
  diagA : Nat
  diagB : Nat
  diagH : Nat
  tie : Bool
  /-- Offsets of IMG_A and IMG_B that were last found to read with an uncorrectable error (09 R239, R249). -/
  badA : List Nat
  badB : List Nat
  initRej : Nat
  initSkip : Nat
  /-- Entry point of the patch of the running image; the core runs it. -/
  patch : Option Nat
  patchRuns : Bool
  /-- Next expected address of a host stream. -/
  next : Option Nat
  /-- RESET_N is held low (13 R347). -/
  pinLow : Bool
  /-- Counters (0 power-on, 1 other) that the next scan advances (12 R320). -/
  tally : List Nat
  /-- MODEL'S OWN: the edge at which the image has applied (04 R124). -/
  appliedAt : Option Nat
  /-- TCLK count of the last kick that the watchdog counts from (13 R349). -/
  kick : Nat
  /-- The watchdog has expired and its pulse follows (13 R349). -/
  wdog : Bool
  deriving DecidableEq, Repr

/-! ### Host front ends, craft pins, JTAG (chapters 10 and 14) -/

/-- The states of a TAP controller (14 R381; IEEE 1149.1). [PRESUMED, log 203] -/
inductive Tap where
  | reset | idle | selDr | capDr | shDr | ex1Dr | paDr | ex2Dr | upDr | selIr | capIr | shIr | ex1Ir | paIr | ex2Ir | upIr
  deriving DecidableEq, Repr

/-- The host front ends: LAST_ERR, the status byte of the last SPI frame, the I2C address pointer; the REGACC register
and the instruction of the TAP. -/
structure Front where
  lastErr : Bool
  status : Nat
  i2cPtr : Nat
  /-- Words acknowledged of the last I2C write. -/
  i2cAck : Nat
  /-- MODEL'S OWN: how many errors HOST_ERR has counted since the last reset through BOOT (10 R254). -/
  errs : Nat
  /-- The state of the TAP, its instruction register, and the bits that the last scans shifted out on TDO, in order (14 R381). -/
  tap : Tap
  jtagIr : Nat
  tdo : List Bool
  /-- The boundary-scan register as captured last, and the number of the free values that the last shift left in it (14 R381). -/
  bsr : List Bool
  preload : Option Nat
  /-- The word that the last Capture-DR of REGACC loaded, and what the next one finds (14 R382). -/
  jtagDr : Nat
  jtagErr : Bool
  jtagAddr : Nat
  jtagData : Nat
  /-- TCLK count of the last REGACC access (14 R382). -/
  jtagAt : Option Nat
  /-- TCLK count until which the strobe output is high (10 R270). -/
  strobeUntil : Nat
  /-- The level that the board puts on each GPIO ball, where it drives one. -/
  gpioExt : List (Option Bool)
  /-- The bytes that the SENS master sent in its last read (14 R379). -/
  sensTx : List Nat
  /-- LEDs in the acknowledged state (14 R375). -/
  ledAck : List Bool
  deriving DecidableEq, Repr

/-! ### Modes and the whole device -/

/-- The device modes (13 R352). -/
inductive Mode where
  | reset | boot | run | fold | service | sleep
  deriving DecidableEq, Repr

/-- The code of a mode in DEV_MODE.MODE (13 R352). -/
def Mode.code : Mode → Nat
  | .reset => 0 | .boot => 1 | .run => 2 | .fold => 3 | .service => 4 | .sleep => 5

/-- The mode of a code; codes 6 and 7 are not used and never written. -/
def Mode.ofCode : Nat → Mode
  | 0 => .reset | 1 => .boot | 2 => .run | 3 => .fold | 4 => .service | _ => .sleep

/-- MODEL'S OWN: what the start of a reset pulse changes and an earlier-listed reset of the same edge finds as it stood, since that
one alone is taken (13 R346). -/
structure Undo where
  edge : Nat
  live : Store
  shadow : Store
  sram : ByteMem
  meas : Meas
  jobs : Jobs
  flt : Flt
  nvmc : NvmCtl
  chk : Chk
  mbx : Mbx
  boot : Boot
  clk : Clock
  resetKind : ResetKind
  priorMode : Mode
  deriving DecidableEq, Repr

/-- The device: everything but the queue of waiting commands. -/
structure Dev where
  clk : Clock
  live : Store
  shadow : Store
  /-- The muster's held bank (10 R272). -/
  held : Store
  /-- Registers and latches kept per master (10 R266; 03 R73; 02 R38; 04 R134). -/
  perMaster : Store
  /-- Sequence-clear registers whose SEQ has advanced on the present edge, each with the bits that set (10 R273). -/
  bumped : List (Nat × Nat)
  /-- MODEL'S OWN: the live registers as they stood before the present edge (10 R272, R275). -/
  old : Store
  /-- MODEL'S OWN: registers that the hardware has written on the present edge, a shadowed one in live value and shadow, each with
  the bits (10 R275). -/
  hwSet : List (Nat × Nat)
  /-- Software has broken R12: the manual no longer binds (00 R12). -/
  outside : Bool
  sram : ByteMem
  nvm : ByteMem
  /-- Groups of the array that are programmed although their data bits are all ones: their addresses, rising (12 R308). -/
  nvmOnes : List Nat
  /-- Groups of the array known to read with an uncorrectable error: their addresses, rising (12 R309, R314). -/
  nvmErrs : List Nat
  /-- Rails below their monitor thresholds: 0 VDD_CORE, 1 VDD_ANA, 2 to 4 VDD_OUT_A to _C, 5 VDD_NVM, 6 VHOLD (13 R343, R344). -/
  railLow : List Nat
  meas : Meas
  jobs : Jobs
  flt : Flt
  pads : List Paddock
  /-- The twelve reference monitors and the OCXOIN monitor (05). -/
  refs : List RefMon
  sels : List Select
  /-- MODEL'S OWN: selection is to be evaluated at the present edge, once it is over (05 R146, R154), with the monitors whose
  FOFF result is new. -/
  selNow : Option (List Nat)
  /-- Channels without a REF monitor that have forwarded an edge within the last 3 P (05 R153). -/
  alive : List Nat
  ports : List Port
  beats : List Beat
  past : Past
  aplls : List Apll
  outs : List OutSt
  psyns : List Psyn
  nvmc : NvmCtl
  chk : Chk
  mbx : Mbx
  boot : Boot
  front : Front
  /-- The reset pulse in progress, and the mode held before it (13 R346). -/
  resetKind : ResetKind
  priorMode : Mode
  /-- MODEL'S OWN: what a reset pulse that began on the present edge would give back (13 R346). -/
  undo : Option Undo
  /-- Words returned by the last read. -/
  rsp : List Word
  /-- MODEL'S OWN: how many free values have been drawn. -/
  fresh : Nat
  deriving DecidableEq, Repr

/-- A cell as its tables are cleared (02 R70). -/
def Cell.fresh : Cell :=
  { role := .job, stream := 0, half := 0, armed := none, busy := false, pilot := none, pilotPos := 0, pilotDue := false,
    due := false, overdue := false, coarse := false, fault := 0, eccQuar := false, standIn := false, blocked := false, calibrated := false, calTemp := 0,
    calEnd := 0, pilots := [] }

/-- A channel at reset. -/
def Chan.fresh : Chan := { count := 0, lastFwd := none, lastConv := none }

/-- The measurement front end with CALTAB and the cell roles cleared (13 R357). [DESIGN CHOICE, log 2] -/
def Meas.fresh : Meas :=
  { cells := List.replicate 48 Cell.fresh, chans := List.replicate 66 Chan.fresh, events := [], dueOrder := [],
    calRun := none, handover := none, retest := none, rr := 0, idleOk := false, secCount := 0, secFrom := 0,
    bootCalDone := false }

/-- A ring at power-on reset. -/
def Ring.fresh : Ring := { wq := [], sent := 0, top := 0, replayFrom := none, epochAt := none, wroteAt := none }

/-- The Tally port at reset. [DESIGN CHOICE, log 2] -/
def TpState.fresh : TpState :=
  { closed := [], frameNo := [0, 0], lastRing := 15, laneBad := [false, false], rxLostAt := none, lastSent := none }

/-- The queue and rings at power-on reset: every slot empty (13 R357). [DESIGN CHOICE, log 2] -/
def Jobs.fresh : Jobs :=
  { slots := List.replicate 128 none, nextOrder := 0, rings := List.replicate 16 Ring.fresh, tp := TpState.fresh,
    trace := [] }

/-- The collector at its reset values (11 R306). [DESIGN CHOICE, log 2] -/
def Flt.fresh : Flt :=
  { live := [], fired := [], escEnd := none, quietFrom := none, fnFrom := none, fnWidthDone := false, fnRelPend := false,
    foldPend := false, foldNext := false, capEdge := 0, trace := [], dump := none, dumpCopy := none,
    notLogged := List.replicate 64 0, lastLogSec := List.replicate 64 none, logWait := [], events := [] }

/-- A paddock leaving BOOT (04 R125). -/
def Paddock.fresh : Paddock :=
  { integ := 0, so := 0, spoRem := 0, heldB := 0, sfo := 0, sfoPend := none, steerFrom := 0, bNum := 0, bDen := 1,
    pullAcc := 0, dwell := 0, overRun := 0, first := false, refQ := [], fbQ := [], telCount := 0, tstep := none, modelFrom := 0, secSum := 0, secUpd := 0,
    secUsable := false, histFrom := 0, learn := false, learnSensor := 0, learnHours := 0, egAcc := 0, egAt := 0 }

/-- No edge counted yet. -/
def Edges.fresh : Edges := { count := 0, first := 0, last := 0, lastArr := 0 }

/-- A reference monitor that does not run (05 R136). -/
def RefMon.fresh : RefMon :=
  { win := none, waitWin := false, pjPrev := none, pjSp := [], pjEdges := 0, jumped := false, viols := [], hardCnt := 0,
    clearCnt := 0, wtrDone := false, fmOk := false, okAt := none, strayDue := false, onset := 0, lost := false }

/-- A paddock's selection with no active reference. -/
def Select.fresh : Select :=
  { target := none, waiting := none, group := [], seen := [], errs := [], refSum := 0, refN := 0, raws := [], presses := 0 }

/-- A steering port in state OFF (07 R208). -/
def Port.fresh : Port :=
  { acc := 0, sTgt := 0, fnom := 0, frameAt := none, first := false, resend := false, refresh := false, send := false,
    park := false, sent := none, faultAt := none, trigAt := none }

/-- A beat-note monitor at its start. -/
def Beat.fresh : Beat := { queue := [], lastTs := none, lastF := none, outCnt := 0, inCnt := 0, clean := 0 }

/-- A pasture link that is DOWN. -/
def Link.fresh : Link :=
  { hellos := 0, mseq := 0, launches := [], arrivals := [], nbPrio := 0, nbBwV := false, nbBw := 0, nbBeacon := 0,
    nbElig := false, nbAsym := 0, nbMode := 0, nbFollow := 0, beaconAt := none }

/-- The pasture block at reset (08 R227). -/
def Past.fresh : Past :=
  { links := [Link.fresh, Link.fresh], fseq := 0, seen := List.replicate 8 [], dup := false, dupOn := [], waitFrom := 0, bwPrio := 0,
    tag := 0, raccWrite := false, waiting := [], mustered := none, tx := [], lanes := [Lane.fresh, Lane.fresh] }

/-- An APLL that has not calibrated. -/
def Apll.fresh : Apll := { calFail := false, down := false, resume := false, phase := 0, phaseAt := 0 }
/-- An output that is OFF with no delay. -/
def OutSt.fresh : OutSt :=
  { starting := false, fromOff := false, cut := false, fromC := 0, fromF := 0, movedAt := 0, movedPhase := 0, movedPulse := 0 }
/-- A synthesiser that does not run. -/
def Psyn.fresh : Psyn :=
  { acc := 0, count := 0, word := 0, next := 0, pulseEnd := 0, pulses := 0, fine := 0 }

/-- The NVM controller after power-on reset: one patrol step is due at once (12 R316). [DESIGN CHOICE, log 2] -/
def NvmCtl.fresh : NvmCtl :=
  { queue := [], cur := none, op := none, due := [{ at_ := 0, late := false }], parked := none, fatals := 0,
    holdLast := 1, models := [], scan := none, rstDue := none }
/-- A check-value unit that has run no job. -/
def ChkUnit.fresh : ChkUnit :=
  { poly := 0, prio := false, fold := false, cmp := false, start := 0, len := 0, tag := 0, foldBase := 0, exp := 0, expc := 0, doneAt := none }
/-- The check-value units at reset. -/
def Chk.fresh : Chk := { units := List.replicate 4 ChkUnit.fresh, plan := [] }
/-- The mailbox with nothing requested. -/
def Mbx.fresh : Mbx := { run := 0, args := [], out := none, align := none }
/-- The boot loader as power-on reset ends with both straps 0 (09 R242). [DESIGN CHOICE, log 2] -/
def Boot.fresh : Boot :=
  { strap := 0, addrStrap := 0, src := 3, clsA := 0, clsB := 0, diagA := 0, diagB := 0, diagH := 0, tie := false, badA := [], badB := [],
    initRej := 0, initSkip := 0, patch := none, patchRuns := false, next := none, pinLow := false, tally := [0], appliedAt := none, kick := 0,
    wdog := false }
/-- The front ends at reset; Test-Logic-Reset loads IDCODE (14 R381). [DEDUCED, log 149; DESIGN CHOICE, log 2] -/
def Front.fresh : Front :=
  { lastErr := false, status := 0x80, i2cPtr := 0, i2cAck := 0, errs := 0, tap := .reset, jtagIr := 2, tdo := [], bsr := [], preload := none,
    jtagDr := 0, jtagErr := false, jtagAddr := 0, jtagData := 0, jtagAt := none, strobeUntil := 0, gpioExt := List.replicate 8 none,
    sensTx := [], ledAck := [false, false, false, false] }

/-- The clocks right after power-on reset: BOOTCLK runs, the system PLL has not locked (01 R15, R16; 02 R36). -/
def Clock.fresh : Clock :=
  { tclk := 0, edge := 0, closed := false, updated := false, accessed := false, dev := 0, inc := 40960 * 2 ^ 32, coarse := 0, pllLocked := false, bootclk := true,
    unreliable := false, hsec := 0, xoin := 0 }

/-- The device right after power-on reset. [DESIGN CHOICE, log 2] -/
def Dev.reset : Dev :=
  { clk := Clock.fresh, live := [], shadow := [], held := [], perMaster := [], bumped := [], old := [], hwSet := [], outside := false,
    sram := [], nvm := [], nvmOnes := [], nvmErrs := [], railLow := [], meas := Meas.fresh, jobs := Jobs.fresh, flt := Flt.fresh,
    pads := List.replicate 16 Paddock.fresh, refs := List.replicate 13 RefMon.fresh,
    sels := List.replicate 16 Select.fresh, selNow := none, alive := [], ports := List.replicate 8 Port.fresh,
    beats := List.replicate 8 Beat.fresh, past := Past.fresh,
    aplls := List.replicate 6 Apll.fresh, outs := List.replicate 24 OutSt.fresh,
    psyns := List.replicate 4 Psyn.fresh, nvmc := NvmCtl.fresh, chk := Chk.fresh, mbx := Mbx.fresh,
    boot := Boot.fresh, front := Front.fresh, resetKind := .por, priorMode := .boot, undo := none, rsp := [], fresh := 0 }

/-- The machine: the device and the queue of the commands that wait, first in, first out. -/
structure State where
  pending : List Instr
  dev : Dev
  deriving DecidableEq, Repr

/-- The device as power-on reset is released: the RESET and MODE entries wait for the event log (12 R319).
[DESIGN CHOICE, log 4] -/
def Dev.released : Dev :=
  { Dev.reset with flt := { Flt.fresh with
      logWait := [{ code := 2, arg := 0, sec := 0, ns := 0, data := 1 }, { code := 4, arg := 1, sec := 0, ns := 0, data := 0 }] } }

/-- The machine right after power-on reset (13 R346, R352: mode BOOT, nothing waiting). [DESIGN CHOICE, log 4] -/
def State.reset : State := { pending := [], dev := Dev.released }

end Sys2Proof.Machine
end

