-- ==== Sys2Proof/Machine/Line.lean ====
section
/-!
DEFINITION. The transmit lanes of the pasture links: the 8b/10b line coding and the frames that wait for a lane (08 R210, R213).
-/

namespace Sys2Proof.Machine

/-! ### 8b/10b code groups (08 R210) -/

/-- The sub-block abcdei of D.x at negative running disparity, x being the low five bits of the octet; bit a is the most
significant. [PRESUMED, log 200] -/
def code6 (x : Nat) : Nat :=
  [0b100111, 0b011101, 0b101101, 0b110001, 0b110101, 0b101001, 0b011001, 0b111000,
   0b111001, 0b100101, 0b010101, 0b110100, 0b001101, 0b101100, 0b011100, 0b010111,
   0b011011, 0b100011, 0b010011, 0b110010, 0b001011, 0b101010, 0b011010, 0b111010,
   0b110011, 0b100110, 0b010110, 0b110110, 0b001110, 0b101110, 0b011110, 0b101011].getD x 0

/-- The sub-block fghj of .y at negative running disparity, y being the high three bits of the octet. [PRESUMED, log 200] -/
def code4 (y : Nat) : Nat := [0b1011, 0b1001, 0b0101, 0b1100, 0b1101, 0b1010, 0b0110, 0b1110].getD y 0

/-- Ones among the `n` low bits of a number. -/
def onesIn (n v : Nat) : Nat := ((List.range n).filter fun k => v.testBit k).length

/-- A sub-block of `n` bits, as it is sent where the running disparity is `plus`, and the disparity after it: one that has as many
ones as zeros keeps it, and is the same for both but where `alters` says so. -/
def subBlock (n code : Nat) (alters plus : Bool) : Nat × Bool :=
  let even := decide (2 * onesIn n code = n)
  (if plus && (!even || alters) then 2 ^ n - 1 - code else code, if even then plus else !plus)

/-- The alternate fghj of D.x.7, which keeps runs of five equal bits out of the stream. [PRESUMED, log 200] -/
def altSeven (x : Nat) (plus : Bool) : Bool :=
  if plus then x = 11 || x = 13 || x = 14 else x = 17 || x = 18 || x = 20

/-- The ten-bit code group of a data octet, first bit most significant, and the running disparity after it. -/
def dataGroup (v : Nat) (plus : Bool) : Nat × Bool :=
  let x := v % 32
  let y := v / 32 % 8
  let a := subBlock 6 (code6 x) (decide (x = 7)) plus
  let b := subBlock 4 (if y = 7 ∧ altSeven x a.2 then 0b0111 else code4 y) (decide (y = 3)) a.2
  (a.1 * 16 + b.1, b.2)

/-- The code group of the comma K28.5, and the running disparity after it. [PRESUMED, log 200] -/
def commaGroup (plus : Bool) : Nat × Bool := (if plus then 0b1100000101 else 0b0011111010, !plus)

/-- Data octets in code groups, and the running disparity after them. -/
def dataGroups : List Nat → Bool → List Nat × Bool
  | [], plus => ([], plus)
  | v :: t, plus =>
    let g := dataGroup v plus
    let r := dataGroups t g.2
    (g.1 :: r.1, r.2)

/-- The 36 code groups of a frame, whose first character is K28.5, and the running disparity after them (08 R210, R211). -/
def PFrame.groups (f : PFrame) (plus : Bool) : List Nat × Bool :=
  let k := commaGroup plus
  let r := dataGroups (f.chars.drop 1) k.2
  (k.1 :: r.1, r.2)

/-- The idle pair K28.5, D16.2, which leaves the running disparity as it was (08 R210). -/
def idleGroups (plus : Bool) : List Nat :=
  let k := commaGroup plus
  [k.1, (dataGroup 0x50 k.2).1]

/-! ### Frames that wait (08 R210, R213) -/

/-- The first even character that begins at or after TCLK count `t`: a pair of characters of 4 ns lasts 12.8 TCLK periods.
[DESIGN CHOICE, log 159] -/
def evenFrom (t : Nat) : Nat := (10 * t + 127) / 128

/-- A lane from TCLK count `now` up to `upto`: at each even character at which no frame is in progress the first of the frames that
wait starts, and is not cut short (08 R213).  A frame of 36 characters lasts 18 pairs. -/
def Lane.drain (now upto : Nat) : List PFrame → Lane → Lane
  | [], l => { l with queue := [] }
  | f :: t, l =>
    let b := max l.free (evenFrom now)
    if 128 * b < 10 * upto then
      Lane.drain now upto t { l with free := b + 18, sent := some (b, f, l.plus), plus := (f.groups l.plus).2 }
    else { l with queue := f :: t }

/-- The code group on a lane as its character number `c` since TCLK count 0: of the frame last started, or of idles. -/
def Lane.group (l : Lane) (c : Nat) : Nat :=
  match l.sent with
  | some (b, f, plus) =>
    if 2 * b ≤ c ∧ c < 2 * b + 36 then (f.groups plus).1.getD (c - 2 * b) 0 else (idleGroups l.plus).getD (c % 2) 0
  | none => (idleGroups l.plus).getD (c % 2) 0

end Sys2Proof.Machine
end

