-- ==== Sys2Proof/Machine/Ops.lean ====
section
/-!
DEFINITION. The named operations over the state: reading and writing registers and their fields, sequence-clear status
bits, counters, the passage of time, device time, SRAM and NVM bytes, and the lists of instances.
-/

namespace Sys2Proof.Machine

/-! ### Registers (00 R6, R9 to R11; 10 R266, R273) -/

/-- The reset word of the register at `a`; 0 where the map has none (00 R10). [DESIGN CHOICE, log 2] -/
def resetWord (a : Nat) : Word :=
  match findRow (regRowsAt a) a with
  | some r => Word.of r.reset
  | none => 0

/-- The live word of the register at `a`. -/
def Dev.word (d : Dev) (a : Nat) : Word := d.live.get a (resetWord a)

/-- `d` with the live word at `a` replaced. -/
def Dev.setWord (d : Dev) (a : Nat) (w : Word) : Dev :=
  { d with live := d.live.put a w (resetWord a) }

/-- The shadow word of the register at `a` (10 R266). -/
def Dev.shWord (d : Dev) (a : Nat) : Word := d.shadow.get a (resetWord a)

/-- `d` with the shadow word at `a` replaced. -/
def Dev.setShWord (d : Dev) (a : Nat) (w : Word) : Dev :=
  { d with shadow := d.shadow.put a w (resetWord a) }

/-- The key of a register kept per master. -/
def pmKey (m a : Nat) : Nat := m * 0x1000000 + a

/-- The word a master's own copy of the register at `a` holds (03 R73; 10 R266; 04 R134). -/
def Dev.pmWord (d : Dev) (m a : Nat) : Word := d.perMaster.get (pmKey m a) 0

/-- `d` with master `m`'s own copy of the register at `a` replaced. -/
def Dev.setPmWord (d : Dev) (m a : Nat) (w : Word) : Dev :=
  { d with perMaster := d.perMaster.put (pmKey m a) w 0 }

/-- The live value of a field. -/
def Dev.rd (d : Dev) (f : Fld) : Nat := bitsOf (d.word f.addr).toNat f.hi f.lo

/-- `d` with a live field replaced (the hardware's own write). -/
def Dev.wr (d : Dev) (f : Fld) (v : Nat) : Dev :=
  d.setWord f.addr (Word.of (setBits (d.word f.addr).toNat f.hi f.lo v))

/-- A one-bit field as a Bool. -/
def Dev.flag (d : Dev) (f : Fld) : Bool := decide (d.rd f ≠ 0)

/-- A field read as a two's complement number. -/
def Dev.rdS (d : Dev) (f : Fld) : Int := sext (f.hi - f.lo + 1) (d.rd f)

/-- The shadow value of a field. -/
def Dev.rdSh (d : Dev) (f : Fld) : Nat := bitsOf (d.shWord f.addr).toNat f.hi f.lo

/-- `d` with a field replaced in live value and shadow alike: the hardware writes both, and a software write of the
register on the same edge is discarded (10 R275). -/
def Dev.wrBoth (d : Dev) (f : Fld) (v : Nat) : Dev :=
  let d := (d.wr f v).setShWord f.addr (Word.of (setBits (d.shWord f.addr).toNat f.hi f.lo v))
  { d with hwSet := (f.addr, setBits 0 f.hi f.lo (2 ^ (f.hi - f.lo + 1) - 1)) :: d.hwSet }

/-- `d` with a whole register of class RW written by the hardware: a software write on the same edge is overridden (10 R275). -/
def Dev.setHw (a : Nat) (w : Word) (d : Dev) : Dev := { d.setWord a w with hwSet := (a, 0xFFFFFFFF) :: d.hwSet }

/-- The bits of the register at `a` that the hardware has written over the software on the present edge. -/
def Dev.hwBits (d : Dev) (a : Nat) : Nat := d.hwSet.foldl (fun v p => if p.1 = a then v ||| p.2 else v) 0

/-- The live word of the register at `a` as it stood before the present edge (10 R272, R275). -/
def Dev.oldWord (d : Dev) (a : Nat) : Word := d.old.get a (resetWord a)
/-- A field of a register as it was at the start of the present edge. -/
def Dev.oldRd (d : Dev) (f : Fld) : Nat := bitsOf (d.oldWord f.addr).toNat f.hi f.lo

/-- Master `m`'s own copy of a field. -/
def Dev.rdPm (d : Dev) (m : Nat) (f : Fld) : Nat := bitsOf (d.pmWord m f.addr).toNat f.hi f.lo

/-- `d` with master `m`'s own copy of a field replaced. -/
def Dev.wrPm (d : Dev) (m : Nat) (f : Fld) (v : Nat) : Dev :=
  d.setPmWord m f.addr (Word.of (setBits (d.pmWord m f.addr).toNat f.hi f.lo v))

/-- A 48-bit pair of registers as a natural number: the _HI half over the _LO half (04 R134). -/
def Dev.rd48 (d : Dev) (lo hi : Fld) : Nat := d.rd lo + 0x100000000 * d.rd hi

/-- A 48-bit pair as a signed number (00 R8). -/
def Dev.rd48S (d : Dev) (lo hi : Fld) : Int := sext 48 (d.rd48 lo hi)

/-- A signed value written to a 48-bit pair. -/
def Dev.wr48 (d : Dev) (lo hi : Fld) (v : Int) : Dev :=
  (d.wr lo (twos 48 v % 0x100000000)).wr hi (twos 48 v / 0x100000000)

/-- SEQ of the register at `a` has advanced on this edge (10 R273). [DESIGN CHOICE, log 14] -/
def Dev.movedSeq (d : Dev) (a : Nat) : Bool := d.bumped.any fun p => decide (p.1 = a)

/-- SEQ of the register at `a` as it stood before this edge (10 R273). -/
def Dev.seqBefore (d : Dev) (a : Nat) : Nat :=
  let q := bitsOf (d.word a).toNat 31 24
  if d.movedSeq a then (q + 255) % 256 else q

/-- The status bits of the register at `a` whose set condition has occurred on this edge (10 R273, R275). -/
def Dev.setNow (d : Dev) (a : Nat) : Nat := d.bumped.foldl (fun v p => if p.1 = a then v ||| p.2 else v) 0

/-- The set condition of status bits of a sequence-clear register occurs: the bits set and SEQ advances, once per edge
(10 R273). `mask` names the bits. [DEDUCED, log 20] -/
def Dev.evtMask (d : Dev) (a mask : Nat) : Dev :=
  let w := (d.word a).toNat
  let seq := if d.movedSeq a then bitsOf w 31 24 else (bitsOf w 31 24 + 1) % 256
  { d.setWord a (Word.of (setBits (w ||| (mask % 0x1000000)) 31 24 seq)) with bumped := (a, mask % 0x1000000) :: d.bumped }

/-- A status bit that has set on this edge has not set after all: another happening of the edge goes before the one that set
it (05 R146). -/
def Dev.unEvt (d : Dev) (f : Fld) : Dev :=
  let a := f.addr
  if d.setNow a = 2 ^ f.lo then
    { d.setWord a (d.oldWord a) with bumped := d.bumped.filter fun p => decide (p.1 ≠ a) }
  else if (d.oldWord a).toNat.testBit f.lo then d
  else d.wr f 0

/-- The set condition of one status bit occurs (10 R273). -/
def Dev.evt (d : Dev) (f : Fld) : Dev := d.evtMask f.addr (2 ^ f.lo)

/-- The set condition of a status bit occurs if `b`. -/
def Dev.evtIf (d : Dev) (b : Bool) (f : Fld) : Dev := if b then d.evt f else d

/-- A wrapping counter advances by one. -/
def Dev.bump (d : Dev) (f : Fld) : Dev := d.wr f (d.rd f + 1)

/-- A counter that saturates at its field's top advances by one. -/
def Dev.bumpSat (d : Dev) (f : Fld) : Dev :=
  if d.rd f + 1 < 2 ^ (f.hi - f.lo + 1) then d.wr f (d.rd f + 1) else d

/-- The tuning value of a field limited to its stated range (11, FLT registers; 02 R64). [DEDUCED, log 59] -/
def Dev.rdIn (d : Dev) (f : Fld) (lo hi : Nat) : Nat := clampN lo hi (d.rd f)

/-! ### Lists of instances -/

/-- The list with element `n` replaced by `f` of it; unchanged past its end. -/
def updAt {α : Type} (l : List α) (n : Nat) (f : α → α) : List α := l.modify n f

/-- Fold a function of the index over 0 .. n-1. -/
def forN (n : Nat) (f : Nat → Dev → Dev) (d : Dev) : Dev := (List.range n).foldl (fun d k => f k d) d

/-- `f d` if `b`, else `d`. -/
def Dev.when (d : Dev) (b : Bool) (f : Dev → Dev) : Dev := if b then f d else d

/-- Cell `k` of the pool. -/
def Dev.cell (d : Dev) (k : Nat) : Cell := d.meas.cells.getD k Cell.fresh
/-- `d` with cell `k` changed. -/
def Dev.setCell (d : Dev) (k : Nat) (f : Cell → Cell) : Dev :=
  { d with meas := { d.meas with cells := updAt d.meas.cells k f } }
/-- Channel `k`. -/
def Dev.chan (d : Dev) (k : Nat) : Chan := d.meas.chans.getD k Chan.fresh
/-- `d` with channel `k` changed. -/
def Dev.setChan (d : Dev) (k : Nat) (f : Chan → Chan) : Dev :=
  { d with meas := { d.meas with chans := updAt d.meas.chans k f } }
/-- The job in slot `k`. -/
def Dev.job (d : Dev) (k : Nat) : Option Job := d.jobs.slots.getD k none
/-- `d` with slot `k` replaced. -/
def Dev.setJob (d : Dev) (k : Nat) (j : Option Job) : Dev :=
  { d with jobs := { d.jobs with slots := updAt d.jobs.slots k fun _ => j } }
/-- Ring `k` besides its registers. -/
def Dev.ring (d : Dev) (k : Nat) : Ring := d.jobs.rings.getD k Ring.fresh
/-- `d` with ring `k` changed. -/
def Dev.setRing (d : Dev) (k : Nat) (f : Ring → Ring) : Dev :=
  { d with jobs := { d.jobs with rings := updAt d.jobs.rings k f } }
/-- Paddock `k` besides its registers. -/
def Dev.pad (d : Dev) (k : Nat) : Paddock := d.pads.getD k Paddock.fresh
/-- `d` with paddock `k` changed. -/
def Dev.setPad (d : Dev) (k : Nat) (f : Paddock → Paddock) : Dev :=
  { d with pads := updAt d.pads k f }

/-- Reference monitor `k`; 12 is the OCXOIN monitor. -/
def Dev.ref (d : Dev) (k : Nat) : RefMon := d.refs.getD k RefMon.fresh
/-- `d` with reference monitor `k` changed. -/
def Dev.setRef (d : Dev) (k : Nat) (f : RefMon → RefMon) : Dev := { d with refs := updAt d.refs k f }
/-- The selection of paddock `k` besides its registers. -/
def Dev.selOf (d : Dev) (k : Nat) : Select := d.sels.getD k Select.fresh
/-- `d` with the selection of paddock `k` changed. -/
def Dev.setSel (d : Dev) (k : Nat) (f : Select → Select) : Dev := { d with sels := updAt d.sels k f }
/-- Steering port `k` besides its registers. -/
def Dev.port (d : Dev) (k : Nat) : Port := d.ports.getD k Port.fresh
/-- `d` with steering port `k` changed. -/
def Dev.setPort (d : Dev) (k : Nat) (f : Port → Port) : Dev := { d with ports := updAt d.ports k f }
/-- Beat-note monitor `k` besides its registers. -/
def Dev.beat (d : Dev) (k : Nat) : Beat := d.beats.getD k Beat.fresh
/-- `d` with beat-note monitor `k` changed. -/
def Dev.setBeat (d : Dev) (k : Nat) (f : Beat → Beat) : Dev := { d with beats := updAt d.beats k f }
/-- Pasture link `k` besides its registers. -/
def Dev.link (d : Dev) (k : Nat) : Link := d.past.links.getD k Link.fresh
/-- `d` with pasture link `k` changed. -/
def Dev.setLink (d : Dev) (k : Nat) (f : Link → Link) : Dev :=
  { d with past := { d.past with links := updAt d.past.links k f } }

/-- APLL `k` besides its registers. -/
def Dev.apll (d : Dev) (k : Nat) : Apll := d.aplls.getD k Apll.fresh
/-- `d` with APLL `k` changed. -/
def Dev.setApll (d : Dev) (k : Nat) (f : Apll → Apll) : Dev := { d with aplls := updAt d.aplls k f }
/-- Output `k` besides its registers. -/
def Dev.out (d : Dev) (k : Nat) : OutSt := d.outs.getD k OutSt.fresh
/-- `d` with output `k` changed. -/
def Dev.setOut (d : Dev) (k : Nat) (f : OutSt → OutSt) : Dev := { d with outs := updAt d.outs k f }
/-- Synthesiser `k` besides its registers. -/
def Dev.psyn (d : Dev) (k : Nat) : Psyn := d.psyns.getD k Psyn.fresh
/-- `d` with synthesiser `k` changed. -/
def Dev.setPsyn (d : Dev) (k : Nat) (f : Psyn → Psyn) : Dev := { d with psyns := updAt d.psyns k f }

/-! ### Modes (13 R352) -/

/-- The device mode. -/
def Dev.mode (d : Dev) : Mode := Mode.ofCode (d.rd DEV_MODE_MODE)
/-- `d` in another mode. -/
def Dev.setMode (d : Dev) (m : Mode) : Dev := d.wr DEV_MODE_MODE m.code
/-- The engine measures: the device is in RUN, FOLD or SERVICE (13 R350, R352, R355). -/
def Dev.measuring (d : Dev) : Bool := d.mode = .run || d.mode = .fold || d.mode = .service
/-- The image has applied: any mode but RESET and BOOT. -/
def Dev.applied (d : Dev) : Bool := d.measuring || d.mode = .sleep

/-- The mode in which the device is, or to which a WARM or WDOG pulse leads back. -/
def Dev.underMode (d : Dev) : Mode := match d.mode with | .reset => d.priorMode | m => m
/-- The image has applied and no reset that undoes it has come: a WARM or WDOG pulse keeps the lanes of the pasture links,
their election and the collector running (08 R227; 13 R350; 11 R287). -/
def Dev.running (d : Dev) : Bool :=
  match d.underMode with
  | .reset | .boot => false
  | _ => true

/-- Selection is asked for at the present edge (05 R154); `m`: the monitor that has a new FOFF result.  It is evaluated once,
when everything of the edge is known (05 R146). [DESIGN CHOICE, log 173] -/
def Dev.askSelect (m : Option Nat) (d : Dev) : Dev := { d with selNow := some (d.selNow.getD [] ++ m.toList) }

/-! ### Time (01 R17; 02 R36; 04 R111) -/

/-- One second of device time in 2^-16 ns. -/
def secUnits : Nat := 1000000000 * 65536
/-- The modulus of device time in 2^-48 ns: 2^48 seconds (02 R36). -/
def devTop : Nat := 2 ^ 48 * secUnits * 2 ^ 32
/-- The increment of a time keeper at zero offset (02 R35). -/
def inc0 : Nat := 40960 * 2 ^ 32
/-- TCLK periods in one microsecond (01 R17). [DESIGN CHOICE, log 25] -/
def usTclk : Nat := 1600

/-- The start of another edge: what was noted of the edge before it is forgotten (10 R273, R275; 11 R281).
[DEDUCED, log 20; DESIGN CHOICE, log 14] -/
def Dev.newEdge (d : Dev) : Dev :=
  { d with
    clk := { d.clk with edge := d.clk.edge + 1, closed := false, updated := false, accessed := false }
    bumped := [], old := d.live, hwSet := []
    flt := { d.flt with fired := [] } }

/-- Nothing further falls on the present edge: an access has taken effect on it, or an event whose rule orders it behind
everything else of its edge (10 R275). [DESIGN CHOICE, log 19] -/
def Dev.closeEdge (d : Dev) : Dev := { d with clk := { d.clk with closed := true } }

/-- The bus has made its access of the present edge, which nothing but an update joins any more (01 R26; 10 R275).
[DESIGN CHOICE, log 19] -/
def Dev.accessEdge (d : Dev) : Dev := { d with clk := { d.clk with closed := true, accessed := true } }

/-- An update has fallen on the present edge: the monitor changes of the edge have come before it, and what follows on it is
another update or an access (05 R146; 10 R269, R275). [DESIGN CHOICE, log 19] -/
def Dev.updateEdge (d : Dev) : Dev := { d with clk := { d.clk with updated := true } }

/-- What happens `dt` TCLK periods from now falls on the present LCLK edge: it is of the same LCLK cycle, and the edge is not
over (01 R17; 10 R275). [DESIGN CHOICE, log 19] -/
def Dev.sameEdge (d : Dev) (dt : Nat) : Bool := decide ((d.clk.tclk + dt) / 4 = d.clk.tclk / 4) && !d.clk.closed && !d.clk.updated

/-- An update, or an access of the bus, that falls `dt` TCLK periods from now in the LCLK cycle of an update joins its edge, which
has no access yet where it is one (08 R224; 10 R269; 01 R26). [DESIGN CHOICE, log 19] -/
def Dev.rejoin (access : Bool) (dt : Nat) (d : Dev) : Dev :=
  if d.clk.updated && !(access && d.clk.accessed) && decide ((d.clk.tclk + dt) / 4 = d.clk.tclk / 4) then
    { d with clk := { d.clk with closed := false, updated := false } }
  else d

/-- Device time at TCLK count `t`, which is now or later, as the counter reads then; a free value after a loss of lock (01 R18).
[DESIGN CHOICE, log 5] -/
def Clock.devAt (c : Clock) (t : Nat) : Nat :=
  if c.unreliable then Config.unreliableTime t % devTop
  else if c.pllLocked then (c.dev + (t - c.tclk) * c.inc) % devTop else c.dev

/-- The device time latched at a stop edge that falls on or before TCLK count `upto`, and the increment there, before any
step of device time on that edge (02 R35); and the same of the TCLK edge after it (02 R32). [DESIGN CHOICE, log 161] -/
def Event.latch (c : Clock) (upto : Nat) (e : Event) : Event :=
  let e := if e.latched || decide (upto < e.stopAt) then e
    else { e with latched := true, inc := c.inc, dtStop := c.devAt e.stopAt }
  if e.late.isSome || decide (upto < e.stopAt + 1) then e else { e with late := some (c.devAt (e.stopAt + 1), c.inc) }

/-- `dt` TCLK periods pass: TCLK, the coarse counter and device time run while the system PLL is locked (02 R36, R37;
01 R15, R16).  Commands of one LCLK cycle act on one edge, so a SEQ that has advanced does not advance again (10 R273).
[DEDUCED, log 20, 24; DESIGN CHOICE, log 15, 19, 153] -/
def Dev.advance (dt : Nat) (d : Dev) : Dev :=
  let c := d.clk
  let same := d.sameEdge dt
  { d with
    clk := { c with
      tclk := c.tclk + dt
      edge := if same then c.edge else c.edge + 1
      closed := false
      updated := false
      accessed := same && c.accessed
      dev := if c.pllLocked then (c.dev + dt * c.inc) % devTop else c.dev
      coarse := if c.pllLocked then c.coarse + dt else c.coarse }
    bumped := if same then d.bumped else []
    old := if same then d.old else d.live
    hwSet := if same then d.hwSet else []
    flt := { d.flt with fired := if same then d.flt.fired else [] }
    meas := { d.meas with events := d.meas.events.map (Event.latch c (c.tclk + dt)) }
    past := { d.past with tx := [], lanes := d.past.lanes.map fun l => l.drain c.tclk (c.tclk + dt) l.queue } }

/-- Device time in 2^-48 ns; a free value after a loss of lock (01 R18). [DESIGN CHOICE, log 5] -/
def Dev.now48 (d : Dev) : Nat :=
  if d.clk.unreliable then Config.unreliableTime d.clk.tclk % devTop else d.clk.dev

/-- Device time in 2^-16 ns, rounded half up to whole units (02 R36). -/
def Dev.nowU (d : Dev) : Nat := ((d.now48 + 2 ^ 31) / 2 ^ 32) % (2 ^ 48 * secUnits)

/-- Seconds of a time in 2^-16 ns. -/
def uSec (t : Nat) : Nat := t / secUnits
/-- Nanoseconds of a time in 2^-16 ns. -/
def uNs (t : Nat) : Nat := (t % secUnits) / 65536
/-- Fraction of a time in 2^-16 ns. -/
def uFrac (t : Nat) : Nat := t % 65536

/-- A timestamp packed as in a TS record: seconds[17:0], ns[29:0], frac[15:0] (03 R88). -/
def packTs (t : Nat) : Nat := (uSec t % 2 ^ 18) * 2 ^ 46 + uNs t * 2 ^ 16 + uFrac t

/-- Microseconds passed since TCLK count `t`. [DESIGN CHOICE, log 25] -/
def Dev.usSince (d : Dev) (t : Nat) : Nat := (d.clk.tclk - t) / usTclk
/-- Seconds passed since TCLK count `t`. [DESIGN CHOICE, log 25] -/
def Dev.secSince (d : Dev) (t : Nat) : Nat := (d.clk.tclk - t) / (usTclk * 1000000)

/-! ### SRAM and NVM bytes (01 R27, R29; 00 R7) -/

/-- A little-endian word of SRAM at a bus address (01 R27). [DESIGN CHOICE, log 3] -/
def Dev.sramWord (d : Dev) (a : Nat) : Nat := leNat (ByteMem.bytes d.sram 0 a 4)
/-- Bytes written to SRAM. -/
def Dev.setSram (d : Dev) (a : Nat) (bs : List Byte) : Dev :=
  { d with sram := ByteMem.store d.sram 0 0x100000 0x180000 a bs }
/-- A little-endian word written to SRAM. -/
def Dev.setSramWord (d : Dev) (a v : Nat) : Dev := d.setSram a (leBytes 4 v)
/-- NVM reads return all ones and find no error: VDD_NVM is below its monitor threshold (12 R309; 13 R343). -/
def Dev.nvmDark (d : Dev) : Bool := d.railLow.contains 5
/-- The device as it is once VDD_NVM can be read again. -/
def Dev.lit (d : Dev) : Dev := { d with railLow := d.railLow.filter fun r => decide (r ≠ 5) }
/-- The NVM array as reads see it (12 R309). -/
def Dev.nvmSeen (d : Dev) : ByteMem := if d.nvmDark then [] else d.nvm
/-- A little-endian word of the NVM array at a window address, as read (01 R29; 12 R309). [DESIGN CHOICE, log 3] -/
def Dev.nvmWord (d : Dev) (a : Nat) : Nat := leNat (ByteMem.bytes d.nvmSeen 0xFF a 4)
/-- Bytes written to the NVM array. -/
def Dev.setNvm (d : Dev) (a : Nat) (bs : List Byte) : Dev :=
  { d with nvm := ByteMem.store d.nvm 0xFF 0x200000 0x228000 a bs }

/-! ### Integer square root and fixed-point helpers -/

/-- Newton-free integer square root, by bits: the largest r below 2^(k+1) with r * r ≤ n. -/
def isqrtAux (n : Nat) : Nat → Nat → Nat
  | 0, r => if (r + 1) * (r + 1) ≤ n then r + 1 else r
  | k + 1, r => let s := r + 2 ^ (k + 1); isqrtAux n k (if s * s ≤ n then s else r)

/-- The integer square root of a number below 2^512. -/
def isqrt (n : Nat) : Nat := isqrtAux n 255 0

/-! ### Nominal spacings (02 R53, R45; 05 R137; 08 R215) -/

/-- The marker period P_M of a MK_PER code, in 2^-16 ns: the 1-2-5 series from 1 us to 1 s (08 R215). -/
def markPeriod (code : Nat) : Nat :=
  let m := match code % 3 with | 0 => 1 | 1 => 2 | _ => 5
  m * 10 ^ (code / 3) * 1000 * 65536

/-- The nominal spacing of a channel's decimated stream, in 2^-16 ns, as a fraction, where the channel's own registers state
it (02 R53): from the nominal frequency for REFIN, OCXOIN and XOIN, the beat target for BNIN, P_M for a pasture link, the
microsecond for UTICK. [DEDUCED, log 88] -/
def Dev.ownSpacing (d : Dev) (ch : Nat) : Option (Nat × Nat) :=
  let dec := d.rd (MCH_DEC_DEC ch)
  if ch < 12 then
    let nom := d.rd48 (REF_NOM_LO_NOM ch) (REF_NOM_HI_NOM ch)
    if nom = 0 then none else some (dec * 2 ^ 32 * 1000000000, nom)
  else if 12 ≤ ch ∧ ch < 20 then
    match (List.range 8).find? fun k => d.flag (STEER_CFG_USED k) && decide (d.rd (STEER_CFG_PAD k) = d.rd (BN_CFG_PAD (ch - 12)))
    with
    | some k =>
      let f := (d.port k).fnom
      if f = 0 ∨ ¬ d.flag (BN_CFG_STEER_V (ch - 12)) then none
      else some (8 ^ d.rd (BN_CFG_PRE (ch - 12)) * dec * 256 * 65536 * 1000000000, f)
    | none => none
  else if ch = 44 ∨ ch = 45 then some (markPeriod (d.rd PAST_CFG_MK_PER), 1)
  else if ch = 50 then
    if d.clk.xoin = 0 then none else some (dec * 65536 * 1000000000, d.clk.xoin * 10000)
  else if ch = 51 then
    let nom := d.rd48 REF_OCXO_NOM_LO_NOM REF_OCXO_NOM_HI_NOM
    if nom = 0 then none else some (dec * 2 ^ 32 * 1000000000, nom)
  else if ch = 52 then some (dec * 1000 * 65536, 1)
  else none

/-- Channel `ch` belongs to the phase loop of paddock `n`: its feedback, its edge generator, or a candidate (04 R106, R108). -/
def Dev.inLoop (d : Dev) (ch n : Nat) : Bool :=
  let k := d.rd (PAD_CFG_KIND n)
  (k = 0 || k = 2) && (decide (d.rd (PAD_CFG_FB_CH n) = ch) ||
    (d.flag (PAD_CFG_EG_V n) && decide (53 + d.rd (PAD_CFG_EG n) = ch)) ||
    (List.range 8).any fun i => d.flag (PAD_CAND_CFG_VALID n i) && decide (d.rd (PAD_CAND_CFG_CH n i) = ch))

/-- The period P of paddock `n` as its candidates' own registers state it: all have one nominal decimated rate (04 R106). -/
def Dev.loopPeriod (d : Dev) (n : Nat) : Option (Nat × Nat) :=
  (List.range 8).findSome? fun i =>
    if d.flag (PAD_CAND_CFG_VALID n i) then d.ownSpacing (d.rd (PAD_CAND_CFG_CH n i)) else none

/-- The nominal spacing of a channel's decimated stream, in 2^-16 ns, as a fraction (02 R53): its own registers', or the
period P of a paddock whose loop it belongs to (04 R105, R106, R108), else the plan's. [DEDUCED, log 88; DESIGN CHOICE, log 8] -/
def Dev.spacing (d : Dev) (ch : Nat) : Nat × Nat :=
  match d.ownSpacing ch with
  | some p => p
  | none => ((List.range 16).findSome? fun n => if d.inLoop ch n then d.loopPeriod n else none).getD (Config.planSpacing ch, 1)

/-- A loop stream is slow when its nominal spacing exceeds 10 us (02 R53). -/
def Dev.slowStream (d : Dev) (ch : Nat) : Bool :=
  let p := d.spacing ch
  decide (10000 * 65536 * p.2 < p.1)

/-! ### Work for the NVM controller and the event log (12 R315, R319, R320) -/

/-- Work not yet started. -/
def NvmWork.new (k : NvmKind) : NvmWork :=
  { kind := k, step := 0, groups := [], recVal := 0, recCopy := false }

/-- Work joins the controller's queue (12 R315). -/
def Dev.nvmRequest (k : NvmKind) (d : Dev) : Dev :=
  { d with nvmc := { d.nvmc with queue := d.nvmc.queue ++ [NvmWork.new k] } }

/-- A device counter advances (12 R320). -/
def Dev.cntAdd (id n : Nat) (d : Dev) : Dev := d.nvmRequest (.counter id 1 n false)

/-- An entry of the event log waits to be written by the shepherd core (12 R319). -/
def Dev.logEvent (code arg data : Nat) (d : Dev) : Dev :=
  let t := d.nowU
  { d with flt := { d.flt with
      logWait := d.flt.logWait ++ [{ code := code, arg := arg, sec := uSec t, ns := uNs t, data := data }] } }

/-- The device changes mode, with its MODE entry (13 R354; 12 R319). -/
def Dev.changeMode (d : Dev) (m : Mode) : Dev := (d.setMode m).logEvent 4 m.code 0

/-! ### Complement-protected sites, masters, and the answer of a read -/

/-- The words the last read returned to its master, oldest first. -/
def Dev.answer (d : Dev) (ws : List Nat) : Dev := { d with rsp := ws.map Word.of }

/-- Free value number: a fresh index for a free value. [DESIGN CHOICE, log 14] -/
def Dev.draw (d : Dev) : Nat × Dev := (d.fresh, { d with fresh := d.fresh + 1 })

end Sys2Proof.Machine
end

