-- ==== Sys2Proof/Machine/Crc.lean ====
section
/-!
DEFINITION. The cyclic check values: the four polynomials of the check-value units with tag and address folding (12 R333,
R334), the folded CRC-32C that images, banks and dumps carry (09 R236), and the CRC-8 of SPI frames (10 R255).
-/

namespace Sys2Proof.Machine

/-- The parameters of a CRC: width, generator (bit-reversed where the CRC is reflected), initial value, whether it is
reflected, final XOR (12 R333). -/
structure CrcKind where
  width : Nat
  gen : Nat
  init : Nat
  reflected : Bool
  final : Nat
  deriving DecidableEq, Repr

/-- The `n` low bits of `v` in reverse order. -/
def reverseBits (n v : Nat) : Nat :=
  (List.range n).foldl (fun r k => if v.testBit k then r + 2 ^ (n - 1 - k) else r) 0

/-- The CRC that POLY selects (R333). -/
def crcKind : Nat → CrcKind
  | 0 => { width := 32, gen := reverseBits 32 0x1EDC6F41, init := 0xFFFFFFFF, reflected := true, final := 0xFFFFFFFF }
  | 1 => { width := 32, gen := reverseBits 32 0x04C11DB7, init := 0xFFFFFFFF, reflected := true, final := 0xFFFFFFFF }
  | 2 => { width := 16, gen := 0x1021, init := 0xFFFF, reflected := false, final := 0 }
  | _ => { width := 64, gen := reverseBits 64 0x42F0E1EBA9EA3693, init := 2 ^ 64 - 1, reflected := true, final := 2 ^ 64 - 1 }

/-- One bit of a reflected register. -/
def crcBitR (gen r : Nat) : Nat := if r % 2 = 1 then (r / 2) ^^^ gen else r / 2

/-- One bit of a register that is not reflected. -/
def crcBitL (width gen r : Nat) : Nat :=
  let s := (2 * r) % 2 ^ width
  if r.testBit (width - 1) then s ^^^ gen else s

/-- One byte (`crc_step` of R334). -/
def crcByte (c : CrcKind) (r b : Nat) : Nat :=
  if c.reflected then (List.range 8).foldl (fun r _ => crcBitR c.gen r) (r ^^^ b)
  else (List.range 8).foldl (fun r _ => crcBitL c.width c.gen r) (r ^^^ (b * 2 ^ (c.width - 8)))

/-- The eight bytes of a word, lowest first. -/
def crcWord (c : CrcKind) (r m : Nat) : Nat := (List.range 8).foldl (fun r j => crcByte c r (m >>> (8 * j) % 256)) r

/-- Words from index `k` on, each with its folded address. -/
def crcWords (c : CrcKind) (fold : Option Nat) : Nat → Nat → List Nat → Nat
  | r, _, [] => r
  | r, k, m :: t =>
    let m := match fold with | some base => m ^^^ ((base + 8 * k) % 2 ^ 64) | none => m
    crcWords c fold (crcWord c r m) (k + 1) t

/-- The result of a job over 64-bit words (R334). -/
def crcJob (poly tag : Nat) (fold : Option Nat) (ws : List Nat) : Nat :=
  let c := crcKind poly
  let tf := if c.width = 16 then (tag ^^^ (tag >>> 16)) % 0x10000 else tag
  crcWords c fold (c.init ^^^ tf) 0 ws ^^^ c.final

/-- The folded CRC-32C of images, banks and dumps: tag in the seed, address folded into each word (09 R236). -/
def crcFold (tag base : Nat) (ws : List Nat) : Nat := crcJob 0 tag (some base) ws

/-- The 64-bit words of `n` bytes of a memory from `a` (00 R7). -/
def ByteMem.words64 (m : ByteMem) (dflt : Byte) (a n : Nat) : List Nat :=
  (List.range (n / 8)).map fun k => leNat (ByteMem.bytes m dflt (a + 8 * k) 8)

/-- One byte of a CRC-32C (12 R333, POLY 0). -/
def crc32cByte (r b : Nat) : Nat := (List.range 8).foldl (fun r _ => crcBitR 0x82F63B78 r) (r ^^^ b)

/-- The CRC-32C over bytes, as link frames and Tally port frames carry it (08 R211; 03 R99, R100). -/
def crc32c (bs : List Nat) : Nat := bs.foldl crc32cByte 0xFFFFFFFF ^^^ 0xFFFFFFFF

/-- One byte of the CRC-8 of SPI frames: polynomial 0x07, MSB first (10 R255). -/
def crc8Byte (r b : Nat) : Nat := (List.range 8).foldl (fun r _ => crcBitL 8 0x07 r) (r ^^^ b)

/-- The CRC-8 over bytes in wire order, initial value 0xFF (10 R255). -/
def crc8 (bs : List Nat) : Nat := bs.foldl crc8Byte 0xFF

end Sys2Proof.Machine
end

