-- ==== Sys2Proof/Machine/PastTx.lean ====
section
/-!
DEFINITION. What a device sends on its pasture links (08 R211 to R213, R225).
-/

namespace Sys2Proof.Machine

/-- This device's INDEX. -/
def Dev.pastIndex (d : Dev) : Nat := d.rd PAST_CFG_INDEX

/-- Link `x` is UP. -/
def Dev.linkUp (d : Dev) (x : Nat) : Bool := d.flag (PLINK_STAT_UP x)

/-- The `n` little-endian bytes of a number, as numbers. -/
def bytesN : Nat → Nat → List Nat
  | 0, _ => []
  | n + 1, v => v % 256 :: bytesN n (v / 256)

/-- A timestamp field of 12 bytes (R211). -/
def tsBytes (t : Nat) : List Nat := bytesN 6 (uSec t) ++ bytesN 4 (uNs t) ++ bytesN 2 (uFrac t)

/-- The 36 characters of a frame (R211): K28.5 by its octet, TYPE, DST and SRC, HOPS and FSEQ, 28 payload bytes, of which
those the type does not name are 0 (R212), and the CRC-32C over characters 1 to 31, least significant byte first.
[PRESUMED, log 158] -/
def frameChars (type dst src hops fseq : Nat) (payload : List Nat) : List Nat :=
  let body := [type, dst % 16 * 16 + src % 8, hops % 8 * 32 + fseq % 32] ++ (payload ++ List.replicate 28 0).take 28
  0xBC :: body ++ bytesN 4 (crc32c body)

/-- A frame with its characters. -/
def PFrame.of (x type dst src hops fseq : Nat) (payload : List Nat) : PFrame :=
  { link := x, type := type, dst := dst, src := src, hops := hops, fseq := fseq, payload := payload
    chars := frameChars type dst src hops fseq payload }

/-- The place of a frame in the transmitter's order of device `me` (R213): MARK, TS, NOTICE, STROBE and MUSTER, HELLO,
forwarded frames, RRSP, RREQ. -/
def PFrame.rank (me : Nat) (f : PFrame) : Nat :=
  if f.src ≠ me then 5
  else
    match f.type with
    | 1 => 0 | 2 => 1 | 6 => 2 | 4 | 5 => 3 | 3 => 4 | 8 => 6 | _ => 7

/-- A frame takes its place among those that wait for the transmitter: behind every one of its own rank or an earlier one
(R213). -/
def insertFrame (me : Nat) (f : PFrame) : List PFrame → List PFrame
  | [] => [f]
  | g :: t => if f.rank me < g.rank me then f :: g :: t else g :: insertFrame me f t

/-- A frame takes its place in the queue of its link's lane (R213). -/
def Dev.queueOn (f : PFrame) (d : Dev) : Dev :=
  let ls := updAt d.past.lanes f.link fun l => { l with queue := insertFrame d.pastIndex f l.queue }
  { d with past := { d.past with lanes := ls } }

/-- The code group that link `x` sends now (R210): idles between frames.  The lanes send from the application of an image on.
[DESIGN CHOICE, log 159] -/
def Dev.linkGroup (d : Dev) (x : Nat) : Option Nat :=
  if d.running && d.flag (PLINK_CTL_ENABLE x) then some ((d.past.lanes.getD x Lane.fresh).group (10 * d.clk.tclk / 64)) else none

/-- A frame is put on a link, if that is UP; it waits with those that earlier commands have put there, and starts in the order of
R213 (`Lane.drain`). [DESIGN CHOICE, log 159] -/
def Dev.sendOn (x type dst src hops fseq : Nat) (payload : List Nat) (d : Dev) : Dev :=
  if d.linkUp x then
    let f := PFrame.of x type dst src hops fseq payload
    ({ d with past := { d.past with tx := insertFrame d.pastIndex f d.past.tx } }).queueOn f
  else d

/-- A neighbour-only frame (MARK, TS, HELLO). -/
def Dev.sendNear (x type : Nat) (payload : List Nat) (d : Dev) : Dev := d.sendOn x type 0xE d.pastIndex 0 0 payload

/-- A frame this device originates goes out on every UP link with HOPS 7 and its next FSEQ (R211, R213).  The device takes
its own frame as accepted, so that a copy that comes round the ring is a duplicate. [DEDUCED, log 91] -/
def Dev.originate (type dst : Nat) (payload : List Nat) (d : Dev) : Dev :=
  if ¬ d.linkUp 0 ∧ ¬ d.linkUp 1 then d
  else
    let me := d.pastIndex
    let q := d.past.fseq
    let d := { d with past := { d.past with fseq := (q + 1) % 32, seen := updAt d.past.seen me fun l => (q :: l).take 16 } }
    (d.sendOn 0 type dst me 7 q payload).sendOn 1 type dst me 7 q payload

/-- A NOTICE of a source detected at a device time (R212, R225). [DEDUCED, log 92] -/
def Dev.sendNotice (src sev : Nat) (fold : Bool) (t : Nat) (d : Dev) : Dev :=
  d.originate 6 0xF ([src, sev + 4 * b2n fold] ++ tsBytes t)

/-- The first-error source with its severity and its time of detection (R225; 11 R292): the capture's, where it holds one;
else the oldest firing traced of a source that is still latched, else the last firing traced. [DESIGN CHOICE, log 160] -/
def Dev.firstError (d : Dev) (latched : Nat → Bool) : Option (Nat × Nat × Nat) :=
  if d.flag FLT_CAP_SRC_VALID then
    some (d.rd FLT_CAP_SRC_SRC, d.rd FLT_CAP_SRC_SEV,
      (d.rd FLT_CAP_SEC_LO_SEC + 2 ^ 32 * d.rd FLT_CAP_SEC_HI_SEC) * secUnits + d.rd FLT_CAP_NS_NS * 65536 + d.rd FLT_CAP_FRAC_FRAC)
  else
    let e := match d.flt.trace.find? fun e => latched e.src with
      | some e => some e
      | none => d.flt.trace.getLast?
    e.map fun e => (e.src, e.sev, e.sec * secUnits + e.ns * 65536)

end Sys2Proof.Machine
end

