-- ==== Sys2Proof/Machine/Collector.lean ====
section
/-!
DEFINITION. The fault collector (chapter 11): firing a source, levels, capture, the fault state, escalation, FOLD_REQ,
FAULT_N, and what the collector settles at every edge.  A FOLD reaction only notes that a fold is due; the fold itself,
which reaches outputs and ports, is done by `finish` (Modes) on the same edge.
-/

namespace Sys2Proof.Machine

/-- Severities (11 R282). -/
def sevMinor : Nat := 1
def sevMajor : Nat := 2
def sevFatal : Nat := 3

/-- The field of FLT_SEV_0 to _3 that holds the severity of a source (11 R282). -/
def sevFld (src : Nat) : Fld := ⟨rFLT_SEV (src / 16 % 4), 2 * (src % 16) + 1, 2 * (src % 16)⟩

/-- The severity of a source now (11 R282). -/
def Dev.sev (d : Dev) (src : Nat) : Nat := d.rd (sevFld src)

/-- The reaction to a severity: 0 INT, 1 ESCALATE, 2 FOLD; 3 is applied as 2 (11, FLT_REACT). -/
def Dev.reaction (d : Dev) (sev : Nat) : Nat := min 2 (d.rd ⟨rFLT_REACT, 2 * sev + 1, 2 * sev⟩)

/-- The latched bit of a source, in the FLT_ACK register that holds it (11, FLT_ACK). -/
def ackFld (src : Nat) : Fld :=
  if src < 24 then ⟨rFLT_ACK_0, src, src⟩
  else if src < 48 then ⟨rFLT_ACK_1, src - 24, src - 24⟩
  else ⟨rFLT_ACK_2, src - 48, src - 48⟩

/-- The latched bit of a source is set (11 R283). -/
def Dev.latched (d : Dev) (src : Nat) : Bool := d.flag (ackFld src)

/-- A source is live: one of its conditions holds, or it has fired on this very edge (11 R281, R295). [DEDUCED, log 122] -/
def Dev.isLive (d : Dev) (src : Nat) : Bool := (d.flt.live.any fun p => p.1 = src) || d.flt.fired.any fun f => f.src = src

/-- Some latched source satisfies `p`. -/
def Dev.anyLatched (d : Dev) (p : Nat → Bool) : Bool := (List.range 64).any fun k => d.latched k && p k

/-- Some live source satisfies `p`. -/
def Dev.anyLive (d : Dev) (p : Nat → Bool) : Bool := (d.flt.live.any fun c => p c.1) || d.flt.fired.any fun f => p f.src

/-- The measurement-path sources, column M of 11 R281. -/
def markedM (src : Nat) : Bool := [0, 1, 2, 3, 4, 18, 19, 20, 21, 22, 23, 51].contains src

/-- Access types (11 R292). -/
def accRead : Nat := 0
def accWrite : Nat := 1
def accFetch : Nat := 2
def accScan : Nat := 3
def accLink : Nat := 4
def accInternal : Nat := 5

/-- The collector reacts: outside BOOT and the pulses of POR, PIN and SOFT (11 R287). [DEDUCED, log 119] -/
def Dev.reactive (d : Dev) : Bool :=
  match d.mode with
  | .boot => false
  | .reset => d.resetKind = .warm || d.resetKind = .wdog
  | _ => true

/-- The capture is filled with a firing of the present edge (11 R292). [DESIGN CHOICE, log 14] -/
def Dev.fillCapture (f : Firing) (repl multi : Bool) (d : Dev) : Dev :=
  let t := d.nowU
  let w := setBits 0 31 31 1
  let w := setBits w 30 30 (b2n f.inj)
  let w := setBits w 29 29 (b2n repl)
  let w := setBits w 28 28 (b2n multi)
  let w := setBits w 27 25 (match f.acc with | some a => a.type | none => accInternal)
  let m := f.acc.bind fun a => a.master
  let w := setBits w 24 24 (b2n m.isSome)
  let w := setBits w 23 21 (m.getD 0)
  let w := setBits w 20 19 f.sev
  let w := setBits w 5 0 f.src
  let d := d.setWord rFLT_CAP_SRC (Word.of w)
  let d := d.wr FLT_CAP_ADDR_ADDR (match f.acc with | some a => a.addr | none => 0)
  let d := d.wr FLT_CAP_DETAIL_DETAIL f.detail
  let d := d.wr FLT_CAP_SEQ_SEQ f.seq
  let d := d.wr FLT_CAP_SEC_LO_SEC (uSec t % 2 ^ 32)
  let d := d.wr FLT_CAP_SEC_HI_SEC (uSec t / 2 ^ 32)
  let d := d.wr FLT_CAP_NS_NS (uNs t)
  let d := d.wr FLT_CAP_FRAC_FRAC (uFrac t)
  { d with flt := { d.flt with capEdge := d.clk.edge } }

/-- What a firing does to the capture (11 R292): it fills an empty one; on the same edge the highest severity and then
the lowest source stands and MULTI sets; a real firing replaces an injected one; otherwise FLT_MISSED counts. -/
def Dev.captureFiring (f : Firing) (d : Dev) : Dev :=
  if ¬ d.flag FLT_CAP_SRC_VALID then d.fillCapture f false false
  else if d.flt.capEdge = d.clk.edge then
    let csev := d.rd FLT_CAP_SRC_SEV
    let csrc := d.rd FLT_CAP_SRC_SRC
    if csev < f.sev ∨ (csev = f.sev ∧ f.src < csrc) then d.fillCapture f (d.flag FLT_CAP_SRC_REPL) true
    else d.wr FLT_CAP_SRC_MULTI 1
  else if d.flag FLT_CAP_SRC_INJ && !f.inj then d.fillCapture f true false
  else d.bump FLT_MISSED_COUNT

/-- A FATAL firing asks for a dump (11 R300): it starts one, in place of one still being written, when the SRAM region holds none
unreleased, or when it has just ended a service DUMP (`fresh`); otherwise it counts in SKIPPED. [DEDUCED, log 107] -/
def Dev.dumpTrigger (src sev : Nat) (inj fresh : Bool) (d : Dev) : Dev :=
  if d.flag FLT_DUMP_STAT_SRAM_VALID && !fresh then
    d.bumpSat FLT_DUMP_STAT_SKIPPED
  else
    let t : DumpTrigger :=
      { fatal := true, src := src, sev := sev, inj := inj, seq := d.rd FLT_SEQNO_COUNT, stamp := d.nowU, alsoNvm := true }
    let d := { d with flt := { d.flt with dump := some t } }
    d.wr FLT_STAT_DUMP_BUSY 1

/-- A service of the mailbox has its outcome; it is delivered by MBX_SERVICE_DONE (10 R277, R278). [DEDUCED, log 109] -/
def Dev.mbxOutcome (run code : Nat) (res : List Nat) (d : Dev) : Dev :=
  if d.mbx.run = run ∧ d.flag DEV_MBX_STAT_BUSY ∧ d.mbx.out.isNone then
    { d with mbx := { d.mbx with out := some { code := code, res := res } } }
  else d

/-- ALIGN measures no longer, and its tee is removed (06 R189). -/
def Dev.alignStop (d : Dev) : Dev :=
  match d.mbx.align with
  | some a => { d.setHw rOUT_TEE (Word.of a.tee) with mbx := { d.mbx with align := none } }
  | none => d

/-- The running mailbox service completes (10 R277), with its entry of the event log (12 R319). [DEDUCED, log 105] -/
def Dev.mbxComplete (code : Nat) (res : List Nat) (d : Dev) : Dev :=
  let d := d.alignStop.logEvent 9 (d.rd DEV_MBX_STAT_SERVICE + 256 * code) (d.rd DEV_MBX_STAT_TAG)
  let d := d.wr DEV_MBX_STAT_CODE code
  let d := forN 4 (fun k d => d.wr (DEV_MBX_RES_RES k) (res.getD k 0)) d
  let d := (d.wr DEV_MBX_STAT_BUSY 0).wr DEV_MBX_STAT_DONE 1
  d.evt DEV_MBX_EVT_DONE

/-- The work that copies a service DUMP. -/
def NvmKind.isService : NvmKind → Bool
  | .dumpCopy (some _) => true
  | _ => false

/-- The copy of a service DUMP stops; an operation that runs goes to its end (12 R311). -/
def Dev.stopCopy (d : Dev) : Dev :=
  let c := d.nvmc
  let mine := c.cur.any fun w => w.kind.isService
  let waiting := mine && !d.flag NVM_STAT_BUSY
  let d := { d with nvmc := { c with
    queue := c.queue.filter fun w => !w.kind.isService
    cur := if mine then none else c.cur
    op := if waiting then none else c.op } }
  d.when waiting fun d => d.wr NVM_STAT_WAIT_POWER 0

/-- The service DUMP that runs completes with ABORTED, and its dump is given up (11 R300; 10 R279). [DEDUCED, log 107] -/
def Dev.dumpAbort (d : Dev) : Dev :=
  let d := d.mbxComplete 0x11 []
  let d := d.when (!d.flt.dump.any fun t => t.fatal) fun d =>
    ({ d with flt := { d.flt with dump := none } }).wr FLT_STAT_DUMP_BUSY 0
  d.stopCopy

/-- The LEDs leave the acknowledged state (14 R375). [DEDUCED, log 150] -/
def Dev.ackEnd (d : Dev) : Dev := { d with front := { d.front with ledAck := [false, false, false, false] } }

/-- The reaction of the collector to a firing (11 R284, R285, R286, R288, R289, R295, R300). `full` is false for an
injection with SIM = 1, which is reacted to as INT; `forced` folds whatever the reaction (R286). [DEDUCED, log 121] -/
def Dev.reactTo (src sev : Nat) (inj full forced : Bool) (d : Dev) : Dev :=
  let d := d.when (decide (sev = sevFatal)) fun d => d.wr FLT_STAT_FATAL_HELD 1
  let d := d.when (decide (d.rd FLT_CFG_FSTATE_SEV ≤ sev)) Dev.ackEnd
  if ¬ full then d
  else
    let r := d.reaction sev
    let d := d.when (decide (d.rd FLT_CFG_FSTATE_SEV ≤ sev)) fun d =>
      let d := d.wr FLT_STAT_FSTATE 1
      { d with flt := { d.flt with quietFrom := some d.clk.tclk } }
    let d := d.when (decide (sev = sevFatal)) fun d =>
      let serving := d.flag DEV_MBX_STAT_BUSY && decide (d.rd DEV_MBX_STAT_SERVICE = 3) && d.mbx.out.isNone
      (d.when serving Dev.dumpAbort).dumpTrigger src sev inj serving
    let d := d.when (decide (r = 1) && !d.flag FLT_STAT_ESC_RUN) fun d =>
      let d := d.wr FLT_STAT_ESC_RUN 1
      { d with flt := { d.flt with escEnd := some (d.clk.tclk + d.rdIn FLT_ESC_ESC_TMO 10 1000000 * usTclk) } }
    d.when (decide (r = 2) || forced) fun d => { d with flt := { d.flt with foldPend := true } }

/-- SYS_PLL_LOL and FOLD_PATH fold whatever their severity and reaction (11 R286). [DEDUCED, log 120] -/
def forcedFold (src : Nat) : Bool := src = 0 || src = 5

/-- The NOTICE of a source that is latched, where PAST_NOTICE_MASK names it (08 R225). [DEDUCED, log 92] -/
def Dev.noticeAtLatch (src sev : Nat) (d : Dev) : Dev :=
  let f := if src < 32 then (⟨rPAST_NOTICE_MASK_LO, src, src⟩ : Fld) else ⟨rPAST_NOTICE_MASK_HI, src - 32, src - 32⟩
  d.when (d.flag f) (Dev.sendNotice src sev false d.nowU)

/-- A source fires (11 R283): its latched bit, FLT_SEQNO, the capture, the firing trace, the log, the reaction.
[DEDUCED, log 119, 120] -/
def Dev.fireAs (src detail : Nat) (acc : Option Access) (inj sim : Bool) (d : Dev) : Dev :=
  let sev := d.sev src
  let d := d.evt (ackFld src)
  let d := d.bump FLT_SEQNO_COUNT
  let f : Firing := { src := src, sev := sev, detail := detail, inj := inj, acc := acc, seq := d.rd FLT_SEQNO_COUNT }
  let d := d.captureFiring f
  let real := !inj && d.flag FLT_INJ_STAT_ACTIVE && decide (d.rd FLT_INJ_STAT_SRC = src)
  let d := d.when real fun d => d.wr FLT_INJ_STAT_REAL 1
  let t := d.nowU
  let e : FiringEntry := { src := src, sev := sev, inj := inj, real := real, seqno := d.rd FLT_SEQNO_COUNT,
                           sec := uSec t, ns := uNs t }
  let l : LogEntry := { code := 1, arg := src + 64 * sev + 256 * b2n inj + 512 * b2n real, sec := uSec t, ns := uNs t,
                        data := d.rd FLT_SEQNO_COUNT }
  let d := { d with flt := { d.flt with
    fired := f :: d.flt.fired, trace := (d.flt.trace ++ [e]).drop ((d.flt.trace.length + 1) - 32), logWait := d.flt.logWait ++ [l] } }
  let d := d.when (!inj && decide (sev = sevFatal)) fun d =>
    { d with nvmc := { d.nvmc with fatals := d.nvmc.fatals + 1 } }
  let d := Dev.noticeAtLatch src sev d
  if d.reactive then d.reactTo src sev inj (!sim) (forcedFold src && !inj) else d

/-- A real firing that arises from no access. -/
def Dev.fire (src detail : Nat) (d : Dev) : Dev := d.fireAs src detail none false false

/-- A real firing that arises from an access (11 R292). -/
def Dev.fireAcc (src detail addr : Nat) (master : Option Nat) (type : Nat) (d : Dev) : Dev :=
  d.fireAs src detail (some { addr := addr, master := master, type := type }) false false

/-- A level condition of a source begins at an instance: it becomes live and fires (11 R281). [DEDUCED, log 122] -/
def Dev.raise (src inst detail : Nat) (d : Dev) : Dev :=
  if d.flt.live.contains (src, inst) then d
  else
    let d := { d with flt := { d.flt with live := d.flt.live ++ [(src, inst)] } }
    d.fire src detail

/-- A level condition ends; its end restarts the quiet period where its severity holds the fault state (11 R288).
[DEDUCED, log 122, 123] -/
def Dev.lower (src inst : Nat) (d : Dev) : Dev :=
  if d.flt.live.contains (src, inst) then
    let d := { d with flt := { d.flt with live := d.flt.live.filter fun p => decide (p ≠ (src, inst)) } }
    d.when (decide (d.rd FLT_CFG_FSTATE_SEV ≤ d.sev src) && d.flag FLT_STAT_FSTATE) fun d =>
      { d with flt := { d.flt with quietFrom := some d.clk.tclk } }
  else d

/-- A level condition of a source holds or not. -/
def Dev.level (src inst detail : Nat) (on : Bool) (d : Dev) : Dev :=
  if on then d.raise src inst detail else d.lower src inst

/-! ### What the collector settles at every edge -/

/-- FATAL_HELD clears when no source of severity FATAL has its latched bit set (11 R289). -/
def Dev.settleFatal (d : Dev) : Dev :=
  d.when (d.flag FLT_STAT_FATAL_HELD && !d.anyLatched fun k => decide (d.sev k = sevFatal)) fun d =>
    d.wr FLT_STAT_FATAL_HELD 0

/-- The escalation timer stops when no source whose present reaction is ESCALATE is latched (11 R285). -/
def Dev.settleEsc (d : Dev) : Dev :=
  d.when (d.flag FLT_STAT_ESC_RUN && !d.anyLatched fun k => decide (d.reaction (d.sev k) = 1)) fun d =>
    let d := d.wr FLT_STAT_ESC_RUN 0
    { d with flt := { d.flt with escEnd := none } }

/-- An injection stays active until the latched bit of its source is cleared (11 R295). -/
def Dev.settleInj (d : Dev) : Dev :=
  d.when (d.flag FLT_INJ_STAT_ACTIVE && !d.latched (d.rd FLT_INJ_STAT_SRC)) fun d => d.wr FLT_INJ_STAT_ACTIVE 0

/-- The conditions of 11 R289 for the collector to let go of FOLD. -/
def Dev.foldMayEnd (d : Dev) : Bool :=
  !d.flag FLT_STAT_FSTATE && !d.flag FLT_STAT_FATAL_HELD && !d.isLive 0 && !d.isLive 5 &&
    !d.anyLive fun k => decide (1 ≤ d.reaction (d.sev k))

/-- The fault state or FOLD holds: the condition of FAULT_N (11 R290). -/
def Dev.fnCond (d : Dev) : Bool := d.flag FLT_STAT_FSTATE || d.mode = .fold

/-- FAULT_N is released. -/
def Dev.fnRelease (d : Dev) : Dev :=
  let d := d.wr FLT_STAT_FN 0
  { d with flt := { d.flt with fnFrom := none, fnWidthDone := false, fnRelPend := false } }

/-- FAULT_N at an edge (11 R290, R351): released in RESET and BOOT; asserted when its condition holds; released after its
width where FN_LATCH is 0 and the condition has ended. -/
def Dev.settleFn (d : Dev) : Dev :=
  if ¬ d.applied then d.when (d.flag FLT_STAT_FN) Dev.fnRelease
  else if d.fnCond then
    d.when (!d.flag FLT_STAT_FN) fun d =>
      let d := d.wr FLT_STAT_FN 1
      { d with flt := { d.flt with fnFrom := some d.clk.tclk, fnWidthDone := false, fnRelPend := false } }
  else d.when (d.flag FLT_STAT_FN && d.flt.fnWidthDone && !d.flag FLT_CFG_FN_LATCH) Dev.fnRelease

end Sys2Proof.Machine
end

