-- ==== Sys2Proof/Machine/PoolOps.lean ====
section
/-!
DEFINITION. The measurement front end (chapter 02): decimators, arming, conversions and their checks, timestamps,
calibration, pilots, handover, quarantine and the allocation of cells.
-/

namespace Sys2Proof.Machine

/-! ### Cells and channels -/

/-- A JOB cell that is neither armed nor converting. -/
def Cell.free (c : Cell) : Bool := c.role = .job && c.armed.isNone && !c.busy && c.pilot.isNone

/-- The indices of the cells that satisfy `p`, ascending. -/
def Dev.cellsWhere (d : Dev) (p : Cell → Bool) : List Nat := (List.range 48).filter fun k => p (d.cell k)

/-- The channel carries a loop stream (R47). -/
def Dev.claimed (d : Dev) (ch : Nat) : Bool := d.flag (MCH_CFG_CLAIMED ch)

/-- The loop cells a claimed channel wants: two for a dual-cell stream or the two streams of a link (R48; 08 R215). -/
def Dev.loopNeed (d : Dev) (ch : Nat) : Nat :=
  if ¬ d.claimed ch then 0
  else if ch = 44 ∨ ch = 45 then 2
  else if d.flag (MCH_CFG_DUAL ch) then 2 else 1

/-- The loop cells a channel has. -/
def Dev.loopCells (d : Dev) (ch : Nat) : List Nat :=
  d.cellsWhere fun c => c.role = .loop && decide (c.stream = ch)

/-- A job that is not yet decided uses the channel (R50). -/
def Job.uses (j : Job) (ch : Nat) : Bool :=
  j.done.isNone &&
    match j.kind with
    | .interval => decide (j.chA = ch) || decide (j.chB = ch)
    | .freq => decide (j.chA = ch) || (j.ratio && decide (j.chB = ch))
    | .stream | .period => decide (j.chA = ch)
    | .marker | .flush => false

/-- The channel on which LEARN measures while it is active for any paddock: it fits the ageing against OCXOIN (01 R21; 04
R129). [DEDUCED, log 206] -/
def Dev.learnUses (d : Dev) (ch : Nat) : Bool := decide (ch = 51) && d.pads.any Paddock.learn

/-- A measurement of the job class uses the channel: that of a host job, the present interval job of ALIGN, or LEARN's (01
R21). -/
def Dev.jobUses (d : Dev) (ch : Nat) : Bool :=
  (d.jobs.slots.any fun o => match o with | some j => j.uses ch | none => false) ||
    ((d.mbx.align.bind AlignRun.job).any fun j => j.uses ch) || d.learnUses ch

/-- The channel is one that jobs keep armed: not claimed, ENABLE 1, used by a job in flight (R50). -/
def Dev.jobChannel (d : Dev) (ch : Nat) : Bool :=
  !d.claimed ch && d.flag (MCH_CFG_ENABLE ch) && d.jobUses ch

/-- An edge of the channel that finds no armed cell counts as lost: that of every channel which carries no loop stream (R50,
R65). [DEDUCED, log 26] -/
def Dev.losesEdges (d : Dev) (ch : Nat) : Bool := !d.claimed ch

/-- The quarantined cells that still stand in on channel `ch` (R55). -/
def Dev.standIns (d : Dev) (ch : Nat) : List Nat :=
  d.cellsWhere fun c => c.role = .quar && c.standIn && decide (c.armed.getD c.stream = ch)

/-- The stream of a channel has a cell that converts its next event (R55, R57). -/
def Dev.served (d : Dev) (ch : Nat) : Bool := !d.claimed ch || !(d.loopCells ch).isEmpty || !(d.standIns ch).isEmpty

/-- The stream's nominal next event lies more than 2 us ahead: the first instant after now of the form last converted event
plus k nominal spacings (R44, R53); of a stream none of whose events has been converted, no event is expected.
[DESIGN CHOICE, log 162] -/
def Dev.nextFar (d : Dev) (idx ch : Nat) : Bool :=
  match (d.chan idx).lastConv with
  | none => true
  | some t =>
    let p := d.spacing ch
    decide (2000 * 65536 * p.2 + ((d.clk.tclk * 40960 - t) * p.2) % p.1 < p.1)

/-- The JOB cells armed on a channel. -/
def Dev.armedOn (d : Dev) (ch : Nat) : List Nat :=
  d.cellsWhere fun c => c.role = .job && decide (c.armed = some ch) && !c.busy && c.pilot.isNone

/-- The cells that channel `ch` keeps armed while jobs use it (R50). -/
def Dev.armNeed (d : Dev) (ch : Nat) : Nat := if d.flag (MCH_CFG_DUAL ch) then 2 else 1

/-- Cells that are neither RETIRED nor QUAR (R57). -/
def Dev.workingCells (d : Dev) : Nat :=
  (d.cellsWhere fun c => c.role = .job || c.role = .loop || c.role = .cal).length

/-- POOL_SHORT follows the number of working cells (R57). -/
def Dev.checkShort (d : Dev) : Dev :=
  let w := d.workingCells
  if w < d.rd MEAS_POOL_CFG_LOOP_RSV + 1 then
    if d.isLive 20 then d else (d.evt MEAS_STAT_POOL_SHORT).raise 20 0 w
  else d.lower 20 0

/-- The cell chosen for a replacement or a handover among the free JOB cells (R52): one that is not due, else the most
recently calibrated, lowest number first. -/
def Dev.pickReplacement (d : Dev) : Option Nat :=
  let fr := d.cellsWhere Cell.free
  match fr.filter fun k => !(d.cell k).due with
  | k :: _ => some k
  | [] => fr.foldl (fun b k =>
      match b with
      | none => some k
      | some j => if (d.cell j).calEnd < (d.cell k).calEnd then some k else some j) none

/-- The cell chosen to arm a job-class channel (R52): the lowest free JOB cell that is not due, else the lowest. -/
def Dev.pickArm (d : Dev) : Option Nat :=
  let fr := d.cellsWhere Cell.free
  match fr.filter fun k => !(d.cell k).due with
  | k :: _ => some k
  | [] => fr.head?

/-- The cells that stand in for a stream, or on an armed channel, stand in no longer: a replacement is armed (R55). -/
def Dev.relieve (p : Cell → Bool) (d : Dev) : Dev :=
  let free := fun c : Cell => if c.standIn && p c then { c with standIn := false, armed := none } else c
  { d with meas := { d.meas with cells := d.meas.cells.map free } }

/-- Cell `k` takes the LOOP role on a stream. -/
def Dev.bindLoop (k ch half : Nat) (d : Dev) : Dev :=
  (d.setCell k fun c => { c with role := .loop, stream := ch, half := half, armed := none }).relieve fun c =>
    c.armed.isNone && decide (c.stream = ch) && decide (c.half = half)

/-- Cell `k` is armed on a job-class channel. -/
def Dev.armCell (k ch : Nat) (d : Dev) : Dev :=
  (d.setCell k fun c => { c with armed := some ch }).relieve fun c => decide (c.armed = some ch)

/-- A cell that may be taken from a lower-ranked use when the pool is short (R57): an armed JOB cell, the second cell of the
highest dual-cell stream, else (for a first cell) the cell of a higher channel. -/
def Dev.stealFor (d : Dev) (ch : Nat) (first : Bool) : Option Nat :=
  let armed := d.cellsWhere fun c => c.role = .job && !c.busy && c.pilot.isNone
  let seconds := (d.cellsWhere fun c => c.role = .loop && decide (c.half = 1) && (first || decide (ch < c.stream)))
  let firsts := (d.cellsWhere fun c => c.role = .loop && decide (c.half = 0) && decide (ch < c.stream))
  let top := fun (l : List Nat) => l.foldl (fun b k =>
      match b with
      | none => some k
      | some j => if (d.cell j).stream < (d.cell k).stream then some k else some j) none
  match armed with
  | k :: _ => some k
  | [] =>
    match top seconds with
    | some k => some k
    | none => if first then top firsts else none

/-- Cell `k` leaves a handover and a calibration it takes part in; MCH_n_STAT.HANDOVER is for a comparison that fails (R53), so
a handover dropped here sets no bit. [DESIGN CHOICE, log 163] -/
def Dev.dropUses (k : Nat) (d : Dev) : Dev :=
  let d := match d.meas.calRun with
    | some r => if r.cell = k then { d with meas := { d.meas with calRun := none } } else d
    | none => d
  match d.meas.handover with
  | some h =>
    if h.old = k ∨ h.new = k then
      let d := { d with meas := { d.meas with handover := none } }
      d.setCell h.new fun c => { c with armed := none }
    else d
  | none => d

/-- The loop streams get the cells they lack, first cells before second cells, lowest channel first (R52 order 1, R57).
A cell taken from another use leaves it.  A LOOP cell of a stream that the image no longer claims stays bound to it.
[DEDUCED, log 36; DESIGN CHOICE, log 191] -/
def Dev.serveLoops (d : Dev) : Dev :=
  let want := (List.range 64).filter fun ch => decide ((d.loopCells ch).length < d.loopNeed ch)
  let give := fun (first : Bool) (d : Dev) (ch : Nat) =>
    let have_ := d.loopCells ch
    let need := if first then decide (have_.length = 0) else decide (have_.length < d.loopNeed ch)
    if ¬ need then d
    else
      let half := if have_.any fun k => decide ((d.cell k).half = 0) then 1 else 0
      match d.pickReplacement with
      | some k => d.bindLoop k ch half
      | none =>
        if d.workingCells < d.rd MEAS_POOL_CFG_LOOP_RSV + 1 then
          match d.stealFor ch first with
          | some k => if (d.cell k).busy then d else (d.dropUses k).bindLoop k ch half
          | none => d
        else d
  want.foldl (give false) (want.foldl (give true) d)

/-- Arming of the job-class channels that lack a cell, one cell each, round-robin after the channel served last (R50, R52
order 5). -/
def Dev.armRound (d : Dev) : Dev :=
  let start := d.meas.rr + 1
  (List.range 64).foldl (fun d i =>
    let ch := (start + i) % 64
    if d.jobChannel ch && d.flag MEAS_CTL_JOB_EN && decide ((d.armedOn ch).length < d.armNeed ch) then
      match d.pickArm with
      | some k =>
        let d := d.armCell k ch
        { d with meas := { d.meas with rr := ch } }
      | none => d
    else d) d

/-- Every job-class channel gets a cell before a dual-cell channel gets its second (R50, R52 order 5). -/
def Dev.serveArming (d : Dev) : Dev := d.armRound.armRound

/-! ### The correction table and the timestamp (R34, R35, R39) -/

/-- The bus address of entry `i` of the active table of cell `n` (chapter 02, From code to timestamp). -/
def tableAddr (n i : Nat) : Nat := 0x160000 + n * 0x400 + 4 * i

/-- The cell's fraction for a code (R34). -/
def Dev.fraction (d : Dev) (n code : Nat) : Nat :=
  let i := code / 64
  let k := code % 64
  let w := d.sramWord (tableAddr n i)
  bitsOf w 31 12 + (k * bitsOf w 11 0 + 128) / 256

/-- The word of a table entry from its hits (R39): F over S. [DESIGN CHOICE, log 6] -/
def tableEntry (cum h total : Nat) : Nat :=
  let f := 40960 + (divRound (40960 * cum) total).toNat
  let s := (divRound (163840 * h) total).toNat
  let s := if s < 4096 then s else (Config.slopeOverflow h total).toNat
  f * 4096 + s

/-- The 256 entries of a table from the hits of its segments (R39). -/
def buildTable (hits : List Nat) (total : Nat) : List Nat :=
  ((List.range 256).foldl (fun (acc : List Nat × Nat) i =>
    let h := hits.getD i 0
    (acc.1 ++ [tableEntry acc.2 h total], acc.2 + h)) ([], 0)).1

/-- A calibration's result becomes the active table of cell `n` (R39, R28, R41), with the temperature that DEV_TEMP holds,
which is 0 before the first reading. [DESIGN CHOICE, log 165] -/
def Dev.installTable (n : Nat) (hits pilots : List Nat) (coarse : Bool) (d : Dev) : Dev :=
  let bs := (buildTable hits hits.sum).flatMap (leBytes 4)
  let d := d.setSram (tableAddr n 0) bs
  let d := d.setCell n fun c =>
    { c with due := false, overdue := false, coarse := coarse, calibrated := true, calTemp := d.rdS DEV_TEMP_TEMP,
             calEnd := d.clk.tclk, pilots := (List.range 8).map fun p => pilots.getD p 0 }
  { d with meas := { d.meas with dueOrder := d.meas.dueOrder.filter fun k => decide (k ≠ n) } }

/-- The channel delay D in 2^-16 ns under a TRIM (R35). -/
def Dev.chanDelay (d : Dev) (ch : Nat) (trim : Int) : Int :=
  (d.rd (MCH_PATH_PATH ch) : Int)
    + divRound (d.rdS (MCH_PATH_PATH_TC ch) * (d.rdS DEV_TEMP_TEMP - 55 * 16)) 16
    + trim

/-- A timestamp in 2^-16 ns from the device time at the stop edge, the increment in force there, the fraction and the
channel delay (R35, R36). -/
def stamp (dtStop inc f : Nat) (delay : Int) : Nat :=
  let base : Int := ((dtStop + 2 ^ 31) / 2 ^ 32 : Nat)
  let span := divRound (((f : Int) + delay) * inc) (40960 * 2 ^ 32)
  ((base - span) % (2 ^ 48 * secUnits : Nat)).toNat

/-! ### Edges (R46, R49, R50, R57) -/

/-- The index of the decimator state of a channel; the arrivals of a pasture link have their own (08 R215). -/
def chanIdx (ch tag : Nat) : Nat := if tag = 2 then 20 + ch else ch

/-- The arrival, in TCLK time, of an edge `sub` units into the present TCLK period. -/
def Dev.arrival (d : Dev) (sub : Nat) : Nat := d.clk.tclk * 40960 + sub % 40960

/-- Conversions of an edge begin on the listed cells (R32: the stop edge is the second following TCLK edge, or the one after it
where a cell's arbiter takes the next edge as the first). -/
def Dev.startEvent (ch arr tag mseq : Nat) (ks : List Nat) (ho : Option Nat) (d : Dev) : Dev :=
  let e : Event :=
    { chan := ch, arr := arr, tag := tag, mseq := mseq, trim := d.rdS (MCH_TRIM_TRIM ch), stopAt := d.clk.tclk + 2,
      latched := false, dtStop := 0, inc := d.clk.inc, late := none, parts := ks.map fun k => (k, Part.waiting), handover := ho }
  let d := ks.foldl (fun d k => d.setCell k fun c =>
    { c with busy := true, pilot := none, pilotDue := c.pilotDue || c.pilot.isSome
             armed := if c.standIn then c.armed else none }) d
  let d := d.setChan (chanIdx ch tag) fun c => { c with lastConv := some arr }
  { d with meas := { d.meas with events := d.meas.events ++ [e] } }

/-- An edge is not turned into a timestamp: it counts once in MCH_n_LOST (R71). -/
def Dev.lose (ch : Nat) (d : Dev) : Dev := d.bump (MCH_LOST_LOST ch)

/-- The handover cell armed on a fast loop stream, if any (R53). -/
def Dev.handoverPart (d : Dev) (ch : Nat) : Option Handover :=
  match d.meas.handover with
  | some h => if h.chan = ch ∧ ¬ d.slowStream ch then some h else none
  | none => none

/-- A forwarded edge reaches the cells of its channel (R46, R49, R50, R57). Answers also whether it broke the spacing
rule of a loop stream (R49), for the reference monitor. -/
def Dev.forwardEdge (ch arr tag mseq : Nat) (d : Dev) : Dev × Bool :=
  let c := d.chan (chanIdx ch tag)
  let within := fun (o : Option Nat) (span : Nat) => match o with | some t => decide (arr < t + span) | none => false
  let dead := within c.lastFwd 163840
  let viol := d.claimed ch && within c.lastConv (500 * 65536)
  let d := d.bump (MCH_FWD_FWD ch)
  let d := d.setChan (chanIdx ch tag) fun c => { c with lastFwd := some arr }
  if dead || viol then
    let d := (d.lose ch).evtIf dead (MCH_STAT_DEAD_TIME ch)
    let d := d.evtIf viol (MCH_STAT_LOST ch)
    (d.evtIf viol MEAS_STAT_LOOP_LOST, viol)
  else if d.claimed ch then
    let own := fun (k : Nat) => !(d.cell k).busy && (tag = 0 || decide ((d.cell k).half + 1 = tag))
    let ks := match (d.loopCells ch).filter own with
      | [] => (d.standIns ch).filter own
      | l => l
    match ks with
    | [] => ((d.lose ch).evt MEAS_STAT_LOOP_LOST, false)
    | _ =>
      match d.handoverPart ch with
      | some h =>
        if ks.contains h.old then (d.startEvent ch arr tag mseq (ks ++ [h.new]) (some h.new), false)
        else (d.startEvent ch arr tag mseq ks none, false)
      | none => (d.startEvent ch arr tag mseq ks none, false)
  else if d.losesEdges ch then
    let ks := match d.armedOn ch with
      | [] => (d.standIns ch).filter fun k => !(d.cell k).busy
      | l => l
    match ks with
    | [] =>
      let d := (d.lose ch).evt (MCH_STAT_NO_CELL ch)
      (d.evt MEAS_STAT_JOB_STARVED, false)
    | ks => (d.startEvent ch arr tag mseq ks none, false)
  else (d, false)

/-- A selected edge reaches a channel's decimator, which forwards every DEC-th (R46). -/
def Dev.channelEdge (ch arr tag mseq : Nat) (d : Dev) : Dev × Bool :=
  if ¬ d.measuring then (d, false)
  else
    let n := (d.chan (chanIdx ch tag)).count + 1
    if n < d.rd (MCH_DEC_DEC ch) then (d.setChan (chanIdx ch tag) fun c => { c with count := n }, false)
    else (d.setChan (chanIdx ch tag) fun c => { c with count := 0 }).forwardEdge ch arr tag mseq

/-! ### Conversions (R33, R34, R35, R43, R51, R53, R54) -/

/-- The first check a conversion fails, as the FAULT code of R70: 1 range, 2 redundancy, 3 reset, 5 table ECC; 0 none. -/
def convFault (code : Nat) (redOk rstOk tableEcc : Bool) : Nat :=
  if code < 7800 ∨ 16380 < code then 1
  else if ¬ redOk then 2
  else if ¬ rstOk then 3
  else if tableEcc then 5
  else 0

/-- The status bits of a conversion that fails: CHECK_FAIL for a check of R33; TABLE_ECC with its SRAM error, whose capture
names the table entry that cell `k` read for the code (R27; 11 R281, R292). [DEDUCED, log 31] -/
def Dev.flagConvFault (fault k code : Nat) (ch : Option Nat) (d : Dev) : Dev :=
  if fault = 5 then
    (d.evt MEAS_STAT_TABLE_ECC).fireAs 3 4 (some { addr := tableAddr k (code / 64), master := none, type := accInternal })
      false false
  else
    let d := d.evt MEAS_STAT_CHECK_FAIL
    match ch with
    | some c => d.evt (MCH_STAT_CHECK_FAIL c)
    | none => d

/-- Two fractions differ by more than PILOT_TOL, in steps of 0.1 ps (R43, R53, R68). -/
def Dev.beyondTol (d : Dev) (a b : Nat) : Bool :=
  let tol := d.rdIn MEAS_CAL_CFG_PILOT_TOL 5 100
  decide (tol * 65536 < ((a : Int) - b).natAbs * 10000)

/-- Cell `k` starts its pilot at its next position (R43). -/
def Dev.startPilot (k : Nat) (d : Dev) : Dev :=
  d.setCell k fun c =>
    { c with pilot := some c.pilotPos, pilotPos := (c.pilotPos + 1) % 8, pilotDue := false, armed := none }

/-- A loop cell whose conversion has ended takes a pilot that is due (R44). -/
def Dev.pilotAfter (k : Nat) (d : Dev) : Dev :=
  let c := d.cell k
  d.when (c.role = .loop && c.pilotDue && !c.busy && c.pilot.isNone) (Dev.startPilot k)

/-! ### Calibration, pilots and the pool (R39 to R44, R52 to R58) -/

/-- Cell `k` is taken for calibration or retest; a retest puts a retired cell among the working ones (R57). -/
def Dev.startCal (k : Nat) (retest : Bool) (d : Dev) : Dev :=
  let d := d.setCell k fun c => { c with role := .cal, armed := none, pilotDue := false }
  let r : CalRun := { cell := k, start := d.clk.tclk, retest := retest, tableDone := false }
  let d := { d with meas := { d.meas with calRun := some r, retest := if retest then none else d.meas.retest } }
  d.when retest Dev.checkShort

/-- Cells armed on a channel that no longer keeps cells armed, or keeps fewer, are released (R50, R65). -/
def Dev.disarmIdle (d : Dev) : Dev :=
  forN 48 (fun k d =>
    match (d.cell k).armed with
    | some ch =>
      if d.meas.handover.any fun h => decide (h.new = k) then d
      else if d.jobChannel ch && d.flag MEAS_CTL_JOB_EN &&
          ((d.cell k).role ≠ .job || ((d.armedOn ch).take (d.armNeed ch)).contains k) then d
      else d.setCell k fun c => { c with armed := none, standIn := false }
    | none => d) d

/-- A handover cell is armed on the stream of loop cell `old`, if a free JOB cell is left (R53). -/
def Dev.handoverFor (old : Nat) (d : Dev) : Dev :=
  match d.pickReplacement with
  | none => d
  | some new =>
    let ch := (d.cell old).stream
    let d := d.setCell new fun c => { c with armed := some ch }
    let h : Handover := { old := old, new := new, chan := ch }
    { d with meas := { d.meas with handover := some h } }

/-- The calibration class holds a cell or a handover already (R42). -/
def Dev.calBusy (d : Dev) : Bool := d.meas.handover.isSome || d.meas.calRun.isSome

/-- CAL_BLOCKED: an overdue loop cell cannot be released, no cell outside the loop class being left to take over its work
(R42); once for as long as that lasts. [DEDUCED, log 30] -/
def Dev.judgeBlocked (k : Nat) (d : Dev) : Dev :=
  let now := (d.cellsWhere fun c => c.role = .job).isEmpty
  let d := d.evtIf (now && !(d.cell k).blocked) MEAS_STAT_CAL_BLOCKED
  d.setCell k fun c => { c with blocked := now }

/-- A handover cell for the first overdue loop cell (R52 order 2, R53). -/
def Dev.startHandover (d : Dev) : Dev :=
  match d.meas.dueOrder.find? fun k => (d.cell k).overdue && (d.cell k).role = .loop with
  | none => d
  | some old =>
    let d := d.judgeBlocked old
    if d.calBusy then d else d.handoverFor old

/-- The index of the decimator state of the stream that a loop cell serves (08 R215). -/
def loopIdx (c : Cell) : Nat := chanIdx c.stream (if c.stream = 44 ∨ c.stream = 45 then c.half + 1 else 0)

/-- A pilot that is due on a cell that is not free (R44): an armed cell takes it once another free cell is armed on its channel, a
loop cell where its next event is far.  The armed handover cell keeps its stream. -/
def Dev.pilotOn (k : Nat) (d : Dev) : Dev :=
  let c := d.cell k
  if ¬ c.pilotDue ∨ c.busy ∨ c.pilot.isSome then d
  else
    match c.role, c.armed with
    | .job, some ch =>
      if d.meas.handover.any fun h => decide (h.new = k) then d
      else
        match d.pickArm with
        | some j => (d.armCell j ch).startPilot k
        | none => d
    | .loop, _ => d.when (d.nextFar (loopIdx c) c.stream) (Dev.startPilot k)
    | _, _ => d

/-- Pilots that are due: first every free cell takes its own, then the cells that are not free (R44, R52 order 3). -/
def Dev.servePilots (d : Dev) : Dev :=
  let d := forN 48 (fun k d => d.when ((d.cell k).pilotDue && (d.cell k).free) (Dev.startPilot k)) d
  forN 48 Dev.pilotOn d

/-- Overdue calibration of a free JOB cell, then a queued retest (R52 order 4, R58). [DEDUCED, log 28; DESIGN CHOICE, log 190] -/
def Dev.serveOverdue (d : Dev) : Dev :=
  if d.calBusy then d
  else
    match d.meas.dueOrder.find? fun k => (d.cell k).overdue && (d.cell k).free with
    | some k => d.startCal k false
    | none =>
      match d.meas.retest with
      | some k => if (d.cell k).role = .retired then d.startCal k true else d
      | none => d

/-- Calibration of the first due cell in the order of becoming due, once a job cell has been idle for 1 ms: a free JOB
cell itself, a loop cell by handover (R41, R42, R52 order 6, R53, R65); CAL_EN starts none and stops none that is under way.
[DEDUCED, log 28; DESIGN CHOICE, log 192] -/
def Dev.serveDue (d : Dev) : Dev :=
  if ¬ d.meas.idleOk ∨ ¬ d.flag MEAS_CTL_CAL_EN ∨ d.calBusy ∨ (d.cellsWhere Cell.free).isEmpty then d
  else
    match d.meas.dueOrder.find? fun k => (d.cell k).free || (d.cell k).role = .loop with
    | some k => if (d.cell k).role = .loop then d.handoverFor k else d.startCal k false
    | none => d

/-- One pass of the pool at an LCLK edge (R52): every use in the order of the table. [DEDUCED, log 36] -/
def Dev.poolAllocate (d : Dev) : Dev :=
  if ¬ d.measuring then d
  else
    let d := d.disarmIdle.serveLoops.startHandover.servePilots.serveOverdue.serveArming.serveDue
    if (d.cellsWhere Cell.free).isEmpty then { d with meas := { d.meas with idleOk := false } } else d

/-! ### Quarantine and the results of conversions (R33, R35, R43, R51, R53, R54) -/

/-- The pool's pass that follows a change of a cell's role at once: in the modes that measure (R52, R54). -/
def Dev.poolNow (d : Dev) : Dev := d.checkShort.poolAllocate

/-- Cell `k` is quarantined (R54): its uses are dropped, and the pool gives its stream or channel a replacement at once, in the
order of R52; while there is none, it stays armed (R55).  A cell under retest stays retired instead (R58).  A double-bit error in
the table of a cell that is quarantined already retires it, whatever its pilots show. [DEDUCED, log 32; DESIGN CHOICE, log 164] -/
def Dev.quarantine (k code : Nat) (ecc : Bool) (d : Dev) : Dev :=
  if d.meas.calRun.any fun r => r.retest && decide (r.cell = k) then
    ((d.dropUses k).setCell k fun c =>
      { c with role := .retired, armed := none, busy := false, pilot := none, fault := 6 }).poolNow
  else if (d.cell k).role = .retired then d
  else if (d.cell k).role = .quar then d.setCell k fun c => { c with eccQuar := c.eccQuar || ecc }
  else
    let d := d.dropUses k
    (d.setCell k fun c =>
      { c with role := .quar, busy := false, pilot := none, pilotDue := false, fault := code, eccQuar := ecc
               standIn := c.role = .loop || c.armed.isSome }).poolNow

/-- The result of a pilot conversion (R43): a failed pilot quarantines its cell. [DEDUCED, log 31] -/
def Dev.pilotDone (k pos code : Nat) (redOk rstOk tableEcc : Bool) (d : Dev) : Dev :=
  let fault := convFault code redOk rstOk tableEcc
  let rec_ := (d.cell k).pilots.getD pos 0
  let d := d.setCell k fun c => { c with pilot := none }
  if fault ≠ 0 then
    let d := d.flagConvFault fault k code none
    let d := d.evtIf (decide (fault ≠ 5)) MEAS_STAT_PILOT_FAIL
    d.quarantine k fault (decide (fault = 5))
  else if d.beyondTol (d.fraction k code) rec_ then (d.evt MEAS_STAT_PILOT_FAIL).quarantine k 4 false
  else d

/-- The event a cell converts, and the list without it. -/
def takeEvent (k : Nat) : List Event → Option (Event × List Event)
  | [] => none
  | e :: t =>
    if e.parts.any fun p => decide (p.1 = k) then some (e, t)
    else match takeEvent k t with
      | some (x, r) => some (x, e :: r)
      | none => none

/-- The parts with cell `k`'s result filled in. -/
def setPart (ps : List (Nat × Part)) (k : Nat) (r : Part) : List (Nat × Part) :=
  ps.map fun p => if p.1 = k then (k, r) else p

/-- What a cell contributed to an event: its fraction, and whether it stopped one TCLK edge later. -/
def partOf (ps : List (Nat × Part)) (k : Nat) : Option (Nat × Bool) :=
  match ps.find? fun p => decide (p.1 = k) with
  | some (_, .good f later) => some (f, later)
  | _ => none

/-- Two results of one event differ by more than PILOT_TOL: the fractions are compared as reaching to the same TCLK edge (R32,
R53). -/
def Dev.partsDiffer (d : Dev) (a b : Nat × Bool) : Bool :=
  d.beyondTol (a.1 + if b.2 then 40960 else 0) (b.1 + if a.2 then 40960 else 0)

/-- The handover decided by a shared event (R53): completed when the results agree, cancelled when they differ.  Where one of
the two results failed its check, there is no comparison: the handover is dropped and its cell released, with no bit of its
own. [DESIGN CHOICE, log 163] -/
def Dev.decideHandover (e : Event) (d : Dev) : Dev :=
  match e.handover, d.meas.handover with
  | some new, some h =>
    if h.new ≠ new then d
    else
      match partOf e.parts h.old, partOf e.parts new with
      | some a, some b =>
        if d.partsDiffer a b then
          let d := (d.evt (MCH_STAT_HANDOVER e.chan)).evt MEAS_STAT_HANDOVER_DIFF
          d.quarantine new 7 false
        else
          let half := (d.cell h.old).half
          let d := { d with meas := { d.meas with handover := none } }
          let d := d.bindLoop new e.chan half
          let d := d.setCell h.old fun c => { c with role := .cal, armed := none, pilotDue := false }
          let r : CalRun := { cell := h.old, start := d.clk.tclk, retest := false, tableDone := false }
          { d with meas := { d.meas with calRun := some r } }
      | _, _ =>
        let d := { d with meas := { d.meas with handover := none } }
        d.setCell new fun c => { c with armed := none }
  | _, _ => d

/-- A timestamp delivered by the front end: channel, time in 2^-16 ns, arrival in TCLK time, link tag and MSEQ. -/
structure Stamp where
  chan : Nat
  ts : Nat
  arr : Nat
  tag : Nat
  mseq : Nat
  deriving DecidableEq, Repr

/-- The device time and the increment at the TCLK edge at which a cell's conversion of an event stopped: the stop edge, or the
edge after it where its arbiter took the next edge (R32, R35). -/
def Event.stop (e : Event) (later : Bool) : Nat × Nat := if later then e.late.getD (e.dtStop, e.inc) else (e.dtStop, e.inc)

/-- The timestamp of one cell's part of an event (R35). -/
def Event.stampOf (e : Event) (f : Nat) (later : Bool) (delay : Int) : Nat :=
  stamp (e.stop later).1 (e.stop later).2 f delay

/-- The timestamp of an event whose conversions have all ended (R35, R51): the mean of two, one alone, or none.  The die
temperature is that of the edge at which the last conversion ends; TRIM is that of the edge's forwarding (R46).
[DESIGN CHOICE, log 166] -/
def Dev.eventStamp (d : Dev) (e : Event) : Option Nat :=
  let own := e.parts.filter fun p => decide (some p.1 ≠ e.handover)
  let e := e.latch d.clk (max (e.stopAt + 1) d.clk.tclk)
  let delay := d.chanDelay e.chan e.trim
  let ts := own.filterMap fun p => match p.2 with | .good f later => some (e.stampOf f later delay) | _ => none
  match ts with
  | [] => none
  | [t] => some t
  | t :: u :: _ => some ((t + u + 1) / 2)

/-- The cells convert: the modes that measure, and BOOT, whose boot calibration they run (R40). -/
def Dev.cellsWork (d : Dev) : Bool := d.measuring || (d.mode = .boot && d.clk.pllLocked)

/-- Boot calibration still runs on cell `k` (R40): it has locked, it is not complete, and the cell has not left it (R54). -/
def Dev.bootCals (d : Dev) (k : Nat) : Bool :=
  d.mode = .boot && d.clk.pllLocked && !d.meas.bootCalDone && decide ((d.cell k).role = .job) && !(d.cell k).coarse

/-- A conversion of the calibration source ends: one that fails a check of R33 quarantines its cell (R54).  A cell that leaves the
boot calibration so is left with no table and counts as COARSE. [DESIGN CHOICE, log 187] -/
def Dev.calConversion (k code : Nat) (redOk rstOk : Bool) (d : Dev) : Dev :=
  let fault := convFault code redOk rstOk false
  if fault = 0 then d
  else if d.bootCals k then
    ((d.flagConvFault fault k code none).setCell k fun c => { c with coarse := true }).quarantine k fault false
  else if d.meas.calRun.any fun r => decide (r.cell = k) then (d.flagConvFault fault k code none).quarantine k fault false
  else d

/-- Every conversion of an event has ended. -/
def Event.complete (e : Event) : Bool := e.parts.all fun p => decide (p.2 ≠ .waiting)

/-- The result of a cell's conversion of an event (R33, R35, R51, R53, R54); answers the timestamp formed, if any.  A pilot that
is due on the cell takes the slot after it (R44). [DESIGN CHOICE, log 23] -/
def Dev.conversionDone (k : Nat) (c : CellCode) (redOk rstOk tableEcc : Bool) (d : Dev) : Dev × Option Stamp :=
  match (d.cell k).pilot with
  | some pos => (d.pilotDone k pos c.code redOk rstOk tableEcc, none)
  | none =>
    match takeEvent k d.meas.events with
    | none => (d.calConversion k c.code redOk rstOk, none)
    | some (e, rest) =>
      let fault := convFault c.code redOk rstOk tableEcc
      let part := if fault = 0 then Part.good (d.fraction k c.code) c.later else Part.bad
      let e := { e with parts := setPart e.parts k part }
      let d := { d with meas := { d.meas with events := if e.complete then rest else rest ++ [e] } }
      let d := d.setCell k fun c => { c with busy := false }
      let d := if fault = 0 then d
        else (d.flagConvFault fault k c.code (some e.chan)).quarantine k fault (decide (fault = 5))
      if ¬ e.complete then (d.pilotAfter k, none)
      else
        let d := (d.decideHandover e).pilotAfter k
        match d.eventStamp e with
        | none => (d.lose e.chan, none)
        | some t => (d, some { chan := e.chan, ts := t, arr := e.arr, tag := e.tag, mseq := e.mseq })

/-! ### Deferral, runs and their ends (R39 to R44, R53, R54, R58) -/

/-- The conditions of R41 for a cell, at a temperature reading. -/
def Dev.cellDue (d : Dev) (k : Nat) (temp : Int) : Bool :=
  let c := d.cell k
  c.coarse || c.calibrated && (
    decide (4 * d.rdIn MEAS_CAL_CFG_CAL_DT 1 255 ≤ (temp - c.calTemp).natAbs)
    || decide (d.rdIn MEAS_CAL_AGE_CAL_MAXAGE 60 1000000 ≤ d.secSince c.calEnd))

/-- Every cell is judged for calibration at a temperature reading (R41). [DEDUCED, log 29] -/
def Dev.judgeDue (temp : Int) (d : Dev) : Dev :=
  forN 48 (fun k d =>
    if (d.cell k).due ∨ ¬ d.cellDue k temp then d
    else
      let d := d.setCell k fun c => { c with due := true }
      { d with meas := { d.meas with dueOrder := d.meas.dueOrder ++ [k] } }) d

/-- A due cell's deferral timer expires (R42). [DEDUCED, log 30] -/
def Dev.calDeferExpiry (k : Nat) (d : Dev) : Dev :=
  let c := d.cell k
  if ¬ d.measuring ∨ ¬ c.due ∨ c.overdue then d
  else
    let d := (d.setCell k fun c => { c with overdue := true }).evt MEAS_STAT_CAL_OVERDUE
    (d.when (c.role = .loop) (Dev.judgeBlocked k)).fire 18 k

/-- A job cell has been idle for a continuous 1 ms (R42). -/
def Dev.calIdleExpiry (d : Dev) : Dev :=
  if ¬ d.measuring ∨ (d.cellsWhere Cell.free).isEmpty then d
  else { d with meas := { d.meas with idleOk := true } }

/-- A calibration run ends and its table replaces the active one (R39, R28). [DESIGN CHOICE, log 23] -/
def Dev.calRunDone (hits pilots : List Nat) (d : Dev) : Dev :=
  match d.meas.calRun with
  | none => d
  | some r =>
    if ¬ d.measuring ∨ r.tableDone then d
    else
      let d := d.installTable r.cell hits pilots false
      if r.retest then { d with meas := { d.meas with calRun := some { r with tableDone := true } } }
      else
        let d := d.setCell r.cell fun c => { c with role := .job }
        { d with meas := { d.meas with calRun := none } }

/-- Boot calibration of every cell completes; the tables are COARSE (R40).  A cell that a failed check took out of it has abandoned
its run (R54). [DESIGN CHOICE, log 187] -/
def Dev.bootCal (hits pilots : List (List Nat)) (d : Dev) : Dev :=
  if d.mode ≠ .boot ∨ ¬ d.clk.pllLocked ∨ d.meas.bootCalDone then d
  else
    let d := forN 48 (fun k d =>
      d.when (d.bootCals k) (Dev.installTable k (hits.getD k []) (pilots.getD k []) true)) d
    { d with meas := { d.meas with bootCalDone := true } }

/-- A pilot falls due on a cell (R43, R44): a loop cell takes it at once where its next event is far, else in the slot after
its next conversion; a JOB cell takes it through the pool.  A cell in CAL converts the calibration source alone.
[DESIGN CHOICE, log 189] -/
def Dev.pilotDueOn (k : Nat) (d : Dev) : Dev :=
  let c := d.cell k
  if ¬ d.measuring then d
  else
    match c.role with
    | .loop =>
      (d.setCell k fun c => { c with pilotDue := true }).when (d.nextFar (loopIdx c) c.stream) (Dev.pilotAfter k)
    | .job => d.setCell k fun c => { c with pilotDue := true }
    | _ => d

/-- A pilot that has waited a further 128 us takes its armed job cell (R44); a handover it was armed for is dropped.
[DESIGN CHOICE, log 163] -/
def Dev.pilotWaitExpiry (k : Nat) (d : Dev) : Dev :=
  let c := d.cell k
  d.when (d.measuring && c.pilotDue && c.role = .job && !c.busy && c.pilot.isNone) fun d =>
    (d.dropUses k).startPilot k

/-- The handover of a slow stream takes place between two events (R53); a conversion the old cell still makes is finished. -/
def Dev.handoverSlow (d : Dev) : Dev :=
  match d.meas.handover with
  | none => d
  | some h =>
    if ¬ d.measuring ∨ ¬ d.slowStream h.chan ∨ ¬ d.nextFar (loopIdx (d.cell h.old)) h.chan then d
    else
      let half := (d.cell h.old).half
      let d := { d with meas := { d.meas with handover := none } }
      (d.bindLoop h.new h.chan half).startCal h.old false

/-- The 64 pilots on a quarantined cell end (R54), in BOOT as well. [DEDUCED, log 29] -/
def Dev.quarDone (k fails : Nat) (d : Dev) : Dev :=
  let c := d.cell k
  if c.role ≠ .quar then d
  else if 2 ≤ fails ∨ c.eccQuar then
    let d := d.setCell k fun c => { c with role := .retired, armed := none, standIn := false }
    ((d.evt MEAS_STAT_CELL_RETIRED).fire 19 k).poolNow
  else (d.setCell k fun c => { c with role := .job, armed := none, standIn := false }).poolNow

/-- MEAS_CELL_CMD.RETEST (R69). -/
def Dev.retestCmd (k : Nat) (d : Dev) : Dev :=
  let running := d.meas.calRun.any fun r => r.retest
  if (d.cell k).role = .retired ∧ k < 48 ∧ d.meas.retest.isNone ∧ ¬ running then
    { d with meas := { d.meas with retest := some k } }
  else d.evt MEAS_ERR_CMD_IGNORED

/-- A retest's calibration and pilots end (R58). [DEDUCED, log 32] -/
def Dev.retestDone (fails : Nat) (d : Dev) : Dev :=
  match d.meas.calRun with
  | some r =>
    if ¬ r.retest ∨ ¬ d.measuring then d
    else
      let d := { d with meas := { d.meas with calRun := none } }
      let d := if r.tableDone ∧ fails = 0 then d.setCell r.cell fun c => { c with role := .job }
        else d.setCell r.cell fun c => { c with role := .retired, fault := 6 }
      d.checkShort
  | none => d

end Sys2Proof.Machine
end

