-- ==== Sys2Proof/Machine/JobsOps.lean ====
section
/-!
DEFINITION. Measurement jobs, rings and the Tally port (chapter 03).
-/

namespace Sys2Proof.Machine

/-! ### Results (R60, R62, R78) -/

/-- A value as a 64-bit payload; a value that does not fit is one 03 R78 states no result for. [DESIGN CHOICE, log 9] -/
def fit64 (v : Int) : Nat := if 0 ≤ v ∧ v < 2 ^ 64 then v.toNat else (Config.payloadOpen v.natAbs).toNat

/-- A normal result. -/
def Done.result (payload : Nat) : Done :=
  { tmo := false, near := false, abort := false, rst := false, cause := 0, payload := payload }

/-- A timeout (R60, R78): payload 0. -/
def Done.timeout : Done :=
  { tmo := true, near := false, abort := false, rst := false, cause := 0, payload := 0 }

/-- An abort with a cause of R82. -/
def Done.aborted (cause : Nat) : Done :=
  { tmo := false, near := false, abort := true, rst := false, cause := cause, payload := 0 }

/-- A completion by reset (R83). -/
def Done.reset (cause : Nat) : Done :=
  { tmo := false, near := false, abort := false, rst := true, cause := cause, payload := 0 }

/-- The interval stop - start with its NEAR flag (R60, R62). -/
def Done.interval (off : Int) : Done :=
  { Done.result (twos 64 off) with near := decide (off.natAbs ≤ 65) }

/-- OPEN and CLOSE of an interval job (R74). -/
def Job.openAt (j : Job) : Int := sext 64 j.paramA
def Job.closeAt (j : Job) : Int := sext 64 j.paramB

/-- A stop is considered against the start (R60). [DEDUCED, log 37] -/
def Job.considerStop (j : Job) (s : Nat) : Job :=
  match j.start, j.done with
  | some t, none =>
    let off : Int := (s : Int) - t
    if off < j.openAt then { j with early := true }
    else if j.closeAt < off then j
    else if 0 ≤ off then
      match j.cand with
      | none => { j with done := some (Done.interval off) }
      | some c => if off < (t : Int) - c then { j with done := some (Done.interval off) } else j
    else
      match j.cand with
      | none => { j with cand := some s }
      | some c => if c < s then { j with cand := some s } else j
  | _, _ => j

/-- An interval job takes a timestamp of one of its channels (R59, R60). -/
def Job.takeInterval (j : Job) (ch ts : Nat) : Job :=
  match j.start with
  | none =>
    if ch = j.chA then
      let j' := { j with start := some ts, stops := [] }
      j.stops.foldl Job.considerStop j'
    else { j with stops := j.stops ++ [ts] }
  | some _ => if ch = j.chB then j.considerStop ts else j

/-- The frequency N x DEC / T in 2^-24 Hz, T in 2^-16 ns (R78). [DESIGN CHOICE, log 9] -/
def freqOf (n dec span : Nat) : Nat :=
  if span = 0 then (Config.payloadOpen n).toNat
  else fit64 (divRound ((n * dec * 2 ^ 40 * 1000000000 : Nat) : Int) (span : Int))

/-- The quotient of two frequencies with 2^-32 LSB (R78). [DESIGN CHOICE, log 9] -/
def ratioOf (nA decA spanA nB decB spanB : Nat) : Nat :=
  if spanA = 0 ∨ spanB = 0 ∨ nB * decB = 0 then (Config.payloadOpen nA).toNat
  else fit64 (divRound ((nA * decA * spanB * 2 ^ 32 : Nat) : Int) ((spanA * nB * decB : Nat) : Int))

/-- The forwarded edges without a timestamp that arrived before `arr`. -/
def lostBefore (arr : Nat) (l : List Nat) : Nat := (l.filter fun x => decide (x < arr)).length

/-- The ratio's denominator takes one of its timestamps: the first after the opening opens it, the first at or after the
closing ends it; forwarded edges that gave no timestamp count among its N (R78). -/
def Job.takeB (decA decB : Nat) (j : Job) (x : Nat × Nat) : Job :=
  match j.start, j.done with
  | some o, none =>
    if x.1 ≤ o then j
    else
      let j := match j.bOpen with
        | none => { j with bOpen := some x.1, bOpenArr := some x.2, bLast := some x.1
                           lostB := j.lostB.filter fun y => decide (x.2 < y) }
        | some _ => { j with bEdges := j.bEdges + 1, bLast := some x.1 }
      match j.close with
      | some c =>
        if c ≤ x.1 then
          { j with done := some (Done.result (ratioOf j.edges decA (c - o) (j.bEdges + lostBefore x.2 j.lostB) decB
              (x.1 - j.bOpen.getD x.1))) }
        else j
      | none => j
  | _, _ => j

/-- A frequency job takes a timestamp of its measured channel (R78): the first opens the gate, the first at or after GATE
closes it, and N counts every forwarded edge between them. -/
def Job.takeA (decA decB : Nat) (j : Job) (ts arr : Nat) : Job :=
  match j.start with
  | none =>
    { j with start := some ts, openArr := some arr, lostA := j.lostA.filter fun y => decide (arr < y)
             bStops := j.bStops.filter fun s => decide (ts < s.1) }
  | some o =>
    match j.close with
    | some _ => j
    | none =>
      let j := { j with edges := j.edges + 1 }
      if o + j.paramA * 65536 ≤ ts then
        let j := { j with close := some ts, edges := j.edges + lostBefore arr j.lostA }
        if ¬ j.ratio then { j with done := some (Done.result (freqOf j.edges decA (ts - o))) }
        else j.bStops.foldl (Job.takeB decA decB) { j with bStops := [] }
      else
        let before := j.bStops.filter fun s => decide (s.1 < ts)
        before.foldl (Job.takeB decA decB) { j with bStops := j.bStops.filter fun s => decide (ts ≤ s.1) }

/-- A ratio job takes a timestamp of its denominator, which waits until a numerator edge places it (R78). -/
def Job.waitB (decA decB : Nat) (j : Job) (ts arr : Nat) : Job :=
  match j.close with
  | some _ => j.takeB decA decB (ts, arr)
  | none =>
    let keep := if j.start.isSome then j.bStops else j.bStops.filter fun s => decide (ts ≤ s.1 + 300 * 65536)
    { j with bStops := keep ++ [(ts, arr)] }

/-- A frequency job takes a timestamp (R78); a channel that is numerator and denominator serves as both. -/
def Job.takeFreq (decA decB : Nat) (j : Job) (ch ts arr : Nat) : Job :=
  let j := if ch = j.chA then j.takeA decA decB ts arr else j
  if j.ratio ∧ ch = j.chB then j.waitB decA decB ts arr else j

/-- A frequency job learns of a forwarded edge that gives no timestamp (R78). -/
def Job.takeLost (j : Job) (ch arr : Nat) : Job :=
  if j.kind ≠ .freq ∨ arr < j.begin then j
  else
    let j := if ch = j.chA ∧ j.close.isNone then { j with lostA := j.lostA ++ [arr] } else j
    if j.ratio ∧ ch = j.chB then { j with lostB := j.lostB ++ [arr] } else j

/-- A value saturated to 32 bits (R78). -/
def sat32 (v : Nat) : Nat := if v < 2 ^ 32 then v else 2 ^ 32 - 1

/-- The payload of a period job (R78): mean, or spread over rms deviation. -/
def Job.periodPayload (j : Job) : Nat :=
  let n := j.edges
  if j.stat then
    let x := n * j.sumSq - j.sum * j.sum
    let rms := (isqrt (4 * x / (n * n)) + 1) / 2
    sat32 (j.maxS - j.minS) * 2 ^ 32 + sat32 rms
  else fit64 (divRound ((j.sum * 65536 : Nat) : Int) (n : Int))

/-- A period job takes a timestamp (R78). -/
def Job.takePeriod (j : Job) (ts : Nat) : Job :=
  match j.lastEdge with
  | none => { j with lastEdge := some ts, start := some ts }
  | some l =>
    let s := ts - l
    let j := { j with
      lastEdge := some ts, edges := j.edges + 1, sum := j.sum + s, sumSq := j.sumSq + s * s
      minS := if j.edges = 0 then s else min j.minS s
      maxS := if j.edges = 0 then s else max j.maxS s }
    if j.paramB ≠ 0 ∧ j.paramB < s then { j with done := some Done.timeout }
    else if j.edges = j.paramA % 2 ^ 32 then { j with done := some (Done.result j.periodPayload) }
    else j

/-! ### Rings: space, order, records (R79, R87, R91 to R95) -/

/-- SIZE of a ring (R91). -/
def Dev.ringSize (d : Dev) (r : Nat) : Nat := 256 * 2 ^ d.rd (TQ_CFG_SIZE_CODE r)
/-- COUNT of a ring (R92). -/
def Dev.ringCount (d : Dev) (r : Nat) : Nat :=
  (d.rd (TQ_HEAD_HEAD r) + 65536 - d.rd (TQ_TAIL_TAIL r)) % 65536
/-- FREE of a ring (R95). -/
def Dev.ringFree (d : Dev) (r : Nat) : Nat := d.ringSize r - d.ringCount r
/-- A ring is enabled or DISABLING: it may still write records (R96). -/
def Dev.ringOpen (d : Dev) (r : Nat) : Bool := d.flag (TQ_CFG_ENABLE r) || d.flag (TQ_STAT_DISABLING r)

/-- Slots whose job satisfies `p`, ascending. -/
def Dev.slotsWhere (d : Dev) (p : Job → Bool) : List Nat :=
  (List.range 128).filter fun k => (d.job k).any p

/-- Whether an injection into the measurement path is active (11 R297). -/
def Dev.injM (d : Dev) : Bool := d.flag FLT_INJ_STAT_ACTIVE && markedM (d.rd FLT_INJ_STAT_SRC)

/-- The bodies of the listed slots hold a double-bit error from now on, which the next read of each finds (R81); a job whose result
is fixed is read no more. [DESIGN CHOICE, log 193] -/
def Dev.markBad (ks : List Nat) (d : Dev) : Dev :=
  ks.foldl (fun d k =>
    match d.job k with
    | some j => if j.done.isSome then d else d.setJob k (some { j with bad := true })
    | none => d) d

/-- The body of a queue slot is read with a double-bit error before the job's result is fixed (R81). -/
def Dev.slotBad (k : Nat) (d : Dev) : Dev :=
  match d.job k with
  | some j =>
    if j.done.isSome then d
    else ((d.setJob k (some { j with done := some (Done.aborted 5) })).evt MEAS_Q_ERR_QUEUE_ECC).fire 21 k
  | none => d

/-- A flush is fixed once every earlier job to its ring has completed (R78), whatever completes it; its body is read then (R81).
[DESIGN CHOICE, log 9] -/
def Dev.settleFlush (r : Nat) (d : Dev) : Dev :=
  let fl := d.slotsWhere fun j => decide (j.ring = r) && decide (j.kind = .flush) && j.done.isNone
  fl.foldl (fun d k =>
    match d.job k with
    | some j =>
      let waits := (d.slotsWhere fun i => decide (i.ring = r) && i.done.isNone && decide (i.kind ≠ .flush)
        && decide (i.order < j.order)) ≠ []
      if waits then d
      else if j.bad then d.slotBad k
      else d.setJob k (some { j with done := some (Done.result (Config.payloadOpen j.tag).toNat) })
    | none => d) d

/-- The slot of the earliest job in flight to a ring (R79). -/
def Dev.firstOf (d : Dev) (r : Nat) : Option Nat :=
  (d.slotsWhere fun j => decide (j.ring = r)).foldl (fun b k =>
    match b, d.job k with
    | none, _ => some k
    | some i, some j => if (d.job i).any fun x => decide (j.order < x.order) then some k else b
    | some _, none => b) none

/-- A completion record waits in the ring's write queue. -/
def Ring.hasCompletion (g : Ring) : Bool := g.wq.any fun w => match w with | .completion .. => true | _ => false

/-- An EPOCH record waits in the ring's write queue. -/
def Ring.hasEpoch (g : Ring) : Bool := g.wq.any fun w => match w with | .epoch .. => true | _ => false

/-- The edge on which a record arose. -/
def WRec.edge : WRec → Nat
  | .epoch e .. => e
  | .completion e _ => e
  | .ts e .. => e
  | .paddock e .. => e

/-- The order in which records of one edge enter the write queue (R94): EPOCH, completion records, TS records by channel and
slot, PADDOCK records by paddock. -/
def WRec.key : WRec → Nat
  | .epoch .. => 0
  | .completion .. => 1
  | .ts _ slot ch .. => 2 + 128 * ch + slot
  | .paddock _ n .. => 10000 + n

/-- A record enters a write queue: behind everything of earlier edges, and in its place among those of its own (R94). -/
def insertRec (w : WRec) : List WRec → List WRec
  | [] => [w]
  | x :: t => if x.edge = w.edge ∧ w.key < x.key then w :: x :: t else x :: insertRec w t

/-- A record enters the write queue of ring `r`. -/
def Dev.enqueue (r : Nat) (w : WRec) (d : Dev) : Dev := d.setRing r fun g => { g with wq := insertRec w g.wq }

/-- The earliest job of a ring enters its write queue once its result is fixed (R79). -/
def Dev.promote (r : Nat) (d : Dev) : Dev :=
  if (d.ring r).hasCompletion then d
  else
    match d.firstOf r with
    | some k =>
      if (d.job k).any fun j => j.done.isSome then
        d.enqueue r (.completion d.clk.edge k)
      else d
    | none => d

/-- After results have been fixed: flushes, then the ring's next completion record. -/
def Dev.settleRing (r : Nat) (d : Dev) : Dev := (d.settleFlush r).promote r

/-- `settleRing` of every ring. -/
def Dev.settleRings (d : Dev) : Dev := forN 16 Dev.settleRing d

/-- Precedence of the EPOCH causes that arise on one edge (R89): STEP, RESET, ENABLE, REQUEST, SEC17. -/
def epochRank (cause : Nat) : Nat :=
  match cause with | 4 => 0 | 3 => 1 | 2 => 2 | 5 => 3 | _ => 4

/-- The bus address of the record with sequence number `seq` of a ring (R91). -/
def Dev.recAddr (d : Dev) (r seq : Nat) : Nat := 0x100000 + 16 * (256 * d.rd (TQ_CFG_BASE r) + seq % d.ringSize r)

/-- The payload of an EPOCH record (R89). -/
def epochPayload (cause secs : Nat) : Nat := cause * 2 ^ 48 + secs % 2 ^ 48

/-- The EPOCH record that a ring has from the present edge takes a cause and its seconds (R89). -/
def Dev.mergeEpoch (cause secs r : Nat) (d : Dev) : Dev :=
  let e := d.clk.edge
  d.setRing r fun g => { g with wq := g.wq.map fun w => if w.edge = e ∧ w.key = 0 then .epoch e cause secs else w }

/-- An EPOCH cause arises for a ring with EPOCH_EN: at most one record per edge, of the first cause in the order of R89, with
the seconds after every change made on the edge. -/
def Dev.addEpoch (cause r : Nat) (d : Dev) : Dev :=
  if ¬ d.flag (TQ_CFG_EPOCH_EN r) ∨ ¬ d.ringOpen r then d
  else
    let secs := uSec d.nowU
    let e := d.clk.edge
    match (d.ring r).epochAt with
    | some (e', c) =>
      if e' = e then
        let c := if epochRank cause < epochRank c then cause else c
        (d.mergeEpoch c secs r).setRing r fun g => { g with epochAt := some (e, c) }
      else (d.enqueue r (.epoch e cause secs)).setRing r fun g => { g with epochAt := some (e, cause) }
    | none => (d.enqueue r (.epoch e cause secs)).setRing r fun g => { g with epochAt := some (e, cause) }

/-- `d` with the port's own state changed. -/
def Dev.setTp (d : Dev) (f : TpState → TpState) : Dev :=
  { d with jobs := { d.jobs with tp := f d.jobs.tp } }

/-- How many records of a ring are neither sent nor in a closed frame (R99). -/
def Dev.unsent (d : Dev) (r : Nat) : Nat :=
  d.ringCount r - (d.ring r).sent -
    ((d.jobs.tp.closed.filter fun f => decide (f.ring = r)).foldl (fun n f => n + f.count) 0)

/-- The port closes a frame of up to 512 of the ring's records that are neither sent nor in a closed frame (R99).
[DEDUCED, log 41] -/
def Dev.closeFrame (r : Nat) (d : Dev) : Dev :=
  let n := min 512 (d.unsent r)
  if n = 0 then d
  else
    let pend := (d.jobs.tp.closed.filter fun f => decide (f.ring = r)).foldl (fun n f => n + f.count) 0
    let first := (d.rd (TQ_TAIL_TAIL r) + (d.ring r).sent + pend) % 65536
    let f : TpFrame := { ring := r, first := first, count := n }
    d.setTp fun t => { t with closed := t.closed ++ [f] }

/-- The port closes a frame when it holds 512 records of a ring (R99). -/
def Dev.closeFull (r : Nat) (d : Dev) : Dev :=
  d.when (d.flag (TQ_CFG_MODE r) && d.flag TP_CTL_ENABLE && decide (512 ≤ d.unsent r)) (Dev.closeFrame r)

/-- The frames of 512 records that a ring's unsent span, of at most 16,384 records, holds are closed (R99). -/
def Dev.closeSpan (r : Nat) (d : Dev) : Dev := forN 32 (fun _ => Dev.closeFull r) d

/-- A record is written to a ring: two SRAM words, then HEAD advances (R84, R91, R92); WM and the header trace follow, and
the ring writes no further record on this edge (R94). -/
def Dev.writeRecord (r flagsTypeCh tag payload : Nat) (d : Dev) : Dev :=
  let d := d.setRing r fun g => { g with wroteAt := some d.clk.edge }
  let seq := d.rd (TQ_HEAD_HEAD r)
  let w0 := flagsTypeCh + seq
  let a := d.recAddr r seq
  let bs := leBytes 4 w0 ++ leBytes 4 tag ++ leBytes 8 payload
  let d := d.setSram a bs
  let d := d.wr (TQ_HEAD_HEAD r) (seq + 1)
  let e : TallyTrace := { word0 := w0, word1 := tag, ring := r, ns := uNs d.nowU }
  let d := { d with jobs := { d.jobs with
    trace := (d.jobs.trace ++ [e]).drop (d.jobs.trace.length + 1 - 256) } }
  let wm := d.rd (TQ_WM_WM r)
  let d := d.evtIf (decide (wm ≠ 0) && decide (wm ≤ d.ringCount r)) (TQ_STAT_WM r)
  d.closeFull r

/-- Word 0 of a record without its SEQ (R87). -/
def recHead (early tmo near abort inj rst : Bool) (type ch : Nat) : Nat :=
  b2n early * 2 ^ 26 + b2n tmo * 2 ^ 27 + b2n near * 2 ^ 28 + b2n abort * 2 ^ 29 + b2n inj * 2 ^ 30 + b2n rst * 2 ^ 31
    + type * 2 ^ 22 + ch * 2 ^ 16

/-- The record type of a completion record (R74, R87). -/
def JobKind.recType : JobKind → Nat
  | .interval => 1 | .freq => 2 | .stream => 7 | .period => 3 | .marker => 6 | .flush => 7

/-- The CH field of a completion record: CH_A for kinds 0 to 3 (R80, R87). -/
def Job.recCh (j : Job) : Nat := match j.kind with | .marker | .flush => 0 | _ => j.chA

/-- The payload of a job's completion record (R78, R82). -/
def Job.recPayload (j : Job) (dn : Done) : Nat :=
  match j.kind with
  | .stream => dn.cause * 2 ^ 56 + min j.dropped (2 ^ 24 - 1) * 2 ^ 32 + j.written % 2 ^ 32
  | _ => if dn.abort || dn.rst then dn.cause * 2 ^ 56 else dn.payload

/-- A stream's counts move on and, at COUNT, fix its result (R78). -/
def Dev.streamCount (slot tag : Nat) (wrote : Bool) (d : Dev) : Dev :=
  match d.job slot with
  | some j =>
    if j.kind ≠ .stream ∨ j.tag ≠ tag then d
    else
      let j := if wrote then { j with written := j.written + 1 } else { j with dropped := j.dropped + 1 }
      let full := decide (j.paramA % 2 ^ 32 ≠ 0) && decide (j.paramA % 2 ^ 32 ≤ j.written + j.dropped)
      let j := if full && j.done.isNone then { j with done := some (Done.result 0) } else j
      (d.setJob slot (some j)).settleRing j.ring
  | none => d

/-- A data record is dropped (R95). [DEDUCED, log 40] -/
def Dev.dropData (r : Nat) (w : WRec) (d : Dev) : Dev :=
  let d := (d.bump (TQ_DROP_DROP r)).evt (TQ_STAT_DROP r)
  match w with
  | .ts _ slot _ tag _ _ => d.streamCount slot tag false
  | _ => d

/-- A data record of a write queue. -/
def WRec.isData : WRec → Bool
  | .ts .. => true
  | .paddock .. => true
  | _ => false

/-- A data record arises for ring `r`: behind a record that waits for space it is judged and dropped at once (R94, R95).
[DEDUCED, log 40] -/
def Dev.addData (r : Nat) (w : WRec) (d : Dev) : Dev :=
  if ((d.ring r).hasCompletion ∨ (d.ring r).hasEpoch) ∧ d.ringFree r = 0 then (d.evt (TQ_STAT_FULL r)).dropData r w
  else d.enqueue r w

/-- The body of a queue slot is read; where that finds a double-bit error, the job is over and its ring goes on (R81). -/
def Dev.readBody (k : Nat) (d : Dev) : Dev :=
  match d.job k with
  | some j => if j.bad && j.done.isNone then (d.slotBad k).settleRing j.ring else d
  | none => d

/-- The flags of a job's completion record but for those of its result: EARLY of an interval, which a record built from the
duplicated header alone does not have (R81, R88). -/
def Job.recEarly (j : Job) (dn : Done) : Bool := j.early && decide (j.kind = .interval) && !(dn.abort && decide (dn.cause = 5))

/-- A record waits for space: FULL is set, and the data records behind it are dropped (R94, R95). -/
def Dev.stallRing (r : Nat) (w : WRec) (rest : List WRec) (d : Dev) : Dev :=
  let d := d.evt (TQ_STAT_FULL r)
  let data := rest.filter WRec.isData
  let d := d.setRing r fun g => { g with wq := w :: rest.filter fun x => !x.isData }
  data.foldl (fun d x => d.dropData r x) d

/-- A data record `w` at the head of the write queue is written, or dropped where FREE is below 2 or an EPOCH is pending
(R95). -/
def Dev.dataTurn (r : Nat) (w : WRec) (rest : List WRec) (write : Dev → Dev) (d : Dev) : Dev :=
  let free := d.ringFree r
  let pop := d.setRing r fun g => { g with wq := rest }
  if 2 ≤ free ∧ ¬ (pop.ring r).hasEpoch then write pop
  else (pop.evtIf (decide (free = 0)) (TQ_STAT_FULL r)).dropData r w

/-- The rings write records: an image is applied, or the device is in BOOT with the system PLL locked, where the records of
a reset are written (R83). [DEDUCED, log 43] -/
def Dev.ringsRun (d : Dev) : Bool := d.applied || (decide (d.mode = .boot) && d.clk.pllLocked)

/-- A ring takes the next record of its write queue (R94, R95); a TS record's job is read for it (R81). An EPOCH record that is
written on its own edge closes the edge: every cause that it can take has arisen (R89). [DEDUCED, log 38, 40; DESIGN CHOICE, log 19]
-/
def Dev.ringTake (r : Nat) (d : Dev) : Dev :=
  match (d.ring r).wq with
  | [] => d
  | w :: rest =>
    let free := d.ringFree r
    let pop := d.setRing r fun g => { g with wq := rest }
    match w with
    | .epoch e cause secs =>
      if 0 < free then
        (pop.writeRecord r (recHead false false false false false false 4 0) 0xFFFFFFFF (epochPayload cause secs)).when
          (decide (e = d.clk.edge)) Dev.closeEdge
      else d.stallRing r w rest
    | .completion _ k =>
      match d.job k with
      | none => pop
      | some j =>
        let dn := j.done.getD (Done.result 0)
        if 0 < free then
          let head := recHead (j.recEarly dn) dn.tmo dn.near dn.abort j.inj dn.rst j.kind.recType j.recCh
          ((pop.writeRecord r head j.tag (j.recPayload dn)).setJob k none).settleRing r
        else d.stallRing r w rest
    | .ts _ slot ch tag st inj =>
      let d := d.readBody slot
      d.dataTurn r w (d.ring r).wq.tail fun d =>
        (d.writeRecord r (recHead false false false false inj false 0 ch) tag (packTs st)).streamCount slot tag true
    | .paddock _ _ ch tag payload inj =>
      d.dataTurn r w rest fun d => d.writeRecord r (recHead false false false false inj false 5 ch) tag payload

/-- RING_RECORD_WRITE: at most one record of a ring in an LCLK cycle (R94). -/
def Dev.ringRecordWrite (r : Nat) (d : Dev) : Dev :=
  if (d.ring r).wroteAt = some d.clk.edge then d else d.ringTake r

/-- The jobs to ring `r` that a reset has ended and whose records are still to be written (R83). -/
def Dev.rstWaits (d : Dev) (r : Nat) : Bool :=
  !(d.slotsWhere fun j => decide (j.ring = r) && j.done.any fun x => x.rst).isEmpty

/-- An RST record of ring `r` waits, and the ring has space for it. -/
def Dev.rstPend (d : Dev) (r : Nat) : Bool := d.rstWaits r && decide (0 < d.ringFree r)

/-- Every RST record of ring `r` that finds space has been written, each in an LCLK cycle of its own since the reset (R94), so that
the present cycle's record is still to come; no job keeps more than one record behind another's. -/
def Dev.rstDrainRing (r : Nat) (d : Dev) : Dev :=
  let e := (List.range ((d.ring r).wq.length + 129)).foldl (fun d _ => if d.rstPend r then d.ringTake r else d) d
  e.setRing r fun g => { g with wroteAt := (d.ring r).wroteAt }

/-- The RST records are written before anything that R83 puts behind them: a push that is accepted.  One that waits for space
holds nothing up. [DESIGN CHOICE, log 167] -/
def Dev.rstDrain (d : Dev) : Dev :=
  if (d.slotsWhere fun j => j.done.any fun x => x.rst).isEmpty then d else forN 16 Dev.rstDrainRing d

/-- A DISABLING ring whose records are all written takes its FLUSH and is disabled (R96). -/
def Dev.ringDisableDone (r : Nat) (d : Dev) : Dev :=
  if d.flag (TQ_STAT_DISABLING r) && (d.ring r).wq.isEmpty && (d.firstOf r).isNone && decide (0 < d.ringFree r) &&
      decide ((d.ring r).wroteAt ≠ some d.clk.edge) then
    (d.writeRecord r (recHead false false false false false false 7 0) 0xFFFFFFFF 0).wr (TQ_STAT_DISABLING r) 0
  else d

/-- An EPOCH cause arises for every ring (R89). -/
def Dev.epochAll (cause : Nat) (d : Dev) : Dev := forN 16 (Dev.addEpoch cause) d

/-! ### Jobs taking timestamps -/

/-- The job in slot `k` takes a timestamp of a channel it uses. -/
def Dev.jobTake (s : Stamp) (k : Nat) (d : Dev) : Dev :=
  match d.job k with
  | none => d
  | some j =>
    if ¬ j.uses s.chan ∨ s.arr < j.begin then d
    else
      match j.kind with
      | .interval => d.setJob k (some (j.takeInterval s.chan s.ts))
      | .freq =>
        d.setJob k (some (j.takeFreq (d.rd (MCH_DEC_DEC j.chA)) (d.rd (MCH_DEC_DEC j.chB)) s.chan s.ts s.arr))
      | .period => d.setJob k (some (j.takePeriod s.ts))
      | .stream =>
        if j.paramA % 2 ^ 32 ≠ 0 ∧ j.paramA % 2 ^ 32 ≤ j.edges then d
        else
          let d := d.setJob k (some { j with edges := j.edges + 1 })
          d.addData j.ring (.ts d.clk.edge k s.chan j.tag s.ts (j.inj || d.injM))
      | .marker | .flush => d

/-- Every job that uses the channel is read and takes the timestamp (R81); completions enter the write queues before TS records
(R94). -/
def Dev.jobsTake (s : Stamp) (d : Dev) : Dev :=
  let users := d.slotsWhere fun j => j.uses s.chan
  let d := users.foldl (fun d k => d.readBody k) d
  let streams := users.filter fun k => (d.job k).any fun j => decide (j.kind = .stream)
  let others := users.filter fun k => !streams.contains k
  let d := others.foldl (fun d k => d.jobTake s k) d
  streams.foldl (fun d k => d.jobTake s k) d.settleRings

/-- The jobs that use the channel learn of a forwarded edge that gives no timestamp (R78); those of a pasture link count its
launches and arrivals alike. -/
def Dev.jobsLost (ch arr _tag : Nat) (d : Dev) : Dev :=
  { d with jobs := { d.jobs with slots := d.jobs.slots.map fun o => o.map fun j => if j.uses ch then j.takeLost ch arr else j } }

/-! ### Requests and aborts (R73 to R77, R85, R86) -/

/-- The kind of a staged request, if it is one of kinds 0 to 5 (R74). -/
def JobKind.ofCode : Nat → Option JobKind
  | 0 => some .interval | 1 => some .freq | 2 => some .stream | 3 => some .period | 4 => some .marker | 5 => some .flush
  | _ => none

/-- The PARAM condition of R75 for a kind. -/
def badParams (k : JobKind) (ratio : Bool) (chA chB pa pb : Nat) : Bool :=
  match k with
  | .interval =>
    let o := sext 64 pa
    let c := sext 64 pb
    decide (c ≤ o) || decide (2 ^ 47 ≤ o.natAbs) || decide (2 ^ 47 ≤ c.natAbs)
  | .freq =>
    decide (pa < 1000) || decide (1000000000000 < pa) || decide (pb ≠ 0) || (!ratio && decide (chB ≠ 0))
  | .stream => decide (2 ^ 32 ≤ pa) || decide (pb ≠ 0) || decide (chB ≠ 0)
  | .period => decide (pa < 2) || decide (2 ^ 24 < pa) || decide (chB ≠ 0)
  | .marker | .flush => decide (pa ≠ 0) || decide (pb ≠ 0) || decide (chA ≠ 0) || decide (chB ≠ 0)

/-- A channel named by a kind is available to jobs (R75 CHANNEL, R76). -/
def Dev.chanOpen (d : Dev) (ch : Nat) : Bool := d.flag (MCH_CFG_ENABLE ch) || d.claimed ch

/-- The reason with which a push by a master is rejected, 0 when it is accepted (R75). -/
def Dev.pushReason (d : Dev) (m : Nat) : Nat :=
  let code := d.rdPm m MEAS_REQ_W0_KIND
  let chA := d.rdPm m MEAS_REQ_W0_CH_A
  let chB := d.rdPm m MEAS_REQ_W0_CH_B
  let ratio := decide (d.rdPm m MEAS_REQ_W0_RATIO ≠ 0)
  let ring := d.rdPm m MEAS_REQ_W0_RING
  let pa := d.rdPm m MEAS_REQ_W2_PARAM_A + 2 ^ 32 * d.rdPm m MEAS_REQ_W3_PARAM_A
  let pb := d.rdPm m MEAS_REQ_W4_PARAM_B + 2 ^ 32 * d.rdPm m MEAS_REQ_W5_PARAM_B
  if d.mode ≠ .run ∧ d.mode ≠ .fold then 1
  else if ¬ d.flag MEAS_CTL_JOB_EN ∧ code ≤ 3 then 2
  else if (d.slotsWhere fun _ => true).length = 128 then 3
  else
    match JobKind.ofCode code with
    | none => 4
    | some k =>
      let chans := match k with
        | .interval => [chA, chB]
        | .freq => if ratio then [chA, chB] else [chA]
        | .stream | .period => [chA]
        | .marker | .flush => []
      if d.rdPm m MEAS_REQ_W1_TAG = 0xFFFFFFFF then 5
      else if ¬ d.flag (TQ_CFG_ENABLE ring) ∨ d.flag (TQ_STAT_DISABLING ring) then 6
      else if chans.any fun c => !d.chanOpen c then 7
      else if badParams k ratio chA chB pa pb then 8
      else 0

/-- The job a push by a master makes (R74, R77). [DESIGN CHOICE, log 9] -/
def Dev.newJob (d : Dev) (m : Nat) (k : JobKind) : Job :=
  { order := d.jobs.nextOrder, tag := d.rdPm m MEAS_REQ_W1_TAG, ring := d.rdPm m MEAS_REQ_W0_RING, kind := k,
    chA := d.rdPm m MEAS_REQ_W0_CH_A, chB := d.rdPm m MEAS_REQ_W0_CH_B,
    stat := decide (d.rdPm m MEAS_REQ_W0_STAT ≠ 0), ratio := decide (d.rdPm m MEAS_REQ_W0_RATIO ≠ 0),
    paramA := d.rdPm m MEAS_REQ_W2_PARAM_A + 2 ^ 32 * d.rdPm m MEAS_REQ_W3_PARAM_A,
    paramB := d.rdPm m MEAS_REQ_W4_PARAM_B + 2 ^ 32 * d.rdPm m MEAS_REQ_W5_PARAM_B,
    begin := d.clk.tclk * 40960, early := false, inj := d.injM, start := none, cand := none, stops := [], edges := 0,
    lastEdge := none, close := none, openArr := none, lostA := [], bOpenArr := none, lostB := [], bStops := [], bOpen := none, bEdges := 0, bLast := none, sum := 0, sumSq := 0, minS := 0,
    maxS := 0, written := 0, dropped := 0, bad := false,
    done := if k = .marker then some (Done.result (Config.payloadOpen (d.rdPm m MEAS_REQ_W1_TAG)).toNat) else none }

/-- A push by a master is judged (R73, R75, R77). [DEDUCED, log 103] -/
def Dev.pushNow (m : Nat) (d : Dev) : Dev :=
  let reason := d.pushReason m
  match JobKind.ofCode (d.rdPm m MEAS_REQ_W0_KIND), (List.range 128).find? fun k => (d.job k).isNone with
  | some k, some slot =>
    if reason = 0 then
      let j := d.newJob m k
      let d := d.setJob slot (some j)
      let d := { d with jobs := { d.jobs with nextOrder := d.jobs.nextOrder + 1 } }
      let d := d.bump MEAS_ACCEPTED_COUNT
      let d := d.setPmWord m rMEAS_REQ_RESULT (Word.of (0xC0000000 + slot * 2 ^ 16))
      d.settleRing j.ring
    else
      let d := (d.bump MEAS_REJECTED_COUNT).evt MEAS_Q_ERR_REJECT
      d.setPmWord m rMEAS_REQ_RESULT (Word.of (0x80000000 + reason * 2 ^ 24))
  | _, _ =>
    let d := (d.bump MEAS_REJECTED_COUNT).evt MEAS_Q_ERR_REJECT
    d.setPmWord m rMEAS_REQ_RESULT (Word.of (0x80000000 + reason * 2 ^ 24))

/-- MEAS_REQ_PUSH.GO by a master, behind the RST records of a reset (R73, R83). -/
def Dev.push (m : Nat) (d : Dev) : Dev := d.rstDrain.pushNow m

/-- The body of the job of an acceptance number, read at its acceptance, has a double-bit error (R81): the job completes at once
with cause QUEUE_ECC, also where its result is fixed by the same read.  Without such a job nothing is read. [DEDUCED, log 38] -/
def Dev.pushBad (order : Nat) (d : Dev) : Dev :=
  (d.slotsWhere fun j => decide (j.order = order)).foldl (fun d k =>
    match d.job k with
    | some j =>
      (((d.setJob k (some { j with done := some (Done.aborted 5) })).evt MEAS_Q_ERR_QUEUE_ECC).fire 21 k).settleRing j.ring
    | none => d) d

/-- The jobs of the listed slots that are not yet decided are aborted with a cause (R82, R86). -/
def Dev.abortSlots (cause : Nat) (ks : List Nat) (d : Dev) : Dev :=
  let d := ks.foldl (fun d k =>
    match d.job k with
    | some j => if j.done.isNone then d.setJob k (some { j with done := some (Done.aborted cause) }) else d
    | none => d) d
  d.settleRings

/-- The jobs that satisfy `p` are aborted with a cause, completion winning (R86). -/
def Dev.abortWhere (cause : Nat) (p : Job → Bool) (d : Dev) : Dev := d.abortSlots cause (d.slotsWhere p)

/-- MEAS_ABORT.GO by a master (R85, R86). -/
def Dev.abortCmd (m : Nat) (d : Dev) : Dev :=
  let sel := match d.rd MEAS_ABORT_SCOPE with
    | 0 =>
      let k := d.rd MEAS_ABORT_SLOT
      if (d.job k).any fun j => decide (j.tag = d.rdPm m MEAS_ABORT_TAG_TAG) then [k] else []
    | 1 => d.slotsWhere fun j => decide (j.ring = d.rd MEAS_ABORT_RING)
    | 2 => d.slotsWhere fun _ => true
    | _ => []
  let open_ := (sel.filter fun k => (d.job k).any fun j => j.done.isNone).length
  let none_ := decide (d.rd MEAS_ABORT_SCOPE = 0) && sel.isEmpty
  let d := d.abortSlots 1 sel
  let d := d.evtIf none_ MEAS_Q_ERR_ABORT_NONE
  d.setPmWord m rMEAS_ABORT_RESULT
    (Word.of (0x80000000 + b2n none_ * 2 ^ 30 + open_ * 2 ^ 16 + (sel.length - open_) * 2 ^ 8))

/-- Every job in flight is completed with RST and the cause of the reset (R83). [DEDUCED, log 43] -/
def Dev.rstJobs (cause : Nat) (d : Dev) : Dev :=
  let d := (d.slotsWhere fun _ => true).foldl (fun d k =>
    match d.job k with
    | some j => d.setJob k (some { j with done := some (Done.reset cause) })
    | none => d) d
  d.settleRings

/-- Time-span jobs end with cause STEP when device time is stepped inside their span (R82). [DEDUCED, log 44] -/
def Dev.abortStep (d : Dev) : Dev :=
  d.abortWhere 8 fun j => j.done.isNone && j.start.isSome &&
    (match j.kind with | .interval | .freq | .period => true | _ => false)

/-- A measurement job: kinds 0 to 3 (R82). -/
def Job.measures (j : Job) : Bool := match j.kind with | .marker | .flush => false | _ => true

/-- Jobs of kinds 0 to 3 end with cause TIME_BASE (R82). -/
def Dev.abortTimeBase (d : Dev) : Dev := d.abortWhere 4 Job.measures

/-- An interval job's window has passed (R60, R61): the nearest stop in it is matched, or the job times out. -/
def Dev.intervalTimeout (k : Nat) (d : Dev) : Dev :=
  let d := d.readBody k
  match d.job k with
  | some j =>
    match j.kind, j.start, j.done with
    | .interval, some t, none =>
      let dn := match j.cand with
        | some c => Done.interval ((c : Int) - t)
        | none => Done.timeout
      (d.setJob k (some { j with done := some dn })).settleRing j.ring
    | _, _, _ => d
  | none => d

/-- The stop before the start is matched, no nearer later stop having been formed (R60, R61). -/
def Dev.intervalEarlyMatch (k : Nat) (d : Dev) : Dev :=
  let d := d.readBody k
  match d.job k with
  | some j =>
    match j.kind, j.start, j.cand, j.done with
    | .interval, some t, some c, none =>
      (d.setJob k (some { j with done := some (Done.interval ((c : Int) - t)) })).settleRing j.ring
    | _, _, _, _ => d
  | none => d

/-- A frequency gate times out (R78). -/
def Dev.freqTimeout (k : Nat) (d : Dev) : Dev :=
  let d := d.readBody k
  match d.job k with
  | some j =>
    match j.kind, j.done with
    | .freq, none => (d.setJob k (some { j with done := some Done.timeout })).settleRing j.ring
    | _, _ => d
  | none => d

/-! ### Ring registers (R91, R93, R96) -/

/-- A write of TQ_n_TAIL (R93). [DEDUCED, log 45] -/
def Dev.tailWrite (r t : Nat) (d : Dev) : Dev :=
  let tail := d.rd (TQ_TAIL_TAIL r)
  if d.flag (TQ_CFG_MODE r) then d.evt (TQ_STAT_TAIL_ERR r)
  else if (t % 65536 + 65536 - tail) % 65536 ≤ d.ringCount r then d.wr (TQ_TAIL_TAIL r) t
  else d.evt (TQ_STAT_TAIL_ERR r)

/-- Two rings overlap in the TALLY region (R91). -/
def Dev.overlaps (d : Dev) (r base code : Nat) : Bool :=
  (List.range 16).any fun q => decide (q ≠ r) && d.flag (TQ_CFG_ENABLE q) &&
    decide (base < d.rd (TQ_CFG_BASE q) + 2 ^ d.rd (TQ_CFG_SIZE_CODE q)) &&
    decide (d.rd (TQ_CFG_BASE q) < base + 2 ^ code)

/-- The fields of TQ_n_CFG that an update does not apply and discards: the shadow takes their applied values (R91, R96). -/
def Dev.ringDiscard (r en : Nat) (d : Dev) : Dev :=
  d.setShWord (rTQ_CFG r) (Word.of (setBits (d.word (rTQ_CFG r)).toNat 31 31 en))

/-- An update applies the shadow `w` of TQ_n_CFG (R91, R96), rings in ascending order, each judged against the ENABLE bits that
then stand. [DEDUCED, log 39; DESIGN CHOICE, log 168] -/
def Dev.ringApply (r : Nat) (w : Nat) (d : Dev) : Dev :=
  let en := bitsOf w 31 31
  let mode := bitsOf w 30 30
  let ep := bitsOf w 29 29
  let code := bitsOf w 26 24
  let base := bitsOf w 21 16
  let differs := decide (mode ≠ d.rd (TQ_CFG_MODE r)) || decide (ep ≠ d.rd (TQ_CFG_EPOCH_EN r)) ||
    decide (code ≠ d.rd (TQ_CFG_SIZE_CODE r)) || decide (base ≠ d.rd (TQ_CFG_BASE r))
  if d.flag (TQ_CFG_ENABLE r) then
    let d := (d.evtIf differs (TQ_STAT_CFG_ERR r)).ringDiscard r en
    if en = 1 then d
    else
      let d := (d.wr (TQ_CFG_ENABLE r) 0).wr (TQ_STAT_DISABLING r) 1
      d.abortWhere 7 fun j => decide (j.ring = r)
  else if d.flag (TQ_STAT_DISABLING r) then (d.evtIf (differs || decide (en = 1)) (TQ_STAT_CFG_ERR r)).ringDiscard r 0
  else
    let d := (d.wr (TQ_CFG_MODE r) mode).wr (TQ_CFG_EPOCH_EN r) ep
    if code = 7 then d.evt (TQ_STAT_CFG_ERR r)
    else if en = 1 then
      if base % 2 ^ code ≠ 0 ∨ d.overlaps r base code then d.evt (TQ_STAT_CFG_ERR r)
      else
        let d := (d.wr (TQ_CFG_SIZE_CODE r) code).wr (TQ_CFG_BASE r) base
        let d := ((d.wr (TQ_CFG_ENABLE r) 1).wr (TQ_HEAD_HEAD r) 0).wr (TQ_TAIL_TAIL r) 0
        let d := d.setTp fun t => { t with closed := t.closed.filter fun f => decide (f.ring ≠ r) }
        (d.setRing r fun _ => Ring.fresh).addEpoch 2 r
    else (d.wr (TQ_CFG_SIZE_CODE r) code).wr (TQ_CFG_BASE r) base

/-! ### The Tally port (R98 to R103) -/

/-- The use of the transmit lanes: enabled, and not found faulty (R98, R103). [DEDUCED, log 42] -/
def Dev.tpLanes (d : Dev) : Dev :=
  let up := fun (k : Nat) => d.flag TP_CTL_ENABLE && bitAt (d.rd TP_CTL_LANES) k && !(d.jobs.tp.laneBad.getD k false)
  let d := (d.wr TP_STAT_TX0_UP (b2n (up 0))).wr TP_STAT_TX1_UP (b2n (up 1))
  d.level 23 0 0 (d.flag TP_CTL_ENABLE && !up 0 && !up 1)

/-- An update applies the shadow of TP_CTL (R98). [DEDUCED, log 41] -/
def Dev.tpApply (w : Nat) (d : Dev) : Dev :=
  let was := d.flag TP_CTL_ENABLE
  let en := bitsOf w 31 31
  let d := d.when (!was && decide (en = 0)) fun d => d.wr TP_CTL_RATE (bitsOf w 17 16)
  let d := (d.wr TP_CTL_LANES (bitsOf w 1 0)).wr TP_CTL_ENABLE en
  let d := d.when (!was && decide (en = 1)) fun d =>
    let d := d.setTp fun t => { t with laneBad := [false, false], closed := [] }
    forN 16 (fun r d => (d.setRing r fun g => { g with sent := 0, top := 0, replayFrom := none }).closeSpan r) d
  let d := d.when (was && decide (en = 0)) fun d => d.setTp fun t => { t with closed := [] }
  d.tpLanes

/-- FRAME_TMO closes a frame (R99). -/
def Dev.tpFrameTimeout (r : Nat) (d : Dev) : Dev :=
  d.when (d.flag TP_CTL_ENABLE && d.flag (TQ_CFG_MODE r)) (Dev.closeFrame r)

/-- The next ring of the round-robin with a closed frame (R99). -/
def Dev.tpNextFrame (d : Dev) : Option TpFrame :=
  (List.range 16).foldl (fun b i =>
    match b with
    | some f => some f
    | none => d.jobs.tp.closed.find? fun f => decide (f.ring = (d.jobs.tp.lastRing + 1 + i) % 16)) none

/-! The 64b/66b blocks (R98, R99).  A block is its sync header (1 for data, 2 for control) and 64 bits of payload, octet 0 (the
block type of a control block) in bits 7 to 0. -/

/-- The start block of octets 1 to 7. [PRESUMED, log 169] -/
def tpStart (octets : List Nat) : Nat × Nat := (2, 0x78 + 256 * leNat ((octets.take 7).map fun o => BitVec.ofNat 8 o))

/-- The idle block that fills a lane between frames. [PRESUMED, log 169] -/
def tpIdle : Nat × Nat := (2, 0x1E)

/-- The terminate block of four data octets. [PRESUMED, log 169] -/
def tpTerminate (crc : Nat) : Nat × Nat := (2, 0xCC + 256 * (crc % 2 ^ 32))

/-- Octets 1 to 7 of a frame's start block (R99). -/
def frameOctets (r : Nat) (damaged : Bool) (seq count number : Nat) : List Nat :=
  [r % 16 + 128 * b2n damaged] ++ bytesN 2 seq ++ bytesN 2 count ++ bytesN 2 number

/-- The records of a frame as their 64-bit halves, in record order: bytes 0 to 7, then 8 to 15 (R99). -/
def Dev.frameHalves (d : Dev) (f : TpFrame) : List Nat :=
  (List.range f.count).flatMap fun i =>
    let a := d.recAddr f.ring (f.first + i)
    [leNat (ByteMem.bytes d.sram 0 a 8), leNat (ByteMem.bytes d.sram 0 (a + 8) 8)]

/-- The blocks of a frame (R99): the CRC-32C covers the start block's octets and every record byte. -/
def Dev.frameBlocks (d : Dev) (f : TpFrame) (number : Nat) (damaged : Bool) : List (Nat × Nat) :=
  let octets := frameOctets f.ring damaged f.first f.count number
  let halves := d.frameHalves f
  [tpStart octets] ++ halves.map (fun h => (1, h)) ++ [tpTerminate (crc32c (octets ++ halves.flatMap (bytesN 8)))]

/-- One bit of the self-synchronising scrambler 1 + x^39 + x^58 over its last 58 output bits. [PRESUMED, log 169] -/
def scrambleBit (s : Nat) (b : Bool) : Nat × Bool :=
  let o := xor b (xor (s.testBit 38) (s.testBit 57))
  ((2 * s + b2n o) % 2 ^ 58, o)

/-- The payload of a block through the scrambler, bit 0 first; the sync header goes by it. -/
def scrambleWord (s w : Nat) : Nat × Nat :=
  (List.range 64).foldl (fun p k =>
    let q := scrambleBit p.1 (w.testBit k)
    (q.1, p.2 + b2n q.2 * 2 ^ k)) (s, 0)

/-- Blocks through the scrambler. -/
def scramble : Nat → List (Nat × Nat) → List (Nat × Nat)
  | _, [] => []
  | s, b :: t => let q := scrambleWord s b.2; (b.1, q.2) :: scramble q.1 t

/-- A closed frame is sent on a lane (R97 to R99); none leaves the device in RESET or before the image applies (13 R351).
`damagedAt`: a record word read with a double-bit error. The scrambler's state at its start rests on the idle blocks before it.
[DEDUCED, log 46; DESIGN CHOICE, log 170] -/
def Dev.tpFrameSend (lane : Nat) (damagedAt : Option Nat) (d : Dev) : Dev :=
  let up := if lane = 0 then d.flag TP_STAT_TX0_UP else lane = 1 && d.flag TP_STAT_TX1_UP
  if ¬ up ∨ ¬ d.applied then d
  else
    match d.tpNextFrame with
    | none => d
    | some f =>
      let d := match damagedAt with
        | some a => (d.evt (TQ_STAT_REC_ECC f.ring)).fireAcc 22 f.ring a none accInternal
        | none => d
      let no := d.jobs.tp.frameNo.getD lane 0
      let bs := d.frameBlocks f no damagedAt.isSome
      let sentF : TpSent := { lane := lane, frame := f, number := no, damaged := damagedAt.isSome, blocks := bs
                              wire := scramble (Config.scramblerState lane d.clk.tclk).toNat bs }
      let d := d.setTp fun t => { t with
        closed := t.closed.erase f
        frameNo := updAt t.frameNo lane fun n => (n + 1) % 65536
        lastRing := f.ring
        lastSent := some sentF }
      let d := d.setRing f.ring fun g => { g with
        sent := g.sent + f.count
        top := max g.top (g.sent + f.count)
        replayFrom := match g.replayFrom with | some t => some t | none => some d.clk.tclk }
      d.bump TP_FRAMES_COUNT

/-- A discarded acknowledgement (R100). -/
def Dev.tpAckErr (d : Dev) : Dev := (d.bump TP_ACK_ERR_COUNT).evt TP_EVT_ACK_ERR

/-- The port resends a ring from `skip` records after TAIL (R101); full frames close anew (R99). [DEDUCED, log 41] -/
def Dev.tpResend (r skip : Nat) (d : Dev) : Dev :=
  let d := d.setRing r fun g => { g with sent := skip }
  let d := d.setTp fun t => { t with closed := t.closed.filter fun f => decide (f.ring ≠ r) }
  ((d.closeSpan r).bump TP_REPLAYS_COUNT).evt TP_EVT_REPLAY

/-- Octets 1 to 7 of an acknowledgement block: its kind (1 ACK, 2 NAK), the ring octet, SEQ (R100). -/
def ackOctets (kind r seq : Nat) : List Nat := [kind, r % 256] ++ bytesN 2 seq ++ [0, 0, 0]

/-- The CRC-32C that the terminate block of an acknowledgement holds (R100). -/
def ackCrc (kind r seq : Nat) : Nat := crc32c (ackOctets kind r seq)

/-- The first `w` records of ring `r` leave the closed frames that still hold them, `tail` being the TAIL they counted from. -/
def trimFrames (r tail w : Nat) (fs : List TpFrame) : List TpFrame :=
  fs.filterMap fun f =>
    let o := (f.first + 65536 - tail) % 65536
    if f.ring ≠ r ∨ w ≤ o then some f
    else if o + f.count ≤ w then none
    else some { f with first := (tail + w) % 65536, count := o + f.count - w }

/-- An ACK block (R100, R101): TAIL moves past the records it names, and the replay timer restarts. -/
def Dev.tpAck (r seq crc : Nat) (d : Dev) : Dev :=
  if ¬ d.flag TP_CTL_ENABLE then d
  else
    let tail := d.rd (TQ_TAIL_TAIL r)
    let w := (seq % 65536 + 65537 - tail) % 65536
    if crc ≠ ackCrc 1 r seq ∨ 16 ≤ r ∨ ¬ d.flag (TQ_CFG_MODE r) ∨ w = 0 ∨ (d.ring r).top < w then d.tpAckErr
    else
      let d := d.wr (TQ_TAIL_TAIL r) (seq + 1)
      let d := d.setTp fun t => { t with closed := trimFrames r tail w t.closed }
      d.setRing r fun g => { g with
        sent := g.sent - w
        top := g.top - w
        replayFrom := if g.top = w then none else some d.clk.tclk }

/-- A NAK block (R100, R101). -/
def Dev.tpNak (r seq crc : Nat) (d : Dev) : Dev :=
  if ¬ d.flag TP_CTL_ENABLE then d
  else
    let w := (seq % 65536 + 65536 - d.rd (TQ_TAIL_TAIL r)) % 65536
    if crc ≠ ackCrc 2 r seq ∨ 16 ≤ r ∨ ¬ d.flag (TQ_CFG_MODE r) ∨ (d.ring r).top < w then d.tpAckErr
    else (d.evt TP_EVT_NAK_RX).tpResend r w

/-- REPLAY_TMO expires with records outstanding (R101), and the timer runs anew; not on the edge on which an ACK has restarted
it, and an ACK that follows it is of a later edge.  A NAK leaves the timer as it runs. -/
def Dev.tpReplayTimeout (r : Nat) (d : Dev) : Dev :=
  d.when (d.flag TP_CTL_ENABLE && decide (0 < (d.ring r).top) &&
    (d.ring r).replayFrom.all fun t => decide (t / 4 ≠ d.clk.tclk / 4)) fun d =>
      ((d.setRing r fun g => { g with replayFrom := some d.clk.tclk }).tpResend r 0).closeEdge

/-- The port finds a transmit lane faulty (R103). [DEDUCED, log 42] -/
def Dev.tpLaneFault (lane : Nat) (d : Dev) : Dev :=
  let up := if lane = 0 then d.flag TP_STAT_TX0_UP else lane = 1 && d.flag TP_STAT_TX1_UP
  if ¬ up then d
  else
    let d := d.setTp fun t => { t with laneBad := updAt t.laneBad lane fun _ => true }
    (d.evt TP_EVT_LANE_DOWN).tpLanes

/-- TP_RX loses block lock (R103). -/
def Dev.tpRxLoss (d : Dev) : Dev :=
  let was := d.flag TP_STAT_RX_UP
  let d := d.wr TP_STAT_RX_UP 0
  (d.setTp fun t => { t with rxLostAt := some d.clk.tclk }).evtIf was TP_EVT_RX_DOWN

/-- TP_RX gains block lock (R103). -/
def Dev.tpRxGain (d : Dev) : Dev :=
  let d := d.wr TP_STAT_RX_UP 1
  (d.setTp fun t => { t with rxLostAt := none }).lower 23 1

/-- TP_RX has had no block lock for 1 ms (R103): judged while the port is enabled, and left live when the port is then
disabled, until lock returns. [DESIGN CHOICE, log 172] -/
def Dev.tpRxTimeout (d : Dev) : Dev :=
  d.when (d.flag TP_CTL_ENABLE && !d.flag TP_STAT_RX_UP) (Dev.raise 23 1 1)

end Sys2Proof.Machine
end

