-- ==== Sys2Proof/Machine/PortOps.lean ====
section
/-!
DEFINITION. The steering ports (chapter 07): the accumulator, the word, frames, faults, RESUME.
-/

namespace Sys2Proof.Machine

/-- Word length N of a steering port (07 R202; STEER_k_CFG.WLEN). -/
def Dev.portBits (d : Dev) (k : Nat) : Nat :=
  match d.rd (STEER_CFG_WLEN k) with | 0 => 16 | 1 => 20 | _ => 24

/-- A word value limited to the N-bit range (R202). -/
def Dev.portFit (d : Dev) (k : Nat) (v : Int) : Int := satI (d.portBits k) v

/-- CENTER, CLAMP_LO, CLAMP_HI and PARK as applied (R202). -/
def Dev.portCenter (d : Dev) (k : Nat) : Int := d.portFit k (d.rdS (STEER_CENTER_VALUE k))
def Dev.portLo (d : Dev) (k : Nat) : Int := d.portFit k (d.rdS (STEER_CLAMP_LO_VALUE k))
def Dev.portHi (d : Dev) (k : Nat) : Int := d.portFit k (d.rdS (STEER_CLAMP_HI_VALUE k))
def Dev.portPark (d : Dev) (k : Nat) : Int := d.portFit k (d.rdS (STEER_PARK_VALUE k))
def Dev.portGain (d : Dev) (k : Nat) : Int := d.rdS (STEER_GAIN_VALUE k)
def Dev.portSlew (d : Dev) (k : Nat) : Int := (max 1 (d.rd (STEER_SLEW_VALUE k)) : Nat)

/-- The coded word V on the wire (R202): offset-binary or two's complement. -/
def Dev.portCode (d : Dev) (k : Nat) (s : Int) : Nat :=
  let n := d.portBits k
  if d.flag (STEER_CFG_CODE k) then twos n s else twos n (s + 2 ^ (n - 1))

/-- Frame length LEN in bits (R204). -/
def Dev.portLen (d : Dev) (k : Nat) : Nat :=
  min 8 (d.rd (STEER_CFG_PRE_LEN k)) + d.portBits k + min 8 (d.rd (STEER_CFG_POST_LEN k))

/-- The bits of a frame that carries S, as a number of LEN bits, MSB first (R204). -/
def Dev.portFrame (d : Dev) (k : Nat) (s : Int) : Nat :=
  let pre := d.rd (STEER_CFG_PREFIX k) % 2 ^ min 8 (d.rd (STEER_CFG_PRE_LEN k))
  (pre * 2 ^ d.portBits k + d.portCode k s) * 2 ^ min 8 (d.rd (STEER_CFG_POST_LEN k))

/-- The accumulator written, with its readable value in 2^-8 Hz (R201). [DEDUCED, log 87] -/
def Dev.setAcc (k : Nat) (a : Int) (d : Dev) : Dev :=
  (d.setPort k fun p => { p with acc := a }).wr48 (STEER_ACC_LO_VALUE k) (STEER_ACC_HI_VALUE k) (divRound a (2 ^ 32))

/-- S_tgt before the clamp, from an accumulator (R201). -/
def Dev.portRaw (d : Dev) (k : Nat) (a : Int) : Int := d.portCenter k + divRound a (d.portGain k * 2 ^ 32)

/-- The last word sent (STEER_k_WORD). -/
def Dev.portLast (d : Dev) (k : Nat) : Int := d.rdS (STEER_WORD_S k)

/-- The word the next frame would carry in RUN (R203). -/
def Dev.portNext (d : Dev) (k : Nat) : Int :=
  let p := d.port k
  if p.first then d.portCenter k
  else if p.resend then d.portLast k
  else d.portLast k + clampI (-(d.portSlew k)) (d.portSlew k) (p.sTgt - d.portLast k)

/-- A frame reason holds (R205), or in FAULTED PARK has still to be sent (R206) or the last word is to be sent again after a
WARM or WDOG reset (R208). -/
def Dev.portReason (d : Dev) (k : Nat) : Bool :=
  let p := d.port k
  if d.mode = .sleep ∨ ¬ d.measuring then false
  else
    match d.rd (STEER_STAT_STATE k) with
    | 1 => p.first || p.resend || p.refresh || p.send ||
        decide (d.portCode k (d.portNext k) ≠ d.portCode k (d.portLast k))
    | 2 => p.park || p.resend
    | _ => false

/-- STAT.PENDING follows the reasons (STEER_k_STAT). -/
def Dev.portPend (k : Nat) (d : Dev) : Dev :=
  d.wr (STEER_STAT_PENDING k) (b2n (d.portReason k && !d.flag (STEER_STAT_BUSY k)))

/-- A new S_tgt replaces the older one (R205 OVERWRITE); one that is the word last sent is not limited (R203).
[DEDUCED, log 85; DESIGN CHOICE, log 181] -/
def Dev.portTarget (k : Nat) (s : Int) (d : Dev) : Dev :=
  let p := d.port k
  let waiting := d.flag (STEER_STAT_PENDING k) || d.flag (STEER_STAT_BUSY k)
  let changed := !p.first && decide (d.portCode k (d.portNext k) ≠ d.portCode k (d.portLast k))
  let d := d.evtIf (waiting && changed && decide (s ≠ p.sTgt)) (STEER_EVT_OVERWRITE k)
  let d := d.when (decide (s = d.portLast k)) fun d => d.wr (STEER_STAT_SLEW_LIM k) 0
  (d.setPort k fun p => { p with sTgt := s }).portPend k

/-- The clamp of R201, as its formula has it for limits in either order. -/
def Dev.portClamp (d : Dev) (k : Nat) (s : Int) : Int := min (max s (d.portLo k)) (d.portHi k)

/-- S_tgt before the clamp lies outside the clamp (R201). -/
def Dev.portOutside (d : Dev) (k : Nat) (s : Int) : Bool := decide (s < d.portLo k) || decide (d.portHi k < s)

/-- The port advances A by one update of word `y` over `num / den` seconds (R201); answers whether the clamp applied.  In
FAULTED A is frozen (R206) and CLAMP_LIM, which is live, says whether the frozen A lies outside the clamp.
[DEDUCED, log 83, 87] -/
def Dev.portAdvance (k : Nat) (y : Int) (num den : Nat) (d : Dev) : Dev × Bool :=
  if d.rd (STEER_STAT_STATE k) = 2 ∧ d.mode ≠ .sleep then
    (d.wr (STEER_STAT_CLAMP_LIM k) (b2n (d.portOutside k (d.portRaw k (d.port k).acc))), false)
  else if d.rd (STEER_STAT_STATE k) ≠ 1 ∨ d.mode = .sleep then (d, false)
  else
    let a := (d.port k).acc - divRound (y * (num * 2 ^ 32 : Nat)) den
    let s := d.portRaw k a
    if d.portOutside k s then
      let lim := d.portClamp k s
      let d := d.setAcc k ((lim - d.portCenter k) * d.portGain k * 2 ^ 32)
      let d := (d.wr (STEER_STAT_CLAMP_LIM k) 1).evt (STEER_EVT_CLAMP k)
      (d.portTarget k lim, true)
    else (((d.setAcc k a).wr (STEER_STAT_CLAMP_LIM k) 0).portTarget k s, false)

/-- The place of a trigger in the order of R206's table. -/
def causeRank (c : Nat) : Nat := if c = 5 then 0 else c

/-- A trigger of a port holds (R206): in RUN it enters FAULTED; in FAULTED a trigger of the entry's own edge that stands earlier
in the table becomes the cause. [DESIGN CHOICE, log 181] -/
def Dev.portFault (k cause : Nat) (d : Dev) : Dev :=
  let e := d.clk.edge
  match d.rd (STEER_STAT_STATE k) with
  | 1 =>
    let park := d.flag (STEER_CTL_ACT k)
    let d := (d.wr (STEER_STAT_STATE k) 2).wr (STEER_STAT_CAUSE k) cause
    let d := d.wr (STEER_STAT_PARKED k) (b2n park)
    let d := d.when (!d.flag (STEER_STAT_BUSY k)) fun d => d.wr (STEER_STAT_SLEW_LIM k) 0
    let d := d.setPort k fun p => { p with park := park && decide (cause ≠ 5), resend := false, refresh := false,
                                            send := false, faultAt := some e, trigAt := some e }
    ((d.evt (STEER_EVT_FAULT k)).fire 33 k).portPend k
  | 2 =>
    let d := d.setPort k fun p => { p with trigAt := some e }
    if (d.port k).faultAt = some e ∧ causeRank cause < causeRank (d.rd (STEER_STAT_CAUSE k)) then
      ((d.wr (STEER_STAT_CAUSE k) cause).setPort k fun p => { p with park := p.park && decide (cause ≠ 5) }).portPend k
    else d
  | _ => d

/-- The ports of which a paddock is the driver. -/
def Dev.portsOf (d : Dev) (pad : Nat) : List Nat :=
  (List.range 8).filter fun k => d.flag (STEER_CFG_USED k) && decide (d.rd (STEER_CFG_PAD k) = pad)

/-- The ports of a STEER paddock fault with a cause. -/
def Dev.faultPorts (pad cause : Nat) (d : Dev) : Dev :=
  if d.rd (PAD_CFG_KIND pad) = 1 then (d.portsOf pad).foldl (fun d k => d.portFault k cause) d else d

/-- The paddock entered FREERUN from another state (R206 cause 2). -/
def Dev.portsFreerun (pad : Nat) (d : Dev) : Dev :=
  if d.rd (PAD_CFG_KIND pad) = 1 then
    (d.portsOf pad).foldl (fun d k => if d.flag (STEER_CTL_FT_FREERUN k) then d.portFault k 2 else d) d
  else d

/-- The device enters FOLD (R206 cause 1). -/
def Dev.portsFold (d : Dev) : Dev :=
  forN 8 (fun k d => if d.flag (STEER_CTL_FT_FOLD k) then d.portFault k 1 else d) d

/-- STEER_HOLD_TIMEOUT: cause 3 (R206). -/
def Dev.portHoldTimeout (k : Nat) (d : Dev) : Dev :=
  d.when (d.flag (STEER_CTL_FT_HOLDTMO k) && decide (d.rd (PAD_STATE_STATE (d.rd (STEER_CFG_PAD k))) = 3))
    (Dev.portFault k 3)

/-- STEER_CLAMP_TIMEOUT: cause 4 (R206). -/
def Dev.portClampTimeout (k : Nat) (d : Dev) : Dev :=
  d.when (d.flag (STEER_CTL_FT_CLAMP k) && d.flag (STEER_STAT_CLAMP_LIM k)) (Dev.portFault k 4)

/-- Half a period of SCK in TCLK periods (R204). -/
def Dev.portHalf (d : Dev) (k : Nat) : Nat := 16 * (d.rdIn (STEER_CTL_SCK_DIV k) 1 255 + 1)

/-- The least spacing of frame starts in TCLK periods: UPD_PER, and (LEN + 4) T of the frame last started (R204, R205). -/
def Dev.portSpacing (d : Dev) (k : Nat) : Nat :=
  let frame := match (d.port k).sent with
    | some f => (f.len + 4) * (2 * f.half)
    | none => (d.portLen k + 4) * (2 * d.portHalf k)
  max (d.rdIn (STEER_TIMING_UPD_PER k) 10 65535 * usTclk) frame

/-- A frame starts (R203, R205, R206). [DEDUCED, log 86] -/
def Dev.portFrameStart (k : Nat) (d : Dev) : Dev :=
  let p := d.port k
  let spaced : Bool := match p.frameAt with | some t => decide (t + d.portSpacing k ≤ d.clk.tclk) | none => true
  if ¬ d.portReason k ∨ d.flag (STEER_STAT_BUSY k) ∨ ¬ spaced then d
  else
    let faulted := decide (d.rd (STEER_STAT_STATE k) = 2)
    let last := d.portLast k
    let step := fun (t : Int) => last + clampI (-(d.portSlew k)) (d.portSlew k) (t - last)
    let s := if p.resend then last
      else if faulted then (if d.flag (STEER_CTL_PARK_SLEW k) then step (d.portPark k) else d.portPark k)
      else d.portNext k
    let lim := if faulted then !p.resend && decide (s ≠ d.portPark k)
      else !p.first && !p.resend && decide (s ≠ p.sTgt)
    let frame : SentFrame := { start := d.clk.tclk, bits := d.portFrame k s, len := d.portLen k, half := d.portHalf k,
                               mode3 := d.flag (STEER_CFG_SPIMODE k) }
    let d := (d.wr (STEER_WORD_S k) (twos 24 s)).wr (STEER_WORD_SENT_V k) 1
    let d := (d.wr (STEER_STAT_BUSY k) 1).wr (STEER_STAT_SLEW_LIM k) (b2n lim)
    let d := d.setPort k fun p => { p with frameAt := some d.clk.tclk, first := false, resend := false,
                                            refresh := false, send := false, park := p.park && (p.resend || lim),
                                            sent := some frame }
    d.portPend k

/-- A frame completes (R204). [DEDUCED, log 86] -/
def Dev.portFrameEnd (k : Nat) (d : Dev) : Dev :=
  if d.flag (STEER_STAT_BUSY k) then
    let d := (d.wr (STEER_STAT_BUSY k) 0).bump (STEER_FRAMES_FRAMES k)
    let rests := decide (d.rd (STEER_STAT_STATE k) ≠ 1) && !(d.port k).park
    (d.when rests fun d => d.wr (STEER_STAT_SLEW_LIM k) 0).portPend k
  else d

/-- REFRESH ms have passed since the last frame (R205). -/
def Dev.portRefresh (k : Nat) (d : Dev) : Dev :=
  if d.rd (STEER_TIMING_REFRESH k) ≠ 0 ∧ d.rd (STEER_STAT_STATE k) = 1 then
    (d.setPort k fun p => { p with refresh := true }).portPend k
  else d

/-- STEER_k_CMD.SEND (R205). -/
def Dev.portSend (k : Nat) (d : Dev) : Dev :=
  if d.rd (STEER_STAT_STATE k) = 1 then (d.setPort k fun p => { p with send := true }).portPend k else d

/-- STEER_k_CMD.RESUME (R207); on the edge of a trigger it is ignored.  With ENABLE 0 the port leaves FAULTED for OFF.
[DEDUCED, log 84; DESIGN CHOICE, log 181] -/
def Dev.portResume (k : Nat) (d : Dev) : Dev :=
  let st := d.rd (PAD_STATE_STATE (d.rd (STEER_CFG_PAD k)))
  if d.rd (STEER_STAT_STATE k) = 2 ∧ d.mode ≠ .fold ∧ (st = 1 ∨ st = 2) ∧ d.rd (STEER_STAT_CAUSE k) ≠ 5 ∧
      ¬ d.flag (STEER_STAT_CLAMP_LIM k) ∧ (d.port k).trigAt ≠ some d.clk.edge then
    let on := d.flag (STEER_CTL_ENABLE k)
    let d := d.setAcc k ((d.portLast k - d.portCenter k) * d.portGain k * 2 ^ 32)
    let d := ((d.wr (STEER_STAT_STATE k) (b2n on)).wr (STEER_STAT_CAUSE k) 0).wr (STEER_STAT_PARKED k) 0
    let d := d.setPort k fun p => { p with send := on, park := false, sTgt := d.portLast k }
    (d.evt (STEER_EVT_RESUMED k)).portPend k
  else d.evt (STEER_EVT_CMD_REJ k)

/-- The port as ENABLE is applied as 1 (R201, R203): A is 0 and the first frame sends CENTER.  A port in FAULTED stays there
(R207). [DESIGN CHOICE, log 181] -/
def Dev.portEnable (k : Nat) (d : Dev) : Dev :=
  let faulted := decide (d.rd (STEER_STAT_STATE k) = 2)
  let d := d.when (!faulted) fun d =>
    ((d.wr (STEER_STAT_STATE k) 1).wr (STEER_STAT_CAUSE k) 0).wr (STEER_STAT_PARKED k) 0
  let d := (d.wr (STEER_WORD_SENT_V k) 0).wr (STEER_STAT_CLAMP_LIM k) 0
  let d := d.setAcc k 0
  let d := d.setPort k fun p => { p with first := true, resend := false, refresh := false, send := false,
                                          park := faulted && p.park,
                                          sTgt := d.portClamp k (d.portCenter k) }
  d.portPend k

/-- A port enters OFF. -/
def Dev.portOff (k : Nat) (d : Dev) : Dev :=
  let d := ((d.wr (STEER_STAT_STATE k) 0).wr (STEER_STAT_CAUSE k) 0).wr (STEER_STAT_PARKED k) 0
  let d := (d.wr (STEER_STAT_CLAMP_LIM k) 0).wr (STEER_STAT_SLEW_LIM k) 0
  let d := d.setPort k fun p => { p with first := false, resend := false, refresh := false, send := false, park := false }
  d.portPend k

/-- The port as ENABLE is applied as 0: state OFF; a port in FAULTED stays there (R207). -/
def Dev.portDisable (k : Nat) (d : Dev) : Dev := if d.rd (STEER_STAT_STATE k) = 2 then d else d.portOff k

/-- The effective target TEFF before its limit (R199). -/
def Dev.teffRaw (d : Dev) (k : Nat) : Int :=
  let tgt : Int := (d.rd48 (STEER_TGT_LO_TGT k) (STEER_TGT_HI_TGT k) : Nat)
  if d.flag (STEER_LINK_LED k) then
    let g := d.rdS (STEER_GSHIFT_GSHIFT (d.rd (STEER_LINK_LEADER k)))
    tgt + 256 * (if d.flag (STEER_LINK_FSIGN k) then -g else g)
  else tgt + 256 * d.rdS (STEER_GSHIFT_GSHIFT k)

/-- TEFF limited to the beat window of input `b` (R199). -/
def Dev.teffIn (d : Dev) (k b : Nat) : Int :=
  clampI ((256000 * d.rdIn (BN_FMIN_F b) 10000 8000000 : Nat) : Int) ((256000 * d.rdIn (BN_FMAX_F b) 10000 8000000 : Nat) : Int)
    (d.teffRaw k)

/-- A frame in progress is cut short by a reset, and by SLEEP, whose pins are driven idle (R208; 13 R355). [DEDUCED, log 199] -/
def Dev.portsCut (d : Dev) : Dev :=
  forN 8 (fun k d => (d.wr (STEER_STAT_BUSY k) 0).setPort k fun p => { p with sent := none }) d

/-- PENDING of every port follows a change of mode (R205, R208). -/
def Dev.portsPend (d : Dev) : Dev := forN 8 Dev.portPend d

/-- Ports after a WARM or WDOG pulse (R208): one frame re-sends the last word, under the spacing of R205; a port whose cause was
CPL comes up disabled with A = 0. -/
def Dev.portsWarm (d : Dev) : Dev :=
  forN 8 (fun k d =>
    if d.rd (STEER_STAT_STATE k) = 2 ∧ d.rd (STEER_STAT_CAUSE k) = 5 then
      ((d.wrBoth (STEER_CTL_ENABLE k) 0).portOff k).setAcc k 0
    else if d.rd (STEER_STAT_STATE k) ≠ 0 ∧ d.flag (STEER_WORD_SENT_V k) then
      (d.setPort k fun p => { p with resend := true }).portPend k
    else d) d

end Sys2Proof.Machine
end

