-- ==== Sys2Proof/Machine/RefOps.lean ====
section
/-!
DEFINITION. The reference monitors (chapter 05): causes and states, frequency windows, hurdles and strays, phase jumps,
spacing, plugs, and the OCXOIN monitor.  Selection is evaluated by the commands that call these (05 R154).
-/

namespace Sys2Proof.Machine

/-- The causes of monitor `n`, bits [6:0] of REF_n_STAT (R144). -/
def Dev.refCauses (d : Dev) (n : Nat) : Nat := d.rd ⟨rREF_STAT n, 6, 0⟩

/-- The state of monitor `n`: 0 OFF, 1 DISQ, 2 WTR, 3 QUAL, 4 STRAY (REF_n_STAT). -/
def Dev.refState (d : Dev) (n : Nat) : Nat := d.rd (REF_STAT_STATE n)

/-- The monitor causes: ACTIVITY, HARD, PJUMP, SPACING, PLUG (R144). -/
def monCauses : Nat := 62

/-- Monitor `n` enters a state, with the events and faults of its leaving and entering (R144, R148, R162); selection sees it
(R154).  REF_n_WTR_LEFT keeps its last count where a cause, or SLEEP, ends the wait. [DESIGN CHOICE, log 195] -/
def Dev.refEnter (n st : Nat) (d : Dev) : Dev :=
  let d := d.askSelect none
  let old := d.refState n
  let d := d.evtIf (decide (old = 4)) (REF_EVT_STRAY_EXIT n)
  let d := d.evtIf (decide (old = 2) && decide (3 ≤ st)) (REF_EVT_WTR_END n)
  let d := d.when (decide (old = 4)) fun d => d.setRef n fun m => { m with clearCnt := 0 }
  let d := d.wr (REF_STAT_STATE n) st
  match st with
  | 1 => ((d.evt (REF_EVT_DISQ n)).bump (REF_DISQ_CNT_COUNT n)).fire 26 n
  | 3 => d.evt (REF_EVT_QUAL n)
  | 4 => ((d.setRef n fun m => { m with onset := d.clk.hsec }).evt (REF_EVT_STRAY_ENTRY n)).fire 27 n
  | _ => d

/-- The stray dwell is complete (R147). -/
def Dev.strayDone (d : Dev) (n : Nat) : Bool := decide (d.rdIn (REF_SOFT_DWELL n) 1 255 ≤ d.rd (REF_STAT_SOFT_CNT n))

/-- The monitor leaves DISQ or WTR for STRAY; that it has stands, with its event and its firing, once its edge is over (R146). -/
def Dev.refStray (n : Nat) (d : Dev) : Dev :=
  let d := (d.askSelect none).evtIf (decide (d.refState n = 2)) (REF_EVT_WTR_END n)
  (d.wr (REF_STAT_STATE n) 4).setRef n fun m => { m with strayDue := true }

/-- The monitor becomes QUAL, or STRAY where the stray dwell is complete (R144). -/
def Dev.refQualify (n : Nat) (d : Dev) : Dev := if d.strayDone n then d.refStray n else d.refEnter n 3

/-- The strays that the present edge has led to, now that it is over, have begun (R146, R148, R162). -/
def Dev.straysBegin (d : Dev) : Dev :=
  forN 12 (fun n d =>
    if (d.ref n).strayDue then
      let d := d.setRef n fun m => { m with strayDue := false, onset := if d.refState n = 4 then d.clk.hsec else m.onset }
      d.when (decide (d.refState n = 4)) fun d => (d.evt (REF_EVT_STRAY_ENTRY n)).fire 27 n
    else d) d

/-- Monitor `n` was in DISQ before the present edge. -/
def Dev.refWasDisq (d : Dev) (n : Nat) : Bool :=
  decide (d.oldRd (REF_STAT_STATE n) = 1)

/-- A monitor that has left DISQ on the present edge is back in it, a cause that sets going before one that clears (R146): it
has neither left nor entered DISQ. -/
def Dev.refBack (n : Nat) (d : Dev) : Dev :=
  (((d.wr (REF_STAT_STATE n) 1).unEvt (REF_EVT_QUAL n)).wr (REF_WTR_LEFT_LEFT n) (d.oldRd (REF_WTR_LEFT_LEFT n))).setRef n
    fun m => { m with strayDue := false }

/-- A monitor whose wait has ended on the present edge, by WTR_CLR or by its expiry, is in WTR for a cause that sets on the edge
(R146). -/
def Dev.refUnend (n : Nat) (d : Dev) : Dev :=
  (((((d.wr (REF_STAT_STATE n) 2).unEvt (REF_EVT_QUAL n)).unEvt (REF_EVT_WTR_END n)).wr (REF_WTR_LEFT_LEFT n)
    (d.oldRd (REF_WTR_LEFT_LEFT n))).setRef n fun m => { m with strayDue := false })

/-- Causes set on monitor `n` (R144, R146). -/
def Dev.refSet (n mask : Nat) (d : Dev) : Dev :=
  if d.refState n = 0 ∨ mask = 0 then d
  else
    let d := (d.wr ⟨rREF_STAT n, 6, 0⟩ (d.refCauses n ||| mask)).askSelect none
    let ended := decide (d.oldRd (REF_STAT_STATE n) = 2) && decide (3 ≤ d.refState n)
    d.when (decide (2 ≤ d.refState n)) fun d =>
      if d.refWasDisq n then d.refBack n else (d.when ended (Dev.refUnend n)).refEnter n 1

/-- Causes clear on monitor `n`; the last one arms WTR when a monitor cause is among those that clear on the edge, and a
qualifying result of the edge counts (R144). -/
def Dev.refClear (n mask : Nat) (d : Dev) : Dev :=
  let old := d.refCauses n
  let new := andNot old mask
  if old = new then d
  else
    let d := d.wr ⟨rREF_STAT n, 6, 0⟩ new
    if new ≠ 0 ∨ d.refState n ≠ 1 then d
    else
      let w := d.rd (REF_WTR_WTR n)
      let d := d.setRef n fun m => { m with wtrDone := false, fmOk := decide (m.okAt = some d.clk.edge) }
      let gone := old ||| d.oldRd ⟨rREF_STAT n, 6, 0⟩
      if gone &&& monCauses ≠ 0 ∧ w ≠ 0 then (d.wr (REF_WTR_LEFT_LEFT n) w).refEnter n 2
      else d.refQualify n

/-- A monitor in WTR leaves it once WTR has ended and a qualifying result exists (R144). -/
def Dev.refSettle (n : Nat) (d : Dev) : Dev :=
  let m := d.ref n
  d.when (decide (d.refState n = 2) && m.wtrDone && m.fmOk) (Dev.refQualify n)

/-- WTR expires, or a WTR_CLR is applied (R144): WTR_LEFT reads 0. -/
def Dev.refWtrEnd (n : Nat) (d : Dev) : Dev :=
  if d.refState n = 2 then
    ((d.wr (REF_WTR_LEFT_LEFT n) 0).setRef n fun m => { m with wtrDone := true }).refSettle n
  else d

/-- The input has plug detection, and PLUG_N_k is low, or high (R142). -/
def Dev.plugIs (d : Dev) (n : Nat) (low : Bool) : Bool :=
  decide (8 ≤ n) && decide (n < 12) && d.flag (REF_CFG_PLUG_EN n) && ((d.rd CRAFT_STAT_PLUG).testBit (n - 8) == low)

/-- A monitor starts in DISQ with cause INIT; its first window waits for a history second (R139, R145).  FORCED and PLUG hold
from the start where they hold then (R142, R143). -/
def Dev.refStart (n : Nat) (d : Dev) : Dev :=
  let d := d.setRef n fun _ => { RefMon.fresh with waitWin := true }
  if 12 ≤ n then d
  else
    let forced := d.flag (REF_CFG_FORCE_DISQ n)
    d.setWord (rREF_STAT n) (Word.of (2 ^ 29 + b2n forced * 64 + b2n (d.plugIs n false) * 32 + 1))

/-- A monitor whose channel is not claimed stays OFF (R136). -/
def Dev.refStop (n : Nat) (d : Dev) : Dev :=
  let d := d.setRef n fun _ => RefMon.fresh
  if 12 ≤ n then d else d.setWord (rREF_STAT n) 0

/-- Every claimed monitor starts, at the edge that applies an image and at SLEEP exit (R145, R150). -/
def Dev.refStartAll (d : Dev) : Dev :=
  let d := forN 12 (fun n d => if d.claimed n then d.refStart n else d.refStop n) d
  if d.flag REF_OCXO_CFG_DECL then d.refStart 12 else d.refStop 12

/-- In SLEEP the monitors stop and every reference reads DISQ with cause INIT (R145); PRESENT of OCXOIN and the base stay as they
are, no window judging them (R150). [DESIGN CHOICE, log 196] -/
def Dev.refSleepAll (d : Dev) : Dev :=
  let d := forN 12 (fun n d =>
    let d := d.refStop n
    if d.claimed n then d.setWord (rREF_STAT n) (Word.of (2 ^ 29 + 1)) else d) d
  d.refStop 12

/-! ### Frequency windows (R139, R147, R150) -/

/-- An edge added to a count, with the forwarded edges since the last one that gave no timestamp (R139). -/
def Edges.add (e : Edges) (ts arr : Nat) (lost : List Nat) : Edges :=
  if e.count = 0 then { count := 1, first := ts, last := ts, lastArr := arr }
  else
    let between := (lost.filter fun a => decide (e.lastArr < a) && decide (a < arr)).length
    { e with count := e.count + 1 + between, last := ts, lastArr := arr }

/-- A window length in 0.1 s, raised to the smallest not below 2 P_n (R139); 1023 is the most that FM_TAU can show.
[DEDUCED, log 67] -/
def Dev.fmAtLeast (d : Dev) (n tau : Nat) : Nat :=
  let p := d.spacing n
  let tenth := secUnits / 10
  if d.rd48 (REF_NOM_LO_NOM n) (REF_NOM_HI_NOM n) = 0 then tau else max tau (min 1023 ((2 * p.1 + p.2 * tenth - 1) / (p.2 * tenth)))

/-- The length of a window of monitor `n` in 0.1 s (R139). -/
def Dev.fmTau (d : Dev) (n : Nat) : Nat :=
  if 12 ≤ n then 10 else d.fmAtLeast n (max 1 (d.rd (REF_FM_FM_TAU n)))

/-- A window that starts at a device time. -/
def Dev.fmWin (d : Dev) (n start : Nat) (ref base : Edges) (refLost baseLost : List Nat) : FmWin :=
  { start := start, tau := d.fmTau n, discarded := false, ref := ref, base := base, refNext := Edges.fresh,
    baseNext := Edges.fresh, refLost := refLost, baseLost := baseLost }

/-- The end of a window in device time. -/
def FmWin.stop (w : FmWin) : Nat := w.start + w.tau * (secUnits / 10)

/-- A window counts an edge of the reference or of the base (R139). [DEDUCED, log 67] -/
def FmWin.take (isRef : Bool) (ts arr : Nat) (w : FmWin) : FmWin :=
  let later := fun (l : List Nat) => l.filter fun a => decide (arr < a)
  if ts < w.start then w
  else if isRef then
    let w' := { w with refLost := later w.refLost }
    if ts < w.stop then { w' with ref := w.ref.add ts arr w.refLost } else { w' with refNext := w.refNext.add ts arr w.refLost }
  else
    let w' := { w with baseLost := later w.baseLost }
    if ts < w.stop then { w' with base := w.base.add ts arr w.baseLost }
    else { w' with baseNext := w.baseNext.add ts arr w.baseLost }

/-- A window notes a forwarded edge that gives no timestamp, by its arrival (R139). -/
def FmWin.miss (isRef : Bool) (arr : Nat) (w : FmWin) : FmWin :=
  if isRef then { w with refLost := w.refLost ++ [arr] } else { w with baseLost := w.baseLost ++ [arr] }

/-- What an edge of a channel does to the windows that count it: a reference, OCXOIN (51) or XOIN (50) (R139, R150); `f` is
told whether the edge is the window's reference. -/
def Dev.fmEach (ch : Nat) (f : Bool → FmWin → FmWin) (d : Dev) : Dev :=
  let on := fun (n : Nat) (isRef : Bool) (d : Dev) => d.setRef n fun m => { m with win := m.win.map (f isRef) }
  if ch < 12 then on ch true d
  else if ch = 51 then
    let d := on 12 true d
    if d.flag REF_OCXO_STAT_BASE then d else forN 12 (fun n d => on n false d) d
  else if ch = 50 then
    let d := on 12 false d
    if d.flag REF_OCXO_STAT_BASE then forN 12 (fun n d => on n false d) d else d
  else d

/-- The windows count a delivered timestamp of a channel (R139, R150). -/
def Dev.fmStamp (ch ts arr : Nat) (d : Dev) : Dev := d.fmEach ch fun isRef => FmWin.take isRef ts arr

/-- The windows learn of a forwarded edge that gives no timestamp (R139). -/
def Dev.fmLost (ch arr : Nat) (d : Dev) : Dev := d.fmEach ch fun isRef => FmWin.miss isRef arr

/-- The nominal frequency of channel `ch` in 2^-16 Hz: a REFIN, OCXOIN or XOIN (R139, R150). -/
def Dev.nomFreq (d : Dev) (ch : Nat) : Nat :=
  if ch = 50 then d.clk.xoin * 10000 * 65536
  else if ch = 51 then d.rd48 REF_OCXO_NOM_LO_NOM REF_OCXO_NOM_HI_NOM
  else d.rd48 (REF_NOM_LO_NOM ch) (REF_NOM_HI_NOM ch)

/-- FOFF of a window, in 10^-12, half away from zero, saturating; none where a stream has fewer than two edges (R139). -/
def Dev.fmResult (d : Dev) (w : FmWin) (chR chB : Nat) : Option Int :=
  if w.discarded ∨ w.ref.count < 2 ∨ w.base.count < 2 then none
  else
    let sr := w.ref.last - w.ref.first
    let sb := w.base.last - w.base.first
    let a : Nat := (w.ref.count - 1) * d.rd (MCH_DEC_DEC chR) * sb * d.nomFreq chB
    let b : Nat := (w.base.count - 1) * d.rd (MCH_DEC_DEC chB) * sr * d.nomFreq chR
    if b = 0 then none
    else some (satI 32 (divRound (((a : Int) - b) * 10 ^ 12) b))

/-- The next window of monitor `n` runs from the end of the last. [DEDUCED, log 67] -/
def Dev.fmNext (n : Nat) (w : FmWin) (d : Dev) : Dev :=
  let w' := d.fmWin n w.stop w.refNext w.baseNext w.refLost w.baseLost
  d.setRef n fun m => { m with win := some w', jumped := false }

/-- A result of monitor `n` against its hurdles (R144, R145, R147). `pj`: cause PJUMP clears with this window. -/
def Dev.fmJudge (n : Nat) (foff : Int) (pj : Bool) (d : Dev) : Dev :=
  let a := foff.natAbs
  let hard := d.rdIn (REF_HARD_HURDLE n) 1 1048575 * 100
  let soft := d.rd (REF_SOFT_HURDLE n) * 100
  let ok := decide (8 * a < 7 * hard)
  let d := (d.wr (REF_FOFF_FOFF n) (twos 32 foff)).wr (REF_STAT_FM_VALID n) 1
  let d := d.setRef n fun m => { m with hardCnt := if hard ≤ a then m.hardCnt + 1 else 0 }
  let setHard := decide (hard ≤ a) && decide (d.rdIn (REF_HARD_DWELL n) 1 255 ≤ (d.ref n).hardCnt)
  let d := if soft ≤ a then d.bumpSat (REF_STAT_SOFT_CNT n) else d.wr (REF_STAT_SOFT_CNT n) 0
  let d := d.when (decide (d.refState n = 4)) fun d =>
    d.setRef n fun m => { m with clearCnt := if 8 * a < 7 * soft then m.clearCnt + 1 else 0 }
  let d := d.refSet n (if setHard then 4 else 0)
  let clr := (if pj then 8 else 0) + (if ok then (if d.flag (REF_STAT_ACTIVITY n) then 4 else 5) else 0)
  let d := d.refClear n clr
  let d := d.when ok fun d => d.setRef n fun m => { m with fmOk := true, okAt := some d.clk.edge }
  let d := d.refSettle n
  let dw := d.rdIn (REF_SOFT_DWELL n) 1 255
  match d.refState n with
  | 3 => d.when (d.strayDone n) (Dev.refEnter n 4)
  | 4 => d.when (decide (dw ≤ (d.ref n).clearCnt)) fun d => (d.wr (REF_STAT_SOFT_CNT n) 0).refEnter n 3
  | _ => d

/-- OCXOIN becomes PRESENT or absent: the base changes and the windows in progress are discarded, with the edges of the old base
that the ones after them have seen (R139, R150). -/
def Dev.setPresent (on : Bool) (d : Dev) : Dev :=
  let d := (d.wr REF_OCXO_STAT_PRESENT (b2n on)).wr REF_OCXO_STAT_BASE (b2n (!on))
  let d := (d.evt REF_OCXO_EVT_BASE_CHG).evt (if on then REF_OCXO_EVT_RETURN else REF_OCXO_EVT_LOSS)
  let d := forN 12 (fun n d => d.setRef n fun m =>
    { m with win := m.win.map fun w => { w with discarded := true, baseNext := Edges.fresh, baseLost := [] } }) d
  d.level 29 0 0 (!on && d.flag REF_OCXO_CFG_DECL)

/-- The OCXOIN monitor's window ends (R150). -/
def Dev.ocxoJudge (foff : Int) (d : Dev) : Dev :=
  let d := d.wr REF_OCXO_FOFF_FOFF (twos 32 foff)
  if d.rdIn REF_OCXO_CFG_OCXO_HARD 1 1048575 * 100 < foff.natAbs then
    let d := d.setRef 12 fun m => { m with hardCnt := 0 }
    d.when (d.flag REF_OCXO_STAT_PRESENT) (Dev.setPresent false)
  else if (d.ref 12).lost then d
  else
    let d := d.setRef 12 fun m => { m with hardCnt := m.hardCnt + 1 }
    d.when (decide (3 ≤ (d.ref 12).hardCnt) && !d.flag REF_OCXO_STAT_PRESENT) (Dev.setPresent true)

/-- A frequency window of monitor `n` ends (R139); answers whether it gave a result. -/
def Dev.fmWindowEnd (n : Nat) (d : Dev) : Dev × Bool :=
  match (d.ref n).win with
  | none => (d, false)
  | some w =>
    let pj := !w.discarded && !(d.ref n).jumped && n < 12 && d.flag (REF_STAT_PJUMP n)
    let chR := if n = 12 then 51 else n
    let chB := if n < 12 ∧ ¬ d.flag REF_OCXO_STAT_BASE then 51 else 50
    let r := d.fmResult w chR chB
    let d := d.fmNext n w
    match r with
    | some f => (if n = 12 then d.ocxoJudge f else d.fmJudge n f pj, true)
    | none => (if pj then (d.refClear n 8).refSettle n else d, false)

/-- A history second: waiting monitors start their first window; WTR_LEFT counts down (R139, R144).  Its whole seconds are the
device-wide history seconds, so it may read 0 up to one second before the wait ends. [DESIGN CHOICE, log 174] -/
def Dev.refSecond (d : Dev) : Dev :=
  forN 13 (fun n d =>
    let d := d.when (d.ref n).waitWin fun d =>
      let w := d.fmWin n d.nowU Edges.fresh Edges.fresh [] []
      d.setRef n fun m => { m with waitWin := false, win := some w, jumped := false }
    d.when (decide (n < 12) && decide (d.refState n = 2)) fun d =>
      d.wr (REF_WTR_LEFT_LEFT n) (d.rd (REF_WTR_LEFT_LEFT n) - 1)) d

/-! ### Activity, phase jumps, spacing, plugs (R138, R140, R141, R142) -/

/-- Activity loss of monitor `n` (R138, R140, R150). -/
def Dev.refLoss (n : Nat) (d : Dev) : Dev :=
  let d := d.setRef n fun m => { m with pjPrev := none, pjSp := [], pjEdges := 0 }
  if n = 12 then
    if d.flag REF_OCXO_CFG_DECL ∧ ¬ (d.ref 12).lost then
      let d := d.setRef 12 fun m => { m with lost := true, hardCnt := 0 }
      d.when (d.flag REF_OCXO_STAT_PRESENT) (Dev.setPresent false)
    else d
  else if d.refState n = 0 ∨ d.flag (REF_STAT_ACTIVITY n) then d
  else ((d.wr (REF_STAT_PJ_ARMED n) 0).evt (REF_EVT_ACTIVITY n)).refSet n 2

/-- Activity has returned for the limit's length (R138). -/
def Dev.refRestore (n : Nat) (d : Dev) : Dev :=
  if n = 12 then d.setRef 12 fun m => { m with lost := false }
  else (d.refClear n 2).refSettle n

/-- A forwarded edge of reference `n` is compared with its prediction (R140); answers the deviation that paddocks absorb
(PJ_ACT 2), 0 otherwise. [DEDUCED, log 68] -/
def Dev.refEdge (n ts : Nat) (d : Dev) : Dev × Int :=
  let m := d.ref n
  if d.refState n = 0 then (d, 0)
  else
    let dev : Int := match m.pjPrev with
      | some p => if 17 ≤ m.pjEdges ∧ m.pjSp ≠ [] then (ts : Int) - p - divRound m.pjSp.sum m.pjSp.length else 0
      | none => 0
    let jump := decide (max 65536 (d.rd (REF_PJ_PJ_THR n)) < dev.natAbs)
    let sp := match m.pjPrev with
      | some p => if jump then m.pjSp else (m.pjSp ++ [ts - p]).drop (m.pjSp.length + 1 - 16)
      | none => m.pjSp
    let d := d.setRef n fun m => { m with pjPrev := some ts, pjSp := sp, pjEdges := m.pjEdges + 1 }
    let d := d.when (decide (17 ≤ m.pjEdges + 1)) fun d => d.wr (REF_STAT_PJ_ARMED n) 1
    if ¬ jump then (d, 0)
    else
      let d := ((d.wr (REF_PJ_LAST_PJ_LAST n) (twos 32 (satI 32 dev))).bump (REF_PJ_CNT_COUNT n)).evt (REF_EVT_PJUMP n)
      match d.rd (REF_CFG_PJ_ACT n) with
      | 1 => ((d.setRef n fun m => { m with jumped := true }).refSet n 8, 0)
      | 2 => (d, dev)
      | _ => (d, 0)

/-- A spacing violation on the loop stream of reference `n` (R141). [DEDUCED, log 69] -/
def Dev.refViolation (n : Nat) (d : Dev) : Dev :=
  let d := (d.bump (REF_VIOL_CNT_COUNT n)).evt (REF_EVT_SPACING n)
  let d := d.setRef n fun m => { m with viols := (m.viols ++ [d.clk.tclk]).drop (m.viols.length + 1 - 4) }
  match (d.ref n).viols with
  | a :: _ => d.when (decide ((d.ref n).viols.length = 4) && decide (d.clk.tclk < a + 1000000 * usTclk)) (Dev.refSet n 16)
  | [] => d

/-- One second has passed with no violation (R141). -/
def Dev.refSpacingClear (n : Nat) (d : Dev) : Dev := (d.refClear n 16).refSettle n

/-- PLUG_N_k reads high on two samples (R142). -/
def Dev.refPull (k : Nat) (d : Dev) : Dev := d.when (d.flag (REF_CFG_PLUG_EN (8 + k))) (Dev.refSet (8 + k) 32)

/-- PLUG_N_k has stayed low for SETTLE (R142). -/
def Dev.refPlugSettle (k : Nat) (d : Dev) : Dev :=
  d.when (d.plugIs (8 + k) true) fun d => (d.refClear (8 + k) 32).refSettle (8 + k)

/-- FORCE_DISQ as applied (R143). -/
def Dev.refForced (n : Nat) (d : Dev) : Dev :=
  if d.flag (REF_CFG_FORCE_DISQ n) then d.when (!d.flag (REF_STAT_FORCED n)) (Dev.refSet n 64)
  else (d.refClear n 64).refSettle n

/-- Five seconds have passed since an image applied and a declared OCXOIN is not PRESENT (R150), whatever the mode since. -/
def Dev.ocxoTimeout (d : Dev) : Dev :=
  d.when (d.running && d.flag REF_OCXO_CFG_DECL && !d.flag REF_OCXO_STAT_PRESENT) (Dev.raise 29 0 0)

end Sys2Proof.Machine
end

