-- ==== Sys2Proof/Machine/FlockOps.lean ====
section
/-!
DEFINITION. Flocks and outputs (chapter 06): APLLs and their words, output states, delays, return-tap tees, pulse
synthesisers.
-/

namespace Sys2Proof.Machine

/-! ### APLLs (R164 to R168, R185) -/

/-- The APLL that feeds output `n`: directly, through a fractional divider of its own flock, or through a synthesiser
(R169). -/
def Dev.apllOf (d : Dev) (n : Nat) : Nat :=
  match d.rd (OUT_CFG_SRC_TYPE n) with
  | 0 => d.rd (OUT_CFG_SRC_IDX n)
  | 1 => n / 4
  | _ => d.rd (PSYN_CFG_SRC_APLL (d.rd (OUT_CFG_SRC_IDX n)))

/-- The outputs in the plan whose source is APLL `k`. -/
def Dev.outputsOf (d : Dev) (k : Nat) : List Nat :=
  (List.range 24).filter fun n => d.flag (OUT_CFG_USED n) && decide (d.apllOf n = k)

/-- N_nom of APLL `k` in 2^-48 (R164). -/
def Dev.nNom (d : Dev) (k : Nat) : Nat :=
  d.rd (FLOCK_CFG_NOM_NI k) * 2 ^ 48 + d.rd48 (FLOCK_NOM_LO_NOM_NF k) (FLOCK_NOM_HI_NOM_NF k)

/-- N as APLL `k` applies it, in 2^-48 (R164, FLOCK_k_N). -/
def Dev.nNow (d : Dev) (k : Nat) : Nat :=
  d.rd (FLOCK_N_HI_NI k) * 2 ^ 48 + d.rd (FLOCK_N_HI_NF k) * 2 ^ 32 + d.rd (FLOCK_N_LO_N k)

/-- A half-cycle of a VCO in the unit of `Apll.phase`: a VCO of N XOIN makes N XOIN / 80000 of them in a TCLK period, with N in
2^-48 and XOIN in 10 kHz (R164; 01 R17). -/
def halfCycle : Nat := 80000 * 2 ^ 48

/-- How far the VCO of APLL `k` has run at TCLK count `t` since the edge that applied the image (R164, R170): it stands still
while it is powered down (R185), and runs at no stated frequency while it is not locked. [DESIGN CHOICE, log 176] -/
def Dev.vcoPhase (d : Dev) (k t : Nat) : Nat :=
  let a := d.apll k
  if a.down then a.phase
  else if d.flag (FLOCK_STAT_LOCK k) then a.phase + d.nNow k * d.clk.xoin * (t - a.phaseAt)
  else a.phase + Config.vcoUnlocked k a.phaseAt (t - a.phaseAt)

/-- The phase of APLL `k` is brought up to now, as its frequency is about to change. -/
def Dev.vcoMark (k : Nat) (d : Dev) : Dev :=
  let p := d.vcoPhase k d.clk.tclk
  d.setApll k fun a => { a with phase := p, phaseAt := d.clk.tclk }

/-- All output dividers and fractional dividers start together at the edge that applies an image (R170). -/
def Dev.dividersStart (d : Dev) : Dev :=
  forN 6 (fun k d => d.setApll k fun a => { a with phase := 0, phaseAt := d.clk.tclk }) d

/-- APLL `k` gains or loses its lock. -/
def Dev.setLock (k : Nat) (on : Bool) (d : Dev) : Dev := (d.vcoMark k).wr (FLOCK_STAT_LOCK k) (b2n on)

/-- APLL `k` applies N = N_nom (1 + y 2^-48), rounded half away from zero to 2^-48 (R164). -/
def Dev.applyN (k : Nat) (y : Int) (d : Dev) : Dev :=
  let n := (divRound (d.nNom k * (2 ^ 48 + y)) (2 ^ 48)).toNat
  let d := d.vcoMark k
  ((d.wr (FLOCK_N_LO_N k) n).wr (FLOCK_N_HI_NF k) (n / 2 ^ 32)).wr (FLOCK_N_HI_NI k) (n / 2 ^ 48)

/-- What the accumulator of synthesiser `j` gains on a half-cycle of its source with the word `y`, in 2^-32 of 2^-16 ns: the
nominal half-cycle times 1 + y 2^-48, rounded half away from zero (R174). [DESIGN CHOICE, log 177] -/
def Dev.psynStep (d : Dev) (j : Nat) (y : Int) : Nat :=
  (divRound (65536 * 50000 * 2 ^ 32 * (2 ^ 48 + y)) (d.nNom (d.rd (PSYN_CFG_SRC_APLL j)) * d.clk.xoin : Nat)).toNat

/-- Half-cycles that the source of synthesiser `j` has made at TCLK count `t`. -/
def Dev.psynHalves (d : Dev) (j t : Nat) : Nat := d.vcoPhase (d.rd (PSYN_CFG_SRC_APLL j)) t / halfCycle

/-- The accumulator of synthesiser `j` at TCLK count `t`, in 2^-32 of 2^-16 ns; it stands while the synthesiser does not run
(R174, R185). -/
def Dev.psynAcc (d : Dev) (j t : Nat) : Nat :=
  let p := d.psyn j
  if d.flag (PSYN_STAT_RUNNING j) then p.acc + (d.psynHalves j t - p.count) * d.psynStep j p.word else p.acc

/-- The accumulator of synthesiser `j` is brought up to now, as its word or its counting is about to change. -/
def Dev.psynMark (j : Nat) (d : Dev) : Dev :=
  let a := d.psynAcc j d.clk.tclk
  let c := d.psynHalves j d.clk.tclk
  d.setPsyn j fun p => { p with acc := a, count := c }

/-- Synthesiser `j` advances with the word `y` from here on (R174). -/
def Dev.psynWord (j : Nat) (y : Int) (d : Dev) : Dev := (d.psynMark j).setPsyn j fun p => { p with word := y }

/-- Synthesiser `j` begins or ceases to count (R174, R185). -/
def Dev.psynRun (j : Nat) (on : Bool) (d : Dev) : Dev := (d.psynMark j).wr (PSYN_STAT_RUNNING j) (b2n on)

/-- A paddock's new word reaches its actuator (01 R22; R164, R174): a synthesiser, or an APLL unless its band is not
calibrated. -/
def Dev.actuate (pad : Nat) (y : Int) (d : Dev) : Dev :=
  let k := d.rd (PAD_CFG_ACT_IDX pad)
  if d.rd (PAD_CFG_ACT_TYPE pad) = 1 then
    if (d.apll k).calFail ∨ (d.apll k).down ∨ d.flag (FLOCK_STAT_CAL_BUSY k) then d else d.applyN k y
  else if d.rd (PAD_CFG_ACT_TYPE pad) = 2 then d.psynWord k y
  else d

/-- The word an APLL applies: its paddock's, or 0 where no paddock drives it (R164). -/
def Dev.apllWord (d : Dev) (k : Nat) : Int :=
  if d.flag (FLOCK_STAT_DRIVEN k) then
    d.rd48S (PAD_FW_LO_VALUE (d.rd (FLOCK_STAT_PAD k))) (PAD_FW_HI_VALUE (d.rd (FLOCK_STAT_PAD k)))
  else 0

/-! ### Output states (R178 to R186) -/

/-- An output may run (R178), in a WARM or WDOG pulse as in the mode that it leads back to (13 R350): its APLL is not in
CAL_FAIL, and after SLEEP it has locked again (13 R356). -/
def Dev.outMayRun (d : Dev) (n : Nat) : Bool :=
  let a := d.apll (d.apllOf n)
  let mode := match d.underMode with
    | .run | .service => true
    | .sleep => d.flag (OUT_CTL_KEEPALIVE n)
    | _ => false
  d.flag (OUT_CFG_USED n) && d.flag (OUT_CTL_ENABLE n) && mode && !d.flt.foldPend && !d.flag (OUT_STAT_DRV_FAULT n) &&
    !a.calFail && !a.down && !a.resume

/-- An output in OFF or SAFE is released to RUN where it may run (R178, R182). [DEDUCED, log 75] -/
def Dev.outTry (n : Nat) (d : Dev) : Dev :=
  let st := d.rd (OUT_STAT_STATE n)
  if (st = 0 ∨ st = 3) ∧ d.outMayRun n then
    let d := (d.wr (OUT_STAT_STATE n) 1).wr (OUT_STAT_FOLDED n) 0
    d.setOut n fun o => { o with starting := true, fromOff := decide (st = 0) }
  else d

/-- An output in RUN begins to stop (R178, R180).  FOLDED, defined as 'in SAFE because of FOLD', sets with the entry into
STOPPING that leads there, and also where a FOLD entry finds the output stopping for another reason: the fold keeps it stopped.
[DESIGN CHOICE, log 175] -/
def Dev.outStop (n : Nat) (folded : Bool) (d : Dev) : Dev :=
  if d.rd (OUT_STAT_STATE n) = 1 then
    let d := (d.wr (OUT_STAT_STATE n) 2).when folded fun d => d.wr (OUT_STAT_FOLDED n) 1
    (d.setOut n fun o => { o with starting := false }).lower 59 n
  else if folded ∧ d.rd (OUT_STAT_STATE n) = 2 then d.wr (OUT_STAT_FOLDED n) 1
  else d

/-- A stopping output takes its SAFE state (R180): `high` says that it was in a high phase. [DEDUCED, log 74] -/
def Dev.outStopDone (n : Nat) (high : Bool) (d : Dev) : Dev :=
  if d.rd (OUT_STAT_STATE n) ≠ 2 then d
  else
    let d := d.evtIf (high && d.flag (OUT_CFG_SLOW n)) (OUT_EVT_TRUNC n)
    ((d.wr (OUT_STAT_STATE n) 3).evt (OUT_EVT_STOPPED n)).outTry n

/-- A released output starts (R182). [DEDUCED, log 75] -/
def Dev.outStart (n : Nat) (d : Dev) : Dev :=
  d.when (decide (d.rd (OUT_STAT_STATE n) = 1)) fun d => d.setOut n fun o => { o with starting := false }

/-- The VDD_OUT rail of output `n` is below its threshold: A feeds flocks 0 and 1, B 2 and 3, C 4 and 5 (13 R341, R343). -/
def Dev.outRailLow (d : Dev) (n : Nat) : Bool := d.railLow.contains (2 + n / 8)

/-- A driver fault (R184): SAFE with the driver high-impedance until ENABLE = 0 is applied. [DEDUCED, log 79] -/
def Dev.outDrvFault (n : Nat) (d : Dev) : Dev :=
  let st := d.rd (OUT_STAT_STATE n)
  if st = 0 ∨ d.flag (OUT_STAT_DRV_FAULT n) ∨ ¬ d.flag (OUT_CFG_USED n) ∨ d.outRailLow n then d
  else
    let d := ((d.wr (OUT_STAT_STATE n) 3).wr (OUT_STAT_DRV_FAULT n) 1).evt (OUT_EVT_DRV_FAULT n)
    let d := d.evtIf (decide (st ≠ 3)) (OUT_EVT_STOPPED n)
    let d := (d.setOut n fun o => { o with starting := false }).lower 59 n
    d.fire 31 n

/-- ENABLE as applied (R178, R183, R184). [DEDUCED, log 74] -/
def Dev.outEnable (n : Nat) (d : Dev) : Dev :=
  if d.flag (OUT_CTL_ENABLE n) then d.outTry n
  else (d.wr (OUT_STAT_DRV_FAULT n) 0).outStop n false

/-- An update of G4 with ENABLE = 0 clears a driver fault, also where ENABLE was 0 before it (R184). -/
def Dev.drvsClear (d : Dev) : Dev :=
  forN 24 (fun n d => d.when (!d.flag (OUT_CTL_ENABLE n) && d.flag (OUT_STAT_DRV_FAULT n)) fun d =>
    d.wr (OUT_STAT_DRV_FAULT n) 0) d

/-- FOLD entry: every output in RUN stops (R178, R181, R183). -/
def Dev.outsFold (d : Dev) : Dev := forN 24 (fun n d => d.outStop n true) d

/-- The fold at the edge after the one that applied the image finds outputs that never ran: they go from OFF to SAFE (R178; 11
R287). -/
def Dev.outsHeld (d : Dev) : Dev :=
  forN 24 (fun n d =>
    if d.flag (OUT_CFG_USED n) ∧ d.rd (OUT_STAT_STATE n) = 0 then
      ((d.wr (OUT_STAT_STATE n) 3).wr (OUT_STAT_FOLDED n) 1).evt (OUT_EVT_STOPPED n)
    else d) d

/-- FOLD exit: outputs with ENABLE 1 are released at one edge (R178, R182). -/
def Dev.outsUnfold (d : Dev) : Dev := forN 24 (fun n d => (d.wr (OUT_STAT_FOLDED n) 0).outTry n) d

/-- The driver of output `n` fails its fold-line check: it goes to high impedance by its own switch (11 R286), which opens in OFF
too. [DEDUCED, log 79] -/
def Dev.outFoldPath (n : Nat) (d : Dev) : Dev :=
  let st := d.rd (OUT_STAT_STATE n)
  let d := d.setOut n fun o => { o with cut := true }
  if st = 0 then d
  else
    let d := (d.wr (OUT_STAT_STATE n) 3).wr (OUT_STAT_FOLDED n) 1
    let d := d.evtIf (decide (st ≠ 3)) (OUT_EVT_STOPPED n)
    (d.setOut n fun o => { o with starting := false }).lower 59 n

/-- The driver of output `n` passes its fold-line check again: its switch closes (11 R286). [DESIGN CHOICE, log 183] -/
def Dev.outFoldPathEnd (n : Nat) (d : Dev) : Dev := d.setOut n fun o => { o with cut := false }

/-- The tap of an output in RUN shows no edge for its limit, or shows edges again (11 R281, FSRC 59). -/
def Dev.outTapLoss (n : Nat) (onset : Bool) (d : Dev) : Dev :=
  if onset then d.when (decide (d.rd (OUT_STAT_STATE n) = 1)) (Dev.raise 59 n n) else d.lower 59 n

/-- Outputs in RUN (OUT_RUN_MAP). -/
def Dev.runMap (d : Dev) : Nat :=
  (List.range 24).foldl (fun m n => if d.rd (OUT_STAT_STATE n) = 1 then m + 2 ^ n else m) 0

/-! ### Band calibration and lock (R165, R167, R168, R185) -/

/-- A band calibration of APLL `k` starts. -/
def Dev.apllCal (k : Nat) (d : Dev) : Dev :=
  (d.setLock k false).wr (FLOCK_STAT_CAL_BUSY k) 1

/-- FLOCK_k_CMD.RECAL (R165).  One of an APLL that SLEEP has powered down is accepted as any other: its VCO runs again.
[DEDUCED, log 80; DESIGN CHOICE, log 178] -/
def Dev.apllRecal (k : Nat) (d : Dev) : Dev :=
  let idle := (d.outputsOf k).all fun n => decide (d.rd (OUT_STAT_STATE n) = 0) || decide (d.rd (OUT_STAT_STATE n) = 3)
  if idle ∧ d.flag (FLOCK_CFG_USED k) ∧ ¬ d.flag (FLOCK_STAT_CAL_BUSY k) then
    (d.apllCal k).setApll k fun a => { a with down := false }
  else d.evt (FLOCK_EVT_CMD_REJ k)

/-- Synthesisers of APLL `k` that SLEEP has stopped count on from where they stood (R185; 13 R356). -/
def Dev.psynsResume (k : Nat) (d : Dev) : Dev :=
  forN 4 (fun j d =>
    d.when (d.flag (PSYN_CFG_USED j) && decide (d.rd (PSYN_CFG_SRC_APLL j) = k) && !d.flag (PSYN_STAT_RUNNING j)) (Dev.psynRun j true)) d

/-- An APLL that SLEEP exit has left to lock has locked: its synthesisers count on and its outputs start (R178, R185; 13 R356). -/
def Dev.apllAwake (k : Nat) (d : Dev) : Dev :=
  if (d.apll k).resume then
    let d := (d.setApll k fun a => { a with resume := false }).when (decide (d.underMode ≠ .sleep)) (Dev.psynsResume k)
    if d.running then (d.outputsOf k).foldl (fun d n => d.outTry n) d else d
  else d

/-- A band calibration ends (R165, R168): with LOCK, the latest word applies and waiting outputs start; or in CAL_FAIL, at
whose onset APLL_LOL fires, whether or not a loss of lock holds it live. [DESIGN CHOICE, log 23, 81] -/
def Dev.apllCalDone (k : Nat) (ok : Bool) (band : Nat) (d : Dev) : Dev :=
  if ¬ d.flag (FLOCK_STAT_CAL_BUSY k) then d
  else
    let d := d.wr (FLOCK_STAT_CAL_BUSY k) 0
    if ok then
      let d := (d.setLock k true).wr (FLOCK_STAT_BAND k) band
      let d := d.evt (FLOCK_EVT_CAL_DONE k)
      let d := d.setApll k fun a => { a with calFail := false }
      let d := ((d.applyN k (d.apllWord k)).lower 30 k).apllAwake k
      if d.running then (d.outputsOf k).foldl (fun d n => d.outTry n) d else d
    else
      let d := d.setApll k fun a => { a with calFail := true }
      let d := d.evt (FLOCK_EVT_CAL_FAIL k)
      if d.flt.live.contains (30, k) then d.fire 30 k else d.raise 30 k k

/-- APLL `k` loses lock (R167). -/
def Dev.apllLol (k : Nat) (d : Dev) : Dev :=
  if d.flag (FLOCK_STAT_LOCK k) then
    let d := ((d.setLock k false).evt (FLOCK_EVT_LOL k)).bump (FLOCK_LOL_CNT_VALUE k)
    d.raise 30 k k
  else d

/-- APLL `k` regains lock (R167; 11 R288). [DESIGN CHOICE, log 81] -/
def Dev.apllRelock (k : Nat) (d : Dev) : Dev :=
  if d.flag (FLOCK_CFG_USED k) ∧ ¬ d.flag (FLOCK_STAT_LOCK k) ∧ ¬ d.flag (FLOCK_STAT_CAL_BUSY k) ∧
      ¬ (d.apll k).calFail ∧ ¬ (d.apll k).down then
    ((d.setLock k true).lower 30 k).apllAwake k
  else d

/-- An output keeps its APLL and its synthesiser powered in SLEEP (R185): one with KEEPALIVE that stays in RUN.  One that is in
OFF or SAFE does not. [DESIGN CHOICE, log 179] -/
def Dev.keepsAlive (d : Dev) (n : Nat) : Bool := d.flag (OUT_CTL_KEEPALIVE n) && decide (d.rd (OUT_STAT_STATE n) = 1)

/-- APLL `k` is powered down in SLEEP if it has no keep-alive output, once each of its outputs has stopped: its VCO stops and
its dividers hold (R170, R185).  One in CAL_FAIL keeps APLL_LOL live (R168). -/
def Dev.apllPowerDown (k : Nat) (d : Dev) : Dev :=
  let outs := d.outputsOf k
  let stopped := outs.all fun n => decide (d.rd (OUT_STAT_STATE n) = 0) || decide (d.rd (OUT_STAT_STATE n) = 3)
  if d.underMode = .sleep ∧ ¬ outs.any d.keepsAlive ∧ stopped ∧ d.flag (FLOCK_CFG_USED k) ∧ ¬ (d.apll k).down then
    let d := (d.setLock k false).wr (FLOCK_STAT_CAL_BUSY k) 0
    let d := if (d.apll k).calFail then d else d.lower 30 k
    d.setApll k fun a => { a with down := true, resume := false }
  else d

/-- A synthesiser carries a keep-alive output (R185). -/
def Dev.psynKept (d : Dev) (j : Nat) : Bool :=
  (List.range 24).any fun n => d.flag (OUT_CFG_USED n) && decide (d.rd (OUT_CFG_SRC_TYPE n) = 2) &&
    decide (d.rd (OUT_CFG_SRC_IDX n) = j) && d.keepsAlive n

/-- SLEEP entry: outputs without KEEPALIVE stop, and synthesisers without a keep-alive output power down (R178, R185; 13
R355). -/
def Dev.outsSleep (d : Dev) : Dev :=
  let d := forN 24 (fun n d => if d.flag (OUT_CTL_KEEPALIVE n) then d else d.outStop n false) d
  forN 4 (fun j d => d.when (d.flag (PSYN_STAT_RUNNING j) && !d.psynKept j) (Dev.psynRun j false)) d

/-- SLEEP exit: APLLs powered down recalibrate; the synthesisers of one that is locked count on and its outputs with ENABLE 1 start,
and those of the others wait for its lock (R168, R178, R185; 13 R356). -/
def Dev.outsWake (d : Dev) : Dev :=
  let d := forN 6 (fun k d =>
    if (d.apll k).down then (d.apllCal k).setApll k fun a => { a with down := false, resume := true }
    else if d.flag (FLOCK_STAT_LOCK k) then d.psynsResume k
    else d.setApll k fun a => { a with resume := true }) d
  forN 24 (fun n d => d.outTry n) d

/-! ### Delays (R172, R173) -/

/-- The coarse and fine delay sums limited to their ranges, and whether a limit applied (R172). -/
def Dev.delayTarget (d : Dev) (n : Nat) : Nat × Nat × Bool :=
  let c := (d.rd (OUT_DELAY_COARSE n) : Int) + d.rdS (OUT_ATRIM_ATRIM_C n)
  let f := (d.rd (OUT_DELAY_FINE n) : Int) + d.rdS (OUT_ATRIM_ATRIM_F n)
  let c' := clampI 0 255 c
  let f' := clampI 0 4095 f
  (c'.toNat, f'.toNat, decide (c' ≠ c) || decide (f' ≠ f))

/-- One period of output `n` in half-cycles of its VCO, as a fraction: 2 ODIV for a direct clock, 2 ODIV (INT + NUM / DEN)
behind a fractional divider, whose ratio is exact (R169, R173); 0 where the output carries pulses. -/
def Dev.outHalves (d : Dev) (n : Nat) : Nat × Nat :=
  match d.rd (OUT_CFG_SRC_TYPE n) with
  | 0 => (2 * d.rd (OUT_DIV_ODIV n), 1)
  | 1 =>
    let k := n / 4
    let m := d.rd (OUT_CFG_SRC_IDX n) % 2
    let den := d.rd (FLOCK_FDIV_DEN_DEN k m)
    (2 * d.rd (OUT_DIV_ODIV n) * (d.rd (FLOCK_FDIV_CFG_INT k m) * den + d.rd (FLOCK_FDIV_NUM_NUM k m)), max 1 den)
  | _ => (0, 1)

/-- The output carries the pulses of a synthesiser. -/
def Dev.outPulses (d : Dev) (n : Nat) : Bool := decide (2 ≤ d.rd (OUT_CFG_SRC_TYPE n))

/-- Periods that the divider of output `n` has completed when its VCO has run to phase `p` (R170). -/
def Dev.outTurns (d : Dev) (n p : Nat) : Nat :=
  let h := d.outHalves n
  p * h.2 / (halfCycle * h.1)

/-- Steps that the coarse delay of output `n` has had the time for since it began to move: one per output period, or pulse
(R173). [DEDUCED, log 76] -/
def Dev.delaySteps (d : Dev) (n : Nat) : Nat :=
  let o := d.out n
  if d.outPulses n then (d.psyn (d.rd (OUT_CFG_SRC_IDX n))).pulses - o.movedPulse
  else d.outTurns n (d.vcoPhase (d.apllOf n) d.clk.tclk) - d.outTurns n o.movedPhase

/-- Half-cycles that the coarse delay of output `n` inserts to come from `c` to `t`: a decrease by m of a clock is an increase
by the period less m, taken modulo the period, which behind a fractional divider is rounded up to whole half-cycles (R173).
[DESIGN CHOICE, log 180] -/
def Dev.delayNeed (d : Dev) (n c t : Nat) : Nat :=
  if c ≤ t then t - c
  else if d.outPulses n then c - t
  else
    let h := d.outHalves n
    let p := (h.1 + h.2 - 1) / h.2
    (p - (c - t) % p) % p

/-- The applied coarse and fine counts now, and whether they still move (R173, OUT_n_DELAY_STAT).  While a clock output makes a
decrease by lengthening low phases, C shows the count it comes from. [DEDUCED, log 76; DESIGN CHOICE, log 180] -/
def Dev.delayNow (d : Dev) (n : Nat) : Nat × Nat × Bool :=
  let o := d.out n
  let t := d.delayTarget n
  let fs := d.clk.tclk / 4 - o.movedAt / 4
  let f := if o.fromF ≤ t.2.1 then min t.2.1 (o.fromF + fs) else max t.2.1 (o.fromF - fs)
  let s := d.delaySteps n
  let c := if d.delayNeed n o.fromC t.1 ≤ s then t.1
    else if o.fromC ≤ t.1 then o.fromC + s
    else if d.outPulses n then o.fromC - s
    else min 255 o.fromC
  (c, f, decide (c ≠ t.1) || decide (f ≠ t.2.1))

/-- Where the coarse delay of output `n` physically is: a decrease in progress has inserted half-cycles (R173). -/
def Dev.delayAt (d : Dev) (n : Nat) : Nat :=
  let now := d.delayNow n
  let o := d.out n
  if now.1 ≠ (d.delayTarget n).1 ∧ ¬ d.outPulses n then o.fromC + d.delaySteps n else now.1

/-- The pulse from which a new coarse delay of output `n` holds: a decrease leaves one that lies within 1 us as it is (R173). -/
def Dev.pulseFrom (d : Dev) (n : Nat) (down : Bool) : Nat :=
  let j := d.rd (OUT_CFG_SRC_IDX n)
  let p := d.psyn j
  p.pulses + b2n (down && decide (p.next * 2 ^ 32 ≤ d.psynAcc j d.clk.tclk + 1000 * 65536 * 2 ^ 32))

/-- Delay fields or trims of output `n` change by `g` (R172, R173): the motion starts from where the elements are.
[DEDUCED, log 76] -/
def Dev.moveDelay (n : Nat) (g : Dev → Dev) (d : Dev) : Dev :=
  let c := d.delayAt n
  let f := (d.delayNow n).2.1
  let before := d.delayTarget n
  let d := g d
  let t := d.delayTarget n
  let d := d.when (decide (t.1 ≠ before.1)) fun d =>
    let phase := d.vcoPhase (d.apllOf n) d.clk.tclk
    let pulse := d.pulseFrom n (decide (t.1 < c))
    d.setOut n fun o => { o with fromC := c, movedPhase := phase, movedPulse := pulse }
  let d := d.when (decide (t.2.1 ≠ before.2.1)) fun d =>
    d.setOut n fun o => { o with fromF := f, movedAt := d.clk.tclk }
  d.evtIf t.2.2 (OUT_EVT_RANGE n)

/-! ### Tees (R188) -/

/-- A write of OUT_TEE (R188).  SRC and DEST beyond the last output are rejected, and the end of a tee is judged on the DEST that
the register holds. [DESIGN CHOICE, log 197] -/
def Dev.teeWrite (w : Nat) (d : Dev) : Dev :=
  let en := bitsOf w 31 31
  let dest := bitsOf w 12 8
  let src := bitsOf w 4 0
  let busy := d.jobUses (20 + dest)
  let bad := if en = 1 then d.claimed (20 + dest) || decide (dest = src) || busy || decide (24 ≤ dest) || decide (24 ≤ src)
    else d.jobUses (20 + d.rd OUT_TEE_DEST)
  if bad then d.evt OUT_ERR_TEE_REJ
  else if d.hwBits rOUT_TEE ≠ 0 then d
  else ((d.wr OUT_TEE_EN en).wr OUT_TEE_DEST dest).wr OUT_TEE_SRC src

/-! ### Pulse synthesisers (R174 to R177) -/

/-- PERIOD of synthesiser `j` (R174). -/
def Dev.psynPeriod (d : Dev) (j : Nat) : Nat := d.rd48 (PSYN_PERIOD_LO_PERIOD j) (PSYN_PERIOD_HI_PERIOD j)
/-- OFFSET of synthesiser `j` as applied (R176). -/
def Dev.psynOffset (d : Dev) (j : Nat) : Int := d.rd48S (PSYN_OFFSET_LO_OFFSET j) (PSYN_OFFSET_HI_OFFSET j)
/-- WIDTH in 2^-16 ns, limited to its range (R177). -/
def Dev.psynWidth (d : Dev) (j : Nat) : Nat :=
  clampN (4 * 65536) (d.psynPeriod j - 104 * 65536) (d.rd (PSYN_WIDTH_WIDTH j) * 65536)

/-- A signed value reduced modulo `p` into [-p/2, p/2). [DEDUCED, log 48] -/
def wrapHalf (x : Int) (p : Nat) : Int :=
  if p = 0 then x else (x + (p / 2 : Nat)) % (p : Int) - (p / 2 : Nat)

/-- The fine delay that places the edge at `at_` of the accumulator: the residue from the half-cycle before it, in steps of
39.0625 fs (R174; R172). [DESIGN CHOICE, log 177] -/
def Dev.psynFine (d : Dev) (j at_ : Nat) : Nat :=
  let p := d.psyn j
  (divRound ((at_ * 2 ^ 32 - p.acc) % d.psynStep j p.word * 100 : Nat) (256 * 2 ^ 32)).toNat

/-- A pulse is emitted, where the accumulator reaches the next scheduled crossing by the end of the present TCLK period (R174,
R177). [DEDUCED, log 62] -/
def Dev.psynPulse (j : Nat) (d : Dev) : Dev :=
  let p := d.psyn j
  if ¬ d.flag (PSYN_STAT_RUNNING j) ∨ d.psynAcc j (d.clk.tclk + 1) < p.next * 2 ^ 32 then d
  else
    let fine := d.psynFine j p.next
    let d := d.setPsyn j fun p => { p with
      next := p.next + d.psynPeriod j, pulseEnd := p.next + d.psynWidth j, pulses := p.pulses + 1, fine := fine }
    d.bump (PSYN_CNT_COUNT j)

/-- A new OFFSET applies (R176, R177): the schedule moves; a pulse that would break the gap is dropped. [DEDUCED, log 62] -/
def Dev.psynMove (j : Nat) (delta : Int) (d : Dev) : Dev :=
  let per := d.psynPeriod j
  let p := d.psyn j
  let nxt := (p.next : Int) + wrapHalf delta per
  let gap := if p.pulses = 0 then 0 else p.pulseEnd + 100 * 65536
  let least : Int := (max gap (d.psynAcc j d.clk.tclk / 2 ^ 32) : Nat)
  let d := d.evt (PSYN_EVT_OFFSET_APPLIED j)
  if nxt < least then
    (d.setPsyn j fun p => { p with next := (nxt + per).toNat }).evt (PSYN_EVT_DROP j)
  else d.setPsyn j fun p => { p with next := nxt.toNat }

/-- The synthesisers of the plan start with the dividers at the edge that applies an image (R170, R174). -/
def Dev.psynsStart (d : Dev) : Dev :=
  forN 4 (fun j d =>
    if d.flag (PSYN_CFG_USED j) then
      let per := d.psynPeriod j
      let off := if per = 0 then 0 else (d.psynOffset j % (per : Int)).toNat
      let y := if d.flag (PSYN_CFG_DRIVEN j) then
          d.rd48S (PAD_FW_LO_VALUE (d.rd (PSYN_CFG_PAD j))) (PAD_FW_HI_VALUE (d.rd (PSYN_CFG_PAD j)))
        else 0
      (d.wr (PSYN_STAT_RUNNING j) 1).setPsyn j fun _ =>
        { Psyn.fresh with word := y, next := if off = 0 then per else off }
    else d) d

/-- The OFFSET a DPLL paddock that drives a synthesiser adds to its reference timestamps (R176). -/
def Dev.padOffset (d : Dev) (n : Nat) : Int :=
  if d.rd (PAD_CFG_ACT_TYPE n) = 2 then d.psynOffset (d.rd (PAD_CFG_ACT_IDX n)) else 0

end Sys2Proof.Machine
end

