-- ==== Sys2Proof/Machine/AlignOps.lean ====
section
/-!
DEFINITION. The service ALIGN (06 R189, R190): it measures with interval jobs of its own in the job class (01 R21), one after
another, and trims the delays of outputs.
-/

namespace Sys2Proof.Machine

/-- Argument `k` of the running service. -/
def Dev.mbxArg (d : Dev) (k : Nat) : Nat := d.mbx.args.getD k 0

/-- The outcome of the running service is known. -/
def Dev.mbxOut (code : Nat) (res : List Nat) (d : Dev) : Dev := d.mbxOutcome d.mbx.run code res

/-! ### What ALIGN works on -/

/-- The reference output of ALIGN. -/
def Dev.alignRef (d : Dev) : Nat := d.mbxArg 0 % 32

/-- The probe: the lowest output that is neither the reference nor in the mask and whose tap channel is free (R189). -/
def Dev.alignProbe (d : Dev) : Option Nat :=
  (List.range 24).find? fun n =>
    decide (n ≠ d.alignRef) && !(d.mbxArg 1).testBit n && !d.claimed (20 + n) && !d.jobUses (20 + n)

/-- Outputs of ALIGN's mask. -/
def Dev.alignMask (d : Dev) : List Nat := (List.range 24).filter fun n => (d.mbxArg 1).testBit n

/-- The half-cycle T_h of an output's VCO as a fraction in 2^-16 ns (R172). -/
def Dev.thOf (d : Dev) (n : Nat) : Nat × Nat :=
  (65536 * 1000000000 * 2 ^ 48, 2 * d.clk.xoin * 10000 * d.nNom (d.apllOf n))

/-- The period of output `n` in whole units of 2^-16 ns: of its clock, or of the pulses it carries. -/
def Dev.outPeriod (d : Dev) (n : Nat) : Nat :=
  if d.outPulses n then d.psynPeriod (d.rd (OUT_CFG_SRC_IDX n))
  else
    let h := d.outHalves n
    let t := d.thOf n
    h.1 * t.1 / (h.2 * t.2)

/-- ALIGN writes the result of an output (R190). -/
def Dev.alignResult (n code : Nat) (residual : Int) (d : Dev) : Dev :=
  ((d.wr (OUT_ALIGN_RES_CODE n) code).wr (OUT_ALIGN_RES_RES n) (twos 28 residual)).evt (OUT_EVT_ALIGN_DONE n)

/-- The coarse and fine counts that move output `n` by `delta` units from where its delay is to be (R189), or none where the
delay is out of range.  A fine step is 39.0625 fs = 64/25 of a unit; 40 ps are 1,024 and 159.96 ps are 4,095 fine steps.
[DEDUCED, log 108] -/
def Dev.alignCounts (d : Dev) (n : Nat) (delta : Int) : Option (Nat × Nat) :=
  let r := d.thOf n
  let h := d.outHalves n
  let th : Int := 25 * r.1 * h.2
  let fu : Int := 64 * r.2 * h.2
  if r.2 = 0 then none
  else
    let now := d.delayTarget n
    let x : Int := now.1 * th + now.2.1 * fu + delta * (25 * r.2 * h.2)
    let top : Int := 255 * th + 4095 * fu
    let per : Int := h.1 * (25 * r.1)
    let x := if 0 < per ∧ per ≤ top then x % per else x
    if x < 0 ∨ top < x then none
    else
      let c := if x < 1024 * fu then 0 else min 255 ((x - 1024 * fu) / th)
      some (c.toNat, (divRound (x - c * th) fu).toNat)

/-- What ALIGN across a pasture adds to a measured skew: the offset of this device from the device it follows, as the link has
measured it with the asymmetry constant (R190; 08 R216, R217). [DESIGN CHOICE, log 185] -/
def Dev.alignOffset (d : Dev) : Int :=
  if (d.mbxArg 0).testBit 8 ∧ d.rd PAST_STAT_ROLE = 2 ∧ d.flag PAST_STAT_FL_V then
    d.rd48S (PLINK_OFF_LO_OFF (d.rd PAST_STAT_FL)) (PLINK_OFF_HI_OFF (d.rd PAST_STAT_FL))
  else 0

/-- The trim that follows a measured error (R189, R190). Answers the code: 1 within 150 fs, 2 out of range, 4 noisy. -/
def Dev.alignTrim (n : Nat) (err : Int) (d : Dev) : Dev × Nat :=
  match d.alignCounts n (-err) with
  | none => (d, 2)
  | some (c, f) =>
    let d := d.moveDelay n fun d =>
      (d.wr (OUT_ATRIM_ATRIM_C n) (twos 9 ((c : Int) - d.rd (OUT_DELAY_COARSE n)))).wr (OUT_ATRIM_ATRIM_F n)
        (twos 13 ((f : Int) - d.rd (OUT_DELAY_FINE n)))
    (d, if err.natAbs * 10000 ≤ 98304 then 1 else 4)

/-! ### The run -/

/-- `d` with the running ALIGN changed. -/
def Dev.setAlign (d : Dev) (f : AlignRun → AlignRun) : Dev := { d with mbx := { d.mbx with align := d.mbx.align.map f } }

/-- The output that a step measures. -/
def AlignStep.out : AlignStep → Nat
  | .teeTo m => m | .teeFrom m => m | .skew m => m

/-- The tap constant c of output `m`, once measured. -/
def AlignRun.cap (a : AlignRun) (m : Nat) : Option Int := (a.caps.find? fun c => decide (c.1 = m)).map Prod.snd

/-- The channel gives timestamps to jobs: it carries a loop stream, or jobs may arm it (02 R50). -/
def Dev.alignHears (d : Dev) (ch : Nat) : Bool := d.claimed ch || (d.flag (MCH_CFG_ENABLE ch) && d.flag MEAS_CTL_JOB_EN)

/-- The output runs and its channel gives timestamps. -/
def Dev.alignSees (d : Dev) (n : Nat) : Bool := decide (d.rd (OUT_STAT_STATE n) = 1) && d.alignHears (20 + n)

/-- A step can measure anything (R190, NO_EDGES). [DEDUCED, log 108] -/
def Dev.alignMay (d : Dev) (a : AlignRun) (s : AlignStep) : Bool :=
  match s with
  | .skew m => d.alignSees m && d.alignSees d.alignRef && (a.cap m).isSome && (a.cap d.alignRef).isSome
  | .teeTo m | .teeFrom m => d.alignSees m && d.alignHears (20 + a.probe)

/-- An interval of a step: start channel, stop channel, OPEN and CLOSE (R189). -/
def Dev.alignWindow (d : Dev) (a : AlignRun) (s : AlignStep) : Nat × Nat × Int × Int :=
  let p : Int := d.outPeriod s.out
  match s with
  | .teeTo m => (20 + a.probe, 20 + m, -(p / 4), p / 4)
  | .teeFrom m => (20 + m, 20 + a.probe, -(p / 4), p / 4)
  | .skew m => let t := d.rdS (OUT_ALIGN_TGT_TGT m); (20 + d.alignRef, 20 + m, t - p / 2, t + p / 2)

/-- An interval job of ALIGN's own that begins now (03 R74, R77). -/
def Dev.alignJob (d : Dev) (a : AlignRun) (s : AlignStep) : Job :=
  let w := d.alignWindow a s
  { order := 0, tag := 0, ring := 0, kind := .interval, chA := w.1, chB := w.2.1, stat := false, ratio := false
    paramA := twos 64 w.2.2.1, paramB := twos 64 w.2.2.2, begin := d.clk.tclk * 40960, early := false, inj := false
    start := none, cand := none, stops := [], edges := 0, lastEdge := none, close := none, openArr := none, lostA := []
    bOpenArr := none, lostB := [], bStops := [], bOpen := none, bEdges := 0, bLast := none, sum := 0, sumSq := 0
    minS := 0, maxS := 0, written := 0, dropped := 0, bad := false, done := none }

/-- What the tee holds during a step (R188, R189). -/
def AlignRun.teeWord (a : AlignRun) : AlignStep → Nat
  | .skew _ => a.tee
  | s => 2 ^ 31 + a.probe * 2 ^ 8 + s.out

/-- A step begins, `rest` following it: its tee is made, and its first interval job begins. -/
def Dev.alignBegin (a : AlignRun) (s : AlignStep) (rest : List AlignStep) (d : Dev) : Dev :=
  let d := d.setHw rOUT_TEE (Word.of (a.teeWord s))
  let j := d.alignJob a s
  d.setAlign fun a => { a with todo := s :: rest, job := some j, sum := 0, count := 0, lost := 0 }

/-- A step that can measure nothing: in a pass, its output has code NO_EDGES (R190). -/
def AlignRun.pass_ (a : AlignRun) : AlignStep → AlignRun
  | .skew m => { a with done := a.done ++ [(m, 3, 0)] }
  | _ => a

/-- The bits of a list of outputs. -/
def outBits (ns : List Nat) : Nat := ns.foldl (fun v n => v + 2 ^ n) 0

/-- ALIGN has ended its passes: the results are written, the tee is as it was, and the outcome is known (R190; 10 R280). -/
def Dev.alignFinish (a : AlignRun) (d : Dev) : Dev :=
  let ok := (a.done.filter fun q => decide (q.2.1 = 1)).map Prod.fst
  let bad := (a.done.filter fun q => decide (q.2.1 ≠ 1)).map Prod.fst
  let d := a.done.foldl (fun d q => d.alignResult q.1 q.2.1 q.2.2) (d.setHw rOUT_TEE (Word.of a.tee))
  let d := { d with mbx := { d.mbx with align := none } }
  d.mbxOut (if bad.isEmpty then 0 else 0x0C) [outBits ok, outBits bad]

/-- ALIGN goes on with the first of the steps to come that can measure; at their end a pass follows, until every residual is
within 150 fs, at most four (R189). -/
def Dev.alignGoOn : Nat → List AlignStep → Dev → Dev
  | 0, _, d => d
  | fuel + 1, todo, d =>
    match d.mbx.align, todo with
    | none, _ => d
    | some a, s :: rest =>
      if d.alignMay a s then d.alignBegin a s rest else Dev.alignGoOn fuel rest (d.setAlign fun a => a.pass_ s)
    | some a, [] =>
      if a.pass ≠ 0 ∧ (a.pass = 4 ∨ a.done.all fun q => decide (q.2.1 = 1)) then d.alignFinish a
      else
        Dev.alignGoOn fuel (d.alignMask.map .skew) (d.setAlign fun a => { a with pass := a.pass + 1, done := [] })

/-- Steps and ends of passes that ALIGN may take without measuring. -/
def alignFuel : Nat := 256

/-- A skew error of a clock output counts modulo its period, which is a fraction of units: into half a period about 0 (R189). -/
def Dev.alignModulo (d : Dev) (n : Nat) (err : Int) : Int :=
  let h := d.outHalves n
  let t := d.thOf n
  let num := h.1 * t.1
  let den := h.2 * t.2
  if d.outPulses n ∨ num = 0 ∨ den = 0 then err
  else divRound (err * den - (2 * err * den + num) / (2 * num : Nat) * num) den

/-- All intervals of the present step have ended (R189, R190): more than half of them timed out, or their mean counts.
[DEDUCED, log 108] -/
def Dev.alignStepEnd (a : AlignRun) (d : Dev) : Dev :=
  let blind := decide (d.mbxArg 2 < 2 * a.lost)
  let mean := divRound a.sum a.count
  match a.todo with
  | .teeTo _ :: rest =>
    if blind then d.alignGoOn alignFuel (rest.drop 1)
    else (d.setAlign fun a => { a with half := some mean }).alignGoOn alignFuel rest
  | .teeFrom m :: rest =>
    let c := divRound (a.half.getD 0 - mean) 2
    (d.setAlign fun a => { a with half := none, caps := if blind then a.caps else a.caps ++ [(m, c)] }).alignGoOn alignFuel rest
  | .skew m :: rest =>
    if blind then (d.setAlign fun a => a.pass_ (.skew m)).alignGoOn alignFuel rest
    else
      let true_ := mean - (a.cap d.alignRef).getD 0 + (a.cap m).getD 0 + d.alignOffset
      let err := d.alignModulo m (true_ - d.rdS (OUT_ALIGN_TGT_TGT m))
      let r := d.alignTrim m err
      (r.1.setAlign fun a => { a with done := a.done ++ [(m, r.2, err)] }).alignGoOn alignFuel rest
  | [] => d

/-- The present interval job has changed; where it has ended, it counts, or its timeout does, and the next begins.  One that ends
while the output's delay still moves does not count. [DESIGN CHOICE, log 185] -/
def Dev.alignTaken (j : Job) (d : Dev) : Dev :=
  match d.mbx.align, j.done with
  | some a, some dn =>
    match a.todo with
    | s :: _ =>
      let moving := (d.delayNow s.out).2.2
      let a' := if moving then a
        else if dn.tmo then { a with lost := a.lost + 1 }
        else { a with sum := a.sum + sext 64 dn.payload, count := a.count + 1 }
      if a'.count + a'.lost < d.mbxArg 2 then
        let next := d.alignJob a' s
        d.setAlign fun _ => { a' with job := some next }
      else (d.setAlign fun _ => { a' with job := none }).alignStepEnd a'
    | [] => d
  | some _, none => d.setAlign fun a => { a with job := some j }
  | none, _ => d

/-- ALIGN's interval job takes a timestamp (02 R59, R60). -/
def Dev.alignStamp (ch ts : Nat) (d : Dev) : Dev :=
  match d.mbx.align.bind AlignRun.job with
  | some j => if j.uses ch then d.alignTaken (j.takeInterval ch ts) else d
  | none => d

/-- The window of ALIGN's interval job has passed, or its stop before the start is matched (02 R60, R61). -/
def Dev.alignInterval (early : Bool) (d : Dev) : Dev :=
  match d.mbx.align.bind AlignRun.job with
  | some j =>
    match j.start, j.cand with
    | some t, some c => d.alignTaken { j with done := some (Done.interval ((c : Int) - t)) }
    | some _, none => if early then d else d.alignTaken { j with done := some Done.timeout }
    | none, _ => d
  | none => d

/-- ALIGN starts with the tee measurements (R189). -/
def Dev.alignStart (probe : Nat) (d : Dev) : Dev :=
  let ms := d.alignMask ++ (if (d.mbxArg 1).testBit d.alignRef then [] else [d.alignRef])
  let a : AlignRun :=
    { probe := probe, todo := [], job := none, sum := 0, count := 0, lost := 0, half := none, caps := [], pass := 0, done := []
      tee := (d.word rOUT_TEE).toNat }
  ({ d with mbx := { d.mbx with align := some a } }).alignGoOn alignFuel (ms.flatMap fun m => [.teeTo m, .teeFrom m])

end Sys2Proof.Machine
end

