-- ==== Sys2Proof/Machine/PaddockOps.lean ====
section
/-!
DEFINITION. Paddocks (chapter 04, and 05 R158 and R159): the filter, the ladder, the states, STEERED, holdover, steps of
device time, updates and their telemetry.
-/

namespace Sys2Proof.Machine

/-! ### Registers of a paddock as numbers -/

/-- KIND of paddock `n`: 0 DPLL, 1 STEER, 2 WATCH, 3 OFF (R104). -/
def Dev.padKind (d : Dev) (n : Nat) : Nat := d.rd (PAD_CFG_KIND n)
/-- State of paddock `n`: 0 FREERUN, 1 ACQUIRE, 2 LOCKED, 3 HOLDOVER, 4 STEERED (R120, R131). -/
def Dev.padSt (d : Dev) (n : Nat) : Nat := d.rd (PAD_STATE_STATE n)
/-- The active word y (R109). -/
def Dev.padWord (d : Dev) (n : Nat) : Int := d.rd48S (PAD_FW_LO_VALUE n) (PAD_FW_HI_VALUE n)
/-- The build-out offset bo (R105). -/
def Dev.padBo (d : Dev) (n : Nat) : Int := d.rd48S (PAD_BO_LO_BO n) (PAD_BO_HI_BO n)
/-- `d` with bo replaced. -/
def Dev.setBo (n : Nat) (v : Int) (d : Dev) : Dev := d.wr48 (PAD_BO_LO_BO n) (PAD_BO_HI_BO n) v
/-- The FREERUN word FR. -/
def Dev.padFr (d : Dev) (n : Nat) : Int := d.rd48S (PAD_FR_LO_FR n) (PAD_FR_HI_FR n)
/-- The limit L = round(PULL_LIM 10^-8 2^48) (R109). -/
def Dev.padLim (d : Dev) (n : Nat) : Int := divRound ((d.rdIn (PAD_PULL_PULL_LIM n) 1 65535 * 2 ^ 48 : Nat) : Int) 100000000
/-- The paddock is the time keeper (R111). -/
def Dev.padTk (d : Dev) (n : Nat) : Bool := d.flag (PAD_CFG_TK n)
/-- The pull-in remainder q (05 R159). -/
def Dev.padQ (d : Dev) (n : Nat) : Int := d.rd48S (PAD_PULL_REM_LO_Q n) (PAD_PULL_REM_HI_Q n)

/-- The nominal update period P in 2^-16 ns as a fraction (R105, R106): the spacing of the active reference's stream, or
of the first entry of the table while no reference is active. -/
def Dev.padPeriod (d : Dev) (n : Nat) : Nat × Nat :=
  if d.flag (PAD_STATE_ACTIVE_V n) then d.spacing (d.rd (PAD_STATE_ACTIVE_CH n))
  else
    match (List.range 8).find? fun i => d.flag (PAD_CAND_CFG_VALID n i) with
    | some i => d.spacing (d.rd (PAD_CAND_CFG_CH n i))
    | none => (Config.planSpacing (64 + n), 1)

/-- P in whole units of 2^-16 ns. -/
def Dev.padP (d : Dev) (n : Nat) : Nat := let p := d.padPeriod n; (2 * p.1 + p.2) / (2 * p.2)

/-- The nominal update period in seconds, as a fraction. -/
def Dev.padTu (d : Dev) (n : Nat) : Nat × Nat := let p := d.padPeriod n; (p.1, p.2 * 65536 * 1000000000)

/-- d with a paddock's history second made unusable (R127); a reset makes it so too, as no paddock runs in it.
[DESIGN CHOICE, log 182] -/
def Dev.padUnusable (n : Nat) (d : Dev) : Dev := d.setPad n fun p => { p with secUsable := false }

/-! ### Bandwidth (R114, R115, R117) -/

/-- The bandwidth of a code in units of 0.1 mHz (R114). -/
def bwUnits (c : Nat) : Nat :=
  if 23 ≤ c then 40000000
  else (match c % 3 with | 0 => 1 | 1 => 2 | _ => 5) * 10 ^ (c / 3)

/-- The code that is applied for a written one: the highest within the update rate over 100 (R114). -/
def Dev.bwApplied (d : Dev) (n code : Nat) : Nat :=
  let t := d.padTu n
  ((List.range 24).filter fun c => decide (c ≤ code) && decide (bwUnits c * t.1 ≤ 100 * t.2)).getLastD 0

/-- The target bandwidth B_t in Hz, as a fraction. -/
def Dev.padTarget (d : Dev) (n : Nat) : Nat × Nat := (bwUnits (d.bwApplied n (d.rd (PAD_CTL_BW n))), 10000)

/-- The smaller of two fractions. -/
def minFrac (a b : Nat × Nat) : Nat × Nat := if a.1 * b.2 ≤ b.1 * a.2 then a else b

/-- The ladder start b0 (R117). -/
def Dev.padB0 (d : Dev) (n : Nat) : Nat × Nat :=
  let t := d.padTarget n
  let tu := d.padTu n
  minFrac (minFrac (d.rdIn (PAD_LADDER_MULT n) 2 255 * t.1, t.2) (4000, 1)) (tu.2, 100 * tu.1)

/-- The damping factor z (R115). -/
def Dev.padDamp (d : Dev) (n : Nat) : Nat :=
  match d.rd (PAD_CTL_DAMP n) with | 0 => 5 | 1 => 7 | 2 => 10 | _ => 20

/-! ### The filter (R113) -/

/-- pi in units of 2^-192, rounded down. -/
def piFix : Nat := 19720096697726538562396133364228268891463450865190089732560

/-- `a / (b 2^e)` rounded half away from zero. -/
def mantAt (a b : Nat) (e : Int) : Nat :=
  if 0 ≤ e then (divRound a (b * 2 ^ e.toNat)).toNat else (divRound (a * 2 ^ (-e).toNat) b).toNat

/-- A positive fraction as a normalised 32-bit mantissa and a binary exponent, rounded half away from zero. -/
def mant32 (a b : Nat) : Nat × Int :=
  if a = 0 ∨ b = 0 then (0, 0)
  else
    let e : Int := (Nat.log2 a : Int) - (Nat.log2 b : Int) - 31
    let m := mantAt a b e
    if 2 ^ 32 ≤ m then (mantAt a b (e + 1), e + 1)
    else if m < 2 ^ 31 then (mantAt a b (e - 1), e - 1)
    else (m, e)

/-- sqrt(2 z^2 + 1 + sqrt((2 z^2 + 1)^2 + 1)) in units of 2^-200. -/
def dampRoot (z : Nat) : Nat :=
  let q := 2 * z * z + 1
  let inner := isqrt ((q * q + 1) * 2 ^ 400)
  isqrt ((q * 2 ^ 200 + inner) * 2 ^ 200)

/-- The factor kp in 1/s for a bandwidth and a damping. -/
def kpOf (b : Nat × Nat) (z : Nat) : Nat × Int :=
  mant32 (4 * z * piFix * b.1 * 2 ^ 200) (2 ^ 192 * b.2 * dampRoot z)

/-- The factor ki tu in 1/s. -/
def kituOf (b : Nat × Nat) (z : Nat) (tu : Nat × Nat) : Nat × Int :=
  let w := 2 * piFix * b.1 * 2 ^ 200
  let v := 2 ^ 192 * b.2 * dampRoot z
  mant32 (w * w * tu.1) (v * v * tu.2)

/-- The product of a factor and an error, in 2^-80 relative: `num / den` is the error's unit in 2^-80 of a second or, for
a STEER paddock, of F_SC (R113; 07 R198). -/
def scaled (k : Nat × Int) (e : Int) (num den : Nat) : Int :=
  if 0 ≤ k.2 then divRound (k.1 * e * (num * 2 ^ k.2.toNat : Nat)) den
  else divRound (k.1 * e * (num : Nat)) ((den * 2 ^ (-k.2).toNat : Nat) : Int)

/-- The unit of a paddock's error in 2^-80. -/
def errUnit (kind : Nat) : Nat × Nat := if kind = 1 then (2 ^ 32, 1) else (2 ^ 64, 1000000000)

/-- PI2 on an error: the new integrator, the output in 2^-80 and whether the clamp of R109 holds. -/
def Dev.pi2 (d : Dev) (n : Nat) (e : Int) : Int × Int × Bool :=
  let p := d.pad n
  let b := (p.bNum, p.bDen)
  let z := d.padDamp n
  let u := errUnit (d.padKind n)
  let lim := d.padLim n * 2 ^ 32
  let i := p.integ + scaled (kituOf b z (d.padTu n)) e u.1 u.2
  let y := i + scaled (kpOf b z) e u.1 u.2
  if lim < y then (p.integ, lim, true)
  else if y < -lim then (p.integ, -lim, true)
  else (i, y, false)

/-! ### The word (R108, R109, R111) -/

/-- The edge generator's accumulator, in 2^-64 ns, brought up to now (R108). -/
def Dev.egNow (d : Dev) (n : Nat) : Int :=
  let p := d.pad n
  let per : Int := d.padP n * 2 ^ 48
  let a := p.egAcc + ((d.clk.tclk - p.egAt : Nat) : Int) * 40960 * (2 ^ 48 + d.padWord n)
  if per = 0 then a else a % per

/-- The paddock writes its word: to its actuator, to its edge generator, and to device time where it is the time keeper
(R23, R108, R111). -/
def Dev.setWordY (n : Nat) (y : Int) (d : Dev) : Dev :=
  let eg := d.egNow n
  let d := d.setPad n fun p => { p with egAcc := eg, egAt := d.clk.tclk }
  let d := d.wr48 (PAD_FW_LO_VALUE n) (PAD_FW_HI_VALUE n) y
  let d := if d.padTk n then { d with clk := { d.clk with inc := ((inc0 : Int) + divRound (5 * y) 8).toNat } } else d
  d.actuate n y

/-- STATE.CLAMPED and HIST.CLAMP (R109; 07 R201). -/
def Dev.padClamped (n : Nat) (c : Bool) (d : Dev) : Dev :=
  (d.wr (PAD_STATE_CLAMPED n) (b2n c)).evtIf c (PAD_HIST_CLAMP n)

/-! ### Steps of device time (R112) -/

/-- Device time advances by `u` units of 2^-16 ns at one edge (R112). -/
def Dev.stepDevice (n : Nat) (u : Int) (d : Dev) : Dev :=
  let t := ((d.clk.dev : Int) + u * 2 ^ 32) % (devTop : Int)
  let d := { d with clk := { d.clk with dev := t.toNat } }
  ((d.evt (PAD_HIST_STEP_DONE n)).abortStep).epochAll 4

/-- A step would lie below 0 s (R112). -/
def Dev.stepBelow (d : Dev) (u : Int) : Bool := decide ((d.clk.dev : Int) + u * 2 ^ 32 < 0)

/-- The size of a commanded step in 2^-16 ns. -/
def stepUnits (s : Int × Int) : Int := (s.1 * 1000000000 + s.2) * 65536

/-- A waiting commanded step takes effect, or is dropped (R112). -/
def Dev.takeStep (n : Nat) (d : Dev) : Dev :=
  match (d.pad n).tstep with
  | none => d
  | some s =>
    let d := d.setPad n fun p => { p with tstep := none }
    if d.stepBelow (stepUnits s) then d.evt (PAD_ERR_TSTEP_REJ n) else d.stepDevice n (stepUnits s)

/-- What is added to the timestamps of the active reference: its entry's POFF (05 R151) and the OFFSET of the synthesiser the
paddock drives, both as they are at the update (06 R176). -/
def Dev.refShift (d : Dev) (n : Nat) : Int :=
  d.rdS (PAD_CAND_POFF_POFF n (d.rd (PAD_SEL_STAT_ACT_IDX n))) + d.padOffset n

/-- The paddock makes updates: ACQUIRE, LOCKED, or STEERED with an active reference, without FB_LOSS (R112, R123). -/
def Dev.padUpdating (d : Dev) (n : Nat) : Bool :=
  let st := d.padSt n
  (decide (st = 1) || decide (st = 2) || (decide (st = 4) && d.flag (PAD_STATE_ACTIVE_V n))) &&
    !d.flag (PAD_STATE_FB_LOSS n)

/-- The paddock has stopped making updates: a waiting step and a waiting SFO take effect (R112, R123). [DEDUCED, log 66] -/
def Dev.padIdle (n : Nat) (d : Dev) : Dev :=
  if d.padUpdating n then d
  else
    let d := d.takeStep n
    match (d.pad n).sfoPend with
    | some v =>
      let old := (d.pad n).sfo
      let d := d.setPad n fun p => { p with sfo := v, sfoPend := none }
      if d.padSt n = 4 then d.setWordY n (d.padWord n - old + v) else d
    | none => d

/-- PAD_n_TSTEP_CMD.GO (R112). -/
def Dev.tstepCmd (n : Nat) (d : Dev) : Dev :=
  let s := (d.rdS (PAD_TSTEP_SEC_STEP n), d.rdS (PAD_TSTEP_NS_STEP n))
  if ¬ d.padTk n ∨ 999999999 < s.2.natAbs ∨ (d.pad n).tstep.isSome ∨ d.stepBelow (stepUnits s) then
    d.evt (PAD_ERR_TSTEP_REJ n)
  else
    let d := d.setPad n fun p => { p with tstep := some s }
    if d.padUpdating n then d else d.takeStep n

/-! ### History and holdover (R126 to R129) -/

/-- The span of a history level in seconds. -/
def histSpan (lvl : Nat) : Nat := 16 ^ lvl

/-- The SRAM address of entry `k` of a level (R126). -/
def histAddr (n lvl k : Nat) : Nat := 0x170000 + 0x800 * n + 0x200 * lvl + 8 * (k % 64)

/-- The average A and the count C of a history entry (R126). -/
def Dev.histEntry (d : Dev) (n lvl k : Nat) : Int × Nat :=
  let w := leNat (ByteMem.bytes d.sram 0 (histAddr n lvl k) 8)
  (sext 48 w, w / 2 ^ 48)

/-- `d` with a history entry written. -/
def Dev.setHist (n lvl k : Nat) (a : Int) (c : Nat) (d : Dev) : Dev :=
  d.setSram (histAddr n lvl k) (leBytes 8 (twos 48 a + c * 2 ^ 48))

/-- Entry `k` of a level is stored: complete, formed since the history was cleared, among the latest 64 (R126). -/
def Dev.histStored (d : Dev) (n lvl k : Nat) : Bool :=
  let stop := (k + 1) * histSpan lvl
  decide (stop ≤ d.clk.hsec) && decide ((d.pad n).histFrom < stop) && decide (d.clk.hsec / histSpan lvl ≤ k + 64)

/-- The entry of a level that ends at `p` is stored. -/
def Dev.histEnds (d : Dev) (n lvl p : Nat) : Bool :=
  decide (p % histSpan lvl = 0) && decide (0 < p) && d.histStored n lvl (p / histSpan lvl - 1)

/-- The greatest end at or below `p` of a stored entry; 0 where there is none (R128). -/
def Dev.histBack (d : Dev) (n p : Nat) : Nat :=
  [0, 1, 2, 3].foldl (fun best lvl =>
    let q := p / histSpan lvl * histSpan lvl
    if d.histEnds n lvl q then max best q else best) 0

/-- The taking loop of R128: sum, accumulator. -/
def Dev.histTake (d : Dev) (n w : Nat) : Nat → Nat → Nat → Int → Nat × Int
  | 0, _, sum, acc => (sum, acc)
  | fuel + 1, p, sum, acc =>
    let fits := [3, 2, 1, 0].find? fun lvl =>
      d.histEnds n lvl p && decide (sum + (d.histEntry n lvl (p / histSpan lvl - 1)).2 ≤ w)
    match fits with
    | some lvl =>
      let e := d.histEntry n lvl (p / histSpan lvl - 1)
      Dev.histTake d n w fuel (p - histSpan lvl) (sum + e.2) (acc + e.2 * e.1)
    | none => (sum, acc)

/-- The active reference is a stray (R148). -/
def Dev.padStray (d : Dev) (n : Nat) : Bool := d.flag (PAD_STATE_STRAY_GUARD n)

/-- The holdover average is computed; answers whether the result is valid (R128). -/
def Dev.computeH (n : Nat) (d : Dev) : Dev × Bool :=
  let guard := d.rd (PAD_HGUARD_GUARD n)
  let onset := (d.ref (d.rd (PAD_STATE_ACTIVE_CH n))).onset
  let g := if d.padStray n then guard + (d.clk.hsec - onset) else guard
  let w := d.rdIn (PAD_HWIN_W n) 1 100000
  let r := d.histTake n w 300 (d.histBack n (d.clk.hsec - g)) 0 0
  let ok := decide (min w (d.rdIn (PAD_HGUARD_HOLD_MIN n) 1 65535) ≤ r.1)
  let d := (d.wr (PAD_HSTAT_VALUE n) r.1).wr (PAD_HGEFF_VALUE n) g
  let d := d.wr (PAD_STATE_HOLD_VALID n) (b2n ok)
  let d := d.when ok fun d => d.wr48 (PAD_HAVG_LO_VALUE n) (PAD_HAVG_HI_VALUE n) (divRound r.2 r.1)
  (d, ok)

/-- The model correction M: PAD_n_HMODEL where MODEL_EN is 1, else 0 (R129). -/
def Dev.padM (d : Dev) (n : Nat) : Int :=
  if d.flag (PAD_CTL_MODEL_EN n) then sext 48 (d.rd (PAD_HMODEL_LO_M n) + 2 ^ 32 * d.rd (PAD_HMODEL_HI_M n)) else 0

/-- HW = clamp(H + M, L) is formed (R129). -/
def Dev.formHw (n : Nat) (d : Dev) : Dev :=
  let l := d.padLim n
  let h := d.rd48S (PAD_HAVG_LO_VALUE n) (PAD_HAVG_HI_VALUE n)
  d.wr48 (PAD_HW_LO_VALUE n) (PAD_HW_HI_VALUE n) (clampI (-l) l (h + d.padM n))

/-- The holdover word HW. -/
def Dev.padHw (d : Dev) (n : Nat) : Int := d.rd48S (PAD_HW_LO_VALUE n) (PAD_HW_HI_VALUE n)

/-- HW is formed and, in HOLDOVER, is the word (R120, R129). [DEDUCED, log 60] -/
def Dev.refreshHw (n : Nat) (d : Dev) : Dev :=
  let d := d.formHw n
  if d.padSt n = 3 then d.setWordY n (d.padHw n) else d

/-- A write of M is accepted (R129). [DEDUCED, log 60, 65] -/
def Dev.acceptModel (n : Nat) (d : Dev) : Dev :=
  let d := (d.setPad n fun p => { p with modelFrom := d.clk.tclk }).wr (PAD_STATE_MODEL_STALE n) 0
  d.refreshHw n

/-- M has become stale (R129). [DEDUCED, log 65] -/
def Dev.modelStale (n : Nat) (d : Dev) : Dev :=
  if d.flag (PAD_CTL_MODEL_EN n) ∧ ¬ d.flag (PAD_STATE_MODEL_STALE n) then
    (d.wr (PAD_STATE_MODEL_STALE n) 1).evt (PAD_HIST_MODEL_STALE n)
  else d

/-! ### States (R117 to R123) -/

/-- The HIST bit of entry into a state (R124). -/
def histBit (n st : Nat) : Fld := ⟨rPAD_HIST n, st, st⟩

/-- Queued reference timestamps and a hold end with the making of updates; feedback, and its loss, go on (R107). -/
def Dev.padHalt (n : Nat) (d : Dev) : Dev :=
  let d := d.setPad n fun p => { p with refQ := [], first := false, dwell := 0, overRun := 0 }
  let d := d.setSel n fun s => { s with errs := [], raws := [] }
  (d.wr (PAD_SEL_STAT_HOLDING n) 0).wr (PAD_SEL_STAT_HOLD_LEFT n) 0

/-- The paddock takes a state, with the history bit of an entry and PAD_STATE of R124: a state taken at the edge that applies
the image is no entry.  A slew in progress is abandoned on leaving STEERED (R123), and a state without a filter output has no
clamp on it (R109). -/
def Dev.padTake (n st : Nat) (d : Dev) : Dev :=
  let old := d.padSt n
  let entry := decide (d.boot.appliedAt ≠ some d.clk.edge)
  let d := (d.wr (PAD_STATE_STATE n) st).evtIf entry (histBit n st)
  let d := d.when (decide (st = 0) || decide (st = 3) || decide (st = 4)) fun d => d.wr (PAD_STATE_CLAMPED n) 0
  let d := d.when (decide (old = 4) && decide (st ≠ 4)) fun d =>
    (d.setPad n fun p => { p with spoRem := 0 }).wr (PAD_STATE_SLEWING n) 0
  let d := d.when (decide (st ≠ 2) && decide (st ≠ 4)) (Dev.padUnusable n)
  d.when (entry && decide (old = 2) && (decide (st = 3) || decide (st = 0))) fun d => d.fire 24 n

/-- Entry into FREERUN (R120, R122); `invalid`: because the holdover word was invalid (R124). -/
def Dev.enterFreerun (n : Nat) (invalid : Bool) (d : Dev) : Dev :=
  let d := ((d.padTake n 0).padHalt n).setWordY n (d.padFr n)
  let d := d.when invalid fun d => (d.evt (PAD_HIST_HOLD_INVALID n)).fire 25 n
  (d.portsFreerun n).padIdle n

/-- Entry into HOLDOVER with the average just computed (R120, R128, R129). -/
def Dev.enterHoldover (n : Nat) (d : Dev) : Dev :=
  let d := ((d.padTake n 3).padHalt n).formHw n
  (d.setWordY n (d.padHw n)).padIdle n

/-- The bandwidth, STEP and AT_TARGET of a paddock. -/
def Dev.setBw (n : Nat) (b : Nat × Nat) (step : Nat) (at_ : Bool) (d : Dev) : Dev :=
  let d := d.setPad n fun p => { p with bNum := b.1, bDen := b.2, dwell := 0 }
  (d.wr (PAD_STATE_STEP n) (min 31 step)).wr (PAD_STATE_AT_TARGET n) (b2n at_)

/-- ACQUIRE starts: with the ladder, where it runs, or at the target bandwidth (R117). -/
def Dev.startLadder (n : Nat) (runs : Bool) (d : Dev) : Dev :=
  let t := d.padTarget n
  let b0 := d.padB0 n
  if runs && decide (t.1 * b0.2 < b0.1 * t.2) then d.setBw n b0 0 false
  else d.setBw n t 0 true

/-- Entry into ACQUIRE from FREERUN, HOLDOVER or STEERED (R117, R119): from FREERUN LADDER_EN alone decides on the ladder, from
HOLDOVER REACQ_WIDE alone. [DEDUCED, log 53] -/
def Dev.enterAcquire (n : Nat) (d : Dev) : Dev :=
  let old := d.padSt n
  let i := if old = 0 then d.padFr n * 2 ^ 32 else if old = 3 then d.padHw n * 2 ^ 32 else (d.pad n).integ
  let d := (d.padTake n 1).padHalt n
  let d := d.setPad n fun p => { p with integ := i, first := true }
  d.startLadder n ((decide (old = 0) && d.flag (PAD_CTL_LADDER_EN n)) ||
    (decide (old = 3) && d.flag (PAD_CTL_REACQ_WIDE n)))

/-- Unlock: LOCKED to ACQUIRE with nothing else changed (R118, R119). [DEDUCED, log 53] -/
def Dev.unlock (n : Nat) (d : Dev) : Dev :=
  let d := (d.padTake n 1).evt (PAD_HIST_UNLOCK n)
  let d := d.setPad n fun p => { p with overRun := 0 }
  d.startLadder n (d.flag (PAD_CTL_REACQ_WIDE n))

/-- ACQUIRE to LOCKED (R118). -/
def Dev.lock (n : Nat) (d : Dev) : Dev :=
  (d.padTake n 2).setPad n fun p => { p with overRun := 0, dwell := 0 }

/-- Entry into STEERED (R123); SFO, a protected quartet, is 0 from here on, its complements all ones. [DEDUCED, log 66] -/
def Dev.enterSteered (n : Nat) (d : Dev) : Dev :=
  let d := d.padTake n 4
  let d := (d.setWord (rPAD_SFO_LO n) 0).setWord (rPAD_SFO_HI n) 0
  let d := (d.setWord (rPAD_SFO_LO_C n) (Word.of 0xFFFFFFFF)).setWord (rPAD_SFO_HI_C n) (Word.of 0xFFFFFFFF)
  d.setPad n fun p => { p with heldB := d.padWord n, sfo := 0, sfoPend := none, spoRem := 0, steerFrom := d.clk.tclk,
                               first := false }

/-- The paddock loses its reference, or must hold (R120): HOLDOVER with a valid word, else FREERUN; WATCH goes to
FREERUN.  In HOLDOVER already, the average computed at this edge gives the word (R129). [DEDUCED, log 55] -/
def Dev.padFall (n : Nat) (d : Dev) : Dev :=
  if 2 ≤ d.padKind n then (if d.padSt n = 0 then d else d.enterFreerun n false)
  else
    let r := d.computeH n
    if r.2 then (if d.padSt n = 3 then r.1.refreshHw n else r.1.enterHoldover n)
    else if d.padSt n = 0 then r.1
    else r.1.enterFreerun n true

/-- The paddock takes the state that AUTO would choose (R120). -/
def Dev.padAuto (n : Nat) (d : Dev) : Dev :=
  if d.padKind n = 3 then d
  else if d.flag (PAD_STATE_ACTIVE_V n) then d.enterAcquire n
  else d.padFall n

/-- A changed MODE_REQ is applied, `was` being the value before (R120, R121). [DEDUCED, log 57] -/
def Dev.modeReq (n was : Nat) (d : Dev) : Dev :=
  let st := d.padSt n
  let kind := d.padKind n
  let rej := fun (d : Dev) => d.evt (PAD_ERR_MODE_REJ n)
  match d.rd (PAD_CTL_MODE_REQ n) with
  | 0 =>
    if st = 4 then d.padAuto n
    else if (st = 0 ∨ st = 3) ∧ (was = 1 ∨ was = 2 ∨ d.flag (PAD_STATE_ACTIVE_V n) = true) then d.padAuto n
    else d
  | 1 => if st = 0 then d else d.enterFreerun n false
  | 2 =>
    if 2 ≤ kind ∨ st = 4 then rej d
    else
      let r := d.computeH n
      if ¬ r.2 then rej (r.1.evt (PAD_HIST_HOLD_INVALID n))
      else if st = 3 then r.1.refreshHw n
      else r.1.enterHoldover n
  | 3 => if kind = 0 ∧ (st = 2 ∨ st = 3 ∨ st = 0) then d.enterSteered n else rej d
  | _ => rej d

/-- STEER_TMO has passed (R123). [DEDUCED, log 55] -/
def Dev.steeredTimeout (n : Nat) (d : Dev) : Dev :=
  if d.padSt n = 4 ∧ d.rd (PAD_SCFG_STEER_TMO n) ≠ 0 then (d.evt (PAD_HIST_STEER_TMO n)).padFall n else d

/-- A new BW, DAMP or MULT is in force (R116); `bw`: it is BW that is new. [DEDUCED, log 58] -/
def Dev.padRetarget (n : Nat) (bw : Bool) (d : Dev) : Dev :=
  let t := d.padTarget n
  let p := d.pad n
  if d.padSt n ≠ 1 then d.setPad n fun p => { p with bNum := t.1, bDen := t.2 }
  else if p.bNum * t.2 = t.1 * p.bDen then
    if bw && !d.flag (PAD_STATE_AT_TARGET n) then d.setBw n t (d.rd (PAD_STATE_STEP n)) true else d
  else if t.1 * p.bDen < p.bNum * t.2 then
    let at_ := d.flag (PAD_STATE_AT_TARGET n)
    (d.wr (PAD_STATE_AT_TARGET n) 0).setPad n fun p => { p with dwell := if at_ then 0 else p.dwell }
  else d.setBw n t (d.rd (PAD_STATE_STEP n)) true

/-! ### Updates (R105, R107, R113, R117 to R119, R123) -/

/-- A dwell of DWELL_K / b seconds is complete after `c` good updates. [DESIGN CHOICE, log 47] -/
def Dev.dwellDone (d : Dev) (n c : Nat) : Bool :=
  let p := d.pad n
  let t := d.padTu n
  decide (0 < c) && decide (d.rdIn (PAD_LADDER_DWELL_K n) 1 15 * p.bDen * t.2 ≤ (c - 1) * t.1 * p.bNum)

/-- Unlock, lock and ladder steps after an update with error `e` (R117, R118, R121). [DESIGN CHOICE, log 47] -/
def Dev.padDwell (n : Nat) (e : Int) (d : Dev) : Dev :=
  let a := e.natAbs
  let lockThr := max 1 (d.rd (PAD_LOCK_THR_THR n))
  let p := d.pad n
  match d.padSt n with
  | 2 =>
    if max 1 (d.rd (PAD_UNLOCK_THR_THR n)) < a then
      if 2 ≤ p.overRun then d.unlock n else d.setPad n fun p => { p with overRun := p.overRun + 1 }
    else d.setPad n fun p => { p with overRun := 0 }
  | 1 =>
    if d.flag (PAD_STATE_AT_TARGET n) then
      if lockThr < a then d.setPad n fun p => { p with dwell := 0 }
      else if d.dwellDone n (p.dwell + 1) then d.lock n
      else d.setPad n fun p => { p with dwell := p.dwell + 1 }
    else if max 1 (d.rd (PAD_LADDER_THR_THR n)) < a then d.setPad n fun p => { p with dwell := 0 }
    else if d.dwellDone n (p.dwell + 1) then
      let t := d.padTarget n
      let half := (p.bNum, 2 * p.bDen)
      let j := d.rd (PAD_STATE_STEP n) + 1
      if half.1 * t.2 < t.1 * half.2 then
        (d.setBw n t j true).setPad n fun p => { p with dwell := if lockThr < a then 0 else 1 }
      else (d.setBw n half j false).setPad n fun p => { p with dwell := 1 }
    else d.setPad n fun p => { p with dwell := p.dwell + 1 }
  | _ => d

/-- A TEL_RING record of an update with error `e` (R131). -/
def Dev.padTelemetry (n : Nat) (e : Int) (d : Dev) : Dev :=
  if ¬ d.flag (PAD_TEL_TEL_EN n) then d.setPad n fun p => { p with telCount := 0 }
  else if (d.pad n).telCount + 1 < max 1 (d.rd (PAD_TEL_TEL_DIV n)) then
    d.setPad n fun p => { p with telCount := p.telCount + 1 }
  else
    let d := d.setPad n fun p => { p with telCount := 0 }
    let r := d.rd (PAD_TEL_TEL_RING n)
    if ¬ d.flag (TQ_CFG_ENABLE r) ∨ d.flag (TQ_STAT_DISABLING r) then
      (d.bump (TQ_DROP_DROP r)).evt (PAD_ERR_TEL_DROP n)
    else
      let tgt := d.flag (PAD_STATE_AT_TARGET n)
      let step := min 15 (d.rd (PAD_STATE_STEP n)) + 16 * b2n tgt
      let freq := twos 24 (satI 24 (d.padWord n / 4096))
      let payload := d.padSt n * 2 ^ 61 + step * 2 ^ 56 + freq * 2 ^ 32 + twos 32 (satI 32 e)
      let ch := if d.flag (PAD_STATE_ACTIVE_V n) then d.rd (PAD_STATE_ACTIVE_CH n) else 0
      d.addData r (.paddock d.clk.edge n ch (d.rd (PAD_TEL_TAG_TAG n)) payload d.injM)

/-- What ends every update that is not skipped: the counts of the history second and telemetry (R126, R131). -/
def Dev.padFinish (n : Nat) (e : Int) (d : Dev) : Dev :=
  let y := d.padWord n
  (d.setPad n fun p => { p with secSum := p.secSum + y, secUpd := p.secUpd + 1 }).padTelemetry n e

/-- Units of 2^-48 ns that a slew of `rate` ps/s covers in one update. -/
def Dev.slewPer (d : Dev) (n rate : Nat) : Nat :=
  let t := d.padTu n
  (divRound ((rate * 2 ^ 48 * t.1 : Nat) : Int) ((1000 * t.2 : Nat) : Int)).toNat

/-- A step of the pull-in (05 R159): bo moves towards bo - q. -/
def Dev.padPull (n : Nat) (d : Dev) : Dev :=
  let q := d.padQ n
  if q = 0 then d
  else
    let rate := min (d.rdIn (PAD_SWCFG_PI_RATE n) 1 65535) (10000 * d.rdIn (PAD_PULL_PULL_LIM n) 1 65535)
    let acc := (d.pad n).pullAcc + d.slewPer n rate
    let m : Int := ((min q.natAbs (acc / 2 ^ 32) : Nat) : Int)
    let s := if q < 0 then -m else m
    let d := d.setPad n fun p => { p with pullAcc := acc % 2 ^ 32 }
    let d := (d.setBo n (d.padBo n - s)).wr48 (PAD_PULL_REM_LO_Q n) (PAD_PULL_REM_HI_Q n) (q - s)
    d.wr (PAD_SEL_STAT_PULLING n) (b2n (decide (q - s ≠ 0)))

/-- A step of the steered phase slew (R123); answers the sign of the term s. -/
def Dev.padSlew (n : Nat) (d : Dev) : Dev × Int :=
  let p := d.pad n
  if p.spoRem = 0 then (d, 0)
  else
    let m : Int := ((min p.spoRem.natAbs (d.slewPer n (d.rdIn (PAD_SCFG_PSLEW n) 1 65535)) : Nat) : Int)
    let s := if p.spoRem < 0 then -m else m
    let d := d.setPad n fun p => { p with so := p.so + s, spoRem := p.spoRem - s }
    (d.wr (PAD_STATE_SLEWING n) (b2n (decide (p.spoRem - s ≠ 0))), if p.spoRem < 0 then -1 else 1)

/-- The word of STEERED: B + SFO + s (R123). -/
def Dev.steerWord (n : Nat) (sign : Int) (d : Dev) : Dev :=
  let p := d.pad n
  let s := divRound ((d.rdIn (PAD_SCFG_PSLEW n) 1 65535 * 2 ^ 48 : Nat) : Int) 1000000000000
  d.setWordY n (p.heldB + p.sfo + sign * s)

/-- An update in STEERED (R123). -/
def Dev.steeredUpdate (n : Nat) (d : Dev) : Dev :=
  let d := d.setPad n fun p => { p with sfo := p.sfoPend.getD p.sfo, sfoPend := none }
  let r := d.padSlew n
  r.1.steerWord n r.2

/-- Once every P of device time while a STEERED paddock makes no updates (R123). [DEDUCED, log 66] -/
def Dev.slewTick (n : Nat) (d : Dev) : Dev :=
  if d.padSt n = 4 ∧ ¬ d.padUpdating n then
    let r := d.padSlew n
    r.1.steerWord n r.2
  else d

/-- The filter runs on an error and the word is written (R113). -/
def Dev.filterUpdate (n : Nat) (e : Int) (d : Dev) : Dev :=
  let r := d.pi2 n e
  let d := d.setPad n fun p => { p with integ := r.1 }
  (d.setWordY n (divRound r.2.1 (2 ^ 32))).padClamped n r.2.2

/-- BO_N of the hold-length code (05 R160). -/
def Dev.holdLen (d : Dev) (n : Nat) : Nat := 4 ^ d.rd (PAD_SWCFG_BO_N n)

/-- The least-squares line through (j, u_j), j = 1 to N, at j = N, times N (N + 1) (05 R158); `us` oldest first. -/
def fitEnd (us : List Int) : Int :=
  let n : Int := us.length
  ((us.foldl (fun (a : Int × Int) u => (a.1 + (6 * a.2 - 2 * n - 2) * u, a.2 + 1)) (0, 1))).1

/-- An update of a hold (05 R158). [DEDUCED, log 54] -/
def Dev.holdUpdate (n : Nat) (u : Int) (d : Dev) : Dev :=
  let d := d.setSel n fun s => { s with raws := u :: s.raws }
  let s := d.selOf n
  let len := d.holdLen n
  if s.raws.length < len then d.wr (PAD_SEL_STAT_HOLD_LEFT n) (len - s.raws.length)
  else
    let k : Int := s.raws.length
    let delta := divRound (fitEnd s.raws.reverse * s.refN - s.refSum * (k * (k + 1))) (k * (k + 1) * s.refN)
    let d := d.setBo n (d.padBo n + delta)
    let d := d.when (d.flag (PAD_SWCFG_SW_MODE n)) fun d =>
      let q := d.padQ n + delta
      (d.wr48 (PAD_PULL_REM_LO_Q n) (PAD_PULL_REM_HI_Q n) q).wr (PAD_SEL_STAT_PULLING n) (b2n (decide (q ≠ 0)))
    let d := d.setSel n fun s => { s with raws := [], errs := [] }
    (d.wr (PAD_SEL_STAT_HOLDING n) 0).wr (PAD_SEL_STAT_HOLD_LEFT n) 0

/-- The phase error e of raw difference `raw` = f - r, or of theta: wrapped into [-P/2, P/2) but for a link entry (R105; 08
R219). [DEDUCED, log 48] -/
def Dev.phaseErr (d : Dev) (n : Nat) (raw : Int) (link : Bool) : Int :=
  let e := raw - d.padBo n - divRound (d.pad n).so (2 ^ 32)
  if link then e else wrapHalf e (d.padP n)

/-- The time keeper's step on a first update with ACQ_PHASE 1 (R112): device time advances by e, or by e + P where that
would lie below 0 s; a link entry brings it to the bellwether's time. [DEDUCED, log 49, 52] -/
def Dev.acqStep (n : Nat) (e : Int) (link : Bool) (d : Dev) : Dev :=
  if link then d.stepDevice n (-e)
  else d.stepDevice n (if d.stepBelow e then e + d.padP n else e)

/-- One phase update with raw difference `raw` (R105, R107, R112, R113, R117, R119, R123; 05 R140, R158, R159).  The return of
feedback resumes with e = 0, which counts as such an update (R118); on a first update it absorbs and takes no step.
[DEDUCED, log 49, 50, 51] -/
def Dev.phaseUpdate (n : Nat) (raw absorb : Int) (link : Bool) (d : Dev) : Dev :=
  let d := d.setBo n (d.padBo n - absorb)
  let first := (d.pad n).first
  let acq := d.flag (PAD_CTL_ACQ_PHASE n)
  let d := d.when (first && acq) fun d => d.setBo n 0
  let e := d.phaseErr n raw link
  let d := (d.wr (PAD_PERR_ERR n) (twos 32 (satI 32 e))).bump (PAD_UPD_COUNT n)
  let d := d.takeStep n
  if d.flag (PAD_SEL_STAT_HOLDING n) then
    let d := d.when (d.flag (PAD_STATE_FB_LOSS n)) fun d => d.setBo n (d.padBo n + e)
    let u := raw - d.padBo n - divRound (d.pad n).so (2 ^ 32)
    let d := ((d.padPull n).holdUpdate n u).wr (PAD_STATE_FB_LOSS n) 0
    -- The hold freezes the filter; SFO and the slew of STEERED go on (R123).
    (d.when (decide (d.padSt n = 4)) (Dev.steeredUpdate n)).padFinish n e
  else
    let back := d.flag (PAD_STATE_FB_LOSS n)
    let absorbAll := back || (first && !acq)
    let step := first && acq && d.padTk n && decide (d.rd (PAD_STEP_THR_STEP_THR n) < e.natAbs) && !back
    let d := d.when absorbAll fun d => d.setBo n (d.padBo n + e)
    let d := d.when step (Dev.acqStep n e link)
    let e' := if absorbAll || step then 0 else e
    let d := (d.setPad n fun p => { p with first := false }).wr (PAD_STATE_FB_LOSS n) 0
    let d := d.setSel n fun s => { s with errs := (e' :: s.errs).take 16 }
    let d := if d.padSt n = 4 then d.steeredUpdate n
      else if step then d
      else if absorbAll then (d.filterUpdate n 0).when back (Dev.padDwell n 0)
      else (d.filterUpdate n e').padDwell n e'
    (d.padPull n).padFinish n e

/-- One skipped update (R107, R127). -/
def Dev.padSkip (n : Nat) (d : Dev) : Dev :=
  ((d.bump (PAD_SKIP_COUNT n)).evt (PAD_HIST_SKIP n)).padUnusable n

/-- The states in which reference timestamps make updates. -/
def Dev.padLive (d : Dev) (n : Nat) : Bool :=
  let st := d.padSt n
  d.measuring && d.flag (PAD_STATE_ACTIVE_V n) && (decide (st = 1) || decide (st = 2) || decide (st = 4))

/-- Feedback timestamp `f` lies at or after r - P/2 (R105). -/
def Dev.pairFrom (d : Dev) (n : Nat) (r : Int) (f : Nat) : Bool :=
  let p := d.padPeriod n
  decide (-(p.1 : Int) ≤ 2 * p.2 * ((f : Int) - r))

/-- Feedback timestamp `f` lies before r + P/2 (R107). -/
def Dev.pairTo (d : Dev) (n : Nat) (r : Int) (f : Nat) : Bool :=
  let p := d.padPeriod n
  decide (2 * p.2 * ((f : Int) - r) < p.1)

/-- PADDOCK_UPDATE: the oldest waiting reference timestamp is paired with the first feedback timestamp of its window and makes
its update, or is skipped (R105, R107); feedback up to the paired one is used up. -/
def Dev.padUpdate (n : Nat) (d : Dev) : Dev :=
  let p := d.pad n
  if ¬ d.padLive n ∨ d.padKind n = 1 ∨ d.padKind n = 3 then d
  else
    match p.refQ with
    | [] => d
    | (ts, absorb) :: rest =>
      let r : Int := ts + d.refShift n
      let later := p.fbQ.filter (d.pairFrom n r)
      match later.find? (d.pairTo n r) with
      | some f =>
        let d := d.setPad n fun p => { p with refQ := rest, fbQ := (later.dropWhile fun g => decide (g ≠ f)).tail }
        d.phaseUpdate n (f - r) absorb false
      | none =>
        let d := d.setPad n fun p => { p with refQ := rest, fbQ := later }
        (d.setBo n (d.padBo n - absorb)).padSkip n

/-- UPDATE_GAP_SKIP: a nominal update falls in a gap of the reference (R107). -/
def Dev.padGapSkip (n : Nat) (d : Dev) : Dev := if d.padLive n then d.padSkip n else d

/-- FEEDBACK_LOSS: feedback has been absent for more than 3 P, whatever the paddock's state (R107). [DEDUCED, log 50] -/
def Dev.padFbLoss (n : Nat) (d : Dev) : Dev :=
  if d.measuring ∧ (d.padKind n = 0 ∨ d.padKind n = 2) ∧ ¬ d.flag (PAD_STATE_FB_LOSS n) then
    (d.wr (PAD_STATE_FB_LOSS n) 1).padIdle n
  else d

/-- A beat-frequency error makes an update of a STEER paddock and advances its ports (07 R197, R198, R201). -/
def Dev.freqUpdate (n : Nat) (e : Int) (d : Dev) : Dev :=
  let d := (d.wr (PAD_PERR_ERR n) (twos 32 (satI 32 e))).bump (PAD_UPD_COUNT n)
  let d := d.setPad n fun p => { p with first := false }
  let keep := (d.pad n).integ
  let d := d.filterUpdate n e
  let tu := d.padTu n
  let r := (d.portsOf n).foldl (fun (r : Dev × Bool) k =>
    let q := r.1.portAdvance k (r.1.padWord n) tu.1 tu.2
    (q.1, r.2 || q.2)) (d, false)
  let d := r.1.when r.2 fun d => (d.setPad n fun p => { p with integ := keep }).padClamped n true
  (d.padDwell n e).padFinish n e

/-! ### STEERED inputs (R123) -/

/-- An SFO value is accepted (R123). -/
def Dev.acceptSfo (n : Nat) (v : Int) (d : Dev) : Dev :=
  if d.padSt n ≠ 4 then d
  else (d.setPad n fun p => { p with sfoPend := some v, steerFrom := d.clk.tclk }).padIdle n

/-- An SPO value is accepted (R123). -/
def Dev.acceptSpo (n : Nat) (v : Int) (d : Dev) : Dev :=
  if d.padSt n ≠ 4 then d
  else
    let d := d.setPad n fun p => { p with spoRem := p.spoRem + v * 2 ^ 32, steerFrom := d.clk.tclk }
    d.wr (PAD_STATE_SLEWING n) (b2n (decide ((d.pad n).spoRem ≠ 0)))

/-! ### Selection's effects on the paddock (R120; 05 R148, R154, R158) -/

/-- The channel of entry `i`. -/
def Dev.candCh (d : Dev) (n i : Nat) : Nat := d.rd (PAD_CAND_CFG_CH n i)

/-- The active reference index changes (05 R154); the timestamps queued for the old one are dropped. -/
def Dev.setActive (n : Nat) (new : Option Nat) (d : Dev) : Dev :=
  let d := (d.wr (PAD_SEL_STAT_ACT_V n) (b2n new.isSome)).wr (PAD_SEL_STAT_ACT_IDX n) (new.getD 0)
  let d := (d.wr (PAD_STATE_ACTIVE_V n) (b2n new.isSome)).wr (PAD_STATE_ACTIVE_CH n)
    (match new with | some i => d.candCh n i | none => 0)
  (d.setPad n fun p => { p with refQ := [] }).padUnusable n

/-- The build-out hold of a switch starts or restarts (05 R158). [DESIGN CHOICE, log 10] -/
def Dev.startHold (n : Nat) (d : Dev) : Dev :=
  let len := d.holdLen n
  let d := if d.flag (PAD_SEL_STAT_HOLDING n) then d
    else
      let es := (d.selOf n).errs
      let f := d.draw
      if es = [] then f.2.setSel n fun s => { s with refSum := Config.noErrors f.1, refN := 1 }
      else d.setSel n fun s => { s with refSum := es.sum, refN := es.length }
  let d := d.setSel n fun s => { s with raws := [], errs := [] }
  (d.wr (PAD_SEL_STAT_HOLDING n) 1).wr (PAD_SEL_STAT_HOLD_LEFT n) len

/-- The MODE_REQ in force on the present edge before an update changes it: hardware transitions go by it (R121). -/
def Dev.reqWas (d : Dev) (n : Nat) : Nat := d.oldRd (PAD_CTL_MODE_REQ n)

/-- Selection names another active reference, or none (05 R154, R158; 04 R119 to R121).  The loss of the active reference is no
switch: neither SWCNT nor SEL_EVT.SWITCH moves. [DESIGN CHOICE, log 194] -/
def Dev.onSelect (n : Nat) (old new : Option Nat) (d : Dev) : Dev :=
  match old, new with
  | none, none => d
  | none, some _ =>
    let d := (d.setActive n new).setSel n fun s => { s with errs := [], raws := [] }
    let st := d.padSt n
    if d.reqWas n = 0 ∧ (st = 0 ∨ st = 3) then d.enterAcquire n else d
  | some _, none =>
    let st := d.padSt n
    if st = 1 ∨ st = 2 then (d.padFall n).setActive n none else (d.setActive n none).padIdle n
  | some _, some _ =>
    let d := ((d.setActive n new).bump (PAD_SWCNT_COUNT n)).evt (PAD_SEL_EVT_SWITCH n)
    let st := d.padSt n
    if d.padKind n = 1 then d.setPad n fun p => { p with first := true }
    else if st = 1 ∨ st = 2 ∨ st = 4 then d.startHold n
    else d

/-- STRAY_GUARD follows the active reference (05 R148). -/
def Dev.setGuard (n : Nat) (stray : Bool) (d : Dev) : Dev :=
  (d.wr (PAD_STATE_STRAY_GUARD n) (b2n stray)).when stray (Dev.padUnusable n)

/-! ### The history second (R126, R127, R128) -/

/-- Level `lvl` forms its entry when its sixteenth child has completed (R126). [DEDUCED, log 63] -/
def Dev.formLevel (n lvl : Nat) (d : Dev) : Dev :=
  let s := d.clk.hsec
  if s % histSpan lvl ≠ 0 then d
  else
    let k := s / histSpan lvl - 1
    let kids : List (Int × Nat) := (List.range 16).map fun i =>
      if d.histStored n (lvl - 1) (16 * k + i) then d.histEntry n (lvl - 1) (16 * k + i) else (0, 0)
    let c := kids.foldl (fun (c : Nat) e => c + e.2) 0
    let a := kids.foldl (fun (a : Int) e => a + e.2 * e.1) 0
    d.setHist n lvl k (if c = 0 then 0 else divRound a c) c

/-- A paddock at the end of a history second, `hsec` being the seconds complete (R126, R127, R128). [DEDUCED, log 63] -/
def Dev.padSecond (n : Nat) (d : Dev) : Dev :=
  let p := d.pad n
  let a := if p.secUpd = 0 then d.padWord n else divRound p.secSum p.secUpd
  let d := d.setHist n 0 (d.clk.hsec - 1) a (b2n p.secUsable)
  let d := ((d.formLevel n 1).formLevel n 2).formLevel n 3
  let st := d.padSt n
  let d := d.setPad n fun p => { p with secSum := 0, secUpd := 0,
                                         secUsable := (decide (st = 2) || decide (st = 4)) && !d.padStray n && decide (d.mode ≠ .reset) }
  if st = 1 ∨ st = 2 then (d.computeH n).1 else d

/-! ### Image, resets and modes (R125) -/

/-- The starting state at the edge that applies an image: FREERUN with y = FR (R124, R125). [DEDUCED, log 65] -/
def Dev.padApply (n : Nat) (d : Dev) : Dev :=
  let keep := (d.pad n).histFrom
  let d := d.setPad n fun p => { Paddock.fresh with histFrom := keep, modelFrom := d.clk.tclk, egAt := d.clk.tclk,
                                                     learn := p.learn, learnSensor := p.learnSensor, learnHours := p.learnHours }
  let d := d.setWord (rPAD_STATE n) 0
  let t := d.padTarget n
  let d := d.setPad n fun p => { p with bNum := t.1, bDen := t.2 }
  d.setWordY n (d.padFr n)

/-- SLEEP entry (R125): a paddock that is in HOLDOVER stays there with its word (R128), or goes to FREERUN where a computation since
has found that word invalid. -/
def Dev.padsSleep (d : Dev) : Dev :=
  forN 16 (fun n d =>
    if d.padKind n = 3 then d
    else if d.padKind n < 2 ∧ d.padSt n = 3 then
      if d.flag (PAD_STATE_HOLD_VALID n) then d else d.enterFreerun n true
    else d.padFall n) d

/-- SLEEP exit: each paddock takes the state that AUTO chooses, whatever MODE_REQ holds (R125; 13 R356). [DEDUCED, log 56] -/
def Dev.padsWake (d : Dev) : Dev := forN 16 Dev.padAuto d

/-- Restart after a WARM or WDOG reset (R112, R124, R125); a STEERED one restarts in HOLDOVER, on the average it holds where the
computation is not valid. -/
def Dev.padWarm (n : Nat) (d : Dev) : Dev :=
  let st := d.padSt n
  if st = 1 ∨ st = 2 then
    let y := d.padWord n
    let d := if st = 2 then d.padTake n 1 else d
    let d := d.padHalt n
    let d := d.setPad n fun p => { p with integ := y * 2 ^ 32, first := true }
    (d.setBw n (d.padTarget n) 0 true).padUnusable n
  else if st = 4 then (d.computeH n).1.enterHoldover n
  else d.padIdle n

end Sys2Proof.Machine
end

