-- ==== Sys2Proof/Machine/SelectOps.lean ====
section
/-!
DEFINITION. Selection of references (chapter 05): the state of a candidate, the vote, the choice of the active entry, the
push-button step.
-/

namespace Sys2Proof.Machine

/-- The condition a link entry adds (08 R218): link UP, role FOLLOWER, same bellwether, one hop nearer. -/
def Dev.linkQual (d : Dev) (x : Nat) : Bool :=
  d.flag (PLINK_STAT_UP x) && decide (d.rd PAST_STAT_ROLE = 2) && (d.link x).nbBwV && d.flag PAST_STAT_BW_V &&
    decide ((d.link x).nbBw = d.rd PAST_STAT_BW_IDX) && decide (d.rd (PLINK_STAT_NB_HOPS x) + 1 = d.rd PAST_STAT_HOPS)

/-- The monitor state of the channel of an entry, as REF_n_STAT.STATE (R152, R153; 07 R196; 08 R218). [DEDUCED, log 73] -/
def Dev.chanState (d : Dev) (ch : Nat) : Nat :=
  if ch < 12 then d.refState ch
  else if ch < 20 then (if d.flag (BN_STAT_QUAL (ch - 12)) then 3 else 1)
  else if ¬ d.alive.contains ch then 1
  else if ch = 44 ∨ ch = 45 then (if d.linkQual (ch - 44) then 3 else 1)
  else 3

/-- An entry of a candidate table: channel, rank, locked out, monitor state (R151). -/
structure Entry where
  ch : Nat
  rank : Nat
  lockout : Bool
  st : Nat
  deriving DecidableEq, Repr

/-- The entry `i` of paddock `n`, if VALID. -/
def Dev.entry (d : Dev) (n i : Nat) : Option Entry :=
  if d.flag (PAD_CAND_CFG_VALID n i) then
    let ch := d.candCh n i
    some { ch := ch, rank := d.rd (PAD_CAND_CFG_RANK n i), lockout := d.flag (PAD_CAND_CFG_LOCKOUT n i), st := d.chanState ch }
  else none

/-- An entry that is VALID, not locked out and whose monitor is QUAL. -/
def Dev.entryQual (d : Dev) (n i : Nat) : Bool := (d.entry n i).any fun e => !e.lockout && decide (e.st = 3)

/-- An entry that is VALID, not locked out and whose monitor is QUAL or STRAY (R155). -/
def Dev.entryUsable (d : Dev) (n i : Nat) : Bool :=
  (d.entry n i).any fun e => !e.lockout && (decide (e.st = 3) || decide (e.st = 4))

/-- The rank of an entry. -/
def Dev.entryRank (d : Dev) (n i : Nat) : Nat := d.rd (PAD_CAND_CFG_RANK n i)

/-- The active entry of a paddock. -/
def Dev.activeEntry (d : Dev) (n : Nat) : Option Nat :=
  if d.flag (PAD_SEL_STAT_ACT_V n) then some (d.rd (PAD_SEL_STAT_ACT_IDX n)) else none

/-- The lowest rank among the entries that satisfy `p`. -/
def Dev.bestRank (d : Dev) (n : Nat) (p : Nat → Bool) : Option Nat :=
  ((List.range 8).filter p).foldl (fun b i =>
    match b with | none => some (d.entryRank n i) | some r => some (min r (d.entryRank n i))) none

/-! ### The vote (R157) -/

/-- FOFF of a reference. -/
def Dev.foff (d : Dev) (c : Nat) : Int := d.rdS (REF_FOFF_FOFF c)

/-- The entries of the best rank with a FOFF result, judged without VOTED_OUT. -/
def Dev.voteField (d : Dev) (n : Nat) : List Nat :=
  match d.bestRank n (d.entryQual n) with
  | none => []
  | some r => (List.range 8).filter fun i =>
      d.entryQual n i && decide (d.entryRank n i = r) && decide (d.candCh n i < 12) && d.flag (REF_STAT_FM_VALID (d.candCh n i))

/-- Two entries disagree (R157). -/
def Dev.disagree (d : Dev) (n i j : Nat) : Bool :=
  decide (100 * max 1 (d.rd (PAD_VOTE_VOTE_THR n)) < (d.foff (d.candCh n i) - d.foff (d.candCh n j)).natAbs)

/-- The disputants of a vote; none where no vote is held. -/
def Dev.disputants (d : Dev) (n : Nat) : List Nat :=
  let f := d.voteField n
  if f.any fun i => f.any fun j => d.disagree n i j then f else []

/-- The voters that are no disputants: QUAL references with VOTER 1. -/
def Dev.otherVoters (d : Dev) (n : Nat) (disp : List Nat) : List Nat :=
  (List.range 12).filter fun c =>
    !(disp.any fun i => decide (d.candCh n i = c)) && decide (d.refState c = 3) && d.flag (REF_CFG_VOTER c) &&
      d.flag (REF_STAT_FM_VALID c)

/-- The offsets of every voter; OCXOIN votes with 0 while it is the base. -/
def Dev.voterOffsets (d : Dev) (n : Nat) (disp : List Nat) : List Int :=
  (disp.map fun i => d.foff (d.candCh n i)) ++ (d.otherVoters n disp).map d.foff ++
    (if d.flag REF_OCXO_STAT_BASE then [] else [0])

/-- The score of a disputant. -/
def Dev.score (d : Dev) (n : Nat) (disp : List Nat) (i : Nat) : Nat :=
  ((d.voterOffsets n disp).filter fun v =>
    decide ((v - d.foff (d.candCh n i)).natAbs ≤ 100 * max 1 (d.rd (PAD_VOTE_VOTE_THR n)))).length

/-- No win in rank `br` can change the active entry: manual selection, a stray kept, or a non-revertive stay on another
rank (R149, R154, R155). [DEDUCED, log 70] -/
def Dev.voteBound (d : Dev) (n br : Nat) : Bool :=
  let manual := decide (d.rd (PAD_SEL_SEL_MODE n) = 1) &&
    (d.entryUsable n (d.rd (PAD_SEL_MAN_IDX n)) || !d.flag (PAD_SEL_MAN_FB n))
  manual ||
    match d.activeEntry n with
    | none => false
    | some a =>
      match d.entry n a with
      | some e => !e.lockout && ((decide (e.st = 4) && decide (e.rank < br)) ||
          (decide (e.st = 3) && decide (e.rank ≠ br) && !d.flag (PAD_SEL_REVERT n)))
      | none => false

/-- VOTED_OUT marks as the listed entries. -/
def Dev.markOut (n : Nat) (out : List Nat) (d : Dev) : Dev :=
  forN 8 (fun i d => d.wr (PAD_CAND_STAT_VOTED_OUT n i) (b2n (out.contains i))) d

/-- RANK_SPLIT as a live condition of paddock `n`. -/
def Dev.setSplit (n : Nat) (on : Bool) (d : Dev) : Dev :=
  let was := d.flag (PAD_SEL_STAT_RANK_SPLIT n)
  let d := (d.wr (PAD_SEL_STAT_RANK_SPLIT n) (b2n on)).evtIf (on && !was) (PAD_SEL_EVT_RANK_SPLIT n)
  let low := ((List.range 16).find? fun k => d.flag (PAD_SEL_STAT_RANK_SPLIT k)).getD n
  d.level 28 n low on

/-- The vote of a paddock is taken again where a voter has a new result or the disputants have changed (R157).
[DEDUCED, log 70] -/
def Dev.votePad (n : Nat) (fresh : List Nat) (d : Dev) : Dev :=
  let disp := d.disputants n
  let s := d.selOf n
  if disp = [] then
    let d := if s.seen = [] then d
      else forN 8 (fun i d => d.wr (PAD_CAND_STAT_SCORE n i) 0) (d.markOut n [])
    let d := d.setSel n fun s => { s with target := none, waiting := none, group := [], seen := [] }
    if d.flag (PAD_SEL_STAT_RANK_SPLIT n) then d.setSplit n false else d
  else
    let isVoter := fun c => (disp.any fun i => decide (d.candCh n i = c)) || (d.otherVoters n disp).contains c || c = 12
    if decide (disp = s.seen) && !(fresh.any isVoter) then d
    else
      let d := d.setSel n fun s => { s with seen := disp }
      let voters := (d.voterOffsets n disp).length
      let sc := d.score n disp
      let top := disp.foldl (fun m i => max m (sc i)) 0
      let tied := disp.filter fun i => decide (sc i = top)
      let d := forN 8 (fun i d => d.wr (PAD_CAND_STAT_SCORE n i) (if disp.contains i then min 15 (sc i) else 0)) d
      let act := d.activeEntry n
      match decide (3 ≤ voters), tied with
      | true, [w] =>
        let changes := act.isSome && decide (act ≠ some w) && !d.voteBound n (d.entryRank n w)
        if changes && decide (s.waiting ≠ some w) then d.setSel n fun s => { s with waiting := some w }
        else
          let d := d.markOut n (disp.filter fun i => d.disagree n i w)
          let d := d.setSel n fun s => { s with target := some w, waiting := none, group := [] }
          d.setSplit n false
      | three, _ =>
        let grp := if three then tied else disp
        let out := if three then disp.filter fun i => !tied.contains i && tied.all fun t => d.disagree n i t else []
        let tgt := match act with | some a => if grp.contains a then some a else grp.head? | none => grp.head?
        let d := d.markOut n out
        let d := d.setSel n fun s => { s with target := tgt, waiting := none, group := grp }
        d.setSplit n true

/-! ### Selection (R149, R152, R154, R155) -/

/-- An entry is eligible (R152). -/
def Dev.elig (d : Dev) (n i : Nat) : Bool := d.entryQual n i && !d.flag (PAD_CAND_STAT_VOTED_OUT n i)

/-- The active entry may be kept although a stray (R152). [DEDUCED, log 72] -/
def Dev.keepStray (d : Dev) (n i : Nat) : Bool := (d.entry n i).any fun e => !e.lockout && decide (e.st = 4)

/-- The choice of R154: the entry, whether MANUAL has fallen back, whether the vote named it. [DEDUCED, log 72] -/
def Dev.choose (d : Dev) (n : Nat) : Option Nat × Bool × Bool :=
  let act := d.activeEntry n
  let man := d.rd (PAD_SEL_MAN_IDX n)
  let manual := decide (d.rd (PAD_SEL_SEL_MODE n) = 1)
  if manual && d.entryUsable n man then (some man, false, false)
  else if manual && !d.flag (PAD_SEL_MAN_FB n) then (none, false, false)
  else
    let s := d.selOf n
    let best := d.bestRank n (d.elig n)
    let tgt := match act with
      | some a => if d.flag (PAD_SEL_STAT_RANK_SPLIT n) && s.group.contains a then some a else s.target
      | none => s.target
    let tgt := tgt.filter fun t => d.elig n t && decide (best = some (d.entryRank n t))
    let stay := act.any fun a => d.keepStray n a && (match best with | none => true | some b => decide (d.entryRank n a < b))
    let hold := act.any fun a => d.elig n a && !d.flag (PAD_SEL_REVERT n) && decide (best ≠ some (d.entryRank n a))
    if stay || hold then (act, manual, false)
    else
      match best with
      | none => (none, manual, false)
      | some b =>
        match tgt with
        | some t => (some t, manual, act.any fun a => d.entryQual n a && decide (d.entryRank n a = b))
        | none =>
          let grp := (List.range 8).filter fun i => d.elig n i && decide (d.entryRank n i = b)
          match act with
          | some a => (if grp.contains a then act else grp.head?, manual, false)
          | none => (grp.head?, manual, false)

/-- CAND_i_STAT of a paddock's entries (ELIG, REFSTATE). [DEDUCED, log 71] -/
def Dev.publishCands (n : Nat) (d : Dev) : Dev :=
  forN 8 (fun i d =>
    let st := match d.entry n i with | some e => e.st | none => 0
    (d.wr (PAD_CAND_STAT_ELIG n i) (b2n (d.elig n i))).wr (PAD_CAND_STAT_REFSTATE n i) st) d

/-- Selection of one paddock (R154); `fresh`: the monitors that have a new FOFF result. [DEDUCED, log 71] -/
def Dev.selectPad (n : Nat) (fresh : List Nat) (d : Dev) : Dev :=
  if d.padKind n = 3 ∨ ¬ d.applied then d
  else
    let d := d.votePad n fresh
    let old := d.activeEntry n
    let c := d.choose n
    let d := d.evtIf (c.2.1 && !d.flag (PAD_SEL_STAT_MANUAL_FB n)) (PAD_SEL_EVT_MAN_FB n)
    let d := d.wr (PAD_SEL_STAT_MANUAL_FB n) (b2n c.2.1)
    let d := if c.1 = old then d
      else (d.onSelect n old c.1).evtIf (c.2.2 && old.isSome && c.1.isSome) (PAD_SEL_EVT_VOTE n)
    let stray := match c.1 with | some a => (d.entry n a).any fun e => decide (e.st = 4) | none => false
    (d.setGuard n stray).publishCands n

/-- Selection is evaluated at an edge at which one of its inputs changes (R146, R154). [DEDUCED, log 71] -/
def Dev.select (d : Dev) : Dev :=
  let fresh := d.selNow.getD []
  forN 16 (fun n d => d.selectPad n fresh) { d with selNow := none }

/-- Selection where the present edge has asked for it; what else the edge leaves to its end still comes. -/
def Dev.settleSelect (d : Dev) : Dev := d.when d.selNow.isSome fun d => d.select.askSelect none

/-- The updates of an edge come after a loss of the active reference on it, and an edge on which one has changed a paddock's state
is over: nothing that selection judges falls on it any more (04 R121). [DESIGN CHOICE, log 19] -/
def Dev.afterLoss (f : Dev → Dev) (d : Dev) : Dev :=
  let e := f d.settleSelect
  if d.selNow.isSome || (List.range 16).any fun n => decide (e.padSt n ≠ d.padSt n) then e.closeEdge else e

/-- A debounced press steps a paddock's manual reference from the result of what has applied on its edge (R156). -/
def Dev.buttonStep (n : Nat) (d : Dev) : Dev :=
  let from_ := if d.rd (PAD_SEL_SEL_MODE n) = 1 then d.rd (PAD_SEL_MAN_IDX n) + 1 else 0
  let next := (List.range 8).find? fun i => decide (from_ ≤ i) && d.entryUsable n i
  match next with
  | some i => (d.wrBoth (PAD_SEL_SEL_MODE n) 1).wrBoth (PAD_SEL_MAN_IDX n) i
  | none => d.wrBoth (PAD_SEL_SEL_MODE n) 0

/-- A press is debounced on the present edge: PB sets, and the step is taken once every update of the edge is known (R156). -/
def Dev.buttonPress (n : Nat) (d : Dev) : Dev :=
  (d.setSel n fun s => { s with presses := s.presses + 1 }).evt (PAD_SEL_EVT_PB n)

/-- The presses of the edge take their steps. -/
def Dev.buttonSteps (d : Dev) : Dev :=
  forN 16 (fun n d =>
    let k := (d.selOf n).presses
    d.when (decide (k ≠ 0)) fun d => forN k (fun _ d => d.buttonStep n) (d.setSel n fun s => { s with presses := 0 })) d

/-- MODE_REQ of every paddock that has changed on the edge is judged, against the state that every hardware transition of the edge
has led to (04 R120, R121); the application of an image asks anew, whatever the word was (09 R246). -/
def Dev.modeHooks (d : Dev) : Dev :=
  forN 16 (fun n d =>
    let was := if d.boot.appliedAt = some d.clk.edge then 0 else d.reqWas n
    d.when (decide (was ≠ d.rd (PAD_CTL_MODE_REQ n))) (Dev.modeReq n was)) d

end Sys2Proof.Machine
end

