-- ==== Sys2Proof/Machine/SteerOps.lean ====
section
/-!
DEFINITION. Beat-note monitors and the gates of the STEER paddocks (chapter 07).
-/

namespace Sys2Proof.Machine

/-- BN_n_STAT.QUAL follows the causes (R196); selection sees it (05 R153). -/
def Dev.beatQual (b : Nat) (d : Dev) : Dev :=
  (d.wr (BN_STAT_QUAL b) (b2n (d.flag (BN_CFG_STEER_V b) && decide (d.rd ⟨rBN_STAT b, 3, 0⟩ = 0)))).askSelect none

/-- A cause sets: its event and BEAT_DISQ (R196). `c`: 0 NO_EDGE, 1 LOS, 2 RANGE, 3 JUMP. -/
def Dev.beatSet (b c : Nat) (d : Dev) : Dev :=
  if ¬ d.flag (BN_CFG_STEER_V b) ∨ d.flag ⟨rBN_STAT b, c, c⟩ then d
  else (((d.wr ⟨rBN_STAT b, c, c⟩ 1).evt ⟨rBN_EVT b, c, c⟩).fire 32 b).beatQual b

/-- A cause clears. -/
def Dev.beatClear (b c : Nat) (d : Dev) : Dev :=
  if d.flag (BN_CFG_STEER_V b) then (d.wr ⟨rBN_STAT b, c, c⟩ 0).beatQual b else d

/-- The monitors of the listed inputs start with no cause (R196). -/
def Dev.beatsStart (d : Dev) : Dev :=
  forN 8 (fun b d => ((d.setBeat b fun _ => Beat.fresh).setWord (rBN_STAT b) 0).beatQual b) d

/-- The prescaler ratio of an input (R195). -/
def Dev.beatPre (d : Dev) (b : Nat) : Nat := 8 ^ d.rd (BN_CFG_PRE b)

/-- A gate's frequency in 2^-8 Hz, half away from zero (R197). -/
def Dev.gateFreq (d : Dev) (b span : Nat) : Nat :=
  (divRound ((d.beatPre b * d.rd (MCH_DEC_DEC (12 + b)) * 65536 * 1000000000 * 256 : Nat) : Int) span).toNat

/-- A gate's frequency as BN_n_FREQ reads it, in units of 2 Hz. -/
def Dev.gateFreq2 (d : Dev) (b span : Nat) : Nat :=
  min (2 ^ 32 - 1)
    (divRound ((d.beatPre b * d.rd (MCH_DEC_DEC (12 + b)) * 65536 * 1000000000 : Nat) : Int) (2 * span : Nat)).toNat

/-- A gate result against RANGE and JUMP (R196). -/
def Dev.beatJudge (b f : Nat) (d : Dev) : Dev :=
  let m := d.beat b
  let inside := decide (256000 * d.rdIn (BN_FMIN_F b) 10000 8000000 ≤ f) && decide (f ≤ 256000 * d.rdIn (BN_FMAX_F b) 10000 8000000)
  let jump := m.lastF.any fun g => decide (256000 * max 1 (d.rd (BN_JUMP_JUMP_THR b)) < ((f : Int) - g).natAbs)
  let d := d.setBeat b fun m => { m with
    lastF := some f
    outCnt := if inside then 0 else m.outCnt + 1
    inCnt := if inside then m.inCnt + 1 else 0
    clean := if inside && !jump then m.clean + 1 else 0 }
  let m := d.beat b
  let d := d.when (decide (2 ≤ m.outCnt)) (Dev.beatSet b 2)
  let d := d.when jump (Dev.beatSet b 3)
  let d := d.when (decide (2 ≤ m.inCnt)) (Dev.beatClear b 2)
  d.when (decide (d.rdIn (BN_JUMP_JUMP_CLR b) 1 255 ≤ m.clean)) (Dev.beatClear b 3)

/-- TEFF of a port for input `b`, with its limit (R199). -/
def Dev.portTeff (k b : Nat) (d : Dev) : Dev :=
  let t := d.teffIn k b
  (d.wr48 (STEER_TEFF_LO_VALUE k) (STEER_TEFF_HI_VALUE k) t).evtIf (decide (t ≠ d.teffRaw k)) (STEER_EVT_TGT_LIM k)

/-- TEFF of every port in the plan at a G6 update, for its paddock's active entry (R199). -/
def Dev.teffAll (d : Dev) : Dev :=
  forN 8 (fun k d =>
    if d.flag (STEER_CFG_USED k) then
      let n := d.rd (STEER_CFG_PAD k)
      if d.flag (PAD_STATE_ACTIVE_V n) then d.portTeff k (d.rd (PAD_STATE_ACTIVE_CH n) - 12)
      else d.wr48 (STEER_TEFF_LO_VALUE k) (STEER_TEFF_HI_VALUE k) (d.teffRaw k)
    else d) d

/-- The port of a STEER paddock. -/
def Dev.portFor (d : Dev) (n : Nat) : Option Nat := (d.portsOf n).head?

/-- The gate between two timestamps of input `b` serves the paddock that follows it (R197, R198). [DEDUCED, log 89] -/
def Dev.gateUpdate (n b f : Nat) (d : Dev) : Dev :=
  match d.portFor n with
  | some k =>
    let d := d.portTeff k b
    d.freqUpdate n ((f : Int) - (d.rd48 (STEER_TEFF_LO_VALUE k) (STEER_TEFF_HI_VALUE k) : Nat))
  | none => d.freqUpdate n f

/-- STEER_GATE_UPDATE: the oldest waiting timestamp of BNIN_b closes a gate and opens the next (R196, R197).  A gate that is
too long makes no update; UPDATE_GAP_SKIP counts what falls in it (04 R107).
[DEDUCED, log 89] -/
def Dev.steerGate (b : Nat) (d : Dev) : Dev :=
  match (d.beat b).queue with
  | [] => d
  | t :: rest =>
    let prev := (d.beat b).lastTs
    let d := d.setBeat b fun m => { m with queue := rest, lastTs := some t }
    if ¬ d.flag (BN_CFG_STEER_V b) ∨ ¬ d.measuring then d
    else
      let n := d.rd (BN_CFG_PAD b)
      let mine := d.padLive n && decide (d.padKind n = 1) && decide (d.rd (PAD_STATE_ACTIVE_CH n) = 12 + b)
      let opening := (d.pad n).first
      let d := d.when (mine && opening) fun d => d.setPad n fun p => { p with first := false }
      match prev with
      | none => d
      | some s =>
        let span := t - s
        let p := d.spacing (12 + b)
        if 3 * p.1 < 2 * span * p.2 ∨ span = 0 then d
        else
          let f := d.gateFreq b span
          let d := d.wr (BN_FREQ_FREQ b) (d.gateFreq2 b span)
          let d := d.when (mine && !opening) (Dev.gateUpdate n b f)
          d.beatJudge b f

/-- STEER_ACC_TICK: in HOLDOVER and FREERUN the port advances A once every t_u (R201). -/
def Dev.accTick (k : Nat) (d : Dev) : Dev :=
  let n := d.rd (STEER_CFG_PAD k)
  let st := d.padSt n
  if d.flag (STEER_CFG_USED k) ∧ (st = 3 ∨ st = 0) then
    let tu := d.padTu n
    let r := d.portAdvance k (d.padWord n) tu.1 tu.2
    r.1.padClamped n r.2
  else d

end Sys2Proof.Machine
end

