-- ==== Sys2Proof/Machine/PastOps.lean ====
section
/-!
DEFINITION. Pastures (chapter 08): links, markers and the offset arithmetic, HELLO and the election, notices, remote
access as its requester.  Strobes, musters and remote requests received are in HostOps, which applies them.
-/

namespace Sys2Proof.Machine

/-- A frame of SRC is ignored: this device's own INDEX has been heard on a link (R220). -/
def Dev.ignoresSrc (d : Dev) (src : Nat) : Bool := d.past.dup && decide (src = d.pastIndex)

/-- A neighbour-only frame on a link is ignored: the neighbour there bears this device's own INDEX (R220). -/
def Dev.ignoresNear (d : Dev) (x : Nat) : Bool := d.past.dupOn.contains x

/-- A valid frame is accepted on a link. -/
def Dev.countFrame (x : Nat) (d : Dev) : Dev := d.bump (PLINK_FRAMES_COUNT x)

/-- A frame that is not neighbour-only: accepted unless a duplicate, and forwarded (R213).  Answers whether it is accepted.
A link in sync that is not UP yet
receives them too. [DEDUCED, log 91] -/
def Dev.acceptFrame (x type dst src hops fseq : Nat) (payload : List Nat) (d : Dev) : Dev × Bool :=
  if (¬ d.linkUp x ∧ ¬ d.flag (PLINK_STAT_SYNC x)) ∨ d.ignoresSrc src ∨ (d.past.seen.getD src []).contains fseq then (d, false)
  else
    let d := { d with past := { d.past with seen := updAt d.past.seen src fun l => (fseq :: l).take 16 } }
    let d := d.countFrame x
    let d := if dst ≠ d.pastIndex ∧ 0 < hops ∧ src ≠ d.pastIndex then d.sendOn (1 - x) type dst src (hops - 1) fseq payload else d
    (d, true)

/-! ### Link states (R214) -/

/-- A link goes DOWN (R214). -/
def Dev.linkDown (x : Nat) (d : Dev) : Dev :=
  let was := d.linkUp x
  let d := ((d.wr (PLINK_STAT_UP x) 0).wr (PLINK_STAT_NB_V x) 0).wr (PLINK_STAT_ASYM_MM x) 0
  let d := d.setLink x fun l => { l with hellos := 0, beaconAt := none, nbBwV := false }
  if was then ((d.evt (PLINK_EVT_DOWN x)).fire 34 x).askSelect none else d

/-- Code-group sync is gained (R214). -/
def Dev.syncGain (x : Nat) (d : Dev) : Dev :=
  if d.flag (PLINK_CTL_ENABLE x) ∧ d.running then
    (d.wr (PLINK_STAT_SYNC x) 1).setLink x fun l => { l with hellos := 0 }
  else d

/-- Sync or signal is lost (R214). -/
def Dev.syncLoss (x : Nat) (d : Dev) : Dev := (d.wr (PLINK_STAT_SYNC x) 0).linkDown x

/-- A frame is discarded (R212). -/
def Dev.discard (x : Nat) (d : Dev) : Dev :=
  if d.flag (PLINK_STAT_SYNC x) then
    let d := (d.bump (PLINK_CRC_CNT_COUNT x)).evt (PLINK_EVT_CRC x)
    if d.linkUp x then d else d.setLink x fun l => { l with hellos := 0 }
  else d

/-! ### HELLO (R212, R217, R220) -/

/-- A HELLO is sent on every UP link; the bellwether increments BEACON in each (R220). -/
def Dev.sendHello (d : Dev) : Dev :=
  let role := d.rd PAST_STAT_ROLE
  let d := if role = 3 then d.bump PAST_STAT_BEACON
    else if role = 2 then d.wr PAST_STAT_BEACON (d.link (d.rd PAST_STAT_FL)).nbBeacon else d
  let body := fun (x : Nat) =>
    [d.rd PAST_CFG_PRIO + 16 * d.rd PAST_STAT_ELIG + 32 * role,
     d.rd PAST_STAT_BW_IDX + 8 * d.rd PAST_STAT_BW_V + 16 * d.rd PAST_STAT_HOPS] ++
    bytesN 2 (d.rd PAST_STAT_BEACON) ++ bytesN 4 (d.rd (PLINK_ASYM_ASYM x)) ++
    [d.underMode.code, d.rd PAST_STAT_FL_V + 2 * d.rd PAST_STAT_FL]
  (d.sendNear 0 3 (body 0)).sendNear 1 3 (body 1)

/-- The device is ELIG (R220); a WARM or WDOG pulse changes nothing of it (R227). -/
def Dev.eligNow (d : Dev) : Bool :=
  d.underMode = .run && (List.range 16).any fun n =>
    d.padTk n && (decide (d.padSt n = 2) || decide (d.padSt n = 4) || (decide (d.padSt n = 3) && d.flag (PAD_STATE_HOLD_VALID n)))

/-- ELIG follows the mode and the time keeper; a HELLO goes out at once when it changes (R220). [DEDUCED, log 93] -/
def Dev.settleElig (d : Dev) : Dev :=
  if d.flag PAST_CFG_USED && decide (d.eligNow ≠ d.flag PAST_STAT_ELIG) then
    (d.wr PAST_STAT_ELIG (b2n d.eligNow)).sendHello
  else d

/-- The neighbour's ASYM, as its last HELLO gave it, is judged against this device's own (R217). -/
def Dev.judgeAsym (x : Nat) (d : Dev) : Dev :=
  let mm := decide (1 < ((d.link x).nbAsym + d.rdS (PLINK_ASYM_ASYM x)).natAbs)
  (d.evtIf (mm && !d.flag (PLINK_STAT_ASYM_MM x)) (PLINK_EVT_ASYM_MM x)).wr (PLINK_STAT_ASYM_MM x) (b2n mm)

/-- A valid HELLO arrives (R214, R217, R220). -/
def Dev.helloRx (x src : Nat) (h : Hello) (d : Dev) : Dev :=
  if ¬ d.flag (PLINK_STAT_SYNC x) then d
  else if src = d.pastIndex then
    let d := { d with past := { d.past with dup := true, dupOn := if d.past.dupOn.contains x then d.past.dupOn else x :: d.past.dupOn } }
    (d.evt PAST_EVT_DUP_INDEX).fire 35 src
  else
    let d := { d with past := { d.past with dupOn := d.past.dupOn.filter fun y => decide (y ≠ x) } }
    let d := d.countFrame x
    let l := d.link x
    let advanced := h.bwV && (!l.nbBwV || decide (l.nbBw ≠ h.bw) || decide (l.nbBeacon ≠ h.beacon))
    let d := d.setLink x fun l => { l with
      hellos := min 3 (l.hellos + 1), nbPrio := h.prio, nbBwV := h.bwV, nbBw := h.bw, nbBeacon := h.beacon
      nbElig := h.elig, nbAsym := h.asym, nbMode := h.mode, nbFollow := h.follow
      beaconAt := if advanced then some d.clk.tclk else l.beaconAt }
    let d := ((d.wr (PLINK_STAT_NB_V x) 1).wr (PLINK_STAT_NB_IDX x) src).wr (PLINK_STAT_NB_ROLE x) h.role
    let d := d.wr (PLINK_STAT_NB_HOPS x) h.hops
    let d := d.judgeAsym x
    let up := decide (3 ≤ (d.link x).hellos) && !d.linkUp x
    let d := d.when up fun d => (d.wr (PLINK_STAT_UP x) 1).evt (PLINK_EVT_UP x)
    d.askSelect none

/-- HELLO_PER in TCLK periods. -/
def Dev.helloPer (d : Dev) : Nat := d.rdIn ⟨rPAST_TIMER, 15, 0⟩ 1 1000 * usTclk

/-- HELLO_TMO in periods. -/
def Dev.helloTmo (d : Dev) : Nat := d.rdIn ⟨rPAST_TIMER, 31, 24⟩ 2 255

/-- Links that name a current bellwether other than this device (R220). [DEDUCED, log 93] -/
def Dev.heardLinks (d : Dev) : List Nat :=
  [0, 1].filter fun x =>
    let l := d.link x
    d.linkUp x && l.nbBwV && decide (l.nbBw ≠ d.pastIndex) &&
      (match l.beaconAt with
       | some t => decide (d.clk.tclk - t ≤ (d.helloTmo + 8) * d.helloPer)
       | none => false)

/-- PRIO of the device of an index, where a neighbour of that index has sent it on a link that is UP (R212). -/
def Dev.prioHeard (d : Dev) (idx : Nat) : Option Nat :=
  ([0, 1].find? fun y => d.linkUp y && decide (d.rd (PLINK_STAT_NB_IDX y) = idx)).map fun y => (d.link y).nbPrio

/-- (PRIO, INDEX) of the bellwether a link names: PRIO as that bellwether's own HELLO gives it, on this link or the other
(R212). [DESIGN CHOICE, log 11] -/
def Dev.bwPair (d : Dev) (x : Nat) : Nat × Nat :=
  let bw := (d.link x).nbBw
  ((d.prioHeard bw).getD (Config.unknownPrio bw % 16), bw)

/-- Lexicographic order of (PRIO, INDEX) (R220). -/
def pairLt (a b : Nat × Nat) : Bool := decide (a.1 < b.1) || (decide (a.1 = b.1) && decide (a.2 < b.2))

/-- The device takes the role BELLWETHER (R220, R222). -/
def Dev.becomeBellwether (d : Dev) : Dev :=
  let former := d.rd PAST_STAT_BW_IDX
  let d := ((d.wr PAST_STAT_ROLE 3).wr PAST_STAT_BW_V 1).wr PAST_STAT_BW_IDX d.pastIndex
  let d := ((d.wr PAST_STAT_HOPS 0).wr PAST_STAT_FL_V 0).wr PAST_STAT_FL 0
  (((d.evt PAST_EVT_TAKEOVER).bump PAST_TAKEOVERS_COUNT).cntAdd 4 1).fire 36 former

/-- The device becomes CANDIDATE with no current bellwether; its wait starts (R220). -/
def Dev.becomeCandidate (d : Dev) : Dev :=
  let d := ((d.wr PAST_STAT_ROLE 1).wr PAST_STAT_BW_V 0).wr PAST_STAT_FL_V 0
  { d with past := { d.past with waitFrom := d.clk.tclk } }

/-- The election at a HELLO period (R220). [DEDUCED, log 93] -/
def Dev.elect (d : Dev) : Dev :=
  let heard := d.heardLinks
  let me := (d.rd PAST_CFG_PRIO, d.pastIndex)
  let elig := d.eligNow
  if d.rd PAST_STAT_ROLE = 3 then
    if ¬ elig ∨ heard.any fun x => pairLt (d.bwPair x) me then d.becomeCandidate.evt PAST_EVT_YIELD else d
  else
    match heard with
    | [] =>
      let d := if d.rd PAST_STAT_ROLE = 2 then d.becomeCandidate.evt PAST_EVT_BW_LOST else d
      if elig ∧ (8 * me.1 + me.2) * d.helloPer ≤ d.clk.tclk - d.past.waitFrom then d.becomeBellwether else d
    | x :: xs =>
      let best := xs.foldl (fun b y => if pairLt (d.bwPair y) (d.bwPair b) then y else b) x
      let bw := d.bwPair best
      let naming := heard.filter fun y => decide ((d.link y).nbBw = bw.2)
      let hops := naming.foldl (fun h y => min h (d.rd (PLINK_STAT_NB_HOPS y))) 7
      let fl := (naming.find? fun y => decide (d.rd (PLINK_STAT_NB_HOPS y) = hops)).getD best
      if d.flag PAST_CFG_PREEMPT ∧ elig ∧ pairLt me bw then d.becomeBellwether
      else
        let d := ((d.wr PAST_STAT_ROLE 2).wr PAST_STAT_BW_V 1).wr PAST_STAT_BW_IDX bw.2
        let d := ((d.wr PAST_STAT_HOPS (hops + 1)).wr PAST_STAT_FL_V 1).wr PAST_STAT_FL fl
        { d with past := { d.past with bwPrio := bw.1 } }

/-- HELLO_PERIOD: the election, then a HELLO on every UP link (R220), through a WARM or WDOG pulse too (R227). -/
def Dev.helloPeriod (d : Dev) : Dev :=
  if ¬ d.flag PAST_CFG_USED ∨ ¬ d.running ∨ d.rd PAST_STAT_ROLE = 0 then d
  else ((d.elect).askSelect none).sendHello

/-- The pasture starts at the edge that applies an image: links DOWN, role CANDIDATE (R227). -/
def Dev.pastStart (d : Dev) : Dev :=
  let d := { d with past := { Past.fresh with waitFrom := d.clk.tclk } }
  if d.flag PAST_CFG_USED then d.wr PAST_STAT_ROLE 1 else d

/-! ### Markers and exchanges (R215, R216, R219) -/

/-- A marker time among the kept four. -/
def keepMark (m : MarkTime) (l : List MarkTime) : List MarkTime := (m :: l).take 4

/-- The time of a kept marker. -/
def findMark (l : List MarkTime) (mseq : Nat) : Option Nat := (l.find? fun m => decide (m.mseq = mseq)).map fun m => m.ts

/-- A delivered timestamp of a link's channel (R215, R216): an arrival is kept; a launch is kept and sent in a TS frame
with the latest arrival. [DEDUCED, log 90] -/
def Dev.linkStamp (x tag mseq ts : Nat) (d : Dev) : Dev :=
  if tag = 2 then d.setLink x fun l => { l with arrivals := keepMark { mseq := mseq, ts := ts } l.arrivals }
  else if tag = 1 then
    let d := d.setLink x fun l => { l with launches := keepMark { mseq := mseq, ts := ts } l.launches }
    let arr := (d.link x).arrivals.head?.getD { mseq := 0, ts := 0 }
    d.sendNear x 2 (tsBytes ts ++ bytesN 2 mseq ++ tsBytes arr.ts ++ bytesN 2 arr.mseq)
  else d

/-- A TS frame arrives: the exchange of R216, and the updates of the paddocks that follow the link (R219). -/
def Dev.tsRx (x launch mL arrival mA : Nat) (d : Dev) : Dev :=
  if ¬ d.linkUp x ∨ d.ignoresNear x then d
  else
    let d := d.countFrame x
    match findMark (d.link x).arrivals mL, findMark (d.link x).launches mA with
    | some ar, some la =>
      let a : Int := (ar : Int) - launch
      let b : Int := (arrival : Int) - la
      let theta := divRound (a - b + d.rdS (PLINK_ASYM_ASYM x)) 2
      let d := d.wr48 (PLINK_OFF_LO_OFF x) (PLINK_OFF_HI_OFF x) theta
      let d := d.wr48 (PLINK_RTT_LO_RTT x) (PLINK_RTT_HI_RTT x) (a + b)
      forN 16 (fun n d =>
        if d.padLive n ∧ (d.padKind n = 0 ∨ d.padKind n = 2) ∧ d.rd (PAD_STATE_ACTIVE_CH n) = 44 + x then
          d.phaseUpdate n theta 0 true
        else d) d
    | _, _ => (d.bump (PLINK_MLOST_COUNT x)).evt (PLINK_EVT_MLOST x)

/-! ### Notices and remote access (R225, R226) -/

/-- A NOTICE is received (R225). -/
def Dev.noticeRx (x src dst hops fseq fsrc sev : Nat) (fold : Bool) (time : Nat) (d : Dev) : Dev :=
  let r := d.acceptFrame x 6 dst src hops fseq ([fsrc, sev + 4 * b2n fold] ++ tsBytes time)
  if ¬ r.2 then r.1
  else
    let w := src * 2 ^ 29 + b2n fold * 2 ^ 28 + sev % 4 * 2 ^ 26 + fsrc % 64 * 2 ^ 16
    let d := r.1.setWord rPAST_NOTICE_LAST (Word.of w)
    (d.evt PAST_EVT_NOTICE).fire 37 (src * 256 + fsrc % 64)

/-- PAST_RACC_CTL.GO (R226). -/
def Dev.raccGo (wr : Bool) (d : Dev) : Dev :=
  if d.flag PAST_RACC_STAT_BUSY then d.wr PAST_RACC_STAT_STATUS 5
  else if d.rd PAST_STAT_ROLE ≠ 3 then (d.wr PAST_RACC_STAT_STATUS 4).wr PAST_RACC_STAT_DONE 1
  else
    let tag := (d.past.tag + 1) % 256
    let d := { d with past := { d.past with tag := tag, raccWrite := wr } }
    let d := ((d.wr PAST_RACC_STAT_BUSY 1).wr PAST_RACC_STAT_DONE 0).wr PAST_RACC_STAT_TAG tag
    let body := [b2n wr, tag] ++ bytesN 3 (d.rd PAST_RACC_ADDR_ADDR) ++
      bytesN 4 (if wr then d.rd PAST_RACC_WDATA_WDATA else 0)
    d.originate 7 (d.rd PAST_RACC_CTL_DST) body

/-- An RRSP arrives (R226). -/
def Dev.rrspRx (x src dst hops fseq status tag data : Nat) (d : Dev) : Dev :=
  let r := d.acceptFrame x 8 dst src hops fseq ([status, tag] ++ bytesN 4 data)
  let d := r.1
  if r.2 ∧ dst = d.pastIndex ∧ d.flag PAST_RACC_STAT_BUSY ∧ tag = d.rd PAST_RACC_STAT_TAG then
    let d := ((d.wr PAST_RACC_STAT_BUSY 0).wr PAST_RACC_STAT_DONE 1).wr PAST_RACC_STAT_STATUS status
    if d.past.raccWrite then d else d.wr PAST_RACC_RDATA_RDATA data
  else d

/-- RACC_TMO passes without an RRSP (R226). -/
def Dev.raccTimeout (d : Dev) : Dev :=
  if d.flag PAST_RACC_STAT_BUSY then
    ((d.wr PAST_RACC_STAT_BUSY 0).wr PAST_RACC_STAT_DONE 1).wr PAST_RACC_STAT_STATUS 3
  else d

end Sys2Proof.Machine
end

