-- ==== Sys2Proof/Machine/Deliver.lean ====
section
/-!
DEFINITION. Where edges go and where their timestamps go: jobs, reference monitors, paddocks, beat monitors, links (01 R19,
R22; 02 R46; 04 R105; 05 R139, R140; 07 R197; 08 R216).
-/

namespace Sys2Proof.Machine

/-- The feedback channel of paddock `n`: a WATCH paddock closes its loop through its own edge generator (04 R104). -/
def Dev.feedbackCh (d : Dev) (n : Nat) : Nat :=
  if d.padKind n = 2 then 53 + d.rd (PAD_CFG_EG n) else d.rd (PAD_CFG_FB_CH n)

/-- The timestamp queues of paddock `n` take a timestamp of a channel: as its reference where it makes updates, and as its feedback,
of which a paddock that makes none keeps what a reference timestamp may still pair with (04 R105, R107). -/
def Dev.padStamp (n ch ts : Nat) (absorb : Int) (d : Dev) : Dev :=
  if d.padKind n = 1 ∨ d.padKind n = 3 then d
  else
    let live := d.padLive n
    let d := if live ∧ d.rd (PAD_STATE_ACTIVE_CH n) = ch ∧ ch ≠ 44 ∧ ch ≠ 45 then
        d.setPad n fun p => { p with refQ := p.refQ ++ [(ts, absorb)] }
      else d
    let reach := d.padP n + (d.refShift n).natAbs
    if d.feedbackCh n = ch then
      d.setPad n fun p => { p with fbQ := (if live then p.fbQ else p.fbQ.filter fun f => decide (ts ≤ f + reach)) ++ [ts] }
    else d

/-- A timestamp formed by the engine is delivered to every user of its stream. -/
def Dev.deliver (s : Stamp) (d : Dev) : Dev :=
  let d := (d.jobsTake s).alignStamp s.chan s.ts
  let d := d.fmStamp s.chan s.ts s.arr
  let r := if s.chan < 12 ∧ d.claimed s.chan then d.refEdge s.chan s.ts else (d, 0)
  let d := forN 16 (fun n d => d.padStamp n s.chan s.ts r.2) r.1
  let d := d.when (decide (12 ≤ s.chan) && decide (s.chan < 20) && d.flag (BN_CFG_STEER_V (s.chan - 12))) fun d =>
    d.setBeat (s.chan - 12) fun m => { m with queue := m.queue ++ [s.ts] }
  d.when (decide (s.chan = 44) || decide (s.chan = 45)) (Dev.linkStamp (s.chan - 44) s.tag s.mseq s.ts)

/-- A forwarded edge that gives no timestamp is counted all the same by what counts forwarded edges: jobs (03 R78) and
frequency windows (05 R139). -/
def Dev.lostEdge (ch arr tag : Nat) (d : Dev) : Dev := (d.jobsLost ch arr tag).fmLost ch arr

/-- A result of a cell, and the timestamp it may form (02 R33, R35), in the modes that measure and during boot calibration (R40); an
event whose conversions have all failed is a lost edge. -/
def Dev.converted (cell : Nat) (code : CellCode) (redOk rstOk tableEcc : Bool) (d : Dev) : Dev :=
  if ¬ d.cellsWork then d
  else
    match d.conversionDone cell code redOk rstOk tableEcc with
    | (e, some s) => e.deliver s
    | (e, none) =>
      match takeEvent cell d.meas.events with
      | some (ev, _) => e.when (takeEvent cell e.meas.events).isNone (Dev.lostEdge ev.chan ev.arr ev.tag)
      | none => e

/-- Edges that reach a channel: its source's, or while the tee leads another output's tap to it, those (06 R188).
`f` says what an edge does on a channel. -/
def Dev.teed (ch : Nat) (f : Nat → Dev → Dev) (d : Dev) : Dev :=
  let on := d.flag OUT_TEE_EN
  let dest := 20 + d.rd OUT_TEE_DEST
  let d' := if on ∧ ch = dest then d else f ch d
  if on ∧ ch = 20 + d.rd OUT_TEE_SRC then f dest d' else d'

/-- A selected edge arrives on a channel (02 R46, R49; 05 R141, R153; 07 R196). [DEDUCED, log 27, 73] -/
def Dev.edgeOn (ch sub tag mseq : Nat) (d : Dev) : Dev :=
  let before := d.rd (MCH_FWD_FWD ch)
  let events := d.meas.events.length
  let r := d.channelEdge ch (d.arrival sub) tag mseq
  let d := r.1
  let fwd := decide (d.rd (MCH_FWD_FWD ch) ≠ before)
  let d := d.when (fwd && decide (d.meas.events.length = events)) (Dev.lostEdge ch (d.arrival sub) tag)
  let d := d.when (r.2 && decide (ch < 12)) (Dev.refViolation ch)
  if fwd && decide (12 ≤ ch) && d.served ch then
    if ch < 20 then
      if d.flag ⟨rBN_STAT (ch - 12), 0, 0⟩ then d.beatClear (ch - 12) 0 else d
    else if d.alive.contains ch then d
    else ({ d with alive := d.alive ++ [ch] }).askSelect none
  else d

/-- A channel without a REF monitor has forwarded no edge for 3 P (05 R153). [DEDUCED, log 73] -/
def Dev.candNoEdge (ch : Nat) (d : Dev) : Dev :=
  if d.alive.contains ch then ({ d with alive := d.alive.filter fun c => decide (c ≠ ch) }).askSelect none else d

/-- MARK_LAUNCH: a MARK on every UP link, whose launches are timestamped (08 R215). [DEDUCED, log 27] -/
def Dev.markLaunch (subA subB : Nat) (d : Dev) : Dev :=
  [(0, subA), (1, subB)].foldl (fun d p =>
    if d.linkUp p.1 then
      let m := ((d.link p.1).mseq + 1) % 65536
      let d := d.setLink p.1 fun l => { l with mseq := m }
      (d.sendNear p.1 1 (bytesN 2 m)).edgeOn (44 + p.1) p.2 1 m
    else d) d

/-- MARK_RX: a neighbour's MARK arrives and is timestamped (08 R215). [DEDUCED, log 27] -/
def Dev.markRx (x mseq sub : Nat) (d : Dev) : Dev :=
  if d.flag (PLINK_STAT_SYNC x) ∧ ¬ d.ignoresNear x then (d.countFrame x).edgeOn (44 + x) sub 2 mseq else d

/-- EDGE_GEN_WRAP: the edge generator of paddock `n` emits an edge on its internal channel (04 R108; 02 R45).
[DEDUCED, log 27] -/
def Dev.edgeGenWrap (n sub : Nat) (d : Dev) : Dev :=
  if d.flag (PAD_CFG_EG_V n) then d.edgeOn (53 + d.rd (PAD_CFG_EG n)) sub 0 0 else d

/-- HISTORY_SECOND (04 R126; 05 R139, R144): the count starts when the system PLL has locked and BOOTCLK stops (01 R15), and a
later loss of lock does not stop it. -/
def Dev.historySecond (d : Dev) : Dev :=
  if d.clk.bootclk then d
  else
    let d := { d with clk := { d.clk with hsec := d.clk.hsec + 1 } }
    if ¬ d.running then d else forN 16 Dev.padSecond (d.when d.applied Dev.refSecond)

/-- LEARN_MODEL_TICK: the shepherd core writes M of each paddock with LEARN active; `ms` holds the values its fit gives
(04 R129). [DESIGN CHOICE, log 23, 64, 156] -/
def Dev.learnTick (ms : List Int) (d : Dev) : Dev :=
  forN 16 (fun n d =>
    if (d.pad n).learn ∧ d.applied then
      let m := twos 48 (ms.getD n 0)
      let d := d.setWord (rPAD_HMODEL_LO n) (Word.of (m % 2 ^ 32))
      let d := d.setWord (rPAD_HMODEL_HI n) (Word.of (m / 2 ^ 32))
      let d := d.setWord (rPAD_HMODEL_LO_C n) (Word.of (2 ^ 32 - 1 - m % 2 ^ 32))
      let d := d.setWord (rPAD_HMODEL_HI_C n) (Word.of (2 ^ 32 - 1 - m / 2 ^ 32))
      d.acceptModel n
    else d) d

end Sys2Proof.Machine
end

