-- ==== Sys2Proof/Machine/Image.lean ====
section
/-!
DEFINITION. The structure image as bytes: its header and sections, and the classification of a slot (09 R232 to R240).
-/

namespace Sys2Proof.Machine

/-- Where an image stands: a memory, the byte its unlisted addresses read as, the address of the image's first byte, and
the offset of its commit block (09 R232, R243). -/
structure ImgSrc where
  mem : ByteMem
  dflt : Byte
  base : Nat
  commitAt : Nat
  deriving DecidableEq, Repr

/-- Size of a slot: 96 pages (12 R310). -/
def slotSize : Nat := 0xC000

/-- Slot `s` of the NVM array: 0 IMG_A, 1 IMG_B (09 R232). -/
def Dev.slotSrc (d : Dev) (s : Nat) : ImgSrc :=
  { mem := d.nvmSeen, dflt := 0xFF, base := 0x200000 + slotSize * s, commitAt := slotSize - 16 }

/-- What the last read of both slots found: the offsets that read with an uncorrectable error. -/
def Dev.slotFound (badA badB : List Nat) (d : Dev) : Dev := { d with boot := { d.boot with badA := badA, badB := badB } }

/-- The offsets of a slot that are known to read with an uncorrectable error, from its last read as an image or from any
other read of its groups; those of a dark array do not show. [DEDUCED, log 201] -/
def Dev.slotErrs (d : Dev) (s : Nat) : List Nat :=
  let base := 0x200000 + slotSize * s
  if d.nvmDark then []
  else (if s = 0 then d.boot.badA else d.boot.badB) ++
    (d.nvmErrs.filter fun a => decide (base ≤ a) && decide (a < base + slotSize)).map fun a => a - base

/-- The bytes from offset `o` as an `n`-byte little-endian number. -/
def ImgSrc.num (g : ImgSrc) (o n : Nat) : Nat := leNat (ByteMem.bytes g.mem g.dflt (g.base + o) n)

/-- The 64-bit words of `n` bytes from offset `o`. -/
def ImgSrc.words (g : ImgSrc) (o n : Nat) : List Nat := ByteMem.words64 g.mem g.dflt (g.base + o) n

/-- Header fields (09 R233). -/
def ImgSrc.secCount (g : ImgSrc) : Nat := g.num 6 2
def ImgSrc.length (g : ImgSrc) : Nat := g.num 8 4
def ImgSrc.sequence (g : ImgSrc) : Nat := g.num 12 4
def ImgSrc.planId (g : ImgSrc) : Nat := g.num 24 4
def ImgSrc.flags (g : ImgSrc) : Nat := g.num 21 1

/-- STAGE as an image source; the commit block of a stream follows the image at once (09 R243). -/
def Dev.stageSrc (d : Dev) : ImgSrc :=
  let g : ImgSrc := { mem := d.sram, dflt := 0, base := 0x140000, commitAt := 0 }
  { g with commitAt := g.length }

/-- IMG_CHECK computed over the image (09 R236). -/
def ImgSrc.imgCheck (g : ImgSrc) : Nat := crcFold g.sequence 0 (g.words 0 g.length)

/-- The pattern of every commit (09 R237; 12 R321, R327, R328). -/
def commitPattern : Nat := 0xC3A55A3C

/-- The bitwise complement of a 32-bit number. -/
def not32 (v : Nat) : Nat := 0xFFFFFFFF - v % 0x100000000

/-- A check pair against a computed check: 0 agrees, 1 CHECK_CORRUPT, 2 DATA_BAD (09 R239). -/
def pairCheck (c v vc : Nat) : Nat :=
  if c = v ∧ c = not32 vc then 0 else if c = v ∨ c = not32 vc then 1 else 2

/-- One section: type, index, body length, load address, check pair, offset of its body (09 R234). -/
structure Section_ where
  type : Nat
  index : Nat
  bodyLen : Nat
  load : Nat
  check : Nat
  checkC : Nat
  body : Nat
  deriving DecidableEq, Repr

/-- Length of a body with its padding (09 R234). -/
def padded (n : Nat) : Nat := (n + 7) / 8 * 8

/-- The section whose descriptor stands at offset `o`. -/
def ImgSrc.sectionAt (g : ImgSrc) (o : Nat) : Section_ :=
  { type := g.num o 2, index := g.num (o + 2) 2, bodyLen := g.num (o + 4) 4, load := g.num (o + 8) 4
    check := g.num (o + 12) 4, checkC := g.num (o + 16) 4, body := o + 24 }

/-- The address ranges of each section type (09 R235): first and last byte. -/
def sectionRanges : Nat → List (Nat × Nat)
  | 1 => [(0x020000, 0x020FFF), (0x060000, 0x061FFF), (0x0A0000, 0x0A01FF), (0x0B0000, 0x0B04FF), (0x0C0000, 0x0CFFFF)]
  | 2 => [(0x030000, 0x033FFF)]
  | 3 => [(0x040000, 0x040BFF), (0x050000, 0x0510FF)]
  | 4 => [(0x010000, 0x01FFFF)]
  | 6 => [(0x14C000, 0x157FFF)]
  | _ => []

/-- An INIT entry's word 0 is an address of the list's range (09 R235). -/
def initAddrOk (w : Nat) : Bool := decide (w ≤ 0x0DFFFF) && decide (w % 4 = 0)

/-- A descriptor is well formed (09 R234, R235): `prev` is the type before it, `i` its position, `len` the image's length. -/
def ImgSrc.sectionOk (g : ImgSrc) (s : Section_) (prev i len : Nat) : Bool :=
  decide (1 ≤ s.type) && decide (s.type ≤ 6) && decide (prev ≤ s.type) && !(decide (s.type = 6) && decide (prev = 6)) &&
  decide (s.index = i) && decide (4 ≤ s.bodyLen) && decide (s.bodyLen % 4 = 0) && decide (s.load < 0x1000000) &&
  decide (s.load % 4 = 0) && decide (g.num (s.body - 4) 4 = 0) && decide (s.body + padded s.bodyLen ≤ len) &&
  (if s.type = 5 then
    decide (s.load = 0) && decide (s.bodyLen % 8 = 0) &&
      (List.range (s.bodyLen / 8)).all fun k => initAddrOk (g.num (s.body + 8 * k) 4)
  else (sectionRanges s.type).any fun r => decide (r.1 ≤ s.load) && decide (s.load + s.bodyLen - 1 ≤ r.2))

/-- The sections of an image from offset `o` on, or none where a descriptor is not well formed or the packing does not end
at LENGTH (09 R239 step 10). -/
def ImgSrc.walk (g : ImgSrc) (len : Nat) : Nat → Nat → Nat → Nat → Option (List Section_)
  | 0, _, _, o => if o = len then some [] else none
  | n + 1, i, prev, o =>
    let s := g.sectionAt o
    if g.sectionOk s prev i len then (g.walk len n (i + 1) s.type (s.body + padded s.bodyLen)).map fun t => s :: t
    else none

/-- The sections of a well-formed image. -/
def ImgSrc.sections (g : ImgSrc) : Option (List Section_) :=
  match g.walk g.length g.secCount 0 0 64 with
  | some ss => if (ss.any fun s => decide (s.type = 6)) = g.flags.testBit 1 then some ss else none
  | none => none

/-- The outcome of a section's check (09 R236, R239 step 12). -/
def ImgSrc.sectionCheck (g : ImgSrc) (s : Section_) : Nat :=
  pairCheck (crcFold (s.type * 0x10000 + s.index) s.load (g.words s.body (padded s.bodyLen))) s.check s.checkC

/-- What the checks of R239 find: the code of a failed check, if one failed, and whether a CHECK_CORRUPT was noted first. -/
structure Findings where
  bad : Option Nat
  corrupt : Bool
  deriving DecidableEq, Repr

/-- The XOIN frequency, in 10 kHz, of a header's code (09 R233; 01 R14). -/
def xoinOf : Nat → Nat
  | 0 => 5000 | 1 => 10000 | 2 => 12500 | _ => 15625

/-- Steps 3 to 7 of 09 R239: the code of the first failed check. -/
def ImgSrc.headBad (g : ImgSrc) (xoin : Nat) : Option Nat :=
  if g.num 0 4 ≠ 0x5052584C then some 3
  else if g.num 4 2 ≠ 1 ∨ 4 ≤ g.flags ∨ g.num 22 2 ≠ 0 ∨ g.num 32 24 ≠ 0 then some 4
  else if g.num 16 4 ≠ 0x7424A101 then some 5
  else if 3 < g.num 20 1 ∨ xoinOf (g.num 20 1) ≠ xoin then some 6
  else if g.length % 8 ≠ 0 ∨ g.length < 96 ∨ 49136 < g.length ∨ g.secCount < 1 ∨ 64 < g.secCount then some 7
  else none

/-- Steps 10 to 12 of 09 R239 after CHECK_CORRUPT was noted or not. -/
def ImgSrc.bodyFindings (g : ImgSrc) (corrupt : Bool) : Findings :=
  match g.sections with
  | none => { bad := some 10, corrupt := corrupt }
  | some ss =>
    if ss.any fun s => decide (s.type = 6) && (decide (s.bodyLen < 8) || decide (g.num s.body 4 ≠ 1) ||
        decide (s.bodyLen ≤ g.num (s.body + 4) 4)) then { bad := some 11, corrupt := corrupt }
    else
      let cs := ss.map g.sectionCheck
      let upTo := cs.takeWhile fun c => decide (c ≠ 2)
      let corrupt := corrupt || upTo.any fun c => decide (c = 1)
      { bad := if cs.any fun c => decide (c = 2) then some 12 else none, corrupt := corrupt }

/-- Steps 3 to 12 of 09 R239; `commit` says that the source has a commit block, which step 9 compares. [DEDUCED, log 98] -/
def ImgSrc.findings (g : ImgSrc) (xoin : Nat) (commit : Bool) : Findings :=
  match g.headBad xoin with
  | some c => { bad := some c, corrupt := false }
  | none =>
    let h := pairCheck (crcFold 0 0 (g.words 0 56)) (g.num 56 4) (g.num 60 4)
    if h = 2 then { bad := some 8, corrupt := false }
    else
      let q := if commit then pairCheck g.sequence (g.num g.commitAt 4) (g.num (g.commitAt + 4) 4) else 0
      let corrupt := decide (h = 1)
      if q = 2 then { bad := some 9, corrupt := corrupt }
      else g.bodyFindings (corrupt || decide (q = 1))

/-- The classes of a slot (09 R239, DEV_BOOT_STAT). -/
def clsEmpty : Nat := 0
def clsBad : Nat := 1
def clsUnverified : Nat := 2
def clsCorrected : Nat := 3
def clsClean : Nat := 4
def clsNone : Nat := 7

/-- The 8-byte group at an offset is among those read with an uncorrectable error. -/
def badGroup (bad : List Nat) (o : Nat) : Bool := bad.any fun b => decide (b / 8 = o / 8)

/-- A source is committed (09 R237). -/
def ImgSrc.committed (g : ImgSrc) (bad : List Nat) : Bool :=
  decide (g.num (g.commitAt + 12) 4 = commitPattern) && !badGroup bad (g.commitAt + 8)

/-- Classification (09 R239): class and code.  `bad` holds the offsets that read with an uncorrectable error, `corr` says
that some read needed a single-bit correction. [DESIGN CHOICE, log 155] -/
def ImgSrc.classify (g : ImgSrc) (xoin : Nat) (corr : Bool) (bad : List Nat) : Nat × Nat :=
  if ¬ g.committed bad then (clsEmpty, 1)
  else if bad.any fun b => decide (b < 64) || decide (b < min g.length (slotSize - 16)) ||
      (decide (g.commitAt ≤ b) && decide (b < g.commitAt + 16)) then (clsBad, 2)
  else
    let f := g.findings xoin true
    match f.bad with
    | some c => (clsBad, if f.corrupt then 13 else c)
    | none =>
      if g.imgCheck ≠ g.num (g.commitAt + 8) 4 then (clsUnverified, if f.corrupt then 13 else 14)
      else if f.corrupt then (clsUnverified, 13)
      else (if corr then clsCorrected else clsClean, 0)

/-- Serial-number arithmetic (09 R240): `b` is newer than `a`. -/
def serialNewer (b a : Nat) : Bool :=
  let n := (b % 0x100000000 + 0x100000000 - a % 0x100000000) % 0x100000000
  decide (1 ≤ n) && decide (n ≤ 0x7FFFFFFF)

/-- A class is bootable (09 R240). -/
def bootable (cls : Nat) : Bool := cls = clsClean || cls = clsCorrected

/-- The choice of a slot (09 R240): 0 IMG_A, 1 IMG_B, none; and the tie. -/
def chooseSlot (clsA clsB seqA seqB chkA chkB : Nat) : Option Nat × Bool :=
  if ¬ bootable clsA ∧ ¬ bootable clsB then (none, false)
  else if ¬ bootable clsB then (some 0, false)
  else if ¬ bootable clsA then (some 1, false)
  else
    let n := (seqB % 0x100000000 + 0x100000000 - seqA % 0x100000000) % 0x100000000
    if 1 ≤ n ∧ n ≤ 0x7FFFFFFF then (some 1, false)
    else if 0x80000000 < n then (some 0, false)
    else
      let tie := decide (n = 0x80000000) || decide (chkA ≠ chkB)
      (some (if clsA = clsCorrected ∧ clsB = clsClean then 1 else 0), tie)

end Sys2Proof.Machine
end

