-- ==== Sys2Proof/Machine/NvmOps.lean ====
section
/-!
DEFINITION. The NVM controller (chapter 12, R308 to R328): the formats of its regions, the next atomic operation of each
kind of work, scheduling, the supply check, verification, the patrol and the counter scan.
-/

namespace Sys2Proof.Machine

/-! ### The array (R308) -/

/-- First address of a page in the read window (R308). -/
def pageAddr (p : Nat) : Nat := 0x200000 + 0x200 * p

/-- The 64-bit value of the group at an address. -/
def Dev.group (d : Dev) (a : Nat) : Nat := leNat (ByteMem.bytes d.nvmSeen 0xFF a 8)

/-- Content of an erased group (R308). -/
def erasedGroup : Nat := 2 ^ 64 - 1

/-- An address among rising ones. -/
def insertAddr (a : Nat) (as : List Nat) : List Nat :=
  (as.filter fun b => decide (b < a)) ++ a :: as.filter fun b => decide (a < b)

/-- The group at an address is known to read with an uncorrectable error; none shows in a dark array (R309). [DEDUCED, log 201] -/
def Dev.groupBad (d : Dev) (a : Nat) : Bool := !d.nvmDark && d.nvmErrs.contains (a / 8 * 8)

/-- Reads have found uncorrectable errors at these addresses (R309, R314). [DEDUCED, log 201] -/
def Dev.learnErrs (as : List Nat) (d : Dev) : Dev :=
  if d.nvmDark then d else { d with nvmErrs := as.foldl (fun es a => insertAddr (a / 8 * 8) es) d.nvmErrs }

/-- The group at an address is erased: its 64 data bits and its 8 check bits read 1 (R308). [DESIGN CHOICE, log 131] -/
def Dev.erased (d : Dev) (a : Nat) : Bool :=
  decide (d.group a = erasedGroup) && !d.groupBad a &&
    (d.nvmDark || !d.nvmOnes.contains a || decide (Config.onesCheck = 0xFF))

/-- Low and high word of a group. -/
def lo32 (g : Nat) : Nat := g % 0x100000000
def hi32 (g : Nat) : Nat := g / 0x100000000

/-- The group of two words. -/
def mkGroup (w0 w1 : Nat) : Nat := w0 % 0x100000000 + 0x100000000 * (w1 % 0x100000000)

/-- A word and its complement. -/
def withNot (w : Nat) : Nat := mkGroup w (not32 w)

/-- The groups of a page that are not erased: index and value. -/
def Dev.pageGroups (d : Dev) (p : Nat) : List (Nat × Nat) :=
  ((List.range 64).map fun g => (g, d.group (pageAddr p + 8 * g))).filter fun q => !d.erased (pageAddr p + 8 * q.1)

/-- Every group of a page is erased. [DESIGN CHOICE, log 131] -/
def Dev.pageErased (d : Dev) (p : Nat) : Bool := (d.pageGroups p).isEmpty

/-- The operation that programs one group at an address. -/
def oneGroup (a v : Nat) : AtomOp :=
  { page := (a - 0x200000) / 0x200, erase := false, groups := [((a - 0x200000) % 0x200 / 8, v)] }

/-- The newest of a list of serial numbers (09 R240). -/
def newestOf : List Nat → Option Nat
  | [] => none
  | x :: xs => some (xs.foldl (fun b y => if serialNewer y b then y else b) x)

/-! ### Counter records (R321 to R325) -/

/-- Indices of the record slots: page * 8 + slot, slots 1 to 7 of pages 240 to 255 (R321). -/
def recSlots : List Nat := (List.range 128).filterMap fun k => if k % 8 = 0 then none else some (1920 + k)

/-- Group `g` of the slot with index `i`. -/
def Dev.recGroup (d : Dev) (i g : Nat) : Nat := d.group (0x200000 + 64 * i + 8 * g)

/-- Group `g` of slot `i` reads with an uncorrectable error (R314). -/
def Dev.recBad (d : Dev) (i g : Nat) : Bool := d.groupBad (0x200000 + 64 * i + 8 * g)

/-- ID and SEQ of a record with a valid header (R321). -/
def Dev.recHeader (d : Dev) (i : Nat) : Option (Nat × Nat) :=
  let w := lo32 (d.recGroup i 0)
  if w % 256 < 32 ∧ 1 ≤ w / 256 % 256 ∧ w / 256 % 256 ≤ 4 ∧ w / 0x10000 = 0 ∧ ¬ d.recBad i 0 then
    some (w % 256, hi32 (d.recGroup i 0)) else none

/-- The first word of a group whose second word is its complement (R321). -/
def Dev.recPair (d : Dev) (i g : Nat) : Option Nat :=
  let v := d.recGroup i g
  if hi32 v = not32 (lo32 v) ∧ ¬ d.recBad i g then some (lo32 v) else none

/-- MARK values (R321). -/
def markNoCarry : Nat := 0x4D4B0000
def markCarry : Nat := 0x4D4B0001
def markSet : Nat := 0x4D4B0002

/-- The valid MARK of a record. -/
def Dev.recMark (d : Dev) (i : Nat) : Option Nat :=
  (d.recPair i 2).filter fun m => m = markNoCarry || m = markCarry || m = markSet

/-- A record is committed (R321). -/
def Dev.recCommitted (d : Dev) (i : Nat) : Bool :=
  match d.recHeader i with
  | some h => decide (lo32 (d.recGroup i 4) = commitPattern) && decide (hi32 (d.recGroup i 4) = h.2) && !d.recBad i 4
  | none => false

/-- PSEQ of a page with a header (R321). -/
def Dev.pageSeq (d : Dev) (p : Nat) : Option Nat :=
  let g := d.group (pageAddr p)
  let h := d.group (pageAddr p + 56)
  if lo32 g = 0x544E5443 ∧ lo32 h = commitPattern ∧ hi32 g = hi32 h ∧ ¬ d.groupBad (pageAddr p) ∧ ¬ d.groupBad (pageAddr p + 56) then some (hi32 g) else none

/-- The open page: the one whose header holds the newest PSEQ (R323). -/
def Dev.openPage (d : Dev) : Option (Nat × Nat) :=
  (List.range 16).foldl (fun b k =>
    match d.pageSeq (240 + k) with
    | some q => (match b with
      | some (p, r) => if serialNewer q r then some (240 + k, q) else some (p, r)
      | none => some (240 + k, q))
    | none => b) none

/-- The page after a page of the COUNTER ring. -/
def nextCounterPage (p : Nat) : Nat := if p = 255 then 240 else p + 1

/-- The first slot of a page after the last slot with any group programmed; none where the page is full. -/
def Dev.freeSlot (d : Dev) (p : Nat) : Option Nat :=
  let used := (List.range 8).filter fun s => decide (1 ≤ s) && !((List.range 8).all fun g => d.erased (pageAddr p + 64 * s + 8 * g))
  let next := used.foldl (fun m s => max m (s + 1)) 1
  if next < 8 then some (p * 8 + next) else none

/-- The committed records of a counter. -/
def Dev.committedOf (d : Dev) (id : Nat) : List Nat :=
  recSlots.filter fun i => d.recCommitted i && decide ((d.recHeader i).map Prod.fst = some id)

/-- SEQ of a record with a valid header. -/
def Dev.recSeq (d : Dev) (i : Nat) : Nat := hi32 (d.recGroup i 0)

/-- A record of page `v` is live: the newest committed record of its counter, with no copy in another page (R323). -/
def Dev.recLive (d : Dev) (i : Nat) : Bool :=
  match d.recHeader i with
  | some (id, q) =>
    d.recCommitted i &&
      (d.committedOf id).all fun j => !serialNewer (d.recSeq j) q && (decide (j / 8 = i / 8) || decide (d.recSeq j ≠ q))
  | none => false

/-- The newest SEQ in any valid header of a counter (R322). [DEDUCED, log 136] -/
def Dev.newestSeq (d : Dev) (id : Nat) : Option Nat :=
  newestOf ((recSlots.filter fun i => decide ((d.recHeader i).map Prod.fst = some id)).map d.recSeq)

/-- A counter's value. -/
def Dev.counter (d : Dev) (id : Nat) : Nat := d.rd (NVM_CNT_LO_VALUE id) + 0x100000000 * d.rd (NVM_CNT_HI_VALUE id)

/-- A counter takes a value. -/
def Dev.setCounter (id v : Nat) (d : Dev) : Dev := (d.wr (NVM_CNT_LO_VALUE id) (lo32 v)).wr (NVM_CNT_HI_VALUE id) (hi32 v)

/-- The five groups of a record in slot `i` (R321). -/
def recordGroups (i id op q mark v : Nat) : List (Nat × Nat) :=
  let a := 0x200000 + 64 * i
  [(a, mkGroup (id + 256 * op) q), (a + 8, withNot (lo32 v)), (a + 16, withNot mark), (a + 24, withNot (hi32 v)),
   (a + 32, mkGroup commitPattern q)]

/-- The operation that opens a counter page: its erase and its header (R321). -/
def openCounterPage (p q : Nat) : AtomOp :=
  { page := p, erase := true, groups := [(0, mkGroup 0x544E5443 q), (7, mkGroup commitPattern q)] }

/-- The next operation of a compaction, where one is to be done (R323): the copy of a live record of the page after the
open one, or the erase of that page. -/
def Dev.compactNext (d : Dev) (w : NvmWork) : Option (AtomOp × NvmWork) :=
  match d.openPage with
  | none => none
  | some (o, _) =>
    let v := nextCounterPage o
    if d.pageErased v then none
    else
      match (List.range 8).find? fun s => decide (1 ≤ s) && d.recLive (v * 8 + s) with
      | some s =>
        let i := v * 8 + s
        (d.freeSlot o).map fun j =>
          let h := d.recGroup i 0
          let g0 := mkGroup (lo32 h % 256 + 256 * 3) (hi32 h)
          let a := 0x200000 + 64 * j
          (oneGroup a g0, { w with
            recCopy := true
            groups := [(a + 8, d.recGroup i 1), (a + 16, d.recGroup i 2), (a + 24, d.recGroup i 3), (a + 32, d.recGroup i 4)] })
      | none => some ({ page := v, erase := true, groups := [] }, w)

/-- The next operation of a counter work before its record begins, or the first group of its record; `mk` gives OP, SEQ,
MARK and value of the record (R321 to R323). [DEDUCED, log 136] -/
def Dev.counterNext (d : Dev) (w : NvmWork) (id : Nat) (mk : Nat × Nat × Nat × Nat) : Option (AtomOp × NvmWork) :=
  match d.compactNext w with
  | some r => some r
  | none =>
    match d.openPage with
    | none => some (openCounterPage 240 0, w)
    | some (o, q) =>
      match d.freeSlot o with
      | none => some (openCounterPage (nextCounterPage o) ((q + 1) % 0x100000000), w)
      | some i =>
        match recordGroups i id mk.1 mk.2.1 mk.2.2.1 mk.2.2.2 with
        | (a, v) :: t => some (oneGroup a v, { w with step := 1, groups := t, recVal := mk.2.2.2 })
        | [] => none

/-! ### The event log (R319) -/

/-- PSEQ of a LOG page with a PAGE entry (R319). -/
def Dev.logSeq (d : Dev) (p : Nat) : Option Nat :=
  let w := lo32 (d.group (pageAddr p))
  if w / 0x10000000 = 5 ∧ w / 0x100000 % 256 = 0 ∧ ¬ d.groupBad (pageAddr p) ∧ ¬ d.groupBad (pageAddr p + 8) then some (hi32 (d.group (pageAddr p + 8))) else none

/-- The head of the log: the page whose PAGE entry holds the newest PSEQ (R319). -/
def Dev.logHead (d : Dev) : Option (Nat × Nat) :=
  (List.range 48).foldl (fun b k =>
    match d.logSeq (192 + k) with
    | some q => (match b with
      | some (p, r) => if serialNewer q r then some (192 + k, q) else some (p, r)
      | none => some (192 + k, q))
    | none => b) none

/-- The next free slot of a log page (R319). -/
def Dev.logSlot (d : Dev) (p : Nat) : Option Nat :=
  let next := (List.range 32).foldl (fun m s =>
    if d.erased (pageAddr p + 16 * s) && d.erased (pageAddr p + 16 * s + 8) then m else s + 1) 0
  if next < 32 then some next else none

/-- Groups 0 and 1 of a log entry (R319). -/
def logGroup0 (e : LogEntry) : Nat := mkGroup (5 * 0x10000000 + e.code % 256 * 0x100000 + e.arg % 0x100000) e.sec
def logGroup1 (e : LogEntry) : Nat := mkGroup (e.ns % 0x40000000) e.data

/-- The operation that starts a log page: its erase and its PAGE entry (R319). -/
def Dev.openLogPage (d : Dev) (p q : Nat) : AtomOp :=
  let t := d.nowU
  let e : LogEntry := { code := 0, arg := 0, sec := uSec t, ns := uNs t, data := q }
  { page := p, erase := true, groups := [(0, logGroup0 e), (1, logGroup1 e)] }

/-- The next operation of a log entry. -/
def Dev.logNext (d : Dev) (w : NvmWork) (e : LogEntry) : Option (AtomOp × NvmWork) :=
  match d.logHead with
  | none => some (d.openLogPage 192 0, w)
  | some (p, q) =>
    match d.logSlot p with
    | none => some (d.openLogPage (if p = 239 then 192 else p + 1) ((q + 1) % 0x100000000), w)
    | some s =>
      let a := pageAddr p + 16 * s
      some (oneGroup (a + 8) (logGroup1 e), { w with step := 1, groups := [(a, logGroup0 e)] })

/-! ### Keys (R328) -/

/-- Group `g` of key record slot `i`. -/
def Dev.keyGroup (d : Dev) (i g : Nat) : Nat := d.group (pageAddr 304 + 32 * i + 8 * g)

/-- Group `g` of key record slot `i` reads with an uncorrectable error (R314). -/
def Dev.keyBad (d : Dev) (i g : Nat) : Bool := d.groupBad (pageAddr 304 + 32 * i + 8 * g)

/-- Region and kind, and GEN, of a committed key record. -/
def Dev.keyRec (d : Dev) (i : Nat) : Option (Nat × Nat) :=
  let w := lo32 (d.keyGroup i 0)
  if w < 512 ∧ lo32 (d.keyGroup i 3) = commitPattern ∧ hi32 (d.keyGroup i 3) = hi32 (d.keyGroup i 0) ∧ ¬ d.keyBad i 0 ∧
      ¬ d.keyBad i 3 then
    some (w, hi32 (d.keyGroup i 0)) else none

/-- A key record's halves are valid and agree. -/
def Dev.keyWhole (d : Dev) (i : Nat) : Bool :=
  let k := d.keyGroup i 1
  let c := d.keyGroup i 2
  decide (lo32 c = not32 (lo32 k)) && decide (hi32 c = not32 (hi32 k)) && !d.keyBad i 1 && !d.keyBad i 2

/-- The newest of the key records of a region and kind that satisfy `p`. -/
def Dev.keyNewest (d : Dev) (region kind : Nat) (p : Nat → Bool) : Option Nat :=
  (List.range 16).foldl (fun b i =>
    match d.keyRec i with
    | some (w, g) =>
      if w = region + 256 * kind ∧ p i then
        (match b with
        | some j => if serialNewer g (hi32 (d.keyGroup j 0)) then some i else some j
        | none => some i)
      else b
    | none => b) none

/-- The record that gives the key of a region and kind (R328). -/
def Dev.keyCurrent (d : Dev) (region kind : Nat) : Option Nat := d.keyNewest region kind d.keyWhole

/-- The key of a region and kind; 0 with no record (R328). -/
def Dev.keyOf (d : Dev) (region kind : Nat) : Nat := ((d.keyCurrent region kind).map fun i => d.keyGroup i 1).getD 0

/-- A newer committed record whose halves disagree is ignored (R328, KEY_DAMAGED). [DEDUCED, log 138] -/
def Dev.keyDamaged (d : Dev) (region kind : Nat) : Bool :=
  d.keyNewest region kind (fun _ => true) ≠ d.keyCurrent region kind

/-- The six region codes and two kinds. -/
def keyPairs : List (Nat × Nat) := (List.range 12).map fun k => (k % 6, k / 6)

/-- The bit of a field of NVM_KEY_STAT for a region and kind. -/
def keySetFld (region kind : Nat) : Fld := ⟨rNVM_KEY_STAT, 8 * kind + region, 8 * kind + region⟩
def keyOpenFld (region kind : Nat) : Fld := ⟨rNVM_KEY_STAT, 16 + 8 * kind + region, 16 + 8 * kind + region⟩

/-- A key is open (R329). -/
def Dev.keyOpen (d : Dev) (region kind : Nat) : Bool := d.flag (keyOpenFld region kind)

/-- The event bits of NVM_EVT. -/
def nvmEvt (k : Nat) (d : Dev) : Dev := d.evtMask rNVM_EVT (2 ^ k)

/-- Keys after a POR, PIN or SOFT reset (R328, R329): set and closed where not 0, open where 0. [DEDUCED, log 138] -/
def Dev.loadKeys (d : Dev) : Dev :=
  keyPairs.foldl (fun d rk =>
    let v := d.keyOf rk.1 rk.2
    let d := (d.wr (keySetFld rk.1 rk.2) (b2n (decide (v ≠ 0)))).wr (keyOpenFld rk.1 rk.2) (b2n (decide (v = 0)))
    if d.keyDamaged rk.1 rk.2 then nvmEvt 11 d else d) d

/-- The groups of one key record, as (group offset in the page, value). -/
def keyGroups (i region kind gen key : Nat) : List (Nat × Nat) :=
  [(4 * i, mkGroup (region + 256 * kind) gen), (4 * i + 1, key % 2 ^ 64),
   (4 * i + 2, erasedGroup - key % 2 ^ 64), (4 * i + 3, mkGroup commitPattern gen)]

/-- The next operation of a key record (R328): its groups one by one in a free slot, else one compaction of the page.
[DEDUCED, log 136] -/
def Dev.keyNext (d : Dev) (w : NvmWork) (region kind key : Nat) : Option (AtomOp × NvmWork) :=
  let gens := (List.range 16).filterMap fun i => if d.erased (pageAddr 304 + 32 * i) ∨ d.keyBad i 0 then none else some (hi32 (d.keyGroup i 0))
  let gen := match newestOf gens with | some g => (g + 1) % 0x100000000 | none => 0
  match (List.range 16).find? fun i => (List.range 4).all fun g => d.erased (pageAddr 304 + 32 * i + 8 * g) with
  | some i =>
    match (keyGroups i region kind gen key).map fun q => (pageAddr 304 + 8 * q.1, q.2) with
    | (a, v) :: t => some (oneGroup a v, { w with step := 1, groups := t })
    | [] => none
  | none =>
    let keep := keyPairs.filterMap fun rk =>
      match d.keyCurrent rk.1 rk.2 with
      | some j => if d.keyGroup j 1 ≠ 0 then some (rk, hi32 (d.keyGroup j 0), d.keyGroup j 1) else none
      | none => none
    let all := keep ++ [((region, kind), gen, key)]
    let groups := (List.range all.length).flatMap fun n =>
      match all[n]? with
      | some (rk, g, v) => keyGroups n rk.1 rk.2 g v
      | none => []
    some ({ page := 304, erase := true, groups := groups }, { w with step := 1 })

/-! ### Holdover banks (R327) -/

/-- The 64-bit words of a bank's body, bytes 0x000 to 0x83F (R327). -/
def holdWords (q plan : Nat) (sensors : List Nat) (models : List HoldModel) : List Nat :=
  let block := fun (n : Nat) =>
    match models[n]? with
    | some m =>
      [mkGroup (b2n m.valid + 2 * sensors.getD n 0) m.secs, twos 64 m.ageing, twos 64 m.c1, twos 64 m.c2,
       mkGroup (twos 32 m.th) 0] ++ List.replicate 11 0
    | none => List.replicate 16 0
  [mkGroup 0x444C4F48 q, mkGroup plan 0] ++ List.replicate 6 0 ++ (List.range 16).flatMap block

/-- The groups of a page that hold 64-bit words from byte `from` of a region on; all-ones groups stay erased. -/
def wordsOnPage (ws : List Nat) (k : Nat) : List (Nat × Nat) :=
  ((List.range 64).filterMap fun g => (ws[64 * k + g]?).map fun v => (g, v)).filter fun q => decide (q.2 ≠ erasedGroup)

/-- The next operation of a holdover bank: erase, body, commit groups A, B, C (R327). -/
def holdNext (w : NvmWork) (bank q plan : Nat) (sensors : List Nat) (models : List HoldModel) : Option (AtomOp × NvmWork) :=
  let p0 := 256 + 8 * bank
  let w' := { w with step := w.step + 1 }
  let ws := holdWords q plan sensors models
  if w.step < 8 then some ({ page := p0 + w.step, erase := true, groups := [] }, w')
  else if w.step < 13 then
    some ({ page := p0 + (w.step - 8), erase := false, groups := wordsOnPage ws (w.step - 8) }, w')
  else if w.step = 13 then some ({ page := p0 + 7, erase := false, groups := [(61, withNot q)] }, w')
  else if w.step = 14 then some ({ page := p0 + 7, erase := false, groups := [(62, withNot (crcFold q 0 ws))] }, w')
  else if w.step = 15 then some ({ page := p0 + 7, erase := false, groups := [(63, mkGroup commitPattern q)] }, w')
  else none

/-! ### Image slots (09 R238) -/

/-- The next operation of the write of a slot: erase, with the page of the old commit block first, so that the slot is uncommitted
from there on; image; the two commit groups (09 R238).  Pages whose words are all ones need no program. [DEDUCED, log 97] -/
def slotNext (w : NvmWork) (slot : Nat) (ws : List Nat) (g0 g1 : Nat) : Option (AtomOp × NvmWork) :=
  let p0 := 96 * slot
  let w' := { w with step := w.step + 1 }
  if w.step < 96 then some ({ page := p0 + (if w.step = 0 then 95 else w.step - 1), erase := true, groups := [] }, w')
  else if w.step < 192 then
    match (List.range (192 - w.step)).find? fun j => !(wordsOnPage ws (w.step + j - 96)).isEmpty with
    | some j =>
      let k := w.step + j - 96
      some ({ page := p0 + k, erase := false, groups := wordsOnPage ws k }, { w with step := w.step + j + 1 })
    | none => some ({ page := p0 + 95, erase := false, groups := [(62, g0)] }, { w with step := 193 })
  else if w.step = 192 then some ({ page := p0 + 95, erase := false, groups := [(62, g0)] }, w')
  else if w.step = 193 then some ({ page := p0 + 95, erase := false, groups := [(63, g1)] }, w')
  else none

/-! ### The next operation of any work -/

/-- The next operation of a piece of work, with the work as it stands after it; none where the work is complete. -/
def Dev.nvmNext (d : Dev) (w : NvmWork) : Option (AtomOp × NvmWork) :=
  match w.groups with
  | (a, v) :: t => some (oneGroup a v, { w with groups := t })
  | [] =>
    let w' := { w with step := w.step + 1 }
    let w := { w with recCopy := false }
    match w.kind with
    | .dumpCopy _ =>
      if w.step < 32 then
        some ({ page := 272 + w.step, erase := false
                groups := wordsOnPage (ByteMem.words64 d.sram 0 (0x178000 + 512 * w.step) 512) 0 }, w')
      else none
    | .refresh p _ => if w.step = 0 then some ({ page := p, erase := true, groups := d.pageGroups p }, w') else none
    | .commit slot q check _ =>
      slotNext w slot (d.stageSrc.words 0 d.stageSrc.length) (withNot q) (mkGroup check commitPattern)
    | .rewrite src =>
      let g := d.slotSrc src
      slotNext w (1 - src) (g.words 0 g.length) (g.num g.commitAt 8) (g.num (g.commitAt + 8) 8)
    | .key region kind value _ => if w.step = 0 then d.keyNext w region kind value else none
    | .counter id op arg _ =>
      if w.step = 0 then
        let q := match d.newestSeq id with | some q => (q + 1) % 0x100000000 | none => 0
        let old := d.counter id
        if op = 1 then
          let v := (old + arg) % 2 ^ 64
          d.counterNext w id (1, q, if hi32 v ≠ hi32 old then markCarry else markNoCarry, v)
        else d.counterNext w id (2, q, markSet, arg % 2 ^ 64)
      else none
    | .recover id q value => if w.step = 0 then d.counterNext w id (4, q, markSet, value) else none
    | .compact => d.compactNext w
    | .holdBank bank q plan sensors models => holdNext w bank q plan sensors models
    | .dumpErase => if w.step < 32 then some ({ page := 272 + w.step, erase := true, groups := [] }, w') else none
    | .hostErase first last =>
      if first + w.step ≤ last then some ({ page := first + w.step, erase := true, groups := [] }, w') else none
    | .hostProgram p =>
      if w.step = 0 then
        let ws := (List.range 64).map fun g => d.rd (NVM_BUF_DATA (2 * g)) + 0x100000000 * d.rd (NVM_BUF_DATA (2 * g + 1))
        some ({ page := p, erase := false, groups := wordsOnPage ws 0 }, w')
      else none
    | .log e => if w.step = 0 then d.logNext w e else none

/-! ### How work ends -/

/-- NVM_RESULT and DONE of a host command (R310). -/
def Dev.nvmResult (code page : Nat) (d : Dev) : Dev :=
  nvmEvt 0 (((d.wr NVM_RESULT_DONE 1).wr NVM_RESULT_CODE code).wr NVM_RESULT_PAGE page)

/-- NVM_CNT_STAT of a host command (R326). -/
def Dev.cntResult (code : Nat) (d : Dev) : Dev :=
  ((d.wr NVM_CNT_STAT_BUSY 0).wr NVM_CNT_STAT_DONE 1).wr NVM_CNT_STAT_CODE code

/-- A firing that is not logged is counted with its source (11 R299). [DEDUCED, log 129] -/
def Dev.notLogged (e : LogEntry) (d : Dev) : Dev :=
  if e.code = 1 then
    { d with flt := { d.flt with
        notLogged := updAt d.flt.notLogged (e.arg % 64) fun n => min 1023 (n + 1 + e.arg / 1024) } }
  else d

/-- A key takes effect: set and open (R332). -/
def Dev.keySet (region kind value : Nat) (d : Dev) : Dev :=
  (d.wr (keySetFld region kind) (b2n (decide (value ≠ 0)))).wr (keyOpenFld region kind) 1

/-- Work that belongs to the counter scan: the compaction that it resumes, and its RECOVER records (R323, R324). -/
def NvmKind.ofScan : NvmKind → Bool
  | .compact => true
  | .recover _ _ _ => true
  | _ => false

/-- The counter scan ends once its records and its compaction are written: the counters take their values, READY sets, and the resets
that passed are counted (R320, R324). [DEDUCED, log 137] -/
def Dev.scanEnd (d : Dev) : Dev :=
  match d.nvmc.scan with
  | none => d
  | some vs =>
    if (d.nvmc.queue.any fun w => w.kind.ofScan) || d.nvmc.cur.any fun w => w.kind.ofScan then d
    else
      let d := forN 32 (fun id d => d.setCounter id (vs.getD id 0)) { d with nvmc := { d.nvmc with scan := none } }
      let d := d.wr NVM_CNT_STAT_READY 1
      let d := d.boot.tally.foldl (fun d id => d.cntAdd id 1) d
      { d with boot := { d.boot with tally := [] } }

/-- A piece of work is complete. -/
def Dev.nvmDone (w : NvmWork) (d : Dev) : Dev :=
  match w.kind with
  | .dumpCopy run =>
    let d := { d with flt := { d.flt with dumpCopy := none } }
    (match run with | some r => d.mbxOutcome r 0 [32768, 16384] | none => d)
  | .refresh p n =>
    (((nvmEvt 3 (d.bump NVM_REFRESH_CNT_COUNT)).fire 41 p).logEvent 8 p n).cntAdd 5 1
  | .commit slot q check run =>
    (((d.mbxOutcome run 0 [slot, check, 0]).cntAdd 6 1).logEvent 5 slot q)
  | .rewrite _ => d.wr DEV_BOOT_STAT_REPAIR_PEND 0
  | .key region kind value run => ((d.keySet region kind value).mbxOutcome run 0 []).logEvent 6 (region + 256 * kind) 0
  | .counter _ _ _ host => if host then d.cntResult 0 else d
  | .recover _ _ _ => d.scanEnd
  | .compact => d.scanEnd
  | .holdBank bank _ _ _ _ => { d with nvmc := { d.nvmc with holdLast := bank } }
  | .dumpErase => (d.wr FLT_DUMP_STAT_NVM_HELD 0).wr FLT_DUMP_STAT_NVM_PAGES 0
  | .hostErase _ last => d.nvmResult 0 last
  | .hostProgram p => d.nvmResult 0 p
  | .log _ => d

/-- A piece of work ends at a page, refused by the supply check (`power`) or by verification; `code` is the result of a
host command. -/
def Dev.nvmFail (w : NvmWork) (page : Nat) (power : Bool) (code : Nat) (d : Dev) : Dev :=
  let mc := if power then 0x0A else 0x0B
  match w.kind with
  | .dumpCopy run =>
    let d := { d with flt := { d.flt with dumpCopy := none } }
    let d := d.fire 49 0
    (match run with | some r => d.mbxOutcome r mc [32768, 512 * d.rd FLT_DUMP_STAT_NVM_PAGES] | none => d)
  | .refresh _ _ => d.cntAdd 5 1
  | .commit slot q check run => (d.mbxOutcome run mc [slot, check, 0]).logEvent 5 (slot + 256 * mc) q
  | .rewrite _ => if power then { d with nvmc := { d.nvmc with parked := some (NvmWork.new w.kind) } } else d
  | .key region kind _ run => (d.mbxOutcome run mc []).logEvent 6 (region + 256 * kind + 512 * mc) 0
  | .counter _ _ _ host => if host then d.cntResult (if power then 1 else 5) else d
  | .hostErase _ _ => d.nvmResult code page
  | .hostProgram _ => d.nvmResult code page
  | .log e => d.notLogged e
  | .recover _ _ _ => d.scanEnd
  | .compact => d.scanEnd
  | .holdBank _ _ _ _ _ => d
  | .dumpErase => d

/-! ### Scheduling and the supply check (R311, R315) -/

/-- The class of a piece of work (R315). -/
def NvmKind.cls : NvmKind → Nat
  | .dumpCopy _ => 1
  | .refresh _ _ => 2
  | .commit _ _ _ _ => 3
  | .rewrite _ => 3
  | .key _ _ _ _ => 4
  | .counter _ _ _ _ => 4
  | .recover _ _ _ => 4
  | .compact => 4
  | .holdBank _ _ _ _ _ => 4
  | .dumpErase => 4
  | .hostErase _ _ => 5
  | .hostProgram _ => 5
  | .log _ => 6

/-- The work waits for the counter scan: no counter has a value before it (R324). [DEDUCED, log 137] -/
def NvmKind.waitsScan : NvmKind → Bool
  | .counter _ _ _ _ => true
  | _ => false

/-- The first work of the highest class that has any, and the queue without it (R315). -/
def Dev.nvmPick (d : Dev) : Option (NvmWork × List NvmWork) :=
  let ready := d.flag NVM_CNT_STAT_READY
  let idx := (List.range d.nvmc.queue.length).foldl (fun b k =>
    match d.nvmc.queue[k]? with
    | some w =>
      if w.kind.waitsScan ∧ ¬ ready then b
      else
        (match b with
        | some (j, c) => if w.kind.cls < c then some (k, w.kind.cls) else some (j, c)
        | none => some (k, w.kind.cls))
    | none => b) (none : Option (Nat × Nat))
  match idx with
  | some (k, _) => (d.nvmc.queue[k]?).map fun w => (w, d.nvmc.queue.eraseIdx k)
  | none => none

/-- The supply check (R311): VHOLD at 3.10 V or above, VDD_NVM in its range. -/
def Dev.supplyOk (d : Dev) (inRange : Bool) : Bool := d.flag NVM_STAT_VHOLD_OK && inRange && !d.nvmDark

/-- An erased page of a slot reads without error. -/
def Dev.slotMended (p : Nat) (d : Dev) : Dev :=
  let keep := fun (s : Nat) (bs : List Nat) => bs.filter fun o => decide (96 * s + o / 512 ≠ p)
  d.slotFound (keep 0 d.boot.badA) (keep 1 d.boot.badB)

/-- An address lies in a page. -/
def inPage (p a : Nat) : Bool := decide (pageAddr p ≤ a) && decide (a < pageAddr p + 512)

/-- A page is erased: no group of it is programmed or reads with an error (R308). -/
def Dev.erasePage (p : Nat) (d : Dev) : Dev :=
  { d with
    nvm := ByteMem.clear d.nvm (pageAddr p) 512
    nvmOnes := d.nvmOnes.filter fun a => !inPage p a
    nvmErrs := d.nvmErrs.filter fun a => !inPage p a }.slotMended p

/-- A group is programmed with its check bits (R308). -/
def Dev.setGroup (a v : Nat) (d : Dev) : Dev :=
  let d := d.setNvm a (leBytes 8 v)
  if v % 2 ^ 64 = erasedGroup then { d with nvmOnes := insertAddr a d.nvmOnes } else d

/-- The content the page will have when an operation ends (R309). [DEDUCED, log 130] -/
def Dev.applyOp (op : AtomOp) (d : Dev) : Dev :=
  let d := if op.erase then d.erasePage op.page else d
  op.groups.foldl (fun d g => d.setGroup (pageAddr op.page + 8 * g.1) g.2) d

/-- An operation starts: from here the page reads from the controller's buffer (R309, R311). [DEDUCED, log 130] -/
def Dev.startOp (op : AtomOp) (d : Dev) : Dev :=
  let code := if op.erase then (if op.groups.isEmpty then 1 else 3) else 2
  let d := (((d.wr NVM_STAT_WAIT_POWER 0).wr NVM_STAT_BUSY 1).wr NVM_STAT_OP code).wr NVM_STAT_PAGE op.page
  d.applyOp op

/-- A program names a group that is not erased (R312). [DEDUCED, log 132] -/
def Dev.progTwice (d : Dev) (op : AtomOp) : Bool :=
  !op.erase && op.groups.any fun g => !d.erased (pageAddr op.page + 8 * g.1)

/-- The words of the image that a write of a slot puts there, and the slot. -/
def Dev.slotWords (d : Dev) : NvmKind → Option (Nat × List Nat)
  | .commit slot _ _ _ => some (slot, d.stageSrc.words 0 d.stageSrc.length)
  | .rewrite src => some (1 - src, (d.slotSrc src).words 0 (d.slotSrc src).length)
  | _ => none

/-- The read-back of the whole image, made before its first commit group, finds another content than was written (09 R238). -/
def Dev.readsBackBad (d : Dev) (w : NvmWork) (op : AtomOp) : Bool :=
  match d.slotWords w.kind with
  | some (slot, ws) =>
    !op.erase && decide (op.groups.map Prod.fst = [62]) && decide (op.page = 96 * slot + 95) &&
      decide ((d.slotSrc slot).words 0 (8 * ws.length) ≠ ws)
  | none => false

/-- A piece of work goes on with its next operation, or is complete.  The supply check stands before every read of the array that the
operation rests on (R309, R311, R312; 09 R238, R241): while VDD_NVM is low, or the check fails otherwise, the controller waits, and
what it does is settled anew when the check has passed. [DEDUCED, log 132] -/
def Dev.nvmRun (w : NvmWork) (inRange : Bool) (d : Dev) : Dev :=
  match d.lit.nvmNext w with
  | none => d.nvmDone w
  | some (op, w') =>
    if ¬ d.nvmDark ∧ d.progTwice op then d.nvmFail w op.page false 4
    else if ¬ d.nvmDark ∧ d.readsBackBad w op then d.nvmFail w op.page false 5
    else if d.supplyOk inRange then ({ d with nvmc := { d.nvmc with cur := some w', op := some op } }).startOp op
    else (({ d with nvmc := { d.nvmc with cur := some w, op := some op } }).wr NVM_STAT_WAIT_POWER 1).wr NVM_STAT_PAGE op.page

/-- A patrol step on its page (R316, R317): `weak` groups need correction or differ at a margin, `bad` are uncorrectable; a dark
array reads erased at every reference and shows neither (R309). [DEDUCED, log 135; DESIGN CHOICE, log 23] -/
def Dev.patrolStep (inRange : Bool) (weak : Nat) (bad : List Nat) (d : Dev) : Dev :=
  let p := d.counter 5 % 320
  let d := { d with nvmc := { d.nvmc with due := d.nvmc.due.drop 1 } }
  match if d.nvmDark then [] else bad with
  | g :: _ =>
    let d := d.learnErrs (bad.map fun g => pageAddr p + 8 * (g % 64))
    let d := d.fireAs 40 0 (some { addr := pageAddr p + 8 * (g % 64), master := none, type := accInternal }) false false
    d.cntAdd 5 1
  | [] =>
    if weak = 0 ∨ d.nvmDark then d.cntAdd 5 1
    else d.nvmRun (NvmWork.new (.refresh p weak)) inRange

/-- NVM_WORK_START: between operations the controller takes the next work (R315); none in a reset pulse, where what runs on is the
running operation (13 R350). [DEDUCED, log 135] -/
def Dev.nvmWorkStart (inRange : Bool) (weak : Nat) (bad : List Nat) (d : Dev) : Dev :=
  if d.mode = .reset ∨ d.flag NVM_STAT_BUSY ∨ d.flag NVM_STAT_WAIT_POWER then d
  else
    let step := !d.nvmc.due.isEmpty && decide (d.mode ≠ .sleep) && d.flag NVM_CNT_STAT_READY
    let late := d.nvmc.due.any fun u => u.late
    match d.nvmPick with
    | some (w, rest) =>
      if step ∧ late ∧ 2 ≤ w.kind.cls then d.patrolStep inRange weak bad
      else ({ d with nvmc := { d.nvmc with queue := rest } }).nvmRun w inRange
    | none => if step then d.patrolStep inRange weak bad else d

/-- NVM_SUPPLY_RETRY: a failed supply check is repeated after 100 us (R311); once it passes the work goes on. -/
def Dev.supplyRetry (inRange : Bool) (d : Dev) : Dev :=
  match d.nvmc.cur with
  | some w =>
    if d.flag NVM_STAT_WAIT_POWER ∧ d.supplyOk inRange then
      (({ d with nvmc := { d.nvmc with cur := none, op := none } }).wr NVM_STAT_WAIT_POWER 0).nvmRun w inRange
    else d
  | none => d

/-- NVM_SUPPLY_TIMEOUT: the check still fails after 100 ms (R311). -/
def Dev.supplyTimeout (d : Dev) : Dev :=
  match d.nvmc.op with
  | some op =>
    if d.flag NVM_STAT_WAIT_POWER then
      let w := d.nvmc.cur
      let d := { d with nvmc := { d.nvmc with cur := none, op := none } }
      let d := (nvmEvt 6 (d.wr NVM_STAT_WAIT_POWER 0)).fire 45 op.page
      (match w with | some w => d.nvmFail w op.page true 1 | none => d)
    else d
  | none => d

/-- What an operation that has verified does beside its work's own end: a counter record applies at its last group (R322);
a page of a dump copy counts (11 R301). -/
def Dev.opEffect (w : NvmWork) (d : Dev) : Dev :=
  match w.kind with
  | .counter id _ _ _ => if w.step = 1 ∧ w.groups.isEmpty then d.setCounter id w.recVal else d
  | .dumpCopy _ =>
    let d := (d.wr FLT_DUMP_STAT_NVM_PAGES w.step).wr FLT_DUMP_STAT_NVM_HELD 1
    { d with flt := { d.flt with dumpCopy := some (32 - w.step) } }
  | _ => d

/-- The open value `v` of a group after a failed verification; that of the second commit group of a slot is no commit (09 R249;
R314). -/
def spoiled (op : AtomOp) (g v : Nat) : Nat :=
  if op.page < 192 ∧ op.page % 96 = 95 ∧ g = 63 ∧ hi32 v = commitPattern then mkGroup (lo32 v) (commitPattern + 1) else v

/-- The groups an operation touched hold open values after a failed verification. [DESIGN CHOICE, log 13] -/
def Dev.spoilOp (op : AtomOp) (d : Dev) : Dev :=
  let gs := if op.erase then List.range 64 else op.groups.map Prod.fst
  gs.foldl (fun d g =>
    let r := d.draw
    r.2.setNvm (pageAddr op.page + 8 * g) (leBytes 8 (spoiled op g (Config.failedGroup r.1 (pageAddr op.page + 8 * g)).toNat))) d

/-- A page of a dump whose copy has been given up still ends programmed, and counts (11 R301). -/
def Dev.loneEffect (op : AtomOp) (d : Dev) : Dev :=
  if 272 ≤ op.page ∧ op.page ≤ 303 ∧ ¬ op.erase ∧ d.nvmc.rstDue.isNone then
    (d.wr FLT_DUMP_STAT_NVM_PAGES (op.page - 271)).wr FLT_DUMP_STAT_NVM_HELD 1
  else d

/-- The address of a register of the NVM block (R340). -/
def inNvmBlock (a : Nat) : Bool := decide (0x090000 ≤ a) && decide (a < 0x0A0000)

/-- Fields of NVM_STAT that no reset changes: the running operation and the live supply bits (R311). -/
def nvmLive : List Fld := [NVM_STAT_BUSY, NVM_STAT_OP, NVM_STAT_PAGE, NVM_STAT_VHOLD_OK, NVM_STAT_VDD_NVM_OK]

/-- The listed fields of `new` take their values of `old`. -/
def keepFlds (fs : List Fld) (old new : Dev) : Dev := fs.foldl (fun d f => d.wr f (old.rd f)) new

/-- A reset through BOOT that waited for the running operation takes effect on the controller's registers (R311, R330, R331).
[DEDUCED, log 202] -/
def Dev.nvmRstEnd (d : Dev) : Dev :=
  match d.nvmc.rstDue with
  | none => d
  | some k =>
    let n := { d with live := d.live.filter fun e => !inNvmBlock e.1, nvmc := { d.nvmc with rstDue := none } }
    keepFlds (nvmLive ++ if k = .por then [] else [NVM_STAT_FAILS, NVM_STAT_LOCKOUT]) d n

/-- NVM_OP_DONE: an operation ends and is verified, and a reset that waited for it acts (R311, R312). [DEDUCED, log 134] -/
def Dev.nvmOpDone (ok : Bool) (d : Dev) : Dev :=
  match d.nvmc.op with
  | some op =>
    if ¬ d.flag NVM_STAT_BUSY then d
    else
      let w := d.nvmc.cur
      let d := { d with nvmc := { d.nvmc with cur := none, op := none } }
      let d := ((d.wr NVM_STAT_BUSY 0).wr NVM_STAT_OP 0).bump NVM_OPS_CNT_COUNT
      let d := if ok then
          match w with
          | none => d.loneEffect op
          | some w =>
            let d := d.opEffect w
            if (d.lit.nvmNext w).isNone then d.nvmDone w
            else { d with nvmc := { d.nvmc with queue := w :: d.nvmc.queue } }
        else
          let d := (nvmEvt 5 (d.spoilOp op)).fire 43 op.page
          match w with | some w => d.nvmFail w op.page false 5 | none => d
      d.nvmRstEnd
  | none => d

/-- The entry of the event log that a piece of work would have written, where its last group is not already running. -/
def Dev.unwritten (d : Dev) (w : NvmWork) : Option LogEntry :=
  match w.kind with
  | .log e => if d.nvmc.cur = some w ∧ d.flag NVM_STAT_BUSY ∧ w.step = 1 ∧ w.groups.isEmpty then none else some e
  | _ => none

/-- A reset discards every operation not yet started; one that runs goes to its end (R311, R315).  A firing whose entry is
discarded is not logged, and counts as such with its source (11 R299). -/
def Dev.nvmReset (d : Dev) : Dev :=
  let running := d.flag NVM_STAT_BUSY
  let lost := (d.nvmc.cur.toList ++ d.nvmc.queue).filterMap d.unwritten
  let d := { d with nvmc := { d.nvmc with
    queue := [], cur := none, op := if running then d.nvmc.op else none, scan := none } }
  (lost.foldl (fun d e => d.notLogged e) d).wr NVM_STAT_WAIT_POWER 0

/-! ### The patrol (R316, R318) -/

/-- PATROL_DUE: a step falls due. -/
def Dev.patrolDue (d : Dev) : Dev :=
  if d.flag NVM_CTL_PATROL_EN then
    { d with nvmc := { d.nvmc with due := d.nvmc.due ++ [{ at_ := d.clk.tclk, late := false }] } }
  else d

/-- PATROL_OVERDUE: the oldest step that is not yet overdue becomes so (R318). -/
def Dev.patrolOverdue (d : Dev) : Dev :=
  match (List.range d.nvmc.due.length).find? fun k => (d.nvmc.due[k]?).any fun u => !u.late with
  | some k =>
    let d := { d with nvmc := { d.nvmc with due := updAt d.nvmc.due k fun u => { u with late := true } } }
    (nvmEvt 4 d).fire 42 (d.counter 5 % 320)
  | none => d

/-! ### The counter scan (R324, R325) -/

/-- The value of a committed record (R321). -/
def Dev.recValue (d : Dev) (i : Nat) : Nat := lo32 (d.recGroup i 1) + 0x100000000 * lo32 (d.recGroup i 3)

/-- What the scan finds for a counter: its value, the slots for which COUNTER_RECOV fires, and the RECOVER record to
write: SEQ and value. -/
structure ScanResult where
  value : Nat
  fires : List Nat
  recover : Option (Nat × Nat)
  deriving DecidableEq, Repr

/-- PSEQ of the page of a slot. -/
def Dev.slotPageSeq (d : Dev) (i : Nat) : Nat := (d.pageSeq (i / 8)).getD 0

/-- Of two committed records with one SEQ, the one that is taken, and whether their values differ (R325); `corr` are the
slots read with a correction. -/
def Dev.recPrefer (d : Dev) (corr : List Nat) (i j : Nat) : Nat × Bool :=
  let newerPage := if serialNewer (d.slotPageSeq j) (d.slotPageSeq i) then j else i
  if d.recValue i = d.recValue j then (newerPage, false)
  else if corr.contains i ∧ ¬ corr.contains j then (j, true)
  else if corr.contains j ∧ ¬ corr.contains i then (i, true)
  else (newerPage, true)

/-- The value that an interrupted update leaves, over the last committed value `v` (R324). -/
def recCompleted (d0 mark d1 : Option Nat) (v : Nat) : Nat :=
  match d0, mark with
  | some lo, some m =>
    match d1 with
    | some hi => mkGroup lo hi
    | none =>
      if m = markCarry then mkGroup lo (hi32 v + 1)
      else if m = markNoCarry then mkGroup lo (hi32 v)
      else v
  | _, _ => v

/-- The scan of one counter (R324, R325). -/
def Dev.scanCounter (d : Dev) (corr : List Nat) (id : Nat) : ScanResult :=
  let all := d.committedOf id
  let sound := fun i => (d.recPair i 1).isSome && (d.recPair i 3).isSome
  let absent := all.filter fun i => !sound i
  let cs := all.filter sound
  let best := cs.foldl (fun (b : Option Nat × List Nat) i =>
    match b.1 with
    | none => (some i, b.2)
    | some j =>
      if serialNewer (d.recSeq i) (d.recSeq j) then (some i, b.2)
      else if d.recSeq i = d.recSeq j then
        let r := d.recPrefer corr j i
        (some r.1, if r.2 then b.2 ++ [r.1] else b.2)
      else b) (none, [])
  let v := match best.1 with | some i => d.recValue i | none => 0
  let u := recSlots.find? fun i =>
    !d.recCommitted i &&
      (match d.recHeader i with
      | some (k, q) => decide (k = id) && (match best.1 with | some j => serialNewer q (d.recSeq j) | none => true)
      | none => false)
  match u with
  | none => { value := v, fires := absent ++ best.2, recover := none }
  | some i =>
    let v' := recCompleted (d.recPair i 1) (d.recMark i) (d.recPair i 3) v
    { value := v', fires := absent ++ best.2 ++ [i]
      recover := if v' ≠ v then some ((d.recSeq i + 1) % 0x100000000, v') else none }

/-- COUNTER_SCAN_DONE (R324): the region has been read; `corr` are the slots read with a correction, `bad` the addresses of the
groups read with an uncorrectable error. The RECOVER records and the compaction that it asks for belong to the scan, which ends when
they are written (R323). [DEDUCED, log 137] -/
def Dev.counterScan (corr bad : List Nat) (d : Dev) : Dev :=
  if d.flag NVM_CNT_STAT_READY ∨ d.nvmc.scan.isSome then d
  else
    let corr := if d.nvmDark then [] else corr
    let d := d.learnErrs bad
    let rs : List (Nat × ScanResult) := (List.range 32).map fun id => (id, d.scanCounter corr id)
    let half := match d.openPage with | some (o, _) => !d.pageErased (nextCounterPage o) | none => false
    let d := d.when half (Dev.nvmRequest .compact)
    let d := rs.foldl (fun d r =>
      let d := r.2.fires.foldl (fun d i => (nvmEvt 10 d).fire 48 i) d
      match r.2.recover with
      | some (q, v) => d.nvmRequest (.recover r.1 q v)
      | none => d) d
    ({ d with nvmc := { d.nvmc with scan := some (rs.map fun (r : Nat × ScanResult) => r.2.value) } }).scanEnd

/-- POWERED_HOUR (R320): 3,600 s of UTICK outside RESET. -/
def Dev.poweredHour (d : Dev) : Dev := if d.mode = .reset then d else d.cntAdd 2 1

/-- Real FATAL firings since the last record go into counter 3, at most one record per second (R320). -/
def Dev.flushFatals (d : Dev) : Dev :=
  if d.nvmc.fatals = 0 then d
  else
    let n := d.nvmc.fatals
    ({ d with nvmc := { d.nvmc with fatals := 0 } }).cntAdd 3 n

/-- IMG_REWRITE_RETRY: a parked tie rewrite tries again (09 R241). [DEDUCED, log 97] -/
def Dev.rewriteRetry (d : Dev) : Dev :=
  match d.nvmc.parked with
  | some w => { d with nvmc := { d.nvmc with parked := none, queue := d.nvmc.queue ++ [w] } }
  | none => d

/-- LOG_ENTRY: the shepherd core appends the oldest waiting entry (11 R299; R319).
[DEDUCED, log 129; DESIGN CHOICE, log 156] -/
def Dev.logEntry (d : Dev) : Dev :=
  match d.flt.logWait with
  | [] => d
  | e :: t =>
    let d := { d with flt := { d.flt with logWait := t } }
    let src := e.arg % 64
    let now := d.clk.tclk / (usTclk * 1000000)
    if e.code = 1 then
      if d.isLive 12 ∨ d.flt.lastLogSec.getD src none = some now then d.notLogged e
      else
        let missed := d.flt.notLogged.getD src 0
        let d := { d with flt := { d.flt with
          notLogged := updAt d.flt.notLogged src fun _ => 0
          lastLogSec := updAt d.flt.lastLogSec src fun _ => some now
          events := (d.flt.events ++ [{ e with arg := e.arg + 1024 * missed }]).drop (d.flt.events.length + 1 - 384) } }
        d.nvmRequest (.log { e with arg := e.arg + 1024 * missed })
    else
      let d := { d with flt := { d.flt with events := (d.flt.events ++ [e]).drop (d.flt.events.length + 1 - 384) } }
      if d.isLive 12 then d else d.nvmRequest (.log e)

/-- NVM_ECC: a read of the array finds an error (R309). -/
def Dev.nvmEcc (addr : Nat) (master : Nat) (type : Nat) (double : Bool) (d : Dev) : Dev :=
  if d.nvmDark then d
  else if double then (nvmEvt 2 ((d.learnErrs [addr]).bump NVM_DED_CNT_COUNT)).fireAcc 40 0 addr (some master) type
  else nvmEvt 1 (d.bump NVM_SEC_CNT_COUNT)

end Sys2Proof.Machine
end

