-- ==== Sys2Proof/Machine/NvmCmds.lean ====
section
/-!
DEFINITION. The commands of the NVM block: NVM_CMD, the key commands, the host's counter commands (12 R310, R322, R326,
R330, R331), and the ticks of the shepherd core that write holdover banks (R327).
-/

namespace Sys2Proof.Machine

/-- Masters 2 and 7 are never subject to keys (R329). -/
def keyed (m : Nat) : Bool := m ≠ 2 && m ≠ 7

/-- A master may use what a key guards (R329). -/
def Dev.keyPasses (d : Dev) (m region kind : Nat) : Bool := !keyed m || d.keyOpen region kind

/-- A host command is queued or running (R315). -/
def Dev.nvmCmdBusy (d : Dev) : Bool :=
  (d.nvmc.queue.any fun w => decide (w.kind.cls = 5)) || d.nvmc.cur.any fun w => decide (w.kind.cls = 5)

/-- First and last page of the regions that ERASE_REGION takes, by key code (R310). -/
def eraseRange : Nat → Option (Nat × Nat)
  | 1 => some (192, 239)
  | 3 => some (256, 271)
  | 5 => some (305, 319)
  | _ => none

/-- NVM_CMD accepted: DONE clears until the command completes. -/
def Dev.nvmHostWork (k : NvmKind) (d : Dev) : Dev := (d.wr NVM_RESULT_DONE 0).nvmRequest k

/-- NVM_CMD.GO by master `m` (R310, R312, R315): a target outside the command's regions completes with REGION, a closed
WRITE key with KEY. [DEDUCED, log 133] -/
def Dev.nvmCmdGo (m : Nat) (d : Dev) : Dev :=
  if d.nvmCmdBusy then nvmEvt 12 d
  else
    let op := d.rd NVM_CMD_OP
    let page := d.rd NVM_CMD_PAGE
    if op = 1 ∨ op = 2 then
      if page < 305 ∨ 319 < page then d.nvmResult 3 page
      else if ¬ d.keyPasses m 5 1 then d.nvmResult 2 page
      else d.nvmHostWork (if op = 1 then .hostErase page page else .hostProgram page)
    else if op = 3 then
      match eraseRange (d.rd NVM_CMD_REGION) with
      | none => d.nvmResult 3 page
      | some (a, b) =>
        if ¬ d.keyPasses m (d.rd NVM_CMD_REGION) 1 then d.nvmResult 2 a else d.nvmHostWork (.hostErase a b)
    else d.nvmResult 3 page

/-- Lockout starts (R331): every key that is not 0 is closed. -/
def Dev.lockout (region : Nat) (d : Dev) : Dev :=
  let d := d.wr NVM_STAT_LOCKOUT 1
  let d := keyPairs.foldl (fun d rk =>
    if d.flag (keySetFld rk.1 rk.2) then d.wr (keyOpenFld rk.1 rk.2) 0 else d) d
  (nvmEvt 9 d).fire 44 region

/-- A failed unlock attempt (R330, R331). -/
def Dev.keyFailure (m region kind : Nat) (d : Dev) : Dev :=
  let n := min 8 (d.rd NVM_STAT_FAILS + 1)
  let d := d.wr NVM_STAT_FAILS n
  let d := ((nvmEvt 8 d).cntAdd 7 1).logEvent 7 (region + 256 * kind + 512 * n) m
  if n = 8 ∧ ¬ d.flag NVM_STAT_LOCKOUT then d.lockout region else d

/-- NVM_UNLOCK_CMD.GO by master `m` (R330). [DEDUCED, log 133] -/
def Dev.unlockGo (m : Nat) (d : Dev) : Dev :=
  let region := d.rd NVM_UNLOCK_CMD_REGION
  let kind := d.rd NVM_UNLOCK_CMD_KIND
  let cand := d.rd NVM_UNLOCK_LO_KEY + 0x100000000 * d.rd NVM_UNLOCK_HI_KEY
  let d := (d.wr NVM_UNLOCK_LO_KEY 0).wr NVM_UNLOCK_HI_KEY 0
  if 5 < region ∨ d.flag NVM_STAT_LOCKOUT then nvmEvt 12 d
  else if d.flag NVM_UNLOCK_CMD_LOCK then
    if d.flag (keySetFld region kind) then d.wr (keyOpenFld region kind) 0 else d
  else
    let key := d.keyOf region kind
    if ¬ d.flag (keySetFld region kind) ∨ cand = key then d.wr (keyOpenFld region kind) 1
    else d.keyFailure m region kind

/-- NVM_CNT_CMD.GO by master `m` (R322, R326). [DEDUCED, log 133] -/
def Dev.cntGo (m : Nat) (d : Dev) : Dev :=
  if ¬ d.flag NVM_CNT_STAT_READY ∨ d.flag NVM_CNT_STAT_BUSY then nvmEvt 12 d
  else
    let op := d.rd NVM_CNT_CMD_OP
    let id := d.rd NVM_CNT_CMD_ID
    let arg := d.rd NVM_CNT_ARG_LO_ARG + 0x100000000 * d.rd NVM_CNT_ARG_HI_ARG
    if ¬ d.keyPasses m 2 1 then d.cntResult 2
    else if id < 8 then d.cntResult 3
    else if (op ≠ 1 ∧ op ≠ 2) ∨ (op = 1 ∧ (arg = 0 ∨ 0x100000000 ≤ arg)) then d.cntResult 4
    else ((d.wr NVM_CNT_STAT_BUSY 1).wr NVM_CNT_STAT_DONE 0).nvmRequest (.counter id op arg true)

/-! ### Holdover banks (R327) -/

/-- SEQ of a committed bank: its group C is valid (R314, R327). -/
def Dev.bankSeq (d : Dev) (b : Nat) : Option Nat :=
  let a := pageAddr (256 + 8 * b) + 0xFF8
  let c := d.group a
  if lo32 c = commitPattern ∧ ¬ d.groupBad a then some (hi32 c) else none

/-- A group of a bank is known to read with an uncorrectable error (R314). -/
def Dev.bankBad (d : Dev) (b : Nat) : Bool :=
  d.nvmErrs.any fun a => decide (pageAddr (256 + 8 * b) ≤ a) && decide (a < pageAddr (264 + 8 * b))

/-- A committed bank is usable: its groups read without uncorrectable error, its group A agrees with itself and its CHECK verifies
(R327); `bad` are the banks with an uncorrectable group. -/
def Dev.bankUsable (d : Dev) (bad : List Nat) (b : Nat) : Bool :=
  let a := pageAddr (256 + 8 * b)
  let q := (d.bankSeq b).getD 0
  let ga := d.group (a + 0xFE8)
  let gb := d.group (a + 0xFF0)
  (d.bankSeq b).isSome && (d.nvmDark || !(bad.contains b || d.bankBad b)) && decide (hi32 ga = not32 (lo32 ga)) &&
    decide (pairCheck (crcFold q 0 (ByteMem.words64 d.nvmSeen 0xFF a 0x840)) (lo32 gb) (hi32 gb) = 0)

/-- The bank restored at a LEARN start: the newer usable one; with equal SEQ one read without correction, else bank 0 (R327): `corr`
and `bad` are the banks whose reads needed a correction, and those with an uncorrectable group. [DESIGN CHOICE, log 23] -/
def Dev.bankChosen (d : Dev) (corr bad : List Nat) : Option Nat :=
  let q := fun (b : Nat) => (d.bankSeq b).getD 0
  match d.bankUsable bad 0, d.bankUsable bad 1 with
  | true, true =>
    let clean := q 0 = q 1 ∧ corr.contains 0 ∧ ¬ corr.contains 1
    some (if serialNewer (q 1) (q 0) ∨ clean then 1 else 0)
  | true, false => some 0
  | false, true => some 1
  | false, false => none

/-- SEQ for the next bank: one more than the newest of the committed banks. -/
def Dev.nextBankSeq (d : Dev) : Nat :=
  match newestOf ([0, 1].filterMap d.bankSeq) with
  | some q => (q + 1) % 0x100000000
  | none => 0

/-- A holdover bank is to be written: the one not last chosen (R327). [DEDUCED, log 139] -/
def Dev.writeBank (d : Dev) : Dev :=
  d.nvmRequest (.holdBank (1 - d.nvmc.holdLast) d.nextBankSeq (d.rd DEV_IMG_PLAN_PLAN_ID)
    ((List.range 16).map fun n => (d.pad n).learnSensor) d.nvmc.models)

/-- HOLD_BANK_TICK: every 3,600 s while any LEARN is active; `models` is what the core has fitted (R327). -/
def Dev.holdBankTick (models : List HoldModel) (d : Dev) : Dev :=
  if d.pads.any fun p => p.learn then
    ({ d with nvmc := { d.nvmc with models := models } }).writeBank
  else d

end Sys2Proof.Machine
end

