-- ==== Sys2Proof/Machine/Modes.lean ====
section
/-!
DEFINITION. Device modes, folds, SLEEP, resets, and what the collector settles at every edge (11 R284 to R290; 13 R346 to
R357).
-/

namespace Sys2Proof.Machine

/-! ### The measurement engine stops (13 R350, R355) -/

/-- Every conversion stops; cells keep their roles and tables, a calibration in progress is given up, and a retest in progress
has not passed (02 R58), which leaves a working cell less (R57). [DEDUCED, log 35] -/
def Dev.measHalt (d : Dev) : Dev :=
  let d := match d.meas.calRun with
    | some r =>
      let d := { d with meas := { d.meas with calRun := none } }
      if r.retest then (d.setCell r.cell fun c => { c with role := .retired, fault := 6 }).checkShort
      else d.setCell r.cell fun c => { c with role := .job }
    | none => d
  { d with meas := { d.meas with
      events := [], handover := none
      cells := d.meas.cells.map fun c => 
        { c with armed := none, busy := false, pilot := none, standIn := c.standIn && c.armed.isNone } } }

/-! ### SLEEP (13 R355, R356) -/

/-- What SLEEP entry does besides the change of mode (R355). -/
def Dev.sleepEnter (d : Dev) : Dev :=
  let d := d.abortWhere 6 fun _ => true
  let d := ((d.padsSleep).refSleepAll).askSelect none
  (d.outsSleep).measHalt.portsCut

/-- What SLEEP exit does besides the change of mode (R356). -/
def Dev.sleepExit (d : Dev) : Dev :=
  let d := (d.refStartAll).beatsStart
  let d := d.padsWake
  let d := if d.flag DEV_TEMP_VALID then d.judgeDue (d.rdS DEV_TEMP_TEMP) else d
  (d.outsWake).portsPend.askSelect none

/-! ### FOLD (11 R284 to R289; 13 R353) -/

/-- The mode, or in a pulse the mode after it, changes (11 R287). -/
def Dev.setUnder (m : Mode) (d : Dev) : Dev :=
  match d.mode with
  | .reset => { d with priorMode := m }
  | _ => d.changeMode m

/-- The mode, or in a pulse the mode after it, changes on the way to another one of the same edge: no entry (R354). -/
def Dev.setUnderQuiet (m : Mode) (d : Dev) : Dev :=
  match d.mode with
  | .reset => { d with priorMode := m }
  | _ => d.setMode m

/-- A fold by the collector (11 R284, R289; 08 R225; 13 R353); from SLEEP it performs the SLEEP exit. [DEDUCED, log 92] -/
def Dev.enterFold (d : Dev) : Dev :=
  match d.underMode with
  | .reset | .boot => d
  | .fold => d.wr FLT_STAT_FOLD_REQ 1
  | m =>
    let d := if m = .sleep then (d.setUnderQuiet .run).sleepExit else d
    let d := ((d.bump FLT_FOLDS_COUNT).wr FLT_STAT_FOLD_REQ 1).setUnder .fold
    let d := (d.outsFold).portsFold
    match d.firstError d.latched with
    | some (src, sev, t) => d.sendNotice src sev true t
    | none => d

/-- The device leaves FOLD (11 R289; 13 R353; 06 R182). -/
def Dev.leaveFold (d : Dev) : Dev := (d.setUnder .run).outsUnfold

/-- A fold that the present edge has called for; one that the apply edge has called for waits for the edge after it (R287).
-/
def Dev.settlePend (d : Dev) : Dev :=
  if d.flt.foldPend && !d.flt.foldNext then
    let d := d.enterFold
    { d with flt := { d.flt with foldPend := false } }
  else d

/-- FOLD_REQ clears, and with AUTO_UNFOLD the device returns to RUN (11 R289). -/
def Dev.settleFold (d : Dev) : Dev :=
  if d.flag FLT_STAT_FOLD_REQ && d.foldMayEnd then
    let d := d.wr FLT_STAT_FOLD_REQ 0
    if d.flag FLT_CFG_AUTO_UNFOLD && decide (d.underMode = .fold) then d.leaveFold else d
  else d

/-- A copy of a dump that no work goes on with has stopped early (11 R301). [DEDUCED, log 127] -/
def Dev.settleCopy (d : Dev) : Dev :=
  let copies := fun (w : NvmWork) => match w.kind with | .dumpCopy _ => true | _ => false
  if d.flt.dumpCopy.isSome && !(d.nvmc.queue.any copies || d.nvmc.cur.any copies) then
    ({ d with flt := { d.flt with dumpCopy := none } }).fire 49 0
  else d

/-- FUNC of button `k` (14 R373). -/
def Dev.pbFunc (d : Dev) (k : Nat) : Nat := d.rd (if k = 0 then CRAFT_PB_CFG_FUNC_0 else CRAFT_PB_CFG_FUNC_1)

/-- Button `k` is debounced low (CRAFT_STAT.PB). -/
def pbBit (k : Nat) : Fld := ⟨rCRAFT_STAT, 8 + k, 8 + k⟩

/-- A lamp test is on: a button with FUNC LAMP is debounced low (14 R374). -/
def Dev.lampTest (d : Dev) : Bool := [0, 1].any fun k => d.flag (pbBit k) && decide (d.pbFunc k = 2)

/-- CRAFT_EVT.LAMP is set while a lamp test is on (14 R374). [DEDUCED, log 205] -/
def Dev.settleLamp (d : Dev) : Dev := d.evtIf (d.lampTest && !d.flag CRAFT_EVT_LAMP) CRAFT_EVT_LAMP

/-- What every edge settles: a dump copy that stopped, a fold called for, FATAL_HELD, the escalation timer, an injection, FOLD_REQ,
FAULT_N (11 R285, R288 to R290, R295), CRAFT_EVT.LAMP (14 R374), and this device's eligibility in its pasture (08 R220). -/
def Dev.finish (d : Dev) : Dev :=
  (((((d.settleCopy.settlePend).settleFatal).settleEsc).settleInj).settleFold).settleElig.settleFn.settleLamp

/-- What the present edge has left to its end, where it has asked for selection: strays begin, presses step, selection is evaluated
on the result of it all, and changed mode requests are judged (04 R121; 05 R146, R154, R156). -/
def Dev.judgeEdge (d : Dev) : Dev :=
  let d := d.straysBegin.buttonSteps.select
  if d.running then d.modeHooks else d

/-- The present edge is over, and what that calls for is settled. -/
def Dev.endEdge (d : Dev) : Dev := d.when d.selNow.isSome fun d => Dev.finish d.judgeEdge

/-- Another edge begins within a command: what the present one has called for is settled. -/
def Dev.nextEdge (d : Dev) : Dev := (Dev.finish d).endEdge.newEdge

/-- ESCALATION_EXPIRY (11 R285). [DEDUCED, log 148] -/
def Dev.escExpiry (d : Dev) : Dev :=
  if d.flag FLT_STAT_ESC_RUN then { d with flt := { d.flt with foldPend := decide (d.underMode ≠ .fold) } } else d

/-- QUIET_EXPIRY (11 R288): the fault state ends, no source that holds it being live or having fired on this edge; a firing
that follows is of a later edge. [DEDUCED, log 123] -/
def Dev.quietExpiry (d : Dev) : Dev :=
  if d.flag FLT_STAT_FSTATE && !d.anyLive fun k => decide (d.rd FLT_CFG_FSTATE_SEV ≤ d.sev k) then
    let d := ((d.wr FLT_STAT_FSTATE 0).bump FLT_RECOV_COUNT).ackEnd
    { d with flt := { d.flt with quietFrom := none } }.closeEdge
  else d

/-- FAULT_N_WIDTH_END (11 R290): an FN_REL that waits takes effect if neither condition holds. [DEDUCED, log 124] -/
def Dev.fnWidthEnd (d : Dev) : Dev :=
  if d.flag FLT_STAT_FN then
    if d.flt.fnRelPend && !d.fnCond then d.fnRelease
    else { d with flt := { d.flt with fnWidthDone := true, fnRelPend := false } }
  else d

/-- FLT_CMD.FN_REL (11 R290). [DEDUCED, log 124] -/
def Dev.fnRel (d : Dev) : Dev :=
  if d.flag FLT_STAT_FN && d.flag FLT_CFG_FN_LATCH then
    if d.flt.fnWidthDone then (if d.fnCond then d else d.fnRelease)
    else { d with flt := { d.flt with fnRelPend := true } }
  else d

/-! ### Mode requests (13 R354) -/

/-- The table of R353 has a transition from `m` on a request `req`. -/
def modeTransition (m : Mode) (req : Nat) : Bool :=
  match m with
  | .run => req = 4 || req = 5
  | .fold | .service | .sleep => req = 2
  | _ => false

/-- The RESULT of a request (R354). [DEDUCED, log 146] -/
def Dev.modeResult (d : Dev) (req : Nat) : Nat :=
  if req ≠ 2 ∧ req ≠ 4 ∧ req ≠ 5 then 6
  else if ¬ modeTransition d.mode req then 2
  else if d.mode = .fold ∧ d.flag FLT_STAT_FOLD_REQ then 3
  else if req = 4 ∧ d.flag DEV_CROOK_LOCK then 4
  else if (req = 4 ∨ req = 5 ∨ d.mode = .service) ∧ d.flag DEV_MBX_STAT_BUSY then 5
  else 1

/-- DEV_MODE_REQ.GO (R354). -/
def Dev.modeReqGo (d : Dev) : Dev :=
  let req := d.rd DEV_MODE_REQ_REQ
  let res := d.modeResult req
  let from_ := d.mode
  let d := d.wr DEV_MODE_REQ_RESULT res
  if res ≠ 1 then d
  else if req = 5 then ((d.sleepEnter).changeMode .sleep).portsPend
  else if req = 4 then d.changeMode .service
  else
    match from_ with
    | .fold => d.leaveFold
    | .sleep => (d.changeMode .run).sleepExit
    | _ => d.changeMode .run

/-! ### Supply monitors (11 R281; 13 R343, R344) -/

/-- The source of an undervoltage monitor and its instance: rails 0 VDD_CORE, 1 VDD_ANA, 2 to 4 VDD_OUT_A to _C, 5 VDD_NVM, 6 VHOLD
(11 R281). -/
def railSource (rail : Nat) : Nat × Nat :=
  match rail with
  | 0 => (8, 0) | 1 => (9, 0) | 5 => (11, 0) | 6 => (12, 0) | r => (10, r - 2)

/-- The undervoltage source of a rail becomes live or is no longer live. -/
def Dev.railLevel (rail : Nat) (low : Bool) (d : Dev) : Dev :=
  let p := railSource rail
  d.level p.1 p.2 p.2 low

/-- BOOT begins with the monitors judging: a rail that is low is live, and fires (R343, R344). [DEDUCED, log 142] -/
def Dev.railsJudge (d : Dev) : Dev := d.railLow.foldl (fun d r => d.railLevel r true) d

/-- SUPPLY_UNDERVOLTAGE: a rail falls below its monitor threshold, or rises above it again (R344). [DEDUCED, log 145] -/
def Dev.supply (rail : Nat) (onset : Bool) (d : Dev) : Dev :=
  if 6 < rail then d
  else
    let ok := b2n !onset
    let others := d.railLow.filter fun r => decide (r ≠ rail)
    let d := { d with railLow := if onset then rail :: others else others }
    let d := d.wr ⟨rDEV_SUPPLY, rail, rail⟩ ok
    let d := if rail = 5 then d.wr NVM_STAT_VDD_NVM_OK ok else if rail = 6 then d.wr NVM_STAT_VHOLD_OK ok else d
    d.railLevel rail onset

/-! ### Resets (13 R346 to R350, R357) -/

/-- Position of a reset kind in R346, which is its precedence and its code in DEV_RESET.LAST. -/
def ResetKind.rank : ResetKind → Nat
  | .por => 0 | .pin => 1 | .soft => 2 | .warm => 3 | .wdog => 4

/-- A reset of a kind takes effect: not in the pulse of a kind of the same or an earlier row (R346). -/
def Dev.resetTakes (d : Dev) (k : ResetKind) : Bool := d.mode ≠ .reset || decide (k.rank < d.resetKind.rank)

/-- DEV_RESET_CAUSE, DEV_RESET.LAST, the RESET entry and the counter of resets (R357; 12 R319, R320). -/
def Dev.markReset (k : ResetKind) (d : Dev) : Dev :=
  let d := (d.evtMask rDEV_RESET_CAUSE (2 ^ k.rank)).wr DEV_RESET_LAST k.rank
  let d := d.logEvent 2 k.rank (d.word rDEV_RESET_CAUSE).toNat
  { d with boot := { d.boot with tally := d.boot.tally ++ [if k = .por then 0 else 1] } }

/-- The clocks of a reset that restarts the system PLL (01 R16; R357). -/
def Clock.restart (c : Clock) : Clock := { Clock.fresh with tclk := c.tclk, edge := c.edge, closed := c.closed }

/-- Live levels outside the device: the supply monitors and the craft pins. [DEDUCED, log 142] -/
def extLive : List Fld := [⟨rDEV_SUPPLY, 6, 0⟩, CRAFT_STAT_PLUG, CRAFT_STAT_PB]

/-- What every reset of kind `k` that passes through BOOT keeps: the array, its running operation, which the registers of the
controller stay with until it ends (12 R311), the levels of the pins and supplies, and the model's own counts.
[DEDUCED, log 142, 202] -/
def Dev.coldBase (k : ResetKind) (d : Dev) : Dev :=
  let busy := d.flag NVM_STAT_BUSY
  let n : Dev := { Dev.reset with
    live := if busy then d.live.filter fun e => inNvmBlock e.1 else []
    nvm := d.nvm
    nvmOnes := d.nvmOnes
    nvmErrs := d.nvmErrs
    railLow := d.railLow
    clk := d.clk.restart
    nvmc := { NvmCtl.fresh with
      op := if busy then d.nvmc.op else none
      due := [{ at_ := d.clk.tclk, late := false }]
      rstDue := if ¬ busy then none else if d.nvmc.rstDue = some .por then some .por else some k }
    front := { Front.fresh with gpioExt := d.front.gpioExt }
    resetKind := d.resetKind
    outside := d.outside
    fresh := d.fresh }
  keepFlds (nvmLive ++ extLive) d n

/-- The mode of a pulse, with its MODE entry where the mode changes (R353, R354). -/
def Dev.enterReset (was : Mode) (d : Dev) : Dev := if was = .reset then d.setMode .reset else d.changeMode .reset

/-- Power-on reset: everything but the array is lost; DEV_RESET_CAUSE holds POR alone, with SEQ 0 (R357). -/
def Dev.porReset (d : Dev) : Dev :=
  let n := d.coldBase .por
  let n := { n with resetKind := .por, boot := { n.boot with tally := [0] } }
  (n.enterReset d.mode).logEvent 2 0 1

/-- Registers that a PIN or SOFT reset keeps (R357). [DEDUCED, log 144, 147] -/
def coldKeeps (soft : Bool) (a : Nat) : Bool :=
  (decide (0x070000 ≤ a) && decide (a < 0x070400)) || a = rDEV_MUSTER_SEQ || a = rDEV_MUSTER_SEC || a = rDEV_MUSTER_NS ||
  a = rDEV_RESET_CAUSE ||
  (soft && (a = rDEV_TEMP || a = rDEV_CROOK ||
    (decide (0x061000 ≤ a) && decide (a < 0x061800) && decide (a % 32 = 8)) ||
    (decide (0x060100 ≤ a) && decide (a < 0x0601C0))))

/-- SRAM that a PIN or SOFT reset keeps: TALLY, STAGE, DUMP, and after SOFT CALTAB (R357; 01 R27). [DEDUCED, log 143] -/
def sramKeeps (soft : Bool) (a : Nat) : Bool :=
  decide (a < 0x14C000) || decide (0x178000 ≤ a) || (soft && decide (0x160000 ≤ a) && decide (a < 0x170000))

/-- The rings and slots as a PIN or SOFT reset keeps them; the port starts afresh (R357). [DEDUCED, log 46, 144] -/
def Jobs.coldKeep (j : Jobs) : Jobs :=
  { j with
    rings := j.rings.map fun g => { g with sent := 0, top := 0, replayFrom := none }
    tp := TpState.fresh }

/-- A PIN or SOFT reset (R357).  A channel's count in progress and its last forwarded and converted edges survive SOFT, as its channel
state does. [DESIGN CHOICE, log 188] -/
def Dev.coldReset (soft : Bool) (d : Dev) : Dev :=
  let d := d.rstJobs (if soft then 0x12 else 0x11)
  let n := d.coldBase (if soft then .soft else .pin)
  let n := { n with
    live := (d.live.filter fun e => coldKeeps soft e.1).foldl (fun s e => Store.put s e.1 e.2 (resetWord e.1)) n.live
    shadow := d.shadow.filter fun e => decide (0x070000 ≤ e.1) && decide (e.1 < 0x070400)
    held := d.held
    sram := d.sram.filter fun c => sramKeeps soft c.1
    jobs := d.jobs.coldKeep
    boot := { n.boot with tally := d.boot.tally, strap := d.boot.strap, addrStrap := d.boot.addrStrap
                          pinLow := d.boot.pinLow } }
  let n := keepFlds [NVM_STAT_FAILS, NVM_STAT_LOCKOUT] d n
  let n := if soft then
      { n with
        clk := { d.clk with inc := inc0 }
        meas := { (d.measHalt).meas with rr := 0, retest := none }
        pads := n.pads.map fun p => { p with histFrom := d.clk.hsec } }
    else n
  let n := { n with bumped := d.bumped, resetKind := if soft then .soft else .pin }
  (n.enterReset d.mode).markReset (if soft then .soft else .pin)

/-- The jobs of the check-value units end (12 R339). -/
def Dev.chkReset (d : Dev) : Dev :=
  let d := forN 4 (fun u d =>
    if d.flag (CHK_STAT_BUSY u) then
      let d := ((d.wr (CHK_STAT_BUSY u) 0).wr (CHK_STAT_END u) 2).wr (CHK_STAT_RST u) 1
      (d.wr (CHK_RES_LO_VALUE u) 0).wr (CHK_RES_HI_VALUE u) 0
    else d) d
  { d with chk := { d.chk with plan := [] } }

/-- The counter scan begins again (12 R324). -/
def Dev.cntRestart (d : Dev) : Dev :=
  let d := (d.wr NVM_CNT_STAT_READY 0).wr NVM_CNT_STAT_BUSY 0
  forN 32 (fun i d => d.setCounter i 0) d

/-- A WARM or WDOG reset begins (R346, R350, R357). [DEDUCED, log 127] -/
def Dev.warmReset (k : ResetKind) (d : Dev) : Dev :=
  let d := if d.flag DEV_MBX_STAT_BUSY then d.mbxComplete 0x10 [] else d
  let copying := d.flt.dumpCopy.isSome
  let d := ((d.measHalt).rstJobs (if k = .warm then 0x13 else 0x14)).chkReset
  let d := forN 16 Dev.padUnusable ((d.nvmReset).cntRestart).portsCut
  let prior := d.underMode
  let d := { d with
    perMaster := [], priorMode := prior, resetKind := k, flt := { d.flt with dumpCopy := none }
    boot := { d.boot with wdog := false } }
  let d := (d.enterReset d.mode).markReset k
  if copying then d.fire 49 0 else d

/-- What the start of a pulse changes, as it stands. -/
def Dev.undoPoint (d : Dev) : Undo :=
  { edge := d.clk.edge, live := d.live, shadow := d.shadow, sram := d.sram, meas := d.meas, jobs := d.jobs, flt := d.flt, nvmc := d.nvmc
    chk := d.chk, mbx := d.mbx, boot := d.boot, clk := d.clk, resetKind := d.resetKind, priorMode := d.priorMode }

/-- A pulse that has begun on the present edge gives way to a reset that takes over from it: of two triggers of one edge the kind
first in the table is taken (R346). -/
def Dev.withdraw (d : Dev) : Dev :=
  match d.undo with
  | some u =>
    if u.edge = d.clk.edge ∧ ¬ d.clk.closed then
      { d with live := u.live, shadow := u.shadow, sram := u.sram, meas := u.meas, jobs := u.jobs, flt := u.flt, nvmc := u.nvmc
               chk := u.chk, mbx := u.mbx, boot := u.boot, clk := u.clk, resetKind := u.resetKind, priorMode := u.priorMode
               undo := none }
    else d
  | none => d

/-- A pulse of a reset kind begins. -/
def Dev.pulseStart (k : ResetKind) (d : Dev) : Dev :=
  match k with
  | .por => d.porReset
  | .pin => d.coldReset false
  | .soft => d.coldReset true
  | .warm => d.warmReset .warm
  | .wdog => d.warmReset .wdog

/-- A reset of a kind begins, if it takes effect: WARM and WDOG do not in BOOT (R346). -/
def Dev.startReset (k : ResetKind) (d : Dev) : Dev :=
  let back := (k = .warm ∨ k = .wdog) ∧ d.mode = .boot
  if k ≠ .por ∧ (¬ d.resetTakes k ∨ back) then d
  else
    let d := d.withdraw
    { d.pulseStart k with undo := some d.undoPoint }

/-- BOOT starts at a stage (R346; 09 R251). [DEDUCED, log 94] -/
def Dev.enterBoot (stage : Nat) (d : Dev) : Dev :=
  ((d.changeMode .boot).wr DEV_MODE_BOOT_STAGE stage).railsJudge.epochAll 3

/-- The straps are latched (09 R242). -/
def Dev.latchStraps (src addr : Nat) (d : Dev) : Dev :=
  { d with boot := { d.boot with strap := src % 4, addrStrap := addr % 4 } }

/-- The stage after the system PLL has locked or a SOFT pulse has ended: with a host source the loader waits for a stream
(09 R242). -/
def Dev.scanStage (d : Dev) : Nat := if d.boot.strap = 1 then 5 else 3

/-- POR_RELEASE (R344, R347; 09 R242): with RESET_N low the pulse goes on as a pin reset. -/
def Dev.porRelease (src addr : Nat) (resetLow : Bool) (d : Dev) : Dev :=
  if d.mode = .reset ∧ d.resetKind = .por then
    if resetLow then
      ({ d with resetKind := .pin, boot := { d.boot with pinLow := true } }).markReset .pin
    else
      let d := (d.latchStraps src addr).changeMode .boot
      (d.wr DEV_MODE_BOOT_STAGE 0).railsJudge
  else d

/-- PIN_RESET_RELEASE: the rising edge of RESET_N (R347). -/
def Dev.pinRelease (src addr : Nat) (d : Dev) : Dev :=
  if d.mode = .reset ∧ d.resetKind = .pin then
    let d := { d with boot := { d.boot with pinLow := false } }
    (d.latchStraps src addr).enterBoot 0
  else d

/-- The rewrite that a WARM or WDOG pulse interrupted starts again from its beginning (09 R241). [DEDUCED, log 97] -/
def Dev.rewriteAgain (d : Dev) : Dev :=
  if d.flag DEV_BOOT_STAT_REPAIR_PEND then
    ({ d with nvmc := { d.nvmc with parked := none } }).nvmRequest (.rewrite (d.rd DEV_BOOT_STAT_SRC))
  else d

/-- RESET_PULSE_END: the end of a SOFT, WARM or WDOG pulse (R346, R350; 04 R125; 07 R208).  What has changed for selection in a WARM
or WDOG pulse is judged now (05 R154; 08 R222). [DEDUCED, log 94] -/
def Dev.pulseEnd (d : Dev) : Dev :=
  if d.mode ≠ .reset then d
  else
    match d.resetKind with
    | .por | .pin => d
    | .soft => d.enterBoot d.scanStage
    | .warm | .wdog =>
      let d := (d.changeMode d.priorMode).epochAll 3
      let d := forN 16 Dev.padWarm d
      let d := ((d.portsWarm).rewriteAgain).askSelect none
      { d with boot := { d.boot with kick := d.clk.tclk } }

/-- WATCHDOG_EXPIRY (R349): stopped in BOOT and while the core is in reset. -/
def Dev.watchdogExpiry (d : Dev) : Dev :=
  if d.mode = .reset ∨ d.mode = .boot then d
  else ({ d with boot := { d.boot with wdog := true } }).fire 13 0

/-- WDOG_RESET_START: 1 us after the watchdog has expired (R349). -/
def Dev.wdogStart (d : Dev) : Dev := if d.boot.wdog then d.startReset .wdog else d

/-- A write of DEV_RESET (R348). -/
def Dev.resetWrite (w : Nat) (d : Dev) : Dev :=
  let soft := w.testBit 31
  let warm := w.testBit 30
  if w % 0x10000 = 0xC3A5 then
    let d := d.wr DEV_RESET_KEY_ERR 0
    if soft then d.startReset .soft else if warm then d.startReset .warm else d
  else if soft || warm then d.wr DEV_RESET_KEY_ERR 1
  else d

/-! ### Temperature (11 R281; 13 R390) -/

/-- A reading of the on-die sensor in 1/16 degC (R390; 11 R281 sources 6 and 7; 02 R41). -/
def Dev.takeTemp (t : Int) (d : Dev) : Dev :=
  let d := (d.wr DEV_TEMP_TEMP (twos 16 t)).wr DEV_TEMP_VALID 1
  let deg := twos 16 (t / 16)
  let hi : Int := 16 * (d.rdIn FLT_TEMP_TEMP_HI 60 120 : Nat)
  let d := d.level 6 0 deg (decide (125 * 16 < t))
  let d := if hi < t then d.raise 7 0 deg else if t ≤ hi - 32 then d.lower 7 0 else d
  d.judgeDue t

/-- TEMP_READING (R390): none before the first reading, which comes at the lock of the system PLL. [DEDUCED, log 147] -/
def Dev.tempReading (t : Int) (d : Dev) : Dev := if d.flag DEV_TEMP_VALID then d.takeTemp t else d

end Sys2Proof.Machine
end

