-- ==== Sys2Proof/Machine/Pins.lean ====
section
/-!
DEFINITION. What the output drivers and the steering ports put on their balls (06 R171, R178, R179, R184, R186; 07 R204, R208;
11 R286; 13 R350, R351), as functions of the state.
-/

namespace Sys2Proof.Machine

/-- What the device puts on a ball: nothing, a level, or a clock or pulse signal or its inverse.  In HCSL `high` is a half that
sources its full current and `low` one that sources none (06 R179). -/
inductive Drive where
  | highZ | low | high | wave | inverse
  deriving DecidableEq, Repr

/-- A driven level. -/
def Drive.level (b : Bool) : Drive := if b then .high else .low

/-- What halves _P and _N of output `n` drive in SAFE (06 R179). -/
def Dev.outSafe (d : Dev) (n : Nat) : Drive × Drive :=
  match d.rd (OUT_CTL_SAFE n) with
  | 1 => (.low, .high)
  | 2 => (Drive.level (d.flag (OUT_CTL_PARK_P n)), Drive.level (d.flag (OUT_CTL_PARK_N n)))
  | _ => (.highZ, .highZ)

/-- What halves _P and _N drive in RUN: _N is the inverse of _P, but in phase with it in an LVCMOS pair with CMOS_NPH 1 (06
R171). -/
def Dev.outWave (d : Dev) (n : Nat) : Drive × Drive :=
  (.wave, if d.rd (OUT_CFG_FORMAT n) = 3 ∧ d.flag (OUT_CTL_CMOS_NPH n) then .wave else .inverse)

/-- What halves _P and _N of output `n` drive. High impedance in OFF, which is the state in RESET of a POR, PIN or SOFT pulse and in
BOOT (06 R178, R186), with a driver fault whatever SAFE holds (R184), and behind an open supply-side switch (11 R286), and on a
VDD_OUT rail below its threshold (13 R343). An output released to RUN that has not had its first edge holds what it held before; one
that stops runs on until it has stopped (R180, R182). [DESIGN CHOICE, log 183] -/
def Dev.outDrive (d : Dev) (n : Nat) : Drive × Drive :=
  if d.flag (OUT_STAT_DRV_FAULT n) ∨ (d.out n).cut ∨ d.outRailLow n then (.highZ, .highZ)
  else
    match d.rd (OUT_STAT_STATE n) with
    | 0 => (.highZ, .highZ)
    | 3 => d.outSafe n
    | _ => if ¬ (d.out n).starting then d.outWave n else if (d.out n).fromOff then (.highZ, .highZ) else d.outSafe n

/-- The three pins of a steering port. -/
structure PortPins where
  csN : Drive
  sck : Drive
  sdo : Drive
  deriving DecidableEq, Repr

/-- SCK at `t` TCLK periods into a frame (07 R204): in mode 0 high for T / 2 from each of the LEN rising edges, in mode 3 low for
T / 2 before each. -/
def SentFrame.sck (f : SentFrame) (t : Nat) : Bool :=
  let per := 2 * f.half
  let low := decide (f.half ≤ t % per)
  if f.mode3 then !(low && decide (t / per < f.len)) else decide (per ≤ t) && !low && decide (t / per ≤ f.len)

/-- SDO at `t` TCLK periods into a frame (07 R204): bit 1 from the start, bit i + 1 from i T + T / 2, low after bit LEN; the first
bit sent is the most significant. -/
def SentFrame.sdo (f : SentFrame) (t : Nat) : Bool :=
  let per := 2 * f.half
  let i := if t < per + f.half then 1 else (t - f.half) / per + 1
  decide (i ≤ f.len) && f.bits.testBit (f.len - i)

/-- What steering port `k` drives (07 R204, R208; 13 R351): high impedance in RESET and before the image applies, else idle or the
frame in progress, whose CS_N rises (LEN + 1) T after its fall. -/
def Dev.portPins (d : Dev) (k : Nat) : PortPins :=
  let idle : PortPins := { csN := .high, sck := Drive.level (d.flag (STEER_CFG_SPIMODE k)), sdo := .low }
  if ¬ d.applied then { csN := .highZ, sck := .highZ, sdo := .highZ }
  else if ¬ d.flag (STEER_STAT_BUSY k) then idle
  else
    match (d.port k).sent with
    | some f =>
      let t := d.clk.tclk - f.start
      if 2 * f.half * (f.len + 1) ≤ t then idle
      else { csN := .low, sck := Drive.level (f.sck t), sdo := Drive.level (f.sdo t) }
    | none => idle

end Sys2Proof.Machine
end

