-- ==== Sys2Proof/Machine/RegRead.lean ====
section
/-!
DEFINITION. What a register reads: the interrupt lines (10 R276), the fields that follow other state, the views of a master
(10 R266, R272), and the per-master read latches (02 R38; 04 R134).
-/

namespace Sys2Proof.Machine

/-! ### Interrupt lines (10 R276) -/

/-- Status bits of a sequence-clear register. -/
def Dev.sqcBits (d : Dev) (a : Nat) : Nat := (d.word a).toNat % 0x1000000

/-- A status register has a bit set that its enable register lets through. -/
def Dev.evtOn (d : Dev) (evt ien : Nat) : Bool := d.sqcBits evt &&& (d.word ien).toNat ≠ 0

/-- FLT_LATCH as one number of 64 bits (11 R283). -/
def Dev.latchBits (d : Dev) : Nat :=
  d.sqcBits (rFLT_ACK_0) + 2 ^ 24 * d.sqcBits (rFLT_ACK_1) + 2 ^ 48 * (d.sqcBits (rFLT_ACK_2) % 2 ^ 16)

/-- FLT_LIVE as one number of 64 bits (11 R281). -/
def Dev.liveBits (d : Dev) : Nat := (List.range 64).foldl (fun v k => if d.isLive k then v + 2 ^ k else v) 0

/-- The FLT line (11 R291). -/
def Dev.fltLine (d : Dev) : Bool :=
  decide (d.latchBits &&& ((d.word rFLT_IEN_LO).toNat + 2 ^ 32 * (d.word rFLT_IEN_HI).toNat) ≠ 0) ||
  d.flag FLT_STAT_ESC_RUN || d.flag FLT_STAT_FOLD_REQ || d.anyLatched fun k => decide (1 ≤ d.reaction (d.sev k))

/-- Some index below `n` satisfies `p`. -/
def anyN (n : Nat) (p : Nat → Bool) : Bool := (List.range n).any p

/-- EPOCH_PEND: an EPOCH record of a ring waits for space (03 R95). -/
def Dev.epochPend (d : Dev) (r : Nat) : Bool := (d.ring r).hasEpoch && decide (d.ringFree r = 0)

/-- DEV_IRQ_STAT (10 R276). [DEDUCED, log 116] -/
def Dev.irqStat (d : Dev) : Nat :=
  let lines : List Bool :=
    [d.fltLine,
     d.evtOn rDEV_MBX_EVT rDEV_MBX_IEN,
     d.evtOn rHOST_ERR rHOST_IEN,
     d.evtOn rCRAFT_EVT rCRAFT_IEN,
     d.evtOn rNVM_EVT rNVM_IEN || anyN 4 fun u => d.evtOn (rCHK_EVT u) (rCHK_IEN u),
     d.evtOn rPAST_EVT rPAST_IEN || anyN 2 fun x => d.evtOn (rPLINK_EVT x) (rPLINK_IEN x),
     anyN 8 fun k => d.evtOn (rSTEER_EVT k) (rSTEER_IEN k) || d.evtOn (rBN_EVT k) (rBN_IEN k),
     (anyN 24 fun n => d.evtOn (rOUT_EVT n) (rOUT_IEN n)) || decide (d.sqcBits rOUT_ERR ≠ 0) ||
       anyN 4 fun j => decide (d.sqcBits (rPSYN_EVT j) ≠ 0),
     anyN 6 fun k => d.evtOn (rFLOCK_EVT k) (rFLOCK_IEN k),
     (anyN 16 fun n => (d.rd DEV_IRQ_TQ_TQ).testBit n && (decide (d.sqcBits (rTQ_STAT n) &&& 0x7D ≠ 0) || d.epochPend n)) ||
       (d.flag DEV_IRQ_TQ_TP && decide (d.sqcBits rTP_EVT ≠ 0)),
     decide (d.sqcBits rMEAS_STAT ≠ 0) || decide (d.sqcBits rMEAS_ERR ≠ 0) || decide (d.sqcBits rMEAS_Q_ERR ≠ 0),
     (anyN 12 fun n => d.evtOn (rREF_EVT n) (rREF_IEN n)) || decide (d.sqcBits rREF_OCXO_EVT ≠ 0)]
  let hi := lines.foldl (fun v b => 2 * v + b2n b) 0
  let pads := (List.range 16).foldl (fun v n =>
    if d.evtOn (rPAD_HIST n) (rPAD_IEN n) || d.evtOn (rPAD_SEL_EVT n) (rPAD_SEL_IEN n) then v + 2 ^ n else v) 0
  hi * 2 ^ 20 + pads

/-- IRQ_N is asserted; it is high-impedance in RESET, and in BOOT before the image applies (10 R276; 13 R351). -/
def Dev.irqOn (d : Dev) : Bool := d.applied && decide (d.irqStat &&& (d.word rDEV_IRQ_EN).toNat ≠ 0)

/-- What an open-drain ball drives, or a push-pull one, that is active low: nothing in RESET and before the image applies (10 R276; 11
R290; 13 R351). -/
def Dev.alarmDrive (d : Dev) (on pushPull : Bool) : Drive :=
  if ¬ d.applied then .highZ else if on then .low else if pushPull then .high else .highZ

/-- What IRQ_N drives (10 R276). -/
def Dev.irqDrive (d : Dev) : Drive := d.alarmDrive d.irqOn (d.flag HOST_CFG_IRQ_PP)

/-- FAULT_N is asserted; it is high-impedance in RESET, and in BOOT before the image applies (11 R290; 13 R351). -/
def Dev.faultPin (d : Dev) : Bool := d.applied && d.flag FLT_STAT_FN

/-- What FAULT_N drives (11 R290). -/
def Dev.faultDrive (d : Dev) : Drive := d.alarmDrive d.faultPin (d.flag FLT_CFG_FN_PP)

/-! ### GPIO levels (14 R363, R377) -/

/-- The strobe output is driven high (10 R270). -/
def Dev.strobeOut (d : Dev) : Bool :=
  decide (d.clk.tclk < d.front.strobeUntil) &&
    !(d.flag DEV_UPDATE_CFG_STRB_IN_EN && decide (d.rd DEV_UPDATE_CFG_STRB_IN_PIN = d.rd DEV_UPDATE_CFG_STRB_OUT_PIN))

/-- What the device drives on a GPIO; none where it drives nothing (14 R377; 13 R351). -/
def Dev.gpioDrive (d : Dev) (n : Nat) : Option Bool :=
  if ¬ d.applied then none
  else
    let v := match d.rd (CRAFT_GPIO_FUNC n) with
      | 1 => some (d.flag (CRAFT_GPIO_OUT n))
      | 3 => some (d.flag DEV_UPDATE_CFG_STRB_OUT_EN && decide (d.rd DEV_UPDATE_CFG_STRB_OUT_PIN = n) && d.strobeOut)
      | 5 => some (decide (d.irqStat &&& (d.word rDEV_IRQ_GEN).toNat ≠ 0))
      | _ => none
    if v = some true ∧ d.flag (CRAFT_GPIO_OD n) then none else v

/-- The level of a GPIO that the device does not drive: what the board puts there, else what the pull of CRAFT_GPIO_n makes of it (14
R363); with neither it floats. [DESIGN CHOICE, log 204] -/
def Dev.gpioRest (d : Dev) (n : Nat) : Bool :=
  match d.front.gpioExt.getD n none with
  | some b => b
  | none => if d.flag (CRAFT_GPIO_PULL_EN n) then d.flag (CRAFT_GPIO_PULL_UP n) else Config.floating d.clk.tclk n

/-- CRAFT_STAT.GPIO_IN (14 R377): the driven level, else the outside one. -/
def Dev.gpioIn (d : Dev) : Nat :=
  (List.range 8).foldl (fun v n => if (d.gpioDrive n).getD (d.gpioRest n) then v + 2 ^ n else v) 0

/-! ### Fields that follow other state -/

/-- The code of a role (02 R70). -/
def Role.code : Role → Nat
  | .job => 0 | .loop => 1 | .cal => 2 | .quar => 3 | .retired => 4

/-- CELL_n_STAT (02 R70). -/
def Dev.cellStat (d : Dev) (n : Nat) : Nat :=
  let c := d.cell n
  let v := setBits 0 31 29 c.role.code
  let v := if c.role = .loop then setBits (setBits v 28 28 1) 27 22 c.stream else v
  let v := setBits (setBits (setBits (setBits v 21 21 (b2n c.due)) 20 20 (b2n c.overdue)) 19 19 (b2n c.coarse)) 18 16 c.fault
  if c.calibrated then
    setBits (setBits v 15 8 (twos 8 (divRound c.calTemp 16))) 7 0 (min 255 (d.secSince c.calEnd / 64))
  else v

/-- MEAS_POOL (02 R67). -/
def Dev.measPool (d : Dev) : Nat :=
  let count := fun (p : Cell → Bool) => (d.cellsWhere p).length
  setBits (setBits (setBits (setBits (setBits 0 29 24 (count fun c => c.role = .retired)) 23 18 (count fun c => c.role = .cal))
    17 12 (count Cell.free)) 11 6 (count fun c => c.role = .job)) 5 0 (count fun c => c.role = .loop)

/-- MEAS_CAL_STAT (02 R68): hits come at one conversion in 250 ns (09 R247: 2^20 conversions in 262.144 ms).
[DESIGN CHOICE, log 33] -/
def Dev.calStat (d : Dev) : Nat :=
  match d.meas.calRun with
  | some r => setBits (setBits 0 25 20 r.cell) 19 0 (if r.tableDone then 524288 else min 524288 ((d.clk.tclk - r.start) / 12800))
  | none => setBits 0 25 20 63

/-- MEAS_Q_STAT (03 R77). -/
def Dev.qStat (d : Dev) : Nat :=
  let count := fun (p : Job → Bool) => (d.slotsWhere p).length
  setBits (setBits (setBits 0 23 16 (count fun _ => true)) 15 8 (count fun j => j.done.isSome)) 7 0 (count fun j => j.kind = .stream)

/-- The completion record of job `j` is held by nothing but space: its result is fixed, and that of every earlier request to its
ring (03 R79). -/
def Dev.recordDue (d : Dev) (j : Job) : Bool :=
  j.done.isSome &&
    (d.slotsWhere fun x => decide (x.ring = j.ring) && x.done.isNone && decide (x.order < j.order)).isEmpty

/-- TQ_n_PEND: completion records of a ring that wait for space (03 R95). [DEDUCED, log 186] -/
def Dev.tqPend (d : Dev) (r : Nat) : Nat :=
  if 0 < d.ringFree r then 0 else (d.slotsWhere fun j => decide (j.ring = r) && d.recordDue j).length

/-- ESC_LEFT: escalation time left in microseconds (11 R285). -/
def Dev.escLeft (d : Dev) : Nat :=
  match d.flt.escEnd with
  | some t => (t - d.clk.tclk + (usTclk - 1)) / usTclk
  | none => 0

/-- The synthesiser's pulse is high: its accumulator has not reached the end of the last pulse (06 R174). -/
def Dev.psynHigh (d : Dev) (j : Nat) : Bool :=
  d.flag (PSYN_STAT_RUNNING j) && decide (d.psynAcc j d.clk.tclk < (d.psyn j).pulseEnd * 2 ^ 32)

/-- NVM_VHOLD (12, NVM registers; 13 R344): 0 until the monitor of VHOLD has judged, then a level on the side of 3.10 V that the
monitor shows. [DESIGN CHOICE, log 12] -/
def Dev.vholdWord (d : Dev) : Nat :=
  let v := (Config.vholdLevel d.clk.tclk).toNat
  let pump := b2n (Config.vholdPump d.clk.tclk)
  if d.railLow.contains 6 then setBits (setBits 0 31 31 pump) 8 0 (min 309 v)
  else if d.flag NVM_STAT_VHOLD_OK then setBits (setBits 0 31 31 pump) 8 0 (max 310 v)
  else 0

/-- The value of a register that follows other state, given the word it would read otherwise. [DESIGN CHOICE, log 12] -/
def Dev.composed (d : Dev) (a w : Nat) : Nat :=
  if a = rDEV_IRQ_STAT then d.irqStat
  else if a = rDEV_IRQ_PEND then d.irqStat &&& (d.word rDEV_IRQ_EN).toNat
  else if a = rFLT_LATCH_LO then d.latchBits % 2 ^ 32
  else if a = rFLT_LATCH_HI then d.latchBits / 2 ^ 32
  else if a = rFLT_LIVE_LO then d.liveBits % 2 ^ 32
  else if a = rFLT_LIVE_HI then d.liveBits / 2 ^ 32
  else if a = rFLT_STAT then setBits w 19 0 d.escLeft
  else if a = rFLT_CAP_SRC then setBits w 18 18 (b2n (d.flag FLT_CAP_SRC_VALID && d.isLive (d.rd FLT_CAP_SRC_SRC)))
  else if a = rMEAS_POOL then d.measPool
  else if a = rMEAS_CAL_STAT then d.calStat
  else if a = rMEAS_Q_STAT then d.qStat
  else if 0x060100 ≤ a ∧ a < 0x0601C0 then d.cellStat ((a - 0x060100) / 4)
  else if 0x070000 ≤ a ∧ a < 0x070400 ∧ a % 64 = 0x10 then setBits w 1 1 (b2n (d.epochPend ((a - 0x070000) / 64)))
  else if 0x070000 ≤ a ∧ a < 0x070400 ∧ a % 64 = 0x1C then d.tqPend ((a - 0x070000) / 64)
  else if 0x050000 ≤ a ∧ a < 0x050C00 ∧ a % 128 = 0x14 then
    let r := d.delayNow ((a - 0x050000) / 128)
    setBits (setBits (setBits 0 31 24 r.1) 23 23 (b2n r.2.2)) 11 0 r.2.1
  else if 0x020000 ≤ a ∧ a < 0x020C00 ∧ a % 256 = 0x30 then setBits w 28 28 (b2n (d.plugIs ((a - 0x020000) / 256) true))
  else if a = rOUT_RUN_MAP then d.runMap
  else if 0x051000 ≤ a ∧ a < 0x051100 ∧ a % 64 = 0x18 then setBits w 30 30 (b2n (d.psynHigh ((a - 0x051000) / 64)))
  else if a = rDRV_STAT then (List.range 4).foldl (fun v u => if d.flag (CHK_STAT_BUSY u) then v + 2 ^ u else v) 0
  else if a = rNVM_PATROL_STAT then
    setBits (setBits (setBits 0 31 31 (b2n (d.nvmc.due.any fun u => u.late))) 30 30 (b2n !d.nvmc.due.isEmpty))
      8 0 (d.counter 5 % 320)
  else if a = rNVM_VHOLD then d.vholdWord
  else if a = rCRAFT_STAT then setBits w 7 0 d.gpioIn
  else w

/-! ### Reads by a master (10 R266, R272) -/

/-- _LO registers whose read latches their _HI half, as (first, count, stride) (04 R134; 05, 06, 07,
08, 11 and 12 extend the rule to their pairs). [DEDUCED, log 115] -/
def loPairs : List (Nat × Nat × Nat) :=
  [(0x010030, 1, 4), (0x010038, 1, 4), (0x010040, 1, 4), (0x010070, 1, 4), (0x020004, 12, 0x100), (0x020C04, 1, 4),
   (0x030020, 16, 0x400), (0x030038, 16, 0x400), (0x030040, 16, 0x400), (0x030048, 16, 0x400), (0x030050, 16, 0x400),
   (0x030080, 16, 0x400), (0x0300C8, 16, 0x400), (0x030290, 16, 0x400),
   (0x040004, 6, 0x200), (0x040010, 6, 0x200), (0x051004, 4, 0x40), (0x05100C, 4, 0x40),
   (0x080014, 4, 0x40), (0x08001C, 4, 0x40), (0x080024, 4, 0x40), (0x090084, 1, 4), (0x090100, 32, 8),
   (0x0A0048, 1, 4), (0x0A0114, 2, 0x80), (0x0A011C, 2, 0x80),
   (0x0B0200, 8, 0x20), (0x0B0210, 8, 0x20), (0x0B0218, 8, 0x20)]

/-- The register at `a` is such a _LO register. -/
def isLo (a : Nat) : Bool :=
  loPairs.any fun p => decide (p.1 ≤ a) && decide ((a - p.1) % p.2.2 = 0) && decide ((a - p.1) / p.2.2 < p.2.1)

/-- The register at `a` is the _HI half of such a pair. -/
def isHi (a : Nat) : Bool := decide (4 ≤ a) && isLo (a - 4)

/-- The row of the map that holds `a`. -/
def rowAt (a : Nat) : Option RegRow := findRow (regRowsAt a) a

/-- What a register reads to master `m`, the latches of R38 and R134 aside: the applied value, the shadow of RWS fields with
HOST_VIEW.SHADOW, the held bank with HOST_VIEW.MUSTER (10 R266, R272). -/
def Dev.regValue (d : Dev) (m a : Nat) : Nat :=
  match rowAt a with
  | none => 0
  | some r =>
    let readable := r.rw ||| r.ro ||| r.rws ||| r.sqc ||| r.cpl
    let w := if r.perMaster then (d.pmWord m a).toNat
      else if r.mustered ∧ d.rdPm m HOST_VIEW_MUSTER = 1 then (d.held.get a 0).toNat
      else
        let w := d.composed a (d.word a).toNat
        if d.rdPm m HOST_VIEW_SHADOW = 1 then mergeMask w (d.shWord a).toNat r.rws else w
    if a = rDEV_RESET then w &&& readable &&& 0xFFFF0000
    else if a = rNVM_UNLOCK_LO ∨ a = rNVM_UNLOCK_HI then 0
    else w &&& readable

/-- A read of a register by master `m`: the value, and the latches it sets (02 R38; 04 R134). [DEDUCED, log 115] -/
def Dev.regRead (m a : Nat) (d : Dev) : Nat × Dev :=
  if a = rDEV_TIME_SEC_LO then
    let t := d.nowU
    let d := d.setPmWord m rDEV_TIME_SEC_LO (Word.of (uSec t))
    let d := d.setPmWord m rDEV_TIME_SEC_HI (Word.of (uSec t / 2 ^ 32))
    let d := d.setPmWord m rDEV_TIME_NS (Word.of (uNs t))
    (uSec t % 2 ^ 32, d.setPmWord m rDEV_TIME_FRAC (Word.of (uFrac t)))
  else if isHi a then ((d.pmWord m a).toNat, d)
  else if isLo a then (d.regValue m a, d.setPmWord m (a + 4) (Word.of (d.regValue m (a + 4))))
  else (d.regValue m a, d)

/-! ### The sources of a read (10 R264; 15 R389) -/

/-- `a` lies in the TEST block (15 R389). -/
def inTest (a : Nat) : Bool := decide (0x0E0000 ≤ a) && decide (a < 0x0F0000)
/-- The device as a read of the present edge sees its registers: as they stood before the edge (10 R275). -/
def Dev.asRead (d : Dev) : Dev := { d with live := d.old }

/-- A read at a register address by master `m`, a word of TEST included: the word, and the latches it sets. -/
def Dev.readReg (m a : Nat) (d : Dev) : Nat × Dev :=
  if inTest a then ((d.oldWord a).toNat, d)
  else
    let r := d.asRead.regRead m a
    (r.1, { r.2 with live := d.live })

/-- A word of SRAM as read: staging tables under construction are not laid down (02 R39). [DESIGN CHOICE, log 7] -/
def Dev.sramRead (d : Dev) (a : Nat) : Nat :=
  if 0x16C000 ≤ a ∧ a < 0x170000 then
    leNat ((List.range 4).map fun k => Config.stagingByte d.clk.tclk (a + k))
  else d.sramWord a

/-- The page of an address in the NVM window (12 R308). -/
def pageOf (a : Nat) : Nat := (a - 0x200000) / 0x200

/-- A word of the NVM window (01 R29; 12 R309). -/
def Dev.nvmRead (d : Dev) (a : Nat) : Nat :=
  if pageOf a = 304 then 0 else d.nvmWord a

end Sys2Proof.Machine
end

