-- ==== Sys2Proof/Machine/Apply.lean ====
section
/-!
DEFINITION. Applying shadows: the limits of tuning fields and the effects of an update of groups G0 to G7 (10 R268, R270;
02 R64, R65; 03 R91, R98; 04 R114, R134; 05, 06, 07, 08).
-/

namespace Sys2Proof.Machine

/-! ### Limits of tuning fields -/

/-- A field with a stated range: the instances of its register, its bits, its limits, and the status bit that reports a
limited value (address of instance 0, stride, bit), if the block has one. -/
structure Limit where
  base : Nat
  count : Nat
  stride : Nat
  hi : Nat
  lo : Nat
  least : Nat
  most : Nat
  evt : Option (Nat × Nat × Nat)
  deriving DecidableEq, Repr

/-- The ranges of the REF and MEAS fields (02 R68, R71; 05 R139 to R150). -/
def limitsMeas : List Limit :=
  [⟨0x020010, 12, 0x100, 31, 24, 1, 255, some (0x020034, 0x100, 8)⟩,
   ⟨0x020010, 12, 0x100, 19, 0, 1, 1048575, some (0x020034, 0x100, 8)⟩,
   ⟨0x020014, 12, 0x100, 31, 24, 1, 255, some (0x020034, 0x100, 8)⟩,
   ⟨0x020014, 12, 0x100, 19, 0, 1, 1048575, some (0x020034, 0x100, 8)⟩,
   ⟨0x020018, 12, 0x100, 9, 0, 1, 1000, some (0x020034, 0x100, 8)⟩,
   ⟨0x02001C, 12, 0x100, 31, 0, 65536, 0xFFFFFFFF, some (0x020034, 0x100, 8)⟩,
   ⟨0x020024, 12, 0x100, 7, 0, 1, 255, some (0x020034, 0x100, 8)⟩,
   ⟨0x020C00, 1, 4, 19, 0, 1, 1048575, some (0x020C14, 0, 3)⟩,
   ⟨0x060010, 1, 4, 25, 16, 1, 1000, some (0x060020, 0, 1)⟩,
   ⟨0x060010, 1, 4, 15, 8, 1, 255, some (0x060020, 0, 1)⟩,
   ⟨0x060010, 1, 4, 7, 0, 5, 100, some (0x060020, 0, 1)⟩,
   ⟨0x060014, 1, 4, 19, 0, 60, 1000000, some (0x060020, 0, 1)⟩,
   ⟨0x061004, 64, 32, 31, 0, 1, 0xFFFFFFFF, some (0x060020, 0, 1)⟩,
   ⟨0x071004, 1, 4, 31, 16, 10, 65535, none⟩,
   ⟨0x071004, 1, 4, 15, 0, 1, 65535, none⟩]

/-- The ranges of the PAD fields (04, PAD registers; 05 R157, R159). -/
def limitsPad : List Limit :=
  [⟨0x030008, 16, 0x400, 23, 16, 2, 255, some (0x0300C0, 0x400, 0)⟩,
   ⟨0x030008, 16, 0x400, 11, 8, 1, 15, some (0x0300C0, 0x400, 0)⟩,
   ⟨0x03000C, 16, 0x400, 31, 0, 1, 0xFFFFFFFF, some (0x0300C0, 0x400, 0)⟩,
   ⟨0x030010, 16, 0x400, 31, 0, 1, 0xFFFFFFFF, some (0x0300C0, 0x400, 0)⟩,
   ⟨0x030014, 16, 0x400, 31, 0, 1, 0xFFFFFFFF, some (0x0300C0, 0x400, 0)⟩,
   ⟨0x030018, 16, 0x400, 15, 0, 1, 65535, some (0x0300C0, 0x400, 0)⟩,
   ⟨0x030060, 16, 0x400, 16, 0, 1, 100000, some (0x0300C0, 0x400, 0)⟩,
   ⟨0x030064, 16, 0x400, 31, 16, 1, 65535, some (0x0300C0, 0x400, 0)⟩,
   ⟨0x030098, 16, 0x400, 15, 0, 1, 65535, some (0x0300C0, 0x400, 0)⟩,
   ⟨0x0300A0, 16, 0x400, 19, 0, 1, 1048575, some (0x0300C0, 0x400, 0)⟩,
   ⟨0x030284, 16, 0x400, 15, 0, 1, 65535, some (0x0300C0, 0x400, 0)⟩,
   ⟨0x030288, 16, 0x400, 15, 0, 1, 65535, some (0x0300C0, 0x400, 0)⟩]

/-- The ranges of the FLOCK, STEER, BN and PAST fields (06 R166; 07; 08). -/
def limitsPlan : List Limit :=
  [⟨0x04000C, 6, 0x200, 2, 0, 0, 4, some (0x040020, 0x200, 3)⟩,
   ⟨0x0B0004, 8, 0x40, 7, 0, 1, 255, some (0x0B0030, 0x40, 5)⟩,
   ⟨0x0B0008, 8, 0x40, 31, 16, 10, 65535, some (0x0B0030, 0x40, 5)⟩,
   ⟨0x0B001C, 8, 0x40, 23, 0, 1, 0xFFFFFF, some (0x0B0030, 0x40, 5)⟩,
   ⟨0x0B0024, 8, 0x40, 31, 16, 1, 65535, some (0x0B0030, 0x40, 5)⟩,
   ⟨0x0B0024, 8, 0x40, 15, 0, 1, 65535, some (0x0B0030, 0x40, 5)⟩,
   ⟨0x0B0404, 8, 0x20, 23, 0, 10000, 8000000, some (0x0B0414, 0x20, 4)⟩,
   ⟨0x0B0408, 8, 0x20, 23, 0, 10000, 8000000, some (0x0B0414, 0x20, 4)⟩,
   ⟨0x0B040C, 8, 0x20, 31, 24, 1, 255, some (0x0B0414, 0x20, 4)⟩,
   ⟨0x0B040C, 8, 0x20, 23, 0, 1, 0xFFFFFF, some (0x0B0414, 0x20, 4)⟩,
   ⟨0x0A0004, 1, 4, 31, 24, 2, 255, some (0x0A0010, 0, 6)⟩,
   ⟨0x0A0004, 1, 4, 15, 0, 1, 1000, some (0x0A0010, 0, 6)⟩,
   ⟨0x0A0008, 1, 4, 15, 0, 10, 65535, some (0x0A0010, 0, 6)⟩,
   ⟨0x0A0044, 1, 4, 15, 0, 10, 65535, some (0x0A0010, 0, 6)⟩]

/-- A word with one limited field brought within its range, and the status bit to set where it was not. [DEDUCED, log 59] -/
def Limit.on (l : Limit) (a : Nat) (r : Nat × List Fld) : Nat × List Fld :=
  if l.base ≤ a ∧ (a - l.base) % l.stride = 0 ∧ (a - l.base) / l.stride < l.count then
    let v := bitsOf r.1 l.hi l.lo
    let c := clampN l.least l.most v
    if c = v then r
    else
      let n := (a - l.base) / l.stride
      (setBits r.1 l.hi l.lo c, match l.evt with | some (e, s, b) => r.2 ++ [⟨e + s * n, b, b⟩] | none => r.2)
  else r

/-- A word to be applied at `a` with every field within its range, and the status bits to set. -/
def limitWord (a w : Nat) : Nat × List Fld :=
  let r := (limitsMeas ++ limitsPad ++ limitsPlan).foldl (fun r l => l.on a r) (w, [])
  if 0x061000 ≤ a ∧ a < 0x061800 ∧ a % 32 = 0 ∧ 2 ≤ bitsOf r.1 27 26 then
    (setBits r.1 27 26 0, r.2 ++ [MEAS_ERR_RANGE])
  else r

/-! ### Groups (10 R268) -/

/-- The update group of the register at `a`: 0 to 7; the paddock registers belong to G2 and G3 (04 R134). -/
def groupOf (r : RegRow) (a : Nat) : Option Nat :=
  if r.grp < 8 then some r.grp
  else if r.grp = 9 then some (if (a - 0x030000) / 0x400 < 8 then 2 else 3)
  else none

/-- The register at `a` belongs to a group of the mask. -/
def inGroups (mask a : Nat) : Bool :=
  match rowAt a with
  | some r => (groupOf r a).any fun g => mask.testBit g
  | none => false

/-- Keys of a store. -/
def keysOf (s : Store) : List Nat := s.map Prod.fst

/-- A number put into a rising list. -/
def insertNat (a : Nat) : List Nat → List Nat
  | [] => [a]
  | b :: t => if a ≤ b then a :: b :: t else b :: insertNat a t

/-- The addresses at which an update of the mask may change something, in ascending order: where neither word is listed,
live value and shadow agree. -/
def Dev.updateAddrs (mask : Nat) (d : Dev) : List Nat :=
  let ks := keysOf d.shadow ++ (keysOf d.live).filter fun a => !(keysOf d.shadow).contains a
  (ks.filter (inGroups mask)).foldl (fun l a => insertNat a l) []

/-- Instance number of a register `a` in an array. -/
def inst (base stride a : Nat) : Nat := (a - base) / stride

/-- `a` is instance `off` of a block of `count` instances. -/
def isReg (base count stride off a : Nat) : Bool :=
  decide (base ≤ a) && decide ((a - base) / stride < count) && decide ((a - base) % stride = off)

/-- Codes that are applied as another: PJ_ACT 3 as 0, SEL_MODE 2 and 3 as 0, PB_SRC 3 as 0, SAFE 3 as 0, AMP 3 of an LVDS
output as 2 (05, REF_n_CFG, PAD_n_SEL; 06 R171, R179). [DEDUCED, log 152] -/
def Dev.codesApplied (d : Dev) (a w : Nat) : Nat :=
  if isReg 0x020000 12 0x100 0 a then (if bitsOf w 28 27 = 3 then setBits w 28 27 0 else w)
  else if isReg 0x030000 16 0x400 0x280 a then
    let w := if 2 ≤ bitsOf w 30 29 then setBits w 30 29 0 else w
    if bitsOf w 21 20 = 3 then setBits w 21 20 0 else w
  else if isReg 0x050000 24 0x80 8 a then
    let w := if bitsOf w 30 29 = 3 then setBits w 30 29 0 else w
    if d.rd (OUT_CFG_FORMAT (inst 0x050000 0x80 a)) = 1 ∧ bitsOf w 24 23 = 3 then setBits w 24 23 2 else w
  else w

/-- BW within the update rate over 100 (04 R114). [DEDUCED, log 59] -/
def Dev.rateLimited (d : Dev) (a : Nat) (r : Nat × List Fld) : Nat × List Fld :=
  if isReg 0x030000 16 0x400 4 a then
    let n := inst 0x030000 0x400 a
    let c := d.bwApplied n (bitsOf r.1 20 16)
    if c = bitsOf r.1 20 16 then r else (setBits r.1 20 16 c, r.2 ++ [PAD_ERR_RANGE n])
  else r

/-- The word a register holds once its shadow has applied; the shadow keeps a value out of range, so that RANGE sets again at the
next update. [DESIGN CHOICE, log 198] -/
def Dev.appliedWord (d : Dev) (a : Nat) : Nat × List Fld :=
  match rowAt a with
  | some r =>
    let w := limitWord a (mergeMask (d.word a).toNat (d.shWord a).toNat r.rws)
    d.rateLimited a (d.codesApplied a w.1, w.2)
  | none => ((d.word a).toNat, [])

/-- One shadow applies to its live register. `d0` is the state before the update.  CENTER and GAIN of an enabled port are
discarded with CFG_ERR, and a GAIN of 0 is not applied (07, STEER registers). [DEDUCED, log 82] -/
def Dev.applyCopy (d0 : Dev) (a : Nat) (d : Dev) : Dev :=
  let r := d.appliedWord a
  if isReg 0x070000 16 0x40 0 a ∨ a = rTP_CTL then d
  else if isReg 0x0B0000 8 0x40 0x0C a ∨ isReg 0x0B0000 8 0x40 0x20 a then
    let k := inst 0x0B0000 0x40 a
    if r.1 = (d.word a).toNat then d
    else if d0.flag (STEER_CTL_ENABLE k) ∨ d.flag (STEER_CTL_ENABLE k) then
      (d.setShWord a (d.word a)).evt (STEER_EVT_CFG_ERR k)
    else if r.1 = 0 ∧ isReg 0x0B0000 8 0x40 0x20 a then (d.setShWord a (d.word a)).evt (STEER_EVT_RANGE k)
    else (r.2.foldl Dev.evt d).setWord a (Word.of r.1)
  else if isReg 0x050000 24 0x80 0x0C a then
    d.moveDelay (inst 0x050000 0x80 a) fun d => d.setWord a (Word.of r.1)
  else (r.2.foldl Dev.evt d).setWord a (Word.of r.1)

/-- ENABLE of channel `ch` applied as 0: its jobs are aborted and its cells released (02 R71; 03 R82). -/
def Dev.chanOff (ch : Nat) (d : Dev) : Dev :=
  if d.claimed ch then d else (d.abortWhere 3 fun j => j.done.isNone && j.uses ch).disarmIdle

/-- JOB_EN applied as 0 (02 R65; 03 R82). -/
def Dev.jobsOff (d : Dev) : Dev :=
  (d.abortWhere 2 fun j => j.done.isNone && (List.range 64).any fun ch => j.uses ch && !d.claimed ch).disarmIdle

/-- The decimator of channel `ch` restarts its count (02 R46), on both streams of a pasture link (08 R215). -/
def Dev.restartDec (ch : Nat) (d : Dev) : Dev :=
  (d.setChan ch fun c => { c with count := 0 }).when (decide (ch = 44) || decide (ch = 45)) fun d =>
    d.setChan (chanIdx ch 2) fun c => { c with count := 0 }

/-- What an applied register sets in motion, its old word being that of `d0`; MODE_REQ is taken by `Dev.modeHooks`.
[DEDUCED, log 61] -/
def Dev.applyHook (d0 : Dev) (a : Nat) (d : Dev) : Dev :=
  let old := (d0.word a).toNat
  let new := (d.word a).toNat
  let turned := fun (k : Nat) => decide (old.testBit k ≠ new.testBit k)
  if isReg 0x070000 16 0x40 0 a then
    let n := inst 0x070000 0x40 a
    d.ringApply n (d.shWord a).toNat
  else if a = rTP_CTL then d.tpApply (d.shWord a).toNat
  else if isReg 0x061000 64 32 0 a then
    let d := if turned 25 && !new.testBit 25 then d.chanOff (inst 0x061000 32 a) else d
    -- DUAL applied as 0: the second armed cell is released (02 R50).
    let d := d.when (turned 28 && !new.testBit 28) Dev.disarmIdle
    d.when (decide (bitsOf old 27 26 ≠ bitsOf new 27 26)) (Dev.restartDec (inst 0x061000 32 a))
  else if isReg 0x061000 64 32 4 a then d.when (decide (old ≠ new)) (Dev.restartDec (inst 0x061000 32 a))
  else if a = rMEAS_CTL then if turned 0 && !new.testBit 0 then d.jobsOff else d
  else if isReg 0x020000 12 0x100 0 a then if turned 25 then d.refForced (inst 0x020000 0x100 a) else d
  else if isReg 0x030000 16 0x400 4 a then
    let n := inst 0x030000 0x400 a
    let d := d.when (turned 3) fun d =>
      let d := (d.wr (PAD_STATE_MODEL_STALE n) 0).setPad n fun p => { p with modelFrom := d.clk.tclk }
      if d.padSt n = 3 then d.refreshHw n else d
    d.when (decide (bitsOf old 20 12 ≠ bitsOf new 20 12))
      (Dev.padRetarget n (decide (bitsOf old 20 16 ≠ bitsOf new 20 16)))
  else if isReg 0x030000 16 0x400 0x20 a ∨ isReg 0x030000 16 0x400 0x24 a then
    let n := inst 0x030000 0x400 a
    if d.padSt n = 0 ∧ d.padKind n ≠ 3 then d.setWordY n (d.padFr n) else d
  else if isReg 0x030000 16 0x400 0x18 a then
    let n := inst 0x030000 0x400 a
    d.when (decide (d.padSt n = 3) && decide (old ≠ new)) (Dev.refreshHw n)
  else if isReg 0x030000 16 0x400 8 a then
    d.when (decide (bitsOf old 23 16 ≠ bitsOf new 23 16)) (Dev.padRetarget (inst 0x030000 0x400 a) false)
  else if isReg 0x050000 24 0x80 8 a then
    let n := inst 0x050000 0x80 a
    d.when (turned 31) (Dev.outEnable n)
  else if isReg 0x051000 4 0x40 0x0C a ∨ isReg 0x051000 4 0x40 0x10 a then
    let j := inst 0x051000 0x40 a
    let moved := d.psynOffset j - d0.psynOffset j
    -- At the edge that applies an image the synthesiser starts at its OFFSET and does not move.
    let first := isReg 0x051000 4 0x40 0x0C a || decide (d0.word (rPSYN_OFFSET_LO j) = d.word (rPSYN_OFFSET_LO j))
    if moved ≠ 0 ∧ first ∧ old ≠ new ∧ d0.applied then d.psynMove j moved else d
  else if isReg 0x051000 4 0x40 0x14 a then
    let j := inst 0x051000 0x40 a
    d.evtIf (decide (d.psynWidth j ≠ d.rd (PSYN_WIDTH_WIDTH j) * 65536)) (PSYN_EVT_RANGE j)
  else if isReg 0x0B0000 8 0x40 4 a then
    let k := inst 0x0B0000 0x40 a
    if turned 31 then (if new.testBit 31 then d.portEnable k else d.portDisable k) else d
  else if isReg 0x0A0100 2 0x80 0 a then
    let x := inst 0x0A0100 0x80 a
    if turned 31 && !new.testBit 31 then (d.wr (PLINK_STAT_SYNC x) 0).linkDown x else d
  else if isReg 0x0A0100 2 0x80 4 a then
    let x := inst 0x0A0100 0x80 a
    d.when (d.flag (PLINK_STAT_NB_V x)) (Dev.judgeAsym x)
  else d

/-- TGT brought within 10 MHz to 8 GHz, in 2^-8 Hz (07, STEER_n_TGT). -/
def Dev.limitTgt (d : Dev) : Dev :=
  forN 8 (fun k d =>
    let t := d.rd48 (STEER_TGT_LO_TGT k) (STEER_TGT_HI_TGT k)
    let c := clampN (10000000 * 256) (8000000000 * 256) t
    if c = t ∨ ¬ d.flag (STEER_CFG_USED k) then d
    else ((d.wr (STEER_TGT_LO_TGT k) (c % 2 ^ 32)).wr (STEER_TGT_HI_TGT k) (c / 2 ^ 32)).evt (STEER_EVT_RANGE k)) d

/-- A SOFT hurdle of HARD or more is applied as HARD - 1 (05 R147). -/
def Dev.limitSoft (d : Dev) : Dev :=
  forN 12 (fun n d =>
    let h := d.rd (REF_HARD_HURDLE n)
    if d.rd (REF_SOFT_HURDLE n) < h then d
    else (d.wr (REF_SOFT_HURDLE n) (h - 1)).evt (REF_EVT_RANGE n)) d

/-- FM_TAU not below 2 P_n, also where the field has its reset value (05 R139). [DEDUCED, log 59] -/
def Dev.limitTau (d : Dev) : Dev :=
  forN 12 (fun n d =>
    let t := d.rd (REF_FM_FM_TAU n)
    let c := d.fmAtLeast n t
    if c = t then d else (d.wr (REF_FM_FM_TAU n) c).evt (REF_EVT_RANGE n)) d

/-- Shadows of the groups of a mask copied to the live registers (10 R268). -/
def Dev.copyGroups (mask : Nat) (d : Dev) : Dev :=
  let d1 := (d.updateAddrs mask).foldl (fun e a => Dev.applyCopy d a e) d
  let d1 := if mask.testBit 1 then d1.limitSoft.limitTau else d1
  let d1 := if mask.testBit 6 then d1.limitTgt else d1
  d1.wr DEV_UPDATE_PEND ((List.range 8).foldl (fun v g => if (d.rd DEV_UPDATE_PEND).testBit g && !mask.testBit g then v + 2 ^ g else v) 0)

/-- What the groups of a mask set in motion once copied: `d0` is the state before.  Selection is evaluated on the result of every
update and of the monitor changes of the edge, once it is over (05 R146), and then MODE_REQ is judged (04 R121; `Dev.endEdge`). -/
def Dev.hookGroups (mask : Nat) (d0 d : Dev) : Dev :=
  let d := (d0.updateAddrs mask).foldl (fun e a => Dev.applyHook d0 a e) d
  let d := d.askSelect none
  let d := if mask.testBit 6 then d.teffAll else d
  if mask.testBit 4 then d.drvsClear else d

/-- The strobe output goes high for 100 ns (10 R270). -/
def Dev.strobePulse (d : Dev) : Dev :=
  if d.flag DEV_UPDATE_CFG_STRB_OUT_EN then
    { d with front := { d.front with strobeUntil := d.clk.tclk + 160 } }
  else d

/-- An update of the groups of a mask (10 R268, R270): the changes of its edge have come before it (05 R146; 10 R275), and another
update of the edge adds its groups to it (08 R224; 10 R269). -/
def Dev.update (mask : Nat) (d : Dev) : Dev :=
  if mask % 256 = 0 then d
  else (Dev.hookGroups (mask % 256) d (d.copyGroups (mask % 256))).strobePulse.updateEdge

end Sys2Proof.Machine
end

