-- ==== Sys2Proof/Machine/HostOps.lean ====
section
/-!
DEFINITION. Strobes, musters and their pasture frames (10 R268 to R272; 08 R223, R224), the commands of the fault collector
(11 R293, R295 to R298, R305), and the fatal dump (11 R300 to R304).
-/

namespace Sys2Proof.Machine

/-! ### Update strobes (10 R268, R269; 08 R223, R224) -/

/-- PAST_LEAD in 2^-16 ns (08, PAST_LEAD). -/
def Dev.pastLead (d : Dev) : Nat := d.rdIn PAST_LEAD_LEAD 10 65535 * 1000 * 65536

/-- A strobe or muster waits for its named device time. -/
def Dev.await (w : Named) (d : Dev) : Dev := { d with past := { d.past with waiting := d.past.waiting ++ [w] } }

/-- A local strobe of a group mask: groups routed to the pasture wait for the named time of their STROBE frame (10 R269). -/
def Dev.localStrobe (mask : Nat) (d : Dev) : Dev :=
  let routed := mask &&& d.rd DEV_UPDATE_CFG_PAST_MASK
  let d := if routed = 0 then d
    else
      let t := d.nowU + d.pastLead
      (d.originate 4 0xF (routed :: tsBytes t)).await { muster := false, src := d.pastIndex, value := routed, at_ := t }
  d.update (mask ^^^ routed)

/-- The board has put a level on a GPIO (14 R377). -/
def Dev.gpioSeen (n : Nat) (high : Bool) (d : Dev) : Dev :=
  { d with front := { d.front with gpioExt := updAt d.front.gpioExt n fun _ => some high } }

/-- The GPIO strobe edge (10 R268): the pin must have its strobe function and the input must be enabled. [DEDUCED, log 152] -/
def Dev.gpioStrobe (pin : Nat) (falling : Bool) (d : Dev) : Dev :=
  let d := d.gpioSeen pin !falling
  if d.flag DEV_UPDATE_CFG_STRB_IN_EN ∧ d.rd DEV_UPDATE_CFG_STRB_IN_PIN = pin ∧
      d.flag DEV_UPDATE_CFG_STRB_IN_EDGE = falling ∧ d.rd (CRAFT_GPIO_FUNC pin) = 2 ∧ d.applied then
    d.localStrobe (d.rd DEV_UPDATE_CFG_GPIO_MASK)
  else d

/-! ### Musters (10 R271, R272) -/

/-- The addresses of the instances of a row. -/
def rowAddrs (r : RegRow) : List Nat :=
  (List.range r.count).flatMap fun n => (List.range r.reps).map fun i => r.base + n * r.stride + i * r.repStride

/-- The registers that the muster copies, in ascending address order (R271). -/
def musterAddrs : List Nat :=
  (allRegRows.filter RegRow.mustered).foldl (fun l r => (rowAddrs r).foldl (fun l a => insertNat a l) l) []

/-- A muster with its sequence (R271). -/
def Dev.takeMuster (seq : Nat) (d : Dev) : Dev :=
  let t := d.nowU
  let d := { d with held := musterAddrs.foldl (fun s a => Store.put s a (Word.of (d.composed a (d.oldWord a).toNat)) 0) d.held }
  ((d.wr DEV_MUSTER_SEQ_SEQ seq).wr DEV_MUSTER_SEC_SEC (uSec t)).wr DEV_MUSTER_NS_NS (uNs t)

/-- A muster of device scope; an edge on which a pasture muster has made the copy has made it (10 R275: the action runs once). -/
def Dev.musterNow (d : Dev) : Dev :=
  if d.past.mustered.any fun p => decide (p.1 = d.clk.edge) then d else d.takeMuster (d.rd DEV_MUSTER_SEQ_SEQ + 1)

/-- A bit of HOST_ERR is set; the first error since all bits were clear is captured (10, HOST_ERR_CAP). [DEDUCED, log 113] -/
def Dev.hostErr (bit m addr : Nat) (d : Dev) : Dev :=
  let d := { d with front := { d.front with errs := d.front.errs + 1 } }
  let d := d.when (decide (d.rd ⟨rHOST_ERR, 10, 0⟩ = 0)) fun d =>
    ((d.wr HOST_ERR_CAP_CAUSE (bit + 1)).wr HOST_ERR_CAP_MASTER m).wr HOST_ERR_CAP_ADDR addr
  d.evtMask rHOST_ERR (2 ^ bit)

/-- DEV_MUSTER.GO by master `m` (R271). [DEDUCED, log 96] -/
def Dev.musterGo (m : Nat) (d : Dev) : Dev :=
  if d.flag DEV_MUSTER_PEND then d.hostErr 10 m rDEV_MUSTER
  else if d.flag DEV_MUSTER_PASTURE then
    let q := (d.rd DEV_MUSTER_SEQ_SEQ + 1) % 2 ^ 32
    let t := d.nowU + d.pastLead
    ((d.originate 5 0xF (bytesN 4 q ++ tsBytes t)).await { muster := true, src := d.pastIndex, value := q, at_ := t }).wr
      DEV_MUSTER_PEND 1
  else d.musterNow

/-! ### Named times (08 R223, R224) -/

/-- The strobes whose named time has come apply once, with the union of their groups. [DEDUCED, log 95] -/
def Dev.strobesDue (d : Dev) : Dev :=
  let now := d.nowU
  let due := d.past.waiting.filter fun w => !w.muster && decide (w.at_ ≤ now)
  let d := { d with past := { d.past with waiting := d.past.waiting.filter fun w => w.muster || decide (now < w.at_) } }
  d.update (due.foldl (fun v w => v ||| w.value) 0)

/-- A muster of sequence `value` from SRC: the one copy of the edge (R224).  Another that has resolved to this edge gives way
where its SRC is higher, and stands where it is lower. -/
def Dev.musterFrom (src value : Nat) (d : Dev) : Dev :=
  match d.past.mustered with
  | some (e, s) =>
    if e = d.clk.edge ∧ s ≤ src then d
    else { d with past := { d.past with mustered := some (d.clk.edge, src) } }.takeMuster value
  | none => { d with past := { d.past with mustered := some (d.clk.edge, src) } }.takeMuster value

/-- The musters whose named time has come give one copy, with the sequence of the lowest SRC. [DEDUCED, log 95, 96] -/
def Dev.mustersDue (d : Dev) : Dev :=
  let now := d.nowU
  let due := d.past.waiting.filter fun w => w.muster && decide (w.at_ ≤ now)
  let own := due.any fun w => decide (w.src = d.pastIndex)
  let d := { d with past := { d.past with waiting := d.past.waiting.filter fun w => !w.muster || decide (now < w.at_) } }
  let d := d.when own fun d => d.wr DEV_MUSTER_PEND 0
  due.foldl (fun d w => d.musterFrom w.src w.value) d

/-- A STROBE frame is received (R223). [DEDUCED, log 95] -/
def Dev.strobeRx (x src dst hops fseq mask time : Nat) (d : Dev) : Dev :=
  let r := d.acceptFrame x 4 dst src hops fseq (mask % 256 :: tsBytes time)
  if ¬ r.2 then r.1
  else
    let d := r.1
    let late := decide (time < d.nowU)
    let d := (d.await { muster := false, src := src, value := mask % 256, at_ := time }).evtIf late PAST_EVT_LATE
    if time ≤ d.nowU ∧ d.applied then d.strobesDue else d

/-- A MUSTER frame is received (R223). [DEDUCED, log 95] -/
def Dev.musterRx (x src dst hops fseq seq time : Nat) (d : Dev) : Dev :=
  let r := d.acceptFrame x 5 dst src hops fseq (bytesN 4 seq ++ tsBytes time)
  if ¬ r.2 then r.1
  else
    let d := r.1
    let late := decide (time < d.nowU)
    let d := (d.await { muster := true, src := src, value := seq % 2 ^ 32, at_ := time }).evtIf late PAST_EVT_LATE
    if time ≤ d.nowU ∧ d.applied then d.mustersDue else d

/-! ### Commands of the collector (11 R290, R293, R295, R298, R305) -/

/-- CAP_REL with the right CAP_SEQ releases the capture (R293).  A release comes before the firings of its edge: it is judged against
what the capture held before the edge, and those firings, which found it held, fill it. [DEDUCED, log 126] -/
def Dev.capRel (seq : Nat) (d : Dev) : Dev :=
  if d.flt.fired.isEmpty then
    if seq % 0x10000 = d.rd FLT_CAP_SEQ_SEQ % 0x10000 then d.wr FLT_CAP_SRC_VALID 0 else d
  else if (d.oldWord rFLT_CAP_SRC).toNat.testBit 31 ∧ seq % 0x10000 = (d.oldWord rFLT_CAP_SEQ).toNat % 0x10000 then
    d.flt.fired.reverse.foldl (fun d f => d.captureFiring f)
      ((d.wr FLT_CAP_SRC_VALID 0).setWord rFLT_MISSED (d.oldWord rFLT_MISSED))
  else d

/-- A write of FLT_CMD. [DEDUCED, log 104] -/
def Dev.fltCmd (w : Nat) (d : Dev) : Dev :=
  let d := d.when (w.testBit 31) (Dev.capRel (w % 0x10000))
  let d := d.when (w.testBit 30) Dev.fnRel
  let d := d.when (w.testBit 29) fun d => d.wr FLT_DUMP_STAT_SRAM_VALID 0
  d.when (w.testBit 28) (Dev.nvmRequest .dumpErase)

/-- FLT_INJ.GO (R295, R297). [DEDUCED, log 125] -/
def Dev.inject (d : Dev) : Dev :=
  let src := d.rd FLT_INJ_SRC
  let sim := d.flag FLT_INJ_SIM
  if d.flag FLT_INJ_STAT_ACTIVE ∨ d.latched src then d.wr FLT_INJ_STAT_REJECTED 1
  else
    let d := ((d.wr FLT_INJ_STAT_ACTIVE 1).wr FLT_INJ_STAT_REAL 0).wr FLT_INJ_STAT_REJECTED 0
    let d := (d.wr FLT_INJ_STAT_SIM (b2n sim)).wr FLT_INJ_STAT_SRC src
    let d := d.when (markedM src) fun d =>
      { d with jobs := { d.jobs with slots := d.jobs.slots.map fun j => j.map fun j => { j with inj := true } } }
    d.fireAs src 0 none true sim

/-- FLT_USER: each bit fires its source once (R298). -/
def Dev.userFire (w : Nat) (d : Dev) : Dev := forN 4 (fun k d => d.when (w.testBit k) (Dev.fire (60 + k) 0)) d

/-! ### The fatal dump (11 R300 to R304) -/

/-- A block of words filled up with zeros to `n` words. -/
def padWords (n : Nat) (ws : List Nat) : List Nat := (ws ++ List.replicate n 0).take n

/-- The words of a firing-trace entry (R304). -/
def FiringEntry.words (e : FiringEntry) : List Nat :=
  [e.src + 256 * (e.sev + 4 * b2n e.inj + 8 * b2n e.real), e.seqno, e.ns + 0x40000000 * (e.sec % 4)]

/-- Words read at given addresses. -/
def Dev.wordsAt (d : Dev) (as : List Nat) : List Nat := as.map (d.regValue 3)

/-- The fault block (R304). -/
def Dev.dumpFault (d : Dev) : List Nat :=
  padWords 32 (d.wordsAt ([rFLT_LATCH_LO, rFLT_LATCH_HI, rFLT_LIVE_LO, rFLT_LIVE_HI, rFLT_STAT, rFLT_CAP_SRC, rFLT_CAP_ADDR,
    rFLT_CAP_DETAIL, rFLT_CAP_SEQ, rFLT_CAP_SEC_LO, rFLT_CAP_SEC_HI, rFLT_CAP_NS, rFLT_CAP_FRAC, rFLT_INJ_STAT,
    rFLT_SEV 0, rFLT_SEV 1, rFLT_SEV 2, rFLT_SEV 3, rFLT_REACT, rFLT_SEQNO, rFLT_MISSED, rFLT_RECOV, rFLT_FOLDS, rHOST_ERR,
    rHOST_ERR_CAP])) ++ padWords 96 (d.flt.trace.flatMap FiringEntry.words)

/-- The device block (R304). -/
def Dev.dumpDevice (d : Dev) : List Nat :=
  padWords 64 (d.wordsAt ([rDEV_MODE, rDEV_RESET_CAUSE, rDEV_TEMP, rDEV_BOOT_STAT, rDEV_IMG_SEQ, rMEAS_STAT, rMEAS_POOL,
    rMEAS_Q_STAT, rTP_STAT] ++ (List.range 6).map rFLOCK_STAT ++ [rOUT_RUN_MAP, rPAST_STAT, rPLINK_STAT 0, rPLINK_STAT 1] ++
    (List.range 8).map rSTEER_STAT ++ [rREF_OCXO_STAT, rDEV_MBX_STAT]))

/-- The block of a paddock (R304). -/
def Dev.dumpPad (d : Dev) (n : Nat) : List Nat :=
  d.wordsAt ([rPAD_CFG n, rPAD_CTL n, rPAD_STATE n, rPAD_HIST n, rPAD_FW_LO n, rPAD_FW_HI n, rPAD_HAVG_LO n, rPAD_HAVG_HI n,
    rPAD_HW_LO n, rPAD_HW_HI n, rPAD_HMODEL_LO n, rPAD_HMODEL_HI n, rPAD_HSTAT n, rPAD_HGEFF n, rPAD_BO_LO n, rPAD_BO_HI n,
    rPAD_PERR n, rPAD_SEL n, rPAD_SEL_STAT n, rPAD_PULL_REM_LO n, rPAD_PULL_REM_HI n, rPAD_UPD n, rPAD_SKIP n, rPAD_SWCNT n] ++
    (List.range 8).map (rPAD_CAND_STAT n))

/-- The tally header trace (R304). -/
def TallyTrace.words (t : TallyTrace) : List Nat := [t.word0, t.word1, t.ring, t.ns]

/-- An entry of the shepherd event trace in LOG coding (R304; 12 R319). -/
def LogEntry.words (e : LogEntry) : List Nat :=
  [lo32 (logGroup0 e), hi32 (logGroup0 e), lo32 (logGroup1 e), hi32 (logGroup1 e)]

/-- The block of the shepherd core (R304): `core` is what the core stores of its registers and stack; whether its patch runs the
device knows, and bytes 152 to 255 are unused. -/
def Dev.dumpCore (d : Dev) (core : List Nat) : List Nat :=
  (List.range 256).map fun i =>
    if i = 37 then b2n d.boot.patchRuns else if 37 < i ∧ i < 64 then 0 else core.getD i 0 % 2 ^ 32

/-- The body of a dump as words (R304): `core` is what the shepherd core stores of itself. -/
def Dev.dumpBody (core : List Nat) (d : Dev) : List Nat :=
  d.dumpFault ++
  padWords 512 ([d.rd DEV_MUSTER_SEC_SEC, d.rd DEV_MUSTER_NS_NS] ++ musterAddrs.map fun a => (d.held.get a 0).toNat) ++
  d.dumpDevice ++ (List.range 16).flatMap d.dumpPad ++
  ((List.range 12).flatMap fun n => d.wordsAt [rREF_STAT n, rREF_FOFF n, rREF_PJ_LAST n, rREF_WTR_LEFT n]) ++
  d.dumpCore core ++
  padWords 1024 (d.jobs.trace.flatMap TallyTrace.words) ++
  padWords 1536 (d.flt.events.flatMap LogEntry.words) ++
  (List.range 4096).map fun k => d.sramWord (0x158000 + 4 * k)

/-- Words in pairs, low word first. -/
def pairWords : List Nat → List Nat
  | [] => []
  | [a] => [a]
  | a :: b :: t => (a + 2 ^ 32 * b) :: pairWords t

/-- The header of a dump without its checks (R303). -/
def Dev.dumpHeader (t : DumpTrigger) (flags : Nat) (d : Dev) : List Nat :=
  [0x504D5544, 1 + 0x10000 * flags, t.seq, 32768, uSec t.stamp % 2 ^ 32,
   uSec t.stamp / 2 ^ 32 + 0x10000 * (uNs t.stamp % 0x10000), uNs t.stamp / 0x10000 + 0x10000 * uFrac t.stamp,
   0x7424A101, d.rd ⟨rDEV_IMG_SEQ, 31, 0⟩, d.rd DEV_IMG_PLAN_PLAN_ID,
   if t.fatal then t.src + 64 * t.sev + 256 * b2n t.inj else 0, d.rd DEV_MUSTER_SEQ_SEQ]

/-- The words of a dump with its checks (R303). -/
def Dev.dumpWords (t : DumpTrigger) (flags : Nat) (core : List Nat) (d : Dev) : List Nat :=
  let head := d.dumpHeader t flags
  let body := d.dumpBody core
  let all := pairWords (head ++ [0, 0, 0, 0] ++ body)
  let a := crcFold t.seq 0 (all.take 2048)
  let b := crcFold t.seq 16384 (all.drop 2048)
  head ++ [a, not32 a, b, not32 b] ++ body

/-- The copy of a dump to the array is attempted (R301 step 3; R307): never while the array holds one. -/
def Dev.dumpCopies (d : Dev) (t : DumpTrigger) : Bool :=
  t.alsoNvm && !d.flag FLT_DUMP_STAT_NVM_HELD && d.flt.dumpCopy.isNone

/-- FLAGS of a dump (R303). -/
def dumpFlags (fatal copy pend : Bool) : Nat := b2n fatal + 2 * b2n (!fatal) + 4 * b2n copy + 8 * b2n pend

/-- The image of a dump stored in SRAM (R301 step 2). -/
def Dev.dumpStore (t : DumpTrigger) (ws : List Nat) (d : Dev) : Dev :=
  let d := d.setSram 0x178000 (ws.flatMap fun w => leBytes 4 w)
  (d.wr FLT_DUMP_STAT_SRAM_VALID 1).wr FLT_DUMP_SEQ_SEQ t.seq

/-- The copy of a stored dump is requested, or the service DUMP that wanted none has its outcome. -/
def Dev.dumpAfter (t : DumpTrigger) (copy : Bool) (d : Dev) : Dev :=
  if copy then
    ({ d with flt := { d.flt with dumpCopy := some 32 } }).nvmRequest (.dumpCopy (if t.fatal then none else some d.mbx.run))
  else if t.fatal then d
  else d.mbxOutcome d.mbx.run 0 [32768, 0]

/-- The trigger of a dump that the mailbox asks for (R303: DUMP_SEQ at the request). -/
def Dev.mbxTrigger (d : Dev) (alsoNvm : Bool) : DumpTrigger :=
  { fatal := false, src := 0, sev := 0, inj := false, seq := d.rd FLT_SEQNO_COUNT, stamp := d.nowU, alsoNvm := alsoNvm }

/-- A dump begins. -/
def Dev.dumpStart (t : DumpTrigger) (d : Dev) : Dev :=
  ({ d with flt := { d.flt with dump := some t } }).wr FLT_STAT_DUMP_BUSY 1

/-- No dump is being written any more; a service DUMP that has waited for a FATAL dump starts now. [DEDUCED, log 107] -/
def Dev.dumpNext (t : DumpTrigger) (d : Dev) : Dev :=
  if t.fatal ∧ d.flag DEV_MBX_STAT_BUSY ∧ d.rd DEV_MBX_STAT_SERVICE = 3 then
    d.dumpStart (d.mbxTrigger ((d.mbx.args.getD 0 0).testBit 0))
  else ({ d with flt := { d.flt with dump := none } }).wr FLT_STAT_DUMP_BUSY 0

/-- DUMP_SRAM_DONE: the dump stands in SRAM, and its copy to the array is requested (R301). [DEDUCED, log 128] -/
def Dev.dumpSramDone (core : List Nat) (d : Dev) : Dev :=
  match d.flt.dump with
  | none => d
  | some t =>
    let pend := d.flag DEV_MUSTER_PEND
    let d := if pend then d else d.musterNow
    let copy := d.dumpCopies t
    let d := d.dumpStore t (d.dumpWords t (dumpFlags t.fatal copy pend) core)
    (d.dumpAfter t copy).dumpNext t

/-- DUMP_TIMEOUT: 10 ms after the trigger the SRAM dump is not complete (R301). -/
def Dev.dumpTimeout (d : Dev) : Dev := if d.flt.dump.isSome then d.fire 49 0 else d

end Sys2Proof.Machine
end

