-- ==== Sys2Proof/Machine/Chk.lean ====
section
/-!
DEFINITION. The check-value units (12 R333 to R339): the start of a job and its refusals, abort, completion, and the
background checks of the shepherd core on CHK_3 (R337).
-/

namespace Sys2Proof.Machine

/-- Unit `u` besides its registers. -/
def Dev.chkUnit (d : Dev) (u : Nat) : ChkUnit := d.chk.units.getD u ChkUnit.fresh

/-- `d` with unit `u` changed. -/
def Dev.setChk (d : Dev) (u : Nat) (f : ChkUnit → ChkUnit) : Dev :=
  { d with chk := { d.chk with units := updAt d.chk.units u f } }

/-! ### Ranges (R336; R329) -/

/-- Code of the region that holds a page, for the regions that have keys (12 R308, R328). -/
def regionOf (p : Nat) : Option Nat :=
  if p < 192 then some 0
  else if p < 240 then some 1
  else if p < 256 then some 2
  else if p < 272 then some 3
  else if p < 304 then some 4
  else if p < 305 then none
  else some 5

/-- First and last address of a source that holds a range (R336): registers, SRAM, NVM. -/
def inSource (a n : Nat) : Bool :=
  decide (a + n ≤ 0x0F0000) || (decide (0x100000 ≤ a) && decide (a + n ≤ 0x180000)) ||
  (decide (0x200000 ≤ a) && decide (a + n ≤ 0x228000))

/-- First and last page of each region with a key. -/
def regionPages : List (Nat × Nat × Nat) := [(0, 0, 191), (1, 192, 239), (2, 240, 255), (3, 256, 271), (4, 272, 303), (5, 305, 319)]

/-- A range touches a region whose READ key is closed. -/
def Dev.touchesClosed (d : Dev) (a n : Nat) : Bool :=
  regionPages.any fun r =>
    decide (a < 0x200000 + 0x200 * (r.2.2 + 1)) && decide (0x200000 + 0x200 * r.2.1 < a + n) && !d.keyOpen r.1 0

/-- Masters whose access the keys bind: the hosts, remote masters and JTAG (R329). -/
def hostMaster (m : Nat) : Bool := m = 0 || m = 1 || m = 4 || m = 5 || m = 6

/-- A job with this configuration is refused (R336). -/
def Dev.chkRefused (d : Dev) (u m a n fold : Nat) : Bool :=
  !inSource a n || decide (a % 8 ≠ 0) || decide (n % 8 ≠ 0) || decide (fold % 8 ≠ 0) || decide (n < 8) ||
  (hostMaster m && d.touchesClosed a n) || (u = 3 && m ≠ 2 && m ≠ 7)

/-! ### Start and abort (R336, R338) -/

/-- A job ends at once with END REFUSED (R336). -/
def Dev.chkRefuse (u m : Nat) (d : Dev) : Dev :=
  (d.setWord (rCHK_STAT u) (Word.of (setBits (setBits 0 30 29 3) 22 20 m))).evt (CHK_EVT_REJECT u)

/-- A job starts: STAT, RES and the latched configuration. -/
def Dev.chkBegin (u m : Nat) (c : ChkUnit) (d : Dev) : Dev :=
  let d := d.setWord (rCHK_STAT u) (Word.of (setBits (setBits 0 31 31 1) 22 20 m))
  d.setChk u fun _ => c

/-- The configuration that GO latches (R336). -/
def Dev.chkConfig (d : Dev) (u : Nat) : ChkUnit :=
  { poly := d.rd (CHK_CFG_POLY u), prio := d.flag (CHK_CFG_PRIO u), fold := d.flag (CHK_CFG_FOLD_EN u), cmp := d.flag (CHK_CFG_CMP_EN u)
    start := d.rd (CHK_START_START u), len := d.rd (CHK_LEN_LEN u), tag := d.rd (CHK_TAG_TAG u)
    foldBase := d.rd (CHK_FOLD_FOLD_BASE u)
    exp := mkGroup (d.rd (CHK_EXP_LO_VALUE u)) (d.rd (CHK_EXP_HI_VALUE u))
    expc := mkGroup (d.rd (CHK_EXPC_LO_VALUE u)) (d.rd (CHK_EXPC_HI_VALUE u)), doneAt := none }

/-- CHK_u_CMD.GO by master `m` (R336). -/
def Dev.chkGo (u m : Nat) (d : Dev) : Dev :=
  if d.flag (CHK_STAT_BUSY u) then d.evt (CHK_EVT_REJECT u)
  else
    let c := d.chkConfig u
    if d.chkRefused u m c.start c.len c.foldBase then d.chkRefuse u m else d.chkBegin u m c

/-- The last word of the last job was processed on the present LCLK edge (2.5 ns). [DEDUCED, log 141] -/
def Dev.chkJustDone (d : Dev) (u : Nat) : Bool := (d.chkUnit u).doneAt.any fun t => decide (d.clk.tclk / 4 ≤ t / 4)

/-- CHK_u_CMD.ABORT by master `m` (R338). [DEDUCED, log 140, 141] -/
def Dev.chkAbort (u m : Nat) (d : Dev) : Dev :=
  if u = 3 ∧ m ≠ 2 ∧ m ≠ 7 then d.evt (CHK_EVT_REJECT u)
  else if d.flag (CHK_STAT_BUSY u) then
    let d := ((d.wr (CHK_STAT_BUSY u) 0).wr (CHK_STAT_END u) 2).wr (CHK_STAT_ABORT_RES u) 1
    ((d.wr (CHK_RES_LO_VALUE u) 0).wr (CHK_RES_HI_VALUE u) 0).evt (CHK_EVT_ABORTED u)
  else if d.chkJustDone u then d.wr (CHK_STAT_ABORT_RES u) 2
  else (d.wr (CHK_STAT_ABORT_RES u) 3).evt (CHK_EVT_REJECT u)

/-- A write of CHK_u_CMD (R336, R338). -/
def Dev.chkCmd (u m w : Nat) (d : Dev) : Dev :=
  if w.testBit 31 ∧ w.testBit 30 then d.evt (CHK_EVT_REJECT u)
  else if w.testBit 31 then d.chkGo u m
  else if w.testBit 30 then d.chkAbort u m
  else d

/-! ### The words of a job (R334, R336) -/

/-- The 64-bit word a unit reads at an address (R336): two bus reads as master 3, lower address first, with the latches they set;
SRAM; or the array, of which KEYS reads 0. -/
def Dev.chkWord (a : Nat) (d : Dev) : Nat × Dev :=
  if a < 0x0F0000 then
    let lo := d.readReg 3 a
    let hi := lo.2.readReg 3 (a + 4)
    (mkGroup lo.1 hi.1, hi.2)
  else if a < 0x200000 then (mkGroup (d.sramRead a) (d.sramRead (a + 4)), d)
  else (if pageOf a = 304 then 0 else d.group a, d)

/-- `n` such words from an address on. -/
def Dev.chkReads : Nat → Nat → Dev → List Nat × Dev
  | 0, _, d => ([], d)
  | n + 1, a, d =>
    let w := d.chkWord a
    let t := Dev.chkReads n (a + 8) w.2
    (w.1 :: t.1, t.2)

/-- The words of a job. -/
def Dev.chkWords (d : Dev) (c : ChkUnit) : List Nat := (d.chkReads (c.len / 8) c.start).1

/-- The low `w` bits of a number. -/
def lowBits (w v : Nat) : Nat := v % 2 ^ w

/-- VERDICT of a comparison (R335): 1 MATCH, 2 DATA_BAD, 3 CHECK_CORRUPT. -/
def verdict (width c e ec : Nat) : Nat :=
  let n := 2 ^ width - 1 - lowBits width ec
  if c = lowBits width e ∧ c = n then 1
  else if c = lowBits width e ∨ c = n then 3
  else 2

/-! ### Background checks (R337) -/

/-- The core starts the next background check if CHK_3 is idle. -/
def Dev.chkNext (d : Dev) : Dev :=
  match d.chk.plan with
  | [] => d
  | p :: ps =>
    if d.flag (CHK_STAT_BUSY 3) then d
    else
      let c : ChkUnit :=
        { poly := 0, prio := false, fold := true, cmp := true, start := p.start, len := p.len, tag := p.tag, foldBase := 0
          exp := p.exp, expc := p.expc, doneAt := none }
      ({ d with chk := { d.chk with plan := ps } }).chkBegin 3 2 c

/-- The check of a committed image slot against IMG_CHECK of its commit block (R337; 09 R236, R237). [DEDUCED, log 140] -/
def Dev.slotPlan (d : Dev) (s : Nat) : Option ChkPlan :=
  let g := d.slotSrc s
  if g.committed (d.slotErrs s) ∧ (g.headBad d.clk.xoin).isNone then
    let v := g.num (g.commitAt + 8) 4
    some { start := g.base, len := g.length, tag := g.sequence, exp := v, expc := not32 v }
  else none

/-- The check of a committed holdover bank (R327, R337). [DEDUCED, log 140] -/
def Dev.bankPlan (d : Dev) (b : Nat) : Option ChkPlan :=
  match d.bankSeq b with
  | some q =>
    let a := pageAddr (256 + 8 * b)
    let gb := d.group (a + 0xFF0)
    some { start := a, len := 0x840, tag := q, exp := lo32 gb, expc := hi32 gb }
  | none => none

/-- CHECK_SCHEDULE_TICK: every 24 h the core checks each image slot and each holdover bank (R337).
[DEDUCED, log 140; DESIGN CHOICE, log 156] -/
def Dev.checkTick (d : Dev) : Dev :=
  let ps := ([0, 1].filterMap d.slotPlan) ++ [0, 1].filterMap d.bankPlan
  ({ d with chk := { d.chk with plan := d.chk.plan ++ ps } }).chkNext

/-! ### Completion (R335, R338) -/

/-- The verdict of a job fires its source (R335): START, master 3, type scan, the unit as detail. -/
def Dev.chkVerdict (u v start : Nat) (d : Dev) : Dev :=
  if v = 2 then (d.evt (CHK_EVT_DATA_BAD u)).fireAcc 46 u start (some 3) accScan
  else if v = 3 then (d.evt (CHK_EVT_CHECK_CORRUPT u)).fireAcc 47 u start (some 3) accScan
  else d

/-- An uncorrectable error that a job met (R335; 01 R27; 12 R309). -/
def Dev.chkEccFire (a : Nat) (d : Dev) : Dev :=
  if a < 0x200000 then
    let r := if a < 0x140000 then 0 else if a < 0x14C000 then 1 else if a < 0x158000 then 2 else if a < 0x160000 then 3
      else if a < 0x170000 then 4 else if a < 0x178000 then 5 else 6
    d.fireAcc 3 r a (some 3) accScan
  else d.nvmEcc a 3 accScan true

/-- The source of a job's range: registers, SRAM or the array (R336). -/
def sourceOf (a : Nat) : Nat := if a < 0x100000 then 0 else if a < 0x200000 then 1 else 2

/-- A unit with PRIO 0 receives no burst while a unit with PRIO 1 has work in the same source (R337). -/
def Dev.chkStarved (d : Dev) (u : Nat) : Bool :=
  let c := d.chkUnit u
  !c.prio && anyN 4 fun v =>
    d.flag (CHK_STAT_BUSY v) && (d.chkUnit v).prio && decide (sourceOf (d.chkUnit v).start = sourceOf c.start)

/-- An uncorrectable error as a job meets it: none in a dark array (12 R309). -/
def Dev.chkErr (d : Dev) (ecc : Option Nat) : Option Nat := ecc.filter fun a => decide (a < 0x200000) || !d.nvmDark

/-- CHK_JOB_DONE: the last word of a job is processed (R335, R338); `ecc` is the address of an uncorrectable error met.  A job
that R337 starves comes to no last word. [DESIGN CHOICE, log 17] -/
def Dev.chkDone (u : Nat) (ecc : Option Nat) (d : Dev) : Dev :=
  if ¬ d.flag (CHK_STAT_BUSY u) ∨ d.chkStarved u then d
  else
    let c := d.chkUnit u
    let ecc := d.chkErr ecc
    let r := d.chkReads (c.len / 8) c.start
    let res := crcJob c.poly c.tag (if c.fold then some c.foldBase else none) r.1
    let v := if ecc.isSome then 2 else if c.cmp then verdict (crcKind c.poly).width res c.exp c.expc else 0
    let d := ((r.2.wr (CHK_RES_LO_VALUE u) (lo32 res)).wr (CHK_RES_HI_VALUE u) (hi32 res)).wr (CHK_STAT_BUSY u) 0
    let d := ((d.wr (CHK_STAT_END u) 1).wr (CHK_STAT_VERDICT u) v).wr (CHK_STAT_ECC u) (b2n ecc.isSome)
    let d := ((d.bump (CHK_JOBS_COUNT u)).evt (CHK_EVT_DONE u)).setChk u fun c => { c with doneAt := some d.clk.tclk }
    let d := match ecc with | some a => d.chkEccFire a | none => d
    let d := d.chkVerdict u v c.start
    if u = 3 then d.chkNext else d

end Sys2Proof.Machine
end

