-- ==== Sys2Proof/Machine/Mailbox.lean ====
section
/-!
DEFINITION. The mailbox and the services of the shepherd core (10 R277 to R280; 06 R189, R190; 09 R249; 12 R327, R332).  A
service is judged at the edge that accepts it; its outcome is delivered by MBX_SERVICE_DONE, which carries what the core
has measured, or by an ABORT, a timeout or a reset.
-/

namespace Sys2Proof.Machine

/-- The bits of each argument that a service names (R280). [DEDUCED, log 106] -/
def argMasks : Nat → List Nat
  | 1 => [0x11F, 0xFFFFFF, 0xFFFFFFFF]
  | 2 => [0xFFFF, 0xF, 0xFFFFFFFF]
  | 3 => [1]
  | 4 => [0xFFFFFFFF]
  | 5 => [0x1FF, 0xFFFFFFFF, 0xFFFFFFFF, 0xFFFFFFFF, 0xFFFFFFFF]
  | 6 => [0x1F]
  | _ => []

/-- An argument, or a bit of one, that the service does not name is not 0 (R280). [DEDUCED, log 106] -/
def Dev.argsBad (d : Dev) (service : Nat) : Bool :=
  anyN 6 fun k => d.mbxArg k &&& (argMasks service).getD k 0 ≠ d.mbxArg k

/-- What ALIGN does at its accepting edge (06 R189; R280). -/
def Dev.alignGo (d : Dev) : Dev :=
  let role := d.rd PAST_STAT_ROLE
  if d.mode ≠ .run ∨ ((d.mbxArg 0).testBit 8 ∧ role ≠ 2 ∧ role ≠ 3) then d.mbxOut 3 []
  else if d.argsBad 1 ∨ 24 ≤ d.mbxArg 0 % 32 ∨ d.mbxArg 2 < 256 ∨ 65536 < d.mbxArg 2 then d.mbxOut 2 []
  else
    match d.alignProbe with
    | none => d.mbxOut 0x0D [0, outBits d.alignMask]
    | some p => d.alignStart p

/-! ### LEARN (R280; 04 R129; 12 R327) -/

/-- What LEARN does at its accepting edge: its arguments are judged. [DESIGN CHOICE, log 64] -/
def Dev.learnGo (d : Dev) : Dev :=
  let bad := anyN 16 fun n => (d.mbxArg 0).testBit n && decide (2 ≤ d.padKind n)
  let start := (d.mbxArg 1).testBit 0
  if d.argsBad 2 ∨ bad ∨ d.mbxArg 1 / 4 = 3 ∨ (start ∧ (d.mbxArg 2 < 1 ∨ 720 < d.mbxArg 2)) then d.mbxOut 2 []
  else d

/-- An empty holdover model. -/
def HoldModel.empty : HoldModel := { valid := false, secs := 0, ageing := 0, c1 := 0, c2 := 0, th := 0 }

/-- The model of paddock `n` that a bank holds (12 R327). -/
def Dev.bankModel (d : Dev) (b n : Nat) : HoldModel :=
  let a := pageAddr (256 + 8 * b) + 0x40 + 128 * n
  { valid := (lo32 (d.group a)).testBit 0, secs := hi32 (d.group a), ageing := sext 64 (d.group (a + 8))
    c1 := sext 64 (d.group (a + 16)), c2 := sext 64 (d.group (a + 24)), th := sext 32 (lo32 (d.group (a + 32))) }

/-- The models that the core holds, one per paddock. -/
def Dev.modelList (d : Dev) : List HoldModel := (List.range 16).map fun n => d.nvmc.models.getD n HoldModel.empty

/-- A list of models with those of the mask replaced. -/
def replaceModels (mask : Nat) (f : Nat → HoldModel) (ms : List HoldModel) : List HoldModel :=
  (List.range 16).map fun n => if mask.testBit n then f n else ms.getD n HoldModel.empty

/-- LEARN takes effect (R280; 12 R327): a start restores the model from the newer usable bank unless it discards it; a stop
writes a bank. [DESIGN CHOICE, log 64] -/
def Dev.learnDone (x : MbxData) (d : Dev) : Dev :=
  let mask := d.mbxArg 0
  let start := (d.mbxArg 1).testBit 0
  let discard := (d.mbxArg 1).testBit 1
  let d := forN 16 (fun n d => d.when (mask.testBit n) fun d =>
    d.setPad n fun p => { p with learn := start, learnSensor := if start then d.mbxArg 1 / 4 else p.learnSensor,
                                 learnHours := if start then d.mbxArg 2 else p.learnHours }) d
  let bank := if start ∧ ¬ discard then d.bankChosen x.corr x.bad else none
  let from_ : Nat → HoldModel :=
    if discard then fun _ => HoldModel.empty
    else if start then (match bank with | some b => d.bankModel b | none => fun _ => HoldModel.empty)
    else fun n => x.models.getD n HoldModel.empty
  let d := { d with nvmc := { d.nvmc with models := replaceModels mask from_ d.modelList, holdLast := bank.getD d.nvmc.holdLast } }
  let d := if start then d else d.writeBank
  d.mbxComplete 0 [outBits ((List.range 16).filter fun n => (d.pad n).learn)]

/-! ### DUMP, SELFTEST, INFO (R280; 11 R300) -/

/-- What DUMP does at its accepting edge: a new dump starts, after a FATAL dump that is being written (11 R300, R301).
[DEDUCED, log 107] -/
def Dev.dumpGo (d : Dev) : Dev :=
  if d.argsBad 3 then d.mbxOut 2 []
  else if d.flt.dump.isSome then d
  else d.dumpStart (d.mbxTrigger ((d.mbxArg 0).testBit 0))

/-- SELFTEST ends with the mask of tests failed, of those asked for (R280; 11 R281). -/
def Dev.selftestDone (failed : Nat) (d : Dev) : Dev :=
  let f := failed &&& d.mbxArg 0
  if f = 0 then d.mbxComplete 0 [0]
  else (d.mbxComplete 0x0F [f]).fire 56 f

/-! ### IMG_COMMIT (09 R249) -/

/-- The target slot (R249 step 5). [DEDUCED, log 99] -/
def Dev.commitTarget (d : Dev) : Nat :=
  match d.rd DEV_BOOT_STAT_SRC with
  | 0 => 1
  | 1 => 0
  | _ =>
    let cls := fun (s : Nat) => bootable ((d.slotSrc s).classify d.clk.xoin false (d.slotErrs s)).1
    if ¬ cls 0 then 0
    else if ¬ cls 1 then 1
    else if serialNewer (d.slotSrc 1).sequence (d.slotSrc 0).sequence then 0
    else 1

/-- The image's SEQUENCE is newer than the running image's and than that of every committed slot (R249 step 4). -/
def Dev.commitFresh (d : Dev) : Bool :=
  let q := d.stageSrc.sequence
  serialNewer q (d.rd DEV_IMG_SEQ_SEQUENCE) &&
    [0, 1].all fun s => let g := d.slotSrc s; !g.committed (d.slotErrs s) || serialNewer q g.sequence

/-- What IMG_COMMIT does at its accepting edge (R249). [DEDUCED, log 98] -/
def Dev.commitGo (m : Nat) (d : Dev) : Dev :=
  let g := d.stageSrc
  if d.flag DEV_CROOK_LOCK then d.mbxOut 4 []
  else if ¬ d.keyPasses m 0 1 then d.mbxOut 5 []
  else if d.mode ≠ .run ∧ d.mode ≠ .service then d.mbxOut 3 []
  else if d.flag DEV_BOOT_STAT_REPAIR_PEND then d.mbxOut 6 []
  else if d.argsBad 4 then d.mbxOut 2 []
  else
    let f := g.findings d.clk.xoin false
    let t := d.commitTarget
    if f.bad.isSome ∨ f.corrupt then d.mbxOut 8 [t, 0, if f.corrupt then 13 else f.bad.getD 0]
    else if d.mbxArg 0 ≠ g.sequence then d.mbxOut 2 []
    else if ¬ d.commitFresh then d.mbxOut 9 [t, g.imgCheck, 0]
    else d.nvmRequest (.commit t g.sequence g.imgCheck d.mbx.run)

/-- STAGE belongs to a running IMG_COMMIT (R249 step 2). -/
def Dev.stageTaken (d : Dev) : Bool := d.flag DEV_MBX_STAT_BUSY && decide (d.rd DEV_MBX_STAT_SERVICE = 4)

/-! ### KEY_CHANGE (12 R332) -/

/-- What KEY_CHANGE does at its accepting edge (R332). -/
def Dev.keyChangeGo (m : Nat) (d : Dev) : Dev :=
  let region := d.mbxArg 0 % 256
  let kind := (d.mbxArg 0 / 256) % 2
  if d.mode ≠ .service then d.mbxOut 3 []
  else if d.flag DEV_CROOK_LOCK then d.mbxOut 4 []
  else if d.flag NVM_STAT_LOCKOUT then d.mbxOut 0x0E []
  else if 5 < region ∨ d.argsBad 5 then d.mbxOut 2 []
  else if mkGroup (d.mbxArg 1) (d.mbxArg 2) ≠ d.keyOf region kind then (d.keyFailure m region kind).mbxOut 5 []
  else d.nvmRequest (.key region kind (mkGroup (d.mbxArg 3) (d.mbxArg 4)) d.mbx.run)

/-! ### Requests, completion, abort, timeout (R277 to R279) -/

/-- The service is judged at its accepting edge. -/
def Dev.mbxJudge (m service : Nat) (d : Dev) : Dev :=
  if service = 0 then (if d.argsBad 0 then d.mbxOut 2 [] else d)
  else if d.mode = .sleep then d.mbxOut 3 []
  else
    match service with
    | 1 => d.alignGo
    | 2 => d.learnGo
    | 3 => d.dumpGo
    | 4 => d.commitGo m
    | 5 => d.keyChangeGo m
    | _ => if d.argsBad 6 then d.mbxOut 2 [] else d

/-- DEV_MBX_CMD.GO by master `m` (R277, R280). [DEDUCED, log 105] -/
def Dev.mbxGo (m : Nat) (d : Dev) : Dev :=
  if d.flag DEV_MBX_STAT_BUSY then d.evt DEV_MBX_EVT_REJECT
  else
    let service := d.rd DEV_MBX_CMD_SERVICE
    let d := ((d.wr DEV_MBX_STAT_BUSY 1).wr DEV_MBX_STAT_DONE 0).wr DEV_MBX_STAT_MASTER m
    let d := (d.wr DEV_MBX_STAT_TAG (d.rd DEV_MBX_CMD_TAG)).wr DEV_MBX_STAT_SERVICE service
    let d := { d with mbx := { run := d.mbx.run + 1, args := (List.range 6).map fun k => d.rd (DEV_MBX_ARG_ARG k), out := none, align := none } }
    if 6 < service then d.mbxComplete 1 [] else d.mbxJudge m service

/-- MBX_SERVICE_DONE: the running service completes (R277). [DEDUCED, log 105; DESIGN CHOICE, log 156] -/
def Dev.mbxServiceDone (x : MbxData) (d : Dev) : Dev :=
  if ¬ d.flag DEV_MBX_STAT_BUSY then d
  else
    match d.mbx.out with
    | some o =>
      let d := if o.code = 0x0D then d.alignMask.foldl (fun d n => d.alignResult n 5 0) d else d
      d.mbxComplete o.code o.res
    | none =>
      match d.rd DEV_MBX_STAT_SERVICE with
      | 0 => d.mbxComplete 0 [1, b2n d.boot.patchRuns]
      | 2 => d.learnDone x
      | 6 => d.selftestDone x.failed
      | _ => d

/-- DEV_MBX_CMD.ABORT (R279). -/
def Dev.mbxAbort (d : Dev) : Dev :=
  let s := d.rd DEV_MBX_STAT_SERVICE
  if d.flag DEV_MBX_STAT_BUSY ∧ (s = 1 ∨ s = 6) then d.mbxComplete 0x11 []
  else if d.flag DEV_MBX_STAT_BUSY ∧ s = 3 then d.dumpAbort
  else d.evt DEV_MBX_EVT_REJECT

/-- MBX_TIMEOUT: the timeout of the running service expires (R278). [DEDUCED, log 109] -/
def Dev.mbxTimeout (d : Dev) : Dev :=
  if ¬ d.flag DEV_MBX_STAT_BUSY then d
  else
    let s := d.rd DEV_MBX_STAT_SERVICE
    ((d.mbxComplete 7 []).evt DEV_MBX_EVT_TIMEOUT).fire 17 s

/-- A write of DEV_MBX_CMD by master `m`: an ABORT is judged before a GO of the same write. [DEDUCED, log 104] -/
def Dev.mbxCmd (m w : Nat) (d : Dev) : Dev :=
  let d := d.when (w.testBit 30) Dev.mbxAbort
  d.when (w.testBit 31) (Dev.mbxGo m)

end Sys2Proof.Machine
end

