-- ==== Sys2Proof/Machine/Bus.lean ====
section
/-!
DEFINITION. The register bus: refusals (10 R263 to R265, R274; 01 R16, R26, R28; 12 R329), writes by access class (10 R266 to
R275), complement pairs (00 R13; 10 R267), sequence-clear registers (10 R273), command fields, and reads.
-/

namespace Sys2Proof.Machine

/-! ### Refusals (10 R265) -/

/-- An address is mapped (R264). -/
def mapped (a : Nat) : Bool :=
  decide (a < 0x0F0000) || (decide (0x100000 ≤ a) && decide (a < 0x180000)) || (decide (0x200000 ≤ a) && decide (a < 0x228000))

/-- `a` lies in SHCODE (01 R27). -/
def inShcode (a : Nat) : Bool := decide (0x14C000 ≤ a) && decide (a < 0x158000)
/-- `a` lies in STAGE (01 R27). -/
def inStage (a : Nat) : Bool := decide (0x140000 ≤ a) && decide (a < 0x14C000)
/-- `a` lies in TALLY, CALTAB or HIST, which hosts never write (01 R28). [DEDUCED, log 114] -/
def hostReadOnly (a : Nat) : Bool :=
  (decide (0x100000 ≤ a) && decide (a < 0x140000)) || (decide (0x160000 ≤ a) && decide (a < 0x178000))

/-- The crook lock locks writes at `a` (R274). -/
def Dev.crookLocks (d : Dev) (a : Nat) : Bool :=
  d.flag DEV_CROOK_LOCK && (inTest a || inShcode a || (rowAt a).any fun r => r.crook)

/-- The device is in BOOT and the access is not one of the boot loader's (01 R16, R26). [DEDUCED, log 117] -/
def Dev.bootRefuses (d : Dev) (m : Nat) : Bool := decide (d.mode = .boot) && decide (m ≠ 7)

/-- The HOST_ERR bit of a refused write, the first reason in the order of R265. [DEDUCED, log 114] -/
def Dev.writeRefusal (d : Dev) (m a : Nat) : Option Nat :=
  if a % 4 ≠ 0 then some 1
  else if ¬ mapped a then some 2
  else if d.bootRefuses m then some 6
  else if d.crookLocks a then some 7
  else if hostMaster m ∧ (hostReadOnly a ∨ (inShcode a ∧ d.mode ≠ .service)) then some 0
  else if 0x200000 ≤ a ∨ (inStage a ∧ d.stageTaken ∧ m ≠ 2) then some 0
  else none

/-- A window read by master `m` lies in a region whose READ key is closed (12 R329). -/
def Dev.readLocked (d : Dev) (m a : Nat) : Bool :=
  decide (0x200000 ≤ a) && hostMaster m && (regionOf (pageOf a)).any fun r => !d.keyOpen r 0

/-- The HOST_ERR bit of a refused read. -/
def Dev.readRefusal (d : Dev) (m a : Nat) : Option Nat :=
  if a % 4 ≠ 0 then some 1
  else if ¬ mapped a then some 2
  else if d.bootRefuses m ∧ ¬ ((m = 0 ∨ m = 1) ∧ (a = rDEV_ID ∨ a = rDEV_MODE)) then some 6
  else if d.readLocked m a then some 0
  else none

/-- The access type of HOST_ACCESS (11 R292): remote accesses are of type link. -/
def accType (m : Nat) (write : Bool) : Nat := if m = 4 ∨ m = 5 then accLink else if write then accWrite else accRead

/-- A refusal (R265): one HOST_ERR bit, the count, and HOST_ACCESS. -/
def Dev.refuse (bit m a type : Nat) (d : Dev) : Dev :=
  ((d.hostErr bit m a).bump HOST_REFUSED_CNT_COUNT).fireAcc 16 0 a (some m) type

/-! ### Sequence-clear registers (10 R273) -/

/-- A write of a sequence-clear register by master `m`: SEQ is compared as it stood before the edge, and a bit that sets on
the edge stays set (R273, R275). [DESIGN CHOICE, log 19] -/
def Dev.sqcWrite (m a w : Nat) (mask : Nat) (d : Dev) : Dev :=
  let v := (d.word a).toNat
  if bitsOf w 31 24 = d.seqBefore a then d.setWord a (Word.of (andNot v (andNot (w % 0x1000000 &&& mask) (d.setNow a))))
  else if w % 0x1000000 = 0 then d
  else (d.bump HOST_STALE_CNT_COUNT).hostErr 9 m a

/-! ### Complement pairs (00 R13; 10 R267) -/

/-- The last unpaired first half that a master wrote at `a`. -/
def Dev.firstHalf (d : Dev) (m a : Nat) : Option Nat :=
  if d.pmWord m (a + 2) = 1 then some (d.pmWord m (a + 1)).toNat else none

/-- A first half is written. -/
def Dev.cplFirst (m a w : Nat) (d : Dev) : Dev := (d.setPmWord m (a + 1) (Word.of w)).setPmWord m (a + 2) 1

/-- A second half is written for the first half at `a`: the agreed value, if the halves agree; the pair is used up. -/
def Dev.cplSecond (m a w : Nat) (d : Dev) : Option Nat × Dev :=
  let v := d.firstHalf m a
  (v.filter fun x => decide (w = not32 x), d.setPmWord m (a + 2) 0)

/-- The _LO value that a master holds since the quartet at `a` was last accepted; else the last accepted half. -/
def Dev.heldLo (d : Dev) (m a : Nat) : Nat := if d.pmWord m (a + 10) = 1 then (d.pmWord m (a + 9)).toNat else (d.word a).toNat

/-- A quartet's value is accepted: all four words, and the hold ends. -/
def Dev.setQuartet (m a lo hi : Nat) (d : Dev) : Dev :=
  let d := (d.setWord a (Word.of lo)).setWord (a + 4) (Word.of hi)
  let d := (d.setWord (a + 8) (Word.of (not32 lo))).setWord (a + 12) (Word.of (not32 hi))
  d.setPmWord m (a + 10) 0

/-- A write of half `k` of the quartet at `a` (_LO, _HI, _LO_C, _HI_C), with what an accepted value does and the bit of a
rejected one. -/
def Dev.quartetWrite (m a k w : Nat) (err : Fld) (accept : Dev → Dev) (d : Dev) : Dev :=
  match k with
  | 0 => d.cplFirst m a w
  | 1 => d.cplFirst m (a + 4) w
  | 2 =>
    match d.cplSecond m a w with
    | (some v, d) => (d.setPmWord m (a + 9) (Word.of v)).setPmWord m (a + 10) 1
    | (none, d) => d.evt err
  | _ =>
    match d.cplSecond m (a + 4) w with
    | (some v, d) => accept (d.setQuartet m a (d.heldLo m a) v)
    | (none, d) => d.evt err

/-- A write of a half of a complement pair of paddock `n` at offset `o` of its block. -/
def Dev.cplWrite (m n o w : Nat) (d : Dev) : Dev :=
  let err := PAD_ERR_CPL_ERR n
  if o < 0x60 then d.quartetWrite m (rPAD_HMODEL_LO n) ((o - 0x50) / 4) w err (Dev.acceptModel n)
  else if o < 0x90 then
    d.quartetWrite m (rPAD_SFO_LO n) ((o - 0x80) / 4) w err fun d =>
      d.acceptSfo n (d.rd48S ⟨rPAD_SFO_LO n, 31, 0⟩ ⟨rPAD_SFO_HI n, 15, 0⟩)
  else if o = 0x90 then d.cplFirst m (rPAD_SPO n) w
  else
    match d.cplSecond m (rPAD_SPO n) w with
    | (some v, d) => ((d.setWord (rPAD_SPO n) (Word.of v)).setWord (rPAD_SPO_C n) (Word.of w)).acceptSpo n (sext 32 v)
    | (none, d) => d.evt err

/-! ### Command fields -/

/-- What the command bits of a written word set in motion. -/
def Dev.command (m a w : Nat) (d : Dev) : Dev :=
  let go := w.testBit 31
  if a = rDEV_MODE_REQ then d.when go Dev.modeReqGo
  else if a = rDEV_UPDATE then d.localStrobe (w % 256)
  else if a = rDEV_MUSTER then d.when go (Dev.musterGo m)
  else if a = rDEV_RESET then d.resetWrite w
  else if a = rDEV_MBX_CMD then d.mbxCmd m w
  else if a = rFLT_CMD then d.fltCmd w
  else if a = rFLT_INJ then d.when go Dev.inject
  else if a = rFLT_USER then d.userFire w
  else if a = rMEAS_CELL_CMD then d.when go (Dev.retestCmd (w % 64))
  else if a = rMEAS_REQ_PUSH then d.when (w.testBit 0) (Dev.push m)
  else if a = rMEAS_ABORT then d.when go (Dev.abortCmd m)
  else if a = rNVM_CMD then d.when go (Dev.nvmCmdGo m)
  else if a = rNVM_UNLOCK_CMD then d.when go (Dev.unlockGo m)
  else if a = rNVM_CNT_CMD then d.when go (Dev.cntGo m)
  else if a = rPAST_RACC_CTL then d.when go (Dev.raccGo (w.testBit 30))
  else if isReg 0x020000 12 0x100 0x54 a then d.when (w.testBit 0) (Dev.refWtrEnd (inst 0x020000 0x100 a))
  else if isReg 0x030000 16 0x400 0xB8 a then d.when (w.testBit 0) (Dev.tstepCmd (inst 0x030000 0x400 a))
  else if isReg 0x040000 6 0x200 0x18 a then d.when (w.testBit 0) (Dev.apllRecal (inst 0x040000 0x200 a))
  else if isReg 0x070000 16 0x40 0x18 a then d.when (w.testBit 0) (Dev.addEpoch 5 (inst 0x070000 0x40 a))
  else if isReg 0x080000 4 0x40 0x30 a then d.chkCmd (inst 0x080000 0x40 a) m w
  else if isReg 0x0B0000 8 0x40 0x38 a then
    let k := inst 0x0B0000 0x40 a
    (d.when (w.testBit 0) (Dev.portResume k)).when (w.testBit 1) (Dev.portSend k)
  else d

/-! ### Writes of registers (10 R266, R275) -/

/-- Ranges of tuning fields of class RW (11, FLT registers; 14, CRAFT_LED_k). [DEDUCED, log 59] -/
def limitsRw : List Limit :=
  [⟨rFLT_ESC, 1, 4, 19, 0, 10, 1000000, none⟩, ⟨rFLT_QUIET, 1, 4, 15, 0, 1, 60000, none⟩,
   ⟨rFLT_FN_WIDTH, 1, 4, 13, 0, 1, 10000, none⟩, ⟨rFLT_TEMP, 1, 4, 7, 0, 60, 120, none⟩,
   ⟨0x0C0010, 4, 4, 19, 16, 2, 12, some (0x0C0008, 0, 8)⟩]

/-- Codes of class RW that are applied as 0: FUNC 6 and 7, and EVIN on GPIO_4 to 7 (14 R377); SRC and patterns 5 to 7 (14 R378). -/
def codesRw (a w : Nat) : Nat :=
  let clear := fun (hi lo : Nat) (w : Nat) => if 5 ≤ bitsOf w hi lo then setBits w hi lo 0 else w
  if isReg 0x0C0020 8 4 0 a then
    if 6 ≤ bitsOf w 2 0 ∨ (bitsOf w 2 0 = 4 ∧ 0x0C0030 ≤ a) then setBits w 2 0 0 else w
  else if isReg 0x0C0010 4 4 0 a then clear 2 0 (clear 6 4 (clear 30 28 w))
  else w

/-- A word of class RW with every field within its range, and the status bits to set. -/
def limitRw (a w : Nat) : Nat × List Fld :=
  limitsRw.foldl (fun r l => l.on a r) (limitWord a (codesRw a w))

/-- The counters of class RW (10, HOST registers): a write and increments of one edge add up (R275). -/
def rwCounter (a : Nat) : Bool :=
  [rHOST_SPI_FRAMES, rHOST_I2C_XFERS, rHOST_CRC_CNT, rHOST_TMO_CNT, rHOST_REFUSED_CNT, rHOST_STALE_CNT].contains a

/-- How far a counter of class RW has advanced on the present edge (R275). -/
def Dev.counted (d : Dev) (a : Nat) : Nat :=
  if rwCounter a then (d.word a).toNat + 2 ^ 32 - (d.oldWord a).toNat else 0

/-- The RW bits of a written word land, but for those that the hardware has written on this edge; a counter then holds the written
value and the increments of the edge (R275). -/
def Dev.writeRw (r : RegRow) (a w : Nat) (d : Dev) : Dev :=
  if r.rw = 0 then d
  else
    let x := limitRw a (mergeMask (d.word a).toNat w (andNot r.rw (d.hwBits a)))
    (x.2.foldl Dev.evt d).setWord a (Word.of (x.1 + d.counted a))

/-- The RWS bits of a written word land in the shadow, but for those that the hardware has written on this edge (R275), and
PEND of their group is set (10 R270). -/
def Dev.writeRws (r : RegRow) (a w : Nat) (d : Dev) : Dev :=
  if r.rws = 0 then d
  else
    let d := d.setShWord a (Word.of (mergeMask (d.shWord a).toNat w (andNot r.rws (d.hwBits a))))
    match groupOf r a with
    | some g => d.wr DEV_UPDATE_PEND (d.rd DEV_UPDATE_PEND ||| 2 ^ g)
    | none => d

/-- The bits of a register that no class covers. [DEDUCED, log 21] -/
def reservedBits (r : RegRow) : Nat := andNot 0xFFFFFFFF (r.rw ||| r.ro ||| r.rws ||| r.sqc ||| r.cmd ||| r.cpl)

/-- `a` is MCH_n_CFG or MCH_n_DEC of a claimed channel (02 R47). -/
def Dev.claimedReg (d : Dev) (a : Nat) : Bool :=
  (isReg 0x061000 64 32 0 a || isReg 0x061000 64 32 4 a) && d.claimed (inst 0x061000 32 a)

/-- A write of a register of the map. [DEDUCED, log 21] -/
def Dev.rowWrite (r : RegRow) (m a w : Nat) (d : Dev) : Dev :=
  let d := if w &&& reservedBits r = 0 then d else { d with outside := true }
  if r.perMaster then d.setPmWord m a (Word.of (mergeMask (d.pmWord m a).toNat w r.rw))
  else if r.sqc ≠ 0 then (d.writeRw r a w).sqcWrite m a w r.sqc
  else if r.cpl ≠ 0 then d.cplWrite m (inst 0x030000 0x400 a) ((a - 0x030000) % 0x400) w
  else if a = rDEV_CROOK then d.when (w.testBit 0) fun d => d.wr DEV_CROOK_LOCK 1
  else if a = rOUT_TEE then d.teeWrite w
  else if isReg 0x070000 16 0x40 8 a then d.tailWrite (inst 0x070000 0x40 a) (w % 0x10000)
  else if d.claimedReg a then d.evt MEAS_ERR_LOOP_OWNED
  else
    let d := (d.writeRw r a w).writeRws r a w
    if r.cmd = 0 then d else d.command m a w

/-- A write of a word of the TEST block (15 R389): TEST_ACTIVE is live while one differs from its reset value.
[DEDUCED, log 118] -/
def Dev.testWrite (a w : Nat) (d : Dev) : Dev :=
  let d := { d.setWord a (Word.of w) with outside := d.outside || decide (w ≠ 0) }
  d.level 55 0 0 (d.live.any fun e => inTest e.1)

/-- A write at a register address. -/
def Dev.regWrite (m a w : Nat) (d : Dev) : Dev :=
  match rowAt a with
  | some r => d.rowWrite r m a w
  | none => if inTest a then d.testWrite a w else if w = 0 then d else { d with outside := true }

/-- The first host write to SHCODE in SERVICE: the core runs its mask ROM only (01 R25). -/
def Dev.shcodeDirty (d : Dev) : Dev :=
  { d.wr DEV_BOOT_STAT_SHCODE_DIRTY 1 with boot := { d.boot with patchRuns := false } }

/-- A write of one word by master `m`: the state, and whether it was accepted (R263 to R265).  The bus makes one access on
an edge, and what comes after it on that edge has been settled before it (R275; 01 R26). [DESIGN CHOICE, log 19] -/
def Dev.busWrite (m a w : Nat) (d : Dev) : Dev × Bool :=
  if d.mode = .reset then (d, false)
  else
    match d.writeRefusal m a with
    | some bit => ((d.refuse bit m a (accType m true)).accessEdge, false)
    | none =>
      if a < 0x0F0000 then ((d.regWrite m a (w % 2 ^ 32)).accessEdge, true)
      else
        let d := d.setSramWord a (w % 2 ^ 32)
        ((if inShcode a && hostMaster m then d.shcodeDirty else d).accessEdge, true)

/-- A register write, its acceptance unasked. [DESIGN CHOICE, log 19] -/
def Dev.write (m a w : Nat) (d : Dev) : Dev := (d.busWrite m a w).1

/-! ### Reads -/

/-- A read of one word by master `m`: the word, the state, and whether it was granted (R264, R265). -/
def Dev.busRead (m a : Nat) (d : Dev) : Nat × Dev × Bool :=
  if d.mode = .reset then (0, d, false)
  else
    match d.readRefusal m a with
    | some bit =>
      let d := if a % 4 = 0 ∧ mapped a ∧ bit = 0 then nvmEvt 7 d else d
      (0, (d.refuse bit m a (accType m false)).accessEdge, false)
    | none =>
      if a < 0x0F0000 then
        let r := d.readReg m a
        (r.1, r.2.accessEdge, true)
      else if a < 0x200000 then (d.sramRead a, d.accessEdge, true)
      else (d.nvmRead a, d.accessEdge, true)

/-- A register read whose word is the answer of the command. -/
def Dev.readWord (m a : Nat) (d : Dev) : Dev :=
  let r := d.busRead m a
  r.2.1.answer [r.1]

end Sys2Proof.Machine
end

