-- ==== Sys2Proof/Machine/BootOps.lean ====
section
/-!
DEFINITION. The boot sequence (01 R14 to R18; 09 R240 to R247; 11 R287, R307): classification of XOIN, lock of the system
PLL, the choice of a slot, host streams, loading, and the edge that applies the image; and the monitors of the time base.
-/

namespace Sys2Proof.Machine

/-- The boot stage (09 R251). -/
def Dev.stage (d : Dev) : Nat := d.rd DEV_MODE_BOOT_STAGE

/-- The device is in BOOT at a stage. -/
def Dev.atStage (d : Dev) (n : Nat) : Bool := decide (d.mode = .boot) && decide (d.stage = n)

/-- BOOT moves to a stage. -/
def Dev.setStage (n : Nat) (d : Dev) : Dev := d.wr DEV_MODE_BOOT_STAGE n

/-! ### Clocks (01 R14 to R18) -/

/-- The XOIN frequency, in 10 kHz, of a count of its edges (01 R14). -/
def xoinRow (count : Nat) : Option Nat :=
  if 461 ≤ count ∧ count ≤ 563 then some 5000
  else if 922 ≤ count ∧ count ≤ 1126 then some 10000
  else if 1152 ≤ count ∧ count ≤ 1408 then some 12500
  else if 1440 ≤ count ∧ count ≤ 1760 then some 15625
  else none

/-- A count of XOIN ends: a row is selected, or the count repeats (01 R15). -/
def Dev.xoinCount (count : Nat) (d : Dev) : Dev :=
  match xoinRow count with
  | some f => { d.setStage 2 with clk := { d.clk with xoin := f } }
  | none => d.setStage 1

/-- SYS_PLL_LOCK: the clocks of ROOT run, the fuses are loaded (01 R15, R16; 02 R71), with the word of an uncorrectable fuse
error, and the sensor takes its first reading (13 R390). -/
def Dev.pllLock (fuses : List Nat) (eccWord : Option Nat) (temp : Int) (d : Dev) : Dev :=
  if ¬ d.atStage 2 then d
  else
    let d := { d with clk := { d.clk with pllLocked := true, bootclk := false } }
    let d := forN 64 (fun k d => d.setWord (rMCH_PATH k) (Word.of (fuses.getD k 0))) d
    let d := match eccWord with | some w => d.fire 51 w | none => d
    (d.setStage d.scanStage).takeTemp temp

/-- SYS_PLL_LOL outside RESET and BOOT (01 R18): the time base is lost. -/
def Dev.pllLol (d : Dev) : Dev :=
  if ¬ d.applied ∨ ¬ d.clk.pllLocked then d
  else
    let d := { d with clk := { d.clk with pllLocked := false, unreliable := true } }
    (d.abortTimeBase).raise 0 0 0

/-- SYS_PLL_RELOCK (11 R289). -/
def Dev.pllRelock (d : Dev) : Dev :=
  if d.clk.pllLocked ∨ ¬ d.applied then d
  else ({ d with clk := { d.clk with pllLocked := true } }).lower 0 0

/-- A level source begins at an instance whose capture names an address (11 R281, R292). -/
def Dev.raiseAt (src inst detail addr : Nat) (d : Dev) : Dev :=
  if d.flt.live.contains (src, inst) then d
  else
    ({ d with flt := { d.flt with live := d.flt.live ++ [(src, inst)] } }).fireAs src detail
      (some { addr := addr, master := none, type := accInternal }) false false

/-- Instance, detail and address of a complement-protected value (11 R281, CPL_MISMATCH). [DESIGN CHOICE, log 22] -/
def cplSiteAt : CplSite → Nat × Nat × Nat
  | .coarse => (0, 0, 0)
  | .devTime => (1, 1, 0)
  | .padWord n => (n, n, rPAD_FW_LO n)
  | .padHold n => (16 + n, n, rPAD_HW_LO n)
  | .padRef n => (32 + n, n, rPAD_SEL_STAT n)
  | .slot n => (64 + n, n, 0x060000)
  | .steerAcc k => (200 + k, k, rSTEER_ACC_LO k)
  | .steerWord k => (208 + k, k, rSTEER_WORD k)

/-- COMPLEMENT_MISMATCH begins or ends (01 R30; 02 R37; 03 R81, R82; 04 R110; 07 R206). [DESIGN CHOICE, log 22] -/
def Dev.cplMismatch (site : CplSite) (onset : Bool) (d : Dev) : Dev :=
  let x := cplSiteAt site
  match site with
  | .coarse | .devTime =>
    if ¬ onset then d.lower 2 x.1
    else if d.flt.live.contains (2, x.1) then d
    else (d.abortTimeBase).raise 2 x.1 x.2.1
  | .steerAcc k | .steerWord k =>
    if onset then (d.portFault k 5).raiseAt 1 x.1 x.2.1 x.2.2 else d.lower 1 x.1
  | _ => if onset then d.raiseAt 1 x.1 x.2.1 x.2.2 else d.lower 1 x.1

/-! ### The choice of a slot (09 R239, R240, R242) -/

/-- SLOT_SCAN_DONE: both slots are classified and one is chosen.  `corr` and `bad` say which reads of a slot needed a
correction, and the offsets read with an uncorrectable error. [DESIGN CHOICE, log 23] -/
def Dev.slotScan (corrA corrB : Bool) (badA badB : List Nat) (d : Dev) : Dev :=
  if ¬ d.atStage 3 then d
  else
    let d := d.slotFound badA badB
    let a := d.slotSrc 0
    let b := d.slotSrc 1
    let ca := a.classify d.clk.xoin (corrA && !d.nvmDark) (d.slotErrs 0)
    let cb := b.classify d.clk.xoin (corrB && !d.nvmDark) (d.slotErrs 1)
    let r := chooseSlot ca.1 cb.1 a.sequence b.sequence (a.num (a.commitAt + 8) 4) (b.num (b.commitAt + 8) 4)
    let d := { d with boot := { d.boot with clsA := ca.1, clsB := cb.1, diagA := ca.2, diagB := cb.2, tie := r.2 } }
    match r.1 with
    | some s => { d.setStage 9 with boot := { d.boot with src := s } }
    | none => d.setStage (if d.boot.strap = 0 then 4 else 5)

/-! ### Host streams (09 R243) -/

/-- A stream ends with a code. -/
def Dev.streamBad (code : Nat) (d : Dev) : Dev :=
  { d.setStage 8 with boot := { d.boot with diagH := code, next := none } }

/-- LENGTH of a stream is out of range (09 R239 step 7). -/
def lengthBad (n : Nat) : Bool := decide (n % 8 ≠ 0) || decide (n < 96) || decide (49136 < n)

/-- One word of a stream, performed as master 7; answers whether the stream still receives. -/
def Dev.streamWord (a w : Nat) (d : Dev) : Dev :=
  let d := d.setSramWord a w
  let d := { d with boot := { d.boot with next := some (a + 4) } }
  let len := d.stageSrc.length
  if a = 0x140008 ∧ lengthBad len then d.streamBad 7
  else if 0x140008 ≤ a ∧ a + 4 = 0x140000 + len + 16 then d.setStage 7
  else d

/-- The words of a frame to STAGE from address `a`: each is part of the stream while it is received; a word beyond STAGE or
after the stream's end is refused. [DEDUCED, log 100] -/
def Dev.streamWords : Nat → List Nat → Dev → Dev
  | _, [], d => d
  | a, w :: ws, d =>
    let d := d.newEdge
    let d := if d.atStage 6 ∧ inStage a then d.streamWord a w else d.refuse 6 0 a accWrite
    Dev.streamWords (a + 4) ws d

/-- A write frame to STAGE while the loader takes streams (R243). [DEDUCED, log 100] -/
def Dev.streamFrame (a : Nat) (ws : List Nat) (d : Dev) : Dev :=
  if a = 0x140000 then
    ({ d.setStage 6 with boot := { d.boot with next := some a } }).streamWords a ws
  else if d.boot.next = some a ∧ d.atStage 6 then d.streamWords a ws
  else ((d.refuse 6 0 a accWrite)).streamBad 15

/-- The loader takes stream frames (R243). -/
def Dev.streaming (d : Dev) : Bool := d.atStage 5 || d.atStage 6 || d.atStage 8

/-- STREAM_VERIFY_DONE (R243). [DEDUCED, log 98] -/
def Dev.streamVerify (corr : Bool) (bad : List Nat) (d : Dev) : Dev :=
  if ¬ d.atStage 7 then d
  else
    let c := d.stageSrc.classify d.clk.xoin corr bad
    if bootable c.1 then { d.setStage 9 with boot := { d.boot with src := 2, next := none } }
    else d.streamBad c.2

/-! ### Loading (09 R244, R245) -/

/-- Step 1: the image and its commit block stand in STAGE. -/
def Dev.loadStage (d : Dev) : Dev :=
  if 1 < d.boot.src then d
  else
    let g := d.slotSrc d.boot.src
    let bs := ByteMem.bytes g.mem g.dflt g.base g.length ++ ByteMem.bytes g.mem g.dflt (g.base + g.commitAt) 16
    d.setSram 0x140000 bs

/-- One word of a register run: the fields an image loads are written to live value and shadow (09 R235, R244). -/
def Dev.runWord (a w : Nat) (d : Dev) : Dev :=
  match rowAt a with
  | none => d
  | some r =>
    let d := d.setWord a (Word.of (codesRw a (mergeMask (d.word a).toNat w r.img)))
    if r.img &&& r.rws = 0 then d else d.setShWord a (Word.of (mergeMask (d.shWord a).toNat w (r.img &&& r.rws)))

/-- The sections in order: register runs and the patch. -/
def Dev.loadSection (g : ImgSrc) (s : Section_) (d : Dev) : Dev :=
  if s.type ≤ 4 then
    (List.range (s.bodyLen / 4)).foldl (fun d i => d.runWord (s.load + 4 * i) (g.num (s.body + 4 * i) 4)) d
  else if s.type = 6 then
    let d := d.setSram s.load (ByteMem.bytes g.mem g.dflt (g.base + s.body) s.bodyLen)
    { d with boot := { d.boot with patch := some (s.load + g.num (s.body + 4) 4) } }
  else d

/-- A register holds a field that a write can reach. -/
def writable (a : Nat) : Bool := (rowAt a).any fun r => (r.rw ||| r.rws ||| r.sqc ||| r.cpl) ≠ 0

/-- One INIT entry (R245). [DEDUCED, log 101] -/
def Dev.initEntry (a w : Nat) (d : Dev) : Dev :=
  let skip := (rowAt a).any (fun r => decide (r.cmd ≠ 0)) || (decide (rDEV_MBX_CMD ≤ a) && decide (a ≤ rDEV_MBX_IEN))
  if skip then { d with boot := { d.boot with initSkip := min 255 (d.boot.initSkip + 1) } }
  else
    let r := if writable a ∨ (d.writeRefusal 7 a).isSome then d.newEdge.busWrite 7 a w else (d, false)
    if r.2 then r.1 else { r.1 with boot := { r.1.boot with initRej := min 255 (r.1.boot.initRej + 1) } }

/-- The entries of an INIT section. -/
def Dev.initSection (g : ImgSrc) (s : Section_) (d : Dev) : Dev :=
  if s.type ≠ 5 then d
  else (List.range (s.bodyLen / 8)).foldl (fun d k => d.initEntry (g.num (s.body + 8 * k) 4) (g.num (s.body + 8 * k + 4) 4)) d

/-- The NVM DUMP region as boot finds it (11 R302, R307): `bad` are its pages with an uncorrectable error.
[DEDUCED, log 102] -/
def Dev.dumpScan (bad : List Nat) (d : Dev) : Dev :=
  let erased := fun (p : Nat) => d.pageErased (272 + p)
  let readable := fun (p : Nat) => !erased p && !bad.contains p
  if (List.range 32).all erased then d
  else
    let d := d.wr FLT_DUMP_STAT_NVM_HELD 1
    if lo32 (d.group (pageAddr 272)) = 0x504D5544 ∧ ¬ bad.contains 0 then
      d.wr FLT_DUMP_STAT_NVM_PAGES ((List.range 32).takeWhile readable).length
    else d.nvmRequest .dumpErase

/-- BOOT_LOAD_DONE: the image is loaded, the keys and the dump region are read, and band calibration starts (R244).
[DESIGN CHOICE, log 155] -/
def Dev.bootLoad (badDump : List Nat) (d : Dev) : Dev :=
  if ¬ d.atStage 9 then d
  else
    let d := d.loadStage
    let g := d.stageSrc
    let ss := g.sections.getD []
    let d := (d.loadKeys).dumpScan (if d.nvmDark then [] else badDump)
    let d := ss.foldl (fun d s => d.loadSection g s) d
    let d := ss.foldl (fun d s => d.initSection g s) d
    let d := forN 6 (fun k d => d.when (d.flag (FLOCK_CFG_USED k)) (Dev.apllCal k)) d
    d.setStage 10

/-! ### The apply edge (09 R246; 11 R287) -/

/-- The boot registers (09, Boot registers). -/
def Dev.bootRegs (d : Dev) : Dev :=
  let b := d.boot
  let g := d.stageSrc
  let host := b.strap = 1
  let d := (d.wr DEV_BOOT_STAT_SRC b.src).wr DEV_BOOT_STAT_CLS_A (if host then clsNone else b.clsA)
  let d := (d.wr DEV_BOOT_STAT_CLS_B (if host then clsNone else b.clsB)).wr DEV_BOOT_STAT_STRAP b.strap
  let d := (d.wr DEV_BOOT_STAT_TIE (b2n b.tie)).wr DEV_BOOT_STAT_SHCODE_DIRTY 0
  let d := (d.wr DEV_BOOT_STAT_INIT_REJ b.initRej).wr DEV_BOOT_STAT_INIT_SKIP b.initSkip
  let d := (d.wr DEV_IMG_SEQ_SEQUENCE g.sequence).wr DEV_IMG_PLAN_PLAN_ID g.planId
  let d := (d.wr DEV_IMG_CHECK_IMG_CHECK g.imgCheck).wr DEV_BOOT_DIAG_DIAG_A b.diagA
  (d.wr DEV_BOOT_DIAG_DIAG_B b.diagB).wr DEV_BOOT_DIAG_DIAG_H b.diagH

/-- Every source latched in BOOT is treated as if it fired on the apply edge (11 R287). -/
def Dev.reactLatched (d : Dev) : Dev :=
  forN 64 (fun k d => d.when (d.latched k) (Dev.reactTo k (d.sev k) false true (k = 5))) d

/-- IMG_TIE with its rewrite, and IMG_SLOT_BAD (09 R241). [DEDUCED, log 97] -/
def Dev.bootFires (d : Dev) : Dev :=
  let b := d.boot
  if b.strap = 1 then d
  else
    let d := d.when b.tie fun d => ((d.fire 38 0).wr DEV_BOOT_STAT_REPAIR_PEND 1).nvmRequest (.rewrite b.src)
    let bad := fun (c : Nat) => c = clsBad || c = clsUnverified
    let d := d.when (bad b.clsA) (Dev.fire 39 0)
    d.when (bad b.clsB) (Dev.fire 39 1)

/-- Every engine starts (R246; 02 R57; 04 R108, R125; 05 R145; 06 R174; 07 R208; 08 R227); device time follows a time keeper only
where the image names one (04 R111). [DEDUCED, log 88] -/
def Dev.startEngines (d : Dev) : Dev :=
  let d := forN 8 (fun k d => d.setPort k fun p => { p with fnom := d.rd48 (STEER_TGT_LO_TGT k) (STEER_TGT_HI_TGT k) }) d
  let d := ((d.refStartAll).beatsStart).checkShort
  let d := forN 16 Dev.padApply { d with clk := { d.clk with inc := inc0 } }
  (d.psynsStart).pastStart

/-- Outputs at the apply edge: those with ENABLE 1 start; where the edge calls for a fold, every output is held in OFF over
this edge (R246; 11 R287); every output of an APLL in CAL_FAIL goes to SAFE whatever its ENABLE (06 R168).  An output with
USED 0 stays OFF throughout. [DEDUCED, log 77, 78; DESIGN CHOICE, log 171] -/
def Dev.outsApply (d : Dev) : Dev :=
  forN 24 (fun n d =>
    let held := d.flag (OUT_CFG_USED n) && decide (d.rd (OUT_STAT_STATE n) = 0)
    if d.flt.foldNext then d
    else if held && (d.apll (d.apllOf n)).calFail then (d.wr (OUT_STAT_STATE n) 3).evt (OUT_EVT_STOPPED n)
    else d.outTry n) d

/-- The image may apply: stage CALIBRATE, the cells calibrated, no band calibration in progress (R244 steps 5 to 7), and every
RST record that finds space written (03 R83). -/
def Dev.mayApply (d : Dev) : Bool :=
  d.atStage 10 && d.meas.bootCalDone && (!anyN 6 fun k => d.flag (FLOCK_STAT_CAL_BUSY k)) && !anyN 16 d.rstPend

/-- IMAGE_APPLY (R246): DEV_MODE is RUN from this edge, and a fold that it calls for comes at the next LCLK edge (11 R287).
-/
def Dev.imageApply (d : Dev) : Dev :=
  if ¬ d.mayApply then d
  else
    let d0 := d
    let d := { d with boot := { d.boot with appliedAt := some d.clk.edge } }
    let d := (d.changeMode .run).dividersStart
    let d := (d.copyGroups 0xFF).bootRegs
    let d := (d.reactLatched).bootFires
    let d := { d with flt := { d.flt with foldNext := d.flt.foldPend } }
    let d := Dev.hookGroups 0xFF d0 d.startEngines
    let d := d.outsApply
    let d := d.logEvent 3 d.boot.src (d.rd DEV_IMG_SEQ_SEQUENCE)
    ({ d with boot := { d.boot with patchRuns := d.boot.patch.isSome, kick := d.clk.tclk } }).strobePulse

end Sys2Proof.Machine
end

