-- ==== Sys2Proof/Machine/Run.lean ====
section
/-!
DEFINITION. How a command runs: its time passes, it has its effect, and the edge is settled.
-/

namespace Sys2Proof.Machine

/-- What a command answers. -/
abbrev Answer := Host.Outcome State Fault Refusal

/-- The collector has something to settle at the next LCLK edge: a fold that the edge of the image's application has called
for (11 R287), or the end of a fold that a source live on the present edge alone still holds (11 R289). -/
def Dev.foldLag (d : Dev) : Bool := d.flt.foldNext || (d.flag FLT_STAT_FOLD_REQ && !d.flt.fired.isEmpty)

/-- Something of the present edge is settled only once it is over: the collector's, or selection (05 R146, R154). -/
def Dev.lag (d : Dev) : Bool := d.selNow.isSome || d.foldLag

/-- TCLK periods from now to the next LCLK edge: none, where nothing further falls on the present one. -/
def Dev.toNextEdge (d : Dev) : Nat := if d.clk.closed || d.clk.updated then 0 else 4 - d.clk.tclk % 4

/-- `dt` TCLK periods pass; the frames sent before stand. -/
def Dev.pass (dt : Nat) (d : Dev) : Dev :=
  let e := d.advance dt
  { e with past := { e.past with tx := d.past.tx } }

/-- The next LCLK edge takes the fold that the present one has left to it, or ends one; at the edge after the one that applied
the image, outputs go from OFF to SAFE (06 R178; 11 R287, R289). -/
def Dev.settleLag (d : Dev) : Dev :=
  let held := d.flt.foldNext && d.flt.foldPend
  let d := d.pass d.toNextEdge
  Dev.finish ({ d with flt := { d.flt with foldNext := false } }.when held Dev.outsHeld)

/-- `dt` TCLK periods pass; where they lead to another edge, what the present one and the one after it have to settle is settled
on the way. [DEDUCED, log 77; DESIGN CHOICE, log 173] -/
def Dev.arrive (dt : Nat) (d : Dev) : Dev :=
  if d.lag && !d.sameEdge dt then
    let d := { d with past := { d.past with tx := [] } }.endEdge
    if d.foldLag then
      let e := d.settleLag
      let left := dt - d.toNextEdge
      if e.sameEdge left then e.pass left else e.endEdge.pass left
    else d.pass dt
  else d.advance dt

/-- A command of `dt` TCLK periods and effect `f` on the device: the time passes, the effect happens, and what every edge
settles is settled (11 R285, R288 to R290).  The queue is not its concern. [DESIGN CHOICE, log 15, 17, 153] -/
def run (dt : Nat) (f : Dev → Dev) (s : State) : Answer :=
  .next { s with dev := Dev.finish (f (s.dev.arrive dt)) }

/-- A command that may update groups, or the bus access that may: it joins the edge of an update of its LCLK cycle (08 R224;
10 R269). -/
def runJoin (access : Bool) (dt : Nat) (f : Dev → Dev) (s : State) : Answer := run dt f { s with dev := s.dev.rejoin access dt }

/-- An effect on a numbered unit, of which there are `lim`; a number that no unit bears names nothing.
[DESIGN CHOICE, log 16] -/
def within (n lim : Nat) (f : Dev → Dev) (d : Dev) : Dev := if n < lim then f d else d

/-- An effect that happens only where a condition holds at this edge. [DESIGN CHOICE, log 17] -/
def Dev.whenNow (p : Dev → Bool) (f : Dev → Dev) (d : Dev) : Dev := if p d then f d else d


end Sys2Proof.Machine
end

