-- ==== Sys2Proof/Machine/BootExec.lean ====
section
/-!
DEFINITION. The structure image and boot (chapter 09).  One meaning per command.
-/

namespace Sys2Proof.Machine

/-- SLOT_SCAN_DONE (R240): Both NVM slots are read and classified, and the image to boot is chosen. -/
def execSlotScanDone (dt : Nat) (corrA : Bool) (corrB : Bool) (badA : List Nat) (badB : List Nat) (s : State) : Answer :=
  run dt (Dev.slotScan corrA corrB badA badB) s

/-- STREAM_VERIFY_DONE (R243): Classification of a host stream ends; the stream is loaded or the stage becomes
STREAM_BAD. -/
def execStreamVerifyDone (dt : Nat) (corr : Bool) (bad : List Nat) (s : State) : Answer :=
  run dt (Dev.streamVerify corr bad) s

/-- BOOT_LOAD_DONE (R244): Register runs, patch and INIT list are loaded and APLL band calibrations start. -/
def execBootLoadDone (dt : Nat) (badDump : List Nat) (s : State) : Answer :=
  run dt (Dev.bootLoad badDump) s

/-- IMAGE_APPLY (R246): The image applies at one LCLK edge: all groups apply, dividers start, DEV_MODE becomes RUN and
latched boot faults are reacted to. -/
def execImageApply (dt : Nat) (s : State) : Answer :=
  run dt (Dev.imageApply) s

/-- IMG_REWRITE_RETRY (R241): A tie rewrite refused by the hold-up check tries again after 1 s. -/
def execImgRewriteRetry (dt : Nat) (s : State) : Answer :=
  run dt (Dev.rewriteRetry) s

end Sys2Proof.Machine
end

