-- ==== Sys2Proof/Machine/CheckExec.lean ====
section
/-!
DEFINITION. The drover (12 R335 to R338).  One meaning per command.
-/

namespace Sys2Proof.Machine

/-- CHECK_SCHEDULE_TICK (R337): Every 24 h the shepherd core runs CHK_3 over each image slot and holdover bank. -/
def execCheckScheduleTick (dt : Nat) (s : State) : Answer :=
  run dt (Dev.checkTick) s

/-- GO (R336): CHK_u_CMD.GO latches the configuration and starts a check job, or refuses it. -/
def execGo (dt : Nat) (master : Nat) (u : Nat) (s : State) : Answer :=
  run dt (within u 4 (Dev.write master (rCHK_CMD u) (2 ^ 31))) s

/-- ABORT (R338): CHK_u_CMD.ABORT ends a running check job, or reports TOO_LATE or IDLE. -/
def execAbort (dt : Nat) (master : Nat) (u : Nat) (s : State) : Answer :=
  run dt (within u 4 (Dev.write master (rCHK_CMD u) (2 ^ 30))) s

/-- CHK_JOB_DONE (R338): A check job processes its last word; RES, END and VERDICT are written together. -/
def execChkJobDone (dt : Nat) (u : Nat) (ecc : Option Nat) (s : State) : Answer :=
  run dt (within u 4 (Dev.chkDone u ecc)) s

end Sys2Proof.Machine
end

