-- ==== Sys2Proof/Machine/ClockExec.lean ====
section
/-!
DEFINITION. Clocks and complement pairs (chapter 01).  One meaning per command.
-/

namespace Sys2Proof.Machine

/-- XOIN_COUNT_DONE (R15): The count of XOIN edges over 1,024 BOOTCLK cycles ends and the boot logic selects the
matching table row, or selects none. -/
def execXoinCountDone (dt : Nat) (count : Nat) (s : State) : Answer :=
  run dt (Dev.whenNow (fun d => d.atStage 0) (Dev.xoinCount count)) s

/-- XOIN_RECOUNT (R15): With no row selected, the boot logic repeats the XOIN count every 1 ms while it stays at stage
XOIN_BAD. -/
def execXoinRecount (dt : Nat) (count : Nat) (s : State) : Answer :=
  run dt (Dev.whenNow (fun d => d.atStage 1) (Dev.xoinCount count)) s

/-- SYS_PLL_LOCK (R16): The system PLL locks; the boot logic moves to SCLK, BOOTCLK stops, fuses load, boot cell
calibration starts and the history second starts; the die temperature's first reading is taken (R390). -/
def execSysPllLock (dt : Nat) (fuses : List Nat) (found : LockReads) (s : State) : Answer :=
  run dt (Dev.pllLock fuses found.eccWord found.temp) s

/-- SYS_PLL_LOL (R18): The system PLL loses lock outside RESET and BOOT; a FATAL source fires and the outputs fold
directly. -/
def execSysPllLol (dt : Nat) (s : State) : Answer :=
  run dt (Dev.pllLol) s

/-- SYS_PLL_RELOCK (R289): The system PLL regains lock after a loss outside BOOT, so SYS_PLL_LOL is no longer live. -/
def execSysPllRelock (dt : Nat) (s : State) : Answer :=
  run dt (Dev.pllRelock) s

/-- COMPLEMENT_MISMATCH (R30): A value and its complement disagree at the per-LCLK comparison, firing CPL_MISMATCH or
TIME_BASE. -/
def execComplementMismatch (dt : Nat) (site : CplSite) (onset : Bool) (s : State) : Answer :=
  run dt (Dev.cplMismatch site onset) s

/-- CLK_MON (R281): A 1 µs count finds an internal clock off its ratio to ROOT, firing CLK_MON. -/
def execClkMon (dt : Nat) (clock : Nat) (onset : Bool) (s : State) : Answer :=
  run dt (within clock 5 (Dev.level 4 clock clock onset)) s

end Sys2Proof.Machine
end

