-- ==== Sys2Proof/Machine/Front.lean ====
section
/-!
DEFINITION. The host front ends: SPI (10 R252 to R258), I2C (10 R259 to R262) and the remote accesses
of a pasture's bellwether (08 R226).
-/

namespace Sys2Proof.Machine

/-- Front ends are dead in RESET (13 R351). -/
def Dev.frontDead (d : Dev) : Bool := decide (d.mode = .reset)

/-! ### SPI -/

/-- The status byte on SDO during the command byte (R254). -/
def Dev.spiStatus (d : Dev) : Nat :=
  0x80 + 0x40 * b2n (decide (d.mode = .boot)) + 0x20 * b2n d.front.lastErr + 0x10 * b2n d.irqOn + 8 * b2n d.faultPin

/-- A frame opens: it counts, the status byte goes out and LAST_ERR is 0 again (R254). -/
def Dev.spiOpen (d : Dev) : Dev :=
  let s := d.spiStatus
  { d.bump HOST_SPI_FRAMES_COUNT with front := { d.front with status := s, lastErr := false } }

/-- An error of the running frame is remembered for the next status byte (R254).  A write that starts a reset is no error, though
the reset returns HOST_ERR to its reset value. -/
def Dev.noteErr (before : Nat) (d : Dev) : Dev :=
  if d.front.errs = before ∨ d.frontDead then d else { d with front := { d.front with lastErr := true } }

/-- A part of a frame, its errors noted; every part has its own LCLK edge. -/
def Dev.spiPart (f : Dev → Dev) (d : Dev) : Dev :=
  let d := d.nextEdge
  (f d).noteErr d.front.errs

/-- An SPI error that is no refusal; none where a word of the frame has started a reset (13 R351). -/
def Dev.spiErr (bit addr : Nat) (d : Dev) : Dev := if d.frontDead then d else d.spiPart (Dev.hostErr bit 0 addr)

/-- The address after `a` in a burst. -/
def nextAddr (a : Nat) : Nat := (a + 4) % 0x1000000

/-- Words written upward from an address, each as its own access (R256, R263). [DEDUCED, log 110] -/
def Dev.spiWords (m : Nat) : Nat → List Nat → Dev → Dev
  | _, [], d => d
  | a, w :: ws, d => Dev.spiWords m (nextAddr a) ws (d.spiPart (Dev.write m a w))

/-- The words of a write frame: an unaligned frame is rejected whole; a stream frame goes to the boot loader (R243, R263). -/
def Dev.spiStore (a : Nat) (ws : List Nat) (d : Dev) : Dev :=
  if a % 4 ≠ 0 then d.spiPart (Dev.refuse 1 0 a accWrite)
  else if d.streaming ∧ inStage a then d.spiPart (Dev.streamFrame a ws)
  else d.spiWords 0 a ws

/-- SPI_UNKNOWN_CMD (R253). -/
def Dev.spiUnknown (d : Dev) : Dev := (d.spiOpen).spiErr 8 0

/-- The command byte is one of the four, and accepted under SPI_CRC_REQ (R253). -/
def Dev.spiKnown (d : Dev) (cmd : Nat) : Bool :=
  cmd = 0x12 || cmd = 0x1B || ((cmd = 0x02 || cmd = 0x0B) && !d.flag HOST_CFG_SPI_CRC_REQ)

/-- A frame with a command byte that is not known (R253). -/
def Dev.spiOther (cmd : Nat) (d : Dev) : Dev := if d.frontDead ∨ d.spiKnown cmd then d else d.spiUnknown

/-- SPI_WRITE: the words completed stand; `left` bits of a further word are discarded with PARTIAL (R256). -/
def Dev.spiWrite (a : Nat) (ws : List Nat) (left : Nat) (d : Dev) : Dev :=
  if d.frontDead then d
  else if ¬ d.spiKnown 0x02 then d.spiUnknown
  else
    let d := (d.spiOpen).spiStore a ws
    if left = 0 then d else d.spiErr 3 ((a + 4 * ws.length) % 0x1000000)

/-- The bytes of a word in wire order. -/
def wireBytes (w : Nat) : List Nat := [w / 0x1000000 % 256, w / 0x10000 % 256, w / 256 % 256, w % 256]

/-- Command and address in wire order. -/
def wireHead (cmd a : Nat) : List Nat := [cmd, a / 0x10000 % 256, a / 256 % 256, a % 256]

/-- CRC-8 of a WRITE_CRC frame (R255). -/
def writeCrc (a : Nat) (ws : List Nat) : Nat := crc8 (wireHead 0x12 a ++ ws.flatMap wireBytes)

/-- SPI_WRITE_CRC: `extra` bits follow the last whole word, of which the last eight are the CRC (R255). -/
def Dev.spiWriteCrc (a : Nat) (ws : List Nat) (extra crc : Nat) (d : Dev) : Dev :=
  if d.frontDead then d
  else
    let d := d.spiOpen
    if extra ≠ 8 ∨ ws.length < 1 ∨ 64 < ws.length then d.spiErr 3 a
    else if crc ≠ writeCrc a ws then (d.bump HOST_CRC_CNT_COUNT).spiErr 5 a
    else d.spiStore a ws

/-- Words read upward from an address. -/
def Dev.spiFetch (m : Nat) : Nat → Nat → Dev → List Nat × Dev
  | 0, _, d => ([], d)
  | n + 1, a, d =>
    let r := d.nextEdge.busRead m a
    let q := Dev.spiFetch m n (nextAddr a) (r.2.1.noteErr d.front.errs)
    (r.1 :: q.1, q.2)

/-- A prefetch that is never clocked out sets no more than the reading master's latch (R257). [DEDUCED, log 112] -/
def Dev.prefetch (m a : Nat) (d : Dev) : Dev :=
  if (d.readRefusal m a).isNone ∧ a < 0x0E0000 then (d.regRead m a).2 else d

/-- The words of a read frame that were clocked out, `ahead`: and the next one fetched (R256); an unaligned frame reads zeros
(R263). -/
def Dev.spiLoad (a n : Nat) (ahead : Bool) (d : Dev) : List Nat × Dev :=
  if a % 4 ≠ 0 then (List.replicate n 0, d.spiPart (Dev.refuse 1 0 a accRead))
  else
    let r := d.spiFetch 0 n a
    (r.1, r.2.when ahead (Dev.prefetch 0 ((a + 4 * n) % 0x1000000)))

/-- SPI_READ (R256). -/
def Dev.spiRead (a n : Nat) (ahead : Bool) (d : Dev) : Dev :=
  if d.frontDead then d
  else if ¬ d.spiKnown 0x0B then d.spiUnknown
  else let r := (d.spiOpen).spiLoad a n ahead; r.2.answer r.1

/-- SPI_READ_CRC: the words, then the CRC over command, address, COUNT and data (R255); a frame that ends early has sent `n` words
and no CRC (R256). [DEDUCED, log 111] -/
def Dev.spiReadCrc (a count n : Nat) (ahead : Bool) (d : Dev) : Dev :=
  if d.frontDead then d
  else if count = 0 ∨ 64 < count then d.spiUnknown
  else
    let r := (d.spiOpen).spiLoad a (min n count) (ahead && decide (n < count))
    r.2.answer (if n < count then r.1 else r.1 ++ [crc8 (wireHead 0x1B a ++ [count] ++ r.1.flatMap wireBytes)])

/-- What a frame has done when it stalls, and the address its timeout captures (R253, R256, R258): the words of a WRITE that were
complete stand, a WRITE_CRC writes none, words fetched by a read were fetched, an unknown frame is one. -/
def Dev.spiPartial (f : SpiPart) (a : Nat) (ws : List Nat) (d : Dev) : Dev × Nat :=
  match f with
  | .head cmd => (if cmd.all d.spiKnown then d else d.spiErr 8 0, 0)
  | .write => (if d.spiKnown 0x02 then d.spiStore a ws else d.spiErr 8 0, (a + 4 * ws.length) % 0x1000000)
  | .read n ahead =>
    let r := d.spiLoad a n ahead
    (if d.spiKnown 0x0B then r.2.answer r.1 else d.spiErr 8 0, (a + 4 * n) % 0x1000000)
  | .writeCrc => (d, a)
  | .readCrc count n ahead =>
    let r := d.spiLoad a n ahead
    (if count.all fun c => decide (1 ≤ c) && decide (c ≤ 64) then r.2.answer r.1 else d.spiErr 8 0, (a + 4 * n) % 0x1000000)

/-- SPI_STALL_TIMEOUT (R258). -/
def Dev.spiStall (f : SpiPart) (a : Nat) (ws : List Nat) (d : Dev) : Dev :=
  if d.frontDead then d
  else
    let r := (d.spiOpen).spiPartial f a ws
    if r.1.frontDead then r.1 else (r.1.bump HOST_TMO_CNT_COUNT).spiErr 4 r.2

/-! ### I2C -/

/-- A transaction that is addressed to this device: 0x58 and the latched straps; any other, a general call among them, is ignored
(R259). -/
def Dev.i2cFor (target : Nat) (f : Dev → Dev) (d : Dev) : Dev := if target = 0x58 + d.boot.addrStrap then f d else d

/-- A transaction opens. -/
def Dev.i2cOpen (d : Dev) : Dev :=
  { d.bump HOST_I2C_XFERS_COUNT with front := { d.front with i2cAck := 0 } }

/-- `d` with the address pointer moved. -/
def Dev.setPtr (a : Nat) (d : Dev) : Dev := { d with front := { d.front with i2cPtr := a } }

/-- An address phase: none where the third byte is not acknowledged (R261). -/
def Dev.i2cAddress (a : Nat) (d : Dev) : Option Dev × Dev :=
  if a % 4 ≠ 0 then (none, d.nextEdge.refuse 1 1 a accWrite) else (some (d.setPtr a), d)

/-- Words written at the pointer; the first that is refused is not acknowledged and ends the transaction (R260).
[DEDUCED, log 110] -/
def Dev.i2cWords : List Nat → Dev → Dev
  | [], d => d
  | w :: ws, d =>
    let a := d.front.i2cPtr
    let r := d.nextEdge.busWrite 1 a w
    if r.2 then
      let d := r.1.setPtr (nextAddr a)
      Dev.i2cWords ws { d with front := { d.front with i2cAck := d.front.i2cAck + 1 } }
    else r.1

/-- I2C_WRITE: `left` bytes of a further word are discarded with PARTIAL (R260). -/
def Dev.i2cWrite (a : Nat) (ws : List Nat) (left : Nat) (d : Dev) : Dev :=
  if d.frontDead then d
  else
    match (d.i2cOpen).i2cAddress a with
    | (none, d) => d
    | (some d, _) =>
      let d := d.i2cWords ws
      if left = 0 ∨ d.front.i2cAck < ws.length ∨ d.frontDead then d else d.nextEdge.hostErr 3 1 d.front.i2cPtr

/-- Words read from the pointer, which advances at each fetch (R261). -/
def Dev.i2cFetch : Nat → Dev → List Nat × Dev
  | 0, d => ([], d)
  | n + 1, d =>
    let a := d.front.i2cPtr
    let r := d.nextEdge.busRead 1 a
    let q := Dev.i2cFetch n (r.2.1.setPtr (nextAddr a))
    (r.1 :: q.1, q.2)

/-- I2C_READ, with its address phase if it has one (R261). -/
def Dev.i2cRead (a : Option Nat) (n : Nat) (d : Dev) : Dev :=
  if d.frontDead then d
  else
    let d := d.i2cOpen
    let go := fun (d : Dev) => let r := d.i2cFetch n; r.2.answer r.1
    match a with
    | none => go d
    | some a =>
      match d.i2cAddress a with
      | (none, d) => d.answer []
      | (some d, _) => go d

/-- I2C_STALL_TIMEOUT: the words acknowledged or fetched before the stall stand (R262). -/
def Dev.i2cStall (x : I2cXfer) (d : Dev) : Dev :=
  if d.frontDead then d
  else
    let d := match x with
      | .head => d.i2cOpen
      | .write a ws => d.i2cWrite (a % 0x1000000) ws 0
      | .read a n => d.i2cRead (a.map fun a => a % 0x1000000) n
    if d.frontDead then d else (d.bump HOST_TMO_CNT_COUNT).nextEdge.hostErr 4 1 d.front.i2cPtr

/-! ### Remote accesses (08 R226) -/

/-- The access of an RREQ that this device accepts: status and data. -/
def Dev.remote (m : Nat) (wr : Bool) (a w : Nat) (d : Dev) : Nat × Nat × Dev :=
  if wr then let r := d.busWrite m a w; (if r.2 then 0 else 2, 0, r.1)
  else let r := d.busRead m a; (if r.2.2 then 0 else 2, r.1, r.2.1)

/-- RREQ_RX (R226): executed as master 4 or 5, or denied, and answered with an RRSP; none is sent while the register bus is
stopped, and none for a remote SOFT or WARM (13 R348, R350). -/
def Dev.rreqRx (x src dst hops fseq : Nat) (wr : Bool) (tag addr data : Nat) (d : Dev) : Dev :=
  let r := d.acceptFrame x 7 dst src hops fseq ([b2n wr, tag] ++ bytesN 3 addr ++ bytesN 4 data)
  let d := r.1
  if ¬ r.2 ∨ dst ≠ d.pastIndex ∨ d.frontDead then d
  else
    let ok := d.flag PAST_CFG_RACC_EN && d.flag PAST_STAT_BW_V && decide (d.rd PAST_STAT_BW_IDX = src)
    if ok then
      let q := d.remote (4 + x % 2) wr (addr % 0x1000000) (data % 2 ^ 32)
      if q.2.2.frontDead then q.2.2 else q.2.2.originate 8 src ([q.1, tag] ++ bytesN 4 q.2.1)
    else d.originate 8 src ([1, tag] ++ bytesN 4 0)

end Sys2Proof.Machine
end

