-- ==== Sys2Proof/Machine/CraftOps.lean ====
section
/-!
DEFINITION. The craft pins: push buttons, LEDs, plug detection, the external temperature sensor (14 R373 to R379).
-/

namespace Sys2Proof.Machine

/-- FNREL of button `k` (R375). -/
def Dev.pbFnRel (d : Dev) (k : Nat) : Bool := d.flag (if k = 0 then CRAFT_PB_CFG_FNREL_0 else CRAFT_PB_CFG_FNREL_1)

/-! ### LEDs (R374, R375, R378) -/

/-- The SRC condition of an LED holds (R378). -/
def Dev.ledCond (d : Dev) (k : Nat) : Bool :=
  let i := d.rd (CRAFT_LED_IDX k)
  match d.rd (CRAFT_LED_SRC k) with
  | 1 => d.flag FLT_STAT_FSTATE
  | 2 => decide (d.mode = .fold)
  | 3 => decide (d.padSt i = 2)
  | 4 => decide (i < 12) && decide (d.refState i = 3)
  | _ => true

/-- The pattern an LED shows: 0 off, 1 on, 2 BLINK, 3 FAST, 4 WINK (R374, R375, R378). -/
def Dev.ledShows (d : Dev) (k : Nat) : Nat :=
  if ¬ d.flag (CRAFT_LED_EN k) then 0
  else if d.lampTest ∨ d.front.ledAck.getD k false then 1
  else
    let p := if d.ledCond k then d.rd (CRAFT_LED_PAT_ON k) else d.rd (CRAFT_LED_PAT_OFF k)
    if p ≤ 4 then p else 0

/-- A pattern is on at `ms` milliseconds of the device-wide second: each blinking pattern begins it lit (R378).
[DESIGN CHOICE, log 184] -/
def patternLit (p ms : Nat) : Bool :=
  match p with
  | 1 => true
  | 2 => decide (ms < 500)
  | 3 => decide (ms % 250 < 125)
  | 4 => decide (ms < 100)
  | _ => false

/-- What sink LED_k takes, in mA: none in RESET and before the image applies (R378; 13 R351); the device-wide second is one of
UTICK. [DESIGN CHOICE, log 184] -/
def Dev.ledSink (d : Dev) (k : Nat) : Nat :=
  if d.applied && patternLit (d.ledShows k) (d.clk.tclk / (1000 * usTclk) % 1000) then d.rdIn (CRAFT_LED_CURRENT k) 2 12 else 0

/-- LED_OPEN of `k` begins, which a sink finds only while it is on, or ends (R378; 11 R281 source 53). -/
def Dev.ledOpen (k : Nat) (onset : Bool) (d : Dev) : Dev :=
  if 3 < k ∨ (onset ∧ d.ledSink k = 0) then d
  else
    let d := d.wr ⟨rCRAFT_STAT, 24 + k, 24 + k⟩ (b2n onset)
    (d.evtIf onset CRAFT_EVT_LED_OPEN).level 53 k k onset

/-! ### Buttons (R373 to R375; 05 R156) -/

/-- An ACK press (R375). [DEDUCED, log 150] -/
def Dev.ackPress (k : Nat) (d : Dev) : Dev :=
  let d := d.evt CRAFT_EVT_ACK
  let acks := (List.range 4).map fun i =>
    d.front.ledAck.getD i false || (decide (d.rd (CRAFT_LED_SRC i) = 1) && d.flag FLT_STAT_FSTATE)
  let d := { d with front := { d.front with ledAck := acks } }
  if d.pbFnRel k then d.fnRel else d

/-- A CYCLE press: every paddock whose PB_SRC names the button takes one step, and selects (05 R156). -/
def Dev.buttonCycle (k : Nat) (d : Dev) : Dev :=
  (forN 16 (fun n d => d.when (decide (d.rd (PAD_SEL_PB_SRC n) = k + 1)) (Dev.buttonPress n)) d).askSelect none

/-- PB_PRESS: a debounced change from high to low, in any mode (R373); before UTICK runs nothing samples a button, and a level that
is low by then follows without a press. [DEDUCED, log 150] -/
def Dev.pbPress (k : Nat) (d : Dev) : Dev :=
  if 1 < k ∨ d.flag (pbBit k) then d
  else if ¬ d.applied ∧ d.clk.bootclk then d.wr (pbBit k) 1
  else
    let d := (d.wr (pbBit k) 1).evt (if k = 0 then CRAFT_EVT_PRESS_0 else CRAFT_EVT_PRESS_1)
    match d.pbFunc k with
    | 1 => d.buttonCycle k
    | 3 => d.ackPress k
    | _ => d

/-- PB_RELEASE: a debounced change from low to high (R373, R374); a stuck button is stuck no more. -/
def Dev.pbRelease (k : Nat) (d : Dev) : Dev :=
  if 1 < k then d
  else
    let d := (d.wr (pbBit k) 0).wr ⟨rCRAFT_STAT, 12 + k, 12 + k⟩ 0
    d.lower 52 k

/-- PB_STUCK: a button has been low for more than 10 s (R373; 11 R281 source 52). -/
def Dev.pbStuck (k : Nat) (d : Dev) : Dev :=
  if 1 < k ∨ ¬ d.flag (pbBit k) then d
  else ((d.wr ⟨rCRAFT_STAT, 12 + k, 12 + k⟩ 1).evt CRAFT_EVT_PB_STUCK).raise 52 k k

/-! ### Plug detection (R376) -/

/-- The level of PLUG_N_k changes. [DEDUCED, log 151] -/
def Dev.plugLevel (k : Nat) (low : Bool) (d : Dev) : Dev :=
  let f : Fld := ⟨rCRAFT_STAT, 16 + k, 16 + k⟩
  if d.flag f = low then d else (d.wr f (b2n low)).evt CRAFT_EVT_PLUG

/-! ### The external sensor (R379) -/

/-- The bytes of a read as the master sends them: ADDR with W, PTR, and after the repeated START ADDR with R (R379). -/
def Dev.sensBytes (d : Dev) : List Nat :=
  let a := d.rd CRAFT_SENS_CFG_ADDR
  [2 * a, d.rd CRAFT_SENS_CFG_PTR, 2 * a + 1]

/-- The temperature of two data bytes, MSB first, as 16-bit two's complement, in 1/16 degC (R379). -/
def Dev.sensTemp (d : Dev) (first second : Nat) : Int :=
  divRound (sext 16 (256 * (first % 256) + second % 256)) (if d.flag CRAFT_SENS_CFG_FORMAT then 8 else 16)

/-- SENS_READ: a read of the external sensor, which gives two bytes or fails (R379; 11 R281 source 50). -/
def Dev.sensRead (rx : SensRx) (d : Dev) : Dev :=
  if ¬ d.flag CRAFT_SENS_CFG_EN ∨ ¬ d.applied then d
  else
    match rx with
    | .data a b =>
      let d := { d with front := { d.front with sensTx := d.sensBytes } }
      let d := (d.wr CRAFT_SENS_TEMP_TEMP (twos 16 (d.sensTemp a b))).wr CRAFT_SENS_TEMP_VALID 1
      (d.wr CRAFT_SENS_TEMP_FAILS 0).lower 50 0
    | .failed n =>
      let d := { d with front := { d.front with sensTx := d.sensBytes.take n } }
      let n := d.rd CRAFT_SENS_TEMP_FAILS
      let d := d.wr CRAFT_SENS_TEMP_FAILS (min 3 (n + 1))
      if n = 2 then (((d.wr CRAFT_SENS_TEMP_VALID 0).evt CRAFT_EVT_SENS_FAIL)).raise 50 0 0 else d

end Sys2Proof.Machine
end

