-- ==== Sys2Proof/Machine/CraftExec.lean ====
section
/-!
DEFINITION. Buttons, plugs, LEDs and the external sensor (chapter 14).  One meaning per command.
-/

namespace Sys2Proof.Machine

/-- A level of PLUG_N_k, with what its reference monitor does while it runs (05 R142; 14 R376). -/
def Dev.plugMove (k : Nat) (low : Bool) (f : Dev → Dev) (d : Dev) : Dev :=
  let d := d.plugLevel k low
  if d.measuring then f d else d

/-- PLUG_PULL (R142): PLUG_N_k reads high on two consecutive samples and cause PLUG sets. -/
def execPlugPull (dt : Nat) (k : Nat) (s : State) : Answer :=
  run dt (within k 4 (Dev.plugMove k false (Dev.refPull k))) s

/-- PLUG_INSERT (R376): PLUG_N_k goes low; CRAFT_STAT.PLUG and CRAFT_EVT.PLUG change and the SETTLE timer for clearing
cause PLUG starts. -/
def execPlugInsert (dt : Nat) (k : Nat) (s : State) : Answer :=
  run dt (within k 4 (Dev.plugMove k true id)) s

/-- PLUG_SETTLE (R142): PLUG_N_k has stayed low for SETTLE and cause PLUG clears. -/
def execPlugSettle (dt : Nat) (k : Nat) (s : State) : Answer :=
  run dt (within k 4 (Dev.whenNow Dev.measuring (Dev.refPlugSettle k))) s

/-- PB_PRESS (R373): A push button's debounced state changes from high to low and the action of its FUNC is taken. -/
def execPbPress (dt : Nat) (k : Nat) (s : State) : Answer :=
  run dt (Dev.pbPress k) s

/-- PB_RELEASE (R374): A LAMP button is released and each LED resumes its pattern. -/
def execPbRelease (dt : Nat) (k : Nat) (s : State) : Answer :=
  run dt (Dev.pbRelease k) s

/-- PB_STUCK (R373): A button has been low for more than 10 s and PB_STUCK is raised. -/
def execPbStuck (dt : Nat) (k : Nat) (s : State) : Answer :=
  run dt (Dev.pbStuck k) s

/-- LED_OPEN (R378): An LED sink finds its pin below 0.2 V for 1 ms while on, and LED_OPEN fires. -/
def execLedOpen (dt : Nat) (k : Nat) (onset : Bool) (s : State) : Answer :=
  run dt (Dev.ledOpen k onset) s

/-- SENS_READ (R379): Every 250 ms the SENS master reads the external sensor, storing the temperature or counting a
failure towards EXT_SENSOR. -/
def execSensRead (dt : Nat) (raw : SensRx) (s : State) : Answer :=
  run dt (Dev.sensRead raw) s

end Sys2Proof.Machine
end

