-- ==== Sys2Proof/Machine/FaultExec.lean ====
section
/-!
DEFINITION. Fault collection, reactions and the dump (chapter 11).  One meaning per command.
-/

namespace Sys2Proof.Machine

/-- FAULT_INJECT (R295): FLT_INJ GO injects one firing of SRC at the collector, or is rejected. -/
def execFaultInject (dt : Nat) (master : Nat) (src : Nat) (sim : Bool) (s : State) : Answer :=
  run dt (Dev.write master rFLT_INJ (2 ^ 31 + b2n sim * 2 ^ 30 + src % 64)) s

/-- USER_FIRE (R298): Writing bit k of FLT_USER fires USER_k once as a real firing. -/
def execUserFire (dt : Nat) (master : Nat) (mask : Nat) (s : State) : Answer :=
  run dt (Dev.write master rFLT_USER (mask % 16)) s

/-- CAP_REL (R293): FLT_CMD.CAP_REL with the matching CAP_SEQ releases the first-error capture. -/
def execCapRel (dt : Nat) (master : Nat) (seq : Nat) (s : State) : Answer :=
  run dt (Dev.write master rFLT_CMD (2 ^ 31 + seq % 0x10000)) s

/-- FN_REL (R290): FLT_CMD.FN_REL releases a latched FAULT_N when neither the fault state nor FOLD holds. -/
def execFnRel (dt : Nat) (master : Nat) (s : State) : Answer :=
  run dt (Dev.write master rFLT_CMD (2 ^ 30)) s

/-- DUMP_REL (R305): FLT_CMD.DUMP_REL clears SRAM_VALID so the SRAM dump may be overwritten. -/
def execDumpRel (dt : Nat) (master : Nat) (s : State) : Answer :=
  run dt (Dev.write master rFLT_CMD (2 ^ 29)) s

/-- NVM_DUMP_REL (R305): FLT_CMD.NVM_DUMP_REL makes the shepherd core erase the NVM dump region. -/
def execNvmDumpRel (dt : Nat) (master : Nat) (s : State) : Answer :=
  run dt (Dev.write master rFLT_CMD (2 ^ 28)) s

/-- ESCALATION_EXPIRY (R285): The escalation timer expires and the device enters FOLD. -/
def execEscalationExpiry (dt : Nat) (s : State) : Answer :=
  run dt (Dev.escExpiry) s

/-- QUIET_EXPIRY (R288): The quiet period expires, the fault state ends and FOLD_REQ may clear and unfold the device. -/
def execQuietExpiry (dt : Nat) (s : State) : Answer :=
  run dt (Dev.quietExpiry) s

/-- FAULT_N_WIDTH_END (R290): The FAULT_N minimum width ends and FAULT_N is released if allowed. -/
def execFaultNWidthEnd (dt : Nat) (s : State) : Answer :=
  run dt (Dev.fnWidthEnd) s

/-- DUMP_SRAM_DONE (R301): The shepherd core finishes the SRAM dump with its checks, sets SRAM_VALID and starts the NVM
copy. -/
def execDumpSramDone (dt : Nat) (core : List Nat) (s : State) : Answer :=
  run dt (Dev.dumpSramDone core) s

/-- DUMP_TIMEOUT (R301): The SRAM dump has not completed within 10 ms and DUMP_FAIL fires. -/
def execDumpTimeout (dt : Nat) (s : State) : Answer :=
  run dt (Dev.dumpTimeout) s

/-- LOG_ENTRY (R299): The shepherd core appends an entry for a firing to the NVM LOG region, at most one per source per
second. -/
def execLogEntry (dt : Nat) (s : State) : Answer :=
  run dt (Dev.logEntry) s

end Sys2Proof.Machine
end

