-- ==== Sys2Proof/Machine/FlockExec.lean ====
section
/-!
DEFINITION. Flocks, synthesisers and outputs (chapter 06).  One meaning per command.
-/

namespace Sys2Proof.Machine

/-- RECAL (R165): FLOCK_k_CMD.RECAL starts band calibration when every output of the APLL is OFF or SAFE, or is rejected
with CMD_REJ. -/
def execRecal (dt : Nat) (master : Nat) (k : Nat) (s : State) : Answer :=
  run dt (within k 6 (Dev.write master (rFLOCK_CMD k) 1)) s

/-- APLL_CAL_DONE (R168): An APLL band calibration ends with LOCK set or in CAL_FAIL, and outputs waiting on the APLL
start. -/
def execApllCalDone (dt : Nat) (k : Nat) (ok : Bool) (band : Nat) (s : State) : Answer :=
  run dt (within k 6 (Dev.apllCalDone k ok (band % 256))) s

/-- APLL_LOL (R167): An APLL loses lock; LOCK clears, LOL is counted and APLL_LOL fires. -/
def execApllLol (dt : Nat) (k : Nat) (s : State) : Answer :=
  run dt (within k 6 (Dev.apllLol k)) s

/-- APLL_RELOCK (R167): An APLL that lost lock regains it; FLOCK_k_STAT.LOCK sets and APLL_LOL is no longer live, which
starts the quiet period. -/
def execApllRelock (dt : Nat) (k : Nat) (s : State) : Answer :=
  run dt (within k 6 (Dev.apllRelock k)) s

/-- APLL_POWER_DOWN (R185): In SLEEP, once every output of an APLL with no keep-alive output has reached SAFE, its VCO
stops and its dividers hold. -/
def execApllPowerDown (dt : Nat) (k : Nat) (s : State) : Answer :=
  run dt (within k 6 (Dev.apllPowerDown k)) s

/-- PSYN_PULSE (R174): A pulse synthesiser's accumulator reaches the next scheduled crossing and a pulse of WIDTH is
emitted. -/
def execPsynPulse (dt : Nat) (j : Nat) (s : State) : Answer :=
  run dt (within j 4 (Dev.psynPulse j)) s

/-- OUTPUT_STOP_DONE (R180): A STOPPING output reaches the stop point of its SLOW rule and takes its SAFE state. -/
def execOutputStopDone (dt : Nat) (n : Nat) (high : Bool) (s : State) : Answer :=
  run dt (within n 24 (Dev.outStopDone n high)) s

/-- OUTPUT_START (R182): An output released to RUN starts at the next rising edge of its divider or next scheduled
pulse. -/
def execOutputStart (dt : Nat) (n : Nat) (s : State) : Answer :=
  run dt (within n 24 (Dev.outStart n)) s

/-- DRV_FAULT (R184): A driver detects a short or open termination and puts its output into SAFE with OUT_DRV. -/
def execDrvFault (dt : Nat) (n : Nat) (s : State) : Answer :=
  run dt (within n 24 (Dev.outDrvFault n)) s

/-- OUT_TAP_LOSS (R281): An output in RUN shows no tap edge for its limit and OUT_TAP_LOSS fires. -/
def execOutTapLoss (dt : Nat) (n : Nat) (onset : Bool) (s : State) : Answer :=
  run dt (within n 24 (Dev.outTapLoss n onset)) s

/-- OUT_TEE_WRITE (R188): A write of OUT_TEE routes or removes a tap tee, or is rejected with TEE_REJ. -/
def execOutTeeWrite (dt : Nat) (master : Nat) (en : Bool) (src : Nat) (dest : Nat) (s : State) : Answer :=
  run dt (Dev.write master rOUT_TEE (b2n en * 2 ^ 31 + (dest % 32) * 2 ^ 8 + src % 32)) s

end Sys2Proof.Machine
end

