-- ==== Sys2Proof/Machine/HostExec.lean ====
section
/-!
DEFINITION. Host access (chapter 10): SPI, I2C, register writes, strobes and musters.  One meaning per command.
-/

namespace Sys2Proof.Machine

/-- SPI_WRITE (R256): A WRITE frame writes each completed word, or passes STAGE words to the boot loader during a host
stream. -/
def execSpiWrite (dt : Nat) (addr : Nat) (words : List Nat) (left : Nat) (s : State) : Answer :=
  run dt (Dev.spiWrite (addr % 0x1000000) words left) s

/-- SPI_READ (R256): A READ frame returns words from the address upward, prefetching each next word. -/
def execSpiRead (dt : Nat) (addr : Nat) (words : SpiFetch) (s : State) : Answer :=
  run dt (Dev.spiRead (addr % 0x1000000) words.n words.ahead) s

/-- SPI_WRITE_CRC (R255): A WRITE_CRC frame is judged at CS_N rise and its words are written only if length and CRC are
right. -/
def execSpiWriteCrc (dt : Nat) (addr : Nat) (words : List Nat) (extra : Nat) (crc : Nat) (s : State) : Answer :=
  run dt (Dev.spiWriteCrc (addr % 0x1000000) words extra crc) s

/-- SPI_READ_CRC (R255): A READ_CRC frame returns COUNT words followed by a CRC-8. -/
def execSpiReadCrc (dt : Nat) (addr : Nat) (words : SpiFetchCrc) (s : State) : Answer :=
  run dt (Dev.spiReadCrc (addr % 0x1000000) words.count words.n words.ahead) s

/-- SPI_UNKNOWN_CMD (R253): An unknown command byte makes the device ignore the frame and set UNKNOWN_CMD. -/
def execSpiUnknownCmd (dt : Nat) (cmd : Nat) (s : State) : Answer :=
  run dt (Dev.spiOther cmd) s

/-- SPI_STALL_TIMEOUT (R258): CS_N stays low with no SCK edge for 1 ms and the frame is aborted. -/
def execSpiStallTimeout (dt : Nat) (part : SpiPart) (addr : Nat) (words : List Nat) (s : State) : Answer :=
  run dt (Dev.spiStall part (addr % 0x1000000) words) s

/-- I2C_WRITE (R260): An I2C write transaction writes each completed word at the pointer, acknowledging it only if
accepted. -/
def execI2cWrite (dt : Nat) (start : I2cTo) (words : List Nat) (left : Nat) (s : State) : Answer :=
  run dt (Dev.i2cFor start.target (Dev.i2cWrite (start.addr % 0x1000000) words left)) s

/-- I2C_READ (R261): An I2C read transaction returns words from the pointer, advancing it at each fetch. -/
def execI2cRead (dt : Nat) (start : I2cFrom) (n : Nat) (s : State) : Answer :=
  run dt (Dev.i2cFor start.target (Dev.i2cRead (start.addr.map fun a => a % 0x1000000) n)) s

/-- I2C_STALL_TIMEOUT (R262): An open I2C transaction sees no SCL edge for 1 ms and is abandoned. -/
def execI2cStallTimeout (dt : Nat) (target : Nat) (xfer : I2cXfer) (s : State) : Answer :=
  run dt (Dev.i2cFor target (Dev.i2cStall xfer)) s

/-- REGISTER_WRITE (R275): A write to a register with no row of its own takes effect under its access class, landing in
the shadow for RWS fields. -/
def execRegisterWrite (dt : Nat) (master : Nat) (addr : Nat) (data : Nat) (s : State) : Answer :=
  runJoin true dt (Dev.write master (addr % 0x1000000) (data % 2 ^ 32)) s

/-- CPL_HALF_WRITE (R267): A write to a half of a complement pair pairs per master and is accepted or rejected with
CPL_ERR. -/
def execCplHalfWrite (dt : Nat) (master : Nat) (addr : Nat) (data : Nat) (s : State) : Answer :=
  run dt (Dev.write master (addr % 0x1000000) (data % 2 ^ 32)) s

/-- SQC_CLEAR_WRITE (R273): A write to a sequence-clear register clears the named bits if its SEQ is current, or counts
a stale clear. -/
def execSqcClearWrite (dt : Nat) (master : Nat) (addr : Nat) (data : Nat) (s : State) : Answer :=
  run dt (Dev.write master (addr % 0x1000000) (data % 2 ^ 32)) s

/-- UPDATE_STROBE_WRITE (R268): A write of DEV_UPDATE.GROUPS applies the named groups' shadows, or sends a STROBE for
pasture-routed groups. -/
def execUpdateStrobeWrite (dt : Nat) (master : Nat) (groups : Nat) (s : State) : Answer :=
  runJoin true dt (Dev.write master rDEV_UPDATE (groups % 256)) s

/-- GPIO_STROBE_EDGE (R268): An edge on the strobe GPIO applies the groups in GPIO_MASK 10 ns to 20 ns later. -/
def execGpioStrobeEdge (dt : Nat) (pin : Nat) (falling : Bool) (s : State) : Answer :=
  runJoin false dt (within pin 8 (Dev.gpioStrobe pin falling)) s

/-- MUSTER_DEVICE (R271): DEV_MUSTER.GO with PASTURE 0 copies every mustered register into the held bank and increments
the sequence. -/
def execMusterDevice (dt : Nat) (master : Nat) (s : State) : Answer :=
  runJoin true dt (Dev.write master rDEV_MUSTER (2 ^ 31)) s

/-- MUSTER_PASTURE (R271): DEV_MUSTER.GO with PASTURE 1 sends a MUSTER frame and sets PEND, or is ignored with
DEV_CMD_REJ. -/
def execMusterPasture (dt : Nat) (master : Nat) (s : State) : Answer :=
  runJoin true dt (Dev.write master rDEV_MUSTER (2 ^ 31 + 2 ^ 30)) s

/-- CROOK_LOCK (R274): A write of 1 to DEV_CROOK.LOCK sets the crook lock until POR or pin reset. -/
def execCrookLock (dt : Nat) (master : Nat) (s : State) : Answer :=
  run dt (Dev.write master rDEV_CROOK 1) s

end Sys2Proof.Machine
end

