-- ==== Sys2Proof/Machine/JobExec.lean ====
section
/-!
DEFINITION. Measurement jobs, tally rings and the Tally port (chapter 03).  One meaning per command.
-/

namespace Sys2Proof.Machine

/-- The interval job of a number: a slot of the request queue, or with 128 the job of a running ALIGN, which holds no slot.
[DESIGN CHOICE, log 185] -/
def Dev.onInterval (k : Nat) (early : Bool) (f : Dev → Dev) (d : Dev) : Dev :=
  if k = 128 then d.alignInterval early else within k 128 f d

/-- INTERVAL_TIMEOUT (R61): 300 ns after device time passes start plus CLOSE, the interval job matches its nearest stop
in the window or completes with TMO. -/
def execIntervalTimeout (dt : Nat) (slot : Nat) (slotEcc : List Nat) (s : State) : Answer :=
  run dt (Dev.whenNow Dev.measuring (Dev.onInterval slot false fun d => (d.markBad slotEcc).intervalTimeout slot)) s

/-- INTERVAL_EARLY_MATCH (R61): 300 ns after device time passes start plus d, with no nearer later stop, the stop before
the start is matched. -/
def execIntervalEarlyMatch (dt : Nat) (slot : Nat) (slotEcc : List Nat) (s : State) : Answer :=
  run dt (Dev.whenNow Dev.measuring (Dev.onInterval slot true fun d => (d.markBad slotEcc).intervalEarlyMatch slot)) s

/-- FREQ_GATE_TIMEOUT (R78): A frequency job sees no opening edge within GATE, or no closing edge by open plus twice
GATE, and completes with TMO. -/
def execFreqGateTimeout (dt : Nat) (slot : Nat) (slotEcc : List Nat) (s : State) : Answer :=
  run dt (within slot 128 (Dev.whenNow Dev.measuring fun d => (d.markBad slotEcc).freqTimeout slot)) s

/-- A push of a request of one kind, with the finding of the body's read at its acceptance (R73, R81). [DEDUCED, log 103] -/
def Dev.pushKind (kind : Nat) (p : PushBy) (d : Dev) : Dev :=
  d.whenNow (fun d => decide (d.rdPm p.master MEAS_REQ_W0_KIND = kind)) fun d =>
    if p.slotEcc then (d.write p.master rMEAS_REQ_PUSH 1).pushBad d.jobs.nextOrder else d.write p.master rMEAS_REQ_PUSH 1

/-- TIME_INTERVAL_PUSH (R75): A push of a KIND 0 request is decided and the job is accepted into a queue slot or
rejected with a reason. [DEDUCED, log 103] -/
def execTimeIntervalPush (dt : Nat) (push : PushBy) (s : State) : Answer :=
  run dt (Dev.pushKind 0 push) s

/-- FREQUENCY_PUSH (R75): A push of a KIND 1 frequency or ratio request is accepted or rejected. -/
def execFrequencyPush (dt : Nat) (push : PushBy) (s : State) : Answer :=
  run dt (Dev.pushKind 1 push) s

/-- TIMESTAMP_STREAM_PUSH (R75): A push of a KIND 2 timestamp-stream request is accepted or rejected. -/
def execTimestampStreamPush (dt : Nat) (push : PushBy) (s : State) : Answer :=
  run dt (Dev.pushKind 2 push) s

/-- PERIOD_STATISTICS_PUSH (R75): A push of a KIND 3 period-statistics request is accepted or rejected. -/
def execPeriodStatisticsPush (dt : Nat) (push : PushBy) (s : State) : Answer :=
  run dt (Dev.pushKind 3 push) s

/-- MARKER_PUSH (R75): A push of a KIND 4 marker is accepted, with its result fixed at acceptance, or rejected. -/
def execMarkerPush (dt : Nat) (push : PushBy) (s : State) : Answer :=
  run dt (Dev.pushKind 4 push) s

/-- RING_FLUSH_PUSH (R75): A push of a KIND 5 ring flush is accepted or rejected; its result is fixed once every earlier
job to the ring has completed. -/
def execRingFlushPush (dt : Nat) (push : PushBy) (s : State) : Answer :=
  run dt (Dev.pushKind 5 push) s

/-- UNUSED_KIND_PUSH (R75): A push with KIND 6 to 15 is rejected with reason KIND, or with an earlier reason.
[DEDUCED, log 103] -/
def execUnusedKindPush (dt : Nat) (master : Nat) (s : State) : Answer :=
  run dt (Dev.whenNow (fun d => decide (5 < d.rdPm master MEAS_REQ_W0_KIND)) (Dev.write master rMEAS_REQ_PUSH 1)) s

/-- ABORT_SLOT (R85): MEAS_ABORT with SCOPE 0 aborts the job in SLOT if its TAG matches, or sets NONE. -/
def execAbortSlot (dt : Nat) (master : Nat) (slot : Nat) (s : State) : Answer :=
  run dt (Dev.write master rMEAS_ABORT (2 ^ 31 + slot % 128)) s

/-- ABORT_RING (R85): MEAS_ABORT with SCOPE 1 aborts every job in flight to RING; jobs already fixed count as TOO_LATE.
-/
def execAbortRing (dt : Nat) (master : Nat) (ring : Nat) (s : State) : Answer :=
  run dt (Dev.write master rMEAS_ABORT (2 ^ 31 + 2 ^ 29 + (ring % 16) * 2 ^ 24)) s

/-- ABORT_ALL (R85): MEAS_ABORT with SCOPE 2 aborts every job in flight, with completion winning for fixed results. -/
def execAbortAll (dt : Nat) (master : Nat) (s : State) : Answer :=
  run dt (Dev.write master rMEAS_ABORT (2 ^ 31 + 2 ^ 30)) s

/-- ABORT_NONE (R85): MEAS_ABORT with SCOPE 3 selects nothing. -/
def execAbortNone (dt : Nat) (master : Nat) (s : State) : Answer :=
  run dt (Dev.write master rMEAS_ABORT (2 ^ 31 + 2 ^ 30 + 2 ^ 29)) s

/-- RING_RECORD_WRITE (R94): A ring writes the next record of its write queue, if space allows, and advances HEAD; held
completions and waiting records are written in order. -/
def execRingRecordWrite (dt : Nat) (ring : Nat) (slotEcc : List Nat) (s : State) : Answer :=
  run dt (within ring 16 (Dev.whenNow Dev.ringsRun fun d => (d.markBad slotEcc).ringRecordWrite ring)) s

/-- EPOCH_SEC17 (R89): Device-time seconds bit 17 changes and every ring with EPOCH_EN receives an EPOCH record with
cause SEC17. -/
def execEpochSec17 (dt : Nat) (s : State) : Answer :=
  run dt (Dev.epochAll 1) s

/-- EPOCH_REQUEST (R89): TQ_n_CMD.EPOCH writes an EPOCH record with cause REQUEST, or is ignored when EPOCH_EN is 0. -/
def execEpochRequest (dt : Nat) (master : Nat) (ring : Nat) (s : State) : Answer :=
  run dt (within ring 16 (Dev.write master (rTQ_CMD ring) 1)) s

/-- RING_DISABLE_DONE (R96): Once the jobs of a DISABLING ring have their records written, the FLUSH record with TAG
0xFFFF_FFFF is written and DISABLING clears. -/
def execRingDisableDone (dt : Nat) (ring : Nat) (s : State) : Answer :=
  run dt (within ring 16 (Dev.ringDisableDone ring)) s

/-- TAIL_WRITE (R93): A host write of TQ_n_TAIL in HOST mode is accepted within COUNT or rejected with TAIL_ERR. -/
def execTailWrite (dt : Nat) (master : Nat) (ring : Nat) (tail : Nat) (s : State) : Answer :=
  run dt (within ring 16 (Dev.write master (rTQ_TAIL ring) (tail % 0x10000))) s

/-- TP_FRAME_TIMEOUT (R99): FRAME_TMO passes since a frame's first record became available and the port closes the
frame. -/
def execTpFrameTimeout (dt : Nat) (ring : Nat) (s : State) : Answer :=
  run dt (within ring 16 (Dev.tpFrameTimeout ring)) s

/-- TP_FRAME_SEND (R99): A closed frame of 1 to 512 records of one ring is sent on the next free lane, with rings served
round-robin. -/
def execTpFrameSend (dt : Nat) (lane : Nat) (damagedAt : Option Nat) (s : State) : Answer :=
  run dt (within lane 2 (Dev.tpFrameSend lane damagedAt)) s

/-- TP_ACK_RX (R100): An ACK block on TP_RX moves TAIL past the acknowledged records, or is discarded and counted in
TP_ACK_ERR. -/
def execTpAckRx (dt : Nat) (ring : Nat) (seq : Nat) (crc : Nat) (s : State) : Answer :=
  run dt (Dev.tpAck ring seq crc) s

/-- TP_NAK_RX (R100): A valid NAK asks the port to resend the ring from the named SEQ. -/
def execTpNakRx (dt : Nat) (ring : Nat) (seq : Nat) (crc : Nat) (s : State) : Answer :=
  run dt (Dev.tpNak ring seq crc) s

/-- TP_REPLAY_TIMEOUT (R101): No ACK has advanced TAIL for REPLAY_TMO while records are outstanding, and the port
resends from TAIL. -/
def execTpReplayTimeout (dt : Nat) (ring : Nat) (s : State) : Answer :=
  run dt (within ring 16 (Dev.tpReplayTimeout ring)) s

/-- TP_LANE_FAULT (R103): The port finds a transmit lane faulty and takes it out of use. -/
def execTpLaneFault (dt : Nat) (lane : Nat) (s : State) : Answer :=
  run dt (within lane 2 (Dev.tpLaneFault lane)) s

/-- TP_RX_LOCK_TIMEOUT (R103): TP_RX has had no block lock for 1 ms, or no lane is usable, and TALLY_LINK fires. -/
def execTpRxLockTimeout (dt : Nat) (s : State) : Answer :=
  run dt (Dev.tpRxTimeout) s

/-- TP_RX_LOCK_LOSS (R103): TP_RX loses block lock; TP_STAT.RX_UP clears and TP_EVT.RX_DOWN is set. -/
def execTpRxLockLoss (dt : Nat) (s : State) : Answer :=
  run dt (Dev.tpRxLoss) s

/-- TP_RX_LOCK_GAIN (R103): TP_RX gains block lock; RX_UP sets, the 1 ms timer stops and the TALLY_LINK condition can
end. -/
def execTpRxLockGain (dt : Nat) (s : State) : Answer :=
  run dt (Dev.tpRxGain) s

end Sys2Proof.Machine
end

