-- ==== Sys2Proof/Machine/JtagOps.lean ====
section
/-!
DEFINITION. The JTAG port (14 R381, R382): the TAP controller and its scans, the boundary-scan register over the VDD_IO balls, and
REGACC.
-/

namespace Sys2Proof.Machine

/-! ### The TAP controller (R381) -/

/-- The state after a rising edge of TCK with TMS. [PRESUMED, log 203] -/
def Tap.next (t : Tap) (tms : Bool) : Tap :=
  match t with
  | .reset => if tms then .reset else .idle
  | .idle => if tms then .selDr else .idle
  | .selDr => if tms then .selIr else .capDr
  | .capDr => if tms then .ex1Dr else .shDr
  | .shDr => if tms then .ex1Dr else .shDr
  | .ex1Dr => if tms then .upDr else .paDr
  | .paDr => if tms then .ex2Dr else .paDr
  | .ex2Dr => if tms then .upDr else .shDr
  | .upDr => if tms then .selDr else .idle
  | .selIr => if tms then .reset else .capIr
  | .capIr => if tms then .ex1Ir else .shIr
  | .shIr => if tms then .ex1Ir else .shIr
  | .ex1Ir => if tms then .upIr else .paIr
  | .paIr => if tms then .ex2Ir else .paIr
  | .ex2Ir => if tms then .upIr else .shIr
  | .upIr => if tms then .selDr else .idle

/-- The state after a run of TMS. -/
def Tap.run (t : Tap) (tms : List Bool) : Tap := tms.foldl Tap.next t

/-- TMS of a scan of the 5-bit instruction register, from Test-Logic-Reset or Run-Test/Idle to Run-Test/Idle. -/
def irScan : List Bool := [false, true, true, false, false] ++ List.replicate 4 false ++ [true, true, false]

/-- TMS of a scan of a data register of `n` bits. -/
def drScan (n : Nat) : List Bool := [true, false, false] ++ List.replicate (n - 1) false ++ [true, true, false]

/-- What TDO drives over a run of TMS, given the bits shifted out: nothing outside Shift-IR and Shift-DR (R363). -/
def Tap.tdo : Tap → List Bool → List Bool → List Drive
  | _, [], _ => []
  | t, m :: ms, bits =>
    if t = .shDr ∨ t = .shIr then Drive.level (bits.headD false) :: Tap.tdo (t.next m) ms bits.tail
    else .highZ :: Tap.tdo (t.next m) ms bits

/-- What TDO drives between two commands: the TAP rests in no shift state (R363). -/
def Dev.tdoDrive (d : Dev) : Drive :=
  if d.front.tap = .shDr ∨ d.front.tap = .shIr then Drive.level (d.front.tdo.headD false) else .highZ

/-- The TAP goes a run of TMS; leaving Test-Logic-Reset makes JTAG_ACTIVE live (11 R281 source 54). -/
def Dev.tapRun (tms : List Bool) (d : Dev) : Dev :=
  let t := d.front.tap.run tms
  let d := { d with front := { d.front with tap := t } }
  if t = .reset then d.lower 54 0 else d.raise 54 0 0

/-- A scan of the instruction register, which captures 0b00001 and loads a code (R381). [DESIGN CHOICE, log 157] -/
def Dev.setIr (k : Nat) (d : Dev) : Dev :=
  let d := d.tapRun irScan
  { d with front := { d.front with jtagIr := k, tdo := bitsLsb 5 1 } }

/-- A scan of the data register, whose captured bits go out on TDO. -/
def Dev.scanDr (bits : List Bool) (d : Dev) : Dev :=
  let d := d.tapRun (drScan bits.length)
  { d with front := { d.front with tdo := d.front.tdo ++ bits } }

/-! ### Boundary scan (R381) -/

/-- The VDD_IO balls but those of JTAG, in the order of R363: 0 SPI_CS_N, 1 SPI_SCK, 2 SPI_SDI, 3 SPI_SDO, 4 ST_SCK_0, 12 ST_SDO_0, 20
ST_CS_N_0, 28 I2C_SCL, 29 I2C_SDA, 30 SENS_SCL, 31 SENS_SDA, 32 IRQ_N, 33 FAULT_N, 34 RESET_N, 35 BOOT_SRC_0, 37 ADDR_0, 39 GPIO_0,
47 PB_N_0, 49 PLUG_N_0, 53 LED_0. [DESIGN CHOICE, log 157] -/
def boundaryBalls : Nat := 57

/-- A ball that the device can drive. -/
def drivable (b : Nat) : Bool :=
  (decide (3 ≤ b) && decide (b < 34)) || (decide (39 ≤ b) && decide (b < 47)) || (decide (53 ≤ b) && decide (b < 57))

/-- What the device's own logic drives on a ball; a serial port drives nothing between its transfers. -/
def Dev.ownDrive (d : Dev) (b : Nat) : Drive :=
  if 4 ≤ b ∧ b < 12 then (d.portPins (b - 4)).sck
  else if 12 ≤ b ∧ b < 20 then (d.portPins (b - 12)).sdo
  else if 20 ≤ b ∧ b < 28 then (d.portPins (b - 20)).csN
  else if b = 32 then d.irqDrive
  else if b = 33 then d.faultDrive
  else if 39 ≤ b ∧ b < 47 then (match d.gpioDrive (b - 39) with | some v => Drive.level v | none => .highZ)
  else if 53 ≤ b ∧ b < 57 then (if d.ledSink (b - 53) = 0 then .highZ else .low)
  else .highZ

/-- What a ball drives: under EXTEST the cells of the boundary-scan register, else the device's own logic (R381; 13 R351). -/
def Dev.ballDrive (d : Dev) (b : Nat) : Drive :=
  if d.mode = .reset then .highZ
  else if d.front.jtagIr = 0 then
    if ¬ drivable b then .highZ
    else match (Config.boundaryCell (d.front.preload.getD 0) b).toNat with
      | 0 => .highZ
      | 1 => .low
      | _ => .high
  else d.ownDrive b

/-- The level that the board or a pull gives a ball that the device does not drive (R363). -/
def Dev.boardLevel (d : Dev) (b : Nat) : Bool :=
  if b = 34 then !d.boot.pinLow
  else if 39 ≤ b ∧ b < 47 then d.gpioRest (b - 39)
  else if 47 ≤ b ∧ b < 49 then !d.flag (pbBit (b - 47))
  else if 49 ≤ b ∧ b < 53 then !d.flag ⟨rCRAFT_STAT, 16 + (b - 49), 16 + (b - 49)⟩
  else Config.floating d.clk.tclk (8 + b)

/-- The level of a ball. -/
def Dev.ballLevel (d : Dev) (b : Nat) : Bool :=
  match d.ballDrive b with
  | .low => false
  | .high => true
  | _ => d.boardLevel b

/-- A scan of the boundary-scan register: the levels of the balls are captured and go out, and what comes in is held for EXTEST. -/
def Dev.scanBoundary (d : Dev) : Dev :=
  let bits := (List.range boundaryBalls).map d.ballLevel
  let d := d.scanDr bits
  let r := d.draw
  { r.2 with front := { r.2.front with bsr := bits, preload := some r.1 } }

/-! ### Instructions (R381) -/

/-- SAMPLE/PRELOAD. -/
def Dev.samplePreload (d : Dev) : Dev := (d.setIr 1).scanBoundary

/-- EXTEST is accepted only in SERVICE with the crook lock clear, and acts as BYPASS otherwise (R381). [DESIGN CHOICE, log 157] -/
def Dev.extest (d : Dev) : Dev := d.setIr (if d.mode = .service ∧ ¬ d.flag DEV_CROOK_LOCK then 0 else 0x1F)

/-- BYPASS: one bit, captured 0. -/
def Dev.bypass (d : Dev) : Dev := (d.setIr 0x1F).scanDr [false]

/-- IDCODE: the identifier is answered (R381). -/
def Dev.idcode (d : Dev) : Dev := ((d.setIr 2).scanDr (bitsLsb 32 0x174245A7)).answer [0x174245A7]

/-- TEST_LOGIC_RESET (R381; 11 R281 source 54): from any state in at most five rising edges of TCK with TMS 1. -/
def Dev.tapReset (d : Dev) : Dev :=
  let d := d.tapRun (List.replicate 5 true)
  { d with front := { d.front with jtagIr := 2 } }

/-! ### REGACC (R382) -/

/-- The word that Capture-DR loads: BUSY with fields that are not valid, or ERR, the last address and the data. [DEDUCED, log 149] -/
def Dev.captureDr (busy : Bool) (d : Dev) : Nat × Dev :=
  if busy then
    let r := d.draw
    (2 ^ 57 + (Config.notValid r.1).toNat, r.2)
  else
    let f := d.front
    (b2n f.jtagErr * 2 ^ 56 + f.jtagAddr % 2 ^ 24 * 2 ^ 32 + f.jtagData % 2 ^ 32, d)

/-- The access before is not complete, which takes at most 200 ns. -/
def Dev.jtagBusy (d : Dev) : Bool := d.front.jtagAt.any fun t => decide (d.clk.tclk < t + 320)

/-- An access as master 6, and what the next Capture-DR loads. [DEDUCED, log 149] -/
def Dev.regacc (wr : Bool) (a w : Nat) (d : Dev) : Dev :=
  if wr then
    let r := d.busWrite 6 a w
    { r.1 with front := { r.1.front with jtagErr := !r.2, jtagAddr := a, jtagData := 0 }, rsp := [0] }
  else
    let r := d.busRead 6 a
    let d := { r.2.1 with front := { r.2.1.front with jtagErr := !r.2.2, jtagAddr := a, jtagData := r.1 } }
    d.answer [r.1]

/-- A scan of REGACC: Capture-DR loads what the access before has left; Update-DR starts the access, or performs nothing and sets ERR
where it comes while that one is not complete. -/
def Dev.regaccDr (x : TapAccess) (a w : Nat) (d : Dev) : Dev :=
  let d := d.setIr 8
  let c := d.captureDr (x.busy && d.front.jtagAt.isSome)
  let d := c.2.scanDr (bitsLsb 58 c.1)
  let d := { d with front := { d.front with jtagDr := c.1 } }
  if x.early ∧ d.jtagBusy then { d with front := { d.front with jtagErr := true }, rsp := [] }
  else ({ d with front := { d.front with jtagAt := some d.clk.tclk } }).regacc x.wr a w

end Sys2Proof.Machine
end

