-- ==== Sys2Proof/Machine/JtagExec.lean ====
section
/-!
DEFINITION. The JTAG port (14 R381, R382; 11 R281).  One meaning per command.
-/

namespace Sys2Proof.Machine

/-- EXTEST (R381): The EXTEST instruction drives the boundary scan in SERVICE with the crook lock clear, and otherwise
acts as BYPASS. -/
def execExtest (dt : Nat) (s : State) : Answer :=
  run dt (Dev.extest) s

/-- SAMPLE_PRELOAD (R381): The SAMPLE/PRELOAD instruction selects the boundary-scan register. -/
def execSamplePreload (dt : Nat) (s : State) : Answer :=
  run dt (Dev.samplePreload) s

/-- IDCODE (R381): The IDCODE instruction returns the 32-bit device identifier. -/
def execIdcode (dt : Nat) (s : State) : Answer :=
  run dt (Dev.idcode) s

/-- BYPASS (R381): BYPASS, and every unlisted code, selects the 1-bit bypass register. -/
def execBypass (dt : Nat) (s : State) : Answer :=
  run dt (Dev.bypass) s

/-- REGACC (R382): A scan of REGACC shows what the access before has left and performs a register access as master 6. -/
def execRegacc (dt : Nat) (access : TapAccess) (addr : Nat) (data : Nat) (s : State) : Answer :=
  run dt (Dev.regaccDr access (addr % 0x1000000) (data % 2 ^ 32)) s

/-- JTAG_ACTIVE (R281): The JTAG TAP leaves Test-Logic-Reset and JTAG_ACTIVE becomes live. -/
def execJtagActive (dt : Nat) (s : State) : Answer :=
  run dt (Dev.tapRun [false]) s

/-- TEST_LOGIC_RESET (R381): The JTAG TAP returns to Test-Logic-Reset, through TRST_N or TMS, loading IDCODE and ending
the JTAG_ACTIVE condition. -/
def execTestLogicReset (dt : Nat) (s : State) : Answer :=
  run dt (Dev.tapReset) s

end Sys2Proof.Machine
end

