-- ==== Sys2Proof/Machine/MailboxExec.lean ====
section
/-!
DEFINITION. The mailbox and its services (10 R277 to R280).  One meaning per command.
-/

namespace Sys2Proof.Machine

/-- INFO (R280): The INFO service returns the ROM revision and whether a patch is running. -/
def execInfo (dt : Nat) (master : Nat) (tag : Nat) (s : State) : Answer :=
  run dt (Dev.write master rDEV_MBX_CMD (2 ^ 31 + (tag % 256) * 2 ^ 8 + 0)) s

/-- ALIGN (R189): The ALIGN service measures return taps and trims output delays to their targets. -/
def execAlign (dt : Nat) (master : Nat) (tag : Nat) (s : State) : Answer :=
  run dt (Dev.write master rDEV_MBX_CMD (2 ^ 31 + (tag % 256) * 2 ^ 8 + 1)) s

/-- LEARN (R280): The LEARN service starts or stops holdover model learning for the masked paddocks. -/
def execLearn (dt : Nat) (master : Nat) (tag : Nat) (s : State) : Answer :=
  run dt (Dev.write master rDEV_MBX_CMD (2 ^ 31 + (tag % 256) * 2 ^ 8 + 2)) s

/-- DUMP (R300): The DUMP service writes a new dump to SRAM and optionally to NVM. -/
def execDump (dt : Nat) (master : Nat) (tag : Nat) (s : State) : Answer :=
  run dt (Dev.write master rDEV_MBX_CMD (2 ^ 31 + (tag % 256) * 2 ^ 8 + 3)) s

/-- IMG_COMMIT (R249): The IMG_COMMIT service verifies the staged image and writes it into the slot not booted; its
request names the offsets of the slots that read with an uncorrectable error. [DESIGN CHOICE, log 23] -/
def execImgCommit (dt : Nat) (master : Nat) (req : CommitReads) (s : State) : Answer :=
  run dt (fun d => (d.slotFound req.badA req.badB).write master rDEV_MBX_CMD (2 ^ 31 + (req.tag % 256) * 2 ^ 8 + 4)) s

/-- KEY_CHANGE (R332): The KEY_CHANGE service replaces a region's key after checking the old key. -/
def execKeyChange (dt : Nat) (master : Nat) (tag : Nat) (s : State) : Answer :=
  run dt (Dev.write master rDEV_MBX_CMD (2 ^ 31 + (tag % 256) * 2 ^ 8 + 5)) s

/-- SELFTEST (R280): The SELFTEST service runs the selected tests without disturbing loops or outputs. -/
def execSelftest (dt : Nat) (master : Nat) (tag : Nat) (s : State) : Answer :=
  run dt (Dev.write master rDEV_MBX_CMD (2 ^ 31 + (tag % 256) * 2 ^ 8 + 6)) s

/-- UNKNOWN_SERVICE (R280): A mailbox request with an unknown service code completes at once with UNKNOWN. -/
def execUnknownService (dt : Nat) (master : Nat) (service : Nat) (tag : Nat) (s : State) : Answer :=
  run dt (Dev.whenNow (fun _ => decide (6 < service % 256)) (Dev.write master rDEV_MBX_CMD (2 ^ 31 + (tag % 256) * 2 ^ 8 + service % 256))) s

/-- MBX_ABORT (R279): DEV_MBX_CMD.ABORT stops a running ALIGN, SELFTEST or DUMP, or is ignored with REJECT. -/
def execMbxAbort (dt : Nat) (master : Nat) (s : State) : Answer :=
  run dt (Dev.write master rDEV_MBX_CMD (2 ^ 30)) s

/-- MBX_SERVICE_DONE (R277): A service completes; CODE and results are written, BUSY clears and DONE is set. -/
def execMbxServiceDone (dt : Nat) (found : MbxData) (s : State) : Answer :=
  run dt (Dev.mbxServiceDone found) s

/-- MBX_TIMEOUT (R278): A service's timeout expires; it completes with TIMEOUT and MBX_TIMEOUT fires. -/
def execMbxTimeout (dt : Nat) (s : State) : Answer :=
  run dt (Dev.mbxTimeout) s

end Sys2Proof.Machine
end

