-- ==== Sys2Proof/Machine/MeasExec.lean ====
section
/-!
DEFINITION. The measurement front end (chapter 02).  One meaning per command.
-/

namespace Sys2Proof.Machine

/-- A channel takes CHANNEL_EDGE: the cells measure, and neither the links nor the edge generators feed it, whose edges have
rows of their own; a return tap sees edges only while its output is in RUN (06 R187) on a rail that feeds it (13 R343); GPIO_k feeds
MCH_46 to MCH_49 in function EVIN (02 R45, R46; 14 R377). [DEDUCED, log 152] -/
def Dev.takesEdge (d : Dev) (ch : Nat) : Bool :=
  d.measuring && decide (ch < 53) && decide (ch ≠ 44) && decide (ch ≠ 45) &&
    !(decide (20 ≤ ch) && decide (ch < 44) && (decide (d.rd (OUT_STAT_STATE (ch - 20)) ≠ 1) || d.outRailLow (ch - 20))) &&
    !(decide (46 ≤ ch) && decide (ch < 50) && decide (d.rd (CRAFT_GPIO_FUNC (ch - 46)) ≠ 4))

/-- An edge of EVIN_k shows the level of its GPIO (02 R45; 14 R377). -/
def Dev.evinSeen (ch : Nat) (d : Dev) : Dev :=
  d.when (decide (46 ≤ ch) && decide (ch < 50)) (Dev.gpioSeen (ch - 46) (decide (d.rd (MCH_CFG_EDGE ch) = 0)))

/-- CHANNEL_EDGE (R46): A selected edge reaches a channel's decimator, which forwards every DEC-th edge to an armed cell
or counts it lost. -/
def execChannelEdge (dt : Nat) (ch : Nat) (sub : Nat) (s : State) : Answer :=
  run dt (Dev.whenNow (fun d => d.takesEdge ch) fun d => (d.evinSeen ch).teed ch fun c => Dev.edgeOn c sub 0 0) s

/-- EDGE_GEN_WRAP (R108): A paddock edge generator's phase accumulator wraps and emits an edge on its internal channel.
-/
def execEdgeGenWrap (dt : Nat) (n : Nat) (sub : Nat) (s : State) : Answer :=
  run dt (within n 16 (Dev.whenNow Dev.measuring (Dev.edgeGenWrap n sub))) s

/-- CONVERSION_DONE (R33): A cell's SAR result is ready; it is checked and turned into a timestamp, or discarded with
the event counted lost. -/
def execConversionDone (dt : Nat) (cell : Nat) (code : CellCode) (redOk : Bool) (rstOk : Bool) (tableEcc : Bool) (slotEcc : List Nat) (s : State) : Answer :=
  run dt (within cell 48 fun d => (d.markBad slotEcc).converted cell code redOk rstOk tableEcc) s

/-- POOL_ALLOCATE (R52): At an LCLK edge the pool gives free cells to the waiting uses in priority order: replacements,
handovers, pilots, calibration and channel arming. -/
def execPoolAllocate (dt : Nat) (s : State) : Answer :=
  run dt (Dev.whenNow Dev.measuring Dev.poolAllocate) s

/-- PILOT_DUE (R43): A cell's pilot interval of 32 µs or 128 µs elapses and a pilot conversion falls due at the next
position. -/
def execPilotDue (dt : Nat) (cell : Nat) (s : State) : Answer :=
  run dt (within cell 48 (Dev.whenNow Dev.measuring (Dev.pilotDueOn cell))) s

/-- PILOT_WAIT_EXPIRY (R44): A pilot that has waited a further 128 µs for a free cell takes its job cell, leaving the
channel unarmed for up to 250 ns. -/
def execPilotWaitExpiry (dt : Nat) (cell : Nat) (s : State) : Answer :=
  run dt (within cell 48 (Dev.whenNow Dev.measuring (Dev.pilotWaitExpiry cell))) s

/-- HANDOVER_SLOW (R53): For a loop stream spaced above 10 µs, the armed handover cell takes the LOOP role at the first
edge at which the next nominal event is more than 2 µs ahead. -/
def execHandoverSlow (dt : Nat) (s : State) : Answer :=
  run dt (Dev.whenNow Dev.measuring Dev.handoverSlow) s

/-- CAL_DEFER_EXPIRY (R42): A due cell's CAL_DEFER timer expires; the cell becomes overdue, calibration ranks above jobs
for it, and CAL_OVERDUE fires. -/
def execCalDeferExpiry (dt : Nat) (cell : Nat) (s : State) : Answer :=
  run dt (within cell 48 (Dev.whenNow Dev.measuring (Dev.calDeferExpiry cell))) s

/-- CAL_IDLE_EXPIRY (R42): A job cell has been idle for a continuous 1 ms, allowing calibration of a due but not overdue
cell to take it. -/
def execCalIdleExpiry (dt : Nat) (s : State) : Answer :=
  run dt (Dev.whenNow Dev.measuring Dev.calIdleExpiry) s

/-- CAL_RUN_DONE (R39): A calibration run collects its hits and builds the new table, which replaces the active table in
one LCLK cycle. -/
def execCalRunDone (dt : Nat) (hits : List Nat) (pilots : List Nat) (s : State) : Answer :=
  run dt (Dev.whenNow Dev.measuring (Dev.calRunDone hits pilots)) s

/-- BOOT_CAL_DONE (R40): Boot calibration of every cell with 2^20 hits completes and each table is marked COARSE. -/
def execBootCalDone (dt : Nat) (hits : List (List Nat)) (pilots : List (List Nat)) (s : State) : Answer :=
  run dt (Dev.bootCal hits pilots) s

/-- QUAR_PILOTS_DONE (R54): The 64 pilots on a quarantined cell complete; the cell is retired with CELL_FAULT or returns
to the JOB role. -/
def execQuarPilotsDone (dt : Nat) (cell : Nat) (fails : Nat) (s : State) : Answer :=
  run dt (within cell 48 (Dev.whenNow Dev.cellsWork (Dev.quarDone cell fails))) s

/-- RETEST (R69): MEAS_CELL_CMD.RETEST queues a full recalibration of a retired cell, or is ignored with CMD_IGNORED. -/
def execRetest (dt : Nat) (master : Nat) (cell : Nat) (s : State) : Answer :=
  run dt (Dev.write master rMEAS_CELL_CMD (2 ^ 31 + cell % 64)) s

/-- RETEST_DONE (R58): A retest's calibration and 64 pilots end; the cell returns to JOB or stays RETIRED with FAULT
RETEST. -/
def execRetestDone (dt : Nat) (fails : Nat) (s : State) : Answer :=
  run dt (Dev.whenNow Dev.measuring (Dev.retestDone fails)) s

/-- DEV_TIME_SEC_LO_READ (R38): A read of DEV_TIME_SEC_LO latches all four device-time fields for the reading master. -/
def execDevTimeSecLoRead (dt : Nat) (master : Nat) (s : State) : Answer :=
  run dt (Dev.readWord master rDEV_TIME_SEC_LO) s

/-- LO_HALF_READ (R134): A read of the _LO register of a 48-bit pair latches the _HI half for the reading master. -/
def execLoHalfRead (dt : Nat) (master : Nat) (addr : Nat) (s : State) : Answer :=
  run dt (Dev.readWord master addr) s

end Sys2Proof.Machine
end

