-- ==== Sys2Proof/Machine/ModeExec.lean ====
section
/-!
DEFINITION. Modes, resets and power (chapter 13).  One meaning per command.
-/

namespace Sys2Proof.Machine

/-- MODE_REQ_RUN (R354): A RUN request leaves SERVICE, SLEEP or FOLD when allowed. -/
def execModeReqRun (dt : Nat) (master : Nat) (s : State) : Answer :=
  run dt (Dev.write master rDEV_MODE_REQ (2 ^ 31 + 2)) s

/-- MODE_REQ_SERVICE (R354): A SERVICE request enters SERVICE from RUN when allowed. -/
def execModeReqService (dt : Nat) (master : Nat) (s : State) : Answer :=
  run dt (Dev.write master rDEV_MODE_REQ (2 ^ 31 + 4)) s

/-- MODE_REQ_SLEEP (R354): A SLEEP request enters SLEEP from RUN when allowed. -/
def execModeReqSleep (dt : Nat) (master : Nat) (s : State) : Answer :=
  run dt (Dev.write master rDEV_MODE_REQ (2 ^ 31 + 5)) s

/-- MODE_REQ_INVALID (R354): A mode request with REQ not 2, 4 or 5 is refused with CODE. -/
def execModeReqInvalid (dt : Nat) (master : Nat) (req : Nat) (s : State) : Answer :=
  run dt (Dev.whenNow (fun _ => decide (req % 8 ≠ 2) && decide (req % 8 ≠ 4) && decide (req % 8 ≠ 5)) (Dev.write master rDEV_MODE_REQ (2 ^ 31 + req % 8))) s

/-- POR_ASSERT (R344): A rail falls below its POR threshold for 1 µs and the device enters a POR pulse. -/
def execPorAssert (dt : Nat) (s : State) : Answer :=
  run dt (Dev.startReset .por) s

/-- POR_RELEASE (R344): POR releases 2 ms after the last rail rises; straps are sampled and BOOT starts. -/
def execPorRelease (dt : Nat) (src : Nat) (addr : Nat) (resetLow : Bool) (s : State) : Answer :=
  run dt (Dev.porRelease src addr resetLow) s

/-- PIN_RESET (R347): RESET_N stays low for the filter decision time and a pin reset pulse begins. -/
def execPinReset (dt : Nat) (s : State) : Answer :=
  run dt (Dev.startReset .pin) s

/-- PIN_RESET_RELEASE (R347): RESET_N rises; straps are sampled and BOOT starts. -/
def execPinResetRelease (dt : Nat) (src : Nat) (addr : Nat) (s : State) : Answer :=
  run dt (Dev.pinRelease src addr) s

/-- SOFT (R348): DEV_RESET with SOFT and the key starts a SOFT reset, or sets KEY_ERR. -/
def execSoft (dt : Nat) (master : Nat) (key : Nat) (s : State) : Answer :=
  run dt (Dev.write master rDEV_RESET (2 ^ 31 + key % 0x10000)) s

/-- WARM (R348): DEV_RESET with WARM and the key starts a WARM reset, or sets KEY_ERR. -/
def execWarm (dt : Nat) (master : Nat) (key : Nat) (s : State) : Answer :=
  run dt (Dev.write master rDEV_RESET (2 ^ 30 + key % 0x10000)) s

/-- WDOG_RESET_START (R349): 1 µs after watchdog expiry the WDOG reset pulse starts. -/
def execWdogResetStart (dt : Nat) (s : State) : Answer :=
  run dt (Dev.wdogStart) s

/-- RESET_PULSE_END (R350): A 1.0 µs SOFT, WARM or WDOG pulse ends; WARM and WDOG resume the prior mode, SOFT enters
BOOT. -/
def execResetPulseEnd (dt : Nat) (s : State) : Answer :=
  run dt (Dev.pulseEnd) s

end Sys2Proof.Machine
end

