-- ==== Sys2Proof/Machine/MonitorExec.lean ====
section
/-!
DEFINITION. Internal monitors: the core, the bus, memories, supplies, temperature (01 R27; 11 R281; 13 R344, R390).  One meaning per command.
-/

namespace Sys2Proof.Machine

/-- FOLD_PATH: the check of output `n`'s fold control line fails, or holds again (11 R281, R286). -/
def Dev.foldPath (n : Nat) (onset : Bool) (d : Dev) : Dev :=
  if onset then (d.raise 5 n n).outFoldPath n else (d.lower 5 n).outFoldPathEnd n

/-- The region of an SRAM address, in the order of 01 R27. -/
def sramRegion (a : Nat) : Nat :=
  if a < 0x140000 then 0 else if a < 0x14C000 then 1 else if a < 0x158000 then 2 else if a < 0x160000 then 3
  else if a < 0x170000 then 4 else if a < 0x178000 then 5 else 6

/-- A word of TALLY belongs to a record that ring `r` holds, enabled or not (03 R91, R92, R96). -/
def Dev.holdsAt (d : Dev) (a r : Nat) : Bool :=
  let i := (a - 0x100000) / 16
  let base := d.rd (TQ_CFG_BASE r) * 256
  let size := d.ringSize r
  decide (base ≤ i) && decide (i < base + size) &&
    decide ((i - base + 65536 * size - d.rd (TQ_TAIL_TAIL r)) % size < d.ringCount r)

/-- The ring whose record a word of TALLY belongs to (03 R97): an open one before one that is disabled. -/
def Dev.ringAt (d : Dev) (a : Nat) : Option Nat :=
  match (List.range 16).find? fun r => d.ringOpen r && d.holdsAt a r with
  | some r => some r
  | none => (List.range 16).find? (d.holdsAt a)

/-- The cell in whose active table a word of CALTAB lies (02, From code to timestamp). -/
def tableCell (a : Nat) : Option Nat := if 0x160000 ≤ a ∧ a < 0x16C000 then some ((a - 0x160000) / 0x400) else none

/-- A single-bit SRAM error is corrected and counted; the 17th within a second of UTICK fires SRAM_SEC_RATE (01 R27; 11 R281).
[DEDUCED, log 34] -/
def Dev.sramCorrected (a : Nat) (d : Dev) : Dev :=
  let sec := d.clk.tclk / (usTclk * 1000000)
  let n := if d.meas.secFrom = sec then d.meas.secCount + 1 else 1
  let d := { d with meas := { d.meas with secFrom := sec, secCount := n } }
  d.when (decide (n = 17)) (Dev.fire 58 (sramRegion a))

/-- SRAM_ECC: a double-bit error fires SRAM_ECC with the access, or RING_ECC for a read of a record word (01 R27; 03 R97); in a
read of a cell's active table it sets TABLE_ECC and quarantines the cell (02 R54, R66). -/
def Dev.sramEcc (a m type : Nat) (double : Bool) (d : Dev) : Dev :=
  if a < 0x100000 ∨ 0x180000 ≤ a then d
  else if ¬ double then d.sramCorrected a
  else
    let rec_ := if a < 0x140000 ∧ (type = accRead ∨ type = accLink) then d.ringAt a else none
    match rec_ with
    | some r => (d.evt (TQ_STAT_REC_ECC r)).fireAcc 22 r a (some m) type
    | none =>
      let d := d.fireAcc 3 (sramRegion a) a (some m) type
      match tableCell a with
      | some k => if type = accWrite then d else (d.evt MEAS_STAT_TABLE_ECC).quarantine k 5 true
      | none => d

/-- FOLD_PATH (R286): An output driver fails the continuous check of its fold control line; the outputs fold and the
failing driver goes to high impedance. -/
def execFoldPath (dt : Nat) (out : Nat) (onset : Bool) (s : State) : Answer :=
  run dt (within out 24 (Dev.foldPath out onset)) s

/-- SHEP_EXC (R281): The shepherd core takes an exception, firing SHEP_EXC with its address and type. -/
def execShepExc (dt : Nat) (addr : Nat) (type : Nat) (code : Nat) (s : State) : Answer :=
  run dt (Dev.fireAcc 14 code addr (some 2) type) s

/-- BUS_TIMEOUT (R281): A register-bus target gives no answer within 16 SCLK cycles, firing BUS_TIMEOUT. -/
def execBusTimeout (dt : Nat) (addr : Nat) (master : Nat) (type : Nat) (s : State) : Answer :=
  run dt (Dev.fireAcc 15 0 addr (some master) type) s

/-- REG_PARITY (R281): A parity error is found in a configuration register, live or shadow, firing REG_PARITY with
its address as the detail; it arises from no access (R292). -/
def execRegParity (dt : Nat) (addr : Nat) (s : State) : Answer :=
  run dt (Dev.fire 57 addr) s

/-- SRAM_ECC (R27): An SRAM access finds a single-bit error, which is corrected and counted, or a double-bit error,
which fires SRAM_ECC and is captured. -/
def execSramEcc (dt : Nat) (addr : Nat) (master : Nat) (type : Nat) (double : Bool) (s : State) : Answer :=
  run dt (Dev.sramEcc addr master type double) s

/-- SUPPLY_UNDERVOLTAGE (R344): A monitored rail crosses its monitor threshold, setting or clearing its undervoltage
source and DEV_SUPPLY bit. -/
def execSupplyUndervoltage (dt : Nat) (rail : Nat) (onset : Bool) (s : State) : Answer :=
  run dt (Dev.supply rail onset) s

/-- TEMP_READING (R390): The on-die sensor takes its 1 ms reading; cells are judged due for calibration and the
temperature fault sources are evaluated. -/
def execTempReading (dt : Nat) (temp : Int) (s : State) : Answer :=
  run dt (Dev.tempReading temp) s

/-- WATCHDOG_EXPIRY (R349): The shepherd watchdog has not been kicked for 100 ms and SHEP_WDOG fires. -/
def execWatchdogExpiry (dt : Nat) (s : State) : Answer :=
  run dt (Dev.watchdogExpiry) s

end Sys2Proof.Machine
end

