-- ==== Sys2Proof/Machine/NvmExec.lean ====
section
/-!
DEFINITION. The nonvolatile memory (chapter 12).  One meaning per command.
-/

namespace Sys2Proof.Machine

/-- NVM_CNT_CMD with GO, its argument written first (R322, R326). -/
def Dev.cntCommand (m op id v : Nat) (d : Dev) : Dev :=
  ((d.write m rNVM_CNT_ARG_LO (v % 2 ^ 32)).write m rNVM_CNT_ARG_HI (v / 2 ^ 32 % 2 ^ 32)).write m rNVM_CNT_CMD
    (2 ^ 31 + op * 2 ^ 29 + id % 32)

/-- NVM_UNLOCK_CMD with GO and LOCK 0, its candidate key written first (R330). -/
def Dev.unlockCommand (m region kind key : Nat) (d : Dev) : Dev :=
  ((d.write m rNVM_UNLOCK_LO (key % 2 ^ 32)).write m rNVM_UNLOCK_HI (key / 2 ^ 32 % 2 ^ 32)).write m rNVM_UNLOCK_CMD
    (2 ^ 31 + (kind % 2) * 2 ^ 8 + region % 256)

/-- ERASE_PAGE (R310): NVM_CMD ERASE_PAGE erases one SPARE page, or completes with REGION or KEY. -/
def execErasePage (dt : Nat) (master : Nat) (page : Nat) (s : State) : Answer :=
  run dt (Dev.write master rNVM_CMD (2 ^ 31 + 1 * 2 ^ 28 + page % 512)) s

/-- PROGRAM_PAGE (R310): NVM_CMD PROGRAM_PAGE programs a SPARE page from NVM_BUF. -/
def execProgramPage (dt : Nat) (master : Nat) (page : Nat) (s : State) : Answer :=
  run dt (Dev.write master rNVM_CMD (2 ^ 31 + 2 * 2 ^ 28 + page % 512)) s

/-- ERASE_REGION (R310): NVM_CMD ERASE_REGION erases LOG, HOLD or SPARE page by page. -/
def execEraseRegion (dt : Nat) (master : Nat) (region : Nat) (s : State) : Answer :=
  run dt (Dev.write master rNVM_CMD (2 ^ 31 + 3 * 2 ^ 28 + (region % 16) * 2 ^ 16)) s

/-- NVM_CMD_BAD_OP (R310): NVM_CMD with an unused OP completes with REGION. -/
def execNvmCmdBadOp (dt : Nat) (master : Nat) (op : Nat) (region : Nat) (page : Nat) (s : State) : Answer :=
  run dt (Dev.whenNow (fun _ => decide (op % 8 = 0) || decide (3 < op % 8))
    (Dev.write master rNVM_CMD (2 ^ 31 + (op % 8) * 2 ^ 28 + (region % 16) * 2 ^ 16 + page % 512))) s

/-- NVM_WORK_START (R315): Between operations the controller takes the next work of the highest class and starts its
atomic operation after the supply check. -/
def execNvmWorkStart (dt : Nat) (inRange : Bool) (weak : Nat) (bad : List Nat) (s : State) : Answer :=
  run dt (Dev.nvmWorkStart inRange weak bad) s

/-- NVM_SUPPLY_RETRY (R311): A failed supply check is repeated after 100 µs. -/
def execNvmSupplyRetry (dt : Nat) (inRange : Bool) (s : State) : Answer :=
  run dt (Dev.supplyRetry inRange) s

/-- NVM_SUPPLY_TIMEOUT (R311): The supply check still fails after 100 ms; the operation is refused and NVM_POWER fires.
-/
def execNvmSupplyTimeout (dt : Nat) (s : State) : Answer :=
  run dt (Dev.supplyTimeout) s

/-- NVM_OP_DONE (R312): An atomic operation ends and its groups are verified at margin, failing with PROG_FAIL on
mismatch. -/
def execNvmOpDone (dt : Nat) (ok : Bool) (s : State) : Answer :=
  run dt (Dev.nvmOpDone ok) s

/-- NVM_ECC (R309): An NVM read finds a single-bit error, corrected and counted, or a double-bit error that fires
NVM_ECC. -/
def execNvmEcc (dt : Nat) (addr : Nat) (master : Nat) (type : Nat) (double : Bool) (s : State) : Answer :=
  run dt (Dev.nvmEcc addr master type double) s

/-- PATROL_DUE (R316): A patrol step falls due after PATROL_AGE × 3,600 / 320 seconds. -/
def execPatrolDue (dt : Nat) (s : State) : Answer :=
  run dt (Dev.patrolDue) s

/-- PATROL_OVERDUE (R318): A due step has waited PATROL_DEFER hours and becomes overdue. -/
def execPatrolOverdue (dt : Nat) (s : State) : Answer :=
  run dt (Dev.patrolOverdue) s

/-- INC (R322): NVM_CNT_CMD INC adds an amount to a user counter through a five-group record. -/
def execInc (dt : Nat) (master : Nat) (id : Nat) (amount : Nat) (s : State) : Answer :=
  run dt (Dev.cntCommand master 1 id amount) s

/-- SET (R322): NVM_CNT_CMD SET writes a new value to a user counter through a five-group record. -/
def execSet (dt : Nat) (master : Nat) (id : Nat) (value : Nat) (s : State) : Answer :=
  run dt (Dev.cntCommand master 2 id value) s

/-- NVM_CNT_BAD_OP (R326): NVM_CNT_CMD GO with an OP other than INC or SET completes with code ARG. -/
def execNvmCntBadOp (dt : Nat) (master : Nat) (op : Nat) (id : Nat) (s : State) : Answer :=
  run dt (Dev.whenNow (fun _ => decide (op % 4 = 0) || decide (op % 4 = 3))
    (Dev.write master rNVM_CNT_CMD (2 ^ 31 + (op % 4) * 2 ^ 29 + id % 32))) s

/-- COUNTER_SCAN_DONE (R324): The post-reset counter scan recovers interrupted updates, sets every counter and sets
READY. -/
def execCounterScanDone (dt : Nat) (corr : List Nat) (bad : List Nat) (s : State) : Answer :=
  run dt (Dev.counterScan corr bad) s

/-- POWERED_HOUR (R320): 3,600 s of UTICK outside RESET pass and NVM_CNT_2 is advanced. -/
def execPoweredHour (dt : Nat) (s : State) : Answer :=
  run dt (Dev.poweredHour) s

/-- LOCK_KEY (R330): NVM_UNLOCK_CMD with LOCK 1 closes the named key without comparison. -/
def execLockKey (dt : Nat) (master : Nat) (region : Nat) (kind : Nat) (s : State) : Answer :=
  run dt (Dev.write master rNVM_UNLOCK_CMD (2 ^ 31 + 2 ^ 30 + (kind % 2) * 2 ^ 8 + region % 256)) s

/-- NVM_UNLOCK (R330): NVM_UNLOCK_CMD with GO and LOCK 0 compares the candidate key; it opens the key, or counts a
failure that may start lockout, or is ignored with CMD_REJ. -/
def execNvmUnlock (dt : Nat) (master : Nat) (region : Nat) (kind : Nat) (key : Nat) (s : State) : Answer :=
  run dt (Dev.unlockCommand master region kind key) s

/-- HOLD_BANK_TICK (R327): Every 3,600 s with LEARN active the shepherd core writes the other holdover bank. -/
def execHoldBankTick (dt : Nat) (models : List HoldModel) (s : State) : Answer :=
  run dt (Dev.holdBankTick models) s

end Sys2Proof.Machine
end

