-- ==== Sys2Proof/Machine/PaddockExec.lean ====
section
/-!
DEFINITION. Paddocks (chapter 04).  One meaning per command.
-/

namespace Sys2Proof.Machine

/-- The end of a history second (R126), at which the counted FATAL firings go to their device counter (12 R320). -/
def Dev.historyEdge (d : Dev) : Dev := d.historySecond.flushFatals

/-- PADDOCK_UPDATE (R105): A DPLL or WATCH paddock pairs a reference timestamp with feedback, forms the phase error,
filters it and writes the new word to its actuator. -/
def execPaddockUpdate (dt : Nat) (n : Nat) (s : State) : Answer :=
  run dt (within n 16 (Dev.whenNow Dev.measuring (Dev.afterLoss (Dev.padUpdate n)))) s

/-- UPDATE_GAP_SKIP (R107): At 1.5 P after the last reference timestamp, and at each further P, a skipped update is
counted. -/
def execUpdateGapSkip (dt : Nat) (n : Nat) (s : State) : Answer :=
  run dt (within n 16 (Dev.whenNow Dev.measuring (Dev.padGapSkip n))) s

/-- FEEDBACK_LOSS (R107): Feedback has been absent for more than 3 P and FB_LOSS is set. -/
def execFeedbackLoss (dt : Nat) (n : Nat) (s : State) : Answer :=
  run dt (within n 16 (Dev.whenNow Dev.measuring (Dev.padFbLoss n))) s

/-- TSTEP_CMD (R112): PAD_n_TSTEP_CMD.GO commands a device-time step, rejected or applied at the time keeper's next
update or next TCLK edge. -/
def execTstepCmd (dt : Nat) (master : Nat) (n : Nat) (s : State) : Answer :=
  run dt (within n 16 (Dev.write master (rPAD_TSTEP_CMD n) 1)) s

/-- STEERED_TIMEOUT (R123): No SFO or SPO value is accepted for STEER_TMO seconds and the paddock enters HOLDOVER. -/
def execSteeredTimeout (dt : Nat) (n : Nat) (s : State) : Answer :=
  run dt (within n 16 (Dev.whenNow Dev.applied (Dev.steeredTimeout n))) s

/-- PHASE_SLEW_TICK (R123): While a STEERED paddock makes no updates, it advances the phase slew and so once every P. -/
def execPhaseSlewTick (dt : Nat) (n : Nat) (s : State) : Answer :=
  run dt (within n 16 (Dev.whenNow Dev.applied (Dev.slewTick n))) s

/-- MODEL_STALE (R129): No write of M has been accepted for 4 s with MODEL_EN 1, and MODEL_STALE is set. -/
def execModelStale (dt : Nat) (n : Nat) (s : State) : Answer :=
  run dt (within n 16 (Dev.whenNow Dev.applied (Dev.modelStale n))) s

/-- HISTORY_SECOND (R126): A history second ends; each paddock writes its level-0 entry, forms completed higher-level
entries and recomputes its holdover average. -/
def execHistorySecond (dt : Nat) (s : State) : Answer :=
  run dt (Dev.historyEdge) s

/-- LEARN_MODEL_TICK (R129): Once per second the shepherd core writes the model correction M of each paddock with LEARN
active. -/
def execLearnModelTick (dt : Nat) (ms : List Int) (s : State) : Answer :=
  run dt (Dev.learnTick ms) s

end Sys2Proof.Machine
end

