-- ==== Sys2Proof/Machine/PastureExec.lean ====
section
/-!
DEFINITION. The pasture (chapter 08).  One meaning per command.
-/

namespace Sys2Proof.Machine

/-- MARK_LAUNCH (R215): Device time reaches a multiple of P_M and a MARK is launched on every UP link, followed by a TS
frame. -/
def execMarkLaunch (dt : Nat) (subA : Nat) (subB : Nat) (s : State) : Answer :=
  run dt (Dev.whenNow Dev.running (Dev.markLaunch subA subB)) s

/-- MARK_RX (R215): A neighbour's MARK arrives and its arrival is timestamped. -/
def execMarkRx (dt : Nat) (link : Nat) (mseq : Nat) (sub : Nat) (s : State) : Answer :=
  run dt (within link 2 (Dev.whenNow Dev.running (Dev.markRx link mseq sub))) s

/-- TS_RX (R216): A TS frame arrives; the exchange gives theta and rtt, and a link entry makes its paddock update. -/
def execTsRx (dt : Nat) (link : Nat) (launch : Nat) (mL : Nat) (arrival : Nat) (mA : Nat) (s : State) : Answer :=
  run dt (within link 2 (Dev.whenNow Dev.running (Dev.afterLoss (Dev.tsRx link launch mL arrival mA)))) s

/-- HELLO_RX (R214): A valid HELLO arrives, updating neighbour state and bringing the link UP after three. -/
def execHelloRx (dt : Nat) (link : Nat) (src : Nat) (hello : Hello) (s : State) : Answer :=
  run dt (within link 2 (Dev.whenNow Dev.running (fun d => (d.helloRx link src hello).askSelect none))) s

/-- STROBE_RX (R223): A STROBE frame is accepted, forwarded as needed and scheduled for its named time. -/
def execStrobeRx (dt : Nat) (link : Nat) (src : Nat) (dst : Nat) (hops : Nat) (fseq : Nat) (mask : Nat) (time : Nat) (s : State) : Answer :=
  runJoin false dt (within link 2 (Dev.whenNow Dev.running (Dev.strobeRx link src dst hops fseq mask time))) s

/-- MUSTER_RX (R223): A MUSTER frame is accepted, forwarded as needed and scheduled for its named time. -/
def execMusterRx (dt : Nat) (link : Nat) (src : Nat) (dst : Nat) (hops : Nat) (fseq : Nat) (seq : Nat) (time : Nat) (s : State) : Answer :=
  runJoin false dt (within link 2 (Dev.whenNow Dev.running (Dev.musterRx link src dst hops fseq seq time))) s

/-- NOTICE_RX (R225): A NOTICE is stored in PAST_NOTICE_LAST and fires PAST_NOTICE. -/
def execNoticeRx (dt : Nat) (link : Nat) (src : Nat) (dst : Nat) (hops : Nat) (fseq : Nat) (fsrc : Nat) (sev : Nat) (fold : Bool) (time : Nat) (s : State) : Answer :=
  run dt (within link 2 (Dev.whenNow Dev.running (Dev.noticeRx link src dst hops fseq fsrc sev fold time))) s

/-- RREQ_RX (R226): A remote register request is executed as master 4 or 5, or denied, and answered with an RRSP. -/
def execRreqRx (dt : Nat) (link : Nat) (src : Nat) (dst : Nat) (hops : Nat) (fseq : Nat) (wr : Bool) (tag : Nat) (addr : Nat) (data : Nat) (s : State) : Answer :=
  run dt (within link 2 (Dev.whenNow Dev.running (Dev.rreqRx link src dst hops fseq wr tag addr data))) s

/-- RRSP_RX (R226): An RRSP with the outstanding TAG completes the remote access; one with another TAG is discarded. -/
def execRrspRx (dt : Nat) (link : Nat) (src : Nat) (dst : Nat) (hops : Nat) (fseq : Nat) (status : Nat) (tag : Nat) (data : Nat) (s : State) : Answer :=
  run dt (within link 2 (Dev.whenNow Dev.running (Dev.rrspRx link src dst hops fseq status tag data))) s

/-- FRAME_DISCARD (R212): A link frame with a bad CRC, unused TYPE or code-group error is discarded and counted. -/
def execFrameDiscard (dt : Nat) (link : Nat) (s : State) : Answer :=
  run dt (within link 2 (Dev.whenNow Dev.running (Dev.discard link))) s

/-- LINK_SYNC_GAIN (R214): A receive lane gains code-group sync after three commas. -/
def execLinkSyncGain (dt : Nat) (link : Nat) (s : State) : Answer :=
  run dt (within link 2 (Dev.syncGain link)) s

/-- LINK_SYNC_LOSS (R214): A receive lane loses sync or signal and the link goes DOWN with PLINK_DOWN. -/
def execLinkSyncLoss (dt : Nat) (link : Nat) (s : State) : Answer :=
  run dt (within link 2 (Dev.whenNow Dev.running (Dev.syncLoss link))) s

/-- HELLO_TIMEOUT (R214): No valid HELLO has arrived for HELLO_TMO times HELLO_PER and the link goes DOWN. -/
def execHelloTimeout (dt : Nat) (link : Nat) (s : State) : Answer :=
  run dt (within link 2 (Dev.whenNow Dev.running (Dev.linkDown link))) s

/-- HELLO_PERIOD (R220): At each HELLO period the device sends HELLO and evaluates the bellwether election. -/
def execHelloPeriod (dt : Nat) (s : State) : Answer :=
  run dt (Dev.helloPeriod) s

/-- RACC_READ (R226): PAST_RACC_CTL GO with WR 0 sends a remote read request, or completes with NOT_BW or BUSY. -/
def execRaccRead (dt : Nat) (master : Nat) (dst : Nat) (s : State) : Answer :=
  run dt (Dev.write master rPAST_RACC_CTL (2 ^ 31 + (dst % 8) * 2 ^ 16)) s

/-- RACC_WRITE (R226): PAST_RACC_CTL GO with WR 1 sends a remote write request, or completes with NOT_BW or BUSY. -/
def execRaccWrite (dt : Nat) (master : Nat) (dst : Nat) (s : State) : Answer :=
  run dt (Dev.write master rPAST_RACC_CTL (2 ^ 31 + 2 ^ 30 + (dst % 8) * 2 ^ 16)) s

/-- RACC_TIMEOUT (R226): No RRSP arrives within RACC_TMO and the remote access completes with TIMEOUT. -/
def execRaccTimeout (dt : Nat) (s : State) : Answer :=
  run dt (Dev.raccTimeout) s

/-- PAST_STROBE_APPLY (R223): Device time reaches a strobe's named time and the masked groups apply. -/
def execPastStrobeApply (dt : Nat) (s : State) : Answer :=
  runJoin false dt (Dev.whenNow Dev.applied Dev.strobesDue) s

/-- PAST_MUSTER_APPLY (R223): Device time reaches a muster's named time and the muster is taken. -/
def execPastMusterApply (dt : Nat) (s : State) : Answer :=
  runJoin false dt (Dev.whenNow Dev.applied Dev.mustersDue) s

end Sys2Proof.Machine
end

