-- ==== Sys2Proof/Machine/ReferenceExec.lean ====
section
/-!
DEFINITION. References and selection (chapter 05).  One meaning per command.
-/

namespace Sys2Proof.Machine

/-- FM_WINDOW_END of monitor `n` (05 R139, R154, R157): selection sees a new FOFF result. -/
def Dev.windowEnd (n : Nat) (d : Dev) : Dev :=
  let r := d.fmWindowEnd n
  r.1.when (r.2 && decide (n < 12)) (Dev.askSelect (some n))

/-- REF_ACTIVITY_LOSS (R138): No undecimated edge arrives on a reference for the activity limit and cause ACTIVITY sets.
-/
def execRefActivityLoss (dt : Nat) (n : Nat) (s : State) : Answer :=
  run dt (within n 13 (Dev.whenNow Dev.measuring (Dev.refLoss n))) s

/-- REF_ACTIVITY_RESTORE (R138): Edges have arrived without such a gap for the same length of time and cause ACTIVITY
clears. -/
def execRefActivityRestore (dt : Nat) (n : Nat) (s : State) : Answer :=
  run dt (within n 13 (Dev.whenNow Dev.measuring (Dev.refRestore n))) s

/-- FM_WINDOW_END (R139): A frequency-monitor window ends, giving FOFF, which drives the hurdles, the stray dwell, INIT,
PJUMP clearing and the vote. -/
def execFmWindowEnd (dt : Nat) (n : Nat) (s : State) : Answer :=
  run dt (within n 13 (Dev.whenNow Dev.measuring (Dev.windowEnd n))) s

/-- OCXO_QUAL_TIMEOUT (R150): A declared OCXOIN has not become PRESENT 5 s after the image applied and OCXO_ABSENT
fires. -/
def execOcxoQualTimeout (dt : Nat) (s : State) : Answer :=
  run dt (Dev.ocxoTimeout) s

/-- SPACING_CLEAR (R141): One second passes with no spacing violation and cause SPACING clears. -/
def execSpacingClear (dt : Nat) (n : Nat) (s : State) : Answer :=
  run dt (within n 12 (Dev.whenNow Dev.measuring (Dev.refSpacingClear n))) s

/-- WTR_EXPIRY (R144): A monitor's wait-to-restore expires and it returns to QUAL or STRAY once a qualifying FM result
exists. -/
def execWtrExpiry (dt : Nat) (n : Nat) (s : State) : Answer :=
  run dt (within n 12 (Dev.whenNow Dev.measuring (Dev.refWtrEnd n))) s

/-- WTR_CLR (R144): REF_n_CMD.WTR_CLR ends the wait-to-restore now, subject to the FM condition. -/
def execWtrClr (dt : Nat) (master : Nat) (n : Nat) (s : State) : Answer :=
  run dt (within n 12 (Dev.write master (rREF_CMD n) 1)) s

/-- CAND_NO_EDGE (R153): A candidate channel without a REF monitor, such as a pasture link or edge-generator channel,
forwards no edge for 3 P and counts as DISQ, so selection is evaluated again. -/
def execCandNoEdge (dt : Nat) (ch : Nat) (s : State) : Answer :=
  run dt (within ch 64 (Dev.candNoEdge ch)) s

end Sys2Proof.Machine
end

