-- ==== Sys2Proof/Machine/SteerExec.lean ====
section
/-!
DEFINITION. Carrier-grid lock: beat notes and steering ports (chapter 07).  One meaning per command.
-/

namespace Sys2Proof.Machine

/-- A cause of a beat monitor sets or clears (07 R196). -/
def Dev.beatCause (b c : Nat) (on : Bool) (d : Dev) : Dev := if on then d.beatSet b c else d.beatClear b c

/-- STEER_GATE_UPDATE (R197): A STEER paddock times one beat gate, computes frequency and error against TEFF, runs PI2,
and its port advances A. -/
def execSteerGateUpdate (dt : Nat) (bn : Nat) (s : State) : Answer :=
  run dt (within bn 8 (Dev.whenNow Dev.measuring (Dev.afterLoss (Dev.steerGate bn)))) s

/-- BN_NO_EDGE (R196): A beat channel forwards no edge for 3 P and cause NO_EDGE sets. -/
def execBnNoEdge (dt : Nat) (b : Nat) (s : State) : Answer :=
  run dt (within b 8 (Dev.whenNow Dev.measuring (Dev.beatCause b 0 true))) s

/-- BN_LOS (R196): A beat input's amplitude falls below the loss-of-signal threshold and cause LOS sets within 1 µs. -/
def execBnLos (dt : Nat) (b : Nat) (s : State) : Answer :=
  run dt (within b 8 (Dev.whenNow Dev.measuring (Dev.beatCause b 1 true))) s

/-- BN_LOS_CLEAR (R196): The beat amplitude has stayed above threshold for 1 ms and cause LOS clears. -/
def execBnLosClear (dt : Nat) (b : Nat) (s : State) : Answer :=
  run dt (within b 8 (Dev.whenNow Dev.measuring (Dev.beatCause b 1 false))) s

/-- STEER_ACC_TICK (R201): In HOLDOVER or FREERUN the steering port advances A once every t_u. -/
def execSteerAccTick (dt : Nat) (k : Nat) (s : State) : Answer :=
  run dt (within k 8 (Dev.whenNow Dev.applied (Dev.accTick k))) s

/-- A frame starts once everything of its edge is known: a trigger of the edge is taken and the word is not sent (07 R206).
[DESIGN CHOICE, log 19] -/
def Dev.frameLast (k : Nat) (d : Dev) : Dev :=
  let e := d.settleSelect
  let f := e.portFrameStart k
  if e.flag (STEER_STAT_BUSY k) = f.flag (STEER_STAT_BUSY k) then f else f.closeEdge

/-- STEER_FRAME_START (R205): A frame reason holds and the spacing allows it, so the port starts a frame carrying the
present word. -/
def execSteerFrameStart (dt : Nat) (k : Nat) (s : State) : Answer :=
  run dt (within k 8 (Dev.whenNow Dev.applied (Dev.frameLast k))) s

/-- STEER_FRAME_END (R204): A steering frame completes as ST_CS_N_k rises. -/
def execSteerFrameEnd (dt : Nat) (k : Nat) (s : State) : Answer :=
  run dt (within k 8 (Dev.portFrameEnd k)) s

/-- STEER_REFRESH (R205): REFRESH ms pass since the last frame, giving a reason to send. -/
def execSteerRefresh (dt : Nat) (k : Nat) (s : State) : Answer :=
  run dt (within k 8 (Dev.portRefresh k)) s

/-- SEND (R205): STEER_k_CMD.SEND commands a frame. -/
def execSend (dt : Nat) (master : Nat) (k : Nat) (s : State) : Answer :=
  run dt (within k 8 (Dev.write master (rSTEER_CMD k) 2)) s

/-- RESUME (R207): STEER_k_CMD.RESUME leaves FAULTED and resets A from the last word, or is rejected with CMD_REJ. -/
def execResume (dt : Nat) (master : Nat) (k : Nat) (s : State) : Answer :=
  run dt (within k 8 (Dev.write master (rSTEER_CMD k) 1)) s

/-- STEER_HOLD_TIMEOUT (R206): The paddock has been in HOLDOVER for HOLD_TMO and, with FT_HOLDTMO, the port enters
FAULTED. -/
def execSteerHoldTimeout (dt : Nat) (k : Nat) (s : State) : Answer :=
  run dt (within k 8 (Dev.portHoldTimeout k)) s

/-- STEER_CLAMP_TIMEOUT (R206): CLAMP_LIM has been set for CLAMP_TMO and, with FT_CLAMP, the port enters FAULTED. -/
def execSteerClampTimeout (dt : Nat) (k : Nat) (s : State) : Answer :=
  run dt (within k 8 (Dev.portClampTimeout k)) s

end Sys2Proof.Machine
end

