-- ==== Sys2Proof/Machine/Dispatch.lean ====
section
/-!
DEFINITION. Each command and its meaning: one arm per row of the table of operations and events.
-/

namespace Sys2Proof.Machine

/-- The effect of a command on everything but the queue. -/
def exec (i : Instr) (s : State) : Host.Outcome State Fault Refusal :=
  match i with
  | .xoinCountDone dt count => Sys2Proof.Machine.execXoinCountDone dt count s
  | .xoinRecount dt count => Sys2Proof.Machine.execXoinRecount dt count s
  | .sysPllLock dt fuses found => Sys2Proof.Machine.execSysPllLock dt fuses found s
  | .sysPllLol dt => Sys2Proof.Machine.execSysPllLol dt s
  | .complementMismatch dt site onset => Sys2Proof.Machine.execComplementMismatch dt site onset s
  | .clkMon dt clock onset => Sys2Proof.Machine.execClkMon dt clock onset s
  | .foldPath dt out onset => Sys2Proof.Machine.execFoldPath dt out onset s
  | .shepExc dt addr type code => Sys2Proof.Machine.execShepExc dt addr type code s
  | .busTimeout dt addr master type => Sys2Proof.Machine.execBusTimeout dt addr master type s
  | .regParity dt addr => Sys2Proof.Machine.execRegParity dt addr s
  | .sramEcc dt addr master type double => Sys2Proof.Machine.execSramEcc dt addr master type double s
  | .supplyUndervoltage dt rail onset => Sys2Proof.Machine.execSupplyUndervoltage dt rail onset s
  | .tempReading dt temp => Sys2Proof.Machine.execTempReading dt temp s
  | .channelEdge dt ch sub => Sys2Proof.Machine.execChannelEdge dt ch sub s
  | .edgeGenWrap dt n sub => Sys2Proof.Machine.execEdgeGenWrap dt n sub s
  | .conversionDone dt cell code redOk rstOk tableEcc slotEcc => Sys2Proof.Machine.execConversionDone dt cell code redOk rstOk tableEcc slotEcc s
  | .intervalTimeout dt slot slotEcc => Sys2Proof.Machine.execIntervalTimeout dt slot slotEcc s
  | .intervalEarlyMatch dt slot slotEcc => Sys2Proof.Machine.execIntervalEarlyMatch dt slot slotEcc s
  | .freqGateTimeout dt slot slotEcc => Sys2Proof.Machine.execFreqGateTimeout dt slot slotEcc s
  | .poolAllocate dt => Sys2Proof.Machine.execPoolAllocate dt s
  | .pilotDue dt cell => Sys2Proof.Machine.execPilotDue dt cell s
  | .pilotWaitExpiry dt cell => Sys2Proof.Machine.execPilotWaitExpiry dt cell s
  | .handoverSlow dt => Sys2Proof.Machine.execHandoverSlow dt s
  | .calDeferExpiry dt cell => Sys2Proof.Machine.execCalDeferExpiry dt cell s
  | .calIdleExpiry dt => Sys2Proof.Machine.execCalIdleExpiry dt s
  | .calRunDone dt hits pilots => Sys2Proof.Machine.execCalRunDone dt hits pilots s
  | .bootCalDone dt hits pilots => Sys2Proof.Machine.execBootCalDone dt hits pilots s
  | .quarPilotsDone dt cell fails => Sys2Proof.Machine.execQuarPilotsDone dt cell fails s
  | .retest dt master cell => Sys2Proof.Machine.execRetest dt master cell s
  | .retestDone dt fails => Sys2Proof.Machine.execRetestDone dt fails s
  | .devTimeSecLoRead dt master => Sys2Proof.Machine.execDevTimeSecLoRead dt master s
  | .loHalfRead dt master addr => Sys2Proof.Machine.execLoHalfRead dt master addr s
  | .timeIntervalPush dt push => Sys2Proof.Machine.execTimeIntervalPush dt push s
  | .frequencyPush dt push => Sys2Proof.Machine.execFrequencyPush dt push s
  | .timestampStreamPush dt push => Sys2Proof.Machine.execTimestampStreamPush dt push s
  | .periodStatisticsPush dt push => Sys2Proof.Machine.execPeriodStatisticsPush dt push s
  | .markerPush dt push => Sys2Proof.Machine.execMarkerPush dt push s
  | .ringFlushPush dt push => Sys2Proof.Machine.execRingFlushPush dt push s
  | .unusedKindPush dt master => Sys2Proof.Machine.execUnusedKindPush dt master s
  | .abortSlot dt master slot => Sys2Proof.Machine.execAbortSlot dt master slot s
  | .abortRing dt master ring => Sys2Proof.Machine.execAbortRing dt master ring s
  | .abortAll dt master => Sys2Proof.Machine.execAbortAll dt master s
  | .abortNone dt master => Sys2Proof.Machine.execAbortNone dt master s
  | .ringRecordWrite dt ring slotEcc => Sys2Proof.Machine.execRingRecordWrite dt ring slotEcc s
  | .epochSec17 dt => Sys2Proof.Machine.execEpochSec17 dt s
  | .epochRequest dt master ring => Sys2Proof.Machine.execEpochRequest dt master ring s
  | .ringDisableDone dt ring => Sys2Proof.Machine.execRingDisableDone dt ring s
  | .tailWrite dt master ring tail => Sys2Proof.Machine.execTailWrite dt master ring tail s
  | .tpFrameTimeout dt ring => Sys2Proof.Machine.execTpFrameTimeout dt ring s
  | .tpFrameSend dt lane damagedAt => Sys2Proof.Machine.execTpFrameSend dt lane damagedAt s
  | .tpAckRx dt ring seq crc => Sys2Proof.Machine.execTpAckRx dt ring seq crc s
  | .tpNakRx dt ring seq crc => Sys2Proof.Machine.execTpNakRx dt ring seq crc s
  | .tpReplayTimeout dt ring => Sys2Proof.Machine.execTpReplayTimeout dt ring s
  | .tpLaneFault dt lane => Sys2Proof.Machine.execTpLaneFault dt lane s
  | .tpRxLockTimeout dt => Sys2Proof.Machine.execTpRxLockTimeout dt s
  | .paddockUpdate dt n => Sys2Proof.Machine.execPaddockUpdate dt n s
  | .steerGateUpdate dt bn => Sys2Proof.Machine.execSteerGateUpdate dt bn s
  | .updateGapSkip dt n => Sys2Proof.Machine.execUpdateGapSkip dt n s
  | .feedbackLoss dt n => Sys2Proof.Machine.execFeedbackLoss dt n s
  | .tstepCmd dt master n => Sys2Proof.Machine.execTstepCmd dt master n s
  | .steeredTimeout dt n => Sys2Proof.Machine.execSteeredTimeout dt n s
  | .phaseSlewTick dt n => Sys2Proof.Machine.execPhaseSlewTick dt n s
  | .modelStale dt n => Sys2Proof.Machine.execModelStale dt n s
  | .historySecond dt => Sys2Proof.Machine.execHistorySecond dt s
  | .learnModelTick dt ms => Sys2Proof.Machine.execLearnModelTick dt ms s
  | .refActivityLoss dt n => Sys2Proof.Machine.execRefActivityLoss dt n s
  | .refActivityRestore dt n => Sys2Proof.Machine.execRefActivityRestore dt n s
  | .fmWindowEnd dt n => Sys2Proof.Machine.execFmWindowEnd dt n s
  | .ocxoQualTimeout dt => Sys2Proof.Machine.execOcxoQualTimeout dt s
  | .spacingClear dt n => Sys2Proof.Machine.execSpacingClear dt n s
  | .plugPull dt k => Sys2Proof.Machine.execPlugPull dt k s
  | .plugSettle dt k => Sys2Proof.Machine.execPlugSettle dt k s
  | .wtrExpiry dt n => Sys2Proof.Machine.execWtrExpiry dt n s
  | .wtrClr dt master n => Sys2Proof.Machine.execWtrClr dt master n s
  | .pbPress dt k => Sys2Proof.Machine.execPbPress dt k s
  | .pbRelease dt k => Sys2Proof.Machine.execPbRelease dt k s
  | .pbStuck dt k => Sys2Proof.Machine.execPbStuck dt k s
  | .ledOpen dt k onset => Sys2Proof.Machine.execLedOpen dt k onset s
  | .sensRead dt raw => Sys2Proof.Machine.execSensRead dt raw s
  | .recal dt master k => Sys2Proof.Machine.execRecal dt master k s
  | .apllCalDone dt k ok band => Sys2Proof.Machine.execApllCalDone dt k ok band s
  | .apllLol dt k => Sys2Proof.Machine.execApllLol dt k s
  | .apllPowerDown dt k => Sys2Proof.Machine.execApllPowerDown dt k s
  | .psynPulse dt j => Sys2Proof.Machine.execPsynPulse dt j s
  | .outputStopDone dt n high => Sys2Proof.Machine.execOutputStopDone dt n high s
  | .outputStart dt n => Sys2Proof.Machine.execOutputStart dt n s
  | .drvFault dt n => Sys2Proof.Machine.execDrvFault dt n s
  | .outTapLoss dt n onset => Sys2Proof.Machine.execOutTapLoss dt n onset s
  | .outTeeWrite dt master en src dest => Sys2Proof.Machine.execOutTeeWrite dt master en src dest s
  | .bnNoEdge dt b => Sys2Proof.Machine.execBnNoEdge dt b s
  | .bnLos dt b => Sys2Proof.Machine.execBnLos dt b s
  | .bnLosClear dt b => Sys2Proof.Machine.execBnLosClear dt b s
  | .steerAccTick dt k => Sys2Proof.Machine.execSteerAccTick dt k s
  | .steerFrameStart dt k => Sys2Proof.Machine.execSteerFrameStart dt k s
  | .steerFrameEnd dt k => Sys2Proof.Machine.execSteerFrameEnd dt k s
  | .steerRefresh dt k => Sys2Proof.Machine.execSteerRefresh dt k s
  | .send dt master k => Sys2Proof.Machine.execSend dt master k s
  | .resume dt master k => Sys2Proof.Machine.execResume dt master k s
  | .steerHoldTimeout dt k => Sys2Proof.Machine.execSteerHoldTimeout dt k s
  | .steerClampTimeout dt k => Sys2Proof.Machine.execSteerClampTimeout dt k s
  | .markLaunch dt subA subB => Sys2Proof.Machine.execMarkLaunch dt subA subB s
  | .markRx dt link mseq sub => Sys2Proof.Machine.execMarkRx dt link mseq sub s
  | .tsRx dt link launch mL arrival mA => Sys2Proof.Machine.execTsRx dt link launch mL arrival mA s
  | .helloRx dt link src hello => Sys2Proof.Machine.execHelloRx dt link src hello s
  | .strobeRx dt link src dst hops fseq mask time => Sys2Proof.Machine.execStrobeRx dt link src dst hops fseq mask time s
  | .musterRx dt link src dst hops fseq seq time => Sys2Proof.Machine.execMusterRx dt link src dst hops fseq seq time s
  | .noticeRx dt link src dst hops fseq fsrc sev fold time => Sys2Proof.Machine.execNoticeRx dt link src dst hops fseq fsrc sev fold time s
  | .rreqRx dt link src dst hops fseq wr tag addr data => Sys2Proof.Machine.execRreqRx dt link src dst hops fseq wr tag addr data s
  | .rrspRx dt link src dst hops fseq status tag data => Sys2Proof.Machine.execRrspRx dt link src dst hops fseq status tag data s
  | .frameDiscard dt link => Sys2Proof.Machine.execFrameDiscard dt link s
  | .linkSyncGain dt link => Sys2Proof.Machine.execLinkSyncGain dt link s
  | .linkSyncLoss dt link => Sys2Proof.Machine.execLinkSyncLoss dt link s
  | .helloTimeout dt link => Sys2Proof.Machine.execHelloTimeout dt link s
  | .helloPeriod dt => Sys2Proof.Machine.execHelloPeriod dt s
  | .raccRead dt master dst => Sys2Proof.Machine.execRaccRead dt master dst s
  | .raccWrite dt master dst => Sys2Proof.Machine.execRaccWrite dt master dst s
  | .raccTimeout dt => Sys2Proof.Machine.execRaccTimeout dt s
  | .pastStrobeApply dt => Sys2Proof.Machine.execPastStrobeApply dt s
  | .pastMusterApply dt => Sys2Proof.Machine.execPastMusterApply dt s
  | .slotScanDone dt corrA corrB badA badB => Sys2Proof.Machine.execSlotScanDone dt corrA corrB badA badB s
  | .streamVerifyDone dt corr bad => Sys2Proof.Machine.execStreamVerifyDone dt corr bad s
  | .bootLoadDone dt badDump => Sys2Proof.Machine.execBootLoadDone dt badDump s
  | .imageApply dt => Sys2Proof.Machine.execImageApply dt s
  | .imgRewriteRetry dt => Sys2Proof.Machine.execImgRewriteRetry dt s
  | .spiWrite dt addr words left => Sys2Proof.Machine.execSpiWrite dt addr words left s
  | .spiRead dt addr words => Sys2Proof.Machine.execSpiRead dt addr words s
  | .spiWriteCrc dt addr words extra crc => Sys2Proof.Machine.execSpiWriteCrc dt addr words extra crc s
  | .spiReadCrc dt addr words => Sys2Proof.Machine.execSpiReadCrc dt addr words s
  | .spiUnknownCmd dt cmd => Sys2Proof.Machine.execSpiUnknownCmd dt cmd s
  | .spiStallTimeout dt part addr words => Sys2Proof.Machine.execSpiStallTimeout dt part addr words s
  | .i2cWrite dt start words left => Sys2Proof.Machine.execI2cWrite dt start words left s
  | .i2cRead dt start n => Sys2Proof.Machine.execI2cRead dt start n s
  | .i2cStallTimeout dt target xfer => Sys2Proof.Machine.execI2cStallTimeout dt target xfer s
  | .registerWrite dt master addr data => Sys2Proof.Machine.execRegisterWrite dt master addr data s
  | .cplHalfWrite dt master addr data => Sys2Proof.Machine.execCplHalfWrite dt master addr data s
  | .sqcClearWrite dt master addr data => Sys2Proof.Machine.execSqcClearWrite dt master addr data s
  | .updateStrobeWrite dt master groups => Sys2Proof.Machine.execUpdateStrobeWrite dt master groups s
  | .gpioStrobeEdge dt pin falling => Sys2Proof.Machine.execGpioStrobeEdge dt pin falling s
  | .musterDevice dt master => Sys2Proof.Machine.execMusterDevice dt master s
  | .musterPasture dt master => Sys2Proof.Machine.execMusterPasture dt master s
  | .crookLock dt master => Sys2Proof.Machine.execCrookLock dt master s
  | .info dt master tag => Sys2Proof.Machine.execInfo dt master tag s
  | .align dt master tag => Sys2Proof.Machine.execAlign dt master tag s
  | .learn dt master tag => Sys2Proof.Machine.execLearn dt master tag s
  | .dump dt master tag => Sys2Proof.Machine.execDump dt master tag s
  | .imgCommit dt master req => Sys2Proof.Machine.execImgCommit dt master req s
  | .keyChange dt master tag => Sys2Proof.Machine.execKeyChange dt master tag s
  | .selftest dt master tag => Sys2Proof.Machine.execSelftest dt master tag s
  | .unknownService dt master service tag => Sys2Proof.Machine.execUnknownService dt master service tag s
  | .mbxAbort dt master => Sys2Proof.Machine.execMbxAbort dt master s
  | .mbxServiceDone dt found => Sys2Proof.Machine.execMbxServiceDone dt found s
  | .mbxTimeout dt => Sys2Proof.Machine.execMbxTimeout dt s
  | .faultInject dt master src sim => Sys2Proof.Machine.execFaultInject dt master src sim s
  | .userFire dt master mask => Sys2Proof.Machine.execUserFire dt master mask s
  | .capRel dt master seq => Sys2Proof.Machine.execCapRel dt master seq s
  | .fnRel dt master => Sys2Proof.Machine.execFnRel dt master s
  | .dumpRel dt master => Sys2Proof.Machine.execDumpRel dt master s
  | .nvmDumpRel dt master => Sys2Proof.Machine.execNvmDumpRel dt master s
  | .escalationExpiry dt => Sys2Proof.Machine.execEscalationExpiry dt s
  | .quietExpiry dt => Sys2Proof.Machine.execQuietExpiry dt s
  | .faultNWidthEnd dt => Sys2Proof.Machine.execFaultNWidthEnd dt s
  | .dumpSramDone dt core => Sys2Proof.Machine.execDumpSramDone dt core s
  | .dumpTimeout dt => Sys2Proof.Machine.execDumpTimeout dt s
  | .logEntry dt => Sys2Proof.Machine.execLogEntry dt s
  | .erasePage dt master page => Sys2Proof.Machine.execErasePage dt master page s
  | .programPage dt master page => Sys2Proof.Machine.execProgramPage dt master page s
  | .eraseRegion dt master region => Sys2Proof.Machine.execEraseRegion dt master region s
  | .nvmCmdBadOp dt master op region page => Sys2Proof.Machine.execNvmCmdBadOp dt master op region page s
  | .nvmWorkStart dt inRange weak bad => Sys2Proof.Machine.execNvmWorkStart dt inRange weak bad s
  | .nvmSupplyRetry dt inRange => Sys2Proof.Machine.execNvmSupplyRetry dt inRange s
  | .nvmSupplyTimeout dt => Sys2Proof.Machine.execNvmSupplyTimeout dt s
  | .nvmOpDone dt ok => Sys2Proof.Machine.execNvmOpDone dt ok s
  | .nvmEcc dt addr master type double => Sys2Proof.Machine.execNvmEcc dt addr master type double s
  | .patrolDue dt => Sys2Proof.Machine.execPatrolDue dt s
  | .patrolOverdue dt => Sys2Proof.Machine.execPatrolOverdue dt s
  | .inc dt master id amount => Sys2Proof.Machine.execInc dt master id amount s
  | .set dt master id value => Sys2Proof.Machine.execSet dt master id value s
  | .counterScanDone dt corr bad => Sys2Proof.Machine.execCounterScanDone dt corr bad s
  | .poweredHour dt => Sys2Proof.Machine.execPoweredHour dt s
  | .lockKey dt master region kind => Sys2Proof.Machine.execLockKey dt master region kind s
  | .holdBankTick dt models => Sys2Proof.Machine.execHoldBankTick dt models s
  | .checkScheduleTick dt => Sys2Proof.Machine.execCheckScheduleTick dt s
  | .go dt master u => Sys2Proof.Machine.execGo dt master u s
  | .abort dt master u => Sys2Proof.Machine.execAbort dt master u s
  | .chkJobDone dt u ecc => Sys2Proof.Machine.execChkJobDone dt u ecc s
  | .modeReqRun dt master => Sys2Proof.Machine.execModeReqRun dt master s
  | .modeReqService dt master => Sys2Proof.Machine.execModeReqService dt master s
  | .modeReqSleep dt master => Sys2Proof.Machine.execModeReqSleep dt master s
  | .modeReqInvalid dt master req => Sys2Proof.Machine.execModeReqInvalid dt master req s
  | .porAssert dt => Sys2Proof.Machine.execPorAssert dt s
  | .porRelease dt src addr resetLow => Sys2Proof.Machine.execPorRelease dt src addr resetLow s
  | .pinReset dt => Sys2Proof.Machine.execPinReset dt s
  | .pinResetRelease dt src addr => Sys2Proof.Machine.execPinResetRelease dt src addr s
  | .soft dt master key => Sys2Proof.Machine.execSoft dt master key s
  | .warm dt master key => Sys2Proof.Machine.execWarm dt master key s
  | .watchdogExpiry dt => Sys2Proof.Machine.execWatchdogExpiry dt s
  | .wdogResetStart dt => Sys2Proof.Machine.execWdogResetStart dt s
  | .resetPulseEnd dt => Sys2Proof.Machine.execResetPulseEnd dt s
  | .extest dt => Sys2Proof.Machine.execExtest dt s
  | .samplePreload dt => Sys2Proof.Machine.execSamplePreload dt s
  | .idcode dt => Sys2Proof.Machine.execIdcode dt s
  | .bypass dt => Sys2Proof.Machine.execBypass dt s
  | .regacc dt access addr data => Sys2Proof.Machine.execRegacc dt access addr data s
  | .jtagActive dt => Sys2Proof.Machine.execJtagActive dt s
  | .tpRxLockLoss dt => Sys2Proof.Machine.execTpRxLockLoss dt s
  | .tpRxLockGain dt => Sys2Proof.Machine.execTpRxLockGain dt s
  | .apllRelock dt k => Sys2Proof.Machine.execApllRelock dt k s
  | .sysPllRelock dt => Sys2Proof.Machine.execSysPllRelock dt s
  | .nvmUnlock dt master region kind key => Sys2Proof.Machine.execNvmUnlock dt master region kind key s
  | .nvmCntBadOp dt master op id => Sys2Proof.Machine.execNvmCntBadOp dt master op id s
  | .plugInsert dt k => Sys2Proof.Machine.execPlugInsert dt k s
  | .testLogicReset dt => Sys2Proof.Machine.execTestLogicReset dt s
  | .candNoEdge dt ch => Sys2Proof.Machine.execCandNoEdge dt ch s

end Sys2Proof.Machine
end

