-- ==== Sys2Proof/Safety.lean ====
section
/-!
DEFINITION. What claims are stated in: commands that complete, a device whose edge is settled, a device with no fold and no
dump copy outstanding, and memories in their canonical form.
-/

namespace Sys2Proof.Machine

/-- Some latched source has severity FATAL (11 R289). -/
def Dev.fatalLatched (d : Dev) : Bool := d.anyLatched fun k => decide (d.sev k = sevFatal)

/-- Some latched source has reaction ESCALATE (11 R285). -/
def Dev.escLatched (d : Dev) : Bool := d.anyLatched fun k => decide (d.reaction (d.sev k) = 1)

/-- What the collector has settled when a command is over: no fold waits but one that the edge of the image's application has
left to the next LCLK edge (11 R287), FATAL_HELD and the escalation timer have a latched
source that holds them (11 R285, R289), an injection is active only while its source is latched (11 R295), FOLD_REQ stands
only while a condition of R289 holds it, FAULT_N agrees with its condition (11 R290, R351), and a device of a pasture shows
its eligibility (08 R220). -/
structure Dev.Settled (d : Dev) : Prop where
  noFold : d.flt.foldPend = true → d.flt.foldNext = true
  fatal : d.flag FLT_STAT_FATAL_HELD = true → d.fatalLatched = true
  esc : d.flag FLT_STAT_ESC_RUN = true → d.escLatched = true
  inj : d.flag FLT_INJ_STAT_ACTIVE = true → d.latched (d.rd FLT_INJ_STAT_SRC) = true
  req : d.flag FLT_STAT_FOLD_REQ = true → d.foldMayEnd = false
  fnOff : d.applied = false → d.flag FLT_STAT_FN = false
  fnOn : d.applied = true → d.fnCond = true → d.flag FLT_STAT_FN = true
  fnHeld : d.applied = true → d.fnCond = false → d.flag FLT_STAT_FN = true →
    d.flt.fnWidthDone = false ∨ d.flag FLT_CFG_FN_LATCH = true
  elig : d.flag PAST_CFG_USED = true → d.flag PAST_STAT_ELIG = d.eligNow

/-- No fold is outstanding and no dump is being copied to NVM, so that settling the edge touches only the collector's own
status. -/
structure Dev.Calm (d : Dev) : Prop where
  noFold : d.flt.foldPend = false
  noCopy : d.flt.dumpCopy = none

/-- The memories are in their canonical form, within their address ranges (01 R26, R27, R29): SRAM also as a reset of the same edge
would find it. -/
structure Dev.MemOk (d : Dev) : Prop where
  sram : ByteMem.wf 0 0x100000 0x180000 d.sram = true
  nvm : ByteMem.wf 0xFF 0x200000 0x228000 d.nvm = true
  undo : ∀ u, d.undo = some u → ByteMem.wf 0 0x100000 0x180000 u.sram = true

/-- Both words of a group of the host's page buffer are all ones: a program of the page does not name it (12 R310). -/
def Dev.bufOnes (d : Dev) (g : Nat) : Bool :=
  decide (d.rd (NVM_BUF_DATA (2 * g)) + 0x100000000 * d.rd (NVM_BUF_DATA (2 * g + 1)) = erasedGroup)

/-- No queued job's body is known to hold a double-bit error (03 R81). -/
def Dev.bodiesGood (d : Dev) : Bool := d.jobs.slots.all fun o => !o.any Job.bad

/-- A command completes: `exec` answers a next state with the queue as it was; and `P` holds of the device in it, where the edge
before it has left nothing to be settled on the way (`Dev.lag`). -/
def Completes (c : Instr) (s : State) (P : Dev → Prop) : Prop :=
  ∃ t, exec c s = .next t ∧ t.pending = s.pending ∧ (s.dev.lag = false → P t.dev)

/-- A command completes with the effect that `P` describes: `exec` answers a next state whose device is `e` with its edge
settled (`Dev.finish`), and `P` holds of `e`, the device at the edge on which the command acts, where the edge before it has left
nothing to be settled on the way.  Used where the effect fires
a source, whose reaction may fold the device as the edge settles. -/
def Effects (c : Instr) (s : State) (P : Dev → Prop) : Prop :=
  ∃ e, exec c s = .next { s with dev := e.finish } ∧ (s.dev.lag = false → P e)

/-- A write of master `m` at `a` is accepted (10 R264, R265). -/
def Dev.Grants (d : Dev) (m a : Nat) : Prop := d.mode ≠ .reset ∧ d.writeRefusal m a = none

/-- A read of master `m` at `a` is granted (10 R264, R265). -/
def Dev.Serves (d : Dev) (m a : Nat) : Prop := d.mode ≠ .reset ∧ d.readRefusal m a = none

/-- A device at rest: no fold and no dump copy is outstanding and the device is neither in FOLD nor, in a WARM or WDOG pulse,
about to return to it; so that settling the edge leaves the mode and the outputs. -/
structure Dev.Steady (d : Dev) : Prop extends d.Calm where
  notFold : d.underMode ≠ .fold

/-- A source fires between `d` and `e` (11 R283): its latched bit is set and FLT_SEQNO has advanced by one. -/
structure Fired (src : Nat) (d e : Dev) : Prop where
  latched : e.latched src = true
  counted : e.rd FLT_SEQNO_COUNT = (d.rd FLT_SEQNO_COUNT + 1) % 2 ^ 32

/-- `e` has `d`'s registers but at the addresses of `A`, its shadows, its held bank, its copies per master, and every byte
of both memories. -/
structure OnlyRegs (A : Nat → Prop) (d e : Dev) : Prop where
  word : ∀ a, ¬ A a → e.word a = d.word a
  shadow : e.shadow = d.shadow
  held : e.held = d.held
  perMaster : e.perMaster = d.perMaster
  sram : ∀ a, ByteMem.get e.sram 0 a = ByteMem.get d.sram 0 a
  nvm : ∀ a, ByteMem.get e.nvm 0xFF a = ByteMem.get d.nvm 0xFF a

/-- The registers that a firing can write: FLT_ACK, FLT_STAT, the capture with FLT_SEQNO and FLT_MISSED, FLT_INJ_STAT and
FLT_DUMP_STAT (11 R283 to R300); the mailbox's status and results, NVM_STAT and OUT_TEE, since a FATAL firing ends a service
DUMP (11 R300). -/
def firingAt (a : Nat) : Prop :=
  (0x010048 ≤ a ∧ a < 0x010054) ∨ a = 0x010058 ∨ (0x010060 ≤ a ∧ a ≤ 0x010080) ∨ a = 0x010084 ∨ a = 0x010094 ∨ a = 0x01009C ∨
    (0x000120 ≤ a ∧ a < 0x000138) ∨ a = 0x090004 ∨ a = 0x050C00

/-- The registers that selection can write: the paddocks, the words of their APLLs, the steering ports, MEAS_Q_ERR (a step of
device time ends jobs, 03 R81), and what a firing can write. -/
def selectionAt (a : Nat) : Prop :=
  (0x030000 ≤ a ∧ a < 0x034000) ∨ (0x040000 ≤ a ∧ a < 0x042000) ∨ (0x0B0000 ≤ a ∧ a < 0x0B0400) ∨ a = 0x062040 ∨ firingAt a

/-- The registers of reference monitor `n`, and what selection can write. -/
def refSide (n a : Nat) : Prop := (0x020000 + 0x100 * n ≤ a ∧ a < 0x020100 + 0x100 * n) ∨ selectionAt a

/-- The register at `a`, of row `r`, is ordinary: no per-master copy, no sequence-clear bits, no complement pair, no command
bits, none of the registers whose writes the spec describes by name (DEV_CROOK, OUT_TEE, TQ_n_TAIL), and no claimed channel. -/
structure Dev.Ordinary (d : Dev) (a : Nat) (r : RegRow) : Prop where
  row : rowAt a = some r
  shared : r.perMaster = false
  noSqc : r.sqc = 0
  noCpl : r.cpl = 0
  noCmd : r.cmd = 0
  named : a ≠ rDEV_CROOK ∧ a ≠ rOUT_TEE ∧ isReg 0x070000 16 0x40 8 a = false
  unclaimed : d.claimedReg a = false
  mapped : a < 0x0F0000

/-- `n` whole words from `a` lie in SHDATA, which hosts may always write (01 R27, R28). -/
def inShdata (a n : Nat) : Prop := a % 4 = 0 ∧ 0x158000 ≤ a ∧ a + 4 * n ≤ 0x160000

/-- The words of SRAM from `a` are `ws`, and the rest of SRAM is as it was. -/
def WroteSram (d e : Dev) (a : Nat) (ws : List Nat) : Prop :=
  (∀ i < ws.length, e.sramWord (a + 4 * i) = ws.getD i 0 % 2 ^ 32) ∧
    ∀ b, b < a ∨ a + 4 * ws.length ≤ b → ByteMem.get e.sram 0 b = ByteMem.get d.sram 0 b

/-- The register at `a`, of row `r`, takes its shadow within the limits of its own fields: none of those whose applied value hangs
on another register, or that an enabled unit refuses (03 R91, R98; 04 R114; 05 R139, R147; 06 R171; 07, STEER registers). -/
structure PlainShadow (a : Nat) (r : RegRow) : Prop where
  row : rowAt a = some r
  ref : isReg 0x020000 12 0x100 0x10 a = false ∧ isReg 0x020000 12 0x100 0x18 a = false
  pad : isReg 0x030000 16 0x400 4 a = false
  out : isReg 0x050000 24 0x80 8 a = false
  ring : isReg 0x070000 16 0x40 0 a = false ∧ a ≠ rTP_CTL
  port : isReg 0x0B0000 8 0x40 0x0C a = false ∧ isReg 0x0B0000 8 0x40 0x20 a = false
  target : a < 0x0B0200 ∨ 0x0B0300 ≤ a

/-- What remains pending of the update groups when those of `mask` apply (10 R268). -/
def PendLess (d e : Dev) (gone : Nat → Bool) : Prop :=
  ∀ g < 8, (e.rd DEV_UPDATE_PEND).testBit g = ((d.rd DEV_UPDATE_PEND).testBit g && !gone g)

/-- The device has as many instances of each kind as the spec gives it (02 R30, R45; 03 R73, R82; 04 R104; 05 R136; 06 R163;
07 R194; 08 R210; 12 R333). -/
structure Dev.Whole (d : Dev) : Prop where
  cells : d.meas.cells.length = 48
  chans : d.meas.chans.length = 66
  slots : d.jobs.slots.length = 128
  rings : d.jobs.rings.length = 16
  pads : d.pads.length = 16
  refs : d.refs.length = 13
  sels : d.sels.length = 16
  ports : d.ports.length = 8
  beats : d.beats.length = 8
  links : d.past.links.length = 2
  aplls : d.aplls.length = 6
  outs : d.outs.length = 24
  psyns : d.psyns.length = 4
  units : d.chk.units.length = 4

/-- A frame of `src` that arrives on link `x` is new, comes on a link that is UP, and is not ignored (08 R213, R220). -/
structure Dev.Fresh (d : Dev) (x src fseq : Nat) : Prop where
  up : d.linkUp x = true
  known : d.ignoresSrc src = false
  unseen : fseq ∉ d.past.seen.getD src []

end Sys2Proof.Machine
end

