-- ==== Sys2Proof/Certificates/Slice0/Obligations.lean ====
section
/-!
DEFINITION. The statements about the model, for the provers.
-/

open Sys2Proof Sys2Proof.Machine

/-! ### Every command -/

/-- The first command of the queue runs, on the device and the rest of the queue (the block's own rule of a step). -/
def Obligations.StepRunsFrontCommand : Prop :=
  ∀ (c : Instr) (rest : List Instr) (s : State), s.pending = c :: rest → step s = exec c { s with pending := rest }

/-- With no command waiting the device idles and nothing changes (MODEL'S CHOICE, log 1). -/
def Obligations.StepIdlesOnEmptyQueue : Prop := ∀ s : State, s.pending = [] → step s = .next s

/-- Every command answers a next state, and no command touches the queue.  That a command with ill-formed operands, and an event
that cannot happen as the device stands, completes too is the MODEL'S CHOICE (log 16, 17). -/
def Obligations.EveryCommandCompletesAndKeepsQueue : Prop :=
  ∀ (c : Instr) (s : State), ∃ t, exec c s = .next t ∧ t.pending = s.pending

/-- After every step the collector has settled its edge. -/
def Obligations.StepKeepsSettled : Prop :=
  ∀ s t : State, s.dev.Settled → step s = .next t → t.dev.Settled

/-! ### Clocks and complement pairs (chapter 01) -/

/-- A count of XOIN in a row of the table selects it and BOOT moves to PLL_LOCK; a count in no row leaves BOOT at XOIN_BAD,
where the count repeats. -/
def Obligations.XoinCountSelectsRow : Prop :=
  ∀ (s : State) (dt count : Nat), s.dev.Steady →
    (s.dev.atStage 0 = true →
      (∀ f, xoinRow count = some f → Completes (.xoinCountDone dt count) s fun t => t.stage = 2 ∧ t.clk.xoin = f) ∧
      (xoinRow count = none → Completes (.xoinCountDone dt count) s fun t => t.stage = 1)) ∧
    (s.dev.atStage 1 = true →
      (∀ f, xoinRow count = some f → Completes (.xoinRecount dt count) s fun t => t.stage = 2 ∧ t.clk.xoin = f) ∧
      (xoinRow count = none → Completes (.xoinRecount dt count) s fun t => t.stage = 1))

/-- The system PLL locks: ROOT's clocks run, BOOTCLK stops, the path fuses load, the first temperature reading is taken and
BOOT goes on; a loss of lock outside RESET and BOOT stops the time base, leaves time unreliable and makes SYS_PLL_LOL live;
lock regained ends that condition.  The loss fires that source alone where no queued job's body is known to be damaged (03 R81). -/
def Obligations.SystemPllLockAndLoss : Prop :=
  ∀ (s : State) (dt : Nat),
    (∀ fuses (temp : Int), -32768 ≤ temp → temp < 32768 → s.dev.Steady → s.dev.atStage 2 = true →
      Completes (.sysPllLock dt fuses ⟨none, temp⟩) s fun t =>
        t.clk.pllLocked = true ∧ t.clk.bootclk = false ∧ t.stage = s.dev.scanStage ∧
        t.rdS DEV_TEMP_TEMP = temp ∧ t.flag DEV_TEMP_VALID = true ∧
        ∀ k < 64, t.word (rMCH_PATH k) = Word.of (fuses.getD k 0)) ∧
    (s.dev.applied = true → s.dev.clk.pllLocked = true → (0, 0) ∉ s.dev.flt.live → Effects (.sysPllLol dt) s fun e =>
      e.clk.pllLocked = false ∧ e.clk.unreliable = true ∧ e.latched 0 = true ∧ (0, 0) ∈ e.flt.live ∧
        (s.dev.bodiesGood = true → Fired 0 s.dev e)) ∧
    (s.dev.applied = true → s.dev.clk.pllLocked = false → Effects (.sysPllRelock dt) s fun e =>
      e.clk.pllLocked = true ∧ (0, 0) ∉ e.flt.live)

/-- A complement mismatch of any protected value and a clock off its ratio: the source becomes live at that instance and its
bit is latched; the end of the condition ends the live condition and fires nothing.
(The model's choices and readings in it: log 22, 122.) -/
def Obligations.LevelMonitorsOfTimeBase : Prop :=
  ∀ (s : State) (dt : Nat),
    (∀ site src, (src = if site = .coarse ∨ site = .devTime then 2 else 1) → (src, (cplSiteAt site).1) ∉ s.dev.flt.live →
      Effects (.complementMismatch dt site true) s fun e =>
        e.latched src = true ∧ (src, (cplSiteAt site).1) ∈ e.flt.live) ∧
    (∀ site src, (src = if site = .coarse ∨ site = .devTime then 2 else 1) →
      Effects (.complementMismatch dt site false) s fun e =>
        (src, (cplSiteAt site).1) ∉ e.flt.live ∧ e.rd FLT_SEQNO_COUNT = s.dev.rd FLT_SEQNO_COUNT) ∧
    (∀ k, k < 5 → (4, k) ∉ s.dev.flt.live → Effects (.clkMon dt k true) s fun e =>
      Fired 4 s.dev e ∧ (4, k) ∈ e.flt.live) ∧
    (∀ k, k < 5 → Effects (.clkMon dt k false) s fun e =>
      (4, k) ∉ e.flt.live ∧ e.rd FLT_SEQNO_COUNT = s.dev.rd FLT_SEQNO_COUNT)

/-! ### Internal monitors (01 R27; 11 R281, R286; 13 R344, R390) -/

/-- A bus access that faults fires its source once, and with the capture empty fills it: source, severity, access type,
master, address and detail.  A parity error arises from no access: its capture has type internal, no master and address 0, and
the register's address, in its low 16 bits, is the detail. -/
def Obligations.FirstFiringFillsCapture : Prop :=
  ∀ (s : State) (dt addr m type code : Nat), addr < 2 ^ 24 → m < 7 → type < 6 → code < 2 ^ 16 →
    s.dev.flag FLT_CAP_SRC_VALID = false →
    (Effects (.shepExc dt addr type code) s fun e => Fired 14 s.dev e ∧ e.rd FLT_CAP_SRC_SRC = 14 ∧
      e.rd FLT_CAP_SRC_SEV = s.dev.sev 14 ∧ e.rd FLT_CAP_SRC_TYPE = type ∧ e.flag FLT_CAP_SRC_MASTER_V = true ∧
      e.rd FLT_CAP_SRC_MASTER = 2 ∧ e.rd FLT_CAP_ADDR_ADDR = addr ∧ e.rd FLT_CAP_DETAIL_DETAIL = code ∧
      e.flag FLT_CAP_SRC_VALID = true) ∧
    (Effects (.busTimeout dt addr m type) s fun e => Fired 15 s.dev e ∧ e.rd FLT_CAP_SRC_SRC = 15 ∧
      e.rd FLT_CAP_SRC_SEV = s.dev.sev 15 ∧ e.rd FLT_CAP_SRC_TYPE = type ∧ e.flag FLT_CAP_SRC_MASTER_V = true ∧
      e.rd FLT_CAP_SRC_MASTER = m ∧ e.rd FLT_CAP_ADDR_ADDR = addr ∧ e.rd FLT_CAP_DETAIL_DETAIL = 0 ∧
      e.flag FLT_CAP_SRC_VALID = true) ∧
    (Effects (.regParity dt addr) s fun e => Fired 57 s.dev e ∧ e.rd FLT_CAP_SRC_SRC = 57 ∧
      e.rd FLT_CAP_SRC_SEV = s.dev.sev 57 ∧ e.rd FLT_CAP_SRC_TYPE = accInternal ∧ e.flag FLT_CAP_SRC_MASTER_V = false ∧
      e.rd FLT_CAP_ADDR_ADDR = 0 ∧ e.rd FLT_CAP_DETAIL_DETAIL = addr % 2 ^ 16 ∧ e.flag FLT_CAP_SRC_VALID = true)

/-- Supply, temperature, watchdog, SRAM and fold-path monitors: what each writes, the source it fires and the condition that it
makes live or ends.  A rail below its threshold; a die above 125 degC (TEMP_CRIT), above TEMP_HI and again 2 degC below it
(TEMP_HIGH); a double-bit error in a record that is read (RING_ECC with REC_ECC), elsewhere (SRAM_ECC), and in a cell's active
table (TABLE_ECC as well); the 17th correction of a second (SRAM_SEC_RATE).
(The model's choices and readings in it: log 34, 119, 122, 145, 147, 183.) -/
def Obligations.MonitorsFireTheirSources : Prop :=
  ∀ (s : State) (dt : Nat),
    (∀ rail src inst, (rail, src, inst) ∈ [(0, 8, 0), (1, 9, 0), (2, 10, 0), (3, 10, 1), (4, 10, 2), (5, 11, 0), (6, 12, 0)] →
      ((src, inst) ∉ s.dev.flt.live → Effects (.supplyUndervoltage dt rail true) s fun e =>
        e.rd ⟨rDEV_SUPPLY, rail, rail⟩ = 0 ∧ Fired src s.dev e ∧ (src, inst) ∈ e.flt.live ∧ rail ∈ e.railLow) ∧
      (Effects (.supplyUndervoltage dt rail false) s fun e =>
        e.rd ⟨rDEV_SUPPLY, rail, rail⟩ = 1 ∧ (src, inst) ∉ e.flt.live ∧ rail ∉ e.railLow ∧
          e.rd FLT_SEQNO_COUNT = s.dev.rd FLT_SEQNO_COUNT)) ∧
    (∀ temp hi : Int, -32768 ≤ temp → temp < 32768 → s.dev.flag DEV_TEMP_VALID = true →
      hi = 16 * (s.dev.rdIn FLT_TEMP_TEMP_HI 60 120 : Nat) → Effects (.tempReading dt temp) s fun e =>
        e.rdS DEV_TEMP_TEMP = temp ∧ e.flag DEV_TEMP_VALID = true ∧
        (2000 < temp → (6, 0) ∈ e.flt.live ∧ ((6, 0) ∉ s.dev.flt.live → e.latched 6 = true)) ∧
        (temp ≤ 2000 → (6, 0) ∉ e.flt.live) ∧
        (hi < temp → (7, 0) ∈ e.flt.live ∧ ((7, 0) ∉ s.dev.flt.live → e.latched 7 = true)) ∧
        (temp ≤ hi - 32 → (7, 0) ∉ e.flt.live) ∧
        (hi - 32 < temp → temp ≤ hi → ((7, 0) ∈ e.flt.live ↔ (7, 0) ∈ s.dev.flt.live)) ∧
        e.rd FLT_SEQNO_COUNT = (s.dev.rd FLT_SEQNO_COUNT + (if 2000 < temp ∧ (6, 0) ∉ s.dev.flt.live then 1 else 0) +
          if hi < temp ∧ (7, 0) ∉ s.dev.flt.live then 1 else 0) % 2 ^ 32) ∧
    (∀ temp, s.dev.flag DEV_TEMP_VALID = false → Effects (.tempReading dt temp) s fun e => e = s.dev.advance dt) ∧
    (s.dev.applied = true → Effects (.watchdogExpiry dt) s fun e => Fired 13 s.dev e ∧ e.boot.wdog = true) ∧
    (∀ a m, 0x140000 ≤ a → a < 0x180000 → Effects (.sramEcc dt a m accWrite true) s fun e =>
      Fired 3 s.dev e) ∧
    (∀ a m type, 0x100000 ≤ a → a < 0x180000 →
      0x140000 ≤ a ∨ (type ≠ accRead ∧ type ≠ accLink) ∨ s.dev.ringAt a = none →
      (tableCell a = none ∨ type = accWrite → Effects (.sramEcc dt a m type true) s fun e => Fired 3 s.dev e) ∧
      (tableCell a ≠ none → type ≠ accWrite → Effects (.sramEcc dt a m type true) s fun e =>
        e.latched 3 = true ∧ e.flag MEAS_STAT_TABLE_ECC = true)) ∧
    (∀ a m type r, 0x100000 ≤ a → a < 0x140000 → type = accRead ∨ type = accLink → s.dev.ringAt a = some r →
      Effects (.sramEcc dt a m type true) s fun e => Fired 22 s.dev e ∧ e.flag (TQ_STAT_REC_ECC r) = true) ∧
    (∀ a m type, 0x100000 ≤ a → a < 0x180000 → s.dev.meas.secFrom = (s.dev.clk.tclk + dt) / 1600000000 →
      (s.dev.meas.secCount ≠ 16 → Effects (.sramEcc dt a m type false) s fun e =>
        e.meas.secCount = s.dev.meas.secCount + 1 ∧ e.rd FLT_SEQNO_COUNT = s.dev.rd FLT_SEQNO_COUNT) ∧
      (s.dev.meas.secCount = 16 → Effects (.sramEcc dt a m type false) s fun e =>
        e.meas.secCount = 17 ∧ Fired 58 s.dev e)) ∧
    (∀ a m type, 0x100000 ≤ a → a < 0x180000 → s.dev.meas.secFrom ≠ (s.dev.clk.tclk + dt) / 1600000000 →
      Effects (.sramEcc dt a m type false) s fun e =>
        e.meas.secCount = 1 ∧ e.rd FLT_SEQNO_COUNT = s.dev.rd FLT_SEQNO_COUNT) ∧
    (∀ n, n < 24 → (5, n) ∉ s.dev.flt.live → Effects (.foldPath dt n true) s fun e =>
      e.latched 5 = true ∧ e.rd (OUT_STAT_STATE n) = (if s.dev.rd (OUT_STAT_STATE n) = 0 then 0 else 3) ∧
        (n < s.dev.outs.length → e.outDrive n = (.highZ, .highZ)) ∧ (s.dev.reactive = true → e.flt.foldPend = true)) ∧
    (∀ n, n < 24 → Effects (.foldPath dt n false) s fun e =>
      (5, n) ∉ e.flt.live ∧ (n < s.dev.outs.length → (e.out n).cut = false) ∧
        e.rd FLT_SEQNO_COUNT = s.dev.rd FLT_SEQNO_COUNT)

/-! ### The fault collector (chapter 11) -/

/-- A FOLD that an edge calls for, from RUN or SERVICE, is taken on that edge: the device is in FOLD, FLT_FOLDS has advanced,
and no output is in RUN. (The model's choices and readings in it: log 77, 119.) -/
def Obligations.CalledFoldIsTakenOnItsEdge : Prop :=
  ∀ d : Dev, d.flt.foldPend = true → d.flt.foldNext = false → d.flt.dumpCopy = none → d.mode = .run ∨ d.mode = .service →
    d.flag FLT_CFG_AUTO_UNFOLD = false →
      d.finish.mode = .fold ∧ d.finish.rd FLT_FOLDS_COUNT = (d.rd FLT_FOLDS_COUNT + 1) % 2 ^ 32 ∧
        ∀ n < 24, d.finish.rd (OUT_STAT_STATE n) ≠ 1

/-- A write of FLT_INJ injects one firing of SRC; while an injection is active, or the source's bit is latched, it is
rejected and fires nothing. (The model's choices and readings in it: log 120, 125.) -/
def Obligations.InjectionFiresOnceOrIsRejected : Prop :=
  ∀ (s : State) (dt m src : Nat) (sim : Bool), src < 64 → s.dev.Grants m rFLT_INJ →
    (s.dev.flag FLT_INJ_STAT_ACTIVE = false → s.dev.latched src = false →
      Effects (.faultInject dt m src sim) s fun e =>
        Fired src s.dev e ∧ e.flag FLT_INJ_STAT_ACTIVE = true ∧ e.rd FLT_INJ_STAT_SRC = src ∧
          e.flag FLT_INJ_STAT_SIM = sim ∧ e.flag FLT_INJ_STAT_REJECTED = false) ∧
    (s.dev.flag FLT_INJ_STAT_ACTIVE = true ∨ s.dev.latched src = true →
      Effects (.faultInject dt m src sim) s fun e =>
        e.flag FLT_INJ_STAT_REJECTED = true ∧ e.rd FLT_SEQNO_COUNT = s.dev.rd FLT_SEQNO_COUNT)

/-- Writing 1 to bit k of FLT_USER fires USER_k once, as a real firing: each bit written is latched, each firing is counted
and stands in the firing trace as no injection, and no other USER bit changes. -/
def Obligations.UserBitsFireOnceEach : Prop :=
  ∀ (s : State) (dt m mask : Nat), mask < 16 → s.dev.Grants m rFLT_USER →
    Effects (.userFire dt m mask) s fun e =>
      e.rd FLT_SEQNO_COUNT =
        (s.dev.rd FLT_SEQNO_COUNT + ((List.range 4).filter fun k => mask.testBit k).length) % 2 ^ 32 ∧
      (∀ k < 4, e.latched (60 + k) = (mask.testBit k || s.dev.latched (60 + k))) ∧
      (e.flt.trace.drop (e.flt.trace.length - ((List.range 4).filter fun k => mask.testBit k).length)).map
          (fun f => (f.src, f.inj)) =
        ((List.range 4).filter fun k => mask.testBit k).map fun k => (60 + k, false)

/-- CAP_REL releases the capture only with the right CAP_SEQ, and another leaves every register of the capture as it was; a firing
of any source on the edge of the release fills the capture, one that was named before it as well, which found the capture held: no
such firing stays counted in FLT_MISSED. (In which order the sender may name the two: log 19, 126.) -/
def Obligations.CaptureReleaseNeedsItsSequence : Prop :=
  ∀ (s : State) (dt m seq : Nat) (d : Dev), seq < 2 ^ 16 → s.dev.Grants m rFLT_CMD → d = s.dev.advance dt →
    (seq = s.dev.rd FLT_CAP_SEQ_SEQ % 2 ^ 16 → d.flt.fired = [] → Effects (.capRel dt m seq) s fun e =>
      e.flag FLT_CAP_SRC_VALID = false ∧
        ∀ src detail, src < 64 → detail < 2 ^ 16 → (e.fire src detail).flag FLT_CAP_SRC_VALID = true ∧
          (e.fire src detail).rd FLT_CAP_SRC_SRC = src ∧ (e.fire src detail).rd FLT_CAP_DETAIL_DETAIL = detail ∧
          (e.fire src detail).flag FLT_CAP_SRC_MULTI = false) ∧
    (d.flt.fired ≠ [] → (d.oldWord rFLT_CAP_SRC).toNat.testBit 31 = true → seq = (d.oldWord rFLT_CAP_SEQ).toNat % 2 ^ 16 →
      Effects (.capRel dt m seq) s fun e => e.flag FLT_CAP_SRC_VALID = true ∧
        (∃ f ∈ d.flt.fired, e.rd FLT_CAP_SRC_SRC = f.src % 64) ∧ e.word rFLT_MISSED = d.oldWord rFLT_MISSED) ∧
    ((d.flt.fired = [] ∧ seq ≠ s.dev.rd FLT_CAP_SEQ_SEQ % 2 ^ 16) ∨
        (d.flt.fired ≠ [] ∧ ((d.oldWord rFLT_CAP_SRC).toNat.testBit 31 = false ∨
          seq ≠ (d.oldWord rFLT_CAP_SEQ).toNat % 2 ^ 16)) → Effects (.capRel dt m seq) s fun e =>
      ∀ a ∈ [rFLT_CAP_SRC, rFLT_CAP_ADDR, rFLT_CAP_DETAIL, rFLT_CAP_SEQ, rFLT_CAP_SEC_LO, rFLT_CAP_SEC_HI, rFLT_CAP_NS,
        rFLT_CAP_FRAC], e.word a = s.dev.word a)

/-- The timers of the collector: escalation calls for a fold, the quiet period ends the fault state, FAULT_N may be released
at the end of its width. FN_REL, DUMP_REL and NVM_DUMP_REL of FLT_CMD. A fatal dump that is being written ends up in SRAM
with its sequence, or is reported late; an entry of the log leaves the queue of waiting entries. (The model's choices and
readings in it: log 123, 124, 128, 129, 156.) -/
def Obligations.CollectorReleasesAndTimers : Prop :=
  (∀ (s : State) (dt : Nat),
      (s.dev.flag FLT_STAT_ESC_RUN = true → s.dev.underMode ≠ .fold → Effects (.escalationExpiry dt) s fun e =>
        e.flt.foldPend = true) ∧
      (s.dev.flag FLT_STAT_FSTATE = true → (s.dev.anyLive fun k => decide (s.dev.rd FLT_CFG_FSTATE_SEV ≤ s.dev.sev k)) = false →
        Effects (.quietExpiry dt) s fun e => e.flag FLT_STAT_FSTATE = false ∧
          e.rd FLT_RECOV_COUNT = (s.dev.rd FLT_RECOV_COUNT + 1) % 2 ^ 32) ∧
      (s.dev.flag FLT_STAT_FN = true → Effects (.faultNWidthEnd dt) s fun e =>
        e.flt.fnWidthDone = true ∨ e.flag FLT_STAT_FN = false)) ∧
  (∀ (s : State) (dt m : Nat), s.dev.Grants m rFLT_CMD →
      (s.dev.flag FLT_STAT_FN = true → s.dev.flag FLT_CFG_FN_LATCH = true → s.dev.flt.fnWidthDone = true →
        s.dev.fnCond = false → Effects (.fnRel dt m) s fun e => e.flag FLT_STAT_FN = false) ∧
      (s.dev.Calm → Completes (.dumpRel dt m) s fun t => t.flag FLT_DUMP_STAT_SRAM_VALID = false) ∧
      (s.dev.Calm → Completes (.nvmDumpRel dt m) s fun t =>
        t.nvmc.queue = s.dev.nvmc.queue ++ [NvmWork.new .dumpErase])) ∧
  (∀ (s : State) (dt : Nat),
      (∀ t core, s.dev.flt.dump = some t → Effects (.dumpSramDone dt core) s fun e =>
        e.flag FLT_DUMP_STAT_SRAM_VALID = true ∧ e.rd FLT_DUMP_SEQ_SEQ = t.seq % 2 ^ 32) ∧
      (s.dev.flt.dump.isSome = true → Effects (.dumpTimeout dt) s fun e => Fired 49 s.dev e) ∧
      (∀ x rest, s.dev.flt.logWait = x :: rest → Effects (.logEntry dt) s fun e => e.flt.logWait = rest))

/-! ### Boot (chapter 09) -/

/-- The choice of a slot by serial-number arithmetic (09 R240): classes are recorded; a lone bootable slot is taken; of two the
newer; no order between them is a tie unless their checks agree at equal sequence; with none, boot stops or waits for a stream. With
VDD_NVM below its monitor threshold both slots read as EMPTY. (Which errors a read of a slot meets: log 23, 201.) -/
def Obligations.BootSlotChoice : Prop :=
  ∀ (s : State) (dt : Nat) (corrA corrB : Bool) (badA badB : List Nat), s.dev.Steady → s.dev.atStage 3 = true →
    (s.dev.nvmDark = true → Completes (.slotScanDone dt corrA corrB badA badB) s fun t =>
      t.boot.clsA = clsEmpty ∧ t.boot.clsB = clsEmpty ∧ t.stage = if s.dev.boot.strap = 0 then 4 else 5) ∧
    (s.dev.nvmDark = false →
      ∀ ca cb n, (s.dev.slotSrc 0).classify s.dev.clk.xoin corrA ((s.dev.slotFound badA badB).slotErrs 0) = ca →
        (s.dev.slotSrc 1).classify s.dev.clk.xoin corrB ((s.dev.slotFound badA badB).slotErrs 1) = cb →
        n = (((s.dev.slotSrc 1).sequence : Int) - (s.dev.slotSrc 0).sequence) % 2 ^ 32 →
        Completes (.slotScanDone dt corrA corrB badA badB) s fun t =>
          t.boot.clsA = ca.1 ∧ t.boot.clsB = cb.1 ∧ t.boot.diagA = ca.2 ∧ t.boot.diagB = cb.2 ∧
          (bootable ca.1 = false → bootable cb.1 = false →
            t.stage = (if s.dev.boot.strap = 0 then 4 else 5) ∧ t.boot.tie = false) ∧
          (bootable ca.1 = true → bootable cb.1 = false → t.stage = 9 ∧ t.boot.src = 0 ∧ t.boot.tie = false) ∧
          (bootable ca.1 = false → bootable cb.1 = true → t.stage = 9 ∧ t.boot.src = 1 ∧ t.boot.tie = false) ∧
          (bootable ca.1 = true → bootable cb.1 = true → t.stage = 9 ∧
            (1 ≤ n → n ≤ 2 ^ 31 - 1 → t.boot.src = 1 ∧ t.boot.tie = false) ∧
            (2 ^ 31 < n → t.boot.src = 0 ∧ t.boot.tie = false) ∧
            (n = 0 ∨ n = 2 ^ 31 →
              t.boot.src = (if ca.1 = clsCorrected ∧ cb.1 = clsClean then 1 else 0) ∧
              t.boot.tie = (decide (n = 2 ^ 31) ||
                decide ((s.dev.slotSrc 0).num ((s.dev.slotSrc 0).commitAt + 8) 4 ≠
                  (s.dev.slotSrc 1).num ((s.dev.slotSrc 1).commitAt + 8) 4)))))

/-- Loading ends in CALIBRATE; the image applies in RUN, once the cells and the bands are calibrated, with the patch running
and the watchdog counting from that edge; and a parked tie rewrite joins the controller's queue again.  A verified stream is
loaded if its class is bootable; otherwise boot waits for a new one, with the code of the failed check.
(The model's choices and readings in it: log 97, 98.) -/
def Obligations.BootLoadAndApply : Prop :=
  (∀ (s : State) (dt : Nat),
      (∀ bad, s.dev.atStage 9 = true → Effects (.bootLoadDone dt bad) s fun e => e.stage = 10) ∧
      (s.dev.mayApply = true → Effects (.imageApply dt) s fun e =>
        e.mode = .run ∧ e.boot.patchRuns = s.dev.boot.patch.isSome ∧ e.boot.kick = s.dev.clk.tclk + dt) ∧
      (s.dev.mayApply = false → s.dev.Steady → Completes (.imageApply dt) s fun t =>
        t.mode = s.dev.mode ∧ t.stage = s.dev.stage) ∧
      (∀ w, s.dev.nvmc.parked = some w → s.dev.Calm → Completes (.imgRewriteRetry dt) s fun t =>
        t.nvmc.parked = none ∧ t.nvmc.queue = s.dev.nvmc.queue ++ [w])) ∧
  (∀ (s : State) (dt : Nat) (corr : Bool) (bad : List Nat) (c : Nat × Nat), s.dev.Steady → s.dev.atStage 7 = true →
      s.dev.stageSrc.classify s.dev.clk.xoin corr bad = c →
      (bootable c.1 = true → Completes (.streamVerifyDone dt corr bad) s fun t => t.stage = 9 ∧ t.boot.src = 2) ∧
      (bootable c.1 = false → Completes (.streamVerifyDone dt corr bad) s fun t =>
        t.stage = 8 ∧ t.boot.diagH = c.2 ∧ t.boot.next = none))

/-! ### Modes and resets (chapter 13) -/

/-- DEV_MODE_REQ (13 R353, R354): the transitions of the table, and the refusals in their order; a refusal leaves the mode.
(The model's choices and readings in it: log 146.) -/
def Obligations.ModeRequests : Prop :=
  ∀ (s : State) (dt m : Nat), s.dev.Grants m rDEV_MODE_REQ → s.dev.Calm →
    (s.dev.mode = .run → s.dev.flag DEV_MBX_STAT_BUSY = false →
      (s.dev.flag DEV_CROOK_LOCK = false → Completes (.modeReqService dt m) s fun t =>
        t.mode = .service ∧ t.rd DEV_MODE_REQ_RESULT = 1) ∧
      Effects (.modeReqSleep dt m) s fun e => e.mode = .sleep ∧ e.rd DEV_MODE_REQ_RESULT = 1) ∧
    (s.dev.mode = .service → s.dev.flag DEV_MBX_STAT_BUSY = false → Completes (.modeReqRun dt m) s fun t =>
      t.mode = .run ∧ t.rd DEV_MODE_REQ_RESULT = 1) ∧
    (s.dev.mode = .sleep → Effects (.modeReqRun dt m) s fun e => e.mode = .run ∧ e.rd DEV_MODE_REQ_RESULT = 1) ∧
    (s.dev.mode = .fold → s.dev.flag FLT_STAT_FOLD_REQ = false → Effects (.modeReqRun dt m) s fun e =>
      e.mode = .run ∧ e.rd DEV_MODE_REQ_RESULT = 1) ∧
    (s.dev.underMode ≠ .fold →
      (s.dev.mode = .run → Completes (.modeReqRun dt m) s fun t => t.mode = .run ∧ t.rd DEV_MODE_REQ_RESULT = 2) ∧
      (s.dev.mode ≠ .run → Completes (.modeReqService dt m) s fun t =>
        t.mode = s.dev.mode ∧ t.rd DEV_MODE_REQ_RESULT = 2) ∧
      (s.dev.mode ≠ .run → Completes (.modeReqSleep dt m) s fun t =>
        t.mode = s.dev.mode ∧ t.rd DEV_MODE_REQ_RESULT = 2) ∧
      (s.dev.mode = .run → s.dev.flag DEV_CROOK_LOCK = true → Completes (.modeReqService dt m) s fun t =>
        t.mode = .run ∧ t.rd DEV_MODE_REQ_RESULT = 4) ∧
      (s.dev.mode = .run → s.dev.flag DEV_MBX_STAT_BUSY = true → Completes (.modeReqSleep dt m) s fun t =>
        t.mode = .run ∧ t.rd DEV_MODE_REQ_RESULT = 5) ∧
      (∀ req, req < 8 → req ≠ 2 → req ≠ 4 → req ≠ 5 → Completes (.modeReqInvalid dt m req) s fun t =>
        t.mode = s.dev.mode ∧ t.rd DEV_MODE_REQ_RESULT = 6)) ∧
    (s.dev.mode = .fold → s.dev.flag FLT_STAT_FOLD_REQ = true → Effects (.modeReqRun dt m) s fun e =>
      e.mode = .fold ∧ e.rd DEV_MODE_REQ_RESULT = 3)

/-- A reset begins (13 R346 to R349, R357): the mode is RESET, the kind and its cause are recorded, and what the kind keeps is kept:
POR keeps the NVM array alone, PIN and SOFT also their part of SRAM, WARM and WDOG both memories; a service that runs when a WARM or
WDOG reset begins completes with RESET, and a dump's copy that it stops is reported; WARM and WDOG do nothing in BOOT, where a
host's write is refused besides (10 R265, R266); a wrong key only sets KEY_ERR. `w` is the device without the pulse of a
later-listed kind that began on the same edge, which the reset replaces (13 R346). (The model's choices and readings in it: log 3,
105, 127, 143.) -/
def Obligations.ResetsBegin : Prop :=
  ∀ (s : State) (dt : Nat) (w : Dev), w = (s.dev.advance dt).withdraw →
    Completes (.porAssert dt) s (fun t => t.mode = .reset ∧ t.resetKind = .por ∧ t.nvm = s.dev.nvm ∧ t.sram = [] ∧
      t.rd ⟨rDEV_RESET_CAUSE, 23, 0⟩ = 1 ∧ t.rd DEV_RESET_CAUSE_SEQ = 0) ∧
    (s.dev.resetTakes .pin = true → Completes (.pinReset dt) s fun t =>
      t.mode = .reset ∧ t.resetKind = .pin ∧ t.nvm = s.dev.nvm ∧ t.rd ⟨rDEV_RESET_CAUSE, 1, 1⟩ = 1 ∧
      ∀ a, ByteMem.get t.sram 0 a = if sramKeeps false a then ByteMem.get w.sram 0 a else 0) ∧
    (∀ m, s.dev.Grants m rDEV_RESET →
      Completes (.soft dt m 0xC3A5) s (fun t =>
        t.mode = .reset ∧ t.resetKind = .soft ∧ t.nvm = s.dev.nvm ∧ t.rd ⟨rDEV_RESET_CAUSE, 2, 2⟩ = 1 ∧
        ∀ a, ByteMem.get t.sram 0 a = if sramKeeps true a then ByteMem.get w.sram 0 a else 0) ∧
      (s.dev.mode ≠ .boot → Effects (.warm dt m 0xC3A5) s fun e =>
        e.mode = .reset ∧ e.resetKind = .warm ∧ e.priorMode = w.underMode ∧ e.nvm = s.dev.nvm ∧ e.sram = w.sram ∧
        e.rd ⟨rDEV_RESET_CAUSE, 3, 3⟩ = 1 ∧
        (w.flag DEV_MBX_STAT_BUSY = true → e.flag DEV_MBX_STAT_BUSY = false ∧ e.flag DEV_MBX_STAT_DONE = true ∧
          e.rd DEV_MBX_STAT_CODE = 0x10) ∧
        (w.flt.dumpCopy.isSome = true → e.latched 49 = true ∧ e.flt.dumpCopy = none)) ∧
      (s.dev.mode = .boot → s.dev.Steady → Completes (.warm dt m 0xC3A5) s fun t =>
        t.mode = .boot ∧ t.flag DEV_RESET_KEY_ERR = false) ∧
      ∀ key < 0x10000, key ≠ 0xC3A5 → s.dev.Steady →
        Completes (.soft dt m key) s (fun t => t.mode = s.dev.mode ∧ t.flag DEV_RESET_KEY_ERR = true) ∧
        Completes (.warm dt m key) s (fun t => t.mode = s.dev.mode ∧ t.flag DEV_RESET_KEY_ERR = true)) ∧
    (s.dev.boot.wdog = true → s.dev.mode ≠ .boot → s.dev.mode ≠ .reset → Effects (.wdogResetStart dt) s fun e =>
      e.mode = .reset ∧ e.resetKind = .wdog ∧ e.priorMode = w.underMode ∧ e.boot.wdog = false ∧
      e.rd ⟨rDEV_RESET_CAUSE, 4, 4⟩ = 1 ∧ e.nvm = s.dev.nvm ∧ e.sram = w.sram) ∧
    (s.dev.mode = .boot → Effects (.wdogResetStart dt) s fun e => e = s.dev.advance dt) ∧
    ∀ m key, m < 7 → s.dev.mode = .boot → s.dev.Steady → Completes (.warm dt m key) s fun t =>
      t.mode = .boot ∧ t.flag HOST_ERR_BOOT = true ∧ t.word rDEV_RESET_CAUSE = s.dev.word rDEV_RESET_CAUSE

/-- A reset pulse ends (13 R344, R346, R347, R350): POR and PIN latch the straps and enter BOOT at its first stage, SOFT enters
BOOT at the scan, WARM and WDOG return to the mode before; a POR that ends with RESET_N low goes on as a pin reset.
(The model's choices and readings in it: log 94.) -/
def Obligations.ResetPulsesEnd : Prop :=
  ∀ (s : State) (dt : Nat), s.dev.mode = .reset →
    (∀ src addr, s.dev.resetKind = .por → s.dev.Steady → Completes (.porRelease dt src addr false) s fun t =>
      t.mode = .boot ∧ t.stage = 0 ∧ t.boot.strap = src % 4 ∧ t.boot.addrStrap = addr % 4) ∧
    (∀ src addr, s.dev.resetKind = .por → s.dev.Steady → Completes (.porRelease dt src addr true) s fun t =>
      t.mode = .reset ∧ t.resetKind = .pin ∧ t.boot.pinLow = true ∧ t.rd ⟨rDEV_RESET_CAUSE, 1, 1⟩ = 1) ∧
    (∀ src addr, s.dev.resetKind = .pin → s.dev.Steady → Completes (.pinResetRelease dt src addr) s fun t =>
      t.mode = .boot ∧ t.stage = 0 ∧ t.boot.strap = src % 4 ∧ t.boot.addrStrap = addr % 4 ∧ t.boot.pinLow = false) ∧
    (s.dev.resetKind = .soft → s.dev.Steady → Completes (.resetPulseEnd dt) s fun t =>
      t.mode = .boot ∧ t.stage = if s.dev.boot.strap = 1 then 5 else 3) ∧
    (s.dev.resetKind = .warm ∨ s.dev.resetKind = .wdog → Effects (.resetPulseEnd dt) s fun e =>
      e.mode = s.dev.priorMode ∧ e.boot.kick = s.dev.clk.tclk + dt)

/-! ### Host access (chapter 10) -/

/-- A register write (10 R266, R275): the RW bits land in the live word, limited to their range, a counter with the
increments of the edge added, the RWS bits in the shadow with PEND of their group, both but for bits that the hardware has set
on the edge, a per-master register in the master's own copy; nothing else changes but the collector's own status, the RANGE
bits of limited fields, and EVT.LAMP where a lamp test begins. The configuration of a claimed channel is not written. (The
model's choices and readings in it: log 19, 21, 205.) -/
def Obligations.RegisterWriteLandsByClass : Prop :=
  ∀ (s : State) (dt m a w : Nat) (d : Dev), s.dev.Grants m a → s.dev.Steady → a < 2 ^ 24 → w < 2 ^ 32 →
    d = (s.dev.rejoin true dt).advance dt →
    (∀ r x, s.dev.Ordinary a r → x = limitRw a (mergeMask (s.dev.word a).toNat w (andNot r.rw (d.hwBits a))) →
      Completes (.registerWrite dt m a w) s fun t =>
        (r.rw ≠ 0 → t.word a = Word.of (x.1 + d.counted a)) ∧
        (r.rws ≠ 0 →
          t.shWord a = Word.of (mergeMask (s.dev.shWord a).toNat w (andNot r.rws (d.hwBits a))) ∧
          ∀ g, groupOf r a = some g → (t.rd DEV_UPDATE_PEND).testBit g = true) ∧
        (∀ b, b ≠ a → t.shWord b = s.dev.shWord b) ∧
        (∀ b, b ≠ a → b ≠ rDEV_UPDATE → (∀ f ∈ x.2, f.addr ≠ b) → b ≠ rFLT_STAT → b ≠ rFLT_INJ_STAT → b ≠ rPAST_STAT →
          b ≠ rCRAFT_EVT → t.word b = s.dev.word b) ∧
        t.sram = s.dev.sram ∧ t.nvm = s.dev.nvm) ∧
    (∀ r, rowAt a = some r → r.perMaster = true → a < 0x0F0000 → Completes (.registerWrite dt m a w) s fun t =>
      t.pmWord m a = Word.of (mergeMask (s.dev.pmWord m a).toNat w r.rw) ∧ ∀ b, t.shWord b = s.dev.shWord b) ∧
    (s.dev.claimedReg a = true → (rowAt a).isSome = true → Completes (.registerWrite dt m a w) s fun t =>
      t.word a = s.dev.word a ∧ t.shWord a = s.dev.shWord a ∧ t.flag MEAS_ERR_LOOP_OWNED = true)

/-- A refused write (10 R265): one bit of HOST_ERR, the first reason that applies, the count, and HOST_ACCESS; no register
outside those and the collector's changes, and no memory. -/
def Obligations.RefusedWriteChangesNothingElse : Prop :=
  ∀ (s : State) (dt m a w bit : Nat), s.dev.mode ≠ .reset → a < 2 ^ 24 → w < 2 ^ 32 → s.dev.writeRefusal m a = some bit →
    (Effects (.registerWrite dt m a w) s fun e =>
      e.flag ⟨rHOST_ERR, bit, bit⟩ = true ∧
      e.rd HOST_REFUSED_CNT_COUNT = (s.dev.rd HOST_REFUSED_CNT_COUNT + 1) % 2 ^ 32 ∧ Fired 16 s.dev e ∧
      OnlyRegs (fun b => b = rHOST_ERR ∨ b = rHOST_ERR_CAP ∨ b = rHOST_REFUSED_CNT ∨ firingAt b) s.dev e) ∧
    (a % 4 ≠ 0 → bit = 1) ∧
    (a % 4 = 0 → mapped a = false → bit = 2) ∧
    (a % 4 = 0 → mapped a = true → s.dev.mode = .boot → m ≠ 7 → bit = 6) ∧
    (a % 4 = 0 → mapped a = true → s.dev.mode ≠ .boot → s.dev.crookLocks a = true → bit = 7) ∧
    (a % 4 = 0 → mapped a = true → s.dev.mode ≠ .boot → s.dev.crookLocks a = false → bit = 0)

/-- Sequence-clear registers (10 R273): SEQ advances by 1 modulo 256, once, at an LCLK edge at which the set condition of
some of its bits occurs; a write clears the bits written with 1 when its SEQ is the register's as it stood before the edge,
but for bits that set on the edge, and leaves SEQ; with another SEQ and a 1 it clears nothing, counts, and sets STALE; with
another SEQ and no 1 it does nothing.  CRAFT_EVT.LAMP stands while a lamp test is on (14 R374; the model's reading, log 205). -/
def Obligations.SequenceClearNeedsTheCurrentSequence : Prop :=
  (∀ (d : Dev) (a mask : Nat),
    bitsOf ((d.evtMask a mask).word a).toNat 31 24 =
      (if d.movedSeq a then bitsOf (d.word a).toNat 31 24 else (bitsOf (d.word a).toNat 31 24 + 1) % 256) ∧
    (d.evtMask a mask).movedSeq a = true ∧ ∀ n, (d.advance (n + 4)).movedSeq a = false) ∧
  ∀ (s : State) (dt m a w : Nat) (r : RegRow), s.dev.Grants m a → s.dev.Steady → a < 0x0F0000 → w < 2 ^ 32 →
    (s.dev.lampTest = true → a = rCRAFT_EVT → Completes (.sqcClearWrite dt m a w) s fun t => t.flag CRAFT_EVT_LAMP = true) ∧
    (rowAt a = some r → r.perMaster = false → r.sqc ≠ 0 → r.rw = 0 → (a = rCRAFT_EVT → s.dev.lampTest = false) →
    (bitsOf w 31 24 = (s.dev.advance dt).seqBefore a → Completes (.sqcClearWrite dt m a w) s fun t =>
      t.word a = Word.of (andNot (s.dev.word a).toNat (andNot (w % 2 ^ 24 &&& r.sqc) ((s.dev.advance dt).setNow a))) ∧
      t.rd HOST_STALE_CNT_COUNT = s.dev.rd HOST_STALE_CNT_COUNT) ∧
    (bitsOf w 31 24 ≠ (s.dev.advance dt).seqBefore a → w % 2 ^ 24 = 0 → Completes (.sqcClearWrite dt m a w) s fun t =>
      t.word a = s.dev.word a ∧ t.rd HOST_STALE_CNT_COUNT = s.dev.rd HOST_STALE_CNT_COUNT) ∧
    (bitsOf w 31 24 ≠ (s.dev.advance dt).seqBefore a → w % 2 ^ 24 ≠ 0 → Completes (.sqcClearWrite dt m a w) s fun t =>
      (a ≠ rHOST_ERR → t.word a = s.dev.word a) ∧
      (∀ k < 24, (s.dev.word a).toNat.testBit k = true → (t.word a).toNat.testBit k = true) ∧ t.flag HOST_ERR_STALE = true ∧
      t.rd HOST_STALE_CNT_COUNT = (s.dev.rd HOST_STALE_CNT_COUNT + 1) % 2 ^ 32))

/-- Complement pairs (00 R13; 10 R267). The pair of PAD_n_SPO: the first half of a master waits, in no register; its
complement from the same master makes both halves the pair; any other second half, and one whose master has no first half open,
whatever another master has written, sets CPL_ERR and changes neither. The
quartets of PAD_n_HMODEL and PAD_n_SFO: an agreed _LO pair is held for its master and changes no register; an agreed _HI pair
makes it and the _LO value held, or else the one in force, the quartet; a second half that does not agree sets CPL_ERR and
changes none. -/
def Obligations.ComplementPairIsAcceptedWhole : Prop :=
  ∀ (s : State) (dt m n v w : Nat), n < 16 → v < 2 ^ 32 → w < 2 ^ 32 → s.dev.Steady →
    (∀ a, a = rPAD_HMODEL_LO n ∨ a = rPAD_SFO_LO n →
      (∀ b, b = a ∨ b = a + 4 → s.dev.Grants m b → Completes (.cplHalfWrite dt m b v) s fun t =>
        t.firstHalf m b = some v ∧ t.word b = s.dev.word b) ∧
      (s.dev.Grants m (a + 8) → s.dev.firstHalf m a = some v →
        (w = not32 v → Completes (.cplHalfWrite dt m (a + 8) w) s fun t =>
          t.heldLo m a = v ∧ t.firstHalf m a = none ∧ ∀ k < 4, t.word (a + 4 * k) = s.dev.word (a + 4 * k)) ∧
        (w ≠ not32 v → Completes (.cplHalfWrite dt m (a + 8) w) s fun t =>
          t.flag (PAD_ERR_CPL_ERR n) = true ∧ t.firstHalf m a = none ∧ t.heldLo m a = s.dev.heldLo m a ∧
          ∀ k < 4, t.word (a + 4 * k) = s.dev.word (a + 4 * k))) ∧
      (s.dev.Grants m (a + 12) → s.dev.firstHalf m (a + 4) = some v →
        (∀ lo, lo = s.dev.heldLo m a → w = not32 v → Completes (.cplHalfWrite dt m (a + 12) w) s fun t =>
          t.word a = Word.of lo ∧ t.word (a + 4) = Word.of v ∧ t.word (a + 8) = Word.of (not32 lo) ∧
          t.word (a + 12) = Word.of w ∧ t.firstHalf m (a + 4) = none) ∧
        (w ≠ not32 v → Completes (.cplHalfWrite dt m (a + 12) w) s fun t =>
          t.flag (PAD_ERR_CPL_ERR n) = true ∧ t.firstHalf m (a + 4) = none ∧
          ∀ k < 4, t.word (a + 4 * k) = s.dev.word (a + 4 * k)))) ∧
    (∀ a k, (a = rPAD_SPO n ∧ k = 4) ∨ ((a = rPAD_HMODEL_LO n ∨ a = rPAD_SFO_LO n ∨ a = rPAD_HMODEL_LO n + 4 ∨ a = rPAD_SFO_LO n + 4) ∧ k = 8) →
      s.dev.Grants m (a + k) → s.dev.firstHalf m a = none → Completes (.cplHalfWrite dt m (a + k) w) s fun t =>
        t.flag (PAD_ERR_CPL_ERR n) = true ∧ t.word a = s.dev.word a ∧ t.word (a + k) = s.dev.word (a + k) ∧
        ∀ o < 8, o ≠ m → t.firstHalf o a = s.dev.firstHalf o a) ∧
    (s.dev.Grants m (rPAD_SPO n) → Completes (.cplHalfWrite dt m (rPAD_SPO n) v) s fun t =>
      t.firstHalf m (rPAD_SPO n) = some v ∧ t.word (rPAD_SPO n) = s.dev.word (rPAD_SPO n)) ∧
    (s.dev.Grants m (rPAD_SPO_C n) → s.dev.firstHalf m (rPAD_SPO n) = some v →
      (w = not32 v → Completes (.cplHalfWrite dt m (rPAD_SPO_C n) w) s fun t =>
        t.word (rPAD_SPO n) = Word.of v ∧ t.word (rPAD_SPO_C n) = Word.of w ∧ t.firstHalf m (rPAD_SPO n) = none) ∧
      (w ≠ not32 v → Completes (.cplHalfWrite dt m (rPAD_SPO_C n) w) s fun t =>
        t.word (rPAD_SPO n) = s.dev.word (rPAD_SPO n) ∧ t.flag (PAD_ERR_CPL_ERR n) = true ∧
        t.firstHalf m (rPAD_SPO n) = none))

/-- Strobes (10 R268, R269; 08 R223). An update copies the shadows of its groups to their live registers, within their
ranges, and writes no register of another group. A write of GROUPS, an edge of the strobe pin and a strobe whose named time
has come are each an update of their groups at their edge, one with any other update of that edge, but for groups routed to the
pasture, which wait for their named time; the groups applied leave PEND. (The model's choices and readings in it: log 19, 95,
152.) -/
def Obligations.StrobesApplyTheirGroups : Prop :=
  (∀ (d : Dev) (mask a : Nat) (r : RegRow), mask < 256 → (d.updateAddrs mask).Nodup →
    (PlainShadow a r → inGroups mask a = true → d.shWord a ≠ d.word a →
      (d.copyGroups mask).word a =
        Word.of (d.codesApplied a (limitWord a (mergeMask (d.word a).toNat (d.shWord a).toNat r.rws)).1)) ∧
    (rowAt a = some r → r.sqc = 0 → inGroups mask a = false → a ≠ rDEV_UPDATE → (d.copyGroups mask).word a = d.word a)) ∧
  ∀ (s : State) (dt m mask : Nat) (w u : Dev), mask < 256 → w = (s.dev.rejoin true dt).advance dt →
    u = (s.dev.rejoin false dt).advance dt →
    (s.dev.Grants m rDEV_UPDATE → Effects (.updateStrobeWrite dt m mask) s fun e =>
      PendLess s.dev e fun g => mask.testBit g && !(s.dev.rd DEV_UPDATE_CFG_PAST_MASK).testBit g) ∧
    (s.dev.Grants m rDEV_UPDATE → mask &&& s.dev.rd DEV_UPDATE_CFG_PAST_MASK = 0 →
      Effects (.updateStrobeWrite dt m mask) s fun e => e = (w.update mask).accessEdge) ∧
    (s.dev.Grants m rDEV_UPDATE → mask ≠ 0 → mask &&& s.dev.rd DEV_UPDATE_CFG_PAST_MASK = mask →
      Effects (.updateStrobeWrite dt m mask) s fun e =>
        e.past.waiting = s.dev.past.waiting ++ [⟨false, s.dev.pastIndex, mask, w.nowU + s.dev.pastLead⟩]) ∧
    (∀ pin falling, pin < 8 → s.dev.applied = true → s.dev.flag DEV_UPDATE_CFG_STRB_IN_EN = true →
      s.dev.rd DEV_UPDATE_CFG_STRB_IN_PIN = pin → s.dev.flag DEV_UPDATE_CFG_STRB_IN_EDGE = falling →
      s.dev.rd (CRAFT_GPIO_FUNC pin) = 2 → Effects (.gpioStrobeEdge dt pin falling) s fun e =>
        (PendLess s.dev e fun g => (s.dev.rd DEV_UPDATE_CFG_GPIO_MASK).testBit g &&
          !(s.dev.rd DEV_UPDATE_CFG_PAST_MASK).testBit g) ∧
        (s.dev.rd DEV_UPDATE_CFG_GPIO_MASK &&& s.dev.rd DEV_UPDATE_CFG_PAST_MASK = 0 →
          e = (u.gpioSeen pin !falling).update (s.dev.rd DEV_UPDATE_CFG_GPIO_MASK))) ∧
    (∀ x, s.dev.applied = true →
      (s.dev.past.waiting.filter fun n => !n.muster && decide (n.at_ ≤ u.nowU)) = [x] →
      Effects (.pastStrobeApply dt) s fun e =>
        e = Dev.update x.value { u with past := { u.past with
          waiting := s.dev.past.waiting.filter fun n => n.muster || decide (u.nowU < n.at_) } }) ∧
    (s.dev.applied = true → Effects (.pastStrobeApply dt) s fun e =>
      PendLess s.dev e fun g => s.dev.past.waiting.any fun n =>
        !n.muster && decide (n.at_ ≤ u.nowU) && n.value.testBit g)

/-- Musters (10 R271, R272; 08 R223, R224) and the crook lock (10 R274): the held copies are of the words as they stood
before the muster's edge, and an edge makes one copy (10 R275).  (The model's choices and readings in it: log 19, 95, 96.) -/
def Obligations.MustersCopyTheHeldBank : Prop :=
  ∀ (s : State) (dt m : Nat) (w u : Dev), s.dev.Calm → w = (s.dev.rejoin true dt).advance dt →
    u = (s.dev.rejoin false dt).advance dt →
    (s.dev.Grants m rDEV_MUSTER → s.dev.flag DEV_MUSTER_PEND = false →
      ((∀ p, s.dev.past.mustered = some p → p.1 ≠ w.clk.edge) → Completes (.musterDevice dt m) s (fun t =>
        t.rd DEV_MUSTER_SEQ_SEQ = (s.dev.rd DEV_MUSTER_SEQ_SEQ + 1) % 2 ^ 32 ∧
        t.rd DEV_MUSTER_SEC_SEC = uSec w.nowU % 2 ^ 32 ∧
        t.rd DEV_MUSTER_NS_NS = uNs w.nowU ∧
        ∀ a ∈ musterAddrs, a ≠ rDEV_MUSTER → (∀ (d : Dev) (w : Nat), d.composed a w = w) →
          t.held.get a 0 = w.oldWord a)) ∧
      (∀ p, s.dev.past.mustered = some p → p.1 = w.clk.edge → Completes (.musterDevice dt m) s (fun t =>
        t.rd DEV_MUSTER_SEQ_SEQ = s.dev.rd DEV_MUSTER_SEQ_SEQ ∧ t.held = s.dev.held)) ∧
      Completes (.musterPasture dt m) s (fun t =>
        t.flag DEV_MUSTER_PEND = true ∧ t.rd DEV_MUSTER_SEQ_SEQ = s.dev.rd DEV_MUSTER_SEQ_SEQ ∧
        t.past.waiting = s.dev.past.waiting ++ [⟨true, s.dev.pastIndex,
          (s.dev.rd DEV_MUSTER_SEQ_SEQ + 1) % 2 ^ 32, w.nowU + s.dev.pastLead⟩])) ∧
    (s.dev.Grants m rDEV_MUSTER → s.dev.flag DEV_MUSTER_PEND = true →
      Completes (.musterDevice dt m) s (fun t => t.flag HOST_ERR_DEV_CMD_REJ = true ∧ t.held = s.dev.held) ∧
      Completes (.musterPasture dt m) s (fun t => t.flag HOST_ERR_DEV_CMD_REJ = true ∧ t.held = s.dev.held)) ∧
    (∀ n, s.dev.applied = true →
      (∀ p, s.dev.past.mustered = some p → p.1 = u.clk.edge → n.src < p.2) →
      (s.dev.past.waiting.filter fun x => x.muster && decide (x.at_ ≤ u.nowU)) = [n] →
      Completes (.pastMusterApply dt) s fun t =>
        t.rd DEV_MUSTER_SEQ_SEQ = n.value % 2 ^ 32 ∧ (n.src = s.dev.pastIndex → t.flag DEV_MUSTER_PEND = false) ∧
        t.past.waiting = s.dev.past.waiting.filter fun x => !x.muster || decide (u.nowU < x.at_)) ∧
    (s.dev.Grants m rDEV_CROOK → Completes (.crookLock dt m) s fun t => t.flag DEV_CROOK_LOCK = true)

/-- SPI frames (10 R253 to R258): a WRITE stores its words, a READ returns them, the CRC forms only under a right CRC; an
unknown command and a stall are counted errors. (The model's choices and readings in it: log 3, 110, 111.) -/
def Obligations.SpiFramesMoveWords : Prop :=
  ∀ (s : State) (dt a : Nat), s.dev.applied = true →
    (∀ ws, inShdata a ws.length → s.dev.flag HOST_CFG_SPI_CRC_REQ = false → Effects (.spiWrite dt a ws 0) s fun e =>
      WroteSram s.dev e a ws ∧ e.rd HOST_SPI_FRAMES_COUNT = (s.dev.rd HOST_SPI_FRAMES_COUNT + 1) % 2 ^ 32 ∧
      e.front.lastErr = false) ∧
    (∀ n ahead, inShdata a n → s.dev.flag HOST_CFG_SPI_CRC_REQ = false → Effects (.spiRead dt a ⟨n, ahead⟩) s fun e =>
      e.rsp = (List.range n).map (fun i => Word.of (s.dev.sramWord (a + 4 * i))) ∧ e.sram = s.dev.sram) ∧
    (∀ ws, inShdata a ws.length → 1 ≤ ws.length → ws.length ≤ 64 →
      (∀ crc, crc = writeCrc a ws → Effects (.spiWriteCrc dt a ws 8 crc) s fun e => WroteSram s.dev e a ws) ∧
      (∀ crc, crc ≠ writeCrc a ws → Effects (.spiWriteCrc dt a ws 8 crc) s fun e =>
        e.sram = s.dev.sram ∧ e.flag HOST_ERR_CRC = true ∧ e.front.lastErr = true ∧
        e.rd HOST_CRC_CNT_COUNT = (s.dev.rd HOST_CRC_CNT_COUNT + 1) % 2 ^ 32)) ∧
    (∀ count n ahead ws, inShdata a count → 1 ≤ count → count ≤ 64 →
      ws = (List.range (min n count)).map (fun i => s.dev.sramWord (a + 4 * i)) →
      (count ≤ n → Effects (.spiReadCrc dt a ⟨count, n, ahead⟩) s fun e =>
        e.rsp = (ws ++ [crc8 (wireHead 0x1B a ++ [count] ++ ws.flatMap wireBytes)]).map Word.of) ∧
      (n < count → Effects (.spiReadCrc dt a ⟨count, n, ahead⟩) s fun e => e.rsp = ws.map Word.of)) ∧
    (∀ cmd, s.dev.spiKnown cmd = false → Effects (.spiUnknownCmd dt cmd) s fun e =>
      e.flag HOST_ERR_UNKNOWN_CMD = true ∧ e.front.lastErr = true ∧
      e.rd HOST_SPI_FRAMES_COUNT = (s.dev.rd HOST_SPI_FRAMES_COUNT + 1) % 2 ^ 32) ∧
    (∀ part ws, part ≠ SpiPart.write → Effects (.spiStallTimeout dt part a ws) s fun e =>
      e.sram = s.dev.sram ∧ e.flag HOST_ERR_TIMEOUT = true ∧ e.front.lastErr = true ∧
      e.rd HOST_TMO_CNT_COUNT = (s.dev.rd HOST_TMO_CNT_COUNT + 1) % 2 ^ 32) ∧
    (∀ ws, inShdata a ws.length → s.dev.flag HOST_CFG_SPI_CRC_REQ = false →
      Effects (.spiStallTimeout dt .write a ws) s fun e =>
        WroteSram s.dev e a ws ∧ e.flag HOST_ERR_TIMEOUT = true ∧
        e.rd HOST_TMO_CNT_COUNT = (s.dev.rd HOST_TMO_CNT_COUNT + 1) % 2 ^ 32)

/-- I2C transactions (10 R259 to R262): one for another target is ignored; words written at the pointer are acknowledged and
the pointer moves on; a read returns words from the pointer; an unaligned address is refused; a stall is a counted error.
(The model's choices and readings in it: log 3, 110.) -/
def Obligations.I2cTransactionsMoveWords : Prop :=
  ∀ (s : State) (dt a me : Nat), s.dev.applied = true → me = 0x58 + s.dev.boot.addrStrap →
    (∀ c target, target ≠ me → (∃ ws left, c = Instr.i2cWrite dt ⟨target, a⟩ ws left) ∨ (∃ at_ n, c = .i2cRead dt ⟨target, at_⟩ n) ∨
        (∃ x, c = .i2cStallTimeout dt target x) → Effects c s fun e => e = s.dev.advance dt) ∧
    (∀ ws, inShdata a ws.length → Effects (.i2cWrite dt ⟨me, a⟩ ws 0) s fun e =>
      WroteSram s.dev e a ws ∧ e.front.i2cAck = ws.length ∧ e.front.i2cPtr = a + 4 * ws.length ∧
      e.rd HOST_I2C_XFERS_COUNT = (s.dev.rd HOST_I2C_XFERS_COUNT + 1) % 2 ^ 32) ∧
    (∀ ws left, a < 2 ^ 24 → a % 4 ≠ 0 → Effects (.i2cWrite dt ⟨me, a⟩ ws left) s fun e =>
      e.sram = s.dev.sram ∧ e.front.i2cAck = 0 ∧ e.flag HOST_ERR_ALIGN = true) ∧
    (∀ n, inShdata a n → Effects (.i2cRead dt ⟨me, some a⟩ n) s fun e =>
      e.rsp = (List.range n).map (fun i => Word.of (s.dev.sramWord (a + 4 * i))) ∧ e.front.i2cPtr = a + 4 * n) ∧
    (∀ n, s.dev.front.i2cPtr = a → inShdata a n → Effects (.i2cRead dt ⟨me, none⟩ n) s fun e =>
      e.rsp = (List.range n).map (fun i => Word.of (s.dev.sramWord (a + 4 * i))) ∧ e.front.i2cPtr = a + 4 * n) ∧
    (∀ x, (∀ a ws, x ≠ I2cXfer.write a ws) → Effects (.i2cStallTimeout dt me x) s fun e =>
      e.sram = s.dev.sram ∧ e.flag HOST_ERR_TIMEOUT = true ∧
      e.rd HOST_TMO_CNT_COUNT = (s.dev.rd HOST_TMO_CNT_COUNT + 1) % 2 ^ 32) ∧
    ∀ ws, inShdata a ws.length → Effects (.i2cStallTimeout dt me (.write a ws)) s fun e =>
      WroteSram s.dev e a ws ∧ e.flag HOST_ERR_TIMEOUT = true ∧
      e.rd HOST_TMO_CNT_COUNT = (s.dev.rd HOST_TMO_CNT_COUNT + 1) % 2 ^ 32

/-! ### The mailbox (10 R277 to R280) -/

/-- A mailbox request: a free mailbox takes it and runs its service, a busy one only notes REJECT; an unknown service ends at
once; KEY_CHANGE is judged at its acceptance. (The model's choices and readings in it: log 104, 105.) -/
def Obligations.MailboxRequests : Prop :=
  ∀ (s : State) (dt m tag : Nat) (badA badB : List Nat), m < 8 → tag < 256 → s.dev.Grants m rDEV_MBX_CMD →
    (∀ c svc, (c, svc) ∈ [(Instr.info dt m tag, 0), (.align dt m tag, 1), (.learn dt m tag, 2), (.dump dt m tag, 3),
        (.imgCommit dt m ⟨tag, badA, badB⟩, 4), (.keyChange dt m tag, 5), (.selftest dt m tag, 6)] →
      (s.dev.flag DEV_MBX_STAT_BUSY = false → Effects c s fun e =>
        e.flag DEV_MBX_STAT_BUSY = true ∧ e.flag DEV_MBX_STAT_DONE = false ∧ e.rd DEV_MBX_STAT_SERVICE = svc ∧
        e.rd DEV_MBX_STAT_TAG = tag ∧ e.rd DEV_MBX_STAT_MASTER = m ∧ e.mbx.run = s.dev.mbx.run + 1) ∧
      (s.dev.flag DEV_MBX_STAT_BUSY = true → Effects c s fun e =>
        e.flag DEV_MBX_EVT_REJECT = true ∧ e.word rDEV_MBX_STAT = s.dev.word rDEV_MBX_STAT ∧ e.mbx = s.dev.mbx)) ∧
    (∀ svc, 6 < svc → svc < 256 →
      (s.dev.flag DEV_MBX_STAT_BUSY = false → Effects (.unknownService dt m svc tag) s fun e =>
        e.flag DEV_MBX_STAT_BUSY = false ∧ e.flag DEV_MBX_STAT_DONE = true ∧ e.rd DEV_MBX_STAT_CODE = 1 ∧
        e.rd DEV_MBX_STAT_SERVICE = svc ∧ e.rd DEV_MBX_STAT_TAG = tag) ∧
      (s.dev.flag DEV_MBX_STAT_BUSY = true → Effects (.unknownService dt m svc tag) s fun e =>
        e.flag DEV_MBX_EVT_REJECT = true ∧ e.word rDEV_MBX_STAT = s.dev.word rDEV_MBX_STAT)) ∧
    (s.dev.flag DEV_MBX_STAT_BUSY = false → s.dev.mode ≠ .service → Effects (.keyChange dt m tag) s fun e =>
      e.mbx.out = some ⟨3, []⟩ ∧ e.nvmc = s.dev.nvmc) ∧
    (∀ region kind, region ≤ 5 → kind ≤ 1 → s.dev.flag DEV_MBX_STAT_BUSY = false → s.dev.mode = .service →
      s.dev.flag DEV_CROOK_LOCK = false → s.dev.flag NVM_STAT_LOCKOUT = false →
      s.dev.rd (DEV_MBX_ARG_ARG 0) = region + 256 * kind → s.dev.rd (DEV_MBX_ARG_ARG 5) = 0 →
      mkGroup (s.dev.rd (DEV_MBX_ARG_ARG 1)) (s.dev.rd (DEV_MBX_ARG_ARG 2)) = s.dev.keyOf region kind →
      Effects (.keyChange dt m tag) s fun e => e.mbx.out = none ∧
        e.nvmc.queue = s.dev.nvmc.queue ++ [NvmWork.new (.key region kind
          (mkGroup (s.dev.rd (DEV_MBX_ARG_ARG 3)) (s.dev.rd (DEV_MBX_ARG_ARG 4))) (s.dev.mbx.run + 1))])

/-- A service ends: by ABORT where the service allows it, by its completion with its outcome or what the core has found, or by
its timeout. (The model's choices and readings in it: log 105, 109, 156.) -/
def Obligations.MailboxEnds : Prop :=
  ∀ (s : State) (dt m : Nat),
    (s.dev.Grants m rDEV_MBX_CMD →
      (s.dev.flag DEV_MBX_STAT_BUSY = true → s.dev.rd DEV_MBX_STAT_SERVICE ∈ [1, 3, 6] →
        Effects (.mbxAbort dt m) s fun e => e.flag DEV_MBX_STAT_BUSY = false ∧ e.flag DEV_MBX_STAT_DONE = true ∧
          e.rd DEV_MBX_STAT_CODE = 0x11 ∧ e.flag DEV_MBX_EVT_DONE = true) ∧
      (s.dev.flag DEV_MBX_STAT_BUSY = false ∨ s.dev.rd DEV_MBX_STAT_SERVICE ∉ [1, 3, 6] →
        Effects (.mbxAbort dt m) s fun e => e.flag DEV_MBX_EVT_REJECT = true ∧
          e.word rDEV_MBX_STAT = s.dev.word rDEV_MBX_STAT)) ∧
    (s.dev.flag DEV_MBX_STAT_BUSY = true →
      (∀ found o, s.dev.mbx.out = some o → o.code < 256 → o.code ≠ 0x0D → Effects (.mbxServiceDone dt found) s fun e =>
        e.flag DEV_MBX_STAT_BUSY = false ∧ e.flag DEV_MBX_STAT_DONE = true ∧ e.rd DEV_MBX_STAT_CODE = o.code ∧
        e.flag DEV_MBX_EVT_DONE = true ∧ ∀ k < 4, e.rd (DEV_MBX_RES_RES k) = o.res.getD k 0 % 2 ^ 32) ∧
      (∀ found, s.dev.mbx.out = none → s.dev.rd DEV_MBX_STAT_SERVICE = 0 → Effects (.mbxServiceDone dt found) s fun e =>
        e.flag DEV_MBX_STAT_BUSY = false ∧ e.rd DEV_MBX_STAT_CODE = 0 ∧ e.rd (DEV_MBX_RES_RES 0) = 1 ∧
        e.rd (DEV_MBX_RES_RES 1) = b2n s.dev.boot.patchRuns) ∧
      (∀ found, s.dev.mbx.out = none → s.dev.rd DEV_MBX_STAT_SERVICE = 2 → Effects (.mbxServiceDone dt found) s fun e =>
        e.flag DEV_MBX_STAT_BUSY = false ∧ e.rd DEV_MBX_STAT_CODE = 0) ∧
      (∀ found, s.dev.mbx.out = none → s.dev.rd DEV_MBX_STAT_SERVICE = 6 → found.failed &&& s.dev.mbxArg 0 = 0 →
        Effects (.mbxServiceDone dt found) s fun e => e.flag DEV_MBX_STAT_BUSY = false ∧ e.rd DEV_MBX_STAT_CODE = 0) ∧
      (∀ found, s.dev.mbx.out = none → s.dev.rd DEV_MBX_STAT_SERVICE = 6 → found.failed &&& s.dev.mbxArg 0 ≠ 0 →
        Effects (.mbxServiceDone dt found) s fun e => e.flag DEV_MBX_STAT_BUSY = false ∧ e.rd DEV_MBX_STAT_CODE = 0x0F ∧
          e.rd (DEV_MBX_RES_RES 0) = (found.failed &&& s.dev.mbxArg 0) % 2 ^ 32 ∧ Fired 56 s.dev e) ∧
      Effects (.mbxTimeout dt) s fun e => e.flag DEV_MBX_STAT_BUSY = false ∧ e.rd DEV_MBX_STAT_CODE = 7 ∧
        e.flag DEV_MBX_EVT_TIMEOUT = true ∧ Fired 17 s.dev e)

/-! ### The nonvolatile memory (chapter 12) -/

/-- NVM_CMD (12 R310, R315): a busy host interface rejects; a target outside the command's regions completes with REGION, a
closed WRITE key with KEY; otherwise the work joins the controller's queue and DONE clears.
(The model's choices and readings in it: log 133.) -/
def Obligations.NvmCommands : Prop :=
  ∀ (s : State) (dt m page : Nat), page < 512 → s.dev.Grants m rNVM_CMD →
    (s.dev.nvmCmdBusy = true →
      ∀ c, c ∈ [Instr.erasePage dt m page, .programPage dt m page, .eraseRegion dt m 1, .nvmCmdBadOp dt m 0 1 page] →
        Effects c s fun e => e.flag ⟨rNVM_EVT, 12, 12⟩ = true ∧ e.nvmc = s.dev.nvmc ∧
          e.word rNVM_RESULT = s.dev.word rNVM_RESULT) ∧
    (s.dev.nvmCmdBusy = false →
      (∀ c k, (c, k) ∈ [(Instr.erasePage dt m page, NvmKind.hostErase page page), (.programPage dt m page, .hostProgram page)] →
        (page < 305 ∨ 319 < page → Effects c s fun e =>
          e.flag NVM_RESULT_DONE = true ∧ e.rd NVM_RESULT_CODE = 3 ∧ e.nvmc = s.dev.nvmc) ∧
        (305 ≤ page → page ≤ 319 → s.dev.keyPasses m 5 1 = false → Effects c s fun e =>
          e.flag NVM_RESULT_DONE = true ∧ e.rd NVM_RESULT_CODE = 2 ∧ e.rd NVM_RESULT_PAGE = page ∧ e.nvmc = s.dev.nvmc) ∧
        (305 ≤ page → page ≤ 319 → s.dev.keyPasses m 5 1 = true → Effects c s fun e =>
          e.flag NVM_RESULT_DONE = false ∧ e.nvmc.queue = s.dev.nvmc.queue ++ [NvmWork.new k])) ∧
      (∀ region, region < 16 →
        (eraseRange region = none → Effects (.eraseRegion dt m region) s fun e =>
          e.flag NVM_RESULT_DONE = true ∧ e.rd NVM_RESULT_CODE = 3 ∧ e.nvmc = s.dev.nvmc) ∧
        (∀ a b, eraseRange region = some (a, b) → s.dev.keyPasses m region 1 = false →
          Effects (.eraseRegion dt m region) s fun e =>
            e.flag NVM_RESULT_DONE = true ∧ e.rd NVM_RESULT_CODE = 2 ∧ e.rd NVM_RESULT_PAGE = a ∧ e.nvmc = s.dev.nvmc) ∧
        (∀ a b, eraseRange region = some (a, b) → s.dev.keyPasses m region 1 = true →
          Effects (.eraseRegion dt m region) s fun e =>
            e.flag NVM_RESULT_DONE = false ∧ e.nvmc.queue = s.dev.nvmc.queue ++ [NvmWork.new (.hostErase a b)])) ∧
      ∀ op region, op < 8 → op = 0 ∨ 3 < op → Effects (.nvmCmdBadOp dt m op region page) s fun e =>
        e.flag NVM_RESULT_DONE = true ∧ e.rd NVM_RESULT_CODE = 3 ∧ e.nvmc = s.dev.nvmc)

/-- The NVM controller at work on a page erase and a page program of a host, by its supply check and its verification (12 R311,
R312, R315): an erase leaves its page all ones; a program that names a programmed group is refused whole with PROG_TWICE, and any
other puts the buffer's data in the page; a verification that fails ends the command with VERIFY_FAIL, and the page is not retried.
(The model's choices and readings in it: log 130, 134, 135.) -/
def Obligations.NvmController : Prop :=
  ∀ (s : State) (dt : Nat),
    (∀ inRange weak bad p q, s.dev.mode ≠ .reset → p ≤ q → q < 320 → s.dev.flag NVM_STAT_BUSY = false →
      s.dev.flag NVM_STAT_WAIT_POWER = false → s.dev.nvmc.due = [] → s.dev.nvmc.queue = [NvmWork.new (.hostErase p q)] →
      ((s.dev.advance dt).supplyOk inRange = true → Effects (.nvmWorkStart dt inRange weak bad) s fun e =>
        e.flag NVM_STAT_BUSY = true ∧ e.rd NVM_STAT_PAGE = p ∧ e.nvmc.queue = [] ∧
        ∀ a, ByteMem.get e.nvm 0xFF a =
          if pageAddr p ≤ a ∧ a < pageAddr p + 512 then 0xFF else ByteMem.get s.dev.nvm 0xFF a) ∧
      ((s.dev.advance dt).supplyOk inRange = false → Effects (.nvmWorkStart dt inRange weak bad) s fun e =>
        e.flag NVM_STAT_BUSY = false ∧ e.flag NVM_STAT_WAIT_POWER = true ∧ e.rd NVM_STAT_PAGE = p ∧ e.nvm = s.dev.nvm)) ∧
    (∀ inRange weak bad p, s.dev.mode ≠ .reset → 305 ≤ p → p ≤ 319 → s.dev.MemOk → s.dev.nvmDark = false →
      s.dev.flag NVM_STAT_BUSY = false → s.dev.flag NVM_STAT_WAIT_POWER = false → s.dev.nvmc.due = [] →
      s.dev.nvmc.queue = [NvmWork.new (.hostProgram p)] →
      ((∃ g < 64, s.dev.bufOnes g = false ∧ s.dev.erased (pageAddr p + 8 * g) = false) →
        Effects (.nvmWorkStart dt inRange weak bad) s fun e => e.flag NVM_RESULT_DONE = true ∧ e.rd NVM_RESULT_CODE = 4 ∧
          e.rd NVM_RESULT_PAGE = p ∧ e.flag NVM_STAT_BUSY = false ∧ e.nvm = s.dev.nvm) ∧
      ((∀ g < 64, s.dev.bufOnes g = false → s.dev.erased (pageAddr p + 8 * g) = true) →
        (s.dev.advance dt).supplyOk inRange = true → Effects (.nvmWorkStart dt inRange weak bad) s fun e =>
          e.flag NVM_STAT_BUSY = true ∧ e.rd NVM_STAT_OP = 2 ∧ e.rd NVM_STAT_PAGE = p ∧ e.nvmc.queue = [] ∧
          (∀ a, (∀ k < 512, a ≠ pageAddr p + k) → ByteMem.get e.nvm 0xFF a = ByteMem.get s.dev.nvm 0xFF a) ∧
          ∀ k < 512, ByteMem.get e.nvm 0xFF (pageAddr p + k) =
            if s.dev.bufOnes (k / 8) then ByteMem.get s.dev.nvm 0xFF (pageAddr p + k)
            else BitVec.ofNat 8 (s.dev.rd (NVM_BUF_DATA (k / 4)) / 256 ^ (k % 4)))) ∧
    (∀ op inRange, s.dev.nvmc.op = some op → s.dev.flag NVM_STAT_WAIT_POWER = true →
      (∀ a b step v c, s.dev.nvmc.cur = some ⟨.hostErase a b, step, [], v, c⟩ → a + step ≤ b → b < 320 →
        (s.dev.advance dt).supplyOk inRange = true → Effects (.nvmSupplyRetry dt inRange) s fun e =>
          e.flag NVM_STAT_BUSY = true ∧ e.flag NVM_STAT_WAIT_POWER = false ∧ e.rd NVM_STAT_PAGE = a + step ∧
          ∀ x, ByteMem.get e.nvm 0xFF x =
            if pageAddr (a + step) ≤ x ∧ x < pageAddr (a + step) + 512 then 0xFF else ByteMem.get s.dev.nvm 0xFF x) ∧
      ((s.dev.advance dt).supplyOk inRange = false → Effects (.nvmSupplyRetry dt inRange) s fun e =>
        e.flag NVM_STAT_WAIT_POWER = true ∧ e.nvm = s.dev.nvm) ∧
      ∀ a b step rest v c, s.dev.nvmc.cur = some ⟨.hostErase a b, step, rest, v, c⟩ →
        Effects (.nvmSupplyTimeout dt) s fun e => e.flag NVM_STAT_WAIT_POWER = false ∧ e.nvmc.op = none ∧ Fired 45 s.dev e ∧
          e.flag ⟨rNVM_EVT, 6, 6⟩ = true ∧ e.rd NVM_RESULT_CODE = 1 ∧ e.flag NVM_RESULT_DONE = true) ∧
    (∀ op p step v c, s.dev.nvmc.op = some op → s.dev.flag NVM_STAT_BUSY = true → s.dev.nvmc.rstDue = none →
      s.dev.nvmc.cur = some ⟨.hostProgram p, step, [], v, c⟩ → 0 < step →
      (Effects (.nvmOpDone dt true) s fun e => e.flag NVM_STAT_BUSY = false ∧ e.nvmc.op = none ∧
        e.flag NVM_RESULT_DONE = true ∧ e.rd NVM_RESULT_CODE = 0 ∧ e.nvm = s.dev.nvm) ∧
      Effects (.nvmOpDone dt false) s fun e => e.nvmc.op = none ∧ Fired 43 s.dev e ∧ e.flag ⟨rNVM_EVT, 5, 5⟩ = true ∧
        e.rd NVM_RESULT_CODE = 5 ∧ e.flag NVM_RESULT_DONE = true ∧ e.nvmc.queue = s.dev.nvmc.queue) ∧
    (∀ op a b step v c, s.dev.nvmc.op = some op → s.dev.flag NVM_STAT_BUSY = true → s.dev.nvmc.rstDue = none →
      s.dev.nvmc.cur = some ⟨.hostErase a b, step, [], v, c⟩ →
      (b < a + step → Effects (.nvmOpDone dt true) s fun e => e.flag NVM_STAT_BUSY = false ∧ e.nvmc.op = none ∧
        e.rd NVM_OPS_CNT_COUNT = (s.dev.rd NVM_OPS_CNT_COUNT + 1) % 2 ^ 32 ∧ e.flag NVM_RESULT_DONE = true ∧
        e.rd NVM_RESULT_CODE = 0 ∧ e.nvm = s.dev.nvm) ∧
      (a + step ≤ b → Effects (.nvmOpDone dt true) s fun e => e.flag NVM_STAT_BUSY = false ∧ e.nvmc.op = none ∧
        e.rd NVM_OPS_CNT_COUNT = (s.dev.rd NVM_OPS_CNT_COUNT + 1) % 2 ^ 32 ∧
        e.nvmc.queue = ⟨.hostErase a b, step, [], v, c⟩ :: s.dev.nvmc.queue) ∧
      Effects (.nvmOpDone dt false) s fun e => e.flag NVM_STAT_BUSY = false ∧ e.nvmc.op = none ∧ Fired 43 s.dev e ∧
        e.flag ⟨rNVM_EVT, 5, 5⟩ = true ∧ e.rd NVM_RESULT_CODE = 5 ∧ e.flag NVM_RESULT_DONE = true)

/-- Errors that reads of the array meet, and the patrol's steps (12 R309, R316 to R318): a weak page is erased and programmed back
with the same data in one operation, and counted and reported when that has verified. (The model's choices and readings in it: log
135, 201.) -/
def Obligations.NvmReadsAndPatrol : Prop :=
  ∀ (s : State) (dt : Nat),
    (∀ addr m type, s.dev.nvmDark = false →
      (Effects (.nvmEcc dt addr m type true) s fun e => Fired 40 s.dev e ∧ e.flag ⟨rNVM_EVT, 2, 2⟩ = true ∧
        e.rd NVM_DED_CNT_COUNT = (s.dev.rd NVM_DED_CNT_COUNT + 1) % 2 ^ 32) ∧
      Effects (.nvmEcc dt addr m type false) s fun e => e.rd FLT_SEQNO_COUNT = s.dev.rd FLT_SEQNO_COUNT ∧
        e.flag ⟨rNVM_EVT, 1, 1⟩ = true ∧ e.rd NVM_SEC_CNT_COUNT = (s.dev.rd NVM_SEC_CNT_COUNT + 1) % 2 ^ 32) ∧
    (s.dev.flag NVM_CTL_PATROL_EN = true → Effects (.patrolDue dt) s fun e =>
      e.nvmc.due = s.dev.nvmc.due ++ [⟨s.dev.clk.tclk + dt, false⟩]) ∧
    (s.dev.flag NVM_CTL_PATROL_EN = false → Effects (.patrolDue dt) s fun e => e.nvmc.due = s.dev.nvmc.due) ∧
    (∀ op p n v c, s.dev.nvmc.op = some op → s.dev.flag NVM_STAT_BUSY = true → s.dev.nvmc.rstDue = none →
      s.dev.nvmc.cur = some ⟨.refresh p n, 1, [], v, c⟩ → Effects (.nvmOpDone dt true) s fun e =>
        e.rd NVM_REFRESH_CNT_COUNT = (s.dev.rd NVM_REFRESH_CNT_COUNT + 1) % 2 ^ 32 ∧ e.flag ⟨rNVM_EVT, 3, 3⟩ = true ∧
        Fired 41 s.dev e ∧ e.nvm = s.dev.nvm ∧ NvmWork.new (.counter 5 1 1 false) ∈ e.nvmc.queue) ∧
    (∀ pre t post, (∀ u ∈ pre, u.late = true) → s.dev.nvmc.due = pre ++ ⟨t, false⟩ :: post →
      Effects (.patrolOverdue dt) s fun e => Fired 42 s.dev e ∧ e.nvmc.due = pre ++ ⟨t, true⟩ :: post) ∧
    ∀ inRange u rest, s.dev.flag NVM_STAT_BUSY = false → s.dev.flag NVM_STAT_WAIT_POWER = false →
      s.dev.nvmc.queue = [] → s.dev.nvmc.due = u :: rest → s.dev.mode ≠ .sleep → s.dev.mode ≠ .reset →
      s.dev.flag NVM_CNT_STAT_READY = true →
      (Effects (.nvmWorkStart dt inRange 0 []) s fun e => e.nvmc.due = rest ∧
        e.nvmc.queue = [NvmWork.new (.counter 5 1 1 false)] ∧ e.nvm = s.dev.nvm) ∧
      (s.dev.nvmDark = false → ∀ weak g bad, Effects (.nvmWorkStart dt inRange weak (g :: bad)) s fun e =>
        Fired 40 s.dev e ∧ e.nvmc.due = rest ∧ e.nvm = s.dev.nvm) ∧
      ∀ weak, 0 < weak → s.dev.MemOk → (s.dev.advance dt).supplyOk inRange = true →
        Effects (.nvmWorkStart dt inRange weak []) s fun e => e.nvmc.due = rest ∧ e.nvmc.queue = [] ∧
          e.flag NVM_STAT_BUSY = true ∧ e.rd NVM_STAT_OP = 3 ∧ e.rd NVM_STAT_PAGE = s.dev.counter 5 % 320 ∧
          ∀ a, ByteMem.get e.nvm 0xFF a = ByteMem.get s.dev.nvm 0xFF a

/-- NVM_CNT_CMD (12 R322, R326): the reasons not to start, in their order, and the record that an accepted command asks for. The
counter scan gives every counter the value its records spell, and READY, once the RECOVER records and the compaction that it asks
for are written (R323, R324); a powered hour asks for one more in counter 2 (R320). (The model's choices and readings in it: log
133, 136, 137, 201.) -/
def Obligations.CounterCommands : Prop :=
  (∀ (s : State) (dt m id : Nat), id < 32 → s.dev.Grants m rNVM_CNT_ARG_LO → s.dev.Grants m rNVM_CNT_ARG_HI →
      s.dev.Grants m rNVM_CNT_CMD →
      (s.dev.flag NVM_CNT_STAT_READY = false ∨ s.dev.flag NVM_CNT_STAT_BUSY = true →
        ∀ c, (∃ v, c = Instr.inc dt m id v ∨ c = .set dt m id v) ∨ c = .nvmCntBadOp dt m 0 id ∨ c = .nvmCntBadOp dt m 3 id →
          Effects c s fun e => e.flag ⟨rNVM_EVT, 12, 12⟩ = true ∧ e.nvmc = s.dev.nvmc ∧
            e.word rNVM_CNT_STAT = s.dev.word rNVM_CNT_STAT) ∧
      (s.dev.flag NVM_CNT_STAT_READY = true → s.dev.flag NVM_CNT_STAT_BUSY = false →
        (∀ c, (∃ v, c = Instr.inc dt m id v ∨ c = .set dt m id v) ∨ c = .nvmCntBadOp dt m 0 id ∨ c = .nvmCntBadOp dt m 3 id →
          (s.dev.keyPasses m 2 1 = false → Effects c s fun e =>
            e.rd NVM_CNT_STAT_CODE = 2 ∧ e.flag NVM_CNT_STAT_DONE = true ∧ e.nvmc = s.dev.nvmc) ∧
          (s.dev.keyPasses m 2 1 = true → id < 8 → Effects c s fun e =>
            e.rd NVM_CNT_STAT_CODE = 3 ∧ e.flag NVM_CNT_STAT_DONE = true ∧ e.nvmc = s.dev.nvmc)) ∧
        (s.dev.keyPasses m 2 1 = true → 8 ≤ id →
          (∀ v, 1 ≤ v → v < 2 ^ 32 → Effects (.inc dt m id v) s fun e => e.flag NVM_CNT_STAT_BUSY = true ∧
            e.flag NVM_CNT_STAT_DONE = false ∧ e.nvmc.queue = s.dev.nvmc.queue ++ [NvmWork.new (.counter id 1 v true)]) ∧
          (∀ v, v = 0 ∨ (2 ^ 32 ≤ v ∧ v < 2 ^ 64) → Effects (.inc dt m id v) s fun e =>
            e.rd NVM_CNT_STAT_CODE = 4 ∧ e.flag NVM_CNT_STAT_DONE = true ∧ e.nvmc = s.dev.nvmc) ∧
          (∀ v, v < 2 ^ 64 → Effects (.set dt m id v) s fun e => e.flag NVM_CNT_STAT_BUSY = true ∧
            e.flag NVM_CNT_STAT_DONE = false ∧ e.nvmc.queue = s.dev.nvmc.queue ++ [NvmWork.new (.counter id 2 v true)]) ∧
          ∀ op, op = 0 ∨ op = 3 → Effects (.nvmCntBadOp dt m op id) s fun e =>
            e.rd NVM_CNT_STAT_CODE = 4 ∧ e.flag NVM_CNT_STAT_DONE = true ∧ e.nvmc = s.dev.nvmc))) ∧
  (∀ (s : State) (dt : Nat),
      (∀ corr bad d, s.dev.flag NVM_CNT_STAT_READY = false → s.dev.nvmc.scan = none → s.dev.nvmDark = false →
        d = s.dev.learnErrs bad →
        ((∀ id < 32, (d.scanCounter corr id).recover = none) → (∀ o q, d.openPage = some (o, q) → d.pageErased (nextCounterPage o) = true) →
          (∀ w ∈ s.dev.nvmc.cur.toList ++ s.dev.nvmc.queue, w.kind.ofScan = false) →
          Effects (.counterScanDone dt corr bad) s fun e => e.flag NVM_CNT_STAT_READY = true ∧
            ∀ id < 32, e.counter id = (d.scanCounter corr id).value % 2 ^ 64) ∧
        (∀ id < 32, ∀ q v, (d.scanCounter corr id).recover = some (q, v) →
          Effects (.counterScanDone dt corr bad) s fun e => e.flag NVM_CNT_STAT_READY = false ∧
            NvmWork.new (.recover id q v) ∈ e.nvmc.queue) ∧
        (∀ o q, d.openPage = some (o, q) → d.pageErased (nextCounterPage o) = false →
          Effects (.counterScanDone dt corr bad) s fun e => e.flag NVM_CNT_STAT_READY = false ∧
            NvmWork.new .compact ∈ e.nvmc.queue)) ∧
      (∀ vs op w, s.dev.nvmc.scan = some vs → s.dev.nvmc.op = some op → s.dev.flag NVM_STAT_BUSY = true → s.dev.nvmc.cur = some w →
        s.dev.nvmc.rstDue = none → w.kind.ofScan = true → (s.dev.lit.nvmNext w).isNone = true →
        (∀ w' ∈ s.dev.nvmc.queue, w'.kind.ofScan = false) → Effects (.nvmOpDone dt true) s fun e =>
          e.flag NVM_CNT_STAT_READY = true ∧ ∀ id < 32, e.counter id = vs.getD id 0 % 2 ^ 64) ∧
      (s.dev.mode ≠ .reset → Effects (.poweredHour dt) s fun e =>
        e.nvmc.queue = s.dev.nvmc.queue ++ [NvmWork.new (.counter 2 1 1 false)]))

/-- Keys (12 R329 to R331): LOCK closes, the right key opens, a wrong one counts, the eighth failure starts lockout and closes
every set key; during lockout the command is rejected. (The model's choices and readings in it: log 133.) -/
def Obligations.KeyCommands : Prop :=
  ∀ (s : State) (dt m region kind : Nat), region ≤ 5 → kind ≤ 1 → s.dev.Grants m rNVM_UNLOCK_LO →
    s.dev.Grants m rNVM_UNLOCK_HI → s.dev.Grants m rNVM_UNLOCK_CMD →
    (s.dev.flag NVM_STAT_LOCKOUT = true →
      ∀ c, (∃ key, c = Instr.nvmUnlock dt m region kind key) ∨ c = .lockKey dt m region kind → Effects c s fun e =>
        e.flag ⟨rNVM_EVT, 12, 12⟩ = true ∧ e.word rNVM_KEY_STAT = s.dev.word rNVM_KEY_STAT) ∧
    (s.dev.flag NVM_STAT_LOCKOUT = false →
      (s.dev.flag (keySetFld region kind) = true → Effects (.lockKey dt m region kind) s fun e =>
        e.keyOpen region kind = false) ∧
      (s.dev.flag (keySetFld region kind) = false → Effects (.lockKey dt m region kind) s fun e =>
        e.word rNVM_KEY_STAT = s.dev.word rNVM_KEY_STAT) ∧
      ∀ key, key < 2 ^ 64 →
        (s.dev.flag (keySetFld region kind) = false ∨ key = s.dev.keyOf region kind →
          Effects (.nvmUnlock dt m region kind key) s fun e => e.keyOpen region kind = true ∧
            e.word rNVM_STAT = s.dev.word rNVM_STAT) ∧
        (s.dev.flag (keySetFld region kind) = true → key ≠ s.dev.keyOf region kind → s.dev.rd NVM_STAT_FAILS < 7 →
          Effects (.nvmUnlock dt m region kind key) s fun e => e.rd NVM_STAT_FAILS = s.dev.rd NVM_STAT_FAILS + 1 ∧
            e.flag ⟨rNVM_EVT, 8, 8⟩ = true ∧ e.word rNVM_KEY_STAT = s.dev.word rNVM_KEY_STAT) ∧
        (s.dev.flag (keySetFld region kind) = true → key ≠ s.dev.keyOf region kind → s.dev.rd NVM_STAT_FAILS = 7 →
          Effects (.nvmUnlock dt m region kind key) s fun e => e.flag NVM_STAT_LOCKOUT = true ∧ Fired 44 s.dev e ∧
            ∀ r k, r ≤ 5 → k ≤ 1 → s.dev.flag (keySetFld r k) = true → e.keyOpen r k = false))

/-- The holdover bank is written while some paddock learns (12 R327), and the check schedule of every day (R337).
(The model's choices and readings in it: log 139, 140.) -/
def Obligations.CoreSchedules : Prop :=
  ∀ (s : State) (dt : Nat),
    (∀ models, (s.dev.pads.any fun p => p.learn) = true → Effects (.holdBankTick dt models) s fun e =>
      e.nvmc.models = models ∧ e.nvmc.queue = s.dev.nvmc.queue ++ [NvmWork.new (.holdBank (1 - s.dev.nvmc.holdLast)
        s.dev.nextBankSeq (s.dev.rd DEV_IMG_PLAN_PLAN_ID) ((List.range 16).map fun n => (s.dev.pad n).learnSensor) models)]) ∧
    (∀ models, (s.dev.pads.any fun p => p.learn) = false → Effects (.holdBankTick dt models) s fun e =>
      e.nvmc = s.dev.nvmc) ∧
    (∀ plan, plan = s.dev.chk.plan ++ ([0, 1].filterMap s.dev.slotPlan ++ [0, 1].filterMap s.dev.bankPlan) →
      (s.dev.flag (CHK_STAT_BUSY 3) = true → Effects (.checkScheduleTick dt) s fun e =>
        e.chk.plan = plan ∧ e.word (rCHK_STAT 3) = s.dev.word (rCHK_STAT 3)) ∧
      ∀ p rest, 3 < s.dev.chk.units.length → s.dev.flag (CHK_STAT_BUSY 3) = false → plan = p :: rest →
        Effects (.checkScheduleTick dt) s fun e => e.chk.plan = rest ∧ e.flag (CHK_STAT_BUSY 3) = true ∧
          e.rd (CHK_STAT_MASTER 3) = 2 ∧
          e.chkUnit 3 = ⟨0, false, true, true, p.start, p.len, p.tag, 0, p.exp, p.expc, none⟩)

/-! ### Check jobs (12 R333 to R338) -/

/-- GO and ABORT of a check-value unit. (The model's choices and readings in it: log 140, 141.) -/
def Obligations.CheckCommands : Prop :=
  ∀ (s : State) (dt m u : Nat), u < 4 → m < 8 → s.dev.Grants m (rCHK_CMD u) →
    (s.dev.flag (CHK_STAT_BUSY u) = true → Effects (.go dt m u) s fun e =>
      e.flag (CHK_EVT_REJECT u) = true ∧ e.word (rCHK_STAT u) = s.dev.word (rCHK_STAT u) ∧ e.chk = s.dev.chk) ∧
    (∀ c, c = s.dev.chkConfig u → s.dev.flag (CHK_STAT_BUSY u) = false →
      (s.dev.chkRefused u m c.start c.len c.foldBase = true → Effects (.go dt m u) s fun e =>
        e.flag (CHK_STAT_BUSY u) = false ∧ e.rd (CHK_STAT_END u) = 3 ∧ e.rd (CHK_STAT_MASTER u) = m ∧
        e.flag (CHK_EVT_REJECT u) = true) ∧
      (s.dev.chkRefused u m c.start c.len c.foldBase = false → u < s.dev.chk.units.length → Effects (.go dt m u) s fun e =>
        e.flag (CHK_STAT_BUSY u) = true ∧ e.rd (CHK_STAT_MASTER u) = m ∧ e.chkUnit u = c)) ∧
    (u ≠ 3 ∨ m = 2 ∨ m = 7 →
      (s.dev.flag (CHK_STAT_BUSY u) = true → Effects (.abort dt m u) s fun e =>
        e.flag (CHK_STAT_BUSY u) = false ∧ e.rd (CHK_STAT_END u) = 2 ∧ e.rd (CHK_STAT_ABORT_RES u) = 1 ∧
        e.rd (CHK_RES_LO_VALUE u) = 0 ∧ e.rd (CHK_RES_HI_VALUE u) = 0 ∧ e.flag (CHK_EVT_ABORTED u) = true) ∧
      (s.dev.flag (CHK_STAT_BUSY u) = false → (s.dev.advance dt).chkJustDone u = true → Effects (.abort dt m u) s fun e =>
        e.rd (CHK_STAT_ABORT_RES u) = 2) ∧
      (s.dev.flag (CHK_STAT_BUSY u) = false → (s.dev.advance dt).chkJustDone u = false → Effects (.abort dt m u) s fun e =>
        e.rd (CHK_STAT_ABORT_RES u) = 3 ∧ e.flag (CHK_EVT_REJECT u) = true)) ∧
    (u = 3 → m ≠ 2 → m ≠ 7 → Effects (.abort dt m u) s fun e =>
      e.flag (CHK_EVT_REJECT u) = true ∧ e.word (rCHK_STAT u) = s.dev.word (rCHK_STAT u))

/-- A check job ends: RES, END and VERDICT together; DATA_BAD and CHECK_CORRUPT fire their sources; an uncorrectable error makes
the verdict DATA_BAD.  A job of PRIO 0 ends no sooner than the work that PRIO 1 units have in its source (12 R337; the model's
choice, log 17). -/
def Obligations.CheckJobsEnd : Prop :=
  ∀ (s : State) (dt u res v : Nat) (c : ChkUnit), u < 3 → s.dev.flag (CHK_STAT_BUSY u) = true → c = s.dev.chkUnit u →
    res = crcJob c.poly c.tag (if c.fold then some c.foldBase else none) ((s.dev.advance dt).chkWords c) →
    (s.dev.chkStarved u = true → ∀ ecc, Effects (.chkJobDone dt u ecc) s fun e => e = s.dev.advance dt) ∧
    (s.dev.chkStarved u = false → v = (if c.cmp then verdict (crcKind c.poly).width res c.exp c.expc else 0) →
      Effects (.chkJobDone dt u none) s fun e =>
        e.flag (CHK_STAT_BUSY u) = false ∧ e.rd (CHK_STAT_END u) = 1 ∧ e.rd (CHK_STAT_VERDICT u) = v ∧
        e.rd (CHK_RES_LO_VALUE u) = res % 2 ^ 32 ∧ e.rd (CHK_RES_HI_VALUE u) = res / 2 ^ 32 % 2 ^ 32 ∧
        e.rd (CHK_JOBS_COUNT u) = (s.dev.rd (CHK_JOBS_COUNT u) + 1) % 2 ^ 32 ∧ e.flag (CHK_EVT_DONE u) = true ∧
        (v = 2 → Fired 46 s.dev e ∧ e.flag (CHK_EVT_DATA_BAD u) = true) ∧
        (v = 3 → Fired 47 s.dev e ∧ e.flag (CHK_EVT_CHECK_CORRUPT u) = true) ∧
        (v ≠ 2 → v ≠ 3 → e.rd FLT_SEQNO_COUNT = s.dev.rd FLT_SEQNO_COUNT)) ∧
    ∀ a, 0x100000 ≤ a → a < 0x180000 → s.dev.chkStarved u = false → Effects (.chkJobDone dt u (some a)) s fun e =>
      e.flag (CHK_STAT_BUSY u) = false ∧ e.rd (CHK_STAT_END u) = 1 ∧ e.rd (CHK_STAT_VERDICT u) = 2 ∧
      e.flag (CHK_STAT_ECC u) = true ∧ e.latched 3 = true ∧ e.latched 46 = true ∧
      e.rd FLT_SEQNO_COUNT = (s.dev.rd FLT_SEQNO_COUNT + 2) % 2 ^ 32

/-! ### The JTAG port (14 R381, R382) -/

/-- The TAP's instructions, the word that the instruction register captures, REGACC as an access of master 6, which performs nothing
and sets ERR while the one before is not complete, the word of BUSY, ERR, address and data that its next scan captures, and the level
source of a TAP that has left Test-Logic-Reset.  (The model's choices and readings in it: log 3, 149, 157, 203.) -/
def Obligations.JtagPort : Prop :=
  ∀ (s : State) (dt : Nat),
    (s.dev.Steady →
      (s.dev.mode = .service → s.dev.flag DEV_CROOK_LOCK = false → Completes (.extest dt) s fun t => t.front.jtagIr = 0) ∧
      (s.dev.mode ≠ .service ∨ s.dev.flag DEV_CROOK_LOCK = true → Completes (.extest dt) s fun t => t.front.jtagIr = 0x1F) ∧
      Completes (.samplePreload dt) s (fun t => t.front.jtagIr = 1) ∧
      Completes (.idcode dt) s (fun t => t.front.jtagIr = 2 ∧ t.rsp = [0x174245A7]) ∧
      Completes (.bypass dt) s (fun t => t.front.jtagIr = 0x1F) ∧
      Completes (.testLogicReset dt) s fun t => t.front.tap = .reset ∧ t.front.jtagIr = 2 ∧ (54, 0) ∉ t.flt.live) ∧
    (∀ d : Dev, ∀ k, (d.setIr k).front.tdo = [true, false, false, false, false]) ∧
    (s.dev.front.tap = .reset → (54, 0) ∉ s.dev.flt.live → Effects (.jtagActive dt) s fun e => Fired 54 s.dev e ∧ (54, 0) ∈ e.flt.live) ∧
    (∀ early wr a w, Effects (.regacc dt ⟨false, early, wr⟩ a w) s fun e => e.front.jtagDr =
      b2n s.dev.front.jtagErr * 2 ^ 56 + s.dev.front.jtagAddr % 2 ^ 24 * 2 ^ 32 + s.dev.front.jtagData % 2 ^ 32) ∧
    (∀ early wr a w, s.dev.front.jtagAt ≠ none → Effects (.regacc dt ⟨true, early, wr⟩ a w) s fun e =>
      e.front.jtagDr.testBit 57 = true) ∧
    (∀ busy wr a w t, s.dev.front.jtagAt = some t → s.dev.clk.tclk + dt < t + 320 →
      Effects (.regacc dt ⟨busy, true, wr⟩ a w) s fun e => e.front.jtagErr = true ∧ e.front.jtagIr = 8 ∧ e.rsp = [] ∧
        OnlyRegs (fun a => (54, 0) ∉ s.dev.flt.live ∧ firingAt a) s.dev e) ∧
    ∀ busy early a, (early = true → ∀ t, s.dev.front.jtagAt = some t → t + 320 ≤ s.dev.clk.tclk + dt) →
      (∀ w, a % 4 = 0 → 0x158000 ≤ a → a < 0x160000 → w < 2 ^ 32 → s.dev.Grants 6 a →
        Effects (.regacc dt ⟨busy, early, true⟩ a w) s fun e =>
          WroteSram s.dev e a [w] ∧ e.front.jtagErr = false ∧ e.front.jtagAddr = a ∧ e.front.jtagIr = 8) ∧
      (∀ w, a % 4 = 0 → 0x158000 ≤ a → a < 0x160000 → s.dev.Serves 6 a → Effects (.regacc dt ⟨busy, early, false⟩ a w) s fun e =>
        e.front.jtagErr = false ∧ e.front.jtagData = s.dev.sramWord a ∧ e.rsp = [Word.of (s.dev.sramWord a)] ∧
        e.sram = s.dev.sram) ∧
      ∀ wr w, a < 2 ^ 24 → a % 4 ≠ 0 → s.dev.mode ≠ .reset → Effects (.regacc dt ⟨busy, early, wr⟩ a w) s fun e =>
        e.front.jtagErr = true ∧ e.flag HOST_ERR_ALIGN = true ∧ e.latched 16 = true ∧
        ((54, 0) ∈ s.dev.flt.live → Fired 16 s.dev e) ∧ e.sram = s.dev.sram

/-! ### The measurement front end (chapter 02) -/

/-- An edge of a channel of REFIN that no loop owns (02 R46, R50, R55, R71): the decimator counts; a forwarded edge finds armed
cells, or cells that stand in, and begins its conversions, with TRIM as it is then and the stop edge two TCLK edges on, or is
counted lost.  A wrap of an edge generator reaches its internal channel as an edge,
where its loop cell converts it (02 R45; 04 R108). (The model's choices and readings in it: log 26, 27, 164.) -/
def Obligations.ChannelEdgesAreForwarded : Prop :=
  (∀ (s : State) (dt ch sub arr : Nat), ch < 12 → arr = (s.dev.clk.tclk + dt) * 40960 + sub % 40960 →
      (s.dev.measuring = false → Effects (.channelEdge dt ch sub) s fun e => e.meas = (s.dev.advance dt).meas) ∧
      (s.dev.measuring = true → s.dev.claimed ch = false →
        ((s.dev.chan ch).count + 1 < s.dev.rd (MCH_DEC_DEC ch) → ch < s.dev.meas.chans.length →
          Effects (.channelEdge dt ch sub) s fun e => (e.chan ch).count = (s.dev.chan ch).count + 1 ∧
            e.meas.events = (s.dev.advance dt).meas.events ∧ e.rd (MCH_FWD_FWD ch) = s.dev.rd (MCH_FWD_FWD ch)) ∧
        (s.dev.rd (MCH_DEC_DEC ch) ≤ (s.dev.chan ch).count + 1 →
          (∀ t, (s.dev.chan ch).lastFwd = some t → arr < t + 163840 → Effects (.channelEdge dt ch sub) s fun e =>
            e.rd (MCH_FWD_FWD ch) = (s.dev.rd (MCH_FWD_FWD ch) + 1) % 2 ^ 32 ∧
            e.rd (MCH_LOST_LOST ch) = (s.dev.rd (MCH_LOST_LOST ch) + 1) % 2 ^ 32 ∧
            e.flag (MCH_STAT_DEAD_TIME ch) = true ∧ e.meas.events = (s.dev.advance dt).meas.events) ∧
          ((∀ t, (s.dev.chan ch).lastFwd = some t → t + 163840 ≤ arr) →
            ∀ ks, ks = (match s.dev.armedOn ch with
              | [] => (s.dev.standIns ch).filter fun k => !(s.dev.cell k).busy
              | l => l) →
            (ks = [] → Effects (.channelEdge dt ch sub) s fun e =>
              e.rd (MCH_FWD_FWD ch) = (s.dev.rd (MCH_FWD_FWD ch) + 1) % 2 ^ 32 ∧
              e.rd (MCH_LOST_LOST ch) = (s.dev.rd (MCH_LOST_LOST ch) + 1) % 2 ^ 32 ∧
              e.flag (MCH_STAT_NO_CELL ch) = true ∧ e.flag MEAS_STAT_JOB_STARVED = true) ∧
            (ks ≠ [] → Effects (.channelEdge dt ch sub) s fun e =>
              e.rd (MCH_FWD_FWD ch) = (s.dev.rd (MCH_FWD_FWD ch) + 1) % 2 ^ 32 ∧
              e.rd (MCH_LOST_LOST ch) = s.dev.rd (MCH_LOST_LOST ch) ∧
              e.meas.events = (s.dev.advance dt).meas.events ++ [⟨ch, arr, 0, 0, s.dev.rdS (MCH_TRIM_TRIM ch),
                s.dev.clk.tclk + dt + 2, false, 0, s.dev.clk.inc, none, ks.map fun k => (k, Part.waiting), none⟩]))))) ∧
  (∀ (s : State) (dt n sub ch arr k : Nat), n < 16 → s.dev.measuring = true → ch = 53 + s.dev.rd (PAD_CFG_EG n) →
      (s.dev.flag (PAD_CFG_EG_V n) = false → Effects (.edgeGenWrap dt n sub) s fun e => e.meas = (s.dev.advance dt).meas) ∧
      (s.dev.flag (PAD_CFG_EG_V n) = true → s.dev.alive.contains ch = true → s.dev.claimed ch = true →
        s.dev.loopCells ch = [k] → (s.dev.cell k).busy = false → s.dev.meas.handover = none →
        s.dev.rd (MCH_DEC_DEC ch) ≤ (s.dev.chan ch).count + 1 → arr = (s.dev.clk.tclk + dt) * 40960 + sub % 40960 →
        (∀ t, (s.dev.chan ch).lastFwd = some t → t + 163840 ≤ arr) →
        (∀ t, (s.dev.chan ch).lastConv = some t → t + 500 * 65536 ≤ arr) →
        Effects (.edgeGenWrap dt n sub) s fun e =>
          e.rd (MCH_FWD_FWD ch) = (s.dev.rd (MCH_FWD_FWD ch) + 1) % 2 ^ 32 ∧
          e.meas.events = (s.dev.advance dt).meas.events ++ [⟨ch, arr, 0, 0, s.dev.rdS (MCH_TRIM_TRIM ch),
            s.dev.clk.tclk + dt + 2, false, 0, s.dev.clk.inc, none, [(k, Part.waiting)], none⟩]))

/-- A conversion ends (02 R33, R35, R54, R71): one that fails a check is discarded, its edge counts lost and its cell is quarantined
with the code of the check; one that passes gives the timestamp that a paddock takes as its feedback, of the device time and the
increment at the stop edge, or at the TCLK edge after it where the cell's arbiter took that (R32). (The model's choices and readings
in it: log 5, 23, 161, 166.) -/
def Obligations.ConversionsAreCheckedAndStamped : Prop :=
  ∀ (s : State) (dt k : Nat) (code : CellCode) (redOk rstOk tableEcc : Bool) (ecc : List Nat) (ev : Event) (rest : List Event),
    k < 48 → s.dev.measuring = true → (s.dev.cell k).pilot = none →
    takeEvent k (s.dev.advance dt).meas.events = some (ev, rest) →
    ev.parts = [(k, .waiting)] → ev.handover = none → 20 ≤ ev.chan → ev.chan < 44 →
    (∀ f, convFault code.code redOk rstOk tableEcc = f → f ≠ 0 → f ≠ 5 → k < s.dev.meas.cells.length →
      (s.dev.cell k).role = .job ∨ (s.dev.cell k).role = .loop →
      (s.dev.meas.calRun.any fun r => r.retest && decide (r.cell = k)) = false →
      Effects (.conversionDone dt k code redOk rstOk tableEcc ecc) s fun e =>
        e.meas.events = rest ∧ (e.cell k).role = .quar ∧ (e.cell k).fault = f ∧
        e.flag (MCH_STAT_CHECK_FAIL ev.chan) = true ∧ e.flag MEAS_STAT_CHECK_FAIL = true ∧
        e.rd (MCH_LOST_LOST ev.chan) = (s.dev.rd (MCH_LOST_LOST ev.chan) + 1) % 2 ^ 32) ∧
    (convFault code.code redOk rstOk tableEcc = 0 →
      Effects (.conversionDone dt k code redOk rstOk tableEcc ecc) s fun e =>
        e.meas.events = rest ∧ e.rd (MCH_LOST_LOST ev.chan) = s.dev.rd (MCH_LOST_LOST ev.chan) ∧
        ∀ n at_, n < 16 → n < s.dev.pads.length → s.dev.padLive n = true → s.dev.padKind n = 0 →
          s.dev.feedbackCh n = ev.chan →
          at_ = ev.latch (s.dev.advance dt).clk (max (ev.stopAt + 1) (s.dev.clk.tclk + dt)) →
          (e.pad n).fbQ = (s.dev.pad n).fbQ ++
            [stamp (at_.stop code.later).1 (at_.stop code.later).2 (s.dev.fraction k code.code) (s.dev.chanDelay ev.chan ev.trim)])

/-- The pool at an LCLK edge gives an overdue free cell to calibration when no loop, handover or pilot asks (02 R52); pilots and
handovers take the cells they wait for (R43, R44, R53); deferral and idle timers act (R42). (The model's choices and readings in it:
log 28, 30, 36, 162, 163, 190.) -/
def Obligations.PoolServesItsUses : Prop :=
  ∀ (s : State) (dt k : Nat), s.dev.measuring = true → k < 48 → k < s.dev.meas.cells.length →
    ((∀ ch < 64, s.dev.claimed ch = false) →
      (∀ i, (s.dev.cell i).armed = none ∧ (s.dev.cell i).role ≠ .loop ∧ (s.dev.cell i).pilotDue = false) →
      s.dev.calBusy = false → (s.dev.meas.dueOrder.find? fun i => (s.dev.cell i).overdue && (s.dev.cell i).free) = some k →
      Effects (.poolAllocate dt) s fun e =>
        e.meas.calRun = some ⟨k, s.dev.clk.tclk + dt, false, false⟩ ∧ (e.cell k).role = .cal) ∧
    (((s.dev.cell k).role = .job → Effects (.pilotDue dt k) s fun e =>
        (e.cell k).pilotDue = true ∧ (e.cell k).pilot = (s.dev.cell k).pilot) ∧
      ((s.dev.cell k).role = .loop → (s.dev.cell k).busy = true → Effects (.pilotDue dt k) s fun e =>
        (e.cell k).pilotDue = true ∧ (e.cell k).pilot = (s.dev.cell k).pilot) ∧
      ((s.dev.cell k).role = .loop → (s.dev.cell k).busy = false → (s.dev.cell k).pilot = none →
        ((s.dev.advance dt).nextFar (loopIdx (s.dev.cell k)) (s.dev.cell k).stream = true →
          Effects (.pilotDue dt k) s fun e => (e.cell k).pilot = some (s.dev.cell k).pilotPos ∧
            (e.cell k).pilotPos = ((s.dev.cell k).pilotPos + 1) % 8 ∧ (e.cell k).pilotDue = false) ∧
        ((s.dev.advance dt).nextFar (loopIdx (s.dev.cell k)) (s.dev.cell k).stream = false →
          Effects (.pilotDue dt k) s fun e => (e.cell k).pilotDue = true ∧ (e.cell k).pilot = none))) ∧
    ((s.dev.cell k).role = .job → (s.dev.cell k).pilotDue = true → (s.dev.cell k).busy = false →
      (s.dev.cell k).pilot = none → Effects (.pilotWaitExpiry dt k) s fun e =>
        (e.cell k).pilot = some (s.dev.cell k).pilotPos ∧ (e.cell k).armed = none) ∧
    (∀ h, s.dev.meas.handover = some h → h.old < s.dev.meas.cells.length → h.new < s.dev.meas.cells.length →
      h.old ≠ h.new → ∀ far, far = (s.dev.advance dt).nextFar (loopIdx (s.dev.cell h.old)) h.chan →
      (s.dev.slowStream h.chan = true → far = true → Effects (.handoverSlow dt) s fun e =>
        (e.cell h.new).role = .loop ∧ (e.cell h.new).stream = h.chan ∧ (e.cell h.new).half = (s.dev.cell h.old).half ∧
        (e.cell h.old).role = .cal ∧ e.meas.handover = none ∧
        e.meas.calRun = some ⟨h.old, s.dev.clk.tclk + dt, false, false⟩) ∧
      (s.dev.slowStream h.chan = false ∨ far = false → Effects (.handoverSlow dt) s fun e =>
        e.meas = (s.dev.advance dt).meas)) ∧
    ((s.dev.cell k).due = true → (s.dev.cell k).overdue = false → Effects (.calDeferExpiry dt k) s fun e =>
      (e.cell k).overdue = true ∧ e.flag MEAS_STAT_CAL_OVERDUE = true ∧ Fired 18 s.dev e) ∧
    ((s.dev.cellsWhere Cell.free).isEmpty = false → Effects (.calIdleExpiry dt) s fun e => e.meas.idleOk = true)

/-- Calibration and quarantine end (02 R39, R40, R54, R58, R69): the new table stands in CALTAB and the cell returns to JOB; a
quarantined cell returns or is retired; a retired one may be retested.  A boot calibration's conversion that fails a check
quarantines its cell, which leaves that calibration (R33, R54).
(The model's choices and readings in it: log 32, 165, 187.) -/
def Obligations.CalibrationAndQuarantineEnd : Prop :=
  ∀ (s : State) (dt : Nat),
    (∀ r hits pilots, s.dev.measuring = true → s.dev.meas.calRun = some r → r.tableDone = false → r.cell < 48 →
      r.cell < s.dev.meas.cells.length →
      Effects (.calRunDone dt hits pilots) s fun e =>
        (∀ i < 256, e.sramWord (tableAddr r.cell i) = (buildTable hits hits.sum).getD i 0 % 2 ^ 32) ∧
        (e.cell r.cell).calibrated = true ∧ (e.cell r.cell).due = false ∧ (e.cell r.cell).overdue = false ∧
        (e.cell r.cell).coarse = false ∧ (e.cell r.cell).calTemp = s.dev.rdS DEV_TEMP_TEMP ∧
        (e.cell r.cell).calEnd = s.dev.clk.tclk + dt ∧
        (r.retest = false → (e.cell r.cell).role = .job ∧ e.meas.calRun = none) ∧
        (r.retest = true → e.meas.calRun = some { r with tableDone := true })) ∧
    (∀ hits pilots, s.dev.mode = .boot → s.dev.clk.pllLocked = true → s.dev.meas.bootCalDone = false →
      s.dev.meas.cells.length = 48 → Effects (.bootCalDone dt hits pilots) s fun e =>
        e.meas.bootCalDone = true ∧ ∀ k < 48, s.dev.bootCals k = true → (e.cell k).coarse = true ∧ (e.cell k).calibrated = true) ∧
    (∀ k code redOk rstOk tableEcc ecc f, k < 48 → k < s.dev.meas.cells.length → s.dev.bootCals k = true →
      (s.dev.cell k).pilot = none → s.dev.meas.calRun = none → takeEvent k (s.dev.advance dt).meas.events = none →
      convFault code.code redOk rstOk false = f → f ≠ 0 →
      Effects (.conversionDone dt k code redOk rstOk tableEcc ecc) s fun e => (e.cell k).role = .quar ∧ (e.cell k).fault = f ∧
        (e.cell k).coarse = true ∧ e.flag MEAS_STAT_CHECK_FAIL = true) ∧
    (∀ k fails, s.dev.measuring = true → k < 48 → k < s.dev.meas.cells.length → (s.dev.cell k).role = .quar →
      (2 ≤ fails ∨ (s.dev.cell k).eccQuar = true → Effects (.quarPilotsDone dt k fails) s fun e =>
        (e.cell k).role = .retired ∧ e.latched 19 = true ∧ e.flag MEAS_STAT_CELL_RETIRED = true) ∧
      (fails < 2 → (s.dev.cell k).eccQuar = false → (∀ ch < 64, s.dev.loopNeed ch ≤ (s.dev.loopCells ch).length) →
        (s.dev.cell k).due = false → (s.dev.cell k).overdue = false → Effects (.quarPilotsDone dt k fails) s fun e => (e.cell k).role = .job)) ∧
    (∀ m k, k < 64 → s.dev.Grants m rMEAS_CELL_CMD →
      ((s.dev.cell k).role = .retired ∧ k < 48 ∧ s.dev.meas.retest = none ∧
          (s.dev.meas.calRun.any fun r => r.retest) = false →
        Effects (.retest dt m k) s fun e => e.meas.retest = some k) ∧
      ((s.dev.cell k).role ≠ .retired ∨ 48 ≤ k ∨ s.dev.meas.retest.isSome = true →
        Effects (.retest dt m k) s fun e => e.meas = (s.dev.advance dt).meas ∧ e.flag MEAS_ERR_CMD_IGNORED = true)) ∧
    (∀ r fails, s.dev.measuring = true → s.dev.meas.calRun = some r → r.retest = true →
      r.cell < s.dev.meas.cells.length →
      (r.tableDone = true → fails = 0 → Effects (.retestDone dt fails) s fun e =>
        e.meas.calRun = none ∧ (e.cell r.cell).role = .job) ∧
      (r.tableDone = false ∨ fails ≠ 0 → Effects (.retestDone dt fails) s fun e =>
        e.meas.calRun = none ∧ (e.cell r.cell).role = .retired ∧ (e.cell r.cell).fault = 6))

/-- A read of DEV_TIME_SEC_LO latches device time for its master (02 R38); a read of the _LO half of a pair latches the _HI half (04
R134), both as they stood before the edge (10 R275); neither changes any register but where a lamp test sets EVT.LAMP. (The model's
choices and readings in it: log 115.) -/
def Obligations.ReadsLatchTheirPartners : Prop :=
  ∀ (s : State) (dt m : Nat), s.dev.Steady →
    (∀ t, t = (s.dev.advance dt).nowU → s.dev.Serves m rDEV_TIME_SEC_LO → Completes (.devTimeSecLoRead dt m) s fun d =>
      d.rsp = [Word.of (uSec t)] ∧ d.pmWord m rDEV_TIME_SEC_HI = Word.of (uSec t / 2 ^ 32) ∧
      d.pmWord m rDEV_TIME_NS = Word.of (uNs t) ∧ d.pmWord m rDEV_TIME_FRAC = Word.of (uFrac t) ∧
      ∀ a, a ≠ rFLT_STAT → a ≠ rFLT_INJ_STAT → a ≠ rPAST_STAT → a ≠ rCRAFT_EVT → d.word a = s.dev.word a) ∧
    (∀ a, isLo a = true → isHi a = false → a < 0x0E0000 → s.dev.Serves m a → Completes (.loHalfRead dt m a) s fun d =>
      d.rsp = [Word.of ((s.dev.advance dt).asRead.regValue m a)] ∧
      d.pmWord m (a + 4) = Word.of ((s.dev.advance dt).asRead.regValue m (a + 4)) ∧
      ∀ b, b ≠ rFLT_STAT → b ≠ rFLT_INJ_STAT → b ≠ rPAST_STAT → b ≠ rCRAFT_EVT → d.word b = s.dev.word b)

/-! ### Jobs and the Tally (chapter 03) -/

/-- A push is accepted into the lowest free slot with the next order, or rejected with the first reason of R75's table that applies,
each by its own condition (03 R73, R75, R77); no job changes on a rejection. A body that reads a double-bit error at its acceptance
ends the job at once with cause QUEUE_ECC (R81). (The model's choices and readings in it: log 9, 38, 103, 167.) -/
def Obligations.PushesAreJudged : Prop :=
  ∀ (s : State) (dt m : Nat) (ecc : Bool), s.dev.Grants m rMEAS_REQ_PUSH → s.dev.jobs.slots.length = 128 →
    (∀ k < 128, ∀ j dn, s.dev.job k = some j → j.done = some dn → dn.rst = false) →
    (ecc = true → ∀ k < 128, ∀ j, s.dev.job k = some j → j.order ≠ s.dev.jobs.nextOrder) →
    (∀ c code kind, (c, code, kind) ∈ [(Instr.timeIntervalPush dt ⟨m, ecc⟩, 0, JobKind.interval), (.frequencyPush dt ⟨m, ecc⟩, 1, .freq),
        (.timestampStreamPush dt ⟨m, ecc⟩, 2, .stream), (.periodStatisticsPush dt ⟨m, ecc⟩, 3, .period), (.markerPush dt ⟨m, ecc⟩, 4, .marker),
        (.ringFlushPush dt ⟨m, ecc⟩, 5, .flush)] → s.dev.rdPm m MEAS_REQ_W0_KIND = code →
      (∀ slot, s.dev.pushReason m = 0 → slot < 128 → s.dev.job slot = none → (∀ i < slot, s.dev.job i ≠ none) →
        Effects c s fun e =>
          e.rd MEAS_ACCEPTED_COUNT = (s.dev.rd MEAS_ACCEPTED_COUNT + 1) % 2 ^ 32 ∧
          e.jobs.nextOrder = s.dev.jobs.nextOrder + 1 ∧
          e.pmWord m rMEAS_REQ_RESULT = Word.of (0xC0000000 + slot * 2 ^ 16) ∧
          (ecc = false → kind ≠ .flush → e.job slot = some ((s.dev.advance dt).newJob m kind)) ∧
          (ecc = true → (e.job slot).bind Job.done = some (Done.aborted 5) ∧ e.flag MEAS_Q_ERR_QUEUE_ECC = true ∧
            e.latched 21 = true ∧ (s.dev.bodiesGood = true → Fired 21 s.dev e)) ∧
          ∃ j, e.job slot = some j ∧ j.order = s.dev.jobs.nextOrder ∧ j.kind = kind ∧ j.tag = s.dev.rdPm m MEAS_REQ_W1_TAG ∧
            j.ring = s.dev.rdPm m MEAS_REQ_W0_RING) ∧
      (s.dev.pushReason m ≠ 0 → Effects c s fun e =>
        e.rd MEAS_REJECTED_COUNT = (s.dev.rd MEAS_REJECTED_COUNT + 1) % 2 ^ 32 ∧ e.flag MEAS_Q_ERR_REJECT = true ∧
        e.pmWord m rMEAS_REQ_RESULT = Word.of (0x80000000 + s.dev.pushReason m * 2 ^ 24) ∧ e.jobs = s.dev.jobs)) ∧
    (5 < s.dev.rdPm m MEAS_REQ_W0_KIND → Effects (.unusedKindPush dt m) s fun e =>
      e.rd MEAS_REJECTED_COUNT = (s.dev.rd MEAS_REJECTED_COUNT + 1) % 2 ^ 32 ∧ e.flag MEAS_Q_ERR_REJECT = true ∧
      e.pmWord m rMEAS_REQ_RESULT = Word.of (0x80000000 + s.dev.pushReason m * 2 ^ 24) ∧ e.jobs = s.dev.jobs) ∧
    ∀ code a b oa ob : Nat, code = s.dev.rdPm m MEAS_REQ_W0_KIND → a = s.dev.rdPm m MEAS_REQ_W0_CH_A → b = s.dev.rdPm m MEAS_REQ_W0_CH_B →
      oa = s.dev.rdPm m MEAS_REQ_W2_PARAM_A + 2 ^ 32 * s.dev.rdPm m MEAS_REQ_W3_PARAM_A →
      ob = s.dev.rdPm m MEAS_REQ_W4_PARAM_B + 2 ^ 32 * s.dev.rdPm m MEAS_REQ_W5_PARAM_B →
      ∀ ratio openA openB : Bool, openA = (s.dev.flag (MCH_CFG_ENABLE a) || s.dev.claimed a) →
      openB = (s.dev.flag (MCH_CFG_ENABLE b) || s.dev.claimed b) → ratio = decide (s.dev.rdPm m MEAS_REQ_W0_RATIO ≠ 0) →
      s.dev.pushReason m =
        if s.dev.mode ≠ .run ∧ s.dev.mode ≠ .fold then 1
        else if s.dev.flag MEAS_CTL_JOB_EN = false ∧ code < 4 then 2
        else if (List.range 128).all (fun k => (s.dev.job k).isSome) then 3
        else if 5 < code then 4
        else if s.dev.rdPm m MEAS_REQ_W1_TAG = 0xFFFFFFFF then 5
        else if s.dev.flag (TQ_CFG_ENABLE (s.dev.rdPm m MEAS_REQ_W0_RING)) = false ∨
            s.dev.flag (TQ_STAT_DISABLING (s.dev.rdPm m MEAS_REQ_W0_RING)) = true then 6
        else if (code < 4 ∧ openA = false) ∨ ((code = 0 ∨ (code = 1 ∧ ratio = true)) ∧ openB = false) then 7
        else if (code = 0 ∧ (sext 64 ob ≤ sext 64 oa ∨ 2 ^ 47 ≤ (sext 64 oa).natAbs ∨ 2 ^ 47 ≤ (sext 64 ob).natAbs)) ∨
            (code = 1 ∧ (oa < 1000 ∨ 10 ^ 12 < oa ∨ ob ≠ 0 ∨ (ratio = false ∧ b ≠ 0))) ∨
            (code = 2 ∧ (2 ^ 32 ≤ oa ∨ ob ≠ 0 ∨ b ≠ 0)) ∨
            (code = 3 ∧ (oa < 2 ∨ 2 ^ 24 < oa ∨ b ≠ 0)) ∨
            (4 ≤ code ∧ (oa ≠ 0 ∨ ob ≠ 0 ∨ a ≠ 0 ∨ b ≠ 0)) then 8
        else 0

/-- MEAS_ABORT (03 R85, R86): the jobs its scope selects that are not decided end with cause 1, decided ones stay; a slot
whose tag does not match sets NONE. (The model's choices and readings in it: log 38.) -/
def Obligations.AbortsEndOpenJobs : Prop :=
  ∀ (s : State) (dt m : Nat), s.dev.Grants m rMEAS_ABORT → s.dev.jobs.slots.length = 128 →
    (∀ slot j, slot < 128 → s.dev.job slot = some j → j.tag = s.dev.rdPm m MEAS_ABORT_TAG_TAG →
      (j.done = none → Effects (.abortSlot dt m slot) s fun e =>
        e.job slot = some { j with done := some (Done.aborted 1) } ∧
        e.pmWord m rMEAS_ABORT_RESULT = Word.of (0x80000000 + 2 ^ 16)) ∧
      (j.done.isSome = true → Effects (.abortSlot dt m slot) s fun e =>
        e.job slot = some j ∧ e.pmWord m rMEAS_ABORT_RESULT = Word.of (0x80000000 + 2 ^ 8))) ∧
    (∀ slot, slot < 128 → (∀ j, s.dev.job slot = some j → j.tag ≠ s.dev.rdPm m MEAS_ABORT_TAG_TAG) →
      Effects (.abortSlot dt m slot) s fun e =>
        e.flag MEAS_Q_ERR_ABORT_NONE = true ∧ e.pmWord m rMEAS_ABORT_RESULT = Word.of 0xC0000000) ∧
    (∀ ring, ring < 16 → Effects (.abortRing dt m ring) s fun e => ∀ k < 128, ∀ j, s.dev.job k = some j →
      (j.ring = ring → j.done = none → e.job k = some { j with done := some (Done.aborted 1) }) ∧
      (j.done.isSome = true → e.job k = some j) ∧ (j.ring ≠ ring → j.kind ≠ .flush → e.job k = some j)) ∧
    (Effects (.abortAll dt m) s fun e => ∀ k < 128, ∀ j, s.dev.job k = some j →
      (j.done = none → e.job k = some { j with done := some (Done.aborted 1) }) ∧
      (j.done.isSome = true → e.job k = some j)) ∧
    Effects (.abortNone dt m) s fun e => e.pmWord m rMEAS_ABORT_RESULT = Word.of 0x80000000 ∧
      ∀ k < 128, ∀ j, s.dev.job k = some j → j.kind ≠ .flush → e.job k = some j

/-- Timers fix the results of jobs (03 R61, R78); a double-bit error in the job's slot ends it with cause 5 instead (R81).
(The model's choices and readings in it: log 37, 193.) -/
def Obligations.TimersFixResults : Prop :=
  ∀ (s : State) (dt k : Nat) (j : Job), s.dev.measuring = true → k < 128 → s.dev.jobs.slots.length = 128 →
    s.dev.job k = some j → j.done = none →
    ∀ ecc : List Nat,
    (k ∉ ecc → j.bad = false →
      (∀ t, j.kind = .interval → j.start = some t →
        (∀ c, j.cand = some c →
          (Effects (.intervalTimeout dt k ecc) s fun e =>
            e.job k = some { j with done := some (Done.interval ((c : Int) - t)) }) ∧
          Effects (.intervalEarlyMatch dt k ecc) s fun e =>
            e.job k = some { j with done := some (Done.interval ((c : Int) - t)) }) ∧
        (j.cand = none → Effects (.intervalTimeout dt k ecc) s fun e =>
          e.job k = some { j with done := some Done.timeout })) ∧
      (j.kind = .freq → Effects (.freqGateTimeout dt k ecc) s fun e =>
        e.job k = some { j with done := some Done.timeout })) ∧
    (k ∈ ecc ∨ j.bad = true →
      ∀ c, c ∈ [Instr.intervalTimeout dt k ecc, .intervalEarlyMatch dt k ecc, .freqGateTimeout dt k ecc] →
        Effects c s fun e => e.job k = some { j with bad := true, done := some (Done.aborted 5) } ∧
          e.flag MEAS_Q_ERR_QUEUE_ECC = true ∧ e.latched 21 = true ∧
          (s.dev.bodiesGood = true → ecc = [k] → Fired 21 s.dev e))

/-- A ring writes its next record (03 R84, R87, R92, R94, R95): two words at its HEAD, HEAD advances and the record leaves
the queue; a completion frees its slot; a data record that finds fewer than two free places, or an EPOCH record behind it, is
dropped and counted. A ring writes at most one record on an edge. (The model's choices and readings in it: log 3, 38, 40,
43.) -/
def Obligations.RingsWriteRecords : Prop :=
  ∀ (s : State) (dt r seq a : Nat) (rest : List WRec) (ecc : List Nat) (behind : Bool), r < 16 → s.dev.ringsRun = true →
    r < s.dev.jobs.rings.length → (s.dev.ring r).wroteAt ≠ some (s.dev.advance dt).clk.edge → a + 16 ≤ 0x180000 →
    behind = { s.dev.ring r with wq := rest }.hasEpoch →
    seq = s.dev.rd (TQ_HEAD_HEAD r) → a = 0x100000 + 16 * (256 * s.dev.rd (TQ_CFG_BASE r) + seq % s.dev.ringSize r) →
    (∀ e0 n ch tag payload inj, (s.dev.ring r).wq = .paddock e0 n ch tag payload inj :: rest →
      (2 ≤ s.dev.ringFree r → behind = false → Effects (.ringRecordWrite dt r ecc) s fun e =>
        e.sramWord a = (recHead false false false false inj false 5 ch + seq) % 2 ^ 32 ∧
        e.sramWord (a + 4) = tag % 2 ^ 32 ∧ e.sramWord (a + 8) = payload % 2 ^ 32 ∧
        e.sramWord (a + 12) = payload / 2 ^ 32 % 2 ^ 32 ∧
        (∀ b, b < a ∨ a + 16 ≤ b → ByteMem.get e.sram 0 b = ByteMem.get s.dev.sram 0 b) ∧
        e.rd (TQ_HEAD_HEAD r) = (seq + 1) % 2 ^ 16 ∧ (e.ring r).wq = rest) ∧
      (s.dev.ringFree r < 2 ∨ behind = true → Effects (.ringRecordWrite dt r ecc) s fun e =>
        e.rd (TQ_DROP_DROP r) = (s.dev.rd (TQ_DROP_DROP r) + 1) % 2 ^ 32 ∧ e.flag (TQ_STAT_DROP r) = true ∧
        (s.dev.ringFree r = 0 → e.flag (TQ_STAT_FULL r) = true) ∧ e.sram = s.dev.sram ∧
        e.rd (TQ_HEAD_HEAD r) = seq ∧ (e.ring r).wq = rest)) ∧
    (∀ e0 k j dn, (s.dev.ring r).wq = .completion e0 k :: rest → k < 128 → s.dev.job k = some j → j.done = some dn →
      (0 < s.dev.ringFree r → Effects (.ringRecordWrite dt r ecc) s fun e =>
        e.sramWord (a + 4) = j.tag % 2 ^ 32 ∧ e.rd (TQ_HEAD_HEAD r) = (seq + 1) % 2 ^ 16 ∧ e.job k = none) ∧
      (s.dev.ringFree r = 0 → Effects (.ringRecordWrite dt r ecc) s fun e =>
        e.flag (TQ_STAT_FULL r) = true ∧ ((e.job k).bind fun i => i.done) = some dn ∧ e.rd (TQ_HEAD_HEAD r) = seq ∧
        ∃ q, (e.ring r).wq = .completion e0 k :: q ∧ q.any WRec.isData = false)) ∧
    ∀ t : Dev, (t.ring r).wroteAt = some t.clk.edge → t.ringRecordWrite r = t

/-- EPOCH causes, the end of a ring that is being disabled, and TQ_n_TAIL (03 R89, R93, R96).
(The model's choices and readings in it: log 40, 45.) -/
def Obligations.RingControls : Prop :=
  ∀ (s : State) (dt m r : Nat), r < 16 → r < s.dev.jobs.rings.length →
    (s.dev.ringOpen r = true → s.dev.flag (TQ_CFG_EPOCH_EN r) = true →
      (∀ p, (s.dev.ring r).epochAt = some p → p.1 ≠ (s.dev.advance dt).clk.edge) →
      (∀ w ∈ (s.dev.ring r).wq, w.edge ≠ (s.dev.advance dt).clk.edge) →
      (Effects (.epochSec17 dt) s fun e => (e.ring r).wq =
        (s.dev.ring r).wq ++ [.epoch (s.dev.advance dt).clk.edge 1 (uSec (s.dev.advance dt).nowU)]) ∧
      (s.dev.Grants m (rTQ_CMD r) → Effects (.epochRequest dt m r) s fun e => (e.ring r).wq =
        (s.dev.ring r).wq ++ [.epoch (s.dev.advance dt).clk.edge 5 (uSec (s.dev.advance dt).nowU)])) ∧
    (s.dev.flag (TQ_CFG_EPOCH_EN r) = false → s.dev.Grants m (rTQ_CMD r) → Effects (.epochRequest dt m r) s fun e =>
      e.jobs = s.dev.jobs) ∧
    (s.dev.flag (TQ_STAT_DISABLING r) = true → (s.dev.ring r).wq = [] → s.dev.firstOf r = none → 0 < s.dev.ringFree r →
      (s.dev.ring r).wroteAt ≠ some (s.dev.advance dt).clk.edge → Effects (.ringDisableDone dt r) s fun e =>
        e.flag (TQ_STAT_DISABLING r) = false ∧
        e.rd (TQ_HEAD_HEAD r) = (s.dev.rd (TQ_HEAD_HEAD r) + 1) % 2 ^ 16 ∧
        e.sramWord (0x100000 + 16 * (256 * s.dev.rd (TQ_CFG_BASE r) + s.dev.rd (TQ_HEAD_HEAD r) % s.dev.ringSize r) + 4) =
          0xFFFFFFFF) ∧
    (s.dev.flag (TQ_STAT_DISABLING r) = true → s.dev.firstOf r ≠ none → Effects (.ringDisableDone dt r) s fun e =>
      e.flag (TQ_STAT_DISABLING r) = true ∧ e.jobs = s.dev.jobs) ∧
    ∀ tail, tail < 2 ^ 16 → s.dev.Grants m (rTQ_TAIL r) →
      (s.dev.flag (TQ_CFG_MODE r) = false → (tail + 65536 - s.dev.rd (TQ_TAIL_TAIL r)) % 65536 ≤ s.dev.ringCount r →
        Effects (.tailWrite dt m r tail) s fun e => e.rd (TQ_TAIL_TAIL r) = tail) ∧
      (s.dev.flag (TQ_CFG_MODE r) = true ∨ s.dev.ringCount r < (tail + 65536 - s.dev.rd (TQ_TAIL_TAIL r)) % 65536 →
        Effects (.tailWrite dt m r tail) s fun e => e.rd (TQ_TAIL_TAIL r) = s.dev.rd (TQ_TAIL_TAIL r) ∧
          e.flag (TQ_STAT_TAIL_ERR r) = true)

/-- The Tally port's frames and acknowledgements (03 R99 to R101), its lanes and its receiver (R103).
(The model's choices and readings in it: log 41, 42, 46, 169, 170, 172.) -/
def Obligations.TallyPortFrames : Prop :=
  (∀ (s : State) (dt r : Nat), r < 16 → r < s.dev.jobs.rings.length → s.dev.flag TP_CTL_ENABLE = true →
      s.dev.flag (TQ_CFG_MODE r) = true →
      (s.dev.jobs.tp.closed = [] → s.dev.unsent r ≠ 0 → Effects (.tpFrameTimeout dt r) s fun e =>
        e.jobs.tp.closed = [⟨r, (s.dev.rd (TQ_TAIL_TAIL r) + (s.dev.ring r).sent) % 65536, min 512 (s.dev.unsent r)⟩]) ∧
      (∀ lane f, (lane = 0 ∧ s.dev.flag TP_STAT_TX0_UP = true) ∨ (lane = 1 ∧ s.dev.flag TP_STAT_TX1_UP = true) →
        s.dev.tpNextFrame = some f → f.ring = r → ∀ no, no = s.dev.jobs.tp.frameNo.getD lane 0 →
        (Effects (.tpFrameSend dt lane none) s fun e =>
          e.rd TP_FRAMES_COUNT = (s.dev.rd TP_FRAMES_COUNT + 1) % 2 ^ 32 ∧ e.jobs.tp.closed = s.dev.jobs.tp.closed.erase f ∧
          e.jobs.tp.lastSent = some ⟨lane, f, no, false, s.dev.frameBlocks f no false,
            scramble (Config.scramblerState lane (s.dev.clk.tclk + dt)).toNat (s.dev.frameBlocks f no false)⟩ ∧
          (e.ring r).sent = (s.dev.ring r).sent + f.count) ∧
        ∀ at_, Effects (.tpFrameSend dt lane (some at_)) s fun e => Fired 22 s.dev e ∧ e.flag (TQ_STAT_REC_ECC r) = true ∧
          e.jobs.tp.lastSent = some ⟨lane, f, no, true, s.dev.frameBlocks f no true,
            scramble (Config.scramblerState lane (s.dev.clk.tclk + dt)).toNat (s.dev.frameBlocks f no true)⟩) ∧
      (∀ seq w, w = (seq % 65536 + 65537 - s.dev.rd (TQ_TAIL_TAIL r)) % 65536 →
        (0 < w → w ≤ (s.dev.ring r).top → Effects (.tpAckRx dt r seq (ackCrc 1 r seq)) s fun e =>
          e.rd (TQ_TAIL_TAIL r) = (seq + 1) % 2 ^ 16 ∧ (e.ring r).sent = (s.dev.ring r).sent - w ∧
          (e.ring r).top = (s.dev.ring r).top - w) ∧
        (w = 0 ∨ (s.dev.ring r).top < w → Effects (.tpAckRx dt r seq (ackCrc 1 r seq)) s fun e =>
          e.rd TP_ACK_ERR_COUNT = (s.dev.rd TP_ACK_ERR_COUNT + 1) % 2 ^ 32 ∧ e.flag TP_EVT_ACK_ERR = true ∧
          e.rd (TQ_TAIL_TAIL r) = s.dev.rd (TQ_TAIL_TAIL r) ∧ e.jobs = s.dev.jobs)) ∧
      (∀ seq w, w = (seq % 65536 + 65536 - s.dev.rd (TQ_TAIL_TAIL r)) % 65536 → w ≤ (s.dev.ring r).top →
        Effects (.tpNakRx dt r seq (ackCrc 2 r seq)) s fun e => e.flag TP_EVT_NAK_RX = true ∧ e.flag TP_EVT_REPLAY = true ∧
          e.rd TP_REPLAYS_COUNT = (s.dev.rd TP_REPLAYS_COUNT + 1) % 2 ^ 32 ∧ (e.ring r).sent = w) ∧
      (∀ q seq crc c, (c = Instr.tpAckRx dt q seq crc ∧ (16 ≤ q ∨ crc ≠ ackCrc 1 q seq)) ∨
          (c = .tpNakRx dt q seq crc ∧ (16 ≤ q ∨ crc ≠ ackCrc 2 q seq)) → Effects c s fun e =>
        e.rd TP_ACK_ERR_COUNT = (s.dev.rd TP_ACK_ERR_COUNT + 1) % 2 ^ 32 ∧ e.flag TP_EVT_ACK_ERR = true ∧
        e.jobs = s.dev.jobs) ∧
      (0 < (s.dev.ring r).top → (∀ t, (s.dev.ring r).replayFrom = some t → t / 4 ≠ (s.dev.clk.tclk + dt) / 4) →
        Effects (.tpReplayTimeout dt r) s fun e =>
        (e.ring r).sent = 0 ∧ e.flag TP_EVT_REPLAY = true ∧
        e.rd TP_REPLAYS_COUNT = (s.dev.rd TP_REPLAYS_COUNT + 1) % 2 ^ 32)) ∧
  (∀ (s : State) (dt : Nat),
      (s.dev.flag TP_CTL_ENABLE = true → s.dev.flag TP_STAT_TX0_UP = true → s.dev.jobs.tp.laneBad.length = 2 →
        Effects (.tpLaneFault dt 0) s fun e => e.flag TP_STAT_TX0_UP = false ∧ e.flag TP_EVT_LANE_DOWN = true ∧
          e.jobs.tp.laneBad.getD 0 false = true) ∧
      (s.dev.flag TP_STAT_TX1_UP = false → Effects (.tpLaneFault dt 1) s fun e => e.jobs = s.dev.jobs) ∧
      (Effects (.tpRxLockLoss dt) s fun e => e.flag TP_STAT_RX_UP = false ∧
        (s.dev.flag TP_STAT_RX_UP = true → e.flag TP_EVT_RX_DOWN = true)) ∧
      (Effects (.tpRxLockGain dt) s fun e => e.flag TP_STAT_RX_UP = true ∧ (23, 1) ∉ e.flt.live) ∧
      (s.dev.flag TP_CTL_ENABLE = true → s.dev.flag TP_STAT_RX_UP = false → (23, 1) ∉ s.dev.flt.live →
        Effects (.tpRxLockTimeout dt) s fun e => Fired 23 s.dev e ∧ (23, 1) ∈ e.flt.live))

/-! ### Paddocks (chapter 04) -/

/-- Updates of a paddock: a reference timestamp, with the offsets of its entry, pairs with the first feedback timestamp of
its window or is skipped, and what is left of a phase jump is absorbed either way; the skip of a gap; the loss of feedback;
the beat frequency of a gate and the error of a STEER paddock's update, and a gate that is too long; and which registers
these can reach. (The model's choices and readings in it: log 8, 48, 50, 51, 88.) -/
def Obligations.PaddockUpdates : Prop :=
  ∀ (s : State) (dt n : Nat), n < 16 → n < s.dev.pads.length →
    (∀ t absorb rest later (r : Int), s.dev.padLive n = true → s.dev.padKind n = 0 ∨ s.dev.padKind n = 2 →
      (s.dev.pad n).refQ = (t, absorb) :: rest → r = t + s.dev.refShift n →
      later = (s.dev.pad n).fbQ.filter (s.dev.pairFrom n r) →
      (later.find? (s.dev.pairTo n r) = none → Effects (.paddockUpdate dt n) s fun e =>
        e.rd (PAD_SKIP_COUNT n) = (s.dev.rd (PAD_SKIP_COUNT n) + 1) % 2 ^ 32 ∧ e.flag (PAD_HIST_SKIP n) = true ∧
        e.padBo n = (s.dev.setBo n (s.dev.padBo n - absorb)).padBo n ∧
        (e.pad n).refQ = rest ∧ (e.pad n).fbQ = later ∧ (e.pad n).secUsable = false) ∧
      (∀ f, later.find? (s.dev.pairTo n r) = some f → (s.dev.pad n).first = false →
        Effects (.paddockUpdate dt n) s fun e =>
          e.rd (PAD_UPD_COUNT n) = (s.dev.rd (PAD_UPD_COUNT n) + 1) % 2 ^ 32 ∧
          e.rdS (PAD_PERR_ERR n) = satI 32 ((s.dev.setBo n (s.dev.padBo n - absorb)).phaseErr n ((f : Int) - r) false) ∧
          (e.pad n).refQ = rest ∧ (e.pad n).fbQ = (later.dropWhile fun g => decide (g ≠ f)).tail ∧
          (e.pad n).secUpd = (s.dev.pad n).secUpd + 1)) ∧
    (Effects (.paddockUpdate dt n) s fun e =>
      OnlyRegs (fun a => selectionAt a ∨ a = rTQ_STAT (s.dev.rd (PAD_TEL_TEL_RING n)) ∨
        a = rTQ_DROP (s.dev.rd (PAD_TEL_TEL_RING n))) s.dev e) ∧
    (s.dev.padLive n = true → Effects (.updateGapSkip dt n) s fun e =>
      e.rd (PAD_SKIP_COUNT n) = (s.dev.rd (PAD_SKIP_COUNT n) + 1) % 2 ^ 32 ∧ e.flag (PAD_HIST_SKIP n) = true ∧
      (e.pad n).secUsable = false ∧ OnlyRegs (fun a => a = rPAD_SKIP n ∨ a = rPAD_HIST n) s.dev e) ∧
    (s.dev.padLive n = true → s.dev.padKind n = 0 ∨ s.dev.padKind n = 2 → s.dev.flag (PAD_STATE_FB_LOSS n) = false →
      Effects (.feedbackLoss dt n) s fun e => e.flag (PAD_STATE_FB_LOSS n) = true ∧ OnlyRegs selectionAt s.dev e) ∧
    ∀ b t t' rest, b < 8 → b < s.dev.beats.length → s.dev.measuring = true → s.dev.flag (BN_CFG_STEER_V b) = true →
      (s.dev.beat b).queue = t :: rest → (s.dev.beat b).lastTs = some t' →
      (t' < t → 2 * (t - t') * (s.dev.spacing (12 + b)).2 ≤ 3 * (s.dev.spacing (12 + b)).1 →
        Effects (.steerGateUpdate dt b) s fun e =>
          e.rd (BN_FREQ_FREQ b) = s.dev.gateFreq2 b (t - t') ∧ (e.beat b).queue = rest ∧ (e.beat b).lastTs = some t ∧
          (e.beat b).lastF = some (s.dev.gateFreq b (t - t')) ∧
          ∀ k, s.dev.rd (BN_CFG_PAD b) = n → s.dev.padLive n = true → s.dev.padKind n = 1 →
            s.dev.rd (PAD_STATE_ACTIVE_CH n) = 12 + b → (s.dev.pad n).first = false → s.dev.portFor n = some k →
            e.rd (PAD_UPD_COUNT n) = (s.dev.rd (PAD_UPD_COUNT n) + 1) % 2 ^ 32 ∧
            e.rdS (PAD_PERR_ERR n) = satI 32 ((s.dev.gateFreq b (t - t') : Int) - s.dev.teffIn k b)) ∧
      (3 * (s.dev.spacing (12 + b)).1 < 2 * (t - t') * (s.dev.spacing (12 + b)).2 → Effects (.steerGateUpdate dt b) s fun e =>
        (e.beat b).queue = rest ∧ (e.beat b).lastTs = some t ∧ OnlyRegs (fun _ => False) s.dev e)

/-- States and schedules of a paddock: a commanded step of device time (04 R112), STEERED's timeout and slew (R123), the model
correction (R129) and the history second (R126). (The model's choices and readings in it: log 55, 59, 63, 65, 66.) -/
def Obligations.PaddockSchedules : Prop :=
  ∀ (s : State) (dt m n : Nat), n < 16 → n < s.dev.pads.length →
    (∀ u, u = (s.dev.rdS (PAD_TSTEP_SEC_STEP n), s.dev.rdS (PAD_TSTEP_NS_STEP n)) → s.dev.Grants m (rPAD_TSTEP_CMD n) →
      (s.dev.padTk n = false ∨ 999999999 < u.2.natAbs ∨ (s.dev.pad n).tstep.isSome = true ∨
          (s.dev.advance dt).stepBelow (stepUnits u) = true →
        Effects (.tstepCmd dt m n) s fun e =>
          e.flag (PAD_ERR_TSTEP_REJ n) = true ∧ e.pads = s.dev.pads ∧ e.clk.dev = (s.dev.advance dt).clk.dev) ∧
      (s.dev.padTk n = true → u.2.natAbs ≤ 999999999 → (s.dev.pad n).tstep = none →
        (s.dev.advance dt).stepBelow (stepUnits u) = false →
        (s.dev.padUpdating n = true → Effects (.tstepCmd dt m n) s fun e =>
          (e.pad n).tstep = some u ∧ e.clk.dev = (s.dev.advance dt).clk.dev) ∧
        (s.dev.padUpdating n = false → Effects (.tstepCmd dt m n) s fun e =>
          (e.pad n).tstep = none ∧ e.flag (PAD_HIST_STEP_DONE n) = true ∧
          (e.clk.dev : Int) = ((s.dev.advance dt).clk.dev + stepUnits u * 2 ^ 32) % (devTop : Int)))) ∧
    (s.dev.applied = true → s.dev.padSt n = 4 →
      (s.dev.rd (PAD_SCFG_STEER_TMO n) ≠ 0 → s.dev.padKind n < 2 → Effects (.steeredTimeout dt n) s fun e =>
        e.flag (PAD_HIST_STEER_TMO n) = true ∧ e.padSt n = (if (s.dev.computeH n).2 then 3 else 0) ∧
        OnlyRegs selectionAt s.dev e) ∧
      (s.dev.padUpdating n = false → ∀ k : Int,
        k = min ((s.dev.pad n).spoRem.natAbs : Int) (s.dev.slewPer n (s.dev.rdIn (PAD_SCFG_PSLEW n) 1 65535)) →
        (0 ≤ (s.dev.pad n).spoRem → Effects (.phaseSlewTick dt n) s fun e =>
          (e.pad n).so = (s.dev.pad n).so + k ∧ (e.pad n).spoRem = (s.dev.pad n).spoRem - k) ∧
        ((s.dev.pad n).spoRem < 0 → Effects (.phaseSlewTick dt n) s fun e =>
          (e.pad n).so = (s.dev.pad n).so - k ∧ (e.pad n).spoRem = (s.dev.pad n).spoRem + k))) ∧
    (s.dev.applied = true → s.dev.flag (PAD_CTL_MODEL_EN n) = true → s.dev.flag (PAD_STATE_MODEL_STALE n) = false →
      Effects (.modelStale dt n) s fun e => e.flag (PAD_STATE_MODEL_STALE n) = true ∧
        e.flag (PAD_HIST_MODEL_STALE n) = true ∧ OnlyRegs (fun a => a = rPAD_STATE n ∨ a = rPAD_HIST n) s.dev e) ∧
    (s.dev.clk.bootclk = false → s.dev.running = true → Effects (.historySecond dt) s fun e =>
      e.clk.hsec = s.dev.clk.hsec + 1 ∧ (e.pad n).secSum = 0 ∧ (e.pad n).secUpd = 0 ∧ e.nvmc.fatals = 0 ∧
      (e.histEntry n 0 s.dev.clk.hsec).2 = b2n (s.dev.pad n).secUsable ∧
      ((s.dev.pad n).secUpd = 0 → (e.histEntry n 0 s.dev.clk.hsec).1 = s.dev.padWord n)) ∧
    (s.dev.clk.bootclk = true → Effects (.historySecond dt) s fun e => e.clk.hsec = s.dev.clk.hsec) ∧
    (s.dev.clk.bootclk = false → Effects (.historySecond dt) s fun e => e.clk.hsec = s.dev.clk.hsec + 1) ∧
    ∀ ms : List Int, s.dev.applied = true →
      ((s.dev.pad n).learn = true → Effects (.learnModelTick dt ms) s fun e =>
        e.word (rPAD_HMODEL_LO n) = Word.of (twos 48 (ms.getD n 0) % 2 ^ 32) ∧
        e.word (rPAD_HMODEL_HI n) = Word.of (twos 48 (ms.getD n 0) / 2 ^ 32) ∧
        e.word (rPAD_HMODEL_LO_C n) = Word.of (2 ^ 32 - 1 - twos 48 (ms.getD n 0) % 2 ^ 32) ∧
        e.flag (PAD_STATE_MODEL_STALE n) = false) ∧
      ((s.dev.pad n).learn = false → Effects (.learnModelTick dt ms) s fun e =>
        e.word (rPAD_HMODEL_LO n) = s.dev.word (rPAD_HMODEL_LO n) ∧
        e.word (rPAD_HMODEL_HI n) = s.dev.word (rPAD_HMODEL_HI n))

/-! ### References and selection (chapter 05) -/

/-- The causes and states of a reference monitor: loss and return of activity, spacing, WTR, windows; the stray and DISQ
firings of its states; and which registers a monitor's command can reach.
(The model's choices and readings in it: log 59, 67.) -/
def Obligations.ReferenceMonitors : Prop :=
  ∀ (s : State) (dt m n : Nat), n < 12 → n < s.dev.refs.length → s.dev.measuring = true →
    (s.dev.refState n ≠ 0 → s.dev.flag (REF_STAT_ACTIVITY n) = false → Effects (.refActivityLoss dt n) s fun e =>
      e.flag (REF_STAT_ACTIVITY n) = true ∧ e.flag (REF_EVT_ACTIVITY n) = true ∧ e.refState n = 1 ∧
      (2 ≤ s.dev.refState n → (s.dev.advance dt).refWasDisq n = false → e.flag (REF_EVT_DISQ n) = true ∧
        e.rd (REF_DISQ_CNT_COUNT n) = (s.dev.rd (REF_DISQ_CNT_COUNT n) + 1) % 2 ^ 32)) ∧
    (∀ c mask, (c, mask) ∈ [(Instr.refActivityRestore dt n, 2), (.spacingClear dt n, 16)] → s.dev.refState n = 1 →
      (s.dev.refCauses n = mask → s.dev.rd (REF_WTR_WTR n) ≠ 0 → Effects c s fun e =>
        e.refState n = 2 ∧ e.refCauses n = 0 ∧ e.rd (REF_WTR_LEFT_LEFT n) = s.dev.rd (REF_WTR_WTR n)) ∧
      (s.dev.refCauses n = mask → s.dev.rd (REF_WTR_WTR n) = 0 → Effects c s fun e =>
        e.refState n = (if s.dev.strayDone n then 4 else 3) ∧ e.refCauses n = 0) ∧
      (andNot (s.dev.refCauses n) mask ≠ 0 → Effects c s fun e =>
        e.refState n = 1 ∧ e.refCauses n = andNot (s.dev.refCauses n) mask)) ∧
    (∀ c, c = Instr.wtrExpiry dt n ∨ (c = .wtrClr dt m n ∧ s.dev.Grants m (rREF_CMD n)) → s.dev.refState n = 2 →
      ((s.dev.ref n).fmOk = true → Effects c s fun e => e.refState n = (if s.dev.strayDone n then 4 else 3) ∧
        e.rd (REF_WTR_LEFT_LEFT n) = 0 ∧ e.flag (REF_EVT_WTR_END n) = true) ∧
      ((s.dev.ref n).fmOk = false → Effects c s fun e => e.refState n = 2 ∧ e.rd (REF_WTR_LEFT_LEFT n) = 0 ∧
        (e.ref n).wtrDone = true)) ∧
    (∀ w r, (s.dev.ref n).win = some w →
      r = s.dev.fmResult w n (if s.dev.flag REF_OCXO_STAT_BASE = true then 50 else 51) →
      Effects (.fmWindowEnd dt n) s fun e =>
        (e.ref n).win = some (s.dev.fmWin n w.stop w.refNext w.baseNext w.refLost w.baseLost) ∧
        (∀ f, r = some f → e.rdS (REF_FOFF_FOFF n) = f ∧ e.flag (REF_STAT_FM_VALID n) = true ∧
          (s.dev.refState n ≠ 0 → s.dev.rdIn (REF_HARD_HURDLE n) 1 1048575 * 100 ≤ f.natAbs →
            s.dev.rdIn (REF_HARD_DWELL n) 1 255 ≤ (s.dev.ref n).hardCnt + 1 →
              e.refState n = 1 ∧ e.flag (REF_STAT_HARD n) = true)) ∧
        (r = none → e.rd (REF_FOFF_FOFF n) = s.dev.rd (REF_FOFF_FOFF n))) ∧
    (∀ c ∈ [Instr.refActivityLoss dt n, .refActivityRestore dt n, .spacingClear dt n, .wtrExpiry dt n, .fmWindowEnd dt n],
      Effects c s fun e => OnlyRegs (refSide n) s.dev e) ∧
    (∀ d : Dev, Fired 26 d (d.refEnter n 1) ∧ Fired 27 d (d.refEnter n 4))

/-- The OCXOIN monitor (05 R150): loss of activity ends PRESENT and makes XOIN the base; a window gives its offset;
OCXO_ABSENT where it has not qualified; and the aliveness of a candidate channel without a monitor (R153), which has
selection evaluated again. What selection names (R152, R154): the entry of a manual selection that is usable; none where no
entry is usable; and in AUTO, where no reference is active and no vote has named one, the first eligible entry of the best
rank. (The model's choices and readings in it: log 59, 70, 71, 73, 173.) -/
def Obligations.OcxoAndCandidates : Prop :=
  (∀ (d v : Dev) (n : Nat) (results : List Nat), d.padKind n ≠ 3 → d.applied = true → v = d.votePad n results →
    (d.rd (PAD_SEL_SEL_MODE n) = 1 → ∀ i, i = d.rd (PAD_SEL_MAN_IDX n) → d.entryUsable n i = true →
      (d.selectPad n results).activeEntry n = some i) ∧
    ((∀ i < 8, d.entryUsable n i = false) → (d.selectPad n results).activeEntry n = none) ∧
    (d.rd (PAD_SEL_SEL_MODE n) = 0 → d.activeEntry n = none → (v.selOf n).target = none → ∀ i < 8, v.elig n i = true →
      (∀ j < 8, v.elig n j = true → v.entryRank n i ≤ v.entryRank n j ∧ (v.entryRank n i = v.entryRank n j → i ≤ j)) →
      (d.selectPad n results).activeEntry n = some i)) ∧
  ∀ (s : State) (dt : Nat), s.dev.measuring = true →
    (12 < s.dev.refs.length → s.dev.flag REF_OCXO_CFG_DECL = true → (s.dev.ref 12).lost = false →
      (Effects (.refActivityLoss dt 12) s fun e => (e.ref 12).lost = true ∧ (e.ref 12).hardCnt = 0) ∧
      (s.dev.flag REF_OCXO_STAT_PRESENT = true → Effects (.refActivityLoss dt 12) s fun e =>
        e.flag REF_OCXO_STAT_PRESENT = false ∧ e.flag REF_OCXO_STAT_BASE = true ∧ e.flag REF_OCXO_EVT_LOSS = true ∧
        ∀ n < 12, ∀ w, (e.ref n).win = some w → w.discarded = true)) ∧
    (12 < s.dev.refs.length → Effects (.refActivityRestore dt 12) s fun e => (e.ref 12).lost = false) ∧
    (∀ w f, (s.dev.ref 12).win = some w → s.dev.fmResult w 51 50 = some f → Effects (.fmWindowEnd dt 12) s fun e =>
      e.rdS REF_OCXO_FOFF_FOFF = f ∧
      (s.dev.rdIn REF_OCXO_CFG_OCXO_HARD 1 1048575 * 100 < f.natAbs → e.flag REF_OCXO_STAT_PRESENT = false)) ∧
    (s.dev.flag REF_OCXO_CFG_DECL = true → s.dev.flag REF_OCXO_STAT_PRESENT = false → (29, 0) ∉ s.dev.flt.live →
      Effects (.ocxoQualTimeout dt) s fun e => Fired 29 s.dev e ∧ (29, 0) ∈ e.flt.live ∧ OnlyRegs firingAt s.dev e) ∧
    ∀ ch, ch < 64 → ch ∈ s.dev.alive → Effects (.candNoEdge dt ch) s fun e =>
      e.alive = s.dev.alive.filter (fun c => decide (c ≠ ch)) ∧ e.selNow.isSome = true ∧ OnlyRegs (fun _ => False) s.dev e

/-! ### Craft pins (chapter 14) -/

/-- Plugs, push buttons, LEDs and the external sensor (05 R142; 14 R373 to R379).
(The model's choices and readings in it: log 150, 151.) -/
def Obligations.CraftPins : Prop :=
  ∀ (s : State) (dt k : Nat),
    (k < 4 →
      (Effects (.plugPull dt k) s fun e => e.flag ⟨rCRAFT_STAT, 16 + k, 16 + k⟩ = false ∧
        (s.dev.flag ⟨rCRAFT_STAT, 16 + k, 16 + k⟩ = true → e.flag CRAFT_EVT_PLUG = true) ∧
        (s.dev.measuring = true → s.dev.flag (REF_CFG_PLUG_EN (8 + k)) = true → s.dev.refState (8 + k) ≠ 0 →
          e.flag (REF_STAT_PLUG (8 + k)) = true ∧ e.refState (8 + k) = 1)) ∧
      (Effects (.plugInsert dt k) s fun e => e.flag ⟨rCRAFT_STAT, 16 + k, 16 + k⟩ = true ∧
        e.refCauses (8 + k) = s.dev.refCauses (8 + k) ∧ e.refState (8 + k) = s.dev.refState (8 + k)) ∧
      (s.dev.measuring = true → s.dev.plugIs (8 + k) true = true → Effects (.plugSettle dt k) s fun e =>
        e.flag (REF_STAT_PLUG (8 + k)) = false ∧ OnlyRegs (refSide (8 + k)) s.dev e) ∧
      ((s.dev.advance dt).ledSink k = 0 → Effects (.ledOpen dt k true) s fun e => e = s.dev.advance dt) ∧
      ((s.dev.advance dt).ledSink k ≠ 0 → (53, k) ∉ s.dev.flt.live → Effects (.ledOpen dt k true) s fun e =>
        e.flag ⟨rCRAFT_STAT, 24 + k, 24 + k⟩ = true ∧ e.flag CRAFT_EVT_LED_OPEN = true ∧ Fired 53 s.dev e ∧
        (53, k) ∈ e.flt.live) ∧
      Effects (.ledOpen dt k false) s fun e =>
        e.flag ⟨rCRAFT_STAT, 24 + k, 24 + k⟩ = false ∧ (53, k) ∉ e.flt.live ∧
          OnlyRegs (fun a => a = rCRAFT_STAT) s.dev e) ∧
    (k < 2 →
      (s.dev.applied = true ∨ s.dev.clk.bootclk = false → s.dev.flag (pbBit k) = false → Effects (.pbPress dt k) s fun e =>
        e.flag (pbBit k) = true ∧ e.flag (if k = 0 then CRAFT_EVT_PRESS_0 else CRAFT_EVT_PRESS_1) = true ∧
        (s.dev.pbFunc k = 1 → ∀ n < 16, s.dev.rd (PAD_SEL_PB_SRC n) = k + 1 → e.flag (PAD_SEL_EVT_PB n) = true) ∧
        (s.dev.pbFunc k = 2 → e.lampTest = true ∧ e.finish.flag CRAFT_EVT_LAMP = true) ∧
        (s.dev.pbFunc k = 3 → e.flag CRAFT_EVT_ACK = true ∧ ∀ i < 4, s.dev.flag FLT_STAT_FSTATE = true →
          s.dev.rd (CRAFT_LED_SRC i) = 1 → e.front.ledAck.getD i false = true) ∧
        (s.dev.pbFunc k ≠ 1 → s.dev.pbFunc k ≠ 3 →
          OnlyRegs (fun a => a = rCRAFT_STAT ∨ a = rCRAFT_EVT) s.dev e)) ∧
      (Effects (.pbRelease dt k) s fun e => e.flag (pbBit k) = false ∧ (52, k) ∉ e.flt.live ∧
        OnlyRegs (fun a => a = rCRAFT_STAT) s.dev e) ∧
      (s.dev.flag (pbBit k) = true → (52, k) ∉ s.dev.flt.live → Effects (.pbStuck dt k) s fun e =>
        e.flag CRAFT_EVT_PB_STUCK = true ∧ Fired 52 s.dev e ∧ (52, k) ∈ e.flt.live)) ∧
    (s.dev.applied = true → s.dev.flag CRAFT_SENS_CFG_EN = true →
      (∀ hi lo : Nat, ∀ v : Int, hi < 256 → lo < 256 → v = (if hi < 128 then (256 * hi + lo : Int) else 256 * hi + lo - 65536) →
        Effects (.sensRead dt (.data hi lo)) s fun e =>
          e.rdS CRAFT_SENS_TEMP_TEMP = divRound v (if s.dev.flag CRAFT_SENS_CFG_FORMAT then 8 else 16) ∧
          e.front.sensTx = [2 * s.dev.rd CRAFT_SENS_CFG_ADDR, s.dev.rd CRAFT_SENS_CFG_PTR, 2 * s.dev.rd CRAFT_SENS_CFG_ADDR + 1] ∧
          e.flag CRAFT_SENS_TEMP_VALID = true ∧ e.rd CRAFT_SENS_TEMP_FAILS = 0 ∧ (50, 0) ∉ e.flt.live) ∧
      (∀ n, s.dev.rd CRAFT_SENS_TEMP_FAILS < 2 → Effects (.sensRead dt (.failed n)) s fun e =>
        e.rd CRAFT_SENS_TEMP_FAILS = s.dev.rd CRAFT_SENS_TEMP_FAILS + 1 ∧
        OnlyRegs (fun a => a = rCRAFT_SENS_TEMP) s.dev e) ∧
      (∀ n, s.dev.rd CRAFT_SENS_TEMP_FAILS = 2 → (50, 0) ∉ s.dev.flt.live → Effects (.sensRead dt (.failed n)) s fun e =>
        e.rd CRAFT_SENS_TEMP_FAILS = 3 ∧ e.flag CRAFT_SENS_TEMP_VALID = false ∧ e.flag CRAFT_EVT_SENS_FAIL = true ∧
        Fired 50 s.dev e))

/-! ### Flocks and outputs (chapter 06) -/

/-- APLLs (06 R165, R167, R168, R185), synthesisers (R174), outputs (R178 to R184; 11 R281) and the tap tee (R188). (The model's
choices and readings in it: log 62, 78, 79, 80, 81, 178, 183, 197.) -/
def Obligations.FlocksAndOutputs : Prop :=
  ∀ (s : State) (dt m k n : Nat), k < 6 → n < 24 → k < s.dev.aplls.length → n < s.dev.outs.length →
    (s.dev.Grants m (rFLOCK_CMD k) → ∀ idle, idle = ((s.dev.outputsOf k).all fun o =>
        decide (s.dev.rd (OUT_STAT_STATE o) = 0) || decide (s.dev.rd (OUT_STAT_STATE o) = 3)) →
      (idle = true → s.dev.flag (FLOCK_CFG_USED k) = true → s.dev.flag (FLOCK_STAT_CAL_BUSY k) = false →
        Effects (.recal dt m k) s fun e => e.flag (FLOCK_STAT_CAL_BUSY k) = true ∧ e.flag (FLOCK_STAT_LOCK k) = false) ∧
      (idle = false ∨ s.dev.flag (FLOCK_CFG_USED k) = false ∨ s.dev.flag (FLOCK_STAT_CAL_BUSY k) = true →
        Effects (.recal dt m k) s fun e => e.flag (FLOCK_EVT_CMD_REJ k) = true ∧ e.word (rFLOCK_STAT k) = s.dev.word (rFLOCK_STAT k))) ∧
    (s.dev.flag (FLOCK_STAT_CAL_BUSY k) = true →
      (∀ band, Effects (.apllCalDone dt k true band) s fun e =>
        e.flag (FLOCK_STAT_CAL_BUSY k) = false ∧ e.flag (FLOCK_STAT_LOCK k) = true ∧ e.rd (FLOCK_STAT_BAND k) = band % 256 ∧
        e.flag (FLOCK_EVT_CAL_DONE k) = true ∧ (30, k) ∉ e.flt.live) ∧
      ∀ band, Effects (.apllCalDone dt k false band) s fun e =>
        e.flag (FLOCK_STAT_CAL_BUSY k) = false ∧ e.flag (FLOCK_EVT_CAL_FAIL k) = true ∧ (e.apll k).calFail = true ∧
        Fired 30 s.dev e ∧ (30, k) ∈ e.flt.live) ∧
    (s.dev.flag (FLOCK_STAT_LOCK k) = true → (30, k) ∉ s.dev.flt.live → Effects (.apllLol dt k) s fun e =>
      e.flag (FLOCK_STAT_LOCK k) = false ∧ e.flag (FLOCK_EVT_LOL k) = true ∧ Fired 30 s.dev e ∧ (30, k) ∈ e.flt.live ∧
      e.rd (FLOCK_LOL_CNT_VALUE k) = (s.dev.rd (FLOCK_LOL_CNT_VALUE k) + 1) % 2 ^ 32) ∧
    (s.dev.flag (FLOCK_CFG_USED k) = true → s.dev.flag (FLOCK_STAT_LOCK k) = false →
      s.dev.flag (FLOCK_STAT_CAL_BUSY k) = false → (s.dev.apll k).calFail = false → (s.dev.apll k).down = false →
      Effects (.apllRelock dt k) s fun e => e.flag (FLOCK_STAT_LOCK k) = true ∧ (30, k) ∉ e.flt.live ∧
        OnlyRegs (fun a => a = rFLOCK_STAT k) s.dev e) ∧
    (s.dev.underMode = .sleep → s.dev.flag (FLOCK_CFG_USED k) = true →
      (∀ o ∈ s.dev.outputsOf k, s.dev.rd (OUT_STAT_STATE o) = 0 ∨ s.dev.rd (OUT_STAT_STATE o) = 3) →
      (s.dev.apll k).down = false → Effects (.apllPowerDown dt k) s fun e =>
        e.flag (FLOCK_STAT_LOCK k) = false ∧ (e.apll k).down = true ∧ OnlyRegs (fun a => a = rFLOCK_STAT k) s.dev e) ∧
    (∀ j, j < 4 → j < s.dev.psyns.length → s.dev.flag (PSYN_STAT_RUNNING j) = true →
      ((s.dev.psyn j).next * 2 ^ 32 ≤ s.dev.psynAcc j (s.dev.clk.tclk + dt + 1) → Effects (.psynPulse dt j) s fun e =>
        e.rd (PSYN_CNT_COUNT j) = (s.dev.rd (PSYN_CNT_COUNT j) + 1) % 2 ^ 32 ∧
        (e.psyn j).next = (s.dev.psyn j).next + s.dev.psynPeriod j ∧
        (e.psyn j).pulseEnd = (s.dev.psyn j).next + s.dev.psynWidth j ∧
        (e.psyn j).pulses = (s.dev.psyn j).pulses + 1 ∧ OnlyRegs (fun a => a = rPSYN_CNT j) s.dev e) ∧
      (s.dev.psynAcc j (s.dev.clk.tclk + dt + 1) < (s.dev.psyn j).next * 2 ^ 32 → Effects (.psynPulse dt j) s fun e =>
        e = s.dev.advance dt)) ∧
    (∀ high, s.dev.rd (OUT_STAT_STATE n) = 2 → Effects (.outputStopDone dt n high) s fun e =>
      e.rd (OUT_STAT_STATE n) = (if s.dev.outMayRun n then 1 else 3) ∧ e.flag (OUT_EVT_STOPPED n) = true ∧
      (high = true → s.dev.flag (OUT_CFG_SLOW n) = true → e.flag (OUT_EVT_TRUNC n) = true) ∧
      (s.dev.outMayRun n = false → s.dev.flag (OUT_STAT_DRV_FAULT n) = false → (s.dev.out n).cut = false →
        e.outDrive n = s.dev.outSafe n) ∧
      OnlyRegs (fun a => a = rOUT_STAT n ∨ a = rOUT_EVT n) s.dev e) ∧
    (s.dev.rd (OUT_STAT_STATE n) = 1 → Effects (.outputStart dt n) s fun e =>
      (e.out n).starting = false ∧ (s.dev.flag (OUT_STAT_DRV_FAULT n) = false → (s.dev.out n).cut = false →
        e.outDrive n = s.dev.outWave n) ∧ OnlyRegs (fun _ => False) s.dev e) ∧
    (s.dev.rd (OUT_STAT_STATE n) ≠ 0 → s.dev.flag (OUT_STAT_DRV_FAULT n) = false → s.dev.flag (OUT_CFG_USED n) = true →
      Effects (.drvFault dt n) s fun e => e.rd (OUT_STAT_STATE n) = 3 ∧ e.flag (OUT_STAT_DRV_FAULT n) = true ∧
        e.flag (OUT_EVT_DRV_FAULT n) = true ∧ Fired 31 s.dev e ∧ e.outDrive n = (.highZ, .highZ)) ∧
    (s.dev.rd (OUT_STAT_STATE n) = 1 → (59, n) ∉ s.dev.flt.live → Effects (.outTapLoss dt n true) s fun e =>
      Fired 59 s.dev e ∧ (59, n) ∈ e.flt.live ∧ OnlyRegs firingAt s.dev e) ∧
    (Effects (.outTapLoss dt n false) s fun e => (59, n) ∉ e.flt.live ∧ OnlyRegs (fun _ => False) s.dev e) ∧
    ∀ src dest, src < 32 → dest < 32 → s.dev.Grants m rOUT_TEE →
      (src < 24 → dest < 24 → src ≠ dest → s.dev.claimed (20 + dest) = false → s.dev.jobUses (20 + dest) = false →
        Effects (.outTeeWrite dt m true src dest) s fun e =>
          e.flag OUT_TEE_EN = true ∧ e.rd OUT_TEE_DEST = dest ∧ e.rd OUT_TEE_SRC = src) ∧
      (24 ≤ src ∨ 24 ≤ dest ∨ src = dest ∨ s.dev.claimed (20 + dest) = true ∨ s.dev.jobUses (20 + dest) = true →
        Effects (.outTeeWrite dt m true src dest) s fun e =>
          e.flag OUT_ERR_TEE_REJ = true ∧ e.word rOUT_TEE = s.dev.word rOUT_TEE) ∧
      (s.dev.jobUses (20 + s.dev.rd OUT_TEE_DEST) = false → Effects (.outTeeWrite dt m false src dest) s fun e =>
        e.flag OUT_TEE_EN = false)

/-! ### Carrier-grid lock (chapter 07) -/

/-- Beat monitors (07 R196) and steering ports: the accumulator (R201), frames (R203 to R205), commands (R205, R207) and
faults (R206). (The model's choices and readings in it: log 59, 83, 84, 85, 86, 87, 181.) -/
def Obligations.BeatsAndSteeringPorts : Prop :=
  ∀ (s : State) (dt m b k p : Nat), b < 8 → k < 8 → k < s.dev.ports.length → p = s.dev.rd (STEER_CFG_PAD k) →
    (s.dev.measuring = true → s.dev.flag (BN_CFG_STEER_V b) = true →
      (∀ c cause, (c, cause) ∈ [(Instr.bnNoEdge dt b, 0), (.bnLos dt b, 1)] → s.dev.flag ⟨rBN_STAT b, cause, cause⟩ = false →
        Effects c s fun e => e.flag ⟨rBN_STAT b, cause, cause⟩ = true ∧ e.flag ⟨rBN_EVT b, cause, cause⟩ = true ∧
          e.flag (BN_STAT_QUAL b) = false ∧ OnlyRegs (fun a => a = rBN_STAT b ∨ a = rBN_EVT b ∨ firingAt a) s.dev e) ∧
      (s.dev.rd ⟨rBN_STAT b, 3, 0⟩ = 2 → Effects (.bnLosClear dt b) s fun e =>
        e.flag (BN_STAT_LOS b) = false ∧ e.flag (BN_STAT_QUAL b) = true) ∧
      (andNot (s.dev.rd ⟨rBN_STAT b, 3, 0⟩) 2 ≠ 0 → Effects (.bnLosClear dt b) s fun e =>
        e.flag (BN_STAT_LOS b) = false ∧ e.flag (BN_STAT_QUAL b) = false)) ∧
    (∀ d : Dev, ∀ c < 4, d.flag (BN_CFG_STEER_V b) = true → d.flag ⟨rBN_STAT b, c, c⟩ = false → Fired 32 d (d.beatSet b c)) ∧
    (∀ a v : Int, s.dev.applied = true → s.dev.mode ≠ .sleep → s.dev.flag (STEER_CFG_USED k) = true →
      s.dev.padSt p = 0 ∨ s.dev.padSt p = 3 → s.dev.rd (STEER_STAT_STATE k) = 1 →
      a = (s.dev.port k).acc - divRound (s.dev.padWord p * ((s.dev.padTu p).1 * 2 ^ 32 : Nat)) (s.dev.padTu p).2 →
      v = s.dev.portRaw k a →
      (s.dev.portLo k ≤ v → v ≤ s.dev.portHi k → Effects (.steerAccTick dt k) s fun e =>
        (e.port k).acc = a ∧ (e.port k).sTgt = v ∧ e.flag (STEER_STAT_CLAMP_LIM k) = false ∧
        e.flag (PAD_STATE_CLAMPED p) = false) ∧
      (v < s.dev.portLo k ∨ s.dev.portHi k < v → Effects (.steerAccTick dt k) s fun e =>
        (e.port k).sTgt = min (max v (s.dev.portLo k)) (s.dev.portHi k) ∧
        (e.port k).acc =
          (min (max v (s.dev.portLo k)) (s.dev.portHi k) - s.dev.portCenter k) * s.dev.portGain k * 2 ^ 32 ∧
        e.flag (STEER_STAT_CLAMP_LIM k) = true ∧ e.flag (STEER_EVT_CLAMP k) = true ∧ e.flag (PAD_STATE_CLAMPED p) = true)) ∧
    (s.dev.applied = true → s.dev.portReason k = true → s.dev.flag (STEER_STAT_BUSY k) = false →
      (∀ t, (s.dev.port k).frameAt = some t → t + s.dev.portSpacing k ≤ s.dev.clk.tclk + dt) →
      Effects (.steerFrameStart dt k) s fun e =>
        e.flag (STEER_STAT_BUSY k) = true ∧ e.flag (STEER_WORD_SENT_V k) = true ∧
        (e.port k).frameAt = some (s.dev.clk.tclk + dt) ∧
        (∀ v, v = (if (s.dev.port k).resend then s.dev.portLast k
            else if s.dev.rd (STEER_STAT_STATE k) = 1 then s.dev.portNext k else s.dev.portPark k) →
          (s.dev.port k).resend = true ∨ s.dev.rd (STEER_STAT_STATE k) = 1 ∨ s.dev.flag (STEER_CTL_PARK_SLEW k) = false →
          e.rd (STEER_WORD_S k) = twos 24 v ∧ (e.port k).sent = some
            { start := s.dev.clk.tclk + dt, bits := s.dev.portFrame k v, len := s.dev.portLen k
              half := 16 * (s.dev.rdIn (STEER_CTL_SCK_DIV k) 1 255 + 1), mode3 := s.dev.flag (STEER_CFG_SPIMODE k) }) ∧
        (e.portPins k).csN = .low ∧
        OnlyRegs (fun x => x = rSTEER_WORD k ∨ x = rSTEER_STAT k) s.dev e) ∧
    (s.dev.portReason k = false → Effects (.steerFrameStart dt k) s fun e =>
      e.ports = s.dev.ports ∧ OnlyRegs (fun _ => False) s.dev e) ∧
    (s.dev.flag (STEER_STAT_BUSY k) = true → Effects (.steerFrameEnd dt k) s fun e =>
      e.flag (STEER_STAT_BUSY k) = false ∧
      e.rd (STEER_FRAMES_FRAMES k) = (s.dev.rd (STEER_FRAMES_FRAMES k) + 1) % 2 ^ 32 ∧
      OnlyRegs (fun x => x = rSTEER_FRAMES k ∨ x = rSTEER_STAT k) s.dev e) ∧
    (s.dev.rd (STEER_TIMING_REFRESH k) ≠ 0 → s.dev.rd (STEER_STAT_STATE k) = 1 → Effects (.steerRefresh dt k) s fun e =>
      (e.port k).refresh = true ∧ e.flag (STEER_STAT_PENDING k) = (s.dev.measuring && !s.dev.flag (STEER_STAT_BUSY k))) ∧
    (s.dev.Grants m (rSTEER_CMD k) →
      (s.dev.rd (STEER_STAT_STATE k) = 1 → Effects (.send dt m k) s fun e =>
        (e.port k).send = true ∧ e.flag (STEER_STAT_PENDING k) = (s.dev.measuring && !s.dev.flag (STEER_STAT_BUSY k))) ∧
      (s.dev.rd (STEER_STAT_STATE k) = 2 → s.dev.mode ≠ .fold → s.dev.padSt p = 1 ∨ s.dev.padSt p = 2 →
        s.dev.rd (STEER_STAT_CAUSE k) ≠ 5 → s.dev.flag (STEER_STAT_CLAMP_LIM k) = false →
        (s.dev.port k).trigAt ≠ some (s.dev.advance dt).clk.edge →
        Effects (.resume dt m k) s fun e => e.rd (STEER_STAT_STATE k) = b2n (s.dev.flag (STEER_CTL_ENABLE k)) ∧
          e.rd (STEER_STAT_CAUSE k) = 0 ∧ e.flag (STEER_EVT_RESUMED k) = true ∧
          (e.port k).send = s.dev.flag (STEER_CTL_ENABLE k) ∧ (e.port k).sTgt = s.dev.portLast k ∧
          (e.port k).acc = (s.dev.portLast k - s.dev.portCenter k) * s.dev.portGain k * 2 ^ 32) ∧
      (s.dev.rd (STEER_STAT_STATE k) ≠ 2 ∨ s.dev.mode = .fold ∨ s.dev.rd (STEER_STAT_CAUSE k) = 5 ∨
          s.dev.flag (STEER_STAT_CLAMP_LIM k) = true ∨ (s.dev.padSt p ≠ 1 ∧ s.dev.padSt p ≠ 2) ∨
          (s.dev.port k).trigAt = some (s.dev.advance dt).clk.edge →
        Effects (.resume dt m k) s fun e => e.flag (STEER_EVT_CMD_REJ k) = true ∧ e.ports = s.dev.ports ∧
          e.word (rSTEER_STAT k) = s.dev.word (rSTEER_STAT k))) ∧
    (∀ c cause, (c = Instr.steerHoldTimeout dt k ∧ cause = 3 ∧ s.dev.flag (STEER_CTL_FT_HOLDTMO k) = true ∧
          s.dev.padSt p = 3) ∨
        (c = .steerClampTimeout dt k ∧ cause = 4 ∧ s.dev.flag (STEER_CTL_FT_CLAMP k) = true ∧
          s.dev.flag (STEER_STAT_CLAMP_LIM k) = true) →
      s.dev.rd (STEER_STAT_STATE k) = 1 → Effects c s fun e => e.rd (STEER_STAT_STATE k) = 2 ∧
        e.rd (STEER_STAT_CAUSE k) = cause ∧ e.flag (STEER_EVT_FAULT k) = true ∧ Fired 33 s.dev e ∧
        e.flag (STEER_STAT_PARKED k) = s.dev.flag (STEER_CTL_ACT k))

/-! ### The pasture (chapter 08) -/

/-- Links of a pasture: marks and their timestamps, the TS frame that follows a launch, and exchanges (08 R215, R216), sync and
HELLO with the check of ASYM (R214, R217), discarded frames (R212), and the election: BELLWETHER to CANDIDATE, CANDIDATE to
BELLWETHER or FOLLOWER, FOLLOWER to CANDIDATE, and PREEMPT (R220). (The model's choices and readings in it: log 5, 11, 27, 90, 91,
93, 159, 161.) -/
def Obligations.PastureLinks : Prop :=
  ∀ (s : State) (dt x : Nat), x < 2 → s.dev.past.links.length = 2 →
    (∀ a b, s.dev.running = true → Effects (.markLaunch dt a b) s fun e =>
      (e.link x).mseq = (if s.dev.linkUp x then ((s.dev.link x).mseq + 1) % 65536 else (s.dev.link x).mseq) ∧
      (s.dev.linkUp x = true → s.dev.past.lanes.length = 2 →
        ∃ f, f ∈ e.past.tx ∧ f ∈ (e.past.lanes.getD x Lane.fresh).queue ∧
          f = PFrame.of x 1 0xE s.dev.pastIndex 0 0 (bytesN 2 (((s.dev.link x).mseq + 1) % 65536)))) ∧
    (∀ a b q c ok sub tag mseq arr k, s.dev.measuring = true → s.dev.claimed (44 + x) = true → s.dev.meas.handover = none →
      (c, ok, sub, tag, mseq) ∈
        [(Instr.markLaunch dt a b, s.dev.linkUp x, if x = 0 then a else b, 1, ((s.dev.link x).mseq + 1) % 65536),
         (.markRx dt x q a, s.dev.flag (PLINK_STAT_SYNC x) && !s.dev.ignoresNear x, a, 2, q)] → ok = true →
      (s.dev.loopCells (44 + x)).filter (fun i => !(s.dev.cell i).busy && decide ((s.dev.cell i).half + 1 = tag)) = [k] →
      s.dev.rd (MCH_DEC_DEC (44 + x)) = 1 → arr = (s.dev.clk.tclk + dt) * 40960 + sub % 40960 →
      (∀ t, (s.dev.chan (chanIdx (44 + x) tag)).lastFwd = some t → t + 163840 ≤ arr) →
      (∀ t, (s.dev.chan (chanIdx (44 + x) tag)).lastConv = some t → t + 500 * 65536 ≤ arr) →
      Effects c s fun e =>
        ⟨44 + x, arr, tag, mseq, s.dev.rdS (MCH_TRIM_TRIM (44 + x)), s.dev.clk.tclk + dt + 2, false, 0, s.dev.clk.inc, none,
          [(k, Part.waiting)], none⟩ ∈ e.meas.events) ∧
    (∀ k (code : CellCode) redOk rstOk tableEcc ecc (ev : Event) rest at_ ts, k < 48 → s.dev.measuring = true →
      (s.dev.cell k).pilot = none → takeEvent k (s.dev.advance dt).meas.events = some (ev, rest) →
      ev.parts = [(k, .waiting)] → ev.handover = none → ev.chan = 44 + x → convFault code.code redOk rstOk tableEcc = 0 →
      at_ = ev.latch (s.dev.advance dt).clk (max (ev.stopAt + 1) (s.dev.clk.tclk + dt)) →
      ts = stamp (at_.stop code.later).1 (at_.stop code.later).2 (s.dev.fraction k code.code) (s.dev.chanDelay ev.chan ev.trim) →
      (ev.tag = 2 → Effects (.conversionDone dt k code redOk rstOk tableEcc ecc) s fun e =>
        (e.link x).arrivals = (⟨ev.mseq, ts⟩ :: (s.dev.link x).arrivals).take 4 ∧ (e.link x).launches = (s.dev.link x).launches) ∧
      (ev.tag = 1 → Effects (.conversionDone dt k code redOk rstOk tableEcc ecc) s fun e =>
        (e.link x).launches = (⟨ev.mseq, ts⟩ :: (s.dev.link x).launches).take 4 ∧ (e.link x).arrivals = (s.dev.link x).arrivals ∧
        (s.dev.linkUp x = true → ∀ m, (s.dev.link x).arrivals.head? = some m →
          PFrame.of x 2 0xE s.dev.pastIndex 0 0 (tsBytes ts ++ bytesN 2 ev.mseq ++ tsBytes m.ts ++ bytesN 2 m.mseq) ∈ e.past.tx))) ∧
    (∀ q sub, s.dev.running = true → Effects (.markRx dt x q sub) s fun e =>
      e.rd (PLINK_FRAMES_COUNT x) =
        if s.dev.flag (PLINK_STAT_SYNC x) && !s.dev.ignoresNear x then (s.dev.rd (PLINK_FRAMES_COUNT x) + 1) % 2 ^ 32
        else s.dev.rd (PLINK_FRAMES_COUNT x)) ∧
    (∀ (launch mL arrival mA : Nat), s.dev.running = true → s.dev.linkUp x = true → s.dev.ignoresNear x = false →
      (∀ ar la, findMark (s.dev.link x).arrivals mL = some ar → findMark (s.dev.link x).launches mA = some la →
        Effects (.tsRx dt x launch mL arrival mA) s fun e =>
          e.rd48 (PLINK_OFF_LO_OFF x) (PLINK_OFF_HI_OFF x) =
            twos 48 (divRound (((ar : Int) - launch) - ((arrival : Int) - la) + s.dev.rdS (PLINK_ASYM_ASYM x)) 2) ∧
          e.rd48 (PLINK_RTT_LO_RTT x) (PLINK_RTT_HI_RTT x) = twos 48 (((ar : Int) - launch) + ((arrival : Int) - la)) ∧
          e.rd (PLINK_FRAMES_COUNT x) = (s.dev.rd (PLINK_FRAMES_COUNT x) + 1) % 2 ^ 32) ∧
      (findMark (s.dev.link x).arrivals mL = none ∨ findMark (s.dev.link x).launches mA = none →
        Effects (.tsRx dt x launch mL arrival mA) s fun e =>
          e.rd (PLINK_MLOST_COUNT x) = (s.dev.rd (PLINK_MLOST_COUNT x) + 1) % 2 ^ 32 ∧ e.flag (PLINK_EVT_MLOST x) = true)) ∧
    (∀ src h, src < 8 → s.dev.running = true → s.dev.flag (PLINK_STAT_SYNC x) = true →
      (src ≠ s.dev.pastIndex → Effects (.helloRx dt x src h) s fun e =>
        e.flag (PLINK_STAT_NB_V x) = true ∧ e.rd (PLINK_STAT_NB_IDX x) = src ∧ e.rd (PLINK_STAT_NB_ROLE x) = h.role % 4 ∧
        e.rd (PLINK_STAT_NB_HOPS x) = h.hops % 8 ∧ (e.link x).hellos = min 3 ((s.dev.link x).hellos + 1) ∧
        (e.linkUp x = (s.dev.linkUp x || decide (2 ≤ (s.dev.link x).hellos))) ∧
        (s.dev.linkUp x = false → 2 ≤ (s.dev.link x).hellos → e.flag (PLINK_EVT_UP x) = true) ∧
        e.flag (PLINK_STAT_ASYM_MM x) = decide (1 < (h.asym + s.dev.rdS (PLINK_ASYM_ASYM x)).natAbs) ∧
        (e.flag (PLINK_STAT_ASYM_MM x) = true → s.dev.flag (PLINK_STAT_ASYM_MM x) = false →
          e.flag (PLINK_EVT_ASYM_MM x) = true)) ∧
      (src = s.dev.pastIndex → Effects (.helloRx dt x src h) s fun e =>
        e.flag PAST_EVT_DUP_INDEX = true ∧ e.link x = s.dev.link x)) ∧
    (s.dev.running = true → s.dev.flag (PLINK_STAT_SYNC x) = true → Effects (.frameDiscard dt x) s fun e =>
      e.rd (PLINK_CRC_CNT_COUNT x) = (s.dev.rd (PLINK_CRC_CNT_COUNT x) + 1) % 2 ^ 32 ∧ e.flag (PLINK_EVT_CRC x) = true ∧
      (s.dev.linkUp x = false → (e.link x).hellos = 0)) ∧
    (s.dev.flag (PLINK_CTL_ENABLE x) = true → s.dev.running = true → Effects (.linkSyncGain dt x) s fun e =>
      e.flag (PLINK_STAT_SYNC x) = true ∧ (e.link x).hellos = 0 ∧ OnlyRegs (fun a => a = rPLINK_STAT x) s.dev e) ∧
    (s.dev.running = true → ∀ c, c ∈ [Instr.linkSyncLoss dt x, .helloTimeout dt x] → Effects c s fun e =>
      e.linkUp x = false ∧ e.flag (PLINK_STAT_NB_V x) = false ∧ (e.link x).hellos = 0 ∧
      (s.dev.linkUp x = true → e.flag (PLINK_EVT_DOWN x) = true) ∧
      (c = .linkSyncLoss dt x → e.flag (PLINK_STAT_SYNC x) = false) ∧
      OnlyRegs (fun a => a = rPLINK_STAT x ∨ a = rPLINK_EVT x ∨ firingAt a) s.dev e) ∧
    (s.dev.flag PAST_CFG_USED = true → s.dev.running = true → s.dev.rd PAST_STAT_ROLE ≠ 0 →
      (s.dev.linkUp x = true → Effects (.helloPeriod dt) s fun e => ∃ f ∈ e.past.tx, f.link = x ∧ f.type = 3) ∧
      (s.dev.rd PAST_STAT_ROLE = 3 → s.dev.eligNow = false → Effects (.helloPeriod dt) s fun e =>
        e.rd PAST_STAT_ROLE = 1 ∧ e.flag PAST_STAT_BW_V = false ∧ e.flag PAST_EVT_YIELD = true) ∧
      (s.dev.rd PAST_STAT_ROLE = 1 → (s.dev.advance dt).heardLinks = [] → s.dev.eligNow = true →
        (8 * s.dev.rd PAST_CFG_PRIO + s.dev.pastIndex) * s.dev.helloPer ≤ s.dev.clk.tclk + dt - s.dev.past.waitFrom →
        Effects (.helloPeriod dt) s fun e => e.rd PAST_STAT_ROLE = 3 ∧ e.rd PAST_STAT_BW_IDX = s.dev.pastIndex ∧
          e.rd PAST_STAT_HOPS = 0 ∧ e.flag PAST_EVT_TAKEOVER = true ∧
          e.rd PAST_TAKEOVERS_COUNT = (s.dev.rd PAST_TAKEOVERS_COUNT + 1) % 2 ^ 32) ∧
      (s.dev.rd PAST_STAT_ROLE = 3 → (s.dev.advance dt).heardLinks = [x] →
        pairLt ((s.dev.advance dt).bwPair x) (s.dev.rd PAST_CFG_PRIO, s.dev.pastIndex) = true →
        Effects (.helloPeriod dt) s fun e => e.rd PAST_STAT_ROLE = 1 ∧ e.flag PAST_EVT_YIELD = true) ∧
      (s.dev.rd PAST_STAT_ROLE = 2 → (s.dev.advance dt).heardLinks = [] →
        s.dev.eligNow = false ∨ 0 < 8 * s.dev.rd PAST_CFG_PRIO + s.dev.pastIndex → Effects (.helloPeriod dt) s fun e =>
          e.rd PAST_STAT_ROLE = 1 ∧ e.flag PAST_STAT_BW_V = false ∧ e.flag PAST_STAT_FL_V = false ∧
          e.flag PAST_EVT_BW_LOST = true ∧ e.past.waitFrom = s.dev.clk.tclk + dt) ∧
      (s.dev.rd PAST_STAT_ROLE = 1 ∨ s.dev.rd PAST_STAT_ROLE = 2 → (s.dev.advance dt).heardLinks = [x] →
        s.dev.flag PAST_CFG_PREEMPT = true → s.dev.eligNow = true →
        pairLt (s.dev.rd PAST_CFG_PRIO, s.dev.pastIndex) ((s.dev.advance dt).bwPair x) = true →
        Effects (.helloPeriod dt) s fun e => e.rd PAST_STAT_ROLE = 3 ∧ e.rd PAST_STAT_BW_IDX = s.dev.pastIndex ∧
          e.rd PAST_STAT_HOPS = 0 ∧ e.flag PAST_EVT_TAKEOVER = true ∧
          e.rd PAST_TAKEOVERS_COUNT = (s.dev.rd PAST_TAKEOVERS_COUNT + 1) % 2 ^ 32) ∧
      (s.dev.rd PAST_STAT_ROLE = 1 ∨ s.dev.rd PAST_STAT_ROLE = 2 → (s.dev.advance dt).heardLinks = [x] →
        s.dev.flag PAST_CFG_PREEMPT = false ∨ s.dev.eligNow = false ∨
          pairLt (s.dev.rd PAST_CFG_PRIO, s.dev.pastIndex) ((s.dev.advance dt).bwPair x) = false →
        Effects (.helloPeriod dt) s fun e => e.rd PAST_STAT_ROLE = 2 ∧ e.flag PAST_STAT_BW_V = true ∧
          e.rd PAST_STAT_BW_IDX = (s.dev.link x).nbBw % 8 ∧ e.rd PAST_STAT_FL = x ∧
          e.rd PAST_STAT_HOPS = (s.dev.rd (PLINK_STAT_NB_HOPS x) + 1) % 8))

/-- Frames that cross the pasture (08 R213, R223, R225, R226): each is accepted once and forwarded; strobes and musters wait
for their named time; notices; remote accesses as their requester and as their target.
(The model's choices and readings in it: log 91, 95, 158, 159.) -/
def Obligations.PastureFrames : Prop :=
  ∀ (s : State) (dt x src dst hops fseq : Nat), x < 2 →
    (∀ mask seq time fsrc sev fold wr tag addr data status c, s.dev.running = true → fseq ∈ s.dev.past.seen.getD src [] →
      c ∈ [Instr.strobeRx dt x src dst hops fseq mask time, .musterRx dt x src dst hops fseq seq time,
        .noticeRx dt x src dst hops fseq fsrc sev fold time, .rreqRx dt x src dst hops fseq wr tag addr data,
        .rrspRx dt x src dst hops fseq status tag data] →
      Effects c s fun e => e.past.waiting = s.dev.past.waiting ∧ e.past.tx = [] ∧ OnlyRegs (fun _ => False) s.dev e) ∧
    (s.dev.running = true → s.dev.Fresh x src fseq →
      (∀ mask time, mask < 256 → (s.dev.advance dt).nowU < time →
        Effects (.strobeRx dt x src dst hops fseq mask time) s fun e =>
          e.past.waiting = s.dev.past.waiting ++ [⟨false, src, mask, time⟩] ∧
          e.rd (PLINK_FRAMES_COUNT x) = (s.dev.rd (PLINK_FRAMES_COUNT x) + 1) % 2 ^ 32 ∧
          (dst ≠ s.dev.pastIndex → 0 < hops → src ≠ s.dev.pastIndex → s.dev.linkUp (1 - x) = true →
            e.past.tx = [PFrame.of (1 - x) 4 dst src (hops - 1) fseq (mask :: tsBytes time)]) ∧
          (dst = s.dev.pastIndex ∨ hops = 0 ∨ src = s.dev.pastIndex → e.past.tx = [])) ∧
      (∀ seq time, seq < 2 ^ 32 → (s.dev.advance dt).nowU < time →
        Effects (.musterRx dt x src dst hops fseq seq time) s fun e =>
          e.past.waiting = s.dev.past.waiting ++ [⟨true, src, seq, time⟩] ∧
          OnlyRegs (fun a => a = rPLINK_FRAMES x) s.dev e) ∧
      (∀ fsrc sev fold time, src < 8 → sev < 4 → fsrc < 64 →
        Effects (.noticeRx dt x src dst hops fseq fsrc sev fold time) s fun e =>
          e.rd PAST_NOTICE_LAST_ORIGIN = src ∧ e.flag PAST_NOTICE_LAST_FOLD = fold ∧ e.rd PAST_NOTICE_LAST_SEV = sev ∧
          e.rd PAST_NOTICE_LAST_FSRC = fsrc ∧ e.flag PAST_EVT_NOTICE = true ∧ Fired 37 s.dev e) ∧
      (dst = s.dev.pastIndex →
        (∀ tag addr data, inShdata addr 1 → data < 2 ^ 32 → s.dev.flag PAST_CFG_RACC_EN = true →
          s.dev.flag PAST_STAT_BW_V = true → s.dev.rd PAST_STAT_BW_IDX = src → s.dev.Grants (4 + x) addr →
          Effects (.rreqRx dt x src dst hops fseq true tag addr data) s fun e =>
            WroteSram s.dev e addr [data] ∧
            ∃ f ∈ e.past.tx, f.link = x ∧ f.type = 8 ∧ f.dst = src ∧ f.payload = [0, tag, 0, 0, 0, 0]) ∧
        (∀ wr tag addr data, s.dev.mode ≠ .reset → s.dev.flag PAST_CFG_RACC_EN = false ∨ s.dev.flag PAST_STAT_BW_V = false ∨
            s.dev.rd PAST_STAT_BW_IDX ≠ src → Effects (.rreqRx dt x src dst hops fseq wr tag addr data) s fun e =>
          (∃ f ∈ e.past.tx, f.link = x ∧ f.type = 8 ∧ f.dst = src ∧ f.payload = [1, tag, 0, 0, 0, 0]) ∧
          OnlyRegs (fun a => a = rPLINK_FRAMES x) s.dev e) ∧
        ∀ status tag data, status < 8 → data < 2 ^ 32 → s.dev.flag PAST_RACC_STAT_BUSY = true →
          (tag = s.dev.rd PAST_RACC_STAT_TAG → Effects (.rrspRx dt x src dst hops fseq status tag data) s fun e =>
            e.flag PAST_RACC_STAT_BUSY = false ∧ e.flag PAST_RACC_STAT_DONE = true ∧ e.rd PAST_RACC_STAT_STATUS = status ∧
            (s.dev.past.raccWrite = false → e.rd PAST_RACC_RDATA_RDATA = data)) ∧
          (tag ≠ s.dev.rd PAST_RACC_STAT_TAG → Effects (.rrspRx dt x src dst hops fseq status tag data) s fun e =>
            OnlyRegs (fun a => a = rPLINK_FRAMES x) s.dev e))) ∧
    (∀ m c, c = Instr.raccRead dt m dst ∨ c = .raccWrite dt m dst → s.dev.Grants m rPAST_RACC_CTL →
      (s.dev.flag PAST_RACC_STAT_BUSY = true → Effects c s fun e =>
        e.rd PAST_RACC_STAT_STATUS = 5 ∧ e.flag PAST_RACC_STAT_BUSY = true ∧ e.past.tx = []) ∧
      (s.dev.flag PAST_RACC_STAT_BUSY = false → s.dev.rd PAST_STAT_ROLE ≠ 3 → Effects c s fun e =>
        e.rd PAST_RACC_STAT_STATUS = 4 ∧ e.flag PAST_RACC_STAT_DONE = true ∧ e.flag PAST_RACC_STAT_BUSY = false) ∧
      (s.dev.flag PAST_RACC_STAT_BUSY = false → s.dev.rd PAST_STAT_ROLE = 3 → Effects c s fun e =>
        e.flag PAST_RACC_STAT_BUSY = true ∧ e.flag PAST_RACC_STAT_DONE = false ∧
        e.rd PAST_RACC_STAT_TAG = (s.dev.past.tag + 1) % 256 ∧
        (s.dev.linkUp x = true → ∃ f ∈ e.past.tx, f.link = x ∧ f.type = 7 ∧ f.dst = dst % 8))) ∧
    (s.dev.flag PAST_RACC_STAT_BUSY = true → Effects (.raccTimeout dt) s fun e =>
      e.flag PAST_RACC_STAT_BUSY = false ∧ e.flag PAST_RACC_STAT_DONE = true ∧ e.rd PAST_RACC_STAT_STATUS = 3 ∧
      OnlyRegs (fun a => a = rPAST_RACC_STAT) s.dev e)

/-! ### Reset -/

/-- Power-on reset: the device in BOOT at its first stage, every register at the reset value of its row, no output driven,
memories in their canonical form, and the collector settled. (The model's choices and readings in it: log 2, 3, 4.) -/
def Obligations.ResetState : Prop :=
  State.reset.pending = [] ∧ State.reset.dev.mode = .boot ∧ State.reset.dev.stage = 0 ∧
  State.reset.dev.clk.bootclk = true ∧ State.reset.dev.clk.pllLocked = false ∧
  (∀ a r, rowAt a = some r → State.reset.dev.word a = Word.of r.reset) ∧
  (∀ n < 24, State.reset.dev.rd (OUT_STAT_STATE n) = 0) ∧
  State.reset.dev.Settled ∧ State.reset.dev.MemOk ∧ State.reset.dev.Whole

/-- Every step keeps the number of each kind of instance: cells, channels, slots, rings, paddocks, monitors and the rest; and every
step keeps both memories in their canonical form, within their address ranges. -/
def Obligations.StepKeepsInstances : Prop :=
  (∀ s t : State, s.dev.Whole → step s = .next t → t.dev.Whole) ∧
    ∀ s t : State, s.dev.MemOk → step s = .next t → t.dev.MemOk
end

