-- ==== Sys2Proof/Laws/State.lean ====
section
/-!
SUPPORT. What each named update of the device leaves: one lemma per field per update, so that no proof unfolds a record
update.  Registers read through `word` stand under every update that does not write live registers.
-/

namespace Sys2Proof.Machine

/-- Registers are read from `live` alone. -/
theorem Dev.word_congr {d e : Dev} (h : e.live = d.live) (a : Nat) : e.word a = d.word a := by
  unfold Dev.word; rw [h]

theorem Dev.rd_congr {d e : Dev} (h : e.live = d.live) (f : Fld) : e.rd f = d.rd f := by
  unfold Dev.rd; rw [Dev.word_congr h]

theorem Dev.flag_congr {d e : Dev} (h : e.live = d.live) (f : Fld) : e.flag f = d.flag f := by
  unfold Dev.flag; rw [Dev.rd_congr h]

variable (d : Dev)

/-! ### setWord -/

@[simp] theorem Dev.setWord_clk (a : Nat) (w : Word) : (d.setWord a w).clk = d.clk := rfl
@[simp] theorem Dev.setWord_shadow (a : Nat) (w : Word) : (d.setWord a w).shadow = d.shadow := rfl
@[simp] theorem Dev.setWord_held (a : Nat) (w : Word) : (d.setWord a w).held = d.held := rfl
@[simp] theorem Dev.setWord_perMaster (a : Nat) (w : Word) : (d.setWord a w).perMaster = d.perMaster := rfl
@[simp] theorem Dev.setWord_bumped (a : Nat) (w : Word) : (d.setWord a w).bumped = d.bumped := rfl
@[simp] theorem Dev.setWord_old (a : Nat) (w : Word) : (d.setWord a w).old = d.old := rfl
@[simp] theorem Dev.setWord_hwSet (a : Nat) (w : Word) : (d.setWord a w).hwSet = d.hwSet := rfl
@[simp] theorem Dev.setWord_outside (a : Nat) (w : Word) : (d.setWord a w).outside = d.outside := rfl
@[simp] theorem Dev.setWord_sram (a : Nat) (w : Word) : (d.setWord a w).sram = d.sram := rfl
@[simp] theorem Dev.setWord_nvm (a : Nat) (w : Word) : (d.setWord a w).nvm = d.nvm := rfl
@[simp] theorem Dev.setWord_nvmOnes (a : Nat) (w : Word) : (d.setWord a w).nvmOnes = d.nvmOnes := rfl
@[simp] theorem Dev.setWord_nvmErrs (a : Nat) (w : Word) : (d.setWord a w).nvmErrs = d.nvmErrs := rfl
@[simp] theorem Dev.setWord_railLow (a : Nat) (w : Word) : (d.setWord a w).railLow = d.railLow := rfl
@[simp] theorem Dev.setWord_meas (a : Nat) (w : Word) : (d.setWord a w).meas = d.meas := rfl
@[simp] theorem Dev.setWord_jobs (a : Nat) (w : Word) : (d.setWord a w).jobs = d.jobs := rfl
@[simp] theorem Dev.setWord_flt (a : Nat) (w : Word) : (d.setWord a w).flt = d.flt := rfl
@[simp] theorem Dev.setWord_pads (a : Nat) (w : Word) : (d.setWord a w).pads = d.pads := rfl
@[simp] theorem Dev.setWord_refs (a : Nat) (w : Word) : (d.setWord a w).refs = d.refs := rfl
@[simp] theorem Dev.setWord_sels (a : Nat) (w : Word) : (d.setWord a w).sels = d.sels := rfl
@[simp] theorem Dev.setWord_selNow (a : Nat) (w : Word) : (d.setWord a w).selNow = d.selNow := rfl
@[simp] theorem Dev.setWord_alive (a : Nat) (w : Word) : (d.setWord a w).alive = d.alive := rfl
@[simp] theorem Dev.setWord_ports (a : Nat) (w : Word) : (d.setWord a w).ports = d.ports := rfl
@[simp] theorem Dev.setWord_beats (a : Nat) (w : Word) : (d.setWord a w).beats = d.beats := rfl
@[simp] theorem Dev.setWord_past (a : Nat) (w : Word) : (d.setWord a w).past = d.past := rfl
@[simp] theorem Dev.setWord_aplls (a : Nat) (w : Word) : (d.setWord a w).aplls = d.aplls := rfl
@[simp] theorem Dev.setWord_outs (a : Nat) (w : Word) : (d.setWord a w).outs = d.outs := rfl
@[simp] theorem Dev.setWord_psyns (a : Nat) (w : Word) : (d.setWord a w).psyns = d.psyns := rfl
@[simp] theorem Dev.setWord_nvmc (a : Nat) (w : Word) : (d.setWord a w).nvmc = d.nvmc := rfl
@[simp] theorem Dev.setWord_chk (a : Nat) (w : Word) : (d.setWord a w).chk = d.chk := rfl
@[simp] theorem Dev.setWord_mbx (a : Nat) (w : Word) : (d.setWord a w).mbx = d.mbx := rfl
@[simp] theorem Dev.setWord_boot (a : Nat) (w : Word) : (d.setWord a w).boot = d.boot := rfl
@[simp] theorem Dev.setWord_front (a : Nat) (w : Word) : (d.setWord a w).front = d.front := rfl
@[simp] theorem Dev.setWord_resetKind (a : Nat) (w : Word) : (d.setWord a w).resetKind = d.resetKind := rfl
@[simp] theorem Dev.setWord_priorMode (a : Nat) (w : Word) : (d.setWord a w).priorMode = d.priorMode := rfl
@[simp] theorem Dev.setWord_undo (a : Nat) (w : Word) : (d.setWord a w).undo = d.undo := rfl
@[simp] theorem Dev.setWord_rsp (a : Nat) (w : Word) : (d.setWord a w).rsp = d.rsp := rfl
@[simp] theorem Dev.setWord_fresh (a : Nat) (w : Word) : (d.setWord a w).fresh = d.fresh := rfl

/-! ### setShWord -/

@[simp] theorem Dev.setShWord_clk (a : Nat) (w : Word) : (d.setShWord a w).clk = d.clk := rfl
@[simp] theorem Dev.setShWord_live (a : Nat) (w : Word) : (d.setShWord a w).live = d.live := rfl
@[simp] theorem Dev.setShWord_held (a : Nat) (w : Word) : (d.setShWord a w).held = d.held := rfl
@[simp] theorem Dev.setShWord_perMaster (a : Nat) (w : Word) : (d.setShWord a w).perMaster = d.perMaster := rfl
@[simp] theorem Dev.setShWord_bumped (a : Nat) (w : Word) : (d.setShWord a w).bumped = d.bumped := rfl
@[simp] theorem Dev.setShWord_old (a : Nat) (w : Word) : (d.setShWord a w).old = d.old := rfl
@[simp] theorem Dev.setShWord_hwSet (a : Nat) (w : Word) : (d.setShWord a w).hwSet = d.hwSet := rfl
@[simp] theorem Dev.setShWord_outside (a : Nat) (w : Word) : (d.setShWord a w).outside = d.outside := rfl
@[simp] theorem Dev.setShWord_sram (a : Nat) (w : Word) : (d.setShWord a w).sram = d.sram := rfl
@[simp] theorem Dev.setShWord_nvm (a : Nat) (w : Word) : (d.setShWord a w).nvm = d.nvm := rfl
@[simp] theorem Dev.setShWord_nvmOnes (a : Nat) (w : Word) : (d.setShWord a w).nvmOnes = d.nvmOnes := rfl
@[simp] theorem Dev.setShWord_nvmErrs (a : Nat) (w : Word) : (d.setShWord a w).nvmErrs = d.nvmErrs := rfl
@[simp] theorem Dev.setShWord_railLow (a : Nat) (w : Word) : (d.setShWord a w).railLow = d.railLow := rfl
@[simp] theorem Dev.setShWord_meas (a : Nat) (w : Word) : (d.setShWord a w).meas = d.meas := rfl
@[simp] theorem Dev.setShWord_jobs (a : Nat) (w : Word) : (d.setShWord a w).jobs = d.jobs := rfl
@[simp] theorem Dev.setShWord_flt (a : Nat) (w : Word) : (d.setShWord a w).flt = d.flt := rfl
@[simp] theorem Dev.setShWord_pads (a : Nat) (w : Word) : (d.setShWord a w).pads = d.pads := rfl
@[simp] theorem Dev.setShWord_refs (a : Nat) (w : Word) : (d.setShWord a w).refs = d.refs := rfl
@[simp] theorem Dev.setShWord_sels (a : Nat) (w : Word) : (d.setShWord a w).sels = d.sels := rfl
@[simp] theorem Dev.setShWord_selNow (a : Nat) (w : Word) : (d.setShWord a w).selNow = d.selNow := rfl
@[simp] theorem Dev.setShWord_alive (a : Nat) (w : Word) : (d.setShWord a w).alive = d.alive := rfl
@[simp] theorem Dev.setShWord_ports (a : Nat) (w : Word) : (d.setShWord a w).ports = d.ports := rfl
@[simp] theorem Dev.setShWord_beats (a : Nat) (w : Word) : (d.setShWord a w).beats = d.beats := rfl
@[simp] theorem Dev.setShWord_past (a : Nat) (w : Word) : (d.setShWord a w).past = d.past := rfl
@[simp] theorem Dev.setShWord_aplls (a : Nat) (w : Word) : (d.setShWord a w).aplls = d.aplls := rfl
@[simp] theorem Dev.setShWord_outs (a : Nat) (w : Word) : (d.setShWord a w).outs = d.outs := rfl
@[simp] theorem Dev.setShWord_psyns (a : Nat) (w : Word) : (d.setShWord a w).psyns = d.psyns := rfl
@[simp] theorem Dev.setShWord_nvmc (a : Nat) (w : Word) : (d.setShWord a w).nvmc = d.nvmc := rfl
@[simp] theorem Dev.setShWord_chk (a : Nat) (w : Word) : (d.setShWord a w).chk = d.chk := rfl
@[simp] theorem Dev.setShWord_mbx (a : Nat) (w : Word) : (d.setShWord a w).mbx = d.mbx := rfl
@[simp] theorem Dev.setShWord_boot (a : Nat) (w : Word) : (d.setShWord a w).boot = d.boot := rfl
@[simp] theorem Dev.setShWord_front (a : Nat) (w : Word) : (d.setShWord a w).front = d.front := rfl
@[simp] theorem Dev.setShWord_resetKind (a : Nat) (w : Word) : (d.setShWord a w).resetKind = d.resetKind := rfl
@[simp] theorem Dev.setShWord_priorMode (a : Nat) (w : Word) : (d.setShWord a w).priorMode = d.priorMode := rfl
@[simp] theorem Dev.setShWord_undo (a : Nat) (w : Word) : (d.setShWord a w).undo = d.undo := rfl
@[simp] theorem Dev.setShWord_rsp (a : Nat) (w : Word) : (d.setShWord a w).rsp = d.rsp := rfl
@[simp] theorem Dev.setShWord_fresh (a : Nat) (w : Word) : (d.setShWord a w).fresh = d.fresh := rfl
@[simp] theorem Dev.word_setShWord (a : Nat) (w : Word) (r : Nat) : (d.setShWord a w).word r = d.word r := rfl
@[simp] theorem Dev.rd_setShWord (a : Nat) (w : Word) (g : Fld) : (d.setShWord a w).rd g = d.rd g := rfl
@[simp] theorem Dev.flag_setShWord (a : Nat) (w : Word) (g : Fld) : (d.setShWord a w).flag g = d.flag g := rfl

/-! ### setPmWord -/

@[simp] theorem Dev.setPmWord_clk (m a : Nat) (w : Word) : (d.setPmWord m a w).clk = d.clk := rfl
@[simp] theorem Dev.setPmWord_live (m a : Nat) (w : Word) : (d.setPmWord m a w).live = d.live := rfl
@[simp] theorem Dev.setPmWord_shadow (m a : Nat) (w : Word) : (d.setPmWord m a w).shadow = d.shadow := rfl
@[simp] theorem Dev.setPmWord_held (m a : Nat) (w : Word) : (d.setPmWord m a w).held = d.held := rfl
@[simp] theorem Dev.setPmWord_bumped (m a : Nat) (w : Word) : (d.setPmWord m a w).bumped = d.bumped := rfl
@[simp] theorem Dev.setPmWord_old (m a : Nat) (w : Word) : (d.setPmWord m a w).old = d.old := rfl
@[simp] theorem Dev.setPmWord_hwSet (m a : Nat) (w : Word) : (d.setPmWord m a w).hwSet = d.hwSet := rfl
@[simp] theorem Dev.setPmWord_outside (m a : Nat) (w : Word) : (d.setPmWord m a w).outside = d.outside := rfl
@[simp] theorem Dev.setPmWord_sram (m a : Nat) (w : Word) : (d.setPmWord m a w).sram = d.sram := rfl
@[simp] theorem Dev.setPmWord_nvm (m a : Nat) (w : Word) : (d.setPmWord m a w).nvm = d.nvm := rfl
@[simp] theorem Dev.setPmWord_nvmOnes (m a : Nat) (w : Word) : (d.setPmWord m a w).nvmOnes = d.nvmOnes := rfl
@[simp] theorem Dev.setPmWord_nvmErrs (m a : Nat) (w : Word) : (d.setPmWord m a w).nvmErrs = d.nvmErrs := rfl
@[simp] theorem Dev.setPmWord_railLow (m a : Nat) (w : Word) : (d.setPmWord m a w).railLow = d.railLow := rfl
@[simp] theorem Dev.setPmWord_meas (m a : Nat) (w : Word) : (d.setPmWord m a w).meas = d.meas := rfl
@[simp] theorem Dev.setPmWord_jobs (m a : Nat) (w : Word) : (d.setPmWord m a w).jobs = d.jobs := rfl
@[simp] theorem Dev.setPmWord_flt (m a : Nat) (w : Word) : (d.setPmWord m a w).flt = d.flt := rfl
@[simp] theorem Dev.setPmWord_pads (m a : Nat) (w : Word) : (d.setPmWord m a w).pads = d.pads := rfl
@[simp] theorem Dev.setPmWord_refs (m a : Nat) (w : Word) : (d.setPmWord m a w).refs = d.refs := rfl
@[simp] theorem Dev.setPmWord_sels (m a : Nat) (w : Word) : (d.setPmWord m a w).sels = d.sels := rfl
@[simp] theorem Dev.setPmWord_selNow (m a : Nat) (w : Word) : (d.setPmWord m a w).selNow = d.selNow := rfl
@[simp] theorem Dev.setPmWord_alive (m a : Nat) (w : Word) : (d.setPmWord m a w).alive = d.alive := rfl
@[simp] theorem Dev.setPmWord_ports (m a : Nat) (w : Word) : (d.setPmWord m a w).ports = d.ports := rfl
@[simp] theorem Dev.setPmWord_beats (m a : Nat) (w : Word) : (d.setPmWord m a w).beats = d.beats := rfl
@[simp] theorem Dev.setPmWord_past (m a : Nat) (w : Word) : (d.setPmWord m a w).past = d.past := rfl
@[simp] theorem Dev.setPmWord_aplls (m a : Nat) (w : Word) : (d.setPmWord m a w).aplls = d.aplls := rfl
@[simp] theorem Dev.setPmWord_outs (m a : Nat) (w : Word) : (d.setPmWord m a w).outs = d.outs := rfl
@[simp] theorem Dev.setPmWord_psyns (m a : Nat) (w : Word) : (d.setPmWord m a w).psyns = d.psyns := rfl
@[simp] theorem Dev.setPmWord_nvmc (m a : Nat) (w : Word) : (d.setPmWord m a w).nvmc = d.nvmc := rfl
@[simp] theorem Dev.setPmWord_chk (m a : Nat) (w : Word) : (d.setPmWord m a w).chk = d.chk := rfl
@[simp] theorem Dev.setPmWord_mbx (m a : Nat) (w : Word) : (d.setPmWord m a w).mbx = d.mbx := rfl
@[simp] theorem Dev.setPmWord_boot (m a : Nat) (w : Word) : (d.setPmWord m a w).boot = d.boot := rfl
@[simp] theorem Dev.setPmWord_front (m a : Nat) (w : Word) : (d.setPmWord m a w).front = d.front := rfl
@[simp] theorem Dev.setPmWord_resetKind (m a : Nat) (w : Word) : (d.setPmWord m a w).resetKind = d.resetKind := rfl
@[simp] theorem Dev.setPmWord_priorMode (m a : Nat) (w : Word) : (d.setPmWord m a w).priorMode = d.priorMode := rfl
@[simp] theorem Dev.setPmWord_undo (m a : Nat) (w : Word) : (d.setPmWord m a w).undo = d.undo := rfl
@[simp] theorem Dev.setPmWord_rsp (m a : Nat) (w : Word) : (d.setPmWord m a w).rsp = d.rsp := rfl
@[simp] theorem Dev.setPmWord_fresh (m a : Nat) (w : Word) : (d.setPmWord m a w).fresh = d.fresh := rfl
@[simp] theorem Dev.word_setPmWord (m a : Nat) (w : Word) (r : Nat) : (d.setPmWord m a w).word r = d.word r := rfl
@[simp] theorem Dev.rd_setPmWord (m a : Nat) (w : Word) (g : Fld) : (d.setPmWord m a w).rd g = d.rd g := rfl
@[simp] theorem Dev.flag_setPmWord (m a : Nat) (w : Word) (g : Fld) : (d.setPmWord m a w).flag g = d.flag g := rfl

/-! ### wr -/

@[simp] theorem Dev.wr_clk (f : Fld) (v : Nat) : (d.wr f v).clk = d.clk := rfl
@[simp] theorem Dev.wr_shadow (f : Fld) (v : Nat) : (d.wr f v).shadow = d.shadow := rfl
@[simp] theorem Dev.wr_held (f : Fld) (v : Nat) : (d.wr f v).held = d.held := rfl
@[simp] theorem Dev.wr_perMaster (f : Fld) (v : Nat) : (d.wr f v).perMaster = d.perMaster := rfl
@[simp] theorem Dev.wr_bumped (f : Fld) (v : Nat) : (d.wr f v).bumped = d.bumped := rfl
@[simp] theorem Dev.wr_old (f : Fld) (v : Nat) : (d.wr f v).old = d.old := rfl
@[simp] theorem Dev.wr_hwSet (f : Fld) (v : Nat) : (d.wr f v).hwSet = d.hwSet := rfl
@[simp] theorem Dev.wr_outside (f : Fld) (v : Nat) : (d.wr f v).outside = d.outside := rfl
@[simp] theorem Dev.wr_sram (f : Fld) (v : Nat) : (d.wr f v).sram = d.sram := rfl
@[simp] theorem Dev.wr_nvm (f : Fld) (v : Nat) : (d.wr f v).nvm = d.nvm := rfl
@[simp] theorem Dev.wr_nvmOnes (f : Fld) (v : Nat) : (d.wr f v).nvmOnes = d.nvmOnes := rfl
@[simp] theorem Dev.wr_nvmErrs (f : Fld) (v : Nat) : (d.wr f v).nvmErrs = d.nvmErrs := rfl
@[simp] theorem Dev.wr_railLow (f : Fld) (v : Nat) : (d.wr f v).railLow = d.railLow := rfl
@[simp] theorem Dev.wr_meas (f : Fld) (v : Nat) : (d.wr f v).meas = d.meas := rfl
@[simp] theorem Dev.wr_jobs (f : Fld) (v : Nat) : (d.wr f v).jobs = d.jobs := rfl
@[simp] theorem Dev.wr_flt (f : Fld) (v : Nat) : (d.wr f v).flt = d.flt := rfl
@[simp] theorem Dev.wr_pads (f : Fld) (v : Nat) : (d.wr f v).pads = d.pads := rfl
@[simp] theorem Dev.wr_refs (f : Fld) (v : Nat) : (d.wr f v).refs = d.refs := rfl
@[simp] theorem Dev.wr_sels (f : Fld) (v : Nat) : (d.wr f v).sels = d.sels := rfl
@[simp] theorem Dev.wr_selNow (f : Fld) (v : Nat) : (d.wr f v).selNow = d.selNow := rfl
@[simp] theorem Dev.wr_alive (f : Fld) (v : Nat) : (d.wr f v).alive = d.alive := rfl
@[simp] theorem Dev.wr_ports (f : Fld) (v : Nat) : (d.wr f v).ports = d.ports := rfl
@[simp] theorem Dev.wr_beats (f : Fld) (v : Nat) : (d.wr f v).beats = d.beats := rfl
@[simp] theorem Dev.wr_past (f : Fld) (v : Nat) : (d.wr f v).past = d.past := rfl
@[simp] theorem Dev.wr_aplls (f : Fld) (v : Nat) : (d.wr f v).aplls = d.aplls := rfl
@[simp] theorem Dev.wr_outs (f : Fld) (v : Nat) : (d.wr f v).outs = d.outs := rfl
@[simp] theorem Dev.wr_psyns (f : Fld) (v : Nat) : (d.wr f v).psyns = d.psyns := rfl
@[simp] theorem Dev.wr_nvmc (f : Fld) (v : Nat) : (d.wr f v).nvmc = d.nvmc := rfl
@[simp] theorem Dev.wr_chk (f : Fld) (v : Nat) : (d.wr f v).chk = d.chk := rfl
@[simp] theorem Dev.wr_mbx (f : Fld) (v : Nat) : (d.wr f v).mbx = d.mbx := rfl
@[simp] theorem Dev.wr_boot (f : Fld) (v : Nat) : (d.wr f v).boot = d.boot := rfl
@[simp] theorem Dev.wr_front (f : Fld) (v : Nat) : (d.wr f v).front = d.front := rfl
@[simp] theorem Dev.wr_resetKind (f : Fld) (v : Nat) : (d.wr f v).resetKind = d.resetKind := rfl
@[simp] theorem Dev.wr_priorMode (f : Fld) (v : Nat) : (d.wr f v).priorMode = d.priorMode := rfl
@[simp] theorem Dev.wr_undo (f : Fld) (v : Nat) : (d.wr f v).undo = d.undo := rfl
@[simp] theorem Dev.wr_rsp (f : Fld) (v : Nat) : (d.wr f v).rsp = d.rsp := rfl
@[simp] theorem Dev.wr_fresh (f : Fld) (v : Nat) : (d.wr f v).fresh = d.fresh := rfl

/-! ### wrBoth -/

@[simp] theorem Dev.wrBoth_clk (f : Fld) (v : Nat) : (d.wrBoth f v).clk = d.clk := rfl
@[simp] theorem Dev.wrBoth_held (f : Fld) (v : Nat) : (d.wrBoth f v).held = d.held := rfl
@[simp] theorem Dev.wrBoth_perMaster (f : Fld) (v : Nat) : (d.wrBoth f v).perMaster = d.perMaster := rfl
@[simp] theorem Dev.wrBoth_bumped (f : Fld) (v : Nat) : (d.wrBoth f v).bumped = d.bumped := rfl
@[simp] theorem Dev.wrBoth_old (f : Fld) (v : Nat) : (d.wrBoth f v).old = d.old := rfl
@[simp] theorem Dev.wrBoth_outside (f : Fld) (v : Nat) : (d.wrBoth f v).outside = d.outside := rfl
@[simp] theorem Dev.wrBoth_sram (f : Fld) (v : Nat) : (d.wrBoth f v).sram = d.sram := rfl
@[simp] theorem Dev.wrBoth_nvm (f : Fld) (v : Nat) : (d.wrBoth f v).nvm = d.nvm := rfl
@[simp] theorem Dev.wrBoth_nvmOnes (f : Fld) (v : Nat) : (d.wrBoth f v).nvmOnes = d.nvmOnes := rfl
@[simp] theorem Dev.wrBoth_nvmErrs (f : Fld) (v : Nat) : (d.wrBoth f v).nvmErrs = d.nvmErrs := rfl
@[simp] theorem Dev.wrBoth_railLow (f : Fld) (v : Nat) : (d.wrBoth f v).railLow = d.railLow := rfl
@[simp] theorem Dev.wrBoth_meas (f : Fld) (v : Nat) : (d.wrBoth f v).meas = d.meas := rfl
@[simp] theorem Dev.wrBoth_jobs (f : Fld) (v : Nat) : (d.wrBoth f v).jobs = d.jobs := rfl
@[simp] theorem Dev.wrBoth_flt (f : Fld) (v : Nat) : (d.wrBoth f v).flt = d.flt := rfl
@[simp] theorem Dev.wrBoth_pads (f : Fld) (v : Nat) : (d.wrBoth f v).pads = d.pads := rfl
@[simp] theorem Dev.wrBoth_refs (f : Fld) (v : Nat) : (d.wrBoth f v).refs = d.refs := rfl
@[simp] theorem Dev.wrBoth_sels (f : Fld) (v : Nat) : (d.wrBoth f v).sels = d.sels := rfl
@[simp] theorem Dev.wrBoth_selNow (f : Fld) (v : Nat) : (d.wrBoth f v).selNow = d.selNow := rfl
@[simp] theorem Dev.wrBoth_alive (f : Fld) (v : Nat) : (d.wrBoth f v).alive = d.alive := rfl
@[simp] theorem Dev.wrBoth_ports (f : Fld) (v : Nat) : (d.wrBoth f v).ports = d.ports := rfl
@[simp] theorem Dev.wrBoth_beats (f : Fld) (v : Nat) : (d.wrBoth f v).beats = d.beats := rfl
@[simp] theorem Dev.wrBoth_past (f : Fld) (v : Nat) : (d.wrBoth f v).past = d.past := rfl
@[simp] theorem Dev.wrBoth_aplls (f : Fld) (v : Nat) : (d.wrBoth f v).aplls = d.aplls := rfl
@[simp] theorem Dev.wrBoth_outs (f : Fld) (v : Nat) : (d.wrBoth f v).outs = d.outs := rfl
@[simp] theorem Dev.wrBoth_psyns (f : Fld) (v : Nat) : (d.wrBoth f v).psyns = d.psyns := rfl
@[simp] theorem Dev.wrBoth_nvmc (f : Fld) (v : Nat) : (d.wrBoth f v).nvmc = d.nvmc := rfl
@[simp] theorem Dev.wrBoth_chk (f : Fld) (v : Nat) : (d.wrBoth f v).chk = d.chk := rfl
@[simp] theorem Dev.wrBoth_mbx (f : Fld) (v : Nat) : (d.wrBoth f v).mbx = d.mbx := rfl
@[simp] theorem Dev.wrBoth_boot (f : Fld) (v : Nat) : (d.wrBoth f v).boot = d.boot := rfl
@[simp] theorem Dev.wrBoth_front (f : Fld) (v : Nat) : (d.wrBoth f v).front = d.front := rfl
@[simp] theorem Dev.wrBoth_resetKind (f : Fld) (v : Nat) : (d.wrBoth f v).resetKind = d.resetKind := rfl
@[simp] theorem Dev.wrBoth_priorMode (f : Fld) (v : Nat) : (d.wrBoth f v).priorMode = d.priorMode := rfl
@[simp] theorem Dev.wrBoth_undo (f : Fld) (v : Nat) : (d.wrBoth f v).undo = d.undo := rfl
@[simp] theorem Dev.wrBoth_rsp (f : Fld) (v : Nat) : (d.wrBoth f v).rsp = d.rsp := rfl
@[simp] theorem Dev.wrBoth_fresh (f : Fld) (v : Nat) : (d.wrBoth f v).fresh = d.fresh := rfl

/-! ### wrPm -/

@[simp] theorem Dev.wrPm_clk (m : Nat) (f : Fld) (v : Nat) : (d.wrPm m f v).clk = d.clk := rfl
@[simp] theorem Dev.wrPm_live (m : Nat) (f : Fld) (v : Nat) : (d.wrPm m f v).live = d.live := rfl
@[simp] theorem Dev.wrPm_shadow (m : Nat) (f : Fld) (v : Nat) : (d.wrPm m f v).shadow = d.shadow := rfl
@[simp] theorem Dev.wrPm_held (m : Nat) (f : Fld) (v : Nat) : (d.wrPm m f v).held = d.held := rfl
@[simp] theorem Dev.wrPm_bumped (m : Nat) (f : Fld) (v : Nat) : (d.wrPm m f v).bumped = d.bumped := rfl
@[simp] theorem Dev.wrPm_old (m : Nat) (f : Fld) (v : Nat) : (d.wrPm m f v).old = d.old := rfl
@[simp] theorem Dev.wrPm_hwSet (m : Nat) (f : Fld) (v : Nat) : (d.wrPm m f v).hwSet = d.hwSet := rfl
@[simp] theorem Dev.wrPm_outside (m : Nat) (f : Fld) (v : Nat) : (d.wrPm m f v).outside = d.outside := rfl
@[simp] theorem Dev.wrPm_sram (m : Nat) (f : Fld) (v : Nat) : (d.wrPm m f v).sram = d.sram := rfl
@[simp] theorem Dev.wrPm_nvm (m : Nat) (f : Fld) (v : Nat) : (d.wrPm m f v).nvm = d.nvm := rfl
@[simp] theorem Dev.wrPm_nvmOnes (m : Nat) (f : Fld) (v : Nat) : (d.wrPm m f v).nvmOnes = d.nvmOnes := rfl
@[simp] theorem Dev.wrPm_nvmErrs (m : Nat) (f : Fld) (v : Nat) : (d.wrPm m f v).nvmErrs = d.nvmErrs := rfl
@[simp] theorem Dev.wrPm_railLow (m : Nat) (f : Fld) (v : Nat) : (d.wrPm m f v).railLow = d.railLow := rfl
@[simp] theorem Dev.wrPm_meas (m : Nat) (f : Fld) (v : Nat) : (d.wrPm m f v).meas = d.meas := rfl
@[simp] theorem Dev.wrPm_jobs (m : Nat) (f : Fld) (v : Nat) : (d.wrPm m f v).jobs = d.jobs := rfl
@[simp] theorem Dev.wrPm_flt (m : Nat) (f : Fld) (v : Nat) : (d.wrPm m f v).flt = d.flt := rfl
@[simp] theorem Dev.wrPm_pads (m : Nat) (f : Fld) (v : Nat) : (d.wrPm m f v).pads = d.pads := rfl
@[simp] theorem Dev.wrPm_refs (m : Nat) (f : Fld) (v : Nat) : (d.wrPm m f v).refs = d.refs := rfl
@[simp] theorem Dev.wrPm_sels (m : Nat) (f : Fld) (v : Nat) : (d.wrPm m f v).sels = d.sels := rfl
@[simp] theorem Dev.wrPm_selNow (m : Nat) (f : Fld) (v : Nat) : (d.wrPm m f v).selNow = d.selNow := rfl
@[simp] theorem Dev.wrPm_alive (m : Nat) (f : Fld) (v : Nat) : (d.wrPm m f v).alive = d.alive := rfl
@[simp] theorem Dev.wrPm_ports (m : Nat) (f : Fld) (v : Nat) : (d.wrPm m f v).ports = d.ports := rfl
@[simp] theorem Dev.wrPm_beats (m : Nat) (f : Fld) (v : Nat) : (d.wrPm m f v).beats = d.beats := rfl
@[simp] theorem Dev.wrPm_past (m : Nat) (f : Fld) (v : Nat) : (d.wrPm m f v).past = d.past := rfl
@[simp] theorem Dev.wrPm_aplls (m : Nat) (f : Fld) (v : Nat) : (d.wrPm m f v).aplls = d.aplls := rfl
@[simp] theorem Dev.wrPm_outs (m : Nat) (f : Fld) (v : Nat) : (d.wrPm m f v).outs = d.outs := rfl
@[simp] theorem Dev.wrPm_psyns (m : Nat) (f : Fld) (v : Nat) : (d.wrPm m f v).psyns = d.psyns := rfl
@[simp] theorem Dev.wrPm_nvmc (m : Nat) (f : Fld) (v : Nat) : (d.wrPm m f v).nvmc = d.nvmc := rfl
@[simp] theorem Dev.wrPm_chk (m : Nat) (f : Fld) (v : Nat) : (d.wrPm m f v).chk = d.chk := rfl
@[simp] theorem Dev.wrPm_mbx (m : Nat) (f : Fld) (v : Nat) : (d.wrPm m f v).mbx = d.mbx := rfl
@[simp] theorem Dev.wrPm_boot (m : Nat) (f : Fld) (v : Nat) : (d.wrPm m f v).boot = d.boot := rfl
@[simp] theorem Dev.wrPm_front (m : Nat) (f : Fld) (v : Nat) : (d.wrPm m f v).front = d.front := rfl
@[simp] theorem Dev.wrPm_resetKind (m : Nat) (f : Fld) (v : Nat) : (d.wrPm m f v).resetKind = d.resetKind := rfl
@[simp] theorem Dev.wrPm_priorMode (m : Nat) (f : Fld) (v : Nat) : (d.wrPm m f v).priorMode = d.priorMode := rfl
@[simp] theorem Dev.wrPm_undo (m : Nat) (f : Fld) (v : Nat) : (d.wrPm m f v).undo = d.undo := rfl
@[simp] theorem Dev.wrPm_rsp (m : Nat) (f : Fld) (v : Nat) : (d.wrPm m f v).rsp = d.rsp := rfl
@[simp] theorem Dev.wrPm_fresh (m : Nat) (f : Fld) (v : Nat) : (d.wrPm m f v).fresh = d.fresh := rfl
@[simp] theorem Dev.word_wrPm (m : Nat) (f : Fld) (v : Nat) (r : Nat) : (d.wrPm m f v).word r = d.word r := rfl
@[simp] theorem Dev.rd_wrPm (m : Nat) (f : Fld) (v : Nat) (g : Fld) : (d.wrPm m f v).rd g = d.rd g := rfl
@[simp] theorem Dev.flag_wrPm (m : Nat) (f : Fld) (v : Nat) (g : Fld) : (d.wrPm m f v).flag g = d.flag g := rfl

/-! ### wr48 -/

@[simp] theorem Dev.wr48_clk (lo hi : Fld) (v : Int) : (d.wr48 lo hi v).clk = d.clk := rfl
@[simp] theorem Dev.wr48_shadow (lo hi : Fld) (v : Int) : (d.wr48 lo hi v).shadow = d.shadow := rfl
@[simp] theorem Dev.wr48_held (lo hi : Fld) (v : Int) : (d.wr48 lo hi v).held = d.held := rfl
@[simp] theorem Dev.wr48_perMaster (lo hi : Fld) (v : Int) : (d.wr48 lo hi v).perMaster = d.perMaster := rfl
@[simp] theorem Dev.wr48_bumped (lo hi : Fld) (v : Int) : (d.wr48 lo hi v).bumped = d.bumped := rfl
@[simp] theorem Dev.wr48_old (lo hi : Fld) (v : Int) : (d.wr48 lo hi v).old = d.old := rfl
@[simp] theorem Dev.wr48_hwSet (lo hi : Fld) (v : Int) : (d.wr48 lo hi v).hwSet = d.hwSet := rfl
@[simp] theorem Dev.wr48_outside (lo hi : Fld) (v : Int) : (d.wr48 lo hi v).outside = d.outside := rfl
@[simp] theorem Dev.wr48_sram (lo hi : Fld) (v : Int) : (d.wr48 lo hi v).sram = d.sram := rfl
@[simp] theorem Dev.wr48_nvm (lo hi : Fld) (v : Int) : (d.wr48 lo hi v).nvm = d.nvm := rfl
@[simp] theorem Dev.wr48_nvmOnes (lo hi : Fld) (v : Int) : (d.wr48 lo hi v).nvmOnes = d.nvmOnes := rfl
@[simp] theorem Dev.wr48_nvmErrs (lo hi : Fld) (v : Int) : (d.wr48 lo hi v).nvmErrs = d.nvmErrs := rfl
@[simp] theorem Dev.wr48_railLow (lo hi : Fld) (v : Int) : (d.wr48 lo hi v).railLow = d.railLow := rfl
@[simp] theorem Dev.wr48_meas (lo hi : Fld) (v : Int) : (d.wr48 lo hi v).meas = d.meas := rfl
@[simp] theorem Dev.wr48_jobs (lo hi : Fld) (v : Int) : (d.wr48 lo hi v).jobs = d.jobs := rfl
@[simp] theorem Dev.wr48_flt (lo hi : Fld) (v : Int) : (d.wr48 lo hi v).flt = d.flt := rfl
@[simp] theorem Dev.wr48_pads (lo hi : Fld) (v : Int) : (d.wr48 lo hi v).pads = d.pads := rfl
@[simp] theorem Dev.wr48_refs (lo hi : Fld) (v : Int) : (d.wr48 lo hi v).refs = d.refs := rfl
@[simp] theorem Dev.wr48_sels (lo hi : Fld) (v : Int) : (d.wr48 lo hi v).sels = d.sels := rfl
@[simp] theorem Dev.wr48_selNow (lo hi : Fld) (v : Int) : (d.wr48 lo hi v).selNow = d.selNow := rfl
@[simp] theorem Dev.wr48_alive (lo hi : Fld) (v : Int) : (d.wr48 lo hi v).alive = d.alive := rfl
@[simp] theorem Dev.wr48_ports (lo hi : Fld) (v : Int) : (d.wr48 lo hi v).ports = d.ports := rfl
@[simp] theorem Dev.wr48_beats (lo hi : Fld) (v : Int) : (d.wr48 lo hi v).beats = d.beats := rfl
@[simp] theorem Dev.wr48_past (lo hi : Fld) (v : Int) : (d.wr48 lo hi v).past = d.past := rfl
@[simp] theorem Dev.wr48_aplls (lo hi : Fld) (v : Int) : (d.wr48 lo hi v).aplls = d.aplls := rfl
@[simp] theorem Dev.wr48_outs (lo hi : Fld) (v : Int) : (d.wr48 lo hi v).outs = d.outs := rfl
@[simp] theorem Dev.wr48_psyns (lo hi : Fld) (v : Int) : (d.wr48 lo hi v).psyns = d.psyns := rfl
@[simp] theorem Dev.wr48_nvmc (lo hi : Fld) (v : Int) : (d.wr48 lo hi v).nvmc = d.nvmc := rfl
@[simp] theorem Dev.wr48_chk (lo hi : Fld) (v : Int) : (d.wr48 lo hi v).chk = d.chk := rfl
@[simp] theorem Dev.wr48_mbx (lo hi : Fld) (v : Int) : (d.wr48 lo hi v).mbx = d.mbx := rfl
@[simp] theorem Dev.wr48_boot (lo hi : Fld) (v : Int) : (d.wr48 lo hi v).boot = d.boot := rfl
@[simp] theorem Dev.wr48_front (lo hi : Fld) (v : Int) : (d.wr48 lo hi v).front = d.front := rfl
@[simp] theorem Dev.wr48_resetKind (lo hi : Fld) (v : Int) : (d.wr48 lo hi v).resetKind = d.resetKind := rfl
@[simp] theorem Dev.wr48_priorMode (lo hi : Fld) (v : Int) : (d.wr48 lo hi v).priorMode = d.priorMode := rfl
@[simp] theorem Dev.wr48_undo (lo hi : Fld) (v : Int) : (d.wr48 lo hi v).undo = d.undo := rfl
@[simp] theorem Dev.wr48_rsp (lo hi : Fld) (v : Int) : (d.wr48 lo hi v).rsp = d.rsp := rfl
@[simp] theorem Dev.wr48_fresh (lo hi : Fld) (v : Int) : (d.wr48 lo hi v).fresh = d.fresh := rfl

/-! ### evtMask -/

@[simp] theorem Dev.evtMask_clk (a m : Nat) : (d.evtMask a m).clk = d.clk := by simp only [Dev.evtMask, Dev.setWord]
@[simp] theorem Dev.evtMask_shadow (a m : Nat) : (d.evtMask a m).shadow = d.shadow := by simp only [Dev.evtMask, Dev.setWord]
@[simp] theorem Dev.evtMask_held (a m : Nat) : (d.evtMask a m).held = d.held := by simp only [Dev.evtMask, Dev.setWord]
@[simp] theorem Dev.evtMask_perMaster (a m : Nat) : (d.evtMask a m).perMaster = d.perMaster := by simp only [Dev.evtMask, Dev.setWord]
@[simp] theorem Dev.evtMask_old (a m : Nat) : (d.evtMask a m).old = d.old := by simp only [Dev.evtMask, Dev.setWord]
@[simp] theorem Dev.evtMask_hwSet (a m : Nat) : (d.evtMask a m).hwSet = d.hwSet := by simp only [Dev.evtMask, Dev.setWord]
@[simp] theorem Dev.evtMask_outside (a m : Nat) : (d.evtMask a m).outside = d.outside := by simp only [Dev.evtMask, Dev.setWord]
@[simp] theorem Dev.evtMask_sram (a m : Nat) : (d.evtMask a m).sram = d.sram := by simp only [Dev.evtMask, Dev.setWord]
@[simp] theorem Dev.evtMask_nvm (a m : Nat) : (d.evtMask a m).nvm = d.nvm := by simp only [Dev.evtMask, Dev.setWord]
@[simp] theorem Dev.evtMask_nvmOnes (a m : Nat) : (d.evtMask a m).nvmOnes = d.nvmOnes := by simp only [Dev.evtMask, Dev.setWord]
@[simp] theorem Dev.evtMask_nvmErrs (a m : Nat) : (d.evtMask a m).nvmErrs = d.nvmErrs := by simp only [Dev.evtMask, Dev.setWord]
@[simp] theorem Dev.evtMask_railLow (a m : Nat) : (d.evtMask a m).railLow = d.railLow := by simp only [Dev.evtMask, Dev.setWord]
@[simp] theorem Dev.evtMask_meas (a m : Nat) : (d.evtMask a m).meas = d.meas := by simp only [Dev.evtMask, Dev.setWord]
@[simp] theorem Dev.evtMask_jobs (a m : Nat) : (d.evtMask a m).jobs = d.jobs := by simp only [Dev.evtMask, Dev.setWord]
@[simp] theorem Dev.evtMask_flt (a m : Nat) : (d.evtMask a m).flt = d.flt := by simp only [Dev.evtMask, Dev.setWord]
@[simp] theorem Dev.evtMask_pads (a m : Nat) : (d.evtMask a m).pads = d.pads := by simp only [Dev.evtMask, Dev.setWord]
@[simp] theorem Dev.evtMask_refs (a m : Nat) : (d.evtMask a m).refs = d.refs := by simp only [Dev.evtMask, Dev.setWord]
@[simp] theorem Dev.evtMask_sels (a m : Nat) : (d.evtMask a m).sels = d.sels := by simp only [Dev.evtMask, Dev.setWord]
@[simp] theorem Dev.evtMask_selNow (a m : Nat) : (d.evtMask a m).selNow = d.selNow := by simp only [Dev.evtMask, Dev.setWord]
@[simp] theorem Dev.evtMask_alive (a m : Nat) : (d.evtMask a m).alive = d.alive := by simp only [Dev.evtMask, Dev.setWord]
@[simp] theorem Dev.evtMask_ports (a m : Nat) : (d.evtMask a m).ports = d.ports := by simp only [Dev.evtMask, Dev.setWord]
@[simp] theorem Dev.evtMask_beats (a m : Nat) : (d.evtMask a m).beats = d.beats := by simp only [Dev.evtMask, Dev.setWord]
@[simp] theorem Dev.evtMask_past (a m : Nat) : (d.evtMask a m).past = d.past := by simp only [Dev.evtMask, Dev.setWord]
@[simp] theorem Dev.evtMask_aplls (a m : Nat) : (d.evtMask a m).aplls = d.aplls := by simp only [Dev.evtMask, Dev.setWord]
@[simp] theorem Dev.evtMask_outs (a m : Nat) : (d.evtMask a m).outs = d.outs := by simp only [Dev.evtMask, Dev.setWord]
@[simp] theorem Dev.evtMask_psyns (a m : Nat) : (d.evtMask a m).psyns = d.psyns := by simp only [Dev.evtMask, Dev.setWord]
@[simp] theorem Dev.evtMask_nvmc (a m : Nat) : (d.evtMask a m).nvmc = d.nvmc := by simp only [Dev.evtMask, Dev.setWord]
@[simp] theorem Dev.evtMask_chk (a m : Nat) : (d.evtMask a m).chk = d.chk := by simp only [Dev.evtMask, Dev.setWord]
@[simp] theorem Dev.evtMask_mbx (a m : Nat) : (d.evtMask a m).mbx = d.mbx := by simp only [Dev.evtMask, Dev.setWord]
@[simp] theorem Dev.evtMask_boot (a m : Nat) : (d.evtMask a m).boot = d.boot := by simp only [Dev.evtMask, Dev.setWord]
@[simp] theorem Dev.evtMask_front (a m : Nat) : (d.evtMask a m).front = d.front := by simp only [Dev.evtMask, Dev.setWord]
@[simp] theorem Dev.evtMask_resetKind (a m : Nat) : (d.evtMask a m).resetKind = d.resetKind := by simp only [Dev.evtMask, Dev.setWord]
@[simp] theorem Dev.evtMask_priorMode (a m : Nat) : (d.evtMask a m).priorMode = d.priorMode := by simp only [Dev.evtMask, Dev.setWord]
@[simp] theorem Dev.evtMask_undo (a m : Nat) : (d.evtMask a m).undo = d.undo := by simp only [Dev.evtMask, Dev.setWord]
@[simp] theorem Dev.evtMask_rsp (a m : Nat) : (d.evtMask a m).rsp = d.rsp := by simp only [Dev.evtMask, Dev.setWord]
@[simp] theorem Dev.evtMask_fresh (a m : Nat) : (d.evtMask a m).fresh = d.fresh := by simp only [Dev.evtMask, Dev.setWord]

/-! ### evt -/

@[simp] theorem Dev.evt_clk (f : Fld) : (d.evt f).clk = d.clk := by simp only [Dev.evt, Dev.evtMask_clk]
@[simp] theorem Dev.evt_shadow (f : Fld) : (d.evt f).shadow = d.shadow := by simp only [Dev.evt, Dev.evtMask_shadow]
@[simp] theorem Dev.evt_held (f : Fld) : (d.evt f).held = d.held := by simp only [Dev.evt, Dev.evtMask_held]
@[simp] theorem Dev.evt_perMaster (f : Fld) : (d.evt f).perMaster = d.perMaster := by simp only [Dev.evt, Dev.evtMask_perMaster]
@[simp] theorem Dev.evt_old (f : Fld) : (d.evt f).old = d.old := by simp only [Dev.evt, Dev.evtMask_old]
@[simp] theorem Dev.evt_hwSet (f : Fld) : (d.evt f).hwSet = d.hwSet := by simp only [Dev.evt, Dev.evtMask_hwSet]
@[simp] theorem Dev.evt_outside (f : Fld) : (d.evt f).outside = d.outside := by simp only [Dev.evt, Dev.evtMask_outside]
@[simp] theorem Dev.evt_sram (f : Fld) : (d.evt f).sram = d.sram := by simp only [Dev.evt, Dev.evtMask_sram]
@[simp] theorem Dev.evt_nvm (f : Fld) : (d.evt f).nvm = d.nvm := by simp only [Dev.evt, Dev.evtMask_nvm]
@[simp] theorem Dev.evt_nvmOnes (f : Fld) : (d.evt f).nvmOnes = d.nvmOnes := by simp only [Dev.evt, Dev.evtMask_nvmOnes]
@[simp] theorem Dev.evt_nvmErrs (f : Fld) : (d.evt f).nvmErrs = d.nvmErrs := by simp only [Dev.evt, Dev.evtMask_nvmErrs]
@[simp] theorem Dev.evt_railLow (f : Fld) : (d.evt f).railLow = d.railLow := by simp only [Dev.evt, Dev.evtMask_railLow]
@[simp] theorem Dev.evt_meas (f : Fld) : (d.evt f).meas = d.meas := by simp only [Dev.evt, Dev.evtMask_meas]
@[simp] theorem Dev.evt_jobs (f : Fld) : (d.evt f).jobs = d.jobs := by simp only [Dev.evt, Dev.evtMask_jobs]
@[simp] theorem Dev.evt_flt (f : Fld) : (d.evt f).flt = d.flt := by simp only [Dev.evt, Dev.evtMask_flt]
@[simp] theorem Dev.evt_pads (f : Fld) : (d.evt f).pads = d.pads := by simp only [Dev.evt, Dev.evtMask_pads]
@[simp] theorem Dev.evt_refs (f : Fld) : (d.evt f).refs = d.refs := by simp only [Dev.evt, Dev.evtMask_refs]
@[simp] theorem Dev.evt_sels (f : Fld) : (d.evt f).sels = d.sels := by simp only [Dev.evt, Dev.evtMask_sels]
@[simp] theorem Dev.evt_selNow (f : Fld) : (d.evt f).selNow = d.selNow := by simp only [Dev.evt, Dev.evtMask_selNow]
@[simp] theorem Dev.evt_alive (f : Fld) : (d.evt f).alive = d.alive := by simp only [Dev.evt, Dev.evtMask_alive]
@[simp] theorem Dev.evt_ports (f : Fld) : (d.evt f).ports = d.ports := by simp only [Dev.evt, Dev.evtMask_ports]
@[simp] theorem Dev.evt_beats (f : Fld) : (d.evt f).beats = d.beats := by simp only [Dev.evt, Dev.evtMask_beats]
@[simp] theorem Dev.evt_past (f : Fld) : (d.evt f).past = d.past := by simp only [Dev.evt, Dev.evtMask_past]
@[simp] theorem Dev.evt_aplls (f : Fld) : (d.evt f).aplls = d.aplls := by simp only [Dev.evt, Dev.evtMask_aplls]
@[simp] theorem Dev.evt_outs (f : Fld) : (d.evt f).outs = d.outs := by simp only [Dev.evt, Dev.evtMask_outs]
@[simp] theorem Dev.evt_psyns (f : Fld) : (d.evt f).psyns = d.psyns := by simp only [Dev.evt, Dev.evtMask_psyns]
@[simp] theorem Dev.evt_nvmc (f : Fld) : (d.evt f).nvmc = d.nvmc := by simp only [Dev.evt, Dev.evtMask_nvmc]
@[simp] theorem Dev.evt_chk (f : Fld) : (d.evt f).chk = d.chk := by simp only [Dev.evt, Dev.evtMask_chk]
@[simp] theorem Dev.evt_mbx (f : Fld) : (d.evt f).mbx = d.mbx := by simp only [Dev.evt, Dev.evtMask_mbx]
@[simp] theorem Dev.evt_boot (f : Fld) : (d.evt f).boot = d.boot := by simp only [Dev.evt, Dev.evtMask_boot]
@[simp] theorem Dev.evt_front (f : Fld) : (d.evt f).front = d.front := by simp only [Dev.evt, Dev.evtMask_front]
@[simp] theorem Dev.evt_resetKind (f : Fld) : (d.evt f).resetKind = d.resetKind := by simp only [Dev.evt, Dev.evtMask_resetKind]
@[simp] theorem Dev.evt_priorMode (f : Fld) : (d.evt f).priorMode = d.priorMode := by simp only [Dev.evt, Dev.evtMask_priorMode]
@[simp] theorem Dev.evt_undo (f : Fld) : (d.evt f).undo = d.undo := by simp only [Dev.evt, Dev.evtMask_undo]
@[simp] theorem Dev.evt_rsp (f : Fld) : (d.evt f).rsp = d.rsp := by simp only [Dev.evt, Dev.evtMask_rsp]
@[simp] theorem Dev.evt_fresh (f : Fld) : (d.evt f).fresh = d.fresh := by simp only [Dev.evt, Dev.evtMask_fresh]

/-! ### bump -/

@[simp] theorem Dev.bump_clk (f : Fld) : (d.bump f).clk = d.clk := rfl
@[simp] theorem Dev.bump_shadow (f : Fld) : (d.bump f).shadow = d.shadow := rfl
@[simp] theorem Dev.bump_held (f : Fld) : (d.bump f).held = d.held := rfl
@[simp] theorem Dev.bump_perMaster (f : Fld) : (d.bump f).perMaster = d.perMaster := rfl
@[simp] theorem Dev.bump_bumped (f : Fld) : (d.bump f).bumped = d.bumped := rfl
@[simp] theorem Dev.bump_old (f : Fld) : (d.bump f).old = d.old := rfl
@[simp] theorem Dev.bump_hwSet (f : Fld) : (d.bump f).hwSet = d.hwSet := rfl
@[simp] theorem Dev.bump_outside (f : Fld) : (d.bump f).outside = d.outside := rfl
@[simp] theorem Dev.bump_sram (f : Fld) : (d.bump f).sram = d.sram := rfl
@[simp] theorem Dev.bump_nvm (f : Fld) : (d.bump f).nvm = d.nvm := rfl
@[simp] theorem Dev.bump_nvmOnes (f : Fld) : (d.bump f).nvmOnes = d.nvmOnes := rfl
@[simp] theorem Dev.bump_nvmErrs (f : Fld) : (d.bump f).nvmErrs = d.nvmErrs := rfl
@[simp] theorem Dev.bump_railLow (f : Fld) : (d.bump f).railLow = d.railLow := rfl
@[simp] theorem Dev.bump_meas (f : Fld) : (d.bump f).meas = d.meas := rfl
@[simp] theorem Dev.bump_jobs (f : Fld) : (d.bump f).jobs = d.jobs := rfl
@[simp] theorem Dev.bump_flt (f : Fld) : (d.bump f).flt = d.flt := rfl
@[simp] theorem Dev.bump_pads (f : Fld) : (d.bump f).pads = d.pads := rfl
@[simp] theorem Dev.bump_refs (f : Fld) : (d.bump f).refs = d.refs := rfl
@[simp] theorem Dev.bump_sels (f : Fld) : (d.bump f).sels = d.sels := rfl
@[simp] theorem Dev.bump_selNow (f : Fld) : (d.bump f).selNow = d.selNow := rfl
@[simp] theorem Dev.bump_alive (f : Fld) : (d.bump f).alive = d.alive := rfl
@[simp] theorem Dev.bump_ports (f : Fld) : (d.bump f).ports = d.ports := rfl
@[simp] theorem Dev.bump_beats (f : Fld) : (d.bump f).beats = d.beats := rfl
@[simp] theorem Dev.bump_past (f : Fld) : (d.bump f).past = d.past := rfl
@[simp] theorem Dev.bump_aplls (f : Fld) : (d.bump f).aplls = d.aplls := rfl
@[simp] theorem Dev.bump_outs (f : Fld) : (d.bump f).outs = d.outs := rfl
@[simp] theorem Dev.bump_psyns (f : Fld) : (d.bump f).psyns = d.psyns := rfl
@[simp] theorem Dev.bump_nvmc (f : Fld) : (d.bump f).nvmc = d.nvmc := rfl
@[simp] theorem Dev.bump_chk (f : Fld) : (d.bump f).chk = d.chk := rfl
@[simp] theorem Dev.bump_mbx (f : Fld) : (d.bump f).mbx = d.mbx := rfl
@[simp] theorem Dev.bump_boot (f : Fld) : (d.bump f).boot = d.boot := rfl
@[simp] theorem Dev.bump_front (f : Fld) : (d.bump f).front = d.front := rfl
@[simp] theorem Dev.bump_resetKind (f : Fld) : (d.bump f).resetKind = d.resetKind := rfl
@[simp] theorem Dev.bump_priorMode (f : Fld) : (d.bump f).priorMode = d.priorMode := rfl
@[simp] theorem Dev.bump_undo (f : Fld) : (d.bump f).undo = d.undo := rfl
@[simp] theorem Dev.bump_rsp (f : Fld) : (d.bump f).rsp = d.rsp := rfl
@[simp] theorem Dev.bump_fresh (f : Fld) : (d.bump f).fresh = d.fresh := rfl

/-! ### setMode -/

@[simp] theorem Dev.setMode_clk (m : Mode) : (d.setMode m).clk = d.clk := rfl
@[simp] theorem Dev.setMode_shadow (m : Mode) : (d.setMode m).shadow = d.shadow := rfl
@[simp] theorem Dev.setMode_held (m : Mode) : (d.setMode m).held = d.held := rfl
@[simp] theorem Dev.setMode_perMaster (m : Mode) : (d.setMode m).perMaster = d.perMaster := rfl
@[simp] theorem Dev.setMode_bumped (m : Mode) : (d.setMode m).bumped = d.bumped := rfl
@[simp] theorem Dev.setMode_old (m : Mode) : (d.setMode m).old = d.old := rfl
@[simp] theorem Dev.setMode_hwSet (m : Mode) : (d.setMode m).hwSet = d.hwSet := rfl
@[simp] theorem Dev.setMode_outside (m : Mode) : (d.setMode m).outside = d.outside := rfl
@[simp] theorem Dev.setMode_sram (m : Mode) : (d.setMode m).sram = d.sram := rfl
@[simp] theorem Dev.setMode_nvm (m : Mode) : (d.setMode m).nvm = d.nvm := rfl
@[simp] theorem Dev.setMode_nvmOnes (m : Mode) : (d.setMode m).nvmOnes = d.nvmOnes := rfl
@[simp] theorem Dev.setMode_nvmErrs (m : Mode) : (d.setMode m).nvmErrs = d.nvmErrs := rfl
@[simp] theorem Dev.setMode_railLow (m : Mode) : (d.setMode m).railLow = d.railLow := rfl
@[simp] theorem Dev.setMode_meas (m : Mode) : (d.setMode m).meas = d.meas := rfl
@[simp] theorem Dev.setMode_jobs (m : Mode) : (d.setMode m).jobs = d.jobs := rfl
@[simp] theorem Dev.setMode_flt (m : Mode) : (d.setMode m).flt = d.flt := rfl
@[simp] theorem Dev.setMode_pads (m : Mode) : (d.setMode m).pads = d.pads := rfl
@[simp] theorem Dev.setMode_refs (m : Mode) : (d.setMode m).refs = d.refs := rfl
@[simp] theorem Dev.setMode_sels (m : Mode) : (d.setMode m).sels = d.sels := rfl
@[simp] theorem Dev.setMode_selNow (m : Mode) : (d.setMode m).selNow = d.selNow := rfl
@[simp] theorem Dev.setMode_alive (m : Mode) : (d.setMode m).alive = d.alive := rfl
@[simp] theorem Dev.setMode_ports (m : Mode) : (d.setMode m).ports = d.ports := rfl
@[simp] theorem Dev.setMode_beats (m : Mode) : (d.setMode m).beats = d.beats := rfl
@[simp] theorem Dev.setMode_past (m : Mode) : (d.setMode m).past = d.past := rfl
@[simp] theorem Dev.setMode_aplls (m : Mode) : (d.setMode m).aplls = d.aplls := rfl
@[simp] theorem Dev.setMode_outs (m : Mode) : (d.setMode m).outs = d.outs := rfl
@[simp] theorem Dev.setMode_psyns (m : Mode) : (d.setMode m).psyns = d.psyns := rfl
@[simp] theorem Dev.setMode_nvmc (m : Mode) : (d.setMode m).nvmc = d.nvmc := rfl
@[simp] theorem Dev.setMode_chk (m : Mode) : (d.setMode m).chk = d.chk := rfl
@[simp] theorem Dev.setMode_mbx (m : Mode) : (d.setMode m).mbx = d.mbx := rfl
@[simp] theorem Dev.setMode_boot (m : Mode) : (d.setMode m).boot = d.boot := rfl
@[simp] theorem Dev.setMode_front (m : Mode) : (d.setMode m).front = d.front := rfl
@[simp] theorem Dev.setMode_resetKind (m : Mode) : (d.setMode m).resetKind = d.resetKind := rfl
@[simp] theorem Dev.setMode_priorMode (m : Mode) : (d.setMode m).priorMode = d.priorMode := rfl
@[simp] theorem Dev.setMode_undo (m : Mode) : (d.setMode m).undo = d.undo := rfl
@[simp] theorem Dev.setMode_rsp (m : Mode) : (d.setMode m).rsp = d.rsp := rfl
@[simp] theorem Dev.setMode_fresh (m : Mode) : (d.setMode m).fresh = d.fresh := rfl

/-! ### changeMode -/

@[simp] theorem Dev.changeMode_clk (m : Mode) : (d.changeMode m).clk = d.clk := rfl
@[simp] theorem Dev.changeMode_shadow (m : Mode) : (d.changeMode m).shadow = d.shadow := rfl
@[simp] theorem Dev.changeMode_held (m : Mode) : (d.changeMode m).held = d.held := rfl
@[simp] theorem Dev.changeMode_perMaster (m : Mode) : (d.changeMode m).perMaster = d.perMaster := rfl
@[simp] theorem Dev.changeMode_bumped (m : Mode) : (d.changeMode m).bumped = d.bumped := rfl
@[simp] theorem Dev.changeMode_old (m : Mode) : (d.changeMode m).old = d.old := rfl
@[simp] theorem Dev.changeMode_hwSet (m : Mode) : (d.changeMode m).hwSet = d.hwSet := rfl
@[simp] theorem Dev.changeMode_outside (m : Mode) : (d.changeMode m).outside = d.outside := rfl
@[simp] theorem Dev.changeMode_sram (m : Mode) : (d.changeMode m).sram = d.sram := rfl
@[simp] theorem Dev.changeMode_nvm (m : Mode) : (d.changeMode m).nvm = d.nvm := rfl
@[simp] theorem Dev.changeMode_nvmOnes (m : Mode) : (d.changeMode m).nvmOnes = d.nvmOnes := rfl
@[simp] theorem Dev.changeMode_nvmErrs (m : Mode) : (d.changeMode m).nvmErrs = d.nvmErrs := rfl
@[simp] theorem Dev.changeMode_railLow (m : Mode) : (d.changeMode m).railLow = d.railLow := rfl
@[simp] theorem Dev.changeMode_meas (m : Mode) : (d.changeMode m).meas = d.meas := rfl
@[simp] theorem Dev.changeMode_jobs (m : Mode) : (d.changeMode m).jobs = d.jobs := rfl
@[simp] theorem Dev.changeMode_pads (m : Mode) : (d.changeMode m).pads = d.pads := rfl
@[simp] theorem Dev.changeMode_refs (m : Mode) : (d.changeMode m).refs = d.refs := rfl
@[simp] theorem Dev.changeMode_sels (m : Mode) : (d.changeMode m).sels = d.sels := rfl
@[simp] theorem Dev.changeMode_selNow (m : Mode) : (d.changeMode m).selNow = d.selNow := rfl
@[simp] theorem Dev.changeMode_alive (m : Mode) : (d.changeMode m).alive = d.alive := rfl
@[simp] theorem Dev.changeMode_ports (m : Mode) : (d.changeMode m).ports = d.ports := rfl
@[simp] theorem Dev.changeMode_beats (m : Mode) : (d.changeMode m).beats = d.beats := rfl
@[simp] theorem Dev.changeMode_past (m : Mode) : (d.changeMode m).past = d.past := rfl
@[simp] theorem Dev.changeMode_aplls (m : Mode) : (d.changeMode m).aplls = d.aplls := rfl
@[simp] theorem Dev.changeMode_outs (m : Mode) : (d.changeMode m).outs = d.outs := rfl
@[simp] theorem Dev.changeMode_psyns (m : Mode) : (d.changeMode m).psyns = d.psyns := rfl
@[simp] theorem Dev.changeMode_nvmc (m : Mode) : (d.changeMode m).nvmc = d.nvmc := rfl
@[simp] theorem Dev.changeMode_chk (m : Mode) : (d.changeMode m).chk = d.chk := rfl
@[simp] theorem Dev.changeMode_mbx (m : Mode) : (d.changeMode m).mbx = d.mbx := rfl
@[simp] theorem Dev.changeMode_boot (m : Mode) : (d.changeMode m).boot = d.boot := rfl
@[simp] theorem Dev.changeMode_front (m : Mode) : (d.changeMode m).front = d.front := rfl
@[simp] theorem Dev.changeMode_resetKind (m : Mode) : (d.changeMode m).resetKind = d.resetKind := rfl
@[simp] theorem Dev.changeMode_priorMode (m : Mode) : (d.changeMode m).priorMode = d.priorMode := rfl
@[simp] theorem Dev.changeMode_undo (m : Mode) : (d.changeMode m).undo = d.undo := rfl
@[simp] theorem Dev.changeMode_rsp (m : Mode) : (d.changeMode m).rsp = d.rsp := rfl
@[simp] theorem Dev.changeMode_fresh (m : Mode) : (d.changeMode m).fresh = d.fresh := rfl

/-! ### logEvent -/

@[simp] theorem Dev.logEvent_clk (c a n : Nat) : (d.logEvent c a n).clk = d.clk := rfl
@[simp] theorem Dev.logEvent_live (c a n : Nat) : (d.logEvent c a n).live = d.live := rfl
@[simp] theorem Dev.logEvent_shadow (c a n : Nat) : (d.logEvent c a n).shadow = d.shadow := rfl
@[simp] theorem Dev.logEvent_held (c a n : Nat) : (d.logEvent c a n).held = d.held := rfl
@[simp] theorem Dev.logEvent_perMaster (c a n : Nat) : (d.logEvent c a n).perMaster = d.perMaster := rfl
@[simp] theorem Dev.logEvent_bumped (c a n : Nat) : (d.logEvent c a n).bumped = d.bumped := rfl
@[simp] theorem Dev.logEvent_old (c a n : Nat) : (d.logEvent c a n).old = d.old := rfl
@[simp] theorem Dev.logEvent_hwSet (c a n : Nat) : (d.logEvent c a n).hwSet = d.hwSet := rfl
@[simp] theorem Dev.logEvent_outside (c a n : Nat) : (d.logEvent c a n).outside = d.outside := rfl
@[simp] theorem Dev.logEvent_sram (c a n : Nat) : (d.logEvent c a n).sram = d.sram := rfl
@[simp] theorem Dev.logEvent_nvm (c a n : Nat) : (d.logEvent c a n).nvm = d.nvm := rfl
@[simp] theorem Dev.logEvent_nvmOnes (c a n : Nat) : (d.logEvent c a n).nvmOnes = d.nvmOnes := rfl
@[simp] theorem Dev.logEvent_nvmErrs (c a n : Nat) : (d.logEvent c a n).nvmErrs = d.nvmErrs := rfl
@[simp] theorem Dev.logEvent_railLow (c a n : Nat) : (d.logEvent c a n).railLow = d.railLow := rfl
@[simp] theorem Dev.logEvent_meas (c a n : Nat) : (d.logEvent c a n).meas = d.meas := rfl
@[simp] theorem Dev.logEvent_jobs (c a n : Nat) : (d.logEvent c a n).jobs = d.jobs := rfl
@[simp] theorem Dev.logEvent_pads (c a n : Nat) : (d.logEvent c a n).pads = d.pads := rfl
@[simp] theorem Dev.logEvent_refs (c a n : Nat) : (d.logEvent c a n).refs = d.refs := rfl
@[simp] theorem Dev.logEvent_sels (c a n : Nat) : (d.logEvent c a n).sels = d.sels := rfl
@[simp] theorem Dev.logEvent_selNow (c a n : Nat) : (d.logEvent c a n).selNow = d.selNow := rfl
@[simp] theorem Dev.logEvent_alive (c a n : Nat) : (d.logEvent c a n).alive = d.alive := rfl
@[simp] theorem Dev.logEvent_ports (c a n : Nat) : (d.logEvent c a n).ports = d.ports := rfl
@[simp] theorem Dev.logEvent_beats (c a n : Nat) : (d.logEvent c a n).beats = d.beats := rfl
@[simp] theorem Dev.logEvent_past (c a n : Nat) : (d.logEvent c a n).past = d.past := rfl
@[simp] theorem Dev.logEvent_aplls (c a n : Nat) : (d.logEvent c a n).aplls = d.aplls := rfl
@[simp] theorem Dev.logEvent_outs (c a n : Nat) : (d.logEvent c a n).outs = d.outs := rfl
@[simp] theorem Dev.logEvent_psyns (c a n : Nat) : (d.logEvent c a n).psyns = d.psyns := rfl
@[simp] theorem Dev.logEvent_nvmc (c a n : Nat) : (d.logEvent c a n).nvmc = d.nvmc := rfl
@[simp] theorem Dev.logEvent_chk (c a n : Nat) : (d.logEvent c a n).chk = d.chk := rfl
@[simp] theorem Dev.logEvent_mbx (c a n : Nat) : (d.logEvent c a n).mbx = d.mbx := rfl
@[simp] theorem Dev.logEvent_boot (c a n : Nat) : (d.logEvent c a n).boot = d.boot := rfl
@[simp] theorem Dev.logEvent_front (c a n : Nat) : (d.logEvent c a n).front = d.front := rfl
@[simp] theorem Dev.logEvent_resetKind (c a n : Nat) : (d.logEvent c a n).resetKind = d.resetKind := rfl
@[simp] theorem Dev.logEvent_priorMode (c a n : Nat) : (d.logEvent c a n).priorMode = d.priorMode := rfl
@[simp] theorem Dev.logEvent_undo (c a n : Nat) : (d.logEvent c a n).undo = d.undo := rfl
@[simp] theorem Dev.logEvent_rsp (c a n : Nat) : (d.logEvent c a n).rsp = d.rsp := rfl
@[simp] theorem Dev.logEvent_fresh (c a n : Nat) : (d.logEvent c a n).fresh = d.fresh := rfl
@[simp] theorem Dev.word_logEvent (c a n : Nat) (r : Nat) : (d.logEvent c a n).word r = d.word r := rfl
@[simp] theorem Dev.rd_logEvent (c a n : Nat) (g : Fld) : (d.logEvent c a n).rd g = d.rd g := rfl
@[simp] theorem Dev.flag_logEvent (c a n : Nat) (g : Fld) : (d.logEvent c a n).flag g = d.flag g := rfl

/-! ### setCell -/

@[simp] theorem Dev.setCell_clk (k : Nat) (f : Cell → Cell) : (d.setCell k f).clk = d.clk := rfl
@[simp] theorem Dev.setCell_live (k : Nat) (f : Cell → Cell) : (d.setCell k f).live = d.live := rfl
@[simp] theorem Dev.setCell_shadow (k : Nat) (f : Cell → Cell) : (d.setCell k f).shadow = d.shadow := rfl
@[simp] theorem Dev.setCell_held (k : Nat) (f : Cell → Cell) : (d.setCell k f).held = d.held := rfl
@[simp] theorem Dev.setCell_perMaster (k : Nat) (f : Cell → Cell) : (d.setCell k f).perMaster = d.perMaster := rfl
@[simp] theorem Dev.setCell_bumped (k : Nat) (f : Cell → Cell) : (d.setCell k f).bumped = d.bumped := rfl
@[simp] theorem Dev.setCell_old (k : Nat) (f : Cell → Cell) : (d.setCell k f).old = d.old := rfl
@[simp] theorem Dev.setCell_hwSet (k : Nat) (f : Cell → Cell) : (d.setCell k f).hwSet = d.hwSet := rfl
@[simp] theorem Dev.setCell_outside (k : Nat) (f : Cell → Cell) : (d.setCell k f).outside = d.outside := rfl
@[simp] theorem Dev.setCell_sram (k : Nat) (f : Cell → Cell) : (d.setCell k f).sram = d.sram := rfl
@[simp] theorem Dev.setCell_nvm (k : Nat) (f : Cell → Cell) : (d.setCell k f).nvm = d.nvm := rfl
@[simp] theorem Dev.setCell_nvmOnes (k : Nat) (f : Cell → Cell) : (d.setCell k f).nvmOnes = d.nvmOnes := rfl
@[simp] theorem Dev.setCell_nvmErrs (k : Nat) (f : Cell → Cell) : (d.setCell k f).nvmErrs = d.nvmErrs := rfl
@[simp] theorem Dev.setCell_railLow (k : Nat) (f : Cell → Cell) : (d.setCell k f).railLow = d.railLow := rfl
@[simp] theorem Dev.setCell_jobs (k : Nat) (f : Cell → Cell) : (d.setCell k f).jobs = d.jobs := rfl
@[simp] theorem Dev.setCell_flt (k : Nat) (f : Cell → Cell) : (d.setCell k f).flt = d.flt := rfl
@[simp] theorem Dev.setCell_pads (k : Nat) (f : Cell → Cell) : (d.setCell k f).pads = d.pads := rfl
@[simp] theorem Dev.setCell_refs (k : Nat) (f : Cell → Cell) : (d.setCell k f).refs = d.refs := rfl
@[simp] theorem Dev.setCell_sels (k : Nat) (f : Cell → Cell) : (d.setCell k f).sels = d.sels := rfl
@[simp] theorem Dev.setCell_selNow (k : Nat) (f : Cell → Cell) : (d.setCell k f).selNow = d.selNow := rfl
@[simp] theorem Dev.setCell_alive (k : Nat) (f : Cell → Cell) : (d.setCell k f).alive = d.alive := rfl
@[simp] theorem Dev.setCell_ports (k : Nat) (f : Cell → Cell) : (d.setCell k f).ports = d.ports := rfl
@[simp] theorem Dev.setCell_beats (k : Nat) (f : Cell → Cell) : (d.setCell k f).beats = d.beats := rfl
@[simp] theorem Dev.setCell_past (k : Nat) (f : Cell → Cell) : (d.setCell k f).past = d.past := rfl
@[simp] theorem Dev.setCell_aplls (k : Nat) (f : Cell → Cell) : (d.setCell k f).aplls = d.aplls := rfl
@[simp] theorem Dev.setCell_outs (k : Nat) (f : Cell → Cell) : (d.setCell k f).outs = d.outs := rfl
@[simp] theorem Dev.setCell_psyns (k : Nat) (f : Cell → Cell) : (d.setCell k f).psyns = d.psyns := rfl
@[simp] theorem Dev.setCell_nvmc (k : Nat) (f : Cell → Cell) : (d.setCell k f).nvmc = d.nvmc := rfl
@[simp] theorem Dev.setCell_chk (k : Nat) (f : Cell → Cell) : (d.setCell k f).chk = d.chk := rfl
@[simp] theorem Dev.setCell_mbx (k : Nat) (f : Cell → Cell) : (d.setCell k f).mbx = d.mbx := rfl
@[simp] theorem Dev.setCell_boot (k : Nat) (f : Cell → Cell) : (d.setCell k f).boot = d.boot := rfl
@[simp] theorem Dev.setCell_front (k : Nat) (f : Cell → Cell) : (d.setCell k f).front = d.front := rfl
@[simp] theorem Dev.setCell_resetKind (k : Nat) (f : Cell → Cell) : (d.setCell k f).resetKind = d.resetKind := rfl
@[simp] theorem Dev.setCell_priorMode (k : Nat) (f : Cell → Cell) : (d.setCell k f).priorMode = d.priorMode := rfl
@[simp] theorem Dev.setCell_undo (k : Nat) (f : Cell → Cell) : (d.setCell k f).undo = d.undo := rfl
@[simp] theorem Dev.setCell_rsp (k : Nat) (f : Cell → Cell) : (d.setCell k f).rsp = d.rsp := rfl
@[simp] theorem Dev.setCell_fresh (k : Nat) (f : Cell → Cell) : (d.setCell k f).fresh = d.fresh := rfl
@[simp] theorem Dev.word_setCell (k : Nat) (f : Cell → Cell) (r : Nat) : (d.setCell k f).word r = d.word r := rfl
@[simp] theorem Dev.rd_setCell (k : Nat) (f : Cell → Cell) (g : Fld) : (d.setCell k f).rd g = d.rd g := rfl
@[simp] theorem Dev.flag_setCell (k : Nat) (f : Cell → Cell) (g : Fld) : (d.setCell k f).flag g = d.flag g := rfl

/-! ### setChan -/

@[simp] theorem Dev.setChan_clk (k : Nat) (f : Chan → Chan) : (d.setChan k f).clk = d.clk := rfl
@[simp] theorem Dev.setChan_live (k : Nat) (f : Chan → Chan) : (d.setChan k f).live = d.live := rfl
@[simp] theorem Dev.setChan_shadow (k : Nat) (f : Chan → Chan) : (d.setChan k f).shadow = d.shadow := rfl
@[simp] theorem Dev.setChan_held (k : Nat) (f : Chan → Chan) : (d.setChan k f).held = d.held := rfl
@[simp] theorem Dev.setChan_perMaster (k : Nat) (f : Chan → Chan) : (d.setChan k f).perMaster = d.perMaster := rfl
@[simp] theorem Dev.setChan_bumped (k : Nat) (f : Chan → Chan) : (d.setChan k f).bumped = d.bumped := rfl
@[simp] theorem Dev.setChan_old (k : Nat) (f : Chan → Chan) : (d.setChan k f).old = d.old := rfl
@[simp] theorem Dev.setChan_hwSet (k : Nat) (f : Chan → Chan) : (d.setChan k f).hwSet = d.hwSet := rfl
@[simp] theorem Dev.setChan_outside (k : Nat) (f : Chan → Chan) : (d.setChan k f).outside = d.outside := rfl
@[simp] theorem Dev.setChan_sram (k : Nat) (f : Chan → Chan) : (d.setChan k f).sram = d.sram := rfl
@[simp] theorem Dev.setChan_nvm (k : Nat) (f : Chan → Chan) : (d.setChan k f).nvm = d.nvm := rfl
@[simp] theorem Dev.setChan_nvmOnes (k : Nat) (f : Chan → Chan) : (d.setChan k f).nvmOnes = d.nvmOnes := rfl
@[simp] theorem Dev.setChan_nvmErrs (k : Nat) (f : Chan → Chan) : (d.setChan k f).nvmErrs = d.nvmErrs := rfl
@[simp] theorem Dev.setChan_railLow (k : Nat) (f : Chan → Chan) : (d.setChan k f).railLow = d.railLow := rfl
@[simp] theorem Dev.setChan_jobs (k : Nat) (f : Chan → Chan) : (d.setChan k f).jobs = d.jobs := rfl
@[simp] theorem Dev.setChan_flt (k : Nat) (f : Chan → Chan) : (d.setChan k f).flt = d.flt := rfl
@[simp] theorem Dev.setChan_pads (k : Nat) (f : Chan → Chan) : (d.setChan k f).pads = d.pads := rfl
@[simp] theorem Dev.setChan_refs (k : Nat) (f : Chan → Chan) : (d.setChan k f).refs = d.refs := rfl
@[simp] theorem Dev.setChan_sels (k : Nat) (f : Chan → Chan) : (d.setChan k f).sels = d.sels := rfl
@[simp] theorem Dev.setChan_selNow (k : Nat) (f : Chan → Chan) : (d.setChan k f).selNow = d.selNow := rfl
@[simp] theorem Dev.setChan_alive (k : Nat) (f : Chan → Chan) : (d.setChan k f).alive = d.alive := rfl
@[simp] theorem Dev.setChan_ports (k : Nat) (f : Chan → Chan) : (d.setChan k f).ports = d.ports := rfl
@[simp] theorem Dev.setChan_beats (k : Nat) (f : Chan → Chan) : (d.setChan k f).beats = d.beats := rfl
@[simp] theorem Dev.setChan_past (k : Nat) (f : Chan → Chan) : (d.setChan k f).past = d.past := rfl
@[simp] theorem Dev.setChan_aplls (k : Nat) (f : Chan → Chan) : (d.setChan k f).aplls = d.aplls := rfl
@[simp] theorem Dev.setChan_outs (k : Nat) (f : Chan → Chan) : (d.setChan k f).outs = d.outs := rfl
@[simp] theorem Dev.setChan_psyns (k : Nat) (f : Chan → Chan) : (d.setChan k f).psyns = d.psyns := rfl
@[simp] theorem Dev.setChan_nvmc (k : Nat) (f : Chan → Chan) : (d.setChan k f).nvmc = d.nvmc := rfl
@[simp] theorem Dev.setChan_chk (k : Nat) (f : Chan → Chan) : (d.setChan k f).chk = d.chk := rfl
@[simp] theorem Dev.setChan_mbx (k : Nat) (f : Chan → Chan) : (d.setChan k f).mbx = d.mbx := rfl
@[simp] theorem Dev.setChan_boot (k : Nat) (f : Chan → Chan) : (d.setChan k f).boot = d.boot := rfl
@[simp] theorem Dev.setChan_front (k : Nat) (f : Chan → Chan) : (d.setChan k f).front = d.front := rfl
@[simp] theorem Dev.setChan_resetKind (k : Nat) (f : Chan → Chan) : (d.setChan k f).resetKind = d.resetKind := rfl
@[simp] theorem Dev.setChan_priorMode (k : Nat) (f : Chan → Chan) : (d.setChan k f).priorMode = d.priorMode := rfl
@[simp] theorem Dev.setChan_undo (k : Nat) (f : Chan → Chan) : (d.setChan k f).undo = d.undo := rfl
@[simp] theorem Dev.setChan_rsp (k : Nat) (f : Chan → Chan) : (d.setChan k f).rsp = d.rsp := rfl
@[simp] theorem Dev.setChan_fresh (k : Nat) (f : Chan → Chan) : (d.setChan k f).fresh = d.fresh := rfl
@[simp] theorem Dev.word_setChan (k : Nat) (f : Chan → Chan) (r : Nat) : (d.setChan k f).word r = d.word r := rfl
@[simp] theorem Dev.rd_setChan (k : Nat) (f : Chan → Chan) (g : Fld) : (d.setChan k f).rd g = d.rd g := rfl
@[simp] theorem Dev.flag_setChan (k : Nat) (f : Chan → Chan) (g : Fld) : (d.setChan k f).flag g = d.flag g := rfl

/-! ### setJob -/

@[simp] theorem Dev.setJob_clk (k : Nat) (j : Option Job) : (d.setJob k j).clk = d.clk := rfl
@[simp] theorem Dev.setJob_live (k : Nat) (j : Option Job) : (d.setJob k j).live = d.live := rfl
@[simp] theorem Dev.setJob_shadow (k : Nat) (j : Option Job) : (d.setJob k j).shadow = d.shadow := rfl
@[simp] theorem Dev.setJob_held (k : Nat) (j : Option Job) : (d.setJob k j).held = d.held := rfl
@[simp] theorem Dev.setJob_perMaster (k : Nat) (j : Option Job) : (d.setJob k j).perMaster = d.perMaster := rfl
@[simp] theorem Dev.setJob_bumped (k : Nat) (j : Option Job) : (d.setJob k j).bumped = d.bumped := rfl
@[simp] theorem Dev.setJob_old (k : Nat) (j : Option Job) : (d.setJob k j).old = d.old := rfl
@[simp] theorem Dev.setJob_hwSet (k : Nat) (j : Option Job) : (d.setJob k j).hwSet = d.hwSet := rfl
@[simp] theorem Dev.setJob_outside (k : Nat) (j : Option Job) : (d.setJob k j).outside = d.outside := rfl
@[simp] theorem Dev.setJob_sram (k : Nat) (j : Option Job) : (d.setJob k j).sram = d.sram := rfl
@[simp] theorem Dev.setJob_nvm (k : Nat) (j : Option Job) : (d.setJob k j).nvm = d.nvm := rfl
@[simp] theorem Dev.setJob_nvmOnes (k : Nat) (j : Option Job) : (d.setJob k j).nvmOnes = d.nvmOnes := rfl
@[simp] theorem Dev.setJob_nvmErrs (k : Nat) (j : Option Job) : (d.setJob k j).nvmErrs = d.nvmErrs := rfl
@[simp] theorem Dev.setJob_railLow (k : Nat) (j : Option Job) : (d.setJob k j).railLow = d.railLow := rfl
@[simp] theorem Dev.setJob_meas (k : Nat) (j : Option Job) : (d.setJob k j).meas = d.meas := rfl
@[simp] theorem Dev.setJob_flt (k : Nat) (j : Option Job) : (d.setJob k j).flt = d.flt := rfl
@[simp] theorem Dev.setJob_pads (k : Nat) (j : Option Job) : (d.setJob k j).pads = d.pads := rfl
@[simp] theorem Dev.setJob_refs (k : Nat) (j : Option Job) : (d.setJob k j).refs = d.refs := rfl
@[simp] theorem Dev.setJob_sels (k : Nat) (j : Option Job) : (d.setJob k j).sels = d.sels := rfl
@[simp] theorem Dev.setJob_selNow (k : Nat) (j : Option Job) : (d.setJob k j).selNow = d.selNow := rfl
@[simp] theorem Dev.setJob_alive (k : Nat) (j : Option Job) : (d.setJob k j).alive = d.alive := rfl
@[simp] theorem Dev.setJob_ports (k : Nat) (j : Option Job) : (d.setJob k j).ports = d.ports := rfl
@[simp] theorem Dev.setJob_beats (k : Nat) (j : Option Job) : (d.setJob k j).beats = d.beats := rfl
@[simp] theorem Dev.setJob_past (k : Nat) (j : Option Job) : (d.setJob k j).past = d.past := rfl
@[simp] theorem Dev.setJob_aplls (k : Nat) (j : Option Job) : (d.setJob k j).aplls = d.aplls := rfl
@[simp] theorem Dev.setJob_outs (k : Nat) (j : Option Job) : (d.setJob k j).outs = d.outs := rfl
@[simp] theorem Dev.setJob_psyns (k : Nat) (j : Option Job) : (d.setJob k j).psyns = d.psyns := rfl
@[simp] theorem Dev.setJob_nvmc (k : Nat) (j : Option Job) : (d.setJob k j).nvmc = d.nvmc := rfl
@[simp] theorem Dev.setJob_chk (k : Nat) (j : Option Job) : (d.setJob k j).chk = d.chk := rfl
@[simp] theorem Dev.setJob_mbx (k : Nat) (j : Option Job) : (d.setJob k j).mbx = d.mbx := rfl
@[simp] theorem Dev.setJob_boot (k : Nat) (j : Option Job) : (d.setJob k j).boot = d.boot := rfl
@[simp] theorem Dev.setJob_front (k : Nat) (j : Option Job) : (d.setJob k j).front = d.front := rfl
@[simp] theorem Dev.setJob_resetKind (k : Nat) (j : Option Job) : (d.setJob k j).resetKind = d.resetKind := rfl
@[simp] theorem Dev.setJob_priorMode (k : Nat) (j : Option Job) : (d.setJob k j).priorMode = d.priorMode := rfl
@[simp] theorem Dev.setJob_undo (k : Nat) (j : Option Job) : (d.setJob k j).undo = d.undo := rfl
@[simp] theorem Dev.setJob_rsp (k : Nat) (j : Option Job) : (d.setJob k j).rsp = d.rsp := rfl
@[simp] theorem Dev.setJob_fresh (k : Nat) (j : Option Job) : (d.setJob k j).fresh = d.fresh := rfl
@[simp] theorem Dev.word_setJob (k : Nat) (j : Option Job) (r : Nat) : (d.setJob k j).word r = d.word r := rfl
@[simp] theorem Dev.rd_setJob (k : Nat) (j : Option Job) (g : Fld) : (d.setJob k j).rd g = d.rd g := rfl
@[simp] theorem Dev.flag_setJob (k : Nat) (j : Option Job) (g : Fld) : (d.setJob k j).flag g = d.flag g := rfl

/-! ### setRing -/

@[simp] theorem Dev.setRing_clk (k : Nat) (f : Ring → Ring) : (d.setRing k f).clk = d.clk := rfl
@[simp] theorem Dev.setRing_live (k : Nat) (f : Ring → Ring) : (d.setRing k f).live = d.live := rfl
@[simp] theorem Dev.setRing_shadow (k : Nat) (f : Ring → Ring) : (d.setRing k f).shadow = d.shadow := rfl
@[simp] theorem Dev.setRing_held (k : Nat) (f : Ring → Ring) : (d.setRing k f).held = d.held := rfl
@[simp] theorem Dev.setRing_perMaster (k : Nat) (f : Ring → Ring) : (d.setRing k f).perMaster = d.perMaster := rfl
@[simp] theorem Dev.setRing_bumped (k : Nat) (f : Ring → Ring) : (d.setRing k f).bumped = d.bumped := rfl
@[simp] theorem Dev.setRing_old (k : Nat) (f : Ring → Ring) : (d.setRing k f).old = d.old := rfl
@[simp] theorem Dev.setRing_hwSet (k : Nat) (f : Ring → Ring) : (d.setRing k f).hwSet = d.hwSet := rfl
@[simp] theorem Dev.setRing_outside (k : Nat) (f : Ring → Ring) : (d.setRing k f).outside = d.outside := rfl
@[simp] theorem Dev.setRing_sram (k : Nat) (f : Ring → Ring) : (d.setRing k f).sram = d.sram := rfl
@[simp] theorem Dev.setRing_nvm (k : Nat) (f : Ring → Ring) : (d.setRing k f).nvm = d.nvm := rfl
@[simp] theorem Dev.setRing_nvmOnes (k : Nat) (f : Ring → Ring) : (d.setRing k f).nvmOnes = d.nvmOnes := rfl
@[simp] theorem Dev.setRing_nvmErrs (k : Nat) (f : Ring → Ring) : (d.setRing k f).nvmErrs = d.nvmErrs := rfl
@[simp] theorem Dev.setRing_railLow (k : Nat) (f : Ring → Ring) : (d.setRing k f).railLow = d.railLow := rfl
@[simp] theorem Dev.setRing_meas (k : Nat) (f : Ring → Ring) : (d.setRing k f).meas = d.meas := rfl
@[simp] theorem Dev.setRing_flt (k : Nat) (f : Ring → Ring) : (d.setRing k f).flt = d.flt := rfl
@[simp] theorem Dev.setRing_pads (k : Nat) (f : Ring → Ring) : (d.setRing k f).pads = d.pads := rfl
@[simp] theorem Dev.setRing_refs (k : Nat) (f : Ring → Ring) : (d.setRing k f).refs = d.refs := rfl
@[simp] theorem Dev.setRing_sels (k : Nat) (f : Ring → Ring) : (d.setRing k f).sels = d.sels := rfl
@[simp] theorem Dev.setRing_selNow (k : Nat) (f : Ring → Ring) : (d.setRing k f).selNow = d.selNow := rfl
@[simp] theorem Dev.setRing_alive (k : Nat) (f : Ring → Ring) : (d.setRing k f).alive = d.alive := rfl
@[simp] theorem Dev.setRing_ports (k : Nat) (f : Ring → Ring) : (d.setRing k f).ports = d.ports := rfl
@[simp] theorem Dev.setRing_beats (k : Nat) (f : Ring → Ring) : (d.setRing k f).beats = d.beats := rfl
@[simp] theorem Dev.setRing_past (k : Nat) (f : Ring → Ring) : (d.setRing k f).past = d.past := rfl
@[simp] theorem Dev.setRing_aplls (k : Nat) (f : Ring → Ring) : (d.setRing k f).aplls = d.aplls := rfl
@[simp] theorem Dev.setRing_outs (k : Nat) (f : Ring → Ring) : (d.setRing k f).outs = d.outs := rfl
@[simp] theorem Dev.setRing_psyns (k : Nat) (f : Ring → Ring) : (d.setRing k f).psyns = d.psyns := rfl
@[simp] theorem Dev.setRing_nvmc (k : Nat) (f : Ring → Ring) : (d.setRing k f).nvmc = d.nvmc := rfl
@[simp] theorem Dev.setRing_chk (k : Nat) (f : Ring → Ring) : (d.setRing k f).chk = d.chk := rfl
@[simp] theorem Dev.setRing_mbx (k : Nat) (f : Ring → Ring) : (d.setRing k f).mbx = d.mbx := rfl
@[simp] theorem Dev.setRing_boot (k : Nat) (f : Ring → Ring) : (d.setRing k f).boot = d.boot := rfl
@[simp] theorem Dev.setRing_front (k : Nat) (f : Ring → Ring) : (d.setRing k f).front = d.front := rfl
@[simp] theorem Dev.setRing_resetKind (k : Nat) (f : Ring → Ring) : (d.setRing k f).resetKind = d.resetKind := rfl
@[simp] theorem Dev.setRing_priorMode (k : Nat) (f : Ring → Ring) : (d.setRing k f).priorMode = d.priorMode := rfl
@[simp] theorem Dev.setRing_undo (k : Nat) (f : Ring → Ring) : (d.setRing k f).undo = d.undo := rfl
@[simp] theorem Dev.setRing_rsp (k : Nat) (f : Ring → Ring) : (d.setRing k f).rsp = d.rsp := rfl
@[simp] theorem Dev.setRing_fresh (k : Nat) (f : Ring → Ring) : (d.setRing k f).fresh = d.fresh := rfl
@[simp] theorem Dev.word_setRing (k : Nat) (f : Ring → Ring) (r : Nat) : (d.setRing k f).word r = d.word r := rfl
@[simp] theorem Dev.rd_setRing (k : Nat) (f : Ring → Ring) (g : Fld) : (d.setRing k f).rd g = d.rd g := rfl
@[simp] theorem Dev.flag_setRing (k : Nat) (f : Ring → Ring) (g : Fld) : (d.setRing k f).flag g = d.flag g := rfl

/-! ### setPad -/

@[simp] theorem Dev.setPad_clk (k : Nat) (f : Paddock → Paddock) : (d.setPad k f).clk = d.clk := rfl
@[simp] theorem Dev.setPad_live (k : Nat) (f : Paddock → Paddock) : (d.setPad k f).live = d.live := rfl
@[simp] theorem Dev.setPad_shadow (k : Nat) (f : Paddock → Paddock) : (d.setPad k f).shadow = d.shadow := rfl
@[simp] theorem Dev.setPad_held (k : Nat) (f : Paddock → Paddock) : (d.setPad k f).held = d.held := rfl
@[simp] theorem Dev.setPad_perMaster (k : Nat) (f : Paddock → Paddock) : (d.setPad k f).perMaster = d.perMaster := rfl
@[simp] theorem Dev.setPad_bumped (k : Nat) (f : Paddock → Paddock) : (d.setPad k f).bumped = d.bumped := rfl
@[simp] theorem Dev.setPad_old (k : Nat) (f : Paddock → Paddock) : (d.setPad k f).old = d.old := rfl
@[simp] theorem Dev.setPad_hwSet (k : Nat) (f : Paddock → Paddock) : (d.setPad k f).hwSet = d.hwSet := rfl
@[simp] theorem Dev.setPad_outside (k : Nat) (f : Paddock → Paddock) : (d.setPad k f).outside = d.outside := rfl
@[simp] theorem Dev.setPad_sram (k : Nat) (f : Paddock → Paddock) : (d.setPad k f).sram = d.sram := rfl
@[simp] theorem Dev.setPad_nvm (k : Nat) (f : Paddock → Paddock) : (d.setPad k f).nvm = d.nvm := rfl
@[simp] theorem Dev.setPad_nvmOnes (k : Nat) (f : Paddock → Paddock) : (d.setPad k f).nvmOnes = d.nvmOnes := rfl
@[simp] theorem Dev.setPad_nvmErrs (k : Nat) (f : Paddock → Paddock) : (d.setPad k f).nvmErrs = d.nvmErrs := rfl
@[simp] theorem Dev.setPad_railLow (k : Nat) (f : Paddock → Paddock) : (d.setPad k f).railLow = d.railLow := rfl
@[simp] theorem Dev.setPad_meas (k : Nat) (f : Paddock → Paddock) : (d.setPad k f).meas = d.meas := rfl
@[simp] theorem Dev.setPad_jobs (k : Nat) (f : Paddock → Paddock) : (d.setPad k f).jobs = d.jobs := rfl
@[simp] theorem Dev.setPad_flt (k : Nat) (f : Paddock → Paddock) : (d.setPad k f).flt = d.flt := rfl
@[simp] theorem Dev.setPad_refs (k : Nat) (f : Paddock → Paddock) : (d.setPad k f).refs = d.refs := rfl
@[simp] theorem Dev.setPad_sels (k : Nat) (f : Paddock → Paddock) : (d.setPad k f).sels = d.sels := rfl
@[simp] theorem Dev.setPad_selNow (k : Nat) (f : Paddock → Paddock) : (d.setPad k f).selNow = d.selNow := rfl
@[simp] theorem Dev.setPad_alive (k : Nat) (f : Paddock → Paddock) : (d.setPad k f).alive = d.alive := rfl
@[simp] theorem Dev.setPad_ports (k : Nat) (f : Paddock → Paddock) : (d.setPad k f).ports = d.ports := rfl
@[simp] theorem Dev.setPad_beats (k : Nat) (f : Paddock → Paddock) : (d.setPad k f).beats = d.beats := rfl
@[simp] theorem Dev.setPad_past (k : Nat) (f : Paddock → Paddock) : (d.setPad k f).past = d.past := rfl
@[simp] theorem Dev.setPad_aplls (k : Nat) (f : Paddock → Paddock) : (d.setPad k f).aplls = d.aplls := rfl
@[simp] theorem Dev.setPad_outs (k : Nat) (f : Paddock → Paddock) : (d.setPad k f).outs = d.outs := rfl
@[simp] theorem Dev.setPad_psyns (k : Nat) (f : Paddock → Paddock) : (d.setPad k f).psyns = d.psyns := rfl
@[simp] theorem Dev.setPad_nvmc (k : Nat) (f : Paddock → Paddock) : (d.setPad k f).nvmc = d.nvmc := rfl
@[simp] theorem Dev.setPad_chk (k : Nat) (f : Paddock → Paddock) : (d.setPad k f).chk = d.chk := rfl
@[simp] theorem Dev.setPad_mbx (k : Nat) (f : Paddock → Paddock) : (d.setPad k f).mbx = d.mbx := rfl
@[simp] theorem Dev.setPad_boot (k : Nat) (f : Paddock → Paddock) : (d.setPad k f).boot = d.boot := rfl
@[simp] theorem Dev.setPad_front (k : Nat) (f : Paddock → Paddock) : (d.setPad k f).front = d.front := rfl
@[simp] theorem Dev.setPad_resetKind (k : Nat) (f : Paddock → Paddock) : (d.setPad k f).resetKind = d.resetKind := rfl
@[simp] theorem Dev.setPad_priorMode (k : Nat) (f : Paddock → Paddock) : (d.setPad k f).priorMode = d.priorMode := rfl
@[simp] theorem Dev.setPad_undo (k : Nat) (f : Paddock → Paddock) : (d.setPad k f).undo = d.undo := rfl
@[simp] theorem Dev.setPad_rsp (k : Nat) (f : Paddock → Paddock) : (d.setPad k f).rsp = d.rsp := rfl
@[simp] theorem Dev.setPad_fresh (k : Nat) (f : Paddock → Paddock) : (d.setPad k f).fresh = d.fresh := rfl
@[simp] theorem Dev.word_setPad (k : Nat) (f : Paddock → Paddock) (r : Nat) : (d.setPad k f).word r = d.word r := rfl
@[simp] theorem Dev.rd_setPad (k : Nat) (f : Paddock → Paddock) (g : Fld) : (d.setPad k f).rd g = d.rd g := rfl
@[simp] theorem Dev.flag_setPad (k : Nat) (f : Paddock → Paddock) (g : Fld) : (d.setPad k f).flag g = d.flag g := rfl

/-! ### setRef -/

@[simp] theorem Dev.setRef_clk (k : Nat) (f : RefMon → RefMon) : (d.setRef k f).clk = d.clk := rfl
@[simp] theorem Dev.setRef_live (k : Nat) (f : RefMon → RefMon) : (d.setRef k f).live = d.live := rfl
@[simp] theorem Dev.setRef_shadow (k : Nat) (f : RefMon → RefMon) : (d.setRef k f).shadow = d.shadow := rfl
@[simp] theorem Dev.setRef_held (k : Nat) (f : RefMon → RefMon) : (d.setRef k f).held = d.held := rfl
@[simp] theorem Dev.setRef_perMaster (k : Nat) (f : RefMon → RefMon) : (d.setRef k f).perMaster = d.perMaster := rfl
@[simp] theorem Dev.setRef_bumped (k : Nat) (f : RefMon → RefMon) : (d.setRef k f).bumped = d.bumped := rfl
@[simp] theorem Dev.setRef_old (k : Nat) (f : RefMon → RefMon) : (d.setRef k f).old = d.old := rfl
@[simp] theorem Dev.setRef_hwSet (k : Nat) (f : RefMon → RefMon) : (d.setRef k f).hwSet = d.hwSet := rfl
@[simp] theorem Dev.setRef_outside (k : Nat) (f : RefMon → RefMon) : (d.setRef k f).outside = d.outside := rfl
@[simp] theorem Dev.setRef_sram (k : Nat) (f : RefMon → RefMon) : (d.setRef k f).sram = d.sram := rfl
@[simp] theorem Dev.setRef_nvm (k : Nat) (f : RefMon → RefMon) : (d.setRef k f).nvm = d.nvm := rfl
@[simp] theorem Dev.setRef_nvmOnes (k : Nat) (f : RefMon → RefMon) : (d.setRef k f).nvmOnes = d.nvmOnes := rfl
@[simp] theorem Dev.setRef_nvmErrs (k : Nat) (f : RefMon → RefMon) : (d.setRef k f).nvmErrs = d.nvmErrs := rfl
@[simp] theorem Dev.setRef_railLow (k : Nat) (f : RefMon → RefMon) : (d.setRef k f).railLow = d.railLow := rfl
@[simp] theorem Dev.setRef_meas (k : Nat) (f : RefMon → RefMon) : (d.setRef k f).meas = d.meas := rfl
@[simp] theorem Dev.setRef_jobs (k : Nat) (f : RefMon → RefMon) : (d.setRef k f).jobs = d.jobs := rfl
@[simp] theorem Dev.setRef_flt (k : Nat) (f : RefMon → RefMon) : (d.setRef k f).flt = d.flt := rfl
@[simp] theorem Dev.setRef_pads (k : Nat) (f : RefMon → RefMon) : (d.setRef k f).pads = d.pads := rfl
@[simp] theorem Dev.setRef_sels (k : Nat) (f : RefMon → RefMon) : (d.setRef k f).sels = d.sels := rfl
@[simp] theorem Dev.setRef_selNow (k : Nat) (f : RefMon → RefMon) : (d.setRef k f).selNow = d.selNow := rfl
@[simp] theorem Dev.setRef_alive (k : Nat) (f : RefMon → RefMon) : (d.setRef k f).alive = d.alive := rfl
@[simp] theorem Dev.setRef_ports (k : Nat) (f : RefMon → RefMon) : (d.setRef k f).ports = d.ports := rfl
@[simp] theorem Dev.setRef_beats (k : Nat) (f : RefMon → RefMon) : (d.setRef k f).beats = d.beats := rfl
@[simp] theorem Dev.setRef_past (k : Nat) (f : RefMon → RefMon) : (d.setRef k f).past = d.past := rfl
@[simp] theorem Dev.setRef_aplls (k : Nat) (f : RefMon → RefMon) : (d.setRef k f).aplls = d.aplls := rfl
@[simp] theorem Dev.setRef_outs (k : Nat) (f : RefMon → RefMon) : (d.setRef k f).outs = d.outs := rfl
@[simp] theorem Dev.setRef_psyns (k : Nat) (f : RefMon → RefMon) : (d.setRef k f).psyns = d.psyns := rfl
@[simp] theorem Dev.setRef_nvmc (k : Nat) (f : RefMon → RefMon) : (d.setRef k f).nvmc = d.nvmc := rfl
@[simp] theorem Dev.setRef_chk (k : Nat) (f : RefMon → RefMon) : (d.setRef k f).chk = d.chk := rfl
@[simp] theorem Dev.setRef_mbx (k : Nat) (f : RefMon → RefMon) : (d.setRef k f).mbx = d.mbx := rfl
@[simp] theorem Dev.setRef_boot (k : Nat) (f : RefMon → RefMon) : (d.setRef k f).boot = d.boot := rfl
@[simp] theorem Dev.setRef_front (k : Nat) (f : RefMon → RefMon) : (d.setRef k f).front = d.front := rfl
@[simp] theorem Dev.setRef_resetKind (k : Nat) (f : RefMon → RefMon) : (d.setRef k f).resetKind = d.resetKind := rfl
@[simp] theorem Dev.setRef_priorMode (k : Nat) (f : RefMon → RefMon) : (d.setRef k f).priorMode = d.priorMode := rfl
@[simp] theorem Dev.setRef_undo (k : Nat) (f : RefMon → RefMon) : (d.setRef k f).undo = d.undo := rfl
@[simp] theorem Dev.setRef_rsp (k : Nat) (f : RefMon → RefMon) : (d.setRef k f).rsp = d.rsp := rfl
@[simp] theorem Dev.setRef_fresh (k : Nat) (f : RefMon → RefMon) : (d.setRef k f).fresh = d.fresh := rfl
@[simp] theorem Dev.word_setRef (k : Nat) (f : RefMon → RefMon) (r : Nat) : (d.setRef k f).word r = d.word r := rfl
@[simp] theorem Dev.rd_setRef (k : Nat) (f : RefMon → RefMon) (g : Fld) : (d.setRef k f).rd g = d.rd g := rfl
@[simp] theorem Dev.flag_setRef (k : Nat) (f : RefMon → RefMon) (g : Fld) : (d.setRef k f).flag g = d.flag g := rfl

/-! ### setSel -/

@[simp] theorem Dev.setSel_clk (k : Nat) (f : Select → Select) : (d.setSel k f).clk = d.clk := rfl
@[simp] theorem Dev.setSel_live (k : Nat) (f : Select → Select) : (d.setSel k f).live = d.live := rfl
@[simp] theorem Dev.setSel_shadow (k : Nat) (f : Select → Select) : (d.setSel k f).shadow = d.shadow := rfl
@[simp] theorem Dev.setSel_held (k : Nat) (f : Select → Select) : (d.setSel k f).held = d.held := rfl
@[simp] theorem Dev.setSel_perMaster (k : Nat) (f : Select → Select) : (d.setSel k f).perMaster = d.perMaster := rfl
@[simp] theorem Dev.setSel_bumped (k : Nat) (f : Select → Select) : (d.setSel k f).bumped = d.bumped := rfl
@[simp] theorem Dev.setSel_old (k : Nat) (f : Select → Select) : (d.setSel k f).old = d.old := rfl
@[simp] theorem Dev.setSel_hwSet (k : Nat) (f : Select → Select) : (d.setSel k f).hwSet = d.hwSet := rfl
@[simp] theorem Dev.setSel_outside (k : Nat) (f : Select → Select) : (d.setSel k f).outside = d.outside := rfl
@[simp] theorem Dev.setSel_sram (k : Nat) (f : Select → Select) : (d.setSel k f).sram = d.sram := rfl
@[simp] theorem Dev.setSel_nvm (k : Nat) (f : Select → Select) : (d.setSel k f).nvm = d.nvm := rfl
@[simp] theorem Dev.setSel_nvmOnes (k : Nat) (f : Select → Select) : (d.setSel k f).nvmOnes = d.nvmOnes := rfl
@[simp] theorem Dev.setSel_nvmErrs (k : Nat) (f : Select → Select) : (d.setSel k f).nvmErrs = d.nvmErrs := rfl
@[simp] theorem Dev.setSel_railLow (k : Nat) (f : Select → Select) : (d.setSel k f).railLow = d.railLow := rfl
@[simp] theorem Dev.setSel_meas (k : Nat) (f : Select → Select) : (d.setSel k f).meas = d.meas := rfl
@[simp] theorem Dev.setSel_jobs (k : Nat) (f : Select → Select) : (d.setSel k f).jobs = d.jobs := rfl
@[simp] theorem Dev.setSel_flt (k : Nat) (f : Select → Select) : (d.setSel k f).flt = d.flt := rfl
@[simp] theorem Dev.setSel_pads (k : Nat) (f : Select → Select) : (d.setSel k f).pads = d.pads := rfl
@[simp] theorem Dev.setSel_refs (k : Nat) (f : Select → Select) : (d.setSel k f).refs = d.refs := rfl
@[simp] theorem Dev.setSel_selNow (k : Nat) (f : Select → Select) : (d.setSel k f).selNow = d.selNow := rfl
@[simp] theorem Dev.setSel_alive (k : Nat) (f : Select → Select) : (d.setSel k f).alive = d.alive := rfl
@[simp] theorem Dev.setSel_ports (k : Nat) (f : Select → Select) : (d.setSel k f).ports = d.ports := rfl
@[simp] theorem Dev.setSel_beats (k : Nat) (f : Select → Select) : (d.setSel k f).beats = d.beats := rfl
@[simp] theorem Dev.setSel_past (k : Nat) (f : Select → Select) : (d.setSel k f).past = d.past := rfl
@[simp] theorem Dev.setSel_aplls (k : Nat) (f : Select → Select) : (d.setSel k f).aplls = d.aplls := rfl
@[simp] theorem Dev.setSel_outs (k : Nat) (f : Select → Select) : (d.setSel k f).outs = d.outs := rfl
@[simp] theorem Dev.setSel_psyns (k : Nat) (f : Select → Select) : (d.setSel k f).psyns = d.psyns := rfl
@[simp] theorem Dev.setSel_nvmc (k : Nat) (f : Select → Select) : (d.setSel k f).nvmc = d.nvmc := rfl
@[simp] theorem Dev.setSel_chk (k : Nat) (f : Select → Select) : (d.setSel k f).chk = d.chk := rfl
@[simp] theorem Dev.setSel_mbx (k : Nat) (f : Select → Select) : (d.setSel k f).mbx = d.mbx := rfl
@[simp] theorem Dev.setSel_boot (k : Nat) (f : Select → Select) : (d.setSel k f).boot = d.boot := rfl
@[simp] theorem Dev.setSel_front (k : Nat) (f : Select → Select) : (d.setSel k f).front = d.front := rfl
@[simp] theorem Dev.setSel_resetKind (k : Nat) (f : Select → Select) : (d.setSel k f).resetKind = d.resetKind := rfl
@[simp] theorem Dev.setSel_priorMode (k : Nat) (f : Select → Select) : (d.setSel k f).priorMode = d.priorMode := rfl
@[simp] theorem Dev.setSel_undo (k : Nat) (f : Select → Select) : (d.setSel k f).undo = d.undo := rfl
@[simp] theorem Dev.setSel_rsp (k : Nat) (f : Select → Select) : (d.setSel k f).rsp = d.rsp := rfl
@[simp] theorem Dev.setSel_fresh (k : Nat) (f : Select → Select) : (d.setSel k f).fresh = d.fresh := rfl
@[simp] theorem Dev.word_setSel (k : Nat) (f : Select → Select) (r : Nat) : (d.setSel k f).word r = d.word r := rfl
@[simp] theorem Dev.rd_setSel (k : Nat) (f : Select → Select) (g : Fld) : (d.setSel k f).rd g = d.rd g := rfl
@[simp] theorem Dev.flag_setSel (k : Nat) (f : Select → Select) (g : Fld) : (d.setSel k f).flag g = d.flag g := rfl

/-! ### setPort -/

@[simp] theorem Dev.setPort_clk (k : Nat) (f : Port → Port) : (d.setPort k f).clk = d.clk := rfl
@[simp] theorem Dev.setPort_live (k : Nat) (f : Port → Port) : (d.setPort k f).live = d.live := rfl
@[simp] theorem Dev.setPort_shadow (k : Nat) (f : Port → Port) : (d.setPort k f).shadow = d.shadow := rfl
@[simp] theorem Dev.setPort_held (k : Nat) (f : Port → Port) : (d.setPort k f).held = d.held := rfl
@[simp] theorem Dev.setPort_perMaster (k : Nat) (f : Port → Port) : (d.setPort k f).perMaster = d.perMaster := rfl
@[simp] theorem Dev.setPort_bumped (k : Nat) (f : Port → Port) : (d.setPort k f).bumped = d.bumped := rfl
@[simp] theorem Dev.setPort_old (k : Nat) (f : Port → Port) : (d.setPort k f).old = d.old := rfl
@[simp] theorem Dev.setPort_hwSet (k : Nat) (f : Port → Port) : (d.setPort k f).hwSet = d.hwSet := rfl
@[simp] theorem Dev.setPort_outside (k : Nat) (f : Port → Port) : (d.setPort k f).outside = d.outside := rfl
@[simp] theorem Dev.setPort_sram (k : Nat) (f : Port → Port) : (d.setPort k f).sram = d.sram := rfl
@[simp] theorem Dev.setPort_nvm (k : Nat) (f : Port → Port) : (d.setPort k f).nvm = d.nvm := rfl
@[simp] theorem Dev.setPort_nvmOnes (k : Nat) (f : Port → Port) : (d.setPort k f).nvmOnes = d.nvmOnes := rfl
@[simp] theorem Dev.setPort_nvmErrs (k : Nat) (f : Port → Port) : (d.setPort k f).nvmErrs = d.nvmErrs := rfl
@[simp] theorem Dev.setPort_railLow (k : Nat) (f : Port → Port) : (d.setPort k f).railLow = d.railLow := rfl
@[simp] theorem Dev.setPort_meas (k : Nat) (f : Port → Port) : (d.setPort k f).meas = d.meas := rfl
@[simp] theorem Dev.setPort_jobs (k : Nat) (f : Port → Port) : (d.setPort k f).jobs = d.jobs := rfl
@[simp] theorem Dev.setPort_flt (k : Nat) (f : Port → Port) : (d.setPort k f).flt = d.flt := rfl
@[simp] theorem Dev.setPort_pads (k : Nat) (f : Port → Port) : (d.setPort k f).pads = d.pads := rfl
@[simp] theorem Dev.setPort_refs (k : Nat) (f : Port → Port) : (d.setPort k f).refs = d.refs := rfl
@[simp] theorem Dev.setPort_sels (k : Nat) (f : Port → Port) : (d.setPort k f).sels = d.sels := rfl
@[simp] theorem Dev.setPort_selNow (k : Nat) (f : Port → Port) : (d.setPort k f).selNow = d.selNow := rfl
@[simp] theorem Dev.setPort_alive (k : Nat) (f : Port → Port) : (d.setPort k f).alive = d.alive := rfl
@[simp] theorem Dev.setPort_beats (k : Nat) (f : Port → Port) : (d.setPort k f).beats = d.beats := rfl
@[simp] theorem Dev.setPort_past (k : Nat) (f : Port → Port) : (d.setPort k f).past = d.past := rfl
@[simp] theorem Dev.setPort_aplls (k : Nat) (f : Port → Port) : (d.setPort k f).aplls = d.aplls := rfl
@[simp] theorem Dev.setPort_outs (k : Nat) (f : Port → Port) : (d.setPort k f).outs = d.outs := rfl
@[simp] theorem Dev.setPort_psyns (k : Nat) (f : Port → Port) : (d.setPort k f).psyns = d.psyns := rfl
@[simp] theorem Dev.setPort_nvmc (k : Nat) (f : Port → Port) : (d.setPort k f).nvmc = d.nvmc := rfl
@[simp] theorem Dev.setPort_chk (k : Nat) (f : Port → Port) : (d.setPort k f).chk = d.chk := rfl
@[simp] theorem Dev.setPort_mbx (k : Nat) (f : Port → Port) : (d.setPort k f).mbx = d.mbx := rfl
@[simp] theorem Dev.setPort_boot (k : Nat) (f : Port → Port) : (d.setPort k f).boot = d.boot := rfl
@[simp] theorem Dev.setPort_front (k : Nat) (f : Port → Port) : (d.setPort k f).front = d.front := rfl
@[simp] theorem Dev.setPort_resetKind (k : Nat) (f : Port → Port) : (d.setPort k f).resetKind = d.resetKind := rfl
@[simp] theorem Dev.setPort_priorMode (k : Nat) (f : Port → Port) : (d.setPort k f).priorMode = d.priorMode := rfl
@[simp] theorem Dev.setPort_undo (k : Nat) (f : Port → Port) : (d.setPort k f).undo = d.undo := rfl
@[simp] theorem Dev.setPort_rsp (k : Nat) (f : Port → Port) : (d.setPort k f).rsp = d.rsp := rfl
@[simp] theorem Dev.setPort_fresh (k : Nat) (f : Port → Port) : (d.setPort k f).fresh = d.fresh := rfl
@[simp] theorem Dev.word_setPort (k : Nat) (f : Port → Port) (r : Nat) : (d.setPort k f).word r = d.word r := rfl
@[simp] theorem Dev.rd_setPort (k : Nat) (f : Port → Port) (g : Fld) : (d.setPort k f).rd g = d.rd g := rfl
@[simp] theorem Dev.flag_setPort (k : Nat) (f : Port → Port) (g : Fld) : (d.setPort k f).flag g = d.flag g := rfl

/-! ### setBeat -/

@[simp] theorem Dev.setBeat_clk (k : Nat) (f : Beat → Beat) : (d.setBeat k f).clk = d.clk := rfl
@[simp] theorem Dev.setBeat_live (k : Nat) (f : Beat → Beat) : (d.setBeat k f).live = d.live := rfl
@[simp] theorem Dev.setBeat_shadow (k : Nat) (f : Beat → Beat) : (d.setBeat k f).shadow = d.shadow := rfl
@[simp] theorem Dev.setBeat_held (k : Nat) (f : Beat → Beat) : (d.setBeat k f).held = d.held := rfl
@[simp] theorem Dev.setBeat_perMaster (k : Nat) (f : Beat → Beat) : (d.setBeat k f).perMaster = d.perMaster := rfl
@[simp] theorem Dev.setBeat_bumped (k : Nat) (f : Beat → Beat) : (d.setBeat k f).bumped = d.bumped := rfl
@[simp] theorem Dev.setBeat_old (k : Nat) (f : Beat → Beat) : (d.setBeat k f).old = d.old := rfl
@[simp] theorem Dev.setBeat_hwSet (k : Nat) (f : Beat → Beat) : (d.setBeat k f).hwSet = d.hwSet := rfl
@[simp] theorem Dev.setBeat_outside (k : Nat) (f : Beat → Beat) : (d.setBeat k f).outside = d.outside := rfl
@[simp] theorem Dev.setBeat_sram (k : Nat) (f : Beat → Beat) : (d.setBeat k f).sram = d.sram := rfl
@[simp] theorem Dev.setBeat_nvm (k : Nat) (f : Beat → Beat) : (d.setBeat k f).nvm = d.nvm := rfl
@[simp] theorem Dev.setBeat_nvmOnes (k : Nat) (f : Beat → Beat) : (d.setBeat k f).nvmOnes = d.nvmOnes := rfl
@[simp] theorem Dev.setBeat_nvmErrs (k : Nat) (f : Beat → Beat) : (d.setBeat k f).nvmErrs = d.nvmErrs := rfl
@[simp] theorem Dev.setBeat_railLow (k : Nat) (f : Beat → Beat) : (d.setBeat k f).railLow = d.railLow := rfl
@[simp] theorem Dev.setBeat_meas (k : Nat) (f : Beat → Beat) : (d.setBeat k f).meas = d.meas := rfl
@[simp] theorem Dev.setBeat_jobs (k : Nat) (f : Beat → Beat) : (d.setBeat k f).jobs = d.jobs := rfl
@[simp] theorem Dev.setBeat_flt (k : Nat) (f : Beat → Beat) : (d.setBeat k f).flt = d.flt := rfl
@[simp] theorem Dev.setBeat_pads (k : Nat) (f : Beat → Beat) : (d.setBeat k f).pads = d.pads := rfl
@[simp] theorem Dev.setBeat_refs (k : Nat) (f : Beat → Beat) : (d.setBeat k f).refs = d.refs := rfl
@[simp] theorem Dev.setBeat_sels (k : Nat) (f : Beat → Beat) : (d.setBeat k f).sels = d.sels := rfl
@[simp] theorem Dev.setBeat_selNow (k : Nat) (f : Beat → Beat) : (d.setBeat k f).selNow = d.selNow := rfl
@[simp] theorem Dev.setBeat_alive (k : Nat) (f : Beat → Beat) : (d.setBeat k f).alive = d.alive := rfl
@[simp] theorem Dev.setBeat_ports (k : Nat) (f : Beat → Beat) : (d.setBeat k f).ports = d.ports := rfl
@[simp] theorem Dev.setBeat_past (k : Nat) (f : Beat → Beat) : (d.setBeat k f).past = d.past := rfl
@[simp] theorem Dev.setBeat_aplls (k : Nat) (f : Beat → Beat) : (d.setBeat k f).aplls = d.aplls := rfl
@[simp] theorem Dev.setBeat_outs (k : Nat) (f : Beat → Beat) : (d.setBeat k f).outs = d.outs := rfl
@[simp] theorem Dev.setBeat_psyns (k : Nat) (f : Beat → Beat) : (d.setBeat k f).psyns = d.psyns := rfl
@[simp] theorem Dev.setBeat_nvmc (k : Nat) (f : Beat → Beat) : (d.setBeat k f).nvmc = d.nvmc := rfl
@[simp] theorem Dev.setBeat_chk (k : Nat) (f : Beat → Beat) : (d.setBeat k f).chk = d.chk := rfl
@[simp] theorem Dev.setBeat_mbx (k : Nat) (f : Beat → Beat) : (d.setBeat k f).mbx = d.mbx := rfl
@[simp] theorem Dev.setBeat_boot (k : Nat) (f : Beat → Beat) : (d.setBeat k f).boot = d.boot := rfl
@[simp] theorem Dev.setBeat_front (k : Nat) (f : Beat → Beat) : (d.setBeat k f).front = d.front := rfl
@[simp] theorem Dev.setBeat_resetKind (k : Nat) (f : Beat → Beat) : (d.setBeat k f).resetKind = d.resetKind := rfl
@[simp] theorem Dev.setBeat_priorMode (k : Nat) (f : Beat → Beat) : (d.setBeat k f).priorMode = d.priorMode := rfl
@[simp] theorem Dev.setBeat_undo (k : Nat) (f : Beat → Beat) : (d.setBeat k f).undo = d.undo := rfl
@[simp] theorem Dev.setBeat_rsp (k : Nat) (f : Beat → Beat) : (d.setBeat k f).rsp = d.rsp := rfl
@[simp] theorem Dev.setBeat_fresh (k : Nat) (f : Beat → Beat) : (d.setBeat k f).fresh = d.fresh := rfl
@[simp] theorem Dev.word_setBeat (k : Nat) (f : Beat → Beat) (r : Nat) : (d.setBeat k f).word r = d.word r := rfl
@[simp] theorem Dev.rd_setBeat (k : Nat) (f : Beat → Beat) (g : Fld) : (d.setBeat k f).rd g = d.rd g := rfl
@[simp] theorem Dev.flag_setBeat (k : Nat) (f : Beat → Beat) (g : Fld) : (d.setBeat k f).flag g = d.flag g := rfl

/-! ### setLink -/

@[simp] theorem Dev.setLink_clk (k : Nat) (f : Link → Link) : (d.setLink k f).clk = d.clk := rfl
@[simp] theorem Dev.setLink_live (k : Nat) (f : Link → Link) : (d.setLink k f).live = d.live := rfl
@[simp] theorem Dev.setLink_shadow (k : Nat) (f : Link → Link) : (d.setLink k f).shadow = d.shadow := rfl
@[simp] theorem Dev.setLink_held (k : Nat) (f : Link → Link) : (d.setLink k f).held = d.held := rfl
@[simp] theorem Dev.setLink_perMaster (k : Nat) (f : Link → Link) : (d.setLink k f).perMaster = d.perMaster := rfl
@[simp] theorem Dev.setLink_bumped (k : Nat) (f : Link → Link) : (d.setLink k f).bumped = d.bumped := rfl
@[simp] theorem Dev.setLink_old (k : Nat) (f : Link → Link) : (d.setLink k f).old = d.old := rfl
@[simp] theorem Dev.setLink_hwSet (k : Nat) (f : Link → Link) : (d.setLink k f).hwSet = d.hwSet := rfl
@[simp] theorem Dev.setLink_outside (k : Nat) (f : Link → Link) : (d.setLink k f).outside = d.outside := rfl
@[simp] theorem Dev.setLink_sram (k : Nat) (f : Link → Link) : (d.setLink k f).sram = d.sram := rfl
@[simp] theorem Dev.setLink_nvm (k : Nat) (f : Link → Link) : (d.setLink k f).nvm = d.nvm := rfl
@[simp] theorem Dev.setLink_nvmOnes (k : Nat) (f : Link → Link) : (d.setLink k f).nvmOnes = d.nvmOnes := rfl
@[simp] theorem Dev.setLink_nvmErrs (k : Nat) (f : Link → Link) : (d.setLink k f).nvmErrs = d.nvmErrs := rfl
@[simp] theorem Dev.setLink_railLow (k : Nat) (f : Link → Link) : (d.setLink k f).railLow = d.railLow := rfl
@[simp] theorem Dev.setLink_meas (k : Nat) (f : Link → Link) : (d.setLink k f).meas = d.meas := rfl
@[simp] theorem Dev.setLink_jobs (k : Nat) (f : Link → Link) : (d.setLink k f).jobs = d.jobs := rfl
@[simp] theorem Dev.setLink_flt (k : Nat) (f : Link → Link) : (d.setLink k f).flt = d.flt := rfl
@[simp] theorem Dev.setLink_pads (k : Nat) (f : Link → Link) : (d.setLink k f).pads = d.pads := rfl
@[simp] theorem Dev.setLink_refs (k : Nat) (f : Link → Link) : (d.setLink k f).refs = d.refs := rfl
@[simp] theorem Dev.setLink_sels (k : Nat) (f : Link → Link) : (d.setLink k f).sels = d.sels := rfl
@[simp] theorem Dev.setLink_selNow (k : Nat) (f : Link → Link) : (d.setLink k f).selNow = d.selNow := rfl
@[simp] theorem Dev.setLink_alive (k : Nat) (f : Link → Link) : (d.setLink k f).alive = d.alive := rfl
@[simp] theorem Dev.setLink_ports (k : Nat) (f : Link → Link) : (d.setLink k f).ports = d.ports := rfl
@[simp] theorem Dev.setLink_beats (k : Nat) (f : Link → Link) : (d.setLink k f).beats = d.beats := rfl
@[simp] theorem Dev.setLink_aplls (k : Nat) (f : Link → Link) : (d.setLink k f).aplls = d.aplls := rfl
@[simp] theorem Dev.setLink_outs (k : Nat) (f : Link → Link) : (d.setLink k f).outs = d.outs := rfl
@[simp] theorem Dev.setLink_psyns (k : Nat) (f : Link → Link) : (d.setLink k f).psyns = d.psyns := rfl
@[simp] theorem Dev.setLink_nvmc (k : Nat) (f : Link → Link) : (d.setLink k f).nvmc = d.nvmc := rfl
@[simp] theorem Dev.setLink_chk (k : Nat) (f : Link → Link) : (d.setLink k f).chk = d.chk := rfl
@[simp] theorem Dev.setLink_mbx (k : Nat) (f : Link → Link) : (d.setLink k f).mbx = d.mbx := rfl
@[simp] theorem Dev.setLink_boot (k : Nat) (f : Link → Link) : (d.setLink k f).boot = d.boot := rfl
@[simp] theorem Dev.setLink_front (k : Nat) (f : Link → Link) : (d.setLink k f).front = d.front := rfl
@[simp] theorem Dev.setLink_resetKind (k : Nat) (f : Link → Link) : (d.setLink k f).resetKind = d.resetKind := rfl
@[simp] theorem Dev.setLink_priorMode (k : Nat) (f : Link → Link) : (d.setLink k f).priorMode = d.priorMode := rfl
@[simp] theorem Dev.setLink_undo (k : Nat) (f : Link → Link) : (d.setLink k f).undo = d.undo := rfl
@[simp] theorem Dev.setLink_rsp (k : Nat) (f : Link → Link) : (d.setLink k f).rsp = d.rsp := rfl
@[simp] theorem Dev.setLink_fresh (k : Nat) (f : Link → Link) : (d.setLink k f).fresh = d.fresh := rfl
@[simp] theorem Dev.word_setLink (k : Nat) (f : Link → Link) (r : Nat) : (d.setLink k f).word r = d.word r := rfl
@[simp] theorem Dev.rd_setLink (k : Nat) (f : Link → Link) (g : Fld) : (d.setLink k f).rd g = d.rd g := rfl
@[simp] theorem Dev.flag_setLink (k : Nat) (f : Link → Link) (g : Fld) : (d.setLink k f).flag g = d.flag g := rfl

/-! ### setApll -/

@[simp] theorem Dev.setApll_clk (k : Nat) (f : Apll → Apll) : (d.setApll k f).clk = d.clk := rfl
@[simp] theorem Dev.setApll_live (k : Nat) (f : Apll → Apll) : (d.setApll k f).live = d.live := rfl
@[simp] theorem Dev.setApll_shadow (k : Nat) (f : Apll → Apll) : (d.setApll k f).shadow = d.shadow := rfl
@[simp] theorem Dev.setApll_held (k : Nat) (f : Apll → Apll) : (d.setApll k f).held = d.held := rfl
@[simp] theorem Dev.setApll_perMaster (k : Nat) (f : Apll → Apll) : (d.setApll k f).perMaster = d.perMaster := rfl
@[simp] theorem Dev.setApll_bumped (k : Nat) (f : Apll → Apll) : (d.setApll k f).bumped = d.bumped := rfl
@[simp] theorem Dev.setApll_old (k : Nat) (f : Apll → Apll) : (d.setApll k f).old = d.old := rfl
@[simp] theorem Dev.setApll_hwSet (k : Nat) (f : Apll → Apll) : (d.setApll k f).hwSet = d.hwSet := rfl
@[simp] theorem Dev.setApll_outside (k : Nat) (f : Apll → Apll) : (d.setApll k f).outside = d.outside := rfl
@[simp] theorem Dev.setApll_sram (k : Nat) (f : Apll → Apll) : (d.setApll k f).sram = d.sram := rfl
@[simp] theorem Dev.setApll_nvm (k : Nat) (f : Apll → Apll) : (d.setApll k f).nvm = d.nvm := rfl
@[simp] theorem Dev.setApll_nvmOnes (k : Nat) (f : Apll → Apll) : (d.setApll k f).nvmOnes = d.nvmOnes := rfl
@[simp] theorem Dev.setApll_nvmErrs (k : Nat) (f : Apll → Apll) : (d.setApll k f).nvmErrs = d.nvmErrs := rfl
@[simp] theorem Dev.setApll_railLow (k : Nat) (f : Apll → Apll) : (d.setApll k f).railLow = d.railLow := rfl
@[simp] theorem Dev.setApll_meas (k : Nat) (f : Apll → Apll) : (d.setApll k f).meas = d.meas := rfl
@[simp] theorem Dev.setApll_jobs (k : Nat) (f : Apll → Apll) : (d.setApll k f).jobs = d.jobs := rfl
@[simp] theorem Dev.setApll_flt (k : Nat) (f : Apll → Apll) : (d.setApll k f).flt = d.flt := rfl
@[simp] theorem Dev.setApll_pads (k : Nat) (f : Apll → Apll) : (d.setApll k f).pads = d.pads := rfl
@[simp] theorem Dev.setApll_refs (k : Nat) (f : Apll → Apll) : (d.setApll k f).refs = d.refs := rfl
@[simp] theorem Dev.setApll_sels (k : Nat) (f : Apll → Apll) : (d.setApll k f).sels = d.sels := rfl
@[simp] theorem Dev.setApll_selNow (k : Nat) (f : Apll → Apll) : (d.setApll k f).selNow = d.selNow := rfl
@[simp] theorem Dev.setApll_alive (k : Nat) (f : Apll → Apll) : (d.setApll k f).alive = d.alive := rfl
@[simp] theorem Dev.setApll_ports (k : Nat) (f : Apll → Apll) : (d.setApll k f).ports = d.ports := rfl
@[simp] theorem Dev.setApll_beats (k : Nat) (f : Apll → Apll) : (d.setApll k f).beats = d.beats := rfl
@[simp] theorem Dev.setApll_past (k : Nat) (f : Apll → Apll) : (d.setApll k f).past = d.past := rfl
@[simp] theorem Dev.setApll_outs (k : Nat) (f : Apll → Apll) : (d.setApll k f).outs = d.outs := rfl
@[simp] theorem Dev.setApll_psyns (k : Nat) (f : Apll → Apll) : (d.setApll k f).psyns = d.psyns := rfl
@[simp] theorem Dev.setApll_nvmc (k : Nat) (f : Apll → Apll) : (d.setApll k f).nvmc = d.nvmc := rfl
@[simp] theorem Dev.setApll_chk (k : Nat) (f : Apll → Apll) : (d.setApll k f).chk = d.chk := rfl
@[simp] theorem Dev.setApll_mbx (k : Nat) (f : Apll → Apll) : (d.setApll k f).mbx = d.mbx := rfl
@[simp] theorem Dev.setApll_boot (k : Nat) (f : Apll → Apll) : (d.setApll k f).boot = d.boot := rfl
@[simp] theorem Dev.setApll_front (k : Nat) (f : Apll → Apll) : (d.setApll k f).front = d.front := rfl
@[simp] theorem Dev.setApll_resetKind (k : Nat) (f : Apll → Apll) : (d.setApll k f).resetKind = d.resetKind := rfl
@[simp] theorem Dev.setApll_priorMode (k : Nat) (f : Apll → Apll) : (d.setApll k f).priorMode = d.priorMode := rfl
@[simp] theorem Dev.setApll_undo (k : Nat) (f : Apll → Apll) : (d.setApll k f).undo = d.undo := rfl
@[simp] theorem Dev.setApll_rsp (k : Nat) (f : Apll → Apll) : (d.setApll k f).rsp = d.rsp := rfl
@[simp] theorem Dev.setApll_fresh (k : Nat) (f : Apll → Apll) : (d.setApll k f).fresh = d.fresh := rfl
@[simp] theorem Dev.word_setApll (k : Nat) (f : Apll → Apll) (r : Nat) : (d.setApll k f).word r = d.word r := rfl
@[simp] theorem Dev.rd_setApll (k : Nat) (f : Apll → Apll) (g : Fld) : (d.setApll k f).rd g = d.rd g := rfl
@[simp] theorem Dev.flag_setApll (k : Nat) (f : Apll → Apll) (g : Fld) : (d.setApll k f).flag g = d.flag g := rfl

/-! ### setOut -/

@[simp] theorem Dev.setOut_clk (k : Nat) (f : OutSt → OutSt) : (d.setOut k f).clk = d.clk := rfl
@[simp] theorem Dev.setOut_live (k : Nat) (f : OutSt → OutSt) : (d.setOut k f).live = d.live := rfl
@[simp] theorem Dev.setOut_shadow (k : Nat) (f : OutSt → OutSt) : (d.setOut k f).shadow = d.shadow := rfl
@[simp] theorem Dev.setOut_held (k : Nat) (f : OutSt → OutSt) : (d.setOut k f).held = d.held := rfl
@[simp] theorem Dev.setOut_perMaster (k : Nat) (f : OutSt → OutSt) : (d.setOut k f).perMaster = d.perMaster := rfl
@[simp] theorem Dev.setOut_bumped (k : Nat) (f : OutSt → OutSt) : (d.setOut k f).bumped = d.bumped := rfl
@[simp] theorem Dev.setOut_old (k : Nat) (f : OutSt → OutSt) : (d.setOut k f).old = d.old := rfl
@[simp] theorem Dev.setOut_hwSet (k : Nat) (f : OutSt → OutSt) : (d.setOut k f).hwSet = d.hwSet := rfl
@[simp] theorem Dev.setOut_outside (k : Nat) (f : OutSt → OutSt) : (d.setOut k f).outside = d.outside := rfl
@[simp] theorem Dev.setOut_sram (k : Nat) (f : OutSt → OutSt) : (d.setOut k f).sram = d.sram := rfl
@[simp] theorem Dev.setOut_nvm (k : Nat) (f : OutSt → OutSt) : (d.setOut k f).nvm = d.nvm := rfl
@[simp] theorem Dev.setOut_nvmOnes (k : Nat) (f : OutSt → OutSt) : (d.setOut k f).nvmOnes = d.nvmOnes := rfl
@[simp] theorem Dev.setOut_nvmErrs (k : Nat) (f : OutSt → OutSt) : (d.setOut k f).nvmErrs = d.nvmErrs := rfl
@[simp] theorem Dev.setOut_railLow (k : Nat) (f : OutSt → OutSt) : (d.setOut k f).railLow = d.railLow := rfl
@[simp] theorem Dev.setOut_meas (k : Nat) (f : OutSt → OutSt) : (d.setOut k f).meas = d.meas := rfl
@[simp] theorem Dev.setOut_jobs (k : Nat) (f : OutSt → OutSt) : (d.setOut k f).jobs = d.jobs := rfl
@[simp] theorem Dev.setOut_flt (k : Nat) (f : OutSt → OutSt) : (d.setOut k f).flt = d.flt := rfl
@[simp] theorem Dev.setOut_pads (k : Nat) (f : OutSt → OutSt) : (d.setOut k f).pads = d.pads := rfl
@[simp] theorem Dev.setOut_refs (k : Nat) (f : OutSt → OutSt) : (d.setOut k f).refs = d.refs := rfl
@[simp] theorem Dev.setOut_sels (k : Nat) (f : OutSt → OutSt) : (d.setOut k f).sels = d.sels := rfl
@[simp] theorem Dev.setOut_selNow (k : Nat) (f : OutSt → OutSt) : (d.setOut k f).selNow = d.selNow := rfl
@[simp] theorem Dev.setOut_alive (k : Nat) (f : OutSt → OutSt) : (d.setOut k f).alive = d.alive := rfl
@[simp] theorem Dev.setOut_ports (k : Nat) (f : OutSt → OutSt) : (d.setOut k f).ports = d.ports := rfl
@[simp] theorem Dev.setOut_beats (k : Nat) (f : OutSt → OutSt) : (d.setOut k f).beats = d.beats := rfl
@[simp] theorem Dev.setOut_past (k : Nat) (f : OutSt → OutSt) : (d.setOut k f).past = d.past := rfl
@[simp] theorem Dev.setOut_aplls (k : Nat) (f : OutSt → OutSt) : (d.setOut k f).aplls = d.aplls := rfl
@[simp] theorem Dev.setOut_psyns (k : Nat) (f : OutSt → OutSt) : (d.setOut k f).psyns = d.psyns := rfl
@[simp] theorem Dev.setOut_nvmc (k : Nat) (f : OutSt → OutSt) : (d.setOut k f).nvmc = d.nvmc := rfl
@[simp] theorem Dev.setOut_chk (k : Nat) (f : OutSt → OutSt) : (d.setOut k f).chk = d.chk := rfl
@[simp] theorem Dev.setOut_mbx (k : Nat) (f : OutSt → OutSt) : (d.setOut k f).mbx = d.mbx := rfl
@[simp] theorem Dev.setOut_boot (k : Nat) (f : OutSt → OutSt) : (d.setOut k f).boot = d.boot := rfl
@[simp] theorem Dev.setOut_front (k : Nat) (f : OutSt → OutSt) : (d.setOut k f).front = d.front := rfl
@[simp] theorem Dev.setOut_resetKind (k : Nat) (f : OutSt → OutSt) : (d.setOut k f).resetKind = d.resetKind := rfl
@[simp] theorem Dev.setOut_priorMode (k : Nat) (f : OutSt → OutSt) : (d.setOut k f).priorMode = d.priorMode := rfl
@[simp] theorem Dev.setOut_undo (k : Nat) (f : OutSt → OutSt) : (d.setOut k f).undo = d.undo := rfl
@[simp] theorem Dev.setOut_rsp (k : Nat) (f : OutSt → OutSt) : (d.setOut k f).rsp = d.rsp := rfl
@[simp] theorem Dev.setOut_fresh (k : Nat) (f : OutSt → OutSt) : (d.setOut k f).fresh = d.fresh := rfl
@[simp] theorem Dev.word_setOut (k : Nat) (f : OutSt → OutSt) (r : Nat) : (d.setOut k f).word r = d.word r := rfl
@[simp] theorem Dev.rd_setOut (k : Nat) (f : OutSt → OutSt) (g : Fld) : (d.setOut k f).rd g = d.rd g := rfl
@[simp] theorem Dev.flag_setOut (k : Nat) (f : OutSt → OutSt) (g : Fld) : (d.setOut k f).flag g = d.flag g := rfl

/-! ### setPsyn -/

@[simp] theorem Dev.setPsyn_clk (k : Nat) (f : Psyn → Psyn) : (d.setPsyn k f).clk = d.clk := rfl
@[simp] theorem Dev.setPsyn_live (k : Nat) (f : Psyn → Psyn) : (d.setPsyn k f).live = d.live := rfl
@[simp] theorem Dev.setPsyn_shadow (k : Nat) (f : Psyn → Psyn) : (d.setPsyn k f).shadow = d.shadow := rfl
@[simp] theorem Dev.setPsyn_held (k : Nat) (f : Psyn → Psyn) : (d.setPsyn k f).held = d.held := rfl
@[simp] theorem Dev.setPsyn_perMaster (k : Nat) (f : Psyn → Psyn) : (d.setPsyn k f).perMaster = d.perMaster := rfl
@[simp] theorem Dev.setPsyn_bumped (k : Nat) (f : Psyn → Psyn) : (d.setPsyn k f).bumped = d.bumped := rfl
@[simp] theorem Dev.setPsyn_old (k : Nat) (f : Psyn → Psyn) : (d.setPsyn k f).old = d.old := rfl
@[simp] theorem Dev.setPsyn_hwSet (k : Nat) (f : Psyn → Psyn) : (d.setPsyn k f).hwSet = d.hwSet := rfl
@[simp] theorem Dev.setPsyn_outside (k : Nat) (f : Psyn → Psyn) : (d.setPsyn k f).outside = d.outside := rfl
@[simp] theorem Dev.setPsyn_sram (k : Nat) (f : Psyn → Psyn) : (d.setPsyn k f).sram = d.sram := rfl
@[simp] theorem Dev.setPsyn_nvm (k : Nat) (f : Psyn → Psyn) : (d.setPsyn k f).nvm = d.nvm := rfl
@[simp] theorem Dev.setPsyn_nvmOnes (k : Nat) (f : Psyn → Psyn) : (d.setPsyn k f).nvmOnes = d.nvmOnes := rfl
@[simp] theorem Dev.setPsyn_nvmErrs (k : Nat) (f : Psyn → Psyn) : (d.setPsyn k f).nvmErrs = d.nvmErrs := rfl
@[simp] theorem Dev.setPsyn_railLow (k : Nat) (f : Psyn → Psyn) : (d.setPsyn k f).railLow = d.railLow := rfl
@[simp] theorem Dev.setPsyn_meas (k : Nat) (f : Psyn → Psyn) : (d.setPsyn k f).meas = d.meas := rfl
@[simp] theorem Dev.setPsyn_jobs (k : Nat) (f : Psyn → Psyn) : (d.setPsyn k f).jobs = d.jobs := rfl
@[simp] theorem Dev.setPsyn_flt (k : Nat) (f : Psyn → Psyn) : (d.setPsyn k f).flt = d.flt := rfl
@[simp] theorem Dev.setPsyn_pads (k : Nat) (f : Psyn → Psyn) : (d.setPsyn k f).pads = d.pads := rfl
@[simp] theorem Dev.setPsyn_refs (k : Nat) (f : Psyn → Psyn) : (d.setPsyn k f).refs = d.refs := rfl
@[simp] theorem Dev.setPsyn_sels (k : Nat) (f : Psyn → Psyn) : (d.setPsyn k f).sels = d.sels := rfl
@[simp] theorem Dev.setPsyn_selNow (k : Nat) (f : Psyn → Psyn) : (d.setPsyn k f).selNow = d.selNow := rfl
@[simp] theorem Dev.setPsyn_alive (k : Nat) (f : Psyn → Psyn) : (d.setPsyn k f).alive = d.alive := rfl
@[simp] theorem Dev.setPsyn_ports (k : Nat) (f : Psyn → Psyn) : (d.setPsyn k f).ports = d.ports := rfl
@[simp] theorem Dev.setPsyn_beats (k : Nat) (f : Psyn → Psyn) : (d.setPsyn k f).beats = d.beats := rfl
@[simp] theorem Dev.setPsyn_past (k : Nat) (f : Psyn → Psyn) : (d.setPsyn k f).past = d.past := rfl
@[simp] theorem Dev.setPsyn_aplls (k : Nat) (f : Psyn → Psyn) : (d.setPsyn k f).aplls = d.aplls := rfl
@[simp] theorem Dev.setPsyn_outs (k : Nat) (f : Psyn → Psyn) : (d.setPsyn k f).outs = d.outs := rfl
@[simp] theorem Dev.setPsyn_nvmc (k : Nat) (f : Psyn → Psyn) : (d.setPsyn k f).nvmc = d.nvmc := rfl
@[simp] theorem Dev.setPsyn_chk (k : Nat) (f : Psyn → Psyn) : (d.setPsyn k f).chk = d.chk := rfl
@[simp] theorem Dev.setPsyn_mbx (k : Nat) (f : Psyn → Psyn) : (d.setPsyn k f).mbx = d.mbx := rfl
@[simp] theorem Dev.setPsyn_boot (k : Nat) (f : Psyn → Psyn) : (d.setPsyn k f).boot = d.boot := rfl
@[simp] theorem Dev.setPsyn_front (k : Nat) (f : Psyn → Psyn) : (d.setPsyn k f).front = d.front := rfl
@[simp] theorem Dev.setPsyn_resetKind (k : Nat) (f : Psyn → Psyn) : (d.setPsyn k f).resetKind = d.resetKind := rfl
@[simp] theorem Dev.setPsyn_priorMode (k : Nat) (f : Psyn → Psyn) : (d.setPsyn k f).priorMode = d.priorMode := rfl
@[simp] theorem Dev.setPsyn_undo (k : Nat) (f : Psyn → Psyn) : (d.setPsyn k f).undo = d.undo := rfl
@[simp] theorem Dev.setPsyn_rsp (k : Nat) (f : Psyn → Psyn) : (d.setPsyn k f).rsp = d.rsp := rfl
@[simp] theorem Dev.setPsyn_fresh (k : Nat) (f : Psyn → Psyn) : (d.setPsyn k f).fresh = d.fresh := rfl
@[simp] theorem Dev.word_setPsyn (k : Nat) (f : Psyn → Psyn) (r : Nat) : (d.setPsyn k f).word r = d.word r := rfl
@[simp] theorem Dev.rd_setPsyn (k : Nat) (f : Psyn → Psyn) (g : Fld) : (d.setPsyn k f).rd g = d.rd g := rfl
@[simp] theorem Dev.flag_setPsyn (k : Nat) (f : Psyn → Psyn) (g : Fld) : (d.setPsyn k f).flag g = d.flag g := rfl

/-! ### setSram -/

@[simp] theorem Dev.setSram_clk (a : Nat) (bs : List Byte) : (d.setSram a bs).clk = d.clk := rfl
@[simp] theorem Dev.setSram_live (a : Nat) (bs : List Byte) : (d.setSram a bs).live = d.live := rfl
@[simp] theorem Dev.setSram_shadow (a : Nat) (bs : List Byte) : (d.setSram a bs).shadow = d.shadow := rfl
@[simp] theorem Dev.setSram_held (a : Nat) (bs : List Byte) : (d.setSram a bs).held = d.held := rfl
@[simp] theorem Dev.setSram_perMaster (a : Nat) (bs : List Byte) : (d.setSram a bs).perMaster = d.perMaster := rfl
@[simp] theorem Dev.setSram_bumped (a : Nat) (bs : List Byte) : (d.setSram a bs).bumped = d.bumped := rfl
@[simp] theorem Dev.setSram_old (a : Nat) (bs : List Byte) : (d.setSram a bs).old = d.old := rfl
@[simp] theorem Dev.setSram_hwSet (a : Nat) (bs : List Byte) : (d.setSram a bs).hwSet = d.hwSet := rfl
@[simp] theorem Dev.setSram_outside (a : Nat) (bs : List Byte) : (d.setSram a bs).outside = d.outside := rfl
@[simp] theorem Dev.setSram_nvm (a : Nat) (bs : List Byte) : (d.setSram a bs).nvm = d.nvm := rfl
@[simp] theorem Dev.setSram_nvmOnes (a : Nat) (bs : List Byte) : (d.setSram a bs).nvmOnes = d.nvmOnes := rfl
@[simp] theorem Dev.setSram_nvmErrs (a : Nat) (bs : List Byte) : (d.setSram a bs).nvmErrs = d.nvmErrs := rfl
@[simp] theorem Dev.setSram_railLow (a : Nat) (bs : List Byte) : (d.setSram a bs).railLow = d.railLow := rfl
@[simp] theorem Dev.setSram_meas (a : Nat) (bs : List Byte) : (d.setSram a bs).meas = d.meas := rfl
@[simp] theorem Dev.setSram_jobs (a : Nat) (bs : List Byte) : (d.setSram a bs).jobs = d.jobs := rfl
@[simp] theorem Dev.setSram_flt (a : Nat) (bs : List Byte) : (d.setSram a bs).flt = d.flt := rfl
@[simp] theorem Dev.setSram_pads (a : Nat) (bs : List Byte) : (d.setSram a bs).pads = d.pads := rfl
@[simp] theorem Dev.setSram_refs (a : Nat) (bs : List Byte) : (d.setSram a bs).refs = d.refs := rfl
@[simp] theorem Dev.setSram_sels (a : Nat) (bs : List Byte) : (d.setSram a bs).sels = d.sels := rfl
@[simp] theorem Dev.setSram_selNow (a : Nat) (bs : List Byte) : (d.setSram a bs).selNow = d.selNow := rfl
@[simp] theorem Dev.setSram_alive (a : Nat) (bs : List Byte) : (d.setSram a bs).alive = d.alive := rfl
@[simp] theorem Dev.setSram_ports (a : Nat) (bs : List Byte) : (d.setSram a bs).ports = d.ports := rfl
@[simp] theorem Dev.setSram_beats (a : Nat) (bs : List Byte) : (d.setSram a bs).beats = d.beats := rfl
@[simp] theorem Dev.setSram_past (a : Nat) (bs : List Byte) : (d.setSram a bs).past = d.past := rfl
@[simp] theorem Dev.setSram_aplls (a : Nat) (bs : List Byte) : (d.setSram a bs).aplls = d.aplls := rfl
@[simp] theorem Dev.setSram_outs (a : Nat) (bs : List Byte) : (d.setSram a bs).outs = d.outs := rfl
@[simp] theorem Dev.setSram_psyns (a : Nat) (bs : List Byte) : (d.setSram a bs).psyns = d.psyns := rfl
@[simp] theorem Dev.setSram_nvmc (a : Nat) (bs : List Byte) : (d.setSram a bs).nvmc = d.nvmc := rfl
@[simp] theorem Dev.setSram_chk (a : Nat) (bs : List Byte) : (d.setSram a bs).chk = d.chk := rfl
@[simp] theorem Dev.setSram_mbx (a : Nat) (bs : List Byte) : (d.setSram a bs).mbx = d.mbx := rfl
@[simp] theorem Dev.setSram_boot (a : Nat) (bs : List Byte) : (d.setSram a bs).boot = d.boot := rfl
@[simp] theorem Dev.setSram_front (a : Nat) (bs : List Byte) : (d.setSram a bs).front = d.front := rfl
@[simp] theorem Dev.setSram_resetKind (a : Nat) (bs : List Byte) : (d.setSram a bs).resetKind = d.resetKind := rfl
@[simp] theorem Dev.setSram_priorMode (a : Nat) (bs : List Byte) : (d.setSram a bs).priorMode = d.priorMode := rfl
@[simp] theorem Dev.setSram_undo (a : Nat) (bs : List Byte) : (d.setSram a bs).undo = d.undo := rfl
@[simp] theorem Dev.setSram_rsp (a : Nat) (bs : List Byte) : (d.setSram a bs).rsp = d.rsp := rfl
@[simp] theorem Dev.setSram_fresh (a : Nat) (bs : List Byte) : (d.setSram a bs).fresh = d.fresh := rfl
@[simp] theorem Dev.word_setSram (a : Nat) (bs : List Byte) (r : Nat) : (d.setSram a bs).word r = d.word r := rfl
@[simp] theorem Dev.rd_setSram (a : Nat) (bs : List Byte) (g : Fld) : (d.setSram a bs).rd g = d.rd g := rfl
@[simp] theorem Dev.flag_setSram (a : Nat) (bs : List Byte) (g : Fld) : (d.setSram a bs).flag g = d.flag g := rfl

/-! ### setSramWord -/

@[simp] theorem Dev.setSramWord_clk (a v : Nat) : (d.setSramWord a v).clk = d.clk := rfl
@[simp] theorem Dev.setSramWord_live (a v : Nat) : (d.setSramWord a v).live = d.live := rfl
@[simp] theorem Dev.setSramWord_shadow (a v : Nat) : (d.setSramWord a v).shadow = d.shadow := rfl
@[simp] theorem Dev.setSramWord_held (a v : Nat) : (d.setSramWord a v).held = d.held := rfl
@[simp] theorem Dev.setSramWord_perMaster (a v : Nat) : (d.setSramWord a v).perMaster = d.perMaster := rfl
@[simp] theorem Dev.setSramWord_bumped (a v : Nat) : (d.setSramWord a v).bumped = d.bumped := rfl
@[simp] theorem Dev.setSramWord_old (a v : Nat) : (d.setSramWord a v).old = d.old := rfl
@[simp] theorem Dev.setSramWord_hwSet (a v : Nat) : (d.setSramWord a v).hwSet = d.hwSet := rfl
@[simp] theorem Dev.setSramWord_outside (a v : Nat) : (d.setSramWord a v).outside = d.outside := rfl
@[simp] theorem Dev.setSramWord_nvm (a v : Nat) : (d.setSramWord a v).nvm = d.nvm := rfl
@[simp] theorem Dev.setSramWord_nvmOnes (a v : Nat) : (d.setSramWord a v).nvmOnes = d.nvmOnes := rfl
@[simp] theorem Dev.setSramWord_nvmErrs (a v : Nat) : (d.setSramWord a v).nvmErrs = d.nvmErrs := rfl
@[simp] theorem Dev.setSramWord_railLow (a v : Nat) : (d.setSramWord a v).railLow = d.railLow := rfl
@[simp] theorem Dev.setSramWord_meas (a v : Nat) : (d.setSramWord a v).meas = d.meas := rfl
@[simp] theorem Dev.setSramWord_jobs (a v : Nat) : (d.setSramWord a v).jobs = d.jobs := rfl
@[simp] theorem Dev.setSramWord_flt (a v : Nat) : (d.setSramWord a v).flt = d.flt := rfl
@[simp] theorem Dev.setSramWord_pads (a v : Nat) : (d.setSramWord a v).pads = d.pads := rfl
@[simp] theorem Dev.setSramWord_refs (a v : Nat) : (d.setSramWord a v).refs = d.refs := rfl
@[simp] theorem Dev.setSramWord_sels (a v : Nat) : (d.setSramWord a v).sels = d.sels := rfl
@[simp] theorem Dev.setSramWord_selNow (a v : Nat) : (d.setSramWord a v).selNow = d.selNow := rfl
@[simp] theorem Dev.setSramWord_alive (a v : Nat) : (d.setSramWord a v).alive = d.alive := rfl
@[simp] theorem Dev.setSramWord_ports (a v : Nat) : (d.setSramWord a v).ports = d.ports := rfl
@[simp] theorem Dev.setSramWord_beats (a v : Nat) : (d.setSramWord a v).beats = d.beats := rfl
@[simp] theorem Dev.setSramWord_past (a v : Nat) : (d.setSramWord a v).past = d.past := rfl
@[simp] theorem Dev.setSramWord_aplls (a v : Nat) : (d.setSramWord a v).aplls = d.aplls := rfl
@[simp] theorem Dev.setSramWord_outs (a v : Nat) : (d.setSramWord a v).outs = d.outs := rfl
@[simp] theorem Dev.setSramWord_psyns (a v : Nat) : (d.setSramWord a v).psyns = d.psyns := rfl
@[simp] theorem Dev.setSramWord_nvmc (a v : Nat) : (d.setSramWord a v).nvmc = d.nvmc := rfl
@[simp] theorem Dev.setSramWord_chk (a v : Nat) : (d.setSramWord a v).chk = d.chk := rfl
@[simp] theorem Dev.setSramWord_mbx (a v : Nat) : (d.setSramWord a v).mbx = d.mbx := rfl
@[simp] theorem Dev.setSramWord_boot (a v : Nat) : (d.setSramWord a v).boot = d.boot := rfl
@[simp] theorem Dev.setSramWord_front (a v : Nat) : (d.setSramWord a v).front = d.front := rfl
@[simp] theorem Dev.setSramWord_resetKind (a v : Nat) : (d.setSramWord a v).resetKind = d.resetKind := rfl
@[simp] theorem Dev.setSramWord_priorMode (a v : Nat) : (d.setSramWord a v).priorMode = d.priorMode := rfl
@[simp] theorem Dev.setSramWord_undo (a v : Nat) : (d.setSramWord a v).undo = d.undo := rfl
@[simp] theorem Dev.setSramWord_rsp (a v : Nat) : (d.setSramWord a v).rsp = d.rsp := rfl
@[simp] theorem Dev.setSramWord_fresh (a v : Nat) : (d.setSramWord a v).fresh = d.fresh := rfl
@[simp] theorem Dev.word_setSramWord (a v : Nat) (r : Nat) : (d.setSramWord a v).word r = d.word r := rfl
@[simp] theorem Dev.rd_setSramWord (a v : Nat) (g : Fld) : (d.setSramWord a v).rd g = d.rd g := rfl
@[simp] theorem Dev.flag_setSramWord (a v : Nat) (g : Fld) : (d.setSramWord a v).flag g = d.flag g := rfl

/-! ### setNvm -/

@[simp] theorem Dev.setNvm_clk (a : Nat) (bs : List Byte) : (d.setNvm a bs).clk = d.clk := rfl
@[simp] theorem Dev.setNvm_live (a : Nat) (bs : List Byte) : (d.setNvm a bs).live = d.live := rfl
@[simp] theorem Dev.setNvm_shadow (a : Nat) (bs : List Byte) : (d.setNvm a bs).shadow = d.shadow := rfl
@[simp] theorem Dev.setNvm_held (a : Nat) (bs : List Byte) : (d.setNvm a bs).held = d.held := rfl
@[simp] theorem Dev.setNvm_perMaster (a : Nat) (bs : List Byte) : (d.setNvm a bs).perMaster = d.perMaster := rfl
@[simp] theorem Dev.setNvm_bumped (a : Nat) (bs : List Byte) : (d.setNvm a bs).bumped = d.bumped := rfl
@[simp] theorem Dev.setNvm_old (a : Nat) (bs : List Byte) : (d.setNvm a bs).old = d.old := rfl
@[simp] theorem Dev.setNvm_hwSet (a : Nat) (bs : List Byte) : (d.setNvm a bs).hwSet = d.hwSet := rfl
@[simp] theorem Dev.setNvm_outside (a : Nat) (bs : List Byte) : (d.setNvm a bs).outside = d.outside := rfl
@[simp] theorem Dev.setNvm_sram (a : Nat) (bs : List Byte) : (d.setNvm a bs).sram = d.sram := rfl
@[simp] theorem Dev.setNvm_nvmOnes (a : Nat) (bs : List Byte) : (d.setNvm a bs).nvmOnes = d.nvmOnes := rfl
@[simp] theorem Dev.setNvm_nvmErrs (a : Nat) (bs : List Byte) : (d.setNvm a bs).nvmErrs = d.nvmErrs := rfl
@[simp] theorem Dev.setNvm_railLow (a : Nat) (bs : List Byte) : (d.setNvm a bs).railLow = d.railLow := rfl
@[simp] theorem Dev.setNvm_meas (a : Nat) (bs : List Byte) : (d.setNvm a bs).meas = d.meas := rfl
@[simp] theorem Dev.setNvm_jobs (a : Nat) (bs : List Byte) : (d.setNvm a bs).jobs = d.jobs := rfl
@[simp] theorem Dev.setNvm_flt (a : Nat) (bs : List Byte) : (d.setNvm a bs).flt = d.flt := rfl
@[simp] theorem Dev.setNvm_pads (a : Nat) (bs : List Byte) : (d.setNvm a bs).pads = d.pads := rfl
@[simp] theorem Dev.setNvm_refs (a : Nat) (bs : List Byte) : (d.setNvm a bs).refs = d.refs := rfl
@[simp] theorem Dev.setNvm_sels (a : Nat) (bs : List Byte) : (d.setNvm a bs).sels = d.sels := rfl
@[simp] theorem Dev.setNvm_selNow (a : Nat) (bs : List Byte) : (d.setNvm a bs).selNow = d.selNow := rfl
@[simp] theorem Dev.setNvm_alive (a : Nat) (bs : List Byte) : (d.setNvm a bs).alive = d.alive := rfl
@[simp] theorem Dev.setNvm_ports (a : Nat) (bs : List Byte) : (d.setNvm a bs).ports = d.ports := rfl
@[simp] theorem Dev.setNvm_beats (a : Nat) (bs : List Byte) : (d.setNvm a bs).beats = d.beats := rfl
@[simp] theorem Dev.setNvm_past (a : Nat) (bs : List Byte) : (d.setNvm a bs).past = d.past := rfl
@[simp] theorem Dev.setNvm_aplls (a : Nat) (bs : List Byte) : (d.setNvm a bs).aplls = d.aplls := rfl
@[simp] theorem Dev.setNvm_outs (a : Nat) (bs : List Byte) : (d.setNvm a bs).outs = d.outs := rfl
@[simp] theorem Dev.setNvm_psyns (a : Nat) (bs : List Byte) : (d.setNvm a bs).psyns = d.psyns := rfl
@[simp] theorem Dev.setNvm_nvmc (a : Nat) (bs : List Byte) : (d.setNvm a bs).nvmc = d.nvmc := rfl
@[simp] theorem Dev.setNvm_chk (a : Nat) (bs : List Byte) : (d.setNvm a bs).chk = d.chk := rfl
@[simp] theorem Dev.setNvm_mbx (a : Nat) (bs : List Byte) : (d.setNvm a bs).mbx = d.mbx := rfl
@[simp] theorem Dev.setNvm_boot (a : Nat) (bs : List Byte) : (d.setNvm a bs).boot = d.boot := rfl
@[simp] theorem Dev.setNvm_front (a : Nat) (bs : List Byte) : (d.setNvm a bs).front = d.front := rfl
@[simp] theorem Dev.setNvm_resetKind (a : Nat) (bs : List Byte) : (d.setNvm a bs).resetKind = d.resetKind := rfl
@[simp] theorem Dev.setNvm_priorMode (a : Nat) (bs : List Byte) : (d.setNvm a bs).priorMode = d.priorMode := rfl
@[simp] theorem Dev.setNvm_undo (a : Nat) (bs : List Byte) : (d.setNvm a bs).undo = d.undo := rfl
@[simp] theorem Dev.setNvm_rsp (a : Nat) (bs : List Byte) : (d.setNvm a bs).rsp = d.rsp := rfl
@[simp] theorem Dev.setNvm_fresh (a : Nat) (bs : List Byte) : (d.setNvm a bs).fresh = d.fresh := rfl
@[simp] theorem Dev.word_setNvm (a : Nat) (bs : List Byte) (r : Nat) : (d.setNvm a bs).word r = d.word r := rfl
@[simp] theorem Dev.rd_setNvm (a : Nat) (bs : List Byte) (g : Fld) : (d.setNvm a bs).rd g = d.rd g := rfl
@[simp] theorem Dev.flag_setNvm (a : Nat) (bs : List Byte) (g : Fld) : (d.setNvm a bs).flag g = d.flag g := rfl

/-! ### nvmRequest -/

@[simp] theorem Dev.nvmRequest_clk (k : NvmKind) : (d.nvmRequest k).clk = d.clk := rfl
@[simp] theorem Dev.nvmRequest_live (k : NvmKind) : (d.nvmRequest k).live = d.live := rfl
@[simp] theorem Dev.nvmRequest_shadow (k : NvmKind) : (d.nvmRequest k).shadow = d.shadow := rfl
@[simp] theorem Dev.nvmRequest_held (k : NvmKind) : (d.nvmRequest k).held = d.held := rfl
@[simp] theorem Dev.nvmRequest_perMaster (k : NvmKind) : (d.nvmRequest k).perMaster = d.perMaster := rfl
@[simp] theorem Dev.nvmRequest_bumped (k : NvmKind) : (d.nvmRequest k).bumped = d.bumped := rfl
@[simp] theorem Dev.nvmRequest_old (k : NvmKind) : (d.nvmRequest k).old = d.old := rfl
@[simp] theorem Dev.nvmRequest_hwSet (k : NvmKind) : (d.nvmRequest k).hwSet = d.hwSet := rfl
@[simp] theorem Dev.nvmRequest_outside (k : NvmKind) : (d.nvmRequest k).outside = d.outside := rfl
@[simp] theorem Dev.nvmRequest_sram (k : NvmKind) : (d.nvmRequest k).sram = d.sram := rfl
@[simp] theorem Dev.nvmRequest_nvm (k : NvmKind) : (d.nvmRequest k).nvm = d.nvm := rfl
@[simp] theorem Dev.nvmRequest_nvmOnes (k : NvmKind) : (d.nvmRequest k).nvmOnes = d.nvmOnes := rfl
@[simp] theorem Dev.nvmRequest_nvmErrs (k : NvmKind) : (d.nvmRequest k).nvmErrs = d.nvmErrs := rfl
@[simp] theorem Dev.nvmRequest_railLow (k : NvmKind) : (d.nvmRequest k).railLow = d.railLow := rfl
@[simp] theorem Dev.nvmRequest_meas (k : NvmKind) : (d.nvmRequest k).meas = d.meas := rfl
@[simp] theorem Dev.nvmRequest_jobs (k : NvmKind) : (d.nvmRequest k).jobs = d.jobs := rfl
@[simp] theorem Dev.nvmRequest_flt (k : NvmKind) : (d.nvmRequest k).flt = d.flt := rfl
@[simp] theorem Dev.nvmRequest_pads (k : NvmKind) : (d.nvmRequest k).pads = d.pads := rfl
@[simp] theorem Dev.nvmRequest_refs (k : NvmKind) : (d.nvmRequest k).refs = d.refs := rfl
@[simp] theorem Dev.nvmRequest_sels (k : NvmKind) : (d.nvmRequest k).sels = d.sels := rfl
@[simp] theorem Dev.nvmRequest_selNow (k : NvmKind) : (d.nvmRequest k).selNow = d.selNow := rfl
@[simp] theorem Dev.nvmRequest_alive (k : NvmKind) : (d.nvmRequest k).alive = d.alive := rfl
@[simp] theorem Dev.nvmRequest_ports (k : NvmKind) : (d.nvmRequest k).ports = d.ports := rfl
@[simp] theorem Dev.nvmRequest_beats (k : NvmKind) : (d.nvmRequest k).beats = d.beats := rfl
@[simp] theorem Dev.nvmRequest_past (k : NvmKind) : (d.nvmRequest k).past = d.past := rfl
@[simp] theorem Dev.nvmRequest_aplls (k : NvmKind) : (d.nvmRequest k).aplls = d.aplls := rfl
@[simp] theorem Dev.nvmRequest_outs (k : NvmKind) : (d.nvmRequest k).outs = d.outs := rfl
@[simp] theorem Dev.nvmRequest_psyns (k : NvmKind) : (d.nvmRequest k).psyns = d.psyns := rfl
@[simp] theorem Dev.nvmRequest_chk (k : NvmKind) : (d.nvmRequest k).chk = d.chk := rfl
@[simp] theorem Dev.nvmRequest_mbx (k : NvmKind) : (d.nvmRequest k).mbx = d.mbx := rfl
@[simp] theorem Dev.nvmRequest_boot (k : NvmKind) : (d.nvmRequest k).boot = d.boot := rfl
@[simp] theorem Dev.nvmRequest_front (k : NvmKind) : (d.nvmRequest k).front = d.front := rfl
@[simp] theorem Dev.nvmRequest_resetKind (k : NvmKind) : (d.nvmRequest k).resetKind = d.resetKind := rfl
@[simp] theorem Dev.nvmRequest_priorMode (k : NvmKind) : (d.nvmRequest k).priorMode = d.priorMode := rfl
@[simp] theorem Dev.nvmRequest_undo (k : NvmKind) : (d.nvmRequest k).undo = d.undo := rfl
@[simp] theorem Dev.nvmRequest_rsp (k : NvmKind) : (d.nvmRequest k).rsp = d.rsp := rfl
@[simp] theorem Dev.nvmRequest_fresh (k : NvmKind) : (d.nvmRequest k).fresh = d.fresh := rfl
@[simp] theorem Dev.word_nvmRequest (k : NvmKind) (r : Nat) : (d.nvmRequest k).word r = d.word r := rfl
@[simp] theorem Dev.rd_nvmRequest (k : NvmKind) (g : Fld) : (d.nvmRequest k).rd g = d.rd g := rfl
@[simp] theorem Dev.flag_nvmRequest (k : NvmKind) (g : Fld) : (d.nvmRequest k).flag g = d.flag g := rfl

/-! ### answer -/

@[simp] theorem Dev.answer_clk (ws : List Nat) : (d.answer ws).clk = d.clk := rfl
@[simp] theorem Dev.answer_live (ws : List Nat) : (d.answer ws).live = d.live := rfl
@[simp] theorem Dev.answer_shadow (ws : List Nat) : (d.answer ws).shadow = d.shadow := rfl
@[simp] theorem Dev.answer_held (ws : List Nat) : (d.answer ws).held = d.held := rfl
@[simp] theorem Dev.answer_perMaster (ws : List Nat) : (d.answer ws).perMaster = d.perMaster := rfl
@[simp] theorem Dev.answer_bumped (ws : List Nat) : (d.answer ws).bumped = d.bumped := rfl
@[simp] theorem Dev.answer_old (ws : List Nat) : (d.answer ws).old = d.old := rfl
@[simp] theorem Dev.answer_hwSet (ws : List Nat) : (d.answer ws).hwSet = d.hwSet := rfl
@[simp] theorem Dev.answer_outside (ws : List Nat) : (d.answer ws).outside = d.outside := rfl
@[simp] theorem Dev.answer_sram (ws : List Nat) : (d.answer ws).sram = d.sram := rfl
@[simp] theorem Dev.answer_nvm (ws : List Nat) : (d.answer ws).nvm = d.nvm := rfl
@[simp] theorem Dev.answer_nvmOnes (ws : List Nat) : (d.answer ws).nvmOnes = d.nvmOnes := rfl
@[simp] theorem Dev.answer_nvmErrs (ws : List Nat) : (d.answer ws).nvmErrs = d.nvmErrs := rfl
@[simp] theorem Dev.answer_railLow (ws : List Nat) : (d.answer ws).railLow = d.railLow := rfl
@[simp] theorem Dev.answer_meas (ws : List Nat) : (d.answer ws).meas = d.meas := rfl
@[simp] theorem Dev.answer_jobs (ws : List Nat) : (d.answer ws).jobs = d.jobs := rfl
@[simp] theorem Dev.answer_flt (ws : List Nat) : (d.answer ws).flt = d.flt := rfl
@[simp] theorem Dev.answer_pads (ws : List Nat) : (d.answer ws).pads = d.pads := rfl
@[simp] theorem Dev.answer_refs (ws : List Nat) : (d.answer ws).refs = d.refs := rfl
@[simp] theorem Dev.answer_sels (ws : List Nat) : (d.answer ws).sels = d.sels := rfl
@[simp] theorem Dev.answer_selNow (ws : List Nat) : (d.answer ws).selNow = d.selNow := rfl
@[simp] theorem Dev.answer_alive (ws : List Nat) : (d.answer ws).alive = d.alive := rfl
@[simp] theorem Dev.answer_ports (ws : List Nat) : (d.answer ws).ports = d.ports := rfl
@[simp] theorem Dev.answer_beats (ws : List Nat) : (d.answer ws).beats = d.beats := rfl
@[simp] theorem Dev.answer_past (ws : List Nat) : (d.answer ws).past = d.past := rfl
@[simp] theorem Dev.answer_aplls (ws : List Nat) : (d.answer ws).aplls = d.aplls := rfl
@[simp] theorem Dev.answer_outs (ws : List Nat) : (d.answer ws).outs = d.outs := rfl
@[simp] theorem Dev.answer_psyns (ws : List Nat) : (d.answer ws).psyns = d.psyns := rfl
@[simp] theorem Dev.answer_nvmc (ws : List Nat) : (d.answer ws).nvmc = d.nvmc := rfl
@[simp] theorem Dev.answer_chk (ws : List Nat) : (d.answer ws).chk = d.chk := rfl
@[simp] theorem Dev.answer_mbx (ws : List Nat) : (d.answer ws).mbx = d.mbx := rfl
@[simp] theorem Dev.answer_boot (ws : List Nat) : (d.answer ws).boot = d.boot := rfl
@[simp] theorem Dev.answer_front (ws : List Nat) : (d.answer ws).front = d.front := rfl
@[simp] theorem Dev.answer_resetKind (ws : List Nat) : (d.answer ws).resetKind = d.resetKind := rfl
@[simp] theorem Dev.answer_priorMode (ws : List Nat) : (d.answer ws).priorMode = d.priorMode := rfl
@[simp] theorem Dev.answer_undo (ws : List Nat) : (d.answer ws).undo = d.undo := rfl
@[simp] theorem Dev.answer_fresh (ws : List Nat) : (d.answer ws).fresh = d.fresh := rfl
@[simp] theorem Dev.word_answer (ws : List Nat) (r : Nat) : (d.answer ws).word r = d.word r := rfl
@[simp] theorem Dev.rd_answer (ws : List Nat) (g : Fld) : (d.answer ws).rd g = d.rd g := rfl
@[simp] theorem Dev.flag_answer (ws : List Nat) (g : Fld) : (d.answer ws).flag g = d.flag g := rfl

/-! ### advance -/

@[simp] theorem Dev.advance_live (dt : Nat) : (d.advance dt).live = d.live := rfl
@[simp] theorem Dev.advance_shadow (dt : Nat) : (d.advance dt).shadow = d.shadow := rfl
@[simp] theorem Dev.advance_held (dt : Nat) : (d.advance dt).held = d.held := rfl
@[simp] theorem Dev.advance_perMaster (dt : Nat) : (d.advance dt).perMaster = d.perMaster := rfl
@[simp] theorem Dev.advance_outside (dt : Nat) : (d.advance dt).outside = d.outside := rfl
@[simp] theorem Dev.advance_sram (dt : Nat) : (d.advance dt).sram = d.sram := rfl
@[simp] theorem Dev.advance_nvm (dt : Nat) : (d.advance dt).nvm = d.nvm := rfl
@[simp] theorem Dev.advance_nvmOnes (dt : Nat) : (d.advance dt).nvmOnes = d.nvmOnes := rfl
@[simp] theorem Dev.advance_nvmErrs (dt : Nat) : (d.advance dt).nvmErrs = d.nvmErrs := rfl
@[simp] theorem Dev.advance_railLow (dt : Nat) : (d.advance dt).railLow = d.railLow := rfl
@[simp] theorem Dev.advance_jobs (dt : Nat) : (d.advance dt).jobs = d.jobs := rfl
@[simp] theorem Dev.advance_pads (dt : Nat) : (d.advance dt).pads = d.pads := rfl
@[simp] theorem Dev.advance_refs (dt : Nat) : (d.advance dt).refs = d.refs := rfl
@[simp] theorem Dev.advance_sels (dt : Nat) : (d.advance dt).sels = d.sels := rfl
@[simp] theorem Dev.advance_selNow (dt : Nat) : (d.advance dt).selNow = d.selNow := rfl
@[simp] theorem Dev.advance_alive (dt : Nat) : (d.advance dt).alive = d.alive := rfl
@[simp] theorem Dev.advance_ports (dt : Nat) : (d.advance dt).ports = d.ports := rfl
@[simp] theorem Dev.advance_beats (dt : Nat) : (d.advance dt).beats = d.beats := rfl
@[simp] theorem Dev.advance_aplls (dt : Nat) : (d.advance dt).aplls = d.aplls := rfl
@[simp] theorem Dev.advance_outs (dt : Nat) : (d.advance dt).outs = d.outs := rfl
@[simp] theorem Dev.advance_psyns (dt : Nat) : (d.advance dt).psyns = d.psyns := rfl
@[simp] theorem Dev.advance_nvmc (dt : Nat) : (d.advance dt).nvmc = d.nvmc := rfl
@[simp] theorem Dev.advance_chk (dt : Nat) : (d.advance dt).chk = d.chk := rfl
@[simp] theorem Dev.advance_mbx (dt : Nat) : (d.advance dt).mbx = d.mbx := rfl
@[simp] theorem Dev.advance_boot (dt : Nat) : (d.advance dt).boot = d.boot := rfl
@[simp] theorem Dev.advance_front (dt : Nat) : (d.advance dt).front = d.front := rfl
@[simp] theorem Dev.advance_resetKind (dt : Nat) : (d.advance dt).resetKind = d.resetKind := rfl
@[simp] theorem Dev.advance_priorMode (dt : Nat) : (d.advance dt).priorMode = d.priorMode := rfl
@[simp] theorem Dev.advance_undo (dt : Nat) : (d.advance dt).undo = d.undo := rfl
@[simp] theorem Dev.advance_rsp (dt : Nat) : (d.advance dt).rsp = d.rsp := rfl
@[simp] theorem Dev.advance_fresh (dt : Nat) : (d.advance dt).fresh = d.fresh := rfl
@[simp] theorem Dev.word_advance (dt : Nat) (r : Nat) : (d.advance dt).word r = d.word r := rfl
@[simp] theorem Dev.rd_advance (dt : Nat) (g : Fld) : (d.advance dt).rd g = d.rd g := rfl
@[simp] theorem Dev.flag_advance (dt : Nat) (g : Fld) : (d.advance dt).flag g = d.flag g := rfl

/-! ### closeEdge -/

@[simp] theorem Dev.closeEdge_live  : (d.closeEdge).live = d.live := rfl
@[simp] theorem Dev.closeEdge_shadow  : (d.closeEdge).shadow = d.shadow := rfl
@[simp] theorem Dev.closeEdge_held  : (d.closeEdge).held = d.held := rfl
@[simp] theorem Dev.closeEdge_perMaster  : (d.closeEdge).perMaster = d.perMaster := rfl
@[simp] theorem Dev.closeEdge_bumped  : (d.closeEdge).bumped = d.bumped := rfl
@[simp] theorem Dev.closeEdge_old  : (d.closeEdge).old = d.old := rfl
@[simp] theorem Dev.closeEdge_hwSet  : (d.closeEdge).hwSet = d.hwSet := rfl
@[simp] theorem Dev.closeEdge_outside  : (d.closeEdge).outside = d.outside := rfl
@[simp] theorem Dev.closeEdge_sram  : (d.closeEdge).sram = d.sram := rfl
@[simp] theorem Dev.closeEdge_nvm  : (d.closeEdge).nvm = d.nvm := rfl
@[simp] theorem Dev.closeEdge_nvmOnes  : (d.closeEdge).nvmOnes = d.nvmOnes := rfl
@[simp] theorem Dev.closeEdge_nvmErrs  : (d.closeEdge).nvmErrs = d.nvmErrs := rfl
@[simp] theorem Dev.closeEdge_railLow  : (d.closeEdge).railLow = d.railLow := rfl
@[simp] theorem Dev.closeEdge_meas  : (d.closeEdge).meas = d.meas := rfl
@[simp] theorem Dev.closeEdge_jobs  : (d.closeEdge).jobs = d.jobs := rfl
@[simp] theorem Dev.closeEdge_flt  : (d.closeEdge).flt = d.flt := rfl
@[simp] theorem Dev.closeEdge_pads  : (d.closeEdge).pads = d.pads := rfl
@[simp] theorem Dev.closeEdge_refs  : (d.closeEdge).refs = d.refs := rfl
@[simp] theorem Dev.closeEdge_sels  : (d.closeEdge).sels = d.sels := rfl
@[simp] theorem Dev.closeEdge_selNow  : (d.closeEdge).selNow = d.selNow := rfl
@[simp] theorem Dev.closeEdge_alive  : (d.closeEdge).alive = d.alive := rfl
@[simp] theorem Dev.closeEdge_ports  : (d.closeEdge).ports = d.ports := rfl
@[simp] theorem Dev.closeEdge_beats  : (d.closeEdge).beats = d.beats := rfl
@[simp] theorem Dev.closeEdge_past  : (d.closeEdge).past = d.past := rfl
@[simp] theorem Dev.closeEdge_aplls  : (d.closeEdge).aplls = d.aplls := rfl
@[simp] theorem Dev.closeEdge_outs  : (d.closeEdge).outs = d.outs := rfl
@[simp] theorem Dev.closeEdge_psyns  : (d.closeEdge).psyns = d.psyns := rfl
@[simp] theorem Dev.closeEdge_nvmc  : (d.closeEdge).nvmc = d.nvmc := rfl
@[simp] theorem Dev.closeEdge_chk  : (d.closeEdge).chk = d.chk := rfl
@[simp] theorem Dev.closeEdge_mbx  : (d.closeEdge).mbx = d.mbx := rfl
@[simp] theorem Dev.closeEdge_boot  : (d.closeEdge).boot = d.boot := rfl
@[simp] theorem Dev.closeEdge_front  : (d.closeEdge).front = d.front := rfl
@[simp] theorem Dev.closeEdge_resetKind  : (d.closeEdge).resetKind = d.resetKind := rfl
@[simp] theorem Dev.closeEdge_priorMode  : (d.closeEdge).priorMode = d.priorMode := rfl
@[simp] theorem Dev.closeEdge_undo  : (d.closeEdge).undo = d.undo := rfl
@[simp] theorem Dev.closeEdge_rsp  : (d.closeEdge).rsp = d.rsp := rfl
@[simp] theorem Dev.closeEdge_fresh  : (d.closeEdge).fresh = d.fresh := rfl
@[simp] theorem Dev.word_closeEdge  (r : Nat) : (d.closeEdge).word r = d.word r := rfl
@[simp] theorem Dev.rd_closeEdge  (g : Fld) : (d.closeEdge).rd g = d.rd g := rfl
@[simp] theorem Dev.flag_closeEdge  (g : Fld) : (d.closeEdge).flag g = d.flag g := rfl

/-! ### newEdge -/

@[simp] theorem Dev.newEdge_live  : (d.newEdge).live = d.live := rfl
@[simp] theorem Dev.newEdge_shadow  : (d.newEdge).shadow = d.shadow := rfl
@[simp] theorem Dev.newEdge_held  : (d.newEdge).held = d.held := rfl
@[simp] theorem Dev.newEdge_perMaster  : (d.newEdge).perMaster = d.perMaster := rfl
@[simp] theorem Dev.newEdge_outside  : (d.newEdge).outside = d.outside := rfl
@[simp] theorem Dev.newEdge_sram  : (d.newEdge).sram = d.sram := rfl
@[simp] theorem Dev.newEdge_nvm  : (d.newEdge).nvm = d.nvm := rfl
@[simp] theorem Dev.newEdge_nvmOnes  : (d.newEdge).nvmOnes = d.nvmOnes := rfl
@[simp] theorem Dev.newEdge_nvmErrs  : (d.newEdge).nvmErrs = d.nvmErrs := rfl
@[simp] theorem Dev.newEdge_railLow  : (d.newEdge).railLow = d.railLow := rfl
@[simp] theorem Dev.newEdge_meas  : (d.newEdge).meas = d.meas := rfl
@[simp] theorem Dev.newEdge_jobs  : (d.newEdge).jobs = d.jobs := rfl
@[simp] theorem Dev.newEdge_pads  : (d.newEdge).pads = d.pads := rfl
@[simp] theorem Dev.newEdge_refs  : (d.newEdge).refs = d.refs := rfl
@[simp] theorem Dev.newEdge_sels  : (d.newEdge).sels = d.sels := rfl
@[simp] theorem Dev.newEdge_selNow  : (d.newEdge).selNow = d.selNow := rfl
@[simp] theorem Dev.newEdge_alive  : (d.newEdge).alive = d.alive := rfl
@[simp] theorem Dev.newEdge_ports  : (d.newEdge).ports = d.ports := rfl
@[simp] theorem Dev.newEdge_beats  : (d.newEdge).beats = d.beats := rfl
@[simp] theorem Dev.newEdge_past  : (d.newEdge).past = d.past := rfl
@[simp] theorem Dev.newEdge_aplls  : (d.newEdge).aplls = d.aplls := rfl
@[simp] theorem Dev.newEdge_outs  : (d.newEdge).outs = d.outs := rfl
@[simp] theorem Dev.newEdge_psyns  : (d.newEdge).psyns = d.psyns := rfl
@[simp] theorem Dev.newEdge_nvmc  : (d.newEdge).nvmc = d.nvmc := rfl
@[simp] theorem Dev.newEdge_chk  : (d.newEdge).chk = d.chk := rfl
@[simp] theorem Dev.newEdge_mbx  : (d.newEdge).mbx = d.mbx := rfl
@[simp] theorem Dev.newEdge_boot  : (d.newEdge).boot = d.boot := rfl
@[simp] theorem Dev.newEdge_front  : (d.newEdge).front = d.front := rfl
@[simp] theorem Dev.newEdge_resetKind  : (d.newEdge).resetKind = d.resetKind := rfl
@[simp] theorem Dev.newEdge_priorMode  : (d.newEdge).priorMode = d.priorMode := rfl
@[simp] theorem Dev.newEdge_undo  : (d.newEdge).undo = d.undo := rfl
@[simp] theorem Dev.newEdge_rsp  : (d.newEdge).rsp = d.rsp := rfl
@[simp] theorem Dev.newEdge_fresh  : (d.newEdge).fresh = d.fresh := rfl
@[simp] theorem Dev.word_newEdge  (r : Nat) : (d.newEdge).word r = d.word r := rfl
@[simp] theorem Dev.rd_newEdge  (g : Fld) : (d.newEdge).rd g = d.rd g := rfl
@[simp] theorem Dev.flag_newEdge  (g : Fld) : (d.newEdge).flag g = d.flag g := rfl

/-! ### askSelect -/

@[simp] theorem Dev.askSelect_clk (m : Option Nat) : (d.askSelect m).clk = d.clk := rfl
@[simp] theorem Dev.askSelect_live (m : Option Nat) : (d.askSelect m).live = d.live := rfl
@[simp] theorem Dev.askSelect_shadow (m : Option Nat) : (d.askSelect m).shadow = d.shadow := rfl
@[simp] theorem Dev.askSelect_held (m : Option Nat) : (d.askSelect m).held = d.held := rfl
@[simp] theorem Dev.askSelect_perMaster (m : Option Nat) : (d.askSelect m).perMaster = d.perMaster := rfl
@[simp] theorem Dev.askSelect_bumped (m : Option Nat) : (d.askSelect m).bumped = d.bumped := rfl
@[simp] theorem Dev.askSelect_old (m : Option Nat) : (d.askSelect m).old = d.old := rfl
@[simp] theorem Dev.askSelect_hwSet (m : Option Nat) : (d.askSelect m).hwSet = d.hwSet := rfl
@[simp] theorem Dev.askSelect_outside (m : Option Nat) : (d.askSelect m).outside = d.outside := rfl
@[simp] theorem Dev.askSelect_sram (m : Option Nat) : (d.askSelect m).sram = d.sram := rfl
@[simp] theorem Dev.askSelect_nvm (m : Option Nat) : (d.askSelect m).nvm = d.nvm := rfl
@[simp] theorem Dev.askSelect_nvmOnes (m : Option Nat) : (d.askSelect m).nvmOnes = d.nvmOnes := rfl
@[simp] theorem Dev.askSelect_nvmErrs (m : Option Nat) : (d.askSelect m).nvmErrs = d.nvmErrs := rfl
@[simp] theorem Dev.askSelect_railLow (m : Option Nat) : (d.askSelect m).railLow = d.railLow := rfl
@[simp] theorem Dev.askSelect_meas (m : Option Nat) : (d.askSelect m).meas = d.meas := rfl
@[simp] theorem Dev.askSelect_jobs (m : Option Nat) : (d.askSelect m).jobs = d.jobs := rfl
@[simp] theorem Dev.askSelect_flt (m : Option Nat) : (d.askSelect m).flt = d.flt := rfl
@[simp] theorem Dev.askSelect_pads (m : Option Nat) : (d.askSelect m).pads = d.pads := rfl
@[simp] theorem Dev.askSelect_refs (m : Option Nat) : (d.askSelect m).refs = d.refs := rfl
@[simp] theorem Dev.askSelect_sels (m : Option Nat) : (d.askSelect m).sels = d.sels := rfl
@[simp] theorem Dev.askSelect_alive (m : Option Nat) : (d.askSelect m).alive = d.alive := rfl
@[simp] theorem Dev.askSelect_ports (m : Option Nat) : (d.askSelect m).ports = d.ports := rfl
@[simp] theorem Dev.askSelect_beats (m : Option Nat) : (d.askSelect m).beats = d.beats := rfl
@[simp] theorem Dev.askSelect_past (m : Option Nat) : (d.askSelect m).past = d.past := rfl
@[simp] theorem Dev.askSelect_aplls (m : Option Nat) : (d.askSelect m).aplls = d.aplls := rfl
@[simp] theorem Dev.askSelect_outs (m : Option Nat) : (d.askSelect m).outs = d.outs := rfl
@[simp] theorem Dev.askSelect_psyns (m : Option Nat) : (d.askSelect m).psyns = d.psyns := rfl
@[simp] theorem Dev.askSelect_nvmc (m : Option Nat) : (d.askSelect m).nvmc = d.nvmc := rfl
@[simp] theorem Dev.askSelect_chk (m : Option Nat) : (d.askSelect m).chk = d.chk := rfl
@[simp] theorem Dev.askSelect_mbx (m : Option Nat) : (d.askSelect m).mbx = d.mbx := rfl
@[simp] theorem Dev.askSelect_boot (m : Option Nat) : (d.askSelect m).boot = d.boot := rfl
@[simp] theorem Dev.askSelect_front (m : Option Nat) : (d.askSelect m).front = d.front := rfl
@[simp] theorem Dev.askSelect_resetKind (m : Option Nat) : (d.askSelect m).resetKind = d.resetKind := rfl
@[simp] theorem Dev.askSelect_priorMode (m : Option Nat) : (d.askSelect m).priorMode = d.priorMode := rfl
@[simp] theorem Dev.askSelect_undo (m : Option Nat) : (d.askSelect m).undo = d.undo := rfl
@[simp] theorem Dev.askSelect_rsp (m : Option Nat) : (d.askSelect m).rsp = d.rsp := rfl
@[simp] theorem Dev.askSelect_fresh (m : Option Nat) : (d.askSelect m).fresh = d.fresh := rfl
@[simp] theorem Dev.word_askSelect (m : Option Nat) (r : Nat) : (d.askSelect m).word r = d.word r := rfl
@[simp] theorem Dev.rd_askSelect (m : Option Nat) (g : Fld) : (d.askSelect m).rd g = d.rd g := rfl
@[simp] theorem Dev.flag_askSelect (m : Option Nat) (g : Fld) : (d.askSelect m).flag g = d.flag g := rfl

/-! ### accessEdge -/

@[simp] theorem Dev.accessEdge_live  : (d.accessEdge).live = d.live := rfl
@[simp] theorem Dev.accessEdge_shadow  : (d.accessEdge).shadow = d.shadow := rfl
@[simp] theorem Dev.accessEdge_held  : (d.accessEdge).held = d.held := rfl
@[simp] theorem Dev.accessEdge_perMaster  : (d.accessEdge).perMaster = d.perMaster := rfl
@[simp] theorem Dev.accessEdge_bumped  : (d.accessEdge).bumped = d.bumped := rfl
@[simp] theorem Dev.accessEdge_old  : (d.accessEdge).old = d.old := rfl
@[simp] theorem Dev.accessEdge_hwSet  : (d.accessEdge).hwSet = d.hwSet := rfl
@[simp] theorem Dev.accessEdge_outside  : (d.accessEdge).outside = d.outside := rfl
@[simp] theorem Dev.accessEdge_sram  : (d.accessEdge).sram = d.sram := rfl
@[simp] theorem Dev.accessEdge_nvm  : (d.accessEdge).nvm = d.nvm := rfl
@[simp] theorem Dev.accessEdge_nvmOnes  : (d.accessEdge).nvmOnes = d.nvmOnes := rfl
@[simp] theorem Dev.accessEdge_nvmErrs  : (d.accessEdge).nvmErrs = d.nvmErrs := rfl
@[simp] theorem Dev.accessEdge_railLow  : (d.accessEdge).railLow = d.railLow := rfl
@[simp] theorem Dev.accessEdge_meas  : (d.accessEdge).meas = d.meas := rfl
@[simp] theorem Dev.accessEdge_jobs  : (d.accessEdge).jobs = d.jobs := rfl
@[simp] theorem Dev.accessEdge_flt  : (d.accessEdge).flt = d.flt := rfl
@[simp] theorem Dev.accessEdge_pads  : (d.accessEdge).pads = d.pads := rfl
@[simp] theorem Dev.accessEdge_refs  : (d.accessEdge).refs = d.refs := rfl
@[simp] theorem Dev.accessEdge_sels  : (d.accessEdge).sels = d.sels := rfl
@[simp] theorem Dev.accessEdge_selNow  : (d.accessEdge).selNow = d.selNow := rfl
@[simp] theorem Dev.accessEdge_alive  : (d.accessEdge).alive = d.alive := rfl
@[simp] theorem Dev.accessEdge_ports  : (d.accessEdge).ports = d.ports := rfl
@[simp] theorem Dev.accessEdge_beats  : (d.accessEdge).beats = d.beats := rfl
@[simp] theorem Dev.accessEdge_past  : (d.accessEdge).past = d.past := rfl
@[simp] theorem Dev.accessEdge_aplls  : (d.accessEdge).aplls = d.aplls := rfl
@[simp] theorem Dev.accessEdge_outs  : (d.accessEdge).outs = d.outs := rfl
@[simp] theorem Dev.accessEdge_psyns  : (d.accessEdge).psyns = d.psyns := rfl
@[simp] theorem Dev.accessEdge_nvmc  : (d.accessEdge).nvmc = d.nvmc := rfl
@[simp] theorem Dev.accessEdge_chk  : (d.accessEdge).chk = d.chk := rfl
@[simp] theorem Dev.accessEdge_mbx  : (d.accessEdge).mbx = d.mbx := rfl
@[simp] theorem Dev.accessEdge_boot  : (d.accessEdge).boot = d.boot := rfl
@[simp] theorem Dev.accessEdge_front  : (d.accessEdge).front = d.front := rfl
@[simp] theorem Dev.accessEdge_resetKind  : (d.accessEdge).resetKind = d.resetKind := rfl
@[simp] theorem Dev.accessEdge_priorMode  : (d.accessEdge).priorMode = d.priorMode := rfl
@[simp] theorem Dev.accessEdge_undo  : (d.accessEdge).undo = d.undo := rfl
@[simp] theorem Dev.accessEdge_rsp  : (d.accessEdge).rsp = d.rsp := rfl
@[simp] theorem Dev.accessEdge_fresh  : (d.accessEdge).fresh = d.fresh := rfl
@[simp] theorem Dev.word_accessEdge  (r : Nat) : (d.accessEdge).word r = d.word r := rfl
@[simp] theorem Dev.rd_accessEdge  (g : Fld) : (d.accessEdge).rd g = d.rd g := rfl
@[simp] theorem Dev.flag_accessEdge  (g : Fld) : (d.accessEdge).flag g = d.flag g := rfl

/-! ### updateEdge -/

@[simp] theorem Dev.updateEdge_live  : (d.updateEdge).live = d.live := rfl
@[simp] theorem Dev.updateEdge_shadow  : (d.updateEdge).shadow = d.shadow := rfl
@[simp] theorem Dev.updateEdge_held  : (d.updateEdge).held = d.held := rfl
@[simp] theorem Dev.updateEdge_perMaster  : (d.updateEdge).perMaster = d.perMaster := rfl
@[simp] theorem Dev.updateEdge_bumped  : (d.updateEdge).bumped = d.bumped := rfl
@[simp] theorem Dev.updateEdge_old  : (d.updateEdge).old = d.old := rfl
@[simp] theorem Dev.updateEdge_hwSet  : (d.updateEdge).hwSet = d.hwSet := rfl
@[simp] theorem Dev.updateEdge_outside  : (d.updateEdge).outside = d.outside := rfl
@[simp] theorem Dev.updateEdge_sram  : (d.updateEdge).sram = d.sram := rfl
@[simp] theorem Dev.updateEdge_nvm  : (d.updateEdge).nvm = d.nvm := rfl
@[simp] theorem Dev.updateEdge_nvmOnes  : (d.updateEdge).nvmOnes = d.nvmOnes := rfl
@[simp] theorem Dev.updateEdge_nvmErrs  : (d.updateEdge).nvmErrs = d.nvmErrs := rfl
@[simp] theorem Dev.updateEdge_railLow  : (d.updateEdge).railLow = d.railLow := rfl
@[simp] theorem Dev.updateEdge_meas  : (d.updateEdge).meas = d.meas := rfl
@[simp] theorem Dev.updateEdge_jobs  : (d.updateEdge).jobs = d.jobs := rfl
@[simp] theorem Dev.updateEdge_flt  : (d.updateEdge).flt = d.flt := rfl
@[simp] theorem Dev.updateEdge_pads  : (d.updateEdge).pads = d.pads := rfl
@[simp] theorem Dev.updateEdge_refs  : (d.updateEdge).refs = d.refs := rfl
@[simp] theorem Dev.updateEdge_sels  : (d.updateEdge).sels = d.sels := rfl
@[simp] theorem Dev.updateEdge_selNow  : (d.updateEdge).selNow = d.selNow := rfl
@[simp] theorem Dev.updateEdge_alive  : (d.updateEdge).alive = d.alive := rfl
@[simp] theorem Dev.updateEdge_ports  : (d.updateEdge).ports = d.ports := rfl
@[simp] theorem Dev.updateEdge_beats  : (d.updateEdge).beats = d.beats := rfl
@[simp] theorem Dev.updateEdge_past  : (d.updateEdge).past = d.past := rfl
@[simp] theorem Dev.updateEdge_aplls  : (d.updateEdge).aplls = d.aplls := rfl
@[simp] theorem Dev.updateEdge_outs  : (d.updateEdge).outs = d.outs := rfl
@[simp] theorem Dev.updateEdge_psyns  : (d.updateEdge).psyns = d.psyns := rfl
@[simp] theorem Dev.updateEdge_nvmc  : (d.updateEdge).nvmc = d.nvmc := rfl
@[simp] theorem Dev.updateEdge_chk  : (d.updateEdge).chk = d.chk := rfl
@[simp] theorem Dev.updateEdge_mbx  : (d.updateEdge).mbx = d.mbx := rfl
@[simp] theorem Dev.updateEdge_boot  : (d.updateEdge).boot = d.boot := rfl
@[simp] theorem Dev.updateEdge_front  : (d.updateEdge).front = d.front := rfl
@[simp] theorem Dev.updateEdge_resetKind  : (d.updateEdge).resetKind = d.resetKind := rfl
@[simp] theorem Dev.updateEdge_priorMode  : (d.updateEdge).priorMode = d.priorMode := rfl
@[simp] theorem Dev.updateEdge_undo  : (d.updateEdge).undo = d.undo := rfl
@[simp] theorem Dev.updateEdge_rsp  : (d.updateEdge).rsp = d.rsp := rfl
@[simp] theorem Dev.updateEdge_fresh  : (d.updateEdge).fresh = d.fresh := rfl
@[simp] theorem Dev.word_updateEdge  (r : Nat) : (d.updateEdge).word r = d.word r := rfl
@[simp] theorem Dev.rd_updateEdge  (g : Fld) : (d.updateEdge).rd g = d.rd g := rfl
@[simp] theorem Dev.flag_updateEdge  (g : Fld) : (d.updateEdge).flag g = d.flag g := rfl

/-! ### rejoin -/

@[simp] theorem Dev.rejoin_live (a : Bool) (dt : Nat) : (d.rejoin a dt).live = d.live := by unfold Dev.rejoin; split <;> rfl
@[simp] theorem Dev.rejoin_shadow (a : Bool) (dt : Nat) : (d.rejoin a dt).shadow = d.shadow := by unfold Dev.rejoin; split <;> rfl
@[simp] theorem Dev.rejoin_held (a : Bool) (dt : Nat) : (d.rejoin a dt).held = d.held := by unfold Dev.rejoin; split <;> rfl
@[simp] theorem Dev.rejoin_perMaster (a : Bool) (dt : Nat) : (d.rejoin a dt).perMaster = d.perMaster := by unfold Dev.rejoin; split <;> rfl
@[simp] theorem Dev.rejoin_bumped (a : Bool) (dt : Nat) : (d.rejoin a dt).bumped = d.bumped := by unfold Dev.rejoin; split <;> rfl
@[simp] theorem Dev.rejoin_old (a : Bool) (dt : Nat) : (d.rejoin a dt).old = d.old := by unfold Dev.rejoin; split <;> rfl
@[simp] theorem Dev.rejoin_hwSet (a : Bool) (dt : Nat) : (d.rejoin a dt).hwSet = d.hwSet := by unfold Dev.rejoin; split <;> rfl
@[simp] theorem Dev.rejoin_outside (a : Bool) (dt : Nat) : (d.rejoin a dt).outside = d.outside := by unfold Dev.rejoin; split <;> rfl
@[simp] theorem Dev.rejoin_sram (a : Bool) (dt : Nat) : (d.rejoin a dt).sram = d.sram := by unfold Dev.rejoin; split <;> rfl
@[simp] theorem Dev.rejoin_nvm (a : Bool) (dt : Nat) : (d.rejoin a dt).nvm = d.nvm := by unfold Dev.rejoin; split <;> rfl
@[simp] theorem Dev.rejoin_nvmOnes (a : Bool) (dt : Nat) : (d.rejoin a dt).nvmOnes = d.nvmOnes := by unfold Dev.rejoin; split <;> rfl
@[simp] theorem Dev.rejoin_nvmErrs (a : Bool) (dt : Nat) : (d.rejoin a dt).nvmErrs = d.nvmErrs := by unfold Dev.rejoin; split <;> rfl
@[simp] theorem Dev.rejoin_railLow (a : Bool) (dt : Nat) : (d.rejoin a dt).railLow = d.railLow := by unfold Dev.rejoin; split <;> rfl
@[simp] theorem Dev.rejoin_meas (a : Bool) (dt : Nat) : (d.rejoin a dt).meas = d.meas := by unfold Dev.rejoin; split <;> rfl
@[simp] theorem Dev.rejoin_jobs (a : Bool) (dt : Nat) : (d.rejoin a dt).jobs = d.jobs := by unfold Dev.rejoin; split <;> rfl
@[simp] theorem Dev.rejoin_flt (a : Bool) (dt : Nat) : (d.rejoin a dt).flt = d.flt := by unfold Dev.rejoin; split <;> rfl
@[simp] theorem Dev.rejoin_pads (a : Bool) (dt : Nat) : (d.rejoin a dt).pads = d.pads := by unfold Dev.rejoin; split <;> rfl
@[simp] theorem Dev.rejoin_refs (a : Bool) (dt : Nat) : (d.rejoin a dt).refs = d.refs := by unfold Dev.rejoin; split <;> rfl
@[simp] theorem Dev.rejoin_sels (a : Bool) (dt : Nat) : (d.rejoin a dt).sels = d.sels := by unfold Dev.rejoin; split <;> rfl
@[simp] theorem Dev.rejoin_selNow (a : Bool) (dt : Nat) : (d.rejoin a dt).selNow = d.selNow := by unfold Dev.rejoin; split <;> rfl
@[simp] theorem Dev.rejoin_alive (a : Bool) (dt : Nat) : (d.rejoin a dt).alive = d.alive := by unfold Dev.rejoin; split <;> rfl
@[simp] theorem Dev.rejoin_ports (a : Bool) (dt : Nat) : (d.rejoin a dt).ports = d.ports := by unfold Dev.rejoin; split <;> rfl
@[simp] theorem Dev.rejoin_beats (a : Bool) (dt : Nat) : (d.rejoin a dt).beats = d.beats := by unfold Dev.rejoin; split <;> rfl
@[simp] theorem Dev.rejoin_past (a : Bool) (dt : Nat) : (d.rejoin a dt).past = d.past := by unfold Dev.rejoin; split <;> rfl
@[simp] theorem Dev.rejoin_aplls (a : Bool) (dt : Nat) : (d.rejoin a dt).aplls = d.aplls := by unfold Dev.rejoin; split <;> rfl
@[simp] theorem Dev.rejoin_outs (a : Bool) (dt : Nat) : (d.rejoin a dt).outs = d.outs := by unfold Dev.rejoin; split <;> rfl
@[simp] theorem Dev.rejoin_psyns (a : Bool) (dt : Nat) : (d.rejoin a dt).psyns = d.psyns := by unfold Dev.rejoin; split <;> rfl
@[simp] theorem Dev.rejoin_nvmc (a : Bool) (dt : Nat) : (d.rejoin a dt).nvmc = d.nvmc := by unfold Dev.rejoin; split <;> rfl
@[simp] theorem Dev.rejoin_chk (a : Bool) (dt : Nat) : (d.rejoin a dt).chk = d.chk := by unfold Dev.rejoin; split <;> rfl
@[simp] theorem Dev.rejoin_mbx (a : Bool) (dt : Nat) : (d.rejoin a dt).mbx = d.mbx := by unfold Dev.rejoin; split <;> rfl
@[simp] theorem Dev.rejoin_boot (a : Bool) (dt : Nat) : (d.rejoin a dt).boot = d.boot := by unfold Dev.rejoin; split <;> rfl
@[simp] theorem Dev.rejoin_front (a : Bool) (dt : Nat) : (d.rejoin a dt).front = d.front := by unfold Dev.rejoin; split <;> rfl
@[simp] theorem Dev.rejoin_resetKind (a : Bool) (dt : Nat) : (d.rejoin a dt).resetKind = d.resetKind := by unfold Dev.rejoin; split <;> rfl
@[simp] theorem Dev.rejoin_priorMode (a : Bool) (dt : Nat) : (d.rejoin a dt).priorMode = d.priorMode := by unfold Dev.rejoin; split <;> rfl
@[simp] theorem Dev.rejoin_undo (a : Bool) (dt : Nat) : (d.rejoin a dt).undo = d.undo := by unfold Dev.rejoin; split <;> rfl
@[simp] theorem Dev.rejoin_rsp (a : Bool) (dt : Nat) : (d.rejoin a dt).rsp = d.rsp := by unfold Dev.rejoin; split <;> rfl
@[simp] theorem Dev.rejoin_fresh (a : Bool) (dt : Nat) : (d.rejoin a dt).fresh = d.fresh := by unfold Dev.rejoin; split <;> rfl
@[simp] theorem Dev.word_rejoin (a : Bool) (dt : Nat) (r : Nat) : (d.rejoin a dt).word r = d.word r := Dev.word_congr (by unfold Dev.rejoin; split <;> rfl) r
@[simp] theorem Dev.rd_rejoin (a : Bool) (dt : Nat) (g : Fld) : (d.rejoin a dt).rd g = d.rd g := Dev.rd_congr (by unfold Dev.rejoin; split <;> rfl) g
@[simp] theorem Dev.flag_rejoin (a : Bool) (dt : Nat) (g : Fld) : (d.rejoin a dt).flag g = d.flag g := Dev.flag_congr (by unfold Dev.rejoin; split <;> rfl) g

/-! ### setHw -/

@[simp] theorem Dev.setHw_clk (a : Nat) (w : Word) : (d.setHw a w).clk = d.clk := rfl
@[simp] theorem Dev.setHw_shadow (a : Nat) (w : Word) : (d.setHw a w).shadow = d.shadow := rfl
@[simp] theorem Dev.setHw_held (a : Nat) (w : Word) : (d.setHw a w).held = d.held := rfl
@[simp] theorem Dev.setHw_perMaster (a : Nat) (w : Word) : (d.setHw a w).perMaster = d.perMaster := rfl
@[simp] theorem Dev.setHw_bumped (a : Nat) (w : Word) : (d.setHw a w).bumped = d.bumped := rfl
@[simp] theorem Dev.setHw_old (a : Nat) (w : Word) : (d.setHw a w).old = d.old := rfl
@[simp] theorem Dev.setHw_outside (a : Nat) (w : Word) : (d.setHw a w).outside = d.outside := rfl
@[simp] theorem Dev.setHw_sram (a : Nat) (w : Word) : (d.setHw a w).sram = d.sram := rfl
@[simp] theorem Dev.setHw_nvm (a : Nat) (w : Word) : (d.setHw a w).nvm = d.nvm := rfl
@[simp] theorem Dev.setHw_nvmOnes (a : Nat) (w : Word) : (d.setHw a w).nvmOnes = d.nvmOnes := rfl
@[simp] theorem Dev.setHw_nvmErrs (a : Nat) (w : Word) : (d.setHw a w).nvmErrs = d.nvmErrs := rfl
@[simp] theorem Dev.setHw_railLow (a : Nat) (w : Word) : (d.setHw a w).railLow = d.railLow := rfl
@[simp] theorem Dev.setHw_meas (a : Nat) (w : Word) : (d.setHw a w).meas = d.meas := rfl
@[simp] theorem Dev.setHw_jobs (a : Nat) (w : Word) : (d.setHw a w).jobs = d.jobs := rfl
@[simp] theorem Dev.setHw_flt (a : Nat) (w : Word) : (d.setHw a w).flt = d.flt := rfl
@[simp] theorem Dev.setHw_pads (a : Nat) (w : Word) : (d.setHw a w).pads = d.pads := rfl
@[simp] theorem Dev.setHw_refs (a : Nat) (w : Word) : (d.setHw a w).refs = d.refs := rfl
@[simp] theorem Dev.setHw_sels (a : Nat) (w : Word) : (d.setHw a w).sels = d.sels := rfl
@[simp] theorem Dev.setHw_selNow (a : Nat) (w : Word) : (d.setHw a w).selNow = d.selNow := rfl
@[simp] theorem Dev.setHw_alive (a : Nat) (w : Word) : (d.setHw a w).alive = d.alive := rfl
@[simp] theorem Dev.setHw_ports (a : Nat) (w : Word) : (d.setHw a w).ports = d.ports := rfl
@[simp] theorem Dev.setHw_beats (a : Nat) (w : Word) : (d.setHw a w).beats = d.beats := rfl
@[simp] theorem Dev.setHw_past (a : Nat) (w : Word) : (d.setHw a w).past = d.past := rfl
@[simp] theorem Dev.setHw_aplls (a : Nat) (w : Word) : (d.setHw a w).aplls = d.aplls := rfl
@[simp] theorem Dev.setHw_outs (a : Nat) (w : Word) : (d.setHw a w).outs = d.outs := rfl
@[simp] theorem Dev.setHw_psyns (a : Nat) (w : Word) : (d.setHw a w).psyns = d.psyns := rfl
@[simp] theorem Dev.setHw_nvmc (a : Nat) (w : Word) : (d.setHw a w).nvmc = d.nvmc := rfl
@[simp] theorem Dev.setHw_chk (a : Nat) (w : Word) : (d.setHw a w).chk = d.chk := rfl
@[simp] theorem Dev.setHw_mbx (a : Nat) (w : Word) : (d.setHw a w).mbx = d.mbx := rfl
@[simp] theorem Dev.setHw_boot (a : Nat) (w : Word) : (d.setHw a w).boot = d.boot := rfl
@[simp] theorem Dev.setHw_front (a : Nat) (w : Word) : (d.setHw a w).front = d.front := rfl
@[simp] theorem Dev.setHw_resetKind (a : Nat) (w : Word) : (d.setHw a w).resetKind = d.resetKind := rfl
@[simp] theorem Dev.setHw_priorMode (a : Nat) (w : Word) : (d.setHw a w).priorMode = d.priorMode := rfl
@[simp] theorem Dev.setHw_undo (a : Nat) (w : Word) : (d.setHw a w).undo = d.undo := rfl
@[simp] theorem Dev.setHw_rsp (a : Nat) (w : Word) : (d.setHw a w).rsp = d.rsp := rfl
@[simp] theorem Dev.setHw_fresh (a : Nat) (w : Word) : (d.setHw a w).fresh = d.fresh := rfl

/-! ### gpioSeen -/

@[simp] theorem Dev.gpioSeen_clk (n : Nat) (h : Bool) : (d.gpioSeen n h).clk = d.clk := rfl
@[simp] theorem Dev.gpioSeen_live (n : Nat) (h : Bool) : (d.gpioSeen n h).live = d.live := rfl
@[simp] theorem Dev.gpioSeen_shadow (n : Nat) (h : Bool) : (d.gpioSeen n h).shadow = d.shadow := rfl
@[simp] theorem Dev.gpioSeen_held (n : Nat) (h : Bool) : (d.gpioSeen n h).held = d.held := rfl
@[simp] theorem Dev.gpioSeen_perMaster (n : Nat) (h : Bool) : (d.gpioSeen n h).perMaster = d.perMaster := rfl
@[simp] theorem Dev.gpioSeen_bumped (n : Nat) (h : Bool) : (d.gpioSeen n h).bumped = d.bumped := rfl
@[simp] theorem Dev.gpioSeen_old (n : Nat) (h : Bool) : (d.gpioSeen n h).old = d.old := rfl
@[simp] theorem Dev.gpioSeen_hwSet (n : Nat) (h : Bool) : (d.gpioSeen n h).hwSet = d.hwSet := rfl
@[simp] theorem Dev.gpioSeen_outside (n : Nat) (h : Bool) : (d.gpioSeen n h).outside = d.outside := rfl
@[simp] theorem Dev.gpioSeen_sram (n : Nat) (h : Bool) : (d.gpioSeen n h).sram = d.sram := rfl
@[simp] theorem Dev.gpioSeen_nvm (n : Nat) (h : Bool) : (d.gpioSeen n h).nvm = d.nvm := rfl
@[simp] theorem Dev.gpioSeen_nvmOnes (n : Nat) (h : Bool) : (d.gpioSeen n h).nvmOnes = d.nvmOnes := rfl
@[simp] theorem Dev.gpioSeen_nvmErrs (n : Nat) (h : Bool) : (d.gpioSeen n h).nvmErrs = d.nvmErrs := rfl
@[simp] theorem Dev.gpioSeen_railLow (n : Nat) (h : Bool) : (d.gpioSeen n h).railLow = d.railLow := rfl
@[simp] theorem Dev.gpioSeen_meas (n : Nat) (h : Bool) : (d.gpioSeen n h).meas = d.meas := rfl
@[simp] theorem Dev.gpioSeen_jobs (n : Nat) (h : Bool) : (d.gpioSeen n h).jobs = d.jobs := rfl
@[simp] theorem Dev.gpioSeen_flt (n : Nat) (h : Bool) : (d.gpioSeen n h).flt = d.flt := rfl
@[simp] theorem Dev.gpioSeen_pads (n : Nat) (h : Bool) : (d.gpioSeen n h).pads = d.pads := rfl
@[simp] theorem Dev.gpioSeen_refs (n : Nat) (h : Bool) : (d.gpioSeen n h).refs = d.refs := rfl
@[simp] theorem Dev.gpioSeen_sels (n : Nat) (h : Bool) : (d.gpioSeen n h).sels = d.sels := rfl
@[simp] theorem Dev.gpioSeen_selNow (n : Nat) (h : Bool) : (d.gpioSeen n h).selNow = d.selNow := rfl
@[simp] theorem Dev.gpioSeen_alive (n : Nat) (h : Bool) : (d.gpioSeen n h).alive = d.alive := rfl
@[simp] theorem Dev.gpioSeen_ports (n : Nat) (h : Bool) : (d.gpioSeen n h).ports = d.ports := rfl
@[simp] theorem Dev.gpioSeen_beats (n : Nat) (h : Bool) : (d.gpioSeen n h).beats = d.beats := rfl
@[simp] theorem Dev.gpioSeen_past (n : Nat) (h : Bool) : (d.gpioSeen n h).past = d.past := rfl
@[simp] theorem Dev.gpioSeen_aplls (n : Nat) (h : Bool) : (d.gpioSeen n h).aplls = d.aplls := rfl
@[simp] theorem Dev.gpioSeen_outs (n : Nat) (h : Bool) : (d.gpioSeen n h).outs = d.outs := rfl
@[simp] theorem Dev.gpioSeen_psyns (n : Nat) (h : Bool) : (d.gpioSeen n h).psyns = d.psyns := rfl
@[simp] theorem Dev.gpioSeen_nvmc (n : Nat) (h : Bool) : (d.gpioSeen n h).nvmc = d.nvmc := rfl
@[simp] theorem Dev.gpioSeen_chk (n : Nat) (h : Bool) : (d.gpioSeen n h).chk = d.chk := rfl
@[simp] theorem Dev.gpioSeen_mbx (n : Nat) (h : Bool) : (d.gpioSeen n h).mbx = d.mbx := rfl
@[simp] theorem Dev.gpioSeen_boot (n : Nat) (h : Bool) : (d.gpioSeen n h).boot = d.boot := rfl
@[simp] theorem Dev.gpioSeen_resetKind (n : Nat) (h : Bool) : (d.gpioSeen n h).resetKind = d.resetKind := rfl
@[simp] theorem Dev.gpioSeen_priorMode (n : Nat) (h : Bool) : (d.gpioSeen n h).priorMode = d.priorMode := rfl
@[simp] theorem Dev.gpioSeen_undo (n : Nat) (h : Bool) : (d.gpioSeen n h).undo = d.undo := rfl
@[simp] theorem Dev.gpioSeen_rsp (n : Nat) (h : Bool) : (d.gpioSeen n h).rsp = d.rsp := rfl
@[simp] theorem Dev.gpioSeen_fresh (n : Nat) (h : Bool) : (d.gpioSeen n h).fresh = d.fresh := rfl
@[simp] theorem Dev.word_gpioSeen (n : Nat) (h : Bool) (r : Nat) : (d.gpioSeen n h).word r = d.word r := rfl
@[simp] theorem Dev.rd_gpioSeen (n : Nat) (h : Bool) (g : Fld) : (d.gpioSeen n h).rd g = d.rd g := rfl
@[simp] theorem Dev.flag_gpioSeen (n : Nat) (h : Bool) (g : Fld) : (d.gpioSeen n h).flag g = d.flag g := rfl

/-! ### learnErrs -/

@[simp] theorem Dev.learnErrs_clk (es : List Nat) : (d.learnErrs es).clk = d.clk := by unfold Dev.learnErrs; split <;> rfl
@[simp] theorem Dev.learnErrs_live (es : List Nat) : (d.learnErrs es).live = d.live := by unfold Dev.learnErrs; split <;> rfl
@[simp] theorem Dev.learnErrs_shadow (es : List Nat) : (d.learnErrs es).shadow = d.shadow := by unfold Dev.learnErrs; split <;> rfl
@[simp] theorem Dev.learnErrs_held (es : List Nat) : (d.learnErrs es).held = d.held := by unfold Dev.learnErrs; split <;> rfl
@[simp] theorem Dev.learnErrs_perMaster (es : List Nat) : (d.learnErrs es).perMaster = d.perMaster := by unfold Dev.learnErrs; split <;> rfl
@[simp] theorem Dev.learnErrs_bumped (es : List Nat) : (d.learnErrs es).bumped = d.bumped := by unfold Dev.learnErrs; split <;> rfl
@[simp] theorem Dev.learnErrs_old (es : List Nat) : (d.learnErrs es).old = d.old := by unfold Dev.learnErrs; split <;> rfl
@[simp] theorem Dev.learnErrs_hwSet (es : List Nat) : (d.learnErrs es).hwSet = d.hwSet := by unfold Dev.learnErrs; split <;> rfl
@[simp] theorem Dev.learnErrs_outside (es : List Nat) : (d.learnErrs es).outside = d.outside := by unfold Dev.learnErrs; split <;> rfl
@[simp] theorem Dev.learnErrs_sram (es : List Nat) : (d.learnErrs es).sram = d.sram := by unfold Dev.learnErrs; split <;> rfl
@[simp] theorem Dev.learnErrs_nvm (es : List Nat) : (d.learnErrs es).nvm = d.nvm := by unfold Dev.learnErrs; split <;> rfl
@[simp] theorem Dev.learnErrs_nvmOnes (es : List Nat) : (d.learnErrs es).nvmOnes = d.nvmOnes := by unfold Dev.learnErrs; split <;> rfl
@[simp] theorem Dev.learnErrs_railLow (es : List Nat) : (d.learnErrs es).railLow = d.railLow := by unfold Dev.learnErrs; split <;> rfl
@[simp] theorem Dev.learnErrs_meas (es : List Nat) : (d.learnErrs es).meas = d.meas := by unfold Dev.learnErrs; split <;> rfl
@[simp] theorem Dev.learnErrs_jobs (es : List Nat) : (d.learnErrs es).jobs = d.jobs := by unfold Dev.learnErrs; split <;> rfl
@[simp] theorem Dev.learnErrs_flt (es : List Nat) : (d.learnErrs es).flt = d.flt := by unfold Dev.learnErrs; split <;> rfl
@[simp] theorem Dev.learnErrs_pads (es : List Nat) : (d.learnErrs es).pads = d.pads := by unfold Dev.learnErrs; split <;> rfl
@[simp] theorem Dev.learnErrs_refs (es : List Nat) : (d.learnErrs es).refs = d.refs := by unfold Dev.learnErrs; split <;> rfl
@[simp] theorem Dev.learnErrs_sels (es : List Nat) : (d.learnErrs es).sels = d.sels := by unfold Dev.learnErrs; split <;> rfl
@[simp] theorem Dev.learnErrs_selNow (es : List Nat) : (d.learnErrs es).selNow = d.selNow := by unfold Dev.learnErrs; split <;> rfl
@[simp] theorem Dev.learnErrs_alive (es : List Nat) : (d.learnErrs es).alive = d.alive := by unfold Dev.learnErrs; split <;> rfl
@[simp] theorem Dev.learnErrs_ports (es : List Nat) : (d.learnErrs es).ports = d.ports := by unfold Dev.learnErrs; split <;> rfl
@[simp] theorem Dev.learnErrs_beats (es : List Nat) : (d.learnErrs es).beats = d.beats := by unfold Dev.learnErrs; split <;> rfl
@[simp] theorem Dev.learnErrs_past (es : List Nat) : (d.learnErrs es).past = d.past := by unfold Dev.learnErrs; split <;> rfl
@[simp] theorem Dev.learnErrs_aplls (es : List Nat) : (d.learnErrs es).aplls = d.aplls := by unfold Dev.learnErrs; split <;> rfl
@[simp] theorem Dev.learnErrs_outs (es : List Nat) : (d.learnErrs es).outs = d.outs := by unfold Dev.learnErrs; split <;> rfl
@[simp] theorem Dev.learnErrs_psyns (es : List Nat) : (d.learnErrs es).psyns = d.psyns := by unfold Dev.learnErrs; split <;> rfl
@[simp] theorem Dev.learnErrs_nvmc (es : List Nat) : (d.learnErrs es).nvmc = d.nvmc := by unfold Dev.learnErrs; split <;> rfl
@[simp] theorem Dev.learnErrs_chk (es : List Nat) : (d.learnErrs es).chk = d.chk := by unfold Dev.learnErrs; split <;> rfl
@[simp] theorem Dev.learnErrs_mbx (es : List Nat) : (d.learnErrs es).mbx = d.mbx := by unfold Dev.learnErrs; split <;> rfl
@[simp] theorem Dev.learnErrs_boot (es : List Nat) : (d.learnErrs es).boot = d.boot := by unfold Dev.learnErrs; split <;> rfl
@[simp] theorem Dev.learnErrs_front (es : List Nat) : (d.learnErrs es).front = d.front := by unfold Dev.learnErrs; split <;> rfl
@[simp] theorem Dev.learnErrs_resetKind (es : List Nat) : (d.learnErrs es).resetKind = d.resetKind := by unfold Dev.learnErrs; split <;> rfl
@[simp] theorem Dev.learnErrs_priorMode (es : List Nat) : (d.learnErrs es).priorMode = d.priorMode := by unfold Dev.learnErrs; split <;> rfl
@[simp] theorem Dev.learnErrs_undo (es : List Nat) : (d.learnErrs es).undo = d.undo := by unfold Dev.learnErrs; split <;> rfl
@[simp] theorem Dev.learnErrs_rsp (es : List Nat) : (d.learnErrs es).rsp = d.rsp := by unfold Dev.learnErrs; split <;> rfl
@[simp] theorem Dev.learnErrs_fresh (es : List Nat) : (d.learnErrs es).fresh = d.fresh := by unfold Dev.learnErrs; split <;> rfl
@[simp] theorem Dev.word_learnErrs (es : List Nat) (r : Nat) : (d.learnErrs es).word r = d.word r := Dev.word_congr (by unfold Dev.learnErrs; split <;> rfl) r
@[simp] theorem Dev.rd_learnErrs (es : List Nat) (g : Fld) : (d.learnErrs es).rd g = d.rd g := Dev.rd_congr (by unfold Dev.learnErrs; split <;> rfl) g
@[simp] theorem Dev.flag_learnErrs (es : List Nat) (g : Fld) : (d.learnErrs es).flag g = d.flag g := Dev.flag_congr (by unfold Dev.learnErrs; split <;> rfl) g

/-! ### queueOn -/

@[simp] theorem Dev.queueOn_clk (f : PFrame) : (d.queueOn f).clk = d.clk := rfl
@[simp] theorem Dev.queueOn_live (f : PFrame) : (d.queueOn f).live = d.live := rfl
@[simp] theorem Dev.queueOn_shadow (f : PFrame) : (d.queueOn f).shadow = d.shadow := rfl
@[simp] theorem Dev.queueOn_held (f : PFrame) : (d.queueOn f).held = d.held := rfl
@[simp] theorem Dev.queueOn_perMaster (f : PFrame) : (d.queueOn f).perMaster = d.perMaster := rfl
@[simp] theorem Dev.queueOn_bumped (f : PFrame) : (d.queueOn f).bumped = d.bumped := rfl
@[simp] theorem Dev.queueOn_old (f : PFrame) : (d.queueOn f).old = d.old := rfl
@[simp] theorem Dev.queueOn_hwSet (f : PFrame) : (d.queueOn f).hwSet = d.hwSet := rfl
@[simp] theorem Dev.queueOn_outside (f : PFrame) : (d.queueOn f).outside = d.outside := rfl
@[simp] theorem Dev.queueOn_sram (f : PFrame) : (d.queueOn f).sram = d.sram := rfl
@[simp] theorem Dev.queueOn_nvm (f : PFrame) : (d.queueOn f).nvm = d.nvm := rfl
@[simp] theorem Dev.queueOn_nvmOnes (f : PFrame) : (d.queueOn f).nvmOnes = d.nvmOnes := rfl
@[simp] theorem Dev.queueOn_nvmErrs (f : PFrame) : (d.queueOn f).nvmErrs = d.nvmErrs := rfl
@[simp] theorem Dev.queueOn_railLow (f : PFrame) : (d.queueOn f).railLow = d.railLow := rfl
@[simp] theorem Dev.queueOn_meas (f : PFrame) : (d.queueOn f).meas = d.meas := rfl
@[simp] theorem Dev.queueOn_jobs (f : PFrame) : (d.queueOn f).jobs = d.jobs := rfl
@[simp] theorem Dev.queueOn_flt (f : PFrame) : (d.queueOn f).flt = d.flt := rfl
@[simp] theorem Dev.queueOn_pads (f : PFrame) : (d.queueOn f).pads = d.pads := rfl
@[simp] theorem Dev.queueOn_refs (f : PFrame) : (d.queueOn f).refs = d.refs := rfl
@[simp] theorem Dev.queueOn_sels (f : PFrame) : (d.queueOn f).sels = d.sels := rfl
@[simp] theorem Dev.queueOn_selNow (f : PFrame) : (d.queueOn f).selNow = d.selNow := rfl
@[simp] theorem Dev.queueOn_alive (f : PFrame) : (d.queueOn f).alive = d.alive := rfl
@[simp] theorem Dev.queueOn_ports (f : PFrame) : (d.queueOn f).ports = d.ports := rfl
@[simp] theorem Dev.queueOn_beats (f : PFrame) : (d.queueOn f).beats = d.beats := rfl
@[simp] theorem Dev.queueOn_aplls (f : PFrame) : (d.queueOn f).aplls = d.aplls := rfl
@[simp] theorem Dev.queueOn_outs (f : PFrame) : (d.queueOn f).outs = d.outs := rfl
@[simp] theorem Dev.queueOn_psyns (f : PFrame) : (d.queueOn f).psyns = d.psyns := rfl
@[simp] theorem Dev.queueOn_nvmc (f : PFrame) : (d.queueOn f).nvmc = d.nvmc := rfl
@[simp] theorem Dev.queueOn_chk (f : PFrame) : (d.queueOn f).chk = d.chk := rfl
@[simp] theorem Dev.queueOn_mbx (f : PFrame) : (d.queueOn f).mbx = d.mbx := rfl
@[simp] theorem Dev.queueOn_boot (f : PFrame) : (d.queueOn f).boot = d.boot := rfl
@[simp] theorem Dev.queueOn_front (f : PFrame) : (d.queueOn f).front = d.front := rfl
@[simp] theorem Dev.queueOn_resetKind (f : PFrame) : (d.queueOn f).resetKind = d.resetKind := rfl
@[simp] theorem Dev.queueOn_priorMode (f : PFrame) : (d.queueOn f).priorMode = d.priorMode := rfl
@[simp] theorem Dev.queueOn_undo (f : PFrame) : (d.queueOn f).undo = d.undo := rfl
@[simp] theorem Dev.queueOn_rsp (f : PFrame) : (d.queueOn f).rsp = d.rsp := rfl
@[simp] theorem Dev.queueOn_fresh (f : PFrame) : (d.queueOn f).fresh = d.fresh := rfl
@[simp] theorem Dev.word_queueOn (f : PFrame) (r : Nat) : (d.queueOn f).word r = d.word r := rfl
@[simp] theorem Dev.rd_queueOn (f : PFrame) (g : Fld) : (d.queueOn f).rd g = d.rd g := rfl
@[simp] theorem Dev.flag_queueOn (f : PFrame) (g : Fld) : (d.queueOn f).flag g = d.flag g := rfl

/-! ### Record updates of one part -/

@[simp] theorem Dev.word_with_clk (x : Clock) (r : Nat) : ({ d with clk := x } : Dev).word r = d.word r := Dev.word_congr rfl r
@[simp] theorem Dev.rd_with_clk (x : Clock) (g : Fld) : ({ d with clk := x } : Dev).rd g = d.rd g := Dev.rd_congr rfl g
@[simp] theorem Dev.flag_with_clk (x : Clock) (g : Fld) : ({ d with clk := x } : Dev).flag g = d.flag g := Dev.flag_congr rfl g
@[simp] theorem Dev.word_with_shadow (x : Store) (r : Nat) : ({ d with shadow := x } : Dev).word r = d.word r := Dev.word_congr rfl r
@[simp] theorem Dev.rd_with_shadow (x : Store) (g : Fld) : ({ d with shadow := x } : Dev).rd g = d.rd g := Dev.rd_congr rfl g
@[simp] theorem Dev.flag_with_shadow (x : Store) (g : Fld) : ({ d with shadow := x } : Dev).flag g = d.flag g := Dev.flag_congr rfl g
@[simp] theorem Dev.word_with_held (x : Store) (r : Nat) : ({ d with held := x } : Dev).word r = d.word r := Dev.word_congr rfl r
@[simp] theorem Dev.rd_with_held (x : Store) (g : Fld) : ({ d with held := x } : Dev).rd g = d.rd g := Dev.rd_congr rfl g
@[simp] theorem Dev.flag_with_held (x : Store) (g : Fld) : ({ d with held := x } : Dev).flag g = d.flag g := Dev.flag_congr rfl g
@[simp] theorem Dev.word_with_perMaster (x : Store) (r : Nat) : ({ d with perMaster := x } : Dev).word r = d.word r := Dev.word_congr rfl r
@[simp] theorem Dev.rd_with_perMaster (x : Store) (g : Fld) : ({ d with perMaster := x } : Dev).rd g = d.rd g := Dev.rd_congr rfl g
@[simp] theorem Dev.flag_with_perMaster (x : Store) (g : Fld) : ({ d with perMaster := x } : Dev).flag g = d.flag g := Dev.flag_congr rfl g
@[simp] theorem Dev.word_with_bumped (x : List (Nat × Nat)) (r : Nat) : ({ d with bumped := x } : Dev).word r = d.word r := Dev.word_congr rfl r
@[simp] theorem Dev.rd_with_bumped (x : List (Nat × Nat)) (g : Fld) : ({ d with bumped := x } : Dev).rd g = d.rd g := Dev.rd_congr rfl g
@[simp] theorem Dev.flag_with_bumped (x : List (Nat × Nat)) (g : Fld) : ({ d with bumped := x } : Dev).flag g = d.flag g := Dev.flag_congr rfl g
@[simp] theorem Dev.word_with_old (x : Store) (r : Nat) : ({ d with old := x } : Dev).word r = d.word r := Dev.word_congr rfl r
@[simp] theorem Dev.rd_with_old (x : Store) (g : Fld) : ({ d with old := x } : Dev).rd g = d.rd g := Dev.rd_congr rfl g
@[simp] theorem Dev.flag_with_old (x : Store) (g : Fld) : ({ d with old := x } : Dev).flag g = d.flag g := Dev.flag_congr rfl g
@[simp] theorem Dev.word_with_hwSet (x : List (Nat × Nat)) (r : Nat) : ({ d with hwSet := x } : Dev).word r = d.word r := Dev.word_congr rfl r
@[simp] theorem Dev.rd_with_hwSet (x : List (Nat × Nat)) (g : Fld) : ({ d with hwSet := x } : Dev).rd g = d.rd g := Dev.rd_congr rfl g
@[simp] theorem Dev.flag_with_hwSet (x : List (Nat × Nat)) (g : Fld) : ({ d with hwSet := x } : Dev).flag g = d.flag g := Dev.flag_congr rfl g
@[simp] theorem Dev.word_with_outside (x : Bool) (r : Nat) : ({ d with outside := x } : Dev).word r = d.word r := Dev.word_congr rfl r
@[simp] theorem Dev.rd_with_outside (x : Bool) (g : Fld) : ({ d with outside := x } : Dev).rd g = d.rd g := Dev.rd_congr rfl g
@[simp] theorem Dev.flag_with_outside (x : Bool) (g : Fld) : ({ d with outside := x } : Dev).flag g = d.flag g := Dev.flag_congr rfl g
@[simp] theorem Dev.word_with_sram (x : ByteMem) (r : Nat) : ({ d with sram := x } : Dev).word r = d.word r := Dev.word_congr rfl r
@[simp] theorem Dev.rd_with_sram (x : ByteMem) (g : Fld) : ({ d with sram := x } : Dev).rd g = d.rd g := Dev.rd_congr rfl g
@[simp] theorem Dev.flag_with_sram (x : ByteMem) (g : Fld) : ({ d with sram := x } : Dev).flag g = d.flag g := Dev.flag_congr rfl g
@[simp] theorem Dev.word_with_nvm (x : ByteMem) (r : Nat) : ({ d with nvm := x } : Dev).word r = d.word r := Dev.word_congr rfl r
@[simp] theorem Dev.rd_with_nvm (x : ByteMem) (g : Fld) : ({ d with nvm := x } : Dev).rd g = d.rd g := Dev.rd_congr rfl g
@[simp] theorem Dev.flag_with_nvm (x : ByteMem) (g : Fld) : ({ d with nvm := x } : Dev).flag g = d.flag g := Dev.flag_congr rfl g
@[simp] theorem Dev.word_with_nvmOnes (x : List Nat) (r : Nat) : ({ d with nvmOnes := x } : Dev).word r = d.word r := Dev.word_congr rfl r
@[simp] theorem Dev.rd_with_nvmOnes (x : List Nat) (g : Fld) : ({ d with nvmOnes := x } : Dev).rd g = d.rd g := Dev.rd_congr rfl g
@[simp] theorem Dev.flag_with_nvmOnes (x : List Nat) (g : Fld) : ({ d with nvmOnes := x } : Dev).flag g = d.flag g := Dev.flag_congr rfl g
@[simp] theorem Dev.word_with_nvmErrs (x : List Nat) (r : Nat) : ({ d with nvmErrs := x } : Dev).word r = d.word r := Dev.word_congr rfl r
@[simp] theorem Dev.rd_with_nvmErrs (x : List Nat) (g : Fld) : ({ d with nvmErrs := x } : Dev).rd g = d.rd g := Dev.rd_congr rfl g
@[simp] theorem Dev.flag_with_nvmErrs (x : List Nat) (g : Fld) : ({ d with nvmErrs := x } : Dev).flag g = d.flag g := Dev.flag_congr rfl g
@[simp] theorem Dev.word_with_railLow (x : List Nat) (r : Nat) : ({ d with railLow := x } : Dev).word r = d.word r := Dev.word_congr rfl r
@[simp] theorem Dev.rd_with_railLow (x : List Nat) (g : Fld) : ({ d with railLow := x } : Dev).rd g = d.rd g := Dev.rd_congr rfl g
@[simp] theorem Dev.flag_with_railLow (x : List Nat) (g : Fld) : ({ d with railLow := x } : Dev).flag g = d.flag g := Dev.flag_congr rfl g
@[simp] theorem Dev.word_with_meas (x : Meas) (r : Nat) : ({ d with meas := x } : Dev).word r = d.word r := Dev.word_congr rfl r
@[simp] theorem Dev.rd_with_meas (x : Meas) (g : Fld) : ({ d with meas := x } : Dev).rd g = d.rd g := Dev.rd_congr rfl g
@[simp] theorem Dev.flag_with_meas (x : Meas) (g : Fld) : ({ d with meas := x } : Dev).flag g = d.flag g := Dev.flag_congr rfl g
@[simp] theorem Dev.word_with_jobs (x : Jobs) (r : Nat) : ({ d with jobs := x } : Dev).word r = d.word r := Dev.word_congr rfl r
@[simp] theorem Dev.rd_with_jobs (x : Jobs) (g : Fld) : ({ d with jobs := x } : Dev).rd g = d.rd g := Dev.rd_congr rfl g
@[simp] theorem Dev.flag_with_jobs (x : Jobs) (g : Fld) : ({ d with jobs := x } : Dev).flag g = d.flag g := Dev.flag_congr rfl g
@[simp] theorem Dev.word_with_flt (x : Flt) (r : Nat) : ({ d with flt := x } : Dev).word r = d.word r := Dev.word_congr rfl r
@[simp] theorem Dev.rd_with_flt (x : Flt) (g : Fld) : ({ d with flt := x } : Dev).rd g = d.rd g := Dev.rd_congr rfl g
@[simp] theorem Dev.flag_with_flt (x : Flt) (g : Fld) : ({ d with flt := x } : Dev).flag g = d.flag g := Dev.flag_congr rfl g
@[simp] theorem Dev.word_with_pads (x : List Paddock) (r : Nat) : ({ d with pads := x } : Dev).word r = d.word r := Dev.word_congr rfl r
@[simp] theorem Dev.rd_with_pads (x : List Paddock) (g : Fld) : ({ d with pads := x } : Dev).rd g = d.rd g := Dev.rd_congr rfl g
@[simp] theorem Dev.flag_with_pads (x : List Paddock) (g : Fld) : ({ d with pads := x } : Dev).flag g = d.flag g := Dev.flag_congr rfl g
@[simp] theorem Dev.word_with_refs (x : List RefMon) (r : Nat) : ({ d with refs := x } : Dev).word r = d.word r := Dev.word_congr rfl r
@[simp] theorem Dev.rd_with_refs (x : List RefMon) (g : Fld) : ({ d with refs := x } : Dev).rd g = d.rd g := Dev.rd_congr rfl g
@[simp] theorem Dev.flag_with_refs (x : List RefMon) (g : Fld) : ({ d with refs := x } : Dev).flag g = d.flag g := Dev.flag_congr rfl g
@[simp] theorem Dev.word_with_sels (x : List Select) (r : Nat) : ({ d with sels := x } : Dev).word r = d.word r := Dev.word_congr rfl r
@[simp] theorem Dev.rd_with_sels (x : List Select) (g : Fld) : ({ d with sels := x } : Dev).rd g = d.rd g := Dev.rd_congr rfl g
@[simp] theorem Dev.flag_with_sels (x : List Select) (g : Fld) : ({ d with sels := x } : Dev).flag g = d.flag g := Dev.flag_congr rfl g
@[simp] theorem Dev.word_with_selNow (x : Option (List Nat)) (r : Nat) : ({ d with selNow := x } : Dev).word r = d.word r := Dev.word_congr rfl r
@[simp] theorem Dev.rd_with_selNow (x : Option (List Nat)) (g : Fld) : ({ d with selNow := x } : Dev).rd g = d.rd g := Dev.rd_congr rfl g
@[simp] theorem Dev.flag_with_selNow (x : Option (List Nat)) (g : Fld) : ({ d with selNow := x } : Dev).flag g = d.flag g := Dev.flag_congr rfl g
@[simp] theorem Dev.word_with_alive (x : List Nat) (r : Nat) : ({ d with alive := x } : Dev).word r = d.word r := Dev.word_congr rfl r
@[simp] theorem Dev.rd_with_alive (x : List Nat) (g : Fld) : ({ d with alive := x } : Dev).rd g = d.rd g := Dev.rd_congr rfl g
@[simp] theorem Dev.flag_with_alive (x : List Nat) (g : Fld) : ({ d with alive := x } : Dev).flag g = d.flag g := Dev.flag_congr rfl g
@[simp] theorem Dev.word_with_ports (x : List Port) (r : Nat) : ({ d with ports := x } : Dev).word r = d.word r := Dev.word_congr rfl r
@[simp] theorem Dev.rd_with_ports (x : List Port) (g : Fld) : ({ d with ports := x } : Dev).rd g = d.rd g := Dev.rd_congr rfl g
@[simp] theorem Dev.flag_with_ports (x : List Port) (g : Fld) : ({ d with ports := x } : Dev).flag g = d.flag g := Dev.flag_congr rfl g
@[simp] theorem Dev.word_with_beats (x : List Beat) (r : Nat) : ({ d with beats := x } : Dev).word r = d.word r := Dev.word_congr rfl r
@[simp] theorem Dev.rd_with_beats (x : List Beat) (g : Fld) : ({ d with beats := x } : Dev).rd g = d.rd g := Dev.rd_congr rfl g
@[simp] theorem Dev.flag_with_beats (x : List Beat) (g : Fld) : ({ d with beats := x } : Dev).flag g = d.flag g := Dev.flag_congr rfl g
@[simp] theorem Dev.word_with_past (x : Past) (r : Nat) : ({ d with past := x } : Dev).word r = d.word r := Dev.word_congr rfl r
@[simp] theorem Dev.rd_with_past (x : Past) (g : Fld) : ({ d with past := x } : Dev).rd g = d.rd g := Dev.rd_congr rfl g
@[simp] theorem Dev.flag_with_past (x : Past) (g : Fld) : ({ d with past := x } : Dev).flag g = d.flag g := Dev.flag_congr rfl g
@[simp] theorem Dev.word_with_aplls (x : List Apll) (r : Nat) : ({ d with aplls := x } : Dev).word r = d.word r := Dev.word_congr rfl r
@[simp] theorem Dev.rd_with_aplls (x : List Apll) (g : Fld) : ({ d with aplls := x } : Dev).rd g = d.rd g := Dev.rd_congr rfl g
@[simp] theorem Dev.flag_with_aplls (x : List Apll) (g : Fld) : ({ d with aplls := x } : Dev).flag g = d.flag g := Dev.flag_congr rfl g
@[simp] theorem Dev.word_with_outs (x : List OutSt) (r : Nat) : ({ d with outs := x } : Dev).word r = d.word r := Dev.word_congr rfl r
@[simp] theorem Dev.rd_with_outs (x : List OutSt) (g : Fld) : ({ d with outs := x } : Dev).rd g = d.rd g := Dev.rd_congr rfl g
@[simp] theorem Dev.flag_with_outs (x : List OutSt) (g : Fld) : ({ d with outs := x } : Dev).flag g = d.flag g := Dev.flag_congr rfl g
@[simp] theorem Dev.word_with_psyns (x : List Psyn) (r : Nat) : ({ d with psyns := x } : Dev).word r = d.word r := Dev.word_congr rfl r
@[simp] theorem Dev.rd_with_psyns (x : List Psyn) (g : Fld) : ({ d with psyns := x } : Dev).rd g = d.rd g := Dev.rd_congr rfl g
@[simp] theorem Dev.flag_with_psyns (x : List Psyn) (g : Fld) : ({ d with psyns := x } : Dev).flag g = d.flag g := Dev.flag_congr rfl g
@[simp] theorem Dev.word_with_nvmc (x : NvmCtl) (r : Nat) : ({ d with nvmc := x } : Dev).word r = d.word r := Dev.word_congr rfl r
@[simp] theorem Dev.rd_with_nvmc (x : NvmCtl) (g : Fld) : ({ d with nvmc := x } : Dev).rd g = d.rd g := Dev.rd_congr rfl g
@[simp] theorem Dev.flag_with_nvmc (x : NvmCtl) (g : Fld) : ({ d with nvmc := x } : Dev).flag g = d.flag g := Dev.flag_congr rfl g
@[simp] theorem Dev.word_with_chk (x : Chk) (r : Nat) : ({ d with chk := x } : Dev).word r = d.word r := Dev.word_congr rfl r
@[simp] theorem Dev.rd_with_chk (x : Chk) (g : Fld) : ({ d with chk := x } : Dev).rd g = d.rd g := Dev.rd_congr rfl g
@[simp] theorem Dev.flag_with_chk (x : Chk) (g : Fld) : ({ d with chk := x } : Dev).flag g = d.flag g := Dev.flag_congr rfl g
@[simp] theorem Dev.word_with_mbx (x : Mbx) (r : Nat) : ({ d with mbx := x } : Dev).word r = d.word r := Dev.word_congr rfl r
@[simp] theorem Dev.rd_with_mbx (x : Mbx) (g : Fld) : ({ d with mbx := x } : Dev).rd g = d.rd g := Dev.rd_congr rfl g
@[simp] theorem Dev.flag_with_mbx (x : Mbx) (g : Fld) : ({ d with mbx := x } : Dev).flag g = d.flag g := Dev.flag_congr rfl g
@[simp] theorem Dev.word_with_boot (x : Boot) (r : Nat) : ({ d with boot := x } : Dev).word r = d.word r := Dev.word_congr rfl r
@[simp] theorem Dev.rd_with_boot (x : Boot) (g : Fld) : ({ d with boot := x } : Dev).rd g = d.rd g := Dev.rd_congr rfl g
@[simp] theorem Dev.flag_with_boot (x : Boot) (g : Fld) : ({ d with boot := x } : Dev).flag g = d.flag g := Dev.flag_congr rfl g
@[simp] theorem Dev.word_with_front (x : Front) (r : Nat) : ({ d with front := x } : Dev).word r = d.word r := Dev.word_congr rfl r
@[simp] theorem Dev.rd_with_front (x : Front) (g : Fld) : ({ d with front := x } : Dev).rd g = d.rd g := Dev.rd_congr rfl g
@[simp] theorem Dev.flag_with_front (x : Front) (g : Fld) : ({ d with front := x } : Dev).flag g = d.flag g := Dev.flag_congr rfl g
@[simp] theorem Dev.word_with_resetKind (x : ResetKind) (r : Nat) : ({ d with resetKind := x } : Dev).word r = d.word r := Dev.word_congr rfl r
@[simp] theorem Dev.rd_with_resetKind (x : ResetKind) (g : Fld) : ({ d with resetKind := x } : Dev).rd g = d.rd g := Dev.rd_congr rfl g
@[simp] theorem Dev.flag_with_resetKind (x : ResetKind) (g : Fld) : ({ d with resetKind := x } : Dev).flag g = d.flag g := Dev.flag_congr rfl g
@[simp] theorem Dev.word_with_priorMode (x : Mode) (r : Nat) : ({ d with priorMode := x } : Dev).word r = d.word r := Dev.word_congr rfl r
@[simp] theorem Dev.rd_with_priorMode (x : Mode) (g : Fld) : ({ d with priorMode := x } : Dev).rd g = d.rd g := Dev.rd_congr rfl g
@[simp] theorem Dev.flag_with_priorMode (x : Mode) (g : Fld) : ({ d with priorMode := x } : Dev).flag g = d.flag g := Dev.flag_congr rfl g
@[simp] theorem Dev.word_with_undo (x : Option Undo) (r : Nat) : ({ d with undo := x } : Dev).word r = d.word r := Dev.word_congr rfl r
@[simp] theorem Dev.rd_with_undo (x : Option Undo) (g : Fld) : ({ d with undo := x } : Dev).rd g = d.rd g := Dev.rd_congr rfl g
@[simp] theorem Dev.flag_with_undo (x : Option Undo) (g : Fld) : ({ d with undo := x } : Dev).flag g = d.flag g := Dev.flag_congr rfl g
@[simp] theorem Dev.word_with_rsp (x : List Word) (r : Nat) : ({ d with rsp := x } : Dev).word r = d.word r := Dev.word_congr rfl r
@[simp] theorem Dev.rd_with_rsp (x : List Word) (g : Fld) : ({ d with rsp := x } : Dev).rd g = d.rd g := Dev.rd_congr rfl g
@[simp] theorem Dev.flag_with_rsp (x : List Word) (g : Fld) : ({ d with rsp := x } : Dev).flag g = d.flag g := Dev.flag_congr rfl g
@[simp] theorem Dev.word_with_fresh (x : Nat) (r : Nat) : ({ d with fresh := x } : Dev).word r = d.word r := Dev.word_congr rfl r
@[simp] theorem Dev.rd_with_fresh (x : Nat) (g : Fld) : ({ d with fresh := x } : Dev).rd g = d.rd g := Dev.rd_congr rfl g
@[simp] theorem Dev.flag_with_fresh (x : Nat) (g : Fld) : ({ d with fresh := x } : Dev).flag g = d.flag g := Dev.flag_congr rfl g

@[simp] theorem Dev.advance_tclk (dt : Nat) : (d.advance dt).clk.tclk = d.clk.tclk + dt := rfl

end Sys2Proof.Machine
end

