-- ==== Sys2Proof/Laws/Ops.lean ====
section
/-!
SUPPORT. Laws of the stores, the memories and the register operations: what a write changes and what it leaves, and that the
canonical forms are kept.
-/

namespace Sys2Proof.Machine

/-! ### Bit fields -/

theorem bitsOf_lt (w hi lo : Nat) : bitsOf w hi lo < 2 ^ (hi - lo + 1) := Nat.mod_lt _ (by positivity)

theorem bitsOf_eq (w hi lo : Nat) : bitsOf w hi lo = w / 2 ^ lo % 2 ^ (hi - lo + 1) := by
  rw [bitsOf, Nat.shiftRight_eq_div_pow]

/-- A word as what lies above a field, the field, and what lies below it. -/
theorem split_word (w hi lo : Nat) :
    w = w / 2 ^ (lo + (hi - lo + 1)) * 2 ^ (lo + (hi - lo + 1)) + bitsOf w hi lo * 2 ^ lo + w % 2 ^ lo := by
  rw [bitsOf_eq, Nat.pow_add, ← Nat.div_div_eq_div_mul]
  have h1 := Nat.div_add_mod w (2 ^ lo)
  have h2 := Nat.div_add_mod (w / 2 ^ lo) (2 ^ (hi - lo + 1))
  calc w = 2 ^ lo * (w / 2 ^ lo) + w % 2 ^ lo := h1.symm
    _ = 2 ^ lo * (2 ^ (hi - lo + 1) * (w / 2 ^ lo / 2 ^ (hi - lo + 1)) + w / 2 ^ lo % 2 ^ (hi - lo + 1)) + w % 2 ^ lo := by
        rw [h2]
    _ = _ := by ring

theorem setBits_eq (w hi lo v : Nat) :
    setBits w hi lo v = w / 2 ^ (lo + (hi - lo + 1)) * 2 ^ (lo + (hi - lo + 1)) +
      (v % 2 ^ (hi - lo + 1)) * 2 ^ lo + w % 2 ^ lo := by
  have h := split_word w hi lo
  unfold setBits
  rw [Nat.shiftLeft_eq, Nat.shiftLeft_eq]
  omega

theorem bitsOf_setBits (w hi lo v : Nat) : bitsOf (setBits w hi lo v) hi lo = v % 2 ^ (hi - lo + 1) := by
  have hr : w % 2 ^ lo < 2 ^ lo := Nat.mod_lt _ (by positivity)
  rw [bitsOf_eq, setBits_eq, Nat.pow_add]
  have : w / (2 ^ lo * 2 ^ (hi - lo + 1)) * (2 ^ lo * 2 ^ (hi - lo + 1)) + v % 2 ^ (hi - lo + 1) * 2 ^ lo + w % 2 ^ lo
      = w % 2 ^ lo + 2 ^ lo * (v % 2 ^ (hi - lo + 1) + 2 ^ (hi - lo + 1) * (w / (2 ^ lo * 2 ^ (hi - lo + 1)))) := by ring
  rw [this, Nat.add_mul_div_left _ _ (by positivity), Nat.div_eq_of_lt hr, Nat.zero_add, Nat.add_mul_mod_self_left,
    Nat.mod_mod]

theorem bitsOf_setBits_above (w hi lo v hi' lo' : Nat) (h : lo + (hi - lo + 1) ≤ lo') :
    bitsOf (setBits w hi lo v) hi' lo' = bitsOf w hi' lo' := by
  obtain ⟨k, rfl⟩ := Nat.exists_eq_add_of_le h
  have hr : w % 2 ^ lo < 2 ^ lo := Nat.mod_lt _ (by positivity)
  have hv : v % 2 ^ (hi - lo + 1) < 2 ^ (hi - lo + 1) := Nat.mod_lt _ (by positivity)
  have key : setBits w hi lo v / 2 ^ (lo + (hi - lo + 1)) = w / 2 ^ (lo + (hi - lo + 1)) := by
    rw [setBits_eq]
    have hlt : v % 2 ^ (hi - lo + 1) * 2 ^ lo + w % 2 ^ lo < 2 ^ (lo + (hi - lo + 1)) := by
      calc v % 2 ^ (hi - lo + 1) * 2 ^ lo + w % 2 ^ lo < v % 2 ^ (hi - lo + 1) * 2 ^ lo + 2 ^ lo := by omega
        _ = (v % 2 ^ (hi - lo + 1) + 1) * 2 ^ lo := by ring
        _ ≤ 2 ^ (hi - lo + 1) * 2 ^ lo := Nat.mul_le_mul_right _ hv
        _ = 2 ^ (lo + (hi - lo + 1)) := by rw [Nat.pow_add 2 lo, Nat.mul_comm]
    rw [Nat.add_assoc, Nat.add_comm, Nat.add_mul_div_right _ _ (by positivity), Nat.div_eq_of_lt hlt, Nat.zero_add]
  rw [bitsOf_eq, bitsOf_eq, Nat.pow_add 2 (lo + (hi - lo + 1)) k, ← Nat.div_div_eq_div_mul, ← Nat.div_div_eq_div_mul, key]

theorem bitsOf_setBits_below (w hi lo v hi' lo' : Nat) (h : hi' < lo) (h' : lo' ≤ hi') :
    bitsOf (setBits w hi lo v) hi' lo' = bitsOf w hi' lo' := by
  have key : setBits w hi lo v % 2 ^ lo = w % 2 ^ lo := by
    rw [setBits_eq, Nat.pow_add]
    have : w / (2 ^ lo * 2 ^ (hi - lo + 1)) * (2 ^ lo * 2 ^ (hi - lo + 1)) + v % 2 ^ (hi - lo + 1) * 2 ^ lo + w % 2 ^ lo
      = w % 2 ^ lo + 2 ^ lo * (v % 2 ^ (hi - lo + 1) + 2 ^ (hi - lo + 1) * (w / (2 ^ lo * 2 ^ (hi - lo + 1)))) := by ring
    rw [this, Nat.add_mul_mod_self_left, Nat.mod_mod]
  have low : ∀ x : Nat, bitsOf x hi' lo' = bitsOf (x % 2 ^ lo) hi' lo' := by
    intro x
    obtain ⟨k, rfl⟩ : ∃ k, lo = lo' + (hi' - lo' + 1) + k := ⟨lo - (hi' + 1), by omega⟩
    rw [bitsOf_eq, bitsOf_eq, Nat.add_assoc, Nat.pow_add 2 lo', Nat.mod_mul_right_div_self, Nat.pow_add 2 (hi' - lo' + 1),
    Nat.mod_mul_right_mod]
  rw [low, key, ← low]

theorem bitsOf_mod (w hi lo : Nat) (h : hi < 32) (h' : lo ≤ hi) : bitsOf (w % 2 ^ 32) hi lo = bitsOf w hi lo := by
  obtain ⟨k, hk⟩ : ∃ k, 32 = lo + (hi - lo + 1) + k := ⟨32 - (hi + 1), by omega⟩
  rw [bitsOf_eq, bitsOf_eq, hk, Nat.add_assoc, Nat.pow_add 2 lo, Nat.mod_mul_right_div_self, Nat.pow_add 2 (hi - lo + 1),
    Nat.mod_mul_right_mod]

theorem b2n_ne_zero (b : Bool) : (b2n b ≠ 0) = (b = true) := by cases b <;> simp [b2n]

/-! ### Stores -/

theorem Store.get_erase_of_ne (st : Store) (k k' : Nat) (v : Word) (h : k' ≠ k) :
    (st.erase k).get k' v = st.get k' v := by
  induction st with
  | nil => rfl
  | cons e t ih =>
    obtain ⟨a, w⟩ := e
    by_cases ha : a = k
    · simp [Store.erase, Store.get, ha, ih, Ne.symm h]
    · by_cases hb : a = k'
      · subst hb; simp [Store.erase, Store.get, ha]
      · simp [Store.erase, Store.get, ha, hb, ih]

theorem Store.get_erase_self (st : Store) (k : Nat) (v : Word) : (st.erase k).get k v = v := by
  induction st with
  | nil => rfl
  | cons e t ih =>
    obtain ⟨a, w⟩ := e
    by_cases ha : a = k <;> simp [Store.erase, Store.get, ha, ih]

theorem Store.erase_ne (st : Store) (k : Nat) : ∀ e ∈ st.erase k, e.1 ≠ k := by
  induction st with
  | nil => simp [Store.erase]
  | cons e t ih =>
    obtain ⟨a, w⟩ := e
    by_cases ha : a = k
    · simpa [Store.erase, ha] using ih
    · simp only [Store.erase, ha, if_false, List.mem_cons]
      rintro e (rfl | he)
      · exact ha
      · exact ih e he

theorem Store.get_insert_self (st : Store) (k : Nat) (v d : Word) (hne : ∀ e ∈ st, e.1 ≠ k) :
    (st.insert k v).get k d = v := by
  induction st with
  | nil => simp [Store.insert, Store.get]
  | cons e t ih =>
    obtain ⟨a, w⟩ := e
    have ha : a ≠ k := hne (a, w) (by simp)
    by_cases hk : k < a
    · simp [Store.insert, Store.get, hk]
    · simp [Store.insert, Store.get, hk, ha]
      exact ih fun e he => hne e (by simp [he])

theorem Store.get_insert_of_ne (st : Store) (k k' : Nat) (v d : Word) (h : k' ≠ k) :
    (st.insert k v).get k' d = st.get k' d := by
  induction st with
  | nil => simp [Store.insert, Store.get, Ne.symm h]
  | cons e t ih =>
    obtain ⟨a, w⟩ := e
    by_cases hk : k < a
    · simp [Store.insert, Store.get, hk, Ne.symm h]
    · by_cases ha : a = k'
      · subst ha; simp [Store.insert, Store.get, hk]
      · simp [Store.insert, Store.get, hk, ha, ih]

/-- A key reads what was last put there. -/
theorem Store.get_put_self (st : Store) (k : Nat) (v d : Word) : (st.put k v d).get k d = v := by
  unfold Store.put
  split
  · next h => rw [Store.get_erase_self, h]
  · exact Store.get_insert_self _ _ _ _ (Store.erase_ne st k)

/-- A put leaves every other key. -/
theorem Store.get_put_of_ne (st : Store) (k k' : Nat) (v d d' : Word) (h : k' ≠ k) :
    (st.put k v d).get k' d' = st.get k' d' := by
  unfold Store.put
  split
  · exact Store.get_erase_of_ne _ _ _ _ h
  · rw [Store.get_insert_of_ne _ _ _ _ _ h, Store.get_erase_of_ne _ _ _ _ h]

/-! ### The canonical form of a store -/

/-- Every key of the store is above `k`. -/
theorem Store.wf_tail (dflt : Nat → Word) (e : Nat × Word) (t : Store) (h : Store.wf dflt (e :: t) = true) :
    Store.wf dflt t = true := by
  cases t with
  | nil => rfl
  | cons e' t => obtain ⟨k, v⟩ := e; obtain ⟨k', v'⟩ := e'; simp [Store.wf] at h; exact h.2

theorem Store.wf_cons_iff (dflt : Nat → Word) (k : Nat) (v : Word) (t : Store) :
    Store.wf dflt ((k, v) :: t) = true ↔ v ≠ dflt k ∧ (∀ e ∈ t, k < e.1) ∧ Store.wf dflt t = true := by
  induction t generalizing k v with
  | nil => simp [Store.wf]
  | cons e' t ih =>
    obtain ⟨k', v'⟩ := e'
    simp only [Store.wf, Bool.and_eq_true, decide_eq_true_eq, bne_iff_ne, List.mem_cons]
    constructor
    · rintro ⟨⟨hk, hv⟩, hw⟩
      refine ⟨hv, ?_, hw⟩
      rintro e (rfl | he)
      · exact hk
      · exact Nat.lt_trans hk (((ih k' v').1 hw).2.1 e he)
    · rintro ⟨hv, hl, hw⟩
      exact ⟨⟨hl _ (Or.inl rfl), hv⟩, hw⟩

theorem Store.mem_erase (st : Store) (k : Nat) (e : Nat × Word) (h : e ∈ st.erase k) : e ∈ st := by
  induction st with
  | nil => simp [Store.erase] at h
  | cons e' t ih =>
    obtain ⟨a, w⟩ := e'
    by_cases ha : a = k
    · simp [Store.erase, ha] at h; exact List.mem_cons_of_mem _ (ih h)
    · simp only [Store.erase, ha, if_false, List.mem_cons] at h
      rcases h with rfl | h
      · simp
      · exact List.mem_cons_of_mem _ (ih h)

theorem Store.mem_insert (st : Store) (k : Nat) (v : Word) (e : Nat × Word) (h : e ∈ st.insert k v) :
    e = (k, v) ∨ e ∈ st := by
  induction st with
  | nil => simpa [Store.insert] using h
  | cons e' t ih =>
    obtain ⟨a, w⟩ := e'
    by_cases hk : k < a
    · simpa [Store.insert, hk] using h
    · simp only [Store.insert, hk, if_false, List.mem_cons] at h
      rcases h with rfl | h
      · right; simp
      · rcases ih h with rfl | h
        · left; rfl
        · right; simp [h]

theorem Store.wf_erase (dflt : Nat → Word) (st : Store) (k : Nat) (h : Store.wf dflt st = true) :
    Store.wf dflt (st.erase k) = true := by
  induction st with
  | nil => rfl
  | cons e t ih =>
    obtain ⟨a, w⟩ := e
    obtain ⟨hv, hl, hw⟩ := (Store.wf_cons_iff dflt a w t).1 h
    by_cases ha : a = k
    · simpa [Store.erase, ha] using ih hw
    · simp only [Store.erase, ha, if_false]
      exact (Store.wf_cons_iff dflt a w _).2 ⟨hv, fun e he => hl e (Store.mem_erase t k e he), ih hw⟩

theorem Store.wf_insert (dflt : Nat → Word) (st : Store) (k : Nat) (v : Word) (hv : v ≠ dflt k)
    (hne : ∀ e ∈ st, e.1 ≠ k) (h : Store.wf dflt st = true) : Store.wf dflt (st.insert k v) = true := by
  induction st with
  | nil => simpa [Store.insert, Store.wf] using hv
  | cons e t ih =>
    obtain ⟨a, w⟩ := e
    obtain ⟨hw1, hl, hw⟩ := (Store.wf_cons_iff dflt a w t).1 h
    have ha : a ≠ k := hne (a, w) (by simp)
    by_cases hk : k < a
    · simp only [Store.insert, hk, if_true]
      refine (Store.wf_cons_iff dflt k v _).2 ⟨hv, ?_, h⟩
      intro e he
      rcases List.mem_cons.1 he with rfl | he
      · exact hk
      · exact Nat.lt_trans hk (hl e he)
    · simp only [Store.insert, hk, if_false]
      refine (Store.wf_cons_iff dflt a w _).2 ⟨hw1, ?_, ih (fun e he => hne e (by simp [he])) hw⟩
      intro e he
      rcases Store.mem_insert t k v e he with rfl | he
      · show a < k; omega
      · exact hl e he

/-- A put keeps the canonical form. -/
theorem Store.wf_put (dflt : Nat → Word) (st : Store) (k : Nat) (v : Word) (h : Store.wf dflt st = true) :
    Store.wf dflt (st.put k v (dflt k)) = true := by
  unfold Store.put
  split
  · exact Store.wf_erase dflt st k h
  · next hv => exact Store.wf_insert dflt _ k v hv (Store.erase_ne st k) (Store.wf_erase dflt st k h)

/-! ### Byte memories -/

theorem ByteMem.wf_cons_iff (z : Byte) (lo hi a : Nat) (v : Byte) (t : ByteMem) :
    ByteMem.wf z lo hi ((a, v) :: t) = true ↔
      lo ≤ a ∧ a < hi ∧ v ≠ z ∧ (∀ e ∈ t, a < e.1) ∧ ByteMem.wf z lo hi t = true := by
  induction t generalizing a v with
  | nil => simp [ByteMem.wf, and_assoc]
  | cons e' t ih =>
    obtain ⟨b, w⟩ := e'
    simp only [ByteMem.wf, Bool.and_eq_true, decide_eq_true_eq, bne_iff_ne, List.mem_cons]
    constructor
    · rintro ⟨⟨⟨h1, h2⟩, h3⟩, h4⟩
      obtain ⟨g1, g2, g3, g4, g5⟩ := (ih b w).1 h4
      refine ⟨h1, by omega, h3, ?_, h4⟩
      rintro e (rfl | he)
      · exact h2
      · exact Nat.lt_trans h2 (g4 e he)
    · rintro ⟨h1, h2, h3, h4, h5⟩
      exact ⟨⟨⟨h1, h4 _ (Or.inl rfl)⟩, h3⟩, h5⟩

theorem ByteMem.wf_nil (z : Byte) (lo hi : Nat) : ByteMem.wf z lo hi [] = true := rfl

/-- Leaving entries out keeps the canonical form. -/
theorem ByteMem.wf_filter (z : Byte) (lo hi : Nat) (m : ByteMem) (p : Nat × Byte → Bool)
    (h : ByteMem.wf z lo hi m = true) : ByteMem.wf z lo hi (m.filter p) = true := by
  induction m with
  | nil => rfl
  | cons e t ih =>
    obtain ⟨a, v⟩ := e
    obtain ⟨h1, h2, h3, h4, h5⟩ := (ByteMem.wf_cons_iff z lo hi a v t).1 h
    by_cases hp : p (a, v) = true
    · rw [List.filter_cons_of_pos hp]
      exact (ByteMem.wf_cons_iff z lo hi a v _).2
        ⟨h1, h2, h3, fun e he => h4 e (List.mem_of_mem_filter he), ih h5⟩
    · rw [List.filter_cons_of_neg hp]
      exact ih h5

/-- Memories of which one ends before the other begins join to a canonical one. -/
theorem ByteMem.wf_append (z : Byte) (lo hi : Nat) (m m' : ByteMem) (h : ByteMem.wf z lo hi m = true)
    (h' : ByteMem.wf z lo hi m' = true) (hlt : ∀ e ∈ m, ∀ e' ∈ m', e.1 < e'.1) : ByteMem.wf z lo hi (m ++ m') = true := by
  induction m with
  | nil => exact h'
  | cons e t ih =>
    obtain ⟨a, v⟩ := e
    obtain ⟨h1, h2, h3, h4, h5⟩ := (ByteMem.wf_cons_iff z lo hi a v t).1 h
    refine (ByteMem.wf_cons_iff z lo hi a v _).2 ⟨h1, h2, h3, ?_, ih h5 fun e he => hlt e (by simp [he])⟩
    intro e he
    rcases List.mem_append.1 he with he | he
    · exact h4 e he
    · exact hlt (a, v) (by simp) e he

theorem ByteMem.listed_range (z : Byte) (bs : List Byte) (a : Nat) :
    ∀ e ∈ ByteMem.listed z a bs, a ≤ e.1 ∧ e.1 < a + bs.length := by
  induction bs generalizing a with
  | nil => simp [ByteMem.listed]
  | cons b t ih =>
    intro e he
    unfold ByteMem.listed at he
    split at he
    · have := ih (a + 1) e he; simp only [List.length_cons]; omega
    · rcases List.mem_cons.1 he with rfl | he
      · simp only [List.length_cons]; omega
      · have := ih (a + 1) e he; simp only [List.length_cons]; omega

theorem ByteMem.wf_listed (z : Byte) (lo hi : Nat) (bs : List Byte) (a : Nat) (h1 : lo ≤ a) (h2 : a + bs.length ≤ hi) :
    ByteMem.wf z lo hi (ByteMem.listed z a bs) = true := by
  induction bs generalizing a with
  | nil => rfl
  | cons b t ih =>
    simp only [List.length_cons] at h2
    unfold ByteMem.listed
    split
    · exact ih (a + 1) (by omega) (by omega)
    · next hb =>
      refine (ByteMem.wf_cons_iff z lo hi a b _).2 ⟨h1, by omega, hb, ?_, ih (a + 1) (by omega) (by omega)⟩
      intro e he
      have := ByteMem.listed_range z t (a + 1) e he
      omega

/-- Writing bytes within the range of a memory keeps its canonical form. -/
theorem ByteMem.wf_blit (z : Byte) (lo hi : Nat) (m : ByteMem) (a : Nat) (bs : List Byte)
    (h : ByteMem.wf z lo hi m = true) (h1 : lo ≤ a) (h2 : a + bs.length ≤ hi) :
    ByteMem.wf z lo hi (ByteMem.blit m z a bs) = true := by
  unfold ByteMem.blit
  refine ByteMem.wf_append z lo hi _ _ (ByteMem.wf_append z lo hi _ _ (ByteMem.wf_filter z lo hi m _ h)
    (ByteMem.wf_listed z lo hi bs a h1 h2) ?_) (ByteMem.wf_filter z lo hi m _ h) ?_
  · intro e he e' he'
    have h3 := (List.mem_filter.1 he).2
    have h4 := ByteMem.listed_range z bs a e' he'
    simp at h3
    omega
  · intro e he e' he'
    have h5 := (List.mem_filter.1 he').2
    simp at h5
    rcases List.mem_append.1 he with he | he
    · have h3 := (List.mem_filter.1 he).2
      simp at h3
      omega
    · have h4 := ByteMem.listed_range z bs a e he
      omega

/-- Clearing a range keeps the canonical form. -/
theorem ByteMem.wf_store (z : Byte) (lo hi : Nat) (m : ByteMem) (a : Nat) (bs : List Byte)
    (h : ByteMem.wf z lo hi m = true) : ByteMem.wf z lo hi (ByteMem.store m z lo hi a bs) = true := by
  unfold ByteMem.store
  split
  · rename_i hr; exact ByteMem.wf_blit z lo hi m a bs h hr.1 hr.2
  · exact h

theorem ByteMem.wf_clear (z : Byte) (lo hi : Nat) (m : ByteMem) (a n : Nat) (h : ByteMem.wf z lo hi m = true) :
    ByteMem.wf z lo hi (ByteMem.clear m a n) = true := ByteMem.wf_filter z lo hi m _ h

theorem ByteMem.get_eq_of_forall_ne (m : ByteMem) (z : Byte) (a : Nat) (h : ∀ e ∈ m, e.1 ≠ a) : ByteMem.get m z a = z := by
  induction m with
  | nil => rfl
  | cons e t ih =>
    obtain ⟨b, v⟩ := e
    have hb : b ≠ a := h (b, v) (by simp)
    simp [ByteMem.get, hb]
    exact ih fun e he => h e (by simp [he])

theorem ByteMem.get_append (m m' : ByteMem) (z : Byte) (a : Nat) (h : ∀ e ∈ m, e.1 ≠ a) :
    ByteMem.get (m ++ m') z a = ByteMem.get m' z a := by
  induction m with
  | nil => rfl
  | cons e t ih =>
    obtain ⟨b, v⟩ := e
    have hb : b ≠ a := h (b, v) (by simp)
    simp [ByteMem.get, hb]
    exact ih fun e he => h e (by simp [he])

theorem ByteMem.get_append_left (m m' : ByteMem) (z : Byte) (a : Nat) (h : ∀ e ∈ m', e.1 ≠ a) :
    ByteMem.get (m ++ m') z a = ByteMem.get m z a := by
  induction m with
  | nil => exact ByteMem.get_eq_of_forall_ne m' z a h
  | cons e t ih =>
    obtain ⟨b, v⟩ := e
    by_cases hb : b = a <;> simp [ByteMem.get, hb, ih]

theorem ByteMem.get_filter (m : ByteMem) (z : Byte) (a : Nat) (p : Nat × Byte → Bool) (h : ∀ e : Nat × Byte, e.1 = a → p e = true) :
    ByteMem.get (m.filter p) z a = ByteMem.get m z a := by
  induction m with
  | nil => rfl
  | cons e t ih =>
    obtain ⟨b, v⟩ := e
    by_cases hp : p (b, v) = true
    · rw [List.filter_cons_of_pos hp]
      by_cases hb : b = a <;> simp [ByteMem.get, hb, ih]
    · rw [List.filter_cons_of_neg hp]
      have hb : b ≠ a := fun hb => hp (h (b, v) hb)
      simp [ByteMem.get, hb, ih]

theorem ByteMem.get_listed (z : Byte) (bs : List Byte) (a k : Nat) (h : k < bs.length) :
    ByteMem.get (ByteMem.listed z a bs) z (a + k) = bs[k] := by
  induction bs generalizing a k with
  | nil => simp at h
  | cons b t ih =>
    unfold ByteMem.listed
    cases k with
    | zero =>
      split
      · next hb =>
        rw [ByteMem.get_eq_of_forall_ne]
        · simp [hb]
        · intro e he
          have := ByteMem.listed_range z t (a + 1) e he
          omega
      · simp [ByteMem.get]
    | succ k =>
      have hk : k < t.length := by simpa using h
      have := ih (a + 1) k hk
      have e : a + (k + 1) = a + 1 + k := by omega
      split
      · rw [e]; simpa using this
      · have : a ≠ a + (k + 1) := by omega
        simp only [ByteMem.get, this, if_false]
        rw [e]; simpa using ih (a + 1) k hk

/-- A byte within a written range reads as written. -/
theorem ByteMem.get_blit (m : ByteMem) (z : Byte) (a k : Nat) (bs : List Byte) (h : k < bs.length) :
    ByteMem.get (ByteMem.blit m z a bs) z (a + k) = bs[k] := by
  unfold ByteMem.blit
  rw [List.append_assoc, ByteMem.get_append, ByteMem.get_append_left, ByteMem.get_listed z bs a k h]
  · intro e he
    have := (List.mem_filter.1 he).2
    simp at this
    omega
  · intro e he
    have := (List.mem_filter.1 he).2
    simp at this
    omega

/-- A byte outside a written range reads as before. -/
theorem ByteMem.get_blit_of_not_mem (m : ByteMem) (z : Byte) (a b : Nat) (bs : List Byte)
    (h : b < a ∨ a + bs.length ≤ b) : ByteMem.get (ByteMem.blit m z a bs) z b = ByteMem.get m z b := by
  unfold ByteMem.blit
  rw [List.append_assoc]
  rcases h with h | h
  · rw [ByteMem.get_append_left, ByteMem.get_filter]
    · intro e he; simp [he, h]
    · intro e he
      rcases List.mem_append.1 he with he | he
      · have := ByteMem.listed_range z bs a e he
        omega
      · have := (List.mem_filter.1 he).2
        simp at this
        omega
  · rw [ByteMem.get_append, ByteMem.get_append, ByteMem.get_filter]
    · intro e he; simp [he, h]
    · intro e he
      have := ByteMem.listed_range z bs a e he
      omega
    · intro e he
      have := (List.mem_filter.1 he).2
      simp at this
      omega

/-- A byte within a range written inside the memory reads as written. -/
theorem ByteMem.get_store (m : ByteMem) (z : Byte) (lo hi a k : Nat) (bs : List Byte) (h : k < bs.length) (h1 : lo ≤ a)
    (h2 : a + bs.length ≤ hi) : ByteMem.get (ByteMem.store m z lo hi a bs) z (a + k) = bs[k] := by
  unfold ByteMem.store
  rw [if_pos ⟨h1, h2⟩]
  exact ByteMem.get_blit m z a k bs h

/-- A byte outside a written range reads as before. -/
theorem ByteMem.get_store_of_not_mem (m : ByteMem) (z : Byte) (lo hi a b : Nat) (bs : List Byte)
    (h : b < a ∨ a + bs.length ≤ b) : ByteMem.get (ByteMem.store m z lo hi a bs) z b = ByteMem.get m z b := by
  unfold ByteMem.store
  split
  · exact ByteMem.get_blit_of_not_mem m z a b bs h
  · rfl

/-! ### Registers -/

theorem Word.toNat_of (n : Nat) : (Word.of n).toNat = n % 2 ^ 32 := BitVec.toNat_ofNat n 32

/-- A field that lies within a word. -/
abbrev Fld.ok (f : Fld) : Prop := f.lo ≤ f.hi ∧ f.hi < 32

theorem Dev.word_setWord_self (d : Dev) (a : Nat) (w : Word) : (d.setWord a w).word a = w :=
  Store.get_put_self _ _ _ _

theorem Dev.word_setWord_of_ne (d : Dev) (a b : Nat) (w : Word) (h : b ≠ a) : (d.setWord a w).word b = d.word b :=
  Store.get_put_of_ne _ _ _ _ _ _ h

/-- A register field that lies in another register stands. -/
theorem Dev.rd_setWord_of_ne (d : Dev) (a : Nat) (w : Word) (f : Fld) (h : f.addr ≠ a) : (d.setWord a w).rd f = d.rd f := by
  unfold Dev.rd
  rw [Dev.word_setWord_of_ne _ _ _ _ h]

theorem Dev.rd_wr_of_ne (d : Dev) (f g : Fld) (v : Nat) (h : g.addr ≠ f.addr) : (d.wr f v).rd g = d.rd g :=
  Dev.rd_setWord_of_ne d f.addr _ g h

/-- A field reads what was last written to it, modulo its width. -/
theorem Dev.rd_wr_self (d : Dev) (f : Fld) (v : Nat) (h : f.ok) : (d.wr f v).rd f = v % 2 ^ (f.hi - f.lo + 1) := by
  unfold Dev.rd Dev.wr
  rw [Dev.word_setWord_self, Word.toNat_of, bitsOf_mod _ _ _ h.2 h.1, bitsOf_setBits]

/-- Another field of the same register stands. -/
theorem Dev.rd_wr_of_disjoint (d : Dev) (f g : Fld) (v : Nat) (hg : g.ok) (hf : f.lo ≤ f.hi)
    (h : f.hi < g.lo ∨ g.hi < f.lo) : (d.wr f v).rd g = d.rd g := by
  by_cases ha : g.addr = f.addr
  · unfold Dev.rd Dev.wr
    rw [ha, Dev.word_setWord_self, Word.toNat_of, bitsOf_mod _ _ _ hg.2 hg.1]
    rcases h with h | h
    · exact bitsOf_setBits_above _ _ _ _ _ _ (by omega)
    · exact bitsOf_setBits_below _ _ _ _ _ _ h hg.1
  · exact Dev.rd_wr_of_ne d f g v ha

theorem Dev.flag_wr_of_ne (d : Dev) (f g : Fld) (v : Nat) (h : g.addr ≠ f.addr) : (d.wr f v).flag g = d.flag g := by
  unfold Dev.flag; rw [Dev.rd_wr_of_ne d f g v h]

theorem Dev.flag_wr_of_disjoint (d : Dev) (f g : Fld) (v : Nat) (hg : g.ok) (hf : f.lo ≤ f.hi)
    (h : f.hi < g.lo ∨ g.hi < f.lo) : (d.wr f v).flag g = d.flag g := by
  unfold Dev.flag; rw [Dev.rd_wr_of_disjoint d f g v hg hf h]

/-- A one-bit field reads as set where 1 was written, and as clear where 0 was. -/
theorem Dev.flag_wr_self (d : Dev) (f : Fld) (b : Nat) (h : f.ok) (hf : f.hi = f.lo) :
    (d.wr f b).flag f = decide (b % 2 ≠ 0) := by
  unfold Dev.flag
  rw [Dev.rd_wr_self d f b h, hf]
  simp

end Sys2Proof.Machine
end

