-- ==== Sys2Proof/Laws/Collector.lean ====
section
/-!
SUPPORT. Laws of the end of an edge: which registers and which parts of the device `finish` can touch.
-/

namespace Sys2Proof.Machine

/-- An update that leaves every live register but those of `A`, and the parts that settling an edge leaves. -/
structure Keeps (A : Nat → Prop) (d e : Dev) : Prop where
  word : ∀ a, ¬ A a → e.word a = d.word a
  clk : e.clk = d.clk
  shadow : e.shadow = d.shadow
  held : e.held = d.held
  perMaster : e.perMaster = d.perMaster
  old : e.old = d.old
  hwSet : e.hwSet = d.hwSet
  outside : e.outside = d.outside
  sram : e.sram = d.sram
  nvm : e.nvm = d.nvm
  nvmOnes : e.nvmOnes = d.nvmOnes
  nvmErrs : e.nvmErrs = d.nvmErrs
  railLow : e.railLow = d.railLow
  meas : e.meas = d.meas
  jobs : e.jobs = d.jobs
  pads : e.pads = d.pads
  refs : e.refs = d.refs
  sels : e.sels = d.sels
  selNow : e.selNow = d.selNow
  alive : e.alive = d.alive
  ports : e.ports = d.ports
  beats : e.beats = d.beats
  links : e.past.links = d.past.links
  aplls : e.aplls = d.aplls
  psyns : e.psyns = d.psyns
  nvmc : e.nvmc = d.nvmc
  chk : e.chk = d.chk
  mbx : e.mbx = d.mbx
  boot : e.boot = d.boot
  front : e.front = d.front
  resetKind : e.resetKind = d.resetKind
  undo : e.undo = d.undo
  rsp : e.rsp = d.rsp
  fresh : e.fresh = d.fresh
  fltLive : e.flt.live = d.flt.live
  fired : e.flt.fired = d.flt.fired
  fltTrace : e.flt.trace = d.flt.trace
  foldPend : e.flt.foldPend = d.flt.foldPend
  dump : e.flt.dump = d.flt.dump
  dumpCopy : e.flt.dumpCopy = d.flt.dumpCopy
  quietFrom : e.flt.quietFrom = d.flt.quietFrom
  capEdge : e.flt.capEdge = d.flt.capEdge

theorem Keeps.refl (A : Nat → Prop) (d : Dev) : Keeps A d d := by constructor <;> intros <;> rfl

theorem Keeps.trans {A : Nat → Prop} {d e f : Dev} (h : Keeps A d e) (h' : Keeps A e f) : Keeps A d f := by
  cases h with | mk hw =>
  cases h' with | mk hw' =>
  constructor
  · exact fun a ha => (hw' a ha).trans (hw a ha)
  all_goals simp only [*]

theorem Keeps.wr {A : Nat → Prop} (d : Dev) (f : Fld) (v : Nat) (h : A f.addr) : Keeps A d (d.wr f v) := by
  constructor
  · intro a ha
    exact Dev.word_setWord_of_ne d f.addr a _ fun e => ha (e ▸ h)
  all_goals rfl

theorem Keeps.setOut {A : Nat → Prop} (d : Dev) (k : Nat) (f : OutSt → OutSt) : Keeps A d (d.setOut k f) := by
  constructor <;> intros <;> rfl

theorem Keeps.when {A : Nat → Prop} (d : Dev) (b : Bool) (f : Dev → Dev) (h : Keeps A d (f d)) : Keeps A d (d.when b f) := by
  cases b
  · exact Keeps.refl A d
  · exact h

theorem Keeps.foldl {A : Nat → Prop} (l : List Nat) (f : Nat → Dev → Dev) (h : ∀ k ∈ l, ∀ d, Keeps A d (f k d))
    (d : Dev) : Keeps A d (l.foldl (fun d k => f k d) d) := by
  induction l generalizing d with
  | nil => exact Keeps.refl A d
  | cons k t ih => exact (h k (by simp) d).trans (ih (fun j hj => h j (by simp [hj])) (f k d))

theorem Keeps.forN {A : Nat → Prop} (n : Nat) (f : Nat → Dev → Dev) (h : ∀ k < n, ∀ d, Keeps A d (f k d)) (d : Dev) :
    Keeps A d (forN n f d) := Keeps.foldl _ f (fun k hk => h k (by simpa using hk)) d

theorem Keeps.escEnd {A : Nat → Prop} (d : Dev) (t : Option Nat) :
    Keeps A d { d with flt := { d.flt with escEnd := t } } := by
  constructor <;> intros <;> rfl

theorem Keeps.fn {A : Nat → Prop} (d : Dev) (t : Option Nat) (b c : Bool) :
    Keeps A d { d with flt := { d.flt with fnFrom := t, fnWidthDone := b, fnRelPend := c } } := by
  constructor <;> intros <;> rfl

/-- An event writes the live word of its register. -/
theorem Dev.evtMask_live (d : Dev) (a m : Nat) : ∃ w, (d.evtMask a m).live = (d.setWord a w).live := by
  simp only [Dev.evtMask]
  generalize Word.of _ = w
  exact ⟨w, rfl⟩

theorem Dev.word_evt_of_ne (d : Dev) (f : Fld) (a : Nat) (h : a ≠ f.addr) : (d.evt f).word a = d.word a := by
  obtain ⟨w, hw⟩ := d.evtMask_live f.addr (2 ^ f.lo)
  exact (Dev.word_congr hw a).trans (Dev.word_setWord_of_ne d f.addr a w h)

theorem Keeps.evt {A : Nat → Prop} (d : Dev) (f : Fld) (h : A f.addr) : Keeps A d (d.evt f) := by
  constructor
  · intro a ha
    exact Dev.word_evt_of_ne d f a fun e => ha (e ▸ h)
  all_goals simp only [Dev.evt_clk, Dev.evt_shadow, Dev.evt_held, Dev.evt_perMaster, Dev.evt_old, Dev.evt_hwSet,
    Dev.evt_outside, Dev.evt_sram, Dev.evt_nvm, Dev.evt_nvmOnes, Dev.evt_nvmErrs, Dev.evt_railLow, Dev.evt_meas, Dev.evt_jobs,
    Dev.evt_pads, Dev.evt_refs, Dev.evt_sels, Dev.evt_selNow, Dev.evt_alive, Dev.evt_ports, Dev.evt_beats, Dev.evt_past,
    Dev.evt_aplls, Dev.evt_psyns, Dev.evt_nvmc, Dev.evt_chk, Dev.evt_mbx, Dev.evt_boot, Dev.evt_front, Dev.evt_resetKind,
    Dev.evt_undo, Dev.evt_rsp, Dev.evt_fresh, Dev.evt_flt]

theorem Keeps.settleLamp {A : Nat → Prop} (d : Dev) (h : A rCRAFT_EVT) : Keeps A d d.settleLamp := by
  unfold Dev.settleLamp Dev.evtIf
  split
  · exact Keeps.evt d CRAFT_EVT_LAMP h
  · exact Keeps.refl A d

/-- The registers that settling an edge can write: the collector's status, the mode, output status, the pasture's and the craft
port's events. -/
def SettleReg (a : Nat) : Prop :=
  a = rFLT_STAT ∨ a = rFLT_INJ_STAT ∨ a = rPAST_STAT ∨ a = rCRAFT_EVT ∨ a = rDEV_MODE ∨ ∃ n < 24, a = rOUT_STAT n

theorem Keeps.changeMode {A : Nat → Prop} (d : Dev) (m : Mode) (h : A rDEV_MODE) : Keeps A d (d.changeMode m) := by
  constructor
  · intro a ha
    exact Dev.word_setWord_of_ne d rDEV_MODE a _ fun e => ha (e ▸ h)
  all_goals rfl

theorem Keeps.setUnder {A : Nat → Prop} (d : Dev) (m : Mode) (h : A rDEV_MODE) : Keeps A d (d.setUnder m) := by
  unfold Dev.setUnder
  split
  · constructor <;> intros <;> rfl
  · exact Keeps.changeMode d m h

theorem Keeps.outTry {A : Nat → Prop} (d : Dev) (n : Nat) (hn : A (rOUT_STAT n)) : Keeps A d (d.outTry n) := by
  unfold Dev.outTry
  simp only
  split
  · exact ((Keeps.wr d (OUT_STAT_STATE n) 1 hn).trans (Keeps.wr _ (OUT_STAT_FOLDED n) 0 hn)).trans (Keeps.setOut _ _ _)
  · exact Keeps.refl _ d

theorem Keeps.leaveFold {A : Nat → Prop} (d : Dev) (hm : A rDEV_MODE) (ho : ∀ n < 24, A (rOUT_STAT n)) :
    Keeps A d d.leaveFold := by
  unfold Dev.leaveFold Dev.outsUnfold
  refine (Keeps.setUnder d .run hm).trans (Keeps.forN _ _ ?_ _)
  intro k hk d
  exact (Keeps.wr d (OUT_STAT_FOLDED k) 0 (ho k hk)).trans (Keeps.outTry _ k (ho k hk))

theorem Keeps.sendOn {A : Nat → Prop} (x t ds sr h q : Nat) (p : List Nat) (d : Dev) :
    Keeps A d (d.sendOn x t ds sr h q p) := by
  unfold Dev.sendOn
  split
  · constructor <;> intros <;> rfl
  · exact Keeps.refl A d

theorem Keeps.sendHello {A : Nat → Prop} (d : Dev) (hp : A rPAST_STAT) : Keeps A d d.sendHello := by
  unfold Dev.sendHello Dev.sendNear
  simp only
  refine Keeps.trans ?_ (Keeps.trans (Keeps.sendOn _ _ _ _ _ _ _ _) (Keeps.sendOn _ _ _ _ _ _ _ _))
  split
  · exact Keeps.wr d PAST_STAT_BEACON _ hp
  · split
    · exact Keeps.wr d PAST_STAT_BEACON _ hp
    · exact Keeps.refl _ d

theorem Keeps.settleElig {A : Nat → Prop} (d : Dev) (hp : A rPAST_STAT) : Keeps A d d.settleElig := by
  unfold Dev.settleElig
  split
  · exact (Keeps.wr d PAST_STAT_ELIG _ hp).trans (Keeps.sendHello _ hp)
  · exact Keeps.refl _ d

theorem SettleReg.out (n : Nat) (h : n < 24) : SettleReg (rOUT_STAT n) := by right; right; right; right; right; exact ⟨n, h, rfl⟩
theorem SettleReg.mode : SettleReg rDEV_MODE := by right; right; right; right; left; rfl
theorem SettleReg.craft : SettleReg rCRAFT_EVT := by right; right; right; left; rfl
theorem SettleReg.past : SettleReg rPAST_STAT := by right; right; left; rfl
theorem SettleReg.inj : SettleReg rFLT_INJ_STAT := by right; left; rfl
theorem SettleReg.flt : SettleReg rFLT_STAT := by left; rfl

/-- An address that no settling writes. -/
theorem not_settleReg {a : Nat} (h1 : a ≠ 0x010058) (h2 : a ≠ 0x010094) (h3 : a ≠ 0x0A000C) (h4 : a ≠ 0x000004)
    (h6 : a ≠ 0x0C0008) (h5 : a < 0x050018 ∨ 0x050C18 ≤ a ∨ a % 0x80 ≠ 0x18) : ¬ SettleReg a := by
  rintro (h | h | h | h | h | ⟨n, hn, h⟩)
  · exact h1 h
  · exact h2 h
  · exact h3 h
  · exact h6 h
  · exact h4 h
  · unfold rOUT_STAT at h; omega

/-- The registers that settling an edge can write while no fold is held: the collector's and the pasture's status and the craft
port's events. -/
def SteadyReg (a : Nat) : Prop := a = 0x010058 ∨ a = 0x010094 ∨ a = 0x0A000C ∨ a = 0x0C0008

theorem not_steadyReg {a : Nat} (h1 : a ≠ 0x010058) (h2 : a ≠ 0x010094) (h3 : a ≠ 0x0A000C) (h4 : a ≠ 0x0C0008) :
    ¬ SteadyReg a := by
  rintro (h | h | h | h)
  · exact h1 h
  · exact h2 h
  · exact h3 h
  · exact h4 h

theorem Keeps.mono {A B : Nat → Prop} {d e : Dev} (h : Keeps A d e) (hab : ∀ a, A a → B a) : Keeps B d e := by
  obtain ⟨w, _⟩ := h
  constructor
  · intro a ha; exact w a fun h => ha (hab a h)
  all_goals assumption

theorem SteadyReg.settle : ∀ a, SteadyReg a → SettleReg a := by
  rintro a (h | h | h | h)
  · left; exact h
  · right; left; exact h
  · right; right; left; exact h
  · right; right; right; left; exact h

theorem Keeps.settleFold (d : Dev) : Keeps SettleReg d d.settleFold := by
  unfold Dev.settleFold
  split
  · have h := Keeps.wr d FLT_STAT_FOLD_REQ 0 SettleReg.flt
    simp only
    split
    · exact h.trans (Keeps.leaveFold _ SettleReg.mode SettleReg.out)
    · exact h
  · exact Keeps.refl _ d

theorem Keeps.settleFatal {A : Nat → Prop} (d : Dev) (h : A rFLT_STAT) : Keeps A d d.settleFatal :=
  Keeps.when d _ _ (Keeps.wr d FLT_STAT_FATAL_HELD 0 h)

theorem Keeps.settleEsc {A : Nat → Prop} (d : Dev) (h : A rFLT_STAT) : Keeps A d d.settleEsc := by
  exact Keeps.when d _ _ (Keeps.trans (Keeps.wr d FLT_STAT_ESC_RUN 0 h) (Keeps.escEnd _ none))

theorem Keeps.settleInj {A : Nat → Prop} (d : Dev) (h : A rFLT_INJ_STAT) : Keeps A d d.settleInj :=
  Keeps.when d _ _ (Keeps.wr d FLT_INJ_STAT_ACTIVE 0 h)

theorem Keeps.fnRelease {A : Nat → Prop} (d : Dev) (h : A rFLT_STAT) : Keeps A d d.fnRelease := by
  exact Keeps.trans (Keeps.wr d FLT_STAT_FN 0 h) (Keeps.fn _ none false false)

theorem Keeps.settleFn {A : Nat → Prop} (d : Dev) (h : A rFLT_STAT) : Keeps A d d.settleFn := by
  unfold Dev.settleFn
  split
  · exact Keeps.when d _ _ (Keeps.fnRelease d h)
  · split
    · exact Keeps.when d _ _ (Keeps.trans (Keeps.wr d FLT_STAT_FN 1 h) (Keeps.fn _ _ false false))
    · exact Keeps.when d _ _ (Keeps.fnRelease d h)

theorem Dev.Calm.settleCopy {d : Dev} (h : d.Calm) : d.settleCopy = d := by
  simp [Dev.settleCopy, h.noCopy]

theorem Dev.Calm.settlePend {d : Dev} (h : d.Calm) : d.settlePend = d := by
  simp [Dev.settlePend, h.noFold]

theorem Keeps.rd {A : Nat → Prop} {d e : Dev} (h : Keeps A d e) (f : Fld) (hf : ¬ A f.addr) : e.rd f = d.rd f := by
  unfold Dev.rd
  rw [h.word f.addr hf]

theorem Keeps.flag {A : Nat → Prop} {d e : Dev} (h : Keeps A d e) (f : Fld) (hf : ¬ A f.addr) : e.flag f = d.flag f := by
  unfold Dev.flag
  rw [h.rd f hf]

/-- With no fold and no dump copy outstanding, the end of an edge writes only the collector's status, the mode, output
status, the pasture's status and the craft port's events. -/
theorem Dev.Calm.finish {d : Dev} (h : d.Calm) : Keeps SettleReg d d.finish := by
  unfold Dev.finish
  rw [h.settleCopy, h.settlePend]
  exact ((((((Keeps.settleFatal d SettleReg.flt).trans (Keeps.settleEsc _ SettleReg.flt)).trans
    (Keeps.settleInj _ SettleReg.inj)).trans (Keeps.settleFold _)).trans
    (Keeps.settleElig _ SettleReg.past)).trans (Keeps.settleFn _ SettleReg.flt)).trans (Keeps.settleLamp _ SettleReg.craft)

/-- What settling an edge also leaves while no fold is held. -/
structure Stays (d e : Dev) : Prop extends Keeps SteadyReg d e where
  outs : e.outs = d.outs
  priorMode : e.priorMode = d.priorMode

theorem Stays.mk' {d e : Dev} (h : Keeps SteadyReg d e) (h1 : e.outs = d.outs) (h2 : e.priorMode = d.priorMode) :
    Stays d e := { h with outs := h1, priorMode := h2 }

theorem Stays.trans {d e f : Dev} (h : Stays d e) (h' : Stays e f) : Stays d f :=
  Stays.mk' (h.toKeeps.trans h'.toKeeps) (h'.outs.trans h.outs) (h'.priorMode.trans h.priorMode)

theorem Stays.refl (d : Dev) : Stays d d := Stays.mk' (Keeps.refl _ d) rfl rfl

theorem Stays.when (d : Dev) (b : Bool) (f : Dev → Dev) (h : Stays d (f d)) : Stays d (d.when b f) := by
  cases b
  · exact Stays.refl d
  · exact h

theorem Stays.wr (d : Dev) (f : Fld) (v : Nat) (h : SteadyReg f.addr) : Stays d (d.wr f v) :=
  Stays.mk' (Keeps.wr d f v h) rfl rfl

theorem Stays.escEnd (d : Dev) (t : Option Nat) : Stays d { d with flt := { d.flt with escEnd := t } } :=
  Stays.mk' (Keeps.escEnd d t) rfl rfl

theorem Stays.fn (d : Dev) (t : Option Nat) (b c : Bool) :
    Stays d { d with flt := { d.flt with fnFrom := t, fnWidthDone := b, fnRelPend := c } } :=
  Stays.mk' (Keeps.fn d t b c) rfl rfl

theorem SteadyReg.flt : SteadyReg rFLT_STAT := by left; rfl
theorem SteadyReg.inj : SteadyReg rFLT_INJ_STAT := by right; left; rfl
theorem SteadyReg.past : SteadyReg rPAST_STAT := by right; right; left; rfl
theorem SteadyReg.craft : SteadyReg rCRAFT_EVT := by right; right; right; rfl

theorem Stays.settleLamp (d : Dev) : Stays d d.settleLamp := by
  refine Stays.mk' (Keeps.settleLamp d SteadyReg.craft) ?_ ?_ <;> (unfold Dev.settleLamp Dev.evtIf; split <;> simp)

theorem Stays.settleFatal (d : Dev) : Stays d d.settleFatal :=
  Stays.when d _ _ (Stays.wr d FLT_STAT_FATAL_HELD 0 SteadyReg.flt)

theorem Stays.settleEsc (d : Dev) : Stays d d.settleEsc :=
  Stays.when d _ _ (Stays.trans (Stays.wr d FLT_STAT_ESC_RUN 0 SteadyReg.flt) (Stays.escEnd _ none))

theorem Stays.settleInj (d : Dev) : Stays d d.settleInj :=
  Stays.when d _ _ (Stays.wr d FLT_INJ_STAT_ACTIVE 0 SteadyReg.inj)

theorem Stays.sendOn (x t ds sr h q : Nat) (p : List Nat) (d : Dev) : Stays d (d.sendOn x t ds sr h q p) := by
  refine Stays.mk' (Keeps.sendOn _ _ _ _ _ _ _ _) ?_ ?_ <;> (unfold Dev.sendOn; split <;> rfl)

theorem Stays.sendHello (d : Dev) : Stays d d.sendHello := by
  unfold Dev.sendHello Dev.sendNear
  simp only
  refine Stays.trans ?_ (Stays.trans (Stays.sendOn _ _ _ _ _ _ _ _) (Stays.sendOn _ _ _ _ _ _ _ _))
  split
  · exact Stays.wr d PAST_STAT_BEACON _ SteadyReg.past
  · split
    · exact Stays.wr d PAST_STAT_BEACON _ SteadyReg.past
    · exact Stays.refl d

theorem Stays.settleElig (d : Dev) : Stays d d.settleElig := by
  unfold Dev.settleElig
  split
  · exact (Stays.wr d PAST_STAT_ELIG _ SteadyReg.past).trans (Stays.sendHello _)
  · exact Stays.refl d

theorem Stays.fnRelease (d : Dev) : Stays d d.fnRelease :=
  Stays.trans (Stays.wr d FLT_STAT_FN 0 SteadyReg.flt) (Stays.fn _ none false false)

theorem Stays.settleFn (d : Dev) : Stays d d.settleFn := by
  unfold Dev.settleFn
  split
  · exact Stays.when d _ _ (Stays.fnRelease d)
  · split
    · exact Stays.when d _ _
        (Stays.trans (Stays.wr d FLT_STAT_FN 1 SteadyReg.flt) (Stays.fn _ _ false false))
    · exact Stays.when d _ _ (Stays.fnRelease d)

theorem Stays.underMode {d e : Dev} (h : Stays d e) : e.underMode = d.underMode := by
  unfold Dev.underMode Dev.mode
  rw [h.priorMode]
  have : e.rd DEV_MODE_MODE = d.rd DEV_MODE_MODE := by
    unfold Dev.rd
    rw [h.word]
    exact not_steadyReg (by decide) (by decide) (by decide) (by decide)
  rw [this]

theorem Stays.settleFold {d : Dev} (h : d.underMode ≠ .fold) : Stays d d.settleFold := by
  unfold Dev.settleFold
  split
  · have hw := Stays.wr d FLT_STAT_FOLD_REQ 0 SteadyReg.flt
    simp only
    rw [if_neg]
    · exact hw
    · rw [hw.underMode]
      simp [h]
  · exact Stays.refl d

/-- With no fold held or outstanding and no dump copy, the end of an edge writes only the collector's and the pasture's
status and the craft port's events. -/
theorem Dev.Steady.finish {d : Dev} (h : d.Steady) : Stays d d.finish := by
  unfold Dev.finish
  rw [h.settleCopy, h.settlePend]
  have h1 := ((Stays.settleFatal d).trans (Stays.settleEsc _)).trans (Stays.settleInj _)
  have h2 := h1.trans (Stays.settleFold (by rw [h1.underMode]; exact h.notFold))
  exact ((h2.trans (Stays.settleElig _)).trans (Stays.settleFn _)).trans (Stays.settleLamp _)

/-- A field outside the registers that settling writes reads as before it. -/
theorem Dev.Calm.finish_rd {d : Dev} (h : d.Calm) (f : Fld) (hf : ¬ SettleReg f.addr) : d.finish.rd f = d.rd f := by
  exact h.finish.rd f hf

theorem Dev.Calm.finish_flag {d : Dev} (h : d.Calm) (f : Fld) (hf : ¬ SettleReg f.addr) : d.finish.flag f = d.flag f := by
  exact h.finish.flag f hf

theorem Dev.Steady.finish_rd {d : Dev} (h : d.Steady) (f : Fld) (hf : ¬ SteadyReg f.addr) : d.finish.rd f = d.rd f := by
  exact h.finish.toKeeps.rd f hf

theorem Dev.Steady.finish_flag {d : Dev} (h : d.Steady) (f : Fld) (hf : ¬ SteadyReg f.addr) :
    d.finish.flag f = d.flag f := by
  exact h.finish.toKeeps.flag f hf

end Sys2Proof.Machine
end

