-- ==== Sys2Proof/Laws/Fire.lean ====
section
/-!
SUPPORT. Laws of a firing: everything that `Dev.fireAs` can touch, and that it latches its source and counts.
-/

namespace Sys2Proof.Machine

/-- An update that leaves every live register but those of `A`, and the parts that no firing reaches. -/
structure Still (A : Nat → Prop) (d e : Dev) : Prop where
  word : ∀ a, ¬ A a → e.word a = d.word a
  clk : e.clk = d.clk
  shadow : e.shadow = d.shadow
  held : e.held = d.held
  perMaster : e.perMaster = d.perMaster
  outside : e.outside = d.outside
  sram : e.sram = d.sram
  nvm : e.nvm = d.nvm
  meas : e.meas = d.meas
  jobs : e.jobs = d.jobs
  pads : e.pads = d.pads
  refs : e.refs = d.refs
  sels : e.sels = d.sels
  selNow : e.selNow = d.selNow
  old : e.old = d.old
  nvmOnes : e.nvmOnes = d.nvmOnes
  nvmErrs : e.nvmErrs = d.nvmErrs
  railLow : e.railLow = d.railLow
  alive : e.alive = d.alive
  ports : e.ports = d.ports
  beats : e.beats = d.beats
  links : e.past.links = d.past.links
  aplls : e.aplls = d.aplls
  outs : e.outs = d.outs
  psyns : e.psyns = d.psyns
  chk : e.chk = d.chk
  mbxRun : e.mbx.run = d.mbx.run
  mbxArgs : e.mbx.args = d.mbx.args
  mbxOut : e.mbx.out = d.mbx.out
  boot : e.boot = d.boot
  resetKind : e.resetKind = d.resetKind
  priorMode : e.priorMode = d.priorMode
  undo : e.undo = d.undo
  rsp : e.rsp = d.rsp
  fresh : e.fresh = d.fresh
  fltLive : e.flt.live = d.flt.live
  dumpCopy : e.flt.dumpCopy = d.flt.dumpCopy
  foldNext : e.flt.foldNext = d.flt.foldNext

theorem Still.refl (A : Nat → Prop) (d : Dev) : Still A d d := by constructor <;> intros <;> rfl

theorem Still.trans {A : Nat → Prop} {d e f : Dev} (h : Still A d e) (h' : Still A e f) : Still A d f := by
  obtain ⟨w, _⟩ := h
  obtain ⟨w', _⟩ := h'
  constructor
  · intro a ha; rw [w' a ha, w a ha]
  all_goals (simp only [*])

theorem Still.mono {A B : Nat → Prop} {d e : Dev} (h : Still A d e) (hab : ∀ a, A a → B a) : Still B d e := by
  obtain ⟨w, _⟩ := h
  constructor
  · intro a ha; exact w a fun h => ha (hab a h)
  all_goals assumption

theorem Still.rd {A : Nat → Prop} {d e : Dev} (h : Still A d e) (f : Fld) (hf : ¬ A f.addr) : e.rd f = d.rd f := by
  unfold Dev.rd
  rw [h.word f.addr hf]

theorem Still.flag {A : Nat → Prop} {d e : Dev} (h : Still A d e) (f : Fld) (hf : ¬ A f.addr) : e.flag f = d.flag f := by
  unfold Dev.flag
  rw [h.rd f hf]

theorem Still.setWord {A : Nat → Prop} (d : Dev) (a : Nat) (w : Word) (h : A a) : Still A d (d.setWord a w) := by
  constructor
  · intro b hb
    exact Dev.word_setWord_of_ne d a b _ fun e => hb (e ▸ h)
  all_goals rfl

theorem Still.wr {A : Nat → Prop} (d : Dev) (f : Fld) (v : Nat) (h : A f.addr) : Still A d (d.wr f v) :=
  Still.setWord d f.addr _ h

theorem Still.when {A : Nat → Prop} (d : Dev) (b : Bool) (f : Dev → Dev) (h : Still A d (f d)) : Still A d (d.when b f) := by
  cases b
  · exact Still.refl A d
  · exact h

theorem Still.setHw {A : Nat → Prop} (d : Dev) (a : Nat) (w : Word) (h : A a) : Still A d (d.setHw a w) := by
  constructor
  · intro b hb
    exact Dev.word_setWord_of_ne d a b _ fun e => hb (e ▸ h)
  all_goals rfl

theorem Still.setBumped {A : Nat → Prop} (d : Dev) (l : List (Nat × Nat)) : Still A d { d with bumped := l } := by
  constructor <;> intros <;> rfl

theorem Still.evt {A : Nat → Prop} (d : Dev) (f : Fld) (h : A f.addr) : Still A d (d.evt f) := by
  unfold Dev.evt Dev.evtMask
  exact Still.trans (Still.setWord d f.addr _ h) (Still.setBumped _ _)

/-- A change of the collector's own parts that leaves the live conditions and the dump's copy. -/
theorem Still.setFlt {A : Nat → Prop} (d : Dev) (F : Flt) (h1 : F.live = d.flt.live) (h2 : F.dumpCopy = d.flt.dumpCopy)
    (h3 : F.foldNext = d.flt.foldNext) : Still A d { d with flt := F } := by
  constructor
  · intro a _; exact Dev.word_congr rfl a
  all_goals first | rfl | exact h1 | exact h2 | exact h3

theorem Still.setNvmc {A : Nat → Prop} (d : Dev) (n : NvmCtl) : Still A d { d with nvmc := n } := by
  constructor <;> intros <;> rfl

theorem Still.setFront {A : Nat → Prop} (d : Dev) (n : Front) : Still A d { d with front := n } := by
  constructor <;> intros <;> rfl

theorem Still.sendOn {A : Nat → Prop} (x t ds sr h q : Nat) (p : List Nat) (d : Dev) :
    Still A d (d.sendOn x t ds sr h q p) := by
  unfold Dev.sendOn
  split
  · constructor <;> intros <;> rfl
  · exact Still.refl A d

theorem Still.originate {A : Nat → Prop} (t ds : Nat) (p : List Nat) (d : Dev) : Still A d (d.originate t ds p) := by
  unfold Dev.originate
  split
  · exact Still.refl A d
  · refine Still.trans ?_ ((Still.sendOn _ _ _ _ _ _ _ _).trans (Still.sendOn _ _ _ _ _ _ _ _))
    constructor <;> intros <;> rfl

theorem Still.logEvent {A : Nat → Prop} (d : Dev) (c a n : Nat) : Still A d (d.logEvent c a n) := by
  unfold Dev.logEvent
  exact Still.setFlt d _ rfl rfl rfl

theorem Still.foldl {A : Nat → Prop} (l : List Nat) (f : Nat → Dev → Dev) (h : ∀ k ∈ l, ∀ d, Still A d (f k d))
    (d : Dev) : Still A d (l.foldl (fun d k => f k d) d) := by
  induction l generalizing d with
  | nil => exact Still.refl A d
  | cons k t ih => exact (h k (by simp) d).trans (ih (fun j hj => h j (by simp [hj])) (f k d))

theorem Still.forN {A : Nat → Prop} (n : Nat) (f : Nat → Dev → Dev) (h : ∀ k < n, ∀ d, Still A d (f k d)) (d : Dev) :
    Still A d (forN n f d) := Still.foldl _ f (fun k hk => h k (by simpa using hk)) d

/-- The registers of the capture, with FLT_MISSED. -/
def CapReg (a : Nat) : Prop := (0x010060 ≤ a ∧ a < 0x010080) ∨ a = 0x010084

/-- The registers that a reaction can write: the collector's status, that of its dump, and those of a service DUMP that it
ends. -/
def ReactReg (a : Nat) : Prop :=
  a = 0x010058 ∨ a = 0x01009C ∨ (0x000120 ≤ a ∧ a < 0x000138) ∨ a = 0x090004 ∨ a = 0x050C00

/-- The registers that a firing can write besides its latched bit and FLT_SEQNO. -/
def FireReg (a : Nat) : Prop := CapReg a ∨ ReactReg a ∨ a = 0x010094

theorem ReactReg.stat : ReactReg 0x010058 := Or.inl rfl
theorem ReactReg.dump : ReactReg 0x01009C := Or.inr (Or.inl rfl)
theorem ReactReg.mbx {a : Nat} (h : 0x000120 ≤ a ∧ a < 0x000138) : ReactReg a := Or.inr (Or.inr (Or.inl h))
theorem ReactReg.nvm : ReactReg 0x090004 := Or.inr (Or.inr (Or.inr (Or.inl rfl)))
theorem ReactReg.tee : ReactReg 0x050C00 := Or.inr (Or.inr (Or.inr (Or.inr rfl)))

theorem not_capReg {a : Nat} (h1 : a < 0x010060 ∨ 0x010080 ≤ a) (h2 : a ≠ 0x010084) : ¬ CapReg a := by
  rintro (⟨h, h'⟩ | h) <;> omega

theorem not_reactReg {a : Nat} (h1 : a ≠ 0x010058) (h2 : a ≠ 0x01009C) (h3 : a < 0x000120 ∨ 0x000138 ≤ a)
    (h4 : a ≠ 0x090004) (h5 : a ≠ 0x050C00) : ¬ ReactReg a := by
  rintro (h | h | ⟨h, h'⟩ | h | h) <;> omega

theorem not_fireReg {a : Nat} (h1 : a < 0x010058 ∨ 0x0100A4 ≤ a ∨ a = 0x010080) (h2 : a < 0x000120 ∨ 0x000138 ≤ a)
    (h3 : a ≠ 0x090004) (h4 : a ≠ 0x050C00) : ¬ FireReg a := by
  rintro ((⟨h, h'⟩ | h) | (h | h | ⟨h, h'⟩ | h | h) | h) <;> omega

theorem Still.fillCapture (f : Firing) (repl multi : Bool) (d : Dev) : Still CapReg d (d.fillCapture f repl multi) := by
  unfold Dev.fillCapture
  refine Still.trans ?_ (Still.setFlt _ _ rfl rfl rfl)
  refine Still.trans ?_ (Still.wr _ FLT_CAP_FRAC_FRAC _ (by unfold CapReg; decide))
  refine Still.trans ?_ (Still.wr _ FLT_CAP_NS_NS _ (by unfold CapReg; decide))
  refine Still.trans ?_ (Still.wr _ FLT_CAP_SEC_HI_SEC _ (by unfold CapReg; decide))
  refine Still.trans ?_ (Still.wr _ FLT_CAP_SEC_LO_SEC _ (by unfold CapReg; decide))
  refine Still.trans ?_ (Still.wr _ FLT_CAP_SEQ_SEQ _ (by unfold CapReg; decide))
  refine Still.trans ?_ (Still.wr _ FLT_CAP_DETAIL_DETAIL _ (by unfold CapReg; decide))
  refine Still.trans ?_ (Still.wr _ FLT_CAP_ADDR_ADDR _ (by unfold CapReg; decide))
  exact Still.setWord _ rFLT_CAP_SRC _ (by unfold CapReg; decide)

theorem Still.captureFiring (f : Firing) (d : Dev) : Still CapReg d (d.captureFiring f) := by
  unfold Dev.captureFiring
  split
  · exact Still.fillCapture ..
  · split
    · simp only
      split
      · exact Still.fillCapture ..
      · exact Still.wr _ FLT_CAP_SRC_MULTI _ (by unfold CapReg; decide)
    · split
      · exact Still.fillCapture ..
      · exact Still.wr _ FLT_MISSED_COUNT _ (by unfold CapReg; decide)

theorem Still.dumpTrigger (src sev : Nat) (inj fresh : Bool) (d : Dev) :
    Still ReactReg d (d.dumpTrigger src sev inj fresh) := by
  unfold Dev.dumpTrigger
  split
  · unfold Dev.bumpSat
    split
    · exact Still.wr _ FLT_DUMP_STAT_SKIPPED _ ReactReg.dump
    · exact Still.refl _ d
  · refine Still.trans ?_ (Still.wr _ FLT_STAT_DUMP_BUSY _ ReactReg.stat)
    exact Still.setFlt d _ rfl rfl rfl

theorem Still.alignStop (d : Dev) : Still ReactReg d d.alignStop := by
  unfold Dev.alignStop
  split
  · rename_i a _
    refine Still.trans (Still.setHw d rOUT_TEE (Word.of a.tee) ReactReg.tee) ?_
    constructor <;> intros <;> rfl
  · exact Still.refl _ d

theorem Still.mbxComplete (code : Nat) (res : List Nat) (d : Dev) : Still ReactReg d (d.mbxComplete code res) := by
  unfold Dev.mbxComplete
  refine Still.trans ?_ (Still.evt _ DEV_MBX_EVT_DONE (ReactReg.mbx (by decide)))
  refine Still.trans ?_ (Still.wr _ DEV_MBX_STAT_DONE _ (ReactReg.mbx (by decide)))
  refine Still.trans ?_ (Still.wr _ DEV_MBX_STAT_BUSY _ (ReactReg.mbx (by decide)))
  refine Still.trans ?_ (Still.forN 4 _ ?_ _)
  · refine Still.trans ?_ (Still.wr _ DEV_MBX_STAT_CODE _ (ReactReg.mbx (by decide)))
    exact (Still.alignStop d).trans (Still.logEvent _ _ _ _)
  · intro k hk d
    exact Still.wr d (DEV_MBX_RES_RES k) _ (ReactReg.mbx (by simp only [DEV_MBX_RES_RES, rDEV_MBX_RES]; omega))

theorem Still.stopCopy (d : Dev) : Still ReactReg d d.stopCopy := by
  unfold Dev.stopCopy
  exact Still.trans (Still.setNvmc d _) (Still.when _ _ _ (Still.wr _ NVM_STAT_WAIT_POWER _ ReactReg.nvm))

theorem Still.dumpAbort (d : Dev) : Still ReactReg d d.dumpAbort := by
  unfold Dev.dumpAbort
  refine Still.trans (Still.mbxComplete _ _ d) (Still.trans (Still.when _ _ _ ?_) (Still.stopCopy _))
  refine Still.trans ?_ (Still.wr _ FLT_STAT_DUMP_BUSY _ ReactReg.stat)
  exact Still.setFlt _ _ rfl rfl rfl

theorem Still.ackEnd {A : Nat → Prop} (d : Dev) : Still A d d.ackEnd := Still.setFront d _

theorem Still.whenFrom {A : Nat → Prop} {d0 d : Dev} (b : Bool) (f : Dev → Dev) (h0 : Still A d0 d) (h : ∀ x, Still A x (f x)) :
    Still A d0 (d.when b f) := h0.trans (Still.when d b f (h d))

theorem Still.reactTo (src sev : Nat) (inj full forced : Bool) (d : Dev) :
    Still ReactReg d (d.reactTo src sev inj full forced) := by
  unfold Dev.reactTo
  simp only
  split
  · refine Still.whenFrom _ _ (Still.whenFrom _ _ (Still.refl _ d) ?_) Still.ackEnd
    exact fun x => Still.wr x FLT_STAT_FATAL_HELD 1 ReactReg.stat
  · refine Still.whenFrom _ _ (Still.whenFrom _ _ (Still.whenFrom _ _ (Still.whenFrom _ _ (Still.whenFrom _ _
      (Still.whenFrom _ _ (Still.refl _ d) ?_) Still.ackEnd) ?_) ?_) ?_) ?_
    · exact fun x => Still.wr x FLT_STAT_FATAL_HELD 1 ReactReg.stat
    · intro x
      refine Still.trans ?_ (Still.setFlt _ _ rfl rfl rfl)
      exact Still.wr x FLT_STAT_FSTATE 1 ReactReg.stat
    · intro x
      refine Still.trans ?_ (Still.dumpTrigger ..)
      exact Still.when x _ _ (Still.dumpAbort x)
    · intro x
      refine Still.trans ?_ (Still.setFlt _ _ rfl rfl rfl)
      exact Still.wr x FLT_STAT_ESC_RUN 1 ReactReg.stat
    · exact fun x => Still.setFlt x _ rfl rfl rfl

theorem Still.noticeAtLatch {A : Nat → Prop} (src sev : Nat) (d : Dev) : Still A d (d.noticeAtLatch src sev) := by
  unfold Dev.noticeAtLatch
  simp only
  exact Still.when _ _ _ (Still.originate _ _ _ _)

/-- What a firing does after it has latched and counted. -/
def Dev.afterCount (f : Firing) (sim : Bool) (d : Dev) : Dev :=
  let d := d.captureFiring f
  let real := !f.inj && d.flag FLT_INJ_STAT_ACTIVE && decide (d.rd FLT_INJ_STAT_SRC = f.src)
  let d := d.when real fun d => d.wr FLT_INJ_STAT_REAL 1
  let t := d.nowU
  let e : FiringEntry := { src := f.src, sev := f.sev, inj := f.inj, real := real, seqno := d.rd FLT_SEQNO_COUNT,
                           sec := uSec t, ns := uNs t }
  let l : LogEntry := { code := 1, arg := f.src + 64 * f.sev + 256 * b2n f.inj + 512 * b2n real, sec := uSec t, ns := uNs t,
                        data := d.rd FLT_SEQNO_COUNT }
  let d := { d with flt := { d.flt with
    fired := f :: d.flt.fired, trace := (d.flt.trace ++ [e]).drop ((d.flt.trace.length + 1) - 32), logWait := d.flt.logWait ++ [l] } }
  let d := d.when (!f.inj && decide (f.sev = sevFatal)) fun d =>
    { d with nvmc := { d.nvmc with fatals := d.nvmc.fatals + 1 } }
  let d := Dev.noticeAtLatch f.src f.sev d
  if d.reactive then d.reactTo f.src f.sev f.inj (!sim) (forcedFold f.src && !f.inj) else d

/-- The firing of `src` that finds the device at `d`, once it has latched and counted. -/
def Dev.firing (src detail : Nat) (acc : Option Access) (inj : Bool) (d : Dev) : Firing :=
  { src := src, sev := d.sev src, detail := detail, inj := inj, acc := acc
    seq := ((d.evt (ackFld src)).bump FLT_SEQNO_COUNT).rd FLT_SEQNO_COUNT }

theorem Dev.fireAs_eq (src detail : Nat) (acc : Option Access) (inj sim : Bool) (d : Dev) :
    d.fireAs src detail acc inj sim =
      ((d.evt (ackFld src)).bump FLT_SEQNO_COUNT).afterCount (d.firing src detail acc inj) sim := rfl

theorem Still.afterCount (f : Firing) (sim : Bool) (d : Dev) : Still FireReg d (d.afterCount f sim) := by
  unfold Dev.afterCount
  have h1 := (Still.captureFiring f d).mono (B := FireReg) fun a h => Or.inl h
  generalize d.captureFiring f = d1 at h1
  have key : ∀ x y : Dev, Still FireReg d1 x → Still FireReg x y →
      Still FireReg d (if y.reactive then y.reactTo f.src f.sev f.inj (!sim) (forcedFold f.src && !f.inj) else y) := by
    intro x y hx hy
    have h := h1.trans (hx.trans hy)
    split
    · exact h.trans ((Still.reactTo ..).mono fun a h => Or.inr (Or.inl h))
    · exact h
  refine key _ _ ?_ (Still.noticeAtLatch _ _ _)
  refine Still.whenFrom _ _ ?_ fun x => Still.setNvmc x _
  refine Still.trans ?_ (Still.setFlt _ _ rfl rfl rfl)
  exact Still.when d1 _ _ (Still.wr d1 FLT_INJ_STAT_REAL 1 (Or.inr (Or.inr rfl)))

/-- An injected firing does not touch FLT_INJ_STAT. -/
theorem Still.afterCount_injected (f : Firing) (hf : f.inj = true) (sim : Bool) (d : Dev) :
    (d.afterCount f sim).word 0x010094 = d.word 0x010094 := by
  unfold Dev.afterCount
  have h1 := (Still.captureFiring f d).word 0x010094 (not_capReg (by decide) (by decide))
  generalize d.captureFiring f = d1 at h1
  rw [hf]
  have key : ∀ y : Dev, y.word 0x010094 = d1.word 0x010094 →
      (if y.reactive then y.reactTo f.src f.sev true (!sim) (forcedFold f.src && !true) else y).word 0x010094 = d.word 0x010094 := by
    intro y hy
    split
    · rw [(Still.reactTo ..).word _ (not_reactReg (by decide) (by decide) (by decide) (by decide) (by decide)), hy, h1]
    · rw [hy, h1]
  refine key _ ?_
  rw [(Still.noticeAtLatch (A := fun _ => False) _ _ _).word _ (fun h => h)]
  simp [Dev.when]

/-- The registers that a firing of `src` can write. -/
def FiringReg (a : Nat) : Prop := FireReg a ∨ (0x010048 ≤ a ∧ a < 0x010054) ∨ a = 0x010080

theorem not_firingReg {a : Nat} (h1 : a < 0x010048 ∨ 0x0100A4 ≤ a ∨ a = 0x010054) (h2 : a < 0x000120 ∨ 0x000138 ≤ a)
    (h3 : a ≠ 0x090004) (h4 : a ≠ 0x050C00) : ¬ FiringReg a := by
  rintro (((⟨h, h'⟩ | h) | (h | h | ⟨h, h'⟩ | h | h) | h) | ⟨h, h'⟩ | h) <;> omega

theorem ackFld_addr (src : Nat) : 0x010048 ≤ (ackFld src).addr ∧ (ackFld src).addr < 0x010054 := by
  unfold ackFld
  split
  · simp [rFLT_ACK_0]
  · split <;> simp [rFLT_ACK_1, rFLT_ACK_2]

/-- Everything that a firing can touch. -/
theorem Still.fireAs (src detail : Nat) (acc : Option Access) (inj sim : Bool) (d : Dev) :
    Still FiringReg d (d.fireAs src detail acc inj sim) := by
  rw [Dev.fireAs_eq]
  refine Still.trans (Still.trans (Still.evt d (ackFld src) (Or.inr (Or.inl (ackFld_addr src)))) ?_)
    ((Still.afterCount ..).mono fun a h => Or.inl h)
  exact Still.wr _ FLT_SEQNO_COUNT _ (Or.inr (Or.inr rfl))

/-! ### A firing latches and counts -/

theorem bitsOf_or_two_pow (w k : Nat) : bitsOf (w ||| 2 ^ k) k k = 1 := by
  have h : (w ||| 2 ^ k).testBit k = true := by simp [Nat.testBit_or, Nat.testBit_two_pow_self]
  rw [bitsOf_eq]
  simp only [Nat.sub_self, Nat.zero_add, Nat.pow_one]
  have := Nat.testBit_eq_decide_div_mod_eq (x := w ||| 2 ^ k) (i := k)
  rw [h] at this
  exact of_decide_eq_true this.symm

/-- A status bit reads as set after its set condition has occurred (10 R273). -/
theorem Dev.flag_evt_self (d : Dev) (f : Fld) (h : f.hi = f.lo) (h' : f.lo < 24) : (d.evt f).flag f = true := by
  have key : (d.evt f).rd f = 1 := by
    unfold Dev.evt Dev.evtMask
    rw [Dev.rd_with_bumped]
    unfold Dev.rd
    rw [Dev.word_setWord_self, Word.toNat_of, bitsOf_mod _ _ _ (by omega) (by omega), h,
      bitsOf_setBits_below _ _ _ _ _ _ (by omega) (Nat.le_refl _), Nat.mod_eq_of_lt, bitsOf_or_two_pow]
    exact Nat.pow_lt_pow_right (by decide) h'
  unfold Dev.flag
  rw [key]
  rfl

theorem Dev.rd_evt_of_ne (d : Dev) (f g : Fld) (h : g.addr ≠ f.addr) : (d.evt f).rd g = d.rd g := by
  unfold Dev.evt Dev.evtMask
  rw [Dev.rd_with_bumped]
  exact Dev.rd_setWord_of_ne _ _ _ _ h

theorem Dev.flag_evt_of_ne (d : Dev) (f g : Fld) (h : g.addr ≠ f.addr) : (d.evt f).flag g = d.flag g := by
  unfold Dev.flag
  rw [Dev.rd_evt_of_ne d f g h]

theorem ackFld_bit (src : Nat) (h : src < 64) : (ackFld src).hi = (ackFld src).lo ∧ (ackFld src).lo < 24 := by
  unfold ackFld
  split
  · simp; omega
  · split <;> simp <;> omega

/-- A firing sets its latched bit and advances FLT_SEQNO (11 R283). -/
theorem Dev.fireAs_fired (src detail : Nat) (acc : Option Access) (inj sim : Bool) (d : Dev) (h : src < 64) :
    Fired src d (d.fireAs src detail acc inj sim) := by
  rw [Dev.fireAs_eq]
  have ha := Still.afterCount (d.firing src detail acc inj) sim ((d.evt (ackFld src)).bump FLT_SEQNO_COUNT)
  have hr := ackFld_addr src
  obtain ⟨hb, hl⟩ := ackFld_bit src h
  constructor
  · unfold Dev.latched
    rw [ha.flag _ (not_fireReg (Or.inl (by omega)) (Or.inr (by omega)) (by omega) (by omega))]
    unfold Dev.bump
    rw [Dev.flag_wr_of_ne _ _ _ _ (by simp only [FLT_SEQNO_COUNT, rFLT_SEQNO]; omega)]
    exact Dev.flag_evt_self d _ hb hl
  · rw [ha.rd _ (not_fireReg (by decide) (by decide) (by decide) (by decide))]
    unfold Dev.bump
    rw [Dev.rd_wr_self _ _ _ (by decide), Dev.rd_evt_of_ne _ _ _ (by simp only [FLT_SEQNO_COUNT, rFLT_SEQNO]; omega)]
    rfl

/-- A level source that is not live fires when its condition begins (11 R281). -/
theorem Dev.raise_fired (src inst detail : Nat) (d : Dev) (h : src < 64) (hl : (src, inst) ∉ d.flt.live) :
    Fired src d (d.raise src inst detail) ∧ (src, inst) ∈ (d.raise src inst detail).flt.live := by
  unfold Dev.raise
  have hc : ¬ (d.flt.live.contains (src, inst) = true) := by simpa using hl
  rw [if_neg hc]
  simp only
  generalize hx : ({ d with flt := { d.flt with live := d.flt.live ++ [(src, inst)] } } : Dev) = x
  have hf := Dev.fireAs_fired src detail none false false x h
  have hs := Still.fireAs src detail none false false x
  refine ⟨⟨hf.latched, ?_⟩, ?_⟩
  · rw [show (x.fire src detail).rd FLT_SEQNO_COUNT = _ from hf.counted, ← hx, Dev.rd_with_flt]
  · rw [show (x.fire src detail).flt.live = _ from hs.fltLive, ← hx]
    simp

theorem mode_congr {d e : Dev} (h : e.word rDEV_MODE = d.word rDEV_MODE) : e.mode = d.mode := by
  unfold Dev.mode Dev.rd
  rw [show DEV_MODE_MODE.addr = rDEV_MODE from rfl, h]

end Sys2Proof.Machine
end

