-- ==== Sys2Proof/Laws/Step.lean ====
section
/-!
SUPPORT. Laws of a command: every meaning is `run` of some effect, and how a completion follows from what the effect does.
-/

namespace Sys2Proof.Machine

/-- What a command answers, once for all commands: its time passes, it has an effect, and the edge is settled; an update or a bus
access may join the edge of an update first. -/
theorem exec_run (c : Instr) (s : State) : (∃ dt f, exec c s = run dt f s) ∨ ∃ a dt f, exec c s = runJoin a dt f s := by
  cases c
  case registerWrite => exact Or.inr ⟨_, _, _, rfl⟩
  case updateStrobeWrite => exact Or.inr ⟨_, _, _, rfl⟩
  case gpioStrobeEdge => exact Or.inr ⟨_, _, _, rfl⟩
  case musterDevice => exact Or.inr ⟨_, _, _, rfl⟩
  case musterPasture => exact Or.inr ⟨_, _, _, rfl⟩
  case strobeRx => exact Or.inr ⟨_, _, _, rfl⟩
  case musterRx => exact Or.inr ⟨_, _, _, rfl⟩
  case pastStrobeApply => exact Or.inr ⟨_, _, _, rfl⟩
  case pastMusterApply => exact Or.inr ⟨_, _, _, rfl⟩
  all_goals (delta exec; dsimp only; exact Or.inl ⟨_, _, rfl⟩)

/-- Where the edge before has left nothing to be settled on the way, what passes before a command acts is its time. -/
theorem Dev.arrive_prompt {d : Dev} (h : d.lag = false) (dt : Nat) : d.arrive dt = d.advance dt := by
  simp [Dev.arrive, h]

/-- A command whose effect leaves a steady device completes, and whatever settling leaves holds of the next state. -/
theorem Completes.of_steady {c : Instr} {s : State} {P : Dev → Prop} {dt : Nat} {f : Dev → Dev}
    (h : exec c s = run dt f s) (hs : (f (s.dev.advance dt)).Steady)
    (hp : ∀ t, Stays (f (s.dev.advance dt)) t → P t) : Completes c s P :=
  ⟨_, h, rfl, fun hl => by rw [Dev.arrive_prompt hl]; exact hp _ hs.finish⟩

/-- A command whose effect leaves a calm device completes. -/
theorem Completes.of_calm {c : Instr} {s : State} {P : Dev → Prop} {dt : Nat} {f : Dev → Dev}
    (h : exec c s = run dt f s) (hs : (f (s.dev.advance dt)).Calm)
    (hp : ∀ t, Keeps SettleReg (f (s.dev.advance dt)) t → P t) : Completes c s P :=
  ⟨_, h, rfl, fun hl => by rw [Dev.arrive_prompt hl]; exact hp _ hs.finish⟩

/-- A command has its effect. -/
theorem Effects.of_run {c : Instr} {s : State} {P : Dev → Prop} {dt : Nat} {f : Dev → Dev}
    (h : exec c s = run dt f s) (hp : P (f (s.dev.advance dt))) : Effects c s P :=
  ⟨_, h, fun hl => by rw [Dev.arrive_prompt hl]; exact hp⟩

/-- Joining the edge of an update changes the clocks alone. -/
theorem Dev.rejoin_eq (a : Bool) (dt : Nat) (d : Dev) : ∃ c : Clock, d.rejoin a dt = { d with clk := c } := by
  unfold Dev.rejoin
  split
  · exact ⟨_, rfl⟩
  · exact ⟨d.clk, rfl⟩

theorem Dev.rejoin_lag (a : Bool) (dt : Nat) (d : Dev) : (d.rejoin a dt).lag = d.lag := by
  obtain ⟨c, h⟩ := d.rejoin_eq a dt
  rw [h]
  rfl

/-- A command that may join the edge of an update has its effect there. -/
theorem Effects.of_join {c : Instr} {s : State} {P : Dev → Prop} {a : Bool} {dt : Nat} {f : Dev → Dev}
    (h : exec c s = runJoin a dt f s) (hp : P (f ((s.dev.rejoin a dt).advance dt))) : Effects c s P :=
  ⟨_, h, fun hl => by rw [Dev.arrive_prompt ((Dev.rejoin_lag a dt s.dev).trans hl)]; exact hp⟩

/-- A command that may join the edge of an update completes where its effect leaves a steady device. -/
theorem Completes.of_join {c : Instr} {s : State} {P : Dev → Prop} {a : Bool} {dt : Nat} {f : Dev → Dev}
    (h : exec c s = runJoin a dt f s) (hs : (f ((s.dev.rejoin a dt).advance dt)).Steady)
    (hp : ∀ t, Stays (f ((s.dev.rejoin a dt).advance dt)) t → P t) : Completes c s P :=
  ⟨_, h, rfl, fun hl => by rw [Dev.arrive_prompt ((Dev.rejoin_lag a dt s.dev).trans hl)]; exact hp _ hs.finish⟩

theorem underMode_congr {d e : Dev} (h : e.mode = d.mode) (h' : e.priorMode = d.priorMode) : e.underMode = d.underMode := by
  unfold Dev.underMode
  rw [h, h']

theorem Dev.Calm.advance {d : Dev} (h : d.Calm) (dt : Nat) : (d.advance dt).Calm := ⟨h.noFold, h.noCopy⟩

theorem Dev.Steady.advance {d : Dev} (h : d.Steady) (dt : Nat) : (d.advance dt).Steady :=
  { h.toCalm.advance dt with notFold := h.notFold }

theorem Dev.Calm.of_flt {d e : Dev} (h : d.Calm) (hf : e.flt = d.flt) : e.Calm := ⟨by rw [hf]; exact h.noFold, by rw [hf]; exact h.noCopy⟩

theorem Dev.Steady.of_flt {d e : Dev} (h : d.Steady) (hf : e.flt = d.flt) (hm : e.mode = d.mode)
    (hp : e.priorMode = d.priorMode) : e.Steady :=
  { h.toCalm.of_flt hf with notFold := by rw [underMode_congr hm hp]; exact h.notFold }

end Sys2Proof.Machine
end

