-- ==== Sys2Proof/Laws/Frames.lean ====
section
/-!
SUPPORT. Frames of shared operations: what the queue of jobs, the boot sequence and the monitors leave.
-/

namespace Sys2Proof.Machine

/-! ### Only the jobs change (03) -/

/-- `e` is `d` but for its jobs and rings. -/
def JobsOnly (d e : Dev) : Prop := ∃ j, e = { d with jobs := j }

theorem JobsOnly.refl (d : Dev) : JobsOnly d d := ⟨d.jobs, rfl⟩

theorem JobsOnly.trans {d e f : Dev} (h : JobsOnly d e) (h' : JobsOnly e f) : JobsOnly d f := by
  obtain ⟨j, rfl⟩ := h
  obtain ⟨j', rfl⟩ := h'
  exact ⟨j', rfl⟩

theorem JobsOnly.setJob (d : Dev) (k : Nat) (j : Option Job) : JobsOnly d (d.setJob k j) := ⟨_, rfl⟩

theorem JobsOnly.setRing (d : Dev) (k : Nat) (f : Ring → Ring) : JobsOnly d (d.setRing k f) := ⟨_, rfl⟩

theorem JobsOnly.foldl {α : Type} (l : List α) (f : Dev → α → Dev) (h : ∀ d a, JobsOnly d (f d a)) (d : Dev) :
    JobsOnly d (l.foldl f d) := by
  induction l generalizing d with
  | nil => exact JobsOnly.refl d
  | cons a t ih => exact (h d a).trans (ih (f d a))

theorem JobsOnly.promote (r : Nat) (d : Dev) : JobsOnly d (d.promote r) := by
  unfold Dev.promote
  split
  · exact JobsOnly.refl d
  · split
    · split
      · exact JobsOnly.setRing d r _
      · exact JobsOnly.refl d
    · exact JobsOnly.refl d

theorem JobsOnly.rd {d e : Dev} (h : JobsOnly d e) (f : Fld) : e.rd f = d.rd f := by
  obtain ⟨j, rfl⟩ := h
  exact Dev.rd_with_jobs d j f

theorem JobsOnly.flag {d e : Dev} (h : JobsOnly d e) (f : Fld) : e.flag f = d.flag f := by
  obtain ⟨j, rfl⟩ := h
  exact Dev.flag_with_jobs d j f

theorem JobsOnly.flt {d e : Dev} (h : JobsOnly d e) : e.flt = d.flt := by obtain ⟨j, rfl⟩ := h; rfl
theorem JobsOnly.clk {d e : Dev} (h : JobsOnly d e) : e.clk = d.clk := by obtain ⟨j, rfl⟩ := h; rfl
theorem JobsOnly.priorMode {d e : Dev} (h : JobsOnly d e) : e.priorMode = d.priorMode := by obtain ⟨j, rfl⟩ := h; rfl
theorem JobsOnly.mode {d e : Dev} (h : JobsOnly d e) : e.mode = d.mode := by unfold Dev.mode; rw [h.rd]

/-! ### Registers written one after another -/

theorem forN_succ (n : Nat) (f : Nat → Dev → Dev) (d : Dev) : forN (n + 1) f d = f n (forN n f d) := by
  unfold forN
  rw [List.range_succ, List.foldl_append]
  rfl

/-- A run of registers, each written once. -/
theorem forN_setWord_word (n : Nat) (addr : Nat → Nat) (v : Nat → Word) (d : Dev)
    (hi : ∀ i j, addr i = addr j → i = j) :
    (∀ k < n, (forN n (fun k d => d.setWord (addr k) (v k)) d).word (addr k) = v k) ∧
      ∀ a, (∀ k < n, a ≠ addr k) → (forN n (fun k d => d.setWord (addr k) (v k)) d).word a = d.word a := by
  induction n with
  | zero => exact ⟨fun k hk => absurd hk (Nat.not_lt_zero k), fun _ _ => rfl⟩
  | succ n ih =>
    rw [forN_succ]
    constructor
    · intro k hk
      by_cases h : k = n
      · subst h; exact Dev.word_setWord_self _ _ _
      · rw [Dev.word_setWord_of_ne _ _ _ _ (fun e => h (hi _ _ e))]
        exact ih.1 k (by omega)
    · intro a ha
      rw [Dev.word_setWord_of_ne _ _ _ _ (ha n (by omega))]
      exact ih.2 a fun k hk => ha k (by omega)

/-! ### Level conditions -/

/-- A level condition that ends: it is no longer live, nothing fires, and no register is written. -/
theorem Dev.lower_spec (src inst : Nat) (d : Dev) :
    (src, inst) ∉ (d.lower src inst).flt.live ∧ (d.lower src inst).live = d.live ∧ (d.lower src inst).clk = d.clk ∧
      (d.lower src inst).flt.foldPend = d.flt.foldPend ∧ (d.lower src inst).flt.dumpCopy = d.flt.dumpCopy ∧
      (d.lower src inst).priorMode = d.priorMode := by
  unfold Dev.lower
  split
  · unfold Dev.when
    simp only
    split <;> simp
  · next h => simpa using h

theorem Dev.lower_word (src inst : Nat) (d : Dev) (a : Nat) : (d.lower src inst).word a = d.word a :=
  Dev.word_congr (Dev.lower_spec src inst d).2.1 a

theorem Dev.lower_rd (src inst : Nat) (d : Dev) (f : Fld) : (d.lower src inst).rd f = d.rd f :=
  Dev.rd_congr (Dev.lower_spec src inst d).2.1 f

theorem Dev.lower_flag (src inst : Nat) (d : Dev) (f : Fld) : (d.lower src inst).flag f = d.flag f :=
  Dev.flag_congr (Dev.lower_spec src inst d).2.1 f

/-- A firing leaves the live conditions; a raise adds its own. -/
theorem Dev.raise_clk (src inst detail : Nat) (d : Dev) : (d.raise src inst detail).clk = d.clk := by
  unfold Dev.raise
  split
  · rfl
  · exact (Still.fireAs ..).clk

theorem Dev.raise_word (src inst detail : Nat) (d : Dev) (a : Nat) (h : ¬ FiringReg a) :
    (d.raise src inst detail).word a = d.word a := by
  unfold Dev.raise
  split
  · rfl
  · exact ((Still.fireAs ..).word a h).trans (Dev.word_with_flt _ _ _)

theorem Dev.raiseAt_fired (src inst detail addr : Nat) (d : Dev) (h : src < 64) (hl : (src, inst) ∉ d.flt.live) :
    Fired src d (d.raiseAt src inst detail addr) ∧ (src, inst) ∈ (d.raiseAt src inst detail addr).flt.live := by
  unfold Dev.raiseAt
  have hc : ¬ (d.flt.live.contains (src, inst) = true) := by simpa using hl
  rw [if_neg hc]
  generalize hx : ({ d with flt := { d.flt with live := d.flt.live ++ [(src, inst)] } } : Dev) = x
  have hf := Dev.fireAs_fired src detail (some { addr := addr, master := none, type := accInternal }) false false x h
  have hs := Still.fireAs src detail (some { addr := addr, master := none, type := accInternal }) false false x
  refine ⟨⟨hf.latched, ?_⟩, ?_⟩
  · rw [hf.counted, ← hx, Dev.rd_with_flt]
  · rw [hs.fltLive, ← hx]
    simp

end Sys2Proof.Machine
end

