-- ==== Sys2Proof/Laws/Apart.lean ====
section
/-!
SUPPORT. The frame of a paddock: what its states, its word, its ports and selection leave (04, 05, 07).
-/

/- One theorem at a time: the theorems of this file share the equations of the same definitions. -/
set_option Elab.async false

namespace Sys2Proof.Machine

/-- An update that leaves every live register but those of `A`, and the parts that paddocks and selection do not reach. -/
structure Apart (A : Nat → Prop) (d e : Dev) : Prop where
  word : ∀ a, ¬ A a → e.word a = d.word a
  shadow : e.shadow = d.shadow
  held : e.held = d.held
  perMaster : e.perMaster = d.perMaster
  outside : e.outside = d.outside
  sram : e.sram = d.sram
  nvm : e.nvm = d.nvm
  meas : e.meas = d.meas
  refs : e.refs = d.refs
  alive : e.alive = d.alive
  beats : e.beats = d.beats
  links : e.past.links = d.past.links
  outs : e.outs = d.outs
  chk : e.chk = d.chk
  boot : e.boot = d.boot
  resetKind : e.resetKind = d.resetKind
  priorMode : e.priorMode = d.priorMode
  rsp : e.rsp = d.rsp
  tclk : e.clk.tclk = d.clk.tclk
  edge : e.clk.edge = d.clk.edge
  xoin : e.clk.xoin = d.clk.xoin

variable {A : Nat → Prop} {d d0 : Dev}

theorem Apart.refl (A : Nat → Prop) (d : Dev) : Apart A d d := by constructor <;> intros <;> rfl

theorem Apart.trans {e f : Dev} (h : Apart A d e) (h' : Apart A e f) : Apart A d f := by
  obtain ⟨w, _⟩ := h
  obtain ⟨w', _⟩ := h'
  constructor
  · intro a ha; rw [w' a ha, w a ha]
  all_goals (simp only [*])

theorem Apart.mono {B : Nat → Prop} {e : Dev} (h : Apart A d e) (hab : ∀ a, A a → B a) : Apart B d e := by
  obtain ⟨w, _⟩ := h
  constructor
  · intro a ha; exact w a fun h => ha (hab a h)
  all_goals assumption

theorem Apart.rd {e : Dev} (h : Apart A d e) (f : Fld) (hf : ¬ A f.addr) : e.rd f = d.rd f := by
  unfold Dev.rd
  rw [h.word f.addr hf]

theorem Apart.flag {e : Dev} (h : Apart A d e) (f : Fld) (hf : ¬ A f.addr) : e.flag f = d.flag f := by
  unfold Dev.flag
  rw [h.rd f hf]

theorem Still.apart {e : Dev} (h : Still A d e) : Apart A d e := by
  obtain ⟨w, hclk, _⟩ := h
  constructor
  · exact w
  all_goals first | assumption | rw [hclk]

theorem Apart.wr (h : Apart A d0 d) (f : Fld) (v : Nat) (hf : A f.addr) : Apart A d0 (d.wr f v) :=
  h.trans (Still.wr d f v hf).apart

theorem Apart.setWord (h : Apart A d0 d) (a : Nat) (w : Word) (ha : A a) : Apart A d0 (d.setWord a w) :=
  h.trans (Still.setWord d a w ha).apart

theorem Apart.evt (h : Apart A d0 d) (f : Fld) (hf : A f.addr) : Apart A d0 (d.evt f) := h.trans (Still.evt d f hf).apart

theorem Apart.evtIf (h : Apart A d0 d) (b : Bool) (f : Fld) (hf : A f.addr) : Apart A d0 (d.evtIf b f) := by
  unfold Dev.evtIf
  split
  · exact h.evt f hf
  · exact h

theorem Apart.bump (h : Apart A d0 d) (f : Fld) (hf : A f.addr) : Apart A d0 (d.bump f) := h.wr f _ hf

theorem Apart.wr48 (h : Apart A d0 d) (lo hi : Fld) (v : Int) (hl : A lo.addr) (hh : A hi.addr) :
    Apart A d0 (d.wr48 lo hi v) := (h.wr lo _ hl).wr hi _ hh

theorem Apart.when (h : Apart A d0 d) (b : Bool) (f : Dev → Dev) (hf : Apart A d (f d)) : Apart A d0 (d.when b f) := by
  cases b
  · exact h
  · exact h.trans hf

theorem Apart.setPad (h : Apart A d0 d) (n : Nat) (f : Paddock → Paddock) : Apart A d0 (d.setPad n f) :=
  h.trans (by constructor <;> intros <;> rfl)

theorem Apart.setSel (h : Apart A d0 d) (n : Nat) (f : Select → Select) : Apart A d0 (d.setSel n f) :=
  h.trans (by constructor <;> intros <;> rfl)

theorem Apart.setPort (h : Apart A d0 d) (n : Nat) (f : Port → Port) : Apart A d0 (d.setPort n f) :=
  h.trans (by constructor <;> intros <;> rfl)

theorem Apart.setJob (h : Apart A d0 d) (n : Nat) (j : Option Job) : Apart A d0 (d.setJob n j) :=
  h.trans (by constructor <;> intros <;> rfl)

theorem Apart.setRing (h : Apart A d0 d) (n : Nat) (f : Ring → Ring) : Apart A d0 (d.setRing n f) :=
  h.trans (by constructor <;> intros <;> rfl)

theorem Apart.setJobs (h : Apart A d0 d) (j : Jobs) : Apart A d0 { d with jobs := j } :=
  h.trans (by constructor <;> intros <;> rfl)

theorem Apart.setSelNow (h : Apart A d0 d) (m : Option (List Nat)) : Apart A d0 { d with selNow := m } :=
  h.trans (by constructor <;> intros <;> rfl)

theorem Apart.setFlt (h : Apart A d0 d) (F : Flt) : Apart A d0 { d with flt := F } :=
  h.trans (by constructor <;> intros <;> rfl)

theorem Apart.fire (h : Apart A d0 d) (src detail : Nat) (hf : ∀ a, FiringReg a → A a) : Apart A d0 (d.fire src detail) :=
  h.trans ((Still.fireAs src detail none false false d).mono hf).apart

theorem Apart.raise (h : Apart A d0 d) (src inst detail : Nat) (hf : ∀ a, FiringReg a → A a) :
    Apart A d0 (d.raise src inst detail) := by
  unfold Dev.raise
  split
  · exact h
  · exact (h.setFlt _).fire src detail hf

theorem Apart.lower (h : Apart A d0 d) (src inst : Nat) : Apart A d0 (d.lower src inst) := by
  unfold Dev.lower
  split
  · exact (h.setFlt _).when _ _ ((Apart.refl A _).setFlt _)
  · exact h

theorem Apart.level (h : Apart A d0 d) (src inst detail : Nat) (on : Bool) (hf : ∀ a, FiringReg a → A a) :
    Apart A d0 (d.level src inst detail on) := by
  unfold Dev.level
  split
  · exact h.raise src inst detail hf
  · exact h.lower src inst

theorem Apart.foldl {α : Type} (h : Apart A d0 d) (l : List α) (f : Dev → α → Dev)
    (hf : ∀ k ∈ l, ∀ d, Apart A d (f d k)) : Apart A d0 (l.foldl f d) := by
  induction l generalizing d with
  | nil => exact h
  | cons k t ih => exact ih (h.trans (hf k (by simp) d)) fun j hj => hf j (by simp [hj])

theorem Apart.forN (h : Apart A d0 d) (n : Nat) (f : Nat → Dev → Dev) (hf : ∀ k < n, ∀ d, Apart A d (f k d)) :
    Apart A d0 (forN n f d) := h.foldl _ (fun d k => f k d) fun k hk => hf k (by simpa using hk)

theorem JobsOnly.apart {e : Dev} (h : JobsOnly d e) : Apart A d e := by
  obtain ⟨j, rfl⟩ := h
  exact (Apart.refl A d).setJobs j

/-! ### The registers that paddocks, their actuators and their ports reach -/

/-- The registers that the ends of jobs can write: MEAS_Q_ERR, and what a firing can write, since the body of a flush that is read
then may hold a double-bit error (03 R81). -/
def JobReg (a : Nat) : Prop := a = 0x062040 ∨ FiringReg a

/-- The registers of the paddocks, of the words of APLLs and of the steering ports, and those that a firing can write. -/
def PadSide (a : Nat) : Prop :=
  (0x030000 ≤ a ∧ a < 0x034000) ∨ (0x040000 ≤ a ∧ a < 0x042000) ∨ (0x0B0000 ≤ a ∧ a < 0x0B0400) ∨ JobReg a

theorem PadSide.pad {n b : Nat} (hn : n < 16) (h1 : 0x030000 ≤ b := by decide) (h2 : b < 0x030400 := by decide) :
    PadSide (b + 0x400 * n) := by left; omega

theorem PadSide.flock {n b : Nat} (hn : n < 16) (h1 : 0x040000 ≤ b := by decide) (h2 : b < 0x040200 := by decide) :
    PadSide (b + 0x200 * n) := by right; left; omega

theorem PadSide.port {n b : Nat} (hn : n < 8) (h1 : 0x0B0000 ≤ b := by decide) (h2 : b < 0x0B0040 := by decide) :
    PadSide (b + 0x40 * n) := by right; right; left; omega

theorem PadSide.acc {n b : Nat} (hn : n < 8) (h1 : 0x0B0200 ≤ b := by decide) (h2 : b < 0x0B0220 := by decide) :
    PadSide (b + 0x20 * n) := by right; right; left; omega

theorem PadSide.jobs : ∀ a, JobReg a → PadSide a := fun _ h => Or.inr (Or.inr (Or.inr h))

theorem PadSide.firing : ∀ a, FiringReg a → PadSide a := fun _ h => PadSide.jobs _ (Or.inr h)

theorem not_jobReg {a : Nat} (h0 : a ≠ 0x062040) (h : ¬ FiringReg a) : ¬ JobReg a := by
  rintro (h' | h')
  · exact h0 h'
  · exact h h'

theorem not_padSide {a : Nat} (h : a < 0x010048 ∨ a = 0x010054 ∨ (0x0100A4 ≤ a ∧ a < 0x030000) ∨ (0x034000 ≤ a ∧ a < 0x040000) ∨
    (0x042000 ≤ a ∧ a < 0x050C00) ∨ (0x050C01 ≤ a ∧ a < 0x062040) ∨ (0x062041 ≤ a ∧ a < 0x090004) ∨ (0x090005 ≤ a ∧ a < 0x0B0000) ∨ 0x0B0400 ≤ a) (h2 : a < 0x000120 ∨ 0x000138 ≤ a) : ¬ PadSide a := by
  rintro (h' | h' | h' | h')
  · omega
  · omega
  · omega
  · exact not_jobReg (by omega) (not_firingReg (by omega) h2 (by omega) (by omega)) h'

theorem Dev.rd_lt (d : Dev) (f : Fld) : d.rd f < 2 ^ (f.hi - f.lo + 1) := bitsOf_lt _ _ _

/-! ### Ports (07) -/

variable {n k : Nat}

theorem Apart.portPend (h : Apart PadSide d0 d) (hk : k < 8) : Apart PadSide d0 (d.portPend k) := h.wr _ _ (.port hk)

theorem Apart.portFault (h : Apart PadSide d0 d) (hk : k < 8) (cause : Nat) : Apart PadSide d0 (d.portFault k cause) := by
  unfold Dev.portFault
  dsimp only
  split
  · have h1 := ((h.wr (STEER_STAT_STATE k) 2 (.port hk)).wr (STEER_STAT_CAUSE k) cause (.port hk)).wr (STEER_STAT_PARKED k)
      (b2n (d.flag (STEER_CTL_ACT k))) (.port hk)
    exact (((((h1.when _ _ ((Apart.refl _ _).wr _ _ (.port hk))).setPort _ _).evt (STEER_EVT_FAULT k) (.port hk)).fire _ _
      PadSide.firing).portPend hk)
  · split
    · exact (((h.setPort _ _).wr (STEER_STAT_CAUSE k) cause (.port hk)).setPort _ _).portPend hk
    · exact h.setPort _ _
  · exact h

theorem Dev.portsOf_lt (d : Dev) (pad : Nat) : ∀ k ∈ d.portsOf pad, k < 8 := by
  intro k hk
  unfold Dev.portsOf at hk
  simp at hk
  exact hk.1

theorem Apart.portsFreerun (h : Apart PadSide d0 d) (pad : Nat) : Apart PadSide d0 (d.portsFreerun pad) := by
  unfold Dev.portsFreerun
  split
  · refine h.foldl _ _ fun k hk d => ?_
    split
    · exact (Apart.refl _ d).portFault (Dev.portsOf_lt _ _ k hk) 2
    · exact Apart.refl _ d
  · exact h

/-! ### Words (04 R108, R111; 06 R164) -/

theorem Apart.setApll (h : Apart A d0 d) (n : Nat) (f : Apll → Apll) : Apart A d0 (d.setApll n f) :=
  h.trans (by constructor <;> intros <;> rfl)

theorem Apart.setPsyn (h : Apart A d0 d) (n : Nat) (f : Psyn → Psyn) : Apart A d0 (d.setPsyn n f) :=
  h.trans (by constructor <;> intros <;> rfl)

theorem Apart.applyN (h : Apart PadSide d0 d) (hk : k < 16) (y : Int) : Apart PadSide d0 (d.applyN k y) :=
  (((h.setApll k _).wr (FLOCK_N_LO_N k) _ (.flock hk)).wr (FLOCK_N_HI_NF k) _ (.flock hk)).wr (FLOCK_N_HI_NI k) _ (.flock hk)

theorem Apart.psynWord (h : Apart A d0 d) (k : Nat) (y : Int) : Apart A d0 (d.psynWord k y) := (h.setPsyn k _).setPsyn k _

theorem Apart.actuate (h : Apart PadSide d0 d) (pad : Nat) (y : Int) : Apart PadSide d0 (d.actuate pad y) := by
  unfold Dev.actuate
  split
  · dsimp only
    split
    · exact h
    · exact h.applyN (Dev.rd_lt _ _) y
  · dsimp only
    split
    · exact h.psynWord _ y
    · exact h

theorem Apart.setInc (h : Apart A d0 d) (i : Nat) : Apart A d0 { d with clk := { d.clk with inc := i } } :=
  h.trans (by constructor <;> intros <;> rfl)

theorem Apart.setWordY (h : Apart PadSide d0 d) (hn : n < 16) (y : Int) : Apart PadSide d0 (d.setWordY n y) := by
  unfold Dev.setWordY
  dsimp only
  refine Apart.actuate ?_ _ _
  have h' := (h.setPad n fun p => { p with egAcc := d.egNow n, egAt := d.clk.tclk }).wr48 (PAD_FW_LO_VALUE n)
    (PAD_FW_HI_VALUE n) y (.pad hn) (.pad hn)
  split
  · exact h'.setInc _
  · exact h'

/-! ### Steps of device time (04 R112; 03 R82, R89) -/

theorem JobsOnly.addEpoch (c r : Nat) (d : Dev) : JobsOnly d (d.addEpoch c r) := by
  have key : ∀ f g, JobsOnly d ((d.setRing r f).setRing r g) := fun f g =>
    (JobsOnly.setRing d r f).trans (JobsOnly.setRing _ r g)
  unfold Dev.addEpoch
  split
  · exact JobsOnly.refl d
  · dsimp only
    split
    · split
      · exact key _ _
      · exact key _ _
    · exact key _ _

theorem JobsOnly.epochAll (c : Nat) (d : Dev) : JobsOnly d (d.epochAll c) := by
  unfold Dev.epochAll Machine.forN
  exact JobsOnly.foldl _ (fun d r => d.addEpoch c r) (fun d r => JobsOnly.addEpoch c r d) d

/-! ### The ends of jobs (03 R78, R81, R86) -/

theorem Apart.slotBad (h : Apart A d0 d) (hA : ∀ a, JobReg a → A a) (k : Nat) : Apart A d0 (d.slotBad k) := by
  unfold Dev.slotBad
  split
  · split
    · exact h
    · exact ((h.setJob k _).evt MEAS_Q_ERR_QUEUE_ECC (hA _ (Or.inl rfl))).fire 21 k fun a x => hA a (Or.inr x)
  · exact h

theorem Apart.settleFlush (h : Apart A d0 d) (hA : ∀ a, JobReg a → A a) (r : Nat) : Apart A d0 (d.settleFlush r) := by
  unfold Dev.settleFlush
  refine h.foldl _ _ fun k _ d => ?_
  split
  · dsimp only
    split
    · exact Apart.refl A d
    · split
      · exact (Apart.refl A d).slotBad hA k
      · exact (Apart.refl A d).setJob k _
  · exact Apart.refl A d

theorem Apart.settleRings (h : Apart A d0 d) (hA : ∀ a, JobReg a → A a) : Apart A d0 d.settleRings := by
  unfold Dev.settleRings
  exact h.forN 16 _ fun r _ d => ((Apart.refl A d).settleFlush hA r).trans (JobsOnly.promote r _).apart

theorem Apart.abortSlots (h : Apart A d0 d) (hA : ∀ a, JobReg a → A a) (cause : Nat) (ks : List Nat) :
    Apart A d0 (d.abortSlots cause ks) := by
  unfold Dev.abortSlots
  refine Apart.settleRings (h.foldl _ _ fun k _ d => ?_) hA
  split
  · split
    · exact (Apart.refl A d).setJob k _
    · exact Apart.refl A d
  · exact Apart.refl A d

theorem Apart.abortWhere (h : Apart A d0 d) (hA : ∀ a, JobReg a → A a) (c : Nat) (p : Job → Bool) :
    Apart A d0 (d.abortWhere c p) := by
  unfold Dev.abortWhere
  exact h.abortSlots hA _ _

theorem Apart.rstJobs (h : Apart A d0 d) (hA : ∀ a, JobReg a → A a) (cause : Nat) : Apart A d0 (d.rstJobs cause) := by
  unfold Dev.rstJobs
  refine Apart.settleRings (h.foldl _ _ fun k _ d => ?_) hA
  split
  · exact (Apart.refl A d).setJob k _
  · exact Apart.refl A d

theorem Apart.setDev (h : Apart A d0 d) (i : Nat) : Apart A d0 { d with clk := { d.clk with dev := i } } :=
  h.trans (by constructor <;> intros <;> rfl)

theorem Apart.stepDevice (h : Apart PadSide d0 d) (hn : n < 16) (u : Int) : Apart PadSide d0 (d.stepDevice n u) := by
  unfold Dev.stepDevice
  exact (((h.setDev _).evt _ (.pad hn)).abortWhere PadSide.jobs _ _).trans (JobsOnly.epochAll 4 _).apart

theorem Apart.takeStep (h : Apart PadSide d0 d) (hn : n < 16) : Apart PadSide d0 (d.takeStep n) := by
  unfold Dev.takeStep
  split
  · exact h
  · dsimp only
    split
    · exact (h.setPad _ _).evt _ (.pad hn)
    · exact (h.setPad _ _).stepDevice hn _

theorem Apart.padIdle (h : Apart PadSide d0 d) (hn : n < 16) : Apart PadSide d0 (d.padIdle n) := by
  unfold Dev.padIdle
  split
  · exact h
  · dsimp only
    split
    · split
      · exact ((h.takeStep hn).setPad _ _).setWordY hn _
      · exact (h.takeStep hn).setPad _ _
    · exact h.takeStep hn

/-! ### States of a paddock (04 R117 to R123, R128, R129) -/

theorem Apart.padUnusable (h : Apart A d0 d) (n : Nat) : Apart A d0 (d.padUnusable n) := h.setPad n _

theorem Apart.padHalt (h : Apart PadSide d0 d) (hn : n < 16) : Apart PadSide d0 (d.padHalt n) :=
  (((h.setPad _ _).setSel _ _).wr _ _ (.pad hn)).wr _ _ (.pad hn)

theorem Apart.padTake (h : Apart PadSide d0 d) (hn : n < 16) (st : Nat) : Apart PadSide d0 (d.padTake n st) := by
  unfold Dev.padTake
  dsimp only
  refine Apart.when ?_ _ _ ((Apart.refl _ _).fire _ _ PadSide.firing)
  refine Apart.when ?_ _ _ ((Apart.refl _ _).padUnusable _)
  refine Apart.when ?_ _ _ (((Apart.refl _ _).setPad _ _).wr _ _ (.pad hn))
  refine Apart.when ?_ _ _ ((Apart.refl _ _).wr (PAD_STATE_CLAMPED n) _ (.pad hn))
  exact (h.wr (PAD_STATE_STATE n) st (.pad hn)).evtIf _ (histBit n st) (.pad hn)

theorem Apart.computeH (h : Apart PadSide d0 d) (hn : n < 16) : Apart PadSide d0 (d.computeH n).1 := by
  unfold Dev.computeH
  dsimp only
  refine Apart.when ?_ _ _ ((Apart.refl _ _).wr48 _ _ _ (.pad hn) (.pad hn))
  exact ((h.wr _ _ (.pad hn)).wr _ _ (.pad hn)).wr _ _ (.pad hn)

theorem Apart.formHw (h : Apart PadSide d0 d) (hn : n < 16) : Apart PadSide d0 (d.formHw n) :=
  h.wr48 _ _ _ (.pad hn) (.pad hn)

theorem Apart.refreshHw (h : Apart PadSide d0 d) (hn : n < 16) : Apart PadSide d0 (d.refreshHw n) := by
  unfold Dev.refreshHw
  dsimp only
  split
  · exact (h.formHw hn).setWordY hn _
  · exact h.formHw hn

theorem Apart.enterFreerun (h : Apart PadSide d0 d) (hn : n < 16) (b : Bool) : Apart PadSide d0 (d.enterFreerun n b) := by
  unfold Dev.enterFreerun
  dsimp only
  refine (Apart.portsFreerun ?_ n).padIdle hn
  exact (((h.padTake hn 0).padHalt hn).setWordY hn _).when _ _
    (((Apart.refl _ _).evt _ (.pad hn)).fire _ _ PadSide.firing)

theorem Apart.enterHoldover (h : Apart PadSide d0 d) (hn : n < 16) : Apart PadSide d0 (d.enterHoldover n) := by
  unfold Dev.enterHoldover
  exact ((((h.padTake hn 3).padHalt hn).formHw hn).setWordY hn _).padIdle hn

theorem Apart.setBw (h : Apart PadSide d0 d) (hn : n < 16) (b : Nat × Nat) (s : Nat) (t : Bool) :
    Apart PadSide d0 (d.setBw n b s t) := ((h.setPad _ _).wr _ _ (.pad hn)).wr _ _ (.pad hn)

theorem Apart.startLadder (h : Apart PadSide d0 d) (hn : n < 16) (w : Bool) : Apart PadSide d0 (d.startLadder n w) := by
  unfold Dev.startLadder
  dsimp only
  split
  · exact h.setBw hn _ _ _
  · exact h.setBw hn _ _ _

theorem Apart.enterAcquire (h : Apart PadSide d0 d) (hn : n < 16) : Apart PadSide d0 (d.enterAcquire n) := by
  unfold Dev.enterAcquire
  exact (((h.padTake hn 1).padHalt hn).setPad _ _).startLadder hn _

theorem Apart.enterSteered (h : Apart PadSide d0 d) (hn : n < 16) : Apart PadSide d0 (d.enterSteered n) := by
  unfold Dev.enterSteered
  exact (((((h.padTake hn 4).setWord (rPAD_SFO_LO n) 0 (.pad hn)).setWord (rPAD_SFO_HI n) 0 (.pad hn)).setWord (rPAD_SFO_LO_C n) _
    (.pad hn)).setWord (rPAD_SFO_HI_C n) _ (.pad hn)).setPad _ _

theorem Apart.padFall (h : Apart PadSide d0 d) (hn : n < 16) : Apart PadSide d0 (d.padFall n) := by
  unfold Dev.padFall
  split
  · split
    · exact h
    · exact h.enterFreerun hn _
  · have h' := h.computeH hn
    dsimp only
    split
    · split
      · exact h'.refreshHw hn
      · exact h'.enterHoldover hn
    · split
      · exact h'
      · exact h'.enterFreerun hn _

theorem Apart.padAuto (h : Apart PadSide d0 d) (hn : n < 16) : Apart PadSide d0 (d.padAuto n) := by
  unfold Dev.padAuto
  split
  · exact h
  · split
    · exact h.enterAcquire hn
    · exact h.padFall hn

theorem Apart.modeReq (h : Apart PadSide d0 d) (hn : n < 16) (was : Nat) : Apart PadSide d0 (d.modeReq n was) := by
  unfold Dev.modeReq
  dsimp only
  split
  · split
    · exact h.padAuto hn
    · split
      · exact h.padAuto hn
      · exact h
  · split
    · exact h
    · exact h.enterFreerun hn _
  · split
    · exact h.evt _ (.pad hn)
    · have h' := h.computeH hn
      split
      · exact (h'.evt _ (.pad hn)).evt _ (.pad hn)
      · split
        · exact h'.refreshHw hn
        · exact h'.enterHoldover hn
  · split
    · exact h.enterSteered hn
    · exact h.evt _ (.pad hn)
  · exact h.evt _ (.pad hn)

theorem Apart.steeredTimeout (h : Apart PadSide d0 d) (hn : n < 16) : Apart PadSide d0 (d.steeredTimeout n) := by
  unfold Dev.steeredTimeout
  split
  · exact (h.evt _ (.pad hn)).padFall hn
  · exact h

/-! ### Selection (05) -/

theorem Apart.markOut (h : Apart PadSide d0 d) (hn : n < 16) (out : List Nat) : Apart PadSide d0 (d.markOut n out) := by
  unfold Dev.markOut
  refine h.forN 8 _ fun i hi d => (Apart.refl _ d).wr _ _ ?_
  simp only [PAD_CAND_STAT_VOTED_OUT, rPAD_CAND_STAT]
  left; omega

theorem Apart.setSplit (h : Apart PadSide d0 d) (hn : n < 16) (on : Bool) : Apart PadSide d0 (d.setSplit n on) := by
  unfold Dev.setSplit
  exact ((h.wr _ _ (.pad hn)).evtIf _ _ (.pad hn)).level _ _ _ _ PadSide.firing

theorem Apart.scores (h : Apart PadSide d0 d) (hn : n < 16) (v : Nat → Nat) :
    Apart PadSide d0 (Machine.forN 8 (fun i d => d.wr (PAD_CAND_STAT_SCORE n i) (v i)) d) := by
  refine h.forN 8 _ fun i hi d => (Apart.refl _ d).wr _ _ ?_
  simp only [PAD_CAND_STAT_SCORE, rPAD_CAND_STAT]
  left; omega

theorem Apart.votePad (h : Apart PadSide d0 d) (hn : n < 16) (fresh : List Nat) : Apart PadSide d0 (d.votePad n fresh) := by
  unfold Dev.votePad
  dsimp only
  split
  · have key : ∀ x, Apart PadSide d0 x → Apart PadSide d0 (if x.flag (PAD_SEL_STAT_RANK_SPLIT n) = true then
        Dev.setSplit n false x else x) := by
      intro x hx
      split
      · exact hx.setSplit hn _
      · exact hx
    refine key _ (Apart.setSel ?_ _ _)
    split
    · exact h
    · exact (h.markOut hn _).scores hn fun _ => 0
  · split
    · exact h
    · have h2 := (h.setSel n fun s => { s with seen := d.disputants n }).scores hn
      split
      · split
        · exact (h2 _).setSel _ _
        · exact (((h2 _).markOut hn _).setSel _ _).setSplit hn _
      · exact (((h2 _).markOut hn _).setSel _ _).setSplit hn _

theorem Apart.setActive (h : Apart PadSide d0 d) (hn : n < 16) (new : Option Nat) :
    Apart PadSide d0 (d.setActive n new) := by
  unfold Dev.setActive
  exact (((((h.wr _ _ (.pad hn)).wr _ _ (.pad hn)).wr _ _ (.pad hn)).wr _ _ (.pad hn)).setPad _ _).padUnusable _

theorem Apart.setFresh (h : Apart A d0 d) (f : Nat) : Apart A d0 { d with fresh := f } :=
  h.trans (by constructor <;> intros <;> rfl)

theorem Apart.startHold (h : Apart PadSide d0 d) (hn : n < 16) : Apart PadSide d0 (d.startHold n) := by
  unfold Dev.startHold
  dsimp only
  refine ((Apart.setSel ?_ _ _).wr _ _ (.pad hn)).wr _ _ (.pad hn)
  split
  · exact h
  · split
    · exact (h.setFresh _).setSel _ _
    · exact h.setSel _ _

theorem Apart.onSelect (h : Apart PadSide d0 d) (hn : n < 16) (old new : Option Nat) :
    Apart PadSide d0 (d.onSelect n old new) := by
  unfold Dev.onSelect
  split
  · exact h
  · dsimp only
    rename_i x
    split
    · exact ((h.setActive hn (some x)).setSel n _).enterAcquire hn
    · exact (h.setActive hn (some x)).setSel n _
  · dsimp only
    split
    · exact (h.padFall hn).setActive hn none
    · exact (h.setActive hn none).padIdle hn
  · rename_i x y
    have h' := ((h.setActive hn (some y)).bump (PAD_SWCNT_COUNT n) (.pad hn)).evt (PAD_SEL_EVT_SWITCH n) (.pad hn)
    dsimp only
    split
    · exact h'.setPad _ _
    · split
      · exact h'.startHold hn
      · exact h'

theorem Apart.setGuard (h : Apart PadSide d0 d) (hn : n < 16) (s : Bool) : Apart PadSide d0 (d.setGuard n s) := by
  unfold Dev.setGuard
  exact (h.wr _ _ (.pad hn)).when _ _ ((Apart.refl _ _).padUnusable _)

theorem Apart.publishCands (h : Apart PadSide d0 d) (hn : n < 16) : Apart PadSide d0 (d.publishCands n) := by
  unfold Dev.publishCands
  refine h.forN 8 _ fun i hi d => ((Apart.refl _ d).wr _ _ ?_).wr _ _ ?_ <;>
    (simp only [PAD_CAND_STAT_ELIG, PAD_CAND_STAT_REFSTATE, rPAD_CAND_STAT]; left; omega)

theorem Apart.selectPad (h : Apart PadSide d0 d) (hn : n < 16) (fresh : List Nat) :
    Apart PadSide d0 (d.selectPad n fresh) := by
  unfold Dev.selectPad
  split
  · exact h
  · extract_lets d1 old c d2 d3 d4 stray
    have h1 : Apart PadSide d0 d1 := h.votePad hn fresh
    have h2 : Apart PadSide d0 d3 := (h1.evtIf _ _ (.pad hn)).wr _ _ (.pad hn)
    have h3 : Apart PadSide d0 d4 := by
      unfold d4
      split
      · exact h2
      · exact (h2.onSelect hn _ _).evtIf _ _ (.pad hn)
    exact (h3.setGuard hn _).publishCands hn

/-- Selection touches the paddocks, their actuators and ports, and what a firing touches. -/
theorem Apart.select (h : Apart PadSide d0 d) : Apart PadSide d0 d.select := by
  unfold Dev.select
  exact (h.setSelNow none).forN 16 _ fun k hk d => (Apart.refl _ d).selectPad hk _

end Sys2Proof.Machine
end

