-- ==== Sys2Proof/Laws/Bus.lean ====
section
/-!
SUPPORT. Laws of the register bus: a refused write, and what an accepted write of a command register does.
-/

namespace Sys2Proof.Machine

/-- A register whose writes do nothing but land RW and RWS bits and set command bits in motion. -/
def plainCommand (a : Nat) (r : RegRow) : Bool :=
  !r.perMaster && decide (r.sqc = 0) && decide (r.cpl = 0) && decide (a ≠ rDEV_CROOK) && decide (a ≠ rOUT_TEE) &&
    !isReg 0x070000 16 0x40 8 a && !isReg 0x061000 64 32 0 a && !isReg 0x061000 64 32 4 a && decide (r.cmd ≠ 0) &&
    decide (a < 0x0F0000)

/-- A device with reserved bits of a written word noted (00 R12). -/
def Dev.noteReserved (r : RegRow) (w : Nat) (d : Dev) : Dev :=
  if w &&& reservedBits r = 0 then d else { d with outside := true }

/-- An accepted write of a command register: its RW and RWS bits land, then its command bits act; what follows comes on a later
LCLK edge (10 R275). -/
theorem Dev.write_command {d : Dev} {m a w : Nat} {r : RegRow} (h : d.Grants m a) (hr : rowAt a = some r)
    (hp : plainCommand a r = true) :
    d.write m a w =
      ((((d.noteReserved r (w % 2 ^ 32)).writeRw r a (w % 2 ^ 32)).writeRws r a (w % 2 ^ 32)).command m a
        (w % 2 ^ 32)).accessEdge := by
  unfold plainCommand at hp
  simp only [Bool.and_eq_true, Bool.not_eq_true', decide_eq_true_eq] at hp
  obtain ⟨⟨⟨⟨⟨⟨⟨⟨⟨h1, h2⟩, h3⟩, h4⟩, h5⟩, h6⟩, h7⟩, h8⟩, h9⟩, h10⟩ := hp
  unfold Dev.write Dev.busWrite
  rw [if_neg h.1, h.2]
  dsimp only
  rw [if_pos h10]
  dsimp only
  unfold Dev.regWrite
  rw [hr]
  dsimp only
  unfold Dev.rowWrite
  dsimp only
  have hc : ∀ x : Dev, x.claimedReg a = false := by
    intro x; unfold Dev.claimedReg; rw [h7, h8]; rfl
  rw [if_neg (by rw [h1]; decide), if_neg (by rw [h2]; decide), if_neg (by rw [h3]; decide), if_neg h4, if_neg h5,
    if_neg (by rw [h6]; decide), if_neg (by rw [hc]; decide), if_neg h9]
  rfl

theorem Dev.noteReserved_of_zero {d : Dev} {r : RegRow} {w : Nat} (h : w &&& reservedBits r = 0) :
    d.noteReserved r w = d := by
  unfold Dev.noteReserved
  rw [if_pos h]

theorem Dev.writeRw_of_zero {d : Dev} {r : RegRow} (a w : Nat) (h : r.rw = 0) : d.writeRw r a w = d := by
  unfold Dev.writeRw
  rw [if_pos h]

theorem Dev.writeRws_of_zero {d : Dev} {r : RegRow} (a w : Nat) (h : r.rws = 0) : d.writeRws r a w = d := by
  unfold Dev.writeRws
  rw [if_pos h]

theorem Dev.noteReserved_outside (d : Dev) (r : RegRow) (w : Nat) :
    ∃ b, d.noteReserved r w = { d with outside := b } := by
  unfold Dev.noteReserved
  split
  · exact ⟨d.outside, rfl⟩
  · exact ⟨true, rfl⟩

/-- The time that passes does not change whether an access is accepted. -/
theorem Dev.Grants.advance {d : Dev} {m a : Nat} (h : d.Grants m a) (dt : Nat) : (d.advance dt).Grants m a := ⟨h.1, h.2⟩

/-- A refused write: one bit of HOST_ERR, the count, and HOST_ACCESS with its access. -/
theorem Dev.write_refused {d : Dev} {m a w bit : Nat} (h : d.mode ≠ .reset) (hr : d.writeRefusal m a = some bit) :
    d.write m a w = (d.refuse bit m a (accType m true)).accessEdge := by
  unfold Dev.write Dev.busWrite
  rw [if_neg h, hr]

end Sys2Proof.Machine
end

