-- ==== Sys2Proof/Laws/Only.lean ====
section
/-!
SUPPORT. How a register frame (`OnlyRegs`) is carried through the shared operations.
-/

namespace Sys2Proof.Machine

variable {A : Nat → Prop} {d d0 : Dev}

theorem OnlyRegs.refl (A : Nat → Prop) (d : Dev) : OnlyRegs A d d := by constructor <;> intros <;> rfl

theorem OnlyRegs.trans {e f : Dev} (h : OnlyRegs A d e) (h' : OnlyRegs A e f) : OnlyRegs A d f :=
  ⟨fun a ha => by rw [h'.word a ha, h.word a ha], h'.shadow.trans h.shadow, h'.held.trans h.held,
    h'.perMaster.trans h.perMaster, fun a => (h'.sram a).trans (h.sram a), fun a => (h'.nvm a).trans (h.nvm a)⟩

theorem OnlyRegs.mono {B : Nat → Prop} {e : Dev} (h : OnlyRegs A d e) (hab : ∀ a, A a → B a) : OnlyRegs B d e :=
  ⟨fun a ha => h.word a fun x => ha (hab a x), h.shadow, h.held, h.perMaster, h.sram, h.nvm⟩

theorem OnlyRegs.rd {e : Dev} (h : OnlyRegs A d e) (f : Fld) (hf : ¬ A f.addr) : e.rd f = d.rd f := by
  unfold Dev.rd
  rw [h.word f.addr hf]

theorem OnlyRegs.flag {e : Dev} (h : OnlyRegs A d e) (f : Fld) (hf : ¬ A f.addr) : e.flag f = d.flag f := by
  unfold Dev.flag
  rw [h.rd f hf]

theorem Apart.only {e : Dev} (h : Apart A d e) : OnlyRegs A d e :=
  ⟨h.word, h.shadow, h.held, h.perMaster, fun a => by rw [h.sram], fun a => by rw [h.nvm]⟩

theorem Still.only {e : Dev} (h : Still A d e) : OnlyRegs A d e := h.apart.only

theorem Keeps.only {e : Dev} (h : Keeps A d e) : OnlyRegs A d e :=
  ⟨h.word, h.shadow, h.held, h.perMaster, fun a => by rw [h.sram], fun a => by rw [h.nvm]⟩

/-- A change of parts that hold no register and no memory. -/
theorem OnlyRegs.same {e : Dev} (h : OnlyRegs A d0 d) (h1 : e.live = d.live) (h2 : e.shadow = d.shadow)
    (h3 : e.held = d.held) (h4 : e.perMaster = d.perMaster) (h5 : e.sram = d.sram) (h6 : e.nvm = d.nvm) :
    OnlyRegs A d0 e :=
  h.trans ⟨fun a _ => Dev.word_congr h1 a, h2, h3, h4, fun a => by rw [h5], fun a => by rw [h6]⟩

theorem OnlyRegs.setRef (h : OnlyRegs A d0 d) (n : Nat) (f : RefMon → RefMon) : OnlyRegs A d0 (d.setRef n f) :=
  h.same rfl rfl rfl rfl rfl rfl

theorem OnlyRegs.setPad (h : OnlyRegs A d0 d) (n : Nat) (f : Paddock → Paddock) : OnlyRegs A d0 (d.setPad n f) :=
  h.same rfl rfl rfl rfl rfl rfl

theorem OnlyRegs.setSel (h : OnlyRegs A d0 d) (n : Nat) (f : Select → Select) : OnlyRegs A d0 (d.setSel n f) :=
  h.same rfl rfl rfl rfl rfl rfl

theorem OnlyRegs.setPort (h : OnlyRegs A d0 d) (n : Nat) (f : Port → Port) : OnlyRegs A d0 (d.setPort n f) :=
  h.same rfl rfl rfl rfl rfl rfl

theorem OnlyRegs.setBeat (h : OnlyRegs A d0 d) (n : Nat) (f : Beat → Beat) : OnlyRegs A d0 (d.setBeat n f) :=
  h.same rfl rfl rfl rfl rfl rfl

theorem OnlyRegs.setLink (h : OnlyRegs A d0 d) (n : Nat) (f : Link → Link) : OnlyRegs A d0 (d.setLink n f) :=
  h.same rfl rfl rfl rfl rfl rfl

theorem OnlyRegs.setCell (h : OnlyRegs A d0 d) (n : Nat) (f : Cell → Cell) : OnlyRegs A d0 (d.setCell n f) :=
  h.same rfl rfl rfl rfl rfl rfl

theorem OnlyRegs.setChan (h : OnlyRegs A d0 d) (n : Nat) (f : Chan → Chan) : OnlyRegs A d0 (d.setChan n f) :=
  h.same rfl rfl rfl rfl rfl rfl

theorem OnlyRegs.setRing (h : OnlyRegs A d0 d) (n : Nat) (f : Ring → Ring) : OnlyRegs A d0 (d.setRing n f) :=
  h.same rfl rfl rfl rfl rfl rfl

theorem OnlyRegs.setApll (h : OnlyRegs A d0 d) (n : Nat) (f : Apll → Apll) : OnlyRegs A d0 (d.setApll n f) :=
  h.same rfl rfl rfl rfl rfl rfl

theorem OnlyRegs.setOut (h : OnlyRegs A d0 d) (n : Nat) (f : OutSt → OutSt) : OnlyRegs A d0 (d.setOut n f) :=
  h.same rfl rfl rfl rfl rfl rfl

theorem OnlyRegs.setPsyn (h : OnlyRegs A d0 d) (n : Nat) (f : Psyn → Psyn) : OnlyRegs A d0 (d.setPsyn n f) :=
  h.same rfl rfl rfl rfl rfl rfl

theorem OnlyRegs.setJob (h : OnlyRegs A d0 d) (n : Nat) (j : Option Job) : OnlyRegs A d0 (d.setJob n j) :=
  h.same rfl rfl rfl rfl rfl rfl

theorem OnlyRegs.setClk (h : OnlyRegs A d0 d) (x : Clock) : OnlyRegs A d0 { d with clk := x } :=
  h.same rfl rfl rfl rfl rfl rfl

theorem OnlyRegs.setFlt (h : OnlyRegs A d0 d) (x : Flt) : OnlyRegs A d0 { d with flt := x } :=
  h.same rfl rfl rfl rfl rfl rfl

theorem OnlyRegs.setMeas (h : OnlyRegs A d0 d) (x : Meas) : OnlyRegs A d0 { d with meas := x } :=
  h.same rfl rfl rfl rfl rfl rfl

theorem OnlyRegs.setJobs (h : OnlyRegs A d0 d) (x : Jobs) : OnlyRegs A d0 { d with jobs := x } :=
  h.same rfl rfl rfl rfl rfl rfl

theorem OnlyRegs.setNvmc (h : OnlyRegs A d0 d) (x : NvmCtl) : OnlyRegs A d0 { d with nvmc := x } :=
  h.same rfl rfl rfl rfl rfl rfl

theorem OnlyRegs.setPast (h : OnlyRegs A d0 d) (x : Past) : OnlyRegs A d0 { d with past := x } :=
  h.same rfl rfl rfl rfl rfl rfl

theorem OnlyRegs.setFront (h : OnlyRegs A d0 d) (x : Front) : OnlyRegs A d0 { d with front := x } :=
  h.same rfl rfl rfl rfl rfl rfl

theorem OnlyRegs.setBoot (h : OnlyRegs A d0 d) (x : Boot) : OnlyRegs A d0 { d with boot := x } :=
  h.same rfl rfl rfl rfl rfl rfl

theorem OnlyRegs.setMbx (h : OnlyRegs A d0 d) (x : Mbx) : OnlyRegs A d0 { d with mbx := x } :=
  h.same rfl rfl rfl rfl rfl rfl

theorem OnlyRegs.setChk (h : OnlyRegs A d0 d) (x : Chk) : OnlyRegs A d0 { d with chk := x } :=
  h.same rfl rfl rfl rfl rfl rfl

theorem OnlyRegs.setAlive (h : OnlyRegs A d0 d) (x : List Nat) : OnlyRegs A d0 { d with alive := x } :=
  h.same rfl rfl rfl rfl rfl rfl

theorem OnlyRegs.setFresh (h : OnlyRegs A d0 d) (x : Nat) : OnlyRegs A d0 { d with fresh := x } :=
  h.same rfl rfl rfl rfl rfl rfl

theorem OnlyRegs.setRsp (h : OnlyRegs A d0 d) (x : List Word) : OnlyRegs A d0 { d with rsp := x } :=
  h.same rfl rfl rfl rfl rfl rfl

theorem OnlyRegs.setOutside (h : OnlyRegs A d0 d) (x : Bool) : OnlyRegs A d0 { d with outside := x } :=
  h.same rfl rfl rfl rfl rfl rfl

theorem OnlyRegs.setBumped (h : OnlyRegs A d0 d) (x : List (Nat × Nat)) : OnlyRegs A d0 { d with bumped := x } :=
  h.same rfl rfl rfl rfl rfl rfl

theorem OnlyRegs.setPrior (h : OnlyRegs A d0 d) (x : Mode) : OnlyRegs A d0 { d with priorMode := x } :=
  h.same rfl rfl rfl rfl rfl rfl

theorem OnlyRegs.askSelect (h : OnlyRegs A d0 d) (m : Option Nat) : OnlyRegs A d0 (d.askSelect m) :=
  h.same rfl rfl rfl rfl rfl rfl

theorem OnlyRegs.closeEdge (h : OnlyRegs A d0 d) : OnlyRegs A d0 d.closeEdge := h.same rfl rfl rfl rfl rfl rfl

theorem OnlyRegs.newEdge (h : OnlyRegs A d0 d) : OnlyRegs A d0 d.newEdge := h.same rfl rfl rfl rfl rfl rfl

theorem OnlyRegs.setWord (h : OnlyRegs A d0 d) (a : Nat) (w : Word) (ha : A a) : OnlyRegs A d0 (d.setWord a w) :=
  h.trans (Still.setWord d a w ha).only

theorem OnlyRegs.wr (h : OnlyRegs A d0 d) (f : Fld) (v : Nat) (hf : A f.addr) : OnlyRegs A d0 (d.wr f v) :=
  h.setWord f.addr _ hf

theorem OnlyRegs.evtMask (h : OnlyRegs A d0 d) (a m : Nat) (ha : A a) : OnlyRegs A d0 (d.evtMask a m) := by
  unfold Dev.evtMask
  exact (h.setWord a _ ha).trans (Still.setBumped _ _).only

theorem OnlyRegs.evt (h : OnlyRegs A d0 d) (f : Fld) (hf : A f.addr) : OnlyRegs A d0 (d.evt f) := h.evtMask _ _ hf

theorem OnlyRegs.evtIf (h : OnlyRegs A d0 d) (b : Bool) (f : Fld) (hf : A f.addr) : OnlyRegs A d0 (d.evtIf b f) := by
  unfold Dev.evtIf
  split
  · exact h.evt f hf
  · exact h

theorem OnlyRegs.unEvt (h : OnlyRegs A d0 d) (f : Fld) (hf : A f.addr) : OnlyRegs A d0 (d.unEvt f) := by
  unfold Dev.unEvt
  dsimp only
  split
  · exact (h.setWord f.addr _ hf).setBumped _
  · split
    · exact h
    · exact h.wr f _ hf

theorem OnlyRegs.bump (h : OnlyRegs A d0 d) (f : Fld) (hf : A f.addr) : OnlyRegs A d0 (d.bump f) := h.wr f _ hf

theorem OnlyRegs.bumpSat (h : OnlyRegs A d0 d) (f : Fld) (hf : A f.addr) : OnlyRegs A d0 (d.bumpSat f) := by
  unfold Dev.bumpSat
  split
  · exact h.wr f _ hf
  · exact h

theorem OnlyRegs.wr48 (h : OnlyRegs A d0 d) (lo hi : Fld) (v : Int) (hl : A lo.addr) (hh : A hi.addr) :
    OnlyRegs A d0 (d.wr48 lo hi v) := (h.wr lo _ hl).wr hi _ hh

theorem OnlyRegs.when (h : OnlyRegs A d0 d) (b : Bool) (f : Dev → Dev) (hf : OnlyRegs A d (f d)) :
    OnlyRegs A d0 (d.when b f) := by
  cases b
  · exact h
  · exact h.trans hf

theorem OnlyRegs.foldl {α : Type} (h : OnlyRegs A d0 d) (l : List α) (f : Dev → α → Dev)
    (hf : ∀ k ∈ l, ∀ d, OnlyRegs A d (f d k)) : OnlyRegs A d0 (l.foldl f d) := by
  induction l generalizing d with
  | nil => exact h
  | cons k t ih => exact ih (h.trans (hf k (by simp) d)) fun j hj => hf j (by simp [hj])

theorem OnlyRegs.forN (h : OnlyRegs A d0 d) (n : Nat) (f : Nat → Dev → Dev) (hf : ∀ k < n, ∀ d, OnlyRegs A d (f k d)) :
    OnlyRegs A d0 (forN n f d) := h.foldl _ (fun d k => f k d) fun k hk => hf k (by simpa using hk)

theorem FiringReg.at {a : Nat} (h : FiringReg a) : firingAt a := by
  unfold firingAt
  rcases h with (((⟨h, h'⟩ | h) | (h | h | ⟨h, h'⟩ | h | h) | h) | ⟨h, h'⟩ | h) <;> omega

theorem firingAt.reg {a : Nat} (h : firingAt a) : FiringReg a := by
  unfold FiringReg FireReg CapReg ReactReg
  unfold firingAt at h
  omega

theorem PadSide.at {a : Nat} (h : PadSide a) : selectionAt a := h.imp id (.imp id (.imp id (.imp id FiringReg.at)))

theorem OnlyRegs.fireAs (h : OnlyRegs A d0 d) (src detail : Nat) (acc : Option Access) (inj sim : Bool)
    (hf : ∀ a, firingAt a → A a) : OnlyRegs A d0 (d.fireAs src detail acc inj sim) :=
  h.trans ((Still.fireAs src detail acc inj sim d).mono fun a x => hf a x.at).only

theorem OnlyRegs.fire (h : OnlyRegs A d0 d) (src detail : Nat) (hf : ∀ a, firingAt a → A a) :
    OnlyRegs A d0 (d.fire src detail) := h.fireAs src detail none false false hf

theorem OnlyRegs.fireAcc (h : OnlyRegs A d0 d) (src detail addr : Nat) (m : Option Nat) (t : Nat)
    (hf : ∀ a, firingAt a → A a) : OnlyRegs A d0 (d.fireAcc src detail addr m t) := h.fireAs src detail _ false false hf

theorem OnlyRegs.raise (h : OnlyRegs A d0 d) (src inst detail : Nat) (hf : ∀ a, firingAt a → A a) :
    OnlyRegs A d0 (d.raise src inst detail) :=
  h.trans (((Apart.refl FiringReg d).raise src inst detail fun _ x => x).only.mono fun a x => hf a x.at)

theorem OnlyRegs.lower (h : OnlyRegs A d0 d) (src inst : Nat) : OnlyRegs A d0 (d.lower src inst) :=
  h.trans (((Apart.refl A d).lower src inst).only)

theorem OnlyRegs.level (h : OnlyRegs A d0 d) (src inst detail : Nat) (on : Bool) (hf : ∀ a, firingAt a → A a) :
    OnlyRegs A d0 (d.level src inst detail on) := by
  unfold Dev.level
  split
  · exact h.raise src inst detail hf
  · exact h.lower src inst

theorem OnlyRegs.select (h : OnlyRegs A d0 d) (hf : ∀ a, selectionAt a → A a) :
    OnlyRegs A d0 d.select :=
  h.trans ((Apart.refl PadSide d).select.only.mono fun a x => hf a x.at)

theorem JobsOnly.only {e : Dev} (h : JobsOnly d e) : OnlyRegs A d e := h.apart.only

theorem Dev.only_advance (d : Dev) (dt : Nat) : OnlyRegs A d (d.advance dt) := by constructor <;> intros <;> rfl

theorem selectionAt.firing : ∀ a, firingAt a → selectionAt a := fun _ h => Or.inr (Or.inr (Or.inr (Or.inr h)))

end Sys2Proof.Machine
end

