-- ==== Sys2Proof/Laws/Refs.lean ====
section
/-!
SUPPORT. Laws of the reference monitors (05): what a change of causes and states can touch, and the causes it leaves.
-/

namespace Sys2Proof.Machine

variable {d d0 : Dev} {n : Nat}

theorem refSide.ref {n b : Nat} (h1 : 0x020000 ≤ b := by decide) (h2 : b < 0x020100 := by decide) :
    refSide n (b + 0x100 * n) := by left; omega
theorem refSide.sel (n : Nat) : ∀ a, selectionAt a → refSide n a := fun _ h => Or.inr h
theorem refSide.firing (n : Nat) : ∀ a, firingAt a → refSide n a := fun _ h => Or.inr (selectionAt.firing _ h)

theorem OnlyRegs.refEnter (h : OnlyRegs (refSide n) d0 d) (st : Nat) : OnlyRegs (refSide n) d0 (d.refEnter n st) := by
  unfold Dev.refEnter
  dsimp only
  have h0 := h.askSelect none
  generalize d.askSelect none = x at h0
  have h1 := (((h0.evtIf (decide (x.refState n = 4)) (REF_EVT_STRAY_EXIT n) .ref).evtIf
    (decide (x.refState n = 2) && decide (3 ≤ st)) (REF_EVT_WTR_END n) .ref).when (decide (x.refState n = 4))
    (fun d => d.setRef n fun m => { m with clearCnt := 0 }) ((OnlyRegs.refl _ _).setRef _ _)).wr (REF_STAT_STATE n) st .ref
  split
  · exact ((h1.evt _ .ref).bump _ .ref).fire _ _ (refSide.firing n)
  · exact h1.evt _ .ref
  · exact ((h1.setRef _ _).evt _ .ref).fire _ _ (refSide.firing n)
  · exact h1

theorem OnlyRegs.refStray (h : OnlyRegs (refSide n) d0 d) : OnlyRegs (refSide n) d0 (d.refStray n) :=
  (((h.askSelect none).evtIf _ _ .ref).wr (REF_STAT_STATE n) 4 .ref).setRef n _

theorem OnlyRegs.refQualify (h : OnlyRegs (refSide n) d0 d) : OnlyRegs (refSide n) d0 (d.refQualify n) := by
  unfold Dev.refQualify
  split
  · exact h.refStray
  · exact h.refEnter _

theorem OnlyRegs.refBack (h : OnlyRegs (refSide n) d0 d) : OnlyRegs (refSide n) d0 (d.refBack n) :=
  (((h.wr (REF_STAT_STATE n) 1 .ref).unEvt (REF_EVT_QUAL n) .ref).wr (REF_WTR_LEFT_LEFT n) _ .ref).setRef n _

theorem OnlyRegs.refUnend (h : OnlyRegs (refSide n) d0 d) : OnlyRegs (refSide n) d0 (d.refUnend n) :=
  ((((h.wr (REF_STAT_STATE n) 2 .ref).unEvt (REF_EVT_QUAL n) .ref).unEvt (REF_EVT_WTR_END n) .ref).wr (REF_WTR_LEFT_LEFT n) _
    .ref).setRef n _

theorem OnlyRegs.refSet (h : OnlyRegs (refSide n) d0 d) (mask : Nat) : OnlyRegs (refSide n) d0 (d.refSet n mask) := by
  unfold Dev.refSet
  split
  · exact h
  · refine ((h.wr ⟨rREF_STAT n, 6, 0⟩ _ .ref).askSelect none).when _ _ ?_
    split
    · exact (OnlyRegs.refl _ _).refBack
    · exact ((OnlyRegs.refl _ _).when _ _ (OnlyRegs.refl _ _).refUnend).refEnter 1

theorem OnlyRegs.refClear (h : OnlyRegs (refSide n) d0 d) (mask : Nat) : OnlyRegs (refSide n) d0 (d.refClear n mask) := by
  unfold Dev.refClear
  dsimp only
  split
  · exact h
  · have h1 := h.wr ⟨rREF_STAT n, 6, 0⟩ (andNot (d.refCauses n) mask) .ref
    split
    · exact h1
    · split
      · exact ((h1.setRef _ _).wr _ _ .ref).refEnter 2
      · exact (h1.setRef _ _).refQualify

theorem OnlyRegs.refSettle (h : OnlyRegs (refSide n) d0 d) : OnlyRegs (refSide n) d0 (d.refSettle n) := by
  unfold Dev.refSettle
  exact h.when _ _ (OnlyRegs.refl _ _).refQualify

/-! ### Causes and states -/

/-- What entering a state can touch beside the state itself. -/
def refBeside (n a : Nat) : Prop := refSide n a ∧ a ≠ rREF_STAT n

theorem refBeside.ref {n b : Nat} (h1 : 0x020000 ≤ b := by decide) (h2 : b < 0x020100 := by decide)
    (h3 : b ≠ rREF_STAT 0 := by decide) : refBeside n (b + 0x100 * n) :=
  ⟨refSide.ref h1 h2, by unfold rREF_STAT at *; omega⟩

theorem refBeside.firing (n : Nat) : ∀ a, firingAt a → refBeside n a :=
  fun a h => ⟨refSide.firing n a h, by unfold firingAt at h; unfold rREF_STAT; omega⟩

/-- Entering a state is a change of REF_n_STAT.STATE, and what it brings beside that. -/
theorem Dev.refEnter_split (d : Dev) (n st : Nat) :
    ∃ x, OnlyRegs (refBeside n) d x ∧ OnlyRegs (refBeside n) (x.wr (REF_STAT_STATE n) st) (d.refEnter n st) := by
  have h0 := (OnlyRegs.refl (refBeside n) d).askSelect none
  unfold Dev.refEnter
  dsimp only
  generalize d.askSelect none = y at h0
  refine ⟨((y.evtIf (decide (y.refState n = 4)) (REF_EVT_STRAY_EXIT n)).evtIf
      (decide (y.refState n = 2) && decide (3 ≤ st)) (REF_EVT_WTR_END n)).when (decide (y.refState n = 4))
        (fun d => d.setRef n fun m => { m with clearCnt := 0 }), ?_, ?_⟩
  · exact ((h0.evtIf _ _ .ref).evtIf _ _ .ref).when _ _ ((OnlyRegs.refl _ _).setRef _ _)
  · have h1 := OnlyRegs.refl (refBeside n) ((((y.evtIf (decide (y.refState n = 4)) (REF_EVT_STRAY_EXIT n)).evtIf
      (decide (y.refState n = 2) && decide (3 ≤ st)) (REF_EVT_WTR_END n)).when (decide (y.refState n = 4))
        (fun d => d.setRef n fun m => { m with clearCnt := 0 })).wr (REF_STAT_STATE n) st)
    split
    · exact ((h1.evt _ .ref).bump _ .ref).fire _ _ (refBeside.firing n)
    · exact h1.evt _ .ref
    · exact ((h1.setRef _ _).evt _ .ref).fire _ _ (refBeside.firing n)
    · exact h1

/-- What entering a state leaves of REF_n_STAT: the state is taken, the causes stand. -/
theorem Dev.refEnter_stat (d : Dev) (n st : Nat) (hs : st < 8) :
    (d.refEnter n st).refState n = st ∧ (d.refEnter n st).refCauses n = d.refCauses n := by
  obtain ⟨x, hx, hw⟩ := d.refEnter_split n st
  have hn : ¬ refBeside n (rREF_STAT n) := fun h => h.2 rfl
  constructor
  · unfold Dev.refState
    rw [hw.rd _ hn, Dev.rd_wr_self _ _ _ (by simp only [Fld.ok, REF_STAT_STATE]; omega)]
    exact Nat.mod_eq_of_lt hs
  · unfold Dev.refCauses
    rw [hw.rd _ hn, Dev.rd_wr_of_disjoint _ _ _ _ (by simp only [Fld.ok]; omega) (by simp only [REF_STAT_STATE]; omega)
      (by simp only [REF_STAT_STATE]; omega), hx.rd _ hn]

/-- What going back to DISQ leaves of REF_n_STAT. -/
theorem Dev.refBack_stat (d : Dev) (n : Nat) :
    (d.refBack n).refState n = 1 ∧ (d.refBack n).refCauses n = d.refCauses n := by
  have hw : OnlyRegs (refBeside n) (d.wr (REF_STAT_STATE n) 1) (d.refBack n) :=
    (((OnlyRegs.refl _ _).unEvt (REF_EVT_QUAL n) .ref).wr (REF_WTR_LEFT_LEFT n) _ .ref).setRef n _
  have hn : ¬ refBeside n (rREF_STAT n) := fun h => h.2 rfl
  constructor
  · unfold Dev.refState
    rw [hw.rd _ hn, Dev.rd_wr_self _ _ _ (by simp only [Fld.ok, REF_STAT_STATE]; omega)]
    rfl
  · unfold Dev.refCauses
    rw [hw.rd _ hn, Dev.rd_wr_of_disjoint _ _ _ _ (by simp only [Fld.ok]; omega) (by simp only [REF_STAT_STATE]; omega)
      (by simp only [REF_STAT_STATE]; omega)]

/-- What a wait that has not ended after all leaves of REF_n_STAT: its causes. -/
theorem Dev.refUnend_causes (d : Dev) (n : Nat) : (d.refUnend n).refCauses n = d.refCauses n := by
  have hw : OnlyRegs (refBeside n) (d.wr (REF_STAT_STATE n) 2) (d.refUnend n) :=
    ((((OnlyRegs.refl _ _).unEvt (REF_EVT_QUAL n) .ref).unEvt (REF_EVT_WTR_END n) .ref).wr (REF_WTR_LEFT_LEFT n) _ .ref).setRef n _
  unfold Dev.refCauses
  rw [hw.rd _ fun h => h.2 rfl, Dev.rd_wr_of_disjoint _ _ _ _ (by simp only [Fld.ok]; omega) (by simp only [REF_STAT_STATE]; omega)
    (by simp only [REF_STAT_STATE]; omega)]

/-- A monitor that goes to DISQ is there with its causes, whether or not its wait counts as ended. -/
theorem Dev.refSend_stat (d : Dev) (n : Nat) (b : Bool) :
    ((d.when b (Dev.refUnend n)).refEnter n 1).refState n = 1 ∧
      ((d.when b (Dev.refUnend n)).refEnter n 1).refCauses n = d.refCauses n := by
  obtain ⟨g1, g2⟩ := (d.when b (Dev.refUnend n)).refEnter_stat n 1 (by omega)
  refine ⟨g1, g2.trans ?_⟩
  cases b
  · rfl
  · exact d.refUnend_causes n

/-- A cause bit that sets reads as set, and a monitor that was in WTR, QUAL or STRAY is in DISQ (R144). -/
theorem Dev.refSet_stat (d : Dev) (n mask : Nat) (h0 : d.refState n ≠ 0) (hm : mask ≠ 0) (hlt : mask < 128) :
    (d.refSet n mask).refCauses n = d.refCauses n ||| mask ∧
      (d.refSet n mask).refState n = if 2 ≤ d.refState n then 1 else d.refState n := by
  unfold Dev.refSet
  rw [if_neg (by omega)]
  dsimp only
  have hc : d.refCauses n < 2 ^ 7 := by unfold Dev.refCauses; exact bitsOf_lt _ _ _
  have hor : d.refCauses n ||| mask < 2 ^ 7 := Nat.or_lt_two_pow hc hlt
  generalize hy : d.wr ⟨rREF_STAT n, 6, 0⟩ (d.refCauses n ||| mask) = y
  have h1 : y.refCauses n = d.refCauses n ||| mask := by
    rw [← hy]; unfold Dev.refCauses
    rw [Dev.rd_wr_self _ _ _ (by simp only [Fld.ok]; omega)]
    exact Nat.mod_eq_of_lt hor
  have h2 : y.refState n = d.refState n := by
    rw [← hy]; unfold Dev.refState
    exact Dev.rd_wr_of_disjoint _ _ _ _ (by simp only [Fld.ok]; simp only [REF_STAT_STATE]; omega) (by simp only []; omega)
      (by simp only [REF_STAT_STATE]; omega)
  have h3 : (y.askSelect none).refCauses n = y.refCauses n := rfl
  have h4 : (y.askSelect none).refState n = y.refState n := rfl
  generalize y.askSelect none = z at h3 h4
  generalize (decide (z.oldRd (REF_STAT_STATE n) = 2) && decide (3 ≤ z.refState n)) = ended
  rw [h4, h2]
  unfold Dev.when
  split
  · next h =>
    rw [if_pos (by simpa using h)]
    dsimp only
    split
    · obtain ⟨g1, g2⟩ := z.refBack_stat n
      exact ⟨(g2.trans h3).trans h1, g1⟩
    · obtain ⟨g1, g2⟩ := z.refSend_stat n ended
      exact ⟨(g2.trans h3).trans h1, g1⟩
  · next h =>
    rw [if_neg (by simpa using h)]
    exact ⟨h3.trans h1, h4.trans h2⟩

end Sys2Proof.Machine
end

