-- ==== Sys2Proof/Laws/Low.lean ====
section
/-!
SUPPORT. The mode survives: operations that leave DEV_MODE, DEV_MODE_REQ and the record of resets (13 R346, R352, R354).
-/

/- One theorem at a time: the theorems of this file share the equations of the same definitions. -/
set_option Elab.async false

namespace Sys2Proof.Machine

/-- The registers below 0x20 (DEV_ID, DEV_MODE, DEV_MODE_REQ, DEV_UPDATE, DEV_UPDATE_CFG), the kind of the last reset and the
mode before it stand, and so do both memories, the boot loader and TCLK. -/
structure Low (d e : Dev) : Prop where
  word : ∀ a, a < 0x20 → e.word a = d.word a
  kind : e.resetKind = d.resetKind
  prior : e.priorMode = d.priorMode
  sram : e.sram = d.sram
  nvm : e.nvm = d.nvm
  boot : e.boot = d.boot
  tclk : e.clk.tclk = d.clk.tclk

variable {d d0 : Dev}

theorem Low.refl (d : Dev) : Low d d := ⟨fun _ _ => rfl, rfl, rfl, rfl, rfl, rfl, rfl⟩

theorem Low.trans {e f : Dev} (h : Low d e) (h' : Low e f) : Low d f :=
  ⟨fun a ha => (h'.word a ha).trans (h.word a ha), h'.kind.trans h.kind, h'.prior.trans h.prior,
    h'.sram.trans h.sram, h'.nvm.trans h.nvm, h'.boot.trans h.boot, h'.tclk.trans h.tclk⟩

theorem Low.rd {e : Dev} (h : Low d e) (f : Fld) (hf : f.addr < 0x20) : e.rd f = d.rd f := by
  unfold Dev.rd
  rw [h.word f.addr hf]

theorem Low.mode {e : Dev} (h : Low d e) : e.mode = d.mode := mode_congr (h.word _ (by decide))

theorem Low.underMode {e : Dev} (h : Low d e) : e.underMode = d.underMode := underMode_congr h.mode h.prior

/-- A change of parts that hold no register. -/
theorem Low.same {e : Dev} (h : Low d0 d) (h1 : e.live = d.live) (h2 : e.resetKind = d.resetKind)
    (h3 : e.priorMode = d.priorMode) (h4 : e.sram = d.sram) (h5 : e.nvm = d.nvm)
    (h6 : e.boot = d.boot) (h7 : e.clk = d.clk) : Low d0 e :=
  h.trans ⟨fun a _ => Dev.word_congr h1 a, h2, h3, h4, h5, h6, by rw [h7]⟩

/-- The address of a field of an array that begins above. -/
theorem Low.reg {b c n : Nat} (h : 0x20 ≤ b := by decide) : 0x20 ≤ b + c * n := by omega

theorem Low.setWord (h : Low d0 d) (a : Nat) (w : Word) (ha : 0x20 ≤ a := by first | decide | exact Low.reg) : Low d0 (d.setWord a w) :=
  h.trans ⟨fun b hb => Dev.word_setWord_of_ne _ _ _ _ (by omega), rfl, rfl, rfl, rfl, rfl, rfl⟩

theorem Low.wr (h : Low d0 d) (f : Fld) (v : Nat) (hf : 0x20 ≤ f.addr := by first | decide | exact Low.reg) : Low d0 (d.wr f v) := h.setWord _ _ hf

theorem Low.wrBoth (h : Low d0 d) (f : Fld) (v : Nat) (hf : 0x20 ≤ f.addr := by first | decide | exact Low.reg) : Low d0 (d.wrBoth f v) :=
  (h.wr f v hf).same rfl rfl rfl rfl rfl rfl rfl

theorem Low.wr48 (h : Low d0 d) (lo hi : Fld) (v : Int) (hl : 0x20 ≤ lo.addr := by first | decide | exact Low.reg)
    (hh : 0x20 ≤ hi.addr := by first | decide | exact Low.reg) :
    Low d0 (d.wr48 lo hi v) := (h.wr lo _ hl).wr hi _ hh

theorem Low.setRef (h : Low d0 d) (n : Nat) (f : RefMon → RefMon) : Low d0 (d.setRef n f) := h.same rfl rfl rfl rfl rfl rfl rfl
theorem Low.setPad (h : Low d0 d) (n : Nat) (f : Paddock → Paddock) : Low d0 (d.setPad n f) := h.same rfl rfl rfl rfl rfl rfl rfl
theorem Low.setBeat (h : Low d0 d) (n : Nat) (f : Beat → Beat) : Low d0 (d.setBeat n f) := h.same rfl rfl rfl rfl rfl rfl rfl
theorem Low.setCell (h : Low d0 d) (n : Nat) (f : Cell → Cell) : Low d0 (d.setCell n f) := h.same rfl rfl rfl rfl rfl rfl rfl
theorem Low.setApll (h : Low d0 d) (n : Nat) (f : Apll → Apll) : Low d0 (d.setApll n f) := h.same rfl rfl rfl rfl rfl rfl rfl
theorem Low.setOut (h : Low d0 d) (n : Nat) (f : OutSt → OutSt) : Low d0 (d.setOut n f) := h.same rfl rfl rfl rfl rfl rfl rfl
theorem Low.setPort (h : Low d0 d) (n : Nat) (f : Port → Port) : Low d0 (d.setPort n f) := h.same rfl rfl rfl rfl rfl rfl rfl
theorem Low.setPsyn (h : Low d0 d) (n : Nat) (f : Psyn → Psyn) : Low d0 (d.setPsyn n f) := h.same rfl rfl rfl rfl rfl rfl rfl
theorem Low.setLink (h : Low d0 d) (n : Nat) (f : Link → Link) : Low d0 (d.setLink n f) := h.same rfl rfl rfl rfl rfl rfl rfl
theorem Low.setMeas (h : Low d0 d) (x : Meas) : Low d0 { d with meas := x } := h.same rfl rfl rfl rfl rfl rfl rfl
theorem Low.setFlt (h : Low d0 d) (x : Flt) : Low d0 { d with flt := x } := h.same rfl rfl rfl rfl rfl rfl rfl
theorem Low.setNvmc (h : Low d0 d) (x : NvmCtl) : Low d0 { d with nvmc := x } := h.same rfl rfl rfl rfl rfl rfl rfl
theorem Low.setPast (h : Low d0 d) (x : Past) : Low d0 { d with past := x } := h.same rfl rfl rfl rfl rfl rfl rfl
theorem Low.setChk (h : Low d0 d) (x : Chk) : Low d0 { d with chk := x } := h.same rfl rfl rfl rfl rfl rfl rfl
theorem Low.setFront (h : Low d0 d) (x : Front) : Low d0 { d with front := x } := h.same rfl rfl rfl rfl rfl rfl rfl
theorem Low.setBumped (h : Low d0 d) (x : List (Nat × Nat)) : Low d0 { d with bumped := x } := h.same rfl rfl rfl rfl rfl rfl rfl

theorem Low.setHw (h : Low d0 d) (a : Nat) (w : Word) (ha : 0x20 ≤ a := by first | decide | exact Low.reg) :
    Low d0 (d.setHw a w) := (h.setWord a w ha).same rfl rfl rfl rfl rfl rfl rfl

theorem Low.evt (h : Low d0 d) (f : Fld) (hf : 0x20 ≤ f.addr := by first | decide | exact Low.reg) : Low d0 (d.evt f) := by
  unfold Dev.evt Dev.evtMask
  exact (h.setWord f.addr _ hf).setBumped _

theorem Low.evtIf (h : Low d0 d) (b : Bool) (f : Fld) (hf : 0x20 ≤ f.addr := by first | decide | exact Low.reg) : Low d0 (d.evtIf b f) := by
  unfold Dev.evtIf
  split
  · exact h.evt f hf
  · exact h

theorem Low.bump (h : Low d0 d) (f : Fld) (hf : 0x20 ≤ f.addr := by first | decide | exact Low.reg) : Low d0 (d.bump f) := h.wr f _ hf

theorem Low.when (h : Low d0 d) (b : Bool) (f : Dev → Dev) (hf : Low d (f d)) : Low d0 (d.when b f) := by
  cases b
  · exact h
  · exact h.trans hf

theorem Low.foldl {α : Type} (h : Low d0 d) (l : List α) (f : Dev → α → Dev) (hf : ∀ k ∈ l, ∀ d, Low d (f d k)) :
    Low d0 (l.foldl f d) := by
  induction l generalizing d with
  | nil => exact h
  | cons a t ih =>
    exact ih (h.trans (hf a (by simp) d)) fun k hk => hf k (by simp [hk])

theorem Low.forN (h : Low d0 d) (n : Nat) (f : Nat → Dev → Dev) (hf : ∀ k < n, ∀ d, Low d (f k d)) :
    Low d0 (forN n f d) := h.foldl _ (fun d k => f k d) fun k hk => hf k (by simpa using hk)

theorem Apart.low {A : Nat → Prop} {e : Dev} (h : Apart A d e) (hA : ∀ a, a < 0x20 → ¬ A a) : Low d e :=
  ⟨fun a ha => h.word a (hA a ha), h.resetKind, h.priorMode, h.sram, h.nvm, h.boot, h.tclk⟩

theorem PadSide.low : ∀ a, a < 0x20 → ¬ PadSide a := fun _ h => not_padSide (by omega) (by omega)

theorem JobsOnly.low {e : Dev} (h : JobsOnly d e) : Low d e := by
  obtain ⟨j, rfl⟩ := h
  exact (Low.refl d).same rfl rfl rfl rfl rfl rfl rfl

theorem Low.fireAs (h : Low d0 d) (src detail : Nat) (acc : Option Access) (inj sim : Bool) :
    Low d0 (d.fireAs src detail acc inj sim) :=
  h.trans ((Still.fireAs src detail acc inj sim d).apart.low fun a ha => not_firingReg (by omega) (by omega) (by omega) (by omega))

theorem Low.fire (h : Low d0 d) (src detail : Nat) : Low d0 (d.fire src detail) := h.fireAs _ _ _ _ _

theorem Low.raise (h : Low d0 d) (src inst detail : Nat) : Low d0 (d.raise src inst detail) := by
  unfold Dev.raise
  split
  · exact h
  · exact (h.setFlt _).fire _ _

theorem Low.lower (h : Low d0 d) (src inst : Nat) : Low d0 (d.lower src inst) :=
  h.trans (((Apart.refl (fun _ => False) d).lower src inst).low fun _ _ h => h)

theorem Low.level (h : Low d0 d) (src inst detail : Nat) (on : Bool) : Low d0 (d.level src inst detail on) := by
  unfold Dev.level
  split
  · exact h.raise ..
  · exact h.lower ..

/-! ### Selection, paddocks, references, outputs -/

theorem Low.select (h : Low d0 d) : Low d0 d.select := h.trans ((Apart.refl PadSide d).select.low PadSide.low)

theorem Low.askSelect (h : Low d0 d) (m : Option Nat) : Low d0 (d.askSelect m) := h.same rfl rfl rfl rfl rfl rfl rfl

theorem Low.padFall {n : Nat} (h : Low d0 d) (hn : n < 16) : Low d0 (d.padFall n) :=
  h.trans (((Apart.refl PadSide d).padFall hn).low PadSide.low)

theorem Low.padAuto {n : Nat} (h : Low d0 d) (hn : n < 16) : Low d0 (d.padAuto n) :=
  h.trans (((Apart.refl PadSide d).padAuto hn).low PadSide.low)

theorem Low.modeReq {n : Nat} (h : Low d0 d) (hn : n < 16) (was : Nat) : Low d0 (d.modeReq n was) :=
  h.trans (((Apart.refl PadSide d).modeReq hn _).low PadSide.low)

theorem Low.setWordY {n : Nat} (h : Low d0 d) (hn : n < 16) (y : Int) : Low d0 (d.setWordY n y) :=
  h.trans (((Apart.refl PadSide d).setWordY hn y).low PadSide.low)

theorem Low.refreshHw {n : Nat} (h : Low d0 d) (hn : n < 16) : Low d0 (d.refreshHw n) :=
  h.trans (((Apart.refl PadSide d).refreshHw hn).low PadSide.low)

theorem Low.enterFreerun {n : Nat} (h : Low d0 d) (hn : n < 16) (b : Bool) : Low d0 (d.enterFreerun n b) :=
  h.trans (((Apart.refl PadSide d).enterFreerun hn b).low PadSide.low)

theorem refSide.low (n : Nat) : ∀ a, a < 0x20 → ¬ refSide n a := by
  intro a h; unfold refSide selectionAt firingAt; omega

theorem Low.refEnter (h : Low d0 d) (n st : Nat) : Low d0 (d.refEnter n st) := by
  have hk : ∀ x : Dev, Low x (x.refEnter n st) := by
    intro x
    have h0 := (Low.refl x).askSelect none
    unfold Dev.refEnter
    dsimp only
    generalize x.askSelect none = y at h0
    have h1 := (((h0.evtIf (decide (y.refState n = 4)) (REF_EVT_STRAY_EXIT n)).evtIf
      (decide (y.refState n = 2) && decide (3 ≤ st)) (REF_EVT_WTR_END n)).when (decide (y.refState n = 4))
      (fun d => d.setRef n fun m => { m with clearCnt := 0 }) ((Low.refl _).setRef _ _)).wr (REF_STAT_STATE n) st Low.reg
    split
    · exact ((h1.evt _).bump _).fire _ _
    · exact h1.evt _ Low.reg
    · exact ((h1.setRef _ _).evt _).fire _ _
    · exact h1
  exact h.trans (hk d)

theorem Low.unEvt (h : Low d0 d) (f : Fld) (hf : 0x20 ≤ f.addr := by first | decide | exact Low.reg) : Low d0 (d.unEvt f) := by
  unfold Dev.unEvt
  dsimp only
  split
  · exact (h.setWord f.addr _ hf).setBumped _
  · split
    · exact h
    · exact h.wr f _ hf

theorem Low.refBack (h : Low d0 d) (n : Nat) : Low d0 (d.refBack n) :=
  (((h.wr (REF_STAT_STATE n) 1 Low.reg).unEvt (REF_EVT_QUAL n) Low.reg).wr (REF_WTR_LEFT_LEFT n) _ Low.reg).setRef n _

theorem Low.refUnend (h : Low d0 d) (n : Nat) : Low d0 (d.refUnend n) :=
  ((((h.wr (REF_STAT_STATE n) 2 Low.reg).unEvt (REF_EVT_QUAL n) Low.reg).unEvt (REF_EVT_WTR_END n) Low.reg).wr
    (REF_WTR_LEFT_LEFT n) _ Low.reg).setRef n _

theorem Low.refStray (h : Low d0 d) (n : Nat) : Low d0 (d.refStray n) :=
  (((h.askSelect none).evtIf _ (REF_EVT_WTR_END n) Low.reg).wr (REF_STAT_STATE n) 4 Low.reg).setRef n _

theorem Low.refQualify (h : Low d0 d) (n : Nat) : Low d0 (d.refQualify n) := by
  unfold Dev.refQualify
  split
  · exact h.refStray n
  · exact h.refEnter n 3

theorem Low.refSet (h : Low d0 d) (n mask : Nat) : Low d0 (d.refSet n mask) := by
  unfold Dev.refSet
  split
  · exact h
  · refine ((h.wr ⟨rREF_STAT n, 6, 0⟩ _ Low.reg).askSelect none).when _ _ ?_
    split
    · exact (Low.refl _).refBack n
    · exact ((Low.refl _).when _ _ ((Low.refl _).refUnend n)).refEnter n 1

theorem Low.refClear (h : Low d0 d) (n mask : Nat) : Low d0 (d.refClear n mask) := by
  unfold Dev.refClear
  dsimp only
  split
  · exact h
  · have h1 := h.wr ⟨rREF_STAT n, 6, 0⟩ (andNot (d.refCauses n) mask) Low.reg
    split
    · exact h1
    · split
      · exact ((h1.setRef _ _).wr _ _).refEnter _ _
      · exact (h1.setRef _ _).refQualify _

theorem Low.refSettle (h : Low d0 d) (n : Nat) : Low d0 (d.refSettle n) := h.when _ _ ((Low.refl _).refQualify _)

theorem Low.refForced (h : Low d0 d) (n : Nat) : Low d0 (d.refForced n) := by
  unfold Dev.refForced
  split
  · exact h.when _ _ ((Low.refl _).refSet _ _)
  · exact (h.refClear _ _).refSettle _

theorem Low.refStart (h : Low d0 d) (n : Nat) : Low d0 (d.refStart n) := by
  unfold Dev.refStart
  dsimp only
  have h1 : Low d0 (d.setRef n fun _ => { RefMon.fresh with waitWin := true }) := h.setRef _ _
  split
  · exact h1
  · exact h1.setWord _ _ Low.reg

theorem Low.refStop (h : Low d0 d) (n : Nat) : Low d0 (d.refStop n) := by
  unfold Dev.refStop
  dsimp only
  have h1 : Low d0 (d.setRef n fun _ => RefMon.fresh) := h.setRef _ _
  split
  · exact h1
  · exact h1.setWord _ _ Low.reg

theorem Low.refStartAll (h : Low d0 d) : Low d0 d.refStartAll := by
  unfold Dev.refStartAll
  have h1 := h.forN 12 (fun n d => if d.claimed n then d.refStart n else d.refStop n) fun k _ d => by
    split
    · exact (Low.refl d).refStart k
    · exact (Low.refl d).refStop k
  dsimp only
  split
  · exact h1.refStart _
  · exact h1.refStop _

theorem Low.refSleepAll (h : Low d0 d) : Low d0 d.refSleepAll := by
  unfold Dev.refSleepAll
  refine Low.refStop (h.forN 12 _ fun k _ d => ?_) _
  dsimp only
  split
  · exact ((Low.refl d).refStop k).setWord _ _ Low.reg
  · exact (Low.refl d).refStop k

theorem Low.setLock (h : Low d0 d) (k : Nat) (b : Bool) : Low d0 (d.setLock k b) := (h.setApll k _).wr (FLOCK_STAT_LOCK k) _ Low.reg

theorem Low.psynRun (h : Low d0 d) (j : Nat) (b : Bool) : Low d0 (d.psynRun j b) :=
  (h.setPsyn j _).wr (PSYN_STAT_RUNNING j) _ Low.reg

theorem Low.beatQual (h : Low d0 d) (b : Nat) : Low d0 (d.beatQual b) := (h.wr (BN_STAT_QUAL b) _ Low.reg).askSelect none

theorem Low.setClk (h : Low d0 d) (x : Clock) (hx : x.tclk = d.clk.tclk) : Low d0 { d with clk := x } :=
  h.trans ⟨fun _ _ => rfl, rfl, rfl, rfl, rfl, rfl, hx⟩

theorem Low.checkShort (h : Low d0 d) : Low d0 d.checkShort := by
  unfold Dev.checkShort
  dsimp only
  split
  · split
    · exact h
    · exact (h.evt MEAS_STAT_POOL_SHORT).raise _ _ _
  · exact h.lower _ _

theorem Low.beatsStart (h : Low d0 d) : Low d0 d.beatsStart :=
  h.forN 8 _ fun b _ d => (((Low.refl d).setBeat b _).setWord (rBN_STAT b) 0 Low.reg).beatQual b

theorem Low.padsWake (h : Low d0 d) : Low d0 d.padsWake :=
  h.forN 16 _ fun _ hk d => (Low.refl d).padAuto hk

theorem Low.padsSleep (h : Low d0 d) : Low d0 d.padsSleep :=
  h.forN 16 _ fun _ hk d => by
    split
    · exact Low.refl d
    · split
      · split
        · exact Low.refl d
        · exact (Low.refl d).enterFreerun hk true
      · exact (Low.refl d).padFall hk

theorem Low.judgeDue (h : Low d0 d) (t : Int) : Low d0 (d.judgeDue t) :=
  h.forN 48 _ fun _ _ d => by
    dsimp only
    split
    · exact Low.refl d
    · exact ((Low.refl d).setCell _ _).setMeas _

theorem Low.outTry (h : Low d0 d) (n : Nat) : Low d0 (d.outTry n) := by
  unfold Dev.outTry
  dsimp only
  split
  · exact ((h.wr _ _).wr _ _).setOut _ _
  · exact h

theorem Low.apllCal (h : Low d0 d) (k : Nat) : Low d0 (d.apllCal k) :=
  (h.setLock k false).wr (FLOCK_STAT_CAL_BUSY k) 1 Low.reg

theorem Low.psynsResume (h : Low d0 d) (k : Nat) : Low d0 (d.psynsResume k) :=
  h.forN 4 _ fun j _ d => (Low.refl d).when _ _ ((Low.refl d).psynRun j true)

theorem Low.outsWake (h : Low d0 d) : Low d0 d.outsWake := by
  unfold Dev.outsWake
  refine Low.forN (h.forN 6 _ fun k _ d => ?_) 24 _ fun k _ d => (Low.refl d).outTry k
  split
  · exact ((Low.refl d).apllCal k).setApll _ _
  · split
    · exact (Low.refl d).psynsResume k
    · exact (Low.refl d).setApll _ _

theorem Low.outStop (h : Low d0 d) (n : Nat) (b : Bool) : Low d0 (d.outStop n b) := by
  unfold Dev.outStop
  dsimp only
  split
  · exact (((h.wr _ _).when _ _ ((Low.refl _).wr _ _)).setOut _ _).lower _ _
  · split
    · exact h.wr _ _ Low.reg
    · exact h

theorem Low.outsSleep (h : Low d0 d) : Low d0 d.outsSleep := by
  unfold Dev.outsSleep
  refine Low.forN (h.forN 24 _ fun k _ d => ?_) 4 _ fun j _ d => (Low.refl d).when _ _ ((Low.refl d).psynRun j false)
  split
  · exact Low.refl d
  · exact (Low.refl d).outStop k false

theorem Low.measHalt (h : Low d0 d) : Low d0 d.measHalt := by
  unfold Dev.measHalt
  dsimp only
  split
  · split
    · exact (((h.setMeas _).setCell _ _).checkShort).setMeas _
    · exact ((h.setMeas _).setCell _ _).setMeas _
  · exact h.setMeas _

/-! ### Jobs -/

theorem JobReg.low : ∀ a, a < 0x20 → ¬ JobReg a := fun _ h => not_jobReg (by omega)
  (not_firingReg (by omega) (by omega) (by omega) (by omega))

theorem Low.rstJobs (h : Low d0 d) (cause : Nat) : Low d0 (d.rstJobs cause) :=
  h.trans (((Apart.refl JobReg d).rstJobs (fun _ x => x) cause).low JobReg.low)

theorem Low.abortWhere (h : Low d0 d) (cause : Nat) (p : Job → Bool) : Low d0 (d.abortWhere cause p) :=
  h.trans (((Apart.refl JobReg d).abortWhere (fun _ x => x) cause p).low JobReg.low)

theorem Low.epochAll (h : Low d0 d) (cause : Nat) : Low d0 (d.epochAll cause) := h.trans (JobsOnly.epochAll cause d).low

theorem Low.portPend (h : Low d0 d) (k : Nat) : Low d0 (d.portPend k) := h.wr _ _

theorem Low.portsPend (h : Low d0 d) : Low d0 d.portsPend := h.forN 8 _ fun k _ d => (Low.refl d).portPend k

theorem Low.portsCut (h : Low d0 d) : Low d0 d.portsCut :=
  h.forN 8 _ fun k _ d => ((Low.refl d).wr (STEER_STAT_BUSY k) 0 Low.reg).setPort k _

/-! ### SLEEP (13 R355, R356) -/

theorem Low.sleepEnter (h : Low d0 d) : Low d0 d.sleepEnter := by
  unfold Dev.sleepEnter
  have h1 := h.abortWhere 6 fun _ => true
  generalize d.abortWhere 6 (fun _ => true) = x at h1
  have h2 := (h1.padsSleep.refSleepAll).askSelect none
  dsimp only
  generalize x.padsSleep.refSleepAll.askSelect none = y at h2
  exact h2.outsSleep.measHalt.portsCut

theorem Low.sleepExit (h : Low d0 d) : Low d0 d.sleepExit := by
  unfold Dev.sleepExit
  have h1 := h.refStartAll.beatsStart.padsWake
  dsimp only
  generalize d.refStartAll.beatsStart.padsWake = x at h1
  have h2 : Low d0 (if x.flag DEV_TEMP_VALID then x.judgeDue (x.rdS DEV_TEMP_TEMP) else x) := by
    split
    · exact h1.judgeDue _
    · exact h1
  generalize (if x.flag DEV_TEMP_VALID then x.judgeDue (x.rdS DEV_TEMP_TEMP) else x) = y at h2
  have h3 := h2.outsWake
  generalize y.outsWake = z at h3
  exact h3.portsPend.askSelect none

/-! ### Resets (13 R350, R357) -/

theorem Low.logEvent (h : Low d0 d) (c a x : Nat) : Low d0 (d.logEvent c a x) := h.setFlt _

theorem Low.alignStop (h : Low d0 d) : Low d0 d.alignStop := by
  unfold Dev.alignStop
  split
  · exact (h.setHw rOUT_TEE _ (by decide)).same rfl rfl rfl rfl rfl rfl rfl
  · exact h

theorem Low.mbxComplete (h : Low d0 d) (code : Nat) (res : List Nat) : Low d0 (d.mbxComplete code res) := by
  unfold Dev.mbxComplete
  have h1 := h.alignStop
  dsimp only
  generalize d.alignStop = x at h1
  exact (((((h1.logEvent _ _ _).wr DEV_MBX_STAT_CODE _).forN 4 _ fun k _ d => (Low.refl d).wr (DEV_MBX_RES_RES k) _ Low.reg).wr
    DEV_MBX_STAT_BUSY _).wr DEV_MBX_STAT_DONE _).evt DEV_MBX_EVT_DONE

theorem Low.chkReset (h : Low d0 d) : Low d0 d.chkReset := by
  unfold Dev.chkReset
  refine Low.setChk (h.forN 4 _ fun k _ d => ?_) _
  split
  · exact (((((Low.refl d).wr _ _).wr _ _).wr _ _).wr _ _).wr _ _
  · exact Low.refl d

theorem Low.notLogged (h : Low d0 d) (e : LogEntry) : Low d0 (d.notLogged e) := by
  unfold Dev.notLogged
  split
  · exact h.setFlt _
  · exact h

theorem Low.nvmReset (h : Low d0 d) : Low d0 d.nvmReset := by
  unfold Dev.nvmReset
  exact ((h.setNvmc _).foldl _ _ fun e _ d => (Low.refl d).notLogged e).wr _ _

theorem Low.cntRestart (h : Low d0 d) : Low d0 d.cntRestart :=
  ((h.wr _ _).wr _ _).forN 32 _ fun _ _ d => ((Low.refl d).wr _ _).wr _ _

theorem Low.padWarm {n : Nat} (h : Low d0 d) (hn : n < 16) : Low d0 (d.padWarm n) := by
  have hk : ∀ x : Dev, Low x (x.padWarm n) := by
    intro x
    unfold Dev.padWarm
    dsimp only
    split
    · have h1 : Low x (if x.padSt n = 2 then x.padTake n 1 else x) := by
        split
        · exact ((Apart.refl PadSide x).padTake hn 1).low PadSide.low
        · exact Low.refl x
      generalize (if x.padSt n = 2 then x.padTake n 1 else x) = y at h1
      have h2 := h1.trans (((Apart.refl PadSide y).padHalt hn).low PadSide.low)
      generalize y.padHalt n = z at h2
      have h3 := h2.setPad n fun p => { p with integ := x.padWord n * 2 ^ 32, first := true }
      exact h3.trans ((((Apart.refl PadSide _).setBw hn _ _ _).padUnusable n).low PadSide.low)
    · split
      · exact (((Apart.refl PadSide x).computeH hn).enterHoldover hn).low PadSide.low
      · exact ((Apart.refl PadSide x).padIdle hn).low PadSide.low
  exact h.trans (hk d)

theorem Low.setAcc (h : Low d0 d) (k : Nat) (a : Int) : Low d0 (d.setAcc k a) := (h.setPort _ _).wr48 _ _ _

theorem Low.portOff (h : Low d0 d) (k : Nat) : Low d0 (d.portOff k) :=
  ((((((h.wr (STEER_STAT_STATE k) 0 Low.reg).wr (STEER_STAT_CAUSE k) 0 Low.reg).wr (STEER_STAT_PARKED k) 0 Low.reg).wr
    (STEER_STAT_CLAMP_LIM k) 0 Low.reg).wr (STEER_STAT_SLEW_LIM k) 0 Low.reg).setPort k _).portPend k

theorem Low.portDisable (h : Low d0 d) (k : Nat) : Low d0 (d.portDisable k) := by
  unfold Dev.portDisable
  split
  · exact h
  · exact h.portOff k

theorem Low.portEnable (h : Low d0 d) (k : Nat) : Low d0 (d.portEnable k) := by
  unfold Dev.portEnable
  dsimp only
  refine Low.portPend (Low.setPort (Low.setAcc (Low.wr (Low.wr ?_ (STEER_WORD_SENT_V k) 0 Low.reg)
    (STEER_STAT_CLAMP_LIM k) 0 Low.reg) k 0) k _) k
  exact h.when _ _ ((((Low.refl d).wr (STEER_STAT_STATE k) 1 Low.reg).wr (STEER_STAT_CAUSE k) 0 Low.reg).wr
    (STEER_STAT_PARKED k) 0 Low.reg)

theorem Low.portsWarm (h : Low d0 d) : Low d0 d.portsWarm :=
  h.forN 8 _ fun k _ d => by
    split
    · exact (((Low.refl d).wrBoth (STEER_CTL_ENABLE k) 0 Low.reg).portOff k).setAcc k 0
    · split
      · exact ((Low.refl d).setPort k _).portPend k
      · exact Low.refl d

theorem Low.rewriteAgain (h : Low d0 d) : Low d0 d.rewriteAgain := by
  unfold Dev.rewriteAgain
  split
  · exact (h.setNvmc _).setNvmc _
  · exact h

/-! ### Updates (10 R268) -/

theorem group_high {r : RegRow} {a g : Nat} (hr : rowAt a = some r) (hg : groupOf r a = some g) : 0x20 ≤ a := by
  by_contra hlt
  have key : ∀ a < 0x20, ((rowAt a).bind fun r => groupOf r a) = none := by decide
  have := key a (by omega)
  rw [hr] at this
  simp [hg] at this

theorem inGroups_high {mask a : Nat} (h : inGroups mask a = true) : 0x20 ≤ a := by
  unfold inGroups at h
  split at h
  · next r hr =>
    cases hg : groupOf r a with
    | none => rw [hg] at h; simp at h
    | some g => exact group_high hr hg
  · cases h

theorem mem_insertNat (a b : Nat) (l : List Nat) (h : b ∈ insertNat a l) : b = a ∨ b ∈ l := by
  induction l with
  | nil => simpa [insertNat] using h
  | cons c t ih =>
    unfold insertNat at h
    split at h
    · simpa using h
    · rcases List.mem_cons.1 h with h | h
      · simp [h]
      · rcases ih h with h | h <;> simp [h]

theorem updateAddrs_high (mask : Nat) (d : Dev) : ∀ a ∈ d.updateAddrs mask, inGroups mask a = true := by
  unfold Dev.updateAddrs
  dsimp only
  have key : ∀ (ks l : List Nat), (∀ a ∈ ks, inGroups mask a = true) → (∀ a ∈ l, inGroups mask a = true) →
      ∀ a ∈ ks.foldl (fun l a => insertNat a l) l, inGroups mask a = true := by
    intro ks
    induction ks with
    | nil => intro l _ hl; exact hl
    | cons k t ih =>
      intro l hks hl
      refine ih _ (fun a ha => hks a (by simp [ha])) fun a ha => ?_
      rcases mem_insertNat k a l ha with rfl | ha
      · exact hks _ (by simp)
      · exact hl a ha
  refine key _ [] (fun a ha => ?_) (by simp)
  exact (List.mem_filter.1 ha).2

theorem limit_on_addr (l : Limit) (a : Nat) (r : Nat × List Fld) (h : ∀ f ∈ r.2, 0x20 ≤ f.addr)
    (hl : ∀ e s b, l.evt = some (e, s, b) → 0x20 ≤ e) : ∀ f ∈ (l.on a r).2, 0x20 ≤ f.addr := by
  unfold Limit.on
  split
  · dsimp only
    split
    · exact h
    · dsimp only
      cases he : l.evt with
      | none => exact h
      | some x =>
        obtain ⟨e, s, b⟩ := x
        intro f hf
        rcases List.mem_append.1 hf with hf | hf
        · exact h f hf
        · have := hl e s b he
          simp only [List.mem_singleton] at hf
          rw [hf]
          show 0x20 ≤ e + s * _
          omega
  · exact h

theorem limits_evt : ∀ l ∈ limitsMeas ++ limitsPad ++ limitsPlan, ∀ e s b, l.evt = some (e, s, b) → 0x20 ≤ e := by
  have key : ∀ l ∈ limitsMeas ++ limitsPad ++ limitsPlan, (l.evt.all fun x => decide (0x20 ≤ x.1)) = true := by decide
  intro l hl e s b he
  have := key l hl
  rw [he] at this
  simpa using this

theorem limitWord_addr (a w : Nat) : ∀ f ∈ (limitWord a w).2, 0x20 ≤ f.addr := by
  unfold limitWord
  dsimp only
  have key : ∀ (ls : List Limit) (r : Nat × List Fld), (∀ l ∈ ls, ∀ e s b, l.evt = some (e, s, b) → 0x20 ≤ e) →
      (∀ f ∈ r.2, 0x20 ≤ f.addr) → ∀ f ∈ (ls.foldl (fun r l => l.on a r) r).2, 0x20 ≤ f.addr := by
    intro ls
    induction ls with
    | nil => intro r _ h; exact h
    | cons l t ih =>
      intro r hl h
      exact ih _ (fun l' h' => hl l' (by simp [h'])) (limit_on_addr l a r h (hl l (by simp)))
  have h := key _ (w, []) limits_evt (by simp)
  split
  · intro f hf
    rcases List.mem_append.1 hf with hf | hf
    · exact h f hf
    · simp only [List.mem_singleton] at hf
      rw [hf]
      decide
  · exact h

theorem appliedWord_addr (d : Dev) (a : Nat) : ∀ f ∈ (d.appliedWord a).2, 0x20 ≤ f.addr := by
  unfold Dev.appliedWord
  split
  · next r hr =>
    dsimp only
    have h := limitWord_addr a (mergeMask (d.word a).toNat (d.shWord a).toNat r.rws)
    generalize limitWord a (mergeMask (d.word a).toNat (d.shWord a).toNat r.rws) = w at h
    unfold Dev.rateLimited
    have hadd : ∀ (g : Fld), 0x20 ≤ g.addr → ∀ f ∈ w.2 ++ [g], 0x20 ≤ f.addr := by
      intro g hg f hf
      rcases List.mem_append.1 hf with hf | hf
      · exact h f hf
      · simp only [List.mem_singleton] at hf; rw [hf]; exact hg
    split
    · dsimp only
      split
      · exact h
      · exact hadd _ Low.reg
    · exact h
  · simp

theorem Low.evts (h : Low d0 d) (l : List Fld) (hl : ∀ f ∈ l, 0x20 ≤ f.addr) : Low d0 (l.foldl Dev.evt d) :=
  h.foldl l Dev.evt fun f hf d => (Low.refl d).evt f (hl f hf)

theorem Low.moveDelay (h : Low d0 d) (n : Nat) (g : Dev → Dev) (hg : Low d (g d)) : Low d0 (d.moveDelay n g) := by
  unfold Dev.moveDelay
  dsimp only
  exact (((h.trans hg).when _ _ ((Low.refl _).setOut _ _)).when _ _ ((Low.refl _).setOut _ _)).evtIf _ _

theorem Low.setShWord (h : Low d0 d) (a : Nat) (w : Word) : Low d0 (d.setShWord a w) := h.same rfl rfl rfl rfl rfl rfl rfl

theorem Low.applyCopy (h : Low d0 d) (x : Dev) {a : Nat} (ha : 0x20 ≤ a) : Low d0 (Dev.applyCopy x a d) := by
  have hk : Low d (Dev.applyCopy x a d) := by
    unfold Dev.applyCopy
    have hf := appliedWord_addr d a
    generalize d.appliedWord a = r at hf
    have h0 := Low.refl d
    dsimp only
    split
    · exact h0
    · split
      · split
        · exact h0
        · split
          · exact (h0.setShWord _ _).evt _
          · split
            · exact (h0.setShWord _ _).evt _
            · exact (h0.evts _ hf).setWord _ _ ha
      · split
        · exact h0.moveDelay _ _ (h0.setWord _ _ ha)
        · exact (h0.evts _ hf).setWord _ _ ha
  exact h.trans hk

/-- What is left of DEV_UPDATE.PEND when the groups of a mask have applied. -/
def pendAfter (pend mask : Nat) : Nat :=
  (List.range 8).foldl (fun v g => if pend.testBit g && !mask.testBit g then v + 2 ^ g else v) 0

theorem Low.limitSoft (h : Low d0 d) : Low d0 d.limitSoft :=
  h.forN 12 _ fun n _ d => by
    dsimp only
    split
    · exact Low.refl d
    · exact ((Low.refl d).wr _ _).evt _

theorem Low.limitTau (h : Low d0 d) : Low d0 d.limitTau :=
  h.forN 12 _ fun n _ d => by
    dsimp only
    split
    · exact Low.refl d
    · exact ((Low.refl d).wr _ _).evt _

/-- Copying the groups of a mask writes no low register but PEND. -/
theorem Dev.copyGroups_split (d : Dev) (mask : Nat) :
    ∃ x, Low d x ∧ d.copyGroups mask = x.wr DEV_UPDATE_PEND (pendAfter (d.rd DEV_UPDATE_PEND) mask) := by
  unfold Dev.copyGroups
  have h1 := (Low.refl d).foldl (d.updateAddrs mask) (fun e a => Dev.applyCopy d a e) fun a ha e =>
    (Low.refl e).applyCopy d (inGroups_high (updateAddrs_high mask d a ha))
  generalize (d.updateAddrs mask).foldl (fun e a => Dev.applyCopy d a e) d = x at h1
  have h2 : Low d (if mask.testBit 1 then x.limitSoft.limitTau else x) := by
    split
    · exact h1.limitSoft.limitTau
    · exact h1
  generalize hy : (if mask.testBit 1 then x.limitSoft.limitTau else x) = y at h2
  have h3 : Low d (if mask.testBit 6 then y.limitTgt else y) := by
    split
    · exact h2.forN 8 _ fun n _ d => by
        dsimp only
        split
        · exact Low.refl d
        · exact (((Low.refl d).wr _ _).wr _ _).evt _
    · exact h2
  exact ⟨_, h3, by dsimp only; rw [hy]; rfl⟩

theorem Low.disarmIdle (h : Low d0 d) : Low d0 d.disarmIdle :=
  h.forN 48 _ fun k _ d => by
    split
    · split
      · exact Low.refl d
      · split
        · exact Low.refl d
        · exact (Low.refl d).setCell _ _
    · exact Low.refl d

theorem Low.setTp (h : Low d0 d) (f : TpState → TpState) : Low d0 (d.setTp f) := h.same rfl rfl rfl rfl rfl rfl rfl
theorem Low.setRing (h : Low d0 d) (n : Nat) (f : Ring → Ring) : Low d0 (d.setRing n f) := h.same rfl rfl rfl rfl rfl rfl rfl

theorem Low.addEpoch (h : Low d0 d) (c r : Nat) : Low d0 (d.addEpoch c r) := h.trans (JobsOnly.addEpoch c r d).low

theorem Low.ringDiscard (h : Low d0 d) (r en : Nat) : Low d0 (d.ringDiscard r en) := h.setShWord _ _

theorem Low.ringApply (h : Low d0 d) (r w : Nat) : Low d0 (d.ringApply r w) := by
  have hk : ∀ x : Dev, Low x (x.ringApply r w) := by
    intro x
    have h0 := Low.refl x
    unfold Dev.ringApply
    dsimp only
    split
    · split
      · exact (h0.evtIf _ (TQ_STAT_CFG_ERR r) Low.reg).ringDiscard r _
      · generalize (decide (bitsOf w 30 30 ≠ x.rd (TQ_CFG_MODE r)) || decide (bitsOf w 29 29 ≠ x.rd (TQ_CFG_EPOCH_EN r)) ||
          decide (bitsOf w 26 24 ≠ x.rd (TQ_CFG_SIZE_CODE r)) || decide (bitsOf w 21 16 ≠ x.rd (TQ_CFG_BASE r))) = b
        have h1 := (h0.evtIf b (TQ_STAT_CFG_ERR r) Low.reg).ringDiscard r (bitsOf w 31 31)
        generalize (x.evtIf b (TQ_STAT_CFG_ERR r)).ringDiscard r (bitsOf w 31 31) = y at h1
        have h2 := (h1.wr (TQ_CFG_ENABLE r) 0 Low.reg).wr (TQ_STAT_DISABLING r) 1 Low.reg
        generalize (y.wr (TQ_CFG_ENABLE r) 0).wr (TQ_STAT_DISABLING r) 1 = z at h2
        exact h2.abortWhere _ _
    · split
      · exact (h0.evtIf _ (TQ_STAT_CFG_ERR r) Low.reg).ringDiscard r 0
      · have h1 := (h0.wr (TQ_CFG_MODE r) (bitsOf w 30 30)).wr (TQ_CFG_EPOCH_EN r) (bitsOf w 29 29)
        generalize (x.wr (TQ_CFG_MODE r) (bitsOf w 30 30)).wr (TQ_CFG_EPOCH_EN r) (bitsOf w 29 29) = y at h1
        split
        · exact h1.evt _
        · split
          · split
            · exact h1.evt _
            · have h2 := ((((h1.wr (TQ_CFG_SIZE_CODE r) (bitsOf w 26 24)).wr (TQ_CFG_BASE r) (bitsOf w 21 16)).wr
                (TQ_CFG_ENABLE r) 1).wr (TQ_HEAD_HEAD r) 0).wr (TQ_TAIL_TAIL r) 0
              exact ((h2.setTp _).setRing r _).addEpoch 2 r
          · exact (h1.wr _ _).wr _ _
  exact h.trans (hk d)

theorem Low.closeFrame (h : Low d0 d) (r : Nat) : Low d0 (d.closeFrame r) := by
  unfold Dev.closeFrame
  dsimp only
  split
  · exact h
  · exact h.setTp _

theorem Low.closeSpan (h : Low d0 d) (r : Nat) : Low d0 (d.closeSpan r) :=
  h.forN 32 _ fun _ _ d => (Low.refl d).when _ _ ((Low.refl d).closeFrame r)

theorem Low.tpLanes (h : Low d0 d) : Low d0 d.tpLanes := by
  unfold Dev.tpLanes
  dsimp only
  exact ((h.wr _ _).wr _ _).level _ _ _ _

theorem Low.tpApply (h : Low d0 d) (w : Nat) : Low d0 (d.tpApply w) := by
  unfold Dev.tpApply
  dsimp only
  refine Low.tpLanes (Low.when (Low.when (((h.when _ _ ((Low.refl _).wr _ _)).wr _ _).wr _ _) _ _ ?_) _ _
    ((Low.refl _).setTp _))
  exact ((Low.refl _).setTp _).forN 16 _ fun _ _ d => ((Low.refl d).setRing _ _).closeSpan _

theorem Low.linkDown (h : Low d0 d) (x : Nat) : Low d0 (d.linkDown x) := by
  unfold Dev.linkDown
  dsimp only
  have h1 := (((h.wr (PLINK_STAT_UP x) 0 Low.reg).wr (PLINK_STAT_NB_V x) 0 Low.reg).wr (PLINK_STAT_ASYM_MM x) 0
    Low.reg).setLink x fun l => { l with hellos := 0, beaconAt := none, nbBwV := false }
  split
  · exact ((h1.evt (PLINK_EVT_DOWN x) Low.reg).fire _ _).askSelect _
  · exact h1

theorem Low.psynMove (h : Low d0 d) (j : Nat) (v : Int) : Low d0 (d.psynMove j v) := by
  unfold Dev.psynMove
  dsimp only
  generalize (if (d.psyn j).pulses = 0 then 0 else (d.psyn j).pulseEnd + 100 * 65536) = gap
  split
  · exact ((h.evt (PSYN_EVT_OFFSET_APPLIED j) Low.reg).setPsyn j _).evt (PSYN_EVT_DROP j) Low.reg
  · exact (h.evt (PSYN_EVT_OFFSET_APPLIED j) Low.reg).setPsyn j _

theorem Low.padRetarget {n : Nat} (h : Low d0 d) (hn : n < 16) (bw : Bool) : Low d0 (d.padRetarget n bw) := by
  unfold Dev.padRetarget
  dsimp only
  split
  · exact h.setPad _ _
  · split
    · split
      · exact h.trans (((Apart.refl PadSide d).setBw hn _ _ _).low PadSide.low)
      · exact h
    · split
      · exact (h.wr _ _).setPad _ _
      · exact h.trans (((Apart.refl PadSide d).setBw hn _ _ _).low PadSide.low)

theorem Low.outEnable (h : Low d0 d) (n : Nat) : Low d0 (d.outEnable n) := by
  unfold Dev.outEnable
  split
  · exact h.outTry n
  · exact (h.wr _ _).outStop n false

theorem isReg_lt {base count stride off a : Nat} (h : isReg base count stride off a = true) : inst base stride a < count := by
  unfold isReg at h
  simp only [Bool.and_eq_true, decide_eq_true_eq] at h
  exact h.1.2

theorem Low.ite {p : Prop} [Decidable p] {a b : Dev} (ha : p → Low d0 a) (hb : ¬ p → Low d0 b) :
    Low d0 (if p then a else b) := by
  split
  · next h => exact ha h
  · next h => exact hb h

theorem Low.chanOff (h : Low d0 d) (ch : Nat) : Low d0 (d.chanOff ch) := by
  unfold Dev.chanOff
  split
  · exact h
  · exact (h.abortWhere _ _).disarmIdle

theorem Low.jobsOff (h : Low d0 d) : Low d0 d.jobsOff := (h.abortWhere _ _).disarmIdle

theorem Low.setChan (h : Low d0 d) (k : Nat) (f : Chan → Chan) : Low d0 (d.setChan k f) := h.same rfl rfl rfl rfl rfl rfl rfl

theorem Low.restartDec (h : Low d0 d) (ch : Nat) : Low d0 (d.restartDec ch) :=
  (h.setChan ch _).when _ _ ((Low.refl _).setChan _ _)

theorem Low.judgeAsym (h : Low d0 d) (x : Nat) : Low d0 (d.judgeAsym x) :=
  (h.evtIf _ (PLINK_EVT_ASYM_MM x) Low.reg).wr (PLINK_STAT_ASYM_MM x) _ Low.reg

theorem Low.applyHook (h : Low d0 d) (x : Dev) (a : Nat) : Low d0 (Dev.applyHook x a d) := by
  have hk : Low d (Dev.applyHook x a d) := by
    have h0 := Low.refl d
    unfold Dev.applyHook
    extract_lets old new turned
    refine .ite (fun _ => h0.ringApply _ _) fun _ => .ite (fun _ => h0.tpApply _) fun _ => .ite
      (fun _ => Low.when (Low.when (.ite (fun _ => h0.chanOff _) fun _ => h0) _ _ (Low.refl _).disarmIdle) _ _
        ((Low.refl _).restartDec _)) fun _ => .ite
      (fun _ => h0.when _ _ ((Low.refl _).restartDec _)) fun _ => .ite
      (fun _ => .ite (fun _ => h0.jobsOff) fun _ => h0) fun _ => .ite
      (fun _ => .ite (fun _ => h0.refForced _) fun _ => h0) fun _ => .ite (fun hr => ?_) fun _ => .ite
      (fun hr => ?_) fun _ => .ite (fun hr => h0.when _ _ ((Low.refl _).refreshHw (isReg_lt hr))) fun _ => .ite
      (fun hr => h0.when _ _ ((Low.refl _).padRetarget (isReg_lt hr) _)) fun _ => .ite
      (fun _ => h0.when _ _ ((Low.refl _).outEnable _)) fun _ => .ite
      (fun _ => ?_) fun _ => .ite (fun _ => h0.evtIf _ _) fun _ => .ite
      (fun _ => .ite (fun _ => .ite (fun _ => h0.portEnable _) fun _ => h0.portDisable _) fun _ => h0) fun _ => .ite
      (fun _ => .ite (fun _ => (h0.wr _ _).linkDown _) fun _ => h0) fun _ => .ite
      (fun _ => h0.when _ _ ((Low.refl _).judgeAsym _)) fun _ => h0
    · have hn := isReg_lt hr
      refine Low.when (h0.when _ _ ?_) _ _ ((Low.refl _).padRetarget hn _)
      exact .ite (fun _ => (((Low.refl _).wr _ _).setPad _ _).refreshHw hn) fun _ => ((Low.refl _).wr _ _).setPad _ _
    · have hn : inst 0x030000 0x400 a < 16 := by rcases hr with hr | hr <;> exact isReg_lt hr
      exact .ite (fun _ => h0.setWordY hn _) fun _ => h0
    · exact .ite (fun _ => h0.psynMove _ _) fun _ => h0
  exact h.trans hk

theorem Low.teffAll (h : Low d0 d) : Low d0 d.teffAll :=
  h.forN 8 _ fun k _ d => by
    dsimp only
    split
    · split
      · exact ((Low.refl d).wr48 _ _ _).evtIf _ _
      · exact (Low.refl d).wr48 _ _ _
    · exact Low.refl d

theorem Low.drvsClear (h : Low d0 d) : Low d0 d.drvsClear :=
  h.forN 24 _ fun _ _ d => (Low.refl d).when _ _ ((Low.refl _).wr _ _)

theorem Low.hookGroups (h : Low d0 d) (mask : Nat) (x : Dev) : Low d0 (Dev.hookGroups mask x d) := by
  unfold Dev.hookGroups
  have h1 := h.foldl (x.updateAddrs mask) (fun e a => Dev.applyHook x a e) fun a _ e => (Low.refl e).applyHook x a
  generalize (x.updateAddrs mask).foldl (fun e a => Dev.applyHook x a e) d = y at h1
  dsimp only
  have h2 := h1.askSelect none
  generalize y.askSelect none = v at h2
  have h3 : Low d0 (if mask.testBit 6 then v.teffAll else v) := .ite (fun _ => h2.teffAll) fun _ => h2
  generalize (if mask.testBit 6 then v.teffAll else v) = z at h3
  exact .ite (fun _ => h3.drvsClear) fun _ => h3

/-! ### The apply edge (09 R246) -/

theorem Low.bootRegs (h : Low d0 d) : Low d0 d.bootRegs :=
  ((((((((((((h.wr _ _).wr _ _).wr _ _).wr _ _).wr _ _).wr _ _).wr _ _).wr _ _).wr _ _).wr _ _).wr _ _).wr _ _).wr _ _
    |>.wr _ _

theorem Low.reactTo (h : Low d0 d) (src sev : Nat) (a b c : Bool) : Low d0 (d.reactTo src sev a b c) :=
  h.trans ((Still.reactTo src sev a b c d).apart.low fun x hx =>
    not_reactReg (by omega) (by omega) (by omega) (by omega) (by omega))

theorem Low.reactLatched (h : Low d0 d) : Low d0 d.reactLatched :=
  h.forN 64 _ fun _ _ d => (Low.refl d).when _ _ ((Low.refl _).reactTo _ _ _ _ _)

theorem Low.bootFires (h : Low d0 d) : Low d0 d.bootFires := by
  unfold Dev.bootFires
  dsimp only
  split
  · exact h
  · exact ((h.when _ _ ((((Low.refl _).fire _ _).wr _ _).setNvmc _)).when _ _ ((Low.refl _).fire _ _)).when _ _
      ((Low.refl _).fire _ _)

theorem Low.padApply {n : Nat} (h : Low d0 d) (hn : n < 16) : Low d0 (d.padApply n) := by
  unfold Dev.padApply
  dsimp only
  exact (((h.setPad _ _).setWord _ _).setPad _ _).setWordY hn _

theorem Low.psynsStart (h : Low d0 d) : Low d0 d.psynsStart :=
  h.forN 4 _ fun _ _ d => by
    dsimp only
    split
    · exact ((Low.refl d).wr _ _).setPsyn _ _
    · exact Low.refl d

theorem Low.pastStart (h : Low d0 d) : Low d0 d.pastStart := by
  unfold Dev.pastStart
  dsimp only
  split
  · exact (h.setPast _).wr _ _
  · exact h.setPast _

theorem Low.startEngines (h : Low d0 d) : Low d0 d.startEngines := by
  unfold Dev.startEngines
  have h1 := h.forN 8 (fun k d => d.setPort k fun p => { p with
    fnom := d.rd48 (STEER_TGT_LO_TGT k) (STEER_TGT_HI_TGT k) }) fun k _ d => (Low.refl d).setPort k _
  dsimp only
  generalize Machine.forN 8 (fun k d => d.setPort k fun p => { p with
    fnom := d.rd48 (STEER_TGT_LO_TGT k) (STEER_TGT_HI_TGT k) }) d = x at h1
  have h2 := h1.refStartAll.beatsStart.checkShort
  generalize x.refStartAll.beatsStart.checkShort = y at h2
  exact ((h2.setClk { y.clk with inc := inc0 } rfl).forN 16 _ fun _ hk d => (Low.refl d).padApply hk).psynsStart.pastStart

theorem Low.outsApply (h : Low d0 d) : Low d0 d.outsApply :=
  h.forN 24 _ fun n _ d => by
    dsimp only
    exact .ite (fun _ => Low.refl d) fun _ => .ite
      (fun _ => ((Low.refl d).wr (OUT_STAT_STATE n) 3 Low.reg).evt (OUT_EVT_STOPPED n) Low.reg) fun _ => (Low.refl d).outTry n

theorem Low.strobePulse (h : Low d0 d) : Low d0 d.strobePulse := by
  unfold Dev.strobePulse
  split
  · exact h.setFront _
  · exact h

theorem Low.dividersStart (h : Low d0 d) : Low d0 d.dividersStart := h.forN 6 _ fun k _ d => (Low.refl d).setApll k _

theorem Low.updateEdge (h : Low d0 d) : Low d0 d.updateEdge := h.setClk _ rfl

theorem Low.closeEdge (h : Low d0 d) : Low d0 d.closeEdge := h.setClk _ rfl

/-- The state in which the edge that applies the image changes the mode: the edge is noted. -/
def Dev.applyNoted (d : Dev) : Dev := { d with boot := { d.boot with appliedAt := some d.clk.edge } }

/-- The edge that applies the image changes the mode to RUN and PEND to 0; then the patch runs and the watchdog counts. -/
theorem Dev.imageApply_split (hm : d.mayApply = true) : ∃ x y, Low (d.applyNoted.changeMode .run) x ∧
    Low (x.wr DEV_UPDATE_PEND (pendAfter (x.rd DEV_UPDATE_PEND) 0xFF)) y ∧
    d.imageApply = ({ y with boot := { y.boot with patchRuns := y.boot.patch.isSome, kick := y.clk.tclk } }).strobePulse := by
  unfold Dev.imageApply
  rw [if_neg (by simp [hm])]
  show ∃ x y, _ ∧ _ ∧ (let e := (d.applyNoted.changeMode .run).dividersStart; let d1 := (e.copyGroups 0xFF).bootRegs
    let d1 := d1.reactLatched.bootFires
    let d1 := { d1 with flt := { d1.flt with foldNext := d1.flt.foldPend } }
    let d1 := Dev.hookGroups 0xFF d d1.startEngines
    let d1 := d1.outsApply
    let d1 := d1.logEvent 3 d1.boot.src (d1.rd DEV_IMG_SEQ_SEQUENCE)
    ({ d1 with boot := { d1.boot with patchRuns := d1.boot.patch.isSome, kick := d1.clk.tclk } }).strobePulse) = _
  have h0 := (Low.refl (d.applyNoted.changeMode .run)).dividersStart
  generalize hc : (d.applyNoted.changeMode .run).dividersStart = c at h0
  obtain ⟨x, hx, he⟩ := Dev.copyGroups_split c 0xFF
  have hp : c.rd DEV_UPDATE_PEND = x.rd DEV_UPDATE_PEND := (hx.rd _ (by decide)).symm
  dsimp only
  rw [he, hp]
  have h1 := (Low.refl (x.wr DEV_UPDATE_PEND (pendAfter (x.rd DEV_UPDATE_PEND) 0xFF))).bootRegs.reactLatched.bootFires
  generalize (x.wr DEV_UPDATE_PEND (pendAfter (x.rd DEV_UPDATE_PEND) 0xFF)).bootRegs.reactLatched.bootFires = z at h1
  have h2 := (((h1.setFlt { z.flt with foldNext := z.flt.foldPend }).startEngines.hookGroups 0xFF d)).outsApply
  exact ⟨x, _, h0.trans hx, h2.logEvent 3 _ _, rfl⟩

/-- An update of groups changes no low register but PEND, from which its groups have gone (10 R268, R270). -/
theorem Dev.update_split (mask : Nat) (hm : mask % 256 ≠ 0) : ∃ x, Low d x ∧
    Low (x.wr DEV_UPDATE_PEND (pendAfter (d.rd DEV_UPDATE_PEND) (mask % 256))) (d.update mask) := by
  unfold Dev.update
  rw [if_neg hm]
  obtain ⟨x, hx, he⟩ := Dev.copyGroups_split d (mask % 256)
  rw [he]
  exact ⟨x, hx, ((Low.refl _).hookGroups _ _).strobePulse.updateEdge⟩

end Sys2Proof.Machine
end

