-- ==== Sys2Proof/Laws/Mem.lean ====
section
/-!
SUPPORT. The canonical form of the memories: every operation over memory keeps it.
-/

namespace Sys2Proof.Machine

variable {d e : Dev}

/-- What leaves the memories and the undo point alone keeps the canonical form. -/
theorem Dev.MemOk.same (h : d.MemOk) (hs : e.sram = d.sram) (hn : e.nvm = d.nvm) (hu : e.undo = d.undo) : e.MemOk :=
  ⟨by rw [hs]; exact h.sram, by rw [hn]; exact h.nvm, by rw [hu]; exact h.undo⟩

theorem Dev.MemOk.setSram (h : d.MemOk) (a : Nat) (bs : List Byte) : (d.setSram a bs).MemOk :=
  ⟨ByteMem.wf_store 0 _ _ d.sram a bs h.sram, h.nvm, h.undo⟩

theorem Dev.MemOk.setSramWord (h : d.MemOk) (a v : Nat) : (d.setSramWord a v).MemOk := h.setSram a _

theorem Dev.MemOk.setNvm (h : d.MemOk) (a : Nat) (bs : List Byte) : (d.setNvm a bs).MemOk :=
  ⟨h.sram, ByteMem.wf_store 0xFF _ _ d.nvm a bs h.nvm, h.undo⟩

/-- A page of the array at its erased value. -/
theorem Dev.MemOk.clearNvm (h : d.MemOk) (a n : Nat) : ({ d with nvm := ByteMem.clear d.nvm a n } : Dev).MemOk :=
  ⟨h.sram, ByteMem.wf_clear 0xFF _ _ d.nvm a n h.nvm, h.undo⟩

/-- SRAM at its reset value but where a reset keeps it (13 R357). -/
theorem Dev.MemOk.keepSram (h : d.MemOk) (p : Nat × Byte → Bool) : ({ d with sram := d.sram.filter p } : Dev).MemOk :=
  ⟨ByteMem.wf_filter 0 _ _ d.sram p h.sram, h.nvm, h.undo⟩

/-- A reset notes the memory as it finds it (13 R346). -/
theorem Dev.MemOk.mark (h : d.MemOk) : ({ d with undo := some d.undoPoint } : Dev).MemOk :=
  ⟨h.sram, h.nvm, fun u hu => by cases hu; exact h.sram⟩

/-- A pulse that gives way to another reset of its edge (13 R346). -/
theorem Dev.MemOk.withdraw (h : d.MemOk) : d.withdraw.MemOk := by
  unfold Dev.withdraw
  split
  · rename_i u hu
    split
    · exact ⟨h.undo u hu, h.nvm, fun v hv => by cases hv⟩
    · exact h
  · exact h

end Sys2Proof.Machine
end

