-- ==== Sys2Proof/WellFormed.lean ====
section
/-!
DEFINITION. Which commands are well formed: a command names a unit that exists, a master that exists, an address of the
24-bit space, and words and fields of their width.
-/

namespace Sys2Proof

/-- A master that takes commands from outside: SPI, I2C, the shepherd core, the drover, the links and JTAG (01 R26). -/
def masterOk (m : Nat) : Bool := decide (m < 7)

/-- A unit among `lim` of its kind. -/
def unitOk (n lim : Nat) : Bool := decide (n < lim)

/-- A field of `w` bits. -/
def bitsOk (w v : Nat) : Bool := decide (v < 2 ^ w)

/-- An address of the 24-bit space (01 R26). -/
def addrOk (a : Nat) : Bool := decide (a < 0x1000000)

/-- An address of the 24-bit space, where one is given. -/
def addrOptOk (a : Option Nat) : Bool := a.all addrOk

/-- The place of an edge within a TCLK period, in 2^-16 ns (02 R36). -/
def subOk (v : Nat) : Bool := decide (v < 40960)

/-- Words of 32 bits. -/
def wordsOk (ws : List Nat) : Bool := ws.all fun w => decide (w < 2 ^ 32)

/-- A list with one entry for each of `n` units. -/
def lengthOk {α : Type} (l : List α) (n : Nat) : Bool := decide (l.length = n)

/-- The parts of a stalled SPI frame have their widths. -/
def spiPartOk : SpiPart → Bool
  | .head cmd => cmd.all (bitsOk 8)
  | .readCrc count n _ => count.all (bitsOk 8) && decide (n ≤ count.getD 0)
  | .write | .read _ _ | .writeCrc => true

/-- What a read of the sensor meets: two bytes, or a failure among the three bytes that the master sends (14 R379). -/
def sensRxOk : SensRx → Bool
  | .data a b => bitsOk 8 a && bitsOk 8 b
  | .failed n => unitOk n 4

/-- The parts of an abandoned I2C transaction have their widths. -/
def i2cXferOk : I2cXfer → Bool
  | .head => true
  | .write addr words => addrOk addr && wordsOk words
  | .read addr _ => addrOptOk addr

/-- A command is well formed. [DESIGN CHOICE, log 16, 154] -/
def Instr.wf (i : Instr) : Bool :=
  match i with
  | .sysPllLock _ fuses _ => lengthOk fuses 64
  | .clkMon _ clock _ => unitOk clock 5
  | .foldPath _ out _ => unitOk out 24
  | .shepExc _ addr type _ => addrOk addr && unitOk type 6
  | .busTimeout _ addr master type => addrOk addr && masterOk master && unitOk type 6
  | .regParity _ addr => addrOk addr
  | .sramEcc _ addr master type _ => addrOk addr && masterOk master && unitOk type 6
  | .supplyUndervoltage _ rail _ => unitOk rail 7
  | .channelEdge _ ch sub => unitOk ch 64 && subOk sub
  | .edgeGenWrap _ n sub => unitOk n 16 && subOk sub
  | .conversionDone _ cell _ _ _ _ _ => unitOk cell 48
  | .intervalTimeout _ slot _ => unitOk slot 129
  | .intervalEarlyMatch _ slot _ => unitOk slot 129
  | .freqGateTimeout _ slot _ => unitOk slot 128
  | .pilotDue _ cell => unitOk cell 48
  | .pilotWaitExpiry _ cell => unitOk cell 48
  | .calDeferExpiry _ cell => unitOk cell 48
  | .quarPilotsDone _ cell _ => unitOk cell 48
  | .retest _ master cell => masterOk master && unitOk cell 48
  | .devTimeSecLoRead _ master => masterOk master
  | .loHalfRead _ master addr => masterOk master && addrOk addr
  | .timeIntervalPush _ push => masterOk push.master
  | .frequencyPush _ push => masterOk push.master
  | .timestampStreamPush _ push => masterOk push.master
  | .periodStatisticsPush _ push => masterOk push.master
  | .markerPush _ push => masterOk push.master
  | .ringFlushPush _ push => masterOk push.master
  | .unusedKindPush _ master => masterOk master
  | .abortSlot _ master slot => masterOk master && unitOk slot 128
  | .abortRing _ master ring => masterOk master && unitOk ring 16
  | .abortAll _ master => masterOk master
  | .abortNone _ master => masterOk master
  | .ringRecordWrite _ ring _ => unitOk ring 16
  | .epochRequest _ master ring => masterOk master && unitOk ring 16
  | .ringDisableDone _ ring => unitOk ring 16
  | .tailWrite _ master ring tail => masterOk master && unitOk ring 16 && bitsOk 16 tail
  | .tpFrameTimeout _ ring => unitOk ring 16
  | .tpFrameSend _ lane _ => unitOk lane 2
  | .tpAckRx _ ring seq crc => bitsOk 8 ring && bitsOk 16 seq && bitsOk 32 crc
  | .tpNakRx _ ring seq crc => bitsOk 8 ring && bitsOk 16 seq && bitsOk 32 crc
  | .tpReplayTimeout _ ring => unitOk ring 16
  | .tpLaneFault _ lane => unitOk lane 2
  | .paddockUpdate _ n => unitOk n 16
  | .steerGateUpdate _ bn => unitOk bn 8
  | .updateGapSkip _ n => unitOk n 16
  | .feedbackLoss _ n => unitOk n 16
  | .tstepCmd _ master n => masterOk master && unitOk n 16
  | .steeredTimeout _ n => unitOk n 16
  | .phaseSlewTick _ n => unitOk n 16
  | .modelStale _ n => unitOk n 16
  | .learnModelTick _ ms => lengthOk ms 16
  | .refActivityLoss _ n => unitOk n 13
  | .refActivityRestore _ n => unitOk n 13
  | .fmWindowEnd _ n => unitOk n 13
  | .spacingClear _ n => unitOk n 12
  | .plugPull _ k => unitOk k 4
  | .plugSettle _ k => unitOk k 4
  | .wtrExpiry _ n => unitOk n 12
  | .wtrClr _ master n => masterOk master && unitOk n 12
  | .pbPress _ k => unitOk k 2
  | .pbRelease _ k => unitOk k 2
  | .pbStuck _ k => unitOk k 2
  | .ledOpen _ k _ => unitOk k 4
  | .recal _ master k => masterOk master && unitOk k 6
  | .apllCalDone _ k _ band => unitOk k 6 && bitsOk 8 band
  | .apllLol _ k => unitOk k 6
  | .apllPowerDown _ k => unitOk k 6
  | .psynPulse _ j => unitOk j 4
  | .outputStopDone _ n _ => unitOk n 24
  | .outputStart _ n => unitOk n 24
  | .drvFault _ n => unitOk n 24
  | .outTapLoss _ n _ => unitOk n 24
  | .outTeeWrite _ master _ src dest => masterOk master && bitsOk 5 src && bitsOk 5 dest
  | .bnNoEdge _ b => unitOk b 8
  | .bnLos _ b => unitOk b 8
  | .bnLosClear _ b => unitOk b 8
  | .steerAccTick _ k => unitOk k 8
  | .steerFrameStart _ k => unitOk k 8
  | .steerFrameEnd _ k => unitOk k 8
  | .steerRefresh _ k => unitOk k 8
  | .send _ master k => masterOk master && unitOk k 8
  | .resume _ master k => masterOk master && unitOk k 8
  | .steerHoldTimeout _ k => unitOk k 8
  | .steerClampTimeout _ k => unitOk k 8
  | .markLaunch _ subA subB => subOk subA && subOk subB
  | .markRx _ link mseq sub => unitOk link 2 && bitsOk 16 mseq && subOk sub
  | .tsRx _ link _ mL _ mA => unitOk link 2 && bitsOk 16 mL && bitsOk 16 mA
  | .helloRx _ link src _ => unitOk link 2 && bitsOk 4 src
  | .strobeRx _ link src dst hops fseq mask _ => unitOk link 2 && bitsOk 4 src && bitsOk 4 dst && bitsOk 3 hops && bitsOk 5 fseq && bitsOk 8 mask
  | .musterRx _ link src dst hops fseq seq _ => unitOk link 2 && bitsOk 4 src && bitsOk 4 dst && bitsOk 3 hops && bitsOk 5 fseq && bitsOk 32 seq
  | .noticeRx _ link src dst hops fseq fsrc sev _ _ => unitOk link 2 && bitsOk 4 src && bitsOk 4 dst && bitsOk 3 hops && bitsOk 5 fseq && bitsOk 6 fsrc && bitsOk 2 sev
  | .rreqRx _ link src dst hops fseq _ tag addr data => unitOk link 2 && bitsOk 4 src && bitsOk 4 dst && bitsOk 3 hops && bitsOk 5 fseq && bitsOk 8 tag && addrOk addr && bitsOk 32 data
  | .rrspRx _ link src dst hops fseq status tag data => unitOk link 2 && bitsOk 4 src && bitsOk 4 dst && bitsOk 3 hops && bitsOk 5 fseq && bitsOk 8 status && bitsOk 8 tag && bitsOk 32 data
  | .frameDiscard _ link => unitOk link 2
  | .linkSyncGain _ link => unitOk link 2
  | .linkSyncLoss _ link => unitOk link 2
  | .helloTimeout _ link => unitOk link 2
  | .raccRead _ master dst => masterOk master && bitsOk 3 dst
  | .raccWrite _ master dst => masterOk master && bitsOk 3 dst
  | .spiWrite _ addr words left => addrOk addr && wordsOk words && unitOk left 4
  | .spiRead _ addr _ => addrOk addr
  | .spiWriteCrc _ addr words extra crc => addrOk addr && wordsOk words && unitOk extra 5 && bitsOk 8 crc
  | .spiReadCrc _ addr words => addrOk addr && bitsOk 8 words.count && decide (words.n ≤ words.count)
  | .spiUnknownCmd _ cmd => bitsOk 8 cmd
  | .spiStallTimeout _ part addr words => spiPartOk part && addrOk addr && wordsOk words
  | .i2cWrite _ start words left => bitsOk 7 start.target && addrOk start.addr && wordsOk words && unitOk left 4
  | .i2cRead _ start _ => bitsOk 7 start.target && addrOptOk start.addr
  | .i2cStallTimeout _ target xfer => bitsOk 7 target && i2cXferOk xfer
  | .registerWrite _ master addr data => masterOk master && addrOk addr && bitsOk 32 data
  | .cplHalfWrite _ master addr data => masterOk master && addrOk addr && bitsOk 32 data
  | .sqcClearWrite _ master addr data => masterOk master && addrOk addr && bitsOk 32 data
  | .updateStrobeWrite _ master groups => masterOk master && bitsOk 8 groups
  | .gpioStrobeEdge _ pin _ => unitOk pin 8
  | .musterDevice _ master => masterOk master
  | .musterPasture _ master => masterOk master
  | .crookLock _ master => masterOk master
  | .info _ master tag => masterOk master && bitsOk 8 tag
  | .align _ master tag => masterOk master && bitsOk 8 tag
  | .learn _ master tag => masterOk master && bitsOk 8 tag
  | .dump _ master tag => masterOk master && bitsOk 8 tag
  | .imgCommit _ master req => masterOk master && bitsOk 8 req.tag
  | .keyChange _ master tag => masterOk master && bitsOk 8 tag
  | .selftest _ master tag => masterOk master && bitsOk 8 tag
  | .unknownService _ master service tag => masterOk master && bitsOk 8 service && bitsOk 8 tag
  | .mbxAbort _ master => masterOk master
  | .faultInject _ master src _ => masterOk master && bitsOk 6 src
  | .userFire _ master mask => masterOk master && bitsOk 4 mask
  | .capRel _ master seq => masterOk master && bitsOk 16 seq
  | .fnRel _ master => masterOk master
  | .dumpRel _ master => masterOk master
  | .nvmDumpRel _ master => masterOk master
  | .erasePage _ master page => masterOk master && bitsOk 9 page
  | .programPage _ master page => masterOk master && bitsOk 9 page
  | .eraseRegion _ master region => masterOk master && bitsOk 4 region
  | .nvmCmdBadOp _ master op region page => masterOk master && bitsOk 3 op && bitsOk 4 region && bitsOk 9 page
  | .nvmEcc _ addr master type _ => addrOk addr && masterOk master && unitOk type 6
  | .inc _ master id amount => masterOk master && bitsOk 5 id && bitsOk 64 amount
  | .set _ master id value => masterOk master && bitsOk 5 id && bitsOk 64 value
  | .lockKey _ master region kind => masterOk master && bitsOk 8 region && bitsOk 1 kind
  | .go _ master u => masterOk master && unitOk u 4
  | .abort _ master u => masterOk master && unitOk u 4
  | .chkJobDone _ u ecc => unitOk u 4 && addrOptOk ecc
  | .modeReqRun _ master => masterOk master
  | .modeReqService _ master => masterOk master
  | .modeReqSleep _ master => masterOk master
  | .modeReqInvalid _ master _ => masterOk master
  | .porRelease _ src addr _ => bitsOk 2 src && bitsOk 2 addr
  | .pinResetRelease _ src addr => bitsOk 2 src && bitsOk 2 addr
  | .soft _ master key => masterOk master && bitsOk 16 key
  | .warm _ master key => masterOk master && bitsOk 16 key
  | .regacc _ _ addr data => addrOk addr && bitsOk 32 data
  | .apllRelock _ k => unitOk k 6
  | .nvmUnlock _ master region kind key => masterOk master && bitsOk 8 region && bitsOk 1 kind && bitsOk 64 key
  | .nvmCntBadOp _ master op id => masterOk master && bitsOk 2 op && bitsOk 5 id
  | .plugInsert _ k => unitOk k 4
  | .candNoEdge _ ch => unitOk ch 64
  | .sensRead _ raw => sensRxOk raw
  | .xoinCountDone .. | .xoinRecount .. | .sysPllLol .. | .complementMismatch .. | .tempReading ..
  | .poolAllocate .. | .handoverSlow .. | .calIdleExpiry .. | .calRunDone .. | .bootCalDone .. | .retestDone ..
  | .epochSec17 .. | .tpRxLockTimeout .. | .historySecond .. | .ocxoQualTimeout ..
  | .helloPeriod .. | .raccTimeout .. | .pastStrobeApply .. | .pastMusterApply .. | .slotScanDone ..
  | .streamVerifyDone .. | .bootLoadDone .. | .imageApply .. | .imgRewriteRetry .. | .mbxServiceDone ..
  | .mbxTimeout .. | .escalationExpiry .. | .quietExpiry .. | .faultNWidthEnd .. | .dumpSramDone ..
  | .dumpTimeout .. | .logEntry .. | .nvmWorkStart .. | .nvmSupplyRetry .. | .nvmSupplyTimeout ..
  | .nvmOpDone .. | .patrolDue .. | .patrolOverdue .. | .counterScanDone .. | .poweredHour ..
  | .holdBankTick .. | .checkScheduleTick .. | .porAssert .. | .pinReset .. | .watchdogExpiry ..
  | .wdogResetStart .. | .resetPulseEnd .. | .extest .. | .samplePreload .. | .idcode .. | .bypass ..
  | .jtagActive .. | .tpRxLockLoss .. | .tpRxLockGain .. | .sysPllRelock .. | .testLogicReset .. => true

end Sys2Proof
end

