-- ==== Sys2Proof/Tests/Slice0.lean ====
section
/-!
SUPPORT. Tests: an ill-formed command for each check of WellFormed; small tests of one command each; and, for every
obligation that has hypotheses, states and operands that meet the hypotheses of each of its clauses, at boundary values.
-/

set_option Elab.async false

namespace Sys2Proof.Tests

open Sys2Proof Sys2Proof.Machine

/-! ### Well-formedness: each check refuses an ill-formed command -/

theorem test_wf_accepts : (Instr.regacc 4 ⟨true, true, true⟩ 0xFFFFFC 0xFFFFFFFF).wf = true := by decide
theorem test_wf_length : (Instr.sysPllLock 4 [1, 2, 3] ⟨none, 0⟩).wf = false := by decide
theorem test_wf_unit : (Instr.clkMon 4 5 true).wf = false := by decide
theorem test_wf_addr : (Instr.regParity 4 0x1000000).wf = false := by decide
theorem test_wf_addr_opt : (Instr.i2cRead 4 ⟨0x58, some 0x1000000⟩ 1).wf = false := by decide
theorem test_wf_master : (Instr.markerPush 4 ⟨7, false⟩).wf = false := by decide
theorem test_wf_sub : (Instr.channelEdge 4 63 40960).wf = false := by decide
theorem test_wf_bits : (Instr.tailWrite 4 6 15 0x10000).wf = false := by decide
theorem test_wf_words : (Instr.spiWrite 4 0 [0x100000000] 0).wf = false := by decide

/-- No row of the table has bits, so no word spells a command. -/
theorem test_no_word (n w : Nat) : decodeTableWord n w = none := rfl

/-! ### Helpers -/

/-- A device in mode `m` whose system PLL is locked on a 100 MHz XOIN, with the fields of `fs` written and `f` applied. -/
def base (m : Mode) (fs : List (Fld × Nat)) (f : Dev → Dev) : State :=
  { pending := []
    dev := f (fs.foldl (fun d p => d.wr p.1 p.2)
      ({ Dev.released with clk := { Clock.fresh with pllLocked := true, bootclk := false, xoin := 10000 } }.setMode m)) }

theorem all_some {α : Type} {o : Option α} {p : α → Prop} [DecidablePred p] (h : (o.all fun a => decide (p a)) = true) :
    ∀ a, o = some a → p a := by
  intro a e; subst e; simpa using h

theorem no_rst {d : Dev} (h : ∀ k < 128, d.job k = none) :
    ∀ k < 128, ∀ (j : Job) (dn : Done), d.job k = some j → j.done = some dn → dn.rst = false := by
  intro k hk j dn e; rw [h k hk] at e; cases e

theorem no_order {d : Dev} (h : ∀ k < 128, d.job k = none) :
    ∀ k < 128, ∀ j : Job, d.job k = some j → j.order ≠ d.jobs.nextOrder := by
  intro k hk j e; rw [h k hk] at e; cases e

theorem no_epoch {l : List WRec} {k : Nat} (h : l = []) : ∀ x c t : Nat, WRec.epoch x c t ∈ l → x ≠ k := by
  intro x c t e; rw [h] at e; cases e

theorem no_open {d : Dev} {p : Nat → Nat → Prop} (h : d.openPage = none) : ∀ o q, d.openPage = some (o, q) → p o q := by
  intro o q e; rw [h] at e; cases e

theorem mem_ok {d : Dev} (a : ByteMem.wf 0 0x100000 0x180000 d.sram = true) (b : ByteMem.wf 0xFF 0x200000 0x228000 d.nvm = true)
    (c : (d.undo.all fun u => decide (ByteMem.wf 0 0x100000 0x180000 u.sram = true)) = true) : d.MemOk := ⟨a, b, all_some c⟩

theorem cells_all {p : Cell → Prop} {d : Dev} (n : d.meas.cells.length = 48) (f : p Cell.fresh)
    (h : ∀ i < 48, p (d.cell i)) : ∀ i, p (d.cell i) := by
  intro i
  by_cases hi : i < 48
  · exact h i hi
  · have : d.cell i = Cell.fresh := by simp [Dev.cell, List.getElem?_eq_none (by omega : d.meas.cells.length ≤ i)]
    rw [this]; exact f

/-! ### States for the witnesses -/

def wRun : State := base .run [] id
def wBoot (st : Nat) : State := base .boot [(DEV_MODE_BOOT_STAGE, st)] id
def wMode (m : Mode) : State := base m [] id
def wUnlocked : State := base .run [] fun d => { d with clk := { d.clk with pllLocked := false } }
def wFold : State := base .run [(OUT_STAT_STATE 23, 1)] fun d => { d with flt := { d.flt with foldPend := true } }
def wInj : State := base .run [(FLT_INJ_STAT_ACTIVE, 1), (ackFld 3, 1)] id
def wCap : State := base .run [(FLT_CAP_SRC_VALID, 1), (FLT_CAP_SEQ_SEQ, 0x1FFFF)] id
def wEsc : State := base .run [(FLT_STAT_ESC_RUN, 1), (FLT_STAT_FSTATE, 1), (FLT_STAT_FN, 1)] id
def wFn : State := base .run [(FLT_STAT_FN, 1), (FLT_CFG_FN_LATCH, 1)] fun d =>
  { d with flt := { d.flt with fnWidthDone := true } }
def wDump : State := base .run [] fun d =>
  { d with flt := { d.flt with dump := some ⟨true, 0, 3, false, 5, 0, true⟩ } }
def wLog : State := base .run [] fun d => { d with flt := { d.flt with logWait := [⟨2, 0, 0, 0, 0⟩] } }
def wDark : State := base .boot [(DEV_MODE_BOOT_STAGE, 3)] fun d => { d with railLow := [5] }
def wParked : State := base .run [] fun d =>
  { d with nvmc := { d.nvmc with parked := some (NvmWork.new .dumpErase) } }
def wApply : State := base .boot [(DEV_MODE_BOOT_STAGE, 10)] fun d =>
  { d with meas := { d.meas with bootCalDone := true } }
def wBusy (m : Mode) (svc : Nat) : State := base m [(DEV_MBX_STAT_BUSY, 1), (DEV_MBX_STAT_SERVICE, svc)] id
def wCrook : State := base .run [(DEV_CROOK_LOCK, 1)] id
def wWdog : State := base .run [] fun d => { d with boot := { d.boot with wdog := true } }
def wReset (k : ResetKind) : State := base .reset [] fun d => { d with resetKind := k }
def wTemp : State := base .run [(DEV_TEMP_VALID, 1)] id
def wFoldReq : State := base .fold [(FLT_STAT_FOLD_REQ, 1)] id
def wHalf : State := base .run [] fun d => d.write 0 (rPAD_SPO 15) 7
def wClaim : State := base .run [(MCH_CFG_CLAIMED 63, 1)] id
def wStrobe : State := base .run [(DEV_UPDATE_CFG_STRB_IN_EN, 1), (DEV_UPDATE_CFG_STRB_IN_PIN, 7), (CRAFT_GPIO_FUNC
  7, 2), (DEV_UPDATE_CFG_GPIO_MASK, 5), (DEV_UPDATE_PEND, 7)] id
def wShadow : State := base .run [] fun d => d.setShWord (rPAD_SCFG 15) 5
def wPastMask : State := base .run [(DEV_UPDATE_CFG_PAST_MASK, 0x81), (DEV_UPDATE_PEND, 0x83)] id
def wWaits : State := base .run [(DEV_UPDATE_PEND, 7)] fun d =>
  { d with past := { d.past with waiting := [⟨false, 0, 2, 0⟩, ⟨true, 0, 5, 0⟩] } }
def wMustered : State := base .run [(DEV_MUSTER_PEND, 1)] id
def wHalfAt (a w : Nat) : State := base .run [] fun d => d.write 0 a w
def wI2c : State := base .run [] fun d => { d with front := { d.front with i2cPtr := 0x158000 } }
def wKey : State := base .service [] id
def wMbxOut : State := base .run [(DEV_MBX_STAT_BUSY, 1), (DEV_MBX_STAT_SERVICE, 1)] fun d =>
  { d with mbx := { d.mbx with out := some ⟨255, [1, 2, 3, 4]⟩ } }
def wMbxArg : State := base .run [(DEV_MBX_STAT_BUSY, 1), (DEV_MBX_STAT_SERVICE, 6)] fun d =>
  { d with mbx := { d.mbx with args := [3] } }
def wNvmBusy : State := base .run [] fun d =>
  { d with nvmc := { d.nvmc with queue := [NvmWork.new (.hostErase 305 305)] } }
def rowOf (a : Nat) : RegRow := (rowAt a).getD ⟨0, 0, 0, 0, 0, 0, 0, 0, 0, 0, 0, 0, 0, 0, false, false, false⟩
def onNvm (f : NvmCtl → NvmCtl) (d : Dev) : Dev := { d with nvmc := f d.nvmc }
def wNvmQ : State := base .run [(NVM_STAT_VHOLD_OK, 1)] (onNvm fun c =>
  { c with due := [], queue := [NvmWork.new (.hostErase 318 319)] })
def wNvmWait (step : Nat) : State := base .run [(NVM_STAT_WAIT_POWER, 1), (NVM_STAT_VHOLD_OK, 1)] (onNvm fun c =>
  { c with due := [], op := some ⟨318, true, []⟩, cur := some ⟨.hostErase 318 319, step, [], 0, false⟩ })
def wNvmOp (step : Nat) : State := base .run [(NVM_STAT_BUSY, 1)] (onNvm fun c =>
  { c with due := [], op := some ⟨318, true, []⟩, cur := some ⟨.hostErase 318 319, step, [], 0, false⟩ })
def wPatrol : State := base .run [(NVM_CTL_PATROL_EN, 1), (NVM_CNT_STAT_READY, 1)] id
def wPatrol0 : State := base .run [(NVM_CTL_PATROL_EN, 0)] id
def wDue : State := base .run [(NVM_CNT_STAT_READY, 1)] (onNvm fun c =>
  { c with queue := [], due := [⟨0, true⟩, ⟨5, false⟩, ⟨9, false⟩] })
def wReady : State := base .run [(NVM_CNT_STAT_READY, 1), (keyOpenFld 2 1, 1)] id
def wReadyShut : State := base .run [(NVM_CNT_STAT_READY, 1)] id
def wCntBusy : State := base .run [(NVM_CNT_STAT_READY, 1), (NVM_CNT_STAT_BUSY, 1)] id
def wLockout : State := base .run [(NVM_STAT_LOCKOUT, 1)] id
def wKey51 (fails : Nat) : State := base .run [(keySetFld 5 1, 1), (NVM_STAT_FAILS, fails)] id
def wLearn : State := base .run [(PAD_CTL_MODEL_EN 15, 1)] fun d => d.setPad 15 fun p => { p with learn := true }
def wChkBusy (u : Nat) : State := base .run [(CHK_STAT_BUSY u, 1)] id
def wPlan : State := base .run [] fun d => { d with chk := { d.chk with plan := [⟨0x100000, 8, 1, 5, 6⟩] } }
def wOpen : State := base .run [(keyOpenFld 5 1, 1), (keyOpenFld 1 1, 1)] id
def wChkDone : State := base .run [] fun d =>
  { d with clk := { d.clk with tclk := 8 }, chk := { d.chk with units := (List.replicate 3 ChkUnit.fresh) ++ [{ ChkUnit.fresh with doneAt := some 8 }] } }
def wChkJob : State := base .run [(CHK_CFG_POLY 2, 2), (CHK_START_START 2, 0x100000), (CHK_LEN_LEN 2, 256),
  (CHK_EXP_LO_VALUE 2, 7), (CHK_CFG_CMP_EN 2, 1)] id
def wChkRun : State := base .run [(CHK_STAT_BUSY 2, 1)] fun d =>
  { d with chk := { d.chk with units := [ChkUnit.fresh, ChkUnit.fresh, { poly := 2, prio := false, fold := false, cmp := true, start := 0x100000, len := 8, tag := 1, foldBase := 0, exp := 5, expc := 6, doneAt := none }, ChkUnit.fresh] } }
def wJtag : State := base .run [] fun d => { d with front := { d.front with jtagAt := some 319 } }
def onChan (n : Nat) (f : Chan → Chan) (d : Dev) : Dev := d.setChan n f
def onCell (n : Nat) (f : Cell → Cell) (d : Dev) : Dev := d.setCell n f
def wLoses : State := base .run [(MCH_DEC_DEC 11, 1), (MCH_CFG_ENABLE 11, 1), (MEAS_CTL_JOB_EN, 0)] id
def wEdge : State := base .run [(MCH_DEC_DEC 11, 1), (MCH_CFG_ENABLE 11, 1), (MEAS_CTL_JOB_EN, 0)] (onCell 47 (fun c
  => { c with armed := some 11 }) ∘ onChan 11 fun c => { c with lastFwd := some 163840 })
def wEdge3 : State := base .run [(MCH_DEC_DEC 11, 3)] id
def wNoMeas : State := base .boot [] id
def wEdgeGen : State := base .run [(PAD_CFG_EG 15, 3), (PAD_CFG_EG_V 15, 1), (MCH_DEC_DEC 56, 1), (MCH_CFG_CLAIMED
  56, 1)] (onCell 47 (fun c => { c with role := .loop, stream := 56 }) ∘ fun d => { d with alive := [56] })
def wChkRes : Nat := crcJob 2 1 none ((Dev.advance 1600 wChkRun.dev).chkWords (wChkRun.dev.chkUnit 2))
def wConv : State := base .run [] fun d =>
  { d with meas := { d.meas with events := [⟨43, 163840, 0, 0, 0, 12, true, 500000, 40960 * 2 ^ 32, some (540960, 40960 * 2 ^ 32), [(47, .waiting)], none⟩] } }
def evOne : Event := ⟨43, 163840, 0, 0, 0, 12, true, 500000, 40960 * 2 ^ 32, some (540960, 40960 * 2 ^ 32), [(47,
  .waiting)], none⟩
def wCell (c : Cell) : State := base .run [] (onCell 47 fun _ => c)
def wNear : State := base .run [(REF_NOM_LO_NOM 11, 65536), (REF_NOM_HI_NOM 11, 152), (MCH_CFG_CLAIMED 11, 1)]
  (onCell 47 (fun _ => { Cell.fresh with role := .loop, stream := 11 }) ∘ onChan 11 fun c =>
  { c with lastConv := some 5 })
def wCells : State := base .run [] fun d =>
  { d with meas := { d.meas with dueOrder := [47], cells := updAt d.meas.cells 47 fun c => { c with overdue := true } } }
def wHand (hi : Nat) : State := base .run [(REF_NOM_LO_NOM 11, 65536), (REF_NOM_HI_NOM 11, hi), (MCH_CFG_CLAIMED 11,
  1)] fun d => { d with meas := { d.meas with handover := some ⟨46, 47, 11⟩ } }
def wCalRun (r : CalRun) : State := base .run [] fun d => { d with meas := { d.meas with calRun := some r } }
def wPush (m : Nat) (fs : List (Fld × Nat)) : State := base .run [] fun d => fs.foldl (fun d p => d.wrPm m p.1 p.2)
  (((d.wr (TQ_CFG_ENABLE 15) 1).wr (MCH_CFG_ENABLE 11) 1).wr MEAS_CTL_JOB_EN 1)
def job0 : Job :=
  { order := 5, tag := 9, ring := 15, kind := .interval, chA := 11, chB := 10, stat := false, ratio := false, paramA := 0, paramB := 0, begin := 0, early := false, inj := false, start := none, cand := none, stops := [], edges := 0, lastEdge := none, close := none, openArr := none, lostA := [], bOpenArr := none, lostB := [], bStops := [], bOpen := none, bEdges := 0, bLast := none, sum := 0, sumSq := 0, minS := 0, maxS := 0, written := 0, dropped := 0, bad := false, done := none }
def done0 : Done := { tmo := false, near := false, abort := false, rst := false, cause := 0, payload := 7 }
def wJob (j : Job) : State := base .run [] fun d => (d.setJob 127 (some j)).wrPm 6 MEAS_ABORT_TAG_TAG 9
def wRing (fs : List (Fld × Nat)) (f : Ring → Ring) : State := base .run ((TQ_CFG_ENABLE 15, 1) :: fs) fun d =>
  d.setRing 15 f
def wRingJob (fs : List (Fld × Nat)) : State := base .run ((TQ_CFG_ENABLE 15, 1) :: fs) fun d => (d.setJob 127 (some
  { job0 with done := some done0 })).setRing 15 fun g => { g with wq := [.completion 3 127] }
def wTp (fs : List (Fld × Nat)) (f : TpState → TpState) : State := base .run ((TP_CTL_ENABLE, 1) :: (TQ_CFG_ENABLE
  15, 1) :: (TQ_CFG_MODE 15, 1) :: fs) fun d => { d with jobs := { d.jobs with tp := f d.jobs.tp } }
def wSent : State := base .run [(TP_CTL_ENABLE, 1), (TQ_CFG_ENABLE 15, 1), (TQ_CFG_MODE 15, 1), (TQ_HEAD_HEAD 15, 9),
  (TQ_TAIL_TAIL 15, 0)] fun d => d.setRing 15 fun g => { g with sent := 5, top := 5, replayFrom := some 40 }
def wPad (kind st : Nat) (fs : List (Fld × Nat)) (f : Paddock → Paddock) : State :=
  base .run ([(PAD_CFG_KIND 15, kind), (PAD_STATE_STATE 15, st), (PAD_STATE_ACTIVE_V 15, 1), (PAD_STATE_ACTIVE_CH 15,
    11),
  (REF_NOM_LO_NOM 11, 65536), (MCH_DEC_DEC 11, 1)] ++ fs) fun d => d.setPad 15 f
def wBeat (fs : List (Fld × Nat)) (f : Beat → Beat) : State :=
  base .run ([(BN_CFG_USED 7, 1), (BN_CFG_STEER_V 7, 1), (BN_CFG_PAD 7, 15), (STEER_CFG_USED 7, 1), (STEER_CFG_PAD 7,
    15), (MCH_DEC_DEC 19, 1),
  (PAD_CFG_KIND 15, 1), (PAD_STATE_STATE 15, 2), (PAD_STATE_ACTIVE_V 15, 1), (PAD_STATE_ACTIVE_CH 15, 19)] ++ fs) fun
    d => (d.setBeat 7 f).setPort 7 fun p => { p with fnom := 256000000 }
def wTk (fs : List (Fld × Nat)) : State := base .run ([(PAD_CFG_TK 15, 1), (PAD_CFG_KIND 15, 0)] ++ fs) id
def wRef (st : Nat) (fs : List (Fld × Nat)) (f : RefMon → RefMon) : State :=
  base .run ([(REF_STAT_STATE 11, st), (REF_NOM_LO_NOM 11, 65536), (MCH_DEC_DEC 11, 1), (MCH_DEC_DEC 50, 1)] ++ fs)
    fun d => d.setRef 11 f
def win0 : FmWin :=
  { start := 0, tau := 100, discarded := false, ref := ⟨11, 0, 655360000000000, 0⟩, base := ⟨11, 0, 6553600, 0⟩, refNext := ⟨0, 0, 0, 0⟩, baseNext := ⟨0, 0, 0, 0⟩, refLost := [], baseLost := [] }
def wOcxo (fs : List (Fld × Nat)) (f : RefMon → RefMon) : State :=
  base .run ([(REF_OCXO_CFG_DECL, 1), (REF_OCXO_NOM_HI_NOM, 152), (REF_OCXO_NOM_LO_NOM, 2524971008), (MCH_DEC_DEC 50,
    1), (MCH_DEC_DEC 51, 1)] ++ fs) fun d => d.setRef 12 f
def wAlive : State := base .run [] fun d => { d with alive := [63] }
def wSel (fs : List (Fld × Nat)) : State := base .run ([(PAD_CFG_KIND 15, 0), (PAD_CAND_CFG_VALID 15 7, 1),
  (PAD_CAND_CFG_CH 15 7, 11), (REF_STAT_STATE 11, 3)] ++ fs) id
def wPlug : State := base .run [(REF_CFG_PLUG_EN 11, 1), (CRAFT_STAT_PLUG, 8)] id
def wPb : State := base .run [(pbBit 1, 1)] id
def wSens (fails : Nat) : State := base .run [(CRAFT_SENS_CFG_EN, 1), (CRAFT_SENS_TEMP_FAILS, fails)] id
def wFlock (fs : List (Fld × Nat)) (f : Dev → Dev) : State := base .run ([(FLOCK_CFG_USED 5, 1), (OUT_CFG_USED 23,
  1), (OUT_CFG_SRC_IDX 23, 5)] ++ fs) f
def wPort (fs : List (Fld × Nat)) (f : Port → Port) : State :=
  base .run ([(STEER_CFG_USED 7, 1), (STEER_CFG_PAD 7, 15), (REF_NOM_LO_NOM 11, 65536), (MCH_DEC_DEC 11, 1),
    (PAD_STATE_ACTIVE_V 15, 1), (PAD_STATE_ACTIVE_CH 15, 11),
  (STEER_GAIN_VALUE 7, 1), (STEER_CLAMP_LO_VALUE 7, 0), (STEER_CLAMP_HI_VALUE 7, 10), (STEER_CFG_WLEN 7, 1)] ++ fs)
    fun d => d.setPort 7 f
def wBn (fs : List (Fld × Nat)) : State := base .run ([(BN_CFG_USED 7, 1), (BN_CFG_STEER_V 7, 1)] ++ fs) id
def wPast (fs : List (Fld × Nat)) (f : Link → Link) : State :=
  base .run ([(PAST_CFG_USED, 1), (PAST_CFG_INDEX, 7), (PLINK_CTL_ENABLE 1, 1), (PLINK_STAT_SYNC 1, 1),
    (PLINK_STAT_UP 1, 1), (PAST_TIMER_HELLO_PER, 1), (PAST_TIMER_HELLO_TMO, 2)] ++ fs) fun d => d.setLink 1 f
def wSeen : State := base .run [(PAST_CFG_USED, 1), (PAST_CFG_INDEX, 7), (PLINK_STAT_SYNC 1, 1), (PLINK_STAT_UP 1,
  1)] fun d => { d with past := { d.past with seen := List.replicate 8 [255] } }
def wFlockSleep : State := base .sleep [(FLOCK_CFG_USED 5, 1), (OUT_CFG_USED 23, 1), (OUT_CFG_SRC_IDX 23, 5)] id
def wElig : State := base .run [(PAST_CFG_USED, 1), (PAST_CFG_INDEX, 7), (PAST_STAT_ROLE, 1), (PAST_TIMER_HELLO_PER,
  1), (PAD_CFG_TK 15, 1), (PAD_STATE_STATE 15, 2)] id
def wHeard : State := wPast [(PAST_STAT_ROLE, 1)] fun l => { l with nbBwV := true, nbBw := 3, beaconAt := some 0 }
def imgBody : List Nat := [5]
def imgHead (seq : Nat) : List Nat := [0x5052584C + 2 ^ 32 + 2 ^ 48, 96 + 2 ^ 32 * seq, 0x7424A101 + 2 ^ 32, 9, 0, 0,
  0]
def checkPair (c : Nat) : Nat := c + 2 ^ 32 * not32 c
def imgWords (seq : Nat) : List Nat :=
  let sec := crcFold 0x10000 0x020000 imgBody
  imgHead seq ++ [checkPair (crcFold 0 0 (imgHead seq)), 1 + 2 ^ 32 * 4, 0x020000 + 2 ^ 32 * sec, not32 sec] ++
    imgBody
def commitWords (seq : Nat) : List Nat := [checkPair seq, crcFold seq 0 (imgWords seq) + 2 ^ 32 * commitPattern]
def wStream : State := base .boot [(DEV_MODE_BOOT_STAGE, 7)] fun d =>
  { d with sram := ByteMem.blit d.sram 0 0x140000 ((imgWords 1 ++ commitWords 1).flatMap (leBytes 8)) }
def wSlots (seqA seqB : Nat) : State := base .boot [(DEV_MODE_BOOT_STAGE, 3)] fun d =>
  (((d.setNvm 0x200000 ((imgWords seqA).flatMap (leBytes 8))).setNvm 0x20BFF0 ((commitWords seqA).flatMap (leBytes
    8))).setNvm 0x20C000
  ((imgWords seqB).flatMap (leBytes 8))).setNvm 0x217FF0 ((commitWords seqB).flatMap (leBytes 8))
def wFired : State := base .run [(FLT_CAP_SRC_VALID, 1), (FLT_CAP_SEQ_SEQ, 0x1FFFF)] fun d => (d.advance 1600).fire
  15 7
def wUpdated : State := base .run [(DEV_UPDATE_CFG_PAST_MASK, 0x81), (DEV_UPDATE_PEND, 0x83)] fun d =>
  { d with clk := { d.clk with closed := true, updated := true } }
def wMustEdge : State := base .run [] fun d => { d with past := { d.past with mustered := some (d.clk.edge, 3) } }
def wSec (n : Nat) : State := base .run [] fun d => { d with meas := { d.meas with secCount := n } }
def wTally : State := base .run [(TQ_CFG_BASE 15, 0), (TQ_HEAD_HEAD 15, 9), (TQ_TAIL_TAIL 15, 0), (TQ_CFG_ENABLE 15,
  1)] id
def wLed : State := base .run [(CRAFT_LED_EN 3, 1), (CRAFT_LED_SRC 3, 0), (CRAFT_LED_PAT_ON 3, 1)] id
def wLamp : State := base .run [(CRAFT_PB_CFG_FUNC_1, 2), (pbBit 1, 1)] id
def wOut : State := base .run [(OUT_CFG_USED 23, 1)] id
def wStarved : State := base .run [(CHK_STAT_BUSY 2, 1), (CHK_STAT_BUSY 1, 1)] fun d =>
  { d with chk := { d.chk with units := [ChkUnit.fresh, { ChkUnit.fresh with start := 0x140000, len := 8, prio := true }, { poly := 2, prio := false, fold := false, cmp := true, start := 0x100000, len := 8, tag := 1, foldBase := 0, exp := 5, expc := 6, doneAt := none }, ChkUnit.fresh] } }
def wStarvedRes : Nat := crcJob 2 1 none ((Dev.advance 1600 wStarved.dev).chkWords (wStarved.dev.chkUnit 2))
def wBootCal : State := base .boot [(DEV_MODE_BOOT_STAGE, 8)] id
def wProg (v : Nat) : State := base .run [(NVM_STAT_VHOLD_OK, 1), (NVM_BUF_DATA 126, v)] fun d => onNvm (fun c =>
  { c with due := [], queue := [NvmWork.new (.hostProgram 319)] }) (d.setNvm (0x200000 + 0x200 * 319 + 8 * 63)
  (leBytes 8 5))
def bufErased (d : Dev) : Dev := (List.range 128).foldl (fun d k => d.wr (NVM_BUF_DATA k) 0xFFFFFFFF) d
def wProgOne (g : Nat) : State := base .run [(NVM_STAT_VHOLD_OK, 1)] fun d => onNvm (fun c =>
  { c with due := [], queue := [NvmWork.new (.hostProgram 319)] }) (((bufErased d).wr (NVM_BUF_DATA (2 * g))
  7).setNvm (0x200000 + 0x200 * 319 + 8 * 63) (leBytes 8 5))
def wProgOp : State := base .run [(NVM_STAT_BUSY, 1)] (onNvm fun c =>
  { c with due := [], op := some ⟨319, false, [(0, 7)]⟩, cur := some ⟨.hostProgram 319, 1, [], 0, false⟩ })
def wRefreshOp : State := base .run [(NVM_STAT_BUSY, 1)] (onNvm fun c =>
  { c with due := [], op := some ⟨319, true, [(0, 7)]⟩, cur := some ⟨.refresh 319 2, 1, [], 0, false⟩ })
def wWeak : State := base .run [(NVM_STAT_VHOLD_OK, 1), (NVM_CNT_STAT_READY, 1)] fun d => onNvm (fun c =>
  { c with queue := [], due := [⟨0, false⟩] }) ((d.setCounter 5 319).setNvm (0x200000 + 0x200 * 319 + 8 * 63)
  (leBytes 8 5))
def wRec : State := base .run [] fun d => (((((d.setNvm 0x21E000 (leBytes 8 (mkGroup 0x544E5443 1))).setNvm 0x21E038
  (leBytes 8 (mkGroup commitPattern 1))).setNvm 0x21E040 (leBytes 8 (mkGroup 0x11F 5))).setNvm 0x21E048 (leBytes 8
  (withNot 7))).setNvm 0x21E050 (leBytes 8 (withNot markNoCarry)))
def wCompact : State := base .run [] fun d => (((d.setNvm 0x21E000 (leBytes 8 (mkGroup 0x544E5443 1))).setNvm
  0x21E038 (leBytes 8 (mkGroup commitPattern 1))).setNvm 0x21E240 (leBytes 8 (mkGroup 0x11F 5)))
def wScan : State := base .run [(NVM_STAT_BUSY, 1)] (onNvm fun c =>
  { c with due := [], scan := some [1, 2, 2 ^ 64 - 1], op := some ⟨241, true, []⟩, cur := some ⟨.compact, 1, [], 0, false⟩ })
def wMark : State :=
  let s := wPast [(MCH_CFG_CLAIMED 45, 1), (MCH_DEC_DEC 45, 1)] id
  { s with dev := onCell 46 (fun c => { c with role := .loop, stream := 45, half := 0 }) (onCell 47 (fun c => { c with role := .loop, stream := 45, half := 1 }) s.dev) }
def evMark (tag : Nat) : Event := ⟨45, 163840, tag, 9, 0, 12, true, 500000, 40960 * 2 ^ 32, some (540960, 40960 * 2 ^
  32), [(47, .waiting)], none⟩
def wMarkConv (tag : Nat) : State :=
  let s := wPast [] fun l => { l with launches := [⟨5, 100⟩], arrivals := [⟨6, 200⟩] }
  { s with dev := { s.dev with meas := { s.dev.meas with events := [evMark tag] } } }
def wBw (role prio nbPrio : Nat) (fs : List (Fld × Nat)) : State :=
  wPast ([(PAST_STAT_ROLE, role), (PAST_CFG_PRIO, prio), (PLINK_STAT_NB_IDX 1, 3), (PAD_CFG_TK 15, 1),
    (PAD_STATE_STATE 15, 2)] ++ fs) fun l =>
    { l with nbBwV := true, nbBw := 3, beaconAt := some 0, nbPrio := nbPrio }
def wBootclk : State := base .run [] fun d => { d with clk := { d.clk with bootclk := true } }


/-! ### Worked examples of the manual -/

/-- 02, Worked conversion: CELL_17, table word 0x0F2BC50E, raw code 12,345 give the fraction 62,428. -/
theorem test_fraction : ((base .run [] fun d => d.setSram 0x164700 (leBytes 4 0x0F2BC50E)).dev.fraction 17 12345) = 62428 := by
  decide +kernel

/-- 02, Worked conversion: PATH 22,950 and PATH_TC 8 at 75 degC give the delay 23,110. -/
theorem test_delay : (base .run [(MCH_PATH_PATH 3, 22950), (MCH_PATH_PATH_TC 3, 8), (DEV_TEMP_TEMP, 75 * 16)] id).dev.chanDelay 3 0
    = 23110 := by decide +kernel

/-- 02, Worked conversion: the timestamp and the payload of its TS record. -/
theorem test_stamp : packTs (stamp (((76543 * 1000000000 + 412870005) * 65536 + 4608) * 2 ^ 32) (40960 * 2 ^ 32) 62428 23110)
    = 0x4ABFD89BE573C3DE := by decide +kernel

/-- 02, Calibration: segment 192 of CELL_17 with 132,480 hits after 8,675,328. -/
theorem test_table_entry : tableEntry 8675328 132480 (2 ^ 24) = 0x0F2BC50E := by decide +kernel

/-- 03, Worked example: the interval of 156,608 units, and NEAR of 00's worked unit. -/
theorem test_interval : (Done.interval 156608).payload = 0x263C0 ∧ (Done.interval 156608).near = false ∧
    (Done.interval (-66)).payload = 0xFFFFFFFFFFFFFFBE ∧ (Done.interval (-66)).near = false ∧
    (Done.interval (-59)).payload = 0xFFFFFFFFFFFFFFC5 ∧ (Done.interval (-59)).near = true := by decide +kernel

/-- 03, Worked example: the TI record of TQ_3 at SEQ 0x0117, and the payload of the start's TS record. -/
theorem test_ti_record :
    (let d := ((base .run [(TQ_CFG_ENABLE 3, 1), (TQ_HEAD_HEAD 3, 0x0117), (TQ_TAIL_TAIL 3, 0x0117)] id).dev.writeRecord 3
      (recHead false false false false false false 1 4) 0x43 156608);
    (d.sramWord 0x100170, d.sramWord 0x100174, d.sramWord 0x100178, d.sramWord 0x10017C, d.rd (TQ_HEAD_HEAD 3)))
      = (0x00440117, 0x43, 0x263C0, 0, 0x0118) ∧
    packTs ((131071 * 1000000000 + 999999998) * 65536 + 50000) = 0x7FFFFB9AC9FEC350 := by decide +kernel

/-- 04, Worked ladder: BW 9, MULT 100 at 250 kHz start the ladder at 10 Hz. -/
theorem test_ladder_start :
    (let p := (base .run [(PAD_CTL_BW 0, 9), (PAD_LADDER_MULT 0, 100), (PAD_STATE_ACTIVE_V 0, 1), (PAD_STATE_ACTIVE_CH 0, 0),
      (REF_NOM_LO_NOM 0, 156250000 * 65536 % 2 ^ 32), (REF_NOM_HI_NOM 0, 156250000 * 65536 / 2 ^ 32), (MCH_DEC_DEC 0, 625)]
      id).dev.padB0 0; p.1 = 10 * p.2) := by decide +kernel

/-- 04, Worked holdover: the history entries of the table give H = -1,399,455 over 300 updates. -/
theorem test_holdover :
    (let d := ((base .run [(PAD_HWIN_W 0, 300), (PAD_HGUARD_GUARD 0, 60), (PAD_HGUARD_HOLD_MIN 0, 60),
        (PAD_STATE_STRAY_GUARD 0, 1)] fun d =>
      ((((((({ d with clk := { d.clk with hsec := 5000 } }).setRef 0 fun m => { m with onset := 4970 }).setHist 0 1 305 (-1407375) 16).setHist
        0 1 304 (-1404560) 12).setHist 0 2 18 (-1398930) 256).setHist 0 2 17 0 256).setHist 0 1 287 (-1396115) 16).setHist 0 1
        286 0 16).dev.computeH 0).1;
    (d.rd48S (PAD_HAVG_LO_VALUE 0) (PAD_HAVG_HI_VALUE 0), d.rd (PAD_HSTAT_VALUE 0), d.rd (PAD_HGEFF_VALUE 0)))
      = (-1399455, 300, 90) := by decide +kernel

/-- 06, Worked steering word: N of APLL_0 for y = -1,399,455. -/
theorem test_steering_word :
    (let d := ((base .run [(FLOCK_CFG_NOM_NI 0, 128)] id).dev.applyN 0 (-1399455)); (d.rd ⟨rFLOCK_N_HI 0, 31, 0⟩, d.rd (FLOCK_N_LO_N 0)))
      = (0x007FFFFF, 0xF552B080) := by decide +kernel

/-- 06, Worked alignment: moving OUT_5 by -2,172 units asks for 6 coarse and 1,152 fine steps. -/
theorem test_align :
    (base .run [(FLOCK_CFG_NOM_NI 1, 128), (OUT_CFG_USED 5, 1), (OUT_CFG_SRC_IDX 5, 1), (OUT_DIV_ODIV 5, 4)] id).dev.alignCounts 5
      (-2172) = some (6, 1152) := by decide +kernel

/-- 07, Worked card: one gate on C1, and TEFF of C0 and C1 after GSHIFT 250,000. -/
theorem test_gate :
    (base .run [(BN_CFG_PRE 1, 1), (MCH_DEC_DEC 13, 4000)] id).dev.gateFreq 1 655319040 = 819251203200 ∧
    (base .run [(STEER_TGT_LO_TGT 1, 819200000000 % 2 ^ 32), (STEER_TGT_HI_TGT 1, 819200000000 / 2 ^ 32), (STEER_LINK_LED 1, 1),
      (STEER_LINK_FSIGN 1, 1), (STEER_GSHIFT_GSHIFT 0, 250000)] id).dev.teffRaw 1 = 3199750000 * 256 := by decide +kernel

/-- 08, Worked offset: D1's exchange gives theta = 1,000 and rtt = 403,120. -/
theorem test_offset :
    (let d := ((base .run [(PLINK_STAT_UP 0, 1), (PLINK_ASYM_ASYM 0, 3280)] fun d => d.setLink 0 fun l =>
        { l with launches := [⟨2, 1000262⟩], arrivals := [⟨1, 1200920⟩] }).dev.tsRx 0 1000000 1 1202462 2);
    (d.rd48S (PLINK_OFF_LO_OFF 0) (PLINK_OFF_HI_OFF 0), d.rd48S (PLINK_RTT_LO_RTT 0) (PLINK_RTT_HI_RTT 0))) = (1000, 403120) := by
  decide +kernel

/-- 09, Worked slot choices, in the table's order. -/
theorem test_slot_choice :
    chooseSlot clsClean clsClean 0xFFFFFFFE 3 0 1 = (some 1, false) ∧ chooseSlot clsClean clsEmpty 0x12 0 0 0 = (some 0, false) ∧
    chooseSlot clsCorrected clsClean 0x40 0x40 0 1 = (some 1, true) ∧ chooseSlot clsClean clsClean 0x40 0x40 1 1 = (some 0, false) ∧
    chooseSlot clsClean clsUnverified 0x41 0x42 0 1 = (some 0, false) ∧
    chooseSlot clsClean clsClean 0x80000000 0 0 1 = (some 0, true) := by decide

/-- 11, Worked escalation: the capture of APLL_1's loss of lock as read after the relock, and its latched bit with SEQ. -/
theorem test_capture :
    (let d := ((base .run [(FLOCK_STAT_LOCK 1, 1), (FLOCK_CFG_USED 1, 1), (sevFld 30, 2)] id).dev.apllLol 1 |>.advance 1600).apllRelock 1;
    (d.regValue 0 rFLT_CAP_SRC, d.rd ⟨rFLT_CAP_DETAIL, 31, 0⟩, d.rd ⟨0x01004C, 31, 0⟩)) = (0x8A10001E, 1, 0x01000040) := by
  decide +kernel

/-- 08 R210: an idle, K28.5 and D16.2 by the code groups of IEEE 802.3 Clause 36, leaves the running disparity as it was. -/
theorem test_idle_pair : idleGroups false = [0b0011111010, 0b1001000101] ∧ idleGroups true = [0b1100000101, 0b0110110101] := by decide

/-! ### Witnesses -/

/-- States and operands that meet the hypotheses of each clause of XoinCountSelectsRow. -/
theorem wit_XoinCountSelectsRow :
    (∃ (s : State) (count f : Nat), s.dev.Steady ∧ s.dev.atStage 0 = true ∧ xoinRow count = some f) ∧
    (∃ (s : State) (count : Nat), s.dev.Steady ∧ s.dev.atStage 0 = true ∧ xoinRow count = none) ∧
    (∃ (s : State) (count f : Nat), s.dev.Steady ∧ s.dev.atStage 1 = true ∧ xoinRow count = some f) ∧
    (∃ (s : State) (count : Nat), s.dev.Steady ∧ s.dev.atStage 1 = true ∧ xoinRow count = none) :=
  ⟨⟨wBoot 0, 1760, 15625, ⟨⟨by decide +kernel, by decide +kernel⟩, by decide +kernel⟩, by decide +kernel⟩,
   ⟨wBoot 0, 564, ⟨⟨by decide +kernel, by decide +kernel⟩, by decide +kernel⟩, by decide +kernel⟩,
   ⟨wBoot 1, 1760, 15625, ⟨⟨by decide +kernel, by decide +kernel⟩, by decide +kernel⟩, by decide +kernel⟩,
   ⟨wBoot 1, 564, ⟨⟨by decide +kernel, by decide +kernel⟩, by decide +kernel⟩, by decide +kernel⟩⟩

/-- States and operands that meet the hypotheses of each clause of SystemPllLockAndLoss. -/
theorem wit_SystemPllLockAndLoss :
    (∃ (s : State) (temp : Int), -32768 ≤ temp ∧ temp < 32768 ∧ s.dev.Steady ∧ s.dev.atStage 2 = true) ∧
    (∃ (s : State), s.dev.applied = true ∧ s.dev.clk.pllLocked = true ∧ (¬(0, 0) ∈ s.dev.flt.live)) ∧
    (∃ (s : State), s.dev.applied = true ∧ s.dev.clk.pllLocked = false) :=
  ⟨⟨wBoot 2, -32768, by decide +kernel, by decide +kernel, ⟨⟨by decide +kernel, by decide +kernel⟩,
      by decide +kernel⟩, by decide +kernel⟩,
   ⟨wRun, by decide +kernel⟩,
   ⟨wUnlocked, by decide +kernel⟩⟩

/-- States and operands that meet the hypotheses of each clause of LevelMonitorsOfTimeBase. -/
theorem wit_LevelMonitorsOfTimeBase :
    (∃ (s : State) (site : CplSite) (src : Nat), (src = if site = CplSite.coarse ∨ site = CplSite.devTime then 2 else
      1) ∧ (¬(src, (cplSiteAt site).fst) ∈ s.dev.flt.live)) ∧
    (∃ (site : CplSite) (src : Nat), (src = if site = CplSite.coarse ∨ site = CplSite.devTime then 2 else 1)) ∧
    (∃ (s : State) (k : Nat), k < 5 ∧ (¬(4, k) ∈ s.dev.flt.live)) ∧
    (∃ (k : Nat), k < 5) :=
  ⟨⟨wRun, .devTime, _, rfl, by decide +kernel⟩,
   ⟨.devTime, _, rfl⟩,
   ⟨wRun, 4, by decide +kernel⟩,
   ⟨4, by decide +kernel⟩⟩

/-- States and operands that meet the hypotheses of each clause of FirstFiringFillsCapture. -/
theorem wit_FirstFiringFillsCapture :
    ∃ (s : State) (addr m type code : Nat), addr < 2 ^ 24 ∧ m < 7 ∧ type < 6 ∧ code < 2 ^ 16 ∧ s.dev.flag
      FLT_CAP_SRC_VALID = false :=
  ⟨wRun, 0xFFFF, 6, 5, 65535, by decide +kernel⟩

/-- States and operands that meet the hypotheses of each clause of MonitorsFireTheirSources. -/
theorem wit_MonitorsFireTheirSources :
    (∃ (s : State) (rail src inst : Nat), (rail, src, inst) ∈ [(0, 8, 0), (1, 9, 0), (2, 10, 0), (3, 10, 1), (4, 10,
      2), (5, 11, 0), (6, 12, 0)] ∧ (¬(src, inst) ∈ s.dev.flt.live)) ∧
    (∃ (rail src inst : Nat), (rail, src, inst) ∈ [(0, 8, 0), (1, 9, 0), (2, 10, 0), (3, 10, 1), (4, 10, 2), (5, 11,
      0), (6, 12, 0)]) ∧
    (∃ (s : State) (temp hi : Int), -32768 ≤ temp ∧ temp < 32768 ∧ s.dev.flag DEV_TEMP_VALID = true ∧ hi = 16 *
      ↑(s.dev.rdIn FLT_TEMP_TEMP_HI 60 120)) ∧
    (∃ (s : State) (temp hi : Int), -32768 ≤ temp ∧ temp < 32768 ∧ s.dev.flag DEV_TEMP_VALID = true ∧ hi = 16 *
      ↑(s.dev.rdIn FLT_TEMP_TEMP_HI 60 120)) ∧
    (∃ (s : State), s.dev.flag DEV_TEMP_VALID = false) ∧
    (∃ (s : State), s.dev.applied = true) ∧
    (∃ (a : Nat), 1310720 ≤ a ∧ a < 1572864) ∧
    (∃ (s : State) (a type : Nat), 1048576 ≤ a ∧ a < 1572864 ∧ (1310720 ≤ a ∨ type ≠ accRead ∧ type ≠ accLink ∨
      s.dev.ringAt a = none) ∧ (tableCell a = none ∨ type = accWrite)) ∧
    (∃ (s : State) (a type : Nat), 1048576 ≤ a ∧ a < 1572864 ∧ (1310720 ≤ a ∨ type ≠ accRead ∧ type ≠ accLink ∨
      s.dev.ringAt a = none) ∧ (tableCell a = none ∨ type = accWrite)) ∧
    (∃ (s : State) (a type : Nat), 1048576 ≤ a ∧ a < 1572864 ∧ (1310720 ≤ a ∨ type ≠ accRead ∧ type ≠ accLink ∨
      s.dev.ringAt a = none) ∧ tableCell a ≠ none ∧ type ≠ accWrite) ∧
    (∃ (s : State) (a type r : Nat), 1048576 ≤ a ∧ a < 1310720 ∧ (type = accRead ∨ type = accLink) ∧ s.dev.ringAt a =
      some r) ∧
    (∃ (s : State) (dt a : Nat), 1048576 ≤ a ∧ a < 1572864 ∧ s.dev.meas.secFrom = (s.dev.clk.tclk + dt) / 1600000000
      ∧ s.dev.meas.secCount ≠ 16) ∧
    (∃ (s : State) (dt a : Nat), 1048576 ≤ a ∧ a < 1572864 ∧ s.dev.meas.secFrom = (s.dev.clk.tclk + dt) / 1600000000
      ∧ s.dev.meas.secCount = 16) ∧
    (∃ (s : State) (dt a : Nat), 1048576 ≤ a ∧ a < 1572864 ∧ s.dev.meas.secFrom ≠ (s.dev.clk.tclk + dt) / 1600000000) ∧
    (∃ (s : State) (n : Nat), n < 24 ∧ (¬(5, n) ∈ s.dev.flt.live)) ∧
    (∃ (n : Nat), n < 24) :=
  ⟨⟨wRun, 6, 12, 0, by decide +kernel⟩,
   ⟨6, 12, 0, by decide +kernel⟩,
   ⟨wTemp, -32768, _, by decide +kernel, by decide +kernel, by decide +kernel, rfl⟩,
   ⟨wTemp, 32767, _, by decide +kernel, by decide +kernel, by decide +kernel, rfl⟩,
   ⟨wRun, by decide +kernel⟩,
   ⟨wRun, by decide +kernel⟩,
   ⟨0x17FFFF, by decide +kernel⟩,
   ⟨wRun, 0x17FFFF, 0, by decide +kernel⟩,
   ⟨wRun, 0x100000, accRead, by decide +kernel⟩,
   ⟨wRun, 0x16BFFF, accRead, by decide +kernel⟩,
   ⟨wTally, 0x10008F, accLink, 15, by decide +kernel⟩,
   ⟨wRun, 1600, 0x17FFFF, by decide +kernel⟩,
   ⟨wSec 16, 1600, 0x17FFFF, by decide +kernel⟩,
   ⟨wSec 16, 1600000000, 0x17FFFF, by decide +kernel⟩,
   ⟨wOut, 23, by decide +kernel⟩,
   ⟨23, by decide +kernel⟩⟩

/-- States and operands that meet the hypotheses of each clause of CalledFoldIsTakenOnItsEdge. -/
theorem wit_CalledFoldIsTakenOnItsEdge :
    (∃ (d : Dev), d.flt.foldPend = true ∧ d.flt.foldNext = false ∧ d.flt.dumpCopy = none ∧ (d.mode = Mode.run ∨
      d.mode = Mode.service) ∧ d.flag FLT_CFG_AUTO_UNFOLD = false) ∧
    (∃ (d : Dev) (n : Nat), d.flt.foldPend = true ∧ d.flt.foldNext = false ∧ d.flt.dumpCopy = none ∧ (d.mode =
      Mode.run ∨ d.mode = Mode.service) ∧ d.flag FLT_CFG_AUTO_UNFOLD = false ∧ n < 24) :=
  ⟨⟨wFold.dev, by decide +kernel⟩,
   ⟨wFold.dev, 23, by decide +kernel⟩⟩

/-- States and operands that meet the hypotheses of each clause of InjectionFiresOnceOrIsRejected. -/
theorem wit_InjectionFiresOnceOrIsRejected :
    (∃ (s : State) (m src : Nat), src < 64 ∧ s.dev.Grants m rFLT_INJ ∧ s.dev.flag FLT_INJ_STAT_ACTIVE = false ∧
      s.dev.latched src = false) ∧
    (∃ (s : State) (m src : Nat), src < 64 ∧ s.dev.Grants m rFLT_INJ ∧ (s.dev.flag FLT_INJ_STAT_ACTIVE = true ∨
      s.dev.latched src = true)) :=
  ⟨⟨wRun, 0, 63, by decide +kernel, ⟨by decide +kernel, by decide +kernel⟩, by decide +kernel⟩,
   ⟨wInj, 0, 3, by decide +kernel, ⟨by decide +kernel, by decide +kernel⟩, by decide +kernel⟩⟩

/-- States and operands that meet the hypotheses of each clause of UserBitsFireOnceEach. -/
theorem wit_UserBitsFireOnceEach :
    ∃ (s : State) (m mask : Nat), mask < 16 ∧ s.dev.Grants m rFLT_USER :=
  ⟨wRun, 0, 15, by decide +kernel, ⟨by decide +kernel, by decide +kernel⟩⟩

/-- States and operands that meet the hypotheses of each clause of CaptureReleaseNeedsItsSequence. -/
theorem wit_CaptureReleaseNeedsItsSequence :
    (∃ (s : State) (dt m seq : Nat) (d : Dev), seq < 2 ^ 16 ∧ s.dev.Grants m rFLT_CMD ∧ d = Dev.advance dt s.dev ∧
      seq = s.dev.rd FLT_CAP_SEQ_SEQ % 2 ^ 16 ∧ d.flt.fired = []) ∧
    (∃ (s : State) (dt m seq : Nat) (d : Dev), seq < 2 ^ 16 ∧ s.dev.Grants m rFLT_CMD ∧ d = Dev.advance dt s.dev ∧
      d.flt.fired ≠ [] ∧ (BitVec.toNat (d.oldWord rFLT_CAP_SRC)).testBit 31 = true ∧ seq = BitVec.toNat (d.oldWord
      rFLT_CAP_SEQ) % 2 ^ 16) ∧
    (∃ (s : State) (dt m seq : Nat) (d : Dev), seq < 2 ^ 16 ∧ s.dev.Grants m rFLT_CMD ∧ d = Dev.advance dt s.dev ∧
      (d.flt.fired = [] ∧ seq ≠ s.dev.rd FLT_CAP_SEQ_SEQ % 2 ^ 16 ∨ d.flt.fired ≠ [] ∧ ((BitVec.toNat (d.oldWord
      rFLT_CAP_SRC)).testBit 31 = false ∨ seq ≠ BitVec.toNat (d.oldWord rFLT_CAP_SEQ) % 2 ^ 16))) ∧
    (∃ (s : State) (dt m seq : Nat) (d : Dev), seq < 2 ^ 16 ∧ s.dev.Grants m rFLT_CMD ∧ d = Dev.advance dt s.dev ∧
      (d.flt.fired = [] ∧ seq ≠ s.dev.rd FLT_CAP_SEQ_SEQ % 2 ^ 16 ∨ d.flt.fired ≠ [] ∧ ((BitVec.toNat (d.oldWord
      rFLT_CAP_SRC)).testBit 31 = false ∨ seq ≠ BitVec.toNat (d.oldWord rFLT_CAP_SEQ) % 2 ^ 16))) :=
  ⟨⟨wCap, 1600, 0, 65535, _, by decide +kernel, ⟨by decide +kernel, by decide +kernel⟩, rfl, by decide +kernel⟩,
   ⟨wFired, 0, 0, 65535, _, by decide +kernel, ⟨by decide +kernel, by decide +kernel⟩, rfl, by decide +kernel⟩,
   ⟨wCap, 1600, 0, 65534, _, by decide +kernel, ⟨by decide +kernel, by decide +kernel⟩, rfl, by decide +kernel⟩,
   ⟨wFired, 0, 0, 65534, _, by decide +kernel, ⟨by decide +kernel, by decide +kernel⟩, rfl, by decide +kernel⟩⟩

/-- States and operands that meet the hypotheses of each clause of CollectorReleasesAndTimers. -/
theorem wit_CollectorReleasesAndTimers :
    (∃ (s : State), s.dev.flag FLT_STAT_ESC_RUN = true ∧ s.dev.underMode ≠ Mode.fold) ∧
    (∃ (s : State), s.dev.flag FLT_STAT_FSTATE = true ∧ ((s.dev.anyLive fun k => decide (s.dev.rd FLT_CFG_FSTATE_SEV
      ≤ s.dev.sev k)) = false)) ∧
    (∃ (s : State), s.dev.flag FLT_STAT_FN = true) ∧
    (∃ (s : State) (m : Nat), s.dev.Grants m rFLT_CMD ∧ s.dev.flag FLT_STAT_FN = true ∧ s.dev.flag FLT_CFG_FN_LATCH =
      true ∧ s.dev.flt.fnWidthDone = true ∧ s.dev.fnCond = false) ∧
    (∃ (s : State) (m : Nat), s.dev.Grants m rFLT_CMD ∧ s.dev.Calm) ∧
    (∃ (s : State) (t : DumpTrigger), s.dev.flt.dump = some t) ∧
    (∃ (s : State), s.dev.flt.dump.isSome = true) ∧
    (∃ (s : State) (x : LogEntry) (rest : List LogEntry), s.dev.flt.logWait = x :: rest) :=
  ⟨⟨wEsc, by decide +kernel⟩,
   ⟨wEsc, by decide +kernel⟩,
   ⟨wEsc, by decide +kernel⟩,
   ⟨wFn, 0, ⟨by decide +kernel, by decide +kernel⟩, by decide +kernel⟩,
   ⟨wFn, 0, ⟨by decide +kernel, by decide +kernel⟩, ⟨by decide +kernel, by decide +kernel⟩⟩,
   ⟨wDump, ⟨true, 0, 3, false, 5, 0, true⟩, by decide +kernel⟩,
   ⟨wDump, by decide +kernel⟩,
   ⟨wLog, ⟨2, 0, 0, 0, 0⟩, [], by decide +kernel⟩⟩

/-- States and operands that meet the hypotheses of each clause of BootSlotChoice. -/
theorem wit_BootSlotChoice :
    (∃ (s : State), s.dev.Steady ∧ s.dev.atStage 3 = true ∧ s.dev.nvmDark = true) ∧
    (∃ (s : State) (corrA corrB : Bool) (badA badB : List Nat) (ca cb : Nat × Nat) (n : Int), s.dev.Steady ∧
      s.dev.atStage 3 = true ∧ s.dev.nvmDark = false ∧ (s.dev.slotSrc 0).classify s.dev.clk.xoin corrA
      ((Dev.slotFound badA badB s.dev).slotErrs 0) = ca ∧ (s.dev.slotSrc 1).classify s.dev.clk.xoin corrB
      ((Dev.slotFound badA badB s.dev).slotErrs 1) = cb ∧ n = (↑(s.dev.slotSrc 1).sequence - ↑(s.dev.slotSrc
      0).sequence) % 2 ^ 32) ∧
    (∃ (s : State) (corrA corrB : Bool) (badA badB : List Nat) (ca cb : Nat × Nat) (n : Int), s.dev.Steady ∧
      s.dev.atStage 3 = true ∧ s.dev.nvmDark = false ∧ (s.dev.slotSrc 0).classify s.dev.clk.xoin corrA
      ((Dev.slotFound badA badB s.dev).slotErrs 0) = ca ∧ (s.dev.slotSrc 1).classify s.dev.clk.xoin corrB
      ((Dev.slotFound badA badB s.dev).slotErrs 1) = cb ∧ n = (↑(s.dev.slotSrc 1).sequence - ↑(s.dev.slotSrc
      0).sequence) % 2 ^ 32) :=
  ⟨⟨wDark, ⟨⟨by decide +kernel, by decide +kernel⟩, by decide +kernel⟩, by decide +kernel⟩,
   ⟨wBoot 3, false, false, [], [], ((wBoot 3).dev.slotSrc 0).classify 10000 false [], ((wBoot 3).dev.slotSrc
     1).classify 1000 false [], _, ⟨⟨by decide +kernel, by decide +kernel⟩, by decide +kernel⟩, by decide +kernel,
     by decide +kernel, by decide +kernel, by decide +kernel, rfl⟩,
   ⟨wSlots 1 2, false, false, [], [], (clsClean, 0), (clsClean, 0), _, ⟨⟨by decide +kernel, by decide +kernel⟩,
     by decide +kernel⟩, by decide +kernel, by decide +kernel, by decide +kernel, by decide +kernel, rfl⟩⟩

/-- States and operands that meet the hypotheses of each clause of BootLoadAndApply. -/
theorem wit_BootLoadAndApply :
    (∃ (s : State), s.dev.atStage 9 = true) ∧
    (∃ (s : State), s.dev.mayApply = true) ∧
    (∃ (s : State), s.dev.mayApply = false ∧ s.dev.Steady) ∧
    (∃ (s : State) (w : NvmWork), s.dev.nvmc.parked = some w ∧ s.dev.Calm) ∧
    (∃ (s : State) (corr : Bool) (bad : List Nat) (c : Nat × Nat), s.dev.Steady ∧ s.dev.atStage 7 = true ∧
      s.dev.stageSrc.classify s.dev.clk.xoin corr bad = c ∧ bootable c.fst = true) ∧
    (∃ (s : State) (corr : Bool) (bad : List Nat) (c : Nat × Nat), s.dev.Steady ∧ s.dev.atStage 7 = true ∧
      s.dev.stageSrc.classify s.dev.clk.xoin corr bad = c ∧ bootable c.fst = false) :=
  ⟨⟨wBoot 9, by decide +kernel⟩,
   ⟨wApply, by decide +kernel⟩,
   ⟨wRun, by decide +kernel, ⟨⟨by decide +kernel, by decide +kernel⟩, by decide +kernel⟩⟩,
   ⟨wParked, NvmWork.new .dumpErase, by decide +kernel, ⟨by decide +kernel, by decide +kernel⟩⟩,
   ⟨wStream, false, [], (clsClean, 0), ⟨⟨by decide +kernel, by decide +kernel⟩, by decide +kernel⟩,
     by decide +kernel⟩,
   ⟨wBoot 7, false, [], (wBoot 7).dev.stageSrc.classify 10000 false [], ⟨⟨by decide +kernel, by decide +kernel⟩,
     by decide +kernel⟩, by decide +kernel⟩⟩

/-- States and operands that meet the hypotheses of each clause of ModeRequests. -/
theorem wit_ModeRequests :
    (∃ (s : State) (m : Nat), s.dev.Grants m rDEV_MODE_REQ ∧ s.dev.Calm ∧ s.dev.mode = Mode.run ∧ s.dev.flag
      DEV_MBX_STAT_BUSY = false ∧ s.dev.flag DEV_CROOK_LOCK = false) ∧
    (∃ (s : State) (m : Nat), s.dev.Grants m rDEV_MODE_REQ ∧ s.dev.Calm ∧ s.dev.mode = Mode.run ∧ s.dev.flag
      DEV_MBX_STAT_BUSY = false) ∧
    (∃ (s : State) (m : Nat), s.dev.Grants m rDEV_MODE_REQ ∧ s.dev.Calm ∧ s.dev.mode = Mode.service ∧ s.dev.flag
      DEV_MBX_STAT_BUSY = false) ∧
    (∃ (s : State) (m : Nat), s.dev.Grants m rDEV_MODE_REQ ∧ s.dev.Calm ∧ s.dev.mode = Mode.sleep) ∧
    (∃ (s : State) (m : Nat), s.dev.Grants m rDEV_MODE_REQ ∧ s.dev.Calm ∧ s.dev.mode = Mode.fold ∧ s.dev.flag
      FLT_STAT_FOLD_REQ = false) ∧
    (∃ (s : State) (m : Nat), s.dev.Grants m rDEV_MODE_REQ ∧ s.dev.Calm ∧ s.dev.underMode ≠ Mode.fold ∧ s.dev.mode =
      Mode.run) ∧
    (∃ (s : State) (m : Nat), s.dev.Grants m rDEV_MODE_REQ ∧ s.dev.Calm ∧ s.dev.underMode ≠ Mode.fold ∧ s.dev.mode ≠
      Mode.run) ∧
    (∃ (s : State) (m : Nat), s.dev.Grants m rDEV_MODE_REQ ∧ s.dev.Calm ∧ s.dev.underMode ≠ Mode.fold ∧ s.dev.mode =
      Mode.run ∧ s.dev.flag DEV_CROOK_LOCK = true) ∧
    (∃ (s : State) (m : Nat), s.dev.Grants m rDEV_MODE_REQ ∧ s.dev.Calm ∧ s.dev.underMode ≠ Mode.fold ∧ s.dev.mode =
      Mode.run ∧ s.dev.flag DEV_MBX_STAT_BUSY = true) ∧
    (∃ (s : State) (m req : Nat), s.dev.Grants m rDEV_MODE_REQ ∧ s.dev.Calm ∧ s.dev.underMode ≠ Mode.fold ∧ req < 8 ∧
      req ≠ 2 ∧ req ≠ 4 ∧ req ≠ 5) ∧
    (∃ (s : State) (m : Nat), s.dev.Grants m rDEV_MODE_REQ ∧ s.dev.Calm ∧ s.dev.mode = Mode.fold ∧ s.dev.flag
      FLT_STAT_FOLD_REQ = true) :=
  ⟨⟨wRun, 0, ⟨by decide +kernel, by decide +kernel⟩, ⟨by decide +kernel, by decide +kernel⟩, by decide +kernel⟩,
   ⟨wRun, 0, ⟨by decide +kernel, by decide +kernel⟩, ⟨by decide +kernel, by decide +kernel⟩, by decide +kernel⟩,
   ⟨wMode .service, 0, ⟨by decide +kernel, by decide +kernel⟩, ⟨by decide +kernel, by decide +kernel⟩,
     by decide +kernel⟩,
   ⟨wMode .sleep, 0, ⟨by decide +kernel, by decide +kernel⟩, ⟨by decide +kernel, by decide +kernel⟩,
     by decide +kernel⟩,
   ⟨wMode .fold, 0, ⟨by decide +kernel, by decide +kernel⟩, ⟨by decide +kernel, by decide +kernel⟩,
     by decide +kernel⟩,
   ⟨wRun, 0, ⟨by decide +kernel, by decide +kernel⟩, ⟨by decide +kernel, by decide +kernel⟩, by decide +kernel⟩,
   ⟨wMode .service, 0, ⟨by decide +kernel, by decide +kernel⟩, ⟨by decide +kernel, by decide +kernel⟩,
     by decide +kernel⟩,
   ⟨wCrook, 0, ⟨by decide +kernel, by decide +kernel⟩, ⟨by decide +kernel, by decide +kernel⟩, by decide +kernel⟩,
   ⟨wBusy .run 0, 0, ⟨by decide +kernel, by decide +kernel⟩, ⟨by decide +kernel, by decide +kernel⟩,
     by decide +kernel⟩,
   ⟨wRun, 0, 7, ⟨by decide +kernel, by decide +kernel⟩, ⟨by decide +kernel, by decide +kernel⟩, by decide +kernel⟩,
   ⟨wFoldReq, 0, ⟨by decide +kernel, by decide +kernel⟩, ⟨by decide +kernel, by decide +kernel⟩, by decide +kernel⟩⟩

/-- States and operands that meet the hypotheses of each clause of ResetsBegin. -/
theorem wit_ResetsBegin :
    (∃ (s : State) (dt : Nat) (w : Dev), w = (Dev.advance dt s.dev).withdraw) ∧
    (∃ (s : State) (dt : Nat) (w : Dev), w = (Dev.advance dt s.dev).withdraw ∧ s.dev.resetTakes ResetKind.pin = true) ∧
    (∃ (s : State) (dt : Nat) (w : Dev) (m : Nat), w = (Dev.advance dt s.dev).withdraw ∧ s.dev.Grants m rDEV_RESET) ∧
    (∃ (s : State) (dt : Nat) (w : Dev) (m : Nat), w = (Dev.advance dt s.dev).withdraw ∧ s.dev.Grants m rDEV_RESET ∧
      s.dev.mode ≠ Mode.boot) ∧
    (∃ (s : State) (dt : Nat) (w : Dev) (m : Nat), w = (Dev.advance dt s.dev).withdraw ∧ s.dev.Grants m rDEV_RESET ∧
      s.dev.mode = Mode.boot ∧ s.dev.Steady) ∧
    (∃ (s : State) (dt : Nat) (w : Dev) (m key : Nat), w = (Dev.advance dt s.dev).withdraw ∧ s.dev.Grants m
      rDEV_RESET ∧ key < 65536 ∧ key ≠ 50085 ∧ s.dev.Steady) ∧
    (∃ (s : State) (dt : Nat) (w : Dev), w = (Dev.advance dt s.dev).withdraw ∧ s.dev.boot.wdog = true ∧ s.dev.mode ≠
      Mode.boot ∧ s.dev.mode ≠ Mode.reset) ∧
    (∃ (s : State) (dt : Nat) (w : Dev), w = (Dev.advance dt s.dev).withdraw ∧ s.dev.mode = Mode.boot) ∧
    (∃ (s : State) (dt : Nat) (w : Dev) (m : Nat), w = (Dev.advance dt s.dev).withdraw ∧ m < 7 ∧ s.dev.mode =
      Mode.boot ∧ s.dev.Steady) :=
  ⟨⟨wRun, 1600, _, rfl⟩,
   ⟨wRun, 1600, _, rfl, by decide +kernel⟩,
   ⟨wRun, 1600, _, 0, rfl, ⟨by decide +kernel, by decide +kernel⟩⟩,
   ⟨wRun, 1600, _, 0, rfl, ⟨by decide +kernel, by decide +kernel⟩, by decide +kernel⟩,
   ⟨wBoot 3, 1600, _, 7, rfl, ⟨by decide +kernel, by decide +kernel⟩, by decide +kernel, ⟨⟨by decide +kernel,
     by decide +kernel⟩, by decide +kernel⟩⟩,
   ⟨wRun, 1600, _, 0, 0xC3A4, rfl, ⟨by decide +kernel, by decide +kernel⟩, by decide +kernel, by decide +kernel,
     ⟨⟨by decide +kernel, by decide +kernel⟩, by decide +kernel⟩⟩,
   ⟨wWdog, 1600, _, rfl, by decide +kernel⟩,
   ⟨wBoot 3, 1600, _, rfl, by decide +kernel⟩,
   ⟨wBoot 3, 1600, _, 6, rfl, by decide +kernel, by decide +kernel, ⟨⟨by decide +kernel, by decide +kernel⟩,
     by decide +kernel⟩⟩⟩

/-- States and operands that meet the hypotheses of each clause of ResetPulsesEnd. -/
theorem wit_ResetPulsesEnd :
    (∃ (s : State), s.dev.mode = Mode.reset ∧ s.dev.resetKind = ResetKind.por ∧ s.dev.Steady) ∧
    (∃ (s : State), s.dev.mode = Mode.reset ∧ s.dev.resetKind = ResetKind.pin ∧ s.dev.Steady) ∧
    (∃ (s : State), s.dev.mode = Mode.reset ∧ s.dev.resetKind = ResetKind.soft ∧ s.dev.Steady) ∧
    (∃ (s : State), s.dev.mode = Mode.reset ∧ (s.dev.resetKind = ResetKind.warm ∨ s.dev.resetKind = ResetKind.wdog)) :=
  ⟨⟨wReset .por, by decide +kernel, by decide +kernel, ⟨⟨by decide +kernel, by decide +kernel⟩, by decide +kernel⟩⟩,
   ⟨wReset .pin, by decide +kernel, by decide +kernel, ⟨⟨by decide +kernel, by decide +kernel⟩, by decide +kernel⟩⟩,
   ⟨wReset .soft, by decide +kernel, by decide +kernel, ⟨⟨by decide +kernel, by decide +kernel⟩, by decide +kernel⟩⟩,
   ⟨wReset .warm, by decide +kernel⟩⟩

/-- States and operands that meet the hypotheses of each clause of RegisterWriteLandsByClass. -/
theorem wit_RegisterWriteLandsByClass :
    (∃ (s : State) (dt m a w : Nat) (d : Dev) (r : RegRow) (x : Nat × List Fld), s.dev.Grants m a ∧ s.dev.Steady ∧ a
      < 2 ^ 24 ∧ w < 2 ^ 32 ∧ d = Dev.advance dt (Dev.rejoin true dt s.dev) ∧ s.dev.Ordinary a r ∧ x = limitRw a
      (mergeMask (BitVec.toNat (s.dev.word a)) w (andNot r.rw (d.hwBits a)))) ∧
    (∃ (s : State) (dt m a w : Nat) (d : Dev) (r : RegRow) (x : Nat × List Fld), s.dev.Grants m a ∧ s.dev.Steady ∧ a
      < 2 ^ 24 ∧ w < 2 ^ 32 ∧ d = Dev.advance dt (Dev.rejoin true dt s.dev) ∧ s.dev.Ordinary a r ∧ x = limitRw a
      (mergeMask (BitVec.toNat (s.dev.word a)) w (andNot r.rw (d.hwBits a)))) ∧
    (∃ (s : State) (dt m a w : Nat) (d : Dev) (r : RegRow), s.dev.Grants m a ∧ s.dev.Steady ∧ a < 2 ^ 24 ∧ w < 2 ^ 32
      ∧ d = Dev.advance dt (Dev.rejoin true dt s.dev) ∧ rowAt a = some r ∧ r.perMaster = true ∧ a < 983040) ∧
    (∃ (s : State) (dt m a w : Nat) (d : Dev), s.dev.Grants m a ∧ s.dev.Steady ∧ a < 2 ^ 24 ∧ w < 2 ^ 32 ∧ d =
      Dev.advance dt (Dev.rejoin true dt s.dev) ∧ s.dev.claimedReg a = true ∧ (rowAt a).isSome = true) :=
  ⟨⟨wRun, 1600, 0, rPAD_CTL 15, 0xFFFFFFFF, _, rowOf (rPAD_CTL 15), _, ⟨by decide +kernel, by decide +kernel⟩,
      ⟨⟨by decide +kernel, by decide +kernel⟩, by decide +kernel⟩, by decide +kernel, by decide +kernel, rfl,
      (by constructor <;> decide +kernel), rfl⟩,
   ⟨wRun, 1600, 0, rFLT_ESC, 0xFFFFFFFF, _, rowOf rFLT_ESC, _, ⟨by decide +kernel, by decide +kernel⟩,
     ⟨⟨by decide +kernel, by decide +kernel⟩, by decide +kernel⟩, by decide +kernel, by decide +kernel, rfl,
     (by constructor <;> decide +kernel), rfl⟩,
   ⟨wRun, 1600, 6, rMEAS_REQ_W0, 0xFFFFFFFF, _, rowOf rMEAS_REQ_W0, ⟨by decide +kernel, by decide +kernel⟩,
     ⟨⟨by decide +kernel, by decide +kernel⟩, by decide +kernel⟩, by decide +kernel, by decide +kernel, rfl,
     by decide +kernel⟩,
   ⟨wClaim, 1600, 0, 0x061000 + 32 * 63, 5, _, ⟨by decide +kernel, by decide +kernel⟩, ⟨⟨by decide +kernel,
     by decide +kernel⟩, by decide +kernel⟩, by decide +kernel, by decide +kernel, rfl, by decide +kernel⟩⟩

/-- States and operands that meet the hypotheses of each clause of RefusedWriteChangesNothingElse. -/
theorem wit_RefusedWriteChangesNothingElse :
    (∃ (s : State) (m a w bit : Nat), s.dev.mode ≠ Mode.reset ∧ a < 2 ^ 24 ∧ w < 2 ^ 32 ∧ s.dev.writeRefusal m a =
      some bit) ∧
    (∃ (s : State) (m a w bit : Nat), s.dev.mode ≠ Mode.reset ∧ a < 2 ^ 24 ∧ w < 2 ^ 32 ∧ s.dev.writeRefusal m a =
      some bit) ∧
    (∃ (s : State) (m a w bit : Nat), s.dev.mode ≠ Mode.reset ∧ a < 2 ^ 24 ∧ w < 2 ^ 32 ∧ s.dev.writeRefusal m a =
      some bit) ∧
    (∃ (s : State) (m a w bit : Nat), s.dev.mode ≠ Mode.reset ∧ a < 2 ^ 24 ∧ w < 2 ^ 32 ∧ s.dev.writeRefusal m a =
      some bit) ∧
    (∃ (s : State) (m a w bit : Nat), s.dev.mode ≠ Mode.reset ∧ a < 2 ^ 24 ∧ w < 2 ^ 32 ∧ s.dev.writeRefusal m a =
      some bit) ∧
    (∃ (s : State) (m a w bit : Nat), s.dev.mode ≠ Mode.reset ∧ a < 2 ^ 24 ∧ w < 2 ^ 32 ∧ s.dev.writeRefusal m a =
      some bit ∧ a % 4 ≠ 0) ∧
    (∃ (s : State) (m a w bit : Nat), s.dev.mode ≠ Mode.reset ∧ a < 2 ^ 24 ∧ w < 2 ^ 32 ∧ s.dev.writeRefusal m a =
      some bit ∧ a % 4 = 0 ∧ mapped a = false) ∧
    (∃ (s : State) (m a w bit : Nat), s.dev.mode ≠ Mode.reset ∧ a < 2 ^ 24 ∧ w < 2 ^ 32 ∧ s.dev.writeRefusal m a =
      some bit ∧ a % 4 = 0 ∧ mapped a = true ∧ s.dev.mode = Mode.boot ∧ m ≠ 7) ∧
    (∃ (s : State) (m a w bit : Nat), s.dev.mode ≠ Mode.reset ∧ a < 2 ^ 24 ∧ w < 2 ^ 32 ∧ s.dev.writeRefusal m a =
      some bit ∧ a % 4 = 0 ∧ mapped a = true ∧ s.dev.mode ≠ Mode.boot ∧ s.dev.crookLocks a = true) ∧
    (∃ (s : State) (m a w bit : Nat), s.dev.mode ≠ Mode.reset ∧ a < 2 ^ 24 ∧ w < 2 ^ 32 ∧ s.dev.writeRefusal m a =
      some bit ∧ a % 4 = 0 ∧ mapped a = true ∧ s.dev.mode ≠ Mode.boot ∧ s.dev.crookLocks a = false) :=
  ⟨⟨wRun, 0, 0x000003, 5, 1, by decide +kernel⟩,
   ⟨wRun, 0, 0xFFFFFC, 5, 2, by decide +kernel⟩,
   ⟨wMode .boot, 0, 0x000000, 5, 6, by decide +kernel⟩,
   ⟨wCrook, 0, 0x14C000, 5, 7, by decide +kernel⟩,
   ⟨wRun, 0, 0x200000, 5, 0, by decide +kernel⟩,
   ⟨wRun, 0, 0x000003, 5, 1, by decide +kernel⟩,
   ⟨wRun, 0, 0xFFFFFC, 5, 2, by decide +kernel⟩,
   ⟨wMode .boot, 0, 0x000000, 5, 6, by decide +kernel⟩,
   ⟨wCrook, 0, 0x14C000, 5, 7, by decide +kernel⟩,
   ⟨wRun, 0, 0x200000, 5, 0, by decide +kernel⟩⟩

/-- States and operands that meet the hypotheses of each clause of SequenceClearNeedsTheCurrentSequence. -/
theorem wit_SequenceClearNeedsTheCurrentSequence :
    (∃ (s : State) (m a w : Nat), s.dev.Grants m a ∧ s.dev.Steady ∧ a < 983040 ∧ w < 2 ^ 32 ∧ s.dev.lampTest = true ∧
      a = rCRAFT_EVT) ∧
    (∃ (s : State) (dt m a w : Nat) (r : RegRow), s.dev.Grants m a ∧ s.dev.Steady ∧ a < 983040 ∧ w < 2 ^ 32 ∧ rowAt a
      = some r ∧ r.perMaster = false ∧ r.sqc ≠ 0 ∧ r.rw = 0 ∧ (a = rCRAFT_EVT → s.dev.lampTest = false) ∧ bitsOf w 31
      24 = (Dev.advance dt s.dev).seqBefore a) ∧
    (∃ (s : State) (dt m a w : Nat) (r : RegRow), s.dev.Grants m a ∧ s.dev.Steady ∧ a < 983040 ∧ w < 2 ^ 32 ∧ rowAt a
      = some r ∧ r.perMaster = false ∧ r.sqc ≠ 0 ∧ r.rw = 0 ∧ (a = rCRAFT_EVT → s.dev.lampTest = false) ∧ bitsOf w 31
      24 ≠ (Dev.advance dt s.dev).seqBefore a ∧ w % 2 ^ 24 = 0) ∧
    (∃ (s : State) (dt m a w : Nat) (r : RegRow), s.dev.Grants m a ∧ s.dev.Steady ∧ a < 983040 ∧ w < 2 ^ 32 ∧ rowAt a
      = some r ∧ r.perMaster = false ∧ r.sqc ≠ 0 ∧ r.rw = 0 ∧ (a = rCRAFT_EVT → s.dev.lampTest = false) ∧ bitsOf w 31
      24 ≠ (Dev.advance dt s.dev).seqBefore a ∧ w % 2 ^ 24 ≠ 0) :=
  ⟨⟨wLamp, 0, rCRAFT_EVT, 0x00FFFFFF, ⟨by decide +kernel, by decide +kernel⟩, ⟨⟨by decide +kernel,
      by decide +kernel⟩, by decide +kernel⟩, by decide +kernel⟩,
   ⟨wRun, 1600, 0, rHOST_ERR, 0x00FFFFFF, rowOf rHOST_ERR, ⟨by decide +kernel, by decide +kernel⟩,
     ⟨⟨by decide +kernel, by decide +kernel⟩, by decide +kernel⟩, by decide +kernel⟩,
   ⟨wRun, 1600, 0, rHOST_ERR, 0xFF000000, rowOf rHOST_ERR, ⟨by decide +kernel, by decide +kernel⟩,
     ⟨⟨by decide +kernel, by decide +kernel⟩, by decide +kernel⟩, by decide +kernel⟩,
   ⟨wRun, 1600, 0, rHOST_ERR, 0xFF000001, rowOf rHOST_ERR, ⟨by decide +kernel, by decide +kernel⟩,
     ⟨⟨by decide +kernel, by decide +kernel⟩, by decide +kernel⟩, by decide +kernel⟩⟩

/-- States and operands that meet the hypotheses of each clause of ComplementPairIsAcceptedWhole. -/
theorem wit_ComplementPairIsAcceptedWhole :
    (∃ (s : State) (m n v w a b : Nat), n < 16 ∧ v < 2 ^ 32 ∧ w < 2 ^ 32 ∧ s.dev.Steady ∧ (a = rPAD_HMODEL_LO n ∨ a =
      rPAD_SFO_LO n) ∧ (b = a ∨ b = a + 4) ∧ s.dev.Grants m b) ∧
    (∃ (s : State) (m n v w a b : Nat), n < 16 ∧ v < 2 ^ 32 ∧ w < 2 ^ 32 ∧ s.dev.Steady ∧ (a = rPAD_HMODEL_LO n ∨ a =
      rPAD_SFO_LO n) ∧ (b = a ∨ b = a + 4) ∧ s.dev.Grants m b) ∧
    (∃ (s : State) (m n v w a : Nat), n < 16 ∧ v < 2 ^ 32 ∧ w < 2 ^ 32 ∧ s.dev.Steady ∧ (a = rPAD_HMODEL_LO n ∨ a =
      rPAD_SFO_LO n) ∧ s.dev.Grants m (a + 8) ∧ s.dev.firstHalf m a = some v ∧ w = not32 v) ∧
    (∃ (s : State) (m n v w a : Nat), n < 16 ∧ v < 2 ^ 32 ∧ w < 2 ^ 32 ∧ s.dev.Steady ∧ (a = rPAD_HMODEL_LO n ∨ a =
      rPAD_SFO_LO n) ∧ s.dev.Grants m (a + 8) ∧ s.dev.firstHalf m a = some v ∧ w ≠ not32 v) ∧
    (∃ (s : State) (m n v w a lo : Nat), n < 16 ∧ v < 2 ^ 32 ∧ w < 2 ^ 32 ∧ s.dev.Steady ∧ (a = rPAD_HMODEL_LO n ∨ a
      = rPAD_SFO_LO n) ∧ s.dev.Grants m (a + 12) ∧ s.dev.firstHalf m (a + 4) = some v ∧ lo = s.dev.heldLo m a ∧ w =
      not32 v) ∧
    (∃ (s : State) (m n v w a : Nat), n < 16 ∧ v < 2 ^ 32 ∧ w < 2 ^ 32 ∧ s.dev.Steady ∧ (a = rPAD_HMODEL_LO n ∨ a =
      rPAD_SFO_LO n) ∧ s.dev.Grants m (a + 12) ∧ s.dev.firstHalf m (a + 4) = some v ∧ w ≠ not32 v) ∧
    (∃ (s : State) (m n v w a k : Nat), n < 16 ∧ v < 2 ^ 32 ∧ w < 2 ^ 32 ∧ s.dev.Steady ∧ (a = rPAD_SPO n ∧ k = 4 ∨
      (a = rPAD_HMODEL_LO n ∨ a = rPAD_SFO_LO n ∨ a = rPAD_HMODEL_LO n + 4 ∨ a = rPAD_SFO_LO n + 4) ∧ k = 8) ∧
      s.dev.Grants m (a + k) ∧ s.dev.firstHalf m a = none) ∧
    (∃ (s : State) (m n v w a k : Nat), n < 16 ∧ v < 2 ^ 32 ∧ w < 2 ^ 32 ∧ s.dev.Steady ∧ (a = rPAD_SPO n ∧ k = 4 ∨
      (a = rPAD_HMODEL_LO n ∨ a = rPAD_SFO_LO n ∨ a = rPAD_HMODEL_LO n + 4 ∨ a = rPAD_SFO_LO n + 4) ∧ k = 8) ∧
      s.dev.Grants m (a + k) ∧ s.dev.firstHalf m a = none) ∧
    (∃ (s : State) (m n v w : Nat), n < 16 ∧ v < 2 ^ 32 ∧ w < 2 ^ 32 ∧ s.dev.Steady ∧ s.dev.Grants m (rPAD_SPO n)) ∧
    (∃ (s : State) (m n v w : Nat), n < 16 ∧ v < 2 ^ 32 ∧ w < 2 ^ 32 ∧ s.dev.Steady ∧ s.dev.Grants m (rPAD_SPO_C n) ∧
      s.dev.firstHalf m (rPAD_SPO n) = some v ∧ w = not32 v) ∧
    (∃ (s : State) (m n v w : Nat), n < 16 ∧ v < 2 ^ 32 ∧ w < 2 ^ 32 ∧ s.dev.Steady ∧ s.dev.Grants m (rPAD_SPO_C n) ∧
      s.dev.firstHalf m (rPAD_SPO n) = some v ∧ w ≠ not32 v) :=
  ⟨⟨wRun, 0, 15, 7, 0, rPAD_SFO_LO 15, rPAD_SFO_LO 15 + 4, by decide +kernel, by decide +kernel, by decide +kernel,
      ⟨⟨by decide +kernel, by decide +kernel⟩, by decide +kernel⟩, by decide +kernel, by decide +kernel,
      ⟨by decide +kernel, by decide +kernel⟩⟩,
   ⟨wRun, 0, 15, 7, 0, rPAD_HMODEL_LO 15, rPAD_HMODEL_LO 15, by decide +kernel, by decide +kernel, by decide +kernel,
     ⟨⟨by decide +kernel, by decide +kernel⟩, by decide +kernel⟩, by decide +kernel, by decide +kernel,
     ⟨by decide +kernel, by decide +kernel⟩⟩,
   ⟨wHalfAt (rPAD_SFO_LO 15) 7, 0, 15, 7, _, rPAD_SFO_LO 15, by decide +kernel, by decide +kernel, by decide +kernel,
     ⟨⟨by decide +kernel, by decide +kernel⟩, by decide +kernel⟩, by decide +kernel, ⟨by decide +kernel,
     by decide +kernel⟩, by decide +kernel, rfl⟩,
   ⟨wHalfAt (rPAD_HMODEL_LO 15) 7, 0, 15, 7, 7, rPAD_HMODEL_LO 15, by decide +kernel, by decide +kernel,
     by decide +kernel, ⟨⟨by decide +kernel, by decide +kernel⟩, by decide +kernel⟩, by decide +kernel,
     ⟨by decide +kernel, by decide +kernel⟩, by decide +kernel⟩,
   ⟨wHalfAt (rPAD_SFO_LO 15 + 4) 7, 0, 15, 7, _, rPAD_SFO_LO 15, _, by decide +kernel, by decide +kernel,
     by decide +kernel, ⟨⟨by decide +kernel, by decide +kernel⟩, by decide +kernel⟩, by decide +kernel,
     ⟨by decide +kernel, by decide +kernel⟩, by decide +kernel, rfl, rfl⟩,
   ⟨wHalfAt (rPAD_HMODEL_LO 15 + 4) 7, 0, 15, 7, 7, rPAD_HMODEL_LO 15, by decide +kernel, by decide +kernel,
     by decide +kernel, ⟨⟨by decide +kernel, by decide +kernel⟩, by decide +kernel⟩, by decide +kernel,
     ⟨by decide +kernel, by decide +kernel⟩, by decide +kernel⟩,
   ⟨wRun, 0, 15, 7, 0, rPAD_SPO 15, 4, by decide +kernel, by decide +kernel, by decide +kernel, ⟨⟨by decide +kernel,
     by decide +kernel⟩, by decide +kernel⟩, by decide +kernel, ⟨by decide +kernel, by decide +kernel⟩,
     by decide +kernel⟩,
   ⟨wHalfAt (rPAD_SFO_LO 15 + 4) 7, 6, 15, 7, 0, rPAD_SFO_LO 15 + 4, 8, by decide +kernel, by decide +kernel,
     by decide +kernel, ⟨⟨by decide +kernel, by decide +kernel⟩, by decide +kernel⟩, by decide +kernel,
     ⟨by decide +kernel, by decide +kernel⟩, by decide +kernel⟩,
   ⟨wRun, 0, 15, 7, 0, by decide +kernel, by decide +kernel, by decide +kernel, ⟨⟨by decide +kernel,
     by decide +kernel⟩, by decide +kernel⟩, ⟨by decide +kernel, by decide +kernel⟩⟩,
   ⟨wHalf, 0, 15, 7, _, by decide +kernel, by decide +kernel, by decide +kernel, ⟨⟨by decide +kernel,
     by decide +kernel⟩, by decide +kernel⟩, ⟨by decide +kernel, by decide +kernel⟩, by decide +kernel, rfl⟩,
   ⟨wHalf, 0, 15, 7, 0, by decide +kernel, by decide +kernel, by decide +kernel, ⟨⟨by decide +kernel,
     by decide +kernel⟩, by decide +kernel⟩, ⟨by decide +kernel, by decide +kernel⟩, by decide +kernel⟩⟩

/-- States and operands that meet the hypotheses of each clause of StrobesApplyTheirGroups. -/
theorem wit_StrobesApplyTheirGroups :
    (∃ (d : Dev) (mask a : Nat) (r : RegRow), mask < 256 ∧ (Dev.updateAddrs mask d).Nodup ∧ PlainShadow a r ∧
      inGroups mask a = true ∧ d.shWord a ≠ d.word a) ∧
    (∃ (d : Dev) (mask a : Nat) (r : RegRow), mask < 256 ∧ (Dev.updateAddrs mask d).Nodup ∧ rowAt a = some r ∧ r.sqc
      = 0 ∧ inGroups mask a = false ∧ a ≠ rDEV_UPDATE) ∧
    (∃ (s : State) (dt m mask : Nat) (w u : Dev), mask < 256 ∧ w = Dev.advance dt (Dev.rejoin true dt s.dev) ∧ u =
      Dev.advance dt (Dev.rejoin false dt s.dev) ∧ s.dev.Grants m rDEV_UPDATE) ∧
    (∃ (s : State) (dt m mask : Nat) (w u : Dev), mask < 256 ∧ w = Dev.advance dt (Dev.rejoin true dt s.dev) ∧ u =
      Dev.advance dt (Dev.rejoin false dt s.dev) ∧ s.dev.Grants m rDEV_UPDATE ∧ mask &&& s.dev.rd
      DEV_UPDATE_CFG_PAST_MASK = 0) ∧
    (∃ (s : State) (dt m mask : Nat) (w u : Dev), mask < 256 ∧ w = Dev.advance dt (Dev.rejoin true dt s.dev) ∧ u =
      Dev.advance dt (Dev.rejoin false dt s.dev) ∧ s.dev.Grants m rDEV_UPDATE ∧ mask &&& s.dev.rd
      DEV_UPDATE_CFG_PAST_MASK = 0) ∧
    (∃ (s : State) (dt m mask : Nat) (w u : Dev), mask < 256 ∧ w = Dev.advance dt (Dev.rejoin true dt s.dev) ∧ u =
      Dev.advance dt (Dev.rejoin false dt s.dev) ∧ s.dev.Grants m rDEV_UPDATE ∧ mask ≠ 0 ∧ mask &&& s.dev.rd
      DEV_UPDATE_CFG_PAST_MASK = mask) ∧
    (∃ (s : State) (dt mask : Nat) (w u : Dev) (pin : Nat) (falling : Bool), mask < 256 ∧ w = Dev.advance dt
      (Dev.rejoin true dt s.dev) ∧ u = Dev.advance dt (Dev.rejoin false dt s.dev) ∧ pin < 8 ∧ s.dev.applied = true ∧
      s.dev.flag DEV_UPDATE_CFG_STRB_IN_EN = true ∧ s.dev.rd DEV_UPDATE_CFG_STRB_IN_PIN = pin ∧ s.dev.flag
      DEV_UPDATE_CFG_STRB_IN_EDGE = falling ∧ s.dev.rd (CRAFT_GPIO_FUNC pin) = 2) ∧
    (∃ (s : State) (dt mask : Nat) (w u : Dev) (x : Named), mask < 256 ∧ w = Dev.advance dt (Dev.rejoin true dt
      s.dev) ∧ u = Dev.advance dt (Dev.rejoin false dt s.dev) ∧ s.dev.applied = true ∧ List.filter (fun n =>
      !n.muster && decide (n.at_ ≤ u.nowU)) s.dev.past.waiting = [x]) ∧
    (∃ (s : State) (dt mask : Nat) (w u : Dev), mask < 256 ∧ w = Dev.advance dt (Dev.rejoin true dt s.dev) ∧ u =
      Dev.advance dt (Dev.rejoin false dt s.dev) ∧ s.dev.applied = true) :=
  ⟨⟨wShadow.dev, 0x08, rPAD_SCFG 15, rowOf (rPAD_SCFG 15), by decide +kernel, by decide +kernel,
      (by constructor <;> decide +kernel), by decide +kernel⟩,
   ⟨wShadow.dev, 0x01, rPAD_SCFG 15, rowOf (rPAD_SCFG 15), by decide +kernel⟩,
   ⟨wPastMask, 1600, 0, 0x81, _, _, by decide +kernel, rfl, rfl, ⟨by decide +kernel, by decide +kernel⟩⟩,
   ⟨wPastMask, 1600, 0, 0x02, _, _, by decide +kernel, rfl, rfl, ⟨by decide +kernel, by decide +kernel⟩,
     by decide +kernel⟩,
   ⟨wUpdated, 3, 0, 0x02, _, _, by decide +kernel, rfl, rfl, ⟨by decide +kernel, by decide +kernel⟩,
     by decide +kernel⟩,
   ⟨wPastMask, 1600, 0, 0x81, _, _, by decide +kernel, rfl, rfl, ⟨by decide +kernel, by decide +kernel⟩,
     by decide +kernel⟩,
   ⟨wStrobe, 1600, 0, _, _, 7, false, by decide +kernel, rfl, rfl, by decide +kernel⟩,
   ⟨wWaits, 1600, 0, _, _, ⟨false, 0, 2, 0⟩, by decide +kernel, rfl, rfl, by decide +kernel⟩,
   ⟨wWaits, 1600, 0, _, _, by decide +kernel, rfl, rfl, by decide +kernel⟩⟩

/-- States and operands that meet the hypotheses of each clause of MustersCopyTheHeldBank. -/
theorem wit_MustersCopyTheHeldBank :
    (∃ (s : State) (dt m : Nat) (w u : Dev), s.dev.Calm ∧ w = Dev.advance dt (Dev.rejoin true dt s.dev) ∧ u =
      Dev.advance dt (Dev.rejoin false dt s.dev) ∧ s.dev.Grants m rDEV_MUSTER ∧ s.dev.flag DEV_MUSTER_PEND = false ∧
      (∀ (p : Nat × Nat), s.dev.past.mustered = some p → p.fst ≠ w.clk.edge)) ∧
    (∃ (s : State) (dt m : Nat) (w u : Dev) (p : Nat × Nat), s.dev.Calm ∧ w = Dev.advance dt (Dev.rejoin true dt
      s.dev) ∧ u = Dev.advance dt (Dev.rejoin false dt s.dev) ∧ s.dev.Grants m rDEV_MUSTER ∧ s.dev.flag
      DEV_MUSTER_PEND = false ∧ s.dev.past.mustered = some p ∧ p.fst = w.clk.edge) ∧
    (∃ (s : State) (dt m : Nat) (w u : Dev), s.dev.Calm ∧ w = Dev.advance dt (Dev.rejoin true dt s.dev) ∧ u =
      Dev.advance dt (Dev.rejoin false dt s.dev) ∧ s.dev.Grants m rDEV_MUSTER ∧ s.dev.flag DEV_MUSTER_PEND = false) ∧
    (∃ (s : State) (dt m : Nat) (w u : Dev), s.dev.Calm ∧ w = Dev.advance dt (Dev.rejoin true dt s.dev) ∧ u =
      Dev.advance dt (Dev.rejoin false dt s.dev) ∧ s.dev.Grants m rDEV_MUSTER ∧ s.dev.flag DEV_MUSTER_PEND = true) ∧
    (∃ (s : State) (dt : Nat) (w u : Dev) (n : Named), s.dev.Calm ∧ w = Dev.advance dt (Dev.rejoin true dt s.dev) ∧ u
      = Dev.advance dt (Dev.rejoin false dt s.dev) ∧ s.dev.applied = true ∧ (∀ (p : Nat × Nat), s.dev.past.mustered =
      some p → p.fst = u.clk.edge → n.src < p.snd) ∧ List.filter (fun x => x.muster && decide (x.at_ ≤ u.nowU))
      s.dev.past.waiting = [n]) ∧
    (∃ (s : State) (dt m : Nat) (w u : Dev), s.dev.Calm ∧ w = Dev.advance dt (Dev.rejoin true dt s.dev) ∧ u =
      Dev.advance dt (Dev.rejoin false dt s.dev) ∧ s.dev.Grants m rDEV_CROOK) :=
  ⟨⟨wRun, 1600, 0, _, _, ⟨by decide +kernel, by decide +kernel⟩, rfl, rfl, ⟨by decide +kernel, by decide +kernel⟩,
      by decide +kernel, all_some (by decide +kernel)⟩,
   ⟨wMustEdge, 3, 0, _, _, (wMustEdge.dev.clk.edge, 3), ⟨by decide +kernel, by decide +kernel⟩, rfl, rfl,
     ⟨by decide +kernel, by decide +kernel⟩, by decide +kernel⟩,
   ⟨wRun, 1600, 0, _, _, ⟨by decide +kernel, by decide +kernel⟩, rfl, rfl, ⟨by decide +kernel, by decide +kernel⟩,
     by decide +kernel⟩,
   ⟨wMustered, 1600, 0, _, _, ⟨by decide +kernel, by decide +kernel⟩, rfl, rfl, ⟨by decide +kernel,
     by decide +kernel⟩, by decide +kernel⟩,
   ⟨wWaits, 1600, _, _, ⟨true, 0, 5, 0⟩, ⟨by decide +kernel, by decide +kernel⟩, rfl, rfl, by decide +kernel,
     all_some (by decide +kernel), by decide +kernel⟩,
   ⟨wRun, 1600, 0, _, _, ⟨by decide +kernel, by decide +kernel⟩, rfl, rfl, ⟨by decide +kernel, by decide +kernel⟩⟩⟩

/-- States and operands that meet the hypotheses of each clause of SpiFramesMoveWords. -/
theorem wit_SpiFramesMoveWords :
    (∃ (s : State) (a : Nat) (ws : List Nat), s.dev.applied = true ∧ inShdata a ws.length ∧ s.dev.flag
      HOST_CFG_SPI_CRC_REQ = false) ∧
    (∃ (s : State) (a n : Nat), s.dev.applied = true ∧ inShdata a n ∧ s.dev.flag HOST_CFG_SPI_CRC_REQ = false) ∧
    (∃ (s : State) (a : Nat) (ws : List Nat) (crc : Nat), s.dev.applied = true ∧ inShdata a ws.length ∧ 1 ≤ ws.length
      ∧ ws.length ≤ 64 ∧ crc = writeCrc a ws) ∧
    (∃ (s : State) (a : Nat) (ws : List Nat) (crc : Nat), s.dev.applied = true ∧ inShdata a ws.length ∧ 1 ≤ ws.length
      ∧ ws.length ≤ 64 ∧ crc ≠ writeCrc a ws) ∧
    (∃ (s : State) (a count n : Nat) (ws : List Nat), s.dev.applied = true ∧ inShdata a count ∧ 1 ≤ count ∧ count ≤
      64 ∧ ws = List.map (fun i => s.dev.sramWord (a + 4 * i)) (List.range (min n count)) ∧ count ≤ n) ∧
    (∃ (s : State) (a count n : Nat) (ws : List Nat), s.dev.applied = true ∧ inShdata a count ∧ 1 ≤ count ∧ count ≤
      64 ∧ ws = List.map (fun i => s.dev.sramWord (a + 4 * i)) (List.range (min n count)) ∧ n < count) ∧
    (∃ (s : State) (cmd : Nat), s.dev.applied = true ∧ s.dev.spiKnown cmd = false) ∧
    (∃ (s : State) (part : SpiPart), s.dev.applied = true ∧ part ≠ SpiPart.write) :=
  ⟨⟨wRun, 0x15FFF8, [1, 0xFFFFFFFF], by decide +kernel, ⟨by decide +kernel, by decide +kernel, by decide +kernel⟩,
      by decide +kernel⟩,
   ⟨wRun, 0x15FFF8, 2, by decide +kernel, ⟨by decide +kernel, by decide +kernel, by decide +kernel⟩,
     by decide +kernel⟩,
   ⟨wRun, 0x158000, [1, 0xFFFFFFFF], _, by decide +kernel, ⟨by decide +kernel, by decide +kernel, by decide +kernel⟩,
     by decide +kernel, by decide +kernel, rfl⟩,
   ⟨wRun, 0x158000, [1, 0xFFFFFFFF], writeCrc 0x158000 [1, 0xFFFFFFFF] + 1, by decide +kernel, ⟨by decide +kernel,
     by decide +kernel, by decide +kernel⟩, by decide +kernel⟩,
   ⟨wRun, 0x158000, 2, 2, _, by decide +kernel, ⟨by decide +kernel, by decide +kernel, by decide +kernel⟩,
     by decide +kernel, by decide +kernel, rfl, by decide +kernel⟩,
   ⟨wRun, 0x158000, 2, 1, _, by decide +kernel, ⟨by decide +kernel, by decide +kernel, by decide +kernel⟩,
     by decide +kernel, by decide +kernel, rfl, by decide +kernel⟩,
   ⟨wRun, 0xFF, by decide +kernel⟩,
   ⟨wRun, .head (some 3), by decide +kernel⟩⟩

/-- States and operands that meet the hypotheses of each clause of I2cTransactionsMoveWords. -/
theorem wit_I2cTransactionsMoveWords :
    (∃ (s : State) (dt a me : Nat) (c : Instr) (target : Nat), s.dev.applied = true ∧ me = 88 + s.dev.boot.addrStrap
      ∧ target ≠ me ∧ ((∃ ws left, c = Instr.i2cWrite dt { target := target, addr := a } ws left) ∨ (∃ at_ n, c =
      Instr.i2cRead dt { target := target, addr := at_ } n) ∨ ∃ x, c = Instr.i2cStallTimeout dt target x)) ∧
    (∃ (s : State) (dt a me : Nat) (c : Instr) (target : Nat), s.dev.applied = true ∧ me = 88 + s.dev.boot.addrStrap
      ∧ target ≠ me ∧ ((∃ ws left, c = Instr.i2cWrite dt { target := target, addr := a } ws left) ∨ (∃ at_ n, c =
      Instr.i2cRead dt { target := target, addr := at_ } n) ∨ ∃ x, c = Instr.i2cStallTimeout dt target x)) ∧
    (∃ (s : State) (a me : Nat) (ws : List Nat), s.dev.applied = true ∧ me = 88 + s.dev.boot.addrStrap ∧ inShdata a
      ws.length) ∧
    (∃ (s : State) (a me : Nat), s.dev.applied = true ∧ me = 88 + s.dev.boot.addrStrap ∧ a < 2 ^ 24 ∧ a % 4 ≠ 0) ∧
    (∃ (s : State) (a me n : Nat), s.dev.applied = true ∧ me = 88 + s.dev.boot.addrStrap ∧ inShdata a n) ∧
    (∃ (s : State) (a me n : Nat), s.dev.applied = true ∧ me = 88 + s.dev.boot.addrStrap ∧ s.dev.front.i2cPtr = a ∧
      inShdata a n) ∧
    (∃ (s : State) (a me : Nat) (x : I2cXfer), s.dev.applied = true ∧ me = 88 + s.dev.boot.addrStrap ∧ (∀ (a : Nat)
      (ws : List Nat), x ≠ I2cXfer.write a ws)) :=
  ⟨⟨wRun, 1600, 0, _, .i2cWrite 1600 ⟨0x59, 0⟩ [1] 0, 0x59, by decide +kernel, rfl, by decide +kernel,
      by exact Or.inl ⟨_, _, rfl⟩⟩,
   ⟨wRun, 1600, 0, _, .i2cRead 1600 ⟨0x59, none⟩ 1, 0x59, by decide +kernel, rfl, by decide +kernel,
     by exact Or.inr (Or.inl ⟨_, _, rfl⟩)⟩,
   ⟨wRun, 0x15FFF8, _, [1, 0xFFFFFFFF], by decide +kernel, rfl, ⟨by decide +kernel, by decide +kernel,
     by decide +kernel⟩⟩,
   ⟨wRun, 0xFFFFFF, _, by decide +kernel, rfl, by decide +kernel⟩,
   ⟨wRun, 0x15FFF8, _, 2, by decide +kernel, rfl, ⟨by decide +kernel, by decide +kernel, by decide +kernel⟩⟩,
   ⟨wI2c, 0x158000, _, 2, by decide +kernel, rfl, by decide +kernel, ⟨by decide +kernel, by decide +kernel,
     by decide +kernel⟩⟩,
   ⟨wRun, 0, _, .head, by decide +kernel, rfl, fun _ _ e => by cases e⟩⟩

/-- States and operands that meet the hypotheses of each clause of MailboxRequests. -/
theorem wit_MailboxRequests :
    (∃ (s : State) (dt m tag : Nat) (badA badB : List Nat) (c : Instr) (svc : Nat), m < 8 ∧ tag < 256 ∧ s.dev.Grants
      m rDEV_MBX_CMD ∧ (c, svc) ∈ [(Instr.info dt m tag, 0), (Instr.align dt m tag, 1), (Instr.learn dt m tag, 2),
      (Instr.dump dt m tag, 3), (Instr.imgCommit dt m { tag := tag, badA := badA, badB := badB }, 4),
      (Instr.keyChange dt m tag, 5), (Instr.selftest dt m tag, 6)] ∧ s.dev.flag DEV_MBX_STAT_BUSY = false) ∧
    (∃ (s : State) (dt m tag : Nat) (badA badB : List Nat) (c : Instr) (svc : Nat), m < 8 ∧ tag < 256 ∧ s.dev.Grants
      m rDEV_MBX_CMD ∧ (c, svc) ∈ [(Instr.info dt m tag, 0), (Instr.align dt m tag, 1), (Instr.learn dt m tag, 2),
      (Instr.dump dt m tag, 3), (Instr.imgCommit dt m { tag := tag, badA := badA, badB := badB }, 4),
      (Instr.keyChange dt m tag, 5), (Instr.selftest dt m tag, 6)] ∧ s.dev.flag DEV_MBX_STAT_BUSY = false) ∧
    (∃ (s : State) (dt m tag : Nat) (badA badB : List Nat) (c : Instr) (svc : Nat), m < 8 ∧ tag < 256 ∧ s.dev.Grants
      m rDEV_MBX_CMD ∧ (c, svc) ∈ [(Instr.info dt m tag, 0), (Instr.align dt m tag, 1), (Instr.learn dt m tag, 2),
      (Instr.dump dt m tag, 3), (Instr.imgCommit dt m { tag := tag, badA := badA, badB := badB }, 4),
      (Instr.keyChange dt m tag, 5), (Instr.selftest dt m tag, 6)] ∧ s.dev.flag DEV_MBX_STAT_BUSY = false) ∧
    (∃ (s : State) (dt m tag : Nat) (badA badB : List Nat) (c : Instr) (svc : Nat), m < 8 ∧ tag < 256 ∧ s.dev.Grants
      m rDEV_MBX_CMD ∧ (c, svc) ∈ [(Instr.info dt m tag, 0), (Instr.align dt m tag, 1), (Instr.learn dt m tag, 2),
      (Instr.dump dt m tag, 3), (Instr.imgCommit dt m { tag := tag, badA := badA, badB := badB }, 4),
      (Instr.keyChange dt m tag, 5), (Instr.selftest dt m tag, 6)] ∧ s.dev.flag DEV_MBX_STAT_BUSY = false) ∧
    (∃ (s : State) (dt m tag : Nat) (badA badB : List Nat) (c : Instr) (svc : Nat), m < 8 ∧ tag < 256 ∧ s.dev.Grants
      m rDEV_MBX_CMD ∧ (c, svc) ∈ [(Instr.info dt m tag, 0), (Instr.align dt m tag, 1), (Instr.learn dt m tag, 2),
      (Instr.dump dt m tag, 3), (Instr.imgCommit dt m { tag := tag, badA := badA, badB := badB }, 4),
      (Instr.keyChange dt m tag, 5), (Instr.selftest dt m tag, 6)] ∧ s.dev.flag DEV_MBX_STAT_BUSY = false) ∧
    (∃ (s : State) (dt m tag : Nat) (badA badB : List Nat) (c : Instr) (svc : Nat), m < 8 ∧ tag < 256 ∧ s.dev.Grants
      m rDEV_MBX_CMD ∧ (c, svc) ∈ [(Instr.info dt m tag, 0), (Instr.align dt m tag, 1), (Instr.learn dt m tag, 2),
      (Instr.dump dt m tag, 3), (Instr.imgCommit dt m { tag := tag, badA := badA, badB := badB }, 4),
      (Instr.keyChange dt m tag, 5), (Instr.selftest dt m tag, 6)] ∧ s.dev.flag DEV_MBX_STAT_BUSY = false) ∧
    (∃ (s : State) (dt m tag : Nat) (badA badB : List Nat) (c : Instr) (svc : Nat), m < 8 ∧ tag < 256 ∧ s.dev.Grants
      m rDEV_MBX_CMD ∧ (c, svc) ∈ [(Instr.info dt m tag, 0), (Instr.align dt m tag, 1), (Instr.learn dt m tag, 2),
      (Instr.dump dt m tag, 3), (Instr.imgCommit dt m { tag := tag, badA := badA, badB := badB }, 4),
      (Instr.keyChange dt m tag, 5), (Instr.selftest dt m tag, 6)] ∧ s.dev.flag DEV_MBX_STAT_BUSY = false) ∧
    (∃ (s : State) (dt m tag : Nat) (badA badB : List Nat) (c : Instr) (svc : Nat), m < 8 ∧ tag < 256 ∧ s.dev.Grants
      m rDEV_MBX_CMD ∧ (c, svc) ∈ [(Instr.info dt m tag, 0), (Instr.align dt m tag, 1), (Instr.learn dt m tag, 2),
      (Instr.dump dt m tag, 3), (Instr.imgCommit dt m { tag := tag, badA := badA, badB := badB }, 4),
      (Instr.keyChange dt m tag, 5), (Instr.selftest dt m tag, 6)] ∧ s.dev.flag DEV_MBX_STAT_BUSY = true) ∧
    (∃ (s : State) (m tag svc : Nat), m < 8 ∧ tag < 256 ∧ s.dev.Grants m rDEV_MBX_CMD ∧ 6 < svc ∧ svc < 256 ∧
      s.dev.flag DEV_MBX_STAT_BUSY = false) ∧
    (∃ (s : State) (m tag svc : Nat), m < 8 ∧ tag < 256 ∧ s.dev.Grants m rDEV_MBX_CMD ∧ 6 < svc ∧ svc < 256 ∧
      s.dev.flag DEV_MBX_STAT_BUSY = true) ∧
    (∃ (s : State) (m tag : Nat), m < 8 ∧ tag < 256 ∧ s.dev.Grants m rDEV_MBX_CMD ∧ s.dev.flag DEV_MBX_STAT_BUSY =
      false ∧ s.dev.mode ≠ Mode.service) ∧
    (∃ (s : State) (m tag region kind : Nat), m < 8 ∧ tag < 256 ∧ s.dev.Grants m rDEV_MBX_CMD ∧ region ≤ 5 ∧ kind ≤ 1
      ∧ s.dev.flag DEV_MBX_STAT_BUSY = false ∧ s.dev.mode = Mode.service ∧ s.dev.flag DEV_CROOK_LOCK = false ∧
      s.dev.flag NVM_STAT_LOCKOUT = false ∧ s.dev.rd (DEV_MBX_ARG_ARG 0) = region + 256 * kind ∧ s.dev.rd
      (DEV_MBX_ARG_ARG 5) = 0 ∧ mkGroup (s.dev.rd (DEV_MBX_ARG_ARG 1)) (s.dev.rd (DEV_MBX_ARG_ARG 2)) = s.dev.keyOf
      region kind) :=
  ⟨⟨wRun, 1600, 0, 255, [], [], .info 1600 0 255, 0, by decide +kernel, by decide +kernel, ⟨by decide +kernel,
      by decide +kernel⟩, by decide +kernel⟩,
   ⟨wRun, 1600, 0, 255, [], [], .align 1600 0 255, 1, by decide +kernel, by decide +kernel, ⟨by decide +kernel,
     by decide +kernel⟩, by decide +kernel⟩,
   ⟨wRun, 1600, 0, 255, [], [], .learn 1600 0 255, 2, by decide +kernel, by decide +kernel, ⟨by decide +kernel,
     by decide +kernel⟩, by decide +kernel⟩,
   ⟨wRun, 1600, 0, 255, [], [], .dump 1600 0 255, 3, by decide +kernel, by decide +kernel, ⟨by decide +kernel,
     by decide +kernel⟩, by decide +kernel⟩,
   ⟨wRun, 1600, 0, 255, [], [], .imgCommit 1600 0 ⟨255, [], []⟩, 4, by decide +kernel, by decide +kernel,
     ⟨by decide +kernel, by decide +kernel⟩, by decide +kernel⟩,
   ⟨wRun, 1600, 0, 255, [], [], .keyChange 1600 0 255, 5, by decide +kernel, by decide +kernel, ⟨by decide +kernel,
     by decide +kernel⟩, by decide +kernel⟩,
   ⟨wRun, 1600, 0, 255, [], [], .selftest 1600 0 255, 6, by decide +kernel, by decide +kernel, ⟨by decide +kernel,
     by decide +kernel⟩, by decide +kernel⟩,
   ⟨wBusy .run 1, 1600, 0, 255, [], [], .selftest 1600 0 255, 6, by decide +kernel, by decide +kernel,
     ⟨by decide +kernel, by decide +kernel⟩, by decide +kernel⟩,
   ⟨wRun, 0, 255, 7, by decide +kernel, by decide +kernel, ⟨by decide +kernel, by decide +kernel⟩, by decide +kernel⟩,
   ⟨wBusy .run 1, 0, 255, 255, by decide +kernel, by decide +kernel, ⟨by decide +kernel, by decide +kernel⟩,
     by decide +kernel⟩,
   ⟨wRun, 0, 255, by decide +kernel, by decide +kernel, ⟨by decide +kernel, by decide +kernel⟩, by decide +kernel⟩,
   ⟨wKey, 0, 255, 0, 0, by decide +kernel, by decide +kernel, ⟨by decide +kernel, by decide +kernel⟩,
     by decide +kernel⟩⟩

/-- States and operands that meet the hypotheses of each clause of MailboxEnds. -/
theorem wit_MailboxEnds :
    (∃ (s : State) (m : Nat), s.dev.Grants m rDEV_MBX_CMD ∧ s.dev.flag DEV_MBX_STAT_BUSY = true ∧ s.dev.rd
      DEV_MBX_STAT_SERVICE ∈ [1, 3, 6]) ∧
    (∃ (s : State) (m : Nat), s.dev.Grants m rDEV_MBX_CMD ∧ (s.dev.flag DEV_MBX_STAT_BUSY = false ∨ ¬s.dev.rd
      DEV_MBX_STAT_SERVICE ∈ [1, 3, 6])) ∧
    (∃ (s : State) (m : Nat), s.dev.Grants m rDEV_MBX_CMD ∧ (s.dev.flag DEV_MBX_STAT_BUSY = false ∨ ¬s.dev.rd
      DEV_MBX_STAT_SERVICE ∈ [1, 3, 6])) ∧
    (∃ (s : State) (o : MbxOut), s.dev.flag DEV_MBX_STAT_BUSY = true ∧ s.dev.mbx.out = some o ∧ o.code < 256 ∧ o.code
      ≠ 13) ∧
    (∃ (s : State), s.dev.flag DEV_MBX_STAT_BUSY = true ∧ s.dev.mbx.out = none ∧ s.dev.rd DEV_MBX_STAT_SERVICE = 0) ∧
    (∃ (s : State), s.dev.flag DEV_MBX_STAT_BUSY = true ∧ s.dev.mbx.out = none ∧ s.dev.rd DEV_MBX_STAT_SERVICE = 2) ∧
    (∃ (s : State) (found : MbxData), s.dev.flag DEV_MBX_STAT_BUSY = true ∧ s.dev.mbx.out = none ∧ s.dev.rd
      DEV_MBX_STAT_SERVICE = 6 ∧ found.failed &&& s.dev.mbxArg 0 = 0) ∧
    (∃ (s : State) (found : MbxData), s.dev.flag DEV_MBX_STAT_BUSY = true ∧ s.dev.mbx.out = none ∧ s.dev.rd
      DEV_MBX_STAT_SERVICE = 6 ∧ found.failed &&& s.dev.mbxArg 0 ≠ 0) ∧
    (∃ (s : State), s.dev.flag DEV_MBX_STAT_BUSY = true) :=
  ⟨⟨wBusy .run 6, 0, ⟨by decide +kernel, by decide +kernel⟩, by decide +kernel⟩,
   ⟨wRun, 0, ⟨by decide +kernel, by decide +kernel⟩, by decide +kernel⟩,
   ⟨wBusy .run 0, 0, ⟨by decide +kernel, by decide +kernel⟩, by decide +kernel⟩,
   ⟨wMbxOut, ⟨255, [1, 2, 3, 4]⟩, by decide +kernel⟩,
   ⟨wBusy .run 0, by decide +kernel⟩,
   ⟨wBusy .run 2, by decide +kernel⟩,
   ⟨wBusy .run 6, ⟨0, [], [], []⟩, by decide +kernel⟩,
   ⟨wMbxArg, ⟨3, [], [], []⟩, by decide +kernel⟩,
   ⟨wBusy .run 6, by decide +kernel⟩⟩

/-- States and operands that meet the hypotheses of each clause of NvmCommands. -/
theorem wit_NvmCommands :
    (∃ (s : State) (dt m page : Nat) (c : Instr), page < 512 ∧ s.dev.Grants m rNVM_CMD ∧ s.dev.nvmCmdBusy = true ∧ c
      ∈ [Instr.erasePage dt m page, Instr.programPage dt m page, Instr.eraseRegion dt m 1, Instr.nvmCmdBadOp dt m 0 1
      page]) ∧
    (∃ (s : State) (dt m page : Nat) (c : Instr) (k : NvmKind), page < 512 ∧ s.dev.Grants m rNVM_CMD ∧
      s.dev.nvmCmdBusy = false ∧ (c, k) ∈ [(Instr.erasePage dt m page, NvmKind.hostErase page page),
      (Instr.programPage dt m page, NvmKind.hostProgram page)] ∧ (page < 305 ∨ 319 < page)) ∧
    (∃ (s : State) (dt m page : Nat) (c : Instr) (k : NvmKind), page < 512 ∧ s.dev.Grants m rNVM_CMD ∧
      s.dev.nvmCmdBusy = false ∧ (c, k) ∈ [(Instr.erasePage dt m page, NvmKind.hostErase page page),
      (Instr.programPage dt m page, NvmKind.hostProgram page)] ∧ (page < 305 ∨ 319 < page)) ∧
    (∃ (s : State) (dt m page : Nat) (c : Instr) (k : NvmKind), page < 512 ∧ s.dev.Grants m rNVM_CMD ∧
      s.dev.nvmCmdBusy = false ∧ (c, k) ∈ [(Instr.erasePage dt m page, NvmKind.hostErase page page),
      (Instr.programPage dt m page, NvmKind.hostProgram page)] ∧ 305 ≤ page ∧ page ≤ 319 ∧ s.dev.keyPasses m 5 1 =
      false) ∧
    (∃ (s : State) (dt m page : Nat) (c : Instr) (k : NvmKind), page < 512 ∧ s.dev.Grants m rNVM_CMD ∧
      s.dev.nvmCmdBusy = false ∧ (c, k) ∈ [(Instr.erasePage dt m page, NvmKind.hostErase page page),
      (Instr.programPage dt m page, NvmKind.hostProgram page)] ∧ 305 ≤ page ∧ page ≤ 319 ∧ s.dev.keyPasses m 5 1 =
      true) ∧
    (∃ (s : State) (m page region : Nat), page < 512 ∧ s.dev.Grants m rNVM_CMD ∧ s.dev.nvmCmdBusy = false ∧ region <
      16 ∧ eraseRange region = none) ∧
    (∃ (s : State) (m page region a b : Nat), page < 512 ∧ s.dev.Grants m rNVM_CMD ∧ s.dev.nvmCmdBusy = false ∧
      region < 16 ∧ eraseRange region = some (a, b) ∧ s.dev.keyPasses m region 1 = false) ∧
    (∃ (s : State) (m page region a b : Nat), page < 512 ∧ s.dev.Grants m rNVM_CMD ∧ s.dev.nvmCmdBusy = false ∧
      region < 16 ∧ eraseRange region = some (a, b) ∧ s.dev.keyPasses m region 1 = true) ∧
    (∃ (s : State) (m page op : Nat), page < 512 ∧ s.dev.Grants m rNVM_CMD ∧ s.dev.nvmCmdBusy = false ∧ op < 8 ∧ (op
      = 0 ∨ 3 < op)) ∧
    (∃ (s : State) (m page op : Nat), page < 512 ∧ s.dev.Grants m rNVM_CMD ∧ s.dev.nvmCmdBusy = false ∧ op < 8 ∧ (op
      = 0 ∨ 3 < op)) ∧
    (∃ (s : State) (m page op : Nat), page < 512 ∧ s.dev.Grants m rNVM_CMD ∧ s.dev.nvmCmdBusy = false ∧ op < 8 ∧ (op
      = 0 ∨ 3 < op)) :=
  ⟨⟨wNvmBusy, 1600, 0, 511, .erasePage 1600 0 511, by decide +kernel, ⟨by decide +kernel, by decide +kernel⟩,
      by decide +kernel⟩,
   ⟨wRun, 1600, 0, 304, .erasePage 1600 0 304, .hostErase 304 304, by decide +kernel, ⟨by decide +kernel,
     by decide +kernel⟩, by decide +kernel⟩,
   ⟨wRun, 1600, 0, 320, .programPage 1600 0 320, .hostProgram 320, by decide +kernel, ⟨by decide +kernel,
     by decide +kernel⟩, by decide +kernel⟩,
   ⟨wRun, 1600, 0, 305, .erasePage 1600 0 305, .hostErase 305 305, by decide +kernel, ⟨by decide +kernel,
     by decide +kernel⟩, by decide +kernel⟩,
   ⟨wOpen, 1600, 0, 319, .erasePage 1600 0 319, .hostErase 319 319, by decide +kernel, ⟨by decide +kernel,
     by decide +kernel⟩, by decide +kernel⟩,
   ⟨wRun, 0, 319, 15, by decide +kernel, ⟨by decide +kernel, by decide +kernel⟩, by decide +kernel⟩,
   ⟨wRun, 0, 0, 1, 192, 239, by decide +kernel, ⟨by decide +kernel, by decide +kernel⟩, by decide +kernel⟩,
   ⟨wOpen, 0, 0, 1, 192, 239, by decide +kernel, ⟨by decide +kernel, by decide +kernel⟩, by decide +kernel⟩,
   ⟨wRun, 0, 511, 7, by decide +kernel, ⟨by decide +kernel, by decide +kernel⟩, by decide +kernel⟩,
   ⟨wRun, 0, 511, 0, by decide +kernel, ⟨by decide +kernel, by decide +kernel⟩, by decide +kernel⟩,
   ⟨wRun, 0, 511, 4, by decide +kernel, ⟨by decide +kernel, by decide +kernel⟩, by decide +kernel⟩⟩

/-- States and operands that meet the hypotheses of each clause of NvmController. -/
theorem wit_NvmController :
    (∃ (s : State) (dt : Nat) (inRange : Bool) (p q : Nat), s.dev.mode ≠ Mode.reset ∧ p ≤ q ∧ q < 320 ∧ s.dev.flag
      NVM_STAT_BUSY = false ∧ s.dev.flag NVM_STAT_WAIT_POWER = false ∧ s.dev.nvmc.due = [] ∧ s.dev.nvmc.queue =
      [NvmWork.new (NvmKind.hostErase p q)] ∧ (Dev.advance dt s.dev).supplyOk inRange = true) ∧
    (∃ (s : State) (dt : Nat) (inRange : Bool) (p q : Nat), s.dev.mode ≠ Mode.reset ∧ p ≤ q ∧ q < 320 ∧ s.dev.flag
      NVM_STAT_BUSY = false ∧ s.dev.flag NVM_STAT_WAIT_POWER = false ∧ s.dev.nvmc.due = [] ∧ s.dev.nvmc.queue =
      [NvmWork.new (NvmKind.hostErase p q)] ∧ (Dev.advance dt s.dev).supplyOk inRange = false) ∧
    (∃ (s : State) (p : Nat), s.dev.mode ≠ Mode.reset ∧ 305 ≤ p ∧ p ≤ 319 ∧ s.dev.MemOk ∧ s.dev.nvmDark = false ∧
      s.dev.flag NVM_STAT_BUSY = false ∧ s.dev.flag NVM_STAT_WAIT_POWER = false ∧ s.dev.nvmc.due = [] ∧
      s.dev.nvmc.queue = [NvmWork.new (NvmKind.hostProgram p)] ∧ (∃ g, g < 64 ∧ s.dev.bufOnes g = false ∧
      s.dev.erased (pageAddr p + 8 * g) = false)) ∧
    (∃ (s : State) (dt : Nat) (inRange : Bool) (p : Nat), s.dev.mode ≠ Mode.reset ∧ 305 ≤ p ∧ p ≤ 319 ∧ s.dev.MemOk ∧
      s.dev.nvmDark = false ∧ s.dev.flag NVM_STAT_BUSY = false ∧ s.dev.flag NVM_STAT_WAIT_POWER = false ∧
      s.dev.nvmc.due = [] ∧ s.dev.nvmc.queue = [NvmWork.new (NvmKind.hostProgram p)] ∧ (∀ (g : Nat), g < 64 →
      s.dev.bufOnes g = false → s.dev.erased (pageAddr p + 8 * g) = true) ∧ (Dev.advance dt s.dev).supplyOk inRange =
      true) ∧
    (∃ (s : State) (dt : Nat) (op : AtomOp) (inRange : Bool) (a b step v : Nat) (c : Bool), s.dev.nvmc.op = some op ∧
      s.dev.flag NVM_STAT_WAIT_POWER = true ∧ s.dev.nvmc.cur = some
      { kind := NvmKind.hostErase a b, step := step, groups := [], recVal := v, recCopy := c } ∧ a + step ≤ b ∧ b <
      320 ∧ (Dev.advance dt s.dev).supplyOk inRange = true) ∧
    (∃ (s : State) (dt : Nat) (op : AtomOp) (inRange : Bool), s.dev.nvmc.op = some op ∧ s.dev.flag
      NVM_STAT_WAIT_POWER = true ∧ (Dev.advance dt s.dev).supplyOk inRange = false) ∧
    (∃ (s : State) (op : AtomOp) (a b step : Nat) (rest : List (Nat × Nat)) (v : Nat) (c : Bool), s.dev.nvmc.op =
      some op ∧ s.dev.flag NVM_STAT_WAIT_POWER = true ∧ s.dev.nvmc.cur = some
      { kind := NvmKind.hostErase a b, step := step, groups := rest, recVal := v, recCopy := c }) ∧
    (∃ (s : State) (op : AtomOp) (p step v : Nat) (c : Bool), s.dev.nvmc.op = some op ∧ s.dev.flag NVM_STAT_BUSY =
      true ∧ s.dev.nvmc.rstDue = none ∧ s.dev.nvmc.cur = some
      { kind := NvmKind.hostProgram p, step := step, groups := [], recVal := v, recCopy := c } ∧ 0 < step) ∧
    (∃ (s : State) (op : AtomOp) (a b step v : Nat) (c : Bool), s.dev.nvmc.op = some op ∧ s.dev.flag NVM_STAT_BUSY =
      true ∧ s.dev.nvmc.rstDue = none ∧ s.dev.nvmc.cur = some
      { kind := NvmKind.hostErase a b, step := step, groups := [], recVal := v, recCopy := c } ∧ b < a + step) ∧
    (∃ (s : State) (op : AtomOp) (a b step v : Nat) (c : Bool), s.dev.nvmc.op = some op ∧ s.dev.flag NVM_STAT_BUSY =
      true ∧ s.dev.nvmc.rstDue = none ∧ s.dev.nvmc.cur = some
      { kind := NvmKind.hostErase a b, step := step, groups := [], recVal := v, recCopy := c } ∧ a + step ≤ b) ∧
    (∃ (s : State) (op : AtomOp) (a b step v : Nat) (c : Bool), s.dev.nvmc.op = some op ∧ s.dev.flag NVM_STAT_BUSY =
      true ∧ s.dev.nvmc.rstDue = none ∧ s.dev.nvmc.cur = some
      { kind := NvmKind.hostErase a b, step := step, groups := [], recVal := v, recCopy := c }) :=
  ⟨⟨wNvmQ, 1600, true, 318, 319, by decide +kernel⟩,
   ⟨wNvmQ, 1600, false, 318, 319, by decide +kernel⟩,
   ⟨wProg 7, 319, by decide +kernel, by decide +kernel, by decide +kernel,
     mem_ok (by decide +kernel) (by decide +kernel) (by decide +kernel), by decide +kernel, by decide +kernel,
     by decide +kernel, by decide +kernel, by decide +kernel, ⟨63, by decide +kernel⟩⟩,
   ⟨wProgOne 62, 1600, true, 319, by decide +kernel, by decide +kernel, by decide +kernel,
     mem_ok (by decide +kernel) (by decide +kernel) (by decide +kernel), by decide +kernel⟩,
   ⟨wNvmWait 1, 1600, ⟨318, true, []⟩, true, 318, 319, 1, 0, false, by decide +kernel⟩,
   ⟨wNvmWait 0, 1600, ⟨318, true, []⟩, false, by decide +kernel⟩,
   ⟨wNvmWait 1, ⟨318, true, []⟩, 318, 319, 1, [], 0, false, by decide +kernel⟩,
   ⟨wProgOp, ⟨319, false, [(0, 7)]⟩, 319, 1, 0, false, by decide +kernel⟩,
   ⟨wNvmOp 2, ⟨318, true, []⟩, 318, 319, 2, 0, false, by decide +kernel⟩,
   ⟨wNvmOp 1, ⟨318, true, []⟩, 318, 319, 1, 0, false, by decide +kernel⟩,
   ⟨wNvmOp 2, ⟨318, true, []⟩, 318, 319, 2, 0, false, by decide +kernel⟩⟩

/-- States and operands that meet the hypotheses of each clause of NvmReadsAndPatrol. -/
theorem wit_NvmReadsAndPatrol :
    (∃ (s : State), s.dev.nvmDark = false) ∧
    (∃ (s : State), s.dev.flag NVM_CTL_PATROL_EN = true) ∧
    (∃ (s : State), s.dev.flag NVM_CTL_PATROL_EN = false) ∧
    (∃ (s : State) (op : AtomOp) (p n v : Nat) (c : Bool), s.dev.nvmc.op = some op ∧ s.dev.flag NVM_STAT_BUSY = true
      ∧ s.dev.nvmc.rstDue = none ∧ s.dev.nvmc.cur = some
      { kind := NvmKind.refresh p n, step := 1, groups := [], recVal := v, recCopy := c }) ∧
    (∃ (s : State) (pre : List NvmDue) (t : Nat) (post : List NvmDue), (∀ (u : NvmDue), u ∈ pre → u.late = true) ∧
      s.dev.nvmc.due = pre ++ { at_ := t, late := false } :: post) ∧
    (∃ (s : State) (u : NvmDue) (rest : List NvmDue), s.dev.flag NVM_STAT_BUSY = false ∧ s.dev.flag
      NVM_STAT_WAIT_POWER = false ∧ s.dev.nvmc.queue = [] ∧ s.dev.nvmc.due = u :: rest ∧ s.dev.mode ≠ Mode.sleep ∧
      s.dev.mode ≠ Mode.reset ∧ s.dev.flag NVM_CNT_STAT_READY = true) ∧
    (∃ (s : State) (u : NvmDue) (rest : List NvmDue), s.dev.flag NVM_STAT_BUSY = false ∧ s.dev.flag
      NVM_STAT_WAIT_POWER = false ∧ s.dev.nvmc.queue = [] ∧ s.dev.nvmc.due = u :: rest ∧ s.dev.mode ≠ Mode.sleep ∧
      s.dev.mode ≠ Mode.reset ∧ s.dev.flag NVM_CNT_STAT_READY = true ∧ s.dev.nvmDark = false) ∧
    (∃ (s : State) (dt : Nat) (inRange : Bool) (u : NvmDue) (rest : List NvmDue) (weak : Nat), s.dev.flag
      NVM_STAT_BUSY = false ∧ s.dev.flag NVM_STAT_WAIT_POWER = false ∧ s.dev.nvmc.queue = [] ∧ s.dev.nvmc.due = u ::
      rest ∧ s.dev.mode ≠ Mode.sleep ∧ s.dev.mode ≠ Mode.reset ∧ s.dev.flag NVM_CNT_STAT_READY = true ∧ 0 < weak ∧
      s.dev.MemOk ∧ (Dev.advance dt s.dev).supplyOk inRange = true) :=
  ⟨⟨wRun, by decide +kernel⟩,
   ⟨wPatrol, by decide +kernel⟩,
   ⟨wPatrol0, by decide +kernel⟩,
   ⟨wRefreshOp, ⟨319, true, [(0, 7)]⟩, 319, 2, 0, false, by decide +kernel⟩,
   ⟨wDue, [⟨0, true⟩], 5, [⟨9, false⟩], by decide +kernel⟩,
   ⟨wDue, ⟨0, true⟩, [⟨5, false⟩, ⟨9, false⟩], by decide +kernel⟩,
   ⟨wDue, ⟨0, true⟩, [⟨5, false⟩, ⟨9, false⟩], by decide +kernel⟩,
   ⟨wWeak, 1600, true, ⟨0, false⟩, [], 2, by decide +kernel, by decide +kernel, by decide +kernel, by decide +kernel,
     by decide +kernel, by decide +kernel, by decide +kernel, by decide +kernel,
     mem_ok (by decide +kernel) (by decide +kernel) (by decide +kernel), by decide +kernel⟩⟩

/-- States and operands that meet the hypotheses of each clause of CounterCommands. -/
theorem wit_CounterCommands :
    (∃ (s : State) (dt m id : Nat) (c : Instr), id < 32 ∧ s.dev.Grants m rNVM_CNT_ARG_LO ∧ s.dev.Grants m
      rNVM_CNT_ARG_HI ∧ s.dev.Grants m rNVM_CNT_CMD ∧ (s.dev.flag NVM_CNT_STAT_READY = false ∨ s.dev.flag
      NVM_CNT_STAT_BUSY = true) ∧ ((∃ v, c = Instr.inc dt m id v ∨ c = Instr.set dt m id v) ∨ c = Instr.nvmCntBadOp
      dt m 0 id ∨ c = Instr.nvmCntBadOp dt m 3 id)) ∧
    (∃ (s : State) (dt m id : Nat) (c : Instr), id < 32 ∧ s.dev.Grants m rNVM_CNT_ARG_LO ∧ s.dev.Grants m
      rNVM_CNT_ARG_HI ∧ s.dev.Grants m rNVM_CNT_CMD ∧ (s.dev.flag NVM_CNT_STAT_READY = false ∨ s.dev.flag
      NVM_CNT_STAT_BUSY = true) ∧ ((∃ v, c = Instr.inc dt m id v ∨ c = Instr.set dt m id v) ∨ c = Instr.nvmCntBadOp
      dt m 0 id ∨ c = Instr.nvmCntBadOp dt m 3 id)) ∧
    (∃ (s : State) (dt m id : Nat) (c : Instr), id < 32 ∧ s.dev.Grants m rNVM_CNT_ARG_LO ∧ s.dev.Grants m
      rNVM_CNT_ARG_HI ∧ s.dev.Grants m rNVM_CNT_CMD ∧ s.dev.flag NVM_CNT_STAT_READY = true ∧ s.dev.flag
      NVM_CNT_STAT_BUSY = false ∧ ((∃ v, c = Instr.inc dt m id v ∨ c = Instr.set dt m id v) ∨ c = Instr.nvmCntBadOp
      dt m 0 id ∨ c = Instr.nvmCntBadOp dt m 3 id) ∧ s.dev.keyPasses m 2 1 = false) ∧
    (∃ (s : State) (dt m id : Nat) (c : Instr), id < 32 ∧ s.dev.Grants m rNVM_CNT_ARG_LO ∧ s.dev.Grants m
      rNVM_CNT_ARG_HI ∧ s.dev.Grants m rNVM_CNT_CMD ∧ s.dev.flag NVM_CNT_STAT_READY = true ∧ s.dev.flag
      NVM_CNT_STAT_BUSY = false ∧ ((∃ v, c = Instr.inc dt m id v ∨ c = Instr.set dt m id v) ∨ c = Instr.nvmCntBadOp
      dt m 0 id ∨ c = Instr.nvmCntBadOp dt m 3 id) ∧ s.dev.keyPasses m 2 1 = true ∧ id < 8) ∧
    (∃ (s : State) (m id v : Nat), id < 32 ∧ s.dev.Grants m rNVM_CNT_ARG_LO ∧ s.dev.Grants m rNVM_CNT_ARG_HI ∧
      s.dev.Grants m rNVM_CNT_CMD ∧ s.dev.flag NVM_CNT_STAT_READY = true ∧ s.dev.flag NVM_CNT_STAT_BUSY = false ∧
      s.dev.keyPasses m 2 1 = true ∧ 8 ≤ id ∧ 1 ≤ v ∧ v < 2 ^ 32) ∧
    (∃ (s : State) (m id v : Nat), id < 32 ∧ s.dev.Grants m rNVM_CNT_ARG_LO ∧ s.dev.Grants m rNVM_CNT_ARG_HI ∧
      s.dev.Grants m rNVM_CNT_CMD ∧ s.dev.flag NVM_CNT_STAT_READY = true ∧ s.dev.flag NVM_CNT_STAT_BUSY = false ∧
      s.dev.keyPasses m 2 1 = true ∧ 8 ≤ id ∧ 1 ≤ v ∧ v < 2 ^ 32) ∧
    (∃ (s : State) (m id v : Nat), id < 32 ∧ s.dev.Grants m rNVM_CNT_ARG_LO ∧ s.dev.Grants m rNVM_CNT_ARG_HI ∧
      s.dev.Grants m rNVM_CNT_CMD ∧ s.dev.flag NVM_CNT_STAT_READY = true ∧ s.dev.flag NVM_CNT_STAT_BUSY = false ∧
      s.dev.keyPasses m 2 1 = true ∧ 8 ≤ id ∧ (v = 0 ∨ 2 ^ 32 ≤ v ∧ v < 2 ^ 64)) ∧
    (∃ (s : State) (m id v : Nat), id < 32 ∧ s.dev.Grants m rNVM_CNT_ARG_LO ∧ s.dev.Grants m rNVM_CNT_ARG_HI ∧
      s.dev.Grants m rNVM_CNT_CMD ∧ s.dev.flag NVM_CNT_STAT_READY = true ∧ s.dev.flag NVM_CNT_STAT_BUSY = false ∧
      s.dev.keyPasses m 2 1 = true ∧ 8 ≤ id ∧ (v = 0 ∨ 2 ^ 32 ≤ v ∧ v < 2 ^ 64)) ∧
    (∃ (s : State) (m id v : Nat), id < 32 ∧ s.dev.Grants m rNVM_CNT_ARG_LO ∧ s.dev.Grants m rNVM_CNT_ARG_HI ∧
      s.dev.Grants m rNVM_CNT_CMD ∧ s.dev.flag NVM_CNT_STAT_READY = true ∧ s.dev.flag NVM_CNT_STAT_BUSY = false ∧
      s.dev.keyPasses m 2 1 = true ∧ 8 ≤ id ∧ v < 2 ^ 64) ∧
    (∃ (s : State) (m id op : Nat), id < 32 ∧ s.dev.Grants m rNVM_CNT_ARG_LO ∧ s.dev.Grants m rNVM_CNT_ARG_HI ∧
      s.dev.Grants m rNVM_CNT_CMD ∧ s.dev.flag NVM_CNT_STAT_READY = true ∧ s.dev.flag NVM_CNT_STAT_BUSY = false ∧
      s.dev.keyPasses m 2 1 = true ∧ 8 ≤ id ∧ (op = 0 ∨ op = 3)) ∧
    (∃ (s : State) (corr bad : List Nat) (d : Dev), s.dev.flag NVM_CNT_STAT_READY = false ∧ s.dev.nvmc.scan = none ∧
      s.dev.nvmDark = false ∧ d = Dev.learnErrs bad s.dev ∧ (∀ (id : Nat), id < 32 → (d.scanCounter corr id).recover
      = none) ∧ (∀ (o q : Nat), d.openPage = some (o, q) → d.pageErased (nextCounterPage o) = true) ∧ (∀ (w :
      NvmWork), w ∈ s.dev.nvmc.cur.toList ++ s.dev.nvmc.queue → w.kind.ofScan = false)) ∧
    (∃ (s : State) (corr bad : List Nat) (d : Dev) (id q v : Nat), s.dev.flag NVM_CNT_STAT_READY = false ∧
      s.dev.nvmc.scan = none ∧ s.dev.nvmDark = false ∧ d = Dev.learnErrs bad s.dev ∧ id < 32 ∧ (d.scanCounter corr
      id).recover = some (q, v)) ∧
    (∃ (s : State) (bad : List Nat) (d : Dev) (o q : Nat), s.dev.flag NVM_CNT_STAT_READY = false ∧ s.dev.nvmc.scan =
      none ∧ s.dev.nvmDark = false ∧ d = Dev.learnErrs bad s.dev ∧ d.openPage = some (o, q) ∧ d.pageErased
      (nextCounterPage o) = false) ∧
    (∃ (s : State) (vs : List Nat) (op : AtomOp) (w : NvmWork), s.dev.nvmc.scan = some vs ∧ s.dev.nvmc.op = some op ∧
      s.dev.flag NVM_STAT_BUSY = true ∧ s.dev.nvmc.cur = some w ∧ s.dev.nvmc.rstDue = none ∧ w.kind.ofScan = true ∧
      (s.dev.lit.nvmNext w).isNone = true ∧ (∀ (w' : NvmWork), w' ∈ s.dev.nvmc.queue → w'.kind.ofScan = false)) ∧
    (∃ (s : State), s.dev.mode ≠ Mode.reset) :=
  ⟨⟨wRun, 1600, 6, 31, .inc 1600 6 31 0, by decide +kernel, ⟨by decide +kernel, by decide +kernel⟩,
      ⟨by decide +kernel, by decide +kernel⟩, ⟨by decide +kernel, by decide +kernel⟩, by decide +kernel,
      by exact Or.inl ⟨_, Or.inl rfl⟩⟩,
   ⟨wCntBusy, 1600, 6, 31, .nvmCntBadOp 1600 6 3 31, by decide +kernel, ⟨by decide +kernel, by decide +kernel⟩,
     ⟨by decide +kernel, by decide +kernel⟩, ⟨by decide +kernel, by decide +kernel⟩, by decide +kernel,
     by exact Or.inr (Or.inr rfl)⟩,
   ⟨wReadyShut, 1600, 6, 31, .set 1600 6 31 (2^64), by decide +kernel, ⟨by decide +kernel, by decide +kernel⟩,
     ⟨by decide +kernel, by decide +kernel⟩, ⟨by decide +kernel, by decide +kernel⟩, by decide +kernel,
     by decide +kernel,
     by exact Or.inl ⟨_, Or.inr rfl⟩,
     by decide +kernel⟩,
   ⟨wReady, 1600, 6, 7, .set 1600 6 7 0, by decide +kernel, ⟨by decide +kernel, by decide +kernel⟩,
     ⟨by decide +kernel, by decide +kernel⟩, ⟨by decide +kernel, by decide +kernel⟩, by decide +kernel,
     by decide +kernel,
     by exact Or.inl ⟨_, Or.inr rfl⟩,
     by decide +kernel⟩,
   ⟨wReady, 6, 31, 2^32 - 1, by decide +kernel, ⟨by decide +kernel, by decide +kernel⟩, ⟨by decide +kernel,
     by decide +kernel⟩, ⟨by decide +kernel, by decide +kernel⟩, by decide +kernel⟩,
   ⟨wReady, 6, 8, 1, by decide +kernel, ⟨by decide +kernel, by decide +kernel⟩, ⟨by decide +kernel,
     by decide +kernel⟩, ⟨by decide +kernel, by decide +kernel⟩, by decide +kernel⟩,
   ⟨wReady, 6, 31, 2^32, by decide +kernel, ⟨by decide +kernel, by decide +kernel⟩, ⟨by decide +kernel,
     by decide +kernel⟩, ⟨by decide +kernel, by decide +kernel⟩, by decide +kernel⟩,
   ⟨wReady, 6, 31, 0, by decide +kernel, ⟨by decide +kernel, by decide +kernel⟩, ⟨by decide +kernel,
     by decide +kernel⟩, ⟨by decide +kernel, by decide +kernel⟩, by decide +kernel⟩,
   ⟨wReady, 6, 31, 2^64 - 1, by decide +kernel, ⟨by decide +kernel, by decide +kernel⟩, ⟨by decide +kernel,
     by decide +kernel⟩, ⟨by decide +kernel, by decide +kernel⟩, by decide +kernel⟩,
   ⟨wReady, 6, 31, 3, by decide +kernel, ⟨by decide +kernel, by decide +kernel⟩, ⟨by decide +kernel,
     by decide +kernel⟩, ⟨by decide +kernel, by decide +kernel⟩, by decide +kernel⟩,
   ⟨wRun, [31], [0x21E000], _, by decide +kernel, by decide +kernel, by decide +kernel, rfl, by decide +kernel,
     no_open (by decide +kernel), by decide +kernel⟩,
   ⟨wRec, [], [], _, 31, 6, 7, by decide +kernel, by decide +kernel, by decide +kernel, rfl, by decide +kernel⟩,
   ⟨wCompact, [], _, 240, 1, by decide +kernel, by decide +kernel, by decide +kernel, rfl, by decide +kernel⟩,
   ⟨wScan, [1, 2, 2 ^ 64 - 1], ⟨241, true, []⟩, ⟨.compact, 1, [], 0, false⟩, by decide +kernel⟩,
   ⟨wRun, by decide +kernel⟩⟩

/-- States and operands that meet the hypotheses of each clause of KeyCommands. -/
theorem wit_KeyCommands :
    (∃ (s : State) (dt m region kind : Nat) (c : Instr), region ≤ 5 ∧ kind ≤ 1 ∧ s.dev.Grants m rNVM_UNLOCK_LO ∧
      s.dev.Grants m rNVM_UNLOCK_HI ∧ s.dev.Grants m rNVM_UNLOCK_CMD ∧ s.dev.flag NVM_STAT_LOCKOUT = true ∧ ((∃ key,
      c = Instr.nvmUnlock dt m region kind key) ∨ c = Instr.lockKey dt m region kind)) ∧
    (∃ (s : State) (dt m region kind : Nat) (c : Instr), region ≤ 5 ∧ kind ≤ 1 ∧ s.dev.Grants m rNVM_UNLOCK_LO ∧
      s.dev.Grants m rNVM_UNLOCK_HI ∧ s.dev.Grants m rNVM_UNLOCK_CMD ∧ s.dev.flag NVM_STAT_LOCKOUT = true ∧ ((∃ key,
      c = Instr.nvmUnlock dt m region kind key) ∨ c = Instr.lockKey dt m region kind)) ∧
    (∃ (s : State) (m region kind : Nat), region ≤ 5 ∧ kind ≤ 1 ∧ s.dev.Grants m rNVM_UNLOCK_LO ∧ s.dev.Grants m
      rNVM_UNLOCK_HI ∧ s.dev.Grants m rNVM_UNLOCK_CMD ∧ s.dev.flag NVM_STAT_LOCKOUT = false ∧ s.dev.flag (keySetFld
      region kind) = true) ∧
    (∃ (s : State) (m region kind : Nat), region ≤ 5 ∧ kind ≤ 1 ∧ s.dev.Grants m rNVM_UNLOCK_LO ∧ s.dev.Grants m
      rNVM_UNLOCK_HI ∧ s.dev.Grants m rNVM_UNLOCK_CMD ∧ s.dev.flag NVM_STAT_LOCKOUT = false ∧ s.dev.flag (keySetFld
      region kind) = false) ∧
    (∃ (s : State) (m region kind key : Nat), region ≤ 5 ∧ kind ≤ 1 ∧ s.dev.Grants m rNVM_UNLOCK_LO ∧ s.dev.Grants m
      rNVM_UNLOCK_HI ∧ s.dev.Grants m rNVM_UNLOCK_CMD ∧ s.dev.flag NVM_STAT_LOCKOUT = false ∧ key < 2 ^ 64 ∧
      (s.dev.flag (keySetFld region kind) = false ∨ key = s.dev.keyOf region kind)) ∧
    (∃ (s : State) (m region kind key : Nat), region ≤ 5 ∧ kind ≤ 1 ∧ s.dev.Grants m rNVM_UNLOCK_LO ∧ s.dev.Grants m
      rNVM_UNLOCK_HI ∧ s.dev.Grants m rNVM_UNLOCK_CMD ∧ s.dev.flag NVM_STAT_LOCKOUT = false ∧ key < 2 ^ 64 ∧
      (s.dev.flag (keySetFld region kind) = false ∨ key = s.dev.keyOf region kind)) ∧
    (∃ (s : State) (m region kind key : Nat), region ≤ 5 ∧ kind ≤ 1 ∧ s.dev.Grants m rNVM_UNLOCK_LO ∧ s.dev.Grants m
      rNVM_UNLOCK_HI ∧ s.dev.Grants m rNVM_UNLOCK_CMD ∧ s.dev.flag NVM_STAT_LOCKOUT = false ∧ key < 2 ^ 64 ∧
      s.dev.flag (keySetFld region kind) = true ∧ key ≠ s.dev.keyOf region kind ∧ s.dev.rd NVM_STAT_FAILS < 7) ∧
    (∃ (s : State) (m region kind key : Nat), region ≤ 5 ∧ kind ≤ 1 ∧ s.dev.Grants m rNVM_UNLOCK_LO ∧ s.dev.Grants m
      rNVM_UNLOCK_HI ∧ s.dev.Grants m rNVM_UNLOCK_CMD ∧ s.dev.flag NVM_STAT_LOCKOUT = false ∧ key < 2 ^ 64 ∧
      s.dev.flag (keySetFld region kind) = true ∧ key ≠ s.dev.keyOf region kind ∧ s.dev.rd NVM_STAT_FAILS = 7) :=
  ⟨⟨wLockout, 1600, 6, 5, 1, .nvmUnlock 1600 6 5 1 0, by decide +kernel, by decide +kernel, ⟨by decide +kernel,
      by decide +kernel⟩, ⟨by decide +kernel, by decide +kernel⟩, ⟨by decide +kernel, by decide +kernel⟩,
      by decide +kernel,
      by exact Or.inl ⟨_, rfl⟩⟩,
   ⟨wLockout, 1600, 6, 5, 1, .lockKey 1600 6 5 1, by decide +kernel, by decide +kernel, ⟨by decide +kernel,
     by decide +kernel⟩, ⟨by decide +kernel, by decide +kernel⟩, ⟨by decide +kernel, by decide +kernel⟩,
     by decide +kernel,
     by exact Or.inr rfl⟩,
   ⟨wKey51 0, 6, 5, 1, by decide +kernel, by decide +kernel, ⟨by decide +kernel, by decide +kernel⟩,
     ⟨by decide +kernel, by decide +kernel⟩, ⟨by decide +kernel, by decide +kernel⟩, by decide +kernel⟩,
   ⟨wRun, 6, 5, 1, by decide +kernel, by decide +kernel, ⟨by decide +kernel, by decide +kernel⟩, ⟨by decide +kernel,
     by decide +kernel⟩, ⟨by decide +kernel, by decide +kernel⟩, by decide +kernel⟩,
   ⟨wRun, 6, 5, 1, 2^64 - 1, by decide +kernel, by decide +kernel, ⟨by decide +kernel, by decide +kernel⟩,
     ⟨by decide +kernel, by decide +kernel⟩, ⟨by decide +kernel, by decide +kernel⟩, by decide +kernel⟩,
   ⟨wKey51 7, 6, 5, 1, 0, by decide +kernel, by decide +kernel, ⟨by decide +kernel, by decide +kernel⟩,
     ⟨by decide +kernel, by decide +kernel⟩, ⟨by decide +kernel, by decide +kernel⟩, by decide +kernel⟩,
   ⟨wKey51 6, 6, 5, 1, 2^64 - 1, by decide +kernel, by decide +kernel, ⟨by decide +kernel, by decide +kernel⟩,
     ⟨by decide +kernel, by decide +kernel⟩, ⟨by decide +kernel, by decide +kernel⟩, by decide +kernel⟩,
   ⟨wKey51 7, 6, 5, 1, 2^64 - 1, by decide +kernel, by decide +kernel, ⟨by decide +kernel, by decide +kernel⟩,
     ⟨by decide +kernel, by decide +kernel⟩, ⟨by decide +kernel, by decide +kernel⟩, by decide +kernel⟩⟩

/-- States and operands that meet the hypotheses of each clause of CoreSchedules. -/
theorem wit_CoreSchedules :
    (∃ (s : State), ((s.dev.pads.any fun p => p.learn) = true)) ∧
    (∃ (s : State), ((s.dev.pads.any fun p => p.learn) = false)) ∧
    (∃ (s : State) (plan : List ChkPlan), plan = s.dev.chk.plan ++ (List.filterMap s.dev.slotPlan [0, 1] ++
      List.filterMap s.dev.bankPlan [0, 1]) ∧ s.dev.flag (CHK_STAT_BUSY 3) = true) ∧
    (∃ (s : State) (plan : List ChkPlan) (p : ChkPlan) (rest : List ChkPlan), plan = s.dev.chk.plan ++
      (List.filterMap s.dev.slotPlan [0, 1] ++ List.filterMap s.dev.bankPlan [0, 1]) ∧ 3 < s.dev.chk.units.length ∧
      s.dev.flag (CHK_STAT_BUSY 3) = false ∧ plan = p :: rest) :=
  ⟨⟨wLearn, by decide +kernel⟩,
   ⟨wRun, by decide +kernel⟩,
   ⟨wChkBusy 3, wRun.dev.chk.plan ++ (List.filterMap wRun.dev.slotPlan [0, 1] ++ List.filterMap wRun.dev.bankPlan [0,
     1]), by decide +kernel⟩,
   ⟨wPlan, [⟨0x100000, 8, 1, 5, 6⟩], ⟨0x100000, 8, 1, 5, 6⟩, [], by decide +kernel⟩⟩

/-- States and operands that meet the hypotheses of each clause of CheckCommands. -/
theorem wit_CheckCommands :
    (∃ (s : State) (m u : Nat), u < 4 ∧ m < 8 ∧ s.dev.Grants m (rCHK_CMD u) ∧ s.dev.flag (CHK_STAT_BUSY u) = true) ∧
    (∃ (s : State) (m u : Nat) (c : ChkUnit), u < 4 ∧ m < 8 ∧ s.dev.Grants m (rCHK_CMD u) ∧ c = s.dev.chkConfig u ∧
      s.dev.flag (CHK_STAT_BUSY u) = false ∧ s.dev.chkRefused u m c.start c.len c.foldBase = true) ∧
    (∃ (s : State) (m u : Nat) (c : ChkUnit), u < 4 ∧ m < 8 ∧ s.dev.Grants m (rCHK_CMD u) ∧ c = s.dev.chkConfig u ∧
      s.dev.flag (CHK_STAT_BUSY u) = false ∧ s.dev.chkRefused u m c.start c.len c.foldBase = false ∧ u <
      s.dev.chk.units.length) ∧
    (∃ (s : State) (m u : Nat), u < 4 ∧ m < 8 ∧ s.dev.Grants m (rCHK_CMD u) ∧ (u ≠ 3 ∨ m = 2 ∨ m = 7) ∧ s.dev.flag
      (CHK_STAT_BUSY u) = true) ∧
    (∃ (s : State) (m u : Nat), u < 4 ∧ m < 8 ∧ s.dev.Grants m (rCHK_CMD u) ∧ (u ≠ 3 ∨ m = 2 ∨ m = 7) ∧ s.dev.flag
      (CHK_STAT_BUSY u) = true) ∧
    (∃ (s : State) (dt m u : Nat), u < 4 ∧ m < 8 ∧ s.dev.Grants m (rCHK_CMD u) ∧ (u ≠ 3 ∨ m = 2 ∨ m = 7) ∧ s.dev.flag
      (CHK_STAT_BUSY u) = false ∧ (Dev.advance dt s.dev).chkJustDone u = true) ∧
    (∃ (s : State) (dt m u : Nat), u < 4 ∧ m < 8 ∧ s.dev.Grants m (rCHK_CMD u) ∧ (u ≠ 3 ∨ m = 2 ∨ m = 7) ∧ s.dev.flag
      (CHK_STAT_BUSY u) = false ∧ (Dev.advance dt s.dev).chkJustDone u = false) ∧
    (∃ (s : State) (m u : Nat), u < 4 ∧ m < 8 ∧ s.dev.Grants m (rCHK_CMD u) ∧ u = 3 ∧ m ≠ 2 ∧ m ≠ 7) :=
  ⟨⟨wChkBusy 3, 6, 3, by decide +kernel, by decide +kernel, ⟨by decide +kernel, by decide +kernel⟩,
      by decide +kernel⟩,
   ⟨wRun, 6, 3, wRun.dev.chkConfig 3, by decide +kernel, by decide +kernel, ⟨by decide +kernel, by decide +kernel⟩,
     by decide +kernel⟩,
   ⟨wChkJob, 6, 2, wChkJob.dev.chkConfig 2, by decide +kernel, by decide +kernel, ⟨by decide +kernel,
     by decide +kernel⟩, by decide +kernel⟩,
   ⟨wChkBusy 3, 7, 3, by decide +kernel, by decide +kernel, ⟨by decide +kernel, by decide +kernel⟩,
     by decide +kernel⟩,
   ⟨wChkBusy 2, 6, 2, by decide +kernel, by decide +kernel, ⟨by decide +kernel, by decide +kernel⟩,
     by decide +kernel⟩,
   ⟨wChkDone, 0, 2, 3, by decide +kernel, by decide +kernel, ⟨by decide +kernel, by decide +kernel⟩,
     by decide +kernel⟩,
   ⟨wRun, 1600, 2, 3, by decide +kernel, by decide +kernel, ⟨by decide +kernel, by decide +kernel⟩,
     by decide +kernel⟩,
   ⟨wRun, 6, 3, by decide +kernel, by decide +kernel, ⟨by decide +kernel, by decide +kernel⟩, by decide +kernel⟩⟩

/-- States and operands that meet the hypotheses of each clause of CheckJobsEnd. -/
theorem wit_CheckJobsEnd :
    (∃ (s : State) (dt u res : Nat) (c : ChkUnit), u < 3 ∧ s.dev.flag (CHK_STAT_BUSY u) = true ∧ c = s.dev.chkUnit u
      ∧ res = crcJob c.poly c.tag (if c.fold = true then some c.foldBase else none) ((Dev.advance dt s.dev).chkWords
      c) ∧ s.dev.chkStarved u = true) ∧
    (∃ (s : State) (dt u res v : Nat) (c : ChkUnit), u < 3 ∧ s.dev.flag (CHK_STAT_BUSY u) = true ∧ c = s.dev.chkUnit
      u ∧ res = crcJob c.poly c.tag (if c.fold = true then some c.foldBase else none) ((Dev.advance dt
      s.dev).chkWords c) ∧ s.dev.chkStarved u = false ∧ v = if c.cmp = true then verdict (crcKind c.poly).width res
      c.exp c.expc else 0) ∧
    (∃ (s : State) (dt u res : Nat) (c : ChkUnit) (a : Nat), u < 3 ∧ s.dev.flag (CHK_STAT_BUSY u) = true ∧ c =
      s.dev.chkUnit u ∧ res = crcJob c.poly c.tag (if c.fold = true then some c.foldBase else none) ((Dev.advance dt
      s.dev).chkWords c) ∧ 1048576 ≤ a ∧ a < 1572864 ∧ s.dev.chkStarved u = false) :=
  ⟨⟨wStarved, 1600, 2, wStarvedRes, wStarved.dev.chkUnit 2, by decide +kernel⟩,
   ⟨wChkRun, 1600, 2, wChkRes, verdict 32 wChkRes 5 6, wChkRun.dev.chkUnit 2, by decide +kernel⟩,
   ⟨wChkRun, 1600, 2, wChkRes, wChkRun.dev.chkUnit 2, 1048576, by decide +kernel⟩⟩

/-- States and operands that meet the hypotheses of each clause of JtagPort. -/
theorem wit_JtagPort :
    (∃ (s : State), s.dev.Steady ∧ s.dev.mode = Mode.service ∧ s.dev.flag DEV_CROOK_LOCK = false) ∧
    (∃ (s : State), s.dev.Steady ∧ (s.dev.mode ≠ Mode.service ∨ s.dev.flag DEV_CROOK_LOCK = true)) ∧
    (∃ (s : State), s.dev.Steady) ∧
    (∃ (s : State), s.dev.front.tap = Tap.reset ∧ (¬(54, 0) ∈ s.dev.flt.live)) ∧
    (∃ (s : State), s.dev.front.jtagAt ≠ none) ∧
    (∃ (s : State) (dt t : Nat), s.dev.front.jtagAt = some t ∧ s.dev.clk.tclk + dt < t + 320) ∧
    (∃ (s : State) (dt : Nat) (early : Bool) (a w : Nat), (early = true → ∀ (t : Nat), s.dev.front.jtagAt = some t →
      t + 320 ≤ s.dev.clk.tclk + dt) ∧ a % 4 = 0 ∧ 1409024 ≤ a ∧ a < 1441792 ∧ w < 2 ^ 32 ∧ s.dev.Grants 6 a) ∧
    (∃ (s : State) (dt : Nat) (early : Bool) (a : Nat), (early = true → ∀ (t : Nat), s.dev.front.jtagAt = some t → t
      + 320 ≤ s.dev.clk.tclk + dt) ∧ a % 4 = 0 ∧ 1409024 ≤ a ∧ a < 1441792 ∧ s.dev.Serves 6 a) ∧
    (∃ (s : State) (dt : Nat) (early : Bool) (a : Nat), (early = true → ∀ (t : Nat), s.dev.front.jtagAt = some t → t
      + 320 ≤ s.dev.clk.tclk + dt) ∧ a < 2 ^ 24 ∧ a % 4 ≠ 0 ∧ s.dev.mode ≠ Mode.reset) ∧
    (∃ (s : State) (dt : Nat) (early : Bool) (a : Nat), (early = true → ∀ (t : Nat), s.dev.front.jtagAt = some t → t
      + 320 ≤ s.dev.clk.tclk + dt) ∧ a < 2 ^ 24 ∧ a % 4 ≠ 0 ∧ s.dev.mode ≠ Mode.reset) :=
  ⟨⟨wMode .service, ⟨⟨by decide +kernel, by decide +kernel⟩, by decide +kernel⟩, by decide +kernel⟩,
   ⟨wRun, ⟨⟨by decide +kernel, by decide +kernel⟩, by decide +kernel⟩, by decide +kernel⟩,
   ⟨wRun, ⟨⟨by decide +kernel, by decide +kernel⟩, by decide +kernel⟩⟩,
   ⟨wRun, by decide +kernel⟩,
   ⟨wJtag, by decide +kernel⟩,
   ⟨wJtag, 0, 319, by decide +kernel⟩,
   ⟨wJtag, 1600, true, 1441788, 2^32-1, fun _ => all_some (by decide +kernel), by decide +kernel, by decide +kernel,
     by decide +kernel, by decide +kernel, ⟨by decide +kernel, by decide +kernel⟩⟩,
   ⟨wRun, 1600, false, 1441788, fun _ => all_some (by decide +kernel), by decide +kernel, by decide +kernel,
     by decide +kernel, ⟨by decide +kernel, by decide +kernel⟩⟩,
   ⟨wRun, 1600, false, 2^24-1, fun _ => all_some (by decide +kernel), by decide +kernel⟩,
   ⟨wRun, 1600, true, 2^24-1, fun _ => all_some (by decide +kernel), by decide +kernel⟩⟩

/-- States and operands that meet the hypotheses of each clause of ChannelEdgesAreForwarded. -/
theorem wit_ChannelEdgesAreForwarded :
    (∃ (s : State) (dt ch sub arr : Nat), ch < 12 ∧ arr = (s.dev.clk.tclk + dt) * 40960 + sub % 40960 ∧
      s.dev.measuring = false) ∧
    (∃ (s : State) (dt ch sub arr : Nat), ch < 12 ∧ arr = (s.dev.clk.tclk + dt) * 40960 + sub % 40960 ∧
      s.dev.measuring = true ∧ s.dev.claimed ch = false ∧ (s.dev.chan ch).count + 1 < s.dev.rd (MCH_DEC_DEC ch) ∧ ch
      < s.dev.meas.chans.length) ∧
    (∃ (s : State) (dt ch sub arr t : Nat), ch < 12 ∧ arr = (s.dev.clk.tclk + dt) * 40960 + sub % 40960 ∧
      s.dev.measuring = true ∧ s.dev.claimed ch = false ∧ s.dev.rd (MCH_DEC_DEC ch) ≤ (s.dev.chan ch).count + 1 ∧
      (s.dev.chan ch).lastFwd = some t ∧ arr < t + 163840) ∧
    (∃ (s : State) (dt ch sub arr : Nat) (ks : List Nat), ch < 12 ∧ arr = (s.dev.clk.tclk + dt) * 40960 + sub % 40960
      ∧ s.dev.measuring = true ∧ s.dev.claimed ch = false ∧ s.dev.rd (MCH_DEC_DEC ch) ≤ (s.dev.chan ch).count + 1 ∧
      (∀ (t : Nat), (s.dev.chan ch).lastFwd = some t → t + 163840 ≤ arr) ∧
      (ks = match s.dev.armedOn ch with | [] => List.filter (fun k => !(s.dev.cell k).busy) (s.dev.standIns ch) | l => l)
      ∧ ks = []) ∧
    (∃ (s : State) (dt ch sub arr : Nat) (ks : List Nat), ch < 12 ∧ arr = (s.dev.clk.tclk + dt) * 40960 + sub % 40960
      ∧ s.dev.measuring = true ∧ s.dev.claimed ch = false ∧ s.dev.rd (MCH_DEC_DEC ch) ≤ (s.dev.chan ch).count + 1 ∧
      (∀ (t : Nat), (s.dev.chan ch).lastFwd = some t → t + 163840 ≤ arr) ∧
      (ks = match s.dev.armedOn ch with | [] => List.filter (fun k => !(s.dev.cell k).busy) (s.dev.standIns ch) | l => l)
      ∧ ks ≠ []) ∧
    (∃ (s : State) (n ch : Nat), n < 16 ∧ s.dev.measuring = true ∧ ch = 53 + s.dev.rd (PAD_CFG_EG n) ∧ s.dev.flag
      (PAD_CFG_EG_V n) = false) ∧
    (∃ (s : State) (dt n sub ch arr k : Nat), n < 16 ∧ s.dev.measuring = true ∧ ch = 53 + s.dev.rd (PAD_CFG_EG n) ∧
      s.dev.flag (PAD_CFG_EG_V n) = true ∧ s.dev.alive.contains ch = true ∧ s.dev.claimed ch = true ∧ s.dev.loopCells
      ch = [k] ∧ (s.dev.cell k).busy = false ∧ s.dev.meas.handover = none ∧ s.dev.rd (MCH_DEC_DEC ch) ≤ (s.dev.chan
      ch).count + 1 ∧ arr = (s.dev.clk.tclk + dt) * 40960 + sub % 40960 ∧ (∀ (t : Nat), (s.dev.chan ch).lastFwd =
      some t → t + 163840 ≤ arr) ∧ (∀ (t : Nat), (s.dev.chan ch).lastConv = some t → t + 500 * 65536 ≤ arr)) :=
  ⟨⟨wNoMeas, 1600, 11, 40959, _, by decide +kernel, rfl, by decide +kernel⟩,
   ⟨wEdge3, 1600, 11, 40959, _, by decide +kernel, rfl, by decide +kernel⟩,
   ⟨wEdge, 7, 11, 40959, _, 163840, by decide +kernel, rfl, by decide +kernel⟩,
   ⟨wLoses, 1600, 11, 40959, _, [], by decide +kernel, rfl, by decide +kernel, by decide +kernel, by decide +kernel,
     all_some (by decide +kernel), by decide +kernel⟩,
   ⟨wEdge, 8, 11, 0, _, [47], by decide +kernel, rfl, by decide +kernel, by decide +kernel, by decide +kernel,
     all_some (by decide +kernel), by decide +kernel⟩,
   ⟨wRun, 15, _, by decide +kernel, by decide +kernel, rfl, by decide +kernel⟩,
   ⟨wEdgeGen, 1600, 15, 40959, _, _, 47, by decide +kernel, by decide +kernel, rfl, by decide +kernel,
     by decide +kernel, by decide +kernel, by decide +kernel, by decide +kernel, by decide +kernel,
     by decide +kernel, rfl, all_some (by decide +kernel), all_some (by decide +kernel)⟩⟩

/-- States and operands that meet the hypotheses of each clause of ConversionsAreCheckedAndStamped. -/
theorem wit_ConversionsAreCheckedAndStamped :
    (∃ (s : State) (dt k : Nat) (code : CellCode) (redOk rstOk tableEcc : Bool) (ev : Event) (rest : List Event) (f :
      Nat), k < 48 ∧ s.dev.measuring = true ∧ (s.dev.cell k).pilot = none ∧ takeEvent k (Dev.advance dt
      s.dev).meas.events = some (ev, rest) ∧ ev.parts = [(k, Part.waiting)] ∧ ev.handover = none ∧ 20 ≤ ev.chan ∧
      ev.chan < 44 ∧ convFault code.code redOk rstOk tableEcc = f ∧ f ≠ 0 ∧ f ≠ 5 ∧ k < s.dev.meas.cells.length ∧
      ((s.dev.cell k).role = Role.job ∨ (s.dev.cell k).role = Role.loop) ∧ Option.any (fun r => r.retest && decide
      (r.cell = k)) s.dev.meas.calRun = false) ∧
    (∃ (s : State) (dt k : Nat) (code : CellCode) (redOk rstOk tableEcc : Bool) (ev : Event) (rest : List Event) (f :
      Nat), k < 48 ∧ s.dev.measuring = true ∧ (s.dev.cell k).pilot = none ∧ takeEvent k (Dev.advance dt
      s.dev).meas.events = some (ev, rest) ∧ ev.parts = [(k, Part.waiting)] ∧ ev.handover = none ∧ 20 ≤ ev.chan ∧
      ev.chan < 44 ∧ convFault code.code redOk rstOk tableEcc = f ∧ f ≠ 0 ∧ f ≠ 5 ∧ k < s.dev.meas.cells.length ∧
      ((s.dev.cell k).role = Role.job ∨ (s.dev.cell k).role = Role.loop) ∧ Option.any (fun r => r.retest && decide
      (r.cell = k)) s.dev.meas.calRun = false) ∧
    (∃ (s : State) (dt k : Nat) (code : CellCode) (redOk rstOk tableEcc : Bool) (ev : Event) (rest : List Event), k <
      48 ∧ s.dev.measuring = true ∧ (s.dev.cell k).pilot = none ∧ takeEvent k (Dev.advance dt s.dev).meas.events =
      some (ev, rest) ∧ ev.parts = [(k, Part.waiting)] ∧ ev.handover = none ∧ 20 ≤ ev.chan ∧ ev.chan < 44 ∧ convFault
      code.code redOk rstOk tableEcc = 0) :=
  ⟨⟨wConv, 1600, 47, ⟨7799, true⟩, true, true, false, evOne, [], 1, by decide +kernel⟩,
   ⟨wConv, 1600, 47, ⟨16380, true⟩, true, false, false, evOne, [], 3, by decide +kernel⟩,
   ⟨wConv, 1600, 47, ⟨16380, true⟩, true, true, false, evOne, [], by decide +kernel⟩⟩

/-- States and operands that meet the hypotheses of each clause of PoolServesItsUses. -/
theorem wit_PoolServesItsUses :
    (∃ (s : State) (k : Nat), s.dev.measuring = true ∧ k < 48 ∧ k < s.dev.meas.cells.length ∧ (∀ (ch : Nat), ch < 64
      → s.dev.claimed ch = false) ∧ (∀ (i : Nat), (s.dev.cell i).armed = none ∧ (s.dev.cell i).role ≠ Role.loop ∧
      (s.dev.cell i).pilotDue = false) ∧ s.dev.calBusy = false ∧ List.find? (fun i => (s.dev.cell i).overdue &&
      (s.dev.cell i).free) s.dev.meas.dueOrder = some k) ∧
    (∃ (s : State) (k : Nat), s.dev.measuring = true ∧ k < 48 ∧ k < s.dev.meas.cells.length ∧ (s.dev.cell k).role =
      Role.job) ∧
    (∃ (s : State) (k : Nat), s.dev.measuring = true ∧ k < 48 ∧ k < s.dev.meas.cells.length ∧ (s.dev.cell k).role =
      Role.loop ∧ (s.dev.cell k).busy = true) ∧
    (∃ (s : State) (dt k : Nat), s.dev.measuring = true ∧ k < 48 ∧ k < s.dev.meas.cells.length ∧ (s.dev.cell k).role
      = Role.loop ∧ (s.dev.cell k).busy = false ∧ (s.dev.cell k).pilot = none ∧ (Dev.advance dt s.dev).nextFar
      (loopIdx (s.dev.cell k)) (s.dev.cell k).stream = true) ∧
    (∃ (s : State) (dt k : Nat), s.dev.measuring = true ∧ k < 48 ∧ k < s.dev.meas.cells.length ∧ (s.dev.cell k).role
      = Role.loop ∧ (s.dev.cell k).busy = false ∧ (s.dev.cell k).pilot = none ∧ (Dev.advance dt s.dev).nextFar
      (loopIdx (s.dev.cell k)) (s.dev.cell k).stream = false) ∧
    (∃ (s : State) (k : Nat), s.dev.measuring = true ∧ k < 48 ∧ k < s.dev.meas.cells.length ∧ (s.dev.cell k).role =
      Role.job ∧ (s.dev.cell k).pilotDue = true ∧ (s.dev.cell k).busy = false ∧ (s.dev.cell k).pilot = none) ∧
    (∃ (s : State) (dt k : Nat) (h : Handover) (far : Bool), s.dev.measuring = true ∧ k < 48 ∧ k <
      s.dev.meas.cells.length ∧ s.dev.meas.handover = some h ∧ h.old < s.dev.meas.cells.length ∧ h.new <
      s.dev.meas.cells.length ∧ h.old ≠ h.new ∧ far = (Dev.advance dt s.dev).nextFar (loopIdx (s.dev.cell h.old))
      h.chan ∧ s.dev.slowStream h.chan = true ∧ far = true) ∧
    (∃ (s : State) (dt k : Nat) (h : Handover) (far : Bool), s.dev.measuring = true ∧ k < 48 ∧ k <
      s.dev.meas.cells.length ∧ s.dev.meas.handover = some h ∧ h.old < s.dev.meas.cells.length ∧ h.new <
      s.dev.meas.cells.length ∧ h.old ≠ h.new ∧ far = (Dev.advance dt s.dev).nextFar (loopIdx (s.dev.cell h.old))
      h.chan ∧ (s.dev.slowStream h.chan = false ∨ far = false)) ∧
    (∃ (s : State) (k : Nat), s.dev.measuring = true ∧ k < 48 ∧ k < s.dev.meas.cells.length ∧ (s.dev.cell k).due =
      true ∧ (s.dev.cell k).overdue = false) ∧
    (∃ (s : State) (k : Nat), s.dev.measuring = true ∧ k < 48 ∧ k < s.dev.meas.cells.length ∧ (s.dev.cellsWhere
      Cell.free).isEmpty = false) :=
  ⟨⟨wCells, 47, by decide +kernel, by decide +kernel, by decide +kernel, by decide +kernel, cells_all (p := fun c =>
      c.armed = none ∧ c.role ≠ Role.loop ∧ c.pilotDue = false) (by decide +kernel) (by decide +kernel)
      (by decide +kernel), by decide +kernel⟩,
   ⟨wRun, 47, by decide +kernel⟩,
   ⟨wCell { Cell.fresh with role := .loop, busy := true }, 47, by decide +kernel⟩,
   ⟨wCell { Cell.fresh with role := .loop }, 1600, 47, by decide +kernel⟩,
   ⟨wNear, 1600, 47, by decide +kernel⟩,
   ⟨wCell { Cell.fresh with pilotDue := true }, 47, by decide +kernel⟩,
   ⟨wHand 0, 1600, 0, ⟨46, 47, 11⟩, _, by decide +kernel, by decide +kernel, by decide +kernel, by decide +kernel,
     by decide +kernel, by decide +kernel, by decide +kernel, rfl, by decide +kernel, rfl⟩,
   ⟨wHand 152, 1600, 0, ⟨46, 47, 11⟩, _, by decide +kernel, by decide +kernel, by decide +kernel, by decide +kernel,
     by decide +kernel, by decide +kernel, by decide +kernel, rfl, by decide +kernel⟩,
   ⟨wCell { Cell.fresh with due := true }, 47, by decide +kernel⟩,
   ⟨wRun, 47, by decide +kernel⟩⟩

/-- States and operands that meet the hypotheses of each clause of CalibrationAndQuarantineEnd. -/
theorem wit_CalibrationAndQuarantineEnd :
    (∃ (s : State) (r : CalRun), s.dev.measuring = true ∧ s.dev.meas.calRun = some r ∧ r.tableDone = false ∧ r.cell <
      48 ∧ r.cell < s.dev.meas.cells.length) ∧
    (∃ (s : State) (r : CalRun), s.dev.measuring = true ∧ s.dev.meas.calRun = some r ∧ r.tableDone = false ∧ r.cell <
      48 ∧ r.cell < s.dev.meas.cells.length) ∧
    (∃ (s : State), s.dev.mode = Mode.boot ∧ s.dev.clk.pllLocked = true ∧ s.dev.meas.bootCalDone = false ∧
      s.dev.meas.cells.length = 48) ∧
    (∃ (s : State) (dt k : Nat) (code : CellCode) (redOk rstOk : Bool) (f : Nat), k < 48 ∧ k <
      s.dev.meas.cells.length ∧ s.dev.bootCals k = true ∧ (s.dev.cell k).pilot = none ∧ s.dev.meas.calRun = none ∧
      takeEvent k (Dev.advance dt s.dev).meas.events = none ∧ convFault code.code redOk rstOk false = f ∧ f ≠ 0) ∧
    (∃ (s : State) (k fails : Nat), s.dev.measuring = true ∧ k < 48 ∧ k < s.dev.meas.cells.length ∧ (s.dev.cell
      k).role = Role.quar ∧ (2 ≤ fails ∨ (s.dev.cell k).eccQuar = true)) ∧
    (∃ (s : State) (k fails : Nat), s.dev.measuring = true ∧ k < 48 ∧ k < s.dev.meas.cells.length ∧ (s.dev.cell
      k).role = Role.quar ∧ (2 ≤ fails ∨ (s.dev.cell k).eccQuar = true)) ∧
    (∃ (s : State) (k fails : Nat), s.dev.measuring = true ∧ k < 48 ∧ k < s.dev.meas.cells.length ∧ (s.dev.cell
      k).role = Role.quar ∧ fails < 2 ∧ (s.dev.cell k).eccQuar = false ∧ (∀ (ch : Nat), ch < 64 → s.dev.loopNeed ch ≤
      (s.dev.loopCells ch).length) ∧ (s.dev.cell k).due = false ∧ (s.dev.cell k).overdue = false) ∧
    (∃ (s : State) (m k : Nat), k < 64 ∧ s.dev.Grants m rMEAS_CELL_CMD ∧ (s.dev.cell k).role = Role.retired ∧ k < 48
      ∧ s.dev.meas.retest = none ∧ Option.any (fun r => r.retest) s.dev.meas.calRun = false) ∧
    (∃ (s : State) (m k : Nat), k < 64 ∧ s.dev.Grants m rMEAS_CELL_CMD ∧ ((s.dev.cell k).role ≠ Role.retired ∨ 48 ≤ k
      ∨ s.dev.meas.retest.isSome = true)) ∧
    (∃ (s : State) (m k : Nat), k < 64 ∧ s.dev.Grants m rMEAS_CELL_CMD ∧ ((s.dev.cell k).role ≠ Role.retired ∨ 48 ≤ k
      ∨ s.dev.meas.retest.isSome = true)) ∧
    (∃ (s : State) (r : CalRun) (fails : Nat), s.dev.measuring = true ∧ s.dev.meas.calRun = some r ∧ r.retest = true
      ∧ r.cell < s.dev.meas.cells.length ∧ r.tableDone = true ∧ fails = 0) ∧
    (∃ (s : State) (r : CalRun) (fails : Nat), s.dev.measuring = true ∧ s.dev.meas.calRun = some r ∧ r.retest = true
      ∧ r.cell < s.dev.meas.cells.length ∧ (r.tableDone = false ∨ fails ≠ 0)) :=
  ⟨⟨wCalRun ⟨47, 0, false, false⟩, ⟨47, 0, false, false⟩, by decide +kernel⟩,
   ⟨wCalRun ⟨47, 0, true, false⟩, ⟨47, 0, true, false⟩, by decide +kernel⟩,
   ⟨wBoot 9, by decide +kernel⟩,
   ⟨wBootCal, 1600, 47, ⟨12345, false⟩, false, true, _, by decide +kernel, by decide +kernel, by decide +kernel,
     by decide +kernel, by decide +kernel, by decide +kernel, rfl, by decide +kernel⟩,
   ⟨wCell { Cell.fresh with role := .quar }, 47, 2, by decide +kernel⟩,
   ⟨wCell { Cell.fresh with role := .quar, eccQuar := true }, 47, 0, by decide +kernel⟩,
   ⟨wCell { Cell.fresh with role := .quar }, 47, 1, by decide +kernel⟩,
   ⟨wCell { Cell.fresh with role := .retired }, 6, 47, by decide +kernel, ⟨by decide +kernel, by decide +kernel⟩,
     by decide +kernel⟩,
   ⟨wRun, 6, 47, by decide +kernel, ⟨by decide +kernel, by decide +kernel⟩, by decide +kernel⟩,
   ⟨wRun, 6, 48, by decide +kernel, ⟨by decide +kernel, by decide +kernel⟩, by decide +kernel⟩,
   ⟨wCalRun ⟨47, 0, true, true⟩, ⟨47, 0, true, true⟩, 0, by decide +kernel⟩,
   ⟨wCalRun ⟨47, 0, true, true⟩, ⟨47, 0, true, true⟩, 1, by decide +kernel⟩⟩

/-- States and operands that meet the hypotheses of each clause of ReadsLatchTheirPartners. -/
theorem wit_ReadsLatchTheirPartners :
    (∃ (s : State) (dt m t : Nat), s.dev.Steady ∧ t = (Dev.advance dt s.dev).nowU ∧ s.dev.Serves m rDEV_TIME_SEC_LO) ∧
    (∃ (s : State) (m a : Nat), s.dev.Steady ∧ isLo a = true ∧ isHi a = false ∧ a < 917504 ∧ s.dev.Serves m a) :=
  ⟨⟨wRun, 1600, 7, _, ⟨⟨by decide +kernel, by decide +kernel⟩, by decide +kernel⟩, rfl, ⟨by decide +kernel,
      by decide +kernel⟩⟩,
   ⟨wRun, 7, rPAD_FW_LO 15, ⟨⟨by decide +kernel, by decide +kernel⟩, by decide +kernel⟩, by decide +kernel,
     by decide +kernel, by decide +kernel, ⟨by decide +kernel, by decide +kernel⟩⟩⟩

/-- States and operands that meet the hypotheses of each clause of PushesAreJudged. -/
theorem wit_PushesAreJudged :
    (∃ (s : State) (dt m : Nat) (ecc : Bool) (c : Instr) (code : Nat) (kind : JobKind) (slot : Nat), s.dev.Grants m
      rMEAS_REQ_PUSH ∧ s.dev.jobs.slots.length = 128 ∧ (∀ (k : Nat), k < 128 → ∀ (j : Job) (dn : Done), s.dev.job k =
      some j → j.done = some dn → dn.rst = false) ∧ (ecc = true → ∀ (k : Nat), k < 128 → ∀ (j : Job), s.dev.job k =
      some j → j.order ≠ s.dev.jobs.nextOrder) ∧ (c, code, kind) ∈ [(Instr.timeIntervalPush dt
      { master := m, slotEcc := ecc }, 0, JobKind.interval), (Instr.frequencyPush dt { master := m, slotEcc := ecc },
      1, JobKind.freq), (Instr.timestampStreamPush dt { master := m, slotEcc := ecc }, 2, JobKind.stream),
      (Instr.periodStatisticsPush dt { master := m, slotEcc := ecc }, 3, JobKind.period), (Instr.markerPush dt
      { master := m, slotEcc := ecc }, 4, JobKind.marker), (Instr.ringFlushPush dt { master := m, slotEcc := ecc },
      5, JobKind.flush)] ∧ s.dev.rdPm m MEAS_REQ_W0_KIND = code ∧ s.dev.pushReason m = 0 ∧ slot < 128 ∧ s.dev.job
      slot = none ∧ (∀ (i : Nat), i < slot → s.dev.job i ≠ none)) ∧
    (∃ (s : State) (dt m : Nat) (ecc : Bool) (c : Instr) (code : Nat) (kind : JobKind) (slot : Nat), s.dev.Grants m
      rMEAS_REQ_PUSH ∧ s.dev.jobs.slots.length = 128 ∧ (∀ (k : Nat), k < 128 → ∀ (j : Job) (dn : Done), s.dev.job k =
      some j → j.done = some dn → dn.rst = false) ∧ (ecc = true → ∀ (k : Nat), k < 128 → ∀ (j : Job), s.dev.job k =
      some j → j.order ≠ s.dev.jobs.nextOrder) ∧ (c, code, kind) ∈ [(Instr.timeIntervalPush dt
      { master := m, slotEcc := ecc }, 0, JobKind.interval), (Instr.frequencyPush dt { master := m, slotEcc := ecc },
      1, JobKind.freq), (Instr.timestampStreamPush dt { master := m, slotEcc := ecc }, 2, JobKind.stream),
      (Instr.periodStatisticsPush dt { master := m, slotEcc := ecc }, 3, JobKind.period), (Instr.markerPush dt
      { master := m, slotEcc := ecc }, 4, JobKind.marker), (Instr.ringFlushPush dt { master := m, slotEcc := ecc },
      5, JobKind.flush)] ∧ s.dev.rdPm m MEAS_REQ_W0_KIND = code ∧ s.dev.pushReason m = 0 ∧ slot < 128 ∧ s.dev.job
      slot = none ∧ (∀ (i : Nat), i < slot → s.dev.job i ≠ none)) ∧
    (∃ (s : State) (dt m : Nat) (ecc : Bool) (c : Instr) (code : Nat) (kind : JobKind) (slot : Nat), s.dev.Grants m
      rMEAS_REQ_PUSH ∧ s.dev.jobs.slots.length = 128 ∧ (∀ (k : Nat), k < 128 → ∀ (j : Job) (dn : Done), s.dev.job k =
      some j → j.done = some dn → dn.rst = false) ∧ (ecc = true → ∀ (k : Nat), k < 128 → ∀ (j : Job), s.dev.job k =
      some j → j.order ≠ s.dev.jobs.nextOrder) ∧ (c, code, kind) ∈ [(Instr.timeIntervalPush dt
      { master := m, slotEcc := ecc }, 0, JobKind.interval), (Instr.frequencyPush dt { master := m, slotEcc := ecc },
      1, JobKind.freq), (Instr.timestampStreamPush dt { master := m, slotEcc := ecc }, 2, JobKind.stream),
      (Instr.periodStatisticsPush dt { master := m, slotEcc := ecc }, 3, JobKind.period), (Instr.markerPush dt
      { master := m, slotEcc := ecc }, 4, JobKind.marker), (Instr.ringFlushPush dt { master := m, slotEcc := ecc },
      5, JobKind.flush)] ∧ s.dev.rdPm m MEAS_REQ_W0_KIND = code ∧ s.dev.pushReason m = 0 ∧ slot < 128 ∧ s.dev.job
      slot = none ∧ (∀ (i : Nat), i < slot → s.dev.job i ≠ none)) ∧
    (∃ (s : State) (dt m : Nat) (ecc : Bool) (c : Instr) (code : Nat) (kind : JobKind) (slot : Nat), s.dev.Grants m
      rMEAS_REQ_PUSH ∧ s.dev.jobs.slots.length = 128 ∧ (∀ (k : Nat), k < 128 → ∀ (j : Job) (dn : Done), s.dev.job k =
      some j → j.done = some dn → dn.rst = false) ∧ (ecc = true → ∀ (k : Nat), k < 128 → ∀ (j : Job), s.dev.job k =
      some j → j.order ≠ s.dev.jobs.nextOrder) ∧ (c, code, kind) ∈ [(Instr.timeIntervalPush dt
      { master := m, slotEcc := ecc }, 0, JobKind.interval), (Instr.frequencyPush dt { master := m, slotEcc := ecc },
      1, JobKind.freq), (Instr.timestampStreamPush dt { master := m, slotEcc := ecc }, 2, JobKind.stream),
      (Instr.periodStatisticsPush dt { master := m, slotEcc := ecc }, 3, JobKind.period), (Instr.markerPush dt
      { master := m, slotEcc := ecc }, 4, JobKind.marker), (Instr.ringFlushPush dt { master := m, slotEcc := ecc },
      5, JobKind.flush)] ∧ s.dev.rdPm m MEAS_REQ_W0_KIND = code ∧ s.dev.pushReason m = 0 ∧ slot < 128 ∧ s.dev.job
      slot = none ∧ (∀ (i : Nat), i < slot → s.dev.job i ≠ none)) ∧
    (∃ (s : State) (dt m : Nat) (ecc : Bool) (c : Instr) (code : Nat) (kind : JobKind) (slot : Nat), s.dev.Grants m
      rMEAS_REQ_PUSH ∧ s.dev.jobs.slots.length = 128 ∧ (∀ (k : Nat), k < 128 → ∀ (j : Job) (dn : Done), s.dev.job k =
      some j → j.done = some dn → dn.rst = false) ∧ (ecc = true → ∀ (k : Nat), k < 128 → ∀ (j : Job), s.dev.job k =
      some j → j.order ≠ s.dev.jobs.nextOrder) ∧ (c, code, kind) ∈ [(Instr.timeIntervalPush dt
      { master := m, slotEcc := ecc }, 0, JobKind.interval), (Instr.frequencyPush dt { master := m, slotEcc := ecc },
      1, JobKind.freq), (Instr.timestampStreamPush dt { master := m, slotEcc := ecc }, 2, JobKind.stream),
      (Instr.periodStatisticsPush dt { master := m, slotEcc := ecc }, 3, JobKind.period), (Instr.markerPush dt
      { master := m, slotEcc := ecc }, 4, JobKind.marker), (Instr.ringFlushPush dt { master := m, slotEcc := ecc },
      5, JobKind.flush)] ∧ s.dev.rdPm m MEAS_REQ_W0_KIND = code ∧ s.dev.pushReason m = 0 ∧ slot < 128 ∧ s.dev.job
      slot = none ∧ (∀ (i : Nat), i < slot → s.dev.job i ≠ none)) ∧
    (∃ (s : State) (dt m : Nat) (ecc : Bool) (c : Instr) (code : Nat) (kind : JobKind) (slot : Nat), s.dev.Grants m
      rMEAS_REQ_PUSH ∧ s.dev.jobs.slots.length = 128 ∧ (∀ (k : Nat), k < 128 → ∀ (j : Job) (dn : Done), s.dev.job k =
      some j → j.done = some dn → dn.rst = false) ∧ (ecc = true → ∀ (k : Nat), k < 128 → ∀ (j : Job), s.dev.job k =
      some j → j.order ≠ s.dev.jobs.nextOrder) ∧ (c, code, kind) ∈ [(Instr.timeIntervalPush dt
      { master := m, slotEcc := ecc }, 0, JobKind.interval), (Instr.frequencyPush dt { master := m, slotEcc := ecc },
      1, JobKind.freq), (Instr.timestampStreamPush dt { master := m, slotEcc := ecc }, 2, JobKind.stream),
      (Instr.periodStatisticsPush dt { master := m, slotEcc := ecc }, 3, JobKind.period), (Instr.markerPush dt
      { master := m, slotEcc := ecc }, 4, JobKind.marker), (Instr.ringFlushPush dt { master := m, slotEcc := ecc },
      5, JobKind.flush)] ∧ s.dev.rdPm m MEAS_REQ_W0_KIND = code ∧ s.dev.pushReason m = 0 ∧ slot < 128 ∧ s.dev.job
      slot = none ∧ (∀ (i : Nat), i < slot → s.dev.job i ≠ none)) ∧
    (∃ (s : State) (dt m : Nat) (ecc : Bool) (c : Instr) (code : Nat) (kind : JobKind) (slot : Nat), s.dev.Grants m
      rMEAS_REQ_PUSH ∧ s.dev.jobs.slots.length = 128 ∧ (∀ (k : Nat), k < 128 → ∀ (j : Job) (dn : Done), s.dev.job k =
      some j → j.done = some dn → dn.rst = false) ∧ (ecc = true → ∀ (k : Nat), k < 128 → ∀ (j : Job), s.dev.job k =
      some j → j.order ≠ s.dev.jobs.nextOrder) ∧ (c, code, kind) ∈ [(Instr.timeIntervalPush dt
      { master := m, slotEcc := ecc }, 0, JobKind.interval), (Instr.frequencyPush dt { master := m, slotEcc := ecc },
      1, JobKind.freq), (Instr.timestampStreamPush dt { master := m, slotEcc := ecc }, 2, JobKind.stream),
      (Instr.periodStatisticsPush dt { master := m, slotEcc := ecc }, 3, JobKind.period), (Instr.markerPush dt
      { master := m, slotEcc := ecc }, 4, JobKind.marker), (Instr.ringFlushPush dt { master := m, slotEcc := ecc },
      5, JobKind.flush)] ∧ s.dev.rdPm m MEAS_REQ_W0_KIND = code ∧ s.dev.pushReason m = 0 ∧ slot < 128 ∧ s.dev.job
      slot = none ∧ (∀ (i : Nat), i < slot → s.dev.job i ≠ none)) ∧
    (∃ (s : State) (dt m : Nat) (ecc : Bool) (c : Instr) (code : Nat) (kind : JobKind), s.dev.Grants m rMEAS_REQ_PUSH
      ∧ s.dev.jobs.slots.length = 128 ∧ (∀ (k : Nat), k < 128 → ∀ (j : Job) (dn : Done), s.dev.job k = some j →
      j.done = some dn → dn.rst = false) ∧ (ecc = true → ∀ (k : Nat), k < 128 → ∀ (j : Job), s.dev.job k = some j →
      j.order ≠ s.dev.jobs.nextOrder) ∧ (c, code, kind) ∈ [(Instr.timeIntervalPush dt
      { master := m, slotEcc := ecc }, 0, JobKind.interval), (Instr.frequencyPush dt { master := m, slotEcc := ecc },
      1, JobKind.freq), (Instr.timestampStreamPush dt { master := m, slotEcc := ecc }, 2, JobKind.stream),
      (Instr.periodStatisticsPush dt { master := m, slotEcc := ecc }, 3, JobKind.period), (Instr.markerPush dt
      { master := m, slotEcc := ecc }, 4, JobKind.marker), (Instr.ringFlushPush dt { master := m, slotEcc := ecc },
      5, JobKind.flush)] ∧ s.dev.rdPm m MEAS_REQ_W0_KIND = code ∧ s.dev.pushReason m ≠ 0) ∧
    (∃ (s : State) (m : Nat) (ecc : Bool), s.dev.Grants m rMEAS_REQ_PUSH ∧ s.dev.jobs.slots.length = 128 ∧ (∀ (k :
      Nat), k < 128 → ∀ (j : Job) (dn : Done), s.dev.job k = some j → j.done = some dn → dn.rst = false) ∧ (ecc =
      true → ∀ (k : Nat), k < 128 → ∀ (j : Job), s.dev.job k = some j → j.order ≠ s.dev.jobs.nextOrder) ∧ 5 <
      s.dev.rdPm m MEAS_REQ_W0_KIND) ∧
    (∃ (s : State) (m : Nat) (ecc : Bool), s.dev.Grants m rMEAS_REQ_PUSH ∧ s.dev.jobs.slots.length = 128 ∧ (∀ (k :
      Nat), k < 128 → ∀ (j : Job) (dn : Done), s.dev.job k = some j → j.done = some dn → dn.rst = false) ∧ (ecc =
      true → ∀ (k : Nat), k < 128 → ∀ (j : Job), s.dev.job k = some j → j.order ≠ s.dev.jobs.nextOrder) ∧ 5 <
      s.dev.rdPm m MEAS_REQ_W0_KIND) ∧
    (∃ (s : State) (m : Nat) (ecc : Bool) (code a b oa ob : Nat) (ratio openA openB : Bool), s.dev.Grants m
      rMEAS_REQ_PUSH ∧ s.dev.jobs.slots.length = 128 ∧ (∀ (k : Nat), k < 128 → ∀ (j : Job) (dn : Done), s.dev.job k =
      some j → j.done = some dn → dn.rst = false) ∧ (ecc = true → ∀ (k : Nat), k < 128 → ∀ (j : Job), s.dev.job k =
      some j → j.order ≠ s.dev.jobs.nextOrder) ∧ code = s.dev.rdPm m MEAS_REQ_W0_KIND ∧ a = s.dev.rdPm m
      MEAS_REQ_W0_CH_A ∧ b = s.dev.rdPm m MEAS_REQ_W0_CH_B ∧ oa = s.dev.rdPm m MEAS_REQ_W2_PARAM_A + 2 ^ 32 *
      s.dev.rdPm m MEAS_REQ_W3_PARAM_A ∧ ob = s.dev.rdPm m MEAS_REQ_W4_PARAM_B + 2 ^ 32 * s.dev.rdPm m
      MEAS_REQ_W5_PARAM_B ∧ openA = (s.dev.flag (MCH_CFG_ENABLE a) || s.dev.claimed a) ∧ openB = (s.dev.flag
      (MCH_CFG_ENABLE b) || s.dev.claimed b) ∧ ratio = decide (s.dev.rdPm m MEAS_REQ_W0_RATIO ≠ 0)) :=
  ⟨⟨wPush 6 [(MEAS_REQ_W0_RING, 15), (MEAS_REQ_W0_KIND, 4)], 1600, 6, false, .markerPush 1600 ⟨6, false⟩, 4,
      .marker, 0, ⟨by decide +kernel, by decide +kernel⟩, by decide +kernel, no_rst (by decide +kernel), fun _ =>
      no_order (by decide +kernel), by decide +kernel⟩,
   ⟨wPush 6 [(MEAS_REQ_W0_RING, 15), (MEAS_REQ_W0_KIND, 4)], 1600, 6, true, .markerPush 1600 ⟨6, true⟩, 4, .marker,
     0, ⟨by decide +kernel, by decide +kernel⟩, by decide +kernel, no_rst (by decide +kernel), fun _ => no_order
     (by decide +kernel), by decide +kernel⟩,
   ⟨wPush 6 [(MEAS_REQ_W0_RING, 15), (MEAS_REQ_W0_KIND, 5)], 1600, 6, false, .ringFlushPush 1600 ⟨6, false⟩, 5,
     .flush, 0, ⟨by decide +kernel, by decide +kernel⟩, by decide +kernel, no_rst (by decide +kernel), fun _ =>
     no_order (by decide +kernel), by decide +kernel⟩,
   ⟨wPush 6 [(MEAS_REQ_W0_RING, 15), (MEAS_REQ_W0_CH_A, 11), (MEAS_REQ_W0_CH_B, 11), (MEAS_REQ_W2_PARAM_A, 0),
     (MEAS_REQ_W4_PARAM_B, 65536)], 1600, 6, false, .timeIntervalPush 1600 ⟨6, false⟩, 0, .interval, 0,
     ⟨by decide +kernel, by decide +kernel⟩, by decide +kernel, no_rst (by decide +kernel), fun _ => no_order
     (by decide +kernel), by decide +kernel⟩,
   ⟨wPush 6 [(MEAS_REQ_W0_RING, 15), (MEAS_REQ_W0_KIND, 1), (MEAS_REQ_W0_CH_A, 11), (MEAS_REQ_W2_PARAM_A, 1000000)],
     1600, 6, false, .frequencyPush 1600 ⟨6, false⟩, 1, .freq, 0, ⟨by decide +kernel, by decide +kernel⟩,
     by decide +kernel, no_rst (by decide +kernel), fun _ => no_order (by decide +kernel), by decide +kernel⟩,
   ⟨wPush 6 [(MEAS_REQ_W0_RING, 15), (MEAS_REQ_W0_KIND, 2), (MEAS_REQ_W0_CH_A, 11), (MEAS_REQ_W2_PARAM_A, 1)], 1600,
     6, false, .timestampStreamPush 1600 ⟨6, false⟩, 2, .stream, 0, ⟨by decide +kernel, by decide +kernel⟩,
     by decide +kernel, no_rst (by decide +kernel), fun _ => no_order (by decide +kernel), by decide +kernel⟩,
   ⟨wPush 6 [(MEAS_REQ_W0_RING, 15), (MEAS_REQ_W0_KIND, 3), (MEAS_REQ_W0_CH_A, 11), (MEAS_REQ_W2_PARAM_A, 2)], 1600,
     6, false, .periodStatisticsPush 1600 ⟨6, false⟩, 3, .period, 0, ⟨by decide +kernel, by decide +kernel⟩,
     by decide +kernel, no_rst (by decide +kernel), fun _ => no_order (by decide +kernel), by decide +kernel⟩,
   ⟨wRun, 1600, 6, false, .timeIntervalPush 1600 ⟨6, false⟩, 0, .interval, ⟨by decide +kernel, by decide +kernel⟩,
     by decide +kernel, no_rst (by decide +kernel), fun _ => no_order (by decide +kernel), by decide +kernel⟩,
   ⟨wPush 6 [(MEAS_REQ_W0_KIND, 15)], 6, false, ⟨by decide +kernel, by decide +kernel⟩, by decide +kernel, no_rst
     (by decide +kernel), fun _ => no_order (by decide +kernel), by decide +kernel⟩,
   ⟨wPush 6 [(MEAS_REQ_W0_KIND, 6)], 6, false, ⟨by decide +kernel, by decide +kernel⟩, by decide +kernel, no_rst
     (by decide +kernel), fun _ => no_order (by decide +kernel), by decide +kernel⟩,
   ⟨wPush 6 [(MEAS_REQ_W0_RING, 15), (MEAS_REQ_W0_KIND, 4)], 6, false, _, _, _, _, _, _, _, _, ⟨by decide +kernel,
     by decide +kernel⟩, by decide +kernel, no_rst (by decide +kernel), fun _ => no_order (by decide +kernel), rfl,
     rfl, rfl, rfl, rfl, rfl, rfl, rfl⟩⟩

/-- States and operands that meet the hypotheses of each clause of AbortsEndOpenJobs. -/
theorem wit_AbortsEndOpenJobs :
    (∃ (s : State) (m slot : Nat) (j : Job), s.dev.Grants m rMEAS_ABORT ∧ s.dev.jobs.slots.length = 128 ∧ slot < 128
      ∧ s.dev.job slot = some j ∧ j.tag = s.dev.rdPm m MEAS_ABORT_TAG_TAG ∧ j.done = none) ∧
    (∃ (s : State) (m slot : Nat) (j : Job), s.dev.Grants m rMEAS_ABORT ∧ s.dev.jobs.slots.length = 128 ∧ slot < 128
      ∧ s.dev.job slot = some j ∧ j.tag = s.dev.rdPm m MEAS_ABORT_TAG_TAG ∧ j.done.isSome = true) ∧
    (∃ (s : State) (m slot : Nat), s.dev.Grants m rMEAS_ABORT ∧ s.dev.jobs.slots.length = 128 ∧ slot < 128 ∧ (∀ (j :
      Job), s.dev.job slot = some j → j.tag ≠ s.dev.rdPm m MEAS_ABORT_TAG_TAG)) ∧
    (∃ (s : State) (m slot : Nat), s.dev.Grants m rMEAS_ABORT ∧ s.dev.jobs.slots.length = 128 ∧ slot < 128 ∧ (∀ (j :
      Job), s.dev.job slot = some j → j.tag ≠ s.dev.rdPm m MEAS_ABORT_TAG_TAG)) ∧
    (∃ (s : State) (m ring : Nat), s.dev.Grants m rMEAS_ABORT ∧ s.dev.jobs.slots.length = 128 ∧ ring < 16) ∧
    (∃ (s : State) (m : Nat), s.dev.Grants m rMEAS_ABORT ∧ s.dev.jobs.slots.length = 128) :=
  ⟨⟨wJob job0, 6, 127, job0, ⟨by decide +kernel, by decide +kernel⟩, by decide +kernel⟩,
   ⟨wJob { job0 with done := some done0 }, 6, 127, { job0 with done := some done0 }, ⟨by decide +kernel,
     by decide +kernel⟩, by decide +kernel⟩,
   ⟨wJob { job0 with tag := 8 }, 6, 127, ⟨by decide +kernel, by decide +kernel⟩, by decide +kernel,
     by decide +kernel, all_some (by decide +kernel)⟩,
   ⟨wRun, 6, 127, ⟨by decide +kernel, by decide +kernel⟩, by decide +kernel, by decide +kernel, all_some
     (by decide +kernel)⟩,
   ⟨wJob job0, 6, 15, ⟨by decide +kernel, by decide +kernel⟩, by decide +kernel⟩,
   ⟨wJob job0, 6, ⟨by decide +kernel, by decide +kernel⟩, by decide +kernel⟩⟩

/-- States and operands that meet the hypotheses of each clause of TimersFixResults. -/
theorem wit_TimersFixResults :
    (∃ (s : State) (k : Nat) (j : Job) (ecc : List Nat) (t c : Nat), s.dev.measuring = true ∧ k < 128 ∧
      s.dev.jobs.slots.length = 128 ∧ s.dev.job k = some j ∧ j.done = none ∧ (¬k ∈ ecc) ∧ j.bad = false ∧ j.kind =
      JobKind.interval ∧ j.start = some t ∧ j.cand = some c) ∧
    (∃ (s : State) (k : Nat) (j : Job) (ecc : List Nat) (t : Nat), s.dev.measuring = true ∧ k < 128 ∧
      s.dev.jobs.slots.length = 128 ∧ s.dev.job k = some j ∧ j.done = none ∧ (¬k ∈ ecc) ∧ j.bad = false ∧ j.kind =
      JobKind.interval ∧ j.start = some t ∧ j.cand = none) ∧
    (∃ (s : State) (k : Nat) (j : Job) (ecc : List Nat), s.dev.measuring = true ∧ k < 128 ∧ s.dev.jobs.slots.length =
      128 ∧ s.dev.job k = some j ∧ j.done = none ∧ (¬k ∈ ecc) ∧ j.bad = false ∧ j.kind = JobKind.freq) ∧
    (∃ (s : State) (dt k : Nat) (j : Job) (ecc : List Nat) (c : Instr), s.dev.measuring = true ∧ k < 128 ∧
      s.dev.jobs.slots.length = 128 ∧ s.dev.job k = some j ∧ j.done = none ∧ (k ∈ ecc ∨ j.bad = true) ∧ c ∈
      [Instr.intervalTimeout dt k ecc, Instr.intervalEarlyMatch dt k ecc, Instr.freqGateTimeout dt k ecc]) ∧
    (∃ (s : State) (dt k : Nat) (j : Job) (ecc : List Nat) (c : Instr), s.dev.measuring = true ∧ k < 128 ∧
      s.dev.jobs.slots.length = 128 ∧ s.dev.job k = some j ∧ j.done = none ∧ (k ∈ ecc ∨ j.bad = true) ∧ c ∈
      [Instr.intervalTimeout dt k ecc, Instr.intervalEarlyMatch dt k ecc, Instr.freqGateTimeout dt k ecc]) ∧
    (∃ (s : State) (dt k : Nat) (j : Job) (ecc : List Nat) (c : Instr), s.dev.measuring = true ∧ k < 128 ∧
      s.dev.jobs.slots.length = 128 ∧ s.dev.job k = some j ∧ j.done = none ∧ (k ∈ ecc ∨ j.bad = true) ∧ c ∈
      [Instr.intervalTimeout dt k ecc, Instr.intervalEarlyMatch dt k ecc, Instr.freqGateTimeout dt k ecc]) :=
  ⟨⟨wJob { job0 with start := some 3, cand := some 9 }, 127, { job0 with start := some 3, cand := some 9 }, [], 3,
      9, by decide +kernel⟩,
   ⟨wJob { job0 with start := some 3 }, 127, { job0 with start := some 3 }, [], 3, by decide +kernel⟩,
   ⟨wJob { job0 with kind := .freq }, 127, { job0 with kind := .freq }, [], by decide +kernel⟩,
   ⟨wJob job0, 1600, 127, job0, [127], .intervalTimeout 1600 127 [127], by decide +kernel⟩,
   ⟨wJob job0, 1600, 127, job0, [127], .intervalEarlyMatch 1600 127 [127], by decide +kernel⟩,
   ⟨wJob job0, 1600, 127, job0, [127], .freqGateTimeout 1600 127 [127], by decide +kernel⟩⟩

/-- States and operands that meet the hypotheses of each clause of RingsWriteRecords. -/
theorem wit_RingsWriteRecords :
    (∃ (s : State) (dt r seq a : Nat) (rest : List WRec) (behind : Bool) (e0 n ch tag payload : Nat) (inj : Bool), r
      < 16 ∧ s.dev.ringsRun = true ∧ r < s.dev.jobs.rings.length ∧ (s.dev.ring r).wroteAt ≠ some (Dev.advance dt
      s.dev).clk.edge ∧ a + 16 ≤ 1572864 ∧ behind = Ring.hasEpoch { s.dev.ring r with wq := rest } ∧ seq = s.dev.rd
      (TQ_HEAD_HEAD r) ∧ a = 1048576 + 16 * (256 * s.dev.rd (TQ_CFG_BASE r) + seq % s.dev.ringSize r) ∧ (s.dev.ring
      r).wq = WRec.paddock e0 n ch tag payload inj :: rest ∧ 2 ≤ s.dev.ringFree r ∧ behind = Ring.hasEpoch
      { s.dev.ring r with wq := rest }) ∧
    (∃ (s : State) (dt r seq a : Nat) (rest : List WRec) (behind : Bool) (e0 n ch tag payload : Nat) (inj : Bool), r
      < 16 ∧ s.dev.ringsRun = true ∧ r < s.dev.jobs.rings.length ∧ (s.dev.ring r).wroteAt ≠ some (Dev.advance dt
      s.dev).clk.edge ∧ a + 16 ≤ 1572864 ∧ behind = Ring.hasEpoch { s.dev.ring r with wq := rest } ∧ seq = s.dev.rd
      (TQ_HEAD_HEAD r) ∧ a = 1048576 + 16 * (256 * s.dev.rd (TQ_CFG_BASE r) + seq % s.dev.ringSize r) ∧ (s.dev.ring
      r).wq = WRec.paddock e0 n ch tag payload inj :: rest ∧ (s.dev.ringFree r < 2 ∨ behind = true)) ∧
    (∃ (s : State) (dt r seq a : Nat) (rest : List WRec) (behind : Bool) (e0 k : Nat) (j : Job) (dn : Done), r < 16 ∧
      s.dev.ringsRun = true ∧ r < s.dev.jobs.rings.length ∧ (s.dev.ring r).wroteAt ≠ some (Dev.advance dt
      s.dev).clk.edge ∧ a + 16 ≤ 1572864 ∧ behind = Ring.hasEpoch { s.dev.ring r with wq := rest } ∧ seq = s.dev.rd
      (TQ_HEAD_HEAD r) ∧ a = 1048576 + 16 * (256 * s.dev.rd (TQ_CFG_BASE r) + seq % s.dev.ringSize r) ∧ (s.dev.ring
      r).wq = WRec.completion e0 k :: rest ∧ k < 128 ∧ s.dev.job k = some j ∧ j.done = some dn ∧ 0 < s.dev.ringFree
      r) ∧
    (∃ (s : State) (dt r seq a : Nat) (rest : List WRec) (behind : Bool) (e0 k : Nat) (j : Job) (dn : Done), r < 16 ∧
      s.dev.ringsRun = true ∧ r < s.dev.jobs.rings.length ∧ (s.dev.ring r).wroteAt ≠ some (Dev.advance dt
      s.dev).clk.edge ∧ a + 16 ≤ 1572864 ∧ behind = Ring.hasEpoch { s.dev.ring r with wq := rest } ∧ seq = s.dev.rd
      (TQ_HEAD_HEAD r) ∧ a = 1048576 + 16 * (256 * s.dev.rd (TQ_CFG_BASE r) + seq % s.dev.ringSize r) ∧ (s.dev.ring
      r).wq = WRec.completion e0 k :: rest ∧ k < 128 ∧ s.dev.job k = some j ∧ j.done = some dn ∧ s.dev.ringFree r =
      0) ∧
    (∃ (s : State) (dt r seq a : Nat) (rest : List WRec) (behind : Bool) (t : Dev), r < 16 ∧ s.dev.ringsRun = true ∧
      r < s.dev.jobs.rings.length ∧ (s.dev.ring r).wroteAt ≠ some (Dev.advance dt s.dev).clk.edge ∧ a + 16 ≤ 1572864
      ∧ behind = Ring.hasEpoch { s.dev.ring r with wq := rest } ∧ seq = s.dev.rd (TQ_HEAD_HEAD r) ∧ a = 1048576 + 16
      * (256 * s.dev.rd (TQ_CFG_BASE r) + seq % s.dev.ringSize r) ∧ (t.ring r).wroteAt = some t.clk.edge) :=
  ⟨⟨wRing [(TQ_HEAD_HEAD 15, 0xFFFF), (TQ_TAIL_TAIL 15, 0xFF01)] (fun g =>
      { g with wq := [.paddock 3 15 11 5 7 true] }), 1600, 15, 0xFFFF, 1048576 + 16 * 255, [], _, 3, 15, 11, 5, 7,
      true, by decide +kernel, by decide +kernel, by decide +kernel, by decide +kernel, by decide +kernel, rfl,
      by decide +kernel, by decide +kernel, by decide +kernel, by decide +kernel, rfl⟩,
   ⟨wRing [(TQ_HEAD_HEAD 15, 0xFFFF), (TQ_TAIL_TAIL 15, 0xFF00)] (fun g =>
     { g with wq := [.paddock 3 15 11 5 7 true] }), 1600, 15, 0xFFFF, 1048576 + 16 * 255, [], _, 3, 15, 11, 5, 7,
     true, by decide +kernel, by decide +kernel, by decide +kernel, by decide +kernel, by decide +kernel, rfl,
     by decide +kernel⟩,
   ⟨wRingJob [(TQ_HEAD_HEAD 15, 0xFFFF), (TQ_TAIL_TAIL 15, 0xFF00)], 1600, 15, 0xFFFF, 1048576 + 16 * 255, [], _, 3,
     127, { job0 with done := some done0 }, done0, by decide +kernel, by decide +kernel, by decide +kernel,
     by decide +kernel, by decide +kernel, rfl, by decide +kernel⟩,
   ⟨wRingJob [(TQ_HEAD_HEAD 15, 0xFFFF), (TQ_TAIL_TAIL 15, 0xFEFF)], 1600, 15, 0xFFFF, 1048576 + 16 * 255, [], _, 3,
     127, { job0 with done := some done0 }, done0, by decide +kernel, by decide +kernel, by decide +kernel,
     by decide +kernel, by decide +kernel, rfl, by decide +kernel⟩,
   ⟨wRing [] id, 1600, 15, _, 1048576, [], _, ((wRing [] fun g =>
     { g with wroteAt := some (Dev.released.clk.edge) }).dev), by decide +kernel, by decide +kernel,
     by decide +kernel, by decide +kernel, by decide +kernel, rfl, rfl, by decide +kernel⟩⟩

/-- States and operands that meet the hypotheses of each clause of RingControls. -/
theorem wit_RingControls :
    (∃ (s : State) (dt r : Nat), r < 16 ∧ r < s.dev.jobs.rings.length ∧ s.dev.ringOpen r = true ∧ s.dev.flag
      (TQ_CFG_EPOCH_EN r) = true ∧ (∀ (p : Nat × Nat), (s.dev.ring r).epochAt = some p → p.fst ≠ (Dev.advance dt
      s.dev).clk.edge) ∧ (∀ (w : WRec), w ∈ (s.dev.ring r).wq → w.edge ≠ (Dev.advance dt s.dev).clk.edge)) ∧
    (∃ (s : State) (dt m r : Nat), r < 16 ∧ r < s.dev.jobs.rings.length ∧ s.dev.ringOpen r = true ∧ s.dev.flag
      (TQ_CFG_EPOCH_EN r) = true ∧ (∀ (p : Nat × Nat), (s.dev.ring r).epochAt = some p → p.fst ≠ (Dev.advance dt
      s.dev).clk.edge) ∧ (∀ (w : WRec), w ∈ (s.dev.ring r).wq → w.edge ≠ (Dev.advance dt s.dev).clk.edge) ∧
      s.dev.Grants m (rTQ_CMD r)) ∧
    (∃ (s : State) (m r : Nat), r < 16 ∧ r < s.dev.jobs.rings.length ∧ s.dev.flag (TQ_CFG_EPOCH_EN r) = false ∧
      s.dev.Grants m (rTQ_CMD r)) ∧
    (∃ (s : State) (dt r : Nat), r < 16 ∧ r < s.dev.jobs.rings.length ∧ s.dev.flag (TQ_STAT_DISABLING r) = true ∧
      (s.dev.ring r).wq = [] ∧ s.dev.firstOf r = none ∧ 0 < s.dev.ringFree r ∧ (s.dev.ring r).wroteAt ≠ some
      (Dev.advance dt s.dev).clk.edge) ∧
    (∃ (s : State) (r : Nat), r < 16 ∧ r < s.dev.jobs.rings.length ∧ s.dev.flag (TQ_STAT_DISABLING r) = true ∧
      s.dev.firstOf r ≠ none) ∧
    (∃ (s : State) (m r tail : Nat), r < 16 ∧ r < s.dev.jobs.rings.length ∧ tail < 2 ^ 16 ∧ s.dev.Grants m (rTQ_TAIL
      r) ∧ s.dev.flag (TQ_CFG_MODE r) = false ∧ (tail + 65536 - s.dev.rd (TQ_TAIL_TAIL r)) % 65536 ≤ s.dev.ringCount
      r) ∧
    (∃ (s : State) (m r tail : Nat), r < 16 ∧ r < s.dev.jobs.rings.length ∧ tail < 2 ^ 16 ∧ s.dev.Grants m (rTQ_TAIL
      r) ∧ (s.dev.flag (TQ_CFG_MODE r) = true ∨ s.dev.ringCount r < (tail + 65536 - s.dev.rd (TQ_TAIL_TAIL r)) %
      65536)) ∧
    (∃ (s : State) (m r tail : Nat), r < 16 ∧ r < s.dev.jobs.rings.length ∧ tail < 2 ^ 16 ∧ s.dev.Grants m (rTQ_TAIL
      r) ∧ (s.dev.flag (TQ_CFG_MODE r) = true ∨ s.dev.ringCount r < (tail + 65536 - s.dev.rd (TQ_TAIL_TAIL r)) %
      65536)) :=
  ⟨⟨wRing [(TQ_CFG_EPOCH_EN 15, 1)] id, 1600, 15, by decide +kernel, by decide +kernel, by decide +kernel,
      by decide +kernel, all_some (by decide +kernel), by decide +kernel⟩,
   ⟨wRing [(TQ_CFG_EPOCH_EN 15, 1)] id, 1600, 6, 15, by decide +kernel, by decide +kernel, by decide +kernel,
     by decide +kernel, all_some (by decide +kernel), by decide +kernel, ⟨by decide +kernel, by decide +kernel⟩⟩,
   ⟨wRing [(TQ_CFG_EPOCH_EN 15, 0)] id, 6, 15, by decide +kernel, by decide +kernel, by decide +kernel,
     ⟨by decide +kernel, by decide +kernel⟩⟩,
   ⟨wRing [(TQ_STAT_DISABLING 15, 1)] id, 1600, 15, by decide +kernel⟩,
   ⟨wRingJob [(TQ_STAT_DISABLING 15, 1)], 15, by decide +kernel⟩,
   ⟨wRing [(TQ_HEAD_HEAD 15, 3), (TQ_TAIL_TAIL 15, 0xFFFF)] id, 6, 15, 3, by decide +kernel, by decide +kernel,
     by decide +kernel, ⟨by decide +kernel, by decide +kernel⟩, by decide +kernel⟩,
   ⟨wRing [(TQ_HEAD_HEAD 15, 3), (TQ_TAIL_TAIL 15, 0xFFFF)] id, 6, 15, 4, by decide +kernel, by decide +kernel,
     by decide +kernel, ⟨by decide +kernel, by decide +kernel⟩, by decide +kernel⟩,
   ⟨wRing [(TQ_HEAD_HEAD 15, 3), (TQ_TAIL_TAIL 15, 0xFFFF), (TQ_CFG_MODE 15, 1)] id, 6, 15, 3, by decide +kernel,
     by decide +kernel, by decide +kernel, ⟨by decide +kernel, by decide +kernel⟩, by decide +kernel⟩⟩

/-- States and operands that meet the hypotheses of each clause of TallyPortFrames. -/
theorem wit_TallyPortFrames :
    (∃ (s : State) (r : Nat), r < 16 ∧ r < s.dev.jobs.rings.length ∧ s.dev.flag TP_CTL_ENABLE = true ∧ s.dev.flag
      (TQ_CFG_MODE r) = true ∧ s.dev.jobs.tp.closed = [] ∧ s.dev.unsent r ≠ 0) ∧
    (∃ (s : State) (r lane : Nat) (f : TpFrame) (no : Nat), r < 16 ∧ r < s.dev.jobs.rings.length ∧ s.dev.flag
      TP_CTL_ENABLE = true ∧ s.dev.flag (TQ_CFG_MODE r) = true ∧ (lane = 0 ∧ s.dev.flag TP_STAT_TX0_UP = true ∨ lane
      = 1 ∧ s.dev.flag TP_STAT_TX1_UP = true) ∧ s.dev.tpNextFrame = some f ∧ f.ring = r ∧ no =
      s.dev.jobs.tp.frameNo.getD lane 0) ∧
    (∃ (s : State) (r seq w : Nat), r < 16 ∧ r < s.dev.jobs.rings.length ∧ s.dev.flag TP_CTL_ENABLE = true ∧
      s.dev.flag (TQ_CFG_MODE r) = true ∧ w = (seq % 65536 + 65537 - s.dev.rd (TQ_TAIL_TAIL r)) % 65536 ∧ 0 < w ∧ w ≤
      (s.dev.ring r).top) ∧
    (∃ (s : State) (r seq w : Nat), r < 16 ∧ r < s.dev.jobs.rings.length ∧ s.dev.flag TP_CTL_ENABLE = true ∧
      s.dev.flag (TQ_CFG_MODE r) = true ∧ w = (seq % 65536 + 65537 - s.dev.rd (TQ_TAIL_TAIL r)) % 65536 ∧ (w = 0 ∨
      (s.dev.ring r).top < w)) ∧
    (∃ (s : State) (r seq w : Nat), r < 16 ∧ r < s.dev.jobs.rings.length ∧ s.dev.flag TP_CTL_ENABLE = true ∧
      s.dev.flag (TQ_CFG_MODE r) = true ∧ w = (seq % 65536 + 65537 - s.dev.rd (TQ_TAIL_TAIL r)) % 65536 ∧ (w = 0 ∨
      (s.dev.ring r).top < w)) ∧
    (∃ (s : State) (r seq w : Nat), r < 16 ∧ r < s.dev.jobs.rings.length ∧ s.dev.flag TP_CTL_ENABLE = true ∧
      s.dev.flag (TQ_CFG_MODE r) = true ∧ w = (seq % 65536 + 65536 - s.dev.rd (TQ_TAIL_TAIL r)) % 65536 ∧ w ≤
      (s.dev.ring r).top) ∧
    (∃ (s : State) (dt r q seq crc : Nat) (c : Instr), r < 16 ∧ r < s.dev.jobs.rings.length ∧ s.dev.flag
      TP_CTL_ENABLE = true ∧ s.dev.flag (TQ_CFG_MODE r) = true ∧ (c = Instr.tpAckRx dt q seq crc ∧ (16 ≤ q ∨ crc ≠
      ackCrc 1 q seq) ∨ c = Instr.tpNakRx dt q seq crc ∧ (16 ≤ q ∨ crc ≠ ackCrc 2 q seq))) ∧
    (∃ (s : State) (dt r q seq crc : Nat) (c : Instr), r < 16 ∧ r < s.dev.jobs.rings.length ∧ s.dev.flag
      TP_CTL_ENABLE = true ∧ s.dev.flag (TQ_CFG_MODE r) = true ∧ (c = Instr.tpAckRx dt q seq crc ∧ (16 ≤ q ∨ crc ≠
      ackCrc 1 q seq) ∨ c = Instr.tpNakRx dt q seq crc ∧ (16 ≤ q ∨ crc ≠ ackCrc 2 q seq))) ∧
    (∃ (s : State) (dt r : Nat), r < 16 ∧ r < s.dev.jobs.rings.length ∧ s.dev.flag TP_CTL_ENABLE = true ∧ s.dev.flag
      (TQ_CFG_MODE r) = true ∧ 0 < (s.dev.ring r).top ∧ (∀ (t : Nat), (s.dev.ring r).replayFrom = some t → t / 4 ≠
      (s.dev.clk.tclk + dt) / 4)) ∧
    (∃ (s : State), s.dev.flag TP_CTL_ENABLE = true ∧ s.dev.flag TP_STAT_TX0_UP = true ∧ s.dev.jobs.tp.laneBad.length
      = 2) ∧
    (∃ (s : State), s.dev.flag TP_STAT_TX1_UP = false) ∧
    (∃ (s : State), s.dev.flag TP_CTL_ENABLE = true ∧ s.dev.flag TP_STAT_RX_UP = false ∧ (¬(23, 1) ∈ s.dev.flt.live)) :=
  ⟨⟨wTp [(TQ_HEAD_HEAD 15, 3), (TQ_TAIL_TAIL 15, 0xFFFF)] id, 15, by decide +kernel⟩,
   ⟨wTp [(TP_STAT_TX1_UP, 1)] (fun t => { t with closed := [⟨15, 0, 3⟩] }), 15, 1, ⟨15, 0, 3⟩, _, by decide +kernel,
     by decide +kernel, by decide +kernel, by decide +kernel, by decide +kernel, by decide +kernel,
     by decide +kernel, rfl⟩,
   ⟨wSent, 15, 4, 5, by decide +kernel⟩,
   ⟨wSent, 15, 5, 6, by decide +kernel⟩,
   ⟨wSent, 15, 0xFFFF, 0, by decide +kernel⟩,
   ⟨wSent, 15, 5, 5, by decide +kernel⟩,
   ⟨wSent, 1600, 15, 15, 5, 0, .tpAckRx 1600 15 5 0, by decide +kernel⟩,
   ⟨wSent, 1600, 15, 16, 5, ackCrc 2 16 5, .tpNakRx 1600 16 5 (ackCrc 2 16 5), by decide +kernel⟩,
   ⟨wSent, 1600, 15, by decide +kernel, by decide +kernel, by decide +kernel, by decide +kernel, by decide +kernel,
     all_some (by decide +kernel)⟩,
   ⟨wTp [(TP_STAT_TX0_UP, 1)] id, by decide +kernel⟩,
   ⟨wTp [] id, by decide +kernel⟩,
   ⟨wTp [] id, by decide +kernel⟩⟩

/-- States and operands that meet the hypotheses of each clause of PaddockUpdates. -/
theorem wit_PaddockUpdates :
    (∃ (s : State) (n t : Nat) (absorb : Int) (rest : List (Nat × Int)) (later : List Nat) (r : Int), n < 16 ∧ n <
      s.dev.pads.length ∧ s.dev.padLive n = true ∧ (s.dev.padKind n = 0 ∨ s.dev.padKind n = 2) ∧ (s.dev.pad n).refQ =
      (t, absorb) :: rest ∧ r = ↑t + s.dev.refShift n ∧ later = List.filter (s.dev.pairFrom n r) (s.dev.pad n).fbQ ∧
      List.find? (s.dev.pairTo n r) later = none) ∧
    (∃ (s : State) (n t : Nat) (absorb : Int) (rest : List (Nat × Int)) (later : List Nat) (r : Int), n < 16 ∧ n <
      s.dev.pads.length ∧ s.dev.padLive n = true ∧ (s.dev.padKind n = 0 ∨ s.dev.padKind n = 2) ∧ (s.dev.pad n).refQ =
      (t, absorb) :: rest ∧ r = ↑t + s.dev.refShift n ∧ later = List.filter (s.dev.pairFrom n r) (s.dev.pad n).fbQ ∧
      List.find? (s.dev.pairTo n r) later = none) ∧
    (∃ (s : State) (n t : Nat) (absorb : Int) (rest : List (Nat × Int)) (later : List Nat) (r : Int) (f : Nat), n <
      16 ∧ n < s.dev.pads.length ∧ s.dev.padLive n = true ∧ (s.dev.padKind n = 0 ∨ s.dev.padKind n = 2) ∧ (s.dev.pad
      n).refQ = (t, absorb) :: rest ∧ r = ↑t + s.dev.refShift n ∧ later = List.filter (s.dev.pairFrom n r) (s.dev.pad
      n).fbQ ∧ List.find? (s.dev.pairTo n r) later = some f ∧ (s.dev.pad n).first = false) ∧
    (∃ (s : State) (n : Nat), n < 16 ∧ n < s.dev.pads.length) ∧
    (∃ (s : State) (n : Nat), n < 16 ∧ n < s.dev.pads.length ∧ s.dev.padLive n = true) ∧
    (∃ (s : State) (n : Nat), n < 16 ∧ n < s.dev.pads.length ∧ s.dev.padLive n = true ∧ (s.dev.padKind n = 0 ∨
      s.dev.padKind n = 2) ∧ s.dev.flag (PAD_STATE_FB_LOSS n) = false) ∧
    (∃ (s : State) (n b t t' : Nat) (rest : List Nat), n < 16 ∧ n < s.dev.pads.length ∧ b < 8 ∧ b <
      s.dev.beats.length ∧ s.dev.measuring = true ∧ s.dev.flag (BN_CFG_STEER_V b) = true ∧ (s.dev.beat b).queue = t
      :: rest ∧ (s.dev.beat b).lastTs = some t' ∧ t' < t ∧ 2 * (t - t') * (s.dev.spacing (12 + b)).snd ≤ 3 *
      (s.dev.spacing (12 + b)).fst) ∧
    (∃ (s : State) (n b t t' : Nat) (rest : List Nat), n < 16 ∧ n < s.dev.pads.length ∧ b < 8 ∧ b <
      s.dev.beats.length ∧ s.dev.measuring = true ∧ s.dev.flag (BN_CFG_STEER_V b) = true ∧ (s.dev.beat b).queue = t
      :: rest ∧ (s.dev.beat b).lastTs = some t' ∧ 3 * (s.dev.spacing (12 + b)).fst < 2 * (t - t') * (s.dev.spacing
      (12 + b)).snd) :=
  ⟨⟨wPad 0 2 [] (fun p => { p with refQ := [(10^15, 3)], fbQ := [] }), 15, 10^15, 3, [], _, _, by decide +kernel,
      by decide +kernel, by decide +kernel, by decide +kernel, by decide +kernel, rfl, rfl, by decide +kernel⟩,
   ⟨wPad 0 2 [] (fun p => { p with refQ := [(10^15, 3)], fbQ := [10^15 + 32768000000000] }), 15, 10^15, 3, [], [10^15
     + 32768000000000], _, by decide +kernel, by decide +kernel, by decide +kernel, by decide +kernel,
     by decide +kernel, rfl, by decide +kernel⟩,
   ⟨wPad 0 2 [] (fun p => { p with refQ := [(10^15, 3)], fbQ := [10^15 + 32767999999999] }), 15, 10^15, 3, [], [10^15
     + 32767999999999], _, 10^15 + 32767999999999, by decide +kernel, by decide +kernel, by decide +kernel,
     by decide +kernel, by decide +kernel, rfl, by decide +kernel⟩,
   ⟨wRun, 15, by decide +kernel⟩,
   ⟨wPad 0 2 [] id, 15, by decide +kernel⟩,
   ⟨wPad 0 2 [] id, 15, by decide +kernel⟩,
   ⟨wBeat [] (fun b => { b with queue := [98304001], lastTs := some 1 }), 15, 7, 98304001, 1, [], by decide +kernel⟩,
   ⟨wBeat [] (fun b => { b with queue := [98304002], lastTs := some 1 }), 15, 7, 98304002, 1, [], by decide +kernel⟩⟩

/-- States and operands that meet the hypotheses of each clause of PaddockSchedules. -/
theorem wit_PaddockSchedules :
    (∃ (s : State) (dt m n : Nat) (u : Int × Int), n < 16 ∧ n < s.dev.pads.length ∧ u = (s.dev.rdS
      (PAD_TSTEP_SEC_STEP n), s.dev.rdS (PAD_TSTEP_NS_STEP n)) ∧ s.dev.Grants m (rPAD_TSTEP_CMD n) ∧ (s.dev.padTk n =
      false ∨ 999999999 < u.snd.natAbs ∨ (s.dev.pad n).tstep.isSome = true ∨ (Dev.advance dt s.dev).stepBelow
      (stepUnits u) = true)) ∧
    (∃ (s : State) (dt m n : Nat) (u : Int × Int), n < 16 ∧ n < s.dev.pads.length ∧ u = (s.dev.rdS
      (PAD_TSTEP_SEC_STEP n), s.dev.rdS (PAD_TSTEP_NS_STEP n)) ∧ s.dev.Grants m (rPAD_TSTEP_CMD n) ∧ (s.dev.padTk n =
      false ∨ 999999999 < u.snd.natAbs ∨ (s.dev.pad n).tstep.isSome = true ∨ (Dev.advance dt s.dev).stepBelow
      (stepUnits u) = true)) ∧
    (∃ (s : State) (dt m n : Nat) (u : Int × Int), n < 16 ∧ n < s.dev.pads.length ∧ u = (s.dev.rdS
      (PAD_TSTEP_SEC_STEP n), s.dev.rdS (PAD_TSTEP_NS_STEP n)) ∧ s.dev.Grants m (rPAD_TSTEP_CMD n) ∧ s.dev.padTk n =
      true ∧ u.snd.natAbs ≤ 999999999 ∧ (s.dev.pad n).tstep = none ∧ (Dev.advance dt s.dev).stepBelow (stepUnits u) =
      false ∧ s.dev.padUpdating n = true) ∧
    (∃ (s : State) (dt m n : Nat) (u : Int × Int), n < 16 ∧ n < s.dev.pads.length ∧ u = (s.dev.rdS
      (PAD_TSTEP_SEC_STEP n), s.dev.rdS (PAD_TSTEP_NS_STEP n)) ∧ s.dev.Grants m (rPAD_TSTEP_CMD n) ∧ s.dev.padTk n =
      true ∧ u.snd.natAbs ≤ 999999999 ∧ (s.dev.pad n).tstep = none ∧ (Dev.advance dt s.dev).stepBelow (stepUnits u) =
      false ∧ s.dev.padUpdating n = false) ∧
    (∃ (s : State) (n : Nat), n < 16 ∧ n < s.dev.pads.length ∧ s.dev.applied = true ∧ s.dev.padSt n = 4 ∧ s.dev.rd
      (PAD_SCFG_STEER_TMO n) ≠ 0 ∧ s.dev.padKind n < 2) ∧
    (∃ (s : State) (n : Nat) (k : Int), n < 16 ∧ n < s.dev.pads.length ∧ s.dev.applied = true ∧ s.dev.padSt n = 4 ∧
      s.dev.padUpdating n = false ∧ k = min ↑(s.dev.pad n).spoRem.natAbs ↑(s.dev.slewPer n (s.dev.rdIn
      (PAD_SCFG_PSLEW n) 1 65535)) ∧ 0 ≤ (s.dev.pad n).spoRem) ∧
    (∃ (s : State) (n : Nat) (k : Int), n < 16 ∧ n < s.dev.pads.length ∧ s.dev.applied = true ∧ s.dev.padSt n = 4 ∧
      s.dev.padUpdating n = false ∧ k = min ↑(s.dev.pad n).spoRem.natAbs ↑(s.dev.slewPer n (s.dev.rdIn
      (PAD_SCFG_PSLEW n) 1 65535)) ∧ (s.dev.pad n).spoRem < 0) ∧
    (∃ (s : State) (n : Nat), n < 16 ∧ n < s.dev.pads.length ∧ s.dev.applied = true ∧ s.dev.flag (PAD_CTL_MODEL_EN n)
      = true ∧ s.dev.flag (PAD_STATE_MODEL_STALE n) = false) ∧
    (∃ (s : State) (n : Nat), n < 16 ∧ n < s.dev.pads.length ∧ s.dev.clk.bootclk = false ∧ s.dev.running = true) ∧
    (∃ (s : State) (n : Nat), n < 16 ∧ n < s.dev.pads.length ∧ s.dev.clk.bootclk = true) ∧
    (∃ (s : State) (n : Nat), n < 16 ∧ n < s.dev.pads.length ∧ s.dev.clk.bootclk = false) ∧
    (∃ (s : State) (n : Nat), n < 16 ∧ n < s.dev.pads.length ∧ s.dev.applied = true ∧ (s.dev.pad n).learn = true) ∧
    (∃ (s : State) (n : Nat), n < 16 ∧ n < s.dev.pads.length ∧ s.dev.applied = true ∧ (s.dev.pad n).learn = false) :=
  ⟨⟨wRun, 1600, 6, 15, (0, 0), by decide +kernel, by decide +kernel, by decide +kernel, ⟨by decide +kernel,
      by decide +kernel⟩, by decide +kernel⟩,
   ⟨wTk [(PAD_TSTEP_NS_STEP 15, 1000000000)], 1600, 6, 15, (0, 1000000000), by decide +kernel, by decide +kernel,
     by decide +kernel, ⟨by decide +kernel, by decide +kernel⟩, by decide +kernel⟩,
   ⟨wTk [(PAD_TSTEP_NS_STEP 15, 999999999), (PAD_STATE_STATE 15, 2)], 1600, 6, 15, (0, 999999999), by decide +kernel,
     by decide +kernel, by decide +kernel, ⟨by decide +kernel, by decide +kernel⟩, by decide +kernel⟩,
   ⟨wTk [(PAD_TSTEP_NS_STEP 15, 999999999)], 1600, 6, 15, (0, 999999999), by decide +kernel, by decide +kernel,
     by decide +kernel, ⟨by decide +kernel, by decide +kernel⟩, by decide +kernel⟩,
   ⟨wPad 0 4 [(PAD_SCFG_STEER_TMO 15, 1)] id, 15, by decide +kernel⟩,
   ⟨wPad 0 4 [(PAD_STATE_ACTIVE_V 15, 0), (PAD_CAND_CFG_VALID 15 0, 1), (PAD_CAND_CFG_CH 15 0, 11), (PAD_SCFG_PSLEW
     15, 1)] (fun p => { p with spoRem := 5 }), 15, 5, by decide +kernel⟩,
   ⟨wPad 0 4 [(PAD_STATE_ACTIVE_V 15, 0), (PAD_CAND_CFG_VALID 15 0, 1), (PAD_CAND_CFG_CH 15 0, 11), (PAD_SCFG_PSLEW
     15, 1)] (fun p => { p with spoRem := -5 }), 15, 5, by decide +kernel⟩,
   ⟨wPad 0 2 [(PAD_CTL_MODEL_EN 15, 1), (PAD_STATE_MODEL_STALE 15, 0)] id, 15, by decide +kernel⟩,
   ⟨wPad 0 2 [] id, 15, by decide +kernel⟩,
   ⟨wBootclk, 15, by decide +kernel⟩,
   ⟨wPad 0 2 [] id, 15, by decide +kernel⟩,
   ⟨wPad 0 2 [] (fun p => { p with learn := true }), 15, by decide +kernel⟩,
   ⟨wPad 0 2 [] id, 15, by decide +kernel⟩⟩

/-- States and operands that meet the hypotheses of each clause of ReferenceMonitors. -/
theorem wit_ReferenceMonitors :
    (∃ (s : State) (n : Nat), n < 12 ∧ n < s.dev.refs.length ∧ s.dev.measuring = true ∧ s.dev.refState n ≠ 0 ∧
      s.dev.flag (REF_STAT_ACTIVITY n) = false) ∧
    (∃ (s : State) (dt n : Nat) (c : Instr) (mask : Nat), n < 12 ∧ n < s.dev.refs.length ∧ s.dev.measuring = true ∧
      (c, mask) ∈ [(Instr.refActivityRestore dt n, 2), (Instr.spacingClear dt n, 16)] ∧ s.dev.refState n = 1 ∧
      s.dev.refCauses n = mask ∧ s.dev.rd (REF_WTR_WTR n) ≠ 0) ∧
    (∃ (s : State) (dt n : Nat) (c : Instr) (mask : Nat), n < 12 ∧ n < s.dev.refs.length ∧ s.dev.measuring = true ∧
      (c, mask) ∈ [(Instr.refActivityRestore dt n, 2), (Instr.spacingClear dt n, 16)] ∧ s.dev.refState n = 1 ∧
      s.dev.refCauses n = mask ∧ s.dev.rd (REF_WTR_WTR n) ≠ 0) ∧
    (∃ (s : State) (dt n : Nat) (c : Instr) (mask : Nat), n < 12 ∧ n < s.dev.refs.length ∧ s.dev.measuring = true ∧
      (c, mask) ∈ [(Instr.refActivityRestore dt n, 2), (Instr.spacingClear dt n, 16)] ∧ s.dev.refState n = 1 ∧
      s.dev.refCauses n = mask ∧ s.dev.rd (REF_WTR_WTR n) = 0) ∧
    (∃ (s : State) (dt n : Nat) (c : Instr) (mask : Nat), n < 12 ∧ n < s.dev.refs.length ∧ s.dev.measuring = true ∧
      (c, mask) ∈ [(Instr.refActivityRestore dt n, 2), (Instr.spacingClear dt n, 16)] ∧ s.dev.refState n = 1 ∧ andNot
      (s.dev.refCauses n) mask ≠ 0) ∧
    (∃ (s : State) (dt m n : Nat) (c : Instr), n < 12 ∧ n < s.dev.refs.length ∧ s.dev.measuring = true ∧ (c =
      Instr.wtrExpiry dt n ∨ c = Instr.wtrClr dt m n ∧ s.dev.Grants m (rREF_CMD n)) ∧ s.dev.refState n = 2 ∧
      (s.dev.ref n).fmOk = true) ∧
    (∃ (s : State) (dt m n : Nat) (c : Instr), n < 12 ∧ n < s.dev.refs.length ∧ s.dev.measuring = true ∧ (c =
      Instr.wtrExpiry dt n ∨ c = Instr.wtrClr dt m n ∧ s.dev.Grants m (rREF_CMD n)) ∧ s.dev.refState n = 2 ∧
      (s.dev.ref n).fmOk = true) ∧
    (∃ (s : State) (dt m n : Nat) (c : Instr), n < 12 ∧ n < s.dev.refs.length ∧ s.dev.measuring = true ∧ (c =
      Instr.wtrExpiry dt n ∨ c = Instr.wtrClr dt m n ∧ s.dev.Grants m (rREF_CMD n)) ∧ s.dev.refState n = 2 ∧
      (s.dev.ref n).fmOk = false) ∧
    (∃ (s : State) (n : Nat) (w : FmWin) (r : Option Int), n < 12 ∧ n < s.dev.refs.length ∧ s.dev.measuring = true ∧
      (s.dev.ref n).win = some w ∧ r = s.dev.fmResult w n (if s.dev.flag REF_OCXO_STAT_BASE = true then 50 else 51)) ∧
    (∃ (s : State) (dt n : Nat) (c : Instr), n < 12 ∧ n < s.dev.refs.length ∧ s.dev.measuring = true ∧ c ∈
      [Instr.refActivityLoss dt n, Instr.refActivityRestore dt n, Instr.spacingClear dt n, Instr.wtrExpiry dt n,
      Instr.fmWindowEnd dt n]) ∧
    (∃ (s : State) (n : Nat), n < 12 ∧ n < s.dev.refs.length ∧ s.dev.measuring = true) :=
  ⟨⟨wRef 3 [] id, 11, by decide +kernel⟩,
   ⟨wRef 1 [(REF_STAT_ACTIVITY 11, 1), (REF_WTR_WTR 11, 1)] id, 1600, 11, .refActivityRestore 1600 11, 2,
     by decide +kernel⟩,
   ⟨wRef 1 [(REF_STAT_SPACING 11, 1), (REF_WTR_WTR 11, 1)] id, 1600, 11, .spacingClear 1600 11, 16,
     by decide +kernel⟩,
   ⟨wRef 1 [(REF_STAT_ACTIVITY 11, 1), (REF_WTR_WTR 11, 0)] id, 1600, 11, .refActivityRestore 1600 11, 2,
     by decide +kernel⟩,
   ⟨wRef 1 [(REF_STAT_ACTIVITY 11, 1), (REF_STAT_SPACING 11, 1)] id, 1600, 11, .refActivityRestore 1600 11, 2,
     by decide +kernel⟩,
   ⟨wRef 2 [] (fun m => { m with fmOk := true }), 1600, 0, 11, .wtrExpiry 1600 11, by decide +kernel,
     by decide +kernel, by decide +kernel,
     by exact Or.inl rfl, by decide +kernel⟩,
   ⟨wRef 2 [] (fun m => { m with fmOk := true }), 1600, 6, 11, .wtrClr 1600 6 11, by decide +kernel,
     by decide +kernel, by decide +kernel,
     by exact Or.inr ⟨rfl, by decide +kernel, by decide +kernel⟩, by decide +kernel⟩,
   ⟨wRef 2 [] id, 1600, 6, 11, .wtrClr 1600 6 11, by decide +kernel, by decide +kernel, by decide +kernel,
     by exact Or.inr ⟨rfl, by decide +kernel, by decide +kernel⟩, by decide +kernel⟩,
   ⟨wRef 3 [(REF_OCXO_STAT_BASE, 1)] (fun m => { m with win := some win0 }), 11, win0, some 0, by decide +kernel⟩,
   ⟨wRef 3 [] id, 1600, 11, .refActivityLoss 1600 11, by decide +kernel⟩,
   ⟨wRun, 11, by decide +kernel⟩⟩

/-- States and operands that meet the hypotheses of each clause of OcxoAndCandidates. -/
theorem wit_OcxoAndCandidates :
    (∃ (d v : Dev) (n : Nat) (results : List Nat) (i : Nat), d.padKind n ≠ 3 ∧ d.applied = true ∧ v = Dev.votePad n
      results d ∧ d.rd (PAD_SEL_SEL_MODE n) = 1 ∧ i = d.rd (PAD_SEL_MAN_IDX n) ∧ d.entryUsable n i = true) ∧
    (∃ (d v : Dev) (n : Nat) (results : List Nat), d.padKind n ≠ 3 ∧ d.applied = true ∧ v = Dev.votePad n results d ∧
      (∀ (i : Nat), i < 8 → d.entryUsable n i = false)) ∧
    (∃ (d v : Dev) (n : Nat) (results : List Nat) (i : Nat), d.padKind n ≠ 3 ∧ d.applied = true ∧ v = Dev.votePad n
      results d ∧ d.rd (PAD_SEL_SEL_MODE n) = 0 ∧ d.activeEntry n = none ∧ (v.selOf n).target = none ∧ i < 8 ∧ v.elig
      n i = true ∧ (∀ (j : Nat), j < 8 → v.elig n j = true → v.entryRank n i ≤ v.entryRank n j ∧ (v.entryRank n i =
      v.entryRank n j → i ≤ j))) ∧
    (∃ (s : State), s.dev.measuring = true ∧ 12 < s.dev.refs.length ∧ s.dev.flag REF_OCXO_CFG_DECL = true ∧
      (s.dev.ref 12).lost = false) ∧
    (∃ (s : State), s.dev.measuring = true ∧ 12 < s.dev.refs.length ∧ s.dev.flag REF_OCXO_CFG_DECL = true ∧
      (s.dev.ref 12).lost = false ∧ s.dev.flag REF_OCXO_STAT_PRESENT = true) ∧
    (∃ (s : State), s.dev.measuring = true ∧ 12 < s.dev.refs.length) ∧
    (∃ (s : State) (w : FmWin) (f : Int), s.dev.measuring = true ∧ (s.dev.ref 12).win = some w ∧ s.dev.fmResult w 51
      50 = some f) ∧
    (∃ (s : State), s.dev.measuring = true ∧ s.dev.flag REF_OCXO_CFG_DECL = true ∧ s.dev.flag REF_OCXO_STAT_PRESENT =
      false ∧ (¬(29, 0) ∈ s.dev.flt.live)) ∧
    (∃ (s : State) (ch : Nat), s.dev.measuring = true ∧ ch < 64 ∧ ch ∈ s.dev.alive) :=
  ⟨⟨(wSel [(PAD_SEL_SEL_MODE 15, 1), (PAD_SEL_MAN_IDX 15, 7)]).dev, _, 15, [], 7, by decide +kernel,
      by decide +kernel, rfl, by decide +kernel⟩,
   ⟨wRun.dev, _, 15, [], by decide +kernel, by decide +kernel, rfl, by decide +kernel⟩,
   ⟨(wSel []).dev, _, 15, [], 7, by decide +kernel, by decide +kernel, rfl, by decide +kernel⟩,
   ⟨wOcxo [] id, by decide +kernel⟩,
   ⟨wOcxo [(REF_OCXO_STAT_PRESENT, 1)] id, by decide +kernel⟩,
   ⟨wOcxo [] (fun m => { m with lost := true }), by decide +kernel⟩,
   ⟨wOcxo [] (fun m => { m with win := some { win0 with ref := ⟨11, 0, 65536000, 0⟩ } }),
     { win0 with ref := ⟨11, 0, 65536000, 0⟩ }, 0, by decide +kernel⟩,
   ⟨wOcxo [] id, by decide +kernel⟩,
   ⟨wAlive, 63, by decide +kernel⟩⟩

/-- States and operands that meet the hypotheses of each clause of CraftPins. -/
theorem wit_CraftPins :
    (∃ (k : Nat), k < 4) ∧
    (∃ (s : State) (k : Nat), k < 4 ∧ s.dev.measuring = true ∧ s.dev.plugIs (8 + k) true = true) ∧
    (∃ (s : State) (dt k : Nat), k < 4 ∧ (Dev.advance dt s.dev).ledSink k = 0) ∧
    (∃ (s : State) (dt k : Nat), k < 4 ∧ (Dev.advance dt s.dev).ledSink k ≠ 0 ∧ (¬(53, k) ∈ s.dev.flt.live)) ∧
    (∃ (s : State) (k : Nat), k < 2 ∧ (s.dev.applied = true ∨ s.dev.clk.bootclk = false) ∧ s.dev.flag (pbBit k) =
      false) ∧
    (∃ (k : Nat), k < 2) ∧
    (∃ (s : State) (k : Nat), k < 2 ∧ s.dev.flag (pbBit k) = true ∧ (¬(52, k) ∈ s.dev.flt.live)) ∧
    (∃ (s : State) (hi lo : Nat) (v : Int), s.dev.applied = true ∧ s.dev.flag CRAFT_SENS_CFG_EN = true ∧ hi < 256 ∧
      lo < 256 ∧ v = if hi < 128 then 256 * (hi : Int) + (lo : Int) else 256 * (hi : Int) + (lo : Int) - 65536) ∧
    (∃ (s : State) (hi lo : Nat) (v : Int), s.dev.applied = true ∧ s.dev.flag CRAFT_SENS_CFG_EN = true ∧ hi < 256 ∧
      lo < 256 ∧ v = if hi < 128 then 256 * (hi : Int) + (lo : Int) else 256 * (hi : Int) + (lo : Int) - 65536) ∧
    (∃ (s : State), s.dev.applied = true ∧ s.dev.flag CRAFT_SENS_CFG_EN = true ∧ s.dev.rd CRAFT_SENS_TEMP_FAILS < 2) ∧
    (∃ (s : State), s.dev.applied = true ∧ s.dev.flag CRAFT_SENS_CFG_EN = true ∧ s.dev.rd CRAFT_SENS_TEMP_FAILS = 2 ∧
      (¬(50, 0) ∈ s.dev.flt.live)) :=
  ⟨⟨3, by decide +kernel⟩,
   ⟨wPlug, 3, by decide +kernel⟩,
   ⟨wRun, 1600, 3, by decide +kernel⟩,
   ⟨wLed, 1600, 3, by decide +kernel⟩,
   ⟨wRun, 1, by decide +kernel⟩,
   ⟨1, by decide +kernel⟩,
   ⟨wPb, 1, by decide +kernel⟩,
   ⟨wSens 0, 128, 0, _, by decide +kernel, by decide +kernel, by decide +kernel, by decide +kernel, rfl⟩,
   ⟨wSens 0, 127, 255, _, by decide +kernel, by decide +kernel, by decide +kernel, by decide +kernel, rfl⟩,
   ⟨wSens 1, by decide +kernel⟩,
   ⟨wSens 2, by decide +kernel⟩⟩

/-- States and operands that meet the hypotheses of each clause of FlocksAndOutputs. -/
theorem wit_FlocksAndOutputs :
    (∃ (s : State) (m k n : Nat) (idle : Bool), k < 6 ∧ n < 24 ∧ k < s.dev.aplls.length ∧ n < s.dev.outs.length ∧
      s.dev.Grants m (rFLOCK_CMD k) ∧ (idle = (s.dev.outputsOf k).all fun o => decide (s.dev.rd (OUT_STAT_STATE o) =
      0) || decide (s.dev.rd (OUT_STAT_STATE o) = 3)) ∧ idle = true ∧ s.dev.flag (FLOCK_CFG_USED k) = true ∧
      s.dev.flag (FLOCK_STAT_CAL_BUSY k) = false) ∧
    (∃ (s : State) (m k n : Nat) (idle : Bool), k < 6 ∧ n < 24 ∧ k < s.dev.aplls.length ∧ n < s.dev.outs.length ∧
      s.dev.Grants m (rFLOCK_CMD k) ∧ (idle = (s.dev.outputsOf k).all fun o => decide (s.dev.rd (OUT_STAT_STATE o) =
      0) || decide (s.dev.rd (OUT_STAT_STATE o) = 3)) ∧ (idle = false ∨ s.dev.flag (FLOCK_CFG_USED k) = false ∨
      s.dev.flag (FLOCK_STAT_CAL_BUSY k) = true)) ∧
    (∃ (s : State) (m k n : Nat) (idle : Bool), k < 6 ∧ n < 24 ∧ k < s.dev.aplls.length ∧ n < s.dev.outs.length ∧
      s.dev.Grants m (rFLOCK_CMD k) ∧ (idle = (s.dev.outputsOf k).all fun o => decide (s.dev.rd (OUT_STAT_STATE o) =
      0) || decide (s.dev.rd (OUT_STAT_STATE o) = 3)) ∧ (idle = false ∨ s.dev.flag (FLOCK_CFG_USED k) = false ∨
      s.dev.flag (FLOCK_STAT_CAL_BUSY k) = true)) ∧
    (∃ (s : State) (k n : Nat), k < 6 ∧ n < 24 ∧ k < s.dev.aplls.length ∧ n < s.dev.outs.length ∧ s.dev.flag
      (FLOCK_STAT_CAL_BUSY k) = true) ∧
    (∃ (s : State) (k n : Nat), k < 6 ∧ n < 24 ∧ k < s.dev.aplls.length ∧ n < s.dev.outs.length ∧ s.dev.flag
      (FLOCK_STAT_LOCK k) = true ∧ (¬(30, k) ∈ s.dev.flt.live)) ∧
    (∃ (s : State) (k n : Nat), k < 6 ∧ n < 24 ∧ k < s.dev.aplls.length ∧ n < s.dev.outs.length ∧ s.dev.flag
      (FLOCK_CFG_USED k) = true ∧ s.dev.flag (FLOCK_STAT_LOCK k) = false ∧ s.dev.flag (FLOCK_STAT_CAL_BUSY k) = false
      ∧ (s.dev.apll k).calFail = false ∧ (s.dev.apll k).down = false) ∧
    (∃ (s : State) (k n : Nat), k < 6 ∧ n < 24 ∧ k < s.dev.aplls.length ∧ n < s.dev.outs.length ∧ s.dev.underMode =
      Mode.sleep ∧ s.dev.flag (FLOCK_CFG_USED k) = true ∧ (∀ (o : Nat), o ∈ s.dev.outputsOf k → s.dev.rd
      (OUT_STAT_STATE o) = 0 ∨ s.dev.rd (OUT_STAT_STATE o) = 3) ∧ (s.dev.apll k).down = false) ∧
    (∃ (s : State) (dt k n j : Nat), k < 6 ∧ n < 24 ∧ k < s.dev.aplls.length ∧ n < s.dev.outs.length ∧ j < 4 ∧ j <
      s.dev.psyns.length ∧ s.dev.flag (PSYN_STAT_RUNNING j) = true ∧ (s.dev.psyn j).next * 2 ^ 32 ≤ s.dev.psynAcc j
      (s.dev.clk.tclk + dt + 1)) ∧
    (∃ (s : State) (dt k n j : Nat), k < 6 ∧ n < 24 ∧ k < s.dev.aplls.length ∧ n < s.dev.outs.length ∧ j < 4 ∧ j <
      s.dev.psyns.length ∧ s.dev.flag (PSYN_STAT_RUNNING j) = true ∧ s.dev.psynAcc j (s.dev.clk.tclk + dt + 1) <
      (s.dev.psyn j).next * 2 ^ 32) ∧
    (∃ (s : State) (k n : Nat), k < 6 ∧ n < 24 ∧ k < s.dev.aplls.length ∧ n < s.dev.outs.length ∧ s.dev.rd
      (OUT_STAT_STATE n) = 2) ∧
    (∃ (s : State) (k n : Nat), k < 6 ∧ n < 24 ∧ k < s.dev.aplls.length ∧ n < s.dev.outs.length ∧ s.dev.rd
      (OUT_STAT_STATE n) = 1) ∧
    (∃ (s : State) (k n : Nat), k < 6 ∧ n < 24 ∧ k < s.dev.aplls.length ∧ n < s.dev.outs.length ∧ s.dev.rd
      (OUT_STAT_STATE n) ≠ 0 ∧ s.dev.flag (OUT_STAT_DRV_FAULT n) = false ∧ s.dev.flag (OUT_CFG_USED n) = true) ∧
    (∃ (s : State) (k n : Nat), k < 6 ∧ n < 24 ∧ k < s.dev.aplls.length ∧ n < s.dev.outs.length ∧ s.dev.rd
      (OUT_STAT_STATE n) = 1 ∧ (¬(59, n) ∈ s.dev.flt.live)) ∧
    (∃ (s : State) (k n : Nat), k < 6 ∧ n < 24 ∧ k < s.dev.aplls.length ∧ n < s.dev.outs.length) ∧
    (∃ (s : State) (m k n src dest : Nat), k < 6 ∧ n < 24 ∧ k < s.dev.aplls.length ∧ n < s.dev.outs.length ∧ src < 32
      ∧ dest < 32 ∧ s.dev.Grants m rOUT_TEE ∧ src < 24 ∧ dest < 24 ∧ src ≠ dest ∧ s.dev.claimed (20 + dest) = false ∧
      s.dev.jobUses (20 + dest) = false) ∧
    (∃ (s : State) (m k n src dest : Nat), k < 6 ∧ n < 24 ∧ k < s.dev.aplls.length ∧ n < s.dev.outs.length ∧ src < 32
      ∧ dest < 32 ∧ s.dev.Grants m rOUT_TEE ∧ (24 ≤ src ∨ 24 ≤ dest ∨ src = dest ∨ s.dev.claimed (20 + dest) = true ∨
      s.dev.jobUses (20 + dest) = true)) ∧
    (∃ (s : State) (m k n src dest : Nat), k < 6 ∧ n < 24 ∧ k < s.dev.aplls.length ∧ n < s.dev.outs.length ∧ src < 32
      ∧ dest < 32 ∧ s.dev.Grants m rOUT_TEE ∧ (24 ≤ src ∨ 24 ≤ dest ∨ src = dest ∨ s.dev.claimed (20 + dest) = true ∨
      s.dev.jobUses (20 + dest) = true)) ∧
    (∃ (s : State) (m k n src dest : Nat), k < 6 ∧ n < 24 ∧ k < s.dev.aplls.length ∧ n < s.dev.outs.length ∧ src < 32
      ∧ dest < 32 ∧ s.dev.Grants m rOUT_TEE ∧ s.dev.jobUses (20 + s.dev.rd OUT_TEE_DEST) = false) :=
  ⟨⟨wFlock [] id, 6, 5, 23, true, by decide +kernel, by decide +kernel, by decide +kernel, by decide +kernel,
      ⟨by decide +kernel, by decide +kernel⟩, by decide +kernel⟩,
   ⟨wFlock [(OUT_STAT_STATE 23, 1)] id, 6, 5, 23, false, by decide +kernel, by decide +kernel, by decide +kernel,
     by decide +kernel, ⟨by decide +kernel, by decide +kernel⟩, by decide +kernel⟩,
   ⟨wFlock [(FLOCK_STAT_CAL_BUSY 5, 1)] id, 6, 5, 23, true, by decide +kernel, by decide +kernel, by decide +kernel,
     by decide +kernel, ⟨by decide +kernel, by decide +kernel⟩, by decide +kernel⟩,
   ⟨wFlock [(FLOCK_STAT_CAL_BUSY 5, 1)] id, 5, 23, by decide +kernel⟩,
   ⟨wFlock [(FLOCK_STAT_LOCK 5, 1)] id, 5, 23, by decide +kernel⟩,
   ⟨wFlock [] id, 5, 23, by decide +kernel⟩,
   ⟨wFlockSleep, 5, 23, by decide +kernel⟩,
   ⟨wFlock [(PSYN_STAT_RUNNING 3, 1), (FLOCK_STAT_LOCK 0, 1)] id, 1600, 5, 23, 3, by decide +kernel⟩,
   ⟨wFlock [(PSYN_STAT_RUNNING 3, 1), (FLOCK_STAT_LOCK 0, 1)] (fun d => d.setPsyn 3 fun p =>
     { p with next := 2 ^ 100 }), 1600, 5, 23, 3, by decide +kernel⟩,
   ⟨wFlock [(OUT_STAT_STATE 23, 2)] id, 5, 23, by decide +kernel⟩,
   ⟨wFlock [(OUT_STAT_STATE 23, 1)] id, 5, 23, by decide +kernel⟩,
   ⟨wFlock [(OUT_STAT_STATE 23, 1)] id, 5, 23, by decide +kernel⟩,
   ⟨wFlock [(OUT_STAT_STATE 23, 1)] id, 5, 23, by decide +kernel⟩,
   ⟨wFlock [(OUT_STAT_STATE 23, 1)] id, 5, 23, by decide +kernel⟩,
   ⟨wFlock [] id, 6, 5, 23, 23, 0, by decide +kernel, by decide +kernel, by decide +kernel, by decide +kernel,
     by decide +kernel, by decide +kernel, ⟨by decide +kernel, by decide +kernel⟩, by decide +kernel⟩,
   ⟨wFlock [] id, 6, 5, 23, 24, 0, by decide +kernel, by decide +kernel, by decide +kernel, by decide +kernel,
     by decide +kernel, by decide +kernel, ⟨by decide +kernel, by decide +kernel⟩, by decide +kernel⟩,
   ⟨wFlock [] id, 6, 5, 23, 23, 23, by decide +kernel, by decide +kernel, by decide +kernel, by decide +kernel,
     by decide +kernel, by decide +kernel, ⟨by decide +kernel, by decide +kernel⟩, by decide +kernel⟩,
   ⟨wFlock [] id, 6, 5, 23, 31, 31, by decide +kernel, by decide +kernel, by decide +kernel, by decide +kernel,
     by decide +kernel, by decide +kernel, ⟨by decide +kernel, by decide +kernel⟩, by decide +kernel⟩⟩

/-- States and operands that meet the hypotheses of each clause of BeatsAndSteeringPorts. -/
theorem wit_BeatsAndSteeringPorts :
    (∃ (s : State) (dt b k p : Nat) (c : Instr) (cause : Nat), b < 8 ∧ k < 8 ∧ k < s.dev.ports.length ∧ p = s.dev.rd
      (STEER_CFG_PAD k) ∧ s.dev.measuring = true ∧ s.dev.flag (BN_CFG_STEER_V b) = true ∧ (c, cause) ∈
      [(Instr.bnNoEdge dt b, 0), (Instr.bnLos dt b, 1)] ∧ s.dev.flag { addr := rBN_STAT b, hi := cause, lo := cause }
      = false) ∧
    (∃ (s : State) (dt b k p : Nat) (c : Instr) (cause : Nat), b < 8 ∧ k < 8 ∧ k < s.dev.ports.length ∧ p = s.dev.rd
      (STEER_CFG_PAD k) ∧ s.dev.measuring = true ∧ s.dev.flag (BN_CFG_STEER_V b) = true ∧ (c, cause) ∈
      [(Instr.bnNoEdge dt b, 0), (Instr.bnLos dt b, 1)] ∧ s.dev.flag { addr := rBN_STAT b, hi := cause, lo := cause }
      = false) ∧
    (∃ (s : State) (b k p : Nat), b < 8 ∧ k < 8 ∧ k < s.dev.ports.length ∧ p = s.dev.rd (STEER_CFG_PAD k) ∧
      s.dev.measuring = true ∧ s.dev.flag (BN_CFG_STEER_V b) = true ∧ s.dev.rd
      { addr := rBN_STAT b, hi := 3, lo := 0 } = 2) ∧
    (∃ (s : State) (b k p : Nat), b < 8 ∧ k < 8 ∧ k < s.dev.ports.length ∧ p = s.dev.rd (STEER_CFG_PAD k) ∧
      s.dev.measuring = true ∧ s.dev.flag (BN_CFG_STEER_V b) = true ∧ andNot (s.dev.rd
      { addr := rBN_STAT b, hi := 3, lo := 0 }) 2 ≠ 0) ∧
    (∃ (s : State) (b k p : Nat) (d : Dev) (c : Nat), b < 8 ∧ k < 8 ∧ k < s.dev.ports.length ∧ p = s.dev.rd
      (STEER_CFG_PAD k) ∧ c < 4 ∧ d.flag (BN_CFG_STEER_V b) = true ∧ d.flag { addr := rBN_STAT b, hi := c, lo := c }
      = false) ∧
    (∃ (s : State) (b k p : Nat) (a v : Int), b < 8 ∧ k < 8 ∧ k < s.dev.ports.length ∧ p = s.dev.rd (STEER_CFG_PAD k)
      ∧ s.dev.applied = true ∧ s.dev.mode ≠ Mode.sleep ∧ s.dev.flag (STEER_CFG_USED k) = true ∧ (s.dev.padSt p = 0 ∨
      s.dev.padSt p = 3) ∧ s.dev.rd (STEER_STAT_STATE k) = 1 ∧ a = (s.dev.port k).acc - divRound (s.dev.padWord p *
      (((s.dev.padTu p).fst * 2 ^ 32 : Nat) : Int)) ↑(s.dev.padTu p).snd ∧ v = s.dev.portRaw k a ∧ s.dev.portLo k ≤ v
      ∧ v ≤ s.dev.portHi k) ∧
    (∃ (s : State) (b k p : Nat) (a v : Int), b < 8 ∧ k < 8 ∧ k < s.dev.ports.length ∧ p = s.dev.rd (STEER_CFG_PAD k)
      ∧ s.dev.applied = true ∧ s.dev.mode ≠ Mode.sleep ∧ s.dev.flag (STEER_CFG_USED k) = true ∧ (s.dev.padSt p = 0 ∨
      s.dev.padSt p = 3) ∧ s.dev.rd (STEER_STAT_STATE k) = 1 ∧ a = (s.dev.port k).acc - divRound (s.dev.padWord p *
      (((s.dev.padTu p).fst * 2 ^ 32 : Nat) : Int)) ↑(s.dev.padTu p).snd ∧ v = s.dev.portRaw k a ∧ (v < s.dev.portLo
      k ∨ s.dev.portHi k < v)) ∧
    (∃ (s : State) (b k p : Nat) (a v : Int), b < 8 ∧ k < 8 ∧ k < s.dev.ports.length ∧ p = s.dev.rd (STEER_CFG_PAD k)
      ∧ s.dev.applied = true ∧ s.dev.mode ≠ Mode.sleep ∧ s.dev.flag (STEER_CFG_USED k) = true ∧ (s.dev.padSt p = 0 ∨
      s.dev.padSt p = 3) ∧ s.dev.rd (STEER_STAT_STATE k) = 1 ∧ a = (s.dev.port k).acc - divRound (s.dev.padWord p *
      (((s.dev.padTu p).fst * 2 ^ 32 : Nat) : Int)) ↑(s.dev.padTu p).snd ∧ v = s.dev.portRaw k a ∧ (v < s.dev.portLo
      k ∨ s.dev.portHi k < v)) ∧
    (∃ (s : State) (dt b k p : Nat), b < 8 ∧ k < 8 ∧ k < s.dev.ports.length ∧ p = s.dev.rd (STEER_CFG_PAD k) ∧
      s.dev.applied = true ∧ s.dev.portReason k = true ∧ s.dev.flag (STEER_STAT_BUSY k) = false ∧ (∀ (t : Nat),
      (s.dev.port k).frameAt = some t → t + s.dev.portSpacing k ≤ s.dev.clk.tclk + dt)) ∧
    (∃ (s : State) (b k p : Nat), b < 8 ∧ k < 8 ∧ k < s.dev.ports.length ∧ p = s.dev.rd (STEER_CFG_PAD k) ∧
      s.dev.portReason k = false) ∧
    (∃ (s : State) (b k p : Nat), b < 8 ∧ k < 8 ∧ k < s.dev.ports.length ∧ p = s.dev.rd (STEER_CFG_PAD k) ∧
      s.dev.flag (STEER_STAT_BUSY k) = true) ∧
    (∃ (s : State) (b k p : Nat), b < 8 ∧ k < 8 ∧ k < s.dev.ports.length ∧ p = s.dev.rd (STEER_CFG_PAD k) ∧ s.dev.rd
      (STEER_TIMING_REFRESH k) ≠ 0 ∧ s.dev.rd (STEER_STAT_STATE k) = 1) ∧
    (∃ (s : State) (m b k p : Nat), b < 8 ∧ k < 8 ∧ k < s.dev.ports.length ∧ p = s.dev.rd (STEER_CFG_PAD k) ∧
      s.dev.Grants m (rSTEER_CMD k) ∧ s.dev.rd (STEER_STAT_STATE k) = 1) ∧
    (∃ (s : State) (dt m b k p : Nat), b < 8 ∧ k < 8 ∧ k < s.dev.ports.length ∧ p = s.dev.rd (STEER_CFG_PAD k) ∧
      s.dev.Grants m (rSTEER_CMD k) ∧ s.dev.rd (STEER_STAT_STATE k) = 2 ∧ s.dev.mode ≠ Mode.fold ∧ (s.dev.padSt p = 1
      ∨ s.dev.padSt p = 2) ∧ s.dev.rd (STEER_STAT_CAUSE k) ≠ 5 ∧ s.dev.flag (STEER_STAT_CLAMP_LIM k) = false ∧
      (s.dev.port k).trigAt ≠ some (Dev.advance dt s.dev).clk.edge) ∧
    (∃ (s : State) (dt m b k p : Nat), b < 8 ∧ k < 8 ∧ k < s.dev.ports.length ∧ p = s.dev.rd (STEER_CFG_PAD k) ∧
      s.dev.Grants m (rSTEER_CMD k) ∧ (s.dev.rd (STEER_STAT_STATE k) ≠ 2 ∨ s.dev.mode = Mode.fold ∨ s.dev.rd
      (STEER_STAT_CAUSE k) = 5 ∨ s.dev.flag (STEER_STAT_CLAMP_LIM k) = true ∨ s.dev.padSt p ≠ 1 ∧ s.dev.padSt p ≠ 2 ∨
      (s.dev.port k).trigAt = some (Dev.advance dt s.dev).clk.edge)) ∧
    (∃ (s : State) (dt m b k p : Nat), b < 8 ∧ k < 8 ∧ k < s.dev.ports.length ∧ p = s.dev.rd (STEER_CFG_PAD k) ∧
      s.dev.Grants m (rSTEER_CMD k) ∧ (s.dev.rd (STEER_STAT_STATE k) ≠ 2 ∨ s.dev.mode = Mode.fold ∨ s.dev.rd
      (STEER_STAT_CAUSE k) = 5 ∨ s.dev.flag (STEER_STAT_CLAMP_LIM k) = true ∨ s.dev.padSt p ≠ 1 ∧ s.dev.padSt p ≠ 2 ∨
      (s.dev.port k).trigAt = some (Dev.advance dt s.dev).clk.edge)) ∧
    (∃ (s : State) (dt b k p : Nat) (c : Instr) (cause : Nat), b < 8 ∧ k < 8 ∧ k < s.dev.ports.length ∧ p = s.dev.rd
      (STEER_CFG_PAD k) ∧ (c = Instr.steerHoldTimeout dt k ∧ cause = 3 ∧ s.dev.flag (STEER_CTL_FT_HOLDTMO k) = true ∧
      s.dev.padSt p = 3 ∨ c = Instr.steerClampTimeout dt k ∧ cause = 4 ∧ s.dev.flag (STEER_CTL_FT_CLAMP k) = true ∧
      s.dev.flag (STEER_STAT_CLAMP_LIM k) = true) ∧ s.dev.rd (STEER_STAT_STATE k) = 1) ∧
    (∃ (s : State) (dt b k p : Nat) (c : Instr) (cause : Nat), b < 8 ∧ k < 8 ∧ k < s.dev.ports.length ∧ p = s.dev.rd
      (STEER_CFG_PAD k) ∧ (c = Instr.steerHoldTimeout dt k ∧ cause = 3 ∧ s.dev.flag (STEER_CTL_FT_HOLDTMO k) = true ∧
      s.dev.padSt p = 3 ∨ c = Instr.steerClampTimeout dt k ∧ cause = 4 ∧ s.dev.flag (STEER_CTL_FT_CLAMP k) = true ∧
      s.dev.flag (STEER_STAT_CLAMP_LIM k) = true) ∧ s.dev.rd (STEER_STAT_STATE k) = 1) :=
  ⟨⟨wBn [], 1600, 7, 7, _, .bnNoEdge 1600 7, 0, by decide +kernel, by decide +kernel, by decide +kernel, rfl,
      by decide +kernel⟩,
   ⟨wBn [], 1600, 7, 7, _, .bnLos 1600 7, 1, by decide +kernel, by decide +kernel, by decide +kernel, rfl,
     by decide +kernel⟩,
   ⟨wBn [(⟨rBN_STAT 7, 1, 1⟩, 1)], 7, 7, _, by decide +kernel, by decide +kernel, by decide +kernel, rfl,
     by decide +kernel⟩,
   ⟨wBn [(⟨rBN_STAT 7, 0, 0⟩, 1)], 7, 7, _, by decide +kernel, by decide +kernel, by decide +kernel, rfl,
     by decide +kernel⟩,
   ⟨wBn [], 7, 7, _, (wBn []).dev, 3, by decide +kernel, by decide +kernel, by decide +kernel, rfl,
     by decide +kernel⟩,
   ⟨wPort [(STEER_STAT_STATE 7, 1)] (fun p => { p with acc := 10 * 2 ^ 32 }), 0, 7, 15, 10 * 2 ^ 32, 10,
     by decide +kernel⟩,
   ⟨wPort [(STEER_STAT_STATE 7, 1)] (fun p => { p with acc := 11 * 2 ^ 32 }), 0, 7, 15, 11 * 2 ^ 32, 11,
     by decide +kernel⟩,
   ⟨wPort [(STEER_STAT_STATE 7, 1)] (fun p => { p with acc := -2 ^ 32 }), 0, 7, 15, -2 ^ 32, -1, by decide +kernel⟩,
   ⟨wPort [(STEER_STAT_STATE 7, 1)] (fun p => { p with first := true }), 1600, 0, 7, 15, by decide +kernel,
     by decide +kernel, by decide +kernel, by decide +kernel, by decide +kernel, by decide +kernel,
     by decide +kernel, all_some (by decide +kernel)⟩,
   ⟨wPort [] id, 0, 7, 15, by decide +kernel⟩,
   ⟨wPort [(STEER_STAT_BUSY 7, 1)] id, 0, 7, 15, by decide +kernel⟩,
   ⟨wPort [(STEER_STAT_STATE 7, 1), (STEER_TIMING_REFRESH 7, 1)] id, 0, 7, 15, by decide +kernel⟩,
   ⟨wPort [(STEER_STAT_STATE 7, 1)] id, 6, 0, 7, 15, by decide +kernel, by decide +kernel, by decide +kernel,
     by decide +kernel, ⟨by decide +kernel, by decide +kernel⟩, by decide +kernel⟩,
   ⟨wPort [(STEER_STAT_STATE 7, 2), (PAD_STATE_STATE 15, 2)] id, 1600, 6, 0, 7, 15, by decide +kernel,
     by decide +kernel, by decide +kernel, by decide +kernel, ⟨by decide +kernel, by decide +kernel⟩,
     by decide +kernel⟩,
   ⟨wPort [(STEER_STAT_STATE 7, 2), (PAD_STATE_STATE 15, 2), (STEER_STAT_CAUSE 7, 5)] id, 1600, 6, 0, 7, 15,
     by decide +kernel, by decide +kernel, by decide +kernel, by decide +kernel, ⟨by decide +kernel,
     by decide +kernel⟩, by decide +kernel⟩,
   ⟨wPort [(STEER_STAT_STATE 7, 1), (PAD_STATE_STATE 15, 2)] id, 1600, 6, 0, 7, 15, by decide +kernel,
     by decide +kernel, by decide +kernel, by decide +kernel, ⟨by decide +kernel, by decide +kernel⟩,
     by decide +kernel⟩,
   ⟨wPort [(STEER_STAT_STATE 7, 1), (STEER_CTL_FT_HOLDTMO 7, 1), (PAD_STATE_STATE 15, 3)] id, 1600, 0, 7, 15,
     .steerHoldTimeout 1600 7, 3, by decide +kernel⟩,
   ⟨wPort [(STEER_STAT_STATE 7, 1), (STEER_CTL_FT_CLAMP 7, 1), (STEER_STAT_CLAMP_LIM 7, 1)] id, 1600, 0, 7, 15,
     .steerClampTimeout 1600 7, 4, by decide +kernel⟩⟩

/-- States and operands that meet the hypotheses of each clause of PastureLinks. -/
theorem wit_PastureLinks :
    (∃ (s : State) (x : Nat), x < 2 ∧ s.dev.past.links.length = 2 ∧ s.dev.running = true) ∧
    (∃ (s : State) (dt x a b q : Nat) (c : Instr) (ok : Bool) (sub tag mseq arr k : Nat), x < 2 ∧
      s.dev.past.links.length = 2 ∧ s.dev.measuring = true ∧ s.dev.claimed (44 + x) = true ∧ s.dev.meas.handover =
      none ∧ (c, ok, sub, tag, mseq) ∈ [(Instr.markLaunch dt a b, s.dev.linkUp x, if x = 0 then a else b, 1,
      ((s.dev.link x).mseq + 1) % 65536), (Instr.markRx dt x q a, s.dev.flag (PLINK_STAT_SYNC x) &&
      !s.dev.ignoresNear x, a, 2, q)] ∧ ok = true ∧ List.filter (fun i => !(s.dev.cell i).busy && decide ((s.dev.cell
      i).half + 1 = tag)) (s.dev.loopCells (44 + x)) = [k] ∧ s.dev.rd (MCH_DEC_DEC (44 + x)) = 1 ∧ arr =
      (s.dev.clk.tclk + dt) * 40960 + sub % 40960 ∧ (∀ (t : Nat), (s.dev.chan (chanIdx (44 + x) tag)).lastFwd = some
      t → t + 163840 ≤ arr) ∧ (∀ (t : Nat), (s.dev.chan (chanIdx (44 + x) tag)).lastConv = some t → t + 500 * 65536 ≤
      arr)) ∧
    (∃ (s : State) (dt x a b q : Nat) (c : Instr) (ok : Bool) (sub tag mseq arr k : Nat), x < 2 ∧
      s.dev.past.links.length = 2 ∧ s.dev.measuring = true ∧ s.dev.claimed (44 + x) = true ∧ s.dev.meas.handover =
      none ∧ (c, ok, sub, tag, mseq) ∈ [(Instr.markLaunch dt a b, s.dev.linkUp x, if x = 0 then a else b, 1,
      ((s.dev.link x).mseq + 1) % 65536), (Instr.markRx dt x q a, s.dev.flag (PLINK_STAT_SYNC x) &&
      !s.dev.ignoresNear x, a, 2, q)] ∧ ok = true ∧ List.filter (fun i => !(s.dev.cell i).busy && decide ((s.dev.cell
      i).half + 1 = tag)) (s.dev.loopCells (44 + x)) = [k] ∧ s.dev.rd (MCH_DEC_DEC (44 + x)) = 1 ∧ arr =
      (s.dev.clk.tclk + dt) * 40960 + sub % 40960 ∧ (∀ (t : Nat), (s.dev.chan (chanIdx (44 + x) tag)).lastFwd = some
      t → t + 163840 ≤ arr) ∧ (∀ (t : Nat), (s.dev.chan (chanIdx (44 + x) tag)).lastConv = some t → t + 500 * 65536 ≤
      arr)) ∧
    (∃ (s : State) (dt x k : Nat) (code : CellCode) (redOk rstOk tableEcc : Bool) (ev : Event) (rest : List Event)
      (at_ : Event) (ts : Nat), x < 2 ∧ s.dev.past.links.length = 2 ∧ k < 48 ∧ s.dev.measuring = true ∧ (s.dev.cell
      k).pilot = none ∧ takeEvent k (Dev.advance dt s.dev).meas.events = some (ev, rest) ∧ ev.parts = [(k,
      Part.waiting)] ∧ ev.handover = none ∧ ev.chan = 44 + x ∧ convFault code.code redOk rstOk tableEcc = 0 ∧ at_ =
      Event.latch (Dev.advance dt s.dev).clk (max (ev.stopAt + 1) (s.dev.clk.tclk + dt)) ev ∧ ts = stamp (at_.stop
      code.later).fst (at_.stop code.later).snd (s.dev.fraction k code.code) (s.dev.chanDelay ev.chan ev.trim) ∧
      ev.tag = 2) ∧
    (∃ (s : State) (dt x k : Nat) (code : CellCode) (redOk rstOk tableEcc : Bool) (ev : Event) (rest : List Event)
      (at_ : Event) (ts : Nat), x < 2 ∧ s.dev.past.links.length = 2 ∧ k < 48 ∧ s.dev.measuring = true ∧ (s.dev.cell
      k).pilot = none ∧ takeEvent k (Dev.advance dt s.dev).meas.events = some (ev, rest) ∧ ev.parts = [(k,
      Part.waiting)] ∧ ev.handover = none ∧ ev.chan = 44 + x ∧ convFault code.code redOk rstOk tableEcc = 0 ∧ at_ =
      Event.latch (Dev.advance dt s.dev).clk (max (ev.stopAt + 1) (s.dev.clk.tclk + dt)) ev ∧ ts = stamp (at_.stop
      code.later).fst (at_.stop code.later).snd (s.dev.fraction k code.code) (s.dev.chanDelay ev.chan ev.trim) ∧
      ev.tag = 1) ∧
    (∃ (s : State) (x mL mA ar la : Nat), x < 2 ∧ s.dev.past.links.length = 2 ∧ s.dev.running = true ∧ s.dev.linkUp x
      = true ∧ s.dev.ignoresNear x = false ∧ findMark (s.dev.link x).arrivals mL = some ar ∧ findMark (s.dev.link
      x).launches mA = some la) ∧
    (∃ (s : State) (x mL mA : Nat), x < 2 ∧ s.dev.past.links.length = 2 ∧ s.dev.running = true ∧ s.dev.linkUp x =
      true ∧ s.dev.ignoresNear x = false ∧ (findMark (s.dev.link x).arrivals mL = none ∨ findMark (s.dev.link
      x).launches mA = none)) ∧
    (∃ (s : State) (x src : Nat), x < 2 ∧ s.dev.past.links.length = 2 ∧ src < 8 ∧ s.dev.running = true ∧ s.dev.flag
      (PLINK_STAT_SYNC x) = true ∧ src ≠ s.dev.pastIndex) ∧
    (∃ (s : State) (x src : Nat), x < 2 ∧ s.dev.past.links.length = 2 ∧ src < 8 ∧ s.dev.running = true ∧ s.dev.flag
      (PLINK_STAT_SYNC x) = true ∧ src = s.dev.pastIndex) ∧
    (∃ (s : State) (x : Nat), x < 2 ∧ s.dev.past.links.length = 2 ∧ s.dev.running = true ∧ s.dev.flag
      (PLINK_STAT_SYNC x) = true) ∧
    (∃ (s : State) (x : Nat), x < 2 ∧ s.dev.past.links.length = 2 ∧ s.dev.flag (PLINK_CTL_ENABLE x) = true ∧
      s.dev.running = true) ∧
    (∃ (s : State) (dt x : Nat) (c : Instr), x < 2 ∧ s.dev.past.links.length = 2 ∧ s.dev.running = true ∧ c ∈
      [Instr.linkSyncLoss dt x, Instr.helloTimeout dt x]) ∧
    (∃ (s : State) (dt x : Nat) (c : Instr), x < 2 ∧ s.dev.past.links.length = 2 ∧ s.dev.running = true ∧ c ∈
      [Instr.linkSyncLoss dt x, Instr.helloTimeout dt x]) ∧
    (∃ (s : State) (x : Nat), x < 2 ∧ s.dev.past.links.length = 2 ∧ s.dev.flag PAST_CFG_USED = true ∧ s.dev.running =
      true ∧ s.dev.rd PAST_STAT_ROLE ≠ 0 ∧ s.dev.linkUp x = true) ∧
    (∃ (s : State) (x : Nat), x < 2 ∧ s.dev.past.links.length = 2 ∧ s.dev.flag PAST_CFG_USED = true ∧ s.dev.running =
      true ∧ s.dev.rd PAST_STAT_ROLE ≠ 0 ∧ s.dev.rd PAST_STAT_ROLE = 3 ∧ s.dev.eligNow = false) ∧
    (∃ (s : State) (dt x : Nat), x < 2 ∧ s.dev.past.links.length = 2 ∧ s.dev.flag PAST_CFG_USED = true ∧
      s.dev.running = true ∧ s.dev.rd PAST_STAT_ROLE ≠ 0 ∧ s.dev.rd PAST_STAT_ROLE = 1 ∧ (Dev.advance dt
      s.dev).heardLinks = [] ∧ s.dev.eligNow = true ∧ (8 * s.dev.rd PAST_CFG_PRIO + s.dev.pastIndex) * s.dev.helloPer
      ≤ s.dev.clk.tclk + dt - s.dev.past.waitFrom) ∧
    (∃ (s : State) (dt x : Nat), x < 2 ∧ s.dev.past.links.length = 2 ∧ s.dev.flag PAST_CFG_USED = true ∧
      s.dev.running = true ∧ s.dev.rd PAST_STAT_ROLE ≠ 0 ∧ s.dev.rd PAST_STAT_ROLE = 3 ∧ (Dev.advance dt
      s.dev).heardLinks = [x] ∧ pairLt ((Dev.advance dt s.dev).bwPair x) (s.dev.rd PAST_CFG_PRIO, s.dev.pastIndex) =
      true) ∧
    (∃ (s : State) (dt x : Nat), x < 2 ∧ s.dev.past.links.length = 2 ∧ s.dev.flag PAST_CFG_USED = true ∧
      s.dev.running = true ∧ s.dev.rd PAST_STAT_ROLE ≠ 0 ∧ s.dev.rd PAST_STAT_ROLE = 2 ∧ (Dev.advance dt
      s.dev).heardLinks = [] ∧ (s.dev.eligNow = false ∨ 0 < 8 * s.dev.rd PAST_CFG_PRIO + s.dev.pastIndex)) ∧
    (∃ (s : State) (dt x : Nat), x < 2 ∧ s.dev.past.links.length = 2 ∧ s.dev.flag PAST_CFG_USED = true ∧
      s.dev.running = true ∧ s.dev.rd PAST_STAT_ROLE ≠ 0 ∧ (s.dev.rd PAST_STAT_ROLE = 1 ∨ s.dev.rd PAST_STAT_ROLE =
      2) ∧ (Dev.advance dt s.dev).heardLinks = [x] ∧ s.dev.flag PAST_CFG_PREEMPT = true ∧ s.dev.eligNow = true ∧
      pairLt (s.dev.rd PAST_CFG_PRIO, s.dev.pastIndex) ((Dev.advance dt s.dev).bwPair x) = true) ∧
    (∃ (s : State) (dt x : Nat), x < 2 ∧ s.dev.past.links.length = 2 ∧ s.dev.flag PAST_CFG_USED = true ∧
      s.dev.running = true ∧ s.dev.rd PAST_STAT_ROLE ≠ 0 ∧ (s.dev.rd PAST_STAT_ROLE = 1 ∨ s.dev.rd PAST_STAT_ROLE =
      2) ∧ (Dev.advance dt s.dev).heardLinks = [x] ∧ s.dev.flag PAST_CFG_PREEMPT = true ∧ s.dev.eligNow = true ∧
      pairLt (s.dev.rd PAST_CFG_PRIO, s.dev.pastIndex) ((Dev.advance dt s.dev).bwPair x) = true) ∧
    (∃ (s : State) (dt x : Nat), x < 2 ∧ s.dev.past.links.length = 2 ∧ s.dev.flag PAST_CFG_USED = true ∧
      s.dev.running = true ∧ s.dev.rd PAST_STAT_ROLE ≠ 0 ∧ (s.dev.rd PAST_STAT_ROLE = 1 ∨ s.dev.rd PAST_STAT_ROLE =
      2) ∧ (Dev.advance dt s.dev).heardLinks = [x] ∧ (s.dev.flag PAST_CFG_PREEMPT = false ∨ s.dev.eligNow = false ∨
      pairLt (s.dev.rd PAST_CFG_PRIO, s.dev.pastIndex) ((Dev.advance dt s.dev).bwPair x) = false)) ∧
    (∃ (s : State) (dt x : Nat), x < 2 ∧ s.dev.past.links.length = 2 ∧ s.dev.flag PAST_CFG_USED = true ∧
      s.dev.running = true ∧ s.dev.rd PAST_STAT_ROLE ≠ 0 ∧ (s.dev.rd PAST_STAT_ROLE = 1 ∨ s.dev.rd PAST_STAT_ROLE =
      2) ∧ (Dev.advance dt s.dev).heardLinks = [x] ∧ (s.dev.flag PAST_CFG_PREEMPT = false ∨ s.dev.eligNow = false ∨
      pairLt (s.dev.rd PAST_CFG_PRIO, s.dev.pastIndex) ((Dev.advance dt s.dev).bwPair x) = false)) :=
  ⟨⟨wPast [] id, 1, by decide +kernel⟩,
   ⟨wMark, 1600, 1, 3, 40959, 0, .markLaunch 1600 3 40959, true, 40959, 1, 1, _, 46, by decide +kernel,
     by decide +kernel, by decide +kernel, by decide +kernel, by decide +kernel, by decide +kernel,
     by decide +kernel, by decide +kernel, by decide +kernel, rfl, all_some (by decide +kernel), all_some
     (by decide +kernel)⟩,
   ⟨wMark, 1600, 1, 40959, 0, 65535, .markRx 1600 1 65535 40959, true, 40959, 2, 65535, _, 47, by decide +kernel,
     by decide +kernel, by decide +kernel, by decide +kernel, by decide +kernel, by decide +kernel,
     by decide +kernel, by decide +kernel, by decide +kernel, rfl, all_some (by decide +kernel), all_some
     (by decide +kernel)⟩,
   ⟨wMarkConv 2, 1600, 1, 47, ⟨12345, true⟩, true, true, false, (evMark 2), [], _, _, by decide +kernel,
     by decide +kernel, by decide +kernel, by decide +kernel, by decide +kernel, by decide +kernel,
     by decide +kernel, by decide +kernel, by decide +kernel, by decide +kernel, rfl, rfl, by decide +kernel⟩,
   ⟨wMarkConv 1, 1600, 1, 47, ⟨12345, true⟩, true, true, false, (evMark 1), [], _, _, by decide +kernel,
     by decide +kernel, by decide +kernel, by decide +kernel, by decide +kernel, by decide +kernel,
     by decide +kernel, by decide +kernel, by decide +kernel, by decide +kernel, rfl, rfl, by decide +kernel⟩,
   ⟨wPast [] (fun l => { l with launches := [⟨5, 100⟩], arrivals := [⟨6, 200⟩] }), 1, 6, 5, 200, 100,
     by decide +kernel⟩,
   ⟨wPast [] (fun l => { l with launches := [⟨5, 100⟩], arrivals := [⟨6, 200⟩] }), 1, 5, 5, by decide +kernel⟩,
   ⟨wPast [] id, 1, 6, by decide +kernel⟩,
   ⟨wPast [] id, 1, 7, by decide +kernel⟩,
   ⟨wPast [] id, 1, by decide +kernel⟩,
   ⟨wPast [(PLINK_STAT_SYNC 1, 0)] id, 1, by decide +kernel⟩,
   ⟨wPast [] id, 1600, 1, .linkSyncLoss 1600 1, by decide +kernel⟩,
   ⟨wPast [] id, 1600, 1, .helloTimeout 1600 1, by decide +kernel⟩,
   ⟨wPast [(PAST_STAT_ROLE, 1)] id, 1, by decide +kernel⟩,
   ⟨wPast [(PAST_STAT_ROLE, 3)] id, 1, by decide +kernel⟩,
   ⟨wElig, 1600 * 7, 1, by decide +kernel⟩,
   ⟨wBw 3 5 0 [], 1600, 1, by decide +kernel⟩,
   ⟨wPast [(PAST_STAT_ROLE, 2)] id, 1600, 1, by decide +kernel⟩,
   ⟨wBw 2 0 9 [(PAST_CFG_PREEMPT, 1)], 1600, 1, by decide +kernel⟩,
   ⟨wBw 1 9 9 [(PAST_CFG_PREEMPT, 1), (PAST_CFG_INDEX, 2)], 1600, 1, by decide +kernel⟩,
   ⟨wHeard, 1600, 1, by decide +kernel⟩,
   ⟨wBw 2 9 9 [(PAST_CFG_PREEMPT, 1)], 1600, 1, by decide +kernel⟩⟩

/-- States and operands that meet the hypotheses of each clause of PastureFrames. -/
theorem wit_PastureFrames :
    (∃ (s : State) (dt x src dst hops fseq mask seq time fsrc sev : Nat) (fold wr : Bool) (tag addr data status :
      Nat) (c : Instr), x < 2 ∧ s.dev.running = true ∧ fseq ∈ s.dev.past.seen.getD src [] ∧ c ∈ [Instr.strobeRx dt x
      src dst hops fseq mask time, Instr.musterRx dt x src dst hops fseq seq time, Instr.noticeRx dt x src dst hops
      fseq fsrc sev fold time, Instr.rreqRx dt x src dst hops fseq wr tag addr data, Instr.rrspRx dt x src dst hops
      fseq status tag data]) ∧
    (∃ (s : State) (dt x src dst hops fseq mask seq time fsrc sev : Nat) (fold wr : Bool) (tag addr data status :
      Nat) (c : Instr), x < 2 ∧ s.dev.running = true ∧ fseq ∈ s.dev.past.seen.getD src [] ∧ c ∈ [Instr.strobeRx dt x
      src dst hops fseq mask time, Instr.musterRx dt x src dst hops fseq seq time, Instr.noticeRx dt x src dst hops
      fseq fsrc sev fold time, Instr.rreqRx dt x src dst hops fseq wr tag addr data, Instr.rrspRx dt x src dst hops
      fseq status tag data]) ∧
    (∃ (s : State) (dt x src fseq mask time : Nat), x < 2 ∧ s.dev.running = true ∧ s.dev.Fresh x src fseq ∧ mask <
      256 ∧ (Dev.advance dt s.dev).nowU < time) ∧
    (∃ (s : State) (dt x src fseq seq time : Nat), x < 2 ∧ s.dev.running = true ∧ s.dev.Fresh x src fseq ∧ seq < 2 ^
      32 ∧ (Dev.advance dt s.dev).nowU < time) ∧
    (∃ (s : State) (x src fseq fsrc sev : Nat), x < 2 ∧ s.dev.running = true ∧ s.dev.Fresh x src fseq ∧ src < 8 ∧ sev
      < 4 ∧ fsrc < 64) ∧
    (∃ (s : State) (x src dst fseq addr data : Nat), x < 2 ∧ s.dev.running = true ∧ s.dev.Fresh x src fseq ∧ dst =
      s.dev.pastIndex ∧ inShdata addr 1 ∧ data < 2 ^ 32 ∧ s.dev.flag PAST_CFG_RACC_EN = true ∧ s.dev.flag
      PAST_STAT_BW_V = true ∧ s.dev.rd PAST_STAT_BW_IDX = src ∧ s.dev.Grants (4 + x) addr) ∧
    (∃ (s : State) (x src dst fseq : Nat), x < 2 ∧ s.dev.running = true ∧ s.dev.Fresh x src fseq ∧ dst =
      s.dev.pastIndex ∧ s.dev.mode ≠ Mode.reset ∧ (s.dev.flag PAST_CFG_RACC_EN = false ∨ s.dev.flag PAST_STAT_BW_V =
      false ∨ s.dev.rd PAST_STAT_BW_IDX ≠ src)) ∧
    (∃ (s : State) (x src dst fseq status tag data : Nat), x < 2 ∧ s.dev.running = true ∧ s.dev.Fresh x src fseq ∧
      dst = s.dev.pastIndex ∧ status < 8 ∧ data < 2 ^ 32 ∧ s.dev.flag PAST_RACC_STAT_BUSY = true ∧ tag = s.dev.rd
      PAST_RACC_STAT_TAG) ∧
    (∃ (s : State) (x src dst fseq status tag data : Nat), x < 2 ∧ s.dev.running = true ∧ s.dev.Fresh x src fseq ∧
      dst = s.dev.pastIndex ∧ status < 8 ∧ data < 2 ^ 32 ∧ s.dev.flag PAST_RACC_STAT_BUSY = true ∧ tag ≠ s.dev.rd
      PAST_RACC_STAT_TAG) ∧
    (∃ (s : State) (dt x dst m : Nat) (c : Instr), x < 2 ∧ (c = Instr.raccRead dt m dst ∨ c = Instr.raccWrite dt m
      dst) ∧ s.dev.Grants m rPAST_RACC_CTL ∧ s.dev.flag PAST_RACC_STAT_BUSY = true) ∧
    (∃ (s : State) (dt x dst m : Nat) (c : Instr), x < 2 ∧ (c = Instr.raccRead dt m dst ∨ c = Instr.raccWrite dt m
      dst) ∧ s.dev.Grants m rPAST_RACC_CTL ∧ s.dev.flag PAST_RACC_STAT_BUSY = false ∧ s.dev.rd PAST_STAT_ROLE ≠ 3) ∧
    (∃ (s : State) (dt x dst m : Nat) (c : Instr), x < 2 ∧ (c = Instr.raccRead dt m dst ∨ c = Instr.raccWrite dt m
      dst) ∧ s.dev.Grants m rPAST_RACC_CTL ∧ s.dev.flag PAST_RACC_STAT_BUSY = false ∧ s.dev.rd PAST_STAT_ROLE = 3) ∧
    (∃ (s : State) (x : Nat), x < 2 ∧ s.dev.flag PAST_RACC_STAT_BUSY = true) :=
  ⟨⟨wSeen, 1600, 1, 6, 7, 0, 255, 0, 0, 0, 0, 0, false, false, 0, 0, 0, 0, .strobeRx 1600 1 6 7 0 255 0 0,
      by decide +kernel⟩,
   ⟨wSeen, 1600, 1, 6, 7, 0, 255, 0, 0, 0, 0, 0, false, false, 0, 0, 0, 0, .rrspRx 1600 1 6 7 0 255 0 0 0,
     by decide +kernel⟩,
   ⟨wPast [] id, 1600, 1, 6, 255, 255, 10^18, by decide +kernel, by decide +kernel, ⟨by decide +kernel,
     by decide +kernel, by decide +kernel⟩, by decide +kernel⟩,
   ⟨wPast [] id, 1600, 1, 6, 255, 2^32-1, 10^18, by decide +kernel, by decide +kernel, ⟨by decide +kernel,
     by decide +kernel, by decide +kernel⟩, by decide +kernel⟩,
   ⟨wPast [] id, 1, 6, 255, 63, 3, by decide +kernel, by decide +kernel, ⟨by decide +kernel, by decide +kernel,
     by decide +kernel⟩, by decide +kernel⟩,
   ⟨wPast [(PAST_CFG_RACC_EN, 1), (PAST_STAT_BW_V, 1), (PAST_STAT_BW_IDX, 6)] id, 1, 6, 7, 255, 1441788, 2^32-1,
     by decide +kernel, by decide +kernel, ⟨by decide +kernel, by decide +kernel, by decide +kernel⟩,
     by decide +kernel, ⟨by decide +kernel, by decide +kernel, by decide +kernel⟩, by decide +kernel,
     by decide +kernel, by decide +kernel, by decide +kernel, ⟨by decide +kernel, by decide +kernel⟩⟩,
   ⟨wPast [(PAST_CFG_RACC_EN, 1), (PAST_STAT_BW_V, 1), (PAST_STAT_BW_IDX, 5)] id, 1, 6, 7, 255, by decide +kernel,
     by decide +kernel, ⟨by decide +kernel, by decide +kernel, by decide +kernel⟩, by decide +kernel⟩,
   ⟨wPast [(PAST_RACC_STAT_BUSY, 1), (PAST_RACC_STAT_TAG, 255)] id, 1, 6, 7, 255, 7, 255, 2^32-1, by decide +kernel,
     by decide +kernel, ⟨by decide +kernel, by decide +kernel, by decide +kernel⟩, by decide +kernel⟩,
   ⟨wPast [(PAST_RACC_STAT_BUSY, 1), (PAST_RACC_STAT_TAG, 255)] id, 1, 6, 7, 255, 7, 254, 2^32-1, by decide +kernel,
     by decide +kernel, ⟨by decide +kernel, by decide +kernel, by decide +kernel⟩, by decide +kernel⟩,
   ⟨wPast [(PAST_RACC_STAT_BUSY, 1)] id, 1600, 1, 5, 6, .raccRead 1600 6 5, by decide +kernel, by decide +kernel,
     ⟨by decide +kernel, by decide +kernel⟩, by decide +kernel⟩,
   ⟨wPast [] id, 1600, 1, 5, 6, .raccWrite 1600 6 5, by decide +kernel, by decide +kernel, ⟨by decide +kernel,
     by decide +kernel⟩, by decide +kernel⟩,
   ⟨wPast [(PAST_STAT_ROLE, 3)] id, 1600, 1, 5, 6, .raccWrite 1600 6 5, by decide +kernel, by decide +kernel,
     ⟨by decide +kernel, by decide +kernel⟩, by decide +kernel⟩,
   ⟨wPast [(PAST_RACC_STAT_BUSY, 1)] id, 1, by decide +kernel⟩⟩

/-- States and operands that meet the hypotheses of each clause of ResetState. -/
theorem wit_ResetState :
    (∃ (a : Nat) (r : RegRow), rowAt a = some r) ∧
    (∃ (n : Nat), n < 24) :=
  ⟨⟨rFLT_ESC, rowOf rFLT_ESC, by decide +kernel⟩,
   ⟨23, by decide +kernel⟩⟩

/-- In the states of these witnesses the edge before has left nothing to be settled on the way. -/
theorem wit_lag : (
    [wBoot 0, wBoot 1, wBoot 2, wRun, wUnlocked, wInj, wEsc, wFn, wDump, wLog, wDark, wBoot 3] ++
    [wSlots 1 2, wBoot 9, wApply, wParked, wBoot 7, wMode .service, wMode .sleep, wMode .fold, wCrook, wBusy .run 0,
      wFoldReq, wReset .por] ++
    [wReset .pin, wReset .soft, wReset .warm, wClaim, wMode .boot, wHalfAt (rPAD_SFO_LO 15) 7,
      wHalfAt (rPAD_HMODEL_LO 15) 7, wHalfAt (rPAD_SFO_LO 15 + 4) 7, wHalfAt (rPAD_HMODEL_LO 15 + 4) 7, wHalf, wI2c,
      wBusy .run 1] ++
    [wKey, wBusy .run 6, wMbxOut, wBusy .run 2, wMbxArg, wNvmBusy, wOpen, wNvmQ, wPatrol, wPatrol0, wDue, wCntBusy] ++
    [wReadyShut, wReady, wLockout, wKey51 0, wKey51 7, wKey51 6, wLearn, wChkBusy 3, wPlan, wChkBusy 2, wChkDone,
      wChkJob] ++
    [wChkRun, wNoMeas, wEdge3, wEdge, wLoses, wEdgeGen, wConv, wCells,
      wCell { Cell.fresh with role := .loop, busy := true }, wCell { Cell.fresh with role := .loop }, wNear,
      wCell { Cell.fresh with pilotDue := true }] ++
    [wHand 0, wHand 152, wCell { Cell.fresh with due := true }, wCalRun ⟨47, 0, false, false⟩,
      wCalRun ⟨47, 0, true, false⟩, wCell { Cell.fresh with role := .quar },
      wCell { Cell.fresh with role := .quar, eccQuar := true }, wCell { Cell.fresh with role := .retired },
      wCalRun ⟨47, 0, true, true⟩, wPush 6 [(MEAS_REQ_W0_RING, 15), (MEAS_REQ_W0_KIND, 4)],
      wPush 6 [(MEAS_REQ_W0_RING, 15), (MEAS_REQ_W0_KIND, 5)],
      wPush 6 [(MEAS_REQ_W0_RING, 15), (MEAS_REQ_W0_CH_A, 11), (MEAS_REQ_W0_CH_B, 11), (MEAS_REQ_W2_PARAM_A, 0), (MEAS_REQ_W4_PARAM_B, 65536)]] ++
    [wPush 6 [(MEAS_REQ_W0_RING, 15), (MEAS_REQ_W0_KIND, 1), (MEAS_REQ_W0_CH_A, 11), (MEAS_REQ_W2_PARAM_A, 1000000)],
      wPush 6 [(MEAS_REQ_W0_RING, 15), (MEAS_REQ_W0_KIND, 2), (MEAS_REQ_W0_CH_A, 11), (MEAS_REQ_W2_PARAM_A, 1)],
      wPush 6 [(MEAS_REQ_W0_RING, 15), (MEAS_REQ_W0_KIND, 3), (MEAS_REQ_W0_CH_A, 11), (MEAS_REQ_W2_PARAM_A, 2)],
      wPush 6 [(MEAS_REQ_W0_KIND, 15)], wPush 6 [(MEAS_REQ_W0_KIND, 6)], wJob job0,
      wJob { job0 with done := some done0 }, wJob { job0 with tag := 8 },
      wJob { job0 with start := some 3, cand := some 9 }, wJob { job0 with start := some 3 },
      wJob { job0 with kind := .freq },
      wRing [(TQ_HEAD_HEAD 15, 0xFFFF), (TQ_TAIL_TAIL 15, 0xFF01)] (fun g => { g with wq := [.paddock 3 15 11 5 7 true] })] ++
    [wRing [(TQ_HEAD_HEAD 15, 0xFFFF), (TQ_TAIL_TAIL 15, 0xFF00)] (fun g => { g with wq := [.paddock 3 15 11 5 7 true] }),
      wRingJob [(TQ_HEAD_HEAD 15, 0xFFFF), (TQ_TAIL_TAIL 15, 0xFF00)],
      wRingJob [(TQ_HEAD_HEAD 15, 0xFFFF), (TQ_TAIL_TAIL 15, 0xFEFF)], wRing [] id,
      wPad 0 2 [] (fun p => { p with refQ := [(10^15, 3)], fbQ := [] }),
      wPad 0 2 [] (fun p => { p with refQ := [(10^15, 3)], fbQ := [10^15 + 32768000000000] }),
      wPad 0 2 [] (fun p => { p with refQ := [(10^15, 3)], fbQ := [10^15 + 32767999999999] }), wPad 0 2 [] id,
      wBeat [] (fun b => { b with queue := [98304001], lastTs := some 1 }),
      wBeat [] (fun b => { b with queue := [98304002], lastTs := some 1 }), wTk [(PAD_TSTEP_NS_STEP 15, 1000000000)],
      wTk [(PAD_TSTEP_NS_STEP 15, 999999999), (PAD_STATE_STATE 15, 2)]] ++
    [wTk [(PAD_TSTEP_NS_STEP 15, 999999999)], wPad 0 4 [(PAD_SCFG_STEER_TMO 15, 1)] id,
      wPad 0 4 [(PAD_STATE_ACTIVE_V 15, 0), (PAD_CAND_CFG_VALID 15 0, 1), (PAD_CAND_CFG_CH 15 0, 11), (PAD_SCFG_PSLEW 15, 1)] (fun p => { p with spoRem := 5 }),
      wPad 0 4 [(PAD_STATE_ACTIVE_V 15, 0), (PAD_CAND_CFG_VALID 15 0, 1), (PAD_CAND_CFG_CH 15 0, 11), (PAD_SCFG_PSLEW 15, 1)] (fun p => { p with spoRem := -5 }),
      wPad 0 2 [(PAD_CTL_MODEL_EN 15, 1), (PAD_STATE_MODEL_STALE 15, 0)] id, wRef 3 [] id,
      wRef 1 [(REF_STAT_ACTIVITY 11, 1), (REF_WTR_WTR 11, 1)] id,
      wRef 1 [(REF_STAT_SPACING 11, 1), (REF_WTR_WTR 11, 1)] id,
      wRef 1 [(REF_STAT_ACTIVITY 11, 1), (REF_WTR_WTR 11, 0)] id,
      wRef 1 [(REF_STAT_ACTIVITY 11, 1), (REF_STAT_SPACING 11, 1)] id, wRef 2 [] (fun m => { m with fmOk := true }),
      wRef 2 [] id] ++
    [wRef 3 [(REF_OCXO_STAT_BASE, 1)] (fun m => { m with win := some win0 }), wOcxo [] id,
      wOcxo [(REF_OCXO_STAT_PRESENT, 1)] id, wOcxo [] (fun m => { m with lost := true }),
      wOcxo [] (fun m => { m with win := some { win0 with ref := ⟨11, 0, 65536000, 0⟩ } }), wAlive, wPlug,
      wFlock [] id, wFlock [(OUT_STAT_STATE 23, 1)] id, wFlock [(FLOCK_STAT_CAL_BUSY 5, 1)] id,
      wFlock [(FLOCK_STAT_LOCK 5, 1)] id, wFlockSleep] ++
    [wFlock [(PSYN_STAT_RUNNING 3, 1), (FLOCK_STAT_LOCK 0, 1)] id,
      wFlock [(PSYN_STAT_RUNNING 3, 1), (FLOCK_STAT_LOCK 0, 1)] (fun d => d.setPsyn 3 fun p => { p with next := 2 ^ 100 }),
      wFlock [(OUT_STAT_STATE 23, 2)] id, wBn [], wBn [(⟨rBN_STAT 7, 1, 1⟩, 1)], wBn [(⟨rBN_STAT 7, 0, 0⟩, 1)],
      wPort [(STEER_STAT_STATE 7, 1)] (fun p => { p with acc := 10 * 2 ^ 32 }),
      wPort [(STEER_STAT_STATE 7, 1)] (fun p => { p with acc := 11 * 2 ^ 32 }),
      wPort [(STEER_STAT_STATE 7, 1)] (fun p => { p with acc := -2 ^ 32 }),
      wPort [(STEER_STAT_STATE 7, 1)] (fun p => { p with first := true }), wPort [] id,
      wPort [(STEER_STAT_BUSY 7, 1)] id] ++
    [wPort [(STEER_STAT_STATE 7, 1), (STEER_TIMING_REFRESH 7, 1)] id, wPort [(STEER_STAT_STATE 7, 1)] id,
      wPort [(STEER_STAT_STATE 7, 2), (PAD_STATE_STATE 15, 2)] id,
      wPort [(STEER_STAT_STATE 7, 2), (PAD_STATE_STATE 15, 2), (STEER_STAT_CAUSE 7, 5)] id,
      wPort [(STEER_STAT_STATE 7, 1), (PAD_STATE_STATE 15, 2)] id,
      wPort [(STEER_STAT_STATE 7, 1), (STEER_CTL_FT_HOLDTMO 7, 1), (PAD_STATE_STATE 15, 3)] id,
      wPort [(STEER_STAT_STATE 7, 1), (STEER_CTL_FT_CLAMP 7, 1), (STEER_STAT_CLAMP_LIM 7, 1)] id, wPast [] id,
      wPast [] (fun l => { l with launches := [⟨5, 100⟩], arrivals := [⟨6, 200⟩] }),
      wPast [(PLINK_STAT_SYNC 1, 0)] id, wPast [(PAST_STAT_ROLE, 1)] id, wPast [(PAST_STAT_ROLE, 3)] id] ++
    [wElig, wSeen, wPast [(PAST_CFG_RACC_EN, 1), (PAST_STAT_BW_V, 1), (PAST_STAT_BW_IDX, 6)] id,
      wPast [(PAST_CFG_RACC_EN, 1), (PAST_STAT_BW_V, 1), (PAST_STAT_BW_IDX, 5)] id,
      wPast [(PAST_RACC_STAT_BUSY, 1), (PAST_RACC_STAT_TAG, 255)] id, wPast [(PAST_RACC_STAT_BUSY, 1)] id, wStream,
      wPastMask, wUpdated, wStrobe, wWaits, wMustEdge] ++
    [wMustered, wWdog, wCap, wFired, wTemp, wTally, wSec 16, wOut, wJtag, wLed, wPb, wSens 0] ++
    [wSens 1, wSens 2, wProg 7, wProgOne 62, wNvmWait 1, wNvmWait 0, wProgOp, wNvmOp 2, wNvmOp 1, wRefreshOp, wWeak,
      wRec] ++
    [wCompact, wScan, wStarved, wBootclk, wPad 0 2 [] (fun p => { p with learn := true }), wBootCal, wMark,
      wMarkConv 2, wMarkConv 1, wBw 3 5 0 [], wPast [(PAST_STAT_ROLE, 2)] id, wBw 2 0 9 [(PAST_CFG_PREEMPT, 1)]] ++
    [wBw 1 9 9 [(PAST_CFG_PREEMPT, 1), (PAST_CFG_INDEX, 2)], wHeard, wBw 2 9 9 [(PAST_CFG_PREEMPT, 1)], wLamp,
      wRing [(TQ_CFG_EPOCH_EN 15, 1)] id, wRing [(TQ_CFG_EPOCH_EN 15, 0)] id, wRing [(TQ_STAT_DISABLING 15, 1)] id,
      wRingJob [(TQ_STAT_DISABLING 15, 1)], wRing [(TQ_HEAD_HEAD 15, 3), (TQ_TAIL_TAIL 15, 0xFFFF)] id,
      wRing [(TQ_HEAD_HEAD 15, 3), (TQ_TAIL_TAIL 15, 0xFFFF), (TQ_CFG_MODE 15, 1)] id,
      wTp [(TQ_HEAD_HEAD 15, 3), (TQ_TAIL_TAIL 15, 0xFFFF)] id,
      wTp [(TP_STAT_TX1_UP, 1)] (fun t => { t with closed := [⟨15, 0, 3⟩] })] ++
    [wSent, wTp [(TP_STAT_TX0_UP, 1)] id, wTp [] id]).all (fun s => !s.dev.lag) = true := by decide +kernel

/-! ### The machine as a whole -/

theorem wit_StepRunsFrontCommand : ∃ (s : State) (c : Instr) (rest : List Instr), s.pending = c :: rest :=
  ⟨{ wRun with pending := [.poweredHour 0] }, _, _, rfl⟩

theorem wit_StepIdlesOnEmptyQueue : ∃ s : State, s.pending = [] := ⟨wRun, rfl⟩

theorem wit_StepKeepsSettled : ∃ s t : State, s.dev.Settled ∧ step s = .next t :=
  ⟨{ State.reset with pending := [.poweredHour 1600] }, _,
    (by constructor <;> decide +kernel), rfl⟩

theorem wit_StepKeepsInstances : (∃ s t : State, s.dev.Whole ∧ step s = .next t) ∧ ∃ s t : State, s.dev.MemOk ∧ step s = .next t :=
  ⟨⟨{ State.reset with pending := [.poweredHour 1600] }, _,
    ⟨rfl, rfl, rfl, rfl, rfl, rfl, rfl, rfl, rfl, rfl, rfl, rfl, rfl, rfl⟩, rfl⟩,
   ⟨wProgOne 62, _, mem_ok (by decide +kernel) (by decide +kernel) (by decide +kernel), rfl⟩⟩

end Sys2Proof.Tests
end

section
/-!
PROOF. The choice of a slot (09 R239, R240, R242; O15): the order of two sequence numbers, the class of a slot of a dark array,
what the scan of both slots records, and the choice that follows from it.
-/

namespace Sys2Proof.Machine

/-- What holds of the device wherever a command completes may be weakened. -/
theorem Completes.imp {c : Instr} {s : State} {P Q : Dev → Prop} (h : Completes c s P) (hpq : ∀ t, P t → Q t) :
    Completes c s Q := by
  obtain ⟨t, he, hq, hp⟩ := h
  exact ⟨t, he, hq, fun hl => hpq _ (hp hl)⟩

/-! ### The choice among two classes (09 R240) -/

/-- The distance of two sequence numbers, which the model forms without negative numbers, is R240's. -/
theorem serialGap_eq (p q : Nat) :
    (((q % 0x100000000 + 0x100000000 - p % 0x100000000) % 0x100000000 : Nat) : Int) = ((q : Int) - p) % 2 ^ 32 := by
  omega

section Choice

variable {clsA clsB seqA seqB chkA chkB : Nat}

theorem chooseSlot_neither (hA : bootable clsA = false) (hB : bootable clsB = false) :
    chooseSlot clsA clsB seqA seqB chkA chkB = (none, false) := by
  simp [chooseSlot, hA, hB]

theorem chooseSlot_onlyA (hA : bootable clsA = true) (hB : bootable clsB = false) :
    chooseSlot clsA clsB seqA seqB chkA chkB = (some 0, false) := by
  simp [chooseSlot, hA, hB]

theorem chooseSlot_onlyB (hA : bootable clsA = false) (hB : bootable clsB = true) :
    chooseSlot clsA clsB seqA seqB chkA chkB = (some 1, false) := by
  simp [chooseSlot, hA, hB]

/-- Of two bootable slots the distance of their sequence numbers decides. -/
theorem chooseSlot_both (hA : bootable clsA = true) (hB : bootable clsB = true) {n : Int}
    (hn : n = ((seqB : Int) - seqA) % 2 ^ 32) :
    chooseSlot clsA clsB seqA seqB chkA chkB =
      if 1 ≤ n ∧ n ≤ 2 ^ 31 - 1 then (some 1, false)
      else if 2 ^ 31 < n then (some 0, false)
      else (some (if clsA = clsCorrected ∧ clsB = clsClean then 1 else 0), decide (n = 2 ^ 31) || decide (chkA ≠ chkB)) := by
  rw [← serialGap_eq] at hn
  unfold chooseSlot
  generalize (seqB % 0x100000000 + 0x100000000 - seqA % 0x100000000) % 0x100000000 = g at hn ⊢
  have hnewer : (1 ≤ n ∧ n ≤ 2 ^ 31 - 1) ↔ 1 ≤ g ∧ g ≤ 0x7FFFFFFF := by omega
  have holder : 2 ^ 31 < n ↔ 0x80000000 < g := by omega
  have hhalf : n = 2 ^ 31 ↔ g = 0x80000000 := by omega
  simp only [hA, hB, hnewer, holder, hhalf, not_true_eq_false, and_self, if_false]

end Choice

/-! ### A dark array (12 R309; 13 R343) -/

theorem ImgSrc.num_erased {g : ImgSrc} (hm : g.mem = []) (hd : g.dflt = 0xFF) (o : Nat) : g.num o 4 = 2 ^ 32 - 1 := by
  simp [ImgSrc.num, ByteMem.bytes, ByteMem.get, hm, hd, List.range_succ, leNat]

/-- A slot of a dark array reads as all ones, so that it shows no commit pattern and is EMPTY, whatever else its read meets. -/
theorem Dev.classify_of_dark {d : Dev} (h : d.nvmDark = true) (k xoin : Nat) (corr : Bool) (bad : List Nat) :
    (d.slotSrc k).classify xoin corr bad = (clsEmpty, 1) := by
  have hseen : (d.slotSrc k).mem = [] := by simp [Dev.slotSrc, Dev.nvmSeen, h]
  have hword := ImgSrc.num_erased hseen rfl ((d.slotSrc k).commitAt + 12)
  have hopen : (d.slotSrc k).committed bad = false := by simp [ImgSrc.committed, hword, commitPattern]
  simp [ImgSrc.classify, hopen]

/-! ### The boot stage in DEV_MODE (09 R251) -/

theorem Dev.stage_setStage (d : Dev) {n : Nat} (h : n < 16) : (d.setStage n).stage = n :=
  (Dev.rd_wr_self d DEV_MODE_BOOT_STAGE n (by decide)).trans (Nat.mod_eq_of_lt h)

theorem Dev.mode_setStage (d : Dev) (n : Nat) : (d.setStage n).mode = d.mode :=
  congrArg Mode.ofCode (Dev.rd_wr_of_disjoint d DEV_MODE_BOOT_STAGE DEV_MODE_MODE n (by decide) (by decide) (by decide))

theorem Dev.Steady.setStage {d : Dev} (h : d.Steady) (n : Nat) : (d.setStage n).Steady :=
  h.of_flt rfl (Dev.mode_setStage d n) rfl

theorem Dev.Steady.setBoot {d : Dev} (h : d.Steady) (b : Boot) : ({ d with boot := b } : Dev).Steady :=
  h.of_flt rfl rfl rfl

theorem Dev.stage_setBoot (d : Dev) (b : Boot) : ({ d with boot := b } : Dev).stage = d.stage := Dev.rd_with_boot d b _

theorem Stays.stage {d e : Dev} (h : Stays d e) : e.stage = d.stage :=
  h.toKeeps.rd _ (not_steadyReg (by decide) (by decide) (by decide) (by decide))

/-! ### The scan of both slots (09 R239, R240, R242) -/

/-- Class and code that the scan gives slot `k`. -/
def Dev.scanClass (d : Dev) (corr : Bool) (badA badB : List Nat) (k : Nat) : Nat × Nat :=
  (d.slotSrc k).classify d.clk.xoin (corr && !d.nvmDark) ((d.slotFound badA badB).slotErrs k)

/-- The slot chosen where the slots have these classes, and the tie. -/
def Dev.scanChoice (d : Dev) (clsA clsB : Nat) : Option Nat × Bool :=
  let a := d.slotSrc 0
  let b := d.slotSrc 1
  chooseSlot clsA clsB a.sequence b.sequence (a.num (a.commitAt + 8) 4) (b.num (b.commitAt + 8) 4)

/-- The scan that found classes and codes `ca` and `cb` and chose `r` stands recorded in `t`, and boot has moved on: to the load of
the slot chosen, or, without one, to NO_IMAGE or WAIT_HOST as the straps say. -/
structure Scanned (strap : Nat) (ca cb : Nat × Nat) (r : Option Nat × Bool) (t : Dev) : Prop where
  clsA : t.boot.clsA = ca.1
  clsB : t.boot.clsB = cb.1
  diagA : t.boot.diagA = ca.2
  diagB : t.boot.diagB = cb.2
  tie : t.boot.tie = r.2
  chosen : ∀ k, r.1 = some k → t.stage = 9 ∧ t.boot.src = k
  noneChosen : r.1 = none → t.stage = if strap = 0 then 4 else 5

theorem Scanned.stays {strap : Nat} {ca cb : Nat × Nat} {r : Option Nat × Bool} {d t : Dev} (h : Scanned strap ca cb r d)
    (hs : Stays d t) : Scanned strap ca cb r t := by
  obtain ⟨hclsA, hclsB, hdiagA, hdiagB, htie, hchosen, hnone⟩ := h
  constructor <;> simpa only [hs.boot, hs.stage]

section Scan

variable {d : Dev} {corrA corrB : Bool} {badA badB : List Nat}

/-- In stage 3 the scan records its findings, and its choice decides what follows. -/
theorem Dev.slotScan_scanned (h : d.atStage 3 = true) :
    Scanned d.boot.strap (d.scanClass corrA badA badB 0) (d.scanClass corrB badA badB 1)
      (d.scanChoice (d.scanClass corrA badA badB 0).1 (d.scanClass corrB badA badB 1).1)
      (d.slotScan corrA corrB badA badB) := by
  simp only [Dev.slotScan, h, not_true_eq_false, if_false]
  split
  next k hk =>
    refine ⟨rfl, rfl, rfl, rfl, rfl, fun j hj => ⟨?_, ?_⟩, fun hn => ?_⟩
    · exact (Dev.stage_setBoot _ _).trans (Dev.stage_setStage _ (by decide))
    · exact Option.some.inj (hk.symm.trans hj)
    · exact absurd (hk.symm.trans hn) (by simp)
  next hk =>
    refine ⟨rfl, rfl, rfl, rfl, rfl, fun j hj => absurd (hk.symm.trans hj) (by simp), fun _ => ?_⟩
    exact Dev.stage_setStage _ (by split <;> decide)

theorem Dev.slotScan_steady (hs : d.Steady) : (d.slotScan corrA corrB badA badB).Steady := by
  unfold Dev.slotScan
  split
  · exact hs
  · dsimp only
    split
    · exact (((hs.setBoot _).setBoot _).setStage 9).setBoot _
    · exact ((hs.setBoot _).setBoot _).setStage _

end Scan

/-- SLOT_SCAN_DONE in stage 3 completes with the scan recorded. -/
theorem slotScanDone_scanned {s : State} (hs : s.dev.Steady) (h : s.dev.atStage 3 = true) (dt : Nat) (corrA corrB : Bool)
    (badA badB : List Nat) :
    Completes (.slotScanDone dt corrA corrB badA badB) s
      (Scanned s.dev.boot.strap (s.dev.scanClass corrA badA badB 0) (s.dev.scanClass corrB badA badB 1)
        (s.dev.scanChoice (s.dev.scanClass corrA badA badB 0).1 (s.dev.scanClass corrB badA badB 1).1)) :=
  Completes.of_steady rfl (Dev.slotScan_steady (hs.advance dt)) fun _ ht =>
    (Dev.slotScan_scanned (d := s.dev.advance dt) h).stays ht

/-- Settles O15: the scan's record, with the choice case by case. -/
theorem bootSlotChoice : Obligations.BootSlotChoice := by
  intro s dt corrA corrB badA badB hs hstage
  have hscan := slotScanDone_scanned hs hstage dt corrA corrB badA badB
  refine ⟨fun hdark => ?_, fun hlit ca cb n hca hcb hn => ?_⟩
  · have hempty : ∀ corr k, s.dev.scanClass corr badA badB k = (clsEmpty, 1) :=
      fun _ _ => Dev.classify_of_dark hdark ..
    have hnone : s.dev.scanChoice clsEmpty clsEmpty = (none, false) := chooseSlot_neither rfl rfl
    simp only [hempty, hnone] at hscan
    exact hscan.imp fun t ht => ⟨ht.clsA, ht.clsB, ht.noneChosen rfl⟩
  · have hca' : s.dev.scanClass corrA badA badB 0 = ca := by simpa [Dev.scanClass, hlit] using hca
    have hcb' : s.dev.scanClass corrB badA badB 1 = cb := by simpa [Dev.scanClass, hlit] using hcb
    rw [hca', hcb'] at hscan
    refine hscan.imp fun t ht => ⟨ht.clsA, ht.clsB, ht.diagA, ht.diagB, fun hA hB => ?_, fun hA hB => ?_, fun hA hB => ?_,
      fun hA hB => ?_⟩
    · rw [Dev.scanChoice, chooseSlot_neither hA hB] at ht
      exact ⟨ht.noneChosen rfl, ht.tie⟩
    · rw [Dev.scanChoice, chooseSlot_onlyA hA hB] at ht
      obtain ⟨hload, hsrc⟩ := ht.chosen 0 rfl
      exact ⟨hload, hsrc, ht.tie⟩
    · rw [Dev.scanChoice, chooseSlot_onlyB hA hB] at ht
      obtain ⟨hload, hsrc⟩ := ht.chosen 1 rfl
      exact ⟨hload, hsrc, ht.tie⟩
    · rw [Dev.scanChoice, chooseSlot_both hA hB hn] at ht
      split at ht
      next hBnewer =>
        obtain ⟨hload, hsrc⟩ := ht.chosen 1 rfl
        exact ⟨hload, fun _ _ => ⟨hsrc, ht.tie⟩, by omega, by omega⟩
      next hBnewer =>
        split at ht
        next hAnewer =>
          obtain ⟨hload, hsrc⟩ := ht.chosen 0 rfl
          exact ⟨hload, fun h1 h2 => absurd ⟨h1, h2⟩ hBnewer, fun _ => ⟨hsrc, ht.tie⟩, by omega⟩
        next hAnewer =>
          obtain ⟨hload, hsrc⟩ := ht.chosen _ rfl
          exact ⟨hload, fun h1 h2 => absurd ⟨h1, h2⟩ hBnewer, fun h => absurd h hAnewer, fun _ => ⟨hsrc, ht.tie⟩⟩

end Sys2Proof.Machine
end

section
/-!
PROOF. The USER sources (11 R298; O12): what a firing leaves of the firing trace and of the other sources' latched bits, what
firings one after another do, and a write of FLT_USER.
-/

namespace Sys2Proof.Machine

/-! ### What a firing leaves of the firing trace (11 R304) -/

/-- An update that leaves the firing trace. -/
structure TraceKept (d e : Dev) : Prop where
  trace : e.flt.trace = d.flt.trace

namespace TraceKept

theorem refl (d : Dev) : TraceKept d d := ⟨rfl⟩

theorem trans {d e f : Dev} (h : TraceKept d e) (h' : TraceKept e f) : TraceKept d f := ⟨h'.trace.trans h.trace⟩

theorem of_flt {d e : Dev} (h : e.flt = d.flt) : TraceKept d e := ⟨congrArg Flt.trace h⟩

theorem wr (d : Dev) (f : Fld) (v : Nat) : TraceKept d (d.wr f v) := of_flt (Dev.wr_flt d f v)

theorem setFlt (d : Dev) (F : Flt) (h : F.trace = d.flt.trace) : TraceKept d { d with flt := F } := ⟨h⟩

theorem setNvmc (d : Dev) (n : NvmCtl) : TraceKept d { d with nvmc := n } := ⟨rfl⟩

theorem setPast (d : Dev) (p : Past) : TraceKept d { d with past := p } := ⟨rfl⟩

theorem setFront (d : Dev) (p : Front) : TraceKept d { d with front := p } := ⟨rfl⟩

theorem when {d : Dev} (b : Bool) {f : Dev → Dev} (h : TraceKept d (f d)) : TraceKept d (d.when b f) := by
  cases b
  · exact refl d
  · exact h

/-- A condition in the middle of a run of updates. -/
theorem andWhen {d0 d : Dev} (b : Bool) (f : Dev → Dev) (h0 : TraceKept d0 d) (h : ∀ x, TraceKept x (f x)) :
    TraceKept d0 (d.when b f) := h0.trans (when b (h d))

theorem forN (n : Nat) (f : Nat → Dev → Dev) (h : ∀ k d, TraceKept d (f k d)) (d : Dev) : TraceKept d (forN n f d) := by
  induction n with
  | zero => exact refl d
  | succ n ih => rw [forN_succ]; exact ih.trans (h n _)

theorem fillCapture (f : Firing) (repl multi : Bool) (d : Dev) : TraceKept d (d.fillCapture f repl multi) := by
  unfold Dev.fillCapture
  refine trans ?_ (setFlt _ _ rfl)
  refine trans ?_ (wr _ FLT_CAP_FRAC_FRAC _)
  refine trans ?_ (wr _ FLT_CAP_NS_NS _)
  refine trans ?_ (wr _ FLT_CAP_SEC_HI_SEC _)
  refine trans ?_ (wr _ FLT_CAP_SEC_LO_SEC _)
  refine trans ?_ (wr _ FLT_CAP_SEQ_SEQ _)
  refine trans ?_ (wr _ FLT_CAP_DETAIL_DETAIL _)
  refine trans ?_ (wr _ FLT_CAP_ADDR_ADDR _)
  exact of_flt (Dev.setWord_flt _ _ _)

theorem captureFiring (f : Firing) (d : Dev) : TraceKept d (d.captureFiring f) := by
  unfold Dev.captureFiring
  split
  · exact fillCapture ..
  · split
    · dsimp only
      split
      · exact fillCapture ..
      · exact wr ..
    · split
      · exact fillCapture ..
      · exact of_flt (Dev.bump_flt _ _)

theorem sendOn (x t ds sr h q : Nat) (p : List Nat) (d : Dev) : TraceKept d (d.sendOn x t ds sr h q p) := by
  unfold Dev.sendOn
  split
  · exact of_flt rfl
  · exact refl d

theorem originate (t ds : Nat) (p : List Nat) (d : Dev) : TraceKept d (d.originate t ds p) := by
  unfold Dev.originate
  split
  · exact refl d
  · exact (setPast d _).trans ((sendOn ..).trans (sendOn ..))

theorem noticeAtLatch (src sev : Nat) (d : Dev) : TraceKept d (d.noticeAtLatch src sev) := by
  unfold Dev.noticeAtLatch
  exact when _ (originate ..)

theorem dumpTrigger (src sev : Nat) (inj fresh : Bool) (d : Dev) : TraceKept d (d.dumpTrigger src sev inj fresh) := by
  unfold Dev.dumpTrigger
  split
  · unfold Dev.bumpSat
    split
    · exact wr ..
    · exact refl d
  · refine trans ?_ (wr _ FLT_STAT_DUMP_BUSY _)
    exact setFlt d _ rfl

theorem alignStop (d : Dev) : TraceKept d d.alignStop := by
  unfold Dev.alignStop
  split
  · exact of_flt rfl
  · exact refl d

theorem mbxComplete (code : Nat) (res : List Nat) (d : Dev) : TraceKept d (d.mbxComplete code res) := by
  unfold Dev.mbxComplete
  refine trans ?_ (of_flt (Dev.evt_flt _ DEV_MBX_EVT_DONE))
  refine trans ?_ (wr _ DEV_MBX_STAT_DONE _)
  refine trans ?_ (wr _ DEV_MBX_STAT_BUSY _)
  refine trans ?_ (forN 4 _ (fun _ _ => wr ..) _)
  refine trans ?_ (wr _ DEV_MBX_STAT_CODE _)
  exact (alignStop d).trans (setFlt _ _ rfl)

theorem stopCopy (d : Dev) : TraceKept d d.stopCopy := by
  unfold Dev.stopCopy
  exact andWhen _ _ (setNvmc d _) fun x => wr x NVM_STAT_WAIT_POWER 0

theorem dumpAbort (d : Dev) : TraceKept d d.dumpAbort := by
  unfold Dev.dumpAbort
  refine ((mbxComplete _ _ d).trans (when _ ?_)).trans (stopCopy _)
  refine trans ?_ (wr _ FLT_STAT_DUMP_BUSY _)
  exact setFlt _ _ rfl

theorem ackEnd (d : Dev) : TraceKept d d.ackEnd := setFront d _

theorem reactTo (src sev : Nat) (inj full forced : Bool) (d : Dev) : TraceKept d (d.reactTo src sev inj full forced) := by
  unfold Dev.reactTo
  dsimp only
  split
  · exact andWhen _ _ (when _ (wr ..)) ackEnd
  · refine andWhen _ _ (andWhen _ _ (andWhen _ _ (andWhen _ _ (andWhen _ _ (when _ (wr ..)) ackEnd) ?_) ?_) ?_) ?_
    · exact fun x => trans (wr ..) (setFlt _ _ rfl)
    · exact fun x => (when _ (dumpAbort x)).trans (dumpTrigger ..)
    · exact fun x => trans (wr ..) (setFlt _ _ rfl)
    · exact fun x => setFlt x _ rfl

end TraceKept

/-- The registers that a firing can write after the capture has taken it. -/
def AfterCapReg (a : Nat) : Prop := ReactReg a ∨ a = 0x010094

/-- What a firing does once the capture has taken it: it writes status and reactions alone, and adds its entry to the firing
trace, which holds the last 32 (11 R304). -/
theorem Dev.afterCount_afterCapture (f : Firing) (sim : Bool) (d : Dev) :
    Still AfterCapReg (d.captureFiring f) (d.afterCount f sim) ∧
      ∃ e : FiringEntry, (e.src, e.inj) = (f.src, f.inj) ∧
        (d.afterCount f sim).flt.trace = (d.flt.trace ++ [e]).drop (d.flt.trace.length + 1 - 32) := by
  generalize hx : d.afterCount f sim = x
  unfold Dev.afterCount at hx
  extract_lets d1 real d2 t e l flt d3 d4 d5 at hx
  have react : Still AfterCapReg d5 x ∧ TraceKept d5 x := by
    rw [← hx]
    split
    · exact ⟨(Still.reactTo ..).mono fun _ => Or.inl, TraceKept.reactTo ..⟩
    · exact ⟨Still.refl _ d5, TraceKept.refl d5⟩
  refine ⟨?_, e, rfl, ?_⟩
  · have inj : Still AfterCapReg d1 d2 := Still.when d1 _ _ (Still.wr d1 FLT_INJ_STAT_REAL 1 (Or.inr rfl))
    have entry : Still AfterCapReg d2 d3 := Still.setFlt d2 _ rfl rfl rfl
    have notice : Still AfterCapReg d3 d5 := (Still.when d3 _ _ (Still.setNvmc d3 _)).trans (Still.noticeAtLatch ..)
    exact inj.trans (entry.trans (notice.trans react.1))
  · have before : TraceKept d d2 := (TraceKept.captureFiring f d).trans (TraceKept.when _ (TraceKept.wr ..))
    have entry : d3.flt.trace = (d2.flt.trace ++ [e]).drop (d2.flt.trace.length + 1 - 32) := rfl
    have notice : TraceKept d3 d5 := (TraceKept.when _ (TraceKept.setNvmc d3 _)).trans (TraceKept.noticeAtLatch ..)
    rw [react.2.trace, notice.trace, entry, before.trace]

/-! ### Firings one after another (11 R283, R304) -/

/-- A bit that is not the one set stands. -/
theorem bitsOf_or_two_pow_of_ne (w : Nat) {j k : Nat} (h : j ≠ k) : bitsOf (w ||| 2 ^ j) k k = bitsOf w k k := by
  have bit : ∀ v, bitsOf v k k = (v.testBit k).toNat := fun v => by
    rw [bitsOf_eq, Nat.toNat_testBit, Nat.sub_self, Nat.zero_add, Nat.pow_one]
  rw [bit, bit, Nat.testBit_or, Nat.testBit_two_pow_of_ne h, Bool.or_false]

/-- A status bit stands where another bit of its register sets (10 R273). -/
theorem Dev.flag_evt_of_bit_ne (d : Dev) (f g : Fld) (hf : f.lo < 24) (hg : g.hi = g.lo) (hl : g.lo < 24)
    (h : f.lo ≠ g.lo) : (d.evt f).flag g = d.flag g := by
  by_cases ha : g.addr = f.addr
  · unfold Dev.flag Dev.evt Dev.evtMask
    rw [Dev.rd_with_bumped]
    unfold Dev.rd
    have hm : 2 ^ f.lo % 0x1000000 = 2 ^ f.lo := Nat.mod_eq_of_lt (Nat.pow_lt_pow_right (by decide) hf)
    rw [ha, Dev.word_setWord_self, Word.toNat_of, bitsOf_mod _ _ _ (by omega) (by omega), hg,
      bitsOf_setBits_below _ _ _ _ _ _ (by omega) (Nat.le_refl _), hm, bitsOf_or_two_pow_of_ne _ h]
  · exact Dev.flag_evt_of_ne d f g ha

/-- Two sources have two latched bits. -/
theorem ackFld_ne {j k : Nat} (hj : j < 64) (hk : k < 64) (h : j ≠ k) :
    (ackFld k).addr ≠ (ackFld j).addr ∨ (ackFld j).lo ≠ (ackFld k).lo := by
  unfold ackFld
  split_ifs <;> simp [rFLT_ACK_0, rFLT_ACK_1, rFLT_ACK_2] <;> omega

/-- A firing leaves the latched bits of the other sources (11 R283). -/
theorem Dev.fire_latched_of_ne (d : Dev) (detail : Nat) {j k : Nat} (hj : j < 64) (hk : k < 64) (h : j ≠ k) :
    (d.fire j detail).latched k = d.latched k := by
  have hr := ackFld_addr k
  obtain ⟨hb, hl⟩ := ackFld_bit k hk
  unfold Dev.latched Dev.fire
  rw [Dev.fireAs_eq,
    (Still.afterCount ..).flag _ (not_fireReg (Or.inl (by omega)) (Or.inr (by omega)) (by omega) (by omega)), Dev.bump,
    Dev.flag_wr_of_ne _ _ _ _ (by simp only [FLT_SEQNO_COUNT, rFLT_SEQNO]; omega)]
  rcases ackFld_ne hj hk h with ha | hbit
  · exact Dev.flag_evt_of_ne d _ _ ha
  · exact Dev.flag_evt_of_bit_ne d _ _ (ackFld_bit j hj).2 hb hl hbit

/-- What a firing does to the firing trace: its entry is the last of at most 32 (11 R304). -/
theorem Dev.fire_trace (d : Dev) (src detail : Nat) :
    ∃ e : FiringEntry, (e.src, e.inj) = (src, false) ∧
      (d.fire src detail).flt.trace = (d.flt.trace ++ [e]).drop (d.flt.trace.length + 1 - 32) := by
  obtain ⟨-, e, he, ht⟩ := Dev.afterCount_afterCapture (d.firing src detail none false) false
    ((d.evt (ackFld src)).bump FLT_SEQNO_COUNT)
  refine ⟨e, he, ?_⟩
  rwa [← Dev.fireAs_eq, Dev.bump_flt, Dev.evt_flt] at ht

/-- Sources fire for real, one after another. -/
def Dev.fireAll (srcs : List Nat) (d : Dev) : Dev := srcs.foldl (fun d src => d.fire src 0) d

theorem Dev.fireAll_concat (srcs : List Nat) (src : Nat) (d : Dev) :
    d.fireAll (srcs ++ [src]) = (d.fireAll srcs).fire src 0 := by
  simp [Dev.fireAll, List.foldl_append]

/-- FLT_USER fires the sources of the bits written, the lowest first (11 R298). -/
theorem Dev.userFire_eq (w : Nat) (d : Dev) :
    d.userFire w = d.fireAll (((List.range 4).filter fun k => w.testBit k).map (60 + ·)) := by
  simp [Dev.userFire, Dev.fireAll, forN, Dev.when, List.foldl_map, List.foldl_filter]

theorem Dev.fireAll_counted (srcs : List Nat) (h : ∀ j ∈ srcs, j < 64) (d : Dev) :
    (d.fireAll srcs).rd FLT_SEQNO_COUNT = (d.rd FLT_SEQNO_COUNT + srcs.length) % 2 ^ 32 := by
  induction srcs using List.reverseRecOn with
  | nil => exact (Nat.mod_eq_of_lt (bitsOf_lt _ _ _)).symm
  | append_singleton srcs src ih =>
    rw [Dev.fireAll_concat]
    have hf : Fired src (d.fireAll srcs) ((d.fireAll srcs).fire src 0) :=
      Dev.fireAs_fired src 0 none false false _ (h src (by simp))
    rw [hf.counted, ih fun j hj => h j (by simp [hj]), List.length_append, List.length_singleton]
    omega

theorem Dev.fireAll_latched (srcs : List Nat) (h : ∀ j ∈ srcs, j < 64) (d : Dev) {k : Nat} (hk : k < 64) :
    (d.fireAll srcs).latched k = (decide (k ∈ srcs) || d.latched k) := by
  induction srcs using List.reverseRecOn with
  | nil => simp [Dev.fireAll]
  | append_singleton srcs src ih =>
    rw [Dev.fireAll_concat]
    have hsrc := h src (by simp)
    by_cases hs : src = k
    · subst hs
      have hf : Fired src (d.fireAll srcs) ((d.fireAll srcs).fire src 0) :=
        Dev.fireAs_fired src 0 none false false _ hsrc
      simp [hf.latched]
    · rw [Dev.fire_latched_of_ne _ _ hsrc hk hs, ih fun j hj => h j (by simp [hj])]
      simp [Ne.symm hs]

/-- An entry of the firing trace as its source and whether it was injected. -/
def FiringEntry.mark (e : FiringEntry) : Nat × Bool := (e.src, e.inj)

/-- As many firings as the firing trace has room for stand at its end, none as an injection (11 R304). -/
theorem Dev.fireAll_traced (srcs : List Nat) (h : srcs.length ≤ 32) (d : Dev) :
    srcs.map (·, false) <:+ (d.fireAll srcs).flt.trace.map FiringEntry.mark := by
  induction srcs using List.reverseRecOn with
  | nil => exact List.nil_suffix
  | append_singleton srcs src ih =>
    rw [List.length_append, List.length_singleton] at h
    have ih := ih (by omega)
    obtain ⟨e, he, ht⟩ := Dev.fire_trace (d.fireAll srcs) src 0
    have hlen := ih.length_le
    rw [Dev.fireAll_concat, ht, List.map_append, List.map_drop, List.map_append]
    refine List.suffix_of_suffix_length_le (l₃ := (d.fireAll srcs).flt.trace.map FiringEntry.mark ++ [(src, false)])
      ?_ ?_ ?_
    · obtain ⟨old, hold⟩ := ih
      exact ⟨old, by rw [← hold]; simp⟩
    · rw [← he]
      exact List.drop_suffix _ _
    · simp only [List.length_map, List.length_append, List.length_drop, List.length_singleton] at hlen ⊢
      omega

/-! ### FLT_USER (11 R298) -/

/-- An accepted write of FLT_USER fires and does nothing else. -/
theorem Dev.write_fltUser {d : Dev} {m w : Nat} (h : d.Grants m rFLT_USER) (hw : w < 16) :
    d.write m rFLT_USER w = (d.userFire w).accessEdge := by
  have row : ∃ r, rowAt rFLT_USER = some r ∧ plainCommand rFLT_USER r = true ∧ r.rw = 0 ∧ r.rws = 0 ∧
      reservedBits r = 0xFFFFFFF0 := ⟨_, rfl, by decide, rfl, rfl, by decide⟩
  obtain ⟨r, hr, hp, hrw, hrws, hres⟩ := row
  have hfree : w % 2 ^ 32 &&& reservedBits r = 0 := by
    rw [hres]
    interval_cases w <;> rfl
  rw [Dev.write_command h hr hp, Dev.noteReserved_of_zero hfree, Dev.writeRw_of_zero _ _ hrw, Dev.writeRws_of_zero _ _ hrws,
    Nat.mod_eq_of_lt (by omega)]
  rfl

/-- Settles O12: the bits written fire their sources one after another. -/
theorem userBitsFireOnceEach : Obligations.UserBitsFireOnceEach := by
  intro s dt m mask hmask hg
  refine Effects.of_run rfl ?_
  rw [Nat.mod_eq_of_lt hmask, Dev.write_fltUser (hg.advance dt) hmask, Dev.userFire_eq]
  set bits := (List.range 4).filter fun k => mask.testBit k with hbits
  have hsrc : ∀ j ∈ bits.map (60 + ·), j < 64 := by
    intro j hj
    obtain ⟨k, hk, rfl⟩ := List.mem_map.1 hj
    have := List.mem_range.1 (List.mem_filter.1 hk).1
    omega
  have hlen : (bits.map (60 + ·)).length = bits.length := List.length_map _
  refine ⟨?_, fun k hk => ?_, ?_⟩
  · exact (Dev.fireAll_counted _ hsrc _).trans (by rw [hlen]; rfl)
  · refine (Dev.fireAll_latched _ hsrc _ (by omega)).trans ?_
    have hmem : decide (60 + k ∈ bits.map (60 + ·)) = mask.testBit k := by simp [hbits, hk]
    rw [hmem]
    rfl
  · have htr := List.suffix_iff_eq_drop.1 (Dev.fireAll_traced (bits.map (60 + ·)) ?_ (s.dev.advance dt))
    · rw [List.length_map, List.length_map, List.length_map, ← List.map_drop, List.map_map] at htr
      exact htr.symm
    · rw [hlen]
      exact (List.length_filter_le _ _).trans (by simp)

end Sys2Proof.Machine
end

section
/-!
PROOF. The release of the capture (11 R293; O13): what fills the capture, what further firings of the edge do to it, and a release
on an edge on which nothing has fired and among the firings of its edge.
-/

namespace Sys2Proof.Machine

/-! ### The capture (11 R292) -/

/-- The word that a firing leaves in FLT_CAP_SRC. -/
def Firing.capWord (f : Firing) (repl multi : Bool) : Nat :=
  let m := f.acc.bind fun a => a.master
  let type := match f.acc with | some a => a.type | none => accInternal
  let head := setBits (setBits (setBits (setBits 0 31 31 1) 30 30 (b2n f.inj)) 29 29 (b2n repl)) 28 28 (b2n multi)
  let access := setBits (setBits (setBits head 27 25 type) 24 24 (b2n m.isSome)) 23 21 (m.getD 0)
  setBits (setBits access 20 19 f.sev) 5 0 f.src

theorem Dev.fillCapture_word (f : Firing) (repl multi : Bool) (d : Dev) :
    (d.fillCapture f repl multi).word rFLT_CAP_SRC = Word.of (f.capWord repl multi) := by
  unfold Dev.fillCapture
  simp only [Dev.word_with_flt]
  iterate 7 refine (Dev.word_setWord_of_ne _ _ _ _ (by decide)).trans ?_
  exact Dev.word_setWord_self _ _ _

theorem Dev.fillCapture_rd (f : Firing) (repl multi : Bool) (d : Dev) {g : Fld} (hg : g.ok) (ha : g.addr = rFLT_CAP_SRC) :
    (d.fillCapture f repl multi).rd g = bitsOf (f.capWord repl multi) g.hi g.lo := by
  unfold Dev.rd
  rw [ha, Dev.fillCapture_word, Word.toNat_of, bitsOf_mod _ _ _ hg.2 hg.1]

theorem Dev.fillCapture_valid (f : Firing) (repl multi : Bool) (d : Dev) :
    (d.fillCapture f repl multi).flag FLT_CAP_SRC_VALID = true := by
  unfold Dev.flag
  rw [Dev.fillCapture_rd f repl multi d (by decide) rfl]
  simp (disch := decide) [FLT_CAP_SRC_VALID, Firing.capWord, bitsOf_setBits_above, bitsOf_setBits]

theorem Dev.fillCapture_multi (f : Firing) (repl multi : Bool) (d : Dev) :
    (d.fillCapture f repl multi).flag FLT_CAP_SRC_MULTI = multi := by
  unfold Dev.flag
  rw [Dev.fillCapture_rd f repl multi d (by decide) rfl]
  simp (disch := decide) only [FLT_CAP_SRC_MULTI, Firing.capWord, bitsOf_setBits_above, bitsOf_setBits]
  cases multi <;> rfl

theorem Dev.fillCapture_src (f : Firing) (repl multi : Bool) (d : Dev) :
    (d.fillCapture f repl multi).rd FLT_CAP_SRC_SRC = f.src % 64 := by
  rw [Dev.fillCapture_rd f repl multi d (by decide) rfl]
  exact bitsOf_setBits _ _ _ _

theorem Dev.fillCapture_detail (f : Firing) (repl multi : Bool) (d : Dev) :
    (d.fillCapture f repl multi).rd FLT_CAP_DETAIL_DETAIL = f.detail % 2 ^ 16 := by
  unfold Dev.fillCapture
  simp only [Dev.rd_with_flt]
  iterate 5 refine (Dev.rd_wr_of_ne _ _ _ _ (by decide)).trans ?_
  exact Dev.rd_wr_self _ _ _ (by decide)

theorem Dev.fillCapture_capEdge (f : Firing) (repl multi : Bool) (d : Dev) :
    (d.fillCapture f repl multi).flt.capEdge = d.clk.edge := by
  unfold Dev.fillCapture
  dsimp only
  rfl

theorem Dev.fillCapture_missed (f : Firing) (repl multi : Bool) (d : Dev) :
    (d.fillCapture f repl multi).word rFLT_MISSED = d.word rFLT_MISSED := by
  unfold Dev.fillCapture
  simp only [Dev.word_with_flt]
  iterate 8 refine (Dev.word_setWord_of_ne _ _ _ _ (by decide)).trans ?_
  rfl

/-- A capture that is empty is filled. -/
theorem Dev.captureFiring_of_empty {d : Dev} (h : d.flag FLT_CAP_SRC_VALID = false) (f : Firing) :
    d.captureFiring f = d.fillCapture f false false := by
  unfold Dev.captureFiring
  rw [h]
  rfl

/-- A firing that finds the capture empty fills it (11 R292). -/
theorem Dev.fire_fills {d : Dev} (h : d.flag FLT_CAP_SRC_VALID = false) {src detail : Nat} (hs : src < 64)
    (hd : detail < 2 ^ 16) :
    (d.fire src detail).flag FLT_CAP_SRC_VALID = true ∧ (d.fire src detail).rd FLT_CAP_SRC_SRC = src ∧
      (d.fire src detail).rd FLT_CAP_DETAIL_DETAIL = detail ∧ (d.fire src detail).flag FLT_CAP_SRC_MULTI = false := by
  have hr := ackFld_addr src
  have hempty : ((d.evt (ackFld src)).bump FLT_SEQNO_COUNT).flag FLT_CAP_SRC_VALID = false := by
    rw [Dev.bump, Dev.flag_wr_of_ne _ _ _ _ (by decide),
      Dev.flag_evt_of_ne _ _ _ (by simp only [FLT_CAP_SRC_VALID, rFLT_CAP_SRC]; omega), h]
  unfold Dev.fire
  rw [Dev.fireAs_eq]
  obtain ⟨ha, -⟩ := Dev.afterCount_afterCapture (d.firing src detail none false) false
    ((d.evt (ackFld src)).bump FLT_SEQNO_COUNT)
  rw [Dev.captureFiring_of_empty hempty] at ha
  have hsrc : ¬ AfterCapReg rFLT_CAP_SRC := by unfold AfterCapReg ReactReg; decide
  have hdetail : ¬ AfterCapReg rFLT_CAP_DETAIL := by unfold AfterCapReg ReactReg; decide
  refine ⟨?_, ?_, ?_, ?_⟩
  · exact (ha.flag _ hsrc).trans (Dev.fillCapture_valid ..)
  · exact (ha.rd _ hsrc).trans ((Dev.fillCapture_src ..).trans (Nat.mod_eq_of_lt hs))
  · exact (ha.rd _ hdetail).trans ((Dev.fillCapture_detail ..).trans (Nat.mod_eq_of_lt hd))
  · exact (ha.flag _ hsrc).trans (Dev.fillCapture_multi ..)

/-! ### A release among the firings of its edge (11 R293) -/

/-- The capture holds one of the firings `fs`, filled on the present edge, and FLT_MISSED reads `missed`. -/
structure Captured (fs : List Firing) (missed : Word) (d : Dev) : Prop where
  valid : d.flag FLT_CAP_SRC_VALID = true
  now : d.flt.capEdge = d.clk.edge
  src : ∃ f ∈ fs, d.rd FLT_CAP_SRC_SRC = f.src % 64
  missed : d.word rFLT_MISSED = missed

section
variable {fs : List Firing} {missed : Word} {d : Dev} {f : Firing}

theorem Captured.fill (hf : f ∈ fs) (hm : d.word rFLT_MISSED = missed) (repl multi : Bool) :
    Captured fs missed (d.fillCapture f repl multi) where
  valid := Dev.fillCapture_valid ..
  now := (Dev.fillCapture_capEdge ..).trans (by rw [(Still.fillCapture ..).clk])
  src := ⟨f, hf, Dev.fillCapture_src ..⟩
  missed := (Dev.fillCapture_missed ..).trans hm

/-- Another firing of the edge stands in the capture or sets MULTI; it is not missed. -/
theorem Captured.captureFiring (h : Captured fs missed d) (hf : f ∈ fs) : Captured fs missed (d.captureFiring f) := by
  unfold Dev.captureFiring
  rw [if_neg (by simp [h.valid]), if_pos h.now]
  dsimp only
  split
  · exact Captured.fill hf h.missed _ _
  · obtain ⟨g, hg, hsrc⟩ := h.src
    refine ⟨?_, ?_, ⟨g, hg, ?_⟩, ?_⟩
    · rw [Dev.flag_wr_of_disjoint _ _ _ _ (by decide) (by decide) (by decide), h.valid]
    · rw [Dev.wr_flt, Dev.wr_clk, h.now]
    · rw [Dev.rd_wr_of_disjoint _ _ _ _ (by decide) (by decide) (by decide), hsrc]
    · exact (Dev.word_setWord_of_ne _ _ _ _ (by decide)).trans h.missed

theorem Captured.foldl (l : List Firing) (hl : ∀ f ∈ l, f ∈ fs) (h : Captured fs missed d) :
    Captured fs missed (l.foldl (fun d f => d.captureFiring f) d) := by
  induction l generalizing d with
  | nil => exact h
  | cons f t ih => exact ih (fun g hg => hl g (by simp [hg])) (h.captureFiring (hl f (by simp)))

/-- Firings that find the capture empty fill it. -/
theorem Captured.of_empty (hne : fs ≠ []) (he : d.flag FLT_CAP_SRC_VALID = false) (hm : d.word rFLT_MISSED = missed) :
    Captured fs missed (fs.reverse.foldl (fun d f => d.captureFiring f) d) := by
  have hall : ∀ f ∈ fs.reverse, f ∈ fs := fun f hf => List.mem_reverse.1 hf
  obtain ⟨f, t, ht⟩ := List.exists_cons_of_ne_nil (List.reverse_ne_nil_iff.2 hne)
  rw [ht] at hall ⊢
  rw [List.foldl_cons, Dev.captureFiring_of_empty he]
  exact Captured.foldl t (fun g hg => hall g (by simp [hg])) (Captured.fill (hall f (by simp)) hm _ _)

end

section
variable {d : Dev} {seq : Nat}

/-- On an edge on which nothing has fired the right sequence empties the capture (11 R293). -/
theorem Dev.capRel_quiet (hs : seq < 2 ^ 16) (hf : d.flt.fired = []) (h : seq = d.rd FLT_CAP_SEQ_SEQ % 2 ^ 16) :
    d.capRel seq = d.wr FLT_CAP_SRC_VALID 0 := by
  unfold Dev.capRel
  rw [if_pos (List.isEmpty_iff.2 hf), if_pos (by omega)]

/-- Among the firings of its edge the release comes first, and they are captured after it. -/
theorem Dev.capRel_amongFirings (hs : seq < 2 ^ 16) (hf : d.flt.fired ≠ [])
    (hv : (d.oldWord rFLT_CAP_SRC).toNat.testBit 31 = true) (h : seq = (d.oldWord rFLT_CAP_SEQ).toNat % 2 ^ 16) :
    Captured d.flt.fired (d.oldWord rFLT_MISSED) (d.capRel seq) := by
  unfold Dev.capRel
  rw [if_neg (by simpa using hf), if_pos ⟨hv, by omega⟩]
  refine Captured.of_empty hf ?_ (Dev.word_setWord_self _ _ _)
  unfold Dev.flag
  rw [Dev.rd_setWord_of_ne _ _ _ _ (by decide), Dev.rd_wr_self _ _ _ (by decide)]
  rfl

/-- A release with another sequence, or of a capture that was empty before the edge, does nothing (11 R293). -/
theorem Dev.capRel_wrong (hs : seq < 2 ^ 16)
    (h : (d.flt.fired = [] ∧ seq ≠ d.rd FLT_CAP_SEQ_SEQ % 2 ^ 16) ∨
      (d.flt.fired ≠ [] ∧ ((d.oldWord rFLT_CAP_SRC).toNat.testBit 31 = false ∨
        seq ≠ (d.oldWord rFLT_CAP_SEQ).toNat % 2 ^ 16))) : d.capRel seq = d := by
  unfold Dev.capRel
  rcases h with ⟨hf, hne⟩ | ⟨hf, hne⟩
  · rw [if_pos (List.isEmpty_iff.2 hf), if_neg (by omega)]
  · rw [if_neg (by simpa using hf), if_neg]
    rintro ⟨hv, hseq⟩
    rcases hne with hold | hne
    · exact absurd (hv.symm.trans hold) (by decide)
    · omega

end

/-! ### A write of FLT_CMD (11 R293) -/

/-- A word at an address that no limit names stays as it is. -/
theorem foldl_limits_of_none {a : Nat} (ls : List Limit)
    (h : ∀ l ∈ ls, ¬ (l.base ≤ a ∧ (a - l.base) % l.stride = 0 ∧ (a - l.base) / l.stride < l.count)) (r : Nat × List Fld) :
    ls.foldl (fun r l => l.on a r) r = r := by
  induction ls generalizing r with
  | nil => rfl
  | cons l t ih =>
    rw [List.foldl_cons, Limit.on, if_neg (h l (by simp))]
    exact ih (fun k hk => h k (by simp [hk])) r

theorem limitRw_fltCmd (w : Nat) : limitRw rFLT_CMD w = (w, []) := by
  have hc : codesRw rFLT_CMD w = w := rfl
  have hw : limitWord rFLT_CMD w = (w, []) := by
    unfold limitWord
    rw [foldl_limits_of_none _ (by decide)]
    exact if_neg fun h => absurd h.1 (by decide)
  rw [limitRw, hc, hw]
  exact foldl_limits_of_none limitsRw (by decide) _

/-- Of FLT_CMD.CAP_REL with its CAP_SEQ no other command bit is set. -/
theorem Dev.fltCmd_capRel (d : Dev) {seq : Nat} (hs : seq < 2 ^ 16) : d.fltCmd (2 ^ 31 + seq) = d.capRel seq := by
  have bit : ∀ k, (2 ^ 31 + seq).testBit k = decide ((2 ^ 31 + seq) / 2 ^ k % 2 = 1) :=
    fun k => Nat.testBit_eq_decide_div_mod_eq
  have h31 : (2 ^ 31 + seq).testBit 31 = true := by rw [bit]; exact decide_eq_true (by omega)
  have h30 : (2 ^ 31 + seq).testBit 30 = false := by rw [bit]; exact decide_eq_false (by omega)
  have h29 : (2 ^ 31 + seq).testBit 29 = false := by rw [bit]; exact decide_eq_false (by omega)
  have h28 : (2 ^ 31 + seq).testBit 28 = false := by rw [bit]; exact decide_eq_false (by omega)
  have hseq : (2 ^ 31 + seq) % 0x10000 = seq := by omega
  unfold Dev.fltCmd
  rw [h31, h30, h29, h28, hseq]
  rfl

/-- `e` is `d` with a word landed in FLT_CMD, before its command bits act. -/
structure CmdLanded (d e : Dev) : Prop where
  fired : e.flt.fired = d.flt.fired
  oldWord : ∀ a, e.oldWord a = d.oldWord a
  word : ∀ a, a ≠ rFLT_CMD → e.word a = d.word a

theorem CmdLanded.writeRw (d : Dev) (b : Bool) (r : RegRow) (w : Nat) :
    CmdLanded d (({ d with outside := b } : Dev).writeRw r rFLT_CMD w) := by
  unfold Dev.writeRw
  split
  · exact ⟨rfl, fun _ => rfl, fun a _ => Dev.word_with_outside d b a⟩
  · dsimp only
    rw [limitRw_fltCmd]
    exact ⟨rfl, fun _ => rfl, fun a ha => (Dev.word_setWord_of_ne _ _ _ _ ha).trans (Dev.word_with_outside d b a)⟩

/-- An accepted CAP_REL: CAP_SEQ lands in FLT_CMD, and the release acts. -/
theorem Dev.write_capRel {d : Dev} {m seq : Nat} (h : d.Grants m rFLT_CMD) (hs : seq < 2 ^ 16) :
    ∃ e, CmdLanded d e ∧ d.write m rFLT_CMD (2 ^ 31 + seq) = (e.capRel seq).accessEdge := by
  have row : ∃ r, rowAt rFLT_CMD = some r ∧ plainCommand rFLT_CMD r = true ∧ r.rws = 0 := ⟨_, rfl, by decide, rfl⟩
  obtain ⟨r, hr, hp, hrws⟩ := row
  have hlt : (2 ^ 31 + seq) % 2 ^ 32 = 2 ^ 31 + seq := by omega
  obtain ⟨b, hb⟩ := d.noteReserved_outside r (2 ^ 31 + seq)
  refine ⟨_, CmdLanded.writeRw d b r (2 ^ 31 + seq), ?_⟩
  rw [Dev.write_command h hr hp, hlt, hb, Dev.writeRws_of_zero _ _ hrws]
  exact congrArg Dev.accessEdge (Dev.fltCmd_capRel _ hs)

/-- What a CAP_REL of a master that is granted does. -/
theorem capRel_effects {s : State} {dt m seq : Nat} {P : Dev → Prop} (hs : seq < 2 ^ 16) (hg : s.dev.Grants m rFLT_CMD)
    (hp : ∀ e, CmdLanded (s.dev.advance dt) e → P (e.capRel seq).accessEdge) : Effects (.capRel dt m seq) s P := by
  refine Effects.of_run rfl ?_
  obtain ⟨e, he, hw⟩ := Dev.write_capRel (hg.advance dt) hs
  have hseq : seq % 0x10000 = seq := Nat.mod_eq_of_lt hs
  rw [hseq, hw]
  exact hp e he

/-- Settles O13: a release on a quiet edge, one among the firings of its edge, and one with a wrong sequence. -/
theorem captureReleaseNeedsItsSequence : Obligations.CaptureReleaseNeedsItsSequence := by
  intro s dt m seq d hs hg hd
  subst hd
  have seqNow : ∀ e, CmdLanded (s.dev.advance dt) e → e.rd FLT_CAP_SEQ_SEQ = s.dev.rd FLT_CAP_SEQ_SEQ := fun e he => by
    unfold Dev.rd
    rw [he.word _ (by decide)]
    rfl
  refine ⟨fun hseq hquiet => ?_, fun hfired hvalid hseq => ?_, fun hwrong => ?_⟩ <;>
    refine capRel_effects hs hg fun e he => ?_
  · rw [Dev.capRel_quiet hs (he.fired.trans hquiet) (by rw [seqNow e he]; exact hseq)]
    have hempty : (e.wr FLT_CAP_SRC_VALID 0).accessEdge.flag FLT_CAP_SRC_VALID = false := by
      rw [Dev.flag_accessEdge, Dev.flag_wr_self _ _ _ (by decide) rfl]
      rfl
    exact ⟨hempty, fun src detail hsrc hdetail => Dev.fire_fills hempty hsrc hdetail⟩
  · have hc := Dev.capRel_amongFirings hs (by rwa [he.fired]) (by rwa [he.oldWord]) (by rwa [he.oldWord])
    rw [he.fired, he.oldWord] at hc
    obtain ⟨f, hf, hsrc⟩ := hc.src
    exact ⟨by rw [Dev.flag_accessEdge, hc.valid], ⟨f, hf, by rw [Dev.rd_accessEdge, hsrc]⟩,
      by rw [Dev.word_accessEdge, hc.missed]⟩
  · rw [Dev.capRel_wrong hs (by simpa only [he.fired, he.oldWord, seqNow e he] using hwrong)]
    intro a ha
    have hne : a ≠ rFLT_CMD := by
      rintro rfl
      exact absurd ha (by decide)
    exact (Dev.word_accessEdge e a).trans ((he.word a hne).trans rfl)

end Sys2Proof.Machine
end

section
/-!
PROOF. What holds of every step: the queue's rule (O1, O2), completion (O3), and the collector that has settled its edge (O4).
-/

namespace Sys2Proof.Machine

/-- Settles O1: the rule of a step, read off its definition. -/
theorem stepRunsFrontCommand : Obligations.StepRunsFrontCommand := by
  intro c rest s h
  simp only [step, h]

/-- Settles O2: the other case of the rule. -/
theorem stepIdlesOnEmptyQueue : Obligations.StepIdlesOnEmptyQueue := by
  intro s h
  simp only [step, h]

/-- Settles O3: every meaning is a run, and a run leaves the queue. -/
theorem everyCommandCompletesAndKeepsQueue : Obligations.EveryCommandCompletesAndKeepsQueue := by
  intro c s
  obtain ⟨dt, f, h⟩ | ⟨a, dt, f, h⟩ := exec_run c s <;> exact ⟨_, h, rfl⟩

/-! ### What the collector judges by, and who leaves it -/

/-- An address of the collector's configuration, severities, reactions or latched bits. -/
def JudgedReg (a : Nat) : Prop := 0x010000 ≤ a ∧ a < 0x010058

theorem JudgedReg.not_settleReg {a : Nat} (h : JudgedReg a) : ¬ SettleReg a := by
  unfold JudgedReg at h
  exact Machine.not_settleReg (by omega) (by omega) (by omega) (by omega) (by omega) (by omega)

/-- `e` judges as `d` does: the same sources are latched and live, with the same severities and reactions. -/
structure JudgesAs (d e : Dev) : Prop where
  word : ∀ a, JudgedReg a → e.word a = d.word a
  live : e.flt.live = d.flt.live
  fired : e.flt.fired = d.flt.fired

theorem Keeps.judgesAs {d e : Dev} (h : Keeps SettleReg d e) : JudgesAs d e :=
  ⟨fun a ha => h.word a ha.not_settleReg, h.fltLive, h.fired⟩

section
variable {d e : Dev} (h : JudgesAs d e)
include h

theorem JudgesAs.rd {f : Fld} (hf : JudgedReg f.addr) : e.rd f = d.rd f := by
  unfold Dev.rd
  rw [h.word _ hf]

theorem JudgesAs.sev : e.sev = d.sev := by
  funext k
  refine h.rd ?_
  simp only [sevFld, JudgedReg, rFLT_SEV]
  omega

theorem JudgesAs.reaction : e.reaction = d.reaction := by
  funext k
  unfold Dev.reaction
  rw [h.rd]
  simp [JudgedReg, rFLT_REACT]

theorem JudgesAs.latched : e.latched = d.latched := by
  funext k
  unfold Dev.latched Dev.flag
  rw [h.rd]
  have := ackFld_addr k
  exact ⟨by omega, by omega⟩

theorem JudgesAs.isLive : e.isLive = d.isLive := by
  funext k
  unfold Dev.isLive
  rw [h.live, h.fired]

theorem JudgesAs.fatalLatched : e.fatalLatched = d.fatalLatched := by
  unfold Dev.fatalLatched Dev.anyLatched
  rw [h.sev, h.latched]

theorem JudgesAs.escLatched : e.escLatched = d.escLatched := by
  unfold Dev.escLatched Dev.anyLatched
  rw [h.sev, h.reaction, h.latched]

/-- FOLD may end in both or in neither, where the fault state and FATAL_HELD agree. -/
theorem JudgesAs.foldMayEnd (hs : e.flag FLT_STAT_FSTATE = d.flag FLT_STAT_FSTATE)
    (hf : e.flag FLT_STAT_FATAL_HELD = d.flag FLT_STAT_FATAL_HELD) : e.foldMayEnd = d.foldMayEnd := by
  unfold Dev.foldMayEnd Dev.anyLive
  rw [hs, hf, h.isLive, h.sev, h.reaction, h.live, h.fired]

end

/-! ### Which flags each part leaves -/

/-- No write of `f` reaches `g`. -/
abbrev Fld.apart (f g : Fld) : Prop := g.ok ∧ f.lo ≤ f.hi ∧ (g.addr ≠ f.addr ∨ f.hi < g.lo ∨ g.hi < f.lo)

theorem Dev.flag_of_rd {d e : Dev} {g : Fld} (h : e.rd g = d.rd g) : e.flag g = d.flag g := by
  unfold Dev.flag
  rw [h]

theorem Dev.rd_wr_apart {f g : Fld} (h : f.apart g) (d : Dev) (v : Nat) : (d.wr f v).rd g = d.rd g := by
  obtain ⟨hg, hf, hne | hd⟩ := h
  · exact d.rd_wr_of_ne f g v hne
  · exact d.rd_wr_of_disjoint f g v hg hf hd

theorem Dev.rd_when {g : Fld} {d : Dev} {b : Bool} {f : Dev → Dev} (h : (f d).rd g = d.rd g) :
    (d.when b f).rd g = d.rd g := by
  cases b
  · rfl
  · exact h

/-- The collector's own state is no register. -/
theorem Dev.rd_setFlt (d : Dev) (F : Flt) (g : Fld) : ({ d with flt := F } : Dev).rd g = d.rd g := Dev.rd_congr rfl g

section
variable {g : Fld} (d : Dev)

theorem Dev.rd_settleFatal (h : FLT_STAT_FATAL_HELD.apart g) : d.settleFatal.rd g = d.rd g := by
  unfold Dev.settleFatal
  exact rd_when (rd_wr_apart h d 0)

theorem Dev.rd_settleEsc (h : FLT_STAT_ESC_RUN.apart g) : d.settleEsc.rd g = d.rd g := by
  unfold Dev.settleEsc
  refine rd_when ?_
  exact (Dev.rd_setFlt (d.wr FLT_STAT_ESC_RUN 0) _ g).trans (rd_wr_apart h d 0)

theorem Dev.rd_settleInj (h : FLT_INJ_STAT_ACTIVE.apart g) : d.settleInj.rd g = d.rd g := by
  unfold Dev.settleInj
  exact rd_when (rd_wr_apart h d 0)

theorem Dev.rd_settleFold (h : FLT_STAT_FOLD_REQ.apart g) (hm : g.addr ≠ rDEV_MODE)
    (ho : ∀ n < 24, g.addr ≠ rOUT_STAT n) : d.settleFold.rd g = d.rd g := by
  have hw := rd_wr_apart h d 0
  unfold Dev.settleFold
  simp only
  split
  · split
    · have hk := Keeps.leaveFold (A := fun a => a ≠ g.addr) (d.wr FLT_STAT_FOLD_REQ 0) hm.symm fun n hn => (ho n hn).symm
      exact (hk.rd g fun hne => hne rfl).trans hw
    · exact hw
  · rfl

theorem Dev.rd_settleElig (h : g.addr ≠ rPAST_STAT) : d.settleElig.rd g = d.rd g :=
  (Keeps.settleElig (A := fun a => a ≠ g.addr) d h.symm).rd g fun hne => hne rfl

theorem Dev.rd_fnRelease (h : FLT_STAT_FN.apart g) : d.fnRelease.rd g = d.rd g := by
  unfold Dev.fnRelease
  exact (Dev.rd_setFlt (d.wr FLT_STAT_FN 0) _ g).trans (rd_wr_apart h d 0)

theorem Dev.rd_settleFn (h : FLT_STAT_FN.apart g) : d.settleFn.rd g = d.rd g := by
  unfold Dev.settleFn
  split
  · exact rd_when (d.rd_fnRelease h)
  · split
    · refine rd_when ?_
      exact (Dev.rd_setFlt (d.wr FLT_STAT_FN 1) _ g).trans (rd_wr_apart h d 1)
    · exact rd_when (d.rd_fnRelease h)

theorem Dev.rd_settleLamp (h : g.addr ≠ rCRAFT_EVT) : d.settleLamp.rd g = d.rd g :=
  (Keeps.settleLamp (A := fun a => a ≠ g.addr) d h.symm).rd g fun hne => hne rfl

end

/-! ### What each part establishes -/

/-- What every round of a loop leaves, the loop leaves. -/
theorem forN_leaves {α : Type} {g : Dev → α} {f : Nat → Dev → Dev} (h : ∀ k d, g (f k d) = g d) (n : Nat) (d : Dev) :
    g (forN n f d) = g d := by
  induction n with
  | zero => rfl
  | succ n ih => rw [forN_succ, h, ih]

section
variable (d : Dev)

theorem Dev.foldNext_wr (f : Fld) (v : Nat) : (d.wr f v).flt.foldNext = d.flt.foldNext := congrArg Flt.foldNext (d.wr_flt f v)

theorem Dev.foldNext_fn (t : Option Nat) (b c : Bool) :
    ({ d with flt := { d.flt with fnFrom := t, fnWidthDone := b, fnRelPend := c } } : Dev).flt.foldNext = d.flt.foldNext := rfl

theorem Dev.foldNext_settleFatal : d.settleFatal.flt.foldNext = d.flt.foldNext := by
  unfold Dev.settleFatal Dev.when
  split
  · exact d.foldNext_wr _ _
  · rfl

theorem Dev.foldNext_settleEsc : d.settleEsc.flt.foldNext = d.flt.foldNext := by
  unfold Dev.settleEsc Dev.when
  split
  · have hw := d.foldNext_wr FLT_STAT_ESC_RUN 0
    beta_reduce
    generalize d.wr FLT_STAT_ESC_RUN 0 = e at hw ⊢
    exact hw
  · rfl

theorem Dev.foldNext_settleInj : d.settleInj.flt.foldNext = d.flt.foldNext := by
  unfold Dev.settleInj Dev.when
  split
  · exact d.foldNext_wr _ _
  · rfl

theorem Dev.foldNext_leaveFold : d.leaveFold.flt.foldNext = d.flt.foldNext := by
  have htry : ∀ k (e : Dev), ((e.wr (OUT_STAT_FOLDED k) 0).outTry k).flt.foldNext = e.flt.foldNext := fun k e => by
    unfold Dev.outTry
    dsimp only
    split
    · rw [Dev.setOut_flt, Dev.wr_flt, Dev.wr_flt, Dev.wr_flt]
    · rw [Dev.wr_flt]
  have hunder : (d.setUnder .run).flt.foldNext = d.flt.foldNext := by
    unfold Dev.setUnder
    split
    · rfl
    · exact (Still.logEvent (A := fun _ => False) (d.setMode .run) 4 _ 0).foldNext.trans (d.foldNext_wr DEV_MODE_MODE _)
  unfold Dev.leaveFold Dev.outsUnfold
  rw [forN_leaves (g := fun e => e.flt.foldNext) htry, hunder]

theorem Dev.foldNext_settleFold : d.settleFold.flt.foldNext = d.flt.foldNext := by
  unfold Dev.settleFold
  dsimp only
  split
  · split
    · exact Dev.foldNext_leaveFold _
    · rfl
  · rfl

theorem Dev.foldNext_settleElig : d.settleElig.flt.foldNext = d.flt.foldNext := by
  have hsend : ∀ x t ds sr h q p (e : Dev), (e.sendOn x t ds sr h q p).flt = e.flt := fun x t ds sr h q p e => by
    unfold Dev.sendOn
    split <;> rfl
  unfold Dev.settleElig Dev.sendHello Dev.sendNear
  split
  · simp only [hsend]
    split
    · rfl
    · split <;> rfl
  · rfl

theorem Dev.foldNext_settleFn : d.settleFn.flt.foldNext = d.flt.foldNext := by
  have hrel : d.fnRelease.flt.foldNext = d.flt.foldNext := (Dev.foldNext_fn _ _ _ _).trans (d.foldNext_wr _ _)
  unfold Dev.settleFn Dev.when
  split
  · split
    · exact hrel
    · rfl
  · split <;> split
    · exact (Dev.foldNext_fn _ _ _ _).trans (d.foldNext_wr _ _)
    · rfl
    · exact hrel
    · rfl

theorem Dev.foldNext_settleLamp : d.settleLamp.flt.foldNext = d.flt.foldNext := by
  unfold Dev.settleLamp Dev.evtIf
  split <;> simp

end

theorem Dev.settlePend_noFold (d : Dev) : d.settlePend.flt.foldPend = true → d.settlePend.flt.foldNext = true := by
  unfold Dev.settlePend
  split
  · exact fun h => absurd h (by simp)
  next h => simpa using h

/-- A flag that is cleared wherever its condition fails stands only where it holds. -/
theorem Dev.flag_when_clear {g : Fld} {d : Dev} {b : Bool} {f : Dev → Dev} (h : (d.when (d.flag g && !b) f).flag g = true)
    (hg : g.ok) (h1 : g.hi = g.lo) (hl : (f d).flag g = (d.wr g 0).flag g) : b = true := by
  cases b
  · cases hd : d.flag g
    · rw [hd] at h
      exact absurd ((show d.flag g = true from h).symm.trans hd) (by decide)
    · rw [hd] at h
      have hf : (f d).flag g = true := h
      rw [hl, Dev.flag_wr_self _ _ _ hg h1] at hf
      exact absurd hf (by decide)
  · rfl

theorem Dev.settleFatal_fatal (d : Dev) (h : d.settleFatal.flag FLT_STAT_FATAL_HELD = true) : d.fatalLatched = true := by
  unfold Dev.settleFatal at h
  exact Dev.flag_when_clear h (by decide) rfl rfl

theorem Dev.settleEsc_esc (d : Dev) (h : d.settleEsc.flag FLT_STAT_ESC_RUN = true) : d.escLatched = true := by
  unfold Dev.settleEsc at h
  exact Dev.flag_when_clear h (by decide) rfl (Dev.flag_of_rd (Dev.rd_setFlt _ _ _))

theorem Dev.settleInj_inj (d : Dev) (h : d.settleInj.flag FLT_INJ_STAT_ACTIVE = true) :
    d.latched (d.rd FLT_INJ_STAT_SRC) = true := by
  unfold Dev.settleInj at h
  exact Dev.flag_when_clear h (by decide) rfl rfl

theorem Dev.settleInj_src (d : Dev) : d.settleInj.rd FLT_INJ_STAT_SRC = d.rd FLT_INJ_STAT_SRC := by
  unfold Dev.settleInj Dev.when
  split
  · exact Dev.rd_wr_of_disjoint _ _ _ _ (by decide) (by decide) (by decide)
  · rfl

/-- FOLD_REQ stands only where a condition holds it. -/
theorem Dev.settleFold_req (d : Dev) (h : d.settleFold.flag FLT_STAT_FOLD_REQ = true) : d.foldMayEnd = false := by
  by_contra hm
  rw [Bool.not_eq_false] at hm
  cases hd : d.flag FLT_STAT_FOLD_REQ
  · have hs : d.settleFold = d := by simp [Dev.settleFold, hd]
    rw [hs, hd] at h
    exact absurd h (by decide)
  · have hoff : (d.wr FLT_STAT_FOLD_REQ 0).flag FLT_STAT_FOLD_REQ = false := Dev.flag_wr_self _ _ _ (by decide) rfl
    have hk := Keeps.leaveFold (A := fun a => a ≠ rFLT_STAT) (d.wr FLT_STAT_FOLD_REQ 0) (by decide) fun n hn => by
      unfold rOUT_STAT rFLT_STAT
      omega
    have hs : d.settleFold.flag FLT_STAT_FOLD_REQ = false := by
      unfold Dev.settleFold
      rw [hd, hm, Bool.and_self, if_pos rfl]
      simp only
      split
      · exact (hk.flag FLT_STAT_FOLD_REQ fun hne => hne rfl).trans hoff
      · exact hoff
    exact absurd (hs.symm.trans h) (by decide)

theorem Dev.sendHello_elig (d : Dev) : d.sendHello.flag PAST_STAT_ELIG = d.flag PAST_STAT_ELIG := by
  have hsend : ∀ x t ds sr h q p (e : Dev), (e.sendOn x t ds sr h q p).flag PAST_STAT_ELIG = e.flag PAST_STAT_ELIG :=
    fun x t ds sr h q p e => (Keeps.sendOn (A := fun _ => False) x t ds sr h q p e).flag _ not_false
  have hbeacon : ∀ v, (d.wr PAST_STAT_BEACON v).flag PAST_STAT_ELIG = d.flag PAST_STAT_ELIG :=
    fun v => Dev.flag_of_rd (Dev.rd_wr_apart (by decide) d v)
  unfold Dev.sendHello Dev.sendNear
  simp only [hsend]
  split
  · exact hbeacon _
  · split
    · exact hbeacon _
    · rfl

/-- Devices that differ in the status of the collector and the pasture and in the craft events alone are both ELIG or neither. -/
theorem Dev.eligNow_congr {d e : Dev} (hw : ∀ a, a ≠ rFLT_STAT → a ≠ rPAST_STAT → a ≠ rCRAFT_EVT → e.word a = d.word a)
    (hp : e.priorMode = d.priorMode) : e.eligNow = d.eligNow := by
  have hmode : e.underMode = d.underMode := underMode_congr (mode_congr (hw _ (by decide) (by decide) (by decide))) hp
  have hcfg : ∀ n, e.word (rPAD_CFG n) = d.word (rPAD_CFG n) := fun n =>
    hw _ (by unfold rPAD_CFG rFLT_STAT; omega) (by unfold rPAD_CFG rPAST_STAT; omega) (by unfold rPAD_CFG rCRAFT_EVT; omega)
  have hstate : ∀ n, e.word (rPAD_STATE n) = d.word (rPAD_STATE n) := fun n =>
    hw _ (by unfold rPAD_STATE rFLT_STAT; omega) (by unfold rPAD_STATE rPAST_STAT; omega)
      (by unfold rPAD_STATE rCRAFT_EVT; omega)
  have htk : e.padTk = d.padTk := funext fun n => by 
    unfold Dev.padTk Dev.flag Dev.rd PAD_CFG_TK
    rw [hcfg]
  have hst : e.padSt = d.padSt := funext fun n => by 
    unfold Dev.padSt Dev.rd PAD_STATE_STATE
    rw [hstate]
  have hvalid : ∀ n, e.flag (PAD_STATE_HOLD_VALID n) = d.flag (PAD_STATE_HOLD_VALID n) := fun n => by
    unfold Dev.flag Dev.rd PAD_STATE_HOLD_VALID
    rw [hstate]
  unfold Dev.eligNow
  rw [hmode, htk, hst]
  simp only [hvalid]

theorem Dev.settleElig_agrees (d : Dev) (h : d.settleElig.flag PAST_CFG_USED = true) :
    d.settleElig.flag PAST_STAT_ELIG = d.eligNow := by
  rw [Dev.flag_of_rd (Dev.rd_settleElig d (by decide))] at h
  unfold Dev.settleElig
  rw [h, Bool.true_and]
  split
  · rw [Dev.sendHello_elig, Dev.flag_wr_self _ _ _ (by decide) rfl]
    cases d.eligNow <;> rfl
  next hsame => exact (by simpa using hsame : d.eligNow = _).symm

theorem Dev.eligNow_settleElig (d : Dev) : d.settleElig.eligNow = d.eligNow := by
  have hs := Stays.settleElig d
  have hk := Keeps.settleElig (A := fun a => a = rPAST_STAT) d rfl
  exact eligNow_congr (fun a _ h _ => hk.word a h) hs.priorMode

theorem Dev.eligNow_settleFn (d : Dev) : d.settleFn.eligNow = d.eligNow :=
  eligNow_congr (fun a h _ _ => (Keeps.settleFn (A := fun a => a = rFLT_STAT) d rfl).word a h) (Stays.settleFn d).priorMode

theorem Dev.eligNow_settleLamp (d : Dev) : d.settleLamp.eligNow = d.eligNow :=
  eligNow_congr (fun a _ _ h => (Keeps.settleLamp (A := fun a => a = rCRAFT_EVT) d rfl).word a h) (Stays.settleLamp d).priorMode

/-! ### FAULT_N -/

theorem Dev.fnRelease_off (d : Dev) : d.fnRelease.flag FLT_STAT_FN = false :=
  (Dev.flag_of_rd (Dev.rd_setFlt (d.wr FLT_STAT_FN 0) _ _)).trans (Dev.flag_wr_self _ _ _ (by decide) rfl)

/-- FAULT_N after an edge: its condition, or what still holds it. -/
theorem Dev.settleFn_spec (d : Dev) :
    (d.applied = false → d.settleFn.flag FLT_STAT_FN = false) ∧
    (d.applied = true → d.fnCond = true → d.settleFn.flag FLT_STAT_FN = true) ∧
    (d.applied = true → d.fnCond = false → d.settleFn.flag FLT_STAT_FN = true →
      d.settleFn.flt.fnWidthDone = false ∨ d.flag FLT_CFG_FN_LATCH = true) := by
  unfold Dev.settleFn Dev.when
  refine ⟨fun h => ?_, fun h hc => ?_, fun h hc => ?_⟩
  · rw [if_pos (by simp [h])]
    split
    · exact d.fnRelease_off
    next hn => simpa using hn
  · rw [if_neg (by simp [h]), if_pos hc]
    split
    · exact (Dev.flag_of_rd (Dev.rd_setFlt (d.wr FLT_STAT_FN 1) _ _)).trans (Dev.flag_wr_self _ _ _ (by decide) rfl)
    next hn => simpa using hn
  · rw [if_neg (by simp [h]), if_neg (by simp [hc])]
    split
    · exact fun hon => absurd (d.fnRelease_off.symm.trans hon) (by decide)
    next hn =>
      intro hon
      rw [hon] at hn
      cases hw : d.flt.fnWidthDone
      · exact Or.inl rfl
      · exact Or.inr (by simpa [hw] using hn)

/-- FAULT_N itself is no part of its own condition. -/
theorem Dev.settleFn_cond (d : Dev) : d.settleFn.applied = d.applied ∧ d.settleFn.fnCond = d.fnCond := by
  have hm : d.settleFn.mode = d.mode := mode_congr ((Keeps.settleFn (A := fun a => a = rFLT_STAT) d rfl).word _ (by decide))
  unfold Dev.applied Dev.measuring Dev.fnCond
  rw [hm, Dev.flag_of_rd (Dev.rd_settleFn d (by decide))]
  exact ⟨rfl, rfl⟩

theorem Dev.settleLamp_cond (d : Dev) : d.settleLamp.applied = d.applied ∧ d.settleLamp.fnCond = d.fnCond := by
  have hm : d.settleLamp.mode = d.mode := mode_congr ((Keeps.settleLamp (A := fun a => a = rCRAFT_EVT) d rfl).word _ (by decide))
  unfold Dev.applied Dev.measuring Dev.fnCond
  rw [hm, Dev.flag_of_rd (Dev.rd_settleLamp d (by decide))]
  exact ⟨rfl, rfl⟩

/-! ### The settled edge -/

/-- Whatever a command has done, settling its edge leaves the collector settled. -/
theorem Dev.finish_settled (d : Dev) : d.finish.Settled := by
  unfold Dev.finish
  generalize h0 : d.settleCopy.settlePend = a
  generalize hb : a.settleFatal = b
  generalize hc : b.settleEsc = c
  generalize hi : c.settleInj = i
  generalize hf : i.settleFold = f
  generalize he : f.settleElig = e
  generalize hn : e.settleFn = n
  generalize hl : n.settleLamp = l
  have kb : Keeps SettleReg a b := hb ▸ Keeps.settleFatal a SettleReg.flt
  have kc : Keeps SettleReg b c := hc ▸ Keeps.settleEsc b SettleReg.flt
  have ki : Keeps SettleReg c i := hi ▸ Keeps.settleInj c SettleReg.inj
  have kf : Keeps SettleReg i f := hf ▸ Keeps.settleFold i
  have ke : Keeps SettleReg f e := he ▸ Keeps.settleElig f SettleReg.past
  have kn : Keeps SettleReg e n := hn ▸ Keeps.settleFn e SettleReg.flt
  have kl : Keeps SettleReg n l := hl ▸ Keeps.settleLamp n SettleReg.craft
  have kel : Keeps SettleReg e l := kn.trans kl
  have kfl : Keeps SettleReg f l := ke.trans kel
  have kil : Keeps SettleReg i l := kf.trans kfl
  have kcl : Keeps SettleReg c l := ki.trans kil
  have kbl : Keeps SettleReg b l := kc.trans kcl
  have kal : Keeps SettleReg a l := kb.trans kbl
  have afterFold : ∀ g : Fld, FLT_STAT_FN.apart g → g.addr ≠ rPAST_STAT → g.addr ≠ rCRAFT_EVT → l.rd g = f.rd g :=
    fun g hg hp hc => by
      rw [← hl, Dev.rd_settleLamp n hc, ← hn, Dev.rd_settleFn e hg, ← he, Dev.rd_settleElig f hp]
  have afterInj : ∀ g : Fld, FLT_STAT_FOLD_REQ.apart g → FLT_STAT_FN.apart g → g.addr = rFLT_STAT ∨ g.addr = rFLT_INJ_STAT →
      l.rd g = i.rd g := fun g hr hg ha => by
    have hout : ∀ k < 24, g.addr ≠ rOUT_STAT k := fun k hk => by
      obtain ha | ha := ha <;> rw [ha] <;> unfold rOUT_STAT <;> simp only [rFLT_STAT, rFLT_INJ_STAT] <;> omega
    have hne : g.addr ≠ rPAST_STAT ∧ g.addr ≠ rCRAFT_EVT ∧ g.addr ≠ rDEV_MODE := by
      obtain ha | ha := ha <;> rw [ha] <;> decide
    rw [afterFold g hg hne.1 hne.2.1, ← hf, Dev.rd_settleFold i hr hne.2.2 hout]
  have hcond : l.applied = e.applied ∧ l.fnCond = e.fnCond := by
    rw [← hl, (Dev.settleLamp_cond n).1, (Dev.settleLamp_cond n).2, ← hn]
    exact Dev.settleFn_cond e
  have hfn : l.flag FLT_STAT_FN = n.flag FLT_STAT_FN := hl ▸ Dev.flag_of_rd (Dev.rd_settleLamp n (by decide))
  obtain ⟨fnOff, fnOn, fnHeld⟩ := hn ▸ Dev.settleFn_spec e
  refine ⟨?_, fun h => ?_, fun h => ?_, fun h => ?_, fun h => ?_, fun h => ?_, fun h hc => ?_, fun h hc hon => ?_, fun h => ?_⟩
  · have hnext : l.flt.foldNext = a.flt.foldNext := by
      rw [← hl, Dev.foldNext_settleLamp, ← hn, Dev.foldNext_settleFn, ← he, Dev.foldNext_settleElig, ← hf,
        Dev.foldNext_settleFold, ← hi, Dev.foldNext_settleInj, ← hc, Dev.foldNext_settleEsc, ← hb, Dev.foldNext_settleFatal]
    rw [kal.foldPend, hnext, ← h0]
    exact d.settleCopy.settlePend_noFold
  · rw [Dev.flag_of_rd (afterInj _ (by decide) (by decide) (Or.inl rfl)), ← hi, Dev.flag_of_rd (Dev.rd_settleInj c (by decide)), ← hc,
      Dev.flag_of_rd (Dev.rd_settleEsc b (by decide)), ← hb] at h
    rw [kal.judgesAs.fatalLatched]
    exact a.settleFatal_fatal h
  · rw [Dev.flag_of_rd (afterInj _ (by decide) (by decide) (Or.inl rfl)), ← hi, Dev.flag_of_rd (Dev.rd_settleInj c (by decide)), ← hc] at h
    rw [kbl.judgesAs.escLatched]
    exact b.settleEsc_esc h
  · rw [Dev.flag_of_rd (afterInj _ (by decide) (by decide) (Or.inr rfl)), ← hi] at h
    have hsrc : l.rd FLT_INJ_STAT_SRC = c.rd FLT_INJ_STAT_SRC := by
      rw [afterInj _ (by decide) (by decide) (Or.inr rfl), ← hi]
      exact c.settleInj_src
    rw [kcl.judgesAs.latched, hsrc]
    exact c.settleInj_inj h
  · rw [Dev.flag_of_rd (afterFold _ (by decide) (by decide) (by decide)), ← hf] at h
    rw [kil.judgesAs.foldMayEnd (Dev.flag_of_rd (afterInj _ (by decide) (by decide) (Or.inl rfl)))
      (Dev.flag_of_rd (afterInj _ (by decide) (by decide) (Or.inl rfl)))]
    exact i.settleFold_req h
  · rw [hfn]
    exact fnOff (hcond.1 ▸ h)
  · rw [hfn]
    exact fnOn (hcond.1 ▸ h) (hcond.2 ▸ hc)
  · have hlatch : l.flag FLT_CFG_FN_LATCH = e.flag FLT_CFG_FN_LATCH :=
      kel.flag _ (not_settleReg (by decide) (by decide) (by decide) (by decide) (by decide) (by decide))
    have hwidth : l.flt = n.flt := by
      rw [← hl]
      unfold Dev.settleLamp Dev.evtIf
      split <;> simp
    rw [hlatch, hwidth]
    exact fnHeld (hcond.1 ▸ h) (hcond.2 ▸ hc) (hfn ▸ hon)
  · rw [← hl, Dev.flag_of_rd (Dev.rd_settleLamp n (by decide)), ← hn, Dev.flag_of_rd (Dev.rd_settleFn e (by decide)), Dev.eligNow_settleLamp,
      Dev.eligNow_settleFn, ← he, Dev.eligNow_settleElig]
    rw [← hl, Dev.flag_of_rd (Dev.rd_settleLamp n (by decide)), ← hn, Dev.flag_of_rd (Dev.rd_settleFn e (by decide)), ← he] at h
    exact f.settleElig_agrees h

/-- Settles O4: a step either idles or ends by settling the edge. -/
theorem stepKeepsSettled : Obligations.StepKeepsSettled := by
  intro s t hs h
  cases hp : s.pending with
  | nil =>
    rw [stepIdlesOnEmptyQueue s hp] at h
    injection h with h
    exact h ▸ hs
  | cons c rest =>
    rw [stepRunsFrontCommand c rest s hp] at h
    obtain ⟨dt, f, hr⟩ | ⟨a, dt, f, hr⟩ := exec_run c { s with pending := rest } <;>
      · rw [hr] at h
        injection h with h
        exact h ▸ Dev.finish_settled _

/-- What a run answers. -/
theorem run_next (dt : Nat) (f : Dev → Dev) (s : State) :
    run dt f s = .next { s with dev := Dev.finish (f (s.dev.arrive dt)) } := rfl

/-! ### Instances (O60) and the state at reset (O59) -/

/-- A pulse that an earlier reset of the same edge gives back, with no rings: `Dev.Whole` looks at the device alone, and not at what
`Dev.undo` holds. -/
def ringlessPulse : Undo := { Dev.reset.undoPoint with jobs := { Jobs.fresh with rings := [] } }

/-- The reset device on whose present edge that pulse began, and a pin reset to come. -/
def ringlessUndo : State := { pending := [.pinReset 0], dev := { Dev.reset with undo := some ringlessPulse } }

/-- The pin reset takes the place of the pulse and keeps the rings that the pulse gives back (13 R346, R357): none. -/
theorem ringlessUndo_rings : (Dev.finish ((ringlessUndo.dev.arrive 0).startReset .pin)).jobs.rings.length = 0 := by
  decide +kernel

/-- Refutes O60: from a whole device whose `undo` holds no rings a pin reset on the same edge leads to one without rings. -/
theorem not_stepKeepsInstances : ¬ Obligations.StepKeepsInstances := by
  intro h
  have whole : ringlessUndo.dev.Whole := by constructor <;> rfl
  have hrun := stepRunsFrontCommand (.pinReset 0) [] ringlessUndo rfl
  have hnext := hrun.trans (run_next 0 (Dev.startReset .pin) { ringlessUndo with pending := [] })
  have kept := h.1 ringlessUndo _ whole hnext
  have rings := kept.rings
  dsimp only at rings
  rw [ringlessUndo_rings] at rings
  exact absurd rings (by decide)

/-- Settles O59: a store that lists nothing reads every register at its row's reset value. -/
theorem resetState : Obligations.ResetState := by
  refine ⟨rfl, by decide +kernel, by decide +kernel, rfl, rfl, fun a r h => ?_, by decide +kernel, ?_, ?_, ?_⟩
  · have hw : State.reset.dev.word a = resetWord a := rfl
    rw [hw]
    unfold resetWord
    unfold rowAt at h
    rw [h]
  · exact ⟨by decide +kernel, by decide +kernel, by decide +kernel, by decide +kernel, by decide +kernel, by decide +kernel,
      by decide +kernel, by decide +kernel, by decide +kernel⟩
  · exact ⟨rfl, rfl, fun u hu => absurd hu (by simp [State.reset, Dev.released, Dev.reset])⟩
  · constructor <;> rfl

end Sys2Proof.Machine
end

section
/-!
PROOF. Clocks, complement pairs and the internal monitors (01 R14 to R18, R27, R30; 11 R281, R286, R292; 13 R344, R390; O5 to O9).
-/

namespace Sys2Proof.Machine

theorem Dev.Steady.setClk {d : Dev} (h : d.Steady) (c : Clock) : ({ d with clk := c } : Dev).Steady :=
  h.of_flt rfl (mode_congr rfl) rfl

/-! ### The count of XOIN (O5) -/

theorem Dev.whenNow_pos {p : Dev → Bool} {d : Dev} (h : p d = true) (f : Dev → Dev) : Dev.whenNow p f d = f d := if_pos h

/-- What a count of XOIN does at a stage where it is taken. -/
theorem xoinCount_completes {c : Instr} {s : State} {dt count n : Nat}
    (hrun : exec c s = run dt (Dev.whenNow (fun d => d.atStage n) (Dev.xoinCount count)) s) (hs : s.dev.Steady)
    (hat : s.dev.atStage n = true) :
    (∀ f, xoinRow count = some f → Completes c s fun t => t.stage = 2 ∧ t.clk.xoin = f) ∧
      (xoinRow count = none → Completes c s fun t => t.stage = 1) := by
  have hw := Dev.whenNow_pos (p := fun d => d.atStage n) (d := s.dev.advance dt) hat (Dev.xoinCount count)
  have hst := hs.advance dt
  refine ⟨fun f hf => ?_, fun hf => ?_⟩
  · have hx : (s.dev.advance dt).xoinCount count =
        { (s.dev.advance dt).setStage 2 with clk := { (s.dev.advance dt).clk with xoin := f } } := by
      unfold Dev.xoinCount
      rw [hf]
    rw [hx] at hw
    refine Completes.of_steady hrun (by rw [hw]; exact (hst.setStage 2).setClk _) fun t ht => ?_
    rw [hw] at ht
    refine ⟨?_, congrArg Clock.xoin ht.clk⟩
    rw [ht.stage]
    exact (Dev.rd_with_clk _ _ _).trans (Dev.stage_setStage _ (by decide))
  · have hx : (s.dev.advance dt).xoinCount count = (s.dev.advance dt).setStage 1 := by
      unfold Dev.xoinCount
      rw [hf]
    rw [hx] at hw
    refine Completes.of_steady hrun (by rw [hw]; exact hst.setStage 1) fun t ht => ?_
    rw [hw] at ht
    rw [ht.stage]
    exact Dev.stage_setStage _ (by decide)

/-- Settles O5: the first count and its repetition are the same count at two stages. -/
theorem xoinCountSelectsRow : Obligations.XoinCountSelectsRow := by
  intro s dt count hs
  exact ⟨xoinCount_completes rfl hs, xoinCount_completes rfl hs⟩

/-! ### Firings and the fold that they call for (11 R284, R286, R287) -/

/-- A change of the device that neither calls for a fold nor takes a call back. -/
structure PendKept (d e : Dev) : Prop where
  pend : e.flt.foldPend = d.flt.foldPend

namespace PendKept

theorem refl (d : Dev) : PendKept d d := ⟨rfl⟩

theorem trans {d e f : Dev} (h : PendKept d e) (h' : PendKept e f) : PendKept d f := ⟨h'.pend.trans h.pend⟩

theorem of_flt {d e : Dev} (h : e.flt = d.flt) : PendKept d e := ⟨congrArg Flt.foldPend h⟩

theorem wr (d : Dev) (f : Fld) (v : Nat) : PendKept d (d.wr f v) := of_flt (Dev.wr_flt d f v)

theorem setFlt (d : Dev) (F : Flt) (h : F.foldPend = d.flt.foldPend) : PendKept d { d with flt := F } := ⟨h⟩

theorem setPast (d : Dev) (p : Past) : PendKept d { d with past := p } := ⟨rfl⟩

theorem setNvmc (d : Dev) (n : NvmCtl) : PendKept d { d with nvmc := n } := ⟨rfl⟩

theorem when {d : Dev} (b : Bool) {f : Dev → Dev} (h : PendKept d (f d)) : PendKept d (d.when b f) := by
  cases b
  · exact refl d
  · exact h

theorem fillCapture (f : Firing) (repl multi : Bool) (d : Dev) : PendKept d (d.fillCapture f repl multi) := by
  unfold Dev.fillCapture
  refine trans ?_ (setFlt _ _ rfl)
  refine trans ?_ (wr _ FLT_CAP_FRAC_FRAC _)
  refine trans ?_ (wr _ FLT_CAP_NS_NS _)
  refine trans ?_ (wr _ FLT_CAP_SEC_HI_SEC _)
  refine trans ?_ (wr _ FLT_CAP_SEC_LO_SEC _)
  refine trans ?_ (wr _ FLT_CAP_SEQ_SEQ _)
  refine trans ?_ (wr _ FLT_CAP_DETAIL_DETAIL _)
  refine trans ?_ (wr _ FLT_CAP_ADDR_ADDR _)
  exact of_flt (Dev.setWord_flt _ _ _)

theorem captureFiring (f : Firing) (d : Dev) : PendKept d (d.captureFiring f) := by
  unfold Dev.captureFiring
  split
  · exact fillCapture ..
  · split
    · dsimp only
      split
      · exact fillCapture ..
      · exact wr ..
    · split
      · exact fillCapture ..
      · exact of_flt (Dev.bump_flt _ _)

theorem noticeAtLatch (src sev : Nat) (d : Dev) : PendKept d (d.noticeAtLatch src sev) := by
  have hsend : ∀ x t ds sr h q p (e : Dev), PendKept e (e.sendOn x t ds sr h q p) := fun x t ds sr h q p e => by
    unfold Dev.sendOn
    split
    · exact of_flt rfl
    · exact refl e
  unfold Dev.noticeAtLatch
  refine when _ ?_
  unfold Dev.sendNotice Dev.originate
  split
  · exact refl d
  · exact (setPast d _).trans ((hsend ..).trans (hsend ..))

end PendKept

/-- Of a firing that has counted, only the reaction can call for a fold. -/
theorem Dev.afterCount_react (f : Firing) (sim : Bool) (d : Dev) : ∃ x, Still FireReg d x ∧ PendKept d x ∧
    d.afterCount f sim = if x.reactive then x.reactTo f.src f.sev f.inj (!sim) (forcedFold f.src && !f.inj) else x := by
  unfold Dev.afterCount
  extract_lets d1 real d2 t e l flt d3 d4 d5
  refine ⟨d5, ?_, ?_, rfl⟩
  · have capture : Still FireReg d d1 := (Still.captureFiring f d).mono fun a h => Or.inl h
    have inj : Still FireReg d1 d2 := Still.when d1 _ _ (Still.wr d1 FLT_INJ_STAT_REAL 1 (Or.inr (Or.inr rfl)))
    have entry : Still FireReg d2 d3 := Still.setFlt d2 _ rfl rfl rfl
    exact (capture.trans inj).trans (entry.trans ((Still.when d3 _ _ (Still.setNvmc d3 _)).trans (Still.noticeAtLatch ..)))
  · have before : PendKept d d2 := (PendKept.captureFiring f d).trans (PendKept.when _ (PendKept.wr ..))
    have entry : PendKept d2 d3 := PendKept.setFlt d2 _ rfl
    exact before.trans (entry.trans ((PendKept.when _ (PendKept.setNvmc d3 _)).trans (PendKept.noticeAtLatch ..)))

theorem Dev.reactive_congr {d e : Dev} (hm : e.word rDEV_MODE = d.word rDEV_MODE) (hk : e.resetKind = d.resetKind) :
    e.reactive = d.reactive := by
  unfold Dev.reactive
  rw [mode_congr hm, hk]

theorem Still.reactive {A : Nat → Prop} {d e : Dev} (h : Still A d e) (hA : ¬ A rDEV_MODE) : e.reactive = d.reactive :=
  Dev.reactive_congr (h.word _ hA) h.resetKind

theorem Dev.reactive_counted (src : Nat) (d : Dev) : ((d.evt (ackFld src)).bump FLT_SEQNO_COUNT).reactive = d.reactive := by
  have ha := ackFld_addr src
  have h1 := Still.evt (A := fun a => a = (ackFld src).addr) d (ackFld src) rfl
  have h2 := Still.wr (A := fun a => a = rFLT_SEQNO) (d.evt (ackFld src)) FLT_SEQNO_COUNT ((d.evt (ackFld src)).rd FLT_SEQNO_COUNT + 1) rfl
  exact (h2.reactive (by decide)).trans (h1.reactive (by unfold rDEV_MODE; omega))

theorem PendKept.counted (src : Nat) (d : Dev) : PendKept d ((d.evt (ackFld src)).bump FLT_SEQNO_COUNT) :=
  PendKept.of_flt ((Dev.bump_flt _ _).trans (Dev.evt_flt _ _))

/-- A firing calls for no fold where the collector does not react (11 R287). -/
theorem PendKept.fireAs_of_quiet {d : Dev} (h : d.reactive = false) (src detail : Nat) (acc : Option Access) (inj sim : Bool) :
    PendKept d (d.fireAs src detail acc inj sim) := by
  rw [Dev.fireAs_eq]
  obtain ⟨x, hs, hp, he⟩ := Dev.afterCount_react (d.firing src detail acc inj) sim ((d.evt (ackFld src)).bump FLT_SEQNO_COUNT)
  rw [he, hs.reactive (not_fireReg (by decide) (by decide) (by decide) (by decide)), Dev.reactive_counted, h]
  exact (PendKept.counted src d).trans hp

theorem Dev.when_true (d : Dev) (f : Dev → Dev) : d.when true f = f d := rfl

theorem Dev.reactTo_forced (src sev : Nat) (inj : Bool) (d : Dev) : (d.reactTo src sev inj (!false) true).flt.foldPend = true := by
  unfold Dev.reactTo
  extract_lets d1 d2 r d3 d4 d5
  rw [if_neg (by decide), Bool.or_true, Dev.when_true]

/-- A real firing of SYS_PLL_LOL or FOLD_PATH calls for one wherever the collector reacts (11 R286). -/
theorem Dev.fire_forced {d : Dev} (h : d.reactive = true) {src : Nat} (hf : forcedFold src = true) (detail : Nat) :
    (d.fire src detail).flt.foldPend = true := by
  unfold Dev.fire
  rw [Dev.fireAs_eq]
  obtain ⟨x, hs, -, he⟩ := Dev.afterCount_react (d.firing src detail none false) false ((d.evt (ackFld src)).bump FLT_SEQNO_COUNT)
  rw [he, hs.reactive (not_fireReg (by decide) (by decide) (by decide) (by decide)), Dev.reactive_counted, h, if_pos rfl]
  have hforced : (forcedFold (d.firing src detail none false).src && !(d.firing src detail none false).inj) = true := by
    rw [show (d.firing src detail none false).src = src from rfl, hf]
    rfl
  rw [hforced]
  exact Dev.reactTo_forced ..

theorem PendKept.raise_of_quiet {d : Dev} (h : d.reactive = false) (src inst detail : Nat) :
    PendKept d (d.raise src inst detail) := by
  unfold Dev.raise
  split
  · exact PendKept.refl d
  · dsimp only
    generalize hx : ({ d with flt := { d.flt with live := d.flt.live ++ [(src, inst)] } } : Dev) = x
    have hp : PendKept d x := by rw [← hx]; exact PendKept.setFlt d _ rfl
    have hr : x.reactive = false := by rw [← hx]; exact h
    exact hp.trans (PendKept.fireAs_of_quiet hr ..)

theorem PendKept.lower (d : Dev) (src inst : Nat) : PendKept d (d.lower src inst) := by
  obtain ⟨-, -, -, hp, -, -⟩ := Dev.lower_spec src inst d
  exact ⟨hp⟩

theorem PendKept.level_of_quiet {d : Dev} (h : d.reactive = false) (src inst detail : Nat) (on : Bool) :
    PendKept d (d.level src inst detail on) := by
  cases on
  · exact PendKept.lower d src inst
  · exact PendKept.raise_of_quiet h src inst detail

/-! ### The system PLL (O6) -/

/-- Judging the cells changes the measurement front end alone. -/
theorem Dev.judgeDue_eq (d : Dev) (t : Int) : ∃ m, d.judgeDue t = { d with meas := m } := by
  have step : ∀ n, ∃ m, forN n (fun k d =>
      if (d.cell k).due ∨ ¬ d.cellDue k t then d
      else
        let d := d.setCell k fun c => { c with due := true }
        { d with meas := { d.meas with dueOrder := d.meas.dueOrder ++ [k] } }) d = { d with meas := m } := by
    intro n
    induction n with
    | zero => exact ⟨d.meas, rfl⟩
    | succ n ih =>
      obtain ⟨m, hm⟩ := ih
      rw [forN_succ, hm]
      split
      · exact ⟨m, rfl⟩
      · exact ⟨_, rfl⟩
  exact step 48

theorem Dev.judgeDue_parts (d : Dev) (t : Int) : (d.judgeDue t).live = d.live ∧ (d.judgeDue t).flt = d.flt ∧
    (d.judgeDue t).clk = d.clk ∧ (d.judgeDue t).priorMode = d.priorMode := by
  obtain ⟨m, h⟩ := d.judgeDue_eq t
  rw [h]
  exact ⟨rfl, rfl, rfl, rfl⟩

/-- FLT_TEMP holds the threshold of TEMP_HIGH, 16 units to the degree. -/
def Dev.tempHi (d : Dev) : Int := 16 * (d.rdIn FLT_TEMP_TEMP_HI 60 120 : Nat)

/-- The device that has stored a reading of the sensor, before anything is judged by it. -/
def Dev.tempStored (t : Int) (d : Dev) : Dev := (d.wr DEV_TEMP_TEMP (twos 16 t)).wr DEV_TEMP_VALID 1

/-- What a stored reading makes live or ends: TEMP_CRIT and TEMP_HIGH, the second between its thresholds neither. -/
def Dev.tempLevels (t : Int) (d : Dev) : Dev :=
  let x := d.level 6 0 (twos 16 (t / 16)) (decide (2000 < t))
  if d.tempHi < t then x.raise 7 0 (twos 16 (t / 16)) else if t ≤ d.tempHi - 32 then x.lower 7 0 else x

theorem Dev.takeTemp_eq (t : Int) (d : Dev) : d.takeTemp t = ((d.tempStored t).tempLevels t).judgeDue t := rfl

/-! ### Jobs that the loss of the time base ends (03 R81, R82) -/

/-- An update of jobs that may fire: the clocks and the live conditions stand. -/
structure JobEnds (d e : Dev) : Prop where
  clk : e.clk = d.clk
  live : e.flt.live = d.flt.live

namespace JobEnds

theorem refl (d : Dev) : JobEnds d d := ⟨rfl, rfl⟩

theorem trans {d e f : Dev} (h : JobEnds d e) (h' : JobEnds e f) : JobEnds d f :=
  ⟨h'.clk.trans h.clk, h'.live.trans h.live⟩

theorem of_still {A : Nat → Prop} {d e : Dev} (h : Still A d e) : JobEnds d e := ⟨h.clk, h.fltLive⟩

theorem of_jobs {d e : Dev} (h : JobsOnly d e) : JobEnds d e := ⟨h.clk, congrArg Flt.live h.flt⟩

theorem foldl {α : Type} (l : List α) {f : Dev → α → Dev} (h : ∀ d a, JobEnds d (f d a)) (d : Dev) : JobEnds d (l.foldl f d) := by
  induction l generalizing d with
  | nil => exact refl d
  | cons a t ih => exact (h d a).trans (ih (f d a))

theorem slotBad (k : Nat) (d : Dev) : JobEnds d (d.slotBad k) := by
  unfold Dev.slotBad
  split
  · split
    · exact refl d
    · rename_i j _ _
      have hj := of_jobs (JobsOnly.setJob d k (some { j with done := some (Done.aborted 5) }))
      have he := Still.evt (A := fun a => a = rMEAS_Q_ERR) (d.setJob k (some { j with done := some (Done.aborted 5) }))
        MEAS_Q_ERR_QUEUE_ECC rfl
      exact (hj.trans (of_still he)).trans (of_still (Still.fireAs ..))
  · exact refl d

theorem settleFlush (r : Nat) (d : Dev) : JobEnds d (d.settleFlush r) := by
  unfold Dev.settleFlush
  refine foldl _ (fun d k => ?_) d
  split
  · dsimp only
    split
    · exact refl d
    · split
      · exact slotBad k d
      · exact of_jobs (JobsOnly.setJob ..)
  · exact refl d

theorem settleRings (d : Dev) : JobEnds d d.settleRings := by
  unfold Dev.settleRings forN
  exact foldl _ (fun d r => (settleFlush r d).trans (of_jobs (JobsOnly.promote r _))) d

theorem abortWhere (cause : Nat) (p : Job → Bool) (d : Dev) : JobEnds d (d.abortWhere cause p) := by
  unfold Dev.abortWhere Dev.abortSlots
  refine (foldl _ (fun d k => ?_) d).trans (settleRings _)
  split
  · split
    · exact of_jobs (JobsOnly.setJob ..)
    · exact refl d
  · exact refl d

end JobEnds

/-! ### Jobs whose bodies are undamaged (03 R81) -/

theorem Dev.bodiesGood_iff (d : Dev) : d.bodiesGood = true ↔ ∀ o ∈ d.jobs.slots, ∀ j, o = some j → j.bad = false := by
  unfold Dev.bodiesGood
  rw [List.all_eq_true]
  refine forall_congr' fun o => forall_congr' fun _ => ?_
  cases o <;> simp

theorem Dev.bodiesGood.job {d : Dev} (h : d.bodiesGood = true) {k : Nat} {j : Job} (hj : d.job k = some j) : j.bad = false := by
  refine d.bodiesGood_iff.mp h _ ?_ j hj
  unfold Dev.job at hj ⊢
  by_cases hk : k < d.jobs.slots.length
  · rw [List.getD_eq_getElem _ _ hk]
    exact List.getElem_mem hk
  · rw [List.getD_eq_default _ _ (Nat.le_of_not_lt hk)] at hj
    exact absurd hj (by simp)

/-- An update of jobs alone that damages no body. -/
structure GoodJobs (d e : Dev) : Prop where
  only : JobsOnly d e
  good : d.bodiesGood = true → e.bodiesGood = true

namespace GoodJobs

theorem refl (d : Dev) : GoodJobs d d := ⟨JobsOnly.refl d, id⟩

theorem trans {d e f : Dev} (h : GoodJobs d e) (h' : GoodJobs e f) : GoodJobs d f :=
  ⟨h.only.trans h'.only, fun g => h'.good (h.good g)⟩

theorem setJob {d : Dev} {k : Nat} {j : Job} (h : d.bodiesGood = true → j.bad = false) : GoodJobs d (d.setJob k (some j)) := by
  refine ⟨JobsOnly.setJob .., fun g => (Dev.bodiesGood_iff _).mpr fun o ho i hi => ?_⟩
  rw [show (d.setJob k (some j)).jobs.slots = d.jobs.slots.modify k fun _ => some j from rfl] at ho
  obtain ⟨n, hn, rfl⟩ := List.mem_iff_getElem.mp ho
  rw [List.getElem_modify] at hi
  split at hi
  · cases hi
    exact h g
  · exact d.bodiesGood_iff.mp g _ (List.getElem_mem _) i hi

theorem promote (r : Nat) (d : Dev) : GoodJobs d (d.promote r) := by
  refine ⟨JobsOnly.promote r d, fun g => ?_⟩
  have : (d.promote r).jobs.slots = d.jobs.slots := by
    unfold Dev.promote
    split
    · rfl
    · split
      · split <;> rfl
      · rfl
  unfold Dev.bodiesGood
  rw [this]
  exact g

theorem foldl {α : Type} (l : List α) {f : Dev → α → Dev} (h : ∀ d a, d.bodiesGood = true → GoodJobs d (f d a)) {d : Dev}
    (g : d.bodiesGood = true) : GoodJobs d (l.foldl f d) := by
  induction l generalizing d with
  | nil => exact refl d
  | cons a t ih => exact (h d a g).trans (ih ((h d a g).good g))

theorem settleFlush (r : Nat) {d : Dev} (g : d.bodiesGood = true) : GoodJobs d (d.settleFlush r) := by
  unfold Dev.settleFlush
  refine foldl _ (fun d k g => ?_) g
  split
  · rename_i j hj
    have hb : j.bad = false := Dev.bodiesGood.job g hj
    dsimp only
    split
    · exact refl d
    · rw [if_neg (by simp [hb])]
      exact setJob fun _ => hb
  · exact refl d

theorem settleRings {d : Dev} (g : d.bodiesGood = true) : GoodJobs d d.settleRings := by
  unfold Dev.settleRings forN
  exact foldl _ (fun d r g => (settleFlush r g).trans (promote r _)) g

theorem abortWhere (cause : Nat) (p : Job → Bool) {d : Dev} (g : d.bodiesGood = true) : GoodJobs d (d.abortWhere cause p) := by
  unfold Dev.abortWhere Dev.abortSlots
  have first := foldl (d.slotsWhere p) (f := fun d k =>
    match d.job k with
    | some j => if j.done.isNone then d.setJob k (some { j with done := some (Done.aborted cause) }) else d
    | none => d) (fun d k g => ?_) g
  · exact first.trans (settleRings (first.good g))
  · split
    · rename_i j hj
      split
      · have hb : j.bad = false := Dev.bodiesGood.job g hj
        exact setJob fun _ => hb
      · exact refl d
    · exact refl d

end GoodJobs

theorem Fired.of_rd {src : Nat} {c d e : Dev} (h : Fired src d e) (hc : d.rd FLT_SEQNO_COUNT = c.rd FLT_SEQNO_COUNT) :
    Fired src c e := ⟨h.latched, by rw [h.counted, hc]⟩

/-- A source that becomes live once the jobs of the time base have ended fires, and alone where no body is damaged. -/
theorem Dev.abortTimeBase_raise (src inst detail : Nat) (d : Dev) (h : src < 64) (hl : (src, inst) ∉ d.flt.live) :
    ((d.abortTimeBase).raise src inst detail).latched src = true ∧
      (src, inst) ∈ ((d.abortTimeBase).raise src inst detail).flt.live ∧
        (d.bodiesGood = true → Fired src d ((d.abortTimeBase).raise src inst detail)) := by
  have he : JobEnds d d.abortTimeBase := JobEnds.abortWhere ..
  obtain ⟨hf, hm⟩ := Dev.raise_fired src inst detail d.abortTimeBase h (by rw [he.live]; exact hl)
  exact ⟨hf.latched, hm, fun g => hf.of_rd ((GoodJobs.abortWhere 4 Job.measures g).only.rd _)⟩

/-! ### Level conditions that begin and end (11 R281) -/

theorem Dev.mem_live_raise (src inst detail : Nat) (d : Dev) (p : Nat × Nat) :
    p ∈ (d.raise src inst detail).flt.live ↔ p ∈ d.flt.live ∨ p = (src, inst) := by
  unfold Dev.raise
  split
  · next h =>
    have : (src, inst) ∈ d.flt.live := by simpa using h
    exact ⟨Or.inl, fun h => h.elim id fun e => e ▸ this⟩
  · rw [show (Dev.fire src detail _).flt.live = _ from (Still.fireAs ..).fltLive]
    simp

theorem Dev.mem_live_lower (src inst : Nat) (d : Dev) (p : Nat × Nat) :
    p ∈ (d.lower src inst).flt.live ↔ p ∈ d.flt.live ∧ p ≠ (src, inst) := by
  unfold Dev.lower
  split
  · unfold Dev.when
    dsimp only
    split <;> simp
  · next h =>
    have : (src, inst) ∉ d.flt.live := by simpa using h
    exact ⟨fun hp => ⟨hp, fun e => this (e ▸ hp)⟩, And.left⟩

/-- A condition that begins counts one firing, unless it was live. -/
theorem Dev.raise_counts (src inst detail : Nat) (d : Dev) (h : src < 64) :
    (d.raise src inst detail).rd FLT_SEQNO_COUNT =
      (d.rd FLT_SEQNO_COUNT + if (src, inst) ∉ d.flt.live then 1 else 0) % 2 ^ 32 := by
  by_cases hl : (src, inst) ∈ d.flt.live
  · rw [if_neg (not_not_intro hl), Nat.add_zero, Nat.mod_eq_of_lt (show _ < 2 ^ 32 from d.rd_lt FLT_SEQNO_COUNT)]
    unfold Dev.raise
    rw [if_pos (by simpa using hl)]
  · rw [if_pos hl]
    exact (Dev.raise_fired src inst detail d h hl).1.counted

/-- What a run of levels can touch: what a firing can, and the live conditions. -/
structure Leveled (d e : Dev) : Prop where
  word : ∀ a, ¬ FiringReg a → e.word a = d.word a
  clk : e.clk = d.clk
  resetKind : e.resetKind = d.resetKind
  priorMode : e.priorMode = d.priorMode
  dumpCopy : e.flt.dumpCopy = d.flt.dumpCopy
  pend : d.reactive = false → e.flt.foldPend = d.flt.foldPend
  outs : e.outs = d.outs
  railLow : e.railLow = d.railLow

namespace Leveled

theorem refl (d : Dev) : Leveled d d := by constructor <;> intros <;> rfl

theorem reactive {d e : Dev} (h : Leveled d e) : e.reactive = d.reactive :=
  Dev.reactive_congr (h.word _ (not_firingReg (by decide) (by decide) (by decide) (by decide))) h.resetKind

theorem trans {d e f : Dev} (h : Leveled d e) (h' : Leveled e f) : Leveled d f where
  word a ha := (h'.word a ha).trans (h.word a ha)
  clk := h'.clk.trans h.clk
  resetKind := h'.resetKind.trans h.resetKind
  priorMode := h'.priorMode.trans h.priorMode
  dumpCopy := h'.dumpCopy.trans h.dumpCopy
  pend hr := (h'.pend (h.reactive.trans hr)).trans (h.pend hr)
  outs := h'.outs.trans h.outs
  railLow := h'.railLow.trans h.railLow

theorem raise (src inst detail : Nat) (d : Dev) : Leveled d (d.raise src inst detail) := by
  have hp : d.reactive = false → (d.raise src inst detail).flt.foldPend = d.flt.foldPend :=
    fun h => (PendKept.raise_of_quiet h src inst detail).pend
  unfold Dev.raise at hp ⊢
  split at hp
  · next h =>
    rw [if_pos h]
    exact refl d
  · next h =>
    rw [if_neg h]
    generalize hx : ({ d with flt := { d.flt with live := d.flt.live ++ [(src, inst)] } } : Dev) = x at hp ⊢
    have hs := Still.fireAs src detail none false false x
    exact {
      word := fun a ha => (hs.word a ha).trans (by rw [← hx]; exact Dev.word_with_flt _ _ _)
      clk := hs.clk.trans (by rw [← hx])
      resetKind := hs.resetKind.trans (by rw [← hx])
      priorMode := hs.priorMode.trans (by rw [← hx])
      dumpCopy := hs.dumpCopy.trans (by rw [← hx])
      pend := hp
      outs := hs.outs.trans (by rw [← hx])
      railLow := hs.railLow.trans (by rw [← hx]) }

theorem lower (src inst : Nat) (d : Dev) : Leveled d (d.lower src inst) := by
  obtain ⟨-, hl, hc, hp, hd, hm⟩ := Dev.lower_spec src inst d
  have h3 : (d.lower src inst).resetKind = d.resetKind ∧ (d.lower src inst).outs = d.outs ∧
      (d.lower src inst).railLow = d.railLow := by
    unfold Dev.lower Dev.when
    dsimp only
    split
    · split <;> exact ⟨rfl, rfl, rfl⟩
    · exact ⟨rfl, rfl, rfl⟩
  exact ⟨fun a _ => Dev.word_congr hl a, hc, h3.1, hm, hd, fun _ => hp, h3.2.1, h3.2.2⟩

theorem level (src inst detail : Nat) (on : Bool) (d : Dev) : Leveled d (d.level src inst detail on) := by
  cases on
  · exact lower src inst d
  · exact raise src inst detail d

theorem rd {d e : Dev} (h : Leveled d e) (f : Fld) (hf : ¬ FiringReg f.addr) : e.rd f = d.rd f := by
  unfold Dev.rd
  rw [h.word _ hf]

theorem calm {d e : Dev} (h : Leveled d e) (hr : d.reactive = false) (hc : d.Calm) : e.Calm :=
  ⟨(h.pend hr).trans hc.noFold, h.dumpCopy.trans hc.noCopy⟩

end Leveled

/-! ### The sensor (13 R390) -/

theorem sext_twos {n : Nat} (t : Int) (hn : 0 < n) (h1 : -(2 ^ (n - 1)) ≤ t) (h2 : t < 2 ^ (n - 1)) : sext n (twos n t) = t := by
  obtain ⟨m, rfl⟩ := Nat.exists_eq_add_of_lt hn
  simp only [Nat.zero_add, Nat.add_sub_cancel] at h1 h2 ⊢
  unfold sext twos
  rw [Nat.add_sub_cancel]
  have hp : (0 : Int) < 2 ^ m := by positivity
  have hs : (2 : Int) ^ (m + 1) = 2 * 2 ^ m := by ring
  have hc : ((2 ^ m : Nat) : Int) = 2 ^ m := by push_cast; rfl
  have hc' : ((2 ^ (m + 1) : Nat) : Int) = 2 * 2 ^ m := by push_cast; ring
  rw [hs]
  by_cases ht : 0 ≤ t
  · rw [Int.emod_eq_of_lt ht (by omega), Nat.mod_eq_of_lt (by omega), if_pos (by omega)]
    omega
  · have he : t % (2 * 2 ^ m) = t + 2 * 2 ^ m := by
      rw [← Int.add_emod_right, Int.emod_eq_of_lt (by omega) (by omega)]
    rw [he, Nat.mod_eq_of_lt (by omega), if_neg (by omega)]
    omega

theorem Leveled.tempLevels (t : Int) (d : Dev) : Leveled d (d.tempLevels t) := by
  unfold Dev.tempLevels
  dsimp only
  split
  · exact (level ..).trans (raise ..)
  · split
    · exact (level ..).trans (lower ..)
    · exact level ..

theorem Dev.rdS_tempStored (d : Dev) {t : Int} (h1 : -32768 ≤ t) (h2 : t < 32768) : (d.tempStored t).rdS DEV_TEMP_TEMP = t := by
  have hr : (d.tempStored t).rd DEV_TEMP_TEMP = twos 16 t % 2 ^ 16 := by
    unfold Dev.tempStored
    rw [Dev.rd_wr_apart (by decide), Dev.rd_wr_self _ _ _ (by decide)]
    rfl
  unfold Dev.rdS
  rw [hr]
  refine Eq.trans ?_ (sext_twos (n := 16) t (by decide) h1 h2)
  unfold sext
  simp [DEV_TEMP_TEMP]

theorem Dev.flag_tempStored (d : Dev) (t : Int) : (d.tempStored t).flag DEV_TEMP_VALID = true :=
  Dev.flag_wr_self _ DEV_TEMP_VALID 1 (by decide) rfl

theorem Dev.tempStored_parts (d : Dev) (t : Int) : (∀ a, a ≠ rDEV_TEMP → (d.tempStored t).word a = d.word a) ∧
    (d.tempStored t).flt = d.flt ∧ (d.tempStored t).clk = d.clk := by
  unfold Dev.tempStored
  refine ⟨fun a ha => ?_, ?_, ?_⟩
  · exact (Dev.word_setWord_of_ne _ rDEV_TEMP a _ ha).trans (Dev.word_setWord_of_ne _ rDEV_TEMP a _ ha)
  · rw [Dev.wr_flt, Dev.wr_flt]
  · rw [Dev.wr_clk, Dev.wr_clk]

/-- Judging the cells, the last that a reading does, reaches none of what the levels have left. -/
theorem Dev.takeTemp_parts (d : Dev) (t : Int) : (d.takeTemp t).live = ((d.tempStored t).tempLevels t).live ∧
    (d.takeTemp t).flt = ((d.tempStored t).tempLevels t).flt ∧ (d.takeTemp t).clk = ((d.tempStored t).tempLevels t).clk ∧
      (d.takeTemp t).priorMode = ((d.tempStored t).tempLevels t).priorMode := by
  rw [Dev.takeTemp_eq]
  exact Dev.judgeDue_parts _ t

/-- What a reading stores stands when everything is judged by it. -/
theorem Dev.takeTemp_stored (d : Dev) {t : Int} (h1 : -32768 ≤ t) (h2 : t < 32768) :
    (d.takeTemp t).rdS DEV_TEMP_TEMP = t ∧ (d.takeTemp t).flag DEV_TEMP_VALID = true := by
  have hl := Leveled.tempLevels t (d.tempStored t)
  have hr : ∀ f : Fld, f.addr = rDEV_TEMP → (d.takeTemp t).rd f = (d.tempStored t).rd f := fun f hf =>
    (Dev.rd_congr (d.takeTemp_parts t).1 f).trans
      (hl.rd f (by rw [hf]; exact not_firingReg (by decide) (by decide) (by decide) (by decide)))
  constructor
  · rw [Dev.rdS, hr _ rfl]
    exact d.rdS_tempStored h1 h2
  · rw [Dev.flag, hr _ rfl]
    exact d.flag_tempStored t

theorem Dev.quiet_of_boot {d : Dev} (h : d.mode = .boot) : d.reactive = false := by
  unfold Dev.reactive
  rw [h]

theorem Dev.underMode_of_boot {d : Dev} (h : d.mode = .boot) : d.underMode = .boot := by
  unfold Dev.underMode
  rw [h]

/-- A reading in BOOT leaves the device at rest, and every register but its own and those of firings. -/
theorem Dev.takeTemp_boot {d : Dev} (t : Int) (h : d.Steady) (hm : d.mode = .boot) :
    (d.takeTemp t).Steady ∧ (∀ a, ¬ FiringReg a → a ≠ rDEV_TEMP → (d.takeTemp t).word a = d.word a) ∧
      (d.takeTemp t).clk = d.clk := by
  obtain ⟨hlive, hflt, hclk, -⟩ := d.takeTemp_parts t
  have hl := Leveled.tempLevels t (d.tempStored t)
  obtain ⟨hs, hstored, hsc⟩ := d.tempStored_parts t
  have hw : ∀ a, ¬ FiringReg a → a ≠ rDEV_TEMP → (d.takeTemp t).word a = d.word a := fun a ha ht =>
    (Dev.word_congr hlive a).trans ((hl.word a ha).trans (hs a ht))
  have hmode : (d.takeTemp t).mode = .boot :=
    (mode_congr (hw _ (not_firingReg (by decide) (by decide) (by decide) (by decide)) (by decide))).trans hm
  have hquiet : (d.tempStored t).reactive = false := Dev.quiet_of_boot ((mode_congr (hs _ (by decide))).trans hm)
  have hcalm : (d.takeTemp t).Calm :=
    ⟨by rw [hflt, hl.pend hquiet, hstored]; exact h.noFold, by rw [hflt, hl.dumpCopy, hstored]; exact h.noCopy⟩
  exact ⟨⟨hcalm, by rw [Dev.underMode_of_boot hmode]; decide⟩, hw, hclk.trans (hl.clk.trans hsc)⟩

/-- The path fuses load, each in its register, and nothing else changes. -/
def Dev.loadFuses (fuses : List Nat) (d : Dev) : Dev :=
  forN 64 (fun k d => d.setWord (rMCH_PATH k) (Word.of (fuses.getD k 0))) d

theorem Dev.loadFuses_word (fuses : List Nat) (d : Dev) :
    (∀ k < 64, (d.loadFuses fuses).word (rMCH_PATH k) = Word.of (fuses.getD k 0)) ∧
      ∀ a, a < 0x061008 → (d.loadFuses fuses).word a = d.word a := by
  obtain ⟨h1, h2⟩ := forN_setWord_word 64 rMCH_PATH (fun k => Word.of (fuses.getD k 0)) d
    (fun i j h => by unfold rMCH_PATH at h; omega)
  exact ⟨h1, fun a ha => h2 a fun k _ e => by unfold rMCH_PATH at e; omega⟩

theorem Dev.loadFuses_parts (fuses : List Nat) (d : Dev) :
    (d.loadFuses fuses).flt = d.flt ∧ (d.loadFuses fuses).clk = d.clk ∧ (d.loadFuses fuses).boot = d.boot ∧
      (d.loadFuses fuses).priorMode = d.priorMode := by
  unfold Dev.loadFuses
  generalize 64 = n
  induction n with
  | zero => exact ⟨rfl, rfl, rfl, rfl⟩
  | succ n ih => rw [forN_succ]; exact ih

/-- The lock of the system PLL with all fuses readable, part by part. -/
theorem Dev.pllLock_eq {d : Dev} (h : d.atStage 2 = true) (fuses : List Nat) (t : Int) :
    d.pllLock fuses none t =
      ((({ d with clk := { d.clk with pllLocked := true, bootclk := false } } : Dev).loadFuses fuses).setStage d.scanStage).takeTemp t := by
  unfold Dev.pllLock
  rw [if_neg (not_not_intro h)]
  have hb := (Dev.loadFuses_parts fuses ({ d with clk := { d.clk with pllLocked := true, bootclk := false } } : Dev)).2.2.1
  unfold Dev.loadFuses at hb ⊢
  dsimp only at hb ⊢
  generalize forN 64 _ _ = e at hb ⊢
  rw [Dev.scanStage, Dev.scanStage, hb]

theorem Dev.word_setStage (d : Dev) (n : Nat) {a : Nat} (h : a ≠ rDEV_MODE) : (d.setStage n).word a = d.word a :=
  Dev.word_setWord_of_ne d rDEV_MODE a _ h

theorem Dev.setStage_clk (d : Dev) (n : Nat) : (d.setStage n).clk = d.clk := rfl

theorem Dev.stage_congr {d e : Dev} (h : e.word rDEV_MODE = d.word rDEV_MODE) : e.stage = d.stage := by
  unfold Dev.stage Dev.rd
  rw [show DEV_MODE_BOOT_STAGE.addr = rDEV_MODE from rfl, h]

/-- The system PLL locks (01 R15, R16). -/
theorem sysPllLock_completes (s : State) (dt : Nat) (fuses : List Nat) (t : Int) (h1 : -32768 ≤ t) (h2 : t < 32768)
    (hs : s.dev.Steady) (hat : s.dev.atStage 2 = true) :
    Completes (.sysPllLock dt fuses ⟨none, t⟩) s fun e =>
      e.clk.pllLocked = true ∧ e.clk.bootclk = false ∧ e.stage = s.dev.scanStage ∧
        e.rdS DEV_TEMP_TEMP = t ∧ e.flag DEV_TEMP_VALID = true ∧ ∀ k < 64, e.word (rMCH_PATH k) = Word.of (fuses.getD k 0) := by
  generalize hx : ({ s.dev.advance dt with clk := { (s.dev.advance dt).clk with pllLocked := true, bootclk := false } } : Dev) = x
  have hlock : (s.dev.advance dt).pllLock fuses none t = ((x.loadFuses fuses).setStage s.dev.scanStage).takeTemp t := by
    rw [← hx]
    exact Dev.pllLock_eq (d := s.dev.advance dt) hat fuses t
  obtain ⟨hflt, hclk, -, hprior⟩ := x.loadFuses_parts fuses
  obtain ⟨hfuse, hword⟩ := x.loadFuses_word fuses
  have hboot : s.dev.mode = .boot := by
    unfold Dev.atStage at hat
    simp at hat
    exact hat.1
  have hxs : x.Steady := by rw [← hx]; exact (hs.advance dt).setClk _
  have hxm : x.mode = .boot := by rw [← hx, ← hboot]; exact mode_congr rfl
  have hms : (x.loadFuses fuses).mode = x.mode := mode_congr (hword _ (by decide))
  have hls := hxs.of_flt hflt hms hprior
  obtain ⟨hsteady, hw, hc⟩ := Dev.takeTemp_boot t (hls.setStage s.dev.scanStage)
    (((x.loadFuses fuses).mode_setStage _).trans (hms.trans hxm))
  obtain ⟨htemp, hvalid⟩ := ((x.loadFuses fuses).setStage s.dev.scanStage).takeTemp_stored h1 h2
  refine Completes.of_steady rfl (by rw [hlock]; exact hsteady) fun e he => ?_
  rw [hlock] at he
  have hclk' : e.clk = x.clk := he.clk.trans (hc.trans ((Dev.setStage_clk _ _).trans hclk))
  have hfire : ∀ k < 64, ¬ FiringReg (rMCH_PATH k) := fun k hk =>
    not_firingReg (Or.inr (Or.inl (by unfold rMCH_PATH; omega))) (Or.inr (by unfold rMCH_PATH; omega))
      (by unfold rMCH_PATH; omega) (by unfold rMCH_PATH; omega)
  have hrd : ∀ f : Fld, ¬ SteadyReg f.addr →
      e.rd f = (((x.loadFuses fuses).setStage s.dev.scanStage).takeTemp t).rd f := fun f hf => he.toKeeps.rd f hf
  refine ⟨by rw [hclk', ← hx], by rw [hclk', ← hx], ?_, ?_, ?_, fun k hk => ?_⟩
  · rw [he.stage]
    have hstage := Dev.stage_congr (hw rDEV_MODE (not_firingReg (by decide) (by decide) (by decide) (by decide)) (by decide))
    exact hstage.trans (Dev.stage_setStage _ (by unfold Dev.scanStage; split <;> decide))
  · rw [Dev.rdS, hrd _ (not_steadyReg (by decide) (by decide) (by decide) (by decide))]
    exact htemp
  · rw [Dev.flag, hrd _ (not_steadyReg (by decide) (by decide) (by decide) (by decide))]
    exact hvalid
  · rw [he.word _ (not_steadyReg (by unfold rMCH_PATH; omega) (by unfold rMCH_PATH; omega) (by unfold rMCH_PATH; omega)
      (by unfold rMCH_PATH; omega)), hw _ (hfire k hk) (by unfold rMCH_PATH rDEV_TEMP; omega)]
    exact (Dev.word_setStage _ _ (by unfold rMCH_PATH rDEV_MODE; omega)).trans (hfuse k hk)

/-- Settles O6: the loss ends the jobs of the time base before its source is raised, and their ends fire nothing while no body is
damaged. -/
theorem systemPllLockAndLoss : Obligations.SystemPllLockAndLoss := by
  intro s dt
  refine ⟨fun fuses t h1 h2 hs hat => sysPllLock_completes s dt fuses t h1 h2 hs hat, fun ha hp hl => ?_, fun ha hp => ?_⟩
  · refine Effects.of_run rfl ?_
    generalize hx : ({ s.dev.advance dt with clk := { (s.dev.advance dt).clk with pllLocked := false, unreliable := true } } : Dev) = x
    have hlol : (s.dev.advance dt).pllLol = (x.abortTimeBase).raise 0 0 0 := by
      rw [← hx]
      unfold Dev.pllLol
      rw [if_neg (by simpa using ⟨ha, hp⟩)]
    obtain ⟨hlat, hlive, hgood⟩ := Dev.abortTimeBase_raise 0 0 0 x (by decide) (by rw [← hx]; exact hl)
    have hclk : ((x.abortTimeBase).raise 0 0 0).clk = x.clk := (Dev.raise_clk ..).trans (JobEnds.abortWhere ..).clk
    rw [hlol]
    refine ⟨by rw [hclk, ← hx], by rw [hclk, ← hx], hlat, hlive, fun g => (hgood (by rw [← hx]; exact g)).of_rd ?_⟩
    rw [← hx]
    exact Dev.rd_with_clk ..
  · refine Effects.of_run rfl ?_
    have hre : (s.dev.advance dt).pllRelock =
        ({ s.dev.advance dt with clk := { (s.dev.advance dt).clk with pllLocked := true } } : Dev).lower 0 0 := by
      unfold Dev.pllRelock
      rw [if_neg (by simpa using ⟨hp, ha⟩)]
    obtain ⟨hn, -, hc, -⟩ := Dev.lower_spec 0 0
      ({ s.dev.advance dt with clk := { (s.dev.advance dt).clk with pllLocked := true } } : Dev)
    rw [hre]
    exact ⟨congrArg Clock.pllLocked hc, hn⟩

end Sys2Proof.Machine
end

section
/-!
PROOF. What the pool reaches (02 R52 to R58): the measurement front end, bits of MEAS_STAT that set, and the firing of POOL_SHORT.
-/

namespace Sys2Proof.Machine

/-! ### Status bits that have set stand (10 R273) -/

/-- A status bit of a register of the sequence-clear kind. -/
structure Fld.Bit (f : Fld) : Prop where
  one : f.hi = f.lo
  low : f.lo < 24

theorem ackFld_isBit {src : Nat} (h : src < 64) : (ackFld src).Bit := ⟨(ackFld_bit src h).1, (ackFld_bit src h).2⟩

/-- Another status bit that sets leaves one that is set. -/
theorem Dev.flag_evt_mono {d : Dev} {f g : Fld} (hf : f.Bit) (hg : g.Bit) (h : d.flag f = true) : (d.evt g).flag f = true := by
  by_cases ha : f.addr = g.addr
  · by_cases hb : g.lo = f.lo
    · have hfg : f = g := by
        obtain ⟨ho, _⟩ := hf
        obtain ⟨ho', _⟩ := hg
        cases f
        cases g
        simp_all
      rw [hfg]
      exact Dev.flag_evt_self d g hg.one hg.low
    · rw [Dev.flag_evt_of_bit_ne d g f hg.low hf.one hf.low hb]
      exact h
  · rw [Dev.flag_evt_of_ne d g f ha]
    exact h

/-- A firing leaves the status bits that are set: those of FLT_ACK and those of every register it does not reach. -/
theorem Dev.flag_fireAs_mono {d : Dev} {f : Fld} (hf : f.Bit) (ha : ¬ FireReg f.addr) (hs : f.addr ≠ rFLT_SEQNO)
    {src : Nat} (h : src < 64) (detail : Nat) (acc : Option Access) (inj sim : Bool) (hd : d.flag f = true) :
    (d.fireAs src detail acc inj sim).flag f = true := by
  rw [Dev.fireAs_eq, (Still.afterCount ..).flag f ha, Dev.bump, Dev.flag_wr_of_ne _ _ _ _ hs]
  exact Dev.flag_evt_mono hf (ackFld_isBit h) hd

/-! ### The frame of the pool -/

/-- The status bits that the pool's work never clears: those of MEAS_STAT and of FLT_ACK. -/
def KeptBit (f : Fld) : Prop := f.Bit ∧ (f.addr = rMEAS_STAT ∨ (0x010048 ≤ f.addr ∧ f.addr < 0x010054))

theorem KeptBit.ack {src : Nat} (h : src < 64) : KeptBit (ackFld src) := ⟨ackFld_isBit h, Or.inr (ackFld_addr src)⟩

/-- An update of the measurement front end that may set bits of MEAS_STAT and fire. -/
structure PoolFrame (d e : Dev) : Prop where
  word : ∀ a, a ≠ rMEAS_STAT → ¬ FiringReg a → e.word a = d.word a
  bit : ∀ f, KeptBit f → d.flag f = true → e.flag f = true
  clk : e.clk = d.clk
  sram : e.sram = d.sram
  jobs : e.jobs = d.jobs
  events : e.meas.events = d.meas.events
  chans : e.meas.chans = d.meas.chans

namespace PoolFrame

theorem refl (d : Dev) : PoolFrame d d := by constructor <;> intros <;> first | rfl | assumption

theorem trans {d e f : Dev} (h : PoolFrame d e) (h' : PoolFrame e f) : PoolFrame d f where
  word a ha hb := (h'.word a ha hb).trans (h.word a ha hb)
  bit g hg hd := h'.bit g hg (h.bit g hg hd)
  clk := h'.clk.trans h.clk
  sram := h'.sram.trans h.sram
  jobs := h'.jobs.trans h.jobs
  events := h'.events.trans h.events
  chans := h'.chans.trans h.chans

theorem setMeas (d : Dev) (m : Meas) (h : m.events = d.meas.events) (h' : m.chans = d.meas.chans) :
    PoolFrame d { d with meas := m } := by
  constructor
  · exact fun a _ _ => Dev.word_with_meas _ _ _
  · exact fun f _ hd => (Dev.flag_with_meas _ _ _).trans hd
  all_goals first | rfl | assumption

theorem setCell (d : Dev) (k : Nat) (f : Cell → Cell) : PoolFrame d (d.setCell k f) := setMeas d _ rfl rfl

theorem evt (d : Dev) {g : Fld} (hg : g.Bit) (ha : g.addr = rMEAS_STAT) : PoolFrame d (d.evt g) := by
  have hs := Still.evt (A := fun a => a = rMEAS_STAT) d g ha
  exact ⟨fun a h _ => hs.word a h, fun f hf hd => Dev.flag_evt_mono hf.1 hg hd, hs.clk, hs.sram, hs.jobs,
    congrArg Meas.events hs.meas, congrArg Meas.chans hs.meas⟩

theorem fireAs {src : Nat} (h : src < 64) (detail : Nat) (acc : Option Access) (inj sim : Bool) (d : Dev) :
    PoolFrame d (d.fireAs src detail acc inj sim) := by
  have hs := Still.fireAs src detail acc inj sim d
  refine ⟨fun a _ ha => hs.word a ha, fun f hf hd => ?_, hs.clk, hs.sram, hs.jobs, congrArg Meas.events hs.meas,
    congrArg Meas.chans hs.meas⟩
  have hm : rMEAS_STAT = 0x060004 := rfl
  obtain ⟨hb, ha⟩ := hf
  exact Dev.flag_fireAs_mono hb (not_fireReg (by omega) (by omega) (by omega) (by omega)) (by unfold rFLT_SEQNO; omega) h
    detail acc inj sim hd

theorem when {d : Dev} (b : Bool) {f : Dev → Dev} (h : PoolFrame d (f d)) : PoolFrame d (d.when b f) := by
  cases b
  · exact refl d
  · exact h

theorem foldl {α : Type} (l : List α) {f : Dev → α → Dev} (h : ∀ d a, PoolFrame d (f d a)) (d : Dev) :
    PoolFrame d (l.foldl f d) := by
  induction l generalizing d with
  | nil => exact refl d
  | cons a t ih => exact (h d a).trans (ih (f d a))

theorem forN (n : Nat) {f : Nat → Dev → Dev} (h : ∀ k d, PoolFrame d (f k d)) (d : Dev) : PoolFrame d (forN n f d) :=
  foldl _ (fun d k => h k d) d

theorem setFlt (d : Dev) (F : Flt) : PoolFrame d { d with flt := F } := by
  constructor
  · exact fun a _ _ => Dev.word_with_flt _ _ _
  · exact fun f _ hd => (Dev.flag_with_flt _ _ _).trans hd
  all_goals rfl

theorem raise {src : Nat} (h : src < 64) (inst detail : Nat) (d : Dev) : PoolFrame d (d.raise src inst detail) := by
  unfold Dev.raise
  split
  · exact refl d
  · exact (setFlt d _).trans (fireAs h ..)

theorem lower (src inst : Nat) (d : Dev) : PoolFrame d (d.lower src inst) := by
  have hs := Dev.lower_spec src inst d
  refine ⟨fun a _ _ => Dev.lower_word .., fun f _ hd => (Dev.lower_flag ..).trans hd, hs.2.2.1, ?_, ?_, ?_, ?_⟩ <;>
    (unfold Dev.lower Dev.when; dsimp only; split <;> try split) <;> rfl

theorem evtIf (d : Dev) (b : Bool) {g : Fld} (hg : g.Bit) (ha : g.addr = rMEAS_STAT) : PoolFrame d (d.evtIf b g) := by
  unfold Dev.evtIf
  split
  · exact evt d hg ha
  · exact refl d

theorem checkShort (d : Dev) : PoolFrame d d.checkShort := by
  unfold Dev.checkShort
  dsimp only
  split
  · split
    · exact refl d
    · exact (evt d ⟨rfl, by decide⟩ rfl).trans (raise (by decide) ..)
  · exact lower ..

theorem dropUses (k : Nat) (d : Dev) : PoolFrame d (d.dropUses k) := by
  have cal : PoolFrame d (match d.meas.calRun with
      | some r => if r.cell = k then { d with meas := { d.meas with calRun := none } } else d
      | none => d) := by
    split
    · split
      · exact setMeas d _ rfl rfl
      · exact refl d
    · exact refl d
  have handover : ∀ x : Dev, PoolFrame x (match x.meas.handover with
      | some h =>
        if h.old = k ∨ h.new = k then
          ({ x with meas := { x.meas with handover := none } } : Dev).setCell h.new fun c => { c with armed := none }
        else x
      | none => x) := fun x => by
    split
    · split
      · exact trans (setMeas x { x.meas with handover := none } rfl rfl) (setCell ..)
      · exact refl x
    · exact refl x
  exact cal.trans (handover _)

theorem relieve (p : Cell → Bool) (d : Dev) : PoolFrame d (d.relieve p) := setMeas d _ rfl rfl

theorem bindLoop (k ch half : Nat) (d : Dev) : PoolFrame d (d.bindLoop k ch half) := (setCell ..).trans (relieve ..)

theorem armCell (k ch : Nat) (d : Dev) : PoolFrame d (d.armCell k ch) := (setCell ..).trans (relieve ..)

theorem disarmIdle (d : Dev) : PoolFrame d d.disarmIdle := by
  unfold Dev.disarmIdle
  refine forN 48 (fun k d => ?_) d
  split
  · split
    · exact refl d
    · split
      · exact refl d
      · exact setCell ..
  · exact refl d

theorem serveLoops (d : Dev) : PoolFrame d d.serveLoops := by
  unfold Dev.serveLoops
  extract_lets want give
  have hg : ∀ b d ch, PoolFrame d (give b d ch) := fun b d ch => by
    unfold give
    extract_lets have_ need half
    split
    · exact refl d
    · split
      · exact bindLoop ..
      · split
        · split
          · split
            · exact refl d
            · exact (dropUses ..).trans (bindLoop ..)
          · exact refl d
        · exact refl d
  exact (foldl want (hg true) d).trans (foldl want (hg false) _)

theorem startPilot (k : Nat) (d : Dev) : PoolFrame d (d.startPilot k) := setCell ..

theorem handoverFor (k : Nat) (d : Dev) : PoolFrame d (d.handoverFor k) := by
  unfold Dev.handoverFor
  split
  · exact refl d
  · exact (setCell ..).trans (setMeas _ _ rfl rfl)

theorem judgeBlocked (k : Nat) (d : Dev) : PoolFrame d (d.judgeBlocked k) :=
  (evtIf d _ ⟨rfl, by decide⟩ rfl).trans (setCell ..)

theorem startHandover (d : Dev) : PoolFrame d d.startHandover := by
  unfold Dev.startHandover
  split
  · exact refl d
  · dsimp only
    split
    · exact judgeBlocked ..
    · exact (judgeBlocked ..).trans (handoverFor ..)

theorem pilotOn (k : Nat) (d : Dev) : PoolFrame d (d.pilotOn k) := by
  unfold Dev.pilotOn
  dsimp only
  split
  · exact refl d
  · split
    · split
      · exact refl d
      · split
        · exact (armCell ..).trans (startPilot ..)
        · exact refl d
    · exact when _ (startPilot ..)
    · exact refl d

theorem servePilots (d : Dev) : PoolFrame d d.servePilots := by
  unfold Dev.servePilots
  exact (forN 48 (fun k d => when _ (startPilot k d)) d).trans (forN 48 pilotOn _)

theorem startCal (k : Nat) (b : Bool) (d : Dev) : PoolFrame d (d.startCal k b) := by
  unfold Dev.startCal
  extract_lets x r m y
  have hx : PoolFrame d x := setCell ..
  have hy : PoolFrame x y := setMeas x _ rfl rfl
  exact (hx.trans hy).trans (when b (checkShort y))

theorem serveOverdue (d : Dev) : PoolFrame d d.serveOverdue := by
  unfold Dev.serveOverdue
  split
  · exact refl d
  · split
    · exact startCal ..
    · split
      · split
        · exact startCal ..
        · exact refl d
      · exact refl d

theorem armRound (d : Dev) : PoolFrame d d.armRound := by
  unfold Dev.armRound
  refine foldl _ (fun d i => ?_) d
  dsimp only
  split
  · split
    · exact (armCell ..).trans (setMeas _ _ rfl rfl)
    · exact refl d
  · exact refl d

theorem serveDue (d : Dev) : PoolFrame d d.serveDue := by
  unfold Dev.serveDue
  split
  · exact refl d
  · split
    · split
      · exact handoverFor ..
      · exact startCal ..
    · exact refl d

theorem poolAllocate (d : Dev) : PoolFrame d d.poolAllocate := by
  unfold Dev.poolAllocate
  split
  · exact refl d
  · have h := (((((disarmIdle d).trans (serveLoops _)).trans (startHandover _)).trans (servePilots _)).trans (serveOverdue _)).trans
      ((armRound _).trans (armRound _))
    have h' := h.trans (serveDue _)
    dsimp only
    split
    · exact h'.trans (setMeas _ _ rfl rfl)
    · exact h'

theorem poolNow (d : Dev) : PoolFrame d d.poolNow := (checkShort d).trans (poolAllocate _)

theorem quarantine (k code : Nat) (ecc : Bool) (d : Dev) : PoolFrame d (d.quarantine k code ecc) := by
  unfold Dev.quarantine
  split
  · exact ((dropUses k d).trans (setCell ..)).trans (poolNow _)
  · split
    · exact refl d
    · split
      · exact setCell ..
      · exact ((dropUses k d).trans (setCell ..)).trans (poolNow _)

end PoolFrame

end Sys2Proof.Machine
end

section
/-!
PROOF. The monitors of the time base, of bus accesses and of the device (01 R27, R30; 11 R281, R286, R292; 13 R344, R349, R390; O7 to
O9).
-/

namespace Sys2Proof.Machine

/-! ### Complement mismatches and clock monitors (O7) -/

/-- An update that leaves the live conditions. -/
structure LiveKept (d e : Dev) : Prop where
  live : e.flt.live = d.flt.live

namespace LiveKept

theorem refl (d : Dev) : LiveKept d d := ⟨rfl⟩

theorem trans {d e f : Dev} (h : LiveKept d e) (h' : LiveKept e f) : LiveKept d f := ⟨h'.live.trans h.live⟩

theorem wr (d : Dev) (f : Fld) (v : Nat) : LiveKept d (d.wr f v) := ⟨congrArg Flt.live (Dev.wr_flt d f v)⟩

theorem evt (d : Dev) (f : Fld) : LiveKept d (d.evt f) := ⟨congrArg Flt.live (Dev.evt_flt d f)⟩

theorem setPort (d : Dev) (k : Nat) (f : Port → Port) : LiveKept d (d.setPort k f) := ⟨rfl⟩

theorem portPend (k : Nat) (d : Dev) : LiveKept d (d.portPend k) := wr ..

theorem fire (src detail : Nat) (d : Dev) : LiveKept d (d.fire src detail) := ⟨(Still.fireAs ..).fltLive⟩

theorem when {d : Dev} (b : Bool) {f : Dev → Dev} (h : LiveKept d (f d)) : LiveKept d (d.when b f) := by
  cases b
  · exact refl d
  · exact h

/-- The fault of a steering port fires its own source alone, and no level condition changes. -/
theorem portFault (k cause : Nat) (d : Dev) : LiveKept d (d.portFault k cause) := by
  unfold Dev.portFault
  dsimp only
  split
  · refine trans ?_ (portPend k _)
    refine trans ?_ (fire 33 k _)
    refine trans ?_ (evt _ (STEER_EVT_FAULT k))
    refine trans ?_ (setPort _ k _)
    refine trans ?_ (when _ (wr ..))
    exact ((wr d (STEER_STAT_STATE k) 2).trans (wr _ (STEER_STAT_CAUSE k) cause)).trans (wr _ (STEER_STAT_PARKED k) _)
  · split
    · refine trans ?_ (portPend k _)
      refine trans ?_ (setPort _ k _)
      exact trans (setPort d k _) (wr _ (STEER_STAT_CAUSE k) cause)
    · exact setPort d k _
  · exact refl d

end LiveKept

/-- A value of the time base that disagrees with its complement raises DEVTIME_CPL; any other raises CPL_MISMATCH. -/
theorem Dev.cplMismatch_onset (site : CplSite) (src : Nat) (hsrc : src = if site = .coarse ∨ site = .devTime then 2 else 1) (d : Dev)
    (hl : (src, (cplSiteAt site).1) ∉ d.flt.live) :
    (d.cplMismatch site true).latched src = true ∧ (src, (cplSiteAt site).1) ∈ (d.cplMismatch site true).flt.live := by
  have base : ∀ inst detail, (2, inst) ∉ d.flt.live →
      ((d.abortTimeBase).raise 2 inst detail).latched 2 = true ∧ (2, inst) ∈ ((d.abortTimeBase).raise 2 inst detail).flt.live :=
    fun inst detail h => by
      obtain ⟨hlat, hlive, -⟩ := Dev.abortTimeBase_raise 2 inst detail d (by decide) h
      exact ⟨hlat, hlive⟩
  have other : ∀ (x : Dev) inst detail addr, x.flt.live = d.flt.live → (1, inst) ∉ d.flt.live →
      (x.raiseAt 1 inst detail addr).latched 1 = true ∧ (1, inst) ∈ (x.raiseAt 1 inst detail addr).flt.live :=
    fun x inst detail addr hx h => by
      obtain ⟨hf, hm⟩ := Dev.raiseAt_fired 1 inst detail addr x (by decide) (by rw [hx]; exact h)
      exact ⟨hf.latched, hm⟩
  have held : ∀ inst, (2, inst) ∉ d.flt.live → ¬ d.flt.live.contains (2, inst) = true := fun inst h => by simpa using h
  cases site
  case coarse =>
    simp only [true_or, if_true] at hsrc
    subst hsrc
    unfold Dev.cplMismatch
    dsimp only
    rw [if_neg (by decide), if_neg (held _ hl)]
    exact base _ _ hl
  case devTime =>
    simp only [or_true, if_true] at hsrc
    subst hsrc
    unfold Dev.cplMismatch
    dsimp only
    rw [if_neg (by decide), if_neg (held _ hl)]
    exact base _ _ hl
  case steerAcc k =>
    simp only [reduceCtorEq, or_self, if_false] at hsrc
    subst hsrc
    exact other _ _ _ _ (LiveKept.portFault k 5 d).live hl
  case steerWord k =>
    simp only [reduceCtorEq, or_self, if_false] at hsrc
    subst hsrc
    exact other _ _ _ _ (LiveKept.portFault k 5 d).live hl
  all_goals
    simp only [reduceCtorEq, or_self, if_false] at hsrc
    subst hsrc
    exact other d _ _ _ rfl hl

/-- The end of a mismatch ends its condition alone. -/
theorem Dev.cplMismatch_end (site : CplSite) (src : Nat) (hsrc : src = if site = .coarse ∨ site = .devTime then 2 else 1) (d : Dev) :
    d.cplMismatch site false = d.lower src (cplSiteAt site).1 := by
  cases site <;> simp only [true_or, or_true, if_true, reduceCtorEq, or_self, if_false] at hsrc <;> subst hsrc <;> rfl

/-- The end of a level condition fires nothing. -/
theorem Dev.lower_ends (src inst : Nat) (d : Dev) :
    (src, inst) ∉ (d.lower src inst).flt.live ∧ (d.lower src inst).rd FLT_SEQNO_COUNT = d.rd FLT_SEQNO_COUNT :=
  ⟨(Dev.lower_spec src inst d).1, Dev.lower_rd src inst d _⟩

theorem within_of_lt {k n : Nat} (h : k < n) (f : Dev → Dev) : within k n f = f := by
  unfold within
  simp only [if_pos h]

theorem Fired.advance {src : Nat} {d e : Dev} {dt : Nat} (h : Fired src (d.advance dt) e) : Fired src d e := h.of_rd rfl

/-- Settles O7: each monitor is one level condition. -/
theorem levelMonitorsOfTimeBase : Obligations.LevelMonitorsOfTimeBase := by
  intro s dt
  refine ⟨fun site src hsrc hl => ?_, fun site src hsrc => ?_, fun k hk hl => ?_, fun k hk => ?_⟩
  · exact Effects.of_run rfl (Dev.cplMismatch_onset site src hsrc (s.dev.advance dt) hl)
  · refine Effects.of_run rfl ?_
    rw [Dev.cplMismatch_end site src hsrc]
    exact Dev.lower_ends ..
  · refine Effects.of_run rfl ?_
    rw [within_of_lt hk]
    obtain ⟨hf, hm⟩ := Dev.raise_fired 4 k k (s.dev.advance dt) (by decide) hl
    exact ⟨hf.advance, hm⟩
  · refine Effects.of_run rfl ?_
    rw [within_of_lt hk]
    exact Dev.lower_ends 4 k (s.dev.advance dt)

/-! ### The capture of a firing (O8) -/

theorem Dev.fillCapture_sev (f : Firing) (repl multi : Bool) (d : Dev) :
    (d.fillCapture f repl multi).rd FLT_CAP_SRC_SEV = f.sev % 4 := by
  rw [Dev.fillCapture_rd f repl multi d (by decide) rfl]
  simp (disch := decide) only [FLT_CAP_SRC_SEV, Firing.capWord, bitsOf_setBits_above, bitsOf_setBits]
  rfl

theorem Dev.fillCapture_type (f : Firing) (repl multi : Bool) (d : Dev) :
    (d.fillCapture f repl multi).rd FLT_CAP_SRC_TYPE = (match f.acc with | some a => a.type | none => accInternal) % 8 := by
  rw [Dev.fillCapture_rd f repl multi d (by decide) rfl]
  simp (disch := decide) only [FLT_CAP_SRC_TYPE, Firing.capWord, bitsOf_setBits_above, bitsOf_setBits]
  rfl

theorem Dev.fillCapture_masterV (f : Firing) (repl multi : Bool) (d : Dev) :
    (d.fillCapture f repl multi).flag FLT_CAP_SRC_MASTER_V = (f.acc.bind fun a => a.master).isSome := by
  unfold Dev.flag
  rw [Dev.fillCapture_rd f repl multi d (by decide) rfl]
  simp (disch := decide) only [FLT_CAP_SRC_MASTER_V, Firing.capWord, bitsOf_setBits_above, bitsOf_setBits]
  cases (f.acc.bind fun a => a.master).isSome <;> rfl

theorem Dev.fillCapture_master (f : Firing) (repl multi : Bool) (d : Dev) :
    (d.fillCapture f repl multi).rd FLT_CAP_SRC_MASTER = (f.acc.bind fun a => a.master).getD 0 % 8 := by
  rw [Dev.fillCapture_rd f repl multi d (by decide) rfl]
  simp (disch := decide) only [FLT_CAP_SRC_MASTER, Firing.capWord, bitsOf_setBits_above, bitsOf_setBits]
  rfl

theorem Dev.fillCapture_addr (f : Firing) (repl multi : Bool) (d : Dev) :
    (d.fillCapture f repl multi).rd FLT_CAP_ADDR_ADDR = (match f.acc with | some a => a.addr | none => 0) % 2 ^ 24 := by
  unfold Dev.fillCapture
  simp only [Dev.rd_with_flt]
  iterate 6 refine (Dev.rd_wr_of_ne _ _ _ _ (by decide)).trans ?_
  exact Dev.rd_wr_self _ _ _ (by decide)

/-- What the capture shows of the firing that has filled it (11 R292). -/
structure Shows (d : Dev) (f : Firing) : Prop where
  valid : d.flag FLT_CAP_SRC_VALID = true
  src : d.rd FLT_CAP_SRC_SRC = f.src % 64
  sev : d.rd FLT_CAP_SRC_SEV = f.sev % 4
  type : d.rd FLT_CAP_SRC_TYPE = (match f.acc with | some a => a.type | none => accInternal) % 8
  masterV : d.flag FLT_CAP_SRC_MASTER_V = (f.acc.bind fun a => a.master).isSome
  master : d.rd FLT_CAP_SRC_MASTER = (f.acc.bind fun a => a.master).getD 0 % 8
  addr : d.rd FLT_CAP_ADDR_ADDR = (match f.acc with | some a => a.addr | none => 0) % 2 ^ 24
  detail : d.rd FLT_CAP_DETAIL_DETAIL = f.detail % 2 ^ 16

/-- A firing that finds the capture empty stands in it. -/
theorem Dev.fireAs_shows {d : Dev} (h : d.flag FLT_CAP_SRC_VALID = false) (src detail : Nat) (acc : Option Access)
    (inj sim : Bool) : Shows (d.fireAs src detail acc inj sim) (d.firing src detail acc inj) := by
  have hr := ackFld_addr src
  have hempty : ((d.evt (ackFld src)).bump FLT_SEQNO_COUNT).flag FLT_CAP_SRC_VALID = false := by
    rw [Dev.bump, Dev.flag_wr_of_ne _ _ _ _ (by decide),
      Dev.flag_evt_of_ne _ _ _ (by simp only [FLT_CAP_SRC_VALID, rFLT_CAP_SRC]; omega)]
    exact h
  rw [Dev.fireAs_eq]
  have ha := (Dev.afterCount_afterCapture (d.firing src detail acc inj) sim ((d.evt (ackFld src)).bump FLT_SEQNO_COUNT)).1
  rw [Dev.captureFiring_of_empty hempty] at ha
  have hsrc : ¬ AfterCapReg rFLT_CAP_SRC := by unfold AfterCapReg ReactReg; decide
  have haddr : ¬ AfterCapReg rFLT_CAP_ADDR := by unfold AfterCapReg ReactReg; decide
  have hdetail : ¬ AfterCapReg rFLT_CAP_DETAIL := by unfold AfterCapReg ReactReg; decide
  exact {
    valid := (ha.flag _ hsrc).trans (Dev.fillCapture_valid ..)
    src := (ha.rd _ hsrc).trans (Dev.fillCapture_src ..)
    sev := (ha.rd _ hsrc).trans (Dev.fillCapture_sev ..)
    type := (ha.rd _ hsrc).trans (Dev.fillCapture_type ..)
    masterV := (ha.flag _ hsrc).trans (Dev.fillCapture_masterV ..)
    master := (ha.rd _ hsrc).trans (Dev.fillCapture_master ..)
    addr := (ha.rd _ haddr).trans (Dev.fillCapture_addr ..)
    detail := (ha.rd _ hdetail).trans (Dev.fillCapture_detail ..) }

theorem Dev.sev_lt (d : Dev) (src : Nat) : d.sev src < 4 := by
  have h := d.rd_lt (sevFld src)
  have hw : (sevFld src).hi - (sevFld src).lo + 1 = 2 := by unfold sevFld; dsimp only; omega
  rw [hw] at h
  exact h

/-- A firing that arises from an access of a master shows it. -/
theorem Dev.fireAcc_shows {d : Dev} (h : d.flag FLT_CAP_SRC_VALID = false) {src detail addr m type : Nat} (hs : src < 64)
    (ha : addr < 2 ^ 24) (hm : m < 7) (ht : type < 6) (hd : detail < 2 ^ 16) :
    let e := d.fireAcc src detail addr (some m) type
    Fired src d e ∧ e.rd FLT_CAP_SRC_SRC = src ∧ e.rd FLT_CAP_SRC_SEV = d.sev src ∧ e.rd FLT_CAP_SRC_TYPE = type ∧
      e.flag FLT_CAP_SRC_MASTER_V = true ∧ e.rd FLT_CAP_SRC_MASTER = m ∧ e.rd FLT_CAP_ADDR_ADDR = addr ∧
      e.rd FLT_CAP_DETAIL_DETAIL = detail ∧ e.flag FLT_CAP_SRC_VALID = true := by
  have hf := Dev.fireAs_fired src detail (some { addr := addr, master := some m, type := type }) false false d hs
  have hc := Dev.fireAs_shows h src detail (some { addr := addr, master := some m, type := type }) false false
  exact ⟨hf, hc.src.trans (Nat.mod_eq_of_lt hs), hc.sev.trans (Nat.mod_eq_of_lt (d.sev_lt src)),
    hc.type.trans (Nat.mod_eq_of_lt (Nat.lt_trans ht (by decide))), hc.masterV,
    hc.master.trans (Nat.mod_eq_of_lt (Nat.lt_trans hm (by decide))),
    hc.addr.trans (Nat.mod_eq_of_lt ha), hc.detail.trans (Nat.mod_eq_of_lt hd), hc.valid⟩

/-- Settles O8: a firing that finds the capture empty fills it, whatever follows of the firing. -/
theorem firstFiringFillsCapture : Obligations.FirstFiringFillsCapture := by
  intro s dt addr m type code ha hm ht hc hempty
  refine ⟨Effects.of_run rfl ?_, Effects.of_run rfl ?_, Effects.of_run rfl ?_⟩
  · obtain ⟨hf, hc⟩ := Dev.fireAcc_shows (d := s.dev.advance dt) hempty (src := 14) (m := 2) (by decide) ha (by decide) ht hc
    exact ⟨hf.advance, hc⟩
  · obtain ⟨hf, hc⟩ := Dev.fireAcc_shows (d := s.dev.advance dt) hempty (src := 15) (detail := 0) (by decide) ha hm ht (by decide)
    exact ⟨hf.advance, hc⟩
  · have hf := Dev.fireAs_fired 57 addr none false false (s.dev.advance dt) (by decide)
    have hs := Dev.fireAs_shows (d := s.dev.advance dt) hempty 57 addr none false false
    exact ⟨hf.advance, hs.src, hs.sev.trans (Nat.mod_eq_of_lt (s.dev.sev_lt 57)), hs.type, hs.masterV, hs.addr, hs.detail, hs.valid⟩

end Sys2Proof.Machine
end

section
/-!
PROOF. The monitors of the supply, of the sensor, of the watchdog, of SRAM and of the fold path (01 R27; 11 R281, R286; 13 R344, R349,
R390; O9).
-/

namespace Sys2Proof.Machine

/-! ### Supply monitors (13 R344) -/

theorem railSource_of_mem {rail src inst : Nat}
    (h : (rail, src, inst) ∈ [(0, 8, 0), (1, 9, 0), (2, 10, 0), (3, 10, 1), (4, 10, 2), (5, 11, 0), (6, 12, 0)]) :
    railSource rail = (src, inst) ∧ rail ≤ 6 ∧ src < 64 := by
  have key : ∀ p ∈ [(0, 8, 0), (1, 9, 0), (2, 10, 0), (3, 10, 1), (4, 10, 2), (5, 11, 0), (6, 12, 0)],
      railSource p.1 = p.2 ∧ p.1 ≤ 6 ∧ p.2.1 < 64 := by decide
  exact key _ h

/-- The rails below their thresholds once a rail is noted as low or not. -/
def Dev.lowWith (d : Dev) (rail : Nat) (low : Bool) : List Nat :=
  let others := d.railLow.filter fun r => decide (r ≠ rail)
  if low then rail :: others else others

/-- The device that has noted a rail as low or not, before its source is judged. -/
def Dev.railNoted (rail : Nat) (low : Bool) (d : Dev) : Dev :=
  let x := ({ d with railLow := d.lowWith rail low } : Dev).wr ⟨rDEV_SUPPLY, rail, rail⟩ (b2n !low)
  if rail = 5 then x.wr NVM_STAT_VDD_NVM_OK (b2n !low) else if rail = 6 then x.wr NVM_STAT_VHOLD_OK (b2n !low) else x

theorem Dev.supply_eq {rail src inst : Nat} (h : rail ≤ 6) (hs : railSource rail = (src, inst)) (low : Bool) (d : Dev) :
    d.supply rail low = (d.railNoted rail low).level src inst inst low := by
  unfold Dev.supply
  rw [if_neg (by omega)]
  unfold Dev.railLevel
  rw [hs]
  rfl

/-- Noting a rail writes its bit of DEV_SUPPLY, and of registers besides NVM_STAT alone. -/
theorem Dev.railNoted_spec {rail : Nat} (h : rail ≤ 6) (low : Bool) (d : Dev) :
    (d.railNoted rail low).rd ⟨rDEV_SUPPLY, rail, rail⟩ = b2n !low ∧
      (d.railNoted rail low).rd FLT_SEQNO_COUNT = d.rd FLT_SEQNO_COUNT ∧ (d.railNoted rail low).flt = d.flt ∧
      (d.railNoted rail low).railLow = d.lowWith rail low := by
  unfold Dev.railNoted
  dsimp only
  generalize hx : ({ d with railLow := d.lowWith rail low } : Dev) = x
  have hok : Fld.ok ⟨rDEV_SUPPLY, rail, rail⟩ := ⟨Nat.le_refl _, by dsimp only; omega⟩
  have hself : (x.wr ⟨rDEV_SUPPLY, rail, rail⟩ (b2n !low)).rd ⟨rDEV_SUPPLY, rail, rail⟩ = b2n !low := by
    rw [Dev.rd_wr_self _ _ _ hok]
    cases low <;> simp [b2n]
  have hcount : (x.wr ⟨rDEV_SUPPLY, rail, rail⟩ (b2n !low)).rd FLT_SEQNO_COUNT = d.rd FLT_SEQNO_COUNT :=
    (Dev.rd_wr_of_ne x ⟨rDEV_SUPPLY, rail, rail⟩ FLT_SEQNO_COUNT _ (show rFLT_SEQNO ≠ rDEV_SUPPLY by decide)).trans
      (by rw [← hx]; exact Dev.rd_congr rfl _)
  have hflt : (x.wr ⟨rDEV_SUPPLY, rail, rail⟩ (b2n !low)).flt = d.flt := by rw [Dev.wr_flt, ← hx]
  have hlow : (x.wr ⟨rDEV_SUPPLY, rail, rail⟩ (b2n !low)).railLow = x.railLow := Dev.wr_railLow _ _ _
  generalize x.wr ⟨rDEV_SUPPLY, rail, rail⟩ (b2n !low) = y at hself hcount hflt hlow ⊢
  rw [← hx] at hlow
  have stat : ∀ (f : Fld) v, f.addr = rNVM_STAT → (y.wr f v).rd ⟨rDEV_SUPPLY, rail, rail⟩ = b2n !low ∧
      (y.wr f v).rd FLT_SEQNO_COUNT = d.rd FLT_SEQNO_COUNT ∧ (y.wr f v).flt = d.flt ∧ (y.wr f v).railLow = y.railLow :=
    fun f v hf => ⟨(Dev.rd_wr_of_ne y f ⟨rDEV_SUPPLY, rail, rail⟩ v (by rw [hf]; exact show rDEV_SUPPLY ≠ rNVM_STAT by decide)).trans hself,
      (Dev.rd_wr_of_ne y f FLT_SEQNO_COUNT v (by rw [hf]; decide)).trans hcount, (Dev.wr_flt y f v).trans hflt, Dev.wr_railLow y f v⟩
  split
  · obtain ⟨h1, h2, h3, h4⟩ := stat NVM_STAT_VDD_NVM_OK (b2n !low) rfl
    exact ⟨h1, h2, h3, h4.trans hlow⟩
  · split
    · obtain ⟨h1, h2, h3, h4⟩ := stat NVM_STAT_VHOLD_OK (b2n !low) rfl
      exact ⟨h1, h2, h3, h4.trans hlow⟩
    · exact ⟨hself, hcount, hflt, hlow⟩

/-- A rail falls below its threshold. -/
theorem Dev.supply_low {rail src inst : Nat} (h : rail ≤ 6) (hs : railSource rail = (src, inst)) (h64 : src < 64) (d : Dev)
    (hl : (src, inst) ∉ d.flt.live) :
    (d.supply rail true).rd ⟨rDEV_SUPPLY, rail, rail⟩ = 0 ∧ Fired src d (d.supply rail true) ∧
      (src, inst) ∈ (d.supply rail true).flt.live ∧ rail ∈ (d.supply rail true).railLow := by
  obtain ⟨hbit, hcount, hflt, hlow⟩ := d.railNoted_spec h true
  have hlv := Leveled.raise src inst inst (d.railNoted rail true)
  obtain ⟨hf, hm⟩ := Dev.raise_fired src inst inst (d.railNoted rail true) h64 (by rw [hflt]; exact hl)
  rw [Dev.supply_eq h hs]
  refine ⟨(hlv.rd _ (not_firingReg (Or.inl (show rDEV_SUPPLY < 0x010048 by decide)) (Or.inl (show rDEV_SUPPLY < 0x120 by decide))
    (show rDEV_SUPPLY ≠ 0x090004 by decide) (show rDEV_SUPPLY ≠ 0x050C00 by decide))).trans hbit, hf.of_rd hcount, hm, ?_⟩
  rw [show ((d.railNoted rail true).level src inst inst true).railLow = _ from hlv.railLow, hlow]
  simp [Dev.lowWith]

/-- A rail rises above its threshold again. -/
theorem Dev.supply_ok {rail src inst : Nat} (h : rail ≤ 6) (hs : railSource rail = (src, inst)) (d : Dev) :
    (d.supply rail false).rd ⟨rDEV_SUPPLY, rail, rail⟩ = 1 ∧ (src, inst) ∉ (d.supply rail false).flt.live ∧
      rail ∉ (d.supply rail false).railLow ∧ (d.supply rail false).rd FLT_SEQNO_COUNT = d.rd FLT_SEQNO_COUNT := by
  obtain ⟨hbit, hcount, -, hlow⟩ := d.railNoted_spec h false
  have hlv := Leveled.lower src inst (d.railNoted rail false)
  rw [Dev.supply_eq h hs]
  refine ⟨(Dev.lower_rd ..).trans hbit, (Dev.lower_spec ..).1, ?_, (Dev.lower_rd ..).trans hcount⟩
  rw [show ((d.railNoted rail false).level src inst inst false).railLow = _ from hlv.railLow, hlow]
  simp [Dev.lowWith]

/-! ### The sensor (13 R390) -/

theorem Dev.raise_latched_of_ne (d : Dev) {j k : Nat} (inst detail : Nat) (hj : j < 64) (hk : k < 64) (h : j ≠ k) :
    (d.raise j inst detail).latched k = d.latched k := by
  unfold Dev.raise
  split
  · rfl
  · rw [Dev.fire_latched_of_ne _ detail hj hk h]
    exact Dev.flag_with_flt _ _ _

/-- What a reading `t` makes of the live conditions, of the latched bits and of FLT_SEQNO; `d` is the device before it. -/
structure Read (hi t : Int) (d e : Dev) : Prop where
  crit : 2000 < t → (6, 0) ∈ e.flt.live ∧ ((6, 0) ∉ d.flt.live → e.latched 6 = true)
  critEnd : t ≤ 2000 → (6, 0) ∉ e.flt.live
  high : hi < t → (7, 0) ∈ e.flt.live ∧ ((7, 0) ∉ d.flt.live → e.latched 7 = true)
  highEnd : t ≤ hi - 32 → (7, 0) ∉ e.flt.live
  between : hi - 32 < t → t ≤ hi → ((7, 0) ∈ e.flt.live ↔ (7, 0) ∈ d.flt.live)
  counted : e.rd FLT_SEQNO_COUNT = (d.rd FLT_SEQNO_COUNT + (if 2000 < t ∧ (6, 0) ∉ d.flt.live then 1 else 0) +
    if hi < t ∧ (7, 0) ∉ d.flt.live then 1 else 0) % 2 ^ 32

/-- TEMP_CRIT alone: its condition, its latched bit and its firing. -/
theorem Dev.tempCrit_spec (t : Int) (d : Dev) :
    let x := d.level 6 0 (twos 16 (t / 16)) (decide (2000 < t))
    (2000 < t → (6, 0) ∈ x.flt.live ∧ ((6, 0) ∉ d.flt.live → x.latched 6 = true)) ∧ (t ≤ 2000 → (6, 0) ∉ x.flt.live) ∧
      ((7, 0) ∈ x.flt.live ↔ (7, 0) ∈ d.flt.live) ∧
      x.rd FLT_SEQNO_COUNT = (d.rd FLT_SEQNO_COUNT + if 2000 < t ∧ (6, 0) ∉ d.flt.live then 1 else 0) % 2 ^ 32 := by
  intro x
  by_cases h : 2000 < t
  · have hx : x = d.raise 6 0 (twos 16 (t / 16)) := by unfold x; rw [decide_eq_true h]; rfl
    rw [hx, Dev.raise_counts _ _ _ _ (by decide)]
    refine ⟨fun _ => ⟨(Dev.mem_live_raise ..).mpr (Or.inr rfl), fun hl => (Dev.raise_fired 6 0 _ d (by decide) hl).1.latched⟩,
      fun h' => absurd h (by omega), ?_, by simp [h]⟩
    rw [Dev.mem_live_raise]
    simp
  · have hx : x = d.lower 6 0 := by unfold x; rw [decide_eq_false h]; rfl
    rw [hx, Dev.lower_rd, if_neg (fun hc => h hc.1), Nat.add_zero, Nat.mod_eq_of_lt (show _ < 2 ^ 32 from d.rd_lt FLT_SEQNO_COUNT)]
    refine ⟨fun h' => absurd h' h, fun _ => (Dev.lower_spec ..).1, ?_, rfl⟩
    rw [Dev.mem_live_lower]
    simp

theorem Dev.tempLevels_read (t : Int) (d : Dev) : Read d.tempHi t d (d.tempLevels t) := by
  obtain ⟨hcrit, hend, hmem, hcount⟩ := d.tempCrit_spec t
  unfold Dev.tempLevels
  dsimp only at hcrit hend hmem hcount ⊢
  generalize d.level 6 0 (twos 16 (t / 16)) (decide (2000 < t)) = x at hcrit hend hmem hcount ⊢
  by_cases hh : d.tempHi < t
  · rw [if_pos hh]
    have hne : ∀ p : Nat × Nat, p ≠ (7, 0) → (p ∈ (x.raise 7 0 (twos 16 (t / 16))).flt.live ↔ p ∈ x.flt.live) := fun p hp => by
      rw [Dev.mem_live_raise]
      simp [hp]
    exact {
      crit := fun h => ⟨(hne _ (by decide)).mpr (hcrit h).1, fun hl => by
        rw [Dev.raise_latched_of_ne _ _ _ (by decide) (by decide) (by decide)]
        exact (hcrit h).2 hl⟩
      critEnd := fun h hc => hend h ((hne _ (by decide)).mp hc)
      high := fun _ => ⟨(Dev.mem_live_raise ..).mpr (Or.inr rfl),
        fun hl => (Dev.raise_fired 7 0 _ x (by decide) fun hc => hl (hmem.mp hc)).1.latched⟩
      highEnd := fun h => absurd hh (by omega)
      between := fun _ h => absurd hh (by omega)
      counted := by
        rw [Dev.raise_counts _ _ _ _ (by decide), hcount]
        simp only [hmem, hh, true_and]
        omega }
  · rw [if_neg hh]
    by_cases hl : t ≤ d.tempHi - 32
    · rw [if_pos hl]
      have hne : ∀ p : Nat × Nat, p ≠ (7, 0) → (p ∈ (x.lower 7 0).flt.live ↔ p ∈ x.flt.live) := fun p hp => by
        rw [Dev.mem_live_lower]
        simp [hp]
      exact {
        crit := fun h => ⟨(hne _ (by decide)).mpr (hcrit h).1, fun hn => (Dev.lower_flag ..).trans ((hcrit h).2 hn)⟩
        critEnd := fun h hc => hend h ((hne _ (by decide)).mp hc)
        high := fun h => absurd h hh
        highEnd := fun _ => (Dev.lower_spec ..).1
        between := fun h => absurd hl (by omega)
        counted := by
          rw [Dev.lower_rd, hcount]
          simp [hh] }
    · rw [if_neg hl]
      exact {
        crit := hcrit
        critEnd := hend
        high := fun h => absurd h hh
        highEnd := fun h => absurd h hl
        between := fun _ _ => hmem
        counted := by
          rw [hcount]
          simp [hh] }

/-- A reading after the first (13 R390). -/
theorem Dev.tempReading_spec {d : Dev} (hv : d.flag DEV_TEMP_VALID = true) {t : Int} (h1 : -32768 ≤ t) (h2 : t < 32768) :
    (d.tempReading t).rdS DEV_TEMP_TEMP = t ∧ (d.tempReading t).flag DEV_TEMP_VALID = true ∧
      Read (16 * (d.rdIn FLT_TEMP_TEMP_HI 60 120 : Nat)) t d (d.tempReading t) := by
  have he : d.tempReading t = d.takeTemp t := if_pos hv
  obtain ⟨hlive, hflt, -, -⟩ := d.takeTemp_parts t
  obtain ⟨hw, hsf, -⟩ := d.tempStored_parts t
  obtain ⟨htemp, hvalid⟩ := d.takeTemp_stored h1 h2
  have hseq : (d.tempStored t).rd FLT_SEQNO_COUNT = d.rd FLT_SEQNO_COUNT := by
    unfold Dev.rd
    rw [hw _ (by decide)]
  have hhi : (d.tempStored t).tempHi = 16 * (d.rdIn FLT_TEMP_TEMP_HI 60 120 : Nat) := by
    have : (d.tempStored t).rd FLT_TEMP_TEMP_HI = d.rd FLT_TEMP_TEMP_HI := by
      unfold Dev.rd
      rw [hw _ (by decide)]
    unfold Dev.tempHi Dev.rdIn
    rw [this]
  have hr := (d.tempStored t).tempLevels_read t
  rw [hhi] at hr
  rw [he]
  have hrd : ∀ f, (d.takeTemp t).rd f = ((d.tempStored t).tempLevels t).rd f := fun f => Dev.rd_congr hlive f
  have hlat : ∀ k, (d.takeTemp t).latched k = ((d.tempStored t).tempLevels t).latched k := fun k => Dev.flag_congr hlive _
  obtain ⟨hcrit, hcritEnd, hhigh, hhighEnd, hbetween, hcounted⟩ := hr
  rw [hsf] at hcrit hhigh hbetween hcounted
  rw [hseq] at hcounted
  refine ⟨htemp, hvalid, ?_⟩
  constructor
  · rw [hflt, hlat]; exact hcrit
  · rw [hflt]; exact hcritEnd
  · rw [hflt, hlat]; exact hhigh
  · rw [hflt]; exact hhighEnd
  · rw [hflt]; exact hbetween
  · rw [hrd]; exact hcounted

/-! ### Double-bit errors and corrections of SRAM (01 R27) -/

theorem Dev.sramEcc_record {d : Dev} {a m type r : Nat} (h1 : 0x100000 ≤ a) (h2 : a < 0x140000)
    (ht : type = accRead ∨ type = accLink) (hr : d.ringAt a = some r) :
    d.sramEcc a m type true = (d.evt (TQ_STAT_REC_ECC r)).fireAcc 22 r a (some m) type := by
  unfold Dev.sramEcc
  rw [if_neg (by omega), if_neg (by decide), if_pos ⟨h2, ht⟩, hr]

theorem Dev.sramEcc_word {d : Dev} {a m type : Nat} (h1 : 0x100000 ≤ a) (h2 : a < 0x180000)
    (hn : 0x140000 ≤ a ∨ (type ≠ accRead ∧ type ≠ accLink) ∨ d.ringAt a = none) :
    d.sramEcc a m type true =
      match tableCell a with
      | some k =>
        if type = accWrite then d.fireAcc 3 (sramRegion a) a (some m) type
        else ((d.fireAcc 3 (sramRegion a) a (some m) type).evt MEAS_STAT_TABLE_ECC).quarantine k 5 true
      | none => d.fireAcc 3 (sramRegion a) a (some m) type := by
  have hrec : (if a < 0x140000 ∧ (type = accRead ∨ type = accLink) then d.ringAt a else none) = none := by
    split
    · next h =>
      obtain ⟨ha, ht⟩ := h
      rcases hn with h | ⟨h, h'⟩ | h
      · omega
      · exact absurd ht (by simp [h, h'])
      · exact h
    · rfl
  unfold Dev.sramEcc
  rw [if_neg (by omega), if_neg (by decide), hrec] <;> rfl

/-- A double-bit error outside the records fires SRAM_ECC, alone but where the active table of a cell is read. -/
theorem Dev.sramEcc_fired {d : Dev} {a m type : Nat} (h1 : 0x100000 ≤ a) (h2 : a < 0x180000)
    (hn : 0x140000 ≤ a ∨ (type ≠ accRead ∧ type ≠ accLink) ∨ d.ringAt a = none) (ht : tableCell a = none ∨ type = accWrite) :
    Fired 3 d (d.sramEcc a m type true) := by
  rw [Dev.sramEcc_word h1 h2 hn]
  have hf : Fired 3 d (d.fireAcc 3 (sramRegion a) a (some m) type) := Dev.fireAs_fired 3 _ _ false false d (by decide)
  split
  · next k hk =>
    rw [if_pos (ht.resolve_left (by simp [hk]))]
    exact hf
  · exact hf

/-- A read of a cell's active table that meets one also sets TABLE_ECC, whatever the pool does with the cell. -/
theorem Dev.sramEcc_table {d : Dev} {a m type : Nat} (h1 : 0x100000 ≤ a) (h2 : a < 0x180000)
    (hn : 0x140000 ≤ a ∨ (type ≠ accRead ∧ type ≠ accLink) ∨ d.ringAt a = none) (hk : tableCell a ≠ none) (ht : type ≠ accWrite) :
    (d.sramEcc a m type true).latched 3 = true ∧ (d.sramEcc a m type true).flag MEAS_STAT_TABLE_ECC = true := by
  obtain ⟨k, hk⟩ := Option.ne_none_iff_exists'.mp hk
  rw [Dev.sramEcc_word h1 h2 hn, hk]
  dsimp only
  rw [if_neg ht]
  generalize hx : d.fireAcc 3 (sramRegion a) a (some m) type = x
  have hlat : x.latched 3 = true := by
    rw [← hx]
    exact (Dev.fireAs_fired 3 _ _ false false d (by decide)).latched
  have hbit : Fld.Bit MEAS_STAT_TABLE_ECC := ⟨rfl, by decide⟩
  have hp := PoolFrame.quarantine k 5 true (x.evt MEAS_STAT_TABLE_ECC)
  exact ⟨hp.bit _ (KeptBit.ack (by decide)) ((PoolFrame.evt x hbit rfl).bit _ (KeptBit.ack (by decide)) hlat),
    hp.bit _ ⟨hbit, Or.inl rfl⟩ (Dev.flag_evt_self x _ rfl (by decide))⟩

/-- A double-bit error in a record fires RING_ECC with REC_ECC of its ring. -/
theorem Dev.sramEcc_ring {d : Dev} {a m type r : Nat} (h1 : 0x100000 ≤ a) (h2 : a < 0x140000)
    (ht : type = accRead ∨ type = accLink) (hr : d.ringAt a = some r) :
    Fired 22 d (d.sramEcc a m type true) ∧ (d.sramEcc a m type true).flag (TQ_STAT_REC_ECC r) = true := by
  rw [Dev.sramEcc_record h1 h2 ht hr]
  have hlow : (TQ_STAT_REC_ECC r).lo < 24 := show 5 < 24 by decide
  have hbit : Fld.Bit (TQ_STAT_REC_ECC r) := ⟨rfl, hlow⟩
  have haddr : (TQ_STAT_REC_ECC r).addr = 0x070010 + 0x40 * r := rfl
  have hf : Fired 22 (d.evt (TQ_STAT_REC_ECC r)) ((d.evt (TQ_STAT_REC_ECC r)).fireAcc 22 r a (some m) type) :=
    Dev.fireAs_fired 22 _ _ false false _ (by decide)
  refine ⟨hf.of_rd (Dev.rd_evt_of_ne _ _ _ ?_), ?_⟩
  · rw [haddr, show FLT_SEQNO_COUNT.addr = 0x010080 from rfl]
    omega
  · refine Dev.flag_fireAs_mono hbit (not_fireReg ?_ ?_ ?_ ?_) ?_ (by decide) _ _ _ _ (Dev.flag_evt_self d _ rfl hlow)
    all_goals rw [haddr]
    all_goals try rw [show rFLT_SEQNO = 0x010080 from rfl]
    all_goals omega

/-- A correction counts within its second; the 17th fires SRAM_SEC_RATE. -/
theorem Dev.sramEcc_corrected {d : Dev} {a m type : Nat} (h1 : 0x100000 ≤ a) (h2 : a < 0x180000) :
    let n := if d.meas.secFrom = d.clk.tclk / 1600000000 then d.meas.secCount + 1 else 1
    (d.sramEcc a m type false).meas.secCount = n ∧
      (n ≠ 17 → (d.sramEcc a m type false).rd FLT_SEQNO_COUNT = d.rd FLT_SEQNO_COUNT) ∧
      (n = 17 → Fired 58 d (d.sramEcc a m type false)) := by
  intro n
  generalize hx : ({ d with meas := { d.meas with secFrom := d.clk.tclk / 1600000000, secCount := n } } : Dev) = x
  have he : d.sramEcc a m type false = x.when (decide (n = 17)) (Dev.fire 58 (sramRegion a)) := by
    unfold Dev.sramEcc
    rw [if_neg (by omega), if_pos (by decide), ← hx]
    rfl
  have hseq : x.rd FLT_SEQNO_COUNT = d.rd FLT_SEQNO_COUNT := by rw [← hx]; exact Dev.rd_with_meas ..
  have hcnt : x.meas.secCount = n := by rw [← hx]
  rw [he]
  by_cases h : n = 17
  · rw [decide_eq_true h, Dev.when_true]
    refine ⟨?_, fun hn => absurd h hn, fun _ => (Dev.fireAs_fired 58 _ none false false x (by decide)).of_rd hseq⟩
    rw [show (Dev.fire 58 (sramRegion a) x).meas = x.meas from (Still.fireAs ..).meas]
    exact hcnt
  · rw [decide_eq_false h]
    exact ⟨hcnt, fun _ => hseq, fun h' => absurd h' h⟩

/-! ### The fold path (11 R286) -/

theorem Dev.rd_evtIf_of_ne (d : Dev) (b : Bool) (f g : Fld) (h : g.addr ≠ f.addr) : (d.evtIf b f).rd g = d.rd g := by
  unfold Dev.evtIf
  split
  · exact Dev.rd_evt_of_ne d f g h
  · rfl

/-- The registers of an output that a fold of its path writes. -/
def OutReg (n a : Nat) : Prop := a = rOUT_STAT n ∨ a = rOUT_EVT n

theorem not_outReg {n a : Nat} (h : a < 0x050000) : ¬ OutReg n a := by
  unfold OutReg rOUT_STAT rOUT_EVT
  omega

/-- What a fold of an output's path leaves of the device besides the output: registers, levels, and the call for a fold. -/
theorem Dev.outFoldPath_spec (n : Nat) (d : Dev) :
    (∀ a, ¬ OutReg n a → (d.outFoldPath n).word a = d.word a) ∧
      (d.outFoldPath n).rd (OUT_STAT_STATE n) = (if d.rd (OUT_STAT_STATE n) = 0 then 0 else 3) ∧
      (d.outFoldPath n).flt.foldPend = d.flt.foldPend ∧ (n < d.outs.length → ((d.outFoldPath n).out n).cut = true) := by
  unfold Dev.outFoldPath
  dsimp only
  generalize hx : d.setOut n (fun o => { o with cut := true }) = x
  have hxr : ∀ f, x.rd f = d.rd f := fun f => by rw [← hx]; exact Dev.rd_congr rfl f
  have hxw : ∀ a, x.word a = d.word a := fun a => by rw [← hx]; exact Dev.word_congr rfl a
  have hxf : x.flt = d.flt := by rw [← hx]; rfl
  have hxo : n < d.outs.length → (x.out n).cut = true ∧ n < x.outs.length := fun h => by
    rw [← hx]
    unfold Dev.setOut Dev.out updAt
    simp [h]
  by_cases h0 : d.rd (OUT_STAT_STATE n) = 0
  · rw [if_pos h0, if_pos h0]
    exact ⟨fun a _ => hxw a, (hxr _).trans h0, by rw [hxf], fun h => (hxo h).1⟩
  · rw [if_neg h0, if_neg h0]
    generalize hy : ((x.wr (OUT_STAT_STATE n) 3).wr (OUT_STAT_FOLDED n) 1).evtIf (decide (d.rd (OUT_STAT_STATE n) ≠ 3)) (OUT_EVT_STOPPED n) = y
    have hok : (OUT_STAT_STATE n).ok := ⟨show 29 ≤ 31 by decide, show 31 < 32 by decide⟩
    have hys : y.rd (OUT_STAT_STATE n) = 3 := by
      rw [← hy, Dev.rd_evtIf_of_ne _ _ _ _ (by unfold OUT_STAT_STATE OUT_EVT_STOPPED rOUT_STAT rOUT_EVT; dsimp only; omega),
        Dev.rd_wr_of_disjoint _ _ _ _ hok (Nat.le_refl _) (Or.inl (show 27 < 29 by decide)), Dev.rd_wr_self _ _ _ hok]
      rfl
    have hyw : ∀ a, ¬ OutReg n a → y.word a = d.word a := fun a ha => by
      have hs : a ≠ rOUT_STAT n := fun e => ha (Or.inl e)
      have hv : ∀ z : Dev, (z.evtIf (decide (d.rd (OUT_STAT_STATE n) ≠ 3)) (OUT_EVT_STOPPED n)).word a = z.word a := fun z => by
        unfold Dev.evtIf
        split
        · exact (Still.evt (A := fun b => b = rOUT_EVT n) z (OUT_EVT_STOPPED n) rfl).word a fun e => ha (Or.inr e)
        · rfl
      rw [← hy, hv]
      exact ((Dev.word_setWord_of_ne _ (rOUT_STAT n) a _ hs).trans (Dev.word_setWord_of_ne _ (rOUT_STAT n) a _ hs)).trans (hxw a)
    have hyf : y.flt = d.flt := by
      rw [← hy]
      unfold Dev.evtIf
      split
      · rw [Dev.evt_flt, Dev.wr_flt, Dev.wr_flt, hxf]
      · rw [Dev.wr_flt, Dev.wr_flt, hxf]
    have hyo : y.outs = x.outs := by
      rw [← hy]
      unfold Dev.evtIf
      split
      · rw [Dev.evt_outs, Dev.wr_outs, Dev.wr_outs]
      · rw [Dev.wr_outs, Dev.wr_outs]
    generalize hz : y.setOut n (fun o => { o with starting := false }) = z
    have hl := Leveled.lower 59 n z
    have hzl : z.live = y.live := by rw [← hz]; rfl
    refine ⟨fun a ha => ?_, ?_, ?_, fun h => ?_⟩
    · rw [Dev.lower_word, Dev.word_congr hzl, hyw a ha]
    · rw [Dev.lower_rd, Dev.rd_congr hzl, hys]
    · rw [(Dev.lower_spec 59 n z).2.2.2.1, ← hz]
      exact congrArg Flt.foldPend hyf
    · obtain ⟨hc, hlen⟩ := hxo h
      unfold Dev.out at hc ⊢
      rw [hl.outs, ← hz]
      unfold Dev.setOut updAt
      rw [← hyo] at hlen hc
      simp only [List.getD_eq_getElem?_getD, List.getElem?_modify_eq, List.getElem?_eq_getElem hlen, Option.getD_some] at hc ⊢
      exact hc

/-- A driver fails the check of its fold control line (11 R286). -/
theorem Dev.foldPath_onset {d : Dev} {n : Nat} (hl : (5, n) ∉ d.flt.live) :
    (d.foldPath n true).latched 5 = true ∧
      (d.foldPath n true).rd (OUT_STAT_STATE n) = (if d.rd (OUT_STAT_STATE n) = 0 then 0 else 3) ∧
      (n < d.outs.length → (d.foldPath n true).outDrive n = (.highZ, .highZ)) ∧
      (d.reactive = true → (d.foldPath n true).flt.foldPend = true) := by
  have he : d.foldPath n true = (d.raise 5 n n).outFoldPath n := rfl
  have hlv := Leveled.raise 5 n n d
  obtain ⟨hf, -⟩ := Dev.raise_fired 5 n n d (by decide) hl
  have hpend : d.reactive = true → (d.raise 5 n n).flt.foldPend = true := fun hr => by
    unfold Dev.raise
    rw [if_neg (by simpa using hl)]
    dsimp only
    generalize hx : ({ d with flt := { d.flt with live := d.flt.live ++ [(5, n)] } } : Dev) = x
    exact Dev.fire_forced (by rw [← hx]; exact hr) rfl n
  obtain ⟨hw, hst, hp, hcut⟩ := (d.raise 5 n n).outFoldPath_spec n
  rw [he]
  refine ⟨?_, ?_, fun h => ?_, fun hr => hp.trans (hpend hr)⟩
  · have ha := ackFld_addr 5
    unfold Dev.latched Dev.flag Dev.rd
    rw [hw _ (not_outReg (by omega))]
    exact hf.latched
  · rw [hst, hlv.rd _ (not_firingReg ?_ ?_ ?_ ?_)] <;> rw [show (OUT_STAT_STATE n).addr = 0x050018 + 0x80 * n from rfl] <;> omega
  · unfold Dev.outDrive
    rw [if_pos (Or.inr (Or.inl (hcut (by rw [hlv.outs]; exact h))))]

/-- The check of a fold control line passes again. -/
theorem Dev.foldPath_end (n : Nat) (d : Dev) :
    (5, n) ∉ (d.foldPath n false).flt.live ∧ (n < d.outs.length → ((d.foldPath n false).out n).cut = false) ∧
      (d.foldPath n false).rd FLT_SEQNO_COUNT = d.rd FLT_SEQNO_COUNT := by
  have he : d.foldPath n false = (d.lower 5 n).setOut n fun o => { o with cut := false } := rfl
  have hlv := Leveled.lower 5 n d
  rw [he]
  refine ⟨(Dev.lower_spec 5 n d).1, fun h => ?_, (Dev.rd_congr rfl _).trans (Dev.lower_rd 5 n d _)⟩
  rw [← hlv.outs] at h
  unfold Dev.setOut Dev.out updAt
  simp [h]

/-! ### All of them (O9) -/

/-- Settles O9: each monitor writes its own registers and judges one level or fires one source. -/
theorem monitorsFireTheirSources : Obligations.MonitorsFireTheirSources := by
  intro s dt
  refine ⟨fun rail src inst h => ?_, fun temp hi h1 h2 hv hhi => ?_, fun temp hv => ?_, fun ha => ?_, fun a m h1 h2 => ?_,
    fun a m type h1 h2 hn => ⟨fun ht => ?_, fun hk ht => ?_⟩, fun a m type r h1 h2 ht hr => ?_,
    fun a m type h1 h2 hs => ⟨fun hc => ?_, fun hc => ?_⟩, fun a m type h1 h2 hs => ?_, fun n hn hl => ?_, fun n hn => ?_⟩
  · obtain ⟨hs, h6, h64⟩ := railSource_of_mem h
    refine ⟨fun hl => Effects.of_run rfl ?_, Effects.of_run rfl ?_⟩
    · obtain ⟨hb, hf, hm⟩ := Dev.supply_low h6 hs h64 (s.dev.advance dt) hl
      exact ⟨hb, hf.advance, hm⟩
    · exact Dev.supply_ok h6 hs (s.dev.advance dt)
  · subst hhi
    refine Effects.of_run rfl ?_
    obtain ⟨htemp, hvalid, hr⟩ := Dev.tempReading_spec (d := s.dev.advance dt) hv h1 h2
    exact ⟨htemp, hvalid, hr.crit, hr.critEnd, hr.high, hr.highEnd, hr.between, hr.counted⟩
  · exact Effects.of_run rfl (if_neg (by simp [hv]))
  · refine Effects.of_run rfl ?_
    have hw : (s.dev.advance dt).watchdogExpiry =
        ({ s.dev.advance dt with boot := { (s.dev.advance dt).boot with wdog := true } } : Dev).fire 13 0 := by
      unfold Dev.watchdogExpiry
      rw [if_neg]
      intro hm
      unfold Dev.applied Dev.measuring at ha
      rcases hm with hm | hm <;> rw [show s.dev.mode = _ from hm] at ha <;> exact absurd ha (by decide)
    rw [hw]
    generalize hx : ({ s.dev.advance dt with boot := { (s.dev.advance dt).boot with wdog := true } } : Dev) = x
    refine ⟨(Dev.fireAs_fired 13 0 none false false x (by decide)).of_rd (by rw [← hx]; exact Dev.rd_congr rfl _), ?_⟩
    rw [show (x.fire 13 0).boot = x.boot from (Still.fireAs ..).boot, ← hx]
  · exact Effects.of_run rfl
      (Dev.sramEcc_fired (d := s.dev.advance dt) (by omega) h2 (Or.inl h1) (Or.inr rfl)).advance
  · exact Effects.of_run rfl (Dev.sramEcc_fired (d := s.dev.advance dt) h1 h2 hn ht).advance
  · exact Effects.of_run rfl (Dev.sramEcc_table (d := s.dev.advance dt) h1 h2 hn hk ht)
  · obtain ⟨hf, hb⟩ := Dev.sramEcc_ring (d := s.dev.advance dt) (m := m) h1 h2 ht hr
    exact Effects.of_run rfl ⟨hf.advance, hb⟩
  · obtain ⟨hn, hq, -⟩ := Dev.sramEcc_corrected (d := s.dev.advance dt) (m := m) (type := type) h1 h2
    have hs' : (s.dev.advance dt).meas.secFrom = (s.dev.advance dt).clk.tclk / 1600000000 := hs
    have hc' : (s.dev.advance dt).meas.secCount ≠ 16 := hc
    rw [if_pos hs'] at hn hq
    exact Effects.of_run rfl ⟨hn, hq (by omega)⟩
  · obtain ⟨hn, -, hf⟩ := Dev.sramEcc_corrected (d := s.dev.advance dt) (m := m) (type := type) h1 h2
    have hs' : (s.dev.advance dt).meas.secFrom = (s.dev.advance dt).clk.tclk / 1600000000 := hs
    rw [if_pos hs'] at hn hf
    exact Effects.of_run rfl ⟨hn.trans (congrArg (· + 1) hc), (hf (congrArg (· + 1) hc)).advance⟩
  · obtain ⟨hn, hq, -⟩ := Dev.sramEcc_corrected (d := s.dev.advance dt) (m := m) (type := type) h1 h2
    have hs' : ¬ (s.dev.advance dt).meas.secFrom = (s.dev.advance dt).clk.tclk / 1600000000 := hs
    rw [if_neg hs'] at hn hq
    exact Effects.of_run rfl ⟨hn, hq (by decide)⟩
  · refine Effects.of_run rfl ?_
    rw [within_of_lt hn]
    exact Dev.foldPath_onset (d := s.dev.advance dt) hl
  · refine Effects.of_run rfl ?_
    rw [within_of_lt hn]
    exact Dev.foldPath_end n (s.dev.advance dt)

end Sys2Proof.Machine
end

section
/-!
PROOF. A FOLD that an edge calls for (11 R284, R286, R289; 13 R353; 06 R178, R181; O10).
-/

namespace Sys2Proof.Machine

/-! ### Outputs that stop (06 R178, R180) -/

/-- The registers that an output's entry into STOPPING writes. -/
def OutStatReg (a : Nat) : Prop := ∃ n, a = rOUT_STAT n

/-- Of the registers, an output that stops writes its status alone; it is then in RUN no longer, and no output enters RUN. -/
theorem Dev.outStop_spec (n : Nat) (b : Bool) (d : Dev) :
    (∀ a, a ≠ rOUT_STAT n → (d.outStop n b).word a = d.word a) ∧ (d.outStop n b).rd (OUT_STAT_STATE n) ≠ 1 := by
  have hok : (OUT_STAT_STATE n).ok := ⟨show 29 ≤ 31 by decide, show 31 < 32 by decide⟩
  have folded : ∀ x : Dev, (x.wr (OUT_STAT_FOLDED n) 1).rd (OUT_STAT_STATE n) = x.rd (OUT_STAT_STATE n) := fun x =>
    Dev.rd_wr_of_disjoint x _ _ _ hok (Nat.le_refl _) (Or.inl (show 27 < 29 by decide))
  have other : ∀ (x : Dev) (f : Fld) v a, f.addr = rOUT_STAT n → a ≠ rOUT_STAT n → (x.wr f v).word a = x.word a :=
    fun x f v a hf ha => Dev.word_setWord_of_ne _ _ _ _ (by rw [hf]; exact ha)
  unfold Dev.outStop
  split
  · dsimp only
    generalize hx : (d.wr (OUT_STAT_STATE n) 2).when b (fun d => d.wr (OUT_STAT_FOLDED n) 1) = x
    have hxw : ∀ a, a ≠ rOUT_STAT n → x.word a = d.word a := fun a ha => by
      rw [← hx]
      unfold Dev.when
      split
      · exact (other _ _ _ _ rfl ha).trans (other _ _ _ _ rfl ha)
      · exact other _ _ _ _ rfl ha
    have hxs : x.rd (OUT_STAT_STATE n) = 2 := by
      have h2 : (d.wr (OUT_STAT_STATE n) 2).rd (OUT_STAT_STATE n) = 2 := Dev.rd_wr_self _ _ _ hok
      rw [← hx]
      unfold Dev.when
      split
      · exact (folded _).trans h2
      · exact h2
    refine ⟨fun a ha => (Dev.lower_word ..).trans ((Dev.word_congr rfl a).trans (hxw a ha)), ?_⟩
    rw [Dev.lower_rd, Dev.rd_setOut, hxs]
    decide
  · split
    · next h1 h2 =>
      refine ⟨fun a ha => other _ _ _ _ rfl ha, ?_⟩
      rw [folded]
      exact h1
    · next h1 _ => exact ⟨fun _ _ => rfl, h1⟩

/-- A fold stops every output in RUN. -/
theorem Dev.outsFold_spec (d : Dev) :
    (∀ a, (∀ n < 24, a ≠ rOUT_STAT n) → d.outsFold.word a = d.word a) ∧ ∀ n < 24, d.outsFold.rd (OUT_STAT_STATE n) ≠ 1 := by
  have key : ∀ m, m ≤ 24 → (∀ a, (∀ n < m, a ≠ rOUT_STAT n) → (forN m (fun n d => d.outStop n true) d).word a = d.word a) ∧
      ∀ n < m, (forN m (fun n d => d.outStop n true) d).rd (OUT_STAT_STATE n) ≠ 1 := by
    intro m hm
    induction m with
    | zero => exact ⟨fun _ _ => rfl, fun n hn => absurd hn (Nat.not_lt_zero n)⟩
    | succ m ih =>
      obtain ⟨hw, hs⟩ := ih (by omega)
      rw [forN_succ]
      obtain ⟨hw', hs'⟩ := (forN m (fun n d => d.outStop n true) d).outStop_spec m true
      refine ⟨fun a ha => (hw' a (ha m (by omega))).trans (hw a fun n hn => ha n (by omega)), fun n hn => ?_⟩
      by_cases h : n = m
      · rw [h]
        exact hs'
      · have hne : rOUT_STAT n ≠ rOUT_STAT m := by unfold rOUT_STAT; omega
        have := hs n (by omega)
        rw [Dev.rd, hw' (OUT_STAT_STATE n).addr hne]
        exact this
  exact key 24 (Nat.le_refl _)

/-! ### The fold itself (11 R284, R289) -/

theorem Apart.portsFold (d : Dev) : Apart PadSide d d.portsFold := by
  unfold Dev.portsFold
  refine (Apart.refl PadSide d).forN 8 _ fun k hk d => ?_
  split
  · exact (Apart.refl PadSide d).portFault hk 1
  · exact Apart.refl PadSide d

theorem Dev.setUnder_of_ne {d : Dev} (h : d.mode ≠ .reset) (m : Mode) : d.setUnder m = d.changeMode m := by
  unfold Dev.setUnder
  split
  · next hm => exact absurd hm h
  · rfl

theorem Dev.underMode_of_ne {d : Dev} (h : d.mode ≠ .reset) : d.underMode = d.mode := by
  unfold Dev.underMode
  split
  · next hm => exact absurd hm h
  · rfl

/-- The part of a fold that is the collector's own: FLT_FOLDS, FOLD_REQ and the mode. -/
def Dev.foldNoted (d : Dev) : Dev := ((d.bump FLT_FOLDS_COUNT).wr FLT_STAT_FOLD_REQ 1).changeMode .fold

theorem Dev.foldNoted_spec (d : Dev) :
    d.foldNoted.mode = .fold ∧ d.foldNoted.rd FLT_FOLDS_COUNT = (d.rd FLT_FOLDS_COUNT + 1) % 2 ^ 32 ∧
      d.foldNoted.flag FLT_CFG_AUTO_UNFOLD = d.flag FLT_CFG_AUTO_UNFOLD := by
  unfold Dev.foldNoted Dev.changeMode Dev.setMode Dev.bump
  generalize hx : (d.wr FLT_FOLDS_COUNT (d.rd FLT_FOLDS_COUNT + 1)).wr FLT_STAT_FOLD_REQ 1 = x
  have hlog : ∀ f, ((x.wr DEV_MODE_MODE Mode.fold.code).logEvent 4 Mode.fold.code 0).rd f = (x.wr DEV_MODE_MODE Mode.fold.code).rd f :=
    fun f => (Still.logEvent (A := fun _ => False) _ _ _ _).rd f id
  refine ⟨?_, ?_, ?_⟩
  · unfold Dev.mode
    rw [hlog, Dev.rd_wr_self _ _ _ (by decide)]
    decide
  · rw [hlog, Dev.rd_wr_apart (by decide), ← hx, Dev.rd_wr_apart (by decide), Dev.rd_wr_self _ _ _ (by decide)]
    rfl
  · unfold Dev.flag
    rw [hlog, Dev.rd_wr_apart (by decide), ← hx, Dev.rd_wr_apart (by decide), Dev.rd_wr_apart (by decide)]

theorem Dev.mode_wr_apart {f : Fld} (h : f.apart DEV_MODE_MODE) (d : Dev) (v : Nat) : (d.wr f v).mode = d.mode :=
  congrArg Mode.ofCode (Dev.rd_wr_apart h d v)

/-- A fold from RUN or SERVICE: what is noted, the outputs and ports, and the notice to the pasture. -/
theorem Dev.enterFold_eq {d : Dev} (h : d.mode = .run ∨ d.mode = .service) :
    Still (fun _ => False) d.foldNoted.outsFold.portsFold d.enterFold := by
  have hne : d.mode ≠ .reset := by rcases h with h | h <;> rw [h] <;> decide
  have hx : ((d.bump FLT_FOLDS_COUNT).wr FLT_STAT_FOLD_REQ 1).mode ≠ .reset := by
    rw [Dev.mode_wr_apart (by decide), Dev.bump, Dev.mode_wr_apart (by decide)]
    exact hne
  have body : ∀ x : Dev, Still (fun _ => False) x (match x.firstError x.latched with
      | some (src, sev, t) => x.sendNotice src sev true t
      | none => x) := fun x => by
    split
    · exact Still.originate ..
    · exact Still.refl _ x
  have noted : ∀ x : Dev, x = d → ((x.bump FLT_FOLDS_COUNT).wr FLT_STAT_FOLD_REQ 1).setUnder .fold = d.foldNoted := fun x e => by
    rw [e, Dev.setUnder_of_ne hx]
    rfl
  have awake : d.underMode = .run ∨ d.underMode = .service := by rw [Dev.underMode_of_ne hne]; exact h
  unfold Dev.enterFold
  split
  case h_1 hm => simp [hm] at awake
  case h_2 hm => simp [hm] at awake
  case h_3 hm => simp [hm] at awake
  case h_4 m _ _ _ =>
    extract_lets x y z
    have hx' : x = d := if_neg fun e => by simp [e] at awake
    have hy : y = d.foldNoted := noted x hx'
    have hz : z = d.foldNoted.outsFold.portsFold := by rw [← hy]
    rw [← hz]
    exact body z

/-- What a fold from RUN or SERVICE leaves, before the collector settles. -/
theorem Dev.enterFold_spec {d : Dev} (h : d.mode = .run ∨ d.mode = .service) :
    d.enterFold.mode = .fold ∧ d.enterFold.rd FLT_FOLDS_COUNT = (d.rd FLT_FOLDS_COUNT + 1) % 2 ^ 32 ∧
      d.enterFold.flag FLT_CFG_AUTO_UNFOLD = d.flag FLT_CFG_AUTO_UNFOLD ∧ ∀ n < 24, d.enterFold.rd (OUT_STAT_STATE n) ≠ 1 := by
  obtain ⟨hmode, hfolds, hauto⟩ := d.foldNoted_spec
  obtain ⟨hw, hs⟩ := d.foldNoted.outsFold_spec
  have hp := Apart.portsFold d.foldNoted.outsFold
  have he := Dev.enterFold_eq h
  have hword : ∀ a, (∀ n < 24, a ≠ rOUT_STAT n) → ¬ PadSide a → d.enterFold.word a = d.foldNoted.word a := fun a ha hn =>
    ((he.word a id).trans (hp.word a hn)).trans (hw a ha)
  have hrd : ∀ f : Fld, (∀ n < 24, f.addr ≠ rOUT_STAT n) → ¬ PadSide f.addr → d.enterFold.rd f = d.foldNoted.rd f :=
    fun f ha hn => by unfold Dev.rd; rw [hword f.addr ha hn]
  refine ⟨?_, ?_, ?_, fun n hn => ?_⟩
  · rw [← hmode]
    exact mode_congr (hword _ (fun n _ => by unfold rDEV_MODE rOUT_STAT; omega) (not_padSide (by decide) (by decide)))
  · rw [hrd _ (fun n _ => show rFLT_FOLDS ≠ rOUT_STAT n by unfold rFLT_FOLDS rOUT_STAT; omega) ?_, hfolds]
    unfold PadSide JobReg FiringReg FireReg CapReg ReactReg
    decide
  · unfold Dev.flag
    rw [hrd _ (fun n _ => show rFLT_CFG ≠ rOUT_STAT n by unfold rFLT_CFG rOUT_STAT; omega) (not_padSide (by decide) (by decide))]
    exact hauto
  · have ha : (OUT_STAT_STATE n).addr = 0x050018 + 0x80 * n := rfl
    rw [he.rd _ id, hp.rd _ (not_padSide (by omega) (by omega))]
    exact hs n hn

/-! ### The end of the edge -/

theorem Stays.settleFold_held {d : Dev} (h : d.flag FLT_CFG_AUTO_UNFOLD = false) : Stays d d.settleFold := by
  unfold Dev.settleFold
  split
  · have hw := Stays.wr d FLT_STAT_FOLD_REQ 0 SteadyReg.flt
    dsimp only
    rw [if_neg]
    · exact hw
    · rw [hw.toKeeps.flag _ (not_steadyReg (by decide) (by decide) (by decide) (by decide)), h]
      simp
  · exact Stays.refl d

/-- Where nothing leaves FOLD by itself, what follows a fold on its edge reaches the collector's own status alone. -/
theorem Stays.afterPend {d : Dev} (h : d.flag FLT_CFG_AUTO_UNFOLD = false) :
    Stays d (((((d.settleFatal).settleEsc).settleInj).settleFold).settleElig.settleFn.settleLamp) := by
  have h1 := ((Stays.settleFatal d).trans (Stays.settleEsc _)).trans (Stays.settleInj _)
  have h2 := h1.trans (Stays.settleFold_held
    ((h1.toKeeps.flag _ (not_steadyReg (by decide) (by decide) (by decide) (by decide))).trans h))
  exact ((h2.trans (Stays.settleElig _)).trans (Stays.settleFn _)).trans (Stays.settleLamp _)

/-- Settles O10: the fold is taken first of what the edge settles, and nothing after it reaches the mode or the outputs. -/
theorem calledFoldIsTakenOnItsEdge : Obligations.CalledFoldIsTakenOnItsEdge := by
  intro d hpend hnext hcopy hmode hauto
  obtain ⟨hm, hf, ha, ho⟩ := Dev.enterFold_spec hmode
  have hsc : d.settleCopy = d := by
    unfold Dev.settleCopy
    rw [hcopy]
    rfl
  have hsp : d.settlePend = { d.enterFold with flt := { d.enterFold.flt with foldPend := false } } := by
    unfold Dev.settlePend
    rw [hpend, hnext]
    rfl
  have hstays : Stays d.settlePend d.finish := by
    unfold Dev.finish
    rw [hsc]
    refine Stays.afterPend ?_
    rw [hsp, Dev.flag_with_flt, ha, hauto]
  have hrd : ∀ f : Fld, ¬ SteadyReg f.addr → d.finish.rd f = d.enterFold.rd f := fun f hn => by
    rw [hstays.toKeeps.rd f hn, hsp, Dev.rd_with_flt]
  refine ⟨?_, ?_, fun n hn => ?_⟩
  · rw [← hm]
    exact congrArg Mode.ofCode (hrd _ (not_steadyReg (by decide) (by decide) (by decide) (by decide)))
  · rw [hrd _ (not_steadyReg (by decide) (by decide) (by decide) (by decide)), hf]
  · have hadr : (OUT_STAT_STATE n).addr = 0x050018 + 0x80 * n := rfl
    rw [hrd _ (not_steadyReg (by omega) (by omega) (by omega) (by omega))]
    exact ho n hn

end Sys2Proof.Machine
end

section
/-!
PROOF. How an effect is refuted: what the edge of a device in SERVICE or SLEEP has settled shows the device that the effect left (11
R284 to R289; 13 R353), since every fold leaves these modes and every dump copy that stops latches its source.
-/

namespace Sys2Proof.Machine

/-- The modes that a device has left once it has folded, and that no fold's end leads to. -/
def Mode.quiet (m : Mode) : Prop := m = .service ∨ m = .sleep

theorem Mode.quiet.ne {m n : Mode} (h : m.quiet) (hn : n ≠ .service ∧ n ≠ .sleep) : m ≠ n := fun e => by
  rcases h with h | h
  · exact hn.1 (e.symm.trans h)
  · exact hn.2 (e.symm.trans h)

theorem Dev.mode_setMode (d : Dev) (m : Mode) : (d.setMode m).mode = m := by
  have hr : (d.setMode m).rd DEV_MODE_MODE = m.code % 2 ^ 3 := Dev.rd_wr_self d DEV_MODE_MODE m.code (by decide)
  unfold Dev.mode
  rw [hr]
  cases m <;> decide

theorem Dev.mode_changeMode (d : Dev) (m : Mode) : (d.changeMode m).mode = m :=
  (mode_congr ((Still.logEvent (A := fun _ => False) (d.setMode m) 4 m.code 0).word _ id)).trans (d.mode_setMode m)

/-- A change of the mode or, in a pulse, of the mode after it leaves the device in that mode or in the pulse. -/
theorem Dev.mode_setUnder (d : Dev) (m : Mode) : (d.setUnder m).mode = .reset ∨ (d.setUnder m).mode = m := by
  unfold Dev.setUnder
  split
  · next h => exact Or.inl ((mode_congr rfl).trans h)
  · exact Or.inr (d.mode_changeMode m)

theorem Dev.mode_outsFold (d : Dev) : d.outsFold.mode = d.mode :=
  mode_congr (d.outsFold_spec.1 _ fun n _ => by unfold rDEV_MODE rOUT_STAT; omega)

theorem Dev.mode_portsFold (d : Dev) : d.portsFold.mode = d.mode :=
  mode_congr ((Apart.portsFold d).word _ (not_padSide (by decide) (by decide)))

/-- The modes in which a fold that is asked for leaves the device. -/
def Mode.folded (m : Mode) : Prop := m = .reset ∨ m = .fold ∨ m = .boot

/-- After a fold that is taken, the device is in FOLD or in a pulse; otherwise the fold has found it in a mode that takes none. -/
theorem Dev.mode_enterFold (d : Dev) : d.enterFold.mode.folded := by
  have notice : ∀ x : Dev, (match x.firstError x.latched with
      | some (src, sev, t) => x.sendNotice src sev true t
      | none => x).mode = x.mode := fun x => by
    split
    · exact mode_congr ((Still.originate (A := fun _ => False) ..).word _ id)
    · rfl
  have under : ∀ m, d.underMode = m → d.mode = .reset ∨ d.mode = m := fun m h => by
    unfold Dev.underMode at h
    split at h
    · next hr => exact Or.inl hr
    · exact Or.inr h
  unfold Dev.enterFold
  split
  · next h => exact (under _ h).elim Or.inl Or.inl
  · next h => exact (under _ h).elim Or.inl fun h => Or.inr (Or.inr h)
  · next h =>
    have hw : (d.wr FLT_STAT_FOLD_REQ 1).mode = d.mode := Dev.mode_wr_apart (by decide) d 1
    exact (under _ h).imp hw.trans fun h => Or.inl (hw.trans h)
  · extract_lets x y z
    have hy : y.mode = .reset ∨ y.mode = .fold := Dev.mode_setUnder _ _
    have hz : z.mode = y.mode := (Dev.mode_portsFold _).trans (Dev.mode_outsFold y)
    exact hy.imp (fun h => (notice z).trans (hz.trans h)) fun h => Or.inl ((notice z).trans (hz.trans h))

/-- A device that leaves FOLD is in RUN or in a pulse. -/
theorem Dev.mode_leaveFold (d : Dev) : d.leaveFold.mode = .reset ∨ d.leaveFold.mode = .run := by
  have hu : (d.setUnder .run).outsUnfold.mode = (d.setUnder .run).mode := by
    unfold Dev.outsUnfold
    generalize d.setUnder .run = x
    have hk : Keeps (fun a => ∃ n, a = rOUT_STAT n) x (forN 24 (fun n d => (d.wr (OUT_STAT_FOLDED n) 0).outTry n) x) :=
      Keeps.forN _ _ (fun k _ y => (Keeps.wr y (OUT_STAT_FOLDED k) 0 ⟨k, rfl⟩).trans (Keeps.outTry _ k ⟨k, rfl⟩)) _
    exact mode_congr (hk.word _ fun ⟨n, h⟩ => by unfold rDEV_MODE rOUT_STAT at h; omega)
  unfold Dev.leaveFold
  rw [hu]
  exact d.mode_setUnder .run

theorem Stays.mode {d e : Dev} (h : Stays d e) : e.mode = d.mode :=
  mode_congr (h.word _ (not_steadyReg (by decide) (by decide) (by decide) (by decide)))

/-- The steps of the edge's end between the faults' and the fold's. -/
def Dev.settleHeld (d : Dev) : Dev := ((d.settleFatal).settleEsc).settleInj

theorem Stays.settleHeld (d : Dev) : Stays d d.settleHeld :=
  ((Stays.settleFatal d).trans (Stays.settleEsc _)).trans (Stays.settleInj _)

/-- What an edge settles of a device that is found in SERVICE or SLEEP then, with no dump copy reported: no fold and no dump's copy. -/
theorem Dev.finish_of_quiet {e : Dev} (hm : e.finish.mode.quiet) (h49 : e.finish.latched 49 = false) :
    e.finish = e.settleHeld.settleFold.settleElig.settleFn.settleLamp ∧ e.settleHeld.underMode ≠ .fold := by
  generalize hx : e.settleCopy = x
  generalize hy : x.settlePend = y
  generalize hz : y.settleHeld = z
  have hf : e.finish = z.settleFold.settleElig.settleFn.settleLamp := by rw [← hz, ← hy, ← hx]; rfl
  have late : Stays z.settleFold e.finish := by
    rw [hf]
    exact ((Stays.settleElig _).trans (Stays.settleFn _)).trans (Stays.settleLamp _)
  have early : Stays y z := by
    rw [← hz]
    exact Stays.settleHeld y
  have hfold : z.underMode ≠ .fold := fun hu => by
    have hmf := late.mode
    have hk : z.settleFold.mode = z.mode ∨ z.settleFold.mode = .reset ∨ z.settleFold.mode = .run := by
      unfold Dev.settleFold
      split
      · dsimp only
        split
        · exact Or.inr (Dev.mode_leaveFold _)
        · exact Or.inl (Dev.mode_wr_apart (by decide) z 0)
      · exact Or.inl rfl
    have hzm : z.mode = .reset ∨ z.mode = .fold := by
      unfold Dev.underMode at hu
      split at hu
      · next h => exact Or.inl h
      · exact Or.inr hu
    rw [hmf] at hm
    rcases hk with h | h | h
    · rw [h] at hm
      rcases hzm with h' | h'
      · exact hm.ne (by decide) h'
      · exact hm.ne (by decide) h'
    · exact hm.ne (by decide) h
    · exact hm.ne (by decide) h
  have mid : Stays y e.finish := (early.trans (Stays.settleFold hfold)).trans late
  have hyx : y = x := by
    rw [← hy]
    unfold Dev.settlePend at hy ⊢
    split
    · next h =>
      rw [if_pos h] at hy
      have hye : y.mode = x.enterFold.mode := by rw [← hy]; exact mode_congr rfl
      rw [mid.mode, hye] at hm
      rcases x.mode_enterFold with h' | h' | h'
      · exact absurd h' (hm.ne (by decide))
      · exact absurd h' (hm.ne (by decide))
      · exact absurd h' (hm.ne (by decide))
    · rfl
  have hxe : x = e := by
    rw [← hx]
    unfold Dev.settleCopy at hx ⊢
    dsimp only at hx ⊢
    split
    · next h =>
      rw [if_pos h] at hx
      have hl : x.latched 49 = true := by
        rw [← hx]
        exact (Dev.fireAs_fired 49 0 none false false _ (by decide)).latched
      have ha := ackFld_addr 49
      have : e.finish.latched 49 = true := by
        unfold Dev.latched
        rw [mid.toKeeps.flag _ (not_steadyReg (by omega) (by omega) (by omega) (by omega)), hyx]
        exact hl
      rw [h49] at this
      exact absurd this (by decide)
    · rfl
  have hze : e.settleHeld = z := by rw [← hz, hyx, hxe]
  rw [hze]
  exact ⟨hf, hfold⟩

/-- What an edge settles of a device that is found in SERVICE or SLEEP then, with no dump copy reported: the collector's own status. -/
theorem Stays.of_quiet {e : Dev} (hm : e.finish.mode.quiet) (h49 : e.finish.latched 49 = false) : Stays e e.finish := by
  obtain ⟨hf, hfold⟩ := Dev.finish_of_quiet hm h49
  rw [hf]
  exact ((((Stays.settleHeld e).trans (Stays.settleFold hfold)).trans (Stays.settleElig _)).trans (Stays.settleFn _)).trans
    (Stays.settleLamp _)

theorem Dev.past_when (d : Dev) (b : Bool) (f : Dev → Dev) (h : (f d).past = d.past) : (d.when b f).past = d.past := by
  cases b
  · rfl
  · exact h

theorem Dev.past_with_flt (d : Dev) (x : Flt) : ({ d with flt := x } : Dev).past = d.past := rfl

theorem Dev.past_settleHeld (d : Dev) : d.settleHeld.past = d.past := by
  have hf : d.settleFatal.past = d.past := by
    unfold Dev.settleFatal
    exact Dev.past_when _ _ _ (Dev.wr_past ..)
  have he : d.settleFatal.settleEsc.past = d.settleFatal.past := by
    unfold Dev.settleEsc
    exact Dev.past_when _ _ _ ((Dev.past_with_flt _ _).trans (Dev.wr_past ..))
  have hi : d.settleHeld.past = d.settleFatal.settleEsc.past := by
    unfold Dev.settleHeld Dev.settleInj
    exact Dev.past_when _ _ _ (Dev.wr_past ..)
  rw [hi, he, hf]

theorem Dev.past_settleFn (d : Dev) : d.settleFn.past = d.past := by
  have hr : d.fnRelease.past = d.past := (Dev.past_with_flt _ _).trans (Dev.wr_past ..)
  unfold Dev.settleFn
  split
  · exact Dev.past_when _ _ _ hr
  · split
    · exact Dev.past_when _ _ _ ((Dev.past_with_flt _ _).trans (Dev.wr_past ..))
    · exact Dev.past_when _ _ _ hr

theorem Dev.past_settleLamp (d : Dev) : d.settleLamp.past = d.past := by
  unfold Dev.settleLamp Dev.evtIf
  split
  · exact Dev.evt_past ..
  · rfl

theorem Dev.past_settleFold {d : Dev} (h : d.underMode ≠ .fold) : d.settleFold.past = d.past := by
  unfold Dev.settleFold
  split
  · dsimp only
    rw [(Stays.wr d FLT_STAT_FOLD_REQ 0 SteadyReg.flt).underMode, decide_eq_false h, Bool.and_false]
    exact Dev.wr_past ..
  · rfl

/-- Such an edge leaves the pasture's links as they are on a device that is in no pasture. -/
theorem Dev.past_of_quiet {e : Dev} (hm : e.finish.mode.quiet) (h49 : e.finish.latched 49 = false)
    (hu : e.finish.flag PAST_CFG_USED = false) : e.finish.past = e.past := by
  rw [(Stays.of_quiet hm h49).toKeeps.flag PAST_CFG_USED (not_steadyReg (by decide) (by decide) (by decide) (by decide))] at hu
  obtain ⟨hf, hfold⟩ := Dev.finish_of_quiet hm h49
  have hz : e.settleHeld.settleFold.flag PAST_CFG_USED = false :=
    (((Stays.settleHeld e).trans (Stays.settleFold hfold)).toKeeps.flag PAST_CFG_USED
      (not_steadyReg (by decide) (by decide) (by decide) (by decide))).trans hu
  have helig : e.settleHeld.settleFold.settleElig = e.settleHeld.settleFold := by
    unfold Dev.settleElig
    rw [hz]
    rfl
  rw [hf, helig, Dev.past_settleLamp, Dev.past_settleFn, Dev.past_settleFold hfold, Dev.past_settleHeld]

/-- A command whose next state is in SERVICE or SLEEP has had its effect on a device that differs from it in the collector's status
alone. -/
theorem Effects.settled {c : Instr} {s : State} {P : Dev → Prop} {dt : Nat} {f : Dev → Dev} (h : Effects c s P)
    (hrun : exec c s = run dt f s) (hl : s.dev.lag = false) (hm : (f (s.dev.arrive dt)).finish.mode.quiet)
    (h49 : (f (s.dev.arrive dt)).finish.latched 49 = false) : ∃ e, P e ∧ Stays e (f (s.dev.arrive dt)).finish := by
  obtain ⟨e, he, hp⟩ := h
  rw [hrun] at he
  have hfin : (f (s.dev.arrive dt)).finish = e.finish := by
    unfold run at he
    injection he with he
    exact congrArg State.dev he
  refine ⟨e, hp hl, ?_⟩
  rw [hfin] at hm h49 ⊢
  exact Stays.of_quiet hm h49

/-- The same of a device that is in no pasture, with the links of the pasture as the effect left them. -/
theorem Effects.settledAlone {c : Instr} {s : State} {P : Dev → Prop} {dt : Nat} {f : Dev → Dev} (h : Effects c s P)
    (hrun : exec c s = run dt f s) (hl : s.dev.lag = false) (hm : (f (s.dev.arrive dt)).finish.mode.quiet)
    (h49 : (f (s.dev.arrive dt)).finish.latched 49 = false) (hu : (f (s.dev.arrive dt)).finish.flag PAST_CFG_USED = false) :
    ∃ e, P e ∧ (f (s.dev.arrive dt)).finish.past = e.past := by
  obtain ⟨e, he, hp⟩ := h
  rw [hrun] at he
  have hfin : (f (s.dev.arrive dt)).finish = e.finish := by
    unfold run at he
    injection he with he
    exact congrArg State.dev he
  refine ⟨e, hp hl, ?_⟩
  rw [hfin] at hm h49 hu ⊢
  exact Dev.past_of_quiet hm h49 hu

/-- What completes holds of the device that the command leaves. -/
theorem Completes.left {c : Instr} {s : State} {P : Dev → Prop} {dt : Nat} {f : Dev → Dev} (h : Completes c s P)
    (hrun : exec c s = run dt f s) (hl : s.dev.lag = false) : P (f (s.dev.arrive dt)).finish := by
  obtain ⟨t, ht, -, hp⟩ := h
  rw [hrun] at ht
  unfold run at ht
  injection ht with ht
  have := hp hl
  rw [← ht] at this
  exact this

/-! ### Devices for counterexamples -/

/-- A device in a mode, with the fields of `fs` written and then `f` applied. -/
def deviceIn (m : Mode) (fs : List (Fld × Nat)) (f : Dev → Dev) : State :=
  { pending := [], dev := f (fs.foldl (fun d p => d.wr p.1 p.2) (Dev.released.setMode m)) }

end Sys2Proof.Machine
end

section
/-!
PROOF. A write whose bits the hardware has overridden on its edge (10 R275): what the commands do that read a register back (O11).
-/

namespace Sys2Proof.Machine

/-- A device in SERVICE with the fields of `fs` written, on an edge on which the hardware has written the bits `bits` of the register at
`a` over the software. -/
def overridden (a bits : Nat) (fs : List (Fld × Nat)) : State := deviceIn .service fs fun d => { d with hwSet := [(a, bits)] }

/-- Refutes O11: FLT_INJ is written on an edge on which the hardware has overridden its SRC; the injection is of the source that SRC
still holds. -/
theorem not_injectionFiresOnceOrIsRejected : ¬ Obligations.InjectionFiresOnceOrIsRejected := by
  intro h
  obtain ⟨hfires, -⟩ := h (overridden rFLT_INJ 0x3F []) 0 0 1 false (by decide) (by unfold Dev.Grants; decide +kernel)
  obtain ⟨e, ⟨hf, -⟩, hs⟩ := (hfires (by decide +kernel) (by decide +kernel)).settled rfl (by decide +kernel)
    (Or.inl (by decide +kernel)) (by decide +kernel)
  have hl := hf.latched
  rw [Dev.latched, ← hs.toKeeps.flag (ackFld 1) (not_steadyReg (by decide) (by decide) (by decide) (by decide))] at hl
  revert hl
  decide +kernel

end Sys2Proof.Machine
end

section
/-!
PROOF. Timers and releases of the fault collector, the dump and the event log (11 R285, R288, R290, R299 to R305; O14).
-/

namespace Sys2Proof.Machine

/-! ### A written command register before its command bits act -/

/-- `e` is `d` with a word landed in the register at `a`: every other register and every other part stands. -/
structure Landed (a : Nat) (d e : Dev) : Prop where
  word : ∀ b, b ≠ a → e.word b = d.word b
  parts : ∃ l o, e = { d with live := l, outside := o }

namespace Landed

variable {a : Nat} {d e : Dev}

theorem rd (h : Landed a d e) (f : Fld) (hf : f.addr ≠ a) : e.rd f = d.rd f := by
  unfold Dev.rd
  rw [h.word _ hf]

theorem flag (h : Landed a d e) (f : Fld) (hf : f.addr ≠ a) : e.flag f = d.flag f := by
  unfold Dev.flag
  rw [h.rd f hf]

theorem flt (h : Landed a d e) : e.flt = d.flt := by
  obtain ⟨l, o, rfl⟩ := h.parts
  rfl

theorem nvmc (h : Landed a d e) : e.nvmc = d.nvmc := by
  obtain ⟨l, o, rfl⟩ := h.parts
  rfl

theorem clk (h : Landed a d e) : e.clk = d.clk := by
  obtain ⟨l, o, rfl⟩ := h.parts
  rfl

theorem mode (h : Landed a d e) (ha : rDEV_MODE ≠ a) : e.mode = d.mode := mode_congr (h.word _ ha)

theorem calm (h : Landed a d e) (hc : d.Calm) : e.Calm := hc.of_flt h.flt

end Landed

/-- An accepted write of a command register without RWS bits, whose RW bits no limit names. -/
theorem Dev.write_landed {d : Dev} {m a w : Nat} {r : RegRow} (h : d.Grants m a) (hr : rowAt a = some r)
    (hp : plainCommand a r = true) (hrws : r.rws = 0) (hlim : ∀ v, (limitRw a v).2 = []) (hw : w < 2 ^ 32) :
    ∃ e, Landed a d e ∧ d.write m a w = (e.command m a w).accessEdge := by
  have hmod : w % 2 ^ 32 = w := Nat.mod_eq_of_lt hw
  obtain ⟨o, ho⟩ := d.noteReserved_outside r w
  refine ⟨({ d with outside := o } : Dev).writeRw r a w, ⟨?_, ?_⟩, ?_⟩
  · intro b hb
    unfold Dev.writeRw
    split
    · exact Dev.word_with_outside d o b
    · dsimp only
      rw [hlim]
      exact (Dev.word_setWord_of_ne _ _ _ _ hb).trans (Dev.word_with_outside d o b)
  · unfold Dev.writeRw
    split
    · exact ⟨d.live, o, rfl⟩
    · dsimp only
      rw [hlim]
      exact ⟨_, o, rfl⟩
  · rw [Dev.write_command h hr hp, hmod, ho, Dev.writeRws_of_zero _ _ hrws]

/-- An accepted write of FLT_CMD. -/
theorem Dev.write_fltCmd {d : Dev} {m w : Nat} (h : d.Grants m rFLT_CMD) (hw : w < 2 ^ 32) :
    ∃ e, Landed rFLT_CMD d e ∧ d.write m rFLT_CMD w = (e.fltCmd w).accessEdge := by
  have row : ∃ r, rowAt rFLT_CMD = some r ∧ plainCommand rFLT_CMD r = true ∧ r.rws = 0 := ⟨_, rfl, by decide, rfl⟩
  obtain ⟨r, hr, hp, hrws⟩ := row
  exact Dev.write_landed h hr hp hrws (fun v => by rw [limitRw_fltCmd]) hw

theorem Dev.fltCmd_fnRel (d : Dev) : d.fltCmd (2 ^ 30) = d.fnRel := by
  have h31 : (2 ^ 30).testBit 31 = false := by decide
  have h30 : (2 ^ 30).testBit 30 = true := by decide
  have h29 : (2 ^ 30).testBit 29 = false := by decide
  have h28 : (2 ^ 30).testBit 28 = false := by decide
  unfold Dev.fltCmd Dev.when
  rw [h31, h30, h29, h28]
  rfl

theorem Dev.fltCmd_dumpRel (d : Dev) : d.fltCmd (2 ^ 29) = d.wr FLT_DUMP_STAT_SRAM_VALID 0 := by
  have h31 : (2 ^ 29).testBit 31 = false := by decide
  have h30 : (2 ^ 29).testBit 30 = false := by decide
  have h29 : (2 ^ 29).testBit 29 = true := by decide
  have h28 : (2 ^ 29).testBit 28 = false := by decide
  unfold Dev.fltCmd Dev.when
  rw [h31, h30, h29, h28]
  rfl

theorem Dev.fltCmd_nvmDumpRel (d : Dev) : d.fltCmd (2 ^ 28) = d.nvmRequest .dumpErase := by
  have h31 : (2 ^ 28).testBit 31 = false := by decide
  have h30 : (2 ^ 28).testBit 30 = false := by decide
  have h29 : (2 ^ 28).testBit 29 = false := by decide
  have h28 : (2 ^ 28).testBit 28 = true := by decide
  unfold Dev.fltCmd Dev.when
  rw [h31, h30, h29, h28]
  rfl

/-! ### The timers (11 R285, R288, R290) -/

theorem Dev.quietExpiry_spec {d : Dev} (hf : d.flag FLT_STAT_FSTATE = true)
    (hl : (d.anyLive fun k => decide (d.rd FLT_CFG_FSTATE_SEV ≤ d.sev k)) = false) :
    d.quietExpiry.flag FLT_STAT_FSTATE = false ∧ d.quietExpiry.rd FLT_RECOV_COUNT = (d.rd FLT_RECOV_COUNT + 1) % 2 ^ 32 := by
  unfold Dev.quietExpiry
  rw [if_pos (by rw [hf, hl]; rfl)]
  dsimp only
  rw [Dev.flag_closeEdge, Dev.rd_closeEdge, Dev.flag_with_flt, Dev.rd_with_flt]
  unfold Dev.ackEnd
  rw [Dev.flag_with_front, Dev.rd_with_front]
  unfold Dev.flag Dev.bump
  rw [Dev.rd_wr_apart (by decide), Dev.rd_wr_self _ _ _ (by decide), Dev.rd_wr_self _ _ _ (by decide), Dev.rd_wr_apart (by decide)]
  exact ⟨rfl, rfl⟩

theorem Dev.fnWidthEnd_spec {d : Dev} (h : d.flag FLT_STAT_FN = true) :
    d.fnWidthEnd.flt.fnWidthDone = true ∨ d.fnWidthEnd.flag FLT_STAT_FN = false := by
  unfold Dev.fnWidthEnd
  rw [if_pos h]
  split
  · exact Or.inr d.fnRelease_off
  · exact Or.inl rfl

/-- Live sources of an edge are live on the one before it, or have fired on it. -/
theorem Dev.anyLive_advance {d : Dev} {p : Nat → Bool} (h : d.anyLive p = false) (dt : Nat) : (d.advance dt).anyLive p = false := by
  unfold Dev.anyLive at h ⊢
  rw [Bool.or_eq_false_iff] at h ⊢
  obtain ⟨hlive, hfired⟩ := h
  refine ⟨hlive, ?_⟩
  rw [show (d.advance dt).flt.fired = if d.sameEdge dt then d.flt.fired else [] from rfl]
  split
  · exact hfired
  · rfl

/-! ### Dumps and the event log (11 R299, R301) -/

/-- What follows the storing of a dump leaves the status of the stored one. -/
theorem Dev.dumpNext_dumpAfter (t : DumpTrigger) (copy : Bool) (d : Dev) {f : Fld} (h : FLT_STAT_DUMP_BUSY.apart f) :
    ((d.dumpAfter t copy).dumpNext t).rd f = d.rd f := by
  have after : (d.dumpAfter t copy).rd f = d.rd f := by
    unfold Dev.dumpAfter Dev.mbxOutcome
    split
    · exact Dev.rd_congr rfl f
    · split
      · rfl
      · split <;> exact Dev.rd_congr rfl f
  unfold Dev.dumpNext Dev.dumpStart
  split
  · rw [Dev.rd_wr_apart h, Dev.rd_with_flt, after]
  · rw [Dev.rd_wr_apart h, Dev.rd_with_flt, after]

theorem Dev.dumpSramDone_spec {d : Dev} {t : DumpTrigger} (h : d.flt.dump = some t) (core : List Nat) :
    (d.dumpSramDone core).flag FLT_DUMP_STAT_SRAM_VALID = true ∧ (d.dumpSramDone core).rd FLT_DUMP_SEQ_SEQ = t.seq % 2 ^ 32 := by
  unfold Dev.dumpSramDone
  rw [h]
  dsimp only
  generalize (if d.flag DEV_MUSTER_PEND then d else d.musterNow) = x
  unfold Dev.flag
  rw [Dev.dumpNext_dumpAfter _ _ _ (by decide), Dev.dumpNext_dumpAfter _ _ _ (by decide)]
  unfold Dev.dumpStore
  rw [Dev.rd_wr_apart (by decide), Dev.rd_wr_self _ _ _ (by decide), Dev.rd_wr_self _ _ _ (by decide)]
  exact ⟨rfl, rfl⟩

theorem Dev.logEntry_waiting {d : Dev} {x : LogEntry} {rest : List LogEntry} (h : d.flt.logWait = x :: rest) :
    d.logEntry.flt.logWait = rest := by
  unfold Dev.logEntry
  rw [h]
  dsimp only
  split
  · split
    · unfold Dev.notLogged
      split <;> rfl
    · rfl
  · split <;> rfl

/-! ### All of them (O14) -/

/-- Settles O14: each timer and release is one step of the collector, and the edge's end leaves what it has written. -/
theorem collectorReleasesAndTimers : Obligations.CollectorReleasesAndTimers := by
  refine ⟨fun s dt => ⟨fun hr hm => ?_, fun hf hl => ?_, fun hn => ?_⟩, fun s dt m hg => ⟨fun hn hlatch hdone hcond => ?_,
    fun hc => ?_, fun hc => ?_⟩, fun s dt => ⟨fun t core ht => ?_, fun hd => ?_, fun x rest hx => ?_⟩⟩
  · refine Effects.of_run rfl ?_
    unfold Dev.escExpiry
    rw [if_pos (show (s.dev.advance dt).flag FLT_STAT_ESC_RUN = true from hr)]
    exact decide_eq_true hm
  · exact Effects.of_run rfl (Dev.quietExpiry_spec (d := s.dev.advance dt) hf (Dev.anyLive_advance hl dt))
  · exact Effects.of_run rfl (Dev.fnWidthEnd_spec (d := s.dev.advance dt) hn)
  · refine Effects.of_run rfl ?_
    obtain ⟨e, he, hw⟩ := Dev.write_fltCmd (w := 2 ^ 30) (hg.advance dt) (by decide)
    have hfn : e.flag FLT_STAT_FN = true := (he.flag _ (by decide)).trans hn
    have hlt : e.flag FLT_CFG_FN_LATCH = true := (he.flag _ (by decide)).trans hlatch
    have hwd : e.flt.fnWidthDone = true := by rw [he.flt]; exact hdone
    have hcd : e.fnCond = false := by
      unfold Dev.fnCond at hcond ⊢
      rw [he.flag _ (by decide), he.mode (by decide)]
      exact hcond
    rw [hw, Dev.fltCmd_fnRel, Dev.flag_accessEdge]
    unfold Dev.fnRel
    rw [hfn, hlt, hwd, hcd]
    exact e.fnRelease_off
  · obtain ⟨e, he, hw⟩ := Dev.write_fltCmd (w := 2 ^ 29) (hg.advance dt) (by decide)
    rw [Dev.fltCmd_dumpRel] at hw
    have hcalm : ((s.dev.advance dt).write m rFLT_CMD (2 ^ 29)).Calm := by
      rw [hw]
      exact (he.calm (hc.advance dt)).of_flt ((Dev.accessEdge_flt _).trans (Dev.wr_flt e FLT_DUMP_STAT_SRAM_VALID 0))
    refine Completes.of_calm rfl hcalm fun t ht => ?_
    replace ht : Keeps SettleReg ((s.dev.advance dt).write m rFLT_CMD (2 ^ 29)) t := ht
    rw [hw] at ht
    rw [ht.flag _ (not_settleReg (by decide) (by decide) (by decide) (by decide) (by decide) (by decide)), Dev.flag_accessEdge]
    exact Dev.flag_wr_self e FLT_DUMP_STAT_SRAM_VALID 0 (by decide) rfl
  · obtain ⟨e, he, hw⟩ := Dev.write_fltCmd (w := 2 ^ 28) (hg.advance dt) (by decide)
    rw [Dev.fltCmd_nvmDumpRel] at hw
    have hcalm : ((s.dev.advance dt).write m rFLT_CMD (2 ^ 28)).Calm := by
      rw [hw]
      exact (he.calm (hc.advance dt)).of_flt (Dev.accessEdge_flt _)
    refine Completes.of_calm rfl hcalm fun t ht => ?_
    replace ht : Keeps SettleReg ((s.dev.advance dt).write m rFLT_CMD (2 ^ 28)) t := ht
    rw [hw] at ht
    rw [ht.nvmc]
    exact congrArg (fun c : NvmCtl => c.queue ++ [NvmWork.new .dumpErase]) he.nvmc
  · exact Effects.of_run rfl (Dev.dumpSramDone_spec (d := s.dev.advance dt) ht core)
  · refine Effects.of_run rfl ?_
    unfold Dev.dumpTimeout
    rw [if_pos (show (s.dev.advance dt).flt.dump.isSome = true from hd)]
    exact (Dev.fireAs_fired 49 0 none false false (s.dev.advance dt) (by decide)).advance
  · exact Effects.of_run rfl (Dev.logEntry_waiting (d := s.dev.advance dt) hx)

end Sys2Proof.Machine
end

section
/-!
PROOF. Commands whose operands the hardware has overridden on their edge (10 R275): DEV_MODE_REQ, DEV_MUSTER, DEV_MBX_CMD, NVM_CMD, NVM_CNT_CMD,
NVM_UNLOCK_CMD, MEAS_ABORT and PAST_RACC_CTL act on the bits that stand (O17, O25, O28, O30, O33, O34, O45, O58).
-/

namespace Sys2Proof.Machine

/-- Refutes O17: DEV_MODE_REQ asks for RUN in SERVICE on an edge on which the hardware has overridden REQ; the request is judged by the
REQ that stands, and the device stays in SERVICE. -/
theorem not_modeRequests : ¬ Obligations.ModeRequests := by
  intro h
  obtain ⟨-, hservice, -⟩ := h (overridden rDEV_MODE_REQ 0xFF [(DEV_MODE_REQ_REQ, 0)]) 0 0 (by unfold Dev.Grants; decide +kernel)
    ⟨by decide +kernel, by decide +kernel⟩
  have hrun := (hservice (by decide +kernel) (by decide +kernel)).left rfl (by decide +kernel)
  revert hrun
  decide +kernel

/-- Refutes O25: DEV_MUSTER asks for a muster of the pasture on an edge on which the hardware has overridden PASTURE; the device musters
alone, and none waits. -/
theorem not_mustersCopyTheHeldBank : ¬ Obligations.MustersCopyTheHeldBank := by
  intro h
  obtain ⟨hfree, -⟩ := h (overridden rDEV_MUSTER 0x7FFFFFFF []) 0 0 _ _ ⟨by decide +kernel, by decide +kernel⟩ rfl rfl
  obtain ⟨-, -, hpasture⟩ := hfree (by unfold Dev.Grants; decide +kernel) (by decide +kernel)
  obtain ⟨hpend, -⟩ := hpasture.left rfl (by decide +kernel)
  revert hpend
  decide +kernel

/-- Refutes O28: DEV_MBX_CMD asks for service 7 on an edge on which the hardware has overridden SERVICE; the service that stands, INFO,
is accepted and runs. -/
theorem not_mailboxRequests : ¬ Obligations.MailboxRequests := by
  intro h
  obtain ⟨-, hunknown, -⟩ := h (overridden rDEV_MBX_CMD 0x7FFFFFFF []) 0 0 0 [] [] (by decide) (by decide)
    (by unfold Dev.Grants; decide +kernel)
  obtain ⟨hfree, -⟩ := hunknown 7 (by decide) (by decide)
  obtain ⟨e, ⟨hbusy, -⟩, hs⟩ := (hfree (by decide +kernel)).settled rfl (by decide +kernel) (Or.inl (by decide +kernel))
    (by decide +kernel)
  rw [← hs.toKeeps.flag DEV_MBX_STAT_BUSY (not_steadyReg (by decide) (by decide) (by decide) (by decide))] at hbusy
  revert hbusy
  decide +kernel

/-- Refutes O30: NVM_CMD asks to erase page 300 on an edge on which the hardware has overridden PAGE; the command is judged by the page
that stands, which is in the command's region. -/
theorem not_nvmCommands : ¬ Obligations.NvmCommands := by
  intro h
  obtain ⟨-, hfree⟩ := h (overridden rNVM_CMD 0x7FFFFFFF [(NVM_CMD_OP, 1), (NVM_CMD_PAGE, 310)]) 0 0 300 (by decide)
    (by unfold Dev.Grants; decide +kernel)
  obtain ⟨hwork, -⟩ := hfree (by decide +kernel)
  obtain ⟨hregion, -⟩ := hwork _ _ (List.mem_cons_self ..)
  obtain ⟨e, ⟨-, hcode, -⟩, hs⟩ := (hregion (Or.inl (by decide))).settled rfl (by decide +kernel) (Or.inl (by decide +kernel))
    (by decide +kernel)
  rw [← hs.toKeeps.rd NVM_RESULT_CODE (not_steadyReg (by decide) (by decide) (by decide) (by decide))] at hcode
  revert hcode
  decide +kernel

/-- Refutes O33: NVM_CNT_CMD names counter 0 on an edge on which the hardware has overridden OP and ID; the command is judged by the
counter that stands. -/
theorem not_counterCommands : ¬ Obligations.CounterCommands := by
  intro h
  obtain ⟨hcommands, -⟩ := h
  obtain ⟨-, hready⟩ := hcommands (overridden rNVM_CNT_CMD 0x7FFFFFFF
    [(NVM_CNT_STAT_READY, 1), (NVM_CNT_CMD_ID, 8), (keyOpenFld 2 1, 1)]) 0 0 0 (by decide)
    (by unfold Dev.Grants; decide +kernel) (by unfold Dev.Grants; decide +kernel) (by unfold Dev.Grants; decide +kernel)
  obtain ⟨hjudged, -⟩ := hready (by decide +kernel) (by decide +kernel)
  obtain ⟨-, hnamed⟩ := hjudged (.nvmCntBadOp 0 0 0 0) (Or.inr (Or.inl rfl))
  obtain ⟨e, ⟨hcode, -⟩, hs⟩ := (hnamed (by decide +kernel) (by decide)).settled rfl (by decide +kernel) (Or.inl (by decide +kernel))
    (by decide +kernel)
  rw [← hs.toKeeps.rd NVM_CNT_STAT_CODE (not_steadyReg (by decide) (by decide) (by decide) (by decide))] at hcode
  revert hcode
  decide +kernel

/-- Refutes O34: NVM_UNLOCK_CMD locks a key of region 0 on an edge on which the hardware has overridden LOCK; the key, which is not set,
opens. -/
theorem not_keyCommands : ¬ Obligations.KeyCommands := by
  intro h
  obtain ⟨-, hjudged⟩ := h (overridden rNVM_UNLOCK_CMD 0x7FFFFFFF [(keyOpenFld 0 0, 0), (keySetFld 0 0, 0)]) 0 0 0 0 (by decide) (by decide)
    (by unfold Dev.Grants; decide +kernel) (by unfold Dev.Grants; decide +kernel) (by unfold Dev.Grants; decide +kernel)
  obtain ⟨-, hunset, -⟩ := hjudged (by decide +kernel)
  obtain ⟨e, hword, hs⟩ := (hunset (by decide +kernel)).settled rfl (by decide +kernel) (Or.inl (by decide +kernel)) (by decide +kernel)
  rw [← hs.toKeeps.word rNVM_KEY_STAT (not_steadyReg (by decide) (by decide) (by decide) (by decide))] at hword
  revert hword
  decide +kernel

/-- Refutes O45: MEAS_ABORT names no scope on an edge on which the hardware has overridden SCOPE; the slot that stands is aborted, and
its missing job is reported. -/
theorem not_abortsEndOpenJobs : ¬ Obligations.AbortsEndOpenJobs := by
  intro h
  obtain ⟨-, -, -, -, hnone⟩ := h (overridden rMEAS_ABORT 0x7FFFFFFF []) 0 0 (by unfold Dev.Grants; decide +kernel) (by decide +kernel)
  obtain ⟨e, ⟨hresult, -⟩, hs⟩ := hnone.settled rfl (by decide +kernel) (Or.inl (by decide +kernel)) (by decide +kernel)
  rw [Dev.pmWord, ← hs.perMaster] at hresult
  revert hresult
  decide +kernel

/-- A bellwether with a link up, on an edge on which the hardware has overridden PAST_RACC_CTL. -/
def pastureAsking : State := overridden rPAST_RACC_CTL 0x7FFFFFFF [(PAST_STAT_ROLE, 3), (PLINK_STAT_UP 0, 1)]

/-- Refutes O58: PAST_RACC_CTL names member 1 on an edge on which the hardware has overridden DST; the request goes to the member that
stands. -/
theorem not_pastureFrames : ¬ Obligations.PastureFrames := by
  intro h
  obtain ⟨-, -, hracc, -⟩ := h pastureAsking 0 0 0 1 0 0 (by decide)
  obtain ⟨-, -, hsent⟩ := hracc 0 _ (Or.inl rfl) (by unfold Dev.Grants; decide +kernel)
  obtain ⟨e, ⟨-, -, -, hframe⟩, hpast⟩ := (hsent (by decide +kernel) (by decide +kernel)).settledAlone rfl (by decide +kernel)
    (Or.inl (by decide +kernel)) (by decide +kernel) (by decide +kernel)
  have hsentTo := hframe (by decide +kernel)
  rw [← hpast] at hsentTo
  revert hsentTo
  decide +kernel

end Sys2Proof.Machine
end

section
/-!
PROOF. Loading and applying the image, the retry of a tie rewrite, a verified stream (09 R241 to R246; O16).
-/

namespace Sys2Proof.Machine

theorem Dev.bootLoad_stage {d : Dev} (h : d.atStage 9 = true) (bad : List Nat) : (d.bootLoad bad).stage = 10 := by
  unfold Dev.bootLoad
  rw [if_neg (by rw [h]; decide)]
  exact Dev.stage_setStage _ (by decide)

/-- The edge that applies the image: RUN, the patch and the watchdog (09 R246). -/
theorem Dev.imageApply_spec {d : Dev} (hm : d.mayApply = true) :
    d.imageApply.mode = .run ∧ d.imageApply.boot.patchRuns = d.boot.patch.isSome ∧ d.imageApply.boot.kick = d.clk.tclk := by
  obtain ⟨x, y, hx, hy, he⟩ := Dev.imageApply_split hm
  have hxm : x.mode = .run := hx.mode.trans (Dev.mode_changeMode _ .run)
  have hym : y.mode = .run := hy.mode.trans ((Dev.mode_wr_apart (by decide) x _).trans hxm)
  have hxb : x.boot = d.applyNoted.boot := hx.boot.trans (Dev.changeMode_boot _ .run)
  have hyb : y.boot = x.boot := hy.boot.trans (Dev.wr_boot _ _ _)
  have hyt : y.clk.tclk = d.clk.tclk := hy.tclk.trans (hx.tclk.trans rfl)
  have hs := Low.strobePulse (Low.refl ({ y with boot := { y.boot with patchRuns := y.boot.patch.isSome, kick := y.clk.tclk } } : Dev))
  rw [he]
  refine ⟨hs.mode.trans ((mode_congr rfl).trans hym), ?_, ?_⟩
  · rw [hs.boot]
    show y.boot.patch.isSome = _
    rw [hyb, hxb]
    rfl
  · rw [hs.boot]
    exact hyt

theorem Dev.rewriteRetry_spec {d : Dev} {w : NvmWork} (h : d.nvmc.parked = some w) :
    d.rewriteRetry.nvmc.parked = none ∧ d.rewriteRetry.nvmc.queue = d.nvmc.queue ++ [w] ∧ d.rewriteRetry.flt = d.flt := by
  unfold Dev.rewriteRetry
  rw [h]
  exact ⟨rfl, rfl, rfl⟩

/-- A verified stream whose class is bootable is loaded (09 R243). -/
theorem Dev.streamVerify_good {d : Dev} {corr : Bool} {bad : List Nat} (h : d.atStage 7 = true)
    (hb : bootable (d.stageSrc.classify d.clk.xoin corr bad).1 = true) :
    d.streamVerify corr bad = { d.setStage 9 with boot := { d.boot with src := 2, next := none } } := by
  unfold Dev.streamVerify
  rw [if_neg (by rw [h]; decide)]
  exact if_pos hb

theorem Dev.streamVerify_bad {d : Dev} {corr : Bool} {bad : List Nat} (h : d.atStage 7 = true)
    (hb : bootable (d.stageSrc.classify d.clk.xoin corr bad).1 = false) :
    d.streamVerify corr bad = { d.setStage 8 with
      boot := { d.boot with diagH := (d.stageSrc.classify d.clk.xoin corr bad).2, next := none } } := by
  unfold Dev.streamVerify
  rw [if_neg (by rw [h]; decide)]
  exact if_neg (by rw [hb]; decide)

/-- Settles O16: each part is what its command does on the edge; the edge's end leaves it. -/
theorem bootLoadAndApply : Obligations.BootLoadAndApply := by
  refine ⟨fun s dt => ⟨fun bad h => ?_, fun h => ?_, fun h hs => ?_, fun w hw hc => ?_⟩, fun s dt corr bad c hs h7 hc => ⟨fun hb => ?_, fun hb => ?_⟩⟩
  · exact Effects.of_run rfl (Dev.bootLoad_stage (d := s.dev.advance dt) h bad)
  · exact Effects.of_run rfl (Dev.imageApply_spec (d := s.dev.advance dt) h)
  · have hid : (s.dev.advance dt).imageApply = s.dev.advance dt := by
      unfold Dev.imageApply
      exact if_pos (by rw [show (s.dev.advance dt).mayApply = false from h]; decide)
    refine Completes.of_steady rfl (by rw [hid]; exact hs.advance dt) fun t ht => ?_
    rw [hid] at ht
    exact ⟨ht.mode, ht.stage⟩
  · obtain ⟨hp, hq, hf⟩ := Dev.rewriteRetry_spec (d := s.dev.advance dt) hw
    refine Completes.of_calm rfl ((hc.advance dt).of_flt hf) fun t ht => ?_
    rw [ht.nvmc]
    exact ⟨hp, hq⟩
  · have hv := Dev.streamVerify_good (d := s.dev.advance dt) (corr := corr) (bad := bad) h7 (by rw [← hc] at hb; exact hb)
    refine Completes.of_steady rfl (by rw [hv]; exact ((hs.advance dt).setStage 9).setBoot _) fun t ht => ?_
    rw [hv] at ht
    exact ⟨ht.stage.trans ((Dev.stage_setBoot _ _).trans (Dev.stage_setStage _ (by decide))), congrArg Boot.src ht.boot⟩
  · have hv := Dev.streamVerify_bad (d := s.dev.advance dt) (corr := corr) (bad := bad) h7 (by rw [← hc] at hb; exact hb)
    refine Completes.of_steady rfl (by rw [hv]; exact ((hs.advance dt).setStage 8).setBoot _) fun t ht => ?_
    rw [hv] at ht
    refine ⟨ht.stage.trans ((Dev.stage_setBoot _ _).trans (Dev.stage_setStage _ (by decide))), ?_, congrArg Boot.next ht.boot⟩
    exact (congrArg Boot.diagH ht.boot).trans (congrArg Prod.snd hc)

end Sys2Proof.Machine
end

section
/-!
PROOF. The holdover bank, the check schedule, and the commands of the check-value units (12 R327, R336 to R338; O35, O36).
-/

namespace Sys2Proof.Machine

/-! ### What reads of the array show -/

/-- The array as reads see it is the same in both devices. -/
structure SeesAs (d e : Dev) : Prop where
  nvm : e.nvm = d.nvm
  errs : e.nvmErrs = d.nvmErrs
  ones : e.nvmOnes = d.nvmOnes
  rails : e.railLow = d.railLow

theorem SeesAs.dark {d e : Dev} (h : SeesAs d e) : e.nvmDark = d.nvmDark := by
  unfold Dev.nvmDark
  rw [h.rails]

theorem SeesAs.seen {d e : Dev} (h : SeesAs d e) : e.nvmSeen = d.nvmSeen := by
  unfold Dev.nvmSeen
  rw [h.dark, h.nvm]

theorem SeesAs.group {d e : Dev} (h : SeesAs d e) : e.group = d.group := by
  funext a
  unfold Dev.group
  rw [h.seen]

theorem SeesAs.groupBad {d e : Dev} (h : SeesAs d e) : e.groupBad = d.groupBad := by
  funext a
  unfold Dev.groupBad
  rw [h.errs, h.dark]

theorem SeesAs.bankSeq {d e : Dev} (h : SeesAs d e) : e.bankSeq = d.bankSeq := by
  funext b
  unfold Dev.bankSeq
  rw [h.group, h.groupBad]

theorem SeesAs.bankPlan {d e : Dev} (h : SeesAs d e) : e.bankPlan = d.bankPlan := by
  funext b
  unfold Dev.bankPlan
  rw [h.bankSeq, h.group]

theorem SeesAs.nextBankSeq {d e : Dev} (h : SeesAs d e) : e.nextBankSeq = d.nextBankSeq := by
  unfold Dev.nextBankSeq
  rw [h.bankSeq]

theorem Dev.slotPlan_advance (d : Dev) (dt : Nat) : (d.advance dt).slotPlan = d.slotPlan := by
  funext k
  unfold Dev.slotPlan
  rfl

/-! ### The core's schedules (O35) -/

theorem Dev.holdBankTick_learning {d : Dev} (models : List HoldModel) (h : (d.pads.any fun p => p.learn) = true) :
    (d.holdBankTick models).nvmc.models = models ∧ (d.holdBankTick models).nvmc.queue = d.nvmc.queue ++
      [NvmWork.new (.holdBank (1 - d.nvmc.holdLast) d.nextBankSeq (d.rd DEV_IMG_PLAN_PLAN_ID)
        ((List.range 16).map fun n => (d.pad n).learnSensor) models)] := by
  have he : d.holdBankTick models = ({ d with nvmc := { d.nvmc with models := models } } : Dev).writeBank := by
    unfold Dev.holdBankTick
    exact if_pos h
  have hseq : ({ d with nvmc := { d.nvmc with models := models } } : Dev).nextBankSeq = d.nextBankSeq :=
    SeesAs.nextBankSeq ⟨rfl, rfl, rfl, rfl⟩
  rw [he]
  unfold Dev.writeBank
  rw [hseq]
  exact ⟨rfl, rfl⟩

theorem Dev.holdBankTick_idle {d : Dev} (models : List HoldModel) (h : (d.pads.any fun p => p.learn) = false) :
    d.holdBankTick models = d := by
  unfold Dev.holdBankTick
  exact if_neg (by rw [h]; decide)

/-- The background checks waiting after a tick of the schedule (R337). -/
def Dev.planned (d : Dev) : List ChkPlan := d.chk.plan ++ ([0, 1].filterMap d.slotPlan ++ [0, 1].filterMap d.bankPlan)

/-- The device once the tick has added to the checks waiting. -/
def Dev.planAdded (d : Dev) : Dev := { d with chk := { d.chk with plan := d.planned } }

theorem Dev.planned_advance (d : Dev) (dt : Nat) : (d.advance dt).planned = d.planned := by
  unfold Dev.planned
  rw [Dev.slotPlan_advance, SeesAs.bankPlan (d := d) (e := d.advance dt) ⟨rfl, rfl, rfl, rfl⟩]
  rfl

theorem Dev.checkTick_eq (d : Dev) : d.checkTick = d.planAdded.chkNext := rfl

theorem Dev.checkTick_busy {d : Dev} (h : d.flag (CHK_STAT_BUSY 3) = true) : d.checkTick = d.planAdded := by
  rw [Dev.checkTick_eq]
  unfold Dev.chkNext
  split
  · rfl
  · exact if_pos h

/-- The unit of a background check. -/
def ChkPlan.unit (p : ChkPlan) : ChkUnit := ⟨0, false, true, true, p.start, p.len, p.tag, 0, p.exp, p.expc, none⟩

theorem Dev.checkTick_next {d : Dev} {p : ChkPlan} {rest : List ChkPlan} (h : d.flag (CHK_STAT_BUSY 3) = false)
    (hp : d.planned = p :: rest) :
    d.checkTick = ({ d.planAdded with chk := { d.planAdded.chk with plan := rest } } : Dev).chkBegin 3 2 p.unit := by
  rw [Dev.checkTick_eq]
  unfold Dev.chkNext
  rw [show d.planAdded.chk.plan = p :: rest from hp]
  exact if_neg (by rw [show d.planAdded.flag (CHK_STAT_BUSY 3) = false from h]; decide)

/-- The status of a unit whose job begins. -/
def chkBegun (m : Nat) : Nat := setBits (setBits 0 31 31 1) 22 20 m

theorem chkBegun_fields {m : Nat} (hm : m < 8) : bitsOf (Word.of (chkBegun m)).toNat 31 31 = 1 ∧
    bitsOf (Word.of (chkBegun m)).toNat 22 20 = m := by
  revert m
  decide

theorem Dev.chkBegin_word (d : Dev) (u m : Nat) (c : ChkUnit) : (d.chkBegin u m c).word (rCHK_STAT u) = Word.of (chkBegun m) :=
  (Dev.word_with_chk _ _ _).trans (Dev.word_setWord_self d (rCHK_STAT u) _)

theorem Dev.flag_of_bitsOf {d : Dev} {a k : Nat} (h : bitsOf (d.word a).toNat k k = 1) : d.flag ⟨a, k, k⟩ = true := by
  unfold Dev.flag Dev.rd
  rw [h]
  rfl

theorem Dev.chkBegin_busy (d : Dev) (u : Nat) {m : Nat} (hm : m < 8) (c : ChkUnit) :
    (d.chkBegin u m c).flag (CHK_STAT_BUSY u) = true ∧ (d.chkBegin u m c).rd (CHK_STAT_MASTER u) = m := by
  obtain ⟨hbusy, hmaster⟩ := chkBegun_fields hm
  have hword := Dev.chkBegin_word d u m c
  refine ⟨Dev.flag_of_bitsOf (by rw [hword]; exact hbusy), ?_⟩
  unfold Dev.rd
  rw [show (CHK_STAT_MASTER u).addr = rCHK_STAT u from rfl, hword]
  exact hmaster

theorem getD_updAt_self {α : Type} {l : List α} {n : Nat} (f : α → α) (z : α) (h : n < l.length) :
    (updAt l n f).getD n z = f (l.getD n z) := by
  unfold updAt
  simp [List.getD_eq_getElem?_getD, h]

theorem getD_updAt_of_ne {α : Type} {l : List α} {k n : Nat} (f : α → α) (z : α) (h : k ≠ n) :
    (updAt l n f).getD k z = l.getD k z := by
  unfold updAt
  simp [List.getD_eq_getElem?_getD, Ne.symm h]

theorem Dev.chkBegin_unit (d : Dev) {u : Nat} (m : Nat) (c : ChkUnit) (hu : u < d.chk.units.length) :
    (d.chkBegin u m c).chkUnit u = c := getD_updAt_self (fun _ => c) ChkUnit.fresh hu

/-- Settles O35: the tick writes a bank where some paddock learns, and a tick of the schedule adds the checks of the day. -/
theorem coreSchedules : Obligations.CoreSchedules := by
  intro s dt
  refine ⟨fun models h => ?_, fun models h => ?_, fun plan hplan => ⟨fun h => ?_, fun p rest hlen h hp => ?_⟩⟩
  · refine Effects.of_run rfl ?_
    obtain ⟨hmodels, hqueue⟩ := Dev.holdBankTick_learning (d := s.dev.advance dt) models h
    rw [SeesAs.nextBankSeq (d := s.dev) (e := s.dev.advance dt) ⟨rfl, rfl, rfl, rfl⟩] at hqueue
    exact ⟨hmodels, hqueue⟩
  · refine Effects.of_run rfl ?_
    rw [Dev.holdBankTick_idle (d := s.dev.advance dt) models h]
    rfl
  · refine Effects.of_run rfl ?_
    rw [Dev.checkTick_busy (d := s.dev.advance dt) h]
    exact ⟨(s.dev.planned_advance dt).trans hplan.symm, rfl⟩
  · refine Effects.of_run rfl ?_
    rw [Dev.checkTick_next (d := s.dev.advance dt) (p := p) (rest := rest) h
      ((s.dev.planned_advance dt).trans (hplan.symm.trans hp))]
    obtain ⟨hbusy, hmaster⟩ := Dev.chkBegin_busy
      ({ (s.dev.advance dt).planAdded with chk := { (s.dev.advance dt).planAdded.chk with plan := rest } } : Dev) 3 (m := 2)
      (by decide) p.unit
    exact ⟨rfl, hbusy, hmaster, Dev.chkBegin_unit _ 2 _ hlen⟩

/-! ### GO and ABORT (O36) -/

theorem Fld.apart_bits {a hi lo hi' lo' : Nat} (h : (lo' ≤ hi' ∧ hi' < 32) ∧ lo ≤ hi ∧ (hi < lo' ∨ hi' < lo)) :
    Fld.apart ⟨a, hi, lo⟩ ⟨a, hi', lo'⟩ := ⟨h.1, h.2.1, Or.inr h.2.2⟩

/-- An accepted write of a command register without RW and RWS bits. -/
theorem Dev.write_bare {d : Dev} {m a w : Nat} {r : RegRow} (h : d.Grants m a) (hr : rowAt a = some r)
    (hp : plainCommand a r = true) (hrw : r.rw = 0) (hrws : r.rws = 0) (hw : w < 2 ^ 32) :
    ∃ o, d.write m a w = ((({ d with outside := o } : Dev)).command m a w).accessEdge := by
  have hmod : w % 2 ^ 32 = w := Nat.mod_eq_of_lt hw
  obtain ⟨o, ho⟩ := d.noteReserved_outside r w
  refine ⟨o, ?_⟩
  rw [Dev.write_command h hr hp, hmod, ho, Dev.writeRws_of_zero _ _ hrws]
  unfold Dev.writeRw
  rw [if_pos hrw]

/-- An accepted write of CHK_u_CMD. -/
theorem Dev.write_chkCmd {d : Dev} {m u w : Nat} (hu : u < 4) (h : d.Grants m (rCHK_CMD u)) (hw : w < 2 ^ 32) :
    ∃ o, d.write m (rCHK_CMD u) w = ((({ d with outside := o } : Dev)).chkCmd u m w).accessEdge := by
  have row : ∃ r, rowAt (rCHK_CMD u) = some r ∧ plainCommand (rCHK_CMD u) r = true ∧ r.rw = 0 ∧ r.rws = 0 := by
    interval_cases u <;> exact ⟨_, rfl, by decide, rfl, rfl⟩
  obtain ⟨r, hr, hp, hrw, hrws⟩ := row
  have hcmd : ∀ x : Dev, x.command m (rCHK_CMD u) w = x.chkCmd u m w := fun x => by interval_cases u <;> rfl
  obtain ⟨o, ho⟩ := Dev.write_bare h hr hp hrw hrws hw
  exact ⟨o, ho.trans (by rw [hcmd])⟩

/-- What a unit's command reads is not in what the write of CHK_u_CMD has noted. -/
theorem Effects.of_chkCmd {s : State} {c : Instr} {dt m u w : Nat} {P : Dev → Prop} (hu : u < 4) (hg : s.dev.Grants m (rCHK_CMD u))
    (hrun : exec c s = run dt (within u 4 (Dev.write m (rCHK_CMD u) w)) s) (hw : w < 2 ^ 32)
    (ha : ∀ x : Dev, P x → P x.accessEdge) (hp : ∀ o, P (({ s.dev.advance dt with outside := o } : Dev).chkCmd u m w)) :
    Effects c s P := by
  refine Effects.of_run hrun ?_
  obtain ⟨o, ho⟩ := Dev.write_chkCmd hu (hg.advance dt) hw
  rw [within_of_lt hu, ho]
  exact ha _ (hp o)

theorem Dev.chkCmd_go (d : Dev) (u m : Nat) : d.chkCmd u m (2 ^ 31) = d.chkGo u m := by
  have h31 : (2 ^ 31).testBit 31 = true := by decide
  have h30 : (2 ^ 31).testBit 30 = false := by decide
  unfold Dev.chkCmd
  rw [h31, h30, if_neg (by decide), if_pos rfl]

theorem Dev.chkCmd_abort (d : Dev) (u m : Nat) : d.chkCmd u m (2 ^ 30) = d.chkAbort u m := by
  have h31 : (2 ^ 30).testBit 31 = false := by decide
  have h30 : (2 ^ 30).testBit 30 = true := by decide
  unfold Dev.chkCmd
  rw [h31, h30, if_neg (by decide), if_neg (by decide), if_pos rfl]

/-- The status of a unit whose job is refused. -/
def chkRefusedStat (m : Nat) : Nat := setBits (setBits 0 30 29 3) 22 20 m

theorem chkRefusedStat_fields {m : Nat} (hm : m < 8) : bitsOf (Word.of (chkRefusedStat m)).toNat 31 31 = 0 ∧
    bitsOf (Word.of (chkRefusedStat m)).toNat 30 29 = 3 ∧ bitsOf (Word.of (chkRefusedStat m)).toNat 22 20 = m := by
  revert m
  decide

theorem chkEvt_ne (u : Nat) : rCHK_STAT u ≠ rCHK_EVT u := by
  unfold rCHK_STAT rCHK_EVT
  omega

theorem Dev.chkRefuse_spec (d : Dev) (u : Nat) {m : Nat} (hm : m < 8) :
    (d.chkRefuse u m).flag (CHK_STAT_BUSY u) = false ∧ (d.chkRefuse u m).rd (CHK_STAT_END u) = 3 ∧
      (d.chkRefuse u m).rd (CHK_STAT_MASTER u) = m ∧ (d.chkRefuse u m).flag (CHK_EVT_REJECT u) = true := by
  obtain ⟨hbusy, hend, hmaster⟩ := chkRefusedStat_fields hm
  have hword : (d.chkRefuse u m).word (rCHK_STAT u) = Word.of (chkRefusedStat m) :=
    (Dev.word_evt_of_ne _ _ _ (chkEvt_ne u)).trans (Dev.word_setWord_self _ _ _)
  refine ⟨?_, ?_, ?_, Dev.flag_evt_self _ _ rfl (show (4 : Nat) < 24 by decide)⟩
  · unfold Dev.flag Dev.rd
    rw [show (CHK_STAT_BUSY u).addr = rCHK_STAT u from rfl, hword, show bitsOf _ (CHK_STAT_BUSY u).hi (CHK_STAT_BUSY u).lo = 0 from hbusy]
    rfl
  · unfold Dev.rd
    rw [show (CHK_STAT_END u).addr = rCHK_STAT u from rfl, hword]
    exact hend
  · unfold Dev.rd
    rw [show (CHK_STAT_MASTER u).addr = rCHK_STAT u from rfl, hword]
    exact hmaster

theorem Dev.chkGo_busy {d : Dev} {u : Nat} (m : Nat) (h : d.flag (CHK_STAT_BUSY u) = true) : d.chkGo u m = d.evt (CHK_EVT_REJECT u) := by
  unfold Dev.chkGo
  exact if_pos h

theorem Dev.chkGo_refused {d : Dev} {u m : Nat} {c : ChkUnit} (hc : c = d.chkConfig u) (h : d.flag (CHK_STAT_BUSY u) = false)
    (hr : d.chkRefused u m c.start c.len c.foldBase = true) : d.chkGo u m = d.chkRefuse u m := by
  subst hc
  unfold Dev.chkGo
  rw [if_neg (by rw [h]; decide)]
  exact if_pos hr

theorem Dev.chkGo_begins {d : Dev} {u m : Nat} {c : ChkUnit} (hc : c = d.chkConfig u) (h : d.flag (CHK_STAT_BUSY u) = false)
    (hr : d.chkRefused u m c.start c.len c.foldBase = false) : d.chkGo u m = d.chkBegin u m c := by
  subst hc
  unfold Dev.chkGo
  rw [if_neg (by rw [h]; decide)]
  exact if_neg (by rw [hr]; decide)

/-- The units whose ABORT a master may write. -/
theorem chkAbort_allowed {u m : Nat} (h : u ≠ 3 ∨ m = 2 ∨ m = 7) : ¬ (u = 3 ∧ m ≠ 2 ∧ m ≠ 7) := by omega

theorem Dev.chkAbort_busy {d : Dev} {u m : Nat} (h : u ≠ 3 ∨ m = 2 ∨ m = 7) (hb : d.flag (CHK_STAT_BUSY u) = true) :
    (d.chkAbort u m).flag (CHK_STAT_BUSY u) = false ∧ (d.chkAbort u m).rd (CHK_STAT_END u) = 2 ∧
      (d.chkAbort u m).rd (CHK_STAT_ABORT_RES u) = 1 ∧ (d.chkAbort u m).rd (CHK_RES_LO_VALUE u) = 0 ∧
      (d.chkAbort u m).rd (CHK_RES_HI_VALUE u) = 0 ∧ (d.chkAbort u m).flag (CHK_EVT_ABORTED u) = true := by
  unfold Dev.chkAbort
  rw [if_neg (chkAbort_allowed h), if_pos hb]
  dsimp only
  have hev := Dev.flag_evt_self ((((((d.wr (CHK_STAT_BUSY u) 0).wr (CHK_STAT_END u) 2).wr (CHK_STAT_ABORT_RES u) 1)).wr
    (CHK_RES_LO_VALUE u) 0).wr (CHK_RES_HI_VALUE u) 0) (CHK_EVT_ABORTED u) rfl (show (3 : Nat) < 24 by decide)
  have hstat : rCHK_STAT u ≠ rCHK_EVT u ∧ rCHK_STAT u ≠ rCHK_RES_HI u ∧ rCHK_STAT u ≠ rCHK_RES_LO u := by
    unfold rCHK_STAT rCHK_EVT rCHK_RES_HI rCHK_RES_LO
    omega
  have hres : rCHK_RES_LO u ≠ rCHK_EVT u ∧ rCHK_RES_HI u ≠ rCHK_EVT u ∧ rCHK_RES_LO u ≠ rCHK_RES_HI u := by
    unfold rCHK_EVT rCHK_RES_HI rCHK_RES_LO
    omega
  obtain ⟨hse, hsh, hsl⟩ := hstat
  obtain ⟨hle, hhe, hlh⟩ := hres
  refine ⟨?_, ?_, ?_, ?_, ?_, hev⟩
  · rw [Dev.flag_evt_of_ne _ _ _ hse, Dev.flag_wr_of_ne _ _ _ _ hsh, Dev.flag_wr_of_ne _ _ _ _ hsl]
    refine (Dev.flag_of_rd ((Dev.rd_wr_apart (Fld.apart_bits (by decide)) _ _).trans (Dev.rd_wr_apart (Fld.apart_bits (by decide)) _ _))).trans ?_
    exact Dev.flag_wr_self _ (CHK_STAT_BUSY u) 0 ⟨Nat.le_refl _, show (31 : Nat) < 32 by decide⟩ rfl
  · rw [Dev.rd_evt_of_ne _ _ _ hse, Dev.rd_wr_of_ne _ _ _ _ hsh, Dev.rd_wr_of_ne _ _ _ _ hsl]
    refine (Dev.rd_wr_apart (Fld.apart_bits (by decide)) _ _).trans ?_
    exact Dev.rd_wr_self _ (CHK_STAT_END u) 2 ⟨show (29 : Nat) ≤ 30 by decide, show (30 : Nat) < 32 by decide⟩
  · rw [Dev.rd_evt_of_ne _ _ _ hse, Dev.rd_wr_of_ne _ _ _ _ hsh, Dev.rd_wr_of_ne _ _ _ _ hsl]
    exact Dev.rd_wr_self _ (CHK_STAT_ABORT_RES u) 1 ⟨show (25 : Nat) ≤ 26 by decide, show (26 : Nat) < 32 by decide⟩
  · rw [Dev.rd_evt_of_ne _ _ _ hle, Dev.rd_wr_of_ne _ _ _ _ hlh]
    exact Dev.rd_wr_self _ (CHK_RES_LO_VALUE u) 0 ⟨Nat.zero_le _, show (31 : Nat) < 32 by decide⟩
  · rw [Dev.rd_evt_of_ne _ _ _ hhe]
    exact Dev.rd_wr_self _ (CHK_RES_HI_VALUE u) 0 ⟨Nat.zero_le _, show (31 : Nat) < 32 by decide⟩

theorem Dev.chkAbort_late {d : Dev} {u m : Nat} (h : u ≠ 3 ∨ m = 2 ∨ m = 7) (hb : d.flag (CHK_STAT_BUSY u) = false)
    (hj : d.chkJustDone u = true) : (d.chkAbort u m).rd (CHK_STAT_ABORT_RES u) = 2 := by
  unfold Dev.chkAbort
  rw [if_neg (chkAbort_allowed h), if_neg (by rw [hb]; decide), if_pos hj]
  exact Dev.rd_wr_self _ (CHK_STAT_ABORT_RES u) 2 ⟨show (25 : Nat) ≤ 26 by decide, show (26 : Nat) < 32 by decide⟩

theorem Dev.chkAbort_idle {d : Dev} {u m : Nat} (h : u ≠ 3 ∨ m = 2 ∨ m = 7) (hb : d.flag (CHK_STAT_BUSY u) = false)
    (hj : d.chkJustDone u = false) :
    (d.chkAbort u m).rd (CHK_STAT_ABORT_RES u) = 3 ∧ (d.chkAbort u m).flag (CHK_EVT_REJECT u) = true := by
  unfold Dev.chkAbort
  rw [if_neg (chkAbort_allowed h), if_neg (by rw [hb]; decide), if_neg (by rw [hj]; decide)]
  refine ⟨(Dev.rd_evt_of_ne _ _ _ (chkEvt_ne u)).trans ?_, Dev.flag_evt_self _ _ rfl (show (4 : Nat) < 24 by decide)⟩
  exact Dev.rd_wr_self _ (CHK_STAT_ABORT_RES u) 3 ⟨show (25 : Nat) ≤ 26 by decide, show (26 : Nat) < 32 by decide⟩

theorem Dev.chkAbort_other {d : Dev} {u m : Nat} (hu : u = 3) (h2 : m ≠ 2) (h7 : m ≠ 7) :
    d.chkAbort u m = d.evt (CHK_EVT_REJECT u) := by
  unfold Dev.chkAbort
  exact if_pos ⟨hu, h2, h7⟩

/-- A rejected command of a unit: it is noted, and neither the unit nor its status changes. -/
theorem Dev.chkReject_spec (d : Dev) (u : Nat) : (d.evt (CHK_EVT_REJECT u)).flag (CHK_EVT_REJECT u) = true ∧
    (d.evt (CHK_EVT_REJECT u)).word (rCHK_STAT u) = d.word (rCHK_STAT u) ∧ (d.evt (CHK_EVT_REJECT u)).chk = d.chk :=
  ⟨Dev.flag_evt_self _ _ rfl (show (4 : Nat) < 24 by decide), Dev.word_evt_of_ne _ _ _ (chkEvt_ne u), Dev.evt_chk _ _⟩

/-- Settles O36: an accepted write of CHK_u_CMD does what its command bit asks of the unit as it stands. -/
theorem checkCommands : Obligations.CheckCommands := by
  intro s dt m u hu hm hg
  refine ⟨fun hb => ?_, fun c hc hb => ⟨fun hr => ?_, fun hr hlen => ?_⟩, fun h => ⟨fun hb => ?_, fun hb hj => ?_, fun hb hj => ?_⟩,
    fun h3 h2 h7 => ?_⟩
  · refine Effects.of_chkCmd hu hg rfl (by decide) (fun _ h => h) fun o => ?_
    rw [Dev.chkCmd_go, Dev.chkGo_busy m (d := { s.dev.advance dt with outside := o }) hb]
    exact Dev.chkReject_spec { s.dev.advance dt with outside := o } u
  · refine Effects.of_chkCmd hu hg rfl (by decide) (fun _ h => h) fun o => ?_
    rw [Dev.chkCmd_go, Dev.chkGo_refused (d := { s.dev.advance dt with outside := o }) hc hb hr]
    exact Dev.chkRefuse_spec { s.dev.advance dt with outside := o } u hm
  · refine Effects.of_chkCmd hu hg rfl (by decide) (fun _ h => h) fun o => ?_
    rw [Dev.chkCmd_go, Dev.chkGo_begins (d := { s.dev.advance dt with outside := o }) hc hb hr]
    obtain ⟨hbusy, hmaster⟩ := Dev.chkBegin_busy { s.dev.advance dt with outside := o } u hm c
    exact ⟨hbusy, hmaster, Dev.chkBegin_unit { s.dev.advance dt with outside := o } m c hlen⟩
  · refine Effects.of_chkCmd hu hg rfl (by decide) (fun _ h => h) fun o => ?_
    rw [Dev.chkCmd_abort]
    exact Dev.chkAbort_busy (d := { s.dev.advance dt with outside := o }) h hb
  · refine Effects.of_chkCmd hu hg rfl (by decide) (fun _ h => h) fun o => ?_
    rw [Dev.chkCmd_abort]
    exact Dev.chkAbort_late (d := { s.dev.advance dt with outside := o }) h hb hj
  · refine Effects.of_chkCmd hu hg rfl (by decide) (fun _ h => h) fun o => ?_
    rw [Dev.chkCmd_abort]
    exact Dev.chkAbort_idle (d := { s.dev.advance dt with outside := o }) h hb hj
  · refine Effects.of_chkCmd hu hg rfl (by decide) (fun _ h => h) fun o => ?_
    rw [Dev.chkCmd_abort, Dev.chkAbort_other h3 h2 h7]
    obtain ⟨hflag, hword, -⟩ := Dev.chkReject_spec { s.dev.advance dt with outside := o } u
    exact ⟨hflag, hword⟩

end Sys2Proof.Machine
end

section
/-!
PROOF. The end of a check job (12 R335, R336, R338; O37).
-/

namespace Sys2Proof.Machine

/-! ### The words of a job -/

/-- `e` is `d` but for the copies that masters hold. -/
def CopiesOnly (d e : Dev) : Prop := ∃ p, e = { d with perMaster := p }

namespace CopiesOnly

variable {d e f : Dev}

theorem refl (d : Dev) : CopiesOnly d d := ⟨_, rfl⟩

theorem trans (h : CopiesOnly d e) (h' : CopiesOnly e f) : CopiesOnly d f := by
  obtain ⟨p, rfl⟩ := h
  obtain ⟨q, rfl⟩ := h'
  exact ⟨q, rfl⟩

theorem setPmWord (d : Dev) (m a : Nat) (w : Word) : CopiesOnly d (d.setPmWord m a w) := ⟨_, rfl⟩

theorem regRead (d : Dev) (m a : Nat) : CopiesOnly d (d.regRead m a).2 := by
  unfold Dev.regRead
  split
  · exact (((setPmWord ..).trans (setPmWord ..)).trans (setPmWord ..)).trans (setPmWord ..)
  · split
    · exact refl d
    · split
      · exact setPmWord ..
      · exact refl d

/-- A read of a register changes the latches of its master alone. -/
theorem readReg (d : Dev) (m a : Nat) : CopiesOnly d (d.readReg m a).2 := by
  unfold Dev.readReg
  split
  · exact refl d
  · obtain ⟨p, hp⟩ := regRead d.asRead m a
    dsimp only
    rw [hp]
    exact ⟨p, rfl⟩

theorem chkWord (d : Dev) (a : Nat) : CopiesOnly d (d.chkWord a).2 := by
  unfold Dev.chkWord
  split
  · exact (readReg d 3 a).trans (readReg _ 3 (a + 4))
  · split
    · exact refl d
    · exact refl d

theorem chkReads (n : Nat) : ∀ (a : Nat) (d : Dev), CopiesOnly d (d.chkReads n a).2 := by
  induction n with
  | zero => exact fun a d => refl d
  | succ n ih => exact fun a d => (chkWord d a).trans (ih (a + 8) (d.chkWord a).2)

theorem rd (h : CopiesOnly d e) (f : Fld) : e.rd f = d.rd f := by
  obtain ⟨p, rfl⟩ := h
  exact Dev.rd_congr rfl f

end CopiesOnly

/-! ### What the end of a job stores -/

/-- RES, END and VERDICT of a job that ends, its count and its event. -/
def Dev.chkStored (u res v : Nat) (bad : Bool) (d : Dev) : Dev :=
  let d := ((d.wr (CHK_RES_LO_VALUE u) (lo32 res)).wr (CHK_RES_HI_VALUE u) (hi32 res)).wr (CHK_STAT_BUSY u) 0
  let d := ((d.wr (CHK_STAT_END u) 1).wr (CHK_STAT_VERDICT u) v).wr (CHK_STAT_ECC u) (b2n bad)
  ((d.bump (CHK_JOBS_COUNT u)).evt (CHK_EVT_DONE u)).setChk u fun c => { c with doneAt := some d.clk.tclk }

/-- What the end of a job has stored of its unit, `d` being the device before. -/
structure ChkStored (u res v : Nat) (bad : Bool) (d e : Dev) : Prop where
  lo : e.rd (CHK_RES_LO_VALUE u) = res % 2 ^ 32
  hi : e.rd (CHK_RES_HI_VALUE u) = res / 2 ^ 32 % 2 ^ 32
  busy : e.flag (CHK_STAT_BUSY u) = false
  done : e.rd (CHK_STAT_END u) = 1
  verdict : e.rd (CHK_STAT_VERDICT u) = v % 4
  ecc : e.flag (CHK_STAT_ECC u) = bad
  jobs : e.rd (CHK_JOBS_COUNT u) = (d.rd (CHK_JOBS_COUNT u) + 1) % 2 ^ 32
  evt : e.flag (CHK_EVT_DONE u) = true

/-- The registers of a unit other than its events. -/
def ChkRes (u a : Nat) : Prop := a = rCHK_RES_LO u ∨ a = rCHK_RES_HI u ∨ a = rCHK_STAT u ∨ a = rCHK_JOBS u ∨ a = rCHK_EVT u

theorem Dev.only_chkStored (u res v : Nat) (bad : Bool) (d : Dev) : OnlyRegs (ChkRes u) d (d.chkStored u res v bad) := by
  have lo : ChkRes u (rCHK_RES_LO u) := Or.inl rfl
  have hi : ChkRes u (rCHK_RES_HI u) := Or.inr (Or.inl rfl)
  have stat : ChkRes u (rCHK_STAT u) := Or.inr (Or.inr (Or.inl rfl))
  have jobs : ChkRes u (rCHK_JOBS u) := Or.inr (Or.inr (Or.inr (Or.inl rfl)))
  have evt : ChkRes u (rCHK_EVT u) := Or.inr (Or.inr (Or.inr (Or.inr rfl)))
  have stored := (((((OnlyRegs.refl (ChkRes u) d).wr (CHK_RES_LO_VALUE u) (lo32 res) lo).wr (CHK_RES_HI_VALUE u) (hi32 res) hi).wr
    (CHK_STAT_BUSY u) 0 stat).wr (CHK_STAT_END u) 1 stat).wr (CHK_STAT_VERDICT u) v stat
  exact (((stored.wr (CHK_STAT_ECC u) (b2n bad) stat).bump (CHK_JOBS_COUNT u) jobs).evt (CHK_EVT_DONE u) evt).setChk _

theorem Dev.rd_setChk (d : Dev) (u : Nat) (f : ChkUnit → ChkUnit) (g : Fld) : (d.setChk u f).rd g = d.rd g :=
  Dev.rd_with_chk ..

/-- The words of the result. -/
theorem Dev.chkResult_spec (u res : Nat) (d x : Dev)
    (hx : x = ((d.wr (CHK_RES_LO_VALUE u) (lo32 res)).wr (CHK_RES_HI_VALUE u) (hi32 res)).wr (CHK_STAT_BUSY u) 0) :
    x.rd (CHK_RES_LO_VALUE u) = res % 2 ^ 32 ∧ x.rd (CHK_RES_HI_VALUE u) = res / 2 ^ 32 % 2 ^ 32 ∧ x.rd (CHK_STAT_BUSY u) = 0 ∧
      x.rd (CHK_JOBS_COUNT u) = d.rd (CHK_JOBS_COUNT u) := by
  have hw : (0 : Nat) ≤ 31 ∧ (31 : Nat) < 32 := by decide
  have hl : rCHK_RES_LO u ≠ rCHK_STAT u ∧ rCHK_RES_LO u ≠ rCHK_RES_HI u := by unfold rCHK_RES_LO rCHK_RES_HI rCHK_STAT; omega
  have hh : rCHK_RES_HI u ≠ rCHK_STAT u := by unfold rCHK_RES_HI rCHK_STAT; omega
  have hj : rCHK_JOBS u ≠ rCHK_STAT u ∧ rCHK_JOBS u ≠ rCHK_RES_HI u ∧ rCHK_JOBS u ≠ rCHK_RES_LO u := by
    unfold rCHK_JOBS rCHK_RES_LO rCHK_RES_HI rCHK_STAT; omega
  rw [hx]
  refine ⟨?_, ?_, Dev.rd_wr_self _ (CHK_STAT_BUSY u) 0 ⟨Nat.le_refl _, show (31 : Nat) < 32 by decide⟩, ?_⟩
  · rw [Dev.rd_wr_of_ne _ _ _ _ hl.1, Dev.rd_wr_of_ne _ _ _ _ hl.2, Dev.rd_wr_self _ (CHK_RES_LO_VALUE u) _ hw]
    exact Nat.mod_mod _ _
  · rw [Dev.rd_wr_of_ne _ _ _ _ hh, Dev.rd_wr_self _ (CHK_RES_HI_VALUE u) _ hw]
    rfl
  · rw [Dev.rd_wr_of_ne _ _ _ _ hj.1, Dev.rd_wr_of_ne _ _ _ _ hj.2.1, Dev.rd_wr_of_ne _ _ _ _ hj.2.2]

/-- The status of the end. -/
theorem Dev.chkEnd_spec (u v : Nat) (bad : Bool) (x y : Dev)
    (hy : y = ((x.wr (CHK_STAT_END u) 1).wr (CHK_STAT_VERDICT u) v).wr (CHK_STAT_ECC u) (b2n bad)) :
    y.rd (CHK_STAT_BUSY u) = x.rd (CHK_STAT_BUSY u) ∧ y.rd (CHK_STAT_END u) = 1 ∧ y.rd (CHK_STAT_VERDICT u) = v % 4 ∧
      y.rd (CHK_STAT_ECC u) = b2n bad ∧ ∀ f : Fld, f.addr ≠ rCHK_STAT u → y.rd f = x.rd f := by
  rw [hy]
  refine ⟨?_, ?_, ?_, ?_, fun f hf => ?_⟩
  · exact ((Dev.rd_wr_apart (Fld.apart_bits (by decide)) _ _).trans (Dev.rd_wr_apart (Fld.apart_bits (by decide)) _ _)).trans
      (Dev.rd_wr_apart (Fld.apart_bits (by decide)) _ _)
  · exact ((Dev.rd_wr_apart (Fld.apart_bits (by decide)) _ _).trans (Dev.rd_wr_apart (Fld.apart_bits (by decide)) _ _)).trans
      (Dev.rd_wr_self _ (CHK_STAT_END u) 1 ⟨show (29 : Nat) ≤ 30 by decide, show (30 : Nat) < 32 by decide⟩)
  · exact (Dev.rd_wr_apart (Fld.apart_bits (by decide)) _ _).trans
      (Dev.rd_wr_self _ (CHK_STAT_VERDICT u) v ⟨show (27 : Nat) ≤ 28 by decide, show (28 : Nat) < 32 by decide⟩)
  · refine (Dev.rd_wr_self _ (CHK_STAT_ECC u) (b2n bad) ⟨Nat.le_refl _, show (24 : Nat) < 32 by decide⟩).trans ?_
    cases bad <;> exact show _ % 2 ^ (24 - 24 + 1) = _ by decide
  · exact ((Dev.rd_wr_of_ne _ _ _ _ hf).trans (Dev.rd_wr_of_ne _ _ _ _ hf)).trans (Dev.rd_wr_of_ne _ _ _ _ hf)

theorem Dev.chkStored_spec (u res v : Nat) (bad : Bool) (d : Dev) : ChkStored u res v bad d (d.chkStored u res v bad) := by
  have hs : rCHK_STAT u ≠ rCHK_EVT u ∧ rCHK_STAT u ≠ rCHK_JOBS u := by unfold rCHK_STAT rCHK_EVT rCHK_JOBS; omega
  have hl : rCHK_RES_LO u ≠ rCHK_EVT u ∧ rCHK_RES_LO u ≠ rCHK_JOBS u ∧ rCHK_RES_LO u ≠ rCHK_STAT u := by
    unfold rCHK_RES_LO rCHK_EVT rCHK_JOBS rCHK_STAT; omega
  have hh : rCHK_RES_HI u ≠ rCHK_EVT u ∧ rCHK_RES_HI u ≠ rCHK_JOBS u ∧ rCHK_RES_HI u ≠ rCHK_STAT u := by
    unfold rCHK_RES_HI rCHK_EVT rCHK_JOBS rCHK_STAT; omega
  have hj : rCHK_JOBS u ≠ rCHK_EVT u ∧ rCHK_JOBS u ≠ rCHK_STAT u := by unfold rCHK_JOBS rCHK_EVT rCHK_STAT; omega
  unfold Dev.chkStored
  extract_lets x y
  obtain ⟨xlo, xhi, xbusy, xjobs⟩ := Dev.chkResult_spec u res d x rfl
  obtain ⟨ybusy, yend, yverdict, yecc, yother⟩ := Dev.chkEnd_spec u v bad x y rfl
  clear_value x y
  have past : ∀ f : Fld, f.addr ≠ rCHK_EVT u → f.addr ≠ rCHK_JOBS u →
      (((y.bump (CHK_JOBS_COUNT u)).evt (CHK_EVT_DONE u)).setChk u fun c => { c with doneAt := some y.clk.tclk }).rd f = y.rd f :=
    fun f he hn => ((Dev.rd_setChk ..).trans (Dev.rd_evt_of_ne _ _ _ he)).trans (Dev.rd_wr_of_ne _ _ _ _ hn)
  constructor
  · exact ((past _ hl.1 hl.2.1).trans (yother _ hl.2.2)).trans xlo
  · exact ((past _ hh.1 hh.2.1).trans (yother _ hh.2.2)).trans xhi
  · have := ((past (CHK_STAT_BUSY u) hs.1 hs.2).trans ybusy).trans xbusy
    unfold Dev.flag
    rw [this]
    rfl
  · exact (past _ hs.1 hs.2).trans yend
  · exact (past _ hs.1 hs.2).trans yverdict
  · have := (past (CHK_STAT_ECC u) hs.1 hs.2).trans yecc
    unfold Dev.flag
    rw [this]
    cases bad <;> rfl
  · refine (Dev.rd_setChk ..).trans ((Dev.rd_evt_of_ne _ _ _ hj.1).trans ?_)
    refine (Dev.rd_wr_self _ (CHK_JOBS_COUNT u) _ ⟨Nat.zero_le _, show (31 : Nat) < 32 by decide⟩).trans ?_
    rw [yother _ hj.2, xjobs]
    rfl
  · refine (Dev.flag_of_rd (Dev.rd_setChk ..)).trans ?_
    exact Dev.flag_evt_self _ (CHK_EVT_DONE u) rfl (show (0 : Nat) < 24 by decide)

/-! ### The firings of the end -/

/-- The registers that the firings of a job's end reach. -/
def ChkFires (u a : Nat) : Prop := a = rCHK_EVT u ∨ firingAt a

theorem not_firingAt_chk {a : Nat} (h : 0x080000 ≤ a) (h' : a < 0x080200) : ¬ firingAt a := by
  unfold firingAt
  omega

theorem Dev.only_chkVerdict (u v start : Nat) (d : Dev) : OnlyRegs (ChkFires u) d (d.chkVerdict u v start) := by
  unfold Dev.chkVerdict
  split
  · exact ((OnlyRegs.refl _ d).evt _ (Or.inl rfl)).fireAcc _ _ _ _ _ fun _ => Or.inr
  · split
    · exact ((OnlyRegs.refl _ d).evt _ (Or.inl rfl)).fireAcc _ _ _ _ _ fun _ => Or.inr
    · exact OnlyRegs.refl _ d

/-- A verdict that fires leaves the unit's events that are set, and sets its own. -/
theorem Dev.chkBad_spec {u n : Nat} {f : Fld} (hu : u < 3) (hf : f.Bit) (ha : f.addr = rCHK_EVT u) (hn : n < 64) (start : Nat)
    (d : Dev) {e : Dev} (he : e = (d.evt f).fireAcc n u start (some 3) accScan) :
    Fired n d e ∧ e.flag f = true ∧ (∀ g : Fld, g.Bit → g.addr = rCHK_EVT u → d.flag g = true → e.flag g = true) ∧
      (∀ g : Fld, g.Bit → 0x010048 ≤ g.addr → g.addr < 0x010054 → d.flag g = true → e.flag g = true) := by
  have hr : 0x080000 ≤ rCHK_EVT u ∧ rCHK_EVT u < 0x080100 := by unfold rCHK_EVT; omega
  have keep : ∀ g : Fld, g.Bit → g.addr = rCHK_EVT u → (d.evt f).flag g = true → e.flag g = true := fun g hg hga hd =>
    he ▸ Dev.flag_fireAs_mono hg (not_fireReg (by omega) (by omega) (by omega) (by omega)) (by unfold rFLT_SEQNO; omega) hn _ _ _ _ hd
  refine ⟨?_, keep f hf ha (Dev.flag_evt_self _ f hf.1 hf.2), fun g hg hga hd => keep g hg hga (Dev.flag_evt_mono hg hf hd),
    fun g hg h1 h2 hd => ?_⟩
  · rw [he]
    exact (Dev.fireAs_fired _ _ _ _ _ _ hn).of_rd (Dev.rd_evt_of_ne _ _ _ (by simp only [FLT_SEQNO_COUNT, rFLT_SEQNO]; omega))
  · exact he ▸ Dev.flag_fireAs_mono hg (not_fireReg (by omega) (by omega) (by omega) (by omega)) (by unfold rFLT_SEQNO; omega) hn _ _ _ _
      (Dev.flag_evt_mono hg hf hd)

theorem verdict_le (w c e ec : Nat) : verdict w c e ec ≤ 3 := by
  unfold verdict
  dsimp only
  split
  · decide
  · split <;> decide

/-! ### The end of a job -/

/-- What the end of a job of unit `u` below 3 does, in its three parts. -/
theorem Dev.chkDone_eq {u : Nat} {d : Dev} {ecc : Option Nat} (hu : u < 3) (hb : d.flag (CHK_STAT_BUSY u) = true)
    (hs : d.chkStarved u = false) (he : ∀ a, ecc = some a → a < 0x200000) {res v : Nat}
    (hres : res = crcJob (d.chkUnit u).poly (d.chkUnit u).tag
      (if (d.chkUnit u).fold then some (d.chkUnit u).foldBase else none) (d.chkWords (d.chkUnit u)))
    (hv : v = if ecc.isSome then 2 else if (d.chkUnit u).cmp then
      verdict (crcKind (d.chkUnit u).poly).width res (d.chkUnit u).exp (d.chkUnit u).expc else 0) :
    ∃ x, CopiesOnly d x ∧ d.chkDone u ecc =
      (match ecc with
        | some a => (x.chkStored u res v ecc.isSome).chkEccFire a
        | none => x.chkStored u res v ecc.isSome).chkVerdict u v (d.chkUnit u).start := by
  have hecc : d.chkErr ecc = ecc := by
    cases ecc with
    | none => rfl
    | some a => simp [Dev.chkErr, he a rfl]
  refine ⟨(d.chkReads ((d.chkUnit u).len / 8) (d.chkUnit u).start).2, CopiesOnly.chkReads _ _ d, ?_⟩
  unfold Dev.chkDone
  rw [if_neg (by simp [hb, hs])]
  dsimp only
  rw [hecc, if_neg (by omega : ¬ u = 3)]
  subst hres
  subst hv
  rfl

/-- The firings of the end leave what it has stored. -/
theorem ChkStored.fires {u res v : Nat} {bad : Bool} {d x e : Dev} (h : ChkStored u res v bad d x) (hu : u < 3)
    (hf : OnlyRegs (ChkFires u) x e) (hd : e.flag (CHK_EVT_DONE u) = true) : ChkStored u res v bad d e := by
  have apart : ∀ a, a ≠ rCHK_EVT u → 0x080000 ≤ a → a < 0x080100 → ¬ ChkFires u a := fun a ha h1 h2 => by
    rintro (h | h)
    · exact ha h
    · exact not_firingAt_chk h1 (by omega) h
  have hs : ¬ ChkFires u (rCHK_STAT u) := by apply apart <;> simp only [rCHK_STAT, rCHK_EVT] <;> omega
  have hl : ¬ ChkFires u (rCHK_RES_LO u) := by apply apart <;> simp only [rCHK_RES_LO, rCHK_EVT] <;> omega
  have hh : ¬ ChkFires u (rCHK_RES_HI u) := by apply apart <;> simp only [rCHK_RES_HI, rCHK_EVT] <;> omega
  have hj : ¬ ChkFires u (rCHK_JOBS u) := by apply apart <;> simp only [rCHK_JOBS, rCHK_EVT] <;> omega
  exact ⟨(hf.rd _ hl).trans h.lo, (hf.rd _ hh).trans h.hi, (hf.flag _ hs).trans h.busy, (hf.rd _ hs).trans h.done,
    (hf.rd _ hs).trans h.verdict, (hf.flag _ hs).trans h.ecc, (hf.rd _ hj).trans h.jobs, hd⟩

/-- An error that a job meets in SRAM fires SRAM_ECC. -/
theorem Dev.chkEccFire_spec {u a : Nat} (hu : u < 3) (ha : a < 0x200000) (d : Dev) :
    Fired 3 d (d.chkEccFire a) ∧ OnlyRegs (ChkFires u) d (d.chkEccFire a) ∧
      (d.flag (CHK_EVT_DONE u) = true → (d.chkEccFire a).flag (CHK_EVT_DONE u) = true) := by
  have hr : 0x080000 ≤ rCHK_EVT u ∧ rCHK_EVT u < 0x080100 := by unfold rCHK_EVT; omega
  unfold Dev.chkEccFire
  rw [if_pos ha]
  refine ⟨Dev.fireAs_fired _ _ _ _ _ _ (by decide), (OnlyRegs.refl _ d).fireAcc _ _ _ _ _ fun _ => Or.inr, fun hd => ?_⟩
  exact Dev.flag_fireAs_mono ⟨rfl, show (0 : Nat) < 24 by decide⟩
    (show ¬ FireReg (rCHK_EVT u) from not_fireReg (by omega) (by omega) (by omega) (by omega))
    (show rCHK_EVT u ≠ rFLT_SEQNO by unfold rFLT_SEQNO; omega) (by decide) _ _ _ _ hd

theorem Dev.rd_evtOfChk {u : Nat} {d : Dev} {f : Fld} (h : f.addr = rCHK_EVT u) : (d.evt f).rd FLT_SEQNO_COUNT = d.rd FLT_SEQNO_COUNT :=
  Dev.rd_evt_of_ne _ _ _ (by simp only [FLT_SEQNO_COUNT, rFLT_SEQNO]; unfold rCHK_EVT at h; omega)

/-- What the verdict of a job fires. -/
theorem Dev.chkVerdict_spec {u v : Nat} (hu : u < 3) (start : Nat) (d : Dev) (hd : d.flag (CHK_EVT_DONE u) = true) :
    (d.chkVerdict u v start).flag (CHK_EVT_DONE u) = true ∧
      (v = 2 → Fired 46 d (d.chkVerdict u v start) ∧ (d.chkVerdict u v start).flag (CHK_EVT_DATA_BAD u) = true) ∧
      (v = 3 → Fired 47 d (d.chkVerdict u v start) ∧ (d.chkVerdict u v start).flag (CHK_EVT_CHECK_CORRUPT u) = true) ∧
      (v ≠ 2 → v ≠ 3 → d.chkVerdict u v start = d) ∧ (d.latched 3 = true → (d.chkVerdict u v start).latched 3 = true) := by
  have bad := Dev.chkBad_spec (f := CHK_EVT_DATA_BAD u) (n := 46) hu ⟨rfl, show (1 : Nat) < 24 by decide⟩ rfl (by decide) start d rfl
  have corrupt := Dev.chkBad_spec (f := CHK_EVT_CHECK_CORRUPT u) (n := 47) hu ⟨rfl, show (2 : Nat) < 24 by decide⟩ rfl (by decide) start d rfl
  have done : (CHK_EVT_DONE u).Bit := ⟨rfl, show (0 : Nat) < 24 by decide⟩
  unfold Dev.chkVerdict
  split
  case isTrue h2 =>
    subst h2
    obtain ⟨hf, hb, hk, hl⟩ := bad
    exact ⟨hk _ done rfl hd, fun _ => ⟨hf, hb⟩, fun h => absurd h (by decide), fun h => absurd rfl h,
      hl (ackFld 3) (ackFld_isBit (by decide)) (by decide) (by decide)⟩
  case isFalse h2 =>
    split
    case isTrue h3 =>
      subst h3
      obtain ⟨hf, hb, hk, hl⟩ := corrupt
      exact ⟨hk _ done rfl hd, fun h => absurd h (by decide), fun _ => ⟨hf, hb⟩, fun _ h => absurd rfl h,
        hl (ackFld 3) (ackFld_isBit (by decide)) (by decide) (by decide)⟩
    case isFalse h3 => exact ⟨hd, fun h => absurd h h2, fun h => absurd h h3, fun _ _ => rfl, id⟩

theorem not_chkRes_seqno {u : Nat} : ¬ ChkRes u FLT_SEQNO_COUNT.addr := by
  unfold ChkRes rCHK_RES_LO rCHK_RES_HI rCHK_STAT rCHK_JOBS rCHK_EVT
  simp only [FLT_SEQNO_COUNT, rFLT_SEQNO]
  omega

/-- Settles O37: the result, the verdict and the event of a job are stored; a verdict of 2 or 3, and an error met, fire. -/
theorem checkJobsEnd : Obligations.CheckJobsEnd := by
  unfold Obligations.CheckJobsEnd
  intro s dt u res v c hu hb hc hres
  subst hc
  refine ⟨fun hst ecc => Effects.of_run rfl ?_, fun hst hv => Effects.of_run rfl ?_,
    fun a _ ha hst => Effects.of_run rfl ?_⟩ <;> unfold within <;> rw [if_pos (by omega)]
  case refine_1 => exact if_pos (Or.inr hst)
  case refine_2 =>
    obtain ⟨x, hx, hd⟩ := Dev.chkDone_eq (d := s.dev.advance dt) (ecc := none) hu hb hst (fun a h => nomatch h) hres hv
    rw [hd]
    have stored := Dev.chkStored_spec u res v false x
    have hseq := ((Dev.only_chkStored u res v false x).rd FLT_SEQNO_COUNT not_chkRes_seqno).trans (hx.rd _)
    have hv3 : v % 4 = v := by
      have : v ≤ 3 := by
        rw [hv]
        split
        · exact verdict_le ..
        · decide
      omega
    dsimp only [Option.isSome_none]
    generalize x.chkStored u res v false = y at stored hseq
    obtain ⟨hdone, hbad, hcorrupt, hplain, _⟩ := Dev.chkVerdict_spec (v := v) hu (s.dev.chkUnit u).start y stored.evt
    obtain ⟨hlo, hhi, hbusy, hend, hverdict, _, hjobs, hevt⟩ := stored.fires hu (Dev.only_chkVerdict u v _ y) hdone
    exact ⟨hbusy, hend, hverdict.trans hv3, hlo, hhi, hjobs.trans (by rw [hx.rd]; rfl), hevt,
      fun h => (hbad h).imp_left fun hf => hf.of_rd hseq, fun h => (hcorrupt h).imp_left fun hf => hf.of_rd hseq,
      fun h2 h3 => (congrArg (Dev.rd · FLT_SEQNO_COUNT) (hplain h2 h3)).trans hseq⟩
  case refine_3 =>
    obtain ⟨x, hx, hd⟩ := Dev.chkDone_eq (d := s.dev.advance dt) (ecc := some a) (v := 2) hu hb hst
      (fun b h => by cases h; omega) hres rfl
    rw [hd]
    have stored := Dev.chkStored_spec u res 2 true x
    have hseq := ((Dev.only_chkStored u res 2 true x).rd FLT_SEQNO_COUNT not_chkRes_seqno).trans (hx.rd _)
    dsimp only [Option.isSome_some]
    generalize x.chkStored u res 2 true = y at stored hseq
    obtain ⟨hfire, honly, hkeep⟩ := Dev.chkEccFire_spec hu (by omega : a < 0x200000) y
    generalize y.chkEccFire a = z at hfire honly hkeep
    obtain ⟨hdone, hbad, -, -, hlatch⟩ := Dev.chkVerdict_spec (v := 2) hu (s.dev.chkUnit u).start z (hkeep stored.evt)
    obtain ⟨-, -, hbusy, hend, hverdict, hecc, -, -⟩ :=
      stored.fires hu (honly.trans (Dev.only_chkVerdict u 2 (s.dev.chkUnit u).start z)) hdone
    obtain ⟨⟨hl46, hs46⟩, -⟩ := hbad rfl
    refine ⟨hbusy, hend, hverdict, hecc, hlatch hfire.1, hl46, hs46.trans ?_⟩
    rw [hfire.2, hseq]
    show ((s.dev.rd FLT_SEQNO_COUNT + 1) % 2 ^ 32 + 1) % 2 ^ 32 = _
    omega

end Sys2Proof.Machine
end

section
/-!
PROOF. A SOFT reset that REGACC asks for: what the edge settles in its pulse, and what is left of the TAP (14 R382; 13 R357; O38).
-/

namespace Sys2Proof.Machine

/-! ### The edge of a pulse that returns to BOOT -/

theorem Dev.underMode_setUnder (d : Dev) (m : Mode) (h : m ≠ .reset) : (d.setUnder m).underMode = m := by
  unfold Dev.setUnder
  split
  · next hr =>
    unfold Dev.underMode
    rw [show Dev.mode { d with priorMode := m } = .reset from hr]
  · rw [Dev.underMode_of_ne (by rw [Dev.mode_changeMode]; exact h), Dev.mode_changeMode]

theorem Dev.underMode_wr_apart {f : Fld} (h : f.apart DEV_MODE_MODE) (d : Dev) (v : Nat) : (d.wr f v).underMode = d.underMode :=
  underMode_congr (Dev.mode_wr_apart h d v) rfl

theorem Dev.underMode_outsFold (d : Dev) : d.outsFold.underMode = d.underMode :=
  ((Low.refl d).forN 24 _ fun k _ d => (Low.refl d).outStop k true).underMode

theorem Dev.underMode_portsFold (d : Dev) : d.portsFold.underMode = d.underMode :=
  underMode_congr (Dev.mode_portsFold d) (Apart.portsFold d).priorMode

theorem Dev.underMode_outsUnfold (d : Dev) : d.outsUnfold.underMode = d.underMode := by
  have hl : Low d d.outsUnfold := by
    unfold Dev.outsUnfold
    exact (Low.refl d).forN 24 _ fun k _ d => ((Low.refl d).wr (OUT_STAT_FOLDED k) 0 (by unfold OUT_STAT_FOLDED rOUT_STAT; simp only; omega)).outTry k
  exact hl.underMode

/-- A fold that leaves BOOT in force, or BOOT after a pulse, has found it so and does nothing. -/
theorem Dev.enterFold_of_boot {d : Dev} (h : d.enterFold.underMode = .boot) : d.enterFold = d := by
  have notice : ∀ x : Dev, (match x.firstError x.latched with
      | some (src, sev, t) => x.sendNotice src sev true t
      | none => x).underMode = x.underMode := fun x => by
    split
    · have hs := Still.originate (A := fun _ => False) 
      exact underMode_congr (mode_congr ((hs ..).word _ id)) (hs ..).priorMode
    · rfl
  revert h
  unfold Dev.enterFold
  split
  · exact fun _ => rfl
  · exact fun _ => rfl
  · next hm =>
    intro h
    rw [Dev.underMode_wr_apart (by decide), hm] at h
    exact absurd h (by decide)
  · extract_lets x y z
    intro h
    have hu : z.underMode = .fold := ((Dev.underMode_portsFold _).trans (Dev.underMode_outsFold y)).trans
      (Dev.underMode_setUnder _ .fold (by decide))
    exact absurd (((notice z).trans hu).symm.trans h) (by decide)

/-- A device that is in FOLD, or in a pulse that returns to it, is not under BOOT when its edge has settled that. -/
theorem Dev.settleFold_of_fold {d : Dev} (h : d.underMode = .fold) : d.settleFold.underMode ≠ .boot := by
  have hw : (d.wr FLT_STAT_FOLD_REQ 0).underMode = .fold := (Dev.underMode_wr_apart (by decide) d 0).trans h
  unfold Dev.settleFold
  split
  · dsimp only
    split
    · rw [Dev.leaveFold, Dev.underMode_outsUnfold, Dev.underMode_setUnder _ _ (by decide)]
      decide
    · rw [hw]
      decide
  · rw [h]
    decide

/-- The edge of a device in BOOT, or in a pulse that returns to it, with no dump copy reported: a fold that is asked for is forgotten. -/
theorem Stays.of_boot {e : Dev} (hm : e.finish.underMode = .boot) (h49 : e.finish.latched 49 = false) :
    ∃ p, Stays { e with flt := { e.flt with foldPend := p } } e.finish := by
  generalize hx : e.settleCopy = x
  generalize hy : x.settlePend = y
  have hf : e.finish = y.settleHeld.settleFold.settleElig.settleFn.settleLamp := by rw [← hy, ← hx]; rfl
  have late : Stays y.settleHeld.settleFold e.finish := by
    rw [hf]
    exact ((Stays.settleElig _).trans (Stays.settleFn _)).trans (Stays.settleLamp _)
  have hfold : y.settleHeld.underMode ≠ .fold := fun h => Dev.settleFold_of_fold h (late.underMode.symm.trans hm)
  have mid : Stays y e.finish := ((Stays.settleHeld y).trans (Stays.settleFold hfold)).trans late
  have hyx : ∃ p, y = { x with flt := { x.flt with foldPend := p } } := by
    unfold Dev.settlePend at hy
    split at hy
    · have hb : x.enterFold.underMode = .boot := by
        rw [← hm, mid.underMode, ← hy]
        rfl
      rw [Dev.enterFold_of_boot hb] at hy
      exact ⟨false, hy.symm⟩
    · exact ⟨x.flt.foldPend, hy.symm⟩
  obtain ⟨p, hyx⟩ := hyx
  have hl : y.latched 49 = x.latched 49 := by
    rw [hyx]
    rfl
  have hxe : x = e := by
    unfold Dev.settleCopy at hx
    dsimp only at hx
    split at hx
    · have hfire : x.latched 49 = true := by
        rw [← hx]
        exact (Dev.fireAs_fired 49 0 none false false _ (by decide)).latched
      have ha := ackFld_addr 49
      have : e.finish.latched 49 = true := by
        unfold Dev.latched
        rw [mid.toKeeps.flag _ (not_steadyReg (by omega) (by omega) (by omega) (by omega))]
        exact hl.trans hfire
      rw [h49] at this
      exact absurd this (by decide)
    · exact hx.symm
  rw [hxe] at hyx
  exact ⟨p, hyx ▸ mid⟩

theorem Dev.front_of_boot {e : Dev} (hm : e.finish.underMode = .boot) (h49 : e.finish.latched 49 = false) :
    e.finish.front = e.front := by
  obtain ⟨p, hs⟩ := Stays.of_boot hm h49
  exact hs.toKeeps.front

/-- The device whose edge a command that has an effect settles is the one that the run of its meaning leaves. -/
theorem Effects.left {c : Instr} {s : State} {P : Dev → Prop} {dt : Nat} {f : Dev → Dev} (h : Effects c s P)
    (hrun : exec c s = run dt f s) : ∃ e, (f (s.dev.arrive dt)).finish = e.finish ∧ (s.dev.lag = false → P e) := by
  obtain ⟨e, he, hp⟩ := h
  rw [hrun] at he
  refine ⟨e, ?_, hp⟩
  unfold run at he
  injection he with he
  exact congrArg State.dev he

/-! ### REGACC writes DEV_RESET -/

/-- A device in SERVICE whose last access by REGACC has failed. -/
def accessFailed : State := deviceIn .service [] fun d => { d with front := { d.front with jtagErr := true } }

/-- Refutes O38: REGACC writes SOFT to DEV_RESET with the right key; the reset empties the TAP, and the word that the scan has captured,
with ERR of the access before, does not stand. -/
theorem not_jtagPort : ¬ Obligations.JtagPort := by
  intro h
  obtain ⟨-, -, -, hdr, -⟩ := h accessFailed 0
  obtain ⟨e, hfin, hp⟩ := (hdr false true rDEV_RESET (2 ^ 31 + 0xC3A5)).left rfl
  have hfront : e.finish.front = e.front := Dev.front_of_boot (by rw [← hfin]; decide +kernel) (by rw [← hfin]; decide +kernel)
  have hlag : accessFailed.dev.lag = false := by decide +kernel
  have hword : b2n accessFailed.dev.front.jtagErr * 2 ^ 56 + accessFailed.dev.front.jtagAddr % 2 ^ 24 * 2 ^ 32 +
      accessFailed.dev.front.jtagData % 2 ^ 32 = 2 ^ 56 := by decide +kernel
  have hdr : e.finish.front.jtagDr = 2 ^ 56 := (congrArg Front.jtagDr hfront).trans ((hp hlag).trans hword)
  rw [← hfin] at hdr
  revert hdr
  decide +kernel

end Sys2Proof.Machine
end

section
/-!
PROOF. The reference monitors (05 R138 to R147, R162; O52).
-/

namespace Sys2Proof.Machine

variable {d : Dev} {n : Nat}

/-! ### The monitors besides their registers -/

/-- What a change of a monitor's state leaves of it: its window, its results and its wait. -/
structure RefMon.Same (m k : RefMon) : Prop where
  win : k.win = m.win
  hardCnt : k.hardCnt = m.hardCnt
  wtrDone : k.wtrDone = m.wtrDone
  fmOk : k.fmOk = m.fmOk

theorem RefMon.Same.refl (m : RefMon) : m.Same m := ⟨rfl, rfl, rfl, rfl⟩

theorem RefMon.Same.trans {m k l : RefMon} (h : m.Same k) (h' : k.Same l) : m.Same l :=
  ⟨h'.win.trans h.win, h'.hardCnt.trans h.hardCnt, h'.wtrDone.trans h.wtrDone, h'.fmOk.trans h.fmOk⟩

/-- Every monitor is the same besides its state. -/
structure RefsSame (d e : Dev) : Prop where
  same : ∀ i, (d.ref i).Same (e.ref i)
  length : e.refs.length = d.refs.length
  edge : e.clk.edge = d.clk.edge

namespace RefsSame

theorem refl (d : Dev) : RefsSame d d := ⟨fun _ => .refl _, rfl, rfl⟩

theorem trans {e f : Dev} (h : RefsSame d e) (h' : RefsSame e f) : RefsSame d f :=
  ⟨fun i => (h.same i).trans (h'.same i), h'.length.trans h.length, h'.edge.trans h.edge⟩

theorem of_eq {e : Dev} (h : e.refs = d.refs) (hc : e.clk = d.clk) : RefsSame d e :=
  ⟨fun i => by unfold Dev.ref; rw [h]; exact .refl _, by rw [h], by rw [hc]⟩

theorem of_still {A : Nat → Prop} {e : Dev} (h : Still A d e) : RefsSame d e := of_eq h.refs h.clk

theorem wr (d : Dev) (f : Fld) (v : Nat) : RefsSame d (d.wr f v) := of_eq rfl rfl

theorem evt (d : Dev) (f : Fld) : RefsSame d (d.evt f) := of_still (A := fun _ => True) (Still.evt d f trivial)

theorem evtIf (d : Dev) (b : Bool) (f : Fld) : RefsSame d (d.evtIf b f) := by
  cases b
  · exact refl d
  · exact evt d f

theorem unEvt (d : Dev) (f : Fld) : RefsSame d (d.unEvt f) := by
  unfold Dev.unEvt
  dsimp only
  split
  · exact of_eq rfl rfl
  · split
    · exact refl d
    · exact wr d f 0

theorem fire (d : Dev) (src detail : Nat) : RefsSame d (d.fire src detail) := of_still (Still.fireAs ..)

theorem setRef (d : Dev) (k : Nat) (f : RefMon → RefMon) (hf : ∀ m : RefMon, m.Same (f m)) : RefsSame d (d.setRef k f) := by
  have hlen : (updAt d.refs k f).length = d.refs.length := by simp [updAt]
  refine ⟨fun i => ?_, hlen, rfl⟩
  unfold Dev.setRef Dev.ref
  dsimp only
  by_cases hi : i = k
  · subst hi
    by_cases hl : i < d.refs.length
    · rw [getD_updAt_self _ _ hl]
      exact hf _
    · rw [List.getD_eq_default _ _ (by omega), List.getD_eq_default _ _ (by omega)]
      exact .refl _
  · rw [getD_updAt_of_ne _ _ hi]
    exact .refl _

theorem when (b : Bool) (f : Dev → Dev) (h : RefsSame d (f d)) : RefsSame d (d.when b f) := by
  cases b
  · exact refl d
  · exact h

theorem refEnter (d : Dev) (n st : Nat) : RefsSame d (d.refEnter n st) := by
  have arrive : ∀ z : Dev, RefsSame z (match st with
      | 1 => ((z.evt (REF_EVT_DISQ n)).bump (REF_DISQ_CNT_COUNT n)).fire 26 n
      | 3 => z.evt (REF_EVT_QUAL n)
      | 4 => ((z.setRef n fun m => { m with onset := z.clk.hsec }).evt (REF_EVT_STRAY_ENTRY n)).fire 27 n
      | _ => z) := fun z => by
    split
    · exact (evt z _).trans ((wr _ _ _).trans (fire _ _ _))
    · exact evt z _
    · exact (setRef z n (fun m => { m with onset := z.clk.hsec }) fun _ => ⟨rfl, rfl, rfl, rfl⟩).trans ((evt _ _).trans (fire _ _ _))
    · exact refl z
  have h0 : RefsSame d (d.askSelect none) := of_eq rfl rfl
  unfold Dev.refEnter
  dsimp only
  generalize d.askSelect none = x at h0
  have h1 := h0.trans (evtIf x (decide (x.refState n = 4)) (REF_EVT_STRAY_EXIT n))
  have h2 := h1.trans (evtIf _ (decide (x.refState n = 2) && decide (3 ≤ st)) (REF_EVT_WTR_END n))
  have h3 := h2.trans (when (decide (x.refState n = 4)) (fun d => d.setRef n fun m => { m with clearCnt := 0 })
    (setRef _ n _ fun _ => ⟨rfl, rfl, rfl, rfl⟩))
  exact (h3.trans (wr _ (REF_STAT_STATE n) st)).trans (arrive _)

theorem refQualify (d : Dev) (n : Nat) : RefsSame d (d.refQualify n) := by
  unfold Dev.refQualify
  split
  · unfold Dev.refStray
    have h0 : RefsSame d (d.askSelect none) := of_eq rfl rfl
    exact h0.trans ((evtIf _ _ _).trans ((wr _ _ _).trans (setRef _ n _ fun _ => ⟨rfl, rfl, rfl, rfl⟩)))
  · exact refEnter d n 3

end RefsSame

theorem Dev.ref_setRef_self (h : n < d.refs.length) (f : RefMon → RefMon) : (d.setRef n f).ref n = f (d.ref n) :=
  getD_updAt_self f RefMon.fresh h

/-! ### The registers that a change of state reaches -/

/-- The registers of monitor `n` that a change of its state reaches, and those of a firing. -/
def RefTurn (n a : Nat) : Prop := a = rREF_STAT n ∨ a = rREF_EVT n ∨ a = rREF_DISQ_CNT n ∨ firingAt a

theorem not_refTurn {n b : Nat} (hn : n < 12) (h1 : 0x020000 ≤ b := by decide) (h2 : b < 0x020100 := by decide)
    (h3 : b ≠ rREF_STAT 0 ∧ b ≠ rREF_EVT 0 ∧ b ≠ rREF_DISQ_CNT 0 := by decide) : ¬ RefTurn n (b + 0x100 * n) := by
  unfold RefTurn firingAt
  unfold rREF_STAT rREF_EVT rREF_DISQ_CNT at *
  omega

theorem OnlyRegs.refTurn_enter (n st : Nat) (d : Dev) : OnlyRegs (RefTurn n) d (d.refEnter n st) := by
  have fires : ∀ a, firingAt a → RefTurn n a := fun _ h => Or.inr (Or.inr (Or.inr h))
  have hs : RefTurn n (rREF_STAT n) := Or.inl rfl
  have he : RefTurn n (rREF_EVT n) := Or.inr (Or.inl rfl)
  have hc : RefTurn n (rREF_DISQ_CNT n) := Or.inr (Or.inr (Or.inl rfl))
  have h0 := (OnlyRegs.refl (RefTurn n) d).askSelect none
  unfold Dev.refEnter
  dsimp only
  generalize d.askSelect none = x at h0
  have h1 := (((h0.evtIf (decide (x.refState n = 4)) (REF_EVT_STRAY_EXIT n) he).evtIf
    (decide (x.refState n = 2) && decide (3 ≤ st)) (REF_EVT_WTR_END n) he).when (decide (x.refState n = 4))
    (fun d => d.setRef n fun m => { m with clearCnt := 0 }) ((OnlyRegs.refl _ _).setRef _ _)).wr (REF_STAT_STATE n) st hs
  split
  · exact ((h1.evt _ he).bump _ hc).fire _ _ fires
  · exact h1.evt _ he
  · exact ((h1.setRef _ _).evt _ he).fire _ _ fires
  · exact h1

theorem OnlyRegs.refTurn_qualify (n : Nat) (d : Dev) : OnlyRegs (RefTurn n) d (d.refQualify n) := by
  unfold Dev.refQualify
  split
  · exact ((((OnlyRegs.refl (RefTurn n) d).askSelect none).evtIf _ _ (Or.inr (Or.inl rfl))).wr (REF_STAT_STATE n) 4 (Or.inl rfl)).setRef n _
  · exact OnlyRegs.refTurn_enter n 3 d

/-! ### Events -/

/-- A status bit of REF_n_EVT below 24. -/
def RefEvt (n : Nat) (f : Fld) : Prop := f.Bit ∧ f.addr = rREF_EVT n

theorem RefEvt.fire {f : Fld} (hn : n < 12) (hf : RefEvt n f) {src : Nat} (hs : src < 64) (detail : Nat) (h : d.flag f = true) :
    (d.fire src detail).flag f = true := by
  obtain ⟨hb, ha⟩ := hf
  have hr : 0x020000 ≤ f.addr ∧ f.addr < 0x021000 := by rw [ha]; unfold rREF_EVT; omega
  exact Dev.flag_fireAs_mono hb (not_fireReg (by omega) (by omega) (by omega) (by omega)) (by unfold rFLT_SEQNO; omega) hs _ _ _ _ h

theorem Dev.flag_evtIf_mono {f g : Fld} (hf : f.Bit) (hg : g.Bit) (b : Bool) (h : d.flag f = true) : (d.evtIf b g).flag f = true := by
  cases b
  · exact h
  · exact Dev.flag_evt_mono hf hg h

/-- Entering a state leaves the events that are set. -/
theorem RefEvt.enter {f : Fld} (hn : n < 12) (hf : RefEvt n f) (st : Nat) (h : d.flag f = true) :
    (d.refEnter n st).flag f = true := by
  have bit : ∀ k, k < 24 → Fld.Bit ⟨rREF_EVT n, k, k⟩ := fun k hk => ⟨rfl, hk⟩
  have hw : ∀ (x : Dev) (g : Fld) (v : Nat), g.addr ≠ rREF_EVT n → x.flag f = true → (x.wr g v).flag f = true := fun x g v hg hx =>
    (Dev.flag_wr_of_ne x g f v (by rw [hf.2]; exact hg.symm)).trans hx
  have arrive : ∀ z : Dev, z.flag f = true → (match st with
      | 1 => ((z.evt (REF_EVT_DISQ n)).bump (REF_DISQ_CNT_COUNT n)).fire 26 n
      | 3 => z.evt (REF_EVT_QUAL n)
      | 4 => ((z.setRef n fun m => { m with onset := z.clk.hsec }).evt (REF_EVT_STRAY_ENTRY n)).fire 27 n
      | _ => z).flag f = true := fun z hz => by
    split
    · exact hf.fire hn (by decide) n (hw _ _ _ (show rREF_DISQ_CNT n ≠ rREF_EVT n by unfold rREF_DISQ_CNT rREF_EVT; omega)
        (Dev.flag_evt_mono hf.1 (bit 3 (by decide)) hz))
    · exact Dev.flag_evt_mono hf.1 (bit 6 (by decide)) hz
    · exact hf.fire hn (by decide) n (Dev.flag_evt_mono hf.1 (bit 4 (by decide)) hz)
    · exact hz
  have h0 : (d.askSelect none).flag f = true := h
  unfold Dev.refEnter
  dsimp only
  generalize d.askSelect none = x at h0
  have h1 := Dev.flag_evtIf_mono hf.1 (bit 5 (by decide)) (decide (x.refState n = 4)) h0
  have h2 := Dev.flag_evtIf_mono hf.1 (bit 7 (by decide)) (decide (x.refState n = 2) && decide (3 ≤ st)) h1
  refine arrive _ (hw _ _ _ (show rREF_STAT n ≠ rREF_EVT n by unfold rREF_STAT rREF_EVT; omega) ?_)
  exact (Dev.flag_of_rd (Dev.rd_when rfl)).trans h2

end Sys2Proof.Machine
end

section
/-!
PROOF. The causes and states of a reference monitor (05 R138, R144 to R148; O52).
-/

namespace Sys2Proof.Machine

variable {d : Dev} {n : Nat}

/-! ### Events that are taken back -/

theorem setNow_step (l : List (Nat × Nat)) (a k : Nat) : ∀ v : Nat,
    v.testBit k = true → (l.foldl (fun v p => if p.1 = a then v ||| p.2 else v) v).testBit k = true := by
  induction l with
  | nil => exact fun v h => h
  | cons p l ih =>
    intro v h
    refine ih _ ?_
    dsimp only
    split
    · rw [Nat.testBit_or, h, Bool.true_or]
    · exact h

/-- An event of the present edge is among the bits that have set on it. -/
theorem Dev.setNow_evt {f : Fld} (hf : f.Bit) : ((d.evt f).setNow f.addr).testBit f.lo = true := by
  unfold Dev.setNow Dev.evt Dev.evtMask
  refine setNow_step d.bumped f.addr f.lo (if f.addr = f.addr then 0 ||| (2 ^ f.lo % 0x1000000) else 0) ?_
  rw [if_pos rfl, Nat.zero_or, Nat.mod_eq_of_lt (Nat.pow_lt_pow_right (by decide) hf.2)]
  exact Nat.testBit_two_pow_self

/-- Another status bit that has set on this edge stands where one is taken back. -/
theorem Dev.unEvt_other {f g : Fld} {a : Nat} (hf : f.Bit) (hg : g.Bit) (hne : f.lo ≠ g.lo) (hga : g.addr = a)
    (hset : (d.setNow a).testBit f.lo = true) : (d.unEvt g).flag f = d.flag f ∧ (d.unEvt g).bumped = d.bumped := by
  subst hga
  have hs : d.setNow g.addr ≠ 2 ^ g.lo := fun h => by
    rw [h, Nat.testBit_two_pow_of_ne (Ne.symm hne)] at hset
    exact absurd hset (by decide)
  obtain ⟨hf1, hf2⟩ := hf
  obtain ⟨hg1, hg2⟩ := hg
  unfold Dev.unEvt
  dsimp only
  rw [if_neg hs]
  split
  · exact ⟨rfl, rfl⟩
  · exact ⟨d.flag_wr_of_disjoint g f 0 ⟨by omega, by omega⟩ (by omega) (by omega), rfl⟩

theorem Dev.setNow_wr (d : Dev) (f : Fld) (v a : Nat) : (d.wr f v).setNow a = d.setNow a := rfl

theorem Dev.setNow_congr {e : Dev} (h : e.bumped = d.bumped) (a : Nat) : e.setNow a = d.setNow a := by
  unfold Dev.setNow
  rw [h]

theorem Dev.wr_bumped_eq (d : Dev) (f : Fld) (v : Nat) : (d.wr f v).bumped = d.bumped := rfl

/-! ### Setting a cause -/

theorem Dev.refCauses_flag {k : Nat} (hk : k < 7) (h : (d.refCauses n).testBit k = true) : d.flag ⟨rREF_STAT n, k, k⟩ = true := by
  have hb : bitsOf (d.word (rREF_STAT n)).toNat k k = bitsOf (d.refCauses n) k k := by
    unfold Dev.refCauses Dev.rd
    rw [bitsOf_eq, bitsOf_eq, bitsOf_eq]
    simp only [Nat.sub_self, Nat.zero_add, Nat.pow_one, Nat.pow_zero, Nat.div_one]
    interval_cases k <;> omega
  refine Dev.flag_of_bitsOf (hb.trans ?_)
  rw [bitsOf_eq]
  simp only [Nat.sub_self, Nat.zero_add, Nat.pow_one]
  rw [Nat.testBit_eq_decide_div_mod_eq] at h
  exact of_decide_eq_true h

/-- What a monitor leaves and what it arrives with, as it enters a state. -/
def Dev.refLeave (n st : Nat) (d : Dev) : Dev :=
  let d := d.askSelect none
  let old := d.refState n
  let d := d.evtIf (decide (old = 4)) (REF_EVT_STRAY_EXIT n)
  let d := d.evtIf (decide (old = 2) && decide (3 ≤ st)) (REF_EVT_WTR_END n)
  (d.when (decide (old = 4)) fun d => d.setRef n fun m => { m with clearCnt := 0 }).wr (REF_STAT_STATE n) st

/-- What a monitor that has taken a state does there. -/
def Dev.refArrive (n st : Nat) (d : Dev) : Dev :=
  match st with
  | 1 => ((d.evt (REF_EVT_DISQ n)).bump (REF_DISQ_CNT_COUNT n)).fire 26 n
  | 3 => d.evt (REF_EVT_QUAL n)
  | 4 => ((d.setRef n fun m => { m with onset := d.clk.hsec }).evt (REF_EVT_STRAY_ENTRY n)).fire 27 n
  | _ => d

theorem Dev.refEnter_eq (d : Dev) (n st : Nat) : d.refEnter n st = (d.refLeave n st).refArrive n st := by
  unfold Dev.refEnter Dev.refLeave Dev.refArrive
  rfl

theorem Dev.refArrive_disq (d : Dev) (n : Nat) :
    d.refArrive n 1 = ((d.evt (REF_EVT_DISQ n)).bump (REF_DISQ_CNT_COUNT n)).fire 26 n := rfl

theorem Dev.refArrive_stray (d : Dev) (n : Nat) :
    d.refArrive n 4 = ((d.setRef n fun m => { m with onset := d.clk.hsec }).evt (REF_EVT_STRAY_ENTRY n)).fire 27 n := rfl

/-- What a monitor leaves reaches its status and its events alone. -/
theorem OnlyRegs.refLeave (n st : Nat) (d : Dev) : OnlyRegs (fun a => a = rREF_STAT n ∨ a = rREF_EVT n) d (d.refLeave n st) := by
  have h0 := (OnlyRegs.refl (fun a => a = rREF_STAT n ∨ a = rREF_EVT n) d).askSelect none
  unfold Dev.refLeave
  dsimp only
  generalize d.askSelect none = x at h0
  exact (((h0.evtIf (decide (x.refState n = 4)) (REF_EVT_STRAY_EXIT n) (Or.inr rfl)).evtIf
    (decide (x.refState n = 2) && decide (3 ≤ st)) (REF_EVT_WTR_END n) (Or.inr rfl)).when (decide (x.refState n = 4))
    (fun d => d.setRef n fun m => { m with clearCnt := 0 }) ((OnlyRegs.refl _ _).setRef _ _)).wr (REF_STAT_STATE n) st (Or.inl rfl)

/-- Entering DISQ is an event, a count and a firing. -/
theorem Dev.refEnter_disq (hn : n < 12) (d : Dev) : (d.refEnter n 1).flag (REF_EVT_DISQ n) = true ∧
    (d.refEnter n 1).rd (REF_DISQ_CNT_COUNT n) = (d.rd (REF_DISQ_CNT_COUNT n) + 1) % 2 ^ 32 ∧ Fired 26 d (d.refEnter n 1) := by
  have hc : rREF_DISQ_CNT n ≠ rREF_EVT n ∧ rREF_DISQ_CNT n ≠ rREF_STAT n := by unfold rREF_DISQ_CNT rREF_EVT rREF_STAT; omega
  have hl := OnlyRegs.refLeave n 1 d
  rw [Dev.refEnter_eq]
  generalize d.refLeave n 1 = x at hl
  rw [Dev.refArrive_disq]
  have hseq : ((x.evt (REF_EVT_DISQ n)).bump (REF_DISQ_CNT_COUNT n)).rd FLT_SEQNO_COUNT = d.rd FLT_SEQNO_COUNT := by
    have h1 : rFLT_SEQNO ≠ rREF_DISQ_CNT n := by unfold rFLT_SEQNO rREF_DISQ_CNT; omega
    have h2 : rFLT_SEQNO ≠ rREF_EVT n := by unfold rFLT_SEQNO rREF_EVT; omega
    have h3 : rFLT_SEQNO ≠ rREF_STAT n := by unfold rFLT_SEQNO rREF_STAT; omega
    rw [Dev.bump, Dev.rd_wr_of_ne _ _ _ _ h1, Dev.rd_evt_of_ne _ _ _ h2]
    exact hl.rd _ fun h => h.elim h3 h2
  have hcount : ((x.evt (REF_EVT_DISQ n)).bump (REF_DISQ_CNT_COUNT n)).rd (REF_DISQ_CNT_COUNT n) =
      (d.rd (REF_DISQ_CNT_COUNT n) + 1) % 2 ^ 32 := by
    rw [Dev.bump, Dev.rd_wr_self _ (REF_DISQ_CNT_COUNT n) _ ⟨Nat.zero_le _, show (31 : Nat) < 32 by decide⟩,
      Dev.rd_evt_of_ne _ _ _ hc.1, hl.rd (REF_DISQ_CNT_COUNT n) fun h => h.elim hc.2 hc.1]
    rfl
  have hevt : ((x.evt (REF_EVT_DISQ n)).bump (REF_DISQ_CNT_COUNT n)).flag (REF_EVT_DISQ n) = true := by
    rw [Dev.bump, Dev.flag_wr_of_ne _ _ _ _ (Ne.symm hc.1)]
    exact Dev.flag_evt_self x (REF_EVT_DISQ n) rfl (show (3 : Nat) < 24 by decide)
  generalize (x.evt (REF_EVT_DISQ n)).bump (REF_DISQ_CNT_COUNT n) = y at hseq hcount hevt
  have hf : OnlyRegs firingAt y (y.fire 26 n) := (OnlyRegs.refl _ y).fire _ _ fun _ => id
  refine ⟨RefEvt.fire hn ⟨⟨rfl, show (3 : Nat) < 24 by decide⟩, rfl⟩ (by decide) n hevt, (hf.rd _ ?_).trans hcount,
    (Dev.fireAs_fired 26 n none false false y (by decide)).of_rd hseq⟩
  show ¬ firingAt (rREF_DISQ_CNT n)
  unfold firingAt rREF_DISQ_CNT
  omega

/-- Entering STRAY fires. -/
theorem Dev.refEnter_stray (d : Dev) : Fired 27 d (d.refEnter n 4) := by
  have hl := OnlyRegs.refLeave n 4 d
  rw [Dev.refEnter_eq]
  generalize d.refLeave n 4 = x at hl
  rw [Dev.refArrive_stray]
  refine (Dev.fireAs_fired 27 n none false false _ (by decide)).of_rd
    (((hl.setRef n _).evt (REF_EVT_STRAY_ENTRY n) (Or.inr rfl)).rd FLT_SEQNO_COUNT ?_)
  show ¬ (rFLT_SEQNO = rREF_STAT n ∨ rFLT_SEQNO = rREF_EVT n)
  unfold rFLT_SEQNO rREF_EVT rREF_STAT
  omega

/-- A cause that sets leaves an event of the present edge other than QUAL and WTR_END. -/
theorem Dev.refSet_event (hn : n < 12) {f : Fld} (hf : RefEvt n f) (h67 : f.lo ≠ 6 ∧ f.lo ≠ 7)
    (hset : (d.setNow (rREF_EVT n)).testBit f.lo = true) (mask : Nat) (h : d.flag f = true) : (d.refSet n mask).flag f = true := by
  have hse : f.addr ≠ rREF_STAT n := by rw [hf.2]; unfold rREF_EVT rREF_STAT; omega
  have hle : f.addr ≠ rREF_WTR_LEFT n := by rw [hf.2]; unfold rREF_EVT rREF_WTR_LEFT; omega
  have bit : ∀ k, k < 24 → Fld.Bit ⟨rREF_EVT n, k, k⟩ := fun k hk => ⟨rfl, hk⟩
  have back : ∀ (x : Dev) (v : Nat), (x.setNow (rREF_EVT n)).testBit f.lo = true → x.flag f = true →
      ((x.wr (REF_STAT_STATE n) v).unEvt (REF_EVT_QUAL n)).flag f = true ∧
        (((x.wr (REF_STAT_STATE n) v).unEvt (REF_EVT_QUAL n)).setNow (rREF_EVT n)).testBit f.lo = true := fun x v hs hx => by
    have hs' := (congrArg (Nat.testBit · f.lo) (Dev.setNow_wr x (REF_STAT_STATE n) v (rREF_EVT n))).trans hs
    have hx' := (Dev.flag_wr_of_ne x (REF_STAT_STATE n) f v hse).trans hx
    generalize x.wr (REF_STAT_STATE n) v = y at hs' hx'
    obtain ⟨h1, h2⟩ := Dev.unEvt_other (g := REF_EVT_QUAL n) hf.1 (bit 6 (by decide)) h67.1 rfl hs'
    exact ⟨h1.trans hx', (congrArg (Nat.testBit · f.lo) (Dev.setNow_congr h2 _)).trans hs'⟩
  have rest : ∀ (x : Dev) (v : Nat) (g : RefMon → RefMon), x.flag f = true →
      ((x.wr (REF_WTR_LEFT_LEFT n) v).setRef n g).flag f = true := fun x v g hx =>
    ((((OnlyRegs.refl (· = rREF_WTR_LEFT n) x).wr (REF_WTR_LEFT_LEFT n) v rfl).setRef n g).flag f hle).trans hx
  unfold Dev.refSet
  split
  · exact h
  · dsimp only
    have hx := (((((OnlyRegs.refl (· = rREF_STAT n) d).wr ⟨rREF_STAT n, 6, 0⟩ (d.refCauses n ||| mask) rfl).askSelect none).flag f hse).trans h)
    have hsx := (congrArg (Nat.testBit · f.lo) (Dev.setNow_congr (e := (d.wr ⟨rREF_STAT n, 6, 0⟩ (d.refCauses n ||| mask)).askSelect none)
      (by simp) (rREF_EVT n))).trans hset
    generalize (d.wr ⟨rREF_STAT n, 6, 0⟩ (d.refCauses n ||| mask)).askSelect none = x at hx hsx
    generalize (decide (x.oldRd (REF_STAT_STATE n) = 2) && decide (3 ≤ x.refState n)) = ended
    unfold Dev.when
    split
    · dsimp only
      split
      · have h1 := (back x 1 hsx hx).1
        unfold Dev.refBack
        generalize (x.wr (REF_STAT_STATE n) 1).unEvt (REF_EVT_QUAL n) = y at h1
        generalize x.oldRd (REF_WTR_LEFT_LEFT n) = v
        exact rest y v _ h1
      · refine RefEvt.enter hn hf 1 ?_
        cases ended
        · exact hx
        · obtain ⟨h1, h2⟩ := back x 2 hsx hx
          unfold Dev.refUnend
          generalize (x.wr (REF_STAT_STATE n) 2).unEvt (REF_EVT_QUAL n) = y at h1 h2
          have h3 := (Dev.unEvt_other (g := REF_EVT_WTR_END n) hf.1 (bit 7 (by decide)) h67.2 rfl h2).1.trans h1
          generalize y.unEvt (REF_EVT_WTR_END n) = z at h3
          generalize x.oldRd (REF_WTR_LEFT_LEFT n) = v
          exact rest z v _ h3
    · exact hx

theorem Dev.refWasDisq_congr {e : Dev} (h : e.old = d.old) (n : Nat) : e.refWasDisq n = d.refWasDisq n := by
  unfold Dev.refWasDisq Dev.oldRd Dev.oldWord
  rw [h]

/-- A cause that sets on a monitor that was not in DISQ before the edge sends it there, with the event and the count. -/
theorem Dev.refSet_disq (hn : n < 12) {mask : Nat} (hm : mask ≠ 0) (h2 : 2 ≤ d.refState n) (hw : d.refWasDisq n = false) :
    (d.refSet n mask).flag (REF_EVT_DISQ n) = true ∧
      (d.refSet n mask).rd (REF_DISQ_CNT_COUNT n) = (d.rd (REF_DISQ_CNT_COUNT n) + 1) % 2 ^ 32 := by
  have hcs : rREF_DISQ_CNT n ≠ rREF_STAT n := by unfold rREF_DISQ_CNT rREF_STAT; omega
  have hce : rREF_DISQ_CNT n ≠ rREF_EVT n := by unfold rREF_DISQ_CNT rREF_EVT; omega
  have hcl : rREF_DISQ_CNT n ≠ rREF_WTR_LEFT n := by unfold rREF_DISQ_CNT rREF_WTR_LEFT; omega
  unfold Dev.refSet
  rw [if_neg (by omega)]
  dsimp only
  have hx := (((OnlyRegs.refl (· = rREF_STAT n) d).wr ⟨rREF_STAT n, 6, 0⟩ (d.refCauses n ||| mask) rfl).askSelect none).rd
    (REF_DISQ_CNT_COUNT n) hcs
  have hsx : ((d.wr ⟨rREF_STAT n, 6, 0⟩ (d.refCauses n ||| mask)).askSelect none).refState n = d.refState n :=
    (((OnlyRegs.refl (fun _ => False) (d.wr ⟨rREF_STAT n, 6, 0⟩ (d.refCauses n ||| mask))).askSelect none).rd (REF_STAT_STATE n) id).trans
      (Dev.rd_wr_apart (f := ⟨rREF_STAT n, 6, 0⟩) (Fld.apart_bits (by decide)) d _)
  have hwx : ((d.wr ⟨rREF_STAT n, 6, 0⟩ (d.refCauses n ||| mask)).askSelect none).refWasDisq n = d.refWasDisq n :=
    Dev.refWasDisq_congr (by simp) n
  generalize (d.wr ⟨rREF_STAT n, 6, 0⟩ (d.refCauses n ||| mask)).askSelect none = x at hx hsx hwx
  generalize (decide (x.oldRd (REF_STAT_STATE n) = 2) && decide (3 ≤ x.refState n)) = ended
  unfold Dev.when
  rw [if_pos (by rw [hsx]; exact decide_eq_true h2)]
  dsimp only
  rw [hwx, hw, if_neg (by decide)]
  obtain ⟨h1, h2, -⟩ := Dev.refEnter_disq hn (if ended then x.refUnend n else x)
  refine ⟨h1, h2.trans ?_⟩
  have hu : OnlyRegs (fun a => a = rREF_STAT n ∨ a = rREF_EVT n ∨ a = rREF_WTR_LEFT n) x (if ended then x.refUnend n else x) := by
    split
    · have hs := (OnlyRegs.refl (fun a => a = rREF_STAT n ∨ a = rREF_EVT n ∨ a = rREF_WTR_LEFT n) x).wr (REF_STAT_STATE n) 2 (Or.inl rfl)
      exact (((hs.unEvt (REF_EVT_QUAL n) (Or.inr (Or.inl rfl))).unEvt (REF_EVT_WTR_END n) (Or.inr (Or.inl rfl))).wr (REF_WTR_LEFT_LEFT n) _
        (Or.inr (Or.inr rfl))).setRef n _
    · exact OnlyRegs.refl _ x
  rw [hu.rd (REF_DISQ_CNT_COUNT n) (by rintro (h | h | h); exacts [hcs h, hce h, hcl h]), hx]

end Sys2Proof.Machine
end

section
/-!
PROOF. Causes that clear, the wait to restore, and the windows of a reference monitor (05 R139, R144, R147; O52).
-/

namespace Sys2Proof.Machine

variable {d : Dev} {n : Nat}

/-- A monitor that becomes QUAL, or STRAY where the stray dwell is complete. -/
theorem Dev.refQualify_stat (d : Dev) (n : Nat) :
    (d.refQualify n).refState n = (if d.strayDone n then 4 else 3) ∧ (d.refQualify n).refCauses n = d.refCauses n := by
  unfold Dev.refQualify
  by_cases h : d.strayDone n = true
  · rw [if_pos h, if_pos h]
    have hne : rREF_STAT n ≠ rREF_EVT n := by unfold rREF_STAT rREF_EVT; omega
    have h0 := ((OnlyRegs.refl (· = rREF_EVT n) d).askSelect none).evtIf (decide (d.refState n = 2)) (REF_EVT_WTR_END n) rfl
    unfold Dev.refStray
    dsimp only
    generalize (d.askSelect none).evtIf (decide (d.refState n = 2)) (REF_EVT_WTR_END n) = x at h0
    have hw := Dev.rd_wr_self x (REF_STAT_STATE n) 4 ⟨show (29 : Nat) ≤ 31 by decide, show (31 : Nat) < 32 by decide⟩
    have hc := Dev.rd_wr_apart (f := REF_STAT_STATE n) (g := ⟨rREF_STAT n, 6, 0⟩) (Fld.apart_bits (by decide)) x 4
    generalize x.wr (REF_STAT_STATE n) 4 = y at hw hc
    exact ⟨(Dev.rd_setRef ..).trans hw, ((Dev.rd_setRef ..).trans hc).trans (h0.rd ⟨rREF_STAT n, 6, 0⟩ hne)⟩
  · rw [if_neg h, if_neg h]
    exact d.refEnter_stat n 3 (by decide)

/-- A monitor that is not in WTR, or whose wait has not ended, stays as it is. -/
theorem Dev.refSettle_of_not (h : d.refState n ≠ 2 ∨ (d.ref n).wtrDone = false ∨ (d.ref n).fmOk = false) : d.refSettle n = d := by
  unfold Dev.refSettle Dev.when
  refine if_neg ?_
  rcases h with h | h | h <;> simp [h]

/-- The device as the last of a monitor's causes has cleared. -/
def Dev.refCleared (n mask : Nat) (d : Dev) : Dev :=
  let x := d.wr ⟨rREF_STAT n, 6, 0⟩ (andNot (d.refCauses n) mask)
  x.setRef n fun m => { m with wtrDone := false, fmOk := decide (m.okAt = some x.clk.edge) }

theorem Dev.wr_causes (d : Dev) (n v : Nat) (hv : v < 128) :
    (d.wr ⟨rREF_STAT n, 6, 0⟩ v).refCauses n = v ∧ (d.wr ⟨rREF_STAT n, 6, 0⟩ v).refState n = d.refState n := by
  refine ⟨?_, Dev.rd_wr_apart (f := ⟨rREF_STAT n, 6, 0⟩) (Fld.apart_bits (by decide)) d v⟩
  unfold Dev.refCauses
  rw [Dev.rd_wr_self _ _ _ (by simp only [Fld.ok]; omega)]
  exact Nat.mod_eq_of_lt hv

theorem Dev.refCleared_spec (hl : n < d.refs.length) {mask : Nat} (h0 : andNot (d.refCauses n) mask = 0) :
    (d.refCleared n mask).refCauses n = 0 ∧ (d.refCleared n mask).refState n = d.refState n ∧
      ((d.refCleared n mask).ref n).wtrDone = false ∧ (d.refCleared n mask).rd (REF_WTR_WTR n) = d.rd (REF_WTR_WTR n) ∧
      (d.refCleared n mask).strayDone n = d.strayDone n := by
  obtain ⟨hc, hs⟩ := d.wr_causes n 0 (by decide)
  have hsoft := Dev.rd_wr_apart (f := ⟨rREF_STAT n, 6, 0⟩) (g := REF_STAT_SOFT_CNT n) (Fld.apart_bits (by decide)) d 0
  have honly := (OnlyRegs.refl (· = rREF_STAT n) d).wr ⟨rREF_STAT n, 6, 0⟩ 0 rfl
  have hlen : n < (d.wr ⟨rREF_STAT n, 6, 0⟩ 0).refs.length := hl
  unfold Dev.refCleared
  rw [h0]
  dsimp only
  generalize d.wr ⟨rREF_STAT n, 6, 0⟩ 0 = x at hc hs hsoft honly hlen
  have hx := (OnlyRegs.refl (fun _ => False) x).setRef n fun m => { m with wtrDone := false, fmOk := decide (m.okAt = some x.clk.edge) }
  have hd : ((x.setRef n fun m => { m with wtrDone := false, fmOk := decide (m.okAt = some x.clk.edge) }).ref n).wtrDone = false := by
    rw [Dev.ref_setRef_self hlen]
  generalize (x.setRef n fun m => { m with wtrDone := false, fmOk := decide (m.okAt = some x.clk.edge) }) = y at hx hd
  refine ⟨(hx.rd ⟨rREF_STAT n, 6, 0⟩ id).trans hc, (hx.rd (REF_STAT_STATE n) id).trans hs, hd,
    (hx.rd _ id).trans (honly.rd (REF_WTR_WTR n) (show rREF_WTR n ≠ rREF_STAT n by unfold rREF_WTR rREF_STAT; omega)), ?_⟩
  unfold Dev.strayDone Dev.rdIn
  rw [hx.rd _ id, hx.rd _ id, hsoft, honly.rd (REF_SOFT_DWELL n) (show rREF_SOFT n ≠ rREF_STAT n by unfold rREF_SOFT rREF_STAT; omega)]

/-- The last cause of a monitor in DISQ clears: the wait begins, or without one the monitor qualifies. -/
theorem Dev.refClear_last {mask : Nat} (hl : n < d.refs.length) (hn : n < 12) (h1 : d.refState n = 1) (hm : mask = 2 ∨ mask = 16)
    (hc : d.refCauses n = mask) :
    (d.rd (REF_WTR_WTR n) ≠ 0 →
      (d.refClear n mask).refState n = 2 ∧ (d.refClear n mask).refCauses n = 0 ∧
        (d.refClear n mask).rd (REF_WTR_LEFT_LEFT n) = d.rd (REF_WTR_WTR n) ∧ ((d.refClear n mask).ref n).wtrDone = false) ∧
    (d.rd (REF_WTR_WTR n) = 0 →
      (d.refClear n mask).refState n = (if d.strayDone n then 4 else 3) ∧ (d.refClear n mask).refCauses n = 0) := by
  have h0 : andNot (d.refCauses n) mask = 0 := by rw [hc]; rcases hm with rfl | rfl <;> rfl
  obtain ⟨gc, gs, gd, gw, gy⟩ := Dev.refCleared_spec hl h0
  have hgone : ∀ v, (d.refCauses n ||| v) &&& monCauses ≠ 0 := fun v h => by
    have bit : ∀ k, Nat.testBit mask k = true → monCauses.testBit k = true → False := fun k h1 h2 => by
      have hb : ((d.refCauses n ||| v) &&& monCauses).testBit k = true := by rw [Nat.testBit_and, Nat.testBit_or, hc, h1, h2]; rfl
      rw [h, Nat.zero_testBit] at hb
      exact absurd hb (by decide)
    rcases hm with rfl | rfl
    · exact bit 1 (by decide) (by decide)
    · exact bit 4 (by decide) (by decide)
  have hx1 : (d.wr ⟨rREF_STAT n, 6, 0⟩ (andNot (d.refCauses n) mask)).refState n = 1 := by
    rw [h0]
    exact (d.wr_causes n 0 (by decide)).2.trans h1
  have hw0 : (d.wr ⟨rREF_STAT n, 6, 0⟩ (andNot (d.refCauses n) mask)).rd (REF_WTR_WTR n) = d.rd (REF_WTR_WTR n) :=
    Dev.rd_wr_of_ne _ _ _ _ (show rREF_WTR n ≠ rREF_STAT n by unfold rREF_WTR rREF_STAT; omega)
  have heq : d.refClear n mask = if d.rd (REF_WTR_WTR n) ≠ 0 then
      ((d.refCleared n mask).wr (REF_WTR_LEFT_LEFT n) (d.rd (REF_WTR_WTR n))).refEnter n 2 else (d.refCleared n mask).refQualify n := by
    unfold Dev.refClear
    dsimp only
    rw [if_neg (by rw [h0, hc]; rcases hm with rfl | rfl <;> decide), if_neg (by rw [hx1]; simp [h0]), hw0]
    unfold Dev.refCleared
    simp only [hgone, ne_eq, not_false_eq_true, true_and]
  rw [heq]
  generalize d.refCleared n mask = x at gc gs gd gw gy
  refine ⟨fun hw => ?_, fun hw => ?_⟩
  · rw [if_pos hw]
    have hwr := Dev.rd_wr_self x (REF_WTR_LEFT_LEFT n) (d.rd (REF_WTR_WTR n)) ⟨Nat.zero_le _, show (15 : Nat) < 32 by decide⟩
    have hfr := (OnlyRegs.refl (· = rREF_WTR_LEFT n) x).wr (REF_WTR_LEFT_LEFT n) (d.rd (REF_WTR_WTR n)) rfl
    have href := RefsSame.wr x (REF_WTR_LEFT_LEFT n) (d.rd (REF_WTR_WTR n))
    generalize x.wr (REF_WTR_LEFT_LEFT n) (d.rd (REF_WTR_WTR n)) = y at hwr hfr href
    obtain ⟨es, ec⟩ := y.refEnter_stat n 2 (by decide)
    refine ⟨es, ec.trans ((hfr.rd ⟨rREF_STAT n, 6, 0⟩ (show rREF_STAT n ≠ rREF_WTR_LEFT n by unfold rREF_STAT rREF_WTR_LEFT; omega)).trans gc), ?_, ?_⟩
    · rw [(OnlyRegs.refTurn_enter n 2 y).rd (REF_WTR_LEFT_LEFT n) (not_refTurn (b := 0x020040) hn), hwr]
      refine Nat.mod_eq_of_lt ?_
      unfold Dev.rd
      exact bitsOf_lt _ _ _
    · rw [(RefsSame.refEnter y n 2).same n |>.wtrDone, (href.same n).wtrDone]
      exact gd
  · rw [if_neg (by simpa using hw)]
    obtain ⟨es, ec⟩ := x.refQualify_stat n
    exact ⟨es.trans (by rw [gy]), ec.trans gc⟩

/-- A cause that clears and is not the last leaves the monitor in DISQ. -/
theorem Dev.refClear_more {mask : Nat} (h1 : d.refState n = 1) (hc : andNot (d.refCauses n) mask ≠ 0) :
    (d.refClear n mask).refState n = 1 ∧ (d.refClear n mask).refCauses n = andNot (d.refCauses n) mask := by
  have hlt : andNot (d.refCauses n) mask < 128 := by
    have : d.refCauses n < 2 ^ 7 := by unfold Dev.refCauses; exact bitsOf_lt _ _ _
    exact Nat.lt_of_le_of_lt Nat.and_le_left this
  obtain ⟨gc, gs⟩ := d.wr_causes n _ hlt
  unfold Dev.refClear
  dsimp only
  split
  · next h => exact ⟨h1, h⟩
  · rw [if_pos (Or.inl hc)]
    exact ⟨gs.trans h1, gc⟩

end Sys2Proof.Machine
end

section
/-!
PROOF. The windows of a reference monitor (05 R139, R147; O52).
-/

namespace Sys2Proof.Machine

variable {d : Dev} {n : Nat}

/-! ### The wait to restore -/

/-- A monitor in WTR that becomes QUAL or STRAY notes the end of its wait. -/
theorem Dev.refQualify_wtrEnd (h2 : d.refState n = 2) : (d.refQualify n).flag (REF_EVT_WTR_END n) = true := by
  have hs : rREF_EVT n ≠ rREF_STAT n := by unfold rREF_EVT rREF_STAT; omega
  have hself : ((d.askSelect none).evt (REF_EVT_WTR_END n)).flag (REF_EVT_WTR_END n) = true :=
    Dev.flag_evt_self _ (REF_EVT_WTR_END n) rfl (show (7 : Nat) < 24 by decide)
  unfold Dev.refQualify
  split
  · unfold Dev.refStray
    dsimp only
    rw [h2, show decide (2 = 2) = true from rfl]
    unfold Dev.evtIf
    rw [if_pos rfl]
    generalize (d.askSelect none).evt (REF_EVT_WTR_END n) = x at hself
    exact ((((OnlyRegs.refl (· = rREF_STAT n) x).wr (REF_STAT_STATE n) 4 rfl).setRef n _).flag (REF_EVT_WTR_END n) hs).trans hself
  · have hl : (d.refLeave n 3).flag (REF_EVT_WTR_END n) = true := by
      unfold Dev.refLeave
      have h0 : (d.askSelect none).refState n = 2 := h2
      dsimp only
      rw [h0, show decide (2 = 4) = false from rfl, show (decide (2 = 2) && decide (3 ≤ 3)) = true from rfl]
      unfold Dev.evtIf
      rw [if_pos rfl, if_neg (by decide)]
      generalize (d.askSelect none).evt (REF_EVT_WTR_END n) = x at hself
      exact ((((OnlyRegs.refl (· = rREF_STAT n) x).when false _ ((OnlyRegs.refl _ _).setRef _ _)).wr (REF_STAT_STATE n) 3 rfl).flag
        (REF_EVT_WTR_END n) hs).trans hself
    rw [Dev.refEnter_eq]
    generalize d.refLeave n 3 = x at hl
    exact Dev.flag_evt_mono ⟨rfl, show (7 : Nat) < 24 by decide⟩ (g := REF_EVT_QUAL n) ⟨rfl, show (6 : Nat) < 24 by decide⟩ hl

/-- The end of a wait, with a qualifying result and without one. -/
theorem Dev.refWtrEnd_spec (hl : n < d.refs.length) (hn : n < 12) (h2 : d.refState n = 2) :
    ((d.ref n).fmOk = true → (d.refWtrEnd n).refState n = (if d.strayDone n then 4 else 3) ∧
      (d.refWtrEnd n).rd (REF_WTR_LEFT_LEFT n) = 0 ∧ (d.refWtrEnd n).flag (REF_EVT_WTR_END n) = true) ∧
    ((d.ref n).fmOk = false → (d.refWtrEnd n).refState n = 2 ∧ (d.refWtrEnd n).rd (REF_WTR_LEFT_LEFT n) = 0 ∧
      ((d.refWtrEnd n).ref n).wtrDone = true) := by
  have hw := Dev.rd_wr_self d (REF_WTR_LEFT_LEFT n) 0 ⟨Nat.zero_le _, show (15 : Nat) < 32 by decide⟩
  have ho := (OnlyRegs.refl (· = rREF_WTR_LEFT n) d).wr (REF_WTR_LEFT_LEFT n) 0 rfl
  have hr := RefsSame.wr d (REF_WTR_LEFT_LEFT n) 0
  have hst : rREF_STAT n ≠ rREF_WTR_LEFT n := by unfold rREF_STAT rREF_WTR_LEFT; omega
  have hso : rREF_SOFT n ≠ rREF_WTR_LEFT n := by unfold rREF_SOFT rREF_WTR_LEFT; omega
  unfold Dev.refWtrEnd
  rw [if_pos h2]
  generalize d.wr (REF_WTR_LEFT_LEFT n) 0 = x at hw ho hr
  have hxl : n < x.refs.length := by rw [hr.length]; exact hl
  have hx := (OnlyRegs.refl (fun _ => False) x).setRef n fun m => { m with wtrDone := true }
  have hm : ((x.setRef n fun m => { m with wtrDone := true }).ref n) = { x.ref n with wtrDone := true } := Dev.ref_setRef_self hxl _
  generalize (x.setRef n fun m => { m with wtrDone := true }) = y at hx hm
  have hys : y.refState n = 2 := ((hx.rd (REF_STAT_STATE n) id).trans (ho.rd (REF_STAT_STATE n) hst)).trans h2
  have hyl : y.rd (REF_WTR_LEFT_LEFT n) = 0 := (hx.rd _ id).trans hw
  have hyd : y.strayDone n = d.strayDone n := by
    unfold Dev.strayDone Dev.rdIn
    rw [hx.rd _ id, hx.rd _ id, ho.rd (REF_SOFT_DWELL n) hso, ho.rd (REF_STAT_SOFT_CNT n) hst]
  have hyk : (y.ref n).wtrDone = true := by rw [hm]
  have hyf : (y.ref n).fmOk = (d.ref n).fmOk := by rw [hm]; exact (hr.same n).fmOk
  refine ⟨fun hok => ?_, fun hok => ?_⟩
  · have hq : y.refSettle n = y.refQualify n := by
      unfold Dev.refSettle Dev.when
      exact if_pos (by rw [hys, hyk, hyf, hok]; rfl)
    rw [hq]
    exact ⟨(y.refQualify_stat n).1.trans (by rw [hyd]), ((OnlyRegs.refTurn_qualify n y).rd (REF_WTR_LEFT_LEFT n)
      (not_refTurn (b := 0x020040) hn)).trans hyl, Dev.refQualify_wtrEnd hys⟩
  · rw [Dev.refSettle_of_not (Or.inr (Or.inr (hyf.trans hok)))]
    exact ⟨hys, hyl, hyk⟩

/-! ### What a result leaves -/

/-- The result of a window, and every window, are kept. -/
structure FmKept (n : Nat) (d e : Dev) : Prop where
  foff : e.rd (REF_FOFF_FOFF n) = d.rd (REF_FOFF_FOFF n)
  valid : e.rd (REF_STAT_FM_VALID n) = d.rd (REF_STAT_FM_VALID n)
  win : ∀ i, (e.ref i).win = (d.ref i).win

namespace FmKept

theorem refl (n : Nat) (d : Dev) : FmKept n d d := ⟨rfl, rfl, fun _ => rfl⟩

theorem trans {e f : Dev} (h : FmKept n d e) (h' : FmKept n e f) : FmKept n d f :=
  ⟨h'.foff.trans h.foff, h'.valid.trans h.valid, fun i => (h'.win i).trans (h.win i)⟩

theorem wr (d : Dev) {f : Fld} (v : Nat) (h1 : f.apart (REF_FOFF_FOFF n)) (h2 : f.apart (REF_STAT_FM_VALID n)) : FmKept n d (d.wr f v) :=
  ⟨Dev.rd_wr_apart h1 d v, Dev.rd_wr_apart h2 d v, fun _ => rfl⟩

/-- A field of REF_n_STAT other than FM_VALID. -/
theorem stat (d : Dev) {hi lo : Nat} (v : Nat) (h : lo ≤ hi ∧ (hi < 26 ∨ 26 < lo)) : FmKept n d (d.wr ⟨rREF_STAT n, hi, lo⟩ v) := by
  refine wr d v ⟨⟨Nat.zero_le _, show (31 : Nat) < 32 by decide⟩, h.1, Or.inl ?_⟩
    ⟨⟨Nat.le_refl _, show (26 : Nat) < 32 by decide⟩, h.1, Or.inr ?_⟩
  · show rREF_FOFF n ≠ rREF_STAT n
    unfold rREF_FOFF rREF_STAT
    omega
  · show hi < 26 ∨ 26 < lo
    exact h.2

theorem of_only {A : Nat → Prop} {e : Dev} (h : OnlyRegs A d e) (h1 : ¬ A (rREF_FOFF n)) (h2 : ¬ A (rREF_STAT n))
    (hr : RefsSame d e) : FmKept n d e := ⟨h.rd (REF_FOFF_FOFF n) h1, h.rd (REF_STAT_FM_VALID n) h2, fun i => (hr.same i).win⟩

theorem evt (d : Dev) {f : Fld} (h : f.addr = rREF_EVT n) : FmKept n d (d.evt f) := by
  refine of_only ((OnlyRegs.refl (· = rREF_EVT n) d).evt f h) ?_ ?_ (RefsSame.evt d f)
  · unfold rREF_FOFF rREF_EVT
    omega
  · unfold rREF_STAT rREF_EVT
    omega

theorem evtIf (d : Dev) (b : Bool) {f : Fld} (h : f.addr = rREF_EVT n) : FmKept n d (d.evtIf b f) := by
  cases b
  · exact refl n d
  · exact evt d h

theorem setRef (d : Dev) (k : Nat) (f : RefMon → RefMon) (hf : ∀ m : RefMon, (f m).win = m.win) : FmKept n d (d.setRef k f) := by
  refine ⟨rfl, rfl, fun i => ?_⟩
  unfold Dev.setRef Dev.ref
  dsimp only
  have hlen : (updAt d.refs k f).length = d.refs.length := by simp [updAt]
  by_cases hi : i = k
  · subst hi
    by_cases hl : i < d.refs.length
    · rw [getD_updAt_self _ _ hl]
      exact hf _
    · rw [List.getD_eq_default _ _ (by omega), List.getD_eq_default _ _ (by omega)]
  · rw [getD_updAt_of_ne _ _ hi]

theorem askSelect (d : Dev) (m : Option Nat) : FmKept n d (d.askSelect m) :=
  of_only ((OnlyRegs.refl (fun _ => False) d).askSelect m) id id (RefsSame.of_eq rfl rfl)

theorem when (b : Bool) (f : Dev → Dev) (h : FmKept n d (f d)) : FmKept n d (d.when b f) := by
  cases b
  · exact refl n d
  · exact h

theorem refEnter (hn : n < 12) (d : Dev) (st : Nat) : FmKept n d (d.refEnter n st) := by
  obtain ⟨x, hx, hw⟩ := d.refEnter_split n st
  have hv := Dev.rd_wr_apart (f := REF_STAT_STATE n) (g := REF_STAT_FM_VALID n) (Fld.apart_bits (by decide)) x st
  have hb : ¬ refBeside n (rREF_STAT n) := fun h => h.2 rfl
  exact ⟨(OnlyRegs.refTurn_enter n st d).rd (REF_FOFF_FOFF n) (not_refTurn (b := 0x02003C) hn),
    ((hw.rd (REF_STAT_FM_VALID n) hb).trans hv).trans (hx.rd (REF_STAT_FM_VALID n) hb), fun i => ((RefsSame.refEnter d n st).same i).win⟩

theorem refQualify (hn : n < 12) (d : Dev) : FmKept n d (d.refQualify n) := by
  unfold Dev.refQualify
  split
  · unfold Dev.refStray
    dsimp only
    exact (((askSelect d none).trans (evtIf _ _ rfl)).trans (stat _ 4 (by decide))).trans (setRef _ _ _ fun _ => rfl)
  · exact refEnter hn d 3

theorem refSettle (hn : n < 12) (d : Dev) : FmKept n d (d.refSettle n) := by
  unfold Dev.refSettle
  exact when _ _ (refQualify hn d)

theorem left (d : Dev) (v : Nat) : FmKept n d (d.wr (REF_WTR_LEFT_LEFT n) v) := by
  refine of_only ((OnlyRegs.refl (· = rREF_WTR_LEFT n) d).wr (REF_WTR_LEFT_LEFT n) v rfl) ?_ ?_ (RefsSame.wr d _ v)
  · unfold rREF_FOFF rREF_WTR_LEFT
    omega
  · unfold rREF_STAT rREF_WTR_LEFT
    omega

theorem unEvt (d : Dev) {f : Fld} (h : f.addr = rREF_EVT n) : FmKept n d (d.unEvt f) := by
  refine of_only ((OnlyRegs.refl (· = rREF_EVT n) d).unEvt f h) ?_ ?_ (RefsSame.unEvt d f)
  · unfold rREF_FOFF rREF_EVT
    omega
  · unfold rREF_STAT rREF_EVT
    omega

theorem refClear (hn : n < 12) (d : Dev) (mask : Nat) : FmKept n d (d.refClear n mask) := by
  unfold Dev.refClear
  dsimp only
  split
  · exact refl n d
  · have h1 : FmKept n d (d.wr ⟨rREF_STAT n, 6, 0⟩ (andNot (d.refCauses n) mask)) := stat d _ (by decide)
    generalize d.wr ⟨rREF_STAT n, 6, 0⟩ (andNot (d.refCauses n) mask) = x at h1
    split
    · exact h1
    · have h2 := h1.trans (setRef x n (fun m => { m with wtrDone := false, fmOk := decide (m.okAt = some x.clk.edge) }) fun _ => rfl)
      generalize (x.setRef n fun m => { m with wtrDone := false, fmOk := decide (m.okAt = some x.clk.edge) }) = y at h2
      split
      · exact (h2.trans (left y _)).trans (refEnter hn _ 2)
      · exact h2.trans (refQualify hn y)

theorem refSet (hn : n < 12) (d : Dev) (mask : Nat) : FmKept n d (d.refSet n mask) := by
  unfold Dev.refSet
  split
  · exact refl n d
  · dsimp only
    have h1 : FmKept n d (d.wr ⟨rREF_STAT n, 6, 0⟩ (d.refCauses n ||| mask)) := stat d _ (by decide)
    generalize d.wr ⟨rREF_STAT n, 6, 0⟩ (d.refCauses n ||| mask) = x at h1
    have h2 := h1.trans (askSelect x none)
    generalize x.askSelect none = y at h2
    refine h2.trans (when _ _ ?_)
    split
    · unfold Dev.refBack
      exact (((stat y 1 (by decide)).trans (unEvt _ rfl)).trans (left _ _)).trans (setRef _ _ _ fun _ => rfl)
    · refine (when _ _ ?_).trans (refEnter hn _ 1)
      unfold Dev.refUnend
      exact ((((stat y 2 (by decide)).trans (unEvt _ rfl)).trans (unEvt _ rfl)).trans (left _ _)).trans (setRef _ _ _ fun _ => rfl)

end FmKept

end Sys2Proof.Machine
end

section
/-!
PROOF. A result of a window against its hurdles, and the commands of a reference monitor (05 R139, R144 to R147; O52).
-/

namespace Sys2Proof.Machine

variable {d : Dev} {n : Nat}

/-- A result that a window gives stands, and with it every window. -/
theorem Dev.fmJudge_kept (hn : n < 12) (f : Int) (pj : Bool) (d : Dev) :
    FmKept n ((d.wr (REF_FOFF_FOFF n) (twos 32 f)).wr (REF_STAT_FM_VALID n) 1) (d.fmJudge n f pj) := by
  unfold Dev.fmJudge
  extract_lets a hard soft ok d1 d2 setHard d3 d4 d5 clr d6 d7 d8 dw
  have h2 : FmKept n d1 d2 := FmKept.setRef _ _ _ fun _ => rfl
  have h3 : FmKept n d2 d3 := by
    show FmKept n d2 (if soft ≤ a then d2.bumpSat (REF_STAT_SOFT_CNT n) else d2.wr (REF_STAT_SOFT_CNT n) 0)
    clear_value d2
    split
    · unfold Dev.bumpSat
      split
      · exact FmKept.stat d2 _ (by decide)
      · exact FmKept.refl n d2
    · exact FmKept.stat d2 0 (by decide)
  have h4 : FmKept n d3 d4 := FmKept.when _ _ (FmKept.setRef _ _ _ fun m => by split <;> rfl)
  have h5 : FmKept n d4 d5 := FmKept.refSet hn d4 _
  have h6 : FmKept n d5 d6 := FmKept.refClear hn d5 clr
  have h7 : FmKept n d6 d7 := FmKept.when _ _ (FmKept.setRef _ _ _ fun _ => rfl)
  have h8 : FmKept n d7 d8 := FmKept.refSettle hn d7
  have h := ((((((h2.trans h3).trans h4).trans h5).trans h6).trans h7).trans h8)
  clear_value d8
  split
  · exact h.trans (FmKept.when _ _ (FmKept.refEnter hn _ 4))
  · exact h.trans (FmKept.when _ _ ((FmKept.stat _ 0 (by decide)).trans (FmKept.refEnter hn _ 3)))
  · exact h

/-- What a change beside the causes and the state leaves: both, and the tuning of the HARD hurdle. -/
structure HardKept (n : Nat) (d e : Dev) : Prop where
  state : e.refState n = d.refState n
  causes : e.refCauses n = d.refCauses n
  dwell : e.rdIn (REF_HARD_DWELL n) 1 255 = d.rdIn (REF_HARD_DWELL n) 1 255
  count : (e.ref n).hardCnt = (d.ref n).hardCnt
  length : e.refs.length = d.refs.length

namespace HardKept

theorem refl (d : Dev) : HardKept n d d := ⟨rfl, rfl, rfl, rfl, rfl⟩

theorem trans {e f : Dev} (h : HardKept n d e) (h' : HardKept n e f) : HardKept n d f :=
  ⟨h'.state.trans h.state, h'.causes.trans h.causes, h'.dwell.trans h.dwell, h'.count.trans h.count, h'.length.trans h.length⟩

theorem wr (d : Dev) {f : Fld} (v : Nat) (h1 : f.apart (REF_STAT_STATE n)) (h2 : f.apart ⟨rREF_STAT n, 6, 0⟩)
    (h3 : f.apart (REF_HARD_DWELL n)) : HardKept n d (d.wr f v) := by
  refine ⟨Dev.rd_wr_apart h1 d v, Dev.rd_wr_apart h2 d v, ?_, rfl, rfl⟩
  unfold Dev.rdIn
  rw [Dev.rd_wr_apart h3 d v]

/-- A field of REF_n_STAT between the causes and the state. -/
theorem stat (d : Dev) {hi lo : Nat} (v : Nat) (h : lo ≤ hi ∧ 6 < lo ∧ hi < 29) : HardKept n d (d.wr ⟨rREF_STAT n, hi, lo⟩ v) := by
  refine wr d v ⟨⟨show (29 : Nat) ≤ 31 by decide, show (31 : Nat) < 32 by decide⟩, h.1, Or.inr (Or.inl h.2.2)⟩
    ⟨⟨Nat.zero_le _, show (6 : Nat) < 32 by decide⟩, h.1, Or.inr (Or.inr h.2.1)⟩
    ⟨⟨show (24 : Nat) ≤ 31 by decide, show (31 : Nat) < 32 by decide⟩, h.1, Or.inl ?_⟩
  show rREF_HARD n ≠ rREF_STAT n
  unfold rREF_HARD rREF_STAT
  omega

theorem setRef (d : Dev) (f : RefMon → RefMon) (hf : ∀ m : RefMon, (f m).hardCnt = m.hardCnt) : HardKept n d (d.setRef n f) := by
  have hlen : (updAt d.refs n f).length = d.refs.length := by simp [updAt]
  refine ⟨rfl, rfl, rfl, ?_, hlen⟩
  by_cases hl : n < d.refs.length
  · rw [Dev.ref_setRef_self hl]
    exact hf _
  · unfold Dev.setRef Dev.ref
    dsimp only
    rw [List.getD_eq_default _ _ (by omega), List.getD_eq_default _ _ (by omega)]

theorem when (b : Bool) (f : Dev → Dev) (h : HardKept n d (f d)) : HardKept n d (d.when b f) := by
  cases b
  · exact refl d
  · exact h

end HardKept

/-- A result at or above HARD, the last of its dwell, sends the monitor to DISQ with cause HARD (R147). -/
theorem Dev.fmJudge_hard {f : Int} {pj : Bool} (hl : n < d.refs.length) (h0 : d.refState n ≠ 0)
    (hh : d.rdIn (REF_HARD_HURDLE n) 1 1048575 * 100 ≤ f.natAbs)
    (hd : d.rdIn (REF_HARD_DWELL n) 1 255 ≤ (d.ref n).hardCnt + 1) :
    (d.fmJudge n f pj).refState n = 1 ∧ (d.fmJudge n f pj).flag (REF_STAT_HARD n) = true := by
  have hpos : 1 ≤ d.rdIn (REF_HARD_HURDLE n) 1 1048575 := by
    unfold Dev.rdIn clampN
    split
    · exact Nat.le_refl _
    · split <;> omega
  unfold Dev.fmJudge
  extract_lets a hard soft ok d1 d2 setHard d3 d4 d5 clr d6 d7 d8 dw
  have hok : ok = false := decide_eq_false (by show ¬ (8 * f.natAbs < 7 * (d.rdIn (REF_HARD_HURDLE n) 1 1048575 * 100)); omega)
  have h1 : HardKept n d d1 := by
    refine HardKept.trans (HardKept.wr d (f := REF_FOFF_FOFF n) _ ?_ ?_ ?_) (HardKept.stat _ 1 (by decide))
    · exact ⟨⟨show (29 : Nat) ≤ 31 by decide, show (31 : Nat) < 32 by decide⟩, Nat.zero_le _,
        Or.inl (show rREF_STAT n ≠ rREF_FOFF n by unfold rREF_STAT rREF_FOFF; omega)⟩
    · exact ⟨⟨Nat.zero_le _, show (6 : Nat) < 32 by decide⟩, Nat.zero_le _,
        Or.inl (show rREF_STAT n ≠ rREF_FOFF n by unfold rREF_STAT rREF_FOFF; omega)⟩
    · exact ⟨⟨show (24 : Nat) ≤ 31 by decide, show (31 : Nat) < 32 by decide⟩, Nat.zero_le _,
        Or.inl (show rREF_HARD n ≠ rREF_FOFF n by unfold rREF_HARD rREF_FOFF; omega)⟩
  have hd1 : n < d1.refs.length := by rw [h1.length]; exact hl
  have hcnt : (d2.ref n).hardCnt = (d.ref n).hardCnt + 1 := by
    rw [show d2 = d1.setRef n fun m => { m with hardCnt := if hard ≤ a then m.hardCnt + 1 else 0 } from rfl, Dev.ref_setRef_self hd1]
    show (if hard ≤ a then (d1.ref n).hardCnt + 1 else 0) = _
    rw [if_pos hh, h1.count]
  have hset : setHard = true := by
    show (decide (hard ≤ a) && decide (d2.rdIn (REF_HARD_DWELL n) 1 255 ≤ (d2.ref n).hardCnt)) = true
    have hdw : d2.rdIn (REF_HARD_DWELL n) 1 255 = d1.rdIn (REF_HARD_DWELL n) 1 255 := by
      unfold Dev.rdIn
      exact congrArg (clampN 1 255) (Dev.rd_setRef ..)
    rw [hcnt, hdw, h1.dwell, decide_eq_true hd, Bool.and_true]
    exact decide_eq_true hh
  have h3 : HardKept n d2 d3 := by
    show HardKept n d2 (if soft ≤ a then d2.bumpSat (REF_STAT_SOFT_CNT n) else d2.wr (REF_STAT_SOFT_CNT n) 0)
    clear_value d2
    split
    · unfold Dev.bumpSat
      split
      · exact HardKept.stat d2 _ (by decide)
      · exact HardKept.refl d2
    · exact HardKept.stat d2 0 (by decide)
  have h4 : HardKept n d3 d4 := by
    refine HardKept.when (decide (d3.refState n = 4))
      (fun d => d.setRef n fun m => { m with clearCnt := if 8 * a < 7 * soft then m.clearCnt + 1 else 0 }) ?_
    exact HardKept.setRef d3 _ fun _ => rfl
  have hs4 : d4.refState n = d.refState n := ((h3.trans h4).state.trans (Dev.rd_setRef ..)).trans h1.state
  have h5 := d4.refSet_stat n 4 (by rw [hs4]; exact h0) (by decide) (by decide)
  have hd5 : d5 = d4.refSet n 4 := by
    show d4.refSet n (if setHard then 4 else 0) = _
    rw [hset, if_pos rfl]
  rw [← hd5, hs4] at h5
  have hs5 : d5.refState n = 1 := h5.2.trans (by split <;> omega)
  have hclr : clr = 0 ∨ clr = 8 := by
    show (if pj then 8 else 0) + (if ok then _ else 0) = 0 ∨ (if pj then 8 else 0) + (if ok then _ else 0) = 8
    rw [hok]
    cases pj
    · exact Or.inl rfl
    · exact Or.inr rfl
  have hbit : (andNot (d5.refCauses n) clr).testBit 2 = true := by
    unfold andNot
    rw [h5.1, Nat.testBit_and, Nat.testBit_or, show Nat.testBit 4 2 = true by decide, Bool.or_true, Bool.true_and]
    rcases hclr with h | h <;> rw [h] <;> decide
  have h6 := Dev.refClear_more (d := d5) (mask := clr) hs5 fun h => by rw [h, Nat.zero_testBit] at hbit; exact absurd hbit (by decide)
  have hd7 : d7 = d6 := by
    show d6.when ok _ = d6
    rw [hok]
    rfl
  have hs6 : d6.refState n = 1 := h6.1
  have hc6 : d6.flag (REF_STAT_HARD n) = true := Dev.refCauses_flag (k := 2) (by decide) (h6.2 ▸ hbit)
  have hd8 : d8 = d6 := by
    show d7.refSettle n = d6
    rw [hd7, Dev.refSettle_of_not (Or.inl (by rw [hs6]; decide))]
  clear_value d8 d6 dw
  subst hd8
  rw [hs6]
  exact ⟨hs6, hc6⟩

/-! ### The commands -/

theorem Dev.fmNext_ref (hl : n < d.refs.length) (w : FmWin) :
    ((d.fmNext n w).ref n).win = some (d.fmWin n w.stop w.refNext w.baseNext w.refLost w.baseLost) ∧
      ((d.fmNext n w).ref n).hardCnt = (d.ref n).hardCnt ∧ (d.fmNext n w).refs.length = d.refs.length := by
  have hlen : (d.fmNext n w).refs.length = d.refs.length := by simp [Dev.fmNext, Dev.setRef, updAt]
  unfold Dev.fmNext at hlen ⊢
  dsimp only at hlen ⊢
  rw [Dev.ref_setRef_self hl]
  exact ⟨rfl, rfl, hlen⟩

theorem Dev.only_fmNext (n : Nat) (w : FmWin) (d : Dev) : OnlyRegs (fun _ => False) d (d.fmNext n w) :=
  (OnlyRegs.refl _ d).setRef n _

/-- What the end of a window does for a reference. -/
theorem Dev.windowEnd_eq {w : FmWin} (hn : n < 12) (hw : (d.ref n).win = some w) :
    ∃ pj, d.windowEnd n = match d.fmResult w n (if d.flag REF_OCXO_STAT_BASE = true then 50 else 51) with
      | some f => ((d.fmNext n w).fmJudge n f pj).askSelect (some n)
      | none => if pj then ((d.fmNext n w).refClear n 8).refSettle n else d.fmNext n w := by
  refine ⟨!w.discarded && !(d.ref n).jumped && n < 12 && d.flag (REF_STAT_PJUMP n), ?_⟩
  have hb : (if n < 12 ∧ ¬ d.flag REF_OCXO_STAT_BASE then 51 else 50) = (if d.flag REF_OCXO_STAT_BASE = true then 50 else 51) := by
    cases d.flag REF_OCXO_STAT_BASE <;> simp [hn]
  unfold Dev.windowEnd Dev.fmWindowEnd
  rw [hw]
  dsimp only
  rw [if_neg (by omega : ¬ n = 12), hb]
  cases d.fmResult w n (if d.flag REF_OCXO_STAT_BASE = true then 50 else 51) with
  | some f =>
    dsimp only
    rw [if_neg (by omega : ¬ n = 12), decide_eq_true hn]
    rfl
  | none => rfl

theorem Dev.windowEnd_none (hw : (d.ref n).win = none) : d.windowEnd n = d := by
  unfold Dev.windowEnd Dev.fmWindowEnd
  rw [hw]
  rfl

/-- A signed number in the range of a register of 32 bits reads back. -/
theorem Dev.rdS_wr_twos (d : Dev) {f : Fld} (hf : f.hi = 31 ∧ f.lo = 0) {x : Int} (h1 : -(2 ^ 31) ≤ x) (h2 : x < 2 ^ 31) :
    (d.wr f (twos 32 x)).rdS f = x := by
  unfold Dev.rdS
  rw [Dev.rd_wr_self d f _ ⟨by omega, by omega⟩, hf.1, hf.2]
  refine Eq.trans ?_ (sext_twos (n := 32) x (by decide) h1 h2)
  unfold sext
  simp only [Nat.sub_zero, Nat.reduceAdd, Nat.mod_mod]

/-- A result is in the range of REF_n_FOFF (R139). -/
theorem Dev.fmResult_range {w : FmWin} {r b : Nat} {f : Int} (h : d.fmResult w r b = some f) : -(2 ^ 31) ≤ f ∧ f < 2 ^ 31 := by
  have sat : ∀ x : Int, -(2 ^ 31) ≤ satI 32 x ∧ satI 32 x < 2 ^ 31 := fun x => by
    unfold satI clampI
    split
    · decide
    · split
      · decide
      · simp only [Nat.add_one_sub_one] at *
        omega
  unfold Dev.fmResult at h
  dsimp only at h
  split at h
  · exact absurd h (by simp)
  · split at h
    · exact absurd h (by simp)
    · cases h
      exact sat _

theorem OnlyRegs.fmJudge {d0 : Dev} (h : OnlyRegs (refSide n) d0 d) (f : Int) (pj : Bool) : OnlyRegs (refSide n) d0 (d.fmJudge n f pj) := by
  unfold Dev.fmJudge
  extract_lets a hard soft ok d1 d2 setHard d3 d4 d5 clr d6 d7 d8 dw
  have h2 : OnlyRegs (refSide n) d0 d2 := ((h.wr (REF_FOFF_FOFF n) _ .ref).wr (REF_STAT_FM_VALID n) 1 .ref).setRef n _
  have h3 : OnlyRegs (refSide n) d0 d3 := by
    show OnlyRegs (refSide n) d0 (if soft ≤ a then d2.bumpSat (REF_STAT_SOFT_CNT n) else d2.wr (REF_STAT_SOFT_CNT n) 0)
    clear_value d2
    split
    · exact h2.bumpSat _ .ref
    · exact h2.wr _ _ .ref
  have h4 : OnlyRegs (refSide n) d0 d4 := h3.when _ _ ((OnlyRegs.refl _ _).setRef n _)
  have h6 : OnlyRegs (refSide n) d0 d6 := (h4.refSet _).refClear clr
  have h8 : OnlyRegs (refSide n) d0 d8 := (h6.when _ _ ((OnlyRegs.refl _ _).setRef n _)).refSettle
  clear_value d8
  split
  · exact h8.when _ _ ((OnlyRegs.refl _ _).refEnter 4)
  · exact h8.when _ _ (((OnlyRegs.refl _ _).wr (REF_STAT_SOFT_CNT n) 0 .ref).refEnter 3)
  · exact h8

theorem OnlyRegs.windowEnd (hn : n < 12) (d : Dev) : OnlyRegs (refSide n) d (d.windowEnd n) := by
  cases hw : (d.ref n).win with
  | none => rw [Dev.windowEnd_none hw]; exact OnlyRegs.refl _ d
  | some w =>
    obtain ⟨pj, he⟩ := Dev.windowEnd_eq hn hw
    have h := (Dev.only_fmNext n w d).mono (B := refSide n) fun _ => False.elim
    rw [he]
    split
    · exact (h.fmJudge _ pj).askSelect _
    · split
      · exact (h.refClear 8).refSettle
      · exact h

/-- The loss of a reference's activity. -/
theorem Dev.refLoss_eq (hn : n < 12) (h0 : d.refState n ≠ 0) (ha : d.flag (REF_STAT_ACTIVITY n) = false) :
    ∃ y, OnlyRegs (fun a => a = rREF_STAT n ∨ a = rREF_EVT n) d y ∧ y.refState n = d.refState n ∧
      y.refWasDisq n = d.refWasDisq n ∧ y.flag (REF_EVT_ACTIVITY n) = true ∧ (y.setNow (rREF_EVT n)).testBit 0 = true ∧
      d.refLoss n = y.refSet n 2 := by
  have hx := (OnlyRegs.refl (fun a => a = rREF_STAT n ∨ a = rREF_EVT n) d).setRef n fun m => { m with pjPrev := none, pjSp := [], pjEdges := 0 }
  have hx0 := (OnlyRegs.refl (fun _ => False) d).setRef n fun m => { m with pjPrev := none, pjSp := [], pjEdges := 0 }
  have hxo : (d.setRef n fun m => { m with pjPrev := none, pjSp := [], pjEdges := 0 }).old = d.old := rfl
  unfold Dev.refLoss
  dsimp only
  rw [if_neg (by omega : ¬ n = 12)]
  generalize (d.setRef n fun m => { m with pjPrev := none, pjSp := [], pjEdges := 0 }) = x at hx hx0 hxo
  have hxs : x.refState n = d.refState n := hx0.rd (REF_STAT_STATE n) id
  rw [if_neg (by rw [hxs, hx0.flag (REF_STAT_ACTIVITY n) id, ha]; simp [h0])]
  have hy := (hx.wr (REF_STAT_PJ_ARMED n) 0 (Or.inl rfl)).evt (REF_EVT_ACTIVITY n) (Or.inr rfl)
  refine ⟨_, hy, ?_, ?_, ?_, ?_, rfl⟩
  · refine ((((OnlyRegs.refl (· = rREF_EVT n) (x.wr (REF_STAT_PJ_ARMED n) 0)).evt (REF_EVT_ACTIVITY n) rfl).rd (REF_STAT_STATE n) ?_).trans ?_).trans hxs
    · show rREF_STAT n ≠ rREF_EVT n
      unfold rREF_STAT rREF_EVT
      omega
    · exact Dev.rd_wr_apart (f := REF_STAT_PJ_ARMED n) (Fld.apart_bits (by decide)) x 0
  · exact Dev.refWasDisq_congr (by simp [hxo]) n
  · exact Dev.flag_evt_self _ (REF_EVT_ACTIVITY n) rfl (show (0 : Nat) < 24 by decide)
  · exact Dev.setNow_evt (f := REF_EVT_ACTIVITY n) ⟨rfl, show (0 : Nat) < 24 by decide⟩

/-- An accepted write of REF_n_CMD with WTR_CLR ends the wait. -/
theorem Dev.write_wtrClr {m : Nat} (hn : n < 12) (h : d.Grants m (rREF_CMD n)) :
    ∃ o, d.write m (rREF_CMD n) 1 = ((({ d with outside := o } : Dev)).refWtrEnd n).accessEdge := by
  have row : ∃ r, rowAt (rREF_CMD n) = some r ∧ plainCommand (rREF_CMD n) r = true ∧ r.rw = 0 ∧ r.rws = 0 := by
    interval_cases n <;> exact ⟨_, rfl, by decide, rfl, rfl⟩
  obtain ⟨r, hr, hp, hrw, hrws⟩ := row
  have hcmd : ∀ x : Dev, x.command m (rREF_CMD n) 1 = x.refWtrEnd n := fun x => by interval_cases n <;> rfl
  obtain ⟨o, ho⟩ := Dev.write_bare h hr hp hrw hrws (by decide : 1 < 2 ^ 32)
  exact ⟨o, ho.trans (by rw [hcmd])⟩

end Sys2Proof.Machine
end

section
/-!
PROOF. Causes and states of a reference monitor by its commands (O52).
-/

namespace Sys2Proof.Machine

/-- A monitor's command acts while the device measures. -/
theorem within_measuring {n lim : Nat} {f : Dev → Dev} {d : Dev} (h : n < lim) (hm : d.measuring = true) :
    within n lim (Dev.whenNow Dev.measuring f) d = f d := by
  unfold within Dev.whenNow
  rw [if_pos h, if_pos hm]

theorem Effects.of_measuring {s : State} {c : Instr} {dt n lim : Nat} {f : Dev → Dev} {P : Dev → Prop}
    (hrun : exec c s = run dt (within n lim (Dev.whenNow Dev.measuring f)) s) (h : n < lim) (hm : s.dev.measuring = true)
    (hp : P (f (s.dev.advance dt))) : Effects c s P := by
  refine Effects.of_run hrun ?_
  rw [within_measuring (d := s.dev.advance dt) h hm]
  exact hp

variable {d : Dev} {n : Nat}

theorem Dev.refLoss_spec (hn : n < 12) (h0 : d.refState n ≠ 0) (ha : d.flag (REF_STAT_ACTIVITY n) = false) :
    (d.refLoss n).flag (REF_STAT_ACTIVITY n) = true ∧ (d.refLoss n).flag (REF_EVT_ACTIVITY n) = true ∧ (d.refLoss n).refState n = 1 ∧
      (2 ≤ d.refState n → d.refWasDisq n = false → (d.refLoss n).flag (REF_EVT_DISQ n) = true ∧
        (d.refLoss n).rd (REF_DISQ_CNT_COUNT n) = (d.rd (REF_DISQ_CNT_COUNT n) + 1) % 2 ^ 32) := by
  obtain ⟨y, hy, hs, hw, he, hset, heq⟩ := Dev.refLoss_eq hn h0 ha
  rw [heq]
  obtain ⟨hc, hst⟩ := y.refSet_stat n 2 (by rw [hs]; exact h0) (by decide) (by decide)
  refine ⟨Dev.refCauses_flag (k := 1) (by decide) ?_, ?_, ?_, fun h2 hd => ?_⟩
  · rw [hc, Nat.testBit_or, show Nat.testBit 2 1 = true by decide, Bool.or_true]
  · exact Dev.refSet_event (f := REF_EVT_ACTIVITY n) hn ⟨⟨rfl, show (0 : Nat) < 24 by decide⟩, rfl⟩ ⟨show (0 : Nat) ≠ 6 by decide, show (0 : Nat) ≠ 7 by decide⟩ hset 2 he
  · rw [hst, hs]
    split <;> omega
  · obtain ⟨hf, hn'⟩ := Dev.refSet_disq (d := y) (mask := 2) hn (by decide) (by rw [hs]; exact h2) (hw.trans hd)
    refine ⟨hf, hn'.trans ?_⟩
    rw [hy.rd (REF_DISQ_CNT_COUNT n) fun h => h.elim (show rREF_DISQ_CNT n ≠ rREF_STAT n by unfold rREF_DISQ_CNT rREF_STAT; omega)
      (show rREF_DISQ_CNT n ≠ rREF_EVT n by unfold rREF_DISQ_CNT rREF_EVT; omega)]

/-- A cause that clears, and what the monitor makes of it. -/
theorem Dev.refRecover_spec {mask : Nat} (hl : n < d.refs.length) (hn : n < 12) (h1 : d.refState n = 1) (hm : mask = 2 ∨ mask = 16) :
    (d.refCauses n = mask → d.rd (REF_WTR_WTR n) ≠ 0 → ((d.refClear n mask).refSettle n).refState n = 2 ∧
      ((d.refClear n mask).refSettle n).refCauses n = 0 ∧
      ((d.refClear n mask).refSettle n).rd (REF_WTR_LEFT_LEFT n) = d.rd (REF_WTR_WTR n)) ∧
    (d.refCauses n = mask → d.rd (REF_WTR_WTR n) = 0 → ((d.refClear n mask).refSettle n).refState n = (if d.strayDone n then 4 else 3) ∧
      ((d.refClear n mask).refSettle n).refCauses n = 0) ∧
    (andNot (d.refCauses n) mask ≠ 0 → ((d.refClear n mask).refSettle n).refState n = 1 ∧
      ((d.refClear n mask).refSettle n).refCauses n = andNot (d.refCauses n) mask) := by
  refine ⟨fun hc hw => ?_, fun hc hw => ?_, fun hc => ?_⟩
  · obtain ⟨hs, hz, hleft, hd⟩ := (Dev.refClear_last hl hn h1 hm hc).1 hw
    rw [Dev.refSettle_of_not (Or.inr (Or.inl hd))]
    exact ⟨hs, hz, hleft⟩
  · obtain ⟨hs, hz⟩ := (Dev.refClear_last hl hn h1 hm hc).2 hw
    rw [Dev.refSettle_of_not (Or.inl (by rw [hs]; split <;> decide))]
    exact ⟨hs, hz⟩
  · obtain ⟨hs, hz⟩ := Dev.refClear_more h1 hc
    rw [Dev.refSettle_of_not (Or.inl (by rw [hs]; decide))]
    exact ⟨hs, hz⟩

/-- What the end of a window does with its result. -/
theorem Dev.windowEnd_spec {w : FmWin} (hl : n < d.refs.length) (hn : n < 12) (hw : (d.ref n).win = some w) {r : Option Int}
    (hr : r = d.fmResult w n (if d.flag REF_OCXO_STAT_BASE = true then 50 else 51)) :
    ((d.windowEnd n).ref n).win = some (d.fmWin n w.stop w.refNext w.baseNext w.refLost w.baseLost) ∧
    (∀ f, r = some f → (d.windowEnd n).rdS (REF_FOFF_FOFF n) = f ∧ (d.windowEnd n).flag (REF_STAT_FM_VALID n) = true ∧
      (d.refState n ≠ 0 → d.rdIn (REF_HARD_HURDLE n) 1 1048575 * 100 ≤ f.natAbs →
        d.rdIn (REF_HARD_DWELL n) 1 255 ≤ (d.ref n).hardCnt + 1 →
          (d.windowEnd n).refState n = 1 ∧ (d.windowEnd n).flag (REF_STAT_HARD n) = true)) ∧
    (r = none → (d.windowEnd n).rd (REF_FOFF_FOFF n) = d.rd (REF_FOFF_FOFF n)) := by
  obtain ⟨pj, he⟩ := Dev.windowEnd_eq hn hw
  obtain ⟨hwin, hcnt, hlen⟩ := Dev.fmNext_ref hl w
  have hy := Dev.only_fmNext n w d
  rw [he, ← hr]
  generalize d.fmNext n w = y at hwin hcnt hlen hy
  cases r with
  | none =>
    refine ⟨?_, fun _ h => absurd h (by simp), fun _ => ?_⟩
    · dsimp only
      split
      · exact (((FmKept.refClear hn y 8).trans (FmKept.refSettle hn _)).win n).trans hwin
      · exact hwin
    · dsimp only
      split
      · exact ((FmKept.refClear hn y 8).trans (FmKept.refSettle hn _)).foff.trans (hy.rd _ id)
      · exact hy.rd _ id
  | some f =>
    have hk := (Dev.fmJudge_kept hn f pj y).trans (FmKept.askSelect _ (some n))
    obtain ⟨h1, h2⟩ := Dev.fmResult_range hr.symm
    have hw0 := (((RefsSame.wr y (REF_FOFF_FOFF n) (twos 32 f)).trans (RefsSame.wr _ (REF_STAT_FM_VALID n) 1)).same n).win
    dsimp only
    refine ⟨((hk.win n).trans hw0).trans hwin, fun g hg => ?_, fun h => absurd h (by simp)⟩
    cases hg
    refine ⟨?_, ?_, fun h0 hh hd => ?_⟩
    · have hw1 := Dev.rdS_wr_twos y (f := REF_FOFF_FOFF n) ⟨rfl, rfl⟩ h1 h2
      unfold Dev.rdS at hw1 ⊢
      rw [hk.foff, Dev.rd_wr_of_ne _ _ _ _ (show rREF_FOFF n ≠ rREF_STAT n by unfold rREF_FOFF rREF_STAT; omega)]
      exact hw1
    · refine (Dev.flag_of_rd hk.valid).trans ?_
      exact Dev.flag_wr_self _ (REF_STAT_FM_VALID n) 1 ⟨Nat.le_refl _, show (26 : Nat) < 32 by decide⟩ rfl
    · have hin : ∀ F : Fld, ∀ lo hi, y.rdIn F lo hi = d.rdIn F lo hi := fun F lo hi => congrArg (clampN lo hi) (hy.rd F id)
      have hj := Dev.fmJudge_hard (d := y) (n := n) (f := f) (pj := pj) (by rw [hlen]; exact hl)
        (fun h => h0 ((hy.rd (REF_STAT_STATE n) id).symm.trans h)) (by rw [hin]; exact hh) (by rw [hin, hcnt]; exact hd)
      have ho := (OnlyRegs.refl (fun _ => False) (y.fmJudge n f pj)).askSelect (some n)
      exact ⟨(ho.rd (REF_STAT_STATE n) id).trans hj.1, (ho.flag (REF_STAT_HARD n) id).trans hj.2⟩

theorem OnlyRegs.refLoss (hn : n < 12) (d : Dev) : OnlyRegs (refSide n) d (d.refLoss n) := by
  have hx := (OnlyRegs.refl (refSide n) d).setRef n fun m => { m with pjPrev := none, pjSp := [], pjEdges := 0 }
  unfold Dev.refLoss
  dsimp only
  rw [if_neg (by omega : ¬ n = 12)]
  generalize (d.setRef n fun m => { m with pjPrev := none, pjSp := [], pjEdges := 0 }) = x at hx
  split
  · exact hx
  · exact ((hx.wr _ _ .ref).evt _ .ref).refSet 2

theorem Dev.refRestore_eq (hn : n < 12) (d : Dev) : d.refRestore n = (d.refClear n 2).refSettle n := if_neg (by omega : ¬ n = 12)

theorem OnlyRegs.refWtrEnd (d : Dev) : OnlyRegs (refSide n) d (d.refWtrEnd n) := by
  unfold Dev.refWtrEnd
  split
  · exact (((OnlyRegs.refl _ d).wr (REF_WTR_LEFT_LEFT n) 0 .ref).setRef n _).refSettle
  · exact OnlyRegs.refl _ d

/-- Settles O52: each command of a monitor by what it does to its causes and its state. -/
theorem referenceMonitors : Obligations.ReferenceMonitors := by
  unfold Obligations.ReferenceMonitors
  intro s dt m n hn hl hm
  refine ⟨fun h0 ha => ?_, fun c mask hc h1 => ?_, fun c hc h2 => ?_, fun w r hw hr => ?_, fun c hc => ?_,
    fun d => ⟨(Dev.refEnter_disq hn d).2.2, d.refEnter_stray⟩⟩
  · exact Effects.of_measuring rfl (by omega) hm (Dev.refLoss_spec (d := s.dev.advance dt) hn h0 ha)
  · have hcm : (mask = 2 ∨ mask = 16) ∧ ∃ lim, n < lim ∧ exec c s =
        run dt (within n lim (Dev.whenNow Dev.measuring fun d => (d.refClear n mask).refSettle n)) s := by
      simp only [List.mem_cons, Prod.mk.injEq, List.not_mem_nil, or_false] at hc
      rcases hc with ⟨rfl, rfl⟩ | ⟨rfl, rfl⟩
      · have he : Dev.refRestore n = fun d => (d.refClear n 2).refSettle n := funext (Dev.refRestore_eq hn)
        exact ⟨Or.inl rfl, 13, by omega, by rw [← he]; rfl⟩
      · exact ⟨Or.inr rfl, 12, hn, rfl⟩
    obtain ⟨hmask, lim, hlim, hrun⟩ := hcm
    obtain ⟨hwait, hqual, hmore⟩ := Dev.refRecover_spec (d := s.dev.advance dt) hl hn h1 hmask
    exact ⟨fun h hw => Effects.of_measuring hrun hlim hm (hwait h hw),
      fun h hw => Effects.of_measuring hrun hlim hm (hqual h hw), fun h => Effects.of_measuring hrun hlim hm (hmore h)⟩
  · have body : ∀ P : Dev → Prop, (∀ x, P x → P x.accessEdge) → (∀ o, P (({ s.dev.advance dt with outside := o } : Dev).refWtrEnd n)) →
        P ((s.dev.advance dt).refWtrEnd n) → Effects c s P := fun P ha ho hp => by
      rcases hc with rfl | ⟨rfl, hg⟩
      · exact Effects.of_measuring rfl hn hm hp
      · refine Effects.of_run rfl ?_
        obtain ⟨o, he⟩ := Dev.write_wtrClr hn (hg.advance dt)
        unfold within
        rw [if_pos hn, he]
        exact ha _ (ho o)
    have spec := fun (x : Dev) (h : n < x.refs.length) => Dev.refWtrEnd_spec (d := x) h hn
    refine ⟨fun hok => body _ (fun _ h => h) (fun o => ?_) ?_, fun hok => body _ (fun _ h => h) (fun o => ?_) ?_⟩
    · exact (spec { s.dev.advance dt with outside := o } hl h2).1 hok
    · exact (spec (s.dev.advance dt) hl h2).1 hok
    · exact (spec { s.dev.advance dt with outside := o } hl h2).2 hok
    · exact (spec (s.dev.advance dt) hl h2).2 hok
  · exact Effects.of_measuring rfl (by omega) hm (Dev.windowEnd_spec (d := s.dev.advance dt) hl hn hw hr)
  · have start := (Dev.only_advance s.dev dt (A := refSide n))
    simp only [List.mem_cons, List.not_mem_nil, or_false] at hc
    rcases hc with rfl | rfl | rfl | rfl | rfl
    · exact Effects.of_measuring rfl (by omega) hm (start.trans (OnlyRegs.refLoss hn _))
    · refine Effects.of_measuring rfl (by omega) hm ?_
      rw [Dev.refRestore_eq hn]
      exact ((start.refClear 2).refSettle)
    · exact Effects.of_measuring rfl (by omega) hm ((start.refClear 16).refSettle)
    · exact Effects.of_measuring rfl (by omega) hm (start.trans (OnlyRegs.refWtrEnd _))
    · exact Effects.of_measuring rfl (by omega) hm (start.trans (OnlyRegs.windowEnd hn _))

end Sys2Proof.Machine
end

section
/-!
PROOF. Statements that leave out a premise: a cell that the due list still holds although it is not due (O42); a ring whose region reaches
past SRAM (03 R91; O48); and a Tally port before an image has applied (13 R351; O49).
-/

namespace Sys2Proof.Machine

/-! ### A quarantined cell that is listed as due (02 R41, R54) -/

/-- Cell 0 is quarantined and stands in the list of due cells, and a cell has been idle for long enough to be calibrated. -/
def listedAsDue : State :=
  deviceIn .service [(MEAS_CTL_CAL_EN, 1)] fun d =>
    { d.setCell 0 fun c => { c with role := .quar } with meas :=
      { (d.setCell 0 fun c => { c with role := .quar }).meas with dueOrder := [0], idleOk := true } }

/-- Refutes O42: a quarantined cell that is not due, but stands in the list of due cells, passes its pilots; the pool takes the cell, free
again, for calibration at once. -/
theorem not_calibrationAndQuarantineEnd : ¬ Obligations.CalibrationAndQuarantineEnd := by
  intro h
  obtain ⟨-, -, -, hquar, -⟩ := h listedAsDue 0
  obtain ⟨-, hpass⟩ := hquar 0 0 (by decide +kernel) (by decide) (by decide +kernel) (by decide +kernel)
  obtain ⟨e, hrole, hs⟩ := (hpass (by decide) (by decide +kernel) (by decide +kernel) (by decide +kernel) (by decide +kernel)).settled rfl
    (by decide +kernel) (Or.inl (by decide +kernel)) (by decide +kernel)
  rw [Dev.cell, ← hs.toKeeps.meas] at hrole
  revert hrole
  decide +kernel

/-! ### A ring past the end of SRAM (03 R91, R96) -/

/-- A ring of 32,768 records that is being disabled, with BASE 63 and HEAD at its last place. -/
def ringPastSram : State :=
  deviceIn .service [(TQ_CFG_BASE 0, 63), (TQ_CFG_SIZE_CODE 0, 7), (TQ_HEAD_HEAD 0, 32767), (TQ_TAIL_TAIL 0, 32767), (TQ_STAT_DISABLING 0, 1)] id

/-- Refutes O48: the FLUSH of a ring whose last place lies past SRAM is written nowhere. -/
theorem not_ringControls : ¬ Obligations.RingControls := by
  intro h
  obtain ⟨-, -, hdone, -⟩ := h ringPastSram 0 0 0 (by decide) (by decide +kernel)
  obtain ⟨e, ⟨-, -, hword⟩, hs⟩ := (hdone (by decide +kernel) (by decide +kernel) (by decide +kernel) (by decide +kernel)
    (by decide +kernel)).settled rfl (by decide +kernel) (Or.inl (by decide +kernel)) (by decide +kernel)
  rw [Dev.sramWord, ← hs.toKeeps.sram] at hword
  revert hword
  decide +kernel

/-! ### The Tally port in BOOT (03 R97 to R99) -/

/-- A device in BOOT whose Tally port is enabled, with a closed frame of ring 0 and lane 0 up. -/
def portInBoot : State :=
  deviceIn .boot [(TP_CTL_ENABLE, 1), (TQ_CFG_MODE 0, 1), (TP_STAT_TX0_UP, 1)] fun d =>
    d.setTp fun t => { t with closed := [⟨0, 0, 1⟩] }

/-- Refutes O49: no frame leaves a device in BOOT, and none is counted. -/
theorem not_tallyPortFrames : ¬ Obligations.TallyPortFrames := by
  intro h
  obtain ⟨hport, -⟩ := h
  obtain ⟨-, hsend, -⟩ := hport portInBoot 0 0 (by decide) (by decide +kernel) (by decide +kernel) (by decide +kernel)
  obtain ⟨hsent, -⟩ := hsend 0 ⟨0, 0, 1⟩ (Or.inl ⟨rfl, by decide +kernel⟩) (by decide +kernel) rfl 0 (by decide +kernel)
  obtain ⟨e, hfin, hp⟩ := hsent.left rfl
  obtain ⟨p, hs⟩ := Stays.of_boot (e := e) (by rw [← hfin]; decide +kernel) (by rw [← hfin]; decide +kernel)
  obtain ⟨hcount, -⟩ := hp (by decide +kernel)
  rw [show e.rd TP_FRAMES_COUNT = ({ e with flt := { e.flt with foldPend := p } } : Dev).rd TP_FRAMES_COUNT from rfl,
    ← hs.toKeeps.rd TP_FRAMES_COUNT (not_steadyReg (by decide) (by decide) (by decide) (by decide)), ← hfin] at hcount
  revert hcount
  decide +kernel

end Sys2Proof.Machine
end

section
/-!
PROOF. Writes by the class of the register (10 R266, R267, R273, R275), and sequence-clear registers with the lamp test that sets a bit of
one at every edge (10 R273; 14 R374; O22).
-/

namespace Sys2Proof.Machine

/-! ### An accepted write of a register of the map -/

theorem Dev.write_row {d : Dev} {m a w : Nat} {r : RegRow} (h : d.Grants m a) (ha : a < 0x0F0000) (hr : rowAt a = some r) :
    d.write m a w = (d.rowWrite r m a (w % 2 ^ 32)).accessEdge := by
  obtain ⟨hmode, hgranted⟩ := h
  unfold Dev.write Dev.busWrite
  rw [if_neg hmode, hgranted]
  dsimp only
  rw [if_pos ha]
  dsimp only
  unfold Dev.regWrite
  rw [hr]

theorem Dev.rowWrite_perMaster {d : Dev} {r : RegRow} (m a w : Nat) (hp : r.perMaster = true) :
    ∃ o, d.rowWrite r m a w = ({ d with outside := o } : Dev).setPmWord m a (Word.of (mergeMask (d.pmWord m a).toNat w r.rw)) := by
  obtain ⟨o, ho⟩ := d.noteReserved_outside r w
  refine ⟨o, ?_⟩
  rw [← ho]
  unfold Dev.rowWrite
  dsimp only
  rw [if_pos hp]
  unfold Dev.noteReserved
  split <;> rfl

theorem Dev.rowWrite_sqc {d : Dev} {r : RegRow} (m a w : Nat) (hp : r.perMaster = false) (hs : r.sqc ≠ 0) (hrw : r.rw = 0) :
    ∃ o, d.rowWrite r m a w = ({ d with outside := o } : Dev).sqcWrite m a w r.sqc := by
  obtain ⟨o, ho⟩ := d.noteReserved_outside r w
  refine ⟨o, ?_⟩
  unfold Dev.rowWrite
  dsimp only
  rw [if_neg (by rw [hp]; decide), if_pos hs, Dev.writeRw_of_zero _ _ hrw, ← ho]
  rfl

/-! ### Sequence-clear registers (R273) -/

theorem Dev.sqcWrite_current {d : Dev} {m a w mask : Nat} (h : bitsOf w 31 24 = d.seqBefore a) :
    d.sqcWrite m a w mask = d.setWord a (Word.of (andNot (d.word a).toNat (andNot (w % 0x1000000 &&& mask) (d.setNow a)))) := by
  unfold Dev.sqcWrite
  exact if_pos h

theorem Dev.sqcWrite_empty {d : Dev} {m a w mask : Nat} (h : bitsOf w 31 24 ≠ d.seqBefore a) (hw : w % 0x1000000 = 0) :
    d.sqcWrite m a w mask = d := by
  unfold Dev.sqcWrite
  rw [if_neg h, if_pos hw]

theorem Dev.sqcWrite_stale {d : Dev} {m a w mask : Nat} (h : bitsOf w 31 24 ≠ d.seqBefore a) (hw : w % 0x1000000 ≠ 0) :
    d.sqcWrite m a w mask = (d.bump HOST_STALE_CNT_COUNT).hostErr 9 m a := by
  unfold Dev.sqcWrite
  rw [if_neg h, if_neg hw]

/-- Registers whose rows differ are different ones. -/
theorem ne_of_row {a c : Nat} {r : RegRow} {p : RegRow → Bool} (hr : rowAt a = some r) (hp : p r = true)
    (hc : ((rowAt c).all fun r => !p r) = true) : a ≠ c := by
  rintro rfl
  rw [hr] at hc
  simp [hp] at hc

/-- A register with sequence-clear bits is not one without. -/
theorem ne_of_sqc {a c : Nat} {r : RegRow} (hr : rowAt a = some r) (hs : r.sqc ≠ 0)
    (hc : ((rowAt c).all fun r => !decide (r.sqc ≠ 0)) = true) : a ≠ c := ne_of_row hr (decide_eq_true hs) hc

/-! ### SEQ at an edge -/

theorem Dev.evtMask_word (d : Dev) (a mask : Nat) : (d.evtMask a mask).word a =
    Word.of (setBits ((d.word a).toNat ||| mask % 0x1000000) 31 24
      (if d.movedSeq a then bitsOf (d.word a).toNat 31 24 else (bitsOf (d.word a).toNat 31 24 + 1) % 256)) := by
  unfold Dev.evtMask
  dsimp only
  generalize Word.of _ = w
  exact Dev.word_setWord_self d a w

theorem Dev.word_evtMask_of_ne (d : Dev) {a b : Nat} (mask : Nat) (h : b ≠ a) : (d.evtMask a mask).word b = d.word b := by
  obtain ⟨w, hw⟩ := d.evtMask_live a mask
  exact (Dev.word_congr hw b).trans (Dev.word_setWord_of_ne d a b w h)

theorem bitsOf_of (n hi lo : Nat) (h : hi < 32) (h' : lo ≤ hi) : bitsOf (Word.of n).toNat hi lo = bitsOf n hi lo := by
  rw [show (Word.of n).toNat = n % 2 ^ 32 from BitVec.toNat_ofNat n 32]
  exact bitsOf_mod n hi lo h h'

theorem Dev.evtMask_seq (d : Dev) (a mask : Nat) : bitsOf ((d.evtMask a mask).word a).toNat 31 24 =
    (if d.movedSeq a then bitsOf (d.word a).toNat 31 24 else (bitsOf (d.word a).toNat 31 24 + 1) % 256) := by
  have hseq := bitsOf_lt (d.word a).toNat 31 24
  rw [Dev.evtMask_word, bitsOf_of _ _ _ (by decide) (by decide), bitsOf_setBits]
  refine Nat.mod_eq_of_lt ?_
  split
  · exact hseq
  · exact Nat.mod_lt _ (by decide)

theorem Dev.evtMask_moved (d : Dev) (a mask : Nat) : (d.evtMask a mask).movedSeq a = true := by
  unfold Dev.movedSeq Dev.evtMask
  simp

theorem Dev.advance_bumped (d : Dev) (n : Nat) : (d.advance (n + 4)).bumped = [] := by
  have h : d.sameEdge (n + 4) = false := by
    unfold Dev.sameEdge
    rw [decide_eq_false (by omega)]
    rfl
  unfold Dev.advance
  dsimp only
  rw [h]
  rfl

/-- The bits of an event register that no SEQ holds stay set when another sets. -/
theorem Dev.evtMask_keeps (d : Dev) (a mask : Nat) {k : Nat} (hk : k < 24) (h : (d.word a).toNat.testBit k = true) :
    ((d.evtMask a mask).word a).toNat.testBit k = true := by
  have bit : ∀ n : Nat, n.testBit k = decide (bitsOf n k k = 1) := fun n => by
    rw [Nat.testBit_eq_decide_div_mod_eq, bitsOf_eq, Nat.sub_self, Nat.zero_add, Nat.pow_one]
  rw [Dev.evtMask_word, bit, bitsOf_of _ _ _ (by omega) (Nat.le_refl k),
    bitsOf_setBits_below _ _ _ _ _ _ hk (Nat.le_refl k), ← bit, Nat.testBit_or, h]
  rfl

/-! ### The lamp test at the end of an edge (14 R374) -/

/-- What settling writes before it comes to the lamp test. -/
def CollectorReg (a : Nat) : Prop := a = rFLT_STAT ∨ a = rFLT_INJ_STAT ∨ a = rPAST_STAT

theorem Keeps.settleFold_of_ne {A : Nat → Prop} {d : Dev} (h : A rFLT_STAT) (hm : d.underMode ≠ .fold) : Keeps A d d.settleFold := by
  have hw : Keeps A d (d.wr FLT_STAT_FOLD_REQ 0) := Keeps.wr d _ 0 h
  unfold Dev.settleFold
  split
  · dsimp only
    rw [if_neg (by rw [(Stays.wr d FLT_STAT_FOLD_REQ 0 SteadyReg.flt).underMode]; simp [hm])]
    exact hw
  · exact Keeps.refl _ d

/-- With no fold held, the end of an edge is the collector's and the pasture's part, and then the lamp test. -/
theorem Dev.Steady.finish_lamp {d : Dev} (h : d.Steady) : ∃ x, Keeps CollectorReg d x ∧ d.finish = x.settleLamp := by
  have hflt : CollectorReg rFLT_STAT := Or.inl rfl
  have hinj : CollectorReg rFLT_INJ_STAT := Or.inr (Or.inl rfl)
  have hpast : CollectorReg rPAST_STAT := Or.inr (Or.inr rfl)
  have hmode := (((Stays.settleFatal d).trans (Stays.settleEsc _)).trans (Stays.settleInj _)).underMode
  refine ⟨_, ?_, by unfold Dev.finish; rw [h.settleCopy, h.settlePend]⟩
  refine ((((Keeps.settleFatal d hflt).trans (Keeps.settleEsc _ hflt)).trans (Keeps.settleInj _ hinj)).trans ?_).trans
    ((Keeps.settleElig _ hpast).trans (Keeps.settleFn _ hflt))
  exact Keeps.settleFold_of_ne hflt (by rw [hmode]; exact h.notFold)

theorem Dev.rd_of_word {d e : Dev} {f : Fld} (h : e.word f.addr = d.word f.addr) : e.rd f = d.rd f := by
  unfold Dev.rd
  rw [h]

/-- A lamp test is on in both devices or in neither, where the buttons and their functions read the same. -/
theorem Dev.lampTest_congr {d e : Dev} (hs : e.word rCRAFT_STAT = d.word rCRAFT_STAT) (hc : e.word rCRAFT_PB_CFG = d.word rCRAFT_PB_CFG) :
    e.lampTest = d.lampTest := by
  have hpb : ∀ k, e.flag (pbBit k) = d.flag (pbBit k) := fun k => by
    unfold Dev.flag Dev.rd pbBit
    rw [hs]
  have hfunc : ∀ k, e.pbFunc k = d.pbFunc k := fun k => by
    unfold Dev.pbFunc
    split <;> exact Dev.rd_of_word hc
  unfold Dev.lampTest
  simp only [hpb, hfunc]

theorem Keeps.lampTest {d e : Dev} (h : Keeps CollectorReg d e) : e.lampTest = d.lampTest :=
  Dev.lampTest_congr (h.word _ (by unfold CollectorReg; decide)) (h.word _ (by unfold CollectorReg; decide))

/-- With no lamp test on, the end of an edge leaves CRAFT_EVT. -/
theorem Dev.Steady.finish_craftEvt {d : Dev} (h : d.Steady) (hl : d.lampTest = false) : d.finish.word rCRAFT_EVT = d.word rCRAFT_EVT := by
  obtain ⟨x, hx, hfin⟩ := h.finish_lamp
  have hxl : x.settleLamp = x := by
    unfold Dev.settleLamp Dev.evtIf
    rw [hx.lampTest, hl]
    exact if_neg (by simp)
  rw [hfin, hxl]
  exact hx.word _ (by unfold CollectorReg; decide)

/-- A lamp test that is on sets CRAFT_EVT.LAMP as it is judged. -/
theorem Dev.settleLamp_on {d : Dev} (hl : d.lampTest = true) : d.settleLamp.flag CRAFT_EVT_LAMP = true := by
  unfold Dev.settleLamp Dev.evtIf
  rw [hl]
  by_cases hset : d.flag CRAFT_EVT_LAMP = true
  · rw [if_neg (by simp [hset])]
    exact hset
  · rw [if_pos (by simp [hset])]
    exact Dev.flag_evt_self _ _ rfl (by decide)

/-- A lamp test that is on shows in CRAFT_EVT.LAMP at the end of an edge. -/
theorem Dev.Steady.finish_lampOn {d : Dev} (h : d.Steady) (hl : d.lampTest = true) : d.finish.flag CRAFT_EVT_LAMP = true := by
  obtain ⟨x, hx, hfin⟩ := h.finish_lamp
  rw [hfin]
  exact Dev.settleLamp_on (hx.lampTest.trans hl)

/-- A sequence-clear register ends an edge as the command left it, unless a lamp test sets its bit. -/
theorem Dev.Steady.finish_sqc {d : Dev} (h : d.Steady) {a : Nat} {r : RegRow} (hr : rowAt a = some r) (hs : r.sqc ≠ 0)
    (hl : a = rCRAFT_EVT → d.lampTest = false) : d.finish.word a = d.word a := by
  by_cases hc : a = rCRAFT_EVT
  · subst hc
    exact h.finish_craftEvt (hl rfl)
  · exact h.finish.word a (not_steadyReg (ne_of_sqc hr hs (by decide)) (ne_of_sqc hr hs (by decide)) (ne_of_sqc hr hs (by decide)) hc)

/-! ### A write to a sequence-clear register (O22) -/

/-- `e` is `d` with live registers at the addresses of `A` written: every other live register stands, and so do the parts of the
device that the end of the edge asks of, and both memories. -/
structure Wrote (A : Nat → Prop) (d e : Dev) : Prop where
  word : ∀ b, ¬ A b → e.word b = d.word b
  flt : e.flt = d.flt
  prior : e.priorMode = d.priorMode
  sram : e.sram = d.sram
  nvm : e.nvm = d.nvm

namespace Wrote

variable {A B : Nat → Prop} {d e f : Dev}

theorem refl (A : Nat → Prop) (d : Dev) : Wrote A d d := ⟨fun _ _ => rfl, rfl, rfl, rfl, rfl⟩

theorem trans (h : Wrote A d e) (h' : Wrote A e f) : Wrote A d f :=
  ⟨fun b hb => (h'.word b hb).trans (h.word b hb), h'.flt.trans h.flt, h'.prior.trans h.prior, h'.sram.trans h.sram, h'.nvm.trans h.nvm⟩

theorem mono (h : Wrote A d e) (hab : ∀ b, A b → B b) : Wrote B d e :=
  ⟨fun b hb => h.word b fun ha => hb (hab b ha), h.flt, h.prior, h.sram, h.nvm⟩

theorem setWord (d : Dev) {a : Nat} (w : Word) (h : A a) : Wrote A d (d.setWord a w) :=
  ⟨fun _ hb => Dev.word_setWord_of_ne d a _ w fun e => hb (e ▸ h), rfl, rfl, rfl, rfl⟩

theorem wr (d : Dev) (g : Fld) (v : Nat) (h : A g.addr) : Wrote A d (d.wr g v) := setWord d _ h

theorem evtMask (d : Dev) {a : Nat} (mask : Nat) (h : A a) : Wrote A d (d.evtMask a mask) :=
  ⟨fun _ hb => Dev.word_evtMask_of_ne d mask fun e => hb (e ▸ h), Dev.evtMask_flt _ _ _, Dev.evtMask_priorMode _ _ _,
    Dev.evtMask_sram _ _ _, Dev.evtMask_nvm _ _ _⟩

theorem evt (d : Dev) (g : Fld) (h : A g.addr) : Wrote A d (d.evt g) := evtMask d _ h

theorem counted (d : Dev) : Wrote A d ({ d with front := { d.front with errs := d.front.errs + 1 } } : Dev) :=
  ⟨fun _ _ => Dev.word_congr rfl _, rfl, rfl, rfl, rfl⟩

theorem hostErr (d : Dev) (bit m addr : Nat) (he : A rHOST_ERR) (hc : A rHOST_ERR_CAP) : Wrote A d (d.hostErr bit m addr) := by
  have hcount := Wrote.counted (A := A) d
  unfold Dev.hostErr
  dsimp only
  revert hcount
  generalize ({ d with front := { d.front with errs := d.front.errs + 1 } } : Dev) = x
  intro hcount
  refine hcount.trans (Wrote.trans ?_ (evtMask _ _ he))
  unfold Dev.when
  split
  · exact ((wr _ _ _ hc).trans (wr _ _ _ hc)).trans (wr _ _ _ hc)
  · exact refl A _

theorem mode (h : Wrote A d e) (ha : ¬ A rDEV_MODE) : e.mode = d.mode := mode_congr (h.word _ ha)

theorem steady (h : Wrote A d e) (hs : d.Steady) (ha : ¬ A rDEV_MODE) : e.Steady := hs.of_flt h.flt (h.mode ha) h.prior

theorem lampTest (h : Wrote A d e) (h1 : ¬ A rCRAFT_STAT) (h2 : ¬ A rCRAFT_PB_CFG) : e.lampTest = d.lampTest :=
  Dev.lampTest_congr (h.word _ h1) (h.word _ h2)

theorem access (h : Wrote A d e) : Wrote A d e.accessEdge := ⟨h.word, h.flt, h.prior, h.sram, h.nvm⟩

end Wrote

/-- The registers that a write to the sequence-clear register at `a` can reach: that one and the host port's errors. -/
def SqcAt (a b : Nat) : Prop := b = a ∨ b = rHOST_ERR ∨ b = rHOST_ERR_CAP ∨ b = rHOST_STALE_CNT

theorem not_sqcAt {a b : Nat} (h : b ≠ a) (h1 : b ≠ rHOST_ERR) (h2 : b ≠ rHOST_ERR_CAP) (h3 : b ≠ rHOST_STALE_CNT) : ¬ SqcAt a b := by
  rintro (h' | h' | h' | h') <;> contradiction

theorem Wrote.sqcWrite {a : Nat} (d : Dev) (m w mask : Nat) : Wrote (SqcAt a) d (d.sqcWrite m a w mask) := by
  unfold Dev.sqcWrite
  dsimp only
  split
  · exact setWord d _ (Or.inl rfl)
  · split
    · exact refl _ d
    · exact (wr _ _ _ (Or.inr (Or.inr (Or.inr rfl)))).trans (hostErr _ _ _ _ (Or.inr (Or.inl rfl)) (Or.inr (Or.inr (Or.inl rfl))))

/-- A command completes with what its effect leaves when the edge has settled. -/
theorem Completes.of_finish {c : Instr} {s : State} {P : Dev → Prop} {dt : Nat} {f : Dev → Dev} (h : exec c s = run dt f s)
    (hp : P (f (s.dev.advance dt)).finish) : Completes c s P :=
  ⟨_, h, rfl, fun hl => by rw [Dev.arrive_prompt hl]; exact hp⟩

/-- An accepted write of a sequence-clear register does what R273 says of its SEQ, and the edge settles. -/
theorem Completes.of_sqc {s : State} {dt m a w : Nat} {r : RegRow} {P : Dev → Prop} (hg : s.dev.Grants m a) (ha : a < 0x0F0000)
    (hw : w < 2 ^ 32) (hr : rowAt a = some r) (hp : r.perMaster = false) (hs : r.sqc ≠ 0) (hrw : r.rw = 0)
    (h : ∀ o, P (((({ s.dev.advance dt with outside := o } : Dev).sqcWrite m a w r.sqc).accessEdge).finish)) :
    Completes (.sqcClearWrite dt m a w) s P := by
  refine Completes.of_finish (f := Dev.write m (a % 0x1000000) (w % 2 ^ 32)) rfl ?_
  obtain ⟨o, ho⟩ := Dev.rowWrite_sqc (d := s.dev.advance dt) m a w hp hs hrw
  rw [Nat.mod_eq_of_lt (show a < 0x1000000 by omega), Nat.mod_eq_of_lt hw, Dev.write_row (hg.advance dt) ha hr, Nat.mod_eq_of_lt hw, ho]
  exact h o

theorem Dev.bump_rd (d : Dev) {f : Fld} (h : f.ok) : (d.bump f).rd f = (d.rd f + 1) % 2 ^ (f.hi - f.lo + 1) :=
  Dev.rd_wr_self d f _ h

/-- A write of the sequence-clear register that holds host-port errors, or of another: what a stale one leaves. -/
theorem Dev.sqcStale_spec (d : Dev) {m a : Nat} {r : RegRow} (hr : rowAt a = some r) (hs : r.sqc ≠ 0) :
    (a ≠ rHOST_ERR → ((d.bump HOST_STALE_CNT_COUNT).hostErr 9 m a).word a = d.word a) ∧
    (∀ k < 24, (d.word a).toNat.testBit k = true → (((d.bump HOST_STALE_CNT_COUNT).hostErr 9 m a).word a).toNat.testBit k = true) ∧
    ((d.bump HOST_STALE_CNT_COUNT).hostErr 9 m a).flag HOST_ERR_STALE = true ∧
    ((d.bump HOST_STALE_CNT_COUNT).hostErr 9 m a).rd HOST_STALE_CNT_COUNT = (d.rd HOST_STALE_CNT_COUNT + 1) % 2 ^ 32 := by
  have hcnt : a ≠ rHOST_STALE_CNT := ne_of_sqc hr hs (by decide)
  have hcap : a ≠ rHOST_ERR_CAP := ne_of_sqc hr hs (by decide)
  have hbump : (d.bump HOST_STALE_CNT_COUNT).word a = d.word a := Dev.word_setWord_of_ne d _ _ _ hcnt
  obtain ⟨x, hx, hcntx, he⟩ : ∃ x : Dev, x.word a = d.word a ∧ x.rd HOST_STALE_CNT_COUNT = (d.rd HOST_STALE_CNT_COUNT + 1) % 2 ^ 32 ∧
      (d.bump HOST_STALE_CNT_COUNT).hostErr 9 m a = x.evtMask rHOST_ERR (2 ^ 9) := by
    have hself := Dev.bump_rd d (f := HOST_STALE_CNT_COUNT) (by decide)
    revert hbump hself
    generalize d.bump HOST_STALE_CNT_COUNT = y
    intro hbump hself
    refine ⟨_, ?_, ?_, rfl⟩
    · unfold Dev.when
      split
      · exact (Dev.word_setWord_of_ne _ _ _ _ hcap).trans ((Dev.word_setWord_of_ne _ _ _ _ hcap).trans
          ((Dev.word_setWord_of_ne _ _ _ _ hcap).trans ((Dev.word_congr rfl a).trans hbump)))
      · exact (Dev.word_congr rfl a).trans hbump
    · unfold Dev.when
      split
      · rw [Dev.rd_wr_of_ne _ _ _ _ (by decide), Dev.rd_wr_of_ne _ _ _ _ (by decide), Dev.rd_wr_of_ne _ _ _ _ (by decide)]
        exact (Dev.rd_congr rfl _).trans hself
      · exact (Dev.rd_congr rfl _).trans hself
  rw [he]
  refine ⟨fun h => (Dev.word_evtMask_of_ne x _ h).trans hx, fun k hk hb => ?_, Dev.flag_evt_self x HOST_ERR_STALE rfl (by decide), ?_⟩
  · by_cases h : a = rHOST_ERR
    · subst h
      exact Dev.evtMask_keeps x _ _ hk (by rw [hx]; exact hb)
    · rw [Dev.word_evtMask_of_ne x _ h, hx]
      exact hb
  · exact (Dev.rd_evt_of_ne x HOST_ERR_STALE _ (by decide)).trans hcntx

/-- Settles O22: SEQ by the word that an event writes; a write by its case, and what settling the edge leaves of its register. -/
theorem sequenceClearNeedsTheCurrentSequence : Obligations.SequenceClearNeedsTheCurrentSequence := by
  refine ⟨fun d a mask => ⟨d.evtMask_seq a mask, d.evtMask_moved a mask, fun n => ?_⟩, fun s dt m a w r hg hst ha hw => ⟨fun hl hc => ?_, ?_⟩⟩
  · unfold Dev.movedSeq
    rw [Dev.advance_bumped]
    rfl
  · subst hc
    obtain ⟨row, hr, hp, hs, hrw⟩ : ∃ row, rowAt rCRAFT_EVT = some row ∧ row.perMaster = false ∧ row.sqc ≠ 0 ∧ row.rw = 0 :=
      ⟨_, rfl, rfl, by decide, rfl⟩
    refine Completes.of_sqc hg ha hw hr hp hs hrw fun o => ?_
    have hk := (Wrote.sqcWrite (a := rCRAFT_EVT) ({ s.dev.advance dt with outside := o } : Dev) m w row.sqc).access
    have hon : s.dev.lampTest = true := hl
    refine (hk.steady ((hst.advance dt).of_flt rfl rfl rfl) (not_sqcAt (by decide) (by decide) (by decide) (by decide))).finish_lampOn ?_
    exact (hk.lampTest (not_sqcAt (by decide) (by decide) (by decide) (by decide))
      (not_sqcAt (by decide) (by decide) (by decide) (by decide))).trans hon
  · intro hr hp hs hrw hl
    have hmode : ¬ SqcAt a rDEV_MODE := not_sqcAt (ne_of_sqc hr hs (by decide)).symm (by decide) (by decide) (by decide)
    have hstat : ¬ SqcAt a rCRAFT_STAT := not_sqcAt (ne_of_sqc hr hs (by decide)).symm (by decide) (by decide) (by decide)
    have hcfg : ¬ SqcAt a rCRAFT_PB_CFG := not_sqcAt (ne_of_sqc hr hs (by decide)).symm (by decide) (by decide) (by decide)
    have hcnt : HOST_STALE_CNT_COUNT.addr ≠ a := (ne_of_sqc hr hs (by decide)).symm
    have hfin : ∀ o, ((({ s.dev.advance dt with outside := o } : Dev).sqcWrite m a w r.sqc).accessEdge).finish.word a =
          (({ s.dev.advance dt with outside := o } : Dev).sqcWrite m a w r.sqc).word a ∧
        ∀ f : Fld, ¬ SteadyReg f.addr → ((({ s.dev.advance dt with outside := o } : Dev).sqcWrite m a w r.sqc).accessEdge).finish.rd f =
          (({ s.dev.advance dt with outside := o } : Dev).sqcWrite m a w r.sqc).rd f := fun o => by
      have hk := (Wrote.sqcWrite (a := a) ({ s.dev.advance dt with outside := o } : Dev) m w r.sqc).access
      have hsteady := hk.steady ((hst.advance dt).of_flt rfl rfl rfl) hmode
      exact ⟨hsteady.finish_sqc hr hs fun hc => (hk.lampTest hstat hcfg).trans (hl hc), fun f hf => hsteady.finish_rd f hf⟩
    refine ⟨fun hq => ?_, fun hq h0 => ?_, fun hq h0 => ?_⟩
    · refine Completes.of_sqc hg ha hw hr hp hs hrw fun o => ?_
      obtain ⟨hword, hrd⟩ := hfin o
      rw [hword, hrd _ (not_steadyReg (by decide) (by decide) (by decide) (by decide)),
        Dev.sqcWrite_current (d := { s.dev.advance dt with outside := o }) hq]
      exact ⟨Dev.word_setWord_self _ _ _, Dev.rd_setWord_of_ne _ _ _ _ hcnt⟩
    · refine Completes.of_sqc hg ha hw hr hp hs hrw fun o => ?_
      obtain ⟨hword, hrd⟩ := hfin o
      rw [hword, hrd _ (not_steadyReg (by decide) (by decide) (by decide) (by decide)),
        Dev.sqcWrite_empty (d := { s.dev.advance dt with outside := o }) hq h0]
      exact ⟨rfl, rfl⟩
    · refine Completes.of_sqc hg ha hw hr hp hs hrw fun o => ?_
      obtain ⟨hword, hrd⟩ := hfin o
      obtain ⟨hkept, hbits, hstale, hcount⟩ := Dev.sqcStale_spec ({ s.dev.advance dt with outside := o } : Dev) (m := m) hr hs
      have hstale' := hrd HOST_ERR_STALE (not_steadyReg (by decide) (by decide) (by decide) (by decide))
      rw [Dev.sqcWrite_stale (d := { s.dev.advance dt with outside := o }) hq h0] at hword hrd hstale' ⊢
      rw [hword, hrd _ (not_steadyReg (by decide) (by decide) (by decide) (by decide))]
      exact ⟨hkept, hbits, (Dev.flag_of_rd hstale').trans hstale, hcount⟩

end Sys2Proof.Machine
end

section
/-!
PROOF. Refused writes (10 R265; O21).
-/

namespace Sys2Proof.Machine

theorem OnlyRegs.hostErr {A : Nat → Prop} {d0 d : Dev} (h : OnlyRegs A d0 d) (bit m addr : Nat) (he : A rHOST_ERR) (hc : A rHOST_ERR_CAP) :
    OnlyRegs A d0 (d.hostErr bit m addr) := by
  unfold Dev.hostErr
  refine ((h.setFront _).when _ _ ?_).evtMask _ _ he
  exact (((OnlyRegs.refl A _).wr _ _ hc).wr _ _ hc).wr _ _ hc

theorem Dev.hostErr_flag (d : Dev) {bit : Nat} (hb : bit < 24) (m addr : Nat) : (d.hostErr bit m addr).flag ⟨rHOST_ERR, bit, bit⟩ = true := by
  unfold Dev.hostErr
  exact Dev.flag_evt_self _ ⟨rHOST_ERR, bit, bit⟩ rfl hb

/-- What a refusal leaves (R265). -/
theorem Dev.refuse_spec (d : Dev) {bit : Nat} (hb : bit < 24) (m a type : Nat) :
    (d.refuse bit m a type).flag ⟨rHOST_ERR, bit, bit⟩ = true ∧
    (d.refuse bit m a type).rd HOST_REFUSED_CNT_COUNT = (d.rd HOST_REFUSED_CNT_COUNT + 1) % 2 ^ 32 ∧ Fired 16 d (d.refuse bit m a type) ∧
    OnlyRegs (fun b => b = rHOST_ERR ∨ b = rHOST_ERR_CAP ∨ b = rHOST_REFUSED_CNT ∨ firingAt b) d (d.refuse bit m a type) := by
  have herr : OnlyRegs (fun b => b = rHOST_ERR ∨ b = rHOST_ERR_CAP) d (d.hostErr bit m a) :=
    (OnlyRegs.refl _ d).hostErr bit m a (Or.inl rfl) (Or.inr rfl)
  have hset := d.hostErr_flag hb m a
  unfold Dev.refuse
  revert herr hset
  generalize d.hostErr bit m a = x
  intro herr hset
  have hcount := Dev.bump_rd x (f := HOST_REFUSED_CNT_COUNT) (by decide)
  rw [herr.rd HOST_REFUSED_CNT_COUNT (by decide)] at hcount
  have hbump : OnlyRegs (fun b => b = rHOST_REFUSED_CNT) x (x.bump HOST_REFUSED_CNT_COUNT) := (OnlyRegs.refl _ x).bump _ rfl
  revert hcount hbump
  generalize x.bump HOST_REFUSED_CNT_COUNT = y
  intro hcount hbump
  have hfire : OnlyRegs firingAt y (y.fireAcc 16 0 a (some m) type) := (OnlyRegs.refl _ y).fireAcc 16 0 a (some m) type fun _ h => h
  have hseq : y.rd FLT_SEQNO_COUNT = d.rd FLT_SEQNO_COUNT :=
    (hbump.rd FLT_SEQNO_COUNT (by decide)).trans (herr.rd FLT_SEQNO_COUNT (by decide))
  refine ⟨?_, ?_, (Dev.fireAs_fired 16 0 _ false false y (by decide)).of_rd hseq, ?_⟩
  · exact (hfire.flag _ (show ¬ firingAt rHOST_ERR by unfold firingAt; decide)).trans
      ((hbump.flag _ (show ¬ rHOST_ERR = rHOST_REFUSED_CNT by decide)).trans hset)
  · exact (hfire.rd _ (show ¬ firingAt rHOST_REFUSED_CNT by unfold firingAt; decide)).trans hcount
  · exact ((herr.mono fun b hb => by tauto).trans (hbump.mono fun b hb => Or.inr (Or.inr (Or.inl hb)))).trans
      (hfire.mono fun b hb => Or.inr (Or.inr (Or.inr hb)))

/-- The reasons of a refusal, in their order (R265). -/
theorem Dev.writeRefusal_order {d : Dev} {m a bit : Nat} (h : d.writeRefusal m a = some bit) : bit < 24 ∧
    (a % 4 ≠ 0 → bit = 1) ∧
    (a % 4 = 0 → mapped a = false → bit = 2) ∧
    (a % 4 = 0 → mapped a = true → d.mode = .boot → m ≠ 7 → bit = 6) ∧
    (a % 4 = 0 → mapped a = true → d.mode ≠ .boot → d.crookLocks a = true → bit = 7) ∧
    (a % 4 = 0 → mapped a = true → d.mode ≠ .boot → d.crookLocks a = false → bit = 0) := by
  unfold Dev.writeRefusal at h
  by_cases ha : a % 4 = 0
  · rw [if_neg (not_not.mpr ha)] at h
    by_cases hm : mapped a = true
    · rw [if_neg (not_not.mpr hm)] at h
      by_cases hb : d.mode = .boot
      · by_cases h7 : m = 7
        · rw [if_neg (by simp [Dev.bootRefuses, h7])] at h
          refine ⟨?_, fun h => absurd ha h, fun _ h => by simp [hm] at h, fun _ _ _ h => absurd h7 h, fun _ _ h => absurd hb h, fun _ _ h => absurd hb h⟩
          split at h
          · cases h; decide
          · split at h
            · cases h; decide
            · split at h <;> cases h; decide
        · rw [if_pos (by simp [Dev.bootRefuses, hb, h7])] at h
          cases h
          exact ⟨by decide, fun h => absurd ha h, fun _ h => by simp [hm] at h, fun _ _ _ _ => rfl, fun _ _ h => absurd hb h, fun _ _ h => absurd hb h⟩
      · rw [if_neg (by simp [Dev.bootRefuses, hb])] at h
        by_cases hc : d.crookLocks a = true
        · rw [if_pos hc] at h
          cases h
          exact ⟨by decide, fun h => absurd ha h, fun _ h => by simp [hm] at h, fun _ _ h => absurd h hb, fun _ _ _ _ => rfl, fun _ _ _ h => by simp [hc] at h⟩
        · rw [if_neg hc] at h
          have hbit : bit = 0 := by
            split at h
            · cases h; rfl
            · split at h <;> cases h; rfl
          subst hbit
          exact ⟨by decide, fun h => absurd ha h, fun _ h => by simp [hm] at h, fun _ _ h => absurd h hb, fun _ _ _ h => absurd h hc, fun _ _ _ _ => rfl⟩
    · rw [if_pos hm] at h
      cases h
      exact ⟨by decide, fun h => absurd ha h, fun _ _ => rfl, fun _ h => absurd h hm, fun _ h => absurd h hm, fun _ h => absurd h hm⟩
  · rw [if_pos ha] at h
    cases h
    exact ⟨by decide, fun _ => rfl, fun h => absurd h ha, fun h => absurd h ha, fun h => absurd h ha, fun h => absurd h ha⟩

/-- Joining the edge of an update and passing time change what neither reads of registers nor refusals see. -/
theorem Dev.joined_eq (d : Dev) (a : Bool) (dt : Nat) : ∃ c : Clock, (d.rejoin a dt).advance dt = ({ d with clk := c } : Dev).advance dt := by
  obtain ⟨c, h⟩ := d.rejoin_eq a dt
  exact ⟨c, by rw [h]⟩

/-- Settles O21: the refusal by its three parts, and the reasons in the order in which they are judged. -/
theorem refusedWriteChangesNothingElse : Obligations.RefusedWriteChangesNothingElse := by
  intro s dt m a w bit hmode ha hw hr
  obtain ⟨hbit, horder⟩ := Dev.writeRefusal_order hr
  refine ⟨Effects.of_join (f := Dev.write m (a % 0x1000000) (w % 2 ^ 32)) (a := true) (dt := dt) rfl ?_, horder⟩
  obtain ⟨c, hc⟩ := s.dev.joined_eq true dt
  rw [hc, Nat.mod_eq_of_lt (show a < 0x1000000 from ha),
    Dev.write_refused (d := ({ s.dev with clk := c } : Dev).advance dt) hmode hr]
  obtain ⟨hset, hcount, hfired, honly⟩ := Dev.refuse_spec (({ s.dev with clk := c } : Dev).advance dt) hbit m a (accType m true)
  have hfrom : OnlyRegs (fun b => b = rHOST_ERR ∨ b = rHOST_ERR_CAP ∨ b = rHOST_REFUSED_CNT ∨ firingAt b) s.dev
      ((({ s.dev with clk := c } : Dev).advance dt).refuse bit m a (accType m true)).accessEdge :=
    (((OnlyRegs.refl _ s.dev).setClk c).trans ((Dev.only_advance _ dt).trans honly)).setClk _
  exact ⟨hset, hcount, ⟨hfired.latched, hfired.counted⟩, hfrom⟩

end Sys2Proof.Machine
end

section
/-!
PROOF. Register writes by the class of their fields (10 R266, R275; O20).
-/

namespace Sys2Proof.Machine

/-! ### Status bits of limited fields -/

theorem limitsRw_evt : ∀ l ∈ limitsRw, ∀ e s b, l.evt = some (e, s, b) → 0x20 ≤ e := by
  have key : ∀ l ∈ limitsRw, (l.evt.all fun x => decide (0x20 ≤ x.1)) = true := by decide
  intro l hl e s b he
  have := key l hl
  rw [he] at this
  simpa using this

/-- The status bits of limited fields lie beyond the device's first registers. -/
theorem limitRw_addr (a w : Nat) : ∀ f ∈ (limitRw a w).2, 0x20 ≤ f.addr := by
  have key : ∀ (ls : List Limit) (x : Nat × List Fld), (∀ l ∈ ls, ∀ e s b, l.evt = some (e, s, b) → 0x20 ≤ e) →
      (∀ f ∈ x.2, 0x20 ≤ f.addr) → ∀ f ∈ (ls.foldl (fun x l => l.on a x) x).2, 0x20 ≤ f.addr := by
    intro ls
    induction ls with
    | nil => exact fun x _ h => h
    | cons l ls ih =>
      intro x hls h
      exact ih _ (fun l' h' => hls l' (List.mem_cons_of_mem _ h')) (limit_on_addr l a x h (hls l List.mem_cons_self))
  exact key _ _ limitsRw_evt (limitWord_addr a _)

/-! ### RW and RWS bits -/

namespace Wrote

variable {A : Nat → Prop}

theorem evts (l : List Fld) (hl : ∀ f ∈ l, A f.addr) (d : Dev) : Wrote A d (l.foldl Dev.evt d) := by
  induction l generalizing d with
  | nil => exact refl A d
  | cons f l ih =>
    rw [List.foldl_cons]
    exact (evt d f (hl f List.mem_cons_self)).trans (ih (fun g hg => hl g (List.mem_cons_of_mem _ hg)) _)

theorem setShWord (d : Dev) (a : Nat) (w : Word) : Wrote A d (d.setShWord a w) := ⟨fun _ _ => rfl, rfl, rfl, rfl, rfl⟩

theorem setPmWord (d : Dev) (m a : Nat) (w : Word) : Wrote A d (d.setPmWord m a w) := ⟨fun _ _ => rfl, rfl, rfl, rfl, rfl⟩

theorem setOutside (d : Dev) (o : Bool) : Wrote A d ({ d with outside := o } : Dev) := ⟨fun _ _ => rfl, rfl, rfl, rfl, rfl⟩

end Wrote

theorem Dev.shadow_evts (l : List Fld) (d : Dev) : (l.foldl Dev.evt d).shadow = d.shadow := by
  induction l generalizing d with
  | nil => rfl
  | cons f l ih => rw [List.foldl_cons, ih, Dev.evt_shadow]

theorem Dev.hwSet_evts (l : List Fld) (d : Dev) : (l.foldl Dev.evt d).hwSet = d.hwSet := by
  induction l generalizing d with
  | nil => rfl
  | cons f l ih => rw [List.foldl_cons, ih, Dev.evt_hwSet]

/-- The RW bits of a write at `a`, with the live word and the status bits that they make. -/
theorem Dev.writeRw_spec (d : Dev) (r : RegRow) (a w : Nat) {x : Nat × List Fld}
    (hx : x = limitRw a (mergeMask (d.word a).toNat w (andNot r.rw (d.hwBits a)))) :
    (r.rw ≠ 0 → (d.writeRw r a w).word a = Word.of (x.1 + d.counted a)) ∧ (d.writeRw r a w).shadow = d.shadow ∧
      (d.writeRw r a w).hwSet = d.hwSet ∧ Wrote (fun b => (r.rw ≠ 0 ∧ b = a) ∨ ∃ f ∈ x.2, f.addr = b) d (d.writeRw r a w) := by
  unfold Dev.writeRw
  by_cases h : r.rw = 0
  · rw [if_pos h]
    exact ⟨fun h' => absurd h h', rfl, rfl, Wrote.refl _ d⟩
  · rw [if_neg h, ← hx]
    exact ⟨fun _ => Dev.word_setWord_self _ _ _, Dev.shadow_evts x.2 d, Dev.hwSet_evts x.2 d,
      (Wrote.evts x.2 (fun f hf => Or.inr ⟨f, hf, rfl⟩) d).trans (Wrote.setWord _ _ (Or.inl ⟨h, rfl⟩))⟩

theorem groupOf_lt {r : RegRow} {a g : Nat} (h : groupOf r a = some g) : g < 8 := by
  unfold groupOf at h
  split at h
  · next hlt =>
    cases h
    exact hlt
  · split at h
    · cases h
      split <;> decide
    · exact absurd h (by simp)

theorem Dev.shWord_setShWord_self (d : Dev) (a : Nat) (w : Word) : (d.setShWord a w).shWord a = w := Store.get_put_self _ _ _ _

theorem Dev.shWord_setShWord_of_ne (d : Dev) {a b : Nat} (w : Word) (h : b ≠ a) : (d.setShWord a w).shWord b = d.shWord b :=
  Store.get_put_of_ne _ _ _ _ _ _ h

theorem Dev.shWord_congr {d e : Dev} (h : e.shadow = d.shadow) (a : Nat) : e.shWord a = d.shWord a := by
  unfold Dev.shWord
  rw [h]

/-- The RWS bits of a write at `a`: the shadow word and PEND of its group. -/
theorem Dev.writeRws_spec (d : Dev) (r : RegRow) (a w : Nat) :
    (r.rws ≠ 0 → (d.writeRws r a w).shWord a = Word.of (mergeMask (d.shWord a).toNat w (andNot r.rws (d.hwBits a))) ∧
      ∀ g, groupOf r a = some g → ((d.writeRws r a w).rd DEV_UPDATE_PEND).testBit g = true) ∧
    (∀ b, b ≠ a → (d.writeRws r a w).shWord b = d.shWord b) ∧ Wrote (fun b => b = rDEV_UPDATE) d (d.writeRws r a w) := by
  unfold Dev.writeRws
  by_cases h : r.rws = 0
  · rw [if_pos h]
    exact ⟨fun h' => absurd h h', fun _ _ => rfl, Wrote.refl _ d⟩
  · rw [if_neg h]
    dsimp only
    have hself := d.shWord_setShWord_self a (Word.of (mergeMask (d.shWord a).toNat w (andNot r.rws (d.hwBits a))))
    have hother := fun b (hb : b ≠ a) =>
      d.shWord_setShWord_of_ne (Word.of (mergeMask (d.shWord a).toNat w (andNot r.rws (d.hwBits a)))) hb
    have hwrote := Wrote.setShWord (A := fun b => b = rDEV_UPDATE) d a
      (Word.of (mergeMask (d.shWord a).toNat w (andNot r.rws (d.hwBits a))))
    revert hself hother hwrote
    generalize d.setShWord a (Word.of (mergeMask (d.shWord a).toNat w (andNot r.rws (d.hwBits a)))) = e
    intro hself hother hwrote
    cases hg : groupOf r a with
    | none => exact ⟨fun _ => ⟨hself, fun g h => absurd h (by simp)⟩, hother, hwrote⟩
    | some g =>
      have hlt := groupOf_lt hg
      refine ⟨fun _ => ⟨hself, fun g' h => ?_⟩, hother, hwrote.trans (Wrote.wr _ _ _ rfl)⟩
      cases h
      dsimp only
      rw [Dev.rd_wr_self _ DEV_UPDATE_PEND _ (by decide), Nat.testBit_mod_two_pow, Nat.testBit_or, Nat.testBit_two_pow_self]
      simp [DEV_UPDATE_PEND, hlt]

/-! ### The cases of a write by its row -/

theorem Dev.rowWrite_ordinary {d : Dev} {a : Nat} {r : RegRow} (m w : Nat) (h : d.Ordinary a r) :
    ∃ o, d.rowWrite r m a w = ((({ d with outside := o } : Dev)).writeRw r a w).writeRws r a w := by
  obtain ⟨hcrook, htee, htail⟩ := h.named
  obtain ⟨o, ho⟩ := d.noteReserved_outside r w
  refine ⟨o, ?_⟩
  have hclaim : ({ d with outside := o } : Dev).claimedReg a = false := h.unclaimed
  rw [← ho] at hclaim ⊢
  unfold Dev.rowWrite
  dsimp only
  rw [if_neg (by rw [h.shared]; decide), if_neg (not_not.mpr h.noSqc), if_neg (not_not.mpr h.noCpl), if_neg hcrook, if_neg htee,
    if_neg (by rw [htail]; decide)]
  unfold Dev.noteReserved at hclaim ⊢
  rw [if_neg (by rw [hclaim]; decide), if_pos h.noCmd]

/-- The rows of the channels' configuration (02 R46, R47) have no other meaning of a write than their RW and RWS bits. -/
theorem channelRow {a : Nat} (h : isReg 0x061000 64 32 0 a = true ∨ isReg 0x061000 64 32 4 a = true) : a < 0x0F0000 ∧
    (∀ r, rowAt a = some r → r.perMaster = false ∧ r.sqc = 0 ∧ r.cpl = 0) ∧ a ≠ rDEV_CROOK ∧ a ≠ rOUT_TEE ∧
      isReg 0x070000 16 0x40 8 a = false := by
  have rows : ∀ n < 64, ∀ o ∈ [0, 4], ((rowAt (0x061000 + 32 * n + o)).all fun r =>
      !r.perMaster && decide (r.sqc = 0) && decide (r.cpl = 0)) = true := by decide +kernel
  obtain ⟨n, o, hn, ho, rfl⟩ : ∃ n o, n < 64 ∧ o ∈ [0, 4] ∧ a = 0x061000 + 32 * n + o := by
    unfold isReg at h
    simp only [Bool.and_eq_true, decide_eq_true_eq] at h
    rcases h with ⟨⟨h1, h2⟩, h3⟩ | ⟨⟨h1, h2⟩, h3⟩
    · exact ⟨(a - 0x061000) / 32, 0, h2, by simp, by omega⟩
    · exact ⟨(a - 0x061000) / 32, 4, h2, by simp, by omega⟩
  have hle : o ≤ 4 := by
    rcases List.mem_pair.1 ho with rfl | rfl <;> decide
  refine ⟨by omega, fun r hr => ?_, by unfold rDEV_CROOK; omega, by unfold rOUT_TEE; omega, ?_⟩
  · have hrow := rows n hn o ho
    rw [hr] at hrow
    simp only [Option.all_some, Bool.and_eq_true, Bool.not_eq_true', decide_eq_true_eq] at hrow
    obtain ⟨⟨hp, hs⟩, hc⟩ := hrow
    exact ⟨hp, hs, hc⟩
  · unfold isReg
    simp only [Bool.and_eq_false_imp, Bool.and_eq_true, decide_eq_true_eq, decide_eq_false_iff_not]
    omega

theorem Dev.rowWrite_claimed {d : Dev} {a : Nat} {r : RegRow} (m w : Nat) (hr : rowAt a = some r) (h : d.claimedReg a = true) :
    ∃ o, d.rowWrite r m a w = (({ d with outside := o } : Dev)).evt MEAS_ERR_LOOP_OWNED := by
  have hreg : isReg 0x061000 64 32 0 a = true ∨ isReg 0x061000 64 32 4 a = true := by
    unfold Dev.claimedReg at h
    simp only [Bool.and_eq_true, Bool.or_eq_true] at h
    exact h.1
  obtain ⟨-, hrow, hcrook, htee, htail⟩ := channelRow hreg
  obtain ⟨hp, hs, hc⟩ := hrow r hr
  obtain ⟨o, ho⟩ := d.noteReserved_outside r w
  refine ⟨o, ?_⟩
  have hclaim : ({ d with outside := o } : Dev).claimedReg a = true := h
  rw [← ho] at hclaim ⊢
  unfold Dev.rowWrite
  dsimp only
  rw [if_neg (by rw [hp]; decide), if_neg (not_not.mpr hs), if_neg (not_not.mpr hc), if_neg hcrook, if_neg htee,
    if_neg (by rw [htail]; decide)]
  unfold Dev.noteReserved at hclaim ⊢
  rw [if_pos hclaim]

/-! ### A register write (O20) -/

/-- A device at the edge on which a command acts: what the time that passes, and an edge that it joins, leave. -/
structure Joined (d e : Dev) : Prop where
  live : e.live = d.live
  shadow : e.shadow = d.shadow
  perMaster : e.perMaster = d.perMaster
  sram : e.sram = d.sram
  nvm : e.nvm = d.nvm
  steady : d.Steady → e.Steady
  grants : ∀ m a, d.Grants m a → e.Grants m a
  claimed : e.claimedReg = d.claimedReg

theorem Dev.joined (d : Dev) (a : Bool) (dt : Nat) : Joined d ((d.rejoin a dt).advance dt) := by
  obtain ⟨c, hc⟩ := d.joined_eq a dt
  rw [hc]
  exact ⟨rfl, rfl, rfl, rfl, rfl, fun h => (h.of_flt (e := { d with clk := c }) rfl rfl rfl).advance dt, fun m a h => ⟨h.1, h.2⟩, rfl⟩

/-- A register write that is accepted does what its row says, and the edge settles. -/
theorem Completes.of_write {s : State} {dt m a w : Nat} {r : RegRow} {P : Dev → Prop} {d : Dev} (hd : d = (s.dev.rejoin true dt).advance dt)
    (hg : d.Grants m a) (hlt : a < 0x0F0000) (hw : w < 2 ^ 32) (hr : rowAt a = some r)
    (hs : (d.rowWrite r m a w).accessEdge.Steady) (hp : ∀ t, Stays (d.rowWrite r m a w).accessEdge t → P t) :
    Completes (.registerWrite dt m a w) s P := by
  have hwrite : Dev.write m (a % 0x1000000) (w % 2 ^ 32) ((s.dev.rejoin true dt).advance dt) = (d.rowWrite r m a w).accessEdge := by
    rw [← hd, Nat.mod_eq_of_lt (show a < 0x1000000 by omega), Nat.mod_eq_of_lt hw, Dev.write_row hg hlt hr, Nat.mod_eq_of_lt hw]
  refine Completes.of_join (f := Dev.write m (a % 0x1000000) (w % 2 ^ 32)) (a := true) (dt := dt) rfl ?_ fun t ht => hp t ?_
  · rw [hwrite]
    exact hs
  · rw [hwrite] at ht
    exact ht

theorem Dev.pmWord_setPmWord_self (d : Dev) (m a : Nat) (w : Word) : (d.setPmWord m a w).pmWord m a = w := Store.get_put_self _ _ _ _

/-- Settles O20: the write by its row's case, and what the end of the edge leaves of it. -/
theorem registerWriteLandsByClass : Obligations.RegisterWriteLandsByClass := by
  intro s dt m a w d hg hst ha hw hd
  have hj : Joined s.dev d := hd ▸ s.dev.joined true dt
  have hdw : ∀ b, d.word b = s.dev.word b := Dev.word_congr hj.live
  refine ⟨fun r x ho hx => ?_, fun r hr hp hlt => ?_, fun hclaim hrow => ?_⟩
  · have hod : d.Ordinary a r := ⟨ho.row, ho.shared, ho.noSqc, ho.noCpl, ho.noCmd, ho.named, hj.claimed ▸ ho.unclaimed, ho.mapped⟩
    obtain ⟨o, hrow⟩ := Dev.rowWrite_ordinary m w hod
    have hupd : a ≠ rDEV_UPDATE := ne_of_row (p := fun r => decide (r.cmd = 0)) ho.row (decide_eq_true ho.noCmd) (by decide)
    have hx' : x = limitRw a (mergeMask (({ d with outside := o } : Dev).word a).toNat w (andNot r.rw (d.hwBits a))) := by
      rw [hx, show ({ d with outside := o } : Dev).word a = s.dev.word a from hdw a]
    obtain ⟨hword, hshadow, hhwSet, hrwrote⟩ := Dev.writeRw_spec ({ d with outside := o } : Dev) r a w hx'
    obtain ⟨hrws, hsother, hswrote⟩ := Dev.writeRws_spec (({ d with outside := o } : Dev).writeRw r a w) r a w
    have hshw : ∀ b, (({ d with outside := o } : Dev).writeRw r a w).shWord b = s.dev.shWord b := fun b =>
      Dev.shWord_congr (hshadow.trans hj.shadow) b
    have hhw : (({ d with outside := o } : Dev).writeRw r a w).hwBits a = d.hwBits a := by
      unfold Dev.hwBits
      rw [hhwSet]
    rw [hshw, hhw] at hrws
    have hwrote := ((Wrote.setOutside d o).trans ((hrwrote.mono fun _ h => Or.inl h).trans (hswrote.mono fun _ h => Or.inr h))).access
    rw [← hrow] at hrws hsother hswrote hwrote
    have hmode : ¬ ((r.rw ≠ 0 ∧ rDEV_MODE = a ∨ ∃ f ∈ x.2, f.addr = rDEV_MODE) ∨ rDEV_MODE = rDEV_UPDATE) := by
      rintro ((⟨hrw, hm⟩ | ⟨f, hf, hm⟩) | hm)
      · exact ne_of_row (p := fun r => decide (r.rw ≠ 0)) ho.row (decide_eq_true hrw) (by decide) hm.symm
      · have := limitRw_addr a _ f (hx ▸ hf)
        rw [hm] at this
        exact absurd this (by decide)
      · exact absurd hm (by decide)
    refine Completes.of_write hd (hj.grants m a hg) ho.mapped hw ho.row (hwrote.steady (hj.steady hst) hmode) fun t ht => ?_
    have htsh : ∀ b, t.shWord b = (d.rowWrite r m a w).shWord b := Dev.shWord_congr ht.shadow
    refine ⟨fun hrw => ?_, fun h => ?_, fun b hb => ?_, fun b hb hup hf h1 h2 h3 h4 => ?_, ?_, ?_⟩
    · have hne : ∀ c, ((rowAt c).all fun r => !decide (r.rw ≠ 0)) = true → a ≠ c := fun c =>
        ne_of_row (p := fun r => decide (r.rw ≠ 0)) ho.row (decide_eq_true hrw)
      rw [ht.word a (not_steadyReg (hne _ (by decide)) (hne _ (by decide)) (hne _ (by decide)) (hne _ (by decide)))]
      exact (hswrote.word a hupd).trans (hword hrw)
    · obtain ⟨hself, hpend⟩ := hrws h
      refine ⟨(htsh a).trans hself, fun g hgr => ?_⟩
      rw [ht.toKeeps.rd DEV_UPDATE_PEND (not_steadyReg (by decide) (by decide) (by decide) (by decide))]
      exact hpend g hgr
    · rw [htsh, hsother b hb, hshw]
    · rw [ht.word b (not_steadyReg h1 h2 h3 h4), hwrote.word b, hdw]
      rintro ((⟨-, h⟩ | ⟨f, hfx, h⟩) | h)
      · exact hb h
      · exact hf f hfx h
      · exact hup h
    · exact ht.sram.trans (hwrote.sram.trans hj.sram)
    · exact ht.nvm.trans (hwrote.nvm.trans hj.nvm)
  · obtain ⟨o, hrow⟩ := Dev.rowWrite_perMaster (d := d) m a w hp
    have hwrote := ((Wrote.setOutside (A := fun _ => False) d o).trans (Wrote.setPmWord _ m a
      (Word.of (mergeMask (d.pmWord m a).toNat w r.rw)))).access
    rw [← hrow] at hwrote
    refine Completes.of_write hd (hj.grants m a hg) hlt hw hr (hwrote.steady (hj.steady hst) fun h => h) fun t ht => ?_
    rw [hrow] at ht
    refine ⟨?_, Dev.shWord_congr (ht.shadow.trans hj.shadow)⟩
    unfold Dev.pmWord
    rw [ht.perMaster, ← hj.perMaster]
    exact Dev.pmWord_setPmWord_self _ m a _
  · obtain ⟨r, hr⟩ := Option.isSome_iff_exists.1 hrow
    have hclaimd : d.claimedReg a = true := hj.claimed ▸ hclaim
    obtain ⟨o, hrow⟩ := Dev.rowWrite_claimed (d := d) m w hr hclaimd
    have hreg : isReg 0x061000 64 32 0 a = true ∨ isReg 0x061000 64 32 4 a = true := by
      unfold Dev.claimedReg at hclaim
      simp only [Bool.and_eq_true, Bool.or_eq_true] at hclaim
      exact hclaim.1
    obtain ⟨hlow, hhigh⟩ : 0x061000 ≤ a ∧ a < 0x061800 := by
      unfold isReg at hreg
      simp only [Bool.and_eq_true, decide_eq_true_eq] at hreg
      omega
    obtain ⟨hlt, -⟩ := channelRow hreg
    have hne : a ≠ rMEAS_ERR := fun h => absurd (h ▸ hlow) (by decide)
    have hwrote := ((Wrote.setOutside (A := fun b => b = rMEAS_ERR) d o).trans (Wrote.evt _ MEAS_ERR_LOOP_OWNED rfl)).access
    have hflag := Dev.flag_evt_self ({ d with outside := o } : Dev) MEAS_ERR_LOOP_OWNED rfl (by decide)
    have hsh : ((({ d with outside := o } : Dev)).evt MEAS_ERR_LOOP_OWNED).shadow = d.shadow := Dev.evt_shadow _ _
    rw [← hrow] at hwrote hflag hsh
    refine Completes.of_write hd (hj.grants m a hg) hlt hw hr (hwrote.steady (hj.steady hst) (by decide)) fun t ht => ⟨?_, ?_, ?_⟩
    · rw [ht.word a (by unfold SteadyReg; omega), hwrote.word a hne, hdw]
    · exact Dev.shWord_congr (ht.shadow.trans (hsh.trans hj.shadow)) a
    · exact (ht.toKeeps.flag MEAS_ERR_LOOP_OWNED (not_steadyReg (by decide) (by decide) (by decide) (by decide))).trans hflag

end Sys2Proof.Machine
end

section
/-!
PROOF. Reads that latch other words for their master (02 R38; 04 R134; O43).
-/

namespace Sys2Proof.Machine

theorem pmKey_inj {m a b : Nat} (h : a ≠ b) : pmKey m a ≠ pmKey m b := by
  unfold pmKey
  omega

theorem Dev.pmWord_setPmWord_of_ne (d : Dev) (m : Nat) {a b : Nat} (w : Word) (h : b ≠ a) : (d.setPmWord m a w).pmWord m b = d.pmWord m b :=
  Store.get_put_of_ne _ _ _ _ _ _ (pmKey_inj h)

theorem Dev.pmWord_congr {d e : Dev} (h : e.perMaster = d.perMaster) (m a : Nat) : e.pmWord m a = d.pmWord m a := by
  unfold Dev.pmWord
  rw [h]

theorem Word.of_mod (n : Nat) : Word.of (n % 2 ^ 32) = Word.of n := by
  apply BitVec.eq_of_toNat_eq
  rw [Word.toNat_of, Word.toNat_of, Nat.mod_mod]

/-- A granted read of a register: the word is the command's answer, and the master's copies are as the read leaves them. -/
theorem Dev.readWord_reg {d : Dev} {m a : Nat} (h : d.Serves m a) (ha : a < 0x0E0000) :
    d.readWord m a = (({ (d.asRead.regRead m a).2 with live := d.live } : Dev).accessEdge).answer [(d.asRead.regRead m a).1] := by
  have htest : ¬ inTest a = true := by
    unfold inTest
    simp only [Bool.and_eq_true, decide_eq_true_eq]
    omega
  obtain ⟨hmode, hrefusal⟩ := h
  unfold Dev.readWord Dev.busRead
  rw [if_neg hmode, hrefusal]
  dsimp only
  rw [if_pos (by omega)]
  dsimp only
  unfold Dev.readReg
  rw [if_neg htest]

/-- A read of device time by its low seconds (R38). -/
theorem Dev.regRead_time (d : Dev) (m : Nat) : d.regRead m rDEV_TIME_SEC_LO = (uSec d.nowU % 2 ^ 32,
    (((d.setPmWord m rDEV_TIME_SEC_LO (Word.of (uSec d.nowU))).setPmWord m rDEV_TIME_SEC_HI (Word.of (uSec d.nowU / 2 ^ 32))).setPmWord m
      rDEV_TIME_NS (Word.of (uNs d.nowU))).setPmWord m rDEV_TIME_FRAC (Word.of (uFrac d.nowU))) := by
  unfold Dev.regRead
  exact if_pos rfl

/-- A read of the low half of a pair (R134). -/
theorem Dev.regRead_lo {d : Dev} {a : Nat} (m : Nat) (hl : isLo a = true) (hh : isHi a = false) :
    d.regRead m a = (d.regValue m a, d.setPmWord m (a + 4) (Word.of (d.regValue m (a + 4)))) := by
  have hne : a ≠ rDEV_TIME_SEC_LO := by
    rintro rfl
    exact absurd hl (by decide)
  unfold Dev.regRead
  rw [if_neg hne, if_neg (by rw [hh]; decide), if_pos hl]

/-- A read leaves a steady device, with the registers as they were. -/
theorem Completes.of_read {c : Instr} {s : State} {dt m a : Nat} {P : Dev → Prop} (hrun : exec c s = run dt (Dev.readWord m a) s)
    (hst : s.dev.Steady) (hs : s.dev.Serves m a) (ha : a < 0x0E0000) {x : Nat × Dev}
    (hx : (s.dev.advance dt).asRead.regRead m a = x) (hpm : x.2 = { (s.dev.advance dt).asRead with perMaster := x.2.perMaster })
    (hp : ∀ t : Dev, t.rsp = [Word.of x.1] → t.perMaster = x.2.perMaster →
      (∀ b, b ≠ rFLT_STAT → b ≠ rFLT_INJ_STAT → b ≠ rPAST_STAT → b ≠ rCRAFT_EVT → t.word b = s.dev.word b) → P t) :
    Completes c s P := by
  have hread := Dev.readWord_reg (d := s.dev.advance dt) (m := m) (a := a) ⟨hs.1, hs.2⟩ ha
  rw [hx, hpm] at hread
  refine Completes.of_steady hrun ?_ fun t ht => ?_
  · rw [hread]
    exact (hst.advance dt).of_flt rfl rfl rfl
  · rw [hread] at ht
    exact hp t ht.rsp ht.perMaster fun b h1 h2 h3 h4 => (ht.word b (not_steadyReg h1 h2 h3 h4)).trans (Dev.word_congr rfl b)

/-- Settles O43: a read's word is its answer, and the copies that it latches stand apart from one another. -/
theorem readsLatchTheirPartners : Obligations.ReadsLatchTheirPartners := by
  intro s dt m hst
  refine ⟨fun t ht hs => ?_, fun a hl hh ha hs => ?_⟩
  · have hnow : (s.dev.advance dt).asRead.nowU = t := ht.symm
    have hread := Dev.regRead_time (s.dev.advance dt).asRead m
    rw [hnow] at hread
    have hhi : rDEV_TIME_SEC_HI ≠ rDEV_TIME_FRAC ∧ rDEV_TIME_SEC_HI ≠ rDEV_TIME_NS := by decide
    have hns : rDEV_TIME_NS ≠ rDEV_TIME_FRAC := by decide
    refine Completes.of_read rfl hst hs (by decide) hread rfl fun d hrsp hpm hword => ⟨?_, ?_, ?_, ?_, hword⟩
    · rw [hrsp, Word.of_mod]
    · rw [Dev.pmWord_congr hpm]
      rw [Dev.pmWord_setPmWord_of_ne _ m _ hhi.1, Dev.pmWord_setPmWord_of_ne _ m _ hhi.2, Dev.pmWord_setPmWord_self]
    · rw [Dev.pmWord_congr hpm]
      rw [Dev.pmWord_setPmWord_of_ne _ m _ hns, Dev.pmWord_setPmWord_self]
    · exact (Dev.pmWord_congr hpm m _).trans (Dev.pmWord_setPmWord_self _ m _ _)
  · refine Completes.of_read rfl hst hs ha (Dev.regRead_lo m hl hh) rfl fun d hrsp hpm hword => ⟨hrsp, ?_, hword⟩
    exact (Dev.pmWord_congr hpm m _).trans (Dev.pmWord_setPmWord_self _ m (a + 4) _)

end Sys2Proof.Machine
end

section
/-!
PROOF. Update strobes (10 R268 to R270; 08 R223; O24): what the copy of a group's shadows writes, and the groups that leave PEND.
-/

namespace Sys2Proof.Machine

/-! ### Registers that an update reports in -/

/-- The register at `a` holds status bits and belongs to no update group. -/
def isEvt (a : Nat) : Bool := (rowAt a).any fun r => decide (r.sqc ≠ 0) && (groupOf r a).isNone

/-- The register at `a` is not one that an update reports in: it is in a group, or holds no status bits. -/
def Silent (a : Nat) : Prop := ∀ b, isEvt b = true → a ≠ b

theorem Silent.of_group {mask a : Nat} (h : inGroups mask a = true) : Silent a := by
  rintro b hb rfl
  unfold isEvt at hb
  unfold inGroups at h
  cases hr : rowAt a with
  | none => simp [hr] at h
  | some r =>
    simp only [hr, Option.any_some, Bool.and_eq_true] at h hb
    rw [Option.isNone_iff_eq_none.1 hb.2] at h
    simp at h

theorem Silent.of_row {a : Nat} {r : RegRow} (hr : rowAt a = some r) (hs : r.sqc = 0) : Silent a := by
  rintro b hb rfl
  unfold isEvt at hb
  simp [hr, hs] at hb

/-- The status bits that a limit reports in lie in such registers, for every instance that it names. -/
theorem limit_on_evt (l : Limit) (hl : ∀ e s b, l.evt = some (e, s, b) → ∀ n < l.count, isEvt (e + s * n) = true) (a : Nat)
    (x : Nat × List Fld) (h : ∀ f ∈ x.2, isEvt f.addr = true) : ∀ f ∈ (l.on a x).2, isEvt f.addr = true := by
  unfold Limit.on
  split
  · next hcond =>
    dsimp only
    split
    · exact h
    · dsimp only
      cases he : l.evt with
      | none => exact h
      | some p =>
        obtain ⟨e, s, b⟩ := p
        intro f hf
        rcases List.mem_append.1 hf with hf | hf
        · exact h f hf
        · rw [List.mem_singleton.1 hf]
          exact hl e s b he _ hcond.2.2
  · exact h

theorem limits_isEvt : ∀ l ∈ limitsMeas ++ limitsPad ++ limitsPlan, ∀ e s b, l.evt = some (e, s, b) →
    ∀ n < l.count, isEvt (e + s * n) = true := by
  have key : ∀ l ∈ limitsMeas ++ limitsPad ++ limitsPlan,
      (l.evt.all fun x => (List.range l.count).all fun n => isEvt (x.1 + x.2.1 * n)) = true := by decide +kernel
  intro l hl e s b he n hn
  have hall := key l hl
  rw [he] at hall
  exact List.all_eq_true.1 hall n (List.mem_range.2 hn)

theorem limitWord_evt (a w : Nat) : ∀ f ∈ (limitWord a w).2, isEvt f.addr = true := by
  have key : ∀ (ls : List Limit) (x : Nat × List Fld),
      (∀ l ∈ ls, ∀ e s b, l.evt = some (e, s, b) → ∀ n < l.count, isEvt (e + s * n) = true) →
      (∀ f ∈ x.2, isEvt f.addr = true) → ∀ f ∈ (ls.foldl (fun x l => l.on a x) x).2, isEvt f.addr = true := by
    intro ls
    induction ls with
    | nil => exact fun x _ h => h
    | cons l ls ih =>
      intro x hls h
      exact ih _ (fun l' h' => hls l' (List.mem_cons_of_mem _ h')) (limit_on_evt l (hls l List.mem_cons_self) a x h)
  have h := key _ (w, []) limits_isEvt (by simp)
  unfold limitWord
  dsimp only
  split
  · intro f hf
    rcases List.mem_append.1 hf with hf | hf
    · exact h f hf
    · rw [List.mem_singleton.1 hf]
      decide
  · exact h

theorem appliedWord_evt (d : Dev) (a : Nat) : ∀ f ∈ (d.appliedWord a).2, isEvt f.addr = true := by
  unfold Dev.appliedWord
  split
  · next r hr =>
    have h := limitWord_evt a (mergeMask (d.word a).toNat (d.shWord a).toNat r.rws)
    dsimp only
    generalize limitWord a (mergeMask (d.word a).toNat (d.shWord a).toNat r.rws) = w at h
    unfold Dev.rateLimited
    split
    · next hpad =>
      dsimp only
      split
      · exact h
      · intro f hf
        have hn := isReg_lt hpad
        rcases List.mem_append.1 hf with hf | hf
        · exact h f hf
        · rw [List.mem_singleton.1 hf]
          have rows : ∀ n < 16, isEvt (rPAD_ERR n) = true := by decide
          exact rows _ hn
    · exact h
  · simp

/-! ### One shadow copied -/

/-- The live word and the shadow of the register at `b` stand. -/
structure Left (b : Nat) (d e : Dev) : Prop where
  word : e.word b = d.word b
  shadow : e.shWord b = d.shWord b

namespace Left

variable {b : Nat} {d e f : Dev}

theorem refl (b : Nat) (d : Dev) : Left b d d := ⟨rfl, rfl⟩

theorem trans (h : Left b d e) (h' : Left b e f) : Left b d f := ⟨h'.word.trans h.word, h'.shadow.trans h.shadow⟩

theorem setWord (d : Dev) {a : Nat} (w : Word) (h : b ≠ a) : Left b d (d.setWord a w) := ⟨Dev.word_setWord_of_ne d a b w h, rfl⟩

theorem wr (d : Dev) (g : Fld) (v : Nat) (h : b ≠ g.addr) : Left b d (d.wr g v) := setWord d _ h

theorem setShWord (d : Dev) {a : Nat} (w : Word) (h : b ≠ a) : Left b d (d.setShWord a w) := ⟨rfl, Dev.shWord_setShWord_of_ne d w h⟩

theorem evt (d : Dev) (g : Fld) (h : b ≠ g.addr) : Left b d (d.evt g) := ⟨Dev.word_evt_of_ne d g b h, Dev.shWord_congr (Dev.evt_shadow d g) b⟩

theorem evtIf (d : Dev) (c : Bool) (g : Fld) (h : b ≠ g.addr) : Left b d (d.evtIf c g) := by
  unfold Dev.evtIf
  split
  · exact evt d g h
  · exact refl b d

theorem evts (l : List Fld) (hl : ∀ g ∈ l, b ≠ g.addr) (d : Dev) : Left b d (l.foldl Dev.evt d) := by
  induction l generalizing d with
  | nil => exact refl b d
  | cons g l ih =>
    rw [List.foldl_cons]
    exact (evt d g (hl g List.mem_cons_self)).trans (ih (fun k hk => hl k (List.mem_cons_of_mem _ hk)) _)

theorem setOutWhen (d : Dev) (c : Bool) (n : Nat) (g : OutSt → OutSt) : Left b d (d.when c fun d => d.setOut n g) := by
  unfold Dev.when
  split <;> exact ⟨rfl, rfl⟩

theorem foldl {α : Type} (l : List α) (g : Dev → α → Dev) (hg : ∀ k ∈ l, ∀ d, Left b d (g d k)) (d : Dev) : Left b d (l.foldl g d) := by
  induction l generalizing d with
  | nil => exact refl b d
  | cons k l ih =>
    rw [List.foldl_cons]
    exact (hg k List.mem_cons_self d).trans (ih (fun j hj => hg j (List.mem_cons_of_mem _ hj)) _)

theorem forN (n : Nat) (g : Nat → Dev → Dev) (hg : ∀ k < n, ∀ d, Left b d (g k d)) (d : Dev) : Left b d (Machine.forN n g d) :=
  foldl _ _ (fun k hk d => hg k (List.mem_range.1 hk) d) d

/-- A move of an output's delay elements leaves what is asked of it, but for the output's RANGE. -/
theorem moveDelay (n : Nat) (g : Dev → Dev) (d : Dev) (hb : b ≠ rOUT_EVT n) : Left b (g d) (d.moveDelay n g) := by
  unfold Dev.moveDelay
  dsimp only
  generalize g d = e
  exact ((setOutWhen e _ n _).trans (setOutWhen _ _ n _)).trans (evtIf _ _ _ hb)

end Left

/-- The copy of one register's shadow leaves every other register that an update does not report in. -/
theorem Left.applyCopy {b : Nat} (hs : Silent b) (d0 : Dev) {a : Nat} (hne : b ≠ a) (d : Dev) : Left b d (Dev.applyCopy d0 a d) := by
  have hev := appliedWord_evt d a
  have steer : ∀ k < 8, isEvt (rSTEER_EVT k) = true := by decide
  have outs : ∀ n < 24, isEvt (rOUT_EVT n) = true := by decide
  unfold Dev.applyCopy
  generalize d.appliedWord a = r at hev
  have hset : Left b d ((r.2.foldl Dev.evt d).setWord a (Word.of r.1)) :=
    (Left.evts r.2 (fun f hf => hs _ (hev f hf)) d).trans (Left.setWord _ _ hne)
  dsimp only
  split
  · exact Left.refl b d
  · split
    · next hport =>
      have hk : inst 0x0B0000 0x40 a < 8 := hport.elim isReg_lt isReg_lt
      have hreport := fun f (hf : f.addr = rSTEER_EVT (inst 0x0B0000 0x40 a)) =>
        (Left.setShWord d (d.word a) hne).trans (Left.evt _ f (hf ▸ hs _ (steer _ hk)))
      split
      · exact Left.refl b d
      · split
        · exact hreport _ rfl
        · split
          · exact hreport _ rfl
          · exact hset
    · split
      · next hout =>
        exact (Left.setWord d (Word.of r.1) hne).trans
          (Left.moveDelay _ (fun d => d.setWord a (Word.of r.1)) d (hs _ (outs _ (isReg_lt hout))))
      · exact hset

/-- The copy of the shadow of a plain register (R268): the shadow within its limits is the live word. -/
theorem Dev.applyCopy_plain {a : Nat} {r : RegRow} (hp : PlainShadow a r) (hs : Silent a) (d0 d : Dev) :
    (Dev.applyCopy d0 a d).word a =
      Word.of (d.codesApplied a (limitWord a (mergeMask (d.word a).toNat (d.shWord a).toNat r.rws)).1) := by
  obtain ⟨hring, htp⟩ := hp.ring
  obtain ⟨hcenter, hgain⟩ := hp.port
  have outs : ∀ n < 24, isEvt (rOUT_EVT n) = true := by decide
  have happlied : (d.appliedWord a).1 = d.codesApplied a (limitWord a (mergeMask (d.word a).toNat (d.shWord a).toNat r.rws)).1 := by
    unfold Dev.appliedWord
    rw [hp.row]
    dsimp only
    unfold Dev.rateLimited
    rw [if_neg (by rw [hp.pad]; decide)]
  rw [← happlied]
  unfold Dev.applyCopy
  generalize d.appliedWord a = x
  dsimp only
  rw [if_neg (by rw [hring]; simp [htp]), if_neg (by rw [hcenter, hgain]; decide)]
  split
  · next hout => exact (Left.moveDelay _ _ d (hs _ (outs _ (isReg_lt hout)))).word.trans (Dev.word_setWord_self _ _ _)
  · exact Dev.word_setWord_self _ _ _

/-- Codes of another register than an output's are applied as the code alone says. -/
theorem Dev.codesApplied_congr {a : Nat} (h : isReg 0x050000 24 0x80 8 a = false) (d e : Dev) (w : Nat) :
    e.codesApplied a w = d.codesApplied a w := by
  unfold Dev.codesApplied
  split
  · rfl
  · split
    · rfl
    · rw [if_neg (by rw [h]; decide), if_neg (by rw [h]; decide)]

/-! ### The registers that an update visits -/

theorem insertNat_mem (a b : Nat) (l : List Nat) (h : b = a ∨ b ∈ l) : b ∈ insertNat a l := by
  induction l with
  | nil => simpa [insertNat] using h
  | cons c t ih =>
    unfold insertNat
    split
    · simpa using h
    · rcases h with rfl | h
      · exact List.mem_cons_of_mem _ (ih (Or.inl rfl))
      · rcases List.mem_cons.1 h with rfl | h
        · exact List.mem_cons_self
        · exact List.mem_cons_of_mem _ (ih (Or.inr h))

theorem Store.get_of_not_listed {s : Store} {k : Nat} (z : Word) (h : k ∉ keysOf s) : s.get k z = z := by
  induction s with
  | nil => rfl
  | cons e t ih =>
    obtain ⟨a, w⟩ := e
    unfold keysOf at h ih
    rw [List.map_cons, List.mem_cons, not_or] at h
    unfold Store.get
    rw [if_neg (Ne.symm h.1)]
    exact ih h.2

/-- An update visits each register of its groups whose shadow differs from its live word. -/
theorem mem_updateAddrs {d : Dev} {mask a : Nat} (hg : inGroups mask a = true) (hne : d.shWord a ≠ d.word a) : a ∈ d.updateAddrs mask := by
  have key : ∀ (ks l : List Nat), a ∈ ks ∨ a ∈ l → a ∈ ks.foldl (fun l a => insertNat a l) l := by
    intro ks
    induction ks with
    | nil => exact fun l h => h.resolve_left (by simp)
    | cons k t ih =>
      intro l h
      refine ih _ ?_
      rcases h with h | h
      · rcases List.mem_cons.1 h with rfl | h
        · exact Or.inr (insertNat_mem _ _ _ (Or.inl rfl))
        · exact Or.inl h
      · exact Or.inr (insertNat_mem _ _ _ (Or.inr h))
  unfold Dev.updateAddrs
  dsimp only
  refine key _ [] (Or.inl (List.mem_filter.2 ⟨?_, hg⟩))
  by_cases hsh : a ∈ keysOf d.shadow
  · exact List.mem_append_left _ hsh
  · by_cases hlive : a ∈ keysOf d.live
    · exact List.mem_append_right _ (List.mem_filter.2 ⟨hlive, by simpa using hsh⟩)
    · exact absurd ((Store.get_of_not_listed (resetWord a) hsh).trans (Store.get_of_not_listed (resetWord a) hlive).symm) hne

/-! ### All shadows copied, and the limits that hang on other fields -/

theorem Left.copies {b : Nat} (hs : Silent b) (d0 : Dev) (l : List Nat) (h : b ∉ l) (d : Dev) :
    Left b d (l.foldl (fun e a => Dev.applyCopy d0 a e) d) :=
  Left.foldl l _ (fun _ ha e => Left.applyCopy hs d0 (fun hb => h (hb ▸ ha)) e) d

/-- Each register that an update visits takes its shadow once. -/
theorem copies_plain {a : Nat} {r : RegRow} (hp : PlainShadow a r) (hs : Silent a) (d0 : Dev) {l : List Nat} (hl : l.Nodup) (ha : a ∈ l) (d : Dev) :
    (l.foldl (fun e a => Dev.applyCopy d0 a e) d).word a =
      Word.of (d.codesApplied a (limitWord a (mergeMask (d.word a).toNat (d.shWord a).toNat r.rws)).1) := by
  obtain ⟨l1, l2, rfl⟩ := List.append_of_mem ha
  obtain ⟨-, hl2, hdisj⟩ := List.nodup_append.1 hl
  have h1 : a ∉ l1 := fun h => hdisj a h a List.mem_cons_self rfl
  have h2 : a ∉ l2 := (List.nodup_cons.1 hl2).1
  have hbefore := Left.copies hs d0 l1 h1 d
  rw [List.foldl_append, List.foldl_cons, (Left.copies hs d0 l2 h2 _).word, Dev.applyCopy_plain hp hs d0, hbefore.word, hbefore.shadow,
    Dev.codesApplied_congr hp.out d]

theorem Left.limitSoft {b : Nat} (hs : Silent b) (h : ∀ n < 12, b ≠ rREF_SOFT n) (d : Dev) : Left b d d.limitSoft := by
  have rows : ∀ n < 12, isEvt (rREF_EVT n) = true := by decide
  refine Left.forN 12 _ (fun n hn d => ?_) d
  dsimp only
  split
  · exact Left.refl b d
  · exact (Left.wr d _ _ (h n hn)).trans (Left.evt _ _ (hs _ (rows n hn)))

theorem Left.limitTau {b : Nat} (hs : Silent b) (h : ∀ n < 12, b ≠ rREF_FM n) (d : Dev) : Left b d d.limitTau := by
  have rows : ∀ n < 12, isEvt (rREF_EVT n) = true := by decide
  refine Left.forN 12 _ (fun n hn d => ?_) d
  dsimp only
  split
  · exact Left.refl b d
  · exact (Left.wr d _ _ (h n hn)).trans (Left.evt _ _ (hs _ (rows n hn)))

theorem Left.limitTgt {b : Nat} (hs : Silent b) (h : ∀ k < 8, b ≠ rSTEER_TGT_LO k ∧ b ≠ rSTEER_TGT_HI k) (d : Dev) : Left b d d.limitTgt := by
  have rows : ∀ k < 8, isEvt (rSTEER_EVT k) = true := by decide
  refine Left.forN 8 _ (fun k hk d => ?_) d
  obtain ⟨hlo, hhi⟩ := h k hk
  dsimp only
  split
  · exact Left.refl b d
  · exact ((Left.wr d _ _ hlo).trans (Left.wr _ _ _ hhi)).trans (Left.evt _ _ (hs _ (rows k hk)))

/-- What an update writes once the shadows of its groups are copied. -/
theorem Dev.copyGroups_word {d : Dev} {mask b : Nat} (hs : Silent b) (hsoft : mask.testBit 1 = true → ∀ n < 12, b ≠ rREF_SOFT n ∧ b ≠ rREF_FM n)
    (htgt : mask.testBit 6 = true → ∀ k < 8, b ≠ rSTEER_TGT_LO k ∧ b ≠ rSTEER_TGT_HI k) (hpend : b ≠ rDEV_UPDATE) :
    (d.copyGroups mask).word b = ((d.updateAddrs mask).foldl (fun e a => Dev.applyCopy d a e) d).word b := by
  unfold Dev.copyGroups
  generalize (d.updateAddrs mask).foldl (fun e a => Dev.applyCopy d a e) d = x
  have h1 : Left b x (if mask.testBit 1 then x.limitSoft.limitTau else x) := by
    split
    · next hm => exact (Left.limitSoft hs (fun n hn => (hsoft hm n hn).1) x).trans (Left.limitTau hs (fun n hn => (hsoft hm n hn).2) _)
    · exact Left.refl b x
  dsimp only
  generalize (if mask.testBit 1 then x.limitSoft.limitTau else x) = y at h1
  have h2 : Left b x (if mask.testBit 6 then y.limitTgt else y) := by
    split
    · next hm => exact h1.trans (Left.limitTgt hs (htgt hm) y)
    · exact h1
  exact (h2.trans (Left.wr _ _ _ hpend)).word

/-- A register of an update's groups takes its shadow (R268). -/
theorem Dev.copyGroups_plain {d : Dev} {mask a : Nat} {r : RegRow} (hl : (d.updateAddrs mask).Nodup) (hp : PlainShadow a r)
    (hg : inGroups mask a = true) (hne : d.shWord a ≠ d.word a) : (d.copyGroups mask).word a =
      Word.of (d.codesApplied a (limitWord a (mergeMask (d.word a).toNat (d.shWord a).toNat r.rws)).1) := by
  obtain ⟨hsoft, htau⟩ := hp.ref
  have htarget := hp.target
  have hs := Silent.of_group hg
  have hword := Dev.copyGroups_word (d := d) (mask := mask) hs (fun _ n hn => ⟨?soft, ?tau⟩) (fun _ k hk => ⟨?lo, ?hi⟩) ?pend
  case soft =>
    rintro rfl
    exact absurd hsoft (by interval_cases n <;> decide)
  case tau =>
    rintro rfl
    exact absurd htau (by interval_cases n <;> decide)
  case lo =>
    unfold rSTEER_TGT_LO
    omega
  case hi =>
    unfold rSTEER_TGT_HI
    omega
  case pend =>
    rintro rfl
    exact absurd (inGroups_high hg) (by decide)
  exact hword.trans (copies_plain hp hs d hl (mem_updateAddrs hg hne) d)

/-- A register outside an update's groups, with no status bits, stands (R268). -/
theorem Dev.copyGroups_other {d : Dev} {mask a : Nat} {r : RegRow} (hr : rowAt a = some r) (hs : r.sqc = 0)
    (hg : inGroups mask a = false) (hne : a ≠ rDEV_UPDATE) : (d.copyGroups mask).word a = d.word a := by
  have hsilent := Silent.of_row hr hs
  have soft : ∀ n < 12, ((rowAt (rREF_SOFT n)).bind fun r => groupOf r (rREF_SOFT n)) = some 1 ∧
      ((rowAt (rREF_FM n)).bind fun r => groupOf r (rREF_FM n)) = some 1 := by decide
  have tgt : ∀ k < 8, ((rowAt (rSTEER_TGT_LO k)).bind fun r => groupOf r (rSTEER_TGT_LO k)) = some 6 ∧
      ((rowAt (rSTEER_TGT_HI k)).bind fun r => groupOf r (rSTEER_TGT_HI k)) = some 6 := by decide
  have inGroup : ∀ {b g : Nat}, ((rowAt b).bind fun r => groupOf r b) = some g → mask.testBit g = true → a ≠ b := by
    rintro b g hb hm rfl
    rw [hr, Option.bind_some] at hb
    unfold inGroups at hg
    simp [hr, hb, hm] at hg
  rw [Dev.copyGroups_word hsilent (fun hm n hn => ⟨inGroup (soft n hn).1 hm, inGroup (soft n hn).2 hm⟩)
    (fun hm k hk => ⟨inGroup (tgt k hk).1 hm, inGroup (tgt k hk).2 hm⟩) hne]
  exact (Left.copies hsilent d _ (fun h => by rw [updateAddrs_high mask d a h] at hg; cases hg) d).word

/-! ### Groups that leave PEND -/

/-- A number put together of its bits below `n`. -/
theorem bits_sum (f : Nat → Bool) (n : Nat) : (List.range n).foldl (fun v g => if f g then v + 2 ^ g else v) 0 < 2 ^ n ∧
    ∀ g, ((List.range n).foldl (fun v g => if f g then v + 2 ^ g else v) 0).testBit g = (decide (g < n) && f g) := by
  induction n with
  | zero => exact ⟨Nat.one_pos, fun g => by simp⟩
  | succ n ih =>
    obtain ⟨hlt, hbits⟩ := ih
    rw [List.range_succ, List.foldl_append, List.foldl_cons, List.foldl_nil]
    generalize (List.range n).foldl (fun v g => if f g then v + 2 ^ g else v) 0 = v at hlt hbits
    rw [Nat.pow_succ]
    split
    · next hf =>
      refine ⟨by omega, fun g => ?_⟩
      rw [Nat.add_comm]
      rcases Nat.lt_trichotomy g n with h | rfl | h
      · rw [Nat.testBit_two_pow_add_gt h, hbits]
        simp [h, Nat.lt_succ_of_lt h]
      · rw [Nat.testBit_two_pow_add_eq, hbits]
        simp [hf]
      · rw [Nat.testBit_lt_two_pow]
        · simp [Nat.not_lt.2 h]
        · have := Nat.pow_le_pow_right (show 0 < 2 by decide) (show n + 1 ≤ g from h)
          omega
    · next hf =>
      refine ⟨by omega, fun g => ?_⟩
      rw [hbits]
      rcases Nat.lt_trichotomy g n with h | rfl | h
      · simp [h, Nat.lt_succ_of_lt h]
      · simp [hf]
      · simp [Nat.not_lt.2 h, Nat.not_lt.2 (Nat.le_of_lt h)]

theorem pendAfter_testBit {p mask g : Nat} (hg : g < 8) : (pendAfter p mask % 256).testBit g = (p.testBit g && !mask.testBit g) := by
  obtain ⟨hlt, hbits⟩ := bits_sum (fun g => p.testBit g && !mask.testBit g) 8
  unfold pendAfter
  rw [Nat.mod_eq_of_lt (show _ < 256 from hlt), hbits]
  simp [hg]

theorem testBit_mod_256 {n g : Nat} (hg : g < 8) : (n % 256).testBit g = n.testBit g := by
  rw [show 256 = 2 ^ 8 from rfl, Nat.testBit_mod_two_pow]
  simp [hg]

/-- The groups of an update leave PEND. -/
theorem PendLess.update (d : Dev) (mask : Nat) : PendLess d (d.update mask) fun g => mask.testBit g := by
  intro g hg
  by_cases hm : mask % 256 = 0
  · have hbit : mask.testBit g = false := by
      rw [← testBit_mod_256 hg, hm]
      exact Nat.zero_testBit g
    unfold Dev.update
    rw [if_pos hm]
    simp [hbit]
  · obtain ⟨x, -, hx⟩ := d.update_split mask hm
    rw [hx.rd DEV_UPDATE_PEND (by decide), Dev.rd_wr_self _ DEV_UPDATE_PEND _ (by decide)]
    rw [show 2 ^ (DEV_UPDATE_PEND.hi - DEV_UPDATE_PEND.lo + 1) = 256 from rfl, pendAfter_testBit hg, testBit_mod_256 hg]

theorem PendLess.congr {d x e : Dev} {p q : Nat → Bool} (h : PendLess x e p) (hd : x.rd DEV_UPDATE_PEND = d.rd DEV_UPDATE_PEND)
    (hpq : ∀ g < 8, p g = q g) : PendLess d e q := fun g hg => by
  rw [h g hg, hd, hpq g hg]

/-! ### Strobes (10 R268, R269) -/

/-- A frame that this device sends changes nothing but the pasture's part, and no strobe or muster that waits. -/
theorem Dev.originate_past (t ds : Nat) (p : List Nat) (d : Dev) : ∃ q : Past, d.originate t ds p = { d with past := q } ∧
    q.waiting = d.past.waiting := by
  have send : ∀ (x t ds sr h k : Nat) (p : List Nat) (d : Dev), ∃ q : Past, d.sendOn x t ds sr h k p = { d with past := q } ∧
      q.waiting = d.past.waiting := fun x t ds sr h k p d => by
    unfold Dev.sendOn
    split
    · exact ⟨_, rfl, rfl⟩
    · exact ⟨d.past, rfl, rfl⟩
  unfold Dev.originate
  split
  · exact ⟨d.past, rfl, rfl⟩
  · dsimp only
    obtain ⟨q, hq, hqw⟩ := send 0 t ds d.pastIndex 7 d.past.fseq p
      { d with past := { d.past with fseq := (d.past.fseq + 1) % 32, seen := updAt d.past.seen d.pastIndex fun l => (d.past.fseq :: l).take 16 } }
    rw [hq]
    obtain ⟨q', hq', hqw'⟩ := send 1 t ds d.pastIndex 7 d.past.fseq p { d with past := q }
    exact ⟨q', hq', hqw'.trans hqw⟩

theorem Dev.localStrobe_local {d : Dev} {mask : Nat} (h : mask &&& d.rd DEV_UPDATE_CFG_PAST_MASK = 0) : d.localStrobe mask = d.update mask := by
  unfold Dev.localStrobe
  dsimp only
  rw [if_pos h, h, Nat.xor_zero]

theorem Dev.localStrobe_routed {d : Dev} {mask : Nat} (h0 : mask ≠ 0) (h : mask &&& d.rd DEV_UPDATE_CFG_PAST_MASK = mask) :
    (d.localStrobe mask).past.waiting = d.past.waiting ++ [⟨false, d.pastIndex, mask, d.nowU + d.pastLead⟩] := by
  unfold Dev.localStrobe
  dsimp only
  rw [h, if_neg h0, Nat.xor_self]
  obtain ⟨q, hq, hw⟩ := d.originate_past 4 0xF (mask :: tsBytes (d.nowU + d.pastLead))
  rw [hq]
  unfold Dev.update
  rw [if_pos rfl]
  exact congrArg (· ++ _) hw

/-- A local strobe takes its groups from PEND, but for those routed to the pasture. -/
theorem PendLess.localStrobe (d : Dev) (mask : Nat) :
    PendLess d (d.localStrobe mask) fun g => mask.testBit g && !(d.rd DEV_UPDATE_CFG_PAST_MASK).testBit g := by
  have hbits : ∀ g, (mask ^^^ (mask &&& d.rd DEV_UPDATE_CFG_PAST_MASK)).testBit g =
      (mask.testBit g && !(d.rd DEV_UPDATE_CFG_PAST_MASK).testBit g) := fun g => by
    rw [Nat.testBit_xor, Nat.testBit_and]
    cases mask.testBit g <;> cases (d.rd DEV_UPDATE_CFG_PAST_MASK).testBit g <;> rfl
  unfold Dev.localStrobe
  dsimp only
  split
  · exact (PendLess.update d _).congr rfl fun g _ => hbits g
  · obtain ⟨q, hq, -⟩ := d.originate_past 4 0xF ((mask &&& d.rd DEV_UPDATE_CFG_PAST_MASK) :: tsBytes (d.nowU + d.pastLead))
    rw [hq]
    exact (PendLess.update _ _).congr rfl fun g _ => hbits g

/-- An accepted write of DEV_UPDATE.GROUPS. -/
theorem Dev.write_update {d : Dev} {m mask : Nat} (h : d.Grants m rDEV_UPDATE) (hm : mask < 256) :
    d.write m rDEV_UPDATE (mask % 256) = (d.localStrobe mask).accessEdge := by
  obtain ⟨r, hr, hp, hrw, hrws, hres⟩ : ∃ r, rowAt rDEV_UPDATE = some r ∧ plainCommand rDEV_UPDATE r = true ∧ r.rw = 0 ∧ r.rws = 0 ∧
      reservedBits r = 0xFFFF0000 := ⟨_, rfl, by decide, rfl, rfl, by decide⟩
  have hmask : ∀ n < 256, n &&& 0xFFFF0000 = 0 := by decide +kernel
  have hcmd : d.command m rDEV_UPDATE mask = d.localStrobe (mask % 256) := by
    unfold Dev.command
    dsimp only
    rw [if_neg (by decide), if_pos rfl]
  rw [Dev.write_command h hr hp, Nat.mod_eq_of_lt hm, Nat.mod_eq_of_lt (show mask < 2 ^ 32 by omega),
    Dev.noteReserved_of_zero (by rw [hres]; exact hmask mask hm), Dev.writeRw_of_zero _ _ hrw, Dev.writeRws_of_zero _ _ hrws, hcmd,
    Nat.mod_eq_of_lt hm]

/-- An edge of the strobe pin, where the pin has its strobe function and the input is enabled. -/
theorem Dev.gpioStrobe_taken {d : Dev} {pin : Nat} {falling : Bool} (ha : d.applied = true) (he : d.flag DEV_UPDATE_CFG_STRB_IN_EN = true)
    (hp : d.rd DEV_UPDATE_CFG_STRB_IN_PIN = pin) (hf : d.flag DEV_UPDATE_CFG_STRB_IN_EDGE = falling) (hc : d.rd (CRAFT_GPIO_FUNC pin) = 2) :
    d.gpioStrobe pin falling = (d.gpioSeen pin !falling).localStrobe (d.rd DEV_UPDATE_CFG_GPIO_MASK) := by
  unfold Dev.gpioStrobe
  exact if_pos ⟨he, hp, hf, hc, ha⟩

theorem foldl_or_testBit {α : Type} (f : α → Nat) (l : List α) (v g : Nat) :
    (l.foldl (fun v w => v ||| f w) v).testBit g = (v.testBit g || l.any fun w => (f w).testBit g) := by
  induction l generalizing v with
  | nil => simp
  | cons w l ih => rw [List.foldl_cons, ih, Nat.testBit_or, List.any_cons, Bool.or_assoc]

/-- Settles O24: copies register by register; each strobe is one update of its groups, which leave PEND. -/
theorem strobesApplyTheirGroups : Obligations.StrobesApplyTheirGroups := by
  refine ⟨fun d mask a r _ hl => ⟨fun hp hg hne => Dev.copyGroups_plain hl hp hg hne, fun hr hs hg hne => Dev.copyGroups_other hr hs hg hne⟩, ?_⟩
  intro s dt m mask w u hm hw hu
  have hjw : Joined s.dev w := hw ▸ s.dev.joined true dt
  have hju : Joined s.dev u := hu ▸ s.dev.joined false dt
  have hwrd : ∀ f, w.rd f = s.dev.rd f := Dev.rd_congr hjw.live
  have hurd : ∀ f, u.rd f = s.dev.rd f := Dev.rd_congr hju.live
  have hwaits : w.past.waiting = s.dev.past.waiting ∧ u.past.waiting = s.dev.past.waiting := by
    obtain ⟨c, hc⟩ := s.dev.joined_eq true dt
    obtain ⟨c', hc'⟩ := s.dev.joined_eq false dt
    rw [hw, hc, hu, hc']
    exact ⟨rfl, rfl⟩
  obtain ⟨hwwait, huwait⟩ := hwaits
  have happl : s.dev.applied = true → u.applied = true := fun ha => by
    unfold Dev.applied Dev.measuring at ha ⊢
    rw [show u.mode = s.dev.mode from mode_congr (Dev.word_congr hju.live _)]
    exact ha
  have apply : ∀ P : Dev → Prop, s.dev.applied = true → P u.strobesDue → Effects (.pastStrobeApply dt) s P := fun P ha hp => by
    refine Effects.of_join (f := Dev.whenNow Dev.applied Dev.strobesDue) (a := false) (dt := dt) rfl ?_
    rw [← hu]
    unfold Dev.whenNow
    rw [if_pos (happl ha)]
    exact hp
  have strobe : ∀ P : Dev → Prop, s.dev.Grants m rDEV_UPDATE → P (w.localStrobe mask).accessEdge →
      Effects (.updateStrobeWrite dt m mask) s P := fun P hg hp => by
    refine Effects.of_join (f := Dev.write m rDEV_UPDATE (mask % 256)) (a := true) (dt := dt) rfl ?_
    rw [← hw, Dev.write_update (hjw.grants m _ hg) hm]
    exact hp
  refine ⟨fun hg => strobe _ hg ?_, fun hg h0 => strobe _ hg ?_, fun hg hne hall => strobe _ hg ?_, fun pin falling hpin ha he hp hf hc => ?_,
    fun x ha hx => ?_, fun ha => ?_⟩
  · exact (PendLess.localStrobe w mask).congr (hwrd _) fun g _ => by rw [hwrd]
  · rw [Dev.localStrobe_local (by rw [hwrd]; exact h0)]
  · refine (Dev.localStrobe_routed hne (by rw [hwrd]; exact hall)).trans ?_
    unfold Dev.pastIndex Dev.pastLead Dev.rdIn
    rw [hwwait, hwrd, hwrd]
  · have htaken := Dev.gpioStrobe_taken (d := u) (pin := pin) (falling := falling) (happl ha) (by unfold Dev.flag at he ⊢; rw [hurd]; exact he)
      (by rw [hurd]; exact hp) (by unfold Dev.flag at hf ⊢; rw [hurd]; exact hf) (by rw [hurd]; exact hc)
    rw [hurd] at htaken
    refine Effects.of_join (f := within pin 8 (Dev.gpioStrobe pin falling)) (a := false) (dt := dt) rfl ?_
    rw [within_of_lt hpin, ← hu, htaken]
    refine ⟨?_, fun h0 => Dev.localStrobe_local (d := u.gpioSeen pin !falling) ?_⟩
    · exact (PendLess.localStrobe (u.gpioSeen pin !falling) _).congr (hurd _) fun g _ => by
        rw [show (u.gpioSeen pin !falling).rd DEV_UPDATE_CFG_PAST_MASK = u.rd DEV_UPDATE_CFG_PAST_MASK from rfl, hurd]
    · exact (congrArg _ (hurd _)).trans h0
  · refine apply _ ha ?_
    unfold Dev.strobesDue
    dsimp only
    rw [huwait, hx, List.foldl_cons, List.foldl_nil, Nat.zero_or]
  · refine apply _ ha ((PendLess.update _ _).congr (hurd _) fun g _ => ?_)
    rw [foldl_or_testBit, Nat.zero_testBit, Bool.false_or, List.any_filter, huwait]

end Sys2Proof.Machine
end

section
/-!
PROOF. What the end of an edge writes whatever the device is in (11 R284 to R290; 13 R355, R356; 14 R374): every register outside its
reach stands, also where a fold is entered from SLEEP.
-/

namespace Sys2Proof.Machine

/-- A set of registers that the end of an edge keeps to, but for the lamp test: every register below the craft port outside the
paddocks, and those of the paddocks that they write as the device leaves SLEEP. -/
structure EndReach (A : Nat → Prop) : Prop where
  below : ∀ a, a < 0x030000 → A a
  above : ∀ a, 0x034000 ≤ a → a < 0x0C0000 → A a
  wake : ∀ d : Dev, OnlyRegs A d d.padsWake

theorem OnlyRegs.judgeDue (A : Nat → Prop) (d : Dev) (t : Int) : OnlyRegs A d (d.judgeDue t) :=
  (OnlyRegs.refl A d).forN 48 _ fun _ _ d => by
    dsimp only
    split
    · exact OnlyRegs.refl A d
    · exact ((OnlyRegs.refl A d).setCell _ _).setMeas _

theorem OnlyRegs.sendNotice (A : Nat → Prop) (d : Dev) (src sev : Nat) (fold : Bool) (t : Nat) : OnlyRegs A d (d.sendNotice src sev fold t) := by
  obtain ⟨q, hq, -⟩ := d.originate_past 6 0xF ([src, sev + 4 * b2n fold] ++ tsBytes t)
  unfold Dev.sendNotice
  rw [hq]
  exact (OnlyRegs.refl A d).setPast q

namespace EndReach

variable {A : Nat → Prop} (E : EndReach A)
include E

theorem firing : ∀ a, firingAt a → A a := by
  intro a h
  unfold firingAt at h
  by_cases hlow : a < 0x030000
  · exact E.below a hlow
  · exact E.above a (by omega) (by omega)

theorem ref {n b c : Nat} (hn : n < 13) (h1 : b < 0x021000 := by decide) (h2 : c ≤ 0x100 := by decide) : A (b + c * n) :=
  E.below _ (by nlinarith)

theorem array {n b c : Nat} (hn : n < 24) (h1 : 0x034000 ≤ b := by decide) (h2 : b + c * 24 < 0x0C0000 := by decide) : A (b + c * n) :=
  E.above _ (by omega) (Nat.lt_of_le_of_lt (Nat.add_le_add_left (Nat.mul_le_mul_left c hn.le) b) h2)

theorem port {k b c : Nat} (hk : k < 8) (h1 : 0x034000 ≤ b := by decide) (h2 : b + c * 8 < 0x0C0000 := by decide) : A (b + c * k) :=
  E.above _ (by omega) (Nat.lt_of_le_of_lt (Nat.add_le_add_left (Nat.mul_le_mul_left c hk.le) b) h2)

/-! ### The reference monitors and the beat monitors -/

theorem refStart (d : Dev) {n : Nat} (hn : n < 13) : OnlyRegs A d (d.refStart n) := by
  have h := (OnlyRegs.refl A d).setRef n fun _ => { RefMon.fresh with waitWin := true }
  unfold Dev.refStart
  dsimp only
  split
  · exact h
  · exact h.setWord _ _ (E.ref hn)

theorem refStop (d : Dev) {n : Nat} (hn : n < 13) : OnlyRegs A d (d.refStop n) := by
  have h := (OnlyRegs.refl A d).setRef n fun _ => RefMon.fresh
  unfold Dev.refStop
  dsimp only
  split
  · exact h
  · exact h.setWord _ _ (E.ref hn)

theorem refStartAll (d : Dev) : OnlyRegs A d d.refStartAll := by
  unfold Dev.refStartAll
  have h := (OnlyRegs.refl A d).forN 12 (fun n d => if d.claimed n then d.refStart n else d.refStop n) fun k hk d => by
    split
    · exact E.refStart d (by omega)
    · exact E.refStop d (by omega)
  dsimp only
  split
  · exact h.trans (E.refStart _ (by decide))
  · exact h.trans (E.refStop _ (by decide))

theorem beatsStart (d : Dev) : OnlyRegs A d d.beatsStart :=
  (OnlyRegs.refl A d).forN 8 _ fun b hb d =>
    ((((OnlyRegs.refl A d).setBeat b _).setWord (rBN_STAT b) 0 (E.port hb)).wr (BN_STAT_QUAL b) _ (E.port hb)).askSelect none

/-! ### The outputs and the ports -/

theorem psynsResume (d : Dev) (k : Nat) : OnlyRegs A d (d.psynsResume k) :=
  (OnlyRegs.refl A d).forN 4 _ fun j hj d => (OnlyRegs.refl A d).when _ _
    (((OnlyRegs.refl A d).setPsyn j _).wr (PSYN_STAT_RUNNING j) _ (E.array (by omega)))

theorem apllCal (d : Dev) {k : Nat} (hk : k < 6) : OnlyRegs A d (d.apllCal k) :=
  (((OnlyRegs.refl A d).setApll k _).wr (FLOCK_STAT_LOCK k) _ (E.array (by omega))).wr (FLOCK_STAT_CAL_BUSY k) 1 (E.array (by omega))

theorem outTry (d : Dev) {n : Nat} (hn : n < 24) : OnlyRegs A d (d.outTry n) := by
  unfold Dev.outTry
  dsimp only
  split
  · exact (((OnlyRegs.refl A d).wr (OUT_STAT_STATE n) 1 (E.array hn)).wr (OUT_STAT_FOLDED n) 0 (E.array hn)).setOut _ _
  · exact OnlyRegs.refl A d

theorem outsWake (d : Dev) : OnlyRegs A d d.outsWake := by
  unfold Dev.outsWake
  refine OnlyRegs.forN ((OnlyRegs.refl A d).forN 6 _ fun k hk d => ?_) 24 _ fun n hn d => E.outTry d hn
  split
  · exact (E.apllCal d hk).setApll _ _
  · split
    · exact E.psynsResume d k
    · exact (OnlyRegs.refl A d).setApll _ _

theorem outStop (d : Dev) {n : Nat} (hn : n < 24) (b : Bool) : OnlyRegs A d (d.outStop n b) := by
  unfold Dev.outStop
  dsimp only
  split
  · exact ((((OnlyRegs.refl A d).wr (OUT_STAT_STATE n) 2 (E.array hn)).when _ _
      ((OnlyRegs.refl A _).wr (OUT_STAT_FOLDED n) 1 (E.array hn))).setOut _ _).lower _ _
  · split
    · exact (OnlyRegs.refl A d).wr (OUT_STAT_FOLDED n) 1 (E.array hn)
    · exact OnlyRegs.refl A d

theorem portPend (d : Dev) {k : Nat} (hk : k < 8) : OnlyRegs A d (d.portPend k) :=
  (OnlyRegs.refl A d).wr (STEER_STAT_PENDING k) _ (E.port hk)

theorem portFault (d : Dev) {k : Nat} (hk : k < 8) (cause : Nat) : OnlyRegs A d (d.portFault k cause) := by
  unfold Dev.portFault
  dsimp only
  split
  · have h := (((OnlyRegs.refl A d).wr (STEER_STAT_STATE k) 2 (E.port hk)).wr (STEER_STAT_CAUSE k) cause (E.port hk)).wr (STEER_STAT_PARKED k)
      (b2n (d.flag (STEER_CTL_ACT k))) (E.port hk)
    refine OnlyRegs.trans ?_ (E.portPend _ hk)
    exact (((h.when _ _ ((OnlyRegs.refl A _).wr (STEER_STAT_SLEW_LIM k) 0 (E.port hk))).setPort _ _).evt (STEER_EVT_FAULT k) (E.port hk)).fire _ _
      E.firing
  · split
    · refine OnlyRegs.trans ?_ (E.portPend _ hk)
      exact (((OnlyRegs.refl A d).setPort _ _).wr (STEER_STAT_CAUSE k) cause (E.port hk)).setPort _ _
    · exact (OnlyRegs.refl A d).setPort _ _
  · exact OnlyRegs.refl A d

/-! ### SLEEP exit and FOLD -/

theorem sleepExit (d : Dev) : OnlyRegs A d d.sleepExit := by
  unfold Dev.sleepExit
  have h1 := ((E.refStartAll d).trans (E.beatsStart _)).trans (E.wake _)
  dsimp only
  generalize d.refStartAll.beatsStart.padsWake = x at h1
  have h2 : OnlyRegs A d (if x.flag DEV_TEMP_VALID then x.judgeDue (x.rdS DEV_TEMP_TEMP) else x) := by
    split
    · exact h1.trans (OnlyRegs.judgeDue A _ _)
    · exact h1
  generalize (if x.flag DEV_TEMP_VALID then x.judgeDue (x.rdS DEV_TEMP_TEMP) else x) = y at h2
  have h3 := h2.trans (E.outsWake y)
  generalize y.outsWake = z at h3
  exact (h3.forN 8 _ fun k hk d => E.portPend d hk).askSelect none

theorem setUnder (d : Dev) (m : Mode) : OnlyRegs A d (d.setUnder m) := by
  have hmode : OnlyRegs A d (d.changeMode m) := ((OnlyRegs.refl A d).wr DEV_MODE_MODE _ (E.below _ (by decide))).setFlt _
  unfold Dev.setUnder
  split
  · exact (OnlyRegs.refl A d).setPrior _
  · exact hmode

theorem setUnderQuiet (d : Dev) (m : Mode) : OnlyRegs A d (d.setUnderQuiet m) := by
  unfold Dev.setUnderQuiet
  split
  · exact (OnlyRegs.refl A d).setPrior _
  · exact (OnlyRegs.refl A d).wr DEV_MODE_MODE _ (E.below _ (by decide))

theorem enterFold (d : Dev) : OnlyRegs A d d.enterFold := by
  have req : ∀ x : Dev, OnlyRegs A x (x.wr FLT_STAT_FOLD_REQ 1) := fun x => (OnlyRegs.refl A x).wr _ _ (E.below _ (by decide))
  have hwake : ∀ m : Mode, OnlyRegs A d (if m = .sleep then (d.setUnderQuiet .run).sleepExit else d) := fun m => by
    split
    · exact (E.setUnderQuiet d .run).trans (E.sleepExit _)
    · exact OnlyRegs.refl A d
  unfold Dev.enterFold
  split
  · exact OnlyRegs.refl A d
  · exact OnlyRegs.refl A d
  · exact req d
  · have h0 := hwake d.underMode
    dsimp only
    generalize (if d.underMode = .sleep then (d.setUnderQuiet .run).sleepExit else d) = x at h0 ⊢
    have h1 := ((h0.bump FLT_FOLDS_COUNT (E.below _ (by decide))).trans (req _)).trans (E.setUnder _ .fold)
    generalize ((x.bump FLT_FOLDS_COUNT).wr FLT_STAT_FOLD_REQ 1).setUnder .fold = y at h1 ⊢
    have h2 : OnlyRegs A d y.outsFold.portsFold := by
      refine (h1.forN 24 (fun n d => d.outStop n true) fun n hn d => E.outStop d hn true).forN 8 _ fun k hk d => ?_
      split
      · exact E.portFault d hk 1
      · exact OnlyRegs.refl A d
    generalize y.outsFold.portsFold = z at h2 ⊢
    split
    · exact h2.trans (OnlyRegs.sendNotice A z _ _ _ _)
    · exact h2

/-! ### The end of an edge -/

theorem settleFold (d : Dev) : OnlyRegs A d d.settleFold := by
  have hw : OnlyRegs A d (d.wr FLT_STAT_FOLD_REQ 0) := (OnlyRegs.refl A d).wr _ _ (E.below _ (by decide))
  unfold Dev.settleFold
  split
  · dsimp only
    split
    · unfold Dev.leaveFold
      refine (hw.trans (E.setUnder _ .run)).forN 24 _ fun n hn d => ?_
      exact ((OnlyRegs.refl A d).wr (OUT_STAT_FOLDED n) 0 (E.array hn)).trans (E.outTry _ hn)
    · exact hw
  · exact OnlyRegs.refl A d

theorem settleCopy (d : Dev) : OnlyRegs A d d.settleCopy := by
  unfold Dev.settleCopy
  dsimp only
  split
  · exact ((OnlyRegs.refl A d).setFlt _).fire 49 0 E.firing
  · exact OnlyRegs.refl A d

theorem settlePend (d : Dev) : OnlyRegs A d d.settlePend := by
  unfold Dev.settlePend
  split
  · exact (E.enterFold d).setFlt _
  · exact OnlyRegs.refl A d

/-- The end of an edge keeps to its reach, and then judges the lamp test. -/
theorem finish (d : Dev) : ∃ x, OnlyRegs A d x ∧ d.finish = x.settleLamp := by
  have hstat : A rFLT_STAT := E.below _ (by decide)
  refine ⟨_, ?_, rfl⟩
  refine ((((((E.settleCopy d).trans (E.settlePend _)).trans (Keeps.settleFatal _ hstat).only).trans (Keeps.settleEsc _ hstat).only).trans
    (Keeps.settleInj _ (E.below _ (by decide))).only).trans (E.settleFold _)).trans ?_
  exact (Keeps.settleElig _ (E.above _ (by decide) (by decide))).only.trans (Keeps.settleFn _ hstat).only

end EndReach

/-- The registers below the craft port. -/
def BelowCraft (a : Nat) : Prop := a < 0x0C0000

theorem belowCraft_end : EndReach BelowCraft where
  below a h := by unfold BelowCraft; omega
  above a _ h := h
  wake d := by
    have hpad : ∀ a, PadSide a → BelowCraft a := fun a h => by
      by_contra hn
      unfold BelowCraft at hn
      exact not_padSide (by omega) (by omega) h
    exact (OnlyRegs.refl _ d).forN 16 _ fun n hn d => ((Apart.refl PadSide d).padAuto hn).only.mono hpad

end Sys2Proof.Machine
end

section
/-!
PROOF. Plugs, push buttons, LEDs and the external sensor (05 R142; 14 R373 to R379; O54).
-/

namespace Sys2Proof.Machine

/-- The registers of CRAFT_STAT and CRAFT_EVT. -/
def CraftPair (a : Nat) : Prop := a = rCRAFT_STAT ∨ a = rCRAFT_EVT

/-! ### Plugs (R142, R376) -/

/-- A level of PLUG_N_k shows in CRAFT_STAT, and its change in CRAFT_EVT. -/
theorem Dev.plugLevel_spec (d : Dev) {k : Nat} (hk : k < 4) (low : Bool) :
    (d.plugLevel k low).flag ⟨rCRAFT_STAT, 16 + k, 16 + k⟩ = low ∧
    (d.flag ⟨rCRAFT_STAT, 16 + k, 16 + k⟩ ≠ low → (d.plugLevel k low).flag CRAFT_EVT_PLUG = true) ∧
    OnlyRegs CraftPair d (d.plugLevel k low) := by
  unfold Dev.plugLevel
  dsimp only
  split
  · next h => exact ⟨h, fun hne => absurd h hne, OnlyRegs.refl _ d⟩
  · have hflag := Dev.flag_wr_self d ⟨rCRAFT_STAT, 16 + k, 16 + k⟩ (b2n low) ⟨Nat.le_refl _, show 16 + k < 32 by omega⟩ rfl
    have honly := (OnlyRegs.refl CraftPair d).wr ⟨rCRAFT_STAT, 16 + k, 16 + k⟩ (b2n low) (Or.inl rfl)
    generalize d.wr ⟨rCRAFT_STAT, 16 + k, 16 + k⟩ (b2n low) = x at hflag honly
    refine ⟨?_, fun _ => Dev.flag_evt_self x CRAFT_EVT_PLUG rfl (by decide), honly.evt _ (Or.inr rfl)⟩
    rw [Dev.flag_evt_of_ne _ _ _ (show rCRAFT_STAT ≠ rCRAFT_EVT by decide), hflag]
    cases low <;> rfl

theorem not_refSide_craft {n a : Nat} (hn : n < 12) (ha : 0x0C0000 ≤ a) : ¬ refSide n a := by
  unfold refSide selectionAt firingAt
  omega

theorem not_craftPair {a : Nat} (h : a < 0x0C0000) : ¬ CraftPair a := by
  rintro (rfl | rfl) <;> exact absurd h (by decide)

/-- A flag of a cause is its bit of the causes. -/
theorem Dev.flag_cause (d : Dev) (n : Nat) {k : Nat} (hk : k < 7) : d.flag ⟨rREF_STAT n, k, k⟩ = (d.refCauses n).testBit k := by
  unfold Dev.flag Dev.refCauses Dev.rd
  dsimp only
  rw [Nat.testBit_eq_decide_div_mod_eq, bitsOf_eq, bitsOf_eq]
  simp only [Nat.sub_self, Nat.zero_add, Nat.pow_one, Nat.pow_zero, Nat.div_one, ne_eq, decide_eq_decide]
  interval_cases k <;> omega

/-- The causes that are left when some clear (R144). -/
theorem Dev.refClear_causes (d : Dev) (n mask : Nat) : (d.refClear n mask).refCauses n = andNot (d.refCauses n) mask := by
  have hlt : andNot (d.refCauses n) mask < 128 := by
    have : d.refCauses n < 2 ^ 7 := by unfold Dev.refCauses; exact bitsOf_lt _ _ _
    exact Nat.lt_of_le_of_lt Nat.and_le_left this
  obtain ⟨hcauses, -⟩ := d.wr_causes n _ hlt
  unfold Dev.refClear
  dsimp only
  split
  · next h => exact h
  · generalize d.wr ⟨rREF_STAT n, 6, 0⟩ (andNot (d.refCauses n) mask) = x at hcauses
    split
    · exact hcauses
    · have hset := ((OnlyRegs.refl (fun _ => False) x).setRef n fun m => { m with wtrDone := false, fmOk := decide (m.okAt = some x.clk.edge) }).rd
        ⟨rREF_STAT n, 6, 0⟩ id
      generalize (x.setRef n fun m => { m with wtrDone := false, fmOk := decide (m.okAt = some x.clk.edge) }) = y at hset
      split
      · have hw := ((OnlyRegs.refl (· = rREF_WTR_LEFT n) y).wr (REF_WTR_LEFT_LEFT n) (x.rd (REF_WTR_WTR n)) rfl).rd ⟨rREF_STAT n, 6, 0⟩
          (show rREF_STAT n ≠ rREF_WTR_LEFT n by unfold rREF_STAT rREF_WTR_LEFT; omega)
        exact (Dev.refEnter_stat _ n 2 (by decide)).2.trans (hw.trans (hset.trans hcauses))
      · exact (y.refQualify_stat n).2.trans (hset.trans hcauses)

theorem Dev.refSettle_causes (d : Dev) (n : Nat) : (d.refSettle n).refCauses n = d.refCauses n := by
  unfold Dev.refSettle Dev.when
  dsimp only
  split
  · exact (d.refQualify_stat n).2
  · rfl

theorem Dev.plugPull_spec (d : Dev) {k : Nat} (hk : k < 4) :
    (d.plugMove k false (Dev.refPull k)).flag ⟨rCRAFT_STAT, 16 + k, 16 + k⟩ = false ∧
    (d.flag ⟨rCRAFT_STAT, 16 + k, 16 + k⟩ = true → (d.plugMove k false (Dev.refPull k)).flag CRAFT_EVT_PLUG = true) ∧
    (d.measuring = true → d.flag (REF_CFG_PLUG_EN (8 + k)) = true → d.refState (8 + k) ≠ 0 →
      (d.plugMove k false (Dev.refPull k)).flag (REF_STAT_PLUG (8 + k)) = true ∧ (d.plugMove k false (Dev.refPull k)).refState (8 + k) = 1) := by
  obtain ⟨hlevel, hevt, honly⟩ := d.plugLevel_spec hk false
  have hmode : (d.plugLevel k false).mode = d.mode := mode_congr (honly.word _ (not_craftPair (by decide)))
  have hmeas : (d.plugLevel k false).measuring = d.measuring := by
    unfold Dev.measuring
    rw [hmode]
  have hen := honly.flag (REF_CFG_PLUG_EN (8 + k)) (not_craftPair (show 0x020000 + 0x100 * (8 + k) < 0x0C0000 by omega))
  have hstate : (d.plugLevel k false).refState (8 + k) = d.refState (8 + k) :=
    honly.rd (REF_STAT_STATE (8 + k)) (not_craftPair (show 0x020030 + 0x100 * (8 + k) < 0x0C0000 by omega))
  have hmove : d.plugMove k false (Dev.refPull k) =
      if d.measuring then (d.plugLevel k false).when (d.flag (REF_CFG_PLUG_EN (8 + k))) (Dev.refSet (8 + k) 32) else d.plugLevel k false := by
    unfold Dev.plugMove Dev.refPull
    dsimp only
    rw [hmeas, hen]
  rw [hmove]
  generalize d.plugLevel k false = x at hlevel hevt hstate
  have hx : OnlyRegs (refSide (8 + k)) x (if d.measuring then x.when (d.flag (REF_CFG_PLUG_EN (8 + k))) (Dev.refSet (8 + k) 32) else x) := by
    split
    · exact (OnlyRegs.refl _ x).when _ _ ((OnlyRegs.refl _ x).refSet 32)
    · exact OnlyRegs.refl _ x
  refine ⟨(hx.flag _ (not_refSide_craft (by omega) (show 0x0C0000 ≤ rCRAFT_STAT by decide))).trans hlevel,
    fun h => (hx.flag CRAFT_EVT_PLUG (not_refSide_craft (by omega) (by decide))).trans (hevt (by rw [h]; decide)), fun hm he h0 => ?_⟩
  rw [if_pos hm, he]
  obtain ⟨hcauses, hst⟩ := x.refSet_stat (8 + k) 32 (by rw [hstate]; exact h0) (by decide) (by decide)
  unfold Dev.when
  rw [if_pos rfl]
  constructor
  · rw [show REF_STAT_PLUG (8 + k) = ⟨rREF_STAT (8 + k), 5, 5⟩ from rfl, Dev.flag_cause _ _ (by decide), hcauses, Nat.testBit_or,
      show Nat.testBit 32 5 = true by decide, Bool.or_true]
  · rw [hst, hstate]
    split <;> omega

theorem Dev.plugInsert_spec (d : Dev) {k : Nat} (hk : k < 4) :
    (d.plugMove k true id).flag ⟨rCRAFT_STAT, 16 + k, 16 + k⟩ = true ∧ (d.plugMove k true id).refCauses (8 + k) = d.refCauses (8 + k) ∧
      (d.plugMove k true id).refState (8 + k) = d.refState (8 + k) := by
  obtain ⟨hlevel, -, honly⟩ := d.plugLevel_spec hk true
  have hmove : d.plugMove k true id = d.plugLevel k true := by
    unfold Dev.plugMove
    dsimp only
    split <;> rfl
  have hstat : ¬ CraftPair (rREF_STAT (8 + k)) := not_craftPair (show 0x020030 + 0x100 * (8 + k) < 0x0C0000 by omega)
  rw [hmove]
  exact ⟨hlevel, honly.rd ⟨rREF_STAT (8 + k), 6, 0⟩ hstat, honly.rd (REF_STAT_STATE (8 + k)) hstat⟩

/-- A plug that has stayed low for SETTLE clears its cause (R142). -/
theorem Dev.refPlugSettle_spec {d : Dev} {k : Nat} (h : d.plugIs (8 + k) true = true) :
    (d.refPlugSettle k).flag (REF_STAT_PLUG (8 + k)) = false ∧ OnlyRegs (refSide (8 + k)) d (d.refPlugSettle k) := by
  unfold Dev.refPlugSettle Dev.when
  rw [if_pos h]
  refine ⟨?_, ((OnlyRegs.refl _ d).refClear 32).refSettle⟩
  rw [show REF_STAT_PLUG (8 + k) = ⟨rREF_STAT (8 + k), 5, 5⟩ from rfl, Dev.flag_cause _ _ (by decide), Dev.refSettle_causes,
    Dev.refClear_causes]
  unfold andNot
  rw [Nat.testBit_and, show Nat.testBit (0xFFFFFFFF ^^^ (32 &&& 0xFFFFFFFF)) 5 = false by decide, Bool.and_false]

/-! ### LEDs (R378) -/

theorem firingAt_below : ∀ a, firingAt a → BelowCraft a := belowCraft_end.firing

theorem Dev.ledOpen_off {d : Dev} {k : Nat} (h : d.ledSink k = 0) : d.ledOpen k true = d := by
  unfold Dev.ledOpen
  exact if_pos (Or.inr ⟨rfl, h⟩)

/-- An LED sink finds its pin low while it is on. -/
theorem Dev.ledOpen_begins {d : Dev} {k : Nat} (hk : k < 4) (h : d.ledSink k ≠ 0) (hl : (53, k) ∉ d.flt.live) :
    (d.ledOpen k true).flag ⟨rCRAFT_STAT, 24 + k, 24 + k⟩ = true ∧ (d.ledOpen k true).flag CRAFT_EVT_LED_OPEN = true ∧
      Fired 53 d (d.ledOpen k true) ∧ (53, k) ∈ (d.ledOpen k true).flt.live := by
  have hopen : d.ledOpen k true = ((d.wr ⟨rCRAFT_STAT, 24 + k, 24 + k⟩ 1).evt CRAFT_EVT_LED_OPEN).raise 53 k k := by
    unfold Dev.ledOpen Dev.evtIf Dev.level
    rw [if_neg (by simp [h]; omega)]
    rfl
  have hflag := Dev.flag_wr_self d ⟨rCRAFT_STAT, 24 + k, 24 + k⟩ 1 ⟨Nat.le_refl _, show 24 + k < 32 by omega⟩ rfl
  have hlive := (LiveKept.wr d ⟨rCRAFT_STAT, 24 + k, 24 + k⟩ 1).trans (LiveKept.evt _ CRAFT_EVT_LED_OPEN)
  have hseq : ((d.wr ⟨rCRAFT_STAT, 24 + k, 24 + k⟩ 1).evt CRAFT_EVT_LED_OPEN).rd FLT_SEQNO_COUNT = d.rd FLT_SEQNO_COUNT :=
    (Dev.rd_evt_of_ne _ _ _ (by decide)).trans (Dev.rd_wr_of_ne _ _ _ _ (show rFLT_SEQNO ≠ rCRAFT_STAT by decide))
  have hev := Dev.flag_evt_self (d.wr ⟨rCRAFT_STAT, 24 + k, 24 + k⟩ 1) CRAFT_EVT_LED_OPEN rfl (by decide)
  have hst := Dev.flag_evt_of_ne (d.wr ⟨rCRAFT_STAT, 24 + k, 24 + k⟩ 1) CRAFT_EVT_LED_OPEN ⟨rCRAFT_STAT, 24 + k, 24 + k⟩
    (show rCRAFT_STAT ≠ rCRAFT_EVT by decide)
  rw [hopen]
  generalize (d.wr ⟨rCRAFT_STAT, 24 + k, 24 + k⟩ 1).evt CRAFT_EVT_LED_OPEN = x at hlive hseq hev hst
  obtain ⟨hfired, hin⟩ := x.raise_fired 53 k k (by decide) (by rw [hlive.live]; exact hl)
  have honly : OnlyRegs BelowCraft x (x.raise 53 k k) := (OnlyRegs.refl _ x).raise 53 k k firingAt_below
  exact ⟨(honly.flag _ (show ¬ BelowCraft rCRAFT_STAT by unfold BelowCraft; decide)).trans (hst.trans hflag),
    (honly.flag _ (show ¬ BelowCraft rCRAFT_EVT by unfold BelowCraft; decide)).trans hev, hfired.of_rd hseq, hin⟩

theorem Dev.ledOpen_ends (d : Dev) {k : Nat} (hk : k < 4) : (d.ledOpen k false).flag ⟨rCRAFT_STAT, 24 + k, 24 + k⟩ = false ∧
    (53, k) ∉ (d.ledOpen k false).flt.live ∧ OnlyRegs (fun a => a = rCRAFT_STAT) d (d.ledOpen k false) := by
  have hopen : d.ledOpen k false = (d.wr ⟨rCRAFT_STAT, 24 + k, 24 + k⟩ 0).lower 53 k := by
    unfold Dev.ledOpen Dev.evtIf Dev.level
    rw [if_neg (by simp; omega)]
    rfl
  have hflag := Dev.flag_wr_self d ⟨rCRAFT_STAT, 24 + k, 24 + k⟩ 0 ⟨Nat.le_refl _, show 24 + k < 32 by omega⟩ rfl
  have honly := (OnlyRegs.refl (fun a => a = rCRAFT_STAT) d).wr ⟨rCRAFT_STAT, 24 + k, 24 + k⟩ 0 rfl
  rw [hopen]
  generalize d.wr ⟨rCRAFT_STAT, 24 + k, 24 + k⟩ 0 = x at hflag honly
  have hlower : OnlyRegs (fun _ => False) x (x.lower 53 k) := (OnlyRegs.refl _ x).lower 53 k
  exact ⟨(hlower.flag _ id).trans hflag, by rw [Dev.mem_live_lower]; simp, honly.lower 53 k⟩

/-! ### Buttons (R373 to R375; 05 R156) -/

/-- What a press of button `k` does to paddock `n`. -/
def Dev.pressed (k n : Nat) (d : Dev) : Dev := d.when (decide (d.rd (PAD_SEL_PB_SRC n) = k + 1)) (Dev.buttonPress n)

theorem Dev.buttonCycle_eq (d : Dev) (k : Nat) : d.buttonCycle k = (forN 16 (Dev.pressed k) d).askSelect none := rfl

/-- A CYCLE press reaches each paddock whose PB_SRC names the button. -/
theorem Dev.pressed_spec (e : Dev) (k : Nat) {N : Nat} (hN : N ≤ 16) :
    OnlyRegs (fun a => ∃ n < 16, a = rPAD_SEL_EVT n) e (forN N (Dev.pressed k) e) ∧
      ∀ n < N, e.rd (PAD_SEL_PB_SRC n) = k + 1 → (forN N (Dev.pressed k) e).flag (PAD_SEL_EVT_PB n) = true := by
  induction N with
  | zero => exact ⟨OnlyRegs.refl _ e, fun n h => absurd h (by omega)⟩
  | succ N ih =>
    obtain ⟨honly, hflags⟩ := ih (by omega)
    rw [forN_succ]
    generalize forN N (Dev.pressed k) e = y at honly hflags
    have hsrc : y.rd (PAD_SEL_PB_SRC N) = e.rd (PAD_SEL_PB_SRC N) := honly.rd _ (by
      rintro ⟨n, hn, h⟩
      have : 0x030280 + 0x400 * N = 0x030298 + 0x400 * n := h
      omega)
    unfold Dev.pressed Dev.when
    split
    · unfold Dev.buttonPress
      have hsel := (OnlyRegs.refl (fun _ => False) y).setSel N fun s => { s with presses := s.presses + 1 }
      generalize y.setSel N (fun s => { s with presses := s.presses + 1 }) = z at hsel
      refine ⟨(honly.trans (hsel.mono fun _ h => h.elim)).evt _ ⟨N, by omega, rfl⟩, fun n hn h => ?_⟩
      by_cases hnN : n = N
      · subst hnN
        exact Dev.flag_evt_self z (PAD_SEL_EVT_PB n) rfl (show (4 : Nat) < 24 by decide)
      · rw [Dev.flag_evt_of_ne z _ _ (show rPAD_SEL_EVT n ≠ rPAD_SEL_EVT N by unfold rPAD_SEL_EVT; omega), hsel.flag _ id]
        exact hflags n (by omega) h
    · next hp =>
      rw [decide_eq_true_eq, hsrc] at hp
      refine ⟨honly, fun n hn h => hflags n ?_ h⟩
      have hnN : n ≠ N := by
        rintro rfl
        exact hp h
      omega

theorem OnlyRegs.fnRel (d : Dev) : OnlyRegs (fun a => a = rFLT_STAT) d d.fnRel ∧ d.fnRel.front = d.front := by
  have hrel : OnlyRegs (fun a => a = rFLT_STAT) d d.fnRelease ∧ d.fnRelease.front = d.front := by
    have honly := (OnlyRegs.refl (fun a => a = rFLT_STAT) d).wr FLT_STAT_FN 0 rfl
    have hfront := Dev.wr_front d FLT_STAT_FN 0
    unfold Dev.fnRelease
    generalize d.wr FLT_STAT_FN 0 = x at honly hfront
    exact ⟨honly.setFlt _, hfront⟩
  unfold Dev.fnRel
  split
  · split
    · split
      · exact ⟨OnlyRegs.refl _ d, rfl⟩
      · exact hrel
    · exact ⟨(OnlyRegs.refl _ d).setFlt _, rfl⟩
  · exact ⟨OnlyRegs.refl _ d, rfl⟩

/-- The device whose LEDs acknowledge a fault state that they show. -/
def Dev.acked (d : Dev) : Dev :=
  { d with front := { d.front with ledAck := (List.range 4).map fun i => d.front.ledAck.getD i false || (decide (d.rd (CRAFT_LED_SRC i) = 1) && d.flag FLT_STAT_FSTATE) } }

theorem Dev.ackPress_eq (d : Dev) (k : Nat) : d.ackPress k =
    if (d.evt CRAFT_EVT_ACK).acked.pbFnRel k then (d.evt CRAFT_EVT_ACK).acked.fnRel else (d.evt CRAFT_EVT_ACK).acked := rfl

theorem Dev.acked_spec (d : Dev) : OnlyRegs (fun _ => False) d d.acked ∧
    ∀ i < 4, d.flag FLT_STAT_FSTATE = true → d.rd (CRAFT_LED_SRC i) = 1 → d.acked.front.ledAck.getD i false = true := by
  refine ⟨(OnlyRegs.refl _ d).setFront _, fun i hi hf hs => ?_⟩
  unfold Dev.acked
  simp [List.getD_eq_getElem?_getD, List.getElem?_map, List.getElem?_range hi, hf, hs]

/-- An ACK press: its event, and the LEDs that show the fault state (R375). -/
theorem Dev.ackPress_spec (d : Dev) (k : Nat) : (d.ackPress k).flag CRAFT_EVT_ACK = true ∧
    (∀ i < 4, d.flag FLT_STAT_FSTATE = true → d.rd (CRAFT_LED_SRC i) = 1 → (d.ackPress k).front.ledAck.getD i false = true) ∧
    (∀ f : Fld, f.Bit → f.addr ≠ rFLT_STAT → d.flag f = true → (d.ackPress k).flag f = true) := by
  have hkept : ∀ f : Fld, f.Bit → d.flag f = true → (d.evt CRAFT_EVT_ACK).flag f = true := fun f hf h =>
    Dev.flag_evt_mono hf ⟨rfl, by decide⟩ h
  have hack := Dev.flag_evt_self d CRAFT_EVT_ACK rfl (by decide)
  have hstate : (d.evt CRAFT_EVT_ACK).flag FLT_STAT_FSTATE = d.flag FLT_STAT_FSTATE := Dev.flag_evt_of_ne _ _ _ (by decide)
  have hsrc : ∀ i < 4, (d.evt CRAFT_EVT_ACK).rd (CRAFT_LED_SRC i) = d.rd (CRAFT_LED_SRC i) := fun i hi =>
    Dev.rd_evt_of_ne _ _ _ (show 0x0C0010 + 0x4 * i ≠ 0x0C0008 by omega)
  rw [Dev.ackPress_eq]
  generalize d.evt CRAFT_EVT_ACK = x at hkept hack hstate hsrc
  obtain ⟨hxy, hleds⟩ := x.acked_spec
  generalize x.acked = y at hxy hleds
  obtain ⟨hrel, hfront⟩ := OnlyRegs.fnRel y
  split
  · refine ⟨(hrel.flag CRAFT_EVT_ACK (by decide)).trans ((hxy.flag _ id).trans hack), fun i hi hf hs => ?_,
      fun f hf ha h => (hrel.flag f ha).trans ((hxy.flag f id).trans (hkept f hf h))⟩
    rw [hfront]
    exact hleds i hi (hstate.trans hf) ((hsrc i hi).trans hs)
  · exact ⟨(hxy.flag _ id).trans hack, fun i hi hf hs => hleds i hi (hstate.trans hf) ((hsrc i hi).trans hs),
      fun f hf _ h => (hxy.flag f id).trans (hkept f hf h)⟩

/-- The event of a press of button `k`. -/
def pressEvt (k : Nat) : Fld := if k = 0 then CRAFT_EVT_PRESS_0 else CRAFT_EVT_PRESS_1

theorem pressEvt_spec (k : Nat) : (pressEvt k).addr = rCRAFT_EVT ∧ (pressEvt k).hi = (pressEvt k).lo ∧ (pressEvt k).lo < 24 := by
  unfold pressEvt
  split <;> exact ⟨rfl, rfl, by decide⟩

/-- A press that a button shows, before its function acts. -/
theorem Dev.pressShown_spec (d : Dev) {k : Nat} (hk : k < 2) :
    ((d.wr (pbBit k) 1).evt (pressEvt k)).flag (pbBit k) = true ∧ ((d.wr (pbBit k) 1).evt (pressEvt k)).flag (pressEvt k) = true ∧
      OnlyRegs CraftPair d ((d.wr (pbBit k) 1).evt (pressEvt k)) := by
  obtain ⟨haddr, hbit, hlo⟩ := pressEvt_spec k
  have hflag := Dev.flag_wr_self d (pbBit k) 1 ⟨Nat.le_refl _, show 8 + k < 32 by omega⟩ rfl
  have honly := (OnlyRegs.refl CraftPair d).wr (pbBit k) 1 (Or.inl rfl)
  generalize d.wr (pbBit k) 1 = x at hflag honly
  refine ⟨(Dev.flag_evt_of_ne x _ _ ?_).trans hflag, Dev.flag_evt_self x _ hbit hlo, honly.evt _ (Or.inr haddr)⟩
  rw [haddr]
  exact show rCRAFT_STAT ≠ rCRAFT_EVT by decide

theorem Dev.pbPress_eq {d : Dev} {k : Nat} (hk : k < 2) (ha : d.applied = true ∨ d.clk.bootclk = false) (hp : d.flag (pbBit k) = false) :
    d.pbPress k = match d.pbFunc k with
      | 1 => ((d.wr (pbBit k) 1).evt (pressEvt k)).buttonCycle k
      | 3 => ((d.wr (pbBit k) 1).evt (pressEvt k)).ackPress k
      | _ => (d.wr (pbBit k) 1).evt (pressEvt k) := by
  have hfunc : ((d.wr (pbBit k) 1).evt (pressEvt k)).pbFunc k = d.pbFunc k := by
    obtain ⟨-, -, honly⟩ := d.pressShown_spec hk
    unfold Dev.pbFunc
    refine honly.rd _ ?_
    split <;> (unfold CraftPair; decide)
  unfold Dev.pbPress
  rw [if_neg (by rw [hp]; simp; omega), if_neg (by rcases ha with h | h <;> simp [h])]
  dsimp only
  rw [← hfunc]
  rfl

/-- A button's press by its function (R373 to R375; 05 R156). -/
theorem Dev.pbPress_spec {d : Dev} {k : Nat} (hk : k < 2) (ha : d.applied = true ∨ d.clk.bootclk = false) (hp : d.flag (pbBit k) = false) :
    (d.pbPress k).flag (pbBit k) = true ∧ (d.pbPress k).flag (pressEvt k) = true ∧
    (d.pbFunc k = 1 → ∀ n < 16, d.rd (PAD_SEL_PB_SRC n) = k + 1 → (d.pbPress k).flag (PAD_SEL_EVT_PB n) = true) ∧
    (d.pbFunc k = 2 → (d.pbPress k).lampTest = true ∧ (d.pbPress k).finish.flag CRAFT_EVT_LAMP = true) ∧
    (d.pbFunc k = 3 → (d.pbPress k).flag CRAFT_EVT_ACK = true ∧ ∀ i < 4, d.flag FLT_STAT_FSTATE = true →
      d.rd (CRAFT_LED_SRC i) = 1 → (d.pbPress k).front.ledAck.getD i false = true) ∧
    (d.pbFunc k ≠ 1 → d.pbFunc k ≠ 3 → OnlyRegs CraftPair d (d.pbPress k)) := by
  obtain ⟨hpb, hpress, honly⟩ := d.pressShown_spec hk
  obtain ⟨haddr, hbit, hlo⟩ := pressEvt_spec k
  have hpadsel : ∀ n, n < 16 → ((d.wr (pbBit k) 1).evt (pressEvt k)).rd (PAD_SEL_PB_SRC n) = d.rd (PAD_SEL_PB_SRC n) := fun n hn =>
    honly.rd _ (not_craftPair (show 0x030280 + 0x400 * n < 0x0C0000 by omega))
  have hsrc : ∀ i < 4, ((d.wr (pbBit k) 1).evt (pressEvt k)).rd (CRAFT_LED_SRC i) = d.rd (CRAFT_LED_SRC i) := fun i hi =>
    honly.rd _ (by
      rintro (h | h)
      · have : 0x0C0010 + 0x4 * i = 0x0C0004 := h
        omega
      · have : 0x0C0010 + 0x4 * i = 0x0C0008 := h
        omega)
  have hstate := honly.flag FLT_STAT_FSTATE (not_craftPair (by decide))
  have hfunc : ((d.wr (pbBit k) 1).evt (pressEvt k)).pbFunc k = d.pbFunc k := by
    unfold Dev.pbFunc
    refine honly.rd _ ?_
    split <;> (unfold CraftPair; decide)
  rw [Dev.pbPress_eq hk ha hp]
  generalize (d.wr (pbBit k) 1).evt (pressEvt k) = x at hpb hpress honly hpadsel hsrc hstate hfunc
  split
  · next h1 =>
    obtain ⟨hcycle, hevts⟩ := x.pressed_spec k (Nat.le_refl 16)
    rw [Dev.buttonCycle_eq]
    generalize forN 16 (Dev.pressed k) x = y at hcycle hevts
    have hsel := hcycle.askSelect none
    have hask := (OnlyRegs.refl (fun _ => False) y).askSelect none
    have hcraft : ∀ a, 0x0C0000 ≤ a → ¬ ∃ n < 16, a = rPAD_SEL_EVT n := fun a h => by
      rintro ⟨n, hn, rfl⟩
      unfold rPAD_SEL_EVT at h
      omega
    refine ⟨(hsel.flag _ (hcraft _ (show 0x0C0000 ≤ rCRAFT_STAT by decide))).trans hpb, (hsel.flag _ (hcraft _ (by rw [haddr]; decide))).trans hpress,
      fun _ n hn h => (hask.flag _ id).trans (hevts n hn ((hpadsel n hn).trans h)), fun h => ?_, fun h => ?_, fun h => absurd h1 h⟩
    · rw [h1] at h
      exact absurd h (by decide)
    · rw [h1] at h
      exact absurd h (by decide)
  · next h3 =>
    obtain ⟨hack, hleds, hkeep⟩ := x.ackPress_spec k
    refine ⟨hkeep (pbBit k) ⟨rfl, show 8 + k < 24 by omega⟩ (show rCRAFT_STAT ≠ rFLT_STAT by decide) hpb,
      hkeep (pressEvt k) ⟨hbit, hlo⟩ (by rw [haddr]; decide) hpress, fun h => ?_, fun h => ?_,
      fun _ => ⟨hack, fun i hi hf hs => hleds i hi (hstate.trans hf) ((hsrc i hi).trans hs)⟩, fun _ h => absurd h3 h⟩
    · rw [h3] at h
      exact absurd h (by decide)
    · rw [h3] at h
      exact absurd h (by decide)
  · next h1 h3 =>
    refine ⟨hpb, hpress, fun h => absurd h h1, fun h => ?_, fun h => absurd h h3, fun _ _ => honly⟩
    have hlamp : x.lampTest = true := by
      unfold Dev.lampTest
      rw [List.any_eq_true]
      exact ⟨k, by interval_cases k <;> simp, by rw [hpb, hfunc, h]; rfl⟩
    obtain ⟨y, hy, hfin⟩ := belowCraft_end.finish x
    refine ⟨hlamp, ?_⟩
    rw [hfin]
    exact Dev.settleLamp_on ((Dev.lampTest_congr (hy.word _ (by unfold BelowCraft; decide)) (hy.word _ (by unfold BelowCraft; decide))).trans hlamp)

theorem Dev.pbRelease_spec (d : Dev) {k : Nat} (hk : k < 2) : (d.pbRelease k).flag (pbBit k) = false ∧ (52, k) ∉ (d.pbRelease k).flt.live ∧
    OnlyRegs (fun a => a = rCRAFT_STAT) d (d.pbRelease k) := by
  have hrelease : d.pbRelease k = ((d.wr (pbBit k) 0).wr ⟨rCRAFT_STAT, 12 + k, 12 + k⟩ 0).lower 52 k := by
    unfold Dev.pbRelease
    exact if_neg (by omega)
  have hflag := Dev.flag_wr_self d (pbBit k) 0 ⟨Nat.le_refl _, show 8 + k < 32 by omega⟩ rfl
  have hstuck := Dev.rd_wr_apart (f := ⟨rCRAFT_STAT, 12 + k, 12 + k⟩) (g := pbBit k)
    (Fld.apart_bits ⟨⟨Nat.le_refl _, show 8 + k < 32 by omega⟩, Nat.le_refl _, by omega⟩) (d.wr (pbBit k) 0) 0
  have honly := ((OnlyRegs.refl (fun a => a = rCRAFT_STAT) d).wr (pbBit k) 0 rfl).wr ⟨rCRAFT_STAT, 12 + k, 12 + k⟩ 0 rfl
  rw [hrelease]
  generalize (d.wr (pbBit k) 0).wr ⟨rCRAFT_STAT, 12 + k, 12 + k⟩ 0 = x at hstuck honly
  have hlower : OnlyRegs (fun _ => False) x (x.lower 52 k) := (OnlyRegs.refl _ x).lower 52 k
  exact ⟨(hlower.flag _ id).trans ((Dev.flag_of_rd hstuck).trans hflag), by rw [Dev.mem_live_lower]; simp, honly.lower 52 k⟩

theorem Dev.pbStuck_spec {d : Dev} {k : Nat} (hk : k < 2) (hp : d.flag (pbBit k) = true) (hl : (52, k) ∉ d.flt.live) :
    (d.pbStuck k).flag CRAFT_EVT_PB_STUCK = true ∧ Fired 52 d (d.pbStuck k) ∧ (52, k) ∈ (d.pbStuck k).flt.live := by
  have hstuck : d.pbStuck k = ((d.wr ⟨rCRAFT_STAT, 12 + k, 12 + k⟩ 1).evt CRAFT_EVT_PB_STUCK).raise 52 k k := by
    unfold Dev.pbStuck
    exact if_neg (by simp [hp]; omega)
  have hlive := (LiveKept.wr d ⟨rCRAFT_STAT, 12 + k, 12 + k⟩ 1).trans (LiveKept.evt _ CRAFT_EVT_PB_STUCK)
  have hseq := ((OnlyRegs.refl CraftPair d).wr ⟨rCRAFT_STAT, 12 + k, 12 + k⟩ 1 (Or.inl rfl)).evt CRAFT_EVT_PB_STUCK (Or.inr rfl)
    |>.rd FLT_SEQNO_COUNT (not_craftPair (by decide))
  have hev := Dev.flag_evt_self (d.wr ⟨rCRAFT_STAT, 12 + k, 12 + k⟩ 1) CRAFT_EVT_PB_STUCK rfl (by decide)
  rw [hstuck]
  generalize (d.wr ⟨rCRAFT_STAT, 12 + k, 12 + k⟩ 1).evt CRAFT_EVT_PB_STUCK = x at hlive hseq hev
  obtain ⟨hfired, hin⟩ := x.raise_fired 52 k k (by decide) (by rw [hlive.live]; exact hl)
  have honly : OnlyRegs BelowCraft x (x.raise 52 k k) := (OnlyRegs.refl _ x).raise 52 k k firingAt_below
  exact ⟨(honly.flag _ (show ¬ BelowCraft rCRAFT_EVT by unfold BelowCraft; decide)).trans hev, hfired.of_rd hseq, hin⟩

/-! ### The external sensor (R379) -/

theorem divRound_bound {v : Int} {q : Int} (hq : q = 8 ∨ q = 16) (h1 : -32768 ≤ v) (h2 : v < 32768) :
    -(2 ^ 15) ≤ divRound v q ∧ divRound v q < 2 ^ 15 := by
  unfold divRound
  have h8 : Int.natAbs 8 = 8 := rfl
  have h16 : Int.natAbs 16 = 16 := rfl
  rcases hq with rfl | rfl
  · rw [if_neg (by decide), h8]
    constructor <;> (dsimp only; split <;> omega)
  · rw [if_neg (by decide), h16]
    constructor <;> (dsimp only; split <;> omega)

/-- Two data bytes as 16-bit two's complement. -/
theorem sext_bytes {hi lo : Nat} (h1 : hi < 256) (h2 : lo < 256) :
    sext 16 (256 * (hi % 256) + lo % 256) = if hi < 128 then (256 * hi + lo : Int) else 256 * hi + lo - 65536 := by
  unfold sext
  dsimp only
  split <;> split <;> omega

theorem Dev.lower_front (d : Dev) (n i : Nat) : (d.lower n i).front = d.front := by
  unfold Dev.lower Dev.when
  split
  · dsimp only
    split <;> rfl
  · rfl

theorem OnlyRegs.sensFront (d : Dev) (tx : List Nat) : OnlyRegs (fun _ => False) d ({ d with front := { d.front with sensTx := tx } } : Dev) :=
  (OnlyRegs.refl _ d).setFront _

/-- A read of the sensor that gives its two bytes. -/
theorem Dev.sensRead_data {d : Dev} (ha : d.applied = true) (he : d.flag CRAFT_SENS_CFG_EN = true) {hi lo : Nat} (h1 : hi < 256) (h2 : lo < 256)
    {v : Int} (hv : v = if hi < 128 then (256 * hi + lo : Int) else 256 * hi + lo - 65536) :
    (d.sensRead (.data hi lo)).rdS CRAFT_SENS_TEMP_TEMP = divRound v (if d.flag CRAFT_SENS_CFG_FORMAT then 8 else 16) ∧
    (d.sensRead (.data hi lo)).front.sensTx = d.sensBytes ∧ (d.sensRead (.data hi lo)).flag CRAFT_SENS_TEMP_VALID = true ∧
    (d.sensRead (.data hi lo)).rd CRAFT_SENS_TEMP_FAILS = 0 ∧ (50, 0) ∉ (d.sensRead (.data hi lo)).flt.live := by
  have hread : d.sensRead (.data hi lo) = (((({ d with front := { d.front with sensTx := d.sensBytes } } : Dev).wr CRAFT_SENS_TEMP_TEMP
      (twos 16 (d.sensTemp hi lo))).wr CRAFT_SENS_TEMP_VALID 1).wr CRAFT_SENS_TEMP_FAILS 0).lower 50 0 := by
    unfold Dev.sensRead
    rw [if_neg (by simp [ha, he])]
    rfl
  have htemp : d.sensTemp hi lo = divRound v (if d.flag CRAFT_SENS_CFG_FORMAT then 8 else 16) := by
    unfold Dev.sensTemp
    rw [sext_bytes h1 h2, hv]
  obtain ⟨hb1, hb2⟩ := divRound_bound (v := v) (q := if d.flag CRAFT_SENS_CFG_FORMAT then 8 else 16) (by split <;> simp)
    (by rw [hv]; split <;> omega) (by rw [hv]; split <;> omega)
  rw [← htemp] at hb1 hb2 ⊢
  rw [hread]
  have htx : ({ d with front := { d.front with sensTx := d.sensBytes } } : Dev).front.sensTx = d.sensBytes := rfl
  generalize ({ d with front := { d.front with sensTx := d.sensBytes } } : Dev) = x at htx
  have f1 : CRAFT_SENS_TEMP_TEMP.ok ∧ CRAFT_SENS_TEMP_VALID.ok ∧ CRAFT_SENS_TEMP_FAILS.ok := by decide
  have hself := Dev.rd_wr_self x CRAFT_SENS_TEMP_TEMP (twos 16 (d.sensTemp hi lo)) f1.1
  have hfront := Dev.wr_front x CRAFT_SENS_TEMP_TEMP (twos 16 (d.sensTemp hi lo))
  generalize x.wr CRAFT_SENS_TEMP_TEMP (twos 16 (d.sensTemp hi lo)) = y at hself hfront
  have hvalid := Dev.flag_wr_self y CRAFT_SENS_TEMP_VALID 1 f1.2.1 rfl
  have hself' := Dev.rd_wr_apart (f := CRAFT_SENS_TEMP_VALID) (g := CRAFT_SENS_TEMP_TEMP) (Fld.apart_bits (by decide)) y 1
  have hfront' := Dev.wr_front y CRAFT_SENS_TEMP_VALID 1
  generalize y.wr CRAFT_SENS_TEMP_VALID 1 = z at hvalid hself' hfront'
  have hfails := Dev.rd_wr_self z CRAFT_SENS_TEMP_FAILS 0 f1.2.2
  have hself'' := Dev.rd_wr_apart (f := CRAFT_SENS_TEMP_FAILS) (g := CRAFT_SENS_TEMP_TEMP) (Fld.apart_bits (by decide)) z 0
  have hvalid' := Dev.rd_wr_apart (f := CRAFT_SENS_TEMP_FAILS) (g := CRAFT_SENS_TEMP_VALID) (Fld.apart_bits (by decide)) z 0
  have hfront'' := Dev.wr_front z CRAFT_SENS_TEMP_FAILS 0
  generalize z.wr CRAFT_SENS_TEMP_FAILS 0 = u at hfails hself'' hvalid' hfront''
  have hlower : OnlyRegs (fun _ => False) u (u.lower 50 0) := (OnlyRegs.refl _ u).lower 50 0
  refine ⟨?_, ?_, (hlower.flag _ id).trans ((Dev.flag_of_rd hvalid').trans hvalid), (hlower.rd _ id).trans hfails, by rw [Dev.mem_live_lower]; simp⟩
  · unfold Dev.rdS
    rw [hlower.rd _ id, hself'', hself', hself]
    refine Eq.trans ?_ (sext_twos (n := 16) _ (by decide) hb1 hb2)
    unfold sext
    simp only [CRAFT_SENS_TEMP_TEMP, Nat.sub_zero, Nat.reduceAdd, Nat.mod_mod]
  · rw [Dev.lower_front u 50 0, hfront'', hfront', hfront, htx]

/-- A read of the sensor that fails: a count, and at the third in a row EXT_SENSOR. -/
theorem Dev.sensRead_failed {d : Dev} (ha : d.applied = true) (he : d.flag CRAFT_SENS_CFG_EN = true) (n : Nat) :
    (d.rd CRAFT_SENS_TEMP_FAILS < 2 → (d.sensRead (.failed n)).rd CRAFT_SENS_TEMP_FAILS = d.rd CRAFT_SENS_TEMP_FAILS + 1 ∧
      OnlyRegs (fun a => a = rCRAFT_SENS_TEMP) d (d.sensRead (.failed n))) ∧
    (d.rd CRAFT_SENS_TEMP_FAILS = 2 → (50, 0) ∉ d.flt.live → (d.sensRead (.failed n)).rd CRAFT_SENS_TEMP_FAILS = 3 ∧
      (d.sensRead (.failed n)).flag CRAFT_SENS_TEMP_VALID = false ∧ (d.sensRead (.failed n)).flag CRAFT_EVT_SENS_FAIL = true ∧
      Fired 50 d (d.sensRead (.failed n))) := by
  obtain ⟨x, hx, hlive, hread⟩ : ∃ x : Dev, OnlyRegs (fun _ => False) d x ∧ x.flt = d.flt ∧ d.sensRead (.failed n) =
      if d.rd CRAFT_SENS_TEMP_FAILS = 2 then ((((x.wr CRAFT_SENS_TEMP_FAILS (min 3 (d.rd CRAFT_SENS_TEMP_FAILS + 1))).wr CRAFT_SENS_TEMP_VALID 0).evt
        CRAFT_EVT_SENS_FAIL)).raise 50 0 0 else x.wr CRAFT_SENS_TEMP_FAILS (min 3 (d.rd CRAFT_SENS_TEMP_FAILS + 1)) := by
    refine ⟨{ d with front := { d.front with sensTx := d.sensBytes.take n } }, OnlyRegs.sensFront d _, rfl, ?_⟩
    unfold Dev.sensRead
    rw [if_neg (by simp [ha, he])]
    rfl
  rw [hread]
  have hself := Dev.rd_wr_self x CRAFT_SENS_TEMP_FAILS (min 3 (d.rd CRAFT_SENS_TEMP_FAILS + 1)) (by decide)
  have honly := (hx.mono (B := fun a => a = rCRAFT_SENS_TEMP) fun _ h => h.elim).wr CRAFT_SENS_TEMP_FAILS
    (min 3 (d.rd CRAFT_SENS_TEMP_FAILS + 1)) rfl
  have hflt := Dev.wr_flt x CRAFT_SENS_TEMP_FAILS (min 3 (d.rd CRAFT_SENS_TEMP_FAILS + 1))
  generalize x.wr CRAFT_SENS_TEMP_FAILS (min 3 (d.rd CRAFT_SENS_TEMP_FAILS + 1)) = y at hself honly hflt
  refine ⟨fun hn => ?_, fun hn hl => ?_⟩
  · rw [if_neg (by omega)]
    refine ⟨hself.trans ?_, honly⟩
    rw [show CRAFT_SENS_TEMP_FAILS.hi - CRAFT_SENS_TEMP_FAILS.lo + 1 = 2 from rfl]
    omega
  · rw [if_pos hn]
    rw [hn] at hself
    have hvalid := Dev.flag_wr_self y CRAFT_SENS_TEMP_VALID 0 (by decide) rfl
    have hfails := Dev.rd_wr_apart (f := CRAFT_SENS_TEMP_VALID) (g := CRAFT_SENS_TEMP_FAILS) (Fld.apart_bits (by decide)) y 0
    have hw := honly.wr CRAFT_SENS_TEMP_VALID 0 rfl
    have hlz := (LiveKept.wr y CRAFT_SENS_TEMP_VALID 0).live.trans (congrArg Flt.live (hflt.trans hlive))
    generalize y.wr CRAFT_SENS_TEMP_VALID 0 = z at hvalid hfails hw hlz
    have hev := Dev.flag_evt_self z CRAFT_EVT_SENS_FAIL rfl (by decide)
    have hz := (OnlyRegs.refl (fun a => a = rCRAFT_EVT) z).evt CRAFT_EVT_SENS_FAIL rfl
    have hlu := (LiveKept.evt z CRAFT_EVT_SENS_FAIL).live.trans hlz
    generalize z.evt CRAFT_EVT_SENS_FAIL = u at hev hz hlu
    obtain ⟨hfired, -⟩ := u.raise_fired 50 0 0 (by decide) (by rw [hlu]; exact hl)
    have hraise : OnlyRegs BelowCraft u (u.raise 50 0 0) := (OnlyRegs.refl _ u).raise 50 0 0 firingAt_below
    refine ⟨?_, ?_, (hraise.flag _ (show ¬ BelowCraft rCRAFT_EVT by unfold BelowCraft; decide)).trans hev, hfired.of_rd ?_⟩
    · exact (hraise.rd _ (show ¬ BelowCraft rCRAFT_SENS_TEMP by unfold BelowCraft; decide)).trans
        ((hz.rd CRAFT_SENS_TEMP_FAILS (by decide)).trans (hfails.trans hself))
    · exact (hraise.flag _ (show ¬ BelowCraft rCRAFT_SENS_TEMP by unfold BelowCraft; decide)).trans
        ((hz.flag CRAFT_SENS_TEMP_VALID (by decide)).trans hvalid)
    · exact (hz.rd FLT_SEQNO_COUNT (by decide)).trans (hw.rd FLT_SEQNO_COUNT (by decide))

/-- Settles O54: pin by pin, what its event leaves. -/
theorem craftPins : Obligations.CraftPins := by
  intro s dt k
  have hadv : ∀ A, OnlyRegs A s.dev (s.dev.advance dt) := fun A => Dev.only_advance s.dev dt
  refine ⟨fun hk => ⟨?_, ?_, fun hm hp => ?_, fun h => ?_, fun h hl => ?_, ?_⟩, fun hk => ⟨fun ha hp => ?_, ?_, fun hp hl => ?_⟩,
    fun ha he => ⟨fun hi lo v h1 h2 hv => ?_, fun n hn => ?_, fun n hn hl => ?_⟩⟩
  · refine Effects.of_run (f := within k 4 (Dev.plugMove k false (Dev.refPull k))) rfl ?_
    rw [within_of_lt hk]
    exact (s.dev.advance dt).plugPull_spec hk
  · refine Effects.of_run (f := within k 4 (Dev.plugMove k true id)) rfl ?_
    rw [within_of_lt hk]
    exact (s.dev.advance dt).plugInsert_spec hk
  · refine Effects.of_measuring rfl hk hm ?_
    obtain ⟨hflag, honly⟩ := Dev.refPlugSettle_spec (d := s.dev.advance dt) hp
    exact ⟨hflag, (hadv _).trans honly⟩
  · exact Effects.of_run rfl (Dev.ledOpen_off h)
  · refine Effects.of_run rfl ?_
    obtain ⟨hflag, hevt, hfired, hin⟩ := Dev.ledOpen_begins (d := s.dev.advance dt) hk h hl
    exact ⟨hflag, hevt, hfired.advance, hin⟩
  · refine Effects.of_run rfl ?_
    obtain ⟨hflag, hlive, honly⟩ := (s.dev.advance dt).ledOpen_ends hk
    exact ⟨hflag, hlive, (hadv _).trans honly⟩
  · refine Effects.of_run rfl ?_
    obtain ⟨hpb, hpress, h1, h2, h3, h⟩ := Dev.pbPress_spec (d := s.dev.advance dt) hk ha hp
    exact ⟨hpb, hpress, h1, h2, h3, fun n1 n3 => (hadv _).trans (h n1 n3)⟩
  · refine Effects.of_run rfl ?_
    obtain ⟨hflag, hlive, honly⟩ := (s.dev.advance dt).pbRelease_spec hk
    exact ⟨hflag, hlive, (hadv _).trans honly⟩
  · refine Effects.of_run rfl ?_
    obtain ⟨hevt, hfired, hin⟩ := Dev.pbStuck_spec (d := s.dev.advance dt) hk hp hl
    exact ⟨hevt, hfired.advance, hin⟩
  · exact Effects.of_run rfl (Dev.sensRead_data (d := s.dev.advance dt) ha he h1 h2 hv)
  · refine Effects.of_run rfl ?_
    obtain ⟨hfails, honly⟩ := (Dev.sensRead_failed (d := s.dev.advance dt) ha he n).1 hn
    exact ⟨hfails, (hadv _).trans honly⟩
  · refine Effects.of_run rfl ?_
    obtain ⟨hfails, hvalid, hevt, hfired⟩ := (Dev.sensRead_failed (d := s.dev.advance dt) ha he n).2 hn hl
    exact ⟨hfails, hvalid, hevt, hfired.advance⟩

end Sys2Proof.Machine
end

section
/-!
PROOF. Jobs whose results are fixed: what a damaged body and the settling of a ring leave (03 R61, R78, R79, R81; O46).
-/

namespace Sys2Proof.Machine

/-! ### Slots of the request queue -/

section
variable {d : Dev} {k n : Nat} {j : Job}

theorem Dev.job_setJob_self (o : Option Job) (h : k < d.jobs.slots.length) : (d.setJob k o).job k = o :=
  getD_updAt_self (fun _ => o) none h

theorem Dev.job_setJob_of_ne (o : Option Job) (h : k ≠ n) : (d.setJob n o).job k = d.job k :=
  getD_updAt_of_ne (fun _ => o) none h

theorem Dev.slots_setJob (o : Option Job) : (d.setJob k o).jobs.slots.length = d.jobs.slots.length := List.length_modify ..

theorem Dev.lt_of_job (h : d.job k = some j) : k < d.jobs.slots.length := by
  by_contra hk
  rw [show d.job k = none from List.getD_eq_default _ _ (Nat.le_of_not_lt hk)] at h
  cases h

end

/-! ### What the settling of results leaves -/

/-- A bit that stands through the settling of results: of MEAS_Q_ERR, or latched in the collector. -/
def QueueBit (f : Fld) : Prop := f.Bit ∧ (f.addr = rMEAS_Q_ERR ∨ (0x010048 ≤ f.addr ∧ f.addr < 0x010054))

theorem QueueBit.ack {src : Nat} (h : src < 64) : QueueBit (ackFld src) := ⟨ackFld_isBit h, Or.inr (ackFld_addr src)⟩

theorem QueueBit.ecc : QueueBit MEAS_Q_ERR_QUEUE_ECC := ⟨⟨rfl, by decide⟩, Or.inl rfl⟩

/-- An update that fixes results of flushes alone: every job stays but for that, and so do the latched bits. -/
structure JobsSettle (d e : Dev) : Prop where
  count : e.jobs.slots.length = d.jobs.slots.length
  next : e.jobs.nextOrder = d.jobs.nextOrder
  kept : ∀ k j, d.job k = some j → j.done.isSome = true ∨ j.kind ≠ .flush → e.job k = some j
  same : ∀ k j, d.job k = some j → ∃ dn, e.job k = some { j with done := dn }
  free : ∀ k, d.job k = none → e.job k = none
  flags : ∀ f, QueueBit f → d.flag f = true → e.flag f = true
  word : ∀ a, a ≠ rMEAS_Q_ERR → ¬ FiringReg a → e.word a = d.word a
  perMaster : e.perMaster = d.perMaster
  sram : e.sram = d.sram

namespace JobsSettle

theorem refl (d : Dev) : JobsSettle d d := ⟨rfl, rfl, fun _ _ h _ => h, fun _ j h => ⟨j.done, h⟩, fun _ h => h, fun _ _ h => h, fun _ _ _ => rfl, rfl, rfl⟩

theorem trans {d e f : Dev} (h : JobsSettle d e) (h' : JobsSettle e f) : JobsSettle d f where
  count := h'.count.trans h.count
  next := h'.next.trans h.next
  kept k j hj hk := h'.kept k j (h.kept k j hj hk) hk
  same k j hj := by
    obtain ⟨dn, hdn⟩ := h.same k j hj
    obtain ⟨dn', hdn'⟩ := h'.same k _ hdn
    exact ⟨dn', hdn'⟩
  free k h1 := h'.free k (h.free k h1)
  flags f hf hd := h'.flags f hf (h.flags f hf hd)
  word a ha hf := (h'.word a ha hf).trans (h.word a ha hf)
  perMaster := h'.perMaster.trans h.perMaster
  sram := h'.sram.trans h.sram

/-- A job that is there afterwards was there before, but for its result. -/
theorem origin {d e : Dev} (h : JobsSettle d e) {k : Nat} {x : Job} (hx : e.job k = some x) :
    ∃ y dn, d.job k = some y ∧ x = { y with done := dn } := by
  cases hy : d.job k with
  | none =>
    rw [h.free k hy] at hx
    cases hx
  | some y =>
    obtain ⟨dn, hdn⟩ := h.same k y hy
    exact ⟨y, dn, rfl, Option.some.inj (hx.symm.trans hdn)⟩

/-- An undecided flush is fixed. -/
theorem setFlush {d : Dev} {k : Nat} {j : Job} (hj : d.job k = some j) (hk : j.kind = .flush) (hd : j.done.isSome = false)
    (dn : Option Done) : JobsSettle d (d.setJob k (some { j with done := dn })) where
  count := Dev.slots_setJob _
  next := rfl
  kept i x hx hkeep := by
    by_cases h : i = k
    · subst h
      cases hj.symm.trans hx
      rcases hkeep with h | h
      · rw [hd] at h; cases h
      · exact absurd hk h
    · rw [Dev.job_setJob_of_ne _ h]; exact hx
  same i x hx := by
    by_cases h : i = k
    · subst h
      cases hj.symm.trans hx
      exact ⟨dn, Dev.job_setJob_self _ (Dev.lt_of_job hj)⟩
    · exact ⟨x.done, by rw [Dev.job_setJob_of_ne _ h]; exact hx⟩
  free i hi := by
    rw [Dev.job_setJob_of_ne _ (fun h => by rw [h, hj] at hi; cases hi)]
    exact hi
  flags _ _ h := h
  word _ _ _ := rfl
  perMaster := rfl
  sram := rfl

/-- QUEUE_ECC is set and its source fires. -/
theorem eccFire (d : Dev) (detail : Nat) : JobsSettle d ((d.evt MEAS_Q_ERR_QUEUE_ECC).fire 21 detail) := by
  have hevt := Still.evt (A := fun a => a = rMEAS_Q_ERR) d MEAS_Q_ERR_QUEUE_ECC rfl
  have hfire := Still.fireAs 21 detail none false false (d.evt MEAS_Q_ERR_QUEUE_ECC)
  have hjobs : ((d.evt MEAS_Q_ERR_QUEUE_ECC).fire 21 detail).jobs = d.jobs := hfire.jobs.trans hevt.jobs
  have hjob : ∀ k, ((d.evt MEAS_Q_ERR_QUEUE_ECC).fire 21 detail).job k = d.job k := fun k => by
    unfold Dev.job; rw [hjobs]
  refine ⟨by rw [hjobs], by rw [hjobs], fun k j h _ => (hjob k).trans h, fun k j h => ⟨j.done, (hjob k).trans h⟩,
    fun k h => (hjob k).trans h, fun f hf h => ?_,
    fun a ha hf => (hfire.word a hf).trans (hevt.word a ha), hfire.perMaster.trans hevt.perMaster, hfire.sram.trans hevt.sram⟩
  have haddr : (0x010048 ≤ f.addr ∧ f.addr < 0x010054) ∨ f.addr = rMEAS_Q_ERR := hf.2.symm
  have hfirereg : ¬ FireReg f.addr := by
    rcases haddr with h | h
    · exact not_fireReg (Or.inl (by omega)) (by omega) (by omega) (by omega)
    · rw [h]
      exact not_fireReg (by decide) (by decide) (by decide) (by decide)
  have hseq : f.addr ≠ rFLT_SEQNO := by
    rcases haddr with h | h
    · intro he
      rw [he] at h
      exact absurd h (by decide)
    · rw [h]
      decide
  exact Dev.flag_fireAs_mono hf.1 hfirereg hseq (by decide) _ _ _ _ (Dev.flag_evt_mono hf.1 QueueBit.ecc.1 h)

/-- A job that is not decided, and is a flush or damaged, ends. -/
theorem endFlush {d : Dev} {k : Nat} {j : Job} (hj : d.job k = some j) (hk : j.kind = .flush) : JobsSettle d (d.slotBad k) := by
  unfold Dev.slotBad
  rw [hj]
  dsimp only
  split
  · exact refl d
  · next h => exact (setFlush hj hk (by simpa using h) _).trans (eccFire _ k)

end JobsSettle

/-- The turn of a flush of ring `r` in slot `k` (R78). -/
def Dev.flushTurn (r : Nat) (d : Dev) (k : Nat) : Dev :=
  match d.job k with
  | some j =>
    let waits := (d.slotsWhere fun i => decide (i.ring = r) && i.done.isNone && decide (i.kind ≠ .flush)
      && decide (i.order < j.order)) ≠ []
    if waits then d
    else if j.bad then d.slotBad k
    else d.setJob k (some { j with done := some (Done.result (Config.payloadOpen j.tag).toNat) })
  | none => d

/-- The flushes of ring `r` that are not decided. -/
def Dev.openFlushes (d : Dev) (r : Nat) : List Nat := d.slotsWhere fun j => decide (j.ring = r) && decide (j.kind = .flush) && j.done.isNone

theorem Dev.settleFlush_eq (r : Nat) (d : Dev) : d.settleFlush r = (d.openFlushes r).foldl (Dev.flushTurn r) d := rfl

theorem Dev.mem_slotsWhere {d : Dev} {p : Job → Bool} {k : Nat} : k ∈ d.slotsWhere p ↔ k < 128 ∧ ∃ j, d.job k = some j ∧ p j = true := by
  unfold Dev.slotsWhere
  rw [List.mem_filter, List.mem_range, Option.any_eq_true]

theorem Dev.slotsWhere_nodup (d : Dev) (p : Job → Bool) : (d.slotsWhere p).Nodup := List.nodup_range.filter _

/-- A turn in a slot leaves the other slots. -/
theorem Dev.job_slotBad_of_ne {k i : Nat} (d : Dev) (h : i ≠ k) : (d.slotBad k).job i = d.job i := by
  unfold Dev.slotBad
  split
  · split
    · rfl
    · next j _ _ =>
      have hfire := (Still.fireAs 21 k none false false ((d.setJob k (some { j with done := some (Done.aborted 5) })).evt MEAS_Q_ERR_QUEUE_ECC)).jobs
      unfold Dev.job
      rw [show ((d.setJob k (some { j with done := some (Done.aborted 5) })).evt MEAS_Q_ERR_QUEUE_ECC |>.fire 21 k).jobs =
        (d.setJob k (some { j with done := some (Done.aborted 5) })).jobs from hfire.trans (Dev.evt_jobs _ _)]
      exact Dev.job_setJob_of_ne _ h
  · rfl

theorem Dev.job_flushTurn_of_ne {k i : Nat} (r : Nat) (d : Dev) (h : i ≠ k) : (d.flushTurn r k).job i = d.job i := by
  unfold Dev.flushTurn
  split
  · dsimp only
    split
    · rfl
    · split
      · exact d.job_slotBad_of_ne h
      · exact Dev.job_setJob_of_ne _ h
  · rfl

namespace JobsSettle

theorem flushTurn {d : Dev} {k r : Nat} {j : Job} (hj : d.job k = some j) (hk : j.kind = .flush) (hd : j.done.isSome = false) :
    JobsSettle d (d.flushTurn r k) := by
  unfold Dev.flushTurn
  rw [hj]
  dsimp only
  split
  · exact refl d
  · split
    · exact endFlush hj hk
    · exact setFlush hj hk hd _

theorem flushTurns {r : Nat} {l : List Nat} (hn : l.Nodup) {d : Dev}
    (hl : ∀ k ∈ l, ∃ j, d.job k = some j ∧ j.kind = .flush ∧ j.done.isSome = false) : JobsSettle d (l.foldl (Dev.flushTurn r) d) := by
  induction l generalizing d with
  | nil => exact refl d
  | cons k t ih =>
    obtain ⟨hk, ht⟩ := List.nodup_cons.mp hn
    obtain ⟨j, hj, hf, hd⟩ := hl k (List.mem_cons_self ..)
    refine (flushTurn hj hf hd).trans (ih ht fun i hi => ?_)
    rw [Dev.job_flushTurn_of_ne r d (ne_of_mem_of_not_mem hi hk)]
    exact hl i (List.mem_cons_of_mem _ hi)

theorem settleFlush (r : Nat) (d : Dev) : JobsSettle d (d.settleFlush r) := by
  rw [Dev.settleFlush_eq]
  refine flushTurns (d.slotsWhere_nodup _) fun k hk => ?_
  obtain ⟨-, j, hj, hp⟩ := Dev.mem_slotsWhere.mp hk
  simp only [Bool.and_eq_true, decide_eq_true_eq] at hp
  exact ⟨j, hj, hp.1.2, by simpa using hp.2⟩

/-- An update of the rings alone. -/
theorem setRing (d : Dev) (r : Nat) (f : Ring → Ring) : JobsSettle d (d.setRing r f) :=
  ⟨rfl, rfl, fun _ _ h _ => h, fun _ j h => ⟨j.done, h⟩, fun _ h => h, fun _ _ h => h, fun _ _ _ => rfl, rfl, rfl⟩

theorem promote (r : Nat) (d : Dev) : JobsSettle d (d.promote r) := by
  unfold Dev.promote
  split
  · exact refl d
  · split
    · split
      · exact setRing ..
      · exact refl d
    · exact refl d

theorem settleRing (r : Nat) (d : Dev) : JobsSettle d (d.settleRing r) := (settleFlush r d).trans (promote r _)

end JobsSettle

/-! ### Results fixed where no open job is damaged -/

/-- No job that is still to be read is damaged (R81). -/
def Dev.OpenGood (d : Dev) : Prop := ∀ k j, d.job k = some j → j.done = none → j.bad = false

/-- An update of jobs alone that damages no open job. -/
structure OpenJobs (d e : Dev) : Prop where
  only : JobsOnly d e
  good : e.OpenGood

namespace OpenJobs

theorem refl {d : Dev} (g : d.OpenGood) : OpenJobs d d := ⟨JobsOnly.refl d, g⟩

theorem trans {d e f : Dev} (h : OpenJobs d e) (h' : OpenJobs e f) : OpenJobs d f := ⟨h.only.trans h'.only, h'.good⟩

theorem setJob {d : Dev} (g : d.OpenGood) {k : Nat} {j : Job} (h : j.done = none → j.bad = false) : OpenJobs d (d.setJob k (some j)) := by
  refine ⟨JobsOnly.setJob .., fun i x hx hdone => ?_⟩
  by_cases hi : i = k
  · subst hi
    have hlen : i < d.jobs.slots.length := by simpa only [Dev.slots_setJob] using Dev.lt_of_job hx
    rw [Dev.job_setJob_self _ hlen] at hx
    cases hx
    exact h hdone
  · rw [Dev.job_setJob_of_ne _ hi] at hx
    exact g i x hx hdone

theorem flushTurn {d : Dev} (g : d.OpenGood) (r k : Nat) (hd : ∀ j, d.job k = some j → j.done = none) :
    OpenJobs d (d.flushTurn r k) := by
  unfold Dev.flushTurn
  split
  · next j hj =>
    have hgood := g k j hj (hd j hj)
    dsimp only
    split
    · exact refl g
    · rw [if_neg (by simp [hgood])]
      exact setJob g fun h => by cases h
  · exact refl g

theorem flushTurns {r : Nat} {l : List Nat} (hn : l.Nodup) {d : Dev} (g : d.OpenGood)
    (hl : ∀ k ∈ l, ∀ j, d.job k = some j → j.done = none) : OpenJobs d (l.foldl (Dev.flushTurn r) d) := by
  induction l generalizing d with
  | nil => exact refl g
  | cons k t ih =>
    obtain ⟨hk, ht⟩ := List.nodup_cons.mp hn
    have first := flushTurn g r k (hl k (List.mem_cons_self ..))
    refine first.trans (ih ht first.good fun i hi => ?_)
    rw [Dev.job_flushTurn_of_ne r d (ne_of_mem_of_not_mem hi hk)]
    exact hl i (List.mem_cons_of_mem _ hi)

theorem settleRing {d : Dev} (g : d.OpenGood) (r : Nat) : OpenJobs d (d.settleRing r) := by
  have hflush : OpenJobs d (d.settleFlush r) := by
    rw [Dev.settleFlush_eq]
    refine flushTurns (d.slotsWhere_nodup _) g fun k hk j hj => ?_
    obtain ⟨-, x, hx, hp⟩ := Dev.mem_slotsWhere.mp hk
    cases hj.symm.trans hx
    simp only [Bool.and_eq_true, decide_eq_true_eq] at hp
    simpa using hp.2
  refine hflush.trans ⟨JobsOnly.promote r _, ?_⟩
  have hslots : ∀ x : Dev, ∀ k, (x.promote r).job k = x.job k := fun x k => by
    unfold Dev.promote
    split
    · rfl
    · split
      · split <;> rfl
      · rfl
  intro k j hj
  rw [Dev.settleRing, hslots] at hj
  exact hflush.good k j hj

end OpenJobs

end Sys2Proof.Machine
end

section
/-!
PROOF. Timers that fix results, and bodies read with a double-bit error (03 R61, R78, R81; O46).
-/

namespace Sys2Proof.Machine

/-! ### A job that ends with QUEUE_ECC -/

/-- The job of slot `k` ends with cause QUEUE_ECC (R81). -/
def Dev.eccEnd (k : Nat) (j : Job) (d : Dev) : Dev :=
  ((d.setJob k (some { j with done := some (Done.aborted 5) })).evt MEAS_Q_ERR_QUEUE_ECC).fire 21 k

section
variable {d : Dev} {k : Nat} {j : Job}

theorem Dev.slotBad_eq (hj : d.job k = some j) (hd : j.done = none) : d.slotBad k = d.eccEnd k j := by
  unfold Dev.slotBad
  rw [hj]
  exact if_neg (by rw [hd]; decide)

theorem JobsSettle.eccEnd (k : Nat) (j : Job) (d : Dev) :
    JobsSettle (d.setJob k (some { j with done := some (Done.aborted 5) })) (d.eccEnd k j) := .eccFire _ k

theorem Dev.job_eccEnd_of_ne {i : Nat} (h : i ≠ k) : (d.eccEnd k j).job i = d.job i := by
  have hfire := (Still.fireAs 21 k none false false ((d.setJob k (some { j with done := some (Done.aborted 5) })).evt MEAS_Q_ERR_QUEUE_ECC)).jobs
  have hjobs : (d.eccEnd k j).jobs = (d.setJob k (some { j with done := some (Done.aborted 5) })).jobs := hfire.trans (Dev.evt_jobs _ _)
  unfold Dev.job
  rw [hjobs]
  exact Dev.job_setJob_of_ne _ h

theorem Dev.job_eccEnd_self (h : k < d.jobs.slots.length) : (d.eccEnd k j).job k = some { j with done := some (Done.aborted 5) } :=
  (JobsSettle.eccEnd k j d).kept _ _ (Dev.job_setJob_self _ h) (Or.inl rfl)

theorem Dev.eccEnd_fires (k : Nat) (j : Job) (d : Dev) :
    (d.eccEnd k j).flag MEAS_Q_ERR_QUEUE_ECC = true ∧ Fired 21 d (d.eccEnd k j) := by
  have hjobs := JobsOnly.setJob d k (some { j with done := some (Done.aborted 5) })
  unfold Dev.eccEnd
  generalize d.setJob k (some { j with done := some (Done.aborted 5) }) = x at hjobs
  refine ⟨?_, (Dev.fireAs_fired 21 k none false false _ (by decide)).of_rd ?_⟩
  · exact (OnlyRegs.refl firingAt _ |>.fire 21 k fun _ h => h).flag _ (by unfold firingAt; decide) |>.trans
      (Dev.flag_evt_self x _ rfl (by decide))
  · exact (Dev.rd_evt_of_ne x MEAS_Q_ERR_QUEUE_ECC FLT_SEQNO_COUNT (by decide)).trans (hjobs.rd _)

/-- A job that has ended is read no more. -/
theorem Dev.OpenGood.eccEnd (hk : k < d.jobs.slots.length) (h : ∀ i x, i ≠ k → d.job i = some x → x.done = none → x.bad = false) :
    (d.eccEnd k j).OpenGood := by
  intro i x hx hd
  by_cases hi : i = k
  · subst hi
    rw [Dev.job_eccEnd_self hk] at hx
    cases hx
    cases hd
  · rw [Dev.job_eccEnd_of_ne hi] at hx
    exact h i x hi hx hd

/-- What is left where the job of a slot has ended with QUEUE_ECC and its ring has gone on. -/
theorem Dev.eccEnd_settles (hk : k < d.jobs.slots.length) (r : Nat) :
    ((d.eccEnd k j).settleRing r).job k = some { j with done := some (Done.aborted 5) } ∧
      ((d.eccEnd k j).settleRing r).flag MEAS_Q_ERR_QUEUE_ECC = true ∧ ((d.eccEnd k j).settleRing r).latched 21 = true ∧
      ((∀ i x, i ≠ k → d.job i = some x → x.done = none → x.bad = false) → Fired 21 d ((d.eccEnd k j).settleRing r)) := by
  have hsettle := JobsSettle.settleRing r (d.eccEnd k j)
  obtain ⟨hflag, hfired⟩ := Dev.eccEnd_fires k j d
  refine ⟨hsettle.kept k _ (Dev.job_eccEnd_self hk) (Or.inl rfl), hsettle.flags _ .ecc hflag,
    hsettle.flags _ (.ack (by decide)) hfired.latched, fun hgood => ?_⟩
  have hopen := (OpenJobs.settleRing (Dev.OpenGood.eccEnd (j := j) hk hgood) r).only
  exact ⟨(hopen.flag _).trans hfired.latched, (hopen.rd _).trans hfired.counted⟩

end

/-! ### Bodies found damaged -/

/-- The turn of a slot whose body is damaged (R81). -/
def Job.marked (j : Job) : Job := if j.done.isSome then j else { j with bad := true }

theorem Dev.markBad_cons (k : Nat) (ks : List Nat) (d : Dev) :
    d.markBad (k :: ks) = ((d.job k).elim d fun j => if j.done.isSome then d else d.setJob k (some { j with bad := true })).markBad ks := by
  unfold Dev.markBad
  rw [List.foldl_cons]
  cases d.job k <;> rfl

theorem Dev.markBad_spec (ks : List Nat) (d : Dev) : JobsOnly d (d.markBad ks) ∧ (d.markBad ks).jobs.slots.length = d.jobs.slots.length ∧
    ∀ i, (d.markBad ks).job i = (d.job i).map fun j => if i ∈ ks then j.marked else j := by
  induction ks generalizing d with
  | nil => exact ⟨JobsOnly.refl d, rfl, fun i => by simp [Dev.markBad]⟩
  | cons k t ih =>
    obtain ⟨x, hx, hlen, hself, hother⟩ : ∃ x, JobsOnly d x ∧ x.jobs.slots.length = d.jobs.slots.length ∧
        x.job k = (d.job k).map Job.marked ∧ (∀ i, i ≠ k → x.job i = d.job i) ∧ d.markBad (k :: t) = x.markBad t := by
      rw [Dev.markBad_cons]
      cases hj : d.job k with
      | none => exact ⟨d, JobsOnly.refl d, rfl, hj, fun _ _ => rfl, rfl⟩
      | some j =>
        by_cases hd : j.done.isSome
        · exact ⟨d, JobsOnly.refl d, rfl, by simp [hj, Job.marked, hd], fun _ _ => rfl, by simp [hd]⟩
        · exact ⟨_, JobsOnly.setJob d k (some { j with bad := true }), Dev.slots_setJob _,
            (Dev.job_setJob_self _ (Dev.lt_of_job hj)).trans (by simp [Job.marked, hd]),
            fun i hi => Dev.job_setJob_of_ne _ hi, by simp [hd]⟩
    obtain ⟨hother, heq⟩ := hother
    obtain ⟨honly, hcount, hjob⟩ := ih x
    rw [heq]
    refine ⟨hx.trans honly, hcount.trans hlen, fun i => ?_⟩
    rw [hjob]
    by_cases hi : i = k
    · subst hi
      rw [hself]
      have htwice : ∀ j : Job, j.marked.marked = j.marked := fun j => by unfold Job.marked; split <;> simp_all
      cases d.job i with
      | none => rfl
      | some j => by_cases hm : i ∈ t <;> simp [hm, htwice]
    · rw [hother i hi]
      simp [hi]

/-! ### The reading of a body, and the timers -/

section
variable {d : Dev} {k : Nat} {j : Job}

theorem Dev.readBody_good (hj : d.job k = some j) (hb : j.bad = false) : d.readBody k = d := by
  unfold Dev.readBody
  rw [hj]
  exact if_neg (by simp [hb])

theorem Dev.readBody_bad (hj : d.job k = some j) (hb : j.bad = true) (hd : j.done = none) :
    d.readBody k = (d.eccEnd k j).settleRing j.ring := by
  unfold Dev.readBody
  rw [hj, ← Dev.slotBad_eq hj hd]
  exact if_pos (by simp [hb, hd])

/-- A result is fixed and its ring goes on. -/
theorem Dev.job_fixed (hj : d.job k = some j) {i : Job} (hi : i.done.isSome = true) (r : Nat) :
    ((d.setJob k (some i)).settleRing r).job k = some i :=
  (JobsSettle.settleRing r _).kept k _ (Dev.job_setJob_self _ (Dev.lt_of_job hj)) (Or.inl hi)

theorem Dev.intervalTimeout_spec {t : Nat} (hj : d.job k = some j) (hb : j.bad = false) (hk : j.kind = .interval) (hs : j.start = some t)
    (hd : j.done = none) : (d.intervalTimeout k).job k = some { j with done := some (j.cand.elim Done.timeout fun c => Done.interval ((c : Int) - t)) } := by
  unfold Dev.intervalTimeout
  rw [Dev.readBody_good hj hb]
  dsimp only
  rw [hj]
  dsimp only
  rw [hk, hs, hd]
  dsimp only
  rw [Dev.job_fixed hj (by rfl)]
  cases j.cand <;> rfl

theorem Dev.intervalEarlyMatch_spec {t c : Nat} (hj : d.job k = some j) (hb : j.bad = false) (hk : j.kind = .interval) (hs : j.start = some t)
    (hc : j.cand = some c) (hd : j.done = none) :
    (d.intervalEarlyMatch k).job k = some { j with done := some (Done.interval ((c : Int) - t)) } := by
  unfold Dev.intervalEarlyMatch
  rw [Dev.readBody_good hj hb]
  dsimp only
  rw [hj]
  dsimp only
  rw [hk, hs, hc, hd]
  exact Dev.job_fixed hj rfl _

theorem Dev.freqTimeout_spec (hj : d.job k = some j) (hb : j.bad = false) (hk : j.kind = .freq) (hd : j.done = none) :
    (d.freqTimeout k).job k = some { j with done := some Done.timeout } := by
  unfold Dev.freqTimeout
  rw [Dev.readBody_good hj hb]
  dsimp only
  rw [hj]
  dsimp only
  rw [hk, hd]
  exact Dev.job_fixed hj rfl _

/-- Whichever timer reads a damaged body, the reading ends the job and the timer does nothing more. -/
theorem Dev.timers_of_bad (hj : d.job k = some j) (hb : j.bad = true) (hd : j.done = none) :
    d.intervalTimeout k = (d.eccEnd k j).settleRing j.ring ∧ d.intervalEarlyMatch k = (d.eccEnd k j).settleRing j.ring ∧
      d.freqTimeout k = (d.eccEnd k j).settleRing j.ring := by
  obtain ⟨hend, -⟩ := Dev.eccEnd_settles (j := j) (Dev.lt_of_job hj) j.ring
  unfold Dev.intervalTimeout Dev.intervalEarlyMatch Dev.freqTimeout
  rw [Dev.readBody_bad hj hb hd]
  dsimp only
  rw [hend]
  refine ⟨?_, ?_, ?_⟩ <;> dsimp only <;> split <;> simp_all

end

/-- Settles O46: by the body that the timer reads, undamaged or damaged. -/
theorem timersFixResults : Obligations.TimersFixResults := by
  intro s dt k j hm hk _ hj hd ecc
  obtain ⟨honly, -, hjobs⟩ := (s.dev.advance dt).markBad_spec ecc
  have hmark : ((s.dev.advance dt).markBad ecc).job k = some (if k ∈ ecc then j.marked else j) := by rw [hjobs, show (s.dev.advance dt).job k = _ from hj]; rfl
  have interval : ∀ (c : Instr) (early : Bool) (f : Dev → Dev) (P : Dev → Prop),
      exec c s = run dt (Dev.whenNow Dev.measuring (Dev.onInterval k early f)) s → P (f (s.dev.advance dt)) → Effects c s P := fun c early f P hrun hp => by
    refine Effects.of_run hrun ?_
    rw [Dev.whenNow_pos (show Dev.measuring (s.dev.advance dt) = true from hm)]
    unfold Dev.onInterval
    rw [if_neg (by omega), within_of_lt hk]
    exact hp
  have freq : ∀ P : Dev → Prop, P (((s.dev.advance dt).markBad ecc).freqTimeout k) → Effects (.freqGateTimeout dt k ecc) s P := fun P hp =>
    Effects.of_measuring rfl hk hm hp
  refine ⟨fun hn hb => ⟨fun t hkind hstart => ⟨fun c hc => ⟨?_, ?_⟩, fun hc => ?_⟩, fun hkind => ?_⟩, fun hbad c hc => ?_⟩
  · rw [if_neg hn] at hmark
    refine interval _ false _ _ rfl ((Dev.intervalTimeout_spec hmark hb hkind hstart hd).trans ?_)
    rw [hc, Option.elim_some]
  · rw [if_neg hn] at hmark
    exact interval _ true _ _ rfl (Dev.intervalEarlyMatch_spec hmark hb hkind hstart hc hd)
  · rw [if_neg hn] at hmark
    refine interval _ false _ _ rfl ((Dev.intervalTimeout_spec hmark hb hkind hstart hd).trans ?_)
    rw [hc, Option.elim_none]
  · rw [if_neg hn] at hmark
    exact freq _ (Dev.freqTimeout_spec hmark hb hkind hd)
  · have hbody : (if k ∈ ecc then j.marked else j) = { j with bad := true } := by
      split
      · exact if_neg (by rw [hd]; decide)
      · next hin => rw [← hbad.resolve_left hin]
    rw [hbody] at hmark
    obtain ⟨h1, h2, h3⟩ := Dev.timers_of_bad hmark rfl hd
    obtain ⟨hend, hflag, hlatched, hfired⟩ := Dev.eccEnd_settles (j := { j with bad := true }) (Dev.lt_of_job hmark) j.ring
    have outcome : (fun e : Dev => e.job k = some { j with bad := true, done := some (Done.aborted 5) } ∧
        e.flag MEAS_Q_ERR_QUEUE_ECC = true ∧ e.latched 21 = true ∧ (s.dev.bodiesGood = true → ecc = [k] → Fired 21 s.dev e))
        ((((s.dev.advance dt).markBad ecc).eccEnd k { j with bad := true }).settleRing j.ring) := by
      refine ⟨hend, hflag, hlatched, fun hgood he => ?_⟩
      have hfire := hfired fun i x hi hx _ => by
        rw [hjobs, he, show (s.dev.advance dt).job i = s.dev.job i from rfl] at hx
        obtain ⟨y, hy, rfl⟩ := Option.map_eq_some_iff.mp hx
        rw [if_neg (by simpa using hi)]
        exact Dev.bodiesGood.job hgood hy
      exact hfire.of_rd (honly.rd _)
    simp only [List.mem_cons, List.not_mem_nil, or_false] at hc
    rcases hc with rfl | rfl | rfl
    · exact interval _ false _ _ rfl (by rw [h1]; exact outcome)
    · exact interval _ true _ _ rfl (by rw [h2]; exact outcome)
    · exact freq _ (by rw [h3]; exact outcome)

end Sys2Proof.Machine
end

section
/-!
PROOF. A push is judged (03 R73, R75, R77, R81; O44).
-/

namespace Sys2Proof.Machine

/-! ### The reason of a rejection, as a formula (R75) -/

/-- The PARAM condition of R75, by the code of the kind. -/
theorem badParams_iff {code : Nat} {k : JobKind} (h : JobKind.ofCode code = some k) (ratio : Bool) (a b oa ob : Nat) :
    badParams k ratio a b oa ob = true ↔
      (code = 0 ∧ (sext 64 ob ≤ sext 64 oa ∨ 2 ^ 47 ≤ (sext 64 oa).natAbs ∨ 2 ^ 47 ≤ (sext 64 ob).natAbs)) ∨
      (code = 1 ∧ (oa < 1000 ∨ 10 ^ 12 < oa ∨ ob ≠ 0 ∨ (ratio = false ∧ b ≠ 0))) ∨
      (code = 2 ∧ (2 ^ 32 ≤ oa ∨ ob ≠ 0 ∨ b ≠ 0)) ∨
      (code = 3 ∧ (oa < 2 ∨ 2 ^ 24 < oa ∨ b ≠ 0)) ∨
      (4 ≤ code ∧ (oa ≠ 0 ∨ ob ≠ 0 ∨ a ≠ 0 ∨ b ≠ 0)) := by
  unfold JobKind.ofCode at h
  split at h <;> cases h <;> simp [badParams, or_assoc]

/-- The channels that a kind names (R75). -/
def JobKind.chans (k : JobKind) (ratio : Bool) (a b : Nat) : List Nat :=
  match k with
  | .interval => [a, b]
  | .freq => if ratio then [a, b] else [a]
  | .stream | .period => [a]
  | .marker | .flush => []

/-- The CHANNEL condition of R75, by the code of the kind. -/
theorem JobKind.chans_any {code : Nat} {k : JobKind} (h : JobKind.ofCode code = some k) (ratio : Bool) (a b : Nat) (f : Nat → Bool) :
    ((k.chans ratio a b).any fun c => !f c) = true ↔
      (code < 4 ∧ f a = false) ∨ ((code = 0 ∨ (code = 1 ∧ ratio = true)) ∧ f b = false) := by
  unfold JobKind.ofCode at h
  split at h <;> cases h
  case h_2 => cases ratio <;> simp [JobKind.chans]
  all_goals simp [JobKind.chans]

theorem JobKind.ofCode_isSome {code : Nat} (h : code ≤ 5) : ∃ k, JobKind.ofCode code = some k := by
  interval_cases code <;> exact ⟨_, rfl⟩

theorem JobKind.ofCode_none {code : Nat} (h : 5 < code) : JobKind.ofCode code = none := by
  unfold JobKind.ofCode
  split <;> first | omega | rfl

/-- Every slot of the queue holds a job. -/
theorem Dev.slotsWhere_full (d : Dev) : (d.slotsWhere fun _ => true).length = 128 ↔ (List.range 128).all (fun k => (d.job k).isSome) = true := by
  have hp : (fun k => (d.job k).any fun _ => true) = fun k => (d.job k).isSome := by
    funext k
    cases d.job k <;> rfl
  unfold Dev.slotsWhere
  rw [hp, List.all_eq_true]
  refine Iff.trans (Iff.trans (by rw [List.length_range]) (List.length_filter_eq_length_iff (p := fun k => (d.job k).isSome) (l := List.range 128))) ?_
  rfl

/-- The checks of a push in their order (R75). -/
theorem Dev.pushReason_eq (d : Dev) (m : Nat) {code a b oa ob : Nat} (hcode : code = d.rdPm m MEAS_REQ_W0_KIND)
    (ha : a = d.rdPm m MEAS_REQ_W0_CH_A) (hb : b = d.rdPm m MEAS_REQ_W0_CH_B)
    (hoa : oa = d.rdPm m MEAS_REQ_W2_PARAM_A + 2 ^ 32 * d.rdPm m MEAS_REQ_W3_PARAM_A)
    (hob : ob = d.rdPm m MEAS_REQ_W4_PARAM_B + 2 ^ 32 * d.rdPm m MEAS_REQ_W5_PARAM_B) {ratio openA openB : Bool}
    (hopenA : openA = (d.flag (MCH_CFG_ENABLE a) || d.claimed a)) (hopenB : openB = (d.flag (MCH_CFG_ENABLE b) || d.claimed b))
    (hratio : ratio = decide (d.rdPm m MEAS_REQ_W0_RATIO ≠ 0)) :
    d.pushReason m =
        if d.mode ≠ .run ∧ d.mode ≠ .fold then 1
        else if d.flag MEAS_CTL_JOB_EN = false ∧ code < 4 then 2
        else if (List.range 128).all (fun k => (d.job k).isSome) then 3
        else if 5 < code then 4
        else if d.rdPm m MEAS_REQ_W1_TAG = 0xFFFFFFFF then 5
        else if d.flag (TQ_CFG_ENABLE (d.rdPm m MEAS_REQ_W0_RING)) = false ∨
            d.flag (TQ_STAT_DISABLING (d.rdPm m MEAS_REQ_W0_RING)) = true then 6
        else if (code < 4 ∧ openA = false) ∨ ((code = 0 ∨ (code = 1 ∧ ratio = true)) ∧ openB = false) then 7
        else if (code = 0 ∧ (sext 64 ob ≤ sext 64 oa ∨ 2 ^ 47 ≤ (sext 64 oa).natAbs ∨ 2 ^ 47 ≤ (sext 64 ob).natAbs)) ∨
            (code = 1 ∧ (oa < 1000 ∨ 10 ^ 12 < oa ∨ ob ≠ 0 ∨ (ratio = false ∧ b ≠ 0))) ∨
            (code = 2 ∧ (2 ^ 32 ≤ oa ∨ ob ≠ 0 ∨ b ≠ 0)) ∨
            (code = 3 ∧ (oa < 2 ∨ 2 ^ 24 < oa ∨ b ≠ 0)) ∨
            (4 ≤ code ∧ (oa ≠ 0 ∨ ob ≠ 0 ∨ a ≠ 0 ∨ b ≠ 0)) then 8
        else 0 := by
  unfold Dev.pushReason
  dsimp only
  rw [← hcode, ← ha, ← hb, ← hoa, ← hob, ← hratio]
  refine if_congr Iff.rfl rfl (if_congr (by rw [Bool.not_eq_true, Nat.lt_succ_iff]) rfl (if_congr d.slotsWhere_full rfl ?_))
  by_cases h5 : 5 < code
  · rw [JobKind.ofCode_none h5, if_pos h5]
  · obtain ⟨k, hk⟩ := JobKind.ofCode_isSome (Nat.le_of_not_lt h5)
    rw [hk, if_neg h5]
    refine if_congr Iff.rfl rfl (if_congr (by rw [Bool.not_eq_true]) rfl (if_congr ?_ rfl (if_congr (badParams_iff hk ..) rfl rfl)))
    rw [hopenA, hopenB]
    exact JobKind.chans_any hk ratio a b d.chanOpen

/-! ### Acceptance and rejection -/

section
variable {d : Dev} {m slot : Nat} {k : JobKind}

/-- A device whose queue holds the job of an accepted push; its ring has not gone on yet. -/
def Dev.accepted (m slot : Nat) (k : JobKind) (d : Dev) : Dev :=
  let x := d.setJob slot (some (d.newJob m k))
  (({ x with jobs := { x.jobs with nextOrder := x.jobs.nextOrder + 1 } } : Dev).bump MEAS_ACCEPTED_COUNT).setPmWord m rMEAS_REQ_RESULT
    (Word.of (0xC0000000 + slot * 2 ^ 16))

/-- A device that has rejected a push. -/
def Dev.rejected (m : Nat) (d : Dev) : Dev :=
  ((d.bump MEAS_REJECTED_COUNT).evt MEAS_Q_ERR_REJECT).setPmWord m rMEAS_REQ_RESULT (Word.of (0x80000000 + d.pushReason m * 2 ^ 24))

theorem Dev.pushNow_rejects (h : d.pushReason m ≠ 0) : d.pushNow m = d.rejected m := by
  unfold Dev.pushNow
  dsimp only
  split
  · exact if_neg h
  · rfl

theorem Dev.pushNow_accepts (h : d.pushReason m = 0) (hk : JobKind.ofCode (d.rdPm m MEAS_REQ_W0_KIND) = some k) (hs : slot < 128)
    (hfree : d.job slot = none) (hlow : ∀ i < slot, d.job i ≠ none) :
    d.pushNow m = (d.accepted m slot k).settleRing (d.newJob m k).ring := by
  have hfind : ((List.range 128).find? fun k => (d.job k).isNone) = some slot := by
    rw [List.find?_range_eq_some]
    refine ⟨by rw [hfree]; rfl, List.mem_range.mpr hs, fun i hi => ?_⟩
    simpa [Option.isSome_iff_ne_none] using hlow i hi
  unfold Dev.pushNow
  dsimp only
  rw [hk, hfind]
  exact if_pos h

theorem Dev.rstDrain_of_none (h : ∀ k < 128, ∀ j dn, d.job k = some j → j.done = some dn → dn.rst = false) : d.rstDrain = d := by
  unfold Dev.rstDrain
  refine if_pos (List.isEmpty_iff.mpr (List.eq_nil_iff_forall_not_mem.mpr fun k hk => ?_))
  obtain ⟨hlt, j, hj, hp⟩ := Dev.mem_slotsWhere.mp hk
  obtain ⟨dn, hdn, hr⟩ := (Option.any_eq_true _ _).mp hp
  rw [h k hlt j dn hj hdn] at hr
  cases hr

theorem Dev.accepted_spec (hs : slot < d.jobs.slots.length) :
    (d.accepted m slot k).job slot = some (d.newJob m k) ∧ (∀ i, i ≠ slot → (d.accepted m slot k).job i = d.job i) ∧
      (d.accepted m slot k).jobs.nextOrder = d.jobs.nextOrder + 1 ∧
      (d.accepted m slot k).rd MEAS_ACCEPTED_COUNT = (d.rd MEAS_ACCEPTED_COUNT + 1) % 2 ^ 32 ∧
      (d.accepted m slot k).rd FLT_SEQNO_COUNT = d.rd FLT_SEQNO_COUNT ∧
      (d.accepted m slot k).pmWord m rMEAS_REQ_RESULT = Word.of (0xC0000000 + slot * 2 ^ 16) := by
  have hjobs : (d.accepted m slot k).jobs =
      { (d.setJob slot (some (d.newJob m k))).jobs with nextOrder := d.jobs.nextOrder + 1 } := rfl
  refine ⟨?_, fun i hi => ?_, rfl, ?_, ?_, Dev.pmWord_setPmWord_self ..⟩
  · exact Dev.job_setJob_self (d := d) _ hs
  · exact Dev.job_setJob_of_ne (d := d) _ hi
  all_goals unfold Dev.accepted
  all_goals dsimp only
  all_goals rw [Dev.rd_setPmWord]
  · rw [Dev.bump_rd _ (by decide), Dev.rd_with_jobs]
    rfl
  · rw [Dev.bump, Dev.rd_wr_of_ne _ _ _ _ (by decide), Dev.rd_with_jobs]
    rfl

theorem Dev.rejected_spec (m : Nat) (d : Dev) :
    (d.rejected m).rd MEAS_REJECTED_COUNT = (d.rd MEAS_REJECTED_COUNT + 1) % 2 ^ 32 ∧ (d.rejected m).flag MEAS_Q_ERR_REJECT = true ∧
      (d.rejected m).pmWord m rMEAS_REQ_RESULT = Word.of (0x80000000 + d.pushReason m * 2 ^ 24) ∧ (d.rejected m).jobs = d.jobs := by
  refine ⟨?_, ?_, Dev.pmWord_setPmWord_self .., ?_⟩
  · unfold Dev.rejected
    rw [Dev.rd_setPmWord, Dev.rd_evt_of_ne _ _ _ (by decide), Dev.bump_rd _ (by decide)]
    rfl
  · unfold Dev.rejected Dev.flag
    rw [Dev.rd_setPmWord]
    exact Dev.flag_evt_self _ MEAS_Q_ERR_REJECT rfl (by decide)
  · unfold Dev.rejected
    rw [Dev.setPmWord_jobs, Dev.evt_jobs, Dev.bump_jobs]

/-! ### The body read at its acceptance (R81) -/

theorem Dev.slotsWhere_none {p : Job → Bool} (h : ∀ k < 128, ∀ j, d.job k = some j → p j = false) : d.slotsWhere p = [] :=
  List.eq_nil_iff_forall_not_mem.mpr fun k hk => by
    obtain ⟨hlt, j, hj, hp⟩ := Dev.mem_slotsWhere.mp hk
    rw [h k hlt j hj] at hp
    cases hp

theorem Dev.slotsWhere_one {p : Job → Bool} {j : Job} (hs : slot < 128) (hj : d.job slot = some j) (hp : p j = true)
    (h : ∀ k < 128, k ≠ slot → ∀ j, d.job k = some j → p j = false) : d.slotsWhere p = [slot] := by
  have hone : (List.range 128).filter (fun k => (d.job k).any p) = (List.range 128).filter (· == slot) := by
    refine List.filter_congr fun i hi => ?_
    by_cases hi' : i = slot
    · subst hi'
      rw [hj, beq_self_eq_true]
      exact hp
    · rw [beq_eq_false_iff_ne.mpr hi']
      cases hx : d.job i with
      | none => rfl
      | some x => exact h i (List.mem_range.mp hi) hi' x hx
  unfold Dev.slotsWhere
  rw [hone, List.filter_beq, List.count_eq_one_of_mem List.nodup_range (List.mem_range.mpr hs)]
  rfl

theorem Dev.pushBad_none {n : Nat} (h : ∀ k < 128, ∀ j, d.job k = some j → j.order ≠ n) : d.pushBad n = d := by
  unfold Dev.pushBad
  rw [Dev.slotsWhere_none fun k hk j hj => decide_eq_false (h k hk j hj)]
  rfl

theorem Dev.pushBad_one {n : Nat} {j : Job} (hs : slot < 128) (hj : d.job slot = some j) (hn : j.order = n)
    (h : ∀ k < 128, k ≠ slot → ∀ j, d.job k = some j → j.order ≠ n) : d.pushBad n = (d.eccEnd slot j).settleRing j.ring := by
  unfold Dev.pushBad
  rw [Dev.slotsWhere_one hs hj (decide_eq_true hn) fun k hk hne x hx => decide_eq_false (h k hk hne x hx), List.foldl_cons,
    List.foldl_nil, hj]
  rfl

end

theorem Dev.pushReason_congr {d e : Dev} (hl : e.live = d.live) (hp : e.perMaster = d.perMaster) (hj : e.jobs = d.jobs) (m : Nat) :
    e.pushReason m = d.pushReason m := by
  have hrd : ∀ f, e.rd f = d.rd f := Dev.rd_congr hl
  have hflag : ∀ f, e.flag f = d.flag f := Dev.flag_congr hl
  have hpm : ∀ f, e.rdPm m f = d.rdPm m f := fun f => by unfold Dev.rdPm; rw [Dev.pmWord_congr hp]
  have hmode : e.mode = d.mode := congrArg Mode.ofCode (hrd _)
  have hjob : e.job = d.job := by funext k; unfold Dev.job; rw [hj]
  rw [Dev.pushReason_eq e m rfl rfl rfl rfl rfl rfl rfl rfl, Dev.pushReason_eq d m rfl rfl rfl rfl rfl rfl rfl rfl]
  unfold Dev.claimed
  simp only [hpm, hflag, hmode, hjob]

/-- An accepted write of MEAS_REQ_PUSH, where no RST record waits. -/
theorem Dev.write_push {d : Dev} {m : Nat} (h : d.Grants m rMEAS_REQ_PUSH)
    (hrst : ∀ k < 128, ∀ j dn, d.job k = some j → j.done = some dn → dn.rst = false) :
    ∃ o, d.write m rMEAS_REQ_PUSH 1 = (({ d with outside := o } : Dev).pushNow m).accessEdge := by
  obtain ⟨r, hr, hp, hrw, hrws⟩ : ∃ r, rowAt rMEAS_REQ_PUSH = some r ∧ plainCommand rMEAS_REQ_PUSH r = true ∧ r.rw = 0 ∧ r.rws = 0 :=
    ⟨_, rfl, by decide, rfl, rfl⟩
  obtain ⟨o, ho⟩ := Dev.write_bare h hr hp hrw hrws (w := 1) (by decide)
  refine ⟨o, ho.trans ?_⟩
  have hcmd : ∀ x : Dev, x.command m rMEAS_REQ_PUSH 1 = x.rstDrain.pushNow m := fun _ => rfl
  rw [hcmd, Dev.rstDrain_of_none (d := { d with outside := o }) hrst]

/-- What is left of an accepted push of kind `k` from `d`, before its body is read. -/
structure Accepts (m slot : Nat) (k : JobKind) (d e : Dev) : Prop where
  count : e.rd MEAS_ACCEPTED_COUNT = (d.rd MEAS_ACCEPTED_COUNT + 1) % 2 ^ 32
  next : e.jobs.nextOrder = d.jobs.nextOrder + 1
  result : e.pmWord m rMEAS_REQ_RESULT = Word.of (0xC0000000 + slot * 2 ^ 16)
  slots : e.jobs.slots.length = d.jobs.slots.length
  job : ∃ dn, e.job slot = some { d.newJob m k with done := dn }
  plain : k ≠ .flush → e.job slot = some (d.newJob m k)
  other : ∀ i, i ≠ slot → ∀ x, e.job i = some x → ∃ y dn, d.job i = some y ∧ x = { y with done := dn }
  good : d.bodiesGood = true → e.OpenGood ∧ e.rd FLT_SEQNO_COUNT = d.rd FLT_SEQNO_COUNT

theorem Dev.pushNow_accepted {d : Dev} {m slot : Nat} {k : JobKind} (h : d.pushReason m = 0)
    (hk : JobKind.ofCode (d.rdPm m MEAS_REQ_W0_KIND) = some k) (hs : slot < 128) (hn : d.jobs.slots.length = 128)
    (hfree : d.job slot = none) (hlow : ∀ i < slot, d.job i ≠ none) : Accepts m slot k d (d.pushNow m) := by
  rw [Dev.pushNow_accepts h hk hs hfree hlow]
  obtain ⟨hself, hother, hnext, hcount, hseq, hres⟩ := Dev.accepted_spec (d := d) (m := m) (k := k) (slot := slot) (by omega)
  have hlen : (d.accepted m slot k).jobs.slots.length = d.jobs.slots.length := Dev.slots_setJob (d := d) _
  generalize d.accepted m slot k = x at hself hother hnext hcount hseq hres hlen
  have hsettle := JobsSettle.settleRing (d.newJob m k).ring x
  refine ⟨?_, hsettle.next.trans hnext, (Dev.pmWord_congr hsettle.perMaster _ _).trans hres, hsettle.count.trans hlen,
    hsettle.same _ _ hself, fun hne => hsettle.kept _ _ hself (Or.inr hne), fun i hi y hy => ?_, fun hgood => ?_⟩
  · refine Eq.trans ?_ hcount
    unfold Dev.rd
    rw [hsettle.word _ (by decide) (by unfold FiringReg FireReg CapReg ReactReg; decide)]
  · obtain ⟨z, dn, hz, he⟩ := hsettle.origin hy
    exact ⟨z, dn, (hother i hi).symm.trans hz, he⟩
  · have hopen : x.OpenGood := fun i y hy _ => by
      by_cases hi : i = slot
      · subst hi
        cases hself.symm.trans hy
        rfl
      · rw [hother i hi] at hy
        exact Dev.bodiesGood.job hgood hy
    have honly := OpenJobs.settleRing hopen (d.newJob m k).ring
    exact ⟨honly.good, (honly.only.rd _).trans hseq⟩

theorem Accepts.accessEdge {d e : Dev} {m slot : Nat} {k : JobKind} (h : Accepts m slot k d e) : Accepts m slot k d e.accessEdge :=
  ⟨h.count, h.next, h.result, h.slots, h.job, h.plain, h.other, h.good⟩

/-- The body of the job just accepted is damaged: the job ends with QUEUE_ECC and all else of its acceptance stands. -/
theorem Accepts.pushBad {d e : Dev} {m slot : Nat} {k : JobKind} (h : Accepts m slot k d e) (hs : slot < 128)
    (hn : d.jobs.slots.length = 128) (hnew : ∀ k < 128, ∀ j, d.job k = some j → j.order ≠ d.jobs.nextOrder) :
    (e.pushBad d.jobs.nextOrder).rd MEAS_ACCEPTED_COUNT = e.rd MEAS_ACCEPTED_COUNT ∧
      (e.pushBad d.jobs.nextOrder).jobs.nextOrder = e.jobs.nextOrder ∧ (e.pushBad d.jobs.nextOrder).perMaster = e.perMaster ∧
      (e.pushBad d.jobs.nextOrder).job slot = some { d.newJob m k with done := some (Done.aborted 5) } ∧
      (e.pushBad d.jobs.nextOrder).flag MEAS_Q_ERR_QUEUE_ECC = true ∧ (e.pushBad d.jobs.nextOrder).latched 21 = true ∧
      (d.bodiesGood = true → Fired 21 d (e.pushBad d.jobs.nextOrder)) := by
  obtain ⟨dn, hjob⟩ := h.job
  have hlen : slot < e.jobs.slots.length := by rw [h.slots, hn]; exact hs
  have hend : e.pushBad d.jobs.nextOrder = (e.eccEnd slot { d.newJob m k with done := dn }).settleRing (d.newJob m k).ring :=
    Dev.pushBad_one (j := { d.newJob m k with done := dn }) hs hjob rfl fun i hi hne x hx => by
      obtain ⟨y, dn', hy, rfl⟩ := h.other i hne x hx
      exact hnew i hi y hy
  rw [hend]
  have hsettle := (JobsSettle.eccEnd slot { d.newJob m k with done := dn } e).trans (JobsSettle.settleRing (d.newJob m k).ring _)
  obtain ⟨hself, hflag, hlatched, hfired⟩ := Dev.eccEnd_settles (j := { d.newJob m k with done := dn }) hlen (d.newJob m k).ring
  refine ⟨?_, hsettle.next, hsettle.perMaster, hself, hflag, hlatched, fun hgood => ?_⟩
  · unfold Dev.rd
    rw [hsettle.word _ (by decide) (by unfold FiringReg FireReg CapReg ReactReg; decide)]
    rfl
  · obtain ⟨hopen, hseq⟩ := h.good hgood
    exact (hfired fun i x _ hx hd => hopen i x hx hd).of_rd hseq

/-- The command of a push, by its kind. -/
theorem Effects.of_push {c : Instr} {s : State} {dt m code : Nat} {ecc : Bool} {P : Dev → Prop}
    (hrun : exec c s = run dt (Dev.pushKind code ⟨m, ecc⟩) s) (hg : s.dev.Grants m rMEAS_REQ_PUSH)
    (hrst : ∀ k < 128, ∀ j dn, s.dev.job k = some j → j.done = some dn → dn.rst = false)
    (hcode : s.dev.rdPm m MEAS_REQ_W0_KIND = code)
    (hp : ∀ o, P (if ecc then ((({ s.dev.advance dt with outside := o } : Dev).pushNow m).accessEdge).pushBad s.dev.jobs.nextOrder
      else (({ s.dev.advance dt with outside := o } : Dev).pushNow m).accessEdge)) : Effects c s P := by
  refine Effects.of_run hrun ?_
  obtain ⟨o, ho⟩ := Dev.write_push (d := s.dev.advance dt) (m := m) hg hrst
  unfold Dev.pushKind
  rw [Dev.whenNow_pos (d := s.dev.advance dt) (p := fun d => decide (d.rdPm m MEAS_REQ_W0_KIND = code)) (decide_eq_true hcode)]
  dsimp only
  rw [ho]
  exact hp o

/-- Settles O44: acceptance, rejection, and the formula of the reason. -/
theorem pushesAreJudged : Obligations.PushesAreJudged := by
  intro s dt m ecc hg hn hrst hnew
  refine ⟨fun c code kind hc hcode => ?_, fun hkind => ?_, fun code a b oa ob h1 h2 h3 h4 h5 ratio openA openB h6 h7 h8 =>
    s.dev.pushReason_eq m h1 h2 h3 h4 h5 h6 h7 h8⟩
  · obtain ⟨hrun, hof⟩ : exec c s = run dt (Dev.pushKind code ⟨m, ecc⟩) s ∧ JobKind.ofCode code = some kind := by
      simp only [List.mem_cons, Prod.mk.injEq, List.not_mem_nil, or_false] at hc
      rcases hc with ⟨rfl, rfl, rfl⟩ | ⟨rfl, rfl, rfl⟩ | ⟨rfl, rfl, rfl⟩ | ⟨rfl, rfl, rfl⟩ | ⟨rfl, rfl, rfl⟩ | ⟨rfl, rfl, rfl⟩ <;>
        exact ⟨rfl, rfl⟩
    refine ⟨fun slot h0 hs hfree hlow => Effects.of_push hrun hg hrst hcode fun o => ?_,
      fun h0 => Effects.of_push hrun hg hrst hcode fun o => ?_⟩
    · have hreason := (Dev.pushReason_congr (e := { s.dev.advance dt with outside := o }) (d := s.dev) rfl rfl rfl m).trans h0
      have hacc := Dev.pushNow_accepted hreason (hcode ▸ hof) hs hn hfree hlow
      generalize ({ s.dev.advance dt with outside := o } : Dev).pushNow m = e at hacc
      replace hacc := hacc.accessEdge
      generalize e.accessEdge = e at hacc
      cases ecc with
      | false =>
        obtain ⟨dn, hjob⟩ := hacc.job
        exact ⟨hacc.count, hacc.next, hacc.result, fun _ => hacc.plain, nofun, _, hjob, rfl, rfl, rfl, rfl⟩
      | true =>
        obtain ⟨hcount, hnext, hpm, hjob, hflag, hlatched, hfired⟩ := hacc.pushBad hs hn (hnew rfl)
        exact ⟨hcount.trans hacc.count, hnext.trans hacc.next, (Dev.pmWord_congr hpm _ _).trans hacc.result, nofun,
          fun _ => ⟨congrArg (fun o : Option Job => o.bind Job.done) hjob, hflag, hlatched, fun h => (hfired h).of_rd rfl⟩,
          _, hjob, rfl, rfl, rfl, rfl⟩
    · have hreason : ({ s.dev.advance dt with outside := o } : Dev).pushReason m = s.dev.pushReason m := Dev.pushReason_congr rfl rfl rfl m
      rw [Dev.pushNow_rejects (by rw [hreason]; exact h0)]
      obtain ⟨hcount, hflag, hpm, hjobs⟩ := ({ s.dev.advance dt with outside := o } : Dev).rejected_spec m
      rw [hreason] at hpm
      have hbad : ecc = true → ((({ s.dev.advance dt with outside := o } : Dev).rejected m).accessEdge).pushBad s.dev.jobs.nextOrder =
          (({ s.dev.advance dt with outside := o } : Dev).rejected m).accessEdge := fun he =>
        Dev.pushBad_none fun k hk j hj => hnew he k hk j (by
          unfold Dev.job at hj ⊢
          rwa [Dev.accessEdge_jobs, hjobs] at hj)
      generalize ({ s.dev.advance dt with outside := o } : Dev).rejected m = e at hcount hflag hpm hjobs hbad
      cases ecc with
      | false => exact ⟨hcount, hflag, hpm, hjobs⟩
      | true =>
        rw [if_pos rfl, hbad rfl]
        exact ⟨hcount, hflag, hpm, hjobs⟩
  · refine Effects.of_run rfl ?_
    rw [Dev.whenNow_pos (d := s.dev.advance dt) (p := fun d => decide (5 < d.rdPm m MEAS_REQ_W0_KIND)) (decide_eq_true hkind)]
    obtain ⟨o, ho⟩ := Dev.write_push (d := s.dev.advance dt) (m := m) hg hrst
    have hreason : ({ s.dev.advance dt with outside := o } : Dev).pushReason m = s.dev.pushReason m := Dev.pushReason_congr rfl rfl rfl m
    have hnone : JobKind.ofCode (({ s.dev.advance dt with outside := o } : Dev).rdPm m MEAS_REQ_W0_KIND) = none := JobKind.ofCode_none hkind
    have hrej : ({ s.dev.advance dt with outside := o } : Dev).pushNow m = ({ s.dev.advance dt with outside := o } : Dev).rejected m := by
      unfold Dev.pushNow
      dsimp only
      split
      · next hk _ =>
        cases hnone.symm.trans hk
      · rfl
    obtain ⟨hcount, hflag, hpm, hjobs⟩ := ({ s.dev.advance dt with outside := o } : Dev).rejected_spec m
    rw [hreason] at hpm
    rw [ho, hrej]
    generalize ({ s.dev.advance dt with outside := o } : Dev).rejected m = e at hcount hflag hpm hjobs
    exact ⟨hcount, hflag, hpm, hjobs⟩

end Sys2Proof.Machine
end

section
/-!
PROOF. Words of a byte memory: what a range of stored bytes reads as (00 R7; 01 R29).
-/

namespace Sys2Proof.Machine

theorem length_leBytes (n v : Nat) : (leBytes n v).length = n := by
  induction n generalizing v with
  | zero => rfl
  | succ n ih => rw [leBytes, List.length_cons, ih]

theorem leNat_leBytes (n v : Nat) : leNat (leBytes n v) = v % 256 ^ n := by
  induction n generalizing v with
  | zero => rw [pow_zero, Nat.mod_one]; rfl
  | succ n ih =>
    rw [leBytes, leNat, ih, pow_succ', Nat.mod_mul]
    rfl

/-- The bytes of a number, cut. -/
theorem leBytes_add (n m v : Nat) : leBytes (n + m) v = leBytes n v ++ leBytes m (v / 256 ^ n) := by
  induction n generalizing v with
  | zero => simp [leBytes]
  | succ n ih =>
    rw [Nat.add_right_comm, leBytes, ih, leBytes, List.cons_append, Nat.div_div_eq_div_mul, pow_succ']

/-- Bytes read back from the middle of a range that was stored. -/
theorem ByteMem.bytes_store (m : ByteMem) (z : Byte) {lo hi a : Nat} (xs ys zs : List Byte) (h1 : lo ≤ a)
    (h2 : a + (xs ++ ys ++ zs).length ≤ hi) :
    ByteMem.bytes (ByteMem.store m z lo hi a (xs ++ ys ++ zs)) z (a + xs.length) ys.length = ys := by
  refine List.ext_getElem ?_ fun k hk hk' => ?_
  · simp [ByteMem.bytes]
  · have hlen : xs.length + k < (xs ++ ys ++ zs).length := by simp only [List.length_append]; omega
    simp only [ByteMem.bytes, List.getElem_map, List.getElem_range]
    rw [Nat.add_assoc, ByteMem.get_store m z lo hi a (xs.length + k) _ hlen h1 h2]
    simp [hk']

/-- A word read back from a range of bytes that was stored to SRAM. -/
theorem Dev.sramWord_setSram (d : Dev) {a : Nat} (xs zs : List Byte) (v : Nat) (h1 : 0x100000 ≤ a)
    (h2 : a + (xs ++ leBytes 4 v ++ zs).length ≤ 0x180000) :
    (d.setSram a (xs ++ leBytes 4 v ++ zs)).sramWord (a + xs.length) = v % 2 ^ 32 := by
  have hbytes := ByteMem.bytes_store d.sram 0 xs (leBytes 4 v) zs h1 h2
  rw [length_leBytes] at hbytes
  exact (congrArg leNat hbytes).trans (leNat_leBytes 4 v)

theorem Dev.sramWord_congr {d e : Dev} (h : e.sram = d.sram) (a : Nat) : e.sramWord a = d.sramWord a := by
  unfold Dev.sramWord
  rw [h]

end Sys2Proof.Machine
end

section
/-!
PROOF. A ring takes the next record of its write queue (03 R84, R87, R92, R94, R95; O47).
-/

namespace Sys2Proof.Machine

/-! ### Rings -/

section
variable {d : Dev} {r q : Nat}

theorem Dev.ring_setRing_self (f : Ring → Ring) (h : r < d.jobs.rings.length) : (d.setRing r f).ring r = f (d.ring r) :=
  getD_updAt_self f Ring.fresh h

theorem Dev.ring_setRing_of_ne (f : Ring → Ring) (h : r ≠ q) : (d.setRing q f).ring r = d.ring r :=
  getD_updAt_of_ne f Ring.fresh h

theorem Dev.rings_setRing (f : Ring → Ring) : (d.setRing r f).jobs.rings.length = d.jobs.rings.length := List.length_modify ..

theorem Dev.ring_congr {e : Dev} (h : e.jobs.rings = d.jobs.rings) (r : Nat) : e.ring r = d.ring r := by
  unfold Dev.ring
  rw [h]

end

theorem Dev.slotBad_rings (k : Nat) (d : Dev) : (d.slotBad k).jobs.rings = d.jobs.rings := by
  unfold Dev.slotBad
  split
  · split
    · rfl
    · next j _ _ =>
      have hfire := (Still.fireAs 21 k none false false ((d.setJob k (some { j with done := some (Done.aborted 5) })).evt MEAS_Q_ERR_QUEUE_ECC)).jobs
      refine (congrArg Jobs.rings hfire).trans ?_
      rw [Dev.evt_jobs]
      rfl
  · rfl

theorem Dev.settleFlush_rings (r : Nat) (d : Dev) : (d.settleFlush r).jobs.rings = d.jobs.rings := by
  rw [Dev.settleFlush_eq]
  refine List.foldlRecOn (motive := fun x : Dev => x.jobs.rings = d.jobs.rings) _ _ rfl fun x hx k _ => Eq.trans ?_ hx
  unfold Dev.flushTurn
  split
  · dsimp only
    split
    · rfl
    · split
      · exact Dev.slotBad_rings k x
      · rfl
  · rfl

/-- A ring behind a completion record that waits is not promoted (R79). -/
theorem Dev.promote_ring {d : Dev} {r : Nat} (h : (d.ring r).hasCompletion = true) (q : Nat) : (d.promote q).ring r = d.ring r := by
  by_cases hq : r = q
  · subst hq
    unfold Dev.promote
    rw [if_pos h]
  · unfold Dev.promote
    split
    · rfl
    · split
      · split
        · exact Dev.ring_setRing_of_ne _ hq
        · rfl
      · rfl

theorem not_firingReg_ring {a : Nat} (h : 0x070000 ≤ a) (h' : a ≠ 0x090004) : ¬ FiringReg a :=
  not_firingReg (by omega) (by omega) h' (by omega)

/-- A stream's job, one record on. -/
def Job.counted (wrote : Bool) (j : Job) : Job := if wrote then { j with written := j.written + 1 } else { j with dropped := j.dropped + 1 }

/-- A stream's job, one record on, and its result at COUNT (R78). -/
def Job.streamed (wrote : Bool) (i : Job) : Job :=
  let j := i.counted wrote
  if (decide (j.paramA % 2 ^ 32 ≠ 0) && decide (j.paramA % 2 ^ 32 ≤ j.written + j.dropped)) && j.done.isNone then
    { j with done := some (Done.result 0) } else j

theorem Dev.streamCount_eq {d : Dev} {slot : Nat} {i : Job} (h : d.job slot = some i) (tag : Nat) (w : Bool) :
    d.streamCount slot tag w = if i.kind ≠ .stream ∨ i.tag ≠ tag then d else (d.setJob slot (some (i.streamed w))).settleRing (i.streamed w).ring := by
  unfold Dev.streamCount
  rw [h]
  rfl

/-! ### Data records dropped behind a completion record that waits for space (R94, R95) -/

/-- Ring `r` stands, and so do its flags and HEAD, and the results that are fixed. -/
structure RingStands (r : Nat) (d e : Dev) : Prop where
  ring : e.ring r = d.ring r
  done : ∀ k dn, (d.job k).bind Job.done = some dn → (e.job k).bind Job.done = some dn
  full : d.flag (TQ_STAT_FULL r) = true → e.flag (TQ_STAT_FULL r) = true
  head : e.rd (TQ_HEAD_HEAD r) = d.rd (TQ_HEAD_HEAD r)

namespace RingStands

variable {r : Nat}

theorem refl (d : Dev) : RingStands r d d := ⟨rfl, fun _ _ h => h, id, rfl⟩

theorem trans {d e f : Dev} (h : RingStands r d e) (h' : RingStands r e f) : RingStands r d f :=
  ⟨h'.ring.trans h.ring, fun k dn hd => h'.done k dn (h.done k dn hd), fun hf => h'.full (h.full hf), h'.head.trans h.head⟩

theorem settleRing (hr : r < 16) {d : Dev} (h : (d.ring r).hasCompletion = true) (q : Nat) : RingStands r d (d.settleRing q) := by
  have hsettle := JobsSettle.settleRing q d
  have hword : ∀ a, 0x070000 ≤ a → a ≠ 0x090004 → (d.settleRing q).word a = d.word a := fun a h1 h2 =>
    hsettle.word a (by unfold rMEAS_Q_ERR; omega) (not_firingReg_ring h1 h2)
  have hstat : (d.settleRing q).word (rTQ_STAT r) = d.word (rTQ_STAT r) := hword _ (by unfold rTQ_STAT; omega) (by unfold rTQ_STAT; omega)
  have hhead : (d.settleRing q).word (rTQ_HEAD r) = d.word (rTQ_HEAD r) := hword _ (by unfold rTQ_HEAD; omega) (by unfold rTQ_HEAD; omega)
  have hflush : (d.settleFlush q).ring r = d.ring r := Dev.ring_congr (Dev.settleFlush_rings q d) r
  refine ⟨(Dev.promote_ring (by rw [hflush]; exact h) q).trans hflush, fun k dn hd => ?_, fun hf => ?_, ?_⟩
  · obtain ⟨j, hj, hdn⟩ := Option.bind_eq_some_iff.mp hd
    rw [hsettle.kept k j hj (Or.inl (by rw [hdn]; rfl))]
    exact hdn
  · rw [← hf]
    unfold Dev.flag Dev.rd
    rw [show (TQ_STAT_FULL r).addr = rTQ_STAT r from rfl, hstat]
  · unfold Dev.rd
    rw [show (TQ_HEAD_HEAD r).addr = rTQ_HEAD r from rfl, hhead]

/-- A slot whose job changes in its counts, and in its result only if that was not fixed. -/
theorem setJob {d : Dev} {k : Nat} {i j : Job} (hi : d.job k = some i) (hj : i.done.isSome = true → j.done = i.done) :
    RingStands r d (d.setJob k (some j)) := by
  refine ⟨rfl, fun n dn hd => ?_, id, rfl⟩
  by_cases hn : n = k
  · subst hn
    rw [Dev.job_setJob_self _ (Dev.lt_of_job hi)]
    rw [hi, Option.bind_some] at hd
    rw [Option.bind_some, hj (by rw [hd]; rfl), hd]
  · rw [Dev.job_setJob_of_ne _ hn]
    exact hd

theorem streamCount (hr : r < 16) {d : Dev} (h : (d.ring r).hasCompletion = true) (slot tag : Nat) (w : Bool) : RingStands r d (d.streamCount slot tag w) := by
  cases hi : d.job slot with
  | none =>
    unfold Dev.streamCount
    rw [hi]
    exact refl d
  | some i =>
    rw [Dev.streamCount_eq hi]
    split
    · exact refl d
    · have hdone : i.done.isSome = true → (i.streamed w).done = i.done := fun hd => by
        have hnone : i.done.isNone = false := by simpa using hd
        cases w <;> simp [Job.streamed, Job.counted, hnone]
      exact (setJob hi hdone).trans (settleRing hr (by exact h) _)
    
theorem dropData (hr : r < 16) {d : Dev} (h : (d.ring r).hasCompletion = true) (x : WRec) : RingStands r d (d.dropData r x) := by
  have hevt : RingStands r d ((d.bump (TQ_DROP_DROP r)).evt (TQ_STAT_DROP r)) := by
    refine ⟨?_, fun k dn hd => ?_, fun hf => ?_, ?_⟩
    · exact Dev.ring_congr (by rw [Dev.evt_jobs, Dev.bump_jobs]) r
    · unfold Dev.job at hd ⊢
      rwa [Dev.evt_jobs, Dev.bump_jobs]
    · refine Dev.flag_evt_mono ⟨rfl, show 6 < 24 by decide⟩ ⟨rfl, show 2 < 24 by decide⟩ ?_
      exact (Dev.flag_wr_of_ne _ _ _ _ (by simp only [TQ_STAT_FULL, TQ_DROP_DROP, rTQ_STAT, rTQ_DROP]; omega)).trans hf
    · rw [Dev.rd_evt_of_ne _ _ _ (by simp only [TQ_HEAD_HEAD, TQ_STAT_DROP, rTQ_STAT, rTQ_HEAD]; omega)]
      exact Dev.rd_wr_of_ne _ _ _ _ (by simp only [TQ_HEAD_HEAD, TQ_DROP_DROP, rTQ_DROP, rTQ_HEAD]; omega)
  unfold Dev.dropData
  split
  · exact hevt.trans (streamCount hr (by rw [hevt.ring]; exact h) _ _ _)
  · exact hevt

theorem dropAll (hr : r < 16) {d : Dev} (h : (d.ring r).hasCompletion = true) (l : List WRec) :
    RingStands r d (l.foldl (fun d x => d.dropData r x) d) := by
  induction l generalizing d with
  | nil => exact refl d
  | cons x t ih =>
    have hx := dropData hr h x
    exact hx.trans (ih (by rw [hx.ring]; exact h))

end RingStands

end Sys2Proof.Machine
end

section
/-!
PROOF. The record that a ring writes, or drops (03 R84, R87, R92, R94, R95; O47).
-/

namespace Sys2Proof.Machine

/-! ### A record written to its ring -/

theorem Dev.closeFull_eq (r : Nat) (d : Dev) : ∃ t, d.closeFull r = { d with jobs := { d.jobs with tp := t } } := by
  unfold Dev.closeFull
  generalize (d.flag (TQ_CFG_MODE r) && d.flag TP_CTL_ENABLE && decide (512 ≤ d.unsent r)) = b
  cases b with
  | false => exact ⟨d.jobs.tp, rfl⟩
  | true =>
    rw [Dev.when_true]
    unfold Dev.closeFrame
    dsimp only
    split
    · exact ⟨d.jobs.tp, rfl⟩
    · exact ⟨_, rfl⟩

theorem recAddr_congr {d e : Dev} (h : e.live = d.live) (r seq : Nat) : e.recAddr r seq = d.recAddr r seq := by
  unfold Dev.recAddr Dev.ringSize
  rw [Dev.rd_congr h, Dev.rd_congr h]

/-- What is left of a record of ring `r` written at HEAD. -/
structure Recorded (r w0 tag payload : Nat) (d e : Dev) : Prop where
  sram : e.sram = (d.setSram (d.recAddr r (d.rd (TQ_HEAD_HEAD r)))
    (leBytes 4 (w0 + d.rd (TQ_HEAD_HEAD r)) ++ leBytes 4 tag ++ leBytes 8 payload)).sram
  head : e.rd (TQ_HEAD_HEAD r) = (d.rd (TQ_HEAD_HEAD r) + 1) % 2 ^ 16
  wq : (e.ring r).wq = (d.ring r).wq
  slots : e.jobs.slots = d.jobs.slots

/-- A status bit that may set: memory, jobs and the other registers stand. -/
theorem Dev.evtIf_parts (d : Dev) (b : Bool) (f : Fld) : (d.evtIf b f).sram = d.sram ∧ (d.evtIf b f).jobs = d.jobs ∧
    ∀ g : Fld, g.addr ≠ f.addr → (d.evtIf b f).rd g = d.rd g := by
  unfold Dev.evtIf
  cases b with
  | false => exact ⟨rfl, rfl, fun _ _ => rfl⟩
  | true => exact ⟨Dev.evt_sram .., Dev.evt_jobs .., fun g hg => Dev.rd_evt_of_ne d f g hg⟩

theorem TQ_HEAD_HEAD_rd_wr (d : Dev) (r v : Nat) : (d.wr (TQ_HEAD_HEAD r) v).rd (TQ_HEAD_HEAD r) = v % 2 ^ 16 :=
  Dev.rd_wr_self d (TQ_HEAD_HEAD r) v ⟨Nat.zero_le _, show 15 < 32 by decide⟩

theorem Dev.writeRecord_recorded (d : Dev) {r : Nat} (hr : r < d.jobs.rings.length) (w0 tag payload : Nat) :
    Recorded r w0 tag payload d (d.writeRecord r w0 tag payload) := by
  unfold Dev.writeRecord
  dsimp only
  have hwq := congrArg Ring.wq (Dev.ring_setRing_self (d := d) (r := r) (fun g => { g with wroteAt := some d.clk.edge }) hr)
  have hrd : ∀ f, (d.setRing r fun g => { g with wroteAt := some d.clk.edge }).rd f = d.rd f := fun f => Dev.rd_congr rfl f
  have haddr : ∀ seq, (d.setRing r fun g => { g with wroteAt := some d.clk.edge }).recAddr r seq = d.recAddr r seq := fun seq => recAddr_congr rfl r seq
  have hsl : (d.setRing r fun g => { g with wroteAt := some d.clk.edge }).jobs.slots = d.jobs.slots := rfl
  have hmem : (d.setRing r fun g => { g with wroteAt := some d.clk.edge }).sram = d.sram := rfl
  rw [hrd, haddr]
  generalize (d.setRing r fun g => { g with wroteAt := some d.clk.edge }) = x at hwq hrd hsl hmem
  generalize hbs : leBytes 4 (w0 + d.rd (TQ_HEAD_HEAD r)) ++ leBytes 4 tag ++ leBytes 8 payload = bs
  generalize ha : d.recAddr r (d.rd (TQ_HEAD_HEAD r)) = a
  have hhead := TQ_HEAD_HEAD_rd_wr (x.setSram a bs) r (d.rd (TQ_HEAD_HEAD r) + 1)
  have hjobs := (Dev.wr_jobs (x.setSram a bs) (TQ_HEAD_HEAD r) (d.rd (TQ_HEAD_HEAD r) + 1)).trans (Dev.setSram_jobs x a bs)
  have hsram : ((x.setSram a bs).wr (TQ_HEAD_HEAD r) (d.rd (TQ_HEAD_HEAD r) + 1)).sram = (d.setSram a bs).sram :=
    (Dev.wr_sram ..).trans (congrArg (fun m => ByteMem.store m 0 0x100000 0x180000 a bs) hmem)
  generalize (x.setSram a bs).wr (TQ_HEAD_HEAD r) (d.rd (TQ_HEAD_HEAD r) + 1) = y at hhead hjobs hsram
  generalize List.drop _ (y.jobs.trace ++ _) = tr
  have hslots : ({ y with jobs := { y.jobs with trace := tr } } : Dev).jobs.slots = x.jobs.slots := (congrArg Jobs.slots hjobs :)
  have hrings : ({ y with jobs := { y.jobs with trace := tr } } : Dev).jobs.rings = x.jobs.rings := (congrArg Jobs.rings hjobs :)
  replace hhead := (Dev.rd_with_jobs y { y.jobs with trace := tr } (TQ_HEAD_HEAD r)).trans hhead
  replace hsram : ({ y with jobs := { y.jobs with trace := tr } } : Dev).sram = (d.setSram a bs).sram := hsram
  generalize ({ y with jobs := { y.jobs with trace := tr } } : Dev) = u at hslots hrings hhead hsram
  generalize (decide (u.rd (TQ_WM_WM r) ≠ 0) && decide (u.rd (TQ_WM_WM r) ≤ u.ringCount r)) = b
  obtain ⟨h1, h2, h3⟩ := u.evtIf_parts b (TQ_STAT_WM r)
  generalize u.evtIf b (TQ_STAT_WM r) = z at h1 h2 h3
  obtain ⟨t, ht⟩ := Dev.closeFull_eq r z
  rw [ht]
  refine ⟨?_, ?_, ?_, (congrArg Jobs.slots h2).trans (hslots.trans hsl)⟩
  · rw [ha, hbs]
    exact h1.trans hsram
  · refine (Dev.rd_with_jobs z _ _).trans ((h3 _ ?_).trans hhead)
    simp only [TQ_HEAD_HEAD, TQ_STAT_WM, rTQ_HEAD, rTQ_STAT]
    omega
  · exact (congrArg Ring.wq (Dev.ring_congr ((congrArg Jobs.rings h2).trans hrings) r)).trans hwq

section
variable {d e : Dev} {r w0 tag payload : Nat}

theorem Recorded.words (h : Recorded r w0 tag payload d e) {a : Nat} (ha : a = d.recAddr r (d.rd (TQ_HEAD_HEAD r))) (hb : a + 16 ≤ 0x180000) :
    e.sramWord a = (w0 + d.rd (TQ_HEAD_HEAD r)) % 2 ^ 32 ∧ e.sramWord (a + 4) = tag % 2 ^ 32 ∧ e.sramWord (a + 8) = payload % 2 ^ 32 ∧
      e.sramWord (a + 12) = payload / 2 ^ 32 % 2 ^ 32 := by
  have hlow : 0x100000 ≤ a := by rw [ha]; unfold Dev.recAddr; omega
  have hsram := h.sram
  rw [← ha] at hsram
  have hcut : leBytes 8 payload = leBytes 4 payload ++ leBytes 4 (payload / 2 ^ 32) := leBytes_add 4 4 payload
  rw [hcut] at hsram
  simp only [Dev.sramWord_congr hsram]
  generalize w0 + d.rd (TQ_HEAD_HEAD r) = v
  have word : ∀ (xs zs : List Byte) (n : Nat), leBytes 4 v ++ leBytes 4 tag ++ (leBytes 4 payload ++ leBytes 4 (payload / 2 ^ 32)) = xs ++ leBytes 4 n ++ zs →
      (d.setSram a (leBytes 4 v ++ leBytes 4 tag ++ (leBytes 4 payload ++ leBytes 4 (payload / 2 ^ 32)))).sramWord (a + xs.length) = n % 2 ^ 32 :=
    fun xs zs n heq => by
      have hlen := congrArg List.length heq
      simp only [List.length_append, length_leBytes] at hlen
      rw [heq]
      exact d.sramWord_setSram xs zs n hlow (by simp only [List.length_append, length_leBytes]; omega)
  refine ⟨word [] _ v rfl, word (leBytes 4 v) _ tag rfl, ?_, ?_⟩
  · exact word (leBytes 4 v ++ leBytes 4 tag) (leBytes 4 (payload / 2 ^ 32)) payload (by simp only [List.append_assoc])
  · exact word (leBytes 4 v ++ leBytes 4 tag ++ leBytes 4 payload) [] (payload / 2 ^ 32) (by simp only [List.append_assoc, List.append_nil])

theorem Recorded.outside (h : Recorded r w0 tag payload d e) {a b : Nat} (ha : a = d.recAddr r (d.rd (TQ_HEAD_HEAD r)))
    (hb : b < a ∨ a + 16 ≤ b) : ByteMem.get e.sram 0 b = ByteMem.get d.sram 0 b := by
  rw [h.sram, ← ha]
  exact ByteMem.get_store_of_not_mem _ _ _ _ _ _ _ (by simp only [List.length_append, length_leBytes]; exact hb)

end

/-! ### Data records of a write queue -/

section
variable {d : Dev} {r : Nat} {w : WRec} {rest : List WRec}

/-- The turn of a data record, by R95. -/
theorem Dev.dataTurn_eq (hr : r < d.jobs.rings.length) (write : Dev → Dev) :
    d.dataTurn r w rest write = if 2 ≤ d.ringFree r ∧ ({ d.ring r with wq := rest } : Ring).hasEpoch = false then
      write (d.setRing r fun g => { g with wq := rest })
      else ((d.setRing r fun g => { g with wq := rest }).evtIf (decide (d.ringFree r = 0)) (TQ_STAT_FULL r)).dropData r w := by
  unfold Dev.dataTurn
  dsimp only
  rw [Dev.ring_setRing_self _ hr]
  exact if_congr (and_congr_right' (Bool.not_eq_true _ ▸ Iff.rfl)) rfl rfl

/-- A PADDOCK record that is dropped is counted. -/
theorem Dev.dropPaddock_spec (d : Dev) (r e0 n ch tag payload : Nat) (inj b : Bool) :
    ((d.evtIf b (TQ_STAT_FULL r)).dropData r (.paddock e0 n ch tag payload inj)).rd (TQ_DROP_DROP r) = (d.rd (TQ_DROP_DROP r) + 1) % 2 ^ 32 ∧
      ((d.evtIf b (TQ_STAT_FULL r)).dropData r (.paddock e0 n ch tag payload inj)).flag (TQ_STAT_DROP r) = true ∧
      (b = true → ((d.evtIf b (TQ_STAT_FULL r)).dropData r (.paddock e0 n ch tag payload inj)).flag (TQ_STAT_FULL r) = true) ∧
      ((d.evtIf b (TQ_STAT_FULL r)).dropData r (.paddock e0 n ch tag payload inj)).sram = d.sram ∧
      ((d.evtIf b (TQ_STAT_FULL r)).dropData r (.paddock e0 n ch tag payload inj)).rd (TQ_HEAD_HEAD r) = d.rd (TQ_HEAD_HEAD r) ∧
      ((d.evtIf b (TQ_STAT_FULL r)).dropData r (.paddock e0 n ch tag payload inj)).jobs = d.jobs := by
  have hdrop : ∀ x : Dev, x.dropData r (.paddock e0 n ch tag payload inj) = (x.bump (TQ_DROP_DROP r)).evt (TQ_STAT_DROP r) := fun _ => rfl
  have hbits : (TQ_STAT_FULL r).Bit ∧ (TQ_STAT_DROP r).Bit := ⟨⟨rfl, show 6 < 24 by decide⟩, ⟨rfl, show 2 < 24 by decide⟩⟩
  have haddr : (TQ_DROP_DROP r).addr ≠ rTQ_STAT r ∧ rTQ_STAT r ≠ (TQ_DROP_DROP r).addr ∧ (TQ_HEAD_HEAD r).addr ≠ rTQ_STAT r ∧
      (TQ_HEAD_HEAD r).addr ≠ (TQ_DROP_DROP r).addr := by
    simp only [TQ_DROP_DROP, TQ_HEAD_HEAD, rTQ_DROP, rTQ_STAT, rTQ_HEAD]
    omega
  rw [hdrop]
  obtain ⟨h1, h2, h3⟩ := d.evtIf_parts b (TQ_STAT_FULL r)
  have hfull : b = true → (d.evtIf b (TQ_STAT_FULL r)).flag (TQ_STAT_FULL r) = true := fun hb => by
    subst hb
    exact Dev.flag_evt_self d _ rfl hbits.1.low
  generalize d.evtIf b (TQ_STAT_FULL r) = x at h1 h2 h3 hfull
  have hcount := x.bump_rd (f := TQ_DROP_DROP r) ⟨Nat.zero_le _, show 31 < 32 by decide⟩
  have hother : ∀ f : Fld, f.addr ≠ (TQ_DROP_DROP r).addr → (x.bump (TQ_DROP_DROP r)).rd f = x.rd f := fun f hf => Dev.rd_wr_of_ne _ _ _ _ hf
  have hj := (Dev.bump_jobs x (TQ_DROP_DROP r)).trans h2
  have hm := (Dev.bump_sram x (TQ_DROP_DROP r)).trans h1
  generalize x.bump (TQ_DROP_DROP r) = y at hcount hother hj hm
  refine ⟨?_, Dev.flag_evt_self y _ rfl hbits.2.low, fun hb => Dev.flag_evt_mono hbits.1 hbits.2 ?_, (Dev.evt_sram ..).trans hm, ?_,
    (Dev.evt_jobs ..).trans hj⟩
  · rw [Dev.rd_evt_of_ne _ _ _ haddr.1, hcount, h3 _ haddr.1]
    rfl
  · exact (Dev.flag_of_rd (hother _ haddr.2.1)).trans (hfull hb)
  · rw [Dev.rd_evt_of_ne _ _ _ haddr.2.2.1, hother _ haddr.2.2.2, h3 _ haddr.2.2.1]

end

/-! ### The commands of a ring -/

theorem Dev.markBad_slots (ks : List Nat) (d : Dev) : ∃ l, d.markBad ks = { d with jobs := { d.jobs with slots := l } } := by
  induction ks generalizing d with
  | nil => exact ⟨d.jobs.slots, rfl⟩
  | cons k t ih =>
    rw [Dev.markBad_cons]
    cases d.job k with
    | none => exact ih d
    | some j =>
      rw [Option.elim_some]
      split
      · exact ih d
      · obtain ⟨l, hl⟩ := ih (d.setJob k (some { j with bad := true }))
        exact ⟨l, hl⟩

/-- A completion record that waits for space: the data records behind it are dropped, and its job keeps its result. -/
theorem Dev.stallRing_spec {d : Dev} {r : Nat} {w : WRec} (rest : List WRec) (hr : r < 16) (hl : r < d.jobs.rings.length) {e0 k : Nat}
    (hw : w = .completion e0 k) :
    (d.stallRing r w rest).flag (TQ_STAT_FULL r) = true ∧ (d.stallRing r w rest).rd (TQ_HEAD_HEAD r) = d.rd (TQ_HEAD_HEAD r) ∧
      (∀ k dn, (d.job k).bind Job.done = some dn → ((d.stallRing r w rest).job k).bind Job.done = some dn) ∧
      ∃ q, ((d.stallRing r w rest).ring r).wq = w :: q ∧ q.any WRec.isData = false := by
  have hflag := Dev.flag_evt_self d (TQ_STAT_FULL r) rfl (show 6 < 24 by decide)
  have hhead := Dev.rd_evt_of_ne d (TQ_STAT_FULL r) (TQ_HEAD_HEAD r) (by simp only [TQ_STAT_FULL, TQ_HEAD_HEAD, rTQ_STAT, rTQ_HEAD]; omega)
  have hjobs := Dev.evt_jobs d (TQ_STAT_FULL r)
  unfold Dev.stallRing
  dsimp only
  generalize d.evt (TQ_STAT_FULL r) = x at hflag hhead hjobs
  have hself := Dev.ring_setRing_self (d := x) (r := r) (fun g => { g with wq := w :: rest.filter fun x => !x.isData }) (by rw [hjobs]; exact hl)
  have hflag' : (x.setRing r fun g => { g with wq := w :: rest.filter fun x => !x.isData }).flag (TQ_STAT_FULL r) = true := hflag
  have hhead' : (x.setRing r fun g => { g with wq := w :: rest.filter fun x => !x.isData }).rd (TQ_HEAD_HEAD r) = d.rd (TQ_HEAD_HEAD r) := hhead
  have hjob : ∀ k, (x.setRing r fun g => { g with wq := w :: rest.filter fun x => !x.isData }).job k = d.job k := fun k => by
    unfold Dev.job
    exact (congrArg (fun j : Jobs => j.slots.getD k none) hjobs :)
  generalize (x.setRing r fun g => { g with wq := w :: rest.filter fun x => !x.isData }) = y at hself hflag' hhead' hjob
  have hwq := congrArg Ring.wq hself
  have hcomp : (y.ring r).hasCompletion = true := by
    unfold Ring.hasCompletion
    rw [hwq, hw]
    rfl
  have hstands := RingStands.dropAll hr hcomp (rest.filter WRec.isData)
  refine ⟨hstands.full hflag', hstands.head.trans hhead', fun k dn h => hstands.done k dn (by rw [hjob]; exact h), rest.filter fun x => !x.isData,
    (congrArg Ring.wq hstands.ring).trans hwq, ?_⟩
  rw [List.any_eq_false]
  intro x hx
  simpa using (List.mem_filter.mp hx).2

/-- Settles O47: the turn of the record at the head of the write queue, data or completion. -/
theorem ringsWriteRecords : Obligations.RingsWriteRecords := by
  intro s dt r seq a rest ecc behind hr hrun hlen hedge hend hbehind hseq ha
  obtain ⟨l, hu⟩ := (s.dev.advance dt).markBad_slots ecc
  obtain ⟨-, -, hjobs⟩ := (s.dev.advance dt).markBad_spec ecc
  have hlive : ((s.dev.advance dt).markBad ecc).live = s.dev.live := by rw [hu]; rfl
  have hrings : ((s.dev.advance dt).markBad ecc).jobs.rings = s.dev.jobs.rings := by rw [hu]; rfl
  have hclk : ((s.dev.advance dt).markBad ecc).clk = (s.dev.advance dt).clk := by rw [hu]
  have hsram : ((s.dev.advance dt).markBad ecc).sram = s.dev.sram := by rw [hu]; rfl
  have take : ∀ P : Dev → Prop, P (((s.dev.advance dt).markBad ecc).ringTake r) → Effects (.ringRecordWrite dt r ecc) s P := fun P hp => by
    refine Effects.of_run (f := within r 16 (Dev.whenNow Dev.ringsRun fun d => (d.markBad ecc).ringRecordWrite r)) rfl ?_
    rw [within_of_lt hr, Dev.whenNow_pos (show Dev.ringsRun (s.dev.advance dt) = true from hrun)]
    unfold Dev.ringRecordWrite
    rw [if_neg (by rw [Dev.ring_congr hrings, hclk]; exact hedge)]
    exact hp
  generalize (s.dev.advance dt).markBad ecc = u at hlive hrings hsram hjobs take
  have hring : u.ring r = s.dev.ring r := Dev.ring_congr hrings r
  have hrd : ∀ f, u.rd f = s.dev.rd f := Dev.rd_congr hlive
  have hfree : u.ringFree r = s.dev.ringFree r := by unfold Dev.ringFree Dev.ringSize Dev.ringCount; simp only [hrd]
  have hul : r < u.jobs.rings.length := by rw [hrings]; exact hlen
  have haddr : a = (u.setRing r fun g => { g with wq := rest }).recAddr r ((u.setRing r fun g => { g with wq := rest }).rd (TQ_HEAD_HEAD r)) := by
    have hl : (u.setRing r fun g => { g with wq := rest }).live = s.dev.live := hlive
    rw [recAddr_congr hl, Dev.rd_congr hl, ← hseq]
    exact ha
  have hhead : (u.setRing r fun g => { g with wq := rest }).rd (TQ_HEAD_HEAD r) = seq := (hrd _).trans hseq.symm
  have hpl : r < (u.setRing r fun g => { g with wq := rest }).jobs.rings.length := by rw [Dev.rings_setRing]; exact hul
  have hpwq : ((u.setRing r fun g => { g with wq := rest }).ring r).wq = rest := congrArg Ring.wq (Dev.ring_setRing_self _ hul)
  refine ⟨fun e0 n ch tag payload inj hwq => ?_, fun e0 k j dn hwq hk hj hdn => ?_, fun t ht => if_pos ht⟩
  · have hturn : u.ringTake r = if 2 ≤ u.ringFree r ∧ ({ u.ring r with wq := rest } : Ring).hasEpoch = false then
        (u.setRing r fun g => { g with wq := rest }).writeRecord r (recHead false false false false inj false 5 ch) tag payload
        else ((u.setRing r fun g => { g with wq := rest }).evtIf (decide (u.ringFree r = 0)) (TQ_STAT_FULL r)).dropData r
          (.paddock e0 n ch tag payload inj) := by
      refine Eq.trans ?_ (Dev.dataTurn_eq hul _)
      unfold Dev.ringTake
      rw [hring, hwq]
    rw [hfree, hring, ← hbehind] at hturn
    refine ⟨fun h2 hb => take _ ?_, fun h => take _ ?_⟩
    · rw [hturn, if_pos ⟨h2, hb⟩]
      have hrec := Dev.writeRecord_recorded _ hpl (recHead false false false false inj false 5 ch) tag payload
      generalize Dev.writeRecord r _ tag payload _ = e at hrec
      obtain ⟨w1, w2, w3, w4⟩ := hrec.words haddr hend
      rw [hhead] at w1
      refine ⟨w1, w2, w3, w4, fun b hb => (hrec.outside haddr hb).trans ?_, hrec.head.trans ?_, hrec.wq.trans hpwq⟩
      · exact congrArg (fun m => ByteMem.get m 0 b) hsram
      · rw [hhead]
    · rw [hturn, if_neg fun ⟨h2, hb⟩ => h.elim (fun h => absurd h2 (by omega)) fun h => Bool.noConfusion (h.symm.trans hb)]
      obtain ⟨h1, h2, h3, h4, h5, h6⟩ := Dev.dropPaddock_spec (u.setRing r fun g => { g with wq := rest }) r e0 n ch tag payload inj
        (decide (s.dev.ringFree r = 0))
      generalize Dev.dropData r (.paddock e0 n ch tag payload inj) _ = e at h1 h2 h3 h4 h5 h6
      refine ⟨h1.trans ?_, h2, fun h0 => h3 (decide_eq_true h0), h4.trans hsram, h5.trans hhead, ?_⟩
      · exact congrArg (fun v => (v + 1) % 2 ^ 32) (hrd _)
      · exact (congrArg Ring.wq (Dev.ring_congr (congrArg Jobs.rings h6) r)).trans hpwq
  · have hjob : u.job k = some j := by
      rw [hjobs, show (s.dev.advance dt).job k = s.dev.job k from rfl, hj]
      have hmark : j.marked = j := if_pos (by rw [hdn]; rfl)
      simp [hmark]
    have hturn : u.ringTake r = if 0 < u.ringFree r then
        (((u.setRing r fun g => { g with wq := rest }).writeRecord r
          (recHead (j.recEarly dn) dn.tmo dn.near dn.abort j.inj dn.rst j.kind.recType j.recCh) j.tag (j.recPayload dn)).setJob k none).settleRing r
        else u.stallRing r (.completion e0 k) rest := by
      unfold Dev.ringTake
      rw [hring, hwq]
      dsimp only
      rw [hjob]
      dsimp only
      rw [hdn]
      rfl
    rw [hfree] at hturn
    refine ⟨fun h => take _ ?_, fun h => take _ ?_⟩
    · rw [hturn, if_pos h]
      have hrec := Dev.writeRecord_recorded _ hpl (recHead (j.recEarly dn) dn.tmo dn.near dn.abort j.inj dn.rst j.kind.recType j.recCh) j.tag
        (j.recPayload dn)
      generalize Dev.writeRecord r _ j.tag _ _ = e at hrec
      obtain ⟨-, w2, -⟩ := hrec.words haddr hend
      have hsettle := JobsSettle.settleRing r (e.setJob k none)
      have hword := hsettle.word (rTQ_HEAD r) (by unfold rTQ_HEAD rMEAS_Q_ERR; omega)
        (not_firingReg_ring (by unfold rTQ_HEAD; omega) (by unfold rTQ_HEAD; omega))
      refine ⟨(Dev.sramWord_congr hsettle.sram _).trans w2, Eq.trans ?_ (hrec.head.trans (by rw [hhead])), hsettle.free k ?_⟩
      · unfold Dev.rd
        exact congrArg (fun w : Word => bitsOf w.toNat 15 0) hword
      · refine Dev.job_setJob_self none ?_
        rw [hrec.slots]
        exact Dev.lt_of_job hjob
    · rw [hturn, if_neg (by omega)]
      obtain ⟨h1, h2, h3, h4⟩ := Dev.stallRing_spec (d := u) (w := .completion e0 k) rest hr hul rfl
      exact ⟨h1, h3 k dn (by rw [hjob]; exact hdn), h2.trans ((hrd _).trans hseq.symm), h4⟩

end Sys2Proof.Machine
end

section
/-!
PROOF. The pool serves its uses (02 R42 to R44, R52, R53; O41).
-/

namespace Sys2Proof.Machine

/-! ### Cells -/

section
variable {d : Dev} {k n : Nat}

theorem Dev.cell_setCell_self (f : Cell → Cell) (h : k < d.meas.cells.length) : (d.setCell k f).cell k = f (d.cell k) :=
  getD_updAt_self f Cell.fresh h

theorem Dev.cell_setCell_of_ne (f : Cell → Cell) (h : k ≠ n) : (d.setCell n f).cell k = d.cell k :=
  getD_updAt_of_ne f Cell.fresh h

/-- What no update of a cell changes, the cell keeps. -/
theorem Dev.cell_setCell_of_same {α : Type} (g : Cell → α) {f : Cell → Cell} (h : g (f (d.cell n)) = g (d.cell n)) :
    g ((d.setCell n f).cell k) = g (d.cell k) := by
  by_cases hk : k = n
  · subst hk
    by_cases hl : k < d.meas.cells.length
    · rw [Dev.cell_setCell_self f hl, h]
    · have hout : ∀ l : List Cell, ¬ k < l.length → l.getD k Cell.fresh = Cell.fresh := fun l hl =>
        List.getD_eq_default _ _ (Nat.le_of_not_lt hl)
      unfold Dev.cell
      rw [hout _ hl, hout]
      rw [show (d.setCell k f).meas.cells.length = d.meas.cells.length from List.length_modify ..]
      exact hl
  · rw [Dev.cell_setCell_of_ne f hk]

theorem Dev.cells_setCell (f : Cell → Cell) : (d.setCell k f).meas.cells.length = d.meas.cells.length := List.length_modify ..

theorem Dev.mem_cellsWhere {p : Cell → Bool} : k ∈ d.cellsWhere p ↔ k < 48 ∧ p (d.cell k) = true := by
  unfold Dev.cellsWhere
  rw [List.mem_filter, List.mem_range]

theorem Dev.cellsWhere_none {p : Cell → Bool} (h : ∀ k, p (d.cell k) = false) : d.cellsWhere p = [] := by
  unfold Dev.cellsWhere
  simp [h]

/-- A cell that stands in no longer is otherwise as it was. -/
theorem Dev.cell_relieve (p : Cell → Bool) (d : Dev) (k : Nat) : (d.relieve p).cell k =
    if (d.cell k).standIn && p (d.cell k) then { d.cell k with standIn := false, armed := none } else d.cell k := by
  unfold Dev.cell
  by_cases hk : k < d.meas.cells.length
  · rw [List.getD_eq_getElem _ _ hk, List.getD_eq_getElem _ _ (show k < (d.relieve p).meas.cells.length by
      rw [show (d.relieve p).meas.cells.length = d.meas.cells.length from List.length_map ..]; exact hk)]
    exact List.getElem_map ..
  · rw [List.getD_eq_default _ _ (Nat.le_of_not_lt hk), List.getD_eq_default _ _ (show (d.relieve p).meas.cells.length ≤ k by
      rw [show (d.relieve p).meas.cells.length = d.meas.cells.length from List.length_map ..]; exact Nat.le_of_not_lt hk)]
    exact (if_neg (by simp [Cell.fresh])).symm

/-- A field that standing in does not touch. -/
theorem Dev.cell_relieve_same {α : Type} (g : Cell → α) (h : ∀ c : Cell, g { c with standIn := false, armed := none } = g c) (p : Cell → Bool) (d : Dev) (k : Nat) :
    g ((d.relieve p).cell k) = g (d.cell k) := by
  rw [Dev.cell_relieve]
  split
  · exact h _
  · rfl

end

/-! ### The pool's pass where no loop, handover or pilot asks (R52) -/

section
variable {d : Dev}

theorem Dev.foldl_id {α : Type} (l : List α) {f : Dev → α → Dev} (h : ∀ a ∈ l, f d a = d) : l.foldl f d = d := by
  induction l with
  | nil => rfl
  | cons a t ih =>
    rw [List.foldl_cons, h a (List.mem_cons_self ..)]
    exact ih fun b hb => h b (List.mem_cons_of_mem _ hb)

theorem Dev.disarmIdle_of_none (h : ∀ i, (d.cell i).armed = none) : d.disarmIdle = d := by
  unfold Dev.disarmIdle forN
  refine Dev.foldl_id _ fun k _ => ?_
  dsimp only
  rw [h k]

theorem Dev.serveLoops_of_none (h : ∀ ch < 64, d.claimed ch = false) : d.serveLoops = d := by
  have hwant : (List.range 64).filter (fun ch => decide ((d.loopCells ch).length < d.loopNeed ch)) = [] := by
    refine List.filter_eq_nil_iff.mpr fun ch hch => ?_
    have hneed : d.loopNeed ch = 0 := if_pos (by rw [h ch (List.mem_range.mp hch)]; decide)
    rw [hneed]
    simp
  unfold Dev.serveLoops
  dsimp only
  rw [hwant]
  rfl

theorem Dev.startHandover_of_none (h : ∀ i, (d.cell i).role ≠ .loop) : d.startHandover = d := by
  have hfind : (d.meas.dueOrder.find? fun k => (d.cell k).overdue && (d.cell k).role = .loop) = none := by
    refine List.find?_eq_none.mpr fun k _ => ?_
    simp [h k]
  unfold Dev.startHandover
  rw [hfind]

theorem Dev.servePilots_of_none (h : ∀ i, (d.cell i).pilotDue = false) : d.servePilots = d := by
  unfold Dev.servePilots
  dsimp only
  have hfree : forN 48 (fun k d => d.when ((d.cell k).pilotDue && (d.cell k).free) (Dev.startPilot k)) d = d := by
    unfold forN
    refine Dev.foldl_id _ fun k _ => ?_
    dsimp only
    rw [h k]
    rfl
  rw [hfree]
  unfold forN
  refine Dev.foldl_id _ fun k _ => ?_
  unfold Dev.pilotOn
  exact if_pos (Or.inl (by rw [h k]; decide))

end

/-- The run of a calibration and the roles of the cells stand. -/
structure RolesKept (d e : Dev) : Prop where
  role : ∀ k, (e.cell k).role = (d.cell k).role
  calRun : e.meas.calRun = d.meas.calRun

namespace RolesKept

theorem refl (d : Dev) : RolesKept d d := ⟨fun _ => rfl, rfl⟩

theorem trans {d e f : Dev} (h : RolesKept d e) (h' : RolesKept e f) : RolesKept d f :=
  ⟨fun k => (h'.role k).trans (h.role k), h'.calRun.trans h.calRun⟩

theorem armCell (k ch : Nat) (d : Dev) : RolesKept d (d.armCell k ch) :=
  ⟨fun i => (Dev.cell_relieve_same Cell.role (fun _ => rfl) _ _ i).trans (Dev.cell_setCell_of_same Cell.role rfl), rfl⟩

theorem armRound (d : Dev) : RolesKept d d.armRound := by
  unfold Dev.armRound
  dsimp only
  refine List.foldlRecOn (motive := RolesKept d) _ _ (refl d) fun x hx i _ => hx.trans ?_
  split
  · split
    · next k _ => exact (armCell k _ x).trans ⟨fun _ => rfl, rfl⟩
    · exact refl x
  · exact refl x

theorem serveArming (d : Dev) : RolesKept d d.serveArming := (armRound d).trans (armRound _)

end RolesKept

/-! ### The cells of a handover and of a pilot -/

section
variable {d : Dev} {k : Nat}

/-- Cell `k` leaves a calibration. -/
def Dev.dropCal (k : Nat) (d : Dev) : Dev :=
  match d.meas.calRun with
  | some r => if r.cell = k then { d with meas := { d.meas with calRun := none } } else d
  | none => d

/-- Cell `k` leaves a handover. -/
def Dev.dropHandover (k : Nat) (d : Dev) : Dev :=
  match d.meas.handover with
  | some h =>
    if h.old = k ∨ h.new = k then ({ d with meas := { d.meas with handover := none } } : Dev).setCell h.new fun c => { c with armed := none }
    else d
  | none => d

theorem Dev.dropUses_eq (k : Nat) (d : Dev) : d.dropUses k = (d.dropCal k).dropHandover k := rfl

theorem Dev.dropCal_cells (k : Nat) (d : Dev) : (d.dropCal k).meas.cells = d.meas.cells := by
  unfold Dev.dropCal
  split
  · split <;> rfl
  · rfl

/-- A cell that leaves its uses keeps all but what it is armed on. -/
theorem Dev.cell_dropUses_same {α : Type} (g : Cell → α) (h : ∀ c : Cell, g { c with armed := none } = g c) (k i : Nat) (d : Dev) :
    g ((d.dropUses k).cell i) = g (d.cell i) ∧ (d.dropUses k).meas.cells.length = d.meas.cells.length := by
  have hcells := d.dropCal_cells k
  rw [Dev.dropUses_eq]
  generalize d.dropCal k = x at hcells
  have hcell : x.cell i = d.cell i := congrArg (fun l : List Cell => l.getD i Cell.fresh) hcells
  rw [← hcell, ← hcells]
  unfold Dev.dropHandover
  split
  · split
    · exact ⟨Dev.cell_setCell_of_same (d := { x with meas := { x.meas with handover := none } }) g (h _), List.length_modify ..⟩
    · exact ⟨rfl, rfl⟩
  · exact ⟨rfl, rfl⟩

/-- A cell that starts its pilot. -/
theorem Dev.cell_startPilot (h : k < d.meas.cells.length) : (d.startPilot k).cell k =
    { d.cell k with pilot := some (d.cell k).pilotPos, pilotPos := ((d.cell k).pilotPos + 1) % 8, pilotDue := false, armed := none } :=
  Dev.cell_setCell_self _ h

/-- A pilot that is due on a loop cell (R43, R44). -/
theorem Dev.pilotDueOn_loop (hm : d.measuring = true) (hk : k < d.meas.cells.length) (hr : (d.cell k).role = .loop) :
    (d.pilotDueOn k).cell k = if d.nextFar (loopIdx (d.cell k)) (d.cell k).stream = true ∧ (d.cell k).busy = false ∧ (d.cell k).pilot = none then
      { d.cell k with pilot := some (d.cell k).pilotPos, pilotPos := ((d.cell k).pilotPos + 1) % 8, pilotDue := false, armed := none }
      else { d.cell k with pilotDue := true } := by
  have hself := Dev.cell_setCell_self (d := d) (fun c => { c with pilotDue := true }) hk
  have hlen := Dev.cells_setCell (d := d) (k := k) (fun c => { c with pilotDue := true })
  have hdue : d.pilotDueOn k = (d.setCell k fun c => { c with pilotDue := true }).when (d.nextFar (loopIdx (d.cell k)) (d.cell k).stream)
      (Dev.pilotAfter k) := by
    unfold Dev.pilotDueOn
    dsimp only
    rw [if_neg (by simp [hm]), hr]
  rw [hdue]
  generalize (d.setCell k fun c => { c with pilotDue := true }) = x at hself hlen
  have hafter : x.pilotAfter k = x.when (!(d.cell k).busy && (d.cell k).pilot.isNone) (Dev.startPilot k) := by
    unfold Dev.pilotAfter
    dsimp only
    rw [hself]
    simp [hr]
  by_cases h : d.nextFar (loopIdx (d.cell k)) (d.cell k).stream = true ∧ (d.cell k).busy = false ∧ (d.cell k).pilot = none
  · obtain ⟨hfar, hb, hp⟩ := h
    rw [if_pos ⟨hfar, hb, hp⟩, hfar, Dev.when_true, hafter]
    have hyes : (!(d.cell k).busy && (d.cell k).pilot.isNone) = true := by rw [hb, hp]; rfl
    rw [hyes, Dev.when_true, Dev.cell_startPilot (by rw [hlen]; exact hk), hself]
  · rw [if_neg h, ← hself]
    cases hfar : d.nextFar (loopIdx (d.cell k)) (d.cell k).stream with
    | false => rfl
    | true =>
      have hno : (!(d.cell k).busy && (d.cell k).pilot.isNone) = false := by
        simp only [hfar, true_and] at h
        cases hb : (d.cell k).busy <;> cases hp : (d.cell k).pilot <;> simp_all
      rw [Dev.when_true, hafter, hno]
      rfl

/-- A cell that is bound to a loop stream, with what of it the binding names. -/
theorem Dev.cell_bindLoop (hk : k < d.meas.cells.length) (ch half : Nat) :
    ((d.bindLoop k ch half).cell k).role = .loop ∧ ((d.bindLoop k ch half).cell k).stream = ch ∧
      ((d.bindLoop k ch half).cell k).half = half ∧ (d.bindLoop k ch half).meas.cells.length = d.meas.cells.length := by
  have hself := Dev.cell_setCell_self (d := d) (fun c => { c with role := .loop, stream := ch, half := half, armed := none }) hk
  have hlen := Dev.cells_setCell (d := d) (k := k) (fun c => { c with role := .loop, stream := ch, half := half, armed := none })
  unfold Dev.bindLoop
  generalize (d.setCell k fun c => { c with role := .loop, stream := ch, half := half, armed := none }) = x at hself hlen
  refine ⟨?_, ?_, ?_, (List.length_map ..).trans hlen⟩
  · rw [Dev.cell_relieve_same Cell.role (fun _ => rfl), hself]
  · rw [Dev.cell_relieve_same Cell.stream (fun _ => rfl), hself]
  · rw [Dev.cell_relieve_same Cell.half (fun _ => rfl), hself]

/-- A cell taken for calibration, which is no retest. -/
theorem Dev.startCal_spec (hk : k < d.meas.cells.length) : ((d.startCal k false).cell k).role = .cal ∧
    (d.startCal k false).meas.calRun = some ⟨k, d.clk.tclk, false, false⟩ ∧ (d.startCal k false).meas.handover = d.meas.handover ∧
      ∀ i, i ≠ k → (d.startCal k false).cell i = d.cell i := by
  have hself := Dev.cell_setCell_self (d := d) (fun c => { c with role := .cal, armed := none, pilotDue := false }) hk
  refine ⟨?_, rfl, rfl, fun i hi => ?_⟩
  · exact (congrArg Cell.role hself :)
  · exact (Dev.cell_setCell_of_ne (d := d) (fun c => { c with role := .cal, armed := none, pilotDue := false }) hi :)

/-- An overdue free cell is taken where nothing of a higher rank asks (R52 order 4). -/
theorem Dev.poolAllocate_overdue (hm : d.measuring = true) (hclaim : ∀ ch < 64, d.claimed ch = false)
    (hcells : ∀ i, (d.cell i).armed = none ∧ (d.cell i).role ≠ .loop ∧ (d.cell i).pilotDue = false) (hbusy : d.calBusy = false)
    (hfind : (d.meas.dueOrder.find? fun i => (d.cell i).overdue && (d.cell i).free) = some k) (hk : k < d.meas.cells.length) :
    d.poolAllocate.meas.calRun = some ⟨k, d.clk.tclk, false, false⟩ ∧ (d.poolAllocate.cell k).role = .cal := by
  obtain ⟨hrole, hrun, -, -⟩ := Dev.startCal_spec (d := d) hk
  have hover : d.serveOverdue = d.startCal k false := by
    unfold Dev.serveOverdue
    rw [if_neg (by rw [hbusy]; decide), hfind]
  have harm := RolesKept.serveArming (d.startCal k false)
  have hdue : ((d.startCal k false).serveArming).serveDue = (d.startCal k false).serveArming := by
    have hcal : ((d.startCal k false).serveArming).calBusy = true := by
      unfold Dev.calBusy
      rw [harm.calRun, hrun]
      simp
    unfold Dev.serveDue
    exact if_pos (Or.inr (Or.inr (Or.inl hcal)))
  unfold Dev.poolAllocate
  rw [if_neg (by simp [hm])]
  dsimp only
  rw [Dev.disarmIdle_of_none fun i => (hcells i).1, Dev.serveLoops_of_none hclaim, Dev.startHandover_of_none fun i => (hcells i).2.1,
    Dev.servePilots_of_none fun i => (hcells i).2.2, hover, hdue]
  split <;> exact ⟨harm.calRun.trans hrun, (harm.role k).trans hrole⟩

/-- A pilot that has waited takes its job cell (R44). -/
theorem Dev.pilotWaitExpiry_spec (hm : d.measuring = true) (hk : k < d.meas.cells.length) (hr : (d.cell k).role = .job)
    (hdue : (d.cell k).pilotDue = true) (hb : (d.cell k).busy = false) (hp : (d.cell k).pilot = none) :
    ((d.pilotWaitExpiry k).cell k).pilot = some (d.cell k).pilotPos ∧ ((d.pilotWaitExpiry k).cell k).armed = none := by
  have htake : d.pilotWaitExpiry k = (d.dropUses k).startPilot k := by
    unfold Dev.pilotWaitExpiry
    dsimp only
    rw [hm, hdue, hr, hb, hp]
    rfl
  obtain ⟨hpos, hlen⟩ := Dev.cell_dropUses_same Cell.pilotPos (fun _ => rfl) k k d
  rw [htake, Dev.cell_startPilot (by rw [hlen]; exact hk), hpos]
  exact ⟨rfl, rfl⟩

/-- The handover of a slow stream (R53). -/
theorem Dev.handoverSlow_spec {h : Handover} (hm : d.measuring = true) (hh : d.meas.handover = some h) (hold : h.old < d.meas.cells.length)
    (hnew : h.new < d.meas.cells.length) (hne : h.old ≠ h.new) (hslow : d.slowStream h.chan = true)
    (hfar : d.nextFar (loopIdx (d.cell h.old)) h.chan = true) :
    (d.handoverSlow.cell h.new).role = .loop ∧ (d.handoverSlow.cell h.new).stream = h.chan ∧
      (d.handoverSlow.cell h.new).half = (d.cell h.old).half ∧ (d.handoverSlow.cell h.old).role = .cal ∧
      d.handoverSlow.meas.handover = none ∧ d.handoverSlow.meas.calRun = some ⟨h.old, d.clk.tclk, false, false⟩ := by
  have htake : d.handoverSlow =
      (({ d with meas := { d.meas with handover := none } } : Dev).bindLoop h.new h.chan (d.cell h.old).half).startCal h.old false := by
    unfold Dev.handoverSlow
    rw [hh]
    dsimp only
    rw [if_neg (by simp [hm, hslow, hfar])]
  obtain ⟨hrole, hstream, hhalf, hlen⟩ := Dev.cell_bindLoop (d := { d with meas := { d.meas with handover := none } }) hnew h.chan (d.cell h.old).half
  have hnone : (({ d with meas := { d.meas with handover := none } } : Dev).bindLoop h.new h.chan (d.cell h.old).half).meas.handover = none := rfl
  have hclk : (({ d with meas := { d.meas with handover := none } } : Dev).bindLoop h.new h.chan (d.cell h.old).half).clk = d.clk := rfl
  rw [htake]
  generalize ({ d with meas := { d.meas with handover := none } } : Dev).bindLoop h.new h.chan (d.cell h.old).half = x at hrole hstream hhalf hlen hnone hclk
  obtain ⟨hcal, hrun, hkept, hother⟩ := Dev.startCal_spec (d := x) (k := h.old) (by rw [hlen]; exact hold)
  rw [hother h.new (Ne.symm hne), ← hclk]
  exact ⟨hrole, hstream, hhalf, hcal, hkept.trans hnone, hrun⟩

theorem Dev.judgeBlocked_overdue (d : Dev) (k i : Nat) : ((d.judgeBlocked k).cell i).overdue = (d.cell i).overdue := by
  have hevt : ∀ b, (d.evtIf b MEAS_STAT_CAL_BLOCKED).meas = d.meas := fun b => by
    cases b
    · rfl
    · exact Dev.evt_meas ..
  refine (Dev.cell_setCell_of_same Cell.overdue rfl).trans ?_
  unfold Dev.cell
  rw [hevt]

/-- A due cell becomes overdue (R42). -/
theorem Dev.calDeferExpiry_spec (hm : d.measuring = true) (hk : k < d.meas.cells.length) (hdue : (d.cell k).due = true)
    (hover : (d.cell k).overdue = false) :
    ((d.calDeferExpiry k).cell k).overdue = true ∧ (d.calDeferExpiry k).flag MEAS_STAT_CAL_OVERDUE = true ∧ Fired 18 d (d.calDeferExpiry k) := by
  have hself := congrArg Cell.overdue (Dev.cell_setCell_self (d := d) (fun c => { c with overdue := true }) hk)
  have hseq : (d.setCell k fun c => { c with overdue := true }).rd FLT_SEQNO_COUNT = d.rd FLT_SEQNO_COUNT := Dev.rd_congr rfl _
  have htake : d.calDeferExpiry k =
      ((((d.setCell k fun c => { c with overdue := true }).evt MEAS_STAT_CAL_OVERDUE)).when ((d.cell k).role = .loop) (Dev.judgeBlocked k)).fire 18 k := by
    unfold Dev.calDeferExpiry
    dsimp only
    rw [if_neg (by simp [hm, hdue, hover])]
  rw [htake]
  generalize (d.setCell k fun c => { c with overdue := true }) = x at hself hseq
  have hcell : (x.evt MEAS_STAT_CAL_OVERDUE).cell k = x.cell k := by
    unfold Dev.cell
    rw [Dev.evt_meas]
  have hflag := Dev.flag_evt_self x MEAS_STAT_CAL_OVERDUE rfl (by decide)
  have hcount := Dev.rd_evt_of_ne x MEAS_STAT_CAL_OVERDUE FLT_SEQNO_COUNT (by decide)
  generalize x.evt MEAS_STAT_CAL_OVERDUE = y at hcell hflag hcount
  have hblocked : ∀ b, ((y.when b (Dev.judgeBlocked k)).cell k).overdue = (y.cell k).overdue ∧
      (y.when b (Dev.judgeBlocked k)).rd FLT_SEQNO_COUNT = y.rd FLT_SEQNO_COUNT ∧
      (y.when b (Dev.judgeBlocked k)).flag MEAS_STAT_CAL_OVERDUE = true := fun b => by
    have hframe : PoolFrame y (y.when b (Dev.judgeBlocked k)) := PoolFrame.when b (PoolFrame.judgeBlocked k y)
    refine ⟨?_, ?_, hframe.bit _ ⟨⟨rfl, by decide⟩, Or.inl rfl⟩ hflag⟩ <;> cases b
    · rfl
    · exact y.judgeBlocked_overdue k k
    · rfl
    · exact ((OnlyRegs.refl (fun a => a = rMEAS_STAT) y).evtIf _ MEAS_STAT_CAL_BLOCKED rfl).rd FLT_SEQNO_COUNT (by decide)
  obtain ⟨h1, h2, h3⟩ := hblocked (decide ((d.cell k).role = .loop))
  generalize y.when (decide ((d.cell k).role = .loop)) (Dev.judgeBlocked k) = z at h1 h2 h3
  have hfire := Still.fireAs 18 k none false false z
  refine ⟨?_, (hfire.flag _ (by unfold FiringReg FireReg CapReg ReactReg; decide)).trans h3,
    (Dev.fireAs_fired 18 k none false false z (by decide)).of_rd (h2.trans (hcount.trans hseq))⟩
  have hz : (z.fire 18 k).cell k = z.cell k := by
    unfold Dev.cell
    rw [show (z.fire 18 k).meas = z.meas from hfire.meas]
  rw [hz, h1, hcell, hself]

end

/-- Settles O41: by the use that the pool serves. -/
theorem poolServesItsUses : Obligations.PoolServesItsUses := by
  intro s dt k hm hk hlen
  have hma : Dev.measuring (s.dev.advance dt) = true := hm
  have measuring : ∀ (c : Instr) (f : Dev → Dev) (P : Dev → Prop), exec c s = run dt (Dev.whenNow Dev.measuring f) s →
      P (f (s.dev.advance dt)) → Effects c s P := fun c f P hrun hp => by
    refine Effects.of_run hrun ?_
    rw [Dev.whenNow_pos hma]
    exact hp
  refine ⟨fun hclaim hcells hbusy hfind => ?_, ⟨fun hr => ?_, fun hr hb => ?_, fun hr hb hp => ⟨fun hf => ?_, fun hf => ?_⟩⟩,
    fun hr hdue hb hp => ?_, fun h hh hold hnew hne far hfar => ⟨fun hslow ht => ?_, fun hno => ?_⟩, fun hdue hover => ?_, fun hfree => ?_⟩
  · refine measuring _ Dev.poolAllocate _ rfl ?_
    exact Dev.poolAllocate_overdue hma hclaim hcells hbusy hfind hlen
  · refine Effects.of_measuring (f := Dev.pilotDueOn k) rfl hk hm ?_
    have hself := Dev.cell_setCell_self (d := s.dev.advance dt) (fun c => { c with pilotDue := true }) hlen
    have hdue : (s.dev.advance dt).pilotDueOn k = (s.dev.advance dt).setCell k fun c => { c with pilotDue := true } := by
      unfold Dev.pilotDueOn
      dsimp only
      rw [if_neg (by simp [hma]), show ((s.dev.advance dt).cell k).role = .job from hr]
    rw [hdue, hself]
    exact ⟨rfl, rfl⟩
  · refine Effects.of_measuring (f := Dev.pilotDueOn k) rfl hk hm ?_
    rw [Dev.pilotDueOn_loop hma hlen hr, if_neg fun h => Bool.noConfusion (h.2.1.symm.trans hb)]
    exact ⟨rfl, rfl⟩
  · refine Effects.of_measuring (f := Dev.pilotDueOn k) rfl hk hm ?_
    rw [Dev.pilotDueOn_loop hma hlen hr, if_pos ⟨hf, hb, hp⟩]
    exact ⟨rfl, rfl, rfl⟩
  · refine Effects.of_measuring (f := Dev.pilotDueOn k) rfl hk hm ?_
    rw [Dev.pilotDueOn_loop hma hlen hr, if_neg fun h => Bool.noConfusion (h.1.symm.trans hf)]
    exact ⟨rfl, hp⟩
  · refine Effects.of_measuring (f := Dev.pilotWaitExpiry k) rfl hk hm ?_
    exact Dev.pilotWaitExpiry_spec hma hlen hr hdue hb hp
  · refine measuring _ Dev.handoverSlow _ rfl ?_
    exact Dev.handoverSlow_spec (d := s.dev.advance dt) hma hh hold hnew hne hslow (hfar.symm.trans ht)
  · refine measuring _ Dev.handoverSlow _ rfl ?_
    have hstay : (s.dev.advance dt).handoverSlow = s.dev.advance dt := by
      unfold Dev.handoverSlow
      rw [show (s.dev.advance dt).meas.handover = some h from hh]
      dsimp only
      refine if_pos (Or.inr ?_)
      rcases hno with hs | hf
      · exact Or.inl (by rw [show (s.dev.advance dt).slowStream h.chan = false from hs]; decide)
      · exact Or.inr (by rw [show (s.dev.advance dt).nextFar (loopIdx ((s.dev.advance dt).cell h.old)) h.chan = false from hfar.symm.trans hf]; decide)
    rw [hstay]
  · refine Effects.of_measuring (f := Dev.calDeferExpiry k) rfl hk hm ?_
    obtain ⟨h1, h2, h3⟩ := Dev.calDeferExpiry_spec hma hlen hdue hover
    exact ⟨h1, h2, h3.advance⟩
  · refine measuring _ Dev.calIdleExpiry _ rfl ?_
    unfold Dev.calIdleExpiry
    rw [if_neg (by simp [hma, show ((s.dev.advance dt).cellsWhere Cell.free).isEmpty = false from hfree])]

end Sys2Proof.Machine
end

section
/-!
PROOF. Edges of a channel: the decimator, the cells they find, and the edges that are lost (02 R46, R50, R55, R71; O39).
-/

namespace Sys2Proof.Machine

/-! ### A forwarded edge that gives no timestamp -/

theorem Dev.fmEach_parts (ch : Nat) (f : Bool → FmWin → FmWin) (d : Dev) : (d.fmEach ch f).meas = d.meas ∧ (d.fmEach ch f).live = d.live ∧
    (d.fmEach ch f).alive = d.alive := by
  have all : ∀ (b : Bool) (x : Dev), (forN 12 (fun n d => d.setRef n fun m => { m with win := m.win.map (f b) }) x).meas = x.meas ∧
      (forN 12 (fun n d => d.setRef n fun m => { m with win := m.win.map (f b) }) x).live = x.live ∧
      (forN 12 (fun n d => d.setRef n fun m => { m with win := m.win.map (f b) }) x).alive = x.alive := fun b x =>
    List.foldlRecOn (motive := fun y : Dev => y.meas = x.meas ∧ y.live = x.live ∧ y.alive = x.alive) _ _ ⟨rfl, rfl, rfl⟩ fun _ h _ _ => h
  unfold Dev.fmEach
  dsimp only
  split
  · exact ⟨rfl, rfl, rfl⟩
  · split
    · split
      · exact ⟨rfl, rfl, rfl⟩
      · exact all false _
    · split
      · split
        · exact all false _
        · exact ⟨rfl, rfl, rfl⟩
      · exact ⟨rfl, rfl, rfl⟩

theorem Dev.lostEdge_parts (ch arr tag : Nat) (d : Dev) : (d.lostEdge ch arr tag).meas = d.meas ∧ (d.lostEdge ch arr tag).live = d.live ∧
    (d.lostEdge ch arr tag).alive = d.alive :=
  Dev.fmEach_parts ch (fun isRef => FmWin.miss isRef arr) (d.jobsLost ch arr tag)

/-! ### The start of an event's conversions (R32) -/

section
variable {d : Dev} {ch arr : Nat}

theorem Dev.startCells_eq (ks : List Nat) (f : Cell → Cell) (d : Dev) :
    ∃ l, ks.foldl (fun d k => d.setCell k f) d = { d with meas := { d.meas with cells := l } } := by
  induction ks generalizing d with
  | nil => exact ⟨d.meas.cells, rfl⟩
  | cons k t ih =>
    obtain ⟨l, hl⟩ := ih (d.setCell k f)
    exact ⟨l, hl⟩

/-- The event that an edge starts on the listed cells. -/
def Dev.newEvent (d : Dev) (ch arr tag mseq : Nat) (ks : List Nat) : Event :=
  ⟨ch, arr, tag, mseq, d.rdS (MCH_TRIM_TRIM ch), d.clk.tclk + 2, false, 0, d.clk.inc, none, ks.map fun k => (k, Part.waiting), none⟩

theorem Dev.startEvent_parts (d : Dev) (ch arr tag mseq : Nat) (ks : List Nat) :
    (d.startEvent ch arr tag mseq ks none).meas.events = d.meas.events ++ [d.newEvent ch arr tag mseq ks] ∧
      (d.startEvent ch arr tag mseq ks none).live = d.live ∧ (d.startEvent ch arr tag mseq ks none).alive = d.alive := by
  obtain ⟨l, hl⟩ := Dev.startCells_eq ks (fun c => { c with
    busy := true, pilot := none, pilotDue := c.pilotDue || c.pilot.isSome, armed := if c.standIn then c.armed else none }) d
  unfold Dev.startEvent
  dsimp only
  rw [hl]
  exact ⟨rfl, rfl, rfl⟩

/-! ### What a forwarded edge leaves -/

/-- The device after FWD and the time of the last forwarded edge. -/
def Dev.forwarded (ch i arr : Nat) (d : Dev) : Dev := (d.bump (MCH_FWD_FWD ch)).setChan i fun c => { c with lastFwd := some arr }

theorem Dev.forwarded_parts (ch i arr : Nat) (d : Dev) :
    (d.forwarded ch i arr).rd (MCH_FWD_FWD ch) = (d.rd (MCH_FWD_FWD ch) + 1) % 2 ^ 32 ∧
      (∀ f : Fld, f.addr ≠ rMCH_FWD ch → (d.forwarded ch i arr).rd f = d.rd f) ∧
      (d.forwarded ch i arr).meas.events = d.meas.events ∧ (d.forwarded ch i arr).meas.cells = d.meas.cells ∧
      (d.forwarded ch i arr).meas.handover = d.meas.handover ∧ (d.forwarded ch i arr).clk = d.clk ∧ (d.forwarded ch i arr).alive = d.alive := by
  refine ⟨?_, fun f hf => ?_, ?_, ?_, ?_, rfl, rfl⟩
  · exact (Dev.rd_congr rfl _).trans (Dev.bump_rd d (f := MCH_FWD_FWD ch) ⟨Nat.zero_le _, show 31 < 32 by decide⟩)
  · exact (Dev.rd_congr rfl _).trans (Dev.rd_wr_of_ne d (MCH_FWD_FWD ch) f _ hf)
  all_goals rfl

/-- An arrival within `span` of an earlier one. -/
def soon (arr : Nat) (o : Option Nat) (span : Nat) : Bool :=
  match o with
  | some t => decide (arr < t + span)
  | none => false

theorem soon_eq_false {arr : Nat} {o : Option Nat} {span : Nat} (h : ∀ t, o = some t → t + span ≤ arr) : soon arr o span = false := by
  cases o with
  | none => rfl
  | some t => exact decide_eq_false (Nat.not_lt.mpr (h t rfl))

/-- An edge that breaks the dead time, or the spacing of a loop stream (R46, R49). -/
def Dev.edgeLate (ch : Nat) (dead viol : Bool) (d : Dev) : Dev × Bool :=
  let d := (d.lose ch).evtIf dead (MCH_STAT_DEAD_TIME ch)
  let d := d.evtIf viol (MCH_STAT_LOST ch)
  (d.evtIf viol MEAS_STAT_LOOP_LOST, viol)

/-- The cells that take an edge of a loop stream (R49, R55). -/
def Dev.loopTakers (d : Dev) (ch tag : Nat) : List Nat :=
  match (d.loopCells ch).filter fun k => !(d.cell k).busy && (decide (tag = 0) || decide ((d.cell k).half + 1 = tag)) with
  | [] => (d.standIns ch).filter fun k => !(d.cell k).busy && (decide (tag = 0) || decide ((d.cell k).half + 1 = tag))
  | l => l

/-- An edge reaches the cells of a loop stream (R49, R53). -/
def Dev.loopEdge (ch arr tag mseq : Nat) (d : Dev) : Dev × Bool :=
  match d.loopTakers ch tag with
  | [] => ((d.lose ch).evt MEAS_STAT_LOOP_LOST, false)
  | _ =>
    match d.handoverPart ch with
    | some h =>
      if (d.loopTakers ch tag).contains h.old then (d.startEvent ch arr tag mseq (d.loopTakers ch tag ++ [h.new]) (some h.new), false)
      else (d.startEvent ch arr tag mseq (d.loopTakers ch tag) none, false)
    | none => (d.startEvent ch arr tag mseq (d.loopTakers ch tag) none, false)

/-- The cells that take an edge of a channel that jobs use (R50, R55). -/
def Dev.jobTakers (d : Dev) (ch : Nat) : List Nat :=
  match d.armedOn ch with
  | [] => (d.standIns ch).filter fun k => !(d.cell k).busy
  | l => l

/-- An edge reaches the cells of a channel without a loop stream (R50, R57). -/
def Dev.jobEdge (ch arr tag mseq : Nat) (d : Dev) : Dev × Bool :=
  match d.jobTakers ch with
  | [] => (((d.lose ch).evt (MCH_STAT_NO_CELL ch)).evt MEAS_STAT_JOB_STARVED, false)
  | ks => (d.startEvent ch arr tag mseq ks none, false)

theorem Dev.forwardEdge_eq (d : Dev) (ch arr tag mseq : Nat) : d.forwardEdge ch arr tag mseq =
    if (soon arr (d.chan (chanIdx ch tag)).lastFwd 163840 || (d.claimed ch && soon arr (d.chan (chanIdx ch tag)).lastConv (500 * 65536))) = true then
      (d.forwarded ch (chanIdx ch tag) arr).edgeLate ch (soon arr (d.chan (chanIdx ch tag)).lastFwd 163840)
        (d.claimed ch && soon arr (d.chan (chanIdx ch tag)).lastConv (500 * 65536))
    else if (d.forwarded ch (chanIdx ch tag) arr).claimed ch = true then (d.forwarded ch (chanIdx ch tag) arr).loopEdge ch arr tag mseq
    else if (d.forwarded ch (chanIdx ch tag) arr).losesEdges ch = true then (d.forwarded ch (chanIdx ch tag) arr).jobEdge ch arr tag mseq
    else (d.forwarded ch (chanIdx ch tag) arr, false) := rfl

theorem chanIdx_zero (ch : Nat) : chanIdx ch 0 = ch := rfl

/-- The registers and the events that an edge within the dead time leaves. -/
theorem Dev.forwardEdge_dead (hc : d.claimed ch = false) {t : Nat} (hl : (d.chan ch).lastFwd = some t) (h : arr < t + 163840) :
    ∃ e, d.forwardEdge ch arr 0 0 = (e, false) ∧ e.rd (MCH_FWD_FWD ch) = (d.rd (MCH_FWD_FWD ch) + 1) % 2 ^ 32 ∧
      e.rd (MCH_LOST_LOST ch) = (d.rd (MCH_LOST_LOST ch) + 1) % 2 ^ 32 ∧ e.flag (MCH_STAT_DEAD_TIME ch) = true ∧
      e.meas.events = d.meas.events := by
  have hsoon : soon arr (d.chan ch).lastFwd 163840 = true := by rw [hl]; exact decide_eq_true h
  obtain ⟨hfwd, hother, hev, -⟩ := d.forwarded_parts ch ch arr
  refine ⟨((d.forwarded ch ch arr).lose ch).evt (MCH_STAT_DEAD_TIME ch), ?_, ?_, ?_, Dev.flag_evt_self _ _ rfl (show 1 < 24 by decide), ?_⟩
  · rw [Dev.forwardEdge_eq, chanIdx_zero, hsoon, hc, if_pos (by rfl)]
    rfl
  · rw [Dev.rd_evt_of_ne _ _ _ (by simp only [MCH_FWD_FWD, MCH_STAT_DEAD_TIME, rMCH_FWD, rMCH_STAT]; omega)]
    exact (Dev.rd_wr_of_ne _ _ _ _ (by simp only [MCH_FWD_FWD, MCH_LOST_LOST, rMCH_FWD, rMCH_LOST]; omega)).trans hfwd
  · rw [Dev.rd_evt_of_ne _ _ _ (by simp only [MCH_LOST_LOST, MCH_STAT_DEAD_TIME, rMCH_LOST, rMCH_STAT]; omega)]
    refine (Dev.bump_rd _ (f := MCH_LOST_LOST ch) ⟨Nat.zero_le _, show 31 < 32 by decide⟩).trans ?_
    rw [hother _ (by simp only [MCH_LOST_LOST, rMCH_FWD, rMCH_LOST]; omega)]
    rfl
  · rw [Dev.evt_meas]
    exact hev

/-- An edge outside the dead time of a channel without a loop stream finds its cells, or none. -/
theorem Dev.forwardEdge_job (hc : d.claimed ch = false) (h : ∀ t, (d.chan ch).lastFwd = some t → t + 163840 ≤ arr) :
    ∃ e, d.forwardEdge ch arr 0 0 = (e, false) ∧ e.rd (MCH_FWD_FWD ch) = (d.rd (MCH_FWD_FWD ch) + 1) % 2 ^ 32 ∧
      (d.jobTakers ch = [] → e.rd (MCH_LOST_LOST ch) = (d.rd (MCH_LOST_LOST ch) + 1) % 2 ^ 32 ∧ e.flag (MCH_STAT_NO_CELL ch) = true ∧
        e.flag MEAS_STAT_JOB_STARVED = true) ∧
      (d.jobTakers ch ≠ [] → e.rd (MCH_LOST_LOST ch) = d.rd (MCH_LOST_LOST ch) ∧
        e.meas.events = d.meas.events ++ [d.newEvent ch arr 0 0 (d.jobTakers ch)]) := by
  obtain ⟨hfwd, hother, hev, -⟩ := d.forwarded_parts ch ch arr
  have hclaim : (d.forwarded ch ch arr).claimed ch = false := by
    unfold Dev.claimed
    rw [Dev.flag_of_rd (hother (MCH_CFG_CLAIMED ch) (by simp only [MCH_CFG_CLAIMED, rMCH_CFG, rMCH_FWD]; omega))]
    exact hc
  have hlose : (d.forwarded ch ch arr).losesEdges ch = true := by
    unfold Dev.losesEdges
    rw [hclaim]
    rfl
  have htakers : (d.forwarded ch ch arr).jobTakers ch = d.jobTakers ch := rfl
  have hedge : d.forwardEdge ch arr 0 0 = (d.forwarded ch ch arr).jobEdge ch arr 0 0 := by
    rw [Dev.forwardEdge_eq, chanIdx_zero, soon_eq_false h, hc, if_neg (by simp), if_neg (by rw [hclaim]; decide), if_pos hlose]
  have hnew : (d.forwarded ch ch arr).newEvent ch arr 0 0 (d.jobTakers ch) = d.newEvent ch arr 0 0 (d.jobTakers ch) := by
    unfold Dev.newEvent Dev.rdS
    rw [hother (MCH_TRIM_TRIM ch) (by simp only [MCH_TRIM_TRIM, rMCH_TRIM, rMCH_FWD]; omega)]
    rfl
  rw [hedge]
  unfold Dev.jobEdge
  rw [htakers]
  generalize d.forwarded ch ch arr = x at hfwd hother hev hnew
  cases hks : d.jobTakers ch with
  | nil =>
    refine ⟨_, rfl, ?_, fun _ => ⟨?_, ?_, Dev.flag_evt_self _ _ rfl (by decide)⟩, fun h => absurd rfl h⟩
    · rw [Dev.rd_evt_of_ne _ _ _ (by simp only [MCH_FWD_FWD, MEAS_STAT_JOB_STARVED, rMCH_FWD, rMEAS_STAT]; omega),
        Dev.rd_evt_of_ne _ _ _ (by simp only [MCH_FWD_FWD, MCH_STAT_NO_CELL, rMCH_FWD, rMCH_STAT]; omega)]
      exact (Dev.rd_wr_of_ne _ _ _ _ (by simp only [MCH_FWD_FWD, MCH_LOST_LOST, rMCH_FWD, rMCH_LOST]; omega)).trans hfwd
    · rw [Dev.rd_evt_of_ne _ _ _ (by simp only [MCH_LOST_LOST, MEAS_STAT_JOB_STARVED, rMCH_LOST, rMEAS_STAT]; omega),
        Dev.rd_evt_of_ne _ _ _ (by simp only [MCH_LOST_LOST, MCH_STAT_NO_CELL, rMCH_LOST, rMCH_STAT]; omega)]
      refine (Dev.bump_rd _ (f := MCH_LOST_LOST ch) ⟨Nat.zero_le _, show 31 < 32 by decide⟩).trans ?_
      rw [hother _ (by simp only [MCH_LOST_LOST, rMCH_FWD, rMCH_LOST]; omega)]
      rfl
    · rw [Dev.flag_evt_of_ne _ _ _ (by simp only [MCH_STAT_NO_CELL, MEAS_STAT_JOB_STARVED, rMCH_STAT, rMEAS_STAT]; omega)]
      exact Dev.flag_evt_self _ _ rfl (show 2 < 24 by decide)
  | cons k ks =>
    obtain ⟨h1, h2, -⟩ := x.startEvent_parts ch arr 0 0 (k :: ks)
    refine ⟨_, rfl, (Dev.rd_congr h2 _).trans hfwd, nofun, fun _ => ⟨?_, ?_⟩⟩
    · exact (Dev.rd_congr h2 _).trans (hother _ (by simp only [MCH_LOST_LOST, rMCH_FWD, rMCH_LOST]; omega))
    · rw [h1, hev, ← hks, hnew]

/-- An edge of a loop stream that one cell takes. -/
theorem Dev.forwardEdge_loop {tag mseq k : Nat} (hc : d.claimed ch = true) (h : ∀ t, (d.chan (chanIdx ch tag)).lastFwd = some t → t + 163840 ≤ arr)
    (h' : ∀ t, (d.chan (chanIdx ch tag)).lastConv = some t → t + 500 * 65536 ≤ arr)
    (hcells : (d.loopCells ch).filter (fun i => !(d.cell i).busy && (decide (tag = 0) || decide ((d.cell i).half + 1 = tag))) = [k])
    (hho : d.meas.handover = none) :
    ∃ e, d.forwardEdge ch arr tag mseq = (e, false) ∧ e.rd (MCH_FWD_FWD ch) = (d.rd (MCH_FWD_FWD ch) + 1) % 2 ^ 32 ∧
      e.meas.events = d.meas.events ++ [d.newEvent ch arr tag mseq [k]] ∧ e.alive = d.alive := by
  obtain ⟨hfwd, hother, hev, -, hhand, -, halive⟩ := d.forwarded_parts ch (chanIdx ch tag) arr
  have hclaim : (d.forwarded ch (chanIdx ch tag) arr).claimed ch = true := by
    unfold Dev.claimed
    rw [Dev.flag_of_rd (hother (MCH_CFG_CLAIMED ch) (by simp only [MCH_CFG_CLAIMED, rMCH_CFG, rMCH_FWD]; omega))]
    exact hc
  have hedge : d.forwardEdge ch arr tag mseq = (d.forwarded ch (chanIdx ch tag) arr).loopEdge ch arr tag mseq := by
    rw [Dev.forwardEdge_eq, soon_eq_false h, soon_eq_false h', hc, if_neg (by decide), if_pos hclaim]
  have htakers : (d.forwarded ch (chanIdx ch tag) arr).loopTakers ch tag = [k] := by
    have hsame : ((d.forwarded ch (chanIdx ch tag) arr).loopCells ch).filter (fun i => !((d.forwarded ch (chanIdx ch tag) arr).cell i).busy &&
        (decide (tag = 0) || decide (((d.forwarded ch (chanIdx ch tag) arr).cell i).half + 1 = tag))) = [k] := hcells
    unfold Dev.loopTakers
    rw [hsame]
  have hnew : (d.forwarded ch (chanIdx ch tag) arr).newEvent ch arr tag mseq [k] = d.newEvent ch arr tag mseq [k] := by
    unfold Dev.newEvent Dev.rdS
    rw [hother (MCH_TRIM_TRIM ch) (by simp only [MCH_TRIM_TRIM, rMCH_TRIM, rMCH_FWD]; omega)]
    rfl
  have hpart : (d.forwarded ch (chanIdx ch tag) arr).handoverPart ch = none := by
    unfold Dev.handoverPart
    rw [hhand, hho]
  rw [hedge]
  unfold Dev.loopEdge
  rw [htakers, hpart]
  obtain ⟨h1, h2, h3⟩ := (d.forwarded ch (chanIdx ch tag) arr).startEvent_parts ch arr tag mseq [k]
  exact ⟨_, rfl, (Dev.rd_congr h2 _).trans hfwd, by rw [h1, hev, hnew], h3.trans halive⟩

end

/-! ### The edge that arrives (R46) -/

section
variable {d : Dev} {ch sub : Nat}

theorem Dev.chan_setChan_self (f : Chan → Chan) (h : ch < d.meas.chans.length) : (d.setChan ch f).chan ch = f (d.chan ch) :=
  getD_updAt_self f Chan.fresh h

/-- An edge of a channel of REFIN, or of a channel that is known to be alive: what it leaves is what the channel leaves. -/
theorem Dev.edgeOn_parts {e : Dev} (h : d.channelEdge ch (d.arrival sub) 0 0 = (e, false)) (ha : ch < 12 ∨ 20 ≤ ch ∧ e.alive.contains ch = true) :
    (d.edgeOn ch sub 0 0).meas = e.meas ∧ (d.edgeOn ch sub 0 0).live = e.live := by
  unfold Dev.edgeOn
  dsimp only
  rw [h]
  dsimp only
  rw [Bool.false_and]
  have hlost : ∀ b : Bool, (e.when b (Dev.lostEdge ch (e.arrival sub) 0)).meas = e.meas ∧ (e.when b (Dev.lostEdge ch (e.arrival sub) 0)).live = e.live ∧
      (e.when b (Dev.lostEdge ch (e.arrival sub) 0)).alive = e.alive := fun b => by
    cases b
    · exact ⟨rfl, rfl, rfl⟩
    · exact Dev.lostEdge_parts ..
  generalize (decide (e.rd (MCH_FWD_FWD ch) ≠ d.rd (MCH_FWD_FWD ch)) && decide (e.meas.events.length = d.meas.events.length)) = b
  obtain ⟨h1, h2, h3⟩ := hlost b
  generalize e.when b (Dev.lostEdge ch (e.arrival sub) 0) = x at h1 h2 h3
  have hx : x.when false (Dev.refViolation ch) = x := rfl
  rw [hx]
  split
  · next hb =>
    rcases ha with hlow | ⟨hhigh, hal⟩
    · simp only [Bool.and_eq_true, decide_eq_true_eq] at hb
      omega
    · rw [if_neg (by omega), h3, if_pos hal]
      exact ⟨h1, h2⟩
  · exact ⟨h1, h2⟩

/-- The times of its last edges do not depend on a channel's count. -/
theorem Dev.chan_recount (d : Dev) (ch n : Nat) : ((d.setChan ch fun c => { c with count := n }).chan ch).lastFwd = (d.chan ch).lastFwd ∧
    ((d.setChan ch fun c => { c with count := n }).chan ch).lastConv = (d.chan ch).lastConv := by
  by_cases h : ch < d.meas.chans.length
  · rw [Dev.chan_setChan_self _ h]
    exact ⟨rfl, rfl⟩
  · have hout : (d.setChan ch fun c => { c with count := n }).chan ch = d.chan ch := by
      have hlen : (d.setChan ch fun c => { c with count := n }).meas.chans.length = d.meas.chans.length := List.length_modify ..
      unfold Dev.chan
      rw [List.getD_eq_default _ _ (by rw [hlen]; exact Nat.le_of_not_lt h), List.getD_eq_default _ _ (Nat.le_of_not_lt h)]
    rw [hout]
    exact ⟨rfl, rfl⟩

theorem Dev.channelEdge_counts (hm : d.measuring = true) (arr : Nat) (h : (d.chan ch).count + 1 < d.rd (MCH_DEC_DEC ch)) :
    d.channelEdge ch arr 0 0 = (d.setChan ch fun c => { c with count := (d.chan ch).count + 1 }, false) := by
  unfold Dev.channelEdge
  rw [if_neg (by simp [hm])]
  exact if_pos h

theorem Dev.channelEdge_forwards (hm : d.measuring = true) (arr tag mseq : Nat) (h : d.rd (MCH_DEC_DEC ch) ≤ (d.chan (chanIdx ch tag)).count + 1) :
    d.channelEdge ch arr tag mseq = (d.setChan (chanIdx ch tag) fun c => { c with count := 0 }).forwardEdge ch arr tag mseq := by
  unfold Dev.channelEdge
  rw [if_neg (by simp [hm])]
  exact if_neg (Nat.not_lt.mpr h)

end

/-- Settles O39: a channel of REFIN edge by edge, then the internal channel of an edge generator. -/
theorem channelEdgesAreForwarded : Obligations.ChannelEdgesAreForwarded := by
  refine ⟨fun s dt ch sub arr hch harr => ⟨fun hm => ?_, fun hm hc => ?_⟩, fun s dt n sub ch arr k hn hm hch => ⟨fun hv => ?_,
    fun hv hal hc hcells hb hho hdec harr hfwd hconv => ?_⟩⟩
  · refine Effects.of_run (f := Dev.whenNow (fun d => d.takesEdge ch) fun d => (d.evinSeen ch).teed ch fun c => Dev.edgeOn c sub 0 0) rfl ?_
    unfold Dev.whenNow
    rw [if_neg]
    unfold Dev.takesEdge
    dsimp only
    rw [show Dev.measuring (s.dev.advance dt) = false from hm]
    simp
  · have edge : ∀ P : Dev → Prop, P ((s.dev.advance dt).edgeOn ch sub 0 0) → Effects (.channelEdge dt ch sub) s P := fun P hp => by
      refine Effects.of_run (f := Dev.whenNow (fun d => d.takesEdge ch) fun d => (d.evinSeen ch).teed ch fun c => Dev.edgeOn c sub 0 0) rfl ?_
      have htakes : (s.dev.advance dt).takesEdge ch = true := by
        unfold Dev.takesEdge
        rw [show Dev.measuring (s.dev.advance dt) = true from hm]
        simp only [Bool.true_and, Bool.and_eq_true, Bool.not_eq_true', decide_eq_true_eq, Bool.and_eq_false_iff, decide_eq_false_iff_not]
        omega
      have hseen : (s.dev.advance dt).evinSeen ch = s.dev.advance dt := by
        unfold Dev.evinSeen
        rw [decide_eq_false (by omega : ¬ 46 ≤ ch)]
        rfl
      have hteed : ∀ (f : Nat → Dev → Dev) (d : Dev), d.teed ch f = f ch d := fun f d => by
        unfold Dev.teed
        dsimp only
        rw [if_neg (by omega), if_neg (by omega)]
      rw [Dev.whenNow_pos (p := fun d => d.takesEdge ch) htakes]
      rw [hseen, hteed]
      exact hp
    have harrive : (s.dev.advance dt).arrival sub = arr := harr.symm
    refine ⟨fun hcount hlen => edge _ ?_, fun hdec => ⟨fun t ht hlt => edge _ ?_, fun hfar ks hks => ?_⟩⟩
    · obtain ⟨h1, h2⟩ := Dev.edgeOn_parts (Dev.channelEdge_counts (d := s.dev.advance dt) hm ((s.dev.advance dt).arrival sub) hcount) (Or.inl hch)
      have hself := Dev.chan_setChan_self (d := s.dev.advance dt) (fun c => { c with count := ((s.dev.advance dt).chan ch).count + 1 }) hlen
      refine ⟨?_, (congrArg Meas.events h1 :), Dev.rd_congr h2 _⟩
      exact (congrArg (fun m : Meas => (m.chans.getD ch Chan.fresh).count) h1).trans (congrArg Chan.count hself)
    · obtain ⟨hlast, -⟩ := (s.dev.advance dt).chan_recount ch 0
      obtain ⟨e, he, h1, h2, h3, h4⟩ := Dev.forwardEdge_dead (d := (s.dev.advance dt).setChan ch fun c => { c with count := 0 }) (ch := ch) hc
        (hlast.trans ht) hlt
      rw [← harrive] at he
      obtain ⟨hmeas, hlive⟩ := Dev.edgeOn_parts ((Dev.channelEdge_forwards (d := s.dev.advance dt) hm _ 0 0 hdec).trans he) (Or.inl hch)
      exact ⟨(Dev.rd_congr hlive _).trans h1, (Dev.rd_congr hlive _).trans h2, (Dev.flag_congr hlive _).trans h3, (congrArg Meas.events hmeas).trans h4⟩
    · obtain ⟨hlast, -⟩ := (s.dev.advance dt).chan_recount ch 0
      obtain ⟨e, he, h1, h2, h3⟩ := Dev.forwardEdge_job (d := (s.dev.advance dt).setChan ch fun c => { c with count := 0 }) (ch := ch) (arr := arr) hc
        fun t ht => hfar t (hlast.symm.trans ht)
      rw [← harrive] at he
      obtain ⟨hmeas, hlive⟩ := Dev.edgeOn_parts ((Dev.channelEdge_forwards (d := s.dev.advance dt) hm _ 0 0 hdec).trans he) (Or.inl hch)
      have htakers : ((s.dev.advance dt).setChan ch fun c => { c with count := 0 }).jobTakers ch = ks := hks.symm
      rw [htakers] at h2 h3
      refine ⟨fun h0 => edge _ ?_, fun hne => edge _ ?_⟩
      · obtain ⟨a1, a2, a3⟩ := h2 h0
        exact ⟨(Dev.rd_congr hlive _).trans h1, (Dev.rd_congr hlive _).trans a1, (Dev.flag_congr hlive _).trans a2, (Dev.flag_congr hlive _).trans a3⟩
      · obtain ⟨a1, a2⟩ := h3 hne
        exact ⟨(Dev.rd_congr hlive _).trans h1, (Dev.rd_congr hlive _).trans a1, (congrArg Meas.events hmeas).trans a2⟩
  · refine Effects.of_run (f := within n 16 (Dev.whenNow Dev.measuring (Dev.edgeGenWrap n sub))) rfl ?_
    rw [within_of_lt hn, Dev.whenNow_pos (show Dev.measuring (s.dev.advance dt) = true from hm)]
    unfold Dev.edgeGenWrap
    rw [if_neg (by rw [show (s.dev.advance dt).flag (PAD_CFG_EG_V n) = false from hv]; decide)]
  · refine Effects.of_run (f := within n 16 (Dev.whenNow Dev.measuring (Dev.edgeGenWrap n sub))) rfl ?_
    have hwrap : (s.dev.advance dt).edgeGenWrap n sub = (s.dev.advance dt).edgeOn ch sub 0 0 := by
      unfold Dev.edgeGenWrap
      rw [if_pos (show (s.dev.advance dt).flag (PAD_CFG_EG_V n) = true from hv), hch]
      rfl
    rw [within_of_lt hn, Dev.whenNow_pos (show Dev.measuring (s.dev.advance dt) = true from hm), hwrap]
    have hfilter : ((s.dev.advance dt).loopCells ch).filter (fun i => !((s.dev.advance dt).cell i).busy &&
        (decide (0 = 0) || decide (((s.dev.advance dt).cell i).half + 1 = 0))) = [k] := by
      have hfree : ((s.dev.advance dt).cell k).busy = false := hb
      rw [show (s.dev.advance dt).loopCells ch = [k] from hcells, List.filter_cons_of_pos (by rw [hfree]; rfl), List.filter_nil]
    obtain ⟨hlastF, hlastC⟩ := (s.dev.advance dt).chan_recount ch 0
    obtain ⟨e, he, h1, h2, h3⟩ := Dev.forwardEdge_loop (d := (s.dev.advance dt).setChan ch fun c => { c with count := 0 }) (ch := ch) (arr := arr) (tag := 0)
      (mseq := 0) hc (fun t ht => hfwd t (hlastF.symm.trans ht)) (fun t ht => hconv t (hlastC.symm.trans ht)) hfilter hho
    rw [show arr = (s.dev.advance dt).arrival sub from harr] at he
    obtain ⟨hmeas, hlive⟩ := Dev.edgeOn_parts ((Dev.channelEdge_forwards (d := s.dev.advance dt) hm _ 0 0 hdec).trans he)
      (Or.inr ⟨by omega, (congrArg (fun l : List Nat => l.contains ch) h3).trans hal⟩)
    exact ⟨(Dev.rd_congr hlive _).trans h1, (congrArg Meas.events hmeas).trans h2⟩

end Sys2Proof.Machine
end

section
/-!
PROOF. A quarantined cell through the pool's pass (02 R52, R54; O40).
-/

namespace Sys2Proof.Machine

/-! ### Which cells the pool takes for another role (R52, R57) -/

section
variable {d : Dev} {k ch : Nat}

theorem Cell.role_of_free {c : Cell} (h : c.free = true) : c.role = .job := by
  simp only [Cell.free, Bool.and_eq_true, decide_eq_true_eq] at h
  exact h.1.1.1

/-- The last of a list that is preferred over those before it is one of the list. -/
theorem foldl_pick_mem {p : Nat → Nat → Prop} [DecidableRel p] (l : List Nat) (b : Option Nat) {k : Nat}
    (h : l.foldl (fun b k => match b with | none => some k | some j => if p j k then some k else some j) b = some k) : k ∈ l ∨ b = some k := by
  induction l generalizing b with
  | nil => exact Or.inr h
  | cons i t ih =>
    rw [List.foldl_cons] at h
    rcases ih _ h with ht | hb
    · exact Or.inl (List.mem_cons_of_mem _ ht)
    · cases b with
      | none => cases hb; exact Or.inl (List.mem_cons_self ..)
      | some j =>
        dsimp only at hb
        split at hb
        · cases hb; exact Or.inl (List.mem_cons_self ..)
        · exact Or.inr hb

theorem Dev.pickReplacement_job (h : d.pickReplacement = some k) : (d.cell k).role = .job := by
  have hmem : k ∈ d.cellsWhere Cell.free := by
    unfold Dev.pickReplacement at h
    dsimp only at h
    split at h
    · next i t heq =>
      cases h
      have : k ∈ (d.cellsWhere Cell.free).filter fun k => !(d.cell k).due := by rw [heq]; exact List.mem_cons_self ..
      exact (List.mem_filter.mp this).1
    · rcases foldl_pick_mem (p := fun j k => (d.cell j).calEnd < (d.cell k).calEnd) _ none h with hm | hn
      · exact hm
      · cases hn
  exact Cell.role_of_free (Dev.mem_cellsWhere.mp hmem).2

/-- A cell found by a test that fails for quarantined cells. -/
theorem Dev.role_of_mem {p : Cell → Bool} (hp : ∀ c : Cell, c.role = .quar → p c = false) (h : k ∈ d.cellsWhere p) : (d.cell k).role ≠ .quar :=
  fun hq => Bool.noConfusion ((hp _ hq).symm.trans (Dev.mem_cellsWhere.mp h).2)

theorem Dev.stealFor_role (first : Bool) (h : d.stealFor ch first = some k) : (d.cell k).role ≠ .quar := by
  unfold Dev.stealFor at h
  dsimp only at h
  split at h
  · next i t heq =>
    cases h
    exact Dev.role_of_mem (fun c hq => by rw [hq]; rfl) (heq ▸ List.mem_cons_self ..)
  · split at h
    · next i hi =>
      cases h
      rcases foldl_pick_mem (p := fun j k => (d.cell j).stream < (d.cell k).stream) _ none hi with hm | hn
      · exact Dev.role_of_mem (fun c hq => by rw [hq]; rfl) hm
      · cases hn
    · split at h
      · rcases foldl_pick_mem (p := fun j k => (d.cell j).stream < (d.cell k).stream) _ none h with hm | hn
        · exact Dev.role_of_mem (fun c hq => by rw [hq]; rfl) hm
        · cases hn
      · cases h

end

/-! ### A quarantined cell stays so through the pool's pass -/

/-- Cell `k` is quarantined with a fault code. -/
def Quarantined (k f : Nat) (d : Dev) : Prop := (d.cell k).role = .quar ∧ (d.cell k).fault = f

namespace Quarantined

variable {d : Dev} {k f : Nat}

theorem congr {e : Dev} (h : Quarantined k f d) (hm : e.meas.cells = d.meas.cells) : Quarantined k f e := by
  unfold Quarantined Dev.cell at h ⊢
  rwa [hm]

/-- An update of a cell that leaves role and fault. -/
theorem setSame (h : Quarantined k f d) (i : Nat) {g : Cell → Cell} (hr : ∀ c, (g c).role = c.role) (hf : ∀ c, (g c).fault = c.fault) :
    Quarantined k f (d.setCell i g) :=
  ⟨(Dev.cell_setCell_of_same Cell.role (hr _)).trans h.1, (Dev.cell_setCell_of_same Cell.fault (hf _)).trans h.2⟩

/-- An update of another cell. -/
theorem setOther (h : Quarantined k f d) {i : Nat} (hi : (d.cell i).role ≠ .quar) (g : Cell → Cell) : Quarantined k f (d.setCell i g) := by
  have hne : k ≠ i := fun e => hi (e ▸ h.1)
  unfold Quarantined
  rw [Dev.cell_setCell_of_ne g hne]
  exact h

theorem relieve (h : Quarantined k f d) (p : Cell → Bool) : Quarantined k f (d.relieve p) :=
  ⟨(Dev.cell_relieve_same Cell.role (fun _ => rfl) p d k).trans h.1, (Dev.cell_relieve_same Cell.fault (fun _ => rfl) p d k).trans h.2⟩

theorem foldl {α : Type} (h : Quarantined k f d) (l : List α) {g : Dev → α → Dev} (hg : ∀ x a, Quarantined k f x → Quarantined k f (g x a)) :
    Quarantined k f (l.foldl g d) := List.foldlRecOn (motive := Quarantined k f) l g h fun x hx a _ => hg x a hx

theorem when (h : Quarantined k f d) (b : Bool) {g : Dev → Dev} (hg : Quarantined k f (g d)) : Quarantined k f (d.when b g) := by
  cases b
  · exact h
  · exact hg

theorem evtIf (h : Quarantined k f d) (b : Bool) (g : Fld) : Quarantined k f (d.evtIf b g) := h.congr (congrArg Meas.cells (by
  unfold Dev.evtIf
  split
  · exact Dev.evt_meas ..
  · rfl))

theorem checkShort (h : Quarantined k f d) : Quarantined k f d.checkShort := by
  have raised : ∀ (x : Dev) (n i j : Nat), (x.raise n i j).meas = x.meas := fun x n i j => by
    unfold Dev.raise
    split
    · rfl
    · exact (Still.fireAs ..).meas
  refine h.congr ?_
  unfold Dev.checkShort
  dsimp only
  split
  · split
    · rfl
    · rw [raised, Dev.evt_meas]
  · unfold Dev.lower Dev.when
    dsimp only
    split
    · split <;> rfl
    · rfl

theorem dropUses (h : Quarantined k f d) (i : Nat) : Quarantined k f (d.dropUses i) :=
  ⟨(Dev.cell_dropUses_same Cell.role (fun _ => rfl) i k d).1.trans h.1, (Dev.cell_dropUses_same Cell.fault (fun _ => rfl) i k d).1.trans h.2⟩

theorem bindLoop (h : Quarantined k f d) {i : Nat} (hi : (d.cell i).role ≠ .quar) (ch half : Nat) : Quarantined k f (d.bindLoop i ch half) :=
  (h.setOther hi _).relieve _

theorem armCell (h : Quarantined k f d) (i ch : Nat) : Quarantined k f (d.armCell i ch) :=
  (h.setSame i (g := fun c => { c with armed := some ch }) (fun _ => rfl) fun _ => rfl).relieve _

theorem startPilot (h : Quarantined k f d) (i : Nat) : Quarantined k f (d.startPilot i) := h.setSame i (fun _ => rfl) fun _ => rfl

theorem disarmIdle (h : Quarantined k f d) : Quarantined k f d.disarmIdle := by
  unfold Dev.disarmIdle forN
  refine h.foldl _ fun x i hx => ?_
  dsimp only
  split
  · split
    · exact hx
    · split
      · exact hx
      · exact hx.setSame i (fun _ => rfl) fun _ => rfl
  · exact hx

theorem serveLoops (h : Quarantined k f d) : Quarantined k f d.serveLoops := by
  unfold Dev.serveLoops
  extract_lets want give
  have hg : ∀ b x ch, Quarantined k f x → Quarantined k f (give b x ch) := fun b x ch hx => by
    unfold give
    extract_lets have_ need half
    split
    · exact hx
    · split
      · next i hi => exact hx.bindLoop (by rw [Dev.pickReplacement_job hi]; decide) _ _
      · split
        · split
          · next i hi =>
            split
            · exact hx
            · refine (hx.dropUses i).bindLoop ?_ _ _
              rw [(Dev.cell_dropUses_same Cell.role (fun _ => rfl) i i x).1]
              exact Dev.stealFor_role b hi
          · exact hx
        · exact hx
  exact (h.foldl want (hg true)).foldl want (hg false)

theorem handoverFor (h : Quarantined k f d) (i : Nat) : Quarantined k f (d.handoverFor i) := by
  unfold Dev.handoverFor
  split
  · exact h
  · next j _ => exact (h.setSame j (g := fun c => { c with armed := some (d.cell i).stream }) (fun _ => rfl) fun _ => rfl).congr rfl

theorem startHandover (h : Quarantined k f d) : Quarantined k f d.startHandover := by
  unfold Dev.startHandover
  split
  · exact h
  · next i _ =>
    have hj : Quarantined k f (d.judgeBlocked i) := (h.evtIf _ _).setSame i (fun _ => rfl) fun _ => rfl
    dsimp only
    split
    · exact hj
    · exact hj.handoverFor i

theorem pilotOn (h : Quarantined k f d) (i : Nat) : Quarantined k f (d.pilotOn i) := by
  unfold Dev.pilotOn
  dsimp only
  split
  · exact h
  · split
    · split
      · exact h
      · split
        · exact (h.armCell _ _).startPilot i
        · exact h
    · exact h.when _ (h.startPilot i)
    · exact h

theorem servePilots (h : Quarantined k f d) : Quarantined k f d.servePilots := by
  unfold Dev.servePilots
  dsimp only
  unfold forN
  exact (h.foldl _ fun x i hx => hx.when _ (hx.startPilot i)).foldl _ fun x i hx => hx.pilotOn i

theorem startCal (h : Quarantined k f d) {i : Nat} (hi : (d.cell i).role ≠ .quar) (b : Bool) : Quarantined k f (d.startCal i b) := by
  unfold Dev.startCal
  extract_lets x r m y
  have hx : Quarantined k f y := (h.setOther hi fun c => { c with role := .cal, armed := none, pilotDue := false }).congr rfl
  exact hx.when b hx.checkShort

theorem serveOverdue (h : Quarantined k f d) : Quarantined k f d.serveOverdue := by
  unfold Dev.serveOverdue
  split
  · exact h
  · split
    · next i hi =>
      have hfree := List.find?_some hi
      simp only [Bool.and_eq_true] at hfree
      exact h.startCal (by rw [Cell.role_of_free hfree.2]; decide) false
    · split
      · split
        · next i _ hr => exact h.startCal (by rw [hr]; decide) true
        · exact h
      · exact h

theorem armRound (h : Quarantined k f d) : Quarantined k f d.armRound := by
  unfold Dev.armRound
  refine h.foldl _ fun x i hx => ?_
  dsimp only
  split
  · split
    · next j _ => exact (hx.armCell j _).congr rfl
    · exact hx
  · exact hx

theorem serveDue (h : Quarantined k f d) : Quarantined k f d.serveDue := by
  unfold Dev.serveDue
  split
  · exact h
  · split
    · next i hi =>
      split
      · exact h.handoverFor i
      · next hl =>
        have hfree := List.find?_some hi
        simp only [hl, Bool.or_eq_true, decide_eq_true_eq, or_false] at hfree
        exact h.startCal (by rw [Cell.role_of_free hfree]; decide) false
    · exact h

theorem poolNow (h : Quarantined k f d) : Quarantined k f d.poolNow := by
  unfold Dev.poolNow Dev.poolAllocate
  split
  · exact h.checkShort
  · have hpass := h.checkShort.disarmIdle.serveLoops.startHandover.servePilots.serveOverdue.armRound.armRound.serveDue
    dsimp only
    split
    · exact hpass.congr rfl
    · exact hpass

end Quarantined

/-- A cell that works is quarantined (R54). -/
theorem Dev.quarantine_spec {d : Dev} {k : Nat} (code : Nat) (ecc : Bool) (hk : k < d.meas.cells.length)
    (hrun : (d.meas.calRun.any fun r => r.retest && decide (r.cell = k)) = false) (hr : (d.cell k).role = .job ∨ (d.cell k).role = .loop) :
    Quarantined k code (d.quarantine k code ecc) := by
  have hlen := (Dev.cell_dropUses_same Cell.role (fun _ => rfl) k k d).2
  have hself := Dev.cell_setCell_self (d := d.dropUses k) (fun c => { c with
    role := .quar, busy := false, pilot := none, pilotDue := false, fault := code, eccQuar := ecc, standIn := c.role = .loop || c.armed.isSome })
    (by rw [hlen]; exact hk)
  unfold Dev.quarantine
  rw [if_neg (by rw [hrun]; decide), if_neg (by rcases hr with h | h <;> rw [h] <;> decide), if_neg (by rcases hr with h | h <;> rw [h] <;> decide)]
  dsimp only
  refine Quarantined.poolNow ⟨?_, ?_⟩
  · rw [hself]
  · rw [hself]

end Sys2Proof.Machine
end

section
/-!
PROOF. What a firing leaves of a pasture: its notices join the frames that wait, and the links stand (08 R213, R225; O40, O57).
-/

namespace Sys2Proof.Machine

theorem mem_insertFrame {me : Nat} {f g : PFrame} {l : List PFrame} : g ∈ insertFrame me f l ↔ g = f ∨ g ∈ l := by
  induction l with
  | nil => simp [insertFrame]
  | cons h t ih =>
    unfold insertFrame
    split
    · simp
    · rw [List.mem_cons, List.mem_cons, ih]
      exact or_left_comm

/-- The links stand, and frames only join those that wait. -/
structure PastGrown (d e : Dev) : Prop where
  links : e.past.links = d.past.links
  lanes : e.past.lanes.length = d.past.lanes.length
  tx : ∀ f ∈ d.past.tx, f ∈ e.past.tx
  queue : ∀ x, ∀ f ∈ (d.past.lanes.getD x Lane.fresh).queue, f ∈ (e.past.lanes.getD x Lane.fresh).queue

namespace PastGrown

theorem of_past {d e : Dev} (h : e.past = d.past) : PastGrown d e := by
  constructor <;> rw [h]
  · exact fun _ hf => hf
  · exact fun _ _ hf => hf

theorem refl (d : Dev) : PastGrown d d := of_past rfl

theorem trans {d e f : Dev} (h : PastGrown d e) (h' : PastGrown e f) : PastGrown d f :=
  ⟨h'.links.trans h.links, h'.lanes.trans h.lanes, fun g hg => h'.tx g (h.tx g hg), fun x g hg => h'.queue x g (h.queue x g hg)⟩

theorem when {d : Dev} (b : Bool) {f : Dev → Dev} (h : PastGrown d (f d)) : PastGrown d (d.when b f) := by
  cases b
  · exact refl d
  · exact h

theorem sendOn (x t ds sr h q : Nat) (p : List Nat) (d : Dev) : PastGrown d (d.sendOn x t ds sr h q p) := by
  unfold Dev.sendOn
  split
  · refine ⟨rfl, List.length_modify .., fun f hf => mem_insertFrame.mpr (Or.inr hf), fun y f hf => ?_⟩
    unfold Dev.queueOn
    dsimp only [PFrame.of]
    by_cases hy : y = x
    · subst hy
      by_cases hl : y < d.past.lanes.length
      · rw [getD_updAt_self _ Lane.fresh hl]
        exact mem_insertFrame.mpr (Or.inr hf)
      · rw [List.getD_eq_default _ _ (Nat.le_of_not_lt hl)] at hf
        exact absurd hf List.not_mem_nil
    · rw [getD_updAt_of_ne _ Lane.fresh hy]
      exact hf
  · exact refl d

theorem originate (t ds : Nat) (p : List Nat) (d : Dev) : PastGrown d (d.originate t ds p) := by
  unfold Dev.originate
  split
  · exact refl d
  · refine trans ?_ ((sendOn ..).trans (sendOn ..))
    exact ⟨rfl, rfl, fun _ hf => hf, fun _ _ hf => hf⟩

end PastGrown

/-! ### A firing -/

/-- An update that leaves the pasture. -/
structure PastKept (d e : Dev) : Prop where
  past : e.past = d.past

namespace PastKept

theorem refl (d : Dev) : PastKept d d := ⟨rfl⟩

theorem trans {d e f : Dev} (h : PastKept d e) (h' : PastKept e f) : PastKept d f := ⟨h'.past.trans h.past⟩

theorem wr (d : Dev) (f : Fld) (v : Nat) : PastKept d (d.wr f v) := ⟨Dev.wr_past ..⟩

theorem setFlt (d : Dev) (F : Flt) : PastKept d { d with flt := F } := ⟨rfl⟩

theorem setNvmc (d : Dev) (n : NvmCtl) : PastKept d { d with nvmc := n } := ⟨rfl⟩

theorem ackEnd (d : Dev) : PastKept d d.ackEnd := ⟨rfl⟩

theorem when {d : Dev} (b : Bool) {f : Dev → Dev} (h : PastKept d (f d)) : PastKept d (d.when b f) := by
  cases b
  · exact refl d
  · exact h

theorem andWhen {d0 d : Dev} (b : Bool) (f : Dev → Dev) (h0 : PastKept d0 d) (h : ∀ x, PastKept x (f x)) :
    PastKept d0 (d.when b f) := h0.trans (when b (h d))

theorem forN (n : Nat) (f : Nat → Dev → Dev) (h : ∀ k d, PastKept d (f k d)) (d : Dev) : PastKept d (forN n f d) := by
  induction n with
  | zero => exact refl d
  | succ n ih => rw [forN_succ]; exact ih.trans (h n _)

theorem fillCapture (f : Firing) (repl multi : Bool) (d : Dev) : PastKept d (d.fillCapture f repl multi) := by
  unfold Dev.fillCapture
  exact ((((((((⟨Dev.setWord_past ..⟩ : PastKept d _).trans (wr _ FLT_CAP_ADDR_ADDR _)).trans (wr _ FLT_CAP_DETAIL_DETAIL _)).trans
    (wr _ FLT_CAP_SEQ_SEQ _)).trans (wr _ FLT_CAP_SEC_LO_SEC _)).trans (wr _ FLT_CAP_SEC_HI_SEC _)).trans (wr _ FLT_CAP_NS_NS _)).trans
    (wr _ FLT_CAP_FRAC_FRAC _)).trans (setFlt _ _)

theorem captureFiring (f : Firing) (d : Dev) : PastKept d (d.captureFiring f) := by
  unfold Dev.captureFiring
  split
  · exact fillCapture ..
  · split
    · dsimp only
      split
      · exact fillCapture ..
      · exact wr ..
    · split
      · exact fillCapture ..
      · exact wr ..

theorem dumpTrigger (src sev : Nat) (inj fresh : Bool) (d : Dev) : PastKept d (d.dumpTrigger src sev inj fresh) := by
  unfold Dev.dumpTrigger
  split
  · unfold Dev.bumpSat
    split
    · exact wr ..
    · exact refl d
  · exact (setFlt d _).trans (wr _ FLT_STAT_DUMP_BUSY _)

theorem alignStop (d : Dev) : PastKept d d.alignStop := by
  unfold Dev.alignStop
  split
  · exact ⟨rfl⟩
  · exact refl d

theorem mbxComplete (code : Nat) (res : List Nat) (d : Dev) : PastKept d (d.mbxComplete code res) := by
  unfold Dev.mbxComplete
  refine trans ?_ ⟨Dev.evt_past _ DEV_MBX_EVT_DONE⟩
  refine trans ?_ (wr _ DEV_MBX_STAT_DONE _)
  refine trans ?_ (wr _ DEV_MBX_STAT_BUSY _)
  refine trans ?_ (forN 4 _ (fun _ _ => wr ..) _)
  refine trans ?_ (wr _ DEV_MBX_STAT_CODE _)
  exact (alignStop d).trans (setFlt _ _)

theorem stopCopy (d : Dev) : PastKept d d.stopCopy := by
  unfold Dev.stopCopy
  exact andWhen _ _ (setNvmc d _) fun x => wr x NVM_STAT_WAIT_POWER 0

theorem dumpAbort (d : Dev) : PastKept d d.dumpAbort := by
  unfold Dev.dumpAbort
  exact ((mbxComplete _ _ d).trans (when _ ((setFlt _ _).trans (wr _ FLT_STAT_DUMP_BUSY _)))).trans (stopCopy _)

theorem reactTo (src sev : Nat) (inj full forced : Bool) (d : Dev) : PastKept d (d.reactTo src sev inj full forced) := by
  unfold Dev.reactTo
  dsimp only
  split
  · exact andWhen _ _ (when _ (wr ..)) ackEnd
  · refine andWhen _ _ (andWhen _ _ (andWhen _ _ (andWhen _ _ (andWhen _ _ (when _ (wr ..)) ackEnd) ?_) ?_) ?_) ?_
    · exact fun x => (wr ..).trans (setFlt _ _)
    · exact fun x => (when _ (dumpAbort x)).trans (dumpTrigger ..)
    · exact fun x => (wr ..).trans (setFlt _ _)
    · exact fun x => setFlt x _

end PastKept

theorem PastGrown.noticeAtLatch (src sev : Nat) (d : Dev) : PastGrown d (d.noticeAtLatch src sev) := by
  unfold Dev.noticeAtLatch
  exact when _ (originate ..)

theorem PastGrown.afterCount (f : Firing) (sim : Bool) (d : Dev) : PastGrown d (d.afterCount f sim) := by
  unfold Dev.afterCount
  have h1 := PastKept.captureFiring f d
  generalize d.captureFiring f = d1 at h1
  have key : ∀ x y : Dev, PastKept d1 x → PastGrown x y →
      PastGrown d (if y.reactive then y.reactTo f.src f.sev f.inj (!sim) (forcedFold f.src && !f.inj) else y) := by
    intro x y hx hy
    have h := (of_past (h1.trans hx).past).trans hy
    split
    · exact h.trans (of_past (PastKept.reactTo ..).past)
    · exact h
  refine key _ _ ?_ (noticeAtLatch _ _ _)
  refine PastKept.andWhen _ _ ?_ fun x => PastKept.setNvmc x _
  exact (PastKept.when _ (PastKept.wr d1 FLT_INJ_STAT_REAL 1)).trans (PastKept.setFlt _ _)

theorem PastGrown.fireAs (src detail : Nat) (acc : Option Access) (inj sim : Bool) (d : Dev) : PastGrown d (d.fireAs src detail acc inj sim) := by
  rw [Dev.fireAs_eq]
  exact (of_past ((Dev.bump_past ..).trans (Dev.evt_past ..))).trans (afterCount ..)

end Sys2Proof.Machine
end

section
/-!
PROOF. What a delivered timestamp leaves (03 R78, R81; 06 R189; O40).
-/

namespace Sys2Proof.Machine

/-! ### Jobs and ALIGN take a timestamp: the front end, the paddocks and their registers stand -/

/-- A register that neither jobs nor ALIGN write: DEV_MODE, those of the paddocks, PAST_CFG and
PLINK_n_STAT, and MCH_n_LOST. -/
def HeardReg (a : Nat) : Prop := a = 0x000004 ∨ (0x030000 ≤ a ∧ a < 0x034000) ∨ (0x061000 ≤ a ∧ a < 0x062000 ∧ a % 0x20 = 0x18) ∨
  (0x0A0000 ≤ a ∧ (a % 0x40 = 0 ∨ a % 0x40 = 8))

theorem FiringReg.not_heard {a : Nat} (h : FiringReg a) : ¬ HeardReg a := by
  intro hk
  unfold HeardReg at hk
  exact not_firingReg (by omega) (by omega) (by omega) (by omega) h

/-- An update that leaves the front end, the paddocks, the links and those registers. -/
structure Heard (d e : Dev) : Prop where
  meas : e.meas = d.meas
  pads : e.pads = d.pads
  word : ∀ a, HeardReg a → e.word a = d.word a
  past : PastGrown d e

namespace Heard

theorem refl (d : Dev) : Heard d d := ⟨rfl, rfl, fun _ _ => rfl, .refl d⟩

theorem trans {d e f : Dev} (h : Heard d e) (h' : Heard e f) : Heard d f :=
  ⟨h'.meas.trans h.meas, h'.pads.trans h.pads, fun a ha => (h'.word a ha).trans (h.word a ha), h.past.trans h'.past⟩

theorem of_still {A : Nat → Prop} {d e : Dev} (h : Still A d e) (hA : ∀ a, A a → ¬ HeardReg a) (hp : PastGrown d e) : Heard d e :=
  ⟨h.meas, h.pads, fun a ha => h.word a fun hAa => hA a hAa ha, hp⟩

theorem fireAs (src detail : Nat) (acc : Option Access) (inj sim : Bool) (d : Dev) : Heard d (d.fireAs src detail acc inj sim) :=
  of_still (Still.fireAs ..) (fun _ => FiringReg.not_heard) (.fireAs ..)

theorem of_jobs {d e : Dev} (h : JobsOnly d e) : Heard d e := by
  obtain ⟨j, rfl⟩ := h
  exact ⟨rfl, rfl, fun _ _ => rfl, .of_past rfl⟩

theorem evt (d : Dev) (f : Fld) (h : ¬ HeardReg f.addr) : Heard d (d.evt f) :=
  of_still (Still.evt (A := fun a => a = f.addr) d f rfl) (fun a ha => by rw [ha]; exact h) (.of_past (Dev.evt_past ..))

theorem evtIf (d : Dev) (b : Bool) (f : Fld) (h : ¬ HeardReg f.addr) : Heard d (d.evtIf b f) := by
  unfold Dev.evtIf
  split
  · exact evt d f h
  · exact refl d

theorem wr (d : Dev) (f : Fld) (v : Nat) (h : ¬ HeardReg f.addr) : Heard d (d.wr f v) :=
  of_still (Still.wr (A := fun a => a = f.addr) d f v rfl) (fun a ha => by rw [ha]; exact h) (.of_past (Dev.wr_past ..))

theorem setHw (d : Dev) (a : Nat) (w : Word) (h : ¬ HeardReg a) : Heard d (d.setHw a w) :=
  of_still (Still.setHw (A := fun b => b = a) d a w rfl) (fun b hb => by rw [hb]; exact h) (.of_past rfl)

theorem foldl {α : Type} (l : List α) {f : Dev → α → Dev} (h : ∀ d a, Heard d (f d a)) (d : Dev) : Heard d (l.foldl f d) := by
  induction l generalizing d with
  | nil => exact refl d
  | cons a t ih => exact (h d a).trans (ih (f d a))

theorem when (d : Dev) (b : Bool) {f : Dev → Dev} (h : Heard d (f d)) : Heard d (d.when b f) := by
  cases b
  · exact refl d
  · exact h

/-! Jobs -/

theorem slotBad (k : Nat) (d : Dev) : Heard d (d.slotBad k) := by
  unfold Dev.slotBad
  split
  · split
    · exact refl d
    · exact ((of_jobs (JobsOnly.setJob ..)).trans (evt _ _ (by unfold HeardReg; decide))).trans (fireAs ..)
  · exact refl d

theorem settleRing (r : Nat) (d : Dev) : Heard d (d.settleRing r) := by
  have hflush : Heard d (d.settleFlush r) := by
    rw [Dev.settleFlush_eq]
    refine foldl _ (fun d k => ?_) d
    unfold Dev.flushTurn
    split
    · dsimp only
      split
      · exact refl d
      · split
        · exact slotBad k d
        · exact of_jobs (JobsOnly.setJob ..)
    · exact refl d
  exact hflush.trans (of_jobs (JobsOnly.promote r _))

theorem readBody (k : Nat) (d : Dev) : Heard d (d.readBody k) := by
  unfold Dev.readBody
  split
  · split
    · exact (slotBad k d).trans (settleRing ..)
    · exact refl d
  · exact refl d

theorem streamCount (slot tag : Nat) (w : Bool) (d : Dev) : Heard d (d.streamCount slot tag w) := by
  cases hj : d.job slot with
  | none =>
    unfold Dev.streamCount
    rw [hj]
    exact refl d
  | some j =>
    rw [Dev.streamCount_eq hj]
    split
    · exact refl d
    · exact (of_jobs (JobsOnly.setJob ..)).trans (settleRing ..)

theorem not_heard_ring {a : Nat} (h : 0x070000 ≤ a) (h' : a % 0x40 = 0x10 ∨ a % 0x40 = 0x14) : ¬ HeardReg a := by
  unfold HeardReg
  omega

theorem dropData (r : Nat) (w : WRec) (d : Dev) : Heard d (d.dropData r w) := by
  have hbits : Heard d ((d.bump (TQ_DROP_DROP r)).evt (TQ_STAT_DROP r)) :=
    (wr d _ _ (not_heard_ring (by unfold TQ_DROP_DROP rTQ_DROP; dsimp only; omega) (by unfold TQ_DROP_DROP rTQ_DROP; dsimp only; omega))).trans
      (evt _ _ (not_heard_ring (by unfold TQ_STAT_DROP rTQ_STAT; dsimp only; omega) (by unfold TQ_STAT_DROP rTQ_STAT; dsimp only; omega)))
  unfold Dev.dropData
  split
  · exact hbits.trans (streamCount ..)
  · exact hbits

theorem addData (r : Nat) (w : WRec) (d : Dev) : Heard d (d.addData r w) := by
  unfold Dev.addData
  split
  · exact (evt d _ (not_heard_ring (by unfold TQ_STAT_FULL rTQ_STAT; dsimp only; omega) (by unfold TQ_STAT_FULL rTQ_STAT; dsimp only; omega))).trans (dropData ..)
  · exact of_jobs (JobsOnly.setRing ..)

theorem jobTake (s : Stamp) (k : Nat) (d : Dev) : Heard d (d.jobTake s k) := by
  unfold Dev.jobTake
  split
  · exact refl d
  · split
    · exact refl d
    · split
      · exact of_jobs (JobsOnly.setJob ..)
      · exact of_jobs (JobsOnly.setJob ..)
      · exact of_jobs (JobsOnly.setJob ..)
      · split
        · exact refl d
        · exact (of_jobs (JobsOnly.setJob ..)).trans (addData ..)
      · exact refl d
      · exact refl d

theorem jobsTake (s : Stamp) (d : Dev) : Heard d (d.jobsTake s) := by
  unfold Dev.jobsTake
  extract_lets users x streams others y
  have hx : Heard d x := foldl users (fun d k => readBody k d) d
  have hy : Heard x y := foldl others (fun d k => jobTake s k d) x
  have hrings : Heard y y.settleRings := by
    unfold Dev.settleRings forN
    exact foldl _ (fun d r => settleRing r d) y
  exact ((hx.trans hy).trans hrings).trans (foldl streams (fun d k => jobTake s k d) _)

/-! ALIGN -/

theorem setMbx (d : Dev) (m : Mbx) : Heard d ({ d with mbx := m } : Dev) := ⟨rfl, rfl, fun _ _ => rfl, .of_past rfl⟩

theorem setOut (d : Dev) (n : Nat) (f : OutSt → OutSt) : Heard d (d.setOut n f) := ⟨rfl, rfl, fun _ _ => rfl, .of_past rfl⟩

theorem setAlign (d : Dev) (f : AlignRun → AlignRun) : Heard d (d.setAlign f) := setMbx ..

theorem not_heard_tee : ¬ HeardReg rOUT_TEE := by
  unfold HeardReg
  decide

/-- The registers of an output that ALIGN writes. -/
theorem not_heard_out {a o n : Nat} (ha : a = 0x050000 + o + 0x80 * n) (ho : o < 0x40) (hm : o % 0x20 ≠ 0x18) (h0 : 0x10 ≤ o) : ¬ HeardReg a := by
  unfold HeardReg
  omega

theorem evtOut (d : Dev) (b : Bool) (f : Fld) (n : Nat) (h : f.addr = rOUT_EVT n) : Heard d (d.evtIf b f) :=
  evtIf d b f (not_heard_out (o := 0x1C) (n := n) h (by decide) (by decide) (by decide))

theorem wrOut (d : Dev) (f : Fld) (v : Nat) (n : Nat) (h : f.addr = rOUT_ATRIM n ∨ f.addr = rOUT_ALIGN_RES n) : Heard d (d.wr f v) :=
  wr d f v (h.elim (fun h => not_heard_out (o := 0x10) (n := n) h (by decide) (by decide) (by decide)) fun h =>
    not_heard_out (o := 0x28) (n := n) h (by decide) (by decide) (by decide))

theorem alignResult (n code : Nat) (v : Int) (d : Dev) : Heard d (d.alignResult n code v) :=
  ((wrOut d (OUT_ALIGN_RES_CODE n) code n (Or.inr rfl)).trans (wrOut _ (OUT_ALIGN_RES_RES n) _ n (Or.inr rfl))).trans
    (evtOut _ true (OUT_EVT_ALIGN_DONE n) n rfl)

theorem rangeEvt (n : Nat) (b : Bool) (d : Dev) : Heard d (d.evtIf b (OUT_EVT_RANGE n)) := evtOut d b _ n rfl

theorem moveDelay (n : Nat) {g : Dev → Dev} {d : Dev} (h : Heard d (g d)) : Heard d (d.moveDelay n g) := by
  unfold Dev.moveDelay
  dsimp only
  exact ((h.trans (when _ _ (setOut ..))).trans (when _ _ (setOut ..))).trans (rangeEvt n _ _)

theorem setTrims (n v w : Nat) (d : Dev) : Heard d ((d.wr (OUT_ATRIM_ATRIM_C n) v).wr (OUT_ATRIM_ATRIM_F n) w) :=
  (wrOut d _ v n (Or.inl rfl)).trans (wrOut _ _ w n (Or.inl rfl))

/-- ALIGN's trim as a function (applied to arguments, its definition has the kernel evaluate the delay's counts). -/
theorem alignTrim_fun : @Dev.alignTrim = fun n err d =>
    match d.alignCounts n (-err) with
    | none => (d, 2)
    | some (c, f) =>
      let d := d.moveDelay n fun d =>
        (d.wr (OUT_ATRIM_ATRIM_C n) (twos 9 ((c : Int) - d.rd (OUT_DELAY_COARSE n)))).wr (OUT_ATRIM_ATRIM_F n)
          (twos 13 ((f : Int) - d.rd (OUT_DELAY_FINE n)))
      (d, if err.natAbs * 10000 ≤ 98304 then 1 else 4) := rfl

theorem alignTrim_eq (n : Nat) (err : Int) (d : Dev) : d.alignTrim n err =
    match d.alignCounts n (-err) with
    | none => (d, 2)
    | some (c, f) =>
      let d := d.moveDelay n fun d =>
        (d.wr (OUT_ATRIM_ATRIM_C n) (twos 9 ((c : Int) - d.rd (OUT_DELAY_COARSE n)))).wr (OUT_ATRIM_ATRIM_F n)
          (twos 13 ((f : Int) - d.rd (OUT_DELAY_FINE n)))
      (d, if err.natAbs * 10000 ≤ 98304 then 1 else 4) := congrFun (congrFun (congrFun alignTrim_fun n) err) d

theorem alignTrim (n : Nat) (err : Int) (d : Dev) : Heard d (d.alignTrim n err).1 := by
  rw [alignTrim_eq]
  generalize d.alignCounts n (-err) = o
  rcases o with _ | ⟨c, f⟩
  · exact refl d
  · dsimp only
    refine moveDelay n ?_
    exact setTrims ..

theorem alignBegin (a : AlignRun) (s : AlignStep) (rest : List AlignStep) (d : Dev) : Heard d (d.alignBegin a s rest) :=
  (setHw d rOUT_TEE _ not_heard_tee).trans (setAlign ..)

theorem mbxOut (code : Nat) (res : List Nat) (d : Dev) : Heard d (d.mbxOut code res) := by
  unfold Dev.mbxOut Dev.mbxOutcome
  split
  · exact setMbx ..
  · exact refl d

theorem alignFinish (a : AlignRun) (d : Dev) : Heard d (d.alignFinish a) := by
  unfold Dev.alignFinish
  extract_lets ok bad x m y
  have hx : Heard d x := (setHw d rOUT_TEE _ not_heard_tee).trans (foldl a.done (f := fun d q => d.alignResult q.1 q.2.1 q.2.2) (fun d q => alignResult q.1 q.2.1 q.2.2 d) _)
  exact (hx.trans (setMbx x _)).trans (mbxOut _ _ y)

theorem alignGoOn (fuel : Nat) (todo : List AlignStep) (d : Dev) : Heard d (d.alignGoOn fuel todo) := by
  induction fuel generalizing todo d with
  | zero => exact refl d
  | succ fuel ih =>
    unfold Dev.alignGoOn
    split
    · exact refl d
    · split
      · exact alignBegin ..
      · exact (setAlign ..).trans (ih ..)
    · split
      · exact alignFinish ..
      · exact (setAlign ..).trans (ih ..)

theorem alignStepEnd (a : AlignRun) (d : Dev) : Heard d (d.alignStepEnd a) := by
  unfold Dev.alignStepEnd
  dsimp only
  split
  · split
    · exact alignGoOn ..
    · exact (setAlign ..).trans (alignGoOn ..)
  · exact (setAlign ..).trans (alignGoOn ..)
  · split
    · exact (setAlign ..).trans (alignGoOn ..)
    · exact ((alignTrim ..).trans (setAlign ..)).trans (alignGoOn ..)
  · exact refl d

theorem alignStamp (ch ts : Nat) (d : Dev) : Heard d (d.alignStamp ch ts) := by
  have taken : ∀ j, Heard d (d.alignTaken j) := fun j => by
    unfold Dev.alignTaken
    split
    · split
      · extract_lets moving a'
        split
        · exact setAlign ..
        · exact (setAlign ..).trans (alignStepEnd ..)
      · exact refl d
    · exact setAlign ..
    · exact refl d
  unfold Dev.alignStamp
  split
  · split
    · exact taken _
    · exact refl d
  · exact refl d

end Heard

end Sys2Proof.Machine
end

section
/-!
PROOF. Conversions: discarded with a quarantine, or stamped and delivered (02 R33, R35, R54; O40).
-/

namespace Sys2Proof.Machine

/-! ### The one conversion of an event ends -/

section
variable {d : Dev} {k : Nat} {c : CellCode} {redOk rstOk tableEcc : Bool} {ev : Event} {rest : List Event}

/-- The event has left the list, and its cell is free. -/
def Dev.endEvent (k : Nat) (rest : List Event) (d : Dev) : Dev :=
  ({ d with meas := { d.meas with events := rest } } : Dev).setCell k fun c => { c with busy := false }

theorem setPart_one (k : Nat) (p q : Part) : setPart [(k, p)] k q = [(k, q)] := by
  unfold setPart
  rw [List.map_cons, List.map_nil, if_pos rfl]

theorem Event.complete_one (ev : Event) {p : Part} (h : p ≠ .waiting) : ({ ev with parts := [(k, p)] } : Event).complete = true := by
  unfold Event.complete
  simp [h]

theorem Dev.decideHandover_none (h : ev.handover = none) (d : Dev) : d.decideHandover ev = d := by
  unfold Dev.decideHandover
  rw [h]

/-- A part that fails leaves no timestamp. -/
theorem Dev.eventStamp_bad (d : Dev) (ev : Event) (k : Nat) : d.eventStamp { ev with parts := [(k, .bad)] } = none := by
  unfold Dev.eventStamp
  dsimp only
  by_cases h : (some k ≠ ev.handover)
  · rw [List.filter_cons_of_pos (by exact decide_eq_true h), List.filter_nil]
    rfl
  · rw [List.filter_cons_of_neg (by simpa using h), List.filter_nil]
    rfl

/-- A latch does not depend on the parts. -/
theorem Event.latch_parts (ev : Event) (ps : List (Nat × Part)) (c : Clock) (t : Nat) (b : Bool) :
    (({ ev with parts := ps } : Event).latch c t).stop b = (ev.latch c t).stop b := by
  unfold Event.latch Event.stop
  dsimp only
  cases (ev.latched || decide (t < ev.stopAt))
  · simp only [Bool.false_eq_true, if_false]
    cases (ev.late.isSome || decide (t < ev.stopAt + 1)) <;> rfl
  · simp only [if_true]
    cases (ev.late.isSome || decide (t < ev.stopAt + 1)) <;> rfl

theorem Event.latch_same (ev : Event) (c : Clock) (t : Nat) : (ev.latch c t).chan = ev.chan ∧ (ev.latch c t).trim = ev.trim := by
  unfold Event.latch
  dsimp only
  cases (ev.latched || decide (t < ev.stopAt))
  · simp only [Bool.false_eq_true, if_false]
    cases (ev.late.isSome || decide (t < ev.stopAt + 1)) <;> exact ⟨rfl, rfl⟩
  · simp only [if_true]
    cases (ev.late.isSome || decide (t < ev.stopAt + 1)) <;> exact ⟨rfl, rfl⟩

/-- The timestamp of an event with one part that passes. -/
theorem Dev.eventStamp_good (d : Dev) (h : ev.handover = none) (k f : Nat) (late : Bool) {a : Event}
    (ha : a = ev.latch d.clk (max (ev.stopAt + 1) d.clk.tclk)) :
    d.eventStamp { ev with parts := [(k, .good f late)] } = some (stamp (a.stop late).1 (a.stop late).2 f (d.chanDelay ev.chan ev.trim)) := by
  obtain ⟨hchan, htrim⟩ := Event.latch_same { ev with parts := [(k, .good f late)] } d.clk (max (ev.stopAt + 1) d.clk.tclk)
  have hstop := Event.latch_parts ev [(k, .good f late)] d.clk (max (ev.stopAt + 1) d.clk.tclk) late
  unfold Dev.eventStamp
  dsimp only at hchan htrim ⊢
  rw [List.filter_cons_of_pos (by rw [h]; rfl), List.filter_nil]
  dsimp only [List.filterMap]
  unfold Event.stampOf
  rw [hchan, htrim, hstop, ← ha]

theorem Dev.conversionDone_failed (hp : (d.cell k).pilot = none) (ht : takeEvent k d.meas.events = some (ev, rest))
    (hparts : ev.parts = [(k, .waiting)]) (hho : ev.handover = none) {f : Nat} (hf : convFault c.code redOk rstOk tableEcc = f) (h0 : f ≠ 0) :
    d.conversionDone k c redOk rstOk tableEcc =
      ((((((d.endEvent k rest).flagConvFault f k c.code (some ev.chan)).quarantine k f (decide (f = 5))).pilotAfter k).lose ev.chan), none) := by
  unfold Dev.conversionDone
  rw [hp, ht, hf]
  dsimp only
  rw [if_neg h0, if_neg h0, hparts, setPart_one, Event.complete_one ev (by decide), if_pos rfl, if_neg (by decide),
    Dev.decideHandover_none (ev := { ev with parts := [(k, .bad)] }) hho, Dev.eventStamp_bad]
  rfl

theorem Dev.conversionDone_good (hp : (d.cell k).pilot = none) (ht : takeEvent k d.meas.events = some (ev, rest))
    (hparts : ev.parts = [(k, .waiting)]) (hho : ev.handover = none) (hf : convFault c.code redOk rstOk tableEcc = 0) {a : Event}
    (ha : a = ev.latch d.clk (max (ev.stopAt + 1) d.clk.tclk)) :
    d.conversionDone k c redOk rstOk tableEcc = ((d.endEvent k rest).pilotAfter k, some ⟨ev.chan,
        stamp (a.stop c.later).1 (a.stop c.later).2 (d.fraction k c.code) (d.chanDelay ev.chan ev.trim), ev.arr, ev.tag, ev.mseq⟩) := by
  have hdelay : ∀ x : Dev, x = (d.endEvent k rest).pilotAfter k → x.clk = d.clk ∧ x.chanDelay ev.chan ev.trim = d.chanDelay ev.chan ev.trim := by
    rintro x rfl
    unfold Dev.pilotAfter Dev.when
    dsimp only
    split <;> exact ⟨rfl, rfl⟩
  obtain ⟨hclk, hdel⟩ := hdelay _ rfl
  unfold Dev.conversionDone
  rw [hp, ht, hf]
  dsimp only
  rw [if_pos rfl, if_pos rfl, hparts, setPart_one, Event.complete_one ev (by nofun), if_pos rfl, if_neg (by decide),
    Dev.decideHandover_none (ev := { ev with parts := [(k, .good (d.fraction k c.code) c.later)] }) hho]
  change (match ((d.endEvent k rest).pilotAfter k).eventStamp { ev with parts := [(k, .good (d.fraction k c.code) c.later)] } with
    | none => _ | some t => _) = _
  rw [Dev.eventStamp_good _ hho k _ _ (a := a) (by rw [hclk]; exact ha), hdel]
  rfl

end

/-! ### What the failed conversion leaves -/

theorem Dev.flagConvFault_check {f : Nat} (h : f ≠ 5) (k code ch : Nat) (d : Dev) :
    d.flagConvFault f k code (some ch) = (d.evt MEAS_STAT_CHECK_FAIL).evt (MCH_STAT_CHECK_FAIL ch) := by
  unfold Dev.flagConvFault
  rw [if_neg h]

/-- A pilot that is due does not start on a cell that is not in LOOP. -/
theorem Dev.pilotAfter_quar {d : Dev} {k : Nat} (h : (d.cell k).role = .quar) : d.pilotAfter k = d := by
  unfold Dev.pilotAfter
  dsimp only
  rw [h]
  rfl

/-- The front end and its registers after a conversion that failed a check of R33. -/
theorem Dev.failed_spec {d : Dev} {k f code ch : Nat} {rest : List Event} (hch : ch < 44) (hk : k < d.meas.cells.length) (hf : f ≠ 5)
    (hrun : (d.meas.calRun.any fun r => r.retest && decide (r.cell = k)) = false) (hr : (d.cell k).role = .job ∨ (d.cell k).role = .loop)
    {e : Dev} (he : e = ((((d.endEvent k rest).flagConvFault f k code (some ch)).quarantine k f (decide (f = 5))).pilotAfter k).lose ch) :
    e.meas.events = rest ∧ (e.cell k).role = .quar ∧ (e.cell k).fault = f ∧ e.flag (MCH_STAT_CHECK_FAIL ch) = true ∧
      e.flag MEAS_STAT_CHECK_FAIL = true ∧ e.rd (MCH_LOST_LOST ch) = (d.rd (MCH_LOST_LOST ch) + 1) % 2 ^ 32 := by
  rw [Dev.flagConvFault_check hf] at he
  have hx0 : (d.endEvent k rest).meas.cells.length = d.meas.cells.length ∧ (d.endEvent k rest).meas.calRun = d.meas.calRun ∧
      (d.endEvent k rest).meas.events = rest ∧ (d.endEvent k rest).live = d.live :=
    ⟨List.length_modify .., rfl, rfl, rfl⟩
  have hrole : ((d.endEvent k rest).cell k).role = (d.cell k).role := Dev.cell_setCell_of_same Cell.role rfl
  generalize d.endEvent k rest = x at he hx0 hrole
  obtain ⟨hlen, hcal, hev, hlive⟩ := hx0
  have hy : ((x.evt MEAS_STAT_CHECK_FAIL).evt (MCH_STAT_CHECK_FAIL ch)).meas = x.meas := by rw [Dev.evt_meas, Dev.evt_meas]
  have hcheck : ((x.evt MEAS_STAT_CHECK_FAIL).evt (MCH_STAT_CHECK_FAIL ch)).flag MEAS_STAT_CHECK_FAIL = true := by
    rw [Dev.flag_evt_of_ne _ _ _ (by simp only [MCH_STAT_CHECK_FAIL, MEAS_STAT_CHECK_FAIL, rMCH_STAT, rMEAS_STAT]; omega)]
    exact Dev.flag_evt_self _ _ rfl (by decide)
  have hchan : ((x.evt MEAS_STAT_CHECK_FAIL).evt (MCH_STAT_CHECK_FAIL ch)).flag (MCH_STAT_CHECK_FAIL ch) = true :=
    Dev.flag_evt_self _ _ rfl (show 3 < 24 by decide)
  have hlost : ((x.evt MEAS_STAT_CHECK_FAIL).evt (MCH_STAT_CHECK_FAIL ch)).rd (MCH_LOST_LOST ch) = d.rd (MCH_LOST_LOST ch) := by
    rw [Dev.rd_evt_of_ne _ _ _ (by simp only [MCH_STAT_CHECK_FAIL, MCH_LOST_LOST, rMCH_STAT, rMCH_LOST]; omega),
      Dev.rd_evt_of_ne _ _ _ (by simp only [MEAS_STAT_CHECK_FAIL, MCH_LOST_LOST, rMEAS_STAT, rMCH_LOST]; omega)]
    exact Dev.rd_congr hlive _
  generalize (x.evt MEAS_STAT_CHECK_FAIL).evt (MCH_STAT_CHECK_FAIL ch) = y at he hy hcheck hchan hlost
  have hquar : Quarantined k f (y.quarantine k f (decide (f = 5))) := Dev.quarantine_spec f _ (by rw [hy, hlen]; exact hk)
    (by rw [hy, hcal]; exact hrun) (by
      have : (y.cell k).role = (d.cell k).role := (congrArg (fun m : Meas => (m.cells.getD k Cell.fresh).role) hy).trans hrole
      rw [this]; exact hr)
  have hpool := PoolFrame.quarantine k f (decide (f = 5)) y
  generalize y.quarantine k f (decide (f = 5)) = z at he hquar hpool
  rw [Dev.pilotAfter_quar hquar.1] at he
  subst he
  have hword : ∀ a, a = rMCH_STAT ch ∨ a = rMCH_LOST ch → z.word a = y.word a := fun a ha =>
    hpool.word a (by unfold rMCH_STAT rMCH_LOST rMEAS_STAT at *; omega)
      (not_firingReg (by unfold rMCH_STAT rMCH_LOST at ha; omega) (by unfold rMCH_STAT rMCH_LOST at ha; omega)
        (by unfold rMCH_STAT rMCH_LOST at ha; omega) (by unfold rMCH_STAT rMCH_LOST at ha; omega))
  refine ⟨?_, hquar.1, hquar.2, ?_, ?_, ?_⟩
  · exact (hpool.events.trans (congrArg Meas.events hy)).trans hev
  · refine (Dev.flag_of_rd (Dev.rd_wr_of_ne z _ _ _ (by simp only [MCH_STAT_CHECK_FAIL, MCH_LOST_LOST, rMCH_STAT, rMCH_LOST]; omega))).trans ?_
    exact (Dev.flag_of_rd (Dev.rd_of_word (hword _ (Or.inl rfl)))).trans hchan
  · refine (Dev.flag_of_rd (Dev.rd_wr_of_ne z _ _ _ (by simp only [MEAS_STAT_CHECK_FAIL, MCH_LOST_LOST, rMEAS_STAT, rMCH_LOST]; omega))).trans ?_
    exact hpool.bit _ ⟨⟨rfl, by decide⟩, Or.inl rfl⟩ hcheck
  · refine (Dev.bump_rd z (f := MCH_LOST_LOST ch) ⟨Nat.zero_le _, show 31 < 32 by decide⟩).trans ?_
    rw [← hlost]
    exact congrArg (fun w : Nat => (w + 1) % 2 ^ 32) (Dev.rd_of_word (f := MCH_LOST_LOST ch) (hword _ (Or.inr rfl)))

/-! ### What a delivered timestamp leaves -/

/-- Paddock `n` takes its feedback from channel `ch`. -/
structure PadHears (n ch : Nat) (d : Dev) : Prop where
  inList : n < d.pads.length
  live : d.padLive n = true
  kind : d.padKind n = 0
  feeds : d.feedbackCh n = ch

section
variable {n ch : Nat} {d e : Dev}

/-- What a paddock hears is of its registers, of DEV_MODE and of the system PLL. -/
theorem PadHears.congr (h : PadHears n ch d) (hn : n < 16) (hlen : e.pads.length = d.pads.length) (hm : e.measuring = d.measuring)
    (hw : ∀ a, 0x030000 ≤ a → a < 0x034000 → e.word a = d.word a) : PadHears n ch e := by
  have hrd : ∀ f : Fld, 0x030000 ≤ f.addr → f.addr < 0x034000 → e.rd f = d.rd f := fun f h1 h2 => Dev.rd_of_word (hw _ h1 h2)
  have hcfg : 0x030000 ≤ rPAD_CFG n ∧ rPAD_CFG n < 0x034000 := by unfold rPAD_CFG; omega
  have hstate : 0x030000 ≤ rPAD_STATE n ∧ rPAD_STATE n < 0x034000 := by unfold rPAD_STATE; omega
  obtain ⟨h1, h2, h3, h4⟩ := h
  have hkind : e.padKind n = d.padKind n := hrd (PAD_CFG_KIND n) hcfg.1 hcfg.2
  refine ⟨hlen ▸ h1, ?_, hkind.trans h3, ?_⟩
  · have hst : e.padSt n = d.padSt n := hrd (PAD_STATE_STATE n) hstate.1 hstate.2
    have hact : e.flag (PAD_STATE_ACTIVE_V n) = d.flag (PAD_STATE_ACTIVE_V n) := Dev.flag_of_rd (hrd _ hstate.1 hstate.2)
    unfold Dev.padLive at h2 ⊢
    rwa [hst, hact, hm]
  · unfold Dev.feedbackCh at h4 ⊢
    rwa [hkind, hrd (PAD_CFG_EG n) hcfg.1 hcfg.2, hrd (PAD_CFG_FB_CH n) hcfg.1 hcfg.2]

theorem Dev.padStamp_pads (i ch ts : Nat) (absorb : Int) (d : Dev) : ∃ l, d.padStamp i ch ts absorb = { d with pads := l } ∧
    l.length = d.pads.length ∧ ∀ n, n ≠ i → l.getD n Paddock.fresh = d.pad n := by
  have set : ∀ (x : Dev) (f : Paddock → Paddock), (x.setPad i f).pads.length = x.pads.length ∧ ∀ n, n ≠ i → (x.setPad i f).pad n = x.pad n :=
    fun x f => ⟨List.length_modify .., fun n hn => getD_updAt_of_ne f Paddock.fresh hn⟩
  unfold Dev.padStamp
  dsimp only
  split
  · exact ⟨d.pads, rfl, rfl, fun _ _ => rfl⟩
  · split
    · split
      · obtain ⟨a1, a2⟩ := set d fun p => { p with refQ := p.refQ ++ [(ts, absorb)] }
        obtain ⟨b1, b2⟩ := set (d.setPad i fun p => { p with refQ := p.refQ ++ [(ts, absorb)] }) fun p =>
          { p with fbQ := (if d.padLive i = true then p.fbQ else p.fbQ.filter fun f => decide (ts ≤ f + (_ + _))) ++ [ts] }
        exact ⟨_, rfl, b1.trans a1, fun n hn => (b2 n hn).trans (a2 n hn)⟩
      · obtain ⟨a1, a2⟩ := set d fun p => { p with refQ := p.refQ ++ [(ts, absorb)] }
        exact ⟨_, rfl, a1, a2⟩
    · split
      · obtain ⟨a1, a2⟩ := set d fun p =>
          { p with fbQ := (if d.padLive i = true then p.fbQ else p.fbQ.filter fun f => decide (ts ≤ f + (_ + _))) ++ [ts] }
        exact ⟨_, rfl, a1, a2⟩
      · exact ⟨d.pads, rfl, rfl, fun _ _ => rfl⟩

theorem Dev.padStamp_feedback (h : PadHears n ch d) (ts : Nat) (absorb : Int) : ((d.padStamp n ch ts absorb).pad n).fbQ = (d.pad n).fbQ ++ [ts] := by
  have self : ∀ (x : Dev) (f : Paddock → Paddock), n < x.pads.length → (x.setPad n f).pad n = f (x.pad n) := fun x f hl => getD_updAt_self f Paddock.fresh hl
  unfold Dev.padStamp
  extract_lets live x reach
  have hx : x.pads.length = d.pads.length ∧ (x.pad n).fbQ = (d.pad n).fbQ ∧ x.feedbackCh n = d.feedbackCh n := by
    unfold x
    split
    · exact ⟨List.length_modify .., (congrArg Paddock.fbQ (self d (fun p => { p with refQ := p.refQ ++ [(ts, absorb)] }) h.inList) :), rfl⟩
    · exact ⟨rfl, rfl, rfl⟩
  obtain ⟨hlen, hq, hfeeds⟩ := hx
  rw [if_neg (by rw [h.kind]; decide), if_pos (hfeeds.trans h.feeds), self x _ (by rw [hlen]; exact h.inList)]
  dsimp only
  rw [if_pos (show live = true from h.live), hq]

/-- Every paddock takes a timestamp: paddock `n` once, at its turn. -/
theorem Dev.padStamps_feedback (hn : n < 16) (ts : Nat) (absorb : Int) (l : List Nat) (hmem : n ∈ l) (hnd : l.Nodup) (h : PadHears n ch d) :
    ((l.foldl (fun d i => d.padStamp i ch ts absorb) d).pad n).fbQ = (d.pad n).fbQ ++ [ts] := by
  have other : ∀ (l : List Nat) (d : Dev), n ∉ l → (l.foldl (fun d i => d.padStamp i ch ts absorb) d).pad n = d.pad n := by
    intro l
    induction l with
    | nil => exact fun d _ => rfl
    | cons i t ih =>
      intro d hni
      obtain ⟨hne, hnt⟩ := not_or.mp (fun h => hni (List.mem_cons.mpr h))
      obtain ⟨p, hp, -, hpad⟩ := d.padStamp_pads i ch ts absorb
      exact (ih _ hnt).trans ((congrArg (fun x : Dev => x.pad n) hp).trans (hpad n hne))
  induction l generalizing d with
  | nil => exact absurd hmem List.not_mem_nil
  | cons i t ih =>
    obtain ⟨hit, hnt⟩ := List.nodup_cons.mp hnd
    by_cases hi : n = i
    · subst hi
      exact (congrArg Paddock.fbQ (other t _ hit)).trans (Dev.padStamp_feedback h ts absorb)
    · obtain ⟨p, hp, hlen, hpad⟩ := d.padStamp_pads i ch ts absorb
      have hstep : PadHears n ch (d.padStamp i ch ts absorb) := by
        rw [hp]
        exact h.congr hn hlen rfl fun _ _ _ => rfl
      refine (ih (by simpa [hi] using hmem) hnt hstep).trans ?_
      rw [hp]
      exact congrArg (fun q : Paddock => q.fbQ ++ [ts]) (hpad n hi)

/-- A timestamp of a channel that is no REFIN, no BEAT input, no link and no clock: the front end stands, and a paddock that hears it has
it in its queue. -/
theorem Dev.deliver_spec (s : Stamp) (h20 : 20 ≤ s.chan) (h44 : s.chan < 44) (d : Dev) :
    (d.deliver s).meas = d.meas ∧ (d.deliver s).rd (MCH_LOST_LOST s.chan) = d.rd (MCH_LOST_LOST s.chan) ∧
      ∀ n, n < 16 → PadHears n s.chan d → ((d.deliver s).pad n).fbQ = (d.pad n).fbQ ++ [s.ts] := by
  have hheard : Heard d ((d.jobsTake s).alignStamp s.chan s.ts) := (Heard.jobsTake s d).trans (Heard.alignStamp ..)
  have hfm : ((d.jobsTake s).alignStamp s.chan s.ts).fmStamp s.chan s.ts s.arr = (d.jobsTake s).alignStamp s.chan s.ts := by
    unfold Dev.fmStamp Dev.fmEach
    dsimp only
    rw [if_neg (by omega), if_neg (by omega), if_neg (by omega)]
  have heq : d.deliver s = forN 16 (fun n d => d.padStamp n s.chan s.ts 0) ((d.jobsTake s).alignStamp s.chan s.ts) := by
    unfold Dev.deliver
    dsimp only
    rw [hfm, if_neg (fun hc => by omega)]
    unfold Dev.when
    rw [if_neg (by simp; omega), if_neg (by simp; omega)]
  rw [heq]
  generalize (d.jobsTake s).alignStamp s.chan s.ts = x at hheard
  have hpads : ∃ p, forN 16 (fun n d => d.padStamp n s.chan s.ts 0) x = { x with pads := p } :=
    List.foldlRecOn (motive := fun y : Dev => ∃ p, y = { x with pads := p }) _ _ ⟨x.pads, rfl⟩ fun y hy i _ => by
      obtain ⟨p, rfl⟩ := hy
      obtain ⟨q, hq, -⟩ := ({ x with pads := p } : Dev).padStamp_pads i s.chan s.ts 0
      exact ⟨q, hq⟩
  refine ⟨?_, ?_, fun n hn hp => ?_⟩
  · obtain ⟨p, hp⟩ := hpads
    rw [hp]
    exact hheard.meas
  · obtain ⟨p, hp⟩ := hpads
    rw [hp]
    exact Dev.rd_of_word (f := MCH_LOST_LOST s.chan) (hheard.word _ (by
      unfold HeardReg
      simp only [MCH_LOST_LOST, rMCH_LOST]
      omega))
  · have hmode : x.mode = d.mode := congrArg Mode.ofCode (Dev.rd_of_word (f := DEV_MODE_MODE) (hheard.word _ (Or.inl rfl)))
    refine (Dev.padStamps_feedback hn s.ts 0 (List.range 16) (List.mem_range.mpr hn) List.nodup_range
      (hp.congr hn (congrArg List.length hheard.pads) ?_ fun a h1 h2 => hheard.word a (Or.inr (Or.inl ⟨h1, h2⟩)))).trans ?_
    · unfold Dev.measuring
      rw [hmode]
    · exact congrArg (fun l : List Paddock => (l.getD n Paddock.fresh).fbQ ++ [s.ts]) hheard.pads

end

/-- A pilot that may start leaves the events, the registers, the clocks and the paddocks. -/
theorem Dev.pilotAfter_parts (k : Nat) (d : Dev) : ∃ l, d.pilotAfter k = { d with meas := { d.meas with cells := l } } := by
  unfold Dev.pilotAfter Dev.when
  dsimp only
  split
  · exact ⟨_, rfl⟩
  · exact ⟨d.meas.cells, rfl⟩

theorem Dev.lostEdge_when (b : Bool) (ch arr tag : Nat) (d : Dev) :
    (d.when b (Dev.lostEdge ch arr tag)).meas = d.meas ∧ (d.when b (Dev.lostEdge ch arr tag)).live = d.live := by
  cases b
  · exact ⟨rfl, rfl⟩
  · exact ⟨(d.lostEdge_parts ch arr tag).1, (d.lostEdge_parts ch arr tag).2.1⟩

/-- Settles O40: the event leaves the list; a failed check marks the channel and quarantines the cell, a good result is delivered. -/
theorem conversionsAreCheckedAndStamped : Obligations.ConversionsAreCheckedAndStamped := by
  intro s dt k code redOk rstOk tableEcc ecc ev rest hk hm hpilot htake hparts hho h20 h44
  have hbad := (s.dev.advance dt).markBad_slots ecc
  obtain ⟨slots, hslots⟩ := hbad
  have hworks : ∀ x : Dev, x = (s.dev.advance dt).markBad ecc → x.cellsWork = true := by
    rintro x rfl
    rw [hslots]
    unfold Dev.cellsWork
    rw [show Dev.measuring { s.dev.advance dt with jobs := { (s.dev.advance dt).jobs with slots := slots } } = true from hm]
    rfl
  refine ⟨fun f hf h0 h5 hlen hr hrun => ?_, fun hf => ?_⟩
  · refine Effects.of_run (f := within k 48 fun d => (d.markBad ecc).converted k code redOk rstOk tableEcc) rfl ?_
    rw [within_of_lt hk]
    have hw := hworks _ rfl
    have hparts' : ∀ x : Dev, x = (s.dev.advance dt).markBad ecc → (x.cell k).pilot = none ∧ takeEvent k x.meas.events = some (ev, rest) ∧
        k < x.meas.cells.length ∧ (x.meas.calRun.any fun r => r.retest && decide (r.cell = k)) = false ∧
        ((x.cell k).role = .job ∨ (x.cell k).role = .loop) ∧ x.rd (MCH_LOST_LOST ev.chan) = s.dev.rd (MCH_LOST_LOST ev.chan) := by
      rintro x rfl
      rw [hslots]
      exact ⟨hpilot, htake, hlen, hrun, hr, rfl⟩
    obtain ⟨h1, h2, h3, h4, h6, h7⟩ := hparts' _ rfl
    generalize (s.dev.advance dt).markBad ecc = x at hw h1 h2 h3 h4 h6 h7
    unfold Dev.converted
    rw [if_neg (by rw [hw]; decide), Dev.conversionDone_failed h1 h2 hparts hho hf h0, h2]
    dsimp only
    obtain ⟨a1, a2, a3, a4, a5, a6⟩ := Dev.failed_spec (d := x) (code := code.code) (rest := rest) h44 h3 h5 h4 h6 rfl
    generalize ((((x.endEvent k rest).flagConvFault f k code.code (some ev.chan)).quarantine k f (decide (f = 5))).pilotAfter k).lose ev.chan = y
      at a1 a2 a3 a4 a5 a6
    obtain ⟨b1, b2⟩ := y.lostEdge_when (takeEvent k y.meas.events).isNone ev.chan ev.arr ev.tag
    generalize y.when (takeEvent k y.meas.events).isNone (Dev.lostEdge ev.chan ev.arr ev.tag) = z at b1 b2
    have hcell : z.cell k = y.cell k := congrArg (fun m : Meas => m.cells.getD k Cell.fresh) b1
    exact ⟨(congrArg Meas.events b1).trans a1, hcell ▸ a2, hcell ▸ a3, (Dev.flag_congr b2 _).trans a4, (Dev.flag_congr b2 _).trans a5,
      (Dev.rd_congr b2 _).trans (h7 ▸ a6)⟩
  · refine Effects.of_run (f := within k 48 fun d => (d.markBad ecc).converted k code redOk rstOk tableEcc) rfl ?_
    rw [within_of_lt hk]
    have hw := hworks _ rfl
    have hx : ∃ x : Dev, x = (s.dev.advance dt).markBad ecc ∧ x.meas = (s.dev.advance dt).meas ∧ x.live = s.dev.live ∧ x.pads = s.dev.pads ∧
        x.clk = (s.dev.advance dt).clk ∧ x.sram = s.dev.sram := by
      refine ⟨_, rfl, ?_⟩
      rw [hslots]
      exact ⟨rfl, rfl, rfl, rfl, rfl⟩
    obtain ⟨x, hxeq, hmeas, hlive, hpads, hclk, hsram⟩ := hx
    rw [← hxeq] at hw ⊢
    clear hxeq hslots hworks
    have h1 : (x.cell k).pilot = none := (congrArg (fun m : Meas => (m.cells.getD k Cell.fresh).pilot) hmeas).trans hpilot
    have h2 : takeEvent k x.meas.events = some (ev, rest) := hmeas ▸ htake
    have hfrac : x.fraction k code.code = s.dev.fraction k code.code := by
      unfold Dev.fraction Dev.sramWord
      rw [hsram]
    have hdelay : x.chanDelay ev.chan ev.trim = s.dev.chanDelay ev.chan ev.trim := by
      unfold Dev.chanDelay Dev.rdS
      simp only [Dev.rd_congr hlive]
    unfold Dev.converted
    rw [if_neg (by rw [hw]; decide), Dev.conversionDone_good h1 h2 hparts hho hf rfl, hfrac, hdelay, hclk]
    dsimp only
    obtain ⟨l, hl⟩ := (x.endEvent k rest).pilotAfter_parts k
    have hy : ((x.endEvent k rest).pilotAfter k).meas.events = rest ∧ ((x.endEvent k rest).pilotAfter k).live = x.live ∧
        ((x.endEvent k rest).pilotAfter k).pads = x.pads := by
      rw [hl]
      exact ⟨rfl, rfl, rfl⟩
    generalize (x.endEvent k rest).pilotAfter k = y at hy
    obtain ⟨y1, y2, y3⟩ := hy
    have hylive := y2.trans hlive
    have hypads := y3.trans hpads
    clear hl
    obtain ⟨a1, a2, a3⟩ := y.deliver_spec ⟨ev.chan, stamp ((ev.latch (s.dev.advance dt).clk (max (ev.stopAt + 1) (s.dev.advance dt).clk.tclk)).stop code.later).1
      ((ev.latch (s.dev.advance dt).clk (max (ev.stopAt + 1) (s.dev.advance dt).clk.tclk)).stop code.later).2 (s.dev.fraction k code.code)
      (s.dev.chanDelay ev.chan ev.trim), ev.arr, ev.tag, ev.mseq⟩ h20 h44
    refine ⟨(congrArg Meas.events a1).trans y1, a2.trans (Dev.rd_congr hylive _), fun n at_ hn hlen hpl hpk hfb hat => ?_⟩
    have hhears : PadHears n ev.chan s.dev := ⟨hlen, hpl, hpk, hfb⟩
    subst hat
    refine (a3 n hn (hhears.congr hn (congrArg List.length hypads) ?_ fun a _ _ => ?_)).trans ?_
    · unfold Dev.measuring Dev.mode
      rw [Dev.rd_congr hylive]
    · unfold Dev.word
      rw [hylive]
    · exact congrArg (fun p : List Paddock => (p.getD n Paddock.fresh).fbQ ++ [_]) hypads

end Sys2Proof.Machine
end

section
/-!
PROOF. The word of a paddock, its steps of device time, and its states (04 R108, R111, R112, R120, R123; O51).
-/

namespace Sys2Proof.Machine

/-! ### One turn of a loop over indices -/

/-- A loop over distinct indices whose other turns keep what holds before and after the turn of `n`. -/
theorem foldl_turn {f : Dev → Nat → Dev} {P Q : Dev → Prop} {n : Nat} {l : List Nat} (hn : n ∈ l) (hnd : l.Nodup)
    (before : ∀ d, ∀ i ∈ l, i ≠ n → P d → P (f d i)) (turn : ∀ d, P d → Q (f d n)) (after : ∀ d, ∀ i ∈ l, i ≠ n → Q d → Q (f d i)) {d : Dev}
    (h : P d) : Q (l.foldl f d) := by
  obtain ⟨xs, ys, rfl⟩ := List.append_of_mem hn
  have hxs : n ∉ xs := fun hm => (List.nodup_append.mp hnd).2.2 n hm n (List.mem_cons_self ..) rfl
  have hys : n ∉ ys := (List.nodup_cons.mp (List.nodup_append.mp hnd).2.1).1
  rw [List.foldl_append, List.foldl_cons]
  have h1 : P (xs.foldl f d) := List.foldlRecOn (motive := P) xs f h fun x hx i hi =>
    before x i (List.mem_append_left _ hi) (fun e => hxs (e ▸ hi)) hx
  exact List.foldlRecOn (motive := Q) ys f (turn _ h1) fun x hx i hi =>
    after x i (List.mem_append_right _ (List.mem_cons_of_mem _ hi)) (fun e => hys (e ▸ hi)) hx

/-! ### Rules of a paddock's state -/

section
variable {n : Nat} {d e : Dev}

theorem Dev.pad_setPad_self (f : Paddock → Paddock) (h : n < d.pads.length) : (d.setPad n f).pad n = f (d.pad n) := getD_updAt_self f Paddock.fresh h

theorem Dev.pad_setPad_of_ne {k : Nat} (f : Paddock → Paddock) (h : k ≠ n) : (d.setPad n f).pad k = d.pad k := getD_updAt_of_ne f Paddock.fresh h

theorem Dev.pads_setPad (f : Paddock → Paddock) : (d.setPad n f).pads.length = d.pads.length := List.length_modify ..

/-- A part of every paddock that an update of one leaves. -/
theorem Dev.pad_setPad_of_same {α : Type} (g : Paddock → α) {f : Paddock → Paddock} (h : ∀ p, g (f p) = g p) (k : Nat) :
    g ((d.setPad n f).pad k) = g (d.pad k) := by
  by_cases hk : k = n
  · subst hk
    by_cases hl : k < d.pads.length
    · rw [Dev.pad_setPad_self f hl, h]
    · unfold Dev.pad
      rw [List.getD_eq_default _ _ (by rw [Dev.pads_setPad]; exact Nat.le_of_not_lt hl), List.getD_eq_default _ _ (Nat.le_of_not_lt hl)]
  · rw [Dev.pad_setPad_of_ne f hk]

/-! ### The word reaches its actuator (R111; 06 R164, R174) -/

/-- The registers that a paddock's word writes: the word itself and the words of APLLs. -/
def WordAt (n a : Nat) : Prop := a = rPAD_FW_LO n ∨ a = rPAD_FW_HI n ∨ (0x040000 ≤ a ∧ a < 0x042000)

/-- What a paddock's word leaves: every other register, the parts of paddocks but their edge generators, the memory and the clocks but the
increment. -/
structure Worded (A : Nat → Prop) (d e : Dev) : Prop where
  word : ∀ a, ¬ A a → e.word a = d.word a
  len : e.pads.length = d.pads.length
  pad : ∀ {α : Type} (g : Paddock → α), (∀ p x y, g { p with egAcc := x, egAt := y } = g p) → ∀ k, g (e.pad k) = g (d.pad k)
  sram : e.sram = d.sram
  dev : e.clk.dev = d.clk.dev
  hsec : e.clk.hsec = d.clk.hsec

theorem Worded.trans {A : Nat → Prop} {f : Dev} (h : Worded A d e) (h' : Worded A e f) : Worded A d f where
  word a ha := (h'.word a ha).trans (h.word a ha)
  len := h'.len.trans h.len
  pad g hg k := (h'.pad g hg k).trans (h.pad g hg k)
  sram := h'.sram.trans h.sram
  dev := h'.dev.trans h.dev
  hsec := h'.hsec.trans h.hsec

theorem Worded.refl (A : Nat → Prop) (d : Dev) : Worded A d d := ⟨fun _ _ => rfl, rfl, fun _ _ _ => rfl, rfl, rfl, rfl⟩

theorem Worded.wr {A : Nat → Prop} (d : Dev) (f : Fld) (v : Nat) (h : A f.addr) : Worded A d (d.wr f v) :=
  ⟨fun _ ha => Dev.word_setWord_of_ne _ _ _ _ fun e => ha (e ▸ h), rfl, fun _ _ _ => rfl, rfl, rfl, rfl⟩

theorem Worded.wr48 {A : Nat → Prop} (d : Dev) (lo hi : Fld) (v : Int) (hl : A lo.addr) (hh : A hi.addr) : Worded A d (d.wr48 lo hi v) :=
  (Worded.wr d lo _ hl).trans (Worded.wr _ hi _ hh)

theorem Worded.applyN {A : Nat → Prop} {k : Nat} (hA : ∀ a, 0x040000 ≤ a → a < 0x042000 → A a) (hk : k < 16) (y : Int) (d : Dev) : Worded A d (d.applyN k y) := by
  have hmark : Worded A d (d.vcoMark k) := ⟨fun _ _ => rfl, rfl, fun _ _ _ => rfl, rfl, rfl, rfl⟩
  have hreg : ∀ b, 0x040000 ≤ b → b < 0x040200 → A (b + 0x200 * k) := fun b h1 h2 => hA _ (by omega) (by omega)
  exact ((hmark.trans (Worded.wr _ (FLOCK_N_LO_N k) _ (hreg _ (by decide) (by decide)))).trans
    (Worded.wr _ (FLOCK_N_HI_NF k) _ (hreg _ (by decide) (by decide)))).trans (Worded.wr _ (FLOCK_N_HI_NI k) _ (hreg _ (by decide) (by decide)))

theorem Worded.actuate {A : Nat → Prop} (hA : ∀ a, 0x040000 ≤ a → a < 0x042000 → A a) (n : Nat) (y : Int) (d : Dev) : Worded A d (d.actuate n y) := by
  unfold Dev.actuate
  dsimp only
  split
  · split
    · exact Worded.refl A d
    · exact Worded.applyN hA (Dev.rd_lt _ _) y d
  · split
    · exact ⟨fun _ _ => rfl, rfl, fun _ _ _ => rfl, rfl, rfl, rfl⟩
    · exact Worded.refl A d

theorem Worded.setWordY (n : Nat) (y : Int) (d : Dev) : Worded (WordAt n) d (d.setWordY n y) := by
  unfold Dev.setWordY
  extract_lets eg x z c w
  have hx : Worded (WordAt n) d x := ⟨fun _ _ => rfl, Dev.pads_setPad _, fun g hg k => Dev.pad_setPad_of_same g (fun p => hg p _ _) k, rfl, rfl, rfl⟩
  have hz : Worded (WordAt n) x z := Worded.wr48 _ _ _ _ (Or.inl rfl) (Or.inr (Or.inl rfl))
  have hw : Worded (WordAt n) z w := by
    unfold w
    split
    · exact ⟨fun _ _ => rfl, rfl, fun _ _ _ => rfl, rfl, rfl, rfl⟩
    · exact Worded.refl _ _
  exact ((hx.trans hz).trans hw).trans (Worded.actuate (fun a h1 h2 => Or.inr (Or.inr ⟨h1, h2⟩)) n y w)

end

end Sys2Proof.Machine
end

section
/-!
PROOF. Steps of device time and the states that a paddock takes (04 R112, R120, R123; O51).
-/

namespace Sys2Proof.Machine

/-! ### A step of device time (R112) -/

theorem Heard.abortWhere (cause : Nat) (p : Job → Bool) (d : Dev) : Heard d (d.abortWhere cause p) := by
  unfold Dev.abortWhere Dev.abortSlots Dev.settleRings forN
  refine (Heard.foldl _ (fun d k => ?_) d).trans (Heard.foldl _ (fun d r => Heard.settleRing r d) _)
  split
  · split
    · exact Heard.of_jobs (JobsOnly.setJob ..)
    · exact Heard.refl d
  · exact Heard.refl d

theorem HeardReg.pad {n b : Nat} (hn : n < 16) (h1 : 0x030000 ≤ b := by decide) (h2 : b < 0x030400 := by decide) : HeardReg (b + 0x400 * n) :=
  Or.inr (Or.inl (by omega))

section
variable {n : Nat} {d e : Dev}

/-- The clock after a step. -/
def Clock.stepped (c : Clock) (u : Int) : Clock := { c with dev := (((c.dev : Int) + u * 2 ^ 32) % (devTop : Int)).toNat }

theorem Dev.stepDevice_spec (n : Nat) (u : Int) (d : Dev) :
    Heard (({ d with clk := d.clk.stepped u } : Dev).evt (PAD_HIST_STEP_DONE n)) (d.stepDevice n u) ∧ (d.stepDevice n u).clk = d.clk.stepped u := by
  have hjobs := JobEnds.abortWhere 8 (fun j => j.done.isNone && j.start.isSome && (match j.kind with | .interval | .freq | .period => true | _ => false))
    (({ d with clk := d.clk.stepped u } : Dev).evt (PAD_HIST_STEP_DONE n))
  have hheard := Heard.abortWhere 8 (fun j => j.done.isNone && j.start.isSome && (match j.kind with | .interval | .freq | .period => true | _ => false))
    (({ d with clk := d.clk.stepped u } : Dev).evt (PAD_HIST_STEP_DONE n))
  have hepoch := JobsOnly.epochAll 4 ((({ d with clk := d.clk.stepped u } : Dev).evt (PAD_HIST_STEP_DONE n)).abortStep)
  refine ⟨hheard.trans (Heard.of_jobs hepoch), (hepoch.clk.trans hjobs.clk).trans ?_⟩
  exact (Still.evt (A := fun a => a = rPAD_HIST n) _ (PAD_HIST_STEP_DONE n) rfl).clk

/-- An update that keeps a paddock's state and the bits of its history that are set. -/
structure PadKept (n : Nat) (d e : Dev) : Prop where
  state : e.rd (PAD_STATE_STATE n) = d.rd (PAD_STATE_STATE n)
  hist : ∀ f : Fld, f.Bit → f.addr = rPAD_HIST n → d.flag f = true → e.flag f = true

namespace PadKept

theorem refl (n : Nat) (d : Dev) : PadKept n d d := ⟨rfl, fun _ _ _ h => h⟩

theorem trans {f : Dev} (h : PadKept n d e) (h' : PadKept n e f) : PadKept n d f :=
  ⟨h'.state.trans h.state, fun f hf ha hd => h'.hist f hf ha (h.hist f hf ha hd)⟩

theorem of_word (h1 : e.word (rPAD_STATE n) = d.word (rPAD_STATE n)) (h2 : e.word (rPAD_HIST n) = d.word (rPAD_HIST n)) : PadKept n d e :=
  ⟨Dev.rd_of_word h1, fun f _ ha hd => (Dev.flag_of_rd (Dev.rd_of_word (by rw [ha]; exact h2))).trans hd⟩

theorem of_heard (h : Heard d e) (hn : n < 16) : PadKept n d e := of_word (h.word _ (.pad hn)) (h.word _ (.pad hn))

theorem of_apart {A : Nat → Prop} (h : Apart A d e) (h1 : ¬ A (rPAD_STATE n)) (h2 : ¬ A (rPAD_HIST n)) : PadKept n d e :=
  of_word (h.word _ h1) (h.word _ h2)

theorem wr (d : Dev) (f : Fld) (v : Nat) (h : f.apart (PAD_STATE_STATE n)) (h' : f.addr ≠ rPAD_HIST n) : PadKept n d (d.wr f v) :=
  ⟨Dev.rd_wr_apart h d v, fun g _ ha hd => (Dev.flag_of_rd (Dev.rd_wr_of_ne d f g v (by rw [ha]; exact h'.symm))).trans hd⟩

/-- A write to another register of paddocks. -/
theorem wr_other (d : Dev) (f : Fld) (v : Nat) (h : f.addr ≠ rPAD_STATE n) (h' : f.addr ≠ rPAD_HIST n) : PadKept n d (d.wr f v) :=
  of_word (Dev.word_setWord_of_ne _ _ _ _ h.symm) (Dev.word_setWord_of_ne _ _ _ _ h'.symm)

theorem evt (d : Dev) (f : Fld) (hf : f.Bit) (h : f.addr ≠ rPAD_STATE n) : PadKept n d (d.evt f) :=
  ⟨Dev.rd_evt_of_ne _ _ _ h.symm, fun _ hg _ hd => Dev.flag_evt_mono hg hf hd⟩

theorem evtIf (d : Dev) (b : Bool) (f : Fld) (hf : f.Bit) (h : f.addr ≠ rPAD_STATE n) : PadKept n d (d.evtIf b f) := by
  cases b
  · exact refl n d
  · exact evt d f hf h

theorem when {f : Dev → Dev} (b : Bool) (h : PadKept n d (f d)) : PadKept n d (d.when b f) := by
  cases b
  · exact refl n d
  · exact h

theorem fire (d : Dev) (src detail : Nat) (hn : n < 16) : PadKept n d (d.fire src detail) :=
  of_heard (Heard.fireAs ..) hn

theorem setWordY (d : Dev) (hn : n < 16) (y : Int) : PadKept n d (d.setWordY n y) := by
  have h := Worded.setWordY n y d
  exact of_word (h.word _ (by unfold WordAt rPAD_STATE rPAD_FW_LO rPAD_FW_HI; omega)) (h.word _ (by unfold WordAt rPAD_HIST rPAD_FW_LO rPAD_FW_HI; omega))

theorem setPad (d : Dev) (k : Nat) (f : Paddock → Paddock) : PadKept n d (d.setPad k f) := of_word rfl rfl

theorem setSel (d : Dev) (k : Nat) (f : Select → Select) : PadKept n d (d.setSel k f) := of_word rfl rfl

theorem stepDevice (d : Dev) (hn : n < 16) (u : Int) : PadKept n d (d.stepDevice n u) :=
  ((of_word (d := d) (e := { d with clk := d.clk.stepped u }) rfl rfl).trans (evt { d with clk := d.clk.stepped u } (PAD_HIST_STEP_DONE n) ⟨rfl, show 5 < 24 by decide⟩
    (show rPAD_HIST n ≠ rPAD_STATE n by unfold rPAD_HIST rPAD_STATE; omega))).trans (of_heard (Dev.stepDevice_spec n u d).1 hn)

theorem takeStep (d : Dev) (hn : n < 16) : PadKept n d (d.takeStep n) := by
  unfold Dev.takeStep
  split
  · exact refl n d
  · dsimp only
    split
    · exact (setPad d n _).trans (evt _ (PAD_ERR_TSTEP_REJ n) ⟨rfl, show 3 < 24 by decide⟩
        (show rPAD_ERR n ≠ rPAD_STATE n by unfold rPAD_ERR rPAD_STATE; omega))
    · exact (setPad d n _).trans (stepDevice _ hn _)

theorem padIdle (d : Dev) (hn : n < 16) : PadKept n d (d.padIdle n) := by
  unfold Dev.padIdle
  split
  · exact refl n d
  · dsimp only
    split
    · split
      · exact ((takeStep d hn).trans (setPad _ n _)).trans (setWordY _ hn _)
      · exact (takeStep d hn).trans (setPad _ n _)
    · exact takeStep d hn

theorem padHalt (d : Dev) : PadKept n d (d.padHalt n) :=
  ((setPad d n _).trans (setSel _ n _)).trans <| (wr_other _
    (PAD_SEL_STAT_HOLDING n) 0 (show rPAD_SEL_STAT n ≠ _ by unfold rPAD_SEL_STAT rPAD_STATE; omega)
    (show rPAD_SEL_STAT n ≠ _ by unfold rPAD_SEL_STAT rPAD_HIST; omega)).trans
  (wr_other _ (PAD_SEL_STAT_HOLD_LEFT n) 0 (show rPAD_SEL_STAT n ≠ _ by unfold rPAD_SEL_STAT rPAD_STATE; omega)
    (show rPAD_SEL_STAT n ≠ _ by unfold rPAD_SEL_STAT rPAD_HIST; omega))

theorem wr48 (d : Dev) (lo hi : Fld) (v : Int) (h1 : lo.addr ≠ rPAD_STATE n) (h2 : lo.addr ≠ rPAD_HIST n) (h3 : hi.addr ≠ rPAD_STATE n)
    (h4 : hi.addr ≠ rPAD_HIST n) : PadKept n d (d.wr48 lo hi v) := (wr_other d lo _ h1 h2).trans (wr_other _ hi _ h3 h4)

theorem formHw (d : Dev) : PadKept n d (d.formHw n) :=
  wr48 d (PAD_HW_LO_VALUE n) (PAD_HW_HI_VALUE n) _ (show rPAD_HW_LO n ≠ _ by unfold rPAD_HW_LO rPAD_STATE; omega)
    (show rPAD_HW_LO n ≠ _ by unfold rPAD_HW_LO rPAD_HIST; omega) (show rPAD_HW_HI n ≠ _ by unfold rPAD_HW_HI rPAD_STATE; omega)
    (show rPAD_HW_HI n ≠ _ by unfold rPAD_HW_HI rPAD_HIST; omega)

end PadKept

/-- A paddock takes a state; the bits of its history stand. -/
theorem Dev.padTake_spec (d : Dev) (hn : n < 16) {st : Nat} (hst : st < 5) :
    (d.padTake n st).rd (PAD_STATE_STATE n) = st ∧ ∀ f : Fld, f.Bit → f.addr = rPAD_HIST n → d.flag f = true → (d.padTake n st).flag f = true := by
  have hne : rPAD_HIST n ≠ rPAD_STATE n := by unfold rPAD_HIST rPAD_STATE; omega
  unfold Dev.padTake
  extract_lets old entry x y z w
  have hx : PadKept n (d.wr (PAD_STATE_STATE n) st) x := PadKept.evtIf _ entry (histBit n st) ⟨rfl, show st < 24 by omega⟩ hne
  have hy : PadKept n x y := PadKept.when _ (PadKept.wr x (PAD_STATE_CLAMPED n) 0
    ⟨⟨show 29 ≤ 31 by decide, show 31 < 32 by decide⟩, show 14 ≤ 14 by decide, Or.inr (show 14 < 29 ∨ 31 < 14 by decide)⟩ hne.symm)
  have hz : PadKept n y z := PadKept.when _ ((PadKept.setPad y n fun p => { p with spoRem := 0 }).trans
    (PadKept.wr _ (PAD_STATE_SLEWING n) 0
      ⟨⟨show 29 ≤ 31 by decide, show 31 < 32 by decide⟩, show 12 ≤ 12 by decide, Or.inr (show 12 < 29 ∨ 31 < 12 by decide)⟩ hne.symm))
  have hw : PadKept n z w := PadKept.when _ (PadKept.setPad z n fun p => { p with secUsable := false })
  have hlast := hw.trans (PadKept.when (f := fun d => d.fire 24 n) (entry && decide (old = 2) && (decide (st = 3) || decide (st = 0))) (PadKept.fire w 24 n hn))
  have hall := ((hx.trans hy).trans hz).trans hlast
  refine ⟨hall.state.trans ?_, fun f hf ha hd => hall.hist f hf ha ?_⟩
  · rw [Dev.rd_wr_self _ _ _ ⟨show 29 ≤ 31 by decide, show 31 < 32 by decide⟩]
    exact Nat.mod_eq_of_lt (show st < 2 ^ 3 by omega)
  · exact (Dev.flag_of_rd (Dev.rd_wr_of_ne d _ _ _ (by rw [ha]; exact hne))).trans hd

end

end Sys2Proof.Machine
end

section
/-!
PROOF. A paddock that falls, the slew of STEERED, and commanded steps (04 R112, R120, R123; O51).
-/

namespace Sys2Proof.Machine

/-! ### Ports of a paddock in FREERUN -/

/-- The registers of the steering ports, and those of a firing. -/
def PortSide (a : Nat) : Prop := (0x0B0000 ≤ a ∧ a < 0x0B0400) ∨ firingAt a

theorem PortSide.port {k b : Nat} (hk : k < 8) (h1 : 0x0B0000 ≤ b := by decide) (h2 : b < 0x0B0040 := by decide) : PortSide (b + 0x40 * k) := by
  left; omega

theorem PortSide.firing : ∀ a, firingAt a → PortSide a := fun _ h => Or.inr h

theorem PortSide.not_pad {a : Nat} (h1 : 0x030000 ≤ a) (h2 : a < 0x034000) : ¬ PortSide a := by
  rintro (h | h)
  · omega
  · exact not_firingReg (by omega) (by omega) (by omega) (by omega) h.reg

theorem OnlyRegs.portFault (d : Dev) {k : Nat} (hk : k < 8) (cause : Nat) : OnlyRegs PortSide d (d.portFault k cause) := by
  have pend : ∀ x : Dev, OnlyRegs PortSide x (x.portPend k) := fun x => (OnlyRegs.refl _ x).wr (STEER_STAT_PENDING k) _ (.port hk)
  unfold Dev.portFault
  dsimp only
  split
  · have h := (((OnlyRegs.refl PortSide d).wr (STEER_STAT_STATE k) 2 (.port hk)).wr (STEER_STAT_CAUSE k) cause (.port hk)).wr (STEER_STAT_PARKED k)
      (b2n (d.flag (STEER_CTL_ACT k))) (.port hk)
    refine OnlyRegs.trans ?_ (pend _)
    exact (((h.when _ _ ((OnlyRegs.refl _ _).wr (STEER_STAT_SLEW_LIM k) 0 (.port hk))).setPort _ _).evt (STEER_EVT_FAULT k) (.port hk)).fire _ _ PortSide.firing
  · split
    · refine OnlyRegs.trans ?_ (pend _)
      exact (((OnlyRegs.refl _ d).setPort _ _).wr (STEER_STAT_CAUSE k) cause (.port hk)).setPort _ _
    · exact (OnlyRegs.refl _ d).setPort _ _
  · exact OnlyRegs.refl _ d

theorem OnlyRegs.portsFreerun (d : Dev) (pad : Nat) : OnlyRegs PortSide d (d.portsFreerun pad) := by
  unfold Dev.portsFreerun
  split
  · refine (OnlyRegs.refl _ d).foldl _ _ fun k hk d => ?_
    split
    · exact OnlyRegs.portFault d (Dev.portsOf_lt _ _ k hk) 2
    · exact OnlyRegs.refl _ d
  · exact OnlyRegs.refl _ d

/-! ### A paddock falls to HOLDOVER or FREERUN (R120) -/

section
variable {n : Nat} {d : Dev}

/-- A paddock is in a state, with a bit of its history set. -/
def InState (n st : Nat) (f : Fld) (d : Dev) : Prop := d.padSt n = st ∧ d.flag f = true

theorem InState.kept {st : Nat} {f : Fld} {e : Dev} (h : InState n st f d) (hf : f.Bit) (ha : f.addr = rPAD_HIST n) (hk : PadKept n d e) :
    InState n st f e := ⟨hk.state.trans h.1, hk.hist f hf ha h.2⟩

theorem Dev.padTake_state (hn : n < 16) {st : Nat} (hst : st < 5) {f : Fld} (hf : f.Bit) (ha : f.addr = rPAD_HIST n) (h : d.flag f = true) :
    InState n st f (d.padTake n st) := ⟨(d.padTake_spec hn hst).1, (d.padTake_spec hn hst).2 f hf ha h⟩

theorem Dev.enterHoldover_state (hn : n < 16) {f : Fld} (hf : f.Bit) (ha : f.addr = rPAD_HIST n) (h : d.flag f = true) :
    InState n 3 f (d.enterHoldover n) := by
  unfold Dev.enterHoldover
  dsimp only
  exact (Dev.padTake_state hn (by decide) hf ha h).kept hf ha
    ((((PadKept.padHalt _).trans (PadKept.formHw _)).trans (PadKept.setWordY _ hn _)).trans (PadKept.padIdle _ hn))

theorem PadKept.holdInvalid (hn : n < 16) (b : Bool) (d : Dev) : PadKept n d (d.when b fun d => (d.evt (PAD_HIST_HOLD_INVALID n)).fire 25 n) :=
  PadKept.when b ((PadKept.evt d (PAD_HIST_HOLD_INVALID n) ⟨rfl, show 9 < 24 by decide⟩
    (show rPAD_HIST n ≠ rPAD_STATE n by unfold rPAD_HIST rPAD_STATE; omega)).trans (PadKept.fire _ 25 n hn))

theorem Dev.enterFreerun_state (hn : n < 16) (b : Bool) {f : Fld} (hf : f.Bit) (ha : f.addr = rPAD_HIST n) (h : d.flag f = true) :
    InState n 0 f (d.enterFreerun n b) := by
  have hports : ∀ x : Dev, PadKept n x (x.portsFreerun n) := fun x =>
    PadKept.of_word ((OnlyRegs.portsFreerun x n).word _ (PortSide.not_pad (by unfold rPAD_STATE; omega) (by unfold rPAD_STATE; omega)))
      ((OnlyRegs.portsFreerun x n).word _ (PortSide.not_pad (by unfold rPAD_HIST; omega) (by unfold rPAD_HIST; omega)))
  unfold Dev.enterFreerun
  dsimp only
  exact (Dev.padTake_state hn (by decide) hf ha h).kept hf ha
    (((((PadKept.padHalt _).trans (PadKept.setWordY _ hn _)).trans (PadKept.holdInvalid hn b _)).trans (hports _)).trans (PadKept.padIdle _ hn))

/-- The average's computation leaves states and history bits. -/
theorem PadKept.computeH (d : Dev) : PadKept n d (d.computeH n).1 := by
  unfold Dev.computeH
  extract_lets guard onset g w r ok x y z
  have hx : PadKept n d x :=
    (PadKept.wr_other d (PAD_HSTAT_VALUE n) _ (show rPAD_HSTAT n ≠ _ by unfold rPAD_HSTAT rPAD_STATE; omega)
      (show rPAD_HSTAT n ≠ _ by unfold rPAD_HSTAT rPAD_HIST; omega)).trans
    (PadKept.wr_other _ (PAD_HGEFF_VALUE n) _ (show rPAD_HGEFF n ≠ _ by unfold rPAD_HGEFF rPAD_STATE; omega)
      (show rPAD_HGEFF n ≠ _ by unfold rPAD_HGEFF rPAD_HIST; omega))
  have hy : PadKept n x y := PadKept.wr x (PAD_STATE_HOLD_VALID n) _
    ⟨⟨show 29 ≤ 31 by decide, show 31 < 32 by decide⟩, show 15 ≤ 15 by decide, Or.inr (show 15 < 29 ∨ 31 < 15 by decide)⟩
    (show rPAD_STATE n ≠ rPAD_HIST n by unfold rPAD_HIST rPAD_STATE; omega)
  have hz : PadKept n y z := PadKept.when ok (PadKept.wr48 y _ _ _ (show rPAD_HAVG_LO n ≠ _ by unfold rPAD_HAVG_LO rPAD_STATE; omega)
    (show rPAD_HAVG_LO n ≠ _ by unfold rPAD_HAVG_LO rPAD_HIST; omega) (show rPAD_HAVG_HI n ≠ _ by unfold rPAD_HAVG_HI rPAD_STATE; omega)
    (show rPAD_HAVG_HI n ≠ _ by unfold rPAD_HAVG_HI rPAD_HIST; omega))
  exact (hx.trans hy).trans hz

/-- A DPLL or STEER paddock that falls from a state other than HOLDOVER and FREERUN. -/
theorem Dev.padFall_state (hn : n < 16) (hk : d.padKind n < 2) (h0 : d.padSt n ≠ 0) (h3 : d.padSt n ≠ 3) {f : Fld} (hf : f.Bit)
    (ha : f.addr = rPAD_HIST n) (h : d.flag f = true) : InState n (if (d.computeH n).2 then 3 else 0) f (d.padFall n) := by
  have hflag := (PadKept.computeH (n := n) d).hist f hf ha h
  unfold Dev.padFall
  dsimp only
  rw [if_neg (show ¬ 2 ≤ d.padKind n by omega), if_neg h3, if_neg h0]
  by_cases hv : (d.computeH n).2 = true
  · rw [if_pos hv, if_pos hv]
    exact Dev.enterHoldover_state hn hf ha hflag
  · rw [if_neg hv, if_neg hv]
    exact Dev.enterFreerun_state hn true hf ha hflag

/-- Two devices with the same history of paddock `n`. -/
structure HistSame (n : Nat) (d e : Dev) : Prop where
  hsec : e.clk.hsec = d.clk.hsec
  start : (e.pad n).histFrom = (d.pad n).histFrom
  sram : e.sram = d.sram

namespace HistSame

variable {e : Dev}

theorem entry (h : HistSame n d e) (lvl k : Nat) : e.histEntry n lvl k = d.histEntry n lvl k := by
  unfold Dev.histEntry
  rw [h.sram]

theorem ends (h : HistSame n d e) (lvl p : Nat) : e.histEnds n lvl p = d.histEnds n lvl p := by
  unfold Dev.histEnds Dev.histStored
  rw [h.hsec, h.start]

theorem back (h : HistSame n d e) (p : Nat) : e.histBack n p = d.histBack n p := by
  unfold Dev.histBack
  simp only [h.ends]

theorem take (h : HistSame n d e) (w fuel p sum : Nat) (acc : Int) : e.histTake n w fuel p sum acc = d.histTake n w fuel p sum acc := by
  induction fuel generalizing p sum acc with
  | zero => rfl
  | succ fuel ih =>
    unfold Dev.histTake
    simp only [h.ends, h.entry, ih]

end HistSame

/-- What the validity of an average depends on. -/
theorem Dev.computeH_congr {e : Dev} (h : HistSame n d e) (hr : e.refs = d.refs) (h1 : e.word (rPAD_HGUARD n) = d.word (rPAD_HGUARD n))
    (h2 : e.word (rPAD_HWIN n) = d.word (rPAD_HWIN n)) (h3 : e.word (rPAD_STATE n) = d.word (rPAD_STATE n)) :
    (e.computeH n).2 = (d.computeH n).2 := by
  have hguard : e.rd (PAD_HGUARD_GUARD n) = d.rd (PAD_HGUARD_GUARD n) := Dev.rd_of_word h1
  have hmin : e.rdIn (PAD_HGUARD_HOLD_MIN n) 1 65535 = d.rdIn (PAD_HGUARD_HOLD_MIN n) 1 65535 := by
    unfold Dev.rdIn
    rw [Dev.rd_of_word (f := PAD_HGUARD_HOLD_MIN n) h1]
  have hwin : e.rdIn (PAD_HWIN_W n) 1 100000 = d.rdIn (PAD_HWIN_W n) 1 100000 := by
    unfold Dev.rdIn
    rw [Dev.rd_of_word (f := PAD_HWIN_W n) h2]
  have hch : e.rd (PAD_STATE_ACTIVE_CH n) = d.rd (PAD_STATE_ACTIVE_CH n) := Dev.rd_of_word h3
  have hstray : e.padStray n = d.padStray n := Dev.flag_of_rd (Dev.rd_of_word h3)
  have honset : ∀ k, e.ref k = d.ref k := fun k => by
    unfold Dev.ref
    rw [hr]
  unfold Dev.computeH
  dsimp only
  rw [hguard, hmin, hwin, hch, hstray, honset, h.hsec, h.back, h.take]

end

/-! ### The slew of STEERED (R123) -/

theorem Dev.slewTick_spec {n : Nat} {d : Dev} (hl : n < d.pads.length) (hst : d.padSt n = 4) (hu : d.padUpdating n = false) {k : Int}
    (hk : k = min ((d.pad n).spoRem.natAbs : Int) (d.slewPer n (d.rdIn (PAD_SCFG_PSLEW n) 1 65535))) {s : Int}
    (hs : s = if (d.pad n).spoRem < 0 then -k else k) :
    ((d.slewTick n).pad n).so = (d.pad n).so + s ∧ ((d.slewTick n).pad n).spoRem = (d.pad n).spoRem - s := by
  have hword : ∀ (x : Dev) (sign : Int), ((x.steerWord n sign).pad n).so = (x.pad n).so ∧ ((x.steerWord n sign).pad n).spoRem = (x.pad n).spoRem :=
    fun x sign => ⟨(Worded.setWordY n _ x).pad Paddock.so (fun _ _ _ => rfl) n, (Worded.setWordY n _ x).pad Paddock.spoRem (fun _ _ _ => rfl) n⟩
  unfold Dev.slewTick
  rw [if_pos ⟨hst, by rw [hu]; decide⟩]
  dsimp only
  obtain ⟨h1, h2⟩ := hword (d.padSlew n).1 (d.padSlew n).2
  rw [h1, h2]
  have hcast : k = ((min (d.pad n).spoRem.natAbs (d.slewPer n (d.rdIn (PAD_SCFG_PSLEW n) 1 65535)) : Nat) : Int) := by
    rw [hk]
    omega
  unfold Dev.padSlew
  extract_lets p m s' x
  split
  · next h0 =>
    have hz : (d.pad n).spoRem = 0 := h0
    have : s = 0 := by
      rw [hs, hk, hz]
      simp
    rw [this]
    simp
  · have hss : s' = s := by
      rw [hs, hcast]
    have hx : x.pad n = { p with so := p.so + s', spoRem := p.spoRem - s' } := Dev.pad_setPad_self _ hl
    have hw : ∀ v, (x.wr (PAD_STATE_SLEWING n) v).pad n = x.pad n := fun _ => rfl
    dsimp only
    rw [hw, hx, hss]
    exact ⟨rfl, rfl⟩

end Sys2Proof.Machine
end

section
/-!
PROOF. Commanded steps, the history second and the model tick (04 R112, R126, R129; O51).
-/

namespace Sys2Proof.Machine

section
variable {n : Nat} {d : Dev}

/-! ### TSTEP_CMD (R112) -/

theorem Dev.write_tstepCmd {m : Nat} (hn : n < 16) (h : d.Grants m (rPAD_TSTEP_CMD n)) :
    ∃ o, d.write m (rPAD_TSTEP_CMD n) 1 = (({ d with outside := o } : Dev).tstepCmd n).accessEdge := by
  have row : ∃ r, rowAt (rPAD_TSTEP_CMD n) = some r ∧ plainCommand (rPAD_TSTEP_CMD n) r = true ∧ r.rw = 0 ∧ r.rws = 0 := by
    interval_cases n <;> exact ⟨_, rfl, by decide, rfl, rfl⟩
  obtain ⟨r, hr, hp, hrw, hrws⟩ := row
  have hcmd : ∀ x : Dev, x.command m (rPAD_TSTEP_CMD n) 1 = x.tstepCmd n := fun x => by interval_cases n <;> rfl
  obtain ⟨o, ho⟩ := Dev.write_bare h hr hp hrw hrws (show 1 < 2 ^ 32 by decide)
  exact ⟨o, ho.trans (by rw [hcmd])⟩

theorem Effects.of_tstepCmd {s : State} {dt m : Nat} {P : Dev → Prop} (hn : n < 16) (hg : s.dev.Grants m (rPAD_TSTEP_CMD n))
    (hp : ∀ o, P (({ s.dev.advance dt with outside := o } : Dev).tstepCmd n).accessEdge) : Effects (.tstepCmd dt m n) s P := by
  refine Effects.of_run (f := within n 16 (Dev.write m (rPAD_TSTEP_CMD n) 1)) rfl ?_
  obtain ⟨o, ho⟩ := Dev.write_tstepCmd (d := s.dev.advance dt) hn ⟨hg.1, hg.2⟩
  rw [within_of_lt hn, ho]
  exact hp o

/-- A command that is rejected. -/
theorem Dev.tstepCmd_rejected {u : Int × Int} (hu : u = (d.rdS (PAD_TSTEP_SEC_STEP n), d.rdS (PAD_TSTEP_NS_STEP n)))
    (h : d.padTk n = false ∨ 999999999 < u.2.natAbs ∨ (d.pad n).tstep.isSome = true ∨ d.stepBelow (stepUnits u) = true) :
    d.tstepCmd n = d.evt (PAD_ERR_TSTEP_REJ n) := by
  subst hu
  unfold Dev.tstepCmd
  exact if_pos (h.imp_left fun h => by rw [h]; decide)

/-- A command that is taken: it waits for the next update, or the step is made. -/
theorem Dev.tstepCmd_taken {u : Int × Int} (hu : u = (d.rdS (PAD_TSTEP_SEC_STEP n), d.rdS (PAD_TSTEP_NS_STEP n))) (htk : d.padTk n = true)
    (hns : u.2.natAbs ≤ 999999999) (hw : (d.pad n).tstep = none) (hb : d.stepBelow (stepUnits u) = false) :
    d.tstepCmd n = if d.padUpdating n then d.setPad n fun p => { p with tstep := some u }
      else (d.setPad n fun p => { p with tstep := some u }).takeStep n := by
  subst hu
  unfold Dev.tstepCmd
  refine (if_neg ?_).trans rfl
  rintro (h | h | h | h)
  · exact h htk
  · exact Nat.not_lt.mpr hns h
  · exact Bool.noConfusion ((congrArg Option.isSome hw).symm.trans h)
  · exact Bool.noConfusion (hb.symm.trans h)

/-- The step that a paddock waits for is made. -/
theorem Dev.takeStep_spec {u : Int × Int} (hn : n < 16) (hl : n < d.pads.length) (hw : (d.pad n).tstep = some u) (hb : d.stepBelow (stepUnits u) = false) :
    ((d.takeStep n).pad n).tstep = none ∧ (d.takeStep n).flag (PAD_HIST_STEP_DONE n) = true ∧
      ((d.takeStep n).clk.dev : Int) = (d.clk.dev + stepUnits u * 2 ^ 32) % (devTop : Int) := by
  have hstep : d.takeStep n = (d.setPad n fun p => { p with tstep := none }).stepDevice n (stepUnits u) := by
    unfold Dev.takeStep
    rw [hw]
    exact if_neg (by rw [show (d.setPad n fun p => { p with tstep := none }).stepBelow (stepUnits u) = d.stepBelow (stepUnits u) from rfl, hb]; decide)
  have hpad : ((d.setPad n fun p => { p with tstep := none }).pad n).tstep = none := by rw [Dev.pad_setPad_self _ hl]
  have hdev : (d.setPad n fun p => { p with tstep := none }).clk = d.clk := rfl
  rw [hstep]
  generalize (d.setPad n fun p => { p with tstep := none }) = x at hpad hdev
  obtain ⟨h1, h2⟩ := x.stepDevice_spec n (stepUnits u)
  generalize x.stepDevice n (stepUnits u) = y at h1 h2
  refine ⟨?_, ?_, ?_⟩
  · have hp : y.pads = x.pads := h1.pads.trans (Dev.evt_pads ..)
    exact (congrArg (fun l : List Paddock => (l.getD n Paddock.fresh).tstep) hp).trans hpad
  · exact (Dev.flag_of_rd (Dev.rd_of_word (h1.word _ (.pad hn)))).trans (Dev.flag_evt_self _ _ rfl (show 5 < 24 by decide))
  · rw [h2, hdev]
    exact Int.toNat_of_nonneg (Int.emod_nonneg _ (by decide))

/-! ### The history second (R126) -/

/-- The range of bytes of an entry of a level (R126). -/
theorem histAddr_bounds (n lvl k : Nat) :
    0x170000 + 0x800 * n + 0x200 * lvl ≤ histAddr n lvl k ∧ histAddr n lvl k + 8 ≤ 0x170000 + 0x800 * n + 0x200 * lvl + 0x200 := by
  unfold histAddr
  omega

/-- An entry that another write to the history leaves. -/
theorem Dev.histEntry_setHist_of_apart (d : Dev) {i j lvl lvl' k k' : Nat} (a : Int) (c : Nat)
    (h : histAddr i lvl k + 8 ≤ histAddr j lvl' k' ∨ histAddr j lvl' k' + 8 ≤ histAddr i lvl k) :
    (d.setHist j lvl' k' a c).histEntry i lvl k = d.histEntry i lvl k := by
  have hbytes : ByteMem.bytes (d.setHist j lvl' k' a c).sram 0 (histAddr i lvl k) 8 = ByteMem.bytes d.sram 0 (histAddr i lvl k) 8 := by
    unfold ByteMem.bytes Dev.setHist Dev.setSram
    refine List.map_congr_left fun b hb => ByteMem.get_store_of_not_mem _ _ _ _ _ _ _ ?_
    have := List.mem_range.mp hb
    rw [length_leBytes]
    omega
  unfold Dev.histEntry
  rw [hbytes]

theorem Dev.histEntry_setHist_self (d : Dev) (hn : n < 16) {lvl : Nat} (hl : lvl < 4) (k : Nat) (a : Int) {c : Nat} (hc : c < 2 ^ 16) :
    (d.setHist n lvl k a c).histEntry n lvl k = (sext 48 (twos 48 a), c) := by
  have hb := histAddr_bounds n lvl k
  have htw : twos 48 a < 2 ^ 48 := by
    unfold twos
    omega
  have hbytes := ByteMem.bytes_store d.sram 0 [] (leBytes 8 (twos 48 a + c * 2 ^ 48)) [] (lo := 0x100000) (hi := 0x180000) (a := histAddr n lvl k)
    (by omega) (by simp only [List.nil_append, List.append_nil, length_leBytes]; omega)
  simp only [List.nil_append, List.append_nil, length_leBytes, List.length_nil, Nat.add_zero] at hbytes
  unfold Dev.histEntry Dev.setHist Dev.setSram
  dsimp only
  rw [hbytes, leNat_leBytes, Nat.mod_eq_of_lt (by omega)]
  refine Prod.ext ?_ ?_
  · unfold sext
    rw [show (twos 48 a + c * 2 ^ 48) % 2 ^ 48 = twos 48 a % 2 ^ 48 by omega]
  · show (twos 48 a + c * 2 ^ 48) / 2 ^ 48 = c
    omega

theorem sext_twos_sext (v : Nat) : sext 48 (twos 48 (sext 48 v)) = sext 48 v := by
  have hrange : -(2 ^ 47) ≤ sext 48 v ∧ sext 48 v < 2 ^ 47 := by
    unfold sext
    dsimp only
    split <;> omega
  exact sext_twos _ (by decide) hrange.1 hrange.2

/-- An update of paddock `j`'s history and average: the other paddocks, their words and their histories stand. -/
structure Seconded (j : Nat) (d e : Dev) : Prop where
  word : ∀ a, a < 0x030000 + 0x400 * j ∨ 0x030400 + 0x400 * j ≤ a → e.word a = d.word a
  fw : ∀ a, a = rPAD_FW_LO j ∨ a = rPAD_FW_HI j → e.word a = d.word a
  clk : e.clk = d.clk
  len : e.pads.length = d.pads.length
  pad : ∀ i, i ≠ j → e.pad i = d.pad i
  entry : ∀ i k, i ≠ j → e.histEntry i 0 k = d.histEntry i 0 k

namespace Seconded

variable {j : Nat} {e : Dev}

theorem refl (j : Nat) (d : Dev) : Seconded j d d := ⟨fun _ _ => rfl, fun _ _ => rfl, rfl, rfl, fun _ _ => rfl, fun _ _ _ => rfl⟩

theorem trans {f : Dev} (h : Seconded j d e) (h' : Seconded j e f) : Seconded j d f where
  word a ha := (h'.word a ha).trans (h.word a ha)
  fw a ha := (h'.fw a ha).trans (h.fw a ha)
  clk := h'.clk.trans h.clk
  len := h'.len.trans h.len
  pad i hi := (h'.pad i hi).trans (h.pad i hi)
  entry i k hi := (h'.entry i k hi).trans (h.entry i k hi)

theorem setHist (d : Dev) (j : Nat) {lvl : Nat} (hl : lvl < 4) (k : Nat) (a : Int) (c : Nat) : Seconded j d (d.setHist j lvl k a c) := by
  refine ⟨fun _ _ => rfl, fun _ _ => rfl, rfl, rfl, fun _ _ => rfl, fun i k' hi => Dev.histEntry_setHist_of_apart d a c ?_⟩
  have h1 := histAddr_bounds j lvl k
  have h2 := histAddr_bounds i 0 k'
  omega

theorem formLevel (d : Dev) (j : Nat) {lvl : Nat} (hl : lvl < 4) : Seconded j d (d.formLevel j lvl) := by
  unfold Dev.formLevel
  dsimp only
  split
  · exact refl j d
  · exact setHist d j hl _ _ _

theorem wr (d : Dev) (f : Fld) (v : Nat) (h1 : 0x030000 + 0x400 * j ≤ f.addr) (h2 : f.addr < 0x030400 + 0x400 * j)
    (h3 : f.addr ≠ rPAD_FW_LO j ∧ f.addr ≠ rPAD_FW_HI j) : Seconded j d (d.wr f v) :=
  ⟨fun a ha => Dev.word_setWord_of_ne _ _ _ _ (by omega), fun a ha => Dev.word_setWord_of_ne _ _ _ _ (by omega), rfl, rfl, fun _ _ => rfl, fun _ _ _ => rfl⟩

theorem computeH (d : Dev) (j : Nat) : Seconded j d (d.computeH j).1 := by
  have put : ∀ (x : Dev) (f : Fld) (v : Nat), f.addr = rPAD_HSTAT j ∨ f.addr = rPAD_HGEFF j ∨ f.addr = rPAD_STATE j ∨ f.addr = rPAD_HAVG_LO j ∨
      f.addr = rPAD_HAVG_HI j → Seconded j x (x.wr f v) := fun x f v hf => by
    unfold rPAD_HSTAT rPAD_HGEFF rPAD_STATE rPAD_HAVG_LO rPAD_HAVG_HI at hf
    exact wr x f v (by omega) (by omega) (by unfold rPAD_FW_LO rPAD_FW_HI; omega)
  unfold Dev.computeH
  extract_lets guard onset g w r ok x y z
  have hx : Seconded j d x := (put d (PAD_HSTAT_VALUE j) _ (Or.inl rfl)).trans (put _ (PAD_HGEFF_VALUE j) _ (Or.inr (Or.inl rfl)))
  have hy : Seconded j x y := put x (PAD_STATE_HOLD_VALID j) _ (Or.inr (Or.inr (Or.inl rfl)))
  have hz : Seconded j y z := by
    unfold z Dev.when
    split
    · exact (put y (PAD_HAVG_LO_VALUE j) _ (Or.inr (Or.inr (Or.inr (Or.inl rfl))))).trans (put _ (PAD_HAVG_HI_VALUE j) _ (Or.inr (Or.inr (Or.inr (Or.inr rfl)))))
    · exact refl j y
  exact (hx.trans hy).trans hz

theorem setPad (d : Dev) (j : Nat) (f : Paddock → Paddock) : Seconded j d (d.setPad j f) :=
  ⟨fun _ _ => rfl, fun _ _ => rfl, rfl, Dev.pads_setPad f, fun _ hi => Dev.pad_setPad_of_ne f hi, fun _ _ _ => rfl⟩

theorem padSecond (d : Dev) (j : Nat) : Seconded j d (d.padSecond j) := by
  unfold Dev.padSecond
  extract_lets p a x y st z
  have hx : Seconded j d x := setHist d j (by decide) _ _ _
  have hy : Seconded j x y := ((formLevel x j (by decide)).trans (formLevel _ j (by decide))).trans (formLevel _ j (by decide))
  have hz : Seconded j y z := setPad y j _
  split
  · exact ((hx.trans hy).trans hz).trans (computeH z j)
  · exact (hx.trans hy).trans hz

end Seconded

/-- The average of a paddock's second. -/
def Dev.secondAvg (d : Dev) (n : Nat) : Int := if (d.pad n).secUpd = 0 then d.padWord n else divRound (d.pad n).secSum (d.pad n).secUpd

/-- Paddock `n` at the end of a history second: its sums begin anew, and its entry of level 0 is written. -/
theorem Dev.padSecond_spec (hn : n < 16) (hl : n < d.pads.length) :
    ((d.padSecond n).pad n).secSum = 0 ∧ ((d.padSecond n).pad n).secUpd = 0 ∧
      (d.padSecond n).histEntry n 0 (d.clk.hsec - 1) = (sext 48 (twos 48 (d.secondAvg n)), b2n (d.pad n).secUsable) := by
  have level : ∀ (x : Dev) (lvl : Nat), 0 < lvl → lvl < 4 → ((x.formLevel n lvl).pads = x.pads ∧
      (x.formLevel n lvl).histEntry n 0 (d.clk.hsec - 1) = x.histEntry n 0 (d.clk.hsec - 1)) := fun x lvl h0 h4 => by
    unfold Dev.formLevel
    dsimp only
    split
    · exact ⟨rfl, rfl⟩
    · refine ⟨rfl, Dev.histEntry_setHist_of_apart _ _ _ ?_⟩
      have h1 := histAddr_bounds n lvl (x.clk.hsec / histSpan lvl - 1)
      have h2 := histAddr_bounds n 0 (d.clk.hsec - 1)
      omega
  have average : ∀ x : Dev, (x.computeH n).1.pads = x.pads ∧ (x.computeH n).1.sram = x.sram := fun x => by
    unfold Dev.computeH
    extract_lets guard onset g w r ok x1 y1 z1
    have hy1 : Still (fun _ => True) x y1 :=
      ((Still.wr x (PAD_HSTAT_VALUE n) _ trivial).trans (Still.wr _ (PAD_HGEFF_VALUE n) _ trivial)).trans (Still.wr _ (PAD_STATE_HOLD_VALID n) _ trivial)
    have hz1 : Still (fun _ => True) y1 z1 := by
      unfold z1
      cases ok
      · exact Still.refl _ y1
      · exact (Still.wr y1 (PAD_HAVG_LO_VALUE n) _ trivial).trans (Still.wr _ (PAD_HAVG_HI_VALUE n) _ trivial)
    have h1 := hy1.trans hz1
    exact ⟨h1.pads, h1.sram⟩
  unfold Dev.padSecond
  extract_lets p a x y st z
  have hx : x.histEntry n 0 (d.clk.hsec - 1) = (sext 48 (twos 48 (d.secondAvg n)), b2n (d.pad n).secUsable) :=
    Dev.histEntry_setHist_self d hn (by decide) _ _ (by unfold b2n; split <;> decide)
  obtain ⟨p1, e1⟩ := level x 1 (by decide) (by decide)
  obtain ⟨p2, e2⟩ := level (x.formLevel n 1) 2 (by decide) (by decide)
  obtain ⟨p3, e3⟩ := level ((x.formLevel n 1).formLevel n 2) 3 (by decide) (by decide)
  have hpads : y.pads = d.pads := ((p3.trans p2).trans p1).trans rfl
  have hentry : y.histEntry n 0 (d.clk.hsec - 1) = x.histEntry n 0 (d.clk.hsec - 1) := (e3.trans e2).trans e1
  have hz : (z.pad n).secSum = 0 ∧ (z.pad n).secUpd = 0 := by
    have hself : z.pad n = _ := Dev.pad_setPad_self _ (by rw [hpads]; exact hl)
    rw [hself]
    exact ⟨rfl, rfl⟩
  have hze : z.histEntry n 0 (d.clk.hsec - 1) = (sext 48 (twos 48 (d.secondAvg n)), b2n (d.pad n).secUsable) := hentry.trans hx
  split
  · obtain ⟨a1, a2⟩ := average z
    have hpad : (z.computeH n).1.pad n = z.pad n := congrArg (fun l : List Paddock => l.getD n Paddock.fresh) a1
    rw [hpad]
    refine ⟨hz.1, hz.2, Eq.trans ?_ hze⟩
    unfold Dev.histEntry
    rw [a2]
  · exact ⟨hz.1, hz.2, hze⟩

end

end Sys2Proof.Machine
end

section
/-!
PROOF. States and schedules of a paddock (04 R112, R123, R126, R129; O51).
-/

namespace Sys2Proof.Machine

section
variable {n : Nat} {d : Dev}

/-! ### The history second of the device (R126) -/

/-- The history second of monitor `k`. -/
def Dev.refSecondAt (k : Nat) (d : Dev) : Dev :=
  let x := d.when (d.ref k).waitWin fun d =>
    let w := d.fmWin k d.nowU Edges.fresh Edges.fresh [] []
    d.setRef k fun m => { m with waitWin := false, win := some w, jumped := false }
  x.when (decide (k < 12) && decide (x.refState k = 2)) fun d => d.wr (REF_WTR_LEFT_LEFT k) (d.rd (REF_WTR_LEFT_LEFT k) - 1)

theorem Dev.refSecond_eq (d : Dev) : d.refSecond = forN 13 Dev.refSecondAt d := rfl

/-- What a monitor's second leaves: the paddocks, the clocks, the memory, and every register above the monitors'. -/
structure AboveRefs (d e : Dev) : Prop where
  pads : e.pads = d.pads
  clk : e.clk = d.clk
  sram : e.sram = d.sram
  word : ∀ a, 0x021000 ≤ a → e.word a = d.word a

theorem AboveRefs.trans {e f : Dev} (h : AboveRefs d e) (h' : AboveRefs e f) : AboveRefs d f :=
  ⟨h'.pads.trans h.pads, h'.clk.trans h.clk, h'.sram.trans h.sram, fun a ha => (h'.word a ha).trans (h.word a ha)⟩

theorem AboveRefs.refl (d : Dev) : AboveRefs d d := ⟨rfl, rfl, rfl, fun _ _ => rfl⟩

theorem AboveRefs.when {f : Dev → Dev} (h : AboveRefs d (f d)) (b : Bool) : AboveRefs d (d.when b f) := by
  cases b
  · exact AboveRefs.refl d
  · exact h

theorem AboveRefs.refSecondAt (d : Dev) {k : Nat} (hk : k < 13) : AboveRefs d (d.refSecondAt k) := by
  have hlow : rREF_WTR_LEFT k < 0x021000 := by unfold rREF_WTR_LEFT; omega
  unfold Dev.refSecondAt
  extract_lets x
  have hx : AboveRefs d x := AboveRefs.when ⟨rfl, rfl, rfl, fun _ _ => rfl⟩ _
  exact hx.trans (AboveRefs.when ⟨rfl, rfl, rfl, fun a ha => Dev.word_setWord_of_ne _ _ _ _ (show a ≠ rREF_WTR_LEFT k by omega)⟩ _)

theorem AboveRefs.refSecond (d : Dev) : AboveRefs d d.refSecond := by
  rw [Dev.refSecond_eq]
  exact List.foldlRecOn (motive := AboveRefs d) _ _ (AboveRefs.refl d) fun e he k hk => he.trans (AboveRefs.refSecondAt e (List.mem_range.mp hk))

/-- The end of a history second, but for the monitors: the paddocks one by one. -/
theorem Dev.padSeconds_spec (hn : n < 16) (hl : n < d.pads.length) :
    ((forN 16 Dev.padSecond d).pad n).secSum = 0 ∧ ((forN 16 Dev.padSecond d).pad n).secUpd = 0 ∧
      (forN 16 Dev.padSecond d).histEntry n 0 (d.clk.hsec - 1) = (sext 48 (twos 48 (d.secondAvg n)), b2n (d.pad n).secUsable) ∧
      (forN 16 Dev.padSecond d).clk = d.clk := by
  unfold forN
  refine foldl_turn (P := fun e => e.pads.length = d.pads.length ∧ e.pad n = d.pad n ∧ e.word (rPAD_FW_LO n) = d.word (rPAD_FW_LO n) ∧
      e.word (rPAD_FW_HI n) = d.word (rPAD_FW_HI n) ∧ e.clk = d.clk)
    (Q := fun e => (e.pad n).secSum = 0 ∧ (e.pad n).secUpd = 0 ∧
      e.histEntry n 0 (d.clk.hsec - 1) = (sext 48 (twos 48 (d.secondAvg n)), b2n (d.pad n).secUsable) ∧ e.clk = d.clk)
    (List.mem_range.mpr hn) List.nodup_range (fun e i hi hne ⟨h1, h2, h3, h4, h5⟩ => ?_) (fun e ⟨h1, h2, h3, h4, h5⟩ => ?_)
    (fun e i hi hne ⟨h1, h2, h3, h4⟩ => ?_) ⟨rfl, rfl, rfl, rfl, rfl⟩
  · have hs := Seconded.padSecond e i
    exact ⟨hs.len.trans h1, (hs.pad n hne.symm).trans h2, (hs.word _ (by unfold rPAD_FW_LO; omega)).trans h3,
      (hs.word _ (by unfold rPAD_FW_HI; omega)).trans h4, hs.clk.trans h5⟩
  · obtain ⟨a1, a2, a3⟩ := Dev.padSecond_spec (d := e) hn (by rw [h1]; exact hl)
    have hword : e.padWord n = d.padWord n := by
      unfold Dev.padWord Dev.rd48S Dev.rd48
      rw [Dev.rd_of_word (f := PAD_FW_LO_VALUE n) h3, Dev.rd_of_word (f := PAD_FW_HI_VALUE n) h4]
    have havg : e.secondAvg n = d.secondAvg n := by
      unfold Dev.secondAvg
      rw [h2, hword]
    rw [h2, havg, h5] at a3
    exact ⟨a1, a2, a3, (Seconded.padSecond e n).clk.trans h5⟩
  · have hs := Seconded.padSecond e i
    rw [hs.pad n hne.symm, hs.entry n _ hne.symm, hs.clk]
    exact ⟨h1, h2, h3, h4⟩

theorem Dev.flushFatals_parts (d : Dev) : d.flushFatals.pads = d.pads ∧ d.flushFatals.clk = d.clk ∧ d.flushFatals.sram = d.sram ∧
    d.flushFatals.nvmc.fatals = 0 := by
  unfold Dev.flushFatals
  split
  · next h => exact ⟨rfl, rfl, rfl, h⟩
  · exact ⟨rfl, rfl, rfl, rfl⟩

theorem Dev.historyEdge_hsec (d : Dev) : d.historyEdge.clk.hsec = if d.clk.bootclk then d.clk.hsec else d.clk.hsec + 1 := by
  have seconds : ∀ x : Dev, (forN 16 Dev.padSecond x).clk = x.clk := fun x =>
    List.foldlRecOn (motive := fun e : Dev => e.clk = x.clk) _ _ rfl fun e he i _ => (Seconded.padSecond e i).clk.trans he
  unfold Dev.historyEdge
  rw [d.historySecond.flushFatals_parts.2.1]
  unfold Dev.historySecond
  dsimp only
  split
  · rfl
  · split
    · rfl
    · rw [seconds, (AboveRefs.when (AboveRefs.refSecond _) _).clk]

theorem Dev.historyEdge_spec (hn : n < 16) (hl : n < d.pads.length) (hb : d.clk.bootclk = false) (hr : d.running = true) :
    (d.historyEdge.pad n).secSum = 0 ∧ (d.historyEdge.pad n).secUpd = 0 ∧ d.historyEdge.nvmc.fatals = 0 ∧
      d.historyEdge.histEntry n 0 d.clk.hsec = (sext 48 (twos 48 (d.secondAvg n)), b2n (d.pad n).secUsable) := by
  have hsecond : d.historySecond = forN 16 Dev.padSecond
      (({ d with clk := { d.clk with hsec := d.clk.hsec + 1 } } : Dev).when d.applied Dev.refSecond) := by
    unfold Dev.historySecond
    rw [if_neg (by rw [hb]; decide)]
    exact if_neg (fun h => h hr)
  obtain ⟨f1, -, f3, f4⟩ := d.historySecond.flushFatals_parts
  obtain ⟨m1, m2, -, m3⟩ := AboveRefs.when (AboveRefs.refSecond { d with clk := { d.clk with hsec := d.clk.hsec + 1 } }) d.applied
  rw [hsecond] at f1 f3
  unfold Dev.historyEdge
  rw [hsecond] at f4 ⊢
  generalize ({ d with clk := { d.clk with hsec := d.clk.hsec + 1 } } : Dev).when d.applied Dev.refSecond = x at m1 m2 m3 f1 f3 f4
  obtain ⟨a1, a2, a3, -⟩ := Dev.padSeconds_spec (d := x) hn (by rw [m1]; exact hl)
  have hpad : x.pad n = d.pad n := congrArg (fun l : List Paddock => l.getD n Paddock.fresh) m1
  have hword : x.padWord n = d.padWord n := by
    unfold Dev.padWord Dev.rd48S Dev.rd48
    rw [Dev.rd_of_word (f := PAD_FW_LO_VALUE n) (m3 _ (show 0x021000 ≤ rPAD_FW_LO n by unfold rPAD_FW_LO; omega)),
      Dev.rd_of_word (f := PAD_FW_HI_VALUE n) (m3 _ (show 0x021000 ≤ rPAD_FW_HI n by unfold rPAD_FW_HI; omega))]
    rfl
  have havg : x.secondAvg n = d.secondAvg n := by
    unfold Dev.secondAvg
    rw [hpad, hword]
  rw [havg, hpad, m2] at a3
  have hfinal : (forN 16 Dev.padSecond x).flushFatals.pad n = (forN 16 Dev.padSecond x).pad n :=
    congrArg (fun l : List Paddock => l.getD n Paddock.fresh) f1
  have hentry : (forN 16 Dev.padSecond x).flushFatals.histEntry n 0 d.clk.hsec = (forN 16 Dev.padSecond x).histEntry n 0 d.clk.hsec := by
    unfold Dev.histEntry
    rw [f3]
  rw [hfinal, hentry]
  exact ⟨a1, a2, f4, a3⟩

/-! ### The model tick (R129) -/

/-- The registers that an accepted model of paddock `j` writes. -/
def ModelAt (j a : Nat) : Prop := WordAt j a ∨ a = rPAD_STATE j ∨ a = rPAD_HW_LO j ∨ a = rPAD_HW_HI j

theorem ModelAt.not_model {j a : Nat} (hn : n < 16)
    (h : a = rPAD_HMODEL_LO n ∨ a = rPAD_HMODEL_HI n ∨ a = rPAD_HMODEL_LO_C n ∨ a = rPAD_HMODEL_HI_C n) : ¬ ModelAt j a := by
  unfold ModelAt WordAt rPAD_STATE rPAD_HW_LO rPAD_HW_HI rPAD_FW_LO rPAD_FW_HI
  unfold rPAD_HMODEL_LO rPAD_HMODEL_HI rPAD_HMODEL_LO_C rPAD_HMODEL_HI_C at h
  omega

/-- HW formed anew leaves the fields of PAD_STATE but for none. -/
theorem Worded.refreshHw (j : Nat) (d : Dev) : Worded (fun a => WordAt j a ∨ a = rPAD_HW_LO j ∨ a = rPAD_HW_HI j) d (d.refreshHw j) := by
  have hform : Worded (fun a => WordAt j a ∨ a = rPAD_HW_LO j ∨ a = rPAD_HW_HI j) d (d.formHw j) :=
    Worded.wr48 d (PAD_HW_LO_VALUE j) (PAD_HW_HI_VALUE j) _ (Or.inr (Or.inl rfl)) (Or.inr (Or.inr rfl))
  have hword : ∀ (x : Dev) (y : Int), Worded (fun a => WordAt j a ∨ a = rPAD_HW_LO j ∨ a = rPAD_HW_HI j) x (x.setWordY j y) := fun x y => by
    have h := Worded.setWordY j y x
    exact ⟨fun a ha => h.word a fun hw => ha (Or.inl hw), h.len, h.pad, h.sram, h.dev, h.hsec⟩
  unfold Dev.refreshHw
  dsimp only
  split
  · exact hform.trans (hword _ _)
  · exact hform

theorem Dev.acceptModel_word (j : Nat) (d : Dev) {a : Nat} (h : ¬ ModelAt j a) : (d.acceptModel j).word a = d.word a := by
  unfold ModelAt at h
  unfold Dev.acceptModel
  refine ((Worded.refreshHw j _).word a (fun ha => h (ha.imp id fun hw => Or.inr hw))).trans ?_
  exact Dev.word_setWord_of_ne _ _ _ _ fun e => h (Or.inr (Or.inl e))

theorem Dev.acceptModel_learn (j k : Nat) (d : Dev) : ((d.acceptModel j).pad k).learn = (d.pad k).learn := by
  unfold Dev.acceptModel
  dsimp only
  refine ((Worded.refreshHw j _).pad Paddock.learn (fun _ _ _ => rfl) k).trans ?_
  have hpads := (Still.wr (A := fun _ => True) (d.setPad j fun p => { p with modelFrom := d.clk.tclk }) (PAD_STATE_MODEL_STALE j) 0 trivial).pads
  refine (congrArg (fun l : List Paddock => (l.getD k Paddock.fresh).learn) hpads).trans ?_
  exact Dev.pad_setPad_of_same (d := d) (n := j) (f := fun p => { p with modelFrom := d.clk.tclk }) Paddock.learn (fun _ => rfl) k

theorem Dev.acceptModel_stale {j : Nat} (hj : j < 16) (d : Dev) : (d.acceptModel j).flag (PAD_STATE_MODEL_STALE j) = false := by
  unfold Dev.acceptModel
  refine (Dev.flag_of_rd (Dev.rd_of_word ((Worded.refreshHw j _).word (rPAD_STATE j) ?_))).trans ?_
  · unfold WordAt rPAD_STATE rPAD_HW_LO rPAD_HW_HI rPAD_FW_LO rPAD_FW_HI
    omega
  · exact Dev.flag_wr_self _ (PAD_STATE_MODEL_STALE j) 0 (by exact ⟨show 13 ≤ 13 by decide, show 13 < 32 by decide⟩) rfl

/-- The four words of a model are written. -/
def Dev.setModel (j : Nat) (v w x y : Word) (d : Dev) : Dev :=
  (((d.setWord (rPAD_HMODEL_LO j) v).setWord (rPAD_HMODEL_HI j) w).setWord (rPAD_HMODEL_LO_C j) x).setWord (rPAD_HMODEL_HI_C j) y

/-- The shepherd core writes M of paddock `j`, where it learns. -/
def Dev.learnTurn (ms : List Int) (j : Nat) (d : Dev) : Dev :=
  if (d.pad j).learn ∧ d.applied then
    (d.setModel j (Word.of (twos 48 (ms.getD j 0) % 2 ^ 32)) (Word.of (twos 48 (ms.getD j 0) / 2 ^ 32))
      (Word.of (2 ^ 32 - 1 - twos 48 (ms.getD j 0) % 2 ^ 32)) (Word.of (2 ^ 32 - 1 - twos 48 (ms.getD j 0) / 2 ^ 32))).acceptModel j
  else d

theorem Dev.learnTick_eq (ms : List Int) (d : Dev) : d.learnTick ms = forN 16 (Dev.learnTurn ms) d := rfl

/-- The registers of the model of paddock `j`. -/
def HmodelAt (j a : Nat) : Prop := a = rPAD_HMODEL_LO j ∨ a = rPAD_HMODEL_HI j ∨ a = rPAD_HMODEL_LO_C j ∨ a = rPAD_HMODEL_HI_C j

theorem Dev.setModel_words (d : Dev) (j : Nat) (v w x y : Word) : (d.setModel j v w x y).pads = d.pads ∧
    (d.setModel j v w x y).word (rPAD_HMODEL_LO j) = v ∧ (d.setModel j v w x y).word (rPAD_HMODEL_HI j) = w ∧
      (d.setModel j v w x y).word (rPAD_HMODEL_LO_C j) = x ∧ ∀ a, ¬ HmodelAt j a → (d.setModel j v w x y).word a = d.word a := by
  have h : rPAD_HMODEL_LO j ≠ rPAD_HMODEL_HI j ∧ rPAD_HMODEL_LO j ≠ rPAD_HMODEL_LO_C j ∧ rPAD_HMODEL_LO j ≠ rPAD_HMODEL_HI_C j ∧
      rPAD_HMODEL_HI j ≠ rPAD_HMODEL_LO_C j ∧ rPAD_HMODEL_HI j ≠ rPAD_HMODEL_HI_C j ∧ rPAD_HMODEL_LO_C j ≠ rPAD_HMODEL_HI_C j := by
    unfold rPAD_HMODEL_LO rPAD_HMODEL_HI rPAD_HMODEL_LO_C rPAD_HMODEL_HI_C
    omega
  obtain ⟨h1, h2, h3, h4, h5, h6⟩ := h
  unfold Dev.setModel
  refine ⟨rfl, ?_, ?_, ?_, fun a ha => ?_⟩
  · rw [Dev.word_setWord_of_ne _ _ _ _ h3, Dev.word_setWord_of_ne _ _ _ _ h2, Dev.word_setWord_of_ne _ _ _ _ h1, Dev.word_setWord_self]
  · rw [Dev.word_setWord_of_ne _ _ _ _ h5, Dev.word_setWord_of_ne _ _ _ _ h4, Dev.word_setWord_self]
  · rw [Dev.word_setWord_of_ne _ _ _ _ h6, Dev.word_setWord_self]
  · unfold HmodelAt at ha
    simp only [not_or] at ha
    obtain ⟨g1, g2, g3, g4⟩ := ha
    rw [Dev.word_setWord_of_ne _ _ _ _ g4, Dev.word_setWord_of_ne _ _ _ _ g3, Dev.word_setWord_of_ne _ _ _ _ g2, Dev.word_setWord_of_ne _ _ _ _ g1]

/-- What a turn leaves, and what it writes where it learns. -/
theorem Dev.learnTurn_spec (ms : List Int) {j : Nat} (hj : j < 16) (d : Dev) :
    (∀ a, ¬ HmodelAt j a → ¬ ModelAt j a → (d.learnTurn ms j).word a = d.word a) ∧ (∀ k, ((d.learnTurn ms j).pad k).learn = (d.pad k).learn) ∧
      ((d.pad j).learn = true → d.applied = true →
        (d.learnTurn ms j).word (rPAD_HMODEL_LO j) = Word.of (twos 48 (ms.getD j 0) % 2 ^ 32) ∧
        (d.learnTurn ms j).word (rPAD_HMODEL_HI j) = Word.of (twos 48 (ms.getD j 0) / 2 ^ 32) ∧
        (d.learnTurn ms j).word (rPAD_HMODEL_LO_C j) = Word.of (2 ^ 32 - 1 - twos 48 (ms.getD j 0) % 2 ^ 32) ∧
        (d.learnTurn ms j).flag (PAD_STATE_MODEL_STALE j) = false) := by
  by_cases hc : (d.pad j).learn ∧ d.applied
  · have hturn : d.learnTurn ms j = _ := if_pos hc
    have hpad : ∀ x : Dev, ∀ k, ((x.acceptModel j).pad k).learn = (x.pad k).learn := fun x k =>
      Dev.acceptModel_learn j k x
    rw [hturn]
    generalize Word.of (twos 48 (ms.getD j 0) % 2 ^ 32) = v
    generalize Word.of (twos 48 (ms.getD j 0) / 2 ^ 32) = w
    generalize Word.of (2 ^ 32 - 1 - twos 48 (ms.getD j 0) % 2 ^ 32) = v'
    obtain ⟨h0, h1, h2, h3, h4⟩ := d.setModel_words j v w v' (Word.of (2 ^ 32 - 1 - twos 48 (ms.getD j 0) / 2 ^ 32))
    generalize d.setModel j v w v' (Word.of (2 ^ 32 - 1 - twos 48 (ms.getD j 0) / 2 ^ 32)) = x at h0 h1 h2 h3 h4
    have hlearn : ∀ k, (x.pad k).learn = (d.pad k).learn := fun k => congrArg (fun l : List Paddock => (l.getD k Paddock.fresh).learn) h0
    refine ⟨fun a ha hb => (Dev.acceptModel_word j x hb).trans (h4 a ha), fun k => (hpad x k).trans (hlearn k), fun _ _ => ⟨?_, ?_, ?_, ?_⟩⟩
    · exact (Dev.acceptModel_word j x (ModelAt.not_model hj (Or.inl rfl))).trans h1
    · exact (Dev.acceptModel_word j x (ModelAt.not_model hj (Or.inr (Or.inl rfl)))).trans h2
    · exact (Dev.acceptModel_word j x (ModelAt.not_model hj (Or.inr (Or.inr (Or.inl rfl))))).trans h3
    · exact Dev.acceptModel_stale hj x
  · have hturn : d.learnTurn ms j = d := if_neg hc
    rw [hturn]
    exact ⟨fun _ _ _ => rfl, fun _ => rfl, fun h h' => absurd ⟨h, h'⟩ hc⟩

theorem Dev.applied_congr {e : Dev} (h : e.word rDEV_MODE = d.word rDEV_MODE) : e.applied = d.applied := by
  unfold Dev.applied Dev.measuring Dev.mode
  rw [Dev.rd_of_word (f := DEV_MODE_MODE) h]

/-- The registers of paddock `n` that its own turn writes are written by no other turn. -/
theorem not_otherModel {i a : Nat} (hne : i ≠ n) (hn : n < 16)
    (ha : a = rDEV_MODE ∨ a = rPAD_STATE n ∨ HmodelAt n a) : ¬ HmodelAt i a ∧ ¬ ModelAt i a := by
  unfold HmodelAt rDEV_MODE rPAD_STATE rPAD_HMODEL_LO rPAD_HMODEL_HI rPAD_HMODEL_LO_C rPAD_HMODEL_HI_C at *
  unfold ModelAt WordAt rPAD_STATE rPAD_HW_LO rPAD_HW_HI rPAD_FW_LO rPAD_FW_HI
  omega

theorem Dev.learnTick_learns (ms : List Int) (hn : n < 16) (hap : d.applied = true) (hl : (d.pad n).learn = true) :
    (d.learnTick ms).word (rPAD_HMODEL_LO n) = Word.of (twos 48 (ms.getD n 0) % 2 ^ 32) ∧
      (d.learnTick ms).word (rPAD_HMODEL_HI n) = Word.of (twos 48 (ms.getD n 0) / 2 ^ 32) ∧
      (d.learnTick ms).word (rPAD_HMODEL_LO_C n) = Word.of (2 ^ 32 - 1 - twos 48 (ms.getD n 0) % 2 ^ 32) ∧
      (d.learnTick ms).flag (PAD_STATE_MODEL_STALE n) = false := by
  rw [Dev.learnTick_eq]
  unfold forN
  refine foldl_turn (P := fun e => e.applied = true ∧ (e.pad n).learn = true)
    (Q := fun e => e.word (rPAD_HMODEL_LO n) = Word.of (twos 48 (ms.getD n 0) % 2 ^ 32) ∧
      e.word (rPAD_HMODEL_HI n) = Word.of (twos 48 (ms.getD n 0) / 2 ^ 32) ∧
      e.word (rPAD_HMODEL_LO_C n) = Word.of (2 ^ 32 - 1 - twos 48 (ms.getD n 0) % 2 ^ 32) ∧ e.flag (PAD_STATE_MODEL_STALE n) = false)
    (List.mem_range.mpr hn) List.nodup_range (fun e i hi hne ⟨h1, h2⟩ => ?_) (fun e ⟨h1, h2⟩ => (e.learnTurn_spec ms hn).2.2 h2 h1)
    (fun e i hi hne ⟨h1, h2, h3, h4⟩ => ?_) ⟨hap, hl⟩
  · have hi16 := List.mem_range.mp hi
    obtain ⟨w, l, -⟩ := e.learnTurn_spec ms hi16
    obtain ⟨g1, g2⟩ := not_otherModel hne hn (Or.inl rfl)
    exact ⟨(Dev.applied_congr (w _ g1 g2)).trans h1, (l n).trans h2⟩
  · have hi16 := List.mem_range.mp hi
    obtain ⟨w, -, -⟩ := e.learnTurn_spec ms hi16
    have keep : ∀ a, a = rDEV_MODE ∨ a = rPAD_STATE n ∨ HmodelAt n a → (e.learnTurn ms i).word a = e.word a := fun a ha =>
      w a (not_otherModel hne hn ha).1 (not_otherModel hne hn ha).2
    refine ⟨(keep _ (Or.inr (Or.inr (Or.inl rfl)))).trans h1, (keep _ (Or.inr (Or.inr (Or.inr (Or.inl rfl))))).trans h2,
      (keep _ (Or.inr (Or.inr (Or.inr (Or.inr (Or.inl rfl)))))).trans h3, (Dev.flag_of_rd (Dev.rd_of_word ?_)).trans h4⟩
    exact keep _ (Or.inr (Or.inl rfl))

theorem Dev.learnTick_keeps (ms : List Int) (hn : n < 16) (hl : (d.pad n).learn = false) :
    (d.learnTick ms).word (rPAD_HMODEL_LO n) = d.word (rPAD_HMODEL_LO n) ∧ (d.learnTick ms).word (rPAD_HMODEL_HI n) = d.word (rPAD_HMODEL_HI n) := by
  rw [Dev.learnTick_eq]
  unfold forN
  refine (List.foldlRecOn (motive := fun e : Dev => (e.pad n).learn = false ∧ e.word (rPAD_HMODEL_LO n) = d.word (rPAD_HMODEL_LO n) ∧
    e.word (rPAD_HMODEL_HI n) = d.word (rPAD_HMODEL_HI n)) _ _ ⟨hl, rfl, rfl⟩ fun e ⟨h1, h2, h3⟩ i hi => ?_).2
  have hi16 := List.mem_range.mp hi
  obtain ⟨w, l, -⟩ := e.learnTurn_spec ms hi16
  by_cases hne : i = n
  · subst hne
    have hturn : e.learnTurn ms i = e := if_neg (fun h => by rw [h1] at h; exact Bool.noConfusion h.1)
    rw [hturn]
    exact ⟨h1, h2, h3⟩
  · have keep : ∀ a, HmodelAt n a → (e.learnTurn ms i).word a = e.word a := fun a ha =>
      w a (not_otherModel hne hn (Or.inr (Or.inr ha))).1 (not_otherModel hne hn (Or.inr (Or.inr ha))).2
    exact ⟨(l n).trans h1, (keep _ (Or.inl rfl)).trans h2, (keep _ (Or.inr (Or.inl rfl))).trans h3⟩

/-! ### STEERED's timeout, and a stale model -/

theorem Dev.steeredTimeout_spec (hn : n < 16) (hst : d.padSt n = 4) (ht : d.rd (PAD_SCFG_STEER_TMO n) ≠ 0) (hk : d.padKind n < 2) :
    (d.steeredTimeout n).flag (PAD_HIST_STEER_TMO n) = true ∧ (d.steeredTimeout n).padSt n = if (d.computeH n).2 then 3 else 0 := by
  have hne : rPAD_HIST n ≠ rPAD_STATE n := by unfold rPAD_HIST rPAD_STATE; omega
  have hword : ∀ a, a ≠ rPAD_HIST n → (d.evt (PAD_HIST_STEER_TMO n)).word a = d.word a := fun a ha =>
    (Still.evt (A := fun a => a = rPAD_HIST n) d (PAD_HIST_STEER_TMO n) rfl).word a ha
  have hstill := Still.evt (A := fun a => a = rPAD_HIST n) d (PAD_HIST_STEER_TMO n) rfl
  have hsame : HistSame n d (d.evt (PAD_HIST_STEER_TMO n)) :=
    ⟨congrArg Clock.hsec hstill.clk, congrArg (fun l : List Paddock => (l.getD n Paddock.fresh).histFrom) hstill.pads, hstill.sram⟩
  have hok : ((d.evt (PAD_HIST_STEER_TMO n)).computeH n).2 = (d.computeH n).2 :=
    Dev.computeH_congr hsame hstill.refs (hword _ (by unfold rPAD_HIST rPAD_HGUARD; omega)) (hword _ (by unfold rPAD_HIST rPAD_HWIN; omega))
      (hword _ hne.symm)
  have hstate : (d.evt (PAD_HIST_STEER_TMO n)).padSt n = 4 := (Dev.rd_of_word (f := PAD_STATE_STATE n) (hword _ hne.symm)).trans hst
  have hkind : (d.evt (PAD_HIST_STEER_TMO n)).padKind n = d.padKind n :=
    Dev.rd_of_word (f := PAD_CFG_KIND n) (hword _ (show rPAD_CFG n ≠ rPAD_HIST n by unfold rPAD_HIST rPAD_CFG; omega))
  have hflag : (d.evt (PAD_HIST_STEER_TMO n)).flag (PAD_HIST_STEER_TMO n) = true := Dev.flag_evt_self _ _ rfl (show 11 < 24 by decide)
  have hfall := Dev.padFall_state (f := PAD_HIST_STEER_TMO n) hn (by rw [hkind]; exact hk) (by rw [hstate]; decide) (by rw [hstate]; decide)
    ⟨rfl, show 11 < 24 by decide⟩ rfl hflag
  unfold Dev.steeredTimeout
  rw [if_pos ⟨hst, ht⟩, ← hok]
  exact ⟨hfall.2, hfall.1⟩

theorem Dev.modelStale_spec (h1 : d.flag (PAD_CTL_MODEL_EN n) = true) (h2 : d.flag (PAD_STATE_MODEL_STALE n) = false) :
    (d.modelStale n).flag (PAD_STATE_MODEL_STALE n) = true ∧ (d.modelStale n).flag (PAD_HIST_MODEL_STALE n) = true ∧
      OnlyRegs (fun a => a = rPAD_STATE n ∨ a = rPAD_HIST n) d (d.modelStale n) := by
  unfold Dev.modelStale
  rw [if_pos ⟨h1, by rw [h2]; decide⟩]
  refine ⟨?_, Dev.flag_evt_self _ _ rfl (show 10 < 24 by decide), ((OnlyRegs.refl _ d).wr (PAD_STATE_MODEL_STALE n) 1 (Or.inl rfl)).evt _ (Or.inr rfl)⟩
  rw [Dev.flag_evt_of_ne _ _ _ (show rPAD_STATE n ≠ rPAD_HIST n by unfold rPAD_HIST rPAD_STATE; omega)]
  exact Dev.flag_wr_self _ (PAD_STATE_MODEL_STALE n) 1 ⟨show 13 ≤ 13 by decide, show 13 < 32 by decide⟩ rfl

end

/-- Settles O51: a paddock's command and timers, one by one, and the device's history second and model tick at its paddock's turn. -/
theorem paddockSchedules : Obligations.PaddockSchedules := by
  intro s dt m n hn hl
  refine ⟨fun u hu hg => ⟨fun hrej => ?_, fun htk hns hw hb => ⟨fun hup => ?_, fun hup => ?_⟩⟩, fun hap hst => ⟨fun ht hk => ?_, fun hup k hk =>
    ⟨fun hpos => ?_, fun hneg => ?_⟩⟩, fun hap hen hstale => ?_, fun hb hr => ?_, fun hb => ?_, fun hb => ?_, fun ms hap => ⟨fun hlearn => ?_, fun hlearn => ?_⟩⟩
  · refine Effects.of_tstepCmd hn hg fun o => ?_
    rw [Dev.tstepCmd_rejected (d := { s.dev.advance dt with outside := o }) hu hrej]
    have hx : ({ s.dev.advance dt with outside := o } : Dev).pads = s.dev.pads ∧ ({ s.dev.advance dt with outside := o } : Dev).clk = (s.dev.advance dt).clk :=
      ⟨rfl, rfl⟩
    generalize ({ s.dev.advance dt with outside := o } : Dev) = x at hx
    have h1 : (x.evt (PAD_ERR_TSTEP_REJ n)).flag (PAD_ERR_TSTEP_REJ n) = true := Dev.flag_evt_self _ _ rfl (show 3 < 24 by decide)
    have h2 := (Dev.evt_pads (d := x) (PAD_ERR_TSTEP_REJ n)).trans hx.1
    have h3 := (Dev.evt_clk (d := x) (PAD_ERR_TSTEP_REJ n)).trans hx.2
    generalize x.evt (PAD_ERR_TSTEP_REJ n) = y at h1 h2 h3
    exact ⟨h1, h2, (congrArg Clock.dev h3 :)⟩
  · refine Effects.of_tstepCmd hn hg fun o => ?_
    rw [Dev.tstepCmd_taken (d := { s.dev.advance dt with outside := o }) hu htk hns hw hb,
      if_pos (show ({ s.dev.advance dt with outside := o } : Dev).padUpdating n = true from hup)]
    exact ⟨congrArg Paddock.tstep (Dev.pad_setPad_self (d := { s.dev.advance dt with outside := o }) (fun p => { p with tstep := some u }) hl), rfl⟩
  · refine Effects.of_tstepCmd hn hg fun o => ?_
    rw [Dev.tstepCmd_taken (d := { s.dev.advance dt with outside := o }) hu htk hns hw hb,
      if_neg (show ¬ ({ s.dev.advance dt with outside := o } : Dev).padUpdating n = true by
        rw [show ({ s.dev.advance dt with outside := o } : Dev).padUpdating n = false from hup]; decide)]
    have hself := Dev.pad_setPad_self (d := { s.dev.advance dt with outside := o }) (fun p => { p with tstep := some u }) hl
    exact Dev.takeStep_spec hn (by rw [Dev.pads_setPad]; exact hl) (congrArg Paddock.tstep hself) hb
  · refine Effects.of_run (f := within n 16 (Dev.whenNow Dev.applied (Dev.steeredTimeout n))) rfl ?_
    rw [within_of_lt hn, Dev.whenNow_pos (show Dev.applied (s.dev.advance dt) = true from hap)]
    obtain ⟨h1, h2⟩ := Dev.steeredTimeout_spec (d := s.dev.advance dt) hn hst ht hk
    have hok : ((s.dev.advance dt).computeH n).2 = (s.dev.computeH n).2 := Dev.computeH_congr ⟨rfl, rfl, rfl⟩ rfl rfl rfl rfl
    refine ⟨h1, by rw [h2, hok], ?_⟩
    exact (s.dev.only_advance dt).trans (((Apart.refl PadSide _).steeredTimeout hn).only.mono fun a h => h.at)
  · refine Effects.of_run (f := within n 16 (Dev.whenNow Dev.applied (Dev.slewTick n))) rfl ?_
    rw [within_of_lt hn, Dev.whenNow_pos (show Dev.applied (s.dev.advance dt) = true from hap)]
    exact Dev.slewTick_spec (d := s.dev.advance dt) hl hst hup hk (if_neg (Int.not_lt.mpr hpos)).symm
  · refine Effects.of_run (f := within n 16 (Dev.whenNow Dev.applied (Dev.slewTick n))) rfl ?_
    rw [within_of_lt hn, Dev.whenNow_pos (show Dev.applied (s.dev.advance dt) = true from hap)]
    obtain ⟨h1, h2⟩ := Dev.slewTick_spec (d := s.dev.advance dt) hl hst hup hk (if_pos hneg).symm
    exact ⟨h1.trans (Int.sub_eq_add_neg ..).symm, h2.trans (sub_neg_eq_add ..)⟩
  · refine Effects.of_run (f := within n 16 (Dev.whenNow Dev.applied (Dev.modelStale n))) rfl ?_
    rw [within_of_lt hn, Dev.whenNow_pos (show Dev.applied (s.dev.advance dt) = true from hap)]
    obtain ⟨h1, h2, h3⟩ := Dev.modelStale_spec (d := s.dev.advance dt) hen hstale
    exact ⟨h1, h2, (s.dev.only_advance dt).trans h3⟩
  · refine Effects.of_run (f := Dev.historyEdge) rfl ?_
    obtain ⟨h1, h2, h3, h4⟩ := Dev.historyEdge_spec (d := s.dev.advance dt) hn hl hb hr
    refine ⟨?_, h1, h2, h3, congrArg Prod.snd h4, fun h0 => (congrArg Prod.fst h4).trans ?_⟩
    · rw [Dev.historyEdge_hsec, if_neg (show ¬ (s.dev.advance dt).clk.bootclk = true by rw [show (s.dev.advance dt).clk.bootclk = false from hb]; decide)]
      rfl
    · unfold Dev.secondAvg
      rw [if_pos (show ((s.dev.advance dt).pad n).secUpd = 0 from h0)]
      exact sext_twos_sext _
  · refine Effects.of_run (f := Dev.historyEdge) rfl ?_
    rw [Dev.historyEdge_hsec, if_pos (show (s.dev.advance dt).clk.bootclk = true from hb)]
    rfl
  · refine Effects.of_run (f := Dev.historyEdge) rfl ?_
    rw [Dev.historyEdge_hsec, if_neg (show ¬ (s.dev.advance dt).clk.bootclk = true by rw [show (s.dev.advance dt).clk.bootclk = false from hb]; decide)]
    rfl
  · exact Effects.of_run (f := Dev.learnTick ms) rfl (Dev.learnTick_learns (d := s.dev.advance dt) ms hn hap hlearn)
  · exact Effects.of_run (f := Dev.learnTick ms) rfl (Dev.learnTick_keeps (d := s.dev.advance dt) ms hn hlearn)

end Sys2Proof.Machine
end

section
/-!
PROOF. The active entry of a paddock: what leaves it, and the entries that selection judges (05 R151 to R154; O53).
-/

namespace Sys2Proof.Machine

/-! ### The active entry stands -/

/-- A register at another offset than the SEL_STAT of every paddock. -/
def OffSel (a : Nat) : Prop := a % 0x400 ≠ 0x28C

theorem OffSel.firing {a : Nat} (h : FiringReg a) : OffSel a := by
  intro ho
  exact not_firingReg (by omega) (by omega) (by omega) (by omega) h

theorem OffSel.job {a : Nat} (h : JobReg a) : OffSel a := by
  obtain h | h := h
  · unfold OffSel
    omega
  · exact .firing h

theorem OffSel.pad {n b : Nat} (h : b % 0x400 ≠ 0x28C := by decide) : OffSel (b + 0x400 * n) := by
  unfold OffSel
  omega

theorem OffSel.cand {n i b : Nat} (h : b % 0x10 ≠ 0xC := by decide) : OffSel (b + 0x400 * n + 0x10 * i) := by
  unfold OffSel
  omega

theorem OffSel.flock {k b : Nat} (h : b % 0x200 ≠ 0x8C := by decide) : OffSel (b + 0x200 * k) := by
  unfold OffSel
  omega

/-- An update that leaves the active entry of a paddock. -/
structure ActSame (n : Nat) (d e : Dev) : Prop where
  valid : e.rd (PAD_SEL_STAT_ACT_V n) = d.rd (PAD_SEL_STAT_ACT_V n)
  idx : e.rd (PAD_SEL_STAT_ACT_IDX n) = d.rd (PAD_SEL_STAT_ACT_IDX n)

section
variable {n : Nat} {d e : Dev}

namespace ActSame

theorem refl (n : Nat) (d : Dev) : ActSame n d d := ⟨rfl, rfl⟩

theorem trans {f : Dev} (h : ActSame n d e) (h' : ActSame n e f) : ActSame n d f := ⟨h'.valid.trans h.valid, h'.idx.trans h.idx⟩

theorem active (h : ActSame n d e) : e.activeEntry n = d.activeEntry n := by
  unfold Dev.activeEntry
  rw [Dev.flag_of_rd h.valid, h.idx]

theorem of_apart (h : Apart OffSel d e) : ActSame n d e := by
  have hout : ¬ OffSel (rPAD_SEL_STAT n) := by
    unfold OffSel rPAD_SEL_STAT
    omega
  exact ⟨h.rd _ hout, h.rd _ hout⟩

theorem wr (d : Dev) {hi lo v : Nat} (hf : lo ≤ hi) (h : hi < 28) : ActSame n d (d.wr ⟨rPAD_SEL_STAT n, hi, lo⟩ v) :=
  ⟨Dev.rd_wr_apart (g := PAD_SEL_STAT_ACT_V n) ⟨⟨show 31 ≤ 31 by omega, show 31 < 32 by omega⟩, hf, Or.inr (Or.inl (show hi < 31 by omega))⟩ _ _,
    Dev.rd_wr_apart (g := PAD_SEL_STAT_ACT_IDX n) ⟨⟨show 28 ≤ 30 by omega, show 30 < 32 by omega⟩, hf, Or.inr (Or.inl h)⟩ _ _⟩

end ActSame

/-! ### States and words of any paddock leave the active entries -/

theorem OffSel.actuate (n : Nat) (y : Int) (d : Dev) : Apart OffSel d (d.actuate n y) := by
  unfold Dev.actuate
  split
  · dsimp only
    split
    · exact Apart.refl _ d
    · exact ((((Apart.refl OffSel d).setApll _ _).wr (FLOCK_N_LO_N _) _ .flock).wr (FLOCK_N_HI_NF _) _ .flock).wr (FLOCK_N_HI_NI _) _ .flock
  · dsimp only
    split
    · exact (Apart.refl _ d).psynWord _ y
    · exact Apart.refl _ d

theorem OffSel.setWordY (n : Nat) (y : Int) (d : Dev) : Apart OffSel d (d.setWordY n y) := by
  unfold Dev.setWordY
  dsimp only
  refine Apart.trans ?_ (OffSel.actuate ..)
  have h := ((Apart.refl OffSel d).setPad n fun p => { p with egAcc := d.egNow n, egAt := d.clk.tclk }).wr48 (PAD_FW_LO_VALUE n)
    (PAD_FW_HI_VALUE n) y .pad .pad
  split
  · exact h.setInc _
  · exact h

theorem OffSel.takeStep (n : Nat) (d : Dev) : Apart OffSel d (d.takeStep n) := by
  unfold Dev.takeStep
  split
  · exact Apart.refl _ d
  · dsimp only
    have h := (Apart.refl OffSel d).setPad n fun p => { p with tstep := none }
    split
    · exact h.evt (PAD_ERR_TSTEP_REJ n) .pad
    · exact (((h.setDev _).evt (PAD_HIST_STEP_DONE n) .pad).abortWhere (fun _ => OffSel.job) _ _).trans (JobsOnly.epochAll 4 _).apart

theorem OffSel.padIdle (n : Nat) (d : Dev) : Apart OffSel d (d.padIdle n) := by
  unfold Dev.padIdle
  split
  · exact Apart.refl _ d
  · have h := OffSel.takeStep n d
    dsimp only
    split
    · split
      · exact (h.setPad _ _).trans (OffSel.setWordY ..)
      · exact h.setPad _ _
    · exact h

theorem OffSel.padTake (n st : Nat) (d : Dev) : Apart OffSel d (d.padTake n st) := by
  unfold Dev.padTake
  dsimp only
  refine Apart.when ?_ _ _ ((Apart.refl _ _).fire _ _ fun _ => .firing)
  refine Apart.when ?_ _ _ ((Apart.refl _ _).padUnusable _)
  refine Apart.when ?_ _ _ (((Apart.refl _ _).setPad _ _).wr (PAD_STATE_SLEWING n) _ .pad)
  refine Apart.when ?_ _ _ ((Apart.refl _ _).wr (PAD_STATE_CLAMPED n) _ .pad)
  exact ((Apart.refl _ d).wr (PAD_STATE_STATE n) st .pad).evtIf _ (histBit n st) .pad

theorem OffSel.startLadder (n : Nat) (w : Bool) (d : Dev) : Apart OffSel d (d.startLadder n w) := by
  have bw : ∀ b s t, Apart OffSel d (d.setBw n b s t) := fun b s t =>
    (((Apart.refl _ d).setPad _ _).wr (PAD_STATE_STEP n) _ .pad).wr (PAD_STATE_AT_TARGET n) _ .pad
  unfold Dev.startLadder
  dsimp only
  split
  · exact bw ..
  · exact bw ..

namespace ActSame

theorem padHalt (d : Dev) : ActSame n d (d.padHalt n) :=
  (of_apart (((Apart.refl _ d).setPad n _).setSel n _)).trans ((wr _ (by decide) (by decide)).trans (wr _ (by decide) (by decide)))

theorem enterAcquire (d : Dev) : ActSame n d (d.enterAcquire n) := by
  unfold Dev.enterAcquire
  exact ((of_apart (OffSel.padTake n 1 d)).trans (padHalt _)).trans (of_apart (((Apart.refl _ _).setPad n _).trans (OffSel.startLadder ..)))

theorem startHold (d : Dev) : ActSame n d (d.startHold n) := by
  unfold Dev.startHold
  dsimp only
  refine trans (of_apart (Apart.setSel ?_ n _)) ((wr _ (by decide) (by decide)).trans (wr _ (by decide) (by decide)))
  split
  · exact Apart.refl _ d
  · split
    · exact ((Apart.refl _ d).setFresh _).setSel _ _
    · exact (Apart.refl _ d).setSel _ _

theorem setGuard (s : Bool) (d : Dev) : ActSame n d (d.setGuard n s) :=
  of_apart (((Apart.refl _ d).wr (PAD_STATE_STRAY_GUARD n) _ .pad).when _ _ ((Apart.refl _ _).padUnusable _))

theorem publishCands (d : Dev) : ActSame n d (d.publishCands n) := by
  unfold Dev.publishCands
  exact of_apart ((Apart.refl _ d).forN 8 _ fun i _ d => ((Apart.refl _ d).wr (PAD_CAND_STAT_ELIG n i) _ .cand).wr (PAD_CAND_STAT_REFSTATE n i) _ .cand)

end ActSame

/-! ### Selection names an entry, or none (R154) -/

theorem Dev.setActive_activeEntry (d : Dev) {new : Option Nat} (h : ∀ i, new = some i → i < 8) : (d.setActive n new).activeEntry n = new := by
  unfold Dev.setActive
  extract_lets x y
  have hy : ActSame n x ((y.setPad n fun p => { p with refQ := [] }).padUnusable n) :=
    .of_apart (((((Apart.refl _ x).wr (PAD_STATE_ACTIVE_V n) _ .pad).wr (PAD_STATE_ACTIVE_CH n) _ .pad).setPad _ _).padUnusable _)
  rw [hy.active]
  have hv : x.rd (PAD_SEL_STAT_ACT_V n) = b2n new.isSome % 2 :=
    (Dev.rd_wr_apart (Fld.apart_bits (by decide)) _ _).trans (Dev.rd_wr_self d (PAD_SEL_STAT_ACT_V n) _ ⟨show 31 ≤ 31 by decide, show 31 < 32 by decide⟩)
  have hi : x.rd (PAD_SEL_STAT_ACT_IDX n) = new.getD 0 % 8 := Dev.rd_wr_self _ (PAD_SEL_STAT_ACT_IDX n) _ ⟨show 28 ≤ 30 by decide, show 30 < 32 by decide⟩
  unfold Dev.activeEntry Dev.flag
  rw [hv, hi]
  cases new with
  | none => rfl
  | some i => exact congrArg some (Nat.mod_eq_of_lt (h i rfl))

theorem Dev.onSelect_activeEntry (d : Dev) {old new : Option Nat} (hold : d.activeEntry n = old) (h : ∀ i, new = some i → i < 8) :
    (d.onSelect n old new).activeEntry n = new := by
  have hset : ∀ (x : Dev) {y : Dev}, ActSame n (x.setActive n new) y → y.activeEntry n = new := fun x y hy =>
    hy.active.trans (x.setActive_activeEntry h)
  cases old with
  | none =>
    cases new with
    | none => exact hold
    | some i =>
      have hsel : ActSame n (d.setActive n (some i)) ((d.setActive n (some i)).setSel n fun s => { s with errs := [], raws := [] }) :=
        .of_apart ((Apart.refl _ _).setSel _ _)
      unfold Dev.onSelect
      dsimp only
      split
      · exact hset d (hsel.trans (.enterAcquire _))
      · exact hset d hsel
  | some a =>
    cases new with
    | none =>
      unfold Dev.onSelect
      dsimp only
      split
      · exact hset _ (.refl n _)
      · exact hset d (.of_apart (OffSel.padIdle n _))
    | some i =>
      have hswitch : ActSame n (d.setActive n (some i)) (((d.setActive n (some i)).bump (PAD_SWCNT_COUNT n)).evt (PAD_SEL_EVT_SWITCH n)) :=
        .of_apart (((Apart.refl _ _).bump (PAD_SWCNT_COUNT n) .pad).evt (PAD_SEL_EVT_SWITCH n) .pad)
      unfold Dev.onSelect
      dsimp only
      split
      · exact hset d (hswitch.trans (.of_apart ((Apart.refl _ _).setPad _ _)))
      · split
        · exact hset d (hswitch.trans (.startHold _))
        · exact hset d hswitch

/-- Selection of a paddock once its vote is taken. -/
def Dev.selectVoted (n : Nat) (d : Dev) : Dev :=
  let c := d.choose n
  let x := (d.evtIf (c.2.1 && !d.flag (PAD_SEL_STAT_MANUAL_FB n)) (PAD_SEL_EVT_MAN_FB n)).wr (PAD_SEL_STAT_MANUAL_FB n) (b2n c.2.1)
  let y := if c.1 = d.activeEntry n then x
    else (x.onSelect n (d.activeEntry n) c.1).evtIf (c.2.2 && (d.activeEntry n).isSome && c.1.isSome) (PAD_SEL_EVT_VOTE n)
  let stray := match c.1 with | some a => (y.entry n a).any fun e => decide (e.st = 4) | none => false
  (y.setGuard n stray).publishCands n

theorem Dev.selectPad_eq (d : Dev) (fresh : List Nat) :
    d.selectPad n fresh = if d.padKind n = 3 ∨ ¬ d.applied then d else (d.votePad n fresh).selectVoted n := rfl

theorem Dev.selectVoted_activeEntry (d : Dev) (h : ∀ i, (d.choose n).1 = some i → i < 8) :
    (d.selectVoted n).activeEntry n = (d.choose n).1 := by
  unfold Dev.selectVoted
  extract_lets c x y stray
  have hx : ActSame n d x := (ActSame.of_apart ((Apart.refl _ d).evtIf _ (PAD_SEL_EVT_MAN_FB n) .pad)).trans
    (ActSame.wr (hi := 24) (lo := 24) _ (by decide) (by decide))
  have hy : y.activeEntry n = c.1 := by
    unfold y
    split
    case isTrue he => exact hx.active.trans he.symm
    case isFalse => exact (ActSame.of_apart ((Apart.refl _ _).evtIf _ (PAD_SEL_EVT_VOTE n) .pad)).active.trans (x.onSelect_activeEntry hx.active h)
  exact ((ActSame.setGuard stray y).trans (.publishCands _)).active.trans hy

/-- What is active after selection is what it has chosen. -/
theorem Dev.selectPad_activeEntry (d : Dev) {fresh : List Nat} (hk : d.padKind n ≠ 3) (ha : d.applied = true)
    (h : ∀ i, ((d.votePad n fresh).choose n).1 = some i → i < 8) :
    (d.selectPad n fresh).activeEntry n = ((d.votePad n fresh).choose n).1 := by
  have hnot : ¬ (d.padKind n = 3 ∨ ¬ d.applied = true) := by
    rintro (h | h)
    · exact hk h
    · exact h ha
  rw [Dev.selectPad_eq, if_neg hnot]
  exact Dev.selectVoted_activeEntry _ h

end

end Sys2Proof.Machine
end

section
/-!
PROOF. The vote leaves what selection judges; the choice among the entries (05 R152, R154, R157; O53).
-/

namespace Sys2Proof.Machine

/-! ### What the vote writes (R157) -/

/-- A register that a vote can write: the status of entries, SEL_STAT and SEL_EVT of paddocks, and those of a firing. -/
def VoteReg (a : Nat) : Prop :=
  (0x030000 ≤ a ∧ ((0x208 ≤ a % 0x400 ∧ a % 0x10 = 8) ∨ a % 0x400 = 0x28C ∨ a % 0x400 = 0x298)) ∨ FiringReg a

theorem VoteReg.firing {a : Nat} (h : FiringReg a) : VoteReg a := Or.inr h

theorem VoteReg.sel {n b : Nat} (h : 0x030000 ≤ b ∧ (b % 0x400 = 0x28C ∨ b % 0x400 = 0x298) := by decide) : VoteReg (b + 0x400 * n) := by
  left
  omega

theorem VoteReg.cand {n i : Nat} (hi : i < 8) : VoteReg (rPAD_CAND_STAT n i) := by
  left
  unfold rPAD_CAND_STAT
  omega

/-- A register that no vote writes. -/
theorem not_voteReg {a : Nat} (h : (0x0100A4 ≤ a ∧ a < 0x030000) ∨
    (0x030000 ≤ a ∧ a ≠ 0x090004 ∧ a ≠ 0x050C00 ∧ (a % 0x400 < 0x208 ∨ a % 0x10 ≠ 8) ∧ a % 0x400 ≠ 0x28C ∧ a % 0x400 ≠ 0x298)) : ¬ VoteReg a := by
  rintro (h' | h')
  · omega
  · exact not_firingReg (by omega) (by omega) (by omega) (by omega) h'

section
variable {n : Nat} {d : Dev}

/-- A vote writes those registers alone, and leaves the active entry. -/
structure Voted (n : Nat) (d e : Dev) : Prop where
  apart : Apart VoteReg d e
  act : ActSame n d e

namespace Voted

theorem refl (n : Nat) (d : Dev) : Voted n d d := ⟨.refl _ d, .refl n d⟩

theorem trans {e f : Dev} (h : Voted n d e) (h' : Voted n e f) : Voted n d f := ⟨h.apart.trans h'.apart, h.act.trans h'.act⟩

theorem of_apart {e : Dev} (h : Apart VoteReg d e) (h' : Apart OffSel d e) : Voted n d e := ⟨h, .of_apart h'⟩

theorem setSel (f : Select → Select) (d : Dev) : Voted n d (d.setSel n f) := of_apart ((Apart.refl _ d).setSel n f) ((Apart.refl _ d).setSel n f)

theorem wrCand {f : Nat → Fld} (v : Nat → Nat) (hf : ∀ i, (f i).addr = rPAD_CAND_STAT n i) (d : Dev) :
    Voted n d (forN 8 (fun i d => d.wr (f i) (v i)) d) :=
  of_apart ((Apart.refl _ d).forN 8 _ fun i hi d => (Apart.refl _ d).wr (f i) _ (by rw [hf]; exact .cand hi))
    ((Apart.refl _ d).forN 8 _ fun i _ d => (Apart.refl _ d).wr (f i) _ (by rw [hf]; exact .cand))

theorem markOut (out : List Nat) (d : Dev) : Voted n d (d.markOut n out) :=
  wrCand (f := PAD_CAND_STAT_VOTED_OUT n) (fun i => b2n (out.contains i)) (fun _ => rfl) d

theorem setSplit (on : Bool) (d : Dev) : Voted n d (d.setSplit n on) := by
  unfold Dev.setSplit
  extract_lets was x low
  have hwr : Voted n d (d.wr (PAD_SEL_STAT_RANK_SPLIT n) (b2n on)) :=
    ⟨(Apart.refl _ d).wr (PAD_SEL_STAT_RANK_SPLIT n) _ .sel, .wr (hi := 25) (lo := 25) d (by decide) (by decide)⟩
  have hevt : Voted n (d.wr (PAD_SEL_STAT_RANK_SPLIT n) (b2n on)) x :=
    of_apart ((Apart.refl _ _).evtIf _ (PAD_SEL_EVT_RANK_SPLIT n) .sel) ((Apart.refl _ _).evtIf _ (PAD_SEL_EVT_RANK_SPLIT n) .pad)
  exact (hwr.trans hevt).trans (of_apart ((Apart.refl _ x).level 28 n low on fun _ => VoteReg.firing) ((Apart.refl _ x).level 28 n low on fun _ => OffSel.firing))

theorem votePad (fresh : List Nat) (d : Dev) : Voted n d (d.votePad n fresh) := by
  unfold Dev.votePad
  extract_lets disp s x y isVoter z voters sc top tied w act
  split
  case isTrue =>
    have hx : Voted n d x := by
      unfold x
      split
      · exact refl n d
      · exact (markOut [] d).trans (wrCand (f := PAD_CAND_STAT_SCORE n) (fun _ => 0) (fun _ => rfl) _)
    have hy : Voted n d y := hx.trans (setSel _ x)
    split
    · exact hy.trans (setSplit false y)
    · exact hy
  case isFalse =>
    split
    · exact refl n d
    · have hw : Voted n d w := (setSel _ d).trans (wrCand (f := PAD_CAND_STAT_SCORE n) _ (fun _ => rfl) z)
      split
      · dsimp only
        split
        · exact hw.trans (setSel _ w)
        · exact ((hw.trans (markOut _ w)).trans (setSel _ _)).trans (setSplit false _)
      · exact ((hw.trans (markOut _ w)).trans (setSel _ _)).trans (setSplit true _)

end Voted

/-! ### The entries after the vote (R151 to R153) -/

theorem Dev.chanState_voted {v : Dev} (h : Apart VoteReg d v) (ch : Nat) : v.chanState ch = d.chanState ch := by
  unfold Dev.chanState
  split
  · exact h.rd (REF_STAT_STATE ch) (not_voteReg (Or.inl (by unfold REF_STAT_STATE rREF_STAT; dsimp only; omega)))
  · split
    · rw [h.flag (BN_STAT_QUAL (ch - 12)) (not_voteReg (Or.inr (by unfold BN_STAT_QUAL rBN_STAT; dsimp only; omega)))]
    · rw [h.alive]
      split
      · rfl
      · split
        · have hlink : v.linkQual (ch - 44) = d.linkQual (ch - 44) := by
            have hpast : ∀ f : Fld, f.addr = rPAST_STAT → v.rd f = d.rd f := fun f hf => h.rd f (by rw [hf]; exact not_voteReg (Or.inr (by decide)))
            have hl : ∀ f : Fld, f.addr = rPLINK_STAT (ch - 44) → v.rd f = d.rd f := fun f hf =>
              h.rd f (by rw [hf]; exact not_voteReg (Or.inr (by unfold rPLINK_STAT; omega)))
            unfold Dev.linkQual Dev.link
            rw [h.links, Dev.flag_of_rd (hl (PLINK_STAT_UP _) rfl), hl (PLINK_STAT_NB_HOPS _) rfl, Dev.flag_of_rd (hpast PAST_STAT_BW_V rfl),
              hpast PAST_STAT_ROLE rfl, hpast PAST_STAT_BW_IDX rfl, hpast PAST_STAT_HOPS rfl]
          rw [hlink]
        · rfl

theorem Dev.entry_voted {v : Dev} (h : Apart VoteReg d v) {i : Nat} (hi : i < 8) : v.entry n i = d.entry n i := by
  have hcfg : ∀ f : Fld, f.addr = rPAD_CAND_CFG n i → v.rd f = d.rd f := fun f hf =>
    h.rd f (by rw [hf]; exact not_voteReg (Or.inr (by unfold rPAD_CAND_CFG; omega)))
  unfold Dev.entry Dev.candCh
  dsimp only
  rw [Dev.flag_of_rd (hcfg (PAD_CAND_CFG_VALID n i) rfl), hcfg (PAD_CAND_CFG_CH n i) rfl, hcfg (PAD_CAND_CFG_RANK n i) rfl,
    Dev.flag_of_rd (hcfg (PAD_CAND_CFG_LOCKOUT n i) rfl), Dev.chanState_voted h]

theorem Dev.entryUsable_voted {v : Dev} (h : Apart VoteReg d v) {i : Nat} (hi : i < 8) : v.entryUsable n i = d.entryUsable n i := by
  unfold Dev.entryUsable
  rw [Dev.entry_voted h hi]

theorem Dev.rd_sel_voted {v : Dev} (h : Apart VoteReg d v) {f : Fld} (hf : f.addr = rPAD_SEL n) : v.rd f = d.rd f :=
  h.rd f (by rw [hf]; exact not_voteReg (Or.inr (by unfold rPAD_SEL; omega)))

/-! ### The choice (R154) -/

/-- The entry of a manual selection that is usable. -/
theorem Dev.choose_manual (hm : d.rd (PAD_SEL_SEL_MODE n) = 1) (hu : d.entryUsable n (d.rd (PAD_SEL_MAN_IDX n)) = true) :
    d.choose n = (some (d.rd (PAD_SEL_MAN_IDX n)), false, false) := by
  unfold Dev.choose
  simp only [hm, hu, decide_true, Bool.and_self, ↓reduceIte]

theorem Dev.entryUsable_of_qual {i : Nat} (h : d.entryQual n i = true) : d.entryUsable n i = true := by
  unfold Dev.entryUsable
  unfold Dev.entryQual at h
  cases he : d.entry n i with
  | none => rw [he] at h; exact h
  | some e =>
    rw [he] at h
    simp only [Option.any_some, Bool.and_eq_true] at h ⊢
    exact ⟨h.1, by rw [h.2]; rfl⟩

theorem Dev.entryUsable_of_stray {i : Nat} (h : d.keepStray n i = true) : d.entryUsable n i = true := by
  unfold Dev.entryUsable
  unfold Dev.keepStray at h
  cases he : d.entry n i with
  | none => rw [he] at h; exact h
  | some e =>
    rw [he] at h
    simp only [Option.any_some, Bool.and_eq_true] at h ⊢
    exact ⟨h.1, by rw [h.2, Bool.or_true]⟩

theorem Dev.entryQual_of_elig {i : Nat} (h : d.elig n i = true) : d.entryQual n i = true := by
  unfold Dev.elig at h
  exact (Bool.and_eq_true_iff.mp h).1

theorem Dev.activeEntry_lt {a : Nat} (h : d.activeEntry n = some a) : a < 8 := by
  unfold Dev.activeEntry at h
  split at h
  · exact Option.some.inj h ▸ Dev.rd_lt d (PAD_SEL_STAT_ACT_IDX n)
  · cases h

/-- No entry is chosen where none is usable. -/
theorem Dev.choose_unusable (hu : ∀ i < 8, d.entryUsable n i = false) : (d.choose n).1 = none := by
  have hnot : ∀ {p : Nat → Bool} {i : Nat}, i < 8 → (p i = true → d.entryUsable n i = true) → p i = false := fun hi hp =>
    Bool.eq_false_iff.mpr fun ht => Bool.false_ne_true ((hu _ hi).symm.trans (hp ht))
  have helig : ∀ i < 8, d.elig n i = false := fun i hi => hnot (p := d.elig n) hi fun h => Dev.entryUsable_of_qual (Dev.entryQual_of_elig h)
  have hbest : d.bestRank n (d.elig n) = none := by
    unfold Dev.bestRank
    rw [List.filter_eq_nil_iff.mpr fun i hi => by rw [helig i (List.mem_range.mp hi)]; exact Bool.false_ne_true]
    rfl
  have hact : ∀ p : Nat → Bool, (∀ i < 8, p i = false) → (d.activeEntry n).any p = false := by
    intro p hp
    cases ha : d.activeEntry n with
    | none => rfl
    | some a => exact hp a (Dev.activeEntry_lt ha)
  have hstay : ((d.activeEntry n).any fun a => d.keepStray n a && true) = false :=
    hact _ fun i hi => by rw [hnot (p := d.keepStray n) hi Dev.entryUsable_of_stray]; rfl
  have hhold : ((d.activeEntry n).any fun a => d.elig n a && !d.flag (PAD_SEL_REVERT n) && decide (none ≠ some (d.entryRank n a))) = false :=
    hact _ fun i hi => by rw [helig i hi]; rfl
  unfold Dev.choose
  dsimp only
  rw [hu _ (Dev.rd_lt d (PAD_SEL_MAN_IDX n)), hbest, Bool.and_false]
  dsimp only
  rw [hstay, hhold]
  split
  · rename_i h; cases h
  · split
    · rfl
    · rfl

/-- The lowest rank of some entries is the rank of one of them that none of them beats. -/
theorem Dev.bestRank_eq {p : Nat → Bool} {i : Nat} (hi : i < 8) (hp : p i = true) (hmin : ∀ j < 8, p j = true → d.entryRank n i ≤ d.entryRank n j) :
    d.bestRank n p = some (d.entryRank n i) := by
  have fold : ∀ (l : List Nat) (b : Option Nat), (∀ j ∈ l, d.entryRank n i ≤ d.entryRank n j) → (∀ r, b = some r → d.entryRank n i ≤ r) →
      (i ∈ l ∨ b = some (d.entryRank n i)) →
      l.foldl (fun b i => match b with | none => some (d.entryRank n i) | some r => some (min r (d.entryRank n i))) b = some (d.entryRank n i) := by
    intro l
    induction l with
    | nil => exact fun b _ _ h => h.resolve_left List.not_mem_nil
    | cons j t ih =>
      intro b hl hb h
      have hj := hl j List.mem_cons_self
      refine ih _ (fun k hk => hl k (List.mem_cons_of_mem _ hk)) ?_ ?_
      · intro r hr
        cases b with
        | none => exact Option.some.inj hr ▸ hj
        | some r' => exact Option.some.inj hr ▸ le_min (hb r' rfl) hj
      · rcases h with h | h
        · rcases List.mem_cons.mp h with rfl | h
          · right
            cases b with
            | none => rfl
            | some r' => exact congrArg some (min_eq_right (hb r' rfl))
          · exact Or.inl h
        · right
          subst h
          exact congrArg some (min_eq_left hj)
  unfold Dev.bestRank
  refine fold _ none (fun j hj => ?_) (fun r hr => by cases hr) (Or.inl (List.mem_filter.mpr ⟨List.mem_range.mpr hi, hp⟩))
  obtain ⟨hj, hpj⟩ := List.mem_filter.mp hj
  exact hmin j (List.mem_range.mp hj) hpj

/-- In AUTO, with nothing active and no vote's entry, the first eligible entry of the best rank is chosen. -/
theorem Dev.choose_auto {i : Nat} (hm : d.rd (PAD_SEL_SEL_MODE n) = 0) (ha : d.activeEntry n = none) (ht : (d.selOf n).target = none) (hi : i < 8)
    (he : d.elig n i = true)
    (hbest : ∀ j < 8, d.elig n j = true → d.entryRank n i ≤ d.entryRank n j ∧ (d.entryRank n i = d.entryRank n j → i ≤ j)) :
    (d.choose n).1 = some i := by
  have hhead : ((List.range 8).filter fun j => d.elig n j && decide (d.entryRank n j = d.entryRank n i)).head? = some i := by
    rw [List.head?_filter, List.find?_range_eq_some]
    refine ⟨Bool.and_eq_true_iff.mpr ⟨he, decide_eq_true rfl⟩, List.mem_range.mpr hi, fun j hj => ?_⟩
    by_contra hc
    have hc : (d.elig n j && decide (d.entryRank n j = d.entryRank n i)) = true := by simpa using hc
    obtain ⟨hej, hr⟩ := Bool.and_eq_true_iff.mp hc
    exact absurd ((hbest j (by omega) hej).2 (of_decide_eq_true hr).symm) (by omega)
  unfold Dev.choose
  dsimp only
  rw [hm, ha, ht, Dev.bestRank_eq hi he fun j hj h => (hbest j hj h).1]
  exact hhead

end

end Sys2Proof.Machine
end

section
/-!
PROOF. The OCXOIN monitor, candidates without a monitor, and what selection names (05 R150, R152 to R154; O53).
-/

namespace Sys2Proof.Machine

variable {d : Dev} {n : Nat}

/-! ### The base changes (R139, R150) -/

/-- A window in progress is discarded. -/
def RefMon.discard (m : RefMon) : RefMon :=
  { m with win := m.win.map fun w => { w with discarded := true, baseNext := Edges.fresh, baseLost := [] } }

/-- A part of every monitor that an update of one leaves. -/
theorem Dev.ref_setRef_of_same {α : Type} (g : RefMon → α) {f : RefMon → RefMon} (h : ∀ m, g (f m) = g m) (d : Dev) (n k : Nat) :
    g ((d.setRef n f).ref k) = g (d.ref k) := by
  by_cases hk : k = n
  · subst hk
    by_cases hl : k < d.refs.length
    · rw [Dev.ref_setRef_self hl, h]
    · have hlen : (d.setRef k f).refs.length = d.refs.length := List.length_modify ..
      unfold Dev.ref
      rw [List.getD_eq_default _ _ (by rw [hlen]; exact Nat.le_of_not_lt hl), List.getD_eq_default _ _ (Nat.le_of_not_lt hl)]
  · exact congrArg g (getD_updAt_of_ne f RefMon.fresh hk)

/-- The windows of every reference are discarded. -/
def Dev.discardWins (d : Dev) : Dev := forN 12 (fun n d => d.setRef n RefMon.discard) d

theorem Dev.discardWins_discarded (d : Dev) {k : Nat} (hk : k < 12) {w : FmWin} (h : (d.discardWins.ref k).win = some w) : w.discarded = true := by
  have key : ∀ w, (d.discardWins.ref k).win = some w → w.discarded = true := by
    unfold Dev.discardWins forN
    refine foldl_turn (P := fun _ => True) (Q := fun e => ∀ w, (e.ref k).win = some w → w.discarded = true) (List.mem_range.mpr hk) List.nodup_range
      (fun _ _ _ _ _ => trivial) (fun d _ w hw => ?_) (fun d i _ hi hd w hw => ?_) trivial
    · by_cases hl : k < d.refs.length
      · rw [Dev.ref_setRef_self hl] at hw
        obtain ⟨v, _, rfl⟩ := Option.map_eq_some_iff.mp hw
        rfl
      · have hlen : (d.setRef k RefMon.discard).refs.length = d.refs.length := List.length_modify ..
        unfold Dev.ref at hw
        rw [List.getD_eq_default _ _ (by rw [hlen]; exact Nat.le_of_not_lt hl)] at hw
        cases hw
    · have hsame : ((d.setRef i RefMon.discard).ref k) = d.ref k := getD_updAt_of_ne _ RefMon.fresh (Ne.symm hi)
      rw [hsame] at hw
      exact hd w hw
  exact key w h

theorem Dev.discardWins_same (d : Dev) (k : Nat) :
    (d.discardWins.ref k).lost = (d.ref k).lost ∧ (d.discardWins.ref k).hardCnt = (d.ref k).hardCnt ∧ d.discardWins.live = d.live := by
  unfold Dev.discardWins forN
  refine List.foldlRecOn (motive := fun (e : Dev) => (e.ref k).lost = (d.ref k).lost ∧ (e.ref k).hardCnt = (d.ref k).hardCnt ∧ e.live = d.live)
    _ _ ⟨rfl, rfl, rfl⟩ fun e h i _ => ?_
  obtain ⟨h1, h2, h3⟩ := h
  exact ⟨(Dev.ref_setRef_of_same (·.lost) (f := RefMon.discard) (fun _ => rfl) e i k).trans h1,
    (Dev.ref_setRef_of_same (·.hardCnt) (f := RefMon.discard) (fun _ => rfl) e i k).trans h2, h3⟩

/-- OCXOIN is no longer PRESENT. -/
structure OcxoGone (d e : Dev) : Prop where
  present : e.flag REF_OCXO_STAT_PRESENT = false
  base : e.flag REF_OCXO_STAT_BASE = true
  loss : e.flag REF_OCXO_EVT_LOSS = true
  windows : ∀ n < 12, ∀ w, (e.ref n).win = some w → w.discarded = true

/-- What a change of the base leaves: OCXOIN's offset and the counts of monitors. -/
structure OcxoKept (d e : Dev) : Prop where
  foff : e.rd REF_OCXO_FOFF_FOFF = d.rd REF_OCXO_FOFF_FOFF
  lost : ∀ k, (e.ref k).lost = (d.ref k).lost
  hard : ∀ k, (e.ref k).hardCnt = (d.ref k).hardCnt

theorem OcxoKept.refl (d : Dev) : OcxoKept d d := ⟨rfl, fun _ => rfl, fun _ => rfl⟩

theorem Dev.setPresent_eq (on : Bool) (d : Dev) : d.setPresent on =
    (((((d.wr REF_OCXO_STAT_PRESENT (b2n on)).wr REF_OCXO_STAT_BASE (b2n (!on))).evt REF_OCXO_EVT_BASE_CHG).evt
      (if on then REF_OCXO_EVT_RETURN else REF_OCXO_EVT_LOSS)).discardWins).level 29 0 0 (!on && (((((d.wr REF_OCXO_STAT_PRESENT (b2n on)).wr
        REF_OCXO_STAT_BASE (b2n (!on))).evt REF_OCXO_EVT_BASE_CHG).evt (if on then REF_OCXO_EVT_RETURN else REF_OCXO_EVT_LOSS)).discardWins).flag
          REF_OCXO_CFG_DECL) := rfl

theorem Dev.setPresent_spec (on : Bool) (d : Dev) : OcxoKept d (d.setPresent on) ∧ (on = false → OcxoGone d (d.setPresent on)) := by
  rw [Dev.setPresent_eq]
  generalize hx : (d.wr REF_OCXO_STAT_PRESENT (b2n on)).wr REF_OCXO_STAT_BASE (b2n (!on)) = x
  have hxf : x.rd REF_OCXO_FOFF_FOFF = d.rd REF_OCXO_FOFF_FOFF := by
    rw [← hx, Dev.rd_wr_of_ne _ _ _ _ (by decide), Dev.rd_wr_of_ne _ _ _ _ (by decide)]
  have hxp : on = false → x.flag REF_OCXO_STAT_PRESENT = false ∧ x.flag REF_OCXO_STAT_BASE = true := by
    rintro rfl
    rw [← hx, Dev.flag_wr_self _ _ _ (by decide) rfl, Dev.flag_of_rd (Dev.rd_wr_apart (by unfold Fld.apart; decide) _ _), Dev.flag_wr_self _ _ _ (by decide) rfl]
    exact ⟨rfl, rfl⟩
  have hxr : x.refs = d.refs := by
    rw [← hx]
    exact (Dev.wr_refs _ _ _).trans (Dev.wr_refs _ _ _)
  generalize hf : (if on then REF_OCXO_EVT_RETURN else REF_OCXO_EVT_LOSS) = f
  have hfa : f.addr = rREF_OCXO_EVT ∧ f.hi = f.lo ∧ f.lo < 24 := by
    rw [← hf]
    cases on <;> decide
  have hy : Still (fun a => a = rREF_OCXO_EVT) x ((x.evt REF_OCXO_EVT_BASE_CHG).evt f) :=
    (Still.evt (A := fun a => a = rREF_OCXO_EVT) x REF_OCXO_EVT_BASE_CHG rfl).trans (Still.evt _ f hfa.1)
  have hloss : on = false → ((x.evt REF_OCXO_EVT_BASE_CHG).evt f).flag REF_OCXO_EVT_LOSS = true := by
    rintro rfl
    rw [← hf]
    exact Dev.flag_evt_self _ _ rfl (by decide)
  generalize (x.evt REF_OCXO_EVT_BASE_CHG).evt f = y at hy hloss
  have hlevel : ∀ z b, Apart FiringReg z (Dev.level 29 0 0 b z) := fun z b => (Apart.refl _ z).level 29 0 0 b fun _ h => h
  generalize (!on && y.discardWins.flag REF_OCXO_CFG_DECL) = b
  have hz := hlevel y.discardWins b
  have hlive : y.discardWins.live = y.live := (y.discardWins_same 0).2.2
  generalize hz' : Dev.level 29 0 0 b y.discardWins = z at hz
  have hout : ∀ g : Fld, g.addr = rREF_OCXO_STAT ∨ g.addr = rREF_OCXO_FOFF ∨ g.addr = rREF_OCXO_EVT → z.rd g = y.rd g := fun g hg =>
    (hz.rd g (by rcases hg with h | h | h <;> rw [h] <;> exact not_firingReg (by decide) (by decide) (by decide) (by decide))).trans (Dev.rd_congr hlive g)
  have hyx : ∀ g : Fld, g.addr ≠ rREF_OCXO_EVT → y.rd g = x.rd g := fun g hg => Dev.rd_of_word (hy.word _ hg)
  have href : ∀ k, z.ref k = y.discardWins.ref k := fun k => by unfold Dev.ref; rw [hz.refs]
  have hyr : ∀ k, y.ref k = d.ref k := fun k => by unfold Dev.ref; rw [hy.refs, hxr]
  refine ⟨⟨?_, fun k => ?_, fun k => ?_⟩, fun hon => ⟨?_, ?_, ?_, fun k hk w hw => ?_⟩⟩
  · rw [hout _ (Or.inr (Or.inl rfl)), hyx _ (by decide), hxf]
  · rw [href, (y.discardWins_same k).1, hyr]
  · rw [href, (y.discardWins_same k).2.1, hyr]
  · rw [Dev.flag_of_rd (hout _ (Or.inl rfl)), Dev.flag_of_rd (hyx _ (by decide)), (hxp hon).1]
  · rw [Dev.flag_of_rd (hout _ (Or.inl rfl)), Dev.flag_of_rd (hyx _ (by decide)), (hxp hon).2]
  · rw [Dev.flag_of_rd (hout _ (Or.inr (Or.inr rfl))), hloss hon]
  · rw [href] at hw
    exact y.discardWins_discarded hk hw

/-! ### OCXOIN loses its edges, and its window ends (R138, R150) -/

/-- The prediction of edges is forgotten. -/
def RefMon.unpredicted (m : RefMon) : RefMon := { m with pjPrev := none, pjSp := [], pjEdges := 0 }

/-- OCXOIN has lost its edges. -/
def RefMon.silent (m : RefMon) : RefMon := { m with lost := true, hardCnt := 0 }

theorem Dev.refLoss_ocxo (hdecl : d.flag REF_OCXO_CFG_DECL = true) (hlost : ((d.setRef 12 RefMon.unpredicted).ref 12).lost = false) :
    d.refLoss 12 = ((d.setRef 12 RefMon.unpredicted).setRef 12 RefMon.silent).when (d.flag REF_OCXO_STAT_PRESENT) (Dev.setPresent false) := by
  have hcond : d.flag REF_OCXO_CFG_DECL = true ∧ ¬ ((d.setRef 12 RefMon.unpredicted).ref 12).lost = true := by
    rw [hlost]
    exact ⟨hdecl, Bool.false_ne_true⟩
  unfold Dev.refLoss
  rw [if_pos rfl]
  exact if_pos hcond

theorem Dev.ocxoLoss_spec (hl : 12 < d.refs.length) (hdecl : d.flag REF_OCXO_CFG_DECL = true) (hlost : (d.ref 12).lost = false) :
    (((d.refLoss 12).ref 12).lost = true ∧ ((d.refLoss 12).ref 12).hardCnt = 0) ∧
      (d.flag REF_OCXO_STAT_PRESENT = true → OcxoGone d (d.refLoss 12)) := by
  rw [Dev.refLoss_ocxo hdecl ((Dev.ref_setRef_of_same (·.lost) (f := RefMon.unpredicted) (fun _ => rfl) d 12 12).trans hlost)]
  have hy : ((d.setRef 12 RefMon.unpredicted).setRef 12 RefMon.silent).ref 12 = ((d.setRef 12 RefMon.unpredicted).ref 12).silent :=
    Dev.ref_setRef_self (show 12 < (d.setRef 12 RefMon.unpredicted).refs.length from (List.length_modify ..).symm ▸ hl) _
  generalize (d.setRef 12 RefMon.unpredicted).ref 12 = m at hy
  generalize (d.setRef 12 RefMon.unpredicted).setRef 12 RefMon.silent = y at hy
  obtain ⟨hkept, hgone⟩ := y.setPresent_spec false
  refine ⟨?_, fun hp => ?_⟩
  · unfold Dev.when
    split
    · rw [hkept.lost, hkept.hard, hy]
      exact ⟨rfl, rfl⟩
    · rw [hy]
      exact ⟨rfl, rfl⟩
  · unfold Dev.when
    rw [if_pos hp]
    obtain ⟨h1, h2, h3, h4⟩ := hgone rfl
    exact ⟨h1, h2, h3, h4⟩

theorem Dev.ocxoJudge_spec (f : Int) (hf : -(2 ^ 31) ≤ f ∧ f < 2 ^ 31) (d : Dev) :
    (d.ocxoJudge f).rdS REF_OCXO_FOFF_FOFF = f ∧
      (d.rdIn REF_OCXO_CFG_OCXO_HARD 1 1048575 * 100 < f.natAbs → (d.ocxoJudge f).flag REF_OCXO_STAT_PRESENT = false) := by
  have hkeep : ∀ {x e : Dev}, x.rdS REF_OCXO_FOFF_FOFF = f → e.rd REF_OCXO_FOFF_FOFF = x.rd REF_OCXO_FOFF_FOFF → e.rdS REF_OCXO_FOFF_FOFF = f := by
    intro x e hx he
    rw [← hx]
    unfold Dev.rdS
    rw [he]
  have hwhen : ∀ (x : Dev) (b on : Bool), (x.when b (Dev.setPresent on)).rd REF_OCXO_FOFF_FOFF = x.rd REF_OCXO_FOFF_FOFF := by
    intro x b on
    unfold Dev.when
    split
    · exact (x.setPresent_spec on).1.foff
    · rfl
  have h0 : (d.wr REF_OCXO_FOFF_FOFF (twos 32 f)).rdS REF_OCXO_FOFF_FOFF = f := Dev.rdS_wr_twos d ⟨rfl, rfl⟩ hf.1 hf.2
  have hcond : (d.wr REF_OCXO_FOFF_FOFF (twos 32 f)).rdIn REF_OCXO_CFG_OCXO_HARD 1 1048575 = d.rdIn REF_OCXO_CFG_OCXO_HARD 1 1048575 := by
    unfold Dev.rdIn
    rw [Dev.rd_wr_of_ne _ _ _ _ (by decide)]
  unfold Dev.ocxoJudge
  dsimp only
  rw [hcond]
  generalize d.wr REF_OCXO_FOFF_FOFF (twos 32 f) = x at h0
  by_cases hhard : d.rdIn REF_OCXO_CFG_OCXO_HARD 1 1048575 * 100 < f.natAbs
  · rw [if_pos hhard]
    refine ⟨hkeep h0 (hwhen _ _ false), fun _ => ?_⟩
    unfold Dev.when
    split
    · exact ((Dev.setPresent_spec false _).2 rfl).present
    · rename_i h
      exact Bool.eq_false_iff.mpr h
  · rw [if_neg hhard]
    refine ⟨?_, fun h => absurd h hhard⟩
    split
    · exact h0
    · exact hkeep h0 (hwhen _ _ true)

theorem Dev.ocxoWindow_spec {w : FmWin} {f : Int} (hw : (d.ref 12).win = some w) (hr : d.fmResult w 51 50 = some f) :
    (d.windowEnd 12).rdS REF_OCXO_FOFF_FOFF = f ∧
      (d.rdIn REF_OCXO_CFG_OCXO_HARD 1 1048575 * 100 < f.natAbs → (d.windowEnd 12).flag REF_OCXO_STAT_PRESENT = false) := by
  have hend : d.windowEnd 12 = (d.fmNext 12 w).ocxoJudge f := by
    unfold Dev.windowEnd Dev.fmWindowEnd
    rw [hw]
    dsimp only
    rw [if_pos rfl, if_neg (by omega), hr]
    rfl
  rw [hend]
  exact Dev.ocxoJudge_spec f (Dev.fmResult_range hr) (d.fmNext 12 w)

/-! ### The obligation -/

theorem Dev.running_of_measuring (h : d.measuring = true) : d.running = true := by
  have hmode : (d.mode = .run ∨ d.mode = .fold) ∨ d.mode = .service := by simpa [Dev.measuring] using h
  unfold Dev.running Dev.underMode
  rcases hmode with (h | h) | h <;> rw [h]

/-- A declared OCXOIN has not become PRESENT in time. -/
theorem Dev.ocxoTimeout_spec (hr : d.running = true) (hdecl : d.flag REF_OCXO_CFG_DECL = true) (hp : d.flag REF_OCXO_STAT_PRESENT = false)
    (hl : (29, 0) ∉ d.flt.live) :
    Fired 29 d d.ocxoTimeout ∧ (29, 0) ∈ d.ocxoTimeout.flt.live ∧ OnlyRegs firingAt d d.ocxoTimeout := by
  have heq : d.ocxoTimeout = d.raise 29 0 0 := by
    unfold Dev.ocxoTimeout Dev.when
    rw [if_pos (by rw [hr, hdecl, hp]; rfl)]
  rw [heq]
  obtain ⟨hf, hin⟩ := Dev.raise_fired 29 0 0 d (by decide) hl
  exact ⟨hf, hin, (OnlyRegs.refl _ d).raise 29 0 0 fun _ h => h⟩

/-- A candidate without a monitor is no longer alive. -/
theorem Dev.candNoEdge_spec {ch : Nat} (h : ch ∈ d.alive) :
    (d.candNoEdge ch).alive = d.alive.filter (fun c => decide (c ≠ ch)) ∧ (d.candNoEdge ch).selNow.isSome = true ∧
      OnlyRegs (fun _ => False) d (d.candNoEdge ch) := by
  unfold Dev.candNoEdge
  rw [if_pos (List.contains_iff_mem.mpr h)]
  exact ⟨rfl, rfl, ((OnlyRegs.refl _ d).setAlive _).askSelect none⟩

/-- What selection names: a usable manual entry; none where none is usable; the first of the best rank. -/
theorem Dev.selectPad_names (results : List Nat) (hk : d.padKind n ≠ 3) (ha : d.applied = true) :
    (d.rd (PAD_SEL_SEL_MODE n) = 1 → d.entryUsable n (d.rd (PAD_SEL_MAN_IDX n)) = true →
      (d.selectPad n results).activeEntry n = some (d.rd (PAD_SEL_MAN_IDX n))) ∧
    ((∀ i < 8, d.entryUsable n i = false) → (d.selectPad n results).activeEntry n = none) ∧
    ∀ i < 8, ((d.votePad n results).choose n).1 = some i → (d.selectPad n results).activeEntry n = some i := by
  have hv := (Voted.votePad (n := n) results d).apart
  have hnames : ∀ i < 8, ((d.votePad n results).choose n).1 = some i → (d.selectPad n results).activeEntry n = some i := fun i hi hc =>
    (d.selectPad_activeEntry hk ha fun j hj => Option.some.inj (hc.symm.trans hj) ▸ hi).trans hc
  have hman : (d.votePad n results).rd (PAD_SEL_MAN_IDX n) = d.rd (PAD_SEL_MAN_IDX n) := Dev.rd_sel_voted hv rfl
  refine ⟨fun hm hu => ?_, fun hu => ?_, hnames⟩
  · have hidx : d.rd (PAD_SEL_MAN_IDX n) < 8 := Dev.rd_lt d (PAD_SEL_MAN_IDX n)
    refine hnames _ hidx ?_
    rw [Dev.choose_manual ((Dev.rd_sel_voted hv rfl).trans hm) (by rw [hman, Dev.entryUsable_voted hv hidx]; exact hu), hman]
  · have hc : ((d.votePad n results).choose n).1 = none := Dev.choose_unusable fun i hi => (Dev.entryUsable_voted hv hi).trans (hu i hi)
    exact (d.selectPad_activeEntry hk ha fun j hj => by rw [hc] at hj; cases hj).trans hc

/-- Settles O53: what the vote writes is read by no entry, no later part of selection writes the active entry, and a change of the base is
that of its flags and windows. -/
theorem ocxoAndCandidates : Obligations.OcxoAndCandidates := by
  unfold Obligations.OcxoAndCandidates
  refine ⟨fun d v n results hk ha hv => ?_, fun s dt hm => ⟨fun hl hdecl hlost => ?_, fun hl => ?_, fun w f hw hf => ?_, fun hdecl hp hlive => ?_,
    fun ch hch hal => ?_⟩⟩
  · obtain ⟨hman, hnone, hnames⟩ := Dev.selectPad_names results hk ha
    have hvoted := Voted.votePad (n := n) results d
    rw [← hv] at hvoted hnames
    refine ⟨fun hm i hi hu => ?_, hnone, fun hm hact ht i hi he hbest => hnames i hi ?_⟩
    · subst hi
      exact hman hm hu
    · exact Dev.choose_auto ((Dev.rd_sel_voted hvoted.apart rfl).trans hm) (hvoted.act.active.trans hact) ht hi he hbest
  · have hloss := Dev.ocxoLoss_spec (d := s.dev.advance dt) hl hdecl hlost
    refine ⟨Effects.of_measuring rfl (by decide) hm hloss.1, fun hp => Effects.of_measuring rfl (by decide) hm ?_⟩
    obtain ⟨h1, h2, h3, h4⟩ := hloss.2 hp
    exact ⟨h1, h2, h3, h4⟩
  · refine Effects.of_measuring rfl (by decide) hm ?_
    unfold Dev.refRestore
    rw [if_pos rfl, Dev.ref_setRef_self (show 12 < (s.dev.advance dt).refs.length from hl)]
  · exact Effects.of_measuring rfl (by decide) hm (Dev.ocxoWindow_spec (d := s.dev.advance dt) hw hf)
  · have hspec := Dev.ocxoTimeout_spec (d := s.dev.advance dt) (Dev.running_of_measuring (d := s.dev.advance dt) hm) hdecl hp hlive
    exact Effects.of_run (f := Dev.ocxoTimeout) rfl ⟨hspec.1.advance, hspec.2.1, (Dev.only_advance s.dev dt).trans hspec.2.2⟩
  · refine Effects.of_run (f := within ch 64 (Dev.candNoEdge ch)) rfl ?_
    obtain ⟨h1, h2, h3⟩ := Dev.candNoEdge_spec (d := s.dev.advance dt) hal
    rw [within_of_lt hch]
    exact ⟨h1, h2, (Dev.only_advance s.dev dt).trans h3⟩

end Sys2Proof.Machine
end

section
/-!
PROOF. Causes of a beat monitor (07 R196; O56).
-/

namespace Sys2Proof.Machine

variable {d : Dev} {b c : Nat}

/-- A cause of a beat monitor stands in its low four bits. -/
theorem Dev.beatCauses_testBit (hc : c < 4) (h : d.flag ⟨rBN_STAT b, c, c⟩ = true) : (d.rd ⟨rBN_STAT b, 3, 0⟩).testBit c = true := by
  have hr : bitsOf (d.word (rBN_STAT b)).toNat c c ≠ 0 := of_decide_eq_true h
  unfold Dev.rd
  rw [bitsOf_eq] at hr ⊢
  rw [Nat.testBit_eq_decide_div_mod_eq]
  simp only [Nat.sub_self, Nat.zero_add, Nat.pow_one, Nat.pow_zero, Nat.div_one] at hr ⊢
  interval_cases c <;> exact decide_eq_true (by omega)

/-- QUAL is what the causes make it. -/
def Dev.beatOk (d : Dev) (b : Nat) : Bool := d.flag (BN_CFG_STEER_V b) && decide (d.rd ⟨rBN_STAT b, 3, 0⟩ = 0)

theorem Dev.beatQual_eq (d : Dev) (b : Nat) : d.beatQual b = (d.wr (BN_STAT_QUAL b) (b2n (d.beatOk b))).askSelect none := rfl

theorem Dev.beatQual_flag (d : Dev) (b : Nat) : (d.beatQual b).flag (BN_STAT_QUAL b) = d.beatOk b := by
  rw [Dev.beatQual_eq, Dev.flag_of_rd (Dev.rd_askSelect _ _ _), Dev.flag_wr_self d (BN_STAT_QUAL b) _ ⟨show 31 ≤ 31 by decide, show 31 < 32 by decide⟩ rfl]
  cases d.beatOk b <;> rfl

/-- QUAL's write and selection leave every other field. -/
theorem Dev.beatQual_rd (d : Dev) (b : Nat) {f : Fld} (h : (BN_STAT_QUAL b).apart f) : (d.beatQual b).rd f = d.rd f := by
  rw [Dev.beatQual_eq, Dev.rd_askSelect, Dev.rd_wr_apart h]

/-- A beat monitor's cause that sets, before QUAL follows. -/
def Dev.beatCaused (b c : Nat) (d : Dev) : Dev := ((d.wr ⟨rBN_STAT b, c, c⟩ 1).evt ⟨rBN_EVT b, c, c⟩).fire 32 b

theorem Dev.beatSet_eq (hv : d.flag (BN_CFG_STEER_V b) = true) (h : d.flag ⟨rBN_STAT b, c, c⟩ = false) :
    d.beatSet b c = (d.beatCaused b c).beatQual b := by
  unfold Dev.beatSet
  rw [if_neg (by rw [hv, h]; simp)]
  rfl

theorem bnStat_ne_evt : rBN_STAT b ≠ rBN_EVT b := by
  unfold rBN_STAT rBN_EVT
  omega

theorem Dev.beatCaused_spec (hb : b < 8) (hc : c < 4) (d : Dev) :
    (d.beatCaused b c).flag ⟨rBN_STAT b, c, c⟩ = true ∧ (d.beatCaused b c).flag ⟨rBN_EVT b, c, c⟩ = true := by
  have hout : ∀ a, 0x0B0400 ≤ a → ¬ FiringReg a := fun a ha => not_firingReg (by omega) (by omega) (by omega) (by omega)
  have hfire := Still.fireAs 32 b none false false ((d.wr ⟨rBN_STAT b, c, c⟩ 1).evt ⟨rBN_EVT b, c, c⟩)
  constructor
  · refine (Dev.flag_of_rd (Dev.rd_of_word (hfire.word _ (hout _ (by dsimp only; unfold rBN_STAT; omega))))).trans ?_
    rw [Dev.flag_evt_of_ne _ _ _ bnStat_ne_evt]
    exact Dev.flag_wr_self d ⟨rBN_STAT b, c, c⟩ 1 ⟨le_refl c, show c < 32 by omega⟩ rfl
  · refine (Dev.flag_of_rd (Dev.rd_of_word (hfire.word _ (hout _ (by dsimp only; unfold rBN_EVT; omega))))).trans ?_
    exact Dev.flag_evt_self _ _ rfl (show c < 24 by omega)

/-- The registers that a cause that sets can write. -/
def BeatReg (b a : Nat) : Prop := a = rBN_STAT b ∨ a = rBN_EVT b ∨ firingAt a

/-- What a cause that sets leaves in the monitor's registers. -/
theorem Dev.beatSet_spec (hb : b < 8) (hc : c < 4) (hv : d.flag (BN_CFG_STEER_V b) = true) (h : d.flag ⟨rBN_STAT b, c, c⟩ = false) :
    (d.beatSet b c).flag ⟨rBN_STAT b, c, c⟩ = true ∧ (d.beatSet b c).flag ⟨rBN_EVT b, c, c⟩ = true ∧
      (d.beatSet b c).flag (BN_STAT_QUAL b) = false ∧ OnlyRegs (BeatReg b) d (d.beatSet b c) := by
  have honly : OnlyRegs (BeatReg b) d (d.beatCaused b c) :=
    (((OnlyRegs.refl _ d).wr ⟨rBN_STAT b, c, c⟩ 1 (Or.inl rfl)).evt ⟨rBN_EVT b, c, c⟩ (Or.inr (Or.inl rfl))).fire 32 b fun _ h => Or.inr (Or.inr h)
  obtain ⟨hs, he⟩ := Dev.beatCaused_spec hb hc d
  rw [Dev.beatSet_eq hv h]
  generalize d.beatCaused b c = x at hs he honly
  have hev : (BN_STAT_QUAL b).apart ⟨rBN_EVT b, c, c⟩ := ⟨⟨le_refl c, show c < 32 by omega⟩, show 31 ≤ 31 by decide, Or.inl bnStat_ne_evt.symm⟩
  refine ⟨(Dev.flag_of_rd (x.beatQual_rd b (Fld.apart_bits (by omega)))).trans hs, (Dev.flag_of_rd (x.beatQual_rd b hev)).trans he, ?_,
    (honly.wr (BN_STAT_QUAL b) _ (Or.inl rfl)).askSelect none⟩
  rw [Dev.beatQual_flag]
  refine Bool.and_eq_false_iff.mpr ?_
  refine Or.inr (decide_eq_false fun h0 => ?_)
  have ht := Dev.beatCauses_testBit hc hs
  rw [h0, Nat.zero_testBit] at ht
  cases ht

/-- A cause that sets fires BEAT_DISQ. -/
theorem Dev.beatSet_fired (b : Nat) (hv : d.flag (BN_CFG_STEER_V b) = true) (h : d.flag ⟨rBN_STAT b, c, c⟩ = false) : Fired 32 d (d.beatSet b c) := by
  obtain ⟨hl, hn⟩ := Dev.fireAs_fired 32 b none false false ((d.wr ⟨rBN_STAT b, c, c⟩ 1).evt ⟨rBN_EVT b, c, c⟩) (by decide)
  have hseq : ((d.wr ⟨rBN_STAT b, c, c⟩ 1).evt ⟨rBN_EVT b, c, c⟩).rd FLT_SEQNO_COUNT = d.rd FLT_SEQNO_COUNT := by
    rw [Dev.rd_evt_of_ne _ _ _ (show rFLT_SEQNO ≠ rBN_EVT b by unfold rFLT_SEQNO rBN_EVT; omega),
      Dev.rd_wr_of_ne _ _ _ _ (show rFLT_SEQNO ≠ rBN_STAT b by unfold rFLT_SEQNO rBN_STAT; omega)]
  rw [Dev.beatSet_eq hv h]
  have hqual : ∀ (x : Dev) (f : Fld), f.lo ≤ f.hi ∧ f.hi < 32 → f.addr < 0x020000 → (x.beatQual b).rd f = x.rd f := fun x f hf ha =>
    x.beatQual_rd b ⟨hf, show 31 ≤ 31 by decide, Or.inl (show f.addr ≠ rBN_STAT b by unfold rBN_STAT; omega)⟩
  have hack := ackFld_addr 32
  refine ⟨(Dev.flag_of_rd (hqual _ (ackFld 32) (by decide) (by omega))).trans hl, ?_⟩
  rw [hqual _ FLT_SEQNO_COUNT (by decide) (by decide), ← hseq]
  exact hn

/-- The loss of signal ends: QUAL follows the causes that are left. -/
theorem Dev.beatClear_spec (hv : d.flag (BN_CFG_STEER_V b) = true) :
    (d.beatClear b 1).flag (BN_STAT_LOS b) = false ∧
      (d.beatClear b 1).flag (BN_STAT_QUAL b) = decide (andNot (d.rd ⟨rBN_STAT b, 3, 0⟩) 2 = 0) := by
  have hw : (d.wr ⟨rBN_STAT b, 1, 1⟩ 0).rd ⟨rBN_STAT b, 3, 0⟩ = andNot (d.rd ⟨rBN_STAT b, 3, 0⟩) 2 := by
    have hr : ∀ r < 16, r - r / 2 % 2 * 2 = andNot r 2 := by decide
    unfold Dev.rd
    rw [Dev.wr, Dev.word_setWord_self, Word.of, BitVec.toNat_ofNat, setBits_eq, bitsOf_eq, bitsOf_eq]
    refine Eq.trans ?_ (hr ((d.word (rBN_STAT b)).toNat / 2 ^ 0 % 2 ^ (3 - 0 + 1)) (Nat.mod_lt _ (by decide)))
    simp only [Nat.sub_self, Nat.zero_add, Nat.pow_one, Nat.pow_zero, Nat.div_one, Nat.zero_mod, Nat.zero_mul, Nat.add_zero, Nat.sub_zero]
    have hlt := (d.word (rBN_STAT b)).isLt
    omega
  have hs : (d.wr ⟨rBN_STAT b, 1, 1⟩ 0).flag (BN_CFG_STEER_V b) = true :=
    (Dev.flag_wr_of_ne d _ _ _ (show rBN_CFG b ≠ rBN_STAT b by unfold rBN_CFG rBN_STAT; omega)).trans hv
  unfold Dev.beatClear
  rw [if_pos hv]
  refine ⟨?_, ?_⟩
  · rw [Dev.flag_of_rd (Dev.beatQual_rd _ b (f := BN_STAT_LOS b) (Fld.apart_bits (by decide)))]
    exact Dev.flag_wr_self d ⟨rBN_STAT b, 1, 1⟩ 0 ⟨show 1 ≤ 1 by decide, show 1 < 32 by decide⟩ rfl
  · rw [Dev.beatQual_flag]
    unfold Dev.beatOk
    rw [hs, hw, Bool.true_and]

end Sys2Proof.Machine
end

section
/-!
PROOF. The accumulator of a steering port (07 R201; O56).
-/

namespace Sys2Proof.Machine

variable {d : Dev} {k : Nat}

/-! ### Rules of a port -/

theorem Dev.port_setPort_self (h : k < d.ports.length) (f : Port → Port) : (d.setPort k f).port k = f (d.port k) :=
  getD_updAt_self f Port.fresh h

theorem Dev.ports_setPort (f : Port → Port) : (d.setPort k f).ports.length = d.ports.length := List.length_modify ..

/-- A port of a device whose ports are another's. -/
theorem Dev.port_congr {e : Dev} (h : e.ports = d.ports) (k : Nat) : e.port k = d.port k := by
  unfold Dev.port
  rw [h]

theorem Dev.ports_evtIf (d : Dev) (b : Bool) (f : Fld) : (d.evtIf b f).ports = d.ports := by
  cases b
  · rfl
  · exact d.evt_ports f

/-- A write of a bit of STAT leaves the fields beside it. -/
theorem Dev.rd_wr_stat (d : Dev) {hi lo hi' lo' : Nat} (v : Nat) (h : (lo' ≤ hi' ∧ hi' < 32) ∧ lo ≤ hi ∧ (hi < lo' ∨ hi' < lo) := by decide) :
    (d.wr ⟨rSTEER_STAT k, hi, lo⟩ v).rd ⟨rSTEER_STAT k, hi', lo'⟩ = d.rd ⟨rSTEER_STAT k, hi', lo'⟩ := Dev.rd_wr_apart (Fld.apart_bits h) d v

theorem Dev.flag_wr_b2n (d : Dev) (f : Fld) (b : Bool) (h : f.ok) (hf : f.hi = f.lo) : (d.wr f (b2n b)).flag f = b := by
  rw [Dev.flag_wr_self d f _ h hf]
  cases b <;> rfl

/-- The registers of a port's status. -/
def PortStat (k a : Nat) : Prop := a = rSTEER_STAT k ∨ a = rSTEER_EVT k

theorem portEvt_ne : rSTEER_STAT k ≠ rSTEER_EVT k := by
  unfold rSTEER_STAT rSTEER_EVT
  omega

/-- PENDING is what the reasons make it; the rest of the port stands. -/
theorem Dev.portPend_spec (d : Dev) (k : Nat) : (d.portPend k).ports = d.ports ∧ OnlyRegs (· = rSTEER_STAT k) d (d.portPend k) ∧
    (d.portPend k).flag (STEER_STAT_PENDING k) = (d.portReason k && !d.flag (STEER_STAT_BUSY k)) ∧
    ∀ hi lo, lo ≤ hi ∧ hi < 32 ∧ (21 < lo ∨ hi < 21) → (d.portPend k).rd ⟨rSTEER_STAT k, hi, lo⟩ = d.rd ⟨rSTEER_STAT k, hi, lo⟩ := by
  unfold Dev.portPend
  generalize (d.portReason k && !d.flag (STEER_STAT_BUSY k)) = b
  refine ⟨d.wr_ports _ _, (OnlyRegs.refl _ d).wr (STEER_STAT_PENDING k) _ rfl, ?_, fun hi lo h => ?_⟩
  · exact d.flag_wr_b2n (STEER_STAT_PENDING k) b ⟨show 21 ≤ 21 by decide, show 21 < 32 by decide⟩ rfl
  · exact d.rd_wr_stat (hi := 21) (lo := 21) _ (by omega)

theorem Dev.setAcc_spec (hk : k < d.ports.length) (a : Int) : ((d.setAcc k a).port k) = { d.port k with acc := a } ∧
    (d.setAcc k a).ports.length = d.ports.length ∧
    OnlyRegs (fun x => x = rSTEER_ACC_LO k ∨ x = rSTEER_ACC_HI k) d (d.setAcc k a) :=
  ⟨Dev.port_setPort_self hk _, Dev.ports_setPort _,
    ((OnlyRegs.refl _ d).setPort k _).wr48 (STEER_ACC_LO_VALUE k) (STEER_ACC_HI_VALUE k) _ (Or.inl rfl) (Or.inr rfl)⟩

/-- A new S_tgt: the clamp's bit and its event stand. -/
theorem Dev.portTarget_spec (hk : k < d.ports.length) (s : Int) : ((d.portTarget k s).port k) = { d.port k with sTgt := s } ∧
    (d.portTarget k s).flag (STEER_STAT_CLAMP_LIM k) = d.flag (STEER_STAT_CLAMP_LIM k) ∧
    (d.flag (STEER_EVT_CLAMP k) = true → (d.portTarget k s).flag (STEER_EVT_CLAMP k) = true) := by
  unfold Dev.portTarget
  extract_lets p waiting changed x y
  have hx : x.ports = d.ports ∧ x.rd (STEER_STAT_CLAMP_LIM k) = d.rd (STEER_STAT_CLAMP_LIM k) ∧
      (d.flag (STEER_EVT_CLAMP k) = true → x.flag (STEER_EVT_CLAMP k) = true) :=
    ⟨d.ports_evtIf _ _, d.rd_evtIf_of_ne _ _ _ portEvt_ne, Dev.flag_evtIf_mono ⟨rfl, show 2 < 24 by decide⟩ ⟨rfl, show 3 < 24 by decide⟩ _⟩
  obtain ⟨hp, hc, he⟩ := hx
  have hy : y.ports = x.ports ∧ y.rd (STEER_STAT_CLAMP_LIM k) = x.rd (STEER_STAT_CLAMP_LIM k) ∧
      y.rd (STEER_EVT_CLAMP k) = x.rd (STEER_EVT_CLAMP k) := by
    unfold y Dev.when
    split
    · exact ⟨x.wr_ports _ _, x.rd_wr_stat (hi := 23) (lo := 23) 0, x.rd_wr_of_ne _ _ _ portEvt_ne.symm⟩
    · exact ⟨rfl, rfl, rfl⟩
  obtain ⟨hp', hc', he'⟩ := hy
  have hlen : k < y.ports.length := by rw [hp', hp]; exact hk
  obtain ⟨hports, honly, -, hstat⟩ := (y.setPort k fun p => { p with sTgt := s }).portPend_spec k
  refine ⟨?_, ?_, fun h => ?_⟩
  · rw [Dev.port_congr hports, Dev.port_setPort_self hlen, Dev.port_congr hp', Dev.port_congr hp]
  · exact Dev.flag_of_rd (((hstat 22 22 (by omega)).trans hc').trans hc)
  · rw [← he h]
    exact Dev.flag_of_rd ((honly.rd (STEER_EVT_CLAMP k) portEvt_ne.symm).trans he')

/-! ### The accumulator advances (R201) -/

section
variable {a v : Int}

/-- An update of a port's accumulator inside the clamp. -/
theorem Dev.portAdvance_inside {y : Int} {num den : Nat} (hk : k < d.ports.length) (hs : d.rd (STEER_STAT_STATE k) = 1) (hm : d.mode ≠ .sleep)
    (ha : a = (d.port k).acc - divRound (y * (num * 2 ^ 32 : Nat)) den) (hv : v = d.portRaw k a) (hlo : d.portLo k ≤ v) (hhi : v ≤ d.portHi k) :
    (d.portAdvance k y num den).2 = false ∧ ((d.portAdvance k y num den).1.port k).acc = a ∧ ((d.portAdvance k y num den).1.port k).sTgt = v ∧
      (d.portAdvance k y num den).1.flag (STEER_STAT_CLAMP_LIM k) = false := by
  have hout : d.portOutside k v = false := by
    unfold Dev.portOutside
    rw [decide_eq_false (by omega), decide_eq_false (by omega)]
    rfl
  unfold Dev.portAdvance
  rw [if_neg (by omega), if_neg (by rw [hs]; simpa using hm)]
  dsimp only
  rw [← ha, ← hv, hout]
  obtain ⟨hacc, hlen, -⟩ := Dev.setAcc_spec hk a
  generalize d.setAcc k a = x at hacc hlen
  have hc := x.flag_wr_self (STEER_STAT_CLAMP_LIM k) 0 ⟨show 22 ≤ 22 by decide, show 22 < 32 by decide⟩ rfl
  have hp : (x.wr (STEER_STAT_CLAMP_LIM k) 0).ports = x.ports := x.wr_ports _ _
  generalize x.wr (STEER_STAT_CLAMP_LIM k) 0 = z at hc hp
  obtain ⟨hport, hclamp, -⟩ := Dev.portTarget_spec (d := z) (k := k) (by rw [hp, hlen]; exact hk) v
  rw [Dev.port_congr hp, hacc] at hport
  refine ⟨rfl, ?_, ?_, hclamp.trans hc⟩
  · exact congrArg Port.acc hport
  · exact congrArg Port.sTgt hport

/-- An update of a port's accumulator beyond the clamp. -/
theorem Dev.portAdvance_outside {y : Int} {num den : Nat} (hk : k < d.ports.length) (hs : d.rd (STEER_STAT_STATE k) = 1) (hm : d.mode ≠ .sleep)
    (ha : a = (d.port k).acc - divRound (y * (num * 2 ^ 32 : Nat)) den) (hv : v = d.portRaw k a) (ho : v < d.portLo k ∨ d.portHi k < v) :
    (d.portAdvance k y num den).2 = true ∧ ((d.portAdvance k y num den).1.port k).sTgt = min (max v (d.portLo k)) (d.portHi k) ∧
      ((d.portAdvance k y num den).1.port k).acc = (min (max v (d.portLo k)) (d.portHi k) - d.portCenter k) * d.portGain k * 2 ^ 32 ∧
      (d.portAdvance k y num den).1.flag (STEER_STAT_CLAMP_LIM k) = true ∧ (d.portAdvance k y num den).1.flag (STEER_EVT_CLAMP k) = true := by
  have hout : d.portOutside k v = true := by
    unfold Dev.portOutside
    rcases ho with h | h
    · rw [decide_eq_true h]
      rfl
    · rw [decide_eq_true h, Bool.or_true]
  unfold Dev.portAdvance
  rw [if_neg (by omega), if_neg (by rw [hs]; simpa using hm)]
  dsimp only
  rw [← ha, ← hv, hout]
  unfold Dev.portClamp
  generalize min (max v (d.portLo k)) (d.portHi k) = lim
  obtain ⟨hacc, hlen, -⟩ := Dev.setAcc_spec hk ((lim - d.portCenter k) * d.portGain k * 2 ^ 32)
  generalize d.setAcc k ((lim - d.portCenter k) * d.portGain k * 2 ^ 32) = x at hacc hlen
  have hc := x.flag_wr_self (STEER_STAT_CLAMP_LIM k) 1 ⟨show 22 ≤ 22 by decide, show 22 < 32 by decide⟩ rfl
  have hp : (x.wr (STEER_STAT_CLAMP_LIM k) 1).ports = x.ports := x.wr_ports _ _
  generalize x.wr (STEER_STAT_CLAMP_LIM k) 1 = w at hc hp
  have he := w.flag_evt_self (STEER_EVT_CLAMP k) rfl (show 2 < 24 by decide)
  have hc' := w.flag_evt_of_ne (STEER_EVT_CLAMP k) (STEER_STAT_CLAMP_LIM k) portEvt_ne
  have hp' := w.evt_ports (STEER_EVT_CLAMP k)
  generalize w.evt (STEER_EVT_CLAMP k) = z at he hc' hp'
  obtain ⟨hport, hclamp, hevt⟩ := Dev.portTarget_spec (d := z) (k := k) (by rw [hp', hp, hlen]; exact hk) lim
  rw [Dev.port_congr hp', Dev.port_congr hp, hacc] at hport
  refine ⟨rfl, ?_, ?_, (hclamp.trans hc').trans hc, hevt he⟩
  · exact congrArg Port.sTgt hport
  · exact congrArg Port.acc hport

end

/-- The clamp of a paddock's word: the ports and their registers stand. -/
theorem Dev.padClamped_spec {p : Nat} (hp : p < 16) (c : Bool) (d : Dev) : (d.padClamped p c).flag (PAD_STATE_CLAMPED p) = c ∧
    (d.padClamped p c).ports = d.ports ∧ ∀ f : Fld, 0x0B0000 ≤ f.addr → (d.padClamped p c).flag f = d.flag f := by
  have hne : ∀ a b, a = rPAD_STATE p ∨ a = rPAD_HIST p → 0x0B0000 ≤ b → b ≠ a := by
    intro a b ha hb
    unfold rPAD_STATE rPAD_HIST at ha
    omega
  have hwr := d.flag_wr_b2n (PAD_STATE_CLAMPED p) c ⟨show 14 ≤ 14 by decide, show 14 < 32 by decide⟩ rfl
  have hother : ∀ f : Fld, 0x0B0000 ≤ f.addr → (d.wr (PAD_STATE_CLAMPED p) (b2n c)).flag f = d.flag f := fun f hf =>
    Dev.flag_wr_of_ne d _ _ _ (hne _ _ (Or.inl rfl) hf)
  have hports := d.wr_ports (PAD_STATE_CLAMPED p) (b2n c)
  unfold Dev.padClamped
  generalize d.wr (PAD_STATE_CLAMPED p) (b2n c) = x at hwr hother hports
  refine ⟨?_, (x.ports_evtIf _ _).trans hports, fun f hf => ?_⟩
  · exact (Dev.flag_of_rd (Dev.rd_evtIf_of_ne _ _ _ _ (show rPAD_STATE p ≠ rPAD_HIST p by unfold rPAD_STATE rPAD_HIST; omega))).trans hwr
  · exact (Dev.flag_of_rd (Dev.rd_evtIf_of_ne _ _ _ _ (hne _ _ (Or.inr rfl) hf))).trans (hother f hf)

theorem Dev.accTick_eq {p : Nat} (hp : p = d.rd (STEER_CFG_PAD k)) (hu : d.flag (STEER_CFG_USED k) = true) (hst : d.padSt p = 0 ∨ d.padSt p = 3) :
    d.accTick k = (d.portAdvance k (d.padWord p) (d.padTu p).1 (d.padTu p).2).1.padClamped p (d.portAdvance k (d.padWord p) (d.padTu p).1 (d.padTu p).2).2 := by
  subst hp
  exact if_pos ⟨hu, hst.symm⟩

end Sys2Proof.Machine
end

section
/-!
PROOF. Frames of a steering port (07 R203 to R205; O56).
-/

namespace Sys2Proof.Machine

variable {d : Dev} {k : Nat}

/-- A command's effect may rest on it that the edge before has left no selection to be taken. -/
theorem Effects.of_prompt {c : Instr} {s : State} {P : Dev → Prop} {dt : Nat} {f : Dev → Dev} (h : exec c s = run dt f s)
    (hp : s.dev.selNow = none → P (f (s.dev.advance dt))) : Effects c s P := by
  refine ⟨_, h, fun hl => ?_⟩
  rw [Dev.arrive_prompt hl]
  refine hp (Option.isNone_iff_eq_none.mp ?_)
  unfold Dev.lag at hl
  rw [Bool.or_eq_false_iff] at hl
  rw [← Option.not_isSome, hl.1]
  rfl

theorem Dev.settleSelect_none (h : d.selNow = none) : d.settleSelect = d := by
  unfold Dev.settleSelect Dev.when
  rw [h]
  rfl

/-! ### A frame starts (R203 to R205) -/

/-- The word that a frame of port `k` carries. -/
def Dev.frameWord (d : Dev) (k : Nat) : Int :=
  if (d.port k).resend then d.portLast k
  else if decide (d.rd (STEER_STAT_STATE k) = 2) then
    (if d.flag (STEER_CTL_PARK_SLEW k) then d.portLast k + clampI (-(d.portSlew k)) (d.portSlew k) (d.portPark k - d.portLast k) else d.portPark k)
  else d.portNext k

/-- The frame is limited by the slew. -/
def Dev.frameLim (d : Dev) (k : Nat) : Bool :=
  if decide (d.rd (STEER_STAT_STATE k) = 2) then !(d.port k).resend && decide (d.frameWord k ≠ d.portPark k)
  else !(d.port k).first && !(d.port k).resend && decide (d.frameWord k ≠ (d.port k).sTgt)

/-- The frame that starts. -/
def Dev.frameOf (d : Dev) (k : Nat) : SentFrame :=
  { start := d.clk.tclk, bits := d.portFrame k (d.frameWord k), len := d.portLen k, half := d.portHalf k, mode3 := d.flag (STEER_CFG_SPIMODE k) }

/-- The port as its frame starts. -/
def Port.started (at_ : Nat) (lim : Bool) (f : SentFrame) (p : Port) : Port :=
  { p with frameAt := some at_, first := false, resend := false, refresh := false, send := false, park := p.park && (p.resend || lim), sent := some f }

/-- The frame starts. -/
def Dev.frameSent (k : Nat) (d : Dev) : Dev :=
  let x := (d.wr (STEER_WORD_S k) (twos 24 (d.frameWord k))).wr (STEER_WORD_SENT_V k) 1
  let y := (x.wr (STEER_STAT_BUSY k) 1).wr (STEER_STAT_SLEW_LIM k) (b2n (d.frameLim k))
  (y.setPort k (Port.started y.clk.tclk (d.frameLim k) (d.frameOf k))).portPend k

/-- The spacing from the frame before has passed. -/
def Dev.frameSpaced (d : Dev) (k : Nat) : Bool := match (d.port k).frameAt with | some t => decide (t + d.portSpacing k ≤ d.clk.tclk) | none => true

theorem Dev.portFrameStart_eq (d : Dev) (k : Nat) :
    d.portFrameStart k = if ¬ d.portReason k ∨ d.flag (STEER_STAT_BUSY k) ∨ ¬ d.frameSpaced k then d else d.frameSent k := rfl

theorem Dev.portFrameStart_idle (h : d.portReason k = false) : d.portFrameStart k = d := by
  rw [Dev.portFrameStart_eq]
  exact if_pos (Or.inl (by rw [h]; exact Bool.false_ne_true))

/-- A port has started its frame. -/
structure FrameOn (k : Nat) (d e : Dev) : Prop where
  busy : e.flag (STEER_STAT_BUSY k) = true
  valid : e.flag (STEER_WORD_SENT_V k) = true
  port : e.port k = (d.port k).started d.clk.tclk (d.frameLim k) (d.frameOf k)
  word : e.rd (STEER_WORD_S k) = twos 24 (d.frameWord k)
  only : OnlyRegs (fun x => x = rSTEER_WORD k ∨ x = rSTEER_STAT k) d e
  tclk : e.clk.tclk = d.clk.tclk

theorem twos_lt (n : Nat) (x : Int) : twos n x < 2 ^ n := by
  have hpos : (0 : Int) < 2 ^ n := by positivity
  unfold twos
  have h := Int.emod_lt_of_pos x hpos
  have h' := Int.emod_nonneg x hpos.ne'
  zify
  rw [Int.toNat_of_nonneg h']
  exact h

theorem steerWord_ne : rSTEER_WORD k ≠ rSTEER_STAT k := by
  unfold rSTEER_WORD rSTEER_STAT
  omega

theorem Dev.frameSent_spec (hk : k < d.ports.length) : FrameOn k d (d.frameSent k) := by
  unfold Dev.frameSent
  extract_lets x y
  have hxw : x.rd (STEER_WORD_S k) = twos 24 (d.frameWord k) := by
    refine (Dev.rd_wr_apart (Fld.apart_bits (by decide)) _ _).trans ?_
    exact (Dev.rd_wr_self d (STEER_WORD_S k) _ ⟨show 0 ≤ 23 by decide, show 23 < 32 by decide⟩).trans (Nat.mod_eq_of_lt (twos_lt 24 _))
  have hxv : x.flag (STEER_WORD_SENT_V k) = true := Dev.flag_wr_b2n _ _ true ⟨show 31 ≤ 31 by decide, show 31 < 32 by decide⟩ rfl
  have hxo : OnlyRegs (fun x => x = rSTEER_WORD k ∨ x = rSTEER_STAT k) d x :=
    ((OnlyRegs.refl _ d).wr (STEER_WORD_S k) _ (Or.inl rfl)).wr (STEER_WORD_SENT_V k) 1 (Or.inl rfl)
  have hxs : x.ports = d.ports ∧ x.clk = d.clk := ⟨(Dev.wr_ports _ _ _).trans (Dev.wr_ports _ _ _), (Dev.wr_clk _ _ _).trans (Dev.wr_clk _ _ _)⟩
  have hyw : ∀ f : Fld, f.addr = rSTEER_WORD k → y.rd f = x.rd f := fun f hf =>
    (Dev.rd_wr_of_ne _ _ _ _ (by rw [hf]; exact steerWord_ne)).trans (Dev.rd_wr_of_ne _ _ _ _ (by rw [hf]; exact steerWord_ne))
  have hyb : y.flag (STEER_STAT_BUSY k) = true :=
    (Dev.flag_of_rd (Dev.rd_wr_stat (hi := 23) (lo := 23) _ _)).trans
      (Dev.flag_wr_b2n x (STEER_STAT_BUSY k) true ⟨show 24 ≤ 24 by decide, show 24 < 32 by decide⟩ rfl)
  have hyo : OnlyRegs (fun x => x = rSTEER_WORD k ∨ x = rSTEER_STAT k) d y :=
    (hxo.wr (STEER_STAT_BUSY k) 1 (Or.inr rfl)).wr (STEER_STAT_SLEW_LIM k) _ (Or.inr rfl)
  have hys : y.ports = x.ports ∧ y.clk = x.clk := ⟨(Dev.wr_ports _ _ _).trans (Dev.wr_ports _ _ _), (Dev.wr_clk _ _ _).trans (Dev.wr_clk _ _ _)⟩
  have hzp : (y.setPort k (Port.started y.clk.tclk (d.frameLim k) (d.frameOf k))).port k = (d.port k).started d.clk.tclk (d.frameLim k) (d.frameOf k) := by
    refine (Dev.port_setPort_self (by rw [hys.1, hxs.1]; exact hk) _).trans ?_
    rw [Dev.port_congr hys.1, Dev.port_congr hxs.1, hys.2, hxs.2]
  have hzo := (OnlyRegs.refl (fun _ => False) y).setPort k (Port.started y.clk.tclk (d.frameLim k) (d.frameOf k))
  have hzc : (y.setPort k (Port.started y.clk.tclk (d.frameLim k) (d.frameOf k))).clk = d.clk := (y.setPort_clk _ _).trans (hys.2.trans hxs.2)
  generalize y.setPort k (Port.started y.clk.tclk (d.frameLim k) (d.frameOf k)) = z at hzp hzo hzc
  obtain ⟨hports, honly, -, hstat⟩ := z.portPend_spec k
  have hclk : (z.portPend k).clk = z.clk := z.wr_clk _ _
  generalize z.portPend k = e at hports honly hstat hclk
  have hew : ∀ f : Fld, f.addr = rSTEER_WORD k → e.rd f = x.rd f := fun f hf =>
    ((honly.rd f (by rw [hf]; exact steerWord_ne)).trans (hzo.rd f id)).trans (hyw f hf)
  exact ⟨(Dev.flag_of_rd ((hstat 24 24 (by omega)).trans (hzo.rd _ id))).trans hyb, (Dev.flag_of_rd (hew _ rfl)).trans hxv,
    (Dev.port_congr hports k).trans hzp, (hew _ rfl).trans hxw,
    hyo.trans ((hzo.mono fun _ h => h.elim).trans (honly.mono fun _ h => Or.inr h)), by rw [hclk, hzc]⟩

/-- The port drives its chip select low as its frame starts. -/
theorem FrameOn.pins {e : Dev} (h : FrameOn k d e) (ha : d.applied = true) : (e.portPins k).csN = .low := by
  have hmode : e.mode = d.mode := congrArg Mode.ofCode (h.only.rd DEV_MODE_MODE (by
    show ¬ (rDEV_MODE = rSTEER_WORD k ∨ rDEV_MODE = rSTEER_STAT k)
    unfold rDEV_MODE rSTEER_WORD rSTEER_STAT
    omega))
  have happ : e.applied = true := by
    unfold Dev.applied Dev.measuring at ha ⊢
    rw [hmode]
    exact ha
  have hlate : ¬ 2 * (d.frameOf k).half * ((d.frameOf k).len + 1) ≤ 0 := by
    have hhalf : 0 < (d.frameOf k).half := Nat.mul_pos (by decide) (Nat.succ_pos _)
    exact Nat.not_le.mpr (Nat.mul_pos (Nat.mul_pos (by decide) hhalf) (Nat.succ_pos _))
  unfold Dev.portPins
  rw [happ, h.busy, h.port, h.tclk]
  dsimp only [Port.started]
  rw [show d.clk.tclk - (d.frameOf k).start = 0 from Nat.sub_self _, if_neg hlate, if_neg (by simp), if_neg (by simp)]

/-- A frame starts where a reason holds, no frame is in progress, and the spacing has passed. -/
theorem Dev.portFrameStart_on (hk : k < d.ports.length) (hr : d.portReason k = true) (hb : d.flag (STEER_STAT_BUSY k) = false)
    (hsp : ∀ t, (d.port k).frameAt = some t → t + d.portSpacing k ≤ d.clk.tclk) : FrameOn k d (d.portFrameStart k) := by
  have hspaced : d.frameSpaced k = true := by
    unfold Dev.frameSpaced
    split
    · rename_i t ht
      exact decide_eq_true (hsp t ht)
    · rfl
  rw [Dev.portFrameStart_eq, if_neg (by rw [hr, hb, hspaced]; simp)]
  exact Dev.frameSent_spec hk

/-! ### A frame ends, and reasons for a frame (R204, R205) -/

theorem Dev.portFrameEnd_spec (hb : d.flag (STEER_STAT_BUSY k) = true) :
    (d.portFrameEnd k).flag (STEER_STAT_BUSY k) = false ∧
      (d.portFrameEnd k).rd (STEER_FRAMES_FRAMES k) = (d.rd (STEER_FRAMES_FRAMES k) + 1) % 2 ^ 32 ∧
      OnlyRegs (fun x => x = rSTEER_FRAMES k ∨ x = rSTEER_STAT k) d (d.portFrameEnd k) := by
  have hne : rSTEER_FRAMES k ≠ rSTEER_STAT k := by
    unfold rSTEER_FRAMES rSTEER_STAT
    omega
  unfold Dev.portFrameEnd
  rw [if_pos hb]
  extract_lets x rests
  have hxb : x.flag (STEER_STAT_BUSY k) = false :=
    (Dev.flag_wr_of_ne _ _ _ _ hne.symm).trans (d.flag_wr_b2n (STEER_STAT_BUSY k) false ⟨show 24 ≤ 24 by decide, show 24 < 32 by decide⟩ rfl)
  have hxf : x.rd (STEER_FRAMES_FRAMES k) = (d.rd (STEER_FRAMES_FRAMES k) + 1) % 2 ^ 32 := by
    refine (Dev.bump_rd _ ⟨show 0 ≤ 31 by decide, show 31 < 32 by decide⟩).trans ?_
    rw [Dev.rd_wr_of_ne _ _ _ _ hne]
    rfl
  have hxo : OnlyRegs (fun x => x = rSTEER_FRAMES k ∨ x = rSTEER_STAT k) d x :=
    ((OnlyRegs.refl _ d).wr (STEER_STAT_BUSY k) 0 (Or.inr rfl)).bump (STEER_FRAMES_FRAMES k) (Or.inl rfl)
  have hyo : OnlyRegs (· = rSTEER_STAT k) x (x.when rests fun d => d.wr (STEER_STAT_SLEW_LIM k) 0) :=
    (OnlyRegs.refl _ x).when _ _ ((OnlyRegs.refl _ x).wr (STEER_STAT_SLEW_LIM k) 0 rfl)
  have hyb : (x.when rests fun d => d.wr (STEER_STAT_SLEW_LIM k) 0).rd (STEER_STAT_BUSY k) = x.rd (STEER_STAT_BUSY k) := by
    unfold Dev.when
    split
    · exact x.rd_wr_stat (hi := 23) (lo := 23) 0
    · rfl
  generalize (x.when rests fun d => d.wr (STEER_STAT_SLEW_LIM k) 0) = y at hyo hyb
  obtain ⟨-, honly, -, hstat⟩ := y.portPend_spec k
  refine ⟨(Dev.flag_of_rd ((hstat 24 24 (by omega)).trans hyb)).trans hxb, ?_, hxo.trans ((hyo.trans honly).mono fun _ h => Or.inr h)⟩
  rw [honly.rd (STEER_FRAMES_FRAMES k) hne, hyo.rd (STEER_FRAMES_FRAMES k) hne, hxf]

/-- A reason of RUN stands at a port: PENDING shows it. -/
theorem Dev.portAsk_spec {f : Port → Port} (hk : k < d.ports.length) (hs : d.rd (STEER_STAT_STATE k) = 1)
    (hf : ∀ p, ((f p).refresh || (f p).send) = true) :
    ((d.setPort k f).portPend k).port k = f (d.port k) ∧
      ((d.setPort k f).portPend k).flag (STEER_STAT_PENDING k) = (d.measuring && !d.flag (STEER_STAT_BUSY k)) := by
  have hport : (d.setPort k f).port k = f (d.port k) := Dev.port_setPort_self hk f
  obtain ⟨hports, -, hpend, -⟩ := (d.setPort k f).portPend_spec k
  have hreason : (d.setPort k f).portReason k = d.measuring := by
    unfold Dev.portReason
    dsimp only
    rw [hport, Dev.rd_setPort, hs]
    have hmeas : (d.setPort k f).measuring = d.measuring := rfl
    have hmode : (d.setPort k f).mode = d.mode := rfl
    rw [hmeas, hmode]
    cases hm : d.measuring
    · exact if_pos (Or.inr Bool.false_ne_true)
    · rw [if_neg (by
        rintro (h | h)
        · unfold Dev.measuring at hm
          rw [h] at hm
          cases hm
        · exact h rfl)]
      have h := hf (d.port k)
      rw [Bool.or_eq_true_iff] at h
      rcases h with h | h
      · simp [h]
      · simp [h]
  exact ⟨(Dev.port_congr hports k).trans hport, by rw [hpend, hreason, Dev.flag_setPort]⟩

end Sys2Proof.Machine
end

section
/-!
PROOF. Commands and faults of a steering port (07 R205 to R207; O56).
-/

namespace Sys2Proof.Machine

variable {d : Dev} {k : Nat}

/-! ### STEER_k_CMD -/

/-- An accepted write of STEER_k_CMD. -/
theorem Dev.write_steerCmd {m w : Nat} (hk : k < 8) (h : d.Grants m (rSTEER_CMD k)) (hw : w < 2 ^ 32) :
    ∃ o, d.write m (rSTEER_CMD k) w =
      (((({ d with outside := o } : Dev)).when (w.testBit 0) (Dev.portResume k)).when (w.testBit 1) (Dev.portSend k)).accessEdge := by
  have row : ∃ r, rowAt (rSTEER_CMD k) = some r ∧ plainCommand (rSTEER_CMD k) r = true ∧ r.rw = 0 ∧ r.rws = 0 := by
    interval_cases k <;> exact ⟨_, rfl, by decide, rfl, rfl⟩
  obtain ⟨r, hr, hp, hrw, hrws⟩ := row
  have hcmd : ∀ x : Dev, x.command m (rSTEER_CMD k) w = (x.when (w.testBit 0) (Dev.portResume k)).when (w.testBit 1) (Dev.portSend k) := fun x => by
    interval_cases k <;> rfl
  obtain ⟨o, ho⟩ := Dev.write_bare h hr hp hrw hrws hw
  exact ⟨o, ho.trans (by rw [hcmd])⟩

theorem Effects.of_send {s : State} {dt m : Nat} {P : Dev → Prop} (hk : k < 8) (hg : s.dev.Grants m (rSTEER_CMD k))
    (hp : ∀ o, P (({ s.dev.advance dt with outside := o } : Dev).portSend k).accessEdge) : Effects (.send dt m k) s P := by
  refine Effects.of_run (f := within k 8 (Dev.write m (rSTEER_CMD k) 2)) rfl ?_
  obtain ⟨o, ho⟩ := Dev.write_steerCmd hk (hg.advance dt) (w := 2) (by decide)
  rw [within_of_lt hk, ho]
  exact hp o

theorem Effects.of_resume {s : State} {dt m : Nat} {P : Dev → Prop} (hk : k < 8) (hg : s.dev.Grants m (rSTEER_CMD k))
    (hp : ∀ o, P (({ s.dev.advance dt with outside := o } : Dev).portResume k).accessEdge) : Effects (.resume dt m k) s P := by
  refine Effects.of_run (f := within k 8 (Dev.write m (rSTEER_CMD k) 1)) rfl ?_
  obtain ⟨o, ho⟩ := Dev.write_steerCmd hk (hg.advance dt) (w := 1) (by decide)
  rw [within_of_lt hk, ho]
  exact hp o

/-! ### RESUME (R207) -/

/-- RESUME is accepted. -/
def Dev.resumes (d : Dev) (k : Nat) : Prop :=
  d.rd (STEER_STAT_STATE k) = 2 ∧ d.mode ≠ .fold ∧
    (d.rd (PAD_STATE_STATE (d.rd (STEER_CFG_PAD k))) = 1 ∨ d.rd (PAD_STATE_STATE (d.rd (STEER_CFG_PAD k))) = 2) ∧ d.rd (STEER_STAT_CAUSE k) ≠ 5 ∧
      ¬ d.flag (STEER_STAT_CLAMP_LIM k) ∧ (d.port k).trigAt ≠ some d.clk.edge

/-- The port leaves FAULTED. -/
structure Resumed (k : Nat) (d e : Dev) : Prop where
  state : e.rd (STEER_STAT_STATE k) = b2n (d.flag (STEER_CTL_ENABLE k))
  cause : e.rd (STEER_STAT_CAUSE k) = 0
  event : e.flag (STEER_EVT_RESUMED k) = true
  port : e.port k = { d.port k with acc := (d.portLast k - d.portCenter k) * d.portGain k * 2 ^ 32,
                                    send := d.flag (STEER_CTL_ENABLE k), park := false, sTgt := d.portLast k }

/-- The port with its frame asked for. -/
def Port.resumed (on : Bool) (last : Int) (p : Port) : Port := { p with send := on, park := false, sTgt := last }

theorem Dev.portResume_spec (hk : k < d.ports.length) (h : d.resumes k) : Resumed k d (d.portResume k) := by
  unfold Dev.resumes at h
  unfold Dev.portResume
  dsimp only
  rw [if_pos h]
  obtain ⟨hacc, hlen, ho⟩ := Dev.setAcc_spec hk ((d.portLast k - d.portCenter k) * d.portGain k * 2 ^ 32)
  generalize d.setAcc k ((d.portLast k - d.portCenter k) * d.portGain k * 2 ^ 32) = x at hacc hlen ho
  generalize hon : d.flag (STEER_CTL_ENABLE k) = on
  have hlast : x.rd (STEER_WORD_S k) = d.rd (STEER_WORD_S k) := ho.rd (STEER_WORD_S k) (by
    show ¬ (rSTEER_WORD k = rSTEER_ACC_LO k ∨ rSTEER_WORD k = rSTEER_ACC_HI k)
    unfold rSTEER_WORD rSTEER_ACC_LO rSTEER_ACC_HI
    omega)
  generalize hy : ((x.wr (STEER_STAT_STATE k) (b2n on)).wr (STEER_STAT_CAUSE k) 0).wr (STEER_STAT_PARKED k) 0 = y
  have hyw : y.portLast k = d.portLast k := by
    unfold Dev.portLast Dev.rdS
    rw [← hy, Dev.rd_wr_of_ne _ _ _ _ steerWord_ne, Dev.rd_wr_of_ne _ _ _ _ steerWord_ne, Dev.rd_wr_of_ne _ _ _ _ steerWord_ne, hlast]
  have hys : y.rd (STEER_STAT_STATE k) = b2n on := by
    rw [← hy]
    refine (Dev.rd_wr_stat (hi := 25) (lo := 25) _ _).trans ((Dev.rd_wr_stat (hi := 28) (lo := 26) _ _).trans ?_)
    refine (Dev.rd_wr_self _ (STEER_STAT_STATE k) _ ⟨show 29 ≤ 31 by decide, show 31 < 32 by decide⟩).trans ?_
    cases on <;> rfl
  have hyc : y.rd (STEER_STAT_CAUSE k) = 0 := by
    rw [← hy]
    refine (Dev.rd_wr_stat (hi := 25) (lo := 25) _ _).trans ?_
    exact (Dev.rd_wr_self _ (STEER_STAT_CAUSE k) _ ⟨show 26 ≤ 28 by decide, show 28 < 32 by decide⟩).trans (Nat.zero_mod _)
  have hyp : y.ports = x.ports := by
    rw [← hy, Dev.wr_ports, Dev.wr_ports, Dev.wr_ports]
  rw [hyw]
  have hzp : (y.setPort k (Port.resumed on (d.portLast k))).port k =
      { d.port k with acc := (d.portLast k - d.portCenter k) * d.portGain k * 2 ^ 32, send := on, park := false, sTgt := d.portLast k } := by
    refine (Dev.port_setPort_self (by rw [hyp, hlen]; exact hk) _).trans ?_
    rw [Dev.port_congr hyp, hacc]
    rfl
  have hzr : ∀ f, (y.setPort k (Port.resumed on (d.portLast k))).rd f = y.rd f := fun f => Dev.rd_setPort ..
  show Resumed k d (((y.setPort k (Port.resumed on (d.portLast k))).evt (STEER_EVT_RESUMED k)).portPend k)
  generalize y.setPort k (Port.resumed on (d.portLast k)) = z at hzp hzr
  have hev := z.flag_evt_self (STEER_EVT_RESUMED k) rfl (show 1 < 24 by decide)
  have hrd : ∀ f : Fld, f.addr = rSTEER_STAT k → (z.evt (STEER_EVT_RESUMED k)).rd f = y.rd f := fun f hf =>
    (Dev.rd_evt_of_ne _ _ _ (by rw [hf]; exact portEvt_ne)).trans (hzr f)
  have hpt := z.evt_ports (STEER_EVT_RESUMED k)
  generalize z.evt (STEER_EVT_RESUMED k) = u at hev hrd hpt
  obtain ⟨hports, honly, -, hstat⟩ := u.portPend_spec k
  refine ⟨?_, ?_, ?_, ?_⟩
  · rw [hon]
    exact ((hstat 31 29 (by omega)).trans (hrd _ rfl)).trans hys
  · exact ((hstat 28 26 (by omega)).trans (hrd _ rfl)).trans hyc
  · exact (Dev.flag_of_rd (honly.rd (STEER_EVT_RESUMED k) portEvt_ne.symm)).trans hev
  · rw [Dev.port_congr hports, Dev.port_congr hpt, hzp, hon]

theorem Dev.portResume_rejected (h : ¬ d.resumes k) : (d.portResume k).flag (STEER_EVT_CMD_REJ k) = true ∧ (d.portResume k).ports = d.ports ∧
    (d.portResume k).word (rSTEER_STAT k) = d.word (rSTEER_STAT k) := by
  unfold Dev.resumes at h
  unfold Dev.portResume
  dsimp only
  rw [if_neg h]
  exact ⟨d.flag_evt_self (STEER_EVT_CMD_REJ k) rfl (show 7 < 24 by decide), d.evt_ports _,
    (Still.evt (A := fun a => a = rSTEER_EVT k) d (STEER_EVT_CMD_REJ k) rfl).word _ portEvt_ne⟩

/-! ### Faults (R206) -/

/-- The port as a trigger enters FAULTED. -/
def Port.faulted (park : Bool) (cause e : Nat) (p : Port) : Port :=
  { p with park := park && decide (cause ≠ 5), resend := false, refresh := false, send := false, faultAt := some e, trigAt := some e }

/-- The port has entered FAULTED. -/
structure Faulted (k cause : Nat) (d e : Dev) : Prop where
  state : e.rd (STEER_STAT_STATE k) = 2
  cause : e.rd (STEER_STAT_CAUSE k) = cause
  event : e.flag (STEER_EVT_FAULT k) = true
  fired : Fired 33 d e
  parked : e.flag (STEER_STAT_PARKED k) = d.flag (STEER_CTL_ACT k)

theorem Dev.portFault_spec (hk : k < 8) {cause : Nat} (hc : cause < 8) (hs : d.rd (STEER_STAT_STATE k) = 1) : Faulted k cause d (d.portFault k cause) := by
  unfold Dev.portFault
  rw [hs]
  dsimp only
  generalize hp : d.flag (STEER_CTL_ACT k) = park
  generalize hx : ((d.wr (STEER_STAT_STATE k) 2).wr (STEER_STAT_CAUSE k) cause).wr (STEER_STAT_PARKED k) (b2n park) = x
  have hxs : x.rd (STEER_STAT_STATE k) = 2 := by
    rw [← hx]
    refine (Dev.rd_wr_stat (hi := 25) (lo := 25) _ _).trans ((Dev.rd_wr_stat (hi := 28) (lo := 26) _ _).trans ?_)
    exact Dev.rd_wr_self _ (STEER_STAT_STATE k) _ ⟨show 29 ≤ 31 by decide, show 31 < 32 by decide⟩
  have hxc : x.rd (STEER_STAT_CAUSE k) = cause := by
    rw [← hx]
    refine (Dev.rd_wr_stat (hi := 25) (lo := 25) _ _).trans ?_
    exact (Dev.rd_wr_self _ (STEER_STAT_CAUSE k) _ ⟨show 26 ≤ 28 by decide, show 28 < 32 by decide⟩).trans (Nat.mod_eq_of_lt hc)
  have hxp : x.flag (STEER_STAT_PARKED k) = park := by
    rw [← hx]
    exact Dev.flag_wr_b2n _ (STEER_STAT_PARKED k) park ⟨show 25 ≤ 25 by decide, show 25 < 32 by decide⟩ rfl
  have hxo : OnlyRegs (· = rSTEER_STAT k) d x := by
    rw [← hx]
    exact (((OnlyRegs.refl (· = rSTEER_STAT k) d).wr (STEER_STAT_STATE k) 2 rfl).wr (STEER_STAT_CAUSE k) cause rfl).wr (STEER_STAT_PARKED k) _ rfl
  generalize hb : (!x.flag (STEER_STAT_BUSY k)) = b
  have hyo : OnlyRegs (· = rSTEER_STAT k) x (x.when b fun d => d.wr (STEER_STAT_SLEW_LIM k) 0) :=
    (OnlyRegs.refl _ x).when _ _ ((OnlyRegs.refl _ x).wr (STEER_STAT_SLEW_LIM k) 0 rfl)
  have hyr : ∀ hi lo, lo ≤ hi ∧ hi < 32 ∧ 23 < lo → (x.when b fun d => d.wr (STEER_STAT_SLEW_LIM k) 0).rd ⟨rSTEER_STAT k, hi, lo⟩ =
      x.rd ⟨rSTEER_STAT k, hi, lo⟩ := by
    intro hi lo h
    unfold Dev.when
    split
    · exact x.rd_wr_stat (hi := 23) (lo := 23) 0 (by omega)
    · rfl
  generalize (x.when b fun d => d.wr (STEER_STAT_SLEW_LIM k) 0) = y at hyo hyr
  show Faulted k cause d ((((y.setPort k (Port.faulted park cause d.clk.edge)).evt (STEER_EVT_FAULT k)).fire 33 k).portPend k)
  have hzr : ∀ f, (y.setPort k (Port.faulted park cause d.clk.edge)).rd f = y.rd f := fun f => Dev.rd_setPort ..
  generalize y.setPort k (Port.faulted park cause d.clk.edge) = z at hzr
  have hev := z.flag_evt_self (STEER_EVT_FAULT k) rfl (show 0 < 24 by decide)
  have hur : ∀ f : Fld, f.addr ≠ rSTEER_EVT k → (z.evt (STEER_EVT_FAULT k)).rd f = y.rd f := fun f hf => (Dev.rd_evt_of_ne _ _ _ hf).trans (hzr f)
  generalize z.evt (STEER_EVT_FAULT k) = u at hev hur
  have hout : ∀ a, 0x0B0000 ≤ a → ¬ FiringReg a := fun a ha => not_firingReg (by omega) (by omega) (by omega) (by omega)
  have hfire := Still.fireAs 33 k none false false u
  obtain ⟨hl, hn⟩ := Dev.fireAs_fired 33 k none false false u (by decide)
  have hv : ∀ f : Fld, 0x0B0000 ≤ f.addr → (u.fire 33 k).rd f = u.rd f := fun f hf => Dev.rd_of_word (hfire.word _ (hout _ hf))
  have hl' : (u.fire 33 k).latched 33 = true := hl
  have hn' : (u.fire 33 k).rd FLT_SEQNO_COUNT = (u.rd FLT_SEQNO_COUNT + 1) % 2 ^ 32 := hn
  generalize u.fire 33 k = w at hl' hn' hv
  obtain ⟨-, honly, -, hstat⟩ := w.portPend_spec k
  generalize w.portPend k = e at honly hstat
  have hst : ∀ hi lo, lo ≤ hi ∧ hi < 32 ∧ 23 < lo → e.rd ⟨rSTEER_STAT k, hi, lo⟩ = x.rd ⟨rSTEER_STAT k, hi, lo⟩ := fun hi lo h =>
    (((hstat hi lo (by omega)).trans (hv _ (by dsimp only; unfold rSTEER_STAT; omega))).trans (hur _ portEvt_ne)).trans (hyr hi lo h)
  have hlow : ∀ a, a < 0x0B0000 → a ≠ rSTEER_STAT k ∧ a ≠ rSTEER_EVT k := fun a ha => by
    unfold rSTEER_STAT rSTEER_EVT
    omega
  have hack := ackFld_addr 33
  refine ⟨(hst 31 29 (by omega)).trans hxs, (hst 28 26 (by omega)).trans hxc, ?_, ⟨?_, ?_⟩, ((Dev.flag_of_rd (hst 25 25 (by omega))).trans hxp).trans hp.symm⟩
  · refine (Dev.flag_of_rd ((honly.rd (STEER_EVT_FAULT k) portEvt_ne.symm).trans (hv _ ?_))).trans hev
    show 0x0B0000 ≤ rSTEER_EVT k
    unfold rSTEER_EVT
    omega
  · exact (Dev.flag_of_rd (honly.rd (ackFld 33) (hlow _ (by omega)).1)).trans hl'
  · rw [honly.rd FLT_SEQNO_COUNT (hlow _ (by decide)).1, hn', hur _ (hlow _ (by decide)).2, hyo.rd FLT_SEQNO_COUNT (hlow _ (by decide)).1,
      hxo.rd FLT_SEQNO_COUNT (hlow _ (by decide)).1]

/-! ### The obligation -/

theorem Effects.of_port {s : State} {c : Instr} {dt k : Nat} {f : Dev → Dev} {P : Dev → Prop} (hrun : exec c s = run dt (within k 8 f) s) (hk : k < 8)
    (hp : P (f (s.dev.advance dt))) : Effects c s P := by
  refine Effects.of_run hrun ?_
  rw [within_of_lt hk]
  exact hp

/-- The accumulator's tick, inside the clamp and beyond it. -/
theorem Dev.accTick_spec {p : Nat} {a v : Int} (hk : k < d.ports.length) (hp : p = d.rd (STEER_CFG_PAD k)) (hm : d.mode ≠ .sleep)
    (hu : d.flag (STEER_CFG_USED k) = true) (hst : d.padSt p = 0 ∨ d.padSt p = 3) (hs : d.rd (STEER_STAT_STATE k) = 1)
    (ha : a = (d.port k).acc - divRound (d.padWord p * ((d.padTu p).1 * 2 ^ 32 : Nat)) (d.padTu p).2) (hv : v = d.portRaw k a) :
    (d.portLo k ≤ v → v ≤ d.portHi k → ((d.accTick k).port k).acc = a ∧ ((d.accTick k).port k).sTgt = v ∧
      (d.accTick k).flag (STEER_STAT_CLAMP_LIM k) = false ∧ (d.accTick k).flag (PAD_STATE_CLAMPED p) = false) ∧
    (v < d.portLo k ∨ d.portHi k < v → ((d.accTick k).port k).sTgt = min (max v (d.portLo k)) (d.portHi k) ∧
      ((d.accTick k).port k).acc = (min (max v (d.portLo k)) (d.portHi k) - d.portCenter k) * d.portGain k * 2 ^ 32 ∧
      (d.accTick k).flag (STEER_STAT_CLAMP_LIM k) = true ∧ (d.accTick k).flag (STEER_EVT_CLAMP k) = true ∧
      (d.accTick k).flag (PAD_STATE_CLAMPED p) = true) := by
  have hp16 : p < 16 := hp ▸ Dev.rd_lt d (STEER_CFG_PAD k)
  have hstat : 0x0B0000 ≤ rSTEER_STAT k ∧ 0x0B0000 ≤ rSTEER_EVT k := by
    unfold rSTEER_STAT rSTEER_EVT
    omega
  rw [Dev.accTick_eq hp hu hst]
  generalize hr : d.portAdvance k (d.padWord p) (d.padTu p).1 (d.padTu p).2 = r
  obtain ⟨hc, hports, hflag⟩ := Dev.padClamped_spec hp16 r.2 r.1
  rw [Dev.port_congr hports, hflag (STEER_STAT_CLAMP_LIM k) hstat.1, hflag (STEER_EVT_CLAMP k) hstat.2, hc]
  refine ⟨fun hlo hhi => ?_, fun ho => ?_⟩
  · obtain ⟨h1, h2, h3, h4⟩ := Dev.portAdvance_inside (y := d.padWord p) (num := (d.padTu p).1) (den := (d.padTu p).2) hk hs hm ha hv hlo hhi
    rw [hr] at h1 h2 h3 h4
    exact ⟨h2, h3, h4, h1⟩
  · obtain ⟨h1, h2, h3, h4, h5⟩ := Dev.portAdvance_outside (y := d.padWord p) (num := (d.padTu p).1) (den := (d.padTu p).2) hk hs hm ha hv ho
    rw [hr] at h1 h2 h3 h4 h5
    exact ⟨h2, h3, h4, h5, h1⟩

/-- What STEER_FRAME_START must show. -/
theorem Dev.frameLast_spec (hsel : d.selNow = none) (hk : k < d.ports.length) (ha : d.applied = true) (hr : d.portReason k = true)
    (hb : d.flag (STEER_STAT_BUSY k) = false) (hsp : ∀ t, (d.port k).frameAt = some t → t + d.portSpacing k ≤ d.clk.tclk) :
    (d.frameLast k).flag (STEER_STAT_BUSY k) = true ∧ (d.frameLast k).flag (STEER_WORD_SENT_V k) = true ∧
      ((d.frameLast k).port k) = (d.port k).started d.clk.tclk (d.frameLim k) (d.frameOf k) ∧
      (d.frameLast k).rd (STEER_WORD_S k) = twos 24 (d.frameWord k) ∧ ((d.frameLast k).portPins k).csN = .low ∧
      OnlyRegs (fun x => x = rSTEER_WORD k ∨ x = rSTEER_STAT k) d (d.frameLast k) := by
  have hon := Dev.portFrameStart_on hk hr hb hsp
  have hlast : d.frameLast k = (d.portFrameStart k).closeEdge := by
    unfold Dev.frameLast
    rw [Dev.settleSelect_none hsel]
    exact if_neg (by rw [hb, hon.busy]; decide)
  rw [hlast]
  have hpins := hon.pins ha
  generalize d.portFrameStart k = e at hon hpins
  exact ⟨hon.busy, hon.valid, hon.port, hon.word, hpins, hon.only.closeEdge⟩

/-- The word of a frame, where PARK is not approached by the slew. -/
theorem Dev.frameWord_eq {v : Int} (hr : d.portReason k = true)
    (hv : v = if (d.port k).resend then d.portLast k else if d.rd (STEER_STAT_STATE k) = 1 then d.portNext k else d.portPark k)
    (h : (d.port k).resend = true ∨ d.rd (STEER_STAT_STATE k) = 1 ∨ d.flag (STEER_CTL_PARK_SLEW k) = false) : d.frameWord k = v := by
  subst hv
  unfold Dev.frameWord
  by_cases hres : (d.port k).resend = true
  · rw [if_pos hres, if_pos hres]
  · rw [if_neg hres, if_neg hres]
    by_cases h1 : d.rd (STEER_STAT_STATE k) = 1
    · rw [if_pos h1, if_neg (by rw [h1]; decide)]
    · have h2 : d.rd (STEER_STAT_STATE k) = 2 := by
        unfold Dev.portReason at hr
        dsimp only at hr
        split at hr
        · cases hr
        · split at hr
          · rename_i h; exact absurd h h1
          · assumption
          · cases hr
      have hslew : d.flag (STEER_CTL_PARK_SLEW k) = false := (h.resolve_left hres).resolve_left h1
      rw [if_neg h1, if_pos (decide_eq_true h2), if_neg (by rw [hslew]; exact Bool.false_ne_true)]

/-- Settles O56: the rules of a beat monitor's causes, of the accumulator, of frames, of commands and of faults, each on its own port. -/
theorem beatsAndSteeringPorts : Obligations.BeatsAndSteeringPorts := by
  unfold Obligations.BeatsAndSteeringPorts
  intro s dt m b k p hb hk hlen hp
  refine ⟨fun hm hv => ⟨fun c cause hc hflag => ?_, fun h2 => ?_, fun h2 => ?_⟩, fun d c hc hv hf => d.beatSet_fired b hv hf,
    fun a v happ hsl hu hst hs ha hv => ?_, fun happ hr hbusy hsp => ?_, fun hr => ?_, fun hbusy => ?_, fun href hs => ?_, fun hg => ⟨fun hs => ?_,
      fun hs hfold hst hcause hclamp htrig => ?_, fun hrej => ?_⟩, fun c cause hc hs => ?_⟩
  · simp only [List.mem_cons, Prod.mk.injEq, List.not_mem_nil, or_false] at hc
    have hset : ∀ c < 4, s.dev.flag ⟨rBN_STAT b, c, c⟩ = false → ((s.dev.advance dt).beatCause b c true).flag ⟨rBN_STAT b, c, c⟩ = true ∧
        ((s.dev.advance dt).beatCause b c true).flag ⟨rBN_EVT b, c, c⟩ = true ∧ ((s.dev.advance dt).beatCause b c true).flag (BN_STAT_QUAL b) = false ∧
        OnlyRegs (fun a => a = rBN_STAT b ∨ a = rBN_EVT b ∨ firingAt a) s.dev ((s.dev.advance dt).beatCause b c true) := fun c hc hf => by
      obtain ⟨h1, h2, h3, h4⟩ := Dev.beatSet_spec (d := s.dev.advance dt) hb hc hv hf
      exact ⟨h1, h2, h3, (Dev.only_advance s.dev dt).trans h4⟩
    rcases hc with ⟨rfl, rfl⟩ | ⟨rfl, rfl⟩
    · exact Effects.of_measuring (f := Dev.beatCause b 0 true) rfl hb hm (hset 0 (by decide) hflag)
    · exact Effects.of_measuring (f := Dev.beatCause b 1 true) rfl hb hm (hset 1 (by decide) hflag)
  · obtain ⟨h1, h3⟩ := Dev.beatClear_spec (d := s.dev.advance dt) (b := b) hv
    refine Effects.of_measuring (f := Dev.beatCause b 1 false) rfl hb hm ⟨h1, h3.trans (decide_eq_true ?_)⟩
    rw [show (s.dev.advance dt).rd ⟨rBN_STAT b, 3, 0⟩ = 2 from h2]
    rfl
  · obtain ⟨h1, h3⟩ := Dev.beatClear_spec (d := s.dev.advance dt) (b := b) hv
    exact Effects.of_measuring (f := Dev.beatCause b 1 false) rfl hb hm ⟨h1, h3.trans (decide_eq_false h2)⟩
  · have hspec := Dev.accTick_spec (d := s.dev.advance dt) hlen hp hsl hu hst hs ha hv
    have hrun : ∀ {P : Dev → Prop}, P ((s.dev.advance dt).accTick k) → Effects (.steerAccTick dt k) s P := fun h =>
      Effects.of_port rfl hk (by rw [Dev.whenNow_pos (show Dev.applied (s.dev.advance dt) = true from happ)]; exact h)
    exact ⟨fun hlo hhi => hrun (hspec.1 hlo hhi), fun ho => hrun (hspec.2 ho)⟩
  · refine Effects.of_prompt (f := within k 8 (Dev.whenNow Dev.applied (Dev.frameLast k))) rfl fun hsel => ?_
    obtain ⟨h1, h2, h3, h4, h5, h6⟩ := Dev.frameLast_spec (d := s.dev.advance dt) hsel hlen happ hr hbusy hsp
    rw [within_of_lt hk, Dev.whenNow_pos (show Dev.applied (s.dev.advance dt) = true from happ)]
    refine ⟨h1, h2, ?_, fun v hv hcase => ?_, h5, (Dev.only_advance s.dev dt).trans h6⟩
    · rw [h3]
      rfl
    · have hword := Dev.frameWord_eq (d := s.dev.advance dt) hr hv hcase
      refine ⟨h4.trans (congrArg _ hword), ?_⟩
      rw [h3, ← hword]
      rfl
  · refine Effects.of_prompt (f := within k 8 (Dev.whenNow Dev.applied (Dev.frameLast k))) rfl fun hsel => ?_
    have hidle : (s.dev.advance dt).frameLast k = s.dev.advance dt := by
      unfold Dev.frameLast
      rw [Dev.settleSelect_none (d := s.dev.advance dt) hsel]
      dsimp only
      rw [Dev.portFrameStart_idle (d := s.dev.advance dt) hr, if_pos rfl]
    rw [within_of_lt hk]
    unfold Dev.whenNow
    rw [hidle, ite_self]
    exact ⟨rfl, Dev.only_advance s.dev dt⟩
  · obtain ⟨h1, h2, h3⟩ := Dev.portFrameEnd_spec (d := s.dev.advance dt) (k := k) hbusy
    exact Effects.of_port (f := Dev.portFrameEnd k) rfl hk ⟨h1, h2, (Dev.only_advance s.dev dt).trans h3⟩
  · have hrun : (s.dev.advance dt).portRefresh k = ((s.dev.advance dt).setPort k fun p => { p with refresh := true }).portPend k := if_pos ⟨href, hs⟩
    obtain ⟨h1, h2⟩ := Dev.portAsk_spec (d := s.dev.advance dt) (f := fun p => { p with refresh := true }) hlen hs fun _ => rfl
    refine Effects.of_port (f := Dev.portRefresh k) rfl hk ?_
    rw [hrun, h1]
    exact ⟨rfl, h2⟩
  · refine Effects.of_send hk hg fun o => ?_
    have hrun : ({ s.dev.advance dt with outside := o } : Dev).portSend k =
        (({ s.dev.advance dt with outside := o } : Dev).setPort k fun p => { p with send := true }).portPend k := if_pos hs
    obtain ⟨h1, h2⟩ := Dev.portAsk_spec (d := ({ s.dev.advance dt with outside := o } : Dev)) (f := fun p => { p with send := true }) hlen hs
      fun _ => Bool.or_true _
    rw [hrun]
    generalize Dev.portPend k _ = e at h1 h2
    exact ⟨congrArg Port.send h1, h2⟩
  · refine Effects.of_resume hk hg fun o => ?_
    have hres := Dev.portResume_spec (d := ({ s.dev.advance dt with outside := o } : Dev)) hlen
      ⟨hs, hfold, hp ▸ hst, hcause, Bool.eq_false_iff.mp hclamp, htrig⟩
    generalize Dev.portResume k _ = e at hres
    have hport := hres.port
    exact ⟨hres.state, hres.cause, hres.event, congrArg Port.send hport, congrArg Port.sTgt hport, congrArg Port.acc hport⟩
  · refine Effects.of_resume hk hg fun o => ?_
    refine Dev.portResume_rejected (d := ({ s.dev.advance dt with outside := o } : Dev)) ?_
    rintro ⟨h1, h2, h3, h4, h5, h6⟩
    rcases hrej with h | h | h | h | h | h
    · exact h h1
    · exact h2 h
    · exact h4 h
    · exact h5 h
    · subst hp
      exact h3.elim h.1 h.2
    · exact h6 h
  · have hfault : ∀ cause < 8, ∀ b, b = true → Faulted k cause (s.dev.advance dt) ((s.dev.advance dt).when b (Dev.portFault k cause)) := by
      rintro cause hcause b rfl
      exact Dev.portFault_spec hk hcause hs
    rcases hc with ⟨rfl, rfl, hon, hst⟩ | ⟨rfl, rfl, hon, hcl⟩
    · have h := hfault 3 (by decide) _ (Bool.and_eq_true_iff.mpr ⟨hon, decide_eq_true (hp ▸ hst)⟩)
      exact Effects.of_port (f := Dev.portHoldTimeout k) rfl hk ⟨h.state, h.cause, h.event, h.fired.advance, h.parked⟩
    · have h := hfault 4 (by decide) _ (Bool.and_eq_true_iff.mpr ⟨hon, hcl⟩)
      exact Effects.of_port (f := Dev.portClampTimeout k) rfl hk ⟨h.state, h.cause, h.event, h.fired.advance, h.parked⟩

end Sys2Proof.Machine
end

section
/-!
PROOF. A reset pulse ends (13 R344, R346, R347, R350; O19): the stage at which BOOT starts, the straps, and the mode that a WARM or WDOG
pulse leads back to.
-/

namespace Sys2Proof.Machine

variable {d d0 : Dev}

/-! ### An edge of a device under BOOT -/

/-- A device in BOOT, or in a pulse that leads back to it, does not fold: the end of the edge forgets a fold that it has called for. -/
theorem Dev.finish_of_boot (hm : d.underMode = .boot) (hc : d.flt.dumpCopy = none) :
    ∃ p, Stays { d with flt := { d.flt with foldPend := p } } d.finish := by
  have hcopy : d.settleCopy = d := by simp [Dev.settleCopy, hc]
  have hpend : ∃ p, d.settlePend = { d with flt := { d.flt with foldPend := p } } := by
    have hfold : d.enterFold = d := by simp [Dev.enterFold, hm]
    unfold Dev.settlePend
    split
    · exact ⟨false, by rw [hfold]⟩
    · exact ⟨d.flt.foldPend, rfl⟩
  obtain ⟨p, hp⟩ := hpend
  generalize hx : ({ d with flt := { d.flt with foldPend := p } } : Dev) = x at hp
  have hxm : x.underMode = .boot := by rw [← hx]; exact hm
  have held : Stays x x.settleHeld := Stays.settleHeld x
  have hfin : d.finish = x.settleHeld.settleFold.settleElig.settleFn.settleLamp := by
    rw [← hp]
    unfold Dev.finish
    rw [hcopy]
    rfl
  refine ⟨p, ?_⟩
  rw [hx, hfin]
  exact (((held.trans (Stays.settleFold (by rw [held.underMode, hxm]; decide))).trans (Stays.settleElig _)).trans
    (Stays.settleFn _)).trans (Stays.settleLamp _)

/-- What an edge in BOOT leaves: the mode, the stage, the boot sequence's record. -/
structure BootEdge (d e : Dev) : Prop where
  mode : e.mode = d.mode
  stage : e.stage = d.stage
  boot : e.boot = d.boot

theorem BootEdge.of_low (h : Low d0 d) : BootEdge d0 d := ⟨h.mode, h.rd _ (by decide), h.boot⟩

theorem BootEdge.trans {e : Dev} (h : BootEdge d0 d) (h' : BootEdge d e) : BootEdge d0 e :=
  ⟨h'.mode.trans h.mode, h'.stage.trans h.stage, h'.boot.trans h.boot⟩

theorem BootEdge.finish (hm : d.mode = .boot) (hc : d.flt.dumpCopy = none) : BootEdge d d.finish := by
  obtain ⟨p, h⟩ := Dev.finish_of_boot (Dev.underMode_of_ne (by rw [hm]; decide) |>.trans hm) hc
  have hw : d.finish.word rDEV_MODE = d.word rDEV_MODE :=
    h.word _ (not_steadyReg (by decide) (by decide) (by decide) (by decide))
  exact ⟨mode_congr hw, Dev.rd_of_word hw, h.boot⟩

/-! ### BOOT begins -/

theorem Low.railsJudge (h : Low d0 d) : Low d0 d.railsJudge :=
  h.foldl _ _ fun _ _ d => (Low.refl d).level _ _ _ _

theorem Dev.raise_dumpCopy (src inst detail : Nat) (d : Dev) : (d.raise src inst detail).flt.dumpCopy = d.flt.dumpCopy := by
  unfold Dev.raise
  split
  · rfl
  · exact (Still.fireAs ..).dumpCopy

theorem Dev.railsJudge_dumpCopy (d : Dev) : d.railsJudge.flt.dumpCopy = d.flt.dumpCopy := by
  unfold Dev.railsJudge
  generalize d.railLow = l
  induction l generalizing d with
  | nil => rfl
  | cons r l ih => exact (ih _).trans (Dev.raise_dumpCopy _ _ _ d)

/-- BOOT at stage `n`, with the monitors judging. -/
def Dev.bootAt (n : Nat) (d : Dev) : Dev := ((d.changeMode .boot).wr DEV_MODE_BOOT_STAGE n).railsJudge

theorem Dev.bootAt_spec {n : Nat} (hn : n < 16) (d : Dev) :
    (d.bootAt n).mode = .boot ∧ (d.bootAt n).stage = n ∧ (d.bootAt n).boot = d.boot ∧
      (d.bootAt n).flt.dumpCopy = d.flt.dumpCopy := by
  have hl := Low.railsJudge (Low.refl ((d.changeMode .boot).wr DEV_MODE_BOOT_STAGE n))
  refine ⟨?_, ?_, hl.boot, Dev.railsJudge_dumpCopy _⟩
  · exact hl.mode.trans ((Dev.mode_wr_apart (by decide) _ _).trans (Dev.mode_changeMode d .boot))
  · exact (hl.rd DEV_MODE_BOOT_STAGE (by decide)).trans (Dev.stage_setStage _ hn)

theorem Dev.enterBoot_eq (n : Nat) (d : Dev) : d.enterBoot n = (d.bootAt n).epochAll 3 := rfl

/-- BOOT starts at a stage, as a device at rest finds it when the edge is over. -/
theorem Dev.enterBoot_spec {n : Nat} (hn : n < 16) (hc : d.flt.dumpCopy = none) :
    (d.enterBoot n).finish.mode = .boot ∧ (d.enterBoot n).finish.stage = n ∧ (d.enterBoot n).finish.boot = d.boot := by
  obtain ⟨hm, hs, hb, hd⟩ := Dev.bootAt_spec hn d
  rw [Dev.enterBoot_eq]
  have hj := JobsOnly.epochAll 3 (d.bootAt n)
  have he := (BootEdge.of_low hj.low).trans (BootEdge.finish (hj.mode.trans hm) (by rw [hj.flt, hd, hc]))
  exact ⟨he.mode.trans hm, he.stage.trans hs, he.boot.trans hb⟩

/-! ### The ends of the pulses (13 R344, R346, R347) -/

section Ends

variable {dt src addr : Nat}

theorem Dev.porRelease_boot (hr : d.mode = .reset) (hk : d.resetKind = .por) (hc : d.flt.dumpCopy = none) :
    (d.porRelease src addr false).finish.mode = .boot ∧ (d.porRelease src addr false).finish.stage = 0 ∧
      (d.porRelease src addr false).finish.boot.strap = src % 4 ∧
      (d.porRelease src addr false).finish.boot.addrStrap = addr % 4 := by
  have heq : d.porRelease src addr false = (d.latchStraps src addr).bootAt 0 := by
    unfold Dev.porRelease
    rw [if_pos ⟨hr, hk⟩]
    rfl
  obtain ⟨hm, hs, hb, hd⟩ := Dev.bootAt_spec (n := 0) (by decide) (d.latchStraps src addr)
  have he := BootEdge.finish hm (hd.trans hc)
  rw [heq, he.mode, he.stage, he.boot, hb]
  exact ⟨hm, hs, rfl, rfl⟩

theorem Dev.porRelease_low (hr : d.mode = .reset) (hk : d.resetKind = .por) :
    d.porRelease src addr true = ({ d with resetKind := .pin, boot := { d.boot with pinLow := true } }).markReset .pin := by
  unfold Dev.porRelease
  rw [if_pos ⟨hr, hk⟩]
  rfl

theorem Dev.rd_of_flag {f : Fld} (hb : f.hi = f.lo) (h : d.flag f = true) : d.rd f = 1 := by
  have h0 : d.rd f ≠ 0 := by simpa [Dev.flag] using h
  have h1 := d.rd_lt f
  rw [hb, Nat.sub_self] at h1
  omega

/-- DEV_RESET_CAUSE and DEV_RESET.LAST as a reset of kind `k` leaves them (R357). -/
def Dev.causeSet (k : ResetKind) (d : Dev) : Dev := (d.evt ⟨rDEV_RESET_CAUSE, k.rank, k.rank⟩).wr DEV_RESET_LAST k.rank

theorem Dev.causeSet_rd (k : ResetKind) (d : Dev) : (d.causeSet k).rd ⟨rDEV_RESET_CAUSE, k.rank, k.rank⟩ = 1 := by
  have hne : rDEV_RESET_CAUSE ≠ rDEV_RESET := by decide
  exact (Dev.rd_wr_of_ne _ _ _ _ hne).trans (Dev.rd_of_flag rfl (Dev.flag_evt_self d _ rfl (by cases k <;> decide)))

theorem Low.causeSet (h : Low d0 d) (k : ResetKind) : Low d0 (d.causeSet k) :=
  (h.evt _ (show 0x20 ≤ rDEV_RESET_CAUSE by decide)).wr DEV_RESET_LAST k.rank (by decide)

/-- What the record of a reset leaves. -/
structure Marked (k : ResetKind) (d e : Dev) : Prop where
  cause : e.rd ⟨rDEV_RESET_CAUSE, k.rank, k.rank⟩ = 1
  mode : e.mode = d.mode
  foldPend : e.flt.foldPend = d.flt.foldPend
  dumpCopy : e.flt.dumpCopy = d.flt.dumpCopy
  wdog : e.boot.wdog = d.boot.wdog
  pinLow : e.boot.pinLow = d.boot.pinLow
  kind : e.resetKind = d.resetKind
  prior : e.priorMode = d.priorMode
  sram : e.sram = d.sram
  nvm : e.nvm = d.nvm

theorem Dev.logEvent_pends (c a n : Nat) (d : Dev) :
    (d.logEvent c a n).flt.foldPend = d.flt.foldPend ∧ (d.logEvent c a n).flt.dumpCopy = d.flt.dumpCopy := ⟨rfl, rfl⟩

theorem Dev.markReset_spec (k : ResetKind) (d : Dev) : Marked k d (d.markReset k) := by
  have hl := (Low.refl d).causeSet k
  have hf : (d.causeSet k).flt = d.flt := by simp [Dev.causeSet]
  have hrd := d.causeSet_rd k
  have heq : ∃ n, (d.markReset k) = { (d.causeSet k).logEvent 2 k.rank n with
      boot := { (d.causeSet k).boot with tally := (d.causeSet k).boot.tally ++ [if k = .por then 0 else 1] } } := ⟨_, rfl⟩
  obtain ⟨n, heq⟩ := heq
  generalize d.causeSet k = x at *
  obtain ⟨hp, hc⟩ := Dev.logEvent_pends 2 k.rank n x
  have hw := hl.logEvent 2 k.rank n
  rw [hf] at hp hc
  have hrd' : (x.logEvent 2 k.rank n).rd ⟨rDEV_RESET_CAUSE, k.rank, k.rank⟩ = 1 := hrd
  have hb : (x.logEvent 2 k.rank n).boot = x.boot := rfl
  rw [← hb] at heq
  generalize x.logEvent 2 k.rank n = y at *
  have hwd : y.boot.wdog = d.boot.wdog := congrArg Boot.wdog hw.boot
  have hpl : y.boot.pinLow = d.boot.pinLow := congrArg Boot.pinLow hw.boot
  rw [heq]
  exact ⟨hrd', hw.mode, hp, hc, hwd, hpl, hw.kind, hw.prior, hw.sram, hw.nvm⟩

/-- A POR pulse that ends with RESET_N low goes on as the pulse of a pin reset (R347). -/
theorem Dev.porRelease_pin (hr : d.mode = .reset) (hk : d.resetKind = .por) (hs : d.Steady) :
    (d.porRelease src addr true).Steady ∧ (d.porRelease src addr true).mode = .reset ∧
      (d.porRelease src addr true).resetKind = .pin ∧ (d.porRelease src addr true).boot.pinLow = true ∧
      (d.porRelease src addr true).rd ⟨rDEV_RESET_CAUSE, 1, 1⟩ = 1 := by
  have hm := Dev.markReset_spec .pin { d with resetKind := .pin, boot := { d.boot with pinLow := true } }
  rw [← Dev.porRelease_low (src := src) (addr := addr) hr hk] at hm
  refine ⟨⟨⟨hm.foldPend.trans hs.noFold, hm.dumpCopy.trans hs.noCopy⟩, ?_⟩, hm.mode.trans hr, hm.kind, hm.pinLow, hm.cause⟩
  rw [underMode_congr hm.mode hm.prior]
  exact hs.notFold

theorem Dev.pinRelease_boot (hr : d.mode = .reset) (hk : d.resetKind = .pin) (hc : d.flt.dumpCopy = none) :
    (d.pinRelease src addr).finish.mode = .boot ∧ (d.pinRelease src addr).finish.stage = 0 ∧
      (d.pinRelease src addr).finish.boot.strap = src % 4 ∧ (d.pinRelease src addr).finish.boot.addrStrap = addr % 4 ∧
      (d.pinRelease src addr).finish.boot.pinLow = false := by
  have heq : d.pinRelease src addr =
      (({ d with boot := { d.boot with pinLow := false } } : Dev).latchStraps src addr).enterBoot 0 := by
    unfold Dev.pinRelease
    rw [if_pos ⟨hr, hk⟩]
  obtain ⟨hm, hs, hb⟩ := Dev.enterBoot_spec (n := 0) (by decide)
    (d := ({ d with boot := { d.boot with pinLow := false } } : Dev).latchStraps src addr) hc
  rw [heq, hb]
  exact ⟨hm, hs, rfl, rfl, rfl⟩

theorem Dev.pulseEnd_soft (hr : d.mode = .reset) (hk : d.resetKind = .soft) : d.pulseEnd = d.enterBoot d.scanStage := by
  unfold Dev.pulseEnd
  rw [if_neg (by rw [hr]; simp), hk]

/-- What the end of a WARM or WDOG pulse does after the change of mode: epochs, paddocks, ports, an interrupted rewrite, selection. -/
def Dev.afterWarm (d : Dev) : Dev := (((forN 16 Dev.padWarm (d.epochAll 3)).portsWarm).rewriteAgain).askSelect none

theorem Low.afterWarm (h : Low d0 d) : Low d0 d.afterWarm :=
  ((((h.epochAll 3).forN 16 _ fun _ hk d => (Low.refl d).padWarm hk).portsWarm).rewriteAgain).askSelect none

theorem Dev.pulseEnd_warm (hr : d.mode = .reset) (hk : d.resetKind = .warm ∨ d.resetKind = .wdog) :
    d.pulseEnd.mode = d.priorMode ∧ d.pulseEnd.boot.kick = d.clk.tclk := by
  have heq : ∃ x, x = (d.changeMode d.priorMode).afterWarm ∧ d.pulseEnd = { x with boot := { x.boot with kick := x.clk.tclk } } := by
    refine ⟨_, rfl, ?_⟩
    unfold Dev.pulseEnd
    rw [if_neg (by rw [hr]; simp)]
    rcases hk with hk | hk <;> rw [hk] <;> rfl
  obtain ⟨x, hx, heq⟩ := heq
  have hl : Low (d.changeMode d.priorMode) x := hx ▸ (Low.refl _).afterWarm
  rw [heq]
  exact ⟨hl.mode.trans (Dev.mode_changeMode d d.priorMode), hl.tclk⟩

end Ends

/-- Settles O19: the pulse of a kind that passes through BOOT ends in BOOT, which calls for no fold; a WARM or WDOG pulse ends in the mode
before it. -/
theorem resetPulsesEnd : Obligations.ResetPulsesEnd := by
  unfold Obligations.ResetPulsesEnd
  intro s dt hr
  refine ⟨fun src addr hk hs => ?_, fun src addr hk hs => ?_, fun src addr hk hs => ?_, fun hk hs => ?_, fun hk => ?_⟩
  · exact Completes.of_finish (f := Dev.porRelease src addr false) rfl (Dev.porRelease_boot (d := s.dev.advance dt) hr hk hs.noCopy)
  · obtain ⟨he, hm, hkind, hlow, hcause⟩ := Dev.porRelease_pin (d := s.dev.advance dt) (src := src) (addr := addr) hr hk (hs.advance dt)
    refine Completes.of_steady (f := Dev.porRelease src addr true) rfl he fun t ht => ?_
    have hw : t.word rDEV_MODE = _ := ht.word _ (not_steadyReg (by decide) (by decide) (by decide) (by decide))
    refine ⟨(mode_congr hw).trans hm, ht.resetKind.trans hkind, ?_, ?_⟩
    · rw [ht.boot]
      exact hlow
    · rw [ht.toKeeps.rd _ (not_steadyReg (by decide) (by decide) (by decide) (by decide))]
      exact hcause
  · exact Completes.of_finish (f := Dev.pinRelease src addr) rfl (Dev.pinRelease_boot (d := s.dev.advance dt) hr hk hs.noCopy)
  · have hn : (s.dev.advance dt).scanStage < 16 := by
      unfold Dev.scanStage
      split <;> decide
    obtain ⟨hm, hst, -⟩ := Dev.enterBoot_spec hn (d := s.dev.advance dt) hs.noCopy
    rw [← Dev.pulseEnd_soft (d := s.dev.advance dt) hr hk] at hm hst
    exact Completes.of_finish (f := Dev.pulseEnd) rfl ⟨hm, hst⟩
  · exact Effects.of_run (f := Dev.pulseEnd) rfl (Dev.pulseEnd_warm (d := s.dev.advance dt) hr hk)

end Sys2Proof.Machine
end

section
/-!
PROOF. A service that has ended stays ended through the start of a WARM or WDOG pulse (10 R277; 13 R350): a firing ends a service DUMP
only while the mailbox is busy.
-/

namespace Sys2Proof.Machine

/-- Where the mailbox is not busy, its status, results and events stand. -/
def MbxIdle (d e : Dev) : Prop := d.flag DEV_MBX_STAT_BUSY = false → ∀ a, 0x000120 ≤ a → a < 0x000138 → e.word a = d.word a

theorem MbxIdle.stat {d e : Dev} (h : MbxIdle d e) (hb : d.flag DEV_MBX_STAT_BUSY = false) :
    e.word rDEV_MBX_STAT = d.word rDEV_MBX_STAT := h hb _ (by decide) (by decide)

namespace MbxIdle

variable {d d0 : Dev}

theorem refl (d : Dev) : MbxIdle d d := fun _ _ _ _ => rfl

theorem trans {e f : Dev} (h : MbxIdle d e) (h' : MbxIdle e f) : MbxIdle d f := fun hb a h1 h2 =>
  (h' ((Dev.flag_of_rd (Dev.rd_of_word (h.stat hb))).trans hb) a h1 h2).trans (h hb a h1 h2)

theorem of_still {A : Nat → Prop} {e : Dev} (h : Still A d e) (hA : ∀ a, 0x000120 ≤ a → a < 0x000138 → ¬ A a) : MbxIdle d e :=
  fun _ a h1 h2 => h.word a (hA a h1 h2)

theorem of_live {e : Dev} (h : e.live = d.live) : MbxIdle d e := fun _ _ _ _ => Dev.word_congr h _

/-- An address beyond the mailbox. -/
theorem beyond {b c n : Nat} (h : 0x000138 ≤ b := by decide) : b + c * n < 0x000120 ∨ 0x000138 ≤ b + c * n := by omega

theorem wr (h : MbxIdle d0 d) (f : Fld) (v : Nat) (hf : f.addr < 0x000120 ∨ 0x000138 ≤ f.addr) : MbxIdle d0 (d.wr f v) :=
  h.trans fun _ _ _ _ => Dev.word_setWord_of_ne _ _ _ _ (by omega)

theorem evt (h : MbxIdle d0 d) (f : Fld) (hf : f.addr < 0x000120 ∨ 0x000138 ≤ f.addr) : MbxIdle d0 (d.evt f) :=
  h.trans fun _ _ _ _ => Dev.word_evt_of_ne _ _ _ (by omega)

theorem setMeas (h : MbxIdle d0 d) (x : Meas) : MbxIdle d0 { d with meas := x } := h.trans (of_live rfl)
theorem setFlt (h : MbxIdle d0 d) (x : Flt) : MbxIdle d0 { d with flt := x } := h.trans (of_live rfl)
theorem setChk (h : MbxIdle d0 d) (x : Chk) : MbxIdle d0 { d with chk := x } := h.trans (of_live rfl)
theorem setNvmc (h : MbxIdle d0 d) (x : NvmCtl) : MbxIdle d0 { d with nvmc := x } := h.trans (of_live rfl)
theorem setCell (h : MbxIdle d0 d) (k : Nat) (f : Cell → Cell) : MbxIdle d0 (d.setCell k f) := h.trans (of_live rfl)
theorem setPad (h : MbxIdle d0 d) (k : Nat) (f : Paddock → Paddock) : MbxIdle d0 (d.setPad k f) := h.trans (of_live rfl)
theorem setPort (h : MbxIdle d0 d) (k : Nat) (f : Port → Port) : MbxIdle d0 (d.setPort k f) := h.trans (of_live rfl)
theorem setJob (h : MbxIdle d0 d) (k : Nat) (j : Option Job) : MbxIdle d0 (d.setJob k j) := h.trans (of_live rfl)

theorem when (h : MbxIdle d0 d) (b : Bool) (f : Dev → Dev) (hf : ∀ x, MbxIdle x (f x)) : MbxIdle d0 (d.when b f) := by
  cases b
  · exact h
  · exact h.trans (hf d)

theorem foldl {α : Type} (h : MbxIdle d0 d) (l : List α) (f : Dev → α → Dev) (hf : ∀ d a, MbxIdle d (f d a)) :
    MbxIdle d0 (l.foldl f d) := by
  induction l generalizing d with
  | nil => exact h
  | cons a t ih => exact ih (h.trans (hf d a))

theorem forN (h : MbxIdle d0 d) (n : Nat) (f : Nat → Dev → Dev) (hf : ∀ k d, MbxIdle d (f k d)) : MbxIdle d0 (forN n f d) :=
  h.foldl _ (fun d k => f k d) fun d k => hf k d

/-! ### Firings -/

theorem dumpTrigger (h : MbxIdle d0 d) (src sev : Nat) (inj fresh : Bool) : MbxIdle d0 (d.dumpTrigger src sev inj fresh) := by
  unfold Dev.dumpTrigger
  split
  · unfold Dev.bumpSat
    split
    · exact h.wr _ _ (by decide)
    · exact h
  · exact (h.setFlt _).wr _ _ (by decide)

/-- A dump is triggered; a service DUMP that runs ends first. -/
theorem triggered (h : MbxIdle d0 d) (src sev : Nat) (inj b c : Bool) :
    MbxIdle d0 ((d.when (d.flag DEV_MBX_STAT_BUSY && b && c) Dev.dumpAbort).dumpTrigger src sev inj
      (d.flag DEV_MBX_STAT_BUSY && b && c)) := by
  refine h.trans fun hb => ?_
  rw [hb]
  exact (refl d).dumpTrigger src sev inj false hb

theorem reactTo (h : MbxIdle d0 d) (src sev : Nat) (inj full forced : Bool) : MbxIdle d0 (d.reactTo src sev inj full forced) := by
  unfold Dev.reactTo
  dsimp only
  have hack : ∀ x : Dev, MbxIdle x x.ackEnd := fun x => of_live rfl
  have held := (h.when (decide (sev = sevFatal)) (fun d => d.wr FLT_STAT_FATAL_HELD 1) fun x => (refl x).wr _ _ (by decide))
  generalize d.when (decide (sev = sevFatal)) (fun d => d.wr FLT_STAT_FATAL_HELD 1) = x at held
  split
  · exact held.when _ _ hack
  · refine ((((held.when _ _ hack).when _ _ fun x => ?_).when _ _ fun x => ?_).when _ _ fun x => ?_).when _ _ fun x => ?_
    · exact ((refl x).wr FLT_STAT_FSTATE 1 (by decide)).setFlt _
    · exact (refl x).triggered src sev inj _ _
    · exact ((refl x).wr FLT_STAT_ESC_RUN 1 (by decide)).setFlt _
    · exact (refl x).setFlt _

theorem afterCount (h : MbxIdle d0 d) (f : Firing) (sim : Bool) : MbxIdle d0 (d.afterCount f sim) := by
  have cap : MbxIdle d0 (d.captureFiring f) := h.trans (of_still (Still.captureFiring f d) fun a h1 h2 => not_capReg (by omega) (by omega))
  unfold Dev.afterCount
  generalize d.captureFiring f = x at cap
  have key : ∀ y z : Dev, MbxIdle x y → MbxIdle y z →
      MbxIdle d0 (if z.reactive then z.reactTo f.src f.sev f.inj (!sim) (forcedFold f.src && !f.inj) else z) := fun y z hy hz => by
    have hz' := cap.trans (hy.trans hz)
    split
    · exact hz'.reactTo _ _ _ _ _
    · exact hz'
  refine key _ _ ?_ (of_still (A := fun _ => False) (Still.noticeAtLatch _ _ _) fun _ _ _ => id)
  refine MbxIdle.when (MbxIdle.setFlt ?_ _) _ _ fun y => (refl y).setNvmc _
  exact (refl x).when _ _ fun y => (refl y).wr FLT_INJ_STAT_REAL 1 (by decide)

theorem fireAs (h : MbxIdle d0 d) (src detail : Nat) (acc : Option Access) (inj sim : Bool) : MbxIdle d0 (d.fireAs src detail acc inj sim) := by
  rw [Dev.fireAs_eq]
  have ha := ackFld_addr src
  exact ((h.evt _ (by omega)).wr FLT_SEQNO_COUNT _ (by decide)).afterCount _ sim

theorem fire (h : MbxIdle d0 d) (src detail : Nat) : MbxIdle d0 (d.fire src detail) :=
  fireAs h src detail none false false

theorem raise (h : MbxIdle d0 d) (src inst detail : Nat) : MbxIdle d0 (d.raise src inst detail) := by
  unfold Dev.raise
  split
  · exact h
  · exact (h.setFlt _).fire src detail

theorem lower (h : MbxIdle d0 d) (src inst : Nat) : MbxIdle d0 (d.lower src inst) :=
  h.trans fun _ a _ _ => Dev.lower_word src inst d a

/-! ### What stops in a pulse -/

theorem checkShort (h : MbxIdle d0 d) : MbxIdle d0 d.checkShort := by
  unfold Dev.checkShort
  dsimp only
  split
  · split
    · exact h
    · exact (h.evt MEAS_STAT_POOL_SHORT (by decide)).raise _ _ _
  · exact h.lower _ _

theorem measHalt (h : MbxIdle d0 d) : MbxIdle d0 d.measHalt := by
  unfold Dev.measHalt
  dsimp only
  split
  · split
    · exact (((h.setMeas _).setCell _ _).checkShort).setMeas _
    · exact ((h.setMeas _).setCell _ _).setMeas _
  · exact h.setMeas _

theorem slotBad (k : Nat) (d : Dev) : MbxIdle d (d.slotBad k) := by
  unfold Dev.slotBad
  split
  · split
    · exact refl d
    · exact (((refl d).setJob k _).evt MEAS_Q_ERR_QUEUE_ECC (by decide)).fire 21 k
  · exact refl d

theorem settleFlush (r : Nat) (d : Dev) : MbxIdle d (d.settleFlush r) := by
  unfold Dev.settleFlush
  refine (refl d).foldl _ _ fun d k => ?_
  split
  · dsimp only
    split
    · exact refl d
    · split
      · exact slotBad k d
      · exact (refl d).setJob k _
  · exact refl d

theorem promote (r : Nat) (d : Dev) : MbxIdle d (d.promote r) := fun _ _ _ _ => by
  obtain ⟨j, hj⟩ := JobsOnly.promote r d
  rw [hj]
  rfl

theorem settleRings (h : MbxIdle d0 d) : MbxIdle d0 d.settleRings :=
  h.forN 16 _ fun r d => (settleFlush r d).trans (promote r _)

theorem rstJobs (h : MbxIdle d0 d) (cause : Nat) : MbxIdle d0 (d.rstJobs cause) := by
  unfold Dev.rstJobs
  refine settleRings (h.foldl _ _ fun d k => ?_)
  split
  · exact (refl d).setJob k _
  · exact refl d

theorem chkReset (h : MbxIdle d0 d) : MbxIdle d0 d.chkReset := by
  unfold Dev.chkReset
  refine setChk (h.forN 4 _ fun k d => ?_) _
  split
  · exact (((((refl d).wr _ _ beyond).wr _ _ beyond).wr _ _ beyond).wr _ _ beyond).wr _ _ beyond
  · exact refl d

theorem notLogged (h : MbxIdle d0 d) (e : LogEntry) : MbxIdle d0 (d.notLogged e) := by
  unfold Dev.notLogged
  split
  · exact h.setFlt _
  · exact h

theorem nvmReset (h : MbxIdle d0 d) : MbxIdle d0 d.nvmReset := by
  unfold Dev.nvmReset
  exact ((h.setNvmc _).foldl _ _ fun d e => (refl d).notLogged e).wr _ _ (by decide)

theorem cntRestart (h : MbxIdle d0 d) : MbxIdle d0 d.cntRestart :=
  ((h.wr _ _ (by decide)).wr _ _ (by decide)).forN 32 _ fun _ d => ((refl d).wr _ _ beyond).wr _ _ beyond

theorem portsCut (h : MbxIdle d0 d) : MbxIdle d0 d.portsCut :=
  h.forN 8 _ fun k d => ((refl d).wr (STEER_STAT_BUSY k) 0 beyond).setPort k _

end MbxIdle

/-! ### The end of a service (10 R277) -/

variable {d d0 : Dev}

/-- The service that runs has completed with `code` and the results `res`. -/
structure MbxDone (code : Nat) (res : List Nat) (e : Dev) : Prop where
  idle : e.flag DEV_MBX_STAT_BUSY = false
  done : e.flag DEV_MBX_STAT_DONE = true
  code : e.rd DEV_MBX_STAT_CODE = code
  event : e.flag DEV_MBX_EVT_DONE = true
  res : ∀ k < 4, e.rd (DEV_MBX_RES_RES k) = res.getD k 0 % 2 ^ 32

theorem MbxDone.kept {code : Nat} {res : List Nat} {e : Dev} (h : MbxDone code res d) (hk : MbxIdle d e) : MbxDone code res e := by
  have hw : ∀ f : Fld, 0x000120 ≤ f.addr → f.addr < 0x000138 → e.rd f = d.rd f := fun f h1 h2 => Dev.rd_of_word (hk h.idle _ h1 h2)
  refine ⟨(Dev.flag_of_rd (hw _ (by decide) (by decide))).trans h.idle, (Dev.flag_of_rd (hw _ (by decide) (by decide))).trans h.done,
    (hw _ (by decide) (by decide)).trans h.code, (Dev.flag_of_rd (hw _ (by decide) (by decide))).trans h.event, fun k hk => ?_⟩
  have ha : (DEV_MBX_RES_RES k).addr = 0x000124 + 4 * k := rfl
  exact (hw _ (by omega) (by omega)).trans (h.res k hk)

/-- The results of a service that ends, in their registers. -/
theorem resWritten (n : Nat) (v : Nat → Nat) (d : Dev) :
    (∀ k < n, (forN n (fun k d => d.wr (DEV_MBX_RES_RES k) (v k)) d).rd (DEV_MBX_RES_RES k) = v k % 2 ^ 32) ∧
      ∀ a, a < 0x000124 → (forN n (fun k d => d.wr (DEV_MBX_RES_RES k) (v k)) d).word a = d.word a := by
  have hne : ∀ i j, i ≠ j → (DEV_MBX_RES_RES i).addr ≠ (DEV_MBX_RES_RES j).addr := fun i j h e => h (by
    have : 0x000124 + 0x4 * i = 0x000124 + 0x4 * j := e
    omega)
  induction n with
  | zero => exact ⟨fun k hk => absurd hk (Nat.not_lt_zero k), fun _ _ => rfl⟩
  | succ n ih =>
    obtain ⟨ih1, ih2⟩ := ih
    rw [forN_succ]
    refine ⟨fun k hk => ?_, fun a ha => ?_⟩
    · by_cases hkn : k = n
      · subst hkn
        exact Dev.rd_wr_self _ _ _ ⟨show 0 ≤ 31 by decide, show 31 < 32 by decide⟩
      · rw [Dev.rd_wr_of_ne _ _ _ _ (hne k n hkn)]
        exact ih1 k (by omega)
    · have : (DEV_MBX_RES_RES n).addr = 0x000124 + 0x4 * n := rfl
      exact (Dev.word_setWord_of_ne _ _ _ _ (by omega)).trans (ih2 a ha)

theorem Dev.mbxComplete_done {code : Nat} (hc : code < 256) (res : List Nat) (d : Dev) : MbxDone code res (d.mbxComplete code res) := by
  unfold Dev.mbxComplete
  dsimp only
  generalize d.alignStop.logEvent 9 (d.rd DEV_MBX_STAT_SERVICE + 256 * code) (d.rd DEV_MBX_STAT_TAG) = x
  have hcode : (x.wr DEV_MBX_STAT_CODE code).rd DEV_MBX_STAT_CODE = code :=
    (Dev.rd_wr_self _ _ _ ⟨show 0 ≤ 7 by decide, show 7 < 32 by decide⟩).trans (Nat.mod_eq_of_lt hc)
  generalize x.wr DEV_MBX_STAT_CODE code = y at hcode
  obtain ⟨hres, hword⟩ := resWritten 4 (fun k => res.getD k 0) y
  generalize forN 4 (fun k d => d.wr (DEV_MBX_RES_RES k) (res.getD k 0)) y = z at hres hword
  have hcz : z.rd DEV_MBX_STAT_CODE = code := (Dev.rd_of_word (hword _ (by decide))).trans hcode
  have hb : (z.wr DEV_MBX_STAT_BUSY 0).flag DEV_MBX_STAT_BUSY = false := (Dev.flag_wr_self z _ 0 (by decide) rfl).trans (by decide)
  have hbc : (z.wr DEV_MBX_STAT_BUSY 0).rd DEV_MBX_STAT_CODE = code :=
    (Dev.rd_wr_apart (Fld.apart_bits (by decide)) z 0).trans hcz
  have hne : ∀ k, (DEV_MBX_RES_RES k).addr ≠ rDEV_MBX_STAT ∧ (k < 4 → (DEV_MBX_RES_RES k).addr ≠ rDEV_MBX_EVT) := fun k => by
    have h1 : (DEV_MBX_RES_RES k).addr = 0x000124 + 0x4 * k := rfl
    have h2 : rDEV_MBX_STAT = 0x000120 := rfl
    have h3 : rDEV_MBX_EVT = 0x000134 := rfl
    omega
  have hbr : ∀ k < 4, (z.wr DEV_MBX_STAT_BUSY 0).rd (DEV_MBX_RES_RES k) = res.getD k 0 % 2 ^ 32 := fun k hk =>
    (Dev.rd_wr_of_ne _ _ _ _ (hne k).1).trans (hres k hk)
  generalize z.wr DEV_MBX_STAT_BUSY 0 = u at hb hbc hbr
  have hd : (u.wr DEV_MBX_STAT_DONE 1).flag DEV_MBX_STAT_DONE = true := (Dev.flag_wr_self u _ 1 (by decide) rfl).trans (by decide)
  have hdb : (u.wr DEV_MBX_STAT_DONE 1).flag DEV_MBX_STAT_BUSY = false :=
    (Dev.flag_of_rd (Dev.rd_wr_apart (Fld.apart_bits (by decide)) u 1)).trans hb
  have hdc : (u.wr DEV_MBX_STAT_DONE 1).rd DEV_MBX_STAT_CODE = code :=
    (Dev.rd_wr_apart (Fld.apart_bits (by decide)) u 1).trans hbc
  have hdr : ∀ k < 4, (u.wr DEV_MBX_STAT_DONE 1).rd (DEV_MBX_RES_RES k) = res.getD k 0 % 2 ^ 32 := fun k hk =>
    (Dev.rd_wr_of_ne _ _ _ _ (hne k).1).trans (hbr k hk)
  generalize u.wr DEV_MBX_STAT_DONE 1 = t at hd hdb hdc hdr
  have hrd : ∀ f : Fld, f.addr ≠ rDEV_MBX_EVT → (t.evt DEV_MBX_EVT_DONE).rd f = t.rd f := fun f h => Dev.rd_evt_of_ne t _ f h
  exact ⟨(Dev.flag_of_rd (hrd _ (by decide))).trans hdb, (Dev.flag_of_rd (hrd _ (by decide))).trans hd, (hrd _ (by decide)).trans hdc,
    Dev.flag_evt_self t _ rfl (by decide), fun k hk => (hrd _ ((hne k).2 hk)).trans (hdr k hk)⟩

end Sys2Proof.Machine
end

section
/-!
PROOF. A reset begins (13 R346 to R349, R357; O18): what the pulse of each kind keeps, and what DEV_RESET does with a wrong key and in
BOOT.
-/

namespace Sys2Proof.Machine

variable {d d0 : Dev}

/-! ### The pulse of a reset that passes through BOOT -/

/-- The device in the pulse of a reset of kind `k` that passes through BOOT, with its array and what it has kept of SRAM. -/
structure ColdPulse (k : ResetKind) (nv sr : ByteMem) (e : Dev) : Prop where
  mode : e.mode = .reset
  kind : e.resetKind = k
  nvm : e.nvm = nv
  sram : e.sram = sr
  noFold : e.flt.foldPend = false
  noCopy : e.flt.dumpCopy = none
  prior : e.priorMode = .boot

theorem ColdPulse.steady {k : ResetKind} {nv sr : ByteMem} {e : Dev} (h : ColdPulse k nv sr e) : e.Steady := by
  refine ⟨⟨h.noFold, h.noCopy⟩, ?_⟩
  unfold Dev.underMode
  rw [h.mode, h.prior]
  decide

theorem ColdPulse.stays {k : ResetKind} {nv sr : ByteMem} {e t : Dev} (h : ColdPulse k nv sr e) (hs : Stays e t) :
    t.mode = .reset ∧ t.resetKind = k ∧ t.nvm = nv ∧ t.sram = sr := by
  refine ⟨?_, hs.resetKind.trans h.kind, hs.nvm.trans h.nvm, hs.sram.trans h.sram⟩
  exact (mode_congr (hs.word _ (not_steadyReg (by decide) (by decide) (by decide) (by decide)))).trans h.mode

theorem keepFlds_live (fs : List Fld) (old new : Dev) : ∃ l, keepFlds fs old new = { new with live := l } := by
  unfold keepFlds
  induction fs generalizing new with
  | nil => exact ⟨new.live, rfl⟩
  | cons f fs ih =>
    obtain ⟨l, hl⟩ := ih (new.wr f (old.rd f))
    exact ⟨l, hl⟩

theorem keepFlds_word {a : Nat} (fs : List Fld) (old new : Dev) (h : ∀ f ∈ fs, f.addr ≠ a) :
    (keepFlds fs old new).word a = new.word a := by
  unfold keepFlds
  induction fs generalizing new with
  | nil => rfl
  | cons f fs ih =>
    exact (ih _ fun g hg => h g (by simp [hg])).trans (Dev.word_setWord_of_ne _ _ _ _ (h f (by simp)).symm)

/-- What a pulse through BOOT starts from, in the parts that the spec's clauses name. -/
structure ColdStart (nv : ByteMem) (n : Dev) : Prop where
  flt : n.flt = Flt.fresh
  nvm : n.nvm = nv
  prior : n.priorMode = .boot

theorem ColdStart.coldBase (k : ResetKind) (d : Dev) : ColdStart d.nvm (d.coldBase k) ∧ (d.coldBase k).sram = [] := by
  unfold Dev.coldBase
  dsimp only
  obtain ⟨l, hl⟩ := keepFlds_live (nvmLive ++ extLive) d { Dev.reset with
    live := if d.flag NVM_STAT_BUSY then d.live.filter fun e => inNvmBlock e.1 else []
    nvm := d.nvm
    nvmOnes := d.nvmOnes
    nvmErrs := d.nvmErrs
    railLow := d.railLow
    clk := d.clk.restart
    nvmc := { NvmCtl.fresh with
      op := if d.flag NVM_STAT_BUSY then d.nvmc.op else none
      due := [{ at_ := d.clk.tclk, late := false }]
      rstDue := if ¬ d.flag NVM_STAT_BUSY then none else if d.nvmc.rstDue = some .por then some .por else some k }
    front := { Front.fresh with gpioExt := d.front.gpioExt }
    resetKind := d.resetKind
    outside := d.outside
    fresh := d.fresh }
  rw [hl]
  exact ⟨⟨rfl, rfl, rfl⟩, rfl⟩

theorem Dev.enterReset_mode (was : Mode) (n : Dev) : (n.enterReset was).mode = .reset := by
  unfold Dev.enterReset
  split
  · exact Dev.mode_changeMode n .reset
  · exact Dev.mode_changeMode n .reset

theorem ColdStart.enterReset {nv : ByteMem} {n : Dev} (h : ColdStart nv n) (was : Mode) :
    ColdPulse n.resetKind nv n.sram (n.enterReset was) := by
  have hp : n.flt.foldPend = false := by rw [h.flt]; rfl
  have hc : n.flt.dumpCopy = none := by rw [h.flt]; rfl
  refine ⟨Dev.enterReset_mode was n, ?_, ?_, ?_, ?_, ?_, ?_⟩ <;> unfold Dev.enterReset <;> split
  · rfl
  · rfl
  · exact h.nvm
  · exact h.nvm
  · rfl
  · rfl
  · exact hp
  · exact hp
  · exact hc
  · exact hc
  · exact h.prior
  · exact h.prior

theorem ColdPulse.logEvent {k : ResetKind} {nv sr : ByteMem} (h : ColdPulse k nv sr d) (c a n : Nat) :
    ColdPulse k nv sr (d.logEvent c a n) :=
  ⟨h.mode, h.kind, h.nvm, h.sram, (Dev.logEvent_pends c a n d).1.trans h.noFold, (Dev.logEvent_pends c a n d).2.trans h.noCopy, h.prior⟩

theorem ColdPulse.markReset {k : ResetKind} {nv sr : ByteMem} (h : ColdPulse k nv sr d) (j : ResetKind) :
    ColdPulse k nv sr (d.markReset j) := by
  have hm := Dev.markReset_spec j d
  exact ⟨hm.mode.trans h.mode, hm.kind.trans h.kind, hm.nvm.trans h.nvm, hm.sram.trans h.sram, hm.foldPend.trans h.noFold,
    hm.dumpCopy.trans h.noCopy, hm.prior.trans h.prior⟩

theorem ColdPulse.of {k j : ResetKind} {nv sr sr' : ByteMem} (h : ColdPulse k nv sr d) (hk : k = j) (hs : sr = sr') :
    ColdPulse j nv sr' d := hk ▸ hs ▸ h

/-- Power-on reset keeps the array alone (R357). -/
theorem Dev.porReset_pulse (d : Dev) : ColdPulse .por d.nvm [] d.porReset := by
  obtain ⟨h, hs⟩ := ColdStart.coldBase .por d
  unfold Dev.porReset
  dsimp only
  generalize d.coldBase .por = x at h hs
  generalize hn : ({ x with resetKind := .por, boot := { x.boot with tally := [0] } } : Dev) = n
  have hstart : ColdStart d.nvm n := hn ▸ ⟨h.flt, h.nvm, h.prior⟩
  have hkind : n.resetKind = .por := hn ▸ rfl
  have hsram : n.sram = [] := hn ▸ hs
  exact (((hstart.enterReset d.mode).of hkind hsram).logEvent 2 0 1)

/-- DEV_RESET_CAUSE is not among what the array's controller keeps: it holds its value of power-on, POR alone with SEQ 0 (R357). -/
theorem Dev.coldBase_cause (k : ResetKind) (d : Dev) : (d.coldBase k).word rDEV_RESET_CAUSE = resetWord rDEV_RESET_CAUSE := by
  unfold Dev.coldBase
  dsimp only
  rw [keepFlds_word _ _ _ (by decide)]
  have hget : ∀ l : Store, Store.get (l.filter fun e => inNvmBlock e.1) rDEV_RESET_CAUSE (resetWord rDEV_RESET_CAUSE) =
      resetWord rDEV_RESET_CAUSE := by
    intro l
    induction l with
    | nil => rfl
    | cons e l ih =>
      by_cases he : inNvmBlock e.1 = true
      · rw [List.filter_cons_of_pos (by simpa using he)]
        have hne : e.1 ≠ rDEV_RESET_CAUSE := fun h => by
          rw [h] at he
          exact absurd he (by decide)
        rw [Store.get, if_neg hne]
        exact ih
      · rw [List.filter_cons_of_neg (by simpa using he)]
        exact ih
  unfold Dev.word
  dsimp only
  split
  · exact hget _
  · rfl

theorem Dev.porReset_cause (d : Dev) : d.porReset.word rDEV_RESET_CAUSE = resetWord rDEV_RESET_CAUSE := by
  have h := d.coldBase_cause .por
  unfold Dev.porReset
  dsimp only
  generalize d.coldBase .por = x at h
  unfold Dev.enterReset
  split <;> exact (Dev.word_setWord_of_ne _ _ _ _ (by decide)).trans h

theorem ColdStart.keepFlds {nv : ByteMem} {n : Dev} (h : ColdStart nv n) (fs : List Fld) (old : Dev) :
    ColdStart nv (Machine.keepFlds fs old n) ∧ (Machine.keepFlds fs old n).sram = n.sram := by
  obtain ⟨l, hl⟩ := keepFlds_live fs old n
  rw [hl]
  exact ⟨⟨h.flt, h.nvm, h.prior⟩, rfl⟩

/-- The kind of a reset through BOOT that is not of power-on. -/
def coldKind (soft : Bool) : ResetKind := if soft then .soft else .pin

/-- A PIN or SOFT reset keeps its part of SRAM; what it starts from holds no fold. -/
theorem Dev.coldReset_eq (soft : Bool) (d : Dev) : ∃ n was, ColdStart d.nvm n ∧ n.resetKind = coldKind soft ∧
    n.sram = (d.sram.filter fun c => sramKeeps soft c.1) ∧ d.coldReset soft = (n.enterReset was).markReset (coldKind soft) := by
  unfold Dev.coldReset
  dsimp only
  have hlow : Low d (d.rstJobs (if soft then 0x12 else 0x11)) := (Low.refl d).rstJobs _
  rw [← hlow.sram, ← hlow.nvm]
  generalize d.rstJobs (if soft then 0x12 else 0x11) = x
  obtain ⟨h, -⟩ := ColdStart.coldBase (coldKind soft) x
  generalize hb : x.coldBase (if soft then .soft else .pin) = b
  rw [show x.coldBase (coldKind soft) = b from hb] at h
  generalize hn : ({ b with
    live := (x.live.filter fun e => coldKeeps soft e.1).foldl (fun s e => Store.put s e.1 e.2 (resetWord e.1)) b.live
    shadow := x.shadow.filter fun e => decide (0x070000 ≤ e.1) && decide (e.1 < 0x070400)
    held := x.held
    sram := x.sram.filter fun c => sramKeeps soft c.1
    jobs := x.jobs.coldKeep
    boot := { b.boot with tally := x.boot.tally, strap := x.boot.strap, addrStrap := x.boot.addrStrap
                          pinLow := x.boot.pinLow } } : Dev) = n
  have hstart : ColdStart x.nvm n := by
    rw [← hn]
    exact ⟨h.flt, h.nvm, h.prior⟩
  have hsram : n.sram = x.sram.filter fun c => sramKeeps soft c.1 := by rw [← hn]
  obtain ⟨hk, hks⟩ := hstart.keepFlds [NVM_STAT_FAILS, NVM_STAT_LOCKOUT] x
  generalize keepFlds [NVM_STAT_FAILS, NVM_STAT_LOCKOUT] x n = y at hk hks
  cases soft
  all_goals
    refine ⟨_, _, ?_, ?_, ?_, rfl⟩
    · exact ⟨hk.flt, hk.nvm, hk.prior⟩
    · rfl
    · exact hks.trans hsram

theorem Dev.coldReset_pulse (soft : Bool) (d : Dev) :
    ColdPulse (coldKind soft) d.nvm (d.sram.filter fun c => sramKeeps soft c.1) (d.coldReset soft) ∧
      (d.coldReset soft).rd ⟨rDEV_RESET_CAUSE, (coldKind soft).rank, (coldKind soft).rank⟩ = 1 := by
  obtain ⟨n, was, hn, hk, hs, heq⟩ := d.coldReset_eq soft
  have hm := Dev.markReset_spec (coldKind soft) (n.enterReset was)
  rw [heq]
  exact ⟨((hn.enterReset was).of hk hs).markReset _, hm.cause⟩

theorem ByteMem.get_kept (m : ByteMem) (p : Nat → Bool) (z : Byte) (a : Nat) :
    ByteMem.get (m.filter fun c => p c.1) z a = if p a then ByteMem.get m z a else z := by
  by_cases hp : p a = true
  · rw [if_pos hp]
    exact ByteMem.get_filter m z a _ fun e he => by rw [he]; exact hp
  · rw [if_neg hp]
    refine ByteMem.get_eq_of_forall_ne _ z a fun e he h => hp ?_
    have := (List.mem_filter.mp he).2
    rwa [h] at this

/-! ### The pulse of a WARM or WDOG reset -/

/-- The engine, its jobs, the check-value units, the array's controller, the counters and the ports stop. -/
def Dev.halted (cause : Nat) (d : Dev) : Dev := forN 16 Dev.padUnusable (((((d.measHalt).rstJobs cause).chkReset).nvmReset).cntRestart).portsCut

theorem Low.halted (h : Low d0 d) (cause : Nat) : Low d0 (d.halted cause) :=
  ((((((h.measHalt).rstJobs cause).chkReset).nvmReset).cntRestart).portsCut).forN 16 _ fun k _ d => (Low.refl d).setPad k _

theorem MbxIdle.halted (h : MbxIdle d0 d) (cause : Nat) : MbxIdle d0 (d.halted cause) :=
  ((((((h.measHalt).rstJobs cause).chkReset).nvmReset).cntRestart).portsCut).forN 16 _ fun k d => (MbxIdle.refl d).setPad k _

/-- What the start of a WARM or WDOG pulse of kind `k` leaves of a device that the pulse finds at `w` (R346, R350, R357). -/
structure WarmPulse (k : ResetKind) (w e : Dev) : Prop where
  mode : e.mode = .reset
  kind : e.resetKind = k
  prior : e.priorMode = w.underMode
  nvm : e.nvm = w.nvm
  sram : e.sram = w.sram
  wdog : e.boot.wdog = false
  cause : e.rd ⟨rDEV_RESET_CAUSE, k.rank, k.rank⟩ = 1
  mbx : w.flag DEV_MBX_STAT_BUSY = true → MbxDone 0x10 [] e
  noCopy : e.flt.dumpCopy = none

theorem WarmPulse.fire {k : ResetKind} {w e : Dev} (h : WarmPulse k w e) (src detail : Nat) : WarmPulse k w (e.fire src detail) := by
  have hf : Still FiringReg e (e.fire src detail) := Still.fireAs ..
  have hmode : (e.fire src detail).mode = e.mode :=
    mode_congr (hf.word _ (not_firingReg (by decide) (by decide) (by decide) (by decide)))
  have hcause : ¬ FiringReg rDEV_RESET_CAUSE := not_firingReg (by decide) (by decide) (by decide) (by decide)
  refine ⟨hmode.trans h.mode, hf.resetKind.trans h.kind, hf.priorMode.trans h.prior, hf.nvm.trans h.nvm, hf.sram.trans h.sram, ?_,
    (hf.rd _ hcause).trans h.cause, fun hb => (h.mbx hb).kept ((MbxIdle.refl e).fire src detail), hf.dumpCopy.trans h.noCopy⟩
  rw [hf.boot]
  exact h.wdog

/-- A device enters the pulse of a reset of kind `k`, and its cause is recorded. -/
structure Entered (k : ResetKind) (d e : Dev) : Prop where
  mode : e.mode = .reset
  kind : e.resetKind = d.resetKind
  prior : e.priorMode = d.priorMode
  nvm : e.nvm = d.nvm
  sram : e.sram = d.sram
  wdog : e.boot.wdog = d.boot.wdog
  cause : e.rd ⟨rDEV_RESET_CAUSE, k.rank, k.rank⟩ = 1
  dumpCopy : e.flt.dumpCopy = d.flt.dumpCopy
  mbx : MbxIdle d e

theorem Dev.enterReset_entered (was : Mode) (d : Dev) : (d.enterReset was).resetKind = d.resetKind ∧
    (d.enterReset was).priorMode = d.priorMode ∧ (d.enterReset was).nvm = d.nvm ∧ (d.enterReset was).sram = d.sram ∧
    (d.enterReset was).boot = d.boot ∧ (d.enterReset was).flt.dumpCopy = d.flt.dumpCopy := by
  unfold Dev.enterReset
  split
  · exact ⟨rfl, rfl, rfl, rfl, rfl, rfl⟩
  · exact ⟨rfl, rfl, rfl, rfl, rfl, rfl⟩

theorem MbxIdle.enterReset (h : MbxIdle d0 d) (was : Mode) : MbxIdle d0 (d.enterReset was) := by
  unfold Dev.enterReset
  have hw : MbxIdle d0 (d.setMode .reset) := h.wr DEV_MODE_MODE _ (by decide)
  split
  · exact hw
  · exact hw.setFlt _

theorem Dev.markReset_live (k : ResetKind) (d : Dev) : (d.markReset k).live = (d.causeSet k).live := by
  have heq : ∃ n, d.markReset k = { (d.causeSet k).logEvent 2 k.rank n with
      boot := { (d.causeSet k).boot with tally := (d.causeSet k).boot.tally ++ [if k = .por then 0 else 1] } } := ⟨_, rfl⟩
  obtain ⟨n, heq⟩ := heq
  generalize d.causeSet k = x at *
  rw [heq]
  rfl

theorem MbxIdle.markReset (h : MbxIdle d0 d) (k : ResetKind) : MbxIdle d0 (d.markReset k) :=
  ((h.evt ⟨rDEV_RESET_CAUSE, k.rank, k.rank⟩ (Or.inl (show rDEV_RESET_CAUSE < 0x000120 by decide))).wr DEV_RESET_LAST k.rank (by decide)).trans
    (MbxIdle.of_live (d.markReset_live k))

theorem Dev.entered_spec (was : Mode) (k : ResetKind) (d : Dev) : Entered k d ((d.enterReset was).markReset k) := by
  have hm := Dev.markReset_spec k (d.enterReset was)
  have hidle : MbxIdle d ((d.enterReset was).markReset k) := ((MbxIdle.refl d).enterReset was).markReset k
  have hmode := d.enterReset_mode was
  obtain ⟨hkind, hprior, hnvm, hsram, hboot, hcopy⟩ := d.enterReset_entered was
  generalize d.enterReset was = x at hm hidle hmode hkind hprior hnvm hsram hboot hcopy
  generalize x.markReset k = u at hm hidle
  exact ⟨hm.mode.trans hmode, hm.kind.trans hkind, hm.prior.trans hprior, hm.nvm.trans hnvm, hm.sram.trans hsram,
    hm.wdog.trans (congrArg Boot.wdog hboot), hm.cause, hm.dumpCopy.trans hcopy, hidle⟩

theorem Dev.warmReset_pulse {k : ResetKind} (w : Dev) :
    WarmPulse k w (w.warmReset k) ∧ (w.flt.dumpCopy.isSome = true → (w.warmReset k).latched 49 = true) := by
  unfold Dev.warmReset
  dsimp only
  generalize hx : (if w.flag DEV_MBX_STAT_BUSY then w.mbxComplete 0x10 [] else w) = x
  have hlow : Low w x ∧ x.flt.dumpCopy = w.flt.dumpCopy ∧ (w.flag DEV_MBX_STAT_BUSY = true → MbxDone 0x10 [] x) := by
    rw [← hx]
    split
    · exact ⟨(Low.refl w).mbxComplete _ _, (Still.mbxComplete _ _ w).dumpCopy, fun _ => Dev.mbxComplete_done (by decide) [] w⟩
    · next hb => exact ⟨Low.refl w, rfl, fun h => absurd h hb⟩
  obtain ⟨hxl, hxc, hxm⟩ := hlow
  generalize hc : (if k = .warm then 0x13 else 0x14) = cause
  have hyl : Low w (x.halted cause) := hxl.halted cause
  have hym := fun h => (hxm h).kept ((MbxIdle.refl x).halted cause)
  rw [show Machine.forN 16 Dev.padUnusable (((x.measHalt).rstJobs cause).chkReset.nvmReset.cntRestart).portsCut = x.halted cause from rfl]
  generalize x.halted cause = y at hyl hym
  generalize hz : ({ y with
    perMaster := [], priorMode := y.underMode, resetKind := k, flt := { y.flt with dumpCopy := none }
    boot := { y.boot with wdog := false } } : Dev) = z
  have hzm : MbxIdle y z := MbxIdle.of_live (by rw [← hz])
  have hzp : z.priorMode = y.underMode ∧ z.resetKind = k ∧ z.flt.dumpCopy = none ∧ z.boot.wdog = false ∧ z.sram = y.sram ∧ z.nvm = y.nvm := by
    rw [← hz]
    exact ⟨rfl, rfl, rfl, rfl, rfl, rfl⟩
  obtain ⟨hp, hkind, hnone, hwd, hsr, hnv⟩ := hzp
  have hu := z.entered_spec z.mode k
  generalize (z.enterReset z.mode).markReset k = u at hu
  rw [hyl.underMode] at hp
  have hpulse : WarmPulse k w u :=
    ⟨hu.mode, hu.kind.trans hkind, hu.prior.trans hp, hu.nvm.trans (hnv.trans hyl.nvm), hu.sram.trans (hsr.trans hyl.sram),
      hu.wdog.trans hwd, hu.cause, fun h => (hym h).kept (hzm.trans hu.mbx), hu.dumpCopy.trans hnone⟩
  rw [hxc]
  split
  · exact ⟨hpulse.fire 49 0, fun _ => (Dev.fireAs_fired 49 0 none false false u (by decide)).latched⟩
  · next hcopy => exact ⟨hpulse, fun h => absurd h hcopy⟩

/-! ### The start of a pulse (R346) -/

theorem Dev.withdraw_nvm (d : Dev) : d.withdraw.nvm = d.nvm := by
  unfold Dev.withdraw
  split
  · split <;> rfl
  · rfl

/-- What the write of a register has noted is withdrawn with the pulse that gives way, or stands. -/
theorem Landed.withdraw {e : Dev} (h : Landed rDEV_RESET d e) : Landed rDEV_RESET d.withdraw e.withdraw := by
  obtain ⟨hw, l, o, rfl⟩ := h
  unfold Dev.withdraw
  dsimp only
  split
  · split
    · exact ⟨fun b _ => rfl, _, o, rfl⟩
    · exact ⟨hw, l, o, rfl⟩
  · exact ⟨hw, l, o, rfl⟩

theorem Dev.startReset_takes {k : ResetKind} (ht : k = .por ∨ d.resetTakes k = true)
    (hb : (k = .warm ∨ k = .wdog) → d.mode ≠ .boot) :
    d.startReset k = { d.withdraw.pulseStart k with undo := some d.withdraw.undoPoint } := by
  unfold Dev.startReset
  rw [if_neg]
  rintro ⟨hpor, hno | ⟨hback, hboot⟩⟩
  · rcases ht with ht | ht
    · exact hpor ht
    · exact hno ht
  · exact hb hback hboot

theorem Dev.startReset_boot {k : ResetKind} (hk : k = .warm ∨ k = .wdog) (hb : d.mode = .boot) : d.startReset k = d := by
  unfold Dev.startReset
  rw [if_pos]
  refine ⟨?_, Or.inr ⟨hk, hb⟩⟩
  rcases hk with rfl | rfl <;> simp

theorem Dev.resetTakes_of_ne (h : d.mode ≠ .reset) (k : ResetKind) : d.resetTakes k = true := by simp [Dev.resetTakes, h]

/-! ### DEV_RESET (R348) -/

theorem limitRw_devReset (v : Nat) : (limitRw rDEV_RESET v).2 = [] := by
  have hc : codesRw rDEV_RESET v = v := rfl
  have hw : limitWord rDEV_RESET v = (v, []) := by
    unfold limitWord
    rw [foldl_limits_of_none _ (by decide)]
    exact if_neg fun h => absurd h.1 (by decide)
  rw [limitRw, hc, hw, foldl_limits_of_none limitsRw (by decide)]

/-- An accepted write of DEV_RESET. -/
theorem Dev.write_reset {m w : Nat} (h : d.Grants m rDEV_RESET) (hw : w < 2 ^ 32) :
    ∃ e, Landed rDEV_RESET d e ∧ d.write m rDEV_RESET w = (e.resetWrite w).accessEdge := by
  obtain ⟨e, he, heq⟩ := Dev.write_landed h (r := (rowAt rDEV_RESET).get (by decide)) rfl (by decide) rfl limitRw_devReset hw
  exact ⟨e, he, heq⟩

theorem Landed.wr {e : Dev} {f : Fld} (h : Landed f.addr d e) (v : Nat) : Landed f.addr d (e.wr f v) := by
  obtain ⟨hw, l, o, rfl⟩ := h
  exact ⟨fun b hb => (Dev.word_setWord_of_ne _ _ _ _ hb).trans (hw b hb), _, o, rfl⟩

theorem Landed.underMode {e : Dev} (h : Landed rDEV_RESET d e) : e.underMode = d.underMode := by
  have hm := h.mode (by decide)
  obtain ⟨-, l, o, rfl⟩ := h
  exact underMode_congr hm rfl

theorem Landed.steady {e : Dev} (h : Landed rDEV_RESET d e) (hs : d.Steady) : e.Steady := by
  have hu := h.underMode
  obtain ⟨-, l, o, rfl⟩ := h
  exact ⟨⟨hs.noFold, hs.noCopy⟩, hu ▸ hs.notFold⟩

/-- The command bits of a write of DEV_RESET that asks for one reset (10 R266). -/
theorem resetBits {key : Nat} (hk : key < 0x10000) : (2 ^ 31 + key).testBit 31 = true ∧ (2 ^ 30 + key).testBit 31 = false ∧
    (2 ^ 30 + key).testBit 30 = true ∧ (2 ^ 31 + key) % 0x10000 = key ∧ (2 ^ 30 + key) % 0x10000 = key := by
  have bit : ∀ w k, Nat.testBit w k = decide (w / 2 ^ k % 2 = 1) := fun w k => Nat.testBit_eq_decide_div_mod_eq
  simp only [bit]
  exact ⟨decide_eq_true (by omega), decide_eq_false (by omega), decide_eq_true (by omega), by omega, by omega⟩

theorem Dev.resetWrite_soft (d : Dev) {key : Nat} (hk : key < 0x10000) : d.resetWrite (2 ^ 31 + key) =
    if key = 0xC3A5 then (d.wr DEV_RESET_KEY_ERR 0).startReset .soft else d.wr DEV_RESET_KEY_ERR 1 := by
  obtain ⟨h31, -, -, hkey, -⟩ := resetBits hk
  unfold Dev.resetWrite
  rw [h31, hkey]
  dsimp only
  split
  · exact if_pos rfl
  · exact if_pos rfl

theorem Dev.resetWrite_warm (d : Dev) {key : Nat} (hk : key < 0x10000) : d.resetWrite (2 ^ 30 + key) =
    if key = 0xC3A5 then (d.wr DEV_RESET_KEY_ERR 0).startReset .warm else d.wr DEV_RESET_KEY_ERR 1 := by
  obtain ⟨-, h31, h30, -, hkey⟩ := resetBits hk
  unfold Dev.resetWrite
  rw [h31, h30, hkey]
  dsimp only
  split
  · exact (if_neg Bool.false_ne_true).trans (if_pos rfl)
  · exact if_pos rfl

/-! ### A refused write leaves the dump that is being copied -/

theorem Dev.refuse_dumpCopy (d : Dev) (bit m a type : Nat) : (d.refuse bit m a type).flt.dumpCopy = d.flt.dumpCopy := by
  unfold Dev.refuse
  have herr : (d.hostErr bit m a).flt.dumpCopy = d.flt.dumpCopy := by
    unfold Dev.hostErr Dev.when
    dsimp only
    split <;> rfl
  exact ((Still.fireAs ..).dumpCopy.trans (congrArg Flt.dumpCopy (Dev.wr_flt _ _ _))).trans herr

/-! ### The clauses of O18 -/

/-- The device that a write of DEV_RESET with the right key finds, KEY_ERR clear. -/
theorem Landed.keyWrong {e : Dev} (h : Landed rDEV_RESET d e) :
    Landed rDEV_RESET d (e.wr DEV_RESET_KEY_ERR 1) ∧ (e.wr DEV_RESET_KEY_ERR 1).flag DEV_RESET_KEY_ERR = true :=
  ⟨Landed.wr (f := DEV_RESET_KEY_ERR) h 1, (Dev.flag_wr_self e _ 1 (by decide) rfl).trans (by decide)⟩

theorem Landed.keyRight {e : Dev} (h : Landed rDEV_RESET d e) : Landed rDEV_RESET d (e.wr DEV_RESET_KEY_ERR 0) := Landed.wr (f := DEV_RESET_KEY_ERR) h 0

theorem ColdPulse.begun {k : ResetKind} {nv sr : ByteMem} (h : ColdPulse k nv sr d) (u : Option Undo) (c : Clock) :
    ColdPulse k nv sr { d with undo := u, clk := c } :=
  ⟨h.mode, h.kind, h.nvm, h.sram, h.noFold, h.noCopy, h.prior⟩

/-- The parts of a PIN or SOFT pulse that stand when the edge is over, with the bit of its cause. -/
theorem ColdPulse.left {soft : Bool} {nv sr : ByteMem} {t : Dev} (hp : ColdPulse (coldKind soft) nv (sr.filter fun c => sramKeeps soft c.1) d)
    (hc : d.rd ⟨rDEV_RESET_CAUSE, (coldKind soft).rank, (coldKind soft).rank⟩ = 1) (ht : Stays d t) :
    t.mode = .reset ∧ t.resetKind = coldKind soft ∧ t.nvm = nv ∧
      t.rd ⟨rDEV_RESET_CAUSE, (coldKind soft).rank, (coldKind soft).rank⟩ = 1 ∧
      ∀ a, ByteMem.get t.sram 0 a = if sramKeeps soft a then ByteMem.get sr 0 a else 0 := by
  obtain ⟨hm, hk, hn, hs⟩ := hp.stays ht
  refine ⟨hm, hk, hn, ?_, fun a => ?_⟩
  · exact (ht.toKeeps.rd _ (not_steadyReg (show rDEV_RESET_CAUSE ≠ _ by decide) (show rDEV_RESET_CAUSE ≠ _ by decide)
      (show rDEV_RESET_CAUSE ≠ _ by decide) (show rDEV_RESET_CAUSE ≠ _ by decide))).trans hc
  · rw [hs]
    exact ByteMem.get_kept sr (sramKeeps soft) 0 a

theorem porAssert_completes (s : State) (dt : Nat) : Completes (.porAssert dt) s fun t => t.mode = .reset ∧ t.resetKind = .por ∧
    t.nvm = s.dev.nvm ∧ t.sram = [] ∧ t.rd ⟨rDEV_RESET_CAUSE, 23, 0⟩ = 1 ∧ t.rd DEV_RESET_CAUSE_SEQ = 0 := by
  have heq := Dev.startReset_takes (d := s.dev.advance dt) (k := .por) (Or.inl rfl) (by rintro (h | h) <;> cases h)
  have hnvm : (s.dev.advance dt).withdraw.nvm = s.dev.nvm := Dev.withdraw_nvm _
  have hp := (s.dev.advance dt).withdraw.porReset_pulse
  have hc := (s.dev.advance dt).withdraw.porReset_cause
  rw [hnvm] at hp
  generalize hx : (s.dev.advance dt).withdraw.undoPoint = u at heq
  rw [show (s.dev.advance dt).withdraw.pulseStart .por = (s.dev.advance dt).withdraw.porReset from rfl] at heq
  generalize (s.dev.advance dt).withdraw.porReset = x at heq hp hc
  have hp' : ColdPulse .por s.dev.nvm [] { x with undo := some u } :=
    ⟨hp.mode, hp.kind, hp.nvm, hp.sram, hp.noFold, hp.noCopy, hp.prior⟩
  refine Completes.of_steady (f := Dev.startReset .por) rfl (heq ▸ hp'.steady) fun t ht => ?_
  rw [heq] at ht
  obtain ⟨hm, hk, hn, hs⟩ := hp'.stays ht
  have hw : t.word rDEV_RESET_CAUSE = resetWord rDEV_RESET_CAUSE :=
    (ht.word _ (not_steadyReg (by decide) (by decide) (by decide) (by decide))).trans hc
  refine ⟨hm, hk, hn, hs, ?_, ?_⟩
  · unfold Dev.rd
    rw [show (⟨rDEV_RESET_CAUSE, 23, 0⟩ : Fld).addr = rDEV_RESET_CAUSE from rfl, hw]
    decide
  · unfold Dev.rd
    rw [show DEV_RESET_CAUSE_SEQ.addr = rDEV_RESET_CAUSE from rfl, hw]
    decide

theorem pinReset_completes {s : State} (dt : Nat) {w : Dev} (hw : w = (s.dev.advance dt).withdraw) (h : s.dev.resetTakes .pin = true) :
    Completes (.pinReset dt) s fun t => t.mode = .reset ∧ t.resetKind = .pin ∧ t.nvm = s.dev.nvm ∧ t.rd ⟨rDEV_RESET_CAUSE, 1, 1⟩ = 1 ∧
      ∀ a, ByteMem.get t.sram 0 a = if sramKeeps false a then ByteMem.get w.sram 0 a else 0 := by
  have heq := Dev.startReset_takes (d := s.dev.advance dt) (k := .pin) (Or.inr h) (by rintro (h | h) <;> cases h)
  have hnvm : w.nvm = s.dev.nvm := hw ▸ Dev.withdraw_nvm _
  rw [← hw, show w.pulseStart .pin = w.coldReset false from rfl] at heq
  obtain ⟨hp, hc⟩ := w.coldReset_pulse false
  generalize w.coldReset false = x at heq hp hc
  have hp' := hp.begun (some w.undoPoint) x.clk
  refine Completes.of_steady (f := Dev.startReset .pin) rfl (heq ▸ hp'.steady) fun t ht => ?_
  rw [heq] at ht
  obtain ⟨hm, hk, hn, hc, hs⟩ := hp'.left hc ht
  exact ⟨hm, hk, hn.trans hnvm, hc, hs⟩

section Writes

variable {s : State} {dt m : Nat} {w : Dev}

/-- A write of DEV_RESET with the right key begins the reset of its bit. -/
theorem Dev.write_resetBegins (hg : d.Grants m rDEV_RESET) {b : Nat} {k : ResetKind} (hb : (b = 31 ∧ k = .soft) ∨ (b = 30 ∧ k = .warm)) :
    ∃ e, Landed rDEV_RESET d e ∧ d.write m rDEV_RESET (2 ^ b + 0xC3A5 % 0x10000) = (e.startReset k).accessEdge := by
  obtain ⟨rfl, rfl⟩ | ⟨rfl, rfl⟩ := hb
  · obtain ⟨e, he, heq⟩ := Dev.write_reset hg (w := 2 ^ 31 + 0xC3A5 % 0x10000) (by decide)
    exact ⟨_, he.keyRight, by rw [heq, Dev.resetWrite_soft e (by decide), if_pos (by decide)]⟩
  · obtain ⟨e, he, heq⟩ := Dev.write_reset hg (w := 2 ^ 30 + 0xC3A5 % 0x10000) (by decide)
    exact ⟨_, he.keyRight, by rw [heq, Dev.resetWrite_warm e (by decide), if_pos (by decide)]⟩

theorem soft_completes (hw : w = (s.dev.advance dt).withdraw) (hg : s.dev.Grants m rDEV_RESET) :
    Completes (.soft dt m 0xC3A5) s fun t => t.mode = .reset ∧ t.resetKind = .soft ∧ t.nvm = s.dev.nvm ∧
      t.rd ⟨rDEV_RESET_CAUSE, 2, 2⟩ = 1 ∧ ∀ a, ByteMem.get t.sram 0 a = if sramKeeps true a then ByteMem.get w.sram 0 a else 0 := by
  obtain ⟨e, he, hwr⟩ := Dev.write_resetBegins (hg.advance dt) (Or.inl ⟨rfl, rfl⟩)
  have hmode : e.mode ≠ .reset := by
    rw [he.mode (by decide)]
    exact hg.1
  rw [Dev.startReset_takes (Or.inr (Dev.resetTakes_of_ne hmode .soft)) (by rintro (h | h) <;> cases h)] at hwr
  obtain ⟨-, l, o, hx⟩ := he.withdraw
  rw [← hw] at hx
  have hnvm : e.withdraw.nvm = s.dev.nvm := by
    rw [hx, hw]
    exact Dev.withdraw_nvm _
  have hsram : e.withdraw.sram = w.sram := by rw [hx]
  rw [show e.withdraw.pulseStart .soft = e.withdraw.coldReset true from rfl] at hwr
  obtain ⟨hp, hc⟩ := e.withdraw.coldReset_pulse true
  rw [hsram] at hp
  generalize e.withdraw.coldReset true = x at hwr hp hc
  have hp' := hp.begun (some e.withdraw.undoPoint) { x.clk with closed := true, accessed := true }
  have hwr : (s.dev.advance dt).write m rDEV_RESET (2 ^ 31 + 0xC3A5 % 0x10000) = _ := hwr
  refine Completes.of_steady (f := Dev.write m rDEV_RESET (2 ^ 31 + 0xC3A5 % 0x10000)) rfl (hwr ▸ hp'.steady) fun t ht => ?_
  rw [hwr] at ht
  obtain ⟨hm, hk, hn, hc, hs⟩ := hp'.left hc ht
  exact ⟨hm, hk, hn.trans hnvm, hc, hs⟩

theorem warm_effects (hw : w = (s.dev.advance dt).withdraw) (hg : s.dev.Grants m rDEV_RESET) (hb : s.dev.mode ≠ .boot) :
    Effects (.warm dt m 0xC3A5) s fun e =>
        e.mode = .reset ∧ e.resetKind = .warm ∧ e.priorMode = w.underMode ∧ e.nvm = s.dev.nvm ∧ e.sram = w.sram ∧
        e.rd ⟨rDEV_RESET_CAUSE, 3, 3⟩ = 1 ∧
        (w.flag DEV_MBX_STAT_BUSY = true → e.flag DEV_MBX_STAT_BUSY = false ∧ e.flag DEV_MBX_STAT_DONE = true ∧
          e.rd DEV_MBX_STAT_CODE = 0x10) ∧
        (w.flt.dumpCopy.isSome = true → e.latched 49 = true ∧ e.flt.dumpCopy = none) := by
  obtain ⟨e, he, hwr⟩ := Dev.write_resetBegins (hg.advance dt) (Or.inr ⟨rfl, rfl⟩)
  have hmode : e.mode = s.dev.mode := he.mode (by decide)
  rw [Dev.startReset_takes (Or.inr (Dev.resetTakes_of_ne (by rw [hmode]; exact hg.1) .warm)) (fun _ => by rw [hmode]; exact hb)] at hwr
  have hland := he.withdraw
  rw [← hw] at hland
  have hunder := hland.underMode
  have hbusy : e.withdraw.flag DEV_MBX_STAT_BUSY = w.flag DEV_MBX_STAT_BUSY := Dev.flag_of_rd (Dev.rd_of_word (hland.word _ (by decide)))
  obtain ⟨-, l, o, hx⟩ := hland
  have hnvm : e.withdraw.nvm = s.dev.nvm := by
    rw [hx, hw]
    exact Dev.withdraw_nvm _
  have hsram : e.withdraw.sram = w.sram := by rw [hx]
  have hcopy : e.withdraw.flt = w.flt := by rw [hx]
  refine Effects.of_run (f := Dev.write m rDEV_RESET (2 ^ 30 + 0xC3A5 % 0x10000)) rfl ?_
  obtain ⟨hp, h49⟩ := Dev.warmReset_pulse (k := .warm) e.withdraw
  rw [hwr, show e.withdraw.pulseStart .warm = e.withdraw.warmReset .warm from rfl]
  rw [hcopy] at h49
  generalize e.withdraw.warmReset .warm = y at hp h49
  refine ⟨hp.mode, hp.kind, hp.prior.trans hunder, hp.nvm.trans hnvm, hp.sram.trans hsram, hp.cause, fun h => ?_, fun h => ⟨h49 h, hp.noCopy⟩⟩
  obtain ⟨hidle, hdone, hcode, -⟩ := hp.mbx (hbusy.trans h)
  exact ⟨hidle, hdone, hcode⟩

theorem warm_boot (hg : s.dev.Grants m rDEV_RESET) (hb : s.dev.mode = .boot) (hs : s.dev.Steady) :
    Completes (.warm dt m 0xC3A5) s fun t => t.mode = .boot ∧ t.flag DEV_RESET_KEY_ERR = false := by
  obtain ⟨e, he, hwr⟩ := Dev.write_reset (hg.advance dt) (w := 2 ^ 30 + 0xC3A5 % 0x10000) (by decide)
  have hx := he.keyRight
  have hm : (e.wr DEV_RESET_KEY_ERR 0).mode = .boot := (hx.mode (by decide)).trans hb
  have hf : (e.wr DEV_RESET_KEY_ERR 0).flag DEV_RESET_KEY_ERR = false := (Dev.flag_wr_self e _ 0 (by decide) rfl).trans (by decide)
  have hst := hx.steady (hs.advance dt)
  rw [Dev.resetWrite_warm e (by decide), if_pos (by decide), Dev.startReset_boot (Or.inl rfl) hm] at hwr
  generalize e.wr DEV_RESET_KEY_ERR 0 = x at hm hf hst hwr
  have hst' : x.accessEdge.Steady := ⟨⟨hst.noFold, hst.noCopy⟩, hst.notFold⟩
  refine Completes.of_steady (f := Dev.write m rDEV_RESET (2 ^ 30 + 0xC3A5 % 0x10000)) rfl (hwr ▸ hst') fun t ht => ?_
  rw [hwr] at ht
  have hreg : ∀ a, a = rDEV_MODE ∨ a = rDEV_RESET → ¬ SteadyReg a := fun a ha =>
    not_steadyReg (by rcases ha with rfl | rfl <;> decide) (by rcases ha with rfl | rfl <;> decide)
      (by rcases ha with rfl | rfl <;> decide) (by rcases ha with rfl | rfl <;> decide)
  exact ⟨(mode_congr (ht.word _ (hreg _ (Or.inl rfl)))).trans hm, (ht.toKeeps.flag _ (hreg _ (Or.inr rfl))).trans hf⟩

/-- A write of DEV_RESET with a wrong key only sets KEY_ERR (R348). -/
theorem Dev.write_keyWrong {b key : Nat} (hb : b = 31 ∨ b = 30) (hkey : key < 0x10000) (hne : key ≠ 0xC3A5)
    (hg : d.Grants m rDEV_RESET) : ∃ e, Landed rDEV_RESET d e ∧ d.write m rDEV_RESET (2 ^ b + key) = (e.wr DEV_RESET_KEY_ERR 1).accessEdge := by
  obtain rfl | rfl := hb
  · obtain ⟨e, he, hwr⟩ := Dev.write_reset hg (w := 2 ^ 31 + key) (by omega)
    exact ⟨e, he, by rw [hwr, Dev.resetWrite_soft e hkey, if_neg hne]⟩
  · obtain ⟨e, he, hwr⟩ := Dev.write_reset hg (w := 2 ^ 30 + key) (by omega)
    exact ⟨e, he, by rw [hwr, Dev.resetWrite_warm e hkey, if_neg hne]⟩

theorem keyErr_left {i : Instr} {f : Dev → Dev} {x : Dev} (hm : x.mode = (s.dev.advance dt).mode)
    (hf : x.flag DEV_RESET_KEY_ERR = true) (hst : x.Steady) (hrun : exec i s = run dt f s) (hwr : f (s.dev.advance dt) = x.accessEdge) :
    Completes i s fun t => t.mode = s.dev.mode ∧ t.flag DEV_RESET_KEY_ERR = true := by
  have hst' : x.accessEdge.Steady := ⟨⟨hst.noFold, hst.noCopy⟩, hst.notFold⟩
  refine Completes.of_steady hrun (hwr ▸ hst') fun t ht => ?_
  rw [hwr] at ht
  have hreg : ∀ a, a = rDEV_MODE ∨ a = rDEV_RESET → ¬ SteadyReg a := fun a ha =>
    not_steadyReg (by rcases ha with rfl | rfl <;> decide) (by rcases ha with rfl | rfl <;> decide)
      (by rcases ha with rfl | rfl <;> decide) (by rcases ha with rfl | rfl <;> decide)
  have hmt : t.mode = x.mode := mode_congr (ht.word _ (hreg _ (Or.inl rfl)))
  exact ⟨hmt.trans hm, (ht.toKeeps.flag _ (hreg _ (Or.inr rfl))).trans hf⟩

/-- What a write of DEV_RESET with a wrong key leaves, when its edge is over. -/
theorem wrongKey_left {i : Instr} {b key : Nat} (hb : b = 31 ∨ b = 30) (hkey : key < 0x10000) (hne : key ≠ 0xC3A5)
    (hg : s.dev.Grants m rDEV_RESET) (hs : s.dev.Steady)
    (hrun : exec i s = run dt (Dev.write m rDEV_RESET (2 ^ b + key)) s) :
    Completes i s fun t => t.mode = s.dev.mode ∧ t.flag DEV_RESET_KEY_ERR = true := by
  obtain ⟨e, he, hwr⟩ := Dev.write_keyWrong hb hkey hne (hg.advance dt)
  obtain ⟨hx, hf⟩ := he.keyWrong
  exact keyErr_left (hx.mode (by decide)) hf (hx.steady (hs.advance dt)) hrun hwr

theorem wrongKey_completes {key : Nat} (hkey : key < 0x10000) (hne : key ≠ 0xC3A5) (hg : s.dev.Grants m rDEV_RESET) (hs : s.dev.Steady) :
    Completes (.soft dt m key) s (fun t => t.mode = s.dev.mode ∧ t.flag DEV_RESET_KEY_ERR = true) ∧
      Completes (.warm dt m key) s (fun t => t.mode = s.dev.mode ∧ t.flag DEV_RESET_KEY_ERR = true) := by
  have hmod := Nat.mod_eq_of_lt hkey
  have hsoft : exec (.soft dt m key) s = run dt (Dev.write m rDEV_RESET (2 ^ 31 + key % 0x10000)) s := rfl
  have hwarm : exec (.warm dt m key) s = run dt (Dev.write m rDEV_RESET (2 ^ 30 + key % 0x10000)) s := rfl
  rw [hmod] at hsoft hwarm
  exact ⟨wrongKey_left (Or.inl rfl) hkey hne hg hs hsoft, wrongKey_left (Or.inr rfl) hkey hne hg hs hwarm⟩

/-- In BOOT a host's write of DEV_RESET is refused (10 R265, R266). -/
theorem warm_refused (key : Nat) (hm : m < 7) (hb : s.dev.mode = .boot) (hs : s.dev.Steady) :
    Completes (.warm dt m key) s fun t => t.mode = .boot ∧ t.flag HOST_ERR_BOOT = true ∧
      t.word rDEV_RESET_CAUSE = s.dev.word rDEV_RESET_CAUSE := by
  have hbd : (s.dev.advance dt).mode = .boot := hb
  have href : (s.dev.advance dt).writeRefusal m rDEV_RESET = some 6 := by
    unfold Dev.writeRefusal
    rw [if_neg (by decide), if_neg (by decide), if_pos (by simp [Dev.bootRefuses, hbd]; omega)]
  have hwr : (s.dev.advance dt).write m rDEV_RESET (2 ^ 30 + key % 0x10000) = _ :=
    Dev.write_refused (by rw [hbd]; decide) href
  obtain ⟨hflag, -, -, honly⟩ := Dev.refuse_spec (s.dev.advance dt) (bit := 6) (by decide) m rDEV_RESET (accType m true)
  have hcopy := Dev.refuse_dumpCopy (s.dev.advance dt) 6 m rDEV_RESET (accType m true)
  have hout : ∀ a, a = rDEV_MODE ∨ a = rDEV_RESET_CAUSE → ¬ (a = rHOST_ERR ∨ a = rHOST_ERR_CAP ∨ a = rHOST_REFUSED_CNT ∨ firingAt a) := by
    rintro a (rfl | rfl) <;> unfold firingAt <;> decide
  refine Completes.of_finish (f := Dev.write m rDEV_RESET (2 ^ 30 + key % 0x10000)) rfl ?_
  rw [hwr]
  generalize (s.dev.advance dt).refuse 6 m rDEV_RESET (accType m true) = x at hflag honly hcopy
  have hm : x.mode = .boot := (mode_congr (honly.word _ (hout _ (Or.inl rfl)))).trans hbd
  obtain ⟨p, ht⟩ := Dev.finish_of_boot (d := x.accessEdge) ((Dev.underMode_of_ne (by rw [show x.accessEdge.mode = x.mode from rfl, hm]; decide)).trans hm)
    (hcopy.trans hs.noCopy)
  have hreg : ∀ a, a = rDEV_MODE ∨ a = rHOST_ERR ∨ a = rDEV_RESET_CAUSE → ¬ SteadyReg a := by
    rintro a (rfl | rfl | rfl) <;> exact not_steadyReg (by decide) (by decide) (by decide) (by decide)
  refine ⟨(mode_congr (ht.word _ (hreg _ (Or.inl rfl)))).trans hm, (ht.toKeeps.flag _ (hreg _ (Or.inr (Or.inl rfl)))).trans hflag, ?_⟩
  exact (ht.word _ (hreg _ (Or.inr (Or.inr rfl)))).trans (honly.word _ (hout _ (Or.inr rfl)))

end Writes

section Watchdog

variable {s : State} {dt : Nat} {w : Dev}

theorem Dev.wdogStart_on (h : d.boot.wdog = true) : d.wdogStart = d.startReset .wdog := by
  unfold Dev.wdogStart
  rw [if_pos h]

theorem wdog_effects (hw : w = (s.dev.advance dt).withdraw) (hd : s.dev.boot.wdog = true) (hb : s.dev.mode ≠ .boot) (hr : s.dev.mode ≠ .reset) :
    Effects (.wdogResetStart dt) s fun e => e.mode = .reset ∧ e.resetKind = .wdog ∧ e.priorMode = w.underMode ∧ e.boot.wdog = false ∧
      e.rd ⟨rDEV_RESET_CAUSE, 4, 4⟩ = 1 ∧ e.nvm = s.dev.nvm ∧ e.sram = w.sram := by
  have heq := Dev.startReset_takes (d := s.dev.advance dt) (k := .wdog) (Or.inr (Dev.resetTakes_of_ne hr .wdog)) (fun _ => hb)
  have hnvm : w.nvm = s.dev.nvm := hw ▸ Dev.withdraw_nvm _
  rw [← hw, show w.pulseStart .wdog = w.warmReset .wdog from rfl] at heq
  obtain ⟨hp, -⟩ := Dev.warmReset_pulse (k := .wdog) w
  refine Effects.of_run (f := Dev.wdogStart) rfl ?_
  rw [Dev.wdogStart_on (d := s.dev.advance dt) hd, heq]
  generalize w.warmReset .wdog = y at hp
  exact ⟨hp.mode, hp.kind, hp.prior, hp.wdog, hp.cause, hp.nvm.trans hnvm, hp.sram⟩

theorem wdog_boot (hb : s.dev.mode = .boot) : Effects (.wdogResetStart dt) s fun e => e = s.dev.advance dt := by
  refine Effects.of_run (f := Dev.wdogStart) rfl ?_
  unfold Dev.wdogStart
  split
  · exact Dev.startReset_boot (d := s.dev.advance dt) (Or.inr rfl) hb
  · rfl

end Watchdog

/-- Settles O18: the pulse of each kind from the parts that it starts from; a pulse through BOOT starts from the registers of power-on
with what R357 keeps, a WARM or WDOG pulse stops what runs and keeps both memories. -/
theorem resetsBegin : Obligations.ResetsBegin := by
  unfold Obligations.ResetsBegin
  intro s dt w hw
  refine ⟨porAssert_completes s dt, fun h => pinReset_completes dt hw h, fun m hg => ⟨soft_completes hw hg, fun hb => warm_effects hw hg hb,
    fun hb hs => warm_boot hg hb hs, fun key hkey hne hs => wrongKey_completes hkey hne hg hs⟩, fun hd hb hr => wdog_effects hw hd hb hr,
    fun hb => wdog_boot hb, fun m key hm hb hs => warm_refused key hm hb hs⟩

end Sys2Proof.Machine
end

section
/-!
PROOF. A service ends by ABORT, completion or timeout (10 R277 to R279; O29).
-/

namespace Sys2Proof.Machine

variable {d d0 : Dev}

/-! ### DEV_MBX_CMD.ABORT (10 R279) -/

theorem limitRw_mbxCmd (v : Nat) : (limitRw rDEV_MBX_CMD v).2 = [] := by
  have hc : codesRw rDEV_MBX_CMD v = v := rfl
  have hw : limitWord rDEV_MBX_CMD v = (v, []) := by
    unfold limitWord
    rw [foldl_limits_of_none _ (by decide)]
    exact if_neg fun h => absurd h.1 (by decide)
  rw [limitRw, hc, hw, foldl_limits_of_none limitsRw (by decide)]

/-- An accepted write of DEV_MBX_CMD with ABORT alone. -/
theorem Dev.write_mbxAbort {m : Nat} (h : d.Grants m rDEV_MBX_CMD) :
    ∃ e, Landed rDEV_MBX_CMD d e ∧ d.write m rDEV_MBX_CMD (2 ^ 30) = e.mbxAbort.accessEdge := by
  obtain ⟨e, he, heq⟩ := Dev.write_landed h (r := (rowAt rDEV_MBX_CMD).get (by decide)) (w := 2 ^ 30) rfl (by decide) rfl limitRw_mbxCmd
    (by decide)
  refine ⟨e, he, heq.trans (congrArg Dev.accessEdge ?_)⟩
  have hcmd : e.command m rDEV_MBX_CMD (2 ^ 30) = e.mbxCmd m (2 ^ 30) := rfl
  have h30 : (2 ^ 30).testBit 30 = true := by decide
  have h31 : (2 ^ 30).testBit 31 = false := by decide
  rw [hcmd, Dev.mbxCmd, h30, h31]
  rfl

theorem MbxIdle.stopCopy (h : MbxIdle d0 d) : MbxIdle d0 d.stopCopy := by
  unfold Dev.stopCopy
  exact (h.setNvmc _).when _ _ fun x => (MbxIdle.refl x).wr NVM_STAT_WAIT_POWER 0 (by decide)

theorem Dev.dumpAbort_done (d : Dev) : MbxDone 0x11 [] d.dumpAbort := by
  have hc := Dev.mbxComplete_done (code := 0x11) (by decide) [] d
  unfold Dev.dumpAbort
  dsimp only
  generalize d.mbxComplete 0x11 [] = x at hc
  exact hc.kept (((MbxIdle.refl x).when _ _ fun y => ((MbxIdle.refl y).setFlt _).wr FLT_STAT_DUMP_BUSY 0 (by decide)).stopCopy)

theorem Dev.mbxAbort_done (hb : d.flag DEV_MBX_STAT_BUSY = true) (hs : d.rd DEV_MBX_STAT_SERVICE ∈ [1, 3, 6]) :
    MbxDone 0x11 [] d.mbxAbort := by
  simp only [List.mem_cons, List.not_mem_nil, or_false] at hs
  unfold Dev.mbxAbort
  dsimp only
  by_cases h3 : d.rd DEV_MBX_STAT_SERVICE = 3
  · rw [if_neg (by omega), if_pos ⟨hb, h3⟩]
    exact d.dumpAbort_done
  · rw [if_pos ⟨hb, by tauto⟩]
    exact Dev.mbxComplete_done (by decide) [] d

theorem Dev.mbxAbort_reject (h : d.flag DEV_MBX_STAT_BUSY = false ∨ d.rd DEV_MBX_STAT_SERVICE ∉ [1, 3, 6]) :
    d.mbxAbort = d.evt DEV_MBX_EVT_REJECT := by
  simp only [List.mem_cons, List.not_mem_nil, or_false, not_or] at h
  unfold Dev.mbxAbort
  dsimp only
  rw [if_neg fun hc => ?_, if_neg fun hc => ?_]
  · rcases h with h | h
    · rw [h] at hc
      exact absurd hc.1 (by decide)
    · exact h.2.1 hc.2
  · rcases h with h | h
    · rw [h] at hc
      exact absurd hc.1 (by decide)
    · rcases hc.2 with hc | hc
      · exact h.1 hc
      · exact h.2.2 hc

/-! ### Completion and timeout (10 R277, R278) -/

theorem Dev.mbxServiceDone_out {o : MbxOut} (found : MbxData) (hb : d.flag DEV_MBX_STAT_BUSY = true) (ho : d.mbx.out = some o)
    (hc : o.code ≠ 0x0D) : d.mbxServiceDone found = d.mbxComplete o.code o.res := by
  unfold Dev.mbxServiceDone
  rw [if_neg (by simp [hb]), ho]
  dsimp only
  rw [if_neg hc]

theorem Dev.mbxServiceDone_own (found : MbxData) (hb : d.flag DEV_MBX_STAT_BUSY = true) (ho : d.mbx.out = none) :
    (d.rd DEV_MBX_STAT_SERVICE = 0 → d.mbxServiceDone found = d.mbxComplete 0 [1, b2n d.boot.patchRuns]) ∧
      (d.rd DEV_MBX_STAT_SERVICE = 2 → d.mbxServiceDone found = d.learnDone found) ∧
      (d.rd DEV_MBX_STAT_SERVICE = 6 → d.mbxServiceDone found = d.selftestDone found.failed) := by
  have heq : d.mbxServiceDone found = match d.rd DEV_MBX_STAT_SERVICE with
      | 0 => d.mbxComplete 0 [1, b2n d.boot.patchRuns]
      | 2 => d.learnDone found
      | 6 => d.selftestDone found.failed
      | _ => d := by
    unfold Dev.mbxServiceDone
    rw [if_neg (by simp [hb]), ho] <;> rfl
  exact ⟨fun h => by rw [heq, h]; rfl, fun h => by rw [heq, h]; rfl, fun h => by rw [heq, h]; rfl⟩

theorem Dev.learnDone_done (found : MbxData) (d : Dev) : ∃ res, MbxDone 0 res (d.learnDone found) :=
  ⟨_, Dev.mbxComplete_done (by decide) _ _⟩

/-- A service that ends with a source that fires. -/
theorem Dev.mbxComplete_fire {code src : Nat} (hc : code < 256) (hs : src < 64) (res : List Nat) (detail : Nat) (d : Dev) :
    MbxDone code res ((d.mbxComplete code res).fire src detail) ∧ Fired src d ((d.mbxComplete code res).fire src detail) := by
  have hm := Dev.mbxComplete_done hc res d
  have hseq : (d.mbxComplete code res).rd FLT_SEQNO_COUNT = d.rd FLT_SEQNO_COUNT :=
    (Still.mbxComplete code res d).rd _ (not_reactReg (by decide) (by decide) (by decide) (by decide) (by decide))
  generalize d.mbxComplete code res = x at hm hseq
  exact ⟨hm.kept ((MbxIdle.refl x).fire src detail), (Dev.fireAs_fired src detail none false false x hs).of_rd hseq⟩

/-- A service that has timed out (R278). -/
theorem Dev.mbxTimeout_done (hb : d.flag DEV_MBX_STAT_BUSY = true) : d.mbxTimeout.flag DEV_MBX_STAT_BUSY = false ∧
    d.mbxTimeout.rd DEV_MBX_STAT_CODE = 7 ∧ d.mbxTimeout.flag DEV_MBX_EVT_TIMEOUT = true ∧ Fired 17 d d.mbxTimeout := by
  have heq : d.mbxTimeout = ((d.mbxComplete 7 []).evt DEV_MBX_EVT_TIMEOUT).fire 17 (d.rd DEV_MBX_STAT_SERVICE) := by
    unfold Dev.mbxTimeout
    rw [if_neg (by simp [hb])]
  have hm := Dev.mbxComplete_done (code := 7) (by decide) [] d
  have hseq : (d.mbxComplete 7 []).rd FLT_SEQNO_COUNT = d.rd FLT_SEQNO_COUNT :=
    (Still.mbxComplete 7 [] d).rd _ (not_reactReg (by decide) (by decide) (by decide) (by decide) (by decide))
  rw [heq]
  generalize d.mbxComplete 7 [] = x at hm hseq
  have hrd : ∀ f : Fld, f.addr ≠ rDEV_MBX_EVT → (x.evt DEV_MBX_EVT_TIMEOUT).rd f = x.rd f := fun f h => Dev.rd_evt_of_ne x _ f h
  have hidle : (x.evt DEV_MBX_EVT_TIMEOUT).flag DEV_MBX_STAT_BUSY = false := (Dev.flag_of_rd (hrd _ (by decide))).trans hm.idle
  have hcode : (x.evt DEV_MBX_EVT_TIMEOUT).rd DEV_MBX_STAT_CODE = 7 := (hrd _ (by decide)).trans hm.code
  have hevt : (x.evt DEV_MBX_EVT_TIMEOUT).flag DEV_MBX_EVT_TIMEOUT = true := Dev.flag_evt_self x _ rfl (by decide)
  have hseq' : (x.evt DEV_MBX_EVT_TIMEOUT).rd FLT_SEQNO_COUNT = d.rd FLT_SEQNO_COUNT := (hrd _ (by decide)).trans hseq
  generalize x.evt DEV_MBX_EVT_TIMEOUT = y at hidle hcode hevt hseq'
  have hk := (MbxIdle.refl y).fire 17 (d.rd DEV_MBX_STAT_SERVICE) hidle
  have hkept : ∀ f : Fld, 0x000120 ≤ f.addr → f.addr < 0x000138 → (y.fire 17 (d.rd DEV_MBX_STAT_SERVICE)).rd f = y.rd f :=
    fun f h1 h2 => Dev.rd_of_word (hk _ h1 h2)
  exact ⟨(Dev.flag_of_rd (hkept _ (by decide) (by decide))).trans hidle, (hkept _ (by decide) (by decide)).trans hcode,
    (Dev.flag_of_rd (hkept _ (by decide) (by decide))).trans hevt, (Dev.fireAs_fired 17 _ none false false y (by decide)).of_rd hseq'⟩

/-! ### The clauses of O29 -/

section Clauses

variable {s : State} {dt m : Nat}

theorem Effects.of_mbxAbort {P : Dev → Prop} (hg : s.dev.Grants m rDEV_MBX_CMD)
    (hp : ∀ e, Landed rDEV_MBX_CMD (s.dev.advance dt) e → P e.mbxAbort.accessEdge) : Effects (.mbxAbort dt m) s P := by
  refine Effects.of_run (f := Dev.write m rDEV_MBX_CMD (2 ^ 30)) rfl ?_
  obtain ⟨e, he, heq⟩ := Dev.write_mbxAbort (hg.advance dt)
  rw [heq]
  exact hp e he

theorem Landed.mbxStat {e : Dev} (h : Landed rDEV_MBX_CMD d e) : e.word rDEV_MBX_STAT = d.word rDEV_MBX_STAT := h.word _ (by decide)

theorem mbxAbort_ends (hg : s.dev.Grants m rDEV_MBX_CMD) (hb : s.dev.flag DEV_MBX_STAT_BUSY = true)
    (hs : s.dev.rd DEV_MBX_STAT_SERVICE ∈ [1, 3, 6]) : Effects (.mbxAbort dt m) s fun e => e.flag DEV_MBX_STAT_BUSY = false ∧
      e.flag DEV_MBX_STAT_DONE = true ∧ e.rd DEV_MBX_STAT_CODE = 0x11 ∧ e.flag DEV_MBX_EVT_DONE = true := by
  refine Effects.of_mbxAbort hg fun e he => ?_
  have hw := he.mbxStat
  have hd := Dev.mbxAbort_done (d := e) ((Dev.flag_of_rd (Dev.rd_of_word hw)).trans hb) (by rw [Dev.rd_of_word (f := DEV_MBX_STAT_SERVICE) hw]; exact hs)
  generalize e.mbxAbort = x at hd
  exact ⟨hd.idle, hd.done, hd.code, hd.event⟩

theorem mbxAbort_rejected (hg : s.dev.Grants m rDEV_MBX_CMD)
    (h : s.dev.flag DEV_MBX_STAT_BUSY = false ∨ s.dev.rd DEV_MBX_STAT_SERVICE ∉ [1, 3, 6]) :
    Effects (.mbxAbort dt m) s fun e => e.flag DEV_MBX_EVT_REJECT = true ∧ e.word rDEV_MBX_STAT = s.dev.word rDEV_MBX_STAT := by
  refine Effects.of_mbxAbort hg fun e he => ?_
  have hw := he.mbxStat
  have hr : e.flag DEV_MBX_STAT_BUSY = false ∨ e.rd DEV_MBX_STAT_SERVICE ∉ [1, 3, 6] := by
    rw [Dev.flag_of_rd (Dev.rd_of_word (f := DEV_MBX_STAT_BUSY) hw), Dev.rd_of_word (f := DEV_MBX_STAT_SERVICE) hw]
    exact h
  rw [Dev.mbxAbort_reject hr]
  have hset := Dev.flag_evt_self e DEV_MBX_EVT_REJECT rfl (by decide)
  have hstat := (Dev.word_evt_of_ne e DEV_MBX_EVT_REJECT rDEV_MBX_STAT (by decide)).trans hw
  generalize e.evt DEV_MBX_EVT_REJECT = x at hset hstat
  exact ⟨hset, hstat⟩

end Clauses

/-- Settles O29: whatever ends a service writes its code and results, and clears BUSY, as the last thing that the mailbox's words take;
a source that fires then finds no service that runs. -/
theorem mailboxEnds : Obligations.MailboxEnds := by
  unfold Obligations.MailboxEnds
  intro s dt m
  refine ⟨fun hg => ⟨fun hb hs => mbxAbort_ends hg hb hs, fun h => mbxAbort_rejected hg h⟩, fun hb =>
    ⟨fun found o ho hc hne => ?_, fun found ho hs => ?_, fun found ho hs => ?_, fun found ho hs hf => ?_, fun found ho hs hf => ?_, ?_⟩⟩
  · refine Effects.of_run (f := Dev.mbxServiceDone found) rfl ?_
    rw [Dev.mbxServiceDone_out (d := s.dev.advance dt) found hb ho hne]
    have hd := Dev.mbxComplete_done hc o.res (s.dev.advance dt)
    exact ⟨hd.idle, hd.done, hd.code, hd.event, hd.res⟩
  · refine Effects.of_run (f := Dev.mbxServiceDone found) rfl ?_
    rw [(Dev.mbxServiceDone_own (d := s.dev.advance dt) found hb ho).1 hs]
    have hd := Dev.mbxComplete_done (code := 0) (by decide) [1, b2n (s.dev.advance dt).boot.patchRuns] (s.dev.advance dt)
    have hb2n : b2n s.dev.boot.patchRuns % 2 ^ 32 = b2n s.dev.boot.patchRuns := by cases s.dev.boot.patchRuns <;> rfl
    exact ⟨hd.idle, hd.code, hd.res 0 (by decide), (hd.res 1 (by decide)).trans hb2n⟩
  · refine Effects.of_run (f := Dev.mbxServiceDone found) rfl ?_
    rw [(Dev.mbxServiceDone_own (d := s.dev.advance dt) found hb ho).2.1 hs]
    obtain ⟨res, hd⟩ := Dev.learnDone_done found (s.dev.advance dt)
    exact ⟨hd.idle, hd.code⟩
  · refine Effects.of_run (f := Dev.mbxServiceDone found) rfl ?_
    have heq : (s.dev.advance dt).selftestDone found.failed = (s.dev.advance dt).mbxComplete 0 [0] := if_pos hf
    rw [(Dev.mbxServiceDone_own (d := s.dev.advance dt) found hb ho).2.2 hs, heq]
    have hd := Dev.mbxComplete_done (code := 0) (by decide) [0] (s.dev.advance dt)
    exact ⟨hd.idle, hd.code⟩
  · refine Effects.of_run (f := Dev.mbxServiceDone found) rfl ?_
    have heq : (s.dev.advance dt).selftestDone found.failed =
      ((s.dev.advance dt).mbxComplete 0x0F [found.failed &&& s.dev.mbxArg 0]).fire 56 (found.failed &&& s.dev.mbxArg 0) := if_neg hf
    rw [(Dev.mbxServiceDone_own (d := s.dev.advance dt) found hb ho).2.2 hs, heq]
    obtain ⟨hd, hfired⟩ := Dev.mbxComplete_fire (code := 0x0F) (src := 56) (by decide) (by decide) [found.failed &&& s.dev.mbxArg 0]
      (found.failed &&& s.dev.mbxArg 0) (s.dev.advance dt)
    exact ⟨hd.idle, hd.code, hd.res 0 (by decide), hfired.advance⟩
  · refine Effects.of_run (f := Dev.mbxTimeout) rfl ?_
    obtain ⟨hidle, hcode, hevt, hfired⟩ := Dev.mbxTimeout_done (d := s.dev.advance dt) hb
    exact ⟨hidle, hcode, hevt, hfired.advance⟩

end Sys2Proof.Machine
end

section
/-!
PROOF. A patrol step on an erased page (12 R308, R316, R317; O32).
-/

namespace Sys2Proof.Machine

/-- A device in SERVICE with an erased array, a patrol step due, the counters ready and the hold-up supply in order. -/
def patrolOnErased : State :=
  deviceIn .service [(NVM_CNT_STAT_READY, 1), (NVM_STAT_VHOLD_OK, 1)] fun d => { d with nvmc := { d.nvmc with due := [⟨0, false⟩] } }

/-- Refutes O32: a weak group is found in an erased page; the refresh has nothing to program back, and its operation is an erase alone. -/
theorem not_nvmReadsAndPatrol : ¬ Obligations.NvmReadsAndPatrol := by
  intro h
  obtain ⟨-, -, -, -, -, hstep⟩ := h patrolOnErased 0
  obtain ⟨-, -, hweak⟩ := hstep true ⟨0, false⟩ [] (by decide +kernel) (by decide +kernel) (by decide +kernel) (by decide +kernel)
    (by decide +kernel) (by decide +kernel) (by decide +kernel)
  have hmem : patrolOnErased.dev.MemOk := ⟨by decide +kernel, by decide +kernel, fun u hu => by
    have hnone : patrolOnErased.dev.undo = none := by decide +kernel
    rw [hnone] at hu
    cases hu⟩
  obtain ⟨e, ⟨-, -, -, hop, -⟩, hs⟩ := (hweak 1 (by decide) hmem (by decide +kernel)).settled rfl (by decide +kernel)
    (Or.inl (by decide +kernel)) (by decide +kernel)
  rw [← hs.toKeeps.rd NVM_STAT_OP (not_steadyReg (by decide) (by decide) (by decide) (by decide))] at hop
  revert hop
  decide +kernel

end Sys2Proof.Machine
end

section
/-!
PROOF. A failed verification whose source is FATAL, while a copy of a service DUMP waits (11 R300; 12 R312; O31).
-/

namespace Sys2Proof.Machine

/-- A device in SERVICE whose source 43 is FATAL, with no reaction to it. A service DUMP runs, whose copy waits, while the controller
programs page 305 for a host. -/
def copyWaits : State :=
  deviceIn .service [(NVM_STAT_BUSY, 1), (DEV_MBX_STAT_BUSY, 1), (DEV_MBX_STAT_SERVICE, 3), (sevFld 43, 3), (⟨rFLT_REACT, 7, 6⟩, 0)] fun d =>
    { d with nvmc := { d.nvmc with
        op := some { page := 305, erase := false, groups := [] }, cur := some ⟨.hostProgram 305, 1, [], 0, false⟩
        queue := [NvmWork.new (.dumpCopy (some 0))] } }

/-- Refutes O31: the verification fails and source 43, which is FATAL, ends the service DUMP; the copy leaves the queue. -/
theorem not_nvmController : ¬ Obligations.NvmController := by
  intro h
  obtain ⟨-, -, -, hdone, -⟩ := h copyWaits 0
  obtain ⟨-, hfail⟩ := hdone { page := 305, erase := false, groups := [] } 305 1 0 false (by decide +kernel) (by decide +kernel)
    (by decide +kernel) (by decide +kernel) (by decide)
  obtain ⟨e, ⟨-, -, -, -, -, hqueue⟩, hs⟩ := hfail.settled rfl (by decide +kernel) (Or.inl (by decide +kernel)) (by decide +kernel)
  rw [← hs.toKeeps.nvmc] at hqueue
  revert hqueue
  decide +kernel

end Sys2Proof.Machine
end

section
/-!
PROOF. The words of complement pairs of the paddocks stand through states, words and steps of any paddock, and through the end of an
edge (04 R111, R112, R118 to R123, R129; 11 R284; O23).
-/

namespace Sys2Proof.Machine

/-- A register that is no half of PAD_n_HMODEL, PAD_n_SFO or PAD_n_SPO. -/
def OffCpl (a : Nat) : Prop :=
  a < 0x030000 ∨ 0x034000 ≤ a ∨ a % 0x400 < 0x50 ∨ (0x60 ≤ a % 0x400 ∧ a % 0x400 < 0x80) ∨ 0x98 ≤ a % 0x400

namespace OffCpl

variable {d : Dev} {n : Nat}

theorem firing {a : Nat} (h : FiringReg a) : OffCpl a := by
  by_contra hn
  unfold OffCpl at hn
  exact not_firingReg (by omega) (by omega) (by omega) (by omega) h

theorem job {a : Nat} (h : JobReg a) : OffCpl a := by
  obtain h | h := h
  · exact Or.inr (Or.inl (by omega))
  · exact .firing h

theorem pad {n b : Nat} (h : b % 0x400 < 0x50 ∨ (0x60 ≤ b % 0x400 ∧ b % 0x400 < 0x80) ∨ 0x98 ≤ b % 0x400 := by decide) :
    OffCpl (b + 0x400 * n) := by
  unfold OffCpl
  omega

theorem beyond {b c k : Nat} (h : 0x034000 ≤ b := by decide) : OffCpl (b + c * k) := Or.inr (Or.inl (Nat.le_add_right_of_le h))

/-! ### Ports and words -/

theorem portPend (d : Dev) (k : Nat) : Apart OffCpl d (d.portPend k) := (Apart.refl _ d).wr _ _ beyond

theorem portFault (d : Dev) (k cause : Nat) : Apart OffCpl d (d.portFault k cause) := by
  unfold Dev.portFault
  dsimp only
  split
  · have h := (((Apart.refl OffCpl d).wr (STEER_STAT_STATE k) 2 beyond).wr (STEER_STAT_CAUSE k) cause beyond).wr (STEER_STAT_PARKED k)
      (b2n (d.flag (STEER_CTL_ACT k))) beyond
    exact ((((h.when _ _ ((Apart.refl _ _).wr (STEER_STAT_SLEW_LIM k) 0 beyond)).setPort _ _).evt (STEER_EVT_FAULT k) beyond).fire _ _
      fun _ => firing).trans (portPend _ k)
  · split
    · exact ((((Apart.refl OffCpl d).setPort _ _).wr (STEER_STAT_CAUSE k) cause beyond).setPort _ _).trans (portPend _ k)
    · exact (Apart.refl _ d).setPort _ _
  · exact Apart.refl _ d

theorem portsFreerun (d : Dev) (n : Nat) : Apart OffCpl d (d.portsFreerun n) := by
  unfold Dev.portsFreerun
  split
  · refine (Apart.refl _ d).foldl _ _ fun k _ d => ?_
    split
    · exact portFault d k 2
    · exact Apart.refl _ d
  · exact Apart.refl _ d

theorem actuate (n : Nat) (y : Int) (d : Dev) : Apart OffCpl d (d.actuate n y) := by
  unfold Dev.actuate
  split
  · dsimp only
    split
    · exact Apart.refl _ d
    · exact ((((Apart.refl OffCpl d).setApll _ _).wr (FLOCK_N_LO_N _) _ beyond).wr (FLOCK_N_HI_NF _) _ beyond).wr (FLOCK_N_HI_NI _) _ beyond
  · dsimp only
    split
    · exact (Apart.refl _ d).psynWord _ y
    · exact Apart.refl _ d

theorem setWordY (n : Nat) (y : Int) (d : Dev) : Apart OffCpl d (d.setWordY n y) := by
  unfold Dev.setWordY
  dsimp only
  refine Apart.trans ?_ (actuate ..)
  have h := ((Apart.refl OffCpl d).setPad n fun p => { p with egAcc := d.egNow n, egAt := d.clk.tclk }).wr48 (PAD_FW_LO_VALUE n)
    (PAD_FW_HI_VALUE n) y pad pad
  split
  · exact h.setInc _
  · exact h

/-! ### Steps of device time, and states -/

theorem takeStep (n : Nat) (d : Dev) : Apart OffCpl d (d.takeStep n) := by
  unfold Dev.takeStep
  split
  · exact Apart.refl _ d
  · dsimp only
    have h := (Apart.refl OffCpl d).setPad n fun p => { p with tstep := none }
    split
    · exact h.evt (PAD_ERR_TSTEP_REJ n) pad
    · exact (((h.setDev _).evt (PAD_HIST_STEP_DONE n) pad).abortWhere (fun _ => job) _ _).trans (JobsOnly.epochAll 4 _).apart

theorem padIdle (n : Nat) (d : Dev) : Apart OffCpl d (d.padIdle n) := by
  unfold Dev.padIdle
  split
  · exact Apart.refl _ d
  · have h := takeStep n d
    dsimp only
    split
    · split
      · exact (h.setPad _ _).trans (setWordY ..)
      · exact h.setPad _ _
    · exact h

theorem padTake (n st : Nat) (d : Dev) : Apart OffCpl d (d.padTake n st) := by
  unfold Dev.padTake
  dsimp only
  refine Apart.when ?_ _ _ ((Apart.refl _ _).fire _ _ fun _ => firing)
  refine Apart.when ?_ _ _ ((Apart.refl _ _).padUnusable _)
  refine Apart.when ?_ _ _ (((Apart.refl _ _).setPad _ _).wr (PAD_STATE_SLEWING n) _ pad)
  refine Apart.when ?_ _ _ ((Apart.refl _ _).wr (PAD_STATE_CLAMPED n) _ pad)
  exact ((Apart.refl _ d).wr (PAD_STATE_STATE n) st pad).evtIf _ (histBit n st) pad

theorem padHalt (n : Nat) (d : Dev) : Apart OffCpl d (d.padHalt n) :=
  ((((Apart.refl OffCpl d).setPad _ _).setSel _ _).wr _ _ pad).wr _ _ pad

theorem computeH (n : Nat) (d : Dev) : Apart OffCpl d (d.computeH n).1 := by
  unfold Dev.computeH
  dsimp only
  refine Apart.when ?_ _ _ ((Apart.refl _ _).wr48 _ _ _ pad pad)
  exact (((Apart.refl OffCpl d).wr _ _ pad).wr _ _ pad).wr _ _ pad

theorem formHw (n : Nat) (d : Dev) : Apart OffCpl d (d.formHw n) := (Apart.refl OffCpl d).wr48 _ _ _ pad pad

theorem refreshHw (n : Nat) (d : Dev) : Apart OffCpl d (d.refreshHw n) := by
  unfold Dev.refreshHw
  dsimp only
  split
  · exact (formHw n d).trans (setWordY ..)
  · exact formHw n d

theorem enterFreerun (n : Nat) (b : Bool) (d : Dev) : Apart OffCpl d (d.enterFreerun n b) := by
  unfold Dev.enterFreerun
  dsimp only
  have h := ((padTake n 0 d).trans (padHalt n _)).trans (setWordY n (d.padFr n) _)
  refine Apart.trans (Apart.trans ?_ (portsFreerun _ n)) (padIdle n _)
  exact h.when _ _ (((Apart.refl _ _).evt (PAD_HIST_HOLD_INVALID n) pad).fire _ _ fun _ => firing)

theorem enterHoldover (n : Nat) (d : Dev) : Apart OffCpl d (d.enterHoldover n) := by
  unfold Dev.enterHoldover
  exact ((((padTake n 3 d).trans (padHalt n _)).trans (formHw n _)).trans (setWordY n _ _)).trans (padIdle n _)

theorem startLadder (n : Nat) (w : Bool) (d : Dev) : Apart OffCpl d (d.startLadder n w) := by
  have bw : ∀ b s t, Apart OffCpl d (d.setBw n b s t) := fun b s t =>
    (((Apart.refl _ d).setPad _ _).wr (PAD_STATE_STEP n) _ pad).wr (PAD_STATE_AT_TARGET n) _ pad
  unfold Dev.startLadder
  dsimp only
  split
  · exact bw ..
  · exact bw ..

theorem enterAcquire (n : Nat) (d : Dev) : Apart OffCpl d (d.enterAcquire n) := by
  unfold Dev.enterAcquire
  exact (((padTake n 1 d).trans (padHalt n _)).setPad _ _).trans (startLadder n _ _)

theorem padFall (n : Nat) (d : Dev) : Apart OffCpl d (d.padFall n) := by
  unfold Dev.padFall
  split
  · split
    · exact Apart.refl _ d
    · exact enterFreerun ..
  · have h := computeH n d
    dsimp only
    split
    · split
      · exact h.trans (refreshHw ..)
      · exact h.trans (enterHoldover ..)
    · split
      · exact h
      · exact h.trans (enterFreerun ..)

theorem padAuto (n : Nat) (d : Dev) : Apart OffCpl d (d.padAuto n) := by
  unfold Dev.padAuto
  split
  · exact Apart.refl _ d
  · split
    · exact enterAcquire n d
    · exact padFall n d

end OffCpl

/-- The end of an edge leaves the words of complement pairs, also as the paddocks leave SLEEP. -/
theorem offCpl_end : EndReach OffCpl where
  below _ h := Or.inl h
  above _ h _ := Or.inr (Or.inl h)
  wake d := (OnlyRegs.refl _ d).forN 16 _ fun n _ d => (OffCpl.padAuto n d).only

end Sys2Proof.Machine
end

section
/-!
PROOF. Complement pairs and quartets of the paddocks (00 R13; 10 R267; O23).
-/

namespace Sys2Proof.Machine

variable {d : Dev} {m n a o v w : Nat}

/-! ### The halves that a master holds -/

theorem Dev.pmWord_setPmWord_other (d : Dev) {o m a b : Nat} (x : Word) (hom : o ≠ m) (ha : a < 0x1000000) (hb : b < 0x1000000) :
    (d.setPmWord m a x).pmWord o b = d.pmWord o b := by
  refine Store.get_put_of_ne _ _ _ _ _ _ fun h => ?_
  unfold pmKey at h
  omega

theorem Dev.firstHalf_congr {d e : Dev} {m a : Nat} (h1 : e.pmWord m (a + 1) = d.pmWord m (a + 1)) (h2 : e.pmWord m (a + 2) = d.pmWord m (a + 2)) :
    e.firstHalf m a = d.firstHalf m a := by
  unfold Dev.firstHalf
  rw [h1, h2]

theorem Dev.heldLo_congr {d e : Dev} {m a : Nat} (h1 : e.pmWord m (a + 9) = d.pmWord m (a + 9)) (h2 : e.pmWord m (a + 10) = d.pmWord m (a + 10))
    (hw : e.word a = d.word a) : e.heldLo m a = d.heldLo m a := by
  unfold Dev.heldLo
  rw [h1, h2, hw]

theorem Dev.firstHalf_cplFirst (d : Dev) (m a : Nat) (hv : v < 2 ^ 32) : (d.cplFirst m a v).firstHalf m a = some v := by
  unfold Dev.cplFirst Dev.firstHalf
  rw [Dev.pmWord_setPmWord_self, if_pos rfl, Dev.pmWord_setPmWord_of_ne _ _ _ (by omega), Dev.pmWord_setPmWord_self, Word.toNat_of,
    Nat.mod_eq_of_lt hv]

theorem Dev.firstHalf_used (d : Dev) (m a : Nat) : (d.setPmWord m (a + 2) 0).firstHalf m a = none := by
  unfold Dev.firstHalf
  rw [Dev.pmWord_setPmWord_self, if_neg (by decide)]

theorem Dev.cplSecond_agreed (h : d.firstHalf m a = some v) (hw : w = not32 v) : d.cplSecond m a w = (some v, d.setPmWord m (a + 2) 0) := by
  unfold Dev.cplSecond
  dsimp only
  rw [h, Option.filter_some_pos (p := fun x => decide (w = not32 x)) (decide_eq_true hw)]

theorem Dev.cplSecond_other (h : ∀ v, d.firstHalf m a = some v → w ≠ not32 v) : d.cplSecond m a w = (none, d.setPmWord m (a + 2) 0) := by
  unfold Dev.cplSecond
  dsimp only
  cases hf : d.firstHalf m a with
  | none => rfl
  | some v => rw [Option.filter_some_neg (p := fun x => decide (w = not32 x)) (by simpa using h v hf)]

/-! ### The write of a half -/

/-- The offsets of the halves in a paddock's block. -/
def cplOffsets : List Nat := [0x50, 0x54, 0x58, 0x5C, 0x80, 0x84, 0x88, 0x8C, 0x90, 0x94]

/-- The registers of the halves take nothing but a complement pair. -/
theorem cplRows : ∀ n < 16, ∀ o ∈ cplOffsets, ((rowAt (0x030000 + 0x400 * n + o)).any fun r =>
    !r.perMaster && decide (r.sqc = 0) && decide (r.cpl ≠ 0)) = true := by
  decide +kernel

/-- The register at `b` is the half at offset `o` of paddock `n`. -/
structure CplHalf (n b o : Nat) : Prop where
  pad : n < 16
  off : o ∈ cplOffsets
  addr : b = 0x030000 + 0x400 * n + o

namespace CplHalf

variable {b : Nat}

theorem lt (h : CplHalf n b o) : o < 0x98 := by
  have hall : ∀ o ∈ cplOffsets, o < 0x98 := by decide
  exact hall o h.off

/-- An accepted write of a half. -/
theorem write (h : CplHalf n b o) (hg : d.Grants m b) : ∃ x, d.write m b w = (({ d with outside := x } : Dev).cplWrite m n o (w % 2 ^ 32)).accessEdge := by
  have hlt := h.lt
  obtain ⟨hn, ho, rfl⟩ := h
  have hrow := cplRows n hn o ho
  rw [Option.any_eq_true] at hrow
  obtain ⟨r, hr, hp⟩ := hrow
  obtain ⟨⟨hpm, hs⟩, hc⟩ : (r.perMaster = false ∧ r.sqc = 0) ∧ r.cpl ≠ 0 := by simpa using hp
  obtain ⟨x, hx⟩ := d.noteReserved_outside r (w % 2 ^ 32)
  refine ⟨x, ?_⟩
  rw [Dev.write_row hg (by omega) hr, ← hx]
  unfold Dev.rowWrite
  dsimp only
  rw [if_neg (by rw [hpm]; decide), if_neg (by rw [hs]; decide), if_pos hc]
  rw [show inst 0x030000 0x400 (0x030000 + 0x400 * n + o) = n by unfold inst; omega,
    show (0x030000 + 0x400 * n + o - 0x030000) % 0x400 = o by omega]
  rfl

end CplHalf

/-! ### What the write leaves when its edge has settled -/

/-- `t` holds the halves that `x` holds, and its words but for those of the other registers. -/
structure Halves (x t : Dev) : Prop where
  pm : t.perMaster = x.perMaster
  word : ∀ b, ¬ OffCpl b → t.word b = x.word b

namespace Halves

variable {x y t : Dev}

theorem firstHalf (h : Halves x t) (m a : Nat) : t.firstHalf m a = x.firstHalf m a :=
  Dev.firstHalf_congr (Dev.pmWord_congr h.pm _ _) (Dev.pmWord_congr h.pm _ _)

theorem heldLo (h : Halves x t) (m : Nat) {a : Nat} (ha : ¬ OffCpl a) : t.heldLo m a = x.heldLo m a :=
  Dev.heldLo_congr (Dev.pmWord_congr h.pm _ _) (Dev.pmWord_congr h.pm _ _) (h.word a ha)

theorem trans (h : Halves x y) (h' : Halves y t) : Halves x t := ⟨h'.pm.trans h.pm, fun b hb => (h'.word b hb).trans (h.word b hb)⟩

end Halves

theorem OnlyRegs.halves {d e : Dev} (h : OnlyRegs OffCpl d e) : Halves d e := ⟨h.perMaster, h.word⟩

theorem halves_finish (d : Dev) : Halves d d.accessEdge.finish := by
  obtain ⟨x, hx, hfin⟩ := offCpl_end.finish d.accessEdge
  rw [hfin]
  refine Halves.trans (y := x) ⟨hx.perMaster, hx.word⟩ ?_
  have hl : OnlyRegs OffCpl x x.settleLamp := (OnlyRegs.refl OffCpl x).evtIf _ CRAFT_EVT_LAMP (Or.inr (Or.inl (by decide)))
  exact hl.halves

theorem padErr_beyond {a : Nat} (ha : a < 0x030000) : rPAD_ERR n ≠ a := by
  unfold rPAD_ERR
  omega

theorem padErr_above {a : Nat} (ha : 0x034000 ≤ a) (hn : n < 16) : rPAD_ERR n ≠ a := by
  unfold rPAD_ERR
  omega

/-- A write of a half completes with what it leaves of the halves and, with no fold held, of the bit of a rejected one. -/
theorem Completes.of_half {s : State} {dt b : Nat} {P : Dev → Prop} (hb : CplHalf n b o) (hst : s.dev.Steady) (hg : s.dev.Grants m b)
    (hw : w < 2 ^ 32)
    (hp : ∀ d t, Halves s.dev d → d.Steady → Halves (d.cplWrite m n o w) t →
      ((d.cplWrite m n o w).Steady → t.flag (PAD_ERR_CPL_ERR n) = (d.cplWrite m n o w).flag (PAD_ERR_CPL_ERR n)) → P t) :
    Completes (.cplHalfWrite dt m b w) s P := by
  refine Completes.of_finish (f := Dev.write m (b % 0x1000000) (w % 2 ^ 32)) rfl ?_
  obtain ⟨y, hy, hys, hx⟩ : ∃ y, Halves s.dev y ∧ y.Steady ∧ (s.dev.advance dt).write m b w = (y.cplWrite m n o (w % 2 ^ 32)).accessEdge := by
    obtain ⟨x, hx⟩ := hb.write (w := w) (hg.advance dt)
    exact ⟨({ s.dev.advance dt with outside := x } : Dev), ⟨rfl, fun _ _ => rfl⟩, (hst.advance dt).of_flt rfl rfl rfl, hx⟩
  have hlt := hb.lt
  have hn := hb.pad
  rw [Nat.mod_eq_of_lt (show b < 0x1000000 by rw [hb.addr]; omega), Nat.mod_eq_of_lt hw, hx, Nat.mod_eq_of_lt hw]
  refine hp y _ hy hys (halves_finish _) fun hs => ?_
  have hacc : (y.cplWrite m n o w).accessEdge.Steady := hs.of_flt rfl rfl rfl
  exact hacc.finish_flag _ (not_steadyReg (padErr_beyond (by decide)) (padErr_beyond (by decide)) (padErr_above (by decide) hn) (padErr_above (by decide) hn))

/-! ### The cases of a write -/

/-- A second half that does not agree is used up and noted. -/
def Dev.cplRefuse (m n a : Nat) (d : Dev) : Dev := (d.setPmWord m (a + 2) 0).evt (PAD_ERR_CPL_ERR n)

/-- A rejected second half reports itself, leaves every word and the other halves. -/
theorem Completes.of_refusedHalf {s : State} {dt a b : Nat} {P : Dev → Prop} (hb : CplHalf n b o) (hst : s.dev.Steady)
    (hg : s.dev.Grants m b) (hw : w < 2 ^ 32) (hf : ∀ v, s.dev.firstHalf m a = some v → w ≠ not32 v)
    (hcase : ∀ d : Dev, (∀ v, d.firstHalf m a = some v → w ≠ not32 v) → d.cplWrite m n o w = d.cplRefuse m n a)
    (hp : ∀ t, t.flag (PAD_ERR_CPL_ERR n) = true → t.firstHalf m a = none → (∀ b, ¬ OffCpl b → t.word b = s.dev.word b) →
      (∀ b, b ≠ a + 2 → t.pmWord m b = s.dev.pmWord m b) →
      (∀ o b, o ≠ m → a + 2 < 0x1000000 → b < 0x1000000 → t.pmWord o b = s.dev.pmWord o b) → P t) :
    Completes (.cplHalfWrite dt m b w) s P := by
  refine Completes.of_half hb hst hg hw fun d t hd hs ht herr => ?_
  have hdf : ∀ v, d.firstHalf m a = some v → w ≠ not32 v := by rw [hd.firstHalf]; exact hf
  rw [hcase d hdf] at ht herr
  have hoff : OffCpl (rPAD_ERR n) := OffCpl.pad
  have hn := hb.pad
  have he : Wrote OffCpl (d.setPmWord m (a + 2) 0) (d.cplRefuse m n a) := Wrote.evt _ _ hoff
  have hpm : (d.cplRefuse m n a).perMaster = (d.setPmWord m (a + 2) 0).perMaster := Dev.evt_perMaster _ _
  have hkept := fun m b => Dev.pmWord_congr (ht.pm.trans hpm) m b
  have hsteady : (d.cplRefuse m n a).Steady :=
    (Wrote.evt (A := (· = rPAD_ERR n)) (d.setPmWord m (a + 2) 0) _ rfl).steady (hs.of_flt rfl rfl rfl)
      fun h => padErr_beyond (by decide) h.symm
  refine hp t ?_ ?_ (fun b hb => ?_) (fun b hb => ?_) fun o b ho ha hb => ?_
  · rw [herr hsteady]
    exact Dev.flag_evt_self _ _ rfl (show 1 < 24 by decide)
  · rw [ht.firstHalf, Dev.firstHalf_congr (Dev.pmWord_congr hpm _ _) (Dev.pmWord_congr hpm _ _)]
    exact Dev.firstHalf_used d m a
  · exact (ht.word b hb).trans ((he.word b hb).trans (hd.word b hb))
  · exact (hkept m b).trans ((Dev.pmWord_setPmWord_of_ne _ _ _ hb).trans (Dev.pmWord_congr hd.pm _ _))
  · exact (hkept o b).trans ((Dev.pmWord_setPmWord_other _ _ ho ha hb).trans (Dev.pmWord_congr hd.pm _ _))

/-- The first word of a quartet of paddock `n`, at its offset. -/
def QuartetAt (n a o : Nat) : Prop := (a = rPAD_HMODEL_LO n ∧ o = 0x50) ∨ (a = rPAD_SFO_LO n ∧ o = 0x80)

/-- A write of half `k` of a quartet, and what its acceptance can reach. -/
theorem QuartetAt.cplWrite {a : Nat} (h : QuartetAt n a o) : ∃ accept : Dev → Dev, (∀ e, Apart OffCpl e (accept e)) ∧
    ∀ k < 4, ∀ d : Dev, d.cplWrite m n (o + 4 * k) w = d.quartetWrite m a k w (PAD_ERR_CPL_ERR n) accept := by
  obtain ⟨rfl, rfl⟩ | ⟨rfl, rfl⟩ := h
  · refine ⟨Dev.acceptModel n, fun e => ?_, fun k hk d => ?_⟩
    · exact (((Apart.refl OffCpl e).setPad n _).wr (PAD_STATE_MODEL_STALE n) 0 OffCpl.pad).trans (OffCpl.refreshHw n _)
    · unfold Dev.cplWrite
      dsimp only
      rw [if_pos (by omega), show (0x50 + 4 * k - 0x50) / 4 = k by omega]
  · refine ⟨fun d => d.acceptSfo n (d.rd48S ⟨rPAD_SFO_LO n, 31, 0⟩ ⟨rPAD_SFO_HI n, 15, 0⟩), fun e => ?_, fun k hk d => ?_⟩
    · unfold Dev.acceptSfo
      dsimp only
      split
      · exact Apart.refl _ e
      · exact ((Apart.refl OffCpl e).setPad n _).trans (OffCpl.padIdle n _)
    · unfold Dev.cplWrite
      dsimp only
      rw [if_neg (by omega), if_pos (by omega), show (0x80 + 4 * k - 0x80) / 4 = k by omega]

namespace QuartetAt

variable {a k : Nat}

theorem addr (h : QuartetAt n a o) : a = 0x030000 + 0x400 * n + o ∧ (o = 0x50 ∨ o = 0x80) := by
  obtain ⟨rfl, rfl⟩ | ⟨rfl, rfl⟩ := h
  · exact ⟨by unfold rPAD_HMODEL_LO; omega, Or.inl rfl⟩
  · exact ⟨by unfold rPAD_SFO_LO; omega, Or.inr rfl⟩

theorem half (h : QuartetAt n a o) (hn : n < 16) (hk : k < 4) : CplHalf n (a + 4 * k) (o + 4 * k) := by
  obtain ⟨ha, ho⟩ := h.addr
  refine ⟨hn, ?_, by omega⟩
  have hall : ∀ o, o = 0x50 ∨ o = 0x80 → ∀ k < 4, o + 4 * k ∈ cplOffsets := by
    rintro o (rfl | rfl)
    · decide
    · decide
  exact hall o ho k hk

theorem not_offCpl (h : QuartetAt n a o) (hn : n < 16) (hk : k < 4) : ¬ OffCpl (a + 4 * k) := by
  obtain ⟨ha, ho⟩ := h.addr
  unfold OffCpl
  omega

end QuartetAt

theorem spo_half (hn : n < 16) : CplHalf n (rPAD_SPO n) 0x90 := ⟨hn, by decide, by unfold rPAD_SPO; omega⟩

theorem spoC_half (hn : n < 16) : CplHalf n (rPAD_SPO_C n) 0x94 := ⟨hn, by decide, by unfold rPAD_SPO_C; omega⟩

theorem spo_not_offCpl (hn : n < 16) : ¬ OffCpl (rPAD_SPO n) ∧ ¬ OffCpl (rPAD_SPO_C n) := by
  unfold OffCpl rPAD_SPO rPAD_SPO_C
  omega

/-- A first half waits, in no register. -/
theorem Completes.of_firstHalf {s : State} {dt b : Nat} (hb : CplHalf n b o) (hoff : ¬ OffCpl b) (hst : s.dev.Steady)
    (hg : s.dev.Grants m b) (hv : v < 2 ^ 32) (hcase : ∀ d : Dev, d.cplWrite m n o v = d.cplFirst m b v) :
    Completes (.cplHalfWrite dt m b v) s fun t => t.firstHalf m b = some v ∧ t.word b = s.dev.word b := by
  refine Completes.of_half hb hst hg hv fun d t hd _ ht _ => ?_
  rw [hcase d] at ht
  exact ⟨(ht.firstHalf m b).trans (Dev.firstHalf_cplFirst d m b hv), (ht.word b hoff).trans (hd.word b hoff)⟩

/-- An agreed _LO pair is held for its master. -/
theorem Completes.of_heldLo {s : State} {dt a : Nat} (h : QuartetAt n a o) (hn : n < 16) (hst : s.dev.Steady)
    (hg : s.dev.Grants m (a + 8)) (hv : v < 2 ^ 32) (hw : w < 2 ^ 32) (hf : s.dev.firstHalf m a = some v) (hvw : w = not32 v) :
    Completes (.cplHalfWrite dt m (a + 8) w) s fun t =>
      t.heldLo m a = v ∧ t.firstHalf m a = none ∧ ∀ k < 4, t.word (a + 4 * k) = s.dev.word (a + 4 * k) := by
  refine Completes.of_half (h.half hn (k := 2) (by decide)) hst hg hw fun d t hd _ ht _ => ?_
  obtain ⟨accept, -, hcase⟩ := h.cplWrite (m := m) (w := w)
  have hx : d.cplWrite m n (o + 4 * 2) w = ((d.setPmWord m (a + 2) 0).setPmWord m (a + 9) (Word.of v)).setPmWord m (a + 10) 1 := by
    rw [hcase 2 (by decide)]
    unfold Dev.quartetWrite
    rw [Dev.cplSecond_agreed ((hd.firstHalf m a).trans hf) hvw]
    rfl
  rw [hx] at ht
  refine ⟨?_, ?_, fun k hk => ?_⟩
  · rw [ht.heldLo m (a := a) (h.not_offCpl hn (k := 0) (by decide))]
    unfold Dev.heldLo
    rw [Dev.pmWord_setPmWord_self, if_pos rfl, Dev.pmWord_setPmWord_of_ne _ _ _ (by omega), Dev.pmWord_setPmWord_self, Word.toNat_of,
      Nat.mod_eq_of_lt hv]
  · rw [ht.firstHalf]
    unfold Dev.firstHalf
    rw [Dev.pmWord_setPmWord_of_ne _ _ _ (by omega), Dev.pmWord_setPmWord_of_ne _ _ _ (by omega), Dev.pmWord_setPmWord_self,
      if_neg (by decide)]
  · have hoff := h.not_offCpl hn hk
    exact (ht.word _ hoff).trans (hd.word _ hoff)

/-- An agreed _HI pair makes the quartet. -/
theorem Completes.of_quartet {s : State} {dt a : Nat} (h : QuartetAt n a o) (hn : n < 16) (hst : s.dev.Steady)
    (hg : s.dev.Grants m (a + 12)) (hw : w < 2 ^ 32) (hf : s.dev.firstHalf m (a + 4) = some v) {lo : Nat}
    (hlo : lo = s.dev.heldLo m a) (hvw : w = not32 v) :
    Completes (.cplHalfWrite dt m (a + 12) w) s fun t =>
      t.word a = Word.of lo ∧ t.word (a + 4) = Word.of v ∧ t.word (a + 8) = Word.of (not32 lo) ∧ t.word (a + 12) = Word.of w ∧
        t.firstHalf m (a + 4) = none := by
  have hoff := fun k hk => h.not_offCpl hn (k := k) hk
  refine Completes.of_half (h.half hn (k := 3) (by decide)) hst hg hw fun d t hd _ ht _ => ?_
  obtain ⟨accept, haccept, hcase⟩ := h.cplWrite (m := m) (w := w)
  have hx : d.cplWrite m n (o + 4 * 3) w = accept ((d.setPmWord m (a + 6) 0).setQuartet m a lo v) := by
    rw [hcase 3 (by decide)]
    unfold Dev.quartetWrite
    have hheld : (d.setPmWord m (a + 6) 0).heldLo m a = lo := by
      rw [Dev.heldLo_congr (Dev.pmWord_setPmWord_of_ne _ _ _ (by omega)) (Dev.pmWord_setPmWord_of_ne _ _ _ (by omega)) rfl,
        hd.heldLo m (a := a) (hoff 0 (by decide)), ← hlo]
    rw [Dev.cplSecond_agreed ((hd.firstHalf m (a + 4)).trans hf) hvw]
    exact congrArg (fun l => accept ((d.setPmWord m (a + 6) 0).setQuartet m a l v)) hheld
  rw [hx] at ht
  have hq : Halves ((d.setPmWord m (a + 6) 0).setQuartet m a lo v) t := (haccept _).only.halves.trans ht
  refine ⟨?_, ?_, ?_, ?_, ?_⟩
  · rw [hq.word a (hoff 0 (by decide))]
    exact (Dev.word_setWord_of_ne _ _ _ _ (by omega)).trans ((Dev.word_setWord_of_ne _ _ _ _ (by omega)).trans
      ((Dev.word_setWord_of_ne _ _ _ _ (by omega)).trans (Dev.word_setWord_self _ _ _)))
  · rw [hq.word (a + 4) (hoff 1 (by decide))]
    exact (Dev.word_setWord_of_ne _ _ _ _ (by omega)).trans ((Dev.word_setWord_of_ne _ _ _ _ (by omega)).trans
      (Dev.word_setWord_self _ _ _))
  · rw [hq.word (a + 8) (hoff 2 (by decide))]
    exact (Dev.word_setWord_of_ne _ _ _ _ (by omega)).trans (Dev.word_setWord_self _ _ _)
  · rw [hq.word (a + 12) (hoff 3 (by decide)), hvw]
    exact Dev.word_setWord_self _ _ _
  · rw [hq.firstHalf]
    refine Eq.trans ?_ (Dev.firstHalf_used d m (a + 4))
    exact Dev.firstHalf_congr (Dev.pmWord_setPmWord_of_ne _ _ _ (by omega)) (Dev.pmWord_setPmWord_of_ne _ _ _ (by omega))

/-- An agreed pair of PAD_n_SPO makes both halves. -/
theorem Completes.of_spo {s : State} {dt : Nat} (hn : n < 16) (hst : s.dev.Steady) (hg : s.dev.Grants m (rPAD_SPO_C n)) (hw : w < 2 ^ 32)
    (hf : s.dev.firstHalf m (rPAD_SPO n) = some v) (hvw : w = not32 v) :
    Completes (.cplHalfWrite dt m (rPAD_SPO_C n) w) s fun t =>
      t.word (rPAD_SPO n) = Word.of v ∧ t.word (rPAD_SPO_C n) = Word.of w ∧ t.firstHalf m (rPAD_SPO n) = none := by
  obtain ⟨hoff, hoffC⟩ := spo_not_offCpl hn
  have hne : rPAD_SPO n ≠ rPAD_SPO_C n := by unfold rPAD_SPO rPAD_SPO_C; omega
  refine Completes.of_half (spoC_half hn) hst hg hw fun d t hd _ ht _ => ?_
  have hx : d.cplWrite m n 0x94 w = (((d.setPmWord m (rPAD_SPO n + 2) 0).setWord (rPAD_SPO n) (Word.of v)).setWord (rPAD_SPO_C n)
      (Word.of w)).acceptSpo n (sext 32 v) := by
    unfold Dev.cplWrite
    rw [Dev.cplSecond_agreed ((hd.firstHalf m _).trans hf) hvw]
    rfl
  have hacc : ∀ x : Dev, Apart OffCpl x (x.acceptSpo n (sext 32 v)) := fun x => by
    unfold Dev.acceptSpo
    split
    · exact Apart.refl _ x
    · exact ((Apart.refl OffCpl x).setPad n _).wr (PAD_STATE_SLEWING n) _ OffCpl.pad
  rw [hx] at ht
  have hq := (hacc _).only.halves.trans ht
  refine ⟨?_, ?_, ?_⟩
  · rw [hq.word _ hoff]
    exact (Dev.word_setWord_of_ne _ _ _ _ hne).trans (Dev.word_setWord_self _ _ _)
  · rw [hq.word _ hoffC]
    exact Dev.word_setWord_self _ _ _
  · rw [hq.firstHalf]
    exact Dev.firstHalf_used d m (rPAD_SPO n)

/-- A second half of a quartet that does not agree. -/
theorem QuartetAt.refused {a k : Nat} (h : QuartetAt n a o) (hk : k = 0 ∨ k = 1) (d : Dev)
    (hf : ∀ v, d.firstHalf m (a + 4 * k) = some v → w ≠ not32 v) :
    d.cplWrite m n (o + 4 * (k + 2)) w = d.cplRefuse m n (a + 4 * k) := by
  obtain ⟨accept, -, hcase⟩ := h.cplWrite (m := m) (w := w)
  rw [hcase (k + 2) (by omega)]
  unfold Dev.quartetWrite
  obtain rfl | rfl := hk
  · rw [show a = a + 4 * 0 from rfl, Dev.cplSecond_other hf]
    rfl
  · rw [show a + 4 = a + 4 * 1 from rfl, Dev.cplSecond_other hf]
    rfl

theorem spo_refused (d : Dev) (hf : ∀ v, d.firstHalf m (rPAD_SPO n) = some v → w ≠ not32 v) :
    d.cplWrite m n 0x94 w = d.cplRefuse m n (rPAD_SPO n) := by
  unfold Dev.cplWrite
  rw [Dev.cplSecond_other hf]
  rfl

theorem quartetAt_of {a : Nat} (h : a = rPAD_HMODEL_LO n ∨ a = rPAD_SFO_LO n) : ∃ o, QuartetAt n a o := by
  obtain h | h := h
  · exact ⟨0x50, Or.inl ⟨h, rfl⟩⟩
  · exact ⟨0x80, Or.inr ⟨h, rfl⟩⟩

/-- The first half that a second half at `a + k` may follow, in a quartet or in the pair of PAD_n_SPO. -/
theorem secondHalf_cases {a k : Nat} (h : (a = rPAD_SPO n ∧ k = 4) ∨
    ((a = rPAD_HMODEL_LO n ∨ a = rPAD_SFO_LO n ∨ a = rPAD_HMODEL_LO n + 4 ∨ a = rPAD_SFO_LO n + 4) ∧ k = 8)) :
    (a = rPAD_SPO n ∧ a + k = rPAD_SPO_C n) ∨ ∃ b o j, QuartetAt n b o ∧ (j = 0 ∨ j = 1) ∧ a = b + 4 * j ∧ a + k = b + 4 * (j + 2) := by
  obtain ⟨rfl, rfl⟩ | ⟨rfl | rfl | rfl | rfl, rfl⟩ := h
  · exact Or.inl ⟨rfl, by unfold rPAD_SPO rPAD_SPO_C; omega⟩
  · exact Or.inr ⟨_, _, 0, Or.inl ⟨rfl, rfl⟩, Or.inl rfl, by omega, by omega⟩
  · exact Or.inr ⟨_, _, 0, Or.inr ⟨rfl, rfl⟩, Or.inl rfl, by omega, by omega⟩
  · exact Or.inr ⟨_, _, 1, Or.inl ⟨rfl, rfl⟩, Or.inr rfl, by omega, by omega⟩
  · exact Or.inr ⟨_, _, 1, Or.inr ⟨rfl, rfl⟩, Or.inr rfl, by omega, by omega⟩

/-- Settles O23: a write of each half by its case, and what the end of its edge leaves of the halves. -/
theorem complementPairIsAcceptedWhole : Obligations.ComplementPairIsAcceptedWhole := by
  intro s dt m n v w hn hv hw hst
  have hspo := spo_not_offCpl hn
  have agree : ∀ a u, s.dev.firstHalf m a = some v → s.dev.firstHalf m a = some u → w ≠ not32 v → w ≠ not32 u := fun a u h h' => by
    rw [h] at h'
    obtain rfl := Option.some.inj h'
    exact id
  have none : ∀ a u, s.dev.firstHalf m a = none → s.dev.firstHalf m a = some u → w ≠ not32 u := fun a u h h' => by
    rw [h] at h'
    exact nomatch h'
  refine ⟨fun a ha => ?_, fun a k hak hg hf => ?_, fun hg => ?_, fun hg hf => ⟨fun hvw => ?_, fun hvw => ?_⟩⟩
  · obtain ⟨o, ho⟩ := quartetAt_of ha
    have hoff := fun k hk => ho.not_offCpl hn (k := k) hk
    obtain ⟨accept, -, hcase⟩ := ho.cplWrite (m := m) (w := v)
    refine ⟨?_, fun hg hf => ⟨fun hvw => Completes.of_heldLo ho hn hst hg hv hw hf hvw, fun hvw => ?_⟩,
      fun hg hf => ⟨fun lo hlo hvw => Completes.of_quartet ho hn hst hg hw hf hlo hvw, fun hvw => ?_⟩⟩
    · rintro b (rfl | rfl) hg
      · exact Completes.of_firstHalf (ho.half hn (k := 0) (by decide)) (hoff 0 (by decide)) hst hg hv (hcase 0 (by decide))
      · exact Completes.of_firstHalf (ho.half hn (k := 1) (by decide)) (hoff 1 (by decide)) hst hg hv (hcase 1 (by decide))
    · refine Completes.of_refusedHalf (a := a) (ho.half hn (k := 2) (by decide)) hst hg hw (fun u hu => agree a u hf hu hvw)
        (ho.refused (Or.inl rfl)) fun t herr hnone hword hpm _ => ⟨herr, hnone, ?_, fun k hk => hword _ (hoff k hk)⟩
      exact Dev.heldLo_congr (hpm _ (by omega)) (hpm _ (by omega)) (hword a (hoff 0 (by decide)))
    · exact Completes.of_refusedHalf (a := a + 4) (ho.half hn (k := 3) (by decide)) hst hg hw (fun u hu => agree _ u hf hu hvw)
        (ho.refused (Or.inr rfl)) fun t herr hnone hword _ _ => ⟨herr, hnone, fun k hk => hword _ (hoff k hk)⟩
  · have other : ∀ {t : Dev}, a < 0x034000 → (∀ o b, o ≠ m → a + 2 < 0x1000000 → b < 0x1000000 → t.pmWord o b = s.dev.pmWord o b) →
        ∀ o < 8, o ≠ m → t.firstHalf o a = s.dev.firstHalf o a := fun ha hpm o _ ho =>
      Dev.firstHalf_congr (hpm o _ ho (by omega) (by omega)) (hpm o _ ho (by omega) (by omega))
    obtain ⟨ha, hb⟩ | ⟨b, o, j, ho, hj, ha, hb⟩ := secondHalf_cases hak
    · rw [hb] at hg ⊢
      subst ha
      exact Completes.of_refusedHalf (spoC_half hn) hst hg hw (fun u hu => none _ u hf hu) spo_refused
        fun t herr _ hword _ hpm => ⟨herr, hword _ hspo.1, hword _ hspo.2, other (by unfold rPAD_SPO; omega) hpm⟩
    · have haddr := ho.addr
      rw [hb] at hg ⊢
      subst ha
      exact Completes.of_refusedHalf (ho.half hn (k := j + 2) (by omega)) hst hg hw (fun u hu => none _ u hf hu) (ho.refused hj)
        fun t herr _ hword _ hpm => ⟨herr, hword _ (ho.not_offCpl hn (by omega)), hword _ (ho.not_offCpl hn (by omega)), other (by omega) hpm⟩
  · exact Completes.of_firstHalf (spo_half hn) hspo.1 hst hg hv fun _ => rfl
  · exact Completes.of_spo hn hst hg hw hf hvw
  · exact Completes.of_refusedHalf (spoC_half hn) hst hg hw (fun u hu => agree _ u hf hu hvw) spo_refused
      fun t herr hnone hword _ _ => ⟨hword _ hspo.1, herr, hnone⟩

end Sys2Proof.Machine
end

section
/-!
PROOF. What the rest of an update leaves of its counts, its error and its queues (04 R105, R107, R112, R113, R117, R118, R123, R131;
05 R158, R159; 07 R201; O50).
-/

namespace Sys2Proof.Machine

variable {r n : Nat} {d e : Dev}

/-- The registers that an update of a paddock with telemetry to ring `r` can write. -/
def UpdReg (r a : Nat) : Prop := PadSide a ∨ a = rTQ_STAT r ∨ a = rTQ_DROP r

/-- The registers that the rest of an update leaves: its count, its error and the plan of its telemetry. -/
def UpdKeeps (n a : Nat) : Prop := a = rPAD_UPD n ∨ a = rPAD_PERR n ∨ a = rPAD_TEL n

/-- The parts of a paddock that the rest of an update leaves: its queues and the count of the history second. -/
def Paddock.queues (p : Paddock) : List (Nat × Int) × List Nat × Nat := (p.refQ, p.fbQ, p.secUpd)

/-- What the rest of an update leaves. -/
structure Upd (r n : Nat) (d e : Dev) : Prop where
  apart : Apart (UpdReg r) d e
  word : ∀ a, UpdKeeps n a → e.word a = d.word a
  len : e.pads.length = d.pads.length
  queues : (e.pad n).queues = (d.pad n).queues

theorem updKeeps_range {a : Nat} (hn : n < 16) (h : UpdKeeps n a) : 0x030000 ≤ a ∧ a < 0x034000 := by
  unfold UpdKeeps rPAD_UPD rPAD_PERR rPAD_TEL at h
  omega

theorem not_updKeeps_pad {b : Nat} (h1 : b ≠ 0x030074 := by decide) (h2 : b ≠ 0x030034 := by decide) (h3 : b ≠ 0x0300A0 := by decide) :
    ¬ UpdKeeps n (b + 0x400 * n) := by
  unfold UpdKeeps rPAD_UPD rPAD_PERR rPAD_TEL
  omega

namespace Upd

theorem refl (r n : Nat) (d : Dev) : Upd r n d d := ⟨Apart.refl _ d, fun _ _ => rfl, rfl, rfl⟩

theorem trans {f : Dev} (h : Upd r n d e) (h' : Upd r n e f) : Upd r n d f :=
  ⟨h.apart.trans h'.apart, fun a ha => (h'.word a ha).trans (h.word a ha), h'.len.trans h.len, h'.queues.trans h.queues⟩

/-- An update within the registers of the paddocks' side that leaves those of a paddock's counts and the paddocks' parts. -/
theorem of_side (h : Apart PadSide d e) (hw : ∀ a, UpdKeeps n a → e.word a = d.word a) (hp : e.pads = d.pads) : Upd r n d e :=
  ⟨h.mono fun _ => Or.inl, hw, by rw [hp], by unfold Dev.pad; rw [hp]⟩

theorem of_heard (h : Apart PadSide d e) (hh : Heard d e) (hn : n < 16) : Upd r n d e :=
  of_side h (fun _ ha => hh.word _ (Or.inr (Or.inl (updKeeps_range hn ha)))) hh.pads

theorem of_worded (h : Apart PadSide d e) (hw : Worded (WordAt n) d e) (hn : n < 16) : Upd r n d e where
  apart := h.mono fun _ => Or.inl
  word a ha := hw.word a fun hb => by
    unfold UpdKeeps rPAD_UPD rPAD_PERR rPAD_TEL at ha
    unfold WordAt rPAD_FW_LO rPAD_FW_HI at hb
    omega
  len := hw.len
  queues := hw.pad Paddock.queues (fun _ _ _ => rfl) n

variable {d0 : Dev}

theorem setPad (h : Upd r n d0 d) (f : Paddock → Paddock) (hf : ∀ p, (f p).queues = p.queues := by intro p; simp only [Paddock.queues]) : Upd r n d0 (d.setPad n f) :=
  h.trans ⟨(Apart.refl _ d).setPad n f, fun _ _ => rfl, Dev.pads_setPad f, Dev.pad_setPad_of_same Paddock.queues hf n⟩

theorem setSel (h : Upd r n d0 d) (f : Select → Select) : Upd r n d0 (d.setSel n f) :=
  h.trans (of_side ((Apart.refl _ d).setSel n f) (fun _ _ => rfl) rfl)

theorem wr (h : Upd r n d0 d) (f : Fld) (v : Nat) (hf : PadSide f.addr) (hk : ¬ UpdKeeps n f.addr) : Upd r n d0 (d.wr f v) :=
  h.trans (of_side ((Apart.refl _ d).wr f v hf) (fun _ ha => Dev.word_setWord_of_ne _ _ _ _ fun hab => hk (hab ▸ ha)) rfl)

theorem wr48 (h : Upd r n d0 d) (lo hi : Fld) (v : Int) (hl : PadSide lo.addr) (hl' : ¬ UpdKeeps n lo.addr) (hh : PadSide hi.addr)
    (hh' : ¬ UpdKeeps n hi.addr) : Upd r n d0 (d.wr48 lo hi v) := (h.wr lo _ hl hl').wr hi _ hh hh'

theorem evt (h : Upd r n d0 d) (f : Fld) (hf : PadSide f.addr) (hk : ¬ UpdKeeps n f.addr) : Upd r n d0 (d.evt f) :=
  h.trans (of_side ((Apart.refl _ d).evt f hf) (fun _ ha => Dev.word_evtMask_of_ne _ _ fun hab => hk (hab ▸ ha))
    (Still.evt (A := (· = f.addr)) d f rfl).pads)

theorem evtIf (h : Upd r n d0 d) (b : Bool) (f : Fld) (hf : PadSide f.addr) (hk : ¬ UpdKeeps n f.addr) : Upd r n d0 (d.evtIf b f) := by
  unfold Dev.evtIf
  split
  · exact h.evt f hf hk
  · exact h

theorem when (h : Upd r n d0 d) (b : Bool) {f : Dev → Dev} (hf : Upd r n d (f d)) : Upd r n d0 (d.when b f) := by
  cases b
  · exact h
  · exact h.trans hf

theorem fire (h : Upd r n d0 d) (src detail : Nat) (hn : n < 16) : Upd r n d0 (d.fire src detail) :=
  h.trans (of_heard ((Apart.refl _ d).fire src detail PadSide.firing) (Heard.fireAs ..) hn)

theorem setBo (h : Upd r n d0 d) (hn : n < 16) (v : Int) : Upd r n d0 (d.setBo n v) :=
  h.wr48 _ _ _ (.pad hn) not_updKeeps_pad (.pad hn) not_updKeeps_pad

theorem setWordY (h : Upd r n d0 d) (hn : n < 16) (y : Int) : Upd r n d0 (d.setWordY n y) :=
  h.trans (of_worded ((Apart.refl _ d).setWordY hn y) (Worded.setWordY n y d) hn)

theorem stepDevice (h : Upd r n d0 d) (hn : n < 16) (u : Int) : Upd r n d0 (d.stepDevice n u) := by
  have hstep : Upd r n d ({ d with clk := d.clk.stepped u } : Dev) := of_side ((Apart.refl _ d).setDev _) (fun _ _ => rfl) rfl
  have hdone := hstep.evt (PAD_HIST_STEP_DONE n) (.pad hn) not_updKeeps_pad
  have hrest := (Dev.stepDevice_spec n u d).1
  refine h.trans ⟨((Apart.refl _ d).stepDevice hn u).mono fun _ => Or.inl, fun a ha => ?_, ?_, ?_⟩
  · exact (hrest.word a (Or.inr (Or.inl (updKeeps_range hn ha)))).trans (hdone.word a ha)
  · rw [hrest.pads]
    exact hdone.len
  · refine Eq.trans ?_ hdone.queues
    unfold Dev.pad
    rw [hrest.pads]

theorem takeStep (h : Upd r n d0 d) (hn : n < 16) : Upd r n d0 (d.takeStep n) := by
  unfold Dev.takeStep
  split
  · exact h
  · dsimp only
    split
    · exact (h.setPad _).evt _ (.pad hn) not_updKeeps_pad
    · exact (h.setPad _).stepDevice hn _

/-! ### States and the ladder (R117, R118) -/

theorem padTake (h : Upd r n d0 d) (hn : n < 16) (st : Nat) : Upd r n d0 (d.padTake n st) := by
  unfold Dev.padTake
  dsimp only
  refine when ?_ _ (fire (refl ..) 24 n hn)
  refine when ?_ _ (setPad (refl ..) _ fun _ => rfl)
  refine when ?_ _ (((refl ..).setPad _).wr (PAD_STATE_SLEWING n) _ (.pad hn) not_updKeeps_pad)
  refine when ?_ _ ((refl ..).wr (PAD_STATE_CLAMPED n) _ (.pad hn) not_updKeeps_pad)
  exact (h.wr (PAD_STATE_STATE n) st (.pad hn) not_updKeeps_pad).evtIf _ (histBit n st) (.pad hn) not_updKeeps_pad

theorem setBw (h : Upd r n d0 d) (hn : n < 16) (b : Nat × Nat) (s : Nat) (t : Bool) : Upd r n d0 (d.setBw n b s t) :=
  ((h.setPad _).wr _ _ (.pad hn) not_updKeeps_pad).wr _ _ (.pad hn) not_updKeeps_pad

theorem startLadder (h : Upd r n d0 d) (hn : n < 16) (runs : Bool) : Upd r n d0 (d.startLadder n runs) := by
  unfold Dev.startLadder
  dsimp only
  split
  · exact h.setBw hn _ _ _
  · exact h.setBw hn _ _ _

theorem unlock (h : Upd r n d0 d) (hn : n < 16) : Upd r n d0 (d.unlock n) :=
  startLadder (((h.padTake hn 1).evt (PAD_HIST_UNLOCK n) (.pad hn) not_updKeeps_pad).setPad _) hn _

theorem lock (h : Upd r n d0 d) (hn : n < 16) : Upd r n d0 (d.lock n) := (h.padTake hn 2).setPad _

theorem padDwell (h : Upd r n d0 d) (hn : n < 16) (e : Int) : Upd r n d0 (d.padDwell n e) := by
  have hset : ∀ (x : Nat) , Upd r n d0 (d.setPad n fun p => { p with dwell := x }) := fun x => h.setPad _
  unfold Dev.padDwell
  dsimp only
  split
  · split
    · split
      · exact h.unlock hn
      · exact h.setPad _
    · exact h.setPad _
  · split
    · split
      · exact hset 0
      · split
        · exact h.lock hn
        · exact h.setPad _
    · split
      · exact hset 0
      · split
        · split
          · exact (h.setBw hn _ _ _).setPad _
          · exact (h.setBw hn _ _ _).setPad _
        · exact h.setPad _
  · exact h

/-! ### The filter, the slew, the pull-in and the hold (R113, R123; 05 R158, R159) -/

theorem padClamped (h : Upd r n d0 d) (hn : n < 16) (c : Bool) : Upd r n d0 (d.padClamped n c) :=
  (h.wr (PAD_STATE_CLAMPED n) _ (.pad hn) not_updKeeps_pad).evtIf c (PAD_HIST_CLAMP n) (.pad hn) not_updKeeps_pad

theorem filterUpdate (h : Upd r n d0 d) (hn : n < 16) (e : Int) : Upd r n d0 (d.filterUpdate n e) :=
  ((h.setPad _).setWordY hn _).padClamped hn _

theorem padSlew (h : Upd r n d0 d) (hn : n < 16) : Upd r n d0 (d.padSlew n).1 := by
  unfold Dev.padSlew
  dsimp only
  split
  · exact h
  · exact (h.setPad _).wr (PAD_STATE_SLEWING n) _ (.pad hn) not_updKeeps_pad

theorem steeredUpdate (h : Upd r n d0 d) (hn : n < 16) : Upd r n d0 (d.steeredUpdate n) :=
  ((h.setPad _).padSlew hn).setWordY hn _

theorem padPull (h : Upd r n d0 d) (hn : n < 16) : Upd r n d0 (d.padPull n) := by
  unfold Dev.padPull
  extract_lets q rate acc m s x y
  clear_value rate acc m s
  split
  · exact h
  · have hx : Upd r n d0 x := h.setPad _
    have hy : Upd r n d0 y := (hx.setBo hn _).wr48 (PAD_PULL_REM_LO_Q n) (PAD_PULL_REM_HI_Q n) _ (.pad hn) not_updKeeps_pad (.pad hn)
      not_updKeeps_pad
    exact hy.wr (PAD_SEL_STAT_PULLING n) _ (.pad hn) not_updKeeps_pad

theorem holdUpdate (h : Upd r n d0 d) (hn : n < 16) (u : Int) : Upd r n d0 (d.holdUpdate n u) := by
  unfold Dev.holdUpdate
  dsimp only
  split
  · exact (h.setSel _).wr (PAD_SEL_STAT_HOLD_LEFT n) _ (.pad hn) not_updKeeps_pad
  · refine ((setSel (when ((h.setSel _).setBo hn _) _ ?_) _).wr (PAD_SEL_STAT_HOLDING n) _ (.pad hn) not_updKeeps_pad).wr
      (PAD_SEL_STAT_HOLD_LEFT n) _ (.pad hn) not_updKeeps_pad
    exact ((refl ..).wr48 (PAD_PULL_REM_LO_Q n) (PAD_PULL_REM_HI_Q n) _ (.pad hn) not_updKeeps_pad (.pad hn) not_updKeeps_pad).wr
      (PAD_SEL_STAT_PULLING n) _ (.pad hn) not_updKeeps_pad

theorem acqStep (h : Upd r n d0 d) (hn : n < 16) (e : Int) (link : Bool) : Upd r n d0 (d.acqStep n e link) := by
  unfold Dev.acqStep
  split
  · exact h.stepDevice hn _
  · exact h.stepDevice hn _

end Upd

end Sys2Proof.Machine
end

section
/-!
PROOF. An update of a paddock: its count, its error, its queues and the registers that it can reach (04 R105, R107, R113, R131; O50).
-/

namespace Sys2Proof.Machine

variable {r n : Nat} {d e : Dev}

namespace Upd

variable {d0 : Dev}

/-! ### Telemetry (R131) -/

theorem ringWr (h : Upd r n d0 d) (hn : n < 16) (f : Fld) (v : Nat) (hf : f.addr = rTQ_STAT r ∨ f.addr = rTQ_DROP r) : Upd r n d0 (d.wr f v) := by
  refine h.trans ⟨(Apart.refl _ d).wr f v (Or.inr hf), fun a ha => Dev.word_setWord_of_ne _ _ _ _ fun hab => ?_, rfl, rfl⟩
  have hr := updKeeps_range hn ha
  unfold rTQ_STAT rTQ_DROP at hf
  omega

theorem ringEvt (h : Upd r n d0 d) (hn : n < 16) (f : Fld) (hf : f.addr = rTQ_STAT r) : Upd r n d0 (d.evt f) := by
  have hs := Still.evt (A := (· = f.addr)) d f rfl
  refine h.trans ⟨(Apart.refl _ d).evt f (Or.inr (Or.inl hf)), fun a ha => Dev.word_evtMask_of_ne _ _ fun hab => ?_, by rw [hs.pads],
    by unfold Dev.pad; rw [hs.pads]⟩
  have hr := updKeeps_range hn ha
  unfold rTQ_STAT at hf
  omega

theorem addPaddock (h : Upd r n d0 d) (hn : n < 16) (s k c tag pay : Nat) (inj : Bool) : Upd r n d0 (d.addData r (.paddock s k c tag pay inj)) := by
  unfold Dev.addData
  split
  · exact ringEvt (ringWr (h.ringEvt hn (TQ_STAT_FULL r) rfl) hn (TQ_DROP_DROP r) _ (Or.inr rfl)) hn (TQ_STAT_DROP r) rfl
  · exact h.trans ⟨(Apart.refl _ d).setRing r _, fun _ _ => rfl, rfl, rfl⟩

theorem padTelemetry (h : Upd r n d0 d) (hn : n < 16) (e : Int) (hr : r = d.rd (PAD_TEL_TEL_RING n)) : Upd r n d0 (d.padTelemetry n e) := by
  unfold Dev.padTelemetry
  split
  · exact h.setPad _
  · split
    · exact h.setPad _
    · extract_lets x q tgt step freq payload ch
      have hx : Upd r n d0 x := h.setPad _
      have hq : q = r := hr.symm
      clear_value x q step freq payload ch
      subst hq
      split
      · exact (hx.ringWr hn (TQ_DROP_DROP q) _ (Or.inr rfl)).evt _ (.pad hn) not_updKeeps_pad
      · exact hx.addPaddock hn _ _ _ _ _ _

end Upd

/-! ### The rest of a phase update -/

/-- The build-out as an update starts: what is left of a phase jump is absorbed, and a first update with ACQ_PHASE clears it. -/
def Dev.phaseStart (n : Nat) (absorb : Int) (d : Dev) : Dev :=
  let x := d.setBo n (d.padBo n - absorb)
  x.when ((x.pad n).first && x.flag (PAD_CTL_ACQ_PHASE n)) fun d => d.setBo n 0

/-- An update shows its error and counts. -/
def Dev.showErr (n : Nat) (e : Int) (d : Dev) : Dev := (d.wr (PAD_PERR_ERR n) (twos 32 (satI 32 e))).bump (PAD_UPD_COUNT n)

/-- A phase update shows its error and counts, goes on within what an update leaves, and ends. -/
theorem Dev.phaseUpdate_eq (r : Nat) (hn : n < 16) (raw absorb : Int) (link : Bool) (d : Dev) {y : Dev} (hy : y = d.phaseStart n absorb) :
    ∃ x, Upd r n (y.showErr n (y.phaseErr n raw link)) x ∧ d.phaseUpdate n raw absorb link = x.padFinish n (y.phaseErr n raw link) := by
  unfold Dev.phaseUpdate
  extract_lets x first acq z err w v h1 u h2 back absorbAll step p1 p2 e' p3 p4 p5
  have hz : z = y := hy.symm
  have hv : Upd r n (y.showErr n (y.phaseErr n raw link)) v := by
    rw [← hz]
    exact Upd.takeStep (Upd.refl ..) hn
  have he : err = y.phaseErr n raw link := by rw [← hz]
  rw [← he] at hv ⊢
  clear_value v err
  split
  · have hh1 : Upd r n (y.showErr n err) h1 := hv.when _ ((Upd.refl ..).setBo hn _)
    have hh2 : Upd r n (y.showErr n err) h2 := ((hh1.padPull hn).holdUpdate hn u).wr (PAD_STATE_FB_LOSS n) 0 (.pad hn) not_updKeeps_pad
    exact ⟨_, hh2.when _ ((Upd.refl ..).steeredUpdate hn), rfl⟩
  · have hp1 : Upd r n (y.showErr n err) p1 := hv.when _ ((Upd.refl ..).setBo hn _)
    have hp2 : Upd r n (y.showErr n err) p2 := hp1.when _ ((Upd.refl ..).acqStep hn err link)
    have hp3 : Upd r n (y.showErr n err) p3 := (hp2.setPad _).wr (PAD_STATE_FB_LOSS n) 0 (.pad hn) not_updKeeps_pad
    have hp4 : Upd r n (y.showErr n err) p4 := hp3.setSel _
    refine ⟨_, Upd.padPull ?_ hn, rfl⟩
    unfold p5
    split
    · exact hp4.steeredUpdate hn
    · split
      · exact hp4
      · split
        · exact (hp4.filterUpdate hn 0).when _ ((Upd.refl ..).padDwell hn 0)
        · exact (hp4.filterUpdate hn e').padDwell hn e'

/-! ### What an update leaves -/

/-- An update with error `err` has counted, within the registers of an update with telemetry to ring `r`. -/
structure Counted (r n : Nat) (err : Int) (d e : Dev) : Prop where
  apart : Apart (UpdReg r) d e
  upd : e.rd (PAD_UPD_COUNT n) = (d.rd (PAD_UPD_COUNT n) + 1) % 2 ^ 32
  perr : e.rdS (PAD_PERR_ERR n) = satI 32 err
  refQ : (e.pad n).refQ = (d.pad n).refQ
  fbQ : (e.pad n).fbQ = (d.pad n).fbQ
  secUpd : n < d.pads.length → (e.pad n).secUpd = (d.pad n).secUpd + 1

theorem satI_range (e : Int) : -(2 ^ 31) ≤ satI 32 e ∧ satI 32 e < 2 ^ 31 := by
  unfold satI clampI
  split
  · decide
  · split
    · decide
    · omega

theorem Dev.showErr_spec (hn : n < 16) (err : Int) (d : Dev) :
    Apart PadSide d (d.showErr n err) ∧ (d.showErr n err).rd (PAD_UPD_COUNT n) = (d.rd (PAD_UPD_COUNT n) + 1) % 2 ^ 32 ∧
      (d.showErr n err).rdS (PAD_PERR_ERR n) = satI 32 err ∧ (d.showErr n err).rd (PAD_TEL_TEL_RING n) = d.rd (PAD_TEL_TEL_RING n) := by
  have h1 : rPAD_UPD n ≠ rPAD_PERR n := by unfold rPAD_UPD rPAD_PERR; omega
  have h2 : rPAD_TEL n ≠ rPAD_PERR n ∧ rPAD_TEL n ≠ rPAD_UPD n := by unfold rPAD_UPD rPAD_PERR rPAD_TEL; omega
  obtain ⟨hlo, hhi⟩ := satI_range err
  have htw : twos 32 (satI 32 err) < 2 ^ 32 := by unfold twos; omega
  refine ⟨((Apart.refl _ d).wr _ _ (.pad hn)).wr _ _ (.pad hn), ?_, ?_, ?_⟩
  · refine (Dev.bump_rd _ ⟨show 0 ≤ 31 by decide, show 31 < 32 by decide⟩).trans ?_
    rw [Dev.rd_wr_of_ne d (PAD_PERR_ERR n) (PAD_UPD_COUNT n) _ h1]
    rfl
  · unfold Dev.rdS
    have hrd : (d.showErr n err).rd (PAD_PERR_ERR n) = twos 32 (satI 32 err) := by
      refine (Dev.rd_wr_of_ne _ (PAD_UPD_COUNT n) (PAD_PERR_ERR n) _ h1.symm).trans ?_
      rw [Dev.rd_wr_self d _ _ ⟨show 0 ≤ 31 by decide, show 31 < 32 by decide⟩]
      exact Nat.mod_eq_of_lt htw
    rw [hrd]
    exact sext_twos (n := 32) (satI 32 err) (by decide) hlo hhi
  · exact (Dev.rd_wr_of_ne _ (PAD_UPD_COUNT n) (PAD_TEL_TEL_RING n) _ h2.2).trans
      (Dev.rd_wr_of_ne d (PAD_PERR_ERR n) (PAD_TEL_TEL_RING n) _ h2.1)

/-- The counts of the history second take an update of word `y`. -/
def Paddock.tally (y : Int) (p : Paddock) : Paddock := { p with secSum := p.secSum + y, secUpd := p.secUpd + 1 }

theorem Dev.padFinish_eq (x : Dev) (err : Int) : x.padFinish n err = (x.setPad n (.tally (x.padWord n))).padTelemetry n err := rfl

/-- The end of an update that has gone on within what an update leaves. -/
theorem Counted.of_finish {x : Dev} {err : Int} (hn : n < 16) (hr : r = d.rd (PAD_TEL_TEL_RING n)) (h : Upd r n (d.showErr n err) x) (err' : Int) :
    Counted r n err d (x.padFinish n err') := by
  obtain ⟨hside, hupd, hperr, htel⟩ := d.showErr_spec hn err
  have hring : r = (x.setPad n (.tally (x.padWord n))).rd (PAD_TEL_TEL_RING n) :=
    hr.trans (htel.symm.trans (Dev.rd_of_word (f := PAD_TEL_TEL_RING n) (h.word (rPAD_TEL n) (Or.inr (Or.inr rfl)))).symm)
  have hset : Apart (UpdReg r) x (x.setPad n (.tally (x.padWord n))) :=
    (Apart.refl _ x).setPad n _
  have hrefQ := Dev.pad_setPad_of_same (d := x) (n := n) Paddock.refQ (f := .tally (x.padWord n)) (fun _ => rfl) n
  have hfbQ := Dev.pad_setPad_of_same (d := x) (n := n) Paddock.fbQ (f := .tally (x.padWord n)) (fun _ => rfl) n
  have hself := fun hl : n < x.pads.length => Dev.pad_setPad_self (d := x) (.tally (x.padWord n)) hl
  rw [Dev.padFinish_eq]
  have hwords : ∀ a, (x.setPad n (.tally (x.padWord n))).word a = x.word a := fun _ => rfl
  revert hring hset hrefQ hfbQ hself hwords
  generalize (x.setPad n (.tally (x.padWord n))) = y
  intro hring hset hrefQ hfbQ hself hwords
  have ht := Upd.padTelemetry (Upd.refl r n y) hn err' hring
  have hq := ht.queues
  have hq' := h.queues
  have hword : ∀ a, UpdKeeps n a → (y.padTelemetry n err').word a = (d.showErr n err).word a := fun a ha =>
    (ht.word a ha).trans ((hwords a).trans (h.word a ha))
  unfold Paddock.queues at hq hq'
  simp only [Prod.mk.injEq] at hq hq'
  refine ⟨(((hside.mono fun _ => Or.inl).trans h.apart).trans hset).trans ht.apart, ?_, ?_, ?_, ?_, fun hl => ?_⟩
  · exact (Dev.rd_of_word (f := PAD_UPD_COUNT n) (hword _ (Or.inl rfl))).trans hupd
  · refine Eq.trans ?_ hperr
    unfold Dev.rdS
    rw [Dev.rd_of_word (f := PAD_PERR_ERR n) (hword _ (Or.inr (Or.inl rfl)))]
  · exact hq.1.trans (hrefQ.trans hq'.1)
  · exact hq.2.1.trans (hfbQ.trans hq'.2.1)
  · rw [hq.2.2, hself (h.len.symm ▸ hl)]
    exact congrArg (· + 1) hq'.2.2

end Sys2Proof.Machine
end

section
/-!
PROOF. The pairing of timestamps, skipped updates, and the loss of feedback (04 R105, R107; O50).
-/

namespace Sys2Proof.Machine

variable {r n : Nat} {d e : Dev}

/-- The queues of a paddock as its oldest reference timestamp is taken. -/
def Paddock.paired (rest : List (Nat × Int)) (fb : List Nat) (p : Paddock) : Paddock := { p with refQ := rest, fbQ := fb }

/-- An update that cannot be: nothing is done. -/
theorem Dev.padUpdate_none (h : d.padLive n = false ∨ d.padKind n = 1 ∨ d.padKind n = 3 ∨ (d.pad n).refQ = []) : d.padUpdate n = d := by
  unfold Dev.padUpdate
  dsimp only
  split
  · rfl
  · rename_i hlive
    obtain h | h | h | h := h
    · exact absurd (Or.inl (by simp [h])) hlive
    · exact absurd (Or.inr (Or.inl h)) hlive
    · exact absurd (Or.inr (Or.inr h)) hlive
    · rw [h]

/-- The oldest reference timestamp is paired, or skipped. -/
theorem Dev.padUpdate_takes {t : Nat} {absorb : Int} {rest : List (Nat × Int)} {q : Int} {later : List Nat} (hlive : d.padLive n = true)
    (hk1 : d.padKind n ≠ 1) (hk3 : d.padKind n ≠ 3) (hq : (d.pad n).refQ = (t, absorb) :: rest) (hr : q = t + d.refShift n)
    (hl : later = (d.pad n).fbQ.filter (d.pairFrom n q)) :
    (later.find? (d.pairTo n q) = none → d.padUpdate n =
      ((d.setPad n (.paired rest later)).setBo n ((d.setPad n (.paired rest later)).padBo n - absorb)).padSkip n) ∧
    ∀ f, later.find? (d.pairTo n q) = some f → d.padUpdate n =
      (d.setPad n (.paired rest (later.dropWhile fun g => decide (g ≠ f)).tail)).phaseUpdate n (f - q) absorb false := by
  subst hr hl
  unfold Dev.padUpdate
  dsimp only
  rw [if_neg (by simp [hlive, hk1, hk3]), hq]
  dsimp only
  exact ⟨fun h => by rw [h]; rfl, fun f h => by rw [h]; rfl⟩

/-- A skipped update. -/
theorem Dev.padSkip_spec (hl : n < d.pads.length) :
    (d.padSkip n).rd (PAD_SKIP_COUNT n) = (d.rd (PAD_SKIP_COUNT n) + 1) % 2 ^ 32 ∧ (d.padSkip n).flag (PAD_HIST_SKIP n) = true ∧
      ((d.padSkip n).pad n).secUsable = false ∧ ((d.padSkip n).pad n).queues = (d.pad n).queues ∧
      Apart (fun a => a = rPAD_SKIP n ∨ a = rPAD_HIST n) d (d.padSkip n) := by
  have hne : rPAD_SKIP n ≠ rPAD_HIST n := by unfold rPAD_SKIP rPAD_HIST; omega
  have hpads : ((d.bump (PAD_SKIP_COUNT n)).evt (PAD_HIST_SKIP n)).pads = d.pads := (Still.evt (A := (· = rPAD_HIST n)) _ (PAD_HIST_SKIP n) rfl).pads
  have hcount : ((d.bump (PAD_SKIP_COUNT n)).evt (PAD_HIST_SKIP n)).rd (PAD_SKIP_COUNT n) = (d.rd (PAD_SKIP_COUNT n) + 1) % 2 ^ 32 :=
    (Dev.rd_evt_of_ne _ (PAD_HIST_SKIP n) (PAD_SKIP_COUNT n) hne).trans (Dev.bump_rd d ⟨show 0 ≤ 31 by decide, show 31 < 32 by decide⟩)
  have hflag : ((d.bump (PAD_SKIP_COUNT n)).evt (PAD_HIST_SKIP n)).flag (PAD_HIST_SKIP n) = true :=
    Dev.flag_evt_self _ _ rfl (show 6 < 24 by decide)
  have hap : Apart (fun a => a = rPAD_SKIP n ∨ a = rPAD_HIST n) d ((d.bump (PAD_SKIP_COUNT n)).evt (PAD_HIST_SKIP n)) :=
    ((Apart.refl _ d).bump (PAD_SKIP_COUNT n) (Or.inl rfl)).evt (PAD_HIST_SKIP n) (Or.inr rfl)
  unfold Dev.padSkip
  revert hpads hcount hflag hap
  generalize (d.bump (PAD_SKIP_COUNT n)).evt (PAD_HIST_SKIP n) = x
  intro hpads hcount hflag hap
  refine ⟨hcount, hflag, ?_, ?_, hap.padUnusable n⟩
  · unfold Dev.padUnusable
    rw [Dev.pad_setPad_self _ (hpads.symm ▸ hl)]
  · refine (Dev.pad_setPad_of_same Paddock.queues (fun p => by simp only [Paddock.queues]) n).trans ?_
    unfold Dev.pad
    rw [hpads]

theorem Dev.padBo_congr {x y : Dev} (h1 : y.word (rPAD_BO_LO n) = x.word (rPAD_BO_LO n)) (h2 : y.word (rPAD_BO_HI n) = x.word (rPAD_BO_HI n)) :
    y.padBo n = x.padBo n := by
  unfold Dev.padBo Dev.rd48S Dev.rd48
  rw [Dev.rd_of_word (f := PAD_BO_LO_BO n) h1, Dev.rd_of_word (f := PAD_BO_HI_BO n) h2]

/-! ### The error and the reach of an update -/

/-- The error asks of a paddock's registers and of its steered offset alone. -/
theorem Dev.phaseErr_setPad {f : Paddock → Paddock} (h : ∀ p, (f p).so = p.so) (x : Dev) (raw : Int) (link : Bool) :
    (x.setPad n f).phaseErr n raw link = x.phaseErr n raw link := by
  unfold Dev.phaseErr
  rw [Dev.pad_setPad_of_same Paddock.so h n]
  rfl

theorem Upd.phaseStart (hn : n < 16) (absorb : Int) (d : Dev) : Upd r n d (d.phaseStart n absorb) :=
  ((Upd.refl r n d).setBo hn _).when _ ((Upd.refl ..).setBo hn 0)

theorem Dev.phaseStart_later {absorb : Int} (h : (d.pad n).first = false) : d.phaseStart n absorb = d.setBo n (d.padBo n - absorb) := by
  have hf : ((d.setBo n (d.padBo n - absorb)).pad n).first = false := h
  unfold Dev.phaseStart
  dsimp only
  rw [hf]
  rfl

theorem Counted.of_upd {x : Dev} {err : Int} (hu : Upd r n d x) (h : Counted r n err x e) : Counted r n err d e := by
  have hq := hu.queues
  unfold Paddock.queues at hq
  simp only [Prod.mk.injEq] at hq
  exact ⟨hu.apart.trans h.apart, h.upd.trans (by rw [Dev.rd_of_word (f := PAD_UPD_COUNT n) (hu.word _ (Or.inl rfl))]), h.perr,
    h.refQ.trans hq.1, h.fbQ.trans hq.2.1, fun hl => (h.secUpd (hu.len.symm ▸ hl)).trans (by rw [hq.2.2])⟩

theorem Dev.phaseUpdate_counted (hn : n < 16) (hr : r = d.rd (PAD_TEL_TEL_RING n)) (raw absorb : Int) (link : Bool) :
    Counted r n ((d.phaseStart n absorb).phaseErr n raw link) d (d.phaseUpdate n raw absorb link) := by
  have hs : Upd r n d (d.phaseStart n absorb) := Upd.phaseStart hn absorb d
  have htel : r = (d.phaseStart n absorb).rd (PAD_TEL_TEL_RING n) :=
    hr.trans (Dev.rd_of_word (f := PAD_TEL_TEL_RING n) (hs.word _ (Or.inr (Or.inr rfl)))).symm
  obtain ⟨x, hx, heq⟩ := Dev.phaseUpdate_eq r hn raw absorb link d rfl
  rw [heq]
  exact (Counted.of_finish hn htel hx _).of_upd hs

/-- The registers that an update of the obligation can reach. -/
theorem UpdReg.at {a : Nat} (h : UpdReg r a) : selectionAt a ∨ a = rTQ_STAT r ∨ a = rTQ_DROP r := h.imp PadSide.at id

theorem Dev.absorbSkip_side (hn : n < 16) (v : Int) (x : Dev) : Apart PadSide x ((x.setBo n v).padSkip n) :=
  ((((Apart.refl PadSide x).wr48 (PAD_BO_LO_BO n) (PAD_BO_HI_BO n) v (.pad hn) (.pad hn)).bump (PAD_SKIP_COUNT n) (.pad hn)).evt
    (PAD_HIST_SKIP n) (.pad hn)).padUnusable n

theorem Dev.padUpdate_reach (hn : n < 16) (d : Dev) : Apart (UpdReg (d.rd (PAD_TEL_TEL_RING n))) d (d.padUpdate n) := by
  by_cases hnone : d.padLive n = false ∨ d.padKind n = 1 ∨ d.padKind n = 3 ∨ (d.pad n).refQ = []
  · rw [Dev.padUpdate_none hnone]
    exact Apart.refl _ d
  · simp only [not_or, Bool.not_eq_false] at hnone
    obtain ⟨hlive, hk1, hk3, hne⟩ := hnone
    obtain ⟨⟨t, absorb⟩, rest, hq⟩ := List.exists_cons_of_ne_nil hne
    obtain ⟨hskip, hpair⟩ := Dev.padUpdate_takes hlive hk1 hk3 hq rfl rfl
    have hset : ∀ f, Apart (UpdReg (d.rd (PAD_TEL_TEL_RING n))) d (d.setPad n f) := fun f => (Apart.refl _ d).setPad n f
    cases hf : ((d.pad n).fbQ.filter (d.pairFrom n (t + d.refShift n))).find? (d.pairTo n (t + d.refShift n)) with
    | none =>
      rw [hskip hf]
      exact (hset (.paired rest _)).trans ((Dev.absorbSkip_side hn _ _).mono fun _ => Or.inl)
    | some f =>
      obtain ⟨l, heq⟩ : ∃ l, d.padUpdate n = (d.setPad n (.paired rest l)).phaseUpdate n (f - (t + d.refShift n)) absorb false :=
        ⟨_, hpair f hf⟩
      have htel : d.rd (PAD_TEL_TEL_RING n) = (d.setPad n (.paired rest l)).rd (PAD_TEL_TEL_RING n) := rfl
      rw [heq]
      exact (hset _).trans (Dev.phaseUpdate_counted hn htel _ absorb false).apart

end Sys2Proof.Machine
end

section
/-!
PROOF. Updates of STEER paddocks, and the gates that make them (07 R196 to R199, R201; O50).
-/

namespace Sys2Proof.Machine

variable {r n k : Nat} {d e : Dev}

namespace Upd

variable {d0 : Dev}

/-! ### Ports (R199, R201) -/

theorem setPort (h : Upd r n d0 d) (k : Nat) (f : Port → Port) : Upd r n d0 (d.setPort k f) :=
  h.trans (of_side ((Apart.refl _ d).setPort k f) (fun _ _ => rfl) rfl)

/-- A register beyond the paddocks. -/
theorem not_keeps {b c k : Nat} (hn : n < 16) (h : 0x034000 ≤ b := by decide) : ¬ UpdKeeps n (b + c * k) := fun hk => by
  have hr := updKeeps_range hn hk
  omega

theorem port (h : Upd r n d0 d) (hn : n < 16) (hk : k < 8) {b hi lo : Nat} (v : Nat) (h1 : 0x0B0000 ≤ b := by decide)
    (h2 : b < 0x0B0040 := by decide) : Upd r n d0 (d.wr ⟨b + 0x40 * k, hi, lo⟩ v) :=
  h.wr _ v (PadSide.port hk h1 h2) (not_keeps hn (Nat.le_trans (by decide) h1))

theorem portEvt (h : Upd r n d0 d) (hn : n < 16) (hk : k < 8) (c : Bool) {b hi lo : Nat} (h1 : 0x0B0000 ≤ b := by decide)
    (h2 : b < 0x0B0040 := by decide) : Upd r n d0 (d.evtIf c ⟨b + 0x40 * k, hi, lo⟩) :=
  h.evtIf c _ (PadSide.port hk h1 h2) (not_keeps hn (Nat.le_trans (by decide) h1))

theorem portTarget (h : Upd r n d0 d) (hn : n < 16) (hk : k < 8) (s : Int) : Upd r n d0 (d.portTarget k s) := by
  unfold Dev.portTarget
  extract_lets p waiting changed x y
  have hx : Upd r n d0 x := h.portEvt hn hk _
  have hy : Upd r n d0 y := hx.when _ ((refl ..).port hn hk 0)
  exact (hy.setPort k _).port hn hk _

theorem setAcc (h : Upd r n d0 d) (hn : n < 16) (hk : k < 8) (a : Int) : Upd r n d0 (d.setAcc k a) :=
  (h.setPort k _).wr48 (STEER_ACC_LO_VALUE k) (STEER_ACC_HI_VALUE k) _ (.acc hk) (not_keeps hn) (.acc hk) (not_keeps hn)

theorem portAdvance (h : Upd r n d0 d) (hn : n < 16) (hk : k < 8) (y : Int) (num den : Nat) : Upd r n d0 (d.portAdvance k y num den).1 := by
  unfold Dev.portAdvance
  dsimp only
  split
  · exact h.port hn hk _
  · split
    · exact h
    · split
      · exact (((h.setAcc hn hk _).port hn hk 1).evt (STEER_EVT_CLAMP k) (PadSide.port hk) (not_keeps hn)).portTarget
          hn hk _
      · exact ((h.setAcc hn hk _).port hn hk 0).portTarget hn hk _

theorem portTeff (h : Upd r n d0 d) (hn : n < 16) (hk : k < 8) (b : Nat) : Upd r n d0 (d.portTeff k b) := by
  have hw := h.wr48 (STEER_TEFF_LO_VALUE k) (STEER_TEFF_HI_VALUE k) (d.teffIn k b) (.acc hk) (not_keeps hn) (.acc hk) (not_keeps hn)
  exact hw.portEvt hn hk _

theorem portsAdvance (hn : n < 16) (f : Dev → Int) (num den : Nat) (ks : List Nat) (hks : ∀ k ∈ ks, k < 8) (p : Dev × Bool) (h : Upd r n d0 p.1) :
    Upd r n d0 (ks.foldl (fun (p : Dev × Bool) k => ((p.1.portAdvance k (f p.1) num den).1, p.2 || (p.1.portAdvance k (f p.1) num den).2)) p).1 := by
  induction ks generalizing p with
  | nil => exact h
  | cons k ks ih => exact ih (fun j hj => hks j (by simp [hj])) _ (h.portAdvance hn (hks k (by simp)) _ _ _)

end Upd

/-- A frequency update shows its error and counts, goes on within what an update leaves, and ends. -/
theorem Dev.freqUpdate_eq (r : Nat) (hn : n < 16) (err : Int) (d : Dev) :
    ∃ x, Upd r n (d.showErr n err) x ∧ d.freqUpdate n err = x.padFinish n err := by
  unfold Dev.freqUpdate
  extract_lets x y keep z tu p w
  have hy : Upd r n (d.showErr n err) y := (Upd.refl r n x).setPad _
  have hz : Upd r n (d.showErr n err) z := hy.filterUpdate hn err
  have hp : Upd r n (d.showErr n err) p.1 := Upd.portsAdvance hn (fun d => d.padWord n) tu.1 tu.2 _ (fun k hk => Dev.portsOf_lt _ _ k hk) (z, false) hz
  have hw : Upd r n (d.showErr n err) w := hp.when _ (((Upd.refl ..).setPad _).padClamped hn true)
  exact ⟨_, hw.padDwell hn err, rfl⟩

theorem Dev.freqUpdate_counted (hn : n < 16) (hr : r = d.rd (PAD_TEL_TEL_RING n)) (err : Int) : Counted r n err d (d.freqUpdate n err) := by
  obtain ⟨x, hx, heq⟩ := Dev.freqUpdate_eq r hn err d
  rw [heq]
  exact Counted.of_finish hn hr hx err

end Sys2Proof.Machine
end

section
/-!
PROOF. The gates of beat inputs, and the updates of a paddock (04 R105, R107; 07 R196 to R199; O50).
-/

namespace Sys2Proof.Machine

variable {r n k b f : Nat} {d e : Dev}

/-! ### A gate judged against RANGE and JUMP (R196) -/

theorem Dev.beat_setBeat_self (f : Beat → Beat) (h : b < d.beats.length) : (d.setBeat b f).beat b = f (d.beat b) :=
  getD_updAt_self f Beat.fresh h

/-- The registers of a cause of a beat monitor. -/
def CauseReg (b a : Nat) : Prop := a = rBN_STAT b ∨ a = rBN_EVT b ∨ FiringReg a

theorem Apart.beatQual (b : Nat) (d : Dev) : Apart (CauseReg b) d (d.beatQual b) :=
  ((Apart.refl _ d).wr (BN_STAT_QUAL b) _ (Or.inl rfl)).setSelNow _

theorem Apart.beatSet (b c : Nat) (d : Dev) : Apart (CauseReg b) d (d.beatSet b c) := by
  unfold Dev.beatSet
  split
  · exact Apart.refl _ d
  · exact ((((Apart.refl _ d).wr _ _ (Or.inl rfl)).evt _ (Or.inr (Or.inl rfl))).fire _ _ fun _ h => Or.inr (Or.inr h)).trans (Apart.beatQual b _)

theorem Apart.beatClear (b c : Nat) (d : Dev) : Apart (CauseReg b) d (d.beatClear b c) := by
  unfold Dev.beatClear
  split
  · exact ((Apart.refl _ d).wr _ _ (Or.inl rfl)).trans (Apart.beatQual b _)
  · exact Apart.refl _ d

/-- The gate's frequency is the last; the monitor's queue and its last timestamp stand, and so do all registers but those of its causes. -/
theorem Dev.beatJudge_spec (hb : b < d.beats.length) (f : Nat) :
    ((d.beatJudge b f).beat b).lastF = some f ∧ ((d.beatJudge b f).beat b).queue = (d.beat b).queue ∧
      ((d.beatJudge b f).beat b).lastTs = (d.beat b).lastTs ∧ ∀ a, ¬ CauseReg b a → (d.beatJudge b f).word a = d.word a := by
  unfold Dev.beatJudge
  extract_lets m inside jump x m' y z w
  have hx : x.beat b = _ := Dev.beat_setBeat_self _ hb
  have hap : Apart (CauseReg b) x (w.when (decide (w.rdIn (BN_JUMP_JUMP_CLR b) 1 255 ≤ m'.clean)) (Dev.beatClear b 3)) := by
    refine Apart.when ?_ _ _ (Apart.beatClear b 3 w)
    refine Apart.when ?_ _ _ (Apart.beatClear b 2 z)
    refine Apart.when ?_ _ _ (Apart.beatSet b 3 y)
    exact (Apart.refl _ x).when _ _ (Apart.beatSet b 2 x)
  have hbeat : (w.when (decide (w.rdIn (BN_JUMP_JUMP_CLR b) 1 255 ≤ m'.clean)) (Dev.beatClear b 3)).beat b = x.beat b := by
    unfold Dev.beat
    rw [hap.beats]
  rw [hbeat, hx]
  exact ⟨rfl, rfl, rfl, fun a ha => (hap.word a ha).trans rfl⟩

/-! ### A gate's update -/

theorem Dev.rdIn_le (d : Dev) (f : Fld) {lo hi : Nat} (h : lo ≤ hi) : d.rdIn f lo hi ≤ hi := by
  unfold Dev.rdIn clampN
  split
  · exact h
  · split <;> omega

theorem clampI_range {lo hi t m : Int} (h0 : 0 ≤ lo) (h1 : 0 ≤ hi) (h2 : lo < m) (h3 : hi < m) : 0 ≤ clampI lo hi t ∧ clampI lo hi t < m := by
  unfold clampI
  split
  · exact ⟨h0, h2⟩
  · split
    · exact ⟨h1, h3⟩
    · omega

theorem Dev.teffIn_range (d : Dev) (k b : Nat) : 0 ≤ d.teffIn k b ∧ d.teffIn k b < 2 ^ 48 := by
  have hlo := d.rdIn_le (BN_FMIN_F b) (show 10000 ≤ 8000000 by decide)
  have hhi := d.rdIn_le (BN_FMAX_F b) (show 10000 ≤ 8000000 by decide)
  unfold Dev.teffIn
  exact clampI_range (by omega) (by omega) (by omega) (by omega)

theorem Dev.rd48_wr48 (d : Dev) {a b : Nat} (h : a ≠ b) (v : Int) : (d.wr48 ⟨a, 31, 0⟩ ⟨b, 15, 0⟩ v).rd48 ⟨a, 31, 0⟩ ⟨b, 15, 0⟩ = twos 48 v := by
  have hv : twos 48 v < 2 ^ 48 := by
    unfold twos
    omega
  unfold Dev.rd48 Dev.wr48
  rw [Dev.rd_wr_of_ne _ ⟨b, 15, 0⟩ ⟨a, 31, 0⟩ _ h, Dev.rd_wr_self _ ⟨b, 15, 0⟩ _ ⟨Nat.zero_le _, show 15 < 32 by decide⟩,
    Dev.rd_wr_self _ ⟨a, 31, 0⟩ _ ⟨Nat.zero_le _, show 31 < 32 by decide⟩]
  generalize twos 48 v = x at hv
  show x % 0x100000000 % 2 ^ 32 + 0x100000000 * (x / 0x100000000 % 2 ^ 16) = x
  omega

/-- The port holds the target that the update takes off. -/
theorem Dev.portTeff_value (d : Dev) (hk : k < 8) (b : Nat) :
    ((d.portTeff k b).rd48 (STEER_TEFF_LO_VALUE k) (STEER_TEFF_HI_VALUE k) : Int) = d.teffIn k b := by
  obtain ⟨h0, h48⟩ := d.teffIn_range k b
  have hevt : ∀ (x : Dev) (c : Bool), (x.evtIf c (STEER_EVT_TGT_LIM k)).rd48 (STEER_TEFF_LO_VALUE k) (STEER_TEFF_HI_VALUE k) =
      x.rd48 (STEER_TEFF_LO_VALUE k) (STEER_TEFF_HI_VALUE k) := fun x c => by
    unfold Dev.rd48
    rw [Dev.rd_evtIf_of_ne _ _ _ _ (show rSTEER_TEFF_LO k ≠ rSTEER_EVT k by unfold rSTEER_TEFF_LO rSTEER_EVT; omega),
      Dev.rd_evtIf_of_ne _ _ _ _ (show rSTEER_TEFF_HI k ≠ rSTEER_EVT k by unfold rSTEER_TEFF_HI rSTEER_EVT; omega)]
  unfold Dev.portTeff
  dsimp only
  rw [hevt]
  have hne : rSTEER_TEFF_LO k ≠ rSTEER_TEFF_HI k := by
    unfold rSTEER_TEFF_LO rSTEER_TEFF_HI
    omega
  have hrd := d.rd48_wr48 hne (d.teffIn k b)
  unfold STEER_TEFF_LO_VALUE STEER_TEFF_HI_VALUE
  rw [hrd]
  generalize d.teffIn k b = t at h0 h48
  unfold twos
  omega

theorem Dev.portFor_lt {k : Nat} (h : d.portFor n = some k) : k < 8 := Dev.portsOf_lt d n k (List.mem_of_head? h)

theorem Dev.gateUpdate_some {k : Nat} (h : d.portFor n = some k) (b f : Nat) :
    d.gateUpdate n b f = (d.portTeff k b).freqUpdate n ((f : Int) - d.teffIn k b) := by
  unfold Dev.gateUpdate
  rw [h, ← d.portTeff_value (Dev.portFor_lt h) b]

theorem Dev.gateUpdate_counted {k : Nat} (hn : n < 16) (hr : r = d.rd (PAD_TEL_TEL_RING n)) (h : d.portFor n = some k) (b f : Nat) :
    Counted r n ((f : Int) - d.teffIn k b) d (d.gateUpdate n b f) := by
  have ht : Upd r n d (d.portTeff k b) := (Upd.refl r n d).portTeff hn (Dev.portFor_lt h) b
  have htel := Dev.rd_of_word (f := PAD_TEL_TEL_RING n) (ht.word _ (Or.inr (Or.inr rfl)))
  rw [Dev.gateUpdate_some h]
  exact (Dev.freqUpdate_counted hn (hr.trans htel.symm) _).of_upd ht

theorem Dev.gateUpdate_reach (hn : n < 16) (d : Dev) (b f : Nat) : Apart (UpdReg (d.rd (PAD_TEL_TEL_RING n))) d (d.gateUpdate n b f) := by
  cases h : d.portFor n with
  | some k => exact (Dev.gateUpdate_counted hn rfl h b f).apart
  | none =>
    have heq : d.gateUpdate n b f = d.freqUpdate n f := by
      unfold Dev.gateUpdate
      rw [h]
    rw [heq]
    exact (Dev.freqUpdate_counted hn rfl _).apart

/-! ### A gate closes (R197) -/

/-- A timestamp of a beat input is taken. -/
def Beat.gated (t : Nat) (rest : List Nat) (m : Beat) : Beat := { m with queue := rest, lastTs := some t }

/-- The input's next gate is open, and the paddock that follows it has made its first update. -/
def Dev.gateTaken (b t : Nat) (rest : List Nat) (d : Dev) (ps : List Paddock) : Dev := { d.setBeat b (.gated t rest) with pads := ps }

/-- The paddock of an input makes updates of its gates. -/
def Dev.follows (d : Dev) (n b : Nat) : Bool := d.padLive n && decide (d.padKind n = 1) && decide (d.rd (PAD_STATE_ACTIVE_CH n) = 12 + b)

theorem Dev.steerGate_eq {t t' : Nat} {rest : List Nat} (hm : d.measuring = true) (hv : d.flag (BN_CFG_STEER_V b) = true)
    (hq : (d.beat b).queue = t :: rest) (hl : (d.beat b).lastTs = some t') (hn : n = d.rd (BN_CFG_PAD b)) :
    ∃ ps, ((d.pad n).first = false → ps = d.pads) ∧ d.steerGate b =
      if 3 * (d.spacing (12 + b)).1 < 2 * (t - t') * (d.spacing (12 + b)).2 ∨ t - t' = 0 then d.gateTaken b t rest ps
      else (((d.gateTaken b t rest ps).wr (BN_FREQ_FREQ b) (d.gateFreq2 b (t - t'))).when (d.follows n b && !(d.pad n).first)
        (Dev.gateUpdate n b (d.gateFreq b (t - t')))).beatJudge b (d.gateFreq b (t - t')) := by
  subst hn
  have heq : ∀ fol opening : Bool, ∃ ps, (opening = false → ps = d.pads) ∧
      ((d.setBeat b (.gated t rest)).when (fol && opening) fun d => d.setPad (d.rd (BN_CFG_PAD b)) fun p => { p with first := false }) =
        d.gateTaken b t rest ps := fun fol opening => by
    cases opening with
    | false => exact ⟨d.pads, fun _ => rfl, by rw [Bool.and_false]; rfl⟩
    | true =>
      cases fol with
      | false => exact ⟨d.pads, fun _ => rfl, rfl⟩
      | true => exact ⟨updAt d.pads (d.rd (BN_CFG_PAD b)) fun p => { p with first := false }, fun h => Bool.noConfusion h, rfl⟩
  obtain ⟨ps, hps, hx⟩ := heq (d.follows (d.rd (BN_CFG_PAD b)) b) (d.pad (d.rd (BN_CFG_PAD b))).first
  refine ⟨ps, hps, ?_⟩
  unfold Dev.steerGate
  rw [hq, hl]
  dsimp -zeta only
  extract_lets prev x n mine opening y
  have hy : y = d.gateTaken b t rest ps := hx
  have hxv : x.flag (BN_CFG_STEER_V b) = true := hv
  have hxm : x.measuring = true := hm
  rw [if_neg (by rw [hxv, hxm]; simp)]
  clear_value y
  subst hy
  rfl

end Sys2Proof.Machine
end

section
/-!
PROOF. The updates of a paddock and the registers they can reach (04 R105, R107; 07 R197, R198; O50).
-/

namespace Sys2Proof.Machine

variable {r n k b f : Nat} {d e : Dev}

/-! ### What a gate's update asks of the registers -/

theorem Dev.teffRaw_congr (hk : k < 8) (hw : ∀ a, 0x0B0200 ≤ a → a < 0x0B0400 → e.word a = d.word a) : e.teffRaw k = d.teffRaw k := by
  have hrd : ∀ f : Fld, 0x0B0200 ≤ f.addr → f.addr < 0x0B0400 → e.rd f = d.rd f := fun f h1 h2 => Dev.rd_of_word (hw _ h1 h2)
  have own : ∀ {hi lo : Nat} (o i : Nat), i < 8 → o < 0x20 → e.rd ⟨0x0B0200 + o + 0x20 * i, hi, lo⟩ = d.rd ⟨0x0B0200 + o + 0x20 * i, hi, lo⟩ :=
    fun o i hi ho => hrd _ (by dsimp only; omega) (by dsimp only; omega)
  have hlead : d.rd (STEER_LINK_LEADER k) < 8 := d.rd_lt (STEER_LINK_LEADER k)
  have hled : e.flag (STEER_LINK_LED k) = d.flag (STEER_LINK_LED k) := Dev.flag_of_rd (own 12 k hk (by decide))
  have hsign : e.flag (STEER_LINK_FSIGN k) = d.flag (STEER_LINK_FSIGN k) := Dev.flag_of_rd (own 12 k hk (by decide))
  have hleader : e.rd (STEER_LINK_LEADER k) = d.rd (STEER_LINK_LEADER k) := own 12 k hk (by decide)
  have hlo : e.rd (STEER_TGT_LO_TGT k) = d.rd (STEER_TGT_LO_TGT k) := own 0 k hk (by decide)
  have hhi : e.rd (STEER_TGT_HI_TGT k) = d.rd (STEER_TGT_HI_TGT k) := own 4 k hk (by decide)
  have hg : ∀ i < 8, e.rd (STEER_GSHIFT_GSHIFT i) = d.rd (STEER_GSHIFT_GSHIFT i) := fun i hi => own 8 i hi (by decide)
  unfold Dev.teffRaw Dev.rd48 Dev.rdS
  rw [hled, hsign, hleader, hlo, hhi, hg _ hlead, hg _ hk]

theorem Dev.teffIn_congr (hk : k < 8) (hw : ∀ a, a ≠ rBN_FREQ b → e.word a = d.word a) : e.teffIn k b = d.teffIn k b := by
  have hmin : e.rd (BN_FMIN_F b) = d.rd (BN_FMIN_F b) := Dev.rd_of_word (hw (rBN_FMIN b) (by unfold rBN_FMIN rBN_FREQ; omega))
  have hmax : e.rd (BN_FMAX_F b) = d.rd (BN_FMAX_F b) := Dev.rd_of_word (hw (rBN_FMAX b) (by unfold rBN_FMAX rBN_FREQ; omega))
  unfold Dev.teffIn Dev.rdIn
  rw [hmin, hmax, Dev.teffRaw_congr hk fun a h1 h2 => hw a (by unfold rBN_FREQ; omega)]

theorem Dev.portFor_congr (hw : ∀ k < 8, e.word (rSTEER_CFG k) = d.word (rSTEER_CFG k)) (n : Nat) : e.portFor n = d.portFor n := by
  unfold Dev.portFor Dev.portsOf
  rw [List.filter_congr fun k hk => ?_]
  have hk := hw k (List.mem_range.1 hk)
  rw [Dev.flag_of_rd (Dev.rd_of_word (f := STEER_CFG_USED k) hk), Dev.rd_of_word (f := STEER_CFG_PAD k) hk]

/-- BN_n_FREQ lies beyond the registers of an update and of a monitor's causes. -/
theorem bnFreq_off (hb : b < 8) (q : Nat) : ¬ UpdReg q (rBN_FREQ b) ∧ ¬ CauseReg b (rBN_FREQ b) := by
  constructor
  · rintro (h | h | h)
    · exact not_padSide (by unfold rBN_FREQ; omega) (by unfold rBN_FREQ; omega) h
    · unfold rTQ_STAT rBN_FREQ at h; omega
    · unfold rTQ_DROP rBN_FREQ at h; omega
  · rintro (h | h | h)
    · unfold rBN_STAT rBN_FREQ at h; omega
    · unfold rBN_EVT rBN_FREQ at h; omega
    · exact not_firingReg (by unfold rBN_FREQ; omega) (by unfold rBN_FREQ; omega) (by unfold rBN_FREQ; omega) (by unfold rBN_FREQ; omega) h

/-- The registers of a paddock lie beyond those of a monitor's causes. -/
theorem pad_not_cause {a : Nat} (h1 : 0x030000 ≤ a) (h2 : a < 0x034000) : ¬ CauseReg b a := by
  rintro (h | h | h)
  · unfold rBN_STAT at h; omega
  · unfold rBN_EVT at h; omega
  · exact not_firingReg (by omega) (by omega) (by omega) (by omega) h

/-- A gate that closes (R197, R198). -/
theorem Dev.steerGate_closes {t t' : Nat} {rest : List Nat} (hb : b < 8) (hl : b < d.beats.length) (hm : d.measuring = true)
    (hv : d.flag (BN_CFG_STEER_V b) = true) (hq : (d.beat b).queue = t :: rest) (hts : (d.beat b).lastTs = some t') (hlt : t' < t)
    (hspan : 2 * (t - t') * (d.spacing (12 + b)).2 ≤ 3 * (d.spacing (12 + b)).1) :
    (d.steerGate b).rd (BN_FREQ_FREQ b) = d.gateFreq2 b (t - t') ∧ ((d.steerGate b).beat b).queue = rest ∧
      ((d.steerGate b).beat b).lastTs = some t ∧ ((d.steerGate b).beat b).lastF = some (d.gateFreq b (t - t')) ∧
      ∀ k n, n < 16 → d.rd (BN_CFG_PAD b) = n → d.padLive n = true → d.padKind n = 1 → d.rd (PAD_STATE_ACTIVE_CH n) = 12 + b →
        (d.pad n).first = false → d.portFor n = some k →
        (d.steerGate b).rd (PAD_UPD_COUNT n) = (d.rd (PAD_UPD_COUNT n) + 1) % 2 ^ 32 ∧
          (d.steerGate b).rdS (PAD_PERR_ERR n) = satI 32 ((d.gateFreq b (t - t') : Int) - d.teffIn k b) := by
  obtain ⟨ps, hps, heq⟩ := Dev.steerGate_eq hm hv hq hts rfl
  have hpad := d.rd_lt (BN_CFG_PAD b)
  rw [if_neg (by omega)] at heq
  rw [heq]
  have hself : (d.gateTaken b t rest ps).beat b = .gated t rest (d.beat b) := Dev.beat_setBeat_self _ hl
  have hlen : b < (d.gateTaken b t rest ps).beats.length := by
    show b < (updAt d.beats b _).length
    unfold updAt
    rwa [List.length_modify]
  obtain ⟨y, hy⟩ : ∃ y, y = (d.gateTaken b t rest ps).wr (BN_FREQ_FREQ b) (d.gateFreq2 b (t - t')) := ⟨_, rfl⟩
  have hfreq : y.rd (BN_FREQ_FREQ b) = d.gateFreq2 b (t - t') := by
    rw [hy, Dev.rd_wr_self _ _ _ ⟨show 0 ≤ 31 by decide, show 31 < 32 by decide⟩]
    refine Nat.mod_eq_of_lt ?_
    unfold Dev.gateFreq2
    exact Nat.lt_of_le_of_lt (Nat.min_le_left _ _) (show 2 ^ 32 - 1 < 2 ^ (31 - 0 + 1) by decide)
  have hword : ∀ a, a ≠ rBN_FREQ b → y.word a = d.word a := fun a ha => by
    rw [hy]
    exact (Dev.word_setWord_of_ne _ _ _ _ ha).trans rfl
  have hpads : y.pads = ps := by rw [hy]; rfl
  have hybeat : y.beat b = .gated t rest (d.beat b) ∧ b < y.beats.length := by
    rw [hy]
    exact ⟨hself, hlen⟩
  rw [← hy]
  clear hy heq hself hlen
  generalize hfo : (d.follows (d.rd (BN_CFG_PAD b)) b && !(d.pad (d.rd (BN_CFG_PAD b))).first) = fo
  have hz : Apart (UpdReg (y.rd (PAD_TEL_TEL_RING (d.rd (BN_CFG_PAD b))))) y
      (y.when fo (Dev.gateUpdate (d.rd (BN_CFG_PAD b)) b (d.gateFreq b (t - t')))) :=
    (Apart.refl _ y).when _ _ (Dev.gateUpdate_reach hpad y b _)
  obtain ⟨z, hzy⟩ : ∃ z, z = y.when fo (Dev.gateUpdate (d.rd (BN_CFG_PAD b)) b (d.gateFreq b (t - t'))) := ⟨_, rfl⟩
  rw [← hzy] at hz ⊢
  have hzbeat : z.beat b = .gated t rest (d.beat b) := by
    unfold Dev.beat
    rw [hz.beats]
    exact hybeat.1
  obtain ⟨hlast, hqueue, hts', hword'⟩ := Dev.beatJudge_spec (d := z) (hz.beats.symm ▸ hybeat.2) (d.gateFreq b (t - t'))
  rw [hzbeat] at hqueue hts'
  refine ⟨?_, hqueue, hts', hlast, fun k n hn16 hn hlive hkind hact hfirst hport => ?_⟩
  · exact (Dev.rd_of_word (f := BN_FREQ_FREQ b) ((hword' _ (bnFreq_off hb 0).2).trans (hz.word _ (bnFreq_off hb _).1))).trans hfreq
  · subst hn
    have hfotrue : fo = true := by
      rw [← hfo]
      unfold Dev.follows
      rw [hlive, hfirst, decide_eq_true hkind, decide_eq_true hact]
      rfl
    have hcnt : Counted (y.rd (PAD_TEL_TEL_RING (d.rd (BN_CFG_PAD b)))) (d.rd (BN_CFG_PAD b)) ((d.gateFreq b (t - t') : Int) - d.teffIn k b) y z := by
      rw [hzy, hfotrue, ← Dev.teffIn_congr (e := y) (Dev.portFor_lt hport) hword]
      refine Dev.gateUpdate_counted hn16 rfl ?_ b _
      rw [Dev.portFor_congr (fun j hj => hword _ (by unfold rSTEER_CFG rBN_FREQ; omega))]
      exact hport
    have hoff := fun a h1 h2 => hword' a (pad_not_cause h1 h2)
    constructor
    · rw [Dev.rd_of_word (f := PAD_UPD_COUNT _) (hoff (rPAD_UPD _) (by unfold rPAD_UPD; omega) (by unfold rPAD_UPD; omega)), hcnt.upd,
        Dev.rd_of_word (f := PAD_UPD_COUNT _) (hword (rPAD_UPD _) (by unfold rPAD_UPD rBN_FREQ; omega))]
    · refine Eq.trans ?_ hcnt.perr
      unfold Dev.rdS
      rw [Dev.rd_of_word (f := PAD_PERR_ERR _) (hoff (rPAD_PERR _) (by unfold rPAD_PERR; omega) (by unfold rPAD_PERR; omega))]

/-- A gate that is too long (04 R107). -/
theorem Dev.steerGate_long {t t' : Nat} {rest : List Nat} (hl : b < d.beats.length) (hm : d.measuring = true)
    (hv : d.flag (BN_CFG_STEER_V b) = true) (hq : (d.beat b).queue = t :: rest) (hts : (d.beat b).lastTs = some t')
    (hspan : 3 * (d.spacing (12 + b)).1 < 2 * (t - t') * (d.spacing (12 + b)).2) :
    ((d.steerGate b).beat b).queue = rest ∧ ((d.steerGate b).beat b).lastTs = some t ∧ OnlyRegs (fun _ => False) d (d.steerGate b) := by
  obtain ⟨ps, hps, heq⟩ := Dev.steerGate_eq hm hv hq hts rfl
  have hself : (d.gateTaken b t rest ps).beat b = .gated t rest (d.beat b) := Dev.beat_setBeat_self _ hl
  rw [if_pos (Or.inl hspan)] at heq
  rw [heq, hself]
  exact ⟨rfl, rfl, fun _ _ => rfl, rfl, rfl, rfl, fun _ => rfl, fun _ => rfl⟩

/-! ### The edge of an update -/

/-- A command that comes after a loss of the active reference on its edge, where selection has not been asked for: its effect on the
device, but for the clock of an edge that it closes. -/
theorem Effects.of_afterLoss {c : Instr} {s : State} {P : Dev → Prop} {dt : Nat} {p : Dev → Bool} {f : Dev → Dev}
    (h : exec c s = run dt (Dev.whenNow p (Dev.afterLoss f)) s) (hp : p (s.dev.advance dt) = true)
    (hf : ∀ k, P ({ f (s.dev.advance dt) with clk := k } : Dev)) : Effects c s P := by
  refine ⟨_, h, fun hl => ?_⟩
  have hsel : (s.dev.advance dt).selNow.isSome = false := (Bool.or_eq_false_iff.1 hl).1
  obtain ⟨k, hk⟩ : ∃ k, (s.dev.advance dt).afterLoss f = { f (s.dev.advance dt) with clk := k } := by
    have hset : (s.dev.advance dt).settleSelect = s.dev.advance dt := by
      unfold Dev.settleSelect Dev.when
      rw [hsel]
      rfl
    unfold Dev.afterLoss
    rw [hset]
    dsimp only
    split
    · exact ⟨_, rfl⟩
    · exact ⟨(f (s.dev.advance dt)).clk, rfl⟩
  rw [Dev.arrive_prompt hl, Dev.whenNow, if_pos hp, hk]
  exact hf k

end Sys2Proof.Machine
end

section
/-!
PROOF. The loss of feedback, and the updates of a paddock settled (04 R105, R107; 07 R197, R198; O50).
-/

namespace Sys2Proof.Machine

variable {n : Nat} {d : Dev}

/-! ### The loss of feedback (R107) -/

theorem Dev.takeStep_state (hn : n < 16) (d : Dev) : (d.takeStep n).word (rPAD_STATE n) = d.word (rPAD_STATE n) := by
  have hh : HeardReg (rPAD_STATE n) := .pad hn
  have hne : rPAD_STATE n ≠ rPAD_ERR n := by unfold rPAD_STATE rPAD_ERR; omega
  have hne' : rPAD_STATE n ≠ rPAD_HIST n := by unfold rPAD_STATE rPAD_HIST; omega
  unfold Dev.takeStep
  split
  · rfl
  · dsimp only
    split
    · exact Dev.word_evtMask_of_ne _ _ hne
    · exact ((Dev.stepDevice_spec n _ _).1.word _ hh).trans (Dev.word_evtMask_of_ne _ _ hne')

theorem Dev.padIdle_state (hn : n < 16) (d : Dev) : (d.padIdle n).word (rPAD_STATE n) = d.word (rPAD_STATE n) := by
  have hw : ∀ (x : Dev) (y : Int), (x.setWordY n y).word (rPAD_STATE n) = x.word (rPAD_STATE n) := fun x y =>
    (Worded.setWordY n y x).word _ (by unfold WordAt rPAD_STATE rPAD_FW_LO rPAD_FW_HI; omega)
  unfold Dev.padIdle
  split
  · rfl
  · dsimp only
    split
    · split
      · exact (hw _ _).trans (d.takeStep_state hn)
      · exact d.takeStep_state hn
    · exact d.takeStep_state hn

theorem Dev.padFbLoss_spec (hn : n < 16) (hm : d.measuring = true) (hk : d.padKind n = 0 ∨ d.padKind n = 2)
    (hf : d.flag (PAD_STATE_FB_LOSS n) = false) :
    (d.padFbLoss n).flag (PAD_STATE_FB_LOSS n) = true ∧ OnlyRegs selectionAt d (d.padFbLoss n) := by
  have heq : d.padFbLoss n = (d.wr (PAD_STATE_FB_LOSS n) 1).padIdle n := by
    unfold Dev.padFbLoss
    rw [if_pos ⟨hm, hk, by simp [hf]⟩]
  rw [heq]
  refine ⟨?_, ((((Apart.refl PadSide d).wr (PAD_STATE_FB_LOSS n) 1 (.pad hn)).padIdle hn).only.mono fun _ => PadSide.at)⟩
  refine (Dev.flag_of_rd (Dev.rd_of_word (f := PAD_STATE_FB_LOSS n) (Dev.padIdle_state hn _))).trans ?_
  exact Dev.flag_wr_self d (PAD_STATE_FB_LOSS n) 1 ⟨show 11 ≤ 11 by decide, show 11 < 32 by decide⟩ rfl

/-! ### An update of a paddock whose oldest timestamp is taken -/

theorem Dev.padUpdate_skips {t : Nat} {absorb r : Int} {rest : List (Nat × Int)} {later : List Nat} (hl : n < d.pads.length) (hlive : d.padLive n = true)
    (hk : d.padKind n = 0 ∨ d.padKind n = 2) (hq : (d.pad n).refQ = (t, absorb) :: rest) (hr : r = t + d.refShift n)
    (hlater : later = (d.pad n).fbQ.filter (d.pairFrom n r)) (hf : later.find? (d.pairTo n r) = none) :
    (d.padUpdate n).rd (PAD_SKIP_COUNT n) = (d.rd (PAD_SKIP_COUNT n) + 1) % 2 ^ 32 ∧ (d.padUpdate n).flag (PAD_HIST_SKIP n) = true ∧
      (d.padUpdate n).padBo n = (d.setBo n (d.padBo n - absorb)).padBo n ∧ ((d.padUpdate n).pad n).refQ = rest ∧
      ((d.padUpdate n).pad n).fbQ = later ∧ ((d.padUpdate n).pad n).secUsable = false := by
  rw [(Dev.padUpdate_takes hlive (by omega) (by omega) hq hr hlater).1 hf]
  obtain ⟨x, hx⟩ : ∃ x, x = d.setPad n (.paired rest later) := ⟨_, rfl⟩
  have hxpad : (x.pad n).refQ = rest ∧ (x.pad n).fbQ = later := by
    rw [hx, Dev.pad_setPad_self _ hl]
    exact ⟨rfl, rfl⟩
  have hbo : (x.setBo n (x.padBo n - absorb)).padBo n = (d.setBo n (d.padBo n - absorb)).padBo n := by
    rw [hx]
    rfl
  have hcount : (x.setBo n (x.padBo n - absorb)).rd (PAD_SKIP_COUNT n) = d.rd (PAD_SKIP_COUNT n) := by
    have hne : rPAD_SKIP n ≠ rPAD_BO_HI n ∧ rPAD_SKIP n ≠ rPAD_BO_LO n := by unfold rPAD_SKIP rPAD_BO_LO rPAD_BO_HI; omega
    refine (Dev.rd_wr_of_ne _ (PAD_BO_HI_BO n) (PAD_SKIP_COUNT n) _ hne.1).trans ((Dev.rd_wr_of_ne x (PAD_BO_LO_BO n) (PAD_SKIP_COUNT n) _ hne.2).trans ?_)
    rw [hx]
    rfl
  have hlen : n < (x.setBo n (x.padBo n - absorb)).pads.length := by
    rw [hx]
    exact Nat.lt_of_lt_of_eq hl (Dev.pads_setPad _).symm
  have hpad : (x.setBo n (x.padBo n - absorb)).pad n = x.pad n := rfl
  rw [← hx]
  generalize x.setBo n (x.padBo n - absorb) = y at hbo hcount hlen hpad
  obtain ⟨hskip, hhist, hsec, hqs, hap⟩ := Dev.padSkip_spec hlen
  rw [hpad] at hqs
  unfold Paddock.queues at hqs
  simp only [Prod.mk.injEq] at hqs
  have hout : ¬ (rPAD_BO_LO n = rPAD_SKIP n ∨ rPAD_BO_LO n = rPAD_HIST n) ∧ ¬ (rPAD_BO_HI n = rPAD_SKIP n ∨ rPAD_BO_HI n = rPAD_HIST n) := by
    unfold rPAD_SKIP rPAD_BO_LO rPAD_BO_HI rPAD_HIST
    omega
  exact ⟨hskip.trans (by rw [hcount]), hhist, (Dev.padBo_congr (hap.word _ hout.1) (hap.word _ hout.2)).trans hbo, hqs.1.trans hxpad.1,
    hqs.2.1.trans hxpad.2, hsec⟩

theorem Dev.padUpdate_pairs {t f : Nat} {absorb r : Int} {rest : List (Nat × Int)} {later : List Nat} (hn : n < 16) (hl : n < d.pads.length)
    (hlive : d.padLive n = true) (hk : d.padKind n = 0 ∨ d.padKind n = 2) (hq : (d.pad n).refQ = (t, absorb) :: rest)
    (hr : r = t + d.refShift n) (hlater : later = (d.pad n).fbQ.filter (d.pairFrom n r)) (hf : later.find? (d.pairTo n r) = some f)
    (hfirst : (d.pad n).first = false) :
    (d.padUpdate n).rd (PAD_UPD_COUNT n) = (d.rd (PAD_UPD_COUNT n) + 1) % 2 ^ 32 ∧
      (d.padUpdate n).rdS (PAD_PERR_ERR n) = satI 32 ((d.setBo n (d.padBo n - absorb)).phaseErr n ((f : Int) - r) false) ∧
      ((d.padUpdate n).pad n).refQ = rest ∧ ((d.padUpdate n).pad n).fbQ = (later.dropWhile fun g => decide (g ≠ f)).tail ∧
      ((d.padUpdate n).pad n).secUpd = (d.pad n).secUpd + 1 := by
  rw [(Dev.padUpdate_takes hlive (by omega) (by omega) hq hr hlater).2 f hf]
  obtain ⟨x, hx⟩ : ∃ x, x = d.setPad n (.paired rest (later.dropWhile fun g => decide (g ≠ f)).tail) := ⟨_, rfl⟩
  have hpad : x.pad n = .paired rest (later.dropWhile fun g => decide (g ≠ f)).tail (d.pad n) := by
    rw [hx]
    exact Dev.pad_setPad_self _ hl
  have hlen : n < x.pads.length := by
    rw [hx]
    exact Nat.lt_of_lt_of_eq hl (Dev.pads_setPad _).symm
  have herr : (x.phaseStart n absorb).phaseErr n (f - r) false = (d.setBo n (d.padBo n - absorb)).phaseErr n ((f : Int) - r) false := by
    rw [Dev.phaseStart_later (by rw [hpad]; exact hfirst), hx]
    exact Dev.phaseErr_setPad (f := .paired rest (later.dropWhile fun g => decide (g ≠ f)).tail) (fun _ => rfl) (d.setBo n (d.padBo n - absorb)) _ _
  have hupd : x.rd (PAD_UPD_COUNT n) = d.rd (PAD_UPD_COUNT n) := by
    rw [hx]
    rfl
  have hc := Dev.phaseUpdate_counted (d := x) hn rfl (f - r) absorb false
  rw [herr] at hc
  rw [← hx]
  refine ⟨hc.upd.trans (by rw [hupd]), hc.perr, hc.refQ.trans ?_, hc.fbQ.trans ?_, (hc.secUpd hlen).trans ?_⟩
  · rw [hpad]
    rfl
  · rw [hpad]
    rfl
  · rw [hpad]
    rfl

/-- Settles O50: each update by its case, on an edge that may close behind it. -/
theorem paddockUpdates : Obligations.PaddockUpdates := by
  intro s dt n hn hl
  have live : s.dev.padLive n = true → s.dev.measuring = true := fun h => by
    unfold Dev.padLive at h
    simp only [Bool.and_eq_true] at h
    exact h.1.1
  have upd : ∀ {P : Dev → Prop}, s.dev.measuring = true → (∀ c, P ({ (s.dev.advance dt).padUpdate n with clk := c } : Dev)) →
      Effects (.paddockUpdate dt n) s P := fun {P} hm hp => by
    refine Effects.of_afterLoss (f := Dev.padUpdate n) (p := Dev.measuring) ?_ hm hp
    rw [← within_of_lt hn (Dev.whenNow Dev.measuring (Dev.afterLoss (Dev.padUpdate n)))]
    rfl
  have gate : ∀ {b : Nat} {P : Dev → Prop}, b < 8 → s.dev.measuring = true → (∀ c, P ({ (s.dev.advance dt).steerGate b with clk := c } : Dev)) →
      Effects (.steerGateUpdate dt b) s P := fun {b P} hb hm hp => by
    refine Effects.of_afterLoss (f := Dev.steerGate b) (p := Dev.measuring) ?_ hm hp
    rw [← within_of_lt hb (Dev.whenNow Dev.measuring (Dev.afterLoss (Dev.steerGate b)))]
    rfl
  refine ⟨fun t absorb rest later r hlive hk hq hr hlater => ⟨fun hf => ?_, fun f hf hfirst => ?_⟩, ?_, fun hlive => ?_, fun hlive hk hf => ?_,
    fun b t t' rest hb hbl hm hv hq hts => ⟨fun hlt hspan => ?_, fun hspan => ?_⟩⟩
  · exact upd (live hlive) fun _ => Dev.padUpdate_skips (d := s.dev.advance dt) hl hlive hk hq hr hlater hf
  · exact upd (live hlive) fun _ => Dev.padUpdate_pairs (d := s.dev.advance dt) hn hl hlive hk hq hr hlater hf hfirst
  · by_cases hm : s.dev.measuring = true
    · refine upd hm fun _ => ?_
      have h := ((s.dev.advance dt).padUpdate_reach hn).only.mono fun _ => UpdReg.at
      exact ⟨h.word, h.shadow, h.held, h.perMaster, h.sram, h.nvm⟩
    · refine Effects.of_run (f := within n 16 (Dev.whenNow Dev.measuring (Dev.afterLoss (Dev.padUpdate n)))) rfl ?_
      rw [within_of_lt hn, Dev.whenNow, if_neg (show ¬ (s.dev.advance dt).measuring = true from hm)]
      exact ⟨fun _ _ => rfl, rfl, rfl, rfl, fun _ => rfl, fun _ => rfl⟩
  · refine Effects.of_run (f := within n 16 (Dev.whenNow Dev.measuring (Dev.padGapSkip n))) rfl ?_
    have hm : (s.dev.advance dt).measuring = true := live hlive
    rw [within_of_lt hn, Dev.whenNow_pos hm, show (s.dev.advance dt).padGapSkip n = (s.dev.advance dt).padSkip n from if_pos hlive]
    obtain ⟨hcount, hhist, hsec, -, hap⟩ := Dev.padSkip_spec (d := s.dev.advance dt) hl
    have h := hap.only
    exact ⟨hcount, hhist, hsec, h.word, h.shadow, h.held, h.perMaster, h.sram, h.nvm⟩
  · refine Effects.of_run (f := within n 16 (Dev.whenNow Dev.measuring (Dev.padFbLoss n))) rfl ?_
    have hm : (s.dev.advance dt).measuring = true := live hlive
    rw [within_of_lt hn, Dev.whenNow_pos hm]
    obtain ⟨hflag, h⟩ := Dev.padFbLoss_spec (d := s.dev.advance dt) hn hm hk hf
    exact ⟨hflag, h.word, h.shadow, h.held, h.perMaster, h.sram, h.nvm⟩
  · refine gate hb hm fun _ => ?_
    obtain ⟨hfreq, hqueue, hlast, hf, hcount⟩ := Dev.steerGate_closes (d := s.dev.advance dt) hb hbl hm hv hq hts hlt hspan
    exact ⟨hfreq, hqueue, hlast, hf, fun k hpad hlive hkind hact hfirst hport => hcount k n hn hpad hlive hkind hact hfirst hport⟩
  · refine gate hb hm fun _ => ?_
    obtain ⟨hqueue, hlast, h⟩ := Dev.steerGate_long (d := s.dev.advance dt) hbl hm hv hq hts hspan
    exact ⟨hqueue, hlast, h.word, h.shadow, h.held, h.perMaster, h.sram, h.nvm⟩

end Sys2Proof.Machine
end

section
/-!
PROOF. Marks of a pasture link: what an edge of its channel leaves (02 R46, R49; 08 R215; O57).
-/

namespace Sys2Proof.Machine

/-- A register that an edge of channel `ch` writes: its counts and status, and MEAS_STAT. -/
def EdgeReg (ch a : Nat) : Prop := a = rMCH_FWD ch ∨ a = rMCH_LOST ch ∨ a = rMCH_STAT ch ∨ a = rMEAS_STAT

/-- What an edge of channel `ch` leaves, whose stream has index `i`: the other registers and channels, the clocks, the events that run,
and the loop cells of other streams. -/
structure EdgeLeft (ch i : Nat) (d e : Dev) : Prop where
  word : ∀ a, ¬ EdgeReg ch a → e.word a = d.word a
  clk : e.clk = d.clk
  handover : e.meas.handover = d.meas.handover
  events : ∀ ev ∈ d.meas.events, ev ∈ e.meas.events
  chan : ∀ j, j ≠ i → e.chan j = d.chan j
  kind : ∀ k, ((e.cell k).role, (e.cell k).stream) = ((d.cell k).role, (d.cell k).stream)
  cell : d.meas.handover = none → ∀ k, (d.cell k).role = .loop → (d.cell k).stream ≠ ch → e.cell k = d.cell k

/-- An edge leaves the pasture too. -/
structure Forwards (ch i : Nat) (d e : Dev) : Prop extends EdgeLeft ch i d e where
  past : e.past = d.past

namespace Forwards

variable {ch i : Nat}

theorem refl (d : Dev) : Forwards ch i d d :=
  ⟨⟨fun _ _ => rfl, rfl, rfl, fun _ h => h, fun _ _ => rfl, fun _ => rfl, fun _ _ _ _ => rfl⟩, rfl⟩

theorem trans {d e f : Dev} (h : Forwards ch i d e) (h' : Forwards ch i e f) : Forwards ch i d f where
  word a ha := (h'.word a ha).trans (h.word a ha)
  past := h'.past.trans h.past
  clk := h'.clk.trans h.clk
  handover := h'.handover.trans h.handover
  events ev hev := h'.events ev (h.events ev hev)
  chan j hj := (h'.chan j hj).trans (h.chan j hj)
  kind k := (h'.kind k).trans (h.kind k)
  cell hh k hr hs := by
    have hc := h.cell hh k hr hs
    exact (h'.cell (h.handover.trans hh) k (hc ▸ hr) (hc ▸ hs)).trans hc

theorem of_meas {d e : Dev} (hw : ∀ a, ¬ EdgeReg ch a → e.word a = d.word a) (hp : e.past = d.past) (hc : e.clk = d.clk) (hm : e.meas = d.meas) :
    Forwards ch i d e where
  word := hw
  past := hp
  clk := hc
  handover := congrArg Meas.handover hm
  events ev hev := by rw [hm]; exact hev
  chan j _ := congrArg (fun m : Meas => m.chans.getD j Chan.fresh) hm
  kind k := congrArg (fun m : Meas => ((m.cells.getD k Cell.fresh).role, (m.cells.getD k Cell.fresh).stream)) hm
  cell _ k _ _ := congrArg (fun m : Meas => m.cells.getD k Cell.fresh) hm

theorem wr (d : Dev) (f : Fld) (v : Nat) (h : EdgeReg ch f.addr) : Forwards ch i d (d.wr f v) :=
  of_meas (fun a ha => Dev.word_setWord_of_ne d f.addr a _ fun hc => ha (hc ▸ h)) (Dev.wr_past ..) (Dev.wr_clk ..) (Dev.wr_meas ..)

theorem evt (d : Dev) (f : Fld) (h : EdgeReg ch f.addr) : Forwards ch i d (d.evt f) :=
  of_meas (fun _ ha => Dev.word_evt_of_ne _ _ _ fun hc => ha (hc ▸ h)) (Dev.evt_past ..) (Dev.evt_clk ..) (Dev.evt_meas ..)

theorem evtIf (d : Dev) (b : Bool) (f : Fld) (h : EdgeReg ch f.addr) : Forwards ch i d (d.evtIf b f) := by
  unfold Dev.evtIf
  split
  · exact evt d f h
  · exact refl d

theorem lose (d : Dev) : Forwards ch i d (d.lose ch) := wr d _ _ (Or.inr (Or.inl rfl))

theorem stat {a : Nat} (h : a = rMCH_STAT ch) : EdgeReg ch a := Or.inr (Or.inr (Or.inl h))

theorem meas {a : Nat} (h : a = rMEAS_STAT) : EdgeReg ch a := Or.inr (Or.inr (Or.inr h))

theorem setChan (d : Dev) (f : Chan → Chan) : Forwards ch i d (d.setChan i f) where
  word _ _ := rfl
  past := rfl
  clk := rfl
  handover := rfl
  events _ hev := hev
  chan _ hj := getD_updAt_of_ne f Chan.fresh hj
  kind _ := rfl
  cell _ _ _ _ := rfl

/-- A cell that takes an edge. -/
theorem setCell (d : Dev) {f : Cell → Cell} (hf : ∀ c, ((f c).role, (f c).stream) = (c.role, c.stream)) {k : Nat}
    (h : d.meas.handover = none → (d.cell k).role = .loop → (d.cell k).stream = ch) : Forwards ch i d (d.setCell k f) where
  word _ _ := rfl
  past := rfl
  clk := rfl
  handover := rfl
  events _ hev := hev
  chan _ _ := rfl
  kind _ := Dev.cell_setCell_of_same (fun c => (c.role, c.stream)) (hf _)
  cell hh _ hr hs := Dev.cell_setCell_of_ne f fun hn => hs (hn ▸ h hh (hn ▸ hr))

theorem startEvent (d : Dev) (arr tag mseq : Nat) (ks : List Nat) (ho : Option Nat)
    (h : d.meas.handover = none → ∀ k ∈ ks, (d.cell k).role = .loop → (d.cell k).stream = ch) :
    Forwards ch (chanIdx ch tag) d (d.startEvent ch arr tag mseq ks ho) := by
  have start : ∀ f : Cell → Cell, (∀ c, ((f c).role, (f c).stream) = (c.role, c.stream)) → ∀ (l : List Nat) (x : Dev),
      (x.meas.handover = none → ∀ k ∈ l, (x.cell k).role = .loop → (x.cell k).stream = ch) →
      Forwards ch (chanIdx ch tag) x (l.foldl (fun d k => d.setCell k f) x) := by
    intro f hf l
    induction l with
    | nil => exact fun x _ => refl x
    | cons k t ih =>
      intro x hx
      have hk : Forwards ch (chanIdx ch tag) x (x.setCell k f) := setCell x hf fun hh => hx hh k (List.mem_cons_self ..)
      refine hk.trans (ih _ fun hh n hn => ?_)
      obtain ⟨hrole, hstream⟩ := Prod.mk.inj (hk.kind n)
      rw [hrole, hstream]
      exact hx hh n (List.mem_cons_of_mem _ hn)
  unfold Dev.startEvent
  extract_lets e x y
  have hx : Forwards ch (chanIdx ch tag) d x := by
    refine start _ ?_ ks d h
    exact fun _ => rfl
  have hy : Forwards ch (chanIdx ch tag) x y := setChan x _
  refine (hx.trans hy).trans ?_
  exact ⟨⟨fun _ _ => rfl, rfl, rfl, fun _ hev => List.mem_append_left _ hev, fun _ _ => rfl, fun _ => rfl, fun _ _ _ _ => rfl⟩, rfl⟩

theorem forwarded (d : Dev) (arr : Nat) : Forwards ch i d (d.forwarded ch i arr) :=
  (wr d _ _ (Or.inl rfl)).trans (setChan _ _)

theorem edgeLate (d : Dev) (dead viol : Bool) : Forwards ch i d (d.edgeLate ch dead viol).1 :=
  (((lose d).trans (evtIf _ _ _ (stat rfl))).trans (evtIf _ _ _ (stat rfl))).trans (evtIf _ _ _ (meas rfl))

/-- The cells that take an edge of a loop stream are its own, or stand in. -/
theorem loopTakers_kind (d : Dev) (tag k : Nat) (hk : k ∈ d.loopTakers ch tag) (hr : (d.cell k).role = .loop) : (d.cell k).stream = ch := by
  have stands : ∀ p : Nat → Bool, k ∈ (d.standIns ch).filter p → (d.cell k).stream = ch := fun p hp => by
    obtain ⟨-, hq⟩ := Dev.mem_cellsWhere.mp (List.mem_filter.mp hp).1
    simp [hr] at hq
  have own : ∀ p : Nat → Bool, k ∈ (d.loopCells ch).filter p → (d.cell k).stream = ch := fun p hp => by
    obtain ⟨-, hq⟩ := Dev.mem_cellsWhere.mp (List.mem_filter.mp hp).1
    simp only [Bool.and_eq_true, decide_eq_true_eq] at hq
    exact hq.2
  unfold Dev.loopTakers at hk
  split at hk
  · exact stands _ hk
  · exact own _ hk

theorem loopEdge (d : Dev) (arr tag mseq : Nat) : Forwards ch (chanIdx ch tag) d (d.loopEdge ch arr tag mseq).1 := by
  have own := fun k => loopTakers_kind (ch := ch) d tag k
  have plain : Forwards ch (chanIdx ch tag) d (d.startEvent ch arr tag mseq (d.loopTakers ch tag) none) :=
    startEvent d arr tag mseq _ none fun _ => own
  unfold Dev.loopEdge
  split
  · exact (lose d).trans (evt _ _ (meas rfl))
  · split
    next h hh =>
      split
      · refine startEvent d arr tag mseq _ _ fun hno => ?_
        unfold Dev.handoverPart at hh
        rw [hno] at hh
        exact absurd hh nofun
      · exact plain
    next => exact plain

theorem jobEdge (d : Dev) (arr tag mseq : Nat) : Forwards ch (chanIdx ch tag) d (d.jobEdge ch arr tag mseq).1 := by
  have other : ∀ k ∈ d.jobTakers ch, (d.cell k).role = .loop → (d.cell k).stream = ch := fun k hk hr => by
    have armed : ¬ k ∈ d.armedOn ch := fun h => by
      have hq := (Dev.mem_cellsWhere.mp h).2
      simp [hr] at hq
    have stands : ∀ p : Nat → Bool, ¬ k ∈ (d.standIns ch).filter p := fun p hp => by
      have hq := (Dev.mem_cellsWhere.mp (List.mem_filter.mp hp).1).2
      simp [hr] at hq
    unfold Dev.jobTakers at hk
    split at hk
    · exact absurd hk (stands _)
    · exact absurd hk armed
  unfold Dev.jobEdge
  split
  · exact ((lose d).trans (evt _ _ (stat rfl))).trans (evt _ _ (meas rfl))
  · exact startEvent d arr tag mseq _ none fun _ => other

theorem forwardEdge (d : Dev) (arr tag mseq : Nat) : Forwards ch (chanIdx ch tag) d (d.forwardEdge ch arr tag mseq).1 := by
  have hf : Forwards ch (chanIdx ch tag) d (d.forwarded ch (chanIdx ch tag) arr) := forwarded d arr
  rw [Dev.forwardEdge_eq]
  split
  · exact hf.trans (edgeLate ..)
  · split
    · exact hf.trans (loopEdge ..)
    · split
      · exact hf.trans (jobEdge ..)
      · exact hf

theorem channelEdge (d : Dev) (arr tag mseq : Nat) : Forwards ch (chanIdx ch tag) d (d.channelEdge ch arr tag mseq).1 := by
  unfold Dev.channelEdge
  split
  · exact refl d
  · dsimp only
    split
    · exact setChan ..
    · exact (setChan ..).trans (forwardEdge ..)

theorem askSelect (d : Dev) (m : Option Nat) : Forwards ch i d (d.askSelect m) := of_meas (fun _ _ => rfl) rfl rfl rfl

theorem lostEdge (h12 : 12 ≤ ch) (h50 : ch < 50) (d : Dev) (arr tag : Nat) : Forwards ch i d (d.lostEdge ch arr tag) := by
  have heq : d.lostEdge ch arr tag = d.jobsLost ch arr tag := by
    unfold Dev.lostEdge Dev.fmLost Dev.fmEach
    dsimp only
    rw [if_neg (by omega), if_neg (by omega), if_neg (by omega)]
  rw [heq]
  exact of_meas (fun _ _ => rfl) rfl rfl rfl

/-- An edge of a channel that is no REFIN and no BEAT input. -/
theorem edgeOn (h20 : 20 ≤ ch) (h50 : ch < 50) (d : Dev) (sub tag mseq : Nat) : Forwards ch (chanIdx ch tag) d (d.edgeOn ch sub tag mseq) := by
  unfold Dev.edgeOn
  extract_lets before events r d1 fwd d2 d3
  have h1 : Forwards ch (chanIdx ch tag) d d1 := channelEdge ..
  have h2 : Forwards ch (chanIdx ch tag) d1 d2 := by
    unfold d2 Dev.when
    split
    · exact lostEdge (by omega) h50 ..
    · exact refl _
  have h3 : d3 = d2 := by
    unfold d3
    rw [decide_eq_false (by omega : ¬ ch < 12), Bool.and_false]
    rfl
  rw [h3]
  refine (h1.trans h2).trans ?_
  split
  · rw [if_neg (by omega)]
    split
    · exact refl _
    · exact of_meas (fun _ _ => rfl) rfl rfl rfl
  · exact refl _

end Forwards

end Sys2Proof.Machine
end

section
/-!
PROOF. Marks that are launched and that arrive (08 R215; O57).
-/

namespace Sys2Proof.Machine

/-! ### Links and the frames put on them -/

section
variable {d : Dev} {x y : Nat}

theorem Dev.link_setLink_self (f : Link → Link) (h : x < d.past.links.length) : (d.setLink x f).link x = f (d.link x) :=
  getD_updAt_self f Link.fresh h

theorem Dev.link_setLink_of_ne (f : Link → Link) (h : x ≠ y) : (d.setLink y f).link x = d.link x := getD_updAt_of_ne f Link.fresh h

theorem Dev.sendOn_past (t ds sr h q : Nat) (p : List Nat) (d : Dev) : ∃ r, d.sendOn x t ds sr h q p = { d with past := r } := by
  unfold Dev.sendOn
  split
  · exact ⟨_, rfl⟩
  · exact ⟨d.past, rfl⟩

/-- A frame put on a link that is UP waits. -/
theorem Dev.mem_sendOn (hu : d.linkUp x = true) (t ds sr h q : Nat) (p : List Nat) :
    PFrame.of x t ds sr h q p ∈ (d.sendOn x t ds sr h q p).past.tx ∧
      (x < d.past.lanes.length → PFrame.of x t ds sr h q p ∈ ((d.sendOn x t ds sr h q p).past.lanes.getD x Lane.fresh).queue) := by
  unfold Dev.sendOn
  rw [if_pos hu]
  refine ⟨mem_insertFrame.mpr (Or.inl rfl), fun hl => ?_⟩
  unfold Dev.queueOn
  dsimp only [PFrame.of]
  rw [getD_updAt_self _ Lane.fresh hl]
  exact mem_insertFrame.mpr (Or.inl rfl)

end

/-! ### A mark is launched on one link -/

/-- A MARK on link `y`, if that is UP (R215). -/
def Dev.launchOn (y sub : Nat) (d : Dev) : Dev :=
  if d.linkUp y then
    let m := ((d.link y).mseq + 1) % 65536
    let d := d.setLink y fun l => { l with mseq := m }
    (d.sendNear y 1 (bytesN 2 m)).edgeOn (44 + y) sub 1 m
  else d

theorem Dev.markLaunch_eq (a b : Nat) (d : Dev) : d.markLaunch a b = (d.launchOn 0 a).launchOn 1 b := rfl

/-- What a mark on link `y` leaves. -/
structure MarkKept (y : Nat) (d e : Dev) : Prop extends EdgeLeft (44 + y) (44 + y) d e where
  link : ∀ x, x ≠ y → e.link x = d.link x
  links : e.past.links.length = d.past.links.length
  lanes : e.past.lanes.length = d.past.lanes.length
  tx : ∀ f ∈ d.past.tx, f ∈ e.past.tx
  queue : ∀ x, ∀ f ∈ (d.past.lanes.getD x Lane.fresh).queue, f ∈ (e.past.lanes.getD x Lane.fresh).queue

theorem MarkKept.refl (y : Nat) (d : Dev) : MarkKept y d d :=
  ⟨(Forwards.refl d).toEdgeLeft, fun _ _ => rfl, rfl, rfl, fun _ h => h, fun _ _ h => h⟩

/-- The pasture with the mark on its way, and the edge of its launch. -/
theorem Dev.launchOn_up {y : Nat} {d : Dev} (hu : d.linkUp y = true) (sub : Nat) {m : Nat} (hm : m = ((d.link y).mseq + 1) % 65536) :
    ∃ p, d.launchOn y sub = ({ d with past := p } : Dev).edgeOn (44 + y) sub 1 m ∧ (∀ x, x ≠ y → p.links.getD x Link.fresh = d.link x) ∧
      (y < d.past.links.length → (p.links.getD y Link.fresh).mseq = m) ∧ p.links.length = d.past.links.length ∧
      p.lanes.length = d.past.lanes.length ∧ (∀ f ∈ d.past.tx, f ∈ p.tx) ∧
      (∀ x, ∀ f ∈ (d.past.lanes.getD x Lane.fresh).queue, f ∈ (p.lanes.getD x Lane.fresh).queue) ∧
      PFrame.of y 1 0xE d.pastIndex 0 0 (bytesN 2 m) ∈ p.tx ∧
      (y < d.past.lanes.length → PFrame.of y 1 0xE d.pastIndex 0 0 (bytesN 2 m) ∈ (p.lanes.getD y Lane.fresh).queue) := by
  have hset : ∃ x : Dev, x = d.setLink y fun l => { l with mseq := m } := ⟨_, rfl⟩
  obtain ⟨x, hx⟩ := hset
  have hstart : d.launchOn y sub = (x.sendNear y 1 (bytesN 2 m)).edgeOn (44 + y) sub 1 m := by
    unfold Dev.launchOn
    rw [if_pos hu, hx, hm]
  have hup : x.linkUp y = true := by rw [hx]; exact hu
  have hidx : x.pastIndex = d.pastIndex := by rw [hx]; rfl
  have hself : y < d.past.links.length → (x.link y).mseq = m := fun hl => by rw [hx, Dev.link_setLink_self _ hl]
  have hother : ∀ z, z ≠ y → x.link z = d.link z := fun z hz => by rw [hx, Dev.link_setLink_of_ne _ hz]
  have hlen : x.past.links.length = d.past.links.length := by rw [hx]; exact List.length_modify ..
  have hwait : x.past.tx = d.past.tx ∧ x.past.lanes = d.past.lanes := by rw [hx]; exact ⟨rfl, rfl⟩
  have hpast : ∀ p, ({ x with past := p } : Dev) = { d with past := p } := fun p => by rw [hx]; rfl
  have hmem := Dev.mem_sendOn hup 1 0xE x.pastIndex 0 0 (bytesN 2 m)
  have hgrown := PastGrown.sendOn y 1 0xE x.pastIndex 0 0 (bytesN 2 m) x
  obtain ⟨p, hp⟩ := Dev.sendOn_past (x := y) 1 0xE x.pastIndex 0 0 (bytesN 2 m) x
  rw [hp, hidx] at hmem
  rw [hp] at hgrown
  obtain ⟨htx, hlanes⟩ := hwait
  refine ⟨p, ?_, ?_, ?_, ?_, ?_, ?_, ?_, hmem.1, ?_⟩
  · rw [hstart, ← hpast p, ← hp]
    rfl
  · exact fun z hz => (congrArg (fun l : List Link => l.getD z Link.fresh) hgrown.links).trans (hother z hz)
  · exact fun hl => (congrArg (fun l : List Link => (l.getD y Link.fresh).mseq) hgrown.links).trans (hself hl)
  · exact (congrArg List.length hgrown.links).trans hlen
  · rw [← hlanes]
    exact hgrown.lanes
  · rw [← htx]
    exact hgrown.tx
  · rw [← hlanes]
    exact hgrown.queue
  · rw [← hlanes]
    exact hmem.2

theorem MarkKept.launchOn {y : Nat} (hy : y < 2) (sub : Nat) (d : Dev) : MarkKept y d (d.launchOn y sub) := by
  by_cases hu : d.linkUp y = true
  · obtain ⟨p, heq, hother, -, hlinks, hlanes, htx, hqueue, -, -⟩ := Dev.launchOn_up hu sub rfl
    have hf := Forwards.edgeOn (ch := 44 + y) (by omega) (by omega) { d with past := p } sub 1 (((d.link y).mseq + 1) % 65536)
    rw [heq]
    generalize ({ d with past := p } : Dev).edgeOn (44 + y) sub 1 _ = e at hf
    have hpast : e.past = p := hf.past
    subst hpast
    obtain ⟨hword, hclk, hho, hev, hchan, hkind, hcell⟩ := hf.toEdgeLeft
    exact ⟨⟨hword, hclk, hho, hev, hchan, hkind, hcell⟩, hother, hlinks, hlanes, htx, hqueue⟩
  · unfold Dev.launchOn
    rw [if_neg hu]
    exact MarkKept.refl y d

theorem Dev.launchOn_mseq {y : Nat} {d : Dev} (hy : y < 2) (hl : d.past.links.length = 2) (sub : Nat) :
    ((d.launchOn y sub).link y).mseq = if d.linkUp y then ((d.link y).mseq + 1) % 65536 else (d.link y).mseq := by
  split
  next hu =>
    obtain ⟨p, heq, -, hself, -⟩ := Dev.launchOn_up hu sub rfl
    have hf := Forwards.edgeOn (ch := 44 + y) (by omega) (by omega) { d with past := p } sub 1 (((d.link y).mseq + 1) % 65536)
    rw [heq]
    exact (congrArg (fun q : Past => (q.links.getD y Link.fresh).mseq) hf.past).trans (hself (by omega))
  next hu =>
    unfold Dev.launchOn
    rw [if_neg hu]

theorem Dev.launchOn_sent {y : Nat} {d : Dev} (hy : y < 2) (hu : d.linkUp y = true) (hl : d.past.lanes.length = 2) (sub : Nat) :
    PFrame.of y 1 0xE d.pastIndex 0 0 (bytesN 2 (((d.link y).mseq + 1) % 65536)) ∈ (d.launchOn y sub).past.tx ∧
      PFrame.of y 1 0xE d.pastIndex 0 0 (bytesN 2 (((d.link y).mseq + 1) % 65536)) ∈ ((d.launchOn y sub).past.lanes.getD y Lane.fresh).queue := by
  obtain ⟨p, heq, -, -, -, -, -, -, htx, hqueue⟩ := Dev.launchOn_up hu sub rfl
  have hf := Forwards.edgeOn (ch := 44 + y) (by omega) (by omega) { d with past := p } sub 1 (((d.link y).mseq + 1) % 65536)
  rw [heq]
  refine ⟨?_, ?_⟩
  · rw [hf.past]
    exact htx
  · rw [hf.past]
    exact hqueue (by omega)

/-! ### The event that a mark's edge starts -/

section
variable {d : Dev} {ch sub tag mseq k : Nat}

/-- What a loop stream's edge finds: one cell of its half, idle, and no edge that is too near. -/
structure TakesEdge (d : Dev) (ch sub tag k : Nat) : Prop where
  measuring : d.measuring = true
  claimed : d.claimed ch = true
  handover : d.meas.handover = none
  taker : (d.loopCells ch).filter (fun i => !(d.cell i).busy && decide ((d.cell i).half + 1 = tag)) = [k]
  dec : d.rd (MCH_DEC_DEC ch) = 1
  fwd : ∀ t, (d.chan (chanIdx ch tag)).lastFwd = some t → t + 163840 ≤ d.arrival sub
  conv : ∀ t, (d.chan (chanIdx ch tag)).lastConv = some t → t + 500 * 65536 ≤ d.arrival sub

theorem Dev.edgeOn_event (h : TakesEdge d ch sub tag k) (h20 : 20 ≤ ch) (h50 : ch < 50) (ht : tag ≠ 0) :
    d.newEvent ch (d.arrival sub) tag mseq [k] ∈ (d.edgeOn ch sub tag mseq).meas.events := by
  obtain ⟨hm, hc, hho, htaker, hdec, hfwd, hconv⟩ := h
  obtain ⟨hlastF, hlastC⟩ := d.chan_recount (chanIdx ch tag) 0
  have hown : ((d.setChan (chanIdx ch tag) fun c => { c with count := 0 }).loopCells ch).filter (fun i =>
      !((d.setChan (chanIdx ch tag) fun c => { c with count := 0 }).cell i).busy && (decide (tag = 0) ||
        decide (((d.setChan (chanIdx ch tag) fun c => { c with count := 0 }).cell i).half + 1 = tag))) = [k] := by
    rw [decide_eq_false ht]
    exact htaker
  obtain ⟨e, he, -, hev, -⟩ := Dev.forwardEdge_loop (d := d.setChan (chanIdx ch tag) fun c => { c with count := 0 }) (ch := ch) (mseq := mseq) hc
    (fun t h => hfwd t (hlastF.symm.trans h)) (fun t h => hconv t (hlastC.symm.trans h)) hown hho
  have hedge := (Dev.channelEdge_forwards (d := d) hm (d.arrival sub) tag mseq (by omega)).trans he
  have hmem : d.newEvent ch (d.arrival sub) tag mseq [k] ∈ e.meas.events := by
    rw [hev]
    exact List.mem_append_right _ (List.mem_singleton.mpr rfl)
  clear hev he
  unfold Dev.edgeOn
  extract_lets before events r d1 fwd d2 d3
  have h1 : d1 = e := congrArg Prod.fst hedge
  have h2 : d2.meas = e.meas := by
    unfold d2
    rw [← h1]
    exact (Dev.lostEdge_when ..).1
  have h3 : d3 = d2 := by
    unfold d3
    rw [decide_eq_false (by omega : ¬ ch < 12), Bool.and_false]
    rfl
  rw [h3]
  have hres : ∀ y : Dev, y.meas = e.meas → d.newEvent ch (d.arrival sub) tag mseq [k] ∈ y.meas.events := fun y hy => hy ▸ hmem
  split
  · rw [if_neg (by omega)]
    split
    · exact hres _ h2
    · exact hres _ h2
  · exact hres _ h2

end

end Sys2Proof.Machine
end

section
/-!
PROOF. The commands MARK_LAUNCH and MARK_RX (08 R215; O57).
-/

namespace Sys2Proof.Machine

section
variable {d e : Dev} {x y : Nat}

/-- A register of the pasture is none that an edge writes. -/
theorem not_edgeReg {ch a : Nat} (hch : ch < 50) (h : 0x0A0000 ≤ a) : ¬ EdgeReg ch a := by
  unfold EdgeReg rMCH_FWD rMCH_LOST rMCH_STAT rMEAS_STAT
  omega

theorem MarkKept.rd (h : MarkKept y d e) (hy : y < 2) {f : Fld} (hf : 0x0A0000 ≤ f.addr) : e.rd f = d.rd f :=
  Dev.rd_of_word (h.word _ (not_edgeReg (by omega) hf))

theorem MarkKept.flag (h : MarkKept y d e) (hy : y < 2) {f : Fld} (hf : 0x0A0000 ≤ f.addr) : e.flag f = d.flag f :=
  Dev.flag_of_rd (h.rd hy hf)

theorem MarkKept.linkUp (h : MarkKept y d e) (hy : y < 2) : e.linkUp x = d.linkUp x :=
  h.flag hy (show 0x0A0000 ≤ 0x0A0108 + 0x80 * x by omega)

/-- An edge of one link's channel leaves what another stream's edge finds. -/
theorem TakesEdge.of_left {ch i ch' sub tag k : Nat} (h : EdgeLeft ch' i d e) (hm : e.measuring = d.measuring) (hch : 44 ≤ ch)
    (hne : ch ≠ ch') (hi : chanIdx ch tag ≠ i) (t : TakesEdge d ch sub tag k) : TakesEdge e ch sub tag k := by
  obtain ⟨hmeas, hc, hho, htaker, hdec, hfwd, hconv⟩ := t
  have hreg : ∀ a, (a = rMCH_CFG ch ∨ a = rMCH_DEC ch) → e.word a = d.word a := fun a ha => h.word a (by
    unfold rMCH_CFG rMCH_DEC at ha
    unfold EdgeReg rMCH_FWD rMCH_LOST rMCH_STAT rMEAS_STAT
    omega)
  have hloop : e.loopCells ch = d.loopCells ch := by
    unfold Dev.loopCells Dev.cellsWhere
    refine List.filter_congr fun i _ => ?_
    obtain ⟨hrole, hstream⟩ := Prod.mk.inj (h.kind i)
    beta_reduce
    rw [hrole, hstream]
  have harr : e.arrival sub = d.arrival sub := by
    unfold Dev.arrival
    rw [h.clk]
  have hcell : ∀ n ∈ d.loopCells ch, e.cell n = d.cell n := fun n hn => by
    obtain ⟨-, hq⟩ := Dev.mem_cellsWhere.mp hn
    simp only [Bool.and_eq_true, decide_eq_true_eq] at hq
    exact h.cell hho n hq.1 (by rw [hq.2]; exact hne)
  refine ⟨hm.trans hmeas, (Dev.flag_of_rd (Dev.rd_of_word (f := MCH_CFG_CLAIMED ch) (hreg _ (Or.inl rfl)))).trans hc, h.handover.trans hho, ?_,
    (Dev.rd_of_word (f := MCH_DEC_DEC ch) (hreg _ (Or.inr rfl))).trans hdec, ?_, ?_⟩
  · rw [hloop, ← htaker]
    exact List.filter_congr fun n hn => by rw [hcell n hn]
  · rw [h.chan _ hi, harr]
    exact hfwd
  · rw [h.chan _ hi, harr]
    exact hconv

theorem EdgeLeft.mode {ch i : Nat} (h : EdgeLeft ch i d e) : e.mode = d.mode :=
  mode_congr (h.word _ (by unfold EdgeReg rMCH_FWD rMCH_LOST rMCH_STAT rMEAS_STAT rDEV_MODE; omega))

theorem EdgeLeft.measuring {ch i : Nat} (h : EdgeLeft ch i d e) : e.measuring = d.measuring := by
  unfold Dev.measuring
  rw [h.mode]

end

variable {s : State} {dt x : Nat}

/-- MARK_LAUNCH: the sequence of each link that is UP advances, and its MARK waits for the transmitter. -/
theorem Dev.markLaunch_sends {d : Dev} (hx : x < 2) (hl : d.past.links.length = 2) (a b : Nat) :
    ((d.markLaunch a b).link x).mseq = (if d.linkUp x then ((d.link x).mseq + 1) % 65536 else (d.link x).mseq) ∧
      (d.linkUp x = true → d.past.lanes.length = 2 → ∃ f, f ∈ (d.markLaunch a b).past.tx ∧
        f ∈ ((d.markLaunch a b).past.lanes.getD x Lane.fresh).queue ∧
          f = PFrame.of x 1 0xE d.pastIndex 0 0 (bytesN 2 (((d.link x).mseq + 1) % 65536))) := by
  rw [Dev.markLaunch_eq]
  have hfirst := MarkKept.launchOn (by decide : 0 < 2) a d
  have hthen := MarkKept.launchOn (by decide : 1 < 2) b (d.launchOn 0 a)
  obtain rfl | rfl : x = 0 ∨ x = 1 := by omega
  · refine ⟨?_, fun hu hlanes => ?_⟩
    · rw [hthen.link 0 (by decide)]
      exact Dev.launchOn_mseq (by decide) hl a
    · obtain ⟨h1, h2⟩ := Dev.launchOn_sent (by decide) hu hlanes a
      exact ⟨_, hthen.tx _ h1, hthen.queue 0 _ h2, rfl⟩
  · have hlink := hfirst.link 1 (by decide)
    have hup := hfirst.linkUp (x := 1) (by decide)
    refine ⟨?_, fun hu hlanes => ?_⟩
    · rw [Dev.launchOn_mseq (by decide) (hfirst.links.trans hl) b, hlink, hup]
    · obtain ⟨h1, h2⟩ := Dev.launchOn_sent (d := d.launchOn 0 a) (by decide) (hup.trans hu) (hfirst.lanes.trans hlanes) b
      refine ⟨_, h1, h2, ?_⟩
      rw [hlink]
      exact congrArg (fun i => PFrame.of 1 1 0xE i 0 0 _) (hfirst.rd (f := PAST_CFG_INDEX) (by decide) (by decide))

/-- MARK_LAUNCH: the launch on a link that is UP starts its event. -/
theorem Dev.markLaunch_event {d : Dev} {a b sub k : Nat} (hx : x < 2) (hu : d.linkUp x = true) (hsub : sub = if x = 0 then a else b)
    (ht : TakesEdge d (44 + x) sub 1 k) :
    d.newEvent (44 + x) (d.arrival sub) 1 (((d.link x).mseq + 1) % 65536) [k] ∈ (d.markLaunch a b).meas.events := by
  have launch : ∀ e : Dev, e.linkUp x = true → TakesEdge e (44 + x) sub 1 k →
      e.newEvent (44 + x) (e.arrival sub) 1 (((e.link x).mseq + 1) % 65536) [k] ∈ (e.launchOn x sub).meas.events := fun e he t => by
    obtain ⟨p, heq, -⟩ := Dev.launchOn_up he sub rfl
    rw [heq]
    obtain ⟨hmeas, hc, hho, htaker, hdec, hfwd, hconv⟩ := t
    exact Dev.edgeOn_event (d := { e with past := p }) ⟨hmeas, hc, hho, htaker, hdec, hfwd, hconv⟩ (by omega) (by omega) (by decide)
  rw [Dev.markLaunch_eq]
  obtain rfl | rfl : x = 0 ∨ x = 1 := by omega
  · rw [if_pos rfl] at hsub
    subst hsub
    exact (MarkKept.launchOn (by decide : 1 < 2) b (d.launchOn 0 sub)).events _ (launch d hu ht)
  · rw [if_neg (by decide)] at hsub
    subst hsub
    have hfirst := MarkKept.launchOn (by decide : 0 < 2) a d
    have hthen := launch (d.launchOn 0 a) ((hfirst.linkUp (by decide)).trans hu)
      (ht.of_left hfirst.toEdgeLeft hfirst.measuring (by decide) (by decide) (by decide))
    have hnew : (d.launchOn 0 a).newEvent 45 ((d.launchOn 0 a).arrival sub) 1 ((((d.launchOn 0 a).link 1).mseq + 1) % 65536) [k] =
        d.newEvent 45 (d.arrival sub) 1 (((d.link 1).mseq + 1) % 65536) [k] := by
      unfold Dev.newEvent Dev.rdS Dev.arrival
      rw [hfirst.clk, hfirst.link 1 (by decide), Dev.rd_of_word (f := MCH_TRIM_TRIM 45) (hfirst.word _ (by unfold EdgeReg; decide))]
    exact hnew ▸ hthen

/-- MARK_RX of a link in sync whose frames are not ignored: the frame is counted and its edge arrives. -/
theorem Dev.markRx_of_near {d : Dev} (h : (d.flag (PLINK_STAT_SYNC x) && !d.ignoresNear x) = true) (q sub : Nat) :
    d.markRx x q sub = (d.countFrame x).edgeOn (44 + x) sub 2 q := by
  unfold Dev.markRx
  rw [if_pos (by simpa using h)]

theorem Dev.countFrame_word {a : Nat} (ha : a < 0x0A0000) (d : Dev) : (d.countFrame x).word a = d.word a :=
  Dev.word_setWord_of_ne d _ a _ (by simp only [PLINK_FRAMES_COUNT, rPLINK_FRAMES]; omega)

/-- Counting a frame touches nothing that an edge finds. -/
theorem TakesEdge.countFrame {d : Dev} {ch sub tag k : Nat} (hch : ch < 50) (t : TakesEdge d ch sub tag k) : TakesEdge (d.countFrame x) ch sub tag k := by
  obtain ⟨hm, hc, hho, htaker, hdec, hfwd, hconv⟩ := t
  have hmode : (d.countFrame x).mode = d.mode := mode_congr (Dev.countFrame_word (by decide) d)
  refine ⟨?_, ?_, hho, htaker, ?_, hfwd, hconv⟩
  · unfold Dev.measuring at hm ⊢
    rwa [hmode]
  · exact (Dev.flag_of_rd (Dev.rd_of_word (f := MCH_CFG_CLAIMED ch) (Dev.countFrame_word (by simp only [MCH_CFG_CLAIMED, rMCH_CFG]; omega) d))).trans hc
  · exact (Dev.rd_of_word (f := MCH_DEC_DEC ch) (Dev.countFrame_word (by simp only [MCH_DEC_DEC, rMCH_DEC]; omega) d)).trans hdec

/-- MARK_RX: its arrival starts its event. -/
theorem Dev.markRx_event {d : Dev} {q sub k : Nat} (hx : x < 2) (h : (d.flag (PLINK_STAT_SYNC x) && !d.ignoresNear x) = true)
    (ht : TakesEdge d (44 + x) sub 2 k) : d.newEvent (44 + x) (d.arrival sub) 2 q [k] ∈ (d.markRx x q sub).meas.events := by
  rw [Dev.markRx_of_near h]
  have hnew : (d.countFrame x).newEvent (44 + x) ((d.countFrame x).arrival sub) 2 q [k] = d.newEvent (44 + x) (d.arrival sub) 2 q [k] := by
    have htrim := Dev.rd_of_word (f := MCH_TRIM_TRIM (44 + x)) (Dev.countFrame_word (x := x) (by simp only [MCH_TRIM_TRIM, rMCH_TRIM]; omega) d)
    unfold Dev.newEvent Dev.rdS
    rw [htrim]
    rfl
  rw [← hnew]
  exact Dev.edgeOn_event (ht.countFrame (by omega)) (by omega) (by omega) (by decide)

/-- MARK_RX counts its frame. -/
theorem Dev.markRx_frames {d : Dev} (hx : x < 2) (q sub : Nat) : (d.markRx x q sub).rd (PLINK_FRAMES_COUNT x) =
    if d.flag (PLINK_STAT_SYNC x) && !d.ignoresNear x then (d.rd (PLINK_FRAMES_COUNT x) + 1) % 2 ^ 32 else d.rd (PLINK_FRAMES_COUNT x) := by
  split
  next h =>
    have hf := Forwards.edgeOn (ch := 44 + x) (by omega) (by omega) (d.countFrame x) sub 2 q
    rw [Dev.markRx_of_near h, Dev.rd_of_word (hf.word _ (not_edgeReg (by omega) (by simp only [PLINK_FRAMES_COUNT, rPLINK_FRAMES]; omega)))]
    exact Dev.bump_rd d (f := PLINK_FRAMES_COUNT x) ⟨Nat.zero_le _, show 31 < 32 by decide⟩
  next h =>
    unfold Dev.markRx
    rw [if_neg (by simpa using h)]

/-! ### The commands -/

/-- MARK_LAUNCH, in any mode in which the links run. -/
theorem markLaunch_effects (hr : s.dev.running = true) {a b : Nat} {P : Dev → Prop} (h : P ((s.dev.advance dt).markLaunch a b)) :
    Effects (.markLaunch dt a b) s P := by
  refine Effects.of_run (f := Dev.whenNow Dev.running (Dev.markLaunch a b)) rfl ?_
  rw [Dev.whenNow_pos (show Dev.running (s.dev.advance dt) = true from hr)]
  exact h

/-- MARK_RX, in any mode in which the links run. -/
theorem markRx_effects (hx : x < 2) (hr : s.dev.running = true) {q sub : Nat} {P : Dev → Prop} (h : P ((s.dev.advance dt).markRx x q sub)) :
    Effects (.markRx dt x q sub) s P := by
  refine Effects.of_run (f := within x 2 (Dev.whenNow Dev.running (Dev.markRx x q sub))) rfl ?_
  rw [within_of_lt hx, Dev.whenNow_pos (show Dev.running (s.dev.advance dt) = true from hr)]
  exact h

end Sys2Proof.Machine
end

section
/-!
PROOF. Timestamps of a link's marks (08 R215, R216; O57).
-/

namespace Sys2Proof.Machine

section
variable {d : Dev} {x : Nat}

/-- A timestamp of a link's channel reaches the link, with the pasture as jobs, ALIGN and the paddocks leave it. -/
theorem Dev.deliver_link {s : Stamp} (hx : x < 2) (h : s.chan = 44 + x) (d : Dev) : ∃ z, d.deliver s = z.linkStamp x s.tag s.mseq s.ts ∧
    PastGrown d z ∧ z.linkUp x = d.linkUp x ∧ z.pastIndex = d.pastIndex := by
  have hheard : Heard d ((d.jobsTake s).alignStamp s.chan s.ts) := (Heard.jobsTake s d).trans (Heard.alignStamp ..)
  have hfm : ((d.jobsTake s).alignStamp s.chan s.ts).fmStamp s.chan s.ts s.arr = (d.jobsTake s).alignStamp s.chan s.ts := by
    unfold Dev.fmStamp Dev.fmEach
    dsimp only
    rw [if_neg (by omega), if_neg (by omega), if_neg (by omega)]
  refine ⟨forN 16 (fun n d => d.padStamp n s.chan s.ts 0) ((d.jobsTake s).alignStamp s.chan s.ts), ?_, ?_⟩
  · unfold Dev.deliver
    dsimp only
    rw [hfm, if_neg (fun hc => by omega)]
    unfold Dev.when
    rw [if_pos (by simp; omega), if_neg (by simp; omega), h, Nat.add_sub_cancel_left]
  · generalize (d.jobsTake s).alignStamp s.chan s.ts = y at hheard
    have hpads : ∃ p, forN 16 (fun n d => d.padStamp n s.chan s.ts 0) y = { y with pads := p } :=
      List.foldlRecOn (motive := fun z : Dev => ∃ p, z = { y with pads := p }) _ _ ⟨y.pads, rfl⟩ fun z hz i _ => by
        obtain ⟨p, rfl⟩ := hz
        obtain ⟨q, hq, -⟩ := ({ y with pads := p } : Dev).padStamp_pads i s.chan s.ts 0
        exact ⟨q, hq⟩
    obtain ⟨p, hp⟩ := hpads
    rw [hp]
    have hreg : ∀ a, 0x0A0000 ≤ a → a % 0x40 = 0 ∨ a % 0x40 = 8 → y.word a = d.word a := fun a h1 h2 =>
      hheard.word a (Or.inr (Or.inr (Or.inr ⟨h1, h2⟩)))
    obtain ⟨hlinks, hlanes, htx, hqueue⟩ := hheard.past
    refine ⟨⟨hlinks, hlanes, htx, hqueue⟩, ?_, ?_⟩
    · exact Dev.flag_of_rd (Dev.rd_of_word (f := PLINK_STAT_UP x) (hreg (0x0A0108 + 0x80 * x) (by omega) (by omega)))
    · exact Dev.rd_of_word (f := PAST_CFG_INDEX) (hreg _ (by decide) (by decide))

/-- The arrival of a mark is kept. -/
theorem Dev.linkStamp_arrival (hl : x < d.past.links.length) (mseq ts : Nat) :
    ((d.linkStamp x 2 mseq ts).link x).arrivals = (⟨mseq, ts⟩ :: (d.link x).arrivals).take 4 ∧
      ((d.linkStamp x 2 mseq ts).link x).launches = (d.link x).launches := by
  unfold Dev.linkStamp
  rw [if_pos rfl, Dev.link_setLink_self _ hl]
  exact ⟨rfl, rfl⟩

/-- The launch of a mark is kept, and sent with the latest arrival. -/
theorem Dev.linkStamp_launch (hl : x < d.past.links.length) (mseq ts : Nat) :
    ((d.linkStamp x 1 mseq ts).link x).launches = (⟨mseq, ts⟩ :: (d.link x).launches).take 4 ∧
      ((d.linkStamp x 1 mseq ts).link x).arrivals = (d.link x).arrivals ∧
      (d.linkUp x = true → ∀ m, (d.link x).arrivals.head? = some m →
        PFrame.of x 2 0xE d.pastIndex 0 0 (tsBytes ts ++ bytesN 2 mseq ++ tsBytes m.ts ++ bytesN 2 m.mseq) ∈ (d.linkStamp x 1 mseq ts).past.tx) := by
  have hset : ∃ y : Dev, y = d.setLink x fun l => { l with launches := keepMark { mseq := mseq, ts := ts } l.launches } := ⟨_, rfl⟩
  obtain ⟨y, hy⟩ := hset
  have hself : y.link x = { d.link x with launches := keepMark { mseq := mseq, ts := ts } (d.link x).launches } := by
    rw [hy, Dev.link_setLink_self _ hl]
  have hup : y.linkUp x = d.linkUp x := by rw [hy]; rfl
  have hidx : y.pastIndex = d.pastIndex := by rw [hy]; rfl
  have hsend : d.linkStamp x 1 mseq ts = y.sendNear x 2 (tsBytes ts ++ bytesN 2 mseq ++
      tsBytes ((y.link x).arrivals.head?.getD { mseq := 0, ts := 0 }).ts ++ bytesN 2 ((y.link x).arrivals.head?.getD { mseq := 0, ts := 0 }).mseq) := by
    unfold Dev.linkStamp
    rw [if_neg (by decide), if_pos rfl, hy]
  have hlink : (d.linkStamp x 1 mseq ts).link x = y.link x := by
    rw [hsend]
    exact congrArg (fun l : List Link => l.getD x Link.fresh) (PastGrown.sendOn ..).links
  rw [hlink, hself]
  refine ⟨rfl, rfl, fun hu m hm => ?_⟩
  rw [hsend, hself, hm, ← hidx]
  exact (Dev.mem_sendOn (hup.trans hu) ..).1

end

variable {s : State} {dt x k : Nat} {code : CellCode} {redOk rstOk tableEcc : Bool} {ev at_ : Event} {rest : List Event}

/-- The timestamp of a mark reaches its link. -/
theorem markStamp_effects (ecc : List Nat) (hx : x < 2) (hk : k < 48) (hm : s.dev.measuring = true) (hpilot : (s.dev.cell k).pilot = none)
    (htake : takeEvent k (s.dev.advance dt).meas.events = some (ev, rest)) (hparts : ev.parts = [(k, .waiting)]) (hho : ev.handover = none)
    (hch : ev.chan = 44 + x) (hf : convFault code.code redOk rstOk tableEcc = 0)
    (hat : at_ = ev.latch (s.dev.advance dt).clk (max (ev.stopAt + 1) (s.dev.clk.tclk + dt))) {P : Dev → Prop}
    (h : ∀ z : Dev, z.past.links = s.dev.past.links → z.linkUp x = s.dev.linkUp x → z.pastIndex = s.dev.pastIndex → P (z.linkStamp x ev.tag ev.mseq
      (stamp (at_.stop code.later).1 (at_.stop code.later).2 (s.dev.fraction k code.code) (s.dev.chanDelay ev.chan ev.trim)))) :
    Effects (.conversionDone dt k code redOk rstOk tableEcc ecc) s P := by
  refine Effects.of_run (f := within k 48 fun d => (d.markBad ecc).converted k code redOk rstOk tableEcc) rfl ?_
  rw [within_of_lt hk]
  have hbad := (s.dev.advance dt).markBad_slots ecc
  obtain ⟨slots, hslots⟩ := hbad
  have hmarked : ∃ y : Dev, y = (s.dev.advance dt).markBad ecc ∧ y.meas = (s.dev.advance dt).meas ∧ y.live = s.dev.live ∧
      y.past.links = s.dev.past.links ∧ y.clk = (s.dev.advance dt).clk ∧ y.sram = s.dev.sram := by
    refine ⟨_, rfl, ?_⟩
    rw [hslots]
    exact ⟨rfl, rfl, rfl, rfl, rfl⟩
  obtain ⟨y, hy, hmeas, hlive, hlinks, hclk, hsram⟩ := hmarked
  rw [← hy]
  clear hy hslots
  have hworks : y.cellsWork = true := by
    have hmeasuring : y.measuring = true := by
      unfold Dev.measuring Dev.mode at hm ⊢
      rw [Dev.rd_congr hlive]
      exact hm
    unfold Dev.cellsWork
    rw [hmeasuring]
    rfl
  have hp : (y.cell k).pilot = none := (congrArg (fun m : Meas => (m.cells.getD k Cell.fresh).pilot) hmeas).trans hpilot
  have hfrac : y.fraction k code.code = s.dev.fraction k code.code := by
    unfold Dev.fraction Dev.sramWord
    rw [hsram]
  have hdelay : y.chanDelay ev.chan ev.trim = s.dev.chanDelay ev.chan ev.trim := by
    unfold Dev.chanDelay Dev.rdS
    simp only [Dev.rd_congr hlive]
  unfold Dev.converted
  rw [if_neg (by rw [hworks]; decide), Dev.conversionDone_good hp (hmeas ▸ htake) hparts hho hf rfl, hfrac, hdelay, hclk]
  dsimp only
  obtain ⟨l, hl⟩ := (y.endEvent k rest).pilotAfter_parts k
  have hz : ((y.endEvent k rest).pilotAfter k).past.links = y.past.links ∧ ((y.endEvent k rest).pilotAfter k).live = y.live := by
    rw [hl]
    exact ⟨rfl, rfl⟩
  generalize (y.endEvent k rest).pilotAfter k = z at hz
  obtain ⟨hzlinks, hzlive⟩ := hz
  obtain ⟨w, hw, hgrown, hup, hidx⟩ := z.deliver_link (x := x) (s := ⟨ev.chan,
    stamp ((ev.latch (s.dev.advance dt).clk (max (ev.stopAt + 1) (s.dev.advance dt).clk.tclk)).stop code.later).1
      ((ev.latch (s.dev.advance dt).clk (max (ev.stopAt + 1) (s.dev.advance dt).clk.tclk)).stop code.later).2 (s.dev.fraction k code.code)
      (s.dev.chanDelay ev.chan ev.trim), ev.arr, ev.tag, ev.mseq⟩) hx hch
  rw [hw]
  subst hat
  exact h w (hgrown.links.trans (hzlinks.trans hlinks)) (hup.trans (Dev.flag_congr (hzlive.trans hlive) _)) (hidx.trans (Dev.rd_congr (hzlive.trans hlive) _))

end Sys2Proof.Machine
end

section
/-!
PROOF. Exchanges, HELLO frames, discarded frames and the states of a link (08 R212, R214, R216, R217; O57).
-/

namespace Sys2Proof.Machine

section
variable {d : Dev} {x : Nat}

/-! ### A TS frame (R216) -/

/-- The count of frames and its neighbours. -/
theorem Dev.countFrame_frames (d : Dev) (x : Nat) : (d.countFrame x).rd (PLINK_FRAMES_COUNT x) = (d.rd (PLINK_FRAMES_COUNT x) + 1) % 2 ^ 32 :=
  Dev.bump_rd d (f := PLINK_FRAMES_COUNT x) ⟨Nat.zero_le _, show 31 < 32 by decide⟩

theorem Dev.countFrame_past (d : Dev) (x : Nat) : (d.countFrame x).past = d.past := Dev.bump_past ..

theorem Dev.countFrame_link (d : Dev) (x y : Nat) : (d.countFrame x).link y = d.link y :=
  congrArg (fun p : Past => p.links.getD y Link.fresh) (d.countFrame_past x)

theorem Dev.rd_wr48_of_ne (d : Dev) {lo hi f : Fld} (h1 : f.addr ≠ lo.addr) (h2 : f.addr ≠ hi.addr) (v : Int) : (d.wr48 lo hi v).rd f = d.rd f :=
  (Dev.rd_wr_of_ne _ hi f _ h2).trans (Dev.rd_wr_of_ne d lo f _ h1)

theorem Dev.countFrame_rd {f : Fld} (h : f.addr ≠ rPLINK_FRAMES x) (d : Dev) : (d.countFrame x).rd f = d.rd f := Dev.rd_wr_of_ne d _ f _ h

/-- The paddocks that follow the link make their updates (R219). -/
def Dev.followersTurn (x : Nat) (theta : Int) (d : Dev) : Dev :=
  forN 16 (fun n d =>
    if d.padLive n ∧ (d.padKind n = 0 ∨ d.padKind n = 2) ∧ d.rd (PAD_STATE_ACTIVE_CH n) = 44 + x then d.phaseUpdate n theta 0 true else d) d

theorem Dev.followersTurn_word (theta : Int) {a : Nat} (h1 : 0x0A0000 ≤ a) (h2 : a < 0x0B0000) (d : Dev) :
    (d.followersTurn x theta).word a = d.word a :=
  List.foldlRecOn (motive := fun e : Dev => e.word a = d.word a) _ _ rfl fun e he n hn => by
    beta_reduce
    split
    · have hring : e.rd (PAD_TEL_TEL_RING n) < 16 := e.rd_lt (PAD_TEL_TEL_RING n)
      refine ((Dev.phaseUpdate_counted (List.mem_range.1 hn) rfl theta 0 true).apart.word a ?_).trans he
      rintro (h | h | h)
      · exact not_padSide (by omega) (by omega) h
      · unfold rTQ_STAT at h; omega
      · unfold rTQ_DROP at h; omega
    · exact he

theorem Dev.followersTurn_rd (theta : Int) {f : Fld} (h1 : 0x0A0000 ≤ f.addr) (h2 : f.addr < 0x0B0000) (d : Dev) :
    (d.followersTurn x theta).rd f = d.rd f := Dev.rd_of_word (d.followersTurn_word theta h1 h2)

/-- The exchange of a TS frame whose marks are known. -/
theorem Dev.tsRx_pairs {launch mL arrival mA ar la : Nat} (hx : x < 2) (hu : d.linkUp x = true) (hn : d.ignoresNear x = false)
    (har : findMark (d.link x).arrivals mL = some ar) (hla : findMark (d.link x).launches mA = some la) {e : Dev} (he : e = d.tsRx x launch mL arrival mA) :
    e.rd48 (PLINK_OFF_LO_OFF x) (PLINK_OFF_HI_OFF x) =
        twos 48 (divRound (((ar : Int) - launch) - ((arrival : Int) - la) + d.rdS (PLINK_ASYM_ASYM x)) 2) ∧
      e.rd48 (PLINK_RTT_LO_RTT x) (PLINK_RTT_HI_RTT x) = twos 48 (((ar : Int) - launch) + ((arrival : Int) - la)) ∧
      e.rd (PLINK_FRAMES_COUNT x) = (d.rd (PLINK_FRAMES_COUNT x) + 1) % 2 ^ 32 := by
  have hasym : (d.countFrame x).rdS (PLINK_ASYM_ASYM x) = d.rdS (PLINK_ASYM_ASYM x) := by
    unfold Dev.rdS
    rw [Dev.countFrame_rd (by simp only [PLINK_ASYM_ASYM, rPLINK_ASYM, rPLINK_FRAMES]; omega)]
  have hframes := d.countFrame_frames x
  have hpairs : ∃ theta, theta = divRound (((ar : Int) - launch) - ((arrival : Int) - la) + d.rdS (PLINK_ASYM_ASYM x)) 2 ∧
      e = (((d.countFrame x).wr48 (PLINK_OFF_LO_OFF x) (PLINK_OFF_HI_OFF x) theta).wr48 (PLINK_RTT_LO_RTT x) (PLINK_RTT_HI_RTT x)
        (((ar : Int) - launch) + ((arrival : Int) - la))).followersTurn x theta := by
    refine ⟨_, rfl, ?_⟩
    rw [he, ← hasym]
    unfold Dev.tsRx
    rw [if_neg (by simp [hu, hn])]
    dsimp only
    rw [d.countFrame_link, har, hla]
    rfl
  obtain ⟨theta, htheta, heq⟩ := hpairs
  rw [← htheta, heq]
  clear he htheta hasym heq
  have pasture : ∀ {f : Fld}, f.addr = rPLINK_OFF_LO x ∨ f.addr = rPLINK_OFF_HI x ∨ f.addr = rPLINK_RTT_LO x ∨ f.addr = rPLINK_RTT_HI x ∨
      f.addr = rPLINK_FRAMES x → ∀ y : Dev, (y.followersTurn x theta).rd f = y.rd f := fun h y => by
    unfold rPLINK_OFF_LO rPLINK_OFF_HI rPLINK_RTT_LO rPLINK_RTT_HI rPLINK_FRAMES at h
    exact Dev.followersTurn_rd theta (by omega) (by omega) y
  have hoff := (d.countFrame x).rd48_wr48 (show rPLINK_OFF_LO x ≠ rPLINK_OFF_HI x by unfold rPLINK_OFF_LO rPLINK_OFF_HI; omega) theta
  have hcount := (d.countFrame x).rd_wr48_of_ne (lo := PLINK_OFF_LO_OFF x) (hi := PLINK_OFF_HI_OFF x) (f := PLINK_FRAMES_COUNT x)
    (by simp only [PLINK_FRAMES_COUNT, PLINK_OFF_LO_OFF, rPLINK_FRAMES, rPLINK_OFF_LO]; omega)
    (by simp only [PLINK_FRAMES_COUNT, PLINK_OFF_HI_OFF, rPLINK_FRAMES, rPLINK_OFF_HI]; omega) theta
  rw [hframes] at hcount
  obtain ⟨y, hy⟩ : ∃ y, y = (d.countFrame x).wr48 (PLINK_OFF_LO_OFF x) (PLINK_OFF_HI_OFF x) theta := ⟨_, rfl⟩
  rw [← hy] at hcount ⊢
  have hoffy : y.rd48 (PLINK_OFF_LO_OFF x) (PLINK_OFF_HI_OFF x) = twos 48 theta := hy ▸ hoff
  clear hy hoff hframes
  have hrtt := y.rd48_wr48 (show rPLINK_RTT_LO x ≠ rPLINK_RTT_HI x by unfold rPLINK_RTT_LO rPLINK_RTT_HI; omega) (((ar : Int) - launch) + ((arrival : Int) - la))
  have kept : ∀ f : Fld, f.addr ≠ rPLINK_RTT_LO x → f.addr ≠ rPLINK_RTT_HI x →
      (y.wr48 (PLINK_RTT_LO_RTT x) (PLINK_RTT_HI_RTT x) (((ar : Int) - launch) + ((arrival : Int) - la))).rd f = y.rd f := fun f h1 h2 =>
    y.rd_wr48_of_ne h1 h2 _
  refine ⟨?_, ?_, ?_⟩
  · rw [← hoffy]
    unfold Dev.rd48
    rw [pasture (Or.inl rfl), pasture (Or.inr (Or.inl rfl)),
      kept _ (by simp only [PLINK_OFF_LO_OFF, rPLINK_OFF_LO, rPLINK_RTT_LO]; omega) (by simp only [PLINK_OFF_LO_OFF, rPLINK_OFF_LO, rPLINK_RTT_HI]; omega),
      kept _ (by simp only [PLINK_OFF_HI_OFF, rPLINK_OFF_HI, rPLINK_RTT_LO]; omega) (by simp only [PLINK_OFF_HI_OFF, rPLINK_OFF_HI, rPLINK_RTT_HI]; omega)]
  · unfold Dev.rd48 at hrtt ⊢
    rw [pasture (Or.inr (Or.inr (Or.inl rfl))), pasture (Or.inr (Or.inr (Or.inr (Or.inl rfl))))]
    exact hrtt
  · rw [pasture (Or.inr (Or.inr (Or.inr (Or.inr rfl)))),
      kept _ (by simp only [PLINK_FRAMES_COUNT, rPLINK_FRAMES, rPLINK_RTT_LO]; omega) (by simp only [PLINK_FRAMES_COUNT, rPLINK_FRAMES, rPLINK_RTT_HI]; omega)]
    exact hcount

/-- A TS frame that names a mark that is not known. -/
theorem Dev.tsRx_lost {launch mL arrival mA : Nat} (hu : d.linkUp x = true) (hn : d.ignoresNear x = false)
    (h : findMark (d.link x).arrivals mL = none ∨ findMark (d.link x).launches mA = none) :
    (d.tsRx x launch mL arrival mA).rd (PLINK_MLOST_COUNT x) = (d.rd (PLINK_MLOST_COUNT x) + 1) % 2 ^ 32 ∧
      (d.tsRx x launch mL arrival mA).flag (PLINK_EVT_MLOST x) = true := by
  have hlost : d.tsRx x launch mL arrival mA = ((d.countFrame x).bump (PLINK_MLOST_COUNT x)).evt (PLINK_EVT_MLOST x) := by
    unfold Dev.tsRx
    rw [if_neg (by simp [hu, hn])]
    dsimp only
    rw [d.countFrame_link]
    rcases h with h | h
    · rw [h]
    · rw [h]
      cases findMark (d.link x).arrivals mL <;> rfl
  rw [hlost]
  refine ⟨?_, Dev.flag_evt_self _ _ rfl (show 4 < 24 by decide)⟩
  rw [Dev.rd_evt_of_ne _ _ _ (by simp only [PLINK_MLOST_COUNT, PLINK_EVT_MLOST, rPLINK_MLOST, rPLINK_EVT]; omega)]
  refine (Dev.bump_rd _ (f := PLINK_MLOST_COUNT x) ⟨Nat.zero_le _, show 31 < 32 by decide⟩).trans ?_
  rw [Dev.countFrame_rd (by simp only [PLINK_MLOST_COUNT, rPLINK_MLOST, rPLINK_FRAMES]; omega)]
  rfl

end

end Sys2Proof.Machine
end

section
/-!
PROOF. HELLO frames, discarded frames and the states of a link (08 R212, R214, R217; O57).
-/

namespace Sys2Proof.Machine

section
variable {d : Dev} {x : Nat}

/-! ### A HELLO of another device (R214, R217, R220) -/

/-- The bellwether that a HELLO names is new to the link, or its BEACON has advanced. -/
def Link.advanced (h : Hello) (l : Link) : Bool := h.bwV && (!l.nbBwV || decide (l.nbBw ≠ h.bw) || decide (l.nbBeacon ≠ h.beacon))

/-- The link as a HELLO leaves it. -/
def Link.heard (h : Hello) (adv : Bool) (tclk : Nat) (l : Link) : Link :=
  { l with
    hellos := min 3 (l.hellos + 1), nbPrio := h.prio, nbBwV := h.bwV, nbBw := h.bw, nbBeacon := h.beacon
    nbElig := h.elig, nbAsym := h.asym, nbMode := h.mode, nbFollow := h.follow, beaconAt := if adv then some tclk else l.beaconAt }

/-- The fields of PLINK_n_STAT that a HELLO names. -/
def Dev.showHello (x src : Nat) (h : Hello) (d : Dev) : Dev :=
  (((d.wr (PLINK_STAT_NB_V x) 1).wr (PLINK_STAT_NB_IDX x) src).wr (PLINK_STAT_NB_ROLE x) h.role).wr (PLINK_STAT_NB_HOPS x) h.hops

/-- A link that has heard its third HELLO goes UP. -/
def Dev.raiseLink (x : Nat) (d : Dev) : Dev :=
  d.when (decide (3 ≤ (d.link x).hellos) && !d.linkUp x) fun d => (d.wr (PLINK_STAT_UP x) 1).evt (PLINK_EVT_UP x)

/-- The device with the duplicate of link `x` forgotten. -/
def Dev.notDup (x : Nat) (d : Dev) : Dev := { d with past := { d.past with dupOn := d.past.dupOn.filter fun y => decide (y ≠ x) } }

theorem Dev.helloRx_eq (hs : d.flag (PLINK_STAT_SYNC x) = true) {src : Nat} (hsrc : src ≠ d.pastIndex) (h : Hello) : d.helloRx x src h =
    (((((((d.notDup x).countFrame x).setLink x (.heard h ((d.link x).advanced h) d.clk.tclk)).showHello x src h).judgeAsym x).raiseLink x).askSelect none) := by
  unfold Dev.helloRx
  rw [if_neg (by simp [hs]), if_neg hsrc]
  rfl

theorem Dev.showHello_spec (src : Nat) (h : Hello) (d : Dev) {e : Dev} (he : e = d.showHello x src h) :
    (e.flag (PLINK_STAT_NB_V x) = true ∧ e.rd (PLINK_STAT_NB_IDX x) = src % 8 ∧ e.rd (PLINK_STAT_NB_ROLE x) = h.role % 4 ∧
      e.rd (PLINK_STAT_NB_HOPS x) = h.hops % 8) ∧ e.linkUp x = d.linkUp x ∧ e.flag (PLINK_STAT_ASYM_MM x) = d.flag (PLINK_STAT_ASYM_MM x) ∧
      e.rd (PLINK_ASYM_ASYM x) = d.rd (PLINK_ASYM_ASYM x) ∧ e.past = d.past := by
  unfold Dev.showHello at he
  obtain ⟨a, ha⟩ : ∃ a, a = d.wr (PLINK_STAT_NB_V x) 1 := ⟨_, rfl⟩
  obtain ⟨b, hb⟩ : ∃ b, b = a.wr (PLINK_STAT_NB_IDX x) src := ⟨_, rfl⟩
  obtain ⟨c, hc⟩ : ∃ c, c = b.wr (PLINK_STAT_NB_ROLE x) h.role := ⟨_, rfl⟩
  rw [← ha, ← hb, ← hc] at he
  have keepA : ∀ {g : Fld}, (PLINK_STAT_NB_V x).apart g → a.rd g = d.rd g := fun hg => by rw [ha]; exact Dev.rd_wr_apart hg _ _
  have keepB : ∀ {g : Fld}, (PLINK_STAT_NB_IDX x).apart g → b.rd g = a.rd g := fun hg => by rw [hb]; exact Dev.rd_wr_apart hg _ _
  have keepC : ∀ {g : Fld}, (PLINK_STAT_NB_ROLE x).apart g → c.rd g = b.rd g := fun hg => by rw [hc]; exact Dev.rd_wr_apart hg _ _
  have keepE : ∀ {g : Fld}, (PLINK_STAT_NB_HOPS x).apart g → e.rd g = c.rd g := fun hg => by rw [he]; exact Dev.rd_wr_apart hg _ _
  have bits : ∀ {hi lo hi' lo' : Nat}, ((lo' ≤ hi' ∧ hi' < 32) ∧ lo ≤ hi ∧ (hi < lo' ∨ hi' < lo)) →
      Fld.apart ⟨rPLINK_STAT x, hi, lo⟩ ⟨rPLINK_STAT x, hi', lo'⟩ := Fld.apart_bits
  have hne : rPLINK_ASYM x ≠ rPLINK_STAT x := by unfold rPLINK_ASYM rPLINK_STAT; omega
  have hpast : e.past = d.past := by rw [he, hc, hb, ha, Dev.wr_past, Dev.wr_past, Dev.wr_past, Dev.wr_past]
  refine ⟨⟨?_, ?_, ?_, ?_⟩, ?_, ?_, ?_, hpast⟩
  · refine (Dev.flag_of_rd ((keepE (bits (by decide))).trans ((keepC (bits (by decide))).trans (keepB (bits (by decide)))))).trans ?_
    rw [ha]
    exact Dev.flag_wr_self d _ 1 ⟨Nat.le_refl _, show 28 < 32 by decide⟩ rfl
  · refine ((keepE (bits (by decide))).trans (keepC (bits (by decide)))).trans ?_
    rw [hb]
    exact Dev.rd_wr_self a _ src ⟨show 25 ≤ 27 by decide, show 27 < 32 by decide⟩
  · refine (keepE (bits (by decide))).trans ?_
    rw [hc]
    exact Dev.rd_wr_self b _ h.role ⟨show 23 ≤ 24 by decide, show 24 < 32 by decide⟩
  · rw [he]
    exact Dev.rd_wr_self c _ h.hops ⟨show 20 ≤ 22 by decide, show 22 < 32 by decide⟩
  · exact Dev.flag_of_rd ((keepE (bits (by decide))).trans ((keepC (bits (by decide))).trans ((keepB (bits (by decide))).trans (keepA (bits (by decide))))))
  · exact Dev.flag_of_rd ((keepE (bits (by decide))).trans ((keepC (bits (by decide))).trans ((keepB (bits (by decide))).trans (keepA (bits (by decide))))))
  · rw [he, Dev.rd_wr_of_ne _ _ _ _ hne, hc, Dev.rd_wr_of_ne _ _ _ _ hne, hb, Dev.rd_wr_of_ne _ _ _ _ hne, ha, Dev.rd_wr_of_ne _ _ _ _ hne]

/-- ASYM of both ends is judged: ASYM_MM shows it, with its event where it begins. -/
theorem Dev.judgeAsym_spec (d : Dev) {mm : Bool} (hm : mm = decide (1 < ((d.link x).nbAsym + d.rdS (PLINK_ASYM_ASYM x)).natAbs)) {e : Dev}
    (he : e = d.judgeAsym x) : e.flag (PLINK_STAT_ASYM_MM x) = mm ∧ (∀ g, (PLINK_STAT_ASYM_MM x).apart g → g.addr ≠ rPLINK_EVT x → e.rd g = d.rd g) ∧
      (mm = true → d.flag (PLINK_STAT_ASYM_MM x) = false → e.flag (PLINK_EVT_ASYM_MM x) = true) ∧ e.past = d.past := by
  have heq : e = (d.evtIf (mm && !d.flag (PLINK_STAT_ASYM_MM x)) (PLINK_EVT_ASYM_MM x)).wr (PLINK_STAT_ASYM_MM x) (b2n mm) := by
    rw [he, hm]
    rfl
  clear he hm
  have hne : rPLINK_EVT x ≠ rPLINK_STAT x := by unfold rPLINK_EVT rPLINK_STAT; omega
  refine ⟨?_, fun g hg hne' => ?_, fun h1 h2 => ?_, ?_⟩
  · rw [heq, Dev.flag_wr_self _ _ _ ⟨Nat.le_refl _, show 29 < 32 by decide⟩ rfl]
    cases mm <;> rfl
  · rw [heq, Dev.rd_wr_apart hg]
    exact Dev.rd_evtIf_of_ne d _ _ g hne'
  · rw [heq, Dev.flag_wr_of_ne _ _ _ _ hne, h1, h2]
    exact Dev.flag_evt_self d _ rfl (show 3 < 24 by decide)
  · rw [heq]
    refine (Dev.wr_past ..).trans ?_
    unfold Dev.evtIf
    split
    · exact Dev.evt_past ..
    · rfl

theorem Dev.raiseLink_spec (d : Dev) {e : Dev} (he : e = d.raiseLink x) : e.linkUp x = (d.linkUp x || decide (3 ≤ (d.link x).hellos)) ∧
    (d.linkUp x = false → 3 ≤ (d.link x).hellos → e.flag (PLINK_EVT_UP x) = true) ∧
      (∀ g, (PLINK_STAT_UP x).apart g → g.addr ≠ rPLINK_EVT x → e.rd g = d.rd g) ∧
      (d.flag (PLINK_EVT_ASYM_MM x) = true → e.flag (PLINK_EVT_ASYM_MM x) = true) ∧ e.past = d.past := by
  have hne : rPLINK_EVT x ≠ rPLINK_STAT x := by unfold rPLINK_EVT rPLINK_STAT; omega
  cases hup : (decide (3 ≤ (d.link x).hellos) && !d.linkUp x) with
  | false =>
    have heq : e = d := by
      rw [he]
      unfold Dev.raiseLink
      rw [hup]
      rfl
    rw [heq]
    refine ⟨?_, fun h1 h2 => ?_, fun _ _ _ => rfl, id, rfl⟩
    · cases hu : d.linkUp x with
      | true => rfl
      | false =>
        rw [hu] at hup
        simpa using hup.symm
    · rw [h1, decide_eq_true h2] at hup
      exact absurd hup (by decide)
  | true =>
    have heq : e = (d.wr (PLINK_STAT_UP x) 1).evt (PLINK_EVT_UP x) := by
      rw [he]
      unfold Dev.raiseLink
      rw [hup]
      rfl
    clear he
    obtain ⟨h3, hu⟩ := Bool.and_eq_true_iff.1 hup
    refine ⟨?_, fun _ _ => ?_, fun g hg hne' => ?_, fun h => ?_, ?_⟩
    · rw [h3, Bool.or_true, heq]
      unfold Dev.linkUp
      rw [Dev.flag_evt_of_ne _ _ _ hne.symm]
      exact Dev.flag_wr_self d _ 1 ⟨Nat.le_refl _, show 31 < 32 by decide⟩ rfl
    · rw [heq]
      exact Dev.flag_evt_self _ _ rfl (show 1 < 24 by decide)
    · rw [heq, Dev.rd_evt_of_ne _ _ _ hne']
      exact Dev.rd_wr_apart hg _ _
    · rw [heq]
      refine Dev.flag_evt_mono ⟨rfl, show 3 < 24 by decide⟩ ⟨rfl, show 1 < 24 by decide⟩ ?_
      rw [Dev.flag_wr_of_ne _ _ _ _ hne]
      exact h
    · rw [heq]
      exact (Dev.evt_past ..).trans (Dev.wr_past ..)

/-- What a HELLO of another device leaves. -/
theorem Dev.helloRx_spec (hl : x < d.past.links.length) (hs : d.flag (PLINK_STAT_SYNC x) = true) {src : Nat} (hsrc : src ≠ d.pastIndex) (h8 : src < 8)
    (h : Hello) {e : Dev} (he : e = d.helloRx x src h) :
    e.flag (PLINK_STAT_NB_V x) = true ∧ e.rd (PLINK_STAT_NB_IDX x) = src ∧ e.rd (PLINK_STAT_NB_ROLE x) = h.role % 4 ∧
      e.rd (PLINK_STAT_NB_HOPS x) = h.hops % 8 ∧ (e.link x).hellos = min 3 ((d.link x).hellos + 1) ∧
      (e.linkUp x = (d.linkUp x || decide (2 ≤ (d.link x).hellos))) ∧
      (d.linkUp x = false → 2 ≤ (d.link x).hellos → e.flag (PLINK_EVT_UP x) = true) ∧
      e.flag (PLINK_STAT_ASYM_MM x) = decide (1 < (h.asym + d.rdS (PLINK_ASYM_ASYM x)).natAbs) ∧
      (e.flag (PLINK_STAT_ASYM_MM x) = true → d.flag (PLINK_STAT_ASYM_MM x) = false → e.flag (PLINK_EVT_ASYM_MM x) = true) := by
  rw [Dev.helloRx_eq hs hsrc] at he
  obtain ⟨a, ha⟩ : ∃ a, a = ((d.notDup x).countFrame x).setLink x (.heard h ((d.link x).advanced h) d.clk.tclk) := ⟨_, rfl⟩
  obtain ⟨b, hb⟩ : ∃ b, b = a.showHello x src h := ⟨_, rfl⟩
  obtain ⟨c, hc⟩ : ∃ c, c = b.judgeAsym x := ⟨_, rfl⟩
  obtain ⟨z, hz⟩ : ∃ z, z = c.raiseLink x := ⟨_, rfl⟩
  rw [← ha, ← hb, ← hc, ← hz] at he
  have hlink : a.link x = (d.link x).heard h ((d.link x).advanced h) d.clk.tclk := by
    have hlen : x < ((d.notDup x).countFrame x).past.links.length := hl
    rw [ha, Dev.link_setLink_self _ hlen]
    exact congrArg (Link.heard h _ _) (Dev.countFrame_link (d.notDup x) x x)
  have hstart : ∀ g : Fld, g.addr ≠ rPLINK_FRAMES x → a.rd g = d.rd g := fun g hg => by
    rw [ha]
    exact (Dev.countFrame_rd hg (d.notDup x))
  have hup0 : a.linkUp x = d.linkUp x := Dev.flag_of_rd (hstart _ (by simp only [PLINK_STAT_UP, rPLINK_STAT, rPLINK_FRAMES]; omega))
  have hmm0 : a.flag (PLINK_STAT_ASYM_MM x) = d.flag (PLINK_STAT_ASYM_MM x) :=
    Dev.flag_of_rd (hstart _ (by simp only [PLINK_STAT_ASYM_MM, rPLINK_STAT, rPLINK_FRAMES]; omega))
  have hasym0 : a.rd (PLINK_ASYM_ASYM x) = d.rd (PLINK_ASYM_ASYM x) := hstart _ (by simp only [PLINK_ASYM_ASYM, rPLINK_ASYM, rPLINK_FRAMES]; omega)
  clear ha hstart
  obtain ⟨⟨hv, hidx, hrole, hhops⟩, hup1, hmm1, hasym1, hpast1⟩ := a.showHello_spec src h hb
  have hlinkB : b.link x = a.link x := congrArg (fun p : Past => p.links.getD x Link.fresh) hpast1
  obtain ⟨mm, hmm⟩ : ∃ mm, mm = decide (1 < (h.asym + d.rdS (PLINK_ASYM_ASYM x)).natAbs) := ⟨_, rfl⟩
  have hjudged : mm = decide (1 < ((b.link x).nbAsym + b.rdS (PLINK_ASYM_ASYM x)).natAbs) := by
    have hrds : b.rdS (PLINK_ASYM_ASYM x) = d.rdS (PLINK_ASYM_ASYM x) := by
      unfold Dev.rdS
      rw [hasym1, hasym0]
    rw [hmm, hrds, hlinkB, hlink]
    rfl
  obtain ⟨hmmC, hkeepC, hevtC, hpastC⟩ := b.judgeAsym_spec hjudged hc
  have hlinkC : c.link x = (d.link x).heard h ((d.link x).advanced h) d.clk.tclk :=
    (congrArg (fun p : Past => p.links.getD x Link.fresh) hpastC).trans (hlinkB.trans hlink)
  obtain ⟨hupZ, hevtZ, hkeepZ, hmmZ, hpastZ⟩ := c.raiseLink_spec hz
  have hlinkZ : z.link x = (d.link x).heard h ((d.link x).advanced h) d.clk.tclk :=
    (congrArg (fun p : Past => p.links.getD x Link.fresh) hpastZ).trans hlinkC
  have hne : rPLINK_STAT x ≠ rPLINK_EVT x := by unfold rPLINK_EVT rPLINK_STAT; omega
  have kept : ∀ {hi lo : Nat}, lo ≤ hi → hi < 29 → z.rd ⟨rPLINK_STAT x, hi, lo⟩ = b.rd ⟨rPLINK_STAT x, hi, lo⟩ := fun h1 h2 =>
    (hkeepZ _ (Fld.apart_bits (by omega)) hne).trans (hkeepC _ (Fld.apart_bits (by omega)) hne)
  have hupC : c.linkUp x = d.linkUp x := (Dev.flag_of_rd (hkeepC _ (Fld.apart_bits (by decide)) hne)).trans (hup1.trans hup0)
  have hthree : decide (3 ≤ (c.link x).hellos) = decide (2 ≤ (d.link x).hellos) := by
    rw [hlinkC]
    exact decide_eq_decide.2 (show 3 ≤ min 3 ((d.link x).hellos + 1) ↔ 2 ≤ (d.link x).hellos by omega)
  have hmmFinal : z.flag (PLINK_STAT_ASYM_MM x) = mm := (Dev.flag_of_rd (hkeepZ _ (Fld.apart_bits (by decide)) hne)).trans hmmC
  rw [he]
  refine ⟨?_, ?_, ?_, ?_, ?_, ?_, fun h1 h2 => ?_, hmmFinal.trans hmm, fun h1 h2 => ?_⟩
  · exact (Dev.flag_of_rd (kept (by decide) (by decide))).trans hv
  · exact ((kept (by decide) (by decide)).trans hidx).trans (Nat.mod_eq_of_lt h8)
  · exact (kept (by decide) (by decide)).trans hrole
  · exact (kept (by decide) (by decide)).trans hhops
  · exact congrArg Link.hellos hlinkZ
  · exact hupZ.trans (by rw [hupC, hthree])
  · exact hevtZ (hupC.trans h1) (of_decide_eq_true (hthree.trans (decide_eq_true h2)))
  · exact hmmZ (hevtC (hmmFinal.symm.trans h1) (hmm1.trans (hmm0.trans h2)))

end

end Sys2Proof.Machine
end

section
/-!
PROOF. A duplicate index, discarded frames, and links that gain and lose sync (08 R212, R214, R220; O57).
-/

namespace Sys2Proof.Machine

section
variable {d : Dev} {x : Nat}

/-- A firing leaves the registers of a pasture. -/
theorem Dev.fire_rd {f : Fld} (h : 0x0A0000 ≤ f.addr) (src detail : Nat) (d : Dev) : (d.fire src detail).rd f = d.rd f :=
  (Still.fireAs src detail none false false d).rd f (not_firingReg (by omega) (by omega) (by omega) (by omega))

theorem Dev.fire_link (src detail y : Nat) (d : Dev) : (d.fire src detail).link y = d.link y :=
  congrArg (fun l : List Link => l.getD y Link.fresh) (Still.fireAs src detail none false false d).links

/-- This device's own INDEX is heard (R220). -/
theorem Dev.helloRx_dup (hs : d.flag (PLINK_STAT_SYNC x) = true) {src : Nat} (hsrc : src = d.pastIndex) (h : Hello) :
    (d.helloRx x src h).flag PAST_EVT_DUP_INDEX = true ∧ (d.helloRx x src h).link x = d.link x := by
  have heq : ∃ p : Past, p.links = d.past.links ∧ d.helloRx x src h = (({ d with past := p } : Dev).evt PAST_EVT_DUP_INDEX).fire 35 src := by
    refine ⟨{ d.past with dup := true, dupOn := if d.past.dupOn.contains x then d.past.dupOn else x :: d.past.dupOn }, rfl, ?_⟩
    unfold Dev.helloRx
    rw [if_neg (by simp [hs]), if_pos hsrc]
  obtain ⟨p, hp, heq⟩ := heq
  rw [heq]
  refine ⟨(Dev.flag_of_rd (Dev.fire_rd (by decide) ..)).trans (Dev.flag_evt_self _ _ rfl (by decide)), ?_⟩
  rw [Dev.fire_link]
  refine (congrArg (fun q : Past => q.links.getD x Link.fresh) (Dev.evt_past ..)).trans ?_
  exact congrArg (fun l : List Link => l.getD x Link.fresh) hp

/-- A frame is discarded (R212). -/
theorem Dev.discard_spec (hl : x < d.past.links.length) (hs : d.flag (PLINK_STAT_SYNC x) = true) {e : Dev} (he : e = d.discard x) :
    e.rd (PLINK_CRC_CNT_COUNT x) = (d.rd (PLINK_CRC_CNT_COUNT x) + 1) % 2 ^ 32 ∧ e.flag (PLINK_EVT_CRC x) = true ∧
      (d.linkUp x = false → (e.link x).hellos = 0) := by
  obtain ⟨y, hy⟩ : ∃ y, y = (d.bump (PLINK_CRC_CNT_COUNT x)).evt (PLINK_EVT_CRC x) := ⟨_, rfl⟩
  have heq : e = if y.linkUp x then y else y.setLink x fun l => { l with hellos := 0 } := by
    rw [he, hy]
    unfold Dev.discard
    rw [if_pos hs]
  have hup : y.linkUp x = d.linkUp x := by
    rw [hy]
    refine Dev.flag_of_rd ((Dev.rd_evt_of_ne _ _ _ ?_).trans (Dev.rd_wr_of_ne _ _ _ _ ?_))
    · simp only [PLINK_STAT_UP, PLINK_EVT_CRC, rPLINK_STAT, rPLINK_EVT]; omega
    · simp only [PLINK_STAT_UP, PLINK_CRC_CNT_COUNT, rPLINK_STAT, rPLINK_CRC_CNT]; omega
  have hcrc : y.rd (PLINK_CRC_CNT_COUNT x) = (d.rd (PLINK_CRC_CNT_COUNT x) + 1) % 2 ^ 32 := by
    rw [hy, Dev.rd_evt_of_ne _ _ _ (by simp only [PLINK_CRC_CNT_COUNT, PLINK_EVT_CRC, rPLINK_CRC_CNT, rPLINK_EVT]; omega)]
    exact Dev.bump_rd d (f := PLINK_CRC_CNT_COUNT x) ⟨Nat.zero_le _, show 31 < 32 by decide⟩
  have hevt : y.flag (PLINK_EVT_CRC x) = true := by
    rw [hy]
    exact Dev.flag_evt_self _ _ rfl (show 2 < 24 by decide)
  have hlen : x < y.past.links.length := by
    rw [hy, Dev.evt_past, Dev.bump_past]
    exact hl
  clear hy he
  rw [heq]
  split
  next hu => exact ⟨hcrc, hevt, fun h => absurd (hup.symm.trans hu) (by rw [h]; decide)⟩
  next => exact ⟨hcrc, hevt, fun _ => congrArg Link.hellos (Dev.link_setLink_self _ hlen)⟩

/-- A lane gains sync (R214). -/
theorem Dev.syncGain_spec (hl : x < d.past.links.length) (he : d.flag (PLINK_CTL_ENABLE x) = true) (hr : d.running = true) :
    (d.syncGain x).flag (PLINK_STAT_SYNC x) = true ∧ ((d.syncGain x).link x).hellos = 0 ∧ OnlyRegs (fun a => a = rPLINK_STAT x) d (d.syncGain x) := by
  have heq : d.syncGain x = (d.wr (PLINK_STAT_SYNC x) 1).setLink x fun l => { l with hellos := 0 } := by
    unfold Dev.syncGain
    rw [if_pos ⟨he, hr⟩]
  obtain ⟨y, hy⟩ : ∃ y, y = d.wr (PLINK_STAT_SYNC x) 1 := ⟨_, rfl⟩
  have hsync : y.flag (PLINK_STAT_SYNC x) = true := by
    rw [hy]
    exact Dev.flag_wr_self d (PLINK_STAT_SYNC x) 1 ⟨Nat.le_refl _, show 30 < 32 by decide⟩ rfl
  have honly : OnlyRegs (fun a => a = rPLINK_STAT x) d y := by
    rw [hy]
    exact (OnlyRegs.refl _ d).wr (PLINK_STAT_SYNC x) 1 rfl
  have hlen : x < y.past.links.length := by
    rw [hy, Dev.wr_past]
    exact hl
  rw [heq, ← hy]
  clear hy heq
  obtain ⟨h1, h2, h3, h4, h5, h6⟩ := honly
  exact ⟨hsync, congrArg Link.hellos (Dev.link_setLink_self _ hlen), h1, h2, h3, h4, h5, h6⟩

/-- The registers of a link that goes DOWN. -/
def Dev.dropLink (x : Nat) (d : Dev) : Dev := ((d.wr (PLINK_STAT_UP x) 0).wr (PLINK_STAT_NB_V x) 0).wr (PLINK_STAT_ASYM_MM x) 0

/-- The registers that a link that goes DOWN writes. -/
def DownReg (x a : Nat) : Prop := a = rPLINK_STAT x ∨ a = rPLINK_EVT x ∨ firingAt a

/-- A link goes DOWN (R214). -/
theorem Dev.linkDown_spec (hl : x < d.past.links.length) {e : Dev} (he : e = d.linkDown x) :
    e.linkUp x = false ∧ e.flag (PLINK_STAT_NB_V x) = false ∧ (e.link x).hellos = 0 ∧ (d.linkUp x = true → e.flag (PLINK_EVT_DOWN x) = true) ∧
      e.flag (PLINK_STAT_SYNC x) = d.flag (PLINK_STAT_SYNC x) ∧ OnlyRegs (DownReg x) d e := by
  obtain ⟨y, hy⟩ : ∃ y, y = d.dropLink x := ⟨_, rfl⟩
  obtain ⟨z, hz⟩ : ∃ z, z = y.setLink x fun l => { l with hellos := 0, beaconAt := none, nbBwV := false } := ⟨_, rfl⟩
  have heq : e = if d.linkUp x then ((z.evt (PLINK_EVT_DOWN x)).fire 34 x).askSelect none else z := by
    rw [he, hz, hy]
    rfl
  clear he
  have bits : ∀ {hi lo hi' lo' : Nat}, ((lo' ≤ hi' ∧ hi' < 32) ∧ lo ≤ hi ∧ (hi < lo' ∨ hi' < lo)) →
      Fld.apart ⟨rPLINK_STAT x, hi, lo⟩ ⟨rPLINK_STAT x, hi', lo'⟩ := Fld.apart_bits
  have hup : y.linkUp x = false := by
    rw [hy]
    refine (Dev.flag_of_rd ((Dev.rd_wr_apart (bits (by decide)) _ _).trans (Dev.rd_wr_apart (bits (by decide)) _ _))).trans ?_
    exact Dev.flag_wr_self d (PLINK_STAT_UP x) 0 ⟨Nat.le_refl _, show 31 < 32 by decide⟩ rfl
  have hv : y.flag (PLINK_STAT_NB_V x) = false := by
    rw [hy]
    refine (Dev.flag_of_rd (Dev.rd_wr_apart (bits (by decide)) _ _)).trans ?_
    exact Dev.flag_wr_self _ (PLINK_STAT_NB_V x) 0 ⟨Nat.le_refl _, show 28 < 32 by decide⟩ rfl
  have hsync : y.flag (PLINK_STAT_SYNC x) = d.flag (PLINK_STAT_SYNC x) := by
    rw [hy]
    exact Dev.flag_of_rd ((Dev.rd_wr_apart (bits (by decide)) _ _).trans ((Dev.rd_wr_apart (bits (by decide)) _ _).trans (Dev.rd_wr_apart (bits (by decide)) _ _)))
  have honlyY : OnlyRegs (DownReg x) d y := by
    rw [hy]
    exact (((OnlyRegs.refl _ d).wr _ _ (Or.inl rfl)).wr _ _ (Or.inl rfl)).wr _ _ (Or.inl rfl)
  have hlen : x < y.past.links.length := by
    rw [hy]
    exact hl
  clear hy
  have hhellos : (z.link x).hellos = 0 := by rw [hz, Dev.link_setLink_self _ hlen]
  have hstat : z.linkUp x = false ∧ z.flag (PLINK_STAT_NB_V x) = false ∧ z.flag (PLINK_STAT_SYNC x) = d.flag (PLINK_STAT_SYNC x) := by
    rw [hz]
    exact ⟨hup, hv, hsync⟩
  have honlyZ : OnlyRegs (DownReg x) d z := by
    obtain ⟨h1, h2, h3, h4, h5, h6⟩ := honlyY
    rw [hz]
    exact ⟨h1, h2, h3, h4, h5, h6⟩
  clear hz hup hv hsync honlyY hlen
  obtain ⟨hup, hv, hsync⟩ := hstat
  rw [heq]
  split
  next hu =>
    have kept : ∀ g : Fld, g.addr = rPLINK_STAT x → (((z.evt (PLINK_EVT_DOWN x)).fire 34 x).askSelect none).rd g = z.rd g := fun g hg =>
      (Dev.fire_rd (by rw [hg]; unfold rPLINK_STAT; omega) ..).trans
        (Dev.rd_evt_of_ne _ _ _ (by rw [hg]; unfold PLINK_EVT_DOWN rPLINK_STAT rPLINK_EVT; dsimp only; omega))
    refine ⟨(Dev.flag_of_rd (kept _ rfl)).trans hup, (Dev.flag_of_rd (kept _ rfl)).trans hv, ?_, fun _ => ?_, (Dev.flag_of_rd (kept _ rfl)).trans hsync, ?_⟩
    · refine (congrArg Link.hellos (Dev.fire_link 34 x x (z.evt (PLINK_EVT_DOWN x)))).trans ?_
      exact (congrArg (fun q : Past => (q.links.getD x Link.fresh).hellos) (Dev.evt_past ..)).trans hhellos
    · exact (Dev.flag_of_rd (Dev.fire_rd (f := PLINK_EVT_DOWN x) (by simp only [PLINK_EVT_DOWN, rPLINK_EVT]; omega) ..)).trans
        (Dev.flag_evt_self z _ rfl (show 0 < 24 by decide))
    · exact ((honlyZ.evt (PLINK_EVT_DOWN x) (Or.inr (Or.inl rfl))).fire 34 x fun _ h => Or.inr (Or.inr h)).askSelect none
  next hu => exact ⟨hup, hv, hhellos, fun h => absurd h hu, hsync, honlyZ⟩

/-- Sync or signal is lost (R214). -/
theorem Dev.syncLoss_spec (hl : x < d.past.links.length) {e : Dev} (he : e = d.syncLoss x) :
    e.linkUp x = false ∧ e.flag (PLINK_STAT_NB_V x) = false ∧ (e.link x).hellos = 0 ∧ (d.linkUp x = true → e.flag (PLINK_EVT_DOWN x) = true) ∧
      e.flag (PLINK_STAT_SYNC x) = false ∧ OnlyRegs (DownReg x) d e := by
  have hlen : x < (d.wr (PLINK_STAT_SYNC x) 0).past.links.length := hl
  obtain ⟨h1, h2, h3, h4, h5, h6⟩ := Dev.linkDown_spec hlen (show e = (d.wr (PLINK_STAT_SYNC x) 0).linkDown x from he)
  refine ⟨h1, h2, h3, fun hu => h4 ?_, h5.trans ?_, ((OnlyRegs.refl _ d).wr _ _ (Or.inl rfl)).trans h6⟩
  · exact (Dev.flag_of_rd (Dev.rd_wr_apart (Fld.apart_bits (show ((31 ≤ 31 ∧ 31 < 32) ∧ 30 ≤ 30 ∧ (30 < 31 ∨ 31 < 30)) by decide)) d 0)).trans hu
  · exact Dev.flag_wr_self d (PLINK_STAT_SYNC x) 0 ⟨Nat.le_refl _, show 30 < 32 by decide⟩ rfl

end

end Sys2Proof.Machine
end

section
/-!
PROOF. The election at a HELLO period (08 R220; O57).
-/

namespace Sys2Proof.Machine

/-! ### The HELLO on every link that is UP -/

/-- A HELLO leaves the registers but BEACON, and the start of the wait; it waits on a link that is UP. -/
structure Greeted (d e : Dev) : Prop where
  rd : ∀ g, PAST_STAT_BEACON.apart g → e.rd g = d.rd g
  waitFrom : e.past.waitFrom = d.past.waitFrom
  sent : ∀ x < 2, d.linkUp x = true → ∃ f ∈ e.past.tx, f.link = x ∧ f.type = 3

theorem Dev.sendOn_waitFrom (x t ds sr h q : Nat) (p : List Nat) (d : Dev) : (d.sendOn x t ds sr h q p).past.waitFrom = d.past.waitFrom := by
  unfold Dev.sendOn
  split <;> rfl

theorem Dev.sendHello_greeted (d : Dev) : Greeted d d.sendHello := by
  obtain ⟨y, hy⟩ : ∃ y, y = if d.rd PAST_STAT_ROLE = 3 then d.bump PAST_STAT_BEACON
    else if d.rd PAST_STAT_ROLE = 2 then d.wr PAST_STAT_BEACON (d.link (d.rd PAST_STAT_FL)).nbBeacon else d := ⟨_, rfl⟩
  have hbeacon : (∀ g, PAST_STAT_BEACON.apart g → y.rd g = d.rd g) ∧ y.past = d.past := by
    rw [hy]
    split
    · exact ⟨fun g hg => Dev.rd_wr_apart hg _ _, Dev.bump_past ..⟩
    · split
      · exact ⟨fun g hg => Dev.rd_wr_apart hg _ _, Dev.wr_past ..⟩
      · exact ⟨fun _ _ => rfl, rfl⟩
  have hsend : ∃ p q : List Nat, d.sendHello = (y.sendNear 0 3 p).sendNear 1 3 q := ⟨_, _, by rw [hy]; rfl⟩
  obtain ⟨p, q, hsend⟩ := hsend
  clear hy
  obtain ⟨hrd, hpast⟩ := hbeacon
  obtain ⟨z, hz⟩ : ∃ z, z = y.sendNear 0 3 p := ⟨_, rfl⟩
  have hzpast : ∃ r, z = { y with past := r } := by
    rw [hz]
    exact Dev.sendOn_past 3 0xE y.pastIndex 0 0 p y
  have hlast : ∃ r, d.sendHello = { z with past := r } := by
    rw [hsend, ← hz]
    exact Dev.sendOn_past 3 0xE z.pastIndex 0 0 q z
  have hup : ∀ x, y.linkUp x = d.linkUp x := fun x =>
    Dev.flag_of_rd (hrd _ ⟨show 31 ≤ 31 ∧ 31 < 32 by decide, show 0 ≤ 15 by decide, Or.inl (by simp only [PLINK_STAT_UP, PAST_STAT_BEACON, rPLINK_STAT, rPAST_STAT]; omega)⟩)
  refine ⟨fun g hg => ?_, ?_, fun x hx hu => ?_⟩
  · obtain ⟨r, hr⟩ := hzpast
    obtain ⟨r', hr'⟩ := hlast
    rw [hr', hr]
    exact hrd g hg
  · rw [hsend, ← hz]
    refine (Dev.sendOn_waitFrom ..).trans ?_
    rw [hz]
    exact (Dev.sendOn_waitFrom ..).trans (congrArg Past.waitFrom hpast)
  · obtain rfl | rfl : x = 0 ∨ x = 1 := by omega
    · have hmem := (Dev.mem_sendOn (x := 0) ((hup 0).trans hu) 3 0xE y.pastIndex 0 0 p).1
      refine ⟨PFrame.of 0 3 0xE y.pastIndex 0 0 p, ?_, rfl, rfl⟩
      rw [hsend]
      exact (PastGrown.sendOn 1 3 0xE _ 0 0 q _).tx _ hmem
    · have hzup : z.linkUp 1 = true := by
        obtain ⟨r, hr⟩ := hzpast
        rw [hr]
        exact (hup 1).trans hu
      have hmem := (Dev.mem_sendOn (x := 1) hzup 3 0xE z.pastIndex 0 0 q).1
      refine ⟨PFrame.of 1 3 0xE z.pastIndex 0 0 q, ?_, rfl, rfl⟩
      rw [hsend, ← hz]
      exact hmem

/-! ### Roles -/

section
variable {d : Dev}

/-- A device that has become CANDIDATE. -/
theorem Dev.becomeCandidate_spec (d : Dev) {e : Dev} (he : e = d.becomeCandidate) :
    e.rd PAST_STAT_ROLE = 1 ∧ e.flag PAST_STAT_BW_V = false ∧ e.flag PAST_STAT_FL_V = false ∧ e.past.waitFrom = d.clk.tclk ∧ e.clk = d.clk ∧
      e.past.links = d.past.links ∧ (∀ g : Fld, g.addr ≠ rPAST_STAT → e.rd g = d.rd g) := by
  obtain ⟨a, ha⟩ : ∃ a, a = d.wr PAST_STAT_ROLE 1 := ⟨_, rfl⟩
  obtain ⟨b, hb⟩ : ∃ b, b = a.wr PAST_STAT_BW_V 0 := ⟨_, rfl⟩
  obtain ⟨c, hc⟩ : ∃ c, c = b.wr PAST_STAT_FL_V 0 := ⟨_, rfl⟩
  have heq : e = { c with past := { c.past with waitFrom := c.clk.tclk } } := by
    rw [he, hc, hb, ha]
    rfl
  have hclk : c.clk = d.clk := by rw [hc, hb, ha, Dev.wr_clk, Dev.wr_clk, Dev.wr_clk]
  have hpast : c.past = d.past := by rw [hc, hb, ha, Dev.wr_past, Dev.wr_past, Dev.wr_past]
  have hlinks : c.past.links = d.past.links := congrArg Past.links hpast
  have hrole : c.rd PAST_STAT_ROLE = 1 := by
    rw [hc, Dev.rd_wr_apart (by decide), hb, Dev.rd_wr_apart (by decide), ha]
    exact Dev.rd_wr_self d PAST_STAT_ROLE 1 (by decide)
  have hbw : c.flag PAST_STAT_BW_V = false := by
    rw [hc, Dev.flag_of_rd (Dev.rd_wr_apart (by decide) b 0), hb]
    exact Dev.flag_wr_self a PAST_STAT_BW_V 0 (by decide) rfl
  have hfl : c.flag PAST_STAT_FL_V = false := by
    rw [hc]
    exact Dev.flag_wr_self b PAST_STAT_FL_V 0 (by decide) rfl
  have hrd : ∀ g : Fld, g.addr ≠ rPAST_STAT → c.rd g = d.rd g := fun g hg => by
    rw [hc, Dev.rd_wr_of_ne _ _ _ _ hg, hb, Dev.rd_wr_of_ne _ _ _ _ hg, ha, Dev.rd_wr_of_ne _ _ _ _ hg]
  rw [heq]
  exact ⟨hrole, hbw, hfl, congrArg Clock.tclk hclk, hclk, hlinks, hrd⟩

/-- A device that has become BELLWETHER. -/
theorem Dev.becomeBellwether_spec (d : Dev) {e : Dev} (he : e = d.becomeBellwether) :
    e.rd PAST_STAT_ROLE = 3 ∧ e.rd PAST_STAT_BW_IDX = d.pastIndex ∧ e.rd PAST_STAT_HOPS = 0 ∧ e.flag PAST_EVT_TAKEOVER = true ∧
      e.rd PAST_TAKEOVERS_COUNT = (d.rd PAST_TAKEOVERS_COUNT + 1) % 2 ^ 32 ∧ (∀ g : Fld, 0x0A0100 ≤ g.addr → e.rd g = d.rd g) := by
  obtain ⟨a, ha⟩ : ∃ a, a = (d.wr PAST_STAT_ROLE 3).wr PAST_STAT_BW_V 1 := ⟨_, rfl⟩
  obtain ⟨b, hb⟩ : ∃ b, b = a.wr PAST_STAT_BW_IDX d.pastIndex := ⟨_, rfl⟩
  obtain ⟨c, hc⟩ : ∃ c, c = b.wr PAST_STAT_HOPS 0 := ⟨_, rfl⟩
  obtain ⟨f, hf⟩ : ∃ f, f = (c.wr PAST_STAT_FL_V 0).wr PAST_STAT_FL 0 := ⟨_, rfl⟩
  obtain ⟨t, ht⟩ : ∃ t, t = (f.evt PAST_EVT_TAKEOVER).bump PAST_TAKEOVERS_COUNT := ⟨_, rfl⟩
  have heq : e = (t.cntAdd 4 1).fire 36 (d.rd PAST_STAT_BW_IDX) := by
    rw [he, ht, hf, hc, hb, ha]
    rfl
  clear he
  have hothers : ∀ g : Fld, g.addr ≠ rPAST_STAT → f.rd g = d.rd g := fun g hg => by
    rw [hf, Dev.rd_wr_of_ne _ _ _ _ hg, Dev.rd_wr_of_ne _ _ _ _ hg, hc, Dev.rd_wr_of_ne _ _ _ _ hg, hb, Dev.rd_wr_of_ne _ _ _ _ hg, ha,
      Dev.rd_wr_of_ne _ _ _ _ hg, Dev.rd_wr_of_ne _ _ _ _ hg]
  have hrole : f.rd PAST_STAT_ROLE = 3 := by
    rw [hf, Dev.rd_wr_apart (by decide), Dev.rd_wr_apart (by decide), hc, Dev.rd_wr_apart (by decide), hb, Dev.rd_wr_apart (by decide), ha,
      Dev.rd_wr_apart (by decide)]
    exact Dev.rd_wr_self d PAST_STAT_ROLE 3 (by decide)
  have hidx : f.rd PAST_STAT_BW_IDX = d.pastIndex := by
    have hlt : d.pastIndex < 8 := d.rd_lt PAST_CFG_INDEX
    rw [hf, Dev.rd_wr_apart (by decide), Dev.rd_wr_apart (by decide), hc, Dev.rd_wr_apart (by decide), hb]
    exact (Dev.rd_wr_self a PAST_STAT_BW_IDX _ (by decide)).trans (Nat.mod_eq_of_lt hlt)
  have hhops : f.rd PAST_STAT_HOPS = 0 := by
    rw [hf, Dev.rd_wr_apart (by decide), Dev.rd_wr_apart (by decide), hc]
    exact Dev.rd_wr_self b PAST_STAT_HOPS 0 (by decide)
  clear hf hc hb ha
  have hstat : ∀ g : Fld, g.addr ≠ rPAST_EVT → g.addr ≠ rPAST_TAKEOVERS → t.rd g = f.rd g := fun g h1 h2 => by
    rw [ht]
    exact (Dev.rd_wr_of_ne _ PAST_TAKEOVERS_COUNT g _ h2).trans (Dev.rd_evt_of_ne f PAST_EVT_TAKEOVER g h1)
  have hevt : t.flag PAST_EVT_TAKEOVER = true := by
    rw [ht]
    exact (Dev.flag_of_rd (Dev.rd_wr_of_ne _ PAST_TAKEOVERS_COUNT PAST_EVT_TAKEOVER _ (by decide))).trans (Dev.flag_evt_self f _ rfl (by decide))
  have hcount : t.rd PAST_TAKEOVERS_COUNT = (d.rd PAST_TAKEOVERS_COUNT + 1) % 2 ^ 32 := by
    rw [ht]
    refine (Dev.bump_rd _ (f := PAST_TAKEOVERS_COUNT) (by decide)).trans ?_
    rw [Dev.rd_evt_of_ne _ _ _ (by decide), hothers _ (by decide)]
    rfl
  clear ht
  have hfired : ∀ g : Fld, 0x0A0000 ≤ g.addr → e.rd g = t.rd g := fun g hg => by
    rw [heq]
    exact Dev.fire_rd hg ..
  refine ⟨?_, ?_, ?_, (Dev.flag_of_rd (hfired _ (by decide))).trans hevt, (hfired _ (by decide)).trans hcount, fun g hg => ?_⟩
  · exact ((hfired _ (by decide)).trans (hstat _ (by decide) (by decide))).trans hrole
  · exact ((hfired _ (by decide)).trans (hstat _ (by decide) (by decide))).trans hidx
  · exact ((hfired _ (by decide)).trans (hstat _ (by decide) (by decide))).trans hhops
  · exact ((hfired _ (by omega)).trans (hstat _ (by unfold rPAST_EVT; omega) (by unfold rPAST_TAKEOVERS; omega))).trans
      (hothers _ (by unfold rPAST_STAT; omega))

/-- A device that follows the bellwether that a link names. -/
def Dev.follow (fl hops : Nat) (bw : Nat × Nat) (d : Dev) : Dev :=
  let d := ((d.wr PAST_STAT_ROLE 2).wr PAST_STAT_BW_V 1).wr PAST_STAT_BW_IDX bw.2
  let d := ((d.wr PAST_STAT_HOPS (hops + 1)).wr PAST_STAT_FL_V 1).wr PAST_STAT_FL fl
  { d with past := { d.past with bwPrio := bw.1 } }

theorem Dev.follow_spec (fl hops : Nat) (bw : Nat × Nat) (d : Dev) {e : Dev} (he : e = d.follow fl hops bw) :
    e.rd PAST_STAT_ROLE = 2 ∧ e.flag PAST_STAT_BW_V = true ∧ e.rd PAST_STAT_BW_IDX = bw.2 % 8 ∧ e.rd PAST_STAT_FL = fl % 2 ∧
      e.rd PAST_STAT_HOPS = (hops + 1) % 8 ∧ (∀ g : Fld, g.addr ≠ rPAST_STAT → e.rd g = d.rd g) := by
  obtain ⟨a, ha⟩ : ∃ a, a = d.wr PAST_STAT_ROLE 2 := ⟨_, rfl⟩
  obtain ⟨b, hb⟩ : ∃ b, b = a.wr PAST_STAT_BW_V 1 := ⟨_, rfl⟩
  obtain ⟨c, hc⟩ : ∃ c, c = b.wr PAST_STAT_BW_IDX bw.2 := ⟨_, rfl⟩
  obtain ⟨f, hf⟩ : ∃ f, f = c.wr PAST_STAT_HOPS (hops + 1) := ⟨_, rfl⟩
  obtain ⟨g, hg⟩ : ∃ g, g = f.wr PAST_STAT_FL_V 1 := ⟨_, rfl⟩
  obtain ⟨t, ht⟩ : ∃ t, t = g.wr PAST_STAT_FL fl := ⟨_, rfl⟩
  have heq : e = { t with past := { t.past with bwPrio := bw.1 } } := by
    rw [he, ht, hg, hf, hc, hb, ha]
    rfl
  have hrole : t.rd PAST_STAT_ROLE = 2 := by
    rw [ht, Dev.rd_wr_apart (by decide), hg, Dev.rd_wr_apart (by decide), hf, Dev.rd_wr_apart (by decide), hc, Dev.rd_wr_apart (by decide), hb,
      Dev.rd_wr_apart (by decide), ha]
    exact Dev.rd_wr_self d PAST_STAT_ROLE 2 (by decide)
  have hbw : t.flag PAST_STAT_BW_V = true := by
    rw [ht, Dev.flag_of_rd (Dev.rd_wr_apart (by decide) g fl), hg, Dev.flag_of_rd (Dev.rd_wr_apart (by decide) f 1), hf,
      Dev.flag_of_rd (Dev.rd_wr_apart (by decide) c _), hc, Dev.flag_of_rd (Dev.rd_wr_apart (by decide) b _), hb]
    exact Dev.flag_wr_self a PAST_STAT_BW_V 1 (by decide) rfl
  have hidx : t.rd PAST_STAT_BW_IDX = bw.2 % 8 := by
    rw [ht, Dev.rd_wr_apart (by decide), hg, Dev.rd_wr_apart (by decide), hf, Dev.rd_wr_apart (by decide), hc]
    exact Dev.rd_wr_self b PAST_STAT_BW_IDX _ (by decide)
  have hfl : t.rd PAST_STAT_FL = fl % 2 := by
    rw [ht]
    exact Dev.rd_wr_self g PAST_STAT_FL _ (by decide)
  have hhops : t.rd PAST_STAT_HOPS = (hops + 1) % 8 := by
    rw [ht, Dev.rd_wr_apart (by decide), hg, Dev.rd_wr_apart (by decide), hf]
    exact Dev.rd_wr_self c PAST_STAT_HOPS _ (by decide)
  have hrd : ∀ w : Fld, w.addr ≠ rPAST_STAT → t.rd w = d.rd w := fun w hw => by
    rw [ht, Dev.rd_wr_of_ne _ _ _ _ hw, hg, Dev.rd_wr_of_ne _ _ _ _ hw, hf, Dev.rd_wr_of_ne _ _ _ _ hw, hc, Dev.rd_wr_of_ne _ _ _ _ hw, hb,
      Dev.rd_wr_of_ne _ _ _ _ hw, ha, Dev.rd_wr_of_ne _ _ _ _ hw]
  rw [heq]
  exact ⟨hrole, hbw, hidx, hfl, hhops, hrd⟩

end

end Sys2Proof.Machine
end

section
/-!
PROOF. The cases of the election, and the obligation on pasture links (08 R212 to R220; O57).
-/

namespace Sys2Proof.Machine

section
variable {d : Dev} {x : Nat}

/-! ### The cases of the election (R220) -/

theorem Dev.elect_yields (hr : d.rd PAST_STAT_ROLE = 3)
    (h : d.eligNow = false ∨ (d.heardLinks.any fun x => pairLt (d.bwPair x) (d.rd PAST_CFG_PRIO, d.pastIndex)) = true) :
    d.elect = d.becomeCandidate.evt PAST_EVT_YIELD := by
  unfold Dev.elect
  dsimp only
  rw [if_pos hr, if_pos (h.imp (fun he => by rw [he]; decide) id)]

theorem Dev.elect_takesOver (hr : d.rd PAST_STAT_ROLE = 1) (hh : d.heardLinks = []) (he : d.eligNow = true)
    (hw : (8 * d.rd PAST_CFG_PRIO + d.pastIndex) * d.helloPer ≤ d.clk.tclk - d.past.waitFrom) : d.elect = d.becomeBellwether := by
  unfold Dev.elect
  dsimp only
  rw [if_neg (by rw [hr]; decide), hh]
  dsimp only
  rw [if_neg (show ¬ d.rd PAST_STAT_ROLE = 2 by rw [hr]; decide), if_pos ⟨he, hw⟩]

theorem Dev.helloPer_pos (d : Dev) : 0 < d.helloPer := by
  have hclamp : 1 ≤ d.rdIn ⟨rPAST_TIMER, 15, 0⟩ 1 1000 := by
    unfold Dev.rdIn clampN
    split
    · exact Nat.le_refl 1
    · split
      · decide
      · omega
  exact Nat.mul_pos hclamp (by decide)

/-- A FOLLOWER that hears no bellwether becomes CANDIDATE, and its wait has not passed yet. -/
theorem Dev.elect_losesBellwether (hr : d.rd PAST_STAT_ROLE = 2) (hh : d.heardLinks = [])
    (h : d.eligNow = false ∨ 0 < 8 * d.rd PAST_CFG_PRIO + d.pastIndex) : d.elect = d.becomeCandidate.evt PAST_EVT_BW_LOST := by
  obtain ⟨-, -, -, hwait, hclk, -, hrd⟩ := d.becomeCandidate_spec rfl
  obtain ⟨e, he⟩ : ∃ e, e = d.becomeCandidate.evt PAST_EVT_BW_LOST := ⟨_, rfl⟩
  have hwaits : e.past.waitFrom = e.clk.tclk := by
    rw [he, Dev.evt_past, Dev.evt_clk, hwait, hclk]
  unfold Dev.elect
  dsimp only
  rw [if_neg (by rw [hr]; decide), hh]
  dsimp only
  rw [if_pos hr, ← he, if_neg]
  rintro ⟨helig, hpassed⟩
  rw [hwaits, Nat.sub_self] at hpassed
  have hpos := e.helloPer_pos
  rcases h with h | h
  · exact absurd helig (by rw [h]; decide)
  · exact absurd (Nat.mul_pos h hpos) (Nat.not_lt.2 hpassed)

theorem Dev.rd_hops_le (d : Dev) (x : Nat) : d.rd (PLINK_STAT_NB_HOPS x) ≤ 7 := Nat.le_of_lt_succ (d.rd_lt (PLINK_STAT_NB_HOPS x))

/-- One link names a bellwether: the device preempts it, or follows it. -/
theorem Dev.elect_one (hr : d.rd PAST_STAT_ROLE = 1 ∨ d.rd PAST_STAT_ROLE = 2) (hh : d.heardLinks = [x]) : d.elect =
    if d.flag PAST_CFG_PREEMPT ∧ d.eligNow ∧ pairLt (d.rd PAST_CFG_PRIO, d.pastIndex) (d.bwPair x) then d.becomeBellwether
    else d.follow x (d.rd (PLINK_STAT_NB_HOPS x)) (d.bwPair x) := by
  have hname : [x].filter (fun y => decide ((d.link y).nbBw = (d.bwPair x).2)) = [x] :=
    List.filter_cons_of_pos (decide_eq_true (rfl : (d.link x).nbBw = (d.bwPair x).2))
  have hfind : [x].find? (fun y => decide (d.rd (PLINK_STAT_NB_HOPS y) = d.rd (PLINK_STAT_NB_HOPS x))) = some x :=
    List.find?_cons_of_pos (decide_eq_true rfl)
  have hmin : min 7 (d.rd (PLINK_STAT_NB_HOPS x)) = d.rd (PLINK_STAT_NB_HOPS x) := Nat.min_eq_right (d.rd_hops_le x)
  unfold Dev.elect
  dsimp only
  rw [if_neg (by omega), hh]
  dsimp only
  rw [List.foldl_nil, hname, List.foldl_cons, List.foldl_nil, hmin, hfind, Option.getD_some]
  rfl

/-! ### HELLO_PERIOD -/

/-- The election leaves the registers of the links. -/
theorem Dev.elect_rd {g : Fld} (h : 0x0A0100 ≤ g.addr) (d : Dev) : d.elect.rd g = d.rd g := by
  have hstat : g.addr ≠ rPAST_STAT := by unfold rPAST_STAT; omega
  have candidate : ∀ (y : Dev) (f : Fld), f.addr = rPAST_EVT → (y.becomeCandidate.evt f).rd g = y.rd g := fun y f hf => by
    obtain ⟨-, -, -, -, -, -, hrd⟩ := y.becomeCandidate_spec rfl
    exact (Dev.rd_evt_of_ne _ f g (by rw [hf]; unfold rPAST_EVT; omega)).trans (hrd g hstat)
  have bellwether : ∀ y : Dev, y.becomeBellwether.rd g = y.rd g := fun y => by
    obtain ⟨-, -, -, -, -, hrd⟩ := y.becomeBellwether_spec rfl
    exact hrd g h
  unfold Dev.elect
  extract_lets heard me elig y
  have hy : y.rd g = d.rd g := by
    unfold y
    split
    · exact candidate d _ rfl
    · rfl
  clear_value heard me elig y
  split
  · split
    · exact candidate d _ rfl
    · rfl
  · split
    · split
      · exact (bellwether y).trans hy
      · exact hy
    · dsimp only
      split
      · exact bellwether d
      · obtain ⟨-, -, -, -, -, hrd⟩ := d.follow_spec _ _ _ rfl
        exact hrd g hstat

end

variable {s : State} {dt x : Nat}

theorem helloPeriod_effects (hu : s.dev.flag PAST_CFG_USED = true) (hr : s.dev.running = true) (h0 : s.dev.rd PAST_STAT_ROLE ≠ 0) {P : Dev → Prop}
    (h : ∀ e, Greeted ((s.dev.advance dt).elect) e → P e) : Effects (.helloPeriod dt) s P := by
  refine Effects.of_run (f := Dev.helloPeriod) rfl ?_
  have hrun : (s.dev.advance dt).helloPeriod = ((s.dev.advance dt).elect.askSelect none).sendHello := by
    unfold Dev.helloPeriod
    rw [if_neg]
    rintro (h | h | h)
    · exact h hu
    · exact h hr
    · exact h0 h
  rw [hrun]
  obtain ⟨h1, h2, h3⟩ := ((s.dev.advance dt).elect.askSelect none).sendHello_greeted
  exact h _ ⟨h1, h2, h3⟩

theorem Effects.imp {c : Instr} {P Q : Dev → Prop} (h : Effects c s P) (hi : ∀ e, P e → Q e) : Effects c s Q := by
  obtain ⟨e, hexec, he⟩ := h
  exact ⟨e, hexec, fun hl => hi e (he hl)⟩

/-- A command of a link, in any mode in which the links run. -/
theorem linkRun_effects {c : Instr} {f : Dev → Dev} (hx : x < 2) (hr : s.dev.running = true) {P : Dev → Prop}
    (hc : exec c s = run dt (within x 2 (Dev.whenNow Dev.running f)) s) (h : P (f (s.dev.advance dt))) : Effects c s P := by
  refine Effects.of_run hc ?_
  rw [within_of_lt hx, Dev.whenNow_pos (show Dev.running (s.dev.advance dt) = true from hr)]
  exact h

/-- TS_RX comes after a loss of the active reference on its edge. -/
theorem tsRx_effects (hx : x < 2) (hr : s.dev.running = true) {launch mL arrival mA : Nat} {P : Dev → Prop}
    (h : ∀ k, P ({ (s.dev.advance dt).tsRx x launch mL arrival mA with clk := k } : Dev)) : Effects (.tsRx dt x launch mL arrival mA) s P :=
  Effects.of_afterLoss (f := Dev.tsRx x launch mL arrival mA) (p := Dev.running)
    (congrArg (fun f => run dt f s) (within_of_lt hx _)) hr h

section
variable (hu : s.dev.flag PAST_CFG_USED = true) (hr : s.dev.running = true) (h0 : s.dev.rd PAST_STAT_ROLE ≠ 0)

/-- The fields of PAST_STAT but BEACON stand through the HELLO. -/
theorem Greeted.stat {d e : Dev} (h : Greeted d e) {hi lo : Nat} (hl : lo ≤ hi ∧ hi < 32 ∧ 15 < lo) : e.rd ⟨rPAST_STAT, hi, lo⟩ = d.rd ⟨rPAST_STAT, hi, lo⟩ :=
  h.rd _ ⟨⟨hl.1, hl.2.1⟩, by decide, Or.inr (Or.inl hl.2.2)⟩

theorem Greeted.off {d e : Dev} (h : Greeted d e) {g : Fld} (hg : g.ok) (hne : g.addr ≠ rPAST_STAT) : e.rd g = d.rd g :=
  h.rd _ ⟨hg, by decide, Or.inl hne⟩

include hu hr h0

/-- The device becomes CANDIDATE: as BELLWETHER with YIELD, as FOLLOWER with BW_LOST. -/
theorem helloPeriod_candidate {f : Fld} (hf : f.addr = rPAST_EVT ∧ f.hi = f.lo ∧ f.lo < 24)
    (h : (s.dev.advance dt).elect = (s.dev.advance dt).becomeCandidate.evt f) : Effects (.helloPeriod dt) s fun e =>
      e.rd PAST_STAT_ROLE = 1 ∧ e.flag PAST_STAT_BW_V = false ∧ e.flag PAST_STAT_FL_V = false ∧ e.flag f = true ∧
        e.past.waitFrom = s.dev.clk.tclk + dt := by
  refine helloPeriod_effects hu hr h0 fun e he => ?_
  obtain ⟨hrole, hbw, hfl, hwait, -⟩ := (s.dev.advance dt).becomeCandidate_spec rfl
  have hstat : ∀ g : Fld, g.addr = rPAST_STAT → (s.dev.advance dt).elect.rd g = (s.dev.advance dt).becomeCandidate.rd g := fun g hg => by
    rw [h]
    exact Dev.rd_evt_of_ne _ f g (by rw [hg, hf.1]; decide)
  refine ⟨(he.stat (by decide)).trans ((hstat _ rfl).trans hrole), (Dev.flag_of_rd ((he.stat (by decide)).trans (hstat _ rfl))).trans hbw,
    (Dev.flag_of_rd ((he.stat (by decide)).trans (hstat _ rfl))).trans hfl, ?_, ?_⟩
  · refine (Dev.flag_of_rd (he.off ⟨Nat.le_of_eq hf.2.1.symm, by omega⟩ (by rw [hf.1]; decide))).trans ?_
    rw [h]
    exact Dev.flag_evt_self _ f hf.2.1 hf.2.2
  · rw [he.waitFrom, h, Dev.evt_past]
    exact hwait

/-- The device becomes BELLWETHER. -/
theorem helloPeriod_bellwether (h : (s.dev.advance dt).elect = (s.dev.advance dt).becomeBellwether) : Effects (.helloPeriod dt) s fun e =>
    e.rd PAST_STAT_ROLE = 3 ∧ e.rd PAST_STAT_BW_IDX = s.dev.pastIndex ∧ e.rd PAST_STAT_HOPS = 0 ∧ e.flag PAST_EVT_TAKEOVER = true ∧
      e.rd PAST_TAKEOVERS_COUNT = (s.dev.rd PAST_TAKEOVERS_COUNT + 1) % 2 ^ 32 := by
  refine helloPeriod_effects hu hr h0 fun e he => ?_
  obtain ⟨hrole, hidx, hhops, hevt, hcount, -⟩ := (s.dev.advance dt).becomeBellwether_spec rfl
  rw [h] at he
  exact ⟨(he.stat (by decide)).trans hrole, (he.stat (by decide)).trans hidx, (he.stat (by decide)).trans hhops,
    (Dev.flag_of_rd (he.off (by decide) (by decide))).trans hevt, (he.off (by decide) (by decide)).trans hcount⟩

end

/-- The elections of a HELLO period. -/
theorem electionsOfHelloPeriod (hx : x < 2) (hu : s.dev.flag PAST_CFG_USED = true) (hr : s.dev.running = true) (h0 : s.dev.rd PAST_STAT_ROLE ≠ 0) :
    (s.dev.linkUp x = true → Effects (.helloPeriod dt) s fun e => ∃ f ∈ e.past.tx, f.link = x ∧ f.type = 3) ∧
      (s.dev.rd PAST_STAT_ROLE = 3 → s.dev.eligNow = false → Effects (.helloPeriod dt) s fun e =>
        e.rd PAST_STAT_ROLE = 1 ∧ e.flag PAST_STAT_BW_V = false ∧ e.flag PAST_EVT_YIELD = true) ∧
      (s.dev.rd PAST_STAT_ROLE = 1 → (s.dev.advance dt).heardLinks = [] → s.dev.eligNow = true →
        (8 * s.dev.rd PAST_CFG_PRIO + s.dev.pastIndex) * s.dev.helloPer ≤ s.dev.clk.tclk + dt - s.dev.past.waitFrom →
        Effects (.helloPeriod dt) s fun e => e.rd PAST_STAT_ROLE = 3 ∧ e.rd PAST_STAT_BW_IDX = s.dev.pastIndex ∧
          e.rd PAST_STAT_HOPS = 0 ∧ e.flag PAST_EVT_TAKEOVER = true ∧
          e.rd PAST_TAKEOVERS_COUNT = (s.dev.rd PAST_TAKEOVERS_COUNT + 1) % 2 ^ 32) ∧
      (s.dev.rd PAST_STAT_ROLE = 3 → (s.dev.advance dt).heardLinks = [x] →
        pairLt ((s.dev.advance dt).bwPair x) (s.dev.rd PAST_CFG_PRIO, s.dev.pastIndex) = true →
        Effects (.helloPeriod dt) s fun e => e.rd PAST_STAT_ROLE = 1 ∧ e.flag PAST_EVT_YIELD = true) ∧
      (s.dev.rd PAST_STAT_ROLE = 2 → (s.dev.advance dt).heardLinks = [] →
        s.dev.eligNow = false ∨ 0 < 8 * s.dev.rd PAST_CFG_PRIO + s.dev.pastIndex → Effects (.helloPeriod dt) s fun e =>
          e.rd PAST_STAT_ROLE = 1 ∧ e.flag PAST_STAT_BW_V = false ∧ e.flag PAST_STAT_FL_V = false ∧
          e.flag PAST_EVT_BW_LOST = true ∧ e.past.waitFrom = s.dev.clk.tclk + dt) ∧
      (s.dev.rd PAST_STAT_ROLE = 1 ∨ s.dev.rd PAST_STAT_ROLE = 2 → (s.dev.advance dt).heardLinks = [x] →
        s.dev.flag PAST_CFG_PREEMPT = true → s.dev.eligNow = true →
        pairLt (s.dev.rd PAST_CFG_PRIO, s.dev.pastIndex) ((s.dev.advance dt).bwPair x) = true →
        Effects (.helloPeriod dt) s fun e => e.rd PAST_STAT_ROLE = 3 ∧ e.rd PAST_STAT_BW_IDX = s.dev.pastIndex ∧
          e.rd PAST_STAT_HOPS = 0 ∧ e.flag PAST_EVT_TAKEOVER = true ∧
          e.rd PAST_TAKEOVERS_COUNT = (s.dev.rd PAST_TAKEOVERS_COUNT + 1) % 2 ^ 32) ∧
      (s.dev.rd PAST_STAT_ROLE = 1 ∨ s.dev.rd PAST_STAT_ROLE = 2 → (s.dev.advance dt).heardLinks = [x] →
        s.dev.flag PAST_CFG_PREEMPT = false ∨ s.dev.eligNow = false ∨
          pairLt (s.dev.rd PAST_CFG_PRIO, s.dev.pastIndex) ((s.dev.advance dt).bwPair x) = false →
        Effects (.helloPeriod dt) s fun e => e.rd PAST_STAT_ROLE = 2 ∧ e.flag PAST_STAT_BW_V = true ∧
          e.rd PAST_STAT_BW_IDX = (s.dev.link x).nbBw % 8 ∧ e.rd PAST_STAT_FL = x ∧
          e.rd PAST_STAT_HOPS = (s.dev.rd (PLINK_STAT_NB_HOPS x) + 1) % 8) := by
  refine ⟨fun hup => ?_, fun hrole helig => ?_, fun hrole hh helig hw => ?_, fun hrole hh hlt => ?_, fun hrole hh hor => ?_,
    fun hrole hh hpre helig hlt => ?_, fun hrole hh hno => ?_⟩
  · refine helloPeriod_effects hu hr h0 fun e he => he.sent x hx ?_
    exact (Dev.flag_of_rd (Dev.elect_rd (g := PLINK_STAT_UP x) (by simp only [PLINK_STAT_UP, rPLINK_STAT]; omega) _)).trans hup
  · exact (helloPeriod_candidate hu hr h0 (by decide) (Dev.elect_yields (d := s.dev.advance dt) hrole (Or.inl helig))).imp fun e h =>
      ⟨h.1, h.2.1, h.2.2.2.1⟩
  · exact helloPeriod_bellwether hu hr h0 (Dev.elect_takesOver (d := s.dev.advance dt) hrole hh helig hw)
  · refine (helloPeriod_candidate hu hr h0 (by decide) (Dev.elect_yields (d := s.dev.advance dt) hrole (Or.inr ?_))).imp fun e h =>
      ⟨h.1, h.2.2.2.1⟩
    rw [hh]
    exact List.any_eq_true.2 ⟨x, List.mem_singleton.2 rfl, hlt⟩
  · exact (helloPeriod_candidate hu hr h0 (by decide) (Dev.elect_losesBellwether (d := s.dev.advance dt) hrole hh hor))
  · refine helloPeriod_bellwether hu hr h0 ((Dev.elect_one (d := s.dev.advance dt) hrole hh).trans (if_pos ⟨hpre, helig, hlt⟩))
  · refine helloPeriod_effects hu hr h0 fun e he => ?_
    have hfollows := Dev.elect_one (d := s.dev.advance dt) hrole hh
    rw [if_neg] at hfollows
    · obtain ⟨hr2, hbw, hidx, hfl, hhops, -⟩ := (s.dev.advance dt).follow_spec x ((s.dev.advance dt).rd (PLINK_STAT_NB_HOPS x)) ((s.dev.advance dt).bwPair x) rfl
      rw [hfollows] at he
      exact ⟨(he.stat (by decide)).trans hr2, (Dev.flag_of_rd (he.stat (by decide))).trans hbw, (he.stat (by decide)).trans hidx,
        ((he.stat (by decide)).trans hfl).trans (Nat.mod_eq_of_lt hx), (he.stat (by decide)).trans hhops⟩
    · rintro ⟨h1, h2, h3⟩
      rcases hno with hno | hno | hno
      · exact absurd (hno.symm.trans h1) (by decide)
      · exact absurd (hno.symm.trans h2) (by decide)
      · exact absurd (hno.symm.trans h3) (by decide)

/-- Settles O57: marks and their timestamps, exchanges, HELLO frames and the states of a link, and the election at a HELLO period. -/
theorem pastureLinks : Obligations.PastureLinks := by
  intro s dt x hx hl
  have hlen : x < (s.dev.advance dt).past.links.length := Nat.lt_of_lt_of_eq hx hl.symm
  refine ⟨fun a b hr => ?_, ?_, ?_, fun q sub hr => markRx_effects hx hr (Dev.markRx_frames hx q sub),
    ?_, fun src h h8 hr hs => ⟨fun hsrc => ?_, fun hsrc => ?_⟩, fun hr hs => ?_, fun he hr => ?_, fun hr c hc => ?_,
    fun hu hr h0 => electionsOfHelloPeriod hx hu hr h0⟩
  · obtain ⟨hmseq, hsent⟩ := Dev.markLaunch_sends (d := s.dev.advance dt) hx hl a b
    exact markLaunch_effects hr ⟨hmseq, fun hu hlanes => hsent hu ((List.length_map _).trans hlanes)⟩
  · intro a b q c ok sub tag mseq arr k hm hclaim hho hmem hok htaker hdec harr hfwd hconv
    have hr := Dev.running_of_measuring hm
    replace harr : arr = (s.dev.advance dt).arrival sub := harr
    have ht : TakesEdge (s.dev.advance dt) (44 + x) sub tag k := ⟨hm, hclaim, hho, htaker, hdec, harr ▸ hfwd, harr ▸ hconv⟩
    simp only [List.mem_cons, Prod.mk.injEq, List.not_mem_nil, or_false] at hmem
    rcases hmem with ⟨rfl, rfl, hsub, rfl, rfl⟩ | ⟨rfl, rfl, rfl, rfl, rfl⟩
    · exact markLaunch_effects hr (harr ▸ Dev.markLaunch_event hx hok hsub ht)
    · exact markRx_effects hx hr (harr ▸ Dev.markRx_event hx hok ht)
  · intro k code redOk rstOk tableEcc ecc ev rest at_ ts hk hm hpilot htake hparts hho hch hf hat hts
    refine ⟨fun htag => markStamp_effects ecc hx hk hm hpilot htake hparts hho hch hf hat fun z hz hup hidx => ?_,
      fun htag => markStamp_effects ecc hx hk hm hpilot htake hparts hho hch hf hat fun z hz hup hidx => ?_⟩
    · have hzl : z.link x = s.dev.link x := congrArg (fun l : List Link => l.getD x Link.fresh) hz
      rw [htag, ← hts, ← hzl]
      exact Dev.linkStamp_arrival (by rw [hz, hl]; exact hx) ev.mseq ts
    · have hzl : z.link x = s.dev.link x := congrArg (fun l : List Link => l.getD x Link.fresh) hz
      rw [htag, ← hts, ← hzl, ← hup, ← hidx]
      exact Dev.linkStamp_launch (by rw [hz, hl]; exact hx) ev.mseq ts
  · intro launch mL arrival mA hr hup hn
    refine ⟨fun ar la har hla => tsRx_effects hx hr fun k => ?_, fun h => tsRx_effects hx hr fun k => ?_⟩
    · have h := Dev.tsRx_pairs (d := s.dev.advance dt) (arrival := arrival) (launch := launch) hx hup hn har hla rfl
      exact h
    · exact Dev.tsRx_lost (d := s.dev.advance dt) hup hn h
  · refine linkRun_effects (f := fun d => (d.helloRx x src h).askSelect none) hx hr rfl ?_
    have hspec := Dev.helloRx_spec (d := s.dev.advance dt) hlen hs hsrc h8 h rfl
    exact hspec
  · refine linkRun_effects (f := fun d => (d.helloRx x src h).askSelect none) hx hr rfl ?_
    exact Dev.helloRx_dup (d := s.dev.advance dt) hs hsrc h
  · exact linkRun_effects hx hr rfl (Dev.discard_spec (d := s.dev.advance dt) hlen hs rfl)
  · refine Effects.of_run (f := within x 2 (Dev.syncGain x)) rfl ?_
    rw [within_of_lt hx]
    obtain ⟨h1, h2, ⟨w, h3, h4, h5, h6, h7⟩⟩ := Dev.syncGain_spec (d := s.dev.advance dt) hlen he hr
    exact ⟨h1, h2, w, h3, h4, h5, h6, h7⟩
  · simp only [List.mem_cons, List.not_mem_nil, or_false] at hc
    rcases hc with rfl | rfl
    · obtain ⟨h1, h2, h3, h4, h5, ⟨w, a3, a4, a5, a6, a7⟩⟩ := Dev.syncLoss_spec (d := s.dev.advance dt) hlen rfl
      exact linkRun_effects hx hr rfl ⟨h1, h2, h3, h4, fun _ => h5, w, a3, a4, a5, a6, a7⟩
    · obtain ⟨h1, h2, h3, h4, -, ⟨w, a3, a4, a5, a6, a7⟩⟩ := Dev.linkDown_spec (d := s.dev.advance dt) hlen rfl
      exact linkRun_effects hx hr rfl ⟨h1, h2, h3, h4, nofun, w, a3, a4, a5, a6, a7⟩

end Sys2Proof.Machine
end

section
/-!
PROOF. What the frames of SPI and the transactions of I2C keep of their own from part to part (10 R254, R260, R261): their errors, LAST_ERR,
the words acknowledged and the address pointer stand through firings.
-/

namespace Sys2Proof.Machine

/-- LAST_ERR, the errors counted, the words acknowledged and the address pointer stand. -/
structure HostKept (d e : Dev) : Prop where
  lastErr : e.front.lastErr = d.front.lastErr
  errs : e.front.errs = d.front.errs
  acked : e.front.i2cAck = d.front.i2cAck
  ptr : e.front.i2cPtr = d.front.i2cPtr

namespace HostKept

variable {d0 d : Dev}

theorem refl (d : Dev) : HostKept d d := ⟨rfl, rfl, rfl, rfl⟩

theorem trans {e f : Dev} (h : HostKept d e) (h' : HostKept e f) : HostKept d f :=
  ⟨h'.lastErr.trans h.lastErr, h'.errs.trans h.errs, h'.acked.trans h.acked, h'.ptr.trans h.ptr⟩

theorem of_front {e : Dev} (h : e.front = d.front) : HostKept d e := by
  constructor <;> rw [h]

theorem front (h : HostKept d0 d) {e : Dev} (he : e.front = d.front) : HostKept d0 e := h.trans (of_front he)

/-! ### The state's operations -/

theorem setWord (h : HostKept d0 d) (a : Nat) (w : Word) : HostKept d0 (d.setWord a w) := h.front rfl
theorem wr (h : HostKept d0 d) (f : Fld) (v : Nat) : HostKept d0 (d.wr f v) := h.front rfl
theorem wrBoth (h : HostKept d0 d) (f : Fld) (v : Nat) : HostKept d0 (d.wrBoth f v) := h.front rfl
theorem wr48 (h : HostKept d0 d) (lo hi : Fld) (v : Int) : HostKept d0 (d.wr48 lo hi v) := h.front rfl
theorem bump (h : HostKept d0 d) (f : Fld) : HostKept d0 (d.bump f) := h.front rfl
theorem setHw (h : HostKept d0 d) (a : Nat) (w : Word) : HostKept d0 (d.setHw a w) := h.front rfl
theorem evt (h : HostKept d0 d) (f : Fld) : HostKept d0 (d.evt f) := h.front (Dev.evt_front d f)
theorem setPad (h : HostKept d0 d) (n : Nat) (f : Paddock → Paddock) : HostKept d0 (d.setPad n f) := h.front rfl
theorem setSel (h : HostKept d0 d) (n : Nat) (f : Select → Select) : HostKept d0 (d.setSel n f) := h.front rfl
theorem setPort (h : HostKept d0 d) (n : Nat) (f : Port → Port) : HostKept d0 (d.setPort n f) := h.front rfl
theorem setBeat (h : HostKept d0 d) (n : Nat) (f : Beat → Beat) : HostKept d0 (d.setBeat n f) := h.front rfl
theorem setRef (h : HostKept d0 d) (n : Nat) (f : RefMon → RefMon) : HostKept d0 (d.setRef n f) := h.front rfl
theorem setApll (h : HostKept d0 d) (n : Nat) (f : Apll → Apll) : HostKept d0 (d.setApll n f) := h.front rfl
theorem setPsyn (h : HostKept d0 d) (n : Nat) (f : Psyn → Psyn) : HostKept d0 (d.setPsyn n f) := h.front rfl
theorem setOut (h : HostKept d0 d) (n : Nat) (f : OutSt → OutSt) : HostKept d0 (d.setOut n f) := h.front rfl
theorem setCell (h : HostKept d0 d) (n : Nat) (f : Cell → Cell) : HostKept d0 (d.setCell n f) := h.front rfl
theorem setJob (h : HostKept d0 d) (n : Nat) (j : Option Job) : HostKept d0 (d.setJob n j) := h.front rfl
theorem askSelect (h : HostKept d0 d) (m : Option Nat) : HostKept d0 (d.askSelect m) := h.front rfl
theorem changeMode (h : HostKept d0 d) (m : Mode) : HostKept d0 (d.changeMode m) := h.front rfl
theorem logEvent (h : HostKept d0 d) (c a n : Nat) : HostKept d0 (d.logEvent c a n) := h.front rfl
theorem setClk (h : HostKept d0 d) (x : Clock) : HostKept d0 { d with clk := x } := h.front rfl
theorem setFlt (h : HostKept d0 d) (x : Flt) : HostKept d0 { d with flt := x } := h.front rfl
theorem setNvmc (h : HostKept d0 d) (x : NvmCtl) : HostKept d0 { d with nvmc := x } := h.front rfl
theorem setPast (h : HostKept d0 d) (x : Past) : HostKept d0 { d with past := x } := h.front rfl
theorem setMeas (h : HostKept d0 d) (x : Meas) : HostKept d0 { d with meas := x } := h.front rfl
theorem setFresh (h : HostKept d0 d) (x : Nat) : HostKept d0 { d with fresh := x } := h.front rfl
theorem setSelNow (h : HostKept d0 d) (x : Option (List Nat)) : HostKept d0 { d with selNow := x } := h.front rfl
theorem setPrior (h : HostKept d0 d) (x : Mode) : HostKept d0 { d with priorMode := x } := h.front rfl
theorem ackEnd (h : HostKept d0 d) : HostKept d0 d.ackEnd := h.trans ⟨rfl, rfl, rfl, rfl⟩

theorem jobs {e : Dev} (h : HostKept d0 d) (hj : JobsOnly d e) : HostKept d0 e := by
  obtain ⟨j, rfl⟩ := hj
  exact h.front rfl

theorem when (h : HostKept d0 d) (b : Bool) {f : Dev → Dev} (hf : ∀ x, HostKept d0 x → HostKept d0 (f x)) : HostKept d0 (d.when b f) := by
  cases b
  · exact h
  · exact hf d h

theorem ite {p : Prop} [Decidable p] {x y : Dev} (h : p → HostKept d0 x) (h' : ¬ p → HostKept d0 y) : HostKept d0 (if p then x else y) := by
  split
  · exact h ‹_›
  · exact h' ‹_›

theorem foldl {α : Type} (h : HostKept d0 d) {f : Dev → α → Dev} (hf : ∀ x k, HostKept d0 x → HostKept d0 (f x k)) (l : List α) :
    HostKept d0 (l.foldl f d) := by
  induction l generalizing d with
  | nil => exact h
  | cons k t ih => exact ih (hf d k h)

theorem forN (h : HostKept d0 d) {f : Nat → Dev → Dev} (hf : ∀ k x, HostKept d0 x → HostKept d0 (f k x)) (n : Nat) :
    HostKept d0 (forN n f d) := h.foldl (fun x k => hf k x) _

theorem evtIf (h : HostKept d0 d) (b : Bool) (f : Fld) : HostKept d0 (d.evtIf b f) := ite (fun _ => h.evt f) fun _ => h

/-! ### Firings (11 R283 to R300) -/

theorem fillCapture (h : HostKept d0 d) (f : Firing) (repl multi : Bool) : HostKept d0 (d.fillCapture f repl multi) :=
  ((((((((h.setWord _ _).wr _ _).wr _ _).wr _ _).wr _ _).wr _ _).wr _ _).wr _ _).setFlt _

theorem captureFiring (h : HostKept d0 d) (f : Firing) : HostKept d0 (d.captureFiring f) := by
  unfold Dev.captureFiring
  split
  · exact h.fillCapture ..
  · split
    · dsimp only
      split
      · exact h.fillCapture ..
      · exact h.wr ..
    · split
      · exact h.fillCapture ..
      · exact h.bump _

theorem originate (h : HostKept d0 d) (t ds : Nat) (p : List Nat) : HostKept d0 (d.originate t ds p) := by
  obtain ⟨q, hq, -⟩ := d.originate_past t ds p
  rw [hq]
  exact h.setPast q

theorem dumpTrigger (h : HostKept d0 d) (src sev : Nat) (inj fresh : Bool) : HostKept d0 (d.dumpTrigger src sev inj fresh) := by
  unfold Dev.dumpTrigger
  split
  · exact ite (fun _ => h.wr ..) fun _ => h
  · exact (h.setFlt _).wr ..

theorem alignStop (h : HostKept d0 d) : HostKept d0 d.alignStop := by
  unfold Dev.alignStop
  split
  · rename_i a _
    exact (h.setHw rOUT_TEE (Word.of a.tee)).front rfl
  · exact h

theorem mbxComplete (h : HostKept d0 d) (code : Nat) (res : List Nat) : HostKept d0 (d.mbxComplete code res) := by
  unfold Dev.mbxComplete
  exact ((((((h.alignStop).logEvent _ _ _).wr _ _).forN (fun _ _ h => h.wr _ _) 4).wr _ _).wr _ _).evt _

theorem dumpAbort (h : HostKept d0 d) : HostKept d0 d.dumpAbort := by
  unfold Dev.dumpAbort Dev.stopCopy
  exact (((h.mbxComplete _ _).when _ fun x h => (h.setFlt _).wr _ _).setNvmc _).when _ fun x h => h.wr _ _

theorem reactTo (h : HostKept d0 d) (src sev : Nat) (inj full forced : Bool) : HostKept d0 (d.reactTo src sev inj full forced) := by
  unfold Dev.reactTo
  dsimp only
  split
  · exact (h.when _ fun x h => h.wr _ _).when _ fun x h => h.ackEnd
  · refine (((((h.when _ fun x h => h.wr _ _).when _ fun x h => h.ackEnd).when _ ?_).when _ ?_).when _ ?_).when _ ?_
    · exact fun x h => (h.wr _ _).setFlt _
    · exact fun x h => (h.when _ fun x h => h.dumpAbort).dumpTrigger ..
    · exact fun x h => (h.wr _ _).setFlt _
    · exact fun x h => h.setFlt _

theorem afterCount (h : HostKept d0 d) (f : Firing) (sim : Bool) : HostKept d0 (d.afterCount f sim) := by
  unfold Dev.afterCount
  extract_lets d1 real d2 t e l flt d3 d4 d5
  have before : HostKept d0 d2 := (h.captureFiring f).when _ fun x h => h.wr _ _
  have notice : HostKept d0 d5 := (((before.setFlt _ : HostKept d0 d3).when _ fun x h => h.setNvmc _ : HostKept d0 d4)).when _ fun x h =>
    h.originate ..
  exact ite (fun _ => notice.reactTo ..) fun _ => notice

theorem fireAs (h : HostKept d0 d) (src detail : Nat) (acc : Option Access) (inj sim : Bool) : HostKept d0 (d.fireAs src detail acc inj sim) := by
  rw [Dev.fireAs_eq]
  exact ((h.evt _).bump _).afterCount ..

theorem fire (h : HostKept d0 d) (src detail : Nat) : HostKept d0 (d.fire src detail) := h.fireAs ..

theorem fireAcc (h : HostKept d0 d) (src detail addr : Nat) (m : Option Nat) (t : Nat) : HostKept d0 (d.fireAcc src detail addr m t) :=
  h.fireAs ..

theorem raise (h : HostKept d0 d) (src inst detail : Nat) : HostKept d0 (d.raise src inst detail) := by
  unfold Dev.raise
  exact ite (fun _ => h) fun _ => (h.setFlt _).fire ..

theorem lower (h : HostKept d0 d) (src inst : Nat) : HostKept d0 (d.lower src inst) := h.front (Dev.lower_front d src inst)

theorem level (h : HostKept d0 d) (src inst detail : Nat) (on : Bool) : HostKept d0 (d.level src inst detail on) := by
  unfold Dev.level
  exact ite (fun _ => h.raise ..) fun _ => h.lower ..

end HostKept

end Sys2Proof.Machine
end

section
/-!
PROOF. What SPI and I2C keep of their own stands through what the paddocks, their ports and their actuators do, and through selection
(04 R108 to R129; 05 R152 to R156).
-/

namespace Sys2Proof.Machine

namespace HostKept

variable {d0 d : Dev} {n k : Nat}

/-! ### Ports and words (07; 04 R108, R111; 06 R164) -/

theorem portPend (h : HostKept d0 d) (k : Nat) : HostKept d0 (d.portPend k) := h.wr _ _

theorem portFault (h : HostKept d0 d) (k cause : Nat) : HostKept d0 (d.portFault k cause) := by
  unfold Dev.portFault
  dsimp only
  split
  · exact (((((((h.wr _ _).wr _ _).wr _ _).when _ fun _ h => h.wr _ _).setPort _ _).evt _).fire _ _).portPend k
  · exact ite (fun _ => (((h.setPort _ _).wr _ _).setPort _ _).portPend k) fun _ => h.setPort _ _
  · exact h

theorem portsFreerun (h : HostKept d0 d) (pad : Nat) : HostKept d0 (d.portsFreerun pad) := by
  unfold Dev.portsFreerun
  exact ite (fun _ => h.foldl (fun _ _ h => ite (fun _ => h.portFault _ 2) fun _ => h) _) fun _ => h

theorem actuate (h : HostKept d0 d) (pad : Nat) (y : Int) : HostKept d0 (d.actuate pad y) := by
  unfold Dev.actuate
  split
  · exact ite (fun _ => h) fun _ => (((h.setApll _ _).wr _ _).wr _ _).wr _ _
  · exact ite (fun _ => (h.setPsyn _ _).setPsyn _ _) fun _ => h

theorem setWordY (h : HostKept d0 d) (n : Nat) (y : Int) : HostKept d0 (d.setWordY n y) := by
  have word := (h.setPad n fun p => { p with egAcc := d.egNow n, egAt := d.clk.tclk }).wr48 (PAD_FW_LO_VALUE n) (PAD_FW_HI_VALUE n) y
  unfold Dev.setWordY
  exact (ite (fun _ => word.setClk _) fun _ => word).actuate _ _

/-! ### The ends of jobs, and steps of device time (03 R78, R81, R82, R86, R89; 04 R112) -/

theorem slotBad (h : HostKept d0 d) (k : Nat) : HostKept d0 (d.slotBad k) := by
  unfold Dev.slotBad
  split
  · exact ite (fun _ => h) fun _ => ((h.setJob k _).evt _).fire _ _
  · exact h

theorem settleFlush (h : HostKept d0 d) (r : Nat) : HostKept d0 (d.settleFlush r) := by
  unfold Dev.settleFlush
  refine h.foldl (fun x k h => ?_) _
  split
  · exact ite (fun _ => h) fun _ => ite (fun _ => h.slotBad k) fun _ => h.setJob k _
  · exact h

theorem abortWhere (h : HostKept d0 d) (c : Nat) (p : Job → Bool) : HostKept d0 (d.abortWhere c p) := by
  unfold Dev.abortWhere Dev.abortSlots Dev.settleRings
  refine (h.foldl (fun x k h => ?_) _).forN (fun r x h => (h.settleFlush r).jobs (JobsOnly.promote r _)) 16
  split
  · exact ite (fun _ => h.setJob k _) fun _ => h
  · exact h

theorem takeStep (h : HostKept d0 d) (n : Nat) : HostKept d0 (d.takeStep n) := by
  unfold Dev.takeStep
  split
  · exact h
  · exact ite (fun _ => (h.setPad _ _).evt _) fun _ => ((((h.setPad _ _).setClk _).evt _).abortWhere _ _).jobs (JobsOnly.epochAll 4 _)

theorem padIdle (h : HostKept d0 d) (n : Nat) : HostKept d0 (d.padIdle n) := by
  unfold Dev.padIdle
  refine ite (fun _ => h) fun _ => ?_
  dsimp only
  split
  · split
    · exact ((h.takeStep n).setPad _ _).setWordY n _
    · exact (h.takeStep n).setPad _ _
  · exact h.takeStep n

/-! ### States of a paddock (04 R117 to R123, R128, R129) -/

theorem padHalt (h : HostKept d0 d) (n : Nat) : HostKept d0 (d.padHalt n) := (((h.setPad _ _).setSel _ _).wr _ _).wr _ _

theorem padTake (h : HostKept d0 d) (n st : Nat) : HostKept d0 (d.padTake n st) := by
  unfold Dev.padTake
  exact (((((h.wr _ _).evtIf _ _).when _ fun _ h => h.wr _ _).when _ fun _ h => (h.setPad _ _).wr _ _).when _
    fun _ h => h.setPad _ _).when _ fun _ h => h.fire _ _

theorem computeH (h : HostKept d0 d) (n : Nat) : HostKept d0 (d.computeH n).1 := by
  unfold Dev.computeH
  exact (((h.wr _ _).wr _ _).wr _ _).when _ fun _ h => h.wr48 _ _ _

theorem formHw (h : HostKept d0 d) (n : Nat) : HostKept d0 (d.formHw n) := h.wr48 _ _ _

theorem refreshHw (h : HostKept d0 d) (n : Nat) : HostKept d0 (d.refreshHw n) := by
  unfold Dev.refreshHw
  exact ite (fun _ => (h.formHw n).setWordY n _) fun _ => h.formHw n

theorem enterFreerun (h : HostKept d0 d) (n : Nat) (b : Bool) : HostKept d0 (d.enterFreerun n b) := by
  unfold Dev.enterFreerun
  exact (((((h.padTake n 0).padHalt n).setWordY n _).when _ fun _ h => (h.evt _).fire _ _).portsFreerun n).padIdle n

theorem enterHoldover (h : HostKept d0 d) (n : Nat) : HostKept d0 (d.enterHoldover n) := by
  unfold Dev.enterHoldover
  exact ((((h.padTake n 3).padHalt n).formHw n).setWordY n _).padIdle n

theorem setBw (h : HostKept d0 d) (n : Nat) (b : Nat × Nat) (s : Nat) (t : Bool) : HostKept d0 (d.setBw n b s t) :=
  ((h.setPad _ _).wr _ _).wr _ _

theorem enterAcquire (h : HostKept d0 d) (n : Nat) : HostKept d0 (d.enterAcquire n) := by
  unfold Dev.enterAcquire Dev.startLadder
  exact ite (fun _ => (((h.padTake n 1).padHalt n).setPad n _).setBw n _ _ _) fun _ => (((h.padTake n 1).padHalt n).setPad n _).setBw n _ _ _

theorem enterSteered (h : HostKept d0 d) (n : Nat) : HostKept d0 (d.enterSteered n) := by
  unfold Dev.enterSteered
  exact (((((h.padTake n 4).setWord _ _).setWord _ _).setWord _ _).setWord _ _).setPad _ _

theorem holdOr (h : HostKept d0 d) (n : Nat) (p : Prop) [Decidable p] : HostKept d0 (if p then d.refreshHw n else d.enterHoldover n) :=
  ite (fun _ => h.refreshHw n) fun _ => h.enterHoldover n

theorem padFall (h : HostKept d0 d) (n : Nat) : HostKept d0 (d.padFall n) := by
  unfold Dev.padFall
  split
  · exact ite (fun _ => h) fun _ => h.enterFreerun n _
  · exact ite (fun _ => (h.computeH n).holdOr n _) fun _ => ite (fun _ => h.computeH n) fun _ => (h.computeH n).enterFreerun n _

theorem padAuto (h : HostKept d0 d) (n : Nat) : HostKept d0 (d.padAuto n) := by
  unfold Dev.padAuto
  exact ite (fun _ => h) fun _ => ite (fun _ => h.enterAcquire n) fun _ => h.padFall n

theorem modeReq (h : HostKept d0 d) (n was : Nat) : HostKept d0 (d.modeReq n was) := by
  unfold Dev.modeReq
  dsimp only
  split
  · exact ite (fun _ => h.padAuto n) fun _ => ite (fun _ => h.padAuto n) fun _ => h
  · exact ite (fun _ => h) fun _ => h.enterFreerun n _
  · exact ite (fun _ => h.evt _) fun _ => ite (fun _ => ((h.computeH n).evt _).evt _) fun _ => (h.computeH n).holdOr n _
  · exact ite (fun _ => h.enterSteered n) fun _ => h.evt _
  · exact h.evt _

/-! ### Selection (05 R152 to R156) -/

theorem setSplit (h : HostKept d0 d) (n : Nat) (on : Bool) : HostKept d0 (d.setSplit n on) := ((h.wr _ _).evtIf _ _).level _ _ _ _

theorem markOut (h : HostKept d0 d) (n : Nat) (out : List Nat) : HostKept d0 (d.markOut n out) := h.forN (fun _ _ h => h.wr _ _) 8

theorem votePad (h : HostKept d0 d) (n : Nat) (fresh : List Nat) : HostKept d0 (d.votePad n fresh) := by
  have scored : ∀ {x : Dev} (v : Nat → Nat), HostKept d0 x → HostKept d0 (Machine.forN 8 (fun i d => d.wr (PAD_CAND_STAT_SCORE n i) (v i)) x) :=
    fun v hx => hx.forN (fun _ _ h => h.wr _ _) 8
  unfold Dev.votePad
  dsimp only
  split
  · have idle : ∀ x : Dev, HostKept d0 x → HostKept d0 (if x.flag (PAD_SEL_STAT_RANK_SPLIT n) = true then x.setSplit n false else x) :=
      fun x hx => ite (fun _ => hx.setSplit n false) fun _ => hx
    exact idle _ ((ite (fun _ => h) fun _ => scored _ (h.markOut n [])).setSel _ _)
  · refine ite (fun _ => h) fun _ => ?_
    have votes := fun v => scored v (h.setSel n fun s => { s with seen := d.disputants n })
    split
    · exact ite (fun _ => (votes _).setSel _ _) fun _ => (((votes _).markOut n _).setSel _ _).setSplit n _
    · exact (((votes _).markOut n _).setSel _ _).setSplit n _

theorem setActive (h : HostKept d0 d) (n : Nat) (new : Option Nat) : HostKept d0 (d.setActive n new) := by
  unfold Dev.setActive
  exact (((((h.wr _ _).wr _ _).wr _ _).wr _ _).setPad _ _).setPad _ _

theorem startHold (h : HostKept d0 d) (n : Nat) : HostKept d0 (d.startHold n) := by
  unfold Dev.startHold
  refine (((?_ : HostKept d0 _).setSel _ _).wr _ _).wr _ _
  exact ite (fun _ => h) fun _ => ite (fun _ => (h.setFresh _).setSel _ _) fun _ => h.setSel _ _

theorem onSelect (h : HostKept d0 d) (n : Nat) (old new : Option Nat) : HostKept d0 (d.onSelect n old new) := by
  unfold Dev.onSelect
  split
  · exact h
  · exact ite (fun _ => ((h.setActive n _).setSel n _).enterAcquire n) fun _ => (h.setActive n _).setSel n _
  · exact ite (fun _ => (h.padFall n).setActive n none) fun _ => (h.setActive n none).padIdle n
  · rename_i x y
    have switched := ((h.setActive n (some y)).bump (PAD_SWCNT_COUNT n)).evt (PAD_SEL_EVT_SWITCH n)
    exact ite (fun _ => switched.setPad _ _) fun _ => ite (fun _ => switched.startHold n) fun _ => switched

theorem publishCands (h : HostKept d0 d) (n : Nat) : HostKept d0 (d.publishCands n) := h.forN (fun _ _ h => (h.wr _ _).wr _ _) 8

theorem selectPad (h : HostKept d0 d) (n : Nat) (fresh : List Nat) : HostKept d0 (d.selectPad n fresh) := by
  unfold Dev.selectPad
  split
  · exact h
  · extract_lets d1 old c d2 d3 d4 stray
    have marked : HostKept d0 d3 := ((h.votePad n fresh).evtIf _ _).wr _ _
    have chosen : HostKept d0 d4 := ite (fun _ => marked) fun _ => (marked.onSelect n _ _).evtIf _ _
    exact ((chosen.wr _ _).when _ fun _ h => h.setPad _ _).publishCands n

theorem select (h : HostKept d0 d) : HostKept d0 d.select := by
  unfold Dev.select
  exact (h.setSelNow none).forN (fun n _ h => h.selectPad n _) 16

end HostKept

end Sys2Proof.Machine
end

section
/-!
PROOF. What an edge within a command keeps for the frame or transaction that runs: the words of the host's registers, SRAM, what SPI and I2C
keep of their own, and that an image has applied (10 R254, R260; 11 R284 to R290; 13 R355, R356).
-/

namespace Sys2Proof.Machine

namespace HostKept

variable {d0 d : Dev}

/-! ### SLEEP exit and FOLD (13 R353, R355, R356) -/

theorem refStartAll (h : HostKept d0 d) : HostKept d0 d.refStartAll := by
  have start : ∀ {x : Dev} (n : Nat), HostKept d0 x → HostKept d0 (x.refStart n) := fun n hx =>
    ite (fun _ => hx.setRef n _) fun _ => (hx.setRef n _).setWord _ _
  have stop : ∀ {x : Dev} (n : Nat), HostKept d0 x → HostKept d0 (x.refStop n) := fun n hx =>
    ite (fun _ => hx.setRef n _) fun _ => (hx.setRef n _).setWord _ _
  have all := h.forN (f := fun n d => if d.claimed n then d.refStart n else d.refStop n) (fun n x hx => ite (fun _ => start n hx) fun _ => stop n hx) 12
  exact ite (fun _ => start 12 all) fun _ => stop 12 all

theorem outTry (h : HostKept d0 d) (n : Nat) : HostKept d0 (d.outTry n) := by
  unfold Dev.outTry
  exact ite (fun _ => ((h.wr _ _).wr _ _).setOut n _) fun _ => h

theorem outStop (h : HostKept d0 d) (n : Nat) (b : Bool) : HostKept d0 (d.outStop n b) := by
  unfold Dev.outStop
  exact ite (fun _ => (((h.wr _ _).when _ fun _ h => h.wr _ _).setOut n _).lower 59 n) fun _ => ite (fun _ => h.wr _ _) fun _ => h

theorem psynsResume (h : HostKept d0 d) (k : Nat) : HostKept d0 (d.psynsResume k) :=
  h.forN (fun j _ h => h.when _ fun _ h => (h.setPsyn j _).wr _ _) 4

theorem outsWake (h : HostKept d0 d) : HostKept d0 d.outsWake := by
  unfold Dev.outsWake
  refine (h.forN (fun k x h => ?_) 6).forN (fun n _ h => h.outTry n) 24
  exact ite (fun _ => (((h.setApll k _).wr _ _).wr _ _).setApll k _) fun _ => ite (fun _ => h.psynsResume k) fun _ => h.setApll k _

theorem judgeDue (h : HostKept d0 d) (t : Int) : HostKept d0 (d.judgeDue t) :=
  h.forN (fun k _ h => ite (fun _ => h) fun _ => (h.setCell k _).setMeas _) 48

theorem sleepExit (h : HostKept d0 d) : HostKept d0 d.sleepExit := by
  have woken := ((h.refStartAll).forN (f := fun b d => ((d.setBeat b fun _ => Beat.fresh).setWord (rBN_STAT b) 0).beatQual b)
    (fun b _ h => (((h.setBeat b _).setWord _ _).wr _ _).askSelect none) 8).forN (fun n _ h => h.padAuto n) 16
  unfold Dev.sleepExit
  exact (((ite (fun _ => woken.judgeDue _) fun _ => woken).outsWake).forN (fun k _ h => h.portPend k) 8).askSelect none

theorem portsFold (h : HostKept d0 d) : HostKept d0 d.portsFold := by
  unfold Dev.portsFold
  refine h.forN (fun k x h => ?_) 8
  split
  · exact h.portFault k 1
  · exact h

/-! ### The end of an edge (05 R146, R156) -/

theorem straysBegin (h : HostKept d0 d) : HostKept d0 d.straysBegin :=
  h.forN (fun n _ h => ite (fun _ => (h.setRef n _).when _ fun _ h => (h.evt _).fire _ _) fun _ => h) 12

theorem buttonStep (h : HostKept d0 d) (n : Nat) : HostKept d0 (d.buttonStep n) := by
  unfold Dev.buttonStep
  dsimp only
  split
  · exact (h.wrBoth _ _).wrBoth _ _
  · exact h.wrBoth _ _

theorem buttonSteps (h : HostKept d0 d) : HostKept d0 d.buttonSteps :=
  h.forN (fun n _ h => h.when _ fun _ h => (h.setSel n _).forN (fun _ _ h => h.buttonStep n) _) 16

theorem modeHooks (h : HostKept d0 d) : HostKept d0 d.modeHooks :=
  h.forN (fun n _ h => h.when _ fun _ h => h.modeReq n _) 16

theorem keeps {A : Nat → Prop} {e : Dev} (h : Keeps A d e) : HostKept d e := of_front h.front

end HostKept

end Sys2Proof.Machine
end

section
/-!
PROOF. What an edge within a command keeps for the frame or transaction that runs on it: the words of the host's registers, SRAM, what SPI
and I2C keep of their own, and that an image has applied (10 R254, R260, R263; 11 R284 to R290; 13 R353 to R356).
-/

namespace Sys2Proof.Machine

/-- The words from the host block on, the frame's own state and an applied image stand. -/
structure FrameRuns (d e : Dev) : Prop extends HostKept d e where
  word : ∀ a, 0x0D0000 ≤ a → e.word a = d.word a
  applied : d.applied = true → e.applied = true

/-- And so does SRAM. -/
structure FrameKept (d e : Dev) : Prop extends FrameRuns d e where
  sram : e.sram = d.sram

theorem FrameRuns.trans {d e f : Dev} (h : FrameRuns d e) (h' : FrameRuns e f) : FrameRuns d f :=
  ⟨h.toHostKept.trans h'.toHostKept, fun a ha => (h'.word a ha).trans (h.word a ha), fun ha => h'.applied (h.applied ha)⟩

theorem Dev.applied_of_mode {e : Dev} (h : e.mode = .run ∨ e.mode = .fold) : e.applied = true := by
  unfold Dev.applied Dev.measuring
  rcases h with h | h <;> rw [h] <;> rfl

theorem Dev.applied_ne_reset {e : Dev} (h : e.applied = true) : e.mode ≠ .reset ∧ e.mode ≠ .boot := by
  unfold Dev.applied Dev.measuring at h
  constructor <;> intro hm <;> rw [hm] at h <;> exact absurd h (by decide)

namespace FrameKept

variable {d0 d : Dev}

theorem refl (d : Dev) : FrameKept d d := ⟨⟨HostKept.refl d, fun _ _ => rfl, id⟩, rfl⟩

theorem trans {e f : Dev} (h : FrameKept d e) (h' : FrameKept e f) : FrameKept d f :=
  ⟨h.toFrameRuns.trans h'.toFrameRuns, h'.sram.trans h.sram⟩

/-- A change that leaves the registers below 0x20, SRAM, and what lies from the host block on. -/
theorem of_low {e : Dev} (h : HostKept d e) (hl : Low d e) (hw : ∀ a, 0x0D0000 ≤ a → e.word a = d.word a) : FrameKept d e :=
  ⟨⟨h, hw, fun ha => (Dev.applied_congr (hl.word _ (by decide))).trans ha⟩, hl.sram⟩

theorem of_keeps {A : Nat → Prop} {e : Dev} (h : Keeps A d e) (hA : ∀ a, a = rDEV_MODE ∨ 0x0D0000 ≤ a → ¬ A a) : FrameKept d e :=
  ⟨⟨HostKept.keeps h, fun a ha => h.word a (hA a (Or.inr ha)), fun ha => (Dev.applied_congr (h.word _ (hA _ (Or.inl rfl)))).trans ha⟩, h.sram⟩

theorem not_belowCraft {a : Nat} (h : 0x0D0000 ≤ a) : ¬ BelowCraft a := by unfold BelowCraft; omega

/-- A change of an edge's end that leaves the registers below 0x20. -/
theorem of_reach {e : Dev} (h : HostKept d e) (hl : Low d e) (hr : OnlyRegs BelowCraft d e) : FrameKept d e :=
  of_low h hl fun a ha => hr.word a (not_belowCraft ha)

theorem padSide_below {a : Nat} (h : 0x0D0000 ≤ a) : ¬ PadSide a := not_padSide (by omega) (by omega)

theorem same {e : Dev} (h : e.live = d.live) (hs : e.sram = d.sram) (hf : e.front = d.front) : FrameKept d e :=
  ⟨⟨HostKept.of_front hf, fun a _ => Dev.word_congr h a, fun ha => (Dev.applied_congr (Dev.word_congr h _)).trans ha⟩, hs⟩

theorem wr (h : FrameKept d0 d) (f : Fld) (v : Nat) (h1 : 0x20 ≤ f.addr := by decide) (h2 : f.addr < 0x0D0000 := by decide) :
    FrameKept d0 (d.wr f v) :=
  h.trans (of_low ((HostKept.refl d).wr f v) ((Low.refl d).wr f v h1) fun a ha => Dev.word_setWord_of_ne d f.addr a _ (by omega))

theorem bump (h : FrameKept d0 d) (f : Fld) (h1 : 0x20 ≤ f.addr := by decide) (h2 : f.addr < 0x0D0000 := by decide) : FrameKept d0 (d.bump f) :=
  h.wr f _ h1 h2

/-! ### SLEEP exit and FOLD (13 R353, R355, R356) -/

theorem sleepExit (h : FrameKept d0 d) : FrameKept d0 d.sleepExit :=
  h.trans (of_reach (HostKept.refl d).sleepExit (Low.refl d).sleepExit (belowCraft_end.sleepExit d))

/-- A change of mode to RUN or FOLD. -/
theorem of_mode {e : Dev} {m : Mode} (hm : m = .run ∨ m = .fold) (hf : e.front = d.front) (hs : e.sram = d.sram)
    (hr : OnlyRegs BelowCraft d e) (he : d.mode ≠ .reset → e.mode = m) : FrameKept d e :=
  ⟨⟨HostKept.of_front hf, fun a ha => hr.word a (not_belowCraft ha), fun ha =>
    Dev.applied_of_mode (hm.imp (he (Dev.applied_ne_reset ha).1).trans (he (Dev.applied_ne_reset ha).1).trans)⟩, hs⟩

theorem setUnder (h : FrameKept d0 d) {m : Mode} (hm : m = .run ∨ m = .fold) : FrameKept d0 (d.setUnder m) := by
  refine h.trans (of_mode hm ?_ ?_ (belowCraft_end.setUnder d m) fun hn => ?_) <;> unfold Dev.setUnder <;> split
  · rfl
  · exact Dev.changeMode_front d m
  · rfl
  · exact Dev.changeMode_sram d m
  · next hr => exact absurd hr hn
  · exact Dev.mode_changeMode d m

theorem setUnderQuiet (h : FrameKept d0 d) {m : Mode} (hm : m = .run ∨ m = .fold) : FrameKept d0 (d.setUnderQuiet m) := by
  refine h.trans (of_mode hm ?_ ?_ (belowCraft_end.setUnderQuiet d m) fun hn => ?_) <;> unfold Dev.setUnderQuiet <;> split
  · rfl
  · exact Dev.setMode_front d m
  · rfl
  · exact Dev.setMode_sram d m
  · next hr => exact absurd hr hn
  · exact Dev.mode_setMode d m

theorem outsFold (h : FrameKept d0 d) : FrameKept d0 d.outsFold :=
  h.trans (of_reach ((HostKept.refl d).forN (fun _ _ h => h.outStop _ true) 24) ((Low.refl d).forN 24 _ fun _ _ x => (Low.refl x).outStop _ true)
    ((OnlyRegs.refl _ d).forN 24 _ fun _ hn x => belowCraft_end.outStop x hn true))

theorem portsFold (h : FrameKept d0 d) : FrameKept d0 d.portsFold := by
  have only := Apart.portsFold d
  exact h.trans (of_low (HostKept.refl d).portsFold (only.low PadSide.low) fun a ha => only.word a (padSide_below ha))

theorem sendNotice (h : FrameKept d0 d) (src sev : Nat) (fold : Bool) (t : Nat) : FrameKept d0 (d.sendNotice src sev fold t) := by
  obtain ⟨q, hq, -⟩ := d.originate_past 6 0xF ([src, sev + 4 * b2n fold] ++ tsBytes t)
  unfold Dev.sendNotice
  rw [hq]
  exact h.trans (same rfl rfl rfl)

theorem enterFold (h : FrameKept d0 d) : FrameKept d0 d.enterFold := by
  have woken : ∀ m : Mode, FrameKept d0 (if m = .sleep then (d.setUnderQuiet .run).sleepExit else d) := fun m => by
    split
    · exact (h.setUnderQuiet (Or.inl rfl)).sleepExit
    · exact h
  unfold Dev.enterFold
  split
  · exact h
  · exact h
  · exact h.wr _ _
  · have folded := (((woken d.underMode).bump FLT_FOLDS_COUNT).wr FLT_STAT_FOLD_REQ 1).setUnder (m := .fold) (Or.inr rfl)
    dsimp only
    generalize (((if d.underMode = .sleep then (d.setUnderQuiet .run).sleepExit else d).bump FLT_FOLDS_COUNT).wr FLT_STAT_FOLD_REQ 1).setUnder
      .fold = y at folded ⊢
    split
    · exact folded.outsFold.portsFold.sendNotice ..
    · exact folded.outsFold.portsFold

theorem leaveFold (h : FrameKept d0 d) : FrameKept d0 d.leaveFold := by
  unfold Dev.leaveFold Dev.outsUnfold
  refine (h.setUnder (Or.inl rfl)).trans (of_reach ((HostKept.refl _).forN (fun n _ h => (h.wr _ _).outTry n) 24)
    ((Low.refl _).forN 24 _ fun n _ x => ((Low.refl x).wr _ _ Low.reg).outTry n) ((OnlyRegs.refl _ _).forN 24 _ fun n hn x => ?_))
  exact ((OnlyRegs.refl _ x).wr _ _ (belowCraft_end.array hn)).trans (belowCraft_end.outTry _ hn)

theorem settleFold (h : FrameKept d0 d) : FrameKept d0 d.settleFold := by
  unfold Dev.settleFold
  split
  · dsimp only
    split
    · exact (h.wr _ _).leaveFold
    · exact h.wr _ _
  · exact h

theorem settleLamp (h : FrameKept d0 d) : FrameKept d0 d.settleLamp :=
  h.trans (of_keeps (A := fun a => a = rCRAFT_EVT) (Keeps.settleLamp d rfl) fun a ha hc => by
    rcases ha with rfl | ha
    · exact absurd hc (by decide)
    · rw [hc] at ha; exact absurd ha (by decide))

theorem settleCopy (h : FrameKept d0 d) : FrameKept d0 d.settleCopy := by
  unfold Dev.settleCopy
  dsimp only
  split
  · exact h.trans (of_reach (((HostKept.refl d).setFlt _).fire 49 0) (((Low.refl d).setFlt _).fire 49 0)
      (((OnlyRegs.refl _ d).setFlt _).fire 49 0 belowCraft_end.firing))
  · exact h

theorem settlePend (h : FrameKept d0 d) : FrameKept d0 d.settlePend := by
  unfold Dev.settlePend
  split
  · exact h.enterFold.trans (same rfl rfl rfl)
  · exact h

theorem finish (h : FrameKept d0 d) : FrameKept d0 d.finish := by
  have stat : ∀ a, a = rDEV_MODE ∨ 0x0D0000 ≤ a → ¬ CollectorReg a := fun a ha hc => by
    unfold CollectorReg rFLT_STAT rFLT_INJ_STAT rPAST_STAT at hc
    unfold rDEV_MODE at ha
    omega
  have kept : ∀ {x y : Dev}, FrameKept d0 x → Keeps CollectorReg x y → FrameKept d0 y := fun hx hk => hx.trans (of_keeps hk stat)
  have before := kept (kept (kept h.settleCopy.settlePend (Keeps.settleFatal _ (Or.inl rfl))) (Keeps.settleEsc _ (Or.inl rfl)))
    (Keeps.settleInj _ (Or.inr (Or.inl rfl)))
  exact (kept (kept before.settleFold (Keeps.settleElig _ (Or.inr (Or.inr rfl)))) (Keeps.settleFn _ (Or.inl rfl))).settleLamp

/-! ### What the present edge has left to its end (04 R121; 05 R146, R154, R156) -/

theorem straysBegin (h : FrameKept d0 d) : FrameKept d0 d.straysBegin := by
  have only : OnlyRegs BelowCraft d d.straysBegin := (OnlyRegs.refl _ d).forN 12 _ fun n hn x => by
    have fired : ∀ y, OnlyRegs BelowCraft y ((y.evt (REF_EVT_STRAY_ENTRY n)).fire 27 n) := fun y =>
      ((OnlyRegs.refl _ y).evt _ (belowCraft_end.ref (by omega))).fire 27 n belowCraft_end.firing
    dsimp only
    split
    · exact ((OnlyRegs.refl _ x).setRef n _).when _ _ (fired _)
    · exact OnlyRegs.refl _ x
  have low : Low d d.straysBegin := (Low.refl d).forN 12 _ fun n _ x => by
    have fired : ∀ y, Low y ((y.evt (REF_EVT_STRAY_ENTRY n)).fire 27 n) := fun y => ((Low.refl y).evt _ Low.reg).fire 27 n
    dsimp only
    split
    · exact ((Low.refl x).setRef n _).when _ _ (fired _)
    · exact Low.refl x
  exact h.trans (of_reach (HostKept.refl d).straysBegin low only)

theorem buttonStep (h : FrameKept d0 d) {n : Nat} (hn : n < 16) : FrameKept d0 (d.buttonStep n) := by
  have both : ∀ (x : Dev) (f : Fld) (v : Nat), f.addr = rPAD_SEL n → FrameKept x (x.wrBoth f v) := fun x f v hf =>
    of_low ((HostKept.refl x).wrBoth f v) ((Low.refl x).wrBoth f v (by rw [hf]; exact Low.reg)) fun a ha =>
      Dev.word_setWord_of_ne x f.addr a _ (by rw [hf]; unfold rPAD_SEL; omega)
  unfold Dev.buttonStep
  dsimp only
  split
  · exact (h.trans (both _ _ _ rfl)).trans (both _ _ _ rfl)
  · exact h.trans (both _ _ _ rfl)

theorem foldl {α : Type} (h : FrameKept d0 d) {f : Dev → α → Dev} (l : List α) (hf : ∀ k ∈ l, ∀ x, FrameKept d0 x → FrameKept d0 (f x k)) :
    FrameKept d0 (l.foldl f d) := by
  induction l generalizing d with
  | nil => exact h
  | cons k t ih => exact ih (hf k (by simp) d h) fun j hj => hf j (by simp [hj])

theorem forN (h : FrameKept d0 d) {f : Nat → Dev → Dev} (n : Nat) (hf : ∀ k < n, ∀ x, FrameKept d0 x → FrameKept d0 (f k x)) :
    FrameKept d0 (Machine.forN n f d) := h.foldl _ fun k hk => hf k (by simpa using hk)

theorem when (h : FrameKept d0 d) (b : Bool) {f : Dev → Dev} (hf : ∀ x, FrameKept d0 x → FrameKept d0 (f x)) : FrameKept d0 (d.when b f) := by
  cases b
  · exact h
  · exact hf d h

theorem buttonSteps (h : FrameKept d0 d) : FrameKept d0 d.buttonSteps :=
  h.forN 16 fun n hn _ h => h.when _ fun x h => (h.trans (same (d := x) (e := x.setSel n fun s => { s with presses := 0 }) rfl rfl rfl)).forN _ fun _ _ _ h => h.buttonStep hn

theorem select (h : FrameKept d0 d) : FrameKept d0 d.select :=
  h.trans (of_low (HostKept.refl d).select (Low.refl d).select fun a ha => (Apart.refl PadSide d).select.word a (padSide_below ha))

theorem modeHooks (h : FrameKept d0 d) : FrameKept d0 d.modeHooks :=
  h.forN 16 fun n hn _ h => h.when _ fun x h => h.trans (of_low ((HostKept.refl x).modeReq n _) ((Low.refl x).modeReq hn _) fun a ha =>
    ((Apart.refl PadSide x).modeReq hn _).word a (padSide_below ha))

/-- The edge of one part of a frame ends, and that of the next begins. -/
theorem nextEdge (d : Dev) : FrameKept d d.nextEdge := by
  have judged : ∀ {x : Dev}, FrameKept d x → FrameKept d x.judgeEdge := fun hx => by
    have selected := hx.straysBegin.buttonSteps.select
    unfold Dev.judgeEdge
    dsimp only
    split
    · exact selected.modeHooks
    · exact selected
  have ended : FrameKept d d.finish.endEdge := (refl d).finish.when _ fun _ h => (judged h).finish
  exact ended.trans (same rfl rfl rfl)

end FrameKept

end Sys2Proof.Machine
end

section
/-!
PROOF. The parts of an SPI frame and of an I2C transaction: a word written to or read from SHDATA, and an error (10 R254, R258, R263 to R265).
-/

namespace Sys2Proof.Machine

variable {d d0 : Dev} {m a n : Nat}

/-! ### A word of SHDATA (01 R27, R28) -/

theorem rowAt_sram (h1 : 0x100000 ≤ a) : rowAt a = none := by
  have key : regRowsAt a = [] := by
    obtain ⟨k, hk⟩ : ∃ k, a / 0x10000 = 16 + k := ⟨a / 0x10000 - 16, by omega⟩
    unfold regRowsAt
    rw [hk, Nat.add_comm]
    rfl
  unfold rowAt
  rw [key]
  rfl

/-- No access of SHDATA that is aligned is refused once an image has applied. -/
theorem Dev.shdata_open (ha : d.applied = true) (h0 : a % 4 = 0) (h1 : 0x158000 ≤ a) (h2 : a < 0x160000) (m : Nat) :
    d.Grants m a ∧ d.Serves m a := by
  obtain ⟨hreset, hboot⟩ := Dev.applied_ne_reset ha
  have hb : d.bootRefuses m = false := by unfold Dev.bootRefuses; simp [hboot]
  have hmap : mapped a = true := by unfold mapped; simp; omega
  have hcode : inShcode a = false := by unfold inShcode; simp; omega
  have hstage : inStage a = false := by unfold inStage; simp; omega
  have hro : hostReadOnly a = false := by unfold hostReadOnly; simp; omega
  have hlock : d.crookLocks a = false := by
    have htest : inTest a = false := by unfold inTest; simp; omega
    unfold Dev.crookLocks
    rw [htest, hcode, rowAt_sram (by omega)]
    simp
  have hkey : d.readLocked m a = false := by
    have hlow : ¬ 0x200000 ≤ a := by omega
    unfold Dev.readLocked
    simp [hlow]
  have hwin : ¬ 0x200000 ≤ a := by omega
  refine ⟨⟨hreset, ?_⟩, hreset, ?_⟩
  · simp [Dev.writeRefusal, h0, hmap, hb, hlock, hro, hcode, hwin, hstage]
  · simp [Dev.readRefusal, h0, hmap, hb, hkey]

theorem Dev.busWrite_shdata (ha : d.applied = true) (h0 : a % 4 = 0) (h1 : 0x158000 ≤ a) (h2 : a < 0x160000) (m w : Nat) :
    d.busWrite m a w = ((d.setSramWord a (w % 2 ^ 32)).accessEdge, true) := by
  obtain ⟨⟨hreset, hgrant⟩, -⟩ := Dev.shdata_open ha h0 h1 h2 m
  have hcode : inShcode a = false := by unfold inShcode; simp; omega
  unfold Dev.busWrite
  rw [if_neg hreset, hgrant]
  dsimp only
  rw [if_neg (by omega), hcode]
  rfl

theorem Dev.busRead_shdata (ha : d.applied = true) (h0 : a % 4 = 0) (h1 : 0x158000 ≤ a) (h2 : a < 0x160000) (m : Nat) :
    d.busRead m a = (d.sramWord a, d.accessEdge, true) := by
  obtain ⟨-, hreset, hserve⟩ := Dev.shdata_open ha h0 h1 h2 m
  unfold Dev.busRead
  rw [if_neg hreset, hserve]
  dsimp only
  rw [if_neg (by omega), if_pos (by omega), Dev.sramRead, if_neg (by omega)]

theorem inShdata.head (h : inShdata a (n + 1)) : a % 4 = 0 ∧ 0x158000 ≤ a ∧ a < 0x160000 := by
  obtain ⟨h0, h1, h2⟩ := h
  omega

theorem inShdata.tail (h : inShdata a (n + 1)) : inShdata (a + 4) n := by
  obtain ⟨h0, h1, h2⟩ := h
  exact ⟨by omega, by omega, by omega⟩

theorem inShdata.next (h : inShdata a (n + 1)) : nextAddr a = a + 4 := by
  obtain ⟨h0, h1, h2⟩ := h
  unfold nextAddr
  omega

theorem inShdata.mod (h : inShdata a n) : a % 0x1000000 = a := by
  obtain ⟨h0, h1, h2⟩ := h
  omega

theorem WroteSram.nil {e : Dev} (h : e.sram = d.sram) (a : Nat) : WroteSram d e a [] :=
  ⟨fun _ hi => absurd hi (Nat.not_lt_zero _), fun b _ => by rw [h]⟩

/-- A word is stored, and then the words above it. -/
theorem WroteSram.cons {x e : Dev} {w : Nat} {ws : List Nat} (h1 : 0x100000 ≤ a) (h2 : a + 4 ≤ 0x180000)
    (hx : x.sram = (d.setSramWord a (w % 2 ^ 32)).sram) (h : WroteSram x e (a + 4) ws) : WroteSram d e a (w :: ws) := by
  obtain ⟨hwords, hrest⟩ := h
  have hlen : (leBytes 4 (w % 2 ^ 32)).length = 4 := length_leBytes 4 _
  refine ⟨fun i hi => ?_, fun b hb => ?_⟩
  · cases i with
    | zero =>
      have hsame : ByteMem.bytes e.sram 0 a 4 = ByteMem.bytes x.sram 0 a 4 := by
        unfold ByteMem.bytes
        exact List.map_congr_left fun k hk => hrest _ (Or.inl (by rw [List.mem_range] at hk; omega))
      have hstored := Dev.sramWord_setSram d [] [] (w % 2 ^ 32) h1 (by simp only [List.nil_append, List.append_nil, hlen]; omega)
      simp only [List.nil_append, List.append_nil, List.length_nil, Nat.add_zero, Nat.mod_mod] at hstored
      simp only [Nat.mul_zero, Nat.add_zero, List.getD_cons_zero]
      unfold Dev.sramWord at hstored ⊢
      rw [hsame, hx]
      exact hstored
    | succ i =>
      have hi' : i < ws.length := by simpa using hi
      rw [List.getD_cons_succ, ← hwords i hi']
      congr 1
      omega
  · rw [List.length_cons] at hb
    rw [hrest b (by omega), hx]
    exact ByteMem.get_store_of_not_mem d.sram 0 0x100000 0x180000 a b _ (by rw [hlen]; omega)

end Sys2Proof.Machine
end

section
/-!
PROOF. The parts of an SPI frame: words stored and fetched, errors, and what any read leaves (10 R254, R256 to R258, R263 to R265).
-/

namespace Sys2Proof.Machine

variable {d d0 : Dev} {m a n : Nat}

theorem Dev.noteErr_of_none {k : Nat} (h : d.front.errs = k) : d.noteErr k = d := if_pos (Or.inl h)

theorem FrameRuns.stored (d : Dev) (a v : Nat) : FrameRuns d (d.setSramWord a v).accessEdge :=
  ⟨HostKept.of_front rfl, fun _ _ => Dev.word_congr rfl _, (Dev.applied_congr (Dev.word_congr rfl _)).trans⟩

/-- Words of a frame that go to SHDATA stand there. -/
theorem Dev.spiWords_spec (m : Nat) (ws : List Nat) : ∀ {d : Dev} {a : Nat}, d.applied = true → inShdata a ws.length →
    WroteSram d (d.spiWords m a ws) a ws ∧ FrameRuns d (d.spiWords m a ws) := by
  induction ws with
  | nil => exact fun _ _ => ⟨WroteSram.nil rfl _, (FrameKept.refl _).toFrameRuns⟩
  | cons w ws ih =>
    intro d a ha h
    obtain ⟨h0, h1, h2⟩ := h.head
    have edge := FrameKept.nextEdge d
    have hpart : d.spiPart (Dev.write m a w) = (d.nextEdge.setSramWord a (w % 2 ^ 32)).accessEdge := by
      have hw : d.nextEdge.write m a w = (d.nextEdge.setSramWord a (w % 2 ^ 32)).accessEdge :=
        congrArg Prod.fst (Dev.busWrite_shdata (edge.applied ha) h0 h1 h2 m w)
      unfold Dev.spiPart
      dsimp only
      rw [hw]
      exact Dev.noteErr_of_none rfl
    have stored := edge.toFrameRuns.trans (FrameRuns.stored d.nextEdge a (w % 2 ^ 32))
    have hsram : (d.spiPart (Dev.write m a w)).sram = (d.setSramWord a (w % 2 ^ 32)).sram := by
      rw [hpart]
      exact congrArg (fun x => ByteMem.store x 0 0x100000 0x180000 a (leBytes 4 (w % 2 ^ 32))) edge.sram
    rw [← hpart] at stored
    obtain ⟨hwrote, hruns⟩ := ih (stored.applied ha) h.tail
    rw [Dev.spiWords, h.next]
    exact ⟨WroteSram.cons (by omega) (by omega) hsram hwrote, stored.trans hruns⟩

/-- Words read of SHDATA are those that stand there. -/
theorem Dev.spiFetch_spec (m n : Nat) : ∀ {d : Dev} {a : Nat}, d.applied = true → inShdata a n →
    (d.spiFetch m n a).1 = (List.range n).map (fun i => d.sramWord (a + 4 * i)) ∧ FrameKept d (d.spiFetch m n a).2 := by
  induction n with
  | zero => exact fun _ _ => ⟨rfl, FrameKept.refl _⟩
  | succ n ih =>
    intro d a ha h
    obtain ⟨h0, h1, h2⟩ := h.head
    have edge := FrameKept.nextEdge d
    have hread := Dev.busRead_shdata (edge.applied ha) h0 h1 h2 m
    have hnote : (d.nextEdge.accessEdge).noteErr d.front.errs = d.nextEdge.accessEdge := Dev.noteErr_of_none edge.errs
    have kept : FrameKept d d.nextEdge.accessEdge := edge.trans (FrameKept.same rfl rfl rfl)
    obtain ⟨hwords, hkept⟩ := ih (kept.applied ha) h.tail
    rw [Dev.spiFetch, hread]
    dsimp only
    rw [hnote, h.next, hwords]
    refine ⟨?_, kept.trans hkept⟩
    rw [List.range_succ_eq_map, List.map_cons, List.map_map]
    refine List.cons_eq_cons.2 ⟨Dev.sramWord_congr edge.sram a, List.map_congr_left fun i _ => ?_⟩
    refine (Dev.sramWord_congr kept.sram _).trans (congrArg d.sramWord ?_)
    simp only [Nat.succ_eq_add_one]
    omega

/-! ### Errors (10 R254, R258, R265) -/

theorem Dev.not_frontDead (ha : d.applied = true) : ¬ d.frontDead = true := fun hd => (Dev.applied_ne_reset ha).1 (of_decide_eq_true hd)

theorem Dev.hostErr_front (d : Dev) (bit m addr : Nat) : (d.hostErr bit m addr).front = { d.front with errs := d.front.errs + 1 } := by
  unfold Dev.hostErr
  dsimp only
  rw [Dev.evtMask_front]
  unfold Dev.when
  split <;> rfl

/-- The registers that an error of the host port can write. -/
def ErrReg (b : Nat) : Prop := b = rHOST_ERR ∨ b = rHOST_ERR_CAP

theorem Wrote.err (d : Dev) (bit m addr : Nat) : Wrote ErrReg d (d.hostErr bit m addr) := Wrote.hostErr d bit m addr (Or.inl rfl) (Or.inr rfl)

/-- An SPI error that is no refusal: its bit and LAST_ERR are set. -/
theorem Dev.spiErr_spec {bit : Nat} (hb : bit < 24) (addr : Nat) (ha : d.applied = true) :
    (d.spiErr bit addr).flag ⟨rHOST_ERR, bit, bit⟩ = true ∧ (d.spiErr bit addr).front.lastErr = true ∧ (d.spiErr bit addr).sram = d.sram ∧
    (d.spiErr bit addr).applied = true ∧ ∀ b, 0x0D0000 ≤ b → ¬ ErrReg b → (d.spiErr bit addr).word b = d.word b := by
  have edge := FrameKept.nextEdge d
  have hset := d.nextEdge.hostErr_flag hb 0 addr
  have hwrote := Wrote.err d.nextEdge bit 0 addr
  have hfront := d.nextEdge.hostErr_front bit 0 addr
  have happ : (d.nextEdge.hostErr bit 0 addr).applied = true :=
    (Dev.applied_congr (hwrote.word _ (by unfold ErrReg; decide))).trans (edge.applied ha)
  have hpart : d.spiErr bit addr = { d.nextEdge.hostErr bit 0 addr with front := { (d.nextEdge.hostErr bit 0 addr).front with lastErr := true } } := by
    unfold Dev.spiErr Dev.spiPart
    rw [if_neg (Dev.not_frontDead ha)]
    dsimp only
    unfold Dev.noteErr
    rw [if_neg]
    rintro (h | h)
    · rw [hfront] at h
      exact absurd h (Nat.succ_ne_self _)
    · exact Dev.not_frontDead happ h
  rw [hpart]
  revert hset hwrote happ
  generalize d.nextEdge.hostErr bit 0 addr = x
  intro hset hwrote happ
  exact ⟨hset, rfl, hwrote.sram.trans edge.sram, happ, fun b hb he => (hwrote.word b he).trans (edge.word b hb)⟩

end Sys2Proof.Machine
end

section
/-!
PROOF. What a read at any address leaves for the frame that stalls after it: SRAM, the timeouts counted, and an applied image (10 R258, R262,
R264); and the SPI frames (O26).
-/

namespace Sys2Proof.Machine

variable {d d0 : Dev} {m a n : Nat}

/-- The timeouts counted, SRAM and an applied image stand. -/
structure CountKept (d e : Dev) : Prop where
  tmo : e.word rHOST_TMO_CNT = d.word rHOST_TMO_CNT
  sram : e.sram = d.sram
  applied : d.applied = true → e.applied = true

namespace CountKept

theorem refl (d : Dev) : CountKept d d := ⟨rfl, rfl, id⟩

theorem trans {e f : Dev} (h : CountKept d e) (h' : CountKept e f) : CountKept d f :=
  ⟨h'.tmo.trans h.tmo, h'.sram.trans h.sram, fun ha => h'.applied (h.applied ha)⟩

theorem of_frame {e : Dev} (h : FrameKept d e) : CountKept d e := ⟨h.word _ (by decide), h.sram, h.applied⟩

theorem of_words {e : Dev} (hs : e.sram = d.sram) (ht : e.word rHOST_TMO_CNT = d.word rHOST_TMO_CNT)
    (hm : e.word rDEV_MODE = d.word rDEV_MODE) : CountKept d e := ⟨ht, hs, (Dev.applied_congr hm).trans⟩

theorem same {e : Dev} (h : CountKept d0 d) (hl : e.live = d.live) (hs : e.sram = d.sram) : CountKept d0 e :=
  h.trans (of_words hs (Dev.word_congr hl _) (Dev.word_congr hl _))

theorem hostErr (h : CountKept d0 d) (bit m addr : Nat) : CountKept d0 (d.hostErr bit m addr) := by
  have hw := Wrote.err d bit m addr
  exact h.trans (of_words hw.sram (hw.word _ (by unfold ErrReg; decide)) (hw.word _ (by unfold ErrReg; decide)))

theorem bump (h : CountKept d0 d) (f : Fld) (ht : rHOST_TMO_CNT ≠ f.addr) (hm : rDEV_MODE ≠ f.addr) : CountKept d0 (d.bump f) :=
  h.trans (of_words rfl (Dev.word_setWord_of_ne _ _ _ _ ht) (Dev.word_setWord_of_ne _ _ _ _ hm))

theorem fireAcc (h : CountKept d0 d) (src detail addr : Nat) (m : Option Nat) (t : Nat) : CountKept d0 (d.fireAcc src detail addr m t) := by
  unfold Dev.fireAcc
  have hf := fun acc => Still.fireAs src detail acc false false d
  exact h.trans (of_words (hf _).sram ((hf _).word _ (not_firingReg (by decide) (by decide) (by decide) (by decide)))
    ((hf _).word _ (not_firingReg (by decide) (by decide) (by decide) (by decide))))

theorem refuse (h : CountKept d0 d) (bit m addr type : Nat) : CountKept d0 (d.refuse bit m addr type) := by
  unfold Dev.refuse
  exact ((h.hostErr bit m addr).bump HOST_REFUSED_CNT_COUNT (by decide) (by decide)).fireAcc ..

theorem noteErr (h : CountKept d0 d) (k : Nat) : CountKept d0 (d.noteErr k) := by
  unfold Dev.noteErr
  split
  · exact h
  · exact h.same rfl rfl

theorem setPmWord (h : CountKept d0 d) (m a : Nat) (w : Word) : CountKept d0 (d.setPmWord m a w) := h.same rfl rfl

theorem regRead (h : CountKept d0 d) (m a : Nat) : CountKept d0 (d.regRead m a).2 := by
  unfold Dev.regRead
  split
  · exact (((h.setPmWord ..).setPmWord ..).setPmWord ..).setPmWord ..
  · split
    · exact h
    · split
      · exact h.setPmWord ..
      · exact h

theorem readReg (h : CountKept d0 d) (m a : Nat) : CountKept d0 (d.readReg m a).2 := by
  have hsram : (d.asRead.regRead m a).2.sram = d.sram := ((refl d.asRead).regRead m a).sram
  unfold Dev.readReg
  split
  · exact h
  · exact h.same rfl hsram

theorem busRead (h : CountKept d0 d) (m a : Nat) : CountKept d0 (d.busRead m a).2.1 := by
  unfold Dev.busRead
  split
  · exact h
  · split
    · refine CountKept.same (d := Dev.refuse _ m a _ _) (CountKept.refuse ?_ ..) rfl rfl
      split
      · exact h.trans (of_words (Dev.evtMask_sram _ _ _) (Dev.word_evtMask_of_ne _ _ (by decide)) (Dev.word_evtMask_of_ne _ _ (by decide)))
      · exact h
    · split
      · exact (h.readReg m a).same rfl rfl
      · split <;> exact h.same rfl rfl

theorem spiFetch (m n : Nat) : ∀ {d : Dev} (a : Nat), CountKept d0 d → CountKept d0 (d.spiFetch m n a).2 := by
  induction n with
  | zero => exact fun _ h => h
  | succ n ih => exact fun a h => ih _ (((h.trans (of_frame (FrameKept.nextEdge _))).busRead m a).noteErr _)

theorem spiLoad (h : CountKept d0 d) (a n : Nat) (ahead : Bool) : CountKept d0 (d.spiLoad a n ahead).2 := by
  unfold Dev.spiLoad
  split
  · exact ((h.trans (of_frame (FrameKept.nextEdge _))).refuse ..).noteErr _
  · have fetched := spiFetch 0 n a h
    dsimp only
    cases ahead
    · exact fetched
    · change CountKept d0 (Dev.prefetch 0 _ _)
      unfold Dev.prefetch
      split
      · exact fetched.regRead ..
      · exact fetched

end CountKept

end Sys2Proof.Machine
end

section
/-!
PROOF. SPI frames (10 R253 to R258; O26).
-/

namespace Sys2Proof.Machine

variable {d : Dev} {a n : Nat}

/-! ### A frame opens, and a frame stalls -/

/-- What the opening of a frame leaves and what it writes. -/
structure Opened (d e : Dev) : Prop where
  word : ∀ b, b ≠ rHOST_SPI_FRAMES → e.word b = d.word b
  frames : e.rd HOST_SPI_FRAMES_COUNT = (d.rd HOST_SPI_FRAMES_COUNT + 1) % 2 ^ 32
  sram : e.sram = d.sram
  lastErr : e.front.lastErr = false

theorem Dev.spiOpen_spec (d : Dev) : Opened d d.spiOpen := by
  have hcount := Dev.bump_rd d (f := HOST_SPI_FRAMES_COUNT) (by decide)
  have hword : ∀ b, b ≠ rHOST_SPI_FRAMES → (d.bump HOST_SPI_FRAMES_COUNT).word b = d.word b := fun b hb => Dev.word_setWord_of_ne _ _ _ _ hb
  have hsram : (d.bump HOST_SPI_FRAMES_COUNT).sram = d.sram := Dev.bump_sram d _
  unfold Dev.spiOpen
  revert hcount hword hsram
  generalize d.bump HOST_SPI_FRAMES_COUNT = x
  exact fun hcount hword hsram => ⟨hword, hcount, hsram, rfl⟩

theorem Opened.count {e : Dev} (h : Opened d e) : CountKept d e :=
  CountKept.of_words h.sram (h.word _ (by decide)) (h.word _ (by decide))

theorem Opened.flag {e : Dev} (h : Opened d e) (f : Fld) (hf : f.addr ≠ rHOST_SPI_FRAMES) : e.flag f = d.flag f := by
  unfold Dev.flag Dev.rd
  rw [h.word _ hf]

theorem Opened.known {e : Dev} (h : Opened d e) (cmd : Nat) : e.spiKnown cmd = d.spiKnown cmd := by
  unfold Dev.spiKnown
  rw [h.flag _ (by decide)]

theorem Dev.spiKnown_plain (h : d.flag HOST_CFG_SPI_CRC_REQ = false) : d.spiKnown 0x02 = true ∧ d.spiKnown 0x0B = true := by
  unfold Dev.spiKnown
  rw [h]
  decide

theorem WroteSram.congr {d e d' e' : Dev} {ws : List Nat} (h : WroteSram d e a ws) (hd : d.sram = d'.sram) (he : e'.sram = e.sram) :
    WroteSram d' e' a ws := by
  obtain ⟨hwords, hrest⟩ := h
  exact ⟨fun i hi => (Dev.sramWord_congr he _).trans (hwords i hi), fun b hb => by rw [he, ← hd]; exact hrest b hb⟩

/-- A frame of aligned words for SHDATA stores them. -/
theorem Dev.spiStore_spec {ws : List Nat} (ha : d.applied = true) (h : inShdata a ws.length) :
    WroteSram d (d.spiStore a ws) a ws ∧ FrameRuns d (d.spiStore a ws) := by
  obtain ⟨h0, h1, h2⟩ := h
  have hstage : inStage a = false := by unfold inStage; simp; omega
  unfold Dev.spiStore
  rw [if_neg (by omega), if_neg (by simp [hstage])]
  exact Dev.spiWords_spec 0 ws ha ⟨h0, h1, h2⟩

/-- A frame that reads SHDATA returns what stands there; nothing is fetched ahead that has an effect. -/
theorem Dev.spiLoad_spec (ahead : Bool) (ha : d.applied = true) (h : inShdata a n) :
    (d.spiLoad a n ahead).1 = (List.range n).map (fun i => d.sramWord (a + 4 * i)) ∧ FrameKept d (d.spiLoad a n ahead).2 := by
  obtain ⟨hwords, hkept⟩ := Dev.spiFetch_spec 0 n ha h
  obtain ⟨h0, h1, h2⟩ := h
  have hnext : ¬ (a + 4 * n) % 0x1000000 < 0x0E0000 := by omega
  unfold Dev.spiLoad
  rw [if_neg (by omega)]
  dsimp only
  refine ⟨hwords, ?_⟩
  cases ahead
  · exact hkept
  · change FrameKept d (Dev.prefetch 0 _ _)
    unfold Dev.prefetch
    rw [if_neg fun hp => hnext hp.2]
    exact hkept

/-- What the end of a stalled frame leaves: the timeout is counted, and is an error. -/
structure TimedOut (d e : Dev) : Prop where
  flag : e.flag HOST_ERR_TIMEOUT = true
  count : e.rd HOST_TMO_CNT_COUNT = (d.rd HOST_TMO_CNT_COUNT + 1) % 2 ^ 32

theorem TimedOut.of_word {x e : Dev} (h : TimedOut x e) (hd : x.word rHOST_TMO_CNT = d.word rHOST_TMO_CNT) : TimedOut d e :=
  ⟨h.flag, h.count.trans (by rw [Dev.rd_of_word (f := HOST_TMO_CNT_COUNT) hd])⟩

theorem Dev.spiTimeout_spec (addr : Nat) (ha : d.applied = true) :
    TimedOut d ((d.bump HOST_TMO_CNT_COUNT).spiErr 4 addr) ∧ ((d.bump HOST_TMO_CNT_COUNT).spiErr 4 addr).front.lastErr = true ∧
      ((d.bump HOST_TMO_CNT_COUNT).spiErr 4 addr).sram = d.sram := by
  have hcount := Dev.bump_rd d (f := HOST_TMO_CNT_COUNT) (by decide)
  have hsram : (d.bump HOST_TMO_CNT_COUNT).sram = d.sram := Dev.bump_sram d _
  have happ : (d.bump HOST_TMO_CNT_COUNT).applied = true := (Dev.applied_congr (Dev.word_setWord_of_ne _ _ _ _ (by decide))).trans ha
  revert hcount hsram happ
  generalize d.bump HOST_TMO_CNT_COUNT = x
  intro hcount hsram happ
  obtain ⟨hset, hlast, hs, -, hword⟩ := Dev.spiErr_spec (bit := 4) (by decide) addr happ
  have hrd : (x.spiErr 4 addr).rd HOST_TMO_CNT_COUNT = x.rd HOST_TMO_CNT_COUNT := Dev.rd_of_word (hword _ (by decide) (by unfold ErrReg; decide))
  exact ⟨⟨hset, hrd.trans hcount⟩, hlast, hs.trans hsram⟩

/-- A stalled frame that writes no word leaves the timeouts counted, SRAM and an applied image until its timeout. -/
theorem CountKept.spiPartial (ha : d.applied = true) (part : SpiPart) (hp : part ≠ .write) (a : Nat) (ws : List Nat) :
    CountKept d (d.spiPartial part a ws).1 := by
  have unknown : CountKept d (d.spiErr 8 0) := by
    obtain ⟨-, -, hs, happ, hword⟩ := Dev.spiErr_spec (bit := 8) (by decide) 0 ha
    exact ⟨hword _ (by decide) (by unfold ErrReg; decide), hs, fun _ => happ⟩
  have answered : ∀ n ahead, CountKept d ((d.spiLoad a n ahead).2.answer (d.spiLoad a n ahead).1) := fun n ahead =>
    ((CountKept.refl d).spiLoad a n ahead).same rfl rfl
  unfold Dev.spiPartial
  cases part with
  | head cmd =>
    dsimp only
    split
    · exact CountKept.refl d
    · exact unknown
  | write => exact absurd rfl hp
  | read n ahead =>
    dsimp only
    split
    · exact answered ..
    · exact unknown
  | writeCrc => exact CountKept.refl d
  | readCrc count n ahead =>
    dsimp only
    split
    · exact answered ..
    · exact unknown

/-- A frame stalls once its parts have left an applied image. -/
theorem Dev.spiStall_eq {part : SpiPart} {ws : List Nat} (ha : d.applied = true) (hx : (d.spiOpen.spiPartial part a ws).1.applied = true) :
    d.spiStall part a ws = ((d.spiOpen.spiPartial part a ws).1.bump HOST_TMO_CNT_COUNT).spiErr 4 (d.spiOpen.spiPartial part a ws).2 := by
  unfold Dev.spiStall
  rw [if_neg (Dev.not_frontDead ha)]
  dsimp only
  rw [if_neg (Dev.not_frontDead hx)]

/-! ### The frames -/

theorem answer_rsp (d : Dev) (ws : List Nat) : (d.answer ws).rsp = ws.map Word.of := rfl

/-- WRITE (R256). -/
theorem Dev.spiWrite_spec {ws : List Nat} (ha : d.applied = true) (h : inShdata a ws.length) (hc : d.flag HOST_CFG_SPI_CRC_REQ = false) :
    WroteSram d (d.spiWrite a ws 0) a ws ∧ (d.spiWrite a ws 0).rd HOST_SPI_FRAMES_COUNT = (d.rd HOST_SPI_FRAMES_COUNT + 1) % 2 ^ 32 ∧
      (d.spiWrite a ws 0).front.lastErr = false := by
  have opened := d.spiOpen_spec
  obtain ⟨hwrote, hruns⟩ := Dev.spiStore_spec (opened.count.applied ha) h
  have heq : d.spiWrite a ws 0 = d.spiOpen.spiStore a ws := by
    unfold Dev.spiWrite
    rw [if_neg (Dev.not_frontDead ha), if_neg (by simp [(Dev.spiKnown_plain hc).1])]
    exact if_pos rfl
  rw [heq]
  exact ⟨hwrote.congr opened.sram rfl, (Dev.rd_of_word (hruns.word _ (by decide))).trans opened.frames, hruns.lastErr.trans opened.lastErr⟩

/-- READ (R256). -/
theorem Dev.spiRead_spec (ahead : Bool) (ha : d.applied = true) (h : inShdata a n) (hc : d.flag HOST_CFG_SPI_CRC_REQ = false) :
    (d.spiRead a n ahead).rsp = (List.range n).map (fun i => Word.of (d.sramWord (a + 4 * i))) ∧ (d.spiRead a n ahead).sram = d.sram := by
  have opened := d.spiOpen_spec
  obtain ⟨hwords, hkept⟩ := Dev.spiLoad_spec ahead (opened.count.applied ha) h
  have heq : d.spiRead a n ahead = (d.spiOpen.spiLoad a n ahead).2.answer (d.spiOpen.spiLoad a n ahead).1 := by
    unfold Dev.spiRead
    rw [if_neg (Dev.not_frontDead ha), if_neg (by simp [(Dev.spiKnown_plain hc).2])]
  rw [heq, answer_rsp, hwords, List.map_map]
  refine ⟨List.map_congr_left fun i _ => ?_, hkept.sram.trans opened.sram⟩
  exact congrArg Word.of (Dev.sramWord_congr opened.sram _)

/-- WRITE_CRC (R255). -/
theorem Dev.spiWriteCrc_spec {ws : List Nat} (crc : Nat) (ha : d.applied = true) (h : inShdata a ws.length) (h1 : 1 ≤ ws.length)
    (h2 : ws.length ≤ 64) :
    (crc = writeCrc a ws → WroteSram d (d.spiWriteCrc a ws 8 crc) a ws) ∧
    (crc ≠ writeCrc a ws → (d.spiWriteCrc a ws 8 crc).sram = d.sram ∧ (d.spiWriteCrc a ws 8 crc).flag HOST_ERR_CRC = true ∧
      (d.spiWriteCrc a ws 8 crc).front.lastErr = true ∧
      (d.spiWriteCrc a ws 8 crc).rd HOST_CRC_CNT_COUNT = (d.rd HOST_CRC_CNT_COUNT + 1) % 2 ^ 32) := by
  have opened := d.spiOpen_spec
  have heq : d.spiWriteCrc a ws 8 crc = if crc ≠ writeCrc a ws then (d.spiOpen.bump HOST_CRC_CNT_COUNT).spiErr 5 a
      else d.spiOpen.spiStore a ws := by
    unfold Dev.spiWriteCrc
    rw [if_neg (Dev.not_frontDead ha)]
    dsimp only
    rw [if_neg (by omega)]
  rw [heq]
  have happ := opened.count.applied ha
  refine ⟨fun hc => ?_, fun hc => ?_⟩
  · rw [if_neg (by simpa using hc)]
    exact (Dev.spiStore_spec happ h).1.congr opened.sram rfl
  · rw [if_pos hc]
    have hcount := Dev.bump_rd d.spiOpen (f := HOST_CRC_CNT_COUNT) (by decide)
    rw [Dev.rd_of_word (f := HOST_CRC_CNT_COUNT) (opened.word _ (by decide))] at hcount
    have hsram : (d.spiOpen.bump HOST_CRC_CNT_COUNT).sram = d.sram := (Dev.bump_sram _ _).trans opened.sram
    have happ' : (d.spiOpen.bump HOST_CRC_CNT_COUNT).applied = true :=
      (Dev.applied_congr (Dev.word_setWord_of_ne _ _ _ _ (by decide))).trans happ
    revert hcount hsram happ'
    generalize d.spiOpen.bump HOST_CRC_CNT_COUNT = x
    intro hcount hsram happ'
    obtain ⟨hset, hlast, hs, -, hword⟩ := Dev.spiErr_spec (bit := 5) (by decide) a happ'
    exact ⟨hs.trans hsram, hset, hlast, (Dev.rd_of_word (hword _ (by decide) (by unfold ErrReg; decide))).trans hcount⟩

/-- READ_CRC (R255). -/
theorem Dev.spiReadCrc_spec {count : Nat} (n : Nat) (ahead : Bool) {ws : List Nat} (ha : d.applied = true) (h : inShdata a count) (h1 : 1 ≤ count)
    (h2 : count ≤ 64) (hws : ws = (List.range (min n count)).map (fun i => d.sramWord (a + 4 * i))) :
    (d.spiReadCrc a count n ahead).rsp =
      (if n < count then ws else ws ++ [crc8 (wireHead 0x1B a ++ [count] ++ ws.flatMap wireBytes)]).map Word.of := by
  have opened := d.spiOpen_spec
  have hin : inShdata a (min n count) := by
    obtain ⟨h0, hlo, hhi⟩ := h
    exact ⟨h0, hlo, by have := Nat.min_le_right n count; omega⟩
  obtain ⟨hwords, -⟩ := Dev.spiLoad_spec (ahead && decide (n < count)) (opened.count.applied ha) hin
  have hsame : (d.spiOpen.spiLoad a (min n count) (ahead && decide (n < count))).1 = ws := by
    rw [hwords, hws]
    exact List.map_congr_left fun i _ => Dev.sramWord_congr opened.sram _
  unfold Dev.spiReadCrc
  rw [if_neg (Dev.not_frontDead ha), if_neg (by omega)]
  dsimp only
  rw [answer_rsp, hsame]

/-- A command byte that is not known (R253). -/
theorem Dev.spiOther_spec {cmd : Nat} (ha : d.applied = true) (hk : d.spiKnown cmd = false) :
    (d.spiOther cmd).flag HOST_ERR_UNKNOWN_CMD = true ∧ (d.spiOther cmd).front.lastErr = true ∧
      (d.spiOther cmd).rd HOST_SPI_FRAMES_COUNT = (d.rd HOST_SPI_FRAMES_COUNT + 1) % 2 ^ 32 := by
  have opened := d.spiOpen_spec
  obtain ⟨hset, hlast, -, -, hword⟩ := Dev.spiErr_spec (bit := 8) (by decide) 0 (opened.count.applied ha)
  have heq : d.spiOther cmd = d.spiOpen.spiErr 8 0 := by
    unfold Dev.spiOther
    rw [if_neg (by simp [Dev.not_frontDead ha, hk])]
    rfl
  rw [heq]
  exact ⟨hset, hlast, (Dev.rd_of_word (hword _ (by decide) (by unfold ErrReg; decide))).trans opened.frames⟩

/-- A frame that stalls (R258). -/
theorem Dev.spiStall_spec {part : SpiPart} (hp : part ≠ .write) (a : Nat) (ws : List Nat) (ha : d.applied = true) :
    (d.spiStall part a ws).sram = d.sram ∧ TimedOut d (d.spiStall part a ws) ∧ (d.spiStall part a ws).front.lastErr = true := by
  have opened := d.spiOpen_spec
  have parts := opened.count.trans (CountKept.spiPartial (opened.count.applied ha) part hp a ws)
  rw [Dev.spiStall_eq ha (parts.applied ha)]
  obtain ⟨hout, hlast, hsram⟩ := Dev.spiTimeout_spec (d.spiOpen.spiPartial part a ws).2 (parts.applied ha)
  exact ⟨hsram.trans parts.sram, hout.of_word parts.tmo, hlast⟩

/-- A WRITE that stalls: the words that were complete stand (R258). -/
theorem Dev.spiStall_write {ws : List Nat} (ha : d.applied = true) (h : inShdata a ws.length) (hc : d.flag HOST_CFG_SPI_CRC_REQ = false) :
    WroteSram d (d.spiStall .write a ws) a ws ∧ TimedOut d (d.spiStall .write a ws) := by
  have opened := d.spiOpen_spec
  obtain ⟨hwrote, hruns⟩ := Dev.spiStore_spec (opened.count.applied ha) h
  have hpart : (d.spiOpen.spiPartial .write a ws).1 = d.spiOpen.spiStore a ws :=
    if_pos ((opened.known 0x02).trans (Dev.spiKnown_plain hc).1)
  have happ : (d.spiOpen.spiPartial .write a ws).1.applied = true := by
    rw [hpart]
    exact hruns.applied (opened.count.applied ha)
  rw [Dev.spiStall_eq ha happ]
  obtain ⟨hout, -, hsram⟩ := Dev.spiTimeout_spec (d.spiOpen.spiPartial .write a ws).2 happ
  rw [hpart] at hout hsram ⊢
  exact ⟨hwrote.congr opened.sram hsram, hout.of_word ((hruns.word _ (by decide)).trans opened.count.tmo)⟩

/-- Settles O26: every word of a frame has its own edge, which leaves what the frame and the host's registers hold. -/
theorem spiFramesMoveWords : Obligations.SpiFramesMoveWords := by
  intro s dt a hap
  have ha : (s.dev.advance dt).applied = true := hap
  have lt : ∀ n, inShdata a n → a % 0x1000000 = a := fun n h => h.mod
  refine ⟨fun ws h hc => Effects.of_run (f := Dev.spiWrite (a % 0x1000000) ws 0) rfl ?_,
    fun n ahead h hc => Effects.of_run (f := Dev.spiRead (a % 0x1000000) n ahead) rfl ?_, fun ws h h1 h2 =>
    ⟨fun crc hc => Effects.of_run (f := Dev.spiWriteCrc (a % 0x1000000) ws 8 crc) rfl ?_,
      fun crc hc => Effects.of_run (f := Dev.spiWriteCrc (a % 0x1000000) ws 8 crc) rfl ?_⟩, fun count n ahead ws h h1 h2 hws =>
    ⟨fun hn => Effects.of_run (f := Dev.spiReadCrc (a % 0x1000000) count n ahead) rfl ?_,
      fun hn => Effects.of_run (f := Dev.spiReadCrc (a % 0x1000000) count n ahead) rfl ?_⟩,
    fun cmd hk => Effects.of_run (f := Dev.spiOther cmd) rfl ?_,
    fun part ws hp => Effects.of_run (f := Dev.spiStall part (a % 0x1000000) ws) rfl ?_,
    fun ws h hc => Effects.of_run (f := Dev.spiStall .write (a % 0x1000000) ws) rfl ?_⟩
  · rw [lt _ h]
    obtain ⟨hwrote, hframes, hlast⟩ := Dev.spiWrite_spec ha h hc
    exact ⟨hwrote.congr rfl rfl, hframes, hlast⟩
  · rw [lt _ h]
    exact Dev.spiRead_spec ahead ha h hc
  · rw [lt _ h]
    exact ((Dev.spiWriteCrc_spec crc ha h h1 h2).1 hc).congr rfl rfl
  · rw [lt _ h]
    exact (Dev.spiWriteCrc_spec crc ha h h1 h2).2 hc
  · rw [lt _ h, Dev.spiReadCrc_spec n ahead ha h h1 h2 hws, if_neg (by omega)]
  · rw [lt _ h, Dev.spiReadCrc_spec n ahead ha h h1 h2 hws, if_pos hn]
  · exact Dev.spiOther_spec ha hk
  · obtain ⟨hsram, hout, hlast⟩ := Dev.spiStall_spec hp (a % 0x1000000) ws ha
    exact ⟨hsram, hout.flag, hlast, hout.count⟩
  · rw [lt _ h]
    obtain ⟨hwrote, hout⟩ := Dev.spiStall_write ha h hc
    exact ⟨hwrote.congr rfl rfl, hout.flag, hout.count⟩

end Sys2Proof.Machine
end

section
/-!
PROOF. I2C transactions (10 R259 to R262; O27).
-/

namespace Sys2Proof.Machine

variable {d d0 : Dev} {a n : Nat}

/-- What the opening of a transaction leaves and what it writes. -/
structure XferOpened (d e : Dev) : Prop where
  word : ∀ b, b ≠ rHOST_I2C_XFERS → e.word b = d.word b
  count : e.rd HOST_I2C_XFERS_COUNT = (d.rd HOST_I2C_XFERS_COUNT + 1) % 2 ^ 32
  sram : e.sram = d.sram
  acked : e.front.i2cAck = 0
  ptr : e.front.i2cPtr = d.front.i2cPtr

theorem Dev.i2cOpen_spec (d : Dev) : XferOpened d d.i2cOpen := by
  have hcount := Dev.bump_rd d (f := HOST_I2C_XFERS_COUNT) (by decide)
  have hword : ∀ b, b ≠ rHOST_I2C_XFERS → (d.bump HOST_I2C_XFERS_COUNT).word b = d.word b := fun b hb => Dev.word_setWord_of_ne _ _ _ _ hb
  have hsram : (d.bump HOST_I2C_XFERS_COUNT).sram = d.sram := Dev.bump_sram d _
  unfold Dev.i2cOpen
  revert hcount hword hsram
  generalize d.bump HOST_I2C_XFERS_COUNT = x
  exact fun hcount hword hsram => ⟨hword, hcount, hsram, rfl, rfl⟩

theorem XferOpened.kept {e : Dev} (h : XferOpened d e) : CountKept d e :=
  CountKept.of_words h.sram (h.word _ (by decide)) (h.word _ (by decide))

/-- A word is acknowledged, and the pointer moves to `p`. -/
def Dev.ackAt (p : Nat) (d : Dev) : Dev := { d.setPtr p with front := { (d.setPtr p).front with i2cAck := (d.setPtr p).front.i2cAck + 1 } }

/-- Words of a transaction that go to SHDATA from the pointer stand there, each acknowledged, and the pointer has moved on. -/
structure WordsSent (ws : List Nat) (d e : Dev) : Prop where
  wrote : WroteSram d e d.front.i2cPtr ws
  acked : e.front.i2cAck = d.front.i2cAck + ws.length
  ptr : e.front.i2cPtr = d.front.i2cPtr + 4 * ws.length
  word : ∀ b, 0x0D0000 ≤ b → e.word b = d.word b
  applied : e.applied = true

theorem Dev.i2cWords_spec (ws : List Nat) : ∀ {d : Dev}, d.applied = true → inShdata d.front.i2cPtr ws.length → WordsSent ws d (d.i2cWords ws) := by
  induction ws with
  | nil => exact fun ha _ => ⟨WroteSram.nil rfl _, rfl, rfl, fun _ _ => rfl, ha⟩
  | cons w ws ih =>
    intro d ha h
    obtain ⟨h0, h1, h2⟩ := h.head
    have edge := FrameKept.nextEdge d
    have hwrite := Dev.busWrite_shdata (edge.applied ha) h0 h1 h2 1 w
    have hsram : (d.nextEdge.setSramWord d.front.i2cPtr (w % 2 ^ 32)).sram = (d.setSramWord d.front.i2cPtr (w % 2 ^ 32)).sram :=
      congrArg (fun x => ByteMem.store x 0 0x100000 0x180000 d.front.i2cPtr (leBytes 4 (w % 2 ^ 32))) edge.sram
    have runs := edge.toFrameRuns.trans (FrameRuns.stored d.nextEdge d.front.i2cPtr (w % 2 ^ 32))
    have hstore : (d.nextEdge.setSramWord d.front.i2cPtr (w % 2 ^ 32)).accessEdge.sram = (d.setSramWord d.front.i2cPtr (w % 2 ^ 32)).sram := hsram
    rw [Dev.i2cWords, hwrite, h.next]
    dsimp only
    rw [if_pos rfl]
    revert runs hstore
    generalize (d.nextEdge.setSramWord d.front.i2cPtr (w % 2 ^ 32)).accessEdge = x
    intro runs hstore
    obtain ⟨hwrote, hacked, hptr, hword, happ⟩ := ih (d := x.ackAt (d.front.i2cPtr + 4)) (runs.applied ha) h.tail
    refine ⟨WroteSram.cons (by omega) (by omega) hstore hwrote, hacked.trans ?_, hptr.trans ?_, fun b hb => (hword b hb).trans (runs.word b hb), happ⟩
    · change x.front.i2cAck + 1 + ws.length = d.front.i2cAck + (ws.length + 1)
      rw [runs.acked]
      omega
    · change d.front.i2cPtr + 4 + 4 * ws.length = d.front.i2cPtr + 4 * (ws.length + 1)
      omega

/-- Words fetched of SHDATA from the pointer are those that stand there, and the pointer has moved on. -/
theorem Dev.i2cFetch_spec (n : Nat) : ∀ {d : Dev}, d.applied = true → inShdata d.front.i2cPtr n →
    (d.i2cFetch n).1 = (List.range n).map (fun i => d.sramWord (d.front.i2cPtr + 4 * i)) ∧
      (d.i2cFetch n).2.front.i2cPtr = d.front.i2cPtr + 4 * n := by
  induction n with
  | zero => exact fun _ _ => ⟨rfl, rfl⟩
  | succ n ih =>
    intro d ha h
    obtain ⟨h0, h1, h2⟩ := h.head
    have edge := FrameKept.nextEdge d
    have hread := Dev.busRead_shdata (edge.applied ha) h0 h1 h2 1
    obtain ⟨hwords, hptr⟩ := ih (d := d.nextEdge.accessEdge.setPtr (d.front.i2cPtr + 4)) (edge.applied ha) h.tail
    rw [Dev.i2cFetch, hread, h.next]
    dsimp only
    rw [hwords, hptr]
    have hnew : (d.nextEdge.accessEdge.setPtr (d.front.i2cPtr + 4)).front.i2cPtr = d.front.i2cPtr + 4 := rfl
    have hstands : (d.nextEdge.accessEdge.setPtr (d.front.i2cPtr + 4)).sram = d.sram := edge.sram
    rw [hnew]
    refine ⟨?_, by omega⟩
    rw [List.range_succ_eq_map, List.map_cons, List.map_map]
    refine List.cons_eq_cons.2 ⟨Dev.sramWord_congr edge.sram _, List.map_congr_left fun i _ => ?_⟩
    refine (Dev.sramWord_congr hstands _).trans (congrArg d.sramWord ?_)
    simp only [Nat.succ_eq_add_one]
    omega

/-! ### Whole transactions -/

theorem Dev.i2cAddress_aligned (h : a % 4 = 0) : d.i2cAddress a = (some (d.setPtr a), d) := by
  unfold Dev.i2cAddress
  rw [if_neg (by omega)]

theorem Dev.i2cAddress_unaligned (h : a % 4 ≠ 0) : d.i2cAddress a = (none, d.nextEdge.refuse 1 1 a accWrite) := if_pos h

/-- I2C_WRITE (R260). -/
theorem Dev.i2cWrite_spec {ws : List Nat} (ha : d.applied = true) (h : inShdata a ws.length) :
    WroteSram d (d.i2cWrite a ws 0) a ws ∧ (d.i2cWrite a ws 0).front.i2cAck = ws.length ∧ (d.i2cWrite a ws 0).front.i2cPtr = a + 4 * ws.length ∧
      (d.i2cWrite a ws 0).rd HOST_I2C_XFERS_COUNT = (d.rd HOST_I2C_XFERS_COUNT + 1) % 2 ^ 32 ∧ (d.i2cWrite a ws 0).applied = true ∧
      (d.i2cWrite a ws 0).word rHOST_TMO_CNT = d.word rHOST_TMO_CNT := by
  have opened := d.i2cOpen_spec
  have sent := Dev.i2cWords_spec ws (d := d.i2cOpen.setPtr a) (opened.kept.applied ha) h
  have heq : d.i2cWrite a ws 0 = (d.i2cOpen.setPtr a).i2cWords ws := by
    unfold Dev.i2cWrite
    rw [if_neg (Dev.not_frontDead ha), Dev.i2cAddress_aligned h.1]
    exact if_pos (Or.inl rfl)
  rw [heq]
  refine ⟨sent.wrote.congr opened.sram rfl, ?_, sent.ptr, (Dev.rd_of_word (sent.word _ (by decide))).trans opened.count, sent.applied,
    (sent.word _ (by decide)).trans opened.kept.tmo⟩
  have hacked : (d.i2cOpen.setPtr a).front.i2cAck = 0 := opened.acked
  rw [sent.acked, hacked, Nat.zero_add]

/-- A transaction with an unaligned address (R261, R263). -/
theorem Dev.i2cWrite_unaligned (ws : List Nat) (left : Nat) (ha : d.applied = true) (h : a % 4 ≠ 0) :
    (d.i2cWrite a ws left).sram = d.sram ∧ (d.i2cWrite a ws left).front.i2cAck = 0 ∧ (d.i2cWrite a ws left).flag HOST_ERR_ALIGN = true := by
  have opened := d.i2cOpen_spec
  have edge := FrameKept.nextEdge d.i2cOpen
  have kept := (CountKept.refl d.i2cOpen.nextEdge).refuse 1 1 a accWrite
  have host : (d.i2cOpen.nextEdge.refuse 1 1 a accWrite).front.i2cAck = d.i2cOpen.nextEdge.front.i2cAck := by
    have herr : (d.i2cOpen.nextEdge.hostErr 1 1 a).front.i2cAck = d.i2cOpen.nextEdge.front.i2cAck := by rw [Dev.hostErr_front]
    unfold Dev.refuse
    exact (((HostKept.refl _).bump _).fireAcc ..).acked.trans herr
  have heq : d.i2cWrite a ws left = d.i2cOpen.nextEdge.refuse 1 1 a accWrite := by
    unfold Dev.i2cWrite
    rw [if_neg (Dev.not_frontDead ha), Dev.i2cAddress_unaligned h]
  rw [heq]
  exact ⟨kept.sram.trans (edge.sram.trans opened.sram), host.trans (edge.acked.trans opened.acked),
    (Dev.refuse_spec d.i2cOpen.nextEdge (by decide) 1 a accWrite).1⟩

/-- A read of SHDATA from the pointer, in an opened transaction. -/
theorem Dev.i2cGo_spec (ha : d.applied = true) (h : inShdata d.front.i2cPtr n) :
    ((d.i2cFetch n).2.answer (d.i2cFetch n).1).rsp = (List.range n).map (fun i => Word.of (d.sramWord (d.front.i2cPtr + 4 * i))) ∧
      ((d.i2cFetch n).2.answer (d.i2cFetch n).1).front.i2cPtr = d.front.i2cPtr + 4 * n := by
  obtain ⟨hwords, hptr⟩ := Dev.i2cFetch_spec n ha h
  refine ⟨?_, hptr⟩
  rw [answer_rsp, hwords, List.map_map]
  rfl

/-- I2C_READ with an address phase (R261). -/
theorem Dev.i2cRead_at (ha : d.applied = true) (h : inShdata a n) :
    (d.i2cRead (some a) n).rsp = (List.range n).map (fun i => Word.of (d.sramWord (a + 4 * i))) ∧ (d.i2cRead (some a) n).front.i2cPtr = a + 4 * n := by
  have opened := d.i2cOpen_spec
  obtain ⟨hrsp, hptr⟩ := Dev.i2cGo_spec (d := d.i2cOpen.setPtr a) (n := n) (opened.kept.applied ha) h
  have heq : d.i2cRead (some a) n = ((d.i2cOpen.setPtr a).i2cFetch n).2.answer ((d.i2cOpen.setPtr a).i2cFetch n).1 := by
    unfold Dev.i2cRead
    rw [if_neg (Dev.not_frontDead ha)]
    dsimp only
    rw [Dev.i2cAddress_aligned h.1]
  rw [heq]
  exact ⟨hrsp.trans (List.map_congr_left fun i _ => congrArg Word.of (Dev.sramWord_congr opened.sram _)), hptr⟩

/-- I2C_READ from the pointer as it stands (R261). -/
theorem Dev.i2cRead_on (ha : d.applied = true) (h : inShdata d.front.i2cPtr n) :
    (d.i2cRead none n).rsp = (List.range n).map (fun i => Word.of (d.sramWord (d.front.i2cPtr + 4 * i))) ∧
      (d.i2cRead none n).front.i2cPtr = d.front.i2cPtr + 4 * n := by
  have opened := d.i2cOpen_spec
  rw [← opened.ptr] at h ⊢
  obtain ⟨hrsp, hptr⟩ := Dev.i2cGo_spec (d := d.i2cOpen) (n := n) (opened.kept.applied ha) h
  have heq : d.i2cRead none n = (d.i2cOpen.i2cFetch n).2.answer (d.i2cOpen.i2cFetch n).1 := by
    unfold Dev.i2cRead
    rw [if_neg (Dev.not_frontDead ha)]
  rw [heq]
  exact ⟨hrsp.trans (List.map_congr_left fun i _ => congrArg Word.of (Dev.sramWord_congr opened.sram _)), hptr⟩

/-! ### Stalls (R262) -/

namespace CountKept

theorem i2cFetch (n : Nat) : ∀ {d : Dev}, CountKept d0 d → CountKept d0 (d.i2cFetch n).2 := by
  induction n with
  | zero => exact fun h => h
  | succ n ih => exact fun h => ih (((h.trans (of_frame (FrameKept.nextEdge _))).busRead 1 _).same rfl rfl)

theorem i2cRead (ha : d.applied = true) (at_ : Option Nat) (n : Nat) : CountKept d (d.i2cRead at_ n) := by
  have opened := d.i2cOpen_spec.kept
  have go : ∀ {x : Dev}, CountKept d x → CountKept d ((x.i2cFetch n).2.answer (x.i2cFetch n).1) := fun hx => (i2cFetch n hx).same rfl rfl
  unfold Dev.i2cRead
  rw [if_neg (Dev.not_frontDead ha)]
  cases at_ with
  | none => exact go opened
  | some a =>
    dsimp only
    by_cases h : a % 4 = 0
    · rw [Dev.i2cAddress_aligned h]
      exact go (opened.same rfl rfl)
    · rw [Dev.i2cAddress_unaligned h]
      exact ((opened.trans (of_frame (FrameKept.nextEdge _))).refuse ..).same rfl rfl

end CountKept

theorem Dev.i2cTimeout_spec (addr : Nat) :
    TimedOut d ((d.bump HOST_TMO_CNT_COUNT).nextEdge.hostErr 4 1 addr) ∧ ((d.bump HOST_TMO_CNT_COUNT).nextEdge.hostErr 4 1 addr).sram = d.sram := by
  have hcount := Dev.bump_rd d (f := HOST_TMO_CNT_COUNT) (by decide)
  have hsram : (d.bump HOST_TMO_CNT_COUNT).sram = d.sram := Dev.bump_sram d _
  revert hcount hsram
  generalize d.bump HOST_TMO_CNT_COUNT = x
  intro hcount hsram
  have kept := CountKept.of_frame (FrameKept.nextEdge x)
  have err := kept.hostErr 4 1 addr
  exact ⟨⟨Dev.hostErr_flag _ (by decide) 1 addr, (Dev.rd_of_word (f := HOST_TMO_CNT_COUNT) err.tmo).trans hcount⟩, err.sram.trans hsram⟩

/-- The part of a transaction that was done before it stalled. -/
def Dev.i2cPart (x : I2cXfer) (d : Dev) : Dev :=
  match x with
  | .head => d.i2cOpen
  | .write a ws => d.i2cWrite (a % 0x1000000) ws 0
  | .read a n => d.i2cRead (a.map fun a => a % 0x1000000) n

theorem Dev.i2cStall_eq {x : I2cXfer} (ha : d.applied = true) (hx : (d.i2cPart x).applied = true) :
    d.i2cStall x = ((d.i2cPart x).bump HOST_TMO_CNT_COUNT).nextEdge.hostErr 4 1 (d.i2cPart x).front.i2cPtr := by
  unfold Dev.i2cStall
  rw [if_neg (Dev.not_frontDead ha)]
  exact if_neg (Dev.not_frontDead hx)

theorem Dev.i2cStall_spec {x : I2cXfer} (ha : d.applied = true) (hx : ∀ a ws, x ≠ .write a ws) :
    (d.i2cStall x).sram = d.sram ∧ TimedOut d (d.i2cStall x) := by
  have part : CountKept d (d.i2cPart x) := by
    cases x with
    | head => exact d.i2cOpen_spec.kept
    | write a ws => exact absurd rfl (hx a ws)
    | read at_ n => exact CountKept.i2cRead ha _ n
  rw [Dev.i2cStall_eq ha (part.applied ha)]
  obtain ⟨hout, hsram⟩ := Dev.i2cTimeout_spec (d := d.i2cPart x) (d.i2cPart x).front.i2cPtr
  exact ⟨hsram.trans part.sram, hout.of_word part.tmo⟩

theorem Dev.i2cStall_write {ws : List Nat} (ha : d.applied = true) (h : inShdata a ws.length) :
    WroteSram d (d.i2cStall (.write a ws)) a ws ∧ TimedOut d (d.i2cStall (.write a ws)) := by
  obtain ⟨hwrote, -, -, -, happ, htmo⟩ := Dev.i2cWrite_spec ha h
  have hpart : d.i2cPart (.write a ws) = d.i2cWrite a ws 0 := congrArg (fun b => d.i2cWrite b ws 0) h.mod
  rw [Dev.i2cStall_eq ha (by rw [hpart]; exact happ), hpart]
  obtain ⟨hout, hsram⟩ := Dev.i2cTimeout_spec (d := d.i2cWrite a ws 0) (d.i2cWrite a ws 0).front.i2cPtr
  exact ⟨hwrote.congr rfl hsram, hout.of_word htmo⟩

/-- A transaction for this device. -/
theorem Dev.i2cFor_me {me : Nat} (h : me = 0x58 + d.boot.addrStrap) (f : Dev → Dev) : d.i2cFor me f = f d := if_pos h

/-- Settles O27: every word of a transaction has its own edge, which leaves the pointer and the acknowledgements. -/
theorem i2cTransactionsMoveWords : Obligations.I2cTransactionsMoveWords := by
  intro s dt a me hap hme
  have ha : (s.dev.advance dt).applied = true := hap
  have mine : ∀ f, (s.dev.advance dt).i2cFor me f = f (s.dev.advance dt) := fun f => Dev.i2cFor_me (d := s.dev.advance dt) hme f
  have run : ∀ {c : Instr} {f : Dev → Dev} {P : Dev → Prop}, exec c s = run dt (Dev.i2cFor me f) s → P (f (s.dev.advance dt)) → Effects c s P :=
    fun hc hp => Effects.of_run hc (by rw [mine]; exact hp)
  refine ⟨fun c target ht hc => ?_, fun ws h => run (f := Dev.i2cWrite (a % 0x1000000) ws 0) rfl ?_,
    fun ws left hlt h => run (f := Dev.i2cWrite (a % 0x1000000) ws left) rfl ?_,
    fun n h => run (f := Dev.i2cRead (some (a % 0x1000000)) n) rfl ?_, fun n hptr h => run (f := Dev.i2cRead none n) rfl ?_,
    fun x hx => run (f := Dev.i2cStall x) rfl ?_, fun ws h => run (f := Dev.i2cStall (.write a ws)) rfl ?_⟩
  · have other : ∀ f, (s.dev.advance dt).i2cFor target f = s.dev.advance dt := fun f => if_neg fun h => ht (h.trans hme.symm)
    rcases hc with ⟨ws, left, rfl⟩ | ⟨at_, n, rfl⟩ | ⟨x, rfl⟩ <;> exact Effects.of_run rfl (other _)
  · rw [h.mod]
    obtain ⟨hwrote, hacked, hptr, hcount, -, -⟩ := Dev.i2cWrite_spec ha h
    exact ⟨hwrote.congr rfl rfl, hacked, hptr, hcount⟩
  · rw [Nat.mod_eq_of_lt (show a < 0x1000000 from hlt)]
    exact Dev.i2cWrite_unaligned ws left ha h
  · rw [h.mod]
    exact Dev.i2cRead_at ha h
  · subst hptr
    exact Dev.i2cRead_on ha h
  · obtain ⟨hsram, hout⟩ := Dev.i2cStall_spec ha hx
    exact ⟨hsram, hout.flag, hout.count⟩
  · obtain ⟨hwrote, hout⟩ := Dev.i2cStall_write ha h
    exact ⟨hwrote.congr rfl rfl, hout.flag, hout.count⟩

end Sys2Proof.Machine
end
